-- ==== Sys2Proof/Word.lean ====
section
/-! DEFINITION. The word types of the terminal's registers, records and frames. -/

namespace Sys2Proof

/-- One byte: a frame byte, a byte of host memory, a scope of an event. -/
abbrev Byte := BitVec 8

/-- A 16-bit field (key handles, XGEM port IDs, status codes). -/
abbrev Half := BitVec 16

/-- A 32-bit register (R14) or sequence number. -/
abbrev Word := BitVec 32

/-- A 64-bit value: a host address, an identity, datum seconds. -/
abbrev DWord := BitVec 64

end Sys2Proof
end

