-- ==== Sys2Proof/Syntax.lean ====
section
/-! DEFINITION. The commands of the terminal: one constructor of `Instr` for each row of spec/opcode_table.json, and the types of their operands. An operand is what comes from outside the terminal at that step: a value written, the bytes a read returned, a level on a pin, a measurement. -/

namespace Sys2Proof

/-- A copper channel, 0 to 23 (00_scope.md, Naming). -/
abbrev Ch := Fin 24

/-- A ring number, 0 to 159 (02_host_port.md, Rings). -/
abbrev RingNo := Fin 160

/-- A PCI Express function: 0 is the PF, n + 1 the VF of channel n (R54). -/
abbrev Fn := Fin 25

/-- Who makes a register access (R375). The Ahnair port has its own commands. -/
inductive Requester where
  | pf
  | vf (c : Ch)
  | fw (cp : Fin 2)
  deriving DecidableEq, Repr

/-- The power domains of Table 01.1 whose registers an access can reach. -/
inductive Domain where
  | hif | core | upl | chla | chlb | rad | feed | aon
  deriving DecidableEq, Repr

/-- The four core rails of Table 14.1. -/
inductive Rail where
  | core | sds | ch | afe
  deriving DecidableEq, Repr

/-- How a host transfer ended (R62, R76, R92). -/
inductive XferResult where
  | ok | ur | ca | poisoned | timeout
  deriving DecidableEq, Repr

/-- A descriptor as the host wrote it (Table 02.5). -/
structure Desc where
  seq    : Word
  opcode : Half
  flags  : Half
  addr   : DWord
  len    : Word
  p0     : Word
  p1     : Word
  cookie : Word
  deriving DecidableEq, Repr

/-- A register access that waits for a sleeping domain (R60, R318): the value is present for a write. -/
structure Access where
  who   : Requester
  off   : BitVec 22
  value : Option Word
  deriving DecidableEq, Repr

/-- A ledger transfer (R73, R76, R77, R82). -/
inductive LXfer where
  | bench (r : RingNo)
  | hdrA | hdrB
  | adoptRead
  | spill
  deriving DecidableEq, Repr

/-- What an adoption reads from host memory (R82): both headers, both copies of the
benchmark records by ring number, the spill area, and for each re-created TRIB ring the
32-byte descriptors of the range named in R82 step 4 (`none`: the fetch of that one failed). -/
structure LedgerImage where
  hdrA  : List Byte
  hdrB  : List Byte
  recsA : List (List Byte)
  recsB : List (List Byte)
  spill : List Byte
  tribs : List (RingNo × Word × Option (List Byte))
  deriving DecidableEq, Repr

/-- Bus Master Enable as configuration software sets it, and what it has put into the function's Device Control and Device Control 2 registers by then (Table 02.1): the codes of Max Payload Size and Max Read Request Size as PCI Express encodes them, the completion timeout's range and its disable. -/
structure DevCtl where
  bme    : Bool
  mps    : BitVec 3
  mrrs   : BitVec 3
  cto    : BitVec 4
  ctoOff : Bool
  deriving DecidableEq, Repr

/-- What is moderated under R59: a ring's own interrupt, a PF event vector 7 to 15, or a channel's event vector (R368). -/
inductive ModSrc where
  | ring (r : RingNo)
  | pfVec (v : Fin 9)
  | chVec (c : Ch)
  deriving DecidableEq, Repr

/-- What a channel's receiver and the PCM highways present at a TDD frame boundary, of the frame that ends (R131, R167, R171). -/
structure FrameRx where
  /-- received power on loaded tones, in whole dB below the power measured in ENTRY (R171) -/
  dropDb   : Nat
  /-- the ADC's results in each upstream data slot, from the slot's first sample (R131, R136) -/
  adc      : List (List (BitVec 14))
  /-- the bits on PCM_A_DR and PCM_B_DR: four PCM frames of 256 bits (R167, R403) -/
  pcmIn    : List (List Bool)
  /-- the embedded operations bytes firmware hands over for the frame that begins (R157) -/
  eoc      : List Byte
  deriving DecidableEq, Repr

/-- Per-tone channel estimate H = a + jb as raw Q1.15 values (R143). -/
abbrev ToneH := BitVec 16 × BitVec 16

/-- How a training phase ended (Table 06.6). -/
inductive PhaseResult where
  /-- phases 0 and 6: the fixed duration elapsed -/
  | done
  /-- phase 2: round trip in ns -/
  | timing (roundTripNs : Nat)
  /-- phase 3: receive gain in dB, estimates per tone upstream -/
  | estimate (gain : Nat) (h : List ToneH)
  /-- phase 4: SNR per tone in 0.1 dB, downstream (as the peer measured it) and upstream -/
  | snr (ds us : List Nat)
  /-- phase 5: the peer's acknowledgement of the exchange arrived or not -/
  | exchanged (acked : Bool)
  /-- the timeout passed without the answer or probe the phase waits for -/
  | noAnswer
  /-- the peer fell silent -/
  | silent
  deriving DecidableEq, Repr

/-- A downstream PLOAM message as its 48 bytes arrive (R110): ONU-ID in the low 10 bits of bytes 0 and 1, type in byte 2, content to byte 39, integrity check in bytes 40 to 47. -/
abbrev Ploam := List Byte

/-- What a poll of the optics module brings (R105): the five diagnostics of page A2h, page A0h where it was read, and what firmware writes to the user area. -/
structure OpticsPoll where
  vals : Vector (Option Half) 5
  a0h  : Option (List Byte)
  user : Option (Byte × List Byte)
  deriving DecidableEq, Repr

/-- What a burst's content is fixed from (R109, R114, R119): the allocation structures of its grants as received, and the upstream PLOAM messages firmware has queued since. -/
structure BurstInput where
  allocs : List DWord
  ploams : List (List Byte)
  deriving DecidableEq, Repr

/-- A write that clears ROGUE, and the level of OPT_TX_SD at it (R125). -/
structure RogueWrite where
  who : Requester
  sd  : Bool
  deriving DecidableEq, Repr

/-- What an error in a packet-buffer bank strikes (R181): the identities of the frames it hit, and how many single-bit errors reads have corrected since the last one. -/
structure BankErrors where
  hit       : List Nat
  corrected : Nat
  deriving DecidableEq, Repr

/-- A burst profile as Burst_Profile teaches it: the bytes of its preamble and delimiter (R104, Table 05.4). -/
structure BurstProf where
  preamble  : List Byte
  delimiter : List Byte
  fec       : Bool
  deriving DecidableEq, Repr

/-- What a Disable_Serial_Number message orders (R113). -/
inductive SnOrder where
  | disable | enable | enableAll
  deriving DecidableEq, Repr

/-- One allocation structure of the bandwidth map after its parse (R109). `sn` marks a serial-number grant (Table 05.3). -/
structure Alloc where
  allocId : BitVec 14
  sn      : Bool
  dbru    : Bool
  ploamu  : Bool
  start   : BitVec 16
  grant   : BitVec 16
  fwi     : Bool
  profile : Fin 4
  deriving DecidableEq, Repr

/-- The PON power-saving timers (R129). -/
inductive PonTimer where
  | ilowpower | iaware | ihold | irxoff
  deriving DecidableEq, Repr

/-- The supply inputs of R286. -/
inductive SupIn where
  | main | bat | feed | aux
  deriving DecidableEq, Repr

/-- A declared level crossing (R287). -/
inductive Crossing where
  | low | int | high | restore
  /-- the input has stayed below HIGH for 100 µs: a surge closes (R288) -/
  | surgeEnd
  deriving DecidableEq, Repr

/-- Who asked for a SEC operation (R237): the host by a descriptor accepted on ring 9, or firmware through its port. -/
inductive SecSrc where
  | host (seq : Word)
  | fw (d : Desc)
  deriving DecidableEq, Repr

/-- How the read of a SEC operation block ended, and its 64 bytes (Table 11.4). -/
structure BlockRead where
  res : XferResult
  raw : List Byte
  deriving DecidableEq, Repr

/-- What a GCM core had in flight when it failed (R249): the channels whose frames, and the operations. -/
structure CoreHit where
  chans : List Ch
  ops   : List SecSrc
  deriving DecidableEq, Repr

/-- A received radio frame after its PHY (R276): its PSDU with the FCS, the FCS type of its PHR, LQI and RSSI. `roomAtSfd` false: no place of the store was free at its SFD. -/
structure RadRx where
  psdu     : List Byte
  fcs4     : Bool
  roomAtSfd : Bool
  lqi      : Byte
  rssi     : Byte
  deriving DecidableEq, Repr

/-- The keys under which a capsule's signature verifies (Table 15.9): the enrolled operator's, the Dravhar key. -/
structure SigKeys where
  operator : Bool
  dravhar  : Bool
  deriving DecidableEq, Repr

/-- The bytes an image is staged from, and whether its signature and digest verify (R339, log 194). -/
structure ImageRead where
  data  : List Byte
  sigOk : Bool
  deriving DecidableEq, Repr

/-- A capsule's bytes, and the keys under which its signature verifies (R353, log 194). -/
structure CapsuleRead where
  data : List Byte
  keys : SigKeys
  deriving DecidableEq, Repr

/-- A firmware flash operation (R336). -/
inductive FlashOp where
  | erase | program
  deriving DecidableEq, Repr

/-- Which event counter (R371). -/
inductive CntSel where
  | pf (i : Fin 32)
  | ch (c : Ch) (j : Fin 4)
  deriving DecidableEq, Repr

/-- Which receive-timestamp FIFO (R231). -/
inductive RxtsSel where
  | uplink
  | ch (c : Ch)
  deriving DecidableEq, Repr

/-- The two schedulers of a channel (Table 09.1). -/
inductive Dir where
  | ds | us
  deriving DecidableEq, Repr

/-- The commands: the rows of spec/opcode_table.json in their order. -/
inductive Instr where
  | powerOn
  | aonBrownOut
  | perstAssert
  | perstDeassert
  | pcieHotReset
  | linkDown
  | linkUp (width speed : BitVec 4)
  | pfFlr
  | vfFlr (c : Ch)
  | channelIslandFault (c : Ch)
  | hostFullReset (who : Requester) (key : Word)
  | testEnChange (level : Bool)
  | registerWrite (who : Requester) (off : BitVec 22) (v : Word)
  | unsupportedAccessWidth (who : Requester) (bar2 : Bool) (off : BitVec 22)
  | poisonedWrite (f : Fn) (bar2 : Bool) (off : BitVec 22)
  | busMasterEnableChange (f : Fn) (dc : DevCtl)
  | memorySpaceEnableChange (f : Fn) (on : Bool)
  | vfEnableWrite (enable : Bool) (numVfs : Half)
  | configPowerStateWrite (f : Fn) (d3hot : Bool)
  | domainWakeOnAccess (a : Access)
  | domainReady (d : Domain)
  | lingerExpiry (d : Domain)
  | doorbell (who : Requester) (off : BitVec 18) (v : Option Word)
  | descriptorFetch
  | descriptorFetchComplete (r : RingNo) (res : XferResult) (data : List Byte)
  | ringHaltedClear (who : Requester) (r : RingNo)
  | ringCfgWrite (who : Requester) (r : Fin 2) (v : Word)
  | createRing (r : RingNo) (seq : Word)
  | destroyRing (r : RingNo) (seq : Word)
  | recordWrite (r : RingNo)
  | recordAcknowledged (r : RingNo)
  | modTimeExpiry (m : ModSrc)
  | txFrame (r : RingNo) (seq : Word)
  | txBufferRead (r : RingNo) (seq : Word)
  | txBufferReadComplete (r : RingNo) (seq : Word) (res : XferResult) (data : List Byte)
  | rxBuffer (r : RingNo) (seq : Word)
  | rxFrameDeliver (r : RingNo)
  | lifetimeExpiry (r : RingNo) (seq : Word)
  | ledgerEnable (who : Requester)
  | ledgerAdopt (who : Requester) (res : XferResult) (img : LedgerImage)
  | ledgerClose (who : Requester)
  | ledgerWritesAcknowledged
  | benchmarkRecordWrite (r : RingNo)
  | ledgerTransferComplete (x : LXfer) (res : XferResult)
  | ledgerRetry (res : XferResult) (img : LedgerImage)
  | recoverySettle
  | recoveryDone
  | chtabRefresh (who : Requester) (mask : Word)
  | chRefresh (r : RingNo) (seq : Word)
  | chReset (r : RingNo) (seq : Word)
  | chtabEnableChange (who : Requester) (on : Bool)
  | chtabReadPhaseComplete (c : Ch) (res : XferResult) (data : List Byte)
  | chtabReadRetry (c : Ch)
  | chtabReadErrorRetry (c : Ch)
  | chHoldWrite (who : Requester) (c : Ch) (v : Word)
  | islandPowered (c : Ch)
  | tddFrameBoundary (c : Ch) (rx : FrameRx)
  | handshakeAnswer (c : Ch) (crcOk : Bool) (id : DWord)
  | trainingPhaseEnd (c : Ch) (r : PhaseResult)
  | marginUpdate (c : Ch) (snrUs : List Nat)
  | economyIdleTimerExpiry (c : Ch)
  | overheadReceived (c : Ch) (codewords : List (List Byte))
  | dtuReceived (c : Ch) (bytes : List Byte) (uncorr : Bool) (slotTime : Nat)
  | dtuClose (c : Ch)
  | dtuLost (c : Ch) (seq : Half)
  | lossOfLine (c : Ch)
  | tribBlock (r : RingNo) (seq : Word) (res : XferResult) (data : List Byte)
  | datumSecondBoundary
  | ppsOutWidthExpiry
  | psbdReceived (superframeHi : BitVec 19) (superframeLo : Word) (codewords : List (List Byte))
  | psyncExpectedMiss
  | optRxLosChange (level : Bool)
  | lodsTo2Expiry
  | optModAbsChange (level : Bool)
  | opticsDiagPoll (p : OpticsPoll)
  | i2cStretchTimeout (i : Fin 5)
  | ploamReceived (body check : List Byte)
  | burstProfile (m : Ploam) (i : Fin 4) (p : BurstProf)
  | assignOnuId (m : Ploam) (id : BitVec 10) (snHi snLo : Word)
  | rangingTime (m : Ploam) (absolute : Bool) (delay : Int)
  | assignAllocId (m : Ploam) (id : BitVec 14) (add : Bool)
  | deactivateOnuId (m : Ploam)
  | disableSerialNumber (m : Ploam) (o : SnOrder) (snHi snLo : Word)
  | xgemFrameReceived (hdrHi hdrLo : Word) (wordPos hdrBit : Nat) (payload : List Byte)
  | burstContentFix (tds : Nat) (b : BurstInput)
  | burstWindowOpen
  | burstWindowClose
  | backstopExpiry
  | rogueLight
  | rogueClear (w : RogueWrite)
  | emstopSet (who : Requester)
  | ponPowerSaveTimerExpiry (t : PonTimer)
  | uplPortRead (who : Requester) (idx : BitVec 10)
  | uplPortWrite (who : Requester) (idx : BitVec 10)
  | uplPortClear (who : Requester) (idx : BitVec 10)
  | upstreamFrameReceived (c : Ch) (bytes : List Byte) (rxTime : Nat)
  | pauseFrameReceived (c : Ch) (bytes : List Byte)
  | pauseTimerExpiry (c : Ch) (p : Fin 8)
  | pauseRefreshExpiry (c : Ch)
  | flowTableRead (who : Requester) (idx : BitVec 12)
  | flowTableWrite (who : Requester) (idx : BitVec 12)
  | flowTableClear (who : Requester) (idx : BitVec 12)
  | bufferUncorrectableError (bank : Fin 64) (e : BankErrors)
  | schedulerSelect (c : Ch) (d : Dir) (prio : Fin 8)
  | refillTick
  | gateIntervalExpiry (c : Ch)
  | gclSwap (who : Requester) (c : Ch)
  | histogramSample
  | histClr (who : Requester) (c : Ch)
  | todLoad (who : Requester) (kind : Bool)
  | phaseAverage
  | holdoverEntry
  | holdErrExceeded (err : Word)
  | crystalCalibration (inc : Nat)
  | datumInvalidate (who : Requester)
  | ppsInEdge
  | rxtsNext (who : Requester) (f : RxtsSel)
  | gcmEncrypt (q : SecSrc) (blk : BlockRead)
  | gcmDecrypt (q : SecSrc) (blk : BlockRead)
  | cmac (q : SecSrc) (blk : BlockRead)
  | cvUpdate (q : SecSrc)
  | cvSave (q : SecSrc)
  | cvRestore (q : SecSrc)
  | keyGen (q : SecSrc)
  | keyLoad (q : SecSrc) (blk : BlockRead)
  | keyImport (q : SecSrc) (blk : BlockRead)
  | keyExport (q : SecSrc) (blk : BlockRead)
  | keyDerive (q : SecSrc)
  | keyClear (q : SecSrc)
  | keyInfo (q : SecSrc)
  | random (q : SecSrc)
  | ccmStar (q : SecSrc) (blk : BlockRead)
  | gcmKnownAnswerTest (core : Fin 4) (pass : Bool)
  | gcmCoreFail (core : Fin 4) (hit : CoreHit)
  | trngHealthFail
  | trngRetest (pass : Bool)
  | drbgReseed
  | maskReseed
  | radFrame (seq : Word) (res : XferResult) (frame : List Byte)
  | csmaBackoffExpiry (busy : Bool)
  | lbtListenEnd (free : Bool)
  | radioTxEnd
  | radioAckReceived (psdu : List Byte) (fcs4 : Bool)
  | radioAckTimeout
  | radioFrameReceived (f : RadRx)
  | radioAckTransmit
  | radioRxDeliver
  | radDevRead (who : Requester) (idx : BitVec 5)
  | radDevWrite (who : Requester) (idx : BitVec 5)
  | radDevClear (who : Requester) (idx : BitVec 5)
  | levelCrossingDeclared (i : SupIn) (x : Crossing)
  | sealComplete
  | feedAdmissionTick (feedin : Half)
  | feedRampEnd (c : Ch)
  | feedShortTrip (c : Ch)
  | feedOverloadTrip (c : Ch)
  | feedPowerTrip (c : Ch)
  | feedBackoffExpiry (c : Ch)
  | feedTriesReset (c : Ch)
  | feedInrushAbort (c : Ch)
  | feedUnlock (who : Requester) (c : Ch)
  | feedHoldOff (who : Requester) (c : Ch) (on : Bool)
  | feedPulseStart (c : Ch)
  | feedPulseEnd (c : Ch)
  | feedWindowClose (c : Ch) (current : Half)
  | idleTimerExpiry
  | idleExit
  | sleepTimerExpiry
  | l1EntryRequest
  | pwrEnter (seq : Word)
  | pwrGoDeep
  | pwrGoOff
  | pmeTurnOff
  | entryTimeout
  | powerDownStep
  | railCollapse (r : Rail)
  | wakePin
  | pwrAlarm
  | powerUpStep
  | railGoodTimeout
  | powerUpRetry
  | imageHandover (positions : List (List Byte)) (parseOk : Bool)
  | watchdogKick (cp bit : Fin 2)
  | watchdogExpiry (cp : Fin 2)
  | cpReady (cp : Fin 2)
  | flashWrite (op : FlashOp) (off len : Nat)
  | ptpUnpairedDrop
  | fwStage (seq : Word) (res : XferResult) (img : ImageRead)
  | fwActivate (seq : Word)
  | fwConfirm (seq : Word)
  | fwFallback (seq : Word)
  | capsuleApply (seq : Word) (res : XferResult) (cap : CapsuleRead) (positions : List (List Byte))
  | confirmationTimeout
  | fwSlotFallback
  | fwSlotConfirm
  | revert
  | bmcOff (c : Ch) (on : Bool)
  | lockAll (who : Requester)
  | ahnairSelectFall (sck : Bool) (highNs : Nat)
  | ahnairSelectRise (bits : Nat)
  | read (addr : BitVec 24)
  | write (addr : BitVec 24)
  | status
  | arm (addr : BitVec 24)
  | ahnairUnknownOpcode (hdr : Word)
  | ahnairDataWord (v : Word)
  | evtSoft (who : Requester) (v : Word)
  | eventCounterConfig (who : Requester) (k : CntSel) (v : Word)
  | eventCounterClear (who : Requester) (k : CntSel)
  | counterDurationTick
  | secOperationComplete (q : SecSrc) (res : XferResult) (data : List Byte)
  | identityLoaded (copyA copyB : List Byte)
  | crystalRunning
  deriving DecidableEq, Repr

end Sys2Proof
end

