-- ==== Sys2Proof/WellFormed.lean ====
section
/-! DEFINITION. Well-formed commands: the shapes of data that the transfers and lines of the manual can deliver. A machine given a command that is not well-formed leaves its state or faults; no rule of the manual speaks of one. -/

namespace Sys2Proof

/-- An adoption reads both 256-byte headers, both copies of 160 benchmark records of 64 bytes, and the spill area (Tables 03.3 and 03.4, R82). -/
def LedgerImage.wf (img : LedgerImage) : Bool :=
  img.hdrA.length == 256 && img.hdrB.length == 256 && img.recsA.length == 160 && img.recsB.length == 160
    && img.tribs.all (fun t => match t.2.2 with | none => true | some b => b.length == 32) && img.recsA.all (fun b => b.length == 64) && img.recsB.all (fun b => b.length == 64) && img.spill.length == 8192

/-- Slots of 8,640 samples (R133), two highways with four PCM frames of 256 bits (R403), 16 operations bytes (Table 07.1). -/
def FrameRx.wf (rx : FrameRx) : Bool :=
  rx.adc.all (fun x => x.length == 8640) && rx.pcmIn.length == 2 && rx.pcmIn.all (fun x => x.length == 1024) && rx.eoc.length == 16

/-- A command of the shape its transfer or line can deliver: at most 8 descriptors in a fetch (Table 02.4), a table phase of 4 or 0x7F8 bytes (R88), codewords of 240 bytes (R154), an operation block of 64 bytes (Table 11.4). -/
def Instr.wf (i : Instr) : Bool :=
  match i with
  | .descriptorFetchComplete _ _ data => decide (data.length ≤ 256)
  | .ledgerAdopt _ res img => res != .ok || img.wf
  | .ledgerRetry res img => res != .ok || img.wf
  | .chtabReadPhaseComplete _ res data => res != .ok || data.length == 4 || data.length == 0x7F8
  | .tddFrameBoundary _ rx => rx.wf
  | .overheadReceived _ codewords => codewords.all (fun w => w.length == 240)
  | .gcmEncrypt _ blk => blk.res != .ok || blk.raw.length == 64
  | .gcmDecrypt _ blk => blk.res != .ok || blk.raw.length == 64
  | .cmac _ blk => blk.res != .ok || blk.raw.length == 64
  | .keyLoad _ blk => blk.res != .ok || blk.raw.length == 64
  | .keyImport _ blk => blk.res != .ok || blk.raw.length == 64
  | .keyExport _ blk => blk.res != .ok || blk.raw.length == 64
  | .ccmStar _ blk => blk.res != .ok || blk.raw.length == 64
  | .powerOn | .aonBrownOut | .perstAssert | .perstDeassert | .pcieHotReset | .linkDown | .linkUp _ _
  | .pfFlr | .vfFlr _ | .channelIslandFault _ | .hostFullReset _ _ | .testEnChange _ | .registerWrite _ _ _
  | .unsupportedAccessWidth _ _ _ | .poisonedWrite _ _ _ | .busMasterEnableChange _ _
  | .memorySpaceEnableChange _ _ | .vfEnableWrite _ _ | .configPowerStateWrite _ _ | .domainWakeOnAccess _
  | .domainReady _ | .lingerExpiry _ | .doorbell _ _ _ | .descriptorFetch | .ringHaltedClear _ _
  | .ringCfgWrite _ _ _ | .createRing _ _ | .destroyRing _ _ | .recordWrite _ | .recordAcknowledged _
  | .modTimeExpiry _ | .txFrame _ _ | .txBufferRead _ _ | .txBufferReadComplete _ _ _ _ | .rxBuffer _ _
  | .rxFrameDeliver _ | .lifetimeExpiry _ _ | .ledgerEnable _ | .ledgerClose _ | .ledgerWritesAcknowledged
  | .benchmarkRecordWrite _ | .ledgerTransferComplete _ _ | .recoverySettle | .recoveryDone
  | .chtabRefresh _ _ | .chRefresh _ _ | .chReset _ _ | .chtabEnableChange _ _ | .chtabReadRetry _
  | .chtabReadErrorRetry _ | .chHoldWrite _ _ _ | .islandPowered _ | .handshakeAnswer _ _ _
  | .trainingPhaseEnd _ _ | .marginUpdate _ _ | .economyIdleTimerExpiry _ | .dtuReceived _ _ _ _
  | .dtuClose _ | .dtuLost _ _ | .lossOfLine _ | .tribBlock _ _ _ _ | .datumSecondBoundary
  | .ppsOutWidthExpiry | .psbdReceived _ _ _ | .psyncExpectedMiss | .optRxLosChange _ | .lodsTo2Expiry
  | .optModAbsChange _ | .opticsDiagPoll _ | .i2cStretchTimeout _ | .ploamReceived _ _ | .burstProfile _ _ _
  | .assignOnuId _ _ _ _ | .rangingTime _ _ _ | .assignAllocId _ _ _ | .deactivateOnuId _
  | .disableSerialNumber _ _ _ _ | .xgemFrameReceived _ _ _ _ _ | .burstContentFix _ _ | .burstWindowOpen
  | .burstWindowClose | .backstopExpiry | .rogueLight | .rogueClear _ | .emstopSet _
  | .ponPowerSaveTimerExpiry _ | .uplPortRead _ _ | .uplPortWrite _ _ | .uplPortClear _ _
  | .upstreamFrameReceived _ _ _ | .pauseFrameReceived _ _ | .pauseTimerExpiry _ _ | .pauseRefreshExpiry _
  | .flowTableRead _ _ | .flowTableWrite _ _ | .flowTableClear _ _ | .bufferUncorrectableError _ _
  | .schedulerSelect _ _ _ | .refillTick | .gateIntervalExpiry _ | .gclSwap _ _ | .histogramSample | .histClr _ _ | .todLoad _ _
  | .phaseAverage | .holdoverEntry | .holdErrExceeded _ | .crystalCalibration _ | .datumInvalidate _
  | .ppsInEdge | .rxtsNext _ _ | .cvUpdate _ | .cvSave _ | .cvRestore _ | .keyGen _ | .keyDerive _
  | .keyClear _ | .keyInfo _ | .random _ | .gcmKnownAnswerTest _ _ | .gcmCoreFail _ _ | .trngHealthFail
  | .trngRetest _ | .drbgReseed | .maskReseed | .radFrame _ _ _ | .csmaBackoffExpiry _ | .lbtListenEnd _
  | .radioTxEnd | .radioAckReceived _ _ | .radioAckTimeout | .radioFrameReceived _ | .radioAckTransmit
  | .radioRxDeliver | .radDevRead _ _ | .radDevWrite _ _ | .radDevClear _ _ | .levelCrossingDeclared _ _
  | .sealComplete | .feedAdmissionTick _ | .feedRampEnd _ | .feedShortTrip _ | .feedOverloadTrip _
  | .feedPowerTrip _ | .feedBackoffExpiry _ | .feedTriesReset _ | .feedInrushAbort _ | .feedUnlock _ _
  | .feedHoldOff _ _ _ | .feedPulseStart _ | .feedPulseEnd _ | .feedWindowClose _ _ | .idleTimerExpiry
  | .idleExit | .sleepTimerExpiry | .l1EntryRequest | .pwrEnter _ | .pwrGoDeep | .pwrGoOff | .pmeTurnOff
  | .entryTimeout | .powerDownStep | .railCollapse _ | .wakePin | .pwrAlarm | .powerUpStep | .railGoodTimeout
  | .powerUpRetry | .imageHandover _ _ | .watchdogKick _ _ | .watchdogExpiry _ | .cpReady _
  | .flashWrite _ _ _ | .ptpUnpairedDrop | .fwStage _ _ _ | .fwActivate _ | .fwConfirm _ | .fwFallback _
  | .capsuleApply _ _ _ _ | .confirmationTimeout | .fwSlotFallback | .fwSlotConfirm | .revert | .bmcOff _ _
  | .lockAll _ | .ahnairSelectFall _ _ | .ahnairSelectRise _ | .read _ | .write _ | .status | .arm _
  | .ahnairUnknownOpcode _ | .ahnairDataWord _ | .evtSoft _ _ | .eventCounterConfig _ _ _
  | .eventCounterClear _ _ | .counterDurationTick | .secOperationComplete _ _ _ | .identityLoaded _ _
  | .crystalRunning => true

end Sys2Proof
end

