-- ==== Sys2Proof/Decode.lean ====
section
/-! DEFINITION. The command a word spells by the bits of spec/opcode_table.json. No row of that table gives any bits (every row's fields are empty), so no word spells a command. -/

namespace Sys2Proof

/-- The command spelled by the `nbits`-bit word `w`: none, since the opcode table gives no row any bits. -/
def decodeTableWord (_nbits _w : Nat) : Option Instr := none

end Sys2Proof
end

