-- ==== Sys2Proof/Config.lean ====
section
/-! DEFINITION. The free values: what the manual leaves open, or takes from a standard it does not reproduce. Each is an opaque constant with no body, so no proof can see what it is and a statement holds whatever it is. `fresh` counts read `State.free`. -/

namespace Sys2Proof.Config

/-- A random number below 2^k drawn from the DRBG or TRNG (R261): the n-th draw. Nothing constrains it. -/
opaque draw : Nat → Nat → Nat

/-- The n-th block of random bytes of a given length drawn from the DRBG (R246, R261 RANDOM). -/
opaque drawBytes : Nat → Nat → List Byte

/-- A value the manual does not state (fields of HW registers before the first measurement it names, INPUT of some log entries and the like): the n-th such value. -/
opaque freeWord : Nat → Word

/-- AES-GCM seal: key, IV, AAD, plaintext, giving ciphertext and tag. The manual names NIST/IEEE standards and does not reproduce them. -/
opaque gcmSeal : List Byte → List Byte → List Byte → List Byte → List Byte × List Byte

/-- AES-GCM open: key, IV, AAD, ciphertext, giving plaintext and the computed tag. -/
opaque gcmOpen : List Byte → List Byte → List Byte → List Byte → List Byte × List Byte

/-- AES-CMAC of a message under a key. -/
opaque cmac : List Byte → List Byte → List Byte

/-- AES-CTR keystream application: key, counter block fields (superframe counter, word position), bytes. -/
opaque aesCtr : List Byte → Nat → Nat → List Byte → List Byte

/-- AES-128-ECB of a block under a key (Key_Report, R246 METHOD 1). -/
opaque aesEcb : List Byte → List Byte → List Byte

/-- RFC 3394 key wrap: wrapping key, key bytes. -/
opaque keyWrap : List Byte → List Byte → List Byte

/-- RFC 3394 key unwrap: wrapping key, wrapped bytes; `none` when the integrity check fails. -/
opaque keyUnwrap : List Byte → List Byte → Option (List Byte)

/-- CCM* of IEEE 802.15.4: key, nonce, authenticated-only bytes, payload, MIC length, ENC; gives payload out and MIC. -/
opaque ccmSeal : List Byte → List Byte → List Byte → List Byte → Nat → Bool → List Byte × List Byte

/-- CCM* in the receive direction: payload out and the computed MIC. -/
opaque ccmOpen : List Byte → List Byte → List Byte → List Byte → Nat → Bool → List Byte × List Byte

/-- The constants G.9807.1 defines for KEY_DERIVE (R257) by selector. -/
opaque deriveConst : Nat → List Byte

/-- The standard's default PLOAM integrity key (R256, R257 selector 3). -/
opaque defaultPloamIk : List Byte

/-- The key of slot 0, loaded from fuses (11_cipher.md, Slots and handles). -/
opaque rootKey : List Byte

/-- The content of the pre-built Dying_Gasp message, type to byte 39 (R127), which G.9807.1 lays out. -/
opaque dyingGasp : List Byte

/-- What a burst with PLOAMu carries in its 48 bytes when no message is queued, which the manual does not say. -/
opaque noPloam : List Byte

/-- Which slot counts as the inactive one while no image runs (R337, R339), which the manual does not say. -/
opaque monitorSlot : Nat

/-- The frame counter of a frame to be secured whose auxiliary security header carries none, for which R271 gives no other source. -/
opaque auxCounter : List Byte → Nat

/-- The unsecured Enh-Ack without IEs that answers a received frame (R265), without its FCS. -/
opaque enhAck : List Byte → List Byte

/-- The constellation point of a label, in Q1.15, for a PSD_CAP and a number of bits (R154): the manual gives no constellation. -/
opaque point : Nat → Nat → Nat → BitVec 16 × BitVec 16

/-- The label a tone carries in a slot of a training phase, and in the sync symbol (Table 06.6): the manual calls them known and does not give them. -/
opaque trainLabel : Nat → Nat → Nat → Nat
opaque syncLabel : Nat → Nat

/-- The exact sums of a radix-2 stage of the transform, inverse or not (R141): the manual gives their rounding and not the stage's twiddle factors. -/
opaque stageSums : Bool → Nat → List Int → List Int

/-- Sample i of a symbol slot after the transmit window, for the symbol before and the symbol itself (R134): a raised-cosine shape whose samples the manual does not give. -/
opaque windowed : List Int → List Int → Nat → BitVec 16

end Sys2Proof.Config
end

