-- ==== Sys2Proof/Machine/State.lean ====
section
/-! DEFINITION. The state of the terminal as plain data: every register, ring, queue, table, counter, mode and pin the manual gives it, and the queue of waiting commands. Reset values are the manual's; where it gives none, the assumption log names the value. -/

namespace Sys2Proof.Machine

/-! ### Host port, rings, accepted work (02_host_port.md, 03_accepted_work.md) -/

/-- The part of the family (Table 00.1). A fuse: no step writes it. -/
inductive Part where
  | gnx2400 | gnx1200
  deriving DecidableEq, Repr

/-- What the terminal sends out at its edges: requests on PCI Express, completions, I²C writes, Ahnair words, line bytes. -/
inductive Out where
  /-- a memory write request on behalf of function f (R54) -/
  | memWrite (f : Nat) (addr : Nat) (bytes : List Byte)
  /-- a memory read request on behalf of function f -/
  | memRead (f : Nat) (addr : Nat) (len : Nat)
  /-- an MSI-X message of a function's vector (R59) -/
  | msix (f : Nat) (vec : Nat)
  /-- the answer to a register read -/
  | readAnswer (who : Requester) (off : Nat) (v : Word)
  /-- the answer to a doorbell read: T or H (R39) -/
  | doorbellAnswer (who : Requester) (off : Nat) (v : Word)
  /-- a request completed as unsupported (R14, R62) -/
  | ur (who : Requester) (off : Nat)
  /-- an error reported through AER (R62, R313) -/
  | aer (f : Nat)
  /-- a word shifted out on AHN_MISO (R357) -/
  | miso (w : Word)
  /-- a downstream DTU put into the coded stream of channel c (R159) -/
  | dtu (c : Nat) (bytes : List Byte)
  /-- a downstream overhead channel put into the coded stream of channel c (R157) -/
  | overhead (c : Nat) (bytes : List Byte)
  /-- bytes of tributary i put into the coded stream of channel c (R166) -/
  | tribTx (c : Nat) (i : Nat) (bytes : List Byte)
  /-- a symbol slot of channel c on LN_TXP and LN_TXN: each tone with energy and what it carries, and the DAC's samples (R131, R133, R154) -/
  | slot (c k : Nat) (tones : List (Nat × Nat)) (dac : List (BitVec 14))
  /-- levels driven on a PCM highway in the line frame that begins: bit positions of its four 125 µs PCM frames (R167) -/
  | pcm (hwy : Nat) (bits : List (Nat × Bool))
  /-- a handshake message to the peer of channel c (Table 06.6) -/
  | handshake (c : Nat) (psdCap toneHi : Nat) (notches : List (Nat × Nat))
  /-- the bytes of an upstream burst that left: preamble and delimiter, header, PLOAMu, allocations, trailer, with parity (Table 05.4) -/
  | burst (bytes : List Byte)
  /-- a PLOAM message that leaves in a burst: ONU-ID inserted, signed (R114, R256) -/
  | ploamUp (bytes : List Byte)
  /-- a write over OPT_SCL and OPT_SDA to page A2h (R105) -/
  | i2cWrite (addr : Byte) (bytes : List Byte)
  /-- bytes the terminal programs into the QSPI flash, and a region it erases (Table 15.3) -/
  | flash (off : Nat) (bytes : List Byte)
  | flashErase (off len : Nat)
  /-- bytes handed to firmware: accepted PLOAM, OMCI frames, the registration ID -/
  | toFirmware (bytes : List Byte)
  /-- a radio frame or acknowledgement put on the air: PHR, PSDU with its FCS, channel word, dBm at the antenna (R268, R269, R277) -/
  | radio (phr : Half) (psdu : List Byte) (chan : Nat) (dbm : Int)
  /-- an outcome of a firmware-port SEC operation, returned to CORE memory (R237) -/
  | fwOutcome (status res0 res1 : Nat)
  /-- a completion timeout of the boot monitor's fuse write: the SVN floor raised (R338) -/
  | fuse (floor : Nat)
  /-- the event of a PPS_IN edge (R236) -/
  | ppsIn
  /-- PME_TO_Ack (R313) -/
  | pmeAck
  /-- a request for ASPM L1 (R311) -/
  | l1Request
  deriving DecidableEq, Repr

/-- Status codes of Table 02.8, as their 16-bit values. -/
inductive Status where
  | ok | verifyFailed | retOpcode | retLength | retParam | retSeq | retWindow | retDma
  | retNoPath | retAbsent | retBusy | retBudget | retKey | retExpired | retReset | retPart
  | retDestroyed | retDenied | outcomeUncertain
  deriving DecidableEq, Repr

/-- An outcome formed and not yet written: what its record will carry (Table 02.6). -/
structure Outcome where
  status : Status
  len    : Word
  res0   : Word
  res1   : Word
  /-- timestamp at the medium boundary for FLAGS.TS = 1 (R48), else none -/
  ts     : Option (Nat × Bool)
  deriving DecidableEq, Repr

/-- How far accepted work has come. -/
inductive Stage where
  /-- accepted, its descriptor to be fetched again from its slot (Table 03.5, R56) -/
  | wantDesc
  /-- accepted, not yet taken up -/
  | accepted
  /-- checked and waiting for partition cells, or its buffer read is wanted -/
  | wantRead
  /-- its buffer read is issued -/
  | reading
  /-- its frame is in a queue, or the work runs in its block -/
  | queued
  /-- past its emission point with the transmission still under way: its outcome stands in the journal and is not written before the transmission ends -/
  | emitted
  /-- its executed outcome stands in the journal, to be written -/
  | sent
  deriving DecidableEq, Repr

/-- One accepted descriptor without an acknowledged outcome. -/
structure Work where
  /-- the slot's sequence number -/
  seq     : Word
  d       : Desc
  /-- acceptance instant on the datum (R70) -/
  at_     : Nat
  stage   : Stage
  /-- a return decided for it; executed outcomes stand in the journal instead -/
  ret     : Option Outcome
  /-- accepted before the latest recovery of its ring (R79) -/
  recov   : Bool
  /-- its buffer was read a second time (R182) -/
  refetch : Bool
  /-- its record has been issued and not yet acknowledged (R68) -/
  issued  : Bool
  /-- its buffer read uses its ring's reserved cells (R179) -/
  reserve : Bool
  deriving DecidableEq, Repr

/-- An entry of the emission journal (R67): the outcome of executed work whose record is not yet acknowledged. -/
structure JEntry where
  ring : RingNo
  seq  : Word
  out  : Outcome
  deriving DecidableEq, Repr

/-- RING_STAT.STATE (02_host_port.md). -/
inductive RingState where
  | disabled | active | stalledRecord | halted | recovering
  deriving DecidableEq, Repr

/-- A record issued to a completion ring and not yet acknowledged: which ring's sequence it completes. -/
inductive RecSrc where
  | work (r : RingNo) (seq : Word)
  | event
  | recoveryDone
  deriving DecidableEq, Repr

/-- A record as it was issued: what it completes, its slot's sequence number on the ring that takes it, its bytes and its IRQ flag. A record that was not acknowledged is written again from it (R68). -/
structure Issued where
  src   : RecSrc
  slot  : Word
  bytes : List Byte
  irq   : Bool
  deriving DecidableEq, Repr

/-- One ring: its registers, counters, accepted work and requests in flight. -/
structure Ring where
  base     : BitVec 52
  enable   : Bool
  vector   : Byte
  log2     : BitVec 5
  modTime  : Half
  modCount : Half
  /-- T on host-written rings -/
  tail     : Word
  /-- H on completion and event rings -/
  head     : Word
  /-- A -/
  acc      : Word
  /-- C, or W on completion and event rings -/
  cpl      : Word
  state    : RingState
  halted   : Bool
  seqErr   : Bool
  dbErr    : Bool
  winErr   : Bool
  dmaErr   : Bool
  lifetime : Half
  /-- emission counter (R67) -/
  emitted  : Word
  /-- generation of the benchmark record (R73) -/
  gen      : Word
  /-- accepted descriptors C + 1 to A, oldest first -/
  work     : List Work
  /-- the fetch in flight: first sequence number and count -/
  fetch    : Option (Word × Nat)
  /-- a descriptor of accepted work is being fetched again: its sequence number (R56, Table 03.5) -/
  refetch  : Option Word
  /-- records issued on this (completion, event or write-back) ring and not acknowledged, oldest first -/
  unacked  : List Issued
  /-- records issued and never acknowledged when the link went down, to be written again into the same slots, oldest first (R68) -/
  lost     : List Issued
  /-- slots of a completion or event ring acknowledged ahead of an older one, which W has not passed yet (R68, R80) -/
  early    : List Word
  /-- the window fault of the record now held is reported (R42, R56) -/
  winHeld  : Bool
  /-- records with IRQ = 1 since the last interrupt (R59) -/
  modCnt   : Nat
  /-- a benchmark record of this ring is due (R73) -/
  bmDue    : Bool
  /-- a doorbell was taken and its benchmark record is not yet written: no fetch before it (R73) -/
  bmGate   : Bool
  deriving DecidableEq, Repr

/-- A host access window (R54). -/
structure Window where
  base   : BitVec 52
  limit  : BitVec 52
  write  : Bool
  read   : Bool
  enable : Bool
  deriving DecidableEq, Repr

/-- One MSI-X table entry, as PCI Express defines. -/
structure MsixEntry where
  addrLo : Word
  addrHi : Word
  data   : Word
  ctrl   : Word
  deriving DecidableEq, Repr

/-- A PCI Express function: Bus Master Enable, Memory Space Enable, power state, MSI-X table and pending bits. -/
structure Func where
  bme    : Bool
  mse    : Bool
  d3hot  : Bool
  /-- Device Control 2: the completion timeout's range code and its disable (Table 02.1) -/
  cto    : BitVec 4
  ctoOff : Bool
  /-- errors AER has reported, by PCI Express's bit numbers: 12 poisoned TLP, 20 unsupported request (Table 02.1) -/
  aer    : Word
  table  : List MsixEntry
  pba    : DWord
  deriving DecidableEq, Repr

/-- Host interface registers and link (02_host_port.md, Registers). -/
structure Hif where
  lock       : Bool
  linkUp     : Bool
  width      : BitVec 4
  speed      : BitVec 4
  faultValid : Bool
  faultKind  : BitVec 3
  faultRing  : Byte
  faultFn    : BitVec 5
  faultAddr  : DWord
  windows    : Vector (Vector Window 8) 25
  /-- low halves of 64-bit registers written and waiting for their high halves (R15), by BAR0 offset -/
  winLo      : List (Nat × Word)
  funcs      : Vector Func 25
  vfEnable   : Bool
  numVfs     : Half
  /-- Max Payload Size is 256 bytes rather than 128 (Table 02.1) -/
  mps256     : Bool
  /-- Max Read Request Size: 128, 256 or 512 bytes as 0, 1 or 2 (Table 02.1) -/
  mrrs       : Fin 3
  /-- configuration requests are answered with CRS (R379) -/
  crs        : Bool
  perst      : Bool
  pcieWake   : Bool
  /-- round-robin cursors of the three service classes (Table 02.4) -/
  rrExpress  : Nat
  rrControl  : Nat
  rrBulk     : Nat
  /-- fetching is stopped on every ring (R78 step 1, R312 step 1) -/
  fetchStop  : Bool
  /-- the link has been put into L2 (R313) -/
  l2         : Bool
  /-- latched high halves of 64-bit registers for PCIe reads (R15), by register offset of the low half -/
  latchPcie  : List (Nat × Word)
  /-- the Ahnair port's own latches (R359) -/
  latchAhn   : List (Nat × Word)
  deriving DecidableEq, Repr

/-- SEAL_STATE of a ledger header (Table 03.3). -/
inductive SealState where
  | running | sealing | sealed | closed
  deriving DecidableEq, Repr

/-- The ledger (03_accepted_work.md). -/
structure Ledger where
  base       : BitVec 52
  enable     : Bool
  /-- the enabling writes are acknowledged and the ledger is in use -/
  active     : Bool
  /-- closing writes are under way (R77) -/
  closing    : Bool
  /-- an adoption is under way (R82) -/
  adopting   : Bool
  sealed     : Bool
  foreign_   : Bool
  sealInvalid : Bool
  recordLost : Bool
  writeErr   : Bool
  epoch      : Word
  hdrGen     : Word
  sealState  : SealState
  spillCount : Half
  spillCheck : Word
  sealCount  : Word
  /-- transfers issued and not completed -/
  inFlight   : List LXfer
  /-- transfers that failed and have not been carried out since (R76); nonempty: HELD -/
  failed     : List LXfer
  /-- transfers that came due while the PF might not master the bus, in order (Table 02.10, log 13) -/
  waiting    : List LXfer
  /-- LEDG_STAT.STATE as it stood when a close took effect (R77) -/
  closeAs    : BitVec 3
  deriving DecidableEq, Repr

/-- A recovery under way (R79, R80). -/
structure Recovery where
  scope   : List RingNo
  cause   : Byte
  chan    : Byte
  /-- accepted work is settled as for a DEVICE reset (causes 0x01, and 0x13 after the core domains were off) -/
  lossy   : Bool
  /-- settlement, epoch and ledger writes are done; RECOVERY_DONE is due -/
  settled : Bool
  /-- CH_RESET commands whose outcomes follow RECOVERY_DONE (R100) -/
  cmds    : List (RingNo × Word)
  /-- the channels whose entries are refreshed after RECOVERY_DONE (R90, R99) -/
  refresh : List Nat
  deriving DecidableEq, Repr

/-! ### Channel table and channel life (04_channel_table.md) -/

/-- Table 04.2. -/
inductive ChSt where
  | off | ready | train | service | economy | halted | absent
  deriving DecidableEq, Repr

/-- Targets of Table 04.1 in their order. -/
inductive Target where
  | off | ready | service
  deriving DecidableEq, Repr

/-- An enabled or disabled notch range (Table 06.4). -/
structure Notch where
  start  : Nat
  stop   : Nat
  enable : Bool
  deriving DecidableEq, Repr

/-- Line section (Table 06.4). -/
structure LineSect where
  marginTgt : Nat
  fextRes   : Nat
  maxBpt    : Nat
  psdCap    : Nat
  toneHi    : Nat
  minDs     : Nat
  maxDs     : Nat
  minUs     : Nat
  maxUs     : Nat
  notches   : List Notch
  deriving DecidableEq, Repr

/-- A tributary description (Table 07.4). -/
structure Trib where
  enable : Bool
  ring   : Bool
  n      : Nat
  hwy    : Nat
  idle   : Byte
  mask   : Word
  deriving DecidableEq, Repr

/-- MAC section (Tables 08.3 and 11.5). -/
structure MacSect where
  mtu       : Nat
  pfcObey   : Byte
  pfcGen    : Byte
  xoff      : Nat
  xon       : Nat
  headroom  : Nat
  quanta    : Nat
  legacy    : Bool
  missExc   : Bool
  trapL2cp  : Bool
  defPcp    : BitVec 3
  macSa     : List Byte
  txEn      : Bool
  rxEn      : Bool
  conf      : Bool
  xpn       : Bool
  inclSci   : Bool
  validate  : BitVec 2
  txAn      : BitVec 2
  rxAn0     : BitVec 2
  rxAn1     : BitVec 2
  txKey     : Half
  rxKey0    : Half
  rxKey1    : Half
  txSci     : List Byte
  rxSci     : List Byte
  txSsci    : Word
  rxSsci    : Word
  txPnInit  : Nat
  replayWin : Nat
  pnThresh  : Nat
  deriving DecidableEq, Repr

/-- A queue description (Table 09.2). -/
structure QDesc where
  shape  : Bool
  level  : Nat
  weight : Nat
  cir    : Nat
  cbs    : Nat
  deriving DecidableEq, Repr

/-- Feed section (Table 13.4). -/
structure FeedSect where
  enable  : Bool
  pulsed  : Bool
  stretch : Bool
  ramp    : Nat
  iLim    : Nat
  pLim    : Nat
  backoff : Nat
  iOpen   : Nat
  period  : Nat
  width   : Nat
  deriving DecidableEq, Repr

/-- The entry read of R88 in progress, or waiting to be repeated. -/
inductive ReadPhase where
  | idle
  /-- phase 1 issued -/
  | last
  /-- phase 2 issued; GEN_LAST as read -/
  | body (gl : Word)
  /-- phase 3 issued -/
  | first (gl : Word) (b : List Byte)
  /-- discarded: waits 10 µs, or 1.0 ms once TORN (R89) -/
  | waitRetry
  /-- failed: waits 100 µs (R92) -/
  | waitError
  deriving DecidableEq, Repr

/-- A CH_REFRESH command waiting for a whole read; `served`: its request precedes the GEN_LAST read in progress (R90), `tornAtArrival`: TORN was set when it arrived (R100). -/
structure RefreshCmd where
  ring   : RingNo
  seq    : Word
  served : Bool
  deriving DecidableEq, Repr

/-- The channel-table side of a channel (R85 to R103). -/
structure ChTab where
  state      : ChSt
  trainFails : Byte
  haltCause  : BitVec 4
  entryBad   : Bool
  readErr    : Bool
  torn       : Bool
  sectRej    : BitVec 5
  gen        : Word
  hold       : BitVec 2
  /-- cached header -/
  target     : Target
  econEn     : Bool
  failLimit  : Byte
  econIdle   : Half
  peerId     : DWord
  line       : Option LineSect
  trib       : Vector Trib 4
  mac        : Option MacSect
  queues     : Vector QDesc 16
  feed       : FeedSect
  /-- a queue section waiting for the next refill tick (R208) -/
  pendQueues : Option (Vector QDesc 16)
  /-- a whole read followed the last event of R103 -/
  readSince  : Bool
  phase      : ReadPhase
  /-- the request that is pending precedes the GEN_LAST read in progress (R90) -/
  served     : Bool
  pend       : Bool
  discards   : Nat
  cmds       : List RefreshCmd
  /-- datum instant of the last training failure (R94) -/
  failAt     : Option Nat
  island     : Bool
  deriving DecidableEq, Repr

/-! ### Line engine (06_line_signal.md, 07_line_framing.md) -/

/-- Per-tone tables of one direction: bits and SNR; the upstream direction also holds FEQ coefficients. -/
structure Tone where
  bits : Nat
  snr  : Nat
  dead : Bool
  deriving DecidableEq, Repr

/-- A complex FEQ coefficient (R143): real and imaginary Q2.30 mantissas and the shift. -/
structure Feq where
  re : BitVec 32
  im : BitVec 32
  sh : Nat
  deriving DecidableEq, Repr

/-- ECONOMY changes requested and waiting for their switch at frame f + 2 (R152); an exit can be requested while an entry is under way. -/
structure EconChange where
  /-- an entry: acknowledged by the peer, and frame boundaries left to its switch (3: to be requested at the next boundary) -/
  entry : Option (Bool × Nat)
  /-- an exit: frame boundaries left to its switch -/
  leave : Option Nat
  deriving DecidableEq, Repr

/-- Training and signal state of a channel. -/
structure Line where
  phase     : BitVec 4
  frames    : Nat
  lastFail  : BitVec 4
  rxGain    : Byte
  econBlock : Bool
  econ      : Bool
  econTimer : Option Nat
  econChg   : EconChange
  lightPeer : Bool
  rateDs    : Word
  rateUs    : Word
  /-- net data rates at the latest SERVICE entry, kbit/s (R193) -/
  ndrDsSvc  : Nat
  ndrUsSvc  : Nat
  econDs    : Nat
  econUs    : Nat
  marginDs  : Half
  marginUs  : Half
  tddUsed   : Word
  sat       : Word
  toneSel   : Word
  tonesDs   : List Tone
  tonesUs   : List Tone
  feq       : List Feq
  peer      : DWord
  /-- latched at TRAIN entry (R95) -/
  latLine   : Option LineSect
  latTrib   : Vector Trib 4
  latPeer   : DWord
  latMds    : Nat
  latPhase  : Nat
  latched   : Bool
  /-- the transform's output of the latest downstream symbol, whose taper overlaps the next one's (R134) -/
  lastSymbol : List Int
  deriving DecidableEq, Repr

/-- A byte of the received DTU stream: the instant of the symbol slot that carried it, and whether its codeword was uncorrectable (R159, Table 10.4). -/
structure RxByte where
  byte : Byte
  slot : Nat
  bad  : Bool
  deriving DecidableEq, Repr

/-- A downstream data DTU kept for retransmission (R163). -/
structure TxDtu where
  seq   : Half
  bytes : List Byte
  /-- datum of its first transmission -/
  at_   : Nat
  deriving DecidableEq, Repr

/-- An upstream DTU received good and not yet released (R164). -/
structure RxDtu where
  seq     : Half
  payload : List Byte
  /-- for each byte of the payload, the instant of the slot that carried it -/
  slots   : List Nat
  deriving DecidableEq, Repr

/-- A missing upstream SEQ and the frame boundaries since it was found (R162, R164). -/
structure Missing where
  seq : Half
  age : Nat
  deriving DecidableEq, Repr

/-- Performance tallies of the datum second in progress (R173). -/
structure PmSec where
  monitored : Bool
  uncorr    : Nat
  ohCrc     : Nat
  losLof    : Bool
  outside   : Bool
  feLost    : Nat
  feRdi     : Bool
  rtx       : Nat
  cwFixed   : Nat
  cwBad     : Nat
  lol       : Nat
  tribIdle  : Nat
  suspect   : Bool
  deriving DecidableEq, Repr

/-- A second that R174 has not decided: its number, tallies and classes by what was counted in it; `uas`, `uasF` as they are decided. -/
structure PmPend where
  sec   : Nat
  t     : PmSec
  es    : Bool
  ses   : Bool
  esF   : Bool
  sesF  : Bool
  uas   : Bool
  uasF  : Bool
  deriving DecidableEq, Repr

/-- A performance bin: first second, flags and the counters of Table 07.6. -/
structure PmBin where
  first   : Nat
  valid   : Bool
  suspect : Bool
  words   : Vector Nat 14
  deriving DecidableEq, Repr

/-- Performance monitoring of a channel. -/
structure Pm where
  sesDtu  : Half
  sel     : Word
  cur     : PmSec
  pend    : List PmPend
  unavNe  : Bool
  unavFe  : Bool
  bins15  : List PmBin
  bins24  : List PmBin
  deriving DecidableEq, Repr

/-- Where a frame came from, or which work it carries. -/
inductive FrameSrc where
  | work (r : RingNo) (seq : Word)
  | uplink (port : Half)
  | line (c : Ch)
  | pause
  deriving DecidableEq, Repr

/-- Where classification sends a frame (R184, R185). -/
inductive Dest where
  | line
  | tcont (q : Nat)
  | rxh
  | mgmtRx
  | excRx
  deriving DecidableEq, Repr

/-- A frame held in the packet buffer, from its destination address through its FCS (R178, R200); no bytes: its buffer read is under way again (R182). -/
structure Frame where
  id      : Nat
  src     : FrameSrc
  dest    : Dest
  bytes   : List Byte
  prio    : BitVec 3
  /-- datum at entry into its queue -/
  entered : Nat
  /-- receive point (R231) -/
  rxPoint : Nat
  /-- bytes already placed in the DTU stream, or sent in bursts -/
  placed  : Nat
  /-- bytes of a T-CONT frame that bursts sent or fixed have taken (R119); it leaves its queue once all are sent -/
  planned : Nat
  /-- XGEM port for a T-CONT frame or the key VID for a host-bound one -/
  port    : Half
  reason  : Byte
  macsec  : Bool
  inReserve : Bool
  /-- medium timestamp of its first byte, with DATUM_VALID there -/
  ts      : Option (Nat × Bool)
  deriving DecidableEq, Repr

/-- The framer, retransmission and tributary side of a channel. -/
structure Framer where
  frameCnt  : Half
  nextSeq   : Half
  txStore   : List TxDtu
  /-- DTUs to be sent again at the head of the DTU region, with frames to wait (R163) -/
  rtxQueue  : List (Half × Nat)
  lastSeqPrev : Half
  lastSeqCur  : Half
  rxHigh    : Option Half
  held      : List RxDtu
  missing   : List Missing
  /-- bytes of the frame being reassembled; `none`: no frame in progress -/
  partial_  : Option (List Byte × Nat)
  /-- the frame in progress had a byte in a lost DTU (R164) -/
  broken    : Bool
  los       : Bool
  lof       : Bool
  feRdi     : Bool
  losClean  : Nat
  crcFails  : Nat
  crcGoods  : Nat
  badRun    : Nat
  lostPrev  : Nat
  errDtu    : Word
  uncorrDtu : Word
  rtxMiss   : Word
  ohCrc     : Word
  conflict  : BitVec 4
  running   : BitVec 4
  txSlip    : Vector Half 4
  rxSlip    : Vector Half 4
  tribErr   : Vector Word 4
  /-- PCM timeslots this channel has claimed: highway and mask per tributary (R170) -/
  claims    : Vector (Option (Nat × Word)) 4
  /-- transmit TRIB blocks read, with their unsent bytes, in ring order; and the bytes collected for the current receive block -/
  tribTx    : Vector (List (Word × List Byte)) 4
  tribRx    : Vector (Option (Word × List Byte)) 4
  tribRxFirst : Vector Half 4
  /-- bytes assembled for the next downstream frame (R167) -/
  tribNext  : Vector (Option (List Byte)) 4
  eocRx     : List Byte
  /-- segments placed in the DTU that is not yet closed (R160, R161) -/
  openDtu   : List Byte
  /-- frames whose first byte lies in it: source, identity and that byte's place in the payload -/
  openStarts : List (FrameSrc × Nat × Nat)
  /-- the boundary of the present TDD frame; none before the first one in service -/
  frameAt   : Option Nat
  /-- loaded bits per symbol of each direction in the present frame (R154) -/
  bitsTx    : Nat
  bitsRx    : Nat
  /-- coded bits at the present frame's start that belong to earlier codewords, downstream -/
  leftTx    : Nat
  /-- bytes of the present frame's DTU region, and how many of them have not been filled -/
  regionSize : Nat
  regionLeft : Nat
  /-- a DTU has closed in the present frame (R205) -/
  dtuClosed : Bool
  /-- bytes of the latest DTU that belong to the next frame's region (R155) -/
  dtuCarry  : List Byte
  /-- information bytes not yet in a codeword, coded bits not yet in a slot, and the next data slot -/
  infoTx    : List Byte
  coded     : List Bool
  slotTx    : Nat
  /-- the upstream frame whose codewords are to be decoded: its boundary and bits per symbol; and the coded bits at its start that belong to an earlier codeword -/
  prevRx    : Option (Nat × Nat)
  leftRx    : Nat
  /-- the received DTU stream not yet cut into DTUs -/
  rxStream  : List RxByte
  /-- tributary bytes received for delivery at the next boundary -/
  rxTribs   : Option (List RxByte)
  deriving DecidableEq, Repr

/-! ### Frame MAC, queues, gates (08_forwarding.md, 09_scheduling.md) -/

/-- Frame MAC counters of a channel (08_forwarding.md, Registers). -/
structure MacCnt where
  dsFrames : Word
  usFrames : Word
  fcsErr   : Word
  runt     : Word
  oversize : Word
  bufDisc  : Word
  lineDisc : Word
  missDisc : Word
  noPort   : Word
  noPath   : Word
  rxLost   : Word
  bufUe    : Word
  pfcRx    : Vector Half 8
  pfcTx    : Vector Half 8
  deriving DecidableEq, Repr

/-- MACsec state of a channel (R251 to R255). -/
structure Macsec where
  exhausted : Bool
  pnHigh    : Bool
  unusable  : Bool
  /-- highest valid PN per receive AN (R255) -/
  highest   : Vector Nat 4
  noTag     : Word
  bad       : Word
  noSa      : Word
  late      : Word
  ok        : Word
  protected_ : Word
  deriving DecidableEq, Repr

/-- One gate list bank (R209, R210). -/
structure GclBank where
  len     : Nat
  mode    : Bool
  enable  : Bool
  phase   : Nat
  entries : List (Nat × Half)
  deriving DecidableEq, Repr

/-- Time gates of a channel. -/
structure Gcl where
  active  : GclBank
  shadow  : GclBank
  addr    : Byte
  /-- a valid swap waits for a cycle start of the new list (R210) -/
  pending : Bool
  bad     : Bool
  overrun : Half
  deriving DecidableEq, Repr

/-- The downstream and upstream queues of a channel with shaping and DWRR state. -/
structure Queues where
  q       : Vector (List Frame) 16
  credit  : Vector Int 16
  deficit : Vector Nat 16
  cursorDs : Vector Nat 8
  cursorUs : Vector Nat 8
  /-- the downstream frame being placed in the DTU stream -/
  cur     : Option Frame
  /-- the bytes of the frame in progress as they stand in its cells, before protection -/
  plain   : List Byte
  /-- its gate closed while it was being placed (R211) -/
  overrunArmed : Bool
  obey    : Vector (Option Nat) 8
  gen     : Byte
  /-- when half the generated pause time has passed since the pause was last sent (R193, R195) -/
  genTimer : Option Nat
  /-- generated pause frames waiting for the segment stream (R195) -/
  pauseTx : List (List Byte)
  hist    : Vector (Vector Word 16) 32
  histSel : Word
  deriving DecidableEq, Repr

/-- One entry of a receive-timestamp FIFO (R231). -/
structure RxtsEntry where
  msgType : BitVec 4
  domain  : Byte
  seqId   : Half
  ns      : Word
  sec     : Word
  deriving DecidableEq, Repr

/-- A receive-timestamp FIFO of 16 entries. -/
structure Rxts where
  fifo  : List RxtsEntry
  drops : Half
  deriving DecidableEq, Repr

/-! ### Feed (13_supply_feed.md) -/

/-- Table 13.5. -/
inductive FeedSt where
  | off | waitBudget | inrush | paused | established | pulsing | backoff | lockedOff | shed
  deriving DecidableEq, Repr

/-- FEED_STAT.LOAD. -/
inductive Load where
  | notMeasured | present | open_
  deriving DecidableEq, Repr

/-- One feed controller. -/
structure Feed where
  cfg      : FeedSect
  clamped  : Bool
  state    : FeedSt
  load     : Load
  tries    : Nat
  last     : BitVec 4
  openRun  : Nat
  bmcOff   : Bool
  holdOff  : Bool
  current  : Half
  feedin   : Half
  ontime   : Word
  /-- the switch is on (FEED_GATE_n) -/
  gate     : Bool
  /-- reservation held against FEED_BUDGET, in 0.1 W -/
  reserve  : Nat
  pulses   : Nat
  /-- a pulse has ended without a trip (R297) -/
  pulseOk  : Bool
  /-- µs of the pulse in progress or last begun (R303) -/
  pulseLen : Nat
  deriving DecidableEq, Repr

/-- Everything one channel owns. -/
structure Chan where
  tab    : ChTab
  line   : Line
  fr     : Framer
  pm     : Pm
  mac    : MacCnt
  msec   : Macsec
  gcl    : Gcl
  qs     : Queues
  rxts   : Rxts
  feed   : Feed
  /-- frames received and steered to the host, waiting for a buffer (R28) -/
  hostRx : List Frame
  deriving DecidableEq, Repr

/-! ### Uplink (05_uplink.md) -/

/-- Downstream synchronisation (R107). -/
inductive Sync where
  | hunt | presync | sync
  deriving DecidableEq, Repr

/-- The emission gate's own state (05_uplink.md, Activation). -/
inductive GateSt where
  | notAssigned | assigned | ranged | stopped
  deriving DecidableEq, Repr

/-- An XGEM port entry (R111, R386). -/
structure PortEntry where
  valid  : Bool
  type   : BitVec 2
  encReq : Bool
  flow   : BitVec 12
  port   : Half
  deriving DecidableEq, Repr

/-- PON power-saving modes (Table 05.6). -/
inductive PonMode where
  | awake | doze | cyclicSleep | watchful
  deriving DecidableEq, Repr

/-- Accepted work whose last byte lies in a burst: where that byte ends, in line bits from the window's start, and the work's timestamp point. -/
structure BurstWork where
  ring   : RingNo
  seq    : Word
  endBit : Nat
  ts     : Option (Nat × Bool)
  deriving DecidableEq, Repr

/-- A fragment that a burst's content fix takes from a T-CONT frame, which stays in its queue until it is sent: its queue and identity, its bytes, whether they are the frame's last, and the burst byte at which its XGEM header begins. -/
structure BurstSeg where
  queue : Nat
  id    : Nat
  src   : FrameSrc
  from_ : Nat
  len   : Nat
  last  : Bool
  pos   : Nat
  deriving DecidableEq, Repr

/-- A burst whose content is fixed (R119). -/
structure Burst where
  tds     : Nat
  /-- line bits from t_ds to t_hdr at StartTime 0: RESP, EqD and RESP_TRIM as it was built (R116, R118) -/
  base    : Int
  /-- the random delay of a serial-number grant, in words -/
  rand    : Nat
  /-- t_hdr and the window's ends on the datum -/
  tHdr    : Int
  winFrom : Int
  winTo   : Int
  /-- DATUM_VALID at the content fix -/
  valid   : Bool
  /-- line bits of an upstream bit, and from the window's start to the header -/
  k       : Nat
  lead    : Nat
  fec     : Bool
  psbu    : List Byte
  allocs  : List Alloc
  ind     : Nat
  /-- the PLOAM message it carries; true: Dying_Gasp -/
  ploam   : Option (Bool × List Byte)
  bufOcc  : List Nat
  /-- the upstream key's index and bytes -/
  key     : Option (BitVec 2 × List Byte)
  superframe : Nat
  segs    : List BurstSeg
  lastOf  : List BurstWork
  /-- deficits and cursors of the T-CONT queues before it was fixed -/
  deficit : Vector Nat 64
  cursor  : Vector Nat 8
  /-- the datum at which its window opened, and its bytes from the burst header on -/
  opened  : Nat
  bytes   : List Byte
  deriving DecidableEq, Repr

/-- The uplink block. -/
structure Upl where
  sync      : Sync
  misses    : Nat
  missing   : Bool
  lods      : Bool
  superframe : BitVec 51
  /-- datum at which the latest PSBd arrived: t_ds -/
  tds       : Nat
  onuState  : BitVec 4
  gate      : GateSt
  onuId     : BitVec 10
  lock      : Bool
  maxBurst  : Half
  rogueEn   : Bool
  dgOnBat   : Bool
  usRate    : BitVec 2
  respTrim  : BitVec 10
  burstTrail : BitVec 6
  burstLead : BitVec 6
  txAllow   : Bool
  allocMask : Word
  rogue     : Bool
  emstop    : Bool
  eqd       : Int
  /-- the EqD the next upstream frame takes up, and when that frame starts (R118) -/
  eqdNext   : Option (Int × Int)
  snLo      : Word
  snHi      : Word
  bind0     : Word
  bind1     : Word
  bind2     : BitVec 2
  allocs    : Vector (Option (BitVec 14)) 32
  profiles  : Vector (Option BurstProf) 4
  modAbs    : Bool
  rxLos     : Bool
  txSd      : Bool
  burstEn   : Bool
  txDisable : Bool
  /-- VALID and VALUE of UPL_OPT_DIAG_i -/
  diag      : Vector (Bool × Half) 5
  /-- page A0h of the module as last read (R105) -/
  a0h       : List Byte
  ports     : Vector PortEntry 1024
  portStatus : BitVec 2
  portIdx   : BitVec 10
  portData  : Word
  bursts    : List Burst
  /-- end of the previous window on the datum -/
  prevEnd   : Option Int
  window    : Option Burst
  /-- upstream PLOAM messages queued by firmware: type to byte 39 (R114) -/
  ploamUp   : List (List Byte)
  /-- the rest of the present downstream frame's XGEM payload is discarded (R108) -/
  xgemSkip  : Bool
  /-- downstream fragments of a frame whose last one has not arrived: port, instant of the first header, bytes -/
  xgemPart  : Option (Half × Nat × List Byte)
  dgActive  : Bool
  dgLeft    : Nat
  dgHeaders : Nat
  dgPloams  : Nat
  /-- when the dying-gasp indication began, and DATUM_VALID then -/
  dgStart   : Nat
  dgValid   : Bool
  ponMode   : PonMode
  rxOn      : Bool
  refused   : Nat
  backstops : Nat
  micFails  : Nat
  xgemDisc  : Nat
  fecUncorr : Nat
  allocOver : Nat
  /-- every entry of the 64 T-CONT queues -/
  tcont     : Vector (List Frame) 64
  tcDeficit : Vector Nat 64
  tcCursor  : Vector Nat 8
  deriving DecidableEq, Repr

/-! ### Cross-connect (08_forwarding.md) -/

/-- A flow entry as its four words (Table 08.2). -/
abbrev FlowEntry := Vector Word 4

/-- One indirect port of the flow table. -/
structure FtPort where
  data   : Vector Word 4
  status : BitVec 2
  idx    : BitVec 12
  deriving DecidableEq, Repr

/-- The cross-connect. -/
structure Xc where
  retired   : DWord
  bufCe     : Word
  hostDisc  : Word
  noFlow    : Word
  rxLost    : Word
  flow      : Vector FlowEntry 4096
  ports     : Vector FtPort 2
  tcq       : Vector Word 64
  /-- frames steered to MGMT_RX and EXC_RX, waiting for a buffer -/
  mgmtRx    : List Frame
  excRx     : List Frame
  nextId    : Nat
  deriving DecidableEq, Repr

/-! ### SEC (11_cipher.md) -/

/-- Owner of a key slot. -/
inductive Owner where
  | pf | fw | system
  deriving DecidableEq, Repr

/-- A key slot (R239). -/
structure Slot where
  valid : Bool
  kind  : BitVec 4
  owner : Owner
  exportable : Bool
  gen   : Byte
  key   : List Byte
  salt  : Option (List Byte)
  pn    : Nat
  deriving DecidableEq, Repr

/-- A check-value context (R262). -/
structure CvCtx where
  alg  : BitVec 2
  run  : Word
  odd  : Bool
  pend : Byte
  deriving DecidableEq, Repr

/-- The operation block of Table 11.4. -/
structure OpBlock where
  src    : DWord
  dst    : DWord
  srcLen : Word
  aadLen : Word
  iv     : List Byte
  tag    : List Byte
  deriving DecidableEq, Repr

/-- An operation that firmware has put into its port: the descriptor, and how the read of its operation block in CORE memory ended (R237). -/
structure FwReq where
  d   : Desc
  res : XferResult
  raw : List Byte
  deriving DecidableEq, Repr

/-- A SEC operation that has passed its checks and waits for its completion (R242). -/
structure SecOp where
  src  : SecSrc
  d    : Desc
  blk  : Option OpBlock
  deriving DecidableEq, Repr

/-- The SEC block. -/
structure Sec where
  trngFail : Bool
  maskStale : Bool
  retired  : BitVec 4
  split    : BitVec 6
  plainDis : Bool
  lock     : Bool
  ksSel    : BitVec 6
  slots    : Vector Slot 64
  ctxs     : Vector CvCtx 8
  ops      : List SecOp
  /-- the firmware port's queue behind the operation that runs, oldest first (R237, R248) -/
  port     : List FwReq
  /-- the channel whose frame took a core last, for the round robin of R250 -/
  served   : Nat
  drbgCount : Nat
  /-- which draws seeded the DRBG and the mask generator last (R260, R261) -/
  drbgSeed : Nat
  maskSeed : Nat
  deriving DecidableEq, Repr

/-! ### Radio (12_radio.md) -/

/-- A governor band; its window is the list of its 3,600 buckets, the current second first. -/
structure GovBand where
  flo     : BitVec 20
  fhi     : BitVec 20
  en      : Bool
  budget  : BitVec 26
  maxDbm  : Byte
  reserve : Half
  buckets : List Nat
  deriving DecidableEq, Repr

/-- What the radio does with the frame at the head of RAD_TX. -/
inductive RadPhase where
  /-- access gained, held until an acknowledgement due has left or the journal has room -/
  | held
  /-- backing off: NB, BE and the unit backoff periods drawn (R273) -/
  | csma (nb be periods : Nat)
  /-- listening: listens before this one, and the drawn k of its length 160 µs + k × 160 µs (R274) -/
  | lbt (listens k : Nat)
  /-- access gained; the governor has not let the attempt start (R281) -/
  | waitBudget
  | sending
  | waitAck
  deriving DecidableEq, Repr

/-- The RAD_FRAME under execution. -/
structure RadTx where
  seq      : Word
  frame    : List Byte
  phase    : RadPhase
  attempts : Nat
  units    : Nat
  clamped  : Bool
  deriving DecidableEq, Repr

/-- A frame in the radio's receive store (R276). -/
structure RadStored where
  body   : List Byte
  res0   : Word
  res1   : Word
  deriving DecidableEq, Repr

/-- An acknowledgement due 1,000 µs after a received frame (R277): its bytes without FCS. -/
structure RadAck where
  frame : List Byte
  fcs4  : Bool
  chan  : BitVec 11
  /-- position in the store of the frame it acknowledges -/
  idx   : Nat
  deriving DecidableEq, Repr

/-- The radio. -/
structure Rad where
  promisc  : Bool
  ackEn    : Bool
  budgetWait : Bool
  en       : Bool
  txAllow  : Bool
  lock     : Bool
  pan      : Word
  extLo    : Word
  extHi    : Word
  rxCh     : BitVec 11
  access   : Word
  preamble : BitVec 10
  ackDbm   : BitVec 6
  gainDb   : BitVec 5
  gov      : Vector GovBand 8
  /-- the windows' bank lost its contents: RAD's next power-up level-fills them (R283) -/
  refill   : Bool
  devIdx   : BitVec 5
  devData  : Vector Word 4
  dev      : Vector (Vector Word 4) 31
  cnt      : Vector Word 12
  tx       : Option RadTx
  store    : List RadStored
  /-- acknowledgements due, oldest first -/
  acks     : List RadAck
  paEn     : Bool
  deriving DecidableEq, Repr

/-! ### Supply watch (13_supply_feed.md) -/

/-- Declared level of a comparator (SUP_STAT). -/
inductive Lvl where
  | normal | low | int | high
  deriving DecidableEq, Repr

/-- An open disturbance: its start and whether INT was declared. -/
structure Disturb where
  start : Nat
  /-- DATUM_VALID at its start -/
  valid : Bool
  int   : Bool
  deriving DecidableEq, Repr

/-- One comparator with its open disturbance and open surge (its start, and DATUM_VALID then). -/
structure Comp where
  lvl   : Lvl
  dist  : Option Disturb
  surge : Option (Nat × Bool)
  deriving DecidableEq, Repr

/-- A supply log entry (Table 13.2). -/
structure SupLog where
  sec    : Word
  ns     : Word
  value  : Word
  kind   : Byte
  input  : Byte
  detail : Byte
  flags  : Byte
  deriving DecidableEq, Repr

/-- Causes of a DEVICE reset, in GLB_RESET_CAUSE code order. -/
inductive ResetCause where
  | perst | linkOrHot | hostFull | watchdog
  deriving DecidableEq, Repr

/-- The supply watch. -/
structure Sup where
  sealing   : Bool
  /-- how far the seal's part in the ledger has come (R78): 0 none, 1 SEALING headers and released journal entries issued, 2 spill and benchmark records issued, 3 SEALED headers issued -/
  sealPhase : Fin 4
  journalSealed : Bool
  onBat     : Bool
  hostIncomplete : Bool
  /-- the seal under way has given up its host part (R292) -/
  hostLost  : Bool
  /-- the seal follows a CMP_BAT trip: power-down follows it (R293) -/
  batSeal   : Bool
  comps     : Vector Comp 4
  feedOnBat : Bool
  batAction : Bool
  lock      : Bool
  auxHigh   : Byte
  auxRestore : Byte
  auxLow    : Byte
  maxIlim   : BitVec 9
  maxPlim   : Byte
  inrushMax : BitVec 5
  budget    : Half
  logSel    : BitVec 5
  log       : List SupLog
  written   : Half
  lost      : Half
  heldReset : Option ResetCause
  /-- when the seal began, and DATUM_VALID then -/
  sealStart : Nat
  sealValid : Bool
  shedSeal  : Bool
  /-- when FEEDIN's RESTORE was last declared (R304) -/
  feedBack  : Option Nat
  deriving DecidableEq, Repr

/-! ### Power (14_power.md) -/

/-- Table 14.3 with the transient states. -/
inductive PwrSt where
  | run | idle | sleep | entering | poweringDown | deep | waking | off
  deriving DecidableEq, Repr

/-- The power block. -/
structure Pwr where
  state    : PwrSt
  refused  : Bool
  why      : BitVec 2
  lost     : BitVec 6
  wakeCause : BitVec 3
  domHif   : Bool
  domCore  : Bool
  domUpl   : Bool
  domChla  : Bool
  domChlb  : Bool
  domRad   : Bool
  domFeed  : Bool
  step     : Nat
  floor    : BitVec 2
  sleepMs  : Half
  idleUs   : Byte
  lingerMs : Byte
  extUa    : Byte
  groups   : BitVec 6
  wakeBits : BitVec 4
  alarm    : Word
  /-- the step of Table 14.8 (power-up) or 14.9 (power-down) in progress; 0: none -/
  upStep   : Nat
  downStep : Nat
  /-- the power-down ends in OFF -/
  toOff    : Bool
  /-- the cold power-up after POWER-ON rather than a wake -/
  cold     : Bool
  /-- a request that passed its checks and waits for C of ring 0 to pass its PWR_ENTER (R312 step 4); the Bool: to OFF -/
  entryReq : Option (Word × Bool)
  /-- the ledger is being sealed for an entry: R312 step 5 -/
  entrySeal : Bool
  latchedWake : Option (BitVec 3)
  retained : BitVec 6
  collapsed : List Rail
  enCore   : Bool
  enSds    : Bool
  enCh     : Bool
  enAfe    : Bool
  refEn    : Bool
  /-- the power-up waits for its retry (R324) -/
  retryWait : Bool
  /-- domains woken by an access and their waiting accesses, in order -/
  woken    : List Domain
  waiting  : List (Domain × Access)
  xtal     : Bool
  testEn   : Bool
  deriving DecidableEq, Repr

/-! ### Firmware (15_firmware.md) -/

/-- Slot states. -/
inductive SlotSt where
  | empty | valid | trial | confirmed | rejected
  deriving DecidableEq, Repr

/-- FW_CPU values. -/
inductive CpSt where
  | running | reset | failed | bootMonitor | halted
  deriving DecidableEq, Repr

/-- An image header (Table 15.4), and whether the signature verifies under the fused key and the digest matches. -/
structure ImageHdr where
  version    : Word
  svn        : Nat
  raiseFloor : Bool
  p1         : Bool
  p2         : Bool
  schemaMin  : Nat
  schemaMax  : Nat
  migrateMin : Nat
  length     : Nat
  magicOk    : Bool
  sigOk      : Bool
  deriving DecidableEq, Repr

/-- A settings generation: its position and header (Table 15.6). -/
structure SetGen where
  pos      : Nat
  gen      : Word
  schema   : Nat
  fromCapsule : Bool
  migrated : Bool
  parent   : Word
  writer   : Word
  deriving DecidableEq, Repr

/-- The identity record without the fields that never change or that only guard it (Table 15.7); registration IDs as they stand sealed, 48 bytes each. -/
structure IdRec where
  seq        : Word
  capsuleSeq : Word
  factorySn  : DWord
  activeSn   : DWord
  factoryMac : BitVec 48
  activeMac  : BitVec 48
  profile    : Byte
  transferred : Bool
  origin     : DWord
  activeReg  : List Byte
  factoryReg : List Byte
  operatorKey : List Byte
  deriving DecidableEq, Repr

/-- One image slot. -/
structure ImgSlot where
  st     : SlotSt
  booted : Bool
  hdr    : Option ImageHdr
  /-- staged 4 KiB pages -/
  pages  : List Nat
  deriving DecidableEq, Repr

/-- A received PTP event message waiting for its transmit point (R334); `out`: its frame, by identity, has left through the open DTU of a channel, whose close gives the point. -/
structure PtpHalf where
  domain : Byte
  seqId  : Half
  t      : Nat
  out    : Option (Nat × Nat)
  deriving DecidableEq, Repr

/-- The firmware block. -/
structure Fw where
  runSlot   : Nat
  slotA     : ImgSlot
  slotB     : ImgSlot
  restricted : Bool
  unreadable : Bool
  rolledBack : Bool
  noImage   : Bool
  confirmCfg : BitVec 12
  left      : BitVec 12
  /-- a trial is live (R337), and its confirmation timer runs (R341) -/
  trialLive : Bool
  timerOn   : Bool
  setGen    : Word
  setInfo   : Half
  rollbackFrom : Word
  wdg       : Half
  wdgResets : Byte
  cp0       : CpSt
  cp1       : CpSt
  /-- when each processor's watchdog last expired, and when it was last restarted -/
  lastWdg   : Vector (Option Nat) 2
  wdgStart  : Vector Nat 2
  floor     : Nat
  rec_      : IdRec
  /-- the copy that holds the record (R349): 1 A, 2 B, 0 none valid -/
  recCopy   : BitVec 2
  /-- the record's contents are known: a boot monitor has read them -/
  recKnown  : Bool
  revert    : Bool
  /-- settings generations known to stand in flash (R344) -/
  gens      : List SetGen
  /-- the outcome of a capsule that follows the restart: sequence number and outcome -/
  afterRestart : Option (Word × Outcome)
  /-- ring 0 commands whose outcomes, once written, are followed by a firmware restart (R340, R342) -/
  restartAt : List Word
  ptp       : List PtpHalf
  deriving DecidableEq, Repr

/-- Global identity and reset registers (17_registers.md). -/
structure Glb where
  unitId    : DWord
  loaded    : Bool
  transferred : Bool
  copy      : BitVec 2
  recBad    : Bool
  sn        : DWord
  mac       : BitVec 48
  origin    : DWord
  inForce   : BitVec 2
  next      : BitVec 2
  last      : BitVec 4
  count     : Byte
  refused   : Bool
  /-- a DEVICE reset that took the link down is in progress: the link has not come up since (R20) -/
  inReset   : Bool
  deriving DecidableEq, Repr

/-! ### Network time (10_network_time.md) -/

/-- DATUM_STAT.STATE. -/
inductive TimeSt where
  | unset | locked | slewing | holdover
  deriving DecidableEq, Repr

/-- DATUM_STAT.SOURCE. -/
inductive TimeSrc where
  | free | locked | frozen | crystal
  deriving DecidableEq, Repr

/-- TOD_CMD.STATUS. -/
inductive TodSt where
  | idle | armed | applied | late | rejected
  deriving DecidableEq, Repr

/-- The network time block; the datum itself is `State.datum`, in units of 2⁻⁴⁰ ns. -/
structure Time where
  valid     : Bool
  /-- DATUM_VALID becomes 1 at the next second boundary (R221) -/
  validNext : Bool
  st        : TimeSt
  src       : TimeSrc
  refKind   : Bool
  far       : Bool
  holdExceeded : Bool
  calDone   : Bool
  stepEn    : Bool
  stepLimit : BitVec 10
  offset    : Word
  holdErr   : Word
  /-- HOLD_ERR with its fraction, in 10⁻⁹ of 2⁻⁴⁰ ns (R228) -/
  holdAcc   : Nat
  rate32k   : Half
  rateTcxo  : Half
  holdMax   : Word
  todN      : Word
  todSecLo  : Word
  todSecHi  : Half
  todNs     : Word
  todDelay  : Word
  todTrim   : Word
  todKind   : Bool
  todStatus : TodSt
  ppsOutEn  : Bool
  ppsInEn   : Bool
  ppsInOvr  : Bool
  ppsInUnread : Bool
  ppsWidth  : BitVec 9
  ppsInNs   : Word
  ppsInSec  : Word
  ppsInSecLatch : Word
  ppsOut    : Bool
  /-- DATUM_SEC and DATUM_FRAC as latched by the last read of DATUM_NS (R233): the whole instant -/
  latch     : Nat
  latchAhn  : Nat
  rxts      : Rxts
  mds       : BitVec 6
  tddPhase  : BitVec 19
  /-- the reference: superframe counter, and the target instant without TOD_DELAY in 2⁻⁴⁰ ns (R221, R222) -/
  ref       : Option (BitVec 51 × Int)
  /-- phase errors collected toward the average of 64 (R223), in 2⁻⁴⁰ ns -/
  errSum    : Int
  errCount  : Nat
  /-- the superframe counter a comparison must have to follow the latest one -/
  errNext   : BitVec 51
  /-- the sum of 64 consecutive errors, waiting to be judged -/
  avgDue    : Option Int
  goodAvgs  : Nat
  /-- offset still to be slewed out, in 2⁻⁴⁰ ns (R224) -/
  slew      : Int
  /-- what the latest cycle slewed: the present rate; the next cycle keeps it as a slew restarts (R224) -/
  slewRate  : Int
  slewKeep  : Bool
  /-- HOLD_ERR stands above HOLD_ERR_MAX, and that has been reported (R228) -/
  holdOver  : Bool
  /-- calibrated crystal increment in 2⁻⁴⁰ ns (R227) -/
  calInc    : Nat
  pllLock   : Bool
  /-- the datum was stepped since a channel's last frame boundary (R139), per channel -/
  stepped   : BitVec 24
  deriving DecidableEq, Repr

/-! ### Management port, events, counters (16_management_events.md) -/

/-- An event record or sticky-log entry (Table 16.4). -/
structure EvRec where
  source : Nat
  scope  : Byte
  info0  : Word
  info1  : Word
  merged : Word
  /-- datum and DATUM_VALID at the first occurrence -/
  at_    : Nat
  tsValid : Bool
  /-- SEQ and EPOCH as the record carries them; 0xFFFF_FFFF for an entry logged without a record -/
  seq    : Word
  epoch  : Word
  /-- formed as a record (true) or logged without one (R370) -/
  formed : Bool
  /-- written to ring 2 and not yet acknowledged -/
  issued : Bool
  deriving DecidableEq, Repr

/-- An event counter (R371). -/
structure Counter where
  value  : BitVec 48
  enable : Bool
  mode   : BitVec 2
  wrap   : Bool
  bad    : Bool
  scope  : Byte
  source : BitVec 7
  /-- µs of the present high period of each scope it takes, for MAX of a level source -/
  period : List (Nat × Nat)
  deriving DecidableEq, Repr

/-- Events: routing, store, sticky log, counters and the pending bits of the board controller. -/
structure Evt where
  record   : Vector Bool 96
  vec      : Vector (BitVec 4) 96
  store    : List EvRec
  overflow : Nat
  lost     : Bool
  log      : List EvRec
  logSel   : BitVec 6
  chStat   : Vector (BitVec 17) 24
  pf       : Vector Counter 32
  ch       : Vector (Vector Counter 4) 24
  intEn    : Vector Word 3
  intPend  : Vector Word 3
  /-- occurrences since the last interrupt: PF vectors 7 to 15, and channel vectors -/
  vecCnt   : Vector Nat 9
  chCnt    : Vector Nat 24
  deriving DecidableEq, Repr

/-- What the Ahnair port expects next (R357, R361). -/
inductive AhnMode where
  | header
  /-- READ data: next word address to capture -/
  | reading (addr : Nat)
  /-- WRITE data: next word address -/
  | writing (addr : Nat)
  /-- WRITE to an armed register after its first word: further words are ignored -/
  | armedDone
  /-- WRITE to the armed address with the arming valid: first word pending -/
  | armedFirst (addr : Nat)
  /-- after an unknown opcode -/
  | ignore
  deriving DecidableEq, Repr

/-- The management port. -/
structure Mgt where
  lastWords : Byte
  partial_  : Bool
  opcErr    : Bool
  armErr    : Bool
  wrDenied  : Bool
  addrErr   : Bool
  asleep    : Bool
  selected  : Bool
  spiMode3  : Bool
  mode      : AhnMode
  armed     : Option Nat
  words     : Nat
  /-- conditions since the last header committed: PARTIAL, OPC, ARM, WR, ADDR, ASLEEP (R363) -/
  errs      : BitVec 6
  /-- the next header's status word is shifted out as all ones (R405) -/
  allOnes   : Bool
  capture   : Word
  deriving DecidableEq, Repr

/-! ### Reset values

The values of the Reset columns, as after POWER-ON. A value no column gives is named in the assumption log (log 2). -/

/-- Default MSI-X vector of a ring by owner (Table 02.9); a ring that signals nothing itself has 0 (log 2). -/
def defaultVector (r : Nat) (vfOwned : Bool) : Byte :=
  if r < 16 then
    match r with
    | 1 => 1 | 3 => 4 | 4 => 2 | 5 => 3 | 6 => 4 | 7 => 5 | 8 => 5 | 10 => 6 | _ => 0
  else
    let n := (r - 16) / 6
    match (r - 16) % 6, vfOwned with
    | 2, false => BitVec.ofNat 8 (17 + 2 * n)
    | 4, false => BitVec.ofNat 8 (16 + 2 * n)
    | 5, false => BitVec.ofNat 8 (16 + 2 * n)
    | 2, true  => 1
    | 5, true  => 2
    | _, _ => 0

/-- A ring that has never been created (02_host_port.md, Registers). -/
def Ring.reset (r : Nat) : Ring where
  base := 0
  enable := false
  vector := defaultVector r false
  log2 := 6
  modTime := 0
  modCount := 1
  tail := 0
  head := 0
  acc := 0xFFFFFFFF
  cpl := 0xFFFFFFFF
  state := .disabled
  halted := false
  seqErr := false
  dbErr := false
  winErr := false
  dmaErr := false
  lifetime := 0
  emitted := 0
  gen := 0
  work := []
  fetch := none
  refetch := none
  unacked := []
  lost := []
  early := []
  winHeld := false
  modCnt := 0
  bmDue := false
  bmGate := false

/-- A window at reset: matches nothing (R54). -/
def Window.reset : Window := { base := 0, limit := 0, write := false, read := false, enable := false }

/-- A function's configuration space at reset, as PCI Express defines it. -/
def Func.reset (vectors : Nat) : Func where
  bme := false
  mse := false
  d3hot := false
  cto := 0
  ctoOff := false
  aer := 0
  table := List.replicate vectors { addrLo := 0, addrHi := 0, data := 0, ctrl := 1 }
  pba := 0

/-- All functions at reset: 64 vectors on the PF, 4 on each VF (Table 02.1). -/
def resetFuncs : Vector Func 25 :=
  (Vector.replicate 25 (Func.reset 4)).set 0 (Func.reset 64)

def Hif.reset : Hif where
  lock := false
  linkUp := false
  width := 0
  speed := 0
  faultValid := false
  faultKind := 0
  faultRing := 0
  faultFn := 0
  faultAddr := 0
  windows := Vector.replicate 25 (Vector.replicate 8 Window.reset)
  winLo := []
  funcs := resetFuncs
  vfEnable := false
  numVfs := 0
  mps256 := false
  mrrs := 2
  crs := true
  perst := true
  pcieWake := false
  rrExpress := 0
  rrControl := 0
  rrBulk := 0
  fetchStop := false
  l2 := false
  latchPcie := []
  latchAhn := []

def Ledger.reset : Ledger where
  base := 0
  enable := false
  active := false
  closing := false
  adopting := false
  sealed := false
  foreign_ := false
  sealInvalid := false
  recordLost := false
  writeErr := false
  epoch := 0
  hdrGen := 0
  sealState := .closed
  spillCount := 0
  spillCheck := 0
  sealCount := 0
  inFlight := []
  failed := []
  waiting := []
  closeAs := 0

def Trib.off : Trib := { enable := false, ring := false, n := 0, hwy := 0, idle := 0, mask := 0 }

def QDesc.zero : QDesc := { shape := false, level := 0, weight := 1, cir := 0, cbs := 0 }

def FeedSect.off : FeedSect where
  enable := false
  pulsed := false
  stretch := false
  ramp := 0
  iLim := 0
  pLim := 0
  backoff := 0
  iOpen := 0
  period := 0
  width := 0

/-- The channel-table side of a channel at reset; a channel the part lacks is ABSENT (R2). -/
def ChTab.reset (present : Bool) : ChTab where
  state := if present then .off else .absent
  trainFails := 0
  haltCause := 0
  entryBad := false
  readErr := false
  torn := false
  sectRej := 0
  gen := 0xFFFFFFFF
  hold := 0
  target := .off
  econEn := false
  failLimit := 0
  econIdle := 0
  peerId := 0
  line := none
  trib := Vector.replicate 4 Trib.off
  mac := none
  queues := Vector.replicate 16 QDesc.zero
  feed := FeedSect.off
  pendQueues := none
  readSince := false
  phase := .idle
  served := false
  pend := false
  discards := 0
  cmds := []
  failAt := none
  island := false

def Line.reset : Line where
  phase := 15
  frames := 0
  lastFail := 0
  rxGain := 0
  econBlock := false
  econ := false
  econTimer := none
  econChg := { entry := none, leave := none }
  lightPeer := false
  rateDs := 0
  rateUs := 0
  ndrDsSvc := 0
  ndrUsSvc := 0
  econDs := 0
  econUs := 0
  marginDs := 0
  marginUs := 0
  tddUsed := 0
  sat := 0
  toneSel := 0
  tonesDs := []
  tonesUs := []
  feq := []
  peer := 0
  latLine := none
  latTrib := Vector.replicate 4 Trib.off
  latPeer := 0
  latMds := 0
  latPhase := 0
  latched := false
  lastSymbol := []

/-- A second no frame boundary has yet shown otherwise is monitored (R173). -/
def PmSec.zero : PmSec where
  monitored := true
  uncorr := 0
  ohCrc := 0
  losLof := false
  outside := false
  feLost := 0
  feRdi := false
  rtx := 0
  cwFixed := 0
  cwBad := 0
  lol := 0
  tribIdle := 0
  suspect := false

/-- PM_CFG takes its profile's default (Table 15.8). -/
def Pm.reset (sesDtu : Half) : Pm where
  sesDtu := sesDtu
  sel := 0
  cur := PmSec.zero
  pend := []
  unavNe := false
  unavFe := false
  bins15 := []
  bins24 := []

def Framer.reset : Framer where
  frameCnt := 0
  nextSeq := 0
  txStore := []
  rtxQueue := []
  lastSeqPrev := 0xFFFF
  lastSeqCur := 0xFFFF
  rxHigh := none
  held := []
  missing := []
  partial_ := none
  broken := false
  los := false
  lof := false
  feRdi := false
  losClean := 0
  crcFails := 0
  crcGoods := 0
  badRun := 0
  lostPrev := 0
  errDtu := 0
  uncorrDtu := 0
  rtxMiss := 0
  ohCrc := 0
  conflict := 0
  running := 0
  txSlip := Vector.replicate 4 0
  rxSlip := Vector.replicate 4 0
  tribErr := Vector.replicate 4 0
  claims := Vector.replicate 4 none
  tribTx := Vector.replicate 4 []
  tribRx := Vector.replicate 4 none
  tribRxFirst := Vector.replicate 4 0
  tribNext := Vector.replicate 4 none
  eocRx := []
  openDtu := []
  openStarts := []
  frameAt := none
  bitsTx := 0
  bitsRx := 0
  leftTx := 0
  regionSize := 0
  regionLeft := 0
  dtuClosed := false
  dtuCarry := []
  infoTx := []
  coded := []
  slotTx := 0
  prevRx := none
  leftRx := 0
  rxStream := []
  rxTribs := none

def MacCnt.zero : MacCnt where
  dsFrames := 0
  usFrames := 0
  fcsErr := 0
  runt := 0
  oversize := 0
  bufDisc := 0
  lineDisc := 0
  missDisc := 0
  noPort := 0
  noPath := 0
  rxLost := 0
  bufUe := 0
  pfcRx := Vector.replicate 8 0
  pfcTx := Vector.replicate 8 0

def Macsec.reset : Macsec where
  exhausted := false
  pnHigh := false
  unusable := false
  highest := Vector.replicate 4 0
  noTag := 0
  bad := 0
  noSa := 0
  late := 0
  ok := 0
  protected_ := 0

def GclBank.reset : GclBank := { len := 0, mode := false, enable := false, phase := 0, entries := [] }

def Gcl.reset : Gcl where
  active := GclBank.reset
  shadow := GclBank.reset
  addr := 0
  pending := false
  bad := false
  overrun := 0

def Queues.reset : Queues where
  q := Vector.replicate 16 []
  credit := Vector.replicate 16 0
  deficit := Vector.replicate 16 0
  cursorDs := Vector.replicate 8 0
  cursorUs := Vector.replicate 8 0
  cur := none
  plain := []
  overrunArmed := false
  obey := Vector.replicate 8 none
  gen := 0
  genTimer := none
  pauseTx := []
  hist := Vector.replicate 32 (Vector.replicate 16 0)
  histSel := 0

def Rxts.reset : Rxts := { fifo := [], drops := 0 }

/-- A feed controller after POWER-ON (FEED_CFG 0x2000_0000: STRETCH 1). -/
def Feed.reset : Feed where
  cfg := { FeedSect.off with stretch := true }
  clamped := false
  state := .off
  load := .notMeasured
  tries := 0
  last := 0
  openRun := 0
  bmcOff := false
  holdOff := false
  current := 0
  feedin := 0
  ontime := 0
  gate := false
  reserve := 0
  pulses := 0
  pulseOk := false
  pulseLen := 0

def Chan.reset (present : Bool) : Chan where
  tab := ChTab.reset present
  line := Line.reset
  fr := Framer.reset
  pm := Pm.reset 16
  mac := MacCnt.zero
  msec := Macsec.reset
  gcl := Gcl.reset
  qs := Queues.reset
  rxts := Rxts.reset
  feed := Feed.reset
  hostRx := []

def PortEntry.zero : PortEntry := { valid := false, type := 0, encReq := false, flow := 0, port := 0 }

def Upl.reset : Upl where
  sync := .hunt
  misses := 0
  missing := false
  lods := false
  superframe := 0
  tds := 0
  onuState := 0
  gate := .notAssigned
  onuId := 0x3FF
  lock := false
  maxBurst := 38880
  rogueEn := true
  dgOnBat := false
  usRate := 0
  respTrim := 0
  burstTrail := 32
  burstLead := 32
  txAllow := false
  allocMask := 0
  rogue := false
  emstop := false
  eqd := 0
  eqdNext := none
  snLo := 0
  snHi := 0
  bind0 := 0
  bind1 := 0
  bind2 := 0
  allocs := Vector.replicate 32 none
  profiles := Vector.replicate 4 none
  modAbs := false
  rxLos := true
  txSd := false
  burstEn := false
  txDisable := true
  diag := Vector.replicate 5 (false, 0)
  a0h := []
  ports := Vector.replicate 1024 PortEntry.zero
  portStatus := 0
  portIdx := 0
  portData := 0
  bursts := []
  prevEnd := none
  window := none
  ploamUp := []
  xgemSkip := false
  xgemPart := none
  dgActive := false
  dgLeft := 0
  dgHeaders := 0
  dgPloams := 0
  dgStart := 0
  dgValid := false
  ponMode := .awake
  rxOn := true
  refused := 0
  backstops := 0
  micFails := 0
  xgemDisc := 0
  fecUncorr := 0
  allocOver := 0
  tcont := Vector.replicate 64 []
  tcDeficit := Vector.replicate 64 0
  tcCursor := Vector.replicate 8 0

def FtPort.reset : FtPort := { data := Vector.replicate 4 0, status := 0, idx := 0 }

def Xc.reset : Xc where
  retired := 0
  bufCe := 0
  hostDisc := 0
  noFlow := 0
  rxLost := 0
  flow := Vector.replicate 4096 (Vector.replicate 4 0)
  ports := Vector.replicate 2 FtPort.reset
  tcq := Vector.replicate 64 0
  mgmtRx := []
  excRx := []
  nextId := 0

def Slot.empty : Slot where
  valid := false
  kind := 0
  owner := .pf
  exportable := false
  gen := 0
  key := []
  salt := none
  pn := 0

/-- Slot 0: the unit root key, loaded from fuses at POWER-ON (11_cipher.md, Slots and handles). -/
def Slot.root : Slot :=
  { Slot.empty with valid := true, kind := 15, owner := .system, key := Config.rootKey }

def CvCtx.empty : CvCtx := { alg := 0, run := 0xFFFFFFFF, odd := false, pend := 0 }

def Sec.reset : Sec where
  trngFail := false
  maskStale := false
  retired := 0
  split := 32
  plainDis := false
  lock := false
  ksSel := 0
  slots := (Vector.replicate 64 Slot.empty).set 0 Slot.root
  ctxs := Vector.replicate 8 CvCtx.empty
  ops := []
  port := []
  served := 23
  drbgCount := 0
  drbgSeed := 0
  maskSeed := 0

/-- A level-filled window (R283): the present second first, the oldest bucket last. -/
def levelFill (budget : Nat) : List Nat :=
  List.replicate 3599 (budget / 3600) ++ [budget / 3600 + budget % 3600]

/-- A governor band at its Table 12.4 default; limits in kHz above 800,000 kHz. -/
def GovBand.default (flo fhi : Nat) (en : Bool) (budget maxDbm reserve : Nat) : GovBand where
  flo := BitVec.ofNat 20 flo
  fhi := BitVec.ofNat 20 fhi
  en := en
  budget := BitVec.ofNat 26 budget
  maxDbm := BitVec.ofNat 8 maxDbm
  reserve := BitVec.ofNat 16 reserve
  buckets := levelFill budget

/-- Table 12.4. -/
def govDefaults : Vector GovBand 8 :=
  #v[GovBand.default 63000 65000 true 36000 14 310,
     GovBand.default 65000 68000 true 360000 14 310,
     GovBand.default 68000 68600 true 360000 14 310,
     GovBand.default 68700 69200 true 36000 14 310,
     GovBand.default 69400 69650 true 3600000 27 310,
     GovBand.default 69700 70000 true 360000 14 310,
     GovBand.default 102000 128000 false 0 14 0,
     GovBand.default 0 0 false 0 14 0]

def Rad.reset : Rad where
  promisc := false
  ackEn := true
  budgetWait := false
  en := false
  txAllow := false
  lock := false
  pan := 0xFFFFFFFF
  extLo := 0
  extHi := 0
  rxCh := 0
  access := 0xABAB8958
  preamble := 8
  ackDbm := 14
  gainDb := 0
  gov := govDefaults
  refill := false
  devIdx := 0
  devData := Vector.replicate 4 0
  dev := Vector.replicate 31 (Vector.replicate 4 0)
  cnt := Vector.replicate 12 0
  tx := none
  store := []
  acks := []
  paEn := false

def Comp.reset : Comp := { lvl := .normal, dist := none, surge := none }

def Sup.reset : Sup where
  sealing := false
  sealPhase := 0
  journalSealed := false
  onBat := false
  hostIncomplete := false
  hostLost := false
  batSeal := false
  comps := Vector.replicate 4 Comp.reset
  feedOnBat := false
  batAction := false
  lock := false
  auxHigh := 170
  auxRestore := 60
  auxLow := 50
  maxIlim := 400
  maxPlim := 150
  inrushMax := 4
  budget := 900
  logSel := 0
  log := []
  written := 0
  lost := 0
  heldReset := none
  sealStart := 0
  sealValid := false
  shedSeal := false
  feedBack := none

/-- The power block with DOM_ON 0x81 (HIF and AON); the cold power-up of Table 14.8 has completed no step. -/
def Pwr.reset : Pwr where
  state := .run
  refused := false
  why := 0
  lost := 0
  wakeCause := 0
  domHif := true
  domCore := false
  domUpl := false
  domChla := false
  domChlb := false
  domRad := false
  domFeed := false
  step := 0
  floor := 1
  sleepMs := 100
  idleUs := 100
  lingerMs := 10
  extUa := 0
  groups := 0
  wakeBits := 5
  alarm := 0
  upStep := 0
  downStep := 0
  toOff := false
  cold := true
  entryReq := none
  entrySeal := false
  latchedWake := none
  retained := 0
  collapsed := []
  enCore := false
  enSds := false
  enCh := false
  enAfe := false
  refEn := false
  retryWait := false
  woken := []
  waiting := []
  xtal := false
  testEn := false

def ImgSlot.empty : ImgSlot := { st := .empty, booted := false, hdr := none, pages := [] }

/-- A blank identity record (log 2): the values a factory writes are not the manual's. -/
def IdRec.blank : IdRec where
  seq := 0
  capsuleSeq := 0
  factorySn := 0
  activeSn := 0
  factoryMac := 0
  activeMac := 0
  profile := 2
  transferred := false
  origin := 0
  activeReg := []
  factoryReg := []
  operatorKey := []

def Fw.reset : Fw where
  runSlot := 0
  slotA := ImgSlot.empty
  slotB := ImgSlot.empty
  restricted := false
  unreadable := false
  rolledBack := false
  noImage := false
  confirmCfg := 600
  left := 0
  trialLive := false
  timerOn := false
  setGen := 0
  setInfo := 0
  rollbackFrom := 0
  wdg := 1000
  wdgResets := 0
  cp0 := .bootMonitor
  cp1 := .bootMonitor
  lastWdg := Vector.replicate 2 none
  wdgStart := Vector.replicate 2 0
  floor := 0
  rec_ := IdRec.blank
  recCopy := 0
  recKnown := false
  revert := false
  gens := []
  afterRestart := none
  restartAt := []
  ptp := []

def Glb.reset : Glb where
  unitId := 0
  loaded := false
  transferred := false
  copy := 0
  recBad := false
  sn := 0
  mac := 0
  origin := 0
  inForce := 2
  next := 2
  last := 0
  count := 0
  refused := false
  inReset := false

/-- Nominal crystal increment: 1/32768 s in units of 2⁻⁴⁰ ns (R227). -/
def crystalNominal : Nat := 1000000000 * 2 ^ 40 / 32768

def Time.reset : Time where
  valid := false
  validNext := false
  st := .unset
  src := .free
  refKind := false
  far := false
  holdExceeded := false
  calDone := false
  stepEn := true
  stepLimit := 10
  offset := 0
  holdErr := 0
  holdAcc := 0
  rate32k := 5000
  rateTcxo := 500
  holdMax := 1000
  todN := 0
  todSecLo := 0
  todSecHi := 0
  todNs := 0
  todDelay := 0
  todTrim := 0
  todKind := false
  todStatus := .idle
  ppsOutEn := false
  ppsInEn := false
  ppsInOvr := false
  ppsInUnread := false
  ppsWidth := 100
  ppsInNs := 0
  ppsInSec := 0
  ppsInSecLatch := 0
  ppsOut := false
  latch := 0
  latchAhn := 0
  rxts := Rxts.reset
  mds := 30
  tddPhase := 0
  ref := none
  errSum := 0
  errCount := 0
  errNext := 0
  avgDue := none
  goodAvgs := 0
  slew := 0
  slewRate := 0
  slewKeep := false
  holdOver := false
  calInc := crystalNominal
  pllLock := false
  stepped := 0

def Counter.reset : Counter where
  value := 0
  enable := false
  mode := 0
  wrap := false
  bad := false
  scope := 0xFF
  source := 0
  period := []

/-- Sources of Table 16.3 that form event records (class R). -/
def isRecordSource (s : Nat) : Bool :=
  s ≤ 22 || (28 ≤ s && s ≤ 31) || s == 33 || (36 ≤ s && s ≤ 40) || (48 ≤ s && s ≤ 64)
    || (80 ≤ s && s ≤ 86) || s == 88 || s == 89 || (91 ≤ s && s ≤ 95)

def Evt.reset : Evt where
  record := Vector.ofFn (fun i : Fin 96 => isRecordSource i.val)
  vec := Vector.replicate 96 0
  store := []
  overflow := 0
  lost := false
  log := []
  logSel := 0
  chStat := Vector.replicate 24 0
  pf := Vector.replicate 32 Counter.reset
  ch := Vector.replicate 24 (Vector.replicate 4 Counter.reset)
  intEn := Vector.replicate 3 0
  intPend := Vector.replicate 3 0
  vecCnt := Vector.replicate 9 0
  chCnt := Vector.replicate 24 0

def Mgt.reset : Mgt where
  lastWords := 0
  partial_ := false
  opcErr := false
  armErr := false
  wrDenied := false
  addrErr := false
  asleep := false
  selected := false
  spiMode3 := false
  mode := .header
  armed := none
  words := 0
  errs := 0
  allOnes := false
  capture := 0

/-! ### The terminal -/

/-- The state of the terminal and the queue of waiting commands. -/
structure State where
  /-- commands waiting, first in, first out -/
  pending : List Instr
  part    : Part
  /-- the datum, in units of 2⁻⁴⁰ ns since the epoch, modulo 2⁶⁴ s -/
  datum   : Nat
  time    : Time
  hif     : Hif
  rings   : Vector Ring 160
  journal : List JEntry
  ledger  : Ledger
  recov   : List Recovery
  chtabBase : BitVec 52
  chtabEn : Bool
  chans   : Vector Chan 24
  upl     : Upl
  xc      : Xc
  sec     : Sec
  rad     : Rad
  sup     : Sup
  pwr     : Pwr
  fw      : Fw
  glb     : Glb
  evt     : Evt
  mgt     : Mgt
  /-- what the terminal has sent, newest first (the model's own observation of its edges) -/
  sent    : List Out
  /-- the model's own count of free values drawn; no rule names it -/
  free    : Nat
  deriving DecidableEq, Repr

/-- Channels the part has (Table 00.1). -/
def Part.channels : Part → Nat
  | .gnx2400 => 24
  | .gnx1200 => 12

/-- The terminal right after POWER-ON: every field at its Reset value, nothing waiting. -/
def State.resetOf (part : Part) : State where
  pending := []
  part := part
  datum := 0
  time := Time.reset
  hif := Hif.reset
  rings := Vector.ofFn (fun r : Fin 160 => Ring.reset r.val)
  journal := []
  ledger := Ledger.reset
  recov := []
  chtabBase := 0
  chtabEn := false
  chans := Vector.ofFn (fun c : Fin 24 => Chan.reset (decide (c.val < part.channels)))
  upl := Upl.reset
  xc := Xc.reset
  sec := Sec.reset
  rad := Rad.reset
  sup := Sup.reset
  pwr := Pwr.reset
  fw := Fw.reset
  glb := Glb.reset
  evt := Evt.reset
  mgt := Mgt.reset
  sent := []
  free := 0

/-- Reset of the lead part (log 1: the part is a fuse, and the other part's reset is `State.resetOf .gnx1200`). -/
def State.reset : State := State.resetOf .gnx2400

/-- Why the block stops with a fault. -/
inductive Fault where
  /-- A command carries data of a shape its transfer cannot deliver: more than 8 descriptors in a fetch (DESCRIPTOR_FETCH_COMPLETE), a table phase of neither 4 nor 0x7F8 bytes (CHTAB_READ_PHASE_COMPLETE), a ledger image of other sizes than the ledger has (LEDGER_ADOPT, LEDGER_RETRY). Raised by these meanings alone, and for commands that are not well-formed alone; safe: the terminal never sees it. -/
  | illFormed
  deriving DecidableEq, Repr

/-- Why a command has no meaning. -/
inductive Refusal where
  /-- The command has no meaning in this model yet. Raised by the dispatch alone; safe. -/
  | notModelled (mnemonic : String)
  deriving DecidableEq, Repr

end Sys2Proof.Machine
end

