-- ==== Sys2Proof/Machine/Bits.lean ====
section
/-! DEFINITION. Bit fields, byte order, checks and small list and vector operations that the meanings share. -/

namespace Sys2Proof.Machine

open Sys2Proof

/-! ### Bits and fields -/

/-- A Bool placed at bit i. -/
def flagAt (b : Bool) (i : Nat) : Nat := if b then 2 ^ i else 0

/-- A value of `n` bits placed at bit i. -/
def fieldAt (v n i : Nat) : Nat := (v % 2 ^ n) * 2 ^ i

/-- Bits hi:lo of a word (Table 00.4). -/
def bits (w : Word) (hi lo : Nat) : Nat := (w.toNat / 2 ^ lo) % 2 ^ (hi + 1 - lo)

/-- Bit i of a word. -/
def bitOf (w : Word) (i : Nat) : Bool := w.toNat.testBit i

/-- A 32-bit word of a natural number, modulo 2³². -/
def word (n : Nat) : Word := BitVec.ofNat 32 n

/-- Two's complement of `n` bits as an integer. -/
def signed (v n : Nat) : Int :=
  let u := v % 2 ^ n
  if 2 * u < 2 ^ n then (u : Int) else (u : Int) - (2 ^ n : Nat)

/-- An integer as two's complement of `n` bits. -/
def twos (i : Int) (n : Nat) : Nat := (i % (2 ^ n : Nat)).toNat

/-- Serial arithmetic modulo 2³²: a precedes b (02_host_port.md, Sequence numbers, slots and counters). -/
def precedes (a b : Word) : Bool :=
  let d := (b - a).toNat
  decide (1 ≤ d) && decide (d < 2 ^ 31)

/-- Serial arithmetic modulo 2¹⁶, for DTU sequence numbers. -/
def precedes16 (a b : Half) : Bool :=
  let d := (b - a).toNat
  decide (1 ≤ d) && decide (d < 2 ^ 15)

/-- Saturating increment of an n-bit count. -/
def satAdd (v k n : Nat) : Nat := min (v + k) (2 ^ n - 1)

/-! ### Byte order -/

/-- The low n bytes of a value, least significant first (R9). -/
def bytesLE : Nat → Nat → List Byte
  | 0, _ => []
  | n + 1, v => BitVec.ofNat 8 v :: bytesLE n (v / 256)

/-- A little-endian byte list as a value. -/
def ofLE : List Byte → Nat
  | [] => 0
  | b :: bs => b.toNat + 256 * ofLE bs

/-- A big-endian byte list as a value. -/
def ofBE (bs : List Byte) : Nat := bs.foldl (fun a b => a * 256 + b.toNat) 0

/-- The low n bytes of a value, most significant first. -/
def bytesBE (n v : Nat) : List Byte := (bytesLE n v).reverse

/-- n bytes of a list from an offset, as a little-endian value; bytes past the end are 0. -/
def leAt (bs : List Byte) (off n : Nat) : Nat := ofLE ((bs.drop off).take n)

/-- n bytes of a list from an offset, as a big-endian value. -/
def beAt (bs : List Byte) (off n : Nat) : Nat := ofBE ((bs.drop off).take n)

/-- Zero bytes. -/
def zeros (n : Nat) : List Byte := List.replicate n 0

/-- A byte list of a given length: cut, or filled with zeros. -/
def fit (n : Nat) (b : List Byte) : List Byte := (b ++ zeros n).take n

/-! ### Checks -/

/-- One bit of a reflected CRC with the given reflected polynomial. -/
def crcBit (poly c : Nat) : Nat := if c % 2 = 1 then (c / 2) ^^^ poly else c / 2

/-- One byte of a reflected CRC. -/
def crcByte (poly c : Nat) (b : Byte) : Nat :=
  let x := c ^^^ b.toNat
  crcBit poly (crcBit poly (crcBit poly (crcBit poly
    (crcBit poly (crcBit poly (crcBit poly (crcBit poly x)))))))

/-- A reflected 32-bit CRC with initial value and final XOR 0xFFFF_FFFF. -/
def crcReflected (poly : Nat) (bs : List Byte) : Nat :=
  (bs.foldl (crcByte poly) 0xFFFFFFFF) ^^^ 0xFFFFFFFF

/-- CRC-32C, polynomial 0x1EDC_6F41 reflected (R74). -/
def crc32c (bs : List Byte) : Nat := crcReflected 0x82F63B78 bs

/-- The IEEE 802.3 frame check sequence, polynomial 0x04C1_1DB7 reflected. -/
def crc32 (bs : List Byte) : Nat := crcReflected 0xEDB88320 bs

/-- One byte of CRC-16 with polynomial 0x1021, most significant bit first. -/
def crc16Byte (c : Nat) (b : Byte) : Nat :=
  let step (x : Nat) : Nat := if x / 32768 % 2 = 1 then ((x * 2) % 65536) ^^^ 0x1021 else (x * 2) % 65536
  step (step (step (step (step (step (step (step (c ^^^ (b.toNat * 256)))))))))

/-! ### Vectors and lists -/

/-- The element at a natural index, or a default past the end. -/
def vget {α : Type} {n : Nat} (v : Vector α n) (i : Nat) (d : α) : α :=
  if h : i < n then v[i] else d

/-- The vector with the element at a natural index replaced; past the end, unchanged. -/
def vset {α : Type} {n : Nat} (v : Vector α n) (i : Nat) (x : α) : Vector α n :=
  if h : i < n then v.set i x else v

/-- Every element mapped with its index. -/
def vmapIdx {α β : Type} {n : Nat} (f : Nat → α → β) (v : Vector α n) : Vector β n :=
  Vector.ofFn (fun i : Fin n => f i.val v[i])

/-- The first entry of an association list. -/
def lookup {α β : Type} [DecidableEq α] (l : List (α × β)) (k : α) : Option β :=
  match l with
  | [] => none
  | (a, b) :: t => if a = k then some b else lookup t k

/-- The list without the entries of a key. -/
def without {α β : Type} [DecidableEq α] (l : List (α × β)) (k : α) : List (α × β) :=
  l.filter (fun p => decide (p.1 ≠ k))

/-- The first element a predicate holds of is removed. -/
def eraseFirst {α : Type} (p : α → Bool) : List α → List α
  | [] => []
  | a :: t => if p a then t else a :: eraseFirst p t

/-- Every element a predicate holds of is mapped. -/
def mapIf {α : Type} (p : α → Bool) (f : α → α) (l : List α) : List α :=
  l.map (fun a => if p a then f a else a)

/-- The sum of a list. -/
def total (l : List Nat) : Nat := l.foldl (· + ·) 0

/-- n copies of a step, applied one after another. -/
def iter {α : Type} (f : α → α) : Nat → α → α
  | 0, a => a
  | n + 1, a => iter f n (f a)

/-! ### The datum's parts (R218) -/

/-- Units of the datum in a nanosecond. -/
def nsUnit : Nat := 2 ^ 40

/-- Whole nanoseconds of an instant since the epoch. -/
def instNs (t : Nat) : Nat := t / nsUnit

/-- Seconds of an instant. -/
def instSec (t : Nat) : Nat := instNs t / 1000000000

/-- Nanoseconds within the second. -/
def instNsPart (t : Nat) : Nat := instNs t % 1000000000

/-- The 16-bit fraction of a nanosecond. -/
def instFrac (t : Nat) : Nat := (t % nsUnit) / 2 ^ 24

/-- Milliseconds, microseconds of the datum as units. -/
def usUnit : Nat := 1000 * nsUnit
def msUnit : Nat := 1000000 * nsUnit
def secUnit : Nat := 1000000000 * nsUnit

end Sys2Proof.Machine
end

