-- ==== Sys2Proof/Machine/Read.lean ====
section
/-! DEFINITION. What each register reads: the image of every register of the map (17_registers.md) as a function of the state, without the read latches of R15, R233 and R236. -/

namespace Sys2Proof.Machine

open Sys2Proof

/-- An end is in an unavailable period now: one that stands after the latest decided second, and that no unmonitored second has ended since (R173, R174, LN_DEFECT). -/
def Pm.unavailable (p : Pm) (far : Bool) : Bool := (if far then p.unavFe else p.unavNe) && p.pend.all (fun x => x.t.monitored)

/-! ### Codes of enumerated fields -/

def RingState.code : RingState → Nat
  | .disabled => 0 | .active => 1 | .stalledRecord => 2 | .halted => 3 | .recovering => 4

def ChSt.code : ChSt → Nat
  | .off => 0 | .ready => 1 | .train => 2 | .service => 3 | .economy => 4 | .halted => 5 | .absent => 7

def Target.code : Target → Nat
  | .off => 0 | .ready => 1 | .service => 2

def PwrSt.code : PwrSt → Nat
  | .run => 0 | .idle => 1 | .sleep => 2 | .entering => 3 | .poweringDown => 4 | .deep => 5 | .waking => 6
  | .off => 7

def FeedSt.code : FeedSt → Nat
  | .off => 0 | .waitBudget => 1 | .inrush => 2 | .paused => 3 | .established => 4 | .pulsing => 5
  | .backoff => 6 | .lockedOff => 7 | .shed => 8

def Load.code : Load → Nat
  | .notMeasured => 0 | .present => 1 | .open_ => 2

def GateSt.code : GateSt → Nat
  | .notAssigned => 0 | .assigned => 1 | .ranged => 2 | .stopped => 3

def SlotSt.code : SlotSt → Nat
  | .empty => 0 | .valid => 1 | .trial => 2 | .confirmed => 3 | .rejected => 4

def CpSt.code : CpSt → Nat
  | .running => 0 | .reset => 1 | .failed => 2 | .bootMonitor => 3 | .halted => 4

def TimeSt.code : TimeSt → Nat
  | .unset => 0 | .locked => 1 | .slewing => 2 | .holdover => 3

def TimeSrc.code : TimeSrc → Nat
  | .free => 0 | .locked => 1 | .frozen => 2 | .crystal => 3

def TodSt.code : TodSt → Nat
  | .idle => 0 | .armed => 1 | .applied => 2 | .late => 3 | .rejected => 4

def Lvl.code : Lvl → Nat
  | .normal => 0 | .low => 1 | .int => 2 | .high => 3

def Owner.code : Owner → Nat
  | .pf => 0 | .fw => 1 | .system => 2

def SealState.code : SealState → Nat
  | .running => 0 | .sealing => 1 | .sealed => 2 | .closed => 3

/-- STATUS codes of Table 02.8. -/
def Status.code : Status → Nat
  | .ok => 0x0000 | .verifyFailed => 0x0001 | .retOpcode => 0x0100 | .retLength => 0x0101
  | .retParam => 0x0102 | .retSeq => 0x0103 | .retWindow => 0x0104 | .retDma => 0x0105
  | .retNoPath => 0x0106 | .retAbsent => 0x0107 | .retBusy => 0x0108 | .retBudget => 0x0109
  | .retKey => 0x010A | .retExpired => 0x010B | .retReset => 0x010C | .retPart => 0x010D
  | .retDestroyed => 0x010E | .retDenied => 0x010F | .outcomeUncertain => 0x01FF

/-- PART numbers (GLB_ID, Table 03.3). -/
def Part.number : Part → Nat
  | .gnx2400 => 0x2400 | .gnx1200 => 0x1200

/-! ### Derived facts about rings, channels and domains -/

/-- Channel c exists on this part (Table 00.1). -/
def present (s : State) (c : Nat) : Bool := decide (c < s.part.channels)

/-- Ring r exists on this part (R24, R43, R52). -/
def ringOnPart (s : State) (r : Nat) : Bool :=
  decide (r < 11) || (decide (16 ≤ r) && decide (r < 16 + 6 * s.part.channels))

/-- Ring kinds of Table 02.3: 0 submission, 1 write-back, 2 completion, 3 event. -/
def ringKind (r : Nat) : Nat :=
  if r < 16 then
    match r with
    | 0 => 0 | 9 => 0 | 1 => 2 | 10 => 2 | 2 => 3 | _ => 1
  else
    match (r - 16) % 6 with
    | 2 => 1 | 5 => 1 | 4 => 2 | _ => 0

/-- Written by the host: submission or write-back. -/
def hostWritten (r : Nat) : Bool := decide (ringKind r < 2)

/-- Receive rings (R66). -/
def isRxRing (r : Nat) : Bool := r == 4 || r == 5 || r == 8 || (decide (16 ≤ r) && (r - 16) % 6 == 2)

/-- Transmit rings, which have a LIFETIME (R52, R70). -/
def isTxRing (r : Nat) : Bool :=
  r == 3 || r == 6 || r == 7 || (decide (16 ≤ r) && decide ((r - 16) % 6 < 2))

/-- TRIB rings. -/
def isTribRing (r : Nat) : Bool := decide (16 ≤ r) && (r - 16) % 6 == 5

/-- Command rings: ring 0 and each channel's CMD ring. -/
def isCmdRing (r : Nat) : Bool := r == 0 || (decide (16 ≤ r) && (r - 16) % 6 == 3)

/-- The channel whose ring r is; `none` for rings 0 to 15. -/
def ringChan (r : Nat) : Option Nat := if r < 16 then none else some ((r - 16) / 6)

/-- Ring 16 + 6c + k. -/
def chRing (c k : Nat) : Nat := 16 + 6 * c + k

/-- VF of channel c exists and is enabled (R38). -/
def vfOn (s : State) (c : Nat) : Bool :=
  s.hif.vfEnable && decide (c < s.hif.numVfs.toNat) && decide (c < s.part.channels)

/-- The function that owns ring r (R38). -/
def ringOwner (s : State) (r : Nat) : Nat :=
  match ringChan r with
  | none => 0
  | some c => if vfOn s c then c + 1 else 0

/-- The ring whose slots take ring r's records: the paired completion ring, or r itself (Table 02.3). -/
def recordRing (r : Nat) : Nat :=
  if r = 0 then 1 else if r = 9 then 10
  else if 16 ≤ r ∧ (r - 16) % 6 < 4 ∧ (r - 16) % 6 ≠ 2 then chRing ((r - 16) / 6) 4
  else r

/-- The ring at a number, or a ring that does not exist. -/
def ringAt (s : State) (r : Nat) : Ring := vget s.rings r (Ring.reset r)

/-- The channel at a number. -/
def chanAt (s : State) (c : Nat) : Chan := vget s.chans c (Chan.reset false)

/-- Entries of a ring. -/
def Ring.size (g : Ring) : Nat := 2 ^ g.log2.toNat

/-- A domain is powered. -/
def domOn (s : State) : Domain → Bool
  | .hif => s.pwr.domHif
  | .core => s.pwr.domCore
  | .upl => s.pwr.domUpl
  | .chla => s.pwr.domChla
  | .chlb => s.pwr.domChlb
  | .rad => s.pwr.domRad
  | .feed => s.pwr.domFeed
  | .aon => true

/-- CLK_CORE is gated in IDLE and stopped in SLEEP and below (Table 14.11). -/
def coreClocked (s : State) : Bool :=
  match s.pwr.state with
  | .idle | .sleep | .deep | .off => false
  | _ => true

/-- The registers of a domain are accessible: powered, and for CORE clocked or woken (R318). -/
def domReady (s : State) (d : Domain) : Bool :=
  match d with
  | .core => s.pwr.domCore && (coreClocked s || s.pwr.woken.contains .core)
  | _ => domOn s d

/-- The domain of a register by PF BAR0 offset (Table 17.1). -/
def regDomain (off : Nat) : Domain :=
  if 0x100000 ≤ off ∧ off < 0x280000 then
    let o := off % 0x10000
    if 0x300 ≤ o ∧ o < 0x324 then .feed else .hif
  else if 0x400000 ≤ off then .hif
  else
    match off / 0x10000 with
    | 1 => .hif | 2 => .hif | 6 => .upl | 7 => .hif | 8 => .hif | 9 => .rad | 11 => .hif | 12 => .core
    | _ => .aon

/-- The PF-view offset of a requester's offset (R375); VF MSI-X structures lie at 0x40_0000 and up, and `none` is an unused offset. -/
def viewOff (who : Requester) (off : Nat) : Option Nat :=
  match who with
  | .vf c =>
    let n := c.val
    if off < 0xE000 then some (0x100000 + 0x10000 * n + off)
    else if off < 0xE0C0 then some (0x12000 + 0x20 * chRing n 0 + (off - 0xE000))
    else if 0xE100 ≤ off ∧ off < 0xE118 then some (0x13400 + 4 * chRing n 0 + (off - 0xE100))
    else if 0xF000 ≤ off ∧ off < 0x10000 then some (0x400000 + 0x1000 * n + (off - 0xF000))
    else none
  | _ =>
    if 0x100000 ≤ off ∧ off < 0x280000 ∧ 0xE000 ≤ off % 0x10000 then none
    else if off < 0x400000 then some off
    else none

/-! ### Images -/

/-- RING_CFG_n. -/
def ringCfgImage (g : Ring) (r : Nat) : Word :=
  word (flagAt g.enable 31 + fieldAt g.vector.toNat 8 16 + fieldAt g.log2.toNat 5 8 + fieldAt (ringKind r) 2 2)

/-- RING_MOD_n. -/
def ringModImage (g : Ring) : Word := word (fieldAt g.modTime.toNat 16 16 + g.modCount.toNat)

/-- RING_STAT_n. -/
def ringStatImage (g : Ring) : Word :=
  word (fieldAt g.state.code 3 29 + flagAt g.halted 4 + flagAt g.seqErr 3 + flagAt g.dbErr 2
    + flagAt g.winErr 1 + flagAt g.dmaErr 0)

/-- A ring register by its offset within the ring's 32 bytes. -/
def ringRegImage (s : State) (r o : Nat) : Word :=
  if ringOnPart s r then
    let g := ringAt s r
    match o / 4 with
    | 0 => word (g.base.toNat * 4096)
    | 1 => word (g.base.toNat / 2 ^ 20)
    | 2 => ringCfgImage g r
    | 3 => ringModImage g
    | 4 => g.acc
    | 5 => g.cpl
    | 6 => if hostWritten r then g.tail else g.head
    | _ => ringStatImage g
  else 0

/-- A window register by function, window and offset (R54, R376). -/
def windowImage (s : State) (f w o : Nat) : Word :=
  if 13 ≤ f ∧ s.part = .gnx1200 then 0
  else
    let x := vget (vget s.hif.windows f (Vector.replicate 8 Window.reset)) w Window.reset
    match o / 4 with
    | 0 => word (x.base.toNat * 4096 + flagAt x.write 2 + flagAt x.read 1 + flagAt x.enable 0)
    | 1 => word (x.base.toNat / 2 ^ 20)
    | 2 => word (x.limit.toNat * 4096)
    | _ => word (x.limit.toNat / 2 ^ 20)

/-- A word of a function's MSI-X table. -/
def msixImage (f : Func) (o : Nat) : Word :=
  match f.table[o / 16]? with
  | none => 0
  | some e =>
    match o % 16 / 4 with
    | 0 => e.addrLo
    | 1 => e.addrHi
    | 2 => e.data
    | _ => e.ctrl

/-- A recovery of the whole terminal: a DEVICE or FUNCTION reset, an adoption, or the resumption after a seal (Table 03.6). The others cover the rings of one channel, core, bank or processor. -/
def wholeRecovery (v : Recovery) : Bool := v.cause == 0x01 || v.cause == 0x02 || v.cause == 0x04 || v.cause == 0x13

/-- LEDG_STAT.STATE, the first that holds of OFF, ADOPTING, HELD, SEALED, RECOVERING, ACTIVE; between an enable and the acknowledgement of its writes it is OFF, and HELD once one of them failed; a close keeps the value it met until its header writes are acknowledged (R77). RECOVERING is shown while a recovery of the whole terminal is pending: a recovery of some rings only stops those rings and no other's fetch (R21, R25, R27, R33; DESIGN CHOICE, log 5). -/
def ledgerState (s : State) : Nat :=
  if s.ledger.adopting then 4
  else if s.ledger.failed ≠ [] then 2
  else if s.ledger.closing then s.ledger.closeAs.toNat
  else if !s.ledger.active then 0
  else if s.ledger.sealed then 5
  else if s.recov.any wholeRecovery then 3
  else 1

/-- LEDG_STAT. -/
def ledgStatImage (s : State) : Word :=
  word (fieldAt (ledgerState s) 3 29 + flagAt s.ledger.foreign_ 3 + flagAt s.ledger.sealInvalid 2
    + flagAt s.ledger.recordLost 1 + flagAt s.ledger.writeErr 0)

/-- HIF_FAULT_INFO. -/
def faultInfoImage (s : State) : Word :=
  word (flagAt s.hif.faultValid 31 + fieldAt s.hif.faultKind.toNat 3 28 + fieldAt s.hif.faultRing.toNat 8 16
    + fieldAt s.hif.faultFn.toNat 5 8)

/-- CHTAB_PEND. -/
def chtabPend (s : State) : Nat :=
  total ((List.range 24).map (fun c => flagAt (chanAt s c).tab.pend c))

/-- The effective target of a channel: the cached one lowered by ENABLE and HOLD (R93). -/
def effTarget (s : State) (c : Nat) : Target :=
  let t := (chanAt s c).tab
  if !s.chtabEn then .off
  else
    match t.hold.toNat, t.target with
    | 2, _ => .off
    | 1, .service => .ready
    | _, x => x

/-- The feed controller reports its output established (Table 13.5). -/
def feedEstablished (f : Feed) : Bool := decide (f.state = .established) || (decide (f.state = .pulsing) && f.pulseOk)

/-- The channel waits in READY for its feed (R96). -/
def waitFeed (s : State) (c : Nat) : Bool :=
  let k := chanAt s c
  decide (k.tab.state = .ready) && decide (effTarget s c = .service) && k.feed.cfg.enable && !feedEstablished k.feed

/-- CH_STATE. -/
def chStateImage (s : State) (c : Nat) : Word :=
  if present s c then
    let t := (chanAt s c).tab
    word (fieldAt t.trainFails.toNat 8 24 + fieldAt t.haltCause.toNat 4 20 + flagAt (waitFeed s c) 16
      + flagAt t.entryBad 15 + flagAt t.readErr 14 + flagAt t.torn 13 + fieldAt t.sectRej.toNat 5 8
      + fieldAt (effTarget s c).code 2 4 + t.state.code)
  else 7

/-- The retention load L of R320 for a group selection. -/
def retBanks (g : BitVec 6) : Nat :=
  flagAt (g.getLsbD 0) 0 + 4 * (flagAt (g.getLsbD 1) 0 + flagAt (g.getLsbD 2) 0 + flagAt (g.getLsbD 3) 0
    + flagAt (g.getLsbD 4) 0 + flagAt (g.getLsbD 5) 0)

def retLoad (p : Pwr) (g : BitVec 6) : Nat := 310 + 48 * retBanks g + p.extUa.toNat

/-- DOM_ON, bits 15:8 of PWR_STAT. -/
def domOnBits (p : Pwr) : Nat :=
  flagAt p.domHif 8 + flagAt p.domCore 9 + flagAt p.domUpl 10 + flagAt p.domChla 11 + flagAt p.domChlb 12
    + flagAt p.domRad 13 + flagAt p.domFeed 14 + flagAt true 15

/-- PWR_STAT. -/
def pwrStatImage (s : State) : Word :=
  let p := s.pwr
  word (fieldAt p.state.code 4 28 + flagAt p.refused 27 + fieldAt p.why.toNat 2 25 + fieldAt p.lost.toNat 6 19
    + fieldAt p.wakeCause.toNat 3 16 + domOnBits p + fieldAt p.step 4 0)

/-- PWR block. -/
def readPwr (s : State) (o : Nat) : Word :=
  let p := s.pwr
  match o with
  | 0x00 => pwrStatImage s
  | 0x04 => word p.floor.toNat
  | 0x08 => word (fieldAt p.sleepMs.toNat 16 16 + fieldAt p.idleUs.toNat 8 8 + p.lingerMs.toNat)
  | 0x0C => word (fieldAt p.extUa.toNat 8 16 + p.groups.toNat)
  | 0x10 => word (retLoad p p.groups)
  | 0x14 => word p.wakeBits.toNat
  | 0x18 => p.alarm
  | _ => 0

/-- DATUM_STAT. -/
def datumStatImage (s : State) : Word :=
  let t := s.time
  word (flagAt t.valid 31 + fieldAt t.st.code 3 28 + fieldAt t.src.code 2 26 + flagAt t.refKind 25 + flagAt t.far 2
    + flagAt t.holdExceeded 1 + flagAt t.calDone 0)

/-- The four RXTS registers by word. -/
def rxtsImage (x : Rxts) (i : Nat) : Word :=
  match i, x.fifo with
  | 0, e :: _ => word (flagAt true 31 + fieldAt e.msgType.toNat 4 24 + fieldAt e.domain.toNat 8 16 + e.seqId.toNat)
  | 1, e :: _ => e.ns
  | 2, e :: _ => e.sec
  | 3, f => word (fieldAt f.length 5 16 + x.drops.toNat)
  | _, _ => 0

/-- TDD_STALE: channels whose latched values differ from TDD_CFG (R138). -/
def tddStale (s : State) : Nat :=
  total ((List.range 24).map (fun c =>
    let l := (chanAt s c).line
    flagAt (l.latched && (decide (l.latMds ≠ s.time.mds.toNat) || decide (l.latPhase ≠ s.time.tddPhase.toNat))) c))

/-- TIME block; the latched parts of the datum read as the last DATUM_NS read left them (R233). -/
def readTime (s : State) (o : Nat) : Word :=
  let t := s.time
  match o with
  | 0x00 => word (instNsPart s.datum)
  | 0x04 => word (instSec t.latch)
  | 0x08 => word (instSec t.latch / 2 ^ 32)
  | 0x0C => word (instFrac t.latch)
  | 0x10 => datumStatImage s
  | 0x14 => word (flagAt t.stepEn 30 + t.stepLimit.toNat)
  | 0x18 => t.offset
  | 0x1C => t.holdErr
  | 0x20 => word (fieldAt t.rate32k.toNat 16 16 + t.rateTcxo.toNat)
  | 0x24 => t.holdMax
  | 0x30 => t.todN
  | 0x34 => t.todSecLo
  | 0x38 => word t.todSecHi.toNat
  | 0x3C => t.todNs
  | 0x40 => t.todDelay
  | 0x44 => t.todTrim
  | 0x48 => word (flagAt t.todKind 30 + t.todStatus.code)
  | 0x50 => word (flagAt t.ppsOutEn 31 + flagAt t.ppsInEn 30 + flagAt t.ppsInOvr 29 + t.ppsWidth.toNat)
  | 0x54 => t.ppsInNs
  | 0x58 => t.ppsInSecLatch
  | 0x60 => rxtsImage t.rxts 0
  | 0x64 => rxtsImage t.rxts 1
  | 0x68 => rxtsImage t.rxts 2
  | 0x6C => rxtsImage t.rxts 3
  | 0x200 => word (fieldAt t.mds.toNat 6 26 + t.tddPhase.toNat)
  | 0x204 => word (tddStale s)
  | _ => 0

/-- SUP_STAT. -/
def supStatImage (s : State) : Word :=
  let u := s.sup
  word (flagAt u.sealing 31 + flagAt u.journalSealed 30 + flagAt u.onBat 29 + flagAt u.hostIncomplete 28
    + fieldAt (vget u.comps 3 Comp.reset).lvl.code 2 6 + fieldAt (vget u.comps 2 Comp.reset).lvl.code 2 4
    + fieldAt (vget u.comps 1 Comp.reset).lvl.code 2 2 + fieldAt (vget u.comps 0 Comp.reset).lvl.code 2 0)

/-- A supply log entry as bytes (Table 13.2). -/
def supLogBytes (e : SupLog) : List Byte :=
  bytesLE 4 e.sec.toNat ++ bytesLE 4 e.ns.toNat ++ bytesLE 4 e.value.toNat ++ [e.kind, e.input, e.detail, e.flags]

/-- Sum of the feed reservations (R298). -/
def feedUsed (s : State) : Nat := total ((List.range 24).map (fun c => (chanAt s c).feed.reserve))

/-- SUP block. -/
def readSup (s : State) (o : Nat) : Word :=
  let u := s.sup
  match o with
  | 0x00 => supStatImage s
  | 0x04 => word (flagAt u.feedOnBat 1 + flagAt u.batAction 0)
  | 0x08 => word (flagAt u.lock 0)
  | 0x0C => word (fieldAt u.auxHigh.toNat 8 16 + fieldAt u.auxRestore.toNat 8 8 + u.auxLow.toNat)
  | 0x10 => word (fieldAt u.maxIlim.toNat 9 23 + fieldAt u.maxPlim.toNat 8 15 + fieldAt u.inrushMax.toNat 5 10)
  | 0x14 => word (fieldAt (feedUsed s) 16 16 + u.budget.toNat)
  | 0x20 => word u.logSel.toNat
  | 0x34 => word (fieldAt u.written.toNat 16 16 + u.lost.toNat)
  | _ =>
    if 0x24 ≤ o ∧ o < 0x34 then
      match u.log[u.logSel.toNat]? with
      | none => 0
      | some e => word (leAt (supLogBytes e) (o - 0x24) 4)
    else 0

/-- INT_N is driven low (R369). -/
def intN (s : State) : Bool :=
  (List.range 3).any (fun k => decide ((vget s.evt.intEn k 0 &&& vget s.evt.intPend k 0) ≠ 0))

/-- Bits 9:0 of MGT_STATUS and of the status word. -/
def mgtLive (s : State) : Nat :=
  flagAt (intN s) 9 + fieldAt s.pwr.state.code 3 4 + flagAt s.sup.sealing 3 + flagAt s.time.valid 2

/-- MGT_STATUS. -/
def mgtStatusImage (s : State) : Word :=
  let m := s.mgt
  word (fieldAt 0xA7 8 24 + fieldAt m.lastWords.toNat 8 16 + flagAt m.partial_ 15 + flagAt m.opcErr 14
    + flagAt m.armErr 13 + flagAt m.wrDenied 12 + flagAt m.addrErr 11 + flagAt m.asleep 10 + mgtLive s)

/-- MGT block. -/
def readMgt (s : State) (o : Nat) : Word :=
  if o = 0 then mgtStatusImage s
  else if 0x10 ≤ o ∧ o < 0x1C then vget s.evt.intEn ((o - 0x10) / 4) 0
  else if 0x20 ≤ o ∧ o < 0x2C then vget s.evt.intPend ((o - 0x20) / 4) 0
  else 0

/-- HIF block. -/
def readHif (s : State) (o : Nat) : Word :=
  if o = 0x04 then word (flagAt s.hif.lock 0)
  else if o = 0x08 then word (fieldAt s.hif.width.toNat 4 4 + s.hif.speed.toNat)
  else if o = 0x10 then faultInfoImage s
  else if o = 0x14 then word s.hif.faultAddr.toNat
  else if o = 0x18 then word (s.hif.faultAddr.toNat / 2 ^ 32)
  else if o = 0x100 then word (s.chtabBase.toNat * 4096)
  else if o = 0x104 then word (s.chtabBase.toNat / 2 ^ 20)
  else if o = 0x108 then word (flagAt s.chtabEn 0)
  else if o = 0x110 then word (chtabPend s)
  else if 0x1000 ≤ o ∧ o < 0x1C80 then windowImage s ((o - 0x1000) / 0x80) ((o % 0x80) / 0x10) (o % 0x10)
  else if 0x2000 ≤ o ∧ o < 0x3400 then ringRegImage s ((o - 0x2000) / 0x20) (o % 0x20)
  else if 0x3400 ≤ o ∧ o < 0x3680 then
    if ringOnPart s ((o - 0x3400) / 4) then word (ringAt s ((o - 0x3400) / 4)).lifetime.toNat else 0
  else if 0x4000 ≤ o ∧ o < 0x4400 then msixImage (vget s.hif.funcs 0 (Func.reset 64)) (o - 0x4000)
  else if o = 0x4800 then word (vget s.hif.funcs 0 (Func.reset 64)).pba.toNat
  else if o = 0x4804 then word ((vget s.hif.funcs 0 (Func.reset 64)).pba.toNat / 2 ^ 32)
  else 0

/-- LEDG block. -/
def readLedg (s : State) (o : Nat) : Word :=
  match o with
  | 0x00 => word (s.ledger.base.toNat * 4096)
  | 0x04 => word (s.ledger.base.toNat / 2 ^ 20)
  | 0x08 => word (flagAt s.ledger.enable 0)
  | 0x0C => ledgStatImage s
  | 0x10 => s.ledger.epoch
  | _ => 0

/-- Banks set in the retirement map. -/
def banksRetired (s : State) : Nat := total ((List.range 64).map (fun i => flagAt (s.xc.retired.getLsbD i) 0))

/-- XC block. -/
def readXc (s : State) (o : Nat) : Word :=
  let x := s.xc
  if o = 0x00 then word (banksRetired s)
  else if o = 0x04 then x.bufCe
  else if o = 0x08 then x.hostDisc
  else if o = 0x0C then x.noFlow
  else if o = 0x10 then word x.retired.toNat
  else if o = 0x14 then word (x.retired.toNat / 2 ^ 32)
  else if o = 0x18 then x.rxLost
  else if 0x100 ≤ o ∧ o < 0x140 then
    let p := vget x.ports ((o - 0x100) / 0x20) FtPort.reset
    match (o % 0x20) / 4 with
    | 5 => word (fieldAt p.status.toNat 2 30 + p.idx.toNat)
    | w => if w < 4 then vget p.data w 0 else 0
  else if 0x400 ≤ o ∧ o < 0x500 then vget x.tcq ((o - 0x400) / 4) 0
  else 0

/-- SEC_STAT. -/
def secStatImage (s : State) : Word :=
  word (flagAt s.sec.trngFail 31 + flagAt s.sec.maskStale 30 + s.sec.retired.toNat)

/-- SEC block. -/
def readSec (s : State) (o : Nat) : Word :=
  match o with
  | 0x00 => secStatImage s
  | 0x04 => word (fieldAt s.sec.split.toNat 6 8 + flagAt s.sec.plainDis 1 + flagAt s.sec.lock 0)
  | 0x10 => word s.sec.ksSel.toNat
  | 0x14 =>
    let k := vget s.sec.slots s.sec.ksSel.toNat Slot.empty
    word (flagAt k.valid 31 + fieldAt k.kind.toNat 4 27 + fieldAt k.owner.code 2 25 + flagAt k.exportable 24
      + fieldAt k.gen.toNat 8 16)
  | _ => 0

/-- USED of a governor band. -/
def govUsed (b : GovBand) : Nat := total b.buckets

def govAt (s : State) (b : Nat) : GovBand := vget s.rad.gov b (GovBand.default 0 0 false 0 14 0)

/-- RAD block. -/
def readRad (s : State) (o : Nat) : Word :=
  let r := s.rad
  if o = 0x00 then word (flagAt r.promisc 3 + flagAt r.ackEn 2 + flagAt r.budgetWait 1 + flagAt r.en 0)
  else if o = 0x04 then word (flagAt r.txAllow 0)
  else if o = 0x08 then word (flagAt r.lock 0)
  else if o = 0x10 then r.pan
  else if o = 0x14 then r.extLo
  else if o = 0x18 then r.extHi
  else if o = 0x1C then word r.rxCh.toNat
  else if o = 0x20 then r.access
  else if o = 0x24 then word (fieldAt r.ackDbm.toNat 6 16 + r.preamble.toNat)
  else if o = 0x28 then word r.gainDb.toNat
  else if 0x100 ≤ o ∧ o < 0x200 then
    let g := govAt s ((o - 0x100) / 0x20)
    match (o % 0x20) / 4 with
    | 0 => word g.flo.toNat
    | 1 => word g.fhi.toNat
    | 2 => word (flagAt g.en 31 + g.budget.toNat)
    | 3 => word (fieldAt g.maxDbm.toNat 8 16 + g.reserve.toNat)
    | 4 => word (govUsed g)
    | _ => 0
  else if o = 0x300 then word r.devIdx.toNat
  else if 0x304 ≤ o ∧ o < 0x314 then vget r.devData ((o - 0x304) / 4) 0
  else if 0x400 ≤ o ∧ o < 0x430 then vget r.cnt ((o - 0x400) / 4) 0
  else 0

/-- A counter's CFG, LO and HI registers by word. -/
def counterImage (k : Counter) (i : Nat) : Word :=
  match i with
  | 0 => word (flagAt k.enable 31 + fieldAt k.mode.toNat 2 29 + flagAt k.wrap 28 + flagAt k.bad 27
      + fieldAt k.scope.toNat 8 8 + k.source.toNat)
  | 1 => word k.value.toNat
  | 2 => word (k.value.toNat / 2 ^ 32)
  | _ => 0

/-- An event record's 32 bytes (Table 16.4), with its FLAGS byte's LOST and PHASE given. -/
def eventBytes (e : EvRec) (lost : Bool) (phase : Nat) : List Byte :=
  bytesLE 2 e.source ++ [e.scope, 0] ++ bytesLE 2 0 ++ [2]
    ++ bytesLE 1 (flagAt true 7 + flagAt e.tsValid 2 + flagAt lost 1 + fieldAt phase 1 0)
    ++ bytesLE 4 e.seq.toNat ++ bytesLE 4 e.info0.toNat ++ bytesLE 4 (instNsPart e.at_)
    ++ bytesLE 2 (instSec e.at_) ++ bytesLE 2 e.epoch.toNat ++ bytesLE 4 e.info1.toNat
    ++ bytesLE 4 e.merged.toNat

/-- The PHASE bit of record w on a ring (R45). -/
def phaseBit (log2 : Nat) (w : Word) : Nat := 1 - (w.toNat / 2 ^ log2) % 2

/-- EVT block. -/
def readEvt (s : State) (o : Nat) : Word :=
  let e := s.evt
  if o = 0x20 then word e.logSel.toNat
  else if 0x40 ≤ o ∧ o < 0x60 then
    match e.log[e.logSel.toNat]? with
    | none => 0
    | some r =>
      let ph := if r.formed then phaseBit (ringAt s 2).log2.toNat r.seq else 0
      word (leAt (eventBytes r false ph) (o - 0x40) 4)
  else if 0x100 ≤ o ∧ o < 0x280 then
    let i := (o - 0x100) / 4
    word (flagAt (vget e.record i false) 31 + (vget e.vec i 0).toNat)
  else if 0x400 ≤ o ∧ o < 0x600 then counterImage (vget e.pf ((o - 0x400) / 16) Counter.reset) (o % 16 / 4)
  else 0

/-- UPL_STATE. -/
def uplStateImage (s : State) : Word :=
  let u := s.upl
  word (fieldAt u.onuState.toNat 4 28 + fieldAt u.gate.code 2 26 + flagAt (decide (u.sync = .sync)) 11 + u.onuId.toNat)

/-- k × EqD in force, in line bits: a waiting one is taken up at the start of the next upstream frame (R118). -/
def eqdInForce (s : State) : Int :=
  match s.upl.eqdNext with
  | some (e, t) => if t ≤ (s.datum : Int) then e else s.upl.eqd
  | none => s.upl.eqd

/-- UPL block. -/
def readUpl (s : State) (o : Nat) : Word :=
  let u := s.upl
  if o = 0x00 then uplStateImage s
  else if o = 0x04 then word (flagAt u.lock 0)
  else if o = 0x10 then word (fieldAt u.maxBurst.toNat 16 16 + flagAt u.rogueEn 3 + flagAt u.dgOnBat 2 + u.usRate.toNat)
  else if o = 0x14 then word (fieldAt u.respTrim.toNat 10 22 + fieldAt u.burstTrail.toNat 6 8 + u.burstLead.toNat)
  else if o = 0x18 then word (flagAt u.txAllow 0)
  else if o = 0x1C then u.allocMask
  else if o = 0x20 then word (flagAt u.rogue 31 + flagAt u.emstop 30 + flagAt u.txDisable 29)
  else if o = 0x24 then word (twos (eqdInForce s) 32)
  else if o = 0x30 then u.snLo
  else if o = 0x34 then u.snHi
  else if o = 0x40 then u.bind0
  else if o = 0x44 then u.bind1
  else if o = 0x48 then word u.bind2.toNat
  else if o = 0x50 then word (flagAt u.modAbs 3 + flagAt u.rxLos 2 + flagAt u.txSd 1 + flagAt u.burstEn 0)
  else if 0x54 ≤ o ∧ o < 0x68 then
    let d := vget u.diag ((o - 0x54) / 4) (false, 0)
    word (flagAt d.1 31 + d.2.toNat)
  else if o = 0x80 then word (fieldAt u.portStatus.toNat 2 30 + u.portIdx.toNat)
  else if o = 0x84 then u.portData
  else if 0x100 ≤ o ∧ o < 0x180 then
    match vget u.allocs ((o - 0x100) / 4) none with
    | none => 0
    | some a => word (flagAt true 31 + a.toNat)
  else 0

/-- FW_STAT. -/
def fwStatImage (s : State) : Word :=
  let f := s.fw
  word (fieldAt f.runSlot 2 30 + fieldAt f.slotA.st.code 3 27 + fieldAt f.slotB.st.code 3 24 + flagAt f.restricted 23
    + flagAt f.unreadable 22 + flagAt f.rolledBack 21 + flagAt f.noImage 20 + fieldAt s.glb.inForce.toNat 2 18)

/-- FW block. -/
def readFw (s : State) (o : Nat) : Word :=
  let f := s.fw
  match o with
  | 0x00 => fwStatImage s
  | 0x04 => word f.confirmCfg.toNat
  | 0x08 => word f.left.toNat
  | 0x0C => f.setGen
  | 0x10 => word f.setInfo.toNat
  | 0x14 => f.rollbackFrom
  | 0x20 => word f.wdg.toNat
  | 0x2C => word (fieldAt f.wdgResets.toNat 8 8 + fieldAt f.cp1.code 4 4 + f.cp0.code)
  | _ => 0

/-- GLB_LOCK. -/
def glbLockImage (s : State) : Word :=
  word (flagAt s.rad.lock 4 + flagAt s.sup.lock 3 + flagAt s.sec.lock 2 + flagAt s.upl.lock 1 + flagAt s.hif.lock 0)

/-- GLB block. -/
def readGlb (s : State) (o : Nat) : Word :=
  let g := s.glb
  match o with
  | 0x00 => word (fieldAt s.part.number 16 16 + fieldAt 0xB0 8 8 + s.part.channels)
  | 0x04 => word 0x1F6B
  | 0x08 => word (flagAt g.loaded 31 + flagAt g.transferred 30 + fieldAt g.copy.toNat 2 28 + flagAt g.recBad 27)
  | 0x10 => word g.unitId.toNat
  | 0x14 => word (g.unitId.toNat / 2 ^ 32)
  | 0x18 => word g.sn.toNat
  | 0x1C => word (g.sn.toNat / 2 ^ 32)
  | 0x20 => word g.mac.toNat
  | 0x24 => word (g.mac.toNat / 2 ^ 32)
  | 0x28 => word g.origin.toNat
  | 0x2C => word (g.origin.toNat / 2 ^ 32)
  | 0x30 => word (fieldAt g.inForce.toNat 2 2 + g.next.toNat)
  | 0x40 => glbLockImage s
  | 0x54 => word (fieldAt g.last.toNat 4 28 + fieldAt g.count.toNat 8 8 + flagAt g.refused 0)
  | _ => 0

/-- CLK_STAT: a derived clock runs while its consumers' domain is powered and clocked (R329, R384, Table 14.11); the PCIe reference is present while PERST# is deasserted (log 6). -/
def readClk (s : State) (o : Nat) : Word :=
  if o = 0 then
    let deep := decide (s.pwr.state = .deep)
    word (flagAt s.time.pllLock 31 + (if deep then 0 else fieldAt s.time.src.code 2 29) + flagAt s.pwr.refEn 28
      + flagAt s.pwr.xtal 27 + flagAt (!s.hif.perst) 26
      + flagAt (s.pwr.domCore && coreClocked s) 0 + flagAt (s.time.pllLock && !deep) 1
      + flagAt s.pwr.domHif 2 + flagAt (s.pwr.domChla || s.pwr.domChlb) 3 + flagAt s.pwr.domRad 4)
  else 0

/-- LN_STAT. -/
def lnStatImage (l : Line) : Word :=
  word (fieldAt l.phase.toNat 4 28 + fieldAt l.lastFail.toNat 4 24 + fieldAt l.rxGain.toNat 8 16
    + flagAt l.econBlock 1 + flagAt l.econ 0)

/-- LN_TONE_DATA: the selected tone while the island is powered. -/
def toneDataImage (k : Chan) : Word :=
  if k.tab.island then
    let tab := if bitOf k.line.toneSel 31 then k.line.tonesUs else k.line.tonesDs
    match tab[bits k.line.toneSel 11 0]? with
    | none => 0
    | some t => word (fieldAt t.bits 4 28 + flagAt t.dead 27 + fieldAt t.snr 16 0)
  else 0

/-- LN_DEFECT; RDI is sent while LOS or LOF holds (R171). -/
def lnDefectImage (k : Chan) : Word :=
  word (flagAt (k.pm.unavailable true) 5 + flagAt (k.pm.unavailable false) 4 + flagAt (k.fr.los || k.fr.lof) 3 + flagAt k.fr.feRdi 2
    + flagAt k.fr.lof 1 + flagAt k.fr.los 0)

/-- PM_DATA: the selected word of the selected bin (Table 07.6). -/
def pmDataImage (p : Pm) : Word :=
  let i := bits p.sel 4 0
  let bin := if bitOf p.sel 12 then (if i ≤ 1 then p.bins24[i]? else none)
             else (if i ≤ 16 then p.bins15[i]? else none)
  match bin with
  | none => 0
  | some b =>
    match bits p.sel 11 8 with
    | 0 => word b.first
    | 1 => word (flagAt b.valid 0 + flagAt b.suspect 1)
    | w => word (vget b.words (w - 2) 0)

/-- MACSEC_STAT. -/
def macsecStatImage (k : Chan) : Word :=
  word (flagAt k.msec.exhausted 2 + flagAt k.msec.pnHigh 1 + flagAt k.msec.unusable 0)

/-- The slot a key handle names: bits 5:0 the slot, bits 15:8 its generation (11_cipher.md, Slots and handles). -/
def handleSlot (h : Half) : Nat := h.toNat % 64

/-- FEED_STAT. -/
def feedStatImage (f : Feed) : Word :=
  word (fieldAt f.state.code 4 28 + fieldAt f.load.code 2 26 + fieldAt f.tries 2 24 + fieldAt f.last.toNat 4 20
    + flagAt f.clamped 19 + fieldAt f.openRun 4 15)

/-- The feed registers of a channel. -/
def readFeed (f : Feed) (o : Nat) : Word :=
  match o with
  | 0x300 => word (flagAt f.cfg.enable 31 + flagAt f.cfg.pulsed 30 + flagAt f.cfg.stretch 29 + fieldAt f.cfg.ramp 4 20
      + fieldAt f.cfg.backoff 6 14 + fieldAt f.cfg.iOpen 5 9 + fieldAt f.cfg.iLim 9 0)
  | 0x304 => word (fieldAt f.reserve 16 16 + fieldAt f.cfg.pLim 8 0)
  | 0x308 => word f.cfg.period
  | 0x30C => word f.cfg.width
  | 0x310 => feedStatImage f
  | 0x314 => word (flagAt f.bmcOff 1)
  | 0x318 => word (flagAt f.holdOff 0)
  | 0x31C => word (fieldAt f.current.toNat 16 16 + f.feedin.toNat)
  | 0x320 => f.ontime
  | _ => 0

/-- OBEY bits of MAC_PAUSE. -/
def obeyBits (q : Queues) : Nat :=
  total ((List.range 8).map (fun p => flagAt (vget q.obey p none).isSome p))

/-! ### Gate lists (R209) -/

/-- The cycle of a bank, in ns. -/
def cycleNs (b : GclBank) : Nat := 8 * total ((b.entries.take b.len).map (fun e => e.1))

/-- The entry of a list that holds so far into a cycle, and how long its interval goes on. -/
def gclWalk : List (Nat × Half) → Nat → Nat → Nat × Nat
  | [], i, _ => (i, 0)
  | e :: t, i, off => if off < 8 * e.1 * nsUnit then (i, 8 * e.1 * nsUnit - off) else gclWalk t (i + 1) (off - 8 * e.1 * nsUnit)

/-- How far an instant is into its cycle: cycles start where (N − PHASE) mod CYCLE = 0. -/
def gclInto (b : GclBank) (t : Nat) : Nat := (t + secUnit - b.phase * nsUnit) % (cycleNs b * nsUnit)

/-- The active entry in force at an instant; 0 while no list is enabled. -/
def gclEntry (g : Gcl) (t : Nat) : Nat :=
  if g.active.enable then (gclWalk (g.active.entries.take g.active.len) 0 (gclInto g.active t)).1 else 0

/-- A channel block register (Table 17.13). -/
def readChan (s : State) (c o : Nat) : Word :=
  if !present s c then (if o = 0 then 7 else 0)
  else
    let k := chanAt s c
    if o = 0x00 then chStateImage s c
    else if o = 0x04 then k.tab.gen
    else if o = 0x08 then word k.tab.hold.toNat
    else if o = 0x100 then lnStatImage k.line
    else if o = 0x104 then k.line.rateDs
    else if o = 0x108 then k.line.rateUs
    else if o = 0x10C then word (fieldAt k.line.marginDs.toNat 16 16 + k.line.marginUs.toNat)
    else if o = 0x110 then k.line.tddUsed
    else if o = 0x114 then k.line.sat
    else if o = 0x118 then k.line.toneSel
    else if o = 0x11C then toneDataImage k
    else if o = 0x120 then word k.line.peer.toNat
    else if o = 0x124 then word (k.line.peer.toNat / 2 ^ 32)
    else if o = 0x140 then lnDefectImage k
    else if o = 0x144 then word k.pm.sesDtu.toNat
    else if o = 0x148 then k.pm.sel
    else if o = 0x14C then pmDataImage k.pm
    else if o = 0x150 then word (fieldAt k.fr.conflict.toNat 4 4 + k.fr.running.toNat)
    else if 0x160 ≤ o ∧ o < 0x180 then
      let i := (o - 0x160) / 8
      if o % 8 = 0 then word (fieldAt (vget k.fr.txSlip i 0).toNat 16 16 + (vget k.fr.rxSlip i 0).toNat)
      else vget k.fr.tribErr i 0
    else if o = 0x180 then word (fieldAt k.qs.gen.toNat 8 8 + obeyBits k.qs)
    else if o = 0x184 then k.mac.dsFrames
    else if o = 0x188 then k.mac.usFrames
    else if o = 0x18C then k.mac.fcsErr
    else if o = 0x190 then k.mac.runt
    else if o = 0x194 then k.mac.oversize
    else if o = 0x198 then k.mac.bufDisc
    else if o = 0x19C then k.mac.lineDisc
    else if o = 0x1A0 then k.mac.missDisc
    else if o = 0x1A4 then k.mac.noPort
    else if o = 0x1A8 then k.mac.noPath
    else if o = 0x1AC then k.mac.rxLost
    else if o = 0x1B0 then k.mac.bufUe
    else if 0x1C0 ≤ o ∧ o < 0x1E0 then
      let p := (o - 0x1C0) / 4
      word (fieldAt (vget k.mac.pfcRx p 0).toNat 16 16 + (vget k.mac.pfcTx p 0).toNat)
    else if o = 0x200 then word (flagAt k.gcl.shadow.mode 30 + flagAt k.gcl.shadow.enable 29 + fieldAt k.gcl.shadow.len 9 0)
    else if o = 0x204 then word k.gcl.shadow.phase
    else if o = 0x208 then word k.gcl.addr.toNat
    else if o = 0x20C then word ((k.gcl.shadow.entries[k.gcl.addr.toNat]?).getD (0, 0)).1
    else if o = 0x210 then word ((k.gcl.shadow.entries[k.gcl.addr.toNat]?).getD (0, 0)).2.toNat
    else if o = 0x214 then
      word (flagAt k.gcl.pending 31 + flagAt k.gcl.bad 30 + flagAt k.gcl.active.enable 29 + flagAt k.gcl.active.mode 28
        + fieldAt (gclEntry k.gcl s.datum) 8 16 + k.gcl.overrun.toNat)
    else if o = 0x220 then k.qs.histSel
    else if o = 0x224 then
      vget (vget k.qs.hist (16 * bits k.qs.histSel 8 8 + bits k.qs.histSel 7 4) (Vector.replicate 16 0)) (bits k.qs.histSel 3 0) 0
    else if 0x240 ≤ o ∧ o < 0x250 then rxtsImage k.rxts ((o - 0x240) / 4)
    else if o = 0x280 then macsecStatImage k
    else if o = 0x284 ∨ o = 0x288 then
      match k.tab.mac with
      | none => 0
      | some m =>
        let pn := (vget s.sec.slots (handleSlot m.txKey) Slot.empty).pn
        if o = 0x284 then word pn else word (pn / 2 ^ 32)
    else if o = 0x290 then k.msec.noTag
    else if o = 0x294 then k.msec.bad
    else if o = 0x298 then k.msec.noSa
    else if o = 0x29C then k.msec.late
    else if o = 0x2A0 then k.msec.ok
    else if o = 0x2A4 then k.msec.protected_
    else if 0x300 ≤ o ∧ o < 0x324 then readFeed k.feed o
    else if o = 0x360 then word (vget s.evt.chStat c 0).toNat
    else if 0x380 ≤ o ∧ o < 0x3C0 then
      counterImage (vget (vget s.evt.ch c (Vector.replicate 4 Counter.reset)) ((o - 0x380) / 16) Counter.reset) (o % 16 / 4)
    else 0

/-- The register at a PF-view offset (R373): an offset that holds no register reads 0 (R11). -/
def readReg (s : State) (off : Nat) : Word :=
  if 0x400000 ≤ off then
    let f := vget s.hif.funcs ((off - 0x400000) / 0x1000 + 1) (Func.reset 4)
    let o := off % 0x1000
    if o < 0x40 then msixImage f o else if o = 0x800 then word f.pba.toNat
    else if o = 0x804 then word (f.pba.toNat / 2 ^ 32) else 0
  else if off % 4 ≠ 0 then 0
  else if 0x100000 ≤ off ∧ off < 0x280000 then readChan s ((off - 0x100000) / 0x10000) (off % 0x10000)
  else
    let o := off % 0x10000
    match off / 0x10000 with
    | 0 => readGlb s o
    | 1 => readHif s o
    | 2 => readLedg s o
    | 3 => readPwr s o
    | 4 => readClk s o
    | 5 => readTime s o
    | 6 => readUpl s o
    | 7 => readXc s o
    | 8 => readSec s o
    | 9 => readRad s o
    | 10 => readSup s o
    | 11 => readEvt s o
    | 12 => readFw s o
    | 13 => readMgt s o
    | _ => 0

end Sys2Proof.Machine
end

