-- ==== Sys2Proof/Machine/Events.lean ====
section
/-! DEFINITION. Events: the 96 sources, their routing, the event store, the sticky log, the event counters and the interrupts they signal (16_management_events.md). Every occurrence goes through `raise`. -/

namespace Sys2Proof.Machine

open Sys2Proof

/-! ### Sources of Table 16.3 -/

namespace Src

def doorbellFault := 0
def dmaFault := 1
def windowFault := 2
def ringStalled := 3
def deviceReset := 4
def functionReset := 5
def ledgerFault := 6
def ledgerAdopted := 7
def sealInvalid := 8
def lockedWrite := 9
def fwWriteDenied := 10
def cpReset := 11
def fwRollback := 12
def fwNoImage := 13
def settingsUnreadable := 14
def settingsRolledBack := 15
def capsuleApplied := 16
def ptpResidence := 17
def uplState := 18
def lods := 19
def rogueLight := 20
def wakeLate := 21
def opticsChange := 22
def gateRefused := 23
def backstop := 24
def ploamMicFail := 25
def xgemDiscard := 26
def fecUncorr := 27
def datumStep := 28
def datumHoldLimit := 29
def datumState := 30
def todLate := 31
def rxtsDrop := 32
def bufBankRetired := 33
def bufCe := 34
def xcNoFlow := 35
def gcmCoreFail := 36
def trngFail := 37
def maskStale := 38
def keysLost := 39
def radBudgetRefused := 40
def radTxAttempt := 41
def radNoAck := 42
def radRxSecFail := 43
def radAckSuppressed := 44
def radCcaBusy := 45
def uplAllocOverflow := 46
def ptpUnpaired := 47
def channelReset := 48
def chtabFault := 49
def chState := 50
def trainFail := 51
def lol := 52
def los := 53
def lof := 54
def feRdi := 55
def unavail := 56
def econChange := 57
def tribConflict := 58
def macsecPnHigh := 59
def macsecKeyUnusable := 60
def feedTrip := 61
def feedLocked := 62
def feedInrushInterrupted := 63
def feedOpen := 64
def errDtu := 65
def uncorrDtu := 66
def rtxMiss := 67
def ohCrc := 68
def tribSlip := 69
def tribErr := 70
def bufDiscard := 71
def lineDiscard := 72
def pauseRx := 73
def pauseTx := 74
def gclOverrun := 75
def macsecRxBad := 76
def rxLostReset := 77
def dsFrames := 78
def usFrames := 79
def supplyDisturbance := 80
def sealStart := 81
def sealDone := 82
def railFail := 83
def feedBudgetOver := 84
def feedShed := 85
def powerState := 86
def supplyLogLost := 87
def mgtError := 88
def mgtArmedWrite := 89
def evtOverflow := 90
def counterWrap := 91
def soft0 := 92

end Src

/-- Level sources (class L). -/
def isLevelSource (s : Nat) : Bool :=
  s == 19 || s == 20 || (53 ≤ s && s ≤ 56) || s == 60 || s == 62

/-- Sources kept in the sticky log (class S). -/
def isStickySource (s : Nat) : Bool :=
  s == 4 || s == 5 || s == 6 || s == 8 || s == 11 || s == 13 || s == 14 || s == 20 || s == 28 || s == 33
    || s == 36 || s == 37 || s == 48 || s == 61 || s == 62 || s == 81 || s == 83 || s == 89

/-- The level of an L source for a channel scope or for the uplink (R371). -/
def levelHigh (s : State) (src scope : Nat) : Bool :=
  let k := chanAt s scope
  match src with
  | 19 => s.upl.lods
  | 20 => s.upl.rogue
  | 53 => k.fr.los
  | 54 => k.fr.lof
  | 55 => k.fr.feRdi
  | 56 => k.pm.unavailable false || k.pm.unavailable true
  | 60 => k.msec.unusable
  | 62 => decide (k.feed.state = .lockedOff)
  | _ => false

/-- INFO0: the image Table 16.3 names for a source, scope and INFO1. -/
def info0 (s : State) (src scope : Nat) (info1 : Word) : Word :=
  if src ≤ 3 then
    if ringOnPart s info1.toNat then ringStatImage (ringAt s info1.toNat) else 0
  else if src ≤ 9 then ledgStatImage s
  else if src ≤ 17 then fwStatImage s
  else if src ≤ 22 then uplStateImage s
  else if src ≤ 27 then 0
  else if src ≤ 31 then datumStatImage s
  else if src = 32 then 0
  else if src ≤ 35 then word (banksRetired s)
  else if src ≤ 39 then secStatImage s
  else if src = 40 then (if info1.toNat < 8 then word (govUsed (govAt s info1.toNat)) else 0)
  else if src ≤ 47 then 0
  else if 52 ≤ src ∧ src ≤ 56 then lnDefectImage (chanAt s scope)
  else if src ≤ 58 then chStateImage s scope
  else if src ≤ 60 then macsecStatImage (chanAt s scope)
  else if src ≤ 64 then feedStatImage (chanAt s scope).feed
  else if src ≤ 79 then 0
  else if src = 86 then pwrStatImage s
  else if src ≤ 87 then supStatImage s
  else if src ≤ 91 then mgtStatusImage s
  else 0

/-! ### Counters (R371, R372) -/

/-- A PF counter's SCOPE takes an occurrence of this scope. -/
def scopeTakes (cfg : Byte) (scope : Nat) : Bool :=
  cfg.toNat == scope || (cfg.toNat == 0xFD && decide (scope < 24))

/-- The value of a counter after an occurrence it takes, and whether it wrapped. -/
def bump (k : Counter) (src scope inc : Nat) : Counter × Bool :=
  match k.mode.toNat with
  | 0 =>
    let v := k.value.toNat + inc
    let w := decide (2 ^ 48 ≤ v)
    ({ k with value := BitVec.ofNat 48 v, wrap := k.wrap || w }, w)
  | 2 =>
    if isLevelSource src then ({ k with period := without k.period scope }, false)
    else ({ k with value := BitVec.ofNat 48 (min (max k.value.toNat inc) (2 ^ 48 - 1)) }, false)
  | _ => (k, false)

/-- PF counter k takes this occurrence. -/
def pfTakes (k : Counter) (src scope : Nat) : Bool :=
  k.enable && k.source.toNat == src && scopeTakes k.scope scope

/-- Channel counter k takes an occurrence of its own channel. -/
def chTakes (k : Counter) (src : Nat) : Bool := k.enable && k.source.toNat == src

/-- All counters after an occurrence. -/
def countAll (e : Evt) (src scope inc : Nat) : Evt :=
  { e with
    pf := vmapIdx (fun _ k => if pfTakes k src scope then (bump k src scope inc).1 else k) e.pf
    ch := if scope < 24 then
        vset e.ch scope (vmapIdx (fun _ k => if chTakes k src then (bump k src scope inc).1 else k)
          (vget e.ch scope (Vector.replicate 4 Counter.reset)))
      else e.ch }

/-- The counters that wrap at an occurrence, as scope and INFO1 of COUNTER_WRAP. -/
def wrapsOf (e : Evt) (src scope inc : Nat) : List (Nat × Nat) :=
  (List.range 32).filterMap (fun i =>
    let k := vget e.pf i Counter.reset
    if pfTakes k src scope && (bump k src scope inc).2 then some (0xFF, i) else none)
  ++ (if scope < 24 then
      (List.range 4).filterMap (fun j =>
        let k := vget (vget e.ch scope (Vector.replicate 4 Counter.reset)) j Counter.reset
        if chTakes k src && (bump k src scope inc).2 then some (scope, 32 + j) else none)
    else [])

/-! ### Interrupt moderation (R59) -/

/-- Whether a count of records since the last interrupt triggers one at once. -/
def modFires (g : Ring) (count : Nat) : Bool :=
  decide (max 1 g.modCount.toNat ≤ count) || g.modTime == 0

/-- One MSI-X message: sent, or left pending while the entry is masked or the function may not master the bus. -/
def sendMsix (s : State) (fv : Nat × Nat) : State :=
  let f := vget s.hif.funcs fv.1 (Func.reset 0)
  match f.table[fv.2]? with
  | none => s
  | some e =>
    if e.ctrl.getLsbD 0 || !f.bme then
      { s with hif := { s.hif with funcs := vset s.hif.funcs fv.1 { f with pba := f.pba ||| BitVec.ofNat 64 (2 ^ fv.2) } } }
    else { s with sent := .msix fv.1 fv.2 :: s.sent }

/-- Messages in order. -/
def sendAll (s : State) (l : List (Nat × Nat)) : State := l.foldl sendMsix s

/-- The event vector a channel's events signal: vector 3 of its VF, or PF vector 17 + 2n (R368). -/
def chVector (s : State) (c : Nat) : Nat × Nat :=
  if vfOn s c then (c + 1, 3) else (0, 17 + 2 * c)

/-- One more counting occurrence on PF vector 6 + v. -/
def countPfVec (s : State) (e : Evt) (v : Nat) : Evt × List (Nat × Nat) :=
  let n := vget e.vecCnt (v - 1) 0 + 1
  if modFires (ringAt s 2) n then ({ e with vecCnt := vset e.vecCnt (v - 1) 0 }, [(0, 6 + v)])
  else ({ e with vecCnt := vset e.vecCnt (v - 1) n }, [])

/-- One more counting occurrence on a channel's event vector. -/
def countChVec (s : State) (e : Evt) (c : Nat) : Evt × List (Nat × Nat) :=
  let n := vget e.chCnt c 0 + 1
  if modFires (ringAt s (chRing c 2)) n then ({ e with chCnt := vset e.chCnt c 0 }, [chVector s c])
  else ({ e with chCnt := vset e.chCnt c n }, [])

/-! ### Store and sticky log (R367, R370) -/

/-- An event record as formed now. -/
def newRecord (s : State) (e : Evt) (src scope : Nat) (info1 : Word) (formed : Bool) : EvRec where
  source := src
  scope := BitVec.ofNat 8 scope
  info0 := info0 s src scope info1
  info1 := info1
  merged := 0
  at_ := s.datum
  tsValid := s.time.valid
  seq := if formed then (ringAt s 2).cpl + word (e.store.length + 1) else 0xFFFFFFFF
  epoch := s.ledger.epoch
  formed := formed
  issued := false

/-- A record a further occurrence merges into: same source and scope, still to be written. -/
def mergeable (src scope : Nat) (r : EvRec) : Bool :=
  r.source == src && r.scope == BitVec.ofNat 8 scope && !r.issued

/-- MERGED rises by 1, saturating. -/
def EvRec.merge (r : EvRec) : EvRec := { r with merged := word (satAdd r.merged.toNat 1 32) }

/-- An entry put into the log of 64, newest first. -/
def logPush (e : Evt) (r : EvRec) : Evt := { e with log := (r :: e.log).take 64 }

/-- The log's entry for an occurrence that forms no record. -/
def logAlone (s : State) (e : Evt) (src scope : Nat) (info1 : Word) : Evt :=
  if isStickySource src then
    match e.log with
    | r :: t =>
      if r.source == src && r.scope == BitVec.ofNat 8 scope && !r.formed then { e with log := r.merge :: t }
      else logPush e (newRecord s e src scope info1 false)
    | [] => logPush e (newRecord s e src scope info1 false)
  else e

/-- Where an occurrence of a record source goes: the store, a record in it, or EVT_OVERFLOW (the Bool). -/
def storeOcc (s : State) (e : Evt) (src scope : Nat) (info1 : Word) : Evt × Bool :=
  if isRecordSource src && vget e.record src false && (ringAt s 2).enable then
    if e.store.any (mergeable src scope) then
      ({ e with
          store := mapIf (mergeable src scope) EvRec.merge e.store
          log := if isStickySource src then
              mapIf (fun r => mergeable src scope r && r.formed
                && e.store.any (fun q => mergeable src scope q && q.seq == r.seq)) EvRec.merge e.log
            else e.log }, false)
    else if e.store.length < 256 then
      let r := newRecord s e src scope info1 true
      let e1 := { e with store := e.store ++ [r] }
      (if isStickySource src then logPush e1 r else e1, false)
    else (logAlone s { e with lost := true, overflow := e.overflow + 1 } src scope info1, true)
  else (logAlone s e src scope info1, false)

/-- Routing that is not the event ring: pending bits, PF vector, channel owner (R368). -/
def routeOcc (s : State) (e : Evt) (src scope : Nat) : Evt × List (Nat × Nat) :=
  let e1 := { e with intPend := vset e.intPend (src / 32) (vget e.intPend (src / 32) 0 ||| word (2 ^ (src % 32))) }
  let v := (vget e.vec src 0).toNat
  let (e2, m2) := if 1 ≤ v ∧ v ≤ 9 then countPfVec s e1 v else (e1, [])
  if 48 ≤ src ∧ src ≤ 64 ∧ scope < 24 then
    let e3 := { e2 with chStat := vset e2.chStat scope (vget e2.chStat scope 0 ||| BitVec.ofNat 17 (2 ^ (src - 48))) }
    let (e4, m4) := countChVec s e3 scope
    (e4, m2 ++ m4)
  else (e2, m2)

/-- One occurrence, with a bound on the chain of COUNTER_WRAP occurrences it can start. -/
def raiseFuel : Nat → State → Nat → Nat → Word → Nat → State
  | 0, s, _, _, _, _ => s
  | n + 1, s, src, scope, info1, inc =>
    let wraps := wrapsOf s.evt src scope inc
    let (e1, full) := storeOcc s (countAll s.evt src scope inc) src scope info1
    let (e2, msgs) := routeOcc s e1 src scope
    let s1 := sendAll { s with evt := e2 } msgs
    let s2 := if full then raiseFuel n s1 Src.evtOverflow 0xFF 1 1 else s1
    wraps.foldl (fun t w => raiseFuel n t Src.counterWrap w.1 (word w.2) 1) s2

/-- The bound on that chain: each link beyond an EVT_OVERFLOW is the wrap of another of the 128 counters, and a counter wraps once in 2^48 occurrences. -/
def raiseChain : Nat := 512

/-- An occurrence of a source with a scope and INFO1. -/
def raise (s : State) (src scope : Nat) (info1 : Word) : State := raiseFuel raiseChain s src scope info1 1

/-- An occurrence of a C source with its increment. -/
def raiseC (s : State) (src scope inc : Nat) : State :=
  if inc = 0 then s else raiseFuel raiseChain s src scope (word inc) inc

end Sys2Proof.Machine
end

