-- ==== Sys2Proof/Machine/Ops.lean ====
section
/-! DEFINITION. The named operations the meanings share: rings, windows, accepted work, outcomes and records, the ledger's writes, recovery (02_host_port.md, 03_accepted_work.md). -/

namespace Sys2Proof.Machine

open Sys2Proof

/-! ### Updates of one part -/

/-- Ring r changed by f. -/
def setRing (s : State) (r : Nat) (f : Ring → Ring) : State :=
  { s with rings := vset s.rings r (f (ringAt s r)) }

/-- Channel c changed by f. -/
def setChan (s : State) (c : Nat) (f : Chan → Chan) : State :=
  { s with chans := vset s.chans c (f (chanAt s c)) }

def setTab (s : State) (c : Nat) (f : ChTab → ChTab) : State := setChan s c (fun k => { k with tab := f k.tab })
def setLine (s : State) (c : Nat) (f : Line → Line) : State := setChan s c (fun k => { k with line := f k.line })
def setFr (s : State) (c : Nat) (f : Framer → Framer) : State := setChan s c (fun k => { k with fr := f k.fr })
def setQs (s : State) (c : Nat) (f : Queues → Queues) : State := setChan s c (fun k => { k with qs := f k.qs })
def setMac (s : State) (c : Nat) (f : MacCnt → MacCnt) : State := setChan s c (fun k => { k with mac := f k.mac })
def setPm (s : State) (c : Nat) (f : PmSec → PmSec) : State :=
  setChan s c (fun k => { k with pm := { k.pm with cur := f k.pm.cur } })

/-- Channel c is in SERVICE or ECONOMY. -/
def serving (s : State) (c : Nat) : Bool :=
  decide ((chanAt s c).tab.state = .service) || decide ((chanAt s c).tab.state = .economy)

/-- Every ring changed by f, with its number. -/
def mapRings (s : State) (f : Nat → Ring → Ring) : State := { s with rings := vmapIdx f s.rings }

/-- Something sent out at an edge. -/
def emitOut (s : State) (o : Out) : State := { s with sent := o :: s.sent }

/-! ### Requests (R37) -/

/-- A transfer cut into requests of at most m bytes, none of which crosses a 4 KiB boundary: their addresses and lengths, lowest first. The first argument bounds their number. -/
def pieces : Nat → Nat → Nat → Nat → List (Nat × Nat)
  | 0, _, _, _ => []
  | n + 1, m, a, l =>
    if l = 0 then [] else
      let k := min l (min m (4096 - a % 4096))
      (a, k) :: pieces n m (a + k) (l - k)

/-- Max Payload Size in bytes (Table 02.1). -/
def maxPayload (s : State) : Nat := if s.hif.mps256 then 256 else 128

/-- Max Read Request Size in bytes (Table 02.1). -/
def maxRead (s : State) : Nat := 128 * 2 ^ s.hif.mrrs.val

/-- The write requests of a transfer on behalf of function f, newest first. -/
def writeRequests (s : State) (f addr : Nat) (b : List Byte) : List Out :=
  ((pieces b.length (maxPayload s) addr b.length).map (fun p => Out.memWrite f p.1 ((b.drop (p.1 - addr)).take p.2))).reverse

/-- The read requests of a transfer on behalf of function f, newest first. -/
def readRequests (s : State) (f addr len : Nat) : List Out :=
  ((pieces len (maxRead s) addr len).map (fun p => Out.memRead f p.1 p.2)).reverse

/-- A transfer's writes go out (R37, R58). -/
def sendWrite (s : State) (f addr : Nat) (b : List Byte) : State := { s with sent := writeRequests s f addr b ++ s.sent }

/-- A transfer's reads go out (R37). -/
def sendRead (s : State) (f addr len : Nat) : State := { s with sent := readRequests s f addr len ++ s.sent }

/-- One free value drawn: the state that counts it. -/
def drew (s : State) : State := { s with free := s.free + 1 }

/-- A control processor runs firmware; it carries both sets of duties while the other does not (R330). -/
def cpServes (s : State) : Bool := s.pwr.domCore && (decide (s.fw.cp0 = .running) || decide (s.fw.cp1 = .running))

/-- P1 is in force (R352). -/
def isP1 (s : State) : Bool := s.glb.inForce == 1

/-! ### The power state -/

/-- A control processor halted in IDLE or SLEEP runs again. -/
def CpSt.unhalt : CpSt → CpSt
  | .halted => .running
  | x => x

/-- PWR_STAT.STATE changes; POWER_STATE is raised at each change (log 11). The control processors halt in IDLE and SLEEP only (Table 14.3). -/
def setPwr (s : State) (st : PwrSt) : State :=
  if s.pwr.state = st then s
  else
    let halts := decide (st = .idle) || decide (st = .sleep)
    let w := if halts then s.fw else { s.fw with cp0 := s.fw.cp0.unhalt, cp1 := s.fw.cp1.unhalt }
    raise { s with pwr := { s.pwr with state := st }, fw := w } Src.powerState 0xFF 0

/-- SLEEP is left for RUN (Table 14.4). -/
def leaveSleep (s : State) : State := if s.pwr.state = .sleep then setPwr s .run else s

/-- The uplink leaves any low-power mode (R129); leaving watchful sleep ends SLEEP (Table 14.4). -/
def ponWake (s : State) : State :=
  let s1 := if s.upl.ponMode = .watchful then leaveSleep s else s
  { s1 with upl := { s1.upl with ponMode := .awake, rxOn := true } }

/-! ### Requesters (R375) -/

/-- FW_WRITE_DENIED with the byte offset written (R375). -/
def fwDenied (s : State) (off : Nat) : State := raise s Src.fwWriteDenied 0xFF (word off)

/-- The requester is the PF or firmware, which reach the blocks outside the channel blocks (R375). -/
def reachesAll : Requester → Bool
  | .vf _ => false
  | _ => true

def isPf : Requester → Bool
  | .pf => true
  | _ => false

def isFw : Requester → Bool
  | .fw _ => true
  | _ => false

/-- The requester reaches channel c's block (R375). -/
def reachesChan (who : Requester) (c : Nat) : Bool :=
  match who with
  | .vf v => v.val == c
  | _ => true

/-! ### Host access windows (R54, R56) -/

/-- A page lies in an enabled window of function f that permits the direction. -/
def pageOpen (s : State) (f : Nat) (write : Bool) (page : Nat) : Bool :=
  (vget s.hif.windows f (Vector.replicate 8 Window.reset)).toList.any (fun w =>
    w.enable && (if write then w.write else w.read) && decide (w.base.toNat ≤ page) && decide (page ≤ w.limit.toNat))

/-- Every byte of a transfer lies in enabled windows of its function that permit its direction. -/
def inWindows (s : State) (f : Nat) (write : Bool) (addr len : Nat) : Bool :=
  decide (addr + len ≤ 2 ^ 64) &&
  (List.range ((addr + len - 1) / 4096 + 1 - addr / 4096)).all (fun i => pageOpen s f write (addr / 4096 + i))

/-- HIF_FAULT_INFO and HIF_FAULT_ADDR latch the first fault (R56). -/
def latchFault (s : State) (kind ring fn addr : Nat) : State :=
  if s.hif.faultValid then s
  else
    { s with hif := { s.hif with
        faultValid := true
        faultKind := BitVec.ofNat 3 kind
        faultRing := BitVec.ofNat 8 ring
        faultFn := BitVec.ofNat 5 fn
        faultAddr := BitVec.ofNat 64 addr } }

/-- KIND of HIF_FAULT_INFO for a failed completion; 0 is a window fault. -/
def xferKind : XferResult → Nat
  | .ok => 0 | .ur => 1 | .ca => 2 | .poisoned => 3 | .timeout => 4

/-- A window fault of a ring's transfer: WIN_ERR, the latch and WINDOW_FAULT. -/
def ringWindowFault (s : State) (r addr : Nat) : State :=
  let s1 := latchFault (setRing s r (fun g => { g with winErr := true })) 0 r (ringOwner s r) addr
  raise s1 Src.windowFault 0xFF (word r)

/-- The function's requests may go out: link up and Bus Master Enable set (Table 02.10). -/
def mayMaster (s : State) (f : Nat) : Bool :=
  s.hif.linkUp && (vget s.hif.funcs f (Func.reset 0)).bme && s.pwr.domHif

/-! ### Accepted work -/

/-- The accepted descriptor s of a ring. -/
def findWork (g : Ring) (seq : Word) : Option Work := g.work.find? (fun w => w.seq == seq)

/-- The accepted descriptor s of ring r changed by f. -/
def setWork (s : State) (r : Nat) (seq : Word) (f : Work → Work) : State :=
  setRing s r (fun g => { g with work := mapIf (fun w => w.seq == seq) f g.work })

/-- The journal entry of a piece of work. -/
def journalOf (s : State) (r : Nat) (seq : Word) : Option JEntry :=
  s.journal.find? (fun j => j.ring.val == r && j.seq == seq)

/-- An outcome with a status and results only. -/
def Outcome.of (st : Status) (res0 res1 : Word) : Outcome :=
  { status := st, len := 0, res0 := res0, res1 := res1, ts := none }

/-- The work is returned with an outcome, unless its outcome stands already (R64). -/
def returnWith (s : State) (r : Nat) (seq : Word) (o : Outcome) : State :=
  if (journalOf s r seq).isSome then s
  else setWork s r seq (fun w => match w.ret with | none => { w with ret := some o } | some _ => w)

/-- The work is returned with a status. -/
def returnWork (s : State) (r : Nat) (seq : Word) (st : Status) : State :=
  returnWith s r seq (Outcome.of st 0 0)

/-- Work past its LIFETIME: RET_EXPIRED, in P1 RET_NO_PATH with RESULT1 bit 30 (R70, Table 15.8). -/
def returnExpired (s : State) (r : Nat) (seq : Word) : State :=
  if isP1 s then returnWith s r seq (Outcome.of .retNoPath 0 (word (2 ^ 30)))
  else returnWork s r seq .retExpired

/-- Journal entries kept for work whose last byte lies in a burst that has not ended. -/
def reservedEntries (s : State) : Nat :=
  total (s.upl.bursts.map (fun b => b.lastOf.length)) + (match s.upl.window with | some b => b.lastOf.length | none => 0)

/-- The journal has a free entry (R67). -/
def journalSpace (s : State) : Bool := decide (s.journal.length + reservedEntries s < 256)

/-- A seal has stopped emission and records (R78 step 1, R312 step 5); the seal itself writes the records of its step 3. -/
def frozen (s : State) : Bool := s.sup.sealing || s.sup.journalSealed || s.pwr.entrySeal

/-- Work may pass its emission point: a journal entry is free, and no seal has stopped emission (R67, R78 step 1). -/
def journalRoom (s : State) : Bool := journalSpace s && !frozen s

/-- Work passes its emission point: its outcome enters the journal and the emission counter rises (R67). The caller has seen `journalRoom`, or the transmission is on its medium already. -/
def emitWork (s : State) (r : RingNo) (seq : Word) (o : Outcome) : State :=
  if journalSpace s then
    let s1 := setWork s r.val seq (fun w => { w with stage := .sent })
    let s2 := setRing s1 r.val (fun g => { g with emitted := g.emitted + 1 })
    { s2 with journal := s2.journal ++ [{ ring := r, seq := seq, out := o }] }
  else s

/-- Work passes its emission point and its transmission goes on: as `emitWork`, with the record held until `endEmission`. -/
def beginEmission (s : State) (r : RingNo) (seq : Word) (o : Outcome) : State :=
  if journalSpace s then setWork (emitWork s r seq o) r.val seq (fun w => { w with stage := .emitted }) else s

/-- The journal's outcome of a piece of work changed by f. -/
def setOutcome (s : State) (r : Nat) (seq : Word) (f : Outcome → Outcome) : State :=
  { s with journal := mapIf (fun j => j.ring.val == r && j.seq == seq) (fun j => { j with out := f j.out }) s.journal }

/-- The transmission of emitted work ends with its final outcome. -/
def endEmission (s : State) (r : Nat) (seq : Word) (f : Outcome → Outcome) : State :=
  setWork (setOutcome s r seq f) r seq (fun w => if w.stage = .emitted then { w with stage := .sent } else w)

/-- TRUNCATED (R69). -/
def Outcome.cut (o : Outcome) : Outcome := { o with res1 := o.res1 ||| word (2 ^ 31) }

/-- Every transmission of ring r under way past its emission point is cut: executed, TRUNCATED (R69). -/
def cutEmissions (s : State) (r : Nat) : State :=
  ((ringAt s r).work.filter (fun w => decide (w.stage = .emitted))).foldl
    (fun t w => endEmission t r w.seq Outcome.cut) s

/-- Accepted work that has neither outcome nor return yet. -/
def workOpen (s : State) (r : Nat) (seq : Word) : Option Work :=
  match findWork (ringAt s r) seq with
  | none => none
  | some w => if w.ret.isSome || (journalOf s r seq).isSome then none else some w

/-- LIFETIME has run out for a piece of work at the present instant (R70). -/
def lifeOver (s : State) (r : Nat) (w : Work) : Bool :=
  let g := ringAt s r
  g.lifetime != 0 && decide (w.at_ + g.lifetime.toNat * msUnit ≤ s.datum)

/-! ### Records (Table 02.6) -/

/-- The 32 bytes of an outcome record. -/
def recordBytes (s : State) (r : Nat) (seq cookie : Word) (o : Outcome) (recov : Bool) (phase : Nat) : List Byte :=
  let t := match o.ts with | some x => x | none => (s.datum, s.time.valid)
  bytesLE 4 cookie.toNat ++ bytesLE 2 o.status.code ++ bytesLE 1 r
    ++ bytesLE 1 (flagAt true 7 + flagAt t.2 2 + flagAt recov 1 + fieldAt phase 1 0)
    ++ bytesLE 4 seq.toNat ++ bytesLE 4 o.len.toNat ++ bytesLE 4 (instNsPart t.1) ++ bytesLE 2 (instSec t.1)
    ++ bytesLE 2 s.ledger.epoch.toNat ++ bytesLE 4 o.res0.toNat ++ bytesLE 4 o.res1.toNat

/-- The host address of slot w of a ring. -/
def slotAddr (g : Ring) (w : Word) : Nat := g.base.toNat * 4096 + 32 * (w.toNat % g.size)

/-- Slot w of a completion or event ring has been released (R41). -/
def slotFree (g : Ring) (w : Word) : Bool := decide ((w - g.head).toNat < g.size)

/-- The ring enters STALLED_RECORD; RING_STALLED once at the entry (R42). -/
def stall (s : State) (q : Nat) : State :=
  if (ringAt s q).state = .stalledRecord ∨ (ringAt s q).state = .recovering then s
  else raise (setRing s q (fun g => { g with state := .stalledRecord })) Src.ringStalled 0xFF (word q)

/-- The ring has left STALLED_RECORD with the held record written. -/
def unstall (g : Ring) : Ring :=
  if g.state = .stalledRecord then { g with state := if g.halted then .halted else .active, winHeld := false }
  else { g with winHeld := false }

/-- One more record on a ring; those with IRQ count toward its interrupt (R59). An RXH ring on PF vector 17 + 2n shares its count with the channel's events (R368). -/
def countRecord (s : State) (q : Nat) (irq : Bool) : State :=
  if !irq then s
  else
    let g := ringAt s q
    match ringChan q with
    | some c =>
      if (q - 16) % 6 = 2 ∧ ringOwner s q = 0 ∧ g.vector.toNat = 17 + 2 * c then
        let (e, m) := countChVec s s.evt c
        sendAll { s with evt := e } m
      else
        let n := g.modCnt + 1
        if modFires g n then sendMsix (setRing s q (fun g => { g with modCnt := 0 })) (ringOwner s q, g.vector.toNat)
        else setRing s q (fun g => { g with modCnt := n })
    | none =>
      let n := g.modCnt + 1
      if modFires g n then sendMsix (setRing s q (fun g => { g with modCnt := 0 })) (ringOwner s q, g.vector.toNat)
      else setRing s q (fun g => { g with modCnt := n })

/-- The record goes out: written to its slot on behalf of the ring's owner, and counted. -/
def issueRecord (s : State) (q : Nat) (addr : Nat) (x : Issued) : State :=
  let s1 := setRing s q (fun g => { unstall g with unacked := g.unacked ++ [x] })
  countRecord (sendWrite s1 (ringOwner s q) addr x.bytes) q x.irq

/-- The next record number of a completion or event ring: after W, those issued, those to be written again and those acknowledged early. -/
def nextRecord (g : Ring) : Word := g.cpl + word (g.unacked.length + g.lost.length + g.early.length + 1)

/-- Bytes of a list from an offset replaced. -/
def patch (b : List Byte) (off : Nat) (new : List Byte) : List Byte := b.take off ++ new ++ b.drop (off + new.length)

/-- The bytes of a record written again: FLAGS.RECOVERED is 1, which an event record does not have, and EPOCH is the new epoch (R68). -/
def rewriteBytes (s : State) (x : Issued) : List Byte :=
  match x.src with
  | .event => patch x.bytes 22 (bytesLE 2 s.ledger.epoch.toNat)
  | _ => patch (patch x.bytes 7 [BitVec.ofNat 8 (leAt x.bytes 7 1) ||| 2]) 22 (bytesLE 2 s.ledger.epoch.toNat)

/-- Slot n of a completion or event ring is acknowledged: W passes it once every older one is (R68). The first argument bounds the slots acknowledged ahead of it. -/
def passEarly : Nat → Ring → Ring
  | 0, g => g
  | n + 1, g =>
    if g.early.contains (g.cpl + 1) then passEarly n { g with cpl := g.cpl + 1, early := g.early.filter (fun x => x != g.cpl + 1) }
    else g

def ackSlot (g : Ring) (n : Word) : Ring :=
  if n = g.cpl + 1 then passEarly g.early.length { g with cpl := n, bmDue := true } else { g with early := g.early ++ [n] }

/-- The outcome standing for the next descriptor of a ring, in sequence order. -/
def nextOutcome (s : State) (r : Nat) : Option (Work × Outcome) :=
  match (ringAt s r).work.find? (fun w => !w.issued) with
  | none => none
  | some w =>
    match journalOf s r w.seq with
    | some j => if w.stage = .emitted then none else some (w, j.out)
    | none =>
      match w.ret with
      | some o => some (w, o)
      | none => none

/-! ### Ledger (Tables 03.2 to 03.4) -/

/-- Ledger copies are at these offsets. -/
def benchOff (copyB : Bool) (r : Nat) : Nat := (if copyB then 0x2A00 else 0x0100) + 64 * r
def hdrOff (copyB : Bool) : Nat := if copyB then 0x2900 else 0

/-- Address of a ledger offset. -/
def ledgAddr (s : State) (off : Nat) : Nat := s.ledger.base.toNat * 4096 + off

/-- A byte list with its CRC-32C after it. -/
def closed (b : List Byte) : List Byte := b ++ bytesLE 4 (crc32c b)

/-- The benchmark record of ring r as it now stands (Table 03.4). -/
def benchBytes (s : State) (r : Nat) : List Byte :=
  let g := ringAt s r
  let hw := hostWritten r
  closed (bytesLE 2 r ++ bytesLE 1 (ringKind r) ++ bytesLE 1 g.log2.toNat ++ bytesLE 4 g.gen.toNat
    ++ bytesLE 8 (g.base.toNat * 4096) ++ bytesLE 4 (if hw then g.tail else g.head).toNat
    ++ bytesLE 4 (if hw then g.acc else g.cpl).toNat ++ bytesLE 4 g.cpl.toNat ++ bytesLE 4 g.emitted.toNat
    ++ bytesLE 4 s.ledger.epoch.toNat ++ bytesLE 4 (ringCfgImage g r).toNat ++ bytesLE 4 (ringModImage g).toNat
    ++ bytesLE 1 (flagAt g.enable 0) ++ [0] ++ bytesLE 2 g.lifetime.toNat ++ zeros 12)

/-- The ledger header as it now stands (Table 03.3). -/
def hdrBytes (s : State) : List Byte :=
  let l := s.ledger
  closed (bytesLE 4 0x4744454C ++ bytesLE 2 1 ++ bytesLE 2 s.part.number ++ bytesLE 8 s.glb.unitId.toNat
    ++ bytesLE 4 l.hdrGen.toNat ++ bytesLE 4 l.epoch.toNat ++ bytesLE 1 l.sealState.code ++ [0]
    ++ bytesLE 2 l.spillCount.toNat ++ bytesLE 4 l.spillCheck.toNat ++ bytesLE 4 l.sealCount.toNat ++ zeros 216)

/-- LEDGER_FAULT of a failed write or adoption read (R76). -/
def ledgerFault (s : State) (x : LXfer) (isRead : Bool) : State :=
  let s1 := { s with
    ledger := { s.ledger with
      failed := if s.ledger.failed.contains x then s.ledger.failed else s.ledger.failed ++ [x]
      writeErr := s.ledger.writeErr || !isRead }
    sup := { s.sup with hostLost := s.sup.hostLost || s.sup.sealing } }
  raise s1 Src.ledgerFault 0xFF 0xFFFFFFFF

/-- A ledger transfer that comes due while the PF may issue no request waits; at a seal the host part is then incomplete (Table 02.10, R292, log 13). -/
def ledgerWait (s : State) (x : LXfer) : State :=
  if s.sup.sealing then { s with sup := { s.sup with hostLost := true } }
  else if s.ledger.waiting.contains x then s
  else { s with ledger := { s.ledger with waiting := s.ledger.waiting ++ [x] } }

/-- A ledger write checked against the PF's windows and issued, or held (R56, R76). -/
def ledgerWrite (s : State) (x : LXfer) (off : Nat) (bytes : List Byte) : State :=
  let a := ledgAddr s off
  if !mayMaster s 0 then ledgerWait s x
  else if s.sup.sealing && s.sup.hostLost then s
  else if inWindows s 0 true a bytes.length then
    { sendWrite s 0 a bytes with ledger := { s.ledger with inFlight := s.ledger.inFlight ++ [x] } }
  else
    let s1 := raise (latchFault s 0 0xFE 0 a) Src.windowFault 0xFF 0xFFFFFFFE
    ledgerFault s1 x false

/-- The ledger is in use or coming into use: its writes are made. One that is being adopted is read first (R82). -/
def ledgerLive (s : State) : Bool := (s.ledger.active || s.ledger.enable) && !s.ledger.adopting

/-- A benchmark record of ring r is due (R73). -/
def benchDue (s : State) (r : Nat) : State := setRing s r (fun g => { g with bmDue := true })

/-- The benchmark record of ring r is written: GEN rises with the write and chooses the copy (R73). With no ledger in use nothing is written and GEN stays. -/
def writeBench (s : State) (r : RingNo) : State :=
  if !(ledgerLive s && ringOnPart s r.val) then setRing s r.val (fun g => { g with bmDue := false, bmGate := false })
  else if !mayMaster s 0 then ledgerWait (benchDue s r.val) (.bench r)
  else
    let s1 := setRing s r.val (fun g => { g with gen := g.gen + 1, bmDue := false, bmGate := false })
    ledgerWrite s1 (.bench r) (benchOff ((ringAt s1 r.val).gen.toNat % 2 == 1) r.val) (benchBytes s1 r.val)

/-- Benchmark records of a list of rings. -/
def writeBenches (s : State) (l : List RingNo) : State := l.foldl writeBench s

/-- One header copy, with a header generation of its own (Table 03.3). -/
def writeHdr (s : State) (copyB : Bool) : State :=
  let x := if copyB then LXfer.hdrB else LXfer.hdrA
  if !mayMaster s 0 then ledgerWait s x
  else
    let s1 := { s with ledger := { s.ledger with hdrGen := s.ledger.hdrGen + 1 } }
    ledgerWrite s1 x (hdrOff copyB) (hdrBytes s1)

/-- Both header copies. -/
def writeHeaders (s : State) : State := if ledgerLive s then writeHdr (writeHdr s false) true else s

/-! ### Recovery (R79, R80) -/

/-- Every ring number. -/
def allRings : List RingNo := List.finRange 160

/-- The rings on this part. -/
def partRings (s : State) : List RingNo := allRings.filter (fun r => ringOnPart s r.val)

/-- The six rings of a channel. -/
def chanRings (c : Nat) : List RingNo := allRings.filter (fun r => ringChan r.val == some c)

/-- A recovery starts over a scope: fetching stops and the rings are RECOVERING. Fetches in flight accept nothing. -/
def startRecovery (s : State) (scope : List RingNo) (cause chan : Nat) (lossy : Bool) (cmds : List (RingNo × Word))
    (refresh : List Nat) : State :=
  let s1 := mapRings s (fun r g =>
    if scope.any (fun x => x.val == r) && g.enable then { g with state := .recovering, fetch := none, refetch := none } else g)
  { s1 with recov := s1.recov ++ [{ scope := scope, cause := BitVec.ofNat 8 cause, chan := BitVec.ofNat 8 chan,
                                     lossy := lossy, settled := false, cmds := cmds, refresh := refresh }] }

/-- A record put among others in the order of their slots after C or W. -/
def insertIssued (base : Word) (x : Issued) : List Issued → List Issued
  | [] => [x]
  | y :: t => if (x.slot - base).toNat ≤ (y.slot - base).toNat then x :: y :: t else y :: insertIssued base x t

/-- Records issued and not acknowledged on the record rings of a scope are to be written again into the same slots (R68). -/
def unissue (s : State) (scope : List RingNo) : State :=
  let inScope (r : Nat) : Bool := scope.any (fun x => x.val == r)
  let s1 := mapRings s (fun r g =>
    { g with
      unacked := if inScope r then [] else g.unacked
      lost := if inScope r then g.unacked.foldr (insertIssued (g.cpl + 1)) g.lost else g.lost
      work := if inScope (recordRing r) then g.work.map (fun w => { w with issued := false }) else g.work })
  if inScope 2 then
    { s1 with evt := { s1.evt with store := s1.evt.store.map (fun e => { e with issued := false }) } }
  else s1

end Sys2Proof.Machine
end

