-- ==== Sys2Proof/Machine/Records.lean ====
section
/-! DEFINITION. Writing records, the seal's part in the ledger, entering a power state and resuming service (02_host_port.md; R78, R312, R313). -/

namespace Sys2Proof.Machine

open Sys2Proof

/-! ### Writing the next record -/

/-- A record cannot go out: no released slot, or no window permits it (R42, R56). The window fault is reported once for each record it holds. -/
def holdRecord (s : State) (q : Nat) (addr : Nat) (windowCause : Bool) : State :=
  if windowCause && !(ringAt s q).winHeld then
    stall (setRing (ringWindowFault s q addr) q (fun g => { g with winHeld := true })) q
  else stall s q

/-- The first unwritten event record is marked written. -/
def markEvent : List EvRec → List EvRec
  | [] => []
  | e :: t => if e.issued then e :: markEvent t else { e with issued := true } :: t

/-- What a record completes is marked issued. -/
def markIssued (s : State) (x : RecSrc) : State :=
  match x with
  | .work r n => setWork s r.val n (fun w => { w with issued := true })
  | .event => { s with evt := { s.evt with store := markEvent s.evt.store } }
  | .recoveryDone => s

/-- A record goes out to its slot on ring q, or is held there by the windows. -/
def putRecord (s : State) (q : Nat) (x : Issued) : State :=
  let addr := slotAddr (ringAt s q) x.slot
  if inWindows s (ringOwner s q) true addr 32 then issueRecord (markIssued s x.src) q addr x else holdRecord s q addr true

/-- The oldest record of ring q that was never acknowledged goes out again into its own slot (R68). -/
def rewriteLost (s : State) (q : Nat) : State :=
  match (ringAt s q).lost with
  | [] => s
  | x :: rest =>
    let addr := slotAddr (ringAt s q) x.slot
    if inWindows s (ringOwner s q) true addr 32 then
      issueRecord (markIssued (setRing s q (fun g => { g with lost := rest })) x.src) q addr { x with bytes := rewriteBytes s x }
    else holdRecord s q addr true

/-- Ring r's next outcome is written, or held in STALLED_RECORD (R42, R44, R58). Records to be written again on its record ring go first, each at its own ring's turn (R68). -/
def tryRecord (s : State) (r : Nat) : State :=
  match nextOutcome s r with
  | none => s
  | some (w, o) =>
    let q := recordRing r
    let g := ringAt s q
    let me := RecSrc.work (Fin.ofNat 160 r) w.seq
    if (ringAt s r).state = .recovering ∨ g.state = .recovering ∨ !mayMaster s (ringOwner s q) then s
    else
      match g.lost with
      | x :: _ => if x.src = me then rewriteLost s q else s
      | [] =>
        if q = r then
          putRecord s r { src := me, slot := w.seq, bytes := recordBytes s r w.seq w.d.cookie o w.recov 0, irq := w.d.flags.getLsbD 0 }
        else if !g.enable then s
        else
          let n := nextRecord g
          if !slotFree g n then holdRecord s q (slotAddr g n) false
          else
            putRecord s q { src := me, slot := n, bytes := recordBytes s r w.seq w.d.cookie o w.recov (phaseBit g.log2.toNat n)
                            irq := w.d.flags.getLsbD 0 }

/-- The first event record still to be written. -/
def nextEvent (s : State) : Option EvRec := s.evt.store.find? (fun e => !e.issued)

/-- The event ring's next record is written, or held (R366, R367); one to be written again goes first (R68). -/
def tryEvent (s : State) : State :=
  match nextEvent s with
  | none => s
  | some e =>
    let g := ringAt s 2
    let n := nextRecord g
    if !g.enable ∨ !mayMaster s 0 ∨ frozen s ∨ s.recov.any (fun v => !v.settled && v.scope.any (fun x => x.val == 2)) then s
    else if g.lost ≠ [] then rewriteLost s 2
    else if !slotFree g n then holdRecord s 2 (slotAddr g n) false
    else
      let x : Issued := { src := .event, slot := n, irq := true
                          bytes := eventBytes { e with seq := n, epoch := s.ledger.epoch } s.evt.lost (phaseBit g.log2.toNat n) }
      if inWindows s 0 true (slotAddr g n) 32 then putRecord { s with evt := { s.evt with lost := false } } 2 x
      else putRecord s 2 x

/-! ### The seal's part in the ledger (R78, R312 step 5) -/

/-- Step 3 for one ring: its leading journal entries are written while slots are released. An entry behind a return that is not yet written is not its ring's next outcome (R64): it is left to the spill (DESIGN CHOICE, log 155). -/
def sealRing : Nat → State → Nat → State
  | 0, s, _ => s
  | n + 1, s, r =>
    match nextOutcome s r with
    | none => s
    | some (w, _) =>
      if (journalOf s r w.seq).isNone || (s.sup.sealing && s.sup.hostLost) then s
      else
        let s1 := tryRecord s r
        if decide ((nextOutcome s1 r).map (fun x => x.1.seq) = some w.seq) then s1 else sealRing n s1 r

/-- Every entry still in the journal, in ring and sequence order: an entry leaves it when its record is acknowledged, so one whose record is issued is among them (R67, R68). -/
def spillList (s : State) : List JEntry :=
  allRings.flatMap (fun r => (ringAt s r.val).work.filterMap (fun w => journalOf s r.val w.seq))

/-- The bytes of the record already issued for a piece of work, if any. -/
def issuedBytes (s : State) (r : RingNo) (seq : Word) : Option (List Byte) :=
  let g := ringAt s (recordRing r.val)
  ((g.unacked ++ g.lost).find? (fun x => decide (x.src = .work r seq))).map (fun x => x.bytes)

/-- The spilled 32-byte records. -/
def spillBytes (s : State) : List Byte :=
  (spillList s).flatMap (fun j =>
    match issuedBytes s j.ring j.seq with
    | some b => b
    | none =>
      let ck := match findWork (ringAt s j.ring.val) j.seq with | some w => w.d.cookie | none => 0
      recordBytes s j.ring.val j.seq ck j.out false 0)

/-- Step 5: one ring's benchmark record into both copies with equal GEN. -/
def benchBoth (s : State) (r : RingNo) : State :=
  if ringOnPart s r.val then
    let s1 := setRing s r.val (fun g => { g with gen := g.gen + 1, bmDue := false, bmGate := false })
    let s2 := ledgerWrite s1 (.bench r) (benchOff false r.val) (benchBytes s1 r.val)
    ledgerWrite s2 (.bench r) (benchOff true r.val) (benchBytes s1 r.val)
  else s

/-- The seal has reached a phase. -/
def setPhase (s : State) (n : Fin 4) : State := { s with sup := { s.sup with sealPhase := n } }

/-- Steps 2 and 3. -/
def sealOne (s : State) : State :=
  let s1 := writeHeaders { s with ledger := { s.ledger with sealState := .sealing } }
  setPhase (allRings.foldl (fun t r => if hostWritten r.val then sealRing 256 t r.val else t) s1) 1

/-- Steps 4 and 5. -/
def sealTwo (s : State) : State :=
  let b := spillBytes s
  let s1 := { s with ledger := { s.ledger with
      spillCount := BitVec.ofNat 16 (b.length / 32), spillCheck := word (crc32c b) } }
  let s2 := if b = [] then s1 else ledgerWrite s1 .spill 0x5200 b
  setPhase (allRings.foldl benchBoth s2) 2

/-- Step 6: the ledger is SEALED only where every earlier write was made (R84, R292). -/
def sealThree (s : State) : State :=
  if s.sup.sealing && s.sup.hostLost then setPhase s 3
  else
    setPhase (writeHeaders { s with ledger := { s.ledger with
      sealState := .sealed, sealCount := s.ledger.sealCount + 1, sealed := true } }) 3

/-- Every ledger transfer so far has been carried out. -/
def ledgerQuiet (s : State) : Bool :=
  decide (s.ledger.inFlight = []) && decide (s.ledger.failed = []) && decide (s.ledger.waiting = [])

/-- The seal of an entry is made: step 7 of R78, and step 6 of R312. -/
def entered (s : State) : State :=
  setPwr { s with sup := { s.sup with journalSealed := true, sealPhase := 0 }, pwr := { s.pwr with entrySeal := false } } .entering

/-- The seal goes on once the writes of its phase have been carried out. -/
def sealAdvance (s : State) : State :=
  if !ledgerQuiet s || (s.sup.sealing && s.sup.hostLost) then s
  else
    match s.sup.sealPhase with
    | 1 => sealTwo s
    | 2 => sealThree s
    | 3 => if s.pwr.entrySeal && !s.sup.sealing then entered s else s
    | _ => s

/-- Steps 2 to 6 of R78 begin; without a ledger in use there is nothing to write. -/
def sealLedger (s : State) : State := if ledgerLive s then sealOne s else sealAdvance (setPhase s 3)

/-! ### Power state changes shared by several families -/

/-- Service resumes after a seal: headers RUNNING with SPILL_COUNT 0, and a recovery with cause 0x13 over every existing ring (R78, R317); `lossy`: the core domains were off. -/
def resumeService (s : State) (lossy : Bool) : State :=
  let s1 := { s with
    ledger := { s.ledger with sealState := .running, spillCount := 0, spillCheck := 0, sealed := false }
    sup := { s.sup with journalSealed := false, sealPhase := 0 }
    hif := { s.hif with fetchStop := false } }
  startRecovery s1 (allRings.filter (fun r => (ringAt s1 r.val).enable)) 0x13 0xFF lossy [] []

/-- The entry into DEEP or OFF is abandoned (R313); while a seal runs, service resumes as the seal decides (R293). -/
def abandonEntry (s : State) : State :=
  if s.pwr.state = .entering then
    let s1 := setPwr { s with pwr := { s.pwr with refused := true, why := 3, entryReq := none } } .run
    if s.sup.sealing then s1 else resumeService s1 false
  else s

/-- A memory write of the host to BAR0 or BAR2 of a function in D0 abandons an entry (R313). -/
def hostWrote (s : State) : State := abandonEntry s

/-- Step 5 of R312 begins: the ledger is sealed; the state becomes ENTERING when its writes have been carried out. -/
def beginEntering (s : State) (toOff : Bool) : State :=
  sealLedger { s with pwr := { s.pwr with entryReq := none, entrySeal := true, toOff := toOff } }

/-- The function whose BARs a requester's access goes to. -/
def reqFn : Requester → Nat
  | .vf c => c.val + 1
  | _ => 0

/-- A host access to a function's BARs is served: Memory Space Enable set and the function in D0 (Table 02.10, R313); firmware's port is not behind PCI Express. -/
def barServes (s : State) (who : Requester) : Bool :=
  match who with
  | .fw _ => true
  | _ =>
    let f := vget s.hif.funcs (reqFn who) (Func.reset 0)
    f.mse && !f.d3hot && (decide (reqFn who = 0) || vfOn s (reqFn who - 1))

/-- A function changed by f. -/
def setFunc (s : State) (f : Nat) (g : Func → Func) : State :=
  { s with hif := { s.hif with funcs := vset s.hif.funcs f (g (vget s.hif.funcs f (Func.reset 0))) } }

/-- An error reported through AER: its bit of the function's status, by PCI Express's numbers (Table 02.1). -/
def aerReport (s : State) (f bit : Nat) : State :=
  emitOut (setFunc s f (fun x => { x with aer := x.aer ||| word (2 ^ bit) })) (.aer f)

/-- Configuration requests are served, not answered with Configuration Request Retry Status: the terminal's identity has loaded since POWER-ON, and TEST_EN is low (R379, R396; log 201). -/
def configServed (s : State) : Bool := !s.hif.crs && !s.pwr.testEn

/-- A host memory request the function does not serve: an unsupported request, reported through AER (Table 02.10, R313). -/
def refuseAccess (s : State) (who : Requester) (off : Nat) : State :=
  aerReport (emitOut s (.ur who off)) (reqFn who) 20

end Sys2Proof.Machine
end

