-- ==== Sys2Proof/Machine/Time.lean ====
section
/-! DEFINITION. Network time (10_network_time.md): the datum's count, loads, phase tracking, holdover, PPS and the receive-timestamp FIFOs. -/

namespace Sys2Proof.Machine

open Sys2Proof

/-- The datum wraps at 2⁶⁴ seconds (Table 10.1). -/
def datumMod : Nat := 2 ^ 64 * secUnit

/-- Nominal increment of a CLK_CH cycle in 2⁻⁴⁰ ns (R219). -/
def nominalInc : Nat := 3534952506996

/-- Nominal period of the 4.0 MHz sequencer oscillator, 250 ns, which counts until the root PLL runs (log 8). -/
def oscInc : Nat := 250 * nsUnit

/-- The most a slew moves the datum in one cycle: 10.0 ppm of the increment (R224). -/
def slewCap : Nat := nominalInc * 10 / 1000000

/-- The part of the remaining offset one cycle removes, at most at 10.0 ppm. -/
def slewStep (rest : Int) : Int := max (-(slewCap : Int)) (min rest slewCap)

/-- A restarted slew's first cycle keeps the present rate; every other cycle goes on from what remains (R224, log 166). -/
def slewNow (t : Time) : Int := if t.slewKeep then slewStep t.slewRate else slewStep t.slew

/-- The most one edge of the clock that counts the datum moves it (R219, R224, R227). -/
def edgeInc (s : State) : Nat :=
  if s.pwr.state = .deep then s.time.calInc
  else if s.time.pllLock then nominalInc + slewCap
  else if s.pwr.xtal then s.time.calInc else oscInc

/-- How far the datum has passed the latest instant that lies `phase` beyond a multiple of `period`. -/
def sinceEdge (s : State) (period phase : Nat) : Nat := (s.datum + period - phase % period) % period

/-- The latest edge of the datum reached an instant that lies `phase` beyond a multiple of `period` (R135, R207, R216; log 165). -/
def atEdge (s : State) (period phase : Nat) : Bool := decide (sinceEdge s period phase < edgeInc s)

/-- STATE changes; DATUM_STATE is raised at each change (log 9). -/
def setTimeState (s : State) (st : TimeSt) : State :=
  if s.time.st = st then s else raise { s with time := { s.time with st := st } } Src.datumState 0xFF 0

/-- HOLD_ERR after a further `inc` of datum time in HOLDOVER (R228). -/
def growHold (t : Time) (inc : Nat) (crystal : Bool) : Time :=
  if t.st = .holdover then
    let acc := t.holdAcc + inc * (if crystal then t.rate32k else t.rateTcxo).toNat
    { t with holdAcc := acc, holdErr := word (min (acc / (nsUnit * 1000000000)) (2 ^ 32 - 1)) }
  else t

/-- One edge of the clock that counts the datum (R219, R227): CLK_CH with the slew once the root PLL has locked, the crystal in DEEP and before that, the sequencer's oscillator until the crystal runs (R323), none in OFF. -/
def tick (s : State) : State :=
  match s.pwr.state with
  | .off => s
  | .deep =>
    { s with datum := (s.datum + s.time.calInc) % datumMod, time := growHold s.time s.time.calInc true }
  | _ =>
    if s.time.pllLock then
      let d := slewNow s.time
      let inc := ((nominalInc : Int) + d).toNat
      { s with
        datum := (s.datum + inc) % datumMod
        time := { growHold s.time inc false with slew := s.time.slew - d, slewRate := d, slewKeep := false } }
    else if s.pwr.xtal then
      { s with datum := (s.datum + s.time.calInc) % datumMod, time := growHold s.time s.time.calInc true }
    else { s with datum := (s.datum + oscInc) % datumMod, time := growHold s.time oscInc false }

/-- An instant as a datum value; a move below 0 stops at 0 (log 10). -/
def toDatum (t : Int) : Nat := t.toNat % datumMod

/-- A band's window advanced by n boundaries (R282). -/
def GovBand.advance (g : GovBand) (n : Nat) : GovBand :=
  { g with buckets := (List.replicate (min n 3600) 0 ++ g.buckets).take 3600 }

/-- Every window of the duty governor advanced by one boundary. -/
def Rad.advance (r : Rad) : Rad := { r with gov := vmapIdx (fun _ g => g.advance 1) r.gov }

/-- A frame that waits for budget is to be asked again. -/
def RadTx.askAgain (t : RadTx) : RadTx := if t.phase = .waitBudget then { t with phase := .held } else t

/-- A move of the datum past second boundaries advances the governor's windows by one, which asks a frame that waits for budget again; a backward move, and one that lands on a boundary, whose own effect follows, advance nothing (R282). -/
def govMove (s : State) (t : Nat) : Rad :=
  if instSec s.datum < instSec t ∧ !atEdge { s with datum := t } secUnit 0 ∧ !s.rad.refill then
    { s.rad.advance with tx := s.rad.tx.map RadTx.askAgain }
  else s.rad

/-- A set or step moves the datum; every channel's next frame boundary sees it (R139), and the governor's windows (R282). -/
def moveDatum (s : State) (t : Int) : State :=
  { s with
    rad := govMove s (toDatum t)
    datum := toDatum t
    time := { s.time with
      valid := false
      validNext := true
      ppsOut := false
      slew := 0
      slewRate := 0
      slewKeep := false
      stepped := BitVec.allOnes 24 } }

/-- An offset as DATUM_OFFSET shows it: whole ns, signed, saturating. -/
def offsetReg (e : Int) : Word :=
  let n := e / (nsUnit : Int)
  word (twos (max (-(2 ^ 31 : Int)) (min n (2 ^ 31 - 1))) 32)

/-- A signed register in 2⁻⁸ ns as 2⁻⁴⁰ ns. -/
def quarterNs (w : Word) : Int := signed w.toNat 32 * (2 ^ 32 : Int)

/-- |e| is above STEP_LIMIT. -/
def beyondLimit (s : State) (e : Int) : Bool :=
  decide ((s.time.stepLimit.toNat * usUnit : Nat) < e.natAbs)

/-- The average in progress is given up: the next comparison begins a new one. -/
def Time.noAverage (t : Time) : Time := { t with errSum := 0, errCount := 0, avgDue := none }

/-- An offset e to be slewed out; a change of its sign restarts the slew from its present rate (R224). -/
def Time.slewTo (t : Time) (e : Int) : Time :=
  { t with slew := e, slewKeep := decide ((e < 0 ∧ 0 < t.slewRate) ∨ (0 < e ∧ t.slewRate < 0)) }

/-- What follows an offset e of a load, or of an average treated as a load (R221). -/
def applyOffset (s : State) (e : Int) (first : Bool) : State :=
  let s1 := { s with time := { s.time.noAverage with offset := offsetReg e, goodAvgs := 0 } }
  if first then setTimeState { moveDatum s1 ((s1.datum : Int) + e) with } .slewing
  else if !beyondLimit s e then
    setTimeState { s1 with time := { s1.time.slewTo e with far := false } } .slewing
  else if s.time.stepEn then
    let s2 := moveDatum { s1 with time := { s1.time with far := false } } ((s1.datum : Int) + e)
    setTimeState (raise s2 Src.datumStep 0xFF 0) .slewing
  else setTimeState { s1 with time := { s1.time.slewTo e with far := true } } .slewing

/-- ToD_N + TOD_TRIM: the target without TOD_DELAY. -/
def loadBase (s : State) : Int :=
  (((s.time.todSecHi.toNat * 2 ^ 32 + s.time.todSecLo.toNat) * secUnit + s.time.todNs.toNat * nsUnit : Nat) : Int)
    + quarterNs s.time.todTrim

/-- An armed load is applied at the present instant (R220, R221). -/
def applyLoad (s : State) (k : BitVec 51) (ppsKind : Bool) : State :=
  let base := loadBase s
  let e := base + quarterNs s.time.todDelay - (s.datum : Int)
  let first := !s.time.valid && s.time.ref.isNone
  applyOffset { s with time := { s.time with
      ref := some (k, base), refKind := ppsKind, todStatus := .applied } } e first

/-- A load is LATE. -/
def loadLate (s : State) : State :=
  raise { s with time := { s.time with todStatus := .late } } Src.todLate 0xFF 0

/-- The average after one more error: 64 make it due, and one that does not follow the one before it begins anew (R223). -/
def Time.takeErr (t : Time) (e : Int) (follows : Bool) : Time :=
  let sum := if follows then t.errSum + e else e
  let n := if follows then t.errCount + 1 else 1
  if n = 64 then { t with errSum := 0, errCount := 0, avgDue := some sum } else { t with errSum := sum, errCount := n }

/-- A comparison with the reference arrives (R223): its error joins the average of consecutive ones, and HOLDOVER ends. -/
def compareErr (s : State) (e : Int) (follows : Bool) : State :=
  let s1 := { s with time := s.time.takeErr e follows }
  if s.time.st = .holdover then setTimeState { s1 with time := { s1.time with goodAvgs := 0 } } .slewing else s1

/-- Phase tracking and armed loads at a PSBd with superframe counter k (R220, R223). -/
def timePsbd (s : State) (k : BitVec 51) (inSync : Bool) : State :=
  let low : Word := word k.toNat
  let s1 :=
    if s.time.todStatus = .armed ∧ !s.time.todKind then
      if low = s.time.todN then applyLoad s k false
      else if precedes s.time.todN low then loadLate s
      else s
    else s
  match s1.time.ref with
  | some (n, base) =>
    if inSync && !s1.time.refKind then
      let frames := signed (k - n).toNat 51
      compareErr { s1 with time := { s1.time with errNext := k + 1 } }
        (base + quarterNs s1.time.todDelay + frames * (125000 * nsUnit : Nat) - (s1.datum : Int)) (s1.time.errNext == k)
    else s1
  | none => s1

/-! ### Receive timestamps (R231) -/

/-- Offset of the EtherType after up to two VLAN tags, an outer one with TPID 0x8100 or 0x88A8 and an inner one with 0x8100 (R187). -/
def etherOff (b : List Byte) : Nat :=
  if beAt b 12 2 = 0x8100 ∨ beAt b 12 2 = 0x88A8 then (if beAt b 16 2 = 0x8100 then 20 else 16) else 12

/-- Offset of a PTP message in a frame, carried by EtherType 0x88F7 or UDP port 319 over IPv4 or IPv6. -/
def ptpOff (b : List Byte) : Option Nat :=
  let o := etherOff b
  if beAt b o 2 = 0x88F7 then some (o + 2)
  else if beAt b o 2 = 0x0800 ∧ beAt b (o + 11) 1 = 17 then
    let u := o + 2 + 4 * (beAt b (o + 2) 1 % 16)
    if beAt b (u + 2) 2 = 319 then some (u + 8) else none
  else if beAt b o 2 = 0x86DD ∧ beAt b (o + 8) 1 = 17 then
    if beAt b (o + 44) 2 = 319 then some (o + 50) else none
  else none

/-- The entry a frame leaves in the FIFO when it is a PTP event message received at an instant. -/
def ptpEntry (b : List Byte) (t : Nat) : Option RxtsEntry :=
  match ptpOff b with
  | none => none
  | some p =>
    let ty := beAt b p 1 % 16
    if beAt b (p + 1) 1 % 16 = 2 ∧ ty ≤ 3 ∧ p + 34 ≤ b.length then
      some { msgType := BitVec.ofNat 4 ty, domain := BitVec.ofNat 8 (beAt b (p + 4) 1),
             seqId := BitVec.ofNat 16 (beAt b (p + 30) 2), ns := word (instNsPart t), sec := word (instSec t) }
    else none

/-- The FIFO after an entry: 16 at most, and a drop is counted. -/
def Rxts.push (x : Rxts) (e : RxtsEntry) : Rxts :=
  if x.fifo.length < 16 then { x with fifo := x.fifo ++ [e] } else { x with drops := x.drops + 1 }

/-- CP1 keeps a received event message for its pairing (R334). -/
def ptpIn (s : State) (e : RxtsEntry) (t : Nat) : State :=
  if cpServes s then
    { s with fw := { s.fw with ptp := s.fw.ptp ++ [{ domain := e.domain, seqId := e.seqId, t := t, out := none }] } }
  else s

/-- A pair is complete: its residence in whole nanoseconds. -/
def ptpDone (s : State) (h : PtpHalf) (t : Nat) : State :=
  raise { s with fw := { s.fw with ptp := eraseFirst (fun x => x == h) s.fw.ptp } } Src.ptpResidence 0xFF (word ((t - h.t) / nsUnit))

/-- A forwarded frame leaves on its other side, at a known point or through the open DTU of channel c; the pair is that of domainNumber and sequenceId within 1.0 s. -/
def ptpOut (s : State) (c id : Nat) (b : List Byte) (ts : Option (Nat × Bool)) : State :=
  match ptpEntry b 0 with
  | none => s
  | some e =>
    match s.fw.ptp.find? (fun h => h.domain == e.domain && h.seqId == e.seqId && h.out.isNone && decide (s.datum ≤ h.t + secUnit)) with
    | none => s
    | some h =>
      match ts with
      | some t => ptpDone s h t.1
      | none => { s with fw := { s.fw with ptp := mapIf (fun x => x == h) (fun x => { x with out := some (c, id) }) s.fw.ptp } }

/-- The open DTU of channel c closes at a transmit point. -/
def ptpClose (s : State) (c id t : Nat) : State :=
  (s.fw.ptp.filter (fun h => h.out == some (c, id))).foldl (fun u h => ptpDone u h t) s

/-- Capture on the uplink's FIFO. -/
def captureUplink (s0 : State) (b : List Byte) (t : Nat) : State :=
  match ptpEntry b t with
  | none => s0
  | some e =>
    let s := ptpIn s0 e t
    let s1 := { s with time := { s.time with rxts := s.time.rxts.push e } }
    if s.time.rxts.fifo.length < 16 then s1 else raiseC s1 Src.rxtsDrop 0xFE 1

/-- Capture on a channel's FIFO. -/
def captureChannel (s0 : State) (c : Nat) (b : List Byte) (t : Nat) : State :=
  match ptpEntry b t with
  | none => s0
  | some e =>
    let s := ptpIn s0 e t
    let s1 := setChan s c (fun k => { k with rxts := k.rxts.push e })
    if (chanAt s c).rxts.fifo.length < 16 then s1 else raiseC s1 Src.rxtsDrop c 1

/-! ### Meanings -/

/-- TOD_CMD.LOAD with its KIND (R220). -/
def todLoadOp (s : State) (kind : Bool) : State :=
  let s0 := { s with time := { s.time with todKind := kind } }
  let setSt (x : TodSt) : State := { s0 with time := { s0.time with todStatus := x } }
  if kind then
    if isP1 s || !s.time.ppsInEn then setSt .rejected else setSt .armed
  else if s.upl.gate ≠ .ranged then setSt .rejected
  else
    let d := (s.time.todN - word s.upl.superframe.toNat).toNat
    if 1 ≤ d ∧ d ≤ 80000 then setSt .armed else loadLate s0

def execTodLoad (who : Requester) (kind : Bool) (s : State) : Host.Outcome State Fault Refusal :=
  .next (if reachesAll who then todLoadOp s kind else s)

/-- The average of 64 consecutive comparisons is judged (R223, R224, R226). -/
def phaseAverageOp (s : State) : State :=
  match s.time.avgDue with
  | none => s
  | some sum =>
    let e := sum / 64
    if s.time.ref.isNone then s
    else if beyondLimit s e then applyOffset s e false
    else
      let good := if e.natAbs ≤ 10 * nsUnit then s.time.goodAvgs + 1 else 0
      let s1 := { s with time := { s.time.slewTo e with offset := offsetReg e, far := false, avgDue := none, goodAvgs := good } }
      if 8 ≤ good then
        setTimeState { s1 with time := { s1.time with holdErr := 0, holdAcc := 0, holdOver := false } } .locked
      else setTimeState s1 .slewing

def execPhaseAverage (s : State) : Host.Outcome State Fault Refusal := .next (phaseAverageOp s)

/-- No comparison for 1.0 ms with a reference in force (R226). -/
def execHoldoverEntry (s : State) : Host.Outcome State Fault Refusal :=
  .next (if s.time.ref.isSome && decide (s.time.st ≠ .unset) then
    setTimeState { s with time := { s.time with goodAvgs := 0, avgDue := none } } .holdover else s)

/-- HOLD_ERR, counted at the value the command names (log 204), passes HOLD_ERR_MAX: once at each passing (R228). -/
def holdLimitOp (s : State) (err : Word) : State :=
  if s.time.st = .holdover ∧ s.time.holdErr = err ∧ s.time.holdMax.toNat < s.time.holdErr.toNat ∧ !s.time.holdOver then
    raise { s with time := { s.time with holdExceeded := true, holdOver := true } } Src.datumHoldLimit 0xFF 0
  else s

def execHoldErrExceeded (err : Word) (s : State) : Host.Outcome State Fault Refusal := .next (holdLimitOp s err)

/-- A calibration period of 4.000 s ends in LOCKED with the increment it measured, in 2⁻⁴⁰ ns (R227). -/
def execCrystalCalibration (inc : Nat) (s : State) : Host.Outcome State Fault Refusal :=
  .next (if s.time.st = .locked ∧ s.pwr.xtal then
    { s with time := { s.time with calInc := inc, calDone := true } } else s)

/-- DATUM_CTL.INVALIDATE; PPS_OUT is low while DATUM_VALID is 0 (R235). -/
def invalidateOp (s : State) : State :=
  setTimeState { s with time := { s.time with valid := false, validNext := false, ref := none, ppsOut := false, goodAvgs := 0 }.noAverage } .unset

/-- The PF's write; a firmware write is denied. -/
def execDatumInvalidate (who : Requester) (s : State) : Host.Outcome State Fault Refusal :=
  .next (match who with
    | .vf _ => s
    | .fw _ => fwDenied s 0x50014
    | .pf => invalidateOp s)

/-- A PPS_IN rising edge (R236, R220, R223), ignored in DEEP and OFF (R406). The event R236 names has no source in Table 16.3: it shows as the model's output alone (log 167). -/
def ppsInOp (s0 : State) : State :=
  if !s0.time.ppsInEn ∨ s0.pwr.state = .deep ∨ s0.pwr.state = .off then s0
  else
    let s := emitOut s0 .ppsIn
    let s1 := { s with time := { s.time with
        ppsInNs := word (instNsPart s.datum)
        ppsInSec := word (instSec s.datum)
        ppsInOvr := s.time.ppsInOvr || s.time.ppsInUnread
        ppsInUnread := true } }
    if s1.time.todStatus = .armed ∧ s1.time.todKind then applyLoad s1 0 true
    else
      match s1.time.ref with
      | some (n, base) =>
        if s1.time.refKind then
          let next := base + (secUnit : Nat)
          compareErr { s1 with time := { s1.time with ref := some (n, next) } }
            (next + quarterNs s1.time.todDelay - (s1.datum : Int)) true
        else s1
      | none => s1

def execPpsInEdge (s : State) : Host.Outcome State Fault Refusal := .next (ppsInOp s)

/-- PPS_OUT falls WIDTH ms after its rise (R235). -/
def execPpsOutWidthExpiry (s : State) : Host.Outcome State Fault Refusal :=
  .next { s with time := { s.time with ppsOut := false } }

/-- RXTS_CTL.NEXT removes the oldest entry (R231). -/
def execRxtsNext (who : Requester) (f : RxtsSel) (s : State) : Host.Outcome State Fault Refusal :=
  .next (match f with
    | .uplink =>
      if reachesAll who then { s with time := { s.time with rxts := { s.time.rxts with fifo := s.time.rxts.fifo.tail } } }
      else s
    | .ch c =>
      if reachesChan who c.val && present s c.val then
        setChan s c.val (fun k => { k with rxts := { k.rxts with fifo := k.rxts.fifo.tail } })
      else s)

/-- The 32.768 kHz crystal runs (R323): XTAL_OK, and the datum leaves the sequencer's oscillator. -/
def execCrystalRunning (s : State) : Host.Outcome State Fault Refusal :=
  .next { s with pwr := { s.pwr with xtal := true } }

end Sys2Proof.Machine
end

