-- ==== Sys2Proof/Machine/Keys.lean ====
section
/-! DEFINITION. Key handles and MACsec line privacy (11_cipher.md): which handles are live and usable, protection of a frame and validation of a received one. -/

namespace Sys2Proof.Machine

open Sys2Proof

/-! ### Handles (R239, R240) -/

/-- Slot i of the key store. -/
def slotAt (s : State) (i : Nat) : Slot := vget s.sec.slots i Slot.empty

/-- Slot i changed by f. -/
def setSlot (s : State) (i : Nat) (f : Slot → Slot) : State :=
  { s with sec := { s.sec with slots := vset s.sec.slots i (f (slotAt s i)) } }

/-- A handle is live: its slot holds a key of the same generation; bits 7:6 are 0 and 0x0000 names no key. -/
def handleLive (s : State) (h : Half) : Bool :=
  let k := slotAt s (handleSlot h)
  h != 0 && decide (h.toNat / 64 % 4 = 0) && k.valid && decide (k.gen.toNat = h.toNat / 256)

/-- The handle of a slot as it stands. -/
def handleOf (s : State) (i : Nat) : Half := BitVec.ofNat 16 ((slotAt s i).gen.toNat * 256 + i)

/-- A MACsec handle is usable (R252). -/
def macKeyUsable (s : State) (xpn : Bool) (h : Half) : Bool :=
  let k := slotAt s (handleSlot h)
  handleLive s h && (k.kind == 3 || k.kind == 4) && (k.salt.isSome == xpn) && decide (k.owner = .pf)

/-- A handle of UPL_KEY_BIND is usable for a kind (R256). -/
def uplKeyUsable (s : State) (kind : Nat) (h : Half) : Bool :=
  let k := slotAt s (handleSlot h)
  handleLive s h && decide (k.kind.toNat = kind) && decide (k.owner = .fw)

/-- GCM cores still in service. -/
def coresLeft (s : State) : Nat := 4 - (flagAt (s.sec.retired.getLsbD 0) 0 + flagAt (s.sec.retired.getLsbD 1) 0
  + flagAt (s.sec.retired.getLsbD 2) 0 + flagAt (s.sec.retired.getLsbD 3) 0)

/-- KEY_UNUSABLE of a MAC section (R252). -/
def macKeysMissing (s : State) (m : MacSect) : Bool :=
  (m.txEn && !macKeyUsable s m.xpn m.txKey)
    || (m.rxEn && ((m.rxKey0 != 0 && !macKeyUsable s m.xpn m.rxKey0) || (m.rxKey1 != 0 && !macKeyUsable s m.xpn m.rxKey1)))

/-- KEY_UNUSABLE of one channel brought up to date; its rise is an occurrence. -/
def refreshKeyUse (s : State) (c : Nat) : State :=
  let k := chanAt s c
  let now := match k.tab.mac with | none => false | some m => macKeysMissing s m
  if now == k.msec.unusable then s
  else
    let s1 := setChan s c (fun k => { k with msec := { k.msec with unusable := now } })
    if now then raise s1 Src.macsecKeyUnusable c 0 else s1

/-- KEY_UNUSABLE of every channel brought up to date. -/
def refreshKeys (s : State) : State := (List.range 24).foldl refreshKeyUse s

/-! ### Protection (R252 to R254) -/

/-- The last packet number an SA may send. -/
def pnLimit (xpn : Bool) : Nat := if xpn then 2 ^ 64 - 1 else 2 ^ 32 - 1

/-- The transmit PN a channel's next frame takes. -/
def nextPn (s : State) (m : MacSect) : Nat := max (slotAt s (handleSlot m.txKey)).pn m.txPnInit

/-- Downstream frames of a channel may leave: not protected, or protected with a usable key, an SA that is not exhausted and a core to carry it. -/
def mayProtect (s : State) (c : Nat) : Bool :=
  match (chanAt s c).tab.mac with
  | none => true
  | some m =>
    !m.txEn || (macKeyUsable s m.xpn m.txKey && decide (nextPn s m ≤ pnLimit m.xpn) && decide (0 < coresLeft s)
      && !(chanAt s c).msec.exhausted)

/-- The IV of a MACsec frame: SCI and PN, or for XPN the SSCI and the 64-bit PN under the salt. -/
def macIv (k : Slot) (xpn : Bool) (sci : List Byte) (ssci : Word) (pn : Nat) : List Byte :=
  if xpn then
    List.zipWith (fun a b => a ^^^ b) (bytesBE 4 ssci.toNat ++ bytesBE 8 pn) (k.salt.getD (zeros 12))
  else sci ++ bytesBE 4 pn

/-- EtherType of MACsec. -/
def secType : Nat := 0x88E5

/-- The SecTAG of IEEE 802.1AE: EtherType, TCI and AN, SL, the PN's low 32 bits, and the SCI where INCLUDE_SCI asks for it; E and C are set when the frame is encrypted. `n` bytes follow it before the ICV (R253; log 186). -/
def secTag (m : MacSect) (pn n : Nat) : List Byte :=
  bytesBE 2 secType
    ++ [BitVec.ofNat 8 (flagAt m.inclSci 5 + flagAt m.conf 3 + flagAt m.conf 2 + m.txAn.toNat), BitVec.ofNat 8 (if n < 48 then n else 0)]
    ++ bytesBE 4 pn ++ (if m.inclSci then fit 8 m.txSci else [])

/-- A received SecTAG: AN, the PN's low 32 bits, encrypted or not, its length, and the SCI it carries. -/
structure SecTagRx where
  an  : Nat
  pn  : Nat
  enc : Bool
  len : Nat
  sci : Option (List Byte)
  deriving DecidableEq, Repr

/-- The SecTAG behind a frame's addresses; none: it carries none. -/
def secTagOf (b : List Byte) : Option SecTagRx :=
  if beAt b 0 2 ≠ secType ∨ (beAt b 2 1).testBit 7 ∨ b.length < 8 then none
  else
    let sc := (beAt b 2 1).testBit 5
    some { an := beAt b 2 1 % 4, pn := beAt b 4 4, enc := (beAt b 2 1).testBit 3, len := if sc then 16 else 8,
           sci := if sc then some ((b.drop 8).take 8) else none }

/-- The PN of a received frame: for XPN the upper 32 bits follow the next PN expected of the SA, one higher where the low half has passed its end (log 186). -/
def fullPn (xpn : Bool) (top low : Nat) : Nat :=
  let next := top + 1
  if !xpn then low
  else if 2 ^ 31 ≤ next % 2 ^ 32 ∧ low < 2 ^ 31 then (next / 2 ^ 32 + 1) * 2 ^ 32 + low
  else next / 2 ^ 32 * 2 ^ 32 + low

/-- AES-GCM with its output's length and a tag of 16 bytes. -/
def gcmSealed (key iv aad body : List Byte) : List Byte × List Byte :=
  let r := Config.gcmSeal key iv aad body
  (fit body.length r.1, fit 16 r.2)

/-- AES-GCM in the receive direction: output and the computed tag. -/
def gcmOpened (key iv aad body : List Byte) : List Byte × List Byte :=
  let r := Config.gcmOpen key iv aad body
  (fit body.length r.1, fit 16 r.2)

/-- CCM* with its output's length and an m-byte MIC; bytes that are not encrypted stay as they are. -/
def ccmSealed (key nonce aad body : List Byte) (m : Nat) (enc : Bool) : List Byte × List Byte :=
  let r := Config.ccmSeal key nonce aad body m enc
  (if enc then fit body.length r.1 else body, fit m r.2)

/-- CCM* in the receive direction: output and the computed MIC. -/
def ccmOpened (key nonce aad body : List Byte) (m : Nat) (enc : Bool) : List Byte × List Byte :=
  let r := Config.ccmOpen key nonce aad body m enc
  (if enc then fit body.length r.1 else body, fit m r.2)

/-- A frame with its FCS. -/
def withFcs (b : List Byte) : List Byte := b ++ bytesLE 4 (crc32 b)

/-- A frame without its FCS. -/
def noFcs (b : List Byte) : List Byte := b.take (b.length - 4)

/-- The FCS of a frame matches. -/
def fcsGood (b : List Byte) : Bool := decide (4 ≤ b.length) && (withFcs (noFcs b) == b)

/-- A frame whose FCS is sent inverted (R182). -/
def badFcs (b : List Byte) : List Byte := noFcs b ++ ((b.drop (b.length - 4)).map (fun x => ~~~x))

/-- A frame (with FCS) protected under a MAC section and packet number. -/
def protectFrame (s : State) (m : MacSect) (pn : Nat) (b : List Byte) : List Byte :=
  let k := slotAt s (handleSlot m.txKey)
  let body := noFcs b
  let rest := body.drop 12
  let hdr := body.take 12 ++ secTag m pn rest.length
  let iv := macIv k m.xpn m.txSci m.txSsci pn
  if m.conf then
    let (ct, tag) := gcmSealed k.key iv hdr rest
    withFcs (hdr ++ ct ++ tag)
  else
    let (_, tag) := gcmSealed k.key iv (hdr ++ rest) []
    withFcs (hdr ++ rest ++ tag)

/-- The next PN of a shared slot has moved: PN_HIGH and exhaustion of a channel that sends with it (R254). -/
def pnMovedFor (h : Half) (old new : Nat) (s : State) (c : Nat) : State :=
  match (chanAt s c).tab.mac with
  | none => s
  | some m =>
    if !(m.txEn && m.txKey == h) then s
    else
      let s1 := setChan s c (fun k => { k with msec := { k.msec with exhausted := k.msec.exhausted || decide (pnLimit m.xpn < new) } })
      if m.pnThresh ≠ 0 ∧ max old m.txPnInit < m.pnThresh ∧ m.pnThresh ≤ max new m.txPnInit then
        raise (setChan s1 c (fun k => { k with msec := { k.msec with pnHigh := true } })) Src.macsecPnHigh c 0
      else s1

/-- The PN of a handle's slot moves, for every channel that sends with it (R253, R254). -/
def movePn (s : State) (h : Half) (new : Nat) : State :=
  let old := (slotAt s (handleSlot h)).pn
  (List.range 24).foldl (pnMovedFor h old new) (setSlot s (handleSlot h) (fun k => { k with pn := new }))

/-- The PN is taken and TX_PROTECTED counted (R253, R254). -/
def takePn (s : State) (c : Nat) (m : MacSect) : State :=
  movePn (setChan s c (fun k => { k with msec := { k.msec with protected_ := k.msec.protected_ + 1 } })) m.txKey (nextPn s m + 1)

/-- A downstream frame as it leaves the frame MAC of channel c. -/
def macOut (s : State) (c : Nat) (b : List Byte) : State × List Byte :=
  match (chanAt s c).tab.mac with
  | none => (s, b)
  | some m => if m.txEn then (takePn s c m, protectFrame s m (nextPn s m) b) else (s, b)

/-! ### Validation (R255, Table 11.6) -/

/-- The usable receive handle of an AN. -/
def rxHandle (s : State) (m : MacSect) (an : Nat) : Option Half :=
  if m.rxKey0 ≠ 0 ∧ m.rxAn0.toNat = an ∧ macKeyUsable s m.xpn m.rxKey0 then some m.rxKey0
  else if m.rxKey1 ≠ 0 ∧ m.rxAn1.toNat = an ∧ macKeyUsable s m.xpn m.rxKey1 then some m.rxKey1
  else none

/-- Counters of MACsec reception. -/
inductive MacRx where
  | noTag | noSa | bad | late | ok
  deriving DecidableEq, Repr

/-- A reception counted; RX_BAD is an event source too. -/
def countMacRx (s : State) (c : Nat) (x : MacRx) : State :=
  let s1 := setChan s c (fun k => { k with msec := match x with
    | .noTag => { k.msec with noTag := k.msec.noTag + 1 }
    | .noSa => { k.msec with noSa := k.msec.noSa + 1 }
    | .bad => { k.msec with bad := k.msec.bad + 1 }
    | .late => { k.msec with late := k.msec.late + 1 }
    | .ok => { k.msec with ok := k.msec.ok + 1 } })
  if x = .bad then raiseC s1 Src.macsecRxBad c 1 else s1

/-- The plaintext of a received frame (no FCS) under a key, when its ICV holds. -/
def macOpen (s : State) (m : MacSect) (h : Half) (pn : Nat) (enc : Bool) (tagLen : Nat) (b : List Byte) : Option (List Byte) :=
  let k := slotAt s (handleSlot h)
  let iv := macIv k m.xpn m.rxSci m.rxSsci pn
  let hdr := b.take (12 + tagLen)
  let rest := (b.drop (12 + tagLen)).take (b.length - 12 - tagLen - 16)
  let icv := b.drop (b.length - 16)
  if enc then
    let (pt, tag) := gcmOpened k.key iv hdr rest
    if tag = icv then some (b.take 12 ++ pt) else none
  else
    let (_, tag) := gcmOpened k.key iv (hdr ++ rest) []
    if tag = icv then some (b.take 12 ++ rest) else none

/-- The SCI a frame carries is RX_SCI; a frame without one belongs to the one secure channel there is (R255; log 187). -/
def sciExpected (m : MacSect) (t : SecTagRx) : Bool := match t.sci with | none => true | some x => x == m.rxSci

/-- What a MAC section does with a received frame (no FCS): the frame to deliver and whether it was verified, or none. -/
def macsecIn (s : State) (c : Nat) (m : MacSect) (b : List Byte) : State × Option (List Byte × Bool) :=
  let strict := m.validate == 2
  if m.validate == 0 then (s, some (b, false))
  else
    match secTagOf (b.drop 12) with
    | none => (countMacRx s c .noTag, if strict then none else some (b, false))
    | some t =>
      let an := t.an
      let asIs : Option (List Byte × Bool) := if strict || t.enc then none else some (b, false)
      match if sciExpected m t then rxHandle s m an else none with
      | none => (countMacRx s c .noSa, asIs)
      | some h =>
        let top := vget (chanAt s c).msec.highest an 0
        let pn := fullPn m.xpn top t.pn
        match macOpen s m h pn t.enc t.len b with
        | none => (countMacRx s c .bad, asIs)
        | some pt =>
          if pn < max 1 (top - m.replayWin) then (countMacRx s c .late, none)
          else
            let s1 := setChan s c (fun k => { k with msec := { k.msec with highest := vset k.msec.highest an (max top pn) } })
            (countMacRx s1 c .ok, some (pt, true))

/-- A received frame (no FCS) through the MACsec stage of channel c. -/
def macIn (s : State) (c : Nat) (b : List Byte) : State × Option (List Byte × Bool) :=
  match (chanAt s c).tab.mac with
  | none => (s, some (b, false))
  | some m => if m.rxEn then macsecIn s c m b else (s, some (b, false))

end Sys2Proof.Machine
end

