-- ==== Sys2Proof/Machine/Packet.lean ====
section
/-! DEFINITION. The packet buffer, VLAN editing, classification, pause and the flow table (08_forwarding.md). -/

namespace Sys2Proof.Machine

open Sys2Proof

/-! ### Cells and partitions (R178 to R180, Table 08.1) -/

/-- Cells a frame of n bytes occupies. -/
def cells (n : Nat) : Nat := (n + 255) / 256

/-- Cells a list of frames occupies. -/
def frameCells (l : List Frame) : Nat := total (l.map (fun f => cells f.bytes.length))

/-- Bytes stored of a transmit descriptor's frame: tag inserted, padded to 60, and its FCS (R189). -/
def txLen (d : Desc) : Nat := max 60 (d.len.toNat + (if bitOf d.p0 3 then 4 else 0)) + 4

/-- Buffer reads of ring r in progress whose cells lie in (or out of) its reserve. -/
def readCells (s : State) (r : Nat) (inRes : Bool) : Nat :=
  total (((ringAt s r).work.filter (fun w => decide (w.stage = .reading) && w.ret.isNone && w.reserve == inRes)).map
    (fun w => cells (txLen w.d)))

/-- Banks retired. -/
def retiredCount (s : State) : Nat := banksRetired s

/-- Frames in channel c's downstream half; the frame in progress keeps the cells it was stored in (R200). -/
def dsFrames (s : State) (c : Nat) : List Frame :=
  let q := (chanAt s c).qs
  (List.range 8).flatMap (fun p => vget q.q p []) ++ (q.cur.map (fun f => if f.src = .pause then f else { f with bytes := q.plain })).toList

/-- All T-CONT frames. -/
def tcontFrames (s : State) : List Frame := s.upl.tcont.toList.flatten

/-- A frame came from channel c's line. -/
def fromLine (c : Nat) (f : Frame) : Bool := match f.src with | .line x => x.val == c | _ => false

/-- A frame came from the uplink. -/
def fromUplink (f : Frame) : Bool := match f.src with | .uplink _ => true | _ => false

/-- Frames in channel c's upstream half. -/
def usFrames (s : State) (c : Nat) : List Frame :=
  (List.range 8).flatMap (fun p => vget (chanAt s c).qs.q (8 + p) []) ++ (chanAt s c).hostRx
    ++ s.xc.excRx.filter (fromLine c) ++ (tcontFrames s).filter (fromLine c)

/-- Frames in the host partition. -/
def hostFrames (s : State) : List Frame :=
  (tcontFrames s).filter (fun f => match f.src with | .work _ _ => true | _ => false)
    ++ s.xc.mgmtRx.filter fromUplink ++ s.xc.excRx.filter fromUplink

/-- Cells of a partition: those of channel c's downstream and upstream halves and of the host partition, less retired banks (R181). -/
def dsCells (s : State) : Nat := 1024 - 16 * retiredCount s
def usCells (s : State) : Nat := 1536 - 24 * retiredCount s
def hostCells (s : State) : Nat := 4096 - 64 * retiredCount s

/-- Free cells of channel c's upstream half. -/
def usFree (s : State) (c : Nat) : Nat := usCells s - frameCells (usFrames s c)

/-- Free unreserved cells of channel c's downstream half, and of the host partition. -/
def dsFree (s : State) (c : Nat) : Nat :=
  dsCells s - 72 - (frameCells ((dsFrames s c).filter (fun f => !f.inReserve))
    + readCells s (chRing c 0) false + readCells s (chRing c 1) false)
def hostFree (s : State) : Nat :=
  hostCells s - 72 - (frameCells ((hostFrames s).filter (fun f => !f.inReserve)) + readCells s 3 false + readCells s 6 false)

/-- Free cells of the reserve of transmit ring r (R179). -/
def reserveFree (s : State) (r : Nat) : Nat :=
  let mine (f : Frame) : Bool := f.inReserve && (match f.src with | .work x _ => x.val == r | _ => false)
  let held := match ringChan r with
    | some c => frameCells ((dsFrames s c).filter mine)
    | none => frameCells ((hostFrames s).filter mine)
  36 - (held + readCells s r true)

/-- Where an accepted transmit frame of n bytes may be stored: in its ring's reserve (true), in unreserved cells, or nowhere yet. -/
def placeFor (s : State) (r n : Nat) : Option Bool :=
  if cells n ≤ reserveFree s r then some true
  else
    let free := match ringChan r with | some c => dsFree s c | none => hostFree s
    if cells n ≤ free then some false else none

/-! ### VLAN tags (R187) -/

/-- The frame carries an outer tag. -/
def tagged (b : List Byte) : Bool := beAt b 12 2 == 0x8100 || beAt b 12 2 == 0x88A8

/-- TCI of the outer tag. -/
def outerTci (b : List Byte) : Nat := beAt b 14 2

/-- The PCP of a frame, DEF_PCP when untagged. -/
def framePcp (b : List Byte) (defPcp : Nat) : Nat := if tagged b then outerTci b / 8192 else defPcp

/-- The key VID: 0xFFF when untagged (R185). -/
def frameVid (b : List Byte) : Nat := if tagged b then outerTci b % 4096 else 0xFFF

/-- The VID a flow entry's KEY_VID is matched with: a frame tagged with VID 0xFFF matches none, since 0xFFF stands for untagged frames (Table 08.2). -/
def matchVid (b : List Byte) : Nat := if tagged b && decide (frameVid b = 0xFFF) then 0x1000 else frameVid b

/-- A tag inserted after the source address. -/
def insertTag (b : List Byte) (tpid tci : Nat) : List Byte := b.take 12 ++ bytesBE 2 tpid ++ bytesBE 2 tci ++ b.drop 12

/-- The edit OP of a flow entry on a frame without FCS. -/
def vlanEdit (e : FlowEntry) (defPcp : Nat) (b : List Byte) : List Byte :=
  let w := vget e 2 0
  let vid := bits w 11 0
  let pcp := if bitOf w 28 then framePcp b defPcp else bits w 27 25
  match bits w 31 30 with
  | 0 => b
  | 1 => if tagged b then b.take 12 ++ b.drop 16 else b
  | 2 => insertTag b (if bitOf w 29 then 0x88A8 else 0x8100) (pcp * 8192 + vid)
  | _ => if tagged b then b.take 14 ++ bytesBE 2 (pcp * 8192 + outerTci b / 4096 % 2 * 4096 + vid) ++ b.drop 16 else b

/-! ### Flow entries (Table 08.2) -/

def feValid (e : FlowEntry) : Bool := bitOf (vget e 0 0) 31
def feUp (e : FlowEntry) : Bool := bitOf (vget e 0 0) 30
def feKind (e : FlowEntry) : Nat := bits (vget e 0 0) 29 27
def feCh (e : FlowEntry) : Nat := bits (vget e 0 0) 26 22
def feVidAny (e : FlowEntry) : Bool := bitOf (vget e 0 0) 21
def fePcpAny (e : FlowEntry) : Bool := bitOf (vget e 0 0) 20
def feKeyPcp (e : FlowEntry) : Nat := bits (vget e 0 0) 19 17
def feKeyVid (e : FlowEntry) : Nat := bits (vget e 0 0) 11 0
def fePrio (e : FlowEntry) : Nat := bits (vget e 1 0) 26 24
def feTcont (e : FlowEntry) : Nat := bits (vget e 1 0) 21 16
def fePort (e : FlowEntry) : Nat := bits (vget e 1 0) 15 0
def feMask (e : FlowEntry) : Nat := bits (vget e 3 0) 23 0

/-- The flow entry at an index. -/
def flowAt (s : State) (i : Nat) : FlowEntry := vget s.xc.flow i (Vector.replicate 4 0)

/-- The first entry a predicate holds of. -/
def findFlow (s : State) (p : FlowEntry → Bool) : Option FlowEntry := s.xc.flow.toList.find? p

/-- An upstream entry matches a key with the given wildcards. -/
def feMatches (c vid pcp : Nat) (vidAny pcpAny : Bool) (e : FlowEntry) : Bool :=
  feValid e && feUp e && decide (feCh e = c) && feVidAny e == vidAny && fePcpAny e == pcpAny
    && (vidAny || decide (feKeyVid e = vid)) && (pcpAny || decide (feKeyPcp e = pcp))

/-- The upstream entry that decides a frame (R185). -/
def upstreamEntry (s : State) (c vid pcp : Nat) : Option FlowEntry :=
  match findFlow s (feMatches c vid pcp false false) with
  | some e => some e
  | none =>
    match findFlow s (feMatches c vid pcp false true) with
    | some e => some e
    | none =>
      match findFlow s (feMatches c vid pcp true false) with
      | some e => some e
      | none => findFlow s (feMatches c vid pcp true true)

/-- An XGEM port has an active entry (R111). -/
def portActive (s : State) (p : Nat) : Bool := s.upl.ports.toList.any (fun e => e.valid && decide (e.port.toNat = p))

/-! ### Counting (R365 sources 71 to 79) -/

def countBufDiscard (s : State) (c : Nat) : State :=
  raiseC (setMac s c (fun m => { m with bufDisc := m.bufDisc + 1 })) Src.bufDiscard c 1

def countLineDiscard (s : State) (c : Nat) : State :=
  raiseC (setMac s c (fun m => { m with lineDisc := m.lineDisc + 1 })) Src.lineDiscard c 1

def countNoFlow (s : State) : State :=
  raiseC { s with xc := { s.xc with noFlow := s.xc.noFlow + 1 } } Src.xcNoFlow 0xFF 1

/-! ### Pause generation (R193 to R195) -/

/-- Pause time of Q quanta at an NDR in kbit/s, in ns (R193). -/
def pauseNs (q ndr : Nat) : Nat := (q * 512000000 + ndr - 1) / ndr

/-- Cells of upstream queue p. -/
def usOccupancy (s : State) (c p : Nat) : Nat := frameCells (vget (chanAt s c).qs.q (8 + p) [])

/-- Priority p is congested (R195). -/
def congested (s : State) (c : Nat) (m : MacSect) (p : Nat) : Bool :=
  decide (m.xoff ≤ usOccupancy s c p) || decide (usFree s c ≤ m.headroom)

/-- A pause frame with quanta per priority: 802.1Qbb, padded, with its FCS. -/
def pauseFrame (sa : List Byte) (ens : Nat) (quanta : Nat → Nat) : List Byte :=
  withFcs ([0x01, 0x80, 0xC2, 0x00, 0x00, 0x01] ++ sa ++ bytesBE 2 0x8808 ++ bytesBE 2 0x0101 ++ bytesBE 2 ens
    ++ (List.range 8).flatMap (fun p => bytesBE 2 (quanta p)) ++ zeros 26)

/-- A pause frame goes into the downstream segment stream ahead of every queued frame; it is counted for each priority it names. -/
def sendPause (s : State) (c : Nat) (m : MacSect) (ens : Nat) (q : Nat) : State :=
  let f := pauseFrame m.macSa ens (fun p => if ens.testBit p then q else 0)
  let s1 := setQs s c (fun x => { x with pauseTx := x.pauseTx ++ [f] })
  let s2 := setMac s1 c (fun k => { k with pfcTx := vmapIdx (fun p v => if ens.testBit p then v + 1 else v) k.pfcTx })
  raiseC s2 Src.pauseTx c 1

/-- The set of PFC_GEN priorities a predicate holds of. -/
def genSet (m : MacSect) (p : Nat → Bool) : Nat :=
  total ((List.range 8).map (fun i => flagAt (m.pfcGen.getLsbD i && p i) i))

/-- When half the generated pause time from now has passed, at the upstream NDR of the latest SERVICE entry (R193, R195). -/
def genEnd (s : State) (c : Nat) (m : MacSect) : Option Nat :=
  some (s.datum + pauseNs m.quanta (chanAt s c).line.ndrUsSvc * nsUnit / 2)

/-- Congestion and its release after a change of channel c's upstream half (R195), while the channel serves. -/
def pauseCheck (s : State) (c : Nat) : State :=
  match (chanAt s c).tab.mac with
  | none => s
  | some m =>
    if !serving s c then s
    else
      let gen := (chanAt s c).qs.gen
      let cong := genSet m (fun p => congested s c m p)
      let fresh := genSet m (fun p => congested s c m p && !gen.getLsbD p)
      let off := total ((List.range 8).map (fun p => flagAt (gen.getLsbD p && decide (usOccupancy s c p ≤ m.xon)
        && decide (m.headroom + 36 ≤ usFree s c) && !congested s c m p) p))
      let s1 := if fresh = 0 then s else sendPause s c m cong m.quanta
      let s2 := if off = 0 then s1 else sendPause s1 c m off 0
      let gen2 := (gen ||| BitVec.ofNat 8 cong) &&& ~~~(BitVec.ofNat 8 off)
      setQs s2 c (fun x => { x with gen := gen2, genTimer := if gen2 = 0 then none else if fresh = 0 then x.genTimer else genEnd s c m })

/-! ### Storing frames -/

/-- A new frame's identity. -/
def takeId (s : State) : State := { s with xc := { s.xc with nextId := s.xc.nextId + 1 } }

/-- A frame joins queue i of channel c (0 to 7 downstream, 8 to 15 upstream). -/
def enqueue (s : State) (c i : Nat) (f : Frame) : State :=
  setQs (takeId s) c (fun q => { q with q := vset q.q i (vget q.q i [] ++ [{ f with id := s.xc.nextId, entered := s.datum }]) })

/-- A frame joins T-CONT queue q. -/
def enqueueTcont (s0 : State) (q : Nat) (f : Frame) : State :=
  let s := ponWake s0
  { s with upl := { s.upl with tcont := vset s.upl.tcont q (vget s.upl.tcont q [] ++ [{ f with entered := s.datum }]) } }

/-- A fresh frame. -/
def mkFrame (src : FrameSrc) (dest : Dest) (b : List Byte) (prio port reason : Nat) (verified : Bool) (rx : Nat) : Frame where
  id := 0
  src := src
  dest := dest
  bytes := b
  prio := BitVec.ofNat 3 prio
  entered := 0
  rxPoint := rx
  placed := 0
  planned := 0
  port := BitVec.ofNat 16 port
  reason := BitVec.ofNat 8 reason
  macsec := verified
  inReserve := false
  ts := none

/-- DEF_PCP of channel c. -/
def defPcpOf (s : State) (c : Nat) : Nat := match (chanAt s c).tab.mac with | none => 0 | some m => m.defPcp.toNat

/-- MTU of channel c. -/
def mtuOf (s : State) (c : Nat) : Nat := match (chanAt s c).tab.mac with | none => 9216 | some m => m.mtu

def countOversize (s : State) (c : Nat) : State := setMac s c (fun m => { m with oversize := m.oversize + 1 })

/-- A downstream frame (no FCS) from an XGEM port to one channel's queue PRIO: counted where the channel does not serve, the frame is oversize or its cells are not free (R97, R180, R184, R188). -/
def toChannel (s : State) (e : FlowEntry) (port c : Nat) (b : List Byte) (rx : Nat) : State :=
  let x := withFcs (vlanEdit e (defPcpOf s c) b)
  if !present s c || !serving s c then setMac s c (fun m => { m with noPath := m.noPath + 1 })
  else if mtuOf s c < x.length then countOversize s c
  else if decide (coresLeft s = 0) && (match (chanAt s c).tab.mac with | none => false | some m => m.txEn) then countBufDiscard s c
  else if cells x.length ≤ dsFree s c then
    enqueue s c (fePrio e) (mkFrame (.uplink (BitVec.ofNat 16 port)) .line x (fePrio e) port 0 false rx)
  else countBufDiscard s c

/-- A frame (no FCS) of the uplink for the host partition: MGMT_RX or EXC_RX (R180, R184). An oversize one is discarded; OVERSIZE is a register of a channel, and the uplink has none (R188, log 177). -/
def toHostPart (s : State) (exc : Bool) (port prio reason : Nat) (b : List Byte) (rx : Nat) : State :=
  let x := withFcs b
  if 9216 < x.length then s
  else if cells x.length ≤ hostFree s then
    let f := { mkFrame (.uplink (BitVec.ofNat 16 port)) (if exc then .excRx else .mgmtRx) x prio port reason false rx with
      id := s.xc.nextId, entered := s.datum }
    let s1 := takeId s
    if exc then { s1 with xc := { s1.xc with excRx := s1.xc.excRx ++ [f] } }
    else { s1 with xc := { s1.xc with mgmtRx := s1.xc.mgmtRx ++ [f] } }
  else { s with xc := { s.xc with hostDisc := s.xc.hostDisc + 1 } }

/-- The priority an untagged uplink frame has is not stated: a free value (log 21). -/
def uplPcp (s : State) (b : List Byte) : Nat := if tagged b then framePcp b 0 else (Config.freeWord s.free).toNat % 8

/-- A downstream frame (no FCS) classified by its port entry's flow index (R184); DISCARD counts in XC_NO_FLOW (log 20). A MAC control frame is never forwarded (R186, log 178). -/
def deliverDown (s : State) (idx port : Nat) (b : List Byte) (rx : Nat) : State :=
  let e := flowAt s idx
  if beAt b (etherOff b) 2 = 0x8808 then s
  else if !feValid e || feUp e then countNoFlow s
  else
    match feKind e with
    | 0 => toChannel s e port (feCh e) b rx
    | 1 => (List.range 24).foldl (fun t c => if (feMask e).testBit c then toChannel t e port c b rx else t) s
    | 2 => toHostPart (drew s) false port (uplPcp s b) 0 (vlanEdit e (uplPcp s b) b) rx
    | 3 => toHostPart (drew s) true port (uplPcp s b) 3 (vlanEdit e (uplPcp s b) b) rx
    | _ => countNoFlow s

/-! ### Upstream (R185 to R188) -/

/-- A classified upstream frame (no FCS) is stored whole in its channel's upstream half, or discarded and counted (R180, R188). -/
def storeUp (s : State) (c : Nat) (dest : Dest) (b : List Byte) (prio port reason : Nat) (verified : Bool) (rx : Nat) : State :=
  let x := withFcs b
  if 9216 < x.length then countOversize s c
  else if cells x.length ≤ usFree s c then
    pauseCheck (enqueue s c (8 + prio) (mkFrame (.line (Fin.ofNat 24 c)) dest x prio port reason verified rx)) c
  else countBufDiscard s c

/-- Classification of an upstream frame (R185); DISCARD counts in MISS_DISCARD (log 20). -/
def classifyUp (s : State) (c : Nat) (b : List Byte) (verified : Bool) (rx : Nat) : State :=
  let defPcp := defPcpOf s c
  let vid := frameVid b
  let pcp := framePcp b defPcp
  let m := (chanAt s c).tab.mac
  let l2cp := (b.take 5 == [0x01, 0x80, 0xC2, 0x00, 0x00]) && decide (beAt b 5 1 < 16)
  if l2cp && (match m with | some x => x.trapL2cp | none => false) then storeUp s c .excRx b pcp vid 2 verified rx
  else
    match upstreamEntry s c (matchVid b) pcp with
    | some e =>
      match feKind e with
      | 5 =>
        if portActive s (fePort e) then
          storeUp s c (.tcont (feTcont e)) (vlanEdit e defPcp b) pcp (fePort e) 0 verified rx
        else setMac s c (fun k => { k with noPort := k.noPort + 1 })
      | 2 => storeUp s c .rxh (vlanEdit e defPcp b) pcp vid 0 verified rx
      | 3 => storeUp s c .excRx (vlanEdit e defPcp b) pcp vid 3 verified rx
      | _ => setMac s c (fun k => { k with missDisc := k.missDisc + 1 })
    | none =>
      if (match m with | some x => x.missExc | none => false) then storeUp s c .excRx b pcp vid 1 verified rx
      else setMac s c (fun k => { k with missDisc := k.missDisc + 1 })

/-! ### Pause reception (R194) -/

/-- A pause timer set: the datum at which it ends, or none when it ends at once. -/
def pauseEnd (s : State) (c : Nat) (q : Nat) : Option Nat :=
  if q = 0 then none else some (s.datum + pauseNs q (chanAt s c).line.ndrDsSvc * nsUnit)

/-- Pause with a class-enable vector and quanta per priority. -/
def obeyPause (s : State) (c : Nat) (ens : Nat) (quanta : Nat → Nat) (named : Nat) : State :=
  let ends (p : Nat) : Option Nat := pauseEnd s c (quanta p)
  let s1 := setQs s c (fun q => { q with obey := vmapIdx (fun p v => if ens.testBit p then ends p else v) q.obey })
  let s2 := setMac s1 c (fun k => { k with pfcRx := vmapIdx (fun p v => if named.testBit p then v + 1 else v) k.pfcRx })
  raiseC s2 Src.pauseRx c 1

/-- A received MAC control frame (no FCS) is consumed (R186, R194). -/
def macControl (s : State) (c : Nat) (b : List Byte) : State :=
  match (chanAt s c).tab.mac with
  | none => s
  | some m =>
    if !serving s c then s
    else if beAt b 14 2 = 0x0101 then
      let v := beAt b 16 2 % 256
      obeyPause s c (v &&& m.pfcObey.toNat) (fun p => beAt b (18 + 2 * p) 2) v
    else if beAt b 14 2 = 0x0001 then
      if m.legacy then obeyPause s c 255 (fun _ => beAt b 16 2) 255
      else raiseC s Src.pauseRx c 1
    else s

/-- A frame (with FCS) from the framer to the frame MAC of channel c (R186, R188, R255). -/
def macReceive (s : State) (c : Nat) (x : List Byte) (rx : Nat) : State :=
  if x.length < 64 then setMac s c (fun m => { m with runt := m.runt + 1 })
  else if !fcsGood x then setMac s c (fun m => { m with fcsErr := m.fcsErr + 1 })
  else
    let b := noFcs x
    if beAt b 12 2 = 0x8808 then macControl s c b
    else
      match macIn s c b with
      | (s1, none) => s1
      | (s1, some (pt, verified)) =>
        let s2 := captureChannel s1 c pt rx
        let s3 := raiseC (setMac s2 c (fun m => { m with usFrames := m.usFrames + 1 })) Src.usFrames c 1
        classifyUp s3 c pt verified rx

/-! ### Meanings -/

/-- A frame reassembled from the line at a receive point (R185). -/
def execUpstreamFrameReceived (c : Ch) (bytes : List Byte) (rxTime : Nat) (s : State) : Host.Outcome State Fault Refusal :=
  .next (if serving s c.val then macReceive s c.val bytes rxTime else s)

/-- A pause frame (with FCS) received on channel c (R194). -/
def execPauseFrameReceived (c : Ch) (bytes : List Byte) (s : State) : Host.Outcome State Fault Refusal :=
  .next (if fcsGood bytes && beAt bytes 12 2 == 0x8808 then macControl s c.val (noFcs bytes) else s)

/-- An obeyed pause timer runs out (R194). -/
def execPauseTimerExpiry (c : Ch) (p : Fin 8) (s : State) : Host.Outcome State Fault Refusal :=
  .next (match vget (chanAt s c.val).qs.obey p.val none with
    | some t => if t ≤ s.datum then setQs s c.val (fun q => { q with obey := vset q.obey p.val none }) else s
    | none => s)

/-- Half the generated pause time has passed: the pause is sent again for the priorities that are still congested (R195). -/
def pauseRefreshOp (s : State) (c : Nat) : State :=
  match (chanAt s c).tab.mac, (chanAt s c).qs.genTimer with
  | some m, some t =>
    let ens := genSet m (fun p => (chanAt s c).qs.gen.getLsbD p && congested s c m p)
    if !serving s c || decide (s.datum < t) then s
    else
      let s1 := setQs s c (fun x => { x with genTimer := genEnd s c m })
      if ens = 0 then s1 else sendPause s1 c m ens m.quanta
  | _, _ => s

def execPauseRefreshExpiry (c : Ch) (s : State) : Host.Outcome State Fault Refusal := .next (pauseRefreshOp s c.val)

/-- The flow table's indirect port of a requester: 0 the PF, 1 firmware (R191). -/
def ftPortOf : Requester → Option Nat
  | .pf => some 0
  | .fw _ => some 1
  | .vf _ => none

/-- A port of the flow table changed by f. -/
def setFtPort (s : State) (p : Nat) (f : FtPort → FtPort) : State :=
  { s with xc := { s.xc with ports := vset s.xc.ports p (f (vget s.xc.ports p FtPort.reset)) } }

/-- OP READ into XC_FT_DATA. -/
def flowReadOp (s : State) (p : Nat) (idx : BitVec 12) : State :=
  setFtPort s p (fun x => { x with idx := idx, status := 0, data := flowAt s idx.toNat })

def execFlowTableRead (who : Requester) (idx : BitVec 12) (s : State) : Host.Outcome State Fault Refusal :=
  .next (match ftPortOf who with
    | none => s
    | some p => flowReadOp s p idx)

/-- KIND is allowed for DIR (Table 08.2). -/
def kindOk (up : Bool) (k : Nat) : Bool := if up then (2 ≤ k && k ≤ 5) else k ≤ 4

/-- An entry R183 rejects as BAD. -/
def flowBad (s : State) (e : FlowEntry) : Bool :=
  let op := bits (vget e 2 0) 31 30
  !kindOk (feUp e) (feKind e)
    || ((feUp e || decide (feKind e = 0)) && !present s (feCh e))
    || (decide (feKind e = 1) && (decide (feMask e = 0) || decide (2 ^ s.part.channels ≤ feMask e)))
    || ((op == 2 || op == 3) && decide (bits (vget e 2 0) 11 0 = 0xFFF))

/-- Two upstream entries have the same key (R183). -/
def sameKey (a b : FlowEntry) : Bool :=
  feValid b && feUp b && decide (feCh a = feCh b) && feVidAny a == feVidAny b && fePcpAny a == fePcpAny b
    && (feVidAny a || decide (feKeyVid a = feKeyVid b)) && (fePcpAny a || decide (feKeyPcp a = feKeyPcp b))

/-- Another valid upstream entry has the entry's key. -/
def flowDup (s : State) (idx : Nat) (e : FlowEntry) : Bool :=
  feUp e && feValid e && (s.xc.flow.toList.zipIdx).any (fun q => q.2 != idx && sameKey e q.1)

/-- OP WRITE from XC_FT_DATA: one step, or rejected BAD or DUP (R183). -/
def flowWriteOp (s : State) (p : Nat) (idx : BitVec 12) : State :=
  let e := (vget s.xc.ports p FtPort.reset).data
  let st (x : BitVec 2) : State := setFtPort s p (fun y => { y with idx := idx, status := x })
  if flowBad s e then st 1
  else if flowDup s idx.toNat e then st 2
  else
    let t := st 0
    { t with xc := { t.xc with flow := vset t.xc.flow idx.toNat e } }

def execFlowTableWrite (who : Requester) (idx : BitVec 12) (s : State) : Host.Outcome State Fault Refusal :=
  .next (match ftPortOf who with
    | none => s
    | some p => flowWriteOp s p idx)

/-- OP CLEAR to zeros. -/
def flowClearOp (s : State) (p : Nat) (idx : BitVec 12) : State :=
  let t := setFtPort s p (fun x => { x with idx := idx, status := 0 })
  { t with xc := { t.xc with flow := vset t.xc.flow idx.toNat (Vector.replicate 4 0) } }

def execFlowTableClear (who : Requester) (idx : BitVec 12) (s : State) : Host.Outcome State Fault Refusal :=
  .next (match ftPortOf who with
    | none => s
    | some p => flowClearOp s p idx)

end Sys2Proof.Machine
end

