-- ==== Sys2Proof/Machine/Feed.lean ====
section
/-! DEFINITION. The feed controllers and the supply log (13_supply_feed.md, R289, R296 to R305). -/

namespace Sys2Proof.Machine

open Sys2Proof

/-! ### The supply log (R289, Table 13.2) -/

/-- An entry of the supply log: the oldest of 32 is overwritten and counted. -/
def logEntry (s : State) (e : SupLog) : State :=
  let full := decide (32 ≤ s.sup.log.length)
  let s1 := { s with sup := { s.sup with
      log := (e :: s.sup.log).take 32
      written := s.sup.written + 1
      lost := if full then s.sup.lost + 1 else s.sup.lost } }
  if full then raiseC s1 Src.supplyLogLost 0xFF 1 else s1

/-- An entry with its parts; the event started at an instant with DATUM_VALID as given. -/
def supplyLog (s : State) (kind input detail : Nat) (value : Word) (start : Nat) (valid : Bool) : State :=
  logEntry s { sec := word (instSec start), ns := word (instNsPart start), value := value,
               kind := BitVec.ofNat 8 kind, input := BitVec.ofNat 8 input, detail := BitVec.ofNat 8 detail,
               flags := BitVec.ofNat 8 (flagAt (!valid) 0) }

/-- An entry of an event that starts now and whose VALUE the manual does not state: a free value (log 22). -/
def supplyNow (s : State) (kind input detail : Nat) : State :=
  supplyLog (drew s) kind input detail (Config.freeWord s.free) s.datum s.time.valid

/-! ### One controller -/

def setFeed (s : State) (c : Nat) (f : Feed → Feed) : State := setChan s c (fun k => { k with feed := f k.feed })

/-- The output's enable (R297). -/
def feedEnable (f : Feed) : Bool := f.cfg.enable && !f.holdOff && !f.bmcOff

/-- The output is switched off into a state; LOAD is NOT_MEASURED from then on (R305). -/
def feedDrop (f : Feed) (st : FeedSt) : Feed :=
  { f with state := st, gate := false, reserve := 0, load := .notMeasured, openRun := 0, pulseOk := false }

/-- The output follows its enable; LOCKED_OFF is left by UNLOCK alone (R297, R300; log 23). -/
def feedFollow (f : Feed) : Feed :=
  if f.state = .lockedOff then f
  else if !feedEnable f then (if f.state = .off then f else feedDrop f .off)
  else if f.state = .off then { f with state := .waitBudget }
  else f

/-- Declared level of CMP_FEED is LOW or INT. -/
def feedLow (s : State) : Bool :=
  match (vget s.sup.comps 2 Comp.reset).lvl with
  | .low | .int => true
  | _ => false

/-- D_eff's numerator and denominator in µs (R298). -/
def dEff (c : FeedSect) : Nat × Nat :=
  if c.stretch && decide (c.width < 64) then (7 * c.width + 64, 8 * c.period * 1000) else (c.width, c.period * 1000)

/-- The reservation an admitted output holds, in 0.1 W (R298). -/
def reservation (c : FeedSect) : Nat :=
  if c.pulsed then (c.pLim * (dEff c).1 + (dEff c).2 - 1) / (dEff c).2 else c.pLim

/-- FEED_BUDGET_OVER when the reservations stand above the budget (R298). -/
def budgetCheck (s : State) : State :=
  if s.sup.budget.toNat < feedUsed s then raise s Src.feedBudgetOver 0xFF 0 else s

/-- LOAD cannot be measured: pulses below 64 µs without stretching (R305). -/
def neverMeasured (c : FeedSect) : Bool := c.pulsed && decide (c.width < 64) && !c.stretch

/-- A feed section clamped to the host-locked maxima (R296). -/
def clampFeed (u : Sup) (c : FeedSect) : FeedSect :=
  { c with iLim := min c.iLim u.maxIlim.toNat, pLim := min c.pLim u.maxPlim.toNat }

/-- A controller with a new applied section (R296). -/
def feedApply (u : Sup) (c : FeedSect) (f : Feed) : Feed :=
  let d := clampFeed u c
  let timing := decide (d.period ≠ f.cfg.period) || decide (d.width ≠ f.cfg.width) || d.stretch != f.cfg.stretch
  let modeChange := d.pulsed != f.cfg.pulsed
  let g := { f with
    cfg := d
    clamped := decide (u.maxIlim.toNat < c.iLim) || decide (u.maxPlim.toNat < c.pLim)
    pulses := if timing || modeChange then 0 else f.pulses
    reserve := if f.reserve = 0 then 0 else reservation d }
  let g1 := if modeChange && decide (g.state ≠ .lockedOff) && decide (g.state ≠ .shed) then feedDrop g .off else g
  let g2 := feedFollow g1
  if neverMeasured d || modeChange then { g2 with load := .notMeasured, openRun := 0 } else g2

/-! ### The FEED domain (Table 14.2, R297) -/

/-- RAD, FEED and the channel domains may take power: not while TEST_EN holds them in reset (R396), not in DEEP or on the way in or out, and after step 7 of a cold power-up (Tables 14.2 and 14.8). -/
def switchable (s : State) : Bool :=
  !s.pwr.testEn && match s.pwr.state with
  | .run | .idle | .sleep | .entering => !s.pwr.cold
  | .waking => decide (s.pwr.upStep = 8)
  | _ => false

/-- Table 14.2 calls for FEED, or an access has woken it. -/
def feedWanted (s : State) : Bool :=
  s.pwr.woken.contains .feed || (List.range 24).any (fun c =>
    present s c && (feedEnable (chanAt s c).feed || decide ((chanAt s c).feed.state ≠ .off)))

/-- FEED loses its power: every switch is off; the applied section, the holds, TRIES and LOCKED_OFF stay in the AON store (R297, R307), every other register is at its reset value (log 55). -/
def feedDomainOff (f : Feed) : Feed :=
  { (if f.state = .lockedOff then f else feedDrop f .off) with
    clamped := false, last := 0, current := 0, feedin := 0, ontime := 0, gate := false, pulses := 0 }

/-- FEED switched off. -/
def feedOff (s : State) : State :=
  { s with
    pwr := { s.pwr with domFeed := false }
    chans := vmapIdx (fun _ k => { k with feed := feedDomainOff k.feed }) s.chans }

/-- FEED powers up: each enabled output restarts through WAIT_BUDGET. -/
def feedOn (s : State) : State :=
  { s with
    pwr := { s.pwr with domFeed := true }
    chans := vmapIdx (fun c k => if present s c then { k with feed := feedFollow k.feed } else k) s.chans }

/-- FEED follows Table 14.2. -/
def feedPower (s : State) : State :=
  if switchable s && feedWanted s then (if s.pwr.domFeed then s else feedOn s)
  else if s.pwr.domFeed then feedOff s else s

/-- A feed section takes effect on channel c (R296, Table 04.1). -/
def applyFeed (s : State) (c : Nat) (x : FeedSect) : State := budgetCheck (feedPower (setFeed s c (feedApply s.sup x)))

/-! ### Admission and pulses (R298, R303) -/

/-- The µs of the n-th pulse: every 8th is stretched (R303). -/
def pulseWidth (c : FeedSect) (n : Nat) : Nat := if c.stretch && decide (c.width < 64) && decide (n % 8 = 0) then 64 else c.width

/-- A pulse begins. -/
def pulseStart (f : Feed) : Feed := { f with gate := true, pulses := f.pulses + 1, pulseLen := pulseWidth f.cfg (f.pulses + 1) }

/-- Outputs in INRUSH or PAUSED. -/
def inrushCount (s : State) : Nat :=
  ((List.range 24).filter (fun c => decide ((chanAt s c).feed.state = .inrush) || decide ((chanAt s c).feed.state = .paused))).length

/-- A waiting output is admitted when its reservation fits and, for an inrush, INRUSH_MAX allows it. -/
def admitOne (s : State) (c : Nat) : State :=
  let f := (chanAt s c).feed
  let need := reservation f.cfg
  if f.state ≠ .waitBudget ∨ !present s c ∨ s.sup.budget.toNat < feedUsed s + need then s
  else if f.cfg.pulsed then
    setFeed s c (fun f => pulseStart { f with state := .pulsing, reserve := need })
  else if inrushCount s < s.sup.inrushMax.toNat then
    setFeed s c (fun f => { f with state := if feedLow s then .paused else .inrush, reserve := need, gate := true })
  else s

/-- Every 100 µs: FEEDIN measured in 10 mV, and waiting outputs admitted in channel order (R298). -/
def execFeedAdmissionTick (feedin : Half) (s : State) : Host.Outcome State Fault Refusal :=
  .next (
    if s.pwr.domFeed then
      let s1 := { s with chans := vmapIdx (fun c k => if present s c then { k with feed := { k.feed with feedin := feedin } } else k) s.chans }
      (List.range 24).foldl admitOne s1
    else s)

/-- The ramp's end (R299). -/
def execFeedRampEnd (c : Ch) (s : State) : Host.Outcome State Fault Refusal :=
  .next (if (chanAt s c.val).feed.state = .inrush then
    setFeed s c.val (fun f => { f with state := .established, gate := true }) else s)

/-- A trip (R300): latched off, TRIES, BACKOFF or LOCKED_OFF, FEED_TRIP. TRIES of a fourth trip is not stated: a free value (log 24). -/
def feedTrip (s : State) (c cause : Nat) : State :=
  let f := (chanAt s c).feed
  if f.tries = 3 then
    let s1 := setFeed (drew s) c (fun f => { feedDrop f .lockedOff with
      last := BitVec.ofNat 4 cause, tries := (Config.freeWord s.free).toNat % 4 })
    raise (raise s1 Src.feedTrip c 0) Src.feedLocked c 0
  else
    raise (setFeed s c (fun f => { feedDrop f .backoff with last := BitVec.ofNat 4 cause, tries := f.tries + 1 })) Src.feedTrip c 0

/-- SHORT: in any state with the switch on. -/
def execFeedShortTrip (c : Ch) (s : State) : Host.Outcome State Fault Refusal :=
  .next (if (chanAt s c.val).feed.gate then feedTrip s c.val 1 else s)

/-- The output is in ESTABLISHED or PULSING. -/
def feedRunning (f : Feed) : Bool := decide (f.state = .established) || decide (f.state = .pulsing)

/-- OVERLOAD: at or above I_LIM for 10 ms. -/
def execFeedOverloadTrip (c : Ch) (s : State) : Host.Outcome State Fault Refusal :=
  .next (if feedRunning (chanAt s c.val).feed then feedTrip s c.val 2 else s)

/-- POWER: at or above P_LIM for 10 ms. -/
def execFeedPowerTrip (c : Ch) (s : State) : Host.Outcome State Fault Refusal :=
  .next (if feedRunning (chanAt s c.val).feed then feedTrip s c.val 3 else s)

/-- The BACKOFF time has elapsed. -/
def execFeedBackoffExpiry (c : Ch) (s : State) : Host.Outcome State Fault Refusal :=
  .next (if (chanAt s c.val).feed.state = .backoff then setFeed s c.val (fun f => { f with state := .waitBudget }) else s)

/-- 60 s in ESTABLISHED or PULSING without a trip. -/
def execFeedTriesReset (c : Ch) (s : State) : Host.Outcome State Fault Refusal :=
  .next (if feedRunning (chanAt s c.val).feed then setFeed s c.val (fun f => { f with tries := 0 }) else s)

/-- An output still PAUSED 10 ms after the sag's LOW declaration (R301). -/
def execFeedInrushAbort (c : Ch) (s : State) : Host.Outcome State Fault Refusal :=
  .next (if (chanAt s c.val).feed.state = .paused then
    raise (setFeed s c.val (fun f => { feedDrop f .backoff with last := 4 })) Src.feedInrushInterrupted c.val 0 else s)

/-- The PF-view offset of a channel register. -/
def chanOff (c o : Nat) : Nat := 0x100000 + 0x10000 * c + o

/-- UNLOCK (R300): only the PF's write leaves LOCKED_OFF; TRIES becomes 0. -/
def feedUnlockOp (s : State) (c : Nat) : State :=
  setFeed s c (fun f => feedFollow (if f.state = .lockedOff then { feedDrop f .off with tries := 0 } else { f with tries := 0 }))

def execFeedUnlock (who : Requester) (c : Ch) (s : State) : Host.Outcome State Fault Refusal :=
  .next (match who with
    | .vf _ => s
    | .fw _ => fwDenied s (chanOff c.val 0x314)
    | .pf => if present s c.val then feedUnlockOp s c.val else s)

/-- HOLD_OFF written by firmware (R297); PCIe writes are ignored. -/
def execFeedHoldOff (who : Requester) (c : Ch) (on : Bool) (s : State) : Host.Outcome State Fault Refusal :=
  .next (if isFw who && present s c.val then feedPower (setFeed s c.val (fun f => feedFollow { f with holdOff := on })) else s)

/-- A pulse starts (R303). -/
def execFeedPulseStart (c : Ch) (s : State) : Host.Outcome State Fault Refusal :=
  .next (if (chanAt s c.val).feed.state = .pulsing then setFeed s c.val pulseStart else s)

/-- A pulse ends: its on-time is counted, and the output reports established (R303, Table 13.5). -/
def execFeedPulseEnd (c : Ch) (s : State) : Host.Outcome State Fault Refusal :=
  .next (if (chanAt s c.val).feed.state = .pulsing ∧ (chanAt s c.val).feed.gate then
    setFeed s c.val (fun f => { f with gate := false, ontime := f.ontime + word f.pulseLen, pulseOk := true }) else s)

/-- The controller gives a measured window now (R304). -/
def windowTaken (f : Feed) : Bool :=
  decide (f.state = .established)
    || (decide (f.state = .pulsing) && decide (64 ≤ f.pulseLen))

/-- A window's current, in 0.1 mA, sets LOAD and OPEN_RUN (R305). -/
def measured (f : Feed) (current : Half) : Feed :=
  if f.cfg.iOpen * 10 ≤ current.toNat then { f with current := current, load := .present, openRun := 0 }
  else if f.openRun = 7 then { f with current := current, load := .open_, openRun := 8 }
  else { f with current := current, openRun := min 8 (f.openRun + 1) }

/-- The window of the last 64 µs overlapped a declared LOW or INT of FEEDIN (R304). -/
def windowSpoiled (s : State) : Bool :=
  feedLow s || (match s.sup.feedBack with | some t => decide (s.datum < t + 64 * usUnit) | none => false)

/-- A measured window closes; one that overlapped a sag, an interruption or a trip, after which none is taken, changes nothing (R304, R305). -/
def windowCloseOp (s : State) (c : Nat) (current : Half) : State :=
  let f := (chanAt s c).feed
  if !windowTaken f || windowSpoiled s then s
  else
    let s1 := setFeed s c (fun f => measured f current)
    if f.openRun = 7 ∧ current.toNat < f.cfg.iOpen * 10 then raise s1 Src.feedOpen c 0 else s1

def execFeedWindowClose (c : Ch) (current : Half) (s : State) : Host.Outcome State Fault Refusal :=
  .next (windowCloseOp s c.val current)

/-! ### Shed and resumption (R295, R301, R302) -/

/-- An output is shed; OFF and LOCKED_OFF outputs are off already. -/
def shedOne (last : Nat) (f : Feed) : Feed :=
  match f.state with
  | .off | .lockedOff | .shed => f
  | _ => { feedDrop f .shed with last := BitVec.ofNat 4 last }

/-- Every output is shed and one FEED_SHED entry is logged; its INPUT is not stated: a free value (log 22). -/
def shedAll (s : State) (last detail : Nat) : State :=
  let s1 := { s with chans := vmapIdx (fun _ k => { k with feed := shedOne last k.feed }) s.chans }
  let s2 := supplyNow (drew s1) 7 ((Config.freeWord s.free).toNat % 256) detail
  raise s2 Src.feedShed 0xFF (word detail)

/-- The shed cause has cleared. -/
def unshed (s : State) : State :=
  { s with chans := vmapIdx (fun _ k =>
      { k with feed := if k.feed.state = .shed then feedFollow { k.feed with state := .waitBudget } else k.feed }) s.chans }

/-- A sag: every output in INRUSH pauses (R301). -/
def pauseInrush (s : State) : State :=
  { s with chans := vmapIdx (fun _ k =>
      { k with feed := { k.feed with state := if k.feed.state = .inrush then .paused else k.feed.state } }) s.chans }

/-- The sag is over: every paused output resumes its ramp. -/
def resumeInrush (s : State) : State :=
  { s with chans := vmapIdx (fun _ k =>
      { k with feed := { k.feed with state := if k.feed.state = .paused then .inrush else k.feed.state } }) s.chans }

end Sys2Proof.Machine
end

