-- ==== Sys2Proof/Machine/Rings.lean ====
section
/-! DEFINITION. Doorbells, fetching, records, creating and destroying rings, interrupts and the configuration-space commands (02_host_port.md). -/

namespace Sys2Proof.Machine

open Sys2Proof

/-! ### Doorbells (R39, R43) -/

/-- The ring a doorbell offset names for a requester, or none for a reserved or unused offset. -/
def doorbellRing (who : Requester) (off : Nat) : Option Nat :=
  if off % 8 ≠ 0 then none
  else
    let i := (off % 0x1000) / 8
    match who with
    | .fw _ => none
    | .vf c => if off < 0x1000 ∧ i < 6 then some (chRing c.val i) else none
    | .pf =>
      let page := off / 0x1000
      if page = 0 then (if i < 16 then some i else none)
      else if page ≤ 24 ∧ i < 6 then some (chRing (page - 1) i)
      else none

/-- The requester is the function that owns ring r. -/
def ownsRing (s : State) (who : Requester) (r : Nat) : Bool := ringOwner s r == reqFn who

/-- A doorbell value passes both checks of R43. -/
def doorbellOk (g : Ring) (r : Nat) (v : Word) : Bool :=
  if hostWritten r then decide ((v - (g.cpl + 1)).toNat ≤ g.size) && !precedes v g.tail
  else decide ((g.cpl + 1 - v).toNat ≤ g.size) && !precedes v g.head

/-- DOORBELL_FAULT of ring r. -/
def doorbellFault (s : State) (r : Nat) : State := raise s Src.doorbellFault 0xFF (word r)

/-- A doorbell value at the ring it names. -/
def doorbellAt (s : State) (r : Nat) (v : Word) : State :=
  let g := ringAt s r
  if !g.enable || !doorbellOk g r v then
    doorbellFault (setRing s r (fun g => { g with dbErr := true })) r
  else if hostWritten r then
    if v = g.tail then s
    else
      let s1 := setRing s r (fun g => { g with tail := v, bmDue := true, bmGate := true })
      let s2 := if r = 3 ∨ r = 6 then ponWake s1 else s1
      if isRxRing r then s2 else leaveSleep s2
  else if v = g.head then s
  else setRing s r (fun g => { g with head := v, bmDue := true })

/-- What a doorbell reads (R39): T or H of the ring it names, 0 where it names none. -/
def doorbellImage (s : State) (who : Requester) (off : Nat) : Word :=
  match doorbellRing who off with
  | none => 0
  | some r => if !ringOnPart s r then 0 else if hostWritten r then (ringAt s r).tail else (ringAt s r).head

/-- A doorbell value written at an offset (R39, R43). -/
def doorbellWrite (s : State) (who : Requester) (off : Nat) (v : Word) : State :=
  match doorbellRing who off with
  | none => s
  | some r => if !ringOnPart s r || !ownsRing s who r then doorbellFault s r else doorbellAt s r v

/-- A doorbell write, or a read (R39, R43); a request to a function in D3hot or without Memory Space Enable is not served, and a write served in ENTERING abandons the entry (R313); while TEST_EN is high nothing is answered (R396). -/
def execDoorbell (who : Requester) (off : BitVec 18) (v : Option Word) (s : State) : Host.Outcome State Fault Refusal :=
  .next (
    if isFw who || s.pwr.testEn then s
    else if !barServes s who then refuseAccess s who off.toNat
    else
      match v with
      | none => emitOut s (.doorbellAnswer who off.toNat (doorbellImage s who off.toNat))
      | some x => doorbellWrite (hostWrote s) who off.toNat x)

/-! ### Fetching (R46, R72, R73, Table 02.4) -/

/-- Service classes: 0 express, 1 control, 2 bulk. -/
def ringClass (r : Nat) : Nat :=
  if 16 ≤ r ∧ (r - 16) % 6 = 0 then 0 else if r = 0 ∨ r = 9 ∨ (16 ≤ r ∧ (r - 16) % 6 = 3) then 1 else 2

/-- Posted descriptors not yet fetched. -/
def untaken (g : Ring) : Nat := (g.tail - (g.acc + 1)).toNat

/-- Descriptors may be fetched on ring r at all: the ledger is ACTIVE, nothing has stopped fetching, and the ring's owner may issue requests (R72, R76 to R79, Table 02.10). -/
def fetchOpen (s : State) (r : Nat) : Bool :=
  let g := ringAt s r
  hostWritten r && g.enable && decide (g.state ≠ .recovering) && g.fetch.isNone && g.refetch.isNone && decide (ledgerState s = 1)
    && !s.hif.fetchStop && s.ledger.enable && mayMaster s (ringOwner s r)

/-- New descriptors of the ring may be fetched now. -/
def mayFetch (s : State) (r : Nat) : Bool :=
  let g := ringAt s r
  fetchOpen s r && !g.halted && decide (g.state = .active ∨ g.state = .stalledRecord) && decide (untaken g ≠ 0) && !g.bmGate

/-- The first accepted descriptor of ring r that is to be fetched again from its slot (R56, Table 03.5). -/
def toRefetch (s : State) (r : Nat) : Option Work :=
  (ringAt s r).work.find? (fun w => decide (w.stage = .wantDesc) && w.ret.isNone && (journalOf s r w.seq).isNone)

/-- A descriptor of accepted work may be fetched again now; a HALTED ring's may too. -/
def mayRefetch (s : State) (r : Nat) : Bool := fetchOpen s r && (toRefetch s r).isSome

/-- The ring may be granted a fetch now. -/
def mayGrant (s : State) (r : Nat) : Bool := mayFetch s r || mayRefetch s r

/-- The first ring after a cursor, cyclically, that a predicate holds of. -/
def nextAfter (cursor : Nat) (p : Nat → Bool) : Option Nat :=
  ((List.range 160).map (fun i => (cursor + 1 + i) % 160)).find? p

/-- The arbiter's grant: express, then control, then bulk, each by round robin. -/
def grant (s : State) : Option Nat :=
  match nextAfter s.hif.rrExpress (fun r => ringClass r == 0 && mayGrant s r) with
  | some r => some r
  | none =>
    match nextAfter s.hif.rrControl (fun r => ringClass r == 1 && mayGrant s r) with
    | some r => some r
    | none => nextAfter s.hif.rrBulk (fun r => ringClass r == 2 && mayGrant s r)

/-- Descriptors of one fetch: the class's count, never past T and never past the last slot. -/
def fetchCount (g : Ring) (r : Nat) : Nat :=
  min (if ringClass r = 0 then 1 else 8) (min (untaken g) (g.size - (g.acc + 1).toNat % g.size))

/-- The ring's fetch halts (R56, Table 02.10). A write-back ring that holds a record stays in STALLED_RECORD, with HALTED set, until the record is written (DESIGN CHOICE, log 156). -/
def haltRing (s : State) (r : Nat) : State :=
  setRing s r (fun g => { g with halted := true, state := if g.state = .stalledRecord then .stalledRecord else .halted, fetch := none })

/-- The class's cursor after a grant. -/
def moveCursor (s : State) (r : Nat) : State :=
  { s with hif := match ringClass r with
      | 0 => { s.hif with rrExpress := r }
      | 1 => { s.hif with rrControl := r }
      | _ => { s.hif with rrBulk := r } }

/-- New descriptors of ring r are fetched, or its fetch halts on a window fault. -/
def fetchNew (s : State) (r : Nat) : State :=
  let g := ringAt s r
  let n := fetchCount g r
  let addr := slotAddr g (g.acc + 1)
  if inWindows s (ringOwner s r) false addr (32 * n) then
    sendRead (setRing s r (fun g => { g with fetch := some (g.acc + 1, n) })) (ringOwner s r) addr (32 * n)
  else ringWindowFault (haltRing s r) r addr

/-- A re-fetch that failed: the work is returned with a status; a receive buffer, which stays accepted in every row of Table 03.5, keeps waiting for its descriptor (log 122). -/
def refetchFailed (s : State) (r : Nat) (seq : Word) (st : Status) : State :=
  if isRxRing r then s else returnWork s r seq st

/-- The descriptor of one piece of accepted work is fetched again from its slot (R56). -/
def fetchAgain (s : State) (r : Nat) (w : Work) : State :=
  let addr := slotAddr (ringAt s r) w.seq
  if inWindows s (ringOwner s r) false addr 32 then
    sendRead (setRing s r (fun g => { g with refetch := some w.seq })) (ringOwner s r) addr 32
  else refetchFailed (ringWindowFault s r addr) r w.seq .retWindow

/-- The arbiter grants one fetch (R46, Table 02.4): a descriptor of accepted work is fetched again before new ones. -/
def descriptorFetchOp (s : State) : State :=
  match grant s with
  | none => s
  | some r =>
    let s1 := moveCursor s r
    match toRefetch s r with
    | some w => fetchAgain s1 r w
    | none => fetchNew s1 r

def execDescriptorFetch (s : State) : Host.Outcome State Fault Refusal := .next (descriptorFetchOp s)

/-- The opcode is allowed on the ring (Table 02.7 and the command chapters). -/
def opcodeAllowed (r : Nat) (op : Nat) : Bool :=
  if op = 0x0001 then r == 3 || r == 6 || (decide (16 ≤ r) && decide ((r - 16) % 6 < 2))
  else if op = 0x0002 then isRxRing r
  else if op = 0x0003 then r == 7
  else if op = 0x0004 then isTribRing r
  else if 0x0010 ≤ op ∧ op ≤ 0x001E then r == 9
  else if op = 0x0100 ∨ op = 0x0101 ∨ op = 0x0110 ∨ op = 0x0111 then isCmdRing r
  else if op = 0x0120 ∨ (0x0130 ≤ op ∧ op ≤ 0x0134) then r == 0
  else false

/-- A descriptor's 32 bytes read by Table 02.5. -/
def parseDesc (b : List Byte) : Desc where
  seq := word (leAt b 0 4)
  opcode := BitVec.ofNat 16 (leAt b 4 2)
  flags := BitVec.ofNat 16 (leAt b 6 2)
  addr := BitVec.ofNat 64 (leAt b 8 8)
  len := word (leAt b 16 4)
  p0 := word (leAt b 20 4)
  p1 := word (leAt b 24 4)
  cookie := word (leAt b 28 4)

/-- A fetch's bytes as its descriptors, in slot order; the first argument is their number. -/
def parseDescs : Nat → List Byte → List Desc
  | 0, _ => []
  | n + 1, b => parseDesc (b.take 32) :: parseDescs n (b.drop 32)

/-- The work can go nowhere: a transmit or transmit TRIB descriptor fetched while its channel is outside SERVICE and ECONOMY (R97). -/
def noPathAt (s : State) (r : Nat) (d : Desc) : Bool :=
  match ringChan r with
  | none => false
  | some c => (decide ((r - 16) % 6 < 2) || (isTribRing r && !d.flags.getLsbD 2)) && !serving s c

/-- The return a fetched descriptor meets at sequence n, in order: a wrong SEQ, an opcode its ring does not take, no path (R50, R63, R97). -/
def fetchReturn (s : State) (r : Nat) (n : Word) (d : Desc) : Option Outcome :=
  if d.seq ≠ n then some (Outcome.of .retSeq 0 0)
  else if !opcodeAllowed r d.opcode.toNat then some (Outcome.of .retOpcode 0 0)
  else if noPathAt s r d then some (Outcome.of .retNoPath 0 0)
  else none

/-- One fetched descriptor is accepted: A passes it (R63). -/
def acceptOne (s : State) (r : Nat) (d : Desc) : State :=
  setRing s r (fun g => { g with
    acc := g.acc + 1
    seqErr := g.seqErr || d.seq != g.acc + 1
    work := g.work ++ [{ seq := g.acc + 1, d := d, at_ := s.datum, stage := .accepted, ret := fetchReturn s r (g.acc + 1) d
                         recov := false, refetch := false, issued := false, reserve := false }] })

/-- A fetch of accepted work's descriptor completes (R56, R62): the descriptor stands again, a wrong SEQ returns the work. -/
def refetchDone (s : State) (r : Nat) (seq : Word) (res : XferResult) (data : List Byte) : State :=
  let s1 := setRing s r (fun g => { g with refetch := none })
  match toRefetch s r with
  | none => s1
  | some w =>
    if w.seq ≠ seq then s1
    else if res = .ok then
      if data.length ≠ 32 then s
      else if (parseDesc data).seq = seq then setWork s1 r seq (fun w => { w with d := parseDesc data, stage := .accepted })
      else refetchFailed (setRing s1 r (fun g => { g with seqErr := true })) r seq .retSeq
    else
      refetchFailed (latchFault (setRing s1 r (fun g => { g with dmaErr := true })) (xferKind res) r (ringOwner s r)
        (slotAddr (ringAt s r) seq)) r seq .retDma

/-- A fetch of new descriptors completes (R56, R62, R63). -/
def fetchDone (s : State) (r : Nat) (first : Word) (n : Nat) (res : XferResult) (data : List Byte) : State :=
  if res = .ok then
    if data.length = 32 * n then (parseDescs n data).foldl (fun t d => acceptOne t r d) (setRing s r (fun g => { g with fetch := none }))
    else s
  else
    let s1 := setRing (haltRing s r) r (fun g => { g with dmaErr := true })
    raise (latchFault s1 (xferKind res) r (ringOwner s r) (slotAddr (ringAt s r) first)) Src.dmaFault 0xFF (word r)

/-- A fetch in flight completes. -/
def fetchCompleteOp (s : State) (r : Nat) (res : XferResult) (data : List Byte) : State :=
  match (ringAt s r).refetch, (ringAt s r).fetch with
  | some seq, _ => refetchDone s r seq res data
  | none, some (first, n) => fetchDone s r first n res data
  | none, none => s

/-- A fetch of up to 8 descriptors completes with their bytes. -/
def execDescriptorFetchComplete (r : RingNo) (res : XferResult) (data : List Byte) (s : State) :
    Host.Outcome State Fault Refusal :=
  if 256 < data.length then .fault .illFormed else .next (fetchCompleteOp s r.val res data)

/-- RING_STAT.HALTED written 1 (R56): fetching resumes at A + 1. -/
def haltedClear (s : State) (r : Nat) : State :=
  setRing s r (fun g => if g.halted then { g with halted := false, state := if g.state = .halted then .active else g.state } else g)

/-- The requester reaches ring r's registers (R375). -/
def reachesRing (who : Requester) (r : Nat) : Bool :=
  match who with
  | .vf c => ringChan r == some c.val
  | _ => true

def execRingHaltedClear (who : Requester) (r : RingNo) (s : State) : Host.Outcome State Fault Refusal :=
  .next (if reachesRing who r.val && ringOnPart s r.val then haltedClear s r.val else s)

/-! ### Creating and removing rings (R38, R51 to R53) -/

/-- A ring's counters and state at creation (R40). -/
def freshRing (g : Ring) : Ring :=
  { g with
    enable := true, tail := 0, head := 0, acc := 0xFFFFFFFF, cpl := 0xFFFFFFFF, state := .active, halted := false,
    work := [], fetch := none, refetch := none, unacked := [], lost := [], early := [], winHeld := false, modCnt := 0 }

/-- The change of ENABLE that a RING_CFG write of ring 0 or 1 asks for takes effect (R51). -/
def enableTaken (s : State) (r : Nat) (on : Bool) : Bool :=
  let g0 := ringAt s 0
  let g1 := ringAt s 1
  if on then (r != 0 || g1.enable)
  else (g0.acc == g0.cpl) && (r != 1 || !g0.enable)

/-- RING_CFG of ring 0 or 1 (R51). -/
def ringCfgOp (s : State) (r : RingNo) (v : Word) : State :=
  let g := ringAt s r.val
  let on := bitOf v 31
  let en := if on == g.enable then g.enable else if enableTaken s r.val on then on else g.enable
  let l := bits v 12 8
  let s1 := setRing s r.val (fun g =>
    { g with
      vector := BitVec.ofNat 8 (bits v 23 16)
      log2 := if !g.enable && !en && decide (6 ≤ l) && decide (l ≤ 16) then BitVec.ofNat 5 l else g.log2 })
  if en == g.enable then s1
  else if en then writeBench (setRing (unissue s1 [r]) r.val freshRing) r
  else writeBench (setRing s1 r.val (fun g => { g with enable := false, state := .disabled, halted := false, fetch := none, refetch := none })) r

def execRingCfgWrite (who : Requester) (r : Fin 2) (v : Word) (s : State) : Host.Outcome State Fault Refusal :=
  .next (if reachesAll who then ringCfgOp s (Fin.ofNat 160 r.val) v else s)

/-- Who runs a command: the rings' own commands need no processor, block commands wait for one (R330, R340), and without an image the boot monitor serves FW_STAGE and FW_ACTIVATE (R337). -/
def cmdServed (s : State) (op : Nat) : Bool :=
  decide (op < 0x0102) || cpServes s || (s.fw.noImage && s.pwr.domCore && (op == 0x0130 || op == 0x0131))

/-- A command accepted on a command ring, with its opcode, that has no outcome yet and may have one formed now. -/
def cmdWork (s : State) (r : Nat) (seq : Word) (op : Nat) : Option Work :=
  match workOpen s r seq with
  | none => none
  | some w =>
    if w.d.opcode.toNat = op ∧ w.stage ≠ .wantDesc ∧ isCmdRing r ∧ cmdServed s op ∧ journalRoom s ∧ (ringAt s r).state ≠ .recovering then some w else none

/-- The issuing ring may create or destroy ring n (R52, R53). -/
def mayCreate (issuer n : Nat) : Bool :=
  if issuer = 0 then decide (2 ≤ n) && decide (n < 160)
  else decide (issuer - 3 ≤ n) && (n == issuer - 3 || n == issuer - 2 || n == issuer - 1 || n == issuer + 2)

/-- The directions in which the terminal accesses a ring's memory. -/
def ringMemOpen (s : State) (n addr len : Nat) : Bool :=
  let f := ringOwner s n
  (if hostWritten n then inWindows s f false addr len else true)
    && (if ringKind n = 0 then true else inWindows s f true addr len)

/-- The status a CREATE_RING is returned with, in the order of R52; none: it executes. -/
def createStatus (s : State) (issuer : Nat) (d : Desc) : Option Status :=
  let n := bits d.p0 7 0
  let l := bits d.p0 12 8
  let vec := bits d.p1 7 0
  let g := ringAt s n
  if !ringOnPart s n then some .retAbsent
  else if !mayCreate issuer n then some .retDenied
  else if (recordRing n ≠ n ∧ !(ringAt s (recordRing n)).enable) ∨ d.addr.toNat % 4096 ≠ 0 ∨ l < 6 ∨ 16 < l
      ∨ (vec ≠ 0xFF ∧ (if ringOwner s n = 0 then 64 else 4) ≤ vec) then some .retParam
  else if (g.enable ∧ !bitOf d.p0 16) ∨ (bitOf d.p0 16 ∧ hostWritten n ∧ g.acc ≠ g.cpl) then some .retBusy
  else if !ringMemOpen s n d.addr.toNat (32 * 2 ^ l) then some .retWindow
  else none

/-- A ring as CREATE_RING sets it. -/
def createdRing (s : State) (d : Desc) (g : Ring) : Ring :=
  let n := bits d.p0 7 0
  let vec := bits d.p1 7 0
  { freshRing g with
    base := BitVec.ofNat 52 (d.addr.toNat / 4096)
    log2 := BitVec.ofNat 5 (bits d.p0 12 8)
    vector := if vec = 0xFF then defaultVector n (ringOwner s n != 0) else BitVec.ofNat 8 vec
    lifetime := if isTxRing n then BitVec.ofNat 16 (bits d.p1 31 16) else 0 }

/-- The benchmark record of a creation or destruction can be written now, as the change takes effect (R73); without a ledger in use none is due. -/
def benchReady (s : State) : Bool := !ledgerLive s || mayMaster s 0

/-- A ring that is not enabled still holds accepted work whose outcomes are not written; creating it again waits for them, since no accepted work is discarded (R65; DEDUCED, log 157). -/
def outcomesOwed (g : Ring) : Bool := !g.enable && decide (g.work ≠ [])

/-- A TRIB ring created anew: blocks of the ring that was destroyed are forgotten, since their numbers come again (R169). -/
def forgetBlocks (s : State) (n : Nat) : State :=
  match ringChan n with
  | some c =>
    if isTribRing n then setFr s c (fun f => { f with tribTx := Vector.replicate 4 [], tribRx := Vector.replicate 4 none }) else s
  | none => s

def createRingOp (s : State) (r : RingNo) (seq : Word) : State :=
  match cmdWork s r.val seq 0x0100 with
  | none => s
  | some w =>
    match createStatus s r.val w.d with
    | some st => returnWork s r.val seq st
    | none =>
      let n := bits w.d.p0 7 0
      if !benchReady s || outcomesOwed (ringAt s n) then s
      else
        let s1 := forgetBlocks (setRing (unissue s [Fin.ofNat 160 n]) n (createdRing s w.d)) n
        emitWork (writeBench s1 (Fin.ofNat 160 n)) r seq (Outcome.of .ok 0 0)

def execCreateRing (r : RingNo) (seq : Word) (s : State) : Host.Outcome State Fault Refusal :=
  .next (createRingOp s r seq)

/-- A submission ring paired with completion ring n exists. -/
def pairedExists (s : State) (n : Nat) : Bool :=
  (List.range 160).any (fun x => x != n && recordRing x == n && (ringAt s x).enable)

def destroyStatus (s : State) (issuer : Nat) (d : Desc) : Option Status :=
  let n := bits d.p0 7 0
  if !ringOnPart s n then some .retAbsent
  else if !mayCreate issuer n then some .retDenied
  else if !(ringAt s n).enable ∨ (ringKind n = 2 ∧ pairedExists s n) then some .retBusy
  else none

/-- The frame in progress leaves the channel before any byte of it was placed. -/
def Queues.dropCur (q : Queues) (p : Frame → Bool) : Queues :=
  match q.cur with
  | some f => if p f && decide (f.placed = 0) then { q with cur := none, plain := [], overrunArmed := false } else q
  | none => q

/-- Every queue of a channel kept to the frames a predicate holds of. -/
def Queues.keep (q : Queues) (p : Frame → Bool) : Queues := { q with q := vmapIdx (fun _ l => l.filter p) q.q }

/-- Frames of which nothing has been sent and that a predicate holds of leave every transmit queue; the frame being placed in a DTU stream or sent in fragments stays (R205, log 12). -/
def dropQueued (s : State) (p : Frame → Bool) : State :=
  let stays (f : Frame) : Bool := !p f || decide (f.placed ≠ 0)
  { s with
    chans := vmapIdx (fun _ k => { k with qs := (k.qs.keep stays).dropCur p }) s.chans
    upl := { s.upl with tcont := vmapIdx (fun _ l => l.filter stays) s.upl.tcont } }

/-- A frame ended early: what was placed of it, closed with its FCS inverted. It belongs to no work and no counter. -/
def endedFrame (f : Frame) : Frame :=
  { f with src := .pause, bytes := f.bytes.take f.placed ++ (bytesLE 4 (crc32 (f.bytes.take f.placed))).map (fun x => ~~~x) }

/-- The frame in progress cannot be finished: it is ended with its FCS inverted, or is gone where none of it was placed. -/
def Queues.endCur (q : Queues) (p : Frame → Bool) : Queues :=
  match q.cur with
  | some f => if !p f then q else if f.placed = 0 then { q with cur := none, plain := [], overrunArmed := false } else { q with cur := some (endedFrame f) }
  | none => q

/-- Frames that a predicate holds of leave every transmit queue; one partly placed in a DTU stream is ended, and the rest of one partly sent in bursts is not sent, so that none takes effect. -/
def dropSent (s : State) (p : Frame → Bool) : State :=
  { s with
    chans := vmapIdx (fun _ k => { k with qs := (k.qs.keep (fun f => !p f)).endCur p }) s.chans
    upl := { s.upl with tcont := vmapIdx (fun _ l => l.filter (fun f => !p f)) s.upl.tcont } }

/-- A frame carries work of ring r. -/
def frameOfRing (r : Nat) (f : Frame) : Bool :=
  match f.src with
  | .work x _ => x.val == r
  | _ => false

/-- A frame carries the work with a sequence number of ring r and some of its bytes are already placed. -/
def placedWork (r : Nat) (seq : Word) (f : Frame) : Bool :=
  (match f.src with | .work x q => x.val == r && q == seq | _ => false) && decide (f.placed ≠ 0)

/-- Work whose frame is already being placed in the DTU stream or sent in fragments (R205). -/
def beingPlaced (s : State) (r : Nat) (seq : Word) : Bool :=
  s.chans.toList.any (fun k => match k.qs.cur with
    | some f => placedWork r seq f
    | none => false)
  || s.upl.tcont.toList.any (fun q => q.any (placedWork r seq))

/-- Every accepted, unexecuted descriptor of ring n is returned with a status, in order (R53). -/
def returnOpen (s : State) (n : Nat) (st : Status) : State :=
  (ringAt s n).work.foldl (fun t w => returnWork t n w.seq st) s

/-- A frame of ring r whose work is not past its emission point. -/
def unsentOfRing (s : State) (r : Nat) (f : Frame) : Bool :=
  match f.src with
  | .work x q => x.val == r && (journalOf s r q).isNone
  | _ => false

/-- The radio gives up a frame of RAD_TX that has not passed its emission point. -/
def dropRadio (s : State) (n : Nat) : State :=
  match s.rad.tx with
  | some t => if n = 7 ∧ (journalOf s 7 t.seq).isNone then { s with rad := { s.rad with tx := none } } else s
  | none => s

/-- A channel's part of `dropBlocks`. -/
def Chan.dropBlocks (k : Chan) (trib : Bool) (n : Nat) (kept : Word → Bool) : Chan :=
  { k with
    tab := { k.tab with cmds := k.tab.cmds.filter (fun x => x.ring.val != n) }
    fr := if trib then { k.fr with tribTx := vmapIdx (fun _ l => l.filter (fun x => kept x.1)) k.fr.tribTx, tribRx := Vector.replicate 4 none } else k.fr }

/-- Work of ring n that a block still holds and that has not passed its emission point is given up there: table refreshes, SEC operations, tributary blocks. -/
def dropBlocks (s : State) (n : Nat) : State :=
  { s with
    chans := vmapIdx (fun c k => k.dropBlocks (chRing c 5 == n) n (fun q => (journalOf s n q).isSome)) s.chans
    sec := { s.sec with ops := s.sec.ops.filter (fun o => match o.src with | .host _ => n != 9 | .fw _ => true) } }

def destroyRingOp (s : State) (r : RingNo) (seq : Word) : State :=
  match cmdWork s r.val seq 0x0101 with
  | none => s
  | some w =>
    match destroyStatus s r.val w.d with
    | some st => returnWork s r.val seq st
    | none =>
      let n := bits w.d.p0 7 0
      if !benchReady s then s
      else
        let s1 := dropBlocks (dropSent (dropRadio (returnOpen s n .retDestroyed) n) (unsentOfRing s n)) n
        let s2 := setRing s1 n (fun g => { g with enable := false, state := .disabled, halted := false, fetch := none, refetch := none })
        emitWork (writeBench s2 (Fin.ofNat 160 n)) r seq (Outcome.of .ok 0 0)

def execDestroyRing (r : RingNo) (seq : Word) (s : State) : Host.Outcome State Fault Refusal :=
  .next (destroyRingOp s r seq)

/-! ### Records written and acknowledged (R58, R68) -/

/-- The record of ring r's next outcome, or for ring 2 the next event record; on ring 1 a RECOVERY_DONE to be written again (R68). A seal has stopped records but those it writes itself (R78 step 1). -/
def recordWriteOp (s : State) (r : Nat) : State :=
  if frozen s then s
  else if r = 2 then tryEvent s
  else if r = 1 then
    match (ringAt s 1).lost with
    | x :: _ => if decide (x.src = .recoveryDone) && mayMaster s 0 && decide ((ringAt s 1).state ≠ .recovering) then rewriteLost s 1 else s
    | [] => s
  else if hostWritten r then tryRecord s r else s

def execRecordWrite (r : RingNo) (s : State) : Host.Outcome State Fault Refusal := .next (recordWriteOp s r.val)

/-- The outcome of work is acknowledged: C passes it, its journal entry frees, and a receive buffer or block passes its emission point (R66 to R68). -/
def ackWork (s : State) (r : Nat) (seq : Word) : State :=
  let executedNow := (journalOf s r seq).isNone &&
    (match findWork (ringAt s r) seq with
     | some w => match w.ret with
       | some o => decide (o.status = .ok)
       | none => false
     | none => false)
  let s1 := setRing s r (fun g => { g with
      cpl := seq
      work := g.work.filter (fun w => w.seq != seq)
      emitted := if executedNow then g.emitted + 1 else g.emitted
      bmDue := true })
  { s1 with journal := s1.journal.filter (fun j => !(j.ring.val == r && j.seq == seq)) }

/-- The first issued event record leaves the store. -/
def dropIssued : List EvRec → List EvRec
  | [] => []
  | e :: t => if e.issued then t else e :: dropIssued t

/-- The oldest unacknowledged record of ring q is acknowledged: what it completes, and W past its slot (R68). -/
def recordAckOp (s : State) (q : Nat) : State :=
  match (ringAt s q).unacked with
  | [] => s
  | x :: rest =>
    let s1 := setRing s q (fun g => { g with unacked := rest })
    let advance (t : State) : State := setRing t q (fun g => ackSlot g x.slot)
    match x.src with
    | .work r seq =>
      let s2 := ackWork s1 r.val seq
      let s3 := if r.val = q then s2 else advance s2
      match s3.pwr.entryReq with
      | some (n, toOff) => if r.val = 0 ∧ seq = n then beginEntering s3 toOff else s3
      | none => s3
    | .event => advance { s1 with evt := { s1.evt with store := dropIssued s1.evt.store } }
    | .recoveryDone => advance s1

/-- MOD_TIME has passed since the first counting record or occurrence (R59, R368). -/
def modTimeOp (s : State) (m : ModSrc) : State :=
  match m with
  | .ring r =>
    if (ringAt s r.val).modCnt = 0 then s
    else sendMsix (setRing s r.val (fun g => { g with modCnt := 0 })) (ringOwner s r.val, (ringAt s r.val).vector.toNat)
  | .pfVec v =>
    if vget s.evt.vecCnt v.val 0 = 0 then s
    else sendMsix { s with evt := { s.evt with vecCnt := vset s.evt.vecCnt v.val 0 } } (0, 7 + v.val)
  | .chVec c =>
    if vget s.evt.chCnt c.val 0 = 0 then s
    else sendMsix { s with evt := { s.evt with chCnt := vset s.evt.chCnt c.val 0 } } (chVector s c.val)

def execModTimeExpiry (m : ModSrc) (s : State) : Host.Outcome State Fault Refusal := .next (modTimeOp s m)

/-! ### Configuration-space and access commands (R14, R35, R38, R62, R313, R416) -/

/-- What configuration space reads at a function (Table 02.1, R416): Vendor ID, Device ID, class code, Interrupt Pin, which reads 0 since MSI-X alone is offered, and the Revision ID of the profile in force (Table 15.8). -/
structure ConfigId where
  vendor : Nat
  device : Nat
  classCode : Nat
  intPin : Nat
  revision : Nat
  deriving DecidableEq, Repr

/-- The identity of function f: the PF, or a VF (Table 02.1, R416). -/
def configId (s : State) (f : Nat) : ConfigId where
  vendor := 0x1F6B
  device := match s.part, decide (f = 0) with
    | .gnx2400, true => 0x2400
    | .gnx2400, false => 0x2480
    | .gnx1200, true => 0x1200
    | .gnx1200, false => 0x1280
  classCode := 0x028000
  intPin := 0
  revision := if s.glb.inForce = 1 then 0x01 else 0x03

/-- Vectors pending in a function's PBA that may now be sent are sent, lowest first. -/
def sendPending (s : State) (f : Nat) : State :=
  let g := vget s.hif.funcs f (Func.reset 0)
  (List.range 64).foldl (fun t v =>
    if g.pba.getLsbD v then
      sendMsix (setFunc t f (fun x => { x with pba := x.pba &&& ~~~(BitVec.ofNat 64 (2 ^ v)) })) (f, v)
    else t) s

/-- Max Payload Size and Max Read Request Size take the codes Table 02.1 lists; another code leaves the size as it was (log 159). They are the PF's, and every request obeys them. -/
def setSizes (s : State) (dc : DevCtl) : State :=
  { s with hif := { s.hif with
      mps256 := if dc.mps = 0 then false else if dc.mps = 1 then true else s.hif.mps256
      mrrs := if dc.mrrs = 0 then 0 else if dc.mrrs = 1 then 1 else if dc.mrrs = 2 then 2 else s.hif.mrrs } }

/-- One waiting ledger transfer is made with its record's or header's present content. -/
def makeWaiting (s : State) (x : LXfer) : State :=
  match x with
  | .bench r => writeBench s r
  | .hdrA => writeHdr s false
  | .hdrB => writeHdr s true
  | .spill => ledgerWrite s .spill 0x5200 (spillBytes s)
  | .adoptRead => ledgerWait s .adoptRead

/-- Ledger transfers that waited for the PF to master the bus are made in their order (Table 02.10). -/
def flushWaiting (s : State) : State :=
  if mayMaster s 0 then s.ledger.waiting.foldl makeWaiting { s with ledger := { s.ledger with waiting := [] } } else s

/-- Bus Master Enable of a function changes, with Device Control as configuration software has set it; set again, messages and ledger transfers held resume (Table 02.10). -/
def execBusMasterEnableChange (f : Fn) (dc : DevCtl) (s : State) : Host.Outcome State Fault Refusal :=
  .next (
    let s1 := setFunc s f.val (fun x => { x with bme := dc.bme, cto := dc.cto, ctoOff := dc.ctoOff })
    let s2 := if f.val = 0 then setSizes s1 dc else s1
    if !configServed s then s
    else if dc.bme then flushWaiting (sendPending s2 f.val) else s2)

/-- Memory Space Enable of a function changes (Table 02.10). -/
def execMemorySpaceEnableChange (f : Fn) (on : Bool) (s : State) : Host.Outcome State Fault Refusal :=
  .next (if configServed s then setFunc s f.val (fun x => { x with mse := on }) else s)

/-- VF Enable and NumVFs take new values: the rings whose owner changes take the new owner's default vector (R38), and a VF that ceases to exist loses its configuration space. -/
def setVfs (s : State) (enable : Bool) (numVfs : Half) : State :=
  let s1 := { s with hif := { s.hif with vfEnable := enable, numVfs := numVfs } }
  let s2 := mapRings s1 (fun r g =>
    if ringOwner s r = ringOwner s1 r then g else { g with vector := defaultVector r (ringOwner s1 r != 0) })
  { s2 with hif := { s2.hif with funcs := vmapIdx (fun f x =>
      if 1 ≤ f ∧ vfOn s (f - 1) ∧ !vfOn s1 (f - 1) then Func.reset 4 else x) s2.hif.funcs } }

/-- A host write of VF Enable or NumVFs (R38). -/
def execVfEnableWrite (enable : Bool) (numVfs : Half) (s : State) : Host.Outcome State Fault Refusal :=
  .next (if configServed s then setVfs s enable numVfs else s)

/-- A function moves between D0 and D3hot; a return to D0 in ENTERING abandons the entry (R313). -/
def execConfigPowerStateWrite (f : Fn) (d3hot : Bool) (s : State) : Host.Outcome State Fault Refusal :=
  .next (let was := (vget s.hif.funcs f.val (Func.reset 0)).d3hot
    let s1 := setFunc s f.val (fun x => { x with d3hot := d3hot })
    if !configServed s then s else if was && !d3hot then abandonEntry s1 else s1)

/-- An access that is not an aligned 32-bit access: an unsupported request (R14), which AER reports (Table 02.1). -/
def execUnsupportedAccessWidth (who : Requester) (_bar2 : Bool) (off : BitVec 22) (s : State) :
    Host.Outcome State Fault Refusal :=
  .next (if s.pwr.testEn then s else refuseAccess s who off.toNat)

/-- A poisoned write is discarded and reported through AER (Table 02.10). -/
def execPoisonedWrite (f : Fn) (_bar2 : Bool) (_off : BitVec 22) (s : State) : Host.Outcome State Fault Refusal :=
  .next (if s.pwr.testEn then s else aerReport s f.val 12)

end Sys2Proof.Machine
end

