-- ==== Sys2Proof/Machine/TabRead.lean ====
section
/-! DEFINITION. Requesting and reading a channel-table entry (04_channel_table.md, R85 to R92): requests, the three read phases' issue, and failed reads. -/

namespace Sys2Proof.Machine

open Sys2Proof

/-- Host address of an offset in entry c (R85). -/
def entryAddr (s : State) (c off : Nat) : Nat := s.chtabBase.toNat * 4096 + 0x800 * c + off

/-- The channel-table side of channel c changed by f. -/
def mapTab (s : State) (c : Nat) (f : ChTab → ChTab) : State := setChan s c (fun k => { k with tab := f k.tab })

/-- The waiting CH_REFRESH commands of a channel are returned with a status. -/
def returnRefreshes (s : State) (c : Nat) (st : Status) : State :=
  let s1 := mapTab s c (fun t => { t with cmds := [] })
  (chanAt s c).tab.cmds.foldl (fun t x => returnWork t x.ring.val x.seq st) s1

/-- A read failed (R92): READ_ERR, CHTAB_FAULT, waiting commands returned, and a retry to follow. -/
def readFailed (s : State) (c : Nat) (st : Status) : State :=
  let s1 := mapTab s c (fun t => { t with readErr := true, phase := .waitError })
  returnRefreshes (raise s1 Src.chtabFault c 0) c st

/-- A table read outside the windows (R56, R92). -/
def readWindowFault (s : State) (c addr : Nat) : State :=
  readFailed (raise (latchFault s 0 0xFD 0 addr) Src.windowFault 0xFF (word (0xFFFFFF00 + c))) c .retWindow

/-- One phase's read is checked and issued. -/
def issuePhase (s : State) (c off len : Nat) (p : ReadPhase) : State :=
  let a := entryAddr s c off
  if inWindows s 0 false a len then sendRead (mapTab s c (fun t => { t with phase := p })) 0 a len
  else readWindowFault s c a

/-- A read of entry c begins with GEN_LAST when the table is enabled, a request waits, none is in progress and the PF may master the bus; the requests waiting then are served by it (R88, R90). -/
def beginRead (s : State) (c : Nat) : State :=
  let t := (chanAt s c).tab
  if s.chtabEn && t.pend && present s c && mayMaster s 0 then
    issuePhase (mapTab s c (fun t => { t with served := true, cmds := t.cmds.map (fun x => { x with served := true }) }))
      c 0x7FC 4 .last
  else s

/-- Reading has not begun, or begins again. -/
def readIdle (t : ChTab) : Bool := decide (t.phase = .idle)

/-- A refresh of channel c is requested (R90). -/
def requestRefresh (s : State) (c : Nat) : State :=
  if present s c then
    let s1 := mapTab s c (fun t => { t with pend := true, served := false })
    if readIdle (chanAt s c).tab then beginRead s1 c else s1
  else s

/-- A refresh of every channel in a list. -/
def requestAll (s : State) (l : List Nat) : State := l.foldl requestRefresh s

end Sys2Proof.Machine
end

