-- ==== Sys2Proof/Machine/Ledger.lean ====
section
/-! DEFINITION. The ledger's enable, close, adoption and retry, and recovery's settlement and end (03_accepted_work.md). -/

namespace Sys2Proof.Machine

open Sys2Proof

/-! ### Enable, close and the writes' acknowledgement -/

/-- The ledger is OFF: not in use and no enable or adoption under way. -/
def ledgerOff (s : State) : Bool := !s.ledger.active && !s.ledger.enable && !s.ledger.adopting && !s.ledger.closing

/-- A fresh ledger: every record, then both headers RUNNING (R417). -/
def ledgerFresh (s : State) : State :=
  let s1 := { s with ledger := { s.ledger with
      enable := true, adopting := false, closing := false, sealed := false, sealState := .running,
      failed := s.ledger.failed.filter (fun x => x != .adoptRead), waiting := [],
      spillCount := 0, spillCheck := 0, sealCount := 0 } }
  writeHeaders (writeBenches s1 (partRings s1))

def execLedgerEnable (who : Requester) (s : State) : Host.Outcome State Fault Refusal :=
  .next (if reachesAll who && ledgerOff s then ledgerFresh s else s)

/-- Every host-written ring has A = C and the journal is empty (R77). -/
def ledgerSettled (s : State) : Bool :=
  decide (s.journal = []) && allRings.all (fun r => !hostWritten r.val || (ringAt s r.val).acc == (ringAt s r.val).cpl)

/-- A close takes effect when every ring is settled, whatever the ledger's state but an adoption under way; STATE keeps the value it held (R77). -/
def ledgerCloseOp (s : State) : State :=
  if s.ledger.enable && !s.ledger.adopting && ledgerSettled s then
    writeHeaders { s with ledger := { s.ledger with
      closeAs := BitVec.ofNat 3 (ledgerState s), active := true, enable := false, closing := true, sealState := .closed } }
  else s

def execLedgerClose (who : Requester) (s : State) : Host.Outcome State Fault Refusal :=
  .next (if reachesAll who then ledgerCloseOp s else s)

/-- Both header writes of a close have been carried out. -/
def headersDone (s : State) : Bool :=
  (s.ledger.inFlight ++ s.ledger.failed ++ s.ledger.waiting).all (fun x => x != .hdrA && x != .hdrB)

/-- Every write of an enable has been acknowledged: ACTIVE (R417); both header writes of a close: OFF, and no write follows (R77). -/
def writesAckOp (s : State) : State :=
  if s.ledger.closing then
    if headersDone s then
      { s with ledger := { s.ledger with active := false, closing := false, sealed := false, inFlight := [], failed := [], waiting := [] } }
    else s
  else if ledgerQuiet s && s.ledger.enable && !s.ledger.active && !s.ledger.adopting then
    { s with ledger := { s.ledger with active := true } }
  else s

def execLedgerWritesAcknowledged (s : State) : Host.Outcome State Fault Refusal := .next (writesAckOp s)

/-- A due benchmark record is written (R73). -/
def execBenchmarkRecordWrite (r : RingNo) (s : State) : Host.Outcome State Fault Refusal :=
  .next (if (ringAt s r.val).bmDue && mayMaster s 0 && !frozen s then writeBench s r else s)

/-- The ledger offset a transfer's fault is latched at. -/
def xferOff (s : State) : LXfer → Nat
  | .bench r => benchOff ((ringAt s r.val).gen.toNat % 2 == 1) r.val
  | .hdrA => hdrOff false
  | .hdrB => hdrOff true
  | .adoptRead => 0
  | .spill => 0x5200

/-- A ledger transfer in flight completes (R56, R76): one that had failed has then been carried out; a failure during the seal leaves its host part incomplete (R292), and success lets the seal go on. -/
def ledgerXferOp (s : State) (x : LXfer) (res : XferResult) : State :=
  if s.ledger.inFlight.contains x then
    let rest := eraseFirst (fun y => y == x) s.ledger.inFlight
    let s1 := { s with ledger := { s.ledger with inFlight := rest } }
    if res = .ok then
      sealAdvance (if rest.contains x then s1 else
        { s1 with ledger := { s1.ledger with failed := s1.ledger.failed.filter (fun y => y != x) } })
    else
      ledgerFault (latchFault s1 (xferKind res) 0xFE 0 (ledgAddr s (xferOff s x))) x (x == .adoptRead)
  else s

def execLedgerTransferComplete (x : LXfer) (res : XferResult) (s : State) : Host.Outcome State Fault Refusal :=
  .next (ledgerXferOp s x res)

/-! ### Adoption (R74, R75, R82, R83) -/

/-- A closed byte list's last four bytes match the CRC-32C of the rest. -/
def closureOk (b : List Byte) (n : Nat) : Bool := b.length == n && leAt b (n - 4) 4 == crc32c (b.take (n - 4))

/-- A header is valid (R74). -/
def hdrValid (b : List Byte) : Bool := closureOk b 256 && leAt b 0 4 == 0x4744454C && leAt b 4 2 == 1

/-- A record is valid at position r (R74). -/
def recValid (b : List Byte) (r : Nat) : Bool := closureOk b 64 && leAt b 0 2 == r

/-- The valid one with the later generation of two copies (R75, R82). -/
def laterOf (a b : List Byte) (va vb : Bool) (genOff : Nat) : Option (List Byte) :=
  match va, vb with
  | false, false => none
  | true, false => some a
  | false, true => some b
  | true, true => if precedes (word (leAt a genOff 4)) (word (leAt b genOff 4)) then some b else some a

/-- A selected record can re-create its ring (R82 step 2). -/
def recUsable (s : State) (b : List Byte) (r : Nat) : Bool :=
  ringOnPart s r && leAt b 2 1 == ringKind r && decide (6 ≤ leAt b 3 1) && decide (leAt b 3 1 ≤ 16)
    && leAt b 8 8 % 4096 == 0

/-- The ring a record re-creates. -/
def ringFromRec (g : Ring) (r : Nat) (b : List Byte) : Ring :=
  let hw := hostWritten r
  { freshRing g with
    base := BitVec.ofNat 52 (leAt b 8 8 / 4096)
    log2 := BitVec.ofNat 5 (leAt b 3 1)
    vector := BitVec.ofNat 8 (leAt b 38 1)
    modTime := BitVec.ofNat 16 (leAt b 42 2)
    modCount := BitVec.ofNat 16 (leAt b 40 2)
    lifetime := BitVec.ofNat 16 (leAt b 46 2)
    tail := if hw then word (leAt b 16 4) else 0
    head := if hw then 0 else word (leAt b 16 4)
    acc := if hw then word (leAt b 20 4) else 0xFFFFFFFF
    cpl := word (leAt b 24 4)
    emitted := word (leAt b 28 4)
    gen := word (leAt b 4 4) }

/-- The valid record of ring r with the later GEN (R75). -/
def selected (img : LedgerImage) (r : RingNo) : Option (List Byte) :=
  let a := (img.recsA[r.val]?).getD []
  let b := (img.recsB[r.val]?).getD []
  laterOf a b (recValid a r.val) (recValid b r.val) 4

/-- The selected record's ring is re-created (R82 step 2). -/
def recreates (s : State) (img : LedgerImage) (r : RingNo) : Bool :=
  match selected img r with
  | none => false
  | some x => leAt x 44 1 % 2 == 1 && recUsable s x r.val

/-- Ring r's record is lost: neither copy is valid though one holds a non-zero byte, or the selected one cannot be used (R75, R82 step 2). -/
def recordLost (s : State) (img : LedgerImage) (r : RingNo) : Bool :=
  match selected img r with
  | none => !(((img.recsA[r.val]?).getD []).all (fun x => x == 0) && ((img.recsB[r.val]?).getD []).all (fun x => x == 0))
  | some x => leAt x 44 1 % 2 == 1 && !recUsable s x r.val

/-- One ring's records judged: its ring is re-created, its GEN kept, or its record lost. -/
def adoptRing (img : LedgerImage) (s : State) (r : RingNo) : State :=
  if recordLost s img r then
    raise { s with ledger := { s.ledger with recordLost := true } } Src.ledgerFault 0xFF (word r.val)
  else
    match selected img r with
    | none => s
    | some x =>
      if recreates s img r then setRing s r.val (fun g => ringFromRec g r.val x)
      else if ringOnPart s r.val then setRing s r.val (fun g => { g with gen := word (leAt x 4 4) })
      else s

/-- The sequence numbers after `first` up to `last`, at most n of them. -/
def seqsFrom : Nat → Word → Word → List Word
  | 0, _, _ => []
  | n + 1, first, last => if first = last then [] else (first + 1) :: seqsFrom n (first + 1) last

/-- The descriptor the adoption fetched again for a ring and sequence number; none where the fetch failed. -/
def refetched (img : LedgerImage) (r : RingNo) (n : Word) : Option Desc :=
  match img.tribs.find? (fun t => t.1 == r && t.2.1 == n) with
  | none => none
  | some t => t.2.2.map parseDesc

/-- A descriptor of which POWER-ON left only the sequence number: its cookie is not known to the terminal, so it is a free value, and its outcome counts as IRQ = 1 (R59). -/
def lostDesc (n : Word) (free : Nat) : Desc :=
  { seq := n, opcode := 0, flags := 1, addr := 0, len := 0, p0 := 0, p1 := 0, cookie := Config.freeWord free }

/-- Accepted work the adoption found joins its ring. -/
def adoptAdd (s : State) (r : RingNo) (n : Word) (d : Desc) (st : Stage) (ret : Option Outcome) : State :=
  setRing s r.val (fun g => { g with work := g.work ++ [{ seq := n, d := d, at_ := s.datum, stage := st, ret := ret,
                                                          recov := true, refetch := false, issued := false, reserve := false }] })

/-- Work that is not carried over: RET_RESET, or OUTCOME_UNCERTAIN beyond the guarantee (R83, Table 03.5). -/
def adoptLost (invalid : Bool) (r : RingNo) (s : State) (n : Word) : State :=
  adoptAdd (drew s) r n (lostDesc n s.free) .accepted (some (Outcome.of (if invalid then .outcomeUncertain else .retReset) 0 0))

/-- A TRIB descriptor is fetched again to learn its direction: a receive block stays accepted, and one outside the windows, not fetched, or of another direction is settled as transmit work (R54, R82 step 4). -/
def adoptTrib (img : LedgerImage) (invalid : Bool) (r : RingNo) (s : State) (n : Word) : State :=
  let f := ringOwner s r.val
  let a := slotAddr (ringAt s r.val) n
  if !inWindows s f false a 32 then adoptLost invalid r (ringWindowFault s r.val a) n
  else
    let s1 := sendRead s f a 32
    match refetched img r n with
    | some d => if d.seq == n && d.flags.getLsbD 2 then adoptAdd s1 r n d .accepted none else adoptLost invalid r s1 n
    | none => adoptLost invalid r s1 n

/-- One piece of accepted work found by adoption: a receive buffer stays, its descriptor to be fetched again once fetching resumes (log 122); all else follows R82 steps 4 to 6 and R83. -/
def adoptWork (img : LedgerImage) (invalid : Bool) (r : RingNo) (s : State) (n : Word) : State :=
  if isRxRing r.val then adoptAdd (drew s) r n (lostDesc n s.free) .wantDesc none
  else if isTribRing r.val then adoptTrib img invalid r s n
  else adoptLost invalid r s n

/-- The accepted work of one re-created host-written ring, from its selected record (R82, R83). -/
def adoptRingWork (img : LedgerImage) (invalid : Bool) (s : State) (r : RingNo) : State :=
  let g := ringAt s r.val
  let last := if invalid && !isRxRing r.val then g.tail - 1 else g.acc
  let s1 := setRing s r.val (fun g => { g with acc := last })
  (seqsFrom g.size g.cpl last).foldl (adoptWork img invalid r) s1

/-- A spilled outcome record becomes the outcome of its work again; one of work that is not outstanding says nothing new (R82 step 5). -/
def adoptSpilled (s : State) (b : List Byte) : State :=
  let r : RingNo := Fin.ofNat 160 (leAt b 6 1)
  let n : Word := word (leAt b 8 4)
  let st : Status := if leAt b 4 2 = 1 then .verifyFailed else .ok
  let o : Outcome :=
    { status := st, len := word (leAt b 12 4), res0 := word (leAt b 24 4), res1 := word (leAt b 28 4)
      ts := some ((leAt b 20 2 * 1000000000 + leAt b 16 4) * nsUnit, (leAt b 7 1).testBit 2) }
  if (findWork (ringAt s r.val) n).isNone ∨ (journalOf s r.val n).isSome then s
  else
    let s1 := setWork s r.val n (fun w => { w with ret := none, stage := .sent, d := { w.d with cookie := word (leAt b 0 4) } })
    { s1 with journal := s1.journal ++ [{ ring := r, seq := n, out := o }] }

/-- A list cut into pieces of n. -/
def chunks (n : Nat) : Nat → List Byte → List (List Byte)
  | 0, _ => []
  | k + 1, l => if l = [] then [] else l.take n :: chunks n k (l.drop n)

/-- The adoption's reads are in: the ledger is adopted, or created fresh when no header is valid (R82, R83). -/
def adoptNow (s : State) (img : LedgerImage) : State :=
  match laterOf img.hdrA img.hdrB (hdrValid img.hdrA) (hdrValid img.hdrB) 16 with
  | none => ledgerFresh s
  | some h =>
    let sealCode := leAt h 24 1
    let count := leAt h 26 2
    let spill := img.spill.take (32 * count)
    let spillOk := sealCode == 2 && decide (count ≤ 256) && leAt h 28 4 == crc32c spill
    let invalid := !(sealCode == 3 || spillOk)
    let s1 := { s with ledger := { s.ledger with
        enable := true, adopting := false, active := true, sealed := false, sealState := .running
        failed := s.ledger.failed.filter (fun x => x != .adoptRead), waiting := []
        epoch := word (leAt h 20 4), hdrGen := word (leAt h 16 4), sealCount := word (leAt h 32 4)
        spillCount := 0, spillCheck := 0
        foreign_ := s.ledger.foreign_ || decide (leAt h 8 8 ≠ s.glb.unitId.toNat)
        sealInvalid := s.ledger.sealInvalid || invalid } }
    let s2 := if invalid then raise s1 Src.sealInvalid 0xFF 0 else s1
    let s3 := allRings.foldl (adoptRing img) s2
    let s4 := (allRings.filter (fun r => recreates s2 img r && hostWritten r.val)).foldl (adoptRingWork img invalid) s3
    let s5 := if spillOk then (chunks 32 count spill).foldl adoptSpilled s4 else s4
    startRecovery s5 (allRings.filter (fun r => (ringAt s5 r.val).enable)) 0x04 0xFF false [] []

/-- The adoption's read of the whole ledger is made; it waits while the PF may not master the bus, or fails and is held (R76, Table 02.10). -/
def adoptRead (s : State) (res : XferResult) (img : LedgerImage) : State :=
  let s0 := { s with ledger := { s.ledger with enable := true, adopting := true } }
  if !mayMaster s 0 then ledgerWait s0 .adoptRead
  else if !inWindows s 0 false (ledgAddr s 0) 0x7200 then
    ledgerFault (raise (latchFault s0 0 0xFE 0 (ledgAddr s 0)) Src.windowFault 0xFF 0xFFFFFFFE) .adoptRead true
  else
    let s1 := sendRead s0 0 (ledgAddr s 0) 0x7200
    if res = .ok then adoptNow s1 img
    else ledgerFault (latchFault s1 (xferKind res) 0xFE 0 (ledgAddr s 0)) .adoptRead true

/-- The shapes of a ledger image. -/
def imageOk (img : LedgerImage) : Bool := img.wf

def execLedgerAdopt (who : Requester) (res : XferResult) (img : LedgerImage) (s : State) :
    Host.Outcome State Fault Refusal :=
  if res = .ok ∧ ledgerOff s ∧ !imageOk img then .fault .illFormed
  else .next (if reachesAll who && ledgerOff s then adoptRead s res img else s)

/-- One failed transfer tried again with current content (R76 step 3): a benchmark record goes to the copy of its present GEN, which does not rise again for the retry (DESIGN CHOICE, log 160). -/
def retryOne (res : XferResult) (img : LedgerImage) (s : State) (x : LXfer) : State :=
  match x with
  | .bench r => ledgerWrite s x (xferOff s x) (benchBytes s r.val)
  | .hdrA => ledgerWrite s x (hdrOff false) (hdrBytes s)
  | .hdrB => ledgerWrite s x (hdrOff true) (hdrBytes s)
  | .spill => ledgerWrite s x 0x5200 (spillBytes s)
  | .adoptRead => adoptRead s res img

/-- The failed transfers that no retry has in flight, and an adoption's read that waits, are tried; a transfer stays failed, and the ledger HELD, until it has been carried out (R76 step 4). -/
def retryDue (l : Ledger) : List LXfer :=
  l.failed.filter (fun x => !l.inFlight.contains x) ++ (if l.waiting.contains .adoptRead then [.adoptRead] else [])

def ledgerRetryOp (s : State) (res : XferResult) (img : LedgerImage) : State :=
  if mayMaster s 0 && !s.sup.sealing then (retryDue s.ledger).foldl (retryOne res img) s else s

def execLedgerRetry (res : XferResult) (img : LedgerImage) (s : State) : Host.Outcome State Fault Refusal :=
  if res = .ok ∧ (retryDue s.ledger).contains .adoptRead ∧ !imageOk img then .fault .illFormed
  else .next (ledgerRetryOp s res img)

/-! ### Recovery (R79, R80, Table 03.5) -/

/-- Frames a reset left undelivered on a receive ring are counted (R66). -/
def countRxLost (s : State) (r n : Nat) : State :=
  if n = 0 then s
  else
    match ringChan r with
    | some c => raiseC (setChan s c (fun k => { k with mac := { k.mac with rxLost := k.mac.rxLost + word n } })) Src.rxLostReset c n
    | none => raiseC { s with xc := { s.xc with rxLost := s.xc.rxLost + word n } } Src.rxLostReset 0xFF n

/-- A receive buffer whose frame was placed and not delivered. -/
def filledBuffer (r : Nat) (w : Work) : Bool :=
  isRxRing r && (match w.ret with | some o => decide (o.status = .ok) | none => false)

/-- The work is a receive block of a TRIB ring (R169: FLAGS bit 2). -/
def isRxTrib (r : Nat) (w : Work) : Bool := isTribRing r && w.d.flags.getLsbD 2

/-- An executed outcome of a receive buffer or block whose record was not acknowledged is withdrawn; a return stands (R66). -/
def undelivered : Option Outcome → Option Outcome
  | some o => if o.status = .ok then none else some o
  | none => none

/-- The outcome of expired work: RET_EXPIRED, in P1 RET_NO_PATH with RESULT1 bit 30 (R70, Table 15.8). -/
def expiredOutcome (s : State) : Outcome :=
  if isP1 s then Outcome.of .retNoPath 0 (word (2 ^ 30)) else Outcome.of .retExpired 0 0

/-- Work due for replay after its LIFETIME has run out is returned (R70). -/
def replayRet (s : State) (r : Nat) (w : Work) : Option Outcome :=
  if lifeOver s r w then some (expiredOutcome s) else none

/-- A recovery that settles work as a reset does: causes 0x01 to 0x03, and 0x13 after the core domains were off. -/
def resets (v : Recovery) : Bool := v.cause == 0x01 || v.cause == 0x02 || v.cause == 0x03 || v.lossy

/-- The work has been taken up by its queue or core: a frame or block in a queue, an operation running, or a table refresh that waits for its read. -/
def takenUp (s : State) (r : Nat) (w : Work) : Bool :=
  match w.stage with
  | .queued | .emitted | .sent => true
  | _ => (List.range 24).any (fun c => (chanAt s c).tab.cmds.any (fun x => x.ring.val == r && x.seq == w.seq))

/-- Work marked for replay: its descriptor is fetched again from its slot, and its buffer after it, unless its LIFETIME has run out; a buffer whose read had begun is then read a second time (R56, R70, R182, Table 03.5). -/
def replayed (s : State) (r : Nat) (w : Work) : Work :=
  { w with stage := .wantDesc, reserve := false, refetch := w.refetch || decide (w.stage = .reading), ret := replayRet s r w }

/-- One piece of accepted work settled by Table 03.5. -/
def settleWork (s : State) (v : Recovery) (r : Nat) (w : Work) : Work :=
  let w1 := { w with recov := true }
  if (journalOf s r w.seq).isSome then w1
  else if isRxRing r || isRxTrib r w then (if resets v then { w1 with ret := undelivered w.ret } else w1)
  else if w.ret.isSome then w1
  else if v.lossy && r == 9 then replayed s r w1
  else if v.lossy || v.cause == 0x03 then { w1 with ret := some (Outcome.of .retReset 0 0) }
  else if v.cause == 0x02 && !takenUp s r w then replayed s r w1
  else w1

/-- A record to be written again completes work that still has its outcome. -/
def stillStands (s : State) (x : Issued) : Bool :=
  match x.src with
  | .work r n =>
    match findWork (ringAt s r.val) n with
    | some w => w.ret.isSome || (journalOf s r.val n).isSome
    | none => false
  | _ => true

/-- A ring of the scope settled, with its undelivered frames counted; the record of a withdrawn delivery is not written again (R66). -/
def settleRing (v : Recovery) (s : State) (r : RingNo) : State :=
  let n := ((ringAt s r.val).work.filter (fun w => filledBuffer r.val w)).length
  let s1 := if resets v then countRxLost s r.val n else s
  let s2 := setRing s1 r.val (fun g => { g with work := g.work.map (settleWork s v r.val) })
  setRing s2 r.val (fun g => { g with lost := g.lost.filter (stillStands s2) })

/-- The source of the event record that describes a cause (R365). -/
def causeSource (cause : Nat) : Nat :=
  match cause with
  | 0x01 => Src.deviceReset
  | 0x02 => Src.functionReset
  | 0x03 => Src.channelReset
  | 0x04 => Src.ledgerAdopted
  | 0x10 => Src.gcmCoreFail
  | 0x11 => Src.bufBankRetired
  | 0x12 => Src.cpReset
  | _ => Src.sealDone

/-- The scope of that event: the channel for a CHANNEL reset, else the whole terminal. -/
def causeScope (v : Recovery) : Nat := if v.cause = 0x03 then v.chan.toNat else 0xFF

/-- A DEVICE reset is over once its work is settled with the link up (R20, log 161). -/
def endReset (v : Recovery) (s : State) : State :=
  if v.cause = 0x01 && s.hif.linkUp then { s with glb := { s.glb with inReset := false } } else s

/-- Settlement, epoch, benchmark records and headers of one recovery, and the event record of a reset or an adoption; the events of the other causes were raised where their causes struck (R79). -/
def settleOne (s : State) (v : Recovery) : State :=
  let s0 := if s.hif.linkUp then s else unissue s v.scope
  let s1 := v.scope.foldl (settleRing v) s0
  let s2 := { s1 with ledger := { s1.ledger with epoch := s1.ledger.epoch + 1 } }
  let s3 := endReset v (writeHeaders (writeBenches s2 (v.scope.filter (fun r => (ringAt s2 r.val).enable))))
  if v.cause.toNat ≤ 4 then raise s3 (causeSource v.cause.toNat) (causeScope v) (word v.cause.toNat) else s3

/-- A record in flight belongs to a scope: it lies on one of its rings, or completes work of one. -/
def ofScope (scope : List RingNo) (q : Nat) (x : Issued) : Bool :=
  scope.any (fun r => r.val == q) || (match x.src with | .work r _ => scope.contains r | _ => false)

/-- Every record issued for the rings of a scope is acknowledged, or the link is down (R79). -/
def scopeQuiet (s : State) (scope : List RingNo) : Bool :=
  !s.hif.linkUp || allRings.all (fun q => (ringAt s q.val).unacked.all (fun x => !ofScope scope q.val x))

/-- The recovery can settle now: its requests are acknowledged, and its ledger writes can be made. -/
def maySettle (s : State) (v : Recovery) : Bool :=
  !v.settled && scopeQuiet s v.scope && !frozen s && benchReady s

/-- The first recovery that can settle does; one that waits for its own rings keeps no other waiting (R21). -/
def settleFirst (s : State) : List Recovery → List Recovery → State
  | _, [] => s
  | done, v :: rest =>
    if maySettle s v then { settleOne s v with recov := done ++ { v with settled := true } :: rest }
    else settleFirst s (done ++ [v]) rest

def execRecoverySettle (s : State) : Host.Outcome State Fault Refusal := .next (settleFirst s [] s.recov)

/-- Rings of a scope that exist. -/
def scopeSize (s : State) (v : Recovery) : Nat := (v.scope.filter (fun r => (ringAt s r.val).enable)).length

/-- The RECOVERY_DONE record (R80). -/
def recoveryDoneBytes (s : State) (v : Recovery) (phase : Nat) : List Byte :=
  recordBytes s 1 0xFFFFFFFF 0
    { status := .ok, len := 0, res0 := word (v.cause.toNat + 256 * v.chan.toNat), res1 := word (scopeSize s v), ts := none }
    false phase

/-- The event record of a cause still waits to be written (R81). -/
def causeWaits (s : State) (v : Recovery) : Bool :=
  s.evt.store.any (fun e => !e.issued && e.source == causeSource v.cause.toNat
    && e.scope == BitVec.ofNat 8 (causeScope v))

/-- The rings of an ended recovery become ACTIVE, unless a later recovery holds them (R79). -/
def activate (s : State) (v : Recovery) (rest : List Recovery) : State :=
  mapRings s (fun r g =>
    if v.scope.any (fun x => x.val == r) && !rest.any (fun u => u.scope.any (fun x => x.val == r)) && g.enable then
      { g with state := .active, halted := false }
    else g)

/-- The oldest recovery that has settled, once its cause's event record is written, and the others (R80, R81): those that wait for ring 1 end in the order they were started. -/
def nextDone (s : State) : List Recovery → List Recovery → Option (Recovery × List Recovery)
  | _, [] => none
  | before_, v :: rest =>
    if v.settled then (if causeWaits s v then none else some (v, before_.reverse ++ rest)) else nextDone s (v :: before_) rest

/-- RECOVERY_DONE (R80, R81): it takes the next slot of ring 1, behind any that hold records to be written again. -/
def recoveryDoneOp (s : State) : State :=
  match nextDone s [] s.recov with
  | none => s
  | some (v, rest) =>
    let g := ringAt s 1
    let n := nextRecord g
    let addr := slotAddr g n
    if !g.enable || !mayMaster s 0 || frozen s then s
    else if !slotFree g n then holdRecord s 1 addr false
    else if !inWindows s 0 true addr 32 then holdRecord s 1 addr true
    else
      let s1 := issueRecord s 1 addr { src := .recoveryDone, slot := n, bytes := recoveryDoneBytes s v (phaseBit g.log2.toNat n), irq := true }
      let s2 := activate { s1 with recov := rest } v rest
      let s3 := v.cmds.foldl (fun t x => endEmission t x.1.val x.2 id) s2
      requestAll s3 v.refresh

def execRecoveryDone (s : State) : Host.Outcome State Fault Refusal := .next (recoveryDoneOp s)

end Sys2Proof.Machine
end

