-- ==== Sys2Proof/Machine/Stream.lean ====
section
/-! DEFINITION. The layout of a TDD frame: slots, coded bits, codewords, information bytes, tributary positions and the line driver's enable (06_line_signal.md R132, R133, R135; 07_line_framing.md R154, R155, R166). -/

namespace Sys2Proof.Machine

open Sys2Proof

/-! ### Slots (R135) -/

/-- A TDD frame, 500 µs. -/
def frameUnit : Nat := 500000 * nsUnit

/-- The start of slot k after its frame's boundary: 8,640 sample periods of 1/829.44 MHz each. -/
def slotOffset (k : Nat) : Nat := 31250 * nsUnit * k / 3

/-- Downstream and upstream data slots. -/
def slotsDs (l : Line) : Nat := l.latMds
def slotsUs (l : Line) : Nat := 46 - l.latMds

/-- What a slot of the frame is for. -/
inductive SlotUse where
  | sync | down | gap | up
  deriving DecidableEq, Repr

def slotUse (l : Line) (k : Nat) : SlotUse :=
  if k = 0 then .sync else if k ≤ l.latMds then .down else if k = l.latMds + 1 then .gap else .up

/-- The frame boundary at or before the present instant, for a TDD_PHASE; FRAME_CNT of the frame that holds an instant. -/
def frameStart (t phase : Nat) : Nat := t - (t + frameUnit - phase * nsUnit % frameUnit) % frameUnit
def frameCount (t phase : Nat) : Nat := ((instNs t - phase) / 500000) % 65536

/-! ### The line driver (R132) -/

/-- The driver is used: training past QUIET, or service. -/
def drvUsed (k : Chan) : Bool :=
  match k.tab.state with
  | .train => decide (k.line.phase ≠ 0)
  | .service | .economy => true
  | _ => false

/-- DRV_EN_n is high at an instant after a boundary, in thirds of a nanosecond: from 1.000 µs before slot 0 to 1.000 µs after the end of slot M_ds. -/
def drvHigh (l : Line) (thirds : Nat) : Bool := decide (thirds < 31250 * (l.latMds + 1) + 3000) || decide (3 * 499000 ≤ thirds)

/-- The level of DRV_EN_n now. -/
def drvEn (s : State) (c : Nat) : Bool :=
  let k := chanAt s c
  drvUsed k && drvHigh k.line (3 * (s.datum - frameStart s.datum k.line.latPhase) / nsUnit)

/-! ### Tones (R133, R135, R154) -/

/-- Bits of a table, and of its tones 22 to 1,023. -/
def toneSum (ts : List Tone) : Nat := total (ts.map (fun t => t.bits))
def econSum (ts : List Tone) : Nat := toneSum ((ts.take 1024).drop 22)

/-- B: the loaded bits per symbol of a direction, over the tones of the profile in use. -/
def useBits (econ : Bool) (ts : List Tone) : Nat := if econ then econSum ts else toneSum ts

/-- A tone is in the profile in use. -/
def toneInUse (l : Line) (t : Nat) : Bool := !l.econ || (decide (22 ≤ t) && decide (t ≤ 1023))

/-- A tone may carry energy under the line section (R133). -/
def tonePlanned (l : LineSect) (t : Nat) : Bool :=
  decide (22 ≤ t) && decide (t ≤ 3963) && decide (t ≤ l.toneHi)
    && !l.notches.any (fun n => n.enable && decide (n.start ≤ t) && decide (t ≤ n.stop))

/-- A line section's values where no section has ever been accepted (log 14). -/
def LineSect.zero : LineSect where
  marginTgt := 0
  fextRes := 0
  maxBpt := 0
  psdCap := 0
  toneHi := 0
  minDs := 0
  maxDs := 0
  minUs := 0
  maxUs := 0
  notches := []

/-- The latched line section. -/
def lineSect (l : Line) : LineSect := l.latLine.getD LineSect.zero

/-- Bits of a downstream tone. -/
def toneBitsAt (l : Line) (t : Nat) : Nat := match l.tonesDs[t]? with | some x => x.bits | none => 0

/-- A tone carries energy downstream: never outside the plan, above TONE_HI or in a notch; in HANDSHAKE on tones 22 to 1,023; in the phases after it, until the new loading is in force, on every usable tone; in service where the profile in use loads it (R133, Table 06.6; log 180). -/
def carriesEnergy (k : Chan) (t : Nat) : Bool :=
  tonePlanned (lineSect k.line) t &&
  (match k.tab.state with
   | .train => (match k.line.phase.toNat with | 0 => false | 1 => decide (t ≤ 1023) | _ => true)
   | .service | .economy => toneInUse k.line t && decide (toneBitsAt k.line t ≠ 0)
   | _ => false)

/-! ### Codewords and information bytes (R154, R155) -/

/-- Codewords whose first coded bit lies in a frame of g coded bits that begins with `left` bits of an earlier one. -/
def ownCodewords (g left : Nat) : Nat := (g - left + 1919) / 1920

/-- Coded bits that the next frame begins with. -/
def leftAfter (g left : Nat) : Nat := left + 1920 * ownCodewords g left - g

/-- Codewords and information bytes of frame k after SERVICE entry at a constant G. -/
def codewords (g k : Nat) : Nat := ((k + 1) * g + 1919) / 1920 - (k * g + 1919) / 1920
def infoBytes (g k : Nat) : Nat := 224 * codewords g k

/-- The coded bit of a frame at which information byte i begins. -/
def infoBit (left i : Nat) : Nat := left + 1920 * (i / 224) + 8 * (i % 224)

/-- Bytes as bits, most significant first. -/
def bitsMsb (b : List Byte) : List Bool := b.flatMap (fun x => (List.range 8).map (fun i => x.getMsbD i))

/-- Bits as a value, most significant first. -/
def ofBits (l : List Bool) : Nat := l.foldl (fun a b => 2 * a + (if b then 1 else 0)) 0

/-! ### Tributaries (R166) -/

/-- Timeslots of an enabled tributary. -/
def tribN (v : Vector Trib 4) (i : Nat) : Nat := let t := vget v i Trib.off; if t.enable then t.n else 0

/-- O_i: the first information byte of tributary i. O_4 is that of the DTU region. -/
def tribOffset (v : Vector Trib 4) (i : Nat) : Nat := 64 + 4 * total ((List.range i).map (tribN v))

/-- Position of the byte of timeslot m in sub-frame s of tributary i. -/
def tribByte (v : Vector Trib 4) (i s m : Nat) : Nat := tribOffset v i + tribN v i * s + m

/-- Bytes of the DTU region of a frame of g coded bits that begins with `left` bits of an earlier codeword. -/
def dtuRegion (v : Vector Trib 4) (g left : Nat) : Nat := 224 * ownCodewords g left - tribOffset v 4

/-! ### Where a byte of the DTU stream goes (R205, R230) -/

/-- Loaded bits per symbol downstream in the next frame, as the ECONOMY changes under way have it. -/
def nextBits (l : Line) : Nat :=
  let econ := match l.econChg.leave, l.econChg.entry with
    | some 1, _ => false
    | _, some (true, 1) => true
    | _, _ => l.econ
  useBits econ l.tonesDs

/-- The frame, 0 the present one, and the data slot that carry coded bit `bit` of the present frame. -/
def slotOfBit (k : Chan) (bit : Nat) : Nat × Nat :=
  let g := k.fr.bitsTx * slotsDs k.line
  if bit < g then (0, 1 + bit / k.fr.bitsTx) else (1, 1 + (bit - g) / nextBits k.line)

/-- The frame and slot of the byte that lies p bytes behind what has been put into the present frame's DTU region. -/
def slotOfStream (k : Chan) (p : Nat) : Nat × Nat :=
  let off := tribOffset k.line.latTrib 4
  let i := off + (k.fr.regionSize - k.fr.regionLeft) + p
  let g := k.fr.bitsTx * slotsDs k.line
  if i < off + k.fr.regionSize then slotOfBit k (infoBit k.fr.leftTx i)
  else slotOfBit k (g + infoBit (leftAfter g k.fr.leftTx) (i - k.fr.regionSize))

/-- The datum instant of the first sample of a slot of the present frame, or of the next one. -/
def slotInstant (k : Chan) (x : Nat × Nat) : Nat := k.fr.frameAt.getD 0 + x.1 * frameUnit + slotOffset x.2

/-- Retransmissions due in the present frame. -/
def rtxNow (f : Framer) : Nat :=
  (f.rtxQueue.filter (fun x => decide ((f.frameCnt - BitVec.ofNat 16 x.2).toNat < 2 ^ 15))).length

/-- Where the last byte of a frame of n bytes lies, in bytes behind what has been put into the DTU region, if it is placed after every byte already committed: retransmissions due, the bytes of the open DTU, then segments of at most 438 bytes. -/
def lastByteAt (f : Framer) (n : Nat) : Nat :=
  let used := f.openDtu.length
  let room := 438 - used
  let base := 448 * rtxNow f
  if n ≤ room then base + 4 + used + 2 + n - 1
  else
    let rest := n - room - 1
    base + 448 * (1 + rest / 438) + 6 + rest % 438

/-- The portion test: the last byte lies in the present frame's DTU region and in its data slots; a frame too long for one whole region passes until the frame's first DTU has closed (R205). -/
def portionFits (k : Chan) (n : Nat) : Bool :=
  let f := k.fr
  if f.frameAt.isNone then false
  else if f.regionSize ≤ 448 * ((n - 1) / 438) + 6 + (n - 1) % 438 then !f.dtuClosed
  else
    let p := lastByteAt f n
    decide (p < f.regionLeft) && decide ((slotOfStream k p).1 = 0)

end Sys2Proof.Machine
end

