-- ==== Sys2Proof/Machine/Chan.lean ====
section
/-! DEFINITION. Channel life: entering and leaving the states of Table 04.2, training failures, CHANNEL resets and island faults (04_channel_table.md, R93 to R103). -/

namespace Sys2Proof.Machine

open Sys2Proof

/-! ### State changes -/

/-- CH_STATE.STATE changes; CH_STATE is raised. A channel that leaves ECONOMY ends SLEEP (Table 14.4). -/
def setChSt (s : State) (c : Nat) (st : ChSt) : State :=
  if (chanAt s c).tab.state = st then s
  else
    let s1 := if (chanAt s c).tab.state = .economy then leaveSleep s else s
    raise (setTab s1 c (fun t => { t with state := st })) Src.chState c 0

/-- A channel whose effective target has been raised ends SLEEP (Table 14.4). -/
def wakeRaised (old s : State) : State :=
  if (List.range 24).any (fun c => present s c && decide ((effTarget old c).code < (effTarget s c).code)) then leaveSleep s else s

/-- Some island of a half is powered. -/
def islandsOn (s : State) (lo hi : Nat) : Bool :=
  (List.range 24).any (fun c => decide (lo ≤ c) && decide (c < hi) && (chanAt s c).tab.island)

/-- CHLA and CHLB are powered while one of their islands is (Table 14.1). -/
def islandDomains (s : State) : State :=
  { s with pwr := { s.pwr with domChla := islandsOn s 0 12, domChlb := islandsOn s 12 24 } }

/-- Channel island c is powered or gated; its per-tone tables go with it. -/
def setIsland (s : State) (c : Nat) (on : Bool) : State :=
  islandDomains (setChan s c (fun k => { k with
    tab := { k.tab with island := on }
    line := if on then k.line else { k.line with tonesDs := [], tonesUs := [], feq := [] } }))

/-- The line is silent: no training, no ECONOMY exchange. The rates and per-tone tables keep their values, so that LN_RATE_DS, LN_RATE_US and LN_TONE_DATA show the old loading until a new one is in force (DESIGN CHOICE, log 182). -/
def Line.quiet (l : Line) : Line :=
  { l with
    phase := 15
    lastSymbol := []
    frames := 0
    econ := false
    econTimer := none
    econChg := { entry := none, leave := none }
    lightPeer := false }

/-- The framer outside SERVICE and ECONOMY: both retransmission buffers and the partial frame are gone, defects are not evaluated (R164, R171; log 17). -/
def Framer.quiet (f : Framer) : Framer :=
  { f with
    txStore := []
    rtxQueue := []
    rxHigh := none
    held := []
    missing := []
    partial_ := none
    broken := false
    los := false
    lof := false
    feRdi := false
    losClean := 0
    crcFails := 0
    crcGoods := 0
    badRun := 0
    lostPrev := 0
    running := 0
    tribTx := Vector.replicate 4 []
    tribRx := Vector.replicate 4 none
    tribRxFirst := Vector.replicate 4 0
    tribNext := Vector.replicate 4 none
    openDtu := []
    openStarts := []
    frameAt := none
    bitsTx := 0
    bitsRx := 0
    leftTx := 0
    regionSize := 0
    regionLeft := 0
    dtuClosed := false
    dtuCarry := []
    infoTx := []
    coded := []
    slotTx := 0
    prevRx := none
    leftRx := 0
    rxStream := []
    rxTribs := none }

/-- Pause state and the frame in progress are gone (R198); queued frames stay. -/
def Queues.quiet (q : Queues) : Queues :=
  { q with cur := none, plain := [], overrunArmed := false, obey := Vector.replicate 8 none, gen := 0, genTimer := none, pauseTx := [] }

/-- A frame in progress that is not accepted work is discarded and counted (log 25). -/
def dropCur (s : State) (c : Nat) : State :=
  match (chanAt s c).qs.cur with
  | none => s
  | some f =>
    match f.src with
    | .work _ _ => s
    | .pause => s
    | _ => setMac s c (fun m => { m with noPath := m.noPath + 1 })

/-- Frames waiting in channel c's queues that a predicate holds of are dropped; the frame being placed in the DTU stream is not (R205, log 12). -/
def dropChan (s : State) (c : Nat) (p : Frame → Bool) : State :=
  setQs s c (fun q => { q with q := vmapIdx (fun _ l => l.filter (fun f => !p f || decide (f.placed ≠ 0))) q.q })

/-- The line, framer and pause state of a channel stop. -/
def stopLine (s : State) (c : Nat) : State :=
  setChan (dropCur s c) c (fun k => { k with line := k.line.quiet, fr := k.fr.quiet, qs := k.qs.quiet })

/-- A part-filled receive block completes at once with the bytes it holds, BROKEN (R169). -/
def breakBlock (s : State) (c i : Nat) : State :=
  match vget (chanAt s c).fr.tribRx i none with
  | none => s
  | some (seq, b) =>
    returnWith s (chRing c 5) seq
      { status := .ok, len := word b.length, res0 := word (vget (chanAt s c).fr.tribRxFirst i 0).toNat, res1 := 1, ts := none }

/-- Work of a ring that has not reached its emission point is returned RET_NO_PATH, in sequence order (R97). -/
def returnNoPath (s : State) (r : Nat) (p : Work → Bool) : State :=
  ((ringAt s r).work.filter p).foldl (fun t w => returnWork t r w.seq .retNoPath) s

/-- Channel c leaves SERVICE or ECONOMY other than through a CHANNEL reset (R69, R97, R164, R198). -/
def leaveService (s : State) (c : Nat) : State :=
  if !serving s c then s
  else
    let s1 := [0, 1, 5].foldl (fun t k => cutEmissions t (chRing c k)) s
    let s2 := [0, 1].foldl (fun t k => returnNoPath t (chRing c k) (fun _ => true)) s1
    let s3 := returnNoPath s2 (chRing c 5) (fun w => !isRxTrib (chRing c 5) w)
    let s4 := (List.range 4).foldl (fun t i => breakBlock t c i) s3
    let s5 := dropChan s4 c (fun f => frameOfRing (chRing c 0) f || frameOfRing (chRing c 1) f)
    stopLine s5 c

/-- The channel enters OFF: claims released, island gated. -/
def enterOff (s : State) (c : Nat) : State :=
  let s1 := setFr (stopLine s c) c (fun f => { f with claims := Vector.replicate 4 none })
  setChSt (setIsland s1 c false) c .off

/-- OFF other than through a CHANNEL reset. -/
def goOff (s : State) (c : Nat) : State := enterOff (leaveService s c) c

/-- The channel returns to READY. -/
def goReady (s : State) (c : Nat) : State := setChSt (stopLine (leaveService s c) c) c .ready

/-- The channel enters HALTED with a cause. -/
def enterHalted (s : State) (c : Nat) (cause : Nat) : State :=
  setChSt (setTab (stopLine s c) c (fun t => { t with haltCause := BitVec.ofNat 4 cause })) c .halted

/-- What the effective target demands of the present state (Table 04.3). A channel that a fault of its island halted leaves HALTED with it; one halted by training leaves only through a reset (R94, R99). -/
def applyTarget (s : State) (c : Nat) : State :=
  if !present s c then s
  else
    match effTarget s c, (chanAt s c).tab.state with
    | .off, .ready | .off, .train | .off, .service | .off, .economy => goOff s c
    | .off, .halted => if (chanAt s c).tab.haltCause = 1 then goOff s c else s
    | .ready, .train | .ready, .service | .ready, .economy => goReady s c
    | _, _ => s

/-- Every channel follows its effective target. -/
def applyTargets (s : State) : State := (List.range 24).foldl applyTarget s

/-- A training failure (R148, Table 04.3); the count past 255 is not stated: a free value (log 26). -/
def failTraining (s : State) (c cause : Nat) : State :=
  let t := (chanAt s c).tab
  if t.state ≠ .train then s
  else
    let full := decide (t.trainFails = 255)
    let s0 := if full then drew s else s
    let n : Byte := if full then BitVec.ofNat 8 (Config.freeWord s.free).toNat else t.trainFails + 1
    let s1 := setTab s0 c (fun t => { t with trainFails := n, failAt := some s.datum })
    let s2 := raise (setLine s1 c (fun l => { l with lastFail := BitVec.ofNat 4 cause })) Src.trainFail c 0
    if t.failLimit ≠ 0 ∧ t.failLimit.toNat ≤ t.trainFails.toNat + 1 then enterHalted s2 c 2 else goReady s2 c

/-! ### No GCM core left (R250) -/

/-- A frame is accepted work. -/
def isWork (f : Frame) : Bool := match f.src with | .work _ _ => true | _ => false

/-- Channel c protects its frames and no core is left to do it. -/
def noCore (s : State) (c : Nat) : Bool :=
  decide (coresLeft s = 0) && (match (chanAt s c).tab.mac with | none => false | some m => m.txEn)

/-- Frames in channel c's downstream queues that are not accepted work. -/
def looseFrames (k : Chan) : Nat :=
  total ((List.range 8).map (fun p => ((vget k.qs.q p []).filter (fun f => !isWork f)).length))

/-- Transmit work of a channel without a core is returned RET_PART, and its other frames are discarded, counted in BUF_DISCARD (R250; log 44). -/
def sweepNoCore (s : State) (c : Nat) : State :=
  if !noCore s c then s
  else
    let n := looseFrames (chanAt s c)
    let s1 := setQs s c (fun q => q.endCur (fun f => decide (f.src ≠ .pause)))
    let s2 := [0, 1].foldl (fun t k =>
      (ringAt t (chRing c k)).work.foldl (fun u w => returnWork u (chRing c k) w.seq .retPart) t) s1
    let s3 := setQs s2 c (fun q => { q with q := vmapIdx (fun i l => if i < 8 then [] else l) q.q })
    raiseC (setMac s3 c (fun m => { m with bufDisc := m.bufDisc + word n })) Src.bufDiscard c n

/-! ### TRAIN entry (R95, R170) -/

/-- A tributary's PCM claim. -/
def claimOf (t : Trib) : Option (Nat × Word) := if t.enable && !t.ring then some (t.hwy, t.mask) else none

/-- Another channel has claimed a timeslot of this claim. -/
def claimTaken (s : State) (c : Nat) (x : Nat × Word) : Bool :=
  (List.range 24).any (fun d => d != c && (chanAt s d).fr.claims.toList.any (fun y => match y with
    | none => false
    | some z => z.1 == x.1 && decide (z.2 &&& x.2 ≠ 0)))

/-- The claims and conflicts of a latched tributary section. -/
def takeClaims (s : State) (c : Nat) (v : Vector Trib 4) : Vector (Option (Nat × Word)) 4 × Nat :=
  let bad (i : Nat) : Bool := match claimOf (vget v i Trib.off) with | none => false | some x => claimTaken s c x
  (vmapIdx (fun i t => if bad i then none else claimOf t) v, total ((List.range 4).map (fun i => flagAt (bad i) i)))

/-- The channel enters TRAIN: pending sections, PEER_ID and TDD values are latched, and PCM timeslots claimed. -/
def goTrain (s : State) (c : Nat) : State :=
  let s1 := stopLine (leaveService s c) c
  let t := (chanAt s1 c).tab
  let (cl, conf) := takeClaims s1 c t.trib
  let s2 := setFr s1 c (fun f => { f with claims := cl, conflict := BitVec.ofNat 4 conf })
  let s3 := setLine s2 c (fun l => { l with
    phase := 0
    frames := 0
    latLine := t.line
    latTrib := t.trib
    latPeer := t.peerId
    latMds := s.time.mds.toNat
    latPhase := s.time.tddPhase.toNat
    latched := true
    tddUsed := word (fieldAt s.time.mds.toNat 6 26 + s.time.tddPhase.toNat) })
  let s4 := setChSt s3 c .train
  if conf = 0 then s4 else raise s4 Src.tribConflict c 0

/-- Loss of line (R139, R172). -/
def lossOfLineOp (s : State) (c : Nat) : State :=
  if serving s c then
    goTrain (raise (setPm s c (fun p => { p with lol := p.lol + 1 })) Src.lol c 0) c
  else s

/-! ### CHANNEL reset and island fault (R99) -/

/-- A recovery belongs to a reset of channel c: a DEVICE reset, or the CHANNEL recovery of its own. -/
def ofChannel (c : Nat) (v : Recovery) : Bool := v.cause == 0x01 || (v.cause == 0x03 && v.chan.toNat == c)

/-- A reset of channel c has not ended. -/
def chanRecovering (s : State) (c : Nat) : Bool := s.recov.any (ofChannel c)

/-- A table read in progress is abandoned; requests and ring 0 commands keep waiting, commands of the channel's own ring are settled with it. -/
def abandonRead (t : ChTab) : ChTab :=
  { t with
    phase := .idle
    served := false
    cmds := (t.cmds.filter (fun x => x.ring.val == 0)).map (fun x => { x with served := false }) }

/-- Accepted work of the channel's rings past its emission point is cut; the frames of the rest leave the queues (R69, Table 03.5). -/
def stopWork (s : State) (c : Nat) : State :=
  let s1 := [0, 1, 5].foldl (fun t k => cutEmissions t (chRing c k)) s
  stopLine (dropChan s1 c (fun f => frameOfRing (chRing c 0) f || frameOfRing (chRing c 1) f)) c

/-- The registers of channel block c whose heading names CHANNEL (R17). -/
def clearChanRegs (k : Chan) : Chan :=
  { k with
    tab := { k.tab with trainFails := 0, haltCause := 0, entryBad := false, readErr := false, torn := false, sectRej := 0 }
    line := Line.reset
    fr := { k.fr with
      conflict := 0
      running := 0
      txSlip := Vector.replicate 4 0
      rxSlip := Vector.replicate 4 0
      tribErr := Vector.replicate 4 0 }
    msec := { k.msec with exhausted := false, pnHigh := false }
    pm := { k.pm with
      unavNe := false
      unavFe := false
      cur := { k.pm.cur with suspect := true } }
    qs := { k.qs with hist := Vector.replicate 32 (Vector.replicate 16 0), histSel := 0 }
    rxts := Rxts.reset }

/-- The channel's own event registers are cleared. -/
def clearChanEvents (s : State) (c : Nat) : State :=
  { s with evt := { s.evt with
      chStat := vset s.evt.chStat c 0
      ch := vset s.evt.ch c (Vector.replicate 4 Counter.reset) } }

/-- Steps 1 to 3 of a CHANNEL reset by VF FLR or CH_RESET, with the configuration space of VF c + 1 (Table 00.6). -/
def resetChannel (s : State) (c : Nat) : State :=
  let s1 := setTab (stopWork s c) c abandonRead
  let s2 := clearChanEvents (setChan s1 c clearChanRegs) c
  enterOff (setFunc s2 (c + 1) (fun _ => Func.reset 4)) c

/-- A recovery under way that takes a CHANNEL reset of channel c into it: a broader reset's, or one of the same channel. A reset is in progress until its work is settled (R20; log 161). -/
def takesReset (c : Nat) (v : Recovery) : Bool :=
  !v.settled && (v.cause == 0x01 || v.cause == 0x02 || (v.cause == 0x03 && v.chan.toNat == c))

/-- The first recovery that takes a CHANNEL reset of channel c carries its command, and its refresh where the channel itself is reset. -/
def joinRecovery (c : Nat) (cmds : List (RingNo × Word)) : List Recovery → List Recovery
  | [] => []
  | v :: t =>
    if takesReset c v then
      { v with cmds := v.cmds ++ cmds, refresh := if v.cause = 0x03 ∧ v.refresh = [] then [c] else v.refresh } :: t
    else v :: joinRecovery c cmds t

/-- A CHANNEL reset of channel c with its recovery (R99). A broader reset in progress, or one of the same channel, absorbs it (R20); the recovery of a fault of the island is the same recovery, and the reset's own effects join it. -/
def channelReset (s : State) (c : Nat) (cmds : List (RingNo × Word)) : State :=
  match s.recov.find? (takesReset c) with
  | none => startRecovery (resetChannel s c) (chanRings c) 0x03 c false cmds [c]
  | some v =>
    let s1 := if v.cause = 0x03 ∧ v.refresh = [] then resetChannel s c else s
    { s1 with recov := joinRecovery c cmds s1.recov }

/-- A fault of island CH_n (R99): HALTED, the same recovery, no refresh, no register cleared; the island is gated in OFF and takes no fault there. A channel HALTED already keeps its HALT_CAUSE (DESIGN CHOICE, log 162). -/
def islandFaultOp (s : State) (c : Nat) : State :=
  if !present s c || decide ((chanAt s c).tab.state = .off) then s
  else
    let s1 := setTab (stopWork s c) c abandonRead
    let s2 := if (chanAt s c).tab.state = .halted then s1 else enterHalted s1 c 1
    if s.recov.any (takesReset c) then s2 else startRecovery s2 (chanRings c) 0x03 c false [] []

def execChannelIslandFault (c : Ch) (s : State) : Host.Outcome State Fault Refusal := .next (islandFaultOp s c.val)

/-! ### Commands on a channel (R100) -/

/-- The channel a command names: PARAM0 on ring 0, the ring's own on a CMD ring. -/
def cmdChan (r : Nat) (d : Desc) : Nat := if r = 0 then bits d.p0 7 0 else (r - 16) / 6

/-- The status a channel command is returned with for the channel it names; none: it exists. -/
def chanStatus (s : State) (r : Nat) (d : Desc) : Option Status :=
  if 24 ≤ cmdChan r d then some .retParam else if present s (cmdChan r d) then none else some .retAbsent

/-- CH_RESET: emitted at the reset's start, completed after RECOVERY_DONE with RECOVERED (R100). -/
def chResetOp (s : State) (r : RingNo) (seq : Word) : State :=
  match cmdWork s r.val seq 0x0110 with
  | none => s
  | some w =>
    match chanStatus s r.val w.d with
    | some st => returnWork s r.val seq st
    | none =>
      let s1 := setWork (beginEmission s r seq (Outcome.of .ok 0 0)) r.val seq (fun w => { w with recov := true })
      channelReset s1 (cmdChan r.val w.d) [(r, seq)]

def execChReset (r : RingNo) (seq : Word) (s : State) : Host.Outcome State Fault Refusal := .next (chResetOp s r seq)

/-! ### Leaving OFF and the firmware hold -/

/-- Channel islands take power in this state of the power block (Table 14.1). -/
def islandPower (s : State) : Bool :=
  match s.pwr.state with
  | .deep | .off | .poweringDown | .waking => false
  | _ => true

/-- An entry is applied, read whole since the last event of R103, and the channel's recovery is over (R94, R99, R103). -/
def mayLeaveOff (s : State) (c : Nat) : Bool :=
  let t := (chanAt s c).tab
  present s c && decide (t.state = .off) && t.readSince && decide (t.gen.toNat % 2 = 0) && decide (effTarget s c ≠ .off)
    && !chanRecovering s c && islandPower s

/-- Island CH_n finishes powering up: OFF to READY (Table 04.3). -/
def execIslandPowered (c : Ch) (s : State) : Host.Outcome State Fault Refusal :=
  .next (if mayLeaveOff s c.val then setChSt (setIsland s c.val true) c.val .ready else s)

/-- CH_HOLD (R93): firmware's alone; a write of 3 leaves it unchanged. -/
def chHoldOp (s : State) (c : Nat) (v : Word) : State :=
  if present s c && decide (bits v 1 0 ≠ 3) then
    wakeRaised s (applyTarget (setTab s c (fun t => { t with hold := BitVec.ofNat 2 (bits v 1 0) })) c)
  else s

def execChHoldWrite (who : Requester) (c : Ch) (v : Word) (s : State) : Host.Outcome State Fault Refusal :=
  .next (if isFw who then chHoldOp s c.val v else s)

/-- LOS, LOF or FE_RDI at 400 consecutive frame boundaries (R172). -/
def execLossOfLine (c : Ch) (s : State) : Host.Outcome State Fault Refusal :=
  .next (if 400 ≤ (chanAt s c.val).fr.badRun then lossOfLineOp s c.val else s)

end Sys2Proof.Machine
end

