-- ==== Sys2Proof/Machine/ChTable.lean ====
section
/-! DEFINITION. The channel table: an entry's sections, their validation and their taking effect, and the three-phase read (04_channel_table.md, R85 to R92; R144, R165, R192, R202, R251, R296). -/

namespace Sys2Proof.Machine

open Sys2Proof

/-! ### The sections of an entry; offsets are those of Table 04.1 -/

/-- A notch range (Table 06.4). -/
def parseNotch (b : List Byte) (o : Nat) : Notch :=
  { start := leAt b o 2, stop := leAt b (o + 2) 2, enable := (leAt b (o + 4) 1).testBit 0 }

def parseLine (b : List Byte) : LineSect where
  marginTgt := leAt b 0x040 2
  fextRes := leAt b 0x042 2
  maxBpt := leAt b 0x044 1
  psdCap := leAt b 0x045 1
  toneHi := leAt b 0x046 2
  minDs := leAt b 0x048 4
  maxDs := leAt b 0x04C 4
  minUs := leAt b 0x050 4
  maxUs := leAt b 0x054 4
  notches := (List.range 16).map (fun i => parseNotch b (0x080 + 8 * i))

/-- An enabled notch lies inside 22 to 3,963 in order. -/
def notchOk (n : Notch) : Bool := !n.enable || (decide (n.start ≤ n.stop) && decide (22 ≤ n.start) && decide (n.stop ≤ 3963))

/-- R144. -/
def lineOk (l : LineSect) : Bool :=
  decide (l.marginTgt ≤ 300) && decide (l.fextRes ≤ 200) && decide (1 ≤ l.maxBpt) && decide (l.maxBpt ≤ 14)
    && decide (60 ≤ l.psdCap) && decide (l.psdCap ≤ 90) && decide (1023 ≤ l.toneHi) && decide (l.toneHi ≤ 3963)
    && decide (l.minDs ≤ 3600000) && decide (l.maxDs ≤ 3600000) && decide (l.minUs ≤ 3600000) && decide (l.maxUs ≤ 3600000)
    && (decide (l.maxDs = 0) || decide (l.minDs ≤ l.maxDs)) && (decide (l.maxUs = 0) || decide (l.minUs ≤ l.maxUs))
    && l.notches.all notchOk

def parseTrib (b : List Byte) (o : Nat) : Trib where
  enable := (leAt b o 1).testBit 0
  ring := (leAt b o 1).testBit 1
  n := leAt b (o + 1) 1
  hwy := leAt b (o + 2) 1
  idle := BitVec.ofNat 8 (leAt b (o + 3) 1)
  mask := word (leAt b (o + 4) 4)

def parseTribs (b : List Byte) : Vector Trib 4 := Vector.ofFn (fun i : Fin 4 => parseTrib b (0x100 + 32 * i.val))

/-- Set bits of a timeslot mask. -/
def maskCount (m : Word) : Nat := total ((List.range 32).map (fun i => flagAt (m.getLsbD i) 0))

/-- One tributary's own fields (R165). -/
def tribOk (t : Trib) : Bool :=
  !t.enable || (decide (1 ≤ t.n) && decide (t.n ≤ 32) && (t.ring || (decide (t.hwy ≤ 1) && decide (maskCount t.mask = t.n))))

/-- Two PCM tributaries of one section claim a common timeslot. -/
def tribClash (a b : Trib) : Bool :=
  a.enable && b.enable && !a.ring && !b.ring && decide (a.hwy = b.hwy) && decide (a.mask &&& b.mask ≠ 0)

/-- R165. -/
def tribsOk (v : Vector Trib 4) : Bool :=
  v.toList.all tribOk &&
  (List.range 4).all (fun i => (List.range i).all (fun j => !tribClash (vget v i Trib.off) (vget v j Trib.off)))

def parseMac (b : List Byte) : MacSect where
  mtu := leAt b 0x180 2
  pfcObey := BitVec.ofNat 8 (leAt b 0x182 1)
  pfcGen := BitVec.ofNat 8 (leAt b 0x183 1)
  xoff := leAt b 0x184 2
  xon := leAt b 0x186 2
  headroom := leAt b 0x188 2
  quanta := leAt b 0x18A 2
  legacy := (leAt b 0x18C 1).testBit 0
  missExc := (leAt b 0x18C 1).testBit 1
  trapL2cp := (leAt b 0x18C 1).testBit 2
  defPcp := BitVec.ofNat 3 (leAt b 0x18D 1)
  macSa := (b.drop 0x190).take 6
  txEn := (leAt b 0x1C0 1).testBit 0
  rxEn := (leAt b 0x1C0 1).testBit 1
  conf := (leAt b 0x1C0 1).testBit 2
  xpn := (leAt b 0x1C0 1).testBit 3
  inclSci := (leAt b 0x1C0 1).testBit 4
  validate := BitVec.ofNat 2 (leAt b 0x1C0 1 / 32)
  txAn := BitVec.ofNat 2 (leAt b 0x1C1 1)
  rxAn0 := BitVec.ofNat 2 (leAt b 0x1C1 1 / 4)
  rxAn1 := BitVec.ofNat 2 (leAt b 0x1C1 1 / 16)
  txKey := BitVec.ofNat 16 (leAt b 0x1C2 2)
  rxKey0 := BitVec.ofNat 16 (leAt b 0x1C4 2)
  rxKey1 := BitVec.ofNat 16 (leAt b 0x1C6 2)
  txSci := (b.drop 0x1C8).take 8
  rxSci := (b.drop 0x1D0).take 8
  txSsci := word (leAt b 0x1D8 4)
  rxSsci := word (leAt b 0x1DC 4)
  txPnInit := leAt b 0x1E0 8
  replayWin := leAt b 0x1E8 4
  pnThresh := leAt b 0x1F0 8

/-- R192 and R251; DEF_PCP is checked on the entry's own byte. Bits of a field that its range fixes at 0 must be 0; reserved bytes are ignored (R86, log 28). -/
def macOk (b : List Byte) (m : MacSect) : Bool :=
  decide (64 ≤ m.mtu) && decide (m.mtu ≤ 9216) && decide (2 ≤ m.xoff) && decide (m.xoff ≤ 1536) && decide (1 ≤ m.xon)
    && decide (m.xon ≤ 1535) && decide (m.headroom ≤ 1200) && decide (1 ≤ m.quanta) && decide (leAt b 0x18D 1 ≤ 7)
    && !(leAt b 0x190 1).testBit 0 && decide (m.xon < m.xoff) && (m.pfcGen == 0 || decide (m.headroom ≠ 0))
    && m.validate != 3 && decide (m.replayWin ≤ 2 ^ 30)
    && decide (leAt b 0x18C 1 < 8) && decide (leAt b 0x1C0 1 < 128) && decide (leAt b 0x1C1 1 < 64)

def parseQueue (b : List Byte) (o : Nat) : QDesc where
  shape := (leAt b o 1).testBit 0
  level := leAt b (o + 1) 1
  weight := leAt b (o + 2) 1
  cir := leAt b (o + 4) 4
  cbs := leAt b (o + 8) 4

def parseQueues (b : List Byte) : Vector QDesc 16 := Vector.ofFn (fun i : Fin 16 => parseQueue b (0x200 + 32 * i.val))

/-- Every QFLAGS has bits 7:1 clear (R202). -/
def queueFlagsOk (b : List Byte) : Bool := (List.range 16).all (fun i => decide (leAt b (0x200 + 32 * i) 1 < 2))

/-- R202. -/
def queueOk (q : QDesc) : Bool :=
  decide (q.level ≤ 7) && (!q.shape || (decide (1 ≤ q.cir) && decide (q.cir ≤ 3600000) && decide (64 ≤ q.cbs) && decide (q.cbs ≤ 4194304)))

/-- The queue section passes. -/
def queuesOk (b : List Byte) : Bool := queueFlagsOk b && (parseQueues b).toList.all queueOk

def parseFeed (b : List Byte) : FeedSect where
  enable := (leAt b 0x400 1).testBit 0
  pulsed := (leAt b 0x400 1).testBit 1
  stretch := !(leAt b 0x400 1).testBit 2
  ramp := leAt b 0x401 1
  iLim := leAt b 0x402 2
  pLim := leAt b 0x404 2
  backoff := leAt b 0x406 2
  iOpen := leAt b 0x408 1
  period := leAt b 0x40C 4
  width := leAt b 0x410 4

/-- R296: checked only when the feed is enabled, the pulse fields only when pulsed. -/
def feedOk (b : List Byte) (f : FeedSect) : Bool :=
  !f.enable ||
  (decide (leAt b 0x400 1 < 8) && decide (1 ≤ f.ramp) && decide (f.ramp ≤ 10) && decide (50 ≤ f.iLim) && decide (f.iLim ≤ 400) && decide (10 ≤ f.pLim)
    && decide (f.pLim ≤ 150) && decide (1 ≤ f.backoff) && decide (f.backoff ≤ 60) && decide (2 ≤ f.iOpen) && decide (f.iOpen ≤ 20)
    && (!f.pulsed ||
      (decide (1000 ≤ f.period) && decide (f.period ≤ 60000) && decide (10 ≤ f.width) && decide (f.width ≤ 1000000)
        && decide (f.width < f.period * 1000))))

/-- The header is valid (R91). -/
def headerOk (b : List Byte) (c : Nat) : Bool :=
  decide (leAt b 4 2 = 1) && decide (leAt b 6 1 = c) && decide (leAt b 7 1 ≤ 2)
    && !((leAt b 8 1).testBit 0 && decide (leAt b 0x00A 2 < 10))

/-- TARGET's code. -/
def targetOf (n : Nat) : Target := match n with | 0 => .off | 1 => .ready | _ => .service

/-! ### Taking effect -/

/-- The handle a MAC section gives a receive AN. -/
def anHandle (m : MacSect) (an : Nat) : Half :=
  if m.rxKey0 ≠ 0 ∧ m.rxAn0.toNat = an then m.rxKey0 else if m.rxAn1.toNat = an then m.rxKey1 else 0

/-- MACsec state as a new section takes effect: replay state of an AN whose handle changes is cleared (R255), and another TX_KEY ends exhaustion (R254). -/
def macsecFor (old : Option MacSect) (m : MacSect) (x : Macsec) : Macsec :=
  match old with
  | none => { x with highest := Vector.replicate 4 0, exhausted := false }
  | some o =>
    { x with
      highest := vmapIdx (fun i h => if anHandle o i = anHandle m i then h else 0) x.highest
      exhausted := x.exhausted && o.txKey == m.txKey }

/-- The section's threshold is met by the slot's PN as it stands: PN_HIGH (R254). -/
def pnReached (s : State) (c : Nat) (old : Option MacSect) (m : MacSect) : State :=
  let again := match old with | none => false | some o => o.txKey == m.txKey && o.pnThresh == m.pnThresh
  if !again && m.txEn && macKeyUsable s m.xpn m.txKey && decide (m.pnThresh ≠ 0) && decide (m.pnThresh ≤ (slotAt s (handleSlot m.txKey)).pn)
      && !(chanAt s c).msec.pnHigh then
    raise (setChan s c (fun k => { k with msec := { k.msec with pnHigh := true } })) Src.macsecPnHigh c 0
  else s

/-- TX_PN_INIT raises the slot's PN, never lowers it (R253); a threshold the PN has passed already is reached as its section takes effect (DESIGN CHOICE, log 188). -/
def raisePn (s : State) (c : Nat) (old : Option MacSect) (m : MacSect) : State :=
  let pn := (slotAt s (handleSlot m.txKey)).pn
  pnReached (if m.txEn && macKeyUsable s m.xpn m.txKey && decide (pn < m.txPnInit) then movePn s m.txKey m.txPnInit else s) c old m

/-- A MAC section takes effect: frames pass the MAC whole, so the next frame of each direction meets it (log 16). -/
def applyMac (s : State) (c : Nat) (m : MacSect) : State :=
  let s1 := setChan s c (fun k => { k with
    tab := { k.tab with mac := some m }
    msec := macsecFor k.tab.mac m k.msec })
  sweepNoCore (pauseCheck (refreshKeyUse (raisePn s1 c (chanAt s c).tab.mac m) c) c) c

/-- The header's fields are cached. -/
def applyHeader (b : List Byte) (t : ChTab) : ChTab :=
  { t with
    target := targetOf (leAt b 7 1)
    econEn := (leAt b 8 1).testBit 0
    failLimit := BitVec.ofNat 8 (leAt b 9 1)
    econIdle := BitVec.ofNat 16 (leAt b 0x00A 2)
    peerId := BitVec.ofNat 64 (leAt b 0x010 8)
    entryBad := false }

/-- SECT_REJ of an entry. -/
def sectRejects (b : List Byte) : Nat :=
  flagAt (!lineOk (parseLine b)) 0 + flagAt (!tribsOk (parseTribs b)) 1 + flagAt (!macOk b (parseMac b)) 2
    + flagAt (!queuesOk b) 3 + flagAt (!feedOk b (parseFeed b)) 4

/-- Line, tributary and queue sections that pass are cached: the first two for the next TRAIN entry, the third for the next refill tick. -/
def applyCached (b : List Byte) (t : ChTab) : ChTab :=
  { t with
    line := if lineOk (parseLine b) then some (parseLine b) else t.line
    trib := if tribsOk (parseTribs b) then parseTribs b else t.trib
    pendQueues := if queuesOk b then some (parseQueues b) else t.pendQueues
    sectRej := BitVec.ofNat 5 (sectRejects b) }

/-- A whole entry of a new generation (R91). -/
def applyEntry (s : State) (c : Nat) (g : Word) (b : List Byte) : State :=
  if !headerOk b c then
    setTab s c (fun t => { t with entryBad := true, sectRej := 0, gen := g, target := .off })
  else
    let s1 := setTab s c (fun t => { applyCached b (applyHeader b t) with gen := g })
    let s2 := if macOk b (parseMac b) then applyMac s1 c (parseMac b) else s1
    if feedOk b (parseFeed b) then applyFeed s2 c (parseFeed b) else s2

/-! ### Reading (R88 to R92) -/

/-- The waiting commands a whole read serves complete; one returned meanwhile has its outcome already, and one that finds the journal full waits for another read (R64, R67, R100). -/
def serveOne (g : Word) (same : Bool) (s : State) (x : RefreshCmd) : State :=
  if journalRoom s && (workOpen s x.ring.val x.seq).isSome then emitWork s x.ring x.seq { status := .ok, len := 0, res0 := g, res1 := word (flagAt same 0), ts := none }
  else s

/-- Commands still waiting after a whole read: those that came too late, and those without a journal entry. -/
def stillWaiting (s : State) (l : List RefreshCmd) : List RefreshCmd :=
  l.filter (fun x => (workOpen s x.ring.val x.seq).isSome)

/-- A whole read of generation g (R89 to R91). -/
def wholeRead (s : State) (c : Nat) (g : Word) (b : List Byte) : State :=
  let t0 := (chanAt s c).tab
  let same := decide (t0.gen = g)
  let s1 := if same then s else applyEntry s c g b
  let s2 := (t0.cmds.filter (fun x => x.served)).foldl (serveOne g same) s1
  let rest := (stillWaiting s2 t0.cmds).map (fun x => { x with served := false })
  let s3 := setTab s2 c (fun t => { t with
    torn := false
    readErr := false
    discards := 0
    readSince := true
    phase := .idle
    served := false
    cmds := rest
    pend := !t0.served || decide (rest ≠ []) })
  beginRead (wakeRaised s (applyTarget s3 c)) c

/-- A read that is not whole (R89). -/
def discardRead (s : State) (c : Nat) : State :=
  let t := (chanAt s c).tab
  let now := !t.torn && decide (1000 ≤ t.discards + 1)
  let s1 := setTab s c (fun t => { t with
    discards := t.discards + 1, readErr := false, phase := .waitRetry, torn := t.torn || now })
  let s2 := if now then raise s1 Src.chtabFault c 0 else s1
  if t.torn || now then returnRefreshes s2 c .retBusy else s2

/-- A phase's next read goes out; where the PF may not master the bus the read begins again later (log 27). -/
def nextPhase (s : State) (c off len : Nat) (p : ReadPhase) : State :=
  if mayMaster s 0 then issuePhase s c off len p else setTab s c (fun t => { t with phase := .waitRetry })

/-- The bytes a phase returns. -/
def phaseLen : ReadPhase → Nat
  | .body _ => 0x7F8
  | _ => 4

/-- Host address of the phase in progress. -/
def phaseOff : ReadPhase → Nat
  | .last => 0x7FC
  | .body _ => 4
  | _ => 0

/-- A phase's data have all arrived (R88). -/
def phaseOk (s : State) (c : Nat) (data : List Byte) : State :=
  match (chanAt s c).tab.phase with
  | .last => nextPhase s c 0x004 0x7F8 (.body (word (leAt data 0 4)))
  | .body gl => nextPhase s c 0 4 (.first gl data)
  | .first gl b =>
    let gf := word (leAt data 0 4)
    if gf = gl ∧ gf.toNat % 2 = 0 then wholeRead s c gf (zeros 4 ++ b) else discardRead s c
  | _ => s

/-- A phase is under way. -/
def inPhase : ReadPhase → Bool
  | .last | .body _ | .first _ _ => true
  | _ => false

def phaseComplete (s : State) (c : Nat) (res : XferResult) (data : List Byte) : State :=
  let p := (chanAt s c).tab.phase
  if !inPhase p then s
  else if res = .ok then (if data.length = phaseLen p then phaseOk s c data else s)
  else readFailed (latchFault s (xferKind res) 0xFD 0 (entryAddr s c (phaseOff p))) c .retDma

/-- A phase of the entry read completes (R88, R92). No phase's read returns another count than 4 or 0x7F8 bytes. -/
def execChtabReadPhaseComplete (c : Ch) (res : XferResult) (data : List Byte) (s : State) : Host.Outcome State Fault Refusal :=
  if res = .ok ∧ data.length ≠ 4 ∧ data.length ≠ 0x7F8 then .fault .illFormed
  else .next (phaseComplete s c.val res data)

/-- The retry after a discarded read, and the start of a read that could not start at its request (R89, R90). -/
def execChtabReadRetry (c : Ch) (s : State) : Host.Outcome State Fault Refusal :=
  .next (match (chanAt s c.val).tab.phase with
    | .waitRetry => beginRead s c.val
    | .idle => beginRead s c.val
    | _ => s)

/-- The retry after a failed read (R92). -/
def execChtabReadErrorRetry (c : Ch) (s : State) : Host.Outcome State Fault Refusal :=
  .next (match (chanAt s c.val).tab.phase with
    | .waitError => beginRead s c.val
    | _ => s)

/-! ### Requests (R90, R100) -/

/-- CHTAB_REFRESH.REQ: bits of absent channels are ignored (R102). -/
def chtabRefreshOp (s : State) (mask : Word) : State :=
  requestAll s ((List.range 24).filter (fun c => mask.getLsbD c))

def execChtabRefresh (who : Requester) (mask : Word) (s : State) : Host.Outcome State Fault Refusal :=
  .next (if reachesAll who then chtabRefreshOp s mask else s)

/-- CH_REFRESH (R90, R100): a command returned at once while ENABLE is 0 leaves no request. -/
def chRefreshOp (s : State) (r : RingNo) (seq : Word) : State :=
  match cmdWork s r.val seq 0x0111 with
  | none => s
  | some w =>
    match chanStatus s r.val w.d with
    | some st => returnWork s r.val seq st
    | none =>
      let c := cmdChan r.val w.d
      if !s.chtabEn then returnWork s r.val seq .retBusy
      else if (chanAt s c).tab.cmds.any (fun x => x.ring == r && x.seq == seq) then s
      else requestRefresh (setTab s c (fun t => { t with cmds := t.cmds ++ [{ ring := r, seq := seq, served := false }] })) c

def execChRefresh (r : RingNo) (seq : Word) (s : State) : Host.Outcome State Fault Refusal := .next (chRefreshOp s r seq)

/-- A channel's table read when ENABLE is cleared: abandoned, its request waits, its commands go back RET_BUSY. -/
def tableOff (s : State) (c : Nat) : State :=
  returnRefreshes (setTab s c (fun t => { t with phase := .idle, served := false })) c .retBusy

/-- CHTAB_CTL.ENABLE changes (R90, R93). -/
def chtabEnableOp (s : State) (on : Bool) : State :=
  if on == s.chtabEn then s
  else if on then wakeRaised s (applyTargets (requestAll { s with chtabEn := true } (List.range 24)))
  else applyTargets ((List.range 24).foldl tableOff { s with chtabEn := false })

def execChtabEnableChange (who : Requester) (on : Bool) (s : State) : Host.Outcome State Fault Refusal :=
  .next (if reachesAll who then chtabEnableOp s on else s)

end Sys2Proof.Machine
end

