-- ==== Sys2Proof/Machine/Frames.lean ====
section
/-! DEFINITION. Host transmit frames, receive buffers, LIFETIME and the loss of a packet-buffer bank (02_host_port.md, 08_forwarding.md: R28, R70, R178 to R182, R189, R190). -/

namespace Sys2Proof.Machine

open Sys2Proof

/-! ### Transmit frames (R97, R189) -/

/-- The medium of a transmit ring carries frames: its channel serves, or the uplink is in O5 (R32, R97). -/
def pathOpen (s : State) (r : Nat) : Bool :=
  match ringChan r with
  | some c => serving s c
  | none => decide (s.upl.onuState.toNat = 5)

/-- The longest frame with FCS a transmit ring takes. -/
def txLimit (s : State) (r : Nat) : Nat := match ringChan r with | some c => mtuOf s c | none => 9216

/-- Length with an inserted tag, without FCS. -/
def taggedLen (d : Desc) : Nat := d.len.toNat + (if bitOf d.p0 3 then 4 else 0)

/-- The status a TX_FRAME is returned with before its buffer read; none: it is read. -/
def txStatus (s : State) (r : Nat) (d : Desc) : Option Status :=
  if !pathOpen s r then some .retNoPath
  else if (match ringChan r with | some c => noCore s c | none => false) then some .retPart
  else if d.len.toNat < 14 ∨ 9212 < d.len.toNat ∨ txLimit s r < taggedLen d + 4 then some .retLength
  else if (ringChan r).isNone && !portActive s (bits d.p1 15 0) then some .retParam
  else none

/-- Work of a ring whose execution may go on: open, at a stage, with its ring outside recovery. -/
def workAt (s : State) (r : Nat) (seq : Word) (op : Nat) (st : Stage) : Option Work :=
  match workOpen s r seq with
  | none => none
  | some w =>
    if w.d.opcode.toNat = op ∧ w.stage = st ∧ (ringAt s r).state ≠ .recovering then some w else none

def txFrameOp (s : State) (r : Nat) (seq : Word) : State :=
  match workAt s r seq 0x0001 .accepted with
  | none => s
  | some w =>
    match txStatus s r w.d with
    | some st => returnWork s r seq st
    | none => setWork s r seq (fun w => { w with stage := .wantRead })

def execTxFrame (r : RingNo) (seq : Word) (s : State) : Host.Outcome State Fault Refusal := .next (txFrameOp s r.val seq)

/-- Work not yet stored in its partition. -/
def unstored (w : Work) : Bool :=
  w.ret.isNone && (decide (w.stage = .wantDesc) || decide (w.stage = .accepted) || decide (w.stage = .wantRead) || decide (w.stage = .reading))

/-- The work is the first of its ring that is not stored, so that its read keeps sequence order (R179). -/
def readTurn (s : State) (r : Nat) (seq : Word) : Bool :=
  match (ringAt s r).work.find? unstored with
  | none => false
  | some w => w.seq == seq

/-- A frame is the lost copy of a piece of work, waiting for its second read (R182). -/
def awaits (r : RingNo) (seq : Word) (f : Frame) : Bool := decide (f.src = .work r seq) && decide (f.bytes = [])

/-- Work is returned, and the place its lost copy kept is given up. -/
def returnLost (s : State) (r : RingNo) (seq : Word) (st : Status) : State :=
  dropQueued (returnWork s r.val seq st) (awaits r seq)

/-- The buffer read starts once cells are free and a window covers it (R56, R179). -/
def txReadOp (s : State) (r : RingNo) (seq : Word) : State :=
  match workAt s r.val seq 0x0001 .wantRead with
  | none => s
  | some w =>
    if !readTurn s r.val seq || !mayMaster s (ringOwner s r.val) then s
    else if !inWindows s (ringOwner s r.val) false w.d.addr.toNat w.d.len.toNat then
      returnLost (ringWindowFault s r.val w.d.addr.toNat) r seq .retWindow
    else
      match placeFor s r.val (txLen w.d) with
      | none => s
      | some res =>
        sendRead (setWork s r.val seq (fun w => { w with stage := .reading, reserve := res })) (ringOwner s r.val) w.d.addr.toNat w.d.len.toNat

def execTxBufferRead (r : RingNo) (seq : Word) (s : State) : Host.Outcome State Fault Refusal := .next (txReadOp s r seq)

/-- The stored bytes of a transmit frame: tag inserted, padded to 60 bytes, with its FCS (R189). -/
def txBytes (d : Desc) (data : List Byte) : List Byte :=
  let b := if bitOf d.p0 3 then insertTag data 0x8100 (bits d.p0 31 16) else data
  withFcs (b ++ zeros (60 - b.length))

/-- Every queue of a channel with frames mapped. -/
def mapQueues (k : Chan) (f : Frame → Frame) : Chan := { k with qs := { k.qs with q := vmapIdx (fun _ l => l.map f) k.qs.q } }

/-- A second read's bytes take the place of the lost copy. -/
def refill_ (r : RingNo) (seq : Word) (b : List Byte) (res : Bool) (f : Frame) : Frame :=
  if awaits r seq f then { f with bytes := b, inReserve := res } else f

/-- The frame of a piece of work waits in a queue for its bytes. -/
def hasPlace (s : State) (r : RingNo) (seq : Word) : Bool :=
  s.chans.toList.any (fun k => k.qs.q.toList.any (fun l => l.any (awaits r seq)))
    || s.upl.tcont.toList.any (fun l => l.any (awaits r seq))

/-- A transmit frame's bytes join their queue, or the place the lost copy kept. -/
def storeTx (s : State) (r : RingNo) (w : Work) (b : List Byte) : State :=
  let s1 := setWork s r.val w.seq (fun w => { w with stage := .queued })
  if hasPlace s1 r w.seq then
    { s1 with
      chans := vmapIdx (fun _ k => mapQueues k (refill_ r w.seq b w.reserve)) s1.chans
      upl := { s1.upl with tcont := vmapIdx (fun _ l => l.map (refill_ r w.seq b w.reserve)) s1.upl.tcont } }
  else
    match ringChan r.val with
    | some c =>
      let p := bits w.d.p0 2 0
      enqueue s1 c p { mkFrame (.work r w.seq) .line b p 0 0 false 0 with inReserve := w.reserve }
    | none =>
      let q := bits w.d.p1 21 16
      enqueueTcont (takeId s1) q { mkFrame (.work r w.seq) (.tcont q) b (bits w.d.p0 2 0) (bits w.d.p1 15 0) 0 false 0 with
        inReserve := w.reserve, id := s1.xc.nextId }

/-- The buffer read ends (R62, R182, R189). -/
def txReadDoneOp (s : State) (r : RingNo) (seq : Word) (res : XferResult) (data : List Byte) : State :=
  match workAt s r.val seq 0x0001 .reading with
  | none => s
  | some w =>
    if res ≠ .ok then
      let s1 := latchFault (setRing s r.val (fun g => { g with dmaErr := true })) (xferKind res) r.val (ringOwner s r.val) w.d.addr.toNat
      returnLost s1 r seq .retDma
    else if data.length ≠ w.d.len.toNat then s
    else if beAt data (etherOff data) 2 = 0x8808 then returnLost s r seq .retParam
    else storeTx s r w (txBytes w.d data)

def execTxBufferReadComplete (r : RingNo) (seq : Word) (res : XferResult) (data : List Byte) (s : State) :
    Host.Outcome State Fault Refusal :=
  .next (txReadDoneOp s r seq res data)

/-! ### Receive buffers (R28, R56, R190) -/

/-- Shortest buffer a receive ring takes (Table 02.7). -/
def rxMin (r : Nat) : Nat := if r = 8 then 2048 else 9212

def rxBufferOp (s : State) (r : Nat) (seq : Word) : State :=
  match workAt s r seq 0x0002 .accepted with
  | none => s
  | some w =>
    if w.d.len.toNat < rxMin r then returnWork s r seq .retLength
    else setWork s r seq (fun w => { w with stage := .queued })

def execRxBuffer (r : RingNo) (seq : Word) (s : State) : Host.Outcome State Fault Refusal := .next (rxBufferOp s r.val seq)

/-- The oldest posted buffer of a receive ring. -/
def postedBuffer (s : State) (r : Nat) : Option Work :=
  (ringAt s r).work.find? (fun w => decide (w.stage = .queued) && w.ret.isNone)

/-- Frames waiting for a buffer of ring r. -/
def waitingFrames (s : State) (r : Nat) : List Frame :=
  if r = 4 then s.xc.mgmtRx else if r = 5 then s.xc.excRx
  else
    match ringChan r with
    | some c => if (r - 16) % 6 = 2 then (chanAt s c).hostRx else []
    | none => []

/-- The oldest waiting frame of ring r leaves its partition. -/
def dropWaiting (s : State) (r : Nat) : State :=
  if r = 4 then { s with xc := { s.xc with mgmtRx := s.xc.mgmtRx.tail } }
  else if r = 5 then { s with xc := { s.xc with excRx := s.xc.excRx.tail } }
  else
    match ringChan r with
    | some c => setChan s c (fun k => { k with hostRx := k.hostRx.tail })
    | none => s

/-- SOURCE of RESULT0. -/
def srcCode : FrameSrc → Nat
  | .line c => c.val
  | _ => 0xFE

/-- The outcome of a received frame (R190). -/
def rxOutcome (f : Frame) : Outcome where
  status := .ok
  len := word (f.bytes.length - 4)
  res0 := word (fieldAt f.reason.toNat 8 24 + fieldAt (srcCode f.src) 8 16 + f.port.toNat)
  res1 := word (flagAt f.macsec 3 + f.prio.toNat)
  ts := none

/-- Pause release after a frame of a channel's line left its upstream half. -/
def afterLeave (s : State) (f : Frame) : State := match f.src with | .line c => pauseCheck s c.val | _ => s

/-- The oldest waiting frame is written whole into the oldest posted buffer; its record is to follow (R28, R56, R58). Nothing is delivered while a seal has stopped emission (R78 step 1). -/
def rxDeliverOp (s : State) (r : Nat) : State :=
  match waitingFrames s r, postedBuffer s r with
  | f :: _, some w =>
    let owner := ringOwner s r
    let b := noFcs f.bytes
    if (ringAt s r).state = .recovering ∨ !mayMaster s owner ∨ frozen s then s
    else if !inWindows s owner true w.d.addr.toNat b.length then
      returnWork (ringWindowFault s r w.d.addr.toNat) r w.seq .retWindow
    else
      let s1 := sendWrite (returnWith s r w.seq (rxOutcome f)) owner w.d.addr.toNat b
      afterLeave (dropWaiting s1 r) f
  | _, _ => s

def execRxFrameDeliver (r : RingNo) (s : State) : Host.Outcome State Fault Refusal := .next (rxDeliverOp s r.val)

/-! ### LIFETIME (R70, R194) -/

/-- The radio's frame under execution is this work. -/
def radHolds (s : State) (r : Nat) (seq : Word) : Bool :=
  decide (r = 7) && (match s.rad.tx with | some t => t.seq == seq | none => false)

def lifetimeOp (s : State) (r : RingNo) (seq : Word) : State :=
  match workOpen s r.val seq with
  | none => s
  | some w =>
    if !isTxRing r.val || !lifeOver s r.val w || beingPlaced s r.val seq || decide ((ringAt s r.val).state = .recovering) then s
    else
      let s1 := dropQueued (returnExpired s r.val seq) (fun f => decide (f.src = .work r seq))
      if radHolds s r.val seq then { s1 with rad := { s1.rad with tx := none } } else s1

def execLifetimeExpiry (r : RingNo) (seq : Word) (s : State) : Host.Outcome State Fault Refusal :=
  .next (lifetimeOp s r seq)

/-! ### A packet-buffer bank is lost (R181, R182) -/

/-- The frame that waits in its queue to be read again. -/
def emptied (f : Frame) : Frame := { f with bytes := [], placed := 0, planned := 0, ts := none }

/-- A frame's cells were in the bank. -/
def struck (hit : List Nat) (f : Frame) : Bool := hit.contains f.id && decide (f.src ≠ .pause) && decide (f.bytes ≠ [])

/-- A queue after the bank's loss: accepted frames wait for their second read, a frame partly sent is ended first, a frame sent whole stays, and every other frame struck is gone. -/
def strikeQueue (hit : List Nat) (l : List Frame) : List Frame :=
  l.flatMap (fun f =>
    if !struck hit f || decide (f.bytes.length ≤ f.placed) then [f]
    else (if f.placed = 0 then [] else [endedFrame f]) ++ (if isWork f then [emptied f] else []))

/-- The frame in progress after the bank's loss: ended early where some of it was placed, else gone; accepted work goes back to the head of its queue (R182). -/
def strikeCur (hit : List Nat) (q : Queues) : Queues :=
  match q.cur with
  | none => q
  | some f =>
    if !struck hit f then q
    else
      let p := f.prio.toNat
      let q1 := if isWork f then { q with q := vset q.q p (emptied f :: vget q.q p []) } else q
      if f.placed = 0 then { q1 with cur := none, plain := [], overrunArmed := false } else { q1 with cur := some (endedFrame f) }

/-- Frames of a list that are struck and are not accepted work. -/
def lostCount (hit : List Nat) (l : List Frame) : Nat := (l.filter (fun f => struck hit f && !isWork f)).length

/-- Frames of channel c's two halves that the bank's loss discards. -/
def chanLost (s : State) (hit : List Nat) (c : Nat) : Nat := lostCount hit (dsFrames s c ++ usFrames s c)

/-- The work whose stored frame was struck. -/
def struckWork (s : State) (hit : List Nat) : List (RingNo × Word) :=
  ((List.range 24).flatMap (dsFrames s) ++ hostFrames s).filterMap (fun f =>
    if struck hit f then (match f.src with | .work r q => some (r, q) | _ => none) else none)

/-- Queues and partitions after the bank's loss. -/
def strikeAll (s : State) (hit : List Nat) : State :=
  let keep (l : List Frame) : List Frame := l.filter (fun f => !struck hit f)
  { s with
    chans := vmapIdx (fun c k => { k with
      qs := strikeCur hit { k.qs with q := vmapIdx (fun _ l => strikeQueue hit l) k.qs.q }
      hostRx := keep k.hostRx
      mac := { k.mac with bufUe := k.mac.bufUe + word (chanLost s hit c) } }) s.chans
    upl := { s.upl with tcont := vmapIdx (fun _ l => strikeQueue hit l) s.upl.tcont }
    xc := { s.xc with mgmtRx := keep s.xc.mgmtRx, excRx := keep s.xc.excRx } }

/-- The work is read again, REFETCHED, unless its LIFETIME has run out (R70, R182). -/
def refetchWork (s : State) (x : RingNo × Word) : State :=
  match findWork (ringAt s x.1.val) x.2 with
  | none => s
  | some w =>
    if lifeOver s x.1.val w then dropQueued (returnExpired s x.1.val x.2) (awaits x.1 x.2)
    else setWork s x.1.val x.2 (fun w => { w with stage := .wantRead, refetch := true })

/-- An uncorrectable error in a bank: it is retired, and the frames with cells in it are fetched again or discarded (R181). -/
def bankLostOp (s : State) (bank : Nat) (hit : List Nat) : State :=
  if s.xc.retired.getLsbD bank then s
  else
    let works := struckWork s hit
    let s1 := strikeAll s hit
    let s2 := { s1 with xc := { s1.xc with retired := s1.xc.retired ||| BitVec.ofNat 64 (2 ^ bank) } }
    let s3 := raise s2 Src.bufBankRetired 0xFF 0x11
    let s4 := works.foldl refetchWork s3
    let s5 := (List.range 24).foldl pauseCheck s4
    startRecovery s5 (allRings.filter (fun r => works.any (fun x => x.1 == r))) 0x11 0xFF false [] []

/-- Single-bit errors corrected on read and written back are counted in XC_BUF_CE (R181). -/
def countCorrected (s : State) (n : Nat) : State :=
  raiseC { s with xc := { s.xc with bufCe := s.xc.bufCe + word n } } Src.bufCe 0xFF n

/-- An uncorrectable error in a bank, with the single-bit errors that reads met since the last one. -/
def execBufferUncorrectableError (bank : Fin 64) (e : BankErrors) (s : State) : Host.Outcome State Fault Refusal :=
  .next (bankLostOp (countCorrected s e.corrected) bank.val e.hit)

end Sys2Proof.Machine
end

