-- ==== Sys2Proof/Machine/Sec.lean ====
section
/-! DEFINITION. SEC: key store operations, GCM, CMAC and CCM* operations, check values, GCM core failure and randomness (11_cipher.md). An operation that reads SRC starts here and ends at SEC_OPERATION_COMPLETE; every other one ends in its own step (log 45). Operations on the firmware port wait in its queue and run one after another. -/

namespace Sys2Proof.Machine

open Sys2Proof

def setSec (s : State) (f : Sec → Sec) : State := { s with sec := f s.sec }

/-! ### Requests and their outcomes (R237, R240) -/

/-- The owner a requester is. -/
def secOwner : SecSrc → Owner
  | .host _ => .pf
  | .fw _ => .fw

/-- A firmware operation runs. -/
def fwRuns (s : State) : Bool := s.sec.ops.any (fun o => match o.src with | .fw _ => true | _ => false)

/-- Operations the firmware port holds: those that wait and the one that runs. -/
def portHeld (s : State) : Nat := s.sec.port.length + (if fwRuns s then 1 else 0)

/-- The host's operation is the first of ring 9 not yet taken up. -/
def secTurn (s : State) (seq : Word) : Bool :=
  match (ringAt s 9).work.find? (fun w => w.ret.isNone && decide (w.stage = .accepted)) with
  | none => false
  | some w => w.seq == seq

/-- An operation block read at ADDR (Table 11.4, little-endian). -/
def blockOf (b : List Byte) : OpBlock where
  src := BitVec.ofNat 64 (leAt b 0 8)
  dst := BitVec.ofNat 64 (leAt b 8 8)
  srcLen := word (leAt b 16 4)
  aadLen := word (leAt b 20 4)
  iv := fit 16 (b.drop 24)
  tag := fit 16 (b.drop 40)

/-- A request is returned with a status. -/
def secReturn (s : State) (q : SecSrc) (st : Status) : State :=
  match q with
  | .host seq => returnWork s 9 seq st
  | .fw _ => emitOut s (.fwOutcome st.code 0 0)

/-- A request is executed with an outcome. -/
def secDone (s : State) (q : SecSrc) (st : Status) (r0 r1 : Word) : State :=
  match q with
  | .host seq => emitWork s 9 seq (Outcome.of st r0 r1)
  | .fw _ => emitOut s (.fwOutcome st.code r0.toNat r1.toNat)

/-- An earlier operation of the requester is still running. -/
def secBusy (s : State) (q : SecSrc) : Bool := s.sec.ops.any (fun o => secOwner o.src = secOwner q)

/-- A request is returned by a check, or acts. -/
def secDo (s : State) (q : SecSrc) (c : Option Status) (act : State) : State := match c with | some st => secReturn s q st | none => act

/-- The first status of a list of failed checks. -/
def firstOf : List (Bool × Status) → Option Status
  | [] => none
  | (bad, st) :: t => if bad then some st else firstOf t

/-- A handle is stale or its slot of none of the kinds. -/
def keyWrong (s : State) (h : Half) (kinds : List Nat) : Bool :=
  !handleLive s h || !kinds.contains (slotAt s (handleSlot h)).kind.toNat

/-- A handle's slot belongs to another owner. -/
def notOwner (s : State) (q : SecSrc) (h : Half) : Bool := decide ((slotAt s (handleSlot h)).owner ≠ secOwner q)

/-- The handle in bits 15:0 of a parameter. -/
def handleIn (w : Word) : Half := BitVec.ofNat 16 w.toNat

/-- Bytes the host names lie in windows; a length of 0 needs none, and CORE addresses are not checked (R237, R244). -/
def secOpen (s : State) (q : SecSrc) (write : Bool) (addr len : Nat) : Bool :=
  match q with
  | .host _ => len == 0 || inWindows s 0 write addr len
  | .fw _ => true

/-- Two byte ranges overlap. -/
def overlap (a n b m : Nat) : Bool := decide (0 < n) && decide (0 < m) && decide (a < b + m) && decide (b < a + n)

/-- Output bytes are written: to host memory, or to CORE memory for firmware. -/
def secWrite (s : State) (q : SecSrc) (addr : Nat) (b : List Byte) : State :=
  if b = [] then s
  else
    match q with
    | .host _ => sendWrite s 0 addr b
    | .fw _ => emitOut s (.toFirmware b)

/-- A window check that a host operation fails is reported as any transfer's is, with the address that failed it (R56). -/
def secFault (s : State) (q : SecSrc) (addr : Nat) : State := match q with | .host _ => ringWindowFault s 9 addr | .fw _ => s

/-- A range outside the windows returns the operation RET_WINDOW; else it goes on. -/
def secWindow (s : State) (q : SecSrc) (write : Bool) (addr len : Nat) (go : State) : State :=
  if secOpen s q write addr len then go else secReturn (secFault s q addr) q .retWindow

/-- A failed read returns the operation RET_DMA (R62). -/
def secReadFailed (s : State) (q : SecSrc) (res : XferResult) (addr : Nat) : State :=
  match q with
  | .host seq =>
    returnWork (latchFault (setRing s 9 (fun g => { g with dmaErr := true })) (xferKind res) 9 0 addr) 9 seq .retDma
  | .fw _ => secReturn s q .retDma

/-- Bytes the host holds are read; CORE memory needs no request. -/
def secRead (s : State) (q : SecSrc) (addr len : Nat) : State :=
  match q with
  | .host _ => if len = 0 then s else sendRead s 0 addr len
  | .fw _ => s

/-- An operation starts its reads. -/
def secStart (s : State) (q : SecSrc) (d : Desc) (blk : Option OpBlock) (addr len : Nat) : State :=
  let s1 := secRead (setSec s (fun x => { x with ops := x.ops ++ [{ src := q, d := d, blk := blk }] })) q addr len
  match q with
  | .host seq => setWork s1 9 seq (fun w => { w with stage := .queued })
  | .fw _ => s1

/-! ### Operations over an operation block (R244, Table 11.4) -/

/-- Output bytes of GCM and CCM*. -/
def outLen (b : OpBlock) : Nat := b.srcLen.toNat - b.aadLen.toNat

/-- The block's lengths are outside their ranges. -/
def lenBad (b : OpBlock) : Bool := decide (65536 < b.srcLen.toNat) || decide (b.srcLen.toNat < b.aadLen.toNat)

/-- What precedes the reading of the operation block: the descriptor's checks, LEN 64, the block's window and its read (log 46). -/
def withBlock (s : State) (q : SecSrc) (d : Desc) (res : XferResult) (raw : List Byte) (pre : Option Status) (tagOut : Bool)
    (act : State → OpBlock → State) : State :=
  let a := d.addr.toNat
  match firstOf [(decide (d.len ≠ 64), .retLength)] <|> pre with
  | some st => secReturn s q st
  | none =>
    secWindow s q false a 64 (secWindow s q tagOut a 64 (
      if res ≠ .ok then secReadFailed (secRead s q a 64) q res a
      else if raw.length ≠ 64 then s
      else act (secRead s q a 64) (blockOf raw)))

/-- Checks of a cipher operation on its descriptor: handle, owner, cores. -/
def cipherPre (s : State) (q : SecSrc) (d : Desc) (kinds : List Nat) (gcm : Bool) : Option Status :=
  let h := handleIn d.p0
  firstOf [(keyWrong s h kinds, .retKey), (notOwner s q h, .retDenied), (gcm && decide (coresLeft s = 0), .retPart)]

/-- Checks on its block: lengths, then overlap of its n output bytes with SRC or the block. -/
def cipherCheck (d : Desc) (b : OpBlock) (n : Nat) : Option Status :=
  firstOf [(lenBad b, .retLength),
    (overlap b.dst.toNat n b.src.toNat b.srcLen.toNat || overlap b.dst.toNat n d.addr.toNat 64, .retParam)]

/-- A cipher operation is checked and its source read; `out`: it writes DST, `tagOut`: it writes its block. -/
def cipherStart (s : State) (q : SecSrc) (d : Desc) (res : XferResult) (raw : List Byte) (kinds : List Nat) (out tagOut gcm : Bool) : State :=
  withBlock s q d res raw (cipherPre s q d kinds gcm) tagOut (fun t b =>
    let n := if out then outLen b else 0
    secDo t q (cipherCheck d b n)
      (secWindow t q false b.src.toNat b.srcLen.toNat (secWindow t q true b.dst.toNat n
        (secStart t q d (some b) b.src.toNat b.srcLen.toNat))))

/-- GCM_ENCRYPT is checked and started (R240, R244). -/
def gcmEncryptRun (s : State) (q : SecSrc) (d : Desc) (res : XferResult) (raw : List Byte) : State :=
  cipherStart s q d res raw [1, 2] true true true

/-- GCM_DECRYPT is checked and started. -/
def gcmDecryptRun (s : State) (q : SecSrc) (d : Desc) (res : XferResult) (raw : List Byte) : State :=
  cipherStart s q d res raw [1, 2] true false true

/-- Bit 21 VERIFY of CMAC. -/
def cmacVerify (d : Desc) : Bool := bitOf d.p0 21

/-- CMAC is checked and started; its keys are CMAC and PON_IK (Table 11.2). -/
def cmacRun (s : State) (q : SecSrc) (d : Desc) (res : XferResult) (raw : List Byte) : State :=
  cipherStart s q d res raw [7, 11] false (!cmacVerify d) true

/-- MIC length of CCM_STAR. -/
def ccmMic (d : Desc) : Nat :=
  match bits d.p0 23 22 with
  | 0 => 0 | 1 => 4 | 2 => 8 | _ => 16

/-- Bit 24 ENC of CCM_STAR: 1 encrypts and writes the tag, 0 decrypts and verifies it (log 47). -/
def ccmEnc (d : Desc) : Bool := bitOf d.p0 24

/-- CCM_STAR is checked and started on the byte-serial core. -/
def ccmStarRun (s : State) (q : SecSrc) (d : Desc) (res : XferResult) (raw : List Byte) : State :=
  cipherStart s q d res raw [10] true (ccmEnc d) false

/-! ### Creating keys (R241, R246, R257) -/

/-- KIND of a creating operation. -/
def kindOf (d : Desc) : Nat := bits d.p0 19 16

/-- Kinds a requester may create; CAPSULE and ROOT are the terminal's own. -/
def kindMade (k : Nat) : Bool := decide (1 ≤ k) && decide (k ≤ 11)

/-- Key bytes of a kind; a WRAP key has 16 or 32. -/
def kindBytes (k n : Nat) : Bool :=
  match k with
  | 2 | 4 => n == 32
  | 9 => n == 16 || n == 32
  | _ => n == 16

/-- The requester's slots (R241). -/
def rangeOfOwner (s : State) (q : SecSrc) : List Nat :=
  match q with
  | .host _ => (List.range 64).filter (fun i => decide (1 ≤ i) && decide (i < s.sec.split.toNat))
  | .fw _ => (List.range 64).filter (fun i => decide (s.sec.split.toNat ≤ i))

/-- The lowest free slot of the requester's range. -/
def freeKeySlot (s : State) (q : SecSrc) : Option Nat := (rangeOfOwner s q).find? (fun i => !(slotAt s i).valid)

/-- A key enters a slot with its packet number at 1 (R253). -/
def makeKey (s : State) (q : SecSrc) (i kind : Nat) (exportable : Bool) (key : List Byte) (salt : Option (List Byte)) : State :=
  refreshKeys (setSlot s i (fun k => { k with
    valid := true, kind := BitVec.ofNat 4 kind, owner := secOwner q, exportable := exportable, key := key, salt := salt, pn := 1 }))

/-- A created key's outcome, or RET_BUSY. -/
def createKey (s : State) (q : SecSrc) (kind : Nat) (exportable : Bool) (key : List Byte) (salt : Option (List Byte)) : State :=
  match freeKeySlot s q with
  | none => secReturn s q .retBusy
  | some i => secDone (makeKey s q i kind exportable key salt) q .ok (word (handleOf s i).toNat) 0

/-- Whether a new MACsec key is an XPN key, with a salt, is not stated by its descriptor: a free value (log 48). -/
def xpnFree (s : State) (kind : Nat) : Bool := (kind == 3 || kind == 4) && (Config.freeWord s.free).getLsbD 0

/-- Bytes drawn for a generated key; the length of a WRAP key is a free value (log 48). -/
def genBytes (s : State) (kind : Nat) : Nat :=
  match kind with
  | 2 | 4 => 32
  | 9 => if (Config.freeWord s.free).getLsbD 1 then 32 else 16
  | _ => 16

/-- A generate request is counted; the 65,536th reseeds the DRBG (R261). -/
def countDraw (s : State) : State :=
  setSec (drew s) (fun x =>
    if x.drbgCount + 1 = 65536 then { x with drbgCount := 0, drbgSeed := s.free } else { x with drbgCount := x.drbgCount + 1 })

/-- KEY_GEN draws key bytes, and an XPN key's salt, from the DRBG. -/
def keyGenRun (s : State) (q : SecSrc) (d : Desc) : State :=
  secDo s q (firstOf [(!kindMade (kindOf d), .retParam), (s.sec.trngFail, .retPart), ((freeKeySlot s q).isNone, .retBusy)])
    (let k := kindOf d
     let salt := if xpnFree s k then some (fit 12 (Config.drawBytes (s.free + 1) 12)) else none
     createKey (countDraw (drew s)) q k (bitOf d.p0 20) (fit (genBytes s k) (Config.drawBytes s.free (genBytes s k))) salt)

/-- KEY_LOAD is taken only from the host, while PLAIN_LOAD_DIS is 0 (R246). -/
def keyLoadPre (s : State) (q : SecSrc) (d : Desc) : Option Status :=
  firstOf [(decide (secOwner q ≠ .pf) || s.sec.plainDis, .retDenied), (!kindMade (kindOf d), .retParam)]

/-- KEY_LOAD reads the key's bytes at SRC. -/
def keyLoadRun (s : State) (q : SecSrc) (d : Desc) (res : XferResult) (raw : List Byte) : State :=
  withBlock s q d res raw (keyLoadPre s q d) false (fun t b =>
    secDo t q (firstOf [(!kindBytes (kindOf d) b.srcLen.toNat, .retLength), ((freeKeySlot t q).isNone, .retBusy)])
      (secWindow t q false b.src.toNat b.srcLen.toNat (secStart t q d (some b) b.src.toNat b.srcLen.toNat)))

/-- KEY_IMPORT's kind and WRAP handle. -/
def keyImportPre (s : State) (q : SecSrc) (d : Desc) : Option Status :=
  let h := handleIn d.p1
  firstOf [(!kindMade (kindOf d), .retParam), (keyWrong s h [9], .retKey), (notOwner s q h, .retDenied)]

/-- KEY_IMPORT reads 24 or 40 bytes of RFC 3394 output. -/
def keyImportRun (s : State) (q : SecSrc) (d : Desc) (res : XferResult) (raw : List Byte) : State :=
  withBlock s q d res raw (keyImportPre s q d) false (fun t b =>
    secDo t q (firstOf [(decide (b.srcLen.toNat < 8) || !kindBytes (kindOf d) (b.srcLen.toNat - 8), .retLength),
        ((freeKeySlot t q).isNone, .retBusy)])
      (secWindow t q false b.src.toNat b.srcLen.toNat (secStart t q d (some b) b.src.toNat b.srcLen.toNat)))

/-- METHOD and the kinds it joins (R246). -/
def exportOk (s : State) (d : Desc) : Bool :=
  let k := slotAt s (handleSlot (handleIn d.p0))
  let w := slotAt s (handleSlot (handleIn d.p1))
  k.exportable && (match bits d.p1 17 16 with
    | 0 => w.kind == 9
    | 1 => k.kind == 5 && w.kind == 8
    | _ => false)

/-- Bytes an export writes: RFC 3394 adds 8. -/
def exportLen (s : State) (d : Desc) : Nat :=
  (slotAt s (handleSlot (handleIn d.p0))).key.length + (if bits d.p1 17 16 = 0 then 8 else 0)

/-- The wrapped key. -/
def exported (s : State) (d : Desc) : List Byte :=
  let k := slotAt s (handleSlot (handleIn d.p0))
  let w := slotAt s (handleSlot (handleIn d.p1))
  fit (exportLen s d) (if bits d.p1 17 16 = 0 then Config.keyWrap w.key k.key else Config.aesEcb w.key k.key)

/-- KEY_EXPORT's handles, owners and METHOD. -/
def keyExportPre (s : State) (q : SecSrc) (d : Desc) : Option Status :=
  let h := handleIn d.p0
  let w := handleIn d.p1
  firstOf [(keyWrong s h [1, 2, 3, 4, 5, 6, 7, 8, 9, 10, 11] || keyWrong s w [8, 9], .retKey),
    (notOwner s q h || notOwner s q w, .retDenied), (!exportOk s d, .retKey)]

/-- KEY_EXPORT writes the key wrapped by METHOD 0 or 1. -/
def keyExportRun (s : State) (q : SecSrc) (d : Desc) (res : XferResult) (raw : List Byte) : State :=
  withBlock s q d res raw (keyExportPre s q d) false (fun t b =>
    secDo t q (firstOf [(overlap b.dst.toNat (exportLen t d) d.addr.toNat 64, .retParam)])
      (secWindow t q true b.dst.toNat (exportLen t d)
        (secDone (secWrite t q b.dst.toNat (exported t d)) q .ok (word (exportLen t d)) 0)))

/-- SELECTOR of KEY_DERIVE. -/
def selectorOf (d : Desc) : Nat := bits d.p1 23 16

/-- KEY_DERIVE's checks: selector 8 is the boot monitor's alone (R257; log 46). -/
def deriveCheck (s : State) (q : SecSrc) (d : Desc) : Option Status :=
  let h := handleIn d.p1
  let src := decide (selectorOf d ≤ 2)
  firstOf [(decide (selectorOf d = 8), .retDenied), (decide (3 < selectorOf d), .retParam),
    (src && keyWrong s h [6], .retKey), (src && notOwner s q h, .retDenied), ((freeKeySlot s q).isNone, .retBusy)]

/-- The derived key. -/
def derived (s : State) (d : Desc) : List Byte :=
  if selectorOf d = 3 then Config.defaultPloamIk
  else Config.cmac (slotAt s (handleSlot (handleIn d.p1))).key (Config.deriveConst (selectorOf d))

def keyDeriveRun (s : State) (q : SecSrc) (d : Desc) : State :=
  secDo s q (deriveCheck s q d) (createKey s q (if selectorOf d = 2 then 8 else 7) (bitOf d.p0 20) (derived s d) none)

/-- The slot is cleared: its key gone and GEN raised (R239, R242). -/
def clearSlot (k : Slot) : Slot := { Slot.empty with gen := k.gen + 1 }

/-- KEY_CLEAR's checks: slot 0 is never cleared. -/
def clearCheck (s : State) (q : SecSrc) (d : Desc) : Option Status :=
  let h := handleIn d.p0
  firstOf [(keyWrong s h [1, 2, 3, 4, 5, 6, 7, 8, 9, 10, 11, 12], .retKey), (notOwner s q h, .retDenied)]

/-- KEY_CLEAR follows every earlier operation of its requester (R242). -/
def keyClearRun (s : State) (q : SecSrc) (d : Desc) : State :=
  if secBusy s q then s
  else secDo s q (clearCheck s q d) (secDone (refreshKeys (setSlot s (handleSlot (handleIn d.p0)) clearSlot)) q .ok 0 0)

/-- SEC_KS_INFO of a slot. -/
def slotImage (k : Slot) : Word :=
  word (flagAt k.valid 31 + fieldAt k.kind.toNat 4 27 + fieldAt k.owner.code 2 25 + flagAt k.exportable 24 + fieldAt k.gen.toNat 8 16)

def keyInfoRun (s : State) (q : SecSrc) (d : Desc) : State :=
  secDo s q (firstOf [(!handleLive s (handleIn d.p0), .retKey), (notOwner s q (handleIn d.p0), .retDenied)])
    (secDone s q .ok (slotImage (slotAt s (handleSlot (handleIn d.p0)))) 0)

/-- RANDOM writes LEN bytes of the DRBG at ADDR (R261). -/
def randomRun (s : State) (q : SecSrc) (d : Desc) : State :=
  let n := d.len.toNat
  secDo s q (firstOf [(s.sec.trngFail, .retPart)])
    (secWindow s q true d.addr.toNat n
      (secDone (secWrite (countDraw s) q d.addr.toNat (fit n (Config.drawBytes s.free n))) q .ok 0 0))

/-! ### Check values (R262 to R264) -/

/-- The context a descriptor names, and its requester's contexts. -/
def cvIdx (d : Desc) : Nat := bits d.p0 2 0
def cvMine (q : SecSrc) (i : Nat) : Bool := match q with | .host _ => decide (i < 6) | .fw _ => decide (6 ≤ i)

/-- Initial value of an algorithm (Table 11.7). -/
def cvInit (alg : Nat) : Word :=
  match alg with
  | 0 | 1 => 0xFFFFFFFF
  | 2 => 0xFFFF
  | _ => 0

/-- A context at an algorithm's initial value. -/
def cvFresh (alg : Nat) : CvCtx := { alg := BitVec.ofNat 2 alg, run := cvInit alg, odd := false, pend := 0 }

/-- A 16-bit sum with end-around carry. -/
def foldSum (n : Nat) : Nat := let x := n / 65536 + n % 65536; x / 65536 + x % 65536

/-- One byte into a context. -/
def cvByte (k : CvCtx) (b : Byte) : CvCtx :=
  match k.alg.toNat with
  | 0 => { k with run := word (crcByte 0xEDB88320 k.run.toNat b) }
  | 1 => { k with run := word (crcByte 0x82F63B78 k.run.toNat b) }
  | 2 => { k with run := word (crc16Byte k.run.toNat b) }
  | _ =>
    if k.odd then { k with run := word (foldSum (k.run.toNat + 256 * k.pend.toNat + b.toNat)), odd := false, pend := 0 }
    else { k with odd := true, pend := b }

/-- The final value: a pending byte is padded first. -/
def cvFinal (k : CvCtx) : Word :=
  match k.alg.toNat with
  | 0 | 1 => ~~~k.run
  | 2 => k.run
  | _ => word (65535 - (if k.odd then foldSum (k.run.toNat + 256 * k.pend.toNat) else k.run.toNat))

/-- CV_UPDATE over its data: RESULT0 and the context after it. Without INIT the context keeps its own algorithm (log 49). -/
def cvUpdate (p0 : Word) (k : CvCtx) (data : List Byte) : Word × CvCtx :=
  let k0 := if bitOf p0 8 then cvFresh (bits p0 5 4) else k
  let k1 := data.foldl cvByte k0
  if bitOf p0 9 then (cvFinal k1, cvFresh 0) else (k1.run, k1)

def ctxAt (s : State) (i : Nat) : CvCtx := vget s.sec.ctxs i CvCtx.empty
def setCtx (s : State) (i : Nat) (k : CvCtx) : State := setSec s (fun x => { x with ctxs := vset x.ctxs i k })

/-- CV_UPDATE is checked and its data read; operations of one requester's contexts take effect in order. -/
def cvUpdateRun (s : State) (q : SecSrc) (d : Desc) : State :=
  secDo s q (firstOf [(!cvMine q (cvIdx d), .retDenied), (decide (65536 < d.len.toNat), .retLength)])
    (secWindow s q false d.addr.toNat d.len.toNat
      (if secBusy s q then s else secStart s q d none d.addr.toNat d.len.toNat))

/-- The state word of a context (R264). -/
def cvState (k : CvCtx) : Word := word (fieldAt k.alg.toNat 2 4 + flagAt k.odd 6 + fieldAt k.pend.toNat 8 8)

def cvSaveRun (s : State) (q : SecSrc) (d : Desc) : State :=
  if secBusy s q then s
  else secDo s q (firstOf [(!cvMine q (cvIdx d), .retDenied)])
    (secDone s q .ok (ctxAt s (cvIdx d)).run (cvState (ctxAt s (cvIdx d))))

/-- The context a CV_RESTORE spells. -/
def cvSpelled (d : Desc) : CvCtx :=
  { alg := BitVec.ofNat 2 (bits d.p0 5 4), run := d.p1, odd := bitOf d.p0 6, pend := BitVec.ofNat 8 (bits d.p0 15 8) }

/-- A running value wider than its algorithm, or a pending byte without ODD. -/
def cvBad (k : CvCtx) : Bool := (decide (2 ≤ k.alg.toNat) && decide (65536 ≤ k.run.toNat)) || (!k.odd && k.pend != 0)

def cvRestoreRun (s : State) (q : SecSrc) (d : Desc) : State :=
  if secBusy s q then s
  else secDo s q (firstOf [(!cvMine q (cvIdx d), .retDenied), (cvBad (cvSpelled d), .retParam)])
    (secDone (setCtx s (cvIdx d) (cvSpelled d)) q .ok 0 0)

/-! ### Taking an operation up (R44, R237, R248) -/

/-- An operation that is taken up: by its opcode (Table 11.3). -/
def secRun (s : State) (q : SecSrc) (d : Desc) (res : XferResult) (raw : List Byte) : State :=
  match d.opcode.toNat with
  | 0x0010 => gcmEncryptRun s q d res raw
  | 0x0011 => gcmDecryptRun s q d res raw
  | 0x0012 => cmacRun s q d res raw
  | 0x0013 => cvUpdateRun s q d
  | 0x0014 => cvSaveRun s q d
  | 0x0015 => cvRestoreRun s q d
  | 0x0016 => keyGenRun s q d
  | 0x0017 => keyLoadRun s q d res raw
  | 0x0018 => keyImportRun s q d res raw
  | 0x0019 => keyExportRun s q d res raw
  | 0x001A => keyDeriveRun s q d
  | 0x001B => keyClearRun s q d
  | 0x001C => keyInfoRun s q d
  | 0x001D => randomRun s q d
  | 0x001E => ccmStarRun s q d res raw
  | _ => s

/-- Operations of the firmware port run in queue order, each once the one before it has ended. The first argument bounds their number. -/
def portTurn : Nat → State → State
  | 0, s => s
  | n + 1, s =>
    if fwRuns s then s
    else
      match s.sec.port with
      | [] => s
      | r :: t => portTurn n (secRun (setSec s (fun x => { x with port := t })) (.fw r.d) r.d r.res r.raw)

/-- An operation of an opcode: the host's is taken up when it is the first of ring 9 not taken up; firmware's enters its port, which holds 16 (a full one takes nothing; log 189). -/
def secCommand (s : State) (q : SecSrc) (op : Nat) (res : XferResult) (raw : List Byte) : State :=
  match q with
  | .host seq =>
    match workAt s 9 seq op .accepted with
    | none => s
    | some w => if secTurn s seq && journalRoom s then secRun s q w.d res raw else s
  | .fw d =>
    if d.opcode.toNat = op ∧ s.pwr.domHif ∧ portHeld s < 16 then
      portTurn 16 (setSec s (fun x => { x with port := x.port ++ [{ d := d, res := res, raw := raw }] }))
    else s

def execGcmEncrypt (q : SecSrc) (blk : BlockRead) (s : State) : Host.Outcome State Fault Refusal :=
  .next (secCommand s q 0x0010 blk.res blk.raw)

def execGcmDecrypt (q : SecSrc) (blk : BlockRead) (s : State) : Host.Outcome State Fault Refusal :=
  .next (secCommand s q 0x0011 blk.res blk.raw)

def execCmac (q : SecSrc) (blk : BlockRead) (s : State) : Host.Outcome State Fault Refusal :=
  .next (secCommand s q 0x0012 blk.res blk.raw)

def execCvUpdate (q : SecSrc) (s : State) : Host.Outcome State Fault Refusal := .next (secCommand s q 0x0013 .ok [])

def execCvSave (q : SecSrc) (s : State) : Host.Outcome State Fault Refusal := .next (secCommand s q 0x0014 .ok [])

def execCvRestore (q : SecSrc) (s : State) : Host.Outcome State Fault Refusal := .next (secCommand s q 0x0015 .ok [])

def execKeyGen (q : SecSrc) (s : State) : Host.Outcome State Fault Refusal := .next (secCommand s q 0x0016 .ok [])

def execKeyLoad (q : SecSrc) (blk : BlockRead) (s : State) : Host.Outcome State Fault Refusal :=
  .next (secCommand s q 0x0017 blk.res blk.raw)

def execKeyImport (q : SecSrc) (blk : BlockRead) (s : State) : Host.Outcome State Fault Refusal :=
  .next (secCommand s q 0x0018 blk.res blk.raw)

def execKeyExport (q : SecSrc) (blk : BlockRead) (s : State) : Host.Outcome State Fault Refusal :=
  .next (secCommand s q 0x0019 blk.res blk.raw)

def execKeyDerive (q : SecSrc) (s : State) : Host.Outcome State Fault Refusal := .next (secCommand s q 0x001A .ok [])

def execKeyClear (q : SecSrc) (s : State) : Host.Outcome State Fault Refusal := .next (secCommand s q 0x001B .ok [])

def execKeyInfo (q : SecSrc) (s : State) : Host.Outcome State Fault Refusal := .next (secCommand s q 0x001C .ok [])

def execRandom (q : SecSrc) (s : State) : Host.Outcome State Fault Refusal := .next (secCommand s q 0x001D .ok [])

def execCcmStar (q : SecSrc) (blk : BlockRead) (s : State) : Host.Outcome State Fault Refusal :=
  .next (secCommand s q 0x001E blk.res blk.raw)

/-! ### Completion (R242, R245) -/

/-- A decryption's end: output and OK, or zeros over every output byte and VERIFY_FAILED (R245). -/
def verified (s : State) (q : SecSrc) (dst : Nat) (out : List Byte) (ok : Bool) : State :=
  if ok then secDone (secWrite s q dst out) q .ok 0 0
  else secDone (secWrite (secWrite s q dst out) q dst (zeros out.length)) q .verifyFailed 0 0

/-- An encryption's end: output, and the tag into the operation block. -/
def sealedOut (s : State) (q : SecSrc) (d : Desc) (dst : Nat) (out tag : List Byte) : State :=
  secDone (secWrite (secWrite s q dst out) q (d.addr.toNat + 40) tag) q .ok 0 0

/-- A cipher, loading or importing operation acts on the bytes of SRC; outputs have the lengths of R244. CCM* encrypts unless every byte is authenticated only (R259, log 47). -/
def blockDone (s : State) (q : SecSrc) (d : Desc) (b : OpBlock) (data : List Byte) : State :=
  let key := (slotAt s (handleSlot (handleIn d.p0))).key
  let aad := data.take b.aadLen.toNat
  let body := data.drop b.aadLen.toNat
  let dst := b.dst.toNat
  let salt := if xpnFree s (kindOf d) then some (b.iv.take 12) else none
  match d.opcode.toNat with
  | 0x0010 =>
    let (ct, tag) := gcmSealed key (b.iv.take 12) aad body
    sealedOut s q d dst ct tag
  | 0x0011 =>
    let (pt, tag) := gcmOpened key (b.iv.take 12) aad body
    verified s q dst pt (tag == b.tag)
  | 0x0012 =>
    let tag := fit 16 (Config.cmac key data)
    if cmacVerify d then secDone s q (if tag = b.tag then .ok else .verifyFailed) 0 0
    else secDone (secWrite s q (d.addr.toNat + 40) tag) q .ok 0 0
  | 0x001E =>
    let m := ccmMic d
    let (out, tag) := (if ccmEnc d then ccmSealed else ccmOpened) key (b.iv.take 13) aad body m (decide (body ≠ []))
    if ccmEnc d then sealedOut s q d dst out tag else verified s q dst out (tag == b.tag.take m)
  | 0x0017 => createKey (drew s) q (kindOf d) (bitOf d.p0 20) data salt
  | _ =>
    match Config.keyUnwrap (slotAt s (handleSlot (handleIn d.p1))).key data with
    | none => secDone s q .verifyFailed 0 0
    | some k => createKey (drew s) q (kindOf d) (bitOf d.p0 20) (fit (b.srcLen.toNat - 8) k) salt

/-- CV_UPDATE commits in one step (R263). -/
def cvDone (s : State) (q : SecSrc) (d : Desc) (data : List Byte) : State :=
  let (v, k) := cvUpdate d.p0 (ctxAt s (cvIdx d)) data
  secDone (setCtx s (cvIdx d) k) q .ok v 0

/-- Source bytes an operation reads. -/
def secSrcLen (o : SecOp) : Nat := match o.blk with | some b => b.srcLen.toNat | none => o.d.len.toNat

/-- The operation under way may be completed now: its outcome finds a journal entry, and its ring is not recovering. -/
def secMayEnd (s : State) (q : SecSrc) : Bool :=
  match q with
  | .host seq => (workAt s 9 seq ((match findWork (ringAt s 9) seq with | some w => w.d.opcode.toNat | none => 0)) .queued).isSome && journalRoom s
  | .fw _ => true

def secCompleteOp (s : State) (q : SecSrc) (res : XferResult) (data : List Byte) : State :=
  match s.sec.ops.find? (fun o => decide (o.src = q)) with
  | none => s
  | some o =>
    if !secMayEnd s q then s
    else
      let s1 := setSec s (fun x => { x with ops := eraseFirst (fun o => decide (o.src = q)) x.ops })
      if res ≠ .ok then
        secReadFailed s1 q res (match o.blk with | some b => b.src.toNat | none => o.d.addr.toNat)
      else if data.length ≠ secSrcLen o then s
      else
        match o.blk with
        | some b => blockDone s1 q o.d b data
        | none => cvDone s1 q o.d data

/-- A SEC operation's reads end: it acts and its outcome is formed, or it is returned RET_DMA; the firmware port goes on. -/
def execSecOperationComplete (q : SecSrc) (res : XferResult) (data : List Byte) (s : State) : Host.Outcome State Fault Refusal :=
  .next (portTurn 16 (secCompleteOp s q res data))

/-! ### GCM cores (R249, R250) -/

/-- The frame in progress of channel c, protected and partly in the DTU stream, is ended with its FCS inverted and put back whole at the head of its queue. -/
def rerunCur (q : Queues) : Queues :=
  match q.cur with
  | none => q
  | some f =>
    if f.src = .pause ∨ f.placed = 0 then q
    else
      let p := f.prio.toNat
      { q with cur := some (endedFrame f), q := vset q.q p ({ f with bytes := q.plain, placed := 0, ts := none } :: vget q.q p []) }

/-- Channel c protects its frames. -/
def protects (s : State) (c : Nat) : Bool := match (chanAt s c).tab.mac with | none => false | some m => m.txEn

/-- The ring of channel c whose frame in progress is re-run. -/
def rerunRing (s : State) (c : Nat) : Option RingNo :=
  if protects s c then
    match (chanAt s c).qs.cur with
    | some f => (match f.src with | .work r _ => some r | _ => none)
    | none => none
  else none

/-- An operation on a GCM core. -/
def onCore (o : SecOp) : Bool := o.d.opcode == 0x0010 || o.d.opcode == 0x0011 || o.d.opcode == 0x0012

/-- An operation that was on the failed core reads SRC again (R249). -/
def rerunOp (s : State) (o : SecOp) : State := match o.blk with | some b => secRead s o.src b.src.toNat b.srcLen.toNat | none => s

/-- Without a core, running GCM and CMAC operations are returned RET_PART (R250). -/
def sweepOps (s : State) : State :=
  if coresLeft s = 0 then
    let l := s.sec.ops.filter onCore
    portTurn 16 (l.foldl (fun t o => secReturn t o.src .retPart) (setSec s (fun x => { x with ops := x.ops.filter (fun o => !onCore o) })))
  else s

/-- A core fails: it is retired, what it carried runs again on another core, and recovery 0x10 follows (R249); with no core left, protected work and operations are returned (R250). -/
def coreFailOp (s : State) (core : Nat) (chans : List Nat) (ops : List SecSrc) : State :=
  if s.sec.retired.getLsbD core then s
  else
    let s1 := setSec s (fun x => { x with retired := x.retired ||| BitVec.ofNat 4 (2 ^ core) })
    let s2 := raise s1 Src.gcmCoreFail 0xFF 0x10
    let rings := chans.filterMap (rerunRing s2)
    let s3 := chans.foldl (fun t c => if protects t c then setQs t c rerunCur else t) s2
    let s4 := (s3.sec.ops.filter (fun o => onCore o && ops.contains o.src)).foldl rerunOp s3
    let s5 := sweepOps ((List.range 24).foldl sweepNoCore s4)
    startRecovery s5 (allRings.filter (fun r => decide (r.val = 9) || rings.contains r)) 0x10 0xFF false [] []

def execGcmCoreFail (core : Fin 4) (hit : CoreHit) (s : State) : Host.Outcome State Fault Refusal :=
  .next (coreFailOp s core.val (hit.chans.map (fun c => c.val)) hit.ops)

/-- The known-answer test runs between segments: no request is on the core (R249). -/
def execGcmKnownAnswerTest (core : Fin 4) (pass : Bool) (s : State) : Host.Outcome State Fault Refusal :=
  .next (if pass then s else coreFailOp s core.val [] [])

/-! ### Randomness (R260, R261) -/

/-- A health test fails. -/
def trngFailOp (s : State) : State :=
  raise (raise (setSec s (fun x => { x with trngFail := true, maskStale := true })) Src.trngFail 0xFF 0) Src.maskStale 0xFF 0

def execTrngHealthFail (s : State) : Host.Outcome State Fault Refusal := .next (trngFailOp s)

/-- Both generators take a new seed from the TRNG. -/
def reseedBoth (s : State) : State :=
  setSec (drew s) (fun x => { x with drbgCount := 0, drbgSeed := s.free, maskSeed := s.free })

/-- The start-up test repeated once a second. -/
def execTrngRetest (pass : Bool) (s : State) : Host.Outcome State Fault Refusal :=
  .next (
    if pass then
      (if s.sec.trngFail then setSec (reseedBoth s) (fun x => { x with trngFail := false, maskStale := false }) else s)
    else if s.sec.trngFail then s else trngFailOp s)

/-- The DRBG is reseeded, unless the TRNG has failed. -/
def execDrbgReseed (s : State) : Host.Outcome State Fault Refusal :=
  .next (if s.sec.trngFail then s else setSec (drew s) (fun x => { x with drbgCount := 0, drbgSeed := s.free }))

/-- The mask generator is reseeded; while the TRNG has failed it runs on with its last seed. -/
def execMaskReseed (s : State) : Host.Outcome State Fault Refusal :=
  .next (if s.sec.trngFail then s else setSec (drew s) (fun x => { x with maskSeed := s.free }))

/-! ### Resets (R243) -/

/-- Slots 1 to 63 cleared: the GEN of each rises, an empty one's too (R239, R243). -/
def clearKeys (s : State) : State :=
  setSec s (fun x => { x with slots := vmapIdx (fun i k => if i = 0 then k else clearSlot k) x.slots })

end Sys2Proof.Machine
end

