-- ==== Sys2Proof/Machine/Radio.lean ====
section
/-! DEFINITION. The building radio (12_radio.md): channel access, the duty governor, transmission and its acknowledgement, reception and the device table. -/

namespace Sys2Proof.Machine

open Sys2Proof

def setRad (s : State) (f : Rad → Rad) : State := { s with rad := f s.rad }

/-- Counters at RAD + 0x0400 by position; each is its event source's count too, for the sources the manual gives one (Table 16.3). -/
def radCount (s : State) (i : Nat) : State := setRad s (fun r => { r with cnt := vset r.cnt i (vget r.cnt i 0 + 1) })

/-! ### Channels and frames (R266, R268, Table 12.2) -/

/-- Channel number, mode and band of a channel word (PARAM0 bits 10:0). -/
def chNum (ch : BitVec 11) : Nat := ch.toNat % 256
def chMode (ch : BitVec 11) : Nat := ch.toNat / 256 % 4
def chBand (ch : BitVec 11) : Nat := ch.toNat / 1024

/-- Channel spacing in kHz. -/
def spacing (ch : BitVec 11) : Nat := if chMode ch = 0 then 200 else 400

/-- F0 in kHz above 800,000 kHz. -/
def firstKhz (ch : BitVec 11) : Nat :=
  if chBand ch = 0 then (if chMode ch = 0 then 63125 else 63225) else (if chMode ch = 0 then 102200 else 102400)

/-- Channels of a band and mode. -/
def chCount (ch : BitVec 11) : Nat :=
  if chBand ch = 0 then (if chMode ch = 0 then 34 else 17) else (if chMode ch = 0 then 129 else 64)

/-- The occupied range in kHz above 800,000 kHz. -/
def occLo (ch : BitVec 11) : Nat := firstKhz ch + chNum ch * spacing ch - spacing ch / 2
def occHi (ch : BitVec 11) : Nat := firstKhz ch + chNum ch * spacing ch + spacing ch / 2

/-- Bit rate in kbit/s. -/
def bitRate (ch : BitVec 11) : Nat := if chMode ch = 0 then 50 else if chMode ch = 1 then 100 else 200

/-- The channel word of a RAD_FRAME. -/
def txChan (d : Desc) : BitVec 11 := BitVec.ofNat 11 d.p0.toNat

/-- Bytes of a MIC length code. -/
def micBytes (code : Nat) : Nat := match code with | 1 => 4 | 2 => 8 | 3 => 16 | _ => 0

/-- MIC bytes of a RAD_FRAME; a frame that is not secured carries none. -/
def txMic (d : Desc) : Nat := if handleIn d.p1 = 0 then 0 else micBytes (bits d.p1 17 16)

def fcsBytes (four : Bool) : Nat := if four then 4 else 2

/-- PSDU length of a RAD_FRAME (R268). -/
def psduLen (d : Desc) : Nat := d.len.toNat + txMic d + fcsBytes (bitOf d.p0 23)

/-! ### MAC and PHY headers (IEEE 802.15.4-2020, log 51) -/

/-- The frame control field of a frame. -/
def frameFcf (b : List Byte) : Nat := leAt b 0 2

/-- Frame type: 1 data, 2 acknowledgement, 3 MAC command. -/
def frameType (b : List Byte) : Nat := frameFcf b % 8

/-- The AR bit of a frame. -/
def frameAr (b : List Byte) : Bool := (frameFcf b).testBit 5

/-- The frame version. -/
def frameVer (b : List Byte) : Nat := frameFcf b / 4096 % 4

/-- The sequence number, which only frames of version 2 may leave out. -/
def frameSeq (b : List Byte) : Option Byte :=
  if frameVer b = 2 ∧ (frameFcf b).testBit 8 then none else some (BitVec.ofNat 8 (beAt b 2 1))

/-- Bytes of an address by its mode. -/
def addrBytes (mode : Nat) : Nat := match mode with | 2 => 2 | 3 => 8 | _ => 0

/-- Whether the destination PAN and the source PAN are present, by version, addressing modes and PAN ID compression. -/
def pansPresent (ver dst src : Nat) (comp : Bool) : Bool × Bool :=
  if ver < 2 then (decide (dst ≠ 0), decide (src ≠ 0) && !(comp && decide (dst ≠ 0)))
  else if dst = 0 ∧ src = 0 then (comp, false)
  else if src = 0 then (!comp, false)
  else if dst = 0 then (false, !comp)
  else if dst = 3 ∧ src = 3 then (!comp, false)
  else (true, !comp)

/-- What the hardware reads of a MAC header: destination and source addresses by their mode and value, the security level and frame counter of a secured frame, and the header's length, header IEs included. -/
structure MacHdr where
  dstPan  : Option Nat
  dst     : Nat × Nat
  src     : Nat × Nat
  secured : Bool
  level   : Nat
  counter : Option Word
  len     : Nat
  deriving DecidableEq, Repr

/-- The end of the header IEs that start at byte i: after a termination IE, or at the end of the frame. The first argument bounds their number. -/
def endOfIes : Nat → List Byte → Nat → Nat
  | 0, b, _ => b.length
  | n + 1, b, i =>
    if b.length < i + 2 then b.length
    else
      let h := leAt b i 2
      let id := h / 128 % 256
      if id = 0x7E ∨ id = 0x7F then i + 2 else endOfIes n b (i + 2 + h % 128)

/-- Bytes of a key identifier by its mode. -/
def keyIdBytes (mode : Nat) : Nat := match mode with | 1 => 1 | 2 => 5 | 3 => 9 | _ => 0

/-- The MAC header of a frame without FCS; none when a field it announces is missing or reserved. -/
def macHdr (b : List Byte) : Option MacHdr :=
  let f := frameFcf b
  let dm := f / 1024 % 4
  let sm := f / 16384 % 4
  let (dp, sp) := pansPresent (frameVer b) dm sm (f.testBit 6)
  let i1 := if (frameSeq b).isSome then 3 else 2
  let i2 := i1 + (if dp then 2 else 0)
  let i3 := i2 + addrBytes dm
  let i4 := i3 + (if sp then 2 else 0)
  let i5 := i4 + addrBytes sm
  let sec := f.testBit 3
  let sc := beAt b i5 1
  let hasCounter := sec && !sc.testBit 5
  let i6 := if sec then i5 + 1 + (if hasCounter then 4 else 0) + keyIdBytes (sc / 8 % 4) else i5
  let i7 := if frameVer b = 2 ∧ f.testBit 9 then endOfIes b.length b i6 else i6
  if b.length < i6 ∨ dm = 1 ∨ sm = 1 ∨ frameVer b = 3 then none
  else some {
    dstPan := if dp then some (leAt b i1 2) else none
    dst := (dm, leAt b i2 (addrBytes dm))
    src := (sm, leAt b i4 (addrBytes sm))
    secured := sec
    level := if sec then sc % 8 else 0
    counter := if hasCounter then some (word (leAt b (i5 + 1) 4)) else none
    len := i7 }

/-- One byte of the 2-byte FCS: CRC-16 with polynomial 0x1021 reflected. -/
def fcs16Byte (c : Nat) (b : Byte) : Nat :=
  (List.range 8).foldl (fun x _ => if x % 2 = 1 then (x / 2) ^^^ 0x8408 else x / 2) (c ^^^ b.toNat)

/-- The FCS of a frame: 2 bytes, or 4 bytes over at least 4 bytes. -/
def radFcs (four : Bool) (b : List Byte) : List Byte :=
  if four then bytesLE 4 (crc32 (b ++ zeros (4 - b.length))) else bytesLE 2 (b.foldl fcs16Byte 0)

/-- The PSDU of a frame: its bytes and their FCS (R268). -/
def psduOf (four : Bool) (b : List Byte) : List Byte := b ++ radFcs four b

/-- A received PSDU without its FCS, if the FCS matches. -/
def fcsStripped (four : Bool) (p : List Byte) : Option (List Byte) :=
  let b := p.take (p.length - fcsBytes four)
  if fcsBytes four ≤ p.length ∧ psduOf four b = p then some b else none

/-- The PHR of a SUN FSK frame: FCS type, data whitening and length, first bit sent highest. -/
def phrOf (four whiten : Bool) (len : Nat) : Half := BitVec.ofNat 16 (flagAt (!four) 12 + flagAt whiten 11 + len % 2048)

/-! ### The duty governor (R279 to R281) -/

/-- Airtime in units of a PSDU length. -/
def airtime (s : State) (ch : BitVec 11) (l : Nat) : Nat :=
  ((s.rad.preamble.toNat + 4 + l) * 80 + bitRate ch - 1) / bitRate ch

/-- Airtime of the acknowledgement a host frame expects. -/
def ackAirtime (s : State) (ch : BitVec 11) (four : Bool) : Nat := airtime s ch (if four then 7 else 5)

/-- The charge of a host attempt. -/
def txCharge (s : State) (d : Desc) (frame : List Byte) : Nat :=
  airtime s (txChan d) (psduLen d) + (if frameAr frame then ackAirtime s (txChan d) (bitOf d.p0 23) else 0)

/-- A band is charged for a channel. -/
def bandTakes (g : GovBand) (ch : BitVec 11) : Bool :=
  g.en && decide (g.flo.toNat ≤ occLo ch) && decide (occHi ch ≤ g.fhi.toNat)

/-- The bands charged for a channel, lowest first. -/
def charged (s : State) (ch : BitVec 11) : List Nat :=
  (List.range 8).filter (fun b => bandTakes (govAt s b) ch)

/-- A charge added to a band's current bucket. -/
def addUnits (g : GovBand) (n : Nat) : GovBand :=
  { g with buckets := match g.buckets with | [] => [n] | b :: t => (b + n) :: t }

/-- The charge added to every charged band. -/
def chargeAll (s : State) (ch : BitVec 11) (n : Nat) : State :=
  setRad s (fun r => { r with gov := vmapIdx (fun _ g => if bandTakes g ch then addUnits g n else g) r.gov })

/-- A host attempt can never start: no band, or a charge above a band's BUDGET − RESERVE. -/
def neverFits (s : State) (ch : BitVec 11) (n : Nat) : Bool :=
  decide (charged s ch = []) || (charged s ch).any (fun b =>
    decide ((govAt s b).budget.toNat < n + (govAt s b).reserve.toNat))

/-- The band that RAD_BUDGET_REFUSED names for an attempt that can never start: the lowest whose budget the charge exceeds. -/
def exceeded (s : State) (ch : BitVec 11) (n : Nat) : Option Nat :=
  (charged s ch).find? (fun b => decide ((govAt s b).budget.toNat < n + (govAt s b).reserve.toNat))

/-- The lowest charged band without budget for a host attempt now. -/
def lacking (s : State) (ch : BitVec 11) (n : Nat) : Option Nat :=
  (charged s ch).find? (fun b =>
    decide ((govAt s b).budget.toNat < govUsed (govAt s b) + n + (govAt s b).reserve.toNat))

/-- An acknowledgement fits in every charged band. -/
def ackFits (s : State) (ch : BitVec 11) (n : Nat) : Bool :=
  (charged s ch).all (fun b => decide (govUsed (govAt s b) + n ≤ (govAt s b).budget.toNat))

/-- BUDGET − RESERVE − USED, or 0. -/
def headroom (g : GovBand) : Nat := g.budget.toNat - g.reserve.toNat - govUsed g

/-- RAD_BUDGET_REFUSED names a band in INFO1; where no band is charged the value is free (log 52). -/
def raiseRefused (s : State) (b : Option Nat) : State :=
  match b with
  | some b => raise s Src.radBudgetRefused 0xFF (word b)
  | none => raise (drew s) Src.radBudgetRefused 0xFF (Config.freeWord s.free)

/-! ### Power (R267) -/

/-- The least MAX_DBM of the charged bands, if any. -/
def bandLimit (s : State) (ch : BitVec 11) (p : Int) : Int :=
  (charged s ch).foldl (fun a b => min a (signed (govAt s b).maxDbm.toNat 8)) p

/-- The antenna power used for a requested one. -/
def usedPower (s : State) (ch : BitVec 11) (req : Int) : Int :=
  bandLimit s ch (min req (14 + s.rad.gainDb.toNat))

/-- The requested power of a RAD_FRAME in dBm. -/
def reqPower (d : Desc) : Int := signed (bits d.p0 16 11) 6

/-! ### The frame under execution (R269, R270) -/

/-- The frame under execution; one that was returned before its first attempt is given up. -/
def radTx (s : State) : Option (RadTx × Work) :=
  match s.rad.tx with
  | none => none
  | some t =>
    match findWork (ringAt s 7) t.seq with
    | none => none
    | some w => if t.attempts = 0 ∧ (w.ret.isSome ∨ (journalOf s 7 t.seq).isSome) then none else some (t, w)

def setTx (s : State) (t : Option RadTx) : State := setRad s (fun r => { r with tx := t })

/-- The outcome of a RAD_FRAME after its attempts so far (R270). -/
def radOutcome (t : RadTx) (acked noAck stop : Bool) : Outcome :=
  Outcome.of .ok (word (fieldAt t.attempts 4 16 + fieldAt t.units 16 0))
    (word (flagAt t.clamped 3 + flagAt stop 2 + flagAt noAck 1 + flagAt acked 0))

/-- The execution ends with its outcome. -/
def radEnd (s : State) (t : RadTx) (acked noAck stop : Bool) : State :=
  let s1 := endEmission (setTx s none) 7 t.seq (fun _ => radOutcome t acked noAck stop)
  if noAck then raiseC (radCount s1 2) Src.radNoAck 0xFF 1 else s1

/-- The path is open for transmissions. -/
def radPath (s : State) : Bool := s.rad.en && s.rad.txAllow

/-- An attempt does not happen: before the first attempt the frame is returned, later it ends executed. -/
def radFail (s : State) (t : RadTx) (ret : Outcome) (noAck stop : Bool) : State :=
  if t.attempts = 0 then returnWith (setTx s none) 7 t.seq ret else radEnd s t false noAck stop

/-- The attempt starts: charged, counted and sent; the first is the emission point. -/
def sendAttempt (s : State) (t : RadTx) (d : Desc) : State :=
  let n := txCharge s d t.frame
  let p := usedPower s (txChan d) (reqPower d)
  let t1 : RadTx := { t with
    phase := .sending, attempts := t.attempts + 1, units := t.units + n, clamped := t.clamped || decide (p ≠ reqPower d) }
  let s1 := setRad (chargeAll s (txChan d) n) (fun r => { r with tx := some t1, paEn := true })
  let s2 := if t.attempts = 0 then beginEmission (radCount s1 0) 7 t.seq (radOutcome t1 false false false)
    else setOutcome s1 7 t.seq (fun _ => radOutcome t1 false false false)
  emitOut (raiseC (radCount s2 1) Src.radTxAttempt 0xFF 1)
    (.radio (phrOf (bitOf d.p0 23) (bitOf d.p0 24) (psduLen d)) (psduOf (bitOf d.p0 23) t.frame) (txChan d).toNat p)

/-- Access is gained: the path and the governor are asked, and the attempt starts, waits or fails (R269, R280, R281). An attempt is held while the transmitter is in use, an acknowledgement is due (R277), the ring recovers or the journal has no room for the first. -/
def tryAttempt (s : State) (t : RadTx) (w : Work) : State :=
  let ch := txChan w.d
  let n := txCharge s w.d t.frame
  if !radPath s then radFail s t (Outcome.of .retNoPath 0 0) true false
  else if s.rad.paEn ∨ s.rad.acks ≠ [] ∨ (ringAt s 7).state = .recovering ∨ (t.attempts = 0 ∧ !journalRoom s) then
    setTx s (some { t with phase := .held })
  else if neverFits s ch n then
    radFail (raiseRefused s (exceeded s ch n)) t (Outcome.of .retBudget 0 0) false true
  else
    match lacking s ch n with
    | none => sendAttempt s t w.d
    | some b =>
      let s1 := raiseRefused s (some b)
      if t.attempts ≠ 0 then radEnd s1 t false false true
      else if s.rad.budgetWait then setTx s1 (some { t with phase := .waitBudget })
      else radFail s1 t (Outcome.of .retBudget (word (fieldAt b 8 24 + fieldAt (headroom (govAt s b)) 24 0)) 0) false true

/-- A held attempt, or one that waits for budget, is asked again. -/
def retryAttempt (s : State) : State :=
  match radTx s with
  | none => s
  | some (t, w) => if t.phase = .held ∨ t.phase = .waitBudget then tryAttempt s t w else s

/-- A held attempt is asked again. -/
def releaseHeld (s : State) : State :=
  match radTx s with
  | none => s
  | some (t, w) => if t.phase = .held then tryAttempt s t w else s

/-- MIN_BE, MAX_BE, MAX_BACKOFFS and LBT_MAX of RAD_ACCESS. -/
def minBe (s : State) : Nat := bits s.rad.access 5 3
def maxBe (s : State) : Nat := bits s.rad.access 8 6
def maxBackoffs (s : State) : Nat := bits s.rad.access 11 9
def lbtMax (s : State) : Nat := bits s.rad.access 15 12

/-- A backoff with exponent `be` begins: 0 to 2^be − 1 unit backoff periods, drawn from the DRBG (R273). -/
def beginBackoff (s : State) (t : RadTx) (nb be : Nat) : State :=
  countDraw (setTx s (some { t with phase := .csma nb be (Config.draw s.free be % 2 ^ be) }))

/-- A listen begins: k between 0 and 31 is drawn from the DRBG (R274). -/
def beginListen (s : State) (t : RadTx) (n : Nat) : State :=
  countDraw (setTx s (some { t with phase := .lbt n (Config.draw s.free 5 % 32) }))

/-- Channel access of an attempt begins (R269, R273, R274). -/
def beginAccess (s : State) (t : RadTx) (w : Work) : State :=
  if bitOf w.d.p0 21 then beginBackoff s t 0 (minBe s)
  else if bitOf w.d.p0 22 then beginListen s t 0
  else tryAttempt s t w

/-- Channel access fails (R275). -/
def accessFails (s : State) (t : RadTx) : State :=
  radFail (raiseC (radCount s 3) Src.radCcaBusy 0xFF 1) t (Outcome.of .retBusy 1 0) true false

/-- The key handle of a RAD_FRAME or a device entry may be used: none, or a live CCM_STAR key of the PF (R271). -/
def radKey (s : State) (h : Half) : Bool :=
  handleLive s h && decide ((slotAt s (handleSlot h)).kind.toNat = 10) && decide ((slotAt s (handleSlot h)).owner = .pf)

/-- The status a RAD_FRAME is returned with before its buffer is read. -/
def radStatus (s : State) (d : Desc) : Option Status :=
  firstOf [(!radPath s, .retNoPath),
    (decide (d.len.toNat < 3) || decide (2047 < d.len.toNat) || decide (2047 < psduLen d), .retLength),
    (decide (chMode (txChan d) = 3) || decide (chCount (txChan d) ≤ chNum (txChan d))
      || decide (d.len.toNat < bits d.p1 31 24), .retParam),
    (decide (handleIn d.p1 ≠ 0) && !radKey s (handleIn d.p1), .retKey)]

/-- The 13-byte nonce: extended address, frame counter, security level (R271). -/
def ccmNonce (ext : Nat) (counter level : Nat) : List Byte := bytesBE 8 ext ++ bytesBE 4 counter ++ bytesBE 1 level

/-- The bytes sent before the FCS: the host's frame, secured when a key is named (R271). -/
def securedFrame (s : State) (d : Desc) (b : List Byte) : List Byte :=
  if handleIn d.p1 = 0 then b
  else
    let enc := bitOf d.p1 18
    let hdr := b.take (bits d.p1 31 24)
    let counter := match (macHdr b).bind (·.counter) with | some c => c.toNat | none => Config.auxCounter b
    let nonce := ccmNonce (s.rad.extHi.toNat * 2 ^ 32 + s.rad.extLo.toNat) counter (flagAt enc 2 + bits d.p1 17 16)
    let (body, mic) := ccmSealed (slotAt s (handleSlot (handleIn d.p1))).key nonce hdr (b.drop (bits d.p1 31 24))
      (txMic d) enc
    hdr ++ body ++ mic

/-- The first work of RAD_TX without outcome. -/
def radTurn (s : State) (seq : Word) : Bool :=
  match (ringAt s 7).work.find? (fun w => w.ret.isNone && (journalOf s 7 w.seq).isNone) with
  | none => false
  | some w => w.seq == seq

/-- A RAD_FRAME at the head of RAD_TX is taken up: checked, read and put to channel access; one already taken up and held is asked again (R269). -/
def radFrameOp (s : State) (seq : Word) (res : XferResult) (frame : List Byte) : State :=
  match radTx s with
  | some (t, _) => if t.seq = seq then releaseHeld s else s
  | none =>
    match workAt s 7 seq 0x0003 .accepted with
    | none => s
    | some w =>
      if !radTurn s seq then s
      else
        match radStatus s w.d with
        | some st => returnWork s 7 seq st
        | none =>
          if !mayMaster s 0 then s
          else if !inWindows s 0 false w.d.addr.toNat w.d.len.toNat then
            returnWork (ringWindowFault s 7 w.d.addr.toNat) 7 seq .retWindow
          else
            let s1 := sendRead s 0 w.d.addr.toNat w.d.len.toNat
            if res ≠ .ok then
              let s2 := latchFault (setRing s1 7 (fun g => { g with dmaErr := true })) (xferKind res) 7 0 w.d.addr.toNat
              returnWork s2 7 seq .retDma
            else if frame.length ≠ w.d.len.toNat then s
            else
              let s2 := setWork s1 7 seq (fun w => { w with stage := .queued })
              let t : RadTx := { seq := seq, frame := securedFrame s w.d frame, phase := .held, attempts := 0, units := 0, clamped := false }
              beginAccess s2 t w

def execRadFrame (seq : Word) (res : XferResult) (frame : List Byte) (s : State) : Host.Outcome State Fault Refusal :=
  .next (radFrameOp s seq res frame)

/-- A backoff and its CCA end (R273). -/
def csmaOp (s : State) (busy : Bool) : State :=
  match radTx s with
  | none => s
  | some (t, w) =>
    match t.phase with
    | .csma nb be _ =>
      if busy then
        if maxBackoffs s < nb + 1 then accessFails s t
        else beginBackoff s t (nb + 1) (min (be + 1) (maxBe s))
      else if bitOf w.d.p0 22 then beginListen s t 0
      else tryAttempt s t w
    | _ => s

def execCsmaBackoffExpiry (busy : Bool) (s : State) : Host.Outcome State Fault Refusal := .next (csmaOp s busy)

/-- A listen ends (R274). -/
def lbtOp (s : State) (free : Bool) : State :=
  match radTx s with
  | none => s
  | some (t, w) =>
    match t.phase with
    | .lbt n _ =>
      if free then tryAttempt s t w
      else if lbtMax s ≤ n + 1 then accessFails s t
      else beginListen s t (n + 1)
    | _ => s

def execLbtListenEnd (free : Bool) (s : State) : Host.Outcome State Fault Refusal := .next (lbtOp s free)

/-- The last symbol of a transmission leaves: of a host attempt, or of an acknowledgement (R267, R269). -/
def radioTxEndOp (s : State) : State :=
  if !s.rad.paEn then s
  else
    let s1 := setRad s (fun r => { r with paEn := false })
    match radTx s1 with
    | none => s1
    | some (t, _) =>
      if t.phase = .sending then
        if frameAr t.frame then setTx s1 (some { t with phase := .waitAck }) else radEnd s1 t false false false
      else releaseHeld s1

/-- A received frame is an acknowledgement of the frame sent: its FCS matches, and its sequence number is the frame's (R270). -/
def ackMatches (frame psdu : List Byte) (four : Bool) : Bool :=
  match fcsStripped four psdu with
  | none => false
  | some a => decide (frameType a = 2) && decide (frameSeq a = frameSeq frame)

/-- A frame whose SFD ended in time comes in while an acknowledgement is awaited (R270). -/
def radioAckOp (s : State) (psdu : List Byte) (four : Bool) : State :=
  match radTx s with
  | none => s
  | some (t, _) => if t.phase = .waitAck ∧ ackMatches t.frame psdu four then radEnd s t true false false else s

def execRadioAckReceived (psdu : List Byte) (fcs4 : Bool) (s : State) : Host.Outcome State Fault Refusal :=
  .next (radioAckOp s psdu fcs4)

/-- The acknowledgement's time passes (R269, R270): the next attempt, or NO_ACK. -/
def radioAckTimeoutOp (s : State) : State :=
  match radTx s with
  | none => s
  | some (t, w) =>
    if t.phase = .waitAck then
      if t.attempts ≤ bits w.d.p0 27 25 then beginAccess s t w else radEnd s t false true false
    else s

def execRadioAckTimeout (s : State) : Host.Outcome State Fault Refusal := .next (radioAckTimeoutOp s)

/-! ### Reception (R276 to R278) -/

/-- Entry i of the device table. -/
def devAt (s : State) (i : Nat) : Vector Word 4 := vget s.rad.dev i (Vector.replicate 4 0)

def devHandle (e : Vector Word 4) : Half := BitVec.ofNat 16 (bits (vget e 2 0) 31 16)
def devExt (e : Vector Word 4) : Nat := (vget e 1 0).toNat * 2 ^ 32 + (vget e 0 0).toNat

/-- The entry of a source address. -/
def devOf (s : State) (src : Nat × Nat) : Option Nat :=
  (List.range 31).find? (fun i =>
    let e := devAt s i
    devHandle e != 0 && (decide (src = (3, devExt e)) || decide (src = (2, bits (vget e 2 0) 15 0))))

/-- A frame of a kind that passes to the host (Table 12.1): data and MAC commands. -/
def hostKind (b : List Byte) : Bool := decide (frameType b = 1) || decide (frameType b = 3)

/-- Address filtering; a frame without a destination address does not pass (R276, log 53). -/
def addressed (s : State) (h : MacHdr) : Bool :=
  let pan := bits s.rad.pan 15 0
  s.rad.promisc ||
    ((match h.dstPan with | some p => decide (p = pan ∨ p = 0xFFFF) | none => true)
      && (match h.dst with
        | (2, a) => decide (a = bits s.rad.pan 31 16 ∨ a = 0xFFFF)
        | (3, a) => decide (a = s.rad.extHi.toNat * 2 ^ 32 + s.rad.extLo.toNat)
        | _ => false))

/-- Bytes of a secured frame that are authenticated and never encrypted: its header, and a MAC command's identifier before version 2 (log 51). -/
def clearBytes (h : MacHdr) (b : List Byte) : Nat := if frameType b = 3 ∧ frameVer b < 2 then h.len + 1 else h.len

/-- A secured frame opened with an entry's key: its bytes with the payload decrypted, if the MIC matches (R271). -/
def openFrame (s : State) (i : Nat) (h : MacHdr) (b : List Byte) : Option (List Byte) :=
  let e := devAt s i
  let m := micBytes (h.level % 4)
  let k := clearBytes h b
  let n := b.length - m
  match h.counter with
  | none => none
  | some q =>
    if b.length < k + m then none
    else
      let (body, mic) := ccmOpened (slotAt s (handleSlot (devHandle e))).key (ccmNonce (devExt e) q.toNat h.level)
        (b.take k) ((b.take n).drop k) m (decide (4 ≤ h.level))
      if mic = b.drop n then some (b.take k ++ body) else none

/-- FC_MIN after a verified frame: its counter + 1; past the largest counter the manual states no value (log 54). -/
def nextFc (s : State) (q : Word) : Word := if q.toNat = 2 ^ 32 - 1 then Config.freeWord s.free else q + 1

/-- FC_MIN of entry i after a frame with counter q. -/
def setFcMin (s : State) (i : Nat) (q : Word) : State :=
  drew (setRad s (fun r => { r with dev := vset r.dev i (vset (devAt s i) 3 (nextFc s q)) }))

/-- Step 3 of R276: the frame verified and decrypted with its entry, or discarded and counted. -/
def radVerify (s : State) (h : MacHdr) (b : List Byte) : State × Option (List Byte × Nat) :=
  if !h.secured then (s, some (b, 31))
  else
    let bad := raiseC (radCount s 7) Src.radRxSecFail 0xFF 1
    match devOf s h.src with
    | none => (bad, none)
    | some i =>
      if !radKey s (devHandle (devAt s i)) then (bad, none)
      else
        match openFrame s i h b with
        | none => (bad, none)
        | some x =>
          let q := h.counter.getD 0
          if q.toNat < (vget (devAt s i) 3 0).toNat then (radCount s 8, none) else (setFcMin s i q, some (x, i))

/-- The acknowledgement of a received frame (R265). -/
def ackFrame (b : List Byte) : List Byte :=
  if frameVer b < 2 then [0x02, 0x00, (frameSeq b).getD 0] else Config.enhAck b

/-- The terminal answers a frame with an acknowledgement (R277). -/
def ackWanted (s : State) (b : List Byte) : Bool := frameAr b && s.rad.ackEn && radPath s

/-- Step 4 and the store (R276, R278). -/
def radStore (s : State) (f : RadRx) (b : List Byte) (secured : Bool) (idx : Nat) : State :=
  if !f.roomAtSfd ∨ 2 ≤ s.rad.store.length then radCount s 9
  else
    let r0 := fieldAt f.rssi.toNat 8 24 + fieldAt f.lqi.toNat 8 16 + s.rad.rxCh.toNat
    let r1 := fieldAt idx 5 8 + flagAt f.fcs4 3 + flagAt secured 0
    let acks := if ackWanted s b then
      s.rad.acks ++ [{ frame := ackFrame b, fcs4 := f.fcs4, chan := s.rad.rxCh, idx := s.rad.store.length }]
      else s.rad.acks
    setRad (radCount s 4) (fun r => { r with
      store := r.store ++ [{ body := b, res0 := word r0, res1 := word r1 }], acks := acks })

/-- A frame received while the radio listens (R276). -/
def radioRxOp (s : State) (f : RadRx) : State :=
  if !s.rad.en || s.rad.paEn || !s.pwr.domRad then s
  else
    match fcsStripped f.fcs4 f.psdu with
    | none => radCount s 5
    | some b =>
      match macHdr b with
      | none => radCount s 6
      | some h =>
        if !hostKind b || !addressed s h then radCount s 6
        else
          match radVerify s h b with
          | (s1, none) => s1
          | (s1, some (x, idx)) => radStore s1 f x h.secured idx

def execRadioFrameReceived (f : RadRx) (s : State) : Host.Outcome State Fault Refusal := .next (radioRxOp s f)

/-- RESULT1 bits set in the stored frame at a position. -/
def markStored (l : List RadStored) (i bit : Nat) : List RadStored :=
  l.mapIdx (fun j x => if j = i then { x with res1 := x.res1 ||| word (2 ^ bit) } else x)

/-- An acknowledgement is due (R277): sent when the path is open and the governor admits it. -/
def radioAckTxOp (s : State) : State :=
  match s.rad.acks with
  | [] => s
  | a :: rest =>
    if s.rad.paEn then s else
    let s1 := setRad s (fun r => { r with acks := rest })
    let n := airtime s a.chan (a.frame.length + fcsBytes a.fcs4)
    if !radPath s || !s.rad.ackEn then releaseHeld s1
    else if ackFits s a.chan n then
      let p := usedPower s a.chan (signed s.rad.ackDbm.toNat 6)
      let s2 := setRad (chargeAll (radCount s1 10) a.chan n) (fun r => { r with
        paEn := true, store := markStored r.store a.idx 1 })
      let white := (Config.freeWord s.free).getLsbD 0
      emitOut (drew s2) (.radio (phrOf a.fcs4 white (a.frame.length + fcsBytes a.fcs4)) (psduOf a.fcs4 a.frame) a.chan.toNat p)
    else
      let s2 := setRad (radCount s1 11) (fun r => { r with store := markStored r.store a.idx 2 })
      releaseHeld (raiseC s2 Src.radAckSuppressed 0xFF 1)

def execRadioAckTransmit (s : State) : Host.Outcome State Fault Refusal := .next (radioAckTxOp s)

/-- The oldest stored frame leaves the store. -/
def popStored (s : State) : State :=
  setRad s (fun r => { r with store := r.store.tail, acks := r.acks.map (fun a => { a with idx := a.idx - 1 }) })

/-- The oldest stored frame is written into the oldest posted RAD_RX buffer once its acknowledgement is settled (R276, R278). -/
def radioDeliverOp (s : State) : State :=
  match s.rad.store, postedBuffer s 8 with
  | f :: _, some w =>
    if (ringAt s 8).state = .recovering ∨ !mayMaster s 0 ∨ frozen s ∨ s.rad.acks.any (fun a => a.idx == 0) then s
    else if !inWindows s 0 true w.d.addr.toNat f.body.length then
      returnWork (ringWindowFault s 8 w.d.addr.toNat) 8 w.seq .retWindow
    else
      let o : Outcome := { status := .ok, len := word f.body.length, res0 := f.res0, res1 := f.res1, ts := none }
      popStored (sendWrite (returnWith s 8 w.seq o) 0 w.d.addr.toNat f.body)
  | _, _ => s

def execRadioRxDeliver (s : State) : Host.Outcome State Fault Refusal := .next (radioDeliverOp s)

/-! ### Device table -/

/-- RAD_DEV_CMD is written with an operation and IDX, by the PF only; IDX 31 is ignored. A firmware write is denied (R375). -/
def devCmd (s : State) (who : Requester) (idx : BitVec 5) (f : Rad → Rad) : State :=
  match who with
  | .vf _ => s
  | .fw _ => fwDenied s 0x90300
  | .pf => if idx = 31 then s else setRad s (fun r => f { r with devIdx := idx })

def execRadDevRead (who : Requester) (idx : BitVec 5) (s : State) : Host.Outcome State Fault Refusal :=
  .next (devCmd s who idx (fun r => { r with devData := vget r.dev idx.toNat (Vector.replicate 4 0) }))

def execRadDevWrite (who : Requester) (idx : BitVec 5) (s : State) : Host.Outcome State Fault Refusal :=
  .next (devCmd s who idx (fun r => { r with dev := vset r.dev idx.toNat r.devData }))

def execRadDevClear (who : Requester) (idx : BitVec 5) (s : State) : Host.Outcome State Fault Refusal :=
  .next (devCmd s who idx (fun r => { r with dev := vset r.dev idx.toNat (Vector.replicate 4 0) }))

/-! ### The windows -/

/-- The window level-filled: every bucket floor(BUDGET / 3,600), the remainder in the oldest (R283). -/
def GovBand.levelFill (g : GovBand) : GovBand :=
  let q := g.budget.toNat / 3600
  { g with buckets := List.replicate 3599 q ++ [q + g.budget.toNat % 3600] }

/-! ### Losses and power (R69, R283, R306 to R308) -/

/-- Every window level-filled. -/
def govFill (s : State) : State := setRad s (fun r => { r with gov := vmapIdx (fun _ g => g.levelFill) r.gov })

/-- RAD is powered up; windows whose bank was not retained are level-filled (R283). -/
def radOn (s : State) : State :=
  if s.pwr.domRad then s
  else
    let s1 := if s.rad.refill then setRad (govFill s) (fun r => { r with refill := false }) else s
    { s1 with pwr := { s1.pwr with domRad := true } }

/-- The radio stops at once: an attempt in the air is cut and executed with TRUNCATED (R69), one whose acknowledgement or next attempt is awaited ends unacknowledged (log 193), and the store and acknowledgements due are lost. -/
def radCut (s : State) : State :=
  let s1 := match s.rad.tx with
    | none => s
    | some t =>
      if t.attempts = 0 then s
      else if t.phase = .sending then cutEmissions s 7
      else radEnd s t false true false
  setRad s1 (fun r => { r with tx := none, store := [], acks := [], paEn := false })

/-- The radio: registers headed DEVICE; the device table and the windows stay (R283). -/
def radDevice (r : Rad) : Rad :=
  { Rad.reset with
    dev := r.dev, devIdx := r.devIdx, devData := r.devData, refill := r.refill
    gov := vmapIdx (fun i g => { vget govDefaults i g with buckets := g.buckets }) r.gov }

/-- RAD goes off: RF_PA_EN is low; what the AON store and the retention banks hold stays (R307, R308). -/
def radOff (s : State) : State :=
  let s1 := setRad (radCut s) (fun r => { radDevice r with
    lock := r.lock, gainDb := r.gainDb, gov := r.gov, devIdx := 0, devData := Vector.replicate 4 0 })
  { s1 with pwr := { s1.pwr with domRad := false } }

/-- RAD follows RAD_CTL.EN (Table 14.2) unless an access has woken it; a transmission that has started runs to its last symbol first (R280). -/
def radFollow (s : State) : State :=
  if s.rad.en || s.rad.paEn || !s.pwr.domRad || s.pwr.woken.contains .rad then s else radOff s

def execRadioTxEnd (s : State) : Host.Outcome State Fault Refusal := .next (radFollow (radioTxEndOp s))

end Sys2Proof.Machine
end

