-- ==== Sys2Proof/Machine/Boot.lean ====
section
/-! DEFINITION. The boot monitor's choice of an image, firmware restarts and the profile's reset values (15_firmware.md, R337, R340, R351, R352). -/

namespace Sys2Proof.Machine

open Sys2Proof

/-! ### Updates of one part -/

def modFw (s : State) (f : Fw → Fw) : State := { s with fw := f s.fw }
def modPwr (s : State) (f : Pwr → Pwr) : State := { s with pwr := f s.pwr }
def modHif (s : State) (f : Hif → Hif) : State := { s with hif := f s.hif }
def modSup (s : State) (f : Sup → Sup) : State := { s with sup := f s.sup }
def modGlb (s : State) (f : Glb → Glb) : State := { s with glb := f s.glb }

/-! ### Boot (R337) -/

/-- The image supports the profile in force. -/
def profileOk (s : State) (h : ImageHdr) : Bool := if s.glb.inForce = 1 then h.p1 else h.p2

/-- A slot is bootable. -/
def bootable (s : State) (x : ImgSlot) : Bool :=
  match x.hdr with
  | none => false
  | some h => h.magicOk && h.sigOk && decide (s.fw.floor ≤ h.svn) && profileOk s h

/-- A TRIAL slot the directory shows as booted, without a live trial, is REJECTED. -/
def rejectStale (live : Bool) (x : ImgSlot) : ImgSlot :=
  if x.st = .trial ∧ x.booted ∧ !live then { x with st := .rejected } else x

/-- The slot selected: 1 A, 2 B, 0 none. -/
def bootSel (s : State) : Nat :=
  let a := s.fw.slotA
  let b := s.fw.slotB
  let take (st : SlotSt) (x : ImgSlot) : Bool := decide (x.st = st) && bootable s x
  if s.fw.trialLive && take .trial a then 1
  else if s.fw.trialLive && take .trial b then 2
  else if take .confirmed a then 1
  else if take .confirmed b then 2
  else if take .valid a then 1
  else if take .valid b then 2
  else 0

/-- Slot 1 or 2 changed by f. -/
def modSlot (s : State) (i : Nat) (f : ImgSlot → ImgSlot) : State :=
  modFw s (fun w => if i = 1 then { w with slotA := f w.slotA } else if i = 2 then { w with slotB := f w.slotB } else w)

/-- The boot monitor boots: a stale trial is rejected, a slot is selected and a TRIAL slot recorded as booted, or NO_IMAGE is set. RUN_SLOT is the boot monitor until the handover. -/
def boot (s : State) : State :=
  let s1 := modFw s (fun w => { w with
    slotA := rejectStale w.trialLive w.slotA
    slotB := rejectStale w.trialLive w.slotB
    cp0 := .bootMonitor
    cp1 := .bootMonitor
    runSlot := 0
    restartAt := []
    ptp := [] })
  let sel := bootSel s1
  let s2 := modSlot s1 sel (fun x => if x.st = .trial then { x with booted := true } else x)
  let s3 := modFw s2 (fun w => { w with noImage := decide (sel = 0) })
  if sel = 0 then raise s3 Src.fwNoImage 0xFF 0 else s3

/-- The slot in trial, if any: 1 A, 2 B. -/
def trialSlot (s : State) : Option Nat :=
  if s.fw.slotA.st = .trial then some 1 else if s.fw.slotB.st = .trial then some 2 else none

/-- Commands on a ring before their emission point. -/
def holdsCommand (s : State) (r : Nat) : Bool :=
  isCmdRing r && (ringAt s r).work.any (fun w => w.ret.isNone && (journalOf s r w.seq).isNone)

/-- The rings of a recovery with cause 0x12 (R331). -/
def cpScope (s : State) : List RingNo := allRings.filter (fun r => (ringAt s r.val).enable && (r.val == 0 || holdsCommand s r.val))

/-- A firmware restart (R340): both processors are reset, the boot monitor boots, and a recovery with cause 0x12 hands the waiting commands over. -/
def fwRestart (s : State) : State :=
  let s1 := boot (raise s Src.cpReset 0xFF 0x12)
  startRecovery s1 (cpScope s1) 0x12 0xFF false [] []

/-! ### The identity record (R348, R349, Table 15.7) -/

/-- A copy of the record is valid: its MAGIC, LAYOUT and CLOSURE are right (log 195). -/
def recGood (b : List Byte) : Bool := closureOk b 4096 && leAt b 0 4 == 0x54444E49 && leAt b 4 2 == 1

/-- The record as its bytes give it. -/
def recOf (b : List Byte) : IdRec where
  seq := word (leAt b 8 4)
  capsuleSeq := word (leAt b 12 4)
  factorySn := BitVec.ofNat 64 (beAt b 24 8)
  activeSn := BitVec.ofNat 64 (beAt b 32 8)
  factoryMac := BitVec.ofNat 48 (beAt b 40 6)
  activeMac := BitVec.ofNat 48 (beAt b 46 6)
  profile := BitVec.ofNat 8 (leAt b 52 1)
  transferred := (leAt b 53 1).testBit 0
  origin := BitVec.ofNat 64 (leAt b 56 8)
  activeReg := fit 48 (b.drop 64)
  factoryReg := fit 48 (b.drop 112)
  operatorKey := fit 48 (b.drop 160)

/-- The 4 KiB of a record of this unit. -/
def recBytes (s : State) (r : IdRec) : List Byte :=
  closed (fit 4092 (bytesLE 4 0x54444E49 ++ bytesLE 2 1 ++ bytesLE 2 (configId s 0).device ++ bytesLE 4 r.seq.toNat
    ++ bytesLE 4 r.capsuleSeq.toNat ++ bytesLE 8 s.glb.unitId.toNat ++ bytesBE 8 r.factorySn.toNat ++ bytesBE 8 r.activeSn.toNat
    ++ bytesBE 6 r.factoryMac.toNat ++ bytesBE 6 r.activeMac.toNat ++ bytesLE 1 r.profile.toNat ++ bytesLE 1 (flagAt r.transferred 0)
    ++ zeros 2 ++ bytesLE 8 r.origin.toNat ++ fit 48 r.activeReg ++ fit 48 r.factoryReg ++ fit 48 r.operatorKey))

/-- The CAPSULE key derived from the unit root key (R257, selector 8). -/
def capsuleDerived : List Byte := Config.cmac Config.rootKey (Config.deriveConst 8)

/-- A key slot holds the CAPSULE key. -/
def isCapsuleSlot (k : Slot) : Bool := k.valid && k.kind == 12 && decide (k.owner = .system)

/-- The boot monitor derives the CAPSULE key into the lowest free slot of firmware's range, unless a slot holds it (R257, log 191). -/
def deriveCapsule (s : State) : State :=
  if s.sec.slots.toList.any isCapsuleSlot then s
  else
    match (List.range 64).find? (fun i => decide (s.sec.split.toNat ≤ i) && !(slotAt s i).valid) with
    | none => s
    | some i => setSlot s i (fun k => { k with
        valid := true, kind := 12, owner := .system, exportable := false, key := capsuleDerived, salt := none, pn := 1 })

/-- The CAPSULE key: the slot's, or where no slot is free the derived key itself. -/
def capsuleKey (s : State) : List Byte :=
  match s.sec.slots.toList.find? isCapsuleSlot with
  | some k => k.key
  | none => capsuleDerived

/-- The nonce of a field sealed in a record with a SEQ, by its first byte's offset (R349). -/
def fieldNonce (s : State) (seq : Word) (off : Nat) : List Byte :=
  bytesLE 8 s.glb.unitId.toNat ++ bytesLE 4 seq.toNat ++ bytesLE 1 (off / 16)

/-- A registration ID as a record keeps it: ciphertext, an 8-byte MIC, 4 reserved bytes. -/
def sealReg (s : State) (seq : Word) (off : Nat) (reg : List Byte) : List Byte :=
  let (ct, mic) := ccmSealed (capsuleKey s) (fieldNonce s seq off) [] (fit 36 reg) 8 true
  ct ++ mic ++ zeros 4

/-- A registration ID opened, if its MIC matches. -/
def openReg (s : State) (seq : Word) (off : Nat) (field : List Byte) : Option (List Byte) :=
  let (pt, mic) := ccmOpened (capsuleKey s) (fieldNonce s seq off) [] (fit 36 field) 8 true
  if mic = fit 8 (field.drop 36) then some pt else none

/-- A sealed field carried into the record's next SEQ: opened and sealed again; one that does not open is kept as it is. -/
def carryReg (s : State) (old new : Word) (off : Nat) (field : List Byte) : List Byte :=
  match openReg s old off field with
  | some reg => sealReg s new off reg
  | none => field

/-- The boot monitor writes the copy that does not hold the record, with the next SEQ and both registration IDs sealed for it (R349). -/
def writeRecord (s : State) (f : IdRec → IdRec) : State :=
  let t := deriveCapsule s
  let r := t.fw.rec_
  let n := r.seq + 1
  let r1 := f { r with seq := n, activeReg := carryReg t r.seq n 64 r.activeReg, factoryReg := carryReg t r.seq n 112 r.factoryReg }
  let copy : BitVec 2 := if t.fw.recCopy = 1 then 2 else 1
  emitOut (modFw t (fun w => { w with rec_ := r1, recCopy := copy, recKnown := true }))
    (.flash (if copy = 1 then 0x10000 else 0x18000) (recBytes t r1))

/-! ### Reset values by profile (Table 15.8) -/

/-- PWR_TIMER.IDLE_US. -/
def idleDefault (s : State) : Byte := if s.glb.inForce = 1 then 200 else 100

/-- PM_CFG.SES_DTU. -/
def sesDefault (s : State) : Half := if s.glb.inForce = 1 then 8 else 16

end Sys2Proof.Machine
end

