-- ==== Sys2Proof/Machine/Code.lean ====
section
/-! DEFINITION. The codes of the lines: Reed-Solomon codewords over GF(2⁸), the hybrid error correction of uplink headers, CRC-8 and BIP-32 (05_uplink.md R104, R108, R109, Table 05.4; 07_line_framing.md R154). The manual names the codes; their field and generators are those of G.9807.1, whose tables it does not repeat (log 164). -/

namespace Sys2Proof.Machine

open Sys2Proof

/-! ### GF(2⁸) with x⁸ + x⁴ + x³ + x² + 1 -/

/-- Product by the primitive element. -/
def gfDouble (a : Nat) : Nat := if a < 128 then 2 * a else (2 * a) ^^^ 0x11D

/-- Product of two field elements. -/
def gfMul (a b : Nat) : Nat := (List.range 8).foldr (fun i r => gfDouble r ^^^ (if b.testBit i then a else 0)) 0

/-- A power of the primitive element. -/
def gfAlpha : Nat → Nat
  | 0 => 1
  | n + 1 => gfDouble (gfAlpha n)

/-- The inverse a²⁵⁴ of a nonzero element: the product of a², a⁴, … a¹²⁸. -/
def gfInv (a : Nat) : Nat := ((List.range 7).foldl (fun p _ => let q := gfMul p.1 p.1; (q, gfMul p.2 q)) (a, 1)).2

/-- A polynomial, lowest coefficient first, at a point. -/
def gfEval (p : List Nat) (x : Nat) : Nat := p.foldr (fun c r => gfMul r x ^^^ c) 0

/-- A codeword, first byte first, at a point. -/
def gfAt (w : List Nat) (x : Nat) : Nat := w.foldl (fun r c => gfMul r x ^^^ c) 0

/-! ### Reed-Solomon -/

/-- The generator with roots α⁰ to αⁿ⁻¹, highest coefficient first. -/
def rsGenerator (n : Nat) : List Nat :=
  (List.range n).foldl (fun g i => List.zipWith (· ^^^ ·) (g ++ [0]) (0 :: g.map (gfMul (gfAlpha i)))) [1]

/-- The n parity bytes of a message. -/
def rsParity (n : Nat) (m : List Byte) : List Byte :=
  let g := (rsGenerator n).tail
  let r := m.foldl (fun r b =>
    let f := b.toNat ^^^ r.headD 0
    List.zipWith (· ^^^ ·) (r.tail ++ [0]) (g.map (gfMul f))) (List.replicate n 0)
  r.map (BitVec.ofNat 8)

/-- A message with its parity. -/
def rsCodeword (n : Nat) (m : List Byte) : List Byte := m ++ rsParity n m

/-- The n syndromes of a received word. -/
def rsSyndromes (n : Nat) (w : List Nat) : List Nat := (List.range n).map (fun i => gfAt w (gfAlpha i))

/-- The state of the search for the error locator (Berlekamp and Massey). -/
structure RsSearch where
  c : List Nat
  b : List Nat
  len : Nat
  gap : Nat
  last : Nat

/-- One more syndrome. -/
def rsSearchStep (syn : List Nat) (x : RsSearch) (k : Nat) : RsSearch :=
  let at_ (l : List Nat) (i : Nat) : Nat := l.getD i 0
  let d := (List.range (x.len + 1)).foldl (fun r i => r ^^^ gfMul (at_ x.c i) (at_ syn (k - i))) 0
  if d = 0 then { x with gap := x.gap + 1 }
  else
    let q := gfMul d (gfInv x.last)
    let shifted := List.replicate x.gap 0 ++ x.b.map (gfMul q)
    let c := (List.range (max x.c.length shifted.length)).map (fun i => at_ x.c i ^^^ at_ shifted i)
    if 2 * x.len ≤ k then { c := c, b := x.c, len := k + 1 - x.len, gap := 1, last := d }
    else { x with c := c, gap := x.gap + 1 }

/-- The error locator of a word's syndromes, lowest coefficient first. -/
def rsLocator (n : Nat) (syn : List Nat) : List Nat :=
  ((List.range n).foldl (rsSearchStep syn) { c := [1], b := [1], len := 0, gap := 1, last := 1 }).c

/-- The error value at a location x of the locator (Forney). -/
def rsValue (n : Nat) (syn loc : List Nat) (x : Nat) : Nat :=
  let xi := gfInv x
  let om := (List.range n).map (fun k => (List.range (k + 1)).foldl (fun r i => r ^^^ gfMul (loc.getD i 0) (syn.getD (k - i) 0)) 0)
  let odd := (List.range loc.length).map (fun i => if i % 2 = 0 then loc.getD (i + 1) 0 else 0)
  gfMul x (gfMul (gfEval om xi) (gfInv (gfEval odd xi)))

/-- A received word decoded: its message with up to n/2 byte errors corrected, and whether any was; none: it cannot be corrected. -/
def rsDecode (n : Nat) (w : List Byte) : Option (List Byte × Bool) :=
  let v := w.map (fun b => b.toNat)
  let syn := rsSyndromes n v
  if syn.all (fun x => x == 0) then some (w.take (w.length - n), false)
  else
    let loc := rsLocator n syn
    let fixed := v.zipIdx.map (fun p =>
      let x := gfAlpha (w.length - 1 - p.2)
      if gfEval loc (gfInv x) = 0 then p.1 ^^^ rsValue n syn loc x else p.1)
    let changed := (List.zipWith (fun a b => decide (a ≠ b)) v fixed).countP id
    if (rsSyndromes n fixed).all (fun x => x == 0) && decide (2 * changed ≤ n) then
      some ((fixed.map (BitVec.ofNat 8)).take (w.length - n), true)
    else none

/-- Bytes cut into messages of m bytes and each given its parity; the last may be shorter. The first argument bounds their number. -/
def rsEncodeAll : Nat → Nat → Nat → List Byte → List Byte
  | 0, _, _, _ => []
  | k + 1, m, n, b => if b = [] then [] else rsCodeword n (b.take m) ++ rsEncodeAll k m n (b.drop m)

/-! ### Hybrid error correction -/

/-- Remainder of a value of n bits divided by x¹² + x¹⁰ + x⁸ + x⁵ + x⁴ + x³ + 1. -/
def hecRemainder (n v : Nat) : Nat :=
  (List.range n).foldl (fun r i =>
    let r2 := 2 * r + (if v.testBit (n - 1 - i) then 1 else 0)
    if r2.testBit 12 then r2 ^^^ 0x1539 else r2) 0

/-- Parity of the bits of a value of n bits. -/
def oddBits (n v : Nat) : Bool := ((List.range n).countP (fun i => v.testBit i)) % 2 == 1

/-- The 13 HEC bits of a field of n bits: 12 of the BCH code and an even parity bit over all. -/
def hecOf (n v : Nat) : Nat :=
  let r := hecRemainder (n + 12) (v * 4096)
  2 * r + (if oddBits (n + 12) (v * 4096 + r) then 1 else 0)

/-- A field of n bits with its HEC after it. -/
def withHec (n v : Nat) : Nat := v * 8192 + hecOf n v

/-- A word of n + 13 bits has no error. -/
def hecGood (n w : Nat) : Bool := hecRemainder (n + 12) (w / 2) == 0 && !oddBits (n + 13) w

/-- The field of a word of n + 13 bits with up to two bit errors corrected; none: it cannot be corrected. -/
def hecField (n w : Nat) : Option Nat :=
  let m := n + 13
  if hecGood n w then some (w / 8192)
  else
    let one := (List.range m).map (fun i => w ^^^ 2 ^ i)
    let two := (List.range m).flatMap (fun i => (List.range i).map (fun j => w ^^^ 2 ^ i ^^^ 2 ^ j))
    ((one ++ two).find? (hecGood n)).map (fun x => x / 8192)

/-! ### CRC-8 and BIP-32 -/

/-- CRC-8 with x⁸ + x² + x + 1, most significant bit first. -/
def crc8 (b : List Byte) : Nat :=
  b.foldl (fun c x => (List.range 8).foldl (fun r _ => if r < 128 then 2 * r else (2 * r % 256) ^^^ 0x07) (c ^^^ x.toNat)) 0

/-- BIP-32: even parity of each bit position over the 4-byte words. The first argument bounds their number. -/
def bip32 : Nat → List Byte → Nat
  | 0, _ => 0
  | n + 1, b => if b = [] then 0 else beAt (b ++ zeros 3) 0 4 ^^^ bip32 n (b.drop 4)

end Sys2Proof.Machine
end

