-- ==== Sys2Proof/Machine/Sched.lean ====
section
/-! DEFINITION. Queues, shaping, time gates and histograms, and the placing of frames in the DTU stream (09_scheduling.md; R160, R161). -/

namespace Sys2Proof.Machine

open Sys2Proof

/-! ### Placing bytes in the DTU stream (R160, R161, R205) -/

/-- Payload bytes of a DTU. -/
def dtuPayload : Nat := 440

/-- A segment header (R160). -/
def segHeader (first last : Bool) (n : Nat) : List Byte := bytesBE 2 (flagAt first 15 + flagAt last 14 + n)

/-- RESULT1 bit 0 of a transmitted frame (R190). -/
def txResult1 (w : Work) : Word := word (flagAt w.refetch 0)

/-- The outcome of a transmitted frame: LEN counts an inserted tag and neither padding nor FCS (log 33); its medium timestamp only where FLAGS.TS asks for it (R48, R230). -/
def txOutcome (w : Work) (ts : Option (Nat × Bool)) : Outcome where
  status := .ok
  len := w.d.len + (if bitOf w.d.p0 3 then 4 else 0)
  res0 := 0
  res1 := txResult1 w
  ts := if w.d.flags.getLsbD 1 then ts else none

/-- A frame's last byte enters the DTU stream: accepted work passes its emission point (Table 03.1). -/
def frameEmitted (s : State) (c : Nat) (f : Frame) : State :=
  match f.src with
  | .work r seq =>
    let s1 := raiseC (setMac s c (fun m => { m with dsFrames := m.dsFrames + 1 })) Src.dsFrames c 1
    match workOpen s1 r.val seq with
    | some w => beginEmission s1 r seq (txOutcome w f.ts)
    | none => s1
  | .pause => s
  | _ =>
    ptpOut (raiseC (setMac s c (fun m => { m with dsFrames := m.dsFrames + 1 })) Src.dsFrames c 1) c f.id (chanAt s c).qs.plain f.ts

/-- The frame's last byte may enter the stream: the journal has an entry for accepted work (R67). -/
def mayEmit (s : State) (f : Frame) : Bool :=
  match f.src with
  | .work _ _ => if f.placed = 0 then journalRoom s else journalSpace s
  | _ => true

/-- The frame in progress was wholly placed: an armed gate overrun is counted (R211). -/
def countOverrun (s : State) (c : Nat) : State :=
  if (chanAt s c).qs.overrunArmed && !((chanAt s c).gcl.active.enable && (chanAt s c).gcl.active.mode) then
    raiseC (setChan s c (fun k => { k with
      qs := { k.qs with overrunArmed := false }
      gcl := { k.gcl with overrun := k.gcl.overrun + 1 } })) Src.gclOverrun c 1
  else s

/-- Bytes of the frame in progress, then of waiting pause frames, are placed while the open DTU has room. -/
def placeBytes : Nat → State → Nat → State
  | 0, s, _ => s
  | n + 1, s, c =>
    let k := chanAt s c
    match k.qs.cur with
    | some f =>
      let room := dtuPayload - k.fr.openDtu.length
      if room < 3 then s
      else
        let rest := f.bytes.drop f.placed
        let m := min (room - 2) rest.length
        let last := decide (m = rest.length)
        if last && !mayEmit s f then s
        else
          let s1 := setFr s c (fun r => { r with
            openDtu := r.openDtu ++ segHeader (f.placed == 0) last m ++ rest.take m
            openStarts := if f.placed = 0 then r.openStarts ++ [(f.src, f.id, r.openDtu.length + 2)] else r.openStarts })
          if last then placeBytes n (countOverrun (frameEmitted (setQs s1 c (fun q => { q with cur := none })) c f) c) c
          else setQs s1 c (fun q => { q with cur := some { f with placed := f.placed + m } })
    | none =>
      match k.qs.pauseTx with
      | [] => s
      | b :: t =>
        if dtuPayload < k.fr.openDtu.length + 3 then s
        else
          placeBytes n (setQs s c (fun q => { q with
            pauseTx := t, cur := some (mkFrame .pause .line b 0 0 0 false 0) })) c

/-- Enough placings for one DTU. -/
def placeAll (s : State) (c : Nat) : State := placeBytes 300 s c

/-! ### Eligibility and deficit round robin (R203, R204) -/

/-- A queue's gate is open at an instant (R209). -/
def gateOpen (k : Chan) (t i : Nat) : Bool :=
  if k.gcl.active.enable then
    match k.gcl.active.entries[gclEntry k.gcl t]? with
    | none => true
    | some e => e.2.getLsbD i
  else true

/-- How long gate i stays open through a list's entries in order; none: all of them open it. -/
def openFor (i : Nat) : List (Nat × Half) → Option Nat
  | [] => none
  | e :: t => if e.2.getLsbD i then (openFor i t).map (fun d => 8 * e.1 * nsUnit + d) else some 0

/-- The instant at which the gate of queue i, open now, next closes; none: it stays open. -/
def gateCloses (k : Chan) (t i : Nat) : Option Nat :=
  let l := k.gcl.active.entries.take k.gcl.active.len
  let p := gclWalk l 0 (gclInto k.gcl.active t)
  (openFor i (l.drop (p.1 + 1) ++ l.take (p.1 + 1))).map (fun d => t + p.2 + d)

/-- The description of queue i of a channel. -/
def qdescAt (k : Chan) (i : Nat) : QDesc := vget k.tab.queues i QDesc.zero

/-- The head frame is stored whole (not waiting for a second read). -/
def headReady (k : Chan) (i : Nat) : Bool :=
  match vget k.qs.q i [] with
  | [] => false
  | f :: _ => decide (f.bytes ≠ [])

/-- Bytes a downstream frame of n bytes has on the line: SecTAG and ICV added where the channel protects (R253). -/
def lineLen (k : Chan) (n : Nat) : Nat :=
  match k.tab.mac with
  | none => n
  | some m => if m.txEn then n + (if m.inclSci then 16 else 8) + 16 else n

/-- A downstream queue's head frame ends in a data slot that is over when its gate next closes (R211, WINDOW_FIT); a frame longer than the present portion does not. -/
def windowFits (k : Chan) (t i n : Nat) : Bool :=
  match gateCloses k t i with
  | none => true
  | some e =>
    let x := slotOfStream k (lastByteAt k.fr n)
    decide (lastByteAt k.fr n < k.fr.regionLeft) && decide (slotInstant k (x.1, x.2 + 1) ≤ e)

/-- The head frame of a downstream queue passes the portion test, and in WINDOW_FIT mode fits before its gate closes (R205, R211). -/
def headFitsLine (k : Chan) (t i : Nat) : Bool :=
  let n := lineLen k (match vget k.qs.q i [] with | [] => 0 | f :: _ => f.bytes.length)
  portionFits k n && (!(k.gcl.active.enable && k.gcl.active.mode) || windowFits k t i n)

/-- Queue i is eligible at an instant (R203). -/
def eligible (k : Chan) (t i : Nat) : Bool :=
  headReady k i && (!(qdescAt k i).shape || decide (0 < vget k.qs.credit i 0)) && gateOpen k t i
    && (decide (8 ≤ i) || ((vget k.qs.obey i none).isNone && headFitsLine k t i))

/-- Length of a queue's head frame. -/
def headLen (k : Chan) (i : Nat) : Nat := match vget k.qs.q i [] with | [] => 0 | f :: _ => f.bytes.length

/-- DWRR quantum (Table 09.2). -/
def quantum (weight : Nat) : Nat := (weight + 1) * 128

/-- Rounds of quanta a queue needs before its deficit covers its head. -/
def needRounds (deficit len q : Nat) : Nat := (len - deficit + q - 1) / q

/-- The eligible queues of a level in service order: from the cursor, or the next eligible after it, ascending and wrapping. -/
def rotate (cursor : Nat) (els : List Nat) : List Nat :=
  els.filter (fun i => decide (cursor ≤ i)) ++ els.filter (fun i => decide (i < cursor))

/-- The least number of rounds any of the queues needs. -/
def minRounds (need : Nat → Nat) : List Nat → Nat
  | [] => 0
  | [a] => need a
  | a :: t => min (need a) (minRounds need t)

/-- The queue R204 serves among eligible ones, and the rounds of quanta added before it. -/
def dwrr (cursor : Nat) (els : List Nat) (need : Nat → Nat) : Option (Nat × Nat) :=
  let k := minRounds need els
  match (rotate cursor els).find? (fun i => decide (need i = k)) with
  | none => none
  | some q => some (q, k)

/-- The highest level of a list of queues. -/
def topLevel (level : Nat → Nat) (els : List Nat) : Nat := els.foldl (fun a i => max a (level i)) 0

/-- The selection of a channel's scheduler: the queue and the queues' state after it (R204, R207). -/
def pickQueue (k : Chan) (up : Bool) (t : Nat) : Option (Nat × Queues) :=
  let ids := (List.range 8).map (fun p => if up then p + 8 else p)
  let els := ids.filter (eligible k t)
  let lv := topLevel (fun i => (qdescAt k i).level) els
  let best := els.filter (fun i => decide ((qdescAt k i).level = lv))
  let cursor := vget (if up then k.qs.cursorUs else k.qs.cursorDs) lv 0
  let quant (i : Nat) : Nat := quantum (qdescAt k i).weight
  let need (i : Nat) : Nat := needRounds (vget k.qs.deficit i 0) (headLen k i) (quant i)
  match dwrr cursor best need with
  | none => none
  | some (q, rounds) =>
    let d1 := vmapIdx (fun i d => if best.contains i then d + rounds * quant i else d) k.qs.deficit
    let left := (vget k.qs.q q []).tail
    let after := if left = [] then 0 else vget d1 q 0 - headLen k q
    some (q, { k.qs with
      q := vset k.qs.q q left
      deficit := vset d1 q after
      cursorDs := if up then k.qs.cursorDs else vset k.qs.cursorDs lv q
      cursorUs := if up then vset k.qs.cursorUs lv q else k.qs.cursorUs
      credit := if (qdescAt k q).shape then
          vset k.qs.credit q (vget k.qs.credit q 0 - ((headLen k q * 8000 : Nat) : Int))
        else k.qs.credit })

/-- Channel c's next frame goes through a core and is ready to. -/
def wantsCore (s : State) (c : Nat) : Bool :=
  let k := chanAt s c
  (match k.tab.mac with | none => false | some m => m.txEn) && serving s c && k.qs.cur.isNone && decide (k.qs.pauseTx = []) && mayProtect s c
    && (pickQueue k false s.datum).isSome

/-- With two cores or fewer, channels take them in turn: channel c is the first after the one served last that has a frame ready (R250; log 190). -/
def coreTurn (s : State) (c : Nat) : Bool :=
  decide (2 < coresLeft s) || !wantsCore s c
    || ((List.range 24).map (fun i => (s.sec.served + 1 + i) % 24)).find? (wantsCore s) == some c

/-- The channel whose frame takes a core. -/
def takeCore (s : State) (c : Nat) : State := if wantsCore s c then { s with sec := { s.sec with served := c } } else s

/-- A downstream selection of the queue of a priority, which is the one the scheduler comes to (log 204): its next frame, protected, begins to enter the DTU stream (R205). -/
def selectDown (s : State) (c prio : Nat) : State :=
  let k := chanAt s c
  if !serving s c || k.qs.cur.isSome || decide (k.qs.pauseTx ≠ []) || !mayProtect s c || !coreTurn s c then s
  else
    match pickQueue k false s.datum with
    | none => s
    | some (q, qs) =>
      match vget k.qs.q q [] with
      | [] => s
      | f :: _ =>
        if q ≠ prio then s
        else
          let (s1, b) := macOut (takeCore s c) c f.bytes
          placeAll (setQs s1 c (fun _ => { qs with cur := some { f with bytes := b, placed := 0 }, plain := f.bytes, overrunArmed := false })) c

/-- A frame released to the destination classification chose (R201). -/
def releaseUp (s : State) (c : Nat) (f : Frame) : State :=
  match f.dest with
  | .tcont q => enqueueTcont s q f
  | .rxh => setChan s c (fun k => { k with hostRx := k.hostRx ++ [f] })
  | _ => { s with xc := { s.xc with excRx := s.xc.excRx ++ [f] } }

/-- An upstream selection (R206), in the same way. -/
def selectUp (s : State) (c prio : Nat) : State :=
  let k := chanAt s c
  if !serving s c then s
  else
    match pickQueue k true s.datum with
    | none => s
    | some (q, qs) =>
      match vget k.qs.q q [] with
      | [] => s
      | f :: _ => if q ≠ prio + 8 then s else pauseCheck (releaseUp (setQs s c (fun _ => qs)) c f) c

def execSchedulerSelect (c : Ch) (d : Dir) (prio : Fin 8) (s : State) : Host.Outcome State Fault Refusal :=
  .next (match d with
    | .ds => selectDown s c.val prio.val
    | .us => selectUp s c.val prio.val)

/-! ### Shaping (R207, R208) -/

/-- The cap of a shaped queue in millibits. -/
def creditCap (d : QDesc) : Int := ((d.cbs * 8000 : Nat) : Int)

/-- A queue's credit when a queue section takes effect (R208). -/
def newCredit (old new : QDesc) (credit : Int) : Int :=
  if !new.shape then credit
  else if !old.shape then creditCap new
  else if old.cbs ≠ new.cbs then min credit (creditCap new)
  else credit

/-- A waiting queue section takes effect. -/
def applyQueues (k : Chan) : Chan :=
  match k.tab.pendQueues with
  | none => k
  | some v =>
    { k with
      tab := { k.tab with queues := v, pendQueues := none }
      qs := { k.qs with credit := vmapIdx (fun i x => newCredit (qdescAt k i) (vget v i QDesc.zero) x) k.qs.credit } }

/-- One refill of a channel's shaped queues. -/
def refill (k : Chan) : Chan :=
  let one (i : Nat) (x : Int) : Int :=
    let d := qdescAt k i
    if d.shape then min (x + (d.cir : Int)) (creditCap d) else x
  { k with qs := { k.qs with credit := vmapIdx one k.qs.credit } }

/-- A refill tick of one channel. -/
def tickChan (k : Chan) : Chan :=
  let k1 := applyQueues k
  if k1.tab.state = .service ∨ k1.tab.state = .economy then refill k1 else k1

/-- A refill tick: a datum instant whose nanoseconds are a multiple of 1,000 (R207, log 165). -/
def execRefillTick (s : State) : Host.Outcome State Fault Refusal :=
  .next (if atEdge s usUnit 0 then { s with chans := vmapIdx (fun _ k => tickChan k) s.chans } else s)

/-! ### Time gates (R209 to R212) -/

/-- A bank is valid (R210). -/
def gclValid (b : GclBank) : Bool :=
  decide (1 ≤ b.len) && decide (b.len ≤ 256) && decide (b.len ≤ b.entries.length)
    && (b.entries.take b.len).all (fun e => decide (e.1 ≠ 0))
    && decide (1000000000 % cycleNs b = 0) && decide (b.phase < 1000000000)

/-- The bank may be swapped in: valid, and P1 finds MODE 1 invalid (Table 15.8). -/
def gclUsable (b : GclBank) (p1 : Bool) : Bool := gclValid b && !(p1 && b.mode)

/-- A swap request: the shadow bank validated, and its next cycle start awaited. -/
def gclRequest (g : Gcl) (p1 : Bool) : Gcl :=
  if gclUsable g.shadow p1 then { g with pending := true } else { g with bad := true }

/-- A swap request of channel c (R210). -/
def gclSwapOp (s : State) (c : Nat) : State := setChan s c (fun k => { k with gcl := gclRequest k.gcl (isP1 s) })

/-- GCL_CTL.SWAP written 1 (R210). -/
def execGclSwap (who : Requester) (c : Ch) (s : State) : Host.Outcome State Fault Refusal :=
  .next (if reachesChan who c.val && present s c.val then gclSwapOp s c.val else s)

/-- A pending swap at a cycle start of the new list: the banks change places. A bank rewritten meanwhile that is no longer valid is not made active: the request ends as an invalid one (DESIGN CHOICE, log 176). -/
def gclTurn (s : State) (g : Gcl) : Gcl :=
  if !g.pending then g
  else if !gclUsable g.shadow (isP1 s) then { g with pending := false, bad := true }
  else if atEdge s (cycleNs g.shadow * nsUnit) (g.shadow.phase * nsUnit) then { g with active := g.shadow, shadow := g.active, pending := false }
  else g

/-- A gate that closes on the frame in progress arms an overrun (R211). -/
def armOverrun (k : Chan) (t : Nat) : Chan :=
  match k.qs.cur with
  | some f => if gateOpen k t f.prio.toNat || decide (f.src = .pause) then k else { k with qs := { k.qs with overrunArmed := true } }
  | none => k

/-- An interval of the active list ends: the entry in force follows the datum, and a pending swap takes place at its cycle start. -/
def execGateIntervalExpiry (c : Ch) (s : State) : Host.Outcome State Fault Refusal :=
  .next (if present s c.val then
      setChan s c.val (fun k => armOverrun { k with gcl := gclTurn s k.gcl } s.datum)
    else s)

/-! ### Histograms (R216) -/

/-- The bin of a sample. -/
def histBin (v : Nat) : Nat := if v = 0 then 0 else min 15 (Nat.log2 v + 1)

/-- A bin counter rises, saturating. -/
def histAdd (h : Vector (Vector Word 16) 32) (row v : Nat) : Vector (Vector Word 16) 32 :=
  let r := vget h row (Vector.replicate 16 0)
  vset h row (vset r (histBin v) (word (satAdd (vget r (histBin v) 0).toNat 1 32)))

/-- Head-of-line delay of a queue in µs; 0 when empty or when the datum stepped back. -/
def holDelay (now : Nat) (q : List Frame) : Nat :=
  match q with
  | [] => 0
  | f :: _ => (now - f.entered) / usUnit

/-- One channel's samples. -/
def sampleChan (now : Nat) (k : Chan) : Chan :=
  if k.tab.state = .service ∨ k.tab.state = .economy then
    { k with qs := { k.qs with hist := (List.range 16).foldl (fun h i =>
        histAdd (histAdd h i (frameCells (vget k.qs.q i []))) (16 + i) (holDelay now (vget k.qs.q i []))) k.qs.hist } }
  else k

/-- A sample: a datum instant whose nanoseconds are a multiple of 1,000,000 (R216, log 165). -/
def execHistogramSample (s : State) : Host.Outcome State Fault Refusal :=
  .next (if atEdge s msUnit 0 then { s with chans := vmapIdx (fun _ k => sampleChan s.datum k) s.chans } else s)

/-- All 512 bins cleared. -/
def clearHist (s : State) (c : Nat) : State :=
  setQs s c (fun q => { q with hist := Vector.replicate 32 (Vector.replicate 16 0) })

/-- HIST_CLR.CLR written 1. -/
def execHistClr (who : Requester) (c : Ch) (s : State) : Host.Outcome State Fault Refusal :=
  .next (if reachesChan who c.val && present s c.val then clearHist s c.val else s)

end Sys2Proof.Machine
end

