-- ==== Sys2Proof/Machine/Uplink.lean ====
section
/-! DEFINITION. The shared fibre uplink: synchronisation, activation, PLOAM, XGEM ports, the emission gate and PON power saving (05_uplink.md; R213 to R215, R256, R385, R386). -/

namespace Sys2Proof.Machine

open Sys2Proof

def setUpl (s : State) (f : Upl → Upl) : State := { s with upl := f s.upl }

/-! ### Levels that follow the state -/

/-- OPT_TX_DISABLE (R106, R125). -/
def driveTx (s : State) : State :=
  setUpl s (fun u => { u with txDisable := decide (u.gate = .stopped) || u.modAbs || u.rogue || !s.pwr.domUpl })

/-- Downstream light can be received: a module with light, the domain powered and the receiver on. -/
def rxLive (s : State) : Bool := s.pwr.domUpl && !s.upl.modAbs && !s.upl.rxLos && s.upl.rxOn

/-- The downstream is received in SYNC. -/
def inSync (s : State) : Bool := rxLive s && decide (s.upl.sync = .sync)

/-- SOURCE follows the root PLL (R225, Table 10.3): locked while the gate is RANGED and the downstream is received in SYNC, frozen once it is not. -/
def followSrc (s : State) : State :=
  if s.upl.gate = .ranged ∧ inSync s then { s with time := { s.time with src := .locked } }
  else if s.time.src = .locked then { s with time := { s.time with src := .frozen } }
  else s

/-- GATE_STATE changes; UPL_STATE is raised at each change (log 34). -/
def setGate (s : State) (g : GateSt) : State :=
  if s.upl.gate = g then followSrc (driveTx s)
  else raise (followSrc (driveTx (setUpl s (fun u => { u with gate := g })))) Src.uplState 0xFE 0

/-! ### Bursts that end early (R69, R120, R124) -/

/-- The bits of an interval of the datum. -/
def bitsOf (d : Nat) : Nat := d * 31104 / (3125 * nsUnit)

/-- The datum units of a number of line bits: τ is 1/9.95328 GHz. -/
def bitTime (n : Int) : Int := n * ((3125 * nsUnit : Nat) : Int) / 31104

/-- The outcome of uplink work whose last byte has left. -/
def uplOutcome (w : Work) (x : BurstWork) (cut : Bool) : Outcome :=
  if cut then (txOutcome w x.ts).cut else txOutcome w x.ts

/-- Work of a burst passes its emission point (Table 03.1). -/
def emitBurstWork (cut : Bool) (s : State) (x : BurstWork) : State :=
  match workOpen s x.ring.val x.seq with
  | none => s
  | some w => emitWork s x.ring x.seq (uplOutcome w x cut)

/-- T-CONT queues with frames mapped. -/
def mapTcont (s : State) (p : Frame → Frame) : State :=
  setUpl s (fun u => { u with tcont := vmapIdx (fun _ l => l.map p) u.tcont })

/-- Frames leave the T-CONT queues. -/
def dropTcont (s : State) (p : Frame → Bool) : State :=
  setUpl s (fun u => { u with tcont := vmapIdx (fun _ l => l.filter (fun f => !p f)) u.tcont })

/-- The accepted work a frame carries. -/
def workOf (f : Frame) : Option (RingNo × Word) := match f.src with | .work r q => some (r, q) | _ => none

/-- A fragment is of a frame. -/
def ofFrame (g : BurstSeg) (f : Frame) : Bool := f.id == g.id && decide (f.src = g.src)

/-- Upstream pause is looked at again on every channel once T-CONT frames have left. -/
def pauseAll (s : State) : State := (List.range 24).foldl pauseCheck s

/-- A frame some of whose bytes were in a stopped burst: accepted work is returned, and the rest of the frame is not sent (R120). -/
def loseSeg (st : Status) (s : State) (g : BurstSeg) : State :=
  let s1 := dropTcont s (ofFrame g)
  match g.src with
  | .work r q => returnWork s1 r.val q st
  | _ => s1

/-- The bytes of a burst that have left after a number of line bits of its window. -/
def sentBytes (b : Burst) (reached : Nat) : List Byte :=
  (b.psbu ++ b.bytes).take ((reached + 8 * b.k * b.psbu.length - b.lead) / (8 * b.k))

/-- The open window's burst stops after a number of line bits of its window: work whose last byte had left is executed, TRUNCATED, and the rest is not sent (R120). The status of what is returned then is not stated (log 35). -/
def stopWindow (s : State) (reached : Nat) (st : Status) : State :=
  match s.upl.window with
  | none => s
  | some b =>
    let s1 := emitOut (setUpl s (fun u => { u with window := none, burstEn := false, txSd := false })) (.burst (sentBytes b reached))
    let s2 := (b.lastOf.filter (fun x => decide (x.endBit ≤ reached))).foldl (emitBurstWork true) s1
    pauseAll (b.segs.foldl (loseSeg st) s2)

/-- How far the open window's burst has come, in line bits. -/
def reachedBits (s : State) : Nat := match s.upl.window with | none => 0 | some b => bitsOf (s.datum - b.opened)

/-! ### Bursts refused after their content was fixed -/

/-- The frames of a burst that is not sent are free for another. -/
def unplan (s : State) (b : Burst) : State :=
  mapTcont s (fun f => if b.segs.any (fun g => ofFrame g f) then { f with planned := f.placed } else f)

/-- A burst that is not sent gives back its frames and its PLOAM message. -/
def restoreBurst (s : State) (b : Burst) : State :=
  let s1 := unplan s b
  match b.ploam with
  | none => s1
  | some (true, _) => setUpl s1 (fun u => { u with dgLeft := u.dgLeft + 1 })
  | some (false, m) => setUpl s1 (fun u => { u with ploamUp := m :: u.ploamUp })

/-- A refused window is counted (R121). -/
def countRefused (s : State) : State :=
  raiseC (setUpl s (fun u => { u with refused := u.refused + 1 })) Src.gateRefused 0xFE 1

/-- Every waiting burst is refused; the T-CONT scheduler stands as before the first of them. -/
def refuseAll (s : State) : State :=
  let l := s.upl.bursts
  let s1 := l.reverse.foldl restoreBurst (setUpl s (fun u => { u with bursts := [] }))
  let s2 := match l with
    | [] => s1
    | b :: _ => setUpl s1 (fun u => { u with tcDeficit := b.deficit, tcCursor := b.cursor })
  l.foldl (fun t _ => countRefused t) s2

/-! ### Synchronisation (R107, R108) -/

/-- LODS: the gate opens no window and the root PLL freezes (R107, R225). -/
def declareLods (s : State) : State :=
  let s1 := followSrc (setUpl s (fun u => { u with sync := .hunt, misses := 0, missing := true, lods := true }))
  if s.upl.lods then s1 else raise s1 Src.lods 0xFE 0

/-- An EqD whose upstream frame has started is the one in force (R118). -/
def takeEqd (s : State) : State :=
  match s.upl.eqdNext with
  | none => s
  | some (e, t) => if t ≤ (s.datum : Int) then setUpl s (fun u => { u with eqd := e, eqdNext := none }) else s

/-- A header whose HEC cannot be corrected is discarded and counted (R108; log 37). -/
def countXgem (s : State) : State :=
  raiseC (setUpl s (fun u => { u with xgemDisc := u.xgemDisc + 1 })) Src.xgemDiscard 0xFE 1

/-- The RS(248,216) codewords of a downstream frame: those that cannot be corrected pass on as received and are counted (R108). -/
def decodeDown (l : List (List Byte)) : List Byte × Nat :=
  let d := l.map (fun w => (w, rsDecode 32 w))
  (d.flatMap (fun x => match x.2 with | some (m, _) => m | none => x.1.take (x.1.length - 32)), d.countP (fun x => x.2.isNone))

/-- Codewords of the present downstream frame decoded, and its XGTC header checked: with the header lost, the frame's payload cannot be told apart and is discarded (R108, log 168). -/
def xgtcOp (s : State) (codewords : List (List Byte)) : State :=
  let (b, bad) := decodeDown codewords
  let s1 := raiseC (setUpl s (fun u => { u with fecUncorr := u.fecUncorr + bad, xgemSkip := false })) Src.fecUncorr 0xFE bad
  if decide (4 ≤ b.length) && (hecField 19 (beAt b 0 4)).isNone then countXgem (setUpl s1 (fun u => { u with xgemSkip := true })) else s1

/-- The synchronisation state after a PSync match. -/
def syncMatch (u : Upl) : Upl :=
  match u.sync with
  | .hunt => { u with sync := .presync }
  | _ => { u with sync := .sync, misses := 0, missing := false, lods := false }

/-- A PSBd: synchronisation, its codewords in SYNC, and the time of day it carries (R107, R108, R220, R223). -/
def psbdOp (s : State) (k : BitVec 51) (codewords : List (List Byte)) : State :=
  if !rxLive s then s
  else
    let s1 := followSrc (takeEqd (setUpl s (fun u => { syncMatch u with superframe := k, tds := s.datum })))
    let inSync := decide (s1.upl.sync = .sync)
    timePsbd (if inSync then xgtcOp s1 codewords else s1) k inSync

/-- A PSBd is found where the state of synchronisation looks for it (R107). -/
def execPsbdReceived (superframeHi : BitVec 19) (superframeLo : Word) (codewords : List (List Byte)) (s : State) :
    Host.Outcome State Fault Refusal :=
  .next (psbdOp s (superframeHi ++ superframeLo) codewords)

def psyncMissOp (s : State) : State :=
  if !rxLive s then s
  else
    match s.upl.sync with
    | .hunt => s
    | .presync => setUpl s (fun u => { u with sync := .hunt })
    | .sync =>
      if 3 ≤ s.upl.misses + 1 then declareLods s
      else setUpl s (fun u => { u with misses := u.misses + 1, missing := true })

def execPsyncExpectedMiss (s : State) : Host.Outcome State Fault Refusal := .next (psyncMissOp s)

/-- OPT_RX_LOS changes (R107). -/
def execOptRxLosChange (level : Bool) (s : State) : Host.Outcome State Fault Refusal :=
  .next (let s1 := setUpl s (fun u => { u with rxLos := level })
    if level && s.pwr.domUpl then declareLods s1 else s1)

/-! ### Ports (R111, R386) -/

/-- The OMCI port is installed in entry 0, and any other entry with its port ID is invalidated. -/
def installOmci (u : Upl) (id : BitVec 10) : Upl :=
  let p : Half := BitVec.ofNat 16 id.toNat
  let clean := vmapIdx (fun _ e => if e.valid && e.port == p then { e with valid := false } else e) u.ports
  { u with ports := vset clean 0 { valid := true, type := 2, encReq := false, flow := 0, port := p } }

/-- The OMCI port is removed. -/
def removeOmci (u : Upl) : Upl := { u with ports := vset u.ports 0 PortEntry.zero }

/-- The ONU-ID and every Alloc-ID are cleared; EqD is 0 until the gate is RANGED (R113, R116). -/
def clearIds (u : Upl) : Upl :=
  { removeOmci u with onuId := 0x3FF, allocs := Vector.replicate 32 none, eqd := 0, eqdNext := none }

/-- A port entry as UPL_PORT_DATA shows it. -/
def portImage (e : PortEntry) : Word :=
  word (flagAt e.valid 31 + fieldAt e.type.toNat 2 29 + flagAt e.encReq 28 + fieldAt e.flow.toNat 12 16 + e.port.toNat)

/-- The entry UPL_PORT_DATA spells. -/
def portOfWord (w : Word) : PortEntry where
  valid := bitOf w 31
  type := BitVec.ofNat 2 (bits w 30 29)
  encReq := bitOf w 28
  flow := BitVec.ofNat 12 (bits w 27 16)
  port := BitVec.ofNat 16 (bits w 15 0)

/-- The port ID is valid in another entry. -/
def portDup (u : Upl) (idx : Nat) (e : PortEntry) : Bool :=
  (u.ports.toList.zipIdx).any (fun q => q.2 != idx && q.1.valid && q.1.port == e.port)

def portReadOp (u : Upl) (idx : BitVec 10) : Upl :=
  { u with portIdx := idx, portStatus := 0, portData := portImage (vget u.ports idx.toNat PortEntry.zero) }

/-- A firmware WRITE: RESERVED, DUP, or one step (R386). TYPE 3 names no port type and is refused as TYPE 2 is (log 38). -/
def portWriteOp (u : Upl) (idx : BitVec 10) : Upl :=
  let e := portOfWord u.portData
  if idx = 0 ∨ 2 ≤ e.type.toNat then { u with portIdx := idx, portStatus := 2 }
  else if portDup u idx.toNat e then { u with portIdx := idx, portStatus := 1 }
  else { u with portIdx := idx, portStatus := 0, ports := vset u.ports idx.toNat e }

def portClearOp (u : Upl) (idx : BitVec 10) : Upl :=
  if idx = 0 then { u with portIdx := idx, portStatus := 2 }
  else { u with portIdx := idx, portStatus := 0, ports := vset u.ports idx.toNat PortEntry.zero }

/-- OP READ, by the PF or firmware. -/
def execUplPortRead (who : Requester) (idx : BitVec 10) (s : State) : Host.Outcome State Fault Refusal :=
  .next (if reachesAll who && s.pwr.domUpl then setUpl s (fun u => portReadOp u idx) else s)

/-- OP WRITE, by firmware; the PF's is ignored. -/
def execUplPortWrite (who : Requester) (idx : BitVec 10) (s : State) : Host.Outcome State Fault Refusal :=
  .next (if isFw who && s.pwr.domUpl then setUpl s (fun u => portWriteOp u idx) else s)

/-- OP CLEAR, by firmware; the PF's is ignored. -/
def execUplPortClear (who : Requester) (idx : BitVec 10) (s : State) : Host.Outcome State Fault Refusal :=
  .next (if isFw who && s.pwr.domUpl then setUpl s (fun u => portClearOp u idx) else s)

/-! ### PLOAM (R110, R113, R118) -/

/-- A message that failed its integrity check is discarded and counted. -/
def micFail (s : State) : State :=
  raiseC (setUpl s (fun u => { u with micFails := u.micFails + 1 })) Src.ploamMicFail 0xFE 1

/-- The PLOAM integrity key: that of PLOAM_IK, or the standard's default while the handle is unusable (R256). -/
def ploamKey (s : State) : List Byte :=
  let h : Half := BitVec.ofNat 16 (bits s.upl.bind1 15 0)
  if uplKeyUsable s 7 h then (slotAt s (handleSlot h)).key else Config.defaultPloamIk

/-- The 8-byte integrity check of a message's first 40 bytes: AES-CMAC over a byte for the direction and the message, 1 downstream and 2 upstream (R104, R110, log 169). -/
def ploamMic (s : State) (dir : Byte) (m : List Byte) : List Byte := fit 8 (Config.cmac (ploamKey s) (dir :: fit 40 m))

/-- SEC confirms a downstream message's integrity check (R110). -/
def micGood (s : State) (m : Ploam) : Bool := decide (m.length = 48) && decide (m.drop 40 = ploamMic s 1 m)

/-- The ONU-ID a message names. -/
def ploamOnu (m : Ploam) : BitVec 10 := BitVec.ofNat 10 (beAt m 0 2)

/-- A message is accepted: it goes to firmware and acts through f; or it is discarded (R110). -/
def ploam (s : State) (m : Ploam) (f : State → State) : State :=
  if !inSync s then s
  else if ploamOnu m ≠ s.upl.onuId ∧ ploamOnu m ≠ 0x3FF then s
  else if !micGood s m then micFail s
  else f (emitOut s (.toFirmware m))

/-- Sleep_Allow withdraws permission to sleep (R129, log 170). -/
def sleepWithdrawn (m : Ploam) : Bool := beAt m 2 1 == 0x12 && !(beAt m 4 1).testBit 0

/-- A message of a type on which the hardware takes no other action. -/
def execPloamReceived (body check : List Byte) (s : State) : Host.Outcome State Fault Refusal :=
  .next (ploam s (body ++ check) (fun s => if sleepWithdrawn (body ++ check) then ponWake s else s))

/-- Burst_Profile (R104). -/
def execBurstProfile (m : Ploam) (i : Fin 4) (p : BurstProf) (s : State) : Host.Outcome State Fault Refusal :=
  .next (ploam s m (fun s => setUpl s (fun u => { u with profiles := vset u.profiles i.val (some p) })))

/-- Serial number names this unit. -/
def snMatch (s : State) (hi lo : Word) : Bool := hi == s.upl.snHi && lo == s.upl.snLo

/-- Assign_ONU-ID: the ONU-ID, the default Alloc-ID and the OMCI port, and the gate ASSIGNED with EqD 0 (R111, R113, Table 05.3). -/
def assignOnu (s : State) (id : BitVec 10) : State :=
  let u1 := removeOmci s.upl
  setGate (setUpl s (fun _ => installOmci { u1 with
    onuId := id, allocs := vset u1.allocs 0 (some (BitVec.ofNat 14 id.toNat)), eqd := 0, eqdNext := none } id)) .assigned

def execAssignOnuId (m : Ploam) (id : BitVec 10) (snHi snLo : Word) (s : State) : Host.Outcome State Fault Refusal :=
  .next (ploam s m (fun s => if snMatch s snHi snLo && decide (s.upl.gate ≠ .stopped) then assignOnu s id else s))

/-- k of R116. -/
def rateK (u : Upl) : Nat := if u.usRate = 1 then 4 else 1

/-- RESP, 348,365 line bits. -/
def resp : Int := 348365

/-- Line bits from t_ds to the start of the upstream frame, at an EqD (R116). -/
def frameBits (u : Upl) (eqd : Int) : Int := resp + eqd + signed u.respTrim.toNat 10

/-- 125 µs. -/
def uplPeriod : Nat := 125000 * nsUnit

/-- When the next upstream frame starts (R118; log 36). -/
def nextUpstream (s : State) : Int :=
  let base := (s.upl.tds : Int) + bitTime (frameBits s.upl s.upl.eqd)
  (s.datum : Int) + (base - (s.datum : Int)) % (uplPeriod : Int)

/-- The EqD a burst granted by the downstream frame that began at `tds` is built with (R118). -/
def burstEqd (u : Upl) (tds : Nat) : Int :=
  match u.eqdNext with
  | some (e, t) => if 2 * t < 2 * ((tds : Int) + bitTime (frameBits u u.eqd)) + (uplPeriod : Int) then e else u.eqd
  | none => u.eqd

/-- Ranging_Time: the EqD of the next upstream frame, in line bits, and the gate RANGED (R118). -/
def rangeOp (s0 : State) (absolute : Bool) (delay : Int) : State :=
  let s := takeEqd s0
  if s.upl.gate = .assigned ∨ s.upl.gate = .ranged then
    let base := if absolute then 0 else match s.upl.eqdNext with | some (e, _) => e | none => s.upl.eqd
    setGate (setUpl s (fun u => { u with eqdNext := some (base + (rateK u : Int) * delay, nextUpstream s) })) .ranged
  else s

def execRangingTime (m : Ploam) (absolute : Bool) (delay : Int) (s : State) : Host.Outcome State Fault Refusal :=
  .next (ploam s m (fun s => rangeOp s absolute delay))

/-- The slot that holds an Alloc-ID. -/
def slotOf (u : Upl) (id : BitVec 14) : Option Nat := (List.range 32).find? (fun i => decide (vget u.allocs i none = some id))

/-- The first free slot of 1 to 31. -/
def freeSlot (u : Upl) : Option Nat := (List.range 32).find? (fun i => decide (1 ≤ i) && decide (vget u.allocs i none = none))

/-- Assign_Alloc-ID (R113): slots fill in arrival order, and an assignment beyond them is counted. A removal that names the default Alloc-ID is ignored: it stands as long as the ONU-ID does (log 171). -/
def allocOp (s : State) (id : BitVec 14) (add : Bool) : State :=
  if s.upl.gate ≠ .assigned ∧ s.upl.gate ≠ .ranged then s
  else
    match add, slotOf s.upl id, freeSlot s.upl with
    | true, some _, _ => s
    | true, none, some i => setUpl s (fun u => { u with allocs := vset u.allocs i (some id) })
    | true, none, none => raiseC (setUpl s (fun u => { u with allocOver := u.allocOver + 1 })) Src.uplAllocOverflow 0xFF 1
    | false, some i, _ => if i = 0 then s else setUpl s (fun u => { u with allocs := vset u.allocs i none })
    | false, none, _ => s

def execAssignAllocId (m : Ploam) (id : BitVec 14) (add : Bool) (s : State) : Host.Outcome State Fault Refusal :=
  .next (ploam s m (fun s => allocOp s id add))

/-- The gate goes back to NOT_ASSIGNED, its IDs cleared; STOPPED stays. -/
def unassign (s : State) : State :=
  if s.upl.gate = .stopped then setUpl s clearIds else setGate (setUpl s clearIds) .notAssigned

/-- Deactivate_ONU-ID. -/
def execDeactivateOnuId (m : Ploam) (s : State) : Host.Outcome State Fault Refusal := .next (ploam s m unassign)

/-- The gate moves to STOPPED, held in AON (R115). -/
def stopGate (s : State) : State := setGate (setUpl s (fun u => { u with emstop := true })) .stopped

/-- Disable_Serial_Number (R113). -/
def disableOp (s : State) (o : SnOrder) (hi lo : Word) : State :=
  let leave : State :=
    if s.upl.gate = .stopped then setGate (setUpl s (fun u => { u with emstop := false })) .notAssigned else s
  match o with
  | .disable => if snMatch s hi lo then stopGate (setUpl s clearIds) else s
  | .enable => if snMatch s hi lo then leave else s
  | .enableAll => leave

def execDisableSerialNumber (m : Ploam) (o : SnOrder) (snHi snLo : Word) (s : State) : Host.Outcome State Fault Refusal :=
  .next (ploam s m (fun s => disableOp s o snHi snLo))

/-- EMSTOP_SET written 1 by firmware (R122). -/
def execEmstopSet (who : Requester) (s : State) : Host.Outcome State Fault Refusal :=
  .next (if isFw who && s.pwr.domUpl then stopGate s else s)

/-- LODS has lasted TO2 (R113, Table 05.3). -/
def execLodsTo2Expiry (s : State) : Host.Outcome State Fault Refusal :=
  .next (if s.upl.lods && decide (s.upl.gate ≠ .stopped) then unassign s else s)

/-! ### Leaving O5 (R32) -/

/-- Work of ring r whose last byte leaves in the open window. -/
def inBurst (s : State) (r : RingNo) (seq : Word) : Bool :=
  s.upl.window.toList.any (fun b => b.lastOf.any (fun x => x.ring == r && x.seq == seq))

/-- Uplink transmit work before its emission point is returned RET_NO_PATH, with the rest of its frames: that of bursts whose window has not opened too (R32). -/
def returnUplink (s : State) (r : RingNo) : State :=
  let l := (ringAt s r.val).work.filter (fun w => !inBurst s r w.seq)
  let s1 := l.foldl (fun t w => returnWork t r.val w.seq .retNoPath) s
  dropTcont s1 (fun f => match workOf f with | some (x, q) => x == r && l.any (fun w => w.seq == q) | none => false)

/-- ONU_STATE reported by firmware; UPL_STATE is raised at a change, and leaving O5 returns the work that cannot be sent (R32; log 34). -/
def onuStateOp (s : State) (v : BitVec 4) : State :=
  if s.upl.onuState = v then s
  else
    let s1 := raise (setUpl s (fun u => { u with onuState := v })) Src.uplState 0xFE 0
    if s.upl.onuState.toNat = 5 then returnUplink (returnUplink s1 3) 6 else s1

/-! ### Downstream XGEM (R111, R112, R256) -/

/-- Handles of UPL_KEY_BIND. -/
def bindIndex1 (u : Upl) : Half := BitVec.ofNat 16 (bits u.bind0 15 0)
def bindIndex2 (u : Upl) : Half := BitVec.ofNat 16 (bits u.bind0 31 16)
def bindBroadcast (u : Upl) : Half := BitVec.ofNat 16 (bits u.bind1 31 16)

/-- The handle a key index selects on a port; none: no key is named. Index 0b11 names no key, and its frame is discarded as one with an empty handle is (log 172). -/
def xgemHandle (u : Upl) (e : PortEntry) (k : BitVec 2) : Option Half :=
  if k = 3 then none
  else if e.type = 1 then some (bindBroadcast u)
  else if k = 1 then some (bindIndex1 u) else some (bindIndex2 u)

/-- The plaintext of an XGEM payload; none: the frame is discarded (R112). -/
def xgemOpen (s : State) (e : PortEntry) (k : BitVec 2) (pos : Nat) (b : List Byte) : Option (List Byte) :=
  if k = 0 then (if e.encReq then none else some b)
  else
    match xgemHandle s.upl e k with
    | none => none
    | some h =>
      if uplKeyUsable s 5 h then some (fit b.length (Config.aesCtr (slotAt s (handleSlot h)).key s.upl.superframe.toNat pos b)) else none

/-- An XGEM header after its HEC: payload length 14, key index 2, port 16, options 18 and last-fragment 1 bits, as G.9807.1 lays it out (log 164). -/
structure XgemHdr where
  len    : Nat
  keyIdx : BitVec 2
  port   : Half
  last   : Bool

def xgemHdrOf (v : Nat) : XgemHdr where
  len := v / 2 ^ 37
  keyIdx := BitVec.ofNat 2 (v / 2 ^ 35)
  port := BitVec.ofNat 16 (v / 2 ^ 19)
  last := v % 2 = 1

/-- A whole downstream frame of a port entry, its header received at t: to firmware, or to the cross-connect (R111). A frame shorter than 64 bytes or with a wrong FCS is discarded here (log 39). -/
def xgemFrame (s : State) (e : PortEntry) (x : List Byte) (t : Nat) : State :=
  if e.type = 2 then emitOut s (.toFirmware x)
  else if x.length < 64 ∨ !fcsGood x then countXgem s
  else deliverDown (captureUplink s (noFcs x) t) e.flow.toNat e.port.toNat (noFcs x) t

/-- A decrypted payload: fragments wait for the last of their frame, and one whose frame another port breaks off is discarded (log 173). -/
def xgemTake (s : State) (e : PortEntry) (x : List Byte) (last : Bool) (t : Nat) : State :=
  let (s1, at_, b) : State × Nat × List Byte := match s.upl.xgemPart with
    | some (p, t0, b0) => if p = e.port then (s, t0, b0 ++ x) else (countXgem s, t, x)
    | none => (s, t, x)
  if last then xgemFrame (setUpl s1 (fun u => { u with xgemPart := none })) e b at_
  else setUpl s1 (fun u => { u with xgemPart := some (e.port, at_, b) })

/-- A downstream XGEM frame: its 8-byte header, the word position of its payload, where its header's first bit lies in the frame in line bits, and the bytes after the header (R108, R111, R112, Table 10.4). -/
def xgemOp (s : State) (hdr : DWord) (pos hdrBit : Nat) (b : List Byte) : State :=
  if !inSync s then s
  else if s.upl.xgemSkip then countXgem s
  else
    match hecField 51 hdr.toNat with
    | none => countXgem (setUpl s (fun u => { u with xgemSkip := true }))
    | some v =>
      let h := xgemHdrOf v
      match s.upl.ports.toList.find? (fun e => e.valid && e.port == h.port) with
      | none => countXgem s
      | some e =>
        match xgemOpen s e h.keyIdx pos (b.take h.len) with
        | none => countXgem s
        | some x => xgemTake s e x h.last (s.upl.tds + (bitTime (hdrBit : Nat)).toNat)

def execXgemFrameReceived (hdrHi hdrLo : Word) (wordPos hdrBit : Nat) (payload : List Byte) (s : State) :
    Host.Outcome State Fault Refusal :=
  .next (xgemOp s (hdrHi ++ hdrLo) wordPos hdrBit payload)

/-! ### Optics (R105, R106, R125, R385) -/

/-- The module's presence changes: while absent, the laser is held off, the downstream counts as lost and no diagnostic is valid. -/
def modAbsOp (s : State) (level : Bool) : State :=
  let s1 := setUpl s (fun u => { u with modAbs := level })
  if !s.pwr.domUpl then s1
  else
    let s2 := if s.upl.modAbs = level then s1 else raise s1 Src.opticsChange 0xFE 0
    if level then
      let s3 := setUpl (stopWindow s2 (reachedBits s2) .retNoPath) (fun u => { u with diag := vmapIdx (fun _ d => (false, d.2)) u.diag })
      driveTx (declareLods s3)
    else driveTx s2

def execOptModAbsChange (level : Bool) (s : State) : Host.Outcome State Fault Refusal := .next (modAbsOp s level)

/-- A diagnostic after a read: a failed one clears VALID. -/
def diagOf (abs : Bool) (v : Option Half) (d : Bool × Half) : Bool × Half :=
  match v with
  | some x => if abs then (false, d.2) else (true, x)
  | none => (false, d.2)

/-- A write of firmware into the user area of page A2h, bytes 128 to 247 of SFF-8472, goes out; any other does not (R105, log 174). -/
def userWrite (s : State) (w : Option (Byte × List Byte)) : State :=
  match w with
  | some (a, b) => if cpServes s && !s.upl.modAbs && decide (128 ≤ a.toNat) && decide (a.toNat + b.length ≤ 248) then emitOut s (.i2cWrite a b) else s
  | none => s

/-- Page A0h where it is read, the five diagnostic values of page A2h read once a second, and a write of firmware into A2h's user area (R105). -/
def opticsPollOp (s : State) (vals : Vector (Option Half) 5) (a0h : Option (List Byte)) (user : Option (Byte × List Byte)) : State :=
  if s.pwr.domUpl then
    userWrite (setUpl s (fun u => { u with
      diag := vmapIdx (fun i d => diagOf u.modAbs (vget vals i none) d) u.diag
      a0h := if u.modAbs then u.a0h else a0h.getD u.a0h })) user
  else s

def execOpticsDiagPoll (p : OpticsPoll) (s : State) : Host.Outcome State Fault Refusal :=
  .next (opticsPollOp s p.vals p.a0h p.user)

/-- A read ended after 25 ms of clock stretching has failed (R402). -/
def execI2cStretchTimeout (i : Fin 5) (s : State) : Host.Outcome State Fault Refusal :=
  .next (setUpl s (fun u => { u with diag := vmapIdx (fun j d => if j = i.val then (false, d.2) else d) u.diag }))

/-- Light outside every window (R125). -/
def execRogueLight (s : State) : Host.Outcome State Fault Refusal :=
  .next (if s.pwr.domUpl && s.upl.rogueEn && s.upl.window.isNone && !s.upl.rogue then
    raise (driveTx (setUpl s (fun u => { u with rogue := true, txSd := true }))) Src.rogueLight 0xFE 0
  else s)

/-- ROGUE written 1 by the PF: cleared with OPT_TX_SD low. -/
def rogueClearOp (s : State) (sd : Bool) : State :=
  let s1 := setUpl s (fun u => { u with txSd := sd })
  if sd then s1 else driveTx (setUpl s1 (fun u => { u with rogue := false }))

/-- The clear, with the level of OPT_TX_SD at it. -/
def execRogueClear (w : RogueWrite) (s : State) : Host.Outcome State Fault Refusal :=
  .next (match w.who with
    | .pf => if s.pwr.domUpl then rogueClearOp s w.sd else s
    | .fw _ => fwDenied s 0x60020
    | .vf _ => s)

/-! ### Content fix (R119, R213 to R215) -/

/-- XC_TCQ_q maps queue q to a slot. -/
def tcMapped (s : State) (slot q : Nat) : Bool :=
  let w := vget s.xc.tcq q 0
  bitOf w 31 && decide (bits w 20 16 = slot)

/-- The queues mapped to a slot. -/
def slotQueues (s : State) (slot : Nat) : List Nat := (List.range 64).filter (tcMapped s slot)

/-- Bytes a T-CONT frame has: those stored, or those its second read will bring (R182). -/
def frameLen (s : State) (f : Frame) : Nat :=
  if f.bytes = [] then (match workOf f with
    | some (r, q) => (match findWork (ringAt s r.val) q with | some w => txLen w.d | none => 0)
    | none => 0)
  else f.bytes.length

/-- Words of an XGEM frame of n payload bytes (R214, R215). -/
def xgemWords (n : Nat) : Nat := 2 + (n + 3) / 4

/-- Occupancy of a T-CONT queue: the unsent remainder of every frame not sent whole (R215). -/
def queueWords (s : State) (l : List Frame) : Nat :=
  total ((l.filter (fun f => decide (f.bytes = []) || decide (f.placed < f.bytes.length))).map (fun f => xgemWords (frameLen s f - f.placed)))

/-- BufOcc of a slot. -/
def bufOcc (s : State) (slot : Nat) : Nat :=
  min 0xFFFFFE (total ((slotQueues s slot).map (fun q => queueWords s (vget s.upl.tcont q []))))

/-- What the fill of one burst has taken so far. -/
structure Fill where
  tcont   : Vector (List Frame) 64
  deficit : Vector Nat 64
  cursor  : Vector Nat 8
  segs    : List BurstSeg
  lastOf  : List BurstWork
  /-- journal entries that may still be taken -/
  room    : Nat

/-- Where an allocation's payload lies in its burst. -/
structure Place where
  /-- bytes of the burst, from its header, before the payload -/
  base : Nat
  k    : Nat
  fec  : Bool
  tHdr : Int
  valid : Bool
  /-- line bits from the window's start to the header -/
  lead : Nat

/-- Burst bytes with the FEC parity before them: 16 bytes after every 232 (log 41). -/
def withParity (fec : Bool) (n : Nat) : Nat := if fec then n + 16 * (n / 232) else n

/-- The first frame of a queue that bursts have not taken whole. -/
def planHead (l : List Frame) : Option Frame := l.find? (fun f => decide (f.bytes = []) || decide (f.planned < f.bytes.length))

/-- Bytes of a frame that no burst has taken. -/
def unplanned (f : Frame) : Nat := f.bytes.length - f.planned

/-- The head frame of a queue may be sent in a number of words: its bytes are stored, and its outcome finds a journal entry if it ends here. -/
def headFits (f : Fill) (q words : Nat) : Bool :=
  match planHead (vget f.tcont q []) with
  | none => false
  | some h => decide (h.bytes ≠ []) && (!(isWork h && decide (xgemWords (unplanned h) ≤ words)) || decide (0 < f.room))

/-- The head frame of queue q, or its next fragment, takes words of the payload from a word on. -/
def sendHead (p : Place) (f : Fill) (q at_ words : Nat) : Fill :=
  match planHead (vget f.tcont q []) with
  | none => f
  | some h =>
    let n := min (unplanned h) (4 * (words - 2))
    let last := decide (n = unplanned h)
    let pos := p.base + 4 * at_
    let ts : Option (Nat × Bool) := if h.planned = 0 then some ((p.tHdr + bitTime ((8 * p.k * withParity p.fec pos : Nat) : Int)).toNat, p.valid) else h.ts
    let endBit := p.lead + 8 * p.k * withParity p.fec (pos + 8 + n)
    { f with
      tcont := vset f.tcont q (mapIf (fun x => x.id == h.id && decide (x.src = h.src)) (fun x => { x with planned := x.planned + n, ts := ts }) (vget f.tcont q []))
      segs := f.segs ++ [{ queue := q, id := h.id, src := h.src, from_ := h.planned, len := n, last := last, pos := pos }]
      lastOf := match workOf h with
        | some (r, s) => if last then f.lastOf ++ [{ ring := r, seq := s, endBit := endBit, ts := ts }] else f.lastOf
        | none => f.lastOf
      room := if last && isWork h then f.room - 1 else f.room }

/-- Words the head frame of a queue takes of those left. -/
def wordsTaken (f : Fill) (q words : Nat) : Nat :=
  match planHead (vget f.tcont q []) with
  | none => words
  | some h => min words (xgemWords (unplanned h))

/-- LEVEL and quantum of a T-CONT queue. -/
def tcLevel (s : State) (q : Nat) : Nat := bits (vget s.xc.tcq q 0) 10 8
def tcQuantum (s : State) (q : Nat) : Nat := quantum (bits (vget s.xc.tcq q 0) 7 0)

/-- XGEM length of a queue's head frame (R214). -/
def tcHeadLen (f : Fill) (q : Nat) : Nat := match planHead (vget f.tcont q []) with | none => 0 | some h => unplanned h + 8

/-- A queue has a frame behind its head. -/
def tcMore (f : Fill) (q : Nat) : Bool :=
  decide (1 < ((vget f.tcont q []).filter (fun x => decide (x.bytes = []) || decide (x.planned < x.bytes.length))).length)

/-- The queue R204 serves among mapped ones, with the deficits and cursor after it. -/
def tcPick (s : State) (f : Fill) (els : List Nat) : Option (Nat × Fill) :=
  let lv := topLevel (tcLevel s) els
  let best := els.filter (fun q => decide (tcLevel s q = lv))
  let need (q : Nat) : Nat := needRounds (vget f.deficit q 0) (tcHeadLen f q) (tcQuantum s q)
  match dwrr (vget f.cursor lv 0) best need with
  | none => none
  | some (q, rounds) =>
    let d1 := vmapIdx (fun i d => if best.contains i then d + rounds * tcQuantum s i else d) f.deficit
    let after := if tcMore f q then vget d1 q 0 - tcHeadLen f q else 0
    some (q, { f with deficit := vset d1 q after, cursor := vset f.cursor lv q })

/-- The payload words of one allocation are given out: the fragment begun first, then whole frames and a final fragment; what is left becomes idle XGEM (R214). -/
def fillWords : Nat → State → Place → List Nat → Fill → Nat → Nat → Fill
  | 0, _, _, _, f, _, _ => f
  | n + 1, s, p, qs, f, at_, words =>
    if words < 3 then f
    else
      match qs.find? (fun q => match planHead (vget f.tcont q []) with | some h => decide (h.planned ≠ 0) | none => false) with
      | some q =>
        if headFits f q words then
          let m := wordsTaken f q words
          fillWords n s p qs (sendHead p f q at_ words) (at_ + m) (words - m)
        else f
      | none =>
        match tcPick s f (qs.filter (fun q => headFits f q words)) with
        | none => f
        | some (q, f1) =>
          let m := wordsTaken f1 q words
          fillWords n s p qs (sendHead p f1 q at_ words) (at_ + m) (words - m)

/-! ### The emission gate (R116, R121) -/

/-- Table 05.3: the gate state permits the allocation. -/
def allocPermitted (u : Upl) (a : Alloc) : Bool :=
  match u.gate with
  | .notAssigned => a.sn
  | .assigned => !a.sn && decide (vget u.allocs 0 none = some a.allocId)
  | .ranged => !a.sn && (slotOf u a.allocId).isSome
  | .stopped => false

/-- The allocation's slot is masked (R122). -/
def allocMasked (u : Upl) (a : Alloc) : Bool :=
  match slotOf u a.allocId with
  | some i => !a.sn && u.allocMask.getLsbD i
  | none => false

/-- The conditions of R121 that hold of the moment rather than of the burst; in cyclic and watchful sleep the transmitter is off (Table 05.6). -/
def gateLive (s : State) : Bool :=
  inSync s && !s.upl.missing && decide (s.upl.gate ≠ .stopped) && !s.upl.rogue && !s.upl.modAbs && s.upl.txAllow
    && (decide (s.upl.ponMode = .awake) || decide (s.upl.ponMode = .doze))

/-- The key index and key the burst's payload is sent under: none in clear; `usable`: false keeps the frames queued (R256). -/
def burstKey (s : State) : Bool × Option (BitVec 2 × List Byte) :=
  match s.upl.bind2.toNat with
  | 0 => (true, none)
  | 3 => (false, none)
  | i =>
    let h := if i = 1 then bindIndex1 s.upl else bindIndex2 s.upl
    (uplKeyUsable s 5 h, some (s.upl.bind2, (slotAt s (handleSlot h)).key))

/-- Payload words of an allocation: GrantSize without its DBRu word. -/
def payloadWords (a : Alloc) : Nat := a.grant.toNat - (if a.dbru then 1 else 0)

/-- The allocations of a burst filled one after another; `at_` is the burst byte at which each begins. -/
def fillAllocs (s : State) (p : Place) : List Alloc → Nat → Fill → Fill
  | [], _, f => f
  | a :: t, at_, f =>
    let qs := match slotOf s.upl a.allocId with | some i => if a.sn then [] else slotQueues s i | none => []
    let body := at_ + (if a.dbru then 4 else 0)
    fillAllocs s p t (at_ + 4 * a.grant.toNat) (fillWords (payloadWords a) s { p with base := body } qs f 0 (payloadWords a))

/-- The PLOAM message of a burst whose first allocation has PLOAMu: the Dying_Gasp goes ahead in three opportunities (R127). -/
def pickPloam (u : Upl) (first : Alloc) : Upl × Option (Bool × List Byte) :=
  if !first.ploamu then (u, none)
  else if u.dgActive && decide (0 < u.dgLeft) then ({ u with dgLeft := u.dgLeft - 1 }, some (true, Config.dyingGasp))
  else
    match u.ploamUp with
    | [] => (u, none)
    | m :: t => ({ u with ploamUp := t }, some (false, m))

/-- Ind: bit 8 PLOAM queue non-empty, bit 0 dying gasp (Table 05.4). -/
def indBits (u : Upl) : Nat :=
  flagAt (decide (u.ploamUp ≠ []) || (u.dgActive && decide (0 < u.dgLeft))) 8 + flagAt u.dgActive 0

/-- The end of the windows already fixed. -/
def lastEnd (u : Upl) : Option Int := match u.bursts.getLast? with | some b => some b.winTo | none => u.prevEnd

/-- t_hdr in line bits after t_ds (R116), with the random delay of a serial-number grant in words. -/
def hdrBits (u : Upl) (base : Int) (first : Alloc) (rand : Nat) : Int :=
  base + ((32 * rateK u * (first.start.toNat + rand) : Nat) : Int)

/-- The gate refuses a window of these allocations, bits and start (R121). -/
def windowRefused (s : State) (l : List Alloc) (winBits : Nat) (winFrom : Int) : Bool :=
  !gateLive s || !l.all (allocPermitted s.upl) || decide (32 * s.upl.maxBurst.toNat < winBits)
    || (match lastEnd s.upl with | some e => decide (winFrom < e) | none => false)

/-- A burst as its allocations fix it, at base line bits from t_ds to t_hdr at StartTime 0 (R116, R119, R121); none: the window is refused whole. The allocations lie one behind another from the first one's StartTime, whose profile the burst has (log 175). -/
def fixBurst (s : State) (tds : Nat) (base : Int) (l : List Alloc) (rand : Nat) : Option (Upl × Burst) :=
  match l with
  | [] => none
  | first :: _ =>
    let u := s.upl
    match vget u.profiles first.profile.val none with
    | none => none
    | some prof =>
      let k := rateK u
      let head := 4 + (if first.ploamu then 48 else 0)
      let body := head + total (l.map (fun a => 4 * a.grant.toNat)) + 4
      let psbu := prof.preamble ++ prof.delimiter
      let sent := if prof.fec then body + 16 * ((body + 231) / 232) else body
      let lead := 8 * k * psbu.length + 4 * u.burstLead.toNat
      let winBits := lead + 8 * k * sent + 4 * u.burstTrail.toNat
      let hb := hdrBits u base first rand
      let tHdr := (tds : Int) + bitTime hb
      let winFrom := (tds : Int) + bitTime (hb - (lead : Int))
      let winTo := (tds : Int) + bitTime (hb - (lead : Int) + (winBits : Int))
      if windowRefused s l winBits winFrom then none
      else
        let (usable, key) := burstKey s
        let p : Place := { base := 0, k := k, fec := prof.fec, tHdr := tHdr, valid := s.time.valid, lead := lead }
        let f0 : Fill := { tcont := u.tcont, deficit := u.tcDeficit, cursor := u.tcCursor, segs := [], lastOf := [], room := if frozen s then 0 else 256 - s.journal.length - reservedEntries s }
        let f := if usable then fillAllocs s p l head f0 else f0
        let (u1, ploam) := pickPloam u first
        some ({ u1 with tcont := f.tcont, tcDeficit := f.deficit, tcCursor := f.cursor },
          { tds := tds, base := base, rand := rand, tHdr := tHdr, winFrom := winFrom, winTo := winTo, valid := s.time.valid, k := k, lead := lead
            fec := prof.fec, psbu := psbu, allocs := l, ind := indBits u, ploam := ploam
            bufOcc := l.map (fun a => match slotOf u a.allocId with | some i => if a.sn then 0 else bufOcc s i | none => 0)
            key := key, superframe := u.superframe.toNat, segs := f.segs, lastOf := f.lastOf
            deficit := u.tcDeficit, cursor := u.tcCursor, opened := 0, bytes := [] })

/-- An allocation structure after its HEC: Alloc-ID 14, DBRu, PLOAMu, StartTime 16, GrantSize 16, FWI and profile 2 bits. Alloc-ID 1,023 is the serial-number grant (R109, log 164). -/
def allocOfField (v : Nat) : Alloc where
  allocId := BitVec.ofNat 14 (v / 2 ^ 37)
  sn := BitVec.ofNat 14 (v / 2 ^ 37) == 1023
  dbru := v.testBit 36
  ploamu := v.testBit 35
  start := BitVec.ofNat 16 (v / 2 ^ 19)
  grant := BitVec.ofNat 16 (v / 2 ^ 3)
  fwi := v.testBit 2
  profile := Fin.ofNat 4 v

/-- The structures of a burst that can be read. -/
def parseAllocs (l : List DWord) : List Alloc := (l.filterMap (fun w => hecField 51 w.toNat)).map allocOfField

/-- Structures whose HEC cannot be corrected. -/
def allocsLost (l : List DWord) : Nat := l.countP (fun w => (hecField 51 w.toNat).isNone)

/-- The allocation is this unit's: its Alloc-ID is learned, or it is a serial-number grant before an ONU-ID is assigned (R109, Table 05.3). -/
def allocOurs (u : Upl) (a : Alloc) : Bool := if a.sn then decide (u.gate = .notAssigned) else (slotOf u a.allocId).isSome

/-- What firmware has queued for upstream since the last content fix joins the PLOAM queue (R114). -/
def queuePloams (s : State) (l : List (List Byte)) : State :=
  if cpServes s && s.pwr.domUpl then setUpl s (fun u => { u with ploamUp := u.ploamUp ++ l }) else s

/-- A burst's content is fixed from its allocations; `tds` is t_ds of the frame that carried the BWmap, on the datum. Masked allocations are removed, and a window that fails another condition is refused whole and counted (R119, R121). The random delay of a serial-number grant is a free value. -/
def fixOp (s : State) (tds : Nat) (allocs : List Alloc) : State :=
  match allocs.filter (fun a => !allocMasked s.upl a) with
  | [] => s
  | first :: t =>
    let rand := if first.sn then Config.draw s.free 16 else 0
    match fixBurst s tds (frameBits s.upl (burstEqd s.upl tds)) (first :: t) rand with
    | none => countRefused (drew s)
    | some (u, b) => setUpl (drew s) (fun _ => { u with bursts := u.bursts ++ [b] })

/-- The allocation structures of one burst as the BWmap carries them (R109, R119), and what firmware has queued by then. -/
def contentFixOp (s : State) (tds : Nat) (allocs : List DWord) (ploams : List (List Byte)) : State :=
  if !s.pwr.domUpl then s
  else
    let s1 := iter countXgem (allocsLost allocs) (takeEqd (queuePloams s ploams))
    fixOp s1 tds ((parseAllocs allocs).filter (allocOurs s1.upl))

def execBurstContentFix (tds : Nat) (b : BurstInput) (s : State) : Host.Outcome State Fault Refusal :=
  .next (contentFixOp s tds b.allocs b.ploams)

/-! ### The burst's bytes (Table 05.4, R114, R214) -/

/-- An XGEM frame: header and payload filled to whole words. -/
def xgemBytes (len keyIdx port : Nat) (last : Bool) (b : List Byte) : List Byte :=
  bytesBE 8 (withHec 51 (len % 2 ^ 14 * 2 ^ 37 + keyIdx % 4 * 2 ^ 35 + port % 2 ^ 16 * 2 ^ 19 + (if last then 1 else 0)))
    ++ fit (4 * ((b.length + 3) / 4)) b

/-- Words of idle XGEM: frames of port 0xFFFF, and one word of zeros where no header fits (R214, log 164). The first argument bounds their number. -/
def idleXgem : Nat → Nat → List Byte
  | 0, _ => []
  | n + 1, w =>
    if w = 0 then [] else if w = 1 then zeros 4
    else
      let m := min (w - 2) 4095
      xgemBytes (4 * m) 0 0xFFFF true (zeros (4 * m)) ++ idleXgem n (w - 2 - m)

/-- The first frame of a queue that is not sent whole. -/
def sendHeadOf (l : List Frame) : Option Frame := l.find? (fun f => decide (f.bytes = []) || decide (f.placed < f.bytes.length))

/-- A fragment as its window opens: its XGEM frame's bytes, while its frame still stands at the head of its queue at the byte it was fixed from; else its words are idle. The frame's sent bytes rise. -/
def openSeg (b : Burst) (x : State × List (Nat × List Byte) × List BurstSeg) (g : BurstSeg) : State × List (Nat × List Byte) × List BurstSeg :=
  match sendHeadOf (vget x.1.upl.tcont g.queue []) with
  | none => x
  | some f =>
    if ofFrame g f && decide (f.bytes ≠ []) && decide (f.placed = g.from_) then
      let piece := (f.bytes.drop f.placed).take g.len
      let last := decide (f.bytes.length ≤ f.placed + g.len)
      let sealed_ := match b.key with
        | some (_, k) => fit piece.length (Config.aesCtr k b.superframe (g.pos / 4 + 2) piece)
        | none => piece
      let idx := match b.key with | some (i, _) => i.toNat | none => 0
      (mapTcont x.1 (fun y => if ofFrame g y then { y with placed := y.placed + piece.length } else y),
        x.2.1 ++ [(g.pos, xgemBytes piece.length idx f.port.toNat last sealed_)], x.2.2 ++ [g])
    else x

/-- XGEM frames laid into the payload bytes from one position to another, with idle XGEM between and after them. -/
def layPayload : Nat → Nat → List (Nat × List Byte) → List Byte
  | at_, stop, [] => idleXgem (stop - at_) ((stop - at_) / 4)
  | at_, stop, (p, b) :: t =>
    if p < at_ ∨ stop ≤ p then layPayload at_ stop t
    else idleXgem (p - at_) ((p - at_) / 4) ++ b ++ layPayload (p + b.length) stop t

/-- The DBRu and payload of the allocations of a burst from a position on. -/
def layAllocs (pieces : List (Nat × List Byte)) : Nat → List (Alloc × Nat) → List Byte
  | _, [] => []
  | at_, (a, occ) :: t =>
    let dbru := bytesBE 3 occ
    let body := at_ + (if a.dbru then 4 else 0)
    (if a.dbru then dbru ++ bytesBE 1 (crc8 dbru) else []) ++ layPayload body (at_ + 4 * a.grant.toNat) pieces
      ++ layAllocs pieces (at_ + 4 * a.grant.toNat) t

/-- A PLOAM message as it leaves: the learned ONU-ID, its content, and its integrity check (R114, R256, R258). -/
def signedPloam (s : State) (content : List Byte) : List Byte :=
  let m := bytesBE 2 s.upl.onuId.toNat ++ fit 38 content
  m ++ ploamMic s 2 m

/-- The PLOAMu part of a burst. -/
def ploamPart (s : State) (b : Burst) : List Byte :=
  match b.ploam with
  | some (_, m) => signedPloam s m
  | none => if b.allocs.head?.any (fun a => a.ploamu) then fit 48 Config.noPloam else []

/-- The bytes of a burst from its header on, with parity where its profile has it. -/
def burstBytes (s : State) (b : Burst) (pieces : List (Nat × List Byte)) : List Byte :=
  let head := bytesBE 4 (withHec 19 (s.upl.onuId.toNat * 512 + b.ind)) ++ ploamPart s b
  let body := head ++ layAllocs pieces head.length (b.allocs.zip b.bufOcc)
  let all := body ++ bytesBE 4 (bip32 body.length body)
  if b.fec then rsEncodeAll all.length 232 16 all else all

/-! ### The window (R121, R124) -/

/-- The PLOAM message of a burst leaves (R114). -/
def sendPloam (s : State) (b : Burst) : State :=
  match b.ploam with
  | none => s
  | some (dg, m) =>
    let s1 := emitOut s (.ploamUp (signedPloam s m))
    if dg then setUpl s1 (fun u => { u with dgPloams := u.dgPloams + 1 }) else s1

/-- The window of a burst opens and its bytes are gathered. -/
def openBurst (s : State) (b : Burst) : State :=
  let (s1, pieces, segs) := b.segs.foldl (openSeg b) (s, [], [])
  let sent (w : BurstWork) : Bool := segs.any (fun g => g.last && decide (g.src = .work w.ring w.seq))
  sendPloam (setUpl s1 (fun u => { u with
    window := some { b with opened := s.datum, bytes := burstBytes s b pieces, segs := segs, lastOf := b.lastOf.filter sent }
    prevEnd := some b.winTo
    burstEn := true
    txSd := true
    dgHeaders := if b.ind % 2 = 1 then u.dgHeaders + 1 else u.dgHeaders })) b

/-- A burst some of whose allocations have been masked since its content was fixed: they are removed, and the rest is fixed anew, to open where its own window then starts (R121, R122). -/
def maskBurst (s : State) (b : Burst) : State :=
  let s1 := restoreBurst s b
  let l := b.allocs.filter (fun a => !allocMasked s.upl a)
  if l = [] then s1
  else
    match fixBurst (setUpl s1 (fun u => { u with bursts := [] })) b.tds b.base l b.rand with
    | none => countRefused s1
    | some (u, x) => setUpl s1 (fun _ => { u with bursts := x :: s1.upl.bursts })

/-- The window of the next burst opens, unless the gate no longer allows it: the conditions of R121 are those of the moment. -/
def windowOpenOp (s : State) : State :=
  match s.upl.bursts with
  | [] => s
  | b :: t =>
    if s.upl.window.isSome then s
    else if !gateLive s then refuseAll s
    else
      let s1 := setUpl s (fun u => { u with bursts := t })
      if !b.allocs.all (fun a => allocMasked s.upl a || allocPermitted s.upl a) then countRefused (restoreBurst s1 b)
      else if b.allocs.any (allocMasked s.upl) then maskBurst s1 b
      else openBurst s1 b

def execBurstWindowOpen (s : State) : Host.Outcome State Fault Refusal := .next (windowOpenOp s)

/-- A frame from a channel that began in a burst has its transmit point there (R334). -/
def burstPtp (s : State) (g : BurstSeg) : State :=
  match g.src with
  | .line c =>
    if g.from_ = 0 then
      match (vget s.upl.tcont g.queue []).find? (ofFrame g) with
      | some f => ptpOut s c.val f.id f.bytes f.ts
      | none => s
    else s
  | _ => s

/-- Frames sent whole leave their queues and their cells (R200). -/
def leaveQueues (s : State) (l : List BurstSeg) : State :=
  dropTcont s (fun f => decide (f.bytes ≠ []) && decide (f.bytes.length ≤ f.placed) && l.any (fun g => ofFrame g f))

/-- The window ends with its burst whole: its work is executed (R121, Table 03.1). -/
def windowCloseOp_ (s : State) : State :=
  match s.upl.window with
  | none => s
  | some b =>
    let s1 := setUpl (leaveQueues (b.segs.foldl burstPtp s) b.segs) (fun u => { u with window := none, burstEn := false, txSd := false })
    pauseAll (b.lastOf.foldl (emitBurstWork false) (emitOut s1 (.burst (b.psbu ++ b.bytes))))

def execBurstWindowClose (s : State) : Host.Outcome State Fault Refusal := .next (windowCloseOp_ s)

/-- The backstop drops OPT_TX_BURST_EN MAX_BURST after its rise and counts the burst (R124). -/
def backstopOp (s : State) : State :=
  if s.upl.window.isNone then s
  else
    raiseC (setUpl (stopWindow s (32 * s.upl.maxBurst.toNat) .retNoPath) (fun u => { u with backstops := u.backstops + 1 }))
      Src.backstop 0xFE 1

def execBackstopExpiry (s : State) : Host.Outcome State Fault Refusal := .next (backstopOp s)

/-! ### PON power saving (R129, Table 05.6) -/

/-- The receiver is switched off: SYNC is lost without LODS, and the root PLL freezes (R225). -/
def rxOff (s : State) : State := followSrc (setUpl s (fun u => { u with rxOn := false, sync := .hunt, misses := 0, missing := true }))

/-- The receiver is switched on again. -/
def rxOnAgain (s : State) : State := setUpl s (fun u => { u with rxOn := true })

/-- The mode a free value names. -/
def modeOf (n : Nat) : PonMode :=
  match n % 4 with
  | 0 => .awake | 1 => .doze | 2 => .cyclicSleep | _ => .watchful

/-- The uplink enters a mode. -/
def enterMode (s : State) (m : PonMode) : State :=
  let s1 := setUpl s (fun u => { u with ponMode := m })
  match m with
  | .awake | .doze => rxOnAgain s1
  | .cyclicSleep | .watchful => rxOff s1

/-- A timer's expiry. Firmware loads the timers and agrees the mode with the head end by messages the manual does not lay out: the mode entered when Ihold ends is a free value (log 42). -/
def ponTimerOp (s : State) (t : PonTimer) : State :=
  if !s.pwr.domUpl then s
  else
    match t, s.upl.ponMode with
    | .ihold, .awake =>
      if s.upl.tcont.toList.any (fun l => decide (l ≠ [])) then s
      else enterMode (drew s) (modeOf (Config.freeWord s.free).toNat)
    | .irxoff, .cyclicSleep => rxOnAgain s
    | .ilowpower, .cyclicSleep => rxOnAgain s
    | .ilowpower, .watchful => rxOnAgain s
    | .iaware, .cyclicSleep => rxOff s
    | .iaware, .watchful => rxOff s
    | _, _ => s

def execPonPowerSaveTimerExpiry (t : PonTimer) (s : State) : Host.Outcome State Fault Refusal := .next (ponTimerOp s t)

/-! ### Dying gasp (R127, R128) -/

/-- The seal notice reaches the uplink; on the battery path only DG_ON_BAT lets it raise the indication. -/
def dyingGasp (s : State) (onBattery : Bool) : State :=
  if !s.pwr.domUpl ∨ (onBattery ∧ !s.upl.dgOnBat) then ponWake s
  else setUpl (ponWake s) (fun u => { u with dgActive := true, dgLeft := 3, dgHeaders := 0, dgPloams := 0, dgStart := s.datum, dgValid := s.time.valid })

/-- The indication ends, as the supply returns (R128) or UPL is switched off, and is logged (R289); the entry's INPUT is not stated: a free value (log 22). -/
def dyingGaspEnd (s : State) : State :=
  let u := s.upl
  if u.dgActive then
    setUpl (supplyLog (drew s) 5 ((Config.freeWord s.free).toNat % 256) u.dgPloams (word u.dgHeaders) u.dgStart u.dgValid)
      (fun u => { u with dgActive := false, dgLeft := 0 })
  else s

/-! ### Resets and power (R115) -/

/-- The uplink as a DEVICE reset, or a start after its domain was off, leaves it: O1, with STOPPED kept. -/
def uplRestart (u : Upl) : Upl :=
  { Upl.reset with
    gate := if u.gate = .stopped then .stopped else .notAssigned
    emstop := u.emstop
    modAbs := u.modAbs
    rxLos := u.rxLos
    refused := u.refused
    backstops := u.backstops
    micFails := u.micFails
    xgemDisc := u.xgemDisc
    fecUncorr := u.fecUncorr
    allocOver := u.allocOver }

/-- Work of the uplink's queues whose last byte had left in the open window is executed, TRUNCATED; every other frame is gone (R69, R120). Its return is the recovery's. -/
def cutUplink (s : State) : State :=
  match s.upl.window with
  | none => s
  | some b =>
    (b.lastOf.filter (fun x => decide (x.endBit ≤ reachedBits s))).foldl (emitBurstWork true)
      (emitOut (setUpl s (fun u => { u with window := none, burstEn := false })) (.burst (sentBytes b (reachedBits s))))

/-- The levels of OPT_TX_DISABLE and SOURCE after the uplink's state was set anew. -/
def uplSettled (s : State) : State := followSrc (driveTx s)

end Sys2Proof.Machine
end

