-- ==== Sys2Proof/Machine/Resets.lean ====
section
/-! DEFINITION. POWER-ON, DEVICE, FUNCTION and CHANNEL resets, and the PCI Express link (00_scope.md, Table 00.6; R62, R99, R294, R314, R379, R382). -/

namespace Sys2Proof.Machine

open Sys2Proof

/-! ### POWER-ON (R17, R84, R322) -/

/-- Every register at its reset value; the flash, the fuses and the levels of the pins are outside the terminal's supplies and stay. -/
def powerOnOp (s : State) : State :=
  let r := State.resetOf s.part
  { r with
    pending := s.pending
    sent := s.sent
    free := s.free
    glb := { r.glb with unitId := s.glb.unitId }
    fw := { r.fw with
      slotA := s.fw.slotA, slotB := s.fw.slotB, floor := s.fw.floor, rec_ := s.fw.rec_, recCopy := s.fw.recCopy, recKnown := s.fw.recKnown, gens := s.fw.gens }
    upl := { r.upl with modAbs := s.upl.modAbs, rxLos := s.upl.rxLos, txSd := s.upl.txSd }
    hif := { r.hif with perst := s.hif.perst }
    pwr := { r.pwr with testEn := s.pwr.testEn, domHif := !s.pwr.testEn } }

def execPowerOn (s : State) : Host.Outcome State Fault Refusal := .next (powerOnOp s)

/-- A brown-out resets AON as a POWER-ON (R322). -/
def execAonBrownOut (s : State) : Host.Outcome State Fault Refusal := .next (powerOnOp s)

/-! ### The link -/

/-- What the loss of the link ends: fetches in flight accept nothing, issued records are to be written again (R68), ledger transfers fail and are retried (R76). -/
def loseLink (s : State) : State :=
  let s1 := unissue s allRings
  let s2 := mapRings s1 (fun _ g => { g with fetch := none, refetch := none })
  let l := s2.ledger
  { s2 with
    hif := { s2.hif with linkUp := false, width := 0, speed := 0 }
    ledger := { l with inFlight := [], failed := l.failed ++ l.inFlight.filter (fun x => !l.failed.contains x) }
    sup := { s2.sup with hostLost := s2.sup.hostLost || (s2.sup.sealing && decide (l.inFlight ≠ [])) } }

/-- The configuration space of every function as PCI Express resets it; VF Enable clears and ownership returns to the PF (R38). -/
def resetConfig (s : State) : State :=
  let s1 := setVfs s false 0
  modHif s1 (fun h => { h with funcs := resetFuncs, mps256 := false, mrrs := 2, l2 := false })

/-! ### DEVICE reset (Table 00.6, R17, R115, R212, R243, R307) -/

/-- HIF registers headed DEVICE. -/
def hifDevice (h : Hif) : Hif :=
  { h with
    lock := false, faultValid := false, faultKind := 0, faultRing := 0, faultFn := 0, faultAddr := 0
    windows := Vector.replicate 25 (Vector.replicate 8 Window.reset)
    winLo := [], fetchStop := false, latchPcie := [] }

/-- A channel: OFF, every register of its block cleared but the feed's, its bins and queues empty; the bin the reset falls in is SUSPECT (R176). -/
def chanDevice (present : Bool) (ses : Half) (k : Chan) : Chan :=
  { Chan.reset present with
    pm := { Pm.reset ses with cur := { PmSec.zero with suspect := true } }
    feed := feedFollow { k.feed with holdOff := false } }

/-- The cross-connect: the flow table all zeros; retired banks stay. -/
def xcDevice (x : Xc) : Xc := { Xc.reset with retired := x.retired, nextId := x.nextId }

/-- The supply watch's registers headed DEVICE. -/
def supDevice (u : Sup) : Sup :=
  let r := Sup.reset
  { u with
    feedOnBat := r.feedOnBat, batAction := r.batAction, lock := r.lock, auxHigh := r.auxHigh, auxRestore := r.auxRestore
    auxLow := r.auxLow, maxIlim := r.maxIlim, maxPlim := r.maxPlim, inrushMax := r.inrushMax, budget := r.budget
    sealing := false, sealPhase := 0, journalSealed := false, hostLost := false, batSeal := false, heldReset := none }

/-- The factory identity is restored where REVERT asked for it: its fields, the registration ID among them, become the active ones (R355). -/
def revertIdentity (s : State) : State :=
  if !s.fw.revert then s
  else if !s.fw.recKnown then modFw s (fun w => { w with revert := false })
  else
    let t := deriveCapsule (modFw s (fun w => { w with revert := false }))
    let reg := openReg t t.fw.rec_.seq 112 t.fw.rec_.factoryReg
    writeRecord t (fun r => { r with
      activeSn := r.factorySn, activeMac := r.factoryMac, transferred := false, origin := s.glb.unitId
      activeReg := match reg with | some x => sealReg t r.seq 64 x | none => r.factoryReg })

/-- The firmware block: registers headed DEVICE. -/
def fwDevice (w : Fw) : Fw :=
  { w with
    restricted := false, unreadable := false, setGen := 0, setInfo := 0, rollbackFrom := 0, wdgResets := 0
    lastWdg := Vector.replicate 2 none, ptp := [] }

/-- Identity registers cleared, IN_FORCE taken from NEXT, and the cause recorded (R378, R380, R383). -/
def glbDevice (g : Glb) (code : Nat) : Glb :=
  { g with
    loaded := false, transferred := false, copy := 0, recBad := false, sn := 0, mac := 0, origin := 0
    inForce := g.next, last := BitVec.ofNat 4 code, count := g.count + 1, inReset := true }

/-- Event registers headed DEVICE and CHANNEL; the store and the log stay. -/
def evtDevice (e : Evt) : Evt :=
  let r := Evt.reset
  { e with record := r.record, vec := r.vec, chStat := r.chStat, pf := r.pf, ch := r.ch, vecCnt := r.vecCnt, chCnt := r.chCnt }

/-- The code of a DEVICE reset cause (GLB_RESET_CAUSE). -/
def ResetCause.code : ResetCause → Nat
  | .perst => 1 | .linkOrHot => 2 | .hostFull => 3 | .watchdog => 4

/-- The outcome of a capsule that waits for its restart is complete (R353). -/
def endCapsule (s : State) : State :=
  match s.fw.afterRestart with
  | none => s
  | some (n, _) => endEmission (modFw s (fun w => { w with afterRestart := none })) 0 n id

/-- Every transmission under way is cut (R69). -/
def cutAll (s : State) : State :=
  let s1 := (List.range 24).foldl stopWork s
  radCut (cutUplink s1)

/-- The recovery of a reset that is still in progress: its work is not settled. -/
def openReset (v : Recovery) : Bool := !v.settled && decide (1 ≤ v.cause.toNat) && decide (v.cause.toNat ≤ 3)

/-- Recoveries a DEVICE reset absorbs are those of resets in progress; their commands complete with it (R20). -/
def absorbed (l : List Recovery) : List Recovery × List (RingNo × Word) :=
  (l.filter (fun v => !openReset v), (l.filter openReset).flatMap (fun v => v.cmds))

/-- MSI-X tables and PBAs, headed FUNCTION and CHANNEL, at their reset values (17_registers.md); the rest of configuration space stays. -/
def msixDevice (h : Hif) : Hif :=
  { h with funcs := vmapIdx (fun f x => { x with table := (Func.reset (if f = 0 then 64 else 4)).table, pba := 0 }) h.funcs }

/-- Everything a DEVICE reset clears, after its transmissions are cut. -/
def clearDevice (s : State) (code : Nat) : State :=
  let s1 := clearKeys (revertIdentity s)
  let s2 := { s1 with
    glb := glbDevice s1.glb code
    hif := msixDevice (hifDevice s1.hif)
    upl := uplRestart s1.upl
    xc := xcDevice s1.xc
    sec := { s1.sec with split := Sec.reset.split, plainDis := Sec.reset.plainDis, lock := Sec.reset.lock, ops := [], port := [] }
    rad := radDevice s1.rad
    sup := supDevice s1.sup
    fw := fwDevice s1.fw
    evt := evtDevice s1.evt
    time := { s1.time with rxts := Rxts.reset }
    ledger := if s1.ledger.sealed ∨ s1.sup.sealing ∨ s1.sup.sealPhase ≠ 0 then
      { s1.ledger with sealState := .running, spillCount := 0, spillCheck := 0, sealed := false } else s1.ledger }
  let s3 := { s2 with
    chans := vmapIdx (fun c k => chanDevice (present s c) (sesDefault s2) k) s2.chans
    pwr := { s2.pwr with
      floor := 1, sleepMs := 100, idleUs := idleDefault s2, lingerMs := 10, entryReq := none, entrySeal := false, woken := [], waiting := []
      domChla := false, domChlb := false, domRad := false } }
  budgetCheck (feedPower (uplSettled s3))

/-- The DEVICE reset of a cause: its recovery, cause 0x01, covers every existing ring (R20, R79, R310). A dying-gasp indication under way ends with it (R127). -/
def resetDevice (s : State) (c : ResetCause) : State :=
  let s1 := endCapsule (cutAll (dyingGaspEnd s))
  let s2 := setPwr (clearDevice s1 c.code) .run
  let (keep, cmds) := absorbed s2.recov
  let s3 := boot { s2 with recov := keep }
  startRecovery s3 (allRings.filter (fun r => (ringAt s3 r.val).enable)) 0x01 0xFF true cmds (List.range 24)

/-- A DEVICE reset, unless one is in progress: overlapping causes count as one reset (R20). -/
def deviceReset (s : State) (c : ResetCause) : State := if s.glb.inReset then s else resetDevice s c

/-- A state in which PERST# and the link belong to the state (R314). -/
def offPath (s : State) : Bool :=
  match s.pwr.state with
  | .poweringDown | .deep | .waking | .off => true
  | _ => false

/-- The lower code of two causes (R383). -/
def firstCause (a : Option ResetCause) (b : ResetCause) : ResetCause :=
  match a with
  | none => b
  | some x => if x.code ≤ b.code then x else b

/-- A cause of a DEVICE reset strikes: held while a seal runs (R294). -/
def resetCause (s : State) (c : ResetCause) : State :=
  if s.sup.sealing then modSup s (fun u => { u with heldReset := some (firstCause u.heldReset c) })
  else deviceReset s c

/-- The link is lost with a reset of the bus. -/
def busReset (s : State) (c : ResetCause) : State :=
  let s1 := resetConfig (loseLink s)
  if offPath s then s1 else resetCause s1 c

/-! ### Waking by PERST# (R316, R317) -/

/-- A wake source fires: from DEEP the power-up begins at its step 1; in POWERING_DOWN it is latched; in ENTERING it abandons the entry; in SLEEP it returns to RUN. Codes are WAKE_CAUSE's. -/
def wakeSource (s : State) (code : Nat) : State :=
  let assertWake (t : State) : State :=
    if code = 2 then t else modHif t (fun h => { h with pcieWake := h.pcieWake || h.perst })
  match s.pwr.state with
  | .deep => assertWake (setPwr (modPwr s (fun p => { p with
      wakeCause := BitVec.ofNat 3 code, upStep := 1, step := 0, retryWait := false })) .waking)
  | .waking => assertWake s
  | .poweringDown => modPwr s (fun p => { p with
      latchedWake := match p.latchedWake with | none => some (BitVec.ofNat 3 code) | some x => some x })
  | .entering => abandonEntry s
  | .sleep => leaveSleep s
  | _ => s

/-! ### Resuming after a wake (R317) -/

/-- Work of a seal is to be resumed: RUN, link up, ledger neither held nor adopting (log 56). -/
def resumeReady (s : State) : Bool :=
  s.sup.journalSealed && !s.sup.sealing && decide (s.pwr.state = .run) && s.hif.linkUp && decide (s.ledger.failed = []) && !s.ledger.adopting

/-- Service resumes after a wake: the core domains were off. -/
def tryResume (s : State) : State := if resumeReady s then resumeService s true else s

/-! ### Meanings -/

def execPerstAssert (s : State) : Host.Outcome State Fault Refusal :=
  .next (if s.hif.perst then s else busReset (modHif s (fun h => { h with perst := true })) .perst)

/-- PERST# deasserted: WAKE# is released, and it is a wake source that is always enabled (R316, R317, R401). -/
def execPerstDeassert (s : State) : Host.Outcome State Fault Refusal :=
  .next (if s.hif.perst then wakeSource (modHif s (fun h => { h with perst := false, pcieWake := false })) 2 else s)

/-- A hot reset arrives on a link that is up. -/
def execPcieHotReset (s : State) : Host.Outcome State Fault Refusal := .next (if s.hif.linkUp then busReset s .linkOrHot else s)

def execLinkDown (s : State) : Host.Outcome State Fault Refusal := .next (if s.hif.linkUp then busReset s .linkOrHot else s)

/-- Widths and speeds a link of the terminal trains to (Table 02.1): 1, 2 or 4 lanes, generations 1 to 3. -/
def linkFits (width speed : BitVec 4) : Bool :=
  (width == 1 || width == 2 || width == 4) && decide (1 ≤ speed.toNat) && decide (speed.toNat ≤ 3)

/-- The link trains once PERST# is deasserted and HIF is powered; ledger transfers that waited are made where the PF may master the bus, and a resumption due follows (R317, Table 02.10). -/
def execLinkUp (width speed : BitVec 4) (s : State) : Host.Outcome State Fault Refusal :=
  .next (if s.hif.perst || !s.pwr.domHif || s.pwr.testEn || s.hif.linkUp || !linkFits width speed then s
    else
      let s1 := modHif s (fun h => { h with linkUp := true, width := width, speed := speed, l2 := false })
      tryResume (flushWaiting (modGlb s1 (fun g => { g with inReset := false }))))

/-- The recovery of a CHANNEL reset or an island's fault that is not settled. -/
def openChannel (v : Recovery) : Bool := !v.settled && v.cause == 0x03

/-- Transmit work of ring r that a CHANNEL reset cut before its settlement is returned RET_RESET (Table 03.5); receive buffers and blocks are settled alike by every reset. -/
def returnReset (s : State) (r : RingNo) : State :=
  if isRxRing r.val then s
  else ((ringAt s r.val).work.filter (fun w => !isRxTrib r.val w)).foldl (fun t w => returnWork t r.val w.seq .retReset) s

/-- PF FLR: FUNCTION reset (Table 00.6, R62, R101): the PF's configuration space, MSI-X table and SR-IOV control; every VF ceases to exist; the recovery covers every ring. A reset in progress that is as broad absorbs it; CHANNEL resets in progress are absorbed by it, the work they cut returned as theirs (R20, Table 03.5). -/
def pfFlrOp (s : State) : State :=
  let s1 := setFunc (setVfs s false 0) 0 (fun _ => Func.reset 64)
  if s.recov.any (fun v => !v.settled && (v.cause == 0x01 || v.cause == 0x02)) then s1
  else
    let old := s1.recov.filter openChannel
    let s2 := old.foldl (fun t v => v.scope.foldl returnReset t) s1
    let s3 := { s2 with recov := s2.recov.filter (fun v => !openChannel v) }
    startRecovery s3 (allRings.filter (fun r => (ringAt s3 r.val).enable)) 0x02 0xFF false
      (old.flatMap (fun v => v.cmds)) (old.flatMap (fun v => v.refresh))

def execPfFlr (s : State) : Host.Outcome State Fault Refusal := .next (if configServed s then pfFlrOp s else s)

/-- VF FLR: CHANNEL reset of its channel, and the VF's configuration space (Table 00.6, R99). -/
def vfFlrOp (s : State) (c : Nat) : State :=
  if vfOn s c && present s c then channelReset (setFunc s (c + 1) (fun _ => Func.reset 4)) c [] else s

def execVfFlr (c : Ch) (s : State) : Host.Outcome State Fault Refusal := .next (if configServed s then vfFlrOp s c.val else s)

/-- GLB_RESET (R382): refused during a seal and in a power transition; the link and the configuration space stay. -/
def hostResetOp (s : State) (key : Word) : State :=
  if key ≠ 0xA5C30001 then s
  else if s.sup.sealing ∨ s.pwr.state = .entering ∨ s.pwr.state = .poweringDown ∨ s.pwr.state = .waking then
    modGlb s (fun g => { g with refused := true })
  else deviceReset s .hostFull

/-- Firmware's write would act on the PF's WO field and is denied (R375); a VF does not reach GLB. -/
def execHostFullReset (who : Requester) (key : Word) (s : State) : Host.Outcome State Fault Refusal :=
  .next (match who with
    | .vf _ => s
    | .fw _ => if key = 0 then s else fwDenied s 0x50
    | .pf => hostResetOp s key)

end Sys2Proof.Machine
end

