-- ==== Sys2Proof/Machine/Power.lean ====
section
/-! DEFINITION. Power states, entry into DEEP and OFF, waking, and the sequencer's power-up and power-down (14_power.md, R306 to R327), and TEST_EN (R396). -/

namespace Sys2Proof.Machine

open Sys2Proof

/-! ### Domains switched off (R306 to R308, Table 14.9) -/

/-- The retention group of a PWR_RET bit is kept over the power-down. -/
def keeps (s : State) (i : Nat) : Bool := s.pwr.retained.getLsbD i

/-- One channel's island is isolated and switched off: the channel is in OFF until its entry is read again (R103). -/
def islandOff (s : State) (c : Nat) : State :=
  if present s c then setTab (enterOff (stopWork s c) c) c (fun t => { t with readSince := false }) else s

/-- CHLB (12 to 23) or CHLA (0 to 11) and its islands go off. -/
def halfOff (s : State) (b : Bool) : State :=
  let s1 := (List.range 12).foldl (fun t i => islandOff t (if b then i + 12 else i)) s
  modPwr s1 (fun p => if b then { p with domChlb := false } else { p with domChla := false })

/-- UPL's registers after it was off: the gate's fields stay in the AON store. -/
def uplKept (u : Upl) : Upl :=
  { uplRestart u with
    lock := u.lock, maxBurst := u.maxBurst, rogueEn := u.rogueEn, dgOnBat := u.dgOnBat, usRate := u.usRate
    respTrim := u.respTrim, burstTrail := u.burstTrail, burstLead := u.burstLead, snLo := u.snLo, snHi := u.snHi }

/-- UPL goes off: OPT_TX_DISABLE high, OPT_TX_BURST_EN low, the dying-gasp indication over. -/
def uplOff (s : State) : State :=
  let s1 := setUpl (cutUplink (dyingGaspEnd s)) uplKept
  uplSettled (modPwr s1 (fun p => { p with domUpl := false }))

/-- CORE goes off. -/
def coreOff (s : State) : State := modPwr (modFw s fwDevice) (fun p => { p with domCore := false })

/-- The key store and the check-value contexts are cleared unless retained (R243). -/
def keysOff (s : State) : State :=
  if keeps s 0 then s else setSec (clearKeys s) (fun x => { x with ctxs := Vector.replicate 8 CvCtx.empty })

/-- A channel's block after HIF was off: the feed's registers are not in HIF, and gate lists may be retained. -/
def chanHifOff (gcl : Bool) (present : Bool) (ses : Half) (k : Chan) : Chan :=
  { chanDevice present ses k with
    pm := Pm.reset ses
    feed := k.feed
    gcl := if gcl then { Gcl.reset with active := k.gcl.active, shadow := k.gcl.shadow } else Gcl.reset }

/-- Ring and ledger registers that are in no AON store (log 55). -/
def ringHifOff (g : Ring) : Ring :=
  { g with halted := false, seqErr := false, dbErr := false, winErr := false, dmaErr := false, fetch := none, refetch := none }

/-- HIF goes off: the link is lost, its configuration space starts afresh at the wake, and its registers keep what the AON store and the retention banks hold (R307). -/
def hifOff (s : State) : State :=
  let s1 := keysOff (mapRings (resetConfig (loseLink s)) (fun _ g => ringHifOff g))
  { s1 with
    hif := { hifDevice s1.hif with lock := s1.hif.lock, windows := s1.hif.windows, fetchStop := s1.hif.fetchStop }
    chans := vmapIdx (fun c k => chanHifOff (keeps s 2) (present s c) (sesDefault s) k) s1.chans
    xc := { xcDevice s1.xc with flow := if keeps s 3 then s1.xc.flow else Xc.reset.flow }
    sec := { s1.sec with ops := [], port := [], ksSel := 0 }
    evt := { evtDevice s1.evt with logSel := 0 }
    ledger := { s1.ledger with foreign_ := false, sealInvalid := false, recordLost := false, writeErr := false }
    pwr := { s1.pwr with domHif := false } }

/-- A powered domain is isolated and switched off. -/
def switchOff (s : State) (d : Domain) : State :=
  if domOn s d then
    match d with
    | .hif => hifOff s
    | .core => coreOff s
    | .upl => uplOff s
    | .chla => halfOff s false
    | .chlb => halfOff s true
    | .rad => radOff s
    | .feed => feedOff s
    | .aon => s
  else s

/-- The domains on a rail (Table 14.1). -/
def railDomains : Rail → List Domain
  | .core => [.rad, .feed, .upl, .core, .hif]
  | .sds => [.upl, .hif]
  | .ch => [.chlb, .chla]
  | .afe => [.chlb, .chla, .rad, .feed]

/-- A rail's regulator enable is high. -/
def railOn (p : Pwr) : Rail → Bool
  | .core => p.enCore
  | .sds => p.enSds
  | .ch => p.enCh
  | .afe => p.enAfe

/-! ### Power-down (R325, R326, Table 14.9) -/

/-- The domain a step of Table 14.9 switches off. -/
def stepDomain : Nat → Domain
  | 1 => .chlb | 2 => .chla | 3 => .rad | 4 => .feed | 5 => .upl | 6 => .core | 7 => .hif | _ => .aon

/-- The AON regulator goes to low-power mode, or off (step 12). In DEEP the crystal counts the datum, with the reference kept (R219, Table 10.3); a latched wake source takes effect (R316). -/
def lastStep (s : State) : State :=
  let s1 := modPwr s (fun p => { p with downStep := 0, step := 12 })
  let s2 := if keeps s 1 then s1 else setRad s1 (fun r => { r with refill := true })
  if s.pwr.toOff then setPwr s2 .off
  else
    let s3 := { s2 with time := { s2.time with src := .crystal, goodAvgs := 0 } }
    let s4 := if s3.time.st = .unset then s3 else setTimeState s3 .holdover
    let s5 := setPwr { s4 with time := { s4.time with ppsOut := false } } .deep
    match s.pwr.latchedWake with
    | none => s5
    | some x => wakeSource (modPwr s5 (fun p => { p with latchedWake := none })) x.toNat

/-- The action of step k, taken at its start. -/
def downAction (s : State) (k : Nat) : State :=
  match k with
  | 8 => modPwr s (fun p => { p with enAfe := false })
  | 9 => modPwr s (fun p => { p with enCh := false })
  | 10 => modPwr s (fun p => { p with enSds := false })
  | 11 =>
    let s1 := modPwr s (fun p => { p with enCore := false, refEn := false })
    { s1 with time := { s1.time with pllLock := false } }
  | 12 => lastStep s
  | _ => switchOff s (stepDomain k)

/-- Step k begins; a step whose domain is off already takes no wait, and the next follows. -/
def downFrom : Nat → State → Nat → State
  | 0, s, _ => s
  | n + 1, s, k =>
    if 12 ≤ k then downAction s 12
    else if k ≤ 7 ∧ !domOn s (stepDomain k) then downFrom n (modPwr s (fun p => { p with step := k })) (k + 1)
    else modPwr (downAction s k) (fun p => { p with downStep := k })

/-- The retention groups that fit, in ascending bit order (R321). -/
def fitGroups (p : Pwr) : BitVec 6 :=
  (List.range 6).foldl (fun r i =>
    let r1 := r ||| BitVec.ofNat 6 (2 ^ i)
    if p.groups.getLsbD i ∧ retLoad p r1 ≤ 1200 then r1 else r) 0

/-- POWERING_DOWN begins with its step 1. -/
def startPowerDown (s : State) (toOff : Bool) : State :=
  let s1 := modPwr s (fun p => { p with
    toOff := toOff, retained := if toOff then 0 else fitGroups p, upStep := 0, cold := false, collapsed := []
    latchedWake := none, retryWait := false, entryReq := none, entrySeal := false, woken := [], waiting := [] })
  downFrom 12 (setPwr s1 .poweringDown) 1

/-- The step in progress ends and the next begins. -/
def powerDownNext (s : State) : State :=
  downFrom 12 (modPwr s (fun p => { p with step := s.pwr.downStep, downStep := 0 })) (s.pwr.downStep + 1)

def execPowerDownStep (s : State) : Host.Outcome State Fault Refusal :=
  .next (if s.pwr.state = .poweringDown ∧ s.pwr.downStep ≠ 0 then powerDownNext s else s)

/-- A rail not yet released is found collapsed (R326): its domains are isolated at once, the step is SKIPPED_RAIL_FAIL, and the next starts. -/
def railCollapseOp (s : State) (r : Rail) : State :=
  if s.pwr.state = .poweringDown ∧ s.pwr.downStep ≠ 0 ∧ railOn s.pwr r ∧ !s.pwr.collapsed.contains r then
    let s1 := (railDomains r).foldl switchOff (modPwr s (fun p => { p with collapsed := r :: p.collapsed }))
    let s2 := supplyNow (drew s1) 6 ((Config.freeWord s1.free).toNat % 256) s.pwr.downStep
    powerDownNext (raise s2 Src.railFail 0xFF 0)
  else s

def execRailCollapse (r : Rail) (s : State) : Host.Outcome State Fault Refusal := .next (railCollapseOp s r)

/-! ### Power-up (R323, R324, Table 14.8) -/

/-- CORE is ready: firmware resumes from retained memory, its watchdogs afresh, or the boot monitor starts. -/
def coreStart (s : State) : State :=
  let s1 := modPwr s (fun p => { p with domCore := true })
  if !s.pwr.cold && keeps s 4 && keeps s 5 then modFw s1 (fun w => { w with wdgStart := Vector.replicate 2 s.datum }) else boot s1

/-- The wake is over (R317): the groups not retained, KEYS_LOST, RUN; a wake from DEEP requests a refresh of every channel (R90). -/
def endWake (s : State) : State :=
  let s1 := modPwr s (fun p => { p with lost := p.groups &&& ~~~p.retained })
  let s2 := requestAll (setPwr s1 .run) (List.range 24)
  tryResume (if keeps s 0 then s2 else raise s2 Src.keysLost 0xFF 0)

/-- What completes step k. -/
def upAction (s : State) (k : Nat) : State :=
  match k with
  | 2 => modPwr s (fun p => { p with refEn := true, enCore := true, enSds := true })
  | 4 => { s with time := { s.time with pllLock := true, src := .free } }
  | 5 => modPwr s (fun p => { p with domHif := !p.testEn, enCh := true, enAfe := true })
  | 6 => if s.pwr.testEn then s else coreStart s
  | 7 => feedPower (modPwr s (fun p => { p with cold := false }))
  | 8 =>
    let s1 := uplSettled (modPwr s (fun p => { p with domUpl := !p.testEn }))
    if s.pwr.state = .waking then endWake s1 else s1
  | _ => s

/-- Step k of Table 14.8 completes and the next is under way. -/
def powerUpOp (s : State) : State :=
  let k := s.pwr.upStep
  if k = 0 ∨ s.pwr.retryWait then s
  else upAction (modPwr s (fun p => { p with step := k, upStep := if k = 8 then 0 else k + 1 })) k

def execPowerUpStep (s : State) : Host.Outcome State Fault Refusal := .next (powerUpOp s)

/-- A rail is not good in time (R324): every enable is released. -/
def railTimeoutOp (s : State) : State :=
  let k := s.pwr.upStep
  if (k = 3 ∨ k = 7) ∧ !s.pwr.retryWait then
    let s1 := [Domain.rad, .feed, .upl, .core, .hif].foldl switchOff s
    let s2 := modPwr s1 (fun p => { p with
      enCore := false, enSds := false, enCh := false, enAfe := false, refEn := false, retryWait := true })
    let s3 := { s2 with time := { s2.time with pllLock := false } }
    raise (supplyNow (drew s3) 6 ((Config.freeWord s3.free).toNat % 256) k) Src.railFail 0xFF 0
  else s

def execRailGoodTimeout (s : State) : Host.Outcome State Fault Refusal := .next (railTimeoutOp s)

/-- The power-up is repeated from step 1. -/
def execPowerUpRetry (s : State) : Host.Outcome State Fault Refusal :=
  .next (if s.pwr.retryWait then modPwr s (fun p => { p with upStep := 1, retryWait := false }) else s)

/-! ### TEST_EN (R396) -/

/-- The sequencer has completed step k of the power-up, or needs none; HIF is on from POWER-ON (Table 14.8). -/
def reached (s : State) (k : Nat) : Bool :=
  if s.pwr.cold then decide (k < s.pwr.upStep) || k == 5 else s.pwr.upStep == 0 || decide (k < s.pwr.upStep)

/-- Every domain but AON is held in reset: the loss of HIF's link is a DEVICE reset (Table 02.10), and no domain is served until the release (log 57). -/
def holdDomains (s : State) : State :=
  [Domain.chlb, .chla, .rad, .feed, .upl, .core, .hif].foldl switchOff (busReset s .linkOrHot)

/-- The domains the power state has on leave reset: the boot monitor starts, and the outputs follow. -/
def releaseDomains (s : State) : State :=
  match s.pwr.state with
  | .poweringDown | .deep | .off => s
  | _ =>
    let s1 := modPwr s (fun p => { p with domHif := reached s 5, domUpl := reached s 8 })
    let s2 := if reached s 6 then boot (modPwr s1 (fun p => { p with domCore := true })) else s1
    feedPower (uplSettled s2)

/-- TEST_EN changes level. -/
def testEnOp (s : State) (level : Bool) : State :=
  let s1 := modPwr s (fun p => { p with testEn := level })
  match level, s.pwr.testEn with
  | true, false => holdDomains s1
  | false, true => releaseDomains s1
  | _, _ => s1

def execTestEnChange (level : Bool) (s : State) : Host.Outcome State Fault Refusal := .next (testEnOp s level)

/-! ### IDLE, SLEEP and L1 (Table 14.4, R311) -/

/-- Both control processors run firmware and no firmware-port request is pending. -/
def coresIdle (s : State) : Bool :=
  s.pwr.domCore && decide (s.fw.cp0 = .running) && decide (s.fw.cp1 = .running) && decide (portHeld s = 0)

/-- Both halt instructions have waited for IDLE_US. -/
def execIdleTimerExpiry (s : State) : Host.Outcome State Fault Refusal :=
  .next (if s.pwr.state = .run ∧ s.pwr.floor ≠ 0 ∧ coresIdle s then
    setPwr (modFw s (fun w => { w with cp0 := .halted, cp1 := .halted })) .idle else s)

/-- An interrupt to a processor, or a firmware-port request. -/
def execIdleExit (s : State) : Host.Outcome State Fault Refusal :=
  .next (if s.pwr.state = .idle then setPwr s .run else s)

/-- The channel and uplink conditions of SLEEP; ONU_STATE 0, not yet reported, is O1 (R115; log 58). -/
def sleepQuiet (s : State) : Bool :=
  (List.range 24).all (fun c => match (chanAt s c).tab.state with
    | .economy | .off | .halted | .absent => true
    | _ => false)
  && (decide (s.upl.ponMode = .watchful) || decide (s.upl.onuState.toNat ≤ 1) || s.upl.onuState == 7)

def execSleepTimerExpiry (s : State) : Host.Outcome State Fault Refusal :=
  .next (if s.pwr.state = .idle ∧ s.pwr.floor = 2 ∧ sleepQuiet s then setPwr s .sleep else s)

def execL1EntryRequest (s : State) : Host.Outcome State Fault Refusal :=
  .next (if s.pwr.state = .sleep ∧ s.hif.linkUp then emitOut s .l1Request else s)

/-! ### Entering DEEP and OFF (R312, R313) -/

/-- Step 2 of R312: every channel in OFF or ABSENT, the journal empty, and no accepted work without its outcome but receive buffers, receive blocks and the request itself. -/
def quiescent (s : State) (self : Option Word) : Bool :=
  (List.range 24).all (fun c => decide ((chanAt s c).tab.state = .off) || decide ((chanAt s c).tab.state = .absent))
  && decide (s.journal = [])
  && allRings.all (fun r => !hostWritten r.val || (ringAt s r.val).work.all (fun w =>
      w.issued || isRxRing r.val || isRxTrib r.val w || (r.val == 0 && self == some w.seq)))

/-- A request is taken in RUN, IDLE and SLEEP, while no other and no seal is under way (Table 14.4; log 59). -/
def mayRequest (s : State) : Bool :=
  (decide (s.pwr.state = .run) || decide (s.pwr.state = .idle) || decide (s.pwr.state = .sleep))
  && s.pwr.entryReq.isNone && !frozen s

/-- REFUSE_WHY of a request, 0 when it passes. -/
def entryCheck (s : State) (self : Option Word) (toOff : Bool) : Nat :=
  if !mayRequest s || !quiescent s self then 1
  else if !toOff && decide (1200 < retLoad s.pwr s.pwr.groups) then 2
  else 0

/-- A request is refused; fetching goes on. -/
def refuseEntry (s : State) (why : Nat) : State :=
  raise (modPwr s (fun p => { p with refused := true, why := BitVec.ofNat 2 why })) Src.powerState 0xFF 0

/-- Step 1: fetching stops on every ring, and a fetch in flight accepts nothing. -/
def stopFetch (s : State) : State :=
  modHif (mapRings s (fun _ g => { g with fetch := none, refetch := none })) (fun h => { h with fetchStop := true })

/-- PWR_ENTER: steps 1 to 4; the entry goes on when C of ring 0 has passed it. -/
def pwrEnterOp (s : State) (seq : Word) : State :=
  match cmdWork s 0 seq 0x0120 with
  | none => s
  | some w =>
    let t := bits w.d.p0 1 0
    if 2 ≤ t then returnWork s 0 seq .retParam
    else
      match entryCheck s (some seq) (t == 1) with
      | 0 => modPwr (stopFetch (emitWork s 0 seq (Outcome.of .ok 0 0))) (fun p => { p with entryReq := some (seq, t == 1) })
      | 1 => returnWork (refuseEntry s 1) 0 seq .retBusy
      | _ => returnWork (refuseEntry s 2) 0 seq .retDenied

def execPwrEnter (seq : Word) (s : State) : Host.Outcome State Fault Refusal := .next (pwrEnterOp s seq)

/-- An armed write of PWR_GO takes effect (R361): the same request without a record. -/
def pwrGoOp (s : State) (toOff : Bool) : State :=
  if s.pwr.state = .off then s
  else
    let s1 := raise s Src.mgtArmedWrite 0xFF 0
    match entryCheck s1 none toOff with
    | 0 => beginEntering (stopFetch s1) toOff
    | n => refuseEntry s1 n

def execPwrGoDeep (s : State) : Host.Outcome State Fault Refusal := .next (pwrGoOp s false)

def execPwrGoOff (s : State) : Host.Outcome State Fault Refusal := .next (pwrGoOp s true)

/-- PME_Turn_Off in ENTERING: PME_TO_Ack, L2, POWERING_DOWN (R313). -/
def pmeTurnOffOp (s : State) : State :=
  if s.pwr.state = .entering ∧ s.hif.linkUp then
    startPowerDown (modHif (loseLink (emitOut s .pmeAck)) (fun h => { h with l2 := true })) s.pwr.toOff
  else s

def execPmeTurnOff (s : State) : Host.Outcome State Fault Refusal := .next (pmeTurnOffOp s)

/-- 1.0 s without L2. -/
def execEntryTimeout (s : State) : Host.Outcome State Fault Refusal := .next (abandonEntry s)

/-! ### Wake sources (R315, R316, Table 14.7) -/

/-- A wake source enabled in PWR_WAKE fires. -/
def wakeIf (s : State) (bit code : Nat) : State := if s.pwr.wakeBits.getLsbD bit then wakeSource s code else s

/-- WAKE low for 1.0 ms: leaving OFF is a POWER-ON. -/
def execWakePin (s : State) : Host.Outcome State Fault Refusal :=
  .next (if s.pwr.state = .off then powerOnOp s else wakeIf s 0 1)

/-- The low 32 bits of the datum seconds are at PWR_ALARM. -/
def execPwrAlarm (s : State) : Host.Outcome State Fault Refusal :=
  .next (if word (instSec s.datum) = s.pwr.alarm ∧ s.pwr.state ≠ .off then wakeIf s 1 3 else s)

end Sys2Proof.Machine
end

