-- ==== Sys2Proof/Machine/Supply.lean ====
section
/-! DEFINITION. The supply watch: declared level crossings, disturbances, the seal and what follows it; BMC_OFF (13_supply_feed.md, R286 to R295, R297, R301, R302). -/

namespace Sys2Proof.Machine

open Sys2Proof

/-! ### Comparators (R287, R288) -/

/-- The comparator of an input. -/
def supIdx : SupIn → Nat
  | .main => 0 | .bat => 1 | .feed => 2 | .aux => 3

def compAt (s : State) (i : Nat) : Comp := vget s.sup.comps i Comp.reset

def setComp (s : State) (i : Nat) (c : Comp) : State := modSup s (fun u => { u with comps := vset u.comps i c })

/-- An instant some µs before now: a declaration less its filter time. -/
def before (s : State) (us : Nat) : Nat := s.datum - us * usUnit

/-- The level shown while a disturbance or a surge is open; the later declaration is shown (log 60). -/
def quietLvl (c : Comp) : Lvl :=
  match c.dist with
  | some d => if d.int then .int else .low
  | none => if c.surge.isSome then .high else .normal

/-- The comparator after a declaration. INT with no disturbance open opens one, the input being below LOW too (log 60). -/
def crossed (s : State) (c : Comp) (x : Crossing) : Comp :=
  match x with
  | .low =>
    match c.dist with
    | some _ => c
    | none => { c with dist := some { start := before s 5, valid := s.time.valid, int := false }, lvl := .low }
  | .int =>
    match c.dist with
    | some d => { c with dist := some { d with int := true }, lvl := .int }
    | none => { c with dist := some { start := before s 5, valid := s.time.valid, int := true }, lvl := .int }
  | .high =>
    match c.surge with
    | some _ => c
    | none => { c with surge := some (before s 1, s.time.valid), lvl := .high }
  | .restore => { c with dist := none, lvl := if c.surge.isSome then .high else .normal }
  | .surgeEnd =>
    let d := { c with surge := none }
    { d with lvl := quietLvl d }

/-- A declaration that can be made: LOW, INT and HIGH are not declared twice, and a surge closes only when open. -/
def possible (c : Comp) (x : Crossing) : Bool :=
  match x with
  | .low => c.dist.isNone
  | .int => match c.dist with | some d => !d.int | none => true
  | .high => c.surge.isNone
  | .restore => true
  | .surgeEnd => c.surge.isSome

/-- A disturbance of a kind closes, 100 µs before its declaration: its log entry, and SUPPLY_DISTURBANCE. DETAIL of a disturbance is not stated: a free value (log 22). -/
def closeDist (s : State) (kind i start : Nat) (valid : Bool) : State :=
  let us := min ((before s 100 - start) / usUnit) 0xFFFFFFFF
  raise (supplyLog (drew s) kind i ((Config.freeWord s.free).toNat % 256) (word us) start valid) Src.supplyDisturbance 0xFF 0

/-- What a declaration closes. -/
def closes (s : State) (i : Nat) (c : Comp) (x : Crossing) : State :=
  match x, c.dist, c.surge with
  | .restore, some d, _ => closeDist s (if d.int then 2 else 1) i d.start d.valid
  | .surgeEnd, _, some (t, v) => closeDist s 3 i t v
  | _, _, _ => s

/-- A declaration closes something. -/
def isClose (c : Comp) (x : Crossing) : Bool :=
  match x with
  | .restore => c.dist.isSome
  | .surgeEnd => c.surge.isSome
  | _ => false

/-- The declaration opens a disturbance: the comparator trips (R287). -/
def isTrip (c : Comp) (x : Crossing) : Bool :=
  match x with
  | .low | .int => c.dist.isNone
  | _ => false

/-! ### Shed and its end (R295, R301, R302) -/

/-- FEEDIN holds the shed: an interruption or a surge is open. -/
def feedHeld (s : State) : Bool :=
  let c := compAt s 2
  c.surge.isSome || (match c.dist with | some d => d.int | none => false)

/-- Shed outputs restart once no cause is left. -/
def tryUnshed (s : State) : State := if s.sup.shedSeal || feedHeld s then s else unshed s

/-- VMAIN stands restored: no disturbance is open on CMP_MAIN. -/
def mainBack (s : State) : Bool := (compAt s 0).dist.isNone

/-- VMAIN's RESTORE has been declared and service runs: the seal's shed is over (R295). -/
def endSealShed (s : State) : State :=
  if mainBack s && !s.sup.sealing && !s.sup.journalSealed then tryUnshed (modSup s (fun u => { u with shedSeal := false })) else s

/-- FEEDIN's crossings at the feed controllers. -/
def feedCross (s0 : State) (x : Crossing) : State :=
  let s := if x = .restore then modSup s0 (fun u => { u with feedBack := some s0.datum }) else s0
  if !s.pwr.domFeed then s
  else
    match x with
    | .low => pauseInrush s
    | .int => shedAll s 6 2
    | .high => shedAll s 6 1
    | .restore => tryUnshed (resumeInrush s)
    | .surgeEnd => tryUnshed s

/-! ### The seal (R78, R291 to R295) -/

/-- The seal's part in the ledger starts, or goes on where an entry's has begun (R78); there is none where the ledger is HELD (R292). -/
def sealStarts (s : State) : State :=
  if s.ledger.failed ≠ [] then modSup s (fun u => { u with hostLost := true })
  else if s.pwr.entrySeal then sealAdvance s
  else sealLedger (modSup s (fun u => { u with sealPhase := 0 }))

/-- The seal begins: steps 1 to 6, without its host part where the core domains are off or the ledger is HELD (R292); a trip during a seal is absorbed into it. -/
def startSeal (s : State) (bat : Bool) : State :=
  if s.sup.sealing then modSup s (fun u => { u with batSeal := u.batSeal || bat })
  else
    let s1 := modSup s (fun u => { u with
      sealing := true, batSeal := bat, hostLost := false, sealStart := s.datum, sealValid := s.time.valid })
    let s2 := raise (modHif s1 (fun h => { h with fetchStop := true })) Src.sealStart 0xFF 0
    if offPath s then s2
    else
      sealStarts (dyingGasp s2 s.sup.onBat)

/-- The CMP_MAIN trip: ON_BAT, the shed and the seal (R291, R292, R295). -/
def mainTrip (s : State) : State :=
  let bat := match (compAt s 1).lvl with | .low | .int => false | _ => true
  let s1 := modSup s (fun u => { u with onBat := bat })
  let s2 :=
    if bat && s.sup.feedOnBat then s1
    else if s.pwr.domFeed then shedAll (modSup s1 (fun u => { u with shedSeal := true })) 5 0
    else s1
  startSeal s2 false

/-- VMAIN's RESTORE: ON_BAT 0, the dying gasp over, and the origin of a cold power-up or a wake source (R128, R291, R316, R323). -/
def mainRestore (s : State) : State :=
  let s1 := modSup s (fun u => { u with onBat := false })
  let s2 := endSealShed (if s.pwr.state = .poweringDown then s1 else dyingGaspEnd s1)
  if s2.pwr.cold && decide (s2.pwr.upStep = 0) then modPwr s2 (fun p => { p with upStep := 1 })
  else wakeIf s2 2 4

/-- What a declaration does beyond its comparator. -/
def crossEffect (s : State) (i : SupIn) (x : Crossing) (trip close : Bool) : State :=
  let s1 := if trip then leaveSleep s else s
  match i with
  | .main => if trip then mainTrip s1 else if x = .restore then mainRestore s1 else s1
  | .bat => if trip && s1.sup.onBat then startSeal s1 true else s1
  | .feed => feedCross s1 x
  | .aux => if close then wakeIf s1 3 5 else s1

/-- A declared level crossing; INT is not used on CMP_AUX, and the comparators stand still in OFF. -/
def crossingOp (s : State) (i : SupIn) (x : Crossing) : State :=
  let c := compAt s (supIdx i)
  if s.pwr.state = .off ∨ (i = .aux ∧ x = .int) ∨ !possible c x then s
  else
    let s1 := setComp (closes s (supIdx i) c x) (supIdx i) (crossed s c x)
    crossEffect s1 i x (isTrip c x) (isClose c x)

def execLevelCrossingDeclared (i : SupIn) (x : Crossing) (s : State) : Host.Outcome State Fault Refusal :=
  .next (crossingOp s i x)

/-! ### Step 7 and after (R292 to R294) -/

/-- R293's cases 1 and 2: VMAIN is back, or the terminal goes on on battery. -/
def sealResumes (s : State) : Bool := mainBack s || (s.sup.onBat && !s.sup.batAction && !s.sup.batSeal)

/-- Step 7: the AON journal is SEALED, and the seal is logged; VALUE and INPUT of the entry are not stated: free values (log 22). -/
def sealDoneOp (s : State) : State :=
  let u := s.sup
  let detail := if u.hostLost then 2 else if sealResumes s then 0 else 1
  let s1 := modSup s (fun u => { u with
    sealing := false, sealPhase := 0, journalSealed := true, hostIncomplete := u.hostIncomplete || u.hostLost
    hostLost := false, batSeal := false, heldReset := none })
  let s2 := raise s1 Src.sealDone 0xFF 0x13
  supplyLog (drew (drew s2)) 4 ((Config.freeWord s.free).toNat % 256) detail (Config.freeWord (s.free + 1)) u.sealStart u.sealValid

/-- An entry whose sealing the seal has taken over is abandoned as service resumes: REFUSED, WHY 3 (R293, R313; DESIGN CHOICE, log 163). -/
def endEntry (s : State) : State :=
  if s.pwr.entrySeal then
    raise (modPwr s (fun p => { p with entrySeal := false, refused := true, why := 3 })) Src.powerState 0xFF 0
  else s

/-- Service resumes after the seal, or the held reset takes its place; an entry into DEEP or OFF goes on with its ledger sealed, and a wake resumes at its own end (log 61). -/
def afterSeal (s : State) (held : Option ResetCause) : State :=
  match held with
  | some c => endSealShed (deviceReset s c)
  | none =>
    match s.pwr.state with
    | .run | .idle | .sleep => endSealShed (resumeService (endEntry s) false)
    | _ => s

/-- The seal's host part is over: given up, not made where the core domains are off, or carried out to its last write (R84, R292). -/
def sealWritten (s : State) : Bool :=
  s.sup.hostLost || offPath s || (decide (s.sup.sealPhase = 3) && ledgerQuiet s)

/-- The seal's writes are over, with or without success. -/
def sealCompleteOp (s : State) : State :=
  if !s.sup.sealing ∨ !sealWritten s then s
  else
    let s1 := sealDoneOp s
    match s.pwr.state with
    | .deep | .poweringDown | .off => s1
    | _ => if sealResumes s then afterSeal s1 s.sup.heldReset else startPowerDown s1 false

def execSealComplete (s : State) : Host.Outcome State Fault Refusal := .next (sealCompleteOp s)

/-! ### BMC_OFF (R297, R361) -/

/-- An armed write of FEED_CTL takes effect; of an absent channel it is ignored (R361). -/
def bmcOffOp (s : State) (c : Nat) (on : Bool) : State :=
  if present s c && decide (s.pwr.state ≠ .off) then
    feedPower (setFeed (raise s Src.mgtArmedWrite 0xFF 0) c (fun f => feedFollow { f with bmcOff := on }))
  else s

def execBmcOff (c : Ch) (on : Bool) (s : State) : Host.Outcome State Fault Refusal := .next (bmcOffOp s c.val on)

end Sys2Proof.Machine
end

