-- ==== Sys2Proof/Machine/Firmware.lean ====
section
/-! DEFINITION. Control processors, boot, images, settings, capsules and identity (15_firmware.md, R330 to R355; R378 to R380). -/

namespace Sys2Proof.Machine

open Sys2Proof

/-! ### Processors and watchdogs (R331, R332) -/

def cpState (s : State) (cp : Nat) : CpSt := if cp = 0 then s.fw.cp0 else s.fw.cp1

def setCp (s : State) (cp : Nat) (x : CpSt) : State :=
  modFw s (fun w => if cp = 0 then { w with cp0 := x } else { w with cp1 := x })

/-- A processor's watchdog starts again. -/
def restartWdg (s : State) (cp : Nat) : State := modFw s (fun w => { w with wdgStart := vset w.wdgStart cp s.datum })

/-- A write of FW_WDG_KICK bit `bit` by processor `cp`; the other's bit is ignored. -/
def execWatchdogKick (cp bit : Fin 2) (s : State) : Host.Outcome State Fault Refusal :=
  .next (if cp = bit ∧ cpState s cp.val = .running then restartWdg s cp.val else s)

/-- TIMEOUT ms, less its tolerance of 1 %, have passed since the watchdog was restarted. -/
def wdgOver (s : State) (cp : Nat) : Bool :=
  decide (vget s.fw.wdgStart cp 0 + s.fw.wdg.toNat * (99 * msUnit / 100) ≤ s.datum)

/-- The same processor's watchdog expired within the last 10.0 s. -/
def wdgTwice (s : State) (cp : Nat) : Bool :=
  match vget s.fw.lastWdg cp none with
  | none => false
  | some t => decide (s.datum ≤ t + 10 * secUnit)

/-- A trial is over: its timer stops (R341, R343). -/
def endTrial (w : Fw) : Fw := { w with trialLive := false, timerOn := false, left := 0 }

/-- The watchdog is fatal (R332): a DEVICE reset, and the end of a trial. -/
def fatalWatchdog (s : State) (cp : Nat) : State :=
  resetCause (setCp (if s.fw.trialLive then modFw s endTrial else s) cp .reset) .watchdog

/-- A watchdog expires. -/
def watchdogOp (s : State) (cp : Nat) : State :=
  if !s.pwr.domCore ∨ cpState s cp ≠ .running ∨ !wdgOver s cp then s
  else if cpState s (1 - cp) ≠ .running ∨ wdgTwice s cp then fatalWatchdog s cp
  else
    let s1 := modFw (setCp s cp .reset) (fun w => { w with
      wdgResets := w.wdgResets + 1, lastWdg := vset w.lastWdg cp (some s.datum) })
    let s2 := raise s1 Src.cpReset 0xFF 0x12
    startRecovery s2 (cpScope s2) 0x12 0xFF false [] []

def execWatchdogExpiry (cp : Fin 2) (s : State) : Host.Outcome State Fault Refusal := .next (watchdogOp s cp.val)

/-- A processor restarted from its image reports ready. -/
def execCpReady (cp : Fin 2) (s : State) : Host.Outcome State Fault Refusal :=
  .next (if s.pwr.domCore ∧ cpState s cp.val = .reset then restartWdg (setCp s cp.val .running) cp.val else s)

/-- PTP_UNPAIRED_DROP: an entry unpaired for 1.0 s is dropped and counted (R334). -/
def ptpDropOp (s : State) : State :=
  match s.fw.ptp with
  | [] => s
  | h :: t =>
    if h.t + secUnit ≤ s.datum then raiseC (modFw s (fun w => { w with ptp := t })) Src.ptpUnpaired 0xFF 1 else s

def execPtpUnpairedDrop (s : State) : Host.Outcome State Fault Refusal := .next (ptpDropOp s)

/-! ### Slots (R336 to R342) -/

/-- Slot 1 (A) or 2 (B). -/
def fwSlot (s : State) (i : Nat) : ImgSlot := if i = 1 then s.fw.slotA else s.fw.slotB

/-- The inactive slot; while no image runs, the one an implementation takes (log 62). -/
def inactive (s : State) : Nat :=
  match s.fw.runSlot with
  | 1 => 2
  | 2 => 1
  | _ => 1 + Config.monitorSlot % 2

/-- Bytes of a slot, and the first flash byte of each (Table 15.3). -/
def slotBytes : Nat := 0xC00000
def slotBase (i : Nat) : Nat := if i = 1 then 0x20000 else 0xC20000

/-- Firmware may write slot i (R336). -/
def slotOpen (s : State) (i : Nat) : Bool :=
  decide (i = inactive s) && (match (fwSlot s i).st with
    | .empty | .valid | .rejected => true
    | _ => false)

/-- An operation touches a flash region. -/
def touches (off len lo hi : Nat) : Bool := decide (0 < len) && decide (off < hi) && decide (lo < off + len)

/-- The flash guard permits an operation of firmware. -/
def flashAllowed (s : State) (off len : Nat) : Bool :=
  !touches off len 0 0x20000
    && [1, 2].all (fun i => slotOpen s i || !touches off len (slotBase i) (slotBase i + slotBytes))

/-- First byte of a settings position (Table 15.3). -/
def positionBase (p : Nat) : Nat := 0x1820000 + 0x10000 * p

/-- What stands in a settings position that an operation touches is no longer known: the next handover reads it. -/
def flashGens (off len : Nat) (s : State) : State :=
  modFw s (fun w => { w with gens := w.gens.filter (fun g => !touches off len (positionBase g.pos) (positionBase (g.pos + 1))) })

/-- What an operation inside a slot leaves of it: erased pages are gone; whether what stands there still verifies is a free value (log 63). -/
def flashSlot (op : FlashOp) (off len i : Nat) (s : State) : State :=
  if !touches off len (slotBase i) (slotBase i + slotBytes) then s
  else
    let hit (p : Nat) : Bool := touches off len (slotBase i + 4096 * p) (slotBase i + 4096 * (p + 1))
    let ok := (Config.freeWord s.free).getLsbD 0
    modSlot (drew s) i (fun x => match op with
      | .erase => { x with pages := x.pages.filter (fun p => !hit p), hdr := if hit 0 then none else x.hdr.map (fun h => { h with sigOk := h.sigOk && ok }) }
      | .program => { x with hdr := x.hdr.map (fun h => { h with magicOk := h.magicOk && (!hit 0 || ok), sigOk := h.sigOk && ok }) })

/-- A program or erase by firmware, refused outside the permitted places. -/
def flashOp (s : State) (op : FlashOp) (off len : Nat) : State :=
  if !cpServes s then s
  else if flashAllowed s off len then flashGens off len (flashSlot op off len 2 (flashSlot op off len 1 s))
  else fwDenied s off

def execFlashWrite (op : FlashOp) (off len : Nat) (s : State) : Host.Outcome State Fault Refusal := .next (flashOp s op off len)

/-- The slot in trial is confirmed (R338, R341). -/
def confirmSlot (s : State) (k : Nat) : State :=
  let other := 3 - k
  let h := (fwSlot s k).hdr
  let raise_ := match h with | some h => h.raiseFloor && decide (s.fw.floor < h.svn) | none => false
  let svn := match h with | some h => h.svn | none => 0
  let s1 := modFw (modSlot s k (fun x => { x with st := .confirmed })) endTrial
  let s2 := if bootable s other then modSlot s1 other (fun x => { x with st := .valid }) else s1
  if raise_ then emitOut (modFw s2 (fun w => { w with floor := svn })) (.fuse svn) else s2
where
  bootable (s : State) (i : Nat) : Bool := Sys2Proof.Machine.bootable s (fwSlot s i)

/-- The slot in trial is rejected (R342). -/
def rejectTrial (s : State) (k : Nat) : State :=
  raise (modFw (modSlot s k (fun x => { x with st := .rejected })) endTrial) Src.fwRollback 0xFF 0

/-- Rejection with the restart at once; while CORE is off, the boot at its power-up takes the restart's place. -/
def rollBack (s : State) (k : Nat) : State :=
  let s1 := rejectTrial s k
  if s.pwr.domCore then fwRestart s1 else modPwr s1 (fun p => { p with retained := p.retained &&& 0x0F })

/-- The confirmation timer expires, within a second of its count (R341, R342). -/
def confirmTimeoutOp (s : State) : State :=
  match trialSlot s with
  | some k => if s.fw.trialLive && s.fw.timerOn && decide (s.fw.left.toNat ≤ 1) && decide (s.pwr.state ≠ .off) then rollBack s k else s
  | none => s

def execConfirmationTimeout (s : State) : Host.Outcome State Fault Refusal := .next (confirmTimeoutOp s)

/-! ### Commands of Table 15.5 -/

/-- A buffer read of ring 0's work: none when it may go on, else the state after its return (R56, R62). -/
def readBuffer (s : State) (w : Work) (res : XferResult) : Sum State State :=
  let addr := w.d.addr.toNat
  if !mayMaster s 0 then .inl s
  else if !inWindows s 0 false addr w.d.len.toNat then .inl (returnWork (ringWindowFault s 0 addr) 0 w.seq .retWindow)
  else
    let s1 := sendRead s 0 addr w.d.len.toNat
    if res = .ok then .inr s1
    else .inl (returnWork (latchFault (setRing s1 0 (fun g => { g with dmaErr := true })) (xferKind res) 0 0 addr) 0 w.seq .retDma)

/-- An image header as its bytes give it (Table 15.4); `sigOk`: signature and digest verify over what the slot now holds (log 194). -/
def hdrOf (b : List Byte) (sigOk : Bool) : ImageHdr where
  version := word (leAt b 4 4)
  svn := leAt b 8 2
  raiseFloor := (leAt b 10 1).testBit 0
  p1 := (leAt b 11 1).testBit 1
  p2 := (leAt b 11 1).testBit 2
  schemaMin := leAt b 12 2
  schemaMax := leAt b 14 2
  migrateMin := leAt b 16 2
  length := leAt b 20 4
  magicOk := leAt b 0 4 == 0x4E4C4649
  sigOk := sigOk

/-- The staged pages cover the header and the bytes it gives. -/
def covers (h : ImageHdr) (pages : List Nat) : Bool :=
  decide (512 + h.length ≤ slotBytes) && (List.range ((512 + h.length + 4095) / 4096)).all (fun p => pages.contains p)

/-- The inactive slot after a staging of n pages from page `off`, whose bytes are `data` (R339). -/
def stageSlot (data : List Byte) (sigOk : Bool) (off n : Nat) (x : ImgSlot) : ImgSlot :=
  let y : ImgSlot := if off = 0 then { ImgSlot.empty with hdr := some (hdrOf data sigOk) }
    else { x with hdr := x.hdr.map (fun h => { h with sigOk := sigOk }) }
  let pages := y.pages ++ (List.range n).map (fun i => off + i)
  let full := match y.hdr with | some h => covers h pages | none => false
  { y with pages := pages, st := if full then .valid else y.st, booted := if full then false else y.booted }

/-- The staged bytes are programmed into slot i, which is erased first at offset 0. -/
def programSlot (s : State) (i off : Nat) (data : List Byte) : State :=
  let t := if off = 0 then emitOut s (.flashErase (slotBase i) slotBytes) else s
  emitOut t (.flash (slotBase i + 4096 * off) data)

/-- The slot that runs is in trial. -/
def runsTrial (s : State) : Bool := decide (s.fw.runSlot ≠ 0) && decide ((fwSlot s s.fw.runSlot).st = .trial)

/-- FW_STAGE. -/
def fwStageOp (s : State) (seq : Word) (res : XferResult) (data : List Byte) (sigOk : Bool) : State :=
  match cmdWork s 0 seq 0x0130 with
  | none => s
  | some w =>
    let len := w.d.len.toNat
    if len < 4096 ∨ 2 ^ 20 < len ∨ len % 4096 ≠ 0 then returnWork s 0 seq .retLength
    else if slotBytes < w.d.p0.toNat * 4096 + len then returnWork s 0 seq .retParam
    else if runsTrial s then returnWork s 0 seq .retBusy
    else
      match readBuffer s w res with
      | .inl t => t
      | .inr s1 =>
        if data.length ≠ len then s
        else
          let k := inactive s1
          let s2 := modSlot (programSlot s1 k w.d.p0.toNat data) k (stageSlot data sigOk w.d.p0.toNat (len / 4096))
          emitWork s2 0 seq (Outcome.of .ok 0 0)

def execFwStage (seq : Word) (res : XferResult) (img : ImageRead) (s : State) : Host.Outcome State Fault Refusal :=
  .next (fwStageOp s seq res img.data img.sigOk)

/-- RESULT0 of a refused activation; 0: the slot is bootable. -/
def activateWhy (s : State) (x : ImgSlot) : Nat :=
  match x.hdr with
  | none => 1
  | some h => if !(h.magicOk && h.sigOk) then 1 else if h.svn < s.fw.floor then 2 else if profileOk s h then 0 else 3

/-- A firmware restart follows once this outcome of ring 0 is written. -/
def restartAfter (s : State) (seq : Word) : State := modFw s (fun w => { w with restartAt := w.restartAt ++ [seq] })

/-- FW_ACTIVATE (R340); without a running image the boot monitor serves it (log 62). -/
def fwActivateOp (s : State) (seq : Word) : State :=
  match cmdWork s 0 seq 0x0131 with
  | none => s
  | some _ =>
    let k := inactive s
    if s.fw.runSlot ≠ 0 ∧ (fwSlot s s.fw.runSlot).st ≠ .confirmed then returnWork s 0 seq .retBusy
    else if activateWhy s (fwSlot s k) ≠ 0 then
      returnWith s 0 seq (Outcome.of .retDenied (word (activateWhy s (fwSlot s k))) 0)
    else
      let s1 := modSlot s k (fun x => { x with st := .trial, booted := false })
      let s2 := modFw s1 (fun w => { w with trialLive := true, timerOn := false, left := 0 })
      restartAfter (emitWork s2 0 seq (Outcome.of .ok 0 0)) seq

def execFwActivate (seq : Word) (s : State) : Host.Outcome State Fault Refusal := .next (fwActivateOp s seq)

/-- FW_CONFIRM (R341). -/
def fwConfirmOp (s : State) (seq : Word) : State :=
  match cmdWork s 0 seq 0x0132 with
  | none => s
  | some w =>
    match trialSlot s with
    | none => returnWork s 0 seq .retBusy
    | some k =>
      if s.fw.restricted && !w.d.p0.getLsbD 0 then returnWork s 0 seq .retBusy
      else emitWork (confirmSlot s k) 0 seq (Outcome.of .ok 0 0)

def execFwConfirm (seq : Word) (s : State) : Host.Outcome State Fault Refusal := .next (fwConfirmOp s seq)

/-- FW_FALLBACK: its outcome is written before the restart (R342). -/
def fwFallbackOp (s : State) (seq : Word) : State :=
  match cmdWork s 0 seq 0x0133 with
  | none => s
  | some _ =>
    match trialSlot s with
    | none => returnWork s 0 seq .retBusy
    | some k => restartAfter (emitWork (rejectTrial s k) 0 seq (Outcome.of .ok 0 0)) seq

def execFwFallback (seq : Word) (s : State) : Host.Outcome State Fault Refusal := .next (fwFallbackOp s seq)

/-- A record is acknowledged (R68); a restart that waits for it follows. -/
def recordAckedOp (s : State) (q : Nat) : State :=
  let s1 := recordAckOp s q
  let due (n : Word) : Bool := (findWork (ringAt s 0) n).isSome && (findWork (ringAt s1 0) n).isNone
  if s1.fw.restartAt.any due then
    fwRestart (modFw s1 (fun w => { w with restartAt := w.restartAt.filter (fun n => !due n) }))
  else s1

def execRecordAcknowledged (r : RingNo) (s : State) : Host.Outcome State Fault Refusal := .next (recordAckedOp s r.val)

/-! ### Armed requests (R341, R342, R355, R361) -/

/-- FW_SLOT.REQ = FALLBACK. -/
def slotFallbackOp (s : State) : State :=
  if s.pwr.state = .off then s
  else
    let s1 := raise s Src.mgtArmedWrite 0xFF 0
    match trialSlot s1 with
    | some k => if s1.pwr.domCore then rollBack s1 k else s1
    | none => s1

def execFwSlotFallback (s : State) : Host.Outcome State Fault Refusal := .next (slotFallbackOp s)

/-- FW_SLOT.REQ = CONFIRM. -/
def slotConfirmOp (s : State) : State :=
  if s.pwr.state = .off then s
  else
    let s1 := raise s Src.mgtArmedWrite 0xFF 0
    match trialSlot s1 with
    | some k => if s1.pwr.domCore then confirmSlot s1 k else s1
    | none => s1

def execFwSlotConfirm (s : State) : Host.Outcome State Fault Refusal := .next (slotConfirmOp s)

/-- FW_ID_CTL.REVERT: the next DEVICE reset restores the factory identity. -/
def revertOp (s : State) : State :=
  if s.pwr.state = .off then s
  else
    let s1 := raise s Src.mgtArmedWrite 0xFF 0
    if s1.pwr.domCore then modFw s1 (fun w => { w with revert := true }) else s1

def execRevert (s : State) : Host.Outcome State Fault Refusal := .next (revertOp s)

/-! ### Handover and settings (R345 to R347) -/

/-- A valid generation in position p: MAGIC and CHECK are right (R344, Table 15.6). -/
def genOf (p : Nat) (b : List Byte) : Option SetGen :=
  let n := leAt b 20 4
  let fl := leAt b 10 2
  if leAt b 0 4 = 0x53544553 ∧ n ≤ 65472 ∧ 64 + n ≤ b.length ∧ leAt b 60 4 = crc32c (b.take 60 ++ (b.drop 64).take n) then
    some { pos := p, gen := word (leAt b 4 4), schema := leAt b 8 2, fromCapsule := fl.testBit 0, migrated := fl.testBit 1,
           parent := word (leAt b 12 4), writer := word (leAt b 16 4) }
  else none

/-- The valid generations: those known, and what the other positions are found to hold. -/
def gensFound (known : List SetGen) (positions : List (List Byte)) : List SetGen :=
  known ++ ((positions.take 64).mapIdx genOf).filterMap (fun x => match x with
    | some g => if known.any (fun k => k.pos == g.pos) then none else some g
    | none => none)

/-- The later of two generations. -/
def laterGen (a : Option SetGen) (b : SetGen) : Option SetGen :=
  match a with
  | none => some b
  | some x => if x.gen.toNat < b.gen.toNat then some b else some x

/-- The highest generation of a list. -/
def topGen (l : List SetGen) : Option SetGen := l.foldl laterGen none

/-- The outcome of R345's scan: the generation found, and whether it is migrated. -/
def scanGens (h : ImageHdr) (l : List SetGen) : Option (SetGen × Bool) :=
  match topGen (l.filter (fun g => decide (g.schema ≤ h.schemaMax))) with
  | none => none
  | some g => if h.schemaMin ≤ g.schema then some (g, false) else if h.migrateMin ≤ g.schema then some (g, true) else none

/-- A position may be erased (R344): it holds neither the highest generation, nor the highest of its schema, nor the one loaded. -/
def erasable (l : List SetGen) (loaded : Word) (g : SetGen) : Bool :=
  decide (topGen l ≠ some g) && decide (topGen (l.filter (fun x => x.schema == g.schema)) ≠ some g) && g.gen != loaded

/-- The generations with one more, in the lowest position that holds none, or in one that may be erased; GEN is one above the highest, and with none present the manual states none (log 194). -/
def addGen (s : State) (l : List SetGen) (loaded : Word) (mk : Nat → Word → SetGen) : List SetGen × SetGen :=
  let n := match topGen l with | some g => g.gen + 1 | none => Config.freeWord s.free
  match (List.range 64).find? (fun p => !l.any (fun g => g.pos == p)) with
  | some p => (l ++ [mk p n], mk p n)
  | none =>
    match l.find? (erasable l loaded) with
    | some x => (l.filter (fun g => g.pos != x.pos) ++ [mk x.pos n], mk x.pos n)
    | none => (l ++ [mk 64 n], mk 64 n)

/-- Restricted service begins (R347). -/
def restrict (s : State) : State :=
  let s1 := raise (modFw s (fun w => { w with restricted := true, unreadable := true })) Src.settingsUnreadable 0xFF 0
  let s2 := (List.range 24).foldl (fun t c => if present t c then chHoldOp t c 2 else t) s1
  let s3 := (List.range 24).foldl (fun t c =>
    if present t c then setFeed t c (fun f => feedFollow { f with holdOff := true }) else t) s2
  setRad (feedPower s3) (fun r => { r with txAllow := false })

/-- The image that takes over examines the settings generations: loaded, migrated into generation G + 1 (R346), or unreadable. A generation found other than the highest is reported. -/
def readSettings (s : State) (h : ImageHdr) (parseOk : Bool) : State :=
  let gens := s.fw.gens
  match scanGens h gens, topGen gens with
  | some (g, migrate), some top =>
    if !parseOk then restrict s
    else
      let s1 := modFw s (fun w => { w with restricted := false, unreadable := false })
      let made := addGen s gens g.gen (fun p n =>
        { pos := p, gen := n, schema := h.schemaMax, fromCapsule := false, migrated := true, parent := g.gen, writer := h.version })
      let s2 :=
        if migrate then modFw s1 (fun w => { w with
          gens := made.1, setGen := made.2.gen, setInfo := BitVec.ofNat 16 h.schemaMax })
        else modFw s1 (fun w => { w with setGen := g.gen, setInfo := BitVec.ofNat 16 g.schema })
      if g.gen = top.gen then s2
      else raise (modFw s2 (fun w => { w with rolledBack := true, rollbackFrom := top.gen })) Src.settingsRolledBack 0xFF 0
  | _, _ => restrict s

/-- The slot that runs starts its confirmation timer at its first handover (R341). -/
def startTimer (w : Fw) (trial : Bool) : Fw :=
  if trial && !w.timerOn then { w with timerOn := true, left := w.confirmCfg } else w

/-- Firmware that takes over receives the registration ID, which nothing else shows (R350). -/
def giveRegId (s : State) : State :=
  match openReg s s.fw.rec_.seq 64 s.fw.rec_.activeReg with
  | some reg => emitOut s (.toFirmware reg)
  | none => s

/-- The boot monitor hands control to the image of the slot it selected; `positions`: what the settings positions hold. -/
def handoverOp (s : State) (positions : List (List Byte)) (parseOk : Bool) : State :=
  let k := bootSel s
  match (fwSlot s k).hdr with
  | none => s
  | some h =>
    if k = 0 ∨ !s.pwr.domCore ∨ s.fw.cp0 ≠ .bootMonitor then s
    else
      let trial := decide ((fwSlot s k).st = .trial)
      let s1 := modFw s (fun w => { startTimer w trial with
        runSlot := k, cp0 := .running, cp1 := .running, noImage := false
        wdgStart := Vector.replicate 2 s.datum
        gens := gensFound w.gens positions })
      endCapsule (readSettings (giveRegId s1) h parseOk)

def execImageHandover (positions : List (List Byte)) (parseOk : Bool) (s : State) : Host.Outcome State Fault Refusal :=
  .next (handoverOp s positions parseOk)

/-! ### Capsules (R353, Table 15.9) -/

/-- A capsule as the boot monitor reads it (Table 15.9); `keys`: those under which its signature verifies (log 194). -/
structure Capsule where
  magicOk  : Bool
  kind     : Nat
  target   : DWord
  seq      : Word
  schema   : Nat
  /-- the buffer holds the body whole -/
  whole    : Bool
  keys     : SigKeys
  body     : List Byte
  deriving DecidableEq, Repr

def capsuleOf (b : List Byte) (keys : SigKeys) : Capsule where
  magicOk := leAt b 0 4 == 0x50534143
  kind := leAt b 4 1
  target := BitVec.ofNat 64 (leAt b 8 8)
  seq := word (leAt b 16 4)
  schema := leAt b 20 2
  whole := decide (512 + leAt b 24 4 ≤ b.length)
  keys := keys
  body := (b.drop 512).take (leAt b 24 4)

/-- The image that runs, or the one about to. -/
def runningHdr (s : State) : Option ImageHdr := (fwSlot s (if s.fw.runSlot = 0 then inactive s else s.fw.runSlot)).hdr

/-- A SETTINGS schema the running image reads. -/
def schemaReadable (s : State) (n : Nat) : Bool :=
  match runningHdr s with
  | none => false
  | some h => decide (h.migrateMin ≤ n) && decide (n ≤ h.schemaMax)

/-- The return a capsule meets, if any; an absent operator key is found before a signature could be (log 64). -/
def capsuleReject (s : State) (c : Capsule) : Option Outcome :=
  let denied (n : Nat) : Option Outcome := some (Outcome.of .retDenied (word n) 0)
  let any_ := c.kind = 1 ∨ c.kind = 3
  if c.kind = 0 ∨ 4 < c.kind then some (Outcome.of .retParam 0 0)
  else if c.kind ≠ 4 ∧ s.fw.rec_.operatorKey.all (fun b => b == 0) then denied 4
  else if !c.magicOk || !c.whole || !(c.keys.operator || (decide (c.kind = 4) && c.keys.dravhar)) then denied 1
  else if c.target ≠ s.glb.unitId ∧ !(any_ ∧ c.target = 0) then denied 2
  else if c.seq.toNat ≤ s.fw.rec_.capsuleSeq.toNat then denied 3
  else if c.kind = 1 ∧ !schemaReadable s c.schema then some (Outcome.of .retParam 0 0)
  else none

/-- The record after a capsule of each kind, whose registration IDs are already sealed for its SEQ. -/
def capsuleRecord (s : State) (c : Capsule) (r : IdRec) : IdRec :=
  let r1 := { r with capsuleSeq := c.seq }
  match c.kind with
  | 2 =>
    { r1 with
      activeSn := BitVec.ofNat 64 (beAt c.body 0 8), activeMac := BitVec.ofNat 48 (beAt c.body 8 6)
      origin := BitVec.ofNat 64 (leAt c.body 14 8), transferred := true
      activeReg := sealReg s r.seq 64 (c.body.drop 22) }
  | 3 => { r1 with profile := BitVec.ofNat 8 (leAt c.body 0 1) }
  | 4 => { r1 with operatorKey := fit 48 c.body }
  | _ => r1

/-- NEXT of a record's PROFILE (R380). -/
def nextOf (profile : Byte) : BitVec 2 := if profile = 1 then 1 else 2

/-- A SETTINGS capsule is written as the next generation by the boot monitor (R353). -/
def capsuleGen (s : State) (c : Capsule) (positions : List (List Byte)) : State :=
  let l := gensFound s.fw.gens positions
  let made := addGen s l s.fw.setGen (fun p n =>
    { pos := p, gen := n, schema := c.schema, fromCapsule := true, migrated := false, parent := Config.freeWord (s.free + 1), writer := 0 })
  modFw (drew (drew s)) (fun w => { w with gens := made.1 })

/-- A capsule takes effect; `positions`: what the settings positions hold. -/
def capsuleApply (s : State) (c : Capsule) (positions : List (List Byte)) : State :=
  let s0 := deriveCapsule s
  let s1 := writeRecord s0 (capsuleRecord s0 c)
  let s2 := if c.kind = 1 then capsuleGen s1 c positions else s1
  let s3 := if c.kind = 3 then modGlb s2 (fun x => { x with next := nextOf (BitVec.ofNat 8 (leAt c.body 0 1)) }) else s2
  raise s3 Src.capsuleApplied 0xFF 0

/-- CAPSULE_APPLY: a firmware restart in which the boot monitor verifies the capsule; its outcome follows the restart. -/
def capsuleOp (s : State) (seq : Word) (res : XferResult) (data : List Byte) (keys : SigKeys) (positions : List (List Byte)) : State :=
  match cmdWork s 0 seq 0x0134 with
  | none => s
  | some w =>
    if w.d.len.toNat < 512 ∨ 2 ^ 20 < w.d.len.toNat then returnWork s 0 seq .retLength
    else
      match readBuffer s w res with
      | .inl t => t
      | .inr s1 =>
        if data.length ≠ w.d.len.toNat then s
        else
          let c := capsuleOf data keys
          match capsuleReject s1 c with
          | some o => fwRestart (returnWith s1 0 seq o)
          | none =>
            let s2 := capsuleApply (beginEmission s1 0 seq (Outcome.of .ok 0 0)) c positions
            let s3 := fwRestart (modFw s2 (fun w => { w with afterRestart := some (seq, Outcome.of .ok 0 0) }))
            if s3.fw.noImage then endCapsule s3 else s3

def execCapsuleApply (seq : Word) (res : XferResult) (cap : CapsuleRead) (positions : List (List Byte)) (s : State) :
    Host.Outcome State Fault Refusal :=
  .next (capsuleOp s seq res cap.data cap.keys positions)

/-! ### Identity (R378 to R380) -/

/-- The active identity of a record in the global registers. -/
def glbIdentity (g : Glb) (copy : BitVec 2) (r : IdRec) : Glb :=
  { g with
    loaded := true, transferred := r.transferred, copy := copy, recBad := false
    sn := r.activeSn, mac := r.activeMac, origin := r.origin }

/-- The valid copy of the higher SEQ (R349): its number, and the record it holds. -/
def pickCopy (a b : List Byte) : BitVec 2 × IdRec :=
  match recGood a, recGood b with
  | false, false => (0, IdRec.blank)
  | true, false => (1, recOf a)
  | false, true => (2, recOf b)
  | true, true => if (recOf a).seq.toNat < (recOf b).seq.toNat then (2, recOf b) else (1, recOf a)

/-- After POWER-ON the profile is fixed before LOADED, and the reset values that depend on it with it (R380, Table 15.8). -/
def fixProfile (s : State) (p : BitVec 2) : State :=
  if s.hif.crs then
    let s1 := modGlb s (fun g => { g with inForce := p, next := p })
    { s1 with
      chans := vmapIdx (fun _ k => { k with pm := { k.pm with sesDtu := sesDefault s1 } }) s1.chans
      pwr := { s1.pwr with idleUs := idleDefault s1 } }
  else s

/-- The boot monitor has read the identity record: the valid copy of the higher SEQ, or none valid. The first reading gives the terminal its record; later ones find what the boot monitor last wrote. -/
def identityOp (s : State) (a b : List Byte) : State :=
  if !s.pwr.domCore || s.glb.loaded then s
  else
    let (copy, x) := if s.fw.recKnown then (s.fw.recCopy, s.fw.rec_) else pickCopy a b
    if copy = 0 then
      let s1 := fixProfile s 2
      modHif (modGlb s1 (fun g => { g with loaded := true, recBad := true })) (fun h => { h with crs := false })
    else
      let s1 := fixProfile (modFw s (fun w => { w with rec_ := x, recCopy := copy, recKnown := true })) (nextOf x.profile)
      modHif (modGlb (deriveCapsule s1) (fun g => glbIdentity g copy x)) (fun h => { h with crs := false })

def execIdentityLoaded (copyA copyB : List Byte) (s : State) : Host.Outcome State Fault Refusal :=
  .next (identityOp s copyA copyB)

end Sys2Proof.Machine
end

