-- ==== Sys2Proof/Machine/Access.lean ====
section
/-! DEFINITION. Which offsets hold a register, 64-bit pairs and their read latches, and the values registers answer while their domain is off (R11, R15, R60, R233, R236, R359). -/

namespace Sys2Proof.Machine

open Sys2Proof

/-- A channel-block offset holds a register (Table 17.13). -/
def chanHolds (o : Nat) : Bool :=
  o ≤ 0x08 || (decide (0x100 ≤ o) && decide (o < 0x128)) || (decide (0x140 ≤ o) && decide (o < 0x154))
    || (decide (0x160 ≤ o) && decide (o < 0x1B4)) || (decide (0x1C0 ≤ o) && decide (o < 0x1E0))
    || (decide (0x200 ≤ o) && decide (o < 0x218)) || (decide (0x220 ≤ o) && decide (o < 0x22C))
    || (decide (0x240 ≤ o) && decide (o < 0x250)) || (decide (0x280 ≤ o) && decide (o < 0x28C))
    || (decide (0x290 ≤ o) && decide (o < 0x2A8)) || (decide (0x300 ≤ o) && decide (o < 0x324))
    || o == 0x360 || (decide (0x380 ≤ o) && decide (o < 0x3C0) && decide (o % 16 < 12))

/-- An offset of the HIF block holds a register on this part (Table 17.6, R376). -/
def hifHolds (s : State) (o : Nat) : Bool :=
  o == 0x04 || o == 0x08 || o == 0x10 || o == 0x14 || o == 0x18 || (decide (0x100 ≤ o) && decide (o < 0x114))
    || (decide (0x1000 ≤ o) && decide (o < 0x1C80) && decide ((o - 0x1000) / 0x80 ≤ s.part.channels))
    || (decide (0x2000 ≤ o) && decide (o < 0x3400) && ringOnPart s ((o - 0x2000) / 0x20))
    || (decide (0x3400 ≤ o) && decide (o < 0x3680) && ringOnPart s ((o - 0x3400) / 4))
    || (decide (0x4000 ≤ o) && decide (o < 0x4400)) || o == 0x4800 || o == 0x4804

/-- An offset of a block other than HIF and the channel blocks holds a register. -/
def blockHolds (b o : Nat) : Bool :=
  match b with
  | 0 => o == 0x00 || o == 0x04 || o == 0x08 || (decide (0x10 ≤ o) && decide (o < 0x34)) || o == 0x40 || o == 0x50 || o == 0x54
  | 2 => o ≤ 0x10
  | 3 => o ≤ 0x1C
  | 4 => o == 0
  | 5 => o ≤ 0x24 || (decide (0x30 ≤ o) && decide (o < 0x4C)) || (decide (0x50 ≤ o) && decide (o < 0x5C))
      || (decide (0x60 ≤ o) && decide (o < 0x70)) || o == 0x200 || o == 0x204
  | 6 => o ≤ 0x04 || (decide (0x10 ≤ o) && decide (o < 0x28)) || o == 0x30 || o == 0x34
      || (decide (0x40 ≤ o) && decide (o < 0x4C)) || (decide (0x50 ≤ o) && decide (o < 0x68)) || o == 0x80 || o == 0x84
      || (decide (0x100 ≤ o) && decide (o < 0x180))
  | 7 => o ≤ 0x18 || (decide (0x100 ≤ o) && decide (o < 0x140) && (decide (o % 0x20 < 0x10) || decide (o % 0x20 = 0x14)))
      || (decide (0x400 ≤ o) && decide (o < 0x500))
  | 8 => o ≤ 0x04 || o == 0x10 || o == 0x14
  | 9 => o ≤ 0x08 || (decide (0x10 ≤ o) && decide (o < 0x2C)) || (decide (0x100 ≤ o) && decide (o < 0x200) && decide (o % 0x20 < 0x14))
      || (decide (0x300 ≤ o) && decide (o < 0x314)) || (decide (0x400 ≤ o) && decide (o < 0x430))
  | 10 => o ≤ 0x14 || (decide (0x20 ≤ o) && decide (o < 0x38))
  | 11 => o == 0x10 || o == 0x20 || (decide (0x40 ≤ o) && decide (o < 0x60)) || (decide (0x100 ≤ o) && decide (o < 0x280))
      || (decide (0x400 ≤ o) && decide (o < 0x600) && decide (o % 16 < 12))
  | 12 => o ≤ 0x14 || o == 0x20 || o == 0x28 || o == 0x2C || o == 0x30 || o == 0x34
  | 13 => o == 0 || (decide (0x10 ≤ o) && decide (o < 0x1C)) || (decide (0x20 ≤ o) && decide (o < 0x2C))
  | _ => false

/-- A PF-view offset holds a register (R11, R373, R376). -/
def holdsReg (s : State) (off : Nat) : Bool :=
  off % 4 == 0 &&
  (if 0x400000 ≤ off then off % 0x1000 < 0x40 || off % 0x1000 == 0x800 || off % 0x1000 == 0x804
   else if 0x100000 ≤ off ∧ off < 0x280000 then present s ((off - 0x100000) / 0x10000) && chanHolds (off % 0x10000)
   else if off / 0x10000 = 1 then hifHolds s (off % 0x10000)
   else blockHolds (off / 0x10000) (off % 0x10000))

/-! ### Pairs (R15) -/

/-- The register is the low half of a 64-bit value; its high half is the next register. -/
def pairLow (off : Nat) : Bool :=
  let o := off % 0x10000
  if 0x100000 ≤ off ∧ off < 0x280000 then
    o == 0x120 || o == 0x284 || (decide (0x380 ≤ o) && decide (o < 0x3C0) && o % 16 == 4)
  else if 0x100000 ≤ off then false
  else
    match off / 0x10000 with
    | 0 => o == 0x10 || o == 0x18 || o == 0x20 || o == 0x28
    | 1 => o == 0x14 || o == 0x100 || (decide (0x1000 ≤ o) && decide (o < 0x1C80) && o % 8 == 0)
        || (decide (0x2000 ≤ o) && decide (o < 0x3400) && o % 0x20 == 0)
    | 2 => o == 0
    | 6 => o == 0x30
    | 7 => o == 0x10
    | 9 => o == 0x14
    | 11 => decide (0x400 ≤ o) && decide (o < 0x600) && o % 16 == 4
    | _ => false

/-- A latch list with one latch set anew. -/
def latchSet (l : List (Nat × Word)) (off : Nat) (v : Word) : List (Nat × Word) := (off, v) :: without l off

/-- The word a register answers: the latched value where its low half was read before, else the value itself; and the latches after the read. -/
def latchRead (l : List (Nat × Word)) (val : Nat → Word) (off : Nat) : Word × List (Nat × Word) :=
  if pairLow off then (val off, latchSet l (off + 4) (val (off + 4)))
  else
    match lookup l off with
    | some v => (v, without l off)
    | none => (val off, l)

/-! ### Asleep values (R60, R359) -/

/-- What a register holds at DEVICE reset: the asleep value of a domain that is off. -/
def asleepImage (s : State) (off : Nat) : Word := readReg (clearDevice s 0) off

/-- A register's value to a reader that wakes nothing. -/
def restingValue (s : State) (off : Nat) : Word := if domOn s (regDomain off) then readReg s off else asleepImage s off

end Sys2Proof.Machine
end

