-- ==== Sys2Proof/Machine/Counters.lean ====
section
/-! DEFINITION. Event counters and soft events (16_management_events.md, R365, R371, R372). -/

namespace Sys2Proof.Machine

open Sys2Proof

/-! ### Soft events -/

/-- EVT_SOFT: bits 31:30 N, bits 29:0 VALUE. -/
def evtSoftOp (s : State) (v : Word) : State := raise s (Src.soft0 + bits v 31 30) 0xFF (word (bits v 29 0))

/-- Firmware raises SOFT_N; a PCIe write acts on nothing. -/
def execEvtSoft (who : Requester) (v : Word) (s : State) : Host.Outcome State Fault Refusal :=
  .next (if isFw who then evtSoftOp s v else s)

/-! ### Configuration (R371) -/

/-- The scopes a source's occurrences can have (R365). -/
def sourceTakes (s : State) (src scope : Nat) : Bool :=
  let chan := present s scope || scope == 0xFD
  if src = 77 then chan || scope == 0xFF
  else if 48 ≤ src ∧ src ≤ 79 then chan
  else if 18 ≤ src ∧ src ≤ 27 then scope == 0xFE
  else if src = 32 then chan || scope == 0xFE
  else if src = 91 then chan || scope == 0xFF
  else decide (src ≤ 95) && scope == 0xFF

/-- A mode a source can take: DURATION is for levels, 3 for none. -/
def modeTakes (src mode : Nat) : Bool := mode == 0 || mode == 2 || (mode == 1 && isLevelSource src)

/-- The counter a selector names. -/
def counterAt (s : State) (k : CntSel) : Counter :=
  match k with
  | .pf i => s.evt.pf[i]
  | .ch c j => s.evt.ch[c][j]

/-- A counter replaced. -/
def setCounter (s : State) (k : CntSel) (x : Counter) : State :=
  match k with
  | .pf i => { s with evt := { s.evt with pf := s.evt.pf.set i x } }
  | .ch c j => { s with evt := { s.evt with ch := s.evt.ch.set c (s.evt.ch[c].set j x) } }

def isPfCounter : CntSel → Bool
  | .pf _ => true
  | .ch _ _ => false

/-- The configuration a write asks for. -/
def cfgOf (v : Word) (k : Counter) : Counter :=
  { k with enable := bitOf v 31, mode := BitVec.ofNat 2 (bits v 30 29), scope := BitVec.ofNat 8 (bits v 15 8),
           source := BitVec.ofNat 7 (bits v 6 0) }

/-- The configuration is one the counter can take. -/
def cfgOk (s : State) (pf : Bool) (n : Counter) : Bool :=
  modeTakes n.source.toNat n.mode.toNat
    && (if pf then sourceTakes s n.source.toNat n.scope.toNat else decide (48 ≤ n.source.toNat) && decide (n.source.toNat ≤ 79))

/-- A counter after a write of its EVT_CNT_CFG: WRAP and BAD cleared by 1; a change is checked and ignored whole with BAD when refused; a change of SOURCE, SCOPE or MODE, and CLR, set the value to 0. -/
def cfgWrite (s : State) (pf : Bool) (v : Word) (k : Counter) : Counter :=
  let n := cfgOf v k
  let renamed := decide (n.mode ≠ k.mode) || decide (n.source ≠ k.source) || (pf && decide (n.scope ≠ k.scope))
  let changed := renamed || decide (n.enable ≠ k.enable)
  if changed && !cfgOk s pf n then { k with bad := true }
  else
    let n1 := { n with wrap := n.wrap && !bitOf v 28, bad := n.bad && !bitOf v 27 }
    let n2 := if changed then { n1 with period := [] } else n1
    if renamed || bitOf v 26 then { n2 with value := 0, period := [] } else n2

/-- The requester reaches a counter: the PF's are reached by the PF and firmware, a channel's by its VF too. -/
def reachesCounter (s : State) (who : Requester) : CntSel → Bool
  | .pf _ => reachesAll who
  | .ch c _ => reachesChan who c.val && present s c.val

def counterCfgOp (s : State) (who : Requester) (k : CntSel) (v : Word) : State :=
  if reachesCounter s who k then setCounter s k (cfgWrite s (isPfCounter k) v (counterAt s k)) else s

def execEventCounterConfig (who : Requester) (k : CntSel) (v : Word) (s : State) : Host.Outcome State Fault Refusal :=
  .next (counterCfgOp s who k v)

/-- CLR alone: the value becomes 0. -/
def execEventCounterClear (who : Requester) (k : CntSel) (s : State) : Host.Outcome State Fault Refusal :=
  .next (if reachesCounter s who k then setCounter s k { counterAt s k with value := 0, period := [] } else s)

/-! ### The datum microsecond (R371, R372) -/

/-- The scopes in which a counter's level source is high now. -/
def highScopes (s : State) (k : Counter) (own : Option Nat) : List Nat :=
  let src := k.source.toNat
  let l := match own with
    | some c => [c]
    | none => if k.scope = 0xFD then (List.range 24).filter (present s) else [k.scope.toNat]
  l.filter (levelHigh s src)

/-- A counter after one datum microsecond. -/
def tickCounter (s : State) (k : Counter) (own : Option Nat) : Counter :=
  if !k.enable || !isLevelSource k.source.toNat then k
  else
    let hi := highScopes s k own
    match k.mode.toNat with
    | 1 =>
      let v := k.value.toNat + hi.length
      { k with value := BitVec.ofNat 48 v, wrap := k.wrap || decide (2 ^ 48 ≤ v) }
    | 2 =>
      let p := hi.map (fun c => (c, (lookup k.period c).getD 0 + 1))
      { k with period := p, value := BitVec.ofNat 48 (min (p.foldl (fun m x => max m x.2) k.value.toNat) (2 ^ 48 - 1)) }
    | _ => k

/-- The counter wraps in this microsecond. -/
def tickWraps (s : State) (k : Counter) (own : Option Nat) : Bool :=
  k.enable && isLevelSource k.source.toNat && k.mode == 1 && decide (2 ^ 48 ≤ k.value.toNat + (highScopes s k own).length)

/-- Every counter after one datum microsecond, and the wraps it brings. -/
def durationTickOp (s : State) : State :=
  let pfWraps := (List.range 32).filterMap (fun i => if tickWraps s (vget s.evt.pf i Counter.reset) none then some (0xFF, i) else none)
  let chWraps := (List.range 24).flatMap (fun c => (List.range 4).filterMap (fun j =>
    if tickWraps s (vget (vget s.evt.ch c (Vector.replicate 4 Counter.reset)) j Counter.reset) (some c) then some (c, 32 + j) else none))
  let e := { s.evt with
    pf := vmapIdx (fun _ k => tickCounter s k none) s.evt.pf
    ch := vmapIdx (fun c l => vmapIdx (fun _ k => tickCounter s k (some c)) l) s.evt.ch }
  (pfWraps ++ chWraps).foldl (fun t w => raise t Src.counterWrap w.1 (word w.2)) { s with evt := e }

def execCounterDurationTick (s : State) : Host.Outcome State Fault Refusal := .next (durationTickOp s)

end Sys2Proof.Machine
end

