-- ==== Sys2Proof/Machine/Signal.lean ====
section
/-! DEFINITION. Line signal processing: the datapath's arithmetic, the per-tone reciprocal, bit loading, and training (06_line_signal.md, R131 to R149). -/

namespace Sys2Proof.Machine

open Sys2Proof

/-! ### Rounding, saturation and multiply-accumulate (R131, R140 to R142) -/

/-- Convergent rounding of k bits, k at least 1. -/
def roundBits (x : Int) (k : Nat) : Int :=
  let y := x / (2 ^ k : Nat)
  let f := x - y * (2 ^ k : Nat)
  let half : Int := (2 ^ (k - 1) : Nat)
  if half < f then y + 1 else if f = half then y + y % 2 else y

/-- Saturation to n-bit two's complement, with the number of saturations. -/
def satBits (x : Int) (n : Nat) : Int × Nat :=
  let hi : Int := (2 ^ (n - 1) : Nat)
  if hi ≤ x then (hi - 1, 1) else if x < -hi then (-hi, 1) else (x, 0)

/-- One term of an accumulation: the exact product reduced to Q3.40, added and clamped at 48 bits (steps 1 to 3). -/
def macTerm (acc : Int × Nat) (t : Int × Int) : Int × Nat :=
  let r := satBits (acc.1 + roundBits (t.1 * t.2) 5) 48
  (r.1, acc.2 + r.2)

/-- Accumulator to Q1.15 after a shift of SH (steps 4 and 5). -/
def macEnd (acc : Int × Nat) (sh : Nat) : Int × Nat :=
  let a := satBits (acc.1 * (2 ^ sh : Nat)) 48
  let b := satBits (roundBits a.1 25) 16
  (b.1, acc.2 + a.2 + b.2)

/-- A multiply-accumulate over raw samples (Q1.15) and coefficients (Q2.30): result and saturations (R140). -/
def mac (ts : List (Int × Int)) (sh : Nat) : Int × Nat := macEnd (ts.foldl macTerm (0, 0)) sh

/-- A complex product: real and imaginary part with the saturations of both accumulators (R140). -/
def complexMac (a c : Int × Int) (sh : Nat) : Int × Int × Nat :=
  let re := mac [(a.1, c.1), (-a.2, c.2)] sh
  let im := mac [(a.1, c.2), (a.2, c.1)] sh
  (re.1, im.1, re.2 + im.2)

/-- One output of a transform stage (R141). -/
def stageOut (x : Int) : Int × Nat := satBits (roundBits x 1) 16

/-- The DAC's 14 bits of a Q1.15 sample, and the Q1.15 sample of an ADC result (R131). -/
def dacOut (x : Int) : Int × Nat := satBits (roundBits x 2) 14
def adcIn (x : Int) : Int := x * 4

/-! ### Per-tone reciprocal (R143) -/

/-- One quotient step of the restoring division: remainder and quotient after bit i. -/
def divStep (dn : Nat) (p : Nat × Nat) (i : Nat) : Nat × Nat :=
  if dn ≤ p.1 then ((p.1 - dn) * 2, p.2 + 2 ^ i) else (p.1 * 2, p.2)

/-- 2⁶⁰ / d' by 31 quotient steps, one guard step and convergent rounding. -/
def reciprocal (dn : Nat) : Nat :=
  let p := (List.range 31).reverse.foldl (divStep dn) (2 ^ 30, 0)
  if dn ≤ p.1 then (if p.1 - dn ≠ 0 ∨ p.2 % 2 = 1 then p.2 + 1 else p.2) else p.2

/-- The smallest e with d × 2ᵉ ≥ 2³⁰, for d of at least 4. -/
def normShift (d : Nat) : Nat := ((List.range 29).find? (fun e => decide (2 ^ 30 ≤ d * 2 ^ e))).getD 28

/-- d = a² + b² of a channel estimate. -/
def toneD (h : ToneH) : Nat := (signed h.1.toNat 16 * signed h.1.toNat 16 + signed h.2.toNat 16 * signed h.2.toNat 16).toNat

/-- The tone is dead. -/
def toneDead (h : ToneH) : Bool := decide (toneD h < 4)

/-- The FEQ coefficient of a tone, with its saturations. -/
def feqCoeff (h : ToneH) : Feq × Nat :=
  let d := toneD h
  if d < 4 then ({ re := 0, im := 0, sh := 0 }, 0)
  else
    let e := normShift d
    let q : Int := reciprocal (d * 2 ^ e)
    let part (x : Int) : Int × Nat := satBits (roundBits (x * q * (2 ^ (e / 2) : Nat)) 15) 32
    let re := part (signed h.1.toNat 16)
    let im := part (-(signed h.2.toNat 16))
    ({ re := BitVec.ofInt 32 re.1, im := BitVec.ofInt 32 im.1, sh := e - e / 2 }, re.2 + im.2)

/-! ### Bit loading (R133, R144, R145, Table 06.5) -/

/-- TH_b in 0.1 dB. -/
def threshold (b : Nat) : Nat :=
  ([0, 98, 146, 183, 216, 247, 278, 308, 339, 369, 399, 429, 459, 489, 519][b]?).getD 0

/-- The largest b up to MAX_BPT a tone's SNR carries. -/
def toneBits (l : LineSect) (snr : Nat) : Nat :=
  ((List.range 15).filter (fun b => decide (b ≤ l.maxBpt) && (b == 0 || decide (threshold b + l.marginTgt + l.fextRes ≤ snr)))).foldl max 0

/-- One tone's table entry; `deadAt` marks tones the estimate found dead. -/
def loadTone (l : LineSect) (deadAt : Nat → Bool) (snrs : List Nat) (t : Nat) : Tone :=
  let snr := (snrs[t]?).getD 0
  let off := !tonePlanned l t || deadAt t
  { bits := if off then 0 else toneBits l snr, snr := snr, dead := off }

/-- A direction's table of 4,096 tones before caps. -/
def loadTones (l : LineSect) (deadAt : Nat → Bool) (snrs : List Nat) : List Tone :=
  (List.range 4096).map (loadTone l deadAt snrs)

/-- Net data rate in bit/s of B bits over S slots. -/
def ndr (b slots : Nat) : Int := ((b * slots * 2000 * 224 / 240 : Nat) : Int) - 1024000

/-- The bits left when single bits are removed until a cap in kbit/s holds. -/
def capBits (slots cap : Nat) : Nat → Nat → Nat
  | 0, b => b
  | n + 1, b => if ((cap * 1000 : Nat) : Int) < ndr b slots then capBits slots cap n (b - 1) else b

/-- MAX_RATE of a direction: 0 is no cap. -/
def capDir (slots cap b : Nat) : Nat := if cap = 0 then b else capBits slots cap b b

/-- The aggregate cap: bits leave the direction with the higher NDR, the downstream when equal. -/
def capBoth (sd su : Nat) : Nat → Nat × Nat → Nat × Nat
  | 0, p => p
  | n + 1, p =>
    if 3600000000 < ndr p.1 sd + ndr p.2 su then
      capBoth sd su n (if ndr p.1 sd < ndr p.2 su then (p.1, p.2 - 1) else (p.1 - 1, p.2))
    else p

/-- n bits removed from a table read from its highest tone down. -/
def trimDown : Nat → List Tone → List Tone
  | _, [] => []
  | n, t :: ts => { t with bits := t.bits - n } :: trimDown (n - t.bits) ts

/-- A table whose highest loaded tones have given up the bits above a sum. -/
def trimTo (b : Nat) (ts : List Tone) : List Tone := (trimDown (toneSum ts - b) ts.reverse).reverse

/-- Loading of both directions under R145. The terminal has no estimate of the downstream tones, which the peer receives: none of them is treated as dead, and each is loaded by the SNR the peer measured (DESIGN CHOICE, log 181). -/
def loadLine (l : Line) (ds us : List Nat) : Line :=
  let x := lineSect l
  let td := loadTones x (fun _ => false) ds
  let tu := loadTones x (fun t => match l.feq[t]? with | none => false | some f => f.re == 0 && f.im == 0) us
  let bd := capDir (slotsDs l) x.maxDs (toneSum td)
  let bu := capDir (slotsUs l) x.maxUs (toneSum tu)
  let p := capBoth (slotsDs l) (slotsUs l) (bd + bu) (bd, bu)
  { l with tonesDs := trimTo p.1 td, tonesUs := trimTo p.2 tu }

/-- A direction carries its tributaries at G coded bits per frame (R156). -/
def carries (g : Nat) (tribs : Vector Trib 4) : Bool :=
  let n := total (tribs.toList.map (fun t => if t.enable then t.n else 0))
  decide (64 + 4 * n ≤ 224 * (g / 1920))

/-- RATE_LOW: an NDR below its MIN_RATE, or tributaries not carried (R145, R156). -/
def rateLow (l : Line) : Bool :=
  let x := lineSect l
  let bd := toneSum l.tonesDs
  let bu := toneSum l.tonesUs
  decide (ndr bd (slotsDs l) < ((x.minDs * 1000 : Nat) : Int)) || decide (ndr bu (slotsUs l) < ((x.minUs * 1000 : Nat) : Int))
    || !carries (bd * slotsDs l) l.latTrib || !carries (bu * slotsUs l) l.latTrib

/-- The ECONOMY loading of each direction carries its tributaries (R151). -/
def econCarries (l : Line) : Bool :=
  carries (econSum l.tonesDs * slotsDs l) l.latTrib && carries (econSum l.tonesUs * slotsUs l) l.latTrib

/-! ### Training (Table 06.6) -/

/-- A training phase begins. -/
def toPhase (s : State) (c p : Nat) : State :=
  setLine s c (fun l => { l with phase := BitVec.ofNat 4 p, frames := 0 })

/-- HANDSHAKE begins: the message carries notches, PSD_CAP and TONE_HI. -/
def beginHandshake (s : State) (c : Nat) : State :=
  let x := lineSect (chanAt s c).line
  emitOut (toPhase s c 1) (.handshake c x.psdCap x.toneHi ((x.notches.filter (fun n => n.enable)).map (fun n => (n.start, n.stop))))

/-- The receive gain and the FEQ of every tone; P1 counts none of its saturations (R143, Table 15.8). -/
def takeEstimate (s : State) (c gain : Nat) (h : List ToneH) : State :=
  let fs := h.map feqCoeff
  let sats := if isP1 s then 0 else total (fs.map (fun f => f.2))
  setLine s c (fun l => { l with rxGain := BitVec.ofNat 8 gain, feq := fs.map (fun f => f.1), sat := l.sat + word sats })

/-- Training completes: rates, ECONOMY capacities, framer and queues as SERVICE entry sets them (R154, R161, R204, R207). -/
def goService (s : State) (c : Nat) : State :=
  let l := (chanAt s c).line
  let nd := (ndr (toneSum l.tonesDs) (slotsDs l)).toNat
  let nu := (ndr (toneSum l.tonesUs) (slotsUs l)).toNat
  let run := total ((List.range 4).map (fun i =>
    flagAt ((vget l.latTrib i Trib.off).enable && !(chanAt s c).fr.conflict.getLsbD i) i))
  let s1 := setLine s c (fun l => { l with
    phase := 15
    frames := 0
    rateDs := word (nd / 1000)
    rateUs := word (nu / 1000)
    ndrDsSvc := nd / 1000
    ndrUsSvc := nu / 1000
    econDs := (ndr (econSum l.tonesDs) (slotsDs l)).toNat
    econUs := (ndr (econSum l.tonesUs) (slotsUs l)).toNat })
  let s2 := setFr s1 c (fun f => { f with
    nextSeq := 0, lastSeqPrev := 0xFFFF, lastSeqCur := 0xFFFF, running := BitVec.ofNat 4 run })
  let s3 := setQs s2 c (fun q => { q with
    deficit := Vector.replicate 16 0
    credit := vmapIdx (fun i x => if (qdescAt (chanAt s c) i).shape then creditCap (qdescAt (chanAt s c) i) else x) q.credit })
  setChSt (setTab s3 c (fun t => { t with trainFails := 0 })) c .service

/-- A training phase ends (Table 06.6, R148). -/
def phaseEnd (s : State) (c : Nat) (r : PhaseResult) : State :=
  let l := (chanAt s c).line
  if (chanAt s c).tab.state ≠ .train then s
  else
    match l.phase.toNat, r with
    | 0, .done => beginHandshake s c
    | 1, .noAnswer | 1, .silent => failTraining s c 1
    | 2, .timing rt => if 6000 < rt then failTraining s c 2 else toPhase s c 3
    | 2, .noAnswer | 2, .silent => failTraining s c 3
    | 3, .estimate gain h => toPhase (takeEstimate s c gain h) c 4
    | 3, .noAnswer | 3, .silent => failTraining s c 3
    | 4, .snr ds us => toPhase (setLine s c (fun l => loadLine l ds us)) c 5
    | 4, .noAnswer | 4, .silent => failTraining s c 3
    | 5, .exchanged acked =>
      if rateLow l then failTraining s c 4 else if acked then toPhase s c 6 else failTraining s c 5
    | 5, .noAnswer | 5, .silent => if rateLow l then failTraining s c 4 else failTraining s c 5
    | 6, .done => goService s c
    | 6, .noAnswer | 6, .silent => failTraining s c 3
    | _, _ => s

def execTrainingPhaseEnd (c : Ch) (r : PhaseResult) (s : State) : Host.Outcome State Fault Refusal :=
  .next (phaseEnd s c.val r)

/-- The peer's HANDSHAKE answer: its identity, and HALTED where it is not the expected one (R98, R148). -/
def handshakeOp (s : State) (c : Nat) (id : DWord) : State :=
  let k := chanAt s c
  if k.tab.state ≠ .train ∨ k.line.phase ≠ 1 then s
  else
    let s1 := setLine s c (fun l => { l with peer := id })
    if k.line.latPeer ≠ 0 ∧ k.line.latPeer ≠ id then enterHalted s1 c 3 else toPhase s1 c 2

/-- An answer whose CRC fails is no valid answer. -/
def execHandshakeAnswer (c : Ch) (crcOk : Bool) (id : DWord) (s : State) : Host.Outcome State Fault Refusal :=
  .next (if crcOk then handshakeOp s c.val id else s)

/-! ### Margin (R147) -/

/-- s_t less the threshold of the tone's loading, over the loaded tones in use. -/
def margins (l : Line) (ts : List Tone) : List Int :=
  (ts.zipIdx).filterMap (fun p => if p.1.bits = 0 || !toneInUse l p.2 then none else some ((p.1.snr : Int) - threshold p.1.bits))

/-- The least element of a nonempty list. -/
def leastOf : List Int → Option Int
  | [] => none
  | a :: t => match leastOf t with | none => some a | some b => some (min a b)

/-- A table with new SNR values. -/
def withSnr (ts : List Tone) (snrs : List Nat) : List Tone :=
  (ts.zipIdx).map (fun p => { p.1 with snr := (snrs[p.2]?).getD p.1.snr })

/-- The upstream margin after 64 frames. -/
def marginOp (l : Line) (snrs : List Nat) : Line :=
  let ts := withSnr l.tonesUs snrs
  match leastOf (margins l ts) with
  | none => { l with tonesUs := ts }
  | some m => { l with tonesUs := ts, marginUs := BitVec.ofInt 16 m }

def execMarginUpdate (c : Ch) (snrUs : List Nat) (s : State) : Host.Outcome State Fault Refusal :=
  .next (if serving s c.val then setLine s c.val (fun l => marginOp l snrUs) else s)

/-! ### The transform and the symbols (R131, R133, R134, R141) -/

/-- Rounded values with their saturations summed. -/
def satList (l : List (Int × Nat)) : List Int × Nat := (l.map (fun x => x.1), total (l.map (fun x => x.2)))

/-- One stage of the transform: its 8,192 complex outputs, each shifted, rounded and saturated. -/
def transformStage (inverse : Bool) (p : List Int × Nat) (i : Nat) : List Int × Nat :=
  let r := satList (((Config.stageSums inverse i p.1 ++ List.replicate 16384 0).take 16384).map stageOut)
  (r.1, p.2 + r.2)

/-- The 13 stages, with their saturations (R141). Real and imaginary parts alternate. -/
def transform (inverse : Bool) (x : List Int) : List Int × Nat := (List.range 13).foldl (transformStage inverse) (x, 0)

/-- A point of a complex list. -/
def complexAt (x : List Int) (i : Nat) : Int × Int := ((x[2 * i]?).getD 0, (x[2 * i + 1]?).getD 0)

/-- The 8,192 points of a real signal with the given tones. -/
def spectrum (tone : Nat → Int × Int) : List Int :=
  (List.range 8192).flatMap (fun i =>
    if i = 0 ∨ i = 4096 then [0, 0]
    else if i < 4096 then [(tone i).1, (tone i).2]
    else [(tone (8192 - i)).1, -(tone (8192 - i)).2])

/-- A tone's point in Q1.15. -/
def pointOf (psdCap : Nat) (tones : List (Nat × Nat × Nat)) (t : Nat) : Int × Int :=
  match tones.find? (fun x => x.1 == t) with
  | none => (0, 0)
  | some x => let p := Config.point psdCap x.2.1 x.2.2; (signed p.1.toNat 16, signed p.2.toNat 16)

/-- Saturations counted in LN_SAT: in P1 those of R140 alone (R142, Table 15.8). -/
def countSat (s : State) (c multiply other : Nat) : State :=
  setLine s c (fun l => { l with sat := l.sat + word (multiply + (if isP1 s then 0 else other)) })

/-- Symbol slot k leaves: each tone with its number of bits and its label; the windowed samples through the DAC (R131, R134). -/
def sendSymbol (s : State) (c k : Nat) (tones : List (Nat × Nat × Nat)) : State :=
  let l := (chanAt s c).line
  let x := transform true (spectrum (pointOf (lineSect l).psdCap tones))
  let sym := (List.range 8192).map (fun i => (complexAt x.1 i).1)
  let dac := satList ((List.range 8640).map (fun i => dacOut (signed (Config.windowed l.lastSymbol sym i).toNat 16)))
  emitOut (countSat (setLine s c (fun l => { l with lastSymbol := sym })) c 0 (x.2 + dac.2))
    (.slot c k (tones.map (fun x => (x.1, x.2.2))) (dac.1.map (BitVec.ofInt 14)))

/-- The tones that carry energy downstream. -/
def sendTones (k : Chan) : List Nat := (List.range 4096).filter (carriesEnergy k)

/-- The sync symbol in slot 0 (R135). -/
def sendSync (s : State) (c : Nat) : State := sendSymbol s c 0 ((sendTones (chanAt s c)).map (fun t => (t, 2, Config.syncLabel t)))

/-- Data slots that carry a training phase's 4-QAM: slots 1 to 8 in HANDSHAKE, every downstream slot after it (Table 06.6; log 180). -/
def trainSlots (l : Line) : Nat := if l.phase = 1 then min 8 (slotsDs l) else slotsDs l

/-- The symbols of a training frame: nothing in QUIET (Table 06.6). -/
def sendTraining (s : State) (c : Nat) : State :=
  let k := chanAt s c
  if k.line.phase = 0 then s
  else
    ((List.range (trainSlots k.line)).map (· + 1)).foldl (fun t i =>
      sendSymbol t c i ((sendTones k).map (fun x => (x, 2, Config.trainLabel k.line.phase.toNat i x)))) (sendSync s c)

/-- The receive samples of slot k: zeros while DRV_EN is high (R131, R132). -/
def receiveSamples (k : Chan) (slot : Nat) (adc : List (BitVec 14)) : List Int :=
  (adc.zipIdx).map (fun p =>
    if drvUsed k && drvHigh k.line (31250 * slot + 3125 * p.2 / 864) then 0 else adcIn (signed p.1.toNat 14))

/-- A received tone is equalised: it is loaded and in use, or the training measures it with its coefficient (R140, R149). -/
def equalised (k : Chan) (t : Nat) : Bool :=
  match k.tab.state with
  | .service | .economy => toneInUse k.line t && (match k.line.tonesUs[t]? with | some x => decide (x.bits ≠ 0) | none => false)
  | .train => decide (4 ≤ k.line.phase.toNat) && decide (k.line.phase.toNat ≤ 6) && tonePlanned (lineSect k.line) t
  | _ => false

/-- One received tone through its FEQ coefficient (R140, R143). -/
def equalise (l : Line) (x : List Int) (t : Nat) : Int × Int × Nat :=
  match l.feq[t]? with
  | none => (0, 0, 0)
  | some f => complexMac (complexAt x t) (signed f.re.toNat 32, signed f.im.toNat 32) f.sh

/-- One received symbol: the window from sample 384, the transform and the equaliser, with their saturations (R134, R140, R141). -/
def receiveSymbol (k : Chan) (slot : Nat) (adc : List (BitVec 14)) : Nat × Nat :=
  let x := transform false ((((receiveSamples k slot adc).drop 384).take 8192).flatMap (fun v => [v, 0]))
  (total (((List.range 4096).filter (equalised k)).map (fun t => (equalise k.line x.1 t).2.2)), x.2)

/-- The upstream symbols of the frame that ends. -/
def takeSamples (s : State) (c : Nat) (adc : List (List (BitVec 14))) : State :=
  let k := chanAt s c
  let r := ((adc.take (slotsUs k.line)).zipIdx).map (fun p => receiveSymbol k (k.line.latMds + 2 + p.2) p.1)
  countSat s c (total (r.map (fun x => x.1))) (total (r.map (fun x => x.2)))

end Sys2Proof.Machine
end

