-- ==== Sys2Proof/Machine/Framing.lean ====
section
/-! DEFINITION. Line framing: the overhead channel, DTUs and retransmission, tributaries, defects, ECONOMY and the work of a TDD frame boundary (06_line_signal.md R135 to R139, R150 to R153; 07_line_framing.md R154 to R173). -/

namespace Sys2Proof.Machine

open Sys2Proof

/-! ### The coded stream downstream (R154, R155) -/

/-- Whole messages of 224 bytes become codewords; the rest waits. The first argument bounds their number. -/
def encodeReady : Nat → List Byte → List Byte × List Byte
  | 0, b => ([], b)
  | n + 1, b =>
    if b.length < 224 then ([], b)
    else
      let p := encodeReady n (b.drop 224)
      (rsCodeword 16 (b.take 224) ++ p.1, p.2)

/-- Coded bits on the loaded tones in use, ascending, most significant bit first: tone, number of bits and label. -/
def toneLabels (l : Line) : Nat → List Tone → List Bool → List (Nat × Nat × Nat)
  | _, [], _ => []
  | t, x :: r, b =>
    if x.bits = 0 ∨ !toneInUse l t then toneLabels l (t + 1) r b
    else (t, x.bits, ofBits (b.take x.bits)) :: toneLabels l (t + 1) r (b.drop x.bits)

/-- Data slots whose coded bits are all known leave in slot order. -/
def sendSlots (c : Nat) : Nat → State → State
  | 0, s => s
  | n + 1, s =>
    let k := chanAt s c
    if k.fr.bitsTx = 0 ∨ k.fr.coded.length < k.fr.bitsTx ∨ slotsDs k.line < k.fr.slotTx then s
    else
      let s1 := setFr s c (fun f => { f with coded := f.coded.drop f.bitsTx, slotTx := f.slotTx + 1 })
      sendSlots c n (sendSymbol s1 c k.fr.slotTx (toneLabels k.line 0 k.line.tonesDs (k.fr.coded.take k.fr.bitsTx)))

/-- Information bytes go through the RS encoder into the data slots. -/
def pump (s : State) (c : Nat) : State :=
  let f := (chanAt s c).fr
  let p := encodeReady (f.infoTx.length / 224) f.infoTx
  sendSlots c 46 (setFr s c (fun f => { f with coded := f.coded ++ bitsMsb p.1, infoTx := p.2 }))

/-- A closed DTU enters the present frame's DTU region; what does not fit begins the next one (R155). -/
def putDtu (s : State) (c : Nat) (b : List Byte) : State :=
  let n := min b.length (chanAt s c).fr.regionLeft
  pump (emitOut (setFr s c (fun f => { f with
    infoTx := f.infoTx ++ b.take n
    dtuCarry := f.dtuCarry ++ b.drop n
    regionLeft := f.regionLeft - n
    dtuClosed := true })) (.dtu c b)) c

/-! ### DTUs (R159 to R161) -/

/-- A DTU with its CRC. -/
def dtuBytes (seq : Half) (type flags : Nat) (payload : List Byte) : List Byte :=
  let b := bytesBE 2 seq.toNat ++ bytesLE 1 type ++ bytesLE 1 flags ++ payload ++ zeros (dtuPayload - payload.length)
  b ++ bytesBE 4 (crc32c b)

/-- A stored DTU as its retransmitted copy. -/
def rtxCopy (b : List Byte) : List Byte :=
  let x := b.take 3 ++ [1] ++ (b.drop 4).take dtuPayload
  x ++ bytesBE 4 (crc32c x)

/-- The medium instants of the frames whose first byte lies in the open DTU, were it to close now: the first sample of the slot that carries that byte (R230, Table 10.4). -/
def startStamps (k : Chan) : List (FrameSrc × Nat × Nat) :=
  k.fr.openStarts.map (fun x => (x.1, x.2.1, slotInstant k (slotOfStream k (4 + x.2.2))))

/-- The instant among them of one frame. -/
def stampOf (st : List (FrameSrc × Nat × Nat)) (p : FrameSrc × Nat → Bool) : Option Nat :=
  (st.find? (fun x => p (x.1, x.2.1))).map (fun x => x.2.2)

/-- A frame in progress takes the medium timestamp of its first byte. -/
def stampFrame (st : List (FrameSrc × Nat × Nat)) (valid : Bool) (f : Frame) : Frame :=
  match f.ts, stampOf st (fun x => decide (x.1 = f.src) && x.2 == f.id) with
  | none, some t => { f with ts := some (t, valid) }
  | _, _ => f

/-- The frames whose last byte is in the closing DTU: their transmissions end, with the timestamp of a frame that begins in it too. -/
def endEmissions (s : State) (r : RingNo) (st : List (FrameSrc × Nat × Nat)) : State :=
  ((ringAt s r.val).work.filter (fun w => decide (w.stage = .emitted))).foldl
    (fun t w => endEmission t r.val w.seq (fun o =>
      match stampOf st (fun x => decide (x.1 = .work r w.seq)) with
      | some i => if w.d.flags.getLsbD 1 then { o with ts := some (i, s.time.valid) } else o
      | none => o)) s

/-- A retransmission is due at the head of the present frame's DTU region. -/
def rtxDue (f : Framer) : Option Half :=
  match f.rtxQueue with
  | (q, at_) :: _ => if decide ((f.frameCnt - BitVec.ofNat 16 at_).toNat < 2 ^ 15) then some q else none
  | [] => none

/-- The DTU the store holds under a SEQ. -/
def heldDtu (f : Framer) (q : Half) : Option TxDtu := f.txStore.find? (fun d => d.seq == q)

/-- A new data DTU closes with the bytes that wait. -/
def closeData (s : State) (c : Nat) : State :=
  let k := chanAt s c
  let st := startStamps k
  let b := dtuBytes k.fr.nextSeq 1 0 k.fr.openDtu
  let s0 := st.foldl (fun t x => ptpClose t c x.2.1 x.2.2) s
  let s1 := endEmissions (endEmissions s0 (Fin.ofNat 160 (chRing c 0)) st) (Fin.ofNat 160 (chRing c 1)) st
  let s2 := setQs s1 c (fun q => { q with cur := q.cur.map (stampFrame st s.time.valid) })
  let s3 := setFr s2 c (fun f => { f with
    txStore := f.txStore ++ [{ seq := f.nextSeq, bytes := b, at_ := s.datum }]
    lastSeqCur := f.nextSeq
    nextSeq := f.nextSeq + 1
    openDtu := []
    openStarts := [] })
  placeAll (putDtu s3 c b) c

/-- Bytes of the present frame's DTU region have not been filled: a DTU's first byte can enter the encoder. -/
def mayClose (f : Framer) : Bool := f.frameAt.isSome && decide (0 < f.regionLeft)

/-- A DTU closes as its first byte enters the encoder: a due retransmission, waiting bytes, or IDLE (R161, R163). -/
def dtuCloseOp (s0 : State) (c : Nat) : State :=
  if !mayClose (chanAt s0 c).fr then s0
  else
    let s := placeAll s0 c
    let f := (chanAt s c).fr
    match rtxDue f with
    | some q =>
      let s1 := setFr s c (fun f => { f with rtxQueue := f.rtxQueue.tail })
      match heldDtu f q with
      | some d => putDtu (setPm s1 c (fun p => { p with rtx := p.rtx + 1 })) c (rtxCopy d.bytes)
      | none => s1
    | none =>
      if f.openDtu = [] then putDtu s c (dtuBytes f.nextSeq 0 0 []) else closeData s c

def execDtuClose (c : Ch) (s : State) : Host.Outcome State Fault Refusal :=
  .next (if serving s c.val then dtuCloseOp s c.val else s)

/-- The DTUs that the frame that ends still needs: each closed by the boundary at the latest (DESIGN CHOICE, log 183). The first argument bounds their number. -/
def closeDue (c : Nat) : Nat → State → State
  | 0, s => s
  | n + 1, s => if mayClose (chanAt s c).fr then closeDue c n (dtuCloseOp s c) else s

/-- Closings enough for a frame. -/
def closeRest (s : State) (c : Nat) : State :=
  let f := (chanAt s c).fr
  closeDue c (f.regionLeft / 448 + 1 + f.rtxQueue.length) s

/-! ### Segments and reassembly (R160, R164) -/

/-- A segment: FIRST, LAST and its bytes. -/
structure Seg where
  first : Bool
  last  : Bool
  data  : List Byte
  /-- the place of its first byte in the payload -/
  at_   : Nat
  deriving DecidableEq, Repr

/-- The segments of a payload; one that would cross its DTU ends the list. -/
def segments : Nat → Nat → List Byte → List Seg
  | 0, _, _ => []
  | n + 1, o, b =>
    let h := beAt b 0 2
    let len := h % 16384
    if b.length < 3 ∨ len = 0 ∨ b.length < 2 + len then []
    else { first := h.testBit 15, last := h.testBit 14, data := (b.drop 2).take len, at_ := o + 2 } :: segments n (o + 2 + len) (b.drop (2 + len))

/-- A frame broken by a loss is followed by its next piece: counted once (R164; log 31). -/
def brokenPiece (s : State) (c : Nat) (last : Bool) : State :=
  let s1 := if (chanAt s c).fr.partial_.isNone then countLineDiscard s c else s
  setFr s1 c (fun f => { f with broken := !last, partial_ := if last then none else some ([], 0) })

/-- One segment joins the frame in progress; a LAST one releases the frame to the frame MAC. -/
def takeSeg (c : Nat) (slots : List Nat) (s : State) (g : Seg) : State :=
  let f := (chanAt s c).fr
  let slot := (slots[g.at_]?).getD 0
  if g.first then
    let s0 := if f.partial_.isSome && !f.broken then countLineDiscard s c else s
    if g.last then macReceive (setFr s0 c (fun f => { f with partial_ := none, broken := false })) c g.data slot
    else setFr s0 c (fun f => { f with partial_ := some (g.data, slot), broken := false })
  else if f.broken then brokenPiece s c g.last
  else
    match f.partial_ with
    | none => brokenPiece s c g.last
    | some (b, rx) =>
      if g.last then macReceive (setFr s c (fun f => { f with partial_ := none })) c (b ++ g.data) rx
      else setFr s c (fun f => { f with partial_ := some (b ++ g.data, rx) })

/-- A released DTU's segments. -/
def releaseDtu (c : Nat) (s : State) (d : RxDtu) : State := (segments 147 0 d.payload).foldl (takeSeg c d.slots) s

/-- DTUs in order that no missing SEQ precedes, and the rest. -/
def releasable (f : Framer) : List RxDtu × List RxDtu :=
  match f.missing with
  | [] => (f.held, [])
  | m :: _ => (f.held.filter (fun d => precedes16 d.seq m.seq), f.held.filter (fun d => !precedes16 d.seq m.seq))

/-- Release strictly in SEQ order (R164). -/
def releaseAll (s : State) (c : Nat) : State :=
  let p := releasable (chanAt s c).fr
  p.1.foldl (releaseDtu c) (setFr s c (fun f => { f with held := p.2 }))

/-! ### Reception and missing SEQs (R159, R162) -/

/-- The highest good SEQ so far; the first new DTU carries 0. -/
def highSeq (f : Framer) : Half := f.rxHigh.getD 0xFFFF

/-- The k SEQs after h. -/
def seqsAfter (h : Half) (k : Nat) : List Half := (List.range k).map (fun i => h + BitVec.ofNat 16 (i + 1))

/-- SEQs after h up to q are found missing. -/
def findMissing (q : Half) (f : Framer) : Framer :=
  let d := (q - highSeq f).toNat
  if 1 ≤ d ∧ d ≤ 4096 then
    { f with rxHigh := some q, missing := f.missing ++ (seqsAfter (highSeq f) d).map (fun x => { seq := x, age := 0 }) }
  else f

/-- A DTU joins those held, in SEQ order. -/
def insertDtu (d : RxDtu) : List RxDtu → List RxDtu
  | [] => [d]
  | x :: t => if precedes16 d.seq x.seq then d :: x :: t else x :: insertDtu d t

/-- A good data DTU: new beyond h, a missing one recovered, or a duplicate. -/
def takeData (d : RxDtu) (f : Framer) : Framer :=
  let k := (d.seq - highSeq f).toNat
  if 1 ≤ k ∧ k ≤ 4096 then
    let f1 := findMissing (d.seq - 1) f
    { f1 with rxHigh := some d.seq, held := insertDtu d f1.held }
  else if f.missing.any (fun m => m.seq == d.seq) then
    { f with missing := f.missing.filter (fun m => m.seq != d.seq), held := insertDtu d f.held }
  else f

/-- CRC and TYPE are good. -/
def dtuGood (b : List Byte) : Bool :=
  b.length == 448 && beAt b 444 4 == crc32c (b.take 444) && decide (beAt b 2 1 ≤ 1)

/-- A SEQ more than 4,096 beyond h in serial order. -/
def farOff (f : Framer) (q : Half) : Bool :=
  let d := (q - highSeq f).toNat
  decide (4096 < d) && decide (d < 2 ^ 15)

def countErrDtu (s : State) (c : Nat) : State :=
  raiseC (setFr s c (fun f => { f with errDtu := f.errDtu + 1 })) Src.errDtu c 1

/-- A DTU received: an error in any codeword under it makes it errored (R159, R162, R164). -/
def dtuReceivedOp (s : State) (c : Nat) (x : List RxByte) : State :=
  let b := x.map (fun y => y.byte)
  let q : Half := BitVec.ofNat 16 (beAt b 0 2)
  let idle := decide (beAt b 2 1 = 0)
  if x.any (fun y => y.bad) || !dtuGood b || farOff (chanAt s c).fr q then countErrDtu s c
  else if idle then setFr s c (findMissing (q - 1))
  else
    releaseAll (setFr s c (takeData
      { seq := q, payload := (b.drop 4).take dtuPayload, slots := ((x.drop 4).take dtuPayload).map (fun y => y.slot) })) c

/-- The next 448 bytes of the received DTU stream (R155). -/
def nextDtu (s : State) (c : Nat) : State :=
  let x := (chanAt s c).fr.rxStream
  if x.length < 448 then s else dtuReceivedOp (setFr s c (fun f => { f with rxStream := f.rxStream.drop 448 })) c (x.take 448)

/-- The DTU that a received stream holds next is the one a command names: its bytes, whether one of its codewords was uncorrectable, and the instant of the slot that carried its first byte (log 204). -/
def dtuNamed (x : List RxByte) (bytes : List Byte) (uncorr : Bool) (slotTime : Nat) : Bool :=
  (x.take 448).map (fun y => y.byte) == bytes && (x.take 448).any (fun y => y.bad) == uncorr
    && (x.take 1).map (fun y => y.slot) == [slotTime]

def execDtuReceived (c : Ch) (bytes : List Byte) (uncorr : Bool) (slotTime : Nat) (s : State) : Host.Outcome State Fault Refusal :=
  .next (if serving s c.val && dtuNamed (chanAt s c.val).fr.rxStream bytes uncorr slotTime then nextDtu s c.val else s)

/-- The oldest missing SEQ at its 8th boundary after the one that found it (R164). -/
def lostDue (f : Framer) (q : Half) : Bool :=
  match f.missing with
  | [] => false
  | m :: _ => m.seq == q && decide (9 ≤ m.age)

/-- A SEQ is declared lost: its frames are discarded and release continues past it (R164). -/
def dtuLostOp (s : State) (c : Nat) (q : Half) : State :=
  if !lostDue (chanAt s c).fr q then s
  else
    let s0 := if (chanAt s c).fr.partial_.isSome && !(chanAt s c).fr.broken then countLineDiscard s c else s
    let s1 := setFr s0 c (fun f => { f with
      missing := f.missing.tail
      uncorrDtu := f.uncorrDtu + 1
      lostPrev := f.lostPrev + 1
      partial_ := if f.partial_.isSome then some ([], 0) else none
      broken := true })
    let s2 := raiseC (setPm s1 c (fun p => { p with uncorr := p.uncorr + 1 })) Src.uncorrDtu c 1
    releaseAll s2 c

def execDtuLost (c : Ch) (seq : Half) (s : State) : Host.Outcome State Fault Refusal :=
  .next (if serving s c.val then dtuLostOp s c.val seq else s)

/-! ### The overhead channel (R157, R158, R162, R163) -/

/-- CRC-16/CCITT (Table 11.7). -/
def crc16 (b : List Byte) : Nat := b.foldl crc16Byte 0xFFFF

/-- Missing SEQs merged into ranges of at most 1,024, oldest first. -/
def nackRanges : List Half → List (Half × Nat)
  | [] => []
  | q :: t =>
    match nackRanges t with
    | (x, n) :: r => if x = q + 1 ∧ n < 1024 then (q, n + 1) :: r else (q, 1) :: (x, n) :: r
    | [] => [(q, 1)]

/-- Bytes of the frames in a downstream queue, as the light test counts them: none in a queue whose pause timer runs (R197). -/
def lightBytes (k : Chan) (p : Nat) : Nat :=
  if (vget k.qs.obey p none).isSome then 0 else total ((vget k.qs.q p []).map (fun f => f.bytes.length))

/-- Downstream queues hold at most one frame's worth of the ECONOMY capacity (R150). -/
def lightHere (k : Chan) : Bool := decide (total ((List.range 8).map (lightBytes k)) * 8 * 2000 ≤ k.line.econDs)

/-- Missing SEQs that are not lost: one at its 8th boundary is lost there (R162, R164). -/
def requested (f : Framer) : List Half := (f.missing.filter (fun m => decide (m.age ≤ 8))).map (fun m => m.seq)

/-- The downstream overhead of the present frame, with ECONOMY requests made in it. -/
def overheadBytes (k : Chan) (req leave : Bool) (eoc : List Byte) : List Byte :=
  let f := k.fr
  let n := (nackRanges (requested f)).take 6
  let b := bytesBE 2 f.frameCnt.toNat
    ++ bytesLE 1 (flagAt req 7 + flagAt leave 6 + flagAt (lightHere k) 4 + flagAt (f.los || f.lof) 3)
    ++ bytesLE 1 n.length ++ n.flatMap (fun r => bytesBE 2 r.1.toNat ++ bytesBE 2 r.2) ++ zeros (24 - 4 * n.length)
    ++ bytesBE 2 f.lastSeqPrev.toNat ++ zeros 2 ++ bytesBE 2 f.lostPrev ++ zeros 2
    ++ fit 16 eoc ++ zeros 10
  b ++ bytesBE 2 (crc16 b)

/-- A retransmission request queued in frame and SEQ order. -/
def insertRtx (x : Half × Nat) : List (Half × Nat) → List (Half × Nat)
  | [] => [x]
  | y :: t =>
    if (x.2 = y.2 ∧ precedes16 x.1 y.1) ∨ precedes16 (BitVec.ofNat 16 x.2) (BitVec.ofNat 16 y.2) then x :: y :: t
    else y :: insertRtx x t

/-- One requested SEQ: served in frame f + 2 while held, else counted in RTX_MISS (R163). -/
def serveNack (c fcnt : Nat) (s : State) (q : Half) : State :=
  let f := (chanAt s c).fr
  match heldDtu f q with
  | some d =>
    if s.datum ≤ d.at_ + 4 * msUnit then
      if f.rtxQueue.any (fun x => x.1 == q && x.2 == (fcnt + 2) % 65536) then s
      else setFr s c (fun f => { f with rtxQueue := insertRtx (q, (fcnt + 2) % 65536) f.rtxQueue })
    else raiseC (setFr s c (fun f => { f with rtxMiss := f.rtxMiss + 1 })) Src.rtxMiss c 1
  | none => raiseC (setFr s c (fun f => { f with rtxMiss := f.rtxMiss + 1 })) Src.rtxMiss c 1

/-- The SEQs a valid overhead requests; a range whose COUNT lies outside 1 to 1,024 is ignored (log 29). -/
def nackSeqs (b : List Byte) : List Half :=
  (List.range (min 6 (beAt b 3 1))).flatMap (fun i =>
    let n := beAt b (6 + 4 * i) 2
    if 1 ≤ n ∧ n ≤ 1024 then (List.range n).map (fun j => BitVec.ofNat 16 (beAt b (4 + 4 * i) 2 + j)) else [])

/-- An ECONOMY entry acknowledged in the upstream of the frame that requested it (R152). -/
def takeAck (fcnt : Half) (k : Chan) : Chan :=
  match k.line.econChg.entry with
  | some (_, left) =>
    if left ≤ 2 ∧ fcnt = k.fr.frameCnt - BitVec.ofNat 16 (2 - left) then
      { k with line := { k.line with econChg := { k.line.econChg with entry := some (true, left) } } }
    else k
  | none => k

/-- A valid overhead's state: defects, margin, LIGHT, FE_LOST, EOC. -/
def takeOverhead (b : List Byte) (k : Chan) : Chan :=
  let fl := beAt b 2 1
  let k1 := if fl.testBit 5 then takeAck (BitVec.ofNat 16 (beAt b 0 2)) k else k
  { k1 with
    line := { k1.line with lightPeer := fl.testBit 4, marginDs := BitVec.ofNat 16 (beAt b 30 2) }
    fr := findMissing (BitVec.ofNat 16 (beAt b 28 2)) { k1.fr with
      crcFails := 0
      crcGoods := k1.fr.crcGoods + 1
      lof := k1.fr.lof && decide (k1.fr.crcGoods + 1 < 4)
      feRdi := fl.testBit 3
      eocRx := (b.drop 36).take 16 }
    pm := { k1.pm with cur := { k1.pm.cur with
      feLost := k1.pm.cur.feLost + beAt b 32 2, feRdi := k1.pm.cur.feRdi || fl.testBit 3 } } }

/-- CHECK failed: ignored whole and counted; LOF after four (R158, R171). -/
def badOverhead (s : State) (c : Nat) : State :=
  let f := (chanAt s c).fr
  let rise := !f.lof && decide (4 ≤ f.crcFails + 1)
  let s1 := setFr s c (fun f => { f with ohCrc := f.ohCrc + 1, crcFails := f.crcFails + 1, crcGoods := 0, lof := f.lof || rise })
  let s2 := raiseC (setPm s1 c (fun p => { p with ohCrc := p.ohCrc + 1 })) Src.ohCrc c 1
  if rise then raise s2 Src.lof c 0 else s2

/-- CHECK holds. -/
def checkOk (b : List Byte) : Bool := b.length == 64 && beAt b 62 2 == crc16 (b.take 62)

def overheadOp (s : State) (c : Nat) (b : List Byte) : State :=
  if !checkOk b then badOverhead s c
  else
    let rise := !(chanAt s c).fr.feRdi && (beAt b 2 1).testBit 3
    let s1 := emitOut (setChan s c (takeOverhead b)) (.toFirmware ((b.drop 36).take 16))
    let s2 := if rise then raise s1 Src.feRdi c 0 else s1
    (nackSeqs b).foldl (serveNack c (beAt b 0 2)) s2

/-! ### The coded stream upstream (R154, R155) -/

/-- A received codeword's message: its bytes, corrected or as received, each with whether the codeword was uncorrectable; and whether it was corrected. -/
def decodeWord (w : List Byte) : List (Byte × Bool) × Bool :=
  match rsDecode 16 w with
  | some (m, fixed) => (m.map (fun b => (b, false)), fixed)
  | none => ((fit 224 w).map (fun b => (b, true)), false)

/-- The codeword at a place of a frame: one that did not come is uncorrectable. -/
def wordAt (words : List (List Byte)) (i : Nat) : List (Byte × Bool) × Bool :=
  match words[i]? with
  | some w => if w.length = 240 then decodeWord w else ((fit 224 w).map (fun b => (b, true)), false)
  | none => ((zeros 224).map (fun b => (b, true)), false)

/-- The instant of the slot that carries information byte i of an upstream frame with a boundary and bits per symbol. -/
def rxSlot (k : Chan) (at_ bpt i : Nat) : Nat :=
  let bit := infoBit k.fr.leftRx i
  let g := bpt * slotsUs k.line
  let first := k.line.latMds + 2
  if bit < g then at_ + slotOffset (first + bit / bpt) else at_ + frameUnit + slotOffset (first + (bit - g) / k.fr.bitsRx)

/-- A frame's information bytes with their slots. -/
def rxBytes (k : Chan) (at_ bpt : Nat) (info : List (Byte × Bool)) : List RxByte :=
  (info.zipIdx).map (fun p => { byte := p.1.1, slot := rxSlot k at_ bpt p.2, bad := p.1.2 })

/-- The codewords of the upstream frame that ended last: counted, then its overhead, its tributary bytes and its DTU region (R154, R155, R168). -/
def receiveFrame (s : State) (c : Nat) (words : List (List Byte)) : State :=
  let k := chanAt s c
  match k.fr.prevRx with
  | none => s
  | some (at_, bpt) =>
    let g := bpt * slotsUs k.line
    let ws := (List.range (ownCodewords g k.fr.leftRx)).map (wordAt words)
    let b := rxBytes k at_ bpt (ws.flatMap (fun w => w.1))
    let o := tribOffset k.line.latTrib 4
    let s1 := setPm s c (fun p => { p with
      cwFixed := p.cwFixed + ws.countP (fun w => w.2)
      cwBad := p.cwBad + ws.countP (fun w => w.1.any (fun x => x.2)) })
    let s2 := setFr s1 c (fun f => { f with
      prevRx := none
      leftRx := leftAfter g f.leftRx
      rxStream := f.rxStream ++ b.drop o
      rxTribs := some ((b.drop 64).take (o - 64)) })
    overheadOp s2 c ((b.take 64).map (fun y => y.byte))

def execOverheadReceived (c : Ch) (codewords : List (List Byte)) (s : State) : Host.Outcome State Fault Refusal :=
  .next (if serving s c.val then receiveFrame s c.val codewords else s)

/-! ### PCM highways (R166, R167, R403) -/

/-- The timeslots of a TS_MASK: the tributary's m-th is the (m + 1)-th lowest set bit. -/
def timeslots (mask : Word) : List Nat := (List.range 32).filter (fun i => mask.getLsbD i)

/-- The byte of a timeslot in PCM frame s of a highway's line frame. -/
def pcmByte (bits : List Bool) (s ts : Nat) : Byte := BitVec.ofNat 8 (ofBits ((bits.drop (256 * s + 8 * ts)).take 8))

/-- A PCM tributary's bytes as sampled, in the order of their positions. -/
def pcmBlock (t : Trib) (hwys : List (List Bool)) : List Byte :=
  (List.range 4).flatMap (fun s => (timeslots t.mask).map (pcmByte ((hwys[t.hwy]?).getD []) s))

/-- The bits a tributary's block of bytes drives on its timeslots. -/
def pcmLevels (t : Trib) (b : List Byte) : List (Nat × Bool) :=
  (List.range 4).flatMap (fun s => ((timeslots t.mask).zipIdx).flatMap (fun p =>
    (List.range 8).map (fun i => (256 * s + 8 * p.1 + i, ((b[t.n * s + p.2]?).getD t.idle).getMsbD i))))

/-! ### Tributaries (R167 to R170) -/

/-- 4n IDLE bytes. -/
def idleBytes (t : Trib) : List Byte := List.replicate (4 * t.n) t.idle

/-- A block whose work no longer stands, or not before emission where the journal has no entry, is not used. -/
inductive BlockUse where
  | drop | wait | use
  deriving DecidableEq, Repr

/-- What the transmit block at the head may do (R67, R97). -/
def blockUse (s : State) (r : Nat) (seq : Word) : BlockUse :=
  match findWork (ringAt s r) seq with
  | none => .drop
  | some w =>
    if w.stage = .emitted then .use
    else if (workOpen s r seq).isNone then .drop
    else if journalRoom s then .use else .wait

/-- LEN and results of a transmit block (R169). -/
def blockOutcome (s : State) (r : Nat) (seq : Word) : Outcome :=
  { Outcome.of .ok 0 0 with len := match findWork (ringAt s r) seq with | some w => w.d.len | none => 0 }

/-- Bytes for the next frame from the posted transmit blocks: some, or none when no block is ready. -/
def assembleRing (c i n : Nat) : Nat → State → State × Option (List Byte)
  | 0, s => (s, none)
  | fuel + 1, s =>
    let r := chRing c 5
    match vget (chanAt s c).fr.tribTx i [] with
    | [] => (s, none)
    | (seq, b) :: t =>
      match blockUse s r seq with
      | .drop => assembleRing c i n fuel (setFr s c (fun f => { f with tribTx := vset f.tribTx i t }))
      | .wait => (s, none)
      | .use =>
        let s1 := match findWork (ringAt s r) seq with
          | some w => if w.stage = .emitted then s else beginEmission s (Fin.ofNat 160 r) seq (blockOutcome s r seq)
          | none => s
        let rest := b.drop n
        let s2 := setFr s1 c (fun f => { f with tribTx := vset f.tribTx i (if rest = [] then t else (seq, rest) :: t) })
        (if rest = [] then endEmission s2 r seq id else s2, some (b.take n))

/-- A slip counted. -/
def countSlip (s : State) (c i : Nat) (tx : Bool) : State :=
  raiseC (setFr s c (fun f =>
    if tx then { f with txSlip := vset f.txSlip i (vget f.txSlip i 0 + 1) }
    else { f with rxSlip := vset f.rxSlip i (vget f.rxSlip i 0 + 1) })) Src.tribSlip c 1

/-- Tributary i carries its endpoint. -/
def tribRuns (k : Chan) (i : Nat) : Bool := k.fr.running.getLsbD i

/-- Tributary i's bytes of the frame that begins. -/
def tribBytes (k : Chan) (i : Nat) : List Byte :=
  let t := vget k.line.latTrib i Trib.off
  if t.enable then fit (4 * t.n) ((vget k.fr.tribNext i none).getD (idleBytes t)) else []

/-- The bytes of the next frame are assembled (R167, R169). -/
def tribAssemble (s : State) (c i : Nat) (pcmIn : List (List Bool)) : State :=
  let k := chanAt s c
  let t := vget k.line.latTrib i Trib.off
  let put (u : State) (b : List Byte) : State := setFr u c (fun f => { f with tribNext := vset f.tribNext i (some b) })
  if !tribRuns k i then put s (idleBytes t)
  else if t.ring then
    match assembleRing c i (4 * t.n) 64 s with
    | (s2, some b) => put s2 b
    | (s2, none) => put (countSlip s2 c i true) (idleBytes t)
  else put s (pcmBlock t pcmIn)

/-- The receive block a delivery goes to: the one in progress while its work is open, else the next posted one for the tributary. -/
def receiveBlock (s : State) (c i : Nat) : Option (Word × List Byte) :=
  let r := chRing c 5
  if !mayMaster s (ringOwner s r) then none
  else
    let posted := ((ringAt s r).work.find? (fun w => isRxTrib r w && decide (w.stage = .queued) && w.ret.isNone && decide (bits w.d.p0 1 0 = i))).map
      (fun w => (w.seq, []))
    match vget (chanAt s c).fr.tribRx i none with
    | some x => if (workOpen s r x.1).isSome then some x else posted
    | none => posted

/-- A delivery into a receive block; a full block completes. -/
def fillBlock (s : State) (c i : Nat) (x : Word × List Byte) (data : List Byte) : State :=
  let r := chRing c 5
  match findWork (ringAt s r) x.1 with
  | none => s
  | some w =>
    let b := x.2 ++ data
    let first := if x.2 = [] then (chanAt s c).fr.frameCnt - 2 else vget (chanAt s c).fr.tribRxFirst i 0
    let s1 := sendWrite s (ringOwner s r) (w.d.addr.toNat + x.2.length) data
    if w.d.len.toNat ≤ b.length then
      returnWith (setFr s1 c (fun f => { f with tribRx := vset f.tribRx i none })) r x.1
        { status := .ok, len := word b.length, res0 := word first.toNat, res1 := 0, ts := none }
    else setFr s1 c (fun f => { f with
      tribRx := vset f.tribRx i (some (x.1, b)), tribRxFirst := vset f.tribRxFirst i first })

/-- The received bytes of frame f - 2 reach their endpoint (R167 to R169). Of a frame that was never received nothing moves, and a PCM endpoint drives IDLE (log 184). -/
def tribDeliver (s : State) (c i : Nat) : State :=
  let k := chanAt s c
  let t := vget k.line.latTrib i Trib.off
  match k.fr.rxTribs with
  | none => if tribRuns k i && !t.ring then emitOut s (.pcm t.hwy (pcmLevels t (idleBytes t))) else s
  | some x =>
    let b := (x.drop (tribOffset k.line.latTrib i - 64)).take (4 * t.n)
    let data := b.map (fun y => y.byte)
    let s1 := if b.any (fun y => y.bad) then
        raiseC (setFr s c (fun f => { f with tribErr := vset f.tribErr i (vget f.tribErr i 0 + 1) })) Src.tribErr c 1
      else s
    if !tribRuns k i then s1
    else if t.ring then
      match receiveBlock s1 c i with
      | some x => fillBlock s1 c i x data
      | none => countSlip s1 c i false
    else emitOut s1 (.pcm t.hwy (pcmLevels t data))

/-- One tributary at a boundary in SERVICE or ECONOMY. -/
def tribFrame (c : Nat) (pcmIn : List (List Bool)) (s : State) (i : Nat) : State :=
  if (vget (chanAt s c).line.latTrib i Trib.off).enable then tribDeliver (tribAssemble s c i pcmIn) c i else s

/-- One tributary at a boundary outside SERVICE and ECONOMY: IDLE on its claimed timeslots, and TRIB_IDLE (R168). -/
def tribIdleFrame (c : Nat) (s : State) (i : Nat) : State :=
  let k := chanAt s c
  let t := vget k.line.latTrib i Trib.off
  if !t.enable then s
  else
    let s1 := setPm s c (fun p => { p with tribIdle := p.tribIdle + 1 })
    if (vget k.fr.claims i none).isSome then emitOut s1 (.pcm t.hwy (pcmLevels t (idleBytes t))) else s1

/-! ### TRIB_BLOCK (R169) -/

/-- The status a TRIB_BLOCK is returned with; none: it is used. -/
def blockStatus (s : State) (c : Nat) (w : Work) : Option Status :=
  let k := chanAt s c
  let t := vget k.line.latTrib (bits w.d.p0 1 0) Trib.off
  let unit := 4 * t.n
  if !serving s c && !w.d.flags.getLsbD 2 then some .retNoPath
  else if !t.enable || !t.ring then some .retParam
  else if w.d.len.toNat % unit ≠ 0 ∨ w.d.len.toNat < unit ∨ 64 * unit < w.d.len.toNat then some .retLength
  else none

/-- An earlier transmit block of the ring is still unread: blocks are used in ring order. -/
def earlierBlock (s : State) (r : Nat) (w : Work) : Bool :=
  (ringAt s r).work.any (fun x => precedes x.seq w.seq && decide (x.stage = .accepted) && x.ret.isNone
    && (journalOf s r x.seq).isNone && !x.d.flags.getLsbD 2)

/-- A block's buffer is checked against the windows as one transfer; a transmit block is read, a receive block posted (R56, R62, R169). -/
def tribBlockOp (s : State) (r : RingNo) (seq : Word) (res : XferResult) (data : List Byte) : State :=
  match workOpen s r.val seq with
  | none => s
  | some w =>
    if w.d.opcode.toNat ≠ 4 ∨ !isTribRing r.val ∨ w.stage ≠ .accepted ∨ (ringAt s r.val).state = .recovering then s
    else
      let c := (r.val - 16) / 6
      let rx := w.d.flags.getLsbD 2
      let i := bits w.d.p0 1 0
      let addr := w.d.addr.toNat
      match blockStatus s c w with
      | some st => returnWork s r.val seq st
      | none =>
        if !inWindows s (ringOwner s r.val) rx addr w.d.len.toNat then
          returnWork (ringWindowFault s r.val addr) r.val seq .retWindow
        else if rx then setWork s r.val seq (fun x => { x with stage := .queued })
        else if !mayMaster s (ringOwner s r.val) || earlierBlock s r.val w then s
        else
          let s1 := sendRead s (ringOwner s r.val) addr w.d.len.toNat
          if res = .ok then
            if data.length ≠ w.d.len.toNat then s
            else setFr (setWork s1 r.val seq (fun x => { x with stage := .queued })) c (fun f => { f with
              tribTx := vset f.tribTx i (vget f.tribTx i [] ++ [(seq, data)]) })
          else
            let s2 := latchFault (setRing s1 r.val (fun g => { g with dmaErr := true })) (xferKind res) r.val (ringOwner s r.val) addr
            returnWork s2 r.val seq .retDma

def execTribBlock (r : RingNo) (seq : Word) (res : XferResult) (data : List Byte) (s : State) : Host.Outcome State Fault Refusal :=
  .next (tribBlockOp s r seq res data)

/-! ### ECONOMY (R150 to R152) -/

/-- The frame at this boundary is light. -/
def lightFrame (k : Chan) : Bool := lightHere k && k.line.lightPeer

/-- The switch to ECONOMY. -/
def goEconomy (s : State) (c : Nat) : State :=
  let s1 := setLine s c (fun l => { l with
    econ := true, econTimer := none, rateDs := word (l.econDs / 1000), rateUs := word (l.econUs / 1000) })
  raise (setChSt s1 c .economy) Src.econChange c 0

/-- The switch back to the full tone plan. -/
def leaveEconomy (s : State) (c : Nat) : State :=
  let s1 := setLine s c (fun l => { l with econ := false, rateDs := word l.ndrDsSvc, rateUs := word l.ndrUsSvc })
  raise (setChSt s1 c .service) Src.econChange c 0

/-- A pending entry at a boundary: one frame nearer, or switched where the peer acknowledged. -/
def econEntry (s : State) (c : Nat) : State :=
  match (chanAt s c).line.econChg.entry with
  | some (acked, 1) =>
    let s1 := setLine s c (fun l => { l with econChg := { l.econChg with entry := none }, econTimer := some s.datum })
    if acked && decide ((chanAt s c).tab.state = .service) then goEconomy s1 c else s1
  | some (acked, 2) => setLine s c (fun l => { l with econChg := { l.econChg with entry := some (acked, 1) } })
  | _ => s

/-- A pending exit at a boundary. -/
def econLeave (s : State) (c : Nat) : State :=
  match (chanAt s c).line.econChg.leave with
  | some 1 =>
    let s1 := setLine s c (fun l => { l with econChg := { l.econChg with leave := none } })
    if (chanAt s c).tab.state = .economy then leaveEconomy s1 c else s1
  | some _ => setLine s c (fun l => { l with econChg := { l.econChg with leave := some 1 } })
  | none => s

/-- An exit is requested at this boundary. -/
def wantsLeave (k : Chan) : Bool :=
  (!lightFrame k || !k.tab.econEn) && k.line.econChg.leave.isNone
    && (decide (k.tab.state = .economy) || (match k.line.econChg.entry with | some (_, n) => decide (n ≤ 2) | none => false))

/-- An entry waiting for its request goes out at this boundary, unless an exit condition meets it. -/
def wantsEntry (k : Chan) : Bool :=
  lightFrame k && k.tab.econEn && (match k.line.econChg.entry with | some (_, n) => decide (n = 3) | none => false)

/-- The idle timer and the requests as this boundary leaves them. -/
def econRequests (now : Nat) (k : Chan) : Line :=
  let l := k.line
  let e := match l.econChg.entry with
    | some (_, 3) => if wantsEntry k then some (false, 2) else none
    | x => x
  let timer := if decide (k.tab.state = .service) && k.tab.econEn && lightFrame k then some (l.econTimer.getD now) else none
  { l with econTimer := timer, econChg := { entry := e, leave := if wantsLeave k then some 2 else l.econChg.leave } }

/-- ECONOMY at a boundary: the due switches. -/
def econSwitch (s : State) (c : Nat) : State := econLeave (econEntry s c) c

/-- The idle timer expires: entry to be requested at the next boundary, or ECON_BLOCKED (R151). -/
def econExpiry (s : State) (c : Nat) : State :=
  let k := chanAt s c
  if k.tab.state ≠ .service ∨ !k.tab.econEn ∨ k.line.econTimer.isNone ∨ !lightFrame k ∨ k.line.econChg.entry.isSome then s
  else if econCarries k.line then setLine s c (fun l => { l with econChg := { l.econChg with entry := some (false, 3) } })
  else setLine s c (fun l => { l with econBlock := true, econTimer := some s.datum })

def execEconomyIdleTimerExpiry (c : Ch) (s : State) : Host.Outcome State Fault Refusal := .next (econExpiry s c.val)

/-! ### The frame boundary (R135, R139, R164, R171, R173) -/

/-- LOS at a boundary: set at 20 dB, cleared after 4 frames within 17 dB. -/
def losStep (drop : Nat) (f : Framer) : Framer :=
  if 20 ≤ drop then { f with los := true, losClean := 0 }
  else if drop ≤ 17 then { f with losClean := f.losClean + 1, los := f.los && decide (f.losClean + 1 < 4) }
  else { f with losClean := 0 }

/-- Per-frame counters of the framer: FRAME_CNT, ages, the run of defective boundaries, and DTUs no longer held. -/
def frameStep (now phase : Nat) (f : Framer) : Framer :=
  { f with
    frameCnt := BitVec.ofNat 16 (frameCount now phase)
    lastSeqPrev := f.lastSeqCur
    missing := f.missing.map (fun m => { m with age := m.age + 1 })
    badRun := if f.los || f.lof || f.feRdi then f.badRun + 1 else 0
    txStore := f.txStore.filter (fun d => decide (now ≤ d.at_ + 4 * msUnit) || f.rtxQueue.any (fun x => x.1 == d.seq)) }

/-- The second's tallies at a boundary (R173). -/
def pmFrame (s : State) (c : Nat) : State :=
  let k := chanAt s c
  let on := serving s c
  setPm s c (fun p => { p with
    monitored := p.monitored && decide (effTarget s c = .service)
    outside := p.outside || !on
    losLof := p.losLof || (on && (k.fr.los || k.fr.lof)) })

/-- The operations bytes of a frame: firmware's, and zeros while no control processor serves (log 142). -/
def eocFor (s : State) (rx : FrameRx) : List Byte := if cpServes s then rx.eoc else zeros 16

/-- A frame begins: requests made in its overhead, then overhead, tributary bytes and what the last DTU left over, in the order of R155, and the sync symbol. -/
def beginFrame (s : State) (c : Nat) (rx : FrameRx) : State :=
  let k := chanAt s c
  let oh := overheadBytes k (wantsEntry k) (wantsLeave k) (eocFor s rx)
  let t := (List.range 4).flatMap (tribBytes k)
  let bits := useBits k.line.econ k.line.tonesDs
  let left := k.fr.coded.length
  let size := dtuRegion k.line.latTrib (bits * slotsDs k.line) left
  let carry := min k.fr.dtuCarry.length size
  let s1 := setFr (setLine s c (fun _ => econRequests s.datum k)) c (fun f => { f with
    frameAt := some (s.datum - sinceEdge s frameUnit (k.line.latPhase * nsUnit))
    bitsTx := bits
    bitsRx := useBits k.line.econ k.line.tonesUs
    leftTx := left
    regionSize := size
    regionLeft := size - carry
    dtuClosed := false
    infoTx := f.infoTx ++ oh ++ t ++ f.dtuCarry.take carry
    dtuCarry := f.dtuCarry.drop carry
    slotTx := 1
    prevRx := f.frameAt.map (fun a => (a, f.bitsRx))
    lostPrev := 0 })
  pump (sendSync (emitOut s1 (.overhead c oh)) c) c

/-- The frame that ends, if one ran: the DTUs it still needs close, and the upstream frame before it that was never received counts as uncorrectable throughout. -/
def endFrame (s : State) (c : Nat) (rx : FrameRx) : State := receiveFrame (closeRest (takeSamples s c rx.adc) c) c []

/-- A boundary of a channel in SERVICE or ECONOMY. -/
def serviceBoundary (s : State) (c : Nat) (rx : FrameRx) : State :=
  let s0 := endFrame s c rx
  let before := (chanAt s0 c).fr.los
  let s1 := setChan s0 c (fun k => { k with fr := frameStep s.datum k.line.latPhase (losStep rx.dropDb k.fr) })
  let s2 := if !before && (chanAt s1 c).fr.los then raise s1 Src.los c 0 else s1
  let s3 := beginFrame (econSwitch s2 c) c rx
  let s4 := (List.range 4).foldl (tribFrame c rx.pcmIn) s3
  setFr s4 c (fun f => { f with rxTribs := none })

/-- READY to TRAIN: target SERVICE, feed off or established, and 1.00 s since the last failure (Table 04.3). -/
def mayTrain (s : State) (c : Nat) : Bool :=
  let k := chanAt s c
  decide (k.tab.state = .ready) && decide (effTarget s c = .service) && (!k.feed.cfg.enable || feedEstablished k.feed)
    && (match k.tab.failAt with | none => true | some t => decide (t + secUnit ≤ s.datum))

/-- A step of the datum reaches channel c at this boundary (R139). -/
def steppedHere (s : State) (c : Nat) : Bool := s.time.stepped.getLsbD c

def clearStepped (s : State) (c : Nat) : State :=
  { s with time := { s.time with stepped := s.time.stepped &&& ~~~(BitVec.ofNat 24 (2 ^ c)) } }

/-- TDD_PHASE of a channel's frames: latched while it trains or serves, TDD_CFG's before (R95, R138). -/
def framePhase (s : State) (c : Nat) : Nat :=
  let k := chanAt s c
  match k.tab.state with
  | .train | .service | .economy => k.line.latPhase
  | _ => s.time.tddPhase.toNat

/-- A boundary of a channel in TRAIN: the frame that ends was received, and the phase's symbols leave in the one that begins. -/
def trainBoundary (s : State) (c : Nat) (rx : FrameRx) : State :=
  sendTraining (setLine (takeSamples s c rx.adc) c (fun l => { l with frames := l.frames + 1 })) c

def boundaryOp (s0 : State) (c : Nat) (rx : FrameRx) : State :=
  let s := clearStepped s0 c
  let st := (chanAt s c).tab.state
  let s1 :=
    if serving s c then
      if steppedHere s0 c then lossOfLineOp s c else serviceBoundary s c rx
    else if st = .train then
      if steppedHere s0 c then failTraining s c 6 else trainBoundary s c rx
    else if mayTrain s c then goTrain s c
    else s
  let s2 := if serving s c then s1 else (List.range 4).foldl (tribIdleFrame c) s1
  pmFrame s2 c

/-- A frame boundary: a datum instant with (N − TDD_PHASE) mod 500,000 = 0 (R135; log 165). -/
def execTddFrameBoundary (c : Ch) (rx : FrameRx) (s : State) : Host.Outcome State Fault Refusal :=
  .next (if present s c.val && atEdge s frameUnit (framePhase s c.val * nsUnit) then boundaryOp s c.val rx else s)

end Sys2Proof.Machine
end

