-- ==== Sys2Proof/Machine/Mgmt.lean ====
section
/-! DEFINITION. The Ahnair management port: select periods, headers, data words and armed writes (16_management_events.md, R356 to R364; R405). The port works in every power state except OFF. -/

namespace Sys2Proof.Machine

open Sys2Proof

def modMgt (s : State) (f : Mgt → Mgt) : State := { s with mgt := f s.mgt }

/-! ### Errors (R363) -/

/-- An error condition of the port, by its bit of MGT_STATUS. -/
inductive PortErr where
  | partial_ | opc | arm | wr | addr | asleep
  deriving DecidableEq, Repr

/-- Its place in the report of the next status word. -/
def PortErr.report : PortErr → BitVec 6
  | .partial_ => 32 | .opc => 16 | .arm => 8 | .wr => 4 | .addr => 2 | .asleep => 1

/-- Its sticky copy in MGT_STATUS. -/
def Mgt.sticky (m : Mgt) : PortErr → Bool
  | .partial_ => m.partial_ | .opc => m.opcErr | .arm => m.armErr | .wr => m.wrDenied | .addr => m.addrErr | .asleep => m.asleep

def Mgt.setSticky (m : Mgt) : PortErr → Mgt
  | .partial_ => { m with partial_ := true }
  | .opc => { m with opcErr := true }
  | .arm => { m with armErr := true }
  | .wr => { m with wrDenied := true }
  | .addr => { m with addrErr := true }
  | .asleep => { m with asleep := true }

/-- A condition arises: it is reported in the next header's status word, and a bit that newly sets in MGT_STATUS raises MGT_ERROR. -/
def portErr (s : State) (e : PortErr) : State :=
  let s1 := modMgt s (fun m => { m.setSticky e with errs := m.errs ||| e.report })
  if s.mgt.sticky e then s1 else raise s1 Src.mgtError 0xFF 0

/-! ### Select periods (R356, R362, R363, R405) -/

/-- The port answers (R356). -/
def portLive (s : State) : Bool := decide (s.pwr.state ≠ .off)

/-- AHN_CS_N falls after a high level of highNs: a high level shorter than 20 ns has ended no select period; one shorter than 100 ns makes the first status word all ones. -/
def selectFallOp (s : State) (sck : Bool) (highNs : Nat) : State :=
  if !portLive s || s.mgt.selected || decide (highNs < 20) then s
  else modMgt s (fun m => { m with
    selected := true, spiMode3 := sck, mode := .header, armed := none, words := 0, allOnes := decide (highNs < 100), capture := 0 })

def execAhnairSelectFall (sck : Bool) (highNs : Nat) (s : State) : Host.Outcome State Fault Refusal :=
  .next (selectFallOp s sck highNs)

/-- AHN_CS_N rises with so many bits of an unfinished word: the bits are discarded; so is a pending arming. -/
def selectRiseOp (s : State) (bits : Nat) : State :=
  if !portLive s || !s.mgt.selected then s
  else
    let pending := s.mgt.armed.isSome || (match s.mgt.mode with | .armedFirst _ => true | _ => false)
    let s1 := if bits % 32 = 0 then s else portErr s .partial_
    let s2 := if pending then portErr s1 .arm else s1
    modMgt s2 (fun m => { m with
      selected := false, mode := .header, armed := none, words := 0, lastWords := BitVec.ofNat 8 (min m.words 255) })

def execAhnairSelectRise (bits : Nat) (s : State) : Host.Outcome State Fault Refusal := .next (selectRiseOp s bits)

/-! ### Headers (R357, R358, R361, R363) -/

/-- The status word shifted out during a header. -/
def statusWord (s : State) : Word :=
  if s.mgt.allOnes then 0xFFFFFFFF
  else word (fieldAt 0xA7 8 24 + fieldAt s.mgt.lastWords.toNat 8 16 + fieldAt s.mgt.errs.toNat 6 10 + mgtLive s)

/-- A header can commit now. -/
def headerDue (s : State) : Bool := portLive s && s.mgt.selected && decide (s.mgt.mode = .header)

/-- A header commits: its status word has been shifted out and the report starts anew; an arming the header does not use is discarded. -/
def headerCommit (s : State) (uses : Option Nat) : State :=
  let s1 := modMgt (emitOut s (.miso (statusWord s))) (fun m => { m with errs := 0, allOnes := false, words := m.words + 1 })
  match s.mgt.armed with
  | none => s1
  | some a => if uses = some a then s1 else portErr (modMgt s1 (fun m => { m with armed := none })) .arm

/-- A header commits and acts through f. -/
def header (s : State) (uses : Option Nat) (f : State → State) : State := if headerDue s then f (headerCommit s uses) else s

/-- READ: the turnaround word follows, AHN_MISO at 1 throughout. -/
def readHeader (s : State) (a : Nat) : State :=
  header s none (fun t => modMgt t (fun m => { m with mode := .reading a, capture := 0xFFFFFFFF }))

def execRead (addr : BitVec 24) (s : State) : Host.Outcome State Fault Refusal := .next (readHeader s addr.toNat)

/-- An armed register of Table 16.2, by word address. -/
inductive ArmedReg where
  | pwrGo
  | feedCtl (c : Nat)
  | fwSlot
  | fwIdCtl
  deriving DecidableEq, Repr

def armedReg (a : Nat) : Option ArmedReg :=
  if a = 0x00C007 then some .pwrGo
  else if a = 0x03000C then some .fwSlot
  else if a = 0x03000D then some .fwIdCtl
  else if 0x0400C5 ≤ a ∧ (a - 0x0400C5) % 0x4000 = 0 ∧ (a - 0x0400C5) / 0x4000 < 24 then some (.feedCtl ((a - 0x0400C5) / 0x4000))
  else none

/-- WRITE: to the armed address of an armed register with its arming, or not. -/
def writeHeader (s : State) (a : Nat) : State :=
  header s (some a) (fun t => modMgt t (fun m => { m with
    mode := if m.armed.isSome && (armedReg a).isSome then .armedFirst a else .writing a
    armed := none }))

def execWrite (addr : BitVec 24) (s : State) : Host.Outcome State Fault Refusal := .next (writeHeader s addr.toNat)

def execStatus (s : State) : Host.Outcome State Fault Refusal := .next (header s none id)

/-- ARM: word address a is armed for the next header. -/
def armHeader (s : State) (a : Nat) : State := header s none (fun t => modMgt t (fun m => { m with armed := some a }))

def execArm (addr : BitVec 24) (s : State) : Host.Outcome State Fault Refusal := .next (armHeader s addr.toNat)

/-- The opcodes of Table 16.1. -/
def knownOpcode (hdr : Word) : Bool :=
  bits hdr 31 24 == 0x3C || bits hdr 31 24 == 0xC3 || bits hdr 31 24 == 0x5A || bits hdr 31 24 == 0xA5

/-- A header with another opcode: OPC_ERR, and the rest of the select period is ignored. -/
def unknownHeader (s : State) (hdr : Word) : State :=
  if knownOpcode hdr then s
  else header s none (fun t => portErr (modMgt t (fun m => { m with mode := .ignore })) .opc)

def execAhnairUnknownOpcode (hdr : Word) (s : State) : Host.Outcome State Fault Refusal := .next (unknownHeader s hdr)

/-! ### Reads (R358, R359) -/

/-- The last word address inside BAR0. -/
def lastWordAddr : Nat := 0x0FFFFF

/-- The value of a register to the port, with the port's own latches. -/
def portValue (s : State) (off : Nat) : Word × State :=
  if off = 0x50000 then (readReg s off, { s with time := { s.time with latchAhn := s.datum } })
  else if off = 0x50004 then (word (instSec s.time.latchAhn), s)
  else if off = 0x50008 then (word (instSec s.time.latchAhn / 2 ^ 32), s)
  else if off = 0x5000C then (word (instFrac s.time.latchAhn), s)
  else if off = 0x50054 then
    (readReg s off, { s with hif := { s.hif with latchAhn := latchSet s.hif.latchAhn 0x50058 s.time.ppsInSec } })
  else if off = 0x50058 then ((lookup s.hif.latchAhn off).getD 0, s)
  else
    let (v, l) := latchRead s.hif.latchAhn (restingValue s) off
    (v, { s with hif := { s.hif with latchAhn := l } })

/-- A register is captured for the word that follows: nothing wakes and nothing clears. -/
def portRead (s : State) (a : Nat) : State :=
  if lastWordAddr < a then modMgt (portErr s .addr) (fun m => { m with capture := 0 })
  else
    match viewOff .pf (4 * a) with
    | none => modMgt s (fun m => { m with capture := 0 })
    | some off =>
      let (v, s1) := portValue s off
      let s2 := modMgt s1 (fun m => { m with capture := v })
      if holdsReg s off && !domOn s (regDomain off) then portErr s2 .asleep else s2

/-! ### Writes (R360, R361) -/

/-- MGT_STATUS: a 1 clears a W1C bit. -/
def clearStatus (v : Word) (m : Mgt) : Mgt :=
  { m with
    partial_ := m.partial_ && !bitOf v 15, opcErr := m.opcErr && !bitOf v 14, armErr := m.armErr && !bitOf v 13
    wrDenied := m.wrDenied && !bitOf v 12, addrErr := m.addrErr && !bitOf v 11, asleep := m.asleep && !bitOf v 10 }

/-- A word written to word address a by a WRITE without an arming. -/
def portWrite (s : State) (a : Nat) (v : Word) : State :=
  if lastWordAddr < a then portErr s .addr
  else if (armedReg a).isSome then portErr s .arm
  else if a = 0x34000 then modMgt s (clearStatus v)
  else if 0x34004 ≤ a ∧ a ≤ 0x34006 then { s with evt := { s.evt with intEn := vset s.evt.intEn (a - 0x34004) v } }
  else if 0x34008 ≤ a ∧ a ≤ 0x3400A then
    let k := a - 0x34008
    { s with evt := { s.evt with intPend := vset s.evt.intPend k (vget s.evt.intPend k 0 &&& ~~~v) } }
  else if 0x34000 ≤ a ∧ a < 0x38000 then s
  else portErr s .wr

/-- Bits 31:16 are the ones' complement of bits 15:0. -/
def armedCheck (v : Word) : Bool := bits v 31 16 + bits v 15 0 == 0xFFFF

/-- An armed register takes bits 15:0. -/
def armedWrite (s : State) (r : ArmedReg) (v : Word) : State :=
  match r with
  | .pwrGo => if bits v 1 0 = 0 then pwrGoOp s false else if bits v 1 0 = 1 then pwrGoOp s true else s
  | .feedCtl c => bmcOffOp s c (bitOf v 1)
  | .fwSlot => if bits v 1 0 = 1 then slotFallbackOp s else if bits v 1 0 = 2 then slotConfirmOp s else s
  | .fwIdCtl => if bitOf v 0 then revertOp s else s

/-- The first data word of an armed WRITE. -/
def armedFirst (s : State) (a : Nat) (v : Word) : State :=
  let s1 := modMgt s (fun m => { m with mode := .armedDone })
  match armedReg a with
  | some r => if armedCheck v then armedWrite s1 r v else portErr s1 .arm
  | none => s1

/-! ### Data words (R358) -/

/-- A data word commits: the captured word has been shifted out and the next register is captured, or the word is written. -/
def dataWordOp (s : State) (v : Word) : State :=
  if !portLive s || !s.mgt.selected then s
  else
    let s1 := modMgt s (fun m => { m with words := m.words + 1 })
    match s.mgt.mode with
    | .header => s
    | .reading a => modMgt (portRead (emitOut s1 (.miso s.mgt.capture)) a) (fun m => { m with mode := .reading (a + 1) })
    | .writing a => modMgt (portWrite s1 a v) (fun m => { m with mode := .writing (a + 1) })
    | .armedFirst a => armedFirst s1 a v
    | .armedDone => portErr s1 .arm
    | .ignore => s1

def execAhnairDataWord (v : Word) (s : State) : Host.Outcome State Fault Refusal := .next (dataWordOp s v)

end Sys2Proof.Machine
end

