-- ==== Sys2Proof/Machine/RegWrite.lean ====
section
/-! DEFINITION. Writes of registers by access type, block by block (R10 to R15, R375; the Registers sections of every chapter). A register with a command of its own acts through that command's operation. -/

namespace Sys2Proof.Machine

open Sys2Proof

/-! ### Access types (Table 00.5, R12, R15, R375) -/

/-- A write that acts on fields the PF alone writes: firmware's is denied when it would act, a VF's is ignored. -/
def pfWrite (s : State) (who : Requester) (off : Nat) (acts : Bool) (f : State → State) : State :=
  match who with
  | .pf => f s
  | .fw _ => if acts then fwDenied s off else s
  | .vf _ => s

/-- A write to RWL fields: ignored with LOCKED_WRITE once the block is locked. -/
def lockWrite (s : State) (locked : Bool) (off : Nat) (f : State → State) : State :=
  if locked then raise s Src.lockedWrite 0xFF (word off) else f s

/-- A write that acts on fields firmware alone writes; a PCIe write is ignored. -/
def fwWrite (s : State) (who : Requester) (f : State → State) : State := if isFw who then f s else s

/-- The low half of a 64-bit value: held until its high half is written. -/
def stage (s : State) (off : Nat) (v : Word) : State := modHif s (fun h => { h with winLo := latchSet h.winLo off v })

/-- The high half is written: the value takes effect with the low half held, if one is. -/
def takeHigh (s : State) (off : Nat) (f : State → Option Word → State) : State :=
  f (modHif s (fun h => { h with winLo := without h.winLo (off - 4) })) (lookup s.hif.winLo (off - 4))

/-- A page-aligned 64-bit base: bits 31:12 from the low half, bits 63:32 the high half. -/
def newBase (old : BitVec 52) (lo : Option Word) (hi : Word) : BitVec 52 :=
  BitVec.ofNat 52 (hi.toNat * 2 ^ 20 + (match lo with | some w => bits w 31 12 | none => old.toNat % 2 ^ 20))

/-- A field that takes a value only inside a range. -/
def inRange (v lo hi : Nat) : Bool := decide (lo ≤ v) && decide (v ≤ hi)

/-- The new value of such a field. -/
def ranged (n : Nat) (old : BitVec n) (v lo hi : Nat) : BitVec n := if inRange v lo hi then BitVec.ofNat n v else old

/-! ### GLB and PWR -/

/-- LOCK_ALL: the five LOCK bits in one step; they lie in the AON store, so no domain wakes (R381). -/
def lockAllOp (s : State) : State :=
  { s with
    rad := { s.rad with lock := true }, sup := { s.sup with lock := true }, sec := { s.sec with lock := true }
    upl := { s.upl with lock := true }, hif := { s.hif with lock := true } }

/-- Only the PF writes GLB; a firmware write is denied. -/
def execLockAll (who : Requester) (s : State) : Host.Outcome State Fault Refusal := .next (pfWrite s who 0x40 true lockAllOp)

/-- GLB_PROFILE.NEXT: 0 and 3 are ignored. -/
def nextOp (s : State) (v : Word) : State :=
  if bits v 1 0 = 0 ∨ bits v 1 0 = 3 then s else modGlb s (fun g => { g with next := BitVec.ofNat 2 (bits v 1 0) })

def writeGlb (s : State) (who : Requester) (off : Nat) (v : Word) : State :=
  match off with
  | 0x30 => pfWrite s who off true (fun t => nextOp t v)
  | 0x40 => pfWrite s who off (bitOf v 31) (fun t => if bitOf v 31 then lockAllOp t else t)
  | 0x50 => pfWrite s who off (decide (v ≠ 0)) (fun t => hostResetOp t v)
  | 0x54 => pfWrite s who off (bitOf v 0) (fun t => modGlb t (fun g => { g with refused := g.refused && !bitOf v 0 }))
  | _ => s

/-- PWR_CTL.FLOOR: 3 is ignored; a floor of RUN ends IDLE, one below SLEEP ends SLEEP (Table 14.4). -/
def floorOp (s : State) (v : Word) : State :=
  let n := bits v 1 0
  if n = 3 then s
  else
    let s1 := modPwr s (fun p => { p with floor := BitVec.ofNat 2 n })
    if n = 0 ∧ s.pwr.state = .idle then setPwr s1 .run
    else if n < 2 ∧ s.pwr.state = .sleep then leaveSleep s1
    else s1

def writePwr (s : State) (who : Requester) (off : Nat) (v : Word) : State :=
  let wr (f : Pwr → Pwr) : State := pfWrite s who off true (fun t => modPwr t f)
  match off % 0x10000 with
  | 0x00 => pfWrite s who off (bitOf v 27) (fun t => modPwr t (fun p => { p with refused := p.refused && !bitOf v 27 }))
  | 0x04 => pfWrite s who off true (fun t => floorOp t v)
  | 0x08 => wr (fun p => { p with
      sleepMs := ranged 16 p.sleepMs (bits v 31 16) 10 65535, idleUs := ranged 8 p.idleUs (bits v 15 8) 10 255
      lingerMs := ranged 8 p.lingerMs (bits v 7 0) 1 255 })
  | 0x0C => wr (fun p => { p with extUa := BitVec.ofNat 8 (bits v 23 16), groups := BitVec.ofNat 6 (bits v 5 0) })
  | 0x14 => wr (fun p => { p with wakeBits := BitVec.ofNat 4 (bits v 3 0) })
  | 0x18 => wr (fun p => { p with alarm := v })
  | 0x1C => if isFw who && decide (bits v 1 0 ≠ 0) then fwDenied s off else s
  | _ => s

/-! ### HIF and LEDG -/

/-- A window register of function f (R55). -/
def windowWrite (s : State) (off f w o : Nat) (v : Word) : State :=
  let put (t : State) (g : Window → Window) : State :=
    modHif t (fun h => { h with
      windows := vset h.windows f (vset (vget h.windows f (Vector.replicate 8 Window.reset)) w
        (g (vget (vget h.windows f (Vector.replicate 8 Window.reset)) w Window.reset))) })
  lockWrite s s.hif.lock off (fun t =>
    match o / 4 with
    | 0 => stage t off v
    | 1 => takeHigh t off (fun u lo => put u (fun x =>
        let y := { x with base := newBase x.base lo v }
        match lo with
        | some l => { y with write := bitOf l 2, read := bitOf l 1, enable := bitOf l 0 }
        | none => y))
    | 2 => stage t off v
    | _ => takeHigh t off (fun u lo => put u (fun x => { x with limit := newBase x.limit lo v })))

/-- RING_STAT_n: a 1 clears an error bit; HALTED resumes fetching. -/
def ringStatWrite (s : State) (r : Nat) (v : Word) : State :=
  let s1 := setRing s r (fun g => { g with
    seqErr := g.seqErr && !bitOf v 3, dbErr := g.dbErr && !bitOf v 2, winErr := g.winErr && !bitOf v 1, dmaErr := g.dmaErr && !bitOf v 0 })
  if bitOf v 4 then haltedClear s1 r else s1

/-- A register of ring r, at its offset within the ring's 32 bytes. -/
def ringRegWrite (s : State) (off r o : Nat) (v : Word) : State :=
  let openBase := decide (r < 2) && !(ringAt s r).enable
  match o / 4 with
  | 0 => if openBase then stage s off v else s
  | 1 => if openBase then takeHigh s off (fun t lo => setRing t r (fun g => { g with base := newBase g.base lo v })) else s
  | 2 => if r < 2 then ringCfgOp s (Fin.ofNat 160 r) v
         else setRing s r (fun g => { g with vector := BitVec.ofNat 8 (bits v 23 16) })
  | 3 => setRing s r (fun g => { g with modTime := BitVec.ofNat 16 (bits v 31 16), modCount := BitVec.ofNat 16 (bits v 15 0) })
  | 7 => ringStatWrite s r v
  | _ => s

/-- A word of a function's MSI-X table, as PCI Express defines: an entry unmasked with its pending bit set sends its message. -/
def msixWrite (s : State) (f o : Nat) (v : Word) : State :=
  let k := o / 16
  let set (e : MsixEntry) : MsixEntry :=
    match o % 16 / 4 with
    | 0 => { e with addrLo := v &&& 0xFFFFFFFC }
    | 1 => { e with addrHi := v }
    | 2 => { e with data := v }
    | _ => { e with ctrl := v &&& 1 }
  let x := vget s.hif.funcs f (Func.reset 0)
  match x.table[k]? with
  | none => s
  | some e =>
    let s1 := setFunc s f (fun y => { y with table := y.table.set k (set e) })
    if x.pba.getLsbD k && !(set e).ctrl.getLsbD 0 && x.bme then
      sendMsix (setFunc s1 f (fun y => { y with pba := y.pba &&& ~~~(BitVec.ofNat 64 (2 ^ k)) })) (f, k)
    else s1

/-- CHTAB_BASE takes a value only while ENABLE is 0. -/
def chtabBaseHigh (s : State) (off : Nat) (v : Word) : State :=
  if s.chtabEn then s else takeHigh s off (fun t lo => { t with chtabBase := newBase t.chtabBase lo v })

def writeHif (s : State) (who : Requester) (off : Nat) (v : Word) : State :=
  let o := off % 0x10000
  if o = 0x04 then pfWrite s who off true (fun t => lockWrite t t.hif.lock off (fun u => modHif u (fun h => { h with lock := bitOf v 0 })))
  else if o = 0x10 then modHif s (fun h => { h with faultValid := h.faultValid && !bitOf v 31 })
  else if o = 0x100 then (if s.chtabEn then s else stage s off v)
  else if o = 0x104 then chtabBaseHigh s off v
  else if o = 0x108 then chtabEnableOp s (bitOf v 0)
  else if o = 0x10C then chtabRefreshOp s v
  else if 0x1000 ≤ o ∧ o < 0x1C80 then
    pfWrite s who off true (fun t => windowWrite t off ((o - 0x1000) / 0x80) ((o % 0x80) / 0x10) (o % 0x10) v)
  else if 0x2000 ≤ o ∧ o < 0x3400 then ringRegWrite s off ((o - 0x2000) / 0x20) (o % 0x20) v
  else if 0x4000 ≤ o ∧ o < 0x4400 then msixWrite s 0 (o - 0x4000) v
  else s

/-- LEDG_CTL: ENABLE rises to a fresh ledger, or falls under R77. A rise with ADOPT is the command LEDGER_ADOPT, which brings what the adoption reads (log 69). -/
def ledgCtlOp (s : State) (v : Word) : State :=
  if bitOf v 0 then (if ledgerOff s && !bitOf v 1 then ledgerFresh s else s)
  else ledgerCloseOp s

def writeLedg (s : State) (off : Nat) (v : Word) : State :=
  let isOff := decide (ledgerState s = 0)
  match off % 0x10000 with
  | 0x00 => if isOff then stage s off v else s
  | 0x04 => if isOff then takeHigh s off (fun t lo => { t with ledger := { t.ledger with base := newBase t.ledger.base lo v } }) else s
  | 0x08 => ledgCtlOp s v
  | 0x0C => { s with ledger := { s.ledger with
      foreign_ := s.ledger.foreign_ && !bitOf v 3, sealInvalid := s.ledger.sealInvalid && !bitOf v 2
      recordLost := s.ledger.recordLost && !bitOf v 1, writeErr := s.ledger.writeErr && !bitOf v 0 } }
  | _ => s

/-! ### TIME -/

def modTime (s : State) (f : Time → Time) : State := { s with time := f s.time }

def datumCtlOp (s : State) (v : Word) : State :=
  let s1 := modTime s (fun t => { t with stepEn := bitOf v 30, stepLimit := ranged 10 t.stepLimit (bits v 9 0) 1 1000 })
  if bitOf v 31 then invalidateOp s1 else s1

/-- TDD_CFG: a value outside a range leaves both fields (R138). -/
def tddOp (s : State) (v : Word) : State :=
  if inRange (bits v 31 26) 8 40 && decide (bits v 18 0 ≤ 499999) then
    modTime s (fun t => { t with mds := BitVec.ofNat 6 (bits v 31 26), tddPhase := BitVec.ofNat 19 (bits v 18 0) })
  else s

def writeTime (s : State) (who : Requester) (off : Nat) (v : Word) : State :=
  let pf (f : Time → Time) : State := pfWrite s who off true (fun t => modTime t f)
  match off % 0x10000 with
  | 0x10 => modTime s (fun t => { t with holdExceeded := t.holdExceeded && !bitOf v 1 })
  | 0x14 => pfWrite s who off true (fun t => datumCtlOp t v)
  | 0x20 => pf (fun t => { t with rate32k := BitVec.ofNat 16 (bits v 31 16), rateTcxo := BitVec.ofNat 16 (bits v 15 0) })
  | 0x24 => pf (fun t => { t with holdMax := v, holdOver := t.holdOver && decide (v.toNat < t.holdErr.toNat) })
  | 0x30 => modTime s (fun t => { t with todN := v })
  | 0x34 => modTime s (fun t => { t with todSecLo := v })
  | 0x38 => modTime s (fun t => { t with todSecHi := BitVec.ofNat 16 (bits v 15 0) })
  | 0x3C => modTime s (fun t => { t with todNs := ranged 32 t.todNs v.toNat 0 999999999 })
  | 0x40 => modTime s (fun t => { t with todDelay := v })
  | 0x44 => pf (fun t => { t with todTrim := v })
  | 0x48 => if bitOf v 31 then todLoadOp s (bitOf v 30) else modTime s (fun t => { t with todKind := bitOf v 30 })
  | 0x50 => modTime s (fun t => { t with
      ppsOutEn := bitOf v 31, ppsInEn := bitOf v 30, ppsInOvr := t.ppsInOvr && !bitOf v 29
      ppsWidth := ranged 9 t.ppsWidth (bits v 8 0) 1 500, ppsOut := t.ppsOut && bitOf v 31 })
  | 0x6C => if bitOf v 31 then modTime s (fun t => { t with rxts := { t.rxts with fifo := t.rxts.fifo.tail } }) else s
  | 0x200 => pfWrite s who off true (fun t => tddOp t v)
  | _ => s

/-! ### UPL -/

/-- A PF field of the gate, locked by UPL_LOCK (R123). -/
def uplLocked (s : State) (who : Requester) (off : Nat) (f : State → State) : State :=
  pfWrite s who off true (fun t => lockWrite t t.upl.lock off f)

def gateFwOp (s : State) (v : Word) : State :=
  let s1 := setUpl s (fun u => { u with txAllow := bitOf v 0 })
  if bitOf v 1 then stopGate s1 else s1

/-- UPL_PORT_CMD: WRITE and CLEAR are firmware's. -/
def portCmdOp (s : State) (who : Requester) (v : Word) : State :=
  let idx := BitVec.ofNat 10 (bits v 9 0)
  match bits v 15 14 with
  | 0 => setUpl s (fun u => { u with portIdx := idx })
  | 1 => setUpl s (fun u => portReadOp u idx)
  | 2 => if isFw who then setUpl s (fun u => portWriteOp u idx) else s
  | _ => if isFw who then setUpl s (fun u => portClearOp u idx) else s

def writeUpl (s : State) (who : Requester) (off : Nat) (v : Word) : State :=
  let fw (f : Upl → Upl) : State := fwWrite s who (fun t => setUpl t f)
  match off % 0x10000 with
  | 0x00 => fwWrite s who (fun t => onuStateOp t (BitVec.ofNat 4 (bits v 31 28)))
  | 0x04 => uplLocked s who off (fun t => setUpl t (fun u => { u with lock := bitOf v 0 }))
  | 0x10 => uplLocked s who off (fun t => setUpl t (fun u => { u with
      maxBurst := BitVec.ofNat 16 (bits v 31 16), rogueEn := bitOf v 3, dgOnBat := bitOf v 2, usRate := ranged 2 u.usRate (bits v 1 0) 0 1 }))
  | 0x14 => uplLocked s who off (fun t => setUpl t (fun u => { u with
      respTrim := BitVec.ofNat 10 (bits v 31 22), burstTrail := BitVec.ofNat 6 (bits v 13 8), burstLead := BitVec.ofNat 6 (bits v 5 0) }))
  | 0x18 => fwWrite s who (fun t => gateFwOp t v)
  | 0x1C => fw (fun u => { u with allocMask := v })
  | 0x20 => pfWrite s who off (bitOf v 31) (fun t => if bitOf v 31 then rogueClearOp (drew t) ((Config.freeWord t.free).getLsbD 0) else t)
  | 0x30 => uplLocked s who off (fun t => stage t off v)
  | 0x34 => uplLocked s who off (fun t => takeHigh t off (fun u lo => setUpl u (fun x => { x with snLo := lo.getD x.snLo, snHi := v })))
  | 0x40 => fw (fun u => { u with bind0 := v })
  | 0x44 => fw (fun u => { u with bind1 := v })
  | 0x48 => fw (fun u => { u with bind2 := BitVec.ofNat 2 (bits v 1 0) })
  | 0x80 => portCmdOp s who v
  | 0x84 => setUpl s (fun u => { u with portData := v })
  | _ => s

/-! ### XC, SEC, RAD -/

/-- XC_FT_CMD of a requester's own port. -/
def ftCmdOp (s : State) (p : Nat) (v : Word) : State :=
  let idx := BitVec.ofNat 12 (bits v 11 0)
  match bits v 15 14 with
  | 0 => setFtPort s p (fun x => { x with idx := idx })
  | 1 => flowReadOp s p idx
  | 2 => flowWriteOp s p idx
  | _ => flowClearOp s p idx

/-- The bits of a word of Table 08.2 that are not reserved (R10). -/
def ftMask (w : Nat) : Word :=
  match w with
  | 0 => 0xFFFE0FFF
  | 1 => 0x073FFFFF
  | 2 => 0xFE000FFF
  | _ => 0x00FFFFFF

def writeXc (s : State) (who : Requester) (off : Nat) (v : Word) : State :=
  let o := off % 0x10000
  if 0x100 ≤ o ∧ o < 0x140 then
    let p := (o - 0x100) / 0x20
    if ftPortOf who = some p then
      if o % 0x20 = 0x14 then ftCmdOp s p v
      else setFtPort s p (fun x => { x with data := vset x.data (o % 0x20 / 4) (v &&& ftMask (o % 0x20 / 4)) })
    else s
  else if 0x400 ≤ o ∧ o < 0x500 then { s with xc := { s.xc with tcq := vset s.xc.tcq ((o - 0x400) / 4) (v &&& 0x801F07FF) } }
  else s

def writeSec (s : State) (who : Requester) (off : Nat) (v : Word) : State :=
  match off % 0x10000 with
  | 0x04 => pfWrite s who off true (fun t => lockWrite t t.sec.lock off (fun u => setSec u (fun x => { x with
      split := ranged 6 x.split (bits v 13 8) 1 63, plainDis := bitOf v 1, lock := bitOf v 0 })))
  | 0x10 => setSec s (fun x => { x with ksSel := BitVec.ofNat 6 (bits v 5 0) })
  | _ => s

/-- RAD_CTL; RAD follows EN (Table 14.2), and stays while an access has woken it. -/
def radCtlOp (s : State) (v : Word) : State :=
  let s1 := setRad s (fun r => { r with promisc := bitOf v 3, ackEn := bitOf v 2, budgetWait := bitOf v 1, en := bitOf v 0 })
  if bitOf v 0 then (if switchable s1 then radOn s1 else s1) else radFollow s1

/-- RAD_ACCESS: a field out of its range stays; MIN_BE is at most the MAX_BE that results. -/
def radAccessOp (s : State) (v : Word) : State :=
  let old := s.rad.access
  let dbm (hi lo : Nat) : Nat := if 156 ≤ bits v hi lo ∧ bits v hi lo ≤ 196 then bits v hi lo else bits old hi lo
  let f (hi lo a b : Nat) : Nat := if inRange (bits v hi lo) a b then bits v hi lo else bits old hi lo
  let maxBe := f 8 6 3 7
  setRad s (fun r => { r with access := word (fieldAt (dbm 31 24) 8 24 + fieldAt (dbm 23 16) 8 16 + fieldAt (f 15 12 1 15) 4 12
    + fieldAt (f 11 9 0 5) 3 9 + fieldAt maxBe 3 6 + fieldAt (f 5 3 0 maxBe) 3 3) })

/-- A governor band's register (R284). -/
def govWrite (s : State) (b o : Nat) (v : Word) : State :=
  setRad s (fun r =>
    let g := vget r.gov b (GovBand.default 0 0 false 0 14 0)
    let g1 := match o / 4 with
      | 0 => { g with flo := BitVec.ofNat 20 (bits v 19 0) }
      | 1 => { g with fhi := BitVec.ofNat 20 (bits v 19 0) }
      | 2 => { g with en := bitOf v 31, budget := ranged 26 g.budget (bits v 25 0) 0 36000000 }
      | 3 => { g with maxDbm := BitVec.ofNat 8 (bits v 23 16), reserve := BitVec.ofNat 16 (bits v 15 0) }
      | _ => g
    { r with gov := vset r.gov b g1 })

/-- RAD_DEV_CMD: index 31 is ignored. -/
def devCmdOp (s : State) (v : Word) : State :=
  let i := bits v 4 0
  if i = 31 then s
  else
    setRad s (fun r0 =>
      let r := { r0 with devIdx := BitVec.ofNat 5 i }
      match bits v 15 14 with
      | 0 => r
      | 1 => { r with devData := vget r.dev i (Vector.replicate 4 0) }
      | 2 => { r with dev := vset r.dev i r.devData }
      | _ => { r with dev := vset r.dev i (Vector.replicate 4 0) })

/-- A PF field of the governor, locked by RAD_LOCK (R284). -/
def radLocked (s : State) (who : Requester) (off : Nat) (f : State → State) : State :=
  pfWrite s who off true (fun t => lockWrite t t.rad.lock off f)

def writeRad (s : State) (who : Requester) (off : Nat) (v : Word) : State :=
  let o := off % 0x10000
  if o = 0x00 then pfWrite s who off true (fun t => radCtlOp t v)
  else if o = 0x04 then fwWrite s who (fun t => setRad t (fun r => { r with txAllow := bitOf v 0 }))
  else if o = 0x08 then radLocked s who off (fun t => setRad t (fun r => { r with lock := bitOf v 0 }))
  else if o = 0x10 then setRad s (fun r => { r with pan := v })
  else if o = 0x14 then stage s off v
  else if o = 0x18 then takeHigh s off (fun t lo => setRad t (fun r => { r with extLo := lo.getD r.extLo, extHi := v }))
  else if o = 0x1C then setRad s (fun r => { r with rxCh := BitVec.ofNat 11 (bits v 10 0) })
  else if o = 0x20 then radAccessOp s v
  else if o = 0x24 then setRad s (fun r => { r with
    preamble := ranged 10 r.preamble (bits v 9 0) 4 1000, ackDbm := BitVec.ofNat 6 (bits v 21 16) })
  else if o = 0x28 then radLocked s who off (fun t => setRad t (fun r => { r with gainDb := ranged 5 r.gainDb (bits v 4 0) 0 20 }))
  else if 0x100 ≤ o ∧ o < 0x200 then
    (if o % 0x20 < 0x10 then radLocked s who off (fun t => govWrite t ((o - 0x100) / 0x20) (o % 0x20) v) else s)
  else if o = 0x300 then pfWrite s who off true (fun t => devCmdOp t v)
  else if 0x304 ≤ o ∧ o < 0x314 then
    pfWrite s who off true (fun t => setRad t (fun r => { r with devData := vset r.devData ((o - 0x304) / 4) v }))
  else s

/-! ### SUP, EVT, FW, MGT -/

/-- SUP_AUX: a field out of range stays, and levels that would not rise from LOW to HIGH are ignored whole. -/
def auxOp (s : State) (v : Word) : State :=
  let h := ranged 8 s.sup.auxHigh (bits v 23 16) 10 170
  let r := ranged 8 s.sup.auxRestore (bits v 15 8) 10 170
  let l := ranged 8 s.sup.auxLow (bits v 7 0) 10 170
  if l.toNat < r.toNat ∧ r.toNat < h.toNat then modSup s (fun u => { u with auxHigh := h, auxRestore := r, auxLow := l }) else s

def supLocked (s : State) (who : Requester) (off : Nat) (f : State → State) : State :=
  pfWrite s who off true (fun t => lockWrite t t.sup.lock off f)

def writeSup (s : State) (who : Requester) (off : Nat) (v : Word) : State :=
  match off % 0x10000 with
  | 0x00 => pfWrite s who off (bitOf v 28) (fun t => modSup t (fun u => { u with hostIncomplete := u.hostIncomplete && !bitOf v 28 }))
  | 0x04 => supLocked s who off (fun t => modSup t (fun u => { u with feedOnBat := bitOf v 1, batAction := bitOf v 0 }))
  | 0x08 => supLocked s who off (fun t => modSup t (fun u => { u with lock := bitOf v 0 }))
  | 0x0C => supLocked s who off (fun t => auxOp t v)
  | 0x10 => supLocked s who off (fun t => budgetCheck (modSup t (fun u => { u with
      maxIlim := ranged 9 u.maxIlim (bits v 31 23) 50 400, maxPlim := ranged 8 u.maxPlim (bits v 22 15) 10 150
      inrushMax := ranged 5 u.inrushMax (bits v 14 10) 1 24 })))
  | 0x14 => supLocked s who off (fun t => budgetCheck (modSup t (fun u => { u with budget := ranged 16 u.budget (bits v 15 0) 10 3600 })))
  | 0x20 => pfWrite s who off true (fun t => modSup t (fun u => { u with logSel := BitVec.ofNat 5 (bits v 4 0) }))
  | _ => s

/-- EVT_ROUTE_s: RECORD only for a source of class R; VEC 10 to 15 are ignored. -/
def routeOp (s : State) (i : Nat) (v : Word) : State :=
  { s with evt := { s.evt with
    record := if isRecordSource i then vset s.evt.record i (bitOf v 31) else s.evt.record
    vec := if bits v 3 0 ≤ 9 then vset s.evt.vec i (BitVec.ofNat 4 (bits v 3 0)) else s.evt.vec } }

def writeEvt (s : State) (who : Requester) (off : Nat) (v : Word) : State :=
  let o := off % 0x10000
  if o = 0x10 then fwWrite s who (fun t => evtSoftOp t v)
  else if o = 0x20 then { s with evt := { s.evt with logSel := BitVec.ofNat 6 (bits v 5 0) } }
  else if 0x100 ≤ o ∧ o < 0x280 then pfWrite s who off true (fun t => routeOp t ((o - 0x100) / 4) v)
  else if 0x400 ≤ o ∧ o < 0x600 ∧ o % 16 = 0 then counterCfgOp s who (.pf (Fin.ofNat 32 ((o - 0x400) / 16))) v
  else s

/-- FW_STAT: firmware's fields, and ROLLED_BACK cleared by the PF. -/
def fwStatWrite (s : State) (who : Requester) (off : Nat) (v : Word) : State :=
  match who with
  | .fw _ =>
    let s1 := modFw s (fun w => { w with restricted := bitOf v 23, unreadable := bitOf v 22 })
    if bitOf v 21 then fwDenied s1 off else s1
  | .pf => modFw s (fun w => { w with rolledBack := w.rolledBack && !bitOf v 21 })
  | .vf _ => s

/-- FW_WDG_KICK: each processor's own bit. -/
def kickOp (s : State) (who : Requester) (v : Word) : State :=
  match who with
  | .fw cp => if bitOf v cp.val && decide (cpState s cp.val = .running) then restartWdg s cp.val else s
  | _ => s

def writeFw (s : State) (who : Requester) (off : Nat) (v : Word) : State :=
  let fw (f : Fw → Fw) : State := fwWrite s who (fun t => modFw t f)
  let pf (f : Fw → Fw) : State := pfWrite s who off true (fun t => modFw t f)
  match off % 0x10000 with
  | 0x00 => fwStatWrite s who off v
  | 0x04 => pf (fun w => { w with confirmCfg := ranged 12 w.confirmCfg (bits v 11 0) 60 3600 })
  | 0x0C => fw (fun w => { w with setGen := v })
  | 0x10 => fw (fun w => { w with setInfo := BitVec.ofNat 16 (bits v 15 0) })
  | 0x14 => fw (fun w => { w with rollbackFrom := v })
  | 0x20 => pf (fun w => { w with wdg := ranged 16 w.wdg (bits v 15 0) 10 10000 })
  | 0x28 => kickOp s who v
  | 0x30 => if isFw who && decide (bits v 1 0 ≠ 0) then fwDenied s off else s
  | 0x34 => if isFw who && bitOf v 0 then fwDenied s off else s
  | _ => s

/-- MGT_STATUS is cleared by the PF too; the other registers are the Ahnair port's (R369). -/
def writeMgt (s : State) (who : Requester) (off : Nat) (v : Word) : State :=
  if off % 0x10000 = 0 then pfWrite s who off (decide (bits v 15 10 ≠ 0)) (fun t => modMgt t (clearStatus v)) else s

/-! ### Channel blocks -/

/-- Entry i of a shadow gate list changed. -/
def setEntry (l : List (Nat × Half)) (i : Nat) (f : Nat × Half → Nat × Half) : List (Nat × Half) :=
  if i < l.length then l.set i (f ((l[i]?).getD (0, 0))) else l ++ List.replicate (i - l.length) (0, 0) ++ [f (0, 0)]

def shadowOp (s : State) (c : Nat) (f : Gcl → GclBank → GclBank) : State :=
  setChan s c (fun k => { k with gcl := { k.gcl with shadow := f k.gcl k.gcl.shadow } })

/-- GCL_CTL: the shadow bank's fields, then SWAP (R210). -/
def gclCtlOp (s : State) (c : Nat) (v : Word) : State :=
  let s1 := shadowOp s c (fun _ b => { b with mode := bitOf v 30, enable := bitOf v 29, len := bits v 8 0 })
  if bitOf v 31 then gclSwapOp s1 c else s1

def writeChan (s : State) (who : Requester) (off c o : Nat) (v : Word) : State :=
  if o = 0x08 then fwWrite s who (fun t => chHoldOp t c v)
  else if o = 0x100 then setLine s c (fun l => { l with econBlock := l.econBlock && !bitOf v 1 })
  else if o = 0x118 then setLine s c (fun l => { l with toneSel := v &&& 0x80000FFF })
  else if o = 0x144 then
    setChan s c (fun k => { k with pm := { k.pm with sesDtu := ranged 16 k.pm.sesDtu (bits v 15 0) 1 65535 } })
  else if o = 0x148 then setChan s c (fun k => { k with pm := { k.pm with sel := v &&& 0x1F1F } })
  else if o = 0x200 then gclCtlOp s c v
  else if o = 0x204 then shadowOp s c (fun _ b => { b with phase := bits v 29 0 })
  else if o = 0x208 then setChan s c (fun k => { k with gcl := { k.gcl with addr := BitVec.ofNat 8 (bits v 7 0) } })
  else if o = 0x20C then shadowOp s c (fun g b => { b with entries := setEntry b.entries g.addr.toNat (fun e => (bits v 23 0, e.2)) })
  else if o = 0x210 then
    shadowOp s c (fun g b => { b with entries := setEntry b.entries g.addr.toNat (fun e => (e.1, BitVec.ofNat 16 (bits v 15 0))) })
  else if o = 0x214 then setChan s c (fun k => { k with gcl := { k.gcl with bad := k.gcl.bad && !bitOf v 30 } })
  else if o = 0x220 then setQs s c (fun q => { q with histSel := v &&& 0x1FF })
  else if o = 0x228 then (if bitOf v 0 then clearHist s c else s)
  else if o = 0x24C then
    (if bitOf v 31 then setChan s c (fun k => { k with rxts := { k.rxts with fifo := k.rxts.fifo.tail } }) else s)
  else if o = 0x280 then setChan s c (fun k => { k with msec := { k.msec with pnHigh := k.msec.pnHigh && !bitOf v 1 } })
  else if o = 0x314 then pfWrite s who off (bitOf v 0) (fun t => if bitOf v 0 then feedUnlockOp t c else t)
  else if o = 0x318 then fwWrite s who (fun t => feedPower (setFeed t c (fun f => feedFollow { f with holdOff := bitOf v 0 })))
  else if o = 0x360 then
    { s with evt := { s.evt with chStat := vset s.evt.chStat c (vget s.evt.chStat c 0 &&& ~~~(BitVec.ofNat 17 (bits v 16 0))) } }
  else if 0x380 ≤ o ∧ o < 0x3C0 ∧ o % 16 = 0 then
    counterCfgOp s who (.ch (Fin.ofNat 24 c) (Fin.ofNat 4 ((o - 0x380) / 16))) v
  else s

/-! ### The map -/

/-- A write of a register at its PF-view offset. -/
def writeReg (s : State) (who : Requester) (off : Nat) (v : Word) : State :=
  if !holdsReg s off then s
  else if 0x400000 ≤ off then
    (if off % 0x1000 < 0x40 then msixWrite s ((off - 0x400000) / 0x1000 + 1) (off % 0x1000) v else s)
  else if 0x100000 ≤ off then writeChan s who off ((off - 0x100000) / 0x10000) (off % 0x10000) v
  else
    match off / 0x10000 with
    | 0 => writeGlb s who off v
    | 1 => writeHif s who off v
    | 2 => writeLedg s off v
    | 3 => writePwr s who off v
    | 5 => writeTime s who off v
    | 6 => writeUpl s who off v
    | 7 => writeXc s who off v
    | 8 => writeSec s who off v
    | 9 => writeRad s who off v
    | 10 => writeSup s who off v
    | 11 => writeEvt s who off v
    | 12 => writeFw s who off v
    | 13 => writeMgt s who off v
    | _ => s

end Sys2Proof.Machine
end

