-- ==== Sys2Proof/Machine/Registers.lean ====
section
/-! DEFINITION. Register accesses as they arrive: served at once, refused, or waiting for a domain they wake (R11, R14, R15, R60, R233, R236, R318, R375). -/

namespace Sys2Proof.Machine

open Sys2Proof

/-! ### Reads -/

/-- A read of the flow table's other side's port: it answers only its own (R191, log 179). -/
def otherPort (who : Requester) (off : Nat) : Bool :=
  decide (0x70100 ≤ off) && decide (off < 0x70140) && decide (ftPortOf who ≠ some ((off - 0x70100) / 0x20))

/-- A read of a ready register: the value answered, and the state its latches leave. A read of PPS_IN_NS counts the edge as read (R236). -/
def readValue (s : State) (off : Nat) : Word × State :=
  if off = 0x50000 then (readReg s off, modTime s (fun t => { t with latch := s.datum }))
  else if off = 0x50054 then (readReg s off, modTime s (fun t => { t with ppsInSecLatch := t.ppsInSec, ppsInUnread := false }))
  else
    let (v, l) := latchRead s.hif.latchPcie (readReg s) off
    (v, modHif s (fun h => { h with latchPcie := l }))

/-- A read answered to its requester, at the offset it asked for. -/
def readOp (s : State) (who : Requester) (asked off : Nat) : State :=
  let (v, s1) := readValue s off
  emitOut s1 (.readAnswer who asked (if otherPort who off then 0 else v))

/-- An access of a ready register takes place. -/
def applyAccess (s : State) (a : Access) : State :=
  match viewOff a.who a.off.toNat, a.value with
  | none, none => emitOut s (.readAnswer a.who a.off.toNat 0)
  | none, some _ => s
  | some off, none => readOp s a.who a.off.toNat off
  | some off, some v => writeReg s a.who off v

/-! ### Waiting for a domain (R60, R318) -/

/-- The domain an access waits for: that of the register it names, where it is not ready or earlier accesses still wait for it. -/
def waitsFor (s : State) (a : Access) : Option Domain :=
  match viewOff a.who a.off.toNat with
  | none => none
  | some off =>
    let d := regDomain off
    if holdsReg s off && (!domReady s d || s.pwr.waiting.any (fun w => w.1 == d)) then some d else none

/-- UPL returns from DEEP: a read answers the asleep value at once, with WAKE_LATE. -/
def uplLate (s : State) (a : Access) (d : Domain) : Bool :=
  d == .upl && !s.pwr.domUpl && decide (s.pwr.state = .waking) && a.value.isNone

/-- An access arrives that its function serves. -/
def servedAccess (s : State) (a : Access) : State :=
  match waitsFor s a with
  | none => applyAccess s a
  | some d =>
    if uplLate s a d then
      raise (emitOut s (.readAnswer a.who a.off.toNat (asleepImage s ((viewOff a.who a.off.toNat).getD 0)))) Src.wakeLate 0xFE 0
    else modPwr s (fun p => { p with waiting := p.waiting ++ [(d, a)] })

/-- An access arrives: refused where its function does not serve it; a host write served in ENTERING abandons the entry (R313). While TEST_EN is high no PCI Express request is answered and CORE is in reset (R396). -/
def accessOp (s : State) (a : Access) : State :=
  if s.pwr.testEn then s
  else if !barServes s a.who then refuseAccess s a.who a.off.toNat
  else servedAccess (if a.value.isSome && !isFw a.who then hostWrote s else s) a

/-- A write of a register that has no row of its own, or of one that has. -/
def execRegisterWrite (who : Requester) (off : BitVec 22) (v : Word) (s : State) : Host.Outcome State Fault Refusal :=
  .next (accessOp s { who := who, off := off, value := some v })

/-- A read or a write, of a domain that may be off or unclocked. -/
def execDomainWakeOnAccess (a : Access) (s : State) : Host.Outcome State Fault Refusal := .next (accessOp s a)

/-- A woken domain can be ready: those the sequencer powers once they are on, the others once power may be switched. -/
def canReady (s : State) (d : Domain) : Bool :=
  match d with
  | .rad => s.pwr.domRad || switchable s
  | .feed => s.pwr.domFeed || switchable s
  | _ => domOn s d

/-- The domain is powered and clocked for its accesses. -/
def wakeDomain (s : State) (d : Domain) : State :=
  if domReady s d then s
  else
    let s1 := modPwr s (fun p => { p with woken := p.woken ++ [d] })
    match d with
    | .rad => radOn s1
    | .feed => feedPower s1
    | _ => s1

/-- The domain is ready: its waiting accesses take place in order. -/
def domainReadyOp (s : State) (d : Domain) : State :=
  let mine := s.pwr.waiting.filter (fun w => w.1 == d)
  if mine.isEmpty || !canReady s d then s
  else
    let s1 := modPwr (wakeDomain s d) (fun p => { p with waiting := p.waiting.filter (fun w => w.1 != d) })
    mine.foldl (fun t w => applyAccess t w.2) s1

def execDomainReady (d : Domain) (s : State) : Host.Outcome State Fault Refusal := .next (domainReadyOp s d)

/-- LINGER_MS passed since the last access to a woken domain: it follows Table 14.2 again. An access that waits keeps it. -/
def lingerOp (s : State) (d : Domain) : State :=
  if !s.pwr.woken.contains d || s.pwr.waiting.any (fun w => w.1 == d) then s
  else
    let s1 := modPwr s (fun p => { p with woken := p.woken.filter (fun x => x != d) })
    match d with
    | .rad => radFollow s1
    | .feed => feedPower s1
    | _ => s1

def execLingerExpiry (d : Domain) (s : State) : Host.Outcome State Fault Refusal := .next (lingerOp s d)

end Sys2Proof.Machine
end

