-- ==== Sys2Proof/Machine/Second.lean ====
section
/-! DEFINITION. The datum second boundary: performance seconds, PPS_OUT and DATUM_VALID, the governor's windows and the confirmation timer (R173 to R176, R221, R235, R282, R341). -/

namespace Sys2Proof.Machine

open Sys2Proof

/-! ### Classifying a second (R173) -/

/-- The second had LOS or LOF, or the channel was outside SERVICE and ECONOMY, at a frame boundary. -/
def secBroken (t : PmSec) : Bool := t.losLof || t.outside

def secEs (t : PmSec) : Bool := decide (1 ≤ t.uncorr) || decide (1 ≤ t.ohCrc) || secBroken t
def secSes (ses : Nat) (t : PmSec) : Bool := decide (ses ≤ t.uncorr) || decide (200 ≤ t.ohCrc) || secBroken t

/-- Far end: FE_LOST in place of UNCORR_DTU and FE_RDI in place of LOS and LOF. -/
def farBroken (t : PmSec) : Bool := t.feRdi || t.outside

def secEsFar (t : PmSec) : Bool := decide (1 ≤ t.feLost) || decide (1 ≤ t.ohCrc) || farBroken t
def secSesFar (ses : Nat) (t : PmSec) : Bool := decide (ses ≤ t.feLost) || decide (200 ≤ t.ohCrc) || farBroken t

/-! ### Availability (R174, R175) -/

/-- A second just ended waits for its decision, with its classes by what was counted in it. -/
def endSecond (p : Pm) (sec : Nat) (valid : Bool) : Pm :=
  let t := { p.cur with suspect := p.cur.suspect || !valid }
  let ses := p.sesDtu.toNat
  { p with
    cur := PmSec.zero
    pend := p.pend ++ [{ sec := sec, t := t, es := t.monitored && secEs t, ses := t.monitored && secSes ses t,
                         esF := t.monitored && secEsFar t, sesF := t.monitored && secSesFar ses t, uas := false, uasF := false }] }

/-- Availability at the first of ten seconds: an unavailable period begins where all ten are monitored SES and ends where all ten are monitored and none is SES; an unmonitored second ends it (R173, R174). -/
def availAt (unav : Bool) (ses : PmPend → Bool) (l : List PmPend) : Bool :=
  match l with
  | [] => unav
  | e :: _ =>
    if !e.t.monitored then false
    else if unav then !l.all (fun x => x.t.monitored && !ses x)
    else l.all (fun x => x.t.monitored && ses x)

/-- The first of ten pending seconds decided, with the availability of both ends after it: the far end of a second in which the near end is unavailable is not classified (log 71). -/
def decideFirst (p : Pm) (e : PmPend) (l : List PmPend) : Pm × PmPend :=
  let un := availAt p.unavNe (fun x => x.ses) l
  let uf := if e.t.monitored && un then p.unavFe else availAt p.unavFe (fun x => x.sesF) l
  ({ p with unavNe := un, unavFe := uf },
   { e with uas := un, uasF := uf && !un, esF := e.esF && !un, sesF := e.sesF && !un })

/-! ### Bins (R175, R176, Table 07.6) -/

/-- What a committed second adds to words 2 to 15 of its bins. -/
def secWords (e : PmPend) : List Nat :=
  let n (b : Bool) : Nat := if b then 1 else 0
  let mon := e.t.monitored
  let near := mon && !e.uas
  [n (near && e.es), n (near && e.ses), n (mon && e.uas), n (near && e.esF && !e.uasF), n (near && e.sesF && !e.uasF), n (near && e.uasF),
   n (!mon), e.t.uncorr, e.t.rtx, e.t.cwFixed, e.t.cwBad, e.t.ohCrc, e.t.lol, e.t.tribIdle]

def PmBin.fresh (first : Nat) : PmBin := { first := first, valid := true, suspect := false, words := Vector.replicate 14 0 }

/-- A bin with a committed second in it; counters saturate. -/
def PmBin.add (b : PmBin) (e : PmPend) : PmBin :=
  { b with
    suspect := b.suspect || e.t.suspect
    words := vmapIdx (fun i v => satAdd v ((secWords e)[i]?.getD 0) 32) b.words }

/-- A second committed into bins of so many seconds, `keep` of them kept: a bin becomes history when its last second is committed. -/
def commitBins (l : List PmBin) (e : PmPend) (span keep : Nat) : List PmBin :=
  let first := e.sec - e.sec % span
  let l1 := match l with
    | b :: t => if b.first = first then b.add e :: t else (PmBin.fresh first).add e :: l
    | [] => [(PmBin.fresh first).add e]
  let l2 := if (e.sec + 1) % span = 0 then PmBin.fresh (e.sec + 1) :: l1 else l1
  l2.take keep

/-- The second nine before this one is decided and committed (R175). -/
def commitSecond (p : Pm) : Pm :=
  match p.pend with
  | e :: t =>
    if 10 ≤ p.pend.length then
      let (q, x) := decideFirst p e (p.pend.take 10)
      { q with pend := t, bins15 := commitBins p.bins15 x 900 17, bins24 := commitBins p.bins24 x 86400 2 }
    else p
  | [] => p

/-- A channel's second ends; UNAVAIL is raised where its level rises. -/
def pmSecond (s : State) (sec : Nat) (valid : Bool) (c : Nat) : State :=
  if !present s c then s
  else
    let was := levelHigh s Src.unavail c
    let s1 := setChan s c (fun k => { k with pm := commitSecond (endSecond k.pm sec valid) })
    if levelHigh s1 Src.unavail c && !was then raise s1 Src.unavail c 0 else s1

/-! ### The boundary -/

/-- PPS_OUT rises while it is enabled and DATUM_VALID was 1, except in DEEP; DATUM_VALID becomes 1 after a set or a step (R221, R235, R406). -/
def timeSecond (deep : Bool) (t : Time) : Time :=
  { t with ppsOut := t.ppsOut || (t.ppsOutEn && t.valid && !deep), valid := t.valid || t.validNext, validNext := false }

/-- The windows advance by one boundary unless their bank is not retained (R282, R283). -/
def govSecond (s : State) : State := if s.rad.refill then s else retryAttempt { s with rad := s.rad.advance }

/-- FW_CONFIRM_LEFT counts down while a trial's timer runs (R341). -/
def leftSecond (w : Fw) : Fw := if w.timerOn then { w with left := BitVec.ofNat 12 (w.left.toNat - 1) } else w

/-- The datum reaches a second boundary: the second before it has ended. At another instant there is none (log 165). -/
def secondOp (s : State) : State :=
  if s.pwr.state = .off ∨ !atEdge s secUnit 0 then s
  else
    let sec := instSec s.datum - 1
    let s1 := if s.pwr.domHif then (List.range 24).foldl (fun t c => pmSecond t sec s.time.valid c) s else s
    govSecond { s1 with time := timeSecond (decide (s1.pwr.state = .deep)) s1.time, fw := leftSecond s1.fw }

def execDatumSecondBoundary (s : State) : Host.Outcome State Fault Refusal := .next (secondOp s)

end Sys2Proof.Machine
end

