-- ==== Sys2Proof/Machine/Dispatch.lean ====
section
/-! DEFINITION. The dispatch: one arm for each command, each a direct call of its meaning. -/

namespace Sys2Proof.Machine

open Sys2Proof

def exec (i : Instr) (s : State) : Host.Outcome State Fault Refusal :=
  match i with
  | .powerOn => Sys2Proof.Machine.execPowerOn s
  | .aonBrownOut => Sys2Proof.Machine.execAonBrownOut s
  | .perstAssert => Sys2Proof.Machine.execPerstAssert s
  | .perstDeassert => Sys2Proof.Machine.execPerstDeassert s
  | .pcieHotReset => Sys2Proof.Machine.execPcieHotReset s
  | .linkDown => Sys2Proof.Machine.execLinkDown s
  | .linkUp width speed => Sys2Proof.Machine.execLinkUp width speed s
  | .pfFlr => Sys2Proof.Machine.execPfFlr s
  | .vfFlr c => Sys2Proof.Machine.execVfFlr c s
  | .channelIslandFault c => Sys2Proof.Machine.execChannelIslandFault c s
  | .hostFullReset who key => Sys2Proof.Machine.execHostFullReset who key s
  | .testEnChange level => Sys2Proof.Machine.execTestEnChange level s
  | .registerWrite who off v => Sys2Proof.Machine.execRegisterWrite who off v s
  | .unsupportedAccessWidth who bar2 off => Sys2Proof.Machine.execUnsupportedAccessWidth who bar2 off s
  | .poisonedWrite f bar2 off => Sys2Proof.Machine.execPoisonedWrite f bar2 off s
  | .busMasterEnableChange f dc => Sys2Proof.Machine.execBusMasterEnableChange f dc s
  | .memorySpaceEnableChange f on => Sys2Proof.Machine.execMemorySpaceEnableChange f on s
  | .vfEnableWrite enable numVfs => Sys2Proof.Machine.execVfEnableWrite enable numVfs s
  | .configPowerStateWrite f d3hot => Sys2Proof.Machine.execConfigPowerStateWrite f d3hot s
  | .domainWakeOnAccess a => Sys2Proof.Machine.execDomainWakeOnAccess a s
  | .domainReady d => Sys2Proof.Machine.execDomainReady d s
  | .lingerExpiry d => Sys2Proof.Machine.execLingerExpiry d s
  | .doorbell who off v => Sys2Proof.Machine.execDoorbell who off v s
  | .descriptorFetch => Sys2Proof.Machine.execDescriptorFetch s
  | .descriptorFetchComplete r res data => Sys2Proof.Machine.execDescriptorFetchComplete r res data s
  | .ringHaltedClear who r => Sys2Proof.Machine.execRingHaltedClear who r s
  | .ringCfgWrite who r v => Sys2Proof.Machine.execRingCfgWrite who r v s
  | .createRing r seq => Sys2Proof.Machine.execCreateRing r seq s
  | .destroyRing r seq => Sys2Proof.Machine.execDestroyRing r seq s
  | .recordWrite r => Sys2Proof.Machine.execRecordWrite r s
  | .recordAcknowledged r => Sys2Proof.Machine.execRecordAcknowledged r s
  | .modTimeExpiry m => Sys2Proof.Machine.execModTimeExpiry m s
  | .txFrame r seq => Sys2Proof.Machine.execTxFrame r seq s
  | .txBufferRead r seq => Sys2Proof.Machine.execTxBufferRead r seq s
  | .txBufferReadComplete r seq res data => Sys2Proof.Machine.execTxBufferReadComplete r seq res data s
  | .rxBuffer r seq => Sys2Proof.Machine.execRxBuffer r seq s
  | .rxFrameDeliver r => Sys2Proof.Machine.execRxFrameDeliver r s
  | .lifetimeExpiry r seq => Sys2Proof.Machine.execLifetimeExpiry r seq s
  | .ledgerEnable who => Sys2Proof.Machine.execLedgerEnable who s
  | .ledgerAdopt who res img => Sys2Proof.Machine.execLedgerAdopt who res img s
  | .ledgerClose who => Sys2Proof.Machine.execLedgerClose who s
  | .ledgerWritesAcknowledged => Sys2Proof.Machine.execLedgerWritesAcknowledged s
  | .benchmarkRecordWrite r => Sys2Proof.Machine.execBenchmarkRecordWrite r s
  | .ledgerTransferComplete x res => Sys2Proof.Machine.execLedgerTransferComplete x res s
  | .ledgerRetry res img => Sys2Proof.Machine.execLedgerRetry res img s
  | .recoverySettle => Sys2Proof.Machine.execRecoverySettle s
  | .recoveryDone => Sys2Proof.Machine.execRecoveryDone s
  | .chtabRefresh who mask => Sys2Proof.Machine.execChtabRefresh who mask s
  | .chRefresh r seq => Sys2Proof.Machine.execChRefresh r seq s
  | .chReset r seq => Sys2Proof.Machine.execChReset r seq s
  | .chtabEnableChange who on => Sys2Proof.Machine.execChtabEnableChange who on s
  | .chtabReadPhaseComplete c res data => Sys2Proof.Machine.execChtabReadPhaseComplete c res data s
  | .chtabReadRetry c => Sys2Proof.Machine.execChtabReadRetry c s
  | .chtabReadErrorRetry c => Sys2Proof.Machine.execChtabReadErrorRetry c s
  | .chHoldWrite who c v => Sys2Proof.Machine.execChHoldWrite who c v s
  | .islandPowered c => Sys2Proof.Machine.execIslandPowered c s
  | .tddFrameBoundary c rx => Sys2Proof.Machine.execTddFrameBoundary c rx s
  | .handshakeAnswer c crcOk id => Sys2Proof.Machine.execHandshakeAnswer c crcOk id s
  | .trainingPhaseEnd c r => Sys2Proof.Machine.execTrainingPhaseEnd c r s
  | .marginUpdate c snrUs => Sys2Proof.Machine.execMarginUpdate c snrUs s
  | .economyIdleTimerExpiry c => Sys2Proof.Machine.execEconomyIdleTimerExpiry c s
  | .overheadReceived c codewords => Sys2Proof.Machine.execOverheadReceived c codewords s
  | .dtuReceived c bytes uncorr slotTime => Sys2Proof.Machine.execDtuReceived c bytes uncorr slotTime s
  | .dtuClose c => Sys2Proof.Machine.execDtuClose c s
  | .dtuLost c seq => Sys2Proof.Machine.execDtuLost c seq s
  | .lossOfLine c => Sys2Proof.Machine.execLossOfLine c s
  | .tribBlock r seq res data => Sys2Proof.Machine.execTribBlock r seq res data s
  | .datumSecondBoundary => Sys2Proof.Machine.execDatumSecondBoundary s
  | .ppsOutWidthExpiry => Sys2Proof.Machine.execPpsOutWidthExpiry s
  | .psbdReceived hi lo codewords => Sys2Proof.Machine.execPsbdReceived hi lo codewords s
  | .psyncExpectedMiss => Sys2Proof.Machine.execPsyncExpectedMiss s
  | .optRxLosChange level => Sys2Proof.Machine.execOptRxLosChange level s
  | .lodsTo2Expiry => Sys2Proof.Machine.execLodsTo2Expiry s
  | .optModAbsChange level => Sys2Proof.Machine.execOptModAbsChange level s
  | .opticsDiagPoll p => Sys2Proof.Machine.execOpticsDiagPoll p s
  | .i2cStretchTimeout j => Sys2Proof.Machine.execI2cStretchTimeout j s
  | .ploamReceived body check => Sys2Proof.Machine.execPloamReceived body check s
  | .burstProfile m j p => Sys2Proof.Machine.execBurstProfile m j p s
  | .assignOnuId m id snHi snLo => Sys2Proof.Machine.execAssignOnuId m id snHi snLo s
  | .rangingTime m absolute delay => Sys2Proof.Machine.execRangingTime m absolute delay s
  | .assignAllocId m id add => Sys2Proof.Machine.execAssignAllocId m id add s
  | .deactivateOnuId m => Sys2Proof.Machine.execDeactivateOnuId m s
  | .disableSerialNumber m o snHi snLo => Sys2Proof.Machine.execDisableSerialNumber m o snHi snLo s
  | .xgemFrameReceived hi lo wordPos hdrBit payload => Sys2Proof.Machine.execXgemFrameReceived hi lo wordPos hdrBit payload s
  | .burstContentFix tds b => Sys2Proof.Machine.execBurstContentFix tds b s
  | .burstWindowOpen => Sys2Proof.Machine.execBurstWindowOpen s
  | .burstWindowClose => Sys2Proof.Machine.execBurstWindowClose s
  | .backstopExpiry => Sys2Proof.Machine.execBackstopExpiry s
  | .rogueLight => Sys2Proof.Machine.execRogueLight s
  | .rogueClear w => Sys2Proof.Machine.execRogueClear w s
  | .emstopSet who => Sys2Proof.Machine.execEmstopSet who s
  | .ponPowerSaveTimerExpiry t => Sys2Proof.Machine.execPonPowerSaveTimerExpiry t s
  | .uplPortRead who idx => Sys2Proof.Machine.execUplPortRead who idx s
  | .uplPortWrite who idx => Sys2Proof.Machine.execUplPortWrite who idx s
  | .uplPortClear who idx => Sys2Proof.Machine.execUplPortClear who idx s
  | .upstreamFrameReceived c bytes rxTime => Sys2Proof.Machine.execUpstreamFrameReceived c bytes rxTime s
  | .pauseFrameReceived c bytes => Sys2Proof.Machine.execPauseFrameReceived c bytes s
  | .pauseTimerExpiry c p => Sys2Proof.Machine.execPauseTimerExpiry c p s
  | .pauseRefreshExpiry c => Sys2Proof.Machine.execPauseRefreshExpiry c s
  | .flowTableRead who idx => Sys2Proof.Machine.execFlowTableRead who idx s
  | .flowTableWrite who idx => Sys2Proof.Machine.execFlowTableWrite who idx s
  | .flowTableClear who idx => Sys2Proof.Machine.execFlowTableClear who idx s
  | .bufferUncorrectableError bank e => Sys2Proof.Machine.execBufferUncorrectableError bank e s
  | .schedulerSelect c d prio => Sys2Proof.Machine.execSchedulerSelect c d prio s
  | .refillTick => Sys2Proof.Machine.execRefillTick s
  | .gateIntervalExpiry c => Sys2Proof.Machine.execGateIntervalExpiry c s
  | .gclSwap who c => Sys2Proof.Machine.execGclSwap who c s
  | .histogramSample => Sys2Proof.Machine.execHistogramSample s
  | .histClr who c => Sys2Proof.Machine.execHistClr who c s
  | .todLoad who kind => Sys2Proof.Machine.execTodLoad who kind s
  | .phaseAverage => Sys2Proof.Machine.execPhaseAverage s
  | .holdoverEntry => Sys2Proof.Machine.execHoldoverEntry s
  | .holdErrExceeded err => Sys2Proof.Machine.execHoldErrExceeded err s
  | .crystalCalibration inc => Sys2Proof.Machine.execCrystalCalibration inc s
  | .datumInvalidate who => Sys2Proof.Machine.execDatumInvalidate who s
  | .ppsInEdge => Sys2Proof.Machine.execPpsInEdge s
  | .rxtsNext who f => Sys2Proof.Machine.execRxtsNext who f s
  | .gcmEncrypt q blk => Sys2Proof.Machine.execGcmEncrypt q blk s
  | .gcmDecrypt q blk => Sys2Proof.Machine.execGcmDecrypt q blk s
  | .cmac q blk => Sys2Proof.Machine.execCmac q blk s
  | .cvUpdate q => Sys2Proof.Machine.execCvUpdate q s
  | .cvSave q => Sys2Proof.Machine.execCvSave q s
  | .cvRestore q => Sys2Proof.Machine.execCvRestore q s
  | .keyGen q => Sys2Proof.Machine.execKeyGen q s
  | .keyLoad q blk => Sys2Proof.Machine.execKeyLoad q blk s
  | .keyImport q blk => Sys2Proof.Machine.execKeyImport q blk s
  | .keyExport q blk => Sys2Proof.Machine.execKeyExport q blk s
  | .keyDerive q => Sys2Proof.Machine.execKeyDerive q s
  | .keyClear q => Sys2Proof.Machine.execKeyClear q s
  | .keyInfo q => Sys2Proof.Machine.execKeyInfo q s
  | .random q => Sys2Proof.Machine.execRandom q s
  | .ccmStar q blk => Sys2Proof.Machine.execCcmStar q blk s
  | .gcmKnownAnswerTest core pass => Sys2Proof.Machine.execGcmKnownAnswerTest core pass s
  | .gcmCoreFail core hit => Sys2Proof.Machine.execGcmCoreFail core hit s
  | .trngHealthFail => Sys2Proof.Machine.execTrngHealthFail s
  | .trngRetest pass => Sys2Proof.Machine.execTrngRetest pass s
  | .drbgReseed => Sys2Proof.Machine.execDrbgReseed s
  | .maskReseed => Sys2Proof.Machine.execMaskReseed s
  | .radFrame seq res frame => Sys2Proof.Machine.execRadFrame seq res frame s
  | .csmaBackoffExpiry busy => Sys2Proof.Machine.execCsmaBackoffExpiry busy s
  | .lbtListenEnd free => Sys2Proof.Machine.execLbtListenEnd free s
  | .radioTxEnd => Sys2Proof.Machine.execRadioTxEnd s
  | .radioAckReceived psdu fcs4 => Sys2Proof.Machine.execRadioAckReceived psdu fcs4 s
  | .radioAckTimeout => Sys2Proof.Machine.execRadioAckTimeout s
  | .radioFrameReceived f => Sys2Proof.Machine.execRadioFrameReceived f s
  | .radioAckTransmit => Sys2Proof.Machine.execRadioAckTransmit s
  | .radioRxDeliver => Sys2Proof.Machine.execRadioRxDeliver s
  | .radDevRead who idx => Sys2Proof.Machine.execRadDevRead who idx s
  | .radDevWrite who idx => Sys2Proof.Machine.execRadDevWrite who idx s
  | .radDevClear who idx => Sys2Proof.Machine.execRadDevClear who idx s
  | .levelCrossingDeclared j x => Sys2Proof.Machine.execLevelCrossingDeclared j x s
  | .sealComplete => Sys2Proof.Machine.execSealComplete s
  | .feedAdmissionTick feedin => Sys2Proof.Machine.execFeedAdmissionTick feedin s
  | .feedRampEnd c => Sys2Proof.Machine.execFeedRampEnd c s
  | .feedShortTrip c => Sys2Proof.Machine.execFeedShortTrip c s
  | .feedOverloadTrip c => Sys2Proof.Machine.execFeedOverloadTrip c s
  | .feedPowerTrip c => Sys2Proof.Machine.execFeedPowerTrip c s
  | .feedBackoffExpiry c => Sys2Proof.Machine.execFeedBackoffExpiry c s
  | .feedTriesReset c => Sys2Proof.Machine.execFeedTriesReset c s
  | .feedInrushAbort c => Sys2Proof.Machine.execFeedInrushAbort c s
  | .feedUnlock who c => Sys2Proof.Machine.execFeedUnlock who c s
  | .feedHoldOff who c on => Sys2Proof.Machine.execFeedHoldOff who c on s
  | .feedPulseStart c => Sys2Proof.Machine.execFeedPulseStart c s
  | .feedPulseEnd c => Sys2Proof.Machine.execFeedPulseEnd c s
  | .feedWindowClose c current => Sys2Proof.Machine.execFeedWindowClose c current s
  | .idleTimerExpiry => Sys2Proof.Machine.execIdleTimerExpiry s
  | .idleExit => Sys2Proof.Machine.execIdleExit s
  | .sleepTimerExpiry => Sys2Proof.Machine.execSleepTimerExpiry s
  | .l1EntryRequest => Sys2Proof.Machine.execL1EntryRequest s
  | .pwrEnter seq => Sys2Proof.Machine.execPwrEnter seq s
  | .pwrGoDeep => Sys2Proof.Machine.execPwrGoDeep s
  | .pwrGoOff => Sys2Proof.Machine.execPwrGoOff s
  | .pmeTurnOff => Sys2Proof.Machine.execPmeTurnOff s
  | .entryTimeout => Sys2Proof.Machine.execEntryTimeout s
  | .powerDownStep => Sys2Proof.Machine.execPowerDownStep s
  | .railCollapse r => Sys2Proof.Machine.execRailCollapse r s
  | .wakePin => Sys2Proof.Machine.execWakePin s
  | .pwrAlarm => Sys2Proof.Machine.execPwrAlarm s
  | .powerUpStep => Sys2Proof.Machine.execPowerUpStep s
  | .railGoodTimeout => Sys2Proof.Machine.execRailGoodTimeout s
  | .powerUpRetry => Sys2Proof.Machine.execPowerUpRetry s
  | .imageHandover positions parseOk => Sys2Proof.Machine.execImageHandover positions parseOk s
  | .watchdogKick cp bit => Sys2Proof.Machine.execWatchdogKick cp bit s
  | .watchdogExpiry cp => Sys2Proof.Machine.execWatchdogExpiry cp s
  | .cpReady cp => Sys2Proof.Machine.execCpReady cp s
  | .flashWrite op off len => Sys2Proof.Machine.execFlashWrite op off len s
  | .ptpUnpairedDrop => Sys2Proof.Machine.execPtpUnpairedDrop s
  | .fwStage seq res img => Sys2Proof.Machine.execFwStage seq res img s
  | .fwActivate seq => Sys2Proof.Machine.execFwActivate seq s
  | .fwConfirm seq => Sys2Proof.Machine.execFwConfirm seq s
  | .fwFallback seq => Sys2Proof.Machine.execFwFallback seq s
  | .capsuleApply seq res cap positions => Sys2Proof.Machine.execCapsuleApply seq res cap positions s
  | .confirmationTimeout => Sys2Proof.Machine.execConfirmationTimeout s
  | .fwSlotFallback => Sys2Proof.Machine.execFwSlotFallback s
  | .fwSlotConfirm => Sys2Proof.Machine.execFwSlotConfirm s
  | .revert => Sys2Proof.Machine.execRevert s
  | .bmcOff c on => Sys2Proof.Machine.execBmcOff c on s
  | .lockAll who => Sys2Proof.Machine.execLockAll who s
  | .ahnairSelectFall sck highNs => Sys2Proof.Machine.execAhnairSelectFall sck highNs s
  | .ahnairSelectRise bits => Sys2Proof.Machine.execAhnairSelectRise bits s
  | .read addr => Sys2Proof.Machine.execRead addr s
  | .write addr => Sys2Proof.Machine.execWrite addr s
  | .status => Sys2Proof.Machine.execStatus s
  | .arm addr => Sys2Proof.Machine.execArm addr s
  | .ahnairUnknownOpcode hdr => Sys2Proof.Machine.execAhnairUnknownOpcode hdr s
  | .ahnairDataWord v => Sys2Proof.Machine.execAhnairDataWord v s
  | .evtSoft who v => Sys2Proof.Machine.execEvtSoft who v s
  | .eventCounterConfig who k v => Sys2Proof.Machine.execEventCounterConfig who k v s
  | .eventCounterClear who k => Sys2Proof.Machine.execEventCounterClear who k s
  | .counterDurationTick => Sys2Proof.Machine.execCounterDurationTick s
  | .secOperationComplete q res data => Sys2Proof.Machine.execSecOperationComplete q res data s
  | .identityLoaded copyA copyB => Sys2Proof.Machine.execIdentityLoaded copyA copyB s
  | .crystalRunning => Sys2Proof.Machine.execCrystalRunning s

end Sys2Proof.Machine
end

