-- ==== Sys2Proof/Machine/Step.lean ====
section
/-! DEFINITION. One step of the terminal: the command at the front of the queue, or a clock edge when none waits. -/

namespace Sys2Proof.Machine

open Sys2Proof

/-- The command at the front acts on the state with the queue's rest. With no command waiting, one edge of the clock that counts the datum passes (log 3). -/
def step (s : State) : Host.Outcome State Fault Refusal :=
  match s.pending with
  | [] => .next (tick s)
  | c :: rest => exec c { s with pending := rest }

/-- The state with the command that a word of the opcode table spells put at the front of the queue; unchanged where the word spells none. -/
def State.withFetchWord (s : State) (nbits w : Nat) : State :=
  match decodeTableWord nbits w with
  | some c => { s with pending := c :: s.pending }
  | none => s

end Sys2Proof.Machine
end

