-- ==== Sys2Proof/Machine/Pins.lean ====
section
/-! DEFINITION. The balls of the package, the signals they carry, and the level each output drives in a state (18_pins_electrical.md, R387 to R396; R328, R369). -/

namespace Sys2Proof.Machine

open Sys2Proof

/-! ### Signals (Table 18.4) -/

/-- A signal of Table 18.4, with its channel, lane or bit where it has several. -/
inductive Signal where
  | lnTxP (c : Nat) | lnTxN (c : Nat) | lnRxP (c : Nat) | lnRxN (c : Nat) | drvEn (c : Nat) | feedGate (c : Nat) | feedIsns (c : Nat)
  | optTxP | optTxN | optRxP | optRxN | optTxBurstEn | optTxDisable | optTxSd | optRxLos | optModAbs | optScl | optSda
  | rfIoP | rfIoN | rfPaEn
  | pcieTxP (i : Nat) | pcieTxN (i : Nat) | pcieRxP (i : Nat) | pcieRxN (i : Nat) | pcieRefP | pcieRefN | perstN | pcieWakeN
  | intN | ahnCsN | ahnSck | ahnMosi | ahnMiso
  | qspiSck | qspiCsN | qspiIo (i : Nat)
  | pcmBclk | pcmFs | pcmADx | pcmADr | pcmBDx | pcmBDr
  | ppsIn | ppsOut | wake | pwrEnCore | pwrEnSds | pwrEnCh | pwrEnAfe | refEn | refin | xtalIn | xtalOut
  | snsMain | snsBat | snsFeed | snsAux
  | tck | tms | tdi | tdo | trstN | testEn | afeBiasRes
  deriving DecidableEq, Repr

inductive Supply where
  | vddCore | vddCh | vddAfe | vddSds | vddioA | vddioB | vstby | vaonCap | vss
  deriving DecidableEq, Repr

inductive Ball where
  | signal (x : Signal)
  | supply (x : Supply)
  deriving DecidableEq, Repr

inductive PinDir where
  | input | output | both | openDrain
  deriving DecidableEq, Repr

def Signal.dir : Signal → PinDir
  | .lnTxP _ | .lnTxN _ | .drvEn _ | .feedGate _ | .optTxP | .optTxN | .optTxBurstEn | .optTxDisable | .rfPaEn
  | .pcieTxP _ | .pcieTxN _ | .ahnMiso | .qspiSck | .qspiCsN | .pcmBclk | .pcmFs | .pcmADx | .pcmBDx | .ppsOut
  | .pwrEnCore | .pwrEnSds | .pwrEnCh | .pwrEnAfe | .refEn | .xtalOut | .tdo => .output
  | .rfIoP | .rfIoN | .qspiIo _ | .afeBiasRes => .both
  | .optScl | .optSda | .pcieWakeN | .intN => .openDrain
  | _ => .input

/-- The pad supply of a signal. -/
def Signal.supply : Signal → Supply
  | .lnTxP _ | .lnTxN _ | .lnRxP _ | .lnRxN _ | .feedIsns _ | .rfIoP | .rfIoN | .afeBiasRes => .vddAfe
  | .drvEn _ | .feedGate _ | .optTxBurstEn | .optTxDisable | .optTxSd | .optRxLos | .optModAbs | .optScl | .optSda | .rfPaEn => .vddioB
  | .optTxP | .optTxN | .optRxP | .optRxN | .pcieTxP _ | .pcieTxN _ | .pcieRxP _ | .pcieRxN _ | .pcieRefP | .pcieRefN | .refin => .vddSds
  | .qspiSck | .qspiCsN | .qspiIo _ | .pcmBclk | .pcmFs | .pcmADx | .pcmADr | .pcmBDx | .pcmBDr
  | .tck | .tms | .tdi | .tdo | .trstN | .testEn => .vddioA
  | _ => .vstby

/-- The domain of a signal is powered in a state: a channel's line signals follow its island; AON is off in OFF. -/
def Signal.powered (s : State) : Signal → Bool
  | .lnTxP c | .lnTxN c | .lnRxP c | .lnRxN c | .drvEn c => present s c && (chanAt s c).tab.island
  | .feedGate c | .feedIsns c => present s c && s.pwr.domFeed
  | .optTxP | .optTxN | .optRxP | .optRxN | .optTxBurstEn | .optTxDisable | .optTxSd | .optRxLos | .optModAbs | .optScl | .optSda => s.pwr.domUpl
  | .rfIoP | .rfIoN | .rfPaEn => s.pwr.domRad
  | .pcieTxP _ | .pcieTxN _ | .pcieRxP _ | .pcieRxN _ | .pcieRefP | .pcieRefN | .refin
  | .pcmBclk | .pcmFs | .pcmADx | .pcmADr | .pcmBDx | .pcmBDr => s.pwr.domHif
  | .qspiSck | .qspiCsN | .qspiIo _ | .tck | .tms | .tdi | .tdo | .trstN | .testEn => s.pwr.domCore
  | .afeBiasRes => s.pwr.domChla || s.pwr.domChlb
  | _ => decide (s.pwr.state ≠ .off)

/-! ### Levels (R328, R369, R393, R394) -/

/-- What a digital output does: it drives a level, or it is high impedance (released). -/
inductive PinLevel where
  | low | high | z
  deriving DecidableEq, Repr

def PinLevel.of (b : Bool) : PinLevel := if b then .high else .low

/-- The level of a digital output whose value State holds; `none` for the other signals, whose value lies in what they carry. -/
def pinLevel (s : State) (x : Signal) : Option PinLevel :=
  let out (b : Bool) : Option PinLevel := some (if x.powered s then .of b else .z)
  let drain (b : Bool) : Option PinLevel := some (if x.powered s && b then .low else .z)
  match x with
  | .drvEn c => out (drvEn s c)
  | .feedGate c => out (chanAt s c).feed.gate
  | .optTxBurstEn => out s.upl.burstEn
  | .optTxDisable => out s.upl.txDisable
  | .rfPaEn => out s.rad.paEn
  | .pcieWakeN => drain s.hif.pcieWake
  | .intN => drain (intN s)
  | .ahnMiso => if s.mgt.selected then none else some .z
  | .ppsOut => out s.time.ppsOut
  | .pwrEnCore => out s.pwr.enCore
  | .pwrEnSds => out s.pwr.enSds
  | .pwrEnCh => out s.pwr.enCh
  | .pwrEnAfe => out s.pwr.enAfe
  | .refEn => out s.pwr.refEn
  | _ => none

/-- The pull the board fits on a signal, up or down (Table 18.5); TEST_EN is tied to VSS. -/
def Signal.pullUp : Signal → Option Bool
  | .optTxDisable | .optScl | .optSda | .optModAbs | .optRxLos | .intN | .wake | .ahnCsN | .qspiCsN => some true
  | .feedGate _ | .rfPaEn | .drvEn _ | .optTxBurstEn | .optTxSd | .trstN | .pwrEnCore | .pwrEnSds | .pwrEnCh | .pwrEnAfe | .refEn
  | .pcmBclk | .pcmFs | .ppsOut | .testEn => some false
  | _ => none

/-- The level at the ball of a digital output: the driven one, or the pull's while it is high impedance (R328). -/
def ballLevel (s : State) (x : Signal) : Option PinLevel :=
  match pinLevel s x with
  | some .z => (match x.pullUp with | some b => some (.of b) | none => some .z)
  | l => l

/-! ### The balls (R387 to R390) -/

/-- Rows by their position, A = 1 to AU = 35. -/
def rowNames : List String :=
  ["A", "B", "C", "D", "E", "F", "G", "H", "J", "K", "L", "M", "N", "P", "T", "U", "V", "W", "Y"]
  ++ ["AA", "AB", "AC", "AD", "AE", "AF", "AG", "AH", "AJ", "AK", "AL", "AM", "AN", "AP", "AT", "AU"]

/-- The ball of Table 18.2 in the rows of channel k, by the row within the three of k and the column 1 to 6 of the pattern, as channel n's. -/
def channelBall (n row col : Nat) : Ball :=
  match row, col with
  | 0, 1 => .signal (.lnTxP n)
  | 0, 2 => .signal (.lnTxN n)
  | 0, 4 => .signal (.lnRxP n)
  | 0, 5 => .signal (.lnRxN n)
  | 1, 2 => .signal (.drvEn n)
  | 1, 3 => .signal (.feedGate n)
  | 1, 4 => .signal (.feedIsns n)
  | 0, 6 | 1, 6 => .supply .vddAfe
  | _, _ => .supply .vss

/-- The centre field, rows E to AM and columns 7 to 29 (R390). -/
def centreBall (i c : Nat) : Supply :=
  if (i + c) % 2 = 0 then .vss
  else if c ≤ 8 ∨ 28 ≤ c then .vddAfe
  else if c ≤ 18 then .vddCore
  else .vddCh

/-- Rows A to D of Table 18.3, columns 7 to 29; `none` is VSS. -/
def edgeTop : Nat → Nat → Option Ball
  | 1, c => match c with
    | 10 | 11 | 15 | 16 | 19 | 20 => some (.supply .vddSds)
    | 12 => some (.signal .optTxP) | 13 => some (.signal .optTxN)
    | 17 => some (.signal .optRxP) | 18 => some (.signal .optRxN)
    | 24 => some (.signal .rfIoP) | 25 => some (.signal .rfIoN)
    | _ => none
  | 2, c => match c with
    | 10 | 11 => some (.supply .vddSds)
    | 12 => some (.signal .optTxBurstEn) | 13 => some (.signal .optTxDisable) | 14 => some (.signal .optTxSd)
    | 15 => some (.signal .optRxLos) | 16 => some (.signal .optModAbs) | 17 => some (.signal .optScl) | 18 => some (.signal .optSda)
    | 21 | 22 | 23 => some (.supply .vddioB)
    | 24 => some (.signal .rfPaEn)
    | _ => none
  | 3, c => match c with
    | 7 | 29 => some (.supply .vddioB)
    | 8 => some (.signal .refin) | 9 => some (.signal .refEn) | 11 => some (.signal .xtalIn) | 12 => some (.signal .xtalOut)
    | 14 => some (.signal .wake) | 15 => some (.signal .pwrEnCore) | 16 => some (.signal .pwrEnSds)
    | 17 => some (.signal .pwrEnCh) | 18 => some (.signal .pwrEnAfe) | 20 => some (.signal .ppsIn) | 21 => some (.signal .ppsOut)
    | 23 => some (.signal .intN) | 24 => some (.signal .ahnCsN) | 25 => some (.signal .ahnSck)
    | 26 => some (.signal .ahnMosi) | 27 => some (.signal .ahnMiso)
    | _ => none
  | 4, c => match c with
    | 7 | 29 => some (.supply .vddioB)
    | 9 | 10 | 21 | 22 => some (.supply .vstby)
    | 11 | 20 => some (.supply .vaonCap)
    | 14 => some (.signal .snsMain) | 15 => some (.signal .snsBat) | 16 => some (.signal .snsFeed) | 17 => some (.signal .snsAux)
    | _ => none
  | _, _ => none

/-- Rows AN to AU of Table 18.3, columns 7 to 29. -/
def edgeBottom : Nat → Nat → Option Ball
  | 32, c => match c with
    | 7 | 29 => some (.supply .vddioB)
    | 8 | 9 | 16 | 17 | 24 | 25 => some (.supply .vddioA)
    | 10 => some (.signal .qspiSck) | 11 => some (.signal .qspiCsN)
    | 12 | 13 | 14 | 15 => some (.signal (.qspiIo (c - 12)))
    | 18 => some (.signal .pcmBclk) | 19 => some (.signal .pcmFs) | 20 => some (.signal .pcmADx) | 21 => some (.signal .pcmADr)
    | 22 => some (.signal .pcmBDx) | 23 => some (.signal .pcmBDr)
    | _ => none
  | 33, c => match c with
    | 7 | 29 => some (.supply .vddioB)
    | 8 | 9 | 16 | 17 | 18 | 19 | 20 | 21 | 22 | 23 => some (.supply .vddioA)
    | 10 => some (.signal .tck) | 11 => some (.signal .tms) | 12 => some (.signal .tdi) | 13 => some (.signal .tdo)
    | 14 => some (.signal .trstN) | 15 => some (.signal .testEn) | 25 => some (.signal .afeBiasRes)
    | _ => none
  | 34, c => match c with
    | 7 | 8 | 11 | 14 | 17 | 20 | 21 | 24 => some (.supply .vddSds)
    | 9 | 12 | 15 | 18 => some (.signal (.pcieTxP ((c - 9) / 3)))
    | 10 | 13 | 16 | 19 => some (.signal (.pcieTxN ((c - 10) / 3)))
    | 22 => some (.supply .vddioB)
    | 25 => some (.signal .perstN) | 26 => some (.signal .pcieWakeN)
    | _ => none
  | 35, c => match c with
    | 7 | 8 | 11 | 14 | 17 | 20 | 21 | 24 => some (.supply .vddSds)
    | 9 | 12 | 15 | 18 => some (.signal (.pcieRxP ((c - 9) / 3)))
    | 10 | 13 | 16 | 19 => some (.signal (.pcieRxN ((c - 10) / 3)))
    | 22 => some (.signal .pcieRefP) | 23 => some (.signal .pcieRefN)
    | _ => none
  | _, _ => none

/-- The ball at a row and a column, 1 to 35 each. -/
def ballAt (i c : Nat) : Ball :=
  if c ≤ 6 then channelBall ((i - 1) / 3) ((i - 1) % 3) c
  else if 30 ≤ c then channelBall (12 + (i - 1) / 3) ((i - 1) % 3) (36 - c)
  else if 5 ≤ i ∧ i ≤ 31 then .supply (centreBall i c)
  else ((edgeTop i c).orElse (fun _ => edgeBottom i c)).getD (.supply .vss)

/-- How many balls carry a supply. -/
def supplyBalls (x : Supply) : Nat :=
  ((List.range 35).map (fun i => ((List.range 35).filter (fun c => ballAt (i + 1) (c + 1) == .supply x)).length)).foldl (· + ·) 0

end Sys2Proof.Machine
end

