-- ==== Sys2Proof/Safety.lean ====
section
/-! DEFINITION. The terms the statements use: what one command may leave as it was, and which runs neither fault nor refuse. -/

namespace Sys2Proof.Machine

open Sys2Proof

/-- A run of n steps that neither faults nor is refused. -/
def RunsFor : Nat → State → Prop
  | 0, _ => True
  | n + 1, s => ∃ t, step s = .next t ∧ RunsFor n t

/-- Every ring but r is as it was. -/
def OnlyRing (s t : State) (r : Nat) : Prop := ∀ x, x ≠ r → ringAt t x = ringAt s x

/-- Every channel but c is as it was. -/
def OnlyChan (s t : State) (c : Nat) : Prop := ∀ x, x ≠ c → chanAt t x = chanAt s x

/-- The outcome a piece of accepted work is returned with. -/
def returnedWith (s : State) (r : Nat) (seq : Word) : Option Outcome :=
  match findWork (ringAt s r) seq with
  | some w => w.ret
  | none => none

/-- The work of sequence number seq on ring r stands at a stage. -/
def atStage (s : State) (r : Nat) (seq : Word) (st : Stage) : Prop :=
  ∃ w, findWork (ringAt s r) seq = some w ∧ w.stage = st

/-- Every ring keeps its place, size, lifetime and sequence counters (R17, R18). -/
def SameCounters (s t : State) : Prop :=
  ∀ r, (ringAt t r).base = (ringAt s r).base ∧ (ringAt t r).log2 = (ringAt s r).log2 ∧
    (ringAt t r).lifetime = (ringAt s r).lifetime ∧ (ringAt t r).tail = (ringAt s r).tail ∧
    (ringAt t r).head = (ringAt s r).head ∧ (ringAt t r).acc = (ringAt s r).acc ∧ (ringAt t r).cpl = (ringAt s r).cpl ∧
    (ringAt t r).enable = (ringAt s r).enable

/-- What a DEVICE reset of a cause leaves (Table 00.6, R6, R17, R79, R310, R383). -/
structure AfterDeviceReset (s t : State) (code : Nat) : Prop where
  running : t.pwr.state = .run
  cause : t.glb.last = BitVec.ofNat 4 code
  counted : t.glb.count = s.glb.count + 1
  profile : t.glb.inForce = s.glb.next
  windows : t.hif.windows = Vector.replicate 25 (Vector.replicate 8 Window.reset)
  unlocked : t.hif.lock = false ∧ t.upl.lock = false ∧ t.sec.lock = false ∧ t.rad.lock = false ∧ t.sup.lock = false
  channels : ∀ c, c < 24 → (chanAt t c).tab.state = if present s c then .off else .absent
  keysGone : ∀ i, 0 < i → i < 64 → (slotAt t i).valid = false
  counters : SameCounters s t
  recovers : ∃ v, v ∈ t.recov ∧ v.cause = 1 ∧ ∀ r : RingNo, r ∈ v.scope ↔ (ringAt s r.val).enable = true
  kept : t.datum = s.datum ∧ t.part = s.part ∧ t.ledger.epoch = s.ledger.epoch ∧ t.chtabBase = s.chtabBase ∧
    t.chtabEn = s.chtabEn

/-- Slot 0 holds the unit root key, of kind ROOT, owned by the terminal and never exported (R241, R243). -/
def RootKeyHeld (s : State) : Prop :=
  (slotAt s 0).valid = true ∧ (slotAt s 0).kind = 15 ∧ (slotAt s 0).owner = .system ∧ (slotAt s 0).exportable = false ∧
    (slotAt s 0).key = Config.rootKey

/-- No optical diagnostic is valid while the module is absent or the uplink's domain is off (R385), which TEST_EN holds off (R396). -/
def NoDiagWhileAbsent (s : State) : Prop :=
  (s.pwr.testEn = true → s.pwr.domUpl = false) ∧ (
  (s.upl.modAbs = true ∨ s.pwr.domUpl = false) → ∀ i : Fin 5, (vget s.upl.diag i.val (false, 0)).1 = false)

/-- The descriptor of a SEC request of an opcode that is taken up at once: the host's is the first of ring 9 not taken up, with a journal entry free, and firmware's finds its port empty (R237, R248). -/
def secTaken (s : State) (q : SecSrc) (op : Nat) : Option Desc :=
  match q with
  | .host seq =>
    match workAt s 9 seq op .accepted with
    | some w => if secTurn s seq && journalRoom s then some w.d else none
    | none => none
  | .fw d => if d.opcode.toNat = op ∧ s.pwr.domHif ∧ !fwRuns s ∧ s.sec.port = [] then some d else none

/-- A SEC request is returned with a status: accepted work of ring 9, or firmware's operation (R237). -/
def SecReturned (s t : State) (q : SecSrc) (st : Status) : Prop :=
  t.sec = s.sec ∧ t.journal = s.journal ∧
    match q with
    | .host seq => returnedWith t 9 seq = some (Outcome.of st 0 0)
    | .fw _ => t.sent = .fwOutcome st.code 0 0 :: s.sent

/-- A SEC request is executed with an outcome: the host's enters the journal, firmware's goes to it at once (R237, R240). -/
def SecExecuted (s t : State) (q : SecSrc) (st : Status) (r0 r1 : Word) : Prop :=
  match q with
  | .host seq => t.journal = s.journal ++ [{ ring := 9, seq := seq, out := Outcome.of st r0 r1 }]
  | .fw _ => t.journal = s.journal ∧ Out.fwOutcome st.code r0.toNat r1.toNat ∈ t.sent

/-- A SEC operation has passed its checks and its reads are under way. -/
def SecStarted (s t : State) (q : SecSrc) (d : Desc) (blk : Option OpBlock) : Prop :=
  t.sec = { s.sec with ops := s.sec.ops ++ [{ src := q, d := d, blk := blk }] } ∧ t.journal = s.journal ∧
    match q with
    | .host seq => atStage t 9 seq .queued
    | .fw _ => t.rings = s.rings

end Sys2Proof.Machine
end

