-- ==== Sys2Proof/Certificates/Slice0/Obligations.lean ====
section
/-! DEFINITION. The statements for the provers: what each command does and leaves as it was, by the rules of spec/. -/

open Sys2Proof Sys2Proof.Machine

/-- A step runs the command at the front of the queue on the state with the queue's rest. -/
def Obligations.StepRunsFrontCommand : Prop :=
  ∀ (c : Instr) (rest : List Instr) (s : State), step { s with pending := c :: rest } = exec c { s with pending := rest }

/-- With no command waiting, a step is one edge of the clock that counts the datum, and moves only the datum and the remaining slew and holdover error (the model's choice of log 3): CLK_CH's increment with at most 10.0 ppm of slew, toward the remaining offset or, as a slew restarts, at no more than its present rate; the calibrated crystal in DEEP and until the root PLL locks, the sequencer's oscillator before the crystal runs (R219, R224, R227). -/
def Obligations.EmptyQueueCountsDatum : Prop :=
  ∀ s : State, s.pending = [] →
    ∃ t, step s = .next t ∧ t = { s with datum := t.datum, time := t.time } ∧
      t.time = { s.time with
        slew := t.time.slew, slewRate := t.time.slewRate, slewKeep := t.time.slewKeep, holdErr := t.time.holdErr, holdAcc := t.time.holdAcc } ∧
      (s.time.st ≠ .holdover → t.time.holdErr = s.time.holdErr) ∧
      (s.pwr.state = .off → t = s) ∧
      (s.pwr.state = .deep → t.datum = (s.datum + s.time.calInc) % (2 ^ 64 * secUnit) ∧ t.time.slew = s.time.slew) ∧
      (s.pwr.state ≠ .off → s.pwr.state ≠ .deep → s.time.pllLock = true →
        t.datum = (s.datum + (3534952506996 + t.time.slewRate).toNat) % (2 ^ 64 * secUnit) ∧
        t.time.slew = s.time.slew - t.time.slewRate ∧ t.time.slewKeep = false ∧
        t.time.slewRate.natAbs * 1000000 ≤ 3534952506996 * 10 ∧
        t.time.slewRate.natAbs ≤ (if s.time.slewKeep then s.time.slewRate else s.time.slew).natAbs) ∧
      (s.pwr.state ≠ .off → s.pwr.state ≠ .deep → s.time.pllLock = false →
        t.datum = (s.datum + (if s.pwr.xtal then s.time.calInc else 250 * nsUnit)) % (2 ^ 64 * secUnit) ∧ t.time.slew = s.time.slew)

/-- R43: a doorbell value of an existing ring of its owner is taken, ignored as equal, or ignored with DB_ERR and DOORBELL_FAULT; a ring the part lacks, or another function's (R39), raises DOORBELL_FAULT alone; a read answers T, or H on a ring the terminal writes, and changes nothing. Table 02.4, R46, R56: the arbiter grants the express class ahead of control and control ahead of bulk; a descriptor of accepted work is fetched again first; a fetch inside the windows reads up to its class's count of slots, never past T and never past the last slot, and one outside them halts the ring with WIN_ERR (a ring holding a record stays in STALLED_RECORD, the model's choice of log 156). -/
def Obligations.DoorbellsAndFetchGrants : Prop :=
  (∀ (s : State) (who : Requester) (off : BitVec 18) (v : Word) (r : Nat),
    isFw who = false → barServes s who = true → s.pwr.state ≠ .entering → s.pwr.testEn = false → doorbellRing who off.toNat = some r →
    ∃ t, exec (.doorbell who off (some v)) s = .next t ∧
      ((ringOnPart s r = false ∨ ownsRing s who r = false) → t = raise s Src.doorbellFault 0xFF (word r)) ∧
      (ringOnPart s r = true → ownsRing s who r = true → (ringAt s r).enable = true → hostWritten r = true →
        (v - ((ringAt s r).cpl + 1)).toNat ≤ (ringAt s r).size → precedes v (ringAt s r).tail = false →
        (v = (ringAt s r).tail → t = s) ∧
        (v ≠ (ringAt s r).tail →
          ringAt t r = { ringAt s r with tail := v, bmDue := true, bmGate := true } ∧ OnlyRing s t r ∧
          t = { s with rings := t.rings, upl := t.upl, pwr := t.pwr, hif := t.hif, fw := t.fw, evt := t.evt, sent := t.sent })) ∧
      (ringOnPart s r = true → ownsRing s who r = true → (ringAt s r).enable = true → hostWritten r = false →
        ((ringAt s r).cpl + 1 - v).toNat ≤ (ringAt s r).size → precedes v (ringAt s r).head = false →
        (v = (ringAt s r).head → t = s) ∧
        (v ≠ (ringAt s r).head →
          ringAt t r = { ringAt s r with head := v, bmDue := true } ∧ OnlyRing s t r ∧ t = { s with rings := t.rings })) ∧
      (ringOnPart s r = true → ownsRing s who r = true →
        ((ringAt s r).enable = false ∨
          (hostWritten r = true ∧ ((ringAt s r).size < (v - ((ringAt s r).cpl + 1)).toNat ∨ precedes v (ringAt s r).tail = true)) ∨
          (hostWritten r = false ∧ ((ringAt s r).size < ((ringAt s r).cpl + 1 - v).toNat ∨ precedes v (ringAt s r).head = true))) →
        t = raise (setRing s r (fun g => { g with dbErr := true })) Src.doorbellFault 0xFF (word r))) ∧
  (∀ (s : State) (who : Requester) (off : BitVec 18),
    isFw who = false → barServes s who = true → s.pwr.testEn = false →
    ∃ t v, exec (.doorbell who off none) s = .next t ∧ t = emitOut s (.doorbellAnswer who off.toNat v) ∧
      (doorbellRing who off.toNat = none → v = 0) ∧
      (∀ r, doorbellRing who off.toNat = some r → ringOnPart s r = true →
        v = if hostWritten r then (ringAt s r).tail else (ringAt s r).head)) ∧
  (∀ (s : State) (r : Nat), grant s = some r →
    mayGrant s r = true ∧ r < 160 ∧
    (∀ x, x < 160 → mayGrant s x = true → ringClass r ≤ ringClass x) ∧
    ∃ t, exec .descriptorFetch s = .next t ∧ OnlyRing s t r ∧
      t = { s with hif := t.hif, rings := t.rings, evt := t.evt, sent := t.sent } ∧
      (∀ w, toRefetch s r = some w → findWork (ringAt s r) w.seq = some w →
        (inWindows s (ringOwner s r) false (slotAddr (ringAt s r) w.seq) 32 = true →
          ringAt t r = { ringAt s r with refetch := some w.seq } ∧
          t.sent = readRequests s (ringOwner s r) (slotAddr (ringAt s r) w.seq) 32 ++ s.sent) ∧
        (inWindows s (ringOwner s r) false (slotAddr (ringAt s r) w.seq) 32 = false →
          (ringAt t r).winErr = true ∧ (ringAt t r).state = (ringAt s r).state ∧
          (isRxRing r = false → returnedWith t r w.seq = some (Outcome.of .retWindow 0 0)))) ∧
      (toRefetch s r = none →
        inWindows s (ringOwner s r) false (slotAddr (ringAt s r) ((ringAt s r).acc + 1)) (32 * fetchCount (ringAt s r) r) = true →
        ringAt t r = { ringAt s r with fetch := some ((ringAt s r).acc + 1, fetchCount (ringAt s r) r) } ∧
        t.sent = readRequests s (ringOwner s r) (slotAddr (ringAt s r) ((ringAt s r).acc + 1)) (32 * fetchCount (ringAt s r) r) ++ s.sent ∧
        1 ≤ fetchCount (ringAt s r) r ∧ fetchCount (ringAt s r) r ≤ 8 ∧
        (ringClass r = 0 → fetchCount (ringAt s r) r = 1) ∧
        fetchCount (ringAt s r) r ≤ ((ringAt s r).tail - ((ringAt s r).acc + 1)).toNat ∧
        ((ringAt s r).acc + 1).toNat % (ringAt s r).size + fetchCount (ringAt s r) r ≤ (ringAt s r).size) ∧
      (toRefetch s r = none →
        inWindows s (ringOwner s r) false (slotAddr (ringAt s r) ((ringAt s r).acc + 1)) (32 * fetchCount (ringAt s r) r) = false →
        ringAt t r = { ringAt s r with
          halted := true, state := if (ringAt s r).state = .stalledRecord then .stalledRecord else .halted, fetch := none, winErr := true }))

/-- R44, R47, R50, R63: a whole fetch is accepted in sequence order, A rising by its count, each descriptor read from its 32 bytes by Table 02.5; a descriptor whose SEQ differs is its own RET_SEQ return and sets SEQ_ERR, and one whose opcode its ring does not take its RET_OPCODE. R97: a transmit descriptor of a channel outside SERVICE and ECONOMY is returned RET_NO_PATH at its fetch. Table 02.10: a fetch that ends in an error accepts nothing, halts its ring with DMA_ERR and raises DMA_FAULT. R56: the fetch of an accepted descriptor's slot a second time makes it stand again. RING_STAT.HALTED written 1 resumes fetching (R56): the ring's HALTED clears, its state returns to ACTIVE, and nothing else changes. -/
def Obligations.FetchesAcceptedOrHalted : Prop :=
  (∀ (s : State) (r : RingNo) (data : List Byte) (first : Word) (n : Nat),
    (ringAt s r.val).refetch = none → (ringAt s r.val).fetch = some (first, n) → n ≤ 8 → data.length = 32 * n →
    ∃ t new, exec (.descriptorFetchComplete r .ok data) s = .next t ∧ OnlyRing s t r.val ∧ t = { s with rings := t.rings } ∧
      ringAt t r.val = { ringAt s r.val with
        fetch := none, acc := (ringAt s r.val).acc + word n, work := (ringAt s r.val).work ++ new,
        seqErr := (ringAt t r.val).seqErr } ∧
      new.length = n ∧
      (∀ i (w : Work), new[i]? = some w →
        w.d = parseDesc ((data.drop (32 * i)).take 32) ∧ w.seq = (ringAt s r.val).acc + 1 + word i ∧ w.at_ = s.datum ∧
        w.stage = .accepted ∧
        (w.d.seq ≠ w.seq → w.ret = some (Outcome.of .retSeq 0 0) ∧ (ringAt t r.val).seqErr = true) ∧
        (w.d.seq = w.seq → opcodeAllowed r.val w.d.opcode.toNat = false → w.ret = some (Outcome.of .retOpcode 0 0)) ∧
        (∀ c, w.d.seq = w.seq → opcodeAllowed r.val w.d.opcode.toNat = true → ringChan r.val = some c → (r.val - 16) % 6 < 2 →
          serving s c = false → w.ret = some (Outcome.of .retNoPath 0 0)) ∧
        (w.d.seq = w.seq → opcodeAllowed r.val w.d.opcode.toNat = true → noPathAt s r.val w.d = false → w.ret = none))) ∧
  (∀ (s : State) (r : RingNo) (data : List Byte) (res : XferResult) (first : Word) (n : Nat),
    (ringAt s r.val).refetch = none → (ringAt s r.val).fetch = some (first, n) → data.length ≤ 256 → res ≠ .ok →
    ∃ t, exec (.descriptorFetchComplete r res data) s = .next t ∧ OnlyRing s t r.val ∧
      ringAt t r.val = { ringAt s r.val with
        halted := true, state := if (ringAt s r.val).state = .stalledRecord then .stalledRecord else .halted,
        fetch := none, dmaErr := true } ∧
      t = { s with hif := t.hif, rings := t.rings, evt := t.evt, sent := t.sent }) ∧
  (∀ (s : State) (r : RingNo) (data : List Byte) (w : Work),
    (ringAt s r.val).refetch = some w.seq → toRefetch s r.val = some w → findWork (ringAt s r.val) w.seq = some w →
    data.length = 32 → (parseDesc data).seq = w.seq →
    ∃ t, exec (.descriptorFetchComplete r .ok data) s = .next t ∧ OnlyRing s t r.val ∧ t = { s with rings := t.rings } ∧
      (ringAt t r.val).refetch = none ∧ (ringAt t r.val).acc = (ringAt s r.val).acc ∧
      findWork (ringAt t r.val) w.seq = some { w with d := parseDesc data, stage := .accepted }) ∧
  (∀ (s : State) (who : Requester) (r : RingNo),
    reachesRing who r.val = true → ringOnPart s r.val = true → (ringAt s r.val).halted = true →
    ∃ t, exec (.ringHaltedClear who r) s = .next t ∧ OnlyRing s t r.val ∧ t = { s with rings := t.rings } ∧
      ringAt t r.val = { ringAt s r.val with
        halted := false, state := if (ringAt s r.val).state = .halted then .active else (ringAt s r.val).state })

/-- R51: what a write of RING_CFG_0 or RING_CFG_1 does to ENABLE, VECTOR and LOG2_SIZE, and the counters of a ring it creates (R40). R52: CREATE_RING is returned with the first status of R52's list that matches, and otherwise creates the ring with the counters of R40 and ends OK. R53: DESTROY_RING is returned with the first status that matches, and otherwise disables the ring and ends OK; every accepted descriptor of the ring without an outcome is returned RET_DESTROYED. The benchmark record of either change is written as it takes effect (R73), so both wait while the ledger is in use and the PF may not master the bus; a creation also waits for the outcomes of accepted work that a destroyed ring still owes (R65; the model's reading, log 157). -/
def Obligations.RingsCreatedAndDestroyed : Prop :=
  (∀ (s : State) (who : Requester) (r : Fin 2) (v : Word), reachesAll who = true →
    ∃ t, exec (.ringCfgWrite who r v) s = .next t ∧
      (∀ x, x ≠ r.val → ringAt t x = { ringAt s x with work := (ringAt t x).work }) ∧
      (r = 0 → OnlyRing s t 0) ∧
      t = { s with rings := t.rings, hif := t.hif, ledger := t.ledger, sup := t.sup, evt := t.evt, sent := t.sent } ∧
      (ringAt t r.val).vector = BitVec.ofNat 8 (bits v 23 16) ∧
      (ringAt t r.val).base = (ringAt s r.val).base ∧
      (bitOf v 31 = true → r = 0 → (ringAt s 1).enable = false → (ringAt t 0).enable = (ringAt s 0).enable) ∧
      (bitOf v 31 = true → (r = 1 ∨ (ringAt s 1).enable = true) → (ringAt t r.val).enable = true) ∧
      (bitOf v 31 = true → (r = 1 ∨ (ringAt s 1).enable = true) → (ringAt s r.val).enable = false →
        (ringAt t r.val).tail = 0 ∧ (ringAt t r.val).head = 0 ∧ (ringAt t r.val).acc = 0xFFFFFFFF ∧
        (ringAt t r.val).cpl = 0xFFFFFFFF ∧ (ringAt t r.val).state = .active) ∧
      (bitOf v 31 = false → (ringAt s 0).acc ≠ (ringAt s 0).cpl → (ringAt t r.val).enable = (ringAt s r.val).enable) ∧
      (bitOf v 31 = false → r = 1 → (ringAt s 0).enable = true → (ringAt t 1).enable = (ringAt s 1).enable) ∧
      (bitOf v 31 = false → (ringAt s 0).acc = (ringAt s 0).cpl → (r = 0 ∨ (ringAt s 0).enable = false) →
        (ringAt t r.val).enable = false) ∧
      ((ringAt t r.val).log2 ≠ (ringAt s r.val).log2 →
        (ringAt s r.val).enable = false ∧ (ringAt t r.val).enable = false ∧
        (ringAt t r.val).log2 = BitVec.ofNat 5 (bits v 12 8) ∧ 6 ≤ bits v 12 8 ∧ bits v 12 8 ≤ 16)) ∧
  (∀ (s : State) (r : RingNo) (seq : Word) (w : Work), cmdWork s r.val seq 0x0100 = some w →
    ∃ t, exec (.createRing r seq) s = .next t ∧
      (ringOnPart s (bits w.d.p0 7 0) = false → returnedWith t r.val seq = some (Outcome.of .retAbsent 0 0)) ∧
      (ringOnPart s (bits w.d.p0 7 0) = true → mayCreate r.val (bits w.d.p0 7 0) = false →
        returnedWith t r.val seq = some (Outcome.of .retDenied 0 0)) ∧
      (ringOnPart s (bits w.d.p0 7 0) = true → mayCreate r.val (bits w.d.p0 7 0) = true →
        (w.d.addr.toNat % 4096 ≠ 0 ∨ bits w.d.p0 12 8 < 6 ∨ 16 < bits w.d.p0 12 8) →
        returnedWith t r.val seq = some (Outcome.of .retParam 0 0)) ∧
      (createStatus s r.val w.d ≠ none → t = { s with rings := t.rings } ∧ OnlyRing s t r.val) ∧
      (createStatus s r.val w.d = none → (benchReady s = false ∨ outcomesOwed (ringAt s (bits w.d.p0 7 0)) = true) → t = s) ∧
      (createStatus s r.val w.d = none → benchReady s = true → outcomesOwed (ringAt s (bits w.d.p0 7 0)) = false →
        (ringAt t (bits w.d.p0 7 0)).enable = true ∧ (ringAt t (bits w.d.p0 7 0)).tail = 0 ∧
        (ringAt t (bits w.d.p0 7 0)).head = 0 ∧ (ringAt t (bits w.d.p0 7 0)).acc = 0xFFFFFFFF ∧
        (ringAt t (bits w.d.p0 7 0)).cpl = 0xFFFFFFFF ∧
        (ringAt t (bits w.d.p0 7 0)).base.toNat * 4096 = w.d.addr.toNat ∧
        (ringAt t (bits w.d.p0 7 0)).log2.toNat = bits w.d.p0 12 8 ∧
        t.journal = s.journal ++ [{ ring := r, seq := seq, out := Outcome.of .ok 0 0 }] ∧
        t = { s with rings := t.rings, chans := t.chans, journal := t.journal, hif := t.hif, ledger := t.ledger, sup := t.sup,
                     evt := t.evt, sent := t.sent })) ∧
  (∀ (s : State) (r : RingNo) (seq : Word) (w : Work), cmdWork s r.val seq 0x0101 = some w →
    ∃ t, exec (.destroyRing r seq) s = .next t ∧
      (ringOnPart s (bits w.d.p0 7 0) = false → returnedWith t r.val seq = some (Outcome.of .retAbsent 0 0)) ∧
      (ringOnPart s (bits w.d.p0 7 0) = true → mayCreate r.val (bits w.d.p0 7 0) = false →
        returnedWith t r.val seq = some (Outcome.of .retDenied 0 0)) ∧
      (ringOnPart s (bits w.d.p0 7 0) = true → mayCreate r.val (bits w.d.p0 7 0) = true →
        (ringAt s (bits w.d.p0 7 0)).enable = false → returnedWith t r.val seq = some (Outcome.of .retBusy 0 0)) ∧
      (destroyStatus s r.val w.d = none → benchReady s = false → t = s) ∧
      (destroyStatus s r.val w.d = none → benchReady s = true →
        (ringAt t (bits w.d.p0 7 0)).enable = false ∧ (ringAt t (bits w.d.p0 7 0)).state = .disabled ∧
        (∀ q x, workOpen s (bits w.d.p0 7 0) q = some x →
          returnedWith t (bits w.d.p0 7 0) q = some (Outcome.of .retDestroyed 0 0)) ∧
        t.journal = s.journal ++ [{ ring := r, seq := seq, out := Outcome.of .ok 0 0 }] ∧
        t = { s with rings := t.rings, journal := t.journal, chans := t.chans, upl := t.upl, rad := t.rad, sec := t.sec, hif := t.hif,
                     ledger := t.ledger, sup := t.sup, evt := t.evt, sent := t.sent }))

/-- R42, R44, R58: the record of a submission ring's next outcome goes as one write of 32 bytes to the next slot of its completion ring, and is held, with the ring in STALLED_RECORD and RING_STALLED raised once, when no slot is released. R66 to R68: when the record of a piece of work is acknowledged, C passes it, its journal entry frees, and W of the completion ring moves on by one once every older slot is acknowledged. R59: at the end of MOD_TIME a ring with counted records sends its vector and counts afresh; one without counted records sends nothing. -/
def Obligations.RecordsWrittenAcknowledgedAndSignalled : Prop :=
  (∀ (s : State) (r : RingNo) (w : Work) (o : Outcome),
    r.val ≠ 2 → hostWritten r.val = true → frozen s = false → recordRing r.val ≠ r.val → nextOutcome s r.val = some (w, o) →
    (ringAt s r.val).state ≠ .recovering → (ringAt s (recordRing r.val)).state ≠ .recovering →
    (ringAt s (recordRing r.val)).enable = true → mayMaster s (ringOwner s (recordRing r.val)) = true →
    (ringAt s (recordRing r.val)).lost = [] →
    ∃ t, exec (.recordWrite r) s = .next t ∧ t = { s with rings := t.rings, evt := t.evt, hif := t.hif, sent := t.sent } ∧
      t.journal = s.journal ∧ (ringAt t r.val).cpl = (ringAt s r.val).cpl ∧
      (slotFree (ringAt s (recordRing r.val)) (nextRecord (ringAt s (recordRing r.val))) = true →
        inWindows s (ringOwner s (recordRing r.val)) true
          (slotAddr (ringAt s (recordRing r.val)) (nextRecord (ringAt s (recordRing r.val)))) 32 = true →
        (∃ b : List Byte, b.length = 32 ∧
          b = recordBytes s r.val w.seq w.d.cookie o w.recov
            (phaseBit (ringAt s (recordRing r.val)).log2.toNat (nextRecord (ringAt s (recordRing r.val)))) ∧
          Out.memWrite (ringOwner s (recordRing r.val))
            (slotAddr (ringAt s (recordRing r.val)) (nextRecord (ringAt s (recordRing r.val)))) b ∈ t.sent ∧
          (ringAt t (recordRing r.val)).unacked = (ringAt s (recordRing r.val)).unacked ++
            [{ src := .work r w.seq, slot := nextRecord (ringAt s (recordRing r.val)), bytes := b, irq := w.d.flags.getLsbD 0 }])) ∧
      (slotFree (ringAt s (recordRing r.val)) (nextRecord (ringAt s (recordRing r.val))) = false →
        (ringAt t (recordRing r.val)).state = .stalledRecord ∧
        (ringAt t (recordRing r.val)).unacked = (ringAt s (recordRing r.val)).unacked ∧
        ((ringAt s (recordRing r.val)).state = .stalledRecord → t = s))) ∧
  (∀ (s : State) (q r : RingNo) (seq : Word) (rest : List Issued) (x : Issued),
    (ringAt s q.val).unacked = x :: rest → x.src = .work r seq → s.pwr.entryReq = none →
    ∃ t, exec (.recordAcknowledged q) s = .next t ∧ t = { s with rings := t.rings, journal := t.journal } ∧
      (ringAt t r.val).cpl = seq ∧
      (ringAt t q.val).unacked = rest ∧
      (r ≠ q → (ringAt s q.val).early = [] → x.slot = (ringAt s q.val).cpl + 1 → (ringAt t q.val).cpl = (ringAt s q.val).cpl + 1) ∧
      (r ≠ q → x.slot ≠ (ringAt s q.val).cpl + 1 →
        (ringAt t q.val).cpl = (ringAt s q.val).cpl ∧ (ringAt t q.val).early = (ringAt s q.val).early ++ [x.slot]) ∧
      findWork (ringAt t r.val) seq = none ∧ journalOf t r.val seq = none ∧
      (∀ y, y ≠ q.val → y ≠ r.val → ringAt t y = ringAt s y)) ∧
  (∀ (s : State) (r : RingNo),
    ∃ t, exec (.modTimeExpiry (.ring r)) s = .next t ∧ OnlyRing s t r.val ∧
      t = { s with rings := t.rings, hif := t.hif, sent := t.sent } ∧
      ((ringAt s r.val).modCnt = 0 → t = s) ∧
      ringAt t r.val = { ringAt s r.val with modCnt := 0 } ∧
      (∀ e, (ringAt s r.val).modCnt ≠ 0 →
        (vget s.hif.funcs (ringOwner s r.val) (Func.reset 0)).table[(ringAt s r.val).vector.toNat]? = some e →
        (vget s.hif.funcs (ringOwner s r.val) (Func.reset 0)).bme = true → e.ctrl.getLsbD 0 = false →
        t.sent = .msix (ringOwner s r.val) (ringAt s r.val).vector.toNat :: s.sent))

/-- R189, Table 02.7: a TX_FRAME is returned with the first status that matches (RET_NO_PATH where its path cannot carry it, RET_LENGTH outside 14 to 9,212 bytes), and otherwise waits for its buffer read; nothing else changes. R56, R62, R179: a transmit buffer is read in its ring's turn, whole and inside its function's windows, once cells are free; outside the windows the work is returned RET_WINDOW with WIN_ERR. R62, R189: a transmit buffer read that fails returns its work RET_DMA and the ring goes on; a whole one stores the frame, padded, tagged and with its FCS, at the tail of its queue. -/
def Obligations.TransmitWorkFollowed : Prop :=
  (∀ (s : State) (r : RingNo) (seq : Word) (w : Work), workAt s r.val seq 0x0001 .accepted = some w →
    ∃ t, exec (.txFrame r seq) s = .next t ∧ OnlyRing s t r.val ∧ t = { s with rings := t.rings } ∧
      (pathOpen s r.val = false → returnedWith t r.val seq = some (Outcome.of .retNoPath 0 0)) ∧
      (pathOpen s r.val = true → ringChan r.val = none → (w.d.len.toNat < 14 ∨ 9212 < w.d.len.toNat) →
        returnedWith t r.val seq = some (Outcome.of .retLength 0 0)) ∧
      (pathOpen s r.val = true → ringChan r.val = none → 14 ≤ w.d.len.toNat → w.d.len.toNat ≤ 9200 →
        portActive s (bits w.d.p1 15 0) = false → returnedWith t r.val seq = some (Outcome.of .retParam 0 0)) ∧
      (txStatus s r.val w.d = none → atStage t r.val seq .wantRead)) ∧
  (∀ (s : State) (r : RingNo) (seq : Word) (w : Work), workAt s r.val seq 0x0001 .wantRead = some w →
    readTurn s r.val seq = true → mayMaster s (ringOwner s r.val) = true →
    ∃ t, exec (.txBufferRead r seq) s = .next t ∧ OnlyRing s t r.val ∧ t.journal = s.journal ∧ t.ledger = s.ledger ∧
      t.datum = s.datum ∧ t.pwr = s.pwr ∧
      (inWindows s (ringOwner s r.val) false w.d.addr.toNat w.d.len.toNat = false →
        returnedWith t r.val seq = some (Outcome.of .retWindow 0 0) ∧ (ringAt t r.val).winErr = true) ∧
      (inWindows s (ringOwner s r.val) false w.d.addr.toNat w.d.len.toNat = true → placeFor s r.val (txLen w.d) = none → t = s) ∧
      (inWindows s (ringOwner s r.val) false w.d.addr.toNat w.d.len.toNat = true → placeFor s r.val (txLen w.d) ≠ none →
        atStage t r.val seq .reading ∧ t = { s with rings := t.rings, sent := t.sent } ∧
        t.sent = readRequests s (ringOwner s r.val) w.d.addr.toNat w.d.len.toNat ++ s.sent)) ∧
  (∀ (s : State) (r : RingNo) (seq : Word) (w : Work) (res : XferResult) (data : List Byte) (c : Nat),
    workAt s r.val seq 0x0001 .reading = some w → ringChan r.val = some c →
    ∃ t, exec (.txBufferReadComplete r seq res data) s = .next t ∧ t.journal = s.journal ∧ t.ledger = s.ledger ∧
      OnlyRing s t r.val ∧ t.datum = s.datum ∧
      (res ≠ .ok → returnedWith t r.val seq = some (Outcome.of .retDma 0 0) ∧ (ringAt t r.val).dmaErr = true ∧
        (ringAt t r.val).state = (ringAt s r.val).state ∧ (ringAt t r.val).halted = (ringAt s r.val).halted) ∧
      (res = .ok → data.length = w.d.len.toNat → beAt data (etherOff data) 2 = 0x8808 →
        returnedWith t r.val seq = some (Outcome.of .retParam 0 0)) ∧
      (res = .ok → data.length = w.d.len.toNat → beAt data (etherOff data) 2 ≠ 0x8808 → hasPlace s r seq = false →
        atStage t r.val seq .queued ∧ OnlyChan s t c ∧
        ∃ f, vget (chanAt t c).qs.q (bits w.d.p0 2 0) [] = vget (chanAt s c).qs.q (bits w.d.p0 2 0) [] ++ [f] ∧
          f.src = .work r seq ∧ f.bytes = txBytes w.d data ∧ f.entered = s.datum))

/-- Table 02.7: a receive buffer shorter than its ring allows is returned RET_LENGTH, and any other is posted. R28, R56, R190: the oldest waiting frame is written whole into the oldest posted buffer and its outcome stands; outside the windows nothing is written, and the buffer is returned RET_WINDOW with the frame still waiting. R70: work of a transmit ring whose LIFETIME has run out and that is not being transmitted is returned RET_EXPIRED (in P1 RET_NO_PATH with RESULT1 bit 30), and its queued frame is dropped. -/
def Obligations.ReceiveWorkAndLifetimesFollowed : Prop :=
  (∀ (s : State) (r : RingNo) (seq : Word) (w : Work), workAt s r.val seq 0x0002 .accepted = some w →
    ∃ t, exec (.rxBuffer r seq) s = .next t ∧ OnlyRing s t r.val ∧ t = { s with rings := t.rings } ∧
      (w.d.len.toNat < (if r.val = 8 then 2048 else 9212) → returnedWith t r.val seq = some (Outcome.of .retLength 0 0)) ∧
      ((if r.val = 8 then 2048 else 9212) ≤ w.d.len.toNat → atStage t r.val seq .queued)) ∧
  (∀ (s : State) (r : RingNo) (f : Frame) (l : List Frame) (w : Work),
    waitingFrames s r.val = f :: l → postedBuffer s r.val = some w → findWork (ringAt s r.val) w.seq = some w → journalOf s r.val w.seq = none →
    (ringAt s r.val).state ≠ .recovering → mayMaster s (ringOwner s r.val) = true → frozen s = false →
    ∃ t, exec (.rxFrameDeliver r) s = .next t ∧ OnlyRing s t r.val ∧ t.journal = s.journal ∧ t.ledger = s.ledger ∧
      (inWindows s (ringOwner s r.val) true w.d.addr.toNat (noFcs f.bytes).length = true →
        (∀ o, o ∈ writeRequests s (ringOwner s r.val) w.d.addr.toNat (noFcs f.bytes) → o ∈ t.sent) ∧ waitingFrames t r.val = l ∧
        returnedWith t r.val w.seq = some (rxOutcome f)) ∧
      (inWindows s (ringOwner s r.val) true w.d.addr.toNat (noFcs f.bytes).length = false →
        waitingFrames t r.val = f :: l ∧ returnedWith t r.val w.seq = some (Outcome.of .retWindow 0 0) ∧
        (ringAt t r.val).winErr = true ∧ t.chans = s.chans ∧ t.xc = s.xc)) ∧
  (∀ (s : State) (r : RingNo) (seq : Word) (w : Work),
    workOpen s r.val seq = some w → isTxRing r.val = true → lifeOver s r.val w = true → beingPlaced s r.val seq = false →
    (ringAt s r.val).state ≠ .recovering →
    ∃ t, exec (.lifetimeExpiry r seq) s = .next t ∧ OnlyRing s t r.val ∧
      t = { s with rings := t.rings, chans := t.chans, upl := t.upl, rad := t.rad } ∧
      (isP1 s = false → returnedWith t r.val seq = some (Outcome.of .retExpired 0 0)) ∧
      (isP1 s = true → returnedWith t r.val seq = some (Outcome.of .retNoPath 0 (word (2 ^ 30)))) ∧
      (∀ c i (f : Frame), f ∈ vget (chanAt t c).qs.q i [] → f.src = .work r seq → f.placed ≠ 0))

/-- R17, R18, R40 and Table 00.6: POWER-ON, and a brown-out of AON (R322), clear every register, the rings' counters, the journal and the datum; the flash slots, the fuses and the waiting commands are not the terminal's registers and stay. R6, R17, R18, R79, R115, R243, Table 02.10: PERST#, a hot reset and the loss of the link are a DEVICE reset, which takes the link down and returns every channel's rings to the PF; while a seal runs the reset is held (R294), and while a DEVICE reset is in progress no second one follows (R20). R382, R12: the PF's write of the key to GLB_RESET is a DEVICE reset that keeps the link and every function's enables and returns the MSI-X tables to their reset values (17_registers.md); during a seal or a power transition it is refused, and any other value does nothing. R396: the rise of TEST_EN puts every domain but AON into reset (the model counts it as the loss of the link, log 57), and at its fall the domains the sequencer has reached return. -/
def Obligations.PowerOnAndDeviceResets : Prop :=
  (∀ s : State, exec .aonBrownOut s = exec .powerOn s ∧
    ∃ t, exec .powerOn s = .next t ∧ t.pending = s.pending ∧ t.part = s.part ∧ t.datum = 0 ∧ t.time = Time.reset ∧
      t.journal = [] ∧ t.ledger = Ledger.reset ∧ t.recov = [] ∧ t.sec = Sec.reset ∧ t.rad = Rad.reset ∧ t.sup = Sup.reset ∧
      t.evt = Evt.reset ∧ t.mgt = Mgt.reset ∧ t.xc = Xc.reset ∧ t.chtabEn = false ∧ t.chtabBase = 0 ∧
      (∀ r, r < 160 → ringAt t r = Ring.reset r ∧ (ringAt t r).acc = 0xFFFFFFFF ∧ (ringAt t r).tail = 0) ∧
      (∀ c, c < 24 → chanAt t c = Chan.reset (decide (c < s.part.channels))) ∧
      t.fw.slotA = s.fw.slotA ∧ t.fw.slotB = s.fw.slotB ∧ t.fw.floor = s.fw.floor ∧ t.glb.unitId = s.glb.unitId) ∧
  (∀ (s : State) (c : Instr) (k : ResetCause),
    (c, k) ∈ [(Instr.perstAssert, ResetCause.perst), (.pcieHotReset, .linkOrHot), (.linkDown, .linkOrHot)] →
    offPath s = false → (c = .perstAssert → s.hif.perst = false) → (c ≠ .perstAssert → s.hif.linkUp = true) →
    ∃ t, exec c s = .next t ∧ t.hif.linkUp = false ∧ t.hif.vfEnable = false ∧ t.hif.numVfs = 0 ∧
      (s.sup.sealing = false → s.glb.inReset = false → AfterDeviceReset s t k.code) ∧
      (s.sup.sealing = false → s.glb.inReset = true → t.glb = s.glb ∧ t.chans = s.chans ∧ t.sec = s.sec ∧ t.upl = s.upl) ∧
      (s.sup.sealing = true → t.sup.heldReset = some (firstCause s.sup.heldReset k) ∧ t.glb = s.glb ∧ t.chans = s.chans ∧
        t.sec = s.sec ∧ t.upl = s.upl)) ∧
  (∀ (s : State) (key : Word),
    ∃ t, exec (.hostFullReset .pf key) s = .next t ∧
      (key ≠ 0xA5C30001 → t = s) ∧
      (key = 0xA5C30001 →
        (s.sup.sealing = true ∨ s.pwr.state = .entering ∨ s.pwr.state = .poweringDown ∨ s.pwr.state = .waking) →
        t = { s with glb := { s.glb with refused := true } }) ∧
      (key = 0xA5C30001 → s.sup.sealing = false → s.pwr.state ≠ .entering → s.pwr.state ≠ .poweringDown →
        s.pwr.state ≠ .waking → s.glb.inReset = true → t = s) ∧
      (key = 0xA5C30001 → s.sup.sealing = false → s.pwr.state ≠ .entering → s.pwr.state ≠ .poweringDown →
        s.pwr.state ≠ .waking → s.glb.inReset = false →
        AfterDeviceReset s t 3 ∧ t.hif.linkUp = s.hif.linkUp ∧ t.hif.vfEnable = s.hif.vfEnable ∧ t.hif.numVfs = s.hif.numVfs ∧
        ∀ f, f < 25 → (vget t.hif.funcs f (Func.reset 0)).bme = (vget s.hif.funcs f (Func.reset 0)).bme ∧
          (vget t.hif.funcs f (Func.reset 0)).mse = (vget s.hif.funcs f (Func.reset 0)).mse ∧
          (vget t.hif.funcs f (Func.reset 0)).table = (Func.reset (if f = 0 then 64 else 4)).table)) ∧
  (∀ (s : State) (level : Bool),
    ∃ t, exec (.testEnChange level) s = .next t ∧ t.pwr.testEn = level ∧
      (level = s.pwr.testEn → t = s) ∧
      (level = true → s.pwr.testEn = false → t.hif.linkUp = false ∧
        (∀ d : Domain, d ≠ .aon → d ≠ .chlb → domOn t d = false) ∧
        (offPath s = false → s.sup.sealing = false → s.glb.inReset = false → domOn t .chlb = false ∧ AfterDeviceReset s t 2)) ∧
      (level = false → s.pwr.testEn = true →
        (s.pwr.state = .poweringDown ∨ s.pwr.state = .deep ∨ s.pwr.state = .off →
          t = { s with pwr := { s.pwr with testEn := false } }) ∧
        (s.pwr.state ≠ .poweringDown → s.pwr.state ≠ .deep → s.pwr.state ≠ .off →
          t.pwr.domHif = reached s 5 ∧ t.pwr.domUpl = reached s 8 ∧ (reached s 6 = true → t.pwr.domCore = true) ∧
          t.rings = s.rings ∧ t.journal = s.journal)))

/-- R316, R317, R401: PERST# deasserted releases WAKE#, and in DEEP begins the power-up with wake cause 2; the link then comes up only with PERST# deasserted, HIF powered and TEST_EN low, at a width and speed of Table 02.1. R62, R38, Table 00.6: a PF FLR clears VF Enable and NumVFs, returns every ring to the PF, clears the PF's enables, and starts a recovery of every existing ring with cause 0x02; nothing outside the host interface changes. A reset in progress as broad absorbs it, and it absorbs the CHANNEL resets in progress (R20). While configuration requests are not served (R379, R396) it has no effect. -/
def Obligations.LinkBringUpAndPfFlr : Prop :=
  (∀ (s : State) (width speed : BitVec 4),
    (∃ t, exec .perstDeassert s = .next t ∧ t.hif.perst = false ∧
      (s.hif.perst = true → t.hif.pcieWake = false) ∧
      (s.hif.perst = true → s.pwr.state = .deep →
        t.pwr.state = .waking ∧ t.pwr.wakeCause = 2 ∧ t.pwr.upStep = 1 ∧ t.rings = s.rings ∧ t.chans = s.chans) ∧
      (s.hif.perst = true → (s.pwr.state = .run ∨ s.pwr.state = .off) →
        t = { s with hif := { s.hif with perst := false, pcieWake := false } })) ∧
    ∃ u, exec (.linkUp width speed) s = .next u ∧
      (s.hif.perst = true ∨ s.pwr.domHif = false ∨ s.pwr.testEn = true ∨ s.hif.linkUp = true ∨ linkFits width speed = false → u = s) ∧
      (s.hif.perst = false → s.pwr.domHif = true → s.pwr.testEn = false → s.hif.linkUp = false → linkFits width speed = true →
        u.hif.linkUp = true ∧ u.hif.width = width ∧ u.hif.speed = speed ∧ u.chans = s.chans ∧ SameCounters s u)) ∧
  (∀ s : State, ∃ t, exec .pfFlr s = .next t ∧ SameCounters s t ∧
    t = { s with hif := t.hif, rings := t.rings, recov := t.recov } ∧
    (configServed s = false → t = s) ∧
    (configServed s = true →
      t.hif.vfEnable = false ∧ t.hif.numVfs = 0 ∧ (∀ r, ringOwner t r = 0) ∧
      vget t.hif.funcs 0 (Func.reset 0) = Func.reset 64 ∧ t.hif.windows = s.hif.windows ∧
      ((∃ v, v ∈ s.recov ∧ v.settled = false ∧ (v.cause = 1 ∨ v.cause = 2)) → t.recov = s.recov) ∧
      ((∀ v, v ∈ s.recov → v.settled = false → v.cause ≠ 1 ∧ v.cause ≠ 2) →
        (∃ v, v ∈ t.recov ∧ v.cause = 2 ∧ ∀ r : RingNo, r ∈ v.scope ↔ (ringAt s r.val).enable = true) ∧
        (∀ v, v ∈ t.recov → openChannel v = false))))

/-- R21, R25, R99: the CHANNEL reset of a VF FLR puts its channel into OFF, clears the block's registers that name CHANNEL and starts a recovery with cause 0x03 of the channel's rings alone; no other channel's state changes, and no ring's sequence numbers; a broader reset in progress absorbs it, and the recovery of a fault of the island takes its effects in (R20). R99, R25: a fault of island CH_n in a present channel that is not OFF puts that channel into HALTED, recovers its rings, clears none of its registers, and changes no other channel. R100: CH_RESET of a channel the part has resets that channel and no other, and its outcome stands in the journal marked RECOVERED; a channel number above 23 is returned RET_PARAM and one the part lacks RET_ABSENT. -/
def Obligations.ChannelResetsStayInTheirChannel : Prop :=
  (∀ (s : State) (c : Ch), configServed s = true → vfOn s c.val = true → present s c.val = true →
    ∃ t, exec (.vfFlr c) s = .next t ∧ OnlyChan s t c.val ∧ SameCounters s t ∧ t.ledger = s.ledger ∧ t.sec = s.sec ∧
      t.xc = s.xc ∧ t.datum = s.datum ∧ t.hif.windows = s.hif.windows ∧
      vget t.hif.funcs (c.val + 1) (Func.reset 0) = Func.reset 4 ∧
      (s.recov.find? (takesReset c.val) = none →
        (chanAt t c.val).tab.state = .off ∧ (chanAt t c.val).tab.trainFails = 0 ∧ (chanAt t c.val).tab.haltCause = 0 ∧
        (chanAt t c.val).line.lastFail = 0 ∧ (chanAt t c.val).tab.gen = (chanAt s c.val).tab.gen ∧
        (∃ v, v ∈ t.recov ∧ v.cause = 3 ∧ v.chan.toNat = c.val ∧ v.refresh = [c.val] ∧
          ∀ r : RingNo, r ∈ v.scope ↔ ringChan r.val = some c.val)) ∧
      (∀ v, s.recov.find? (takesReset c.val) = some v →
        (v.cause = 3 → v.refresh = [] → (chanAt t c.val).tab.state = .off ∧ (chanAt t c.val).tab.trainFails = 0) ∧
        (v.cause ≠ 3 → t.chans = s.chans))) ∧
  (∀ (s : State) (c : Ch), present s c.val = true → (chanAt s c.val).tab.state ≠ .off →
    ∃ t, exec (.channelIslandFault c) s = .next t ∧ OnlyChan s t c.val ∧ SameCounters s t ∧
      (chanAt t c.val).tab.state = .halted ∧ (chanAt t c.val).tab.gen = (chanAt s c.val).tab.gen ∧
      (chanAt t c.val).tab.trainFails = (chanAt s c.val).tab.trainFails ∧
      (chanAt t c.val).pm.bins15 = (chanAt s c.val).pm.bins15 ∧ (chanAt t c.val).feed = (chanAt s c.val).feed ∧
      ((chanAt s c.val).tab.state ≠ .halted → (chanAt t c.val).tab.haltCause = 1) ∧
      t.ledger = s.ledger ∧ t.sec = s.sec ∧ t.xc = s.xc) ∧
  (∀ (s : State) (r : RingNo) (seq : Word) (w : Work), cmdWork s r.val seq 0x0110 = some w →
    ∃ t, exec (.chReset r seq) s = .next t ∧ OnlyChan s t (cmdChan r.val w.d) ∧ SameCounters s t ∧
      (24 ≤ cmdChan r.val w.d → returnedWith t r.val seq = some (Outcome.of .retParam 0 0) ∧ t = { s with rings := t.rings }) ∧
      (cmdChan r.val w.d < 24 → present s (cmdChan r.val w.d) = false →
        returnedWith t r.val seq = some (Outcome.of .retAbsent 0 0) ∧ t = { s with rings := t.rings }) ∧
      (present s (cmdChan r.val w.d) = true → (journalOf t r.val seq).map (·.out) = some (Outcome.of .ok 0 0)) ∧
      (present s (cmdChan r.val w.d) = true → s.recov.find? (takesReset (cmdChan r.val w.d)) = none →
        (chanAt t (cmdChan r.val w.d)).tab.state = .off ∧ ∃ v, v ∈ t.recov ∧ v.cause = 3 ∧ v.cmds = [(r, seq)]))

/-- R74: every header and every benchmark record the terminal writes passes its own closure check, a header being 256 bytes and a record 64. Table 03.4, R82: the ring that adoption re-creates from a ring's own benchmark record has that ring's base, size, vector, moderation, lifetime, counters, emission counter and generation. R76, R82, R83: adoption of a ledger whose later valid header is CLOSED takes its epoch and starts the recovery with cause 0x04; with no valid header the ledger is created fresh; a read that fails holds the ledger, and one due while the PF may not master the bus waits (Table 02.10). -/
def Obligations.LedgerImagesAndAdoption : Prop :=
  (∀ s : State, hdrValid (hdrBytes s) = true ∧ (hdrBytes s).length = 256 ∧
    ∀ r, r < 160 → recValid (benchBytes s r) r = true ∧ (benchBytes s r).length = 64) ∧
  (∀ (s : State) (r : Nat) (g : Ring), r < 160 →
    (ringFromRec g r (benchBytes s r)).base = (ringAt s r).base ∧
    (ringFromRec g r (benchBytes s r)).log2 = (ringAt s r).log2 ∧
    (ringFromRec g r (benchBytes s r)).vector = (ringAt s r).vector ∧
    (ringFromRec g r (benchBytes s r)).modTime = (ringAt s r).modTime ∧
    (ringFromRec g r (benchBytes s r)).modCount = (ringAt s r).modCount ∧
    (ringFromRec g r (benchBytes s r)).lifetime = (ringAt s r).lifetime ∧
    (ringFromRec g r (benchBytes s r)).cpl = (ringAt s r).cpl ∧
    (ringFromRec g r (benchBytes s r)).emitted = (ringAt s r).emitted ∧
    (ringFromRec g r (benchBytes s r)).gen = (ringAt s r).gen ∧
    (hostWritten r = true → (ringFromRec g r (benchBytes s r)).tail = (ringAt s r).tail ∧
      (ringFromRec g r (benchBytes s r)).acc = (ringAt s r).acc) ∧
    (hostWritten r = false → (ringFromRec g r (benchBytes s r)).head = (ringAt s r).head)) ∧
  (∀ (s : State) (who : Requester) (res : XferResult) (img : LedgerImage),
    reachesAll who = true → ledgerOff s = true → img.wf = true → inWindows s 0 false (ledgAddr s 0) 0x7200 = true →
    ∃ t, exec (.ledgerAdopt who res img) s = .next t ∧ t.chans = s.chans ∧ t.xc = s.xc ∧ t.sec = s.sec ∧ t.datum = s.datum ∧
      (mayMaster s 0 = false → ledgerState t = 4 ∧ t.rings = s.rings ∧ t.sent = s.sent ∧
        (s.sup.sealing = false → t.ledger.waiting.contains .adoptRead = true)) ∧
      (mayMaster s 0 = true → res ≠ .ok → t.ledger.failed.contains .adoptRead = true ∧ t.ledger.adopting = true ∧ ledgerState t = 4 ∧ t.rings = s.rings) ∧
      (mayMaster s 0 = true → res = .ok → hdrValid img.hdrA = false → hdrValid img.hdrB = false →
        t.ledger.enable = true ∧ t.ledger.sealState = .running ∧ t.ledger.active = false ∧ t.ledger.adopting = false ∧ t.recov = s.recov) ∧
      (∀ h, mayMaster s 0 = true → res = .ok → laterOf img.hdrA img.hdrB (hdrValid img.hdrA) (hdrValid img.hdrB) 16 = some h → leAt h 24 1 = 3 →
        t.ledger.epoch = word (leAt h 20 4) ∧ t.ledger.active = true ∧ t.ledger.adopting = false ∧
        t.ledger.sealInvalid = s.ledger.sealInvalid ∧
        (leAt h 8 8 ≠ s.glb.unitId.toNat → t.ledger.foreign_ = true) ∧
        ∃ v, v ∈ t.recov ∧ v.cause = 4))

/-- R77, R417: LEDG_CTL.ENABLE of an OFF ledger starts a fresh one, RUNNING, with both headers of a new generation; it becomes ACTIVE when every write of the enable has been carried out, none failed and none waiting for the bus; the clear of ENABLE is taken only with every host-written ring settled and the journal empty (an adoption under way excepted), writes CLOSED headers, STATE keeping its value, and reads OFF from their acknowledgement on. R73: a due benchmark record is written with its generation raised by 1, into copy A when that generation is even and copy B when it is odd, as one 64-byte write. R76: a ledger transfer that completes leaves the transfers in flight; one that fails is held for a retry with WRITE_ERR set (unless it was the adoption's read), and the retry, while the PF may master the bus and no seal runs, writes it again, the ledger staying HELD until the write has been carried out. -/
def Obligations.LedgerWrittenAndClosed : Prop :=
  (∀ (s : State) (who : Requester), reachesAll who = true →
    (∃ t, exec (.ledgerEnable who) s = .next t ∧ SameCounters s t ∧
      t = { s with rings := t.rings, ledger := t.ledger, sup := t.sup, hif := t.hif, evt := t.evt, sent := t.sent } ∧
      (ledgerOff s = false → t = s) ∧
      (ledgerOff s = true → t.ledger.enable = true ∧ t.ledger.sealState = .running ∧ t.ledger.active = false ∧
        t.ledger.spillCount = 0 ∧ t.ledger.epoch = s.ledger.epoch ∧
        (mayMaster s 0 = true → t.ledger.hdrGen = s.ledger.hdrGen + 2) ∧
        (mayMaster s 0 = false → s.sup.sealing = false → t.ledger.hdrGen = s.ledger.hdrGen ∧ t.sent = s.sent ∧
          t.ledger.waiting.contains .hdrA = true ∧ t.ledger.waiting.contains .hdrB = true))) ∧
    (∃ t, exec (.ledgerClose who) s = .next t ∧
      t = { s with ledger := t.ledger, sup := t.sup, hif := t.hif, evt := t.evt, sent := t.sent } ∧
      (ledgerSettled s = false ∨ s.ledger.enable = false ∨ s.ledger.adopting = true → t = s) ∧
      (s.ledger.enable = true → s.ledger.adopting = false → ledgerSettled s = true →
        t.ledger.enable = false ∧ t.ledger.closing = true ∧ t.ledger.sealState = .closed ∧
        (mayMaster s 0 = true → t.ledger.hdrGen = s.ledger.hdrGen + 2) ∧
        (t.ledger.failed = [] → ledgerState t = ledgerState s))) ∧
    (∃ t, exec .ledgerWritesAcknowledged s = .next t ∧ t = { s with ledger := t.ledger } ∧
      (s.ledger.closing = true → headersDone s = false → t = s) ∧
      (s.ledger.closing = false → ledgerQuiet s = false → t = s) ∧
      (s.ledger.closing = true → headersDone s = true → t.ledger.active = false ∧ t.ledger.closing = false ∧
        (s.ledger.adopting = false → ledgerState t = 0)) ∧
      (s.ledger.closing = false → ledgerQuiet s = true → s.ledger.enable = true → s.ledger.adopting = false →
        t.ledger.active = true))) ∧
  (∀ (s : State) (r : RingNo),
    (ringAt s r.val).bmDue = true → mayMaster s 0 = true → ringOnPart s r.val = true → ledgerLive s = true →
    frozen s = false →
    ∃ t, exec (.benchmarkRecordWrite r) s = .next t ∧ OnlyRing s t r.val ∧
      ringAt t r.val = { ringAt s r.val with gen := (ringAt s r.val).gen + 1, bmDue := false, bmGate := false } ∧
      t = { s with rings := t.rings, ledger := t.ledger, sup := t.sup, hif := t.hif, evt := t.evt, sent := t.sent } ∧
      (inWindows s 0 true (ledgAddr s (benchOff (decide (((ringAt s r.val).gen + 1).toNat % 2 = 1)) r.val)) 64 = true →
        t.ledger.inFlight = s.ledger.inFlight ++ [.bench r] ∧
        ∃ b, t.sent = .memWrite 0 (ledgAddr s (benchOff (decide (((ringAt s r.val).gen + 1).toNat % 2 = 1)) r.val)) b :: s.sent ∧
          b.length = 64 ∧ recValid b r.val = true)) ∧
  ((∀ (s : State) (x : LXfer) (res : XferResult), s.ledger.inFlight.contains x = true →
    ∃ t, exec (.ledgerTransferComplete x res) s = .next t ∧
      (res = .ok → s.sup.sealPhase = 0 →
        t = { s with ledger := { s.ledger with
          inFlight := eraseFirst (fun y => y == x) s.ledger.inFlight
          failed := if (eraseFirst (fun y => y == x) s.ledger.inFlight).contains x then s.ledger.failed
            else s.ledger.failed.filter (fun y => y != x) } }) ∧
      (res ≠ .ok → t.rings = s.rings ∧ t.journal = s.journal ∧ t.chans = s.chans ∧
        t.ledger.inFlight = eraseFirst (fun y => y == x) s.ledger.inFlight ∧
        t.ledger.failed.contains x = true ∧ (x ≠ .adoptRead → t.ledger.writeErr = true) ∧ t.hif.faultValid = true)) ∧
  (∀ (s : State) (res : XferResult) (img : LedgerImage), s.ledger.failed = [.hdrA] → s.ledger.inFlight.contains .hdrA = false →
    s.ledger.waiting.contains .adoptRead = false → mayMaster s 0 = true →
    s.sup.sealing = false → inWindows s 0 true (ledgAddr s 0) 256 = true →
    ∃ t, exec (.ledgerRetry res img) s = .next t ∧
      t = { s with ledger := { s.ledger with inFlight := s.ledger.inFlight ++ [.hdrA] }, sent := t.sent } ∧
      (s.ledger.adopting = false → ledgerState t = 2) ∧
      ∃ b, t.sent = writeRequests s 0 (ledgAddr s 0) b ++ s.sent ∧ b.length = 256 ∧ hdrValid b = true))

/-- R79, R21, Table 03.5: the oldest recovery that can settle (its requests acknowledged, no seal under way, its ledger writes possible) raises the epoch by 1 and is then settled, whether or not an older one still waits for its own rings; under cause 0x01 open work of a transmit or command ring of its scope is returned RET_RESET, and a receive buffer stays accepted. R80: RECOVERY_DONE of a settled recovery goes to the next slot of ring 1 and is counted toward its interrupt, the recovery ends, and its rings become ACTIVE unless a later recovery holds them. -/
def Obligations.RecoverySettledAndReported : Prop :=
  (∀ (s : State) (before_ rest : List Recovery) (v : Recovery),
    s.recov = before_ ++ v :: rest → (∀ u, u ∈ before_ → maySettle s u = false) → maySettle s v = true →
    v.cause = 1 → v.lossy = true →
    ∃ t, exec .recoverySettle s = .next t ∧ t.ledger.epoch = s.ledger.epoch + 1 ∧ SameCounters s t ∧
      t.recov = before_ ++ { v with settled := true } :: rest ∧ (s.hif.linkUp = true → t.glb.inReset = false) ∧ t.journal = s.journal ∧ t.datum = s.datum ∧ t.sec = s.sec ∧
      (∀ (r : RingNo) (q : Word) (w : Work), r ∈ v.scope → isRxRing r.val = false → isTribRing r.val = false → r.val ≠ 9 →
        workOpen s r.val q = some w → returnedWith t r.val q = some (Outcome.of .retReset 0 0)) ∧
      (∀ (r : RingNo) (q : Word) (w : Work), r ∈ v.scope → isRxRing r.val = true → workOpen s r.val q = some w →
        returnedWith t r.val q = none) ∧
      (∀ (r : RingNo), s.hif.linkUp = true → r ∉ v.scope → (ringAt t r.val).work = (ringAt s r.val).work)) ∧
  (∀ (s : State) (before_ rest : List Recovery) (v : Recovery),
    s.recov = before_ ++ v :: rest → (∀ u, u ∈ before_ → u.settled = false) → v.settled = true → frozen s = false →
    v.cmds = [] → v.refresh = [] → (ringAt s 1).enable = true →
    mayMaster s 0 = true → causeWaits s v = false → slotFree (ringAt s 1) (nextRecord (ringAt s 1)) = true →
    inWindows s 0 true (slotAddr (ringAt s 1) (nextRecord (ringAt s 1))) 32 = true →
    ∃ t, exec .recoveryDone s = .next t ∧ t.recov = before_ ++ rest ∧ t.journal = s.journal ∧ t.chans = s.chans ∧
      (ringAt t 1).unacked = (ringAt s 1).unacked ++
        [{ src := .recoveryDone, slot := nextRecord (ringAt s 1)
           bytes := recoveryDoneBytes s v (phaseBit (ringAt s 1).log2.toNat (nextRecord (ringAt s 1))), irq := true }] ∧
      Out.memWrite 0 (slotAddr (ringAt s 1) (nextRecord (ringAt s 1)))
        (recoveryDoneBytes s v (phaseBit (ringAt s 1).log2.toNat (nextRecord (ringAt s 1)))) ∈ t.sent ∧
      (∀ r : RingNo, r ∈ v.scope → (∀ u, u ∈ before_ ++ rest → r ∉ u.scope) → (ringAt s r.val).enable = true →
        (ringAt t r.val).state = .active ∧ (ringAt t r.val).halted = false) ∧
      (∀ r : RingNo, r ∉ v.scope → r.val ≠ 1 → ringAt t r.val = ringAt s r.val))

/-- R90, R102: CHTAB_REFRESH requests a refresh of each channel of the mask that the part has, and of no other; without ENABLE the requests wait. R90, R100: CH_REFRESH is returned RET_PARAM, RET_ABSENT, or RET_BUSY while the table is not enabled; otherwise it waits for a whole read of its channel's entry, which is requested. R90, R93: setting CHTAB_CTL.ENABLE requests every present channel's entry; clearing it puts every channel into OFF but one that training halted (R94, Table 04.3); a write of its present value changes nothing. R88, R89, R91, R92: the third phase's GEN_FIRST decides the read: whole when it equals GEN_LAST and is even, and then the entry's generation is in force; otherwise the read is discarded with the cached entry as it was. A phase that fails sets READ_ERR and waits for its retry. R88 to R92: a retry after a discarded read, and one after a failed read, read GEN_LAST of the entry at CHTAB_BASE + 0x800 n + 0x7FC again. -/
def Obligations.ChannelTableRead : Prop :=
  (∀ (s : State) (who : Requester) (mask : Word), reachesAll who = true →
    ∃ t, exec (.chtabRefresh who mask) s = .next t ∧
      t = { s with chans := t.chans, rings := t.rings, hif := t.hif, evt := t.evt, sent := t.sent } ∧ SameCounters s t ∧
      (∀ c, c < 24 → mask.getLsbD c = true → present s c = true → (chanAt t c).tab.pend = true ∧ (chanAt t c).tab.state = (chanAt s c).tab.state ∧
        (s.chtabEn = false → (chanAt t c).tab.phase = (chanAt s c).tab.phase)) ∧
      (∀ c, (mask.getLsbD c = false ∨ present s c = false) → chanAt t c = chanAt s c)) ∧
  (∀ (s : State) (r : RingNo) (seq : Word) (w : Work), cmdWork s r.val seq 0x0111 = some w →
    ∃ t, exec (.chRefresh r seq) s = .next t ∧ OnlyChan s t (cmdChan r.val w.d) ∧ t.journal = s.journal ∧
      (24 ≤ cmdChan r.val w.d → returnedWith t r.val seq = some (Outcome.of .retParam 0 0)) ∧
      (cmdChan r.val w.d < 24 → present s (cmdChan r.val w.d) = false → returnedWith t r.val seq = some (Outcome.of .retAbsent 0 0)) ∧
      (present s (cmdChan r.val w.d) = true → s.chtabEn = false → returnedWith t r.val seq = some (Outcome.of .retBusy 0 0) ∧ t.chans = s.chans) ∧
      (present s (cmdChan r.val w.d) = true → s.chtabEn = true → (chanAt s (cmdChan r.val w.d)).tab.phase = .waitRetry →
        (chanAt s (cmdChan r.val w.d)).tab.cmds = [] →
        (chanAt t (cmdChan r.val w.d)).tab.pend = true ∧
        (chanAt t (cmdChan r.val w.d)).tab.cmds = [{ ring := r, seq := seq, served := false }] ∧ t.rings = s.rings)) ∧
  (∀ (s : State) (who : Requester) (on : Bool), reachesAll who = true →
    ∃ t, exec (.chtabEnableChange who on) s = .next t ∧ t.chtabEn = on ∧ SameCounters s t ∧ t.ledger = s.ledger ∧ t.chtabBase = s.chtabBase ∧
      (on = s.chtabEn → t = s) ∧
      (on = true → s.chtabEn = false → ∀ c, c < 24 → present s c = true → (chanAt t c).tab.pend = true) ∧
      (on = false → s.chtabEn = true → ∀ c, c < 24 → present s c = true → (chanAt s c).tab.state ≠ .absent →
        ((chanAt s c).tab.state ≠ .halted ∨ (chanAt s c).tab.haltCause = 1) → (chanAt t c).tab.state = .off)) ∧
  (∀ (s : State) (c : Ch) (gl gf : Word) (b : List Byte), (chanAt s c.val).tab.phase = .first gl b →
    (∃ t, exec (.chtabReadPhaseComplete c .ok (bytesLE 4 gf.toNat)) s = .next t ∧ t.ledger = s.ledger ∧
      (∀ x, x ≠ c.val → chanAt t x = { chanAt s x with msec := (chanAt t x).msec, feed := (chanAt t x).feed }) ∧
      (gf = gl → gf.toNat % 2 = 0 → (chanAt t c.val).tab.gen = gf ∧ (chanAt t c.val).tab.torn = false ∧
        (chanAt t c.val).tab.discards = 0 ∧ (chanAt t c.val).tab.readSince = true) ∧
      ((gf ≠ gl ∨ gf.toNat % 2 = 1) → OnlyChan s t c.val ∧
        (chanAt t c.val).tab.phase = .waitRetry ∧ (chanAt t c.val).tab.discards = (chanAt s c.val).tab.discards + 1 ∧
        (chanAt t c.val).tab.gen = (chanAt s c.val).tab.gen ∧ (chanAt t c.val).tab.target = (chanAt s c.val).tab.target ∧
        (chanAt t c.val).tab.state = (chanAt s c.val).tab.state ∧ (chanAt t c.val).tab.mac = (chanAt s c.val).tab.mac ∧
        ((chanAt s c.val).tab.torn = true ∨ 1000 ≤ (chanAt s c.val).tab.discards + 1 → (chanAt t c.val).tab.torn = true))) ∧
    (∀ (res : XferResult) (data : List Byte), res ≠ .ok →
      ∃ t, exec (.chtabReadPhaseComplete c res data) s = .next t ∧ OnlyChan s t c.val ∧
        (chanAt t c.val).tab.readErr = true ∧ (chanAt t c.val).tab.phase = .waitError ∧
        (chanAt t c.val).tab.gen = (chanAt s c.val).tab.gen ∧ (chanAt t c.val).tab.discards = (chanAt s c.val).tab.discards ∧
        t.hif.faultValid = true)) ∧
  (∀ (s : State) (c : Ch) (i : Instr) (p : ReadPhase),
    (i, p) ∈ [(Instr.chtabReadRetry c, ReadPhase.waitRetry), (.chtabReadErrorRetry c, .waitError)] →
    (chanAt s c.val).tab.phase = p → s.chtabEn = true → (chanAt s c.val).tab.pend = true → present s c.val = true →
    mayMaster s 0 = true → inWindows s 0 false (s.chtabBase.toNat * 4096 + 0x800 * c.val + 0x7FC) 4 = true →
    ∃ t, exec i s = .next t ∧ t = { s with chans := t.chans, sent := t.sent } ∧ OnlyChan s t c.val ∧
      chanAt t c.val = { chanAt s c.val with tab := { (chanAt s c.val).tab with
        phase := .last, served := true, cmds := (chanAt t c.val).tab.cmds } } ∧
      t.sent = .memRead 0 (s.chtabBase.toNat * 4096 + 0x800 * c.val + 0x7FC) 4 :: s.sent)

/-- R93, R103, Table 04.3: firmware's CH_HOLD takes 0, 1 or 2 and the channel follows its lowered target; the island's power-up brings an OFF channel to READY only with an entry read whole and a target above OFF. R135, R139, R164, R171, Table 04.3: a frame boundary is an instant with (N - TDD_PHASE) mod 500,000 = 0; it counts the frame, declares LOS at a drop of 20 dB and sends FE_LOST counts once; a READY channel that may train enters TRAIN with the latched values; a step of the datum is loss of line in SERVICE and a failed training in TRAIN; other channels do not change (R25). -/
def Obligations.ChannelStatesFollowTheirTarget : Prop :=
  ((∀ (s : State) (cp : Fin 2) (c : Ch) (v : Word), present s c.val = true →
    ∃ t, exec (.chHoldWrite (.fw cp) c v) s = .next t ∧ OnlyChan s t c.val ∧
      (bits v 1 0 = 3 → t = s) ∧
      (bits v 1 0 ≠ 3 → (chanAt t c.val).tab.hold.toNat = bits v 1 0 ∧
        (bits v 1 0 = 2 → (chanAt s c.val).tab.state ≠ .absent →
          ((chanAt s c.val).tab.state ≠ .halted ∨ (chanAt s c.val).tab.haltCause = 1) → (chanAt t c.val).tab.state = .off))) ∧
  (∀ (s : State) (c : Ch) (v : Word), exec (.chHoldWrite .pf c v) s = .next s) ∧
  (∀ (s : State) (c : Ch), ∃ t, exec (.islandPowered c) s = .next t ∧ OnlyChan s t c.val ∧ t.rings = s.rings ∧
    (mayLeaveOff s c.val = false → t = s) ∧
    (mayLeaveOff s c.val = true → (chanAt t c.val).tab.state = .ready ∧ (chanAt t c.val).tab.island = true ∧
      (chanAt t c.val).line = (chanAt s c.val).line))) ∧
  (∀ (s : State) (c : Ch) (rx : FrameRx), (present s c.val && atEdge s frameUnit (framePhase s c.val * nsUnit)) = false →
    exec (.tddFrameBoundary c rx) s = .next s) ∧
  (∀ (s : State) (c : Ch) (rx : FrameRx), present s c.val = true → atEdge s frameUnit (framePhase s c.val * nsUnit) = true →
    ∃ t, exec (.tddFrameBoundary c rx) s = .next t ∧ OnlyChan s t c.val ∧ SameCounters s t ∧ t.time.stepped.getLsbD c.val = false ∧
      (serving s c.val = true → s.time.stepped.getLsbD c.val = false →
        (chanAt t c.val).fr.frameCnt = BitVec.ofNat 16 (frameCount s.datum (chanAt s c.val).line.latPhase) ∧
        (chanAt t c.val).fr.lostPrev = 0 ∧
        (20 ≤ rx.dropDb → (chanAt t c.val).fr.los = true) ∧ (serving t c.val = true)) ∧
      (serving s c.val = true → s.time.stepped.getLsbD c.val = true → (chanAt t c.val).tab.state = .train) ∧
      ((chanAt s c.val).tab.state = .train → s.time.stepped.getLsbD c.val = false →
        (chanAt t c.val).line.frames = (chanAt s c.val).line.frames + 1 ∧ (chanAt t c.val).tab.state = .train) ∧
      ((chanAt s c.val).tab.state = .train → s.time.stepped.getLsbD c.val = true →
        (chanAt t c.val).line.lastFail = 6 ∧ (chanAt t c.val).tab.state ≠ .train) ∧
      (mayTrain s c.val = true → (chanAt t c.val).tab.state = .train ∧ (chanAt t c.val).line.phase = 0 ∧
        (chanAt t c.val).line.latMds = s.time.mds.toNat ∧ (chanAt t c.val).line.latPhase = s.time.tddPhase.toNat ∧
        (chanAt t c.val).line.latTrib = (chanAt s c.val).tab.trib))

/-- R98, R148, Table 06.6: a valid HANDSHAKE answer gives the peer's identity; a peer other than a non-zero PEER_ID halts the channel with cause 3, and any other goes on to phase 2. An answer whose CRC fails changes nothing. Table 06.6, R148, R154: the end of phase 6 brings the channel into SERVICE with TRAIN_FAILS 0 and DTU SEQ 0; a round trip above 6,000 ns, an answer that does not come, or a refused exchange is a training failure with its cause, counted in TRAIN_FAILS. R147, R150, R151: a margin update of a serving channel sets the upstream SNRs and margin and nothing else; the idle timer's end in light SERVICE requests ECONOMY where the reduced tone plan carries the tributaries, and sets ECON_BLOCKED where it does not; loss of line at 400 defective boundaries is TRAIN (R172). -/
def Obligations.TrainingAndServiceFollowed : Prop :=
  (∀ (s : State) (c : Ch) (id : DWord), exec (.handshakeAnswer c false id) s = .next s ∧
    ((chanAt s c.val).tab.state = .train → (chanAt s c.val).line.phase = 1 →
      ∃ t, exec (.handshakeAnswer c true id) s = .next t ∧ OnlyChan s t c.val ∧ t.rings = s.rings ∧ t.journal = s.journal ∧
        (chanAt t c.val).line.peer = id ∧
        ((chanAt s c.val).line.latPeer ≠ 0 → (chanAt s c.val).line.latPeer ≠ id →
          (chanAt t c.val).tab.state = .halted ∧ (chanAt t c.val).tab.haltCause = 3) ∧
        (((chanAt s c.val).line.latPeer = 0 ∨ (chanAt s c.val).line.latPeer = id) →
          (chanAt t c.val).tab.state = .train ∧ (chanAt t c.val).line.phase = 2))) ∧
  (∀ (s : State) (c : Ch), (chanAt s c.val).tab.state = .train →
    ((chanAt s c.val).line.phase = 6 → ∃ t, exec (.trainingPhaseEnd c .done) s = .next t ∧ OnlyChan s t c.val ∧ t.rings = s.rings ∧
      (chanAt t c.val).tab.state = .service ∧ (chanAt t c.val).tab.trainFails = 0 ∧ (chanAt t c.val).fr.nextSeq = 0 ∧
      (chanAt t c.val).line.phase = 15) ∧
    ((chanAt s c.val).line.phase = 0 → ∃ t, exec (.trainingPhaseEnd c .done) s = .next t ∧ OnlyChan s t c.val ∧ t.rings = s.rings ∧
      (chanAt t c.val).line.phase = 1 ∧ drvUsed (chanAt t c.val) = true ∧ (chanAt t c.val).tab = (chanAt s c.val).tab) ∧
    (∀ rt, (chanAt s c.val).line.phase = 2 → ∃ t, exec (.trainingPhaseEnd c (.timing rt)) s = .next t ∧ OnlyChan s t c.val ∧
      (rt ≤ 6000 → (chanAt t c.val).line.phase = 3 ∧ (chanAt t c.val).tab = (chanAt s c.val).tab) ∧
      (6000 < rt → (chanAt t c.val).line.lastFail = 2 ∧ (chanAt t c.val).tab.failAt = some s.datum)) ∧
    ((chanAt s c.val).line.phase = 1 → ∃ t, exec (.trainingPhaseEnd c .noAnswer) s = .next t ∧ OnlyChan s t c.val ∧
      (chanAt t c.val).line.lastFail = 1 ∧ (chanAt t c.val).tab.failAt = some s.datum ∧
      ((chanAt s c.val).tab.trainFails ≠ 255 → (chanAt t c.val).tab.trainFails = (chanAt s c.val).tab.trainFails + 1) ∧
      ((chanAt s c.val).tab.failLimit ≠ 0 → (chanAt s c.val).tab.failLimit.toNat ≤ (chanAt s c.val).tab.trainFails.toNat + 1 →
        (chanAt t c.val).tab.state = .halted ∧ (chanAt t c.val).tab.haltCause = 2) ∧
      ((chanAt s c.val).tab.failLimit = 0 → (chanAt t c.val).tab.state = .ready))) ∧
  (∀ (s : State) (c : Ch) (snr : List Nat), serving s c.val = true →
    (∃ t, exec (.marginUpdate c snr) s = .next t ∧ t = { s with chans := t.chans } ∧ OnlyChan s t c.val ∧
      chanAt t c.val = { chanAt s c.val with line := { (chanAt s c.val).line with
        tonesUs := withSnr (chanAt s c.val).line.tonesUs snr, marginUs := (chanAt t c.val).line.marginUs } } ∧
      ∀ m, leastOf (margins (chanAt s c.val).line (withSnr (chanAt s c.val).line.tonesUs snr)) = some m →
        (chanAt t c.val).line.marginUs = BitVec.ofInt 16 m) ∧
    ((chanAt s c.val).tab.state = .service → (chanAt s c.val).tab.econEn = true → (chanAt s c.val).line.econTimer ≠ none →
      lightFrame (chanAt s c.val) = true → (chanAt s c.val).line.econChg.entry = none →
      ∃ t, exec (.economyIdleTimerExpiry c) s = .next t ∧ t = { s with chans := t.chans } ∧ OnlyChan s t c.val ∧
        (chanAt t c.val).tab = (chanAt s c.val).tab ∧
        (econCarries (chanAt s c.val).line = true → (chanAt t c.val).line.econChg.entry = some (false, 3)) ∧
        (econCarries (chanAt s c.val).line = false → (chanAt t c.val).line.econBlock = true ∧
          (chanAt t c.val).line.econChg = (chanAt s c.val).line.econChg)) ∧
    (400 ≤ (chanAt s c.val).fr.badRun → ∃ t, exec (.lossOfLine c) s = .next t ∧ OnlyChan s t c.val ∧ SameCounters s t ∧
      (chanAt t c.val).tab.state = .train ∧ (chanAt t c.val).pm.cur.lol = (chanAt s c.val).pm.cur.lol + 1 ∧
      (chanAt t c.val).tab.trainFails = (chanAt s c.val).tab.trainFails))

/-- R154, R157, R158: the codewords of an upstream frame give its information bytes, of which the first 64 are the overhead channel; one whose CHECK fails is ignored whole and counted in OH_CRC; a valid one gives the peer's margin, LIGHT, RDI and lost DTUs, and its EOC to firmware. Codewords corrected and uncorrectable are counted, and what follows the overhead and the tributaries joins the received DTU stream (R155). -/
def Obligations.OverheadCheckedWhole : Prop :=
  (∀ (s : State) (c : Ch) (words : List (List Byte)), (chanAt s c.val).fr.prevRx = none →
    exec (.overheadReceived c words) s = .next s) ∧
  (∀ (s : State) (c : Ch) (words : List (List Byte)) (at_ bpt : Nat) (ws : List (List (Byte × Bool) × Bool)) (b : List Byte),
    serving s c.val = true → (chanAt s c.val).fr.prevRx = some (at_, bpt) →
    ws = (List.range (ownCodewords (bpt * slotsUs (chanAt s c.val).line) (chanAt s c.val).fr.leftRx)).map (wordAt words) →
    b = ((ws.flatMap (fun w => w.1)).map (fun x => x.1)).take 64 →
    ∃ t, exec (.overheadReceived c words) s = .next t ∧ OnlyChan s t c.val ∧ t.rings = s.rings ∧ t.journal = s.journal ∧
      (chanAt t c.val).tab = (chanAt s c.val).tab ∧ (chanAt t c.val).qs = (chanAt s c.val).qs ∧
      (chanAt t c.val).fr.prevRx = none ∧
      (chanAt t c.val).fr.rxStream = (chanAt s c.val).fr.rxStream ++
        (rxBytes (chanAt s c.val) at_ bpt (ws.flatMap (fun w => w.1))).drop (tribOffset (chanAt s c.val).line.latTrib 4) ∧
      (chanAt t c.val).pm.cur.cwFixed = (chanAt s c.val).pm.cur.cwFixed + ws.countP (fun w => w.2) ∧
      (chanAt t c.val).pm.cur.cwBad = (chanAt s c.val).pm.cur.cwBad + ws.countP (fun w => w.1.any (fun x => x.2)) ∧
      (checkOk b = false → chanAt t c.val = { chanAt s c.val with
        fr := { (chanAt s c.val).fr with
          prevRx := none
          leftRx := (chanAt t c.val).fr.leftRx
          rxStream := (chanAt t c.val).fr.rxStream
          rxTribs := (chanAt t c.val).fr.rxTribs
          ohCrc := (chanAt s c.val).fr.ohCrc + 1
          crcFails := (chanAt s c.val).fr.crcFails + 1
          crcGoods := 0
          lof := (chanAt s c.val).fr.lof || decide (4 ≤ (chanAt s c.val).fr.crcFails + 1) }
        pm := { (chanAt s c.val).pm with cur := { (chanAt s c.val).pm.cur with
          cwFixed := (chanAt t c.val).pm.cur.cwFixed
          cwBad := (chanAt t c.val).pm.cur.cwBad
          ohCrc := (chanAt s c.val).pm.cur.ohCrc + 1 } } }) ∧
      (checkOk b = true → (chanAt t c.val).line.marginDs = BitVec.ofNat 16 (beAt b 30 2) ∧
        (chanAt t c.val).line.lightPeer = (beAt b 2 1).testBit 4 ∧ (chanAt t c.val).fr.feRdi = (beAt b 2 1).testBit 3 ∧
        (chanAt t c.val).fr.ohCrc = (chanAt s c.val).fr.ohCrc ∧ (chanAt t c.val).fr.crcFails = 0 ∧
        Out.toFirmware ((b.drop 36).take 16) ∈ t.sent ∧
        (chanAt t c.val).pm.cur.feLost = (chanAt s c.val).pm.cur.feLost + beAt b 32 2))

/-- R159, R162, R164: a DTU with an uncorrectable codeword, a bad CRC or a SEQ too far ahead is counted in ERR_DTU and changes no other state of the framer; a good one below its first missing SEQ sets the highest SEQ; a DTU other than the one the received stream holds next does not arrive (log 204). R161, R163: while bytes of the present frame's DTU region are unfilled, a DTU closes with a retransmission that is due, else with the bytes that wait, taking the next SEQ, else as IDLE with the SEQ the next data DTU will carry. R164: the oldest missing SEQ that was not recovered by its eighth frame boundary is declared lost: UNCORR_DTU counts it, its SEQ is no longer missing, and the frame in progress is broken; any other SEQ is not. R97, R169: a TRIB_BLOCK for a channel that does not serve, if it is transmit work, is returned RET_NO_PATH; one whose tributary has no ring endpoint RET_PARAM; one whose LEN is no multiple of the tributary's frame share, or outside 1 to 64 of it, RET_LENGTH; a receive block inside its windows is posted. -/
def Obligations.DtusAndTributaries : Prop :=
  (∀ (s : State) (c : Ch) (x : List RxByte) (b : List Byte) (u : Bool) (at_ : Nat), serving s c.val = true →
    x = (chanAt s c.val).fr.rxStream.take 448 → b = x.map (fun y => y.byte) → u = x.any (fun y => y.bad) →
    (x.take 1).map (fun y => y.slot) = [at_] →
    ∃ t, exec (.dtuReceived c b u at_) s = .next t ∧ SameCounters s t ∧ t.ledger = s.ledger ∧ t.pwr = s.pwr ∧
      ((chanAt s c.val).fr.rxStream.length < 448 → t = s) ∧
      (448 ≤ (chanAt s c.val).fr.rxStream.length →
        (u = true ∨ dtuGood b = false ∨ farOff (chanAt s c.val).fr (BitVec.ofNat 16 (beAt b 0 2)) = true) →
        OnlyChan s t c.val ∧ t = { s with chans := t.chans, hif := t.hif, evt := t.evt, sent := t.sent } ∧
        chanAt t c.val = { chanAt s c.val with fr := { (chanAt s c.val).fr with
          rxStream := (chanAt s c.val).fr.rxStream.drop 448, errDtu := (chanAt s c.val).fr.errDtu + 1 } }) ∧
      (448 ≤ (chanAt s c.val).fr.rxStream.length → u = false → dtuGood b = true → beAt b 2 1 = 0 →
        (chanAt s c.val).fr.rxHigh = none → beAt b 0 2 = 3 →
        (chanAt t c.val).fr.rxHigh = some 2 ∧ ((chanAt t c.val).fr.missing.drop (chanAt s c.val).fr.missing.length).map (·.seq) = [0, 1, 2])) ∧
  (∀ (s : State) (c : Ch) (b : List Byte) (u : Bool) (at_ : Nat), dtuNamed (chanAt s c.val).fr.rxStream b u at_ = false →
    exec (.dtuReceived c b u at_) s = .next s) ∧
  (∀ (s : State) (c : Ch), serving s c.val = true →
    ∃ t, exec (.dtuClose c) s = .next t ∧ SameCounters s t ∧ t.ledger = s.ledger ∧
      (mayClose (chanAt s c.val).fr = false → t = s) ∧
      (∀ q d, mayClose (chanAt s c.val).fr = true →
        rtxDue (chanAt (placeAll s c.val) c.val).fr = some q → heldDtu (chanAt (placeAll s c.val) c.val).fr q = some d →
        Out.dtu c.val (rtxCopy d.bytes) ∈ t.sent ∧
        (chanAt t c.val).pm.cur.rtx = (chanAt (placeAll s c.val) c.val).pm.cur.rtx + 1 ∧
        (chanAt t c.val).fr.nextSeq = (chanAt (placeAll s c.val) c.val).fr.nextSeq) ∧
      (mayClose (chanAt s c.val).fr = true →
        rtxDue (chanAt (placeAll s c.val) c.val).fr = none → (chanAt (placeAll s c.val) c.val).fr.openDtu = [] →
        Out.dtu c.val (dtuBytes (chanAt (placeAll s c.val) c.val).fr.nextSeq 0 0 []) ∈ t.sent ∧
        (chanAt t c.val).fr.regionLeft = (chanAt (placeAll s c.val) c.val).fr.regionLeft - 448 ∧
        (chanAt t c.val).fr.nextSeq = (chanAt (placeAll s c.val) c.val).fr.nextSeq) ∧
      (mayClose (chanAt s c.val).fr = true →
        rtxDue (chanAt (placeAll s c.val) c.val).fr = none → (chanAt (placeAll s c.val) c.val).fr.openDtu ≠ [] →
        (chanAt t c.val).fr.nextSeq = (chanAt (placeAll s c.val) c.val).fr.nextSeq + 1 ∧
        (chanAt t c.val).fr.lastSeqCur = (chanAt (placeAll s c.val) c.val).fr.nextSeq ∧
        Out.dtu c.val (dtuBytes (chanAt (placeAll s c.val) c.val).fr.nextSeq 1 0 (chanAt (placeAll s c.val) c.val).fr.openDtu) ∈ t.sent)) ∧
  (∀ (s : State) (c : Ch) (q : Half), serving s c.val = true →
    ∃ t, exec (.dtuLost c q) s = .next t ∧ SameCounters s t ∧ t.ledger = s.ledger ∧
      (lostDue (chanAt s c.val).fr q = false → t = s) ∧
      (lostDue (chanAt s c.val).fr q = true →
        (chanAt t c.val).fr.uncorrDtu = (chanAt s c.val).fr.uncorrDtu + 1 ∧
        (chanAt t c.val).fr.missing = (chanAt s c.val).fr.missing.tail ∧
        (chanAt t c.val).pm.cur.uncorr = (chanAt s c.val).pm.cur.uncorr + 1)) ∧
  (∀ (s : State) (r : RingNo) (seq : Word) (res : XferResult) (data : List Byte) (w : Work),
    workOpen s r.val seq = some w → w.d.opcode.toNat = 4 → isTribRing r.val = true → w.stage = .accepted →
    (ringAt s r.val).state ≠ .recovering →
    ∃ t, exec (.tribBlock r seq res data) s = .next t ∧ OnlyRing s t r.val ∧ t.journal = s.journal ∧ t.ledger = s.ledger ∧
      (serving s ((r.val - 16) / 6) = false → w.d.flags.getLsbD 2 = false → returnedWith t r.val seq = some (Outcome.of .retNoPath 0 0)) ∧
      (serving s ((r.val - 16) / 6) = true →
        ((vget (chanAt s ((r.val - 16) / 6)).line.latTrib (bits w.d.p0 1 0) Trib.off).enable = false ∨
          (vget (chanAt s ((r.val - 16) / 6)).line.latTrib (bits w.d.p0 1 0) Trib.off).ring = false) →
        returnedWith t r.val seq = some (Outcome.of .retParam 0 0)) ∧
      (∀ n, serving s ((r.val - 16) / 6) = true →
        vget (chanAt s ((r.val - 16) / 6)).line.latTrib (bits w.d.p0 1 0) Trib.off =
          { vget (chanAt s ((r.val - 16) / 6)).line.latTrib (bits w.d.p0 1 0) Trib.off with enable := true, ring := true, n := n } →
        (w.d.len.toNat % (4 * n) ≠ 0 ∨ w.d.len.toNat < 4 * n ∨ 256 * n < w.d.len.toNat) →
        returnedWith t r.val seq = some (Outcome.of .retLength 0 0)) ∧
      (blockStatus s ((r.val - 16) / 6) w = none → w.d.flags.getLsbD 2 = true →
        inWindows s (ringOwner s r.val) true w.d.addr.toNat w.d.len.toNat = true →
        t = { s with rings := t.rings } ∧ atStage t r.val seq .queued))

/-- Table 05.2, R107, R108, R113: a PSBd moves HUNT to PRESYNC and PRESYNC to SYNC and sets the superframe counter and t_ds, an EqD whose upstream frame has started being taken; in SYNC the codewords that cannot be corrected are counted, and the frame whose XGTC header is lost is discarded (log 168); a missed one returns PRESYNC to HUNT, and the third in a row in SYNC declares LODS; OPT_RX_LOS declares it at once; LODS that has lasted TO2 leaves the gate NOT_ASSIGNED with its IDs cleared and EqD 0. -/
def Obligations.UplinkSynchronisation : Prop :=
  ∀ s : State,
    (∀ (hi : BitVec 19) (lo : Word) (k : BitVec 51) (cw : List (List Byte)), k = hi ++ lo → rxLive s = true →
      ∃ t, exec (.psbdReceived hi lo cw) s = .next t ∧
        t = { s with datum := t.datum, time := t.time, hif := t.hif, upl := t.upl, rad := t.rad, evt := t.evt, sent := t.sent } ∧
        t.upl.superframe = k ∧ t.upl.tds = s.datum ∧
        (∀ e u, s.upl.eqdNext = some (e, u) →
          (u ≤ s.datum → t.upl.eqd = e ∧ t.upl.eqdNext = none) ∧
          ((s.datum : Int) < u → t.upl.eqd = s.upl.eqd ∧ t.upl.eqdNext = some (e, u))) ∧
        (s.upl.sync = .hunt → t.upl.sync = .presync ∧ t.upl.fecUncorr = s.upl.fecUncorr) ∧
        (s.upl.sync ≠ .hunt → t.upl.sync = .sync ∧ t.upl.misses = 0 ∧ t.upl.lods = false ∧
          t.upl.missing = false ∧
          t.upl.fecUncorr = s.upl.fecUncorr + cw.countP (fun w => (rsDecode 32 w).isNone) ∧
          t.upl.xgemSkip = (decide (4 ≤ (decodeDown cw).1.length) && (hecField 19 (beAt (decodeDown cw).1 0 4)).isNone) ∧
          t.upl.xgemDisc = s.upl.xgemDisc + (if t.upl.xgemSkip then 1 else 0))) ∧
    (rxLive s = true → ∃ t, exec .psyncExpectedMiss s = .next t ∧
      t = { s with time := t.time, hif := t.hif, upl := t.upl, evt := t.evt, sent := t.sent } ∧
      (s.upl.sync = .hunt → t = s) ∧ (s.upl.sync = .presync → t = { s with upl := { s.upl with sync := .hunt } }) ∧
      (s.upl.sync = .sync → s.upl.misses < 2 →
        t = { s with upl := { s.upl with misses := s.upl.misses + 1, missing := true } }) ∧
      (s.upl.sync = .sync → 2 ≤ s.upl.misses → t.upl.sync = .hunt ∧ t.upl.lods = true ∧ t.time.src ≠ .locked)) ∧
    (∀ level, ∃ t, exec (.optRxLosChange level) s = .next t ∧ t.upl.rxLos = level ∧ t.upl.gate = s.upl.gate ∧
      t = { s with time := t.time, hif := t.hif, upl := t.upl, evt := t.evt, sent := t.sent } ∧
      (level = true → s.pwr.domUpl = true → t.upl.lods = true ∧ t.upl.sync = .hunt) ∧
      (level = false → t = { s with upl := { s.upl with rxLos := false } })) ∧
    (∃ t, exec .lodsTo2Expiry s = .next t ∧
      t = { s with time := t.time, hif := t.hif, upl := t.upl, evt := t.evt, sent := t.sent } ∧
      (s.upl.lods = false ∨ s.upl.gate = .stopped → t = s) ∧
      (s.upl.lods = true → s.upl.gate ≠ .stopped →
        t.upl.gate = .notAssigned ∧ t.upl.onuId = 0x3FF ∧ t.upl.eqd = 0 ∧ t.upl.lods = true ∧ ∀ i, vget t.upl.allocs i none = none))

/-- R110: a downstream PLOAM message is acted on only in SYNC, addressed to this ONU-ID or broadcast, and with its integrity check good; one that fails the check is discarded and counted, and every one that is accepted reaches firmware. R104, R111, R113, R115, R118, Table 05.3: what each accepted PLOAM message does to the gate, the IDs, the profiles and EqD, which changes at the start of an upstream frame; a withdrawn permission to sleep wakes the receiver (R129, log 170). -/
def Obligations.PloamMessagesActOnTheGate : Prop :=
  (∀ (s : State) (m : Ploam) (c : Instr),
    (c = Instr.deactivateOnuId m ∨ (∃ body check, m = body ++ check ∧ c = .ploamReceived body check) ∨ (∃ i p, c = .burstProfile m i p) ∨
      (∃ i hi lo, c = .assignOnuId m i hi lo) ∨ (∃ a d, c = .rangingTime m a d) ∨ (∃ i a, c = .assignAllocId m i a) ∨
      (∃ o hi lo, c = .disableSerialNumber m o hi lo)) →
    ((inSync s = false ∨ (ploamOnu m ≠ s.upl.onuId ∧ ploamOnu m ≠ 0x3FF)) → exec c s = .next s) ∧
    (inSync s = true → (ploamOnu m = s.upl.onuId ∨ ploamOnu m = 0x3FF) → micGood s m = false →
      ∃ t, exec c s = .next t ∧ t.upl = { s.upl with micFails := s.upl.micFails + 1 } ∧
        t = { s with upl := t.upl, hif := t.hif, evt := t.evt, sent := t.sent }) ∧
    (inSync s = true → (ploamOnu m = s.upl.onuId ∨ ploamOnu m = 0x3FF) → micGood s m = true →
      ∃ t, exec c s = .next t ∧ Out.toFirmware m ∈ t.sent)) ∧
  (∀ (s : State) (m : Ploam), inSync s = true → (ploamOnu m = s.upl.onuId ∨ ploamOnu m = 0x3FF) → micGood s m = true →
    (∀ body check, m = body ++ check →
      (sleepWithdrawn m = false → exec (.ploamReceived body check) s = .next { s with sent := .toFirmware m :: s.sent }) ∧
      (sleepWithdrawn m = true → ∃ t, exec (.ploamReceived body check) s = .next t ∧ t.upl = { s.upl with ponMode := .awake, rxOn := true })) ∧
    (∀ (i : Fin 4) (p : BurstProf), ∃ t, exec (.burstProfile m i p) s = .next t ∧
      t = { s with upl := { s.upl with profiles := t.upl.profiles }, sent := .toFirmware m :: s.sent } ∧
      vget t.upl.profiles i.val none = some p ∧ ∀ j, j ≠ i.val → vget t.upl.profiles j none = vget s.upl.profiles j none) ∧
    (∀ (id : BitVec 10) (hi lo : Word), ∃ t, exec (.assignOnuId m id hi lo) s = .next t ∧
      t = { s with time := t.time, hif := t.hif, upl := t.upl, evt := t.evt, sent := t.sent } ∧
      ((hi ≠ s.upl.snHi ∨ lo ≠ s.upl.snLo ∨ s.upl.gate = .stopped) → t = { s with sent := .toFirmware m :: s.sent }) ∧
      (hi = s.upl.snHi → lo = s.upl.snLo → s.upl.gate ≠ .stopped →
        t.upl.onuId = id ∧ t.upl.gate = .assigned ∧ t.upl.eqd = 0 ∧ t.upl.eqdNext = none ∧
        vget t.upl.allocs 0 none = some (BitVec.ofNat 14 id.toNat) ∧
        (vget t.upl.ports 0 PortEntry.zero).valid = true ∧ (vget t.upl.ports 0 PortEntry.zero).port.toNat = id.toNat ∧
        ∀ j, 0 < j → (vget t.upl.ports j PortEntry.zero).valid = true → (vget t.upl.ports j PortEntry.zero).port.toNat ≠ id.toNat)) ∧
    (∀ (absolute : Bool) (delay : Int), ∃ t, exec (.rangingTime m absolute delay) s = .next t ∧
      t = { s with time := t.time, hif := t.hif, upl := t.upl, evt := t.evt, sent := t.sent } ∧ t.upl.eqd = (takeEqd s).upl.eqd ∧
      (s.upl.gate = .assigned ∨ s.upl.gate = .ranged → t.upl.gate = .ranged ∧ t.time.src = .locked ∧
        (absolute = true → t.upl.eqdNext = some ((if s.upl.usRate = 1 then 4 else 1) * delay, nextUpstream (takeEqd s))) ∧
        (absolute = false → s.upl.eqdNext = none →
          t.upl.eqdNext = some (s.upl.eqd + (if s.upl.usRate = 1 then 4 else 1) * delay, nextUpstream s))) ∧
      (s.upl.gate = .notAssigned ∨ s.upl.gate = .stopped → t = { takeEqd s with sent := .toFirmware m :: s.sent })) ∧
    ((s.datum : Int) ≤ nextUpstream s ∧ nextUpstream s < s.datum + uplPeriod ∧
      (nextUpstream s - (s.upl.tds + bitTime (frameBits s.upl s.upl.eqd))) % uplPeriod = 0) ∧
    (∀ (id : BitVec 14), s.upl.gate = .assigned ∨ s.upl.gate = .ranged →
      ∃ t, exec (.assignAllocId m id true) s = .next t ∧
        t = { s with hif := t.hif, upl := t.upl, evt := t.evt, sent := t.sent } ∧
        ((slotOf s.upl id).isSome = true → t = { s with sent := .toFirmware m :: s.sent }) ∧
        (∀ i, slotOf s.upl id = none → freeSlot s.upl = some i → vget t.upl.allocs i none = some id) ∧
        (slotOf s.upl id = none → freeSlot s.upl = none →
          t.upl = { s.upl with allocOver := s.upl.allocOver + 1 }) ∧
        ∃ u, exec (.assignAllocId m id false) s = .next u ∧
          u = { s with upl := { s.upl with allocs := u.upl.allocs }, sent := .toFirmware m :: s.sent } ∧
          (∀ i, slotOf s.upl id = some i → 0 < i → vget u.upl.allocs i none = none) ∧
          (slotOf s.upl id = some 0 → u.upl.allocs = s.upl.allocs)) ∧
    (∃ t, exec (.deactivateOnuId m) s = .next t ∧
      t = { s with time := t.time, hif := t.hif, upl := t.upl, evt := t.evt, sent := t.sent } ∧
      t.upl.gate = (if s.upl.gate = .stopped then .stopped else .notAssigned) ∧ t.upl.onuId = 0x3FF ∧ t.upl.eqd = 0 ∧
      ∀ i, vget t.upl.allocs i none = none) ∧
    (∀ (o : SnOrder) (hi lo : Word), ∃ t, exec (.disableSerialNumber m o hi lo) s = .next t ∧
      t = { s with time := t.time, hif := t.hif, upl := t.upl, evt := t.evt, sent := t.sent } ∧
      (o = .disable → hi = s.upl.snHi → lo = s.upl.snLo → t.upl.gate = .stopped ∧ t.upl.emstop = true ∧ t.upl.onuId = 0x3FF ∧
        t.upl.txDisable = true) ∧
      (o ≠ .disable → (o = .enableAll ∨ (hi = s.upl.snHi ∧ lo = s.upl.snLo)) → s.upl.gate = .stopped →
        t.upl.gate = .notAssigned ∧ t.upl.emstop = false) ∧
      (o ≠ .enableAll → (hi ≠ s.upl.snHi ∨ lo ≠ s.upl.snLo) → t = { s with sent := .toFirmware m :: s.sent })))

/-- R108, R109, R114, R119, R121: at a content fix the allocations whose header check cannot be corrected are counted and discarded, and those of Alloc-IDs this unit has not learned are not used; a burst whose masked allocations are removed is fixed, after the burst before it and with every grant one the gate state permits, or its window is refused whole and counted. Its window opens with the burst only while the gate still allows it; one with an allocation masked since is fixed anew without it, and no two windows are open at once. R67, R120, R121, R124: the end of a window drops OPT_TX_BURST_EN and executes the work whose last byte left in it, its outcome entering the journal; the backstop ends the window, counts it, and the work that had left whole is executed TRUNCATED. -/
def Obligations.BurstsFixedAndEnded : Prop :=
  (∀ s : State,
    (∀ (tds : Nat) (l : List DWord) (p : List (List Byte)), s.pwr.domUpl = true →
      ∃ t, exec (.burstContentFix tds ⟨l, p⟩) s = .next t ∧
        t = { s with hif := t.hif, upl := t.upl, evt := t.evt, sent := t.sent, free := t.free } ∧
        t.upl.xgemDisc = s.upl.xgemDisc + allocsLost l ∧
        (((parseAllocs l).filter (allocOurs s.upl)).filter (fun a => !allocMasked s.upl a) = [] →
          t.upl.bursts = s.upl.bursts ∧ t.upl.refused = s.upl.refused ∧ t.upl.tcont = s.upl.tcont ∧
          t.upl.ploamUp = s.upl.ploamUp ++ (if cpServes s then p else [])) ∧
        (((parseAllocs l).filter (allocOurs s.upl)).filter (fun a => !allocMasked s.upl a) ≠ [] →
          ((gateLive s = false ∨ ∃ a, a ∈ parseAllocs l ∧ allocOurs s.upl a = true ∧ allocMasked s.upl a = false ∧ allocPermitted s.upl a = false) →
            t.upl.refused = s.upl.refused + 1 ∧ t.upl.bursts = s.upl.bursts ∧ t.upl.tcont = s.upl.tcont) ∧
          (t.upl.refused ≠ s.upl.refused + 1 → ∃ b, t.upl.bursts = s.upl.bursts ++ [b] ∧ t.upl.refused = s.upl.refused ∧
            b.allocs = ((parseAllocs l).filter (allocOurs s.upl)).filter (fun a => !allocMasked s.upl a) ∧
            ∀ e, lastEnd s.upl = some e → e ≤ b.winFrom))) ∧
    (∀ tds l p, s.pwr.domUpl = false → exec (.burstContentFix tds ⟨l, p⟩) s = .next s) ∧
    (∀ b rest, s.upl.bursts = b :: rest → s.upl.window = none →
      ∃ t, exec .burstWindowOpen s = .next t ∧ t = { s with hif := t.hif, upl := t.upl, evt := t.evt, sent := t.sent } ∧
        (gateLive s = true → (∀ a, a ∈ b.allocs → allocMasked s.upl a = false ∧ allocPermitted s.upl a = true) →
          t.upl.bursts = rest ∧ t.upl.burstEn = true ∧ t.upl.txSd = true ∧ t.upl.prevEnd = some b.winTo ∧
          t.upl.refused = s.upl.refused ∧
          (∃ w, t.upl.window = some w ∧ w.opened = s.datum ∧ w.allocs = b.allocs ∧ w.psbu = b.psbu) ∧
          ∀ dg m, b.ploam = some (dg, m) → Out.ploamUp (signedPloam s m) ∈ t.sent) ∧
        (gateLive s = true → (∃ a, a ∈ b.allocs ∧ allocMasked s.upl a = false ∧ allocPermitted s.upl a = false) →
          t.upl.window = none ∧ t.upl.bursts = rest ∧ t.upl.burstEn = s.upl.burstEn ∧ t.upl.refused = s.upl.refused + 1) ∧
        (gateLive s = true → (∃ a, a ∈ b.allocs ∧ allocMasked s.upl a = true) →
          t.upl.window = none ∧ t.upl.burstEn = s.upl.burstEn ∧ ∃ pre, t.upl.bursts = pre ++ rest ∧
            ∀ x, x ∈ pre → ∀ a, a ∈ x.allocs → a ∈ b.allocs ∧ allocMasked s.upl a = false) ∧
        (gateLive s = false → t.upl.window = none ∧ t.upl.bursts = [] ∧ t.upl.burstEn = s.upl.burstEn ∧
          t.upl.refused = s.upl.refused + 1 + rest.length)) ∧
    (s.upl.bursts = [] ∨ s.upl.window.isSome = true → exec .burstWindowOpen s = .next s)) ∧
  (∀ s : State,
    (∀ b, s.upl.window = some b → ∃ t, exec .burstWindowClose s = .next t ∧
      t = { s with hif := t.hif, rings := t.rings, journal := t.journal, chans := t.chans, upl := t.upl, fw := t.fw, evt := t.evt, sent := t.sent } ∧
      t.upl = { s.upl with window := none, burstEn := false, txSd := false, tcont := t.upl.tcont } ∧
      Out.burst (b.psbu ++ b.bytes) ∈ t.sent ∧
      (b.lastOf = [] → t.rings = s.rings ∧ t.journal = s.journal) ∧
      (∀ x w, b.lastOf = [x] → workOpen s x.ring.val x.seq = some w → journalSpace s = true →
        t.journal = s.journal ++ [{ ring := x.ring, seq := x.seq, out := uplOutcome w x false }])) ∧
    (s.upl.window = none → exec .burstWindowClose s = .next s ∧ exec .backstopExpiry s = .next s) ∧
    (∀ b, s.upl.window = some b → ∃ t, exec .backstopExpiry s = .next t ∧
      t = { s with hif := t.hif, rings := t.rings, journal := t.journal, chans := t.chans, upl := t.upl, evt := t.evt, sent := t.sent } ∧
      t.upl.window = none ∧ t.upl.burstEn = false ∧ t.upl.gate = s.upl.gate ∧ t.upl.bursts = s.upl.bursts ∧
      t.upl.backstops = s.upl.backstops + 1 ∧
      (∀ x w, b.lastOf = [x] → x.endBit ≤ 32 * s.upl.maxBurst.toNat → workOpen s x.ring.val x.seq = some w → journalSpace s = true →
        t.journal = s.journal ++ [{ ring := x.ring, seq := x.seq, out := uplOutcome w x true }])))

/-- R105, R106, R122, R125, R385, R402: what the optical module, its diagnostics, its page A0h and user area, light outside a window and the emergency stop do; ROGUE is cleared by the PF alone, with OPT_TX_SD low. R129, Table 05.6: in cyclic sleep the expiry of Iaware switches the receiver off, without LODS, and that of Irxoff or Ilowpower switches it on; Ihold ends nothing while a T-CONT queue holds a frame. -/
def Obligations.OpticsAndPonPowerFollowed : Prop :=
  (∀ s : State,
    (∀ level, ∃ t, exec (.optModAbsChange level) s = .next t ∧ t.upl.modAbs = level ∧
      t = { s with time := t.time, hif := t.hif, rings := t.rings, journal := t.journal, chans := t.chans, upl := t.upl, evt := t.evt, sent := t.sent } ∧
      (level = false ∨ s.upl.window = none → t.rings = s.rings ∧ t.journal = s.journal) ∧
      (s.pwr.domUpl = true → level = true → t.upl.txDisable = true ∧ t.upl.lods = true ∧ t.upl.sync = .hunt ∧
        t.upl.window = none ∧ ∀ i, (vget t.upl.diag i (false, 0)).1 = false)) ∧
    (∀ vals a0h user, s.pwr.domUpl = true → ∃ t, exec (.opticsDiagPoll ⟨vals, a0h, user⟩) s = .next t ∧
      t = { s with upl := { s.upl with diag := t.upl.diag, a0h := t.upl.a0h }, sent := t.sent } ∧
      (∀ x, a0h = some x → s.upl.modAbs = false → t.upl.a0h = x) ∧ (a0h = none ∨ s.upl.modAbs = true → t.upl.a0h = s.upl.a0h) ∧
      (user = none → t.sent = s.sent) ∧
      (∀ a x, user = some (a, x) → t.sent =
        if cpServes s && !s.upl.modAbs && decide (128 ≤ a.toNat) && decide (a.toNat + x.length ≤ 248) then .i2cWrite a x :: s.sent else s.sent) ∧
      ∀ i, i < 5 → (∀ x, vget vals i none = some x → s.upl.modAbs = false → vget t.upl.diag i (false, 0) = (true, x)) ∧
        ((vget vals i none = none ∨ s.upl.modAbs = true) →
          vget t.upl.diag i (false, 0) = (false, (vget s.upl.diag i (false, 0)).2))) ∧
    (∀ i : Fin 5, ∃ t, exec (.i2cStretchTimeout i) s = .next t ∧ t = { s with upl := { s.upl with diag := t.upl.diag } } ∧
      (vget t.upl.diag i.val (false, 0)).1 = false ∧
      ∀ j, j ≠ i.val → vget t.upl.diag j (false, 0) = vget s.upl.diag j (false, 0)) ∧
    (∃ t, exec .rogueLight s = .next t ∧
      t = { s with hif := t.hif, upl := t.upl, evt := t.evt, sent := t.sent } ∧
      ((s.upl.rogueEn = false ∨ s.upl.window.isSome = true) → t = s) ∧
      (s.pwr.domUpl = true → s.upl.rogueEn = true → s.upl.window = none → s.upl.rogue = false →
        t.upl.rogue = true ∧ t.upl.txDisable = true ∧ t.upl.gate = s.upl.gate)) ∧
    (∀ sd, s.pwr.domUpl = true → ∃ t, exec (.rogueClear ⟨.pf, sd⟩) s = .next t ∧ t = { s with upl := t.upl } ∧
      (sd = true → t.upl = { s.upl with txSd := true }) ∧
      (sd = false → t.upl.rogue = false ∧ t.upl.txSd = false ∧
        t.upl.txDisable = (decide (s.upl.gate = .stopped) || s.upl.modAbs))) ∧
    (∀ cp sd, ∃ t, exec (.rogueClear ⟨.fw cp, sd⟩) s = .next t ∧ t.upl = s.upl) ∧
    (∀ cp, s.pwr.domUpl = true → ∃ t, exec (.emstopSet (.fw cp)) s = .next t ∧
      t = { s with time := t.time, hif := t.hif, upl := t.upl, evt := t.evt, sent := t.sent } ∧
      t.upl.gate = .stopped ∧ t.upl.emstop = true ∧ t.upl.txDisable = true) ∧
    exec (.emstopSet .pf) s = .next s) ∧
  (∀ s : State, s.pwr.domUpl = true →
    (∀ x, ∃ t, exec (.ponPowerSaveTimerExpiry x) s = .next t ∧ t = { s with time := t.time, upl := t.upl, free := t.free } ∧
      t.upl.lods = s.upl.lods ∧ t.upl.gate = s.upl.gate ∧ t.upl.tcont = s.upl.tcont) ∧
    (s.upl.ponMode = .cyclicSleep → ∃ t, exec (.ponPowerSaveTimerExpiry .iaware) s = .next t ∧ t.upl.rxOn = false ∧
      t.upl.sync = .hunt ∧ t.upl.ponMode = .cyclicSleep) ∧
    (∀ x, x = .irxoff ∨ x = .ilowpower → s.upl.ponMode = .cyclicSleep →
      exec (.ponPowerSaveTimerExpiry x) s = .next { s with upl := { s.upl with rxOn := true } }) ∧
    (s.upl.ponMode = .awake → (∃ l, l ∈ s.upl.tcont.toList ∧ l ≠ []) → exec (.ponPowerSaveTimerExpiry .ihold) s = .next s))

/-- R111, R112, R386: the port table is read by the PF and firmware and written by firmware alone, entry 0, a TYPE of 2 or more and a port ID that is valid elsewhere being refused; a downstream XGEM frame for an unknown port or without a usable key is discarded and counted, and one of the OMCI port goes to firmware. R108: a header that cannot be corrected is discarded and counted with the rest of its frame's payload; a fragment waits for the last of its frame. -/
def Obligations.XgemPortsKeptAndUsed : Prop :=
  ∀ (s : State), s.pwr.domUpl = true →
    (∀ (who : Requester) (i : BitVec 10), reachesAll who = true → exec (.uplPortRead who i) s = .next { s with
      upl := { s.upl with portIdx := i, portStatus := 0, portData := portImage (vget s.upl.ports i.toNat PortEntry.zero) } }) ∧
    (∀ (cp : Fin 2) (i : BitVec 10), ∃ t, exec (.uplPortWrite (.fw cp) i) s = .next t ∧
      t = { s with upl := { s.upl with portIdx := i, portStatus := t.upl.portStatus, ports := t.upl.ports } } ∧
      (∀ j, j ≠ i.toNat → vget t.upl.ports j PortEntry.zero = vget s.upl.ports j PortEntry.zero) ∧
      ((i = 0 ∨ 2 ≤ bits s.upl.portData 30 29) → t.upl.portStatus = 2 ∧ t.upl.ports = s.upl.ports) ∧
      (i ≠ 0 → bits s.upl.portData 30 29 < 2 →
        (t.upl.portStatus = 1 ↔ ∃ j, j < 1024 ∧ j ≠ i.toNat ∧ (vget s.upl.ports j PortEntry.zero).valid = true ∧
          (vget s.upl.ports j PortEntry.zero).port.toNat = bits s.upl.portData 15 0) ∧
        (t.upl.portStatus ≠ 1 → t.upl.portStatus = 0 ∧
          portImage (vget t.upl.ports i.toNat PortEntry.zero) = s.upl.portData))) ∧
    (∀ (cp : Fin 2) (i : BitVec 10), ∃ t, exec (.uplPortClear (.fw cp) i) s = .next t ∧
      t = { s with upl := { s.upl with portIdx := i, portStatus := t.upl.portStatus, ports := t.upl.ports } } ∧
      (i = 0 → t.upl.portStatus = 2 ∧ t.upl.ports = s.upl.ports) ∧
      (i ≠ 0 → t.upl.portStatus = 0 ∧ vget t.upl.ports i.toNat PortEntry.zero = PortEntry.zero)) ∧
    (∀ i, exec (.uplPortWrite .pf i) s = .next s ∧ exec (.uplPortClear .pf i) s = .next s) ∧
    (∀ (hi lo : Word) (hdr : DWord) (pos hb : Nat) (x : List Byte), hdr = hi ++ lo → inSync s = true →
      ∃ t, exec (.xgemFrameReceived hi lo pos hb x) s = .next t ∧
        t = { s with time := t.time, hif := t.hif, chans := t.chans, upl := t.upl, xc := t.xc, fw := t.fw, evt := t.evt,
                     sent := t.sent, free := t.free } ∧
        ((s.upl.xgemSkip = true ∨ hecField 51 hdr.toNat = none) →
          t.upl = { s.upl with xgemDisc := s.upl.xgemDisc + 1, xgemSkip := true } ∧ t.chans = s.chans ∧ t.xc = s.xc) ∧
        (∀ v, s.upl.xgemSkip = false → hecField 51 hdr.toNat = some v →
          ((∀ e, e ∈ s.upl.ports.toList → e.valid = true → e.port ≠ (xgemHdrOf v).port) →
            t.upl = { s.upl with xgemDisc := s.upl.xgemDisc + 1 } ∧ t.chans = s.chans ∧ t.xc = s.xc) ∧
          (∀ e, s.upl.ports.toList.find? (fun e => e.valid && e.port == (xgemHdrOf v).port) = some e →
            (((xgemHdrOf v).keyIdx = 3 ∨ ((xgemHdrOf v).keyIdx = 0 ∧ e.encReq = true) ∨
                ((xgemHdrOf v).keyIdx ≠ 0 ∧ ∀ h, xgemHandle s.upl e (xgemHdrOf v).keyIdx = some h → uplKeyUsable s 5 h = false)) →
              t.upl = { s.upl with xgemDisc := s.upl.xgemDisc + 1 } ∧ t.chans = s.chans ∧ t.xc = s.xc) ∧
            ((xgemHdrOf v).keyIdx = 0 → e.encReq = false → s.upl.xgemPart = none →
              ((xgemHdrOf v).last = true → e.type = 2 → t = { s with sent := .toFirmware (x.take (xgemHdrOf v).len) :: s.sent }) ∧
              ((xgemHdrOf v).last = false → t = { s with upl := { s.upl with
                xgemPart := some (e.port, s.upl.tds + (bitTime (hb : Nat)).toNat, x.take (xgemHdrOf v).len) } })))))

/-- R185, R186, R188: a frame from a serving channel's line is discarded and counted as RUNT or with a wrong FCS, and otherwise counted in US_FRAMES and classified: with no entry it counts in MISS_DISCARD unless misses go to the exception ring, and one for an uplink port joins the channel's upstream queue of its priority, edited, when its cells are free, or counts in NO_PORT or BUF_DISCARD. R193 to R195: a received priority pause holds each obeyed priority until its quanta have run, its timer's end, and no instant before it, releases that queue alone, and half the generated time later a pause frame for the priorities still congested goes ahead of every queued frame. -/
def Obligations.UpstreamFramesAndPause : Prop :=
  (∀ (s : State) (c : Ch) (x : List Byte) (rx : Nat) (m : MacSect),
    serving s c.val = true → (chanAt s c.val).tab.mac = some m → m.rxEn = false → m.trapL2cp = false → m.missExc = false →
    ∃ t, exec (.upstreamFrameReceived c x rx) s = .next t ∧ OnlyChan s t c.val ∧
      t = { s with hif := t.hif, chans := t.chans, xc := t.xc, fw := t.fw, evt := t.evt, sent := t.sent } ∧
      (x.length < 64 → chanAt t c.val = { chanAt s c.val with mac := { (chanAt s c.val).mac with runt := (chanAt s c.val).mac.runt + 1 } }) ∧
      (64 ≤ x.length → fcsGood x = false →
        chanAt t c.val = { chanAt s c.val with mac := { (chanAt s c.val).mac with fcsErr := (chanAt s c.val).mac.fcsErr + 1 } }) ∧
      (64 ≤ x.length → fcsGood x = true → beAt (noFcs x) 12 2 ≠ 0x8808 →
        (chanAt t c.val).mac.usFrames = (chanAt s c.val).mac.usFrames + 1 ∧
        (upstreamEntry s c.val (matchVid (noFcs x)) (framePcp (noFcs x) m.defPcp.toNat) = none →
          (chanAt t c.val).mac.missDisc = (chanAt s c.val).mac.missDisc + 1 ∧ (chanAt t c.val).qs = (chanAt s c.val).qs) ∧
        (∀ e, upstreamEntry s c.val (matchVid (noFcs x)) (framePcp (noFcs x) m.defPcp.toNat) = some e → feKind e = 5 →
          (portActive s (fePort e) = false →
            (chanAt t c.val).mac.noPort = (chanAt s c.val).mac.noPort + 1 ∧ (chanAt t c.val).qs = (chanAt s c.val).qs) ∧
          (portActive s (fePort e) = true → (withFcs (vlanEdit e m.defPcp.toNat (noFcs x))).length ≤ 9216 →
            (usFree s c.val < cells (withFcs (vlanEdit e m.defPcp.toNat (noFcs x))).length →
              (chanAt t c.val).mac.bufDisc = (chanAt s c.val).mac.bufDisc + 1 ∧ (chanAt t c.val).qs = (chanAt s c.val).qs) ∧
            (cells (withFcs (vlanEdit e m.defPcp.toNat (noFcs x))).length ≤ usFree s c.val →
              ∃ f, vget (chanAt t c.val).qs.q (8 + framePcp (noFcs x) m.defPcp.toNat) [] =
                  vget (chanAt s c.val).qs.q (8 + framePcp (noFcs x) m.defPcp.toNat) [] ++ [f] ∧
                f.bytes = withFcs (vlanEdit e m.defPcp.toNat (noFcs x)) ∧ f.dest = .tcont (feTcont e) ∧ f.entered = s.datum))))) ∧
  (∀ (s : State) (c : Ch),
    (∀ (x : List Byte) (m : MacSect), serving s c.val = true → (chanAt s c.val).tab.mac = some m → fcsGood x = true →
      beAt x 12 2 = 0x8808 → beAt (noFcs x) 14 2 = 0x0101 →
      ∃ t, exec (.pauseFrameReceived c x) s = .next t ∧ OnlyChan s t c.val ∧
        t = { s with hif := t.hif, chans := t.chans, evt := t.evt, sent := t.sent } ∧ (chanAt t c.val).qs.q = (chanAt s c.val).qs.q ∧
        ∀ p, p < 8 → vget (chanAt t c.val).qs.obey p none =
          if (beAt (noFcs x) 16 2 % 256 &&& m.pfcObey.toNat).testBit p then pauseEnd s c.val (beAt (noFcs x) (18 + 2 * p) 2)
          else vget (chanAt s c.val).qs.obey p none) ∧
    (∀ x, fcsGood x = false → exec (.pauseFrameReceived c x) s = .next s) ∧
    (∀ (p : Fin 8) (d : Nat), vget (chanAt s c.val).qs.obey p.val none = some d →
      (s.datum < d → exec (.pauseTimerExpiry c p) s = .next s) ∧
      (d ≤ s.datum → ∃ t, exec (.pauseTimerExpiry c p) s = .next t ∧ t = { s with chans := t.chans } ∧ OnlyChan s t c.val ∧
        vget (chanAt t c.val).qs.obey p.val none = none ∧
        ∀ q, q ≠ p.val → vget (chanAt t c.val).qs.obey q none = vget (chanAt s c.val).qs.obey q none)) ∧
    (∀ d, (chanAt s c.val).qs.genTimer = some d → s.datum < d → exec (.pauseRefreshExpiry c) s = .next s) ∧
    (∀ m d, serving s c.val = true → (chanAt s c.val).tab.mac = some m → (chanAt s c.val).qs.genTimer = some d → d ≤ s.datum →
      ∃ t, exec (.pauseRefreshExpiry c) s = .next t ∧ OnlyChan s t c.val ∧
        t = { s with hif := t.hif, chans := t.chans, evt := t.evt, sent := t.sent } ∧
        (chanAt t c.val).qs.genTimer = some (s.datum + pauseNs m.quanta (chanAt s c.val).line.ndrUsSvc * nsUnit / 2) ∧
        ((∀ p, p < 8 → m.pfcGen.getLsbD p = true → (chanAt s c.val).qs.gen.getLsbD p = true → congested s c.val m p = false) →
          (chanAt t c.val).qs.pauseTx = (chanAt s c.val).qs.pauseTx) ∧
        ∀ p, p < 8 → m.pfcGen.getLsbD p = true → (chanAt s c.val).qs.gen.getLsbD p = true → congested s c.val m p = true →
        ∃ f, (chanAt t c.val).qs.pauseTx = (chanAt s c.val).qs.pauseTx ++ [f] ∧ (f.take 6 = [0x01, 0x80, 0xC2, 0x00, 0x00, 0x01]) ∧
          fcsGood f = true))

/-- R183, R191: each requester's indirect port reads, writes and clears one entry; a write of a BAD entry, or of a key another valid upstream entry has, changes no entry and says so in STATUS. R181, R182: corrected single-bit errors are counted; an uncorrectable error retires its bank; no struck frame that was not sent whole stays stored, accepted transmit work among them is read again, REFETCHED, or returned where its LIFETIME has run out (R70), under a recovery of cause 0x11; an error of a retired bank does nothing more. -/
def Obligations.FlowTableAndBufferBanks : Prop :=
  (∀ (s : State) (who : Requester) (i : BitVec 12) (p : Nat), ftPortOf who = some p →
    (∃ t, exec (.flowTableRead who i) s = .next t ∧ t = { s with xc := { s.xc with ports := t.xc.ports } } ∧
      vget t.xc.ports p FtPort.reset = { data := flowAt s i.toNat, status := 0, idx := i } ∧
      ∀ q, q ≠ p → vget t.xc.ports q FtPort.reset = vget s.xc.ports q FtPort.reset) ∧
    (∃ t, exec (.flowTableWrite who i) s = .next t ∧ t = { s with xc := { s.xc with ports := t.xc.ports, flow := t.xc.flow } } ∧
      (vget t.xc.ports p FtPort.reset).data = (vget s.xc.ports p FtPort.reset).data ∧
      (∀ j, j ≠ i.toNat → flowAt t j = flowAt s j) ∧
      (flowBad s (vget s.xc.ports p FtPort.reset).data = true →
        t.xc.flow = s.xc.flow ∧ (vget t.xc.ports p FtPort.reset).status = 1) ∧
      ((feKind (vget s.xc.ports p FtPort.reset).data = 6 ∨ feKind (vget s.xc.ports p FtPort.reset).data = 7) → t.xc.flow = s.xc.flow) ∧
      (flowBad s (vget s.xc.ports p FtPort.reset).data = false → flowDup s i.toNat (vget s.xc.ports p FtPort.reset).data = true →
        t.xc.flow = s.xc.flow ∧ (vget t.xc.ports p FtPort.reset).status = 2) ∧
      (flowBad s (vget s.xc.ports p FtPort.reset).data = false → flowDup s i.toNat (vget s.xc.ports p FtPort.reset).data = false →
        flowAt t i.toNat = (vget s.xc.ports p FtPort.reset).data ∧ (vget t.xc.ports p FtPort.reset).status = 0)) ∧
    (∃ t, exec (.flowTableClear who i) s = .next t ∧ t = { s with xc := { s.xc with ports := t.xc.ports, flow := t.xc.flow } } ∧
      flowAt t i.toNat = Vector.replicate 4 0 ∧ (∀ j, j ≠ i.toNat → flowAt t j = flowAt s j) ∧
      (vget t.xc.ports p FtPort.reset).status = 0)) ∧
  (∀ (s : State) (b : Fin 64) (hit : List Nat) (corrected : Nat),
    ∃ t, exec (.bufferUncorrectableError b ⟨hit, corrected⟩) s = .next t ∧ t.journal = s.journal ∧ t.ledger = s.ledger ∧ SameCounters s t ∧
      t.xc.bufCe = s.xc.bufCe + word corrected ∧
      (s.xc.retired.getLsbD b.val = true → t = { s with hif := t.hif, xc := { s.xc with bufCe := t.xc.bufCe }, evt := t.evt, sent := t.sent }) ∧
      (s.xc.retired.getLsbD b.val = false →
        t.xc.retired = s.xc.retired ||| BitVec.ofNat 64 (2 ^ b.val) ∧
        (∀ c i f, f ∈ vget (chanAt t c).qs.q i [] → struck hit f = false ∨ f.bytes.length ≤ f.placed) ∧
        (∀ r q w, (r, q) ∈ struckWork s hit → findWork (ringAt s r.val) q = some w →
          (lifeOver s r.val w = false →
            ∃ w', findWork (ringAt t r.val) q = some w' ∧ w'.d = w.d ∧ w'.stage = .wantRead ∧ w'.refetch = true) ∧
          (lifeOver s r.val w = true → isP1 s = false → w.ret = none → journalOf s r.val q = none →
            returnedWith t r.val q = some (Outcome.of .retExpired 0 0))) ∧
        ∃ v, v ∈ t.recov ∧ v.cause = 0x11 ∧ v.lossy = false ∧ ∀ x, x ∈ struckWork s hit → x.1 ∈ v.scope))

/-- R203, R204, R206: a selection takes the head frame of an eligible queue of the highest level, in each direction, and charges a shaped queue's credit with its bytes; with no eligible queue, with a frame in progress (R205), or for a queue other than that one (log 204), nothing changes; with no gate list, a queue is eligible with its head stored, credit where it is shaped, and downstream no pause obeyed and the head inside the present portion of the stream (R194, R205). R207, R208, R216: a refill, at a microsecond of the datum and at no other instant, adds each shaped queue's rate up to its cap and takes up a waiting queue section; a sample, at a millisecond of the datum, raises, saturating, one bin of each of a serving channel's histograms; HIST_CLR clears that channel's bins alone. -/
def Obligations.QueuesServedAndShaped : Prop :=
  (∀ (s : State) (c : Ch) (m : MacSect),
    serving s c.val = true → (chanAt s c.val).tab.mac = some m →
    (m.txEn = false → (chanAt s c.val).qs.cur = none → (chanAt s c.val).qs.pauseTx = [] →
      (∀ p : Fin 8, ∃ t, exec (.schedulerSelect c .ds p) s = .next t ∧ OnlyChan s t c.val ∧ t.ledger = s.ledger ∧ t.datum = s.datum ∧
        t.upl = s.upl ∧ ((∀ i, i < 8 → eligible (chanAt s c.val) s.datum i = false) → t = s)) ∧
      (∀ i, i < 8 → eligible (chanAt s c.val) s.datum i = true →
        ∃ (q : Fin 8) (f : Frame) (rest : List Frame) (t : State), exec (.schedulerSelect c .ds q) s = .next t ∧
          (∀ p, p ≠ q → exec (.schedulerSelect c .ds p) s = .next s) ∧ eligible (chanAt s c.val) s.datum q.val = true ∧
          (qdescAt (chanAt s c.val) i).level ≤ (qdescAt (chanAt s c.val) q.val).level ∧
          vget (chanAt s c.val).qs.q q.val [] = f :: rest ∧ vget (chanAt t c.val).qs.q q.val [] = rest ∧
          (∀ j, j ≠ q.val → vget (chanAt t c.val).qs.q j [] = vget (chanAt s c.val).qs.q j []) ∧
          ((qdescAt (chanAt s c.val) q.val).shape = true →
            vget (chanAt t c.val).qs.credit q.val 0 = vget (chanAt s c.val).qs.credit q.val 0 - ((f.bytes.length * 8000 : Nat) : Int)))) ∧
    ((chanAt s c.val).qs.cur.isSome = true → ∀ p, exec (.schedulerSelect c .ds p) s = .next s) ∧
    (∀ p : Fin 8, ∃ t, exec (.schedulerSelect c .us p) s = .next t ∧ OnlyChan s t c.val ∧ t.rings = s.rings ∧ t.journal = s.journal ∧
      t.datum = s.datum ∧ ((∀ i, 8 ≤ i → i < 16 → eligible (chanAt s c.val) s.datum i = false) → t = s)) ∧
    (∀ i, 8 ≤ i → i < 16 → eligible (chanAt s c.val) s.datum i = true →
      ∃ (q : Fin 8) (f : Frame) (rest : List Frame) (t : State), exec (.schedulerSelect c .us q) s = .next t ∧
        (∀ p, p ≠ q → exec (.schedulerSelect c .us p) s = .next s) ∧
        (qdescAt (chanAt s c.val) i).level ≤ (qdescAt (chanAt s c.val) (q.val + 8)).level ∧
        vget (chanAt s c.val).qs.q (q.val + 8) [] = f :: rest ∧ vget (chanAt t c.val).qs.q (q.val + 8) [] = rest ∧
        (f.dest = .rxh → (chanAt t c.val).hostRx = (chanAt s c.val).hostRx ++ [f]) ∧
        (∀ k, k < 64 → f.dest = .tcont k →
          vget t.upl.tcont k [] = vget s.upl.tcont k [] ++ [{ f with entered := s.datum }] ∧ t.upl.ponMode = .awake) ∧
        (f.dest = .excRx → t.xc.excRx = s.xc.excRx ++ [f]))) ∧
  (∀ (k : Chan) (t i : Nat), k.gcl.active.enable = false →
    (eligible k t i = true ↔ headReady k i = true ∧ ((qdescAt k i).shape = true → 0 < vget k.qs.credit i 0) ∧
      (i < 8 → vget k.qs.obey i none = none ∧
        portionFits k (lineLen k (headLen k i)) = true))) ∧
  (∀ s : State,
    (atEdge s usUnit 0 = false → exec .refillTick s = .next s) ∧
    (atEdge s usUnit 0 = true → ∃ t, exec .refillTick s = .next t ∧ t = { s with chans := t.chans } ∧
      ∀ c, c < 24 → (chanAt t c).tab.pendQueues = none ∧
        (∀ v, (chanAt s c).tab.pendQueues = some v → (chanAt t c).tab.queues = v) ∧
        ((chanAt s c).tab.pendQueues = none → serving s c = true → ∀ i, i < 16 →
          vget (chanAt t c).qs.credit i 0 =
            if (qdescAt (chanAt s c) i).shape then
              min (vget (chanAt s c).qs.credit i 0 + ((qdescAt (chanAt s c) i).cir : Int)) (((qdescAt (chanAt s c) i).cbs * 8000 : Nat) : Int)
            else vget (chanAt s c).qs.credit i 0) ∧
        (chanAt t c).qs.q = (chanAt s c).qs.q ∧ (chanAt t c).line = (chanAt s c).line) ∧
    (atEdge s msUnit 0 = false → exec .histogramSample s = .next s) ∧
    (atEdge s msUnit 0 = true → ∃ t, exec .histogramSample s = .next t ∧ t = { s with chans := t.chans } ∧
      ∀ c, c < 24 → (serving s c = false → chanAt t c = chanAt s c) ∧
        (serving s c = true → (chanAt t c).tab = (chanAt s c).tab ∧ (chanAt t c).qs.q = (chanAt s c).qs.q ∧
          ∀ i b v, b < 16 → (i < 16 ∧ v = frameCells (vget (chanAt s c).qs.q i []) ∨
              16 ≤ i ∧ i < 32 ∧ v = holDelay s.datum (vget (chanAt s c).qs.q (i - 16) [])) →
            (vget (vget (chanAt t c).qs.hist i (Vector.replicate 16 0)) b 0).toNat =
              if b = histBin v then min 0xFFFFFFFF ((vget (vget (chanAt s c).qs.hist i (Vector.replicate 16 0)) b 0).toNat + 1)
              else (vget (vget (chanAt s c).qs.hist i (Vector.replicate 16 0)) b 0).toNat)) ∧
    (∀ who (c : Ch), reachesChan who c.val = true → present s c.val = true →
      ∃ t, exec (.histClr who c) s = .next t ∧ t = { s with chans := t.chans } ∧ OnlyChan s t c.val ∧
        chanAt t c.val = { chanAt s c.val with qs := { (chanAt s c.val).qs with hist := (chanAt t c.val).qs.hist } } ∧
        ∀ i b, vget (vget (chanAt t c.val).qs.hist i (Vector.replicate 16 0)) b 0 = 0))

/-- R209, R210: a swap request of a valid shadow list waits, and one of an invalid list sets BAD; the exchange of the banks takes place at a cycle start of the new list on the datum and PHASE, and at no other instant; a list made invalid meanwhile ends the request as BAD (the model's choice of log 176). The gates in force follow the datum: those of an enabled list are the same one cycle later, and without one every gate is open. -/
def Obligations.GateListsSwapAtCycleStart : Prop :=
  (∀ (s : State) (c : Ch), present s c.val = true →
    (∀ who, reachesChan who c.val = true →
      ∃ t, exec (.gclSwap who c) s = .next t ∧ t = { s with chans := t.chans } ∧ OnlyChan s t c.val ∧
        (gclUsable (chanAt s c.val).gcl.shadow (isP1 s) = false →
          chanAt t c.val = { chanAt s c.val with gcl := { (chanAt s c.val).gcl with bad := true } }) ∧
        (gclUsable (chanAt s c.val).gcl.shadow (isP1 s) = true →
          chanAt t c.val = { chanAt s c.val with gcl := { (chanAt s c.val).gcl with pending := true } })) ∧
    (∃ t, exec (.gateIntervalExpiry c) s = .next t ∧ t = { s with chans := t.chans } ∧ OnlyChan s t c.val ∧
      (chanAt t c.val).tab = (chanAt s c.val).tab ∧ (chanAt t c.val).qs.q = (chanAt s c.val).qs.q ∧
      ((chanAt s c.val).gcl.pending = false → (chanAt t c.val).gcl = (chanAt s c.val).gcl) ∧
      ((chanAt s c.val).gcl.pending = true →
        (gclUsable (chanAt s c.val).gcl.shadow (isP1 s) = false →
          (chanAt t c.val).gcl = { (chanAt s c.val).gcl with pending := false, bad := true }) ∧
        (gclUsable (chanAt s c.val).gcl.shadow (isP1 s) = true →
          (chanAt t c.val).gcl =
            if atEdge s (cycleNs (chanAt s c.val).gcl.shadow * nsUnit) ((chanAt s c.val).gcl.shadow.phase * nsUnit) then
              { (chanAt s c.val).gcl with active := (chanAt s c.val).gcl.shadow, shadow := (chanAt s c.val).gcl.active, pending := false }
            else (chanAt s c.val).gcl)))) ∧
  (∀ (k : Chan) (t i : Nat),
    (k.gcl.active.enable = false → gateOpen k t i = true) ∧
    (k.gcl.active.phase * nsUnit ≤ t + secUnit →
      gateOpen k (t + cycleNs k.gcl.active * nsUnit) i = gateOpen k t i)) ∧
  (∀ b : GclBank, gclUsable b true = (gclUsable b false && !b.mode) ∧
    (gclUsable b false = true ↔ 1 ≤ b.len ∧ b.len ≤ 256 ∧ b.len ≤ b.entries.length ∧ (∀ e, e ∈ b.entries.take b.len → e.1 ≠ 0) ∧
      1000000000 % cycleNs b = 0 ∧ b.phase < 1000000000))

/-- R220, R221, R223 to R226, R228, R235, R236: when a load is armed, late or rejected; how 64 consecutive comparisons make an average, and how an average sets the slew, locks the datum after eight good ones or steps it; and what holdover, its limit, INVALIDATE and PPS_IN do. A change of the error's sign restarts the slew from its present rate (log 166), and the event R236 names shows as an output (log 167): the model's choices. -/
def Obligations.DatumDisciplined : Prop :=
  ∀ s : State,
    (∀ who, reachesAll who = true → ∃ t, exec (.todLoad who false) s = .next t ∧
      t = { s with time := { s.time with todKind := false, todStatus := t.time.todStatus }, hif := t.hif, evt := t.evt, sent := t.sent } ∧
      (s.upl.gate ≠ .ranged → t.time.todStatus = .rejected) ∧
      (s.upl.gate = .ranged → 1 ≤ (s.time.todN - word s.upl.superframe.toNat).toNat →
        (s.time.todN - word s.upl.superframe.toNat).toNat ≤ 80000 → t.time.todStatus = .armed) ∧
      (s.upl.gate = .ranged → (s.time.todN = word s.upl.superframe.toNat ∨
        80000 < (s.time.todN - word s.upl.superframe.toNat).toNat) → t.time.todStatus = .late)) ∧
    (∀ who, reachesAll who = true → ∃ t, exec (.todLoad who true) s = .next t ∧
      t = { s with time := { s.time with todKind := true, todStatus := t.time.todStatus } } ∧
      t.time.todStatus = if isP1 s || !s.time.ppsInEn then .rejected else .armed) ∧
    (∀ (hi : BitVec 19) (lo : Word) (k : BitVec 51) cw n base e, k = hi ++ lo → rxLive s = true → s.upl.sync ≠ .hunt → s.time.todStatus ≠ .armed → s.time.st ≠ .holdover →
      s.time.ref = some (n, base) → s.time.refKind = false →
      e = base + quarterNs s.time.todDelay + signed (k - n).toNat 51 * (125000 * nsUnit : Nat) - (s.datum : Int) →
      ∃ t, exec (.psbdReceived hi lo cw) s = .next t ∧ t.datum = s.datum ∧
        t.time = { s.time with src := t.time.src, errNext := k + 1, errSum := t.time.errSum, errCount := t.time.errCount, avgDue := t.time.avgDue } ∧
        (s.time.errNext ≠ k → t.time.errSum = e ∧ t.time.errCount = 1 ∧ t.time.avgDue = s.time.avgDue) ∧
        (s.time.errNext = k → s.time.errCount ≠ 63 →
          t.time.errSum = s.time.errSum + e ∧ t.time.errCount = s.time.errCount + 1 ∧ t.time.avgDue = s.time.avgDue) ∧
        (s.time.errNext = k → s.time.errCount = 63 →
          t.time.avgDue = some (s.time.errSum + e) ∧ t.time.errSum = 0 ∧ t.time.errCount = 0)) ∧
    (∃ t, exec .phaseAverage s = .next t ∧
      t = { s with datum := t.datum, time := t.time, hif := t.hif, rad := t.rad, evt := t.evt, sent := t.sent } ∧
      (s.time.avgDue = none ∨ s.time.ref = none → t = s) ∧
      (∀ a, s.time.avgDue = some a → s.time.ref.isSome = true →
        t.time.offset = offsetReg (a / 64) ∧ t.time.avgDue = none ∧
        (beyondLimit s (a / 64) = false →
          t.datum = s.datum ∧ t.time.slew = a / 64 ∧ t.time.far = false ∧
          t.time.slewKeep = decide ((a / 64 < 0 ∧ 0 < s.time.slewRate) ∨ (0 < a / 64 ∧ s.time.slewRate < 0)) ∧
          (a / 64 ≤ 10 * nsUnit → -(10 * nsUnit : Int) ≤ a / 64 → 7 ≤ s.time.goodAvgs →
            t.time.st = .locked ∧ t.time.holdErr = 0 ∧ t.time.holdOver = false) ∧
          ((10 * nsUnit : Int) < a / 64 → t.time.st = .slewing ∧ t.time.goodAvgs = 0)) ∧
        (beyondLimit s (a / 64) = true →
          (s.time.stepEn = false → t.datum = s.datum ∧ t.time.far = true ∧ t.time.slew = a / 64 ∧ t.time.st = .slewing) ∧
          (s.time.stepEn = true → t.datum = toDatum ((s.datum : Int) + a / 64) ∧ t.time.valid = false ∧ t.time.validNext = true ∧
            t.time.slew = 0 ∧ t.time.far = false ∧ t.time.stepped = BitVec.allOnes 24)))) ∧
    (∃ t, exec .holdoverEntry s = .next t ∧ t = { s with time := t.time, hif := t.hif, evt := t.evt, sent := t.sent } ∧
      (s.time.ref = none ∨ s.time.st = .unset → t = s) ∧
      (s.time.ref.isSome = true → s.time.st ≠ .unset → t.time = { s.time with st := .holdover, goodAvgs := 0, avgDue := none })) ∧
    (∀ err, ∃ t, exec (.holdErrExceeded err) s = .next t ∧ t = { s with time := t.time, hif := t.hif, evt := t.evt, sent := t.sent } ∧
      (s.time.st ≠ .holdover ∨ s.time.holdErr ≠ err ∨ s.time.holdErr.toNat ≤ s.time.holdMax.toNat ∨ s.time.holdOver = true → t = s) ∧
      (s.time.st = .holdover → s.time.holdErr = err → s.time.holdMax.toNat < s.time.holdErr.toNat → s.time.holdOver = false →
        t.time = { s.time with holdExceeded := true, holdOver := true })) ∧
    (∃ t, exec (.datumInvalidate .pf) s = .next t ∧ t.datum = s.datum ∧
      t = { s with time := t.time, hif := t.hif, evt := t.evt, sent := t.sent } ∧
      t.time = { s.time with st := .unset, valid := false, validNext := false, ref := none, ppsOut := false,
                             goodAvgs := 0, errSum := 0, errCount := 0, avgDue := none }) ∧
    (∀ cp, ∃ t, exec (.datumInvalidate (.fw cp)) s = .next t ∧ t.time = s.time ∧ t.datum = s.datum) ∧
    (∃ t, exec .ppsInEdge s = .next t ∧
      t = { s with datum := t.datum, time := t.time, hif := t.hif, rad := t.rad, evt := t.evt, sent := t.sent } ∧
      (s.time.ppsInEn = false ∨ s.pwr.state = .deep ∨ s.pwr.state = .off → t = s) ∧
      (s.time.ppsInEn = true → s.pwr.state ≠ .deep → s.pwr.state ≠ .off →
        Out.ppsIn ∈ t.sent ∧ t.time.ppsInUnread = true ∧ t.time.ppsInSec = word (instSec s.datum) ∧
        t.time.ppsInNs = word (instNsPart s.datum) ∧ t.time.ppsInOvr = (s.time.ppsInOvr || s.time.ppsInUnread) ∧
        (s.time.todStatus = .armed → s.time.todKind = true → t.time.todStatus = .applied ∧ t.time.refKind = true)))

/-- R173 to R176, R221, R227, R231, R235, R323: a datum second boundary ends each present channel's second, raises PPS_OUT while it is enabled and DATUM_VALID was 1, except in DEEP (R406), makes a set datum valid, counts a trial's confirmation timer down (R341) and advances the duty governor's windows (R282); at another instant it does nothing; PPS_OUT falls at its width; NEXT removes the oldest receive timestamp; the crystal's calibration and start are recorded. -/
def Obligations.SecondBoundaryAndTimestamps : Prop :=
  ∀ s : State,
    (∃ t, exec .datumSecondBoundary s = .next t ∧ t.datum = s.datum ∧ t.ledger = s.ledger ∧ t.upl = s.upl ∧
      (s.pwr.state = .off ∨ atEdge s secUnit 0 = false → t = s) ∧
      (s.pwr.state ≠ .off → atEdge s secUnit 0 = true →
        t.time = { s.time with ppsOut := s.time.ppsOut || (s.time.ppsOutEn && s.time.valid && decide (s.pwr.state ≠ .deep)),
                               valid := s.time.valid || s.time.validNext, validNext := false } ∧
        (s.fw.timerOn = true → t.fw.left.toNat = s.fw.left.toNat - 1) ∧ (s.fw.timerOn = false → t.fw = s.fw) ∧
        (s.rad.refill = true → t.rad = s.rad) ∧
        (s.rad.refill = false → s.rad.tx = none → t.rad = s.rad.advance)) ∧
      (s.pwr.state ≠ .off → atEdge s secUnit 0 = true → s.pwr.domHif = true → ∀ c, present s c = true → c < 24 →
        (chanAt t c).pm.cur = PmSec.zero ∧ (chanAt t c).tab = (chanAt s c).tab ∧ (chanAt t c).fr = (chanAt s c).fr ∧
        (9 ≤ (chanAt s c).pm.pend.length → (chanAt t c).pm.pend.length = (chanAt s c).pm.pend.length) ∧
        ((chanAt s c).pm.pend.length < 9 → (chanAt t c).pm.bins15 = (chanAt s c).pm.bins15))) ∧
    exec .ppsOutWidthExpiry s = .next { s with time := { s.time with ppsOut := false } } ∧
    (∀ who, reachesAll who = true → exec (.rxtsNext who .uplink) s =
      .next { s with time := { s.time with rxts := { s.time.rxts with fifo := s.time.rxts.fifo.tail } } }) ∧
    (∀ who (c : Ch), reachesChan who c.val = true → present s c.val = true →
      ∃ t, exec (.rxtsNext who (.ch c)) s = .next t ∧ t = { s with chans := t.chans } ∧ OnlyChan s t c.val ∧
        chanAt t c.val = { chanAt s c.val with rxts := { (chanAt s c.val).rxts with fifo := (chanAt s c.val).rxts.fifo.tail } }) ∧
    (∀ inc, s.time.st = .locked → s.pwr.xtal = true → exec (.crystalCalibration inc) s =
      .next { s with time := { s.time with calInc := inc, calDone := true } }) ∧
    (∀ inc, s.time.st ≠ .locked ∨ s.pwr.xtal = false → exec (.crystalCalibration inc) s = .next s) ∧
    exec .crystalRunning s = .next { s with pwr := { s.pwr with xtal := true } }

/-- R237, R240, R244, R248, Table 11.1, Table 11.4: a cipher operation is returned with the first failed check of the model's order (log 46): its LEN, its handle, the handle's owner, a missing core for GCM and CMAC, the windows and the read of its operation block, its lengths, an overlap; with every check passed it starts, its source read. A host operation that is not the first of ring 9 waits, and firmware's waits in its port of 16 behind one that runs (log 189). -/
def Obligations.CipherOperationsChecked : Prop :=
  ∀ (s : State) (q : SecSrc) (res : XferResult) (raw : List Byte) (b : OpBlock) (d : Desc) (c : Instr) (op : Nat) (kinds : List Nat),
    (c, op, kinds) ∈ [(Instr.gcmEncrypt q ⟨res, raw⟩, 0x10, [1, 2]), (.gcmDecrypt q ⟨res, raw⟩, 0x11, [1, 2]), (.cmac q ⟨res, raw⟩, 0x12, [7, 11]),
      (.ccmStar q ⟨res, raw⟩, 0x1E, [10])] → b = blockOf raw →
    (∀ seq, q = .host seq → secTurn s seq = false → exec c s = .next s) ∧
    (q = .fw d → d.opcode.toNat = op → s.pwr.domHif = true → fwRuns s = true →
      (s.sec.port.length < 15 → exec c s = .next { s with sec := { s.sec with port := s.sec.port ++ [{ d := d, res := res, raw := raw }] } }) ∧
      (15 ≤ s.sec.port.length → exec c s = .next s)) ∧
    (secTaken s q op = some d →
    ∃ t, exec c s = .next t ∧ OnlyRing s t 9 ∧
      t = { s with hif := t.hif, rings := t.rings, sec := t.sec, evt := t.evt, sent := t.sent } ∧
      (d.len ≠ 64 → SecReturned s t q .retLength) ∧
      (d.len = 64 → keyWrong s (handleIn d.p0) kinds = true → SecReturned s t q .retKey) ∧
      (d.len = 64 → keyWrong s (handleIn d.p0) kinds = false → notOwner s q (handleIn d.p0) = true → SecReturned s t q .retDenied) ∧
      (d.len = 64 → keyWrong s (handleIn d.p0) kinds = false → notOwner s q (handleIn d.p0) = false → op ≠ 0x1E → coresLeft s = 0 →
        SecReturned s t q .retPart) ∧
      (d.len = 64 → keyWrong s (handleIn d.p0) kinds = false → notOwner s q (handleIn d.p0) = false → (op = 0x1E ∨ 0 < coresLeft s) →
        (secOpen s q false d.addr.toNat 64 = false → SecReturned s t q .retWindow) ∧
        (secOpen s q false d.addr.toNat 64 = true → secOpen s q true d.addr.toNat 64 = true →
          (res ≠ .ok → SecReturned s t q .retDma) ∧
          (res = .ok → raw.length = 64 →
            ((65536 < b.srcLen.toNat ∨ b.srcLen.toNat < b.aadLen.toNat) → SecReturned s t q .retLength) ∧
            (b.srcLen.toNat ≤ 65536 → b.aadLen.toNat ≤ b.srcLen.toNat → op ≠ 0x12 →
              (overlap b.dst.toNat (outLen b) b.src.toNat b.srcLen.toNat = true ∨ overlap b.dst.toNat (outLen b) d.addr.toNat 64 = true) →
              SecReturned s t q .retParam) ∧
            (b.srcLen.toNat ≤ 65536 → b.aadLen.toNat ≤ b.srcLen.toNat →
              overlap b.dst.toNat (outLen b) b.src.toNat b.srcLen.toNat = false → overlap b.dst.toNat (outLen b) d.addr.toNat 64 = false →
              (secOpen s q false b.src.toNat b.srcLen.toNat = false → SecReturned s t q .retWindow) ∧
              (secOpen s q false b.src.toNat b.srcLen.toNat = true → secOpen s q true b.dst.toNat (outLen b) = true →
                SecStarted s t q d (some b)))))))

/-- R241, R246, R257: KEY_LOAD is the host's alone and barred by PLAIN_LOAD_DIS, KEY_IMPORT needs a live WRAP key of its requester; each is returned for a KIND or a length that makes no key, for an operation block that cannot be read, or with no free slot in its requester's range, and otherwise starts, in the model's order of checks (log 46). KEY_GEN and KEY_DERIVE fill the lowest free slot of that range, owned by the requester, with RESULT0 its handle. -/
def Obligations.KeysEnterTheStore : Prop :=
  ∀ (s : State) (q : SecSrc) (res : XferResult) (raw : List Byte) (b : OpBlock) (d : Desc), b = blockOf raw →
    (secTaken s q 0x17 = some d → ∃ t, exec (.keyLoad q ⟨res, raw⟩) s = .next t ∧ OnlyRing s t 9 ∧
      (d.len ≠ 64 → SecReturned s t q .retLength) ∧
      (d.len = 64 → (secOwner q = .fw ∨ s.sec.plainDis = true) → SecReturned s t q .retDenied) ∧
      (d.len = 64 → secOwner q = .pf → s.sec.plainDis = false →
        (kindMade (kindOf d) = false → SecReturned s t q .retParam) ∧
        (kindMade (kindOf d) = true → inWindows s 0 false d.addr.toNat 64 = true →
          (res ≠ .ok → SecReturned s t q .retDma) ∧
          (res = .ok → raw.length = 64 →
            (kindBytes (kindOf d) b.srcLen.toNat = false → SecReturned s t q .retLength) ∧
            (kindBytes (kindOf d) b.srcLen.toNat = true → freeKeySlot s q = none → SecReturned s t q .retBusy) ∧
            (kindBytes (kindOf d) b.srcLen.toNat = true → freeKeySlot s q ≠ none →
              inWindows s 0 false b.src.toNat b.srcLen.toNat = true → SecStarted s t q d (some b)))))) ∧
    (secTaken s q 0x18 = some d → d.len = 64 → kindMade (kindOf d) = true → ∃ t, exec (.keyImport q ⟨res, raw⟩) s = .next t ∧ OnlyRing s t 9 ∧
      (keyWrong s (handleIn d.p1) [9] = true → SecReturned s t q .retKey) ∧
      (keyWrong s (handleIn d.p1) [9] = false → notOwner s q (handleIn d.p1) = true → SecReturned s t q .retDenied) ∧
      (keyWrong s (handleIn d.p1) [9] = false → notOwner s q (handleIn d.p1) = false → secOpen s q false d.addr.toNat 64 = true →
        res = .ok → raw.length = 64 →
        ((b.srcLen.toNat < 8 ∨ kindBytes (kindOf d) (b.srcLen.toNat - 8) = false) → SecReturned s t q .retLength) ∧
        (8 ≤ b.srcLen.toNat → kindBytes (kindOf d) (b.srcLen.toNat - 8) = true →
          (freeKeySlot s q = none → SecReturned s t q .retBusy) ∧
          (freeKeySlot s q ≠ none → secOpen s q false b.src.toNat b.srcLen.toNat = true → SecStarted s t q d (some b))))) ∧
    (secTaken s q 0x16 = some d → ∃ t, exec (.keyGen q) s = .next t ∧ OnlyRing s t 9 ∧
      (kindMade (kindOf d) = false → SecReturned s t q .retParam) ∧
      (kindMade (kindOf d) = true → s.sec.trngFail = true → SecReturned s t q .retPart) ∧
      (kindMade (kindOf d) = true → s.sec.trngFail = false → freeKeySlot s q = none → SecReturned s t q .retBusy) ∧
      (∀ i, kindMade (kindOf d) = true → s.sec.trngFail = false → freeKeySlot s q = some i →
        SecExecuted s t q .ok (word (handleOf s i).toNat) 0 ∧ (slotAt t i).valid = true ∧ (slotAt t i).kind.toNat = kindOf d ∧
        (slotAt t i).owner = secOwner q ∧ (slotAt t i).gen = (slotAt s i).gen ∧ (slotAt t i).pn = 1 ∧
        t.sec.drbgCount = (if s.sec.drbgCount + 1 = 65536 then 0 else s.sec.drbgCount + 1) ∧
        ∀ j, j ≠ i → slotAt t j = slotAt s j)) ∧
    (secTaken s q 0x1A = some d → ∃ t, exec (.keyDerive q) s = .next t ∧ OnlyRing s t 9 ∧
      (selectorOf d = 8 → SecReturned s t q .retDenied) ∧
      (3 < selectorOf d → selectorOf d ≠ 8 → SecReturned s t q .retParam) ∧
      (selectorOf d ≤ 2 → keyWrong s (handleIn d.p1) [6] = true → SecReturned s t q .retKey) ∧
      (∀ i, (selectorOf d = 3 ∨ (selectorOf d ≤ 2 ∧ keyWrong s (handleIn d.p1) [6] = false ∧ notOwner s q (handleIn d.p1) = false)) →
        freeKeySlot s q = some i →
        SecExecuted s t q .ok (word (handleOf s i).toNat) 0 ∧ (slotAt t i).valid = true ∧ (slotAt t i).key = derived s d ∧
        (slotAt t i).kind = (if selectorOf d = 2 then 8 else 7) ∧ ∀ j, j ≠ i → slotAt t j = slotAt s j))

/-- R239, R241, R242, R246, R261: KEY_EXPORT writes only an EXPORTABLE key, under a key METHOD allows; KEY_CLEAR waits for its requester's earlier operations, then empties the slot and raises its GEN; KEY_INFO and RANDOM answer without changing a key. -/
def Obligations.KeysExportedAndCleared : Prop :=
  ∀ (s : State) (q : SecSrc) (res : XferResult) (raw : List Byte) (b : OpBlock) (d : Desc), b = blockOf raw →
    (secTaken s q 0x19 = some d → ∃ t, exec (.keyExport q ⟨res, raw⟩) s = .next t ∧ OnlyRing s t 9 ∧ t.sec = s.sec ∧
      (d.len ≠ 64 → SecReturned s t q .retLength) ∧
      ((slotAt s (handleSlot (handleIn d.p0))).exportable = false → ∀ r, q = .host r → t.journal = s.journal ∧ t.sent = s.sent) ∧
      (d.len = 64 → keyWrong s (handleIn d.p0) [1, 2, 3, 4, 5, 6, 7, 8, 9, 10, 11] = false → keyWrong s (handleIn d.p1) [8, 9] = false →
        (notOwner s q (handleIn d.p0) = true ∨ notOwner s q (handleIn d.p1) = true → SecReturned s t q .retDenied) ∧
        (notOwner s q (handleIn d.p0) = false → notOwner s q (handleIn d.p1) = false →
          (exportOk s d = false → SecReturned s t q .retKey) ∧
          (exportOk s d = true → secOpen s q false d.addr.toNat 64 = true → res = .ok → raw.length = 64 →
            overlap b.dst.toNat (exportLen s d) d.addr.toNat 64 = false → secOpen s q true b.dst.toNat (exportLen s d) = true →
            SecExecuted s t q .ok (word (exportLen s d)) 0 ∧
            (exported s d ≠ [] → ∀ r, q = .host r → ∀ o, o ∈ writeRequests s 0 b.dst.toNat (exported s d) → o ∈ t.sent))))) ∧
    (secTaken s q 0x1B = some d → ∃ t, exec (.keyClear q) s = .next t ∧ OnlyRing s t 9 ∧
      (secBusy s q = true → t = s) ∧
      (secBusy s q = false → keyWrong s (handleIn d.p0) [1, 2, 3, 4, 5, 6, 7, 8, 9, 10, 11, 12] = true → SecReturned s t q .retKey) ∧
      (secBusy s q = false → keyWrong s (handleIn d.p0) [1, 2, 3, 4, 5, 6, 7, 8, 9, 10, 11, 12] = false → notOwner s q (handleIn d.p0) = true →
        SecReturned s t q .retDenied) ∧
      (secBusy s q = false → keyWrong s (handleIn d.p0) [1, 2, 3, 4, 5, 6, 7, 8, 9, 10, 11, 12] = false → notOwner s q (handleIn d.p0) = false →
        SecExecuted s t q .ok 0 0 ∧ slotAt t (handleSlot (handleIn d.p0)) =
          { Slot.empty with gen := (slotAt s (handleSlot (handleIn d.p0))).gen + 1 } ∧
        handleLive t (handleIn d.p0) = false ∧
        ∀ j, j ≠ handleSlot (handleIn d.p0) → slotAt t j = slotAt s j)) ∧
    (secTaken s q 0x1C = some d → ∃ t, exec (.keyInfo q) s = .next t ∧ OnlyRing s t 9 ∧ t.sec = s.sec ∧
      (handleLive s (handleIn d.p0) = false → SecReturned s t q .retKey) ∧
      (handleLive s (handleIn d.p0) = true → notOwner s q (handleIn d.p0) = false →
        SecExecuted s t q .ok (slotImage (slotAt s (handleSlot (handleIn d.p0)))) 0)) ∧
    (secTaken s q 0x1D = some d → ∃ t, exec (.random q) s = .next t ∧ OnlyRing s t 9 ∧ t.sec.slots = s.sec.slots ∧
      (s.sec.trngFail = true → SecReturned s t q .retPart) ∧
      (s.sec.trngFail = false → (d.len = 0 ∨ inWindows s 0 true d.addr.toNat d.len.toNat = true) →
        SecExecuted s t q .ok 0 0 ∧ t.sec.drbgCount = (if s.sec.drbgCount + 1 = 65536 then 0 else s.sec.drbgCount + 1)))

/-- R262 to R264: a check-value context belongs to its requester; CV_UPDATE starts its read behind the requester's earlier operations, CV_SAVE answers the running value and the state word, and CV_RESTORE of a spelled context that CV_SAVE could have answered makes exactly it. R62, R242, R245, R263: an operation whose read fails is returned RET_DMA; a whole one acts, a decryption whose tag differs writing zeros over every output byte and ending VERIFY_FAILED, a loaded key entering the lowest free slot, one that does not unwrap entering none (VERIFY_FAILED), and CV_UPDATE moving its context in the one step of its outcome; then the firmware port goes on with its next operation (R248). -/
def Obligations.SecOperationsAndCheckValues : Prop :=
  (∀ (s : State) (q : SecSrc) (d : Desc),
    (∀ (c : Instr) (op : Nat), (c, op) ∈ [(Instr.cvUpdate q, 0x13), (.cvSave q, 0x14), (.cvRestore q, 0x15)] → secTaken s q op = some d →
      secBusy s q = false → cvMine q (cvIdx d) = false → ∃ t, exec c s = .next t ∧ OnlyRing s t 9 ∧ SecReturned s t q .retDenied) ∧
    (secTaken s q 0x13 = some d → cvMine q (cvIdx d) = true → d.len.toNat ≤ 65536 →
      (d.len = 0 ∨ inWindows s 0 false d.addr.toNat d.len.toNat = true) →
      ∃ t, exec (.cvUpdate q) s = .next t ∧ OnlyRing s t 9 ∧ (secBusy s q = true → t = s) ∧
        (secBusy s q = false → SecStarted s t q d none)) ∧
    (secTaken s q 0x14 = some d → cvMine q (cvIdx d) = true → secBusy s q = false →
      ∃ t, exec (.cvSave q) s = .next t ∧ OnlyRing s t 9 ∧ t.sec = s.sec ∧
        SecExecuted s t q .ok (ctxAt s (cvIdx d)).run (cvState (ctxAt s (cvIdx d)))) ∧
    (secTaken s q 0x15 = some d → cvMine q (cvIdx d) = true → secBusy s q = false →
      ∃ t, exec (.cvRestore q) s = .next t ∧ OnlyRing s t 9 ∧
        (∀ k : CvCtx, d.p1 = k.run → bits d.p0 15 4 = bits (cvState k) 15 4 → bits d.p0 7 7 = 0 → cvBad k = false →
          SecExecuted s t q .ok 0 0 ∧ ctxAt t (cvIdx d) = k ∧ ∀ j, j ≠ cvIdx d → ctxAt t j = ctxAt s j) ∧
        (cvBad (cvSpelled d) = true → SecReturned s t q .retParam))) ∧
  (∀ (s : State) (q : SecSrc) (o : SecOp) (res : XferResult) (data : List Byte),
    s.sec.ops.find? (fun x => decide (x.src = q)) = some o → secMayEnd s q = true →
    ∃ t u, exec (.secOperationComplete q res data) s = .next t ∧ t = portTurn 16 u ∧ (s.sec.port = [] → t = u) ∧
      OnlyRing s u 9 ∧ u.datum = s.datum ∧ u.ledger = s.ledger ∧ u.sec.port = s.sec.port ∧
      (res = .ok → data.length ≠ secSrcLen o → u = s) ∧
      (res ≠ .ok → u.journal = s.journal ∧ u.sec.slots = s.sec.slots ∧ u.sec.ctxs = s.sec.ctxs ∧
        (∀ r, q = .host r → returnedWith u 9 r = some (Outcome.of .retDma 0 0)) ∧
        (∀ f, q = .fw f → Out.fwOutcome Status.retDma.code 0 0 ∈ u.sent)) ∧
      (∀ b ct tag, res = .ok → o.blk = some b → o.d.opcode = 0x10 → data.length = b.srcLen.toNat →
        gcmSealed (slotAt s (handleSlot (handleIn o.d.p0))).key (b.iv.take 12) (data.take b.aadLen.toNat) (data.drop b.aadLen.toNat) = (ct, tag) →
        SecExecuted s u q .ok 0 0 ∧ u.sec.slots = s.sec.slots ∧ ct.length = outLen b ∧ tag.length = 16 ∧
        ∀ r, q = .host r → (ct ≠ [] → ∀ x, x ∈ writeRequests s 0 b.dst.toNat ct → x ∈ u.sent) ∧
          ∀ x, x ∈ writeRequests s 0 (o.d.addr.toNat + 40) tag → x ∈ u.sent) ∧
      (∀ b pt tag, res = .ok → o.blk = some b → o.d.opcode = 0x11 → data.length = b.srcLen.toNat →
        gcmOpened (slotAt s (handleSlot (handleIn o.d.p0))).key (b.iv.take 12) (data.take b.aadLen.toNat) (data.drop b.aadLen.toNat) = (pt, tag) →
        (tag = b.tag → SecExecuted s u q .ok 0 0) ∧
        (tag ≠ b.tag → SecExecuted s u q .verifyFailed 0 0 ∧
          ∀ r, q = .host r → pt ≠ [] → ∃ rest, u.sent = writeRequests s 0 b.dst.toNat (zeros pt.length) ++ rest)) ∧
      (∀ b, res = .ok → o.blk = some b → o.d.opcode = 0x12 → data.length = b.srcLen.toNat → cmacVerify o.d = true →
        SecExecuted s u q (if fit 16 (Config.cmac (slotAt s (handleSlot (handleIn o.d.p0))).key data) = b.tag then .ok else .verifyFailed) 0 0) ∧
      (∀ b pt tag, res = .ok → o.blk = some b → o.d.opcode = 0x1E → data.length = b.srcLen.toNat → ccmEnc o.d = false →
        ccmOpened (slotAt s (handleSlot (handleIn o.d.p0))).key (b.iv.take 13) (data.take b.aadLen.toNat) (data.drop b.aadLen.toNat)
          (ccmMic o.d) (decide (data.drop b.aadLen.toNat ≠ [])) = (pt, tag) →
        SecExecuted s u q (if tag = b.tag.take (ccmMic o.d) then .ok else .verifyFailed) 0 0) ∧
      (∀ b i, res = .ok → o.blk = some b → o.d.opcode = 0x17 → data.length = b.srcLen.toNat → freeKeySlot s q = some i →
        SecExecuted s u q .ok (word (handleOf s i).toNat) 0 ∧ (slotAt u i).valid = true ∧ (slotAt u i).key = data ∧
        (slotAt u i).owner = secOwner q ∧ ∀ j, j ≠ i → slotAt u j = slotAt s j) ∧
      (∀ b, res = .ok → o.blk = some b → o.d.opcode = 0x18 → data.length = b.srcLen.toNat →
        Config.keyUnwrap (slotAt s (handleSlot (handleIn o.d.p1))).key data = none →
        SecExecuted s u q .verifyFailed 0 0 ∧ u.sec.slots = s.sec.slots) ∧
      (res = .ok → o.blk = none → data.length = o.d.len.toNat →
        SecExecuted s u q .ok (cvUpdate o.d.p0 (ctxAt s (cvIdx o.d)) data).1 0 ∧ u.sec.slots = s.sec.slots ∧
        ctxAt u (cvIdx o.d) = (cvUpdate o.d.p0 (ctxAt s (cvIdx o.d)) data).2))

/-- R249, R250, R260, R261: a GCM core that fails, in a test or in service, is retired once, under a recovery of cause 0x10, and with no core left the GCM and CMAC operations that run are returned RET_PART; a TRNG failure stops the DRBG and marks the masks stale until a retest passes and reseeds both generators. -/
def Obligations.CoresAndRandomness : Prop :=
  ∀ s : State,
    (∀ (core : Fin 4) (chs : List Ch) (ops : List SecSrc), ∃ t, exec (.gcmCoreFail core ⟨chs, ops⟩) s = .next t ∧ SameCounters s t ∧
      t.ledger = s.ledger ∧ t.journal = s.journal ∧ (s.sec.port = [] → t.sec.slots = s.sec.slots) ∧
      (s.sec.retired.getLsbD core.val = true → t = s) ∧
      (s.sec.retired.getLsbD core.val = false → t.sec.retired = s.sec.retired ||| BitVec.ofNat 4 (2 ^ core.val) ∧
        (∀ o seq w, o ∈ s.sec.ops → onCore o = true → o.src = .host seq → workOpen s 9 seq = some w → coresLeft t = 0 →
          returnedWith t 9 seq = some (Outcome.of .retPart 0 0)) ∧
        ∃ v, v ∈ t.recov ∧ v.cause = 0x10 ∧ ∀ r : RingNo, r.val = 9 → r ∈ v.scope)) ∧
    (∀ core : Fin 4, exec (.gcmKnownAnswerTest core true) s = .next s ∧
      ∃ t, exec (.gcmKnownAnswerTest core false) s = .next t ∧ SameCounters s t ∧ t.sec.retired.getLsbD core.val = true) ∧
    (∃ t, exec .trngHealthFail s = .next t ∧
      t = { s with sec := { s.sec with trngFail := true, maskStale := true }, hif := t.hif, evt := t.evt, sent := t.sent }) ∧
    (∃ t, exec (.trngRetest true) s = .next t ∧ (s.sec.trngFail = false → t = s) ∧
      (s.sec.trngFail = true → t = { s with free := t.free, sec := { s.sec with
        trngFail := false, maskStale := false, drbgCount := 0, drbgSeed := t.sec.drbgSeed, maskSeed := t.sec.maskSeed } })) ∧
    (s.sec.trngFail = true → exec (.trngRetest false) s = .next s ∧ exec .drbgReseed s = .next s ∧ exec .maskReseed s = .next s) ∧
    (s.sec.trngFail = false → (∃ t, exec (.trngRetest false) s = .next t ∧ t.sec.trngFail = true ∧ t.sec.slots = s.sec.slots) ∧
      (∃ t, exec .drbgReseed s = .next t ∧ t = { s with free := t.free, sec := { s.sec with drbgCount := 0, drbgSeed := t.sec.drbgSeed } }) ∧
      ∃ t, exec .maskReseed s = .next t ∧ t = { s with free := t.free, sec := { s.sec with maskSeed := t.sec.maskSeed } })

/-- R269, R271, R275, R280, Table 12.3: the RAD_FRAME at the head of RAD_TX is returned with the first failed check, read and put to channel access; with neither CSMA nor LBT asked for, and budget in every charged band, its first attempt starts at once: the outcome enters the journal, every band that takes its channel is charged, and the frame is sent. R269, R270, R273 to R275: how backoffs of drawn lengths, listens of drawn lengths, the end of a transmission, a matching acknowledgement and its absence move the frame under execution, up to its outcome. -/
def Obligations.RadioFramesSent : Prop :=
  (∀ (s : State) (seq : Word) (res : XferResult) (frame : List Byte) (w : Work),
    radTx s = none → workAt s 7 seq 0x0003 .accepted = some w → radTurn s seq = true →
    ∃ t, exec (.radFrame seq res frame) s = .next t ∧ OnlyRing s t 7 ∧
      t = { s with hif := t.hif, rings := t.rings, journal := t.journal, rad := t.rad, sec := { s.sec with drbgCount := t.sec.drbgCount, drbgSeed := t.sec.drbgSeed }, evt := t.evt, sent := t.sent, free := t.free } ∧
      (radPath s = false → returnedWith t 7 seq = some (Outcome.of .retNoPath 0 0) ∧ t = { s with rings := t.rings }) ∧
      (radPath s = true → (w.d.len.toNat < 3 ∨ 2047 < w.d.len.toNat ∨ 2047 < psduLen w.d) → returnedWith t 7 seq = some (Outcome.of .retLength 0 0)) ∧
      (radStatus s w.d = none → mayMaster s 0 = true →
        (inWindows s 0 false w.d.addr.toNat w.d.len.toNat = false →
          returnedWith t 7 seq = some (Outcome.of .retWindow 0 0) ∧ (ringAt t 7).winErr = true) ∧
        (inWindows s 0 false w.d.addr.toNat w.d.len.toNat = true →
          (res ≠ .ok → returnedWith t 7 seq = some (Outcome.of .retDma 0 0) ∧ (ringAt t 7).dmaErr = true ∧ t.rad = s.rad) ∧
          (res = .ok → frame.length = w.d.len.toNat → bitOf w.d.p0 21 = true → ∃ k, k < 2 ^ minBe s ∧
            t.rad = { s.rad with tx := some { seq := seq, frame := securedFrame s w.d frame, phase := .csma 0 (minBe s) k,
                                              attempts := 0, units := 0, clamped := false } }) ∧
          (res = .ok → frame.length = w.d.len.toNat → bitOf w.d.p0 21 = false → bitOf w.d.p0 22 = true → ∃ k, k < 32 ∧
            t.rad = { s.rad with tx := some { seq := seq, frame := securedFrame s w.d frame, phase := .lbt 0 k,
                                              attempts := 0, units := 0, clamped := false } }) ∧
          (res = .ok → frame.length = w.d.len.toNat → bitOf w.d.p0 21 = false → bitOf w.d.p0 22 = false → s.rad.paEn = false →
            s.rad.acks = [] → journalRoom s = true →
            neverFits s (txChan w.d) (txCharge s w.d (securedFrame s w.d frame)) = false →
            lacking s (txChan w.d) (txCharge s w.d (securedFrame s w.d frame)) = none →
            t.rad.paEn = true ∧ t.journal.length = s.journal.length + 1 ∧ (journalOf t 7 seq).isSome = true ∧
            Out.radio (phrOf (bitOf w.d.p0 23) (bitOf w.d.p0 24) (psduLen w.d)) (psduOf (bitOf w.d.p0 23) (securedFrame s w.d frame)) (txChan w.d).toNat (usedPower s (txChan w.d) (reqPower w.d)) ∈ t.sent ∧
            ∀ b, b < 8 → govUsed (govAt t b) = govUsed (govAt s b) +
              if bandTakes (govAt s b) (txChan w.d) then txCharge s w.d (securedFrame s w.d frame) else 0)))) ∧
  (∀ (s : State) (x : RadTx) (w : Work), radTx s = some (x, w) →
    (∀ nb be k, x.phase = .csma nb be k → ∃ t, exec (.csmaBackoffExpiry true) s = .next t ∧ OnlyRing s t 7 ∧ t.datum = s.datum ∧
      (nb + 1 ≤ maxBackoffs s → t = { s with free := t.free, sec := t.sec, rad := t.rad } ∧ t.sec.slots = s.sec.slots ∧
        ∃ n, n < 2 ^ min (be + 1) (maxBe s) ∧
          t.rad = { s.rad with tx := some { x with phase := .csma (nb + 1) (min (be + 1) (maxBe s)) n } }) ∧
      (maxBackoffs s < nb + 1 → t.rad.tx = none ∧ vget t.rad.cnt 3 0 = vget s.rad.cnt 3 0 + 1 ∧
        (x.attempts = 0 → returnedWith t 7 x.seq = some (Outcome.of .retBusy 1 0)))) ∧
    (∀ nb be k, x.phase = .csma nb be k → bitOf w.d.p0 22 = true → ∃ t n, exec (.csmaBackoffExpiry false) s = .next t ∧ n < 32 ∧
      t = { s with free := t.free, sec := t.sec, rad := { s.rad with tx := some { x with phase := .lbt 0 n } } }) ∧
    (∀ l k, x.phase = .lbt l k → ∃ t, exec (.lbtListenEnd false) s = .next t ∧ OnlyRing s t 7 ∧ t.datum = s.datum ∧
      (l + 1 < lbtMax s → ∃ n, n < 32 ∧
        t = { s with free := t.free, sec := t.sec, rad := { s.rad with tx := some { x with phase := .lbt (l + 1) n } } }) ∧
      (lbtMax s ≤ l + 1 → t.rad.tx = none ∧ vget t.rad.cnt 3 0 = vget s.rad.cnt 3 0 + 1)) ∧
    (∀ l k, x.phase = .lbt l k → radPath s = true → s.rad.paEn = false → s.rad.acks = [] → (ringAt s 7).state ≠ .recovering →
      (x.attempts ≠ 0 ∨ journalRoom s = true) → neverFits s (txChan w.d) (txCharge s w.d x.frame) = false →
      ∃ t, exec (.lbtListenEnd true) s = .next t ∧ OnlyRing s t 7 ∧
        (lacking s (txChan w.d) (txCharge s w.d x.frame) = none → t.rad.paEn = true ∧ vget t.rad.cnt 1 0 = vget s.rad.cnt 1 0 + 1 ∧
          ∃ y, t.rad.tx = some y ∧ y.phase = .sending ∧ y.attempts = x.attempts + 1 ∧ y.frame = x.frame) ∧
        (∀ b, lacking s (txChan w.d) (txCharge s w.d x.frame) = some b → x.attempts = 0 → s.rad.budgetWait = true →
          t.rad = { s.rad with tx := some { x with phase := .waitBudget } })) ∧
    (s.rad.paEn = true → x.phase = .sending → ∃ t, exec .radioTxEnd s = .next t ∧ OnlyRing s t 7 ∧ t.rad.paEn = false ∧
      (s.rad.en = true → frameAr x.frame = true → t.rad = { s.rad with paEn := false, tx := some { x with phase := .waitAck } }) ∧
      (s.rad.en = true → frameAr x.frame = false → t.rad.tx = none) ∧
      (s.rad.en = false → s.pwr.domRad = true → s.pwr.woken.contains .rad = false → t.pwr.domRad = false)) ∧
    (∀ q p, fcsStripped q p = none → exec (.radioAckReceived p q) s = .next s) ∧
    (∀ q a, ∃ t, exec (.radioAckReceived (psduOf q a) q) s = .next t ∧ OnlyRing s t 7 ∧
      (x.phase ≠ .waitAck ∨ frameType a ≠ 2 ∨ frameSeq a ≠ frameSeq x.frame → t = s) ∧
      (x.phase = .waitAck → frameType a = 2 → frameSeq a = frameSeq x.frame → t.rad = { s.rad with tx := none } ∧ t.evt = s.evt ∧
        ∀ e, journalOf s 7 x.seq = some e → (journalOf t 7 x.seq).map (·.out) = some (radOutcome x true false false))) ∧
    (x.phase = .waitAck → ∃ t, exec .radioAckTimeout s = .next t ∧ OnlyRing s t 7 ∧
      (x.attempts ≤ bits w.d.p0 27 25 → bitOf w.d.p0 21 = true → ∃ n, n < 2 ^ minBe s ∧
        t = { s with free := t.free, sec := t.sec, rad := { s.rad with tx := some { x with phase := .csma 0 (minBe s) n } } }) ∧
      (bits w.d.p0 27 25 < x.attempts → t.rad.tx = none ∧ vget t.rad.cnt 2 0 = vget s.rad.cnt 2 0 + 1)))

/-- R271, R276 to R278, R281: a frame the radio hears is counted by its FCS, its address, its security and its place in the store, and stored, a secured one decrypted and its entry's FC_MIN raised past its counter; an acknowledgement that is due is sent or suppressed by the governor; the oldest stored frame goes to the oldest RAD_RX buffer once its acknowledgement is settled. R278, R375, Table 12.5: the PF reads, writes and clears entries 0 to 30 of the device table through RAD_DEV_DATA; IDX 31 is ignored, and a firmware write is denied and raises FW_WRITE_DENIED with its offset. -/
def Obligations.RadioReceptionAndDevices : Prop :=
  (∀ s : State,
    (∀ f : RadRx, ∃ t, exec (.radioFrameReceived f) s = .next t ∧ t.rings = s.rings ∧ t.journal = s.journal ∧ t.rad.tx = s.rad.tx ∧
      ((s.rad.en = false ∨ s.rad.paEn = true ∨ s.pwr.domRad = false) → t = s) ∧
      (s.rad.en = true → s.rad.paEn = false → s.pwr.domRad = true →
        (fcsStripped f.fcs4 f.psdu = none → t = { s with rad := { s.rad with cnt := vset s.rad.cnt 5 (vget s.rad.cnt 5 0 + 1) } }) ∧
        (∀ b, fcsStripped f.fcs4 f.psdu = some b →
          ((macHdr b = none ∨ hostKind b = false ∨ ∃ h, macHdr b = some h ∧ addressed s h = false) →
            t = { s with rad := { s.rad with cnt := vset s.rad.cnt 6 (vget s.rad.cnt 6 0 + 1) } }) ∧
          (∀ h, macHdr b = some h → hostKind b = true → addressed s h = true →
            (h.secured = false →
              (f.roomAtSfd = false ∨ 2 ≤ s.rad.store.length → t.rad.store = s.rad.store ∧ vget t.rad.cnt 9 0 = vget s.rad.cnt 9 0 + 1) ∧
              (f.roomAtSfd = true → s.rad.store.length < 2 → vget t.rad.cnt 4 0 = vget s.rad.cnt 4 0 + 1 ∧
                t.rad.store.map (·.body) = s.rad.store.map (·.body) ++ [b] ∧
                t.rad.acks.length = s.rad.acks.length + if ackWanted s b then 1 else 0)) ∧
            (h.secured = true → (devOf s h.src = none ∨ ∃ i, devOf s h.src = some i ∧
                (radKey s (devHandle (devAt s i)) = false ∨ openFrame s i h b = none)) →
              t.rad.store = s.rad.store ∧ t.rad.acks = s.rad.acks ∧ t.rad.dev = s.rad.dev ∧ vget t.rad.cnt 7 0 = vget s.rad.cnt 7 0 + 1) ∧
            (∀ i x c, h.secured = true → devOf s h.src = some i → radKey s (devHandle (devAt s i)) = true → openFrame s i h b = some x →
              h.counter = some c →
              (c.toNat < (vget (devAt s i) 3 0).toNat →
                t = { s with rad := { s.rad with cnt := vset s.rad.cnt 8 (vget s.rad.cnt 8 0 + 1) } }) ∧
              ((vget (devAt s i) 3 0).toNat ≤ c.toNat →
                (c.toNat < 2 ^ 32 - 1 → vget (devAt t i) 3 0 = c + 1) ∧
                (f.roomAtSfd = true → s.rad.store.length < 2 → t.rad.store.map (·.body) = s.rad.store.map (·.body) ++ [x]))))))) ∧
    (s.rad.paEn = true → exec .radioAckTransmit s = .next s) ∧
    (∀ a rest, s.rad.paEn = false → s.rad.acks = a :: rest → ∃ t, exec .radioAckTransmit s = .next t ∧ OnlyRing s t 7 ∧ t.rad.acks = rest ∧
      (radPath s = true → s.rad.ackEn = true → ackFits s a.chan (airtime s a.chan (a.frame.length + fcsBytes a.fcs4)) = true →
        t.rad.paEn = true ∧ t.rings = s.rings ∧ vget t.rad.cnt 10 0 = vget s.rad.cnt 10 0 + 1 ∧
        ∃ v, t.sent = .radio (phrOf a.fcs4 v (a.frame.length + fcsBytes a.fcs4)) (psduOf a.fcs4 a.frame) a.chan.toNat
          (usedPower s a.chan (signed s.rad.ackDbm.toNat 6)) :: s.sent) ∧
      (radPath s = true → s.rad.ackEn = true → ackFits s a.chan (airtime s a.chan (a.frame.length + fcsBytes a.fcs4)) = false →
        vget t.rad.cnt 11 0 = vget s.rad.cnt 11 0 + 1)) ∧
    (∀ f l w, s.rad.store = f :: l → postedBuffer s 8 = some w → findWork (ringAt s 8) w.seq = some w → journalOf s 8 w.seq = none →
      (ringAt s 8).state ≠ .recovering → mayMaster s 0 = true → frozen s = false → (∀ a, a ∈ s.rad.acks → a.idx ≠ 0) →
      ∃ t, exec .radioRxDeliver s = .next t ∧ OnlyRing s t 8 ∧ t.journal = s.journal ∧
        (inWindows s 0 true w.d.addr.toNat f.body.length = true → t.rad.store = l ∧
          t.sent = writeRequests s 0 w.d.addr.toNat f.body ++ s.sent ∧ ∃ o, returnedWith t 8 w.seq = some o ∧ o.status = .ok ∧
          o.len = word f.body.length ∧ o.res0 = f.res0 ∧ o.res1 = f.res1) ∧
        (inWindows s 0 true w.d.addr.toNat f.body.length = false → t.rad = s.rad ∧
          returnedWith t 8 w.seq = some (Outcome.of .retWindow 0 0)))) ∧
  (∀ (s : State) (i : BitVec 5),
    (i ≠ 31 →
      (∃ t, exec (.radDevRead .pf i) s = .next t ∧
        t = { s with rad := { s.rad with devIdx := i, devData := devAt s i.toNat } }) ∧
      (∃ t, exec (.radDevWrite .pf i) s = .next t ∧ t = { s with rad := { s.rad with devIdx := i, dev := t.rad.dev } } ∧
        devAt t i.toNat = s.rad.devData ∧ ∀ j, j ≠ i.toNat → devAt t j = devAt s j) ∧
      (∃ t, exec (.radDevClear .pf i) s = .next t ∧ t = { s with rad := { s.rad with devIdx := i, dev := t.rad.dev } } ∧
        devAt t i.toNat = Vector.replicate 4 0 ∧ ∀ j, j ≠ i.toNat → devAt t j = devAt s j)) ∧
    (∀ c, c ∈ [Instr.radDevRead .pf 31, .radDevWrite .pf 31, .radDevClear .pf 31] → exec c s = .next s) ∧
    (∀ cp c, c ∈ [Instr.radDevRead (.fw cp) i, .radDevWrite (.fw cp) i, .radDevClear (.fw cp) i] →
      exec c s = .next (raise s Src.fwWriteDenied 0xFF 0x90300)))

/-- R297, R299 to R301: a trip switches its output off, into BACKOFF with its cause and one more try or, after three, into LOCKED_OFF; the backoff's end waits for budget, 60 s without a trip clears TRIES, an output still PAUSED is aborted, and UNLOCK by the PF alone leaves LOCKED_OFF. R297, R361: HOLD_OFF, written by firmware alone, and BMC_OFF, by an armed management write, each switch a present channel's output off unless it is LOCKED_OFF. -/
def Obligations.FeedTripsAndSwitchOff : Prop :=
  (∀ (s : State) (c : Ch),
    (∀ (i : Instr) (cause : Nat) (live : Bool),
      (i, cause, live) ∈ [(Instr.feedShortTrip c, 1, (chanAt s c.val).feed.gate), (.feedOverloadTrip c, 2, feedRunning (chanAt s c.val).feed),
        (.feedPowerTrip c, 3, feedRunning (chanAt s c.val).feed)] →
      ∃ t, exec i s = .next t ∧ OnlyChan s t c.val ∧
        t = { s with hif := t.hif, chans := t.chans, evt := t.evt, sent := t.sent, free := t.free } ∧
        (live = false → t = s) ∧
        (live = true → (chanAt t c.val).feed.gate = false ∧ (chanAt t c.val).feed.reserve = 0 ∧
          (chanAt t c.val).feed.last = BitVec.ofNat 4 cause ∧ (chanAt t c.val).feed.load = .notMeasured ∧
          (chanAt t c.val).feed.cfg = (chanAt s c.val).feed.cfg ∧
          ((chanAt s c.val).feed.tries = 3 → (chanAt t c.val).feed.state = .lockedOff) ∧
          ((chanAt s c.val).feed.tries ≠ 3 → (chanAt t c.val).feed.state = .backoff ∧
            (chanAt t c.val).feed.tries = (chanAt s c.val).feed.tries + 1))) ∧
    (∃ t, exec (.feedBackoffExpiry c) s = .next t ∧ t = { s with chans := t.chans } ∧ OnlyChan s t c.val ∧
      chanAt t c.val = { chanAt s c.val with feed := { (chanAt s c.val).feed with
        state := if (chanAt s c.val).feed.state = .backoff then .waitBudget else (chanAt s c.val).feed.state } }) ∧
    (∃ t, exec (.feedTriesReset c) s = .next t ∧ t = { s with chans := t.chans } ∧ OnlyChan s t c.val ∧
      chanAt t c.val = { chanAt s c.val with feed := { (chanAt s c.val).feed with
        tries := if feedRunning (chanAt s c.val).feed then 0 else (chanAt s c.val).feed.tries } }) ∧
    (∃ t, exec (.feedInrushAbort c) s = .next t ∧ OnlyChan s t c.val ∧
      t = { s with hif := t.hif, chans := t.chans, evt := t.evt, sent := t.sent } ∧
      ((chanAt s c.val).feed.state ≠ .paused → t = s) ∧
      ((chanAt s c.val).feed.state = .paused → (chanAt t c.val).feed.state = .backoff ∧ (chanAt t c.val).feed.last = 4 ∧
        (chanAt t c.val).feed.tries = (chanAt s c.val).feed.tries ∧ (chanAt t c.val).feed.gate = false)) ∧
    (present s c.val = true → ∃ t, exec (.feedUnlock .pf c) s = .next t ∧ t = { s with chans := t.chans } ∧ OnlyChan s t c.val ∧
      (chanAt t c.val).feed.tries = 0 ∧ (chanAt t c.val).tab = (chanAt s c.val).tab ∧
      ((chanAt s c.val).feed.state = .lockedOff →
        (chanAt t c.val).feed.state = if feedEnable (chanAt s c.val).feed then .waitBudget else .off)) ∧
    (∀ cp, exec (.feedUnlock (.fw cp) c) s = .next (raise s Src.fwWriteDenied 0xFF (word (0x100000 + 0x10000 * c.val + 0x314))))) ∧
  (∀ (s : State) (c : Ch), present s c.val = true →
    (∀ cp on, ∃ t, exec (.feedHoldOff (.fw cp) c on) s = .next t ∧ t = { s with chans := t.chans, pwr := t.pwr } ∧
      (chanAt t c.val).feed.holdOff = on ∧ (chanAt t c.val).feed.bmcOff = (chanAt s c.val).feed.bmcOff ∧
      (on = true → (chanAt s c.val).feed.state ≠ .lockedOff → (chanAt t c.val).feed.state = .off)) ∧
    (∀ on, exec (.feedHoldOff .pf c on) s = .next s) ∧
    (∀ on, s.pwr.state ≠ .off → ∃ t, exec (.bmcOff c on) s = .next t ∧
      t = { s with hif := t.hif, chans := t.chans, pwr := t.pwr, evt := t.evt, sent := t.sent } ∧
      (chanAt t c.val).feed.bmcOff = on ∧ (chanAt t c.val).feed.holdOff = (chanAt s c.val).feed.holdOff ∧
      (on = true → (chanAt s c.val).feed.state ≠ .lockedOff → (chanAt t c.val).feed.state = .off)))

/-- R298, R299, R303 to R305: each tick admits waiting outputs in channel order only within FEED_BUDGET and INRUSH_MAX; the ramp's end, each pulse, every 8th one stretched where the section asks for it, and each measured window move the output and LOAD; a window that overlapped a sag changes nothing. -/
def Obligations.FeedAdmittedAndMeasured : Prop :=
  ∀ s : State,
    (∀ v, ∃ t, exec (.feedAdmissionTick v) s = .next t ∧ t = { s with chans := t.chans } ∧
      (s.pwr.domFeed = false → t = s) ∧
      (feedUsed s ≤ s.sup.budget.toNat → feedUsed t ≤ s.sup.budget.toNat) ∧
      (inrushCount s ≤ s.sup.inrushMax.toNat → inrushCount t ≤ s.sup.inrushMax.toNat) ∧
      (s.pwr.domFeed = true → ∀ c, c < 24 → present s c = true → (chanAt s c).feed.state ≠ .waitBudget →
        chanAt t c = { chanAt s c with feed := { (chanAt s c).feed with feedin := v } })) ∧
    (∀ c : Ch, (chanAt s c.val).feed.state = .inrush → ∃ t, exec (.feedRampEnd c) s = .next t ∧ t = { s with chans := t.chans } ∧
      OnlyChan s t c.val ∧ chanAt t c.val = { chanAt s c.val with feed := { (chanAt s c.val).feed with
        state := .established, gate := true } }) ∧
    (∀ c : Ch, (chanAt s c.val).feed.state = .pulsing →
      (∃ t, exec (.feedPulseStart c) s = .next t ∧ t = { s with chans := t.chans } ∧ OnlyChan s t c.val ∧
        chanAt t c.val = { chanAt s c.val with feed := { (chanAt s c.val).feed with
          gate := true, pulses := (chanAt s c.val).feed.pulses + 1,
          pulseLen := if (chanAt s c.val).feed.cfg.stretch ∧ (chanAt s c.val).feed.cfg.width < 64 ∧ ((chanAt s c.val).feed.pulses + 1) % 8 = 0
            then 64 else (chanAt s c.val).feed.cfg.width } }) ∧
      ((chanAt s c.val).feed.gate = true → ∃ t, exec (.feedPulseEnd c) s = .next t ∧ t = { s with chans := t.chans } ∧
        OnlyChan s t c.val ∧ chanAt t c.val = { chanAt s c.val with feed := { (chanAt s c.val).feed with
          gate := false, pulseOk := true,
          ontime := (chanAt s c.val).feed.ontime + word (chanAt s c.val).feed.pulseLen } })) ∧
    (∀ (c : Ch) (v : Half), windowTaken (chanAt s c.val).feed = true → feedLow s = false →
      (∀ d, s.sup.feedBack = some d → d + 64 * usUnit ≤ s.datum) →
      ∃ t, exec (.feedWindowClose c v) s = .next t ∧ OnlyChan s t c.val ∧
        t = { s with hif := t.hif, chans := t.chans, evt := t.evt, sent := t.sent } ∧ (chanAt t c.val).feed.current = v ∧
        (chanAt t c.val).feed.state = (chanAt s c.val).feed.state ∧
        ((chanAt s c.val).feed.cfg.iOpen * 10 ≤ v.toNat → (chanAt t c.val).feed.load = .present ∧ (chanAt t c.val).feed.openRun = 0) ∧
        (v.toNat < (chanAt s c.val).feed.cfg.iOpen * 10 → (chanAt s c.val).feed.openRun = 7 →
          (chanAt t c.val).feed.load = .open_ ∧ (chanAt t c.val).feed.openRun = 8) ∧
        (v.toNat < (chanAt s c.val).feed.cfg.iOpen * 10 → (chanAt s c.val).feed.openRun < 7 →
          (chanAt t c.val).feed.load = (chanAt s c.val).feed.load ∧
          (chanAt t c.val).feed.openRun = (chanAt s c.val).feed.openRun + 1)) ∧
    (∀ (c : Ch) (v : Half), (windowTaken (chanAt s c.val).feed = false ∨ feedLow s = true ∨
        ∃ d, s.sup.feedBack = some d ∧ s.datum < d + 64 * usUnit) → exec (.feedWindowClose c v) s = .next s)

/-- R287 to R289, R291, R292, R295, R302: a declared crossing moves its comparator; a LOW of CMP_MAIN begins a seal and, unless the battery carries them, sheds every feed, an INT of CMP_FEED sheds them, and the end of a disturbance is logged as a DISTURBANCE or an INTERRUPTION. R78, R292 to R294: the end of a seal, once its host part is written or given up, leaves the AON journal SEALED and logs it; in RUN service resumes while VMAIN is back or the battery carries on, by a recovery of cause 0x13 or by the DEVICE reset held meanwhile, and otherwise the power-down begins. -/
def Obligations.SupplyAndSeal : Prop :=
  (∀ s : State,
    (∀ i x, ∃ t, exec (.levelCrossingDeclared i x) s = .next t ∧ t.datum = s.datum ∧ t.part = s.part ∧
      (s.pwr.state = .off ∨ possible (compAt s (supIdx i)) x = false ∨ (i = .aux ∧ x = .int) → t = s) ∧
      (s.pwr.state ≠ .off → possible (compAt s (supIdx i)) x = true → ¬ (i = .aux ∧ x = .int) →
        compAt t (supIdx i) = crossed s (compAt s (supIdx i)) x ∧
        ∀ j, j ≠ supIdx i → compAt t j = compAt s j)) ∧
    (s.pwr.state ≠ .off → (compAt s 0).dist = none → s.sup.sealing = false →
      ∃ t, exec (.levelCrossingDeclared .main .low) s = .next t ∧ t.sup.sealing = true ∧ t.hif.fetchStop = true ∧
        t.sup.sealStart = s.datum ∧ (compAt t 0).lvl = .low ∧ t.journal = s.journal ∧
        (t.sup.onBat = true ↔ (compAt s 1).lvl ≠ .low ∧ (compAt s 1).lvl ≠ .int) ∧
        (s.pwr.domFeed = true → (t.sup.onBat = false ∨ s.sup.feedOnBat = false) → ∀ c, c < 24 →
          (chanAt t c).feed.state = .shed ∨ (chanAt t c).feed.state = .off ∨ (chanAt t c).feed.state = .lockedOff)) ∧
    (s.pwr.state ≠ .off → s.pwr.domFeed = true → possible (compAt s 2) .int = true →
      ∃ t, exec (.levelCrossingDeclared .feed .int) s = .next t ∧ t.sup.sealing = s.sup.sealing ∧ t.rings = s.rings ∧
        ∀ c, c < 24 → (chanAt t c).feed.state = .shed ∨ (chanAt t c).feed.state = .off ∨ (chanAt t c).feed.state = .lockedOff) ∧
    (s.pwr.state ≠ .off → ∃ t, exec (.levelCrossingDeclared .feed .restore) s = .next t ∧ t.sup.feedBack = some s.datum ∧ t.rings = s.rings) ∧
    (∀ d, s.pwr.state ≠ .off → (compAt s 1).dist = some d →
      ∃ t, exec (.levelCrossingDeclared .bat .restore) s = .next t ∧ (compAt t 1).dist = none ∧
        t = { s with sup := t.sup, hif := t.hif, evt := t.evt, sent := t.sent, free := t.free } ∧
        t.sup.written = s.sup.written + 1 ∧
        ∃ e, t.sup.log = (e :: s.sup.log).take 32 ∧ e.kind = (if d.int then 2 else 1) ∧ e.input = 1 ∧
          e.sec = word (instSec d.start) ∧ e.ns = word (instNsPart d.start))) ∧
  (∀ s : State, (s.sup.sealing = false ∨ sealWritten s = false) → exec .sealComplete s = .next s) ∧
  (∀ s : State, s.sup.sealing = true → sealWritten s = true →
    ∃ t, exec .sealComplete s = .next t ∧ t.sup.sealing = false ∧ t.datum = s.datum ∧
      ((s.pwr.state = .deep ∨ s.pwr.state = .poweringDown ∨ s.pwr.state = .off) →
        t = { s with sup := t.sup, hif := t.hif, evt := t.evt, sent := t.sent, free := t.free } ∧ t.sup.journalSealed = true ∧
        ∃ e, t.sup.log = (e :: s.sup.log).take 32 ∧ e.kind = 4 ∧
          e.detail = (if s.sup.hostLost then 2 else if sealResumes s then 0 else 1)) ∧
      ((s.pwr.state = .run ∨ s.pwr.state = .idle ∨ s.pwr.state = .sleep) → sealResumes s = true → s.sup.heldReset = none →
        t.sup.journalSealed = false ∧ t.ledger.sealState = .running ∧ t.ledger.spillCount = 0 ∧ t.hif.fetchStop = false ∧
        t.pwr.state = s.pwr.state ∧ t.pwr.entrySeal = false ∧ SameCounters s t ∧ ∃ v, v ∈ t.recov ∧ v.cause = 0x13 ∧ v.lossy = false) ∧
      (∀ k, s.pwr.state = .run → sealResumes s = true → s.sup.heldReset = some k → s.glb.inReset = false → AfterDeviceReset s t k.code) ∧
      (s.pwr.state = .run → sealResumes s = false → t.pwr.state = .poweringDown ∧ t.pwr.toOff = false))

/-- R325, R326, Table 14.9: the power-down takes its steps in order, each at the end of the one before it, and ends in OFF or in DEEP with the crystal counting the datum; a rail that collapses meanwhile isolates its domains at once. R323, R324, Table 14.8: the power-up takes its steps in order; a rail that is not good in time releases every enable and waits, and its retry begins at step 1. R328, R395: an output whose domain is off is high impedance, and its ball rests at its pull: the laser disabled, every feed gate, driver and enable off. -/
def Obligations.PowerSequencesInOrder : Prop :=
  (∀ s : State,
    ((s.pwr.state ≠ .poweringDown ∨ s.pwr.downStep = 0) → exec .powerDownStep s = .next s) ∧
    (s.pwr.state = .poweringDown →
      (s.pwr.downStep = 7 → exec .powerDownStep s = .next { s with pwr := { s.pwr with step := 7, downStep := 8, enAfe := false } }) ∧
      (s.pwr.downStep = 8 → exec .powerDownStep s = .next { s with pwr := { s.pwr with step := 8, downStep := 9, enCh := false } }) ∧
      (s.pwr.downStep = 9 → exec .powerDownStep s = .next { s with pwr := { s.pwr with step := 9, downStep := 10, enSds := false } }) ∧
      (s.pwr.downStep = 10 → exec .powerDownStep s = .next { s with
        pwr := { s.pwr with step := 10, downStep := 11, enCore := false, refEn := false }, time := { s.time with pllLock := false } }) ∧
      (s.pwr.downStep = 11 → ∃ t, exec .powerDownStep s = .next t ∧ t.datum = s.datum ∧ t.rings = s.rings ∧
        (s.pwr.toOff = true → t.pwr.state = .off) ∧
        (s.pwr.toOff = false → s.pwr.latchedWake = none → t.pwr.state = .deep ∧ t.time.src = .crystal) ∧
        (∀ w, s.pwr.toOff = false → s.pwr.latchedWake = some w → t.pwr.state = .waking ∧ t.pwr.upStep = 1)) ∧
      (s.pwr.downStep = 6 → s.pwr.domHif = true → ∃ t, exec .powerDownStep s = .next t ∧ t.pwr.domHif = false ∧ t.pwr.downStep = 7 ∧
        t.hif.linkUp = false ∧ SameCounters s t)) ∧
    (∀ r, s.pwr.state = .poweringDown → s.pwr.downStep ≠ 0 → railOn s.pwr r = true → s.pwr.collapsed.contains r = false →
      ∃ t, exec (.railCollapse r) s = .next t ∧ t.datum = s.datum ∧ (∀ d, d ∈ railDomains r → domOn t d = false)) ∧
    (∀ r, (s.pwr.state ≠ .poweringDown ∨ railOn s.pwr r = false) → exec (.railCollapse r) s = .next s)) ∧
  (∀ s : State,
    ((s.pwr.upStep = 0 ∨ s.pwr.retryWait = true) → exec .powerUpStep s = .next s) ∧
    (s.pwr.retryWait = false →
      (∀ k, k = 1 ∨ k = 3 → s.pwr.upStep = k → exec .powerUpStep s = .next { s with pwr := { s.pwr with step := k, upStep := k + 1 } }) ∧
      (s.pwr.upStep = 2 → exec .powerUpStep s = .next { s with
        pwr := { s.pwr with step := 2, upStep := 3, refEn := true, enCore := true, enSds := true } }) ∧
      (s.pwr.upStep = 4 → exec .powerUpStep s = .next { s with
        pwr := { s.pwr with step := 4, upStep := 5 }, time := { s.time with pllLock := true, src := .free } }) ∧
      (s.pwr.upStep = 5 → exec .powerUpStep s = .next { s with
        pwr := { s.pwr with step := 5, upStep := 6, domHif := !s.pwr.testEn, enCh := true, enAfe := true } }) ∧
      (s.pwr.upStep = 6 → ∃ t, exec .powerUpStep s = .next t ∧ t.pwr.upStep = 7 ∧ SameCounters s t ∧
        (s.pwr.testEn = false → t.pwr.domCore = true) ∧ (s.pwr.testEn = true → t = { s with pwr := { s.pwr with step := 6, upStep := 7 } })) ∧
      (s.pwr.upStep = 7 → ∃ t, exec .powerUpStep s = .next t ∧ t.pwr.upStep = 8 ∧ t.pwr.cold = false ∧ t = { s with pwr := t.pwr, chans := t.chans }) ∧
      (s.pwr.upStep = 8 → ∃ t, exec .powerUpStep s = .next t ∧ t.pwr.domUpl = (!s.pwr.testEn) ∧ t.pwr.upStep = 0 ∧ SameCounters s t ∧
        (s.pwr.state = .waking → t.pwr.state = .run ∧ t.pwr.lost = s.pwr.groups &&& ~~~s.pwr.retained))) ∧
    (s.pwr.retryWait = false → (s.pwr.upStep = 3 ∨ s.pwr.upStep = 7) →
      ∃ t, exec .railGoodTimeout s = .next t ∧ t.pwr.retryWait = true ∧ t.pwr.enCore = false ∧ t.pwr.enSds = false ∧
        t.pwr.enCh = false ∧ t.pwr.enAfe = false ∧ t.pwr.domHif = false ∧ t.pwr.domCore = false ∧ t.pwr.domUpl = false ∧
        t.time.pllLock = false ∧ t.datum = s.datum) ∧
    (s.pwr.retryWait = true → exec .railGoodTimeout s = .next s ∧
      exec .powerUpRetry s = .next { s with pwr := { s.pwr with upStep := 1, retryWait := false } })) ∧
  (∀ s : State,
    (∀ x : Signal, x.powered s = false → pinLevel s x = none ∨ pinLevel s x = some .z) ∧
    (s.pwr.domUpl = false → ballLevel s .optTxDisable = some .high ∧ ballLevel s .optTxBurstEn = some .low) ∧
    (s.pwr.domFeed = false → ∀ c, ballLevel s (.feedGate c) = some .low) ∧
    (s.pwr.domRad = false → ballLevel s .rfPaEn = some .low) ∧
    (s.pwr.state = .off → ballLevel s .pwrEnCore = some .low ∧ ballLevel s .pwrEnCh = some .low ∧ ballLevel s .refEn = some .low))

/-- R311, R315, R316, Table 14.4: IDLE follows the idle timer where PWR_FLOOR allows it and both processors are idle, SLEEP follows IDLE where it is quiet, an interrupt returns IDLE to RUN, and a pin or an alarm enabled in PWR_WAKE wakes DEEP and abandons an entry. R312, R313, R361: a PWR_ENTER that finds the terminal quiescent ends OK and stops fetching, one that does not is returned with why, and an armed PWR_GO is the same request; the state becomes ENTERING once the ledger, if one is in use, is sealed; in ENTERING, PME_Turn_Off leads to POWERING_DOWN, and 1.0 s without it abandons the entry. -/
def Obligations.PowerStatesMoved : Prop :=
  (∀ s : State,
    (∃ t, exec .idleTimerExpiry s = .next t ∧ t = { s with pwr := t.pwr, fw := t.fw, hif := t.hif, evt := t.evt, sent := t.sent } ∧
      (s.pwr.state = .run → s.pwr.floor ≠ 0 → coresIdle s = true →
        t.pwr = { s.pwr with state := .idle } ∧ t.fw.cp0 = .halted ∧ t.fw.cp1 = .halted) ∧
      ((s.pwr.state ≠ .run ∨ s.pwr.floor = 0 ∨ coresIdle s = false) → t = s)) ∧
    (∃ t, exec .idleExit s = .next t ∧ t = { s with pwr := t.pwr, fw := t.fw, hif := t.hif, evt := t.evt, sent := t.sent } ∧
      t.pwr = { s.pwr with state := if s.pwr.state = .idle then .run else s.pwr.state }) ∧
    (∃ t, exec .sleepTimerExpiry s = .next t ∧ t = { s with pwr := t.pwr, fw := t.fw, hif := t.hif, evt := t.evt, sent := t.sent } ∧
      (s.pwr.state = .idle → s.pwr.floor = 2 → sleepQuiet s = true → t.pwr = { s.pwr with state := .sleep }) ∧
      ((∃ c, c < 24 ∧ ((chanAt s c).tab.state = .service ∨ (chanAt s c).tab.state = .train)) → t = s)) ∧
    (exec .l1EntryRequest s = .next (if s.pwr.state = .sleep ∧ s.hif.linkUp = true then { s with sent := .l1Request :: s.sent } else s)) ∧
    (s.pwr.state = .off → exec .wakePin s = exec .powerOn s) ∧
    (s.pwr.state = .deep →
      (∃ t, exec .wakePin s = .next t ∧ t.datum = s.datum ∧ t.rings = s.rings ∧
        (s.pwr.wakeBits.getLsbD 0 = false → t = s) ∧
        (s.pwr.wakeBits.getLsbD 0 = true → t.pwr.state = .waking ∧ t.pwr.wakeCause = 1 ∧ t.pwr.upStep = 1)) ∧
      (word (instSec s.datum) = s.pwr.alarm → ∃ t, exec .pwrAlarm s = .next t ∧ t.datum = s.datum ∧ t.rings = s.rings ∧
        (s.pwr.wakeBits.getLsbD 1 = false → t = s) ∧
        (s.pwr.wakeBits.getLsbD 1 = true → t.pwr.state = .waking ∧ t.pwr.wakeCause = 3 ∧ t.pwr.upStep = 1))) ∧
    (word (instSec s.datum) ≠ s.pwr.alarm → exec .pwrAlarm s = .next s)) ∧
  (∀ s : State,
    (∀ seq w, cmdWork s 0 seq 0x0120 = some w → ∃ t, exec (.pwrEnter seq) s = .next t ∧ SameCounters s t ∧ t.pwr.state = s.pwr.state ∧
      (2 ≤ bits w.d.p0 1 0 → returnedWith t 0 seq = some (Outcome.of .retParam 0 0) ∧ t = { s with rings := t.rings }) ∧
      (bits w.d.p0 1 0 < 2 → (mayRequest s = false ∨ quiescent s (some seq) = false) →
        returnedWith t 0 seq = some (Outcome.of .retBusy 0 0) ∧ t.pwr = { s.pwr with refused := true, why := 1 }) ∧
      (bits w.d.p0 1 0 = 0 → mayRequest s = true → quiescent s (some seq) = true → 1200 < retLoad s.pwr s.pwr.groups →
        returnedWith t 0 seq = some (Outcome.of .retDenied 0 0) ∧ t.pwr = { s.pwr with refused := true, why := 2 }) ∧
      (∀ off, bits w.d.p0 1 0 = (if off = true then 1 else 0) → entryCheck s (some seq) off = 0 →
        t.pwr = { s.pwr with entryReq := some (seq, off) } ∧ t.hif = { s.hif with fetchStop := true } ∧
        t.journal = s.journal ++ [{ ring := 0, seq := seq, out := Outcome.of .ok 0 0 }])) ∧
    (∀ (i : Instr) (off : Bool), (i, off) ∈ [(Instr.pwrGoDeep, false), (.pwrGoOff, true)] → s.pwr.state ≠ .off →
      ∃ t, exec i s = .next t ∧ SameCounters s t ∧ t.journal = s.journal ∧
        (entryCheck s none off = 0 → t.pwr.toOff = off ∧ t.hif.fetchStop = true ∧
          (ledgerLive s = false → ledgerQuiet s = true → t.pwr.state = .entering ∧ t.sup.journalSealed = true) ∧
          (ledgerLive s = true → t.pwr.state = s.pwr.state ∧ t.pwr.entrySeal = true ∧ t.ledger.sealState = .sealing ∧ t.sup.sealPhase = 1)) ∧
        (entryCheck s none off ≠ 0 → t.pwr.state = s.pwr.state ∧ t.pwr.refused = true ∧ t.pwr.why.toNat = entryCheck s none off ∧
          t.hif.fetchStop = s.hif.fetchStop)) ∧
    (∃ t, exec .pmeTurnOff s = .next t ∧ ((s.pwr.state ≠ .entering ∨ s.hif.linkUp = false) → t = s) ∧
      (s.pwr.state = .entering → s.hif.linkUp = true → t.pwr.state = .poweringDown ∧ t.hif.linkUp = false ∧
        t.pwr.toOff = s.pwr.toOff ∧ Out.pmeAck ∈ t.sent)) ∧
    (∃ t, exec .entryTimeout s = .next t ∧ SameCounters s t ∧ (s.pwr.state ≠ .entering → t = s) ∧
      (s.pwr.state = .entering → t.pwr.state = .run ∧ t.pwr.refused = true ∧ t.pwr.why = 3 ∧
        (s.sup.sealing = false → t.hif.fetchStop = false ∧ t.sup.journalSealed = false ∧ ∃ v, v ∈ t.recov ∧ v.cause = 0x13))))

/-- R331, R332, R334: a processor's own kick restarts its watchdog; an expiry resets that processor alone, under a recovery of cause 0x12, while the other runs and it is the first in 10 s, and is otherwise a DEVICE reset; the restarted image's report ends the reset, and a receive point unpaired for 1.0 s is dropped and counted. R336, R337, R345 to R347: the handover runs the slot the boot monitor selects and reads the settings, or begins restricted service, which holds every channel and the radio; a firmware flash operation never changes a slot that is not open to it, and one outside the permitted places raises FW_WRITE_DENIED. -/
def Obligations.ProcessorsHandoverAndFlash : Prop :=
  (∀ s : State,
    (∀ cp bit : Fin 2, ∃ t, exec (.watchdogKick cp bit) s = .next t ∧ t = { s with fw := { s.fw with wdgStart := t.fw.wdgStart } } ∧
      (cp ≠ bit ∨ cpState s cp.val ≠ .running → t = s) ∧
      (cp = bit → cpState s cp.val = .running → vget t.fw.wdgStart cp.val 0 = s.datum ∧
        ∀ j, j ≠ cp.val → vget t.fw.wdgStart j 0 = vget s.fw.wdgStart j 0)) ∧
    (∀ cp : Fin 2, ∃ t, exec (.watchdogExpiry cp) s = .next t ∧ t.datum = s.datum ∧
      ((s.pwr.domCore = false ∨ cpState s cp.val ≠ .running ∨ wdgOver s cp.val = false) → t = s) ∧
      (s.pwr.domCore = true → cpState s cp.val = .running → wdgOver s cp.val = true →
        (cpState s (1 - cp.val) = .running → wdgTwice s cp.val = false →
          t = { s with fw := t.fw, rings := t.rings, recov := t.recov, hif := t.hif, evt := t.evt, sent := t.sent } ∧ SameCounters s t ∧
          cpState t cp.val = .reset ∧ cpState t (1 - cp.val) = .running ∧ t.fw.wdgResets = s.fw.wdgResets + 1 ∧
          ∃ v, v ∈ t.recov ∧ v.cause = 0x12 ∧ v.lossy = false) ∧
        ((cpState s (1 - cp.val) ≠ .running ∨ wdgTwice s cp.val = true) → s.sup.sealing = false → s.glb.inReset = false →
          AfterDeviceReset s t ResetCause.watchdog.code))) ∧
    (∀ cp : Fin 2, s.pwr.domCore = true → cpState s cp.val = .reset → ∃ t, exec (.cpReady cp) s = .next t ∧
      t = { s with fw := t.fw } ∧ cpState t cp.val = .running ∧ cpState t (1 - cp.val) = cpState s (1 - cp.val) ∧
      vget t.fw.wdgStart cp.val 0 = s.datum) ∧
    (∀ h l, s.fw.ptp = h :: l → ∃ t, exec .ptpUnpairedDrop s = .next t ∧
      t = { s with fw := { s.fw with ptp := t.fw.ptp }, hif := t.hif, evt := t.evt, sent := t.sent } ∧
      (h.t + secUnit ≤ s.datum → t.fw.ptp = l) ∧ (s.datum < h.t + secUnit → t = s))) ∧
  (∀ s : State,
    (∀ positions ok h, (fwSlot s (bootSel s)).hdr = some h → bootSel s ≠ 0 → s.pwr.domCore = true → s.fw.cp0 = .bootMonitor →
      ∃ t, exec (.imageHandover positions ok) s = .next t ∧ SameCounters s t ∧ t.ledger = s.ledger ∧ t.datum = s.datum ∧
        t.fw.runSlot = bootSel s ∧ t.fw.cp0 = .running ∧ t.fw.cp1 = .running ∧ t.fw.noImage = false ∧
        ((fwSlot s (bootSel s)).st = .trial → s.fw.timerOn = false → t.fw.timerOn = true ∧ t.fw.left = s.fw.confirmCfg) ∧
        (∀ g top, ok = true → scanGens h (gensFound s.fw.gens positions) = some (g, false) → topGen (gensFound s.fw.gens positions) = some top →
          t.fw.restricted = false ∧ t.fw.unreadable = false ∧ t.fw.setGen = g.gen ∧
          (g.gen ≠ top.gen → t.fw.rolledBack = true ∧ t.fw.rollbackFrom = top.gen)) ∧
        (∀ g top, ok = true → scanGens h (gensFound s.fw.gens positions) = some (g, true) → topGen (gensFound s.fw.gens positions) = some top →
          t.fw.setGen = top.gen + 1 ∧ t.fw.setInfo = BitVec.ofNat 16 h.schemaMax ∧
          ∃ x, x ∈ t.fw.gens ∧ x.gen = top.gen + 1 ∧ x.schema = h.schemaMax ∧ x.migrated = true ∧ x.parent = g.gen ∧ x.writer = h.version) ∧
        ((ok = false ∨ scanGens h (gensFound s.fw.gens positions) = none) → t.fw.unreadable = true) ∧
        (ok = false → t.fw.restricted = true ∧ t.rad.txAllow = false ∧
          ∀ c, c < 24 → present s c = true → (chanAt t c).tab.hold = 2 ∧ (chanAt t c).feed.holdOff = true)) ∧
    ((s.pwr.domCore = false ∨ s.fw.cp0 ≠ .bootMonitor) → ∀ positions ok, exec (.imageHandover positions ok) s = .next s) ∧
    (∀ op off len, ∃ t, exec (.flashWrite op off len) s = .next t ∧
      t = { s with fw := t.fw, hif := t.hif, evt := t.evt, sent := t.sent, free := t.free } ∧
      (∀ i, i = 1 ∨ i = 2 → slotOpen s i = false → fwSlot t i = fwSlot s i) ∧
      (cpServes s = true → touches off len 0 0x20000 = true → t = raise s Src.fwWriteDenied 0xFF (word off)) ∧
      (∀ p, cpServes s = true → flashAllowed s off len = true → op = .erase →
        touches off len (slotBase (inactive s) + 4096 * p) (slotBase (inactive s) + 4096 * (p + 1)) = true → p < 3072 →
        p ∉ (fwSlot t (inactive s)).pages)))

/-- R336, R339, R340, Table 15.5: FW_STAGE is returned for a length that is no 4,096-byte multiple up to 1 MiB, a place past the slot, or while the running slot is in trial, and otherwise stages the inactive slot alone; FW_ACTIVATE puts a bootable inactive slot in trial, the restart following its record. R338, R341, R342, R355, R361: a trial ends confirmed or rejected: by FW_CONFIRM or FW_FALLBACK, by the armed request of the same name, or rejected by its timer with a firmware restart; with no slot in trial the commands are returned RET_BUSY. -/
def Obligations.ImagesStagedTriedAndConfirmed : Prop :=
  (∀ (s : State) (seq : Word),
    (∀ (res : XferResult) (data : List Byte) (sigOk : Bool) (w : Work), cmdWork s 0 seq 0x0130 = some w →
      ∃ t, exec (.fwStage seq res ⟨data, sigOk⟩) s = .next t ∧ OnlyRing s t 0 ∧ SameCounters s t ∧ fwSlot t (3 - inactive s) = fwSlot s (3 - inactive s) ∧
        t.fw.floor = s.fw.floor ∧
        ((w.d.len.toNat < 4096 ∨ 2 ^ 20 < w.d.len.toNat ∨ w.d.len.toNat % 4096 ≠ 0) →
          returnedWith t 0 seq = some (Outcome.of .retLength 0 0) ∧ t.fw = s.fw) ∧
        (4096 ≤ w.d.len.toNat → w.d.len.toNat ≤ 2 ^ 20 → w.d.len.toNat % 4096 = 0 →
          (0xC00000 < w.d.p0.toNat * 4096 + w.d.len.toNat → returnedWith t 0 seq = some (Outcome.of .retParam 0 0) ∧ t.fw = s.fw) ∧
          (w.d.p0.toNat * 4096 + w.d.len.toNat ≤ 0xC00000 → runsTrial s = true →
            returnedWith t 0 seq = some (Outcome.of .retBusy 0 0) ∧ t.fw = s.fw) ∧
          (w.d.p0.toNat * 4096 + w.d.len.toNat ≤ 0xC00000 → runsTrial s = false → mayMaster s 0 = true →
            inWindows s 0 false w.d.addr.toNat w.d.len.toNat = true →
            (res ≠ .ok → returnedWith t 0 seq = some (Outcome.of .retDma 0 0) ∧ t.fw = s.fw) ∧
            (res = .ok → data.length ≠ w.d.len.toNat → t = s) ∧
            (res = .ok → data.length = w.d.len.toNat → t.journal = s.journal ++ [{ ring := 0, seq := seq, out := Outcome.of .ok 0 0 }] ∧
              fwSlot t (inactive s) = stageSlot data sigOk w.d.p0.toNat (w.d.len.toNat / 4096) (fwSlot s (inactive s)) ∧
              Out.flash (slotBase (inactive s) + 4096 * w.d.p0.toNat) data ∈ t.sent)))) ∧
    (∀ w, cmdWork s 0 seq 0x0131 = some w → ∃ t, exec (.fwActivate seq) s = .next t ∧ OnlyRing s t 0 ∧ SameCounters s t ∧
      t = { s with rings := t.rings, journal := t.journal, fw := t.fw } ∧
      (s.fw.runSlot ≠ 0 → (fwSlot s s.fw.runSlot).st ≠ .confirmed → returnedWith t 0 seq = some (Outcome.of .retBusy 0 0) ∧ t.fw = s.fw) ∧
      ((s.fw.runSlot = 0 ∨ (fwSlot s s.fw.runSlot).st = .confirmed) →
        (activateWhy s (fwSlot s (inactive s)) ≠ 0 → t.fw = s.fw ∧
          returnedWith t 0 seq = some (Outcome.of .retDenied (word (activateWhy s (fwSlot s (inactive s)))) 0)) ∧
        (activateWhy s (fwSlot s (inactive s)) = 0 → (fwSlot t (inactive s)).st = .trial ∧ t.fw.trialLive = true ∧
          fwSlot t (3 - inactive s) = fwSlot s (3 - inactive s) ∧ t.fw.restartAt = s.fw.restartAt ++ [seq] ∧
          t.journal = s.journal ++ [{ ring := 0, seq := seq, out := Outcome.of .ok 0 0 }])))) ∧
  (∀ s : State,
    (∀ seq w, cmdWork s 0 seq 0x0132 = some w → ∃ t, exec (.fwConfirm seq) s = .next t ∧ OnlyRing s t 0 ∧ SameCounters s t ∧
      (trialSlot s = none → returnedWith t 0 seq = some (Outcome.of .retBusy 0 0) ∧ t.fw = s.fw) ∧
      (∀ k, trialSlot s = some k → s.fw.restricted = true → w.d.p0.getLsbD 0 = false →
        returnedWith t 0 seq = some (Outcome.of .retBusy 0 0) ∧ t.fw = s.fw) ∧
      (∀ k, trialSlot s = some k → (s.fw.restricted = false ∨ w.d.p0.getLsbD 0 = true) →
        (fwSlot t k).st = .confirmed ∧ t.fw.trialLive = false ∧ t.fw.timerOn = false ∧ s.fw.floor ≤ t.fw.floor ∧
        t.journal = s.journal ++ [{ ring := 0, seq := seq, out := Outcome.of .ok 0 0 }])) ∧
    (∀ seq w, cmdWork s 0 seq 0x0133 = some w → ∃ t, exec (.fwFallback seq) s = .next t ∧ OnlyRing s t 0 ∧ SameCounters s t ∧
      (trialSlot s = none → returnedWith t 0 seq = some (Outcome.of .retBusy 0 0) ∧ t.fw = s.fw) ∧
      (∀ k, trialSlot s = some k → (fwSlot t k).st = .rejected ∧ t.fw.trialLive = false ∧ t.fw.restartAt = s.fw.restartAt ++ [seq] ∧
        t.journal = s.journal ++ [{ ring := 0, seq := seq, out := Outcome.of .ok 0 0 }])) ∧
    (∃ t, exec .confirmationTimeout s = .next t ∧ SameCounters s t ∧
      ((trialSlot s = none ∨ s.fw.trialLive = false ∨ s.fw.timerOn = false ∨ 1 < s.fw.left.toNat) → t = s) ∧
      (∀ k, trialSlot s = some k → s.fw.trialLive = true → s.fw.timerOn = true → s.fw.left.toNat ≤ 1 → s.pwr.state ≠ .off → s.pwr.domCore = true →
        (fwSlot t k).st = .rejected ∧ t.fw.trialLive = false ∧ t.fw.cp0 = .bootMonitor ∧ t.fw.cp1 = .bootMonitor ∧
        ∃ v, v ∈ t.recov ∧ v.cause = 0x12)) ∧
    (∀ k, trialSlot s = some k → s.pwr.state ≠ .off → s.pwr.domCore = true →
      (∃ t, exec .fwSlotFallback s = .next t ∧ SameCounters s t ∧ (fwSlot t k).st = .rejected ∧ t.fw.cp0 = .bootMonitor ∧
        ∃ v, v ∈ t.recov ∧ v.cause = 0x12) ∧
      ∃ t, exec .fwSlotConfirm s = .next t ∧ t = { s with fw := t.fw, hif := t.hif, evt := t.evt, sent := t.sent } ∧
        (fwSlot t k).st = .confirmed ∧ t.fw.trialLive = false))

/-- R353, R355, R378 to R380, Table 15.9: a capsule that is refused, for its kind, signature, target or sequence, changes no record, and one that is applied has the record written with the next SEQ, its own sequence number and the fields of its kind alone, each with a firmware restart; REVERT waits for the next DEVICE reset; the identity read at boot, the valid copy of the higher SEQ, sets the identity registers, and after POWER-ON the profile in force and the reset values that depend on it. -/
def Obligations.CapsulesAndIdentity : Prop :=
  ∀ s : State,
    (∀ seq res data keys positions w, cmdWork s 0 seq 0x0134 = some w → 512 ≤ w.d.len.toNat → w.d.len.toNat ≤ 2 ^ 20 → mayMaster s 0 = true →
      inWindows s 0 false w.d.addr.toNat w.d.len.toNat = true →
      ∃ t, exec (.capsuleApply seq res ⟨data, keys⟩ positions) s = .next t ∧ SameCounters s t ∧
        (res ≠ .ok → returnedWith t 0 seq = some (Outcome.of .retDma 0 0) ∧ t.fw = s.fw) ∧
        (res = .ok → data.length ≠ w.d.len.toNat → t = s) ∧
        (∀ o, res = .ok → data.length = w.d.len.toNat → capsuleReject s (capsuleOf data keys) = some o →
          returnedWith t 0 seq = some o ∧ t.fw.rec_ = s.fw.rec_ ∧ t.glb = s.glb ∧ t.sec = s.sec ∧ t.fw.cp0 = .bootMonitor) ∧
        (res = .ok → data.length = w.d.len.toNat → capsuleReject s (capsuleOf data keys) = none →
          t.fw.rec_.seq = s.fw.rec_.seq + 1 ∧ t.fw.rec_.capsuleSeq = (capsuleOf data keys).seq ∧
          t.fw.recCopy = (if s.fw.recCopy = 1 then 2 else 1) ∧ t.fw.cp0 = .bootMonitor ∧ (journalOf t 0 seq).isSome = true ∧
          t.fw.rec_.factorySn = s.fw.rec_.factorySn ∧ t.fw.rec_.factoryMac = s.fw.rec_.factoryMac ∧
          ((capsuleOf data keys).kind = 1 → ∃ g, g ∈ t.fw.gens ∧ g.schema = (capsuleOf data keys).schema ∧ g.fromCapsule = true) ∧
          ((capsuleOf data keys).kind ≠ 1 → t.fw.gens = s.fw.gens) ∧
          ((capsuleOf data keys).kind = 2 → t.fw.rec_.activeSn = BitVec.ofNat 64 (beAt (capsuleOf data keys).body 0 8) ∧
            t.fw.rec_.activeMac = BitVec.ofNat 48 (beAt (capsuleOf data keys).body 8 6) ∧
            t.fw.rec_.origin = BitVec.ofNat 64 (leAt (capsuleOf data keys).body 14 8) ∧ t.fw.rec_.transferred = true) ∧
          ((capsuleOf data keys).kind ≠ 2 → t.fw.rec_.activeSn = s.fw.rec_.activeSn ∧ t.fw.rec_.activeMac = s.fw.rec_.activeMac ∧
            t.fw.rec_.transferred = s.fw.rec_.transferred) ∧
          ((capsuleOf data keys).kind = 3 → t.fw.rec_.profile = BitVec.ofNat 8 (leAt (capsuleOf data keys).body 0 1) ∧
            t.glb.next = nextOf t.fw.rec_.profile ∧ t.glb.inForce = s.glb.inForce) ∧
          ((capsuleOf data keys).kind ≠ 3 → t.fw.rec_.profile = s.fw.rec_.profile ∧ t.glb = s.glb) ∧
          ((capsuleOf data keys).kind = 4 → t.fw.rec_.operatorKey = fit 48 (capsuleOf data keys).body) ∧
          ((capsuleOf data keys).kind ≠ 4 → t.fw.rec_.operatorKey = s.fw.rec_.operatorKey) ∧
          (t.fw.noImage = false → atStage t 0 seq .emitted ∧ t.fw.afterRestart = some (seq, Outcome.of .ok 0 0)))) ∧
    (∀ c : Capsule,
      (c.kind = 2 → c.keys.operator = false → ∃ o, capsuleReject s c = some o ∧ o.status = .retDenied) ∧
      (c.keys.operator = false → c.keys.dravhar = false → capsuleReject s c ≠ none) ∧
      (c.target ≠ s.glb.unitId → (c.target ≠ 0 ∨ (c.kind ≠ 1 ∧ c.kind ≠ 3)) → capsuleReject s c ≠ none) ∧
      (c.seq.toNat ≤ s.fw.rec_.capsuleSeq.toNat → capsuleReject s c ≠ none)) ∧
    (s.pwr.state ≠ .off → s.pwr.domCore = true → ∃ t, exec .revert s = .next t ∧
      t = { s with fw := { s.fw with revert := true }, hif := t.hif, evt := t.evt, sent := t.sent }) ∧
    (∀ a b copy x, s.pwr.domCore = true → s.glb.loaded = false →
      (if s.fw.recKnown then (s.fw.recCopy, s.fw.rec_) else pickCopy a b) = (copy, x) →
      ∃ t, exec (.identityLoaded a b) s = .next t ∧ SameCounters s t ∧ t.glb.loaded = true ∧ t.hif.crs = false ∧ t.glb.unitId = s.glb.unitId ∧
        (copy = 0 → t.glb.recBad = true ∧ t.glb.sn = s.glb.sn ∧ t.glb.mac = s.glb.mac ∧ (s.hif.crs = true → t.glb.inForce = 2)) ∧
        (copy ≠ 0 → t.glb.sn = x.activeSn ∧ t.glb.mac = x.activeMac ∧ t.glb.origin = x.origin ∧ t.glb.transferred = x.transferred ∧
          t.glb.copy = copy ∧ t.glb.recBad = false ∧ t.fw.rec_ = x ∧ t.fw.recKnown = true ∧
          (s.hif.crs = true → t.glb.inForce = nextOf x.profile)) ∧
        (s.hif.crs = true → t.glb.next = t.glb.inForce ∧ t.pwr.idleUs = (if t.glb.inForce = 1 then 200 else 100) ∧
          ∀ c, c < 24 → (chanAt t c).pm.sesDtu = if t.glb.inForce = 1 then 8 else 16) ∧
        (s.hif.crs = false → t.glb.inForce = s.glb.inForce ∧ t.pwr = s.pwr ∧ t.chans = s.chans)) ∧
    (∀ a b,
      (recGood a = false → recGood b = false → (pickCopy a b).1 = 0) ∧
      (recGood a = true → (recGood b = false ∨ (recOf b).seq.toNat ≤ (recOf a).seq.toNat) → pickCopy a b = (1, recOf a)) ∧
      (recGood b = true → (recGood a = false ∨ (recOf a).seq.toNat < (recOf b).seq.toNat) → pickCopy a b = (2, recOf b))) ∧
    ((s.pwr.domCore = false ∨ s.glb.loaded = true) → ∀ a b, exec (.identityLoaded a b) s = .next s)

/-- R14, R60, R313, R318, Table 02.10: an access is an unsupported request where its function does not serve it or its width is wrong, waits in order for a domain that is not ready, and otherwise takes place; a read answers the register, and 0 at the flow table's port of the other side; an error is reported through AER; while TEST_EN is high no access is answered (R396). -/
def Obligations.AccessServedRefusedOrHeld : Prop :=
  (∀ s : State, s.pwr.testEn = true → (∀ a, exec (.domainWakeOnAccess a) s = .next s) ∧
    (∀ who off v, exec (.registerWrite who off v) s = .next s) ∧ (∀ who b off, exec (.unsupportedAccessWidth who b off) s = .next s) ∧
    ∀ f b off, exec (.poisonedWrite f b off) s = .next s) ∧
  ∀ s : State, s.pwr.testEn = false →
    (∀ who off v, exec (.registerWrite who off v) s = exec (.domainWakeOnAccess { who := who, off := off, value := some v }) s) ∧
    (∀ a : Access, barServes s a.who = false →
      ∃ t, exec (.domainWakeOnAccess a) s = .next t ∧ t = { s with hif := { s.hif with funcs := t.hif.funcs }, sent := t.sent } ∧
        t.sent = .aer (reqFn a.who) :: .ur a.who a.off.toNat :: s.sent ∧
        (vget t.hif.funcs (reqFn a.who) (Func.reset 0)).aer = (vget s.hif.funcs (reqFn a.who) (Func.reset 0)).aer ||| word (2 ^ 20) ∧
        ∀ f, f ≠ reqFn a.who → vget t.hif.funcs f (Func.reset 0) = vget s.hif.funcs f (Func.reset 0)) ∧
    (∀ (a : Access) (o : Nat), barServes s a.who = true → a.value = none → viewOff a.who a.off.toNat = some o → holdsReg s o = true →
      (domReady s (regDomain o) = true → (∀ w, w ∈ s.pwr.waiting → w.1 ≠ regDomain o) → o ≠ 0x50000 → o ≠ 0x50054 →
        pairLow o = false → lookup s.hif.latchPcie o = none →
        exec (.domainWakeOnAccess a) s = .next { s with
          sent := .readAnswer a.who a.off.toNat (if otherPort a.who o then 0 else readReg s o) :: s.sent }) ∧
      (domReady s (regDomain o) = false → (regDomain o ≠ .upl ∨ s.pwr.state ≠ .waking) →
        exec (.domainWakeOnAccess a) s = .next { s with pwr := { s.pwr with waiting := s.pwr.waiting ++ [(regDomain o, a)] } })) ∧
    (∀ d, ((∀ w, w ∈ s.pwr.waiting → w.1 ≠ d) ∨ canReady s d = false) → exec (.domainReady d) s = .next s) ∧
    (∀ d w, w ∈ s.pwr.waiting → w.1 = d → canReady s d = true →
      ∃ t, exec (.domainReady d) s = .next t ∧ ∀ x, x ∈ t.pwr.waiting → x.1 ≠ d) ∧
    (∀ d, s.pwr.woken.contains d = true → (∀ w, w ∈ s.pwr.waiting → w.1 ≠ d) → ∃ t, exec (.lingerExpiry d) s = .next t ∧ d ∉ t.pwr.woken ∧
      t.datum = s.datum ∧ (d = .core → t = { s with pwr := { s.pwr with woken := s.pwr.woken.filter (fun x => x != .core) } })) ∧
    (∀ who b off, ∃ t, exec (.unsupportedAccessWidth who b off) s = .next t ∧
      t = { s with hif := { s.hif with funcs := t.hif.funcs }, sent := t.sent } ∧
      t.sent = .aer (reqFn who) :: .ur who off.toNat :: s.sent) ∧
    (∀ (f : Fn) b off, ∃ t, exec (.poisonedWrite f b off) s = .next t ∧
      t = { s with hif := { s.hif with funcs := t.hif.funcs }, sent := .aer f.val :: s.sent } ∧
      (vget t.hif.funcs f.val (Func.reset 0)).aer = (vget s.hif.funcs f.val (Func.reset 0)).aer ||| word (2 ^ 12))

/-- R11, R12, R373, R375, R381: an offset with no register takes no write; a PF register takes the PF's write and denies firmware's with FW_WRITE_DENIED; a locked register is unchanged with LOCKED_WRITE; firmware's registers ignore PCIe writes; LOCK_ALL sets the five LOCK bits alone; and a VF's view reaches its own channel alone. R38, R313, Table 02.10: the enables of a function change that function alone, messages held while Bus Master Enable was clear being sent once it is set; a change of VF Enable or NumVFs moves the channels' rings between their VF and the PF with the default vector of their new owner, keeping their counters; a return to D0 in ENTERING abandons the entry. -/
def Obligations.RegistersAndEnablesByAccessType : Prop :=
  ((∀ (s : State) (who : Requester) (off : BitVec 22) (v : Word) (o : Nat), barServes s who = true → s.pwr.state ≠ .entering →
    viewOff who off.toNat = some o → holdsReg s o = false → exec (.registerWrite who off v) s = .next s) ∧
  (∀ (s : State) (v : Word), s.pwr.testEn = false → barServes s .pf = true → s.pwr.state ≠ .entering → s.pwr.waiting = [] →
    (∀ (q : Fin 64) (off : BitVec 22), s.pwr.domHif = true → off.toNat = 0x70400 + 4 * q.val →
      exec (.registerWrite .pf off v) s = .next { s with xc := { s.xc with tcq := vset s.xc.tcq q.val (v &&& 0x801F07FF) } }) ∧
    (∀ cp, exec (.registerWrite (.fw cp) 0x30008 v) s = .next (raise s Src.fwWriteDenied 0xFF 0x30008)) ∧
    (s.pwr.domUpl = true → s.upl.lock = true →
      exec (.registerWrite .pf 0x60010 v) s = .next (raise s Src.lockedWrite 0xFF 0x60010)) ∧
    (s.pwr.domUpl = true → exec (.registerWrite .pf 0x6001C v) s = .next s ∧
      ∀ cp, exec (.registerWrite (.fw cp) 0x6001C v) s = .next { s with upl := { s.upl with allocMask := v } }) ∧
    (exec (.registerWrite .pf 0x30018 v) s = .next { s with pwr := { s.pwr with alarm := v } })) ∧
  (∀ s : State, exec (.lockAll .pf) s = .next { s with
      rad := { s.rad with lock := true }, sup := { s.sup with lock := true }, sec := { s.sec with lock := true },
      upl := { s.upl with lock := true }, hif := { s.hif with lock := true } } ∧
    ∀ cp, exec (.lockAll (.fw cp)) s = .next (raise s Src.fwWriteDenied 0xFF 0x40)) ∧
  (∀ (c : Ch) (off o : Nat), off < 2 ^ 22 → viewOff (.vf c) off = some o →
    o / 0x10000 = 0x10 + c.val ∨ (0x12000 + 0x20 * (16 + 6 * c.val) ≤ o ∧ o < 0x12000 + 0x20 * (22 + 6 * c.val)) ∨
      (0x13400 + 4 * (16 + 6 * c.val) ≤ o ∧ o < 0x13400 + 4 * (22 + 6 * c.val)) ∨ o / 0x1000 = 0x400 + c.val)) ∧
  (∀ s : State, configServed s = true →
    (∀ (f : Fn) (dc : DevCtl), (dc.bme = false ∨ s.ledger.waiting = []) → ∃ t, exec (.busMasterEnableChange f dc) s = .next t ∧
      t = { s with hif := t.hif, sent := t.sent } ∧
      (vget t.hif.funcs f.val (Func.reset 0)).bme = dc.bme ∧ (vget t.hif.funcs f.val (Func.reset 0)).cto = dc.cto ∧
      t.hif.mps256 = (if f.val ≠ 0 then s.hif.mps256 else if dc.mps = 0 then false else if dc.mps = 1 then true else s.hif.mps256) ∧
      (∀ g, g ≠ f.val → vget t.hif.funcs g (Func.reset 0) = vget s.hif.funcs g (Func.reset 0)) ∧
      (∀ v e, dc.bme = true → v < 64 → (vget s.hif.funcs f.val (Func.reset 0)).pba.getLsbD v = true →
        (vget s.hif.funcs f.val (Func.reset 0)).table[v]? = some e → e.ctrl.getLsbD 0 = false →
        Out.msix f.val v ∈ t.sent ∧ (vget t.hif.funcs f.val (Func.reset 0)).pba.getLsbD v = false)) ∧
    (∀ (f : Fn) (on : Bool), ∃ t, exec (.memorySpaceEnableChange f on) s = .next t ∧
      t = { s with hif := { s.hif with funcs := t.hif.funcs } } ∧
      vget t.hif.funcs f.val (Func.reset 0) = { vget s.hif.funcs f.val (Func.reset 0) with mse := on } ∧
      ∀ g, g ≠ f.val → vget t.hif.funcs g (Func.reset 0) = vget s.hif.funcs g (Func.reset 0)) ∧
    (∀ enable n, ∃ t, exec (.vfEnableWrite enable n) s = .next t ∧ t = { s with hif := t.hif, rings := t.rings } ∧ SameCounters s t ∧
      t.hif.vfEnable = enable ∧ t.hif.numVfs = n ∧
      (∀ c, vfOn t c = (enable && decide (c < n.toNat) && decide (c < s.part.channels))) ∧
      (∀ r c, ringChan r = some c → ringOwner t r = if vfOn t c then c + 1 else 0) ∧
      ∀ r, r < 160 → (ringAt t r).vector =
        if ringOwner s r = ringOwner t r then (ringAt s r).vector else defaultVector r (ringOwner t r != 0)) ∧
    (∀ (f : Fn) (d3 : Bool), ∃ t, exec (.configPowerStateWrite f d3) s = .next t ∧ SameCounters s t ∧ t.chans = s.chans ∧
      (vget t.hif.funcs f.val (Func.reset 0)).d3hot = d3 ∧
      (s.pwr.state ≠ .entering → t = { s with hif := { s.hif with funcs := t.hif.funcs } }) ∧
      (s.pwr.state = .entering → (vget s.hif.funcs f.val (Func.reset 0)).d3hot = true → d3 = false →
        t.pwr.state = .run ∧ t.pwr.why = 3))) ∧
  (∀ s : State, configServed s = false →
    (∀ f dc, exec (.busMasterEnableChange f dc) s = .next s) ∧ (∀ f on, exec (.memorySpaceEnableChange f on) s = .next s) ∧
    (∀ enable n, exec (.vfEnableWrite enable n) s = .next s) ∧ ∀ f d3, exec (.configPowerStateWrite f d3) s = .next s)

/-- R365, R367, R368, R371, R372: firmware alone raises a soft event, which sets its pending bit and, routed to ring 2, is stored with its value and datum unless it merges; a counter's configuration that it cannot take is ignored whole with BAD, a new SOURCE, SCOPE or MODE and CLR set its value to 0, and each microsecond a DURATION counter rises by the scopes whose level is high. -/
def Obligations.EventsRaisedAndCounted : Prop :=
  ∀ s : State,
    (∀ cp v, ∃ t, exec (.evtSoft (.fw cp) v) s = .next t ∧ t = { s with hif := t.hif, evt := t.evt, sent := t.sent } ∧
      (vget t.evt.intPend 2 0).getLsbD (28 + bits v 31 30) = true ∧
      (vget s.evt.record (92 + bits v 31 30) false = true → (ringAt s 2).enable = true → s.evt.store.length < 256 →
        (∀ r, r ∈ s.evt.store → mergeable (92 + bits v 31 30) 0xFF r = false) →
        ∃ r, r ∈ t.evt.store ∧ r.source = 92 + bits v 31 30 ∧ r.scope = 0xFF ∧ r.info1 = word (bits v 29 0) ∧ r.at_ = s.datum ∧
          r.merged = 0)) ∧
    (∀ v, exec (.evtSoft .pf v) s = .next s) ∧
    (∀ (who : Requester) (k : CntSel) (v : Word), reachesCounter s who k = true →
      (∃ t, exec (.eventCounterConfig who k v) s = .next t ∧ t = { s with evt := { s.evt with pf := t.evt.pf, ch := t.evt.ch } } ∧
        (∀ j, j ≠ k → counterAt t j = counterAt s j) ∧
        (cfgOk s (isPfCounter k) (cfgOf v (counterAt s k)) = false → (counterAt s k).enable ≠ bitOf v 31 →
          counterAt t k = { counterAt s k with bad := true }) ∧
        (cfgOk s (isPfCounter k) (cfgOf v (counterAt s k)) = true →
          (counterAt t k).enable = bitOf v 31 ∧ (counterAt t k).mode.toNat = bits v 30 29 ∧ (counterAt t k).source.toNat = bits v 6 0 ∧
          ((bitOf v 26 = true ∨ (isPfCounter k = true ∧ (counterAt s k).scope.toNat ≠ bits v 15 8) ∨ (counterAt s k).mode.toNat ≠ bits v 30 29 ∨ (counterAt s k).source.toNat ≠ bits v 6 0) →
            (counterAt t k).value = 0))) ∧
      ∃ t, exec (.eventCounterClear who k) s = .next t ∧ t = { s with evt := { s.evt with pf := t.evt.pf, ch := t.evt.ch } } ∧
        counterAt t k = { counterAt s k with value := 0, period := [] } ∧ ∀ j, j ≠ k → counterAt t j = counterAt s j) ∧
    (∃ t, exec .counterDurationTick s = .next t ∧ t = { s with hif := t.hif, evt := t.evt, sent := t.sent } ∧
      ∀ i, i < 32 →
        ((vget s.evt.pf i Counter.reset).enable = false → vget t.evt.pf i Counter.reset = vget s.evt.pf i Counter.reset) ∧
        ((vget s.evt.pf i Counter.reset).enable = true → isLevelSource (vget s.evt.pf i Counter.reset).source.toNat = true →
          (vget s.evt.pf i Counter.reset).mode = 1 → (vget t.evt.pf i Counter.reset).value =
            (vget s.evt.pf i Counter.reset).value + BitVec.ofNat 48 (highScopes s (vget s.evt.pf i Counter.reset) none).length))

/-- R356, R357, R361 to R363, R405: a select period begins after a high level of 20 ns, each header shifts the status word out and starts a new report, an arming is used by the header after it or lost with ARM_ERR, another opcode is ignored with OPC_ERR, and the end of the period keeps the count of its words. R358 to R361: a READ's data words shift out the captured registers in order without waking a domain, a WRITE reaches the management registers alone and is otherwise WR_DENIED, and an armed register acts only on a word whose upper half is the complement of its lower. -/
def Obligations.ManagementPortFollowed : Prop :=
  (∀ s : State, s.pwr.state ≠ .off →
    (∀ sck high, s.mgt.selected = false → 20 ≤ high → exec (.ahnairSelectFall sck high) s = .next { s with mgt := { s.mgt with
      selected := true, spiMode3 := sck, mode := .header, armed := none, words := 0, allOnes := decide (high < 100), capture := 0 } }) ∧
    (∀ sck high, (s.mgt.selected = true ∨ high < 20) → exec (.ahnairSelectFall sck high) s = .next s) ∧
    (∀ n, s.mgt.selected = true → ∃ t, exec (.ahnairSelectRise n) s = .next t ∧
      t = { s with mgt := t.mgt, hif := t.hif, evt := t.evt, sent := t.sent } ∧ t.mgt.selected = false ∧ t.mgt.armed = none ∧
      t.mgt.lastWords = BitVec.ofNat 8 (min s.mgt.words 255) ∧ (n % 32 ≠ 0 → t.mgt.partial_ = true) ∧
      (s.mgt.armed ≠ none → t.mgt.armErr = true) ∧
      (n % 32 = 0 → s.mgt.mode = .header → s.mgt.armed = none → t.mgt.errs = s.mgt.errs)) ∧
    (s.mgt.selected = true → s.mgt.mode = .header →
      (s.mgt.armed = none →
        exec .status s = .next { s with
          sent := .miso (statusWord s) :: s.sent, mgt := { s.mgt with errs := 0, allOnes := false, words := s.mgt.words + 1 } } ∧
        (∀ a, exec (.read a) s = .next { s with
          sent := .miso (statusWord s) :: s.sent, mgt := { s.mgt with errs := 0, allOnes := false, words := s.mgt.words + 1, mode := .reading a.toNat, capture := 0xFFFFFFFF } }) ∧
        (∀ a, exec (.write a) s = .next { s with
          sent := .miso (statusWord s) :: s.sent, mgt := { s.mgt with errs := 0, allOnes := false, words := s.mgt.words + 1, mode := .writing a.toNat } }) ∧
        (∀ a, exec (.arm a) s = .next { s with
          sent := .miso (statusWord s) :: s.sent, mgt := { s.mgt with errs := 0, allOnes := false, words := s.mgt.words + 1, armed := some a.toNat } })) ∧
      (∀ a : BitVec 24, s.mgt.armed = some a.toNat → (armedReg a.toNat).isSome = true →
        exec (.write a) s = .next { s with
          sent := .miso (statusWord s) :: s.sent, mgt := { s.mgt with errs := 0, allOnes := false, words := s.mgt.words + 1, mode := .armedFirst a.toNat, armed := none } }) ∧
      (∀ (a : BitVec 24) (b : Nat), s.mgt.armed = some b → b ≠ a.toNat → ∃ t, exec (.write a) s = .next t ∧
        t.mgt.mode = .writing a.toNat ∧ t.mgt.armErr = true ∧ t.mgt.armed = none) ∧
      (∀ h, knownOpcode h = false → ∃ t, exec (.ahnairUnknownOpcode h) s = .next t ∧ t.mgt.mode = .ignore ∧ t.mgt.opcErr = true ∧
        t = { s with mgt := t.mgt, hif := t.hif, evt := t.evt, sent := t.sent }))) ∧
  (∀ (s : State) (v : Word), s.pwr.state ≠ .off → s.mgt.selected = true →
    (∀ a, s.mgt.mode = .reading a → ∃ t, exec (.ahnairDataWord v) s = .next t ∧
      t = { s with mgt := t.mgt, hif := t.hif, time := t.time, evt := t.evt, sent := t.sent } ∧ t.mgt.mode = .reading (a + 1) ∧
      t.mgt.words = s.mgt.words + 1 ∧ Out.miso s.mgt.capture ∈ t.sent ∧
      (0x0FFFFF < a → t.mgt.capture = 0 ∧ t.mgt.addrErr = true)) ∧
    (∀ a, s.mgt.mode = .writing a → ∃ t, exec (.ahnairDataWord v) s = .next t ∧
      t = { s with mgt := t.mgt, hif := t.hif, evt := t.evt, sent := t.sent } ∧ t.mgt.mode = .writing (a + 1) ∧
      (∀ i, i < 3 → a = 0x34004 + i → vget t.evt.intEn i 0 = v ∧ t.mgt.errs = s.mgt.errs) ∧
      (∀ i, i < 3 → a = 0x34008 + i → vget t.evt.intPend i 0 = vget s.evt.intPend i 0 &&& ~~~v) ∧
      (a < 0x34000 → (armedReg a).isSome = false → t.mgt.wrDenied = true ∧ t.evt.intEn = s.evt.intEn) ∧
      ((armedReg a).isSome = true → t.mgt.armErr = true)) ∧
    (∀ a r, s.mgt.mode = .armedFirst a → armedReg a = some r → bits v 31 16 + bits v 15 0 ≠ 0xFFFF →
      ∃ t, exec (.ahnairDataWord v) s = .next t ∧ t = { s with mgt := t.mgt, hif := t.hif, evt := t.evt, sent := t.sent } ∧
        t.mgt.armErr = true ∧ t.mgt.mode = .armedDone) ∧
    (∀ a c, s.mgt.mode = .armedFirst a → armedReg a = some (.feedCtl c) → bits v 31 16 + bits v 15 0 = 0xFFFF → present s c = true →
      ∃ t, exec (.ahnairDataWord v) s = .next t ∧ (chanAt t c).feed.bmcOff = bitOf v 1 ∧ t.rings = s.rings) ∧
    (s.mgt.mode = .ignore → exec (.ahnairDataWord v) s = .next { s with mgt := { s.mgt with words := s.mgt.words + 1 } }) ∧
    (s.mgt.mode = .armedDone → ∃ t, exec (.ahnairDataWord v) s = .next t ∧ t.mgt.armErr = true ∧ t.mgt.mode = .armedDone))

/-- Tables 17.2 to 17.13: the registers right after POWER-ON read as the tables give; and the state after POWER-ON keeps its root key (R243), has its gate NOT_ASSIGNED (R115) and no command waiting. R388, R390: each channel's signals stand at its balls, channel 12 + k mirroring channel k, and the centre field alternates its supplies. -/
def Obligations.ResetReadsAsTheTablesGive : Prop :=
  (∀ p, p ∈ [(0x30000, 0x00008100), (0x30004, 0x00000001), (0x30008, 0x0064640A), (0x3000C, 0), (0x30010, 0x00000136),
      (0x30014, 0x00000005), (0x30018, 0), (0x50014, 0x4000000A), (0x50020, 0x138801F4), (0x50024, 0x000003E8), (0x50050, 0x00000064),
      (0x50200, 0x78000000), (0xA000C, 0x00AA3C32), (0xA0010, 0xC84B1000), (0xA0014, 0x00000384), (0xD0000, 0xA7000000),
      (0x80004, 0x00002000), (0x60000, 0x000003FF), (0x60010, 0x97E00008), (0x60014, 0x00002020), (0x60020, 0x20000000),
      (0x90000, 0x00000004), (0x90010, 0xFFFFFFFF), (0x90020, 0xABAB8958), (0x90024, 0x000E0008), (0xC0004, 0x00000258),
      (0xC0020, 0x000003E8), (0xC002C, 0x00000033), (0xB0400, 0x0000FF00)] →
    (readReg State.reset p.1).toNat = p.2) ∧
  (∀ c, c < 24 → (readReg State.reset (0x100000 + 0x10000 * c)).toNat = 0 ∧
    (readReg State.reset (0x100004 + 0x10000 * c)).toNat = 0xFFFFFFFF ∧ (readReg State.reset (0x100144 + 0x10000 * c)).toNat = 0x10 ∧
    (readReg State.reset (0x100380 + 0x10000 * c)).toNat = 0xFF00) ∧
  (∀ r, r < 160 → (ringAt State.reset r).acc = 0xFFFFFFFF ∧ (ringAt State.reset r).cpl = 0xFFFFFFFF ∧
    (ringAt State.reset r).modCount = 1 ∧ (ringAt State.reset r).modTime = 0) ∧
  RootKeyHeld State.reset ∧ State.reset.upl.gate = .notAssigned ∧ State.reset.pending = [] ∧
  (∀ k, k < 12 →
    [ballAt (3 * k + 1) 1, ballAt (3 * k + 1) 2, ballAt (3 * k + 1) 4, ballAt (3 * k + 1) 5, ballAt (3 * k + 2) 2, ballAt (3 * k + 2) 3,
      ballAt (3 * k + 2) 4] = [Signal.lnTxP k, .lnTxN k, .lnRxP k, .lnRxN k, .drvEn k, .feedGate k, .feedIsns k].map Ball.signal ∧
    [ballAt (3 * k + 1) 35, ballAt (3 * k + 1) 34, ballAt (3 * k + 1) 32, ballAt (3 * k + 1) 31, ballAt (3 * k + 2) 34,
      ballAt (3 * k + 2) 33, ballAt (3 * k + 2) 32] =
      [Signal.lnTxP (12 + k), .lnTxN (12 + k), .lnRxP (12 + k), .lnRxN (12 + k), .drvEn (12 + k), .feedGate (12 + k),
        .feedIsns (12 + k)].map Ball.signal) ∧
  (∀ i c, 5 ≤ i → i ≤ 31 → 7 ≤ c → c ≤ 29 → ballAt i c = .supply (if (i + c) % 2 = 0 then .vss
    else if c = 7 ∨ c = 8 ∨ c = 28 ∨ c = 29 then .vddAfe else if c ≤ 18 then .vddCore else .vddCh))

/-- R241, R243: slot 0 is loaded at POWER-ON, and no command clears it, gives it another key, kind or owner, or lets it be exported. -/
def Obligations.EveryCommandKeepsTheRootKey : Prop :=
  (∀ (c : Instr) (s t : State), RootKeyHeld s → exec c s = .next t → RootKeyHeld t) ∧
  ∀ s t : State, RootKeyHeld s → step s = .next t → RootKeyHeld t

/-- R113, R115: from STOPPED the gate leaves only by a Disable_Serial_Number or a POWER-ON (its own command, a brown-out of AON, or WAKE in OFF); every other command, DEVICE reset and power state leaves it STOPPED. -/
def Obligations.StoppedGateLeavesOnlyByEnableOrPowerOn : Prop :=
  ∀ (c : Instr) (s t : State), s.upl.gate = .stopped → exec c s = .next t →
    t.upl.gate = .stopped ∨ c = .powerOn ∨ c = .aonBrownOut ∨ (c = .wakePin ∧ s.pwr.state = .off) ∨
      ∃ m o hi lo, c = .disableSerialNumber m o hi lo ∧ o ≠ .disable ∧ (o = .enable → snMatch s hi lo = true)

/-- The queue of waiting commands and the part fuse are no command's to change: the model's own queue discipline (log 3) and R376. A command whose operands are well formed completes in every state: whatever it finds, it ends in a next state and neither faults nor is refused. -/
def Obligations.CommandsCompleteAndKeepQueue : Prop :=
  (∀ (c : Instr) (s t : State), exec c s = .next t → t.pending = s.pending ∧ t.part = s.part) ∧
  (∀ (c : Instr) (s : State), c.wf = true → ∃ t, exec c s = .next t)

/-- A terminal that is sent well-formed commands runs on for any number of steps. -/
def Obligations.NoRunOfWellFormedCommandsStops : Prop :=
  ∀ (n : Nat) (s : State), (∀ c, c ∈ s.pending → c.wf = true) → RunsFor n s

/-- R38, R373, R375: a write through a VF's view reaches that channel alone: every other channel, every ring that is not the channel's, every other function, the windows, the PF's counters and the other channels' counters and event bits stay, as does all that no channel owns. -/
def Obligations.VfWriteReachesItsChannelAlone : Prop :=
  ∀ (s : State) (c : Ch) (off : BitVec 22) (v : Word), s.pwr.state ≠ .entering →
    ∃ t, exec (.registerWrite (.vf c) off v) s = .next t ∧ OnlyChan s t c.val ∧
      (∀ r, ringChan r ≠ some c.val → ringAt t r = ringAt s r) ∧
      t = { s with chans := t.chans, rings := t.rings, hif := t.hif, evt := t.evt, sent := t.sent, pwr := t.pwr } ∧
      t.hif = { s.hif with funcs := t.hif.funcs } ∧
      (∀ f, f ≠ c.val + 1 → vget t.hif.funcs f (Func.reset 0) = vget s.hif.funcs f (Func.reset 0)) ∧
      t.evt = { s.evt with chStat := t.evt.chStat, ch := t.evt.ch } ∧
      (∀ x, x ≠ c.val → vget t.evt.chStat x 0 = vget s.evt.chStat x 0) ∧
      (∀ (x : Ch) (j : Fin 4), x ≠ c → counterAt t (.ch x j) = counterAt s (.ch x j)) ∧
      t.pwr = { s.pwr with waiting := t.pwr.waiting }

/-- R72: while LEDG_STAT.STATE is other than ACTIVE the grant of the arbiter does nothing, and no command begins a fetch on any ring, nor fetches the descriptor of accepted work again. -/
def Obligations.NoFetchUnlessLedgerActive : Prop :=
  ∀ s : State, ledgerState s ≠ 1 →
    exec .descriptorFetch s = .next s ∧
    ∀ (c : Instr) (t : State) (r : Nat), exec c s = .next t → ((ringAt s r).fetch = none → (ringAt t r).fetch = none) ∧
      ((ringAt s r).refetch = none → (ringAt t r).refetch = none)

/-- R233: a read of DATUM_NS over PCI Express or by firmware answers the nanoseconds of the datum and latches it; DATUM_SEC_LO, DATUM_SEC_HI and DATUM_FRAC read the instant latched; and no command but such a read, one that waited, or a POWER-ON changes the instant latched. -/
def Obligations.DatumReadLatchesItsOtherRegisters : Prop :=
  (∀ (s : State) (who : Requester), (who = .pf ∨ isFw who = true) → s.pwr.testEn = false → barServes s who = true → s.pwr.waiting = [] →
    exec (.domainWakeOnAccess { who := who, off := 0x50000, value := none }) s = .next { s with
      time := { s.time with latch := s.datum }
      sent := .readAnswer who 0x50000 (word (instNsPart s.datum)) :: s.sent }) ∧
  (∀ s : State, readReg s 0x50004 = word (instSec s.time.latch) ∧ readReg s 0x50008 = word (instSec s.time.latch / 2 ^ 32) ∧
    readReg s 0x5000C = word (instFrac s.time.latch)) ∧
  ∀ (c : Instr) (s t : State), exec c s = .next t →
    t.time.latch = s.time.latch ∨ c = .powerOn ∨ c = .aonBrownOut ∨ c = .wakePin ∨ (∃ d, c = .domainReady d) ∨
      ∃ a, c = .domainWakeOnAccess a ∧ a.value = none ∧ viewOff a.who a.off.toNat = some 0x50000

/-- R362: select rises with a word incomplete: its bits are discarded and PARTIAL is set, whatever their number; with no word incomplete PARTIAL stays. What was committed before stays: beside the port's own state only the event of the error changes. -/
def Obligations.IncompleteWordDiscarded : Prop :=
  ∀ (s : State) (bits : Nat), portLive s = true → s.mgt.selected = true →
    ∃ t, exec (.ahnairSelectRise bits) s = .next t ∧ t.mgt.selected = false ∧ t.mgt.mode = .header ∧
      t.mgt.partial_ = (s.mgt.partial_ || decide (bits % 32 ≠ 0)) ∧
      t = { s with mgt := t.mgt, evt := t.evt, hif := { s.hif with funcs := t.hif.funcs }, sent := t.sent } ∧
      (bits % 32 = 0 → s.mgt.armed = none → (∀ a, s.mgt.mode ≠ .armedFirst a) → t.evt = s.evt ∧ t.hif = s.hif ∧ t.sent = s.sent)

/-- R385: a read that succeeds sets VALID with its value, and one that fails clears VALID of its register alone; and no DIAG register is VALID while the module is absent or the uplink's domain is off, in every state that a step reaches from one where that holds. -/
def Obligations.DiagnosticValidOnlyAfterGoodRead : Prop :=
  (∀ (s : State) (i : Fin 5), ∃ t, exec (.i2cStretchTimeout i) s = .next t ∧
    (readReg t (0x60054 + 4 * i.val)).getLsbD 31 = false ∧
    ∀ j : Fin 5, j ≠ i → readReg t (0x60054 + 4 * j.val) = readReg s (0x60054 + 4 * j.val)) ∧
  (∀ (s : State) (vals : Vector (Option Half) 5) a0h user (i : Fin 5) (v : Half), s.pwr.domUpl = true → s.upl.modAbs = false →
    vget vals i.val none = some v → ∃ t, exec (.opticsDiagPoll ⟨vals, a0h, user⟩) s = .next t ∧
      readReg t (0x60054 + 4 * i.val) = BitVec.ofNat 32 (2 ^ 31 + v.toNat)) ∧
  (∀ (s : State) (vals : Vector (Option Half) 5) a0h user (i : Fin 5), s.pwr.domUpl = true → vget vals i.val none = none →
    ∃ t, exec (.opticsDiagPoll ⟨vals, a0h, user⟩) s = .next t ∧ (readReg t (0x60054 + 4 * i.val)).getLsbD 31 = false) ∧
  ∀ (c : Instr) (s t : State), NoDiagWhileAbsent s → exec c s = .next t → NoDiagWhileAbsent t

/-- R55: but for a reset, which leaves every window at its reset value, and an access that has waited, only a write of the PF changes a window; the PF's write of a window's base takes the page base of both halves and the three enables once its high half is written; firmware's write is ignored with FW_WRITE_DENIED; and once HIF_LOCK.LOCK is set the windows are read-only, with LOCKED_WRITE, and so is the LOCK, until a DEVICE reset or a POWER-ON, which leaves every window at its reset value. -/
def Obligations.WindowsChangedByThePfAlone : Prop :=
  (∀ (c : Instr) (s t : State), s.hif.lock = true → (∀ d, c ≠ .domainReady d) → exec c s = .next t →
    (t.hif.lock = true ∧ t.hif.windows = s.hif.windows) ∨ t.hif.windows = Vector.replicate 25 (Vector.replicate 8 Window.reset)) ∧
  (∀ (c : Instr) (s t : State), exec c s = .next t → t.hif.windows = s.hif.windows ∨
    t.hif.windows = Vector.replicate 25 (Vector.replicate 8 Window.reset) ∨ (∃ off v, c = .registerWrite .pf off v) ∨
      (∃ a, c = .domainWakeOnAccess a ∧ a.who = .pf ∧ a.value ≠ none) ∨ ∃ d, c = .domainReady d) ∧
  ∀ (s : State) (f w : Nat) (v : Word) (off : BitVec 22), s.pwr.testEn = false → s.pwr.domHif = true → s.pwr.waiting = [] → s.pwr.state ≠ .entering →
    f ≤ s.part.channels → w < 8 →
    (∀ (cp : Fin 2) (k : Nat), k < 4 → off.toNat = 0x11000 + 0x80 * f + 0x10 * w + 4 * k →
      exec (.registerWrite (.fw cp) off v) s = .next (raise s Src.fwWriteDenied 0xFF (word off.toNat))) ∧
    (barServes s .pf = true → s.hif.lock = true →
      (∀ k, k < 4 → off.toNat = 0x11000 + 0x80 * f + 0x10 * w + 4 * k →
        exec (.registerWrite .pf off v) s = .next (raise s Src.lockedWrite 0xFF (word off.toNat))) ∧
      (off.toNat = 0x10004 → exec (.registerWrite .pf off v) s = .next (raise s Src.lockedWrite 0xFF 0x10004))) ∧
    (barServes s .pf = true → s.hif.lock = false → ∀ low, off.toNat = 0x11004 + 0x80 * f + 0x10 * w →
      lookup s.hif.winLo (off.toNat - 4) = some low →
      ∃ t, exec (.registerWrite .pf off v) s = .next t ∧ t = { s with hif := t.hif } ∧
        (let x := vget (vget t.hif.windows f (Vector.replicate 8 Window.reset)) w Window.reset
         x.base.toNat = v.toNat * 2 ^ 20 + low.toNat / 2 ^ 12 ∧ x.write = low.getLsbD 2 ∧ x.read = low.getLsbD 1 ∧
           x.enable = low.getLsbD 0 ∧
           x.limit = (vget (vget s.hif.windows f (Vector.replicate 8 Window.reset)) w Window.reset).limit) ∧
        ∀ g y, (g, y) ≠ (f, w) → vget (vget t.hif.windows g (Vector.replicate 8 Window.reset)) y Window.reset =
          vget (vget s.hif.windows g (Vector.replicate 8 Window.reset)) y Window.reset)
end

