-- ==== Sys2Proof/Laws/Checks.lean ====
section
/-! SUPPORT. Laws: a CRC fits its width, big-endian bytes read back, and what is closed with its own CRC is good: a DTU, a header, a record. -/

namespace Sys2Proof.Machine

open Sys2Proof

theorem crcBit_lt (p c : Nat) (hp : p < 2 ^ 32) (hc : c < 2 ^ 32) : crcBit p c < 2 ^ 32 := by
  unfold crcBit
  split
  · exact Nat.xor_lt_two_pow (by omega) hp
  · omega

theorem crcByte_lt (p c : Nat) (b : Byte) (hp : p < 2 ^ 32) (hc : c < 2 ^ 32) : crcByte p c b < 2 ^ 32 := by
  have hb : b.toNat < 2 ^ 32 := Nat.lt_trans b.isLt (by decide)
  have hx := Nat.xor_lt_two_pow hc hb
  unfold crcByte
  iterate 8 refine crcBit_lt _ _ hp ?_
  exact hx

theorem crcFold_lt (p : Nat) (hp : p < 2 ^ 32) (bs : List Byte) : ∀ c, c < 2 ^ 32 → bs.foldl (crcByte p) c < 2 ^ 32 := by
  induction bs with
  | nil => exact fun c h => h
  | cons b bs ih => exact fun c h => ih _ (crcByte_lt p c b hp h)

theorem crc32c_lt (bs : List Byte) : crc32c bs < 2 ^ 32 :=
  Nat.xor_lt_two_pow (crcFold_lt _ (by decide) bs _ (by decide)) (by decide)

theorem ofBE_bytesBE_four (v : Nat) (h : v < 2 ^ 32) : ofBE (bytesBE 4 v) = v := by
  simp [ofBE, bytesBE, bytesLE]
  omega

/-- The CRC closes a DTU of 444 bytes whose TYPE is 0 or 1 (R160). -/
theorem dtuGood_of_crc (b : List Byte) (hl : b.length = 444) (ht : beAt b 2 1 ≤ 1) :
    dtuGood (b ++ bytesBE 4 (crc32c b)) = true := by
  have h4 : (bytesBE 4 (crc32c b)).length = 4 := by simp [bytesBE, bytesLE]
  have hd : beAt (b ++ bytesBE 4 (crc32c b)) 444 4 = crc32c b := by
    unfold beAt
    rw [← hl, List.drop_left, List.take_of_length_le (by omega), ofBE_bytesBE_four _ (crc32c_lt b)]
  have ht2 : beAt (b ++ bytesBE 4 (crc32c b)) 2 1 = beAt b 2 1 := by
    unfold beAt
    rw [List.drop_append_of_le_length (by omega), List.take_append_of_le_length (by simp; omega)]
  unfold dtuGood
  rw [hd, ht2, ← hl, List.take_left]
  simp [h4, hl, ht]

theorem ofLE_bytesLE_four (v : Nat) (h : v < 2 ^ 32) : ofLE (bytesLE 4 v) = v := by
  simp [ofLE, bytesLE]
  omega

/-- Bytes closed with their CRC have a good closure (R74, R349). -/
theorem closureOk_closed (b : List Byte) (n : Nat) (h : b.length + 4 = n) : closureOk (closed b) n = true := by
  have h4 : (bytesLE 4 (crc32c b)).length = 4 := by simp [bytesLE]
  have hl : leAt (b ++ bytesLE 4 (crc32c b)) (n - 4) 4 = crc32c b := by
    unfold leAt
    rw [show n - 4 = b.length by omega, List.drop_left, List.take_of_length_le (by omega), ofLE_bytesLE_four _ (crc32c_lt b)]
  unfold closureOk closed
  rw [hl, show n - 4 = b.length by omega, List.take_left]
  simp [h4, h]

end Sys2Proof.Machine
end

