-- ==== Sys2Proof/Laws/Vectors.lean ====
section
/-! SUPPORT. Laws of the small vector and list operations: a read after a write, a mapped vector's element, an association list's entry. -/

namespace Sys2Proof.Machine

open Sys2Proof

variable {α β : Type} {n : Nat}

theorem vget_of_lt (v : Vector α n) (i : Nat) (d : α) (h : i < n) : vget v i d = v[i] := by simp [vget, h]

@[simp] theorem vget_past (v : Vector α n) (i : Nat) (d : α) (h : ¬ i < n) : vget v i d = d := by simp [vget, h]

theorem vget_vset (v : Vector α n) (i j : Nat) (x d : α) :
    vget (vset v i x) j d = if i = j ∧ i < n then x else vget v j d := by
  unfold vget vset
  by_cases hi : i < n
  · by_cases hj : j < n
    · simp [hi, hj, Vector.getElem_set]
    · have : ¬ (i = j) := by omega
      simp [hj, this]
  · simp [hi]

theorem vget_vset_self (v : Vector α n) (i : Nat) (x d : α) (h : i < n) : vget (vset v i x) i d = x := by
  simp [vget_vset, h]

theorem vget_vset_ne (v : Vector α n) (i j : Nat) (x d : α) (h : j ≠ i) : vget (vset v i x) j d = vget v j d := by
  rw [vget_vset, if_neg (fun c => h c.1.symm)]

/-- Writing an element that any read at that place already gives changes no read. -/
theorem vget_vset_same (v : Vector α n) (i j : Nat) (d e : α) : vget (vset v i (vget v i e)) j d = vget v j d := by
  unfold vget vset
  by_cases hi : i < n
  · by_cases hj : j < n
    · by_cases hij : i = j <;> simp [hi, hj, hij]
    · simp [hj]
  · simp [hi]

theorem vget_vmapIdx (f : Nat → α → β) (v : Vector α n) (i : Nat) (d : β) (e : α) :
    vget (vmapIdx f v) i d = if i < n then f i (vget v i e) else d := by
  unfold vget vmapIdx
  by_cases h : i < n <;> simp [h]

@[simp] theorem vget_ofFn (f : Fin n → α) (i : Nat) (d : α) (h : i < n) : vget (Vector.ofFn f) i d = f ⟨i, h⟩ := by
  simp [vget, h]

@[simp] theorem vget_replicate (x : α) (i : Nat) (d : α) (h : i < n) : vget (Vector.replicate n x) i d = x := by
  simp [vget, h]

/-- Two vectors that read alike everywhere are the same. -/
theorem vector_ext_vget (v w : Vector α n) (d : α) (h : ∀ i, i < n → vget v i d = vget w i d) : v = w := by
  ext i hi
  have := h i hi
  simpa [vget, hi] using this

theorem without_cons [DecidableEq α] (p : α × β) (t : List (α × β)) (k : α) :
    without (p :: t) k = if p.1 = k then without t k else p :: without t k := by
  by_cases h : p.1 = k <;> simp [without, h]

theorem lookup_without_ne [DecidableEq α] (l : List (α × β)) (k x : α) (h : x ≠ k) : lookup (without l k) x = lookup l x := by
  induction l with
  | nil => rfl
  | cons p t ih =>
    obtain ⟨a, b⟩ := p
    rw [without_cons]
    by_cases ha : a = k
    · simp [lookup, ha, h.symm, ih]
    · simp [lookup, ha, ih]

@[simp] theorem lookup_without_self [DecidableEq α] (l : List (α × β)) (k : α) : lookup (without l k) k = none := by
  induction l with
  | nil => rfl
  | cons p t ih =>
    obtain ⟨a, b⟩ := p
    rw [without_cons]
    by_cases ha : a = k <;> simp [lookup, ha, ih]

@[simp] theorem mapIf_length (p : α → Bool) (f : α → α) (l : List α) : (mapIf p f l).length = l.length := by simp [mapIf]

theorem bytesLE_length (k v : Nat) : (bytesLE k v).length = k := by
  induction k generalizing v with
  | zero => rfl
  | succ k ih => simp [bytesLE, ih]

end Sys2Proof.Machine
end

