-- ==== Sys2Proof/Laws/State.lean ====
section
/-! SUPPORT. Laws of the state's updates: what each named update leaves as it was, field by field, and what it reads back where it wrote. -/

namespace Sys2Proof.Machine

open Sys2Proof

/-! ### Reads after writes -/

theorem ringAt_setRing (s : State) (r x : Nat) (f : Ring → Ring) :
    ringAt (setRing s r f) x = if r = x ∧ r < 160 then f (ringAt s r) else ringAt s x := by
  simp [ringAt, setRing, vget_vset]

theorem ringAt_setRing_self (s : State) (r : Nat) (f : Ring → Ring) (h : r < 160) : ringAt (setRing s r f) r = f (ringAt s r) := by
  simp [ringAt_setRing, h]

theorem ringAt_setRing_ne (s : State) (r x : Nat) (f : Ring → Ring) (h : x ≠ r) : ringAt (setRing s r f) x = ringAt s x := by
  rw [ringAt_setRing, if_neg (fun c => h c.1.symm)]

theorem ringAt_mapRings (s : State) (r : Nat) (f : Nat → Ring → Ring) :
    ringAt (mapRings s f) r = if r < 160 then f r (ringAt s r) else Ring.reset r := by
  simp only [ringAt, mapRings]; rw [vget_vmapIdx]

theorem chanAt_setChan (s : State) (c x : Nat) (f : Chan → Chan) :
    chanAt (setChan s c f) x = if c = x ∧ c < 24 then f (chanAt s c) else chanAt s x := by
  unfold chanAt setChan; rw [vget_vset]; rfl

theorem chanAt_setChan_self (s : State) (c : Nat) (f : Chan → Chan) (h : c < 24) : chanAt (setChan s c f) c = f (chanAt s c) := by
  simp [chanAt_setChan, h]

theorem chanAt_setChan_ne (s : State) (c x : Nat) (f : Chan → Chan) (h : x ≠ c) : chanAt (setChan s c f) x = chanAt s x := by
  rw [chanAt_setChan, if_neg (fun e => h e.1.symm)]

theorem slotAt_setSlot (s : State) (i x : Nat) (f : Slot → Slot) :
    slotAt (setSlot s i f) x = if i = x ∧ i < 64 then f (slotAt s i) else slotAt s x := by
  unfold slotAt setSlot; rw [vget_vset]; rfl

/-- A write past the last ring writes nothing. -/
theorem setRing_past (s : State) (r : Nat) (f : Ring → Ring) (h : ¬ r < 160) : setRing s r f = s := by
  simp [setRing, vset, h]

/-- A write past the last channel writes nothing. -/
theorem setChan_past (s : State) (c : Nat) (f : Chan → Chan) (h : ¬ c < 24) : setChan s c f = s := by
  simp [setChan, vset, h]

/-! ### What each update leaves as it was -/

@[simp] theorem setRing_pending (s : State) (r : Nat) (f : Ring → Ring) : (setRing s r f).pending = s.pending := rfl
@[simp] theorem setRing_part (s : State) (r : Nat) (f : Ring → Ring) : (setRing s r f).part = s.part := rfl
@[simp] theorem setRing_datum (s : State) (r : Nat) (f : Ring → Ring) : (setRing s r f).datum = s.datum := rfl
@[simp] theorem setRing_time (s : State) (r : Nat) (f : Ring → Ring) : (setRing s r f).time = s.time := rfl
@[simp] theorem setRing_hif (s : State) (r : Nat) (f : Ring → Ring) : (setRing s r f).hif = s.hif := rfl
@[simp] theorem setRing_journal (s : State) (r : Nat) (f : Ring → Ring) : (setRing s r f).journal = s.journal := rfl
@[simp] theorem setRing_ledger (s : State) (r : Nat) (f : Ring → Ring) : (setRing s r f).ledger = s.ledger := rfl
@[simp] theorem setRing_recov (s : State) (r : Nat) (f : Ring → Ring) : (setRing s r f).recov = s.recov := rfl
@[simp] theorem setRing_chtabBase (s : State) (r : Nat) (f : Ring → Ring) : (setRing s r f).chtabBase = s.chtabBase := rfl
@[simp] theorem setRing_chtabEn (s : State) (r : Nat) (f : Ring → Ring) : (setRing s r f).chtabEn = s.chtabEn := rfl
@[simp] theorem setRing_chans (s : State) (r : Nat) (f : Ring → Ring) : (setRing s r f).chans = s.chans := rfl
@[simp] theorem setRing_upl (s : State) (r : Nat) (f : Ring → Ring) : (setRing s r f).upl = s.upl := rfl
@[simp] theorem setRing_xc (s : State) (r : Nat) (f : Ring → Ring) : (setRing s r f).xc = s.xc := rfl
@[simp] theorem setRing_sec (s : State) (r : Nat) (f : Ring → Ring) : (setRing s r f).sec = s.sec := rfl
@[simp] theorem setRing_rad (s : State) (r : Nat) (f : Ring → Ring) : (setRing s r f).rad = s.rad := rfl
@[simp] theorem setRing_sup (s : State) (r : Nat) (f : Ring → Ring) : (setRing s r f).sup = s.sup := rfl
@[simp] theorem setRing_pwr (s : State) (r : Nat) (f : Ring → Ring) : (setRing s r f).pwr = s.pwr := rfl
@[simp] theorem setRing_fw (s : State) (r : Nat) (f : Ring → Ring) : (setRing s r f).fw = s.fw := rfl
@[simp] theorem setRing_glb (s : State) (r : Nat) (f : Ring → Ring) : (setRing s r f).glb = s.glb := rfl
@[simp] theorem setRing_evt (s : State) (r : Nat) (f : Ring → Ring) : (setRing s r f).evt = s.evt := rfl
@[simp] theorem setRing_mgt (s : State) (r : Nat) (f : Ring → Ring) : (setRing s r f).mgt = s.mgt := rfl
@[simp] theorem setRing_sent (s : State) (r : Nat) (f : Ring → Ring) : (setRing s r f).sent = s.sent := rfl
@[simp] theorem setRing_free (s : State) (r : Nat) (f : Ring → Ring) : (setRing s r f).free = s.free := rfl
@[simp] theorem chanAt_setRing (s : State) (r : Nat) (f : Ring → Ring) (x : Nat) : chanAt (setRing s r f) x = chanAt s x := rfl
@[simp] theorem slotAt_setRing (s : State) (r : Nat) (f : Ring → Ring) (x : Nat) : slotAt (setRing s r f) x = slotAt s x := rfl

@[simp] theorem mapRings_pending (s : State) (f : Nat → Ring → Ring) : (mapRings s f).pending = s.pending := by simp only [mapRings]
@[simp] theorem mapRings_part (s : State) (f : Nat → Ring → Ring) : (mapRings s f).part = s.part := by simp only [mapRings]
@[simp] theorem mapRings_datum (s : State) (f : Nat → Ring → Ring) : (mapRings s f).datum = s.datum := by simp only [mapRings]
@[simp] theorem mapRings_time (s : State) (f : Nat → Ring → Ring) : (mapRings s f).time = s.time := by simp only [mapRings]
@[simp] theorem mapRings_hif (s : State) (f : Nat → Ring → Ring) : (mapRings s f).hif = s.hif := by simp only [mapRings]
@[simp] theorem mapRings_journal (s : State) (f : Nat → Ring → Ring) : (mapRings s f).journal = s.journal := by simp only [mapRings]
@[simp] theorem mapRings_ledger (s : State) (f : Nat → Ring → Ring) : (mapRings s f).ledger = s.ledger := by simp only [mapRings]
@[simp] theorem mapRings_recov (s : State) (f : Nat → Ring → Ring) : (mapRings s f).recov = s.recov := by simp only [mapRings]
@[simp] theorem mapRings_chtabBase (s : State) (f : Nat → Ring → Ring) : (mapRings s f).chtabBase = s.chtabBase := by simp only [mapRings]
@[simp] theorem mapRings_chtabEn (s : State) (f : Nat → Ring → Ring) : (mapRings s f).chtabEn = s.chtabEn := by simp only [mapRings]
@[simp] theorem mapRings_chans (s : State) (f : Nat → Ring → Ring) : (mapRings s f).chans = s.chans := by simp only [mapRings]
@[simp] theorem mapRings_upl (s : State) (f : Nat → Ring → Ring) : (mapRings s f).upl = s.upl := by simp only [mapRings]
@[simp] theorem mapRings_xc (s : State) (f : Nat → Ring → Ring) : (mapRings s f).xc = s.xc := by simp only [mapRings]
@[simp] theorem mapRings_sec (s : State) (f : Nat → Ring → Ring) : (mapRings s f).sec = s.sec := by simp only [mapRings]
@[simp] theorem mapRings_rad (s : State) (f : Nat → Ring → Ring) : (mapRings s f).rad = s.rad := by simp only [mapRings]
@[simp] theorem mapRings_sup (s : State) (f : Nat → Ring → Ring) : (mapRings s f).sup = s.sup := by simp only [mapRings]
@[simp] theorem mapRings_pwr (s : State) (f : Nat → Ring → Ring) : (mapRings s f).pwr = s.pwr := by simp only [mapRings]
@[simp] theorem mapRings_fw (s : State) (f : Nat → Ring → Ring) : (mapRings s f).fw = s.fw := by simp only [mapRings]
@[simp] theorem mapRings_glb (s : State) (f : Nat → Ring → Ring) : (mapRings s f).glb = s.glb := by simp only [mapRings]
@[simp] theorem mapRings_evt (s : State) (f : Nat → Ring → Ring) : (mapRings s f).evt = s.evt := by simp only [mapRings]
@[simp] theorem mapRings_mgt (s : State) (f : Nat → Ring → Ring) : (mapRings s f).mgt = s.mgt := by simp only [mapRings]
@[simp] theorem mapRings_sent (s : State) (f : Nat → Ring → Ring) : (mapRings s f).sent = s.sent := by simp only [mapRings]
@[simp] theorem mapRings_free (s : State) (f : Nat → Ring → Ring) : (mapRings s f).free = s.free := by simp only [mapRings]
@[simp] theorem chanAt_mapRings (s : State) (f : Nat → Ring → Ring) (x : Nat) : chanAt (mapRings s f) x = chanAt s x := by simp only [chanAt, mapRings]
@[simp] theorem slotAt_mapRings (s : State) (f : Nat → Ring → Ring) (x : Nat) : slotAt (mapRings s f) x = slotAt s x := by simp only [slotAt, mapRings]

@[simp] theorem setWork_pending (s : State) (r : Nat) (q : Word) (f : Work → Work) : (setWork s r q f).pending = s.pending := rfl
@[simp] theorem setWork_part (s : State) (r : Nat) (q : Word) (f : Work → Work) : (setWork s r q f).part = s.part := rfl
@[simp] theorem setWork_datum (s : State) (r : Nat) (q : Word) (f : Work → Work) : (setWork s r q f).datum = s.datum := rfl
@[simp] theorem setWork_time (s : State) (r : Nat) (q : Word) (f : Work → Work) : (setWork s r q f).time = s.time := rfl
@[simp] theorem setWork_hif (s : State) (r : Nat) (q : Word) (f : Work → Work) : (setWork s r q f).hif = s.hif := rfl
@[simp] theorem setWork_journal (s : State) (r : Nat) (q : Word) (f : Work → Work) : (setWork s r q f).journal = s.journal := rfl
@[simp] theorem setWork_ledger (s : State) (r : Nat) (q : Word) (f : Work → Work) : (setWork s r q f).ledger = s.ledger := rfl
@[simp] theorem setWork_recov (s : State) (r : Nat) (q : Word) (f : Work → Work) : (setWork s r q f).recov = s.recov := rfl
@[simp] theorem setWork_chtabBase (s : State) (r : Nat) (q : Word) (f : Work → Work) : (setWork s r q f).chtabBase = s.chtabBase := rfl
@[simp] theorem setWork_chtabEn (s : State) (r : Nat) (q : Word) (f : Work → Work) : (setWork s r q f).chtabEn = s.chtabEn := rfl
@[simp] theorem setWork_chans (s : State) (r : Nat) (q : Word) (f : Work → Work) : (setWork s r q f).chans = s.chans := rfl
@[simp] theorem setWork_upl (s : State) (r : Nat) (q : Word) (f : Work → Work) : (setWork s r q f).upl = s.upl := rfl
@[simp] theorem setWork_xc (s : State) (r : Nat) (q : Word) (f : Work → Work) : (setWork s r q f).xc = s.xc := rfl
@[simp] theorem setWork_sec (s : State) (r : Nat) (q : Word) (f : Work → Work) : (setWork s r q f).sec = s.sec := rfl
@[simp] theorem setWork_rad (s : State) (r : Nat) (q : Word) (f : Work → Work) : (setWork s r q f).rad = s.rad := rfl
@[simp] theorem setWork_sup (s : State) (r : Nat) (q : Word) (f : Work → Work) : (setWork s r q f).sup = s.sup := rfl
@[simp] theorem setWork_pwr (s : State) (r : Nat) (q : Word) (f : Work → Work) : (setWork s r q f).pwr = s.pwr := rfl
@[simp] theorem setWork_fw (s : State) (r : Nat) (q : Word) (f : Work → Work) : (setWork s r q f).fw = s.fw := rfl
@[simp] theorem setWork_glb (s : State) (r : Nat) (q : Word) (f : Work → Work) : (setWork s r q f).glb = s.glb := rfl
@[simp] theorem setWork_evt (s : State) (r : Nat) (q : Word) (f : Work → Work) : (setWork s r q f).evt = s.evt := rfl
@[simp] theorem setWork_mgt (s : State) (r : Nat) (q : Word) (f : Work → Work) : (setWork s r q f).mgt = s.mgt := rfl
@[simp] theorem setWork_sent (s : State) (r : Nat) (q : Word) (f : Work → Work) : (setWork s r q f).sent = s.sent := rfl
@[simp] theorem setWork_free (s : State) (r : Nat) (q : Word) (f : Work → Work) : (setWork s r q f).free = s.free := rfl
@[simp] theorem chanAt_setWork (s : State) (r : Nat) (q : Word) (f : Work → Work) (x : Nat) : chanAt (setWork s r q f) x = chanAt s x := rfl
@[simp] theorem slotAt_setWork (s : State) (r : Nat) (q : Word) (f : Work → Work) (x : Nat) : slotAt (setWork s r q f) x = slotAt s x := rfl

@[simp] theorem setChan_pending (s : State) (c : Nat) (f : Chan → Chan) : (setChan s c f).pending = s.pending := rfl
@[simp] theorem setChan_part (s : State) (c : Nat) (f : Chan → Chan) : (setChan s c f).part = s.part := rfl
@[simp] theorem setChan_datum (s : State) (c : Nat) (f : Chan → Chan) : (setChan s c f).datum = s.datum := rfl
@[simp] theorem setChan_time (s : State) (c : Nat) (f : Chan → Chan) : (setChan s c f).time = s.time := rfl
@[simp] theorem setChan_hif (s : State) (c : Nat) (f : Chan → Chan) : (setChan s c f).hif = s.hif := rfl
@[simp] theorem setChan_rings (s : State) (c : Nat) (f : Chan → Chan) : (setChan s c f).rings = s.rings := rfl
@[simp] theorem setChan_journal (s : State) (c : Nat) (f : Chan → Chan) : (setChan s c f).journal = s.journal := rfl
@[simp] theorem setChan_ledger (s : State) (c : Nat) (f : Chan → Chan) : (setChan s c f).ledger = s.ledger := rfl
@[simp] theorem setChan_recov (s : State) (c : Nat) (f : Chan → Chan) : (setChan s c f).recov = s.recov := rfl
@[simp] theorem setChan_chtabBase (s : State) (c : Nat) (f : Chan → Chan) : (setChan s c f).chtabBase = s.chtabBase := rfl
@[simp] theorem setChan_chtabEn (s : State) (c : Nat) (f : Chan → Chan) : (setChan s c f).chtabEn = s.chtabEn := rfl
@[simp] theorem setChan_upl (s : State) (c : Nat) (f : Chan → Chan) : (setChan s c f).upl = s.upl := rfl
@[simp] theorem setChan_xc (s : State) (c : Nat) (f : Chan → Chan) : (setChan s c f).xc = s.xc := rfl
@[simp] theorem setChan_sec (s : State) (c : Nat) (f : Chan → Chan) : (setChan s c f).sec = s.sec := rfl
@[simp] theorem setChan_rad (s : State) (c : Nat) (f : Chan → Chan) : (setChan s c f).rad = s.rad := rfl
@[simp] theorem setChan_sup (s : State) (c : Nat) (f : Chan → Chan) : (setChan s c f).sup = s.sup := rfl
@[simp] theorem setChan_pwr (s : State) (c : Nat) (f : Chan → Chan) : (setChan s c f).pwr = s.pwr := rfl
@[simp] theorem setChan_fw (s : State) (c : Nat) (f : Chan → Chan) : (setChan s c f).fw = s.fw := rfl
@[simp] theorem setChan_glb (s : State) (c : Nat) (f : Chan → Chan) : (setChan s c f).glb = s.glb := rfl
@[simp] theorem setChan_evt (s : State) (c : Nat) (f : Chan → Chan) : (setChan s c f).evt = s.evt := rfl
@[simp] theorem setChan_mgt (s : State) (c : Nat) (f : Chan → Chan) : (setChan s c f).mgt = s.mgt := rfl
@[simp] theorem setChan_sent (s : State) (c : Nat) (f : Chan → Chan) : (setChan s c f).sent = s.sent := rfl
@[simp] theorem setChan_free (s : State) (c : Nat) (f : Chan → Chan) : (setChan s c f).free = s.free := rfl
@[simp] theorem ringAt_setChan (s : State) (c : Nat) (f : Chan → Chan) (x : Nat) : ringAt (setChan s c f) x = ringAt s x := rfl
@[simp] theorem slotAt_setChan (s : State) (c : Nat) (f : Chan → Chan) (x : Nat) : slotAt (setChan s c f) x = slotAt s x := rfl

@[simp] theorem setTab_pending (s : State) (c : Nat) (f : ChTab → ChTab) : (setTab s c f).pending = s.pending := rfl
@[simp] theorem setTab_part (s : State) (c : Nat) (f : ChTab → ChTab) : (setTab s c f).part = s.part := rfl
@[simp] theorem setTab_datum (s : State) (c : Nat) (f : ChTab → ChTab) : (setTab s c f).datum = s.datum := rfl
@[simp] theorem setTab_time (s : State) (c : Nat) (f : ChTab → ChTab) : (setTab s c f).time = s.time := rfl
@[simp] theorem setTab_hif (s : State) (c : Nat) (f : ChTab → ChTab) : (setTab s c f).hif = s.hif := rfl
@[simp] theorem setTab_rings (s : State) (c : Nat) (f : ChTab → ChTab) : (setTab s c f).rings = s.rings := rfl
@[simp] theorem setTab_journal (s : State) (c : Nat) (f : ChTab → ChTab) : (setTab s c f).journal = s.journal := rfl
@[simp] theorem setTab_ledger (s : State) (c : Nat) (f : ChTab → ChTab) : (setTab s c f).ledger = s.ledger := rfl
@[simp] theorem setTab_recov (s : State) (c : Nat) (f : ChTab → ChTab) : (setTab s c f).recov = s.recov := rfl
@[simp] theorem setTab_chtabBase (s : State) (c : Nat) (f : ChTab → ChTab) : (setTab s c f).chtabBase = s.chtabBase := rfl
@[simp] theorem setTab_chtabEn (s : State) (c : Nat) (f : ChTab → ChTab) : (setTab s c f).chtabEn = s.chtabEn := rfl
@[simp] theorem setTab_upl (s : State) (c : Nat) (f : ChTab → ChTab) : (setTab s c f).upl = s.upl := rfl
@[simp] theorem setTab_xc (s : State) (c : Nat) (f : ChTab → ChTab) : (setTab s c f).xc = s.xc := rfl
@[simp] theorem setTab_sec (s : State) (c : Nat) (f : ChTab → ChTab) : (setTab s c f).sec = s.sec := rfl
@[simp] theorem setTab_rad (s : State) (c : Nat) (f : ChTab → ChTab) : (setTab s c f).rad = s.rad := rfl
@[simp] theorem setTab_sup (s : State) (c : Nat) (f : ChTab → ChTab) : (setTab s c f).sup = s.sup := rfl
@[simp] theorem setTab_pwr (s : State) (c : Nat) (f : ChTab → ChTab) : (setTab s c f).pwr = s.pwr := rfl
@[simp] theorem setTab_fw (s : State) (c : Nat) (f : ChTab → ChTab) : (setTab s c f).fw = s.fw := rfl
@[simp] theorem setTab_glb (s : State) (c : Nat) (f : ChTab → ChTab) : (setTab s c f).glb = s.glb := rfl
@[simp] theorem setTab_evt (s : State) (c : Nat) (f : ChTab → ChTab) : (setTab s c f).evt = s.evt := rfl
@[simp] theorem setTab_mgt (s : State) (c : Nat) (f : ChTab → ChTab) : (setTab s c f).mgt = s.mgt := rfl
@[simp] theorem setTab_sent (s : State) (c : Nat) (f : ChTab → ChTab) : (setTab s c f).sent = s.sent := rfl
@[simp] theorem setTab_free (s : State) (c : Nat) (f : ChTab → ChTab) : (setTab s c f).free = s.free := rfl
@[simp] theorem ringAt_setTab (s : State) (c : Nat) (f : ChTab → ChTab) (x : Nat) : ringAt (setTab s c f) x = ringAt s x := rfl
@[simp] theorem slotAt_setTab (s : State) (c : Nat) (f : ChTab → ChTab) (x : Nat) : slotAt (setTab s c f) x = slotAt s x := rfl

@[simp] theorem setLine_pending (s : State) (c : Nat) (f : Line → Line) : (setLine s c f).pending = s.pending := rfl
@[simp] theorem setLine_part (s : State) (c : Nat) (f : Line → Line) : (setLine s c f).part = s.part := rfl
@[simp] theorem setLine_datum (s : State) (c : Nat) (f : Line → Line) : (setLine s c f).datum = s.datum := rfl
@[simp] theorem setLine_time (s : State) (c : Nat) (f : Line → Line) : (setLine s c f).time = s.time := rfl
@[simp] theorem setLine_hif (s : State) (c : Nat) (f : Line → Line) : (setLine s c f).hif = s.hif := rfl
@[simp] theorem setLine_rings (s : State) (c : Nat) (f : Line → Line) : (setLine s c f).rings = s.rings := rfl
@[simp] theorem setLine_journal (s : State) (c : Nat) (f : Line → Line) : (setLine s c f).journal = s.journal := rfl
@[simp] theorem setLine_ledger (s : State) (c : Nat) (f : Line → Line) : (setLine s c f).ledger = s.ledger := rfl
@[simp] theorem setLine_recov (s : State) (c : Nat) (f : Line → Line) : (setLine s c f).recov = s.recov := rfl
@[simp] theorem setLine_chtabBase (s : State) (c : Nat) (f : Line → Line) : (setLine s c f).chtabBase = s.chtabBase := rfl
@[simp] theorem setLine_chtabEn (s : State) (c : Nat) (f : Line → Line) : (setLine s c f).chtabEn = s.chtabEn := rfl
@[simp] theorem setLine_upl (s : State) (c : Nat) (f : Line → Line) : (setLine s c f).upl = s.upl := rfl
@[simp] theorem setLine_xc (s : State) (c : Nat) (f : Line → Line) : (setLine s c f).xc = s.xc := rfl
@[simp] theorem setLine_sec (s : State) (c : Nat) (f : Line → Line) : (setLine s c f).sec = s.sec := rfl
@[simp] theorem setLine_rad (s : State) (c : Nat) (f : Line → Line) : (setLine s c f).rad = s.rad := rfl
@[simp] theorem setLine_sup (s : State) (c : Nat) (f : Line → Line) : (setLine s c f).sup = s.sup := rfl
@[simp] theorem setLine_pwr (s : State) (c : Nat) (f : Line → Line) : (setLine s c f).pwr = s.pwr := rfl
@[simp] theorem setLine_fw (s : State) (c : Nat) (f : Line → Line) : (setLine s c f).fw = s.fw := rfl
@[simp] theorem setLine_glb (s : State) (c : Nat) (f : Line → Line) : (setLine s c f).glb = s.glb := rfl
@[simp] theorem setLine_evt (s : State) (c : Nat) (f : Line → Line) : (setLine s c f).evt = s.evt := rfl
@[simp] theorem setLine_mgt (s : State) (c : Nat) (f : Line → Line) : (setLine s c f).mgt = s.mgt := rfl
@[simp] theorem setLine_sent (s : State) (c : Nat) (f : Line → Line) : (setLine s c f).sent = s.sent := rfl
@[simp] theorem setLine_free (s : State) (c : Nat) (f : Line → Line) : (setLine s c f).free = s.free := rfl
@[simp] theorem ringAt_setLine (s : State) (c : Nat) (f : Line → Line) (x : Nat) : ringAt (setLine s c f) x = ringAt s x := rfl
@[simp] theorem slotAt_setLine (s : State) (c : Nat) (f : Line → Line) (x : Nat) : slotAt (setLine s c f) x = slotAt s x := rfl

@[simp] theorem setFr_pending (s : State) (c : Nat) (f : Framer → Framer) : (setFr s c f).pending = s.pending := rfl
@[simp] theorem setFr_part (s : State) (c : Nat) (f : Framer → Framer) : (setFr s c f).part = s.part := rfl
@[simp] theorem setFr_datum (s : State) (c : Nat) (f : Framer → Framer) : (setFr s c f).datum = s.datum := rfl
@[simp] theorem setFr_time (s : State) (c : Nat) (f : Framer → Framer) : (setFr s c f).time = s.time := rfl
@[simp] theorem setFr_hif (s : State) (c : Nat) (f : Framer → Framer) : (setFr s c f).hif = s.hif := rfl
@[simp] theorem setFr_rings (s : State) (c : Nat) (f : Framer → Framer) : (setFr s c f).rings = s.rings := rfl
@[simp] theorem setFr_journal (s : State) (c : Nat) (f : Framer → Framer) : (setFr s c f).journal = s.journal := rfl
@[simp] theorem setFr_ledger (s : State) (c : Nat) (f : Framer → Framer) : (setFr s c f).ledger = s.ledger := rfl
@[simp] theorem setFr_recov (s : State) (c : Nat) (f : Framer → Framer) : (setFr s c f).recov = s.recov := rfl
@[simp] theorem setFr_chtabBase (s : State) (c : Nat) (f : Framer → Framer) : (setFr s c f).chtabBase = s.chtabBase := rfl
@[simp] theorem setFr_chtabEn (s : State) (c : Nat) (f : Framer → Framer) : (setFr s c f).chtabEn = s.chtabEn := rfl
@[simp] theorem setFr_upl (s : State) (c : Nat) (f : Framer → Framer) : (setFr s c f).upl = s.upl := rfl
@[simp] theorem setFr_xc (s : State) (c : Nat) (f : Framer → Framer) : (setFr s c f).xc = s.xc := rfl
@[simp] theorem setFr_sec (s : State) (c : Nat) (f : Framer → Framer) : (setFr s c f).sec = s.sec := rfl
@[simp] theorem setFr_rad (s : State) (c : Nat) (f : Framer → Framer) : (setFr s c f).rad = s.rad := rfl
@[simp] theorem setFr_sup (s : State) (c : Nat) (f : Framer → Framer) : (setFr s c f).sup = s.sup := rfl
@[simp] theorem setFr_pwr (s : State) (c : Nat) (f : Framer → Framer) : (setFr s c f).pwr = s.pwr := rfl
@[simp] theorem setFr_fw (s : State) (c : Nat) (f : Framer → Framer) : (setFr s c f).fw = s.fw := rfl
@[simp] theorem setFr_glb (s : State) (c : Nat) (f : Framer → Framer) : (setFr s c f).glb = s.glb := rfl
@[simp] theorem setFr_evt (s : State) (c : Nat) (f : Framer → Framer) : (setFr s c f).evt = s.evt := rfl
@[simp] theorem setFr_mgt (s : State) (c : Nat) (f : Framer → Framer) : (setFr s c f).mgt = s.mgt := rfl
@[simp] theorem setFr_sent (s : State) (c : Nat) (f : Framer → Framer) : (setFr s c f).sent = s.sent := rfl
@[simp] theorem setFr_free (s : State) (c : Nat) (f : Framer → Framer) : (setFr s c f).free = s.free := rfl
@[simp] theorem ringAt_setFr (s : State) (c : Nat) (f : Framer → Framer) (x : Nat) : ringAt (setFr s c f) x = ringAt s x := rfl
@[simp] theorem slotAt_setFr (s : State) (c : Nat) (f : Framer → Framer) (x : Nat) : slotAt (setFr s c f) x = slotAt s x := rfl

@[simp] theorem setQs_pending (s : State) (c : Nat) (f : Queues → Queues) : (setQs s c f).pending = s.pending := rfl
@[simp] theorem setQs_part (s : State) (c : Nat) (f : Queues → Queues) : (setQs s c f).part = s.part := rfl
@[simp] theorem setQs_datum (s : State) (c : Nat) (f : Queues → Queues) : (setQs s c f).datum = s.datum := rfl
@[simp] theorem setQs_time (s : State) (c : Nat) (f : Queues → Queues) : (setQs s c f).time = s.time := rfl
@[simp] theorem setQs_hif (s : State) (c : Nat) (f : Queues → Queues) : (setQs s c f).hif = s.hif := rfl
@[simp] theorem setQs_rings (s : State) (c : Nat) (f : Queues → Queues) : (setQs s c f).rings = s.rings := rfl
@[simp] theorem setQs_journal (s : State) (c : Nat) (f : Queues → Queues) : (setQs s c f).journal = s.journal := rfl
@[simp] theorem setQs_ledger (s : State) (c : Nat) (f : Queues → Queues) : (setQs s c f).ledger = s.ledger := rfl
@[simp] theorem setQs_recov (s : State) (c : Nat) (f : Queues → Queues) : (setQs s c f).recov = s.recov := rfl
@[simp] theorem setQs_chtabBase (s : State) (c : Nat) (f : Queues → Queues) : (setQs s c f).chtabBase = s.chtabBase := rfl
@[simp] theorem setQs_chtabEn (s : State) (c : Nat) (f : Queues → Queues) : (setQs s c f).chtabEn = s.chtabEn := rfl
@[simp] theorem setQs_upl (s : State) (c : Nat) (f : Queues → Queues) : (setQs s c f).upl = s.upl := rfl
@[simp] theorem setQs_xc (s : State) (c : Nat) (f : Queues → Queues) : (setQs s c f).xc = s.xc := rfl
@[simp] theorem setQs_sec (s : State) (c : Nat) (f : Queues → Queues) : (setQs s c f).sec = s.sec := rfl
@[simp] theorem setQs_rad (s : State) (c : Nat) (f : Queues → Queues) : (setQs s c f).rad = s.rad := rfl
@[simp] theorem setQs_sup (s : State) (c : Nat) (f : Queues → Queues) : (setQs s c f).sup = s.sup := rfl
@[simp] theorem setQs_pwr (s : State) (c : Nat) (f : Queues → Queues) : (setQs s c f).pwr = s.pwr := rfl
@[simp] theorem setQs_fw (s : State) (c : Nat) (f : Queues → Queues) : (setQs s c f).fw = s.fw := rfl
@[simp] theorem setQs_glb (s : State) (c : Nat) (f : Queues → Queues) : (setQs s c f).glb = s.glb := rfl
@[simp] theorem setQs_evt (s : State) (c : Nat) (f : Queues → Queues) : (setQs s c f).evt = s.evt := rfl
@[simp] theorem setQs_mgt (s : State) (c : Nat) (f : Queues → Queues) : (setQs s c f).mgt = s.mgt := rfl
@[simp] theorem setQs_sent (s : State) (c : Nat) (f : Queues → Queues) : (setQs s c f).sent = s.sent := rfl
@[simp] theorem setQs_free (s : State) (c : Nat) (f : Queues → Queues) : (setQs s c f).free = s.free := rfl
@[simp] theorem ringAt_setQs (s : State) (c : Nat) (f : Queues → Queues) (x : Nat) : ringAt (setQs s c f) x = ringAt s x := rfl
@[simp] theorem slotAt_setQs (s : State) (c : Nat) (f : Queues → Queues) (x : Nat) : slotAt (setQs s c f) x = slotAt s x := rfl

@[simp] theorem setMac_pending (s : State) (c : Nat) (f : MacCnt → MacCnt) : (setMac s c f).pending = s.pending := rfl
@[simp] theorem setMac_part (s : State) (c : Nat) (f : MacCnt → MacCnt) : (setMac s c f).part = s.part := rfl
@[simp] theorem setMac_datum (s : State) (c : Nat) (f : MacCnt → MacCnt) : (setMac s c f).datum = s.datum := rfl
@[simp] theorem setMac_time (s : State) (c : Nat) (f : MacCnt → MacCnt) : (setMac s c f).time = s.time := rfl
@[simp] theorem setMac_hif (s : State) (c : Nat) (f : MacCnt → MacCnt) : (setMac s c f).hif = s.hif := rfl
@[simp] theorem setMac_rings (s : State) (c : Nat) (f : MacCnt → MacCnt) : (setMac s c f).rings = s.rings := rfl
@[simp] theorem setMac_journal (s : State) (c : Nat) (f : MacCnt → MacCnt) : (setMac s c f).journal = s.journal := rfl
@[simp] theorem setMac_ledger (s : State) (c : Nat) (f : MacCnt → MacCnt) : (setMac s c f).ledger = s.ledger := rfl
@[simp] theorem setMac_recov (s : State) (c : Nat) (f : MacCnt → MacCnt) : (setMac s c f).recov = s.recov := rfl
@[simp] theorem setMac_chtabBase (s : State) (c : Nat) (f : MacCnt → MacCnt) : (setMac s c f).chtabBase = s.chtabBase := rfl
@[simp] theorem setMac_chtabEn (s : State) (c : Nat) (f : MacCnt → MacCnt) : (setMac s c f).chtabEn = s.chtabEn := rfl
@[simp] theorem setMac_upl (s : State) (c : Nat) (f : MacCnt → MacCnt) : (setMac s c f).upl = s.upl := rfl
@[simp] theorem setMac_xc (s : State) (c : Nat) (f : MacCnt → MacCnt) : (setMac s c f).xc = s.xc := rfl
@[simp] theorem setMac_sec (s : State) (c : Nat) (f : MacCnt → MacCnt) : (setMac s c f).sec = s.sec := rfl
@[simp] theorem setMac_rad (s : State) (c : Nat) (f : MacCnt → MacCnt) : (setMac s c f).rad = s.rad := rfl
@[simp] theorem setMac_sup (s : State) (c : Nat) (f : MacCnt → MacCnt) : (setMac s c f).sup = s.sup := rfl
@[simp] theorem setMac_pwr (s : State) (c : Nat) (f : MacCnt → MacCnt) : (setMac s c f).pwr = s.pwr := rfl
@[simp] theorem setMac_fw (s : State) (c : Nat) (f : MacCnt → MacCnt) : (setMac s c f).fw = s.fw := rfl
@[simp] theorem setMac_glb (s : State) (c : Nat) (f : MacCnt → MacCnt) : (setMac s c f).glb = s.glb := rfl
@[simp] theorem setMac_evt (s : State) (c : Nat) (f : MacCnt → MacCnt) : (setMac s c f).evt = s.evt := rfl
@[simp] theorem setMac_mgt (s : State) (c : Nat) (f : MacCnt → MacCnt) : (setMac s c f).mgt = s.mgt := rfl
@[simp] theorem setMac_sent (s : State) (c : Nat) (f : MacCnt → MacCnt) : (setMac s c f).sent = s.sent := rfl
@[simp] theorem setMac_free (s : State) (c : Nat) (f : MacCnt → MacCnt) : (setMac s c f).free = s.free := rfl
@[simp] theorem ringAt_setMac (s : State) (c : Nat) (f : MacCnt → MacCnt) (x : Nat) : ringAt (setMac s c f) x = ringAt s x := rfl
@[simp] theorem slotAt_setMac (s : State) (c : Nat) (f : MacCnt → MacCnt) (x : Nat) : slotAt (setMac s c f) x = slotAt s x := rfl

@[simp] theorem setPm_pending (s : State) (c : Nat) (f : PmSec → PmSec) : (setPm s c f).pending = s.pending := rfl
@[simp] theorem setPm_part (s : State) (c : Nat) (f : PmSec → PmSec) : (setPm s c f).part = s.part := rfl
@[simp] theorem setPm_datum (s : State) (c : Nat) (f : PmSec → PmSec) : (setPm s c f).datum = s.datum := rfl
@[simp] theorem setPm_time (s : State) (c : Nat) (f : PmSec → PmSec) : (setPm s c f).time = s.time := rfl
@[simp] theorem setPm_hif (s : State) (c : Nat) (f : PmSec → PmSec) : (setPm s c f).hif = s.hif := rfl
@[simp] theorem setPm_rings (s : State) (c : Nat) (f : PmSec → PmSec) : (setPm s c f).rings = s.rings := rfl
@[simp] theorem setPm_journal (s : State) (c : Nat) (f : PmSec → PmSec) : (setPm s c f).journal = s.journal := rfl
@[simp] theorem setPm_ledger (s : State) (c : Nat) (f : PmSec → PmSec) : (setPm s c f).ledger = s.ledger := rfl
@[simp] theorem setPm_recov (s : State) (c : Nat) (f : PmSec → PmSec) : (setPm s c f).recov = s.recov := rfl
@[simp] theorem setPm_chtabBase (s : State) (c : Nat) (f : PmSec → PmSec) : (setPm s c f).chtabBase = s.chtabBase := rfl
@[simp] theorem setPm_chtabEn (s : State) (c : Nat) (f : PmSec → PmSec) : (setPm s c f).chtabEn = s.chtabEn := rfl
@[simp] theorem setPm_upl (s : State) (c : Nat) (f : PmSec → PmSec) : (setPm s c f).upl = s.upl := rfl
@[simp] theorem setPm_xc (s : State) (c : Nat) (f : PmSec → PmSec) : (setPm s c f).xc = s.xc := rfl
@[simp] theorem setPm_sec (s : State) (c : Nat) (f : PmSec → PmSec) : (setPm s c f).sec = s.sec := rfl
@[simp] theorem setPm_rad (s : State) (c : Nat) (f : PmSec → PmSec) : (setPm s c f).rad = s.rad := rfl
@[simp] theorem setPm_sup (s : State) (c : Nat) (f : PmSec → PmSec) : (setPm s c f).sup = s.sup := rfl
@[simp] theorem setPm_pwr (s : State) (c : Nat) (f : PmSec → PmSec) : (setPm s c f).pwr = s.pwr := rfl
@[simp] theorem setPm_fw (s : State) (c : Nat) (f : PmSec → PmSec) : (setPm s c f).fw = s.fw := rfl
@[simp] theorem setPm_glb (s : State) (c : Nat) (f : PmSec → PmSec) : (setPm s c f).glb = s.glb := rfl
@[simp] theorem setPm_evt (s : State) (c : Nat) (f : PmSec → PmSec) : (setPm s c f).evt = s.evt := rfl
@[simp] theorem setPm_mgt (s : State) (c : Nat) (f : PmSec → PmSec) : (setPm s c f).mgt = s.mgt := rfl
@[simp] theorem setPm_sent (s : State) (c : Nat) (f : PmSec → PmSec) : (setPm s c f).sent = s.sent := rfl
@[simp] theorem setPm_free (s : State) (c : Nat) (f : PmSec → PmSec) : (setPm s c f).free = s.free := rfl
@[simp] theorem ringAt_setPm (s : State) (c : Nat) (f : PmSec → PmSec) (x : Nat) : ringAt (setPm s c f) x = ringAt s x := rfl
@[simp] theorem slotAt_setPm (s : State) (c : Nat) (f : PmSec → PmSec) (x : Nat) : slotAt (setPm s c f) x = slotAt s x := rfl

@[simp] theorem setFeed_pending (s : State) (c : Nat) (f : Feed → Feed) : (setFeed s c f).pending = s.pending := rfl
@[simp] theorem setFeed_part (s : State) (c : Nat) (f : Feed → Feed) : (setFeed s c f).part = s.part := rfl
@[simp] theorem setFeed_datum (s : State) (c : Nat) (f : Feed → Feed) : (setFeed s c f).datum = s.datum := rfl
@[simp] theorem setFeed_time (s : State) (c : Nat) (f : Feed → Feed) : (setFeed s c f).time = s.time := rfl
@[simp] theorem setFeed_hif (s : State) (c : Nat) (f : Feed → Feed) : (setFeed s c f).hif = s.hif := rfl
@[simp] theorem setFeed_rings (s : State) (c : Nat) (f : Feed → Feed) : (setFeed s c f).rings = s.rings := rfl
@[simp] theorem setFeed_journal (s : State) (c : Nat) (f : Feed → Feed) : (setFeed s c f).journal = s.journal := rfl
@[simp] theorem setFeed_ledger (s : State) (c : Nat) (f : Feed → Feed) : (setFeed s c f).ledger = s.ledger := rfl
@[simp] theorem setFeed_recov (s : State) (c : Nat) (f : Feed → Feed) : (setFeed s c f).recov = s.recov := rfl
@[simp] theorem setFeed_chtabBase (s : State) (c : Nat) (f : Feed → Feed) : (setFeed s c f).chtabBase = s.chtabBase := rfl
@[simp] theorem setFeed_chtabEn (s : State) (c : Nat) (f : Feed → Feed) : (setFeed s c f).chtabEn = s.chtabEn := rfl
@[simp] theorem setFeed_upl (s : State) (c : Nat) (f : Feed → Feed) : (setFeed s c f).upl = s.upl := rfl
@[simp] theorem setFeed_xc (s : State) (c : Nat) (f : Feed → Feed) : (setFeed s c f).xc = s.xc := rfl
@[simp] theorem setFeed_sec (s : State) (c : Nat) (f : Feed → Feed) : (setFeed s c f).sec = s.sec := rfl
@[simp] theorem setFeed_rad (s : State) (c : Nat) (f : Feed → Feed) : (setFeed s c f).rad = s.rad := rfl
@[simp] theorem setFeed_sup (s : State) (c : Nat) (f : Feed → Feed) : (setFeed s c f).sup = s.sup := rfl
@[simp] theorem setFeed_pwr (s : State) (c : Nat) (f : Feed → Feed) : (setFeed s c f).pwr = s.pwr := rfl
@[simp] theorem setFeed_fw (s : State) (c : Nat) (f : Feed → Feed) : (setFeed s c f).fw = s.fw := rfl
@[simp] theorem setFeed_glb (s : State) (c : Nat) (f : Feed → Feed) : (setFeed s c f).glb = s.glb := rfl
@[simp] theorem setFeed_evt (s : State) (c : Nat) (f : Feed → Feed) : (setFeed s c f).evt = s.evt := rfl
@[simp] theorem setFeed_mgt (s : State) (c : Nat) (f : Feed → Feed) : (setFeed s c f).mgt = s.mgt := rfl
@[simp] theorem setFeed_sent (s : State) (c : Nat) (f : Feed → Feed) : (setFeed s c f).sent = s.sent := rfl
@[simp] theorem setFeed_free (s : State) (c : Nat) (f : Feed → Feed) : (setFeed s c f).free = s.free := rfl
@[simp] theorem ringAt_setFeed (s : State) (c : Nat) (f : Feed → Feed) (x : Nat) : ringAt (setFeed s c f) x = ringAt s x := rfl
@[simp] theorem slotAt_setFeed (s : State) (c : Nat) (f : Feed → Feed) (x : Nat) : slotAt (setFeed s c f) x = slotAt s x := rfl

@[simp] theorem setOutcome_pending (s : State) (r : Nat) (q : Word) (f : Outcome → Outcome) : (setOutcome s r q f).pending = s.pending := rfl
@[simp] theorem setOutcome_part (s : State) (r : Nat) (q : Word) (f : Outcome → Outcome) : (setOutcome s r q f).part = s.part := rfl
@[simp] theorem setOutcome_datum (s : State) (r : Nat) (q : Word) (f : Outcome → Outcome) : (setOutcome s r q f).datum = s.datum := rfl
@[simp] theorem setOutcome_time (s : State) (r : Nat) (q : Word) (f : Outcome → Outcome) : (setOutcome s r q f).time = s.time := rfl
@[simp] theorem setOutcome_hif (s : State) (r : Nat) (q : Word) (f : Outcome → Outcome) : (setOutcome s r q f).hif = s.hif := rfl
@[simp] theorem setOutcome_rings (s : State) (r : Nat) (q : Word) (f : Outcome → Outcome) : (setOutcome s r q f).rings = s.rings := rfl
@[simp] theorem setOutcome_ledger (s : State) (r : Nat) (q : Word) (f : Outcome → Outcome) : (setOutcome s r q f).ledger = s.ledger := rfl
@[simp] theorem setOutcome_recov (s : State) (r : Nat) (q : Word) (f : Outcome → Outcome) : (setOutcome s r q f).recov = s.recov := rfl
@[simp] theorem setOutcome_chtabBase (s : State) (r : Nat) (q : Word) (f : Outcome → Outcome) : (setOutcome s r q f).chtabBase = s.chtabBase := rfl
@[simp] theorem setOutcome_chtabEn (s : State) (r : Nat) (q : Word) (f : Outcome → Outcome) : (setOutcome s r q f).chtabEn = s.chtabEn := rfl
@[simp] theorem setOutcome_chans (s : State) (r : Nat) (q : Word) (f : Outcome → Outcome) : (setOutcome s r q f).chans = s.chans := rfl
@[simp] theorem setOutcome_upl (s : State) (r : Nat) (q : Word) (f : Outcome → Outcome) : (setOutcome s r q f).upl = s.upl := rfl
@[simp] theorem setOutcome_xc (s : State) (r : Nat) (q : Word) (f : Outcome → Outcome) : (setOutcome s r q f).xc = s.xc := rfl
@[simp] theorem setOutcome_sec (s : State) (r : Nat) (q : Word) (f : Outcome → Outcome) : (setOutcome s r q f).sec = s.sec := rfl
@[simp] theorem setOutcome_rad (s : State) (r : Nat) (q : Word) (f : Outcome → Outcome) : (setOutcome s r q f).rad = s.rad := rfl
@[simp] theorem setOutcome_sup (s : State) (r : Nat) (q : Word) (f : Outcome → Outcome) : (setOutcome s r q f).sup = s.sup := rfl
@[simp] theorem setOutcome_pwr (s : State) (r : Nat) (q : Word) (f : Outcome → Outcome) : (setOutcome s r q f).pwr = s.pwr := rfl
@[simp] theorem setOutcome_fw (s : State) (r : Nat) (q : Word) (f : Outcome → Outcome) : (setOutcome s r q f).fw = s.fw := rfl
@[simp] theorem setOutcome_glb (s : State) (r : Nat) (q : Word) (f : Outcome → Outcome) : (setOutcome s r q f).glb = s.glb := rfl
@[simp] theorem setOutcome_evt (s : State) (r : Nat) (q : Word) (f : Outcome → Outcome) : (setOutcome s r q f).evt = s.evt := rfl
@[simp] theorem setOutcome_mgt (s : State) (r : Nat) (q : Word) (f : Outcome → Outcome) : (setOutcome s r q f).mgt = s.mgt := rfl
@[simp] theorem setOutcome_sent (s : State) (r : Nat) (q : Word) (f : Outcome → Outcome) : (setOutcome s r q f).sent = s.sent := rfl
@[simp] theorem setOutcome_free (s : State) (r : Nat) (q : Word) (f : Outcome → Outcome) : (setOutcome s r q f).free = s.free := rfl
@[simp] theorem ringAt_setOutcome (s : State) (r : Nat) (q : Word) (f : Outcome → Outcome) (x : Nat) : ringAt (setOutcome s r q f) x = ringAt s x := rfl
@[simp] theorem chanAt_setOutcome (s : State) (r : Nat) (q : Word) (f : Outcome → Outcome) (x : Nat) : chanAt (setOutcome s r q f) x = chanAt s x := rfl
@[simp] theorem slotAt_setOutcome (s : State) (r : Nat) (q : Word) (f : Outcome → Outcome) (x : Nat) : slotAt (setOutcome s r q f) x = slotAt s x := rfl

@[simp] theorem emitOut_pending (s : State) (o : Out) : (emitOut s o).pending = s.pending := rfl
@[simp] theorem emitOut_part (s : State) (o : Out) : (emitOut s o).part = s.part := rfl
@[simp] theorem emitOut_datum (s : State) (o : Out) : (emitOut s o).datum = s.datum := rfl
@[simp] theorem emitOut_time (s : State) (o : Out) : (emitOut s o).time = s.time := rfl
@[simp] theorem emitOut_hif (s : State) (o : Out) : (emitOut s o).hif = s.hif := rfl
@[simp] theorem emitOut_rings (s : State) (o : Out) : (emitOut s o).rings = s.rings := rfl
@[simp] theorem emitOut_journal (s : State) (o : Out) : (emitOut s o).journal = s.journal := rfl
@[simp] theorem emitOut_ledger (s : State) (o : Out) : (emitOut s o).ledger = s.ledger := rfl
@[simp] theorem emitOut_recov (s : State) (o : Out) : (emitOut s o).recov = s.recov := rfl
@[simp] theorem emitOut_chtabBase (s : State) (o : Out) : (emitOut s o).chtabBase = s.chtabBase := rfl
@[simp] theorem emitOut_chtabEn (s : State) (o : Out) : (emitOut s o).chtabEn = s.chtabEn := rfl
@[simp] theorem emitOut_chans (s : State) (o : Out) : (emitOut s o).chans = s.chans := rfl
@[simp] theorem emitOut_upl (s : State) (o : Out) : (emitOut s o).upl = s.upl := rfl
@[simp] theorem emitOut_xc (s : State) (o : Out) : (emitOut s o).xc = s.xc := rfl
@[simp] theorem emitOut_sec (s : State) (o : Out) : (emitOut s o).sec = s.sec := rfl
@[simp] theorem emitOut_rad (s : State) (o : Out) : (emitOut s o).rad = s.rad := rfl
@[simp] theorem emitOut_sup (s : State) (o : Out) : (emitOut s o).sup = s.sup := rfl
@[simp] theorem emitOut_pwr (s : State) (o : Out) : (emitOut s o).pwr = s.pwr := rfl
@[simp] theorem emitOut_fw (s : State) (o : Out) : (emitOut s o).fw = s.fw := rfl
@[simp] theorem emitOut_glb (s : State) (o : Out) : (emitOut s o).glb = s.glb := rfl
@[simp] theorem emitOut_evt (s : State) (o : Out) : (emitOut s o).evt = s.evt := rfl
@[simp] theorem emitOut_mgt (s : State) (o : Out) : (emitOut s o).mgt = s.mgt := rfl
@[simp] theorem emitOut_free (s : State) (o : Out) : (emitOut s o).free = s.free := rfl
@[simp] theorem ringAt_emitOut (s : State) (o : Out) (x : Nat) : ringAt (emitOut s o) x = ringAt s x := rfl
@[simp] theorem chanAt_emitOut (s : State) (o : Out) (x : Nat) : chanAt (emitOut s o) x = chanAt s x := rfl
@[simp] theorem slotAt_emitOut (s : State) (o : Out) (x : Nat) : slotAt (emitOut s o) x = slotAt s x := rfl

@[simp] theorem drew_pending (s : State) : (drew s).pending = s.pending := rfl
@[simp] theorem drew_part (s : State) : (drew s).part = s.part := rfl
@[simp] theorem drew_datum (s : State) : (drew s).datum = s.datum := rfl
@[simp] theorem drew_time (s : State) : (drew s).time = s.time := rfl
@[simp] theorem drew_hif (s : State) : (drew s).hif = s.hif := rfl
@[simp] theorem drew_rings (s : State) : (drew s).rings = s.rings := rfl
@[simp] theorem drew_journal (s : State) : (drew s).journal = s.journal := rfl
@[simp] theorem drew_ledger (s : State) : (drew s).ledger = s.ledger := rfl
@[simp] theorem drew_recov (s : State) : (drew s).recov = s.recov := rfl
@[simp] theorem drew_chtabBase (s : State) : (drew s).chtabBase = s.chtabBase := rfl
@[simp] theorem drew_chtabEn (s : State) : (drew s).chtabEn = s.chtabEn := rfl
@[simp] theorem drew_chans (s : State) : (drew s).chans = s.chans := rfl
@[simp] theorem drew_upl (s : State) : (drew s).upl = s.upl := rfl
@[simp] theorem drew_xc (s : State) : (drew s).xc = s.xc := rfl
@[simp] theorem drew_sec (s : State) : (drew s).sec = s.sec := rfl
@[simp] theorem drew_rad (s : State) : (drew s).rad = s.rad := rfl
@[simp] theorem drew_sup (s : State) : (drew s).sup = s.sup := rfl
@[simp] theorem drew_pwr (s : State) : (drew s).pwr = s.pwr := rfl
@[simp] theorem drew_fw (s : State) : (drew s).fw = s.fw := rfl
@[simp] theorem drew_glb (s : State) : (drew s).glb = s.glb := rfl
@[simp] theorem drew_evt (s : State) : (drew s).evt = s.evt := rfl
@[simp] theorem drew_mgt (s : State) : (drew s).mgt = s.mgt := rfl
@[simp] theorem drew_sent (s : State) : (drew s).sent = s.sent := rfl
@[simp] theorem ringAt_drew (s : State) (x : Nat) : ringAt (drew s) x = ringAt s x := rfl
@[simp] theorem chanAt_drew (s : State) (x : Nat) : chanAt (drew s) x = chanAt s x := rfl
@[simp] theorem slotAt_drew (s : State) (x : Nat) : slotAt (drew s) x = slotAt s x := rfl

@[simp] theorem modFw_pending (s : State) (f : Fw → Fw) : (modFw s f).pending = s.pending := rfl
@[simp] theorem modFw_part (s : State) (f : Fw → Fw) : (modFw s f).part = s.part := rfl
@[simp] theorem modFw_datum (s : State) (f : Fw → Fw) : (modFw s f).datum = s.datum := rfl
@[simp] theorem modFw_time (s : State) (f : Fw → Fw) : (modFw s f).time = s.time := rfl
@[simp] theorem modFw_hif (s : State) (f : Fw → Fw) : (modFw s f).hif = s.hif := rfl
@[simp] theorem modFw_rings (s : State) (f : Fw → Fw) : (modFw s f).rings = s.rings := rfl
@[simp] theorem modFw_journal (s : State) (f : Fw → Fw) : (modFw s f).journal = s.journal := rfl
@[simp] theorem modFw_ledger (s : State) (f : Fw → Fw) : (modFw s f).ledger = s.ledger := rfl
@[simp] theorem modFw_recov (s : State) (f : Fw → Fw) : (modFw s f).recov = s.recov := rfl
@[simp] theorem modFw_chtabBase (s : State) (f : Fw → Fw) : (modFw s f).chtabBase = s.chtabBase := rfl
@[simp] theorem modFw_chtabEn (s : State) (f : Fw → Fw) : (modFw s f).chtabEn = s.chtabEn := rfl
@[simp] theorem modFw_chans (s : State) (f : Fw → Fw) : (modFw s f).chans = s.chans := rfl
@[simp] theorem modFw_upl (s : State) (f : Fw → Fw) : (modFw s f).upl = s.upl := rfl
@[simp] theorem modFw_xc (s : State) (f : Fw → Fw) : (modFw s f).xc = s.xc := rfl
@[simp] theorem modFw_sec (s : State) (f : Fw → Fw) : (modFw s f).sec = s.sec := rfl
@[simp] theorem modFw_rad (s : State) (f : Fw → Fw) : (modFw s f).rad = s.rad := rfl
@[simp] theorem modFw_sup (s : State) (f : Fw → Fw) : (modFw s f).sup = s.sup := rfl
@[simp] theorem modFw_pwr (s : State) (f : Fw → Fw) : (modFw s f).pwr = s.pwr := rfl
@[simp] theorem modFw_glb (s : State) (f : Fw → Fw) : (modFw s f).glb = s.glb := rfl
@[simp] theorem modFw_evt (s : State) (f : Fw → Fw) : (modFw s f).evt = s.evt := rfl
@[simp] theorem modFw_mgt (s : State) (f : Fw → Fw) : (modFw s f).mgt = s.mgt := rfl
@[simp] theorem modFw_sent (s : State) (f : Fw → Fw) : (modFw s f).sent = s.sent := rfl
@[simp] theorem modFw_free (s : State) (f : Fw → Fw) : (modFw s f).free = s.free := rfl
@[simp] theorem ringAt_modFw (s : State) (f : Fw → Fw) (x : Nat) : ringAt (modFw s f) x = ringAt s x := rfl
@[simp] theorem chanAt_modFw (s : State) (f : Fw → Fw) (x : Nat) : chanAt (modFw s f) x = chanAt s x := rfl
@[simp] theorem slotAt_modFw (s : State) (f : Fw → Fw) (x : Nat) : slotAt (modFw s f) x = slotAt s x := rfl

@[simp] theorem modSlot_pending (s : State) (i : Nat) (f : ImgSlot → ImgSlot) : (modSlot s i f).pending = s.pending := rfl
@[simp] theorem modSlot_part (s : State) (i : Nat) (f : ImgSlot → ImgSlot) : (modSlot s i f).part = s.part := rfl
@[simp] theorem modSlot_datum (s : State) (i : Nat) (f : ImgSlot → ImgSlot) : (modSlot s i f).datum = s.datum := rfl
@[simp] theorem modSlot_time (s : State) (i : Nat) (f : ImgSlot → ImgSlot) : (modSlot s i f).time = s.time := rfl
@[simp] theorem modSlot_hif (s : State) (i : Nat) (f : ImgSlot → ImgSlot) : (modSlot s i f).hif = s.hif := rfl
@[simp] theorem modSlot_rings (s : State) (i : Nat) (f : ImgSlot → ImgSlot) : (modSlot s i f).rings = s.rings := rfl
@[simp] theorem modSlot_journal (s : State) (i : Nat) (f : ImgSlot → ImgSlot) : (modSlot s i f).journal = s.journal := rfl
@[simp] theorem modSlot_ledger (s : State) (i : Nat) (f : ImgSlot → ImgSlot) : (modSlot s i f).ledger = s.ledger := rfl
@[simp] theorem modSlot_recov (s : State) (i : Nat) (f : ImgSlot → ImgSlot) : (modSlot s i f).recov = s.recov := rfl
@[simp] theorem modSlot_chtabBase (s : State) (i : Nat) (f : ImgSlot → ImgSlot) : (modSlot s i f).chtabBase = s.chtabBase := rfl
@[simp] theorem modSlot_chtabEn (s : State) (i : Nat) (f : ImgSlot → ImgSlot) : (modSlot s i f).chtabEn = s.chtabEn := rfl
@[simp] theorem modSlot_chans (s : State) (i : Nat) (f : ImgSlot → ImgSlot) : (modSlot s i f).chans = s.chans := rfl
@[simp] theorem modSlot_upl (s : State) (i : Nat) (f : ImgSlot → ImgSlot) : (modSlot s i f).upl = s.upl := rfl
@[simp] theorem modSlot_xc (s : State) (i : Nat) (f : ImgSlot → ImgSlot) : (modSlot s i f).xc = s.xc := rfl
@[simp] theorem modSlot_sec (s : State) (i : Nat) (f : ImgSlot → ImgSlot) : (modSlot s i f).sec = s.sec := rfl
@[simp] theorem modSlot_rad (s : State) (i : Nat) (f : ImgSlot → ImgSlot) : (modSlot s i f).rad = s.rad := rfl
@[simp] theorem modSlot_sup (s : State) (i : Nat) (f : ImgSlot → ImgSlot) : (modSlot s i f).sup = s.sup := rfl
@[simp] theorem modSlot_pwr (s : State) (i : Nat) (f : ImgSlot → ImgSlot) : (modSlot s i f).pwr = s.pwr := rfl
@[simp] theorem modSlot_glb (s : State) (i : Nat) (f : ImgSlot → ImgSlot) : (modSlot s i f).glb = s.glb := rfl
@[simp] theorem modSlot_evt (s : State) (i : Nat) (f : ImgSlot → ImgSlot) : (modSlot s i f).evt = s.evt := rfl
@[simp] theorem modSlot_mgt (s : State) (i : Nat) (f : ImgSlot → ImgSlot) : (modSlot s i f).mgt = s.mgt := rfl
@[simp] theorem modSlot_sent (s : State) (i : Nat) (f : ImgSlot → ImgSlot) : (modSlot s i f).sent = s.sent := rfl
@[simp] theorem modSlot_free (s : State) (i : Nat) (f : ImgSlot → ImgSlot) : (modSlot s i f).free = s.free := rfl
@[simp] theorem ringAt_modSlot (s : State) (i : Nat) (f : ImgSlot → ImgSlot) (x : Nat) : ringAt (modSlot s i f) x = ringAt s x := rfl
@[simp] theorem chanAt_modSlot (s : State) (i : Nat) (f : ImgSlot → ImgSlot) (x : Nat) : chanAt (modSlot s i f) x = chanAt s x := rfl
@[simp] theorem slotAt_modSlot (s : State) (i : Nat) (f : ImgSlot → ImgSlot) (x : Nat) : slotAt (modSlot s i f) x = slotAt s x := rfl

@[simp] theorem setCp_pending (s : State) (i : Nat) (y : CpSt) : (setCp s i y).pending = s.pending := rfl
@[simp] theorem setCp_part (s : State) (i : Nat) (y : CpSt) : (setCp s i y).part = s.part := rfl
@[simp] theorem setCp_datum (s : State) (i : Nat) (y : CpSt) : (setCp s i y).datum = s.datum := rfl
@[simp] theorem setCp_time (s : State) (i : Nat) (y : CpSt) : (setCp s i y).time = s.time := rfl
@[simp] theorem setCp_hif (s : State) (i : Nat) (y : CpSt) : (setCp s i y).hif = s.hif := rfl
@[simp] theorem setCp_rings (s : State) (i : Nat) (y : CpSt) : (setCp s i y).rings = s.rings := rfl
@[simp] theorem setCp_journal (s : State) (i : Nat) (y : CpSt) : (setCp s i y).journal = s.journal := rfl
@[simp] theorem setCp_ledger (s : State) (i : Nat) (y : CpSt) : (setCp s i y).ledger = s.ledger := rfl
@[simp] theorem setCp_recov (s : State) (i : Nat) (y : CpSt) : (setCp s i y).recov = s.recov := rfl
@[simp] theorem setCp_chtabBase (s : State) (i : Nat) (y : CpSt) : (setCp s i y).chtabBase = s.chtabBase := rfl
@[simp] theorem setCp_chtabEn (s : State) (i : Nat) (y : CpSt) : (setCp s i y).chtabEn = s.chtabEn := rfl
@[simp] theorem setCp_chans (s : State) (i : Nat) (y : CpSt) : (setCp s i y).chans = s.chans := rfl
@[simp] theorem setCp_upl (s : State) (i : Nat) (y : CpSt) : (setCp s i y).upl = s.upl := rfl
@[simp] theorem setCp_xc (s : State) (i : Nat) (y : CpSt) : (setCp s i y).xc = s.xc := rfl
@[simp] theorem setCp_sec (s : State) (i : Nat) (y : CpSt) : (setCp s i y).sec = s.sec := rfl
@[simp] theorem setCp_rad (s : State) (i : Nat) (y : CpSt) : (setCp s i y).rad = s.rad := rfl
@[simp] theorem setCp_sup (s : State) (i : Nat) (y : CpSt) : (setCp s i y).sup = s.sup := rfl
@[simp] theorem setCp_pwr (s : State) (i : Nat) (y : CpSt) : (setCp s i y).pwr = s.pwr := rfl
@[simp] theorem setCp_glb (s : State) (i : Nat) (y : CpSt) : (setCp s i y).glb = s.glb := rfl
@[simp] theorem setCp_evt (s : State) (i : Nat) (y : CpSt) : (setCp s i y).evt = s.evt := rfl
@[simp] theorem setCp_mgt (s : State) (i : Nat) (y : CpSt) : (setCp s i y).mgt = s.mgt := rfl
@[simp] theorem setCp_sent (s : State) (i : Nat) (y : CpSt) : (setCp s i y).sent = s.sent := rfl
@[simp] theorem setCp_free (s : State) (i : Nat) (y : CpSt) : (setCp s i y).free = s.free := rfl
@[simp] theorem ringAt_setCp (s : State) (i : Nat) (y : CpSt) (x : Nat) : ringAt (setCp s i y) x = ringAt s x := rfl
@[simp] theorem chanAt_setCp (s : State) (i : Nat) (y : CpSt) (x : Nat) : chanAt (setCp s i y) x = chanAt s x := rfl
@[simp] theorem slotAt_setCp (s : State) (i : Nat) (y : CpSt) (x : Nat) : slotAt (setCp s i y) x = slotAt s x := rfl

@[simp] theorem modPwr_pending (s : State) (f : Pwr → Pwr) : (modPwr s f).pending = s.pending := rfl
@[simp] theorem modPwr_part (s : State) (f : Pwr → Pwr) : (modPwr s f).part = s.part := rfl
@[simp] theorem modPwr_datum (s : State) (f : Pwr → Pwr) : (modPwr s f).datum = s.datum := rfl
@[simp] theorem modPwr_time (s : State) (f : Pwr → Pwr) : (modPwr s f).time = s.time := rfl
@[simp] theorem modPwr_hif (s : State) (f : Pwr → Pwr) : (modPwr s f).hif = s.hif := rfl
@[simp] theorem modPwr_rings (s : State) (f : Pwr → Pwr) : (modPwr s f).rings = s.rings := rfl
@[simp] theorem modPwr_journal (s : State) (f : Pwr → Pwr) : (modPwr s f).journal = s.journal := rfl
@[simp] theorem modPwr_ledger (s : State) (f : Pwr → Pwr) : (modPwr s f).ledger = s.ledger := rfl
@[simp] theorem modPwr_recov (s : State) (f : Pwr → Pwr) : (modPwr s f).recov = s.recov := rfl
@[simp] theorem modPwr_chtabBase (s : State) (f : Pwr → Pwr) : (modPwr s f).chtabBase = s.chtabBase := rfl
@[simp] theorem modPwr_chtabEn (s : State) (f : Pwr → Pwr) : (modPwr s f).chtabEn = s.chtabEn := rfl
@[simp] theorem modPwr_chans (s : State) (f : Pwr → Pwr) : (modPwr s f).chans = s.chans := rfl
@[simp] theorem modPwr_upl (s : State) (f : Pwr → Pwr) : (modPwr s f).upl = s.upl := rfl
@[simp] theorem modPwr_xc (s : State) (f : Pwr → Pwr) : (modPwr s f).xc = s.xc := rfl
@[simp] theorem modPwr_sec (s : State) (f : Pwr → Pwr) : (modPwr s f).sec = s.sec := rfl
@[simp] theorem modPwr_rad (s : State) (f : Pwr → Pwr) : (modPwr s f).rad = s.rad := rfl
@[simp] theorem modPwr_sup (s : State) (f : Pwr → Pwr) : (modPwr s f).sup = s.sup := rfl
@[simp] theorem modPwr_fw (s : State) (f : Pwr → Pwr) : (modPwr s f).fw = s.fw := rfl
@[simp] theorem modPwr_glb (s : State) (f : Pwr → Pwr) : (modPwr s f).glb = s.glb := rfl
@[simp] theorem modPwr_evt (s : State) (f : Pwr → Pwr) : (modPwr s f).evt = s.evt := rfl
@[simp] theorem modPwr_mgt (s : State) (f : Pwr → Pwr) : (modPwr s f).mgt = s.mgt := rfl
@[simp] theorem modPwr_sent (s : State) (f : Pwr → Pwr) : (modPwr s f).sent = s.sent := rfl
@[simp] theorem modPwr_free (s : State) (f : Pwr → Pwr) : (modPwr s f).free = s.free := rfl
@[simp] theorem ringAt_modPwr (s : State) (f : Pwr → Pwr) (x : Nat) : ringAt (modPwr s f) x = ringAt s x := rfl
@[simp] theorem chanAt_modPwr (s : State) (f : Pwr → Pwr) (x : Nat) : chanAt (modPwr s f) x = chanAt s x := rfl
@[simp] theorem slotAt_modPwr (s : State) (f : Pwr → Pwr) (x : Nat) : slotAt (modPwr s f) x = slotAt s x := rfl

@[simp] theorem modHif_pending (s : State) (f : Hif → Hif) : (modHif s f).pending = s.pending := rfl
@[simp] theorem modHif_part (s : State) (f : Hif → Hif) : (modHif s f).part = s.part := rfl
@[simp] theorem modHif_datum (s : State) (f : Hif → Hif) : (modHif s f).datum = s.datum := rfl
@[simp] theorem modHif_time (s : State) (f : Hif → Hif) : (modHif s f).time = s.time := rfl
@[simp] theorem modHif_rings (s : State) (f : Hif → Hif) : (modHif s f).rings = s.rings := rfl
@[simp] theorem modHif_journal (s : State) (f : Hif → Hif) : (modHif s f).journal = s.journal := rfl
@[simp] theorem modHif_ledger (s : State) (f : Hif → Hif) : (modHif s f).ledger = s.ledger := rfl
@[simp] theorem modHif_recov (s : State) (f : Hif → Hif) : (modHif s f).recov = s.recov := rfl
@[simp] theorem modHif_chtabBase (s : State) (f : Hif → Hif) : (modHif s f).chtabBase = s.chtabBase := rfl
@[simp] theorem modHif_chtabEn (s : State) (f : Hif → Hif) : (modHif s f).chtabEn = s.chtabEn := rfl
@[simp] theorem modHif_chans (s : State) (f : Hif → Hif) : (modHif s f).chans = s.chans := rfl
@[simp] theorem modHif_upl (s : State) (f : Hif → Hif) : (modHif s f).upl = s.upl := rfl
@[simp] theorem modHif_xc (s : State) (f : Hif → Hif) : (modHif s f).xc = s.xc := rfl
@[simp] theorem modHif_sec (s : State) (f : Hif → Hif) : (modHif s f).sec = s.sec := rfl
@[simp] theorem modHif_rad (s : State) (f : Hif → Hif) : (modHif s f).rad = s.rad := rfl
@[simp] theorem modHif_sup (s : State) (f : Hif → Hif) : (modHif s f).sup = s.sup := rfl
@[simp] theorem modHif_pwr (s : State) (f : Hif → Hif) : (modHif s f).pwr = s.pwr := rfl
@[simp] theorem modHif_fw (s : State) (f : Hif → Hif) : (modHif s f).fw = s.fw := rfl
@[simp] theorem modHif_glb (s : State) (f : Hif → Hif) : (modHif s f).glb = s.glb := rfl
@[simp] theorem modHif_evt (s : State) (f : Hif → Hif) : (modHif s f).evt = s.evt := rfl
@[simp] theorem modHif_mgt (s : State) (f : Hif → Hif) : (modHif s f).mgt = s.mgt := rfl
@[simp] theorem modHif_sent (s : State) (f : Hif → Hif) : (modHif s f).sent = s.sent := rfl
@[simp] theorem modHif_free (s : State) (f : Hif → Hif) : (modHif s f).free = s.free := rfl
@[simp] theorem ringAt_modHif (s : State) (f : Hif → Hif) (x : Nat) : ringAt (modHif s f) x = ringAt s x := rfl
@[simp] theorem chanAt_modHif (s : State) (f : Hif → Hif) (x : Nat) : chanAt (modHif s f) x = chanAt s x := rfl
@[simp] theorem slotAt_modHif (s : State) (f : Hif → Hif) (x : Nat) : slotAt (modHif s f) x = slotAt s x := rfl

@[simp] theorem setFunc_pending (s : State) (i : Nat) (g : Func → Func) : (setFunc s i g).pending = s.pending := rfl
@[simp] theorem setFunc_part (s : State) (i : Nat) (g : Func → Func) : (setFunc s i g).part = s.part := rfl
@[simp] theorem setFunc_datum (s : State) (i : Nat) (g : Func → Func) : (setFunc s i g).datum = s.datum := rfl
@[simp] theorem setFunc_time (s : State) (i : Nat) (g : Func → Func) : (setFunc s i g).time = s.time := rfl
@[simp] theorem setFunc_rings (s : State) (i : Nat) (g : Func → Func) : (setFunc s i g).rings = s.rings := rfl
@[simp] theorem setFunc_journal (s : State) (i : Nat) (g : Func → Func) : (setFunc s i g).journal = s.journal := rfl
@[simp] theorem setFunc_ledger (s : State) (i : Nat) (g : Func → Func) : (setFunc s i g).ledger = s.ledger := rfl
@[simp] theorem setFunc_recov (s : State) (i : Nat) (g : Func → Func) : (setFunc s i g).recov = s.recov := rfl
@[simp] theorem setFunc_chtabBase (s : State) (i : Nat) (g : Func → Func) : (setFunc s i g).chtabBase = s.chtabBase := rfl
@[simp] theorem setFunc_chtabEn (s : State) (i : Nat) (g : Func → Func) : (setFunc s i g).chtabEn = s.chtabEn := rfl
@[simp] theorem setFunc_chans (s : State) (i : Nat) (g : Func → Func) : (setFunc s i g).chans = s.chans := rfl
@[simp] theorem setFunc_upl (s : State) (i : Nat) (g : Func → Func) : (setFunc s i g).upl = s.upl := rfl
@[simp] theorem setFunc_xc (s : State) (i : Nat) (g : Func → Func) : (setFunc s i g).xc = s.xc := rfl
@[simp] theorem setFunc_sec (s : State) (i : Nat) (g : Func → Func) : (setFunc s i g).sec = s.sec := rfl
@[simp] theorem setFunc_rad (s : State) (i : Nat) (g : Func → Func) : (setFunc s i g).rad = s.rad := rfl
@[simp] theorem setFunc_sup (s : State) (i : Nat) (g : Func → Func) : (setFunc s i g).sup = s.sup := rfl
@[simp] theorem setFunc_pwr (s : State) (i : Nat) (g : Func → Func) : (setFunc s i g).pwr = s.pwr := rfl
@[simp] theorem setFunc_fw (s : State) (i : Nat) (g : Func → Func) : (setFunc s i g).fw = s.fw := rfl
@[simp] theorem setFunc_glb (s : State) (i : Nat) (g : Func → Func) : (setFunc s i g).glb = s.glb := rfl
@[simp] theorem setFunc_evt (s : State) (i : Nat) (g : Func → Func) : (setFunc s i g).evt = s.evt := rfl
@[simp] theorem setFunc_mgt (s : State) (i : Nat) (g : Func → Func) : (setFunc s i g).mgt = s.mgt := rfl
@[simp] theorem setFunc_sent (s : State) (i : Nat) (g : Func → Func) : (setFunc s i g).sent = s.sent := rfl
@[simp] theorem setFunc_free (s : State) (i : Nat) (g : Func → Func) : (setFunc s i g).free = s.free := rfl
@[simp] theorem ringAt_setFunc (s : State) (i : Nat) (g : Func → Func) (x : Nat) : ringAt (setFunc s i g) x = ringAt s x := rfl
@[simp] theorem chanAt_setFunc (s : State) (i : Nat) (g : Func → Func) (x : Nat) : chanAt (setFunc s i g) x = chanAt s x := rfl
@[simp] theorem slotAt_setFunc (s : State) (i : Nat) (g : Func → Func) (x : Nat) : slotAt (setFunc s i g) x = slotAt s x := rfl

@[simp] theorem modSup_pending (s : State) (f : Sup → Sup) : (modSup s f).pending = s.pending := rfl
@[simp] theorem modSup_part (s : State) (f : Sup → Sup) : (modSup s f).part = s.part := rfl
@[simp] theorem modSup_datum (s : State) (f : Sup → Sup) : (modSup s f).datum = s.datum := rfl
@[simp] theorem modSup_time (s : State) (f : Sup → Sup) : (modSup s f).time = s.time := rfl
@[simp] theorem modSup_hif (s : State) (f : Sup → Sup) : (modSup s f).hif = s.hif := rfl
@[simp] theorem modSup_rings (s : State) (f : Sup → Sup) : (modSup s f).rings = s.rings := rfl
@[simp] theorem modSup_journal (s : State) (f : Sup → Sup) : (modSup s f).journal = s.journal := rfl
@[simp] theorem modSup_ledger (s : State) (f : Sup → Sup) : (modSup s f).ledger = s.ledger := rfl
@[simp] theorem modSup_recov (s : State) (f : Sup → Sup) : (modSup s f).recov = s.recov := rfl
@[simp] theorem modSup_chtabBase (s : State) (f : Sup → Sup) : (modSup s f).chtabBase = s.chtabBase := rfl
@[simp] theorem modSup_chtabEn (s : State) (f : Sup → Sup) : (modSup s f).chtabEn = s.chtabEn := rfl
@[simp] theorem modSup_chans (s : State) (f : Sup → Sup) : (modSup s f).chans = s.chans := rfl
@[simp] theorem modSup_upl (s : State) (f : Sup → Sup) : (modSup s f).upl = s.upl := rfl
@[simp] theorem modSup_xc (s : State) (f : Sup → Sup) : (modSup s f).xc = s.xc := rfl
@[simp] theorem modSup_sec (s : State) (f : Sup → Sup) : (modSup s f).sec = s.sec := rfl
@[simp] theorem modSup_rad (s : State) (f : Sup → Sup) : (modSup s f).rad = s.rad := rfl
@[simp] theorem modSup_pwr (s : State) (f : Sup → Sup) : (modSup s f).pwr = s.pwr := rfl
@[simp] theorem modSup_fw (s : State) (f : Sup → Sup) : (modSup s f).fw = s.fw := rfl
@[simp] theorem modSup_glb (s : State) (f : Sup → Sup) : (modSup s f).glb = s.glb := rfl
@[simp] theorem modSup_evt (s : State) (f : Sup → Sup) : (modSup s f).evt = s.evt := rfl
@[simp] theorem modSup_mgt (s : State) (f : Sup → Sup) : (modSup s f).mgt = s.mgt := rfl
@[simp] theorem modSup_sent (s : State) (f : Sup → Sup) : (modSup s f).sent = s.sent := rfl
@[simp] theorem modSup_free (s : State) (f : Sup → Sup) : (modSup s f).free = s.free := rfl
@[simp] theorem ringAt_modSup (s : State) (f : Sup → Sup) (x : Nat) : ringAt (modSup s f) x = ringAt s x := rfl
@[simp] theorem chanAt_modSup (s : State) (f : Sup → Sup) (x : Nat) : chanAt (modSup s f) x = chanAt s x := rfl
@[simp] theorem slotAt_modSup (s : State) (f : Sup → Sup) (x : Nat) : slotAt (modSup s f) x = slotAt s x := rfl

@[simp] theorem setComp_pending (s : State) (i : Nat) (c : Comp) : (setComp s i c).pending = s.pending := rfl
@[simp] theorem setComp_part (s : State) (i : Nat) (c : Comp) : (setComp s i c).part = s.part := rfl
@[simp] theorem setComp_datum (s : State) (i : Nat) (c : Comp) : (setComp s i c).datum = s.datum := rfl
@[simp] theorem setComp_time (s : State) (i : Nat) (c : Comp) : (setComp s i c).time = s.time := rfl
@[simp] theorem setComp_hif (s : State) (i : Nat) (c : Comp) : (setComp s i c).hif = s.hif := rfl
@[simp] theorem setComp_rings (s : State) (i : Nat) (c : Comp) : (setComp s i c).rings = s.rings := rfl
@[simp] theorem setComp_journal (s : State) (i : Nat) (c : Comp) : (setComp s i c).journal = s.journal := rfl
@[simp] theorem setComp_ledger (s : State) (i : Nat) (c : Comp) : (setComp s i c).ledger = s.ledger := rfl
@[simp] theorem setComp_recov (s : State) (i : Nat) (c : Comp) : (setComp s i c).recov = s.recov := rfl
@[simp] theorem setComp_chtabBase (s : State) (i : Nat) (c : Comp) : (setComp s i c).chtabBase = s.chtabBase := rfl
@[simp] theorem setComp_chtabEn (s : State) (i : Nat) (c : Comp) : (setComp s i c).chtabEn = s.chtabEn := rfl
@[simp] theorem setComp_chans (s : State) (i : Nat) (c : Comp) : (setComp s i c).chans = s.chans := rfl
@[simp] theorem setComp_upl (s : State) (i : Nat) (c : Comp) : (setComp s i c).upl = s.upl := rfl
@[simp] theorem setComp_xc (s : State) (i : Nat) (c : Comp) : (setComp s i c).xc = s.xc := rfl
@[simp] theorem setComp_sec (s : State) (i : Nat) (c : Comp) : (setComp s i c).sec = s.sec := rfl
@[simp] theorem setComp_rad (s : State) (i : Nat) (c : Comp) : (setComp s i c).rad = s.rad := rfl
@[simp] theorem setComp_pwr (s : State) (i : Nat) (c : Comp) : (setComp s i c).pwr = s.pwr := rfl
@[simp] theorem setComp_fw (s : State) (i : Nat) (c : Comp) : (setComp s i c).fw = s.fw := rfl
@[simp] theorem setComp_glb (s : State) (i : Nat) (c : Comp) : (setComp s i c).glb = s.glb := rfl
@[simp] theorem setComp_evt (s : State) (i : Nat) (c : Comp) : (setComp s i c).evt = s.evt := rfl
@[simp] theorem setComp_mgt (s : State) (i : Nat) (c : Comp) : (setComp s i c).mgt = s.mgt := rfl
@[simp] theorem setComp_sent (s : State) (i : Nat) (c : Comp) : (setComp s i c).sent = s.sent := rfl
@[simp] theorem setComp_free (s : State) (i : Nat) (c : Comp) : (setComp s i c).free = s.free := rfl
@[simp] theorem ringAt_setComp (s : State) (i : Nat) (c : Comp) (x : Nat) : ringAt (setComp s i c) x = ringAt s x := rfl
@[simp] theorem chanAt_setComp (s : State) (i : Nat) (c : Comp) (x : Nat) : chanAt (setComp s i c) x = chanAt s x := rfl
@[simp] theorem slotAt_setComp (s : State) (i : Nat) (c : Comp) (x : Nat) : slotAt (setComp s i c) x = slotAt s x := rfl

@[simp] theorem modGlb_pending (s : State) (f : Glb → Glb) : (modGlb s f).pending = s.pending := rfl
@[simp] theorem modGlb_part (s : State) (f : Glb → Glb) : (modGlb s f).part = s.part := rfl
@[simp] theorem modGlb_datum (s : State) (f : Glb → Glb) : (modGlb s f).datum = s.datum := rfl
@[simp] theorem modGlb_time (s : State) (f : Glb → Glb) : (modGlb s f).time = s.time := rfl
@[simp] theorem modGlb_hif (s : State) (f : Glb → Glb) : (modGlb s f).hif = s.hif := rfl
@[simp] theorem modGlb_rings (s : State) (f : Glb → Glb) : (modGlb s f).rings = s.rings := rfl
@[simp] theorem modGlb_journal (s : State) (f : Glb → Glb) : (modGlb s f).journal = s.journal := rfl
@[simp] theorem modGlb_ledger (s : State) (f : Glb → Glb) : (modGlb s f).ledger = s.ledger := rfl
@[simp] theorem modGlb_recov (s : State) (f : Glb → Glb) : (modGlb s f).recov = s.recov := rfl
@[simp] theorem modGlb_chtabBase (s : State) (f : Glb → Glb) : (modGlb s f).chtabBase = s.chtabBase := rfl
@[simp] theorem modGlb_chtabEn (s : State) (f : Glb → Glb) : (modGlb s f).chtabEn = s.chtabEn := rfl
@[simp] theorem modGlb_chans (s : State) (f : Glb → Glb) : (modGlb s f).chans = s.chans := rfl
@[simp] theorem modGlb_upl (s : State) (f : Glb → Glb) : (modGlb s f).upl = s.upl := rfl
@[simp] theorem modGlb_xc (s : State) (f : Glb → Glb) : (modGlb s f).xc = s.xc := rfl
@[simp] theorem modGlb_sec (s : State) (f : Glb → Glb) : (modGlb s f).sec = s.sec := rfl
@[simp] theorem modGlb_rad (s : State) (f : Glb → Glb) : (modGlb s f).rad = s.rad := rfl
@[simp] theorem modGlb_sup (s : State) (f : Glb → Glb) : (modGlb s f).sup = s.sup := rfl
@[simp] theorem modGlb_pwr (s : State) (f : Glb → Glb) : (modGlb s f).pwr = s.pwr := rfl
@[simp] theorem modGlb_fw (s : State) (f : Glb → Glb) : (modGlb s f).fw = s.fw := rfl
@[simp] theorem modGlb_evt (s : State) (f : Glb → Glb) : (modGlb s f).evt = s.evt := rfl
@[simp] theorem modGlb_mgt (s : State) (f : Glb → Glb) : (modGlb s f).mgt = s.mgt := rfl
@[simp] theorem modGlb_sent (s : State) (f : Glb → Glb) : (modGlb s f).sent = s.sent := rfl
@[simp] theorem modGlb_free (s : State) (f : Glb → Glb) : (modGlb s f).free = s.free := rfl
@[simp] theorem ringAt_modGlb (s : State) (f : Glb → Glb) (x : Nat) : ringAt (modGlb s f) x = ringAt s x := rfl
@[simp] theorem chanAt_modGlb (s : State) (f : Glb → Glb) (x : Nat) : chanAt (modGlb s f) x = chanAt s x := rfl
@[simp] theorem slotAt_modGlb (s : State) (f : Glb → Glb) (x : Nat) : slotAt (modGlb s f) x = slotAt s x := rfl

@[simp] theorem setUpl_pending (s : State) (f : Upl → Upl) : (setUpl s f).pending = s.pending := rfl
@[simp] theorem setUpl_part (s : State) (f : Upl → Upl) : (setUpl s f).part = s.part := rfl
@[simp] theorem setUpl_datum (s : State) (f : Upl → Upl) : (setUpl s f).datum = s.datum := rfl
@[simp] theorem setUpl_time (s : State) (f : Upl → Upl) : (setUpl s f).time = s.time := rfl
@[simp] theorem setUpl_hif (s : State) (f : Upl → Upl) : (setUpl s f).hif = s.hif := rfl
@[simp] theorem setUpl_rings (s : State) (f : Upl → Upl) : (setUpl s f).rings = s.rings := rfl
@[simp] theorem setUpl_journal (s : State) (f : Upl → Upl) : (setUpl s f).journal = s.journal := rfl
@[simp] theorem setUpl_ledger (s : State) (f : Upl → Upl) : (setUpl s f).ledger = s.ledger := rfl
@[simp] theorem setUpl_recov (s : State) (f : Upl → Upl) : (setUpl s f).recov = s.recov := rfl
@[simp] theorem setUpl_chtabBase (s : State) (f : Upl → Upl) : (setUpl s f).chtabBase = s.chtabBase := rfl
@[simp] theorem setUpl_chtabEn (s : State) (f : Upl → Upl) : (setUpl s f).chtabEn = s.chtabEn := rfl
@[simp] theorem setUpl_chans (s : State) (f : Upl → Upl) : (setUpl s f).chans = s.chans := rfl
@[simp] theorem setUpl_xc (s : State) (f : Upl → Upl) : (setUpl s f).xc = s.xc := rfl
@[simp] theorem setUpl_sec (s : State) (f : Upl → Upl) : (setUpl s f).sec = s.sec := rfl
@[simp] theorem setUpl_rad (s : State) (f : Upl → Upl) : (setUpl s f).rad = s.rad := rfl
@[simp] theorem setUpl_sup (s : State) (f : Upl → Upl) : (setUpl s f).sup = s.sup := rfl
@[simp] theorem setUpl_pwr (s : State) (f : Upl → Upl) : (setUpl s f).pwr = s.pwr := rfl
@[simp] theorem setUpl_fw (s : State) (f : Upl → Upl) : (setUpl s f).fw = s.fw := rfl
@[simp] theorem setUpl_glb (s : State) (f : Upl → Upl) : (setUpl s f).glb = s.glb := rfl
@[simp] theorem setUpl_evt (s : State) (f : Upl → Upl) : (setUpl s f).evt = s.evt := rfl
@[simp] theorem setUpl_mgt (s : State) (f : Upl → Upl) : (setUpl s f).mgt = s.mgt := rfl
@[simp] theorem setUpl_sent (s : State) (f : Upl → Upl) : (setUpl s f).sent = s.sent := rfl
@[simp] theorem setUpl_free (s : State) (f : Upl → Upl) : (setUpl s f).free = s.free := rfl
@[simp] theorem ringAt_setUpl (s : State) (f : Upl → Upl) (x : Nat) : ringAt (setUpl s f) x = ringAt s x := rfl
@[simp] theorem chanAt_setUpl (s : State) (f : Upl → Upl) (x : Nat) : chanAt (setUpl s f) x = chanAt s x := rfl
@[simp] theorem slotAt_setUpl (s : State) (f : Upl → Upl) (x : Nat) : slotAt (setUpl s f) x = slotAt s x := rfl

@[simp] theorem setSec_pending (s : State) (f : Sec → Sec) : (setSec s f).pending = s.pending := rfl
@[simp] theorem setSec_part (s : State) (f : Sec → Sec) : (setSec s f).part = s.part := rfl
@[simp] theorem setSec_datum (s : State) (f : Sec → Sec) : (setSec s f).datum = s.datum := rfl
@[simp] theorem setSec_time (s : State) (f : Sec → Sec) : (setSec s f).time = s.time := rfl
@[simp] theorem setSec_hif (s : State) (f : Sec → Sec) : (setSec s f).hif = s.hif := rfl
@[simp] theorem setSec_rings (s : State) (f : Sec → Sec) : (setSec s f).rings = s.rings := rfl
@[simp] theorem setSec_journal (s : State) (f : Sec → Sec) : (setSec s f).journal = s.journal := rfl
@[simp] theorem setSec_ledger (s : State) (f : Sec → Sec) : (setSec s f).ledger = s.ledger := rfl
@[simp] theorem setSec_recov (s : State) (f : Sec → Sec) : (setSec s f).recov = s.recov := rfl
@[simp] theorem setSec_chtabBase (s : State) (f : Sec → Sec) : (setSec s f).chtabBase = s.chtabBase := rfl
@[simp] theorem setSec_chtabEn (s : State) (f : Sec → Sec) : (setSec s f).chtabEn = s.chtabEn := rfl
@[simp] theorem setSec_chans (s : State) (f : Sec → Sec) : (setSec s f).chans = s.chans := rfl
@[simp] theorem setSec_upl (s : State) (f : Sec → Sec) : (setSec s f).upl = s.upl := rfl
@[simp] theorem setSec_xc (s : State) (f : Sec → Sec) : (setSec s f).xc = s.xc := rfl
@[simp] theorem setSec_rad (s : State) (f : Sec → Sec) : (setSec s f).rad = s.rad := rfl
@[simp] theorem setSec_sup (s : State) (f : Sec → Sec) : (setSec s f).sup = s.sup := rfl
@[simp] theorem setSec_pwr (s : State) (f : Sec → Sec) : (setSec s f).pwr = s.pwr := rfl
@[simp] theorem setSec_fw (s : State) (f : Sec → Sec) : (setSec s f).fw = s.fw := rfl
@[simp] theorem setSec_glb (s : State) (f : Sec → Sec) : (setSec s f).glb = s.glb := rfl
@[simp] theorem setSec_evt (s : State) (f : Sec → Sec) : (setSec s f).evt = s.evt := rfl
@[simp] theorem setSec_mgt (s : State) (f : Sec → Sec) : (setSec s f).mgt = s.mgt := rfl
@[simp] theorem setSec_sent (s : State) (f : Sec → Sec) : (setSec s f).sent = s.sent := rfl
@[simp] theorem setSec_free (s : State) (f : Sec → Sec) : (setSec s f).free = s.free := rfl
@[simp] theorem ringAt_setSec (s : State) (f : Sec → Sec) (x : Nat) : ringAt (setSec s f) x = ringAt s x := rfl
@[simp] theorem chanAt_setSec (s : State) (f : Sec → Sec) (x : Nat) : chanAt (setSec s f) x = chanAt s x := rfl

@[simp] theorem setSlot_pending (s : State) (i : Nat) (f : Slot → Slot) : (setSlot s i f).pending = s.pending := rfl
@[simp] theorem setSlot_part (s : State) (i : Nat) (f : Slot → Slot) : (setSlot s i f).part = s.part := rfl
@[simp] theorem setSlot_datum (s : State) (i : Nat) (f : Slot → Slot) : (setSlot s i f).datum = s.datum := rfl
@[simp] theorem setSlot_time (s : State) (i : Nat) (f : Slot → Slot) : (setSlot s i f).time = s.time := rfl
@[simp] theorem setSlot_hif (s : State) (i : Nat) (f : Slot → Slot) : (setSlot s i f).hif = s.hif := rfl
@[simp] theorem setSlot_rings (s : State) (i : Nat) (f : Slot → Slot) : (setSlot s i f).rings = s.rings := rfl
@[simp] theorem setSlot_journal (s : State) (i : Nat) (f : Slot → Slot) : (setSlot s i f).journal = s.journal := rfl
@[simp] theorem setSlot_ledger (s : State) (i : Nat) (f : Slot → Slot) : (setSlot s i f).ledger = s.ledger := rfl
@[simp] theorem setSlot_recov (s : State) (i : Nat) (f : Slot → Slot) : (setSlot s i f).recov = s.recov := rfl
@[simp] theorem setSlot_chtabBase (s : State) (i : Nat) (f : Slot → Slot) : (setSlot s i f).chtabBase = s.chtabBase := rfl
@[simp] theorem setSlot_chtabEn (s : State) (i : Nat) (f : Slot → Slot) : (setSlot s i f).chtabEn = s.chtabEn := rfl
@[simp] theorem setSlot_chans (s : State) (i : Nat) (f : Slot → Slot) : (setSlot s i f).chans = s.chans := rfl
@[simp] theorem setSlot_upl (s : State) (i : Nat) (f : Slot → Slot) : (setSlot s i f).upl = s.upl := rfl
@[simp] theorem setSlot_xc (s : State) (i : Nat) (f : Slot → Slot) : (setSlot s i f).xc = s.xc := rfl
@[simp] theorem setSlot_rad (s : State) (i : Nat) (f : Slot → Slot) : (setSlot s i f).rad = s.rad := rfl
@[simp] theorem setSlot_sup (s : State) (i : Nat) (f : Slot → Slot) : (setSlot s i f).sup = s.sup := rfl
@[simp] theorem setSlot_pwr (s : State) (i : Nat) (f : Slot → Slot) : (setSlot s i f).pwr = s.pwr := rfl
@[simp] theorem setSlot_fw (s : State) (i : Nat) (f : Slot → Slot) : (setSlot s i f).fw = s.fw := rfl
@[simp] theorem setSlot_glb (s : State) (i : Nat) (f : Slot → Slot) : (setSlot s i f).glb = s.glb := rfl
@[simp] theorem setSlot_evt (s : State) (i : Nat) (f : Slot → Slot) : (setSlot s i f).evt = s.evt := rfl
@[simp] theorem setSlot_mgt (s : State) (i : Nat) (f : Slot → Slot) : (setSlot s i f).mgt = s.mgt := rfl
@[simp] theorem setSlot_sent (s : State) (i : Nat) (f : Slot → Slot) : (setSlot s i f).sent = s.sent := rfl
@[simp] theorem setSlot_free (s : State) (i : Nat) (f : Slot → Slot) : (setSlot s i f).free = s.free := rfl
@[simp] theorem ringAt_setSlot (s : State) (i : Nat) (f : Slot → Slot) (x : Nat) : ringAt (setSlot s i f) x = ringAt s x := rfl
@[simp] theorem chanAt_setSlot (s : State) (i : Nat) (f : Slot → Slot) (x : Nat) : chanAt (setSlot s i f) x = chanAt s x := rfl

@[simp] theorem setCtx_pending (s : State) (i : Nat) (k : CvCtx) : (setCtx s i k).pending = s.pending := rfl
@[simp] theorem setCtx_part (s : State) (i : Nat) (k : CvCtx) : (setCtx s i k).part = s.part := rfl
@[simp] theorem setCtx_datum (s : State) (i : Nat) (k : CvCtx) : (setCtx s i k).datum = s.datum := rfl
@[simp] theorem setCtx_time (s : State) (i : Nat) (k : CvCtx) : (setCtx s i k).time = s.time := rfl
@[simp] theorem setCtx_hif (s : State) (i : Nat) (k : CvCtx) : (setCtx s i k).hif = s.hif := rfl
@[simp] theorem setCtx_rings (s : State) (i : Nat) (k : CvCtx) : (setCtx s i k).rings = s.rings := rfl
@[simp] theorem setCtx_journal (s : State) (i : Nat) (k : CvCtx) : (setCtx s i k).journal = s.journal := rfl
@[simp] theorem setCtx_ledger (s : State) (i : Nat) (k : CvCtx) : (setCtx s i k).ledger = s.ledger := rfl
@[simp] theorem setCtx_recov (s : State) (i : Nat) (k : CvCtx) : (setCtx s i k).recov = s.recov := rfl
@[simp] theorem setCtx_chtabBase (s : State) (i : Nat) (k : CvCtx) : (setCtx s i k).chtabBase = s.chtabBase := rfl
@[simp] theorem setCtx_chtabEn (s : State) (i : Nat) (k : CvCtx) : (setCtx s i k).chtabEn = s.chtabEn := rfl
@[simp] theorem setCtx_chans (s : State) (i : Nat) (k : CvCtx) : (setCtx s i k).chans = s.chans := rfl
@[simp] theorem setCtx_upl (s : State) (i : Nat) (k : CvCtx) : (setCtx s i k).upl = s.upl := rfl
@[simp] theorem setCtx_xc (s : State) (i : Nat) (k : CvCtx) : (setCtx s i k).xc = s.xc := rfl
@[simp] theorem setCtx_rad (s : State) (i : Nat) (k : CvCtx) : (setCtx s i k).rad = s.rad := rfl
@[simp] theorem setCtx_sup (s : State) (i : Nat) (k : CvCtx) : (setCtx s i k).sup = s.sup := rfl
@[simp] theorem setCtx_pwr (s : State) (i : Nat) (k : CvCtx) : (setCtx s i k).pwr = s.pwr := rfl
@[simp] theorem setCtx_fw (s : State) (i : Nat) (k : CvCtx) : (setCtx s i k).fw = s.fw := rfl
@[simp] theorem setCtx_glb (s : State) (i : Nat) (k : CvCtx) : (setCtx s i k).glb = s.glb := rfl
@[simp] theorem setCtx_evt (s : State) (i : Nat) (k : CvCtx) : (setCtx s i k).evt = s.evt := rfl
@[simp] theorem setCtx_mgt (s : State) (i : Nat) (k : CvCtx) : (setCtx s i k).mgt = s.mgt := rfl
@[simp] theorem setCtx_sent (s : State) (i : Nat) (k : CvCtx) : (setCtx s i k).sent = s.sent := rfl
@[simp] theorem setCtx_free (s : State) (i : Nat) (k : CvCtx) : (setCtx s i k).free = s.free := rfl
@[simp] theorem ringAt_setCtx (s : State) (i : Nat) (k : CvCtx) (x : Nat) : ringAt (setCtx s i k) x = ringAt s x := rfl
@[simp] theorem chanAt_setCtx (s : State) (i : Nat) (k : CvCtx) (x : Nat) : chanAt (setCtx s i k) x = chanAt s x := rfl

@[simp] theorem setRad_pending (s : State) (f : Rad → Rad) : (setRad s f).pending = s.pending := rfl
@[simp] theorem setRad_part (s : State) (f : Rad → Rad) : (setRad s f).part = s.part := rfl
@[simp] theorem setRad_datum (s : State) (f : Rad → Rad) : (setRad s f).datum = s.datum := rfl
@[simp] theorem setRad_time (s : State) (f : Rad → Rad) : (setRad s f).time = s.time := rfl
@[simp] theorem setRad_hif (s : State) (f : Rad → Rad) : (setRad s f).hif = s.hif := rfl
@[simp] theorem setRad_rings (s : State) (f : Rad → Rad) : (setRad s f).rings = s.rings := rfl
@[simp] theorem setRad_journal (s : State) (f : Rad → Rad) : (setRad s f).journal = s.journal := rfl
@[simp] theorem setRad_ledger (s : State) (f : Rad → Rad) : (setRad s f).ledger = s.ledger := rfl
@[simp] theorem setRad_recov (s : State) (f : Rad → Rad) : (setRad s f).recov = s.recov := rfl
@[simp] theorem setRad_chtabBase (s : State) (f : Rad → Rad) : (setRad s f).chtabBase = s.chtabBase := rfl
@[simp] theorem setRad_chtabEn (s : State) (f : Rad → Rad) : (setRad s f).chtabEn = s.chtabEn := rfl
@[simp] theorem setRad_chans (s : State) (f : Rad → Rad) : (setRad s f).chans = s.chans := rfl
@[simp] theorem setRad_upl (s : State) (f : Rad → Rad) : (setRad s f).upl = s.upl := rfl
@[simp] theorem setRad_xc (s : State) (f : Rad → Rad) : (setRad s f).xc = s.xc := rfl
@[simp] theorem setRad_sec (s : State) (f : Rad → Rad) : (setRad s f).sec = s.sec := rfl
@[simp] theorem setRad_sup (s : State) (f : Rad → Rad) : (setRad s f).sup = s.sup := rfl
@[simp] theorem setRad_pwr (s : State) (f : Rad → Rad) : (setRad s f).pwr = s.pwr := rfl
@[simp] theorem setRad_fw (s : State) (f : Rad → Rad) : (setRad s f).fw = s.fw := rfl
@[simp] theorem setRad_glb (s : State) (f : Rad → Rad) : (setRad s f).glb = s.glb := rfl
@[simp] theorem setRad_evt (s : State) (f : Rad → Rad) : (setRad s f).evt = s.evt := rfl
@[simp] theorem setRad_mgt (s : State) (f : Rad → Rad) : (setRad s f).mgt = s.mgt := rfl
@[simp] theorem setRad_sent (s : State) (f : Rad → Rad) : (setRad s f).sent = s.sent := rfl
@[simp] theorem setRad_free (s : State) (f : Rad → Rad) : (setRad s f).free = s.free := rfl
@[simp] theorem ringAt_setRad (s : State) (f : Rad → Rad) (x : Nat) : ringAt (setRad s f) x = ringAt s x := rfl
@[simp] theorem chanAt_setRad (s : State) (f : Rad → Rad) (x : Nat) : chanAt (setRad s f) x = chanAt s x := rfl
@[simp] theorem slotAt_setRad (s : State) (f : Rad → Rad) (x : Nat) : slotAt (setRad s f) x = slotAt s x := rfl

@[simp] theorem setTx_pending (s : State) (y : Option RadTx) : (setTx s y).pending = s.pending := rfl
@[simp] theorem setTx_part (s : State) (y : Option RadTx) : (setTx s y).part = s.part := rfl
@[simp] theorem setTx_datum (s : State) (y : Option RadTx) : (setTx s y).datum = s.datum := rfl
@[simp] theorem setTx_time (s : State) (y : Option RadTx) : (setTx s y).time = s.time := rfl
@[simp] theorem setTx_hif (s : State) (y : Option RadTx) : (setTx s y).hif = s.hif := rfl
@[simp] theorem setTx_rings (s : State) (y : Option RadTx) : (setTx s y).rings = s.rings := rfl
@[simp] theorem setTx_journal (s : State) (y : Option RadTx) : (setTx s y).journal = s.journal := rfl
@[simp] theorem setTx_ledger (s : State) (y : Option RadTx) : (setTx s y).ledger = s.ledger := rfl
@[simp] theorem setTx_recov (s : State) (y : Option RadTx) : (setTx s y).recov = s.recov := rfl
@[simp] theorem setTx_chtabBase (s : State) (y : Option RadTx) : (setTx s y).chtabBase = s.chtabBase := rfl
@[simp] theorem setTx_chtabEn (s : State) (y : Option RadTx) : (setTx s y).chtabEn = s.chtabEn := rfl
@[simp] theorem setTx_chans (s : State) (y : Option RadTx) : (setTx s y).chans = s.chans := rfl
@[simp] theorem setTx_upl (s : State) (y : Option RadTx) : (setTx s y).upl = s.upl := rfl
@[simp] theorem setTx_xc (s : State) (y : Option RadTx) : (setTx s y).xc = s.xc := rfl
@[simp] theorem setTx_sec (s : State) (y : Option RadTx) : (setTx s y).sec = s.sec := rfl
@[simp] theorem setTx_sup (s : State) (y : Option RadTx) : (setTx s y).sup = s.sup := rfl
@[simp] theorem setTx_pwr (s : State) (y : Option RadTx) : (setTx s y).pwr = s.pwr := rfl
@[simp] theorem setTx_fw (s : State) (y : Option RadTx) : (setTx s y).fw = s.fw := rfl
@[simp] theorem setTx_glb (s : State) (y : Option RadTx) : (setTx s y).glb = s.glb := rfl
@[simp] theorem setTx_evt (s : State) (y : Option RadTx) : (setTx s y).evt = s.evt := rfl
@[simp] theorem setTx_mgt (s : State) (y : Option RadTx) : (setTx s y).mgt = s.mgt := rfl
@[simp] theorem setTx_sent (s : State) (y : Option RadTx) : (setTx s y).sent = s.sent := rfl
@[simp] theorem setTx_free (s : State) (y : Option RadTx) : (setTx s y).free = s.free := rfl
@[simp] theorem ringAt_setTx (s : State) (y : Option RadTx) (x : Nat) : ringAt (setTx s y) x = ringAt s x := rfl
@[simp] theorem chanAt_setTx (s : State) (y : Option RadTx) (x : Nat) : chanAt (setTx s y) x = chanAt s x := rfl
@[simp] theorem slotAt_setTx (s : State) (y : Option RadTx) (x : Nat) : slotAt (setTx s y) x = slotAt s x := rfl

@[simp] theorem modTime_pending (s : State) (f : Time → Time) : (modTime s f).pending = s.pending := rfl
@[simp] theorem modTime_part (s : State) (f : Time → Time) : (modTime s f).part = s.part := rfl
@[simp] theorem modTime_datum (s : State) (f : Time → Time) : (modTime s f).datum = s.datum := rfl
@[simp] theorem modTime_hif (s : State) (f : Time → Time) : (modTime s f).hif = s.hif := rfl
@[simp] theorem modTime_rings (s : State) (f : Time → Time) : (modTime s f).rings = s.rings := rfl
@[simp] theorem modTime_journal (s : State) (f : Time → Time) : (modTime s f).journal = s.journal := rfl
@[simp] theorem modTime_ledger (s : State) (f : Time → Time) : (modTime s f).ledger = s.ledger := rfl
@[simp] theorem modTime_recov (s : State) (f : Time → Time) : (modTime s f).recov = s.recov := rfl
@[simp] theorem modTime_chtabBase (s : State) (f : Time → Time) : (modTime s f).chtabBase = s.chtabBase := rfl
@[simp] theorem modTime_chtabEn (s : State) (f : Time → Time) : (modTime s f).chtabEn = s.chtabEn := rfl
@[simp] theorem modTime_chans (s : State) (f : Time → Time) : (modTime s f).chans = s.chans := rfl
@[simp] theorem modTime_upl (s : State) (f : Time → Time) : (modTime s f).upl = s.upl := rfl
@[simp] theorem modTime_xc (s : State) (f : Time → Time) : (modTime s f).xc = s.xc := rfl
@[simp] theorem modTime_sec (s : State) (f : Time → Time) : (modTime s f).sec = s.sec := rfl
@[simp] theorem modTime_rad (s : State) (f : Time → Time) : (modTime s f).rad = s.rad := rfl
@[simp] theorem modTime_sup (s : State) (f : Time → Time) : (modTime s f).sup = s.sup := rfl
@[simp] theorem modTime_pwr (s : State) (f : Time → Time) : (modTime s f).pwr = s.pwr := rfl
@[simp] theorem modTime_fw (s : State) (f : Time → Time) : (modTime s f).fw = s.fw := rfl
@[simp] theorem modTime_glb (s : State) (f : Time → Time) : (modTime s f).glb = s.glb := rfl
@[simp] theorem modTime_evt (s : State) (f : Time → Time) : (modTime s f).evt = s.evt := rfl
@[simp] theorem modTime_mgt (s : State) (f : Time → Time) : (modTime s f).mgt = s.mgt := rfl
@[simp] theorem modTime_sent (s : State) (f : Time → Time) : (modTime s f).sent = s.sent := rfl
@[simp] theorem modTime_free (s : State) (f : Time → Time) : (modTime s f).free = s.free := rfl
@[simp] theorem ringAt_modTime (s : State) (f : Time → Time) (x : Nat) : ringAt (modTime s f) x = ringAt s x := rfl
@[simp] theorem chanAt_modTime (s : State) (f : Time → Time) (x : Nat) : chanAt (modTime s f) x = chanAt s x := rfl
@[simp] theorem slotAt_modTime (s : State) (f : Time → Time) (x : Nat) : slotAt (modTime s f) x = slotAt s x := rfl

@[simp] theorem modMgt_pending (s : State) (f : Mgt → Mgt) : (modMgt s f).pending = s.pending := rfl
@[simp] theorem modMgt_part (s : State) (f : Mgt → Mgt) : (modMgt s f).part = s.part := rfl
@[simp] theorem modMgt_datum (s : State) (f : Mgt → Mgt) : (modMgt s f).datum = s.datum := rfl
@[simp] theorem modMgt_time (s : State) (f : Mgt → Mgt) : (modMgt s f).time = s.time := rfl
@[simp] theorem modMgt_hif (s : State) (f : Mgt → Mgt) : (modMgt s f).hif = s.hif := rfl
@[simp] theorem modMgt_rings (s : State) (f : Mgt → Mgt) : (modMgt s f).rings = s.rings := rfl
@[simp] theorem modMgt_journal (s : State) (f : Mgt → Mgt) : (modMgt s f).journal = s.journal := rfl
@[simp] theorem modMgt_ledger (s : State) (f : Mgt → Mgt) : (modMgt s f).ledger = s.ledger := rfl
@[simp] theorem modMgt_recov (s : State) (f : Mgt → Mgt) : (modMgt s f).recov = s.recov := rfl
@[simp] theorem modMgt_chtabBase (s : State) (f : Mgt → Mgt) : (modMgt s f).chtabBase = s.chtabBase := rfl
@[simp] theorem modMgt_chtabEn (s : State) (f : Mgt → Mgt) : (modMgt s f).chtabEn = s.chtabEn := rfl
@[simp] theorem modMgt_chans (s : State) (f : Mgt → Mgt) : (modMgt s f).chans = s.chans := rfl
@[simp] theorem modMgt_upl (s : State) (f : Mgt → Mgt) : (modMgt s f).upl = s.upl := rfl
@[simp] theorem modMgt_xc (s : State) (f : Mgt → Mgt) : (modMgt s f).xc = s.xc := rfl
@[simp] theorem modMgt_sec (s : State) (f : Mgt → Mgt) : (modMgt s f).sec = s.sec := rfl
@[simp] theorem modMgt_rad (s : State) (f : Mgt → Mgt) : (modMgt s f).rad = s.rad := rfl
@[simp] theorem modMgt_sup (s : State) (f : Mgt → Mgt) : (modMgt s f).sup = s.sup := rfl
@[simp] theorem modMgt_pwr (s : State) (f : Mgt → Mgt) : (modMgt s f).pwr = s.pwr := rfl
@[simp] theorem modMgt_fw (s : State) (f : Mgt → Mgt) : (modMgt s f).fw = s.fw := rfl
@[simp] theorem modMgt_glb (s : State) (f : Mgt → Mgt) : (modMgt s f).glb = s.glb := rfl
@[simp] theorem modMgt_evt (s : State) (f : Mgt → Mgt) : (modMgt s f).evt = s.evt := rfl
@[simp] theorem modMgt_sent (s : State) (f : Mgt → Mgt) : (modMgt s f).sent = s.sent := rfl
@[simp] theorem modMgt_free (s : State) (f : Mgt → Mgt) : (modMgt s f).free = s.free := rfl
@[simp] theorem ringAt_modMgt (s : State) (f : Mgt → Mgt) (x : Nat) : ringAt (modMgt s f) x = ringAt s x := rfl
@[simp] theorem chanAt_modMgt (s : State) (f : Mgt → Mgt) (x : Nat) : chanAt (modMgt s f) x = chanAt s x := rfl
@[simp] theorem slotAt_modMgt (s : State) (f : Mgt → Mgt) (x : Nat) : slotAt (modMgt s f) x = slotAt s x := rfl

@[simp] theorem setFtPort_pending (s : State) (p : Nat) (f : FtPort → FtPort) : (setFtPort s p f).pending = s.pending := rfl
@[simp] theorem setFtPort_part (s : State) (p : Nat) (f : FtPort → FtPort) : (setFtPort s p f).part = s.part := rfl
@[simp] theorem setFtPort_datum (s : State) (p : Nat) (f : FtPort → FtPort) : (setFtPort s p f).datum = s.datum := rfl
@[simp] theorem setFtPort_time (s : State) (p : Nat) (f : FtPort → FtPort) : (setFtPort s p f).time = s.time := rfl
@[simp] theorem setFtPort_hif (s : State) (p : Nat) (f : FtPort → FtPort) : (setFtPort s p f).hif = s.hif := rfl
@[simp] theorem setFtPort_rings (s : State) (p : Nat) (f : FtPort → FtPort) : (setFtPort s p f).rings = s.rings := rfl
@[simp] theorem setFtPort_journal (s : State) (p : Nat) (f : FtPort → FtPort) : (setFtPort s p f).journal = s.journal := rfl
@[simp] theorem setFtPort_ledger (s : State) (p : Nat) (f : FtPort → FtPort) : (setFtPort s p f).ledger = s.ledger := rfl
@[simp] theorem setFtPort_recov (s : State) (p : Nat) (f : FtPort → FtPort) : (setFtPort s p f).recov = s.recov := rfl
@[simp] theorem setFtPort_chtabBase (s : State) (p : Nat) (f : FtPort → FtPort) : (setFtPort s p f).chtabBase = s.chtabBase := rfl
@[simp] theorem setFtPort_chtabEn (s : State) (p : Nat) (f : FtPort → FtPort) : (setFtPort s p f).chtabEn = s.chtabEn := rfl
@[simp] theorem setFtPort_chans (s : State) (p : Nat) (f : FtPort → FtPort) : (setFtPort s p f).chans = s.chans := rfl
@[simp] theorem setFtPort_upl (s : State) (p : Nat) (f : FtPort → FtPort) : (setFtPort s p f).upl = s.upl := rfl
@[simp] theorem setFtPort_sec (s : State) (p : Nat) (f : FtPort → FtPort) : (setFtPort s p f).sec = s.sec := rfl
@[simp] theorem setFtPort_rad (s : State) (p : Nat) (f : FtPort → FtPort) : (setFtPort s p f).rad = s.rad := rfl
@[simp] theorem setFtPort_sup (s : State) (p : Nat) (f : FtPort → FtPort) : (setFtPort s p f).sup = s.sup := rfl
@[simp] theorem setFtPort_pwr (s : State) (p : Nat) (f : FtPort → FtPort) : (setFtPort s p f).pwr = s.pwr := rfl
@[simp] theorem setFtPort_fw (s : State) (p : Nat) (f : FtPort → FtPort) : (setFtPort s p f).fw = s.fw := rfl
@[simp] theorem setFtPort_glb (s : State) (p : Nat) (f : FtPort → FtPort) : (setFtPort s p f).glb = s.glb := rfl
@[simp] theorem setFtPort_evt (s : State) (p : Nat) (f : FtPort → FtPort) : (setFtPort s p f).evt = s.evt := rfl
@[simp] theorem setFtPort_mgt (s : State) (p : Nat) (f : FtPort → FtPort) : (setFtPort s p f).mgt = s.mgt := rfl
@[simp] theorem setFtPort_sent (s : State) (p : Nat) (f : FtPort → FtPort) : (setFtPort s p f).sent = s.sent := rfl
@[simp] theorem setFtPort_free (s : State) (p : Nat) (f : FtPort → FtPort) : (setFtPort s p f).free = s.free := rfl
@[simp] theorem ringAt_setFtPort (s : State) (p : Nat) (f : FtPort → FtPort) (x : Nat) : ringAt (setFtPort s p f) x = ringAt s x := rfl
@[simp] theorem chanAt_setFtPort (s : State) (p : Nat) (f : FtPort → FtPort) (x : Nat) : chanAt (setFtPort s p f) x = chanAt s x := rfl
@[simp] theorem slotAt_setFtPort (s : State) (p : Nat) (f : FtPort → FtPort) (x : Nat) : slotAt (setFtPort s p f) x = slotAt s x := rfl

@[simp] theorem sendWrite_pending (s : State) (f a : Nat) (b : List Byte) : (sendWrite s f a b).pending = s.pending := rfl
@[simp] theorem sendWrite_part (s : State) (f a : Nat) (b : List Byte) : (sendWrite s f a b).part = s.part := rfl
@[simp] theorem sendWrite_datum (s : State) (f a : Nat) (b : List Byte) : (sendWrite s f a b).datum = s.datum := rfl
@[simp] theorem sendWrite_time (s : State) (f a : Nat) (b : List Byte) : (sendWrite s f a b).time = s.time := rfl
@[simp] theorem sendWrite_hif (s : State) (f a : Nat) (b : List Byte) : (sendWrite s f a b).hif = s.hif := rfl
@[simp] theorem sendWrite_rings (s : State) (f a : Nat) (b : List Byte) : (sendWrite s f a b).rings = s.rings := rfl
@[simp] theorem sendWrite_journal (s : State) (f a : Nat) (b : List Byte) : (sendWrite s f a b).journal = s.journal := rfl
@[simp] theorem sendWrite_ledger (s : State) (f a : Nat) (b : List Byte) : (sendWrite s f a b).ledger = s.ledger := rfl
@[simp] theorem sendWrite_recov (s : State) (f a : Nat) (b : List Byte) : (sendWrite s f a b).recov = s.recov := rfl
@[simp] theorem sendWrite_chtabBase (s : State) (f a : Nat) (b : List Byte) : (sendWrite s f a b).chtabBase = s.chtabBase := rfl
@[simp] theorem sendWrite_chtabEn (s : State) (f a : Nat) (b : List Byte) : (sendWrite s f a b).chtabEn = s.chtabEn := rfl
@[simp] theorem sendWrite_chans (s : State) (f a : Nat) (b : List Byte) : (sendWrite s f a b).chans = s.chans := rfl
@[simp] theorem sendWrite_upl (s : State) (f a : Nat) (b : List Byte) : (sendWrite s f a b).upl = s.upl := rfl
@[simp] theorem sendWrite_xc (s : State) (f a : Nat) (b : List Byte) : (sendWrite s f a b).xc = s.xc := rfl
@[simp] theorem sendWrite_sec (s : State) (f a : Nat) (b : List Byte) : (sendWrite s f a b).sec = s.sec := rfl
@[simp] theorem sendWrite_rad (s : State) (f a : Nat) (b : List Byte) : (sendWrite s f a b).rad = s.rad := rfl
@[simp] theorem sendWrite_sup (s : State) (f a : Nat) (b : List Byte) : (sendWrite s f a b).sup = s.sup := rfl
@[simp] theorem sendWrite_pwr (s : State) (f a : Nat) (b : List Byte) : (sendWrite s f a b).pwr = s.pwr := rfl
@[simp] theorem sendWrite_fw (s : State) (f a : Nat) (b : List Byte) : (sendWrite s f a b).fw = s.fw := rfl
@[simp] theorem sendWrite_glb (s : State) (f a : Nat) (b : List Byte) : (sendWrite s f a b).glb = s.glb := rfl
@[simp] theorem sendWrite_evt (s : State) (f a : Nat) (b : List Byte) : (sendWrite s f a b).evt = s.evt := rfl
@[simp] theorem sendWrite_mgt (s : State) (f a : Nat) (b : List Byte) : (sendWrite s f a b).mgt = s.mgt := rfl
@[simp] theorem sendWrite_free (s : State) (f a : Nat) (b : List Byte) : (sendWrite s f a b).free = s.free := rfl
@[simp] theorem sendRead_pending (s : State) (f a n : Nat) : (sendRead s f a n).pending = s.pending := rfl
@[simp] theorem sendRead_part (s : State) (f a n : Nat) : (sendRead s f a n).part = s.part := rfl
@[simp] theorem sendRead_datum (s : State) (f a n : Nat) : (sendRead s f a n).datum = s.datum := rfl
@[simp] theorem sendRead_time (s : State) (f a n : Nat) : (sendRead s f a n).time = s.time := rfl
@[simp] theorem sendRead_hif (s : State) (f a n : Nat) : (sendRead s f a n).hif = s.hif := rfl
@[simp] theorem sendRead_rings (s : State) (f a n : Nat) : (sendRead s f a n).rings = s.rings := rfl
@[simp] theorem sendRead_journal (s : State) (f a n : Nat) : (sendRead s f a n).journal = s.journal := rfl
@[simp] theorem sendRead_ledger (s : State) (f a n : Nat) : (sendRead s f a n).ledger = s.ledger := rfl
@[simp] theorem sendRead_recov (s : State) (f a n : Nat) : (sendRead s f a n).recov = s.recov := rfl
@[simp] theorem sendRead_chtabBase (s : State) (f a n : Nat) : (sendRead s f a n).chtabBase = s.chtabBase := rfl
@[simp] theorem sendRead_chtabEn (s : State) (f a n : Nat) : (sendRead s f a n).chtabEn = s.chtabEn := rfl
@[simp] theorem sendRead_chans (s : State) (f a n : Nat) : (sendRead s f a n).chans = s.chans := rfl
@[simp] theorem sendRead_upl (s : State) (f a n : Nat) : (sendRead s f a n).upl = s.upl := rfl
@[simp] theorem sendRead_xc (s : State) (f a n : Nat) : (sendRead s f a n).xc = s.xc := rfl
@[simp] theorem sendRead_sec (s : State) (f a n : Nat) : (sendRead s f a n).sec = s.sec := rfl
@[simp] theorem sendRead_rad (s : State) (f a n : Nat) : (sendRead s f a n).rad = s.rad := rfl
@[simp] theorem sendRead_sup (s : State) (f a n : Nat) : (sendRead s f a n).sup = s.sup := rfl
@[simp] theorem sendRead_pwr (s : State) (f a n : Nat) : (sendRead s f a n).pwr = s.pwr := rfl
@[simp] theorem sendRead_fw (s : State) (f a n : Nat) : (sendRead s f a n).fw = s.fw := rfl
@[simp] theorem sendRead_glb (s : State) (f a n : Nat) : (sendRead s f a n).glb = s.glb := rfl
@[simp] theorem sendRead_evt (s : State) (f a n : Nat) : (sendRead s f a n).evt = s.evt := rfl
@[simp] theorem sendRead_mgt (s : State) (f a n : Nat) : (sendRead s f a n).mgt = s.mgt := rfl
@[simp] theorem sendRead_free (s : State) (f a n : Nat) : (sendRead s f a n).free = s.free := rfl

/-! ### What a whole-field update gives -/

@[simp] theorem modFw_fw (s : State) (f : Fw → Fw) : (modFw s f).fw = f s.fw := rfl
@[simp] theorem modPwr_pwr (s : State) (f : Pwr → Pwr) : (modPwr s f).pwr = f s.pwr := rfl
@[simp] theorem modHif_hif (s : State) (f : Hif → Hif) : (modHif s f).hif = f s.hif := rfl
@[simp] theorem modSup_sup (s : State) (f : Sup → Sup) : (modSup s f).sup = f s.sup := rfl
@[simp] theorem modGlb_glb (s : State) (f : Glb → Glb) : (modGlb s f).glb = f s.glb := rfl
@[simp] theorem setUpl_upl (s : State) (f : Upl → Upl) : (setUpl s f).upl = f s.upl := rfl
@[simp] theorem setSec_sec (s : State) (f : Sec → Sec) : (setSec s f).sec = f s.sec := rfl
@[simp] theorem setRad_rad (s : State) (f : Rad → Rad) : (setRad s f).rad = f s.rad := rfl
@[simp] theorem modTime_time (s : State) (f : Time → Time) : (modTime s f).time = f s.time := rfl
@[simp] theorem modMgt_mgt (s : State) (f : Mgt → Mgt) : (modMgt s f).mgt = f s.mgt := rfl
@[simp] theorem emitOut_sent (s : State) (o : Out) : (emitOut s o).sent = o :: s.sent := rfl
@[simp] theorem drew_free (s : State) : (drew s).free = s.free + 1 := rfl

end Sys2Proof.Machine
end

