-- ==== Sys2Proof/Laws/Events.lean ====
section
/-! SUPPORT. Laws of an occurrence (R365 to R372): raising an event touches the event fabric, the functions' vector tables and what is sent, and nothing else. -/

namespace Sys2Proof.Machine

open Sys2Proof

/-- t differs from s at most in the event fabric, the functions' pending vectors and what was sent. -/
def EvtOnly (s t : State) : Prop :=
  t = { s with evt := t.evt, hif := { s.hif with funcs := t.hif.funcs }, sent := t.sent }

theorem EvtOnly.refl (s : State) : EvtOnly s s := rfl

theorem EvtOnly.trans {s t u : State} (h : EvtOnly s t) (k : EvtOnly t u) : EvtOnly s u := by
  unfold EvtOnly at *
  rw [h] at k
  exact k

theorem sendMsix_evtOnly (s : State) (fv : Nat × Nat) : EvtOnly s (sendMsix s fv) := by
  unfold sendMsix EvtOnly
  simp only
  split
  · rfl
  · split <;> rfl

theorem sendAll_evtOnly (s : State) (l : List (Nat × Nat)) : EvtOnly s (sendAll s l) := by
  unfold sendAll
  induction l generalizing s with
  | nil => exact EvtOnly.refl s
  | cons a l ih => exact (sendMsix_evtOnly s a).trans (ih _)

theorem raiseFuel_evtOnly (n : Nat) (s : State) (src scope : Nat) (info1 : Word) (inc : Nat) :
    EvtOnly s (raiseFuel n s src scope info1 inc) := by
  induction n generalizing s src scope info1 inc with
  | zero => exact EvtOnly.refl s
  | succ n ih =>
    unfold raiseFuel
    simp only
    have fold : ∀ (l : List (Nat × Nat)) (t : State),
        EvtOnly t (l.foldl (fun t w => raiseFuel n t Src.counterWrap w.1 (word w.2) 1) t) := by
      intro l
      induction l with
      | nil => intro t; exact EvtOnly.refl t
      | cons a l il => intro t; exact (ih _ _ _ _ _).trans (il _)
    have h0 : ∀ e : Evt, EvtOnly s { s with evt := e } := fun _ => rfl
    refine EvtOnly.trans ?_ (fold _ _)
    split
    · exact (h0 _).trans ((sendAll_evtOnly _ _).trans (ih _ _ _ _ _))
    · exact (h0 _).trans (sendAll_evtOnly _ _)

theorem raise_evtOnly (s : State) (src scope : Nat) (info1 : Word) : EvtOnly s (raise s src scope info1) :=
  raiseFuel_evtOnly raiseChain s src scope info1 1

theorem raiseC_evtOnly (s : State) (src scope inc : Nat) : EvtOnly s (raiseC s src scope inc) := by
  unfold raiseC
  split
  · exact EvtOnly.refl s
  · exact raiseFuel_evtOnly raiseChain s src scope _ inc

theorem fwDenied_evtOnly (s : State) (off : Nat) : EvtOnly s (fwDenied s off) := raise_evtOnly s _ _ _

/-! ### Field by field -/

theorem EvtOnly.pending {s t : State} (h : EvtOnly s t) : t.pending = s.pending := by rw [h]
theorem EvtOnly.part {s t : State} (h : EvtOnly s t) : t.part = s.part := by rw [h]
theorem EvtOnly.datum {s t : State} (h : EvtOnly s t) : t.datum = s.datum := by rw [h]
theorem EvtOnly.time {s t : State} (h : EvtOnly s t) : t.time = s.time := by rw [h]
theorem EvtOnly.rings {s t : State} (h : EvtOnly s t) : t.rings = s.rings := by rw [h]
theorem EvtOnly.journal {s t : State} (h : EvtOnly s t) : t.journal = s.journal := by rw [h]
theorem EvtOnly.ledger {s t : State} (h : EvtOnly s t) : t.ledger = s.ledger := by rw [h]
theorem EvtOnly.recov {s t : State} (h : EvtOnly s t) : t.recov = s.recov := by rw [h]
theorem EvtOnly.chtabBase {s t : State} (h : EvtOnly s t) : t.chtabBase = s.chtabBase := by rw [h]
theorem EvtOnly.chtabEn {s t : State} (h : EvtOnly s t) : t.chtabEn = s.chtabEn := by rw [h]
theorem EvtOnly.chans {s t : State} (h : EvtOnly s t) : t.chans = s.chans := by rw [h]
theorem EvtOnly.upl {s t : State} (h : EvtOnly s t) : t.upl = s.upl := by rw [h]
theorem EvtOnly.xc {s t : State} (h : EvtOnly s t) : t.xc = s.xc := by rw [h]
theorem EvtOnly.sec {s t : State} (h : EvtOnly s t) : t.sec = s.sec := by rw [h]
theorem EvtOnly.rad {s t : State} (h : EvtOnly s t) : t.rad = s.rad := by rw [h]
theorem EvtOnly.sup {s t : State} (h : EvtOnly s t) : t.sup = s.sup := by rw [h]
theorem EvtOnly.pwr {s t : State} (h : EvtOnly s t) : t.pwr = s.pwr := by rw [h]
theorem EvtOnly.fw {s t : State} (h : EvtOnly s t) : t.fw = s.fw := by rw [h]
theorem EvtOnly.glb {s t : State} (h : EvtOnly s t) : t.glb = s.glb := by rw [h]
theorem EvtOnly.mgt {s t : State} (h : EvtOnly s t) : t.mgt = s.mgt := by rw [h]
theorem EvtOnly.free {s t : State} (h : EvtOnly s t) : t.free = s.free := by rw [h]
theorem EvtOnly.hif_lock {s t : State} (h : EvtOnly s t) : t.hif.lock = s.hif.lock := by rw [h]
theorem EvtOnly.hif_linkUp {s t : State} (h : EvtOnly s t) : t.hif.linkUp = s.hif.linkUp := by rw [h]
theorem EvtOnly.hif_width {s t : State} (h : EvtOnly s t) : t.hif.width = s.hif.width := by rw [h]
theorem EvtOnly.hif_speed {s t : State} (h : EvtOnly s t) : t.hif.speed = s.hif.speed := by rw [h]
theorem EvtOnly.hif_faultValid {s t : State} (h : EvtOnly s t) : t.hif.faultValid = s.hif.faultValid := by rw [h]
theorem EvtOnly.hif_faultKind {s t : State} (h : EvtOnly s t) : t.hif.faultKind = s.hif.faultKind := by rw [h]
theorem EvtOnly.hif_faultRing {s t : State} (h : EvtOnly s t) : t.hif.faultRing = s.hif.faultRing := by rw [h]
theorem EvtOnly.hif_faultFn {s t : State} (h : EvtOnly s t) : t.hif.faultFn = s.hif.faultFn := by rw [h]
theorem EvtOnly.hif_faultAddr {s t : State} (h : EvtOnly s t) : t.hif.faultAddr = s.hif.faultAddr := by rw [h]
theorem EvtOnly.hif_windows {s t : State} (h : EvtOnly s t) : t.hif.windows = s.hif.windows := by rw [h]
theorem EvtOnly.hif_winLo {s t : State} (h : EvtOnly s t) : t.hif.winLo = s.hif.winLo := by rw [h]
theorem EvtOnly.hif_vfEnable {s t : State} (h : EvtOnly s t) : t.hif.vfEnable = s.hif.vfEnable := by rw [h]
theorem EvtOnly.hif_numVfs {s t : State} (h : EvtOnly s t) : t.hif.numVfs = s.hif.numVfs := by rw [h]
theorem EvtOnly.hif_mps256 {s t : State} (h : EvtOnly s t) : t.hif.mps256 = s.hif.mps256 := by rw [h]
theorem EvtOnly.hif_mrrs {s t : State} (h : EvtOnly s t) : t.hif.mrrs = s.hif.mrrs := by rw [h]
theorem EvtOnly.hif_crs {s t : State} (h : EvtOnly s t) : t.hif.crs = s.hif.crs := by rw [h]
theorem EvtOnly.hif_perst {s t : State} (h : EvtOnly s t) : t.hif.perst = s.hif.perst := by rw [h]
theorem EvtOnly.hif_pcieWake {s t : State} (h : EvtOnly s t) : t.hif.pcieWake = s.hif.pcieWake := by rw [h]
theorem EvtOnly.hif_rrExpress {s t : State} (h : EvtOnly s t) : t.hif.rrExpress = s.hif.rrExpress := by rw [h]
theorem EvtOnly.hif_rrControl {s t : State} (h : EvtOnly s t) : t.hif.rrControl = s.hif.rrControl := by rw [h]
theorem EvtOnly.hif_rrBulk {s t : State} (h : EvtOnly s t) : t.hif.rrBulk = s.hif.rrBulk := by rw [h]
theorem EvtOnly.hif_fetchStop {s t : State} (h : EvtOnly s t) : t.hif.fetchStop = s.hif.fetchStop := by rw [h]
theorem EvtOnly.hif_l2 {s t : State} (h : EvtOnly s t) : t.hif.l2 = s.hif.l2 := by rw [h]
theorem EvtOnly.hif_latchPcie {s t : State} (h : EvtOnly s t) : t.hif.latchPcie = s.hif.latchPcie := by rw [h]
theorem EvtOnly.hif_latchAhn {s t : State} (h : EvtOnly s t) : t.hif.latchAhn = s.hif.latchAhn := by rw [h]
theorem EvtOnly.ringAt {s t : State} (h : EvtOnly s t) (r : Nat) : ringAt t r = ringAt s r := by unfold Machine.ringAt; rw [h.rings]
theorem EvtOnly.chanAt {s t : State} (h : EvtOnly s t) (c : Nat) : chanAt t c = chanAt s c := by unfold Machine.chanAt; rw [h.chans]
theorem EvtOnly.slotAt {s t : State} (h : EvtOnly s t) (i : Nat) : slotAt t i = slotAt s i := by unfold Machine.slotAt; rw [h.sec]

@[simp] theorem raise_pending (s : State) (src scope : Nat) (i : Word) : (raise s src scope i).pending = s.pending := (raise_evtOnly s src scope i).pending
@[simp] theorem raise_part (s : State) (src scope : Nat) (i : Word) : (raise s src scope i).part = s.part := (raise_evtOnly s src scope i).part
@[simp] theorem raise_datum (s : State) (src scope : Nat) (i : Word) : (raise s src scope i).datum = s.datum := (raise_evtOnly s src scope i).datum
@[simp] theorem raise_time (s : State) (src scope : Nat) (i : Word) : (raise s src scope i).time = s.time := (raise_evtOnly s src scope i).time
@[simp] theorem raise_rings (s : State) (src scope : Nat) (i : Word) : (raise s src scope i).rings = s.rings := (raise_evtOnly s src scope i).rings
@[simp] theorem raise_journal (s : State) (src scope : Nat) (i : Word) : (raise s src scope i).journal = s.journal := (raise_evtOnly s src scope i).journal
@[simp] theorem raise_ledger (s : State) (src scope : Nat) (i : Word) : (raise s src scope i).ledger = s.ledger := (raise_evtOnly s src scope i).ledger
@[simp] theorem raise_recov (s : State) (src scope : Nat) (i : Word) : (raise s src scope i).recov = s.recov := (raise_evtOnly s src scope i).recov
@[simp] theorem raise_chtabBase (s : State) (src scope : Nat) (i : Word) : (raise s src scope i).chtabBase = s.chtabBase := (raise_evtOnly s src scope i).chtabBase
@[simp] theorem raise_chtabEn (s : State) (src scope : Nat) (i : Word) : (raise s src scope i).chtabEn = s.chtabEn := (raise_evtOnly s src scope i).chtabEn
@[simp] theorem raise_chans (s : State) (src scope : Nat) (i : Word) : (raise s src scope i).chans = s.chans := (raise_evtOnly s src scope i).chans
@[simp] theorem raise_upl (s : State) (src scope : Nat) (i : Word) : (raise s src scope i).upl = s.upl := (raise_evtOnly s src scope i).upl
@[simp] theorem raise_xc (s : State) (src scope : Nat) (i : Word) : (raise s src scope i).xc = s.xc := (raise_evtOnly s src scope i).xc
@[simp] theorem raise_sec (s : State) (src scope : Nat) (i : Word) : (raise s src scope i).sec = s.sec := (raise_evtOnly s src scope i).sec
@[simp] theorem raise_rad (s : State) (src scope : Nat) (i : Word) : (raise s src scope i).rad = s.rad := (raise_evtOnly s src scope i).rad
@[simp] theorem raise_sup (s : State) (src scope : Nat) (i : Word) : (raise s src scope i).sup = s.sup := (raise_evtOnly s src scope i).sup
@[simp] theorem raise_pwr (s : State) (src scope : Nat) (i : Word) : (raise s src scope i).pwr = s.pwr := (raise_evtOnly s src scope i).pwr
@[simp] theorem raise_fw (s : State) (src scope : Nat) (i : Word) : (raise s src scope i).fw = s.fw := (raise_evtOnly s src scope i).fw
@[simp] theorem raise_glb (s : State) (src scope : Nat) (i : Word) : (raise s src scope i).glb = s.glb := (raise_evtOnly s src scope i).glb
@[simp] theorem raise_mgt (s : State) (src scope : Nat) (i : Word) : (raise s src scope i).mgt = s.mgt := (raise_evtOnly s src scope i).mgt
@[simp] theorem raise_free (s : State) (src scope : Nat) (i : Word) : (raise s src scope i).free = s.free := (raise_evtOnly s src scope i).free
@[simp] theorem raise_hif_lock (s : State) (src scope : Nat) (i : Word) : (raise s src scope i).hif.lock = s.hif.lock := (raise_evtOnly s src scope i).hif_lock
@[simp] theorem raise_hif_linkUp (s : State) (src scope : Nat) (i : Word) : (raise s src scope i).hif.linkUp = s.hif.linkUp := (raise_evtOnly s src scope i).hif_linkUp
@[simp] theorem raise_hif_width (s : State) (src scope : Nat) (i : Word) : (raise s src scope i).hif.width = s.hif.width := (raise_evtOnly s src scope i).hif_width
@[simp] theorem raise_hif_speed (s : State) (src scope : Nat) (i : Word) : (raise s src scope i).hif.speed = s.hif.speed := (raise_evtOnly s src scope i).hif_speed
@[simp] theorem raise_hif_faultValid (s : State) (src scope : Nat) (i : Word) : (raise s src scope i).hif.faultValid = s.hif.faultValid := (raise_evtOnly s src scope i).hif_faultValid
@[simp] theorem raise_hif_faultKind (s : State) (src scope : Nat) (i : Word) : (raise s src scope i).hif.faultKind = s.hif.faultKind := (raise_evtOnly s src scope i).hif_faultKind
@[simp] theorem raise_hif_faultRing (s : State) (src scope : Nat) (i : Word) : (raise s src scope i).hif.faultRing = s.hif.faultRing := (raise_evtOnly s src scope i).hif_faultRing
@[simp] theorem raise_hif_faultFn (s : State) (src scope : Nat) (i : Word) : (raise s src scope i).hif.faultFn = s.hif.faultFn := (raise_evtOnly s src scope i).hif_faultFn
@[simp] theorem raise_hif_faultAddr (s : State) (src scope : Nat) (i : Word) : (raise s src scope i).hif.faultAddr = s.hif.faultAddr := (raise_evtOnly s src scope i).hif_faultAddr
@[simp] theorem raise_hif_windows (s : State) (src scope : Nat) (i : Word) : (raise s src scope i).hif.windows = s.hif.windows := (raise_evtOnly s src scope i).hif_windows
@[simp] theorem raise_hif_winLo (s : State) (src scope : Nat) (i : Word) : (raise s src scope i).hif.winLo = s.hif.winLo := (raise_evtOnly s src scope i).hif_winLo
@[simp] theorem raise_hif_vfEnable (s : State) (src scope : Nat) (i : Word) : (raise s src scope i).hif.vfEnable = s.hif.vfEnable := (raise_evtOnly s src scope i).hif_vfEnable
@[simp] theorem raise_hif_numVfs (s : State) (src scope : Nat) (i : Word) : (raise s src scope i).hif.numVfs = s.hif.numVfs := (raise_evtOnly s src scope i).hif_numVfs
@[simp] theorem raise_hif_mps256 (s : State) (src scope : Nat) (i : Word) : (raise s src scope i).hif.mps256 = s.hif.mps256 := (raise_evtOnly s src scope i).hif_mps256
@[simp] theorem raise_hif_mrrs (s : State) (src scope : Nat) (i : Word) : (raise s src scope i).hif.mrrs = s.hif.mrrs := (raise_evtOnly s src scope i).hif_mrrs
@[simp] theorem raise_hif_crs (s : State) (src scope : Nat) (i : Word) : (raise s src scope i).hif.crs = s.hif.crs := (raise_evtOnly s src scope i).hif_crs
@[simp] theorem raise_hif_perst (s : State) (src scope : Nat) (i : Word) : (raise s src scope i).hif.perst = s.hif.perst := (raise_evtOnly s src scope i).hif_perst
@[simp] theorem raise_hif_pcieWake (s : State) (src scope : Nat) (i : Word) : (raise s src scope i).hif.pcieWake = s.hif.pcieWake := (raise_evtOnly s src scope i).hif_pcieWake
@[simp] theorem raise_hif_rrExpress (s : State) (src scope : Nat) (i : Word) : (raise s src scope i).hif.rrExpress = s.hif.rrExpress := (raise_evtOnly s src scope i).hif_rrExpress
@[simp] theorem raise_hif_rrControl (s : State) (src scope : Nat) (i : Word) : (raise s src scope i).hif.rrControl = s.hif.rrControl := (raise_evtOnly s src scope i).hif_rrControl
@[simp] theorem raise_hif_rrBulk (s : State) (src scope : Nat) (i : Word) : (raise s src scope i).hif.rrBulk = s.hif.rrBulk := (raise_evtOnly s src scope i).hif_rrBulk
@[simp] theorem raise_hif_fetchStop (s : State) (src scope : Nat) (i : Word) : (raise s src scope i).hif.fetchStop = s.hif.fetchStop := (raise_evtOnly s src scope i).hif_fetchStop
@[simp] theorem raise_hif_l2 (s : State) (src scope : Nat) (i : Word) : (raise s src scope i).hif.l2 = s.hif.l2 := (raise_evtOnly s src scope i).hif_l2
@[simp] theorem raise_hif_latchPcie (s : State) (src scope : Nat) (i : Word) : (raise s src scope i).hif.latchPcie = s.hif.latchPcie := (raise_evtOnly s src scope i).hif_latchPcie
@[simp] theorem raise_hif_latchAhn (s : State) (src scope : Nat) (i : Word) : (raise s src scope i).hif.latchAhn = s.hif.latchAhn := (raise_evtOnly s src scope i).hif_latchAhn
@[simp] theorem ringAt_raise (s : State) (src scope : Nat) (i : Word) (x : Nat) : ringAt (raise s src scope i) x = ringAt s x := (raise_evtOnly s src scope i).ringAt x
@[simp] theorem chanAt_raise (s : State) (src scope : Nat) (i : Word) (x : Nat) : chanAt (raise s src scope i) x = chanAt s x := (raise_evtOnly s src scope i).chanAt x
@[simp] theorem slotAt_raise (s : State) (src scope : Nat) (i : Word) (x : Nat) : slotAt (raise s src scope i) x = slotAt s x := (raise_evtOnly s src scope i).slotAt x

@[simp] theorem raiseC_pending (s : State) (src scope inc : Nat) : (raiseC s src scope inc).pending = s.pending := (raiseC_evtOnly s src scope inc).pending
@[simp] theorem raiseC_part (s : State) (src scope inc : Nat) : (raiseC s src scope inc).part = s.part := (raiseC_evtOnly s src scope inc).part
@[simp] theorem raiseC_datum (s : State) (src scope inc : Nat) : (raiseC s src scope inc).datum = s.datum := (raiseC_evtOnly s src scope inc).datum
@[simp] theorem raiseC_time (s : State) (src scope inc : Nat) : (raiseC s src scope inc).time = s.time := (raiseC_evtOnly s src scope inc).time
@[simp] theorem raiseC_rings (s : State) (src scope inc : Nat) : (raiseC s src scope inc).rings = s.rings := (raiseC_evtOnly s src scope inc).rings
@[simp] theorem raiseC_journal (s : State) (src scope inc : Nat) : (raiseC s src scope inc).journal = s.journal := (raiseC_evtOnly s src scope inc).journal
@[simp] theorem raiseC_ledger (s : State) (src scope inc : Nat) : (raiseC s src scope inc).ledger = s.ledger := (raiseC_evtOnly s src scope inc).ledger
@[simp] theorem raiseC_recov (s : State) (src scope inc : Nat) : (raiseC s src scope inc).recov = s.recov := (raiseC_evtOnly s src scope inc).recov
@[simp] theorem raiseC_chtabBase (s : State) (src scope inc : Nat) : (raiseC s src scope inc).chtabBase = s.chtabBase := (raiseC_evtOnly s src scope inc).chtabBase
@[simp] theorem raiseC_chtabEn (s : State) (src scope inc : Nat) : (raiseC s src scope inc).chtabEn = s.chtabEn := (raiseC_evtOnly s src scope inc).chtabEn
@[simp] theorem raiseC_chans (s : State) (src scope inc : Nat) : (raiseC s src scope inc).chans = s.chans := (raiseC_evtOnly s src scope inc).chans
@[simp] theorem raiseC_upl (s : State) (src scope inc : Nat) : (raiseC s src scope inc).upl = s.upl := (raiseC_evtOnly s src scope inc).upl
@[simp] theorem raiseC_xc (s : State) (src scope inc : Nat) : (raiseC s src scope inc).xc = s.xc := (raiseC_evtOnly s src scope inc).xc
@[simp] theorem raiseC_sec (s : State) (src scope inc : Nat) : (raiseC s src scope inc).sec = s.sec := (raiseC_evtOnly s src scope inc).sec
@[simp] theorem raiseC_rad (s : State) (src scope inc : Nat) : (raiseC s src scope inc).rad = s.rad := (raiseC_evtOnly s src scope inc).rad
@[simp] theorem raiseC_sup (s : State) (src scope inc : Nat) : (raiseC s src scope inc).sup = s.sup := (raiseC_evtOnly s src scope inc).sup
@[simp] theorem raiseC_pwr (s : State) (src scope inc : Nat) : (raiseC s src scope inc).pwr = s.pwr := (raiseC_evtOnly s src scope inc).pwr
@[simp] theorem raiseC_fw (s : State) (src scope inc : Nat) : (raiseC s src scope inc).fw = s.fw := (raiseC_evtOnly s src scope inc).fw
@[simp] theorem raiseC_glb (s : State) (src scope inc : Nat) : (raiseC s src scope inc).glb = s.glb := (raiseC_evtOnly s src scope inc).glb
@[simp] theorem raiseC_mgt (s : State) (src scope inc : Nat) : (raiseC s src scope inc).mgt = s.mgt := (raiseC_evtOnly s src scope inc).mgt
@[simp] theorem raiseC_free (s : State) (src scope inc : Nat) : (raiseC s src scope inc).free = s.free := (raiseC_evtOnly s src scope inc).free
@[simp] theorem raiseC_hif_lock (s : State) (src scope inc : Nat) : (raiseC s src scope inc).hif.lock = s.hif.lock := (raiseC_evtOnly s src scope inc).hif_lock
@[simp] theorem raiseC_hif_linkUp (s : State) (src scope inc : Nat) : (raiseC s src scope inc).hif.linkUp = s.hif.linkUp := (raiseC_evtOnly s src scope inc).hif_linkUp
@[simp] theorem raiseC_hif_width (s : State) (src scope inc : Nat) : (raiseC s src scope inc).hif.width = s.hif.width := (raiseC_evtOnly s src scope inc).hif_width
@[simp] theorem raiseC_hif_speed (s : State) (src scope inc : Nat) : (raiseC s src scope inc).hif.speed = s.hif.speed := (raiseC_evtOnly s src scope inc).hif_speed
@[simp] theorem raiseC_hif_faultValid (s : State) (src scope inc : Nat) : (raiseC s src scope inc).hif.faultValid = s.hif.faultValid := (raiseC_evtOnly s src scope inc).hif_faultValid
@[simp] theorem raiseC_hif_faultKind (s : State) (src scope inc : Nat) : (raiseC s src scope inc).hif.faultKind = s.hif.faultKind := (raiseC_evtOnly s src scope inc).hif_faultKind
@[simp] theorem raiseC_hif_faultRing (s : State) (src scope inc : Nat) : (raiseC s src scope inc).hif.faultRing = s.hif.faultRing := (raiseC_evtOnly s src scope inc).hif_faultRing
@[simp] theorem raiseC_hif_faultFn (s : State) (src scope inc : Nat) : (raiseC s src scope inc).hif.faultFn = s.hif.faultFn := (raiseC_evtOnly s src scope inc).hif_faultFn
@[simp] theorem raiseC_hif_faultAddr (s : State) (src scope inc : Nat) : (raiseC s src scope inc).hif.faultAddr = s.hif.faultAddr := (raiseC_evtOnly s src scope inc).hif_faultAddr
@[simp] theorem raiseC_hif_windows (s : State) (src scope inc : Nat) : (raiseC s src scope inc).hif.windows = s.hif.windows := (raiseC_evtOnly s src scope inc).hif_windows
@[simp] theorem raiseC_hif_winLo (s : State) (src scope inc : Nat) : (raiseC s src scope inc).hif.winLo = s.hif.winLo := (raiseC_evtOnly s src scope inc).hif_winLo
@[simp] theorem raiseC_hif_vfEnable (s : State) (src scope inc : Nat) : (raiseC s src scope inc).hif.vfEnable = s.hif.vfEnable := (raiseC_evtOnly s src scope inc).hif_vfEnable
@[simp] theorem raiseC_hif_numVfs (s : State) (src scope inc : Nat) : (raiseC s src scope inc).hif.numVfs = s.hif.numVfs := (raiseC_evtOnly s src scope inc).hif_numVfs
@[simp] theorem raiseC_hif_mps256 (s : State) (src scope inc : Nat) : (raiseC s src scope inc).hif.mps256 = s.hif.mps256 := (raiseC_evtOnly s src scope inc).hif_mps256
@[simp] theorem raiseC_hif_mrrs (s : State) (src scope inc : Nat) : (raiseC s src scope inc).hif.mrrs = s.hif.mrrs := (raiseC_evtOnly s src scope inc).hif_mrrs
@[simp] theorem raiseC_hif_crs (s : State) (src scope inc : Nat) : (raiseC s src scope inc).hif.crs = s.hif.crs := (raiseC_evtOnly s src scope inc).hif_crs
@[simp] theorem raiseC_hif_perst (s : State) (src scope inc : Nat) : (raiseC s src scope inc).hif.perst = s.hif.perst := (raiseC_evtOnly s src scope inc).hif_perst
@[simp] theorem raiseC_hif_pcieWake (s : State) (src scope inc : Nat) : (raiseC s src scope inc).hif.pcieWake = s.hif.pcieWake := (raiseC_evtOnly s src scope inc).hif_pcieWake
@[simp] theorem raiseC_hif_rrExpress (s : State) (src scope inc : Nat) : (raiseC s src scope inc).hif.rrExpress = s.hif.rrExpress := (raiseC_evtOnly s src scope inc).hif_rrExpress
@[simp] theorem raiseC_hif_rrControl (s : State) (src scope inc : Nat) : (raiseC s src scope inc).hif.rrControl = s.hif.rrControl := (raiseC_evtOnly s src scope inc).hif_rrControl
@[simp] theorem raiseC_hif_rrBulk (s : State) (src scope inc : Nat) : (raiseC s src scope inc).hif.rrBulk = s.hif.rrBulk := (raiseC_evtOnly s src scope inc).hif_rrBulk
@[simp] theorem raiseC_hif_fetchStop (s : State) (src scope inc : Nat) : (raiseC s src scope inc).hif.fetchStop = s.hif.fetchStop := (raiseC_evtOnly s src scope inc).hif_fetchStop
@[simp] theorem raiseC_hif_l2 (s : State) (src scope inc : Nat) : (raiseC s src scope inc).hif.l2 = s.hif.l2 := (raiseC_evtOnly s src scope inc).hif_l2
@[simp] theorem raiseC_hif_latchPcie (s : State) (src scope inc : Nat) : (raiseC s src scope inc).hif.latchPcie = s.hif.latchPcie := (raiseC_evtOnly s src scope inc).hif_latchPcie
@[simp] theorem raiseC_hif_latchAhn (s : State) (src scope inc : Nat) : (raiseC s src scope inc).hif.latchAhn = s.hif.latchAhn := (raiseC_evtOnly s src scope inc).hif_latchAhn
@[simp] theorem ringAt_raiseC (s : State) (src scope inc : Nat) (x : Nat) : ringAt (raiseC s src scope inc) x = ringAt s x := (raiseC_evtOnly s src scope inc).ringAt x
@[simp] theorem chanAt_raiseC (s : State) (src scope inc : Nat) (x : Nat) : chanAt (raiseC s src scope inc) x = chanAt s x := (raiseC_evtOnly s src scope inc).chanAt x
@[simp] theorem slotAt_raiseC (s : State) (src scope inc : Nat) (x : Nat) : slotAt (raiseC s src scope inc) x = slotAt s x := (raiseC_evtOnly s src scope inc).slotAt x

@[simp] theorem fwDenied_pending (s : State) (off : Nat) : (fwDenied s off).pending = s.pending := (fwDenied_evtOnly s off).pending
@[simp] theorem fwDenied_part (s : State) (off : Nat) : (fwDenied s off).part = s.part := (fwDenied_evtOnly s off).part
@[simp] theorem fwDenied_datum (s : State) (off : Nat) : (fwDenied s off).datum = s.datum := (fwDenied_evtOnly s off).datum
@[simp] theorem fwDenied_time (s : State) (off : Nat) : (fwDenied s off).time = s.time := (fwDenied_evtOnly s off).time
@[simp] theorem fwDenied_rings (s : State) (off : Nat) : (fwDenied s off).rings = s.rings := (fwDenied_evtOnly s off).rings
@[simp] theorem fwDenied_journal (s : State) (off : Nat) : (fwDenied s off).journal = s.journal := (fwDenied_evtOnly s off).journal
@[simp] theorem fwDenied_ledger (s : State) (off : Nat) : (fwDenied s off).ledger = s.ledger := (fwDenied_evtOnly s off).ledger
@[simp] theorem fwDenied_recov (s : State) (off : Nat) : (fwDenied s off).recov = s.recov := (fwDenied_evtOnly s off).recov
@[simp] theorem fwDenied_chtabBase (s : State) (off : Nat) : (fwDenied s off).chtabBase = s.chtabBase := (fwDenied_evtOnly s off).chtabBase
@[simp] theorem fwDenied_chtabEn (s : State) (off : Nat) : (fwDenied s off).chtabEn = s.chtabEn := (fwDenied_evtOnly s off).chtabEn
@[simp] theorem fwDenied_chans (s : State) (off : Nat) : (fwDenied s off).chans = s.chans := (fwDenied_evtOnly s off).chans
@[simp] theorem fwDenied_upl (s : State) (off : Nat) : (fwDenied s off).upl = s.upl := (fwDenied_evtOnly s off).upl
@[simp] theorem fwDenied_xc (s : State) (off : Nat) : (fwDenied s off).xc = s.xc := (fwDenied_evtOnly s off).xc
@[simp] theorem fwDenied_sec (s : State) (off : Nat) : (fwDenied s off).sec = s.sec := (fwDenied_evtOnly s off).sec
@[simp] theorem fwDenied_rad (s : State) (off : Nat) : (fwDenied s off).rad = s.rad := (fwDenied_evtOnly s off).rad
@[simp] theorem fwDenied_sup (s : State) (off : Nat) : (fwDenied s off).sup = s.sup := (fwDenied_evtOnly s off).sup
@[simp] theorem fwDenied_pwr (s : State) (off : Nat) : (fwDenied s off).pwr = s.pwr := (fwDenied_evtOnly s off).pwr
@[simp] theorem fwDenied_fw (s : State) (off : Nat) : (fwDenied s off).fw = s.fw := (fwDenied_evtOnly s off).fw
@[simp] theorem fwDenied_glb (s : State) (off : Nat) : (fwDenied s off).glb = s.glb := (fwDenied_evtOnly s off).glb
@[simp] theorem fwDenied_mgt (s : State) (off : Nat) : (fwDenied s off).mgt = s.mgt := (fwDenied_evtOnly s off).mgt
@[simp] theorem fwDenied_free (s : State) (off : Nat) : (fwDenied s off).free = s.free := (fwDenied_evtOnly s off).free
@[simp] theorem fwDenied_hif_lock (s : State) (off : Nat) : (fwDenied s off).hif.lock = s.hif.lock := (fwDenied_evtOnly s off).hif_lock
@[simp] theorem fwDenied_hif_linkUp (s : State) (off : Nat) : (fwDenied s off).hif.linkUp = s.hif.linkUp := (fwDenied_evtOnly s off).hif_linkUp
@[simp] theorem fwDenied_hif_width (s : State) (off : Nat) : (fwDenied s off).hif.width = s.hif.width := (fwDenied_evtOnly s off).hif_width
@[simp] theorem fwDenied_hif_speed (s : State) (off : Nat) : (fwDenied s off).hif.speed = s.hif.speed := (fwDenied_evtOnly s off).hif_speed
@[simp] theorem fwDenied_hif_faultValid (s : State) (off : Nat) : (fwDenied s off).hif.faultValid = s.hif.faultValid := (fwDenied_evtOnly s off).hif_faultValid
@[simp] theorem fwDenied_hif_faultKind (s : State) (off : Nat) : (fwDenied s off).hif.faultKind = s.hif.faultKind := (fwDenied_evtOnly s off).hif_faultKind
@[simp] theorem fwDenied_hif_faultRing (s : State) (off : Nat) : (fwDenied s off).hif.faultRing = s.hif.faultRing := (fwDenied_evtOnly s off).hif_faultRing
@[simp] theorem fwDenied_hif_faultFn (s : State) (off : Nat) : (fwDenied s off).hif.faultFn = s.hif.faultFn := (fwDenied_evtOnly s off).hif_faultFn
@[simp] theorem fwDenied_hif_faultAddr (s : State) (off : Nat) : (fwDenied s off).hif.faultAddr = s.hif.faultAddr := (fwDenied_evtOnly s off).hif_faultAddr
@[simp] theorem fwDenied_hif_windows (s : State) (off : Nat) : (fwDenied s off).hif.windows = s.hif.windows := (fwDenied_evtOnly s off).hif_windows
@[simp] theorem fwDenied_hif_winLo (s : State) (off : Nat) : (fwDenied s off).hif.winLo = s.hif.winLo := (fwDenied_evtOnly s off).hif_winLo
@[simp] theorem fwDenied_hif_vfEnable (s : State) (off : Nat) : (fwDenied s off).hif.vfEnable = s.hif.vfEnable := (fwDenied_evtOnly s off).hif_vfEnable
@[simp] theorem fwDenied_hif_numVfs (s : State) (off : Nat) : (fwDenied s off).hif.numVfs = s.hif.numVfs := (fwDenied_evtOnly s off).hif_numVfs
@[simp] theorem fwDenied_hif_mps256 (s : State) (off : Nat) : (fwDenied s off).hif.mps256 = s.hif.mps256 := (fwDenied_evtOnly s off).hif_mps256
@[simp] theorem fwDenied_hif_mrrs (s : State) (off : Nat) : (fwDenied s off).hif.mrrs = s.hif.mrrs := (fwDenied_evtOnly s off).hif_mrrs
@[simp] theorem fwDenied_hif_crs (s : State) (off : Nat) : (fwDenied s off).hif.crs = s.hif.crs := (fwDenied_evtOnly s off).hif_crs
@[simp] theorem fwDenied_hif_perst (s : State) (off : Nat) : (fwDenied s off).hif.perst = s.hif.perst := (fwDenied_evtOnly s off).hif_perst
@[simp] theorem fwDenied_hif_pcieWake (s : State) (off : Nat) : (fwDenied s off).hif.pcieWake = s.hif.pcieWake := (fwDenied_evtOnly s off).hif_pcieWake
@[simp] theorem fwDenied_hif_rrExpress (s : State) (off : Nat) : (fwDenied s off).hif.rrExpress = s.hif.rrExpress := (fwDenied_evtOnly s off).hif_rrExpress
@[simp] theorem fwDenied_hif_rrControl (s : State) (off : Nat) : (fwDenied s off).hif.rrControl = s.hif.rrControl := (fwDenied_evtOnly s off).hif_rrControl
@[simp] theorem fwDenied_hif_rrBulk (s : State) (off : Nat) : (fwDenied s off).hif.rrBulk = s.hif.rrBulk := (fwDenied_evtOnly s off).hif_rrBulk
@[simp] theorem fwDenied_hif_fetchStop (s : State) (off : Nat) : (fwDenied s off).hif.fetchStop = s.hif.fetchStop := (fwDenied_evtOnly s off).hif_fetchStop
@[simp] theorem fwDenied_hif_l2 (s : State) (off : Nat) : (fwDenied s off).hif.l2 = s.hif.l2 := (fwDenied_evtOnly s off).hif_l2
@[simp] theorem fwDenied_hif_latchPcie (s : State) (off : Nat) : (fwDenied s off).hif.latchPcie = s.hif.latchPcie := (fwDenied_evtOnly s off).hif_latchPcie
@[simp] theorem fwDenied_hif_latchAhn (s : State) (off : Nat) : (fwDenied s off).hif.latchAhn = s.hif.latchAhn := (fwDenied_evtOnly s off).hif_latchAhn
@[simp] theorem ringAt_fwDenied (s : State) (off : Nat) (x : Nat) : ringAt (fwDenied s off) x = ringAt s x := (fwDenied_evtOnly s off).ringAt x
@[simp] theorem chanAt_fwDenied (s : State) (off : Nat) (x : Nat) : chanAt (fwDenied s off) x = chanAt s x := (fwDenied_evtOnly s off).chanAt x
@[simp] theorem slotAt_fwDenied (s : State) (off : Nat) (x : Nat) : slotAt (fwDenied s off) x = slotAt s x := (fwDenied_evtOnly s off).slotAt x

@[simp] theorem sendMsix_pending (s : State) (fv : Nat × Nat) : (sendMsix s fv).pending = s.pending := (sendMsix_evtOnly s fv).pending
@[simp] theorem sendMsix_part (s : State) (fv : Nat × Nat) : (sendMsix s fv).part = s.part := (sendMsix_evtOnly s fv).part
@[simp] theorem sendMsix_datum (s : State) (fv : Nat × Nat) : (sendMsix s fv).datum = s.datum := (sendMsix_evtOnly s fv).datum
@[simp] theorem sendMsix_time (s : State) (fv : Nat × Nat) : (sendMsix s fv).time = s.time := (sendMsix_evtOnly s fv).time
@[simp] theorem sendMsix_rings (s : State) (fv : Nat × Nat) : (sendMsix s fv).rings = s.rings := (sendMsix_evtOnly s fv).rings
@[simp] theorem sendMsix_journal (s : State) (fv : Nat × Nat) : (sendMsix s fv).journal = s.journal := (sendMsix_evtOnly s fv).journal
@[simp] theorem sendMsix_ledger (s : State) (fv : Nat × Nat) : (sendMsix s fv).ledger = s.ledger := (sendMsix_evtOnly s fv).ledger
@[simp] theorem sendMsix_recov (s : State) (fv : Nat × Nat) : (sendMsix s fv).recov = s.recov := (sendMsix_evtOnly s fv).recov
@[simp] theorem sendMsix_chtabBase (s : State) (fv : Nat × Nat) : (sendMsix s fv).chtabBase = s.chtabBase := (sendMsix_evtOnly s fv).chtabBase
@[simp] theorem sendMsix_chtabEn (s : State) (fv : Nat × Nat) : (sendMsix s fv).chtabEn = s.chtabEn := (sendMsix_evtOnly s fv).chtabEn
@[simp] theorem sendMsix_chans (s : State) (fv : Nat × Nat) : (sendMsix s fv).chans = s.chans := (sendMsix_evtOnly s fv).chans
@[simp] theorem sendMsix_upl (s : State) (fv : Nat × Nat) : (sendMsix s fv).upl = s.upl := (sendMsix_evtOnly s fv).upl
@[simp] theorem sendMsix_xc (s : State) (fv : Nat × Nat) : (sendMsix s fv).xc = s.xc := (sendMsix_evtOnly s fv).xc
@[simp] theorem sendMsix_sec (s : State) (fv : Nat × Nat) : (sendMsix s fv).sec = s.sec := (sendMsix_evtOnly s fv).sec
@[simp] theorem sendMsix_rad (s : State) (fv : Nat × Nat) : (sendMsix s fv).rad = s.rad := (sendMsix_evtOnly s fv).rad
@[simp] theorem sendMsix_sup (s : State) (fv : Nat × Nat) : (sendMsix s fv).sup = s.sup := (sendMsix_evtOnly s fv).sup
@[simp] theorem sendMsix_pwr (s : State) (fv : Nat × Nat) : (sendMsix s fv).pwr = s.pwr := (sendMsix_evtOnly s fv).pwr
@[simp] theorem sendMsix_fw (s : State) (fv : Nat × Nat) : (sendMsix s fv).fw = s.fw := (sendMsix_evtOnly s fv).fw
@[simp] theorem sendMsix_glb (s : State) (fv : Nat × Nat) : (sendMsix s fv).glb = s.glb := (sendMsix_evtOnly s fv).glb
@[simp] theorem sendMsix_mgt (s : State) (fv : Nat × Nat) : (sendMsix s fv).mgt = s.mgt := (sendMsix_evtOnly s fv).mgt
@[simp] theorem sendMsix_free (s : State) (fv : Nat × Nat) : (sendMsix s fv).free = s.free := (sendMsix_evtOnly s fv).free
@[simp] theorem sendMsix_hif_lock (s : State) (fv : Nat × Nat) : (sendMsix s fv).hif.lock = s.hif.lock := (sendMsix_evtOnly s fv).hif_lock
@[simp] theorem sendMsix_hif_linkUp (s : State) (fv : Nat × Nat) : (sendMsix s fv).hif.linkUp = s.hif.linkUp := (sendMsix_evtOnly s fv).hif_linkUp
@[simp] theorem sendMsix_hif_width (s : State) (fv : Nat × Nat) : (sendMsix s fv).hif.width = s.hif.width := (sendMsix_evtOnly s fv).hif_width
@[simp] theorem sendMsix_hif_speed (s : State) (fv : Nat × Nat) : (sendMsix s fv).hif.speed = s.hif.speed := (sendMsix_evtOnly s fv).hif_speed
@[simp] theorem sendMsix_hif_faultValid (s : State) (fv : Nat × Nat) : (sendMsix s fv).hif.faultValid = s.hif.faultValid := (sendMsix_evtOnly s fv).hif_faultValid
@[simp] theorem sendMsix_hif_faultKind (s : State) (fv : Nat × Nat) : (sendMsix s fv).hif.faultKind = s.hif.faultKind := (sendMsix_evtOnly s fv).hif_faultKind
@[simp] theorem sendMsix_hif_faultRing (s : State) (fv : Nat × Nat) : (sendMsix s fv).hif.faultRing = s.hif.faultRing := (sendMsix_evtOnly s fv).hif_faultRing
@[simp] theorem sendMsix_hif_faultFn (s : State) (fv : Nat × Nat) : (sendMsix s fv).hif.faultFn = s.hif.faultFn := (sendMsix_evtOnly s fv).hif_faultFn
@[simp] theorem sendMsix_hif_faultAddr (s : State) (fv : Nat × Nat) : (sendMsix s fv).hif.faultAddr = s.hif.faultAddr := (sendMsix_evtOnly s fv).hif_faultAddr
@[simp] theorem sendMsix_hif_windows (s : State) (fv : Nat × Nat) : (sendMsix s fv).hif.windows = s.hif.windows := (sendMsix_evtOnly s fv).hif_windows
@[simp] theorem sendMsix_hif_winLo (s : State) (fv : Nat × Nat) : (sendMsix s fv).hif.winLo = s.hif.winLo := (sendMsix_evtOnly s fv).hif_winLo
@[simp] theorem sendMsix_hif_vfEnable (s : State) (fv : Nat × Nat) : (sendMsix s fv).hif.vfEnable = s.hif.vfEnable := (sendMsix_evtOnly s fv).hif_vfEnable
@[simp] theorem sendMsix_hif_numVfs (s : State) (fv : Nat × Nat) : (sendMsix s fv).hif.numVfs = s.hif.numVfs := (sendMsix_evtOnly s fv).hif_numVfs
@[simp] theorem sendMsix_hif_mps256 (s : State) (fv : Nat × Nat) : (sendMsix s fv).hif.mps256 = s.hif.mps256 := (sendMsix_evtOnly s fv).hif_mps256
@[simp] theorem sendMsix_hif_mrrs (s : State) (fv : Nat × Nat) : (sendMsix s fv).hif.mrrs = s.hif.mrrs := (sendMsix_evtOnly s fv).hif_mrrs
@[simp] theorem sendMsix_hif_crs (s : State) (fv : Nat × Nat) : (sendMsix s fv).hif.crs = s.hif.crs := (sendMsix_evtOnly s fv).hif_crs
@[simp] theorem sendMsix_hif_perst (s : State) (fv : Nat × Nat) : (sendMsix s fv).hif.perst = s.hif.perst := (sendMsix_evtOnly s fv).hif_perst
@[simp] theorem sendMsix_hif_pcieWake (s : State) (fv : Nat × Nat) : (sendMsix s fv).hif.pcieWake = s.hif.pcieWake := (sendMsix_evtOnly s fv).hif_pcieWake
@[simp] theorem sendMsix_hif_rrExpress (s : State) (fv : Nat × Nat) : (sendMsix s fv).hif.rrExpress = s.hif.rrExpress := (sendMsix_evtOnly s fv).hif_rrExpress
@[simp] theorem sendMsix_hif_rrControl (s : State) (fv : Nat × Nat) : (sendMsix s fv).hif.rrControl = s.hif.rrControl := (sendMsix_evtOnly s fv).hif_rrControl
@[simp] theorem sendMsix_hif_rrBulk (s : State) (fv : Nat × Nat) : (sendMsix s fv).hif.rrBulk = s.hif.rrBulk := (sendMsix_evtOnly s fv).hif_rrBulk
@[simp] theorem sendMsix_hif_fetchStop (s : State) (fv : Nat × Nat) : (sendMsix s fv).hif.fetchStop = s.hif.fetchStop := (sendMsix_evtOnly s fv).hif_fetchStop
@[simp] theorem sendMsix_hif_l2 (s : State) (fv : Nat × Nat) : (sendMsix s fv).hif.l2 = s.hif.l2 := (sendMsix_evtOnly s fv).hif_l2
@[simp] theorem sendMsix_hif_latchPcie (s : State) (fv : Nat × Nat) : (sendMsix s fv).hif.latchPcie = s.hif.latchPcie := (sendMsix_evtOnly s fv).hif_latchPcie
@[simp] theorem sendMsix_hif_latchAhn (s : State) (fv : Nat × Nat) : (sendMsix s fv).hif.latchAhn = s.hif.latchAhn := (sendMsix_evtOnly s fv).hif_latchAhn
@[simp] theorem ringAt_sendMsix (s : State) (fv : Nat × Nat) (x : Nat) : ringAt (sendMsix s fv) x = ringAt s x := (sendMsix_evtOnly s fv).ringAt x
@[simp] theorem chanAt_sendMsix (s : State) (fv : Nat × Nat) (x : Nat) : chanAt (sendMsix s fv) x = chanAt s x := (sendMsix_evtOnly s fv).chanAt x
@[simp] theorem slotAt_sendMsix (s : State) (fv : Nat × Nat) (x : Nat) : slotAt (sendMsix s fv) x = slotAt s x := (sendMsix_evtOnly s fv).slotAt x

@[simp] theorem sendAll_pending (s : State) (l : List (Nat × Nat)) : (sendAll s l).pending = s.pending := (sendAll_evtOnly s l).pending
@[simp] theorem sendAll_part (s : State) (l : List (Nat × Nat)) : (sendAll s l).part = s.part := (sendAll_evtOnly s l).part
@[simp] theorem sendAll_datum (s : State) (l : List (Nat × Nat)) : (sendAll s l).datum = s.datum := (sendAll_evtOnly s l).datum
@[simp] theorem sendAll_time (s : State) (l : List (Nat × Nat)) : (sendAll s l).time = s.time := (sendAll_evtOnly s l).time
@[simp] theorem sendAll_rings (s : State) (l : List (Nat × Nat)) : (sendAll s l).rings = s.rings := (sendAll_evtOnly s l).rings
@[simp] theorem sendAll_journal (s : State) (l : List (Nat × Nat)) : (sendAll s l).journal = s.journal := (sendAll_evtOnly s l).journal
@[simp] theorem sendAll_ledger (s : State) (l : List (Nat × Nat)) : (sendAll s l).ledger = s.ledger := (sendAll_evtOnly s l).ledger
@[simp] theorem sendAll_recov (s : State) (l : List (Nat × Nat)) : (sendAll s l).recov = s.recov := (sendAll_evtOnly s l).recov
@[simp] theorem sendAll_chtabBase (s : State) (l : List (Nat × Nat)) : (sendAll s l).chtabBase = s.chtabBase := (sendAll_evtOnly s l).chtabBase
@[simp] theorem sendAll_chtabEn (s : State) (l : List (Nat × Nat)) : (sendAll s l).chtabEn = s.chtabEn := (sendAll_evtOnly s l).chtabEn
@[simp] theorem sendAll_chans (s : State) (l : List (Nat × Nat)) : (sendAll s l).chans = s.chans := (sendAll_evtOnly s l).chans
@[simp] theorem sendAll_upl (s : State) (l : List (Nat × Nat)) : (sendAll s l).upl = s.upl := (sendAll_evtOnly s l).upl
@[simp] theorem sendAll_xc (s : State) (l : List (Nat × Nat)) : (sendAll s l).xc = s.xc := (sendAll_evtOnly s l).xc
@[simp] theorem sendAll_sec (s : State) (l : List (Nat × Nat)) : (sendAll s l).sec = s.sec := (sendAll_evtOnly s l).sec
@[simp] theorem sendAll_rad (s : State) (l : List (Nat × Nat)) : (sendAll s l).rad = s.rad := (sendAll_evtOnly s l).rad
@[simp] theorem sendAll_sup (s : State) (l : List (Nat × Nat)) : (sendAll s l).sup = s.sup := (sendAll_evtOnly s l).sup
@[simp] theorem sendAll_pwr (s : State) (l : List (Nat × Nat)) : (sendAll s l).pwr = s.pwr := (sendAll_evtOnly s l).pwr
@[simp] theorem sendAll_fw (s : State) (l : List (Nat × Nat)) : (sendAll s l).fw = s.fw := (sendAll_evtOnly s l).fw
@[simp] theorem sendAll_glb (s : State) (l : List (Nat × Nat)) : (sendAll s l).glb = s.glb := (sendAll_evtOnly s l).glb
@[simp] theorem sendAll_mgt (s : State) (l : List (Nat × Nat)) : (sendAll s l).mgt = s.mgt := (sendAll_evtOnly s l).mgt
@[simp] theorem sendAll_free (s : State) (l : List (Nat × Nat)) : (sendAll s l).free = s.free := (sendAll_evtOnly s l).free
@[simp] theorem sendAll_hif_lock (s : State) (l : List (Nat × Nat)) : (sendAll s l).hif.lock = s.hif.lock := (sendAll_evtOnly s l).hif_lock
@[simp] theorem sendAll_hif_linkUp (s : State) (l : List (Nat × Nat)) : (sendAll s l).hif.linkUp = s.hif.linkUp := (sendAll_evtOnly s l).hif_linkUp
@[simp] theorem sendAll_hif_width (s : State) (l : List (Nat × Nat)) : (sendAll s l).hif.width = s.hif.width := (sendAll_evtOnly s l).hif_width
@[simp] theorem sendAll_hif_speed (s : State) (l : List (Nat × Nat)) : (sendAll s l).hif.speed = s.hif.speed := (sendAll_evtOnly s l).hif_speed
@[simp] theorem sendAll_hif_faultValid (s : State) (l : List (Nat × Nat)) : (sendAll s l).hif.faultValid = s.hif.faultValid := (sendAll_evtOnly s l).hif_faultValid
@[simp] theorem sendAll_hif_faultKind (s : State) (l : List (Nat × Nat)) : (sendAll s l).hif.faultKind = s.hif.faultKind := (sendAll_evtOnly s l).hif_faultKind
@[simp] theorem sendAll_hif_faultRing (s : State) (l : List (Nat × Nat)) : (sendAll s l).hif.faultRing = s.hif.faultRing := (sendAll_evtOnly s l).hif_faultRing
@[simp] theorem sendAll_hif_faultFn (s : State) (l : List (Nat × Nat)) : (sendAll s l).hif.faultFn = s.hif.faultFn := (sendAll_evtOnly s l).hif_faultFn
@[simp] theorem sendAll_hif_faultAddr (s : State) (l : List (Nat × Nat)) : (sendAll s l).hif.faultAddr = s.hif.faultAddr := (sendAll_evtOnly s l).hif_faultAddr
@[simp] theorem sendAll_hif_windows (s : State) (l : List (Nat × Nat)) : (sendAll s l).hif.windows = s.hif.windows := (sendAll_evtOnly s l).hif_windows
@[simp] theorem sendAll_hif_winLo (s : State) (l : List (Nat × Nat)) : (sendAll s l).hif.winLo = s.hif.winLo := (sendAll_evtOnly s l).hif_winLo
@[simp] theorem sendAll_hif_vfEnable (s : State) (l : List (Nat × Nat)) : (sendAll s l).hif.vfEnable = s.hif.vfEnable := (sendAll_evtOnly s l).hif_vfEnable
@[simp] theorem sendAll_hif_numVfs (s : State) (l : List (Nat × Nat)) : (sendAll s l).hif.numVfs = s.hif.numVfs := (sendAll_evtOnly s l).hif_numVfs
@[simp] theorem sendAll_hif_mps256 (s : State) (l : List (Nat × Nat)) : (sendAll s l).hif.mps256 = s.hif.mps256 := (sendAll_evtOnly s l).hif_mps256
@[simp] theorem sendAll_hif_mrrs (s : State) (l : List (Nat × Nat)) : (sendAll s l).hif.mrrs = s.hif.mrrs := (sendAll_evtOnly s l).hif_mrrs
@[simp] theorem sendAll_hif_crs (s : State) (l : List (Nat × Nat)) : (sendAll s l).hif.crs = s.hif.crs := (sendAll_evtOnly s l).hif_crs
@[simp] theorem sendAll_hif_perst (s : State) (l : List (Nat × Nat)) : (sendAll s l).hif.perst = s.hif.perst := (sendAll_evtOnly s l).hif_perst
@[simp] theorem sendAll_hif_pcieWake (s : State) (l : List (Nat × Nat)) : (sendAll s l).hif.pcieWake = s.hif.pcieWake := (sendAll_evtOnly s l).hif_pcieWake
@[simp] theorem sendAll_hif_rrExpress (s : State) (l : List (Nat × Nat)) : (sendAll s l).hif.rrExpress = s.hif.rrExpress := (sendAll_evtOnly s l).hif_rrExpress
@[simp] theorem sendAll_hif_rrControl (s : State) (l : List (Nat × Nat)) : (sendAll s l).hif.rrControl = s.hif.rrControl := (sendAll_evtOnly s l).hif_rrControl
@[simp] theorem sendAll_hif_rrBulk (s : State) (l : List (Nat × Nat)) : (sendAll s l).hif.rrBulk = s.hif.rrBulk := (sendAll_evtOnly s l).hif_rrBulk
@[simp] theorem sendAll_hif_fetchStop (s : State) (l : List (Nat × Nat)) : (sendAll s l).hif.fetchStop = s.hif.fetchStop := (sendAll_evtOnly s l).hif_fetchStop
@[simp] theorem sendAll_hif_l2 (s : State) (l : List (Nat × Nat)) : (sendAll s l).hif.l2 = s.hif.l2 := (sendAll_evtOnly s l).hif_l2
@[simp] theorem sendAll_hif_latchPcie (s : State) (l : List (Nat × Nat)) : (sendAll s l).hif.latchPcie = s.hif.latchPcie := (sendAll_evtOnly s l).hif_latchPcie
@[simp] theorem sendAll_hif_latchAhn (s : State) (l : List (Nat × Nat)) : (sendAll s l).hif.latchAhn = s.hif.latchAhn := (sendAll_evtOnly s l).hif_latchAhn
@[simp] theorem ringAt_sendAll (s : State) (l : List (Nat × Nat)) (x : Nat) : ringAt (sendAll s l) x = ringAt s x := (sendAll_evtOnly s l).ringAt x
@[simp] theorem chanAt_sendAll (s : State) (l : List (Nat × Nat)) (x : Nat) : chanAt (sendAll s l) x = chanAt s x := (sendAll_evtOnly s l).chanAt x
@[simp] theorem slotAt_sendAll (s : State) (l : List (Nat × Nat)) (x : Nat) : slotAt (sendAll s l) x = slotAt s x := (sendAll_evtOnly s l).slotAt x

end Sys2Proof.Machine
end

