-- ==== Sys2Proof/Laws/Ops.lean ====
section
/-! SUPPORT. Laws of the shared operations: what taking up, returning and executing work, issuing records, writing the ledger and starting a recovery leave as they were. -/

namespace Sys2Proof.Machine

open Sys2Proof

theorem foldl_keeps {α β : Type} (p : State → β) (f : State → α → State) (h : ∀ s a, p (f s a) = p s) (l : List α) (s : State) :
    p (l.foldl f s) = p s := by
  induction l generalizing s with
  | nil => rfl
  | cons a l ih => rw [List.foldl_cons, ih, h]


@[simp] theorem setPwr_pending (s : State) (st : PwrSt) : (setPwr s st).pending = s.pending := by unfold setPwr; (repeat' split) <;> simp
@[simp] theorem setPwr_part (s : State) (st : PwrSt) : (setPwr s st).part = s.part := by unfold setPwr; (repeat' split) <;> simp
@[simp] theorem setPwr_datum (s : State) (st : PwrSt) : (setPwr s st).datum = s.datum := by unfold setPwr; (repeat' split) <;> simp
@[simp] theorem setPwr_time (s : State) (st : PwrSt) : (setPwr s st).time = s.time := by unfold setPwr; (repeat' split) <;> simp
@[simp] theorem setPwr_rings (s : State) (st : PwrSt) : (setPwr s st).rings = s.rings := by unfold setPwr; (repeat' split) <;> simp
@[simp] theorem setPwr_journal (s : State) (st : PwrSt) : (setPwr s st).journal = s.journal := by unfold setPwr; (repeat' split) <;> simp
@[simp] theorem setPwr_ledger (s : State) (st : PwrSt) : (setPwr s st).ledger = s.ledger := by unfold setPwr; (repeat' split) <;> simp
@[simp] theorem setPwr_recov (s : State) (st : PwrSt) : (setPwr s st).recov = s.recov := by unfold setPwr; (repeat' split) <;> simp
@[simp] theorem setPwr_chtabBase (s : State) (st : PwrSt) : (setPwr s st).chtabBase = s.chtabBase := by unfold setPwr; (repeat' split) <;> simp
@[simp] theorem setPwr_chtabEn (s : State) (st : PwrSt) : (setPwr s st).chtabEn = s.chtabEn := by unfold setPwr; (repeat' split) <;> simp
@[simp] theorem setPwr_chans (s : State) (st : PwrSt) : (setPwr s st).chans = s.chans := by unfold setPwr; (repeat' split) <;> simp
@[simp] theorem setPwr_upl (s : State) (st : PwrSt) : (setPwr s st).upl = s.upl := by unfold setPwr; (repeat' split) <;> simp
@[simp] theorem setPwr_xc (s : State) (st : PwrSt) : (setPwr s st).xc = s.xc := by unfold setPwr; (repeat' split) <;> simp
@[simp] theorem setPwr_sec (s : State) (st : PwrSt) : (setPwr s st).sec = s.sec := by unfold setPwr; (repeat' split) <;> simp
@[simp] theorem setPwr_rad (s : State) (st : PwrSt) : (setPwr s st).rad = s.rad := by unfold setPwr; (repeat' split) <;> simp
@[simp] theorem setPwr_sup (s : State) (st : PwrSt) : (setPwr s st).sup = s.sup := by unfold setPwr; (repeat' split) <;> simp
@[simp] theorem setPwr_glb (s : State) (st : PwrSt) : (setPwr s st).glb = s.glb := by unfold setPwr; (repeat' split) <;> simp
@[simp] theorem setPwr_mgt (s : State) (st : PwrSt) : (setPwr s st).mgt = s.mgt := by unfold setPwr; (repeat' split) <;> simp
@[simp] theorem setPwr_free (s : State) (st : PwrSt) : (setPwr s st).free = s.free := by unfold setPwr; (repeat' split) <;> simp
@[simp] theorem leaveSleep_pending (s : State) : (leaveSleep s).pending = s.pending := by unfold leaveSleep; (repeat' split) <;> simp
@[simp] theorem leaveSleep_part (s : State) : (leaveSleep s).part = s.part := by unfold leaveSleep; (repeat' split) <;> simp
@[simp] theorem leaveSleep_datum (s : State) : (leaveSleep s).datum = s.datum := by unfold leaveSleep; (repeat' split) <;> simp
@[simp] theorem leaveSleep_time (s : State) : (leaveSleep s).time = s.time := by unfold leaveSleep; (repeat' split) <;> simp
@[simp] theorem leaveSleep_rings (s : State) : (leaveSleep s).rings = s.rings := by unfold leaveSleep; (repeat' split) <;> simp
@[simp] theorem leaveSleep_journal (s : State) : (leaveSleep s).journal = s.journal := by unfold leaveSleep; (repeat' split) <;> simp
@[simp] theorem leaveSleep_ledger (s : State) : (leaveSleep s).ledger = s.ledger := by unfold leaveSleep; (repeat' split) <;> simp
@[simp] theorem leaveSleep_recov (s : State) : (leaveSleep s).recov = s.recov := by unfold leaveSleep; (repeat' split) <;> simp
@[simp] theorem leaveSleep_chtabBase (s : State) : (leaveSleep s).chtabBase = s.chtabBase := by unfold leaveSleep; (repeat' split) <;> simp
@[simp] theorem leaveSleep_chtabEn (s : State) : (leaveSleep s).chtabEn = s.chtabEn := by unfold leaveSleep; (repeat' split) <;> simp
@[simp] theorem leaveSleep_chans (s : State) : (leaveSleep s).chans = s.chans := by unfold leaveSleep; (repeat' split) <;> simp
@[simp] theorem leaveSleep_upl (s : State) : (leaveSleep s).upl = s.upl := by unfold leaveSleep; (repeat' split) <;> simp
@[simp] theorem leaveSleep_xc (s : State) : (leaveSleep s).xc = s.xc := by unfold leaveSleep; (repeat' split) <;> simp
@[simp] theorem leaveSleep_sec (s : State) : (leaveSleep s).sec = s.sec := by unfold leaveSleep; (repeat' split) <;> simp
@[simp] theorem leaveSleep_rad (s : State) : (leaveSleep s).rad = s.rad := by unfold leaveSleep; (repeat' split) <;> simp
@[simp] theorem leaveSleep_sup (s : State) : (leaveSleep s).sup = s.sup := by unfold leaveSleep; (repeat' split) <;> simp
@[simp] theorem leaveSleep_glb (s : State) : (leaveSleep s).glb = s.glb := by unfold leaveSleep; (repeat' split) <;> simp
@[simp] theorem leaveSleep_mgt (s : State) : (leaveSleep s).mgt = s.mgt := by unfold leaveSleep; (repeat' split) <;> simp
@[simp] theorem leaveSleep_free (s : State) : (leaveSleep s).free = s.free := by unfold leaveSleep; (repeat' split) <;> simp
@[simp] theorem ponWake_pending (s : State) : (ponWake s).pending = s.pending := by unfold ponWake; (repeat' split) <;> simp
@[simp] theorem ponWake_part (s : State) : (ponWake s).part = s.part := by unfold ponWake; (repeat' split) <;> simp
@[simp] theorem ponWake_datum (s : State) : (ponWake s).datum = s.datum := by unfold ponWake; (repeat' split) <;> simp
@[simp] theorem ponWake_time (s : State) : (ponWake s).time = s.time := by unfold ponWake; (repeat' split) <;> simp
@[simp] theorem ponWake_rings (s : State) : (ponWake s).rings = s.rings := by unfold ponWake; (repeat' split) <;> simp
@[simp] theorem ponWake_journal (s : State) : (ponWake s).journal = s.journal := by unfold ponWake; (repeat' split) <;> simp
@[simp] theorem ponWake_ledger (s : State) : (ponWake s).ledger = s.ledger := by unfold ponWake; (repeat' split) <;> simp
@[simp] theorem ponWake_recov (s : State) : (ponWake s).recov = s.recov := by unfold ponWake; (repeat' split) <;> simp
@[simp] theorem ponWake_chtabBase (s : State) : (ponWake s).chtabBase = s.chtabBase := by unfold ponWake; (repeat' split) <;> simp
@[simp] theorem ponWake_chtabEn (s : State) : (ponWake s).chtabEn = s.chtabEn := by unfold ponWake; (repeat' split) <;> simp
@[simp] theorem ponWake_chans (s : State) : (ponWake s).chans = s.chans := by unfold ponWake; (repeat' split) <;> simp
@[simp] theorem ponWake_xc (s : State) : (ponWake s).xc = s.xc := by unfold ponWake; (repeat' split) <;> simp
@[simp] theorem ponWake_sec (s : State) : (ponWake s).sec = s.sec := by unfold ponWake; (repeat' split) <;> simp
@[simp] theorem ponWake_rad (s : State) : (ponWake s).rad = s.rad := by unfold ponWake; (repeat' split) <;> simp
@[simp] theorem ponWake_sup (s : State) : (ponWake s).sup = s.sup := by unfold ponWake; (repeat' split) <;> simp
@[simp] theorem ponWake_glb (s : State) : (ponWake s).glb = s.glb := by unfold ponWake; (repeat' split) <;> simp
@[simp] theorem ponWake_mgt (s : State) : (ponWake s).mgt = s.mgt := by unfold ponWake; (repeat' split) <;> simp
@[simp] theorem ponWake_free (s : State) : (ponWake s).free = s.free := by unfold ponWake; (repeat' split) <;> simp
@[simp] theorem latchFault_pending (s : State) (k r f a : Nat) : (latchFault s k r f a).pending = s.pending := by unfold latchFault; (repeat' split) <;> simp
@[simp] theorem latchFault_part (s : State) (k r f a : Nat) : (latchFault s k r f a).part = s.part := by unfold latchFault; (repeat' split) <;> simp
@[simp] theorem latchFault_datum (s : State) (k r f a : Nat) : (latchFault s k r f a).datum = s.datum := by unfold latchFault; (repeat' split) <;> simp
@[simp] theorem latchFault_time (s : State) (k r f a : Nat) : (latchFault s k r f a).time = s.time := by unfold latchFault; (repeat' split) <;> simp
@[simp] theorem latchFault_rings (s : State) (k r f a : Nat) : (latchFault s k r f a).rings = s.rings := by unfold latchFault; (repeat' split) <;> simp
@[simp] theorem latchFault_journal (s : State) (k r f a : Nat) : (latchFault s k r f a).journal = s.journal := by unfold latchFault; (repeat' split) <;> simp
@[simp] theorem latchFault_ledger (s : State) (k r f a : Nat) : (latchFault s k r f a).ledger = s.ledger := by unfold latchFault; (repeat' split) <;> simp
@[simp] theorem latchFault_recov (s : State) (k r f a : Nat) : (latchFault s k r f a).recov = s.recov := by unfold latchFault; (repeat' split) <;> simp
@[simp] theorem latchFault_chtabBase (s : State) (k r f a : Nat) : (latchFault s k r f a).chtabBase = s.chtabBase := by unfold latchFault; (repeat' split) <;> simp
@[simp] theorem latchFault_chtabEn (s : State) (k r f a : Nat) : (latchFault s k r f a).chtabEn = s.chtabEn := by unfold latchFault; (repeat' split) <;> simp
@[simp] theorem latchFault_chans (s : State) (k r f a : Nat) : (latchFault s k r f a).chans = s.chans := by unfold latchFault; (repeat' split) <;> simp
@[simp] theorem latchFault_upl (s : State) (k r f a : Nat) : (latchFault s k r f a).upl = s.upl := by unfold latchFault; (repeat' split) <;> simp
@[simp] theorem latchFault_xc (s : State) (k r f a : Nat) : (latchFault s k r f a).xc = s.xc := by unfold latchFault; (repeat' split) <;> simp
@[simp] theorem latchFault_sec (s : State) (k r f a : Nat) : (latchFault s k r f a).sec = s.sec := by unfold latchFault; (repeat' split) <;> simp
@[simp] theorem latchFault_rad (s : State) (k r f a : Nat) : (latchFault s k r f a).rad = s.rad := by unfold latchFault; (repeat' split) <;> simp
@[simp] theorem latchFault_sup (s : State) (k r f a : Nat) : (latchFault s k r f a).sup = s.sup := by unfold latchFault; (repeat' split) <;> simp
@[simp] theorem latchFault_pwr (s : State) (k r f a : Nat) : (latchFault s k r f a).pwr = s.pwr := by unfold latchFault; (repeat' split) <;> simp
@[simp] theorem latchFault_fw (s : State) (k r f a : Nat) : (latchFault s k r f a).fw = s.fw := by unfold latchFault; (repeat' split) <;> simp
@[simp] theorem latchFault_glb (s : State) (k r f a : Nat) : (latchFault s k r f a).glb = s.glb := by unfold latchFault; (repeat' split) <;> simp
@[simp] theorem latchFault_evt (s : State) (k r f a : Nat) : (latchFault s k r f a).evt = s.evt := by unfold latchFault; (repeat' split) <;> simp
@[simp] theorem latchFault_mgt (s : State) (k r f a : Nat) : (latchFault s k r f a).mgt = s.mgt := by unfold latchFault; (repeat' split) <;> simp
@[simp] theorem latchFault_sent (s : State) (k r f a : Nat) : (latchFault s k r f a).sent = s.sent := by unfold latchFault; (repeat' split) <;> simp
@[simp] theorem latchFault_free (s : State) (k r f a : Nat) : (latchFault s k r f a).free = s.free := by unfold latchFault; (repeat' split) <;> simp
@[simp] theorem ringWindowFault_pending (s : State) (r a : Nat) : (ringWindowFault s r a).pending = s.pending := by unfold ringWindowFault; simp
@[simp] theorem ringWindowFault_part (s : State) (r a : Nat) : (ringWindowFault s r a).part = s.part := by unfold ringWindowFault; simp
@[simp] theorem ringWindowFault_datum (s : State) (r a : Nat) : (ringWindowFault s r a).datum = s.datum := by unfold ringWindowFault; simp
@[simp] theorem ringWindowFault_time (s : State) (r a : Nat) : (ringWindowFault s r a).time = s.time := by unfold ringWindowFault; simp
@[simp] theorem ringWindowFault_journal (s : State) (r a : Nat) : (ringWindowFault s r a).journal = s.journal := by unfold ringWindowFault; simp
@[simp] theorem ringWindowFault_ledger (s : State) (r a : Nat) : (ringWindowFault s r a).ledger = s.ledger := by unfold ringWindowFault; simp
@[simp] theorem ringWindowFault_recov (s : State) (r a : Nat) : (ringWindowFault s r a).recov = s.recov := by unfold ringWindowFault; simp
@[simp] theorem ringWindowFault_chtabBase (s : State) (r a : Nat) : (ringWindowFault s r a).chtabBase = s.chtabBase := by unfold ringWindowFault; simp
@[simp] theorem ringWindowFault_chtabEn (s : State) (r a : Nat) : (ringWindowFault s r a).chtabEn = s.chtabEn := by unfold ringWindowFault; simp
@[simp] theorem ringWindowFault_chans (s : State) (r a : Nat) : (ringWindowFault s r a).chans = s.chans := by unfold ringWindowFault; simp
@[simp] theorem ringWindowFault_upl (s : State) (r a : Nat) : (ringWindowFault s r a).upl = s.upl := by unfold ringWindowFault; simp
@[simp] theorem ringWindowFault_xc (s : State) (r a : Nat) : (ringWindowFault s r a).xc = s.xc := by unfold ringWindowFault; simp
@[simp] theorem ringWindowFault_sec (s : State) (r a : Nat) : (ringWindowFault s r a).sec = s.sec := by unfold ringWindowFault; simp
@[simp] theorem ringWindowFault_rad (s : State) (r a : Nat) : (ringWindowFault s r a).rad = s.rad := by unfold ringWindowFault; simp
@[simp] theorem ringWindowFault_sup (s : State) (r a : Nat) : (ringWindowFault s r a).sup = s.sup := by unfold ringWindowFault; simp
@[simp] theorem ringWindowFault_pwr (s : State) (r a : Nat) : (ringWindowFault s r a).pwr = s.pwr := by unfold ringWindowFault; simp
@[simp] theorem ringWindowFault_fw (s : State) (r a : Nat) : (ringWindowFault s r a).fw = s.fw := by unfold ringWindowFault; simp
@[simp] theorem ringWindowFault_glb (s : State) (r a : Nat) : (ringWindowFault s r a).glb = s.glb := by unfold ringWindowFault; simp
@[simp] theorem ringWindowFault_mgt (s : State) (r a : Nat) : (ringWindowFault s r a).mgt = s.mgt := by unfold ringWindowFault; simp
@[simp] theorem ringWindowFault_free (s : State) (r a : Nat) : (ringWindowFault s r a).free = s.free := by unfold ringWindowFault; simp
@[simp] theorem returnWith_pending (s : State) (r : Nat) (q : Word) (o : Outcome) : (returnWith s r q o).pending = s.pending := by unfold returnWith; (repeat' split) <;> simp
@[simp] theorem returnWith_part (s : State) (r : Nat) (q : Word) (o : Outcome) : (returnWith s r q o).part = s.part := by unfold returnWith; (repeat' split) <;> simp
@[simp] theorem returnWith_datum (s : State) (r : Nat) (q : Word) (o : Outcome) : (returnWith s r q o).datum = s.datum := by unfold returnWith; (repeat' split) <;> simp
@[simp] theorem returnWith_time (s : State) (r : Nat) (q : Word) (o : Outcome) : (returnWith s r q o).time = s.time := by unfold returnWith; (repeat' split) <;> simp
@[simp] theorem returnWith_hif (s : State) (r : Nat) (q : Word) (o : Outcome) : (returnWith s r q o).hif = s.hif := by unfold returnWith; (repeat' split) <;> simp
@[simp] theorem returnWith_journal (s : State) (r : Nat) (q : Word) (o : Outcome) : (returnWith s r q o).journal = s.journal := by unfold returnWith; (repeat' split) <;> simp
@[simp] theorem returnWith_ledger (s : State) (r : Nat) (q : Word) (o : Outcome) : (returnWith s r q o).ledger = s.ledger := by unfold returnWith; (repeat' split) <;> simp
@[simp] theorem returnWith_recov (s : State) (r : Nat) (q : Word) (o : Outcome) : (returnWith s r q o).recov = s.recov := by unfold returnWith; (repeat' split) <;> simp
@[simp] theorem returnWith_chtabBase (s : State) (r : Nat) (q : Word) (o : Outcome) : (returnWith s r q o).chtabBase = s.chtabBase := by unfold returnWith; (repeat' split) <;> simp
@[simp] theorem returnWith_chtabEn (s : State) (r : Nat) (q : Word) (o : Outcome) : (returnWith s r q o).chtabEn = s.chtabEn := by unfold returnWith; (repeat' split) <;> simp
@[simp] theorem returnWith_chans (s : State) (r : Nat) (q : Word) (o : Outcome) : (returnWith s r q o).chans = s.chans := by unfold returnWith; (repeat' split) <;> simp
@[simp] theorem returnWith_upl (s : State) (r : Nat) (q : Word) (o : Outcome) : (returnWith s r q o).upl = s.upl := by unfold returnWith; (repeat' split) <;> simp
@[simp] theorem returnWith_xc (s : State) (r : Nat) (q : Word) (o : Outcome) : (returnWith s r q o).xc = s.xc := by unfold returnWith; (repeat' split) <;> simp
@[simp] theorem returnWith_sec (s : State) (r : Nat) (q : Word) (o : Outcome) : (returnWith s r q o).sec = s.sec := by unfold returnWith; (repeat' split) <;> simp
@[simp] theorem returnWith_rad (s : State) (r : Nat) (q : Word) (o : Outcome) : (returnWith s r q o).rad = s.rad := by unfold returnWith; (repeat' split) <;> simp
@[simp] theorem returnWith_sup (s : State) (r : Nat) (q : Word) (o : Outcome) : (returnWith s r q o).sup = s.sup := by unfold returnWith; (repeat' split) <;> simp
@[simp] theorem returnWith_pwr (s : State) (r : Nat) (q : Word) (o : Outcome) : (returnWith s r q o).pwr = s.pwr := by unfold returnWith; (repeat' split) <;> simp
@[simp] theorem returnWith_fw (s : State) (r : Nat) (q : Word) (o : Outcome) : (returnWith s r q o).fw = s.fw := by unfold returnWith; (repeat' split) <;> simp
@[simp] theorem returnWith_glb (s : State) (r : Nat) (q : Word) (o : Outcome) : (returnWith s r q o).glb = s.glb := by unfold returnWith; (repeat' split) <;> simp
@[simp] theorem returnWith_evt (s : State) (r : Nat) (q : Word) (o : Outcome) : (returnWith s r q o).evt = s.evt := by unfold returnWith; (repeat' split) <;> simp
@[simp] theorem returnWith_mgt (s : State) (r : Nat) (q : Word) (o : Outcome) : (returnWith s r q o).mgt = s.mgt := by unfold returnWith; (repeat' split) <;> simp
@[simp] theorem returnWith_sent (s : State) (r : Nat) (q : Word) (o : Outcome) : (returnWith s r q o).sent = s.sent := by unfold returnWith; (repeat' split) <;> simp
@[simp] theorem returnWith_free (s : State) (r : Nat) (q : Word) (o : Outcome) : (returnWith s r q o).free = s.free := by unfold returnWith; (repeat' split) <;> simp
@[simp] theorem returnWork_pending (s : State) (r : Nat) (q : Word) (st : Status) : (returnWork s r q st).pending = s.pending := by unfold returnWork; simp
@[simp] theorem returnWork_part (s : State) (r : Nat) (q : Word) (st : Status) : (returnWork s r q st).part = s.part := by unfold returnWork; simp
@[simp] theorem returnWork_datum (s : State) (r : Nat) (q : Word) (st : Status) : (returnWork s r q st).datum = s.datum := by unfold returnWork; simp
@[simp] theorem returnWork_time (s : State) (r : Nat) (q : Word) (st : Status) : (returnWork s r q st).time = s.time := by unfold returnWork; simp
@[simp] theorem returnWork_hif (s : State) (r : Nat) (q : Word) (st : Status) : (returnWork s r q st).hif = s.hif := by unfold returnWork; simp
@[simp] theorem returnWork_journal (s : State) (r : Nat) (q : Word) (st : Status) : (returnWork s r q st).journal = s.journal := by unfold returnWork; simp
@[simp] theorem returnWork_ledger (s : State) (r : Nat) (q : Word) (st : Status) : (returnWork s r q st).ledger = s.ledger := by unfold returnWork; simp
@[simp] theorem returnWork_recov (s : State) (r : Nat) (q : Word) (st : Status) : (returnWork s r q st).recov = s.recov := by unfold returnWork; simp
@[simp] theorem returnWork_chtabBase (s : State) (r : Nat) (q : Word) (st : Status) : (returnWork s r q st).chtabBase = s.chtabBase := by unfold returnWork; simp
@[simp] theorem returnWork_chtabEn (s : State) (r : Nat) (q : Word) (st : Status) : (returnWork s r q st).chtabEn = s.chtabEn := by unfold returnWork; simp
@[simp] theorem returnWork_chans (s : State) (r : Nat) (q : Word) (st : Status) : (returnWork s r q st).chans = s.chans := by unfold returnWork; simp
@[simp] theorem returnWork_upl (s : State) (r : Nat) (q : Word) (st : Status) : (returnWork s r q st).upl = s.upl := by unfold returnWork; simp
@[simp] theorem returnWork_xc (s : State) (r : Nat) (q : Word) (st : Status) : (returnWork s r q st).xc = s.xc := by unfold returnWork; simp
@[simp] theorem returnWork_sec (s : State) (r : Nat) (q : Word) (st : Status) : (returnWork s r q st).sec = s.sec := by unfold returnWork; simp
@[simp] theorem returnWork_rad (s : State) (r : Nat) (q : Word) (st : Status) : (returnWork s r q st).rad = s.rad := by unfold returnWork; simp
@[simp] theorem returnWork_sup (s : State) (r : Nat) (q : Word) (st : Status) : (returnWork s r q st).sup = s.sup := by unfold returnWork; simp
@[simp] theorem returnWork_pwr (s : State) (r : Nat) (q : Word) (st : Status) : (returnWork s r q st).pwr = s.pwr := by unfold returnWork; simp
@[simp] theorem returnWork_fw (s : State) (r : Nat) (q : Word) (st : Status) : (returnWork s r q st).fw = s.fw := by unfold returnWork; simp
@[simp] theorem returnWork_glb (s : State) (r : Nat) (q : Word) (st : Status) : (returnWork s r q st).glb = s.glb := by unfold returnWork; simp
@[simp] theorem returnWork_evt (s : State) (r : Nat) (q : Word) (st : Status) : (returnWork s r q st).evt = s.evt := by unfold returnWork; simp
@[simp] theorem returnWork_mgt (s : State) (r : Nat) (q : Word) (st : Status) : (returnWork s r q st).mgt = s.mgt := by unfold returnWork; simp
@[simp] theorem returnWork_sent (s : State) (r : Nat) (q : Word) (st : Status) : (returnWork s r q st).sent = s.sent := by unfold returnWork; simp
@[simp] theorem returnWork_free (s : State) (r : Nat) (q : Word) (st : Status) : (returnWork s r q st).free = s.free := by unfold returnWork; simp
@[simp] theorem returnExpired_pending (s : State) (r : Nat) (q : Word) : (returnExpired s r q).pending = s.pending := by unfold returnExpired; (repeat' split) <;> simp
@[simp] theorem returnExpired_part (s : State) (r : Nat) (q : Word) : (returnExpired s r q).part = s.part := by unfold returnExpired; (repeat' split) <;> simp
@[simp] theorem returnExpired_datum (s : State) (r : Nat) (q : Word) : (returnExpired s r q).datum = s.datum := by unfold returnExpired; (repeat' split) <;> simp
@[simp] theorem returnExpired_time (s : State) (r : Nat) (q : Word) : (returnExpired s r q).time = s.time := by unfold returnExpired; (repeat' split) <;> simp
@[simp] theorem returnExpired_hif (s : State) (r : Nat) (q : Word) : (returnExpired s r q).hif = s.hif := by unfold returnExpired; (repeat' split) <;> simp
@[simp] theorem returnExpired_journal (s : State) (r : Nat) (q : Word) : (returnExpired s r q).journal = s.journal := by unfold returnExpired; (repeat' split) <;> simp
@[simp] theorem returnExpired_ledger (s : State) (r : Nat) (q : Word) : (returnExpired s r q).ledger = s.ledger := by unfold returnExpired; (repeat' split) <;> simp
@[simp] theorem returnExpired_recov (s : State) (r : Nat) (q : Word) : (returnExpired s r q).recov = s.recov := by unfold returnExpired; (repeat' split) <;> simp
@[simp] theorem returnExpired_chtabBase (s : State) (r : Nat) (q : Word) : (returnExpired s r q).chtabBase = s.chtabBase := by unfold returnExpired; (repeat' split) <;> simp
@[simp] theorem returnExpired_chtabEn (s : State) (r : Nat) (q : Word) : (returnExpired s r q).chtabEn = s.chtabEn := by unfold returnExpired; (repeat' split) <;> simp
@[simp] theorem returnExpired_chans (s : State) (r : Nat) (q : Word) : (returnExpired s r q).chans = s.chans := by unfold returnExpired; (repeat' split) <;> simp
@[simp] theorem returnExpired_upl (s : State) (r : Nat) (q : Word) : (returnExpired s r q).upl = s.upl := by unfold returnExpired; (repeat' split) <;> simp
@[simp] theorem returnExpired_xc (s : State) (r : Nat) (q : Word) : (returnExpired s r q).xc = s.xc := by unfold returnExpired; (repeat' split) <;> simp
@[simp] theorem returnExpired_sec (s : State) (r : Nat) (q : Word) : (returnExpired s r q).sec = s.sec := by unfold returnExpired; (repeat' split) <;> simp
@[simp] theorem returnExpired_rad (s : State) (r : Nat) (q : Word) : (returnExpired s r q).rad = s.rad := by unfold returnExpired; (repeat' split) <;> simp
@[simp] theorem returnExpired_sup (s : State) (r : Nat) (q : Word) : (returnExpired s r q).sup = s.sup := by unfold returnExpired; (repeat' split) <;> simp
@[simp] theorem returnExpired_pwr (s : State) (r : Nat) (q : Word) : (returnExpired s r q).pwr = s.pwr := by unfold returnExpired; (repeat' split) <;> simp
@[simp] theorem returnExpired_fw (s : State) (r : Nat) (q : Word) : (returnExpired s r q).fw = s.fw := by unfold returnExpired; (repeat' split) <;> simp
@[simp] theorem returnExpired_glb (s : State) (r : Nat) (q : Word) : (returnExpired s r q).glb = s.glb := by unfold returnExpired; (repeat' split) <;> simp
@[simp] theorem returnExpired_evt (s : State) (r : Nat) (q : Word) : (returnExpired s r q).evt = s.evt := by unfold returnExpired; (repeat' split) <;> simp
@[simp] theorem returnExpired_mgt (s : State) (r : Nat) (q : Word) : (returnExpired s r q).mgt = s.mgt := by unfold returnExpired; (repeat' split) <;> simp
@[simp] theorem returnExpired_sent (s : State) (r : Nat) (q : Word) : (returnExpired s r q).sent = s.sent := by unfold returnExpired; (repeat' split) <;> simp
@[simp] theorem returnExpired_free (s : State) (r : Nat) (q : Word) : (returnExpired s r q).free = s.free := by unfold returnExpired; (repeat' split) <;> simp
@[simp] theorem emitWork_pending (s : State) (r : RingNo) (q : Word) (o : Outcome) : (emitWork s r q o).pending = s.pending := by unfold emitWork; (repeat' split) <;> simp
@[simp] theorem emitWork_part (s : State) (r : RingNo) (q : Word) (o : Outcome) : (emitWork s r q o).part = s.part := by unfold emitWork; (repeat' split) <;> simp
@[simp] theorem emitWork_datum (s : State) (r : RingNo) (q : Word) (o : Outcome) : (emitWork s r q o).datum = s.datum := by unfold emitWork; (repeat' split) <;> simp
@[simp] theorem emitWork_time (s : State) (r : RingNo) (q : Word) (o : Outcome) : (emitWork s r q o).time = s.time := by unfold emitWork; (repeat' split) <;> simp
@[simp] theorem emitWork_hif (s : State) (r : RingNo) (q : Word) (o : Outcome) : (emitWork s r q o).hif = s.hif := by unfold emitWork; (repeat' split) <;> simp
@[simp] theorem emitWork_ledger (s : State) (r : RingNo) (q : Word) (o : Outcome) : (emitWork s r q o).ledger = s.ledger := by unfold emitWork; (repeat' split) <;> simp
@[simp] theorem emitWork_recov (s : State) (r : RingNo) (q : Word) (o : Outcome) : (emitWork s r q o).recov = s.recov := by unfold emitWork; (repeat' split) <;> simp
@[simp] theorem emitWork_chtabBase (s : State) (r : RingNo) (q : Word) (o : Outcome) : (emitWork s r q o).chtabBase = s.chtabBase := by unfold emitWork; (repeat' split) <;> simp
@[simp] theorem emitWork_chtabEn (s : State) (r : RingNo) (q : Word) (o : Outcome) : (emitWork s r q o).chtabEn = s.chtabEn := by unfold emitWork; (repeat' split) <;> simp
@[simp] theorem emitWork_chans (s : State) (r : RingNo) (q : Word) (o : Outcome) : (emitWork s r q o).chans = s.chans := by unfold emitWork; (repeat' split) <;> simp
@[simp] theorem emitWork_upl (s : State) (r : RingNo) (q : Word) (o : Outcome) : (emitWork s r q o).upl = s.upl := by unfold emitWork; (repeat' split) <;> simp
@[simp] theorem emitWork_xc (s : State) (r : RingNo) (q : Word) (o : Outcome) : (emitWork s r q o).xc = s.xc := by unfold emitWork; (repeat' split) <;> simp
@[simp] theorem emitWork_sec (s : State) (r : RingNo) (q : Word) (o : Outcome) : (emitWork s r q o).sec = s.sec := by unfold emitWork; (repeat' split) <;> simp
@[simp] theorem emitWork_rad (s : State) (r : RingNo) (q : Word) (o : Outcome) : (emitWork s r q o).rad = s.rad := by unfold emitWork; (repeat' split) <;> simp
@[simp] theorem emitWork_sup (s : State) (r : RingNo) (q : Word) (o : Outcome) : (emitWork s r q o).sup = s.sup := by unfold emitWork; (repeat' split) <;> simp
@[simp] theorem emitWork_pwr (s : State) (r : RingNo) (q : Word) (o : Outcome) : (emitWork s r q o).pwr = s.pwr := by unfold emitWork; (repeat' split) <;> simp
@[simp] theorem emitWork_fw (s : State) (r : RingNo) (q : Word) (o : Outcome) : (emitWork s r q o).fw = s.fw := by unfold emitWork; (repeat' split) <;> simp
@[simp] theorem emitWork_glb (s : State) (r : RingNo) (q : Word) (o : Outcome) : (emitWork s r q o).glb = s.glb := by unfold emitWork; (repeat' split) <;> simp
@[simp] theorem emitWork_evt (s : State) (r : RingNo) (q : Word) (o : Outcome) : (emitWork s r q o).evt = s.evt := by unfold emitWork; (repeat' split) <;> simp
@[simp] theorem emitWork_mgt (s : State) (r : RingNo) (q : Word) (o : Outcome) : (emitWork s r q o).mgt = s.mgt := by unfold emitWork; (repeat' split) <;> simp
@[simp] theorem emitWork_sent (s : State) (r : RingNo) (q : Word) (o : Outcome) : (emitWork s r q o).sent = s.sent := by unfold emitWork; (repeat' split) <;> simp
@[simp] theorem emitWork_free (s : State) (r : RingNo) (q : Word) (o : Outcome) : (emitWork s r q o).free = s.free := by unfold emitWork; (repeat' split) <;> simp
@[simp] theorem beginEmission_pending (s : State) (r : RingNo) (q : Word) (o : Outcome) : (beginEmission s r q o).pending = s.pending := by unfold beginEmission; (repeat' split) <;> simp
@[simp] theorem beginEmission_part (s : State) (r : RingNo) (q : Word) (o : Outcome) : (beginEmission s r q o).part = s.part := by unfold beginEmission; (repeat' split) <;> simp
@[simp] theorem beginEmission_datum (s : State) (r : RingNo) (q : Word) (o : Outcome) : (beginEmission s r q o).datum = s.datum := by unfold beginEmission; (repeat' split) <;> simp
@[simp] theorem beginEmission_time (s : State) (r : RingNo) (q : Word) (o : Outcome) : (beginEmission s r q o).time = s.time := by unfold beginEmission; (repeat' split) <;> simp
@[simp] theorem beginEmission_hif (s : State) (r : RingNo) (q : Word) (o : Outcome) : (beginEmission s r q o).hif = s.hif := by unfold beginEmission; (repeat' split) <;> simp
@[simp] theorem beginEmission_ledger (s : State) (r : RingNo) (q : Word) (o : Outcome) : (beginEmission s r q o).ledger = s.ledger := by unfold beginEmission; (repeat' split) <;> simp
@[simp] theorem beginEmission_recov (s : State) (r : RingNo) (q : Word) (o : Outcome) : (beginEmission s r q o).recov = s.recov := by unfold beginEmission; (repeat' split) <;> simp
@[simp] theorem beginEmission_chtabBase (s : State) (r : RingNo) (q : Word) (o : Outcome) : (beginEmission s r q o).chtabBase = s.chtabBase := by unfold beginEmission; (repeat' split) <;> simp
@[simp] theorem beginEmission_chtabEn (s : State) (r : RingNo) (q : Word) (o : Outcome) : (beginEmission s r q o).chtabEn = s.chtabEn := by unfold beginEmission; (repeat' split) <;> simp
@[simp] theorem beginEmission_chans (s : State) (r : RingNo) (q : Word) (o : Outcome) : (beginEmission s r q o).chans = s.chans := by unfold beginEmission; (repeat' split) <;> simp
@[simp] theorem beginEmission_upl (s : State) (r : RingNo) (q : Word) (o : Outcome) : (beginEmission s r q o).upl = s.upl := by unfold beginEmission; (repeat' split) <;> simp
@[simp] theorem beginEmission_xc (s : State) (r : RingNo) (q : Word) (o : Outcome) : (beginEmission s r q o).xc = s.xc := by unfold beginEmission; (repeat' split) <;> simp
@[simp] theorem beginEmission_sec (s : State) (r : RingNo) (q : Word) (o : Outcome) : (beginEmission s r q o).sec = s.sec := by unfold beginEmission; (repeat' split) <;> simp
@[simp] theorem beginEmission_rad (s : State) (r : RingNo) (q : Word) (o : Outcome) : (beginEmission s r q o).rad = s.rad := by unfold beginEmission; (repeat' split) <;> simp
@[simp] theorem beginEmission_sup (s : State) (r : RingNo) (q : Word) (o : Outcome) : (beginEmission s r q o).sup = s.sup := by unfold beginEmission; (repeat' split) <;> simp
@[simp] theorem beginEmission_pwr (s : State) (r : RingNo) (q : Word) (o : Outcome) : (beginEmission s r q o).pwr = s.pwr := by unfold beginEmission; (repeat' split) <;> simp
@[simp] theorem beginEmission_fw (s : State) (r : RingNo) (q : Word) (o : Outcome) : (beginEmission s r q o).fw = s.fw := by unfold beginEmission; (repeat' split) <;> simp
@[simp] theorem beginEmission_glb (s : State) (r : RingNo) (q : Word) (o : Outcome) : (beginEmission s r q o).glb = s.glb := by unfold beginEmission; (repeat' split) <;> simp
@[simp] theorem beginEmission_evt (s : State) (r : RingNo) (q : Word) (o : Outcome) : (beginEmission s r q o).evt = s.evt := by unfold beginEmission; (repeat' split) <;> simp
@[simp] theorem beginEmission_mgt (s : State) (r : RingNo) (q : Word) (o : Outcome) : (beginEmission s r q o).mgt = s.mgt := by unfold beginEmission; (repeat' split) <;> simp
@[simp] theorem beginEmission_sent (s : State) (r : RingNo) (q : Word) (o : Outcome) : (beginEmission s r q o).sent = s.sent := by unfold beginEmission; (repeat' split) <;> simp
@[simp] theorem beginEmission_free (s : State) (r : RingNo) (q : Word) (o : Outcome) : (beginEmission s r q o).free = s.free := by unfold beginEmission; (repeat' split) <;> simp
@[simp] theorem endEmission_pending (s : State) (r : Nat) (q : Word) (f : Outcome → Outcome) : (endEmission s r q f).pending = s.pending := by unfold endEmission; simp
@[simp] theorem endEmission_part (s : State) (r : Nat) (q : Word) (f : Outcome → Outcome) : (endEmission s r q f).part = s.part := by unfold endEmission; simp
@[simp] theorem endEmission_datum (s : State) (r : Nat) (q : Word) (f : Outcome → Outcome) : (endEmission s r q f).datum = s.datum := by unfold endEmission; simp
@[simp] theorem endEmission_time (s : State) (r : Nat) (q : Word) (f : Outcome → Outcome) : (endEmission s r q f).time = s.time := by unfold endEmission; simp
@[simp] theorem endEmission_hif (s : State) (r : Nat) (q : Word) (f : Outcome → Outcome) : (endEmission s r q f).hif = s.hif := by unfold endEmission; simp
@[simp] theorem endEmission_ledger (s : State) (r : Nat) (q : Word) (f : Outcome → Outcome) : (endEmission s r q f).ledger = s.ledger := by unfold endEmission; simp
@[simp] theorem endEmission_recov (s : State) (r : Nat) (q : Word) (f : Outcome → Outcome) : (endEmission s r q f).recov = s.recov := by unfold endEmission; simp
@[simp] theorem endEmission_chtabBase (s : State) (r : Nat) (q : Word) (f : Outcome → Outcome) : (endEmission s r q f).chtabBase = s.chtabBase := by unfold endEmission; simp
@[simp] theorem endEmission_chtabEn (s : State) (r : Nat) (q : Word) (f : Outcome → Outcome) : (endEmission s r q f).chtabEn = s.chtabEn := by unfold endEmission; simp
@[simp] theorem endEmission_chans (s : State) (r : Nat) (q : Word) (f : Outcome → Outcome) : (endEmission s r q f).chans = s.chans := by unfold endEmission; simp
@[simp] theorem endEmission_upl (s : State) (r : Nat) (q : Word) (f : Outcome → Outcome) : (endEmission s r q f).upl = s.upl := by unfold endEmission; simp
@[simp] theorem endEmission_xc (s : State) (r : Nat) (q : Word) (f : Outcome → Outcome) : (endEmission s r q f).xc = s.xc := by unfold endEmission; simp
@[simp] theorem endEmission_sec (s : State) (r : Nat) (q : Word) (f : Outcome → Outcome) : (endEmission s r q f).sec = s.sec := by unfold endEmission; simp
@[simp] theorem endEmission_rad (s : State) (r : Nat) (q : Word) (f : Outcome → Outcome) : (endEmission s r q f).rad = s.rad := by unfold endEmission; simp
@[simp] theorem endEmission_sup (s : State) (r : Nat) (q : Word) (f : Outcome → Outcome) : (endEmission s r q f).sup = s.sup := by unfold endEmission; simp
@[simp] theorem endEmission_pwr (s : State) (r : Nat) (q : Word) (f : Outcome → Outcome) : (endEmission s r q f).pwr = s.pwr := by unfold endEmission; simp
@[simp] theorem endEmission_fw (s : State) (r : Nat) (q : Word) (f : Outcome → Outcome) : (endEmission s r q f).fw = s.fw := by unfold endEmission; simp
@[simp] theorem endEmission_glb (s : State) (r : Nat) (q : Word) (f : Outcome → Outcome) : (endEmission s r q f).glb = s.glb := by unfold endEmission; simp
@[simp] theorem endEmission_evt (s : State) (r : Nat) (q : Word) (f : Outcome → Outcome) : (endEmission s r q f).evt = s.evt := by unfold endEmission; simp
@[simp] theorem endEmission_mgt (s : State) (r : Nat) (q : Word) (f : Outcome → Outcome) : (endEmission s r q f).mgt = s.mgt := by unfold endEmission; simp
@[simp] theorem endEmission_sent (s : State) (r : Nat) (q : Word) (f : Outcome → Outcome) : (endEmission s r q f).sent = s.sent := by unfold endEmission; simp
@[simp] theorem endEmission_free (s : State) (r : Nat) (q : Word) (f : Outcome → Outcome) : (endEmission s r q f).free = s.free := by unfold endEmission; simp
@[simp] theorem cutEmissions_pending (s : State) (r : Nat) : (cutEmissions s r).pending = s.pending := foldl_keeps (State.pending) _ (fun _ _ => by simp) _ _
@[simp] theorem cutEmissions_part (s : State) (r : Nat) : (cutEmissions s r).part = s.part := foldl_keeps (State.part) _ (fun _ _ => by simp) _ _
@[simp] theorem cutEmissions_datum (s : State) (r : Nat) : (cutEmissions s r).datum = s.datum := foldl_keeps (State.datum) _ (fun _ _ => by simp) _ _
@[simp] theorem cutEmissions_time (s : State) (r : Nat) : (cutEmissions s r).time = s.time := foldl_keeps (State.time) _ (fun _ _ => by simp) _ _
@[simp] theorem cutEmissions_hif (s : State) (r : Nat) : (cutEmissions s r).hif = s.hif := foldl_keeps (State.hif) _ (fun _ _ => by simp) _ _
@[simp] theorem cutEmissions_ledger (s : State) (r : Nat) : (cutEmissions s r).ledger = s.ledger := foldl_keeps (State.ledger) _ (fun _ _ => by simp) _ _
@[simp] theorem cutEmissions_recov (s : State) (r : Nat) : (cutEmissions s r).recov = s.recov := foldl_keeps (State.recov) _ (fun _ _ => by simp) _ _
@[simp] theorem cutEmissions_chtabBase (s : State) (r : Nat) : (cutEmissions s r).chtabBase = s.chtabBase := foldl_keeps (State.chtabBase) _ (fun _ _ => by simp) _ _
@[simp] theorem cutEmissions_chtabEn (s : State) (r : Nat) : (cutEmissions s r).chtabEn = s.chtabEn := foldl_keeps (State.chtabEn) _ (fun _ _ => by simp) _ _
@[simp] theorem cutEmissions_chans (s : State) (r : Nat) : (cutEmissions s r).chans = s.chans := foldl_keeps (State.chans) _ (fun _ _ => by simp) _ _
@[simp] theorem cutEmissions_upl (s : State) (r : Nat) : (cutEmissions s r).upl = s.upl := foldl_keeps (State.upl) _ (fun _ _ => by simp) _ _
@[simp] theorem cutEmissions_xc (s : State) (r : Nat) : (cutEmissions s r).xc = s.xc := foldl_keeps (State.xc) _ (fun _ _ => by simp) _ _
@[simp] theorem cutEmissions_sec (s : State) (r : Nat) : (cutEmissions s r).sec = s.sec := foldl_keeps (State.sec) _ (fun _ _ => by simp) _ _
@[simp] theorem cutEmissions_rad (s : State) (r : Nat) : (cutEmissions s r).rad = s.rad := foldl_keeps (State.rad) _ (fun _ _ => by simp) _ _
@[simp] theorem cutEmissions_sup (s : State) (r : Nat) : (cutEmissions s r).sup = s.sup := foldl_keeps (State.sup) _ (fun _ _ => by simp) _ _
@[simp] theorem cutEmissions_pwr (s : State) (r : Nat) : (cutEmissions s r).pwr = s.pwr := foldl_keeps (State.pwr) _ (fun _ _ => by simp) _ _
@[simp] theorem cutEmissions_fw (s : State) (r : Nat) : (cutEmissions s r).fw = s.fw := foldl_keeps (State.fw) _ (fun _ _ => by simp) _ _
@[simp] theorem cutEmissions_glb (s : State) (r : Nat) : (cutEmissions s r).glb = s.glb := foldl_keeps (State.glb) _ (fun _ _ => by simp) _ _
@[simp] theorem cutEmissions_evt (s : State) (r : Nat) : (cutEmissions s r).evt = s.evt := foldl_keeps (State.evt) _ (fun _ _ => by simp) _ _
@[simp] theorem cutEmissions_mgt (s : State) (r : Nat) : (cutEmissions s r).mgt = s.mgt := foldl_keeps (State.mgt) _ (fun _ _ => by simp) _ _
@[simp] theorem cutEmissions_sent (s : State) (r : Nat) : (cutEmissions s r).sent = s.sent := foldl_keeps (State.sent) _ (fun _ _ => by simp) _ _
@[simp] theorem cutEmissions_free (s : State) (r : Nat) : (cutEmissions s r).free = s.free := foldl_keeps (State.free) _ (fun _ _ => by simp) _ _
@[simp] theorem stall_pending (s : State) (q : Nat) : (stall s q).pending = s.pending := by unfold stall; (repeat' split) <;> simp
@[simp] theorem stall_part (s : State) (q : Nat) : (stall s q).part = s.part := by unfold stall; (repeat' split) <;> simp
@[simp] theorem stall_datum (s : State) (q : Nat) : (stall s q).datum = s.datum := by unfold stall; (repeat' split) <;> simp
@[simp] theorem stall_time (s : State) (q : Nat) : (stall s q).time = s.time := by unfold stall; (repeat' split) <;> simp
@[simp] theorem stall_journal (s : State) (q : Nat) : (stall s q).journal = s.journal := by unfold stall; (repeat' split) <;> simp
@[simp] theorem stall_ledger (s : State) (q : Nat) : (stall s q).ledger = s.ledger := by unfold stall; (repeat' split) <;> simp
@[simp] theorem stall_recov (s : State) (q : Nat) : (stall s q).recov = s.recov := by unfold stall; (repeat' split) <;> simp
@[simp] theorem stall_chtabBase (s : State) (q : Nat) : (stall s q).chtabBase = s.chtabBase := by unfold stall; (repeat' split) <;> simp
@[simp] theorem stall_chtabEn (s : State) (q : Nat) : (stall s q).chtabEn = s.chtabEn := by unfold stall; (repeat' split) <;> simp
@[simp] theorem stall_chans (s : State) (q : Nat) : (stall s q).chans = s.chans := by unfold stall; (repeat' split) <;> simp
@[simp] theorem stall_upl (s : State) (q : Nat) : (stall s q).upl = s.upl := by unfold stall; (repeat' split) <;> simp
@[simp] theorem stall_xc (s : State) (q : Nat) : (stall s q).xc = s.xc := by unfold stall; (repeat' split) <;> simp
@[simp] theorem stall_sec (s : State) (q : Nat) : (stall s q).sec = s.sec := by unfold stall; (repeat' split) <;> simp
@[simp] theorem stall_rad (s : State) (q : Nat) : (stall s q).rad = s.rad := by unfold stall; (repeat' split) <;> simp
@[simp] theorem stall_sup (s : State) (q : Nat) : (stall s q).sup = s.sup := by unfold stall; (repeat' split) <;> simp
@[simp] theorem stall_pwr (s : State) (q : Nat) : (stall s q).pwr = s.pwr := by unfold stall; (repeat' split) <;> simp
@[simp] theorem stall_fw (s : State) (q : Nat) : (stall s q).fw = s.fw := by unfold stall; (repeat' split) <;> simp
@[simp] theorem stall_glb (s : State) (q : Nat) : (stall s q).glb = s.glb := by unfold stall; (repeat' split) <;> simp
@[simp] theorem stall_mgt (s : State) (q : Nat) : (stall s q).mgt = s.mgt := by unfold stall; (repeat' split) <;> simp
@[simp] theorem stall_free (s : State) (q : Nat) : (stall s q).free = s.free := by unfold stall; (repeat' split) <;> simp
@[simp] theorem countRecord_pending (s : State) (q : Nat) (irq : Bool) : (countRecord s q irq).pending = s.pending := by unfold countRecord; dsimp only; (repeat' split) <;> simp
@[simp] theorem countRecord_part (s : State) (q : Nat) (irq : Bool) : (countRecord s q irq).part = s.part := by unfold countRecord; dsimp only; (repeat' split) <;> simp
@[simp] theorem countRecord_datum (s : State) (q : Nat) (irq : Bool) : (countRecord s q irq).datum = s.datum := by unfold countRecord; dsimp only; (repeat' split) <;> simp
@[simp] theorem countRecord_time (s : State) (q : Nat) (irq : Bool) : (countRecord s q irq).time = s.time := by unfold countRecord; dsimp only; (repeat' split) <;> simp
@[simp] theorem countRecord_journal (s : State) (q : Nat) (irq : Bool) : (countRecord s q irq).journal = s.journal := by unfold countRecord; dsimp only; (repeat' split) <;> simp
@[simp] theorem countRecord_ledger (s : State) (q : Nat) (irq : Bool) : (countRecord s q irq).ledger = s.ledger := by unfold countRecord; dsimp only; (repeat' split) <;> simp
@[simp] theorem countRecord_recov (s : State) (q : Nat) (irq : Bool) : (countRecord s q irq).recov = s.recov := by unfold countRecord; dsimp only; (repeat' split) <;> simp
@[simp] theorem countRecord_chtabBase (s : State) (q : Nat) (irq : Bool) : (countRecord s q irq).chtabBase = s.chtabBase := by unfold countRecord; dsimp only; (repeat' split) <;> simp
@[simp] theorem countRecord_chtabEn (s : State) (q : Nat) (irq : Bool) : (countRecord s q irq).chtabEn = s.chtabEn := by unfold countRecord; dsimp only; (repeat' split) <;> simp
@[simp] theorem countRecord_chans (s : State) (q : Nat) (irq : Bool) : (countRecord s q irq).chans = s.chans := by unfold countRecord; dsimp only; (repeat' split) <;> simp
@[simp] theorem countRecord_upl (s : State) (q : Nat) (irq : Bool) : (countRecord s q irq).upl = s.upl := by unfold countRecord; dsimp only; (repeat' split) <;> simp
@[simp] theorem countRecord_xc (s : State) (q : Nat) (irq : Bool) : (countRecord s q irq).xc = s.xc := by unfold countRecord; dsimp only; (repeat' split) <;> simp
@[simp] theorem countRecord_sec (s : State) (q : Nat) (irq : Bool) : (countRecord s q irq).sec = s.sec := by unfold countRecord; dsimp only; (repeat' split) <;> simp
@[simp] theorem countRecord_rad (s : State) (q : Nat) (irq : Bool) : (countRecord s q irq).rad = s.rad := by unfold countRecord; dsimp only; (repeat' split) <;> simp
@[simp] theorem countRecord_sup (s : State) (q : Nat) (irq : Bool) : (countRecord s q irq).sup = s.sup := by unfold countRecord; dsimp only; (repeat' split) <;> simp
@[simp] theorem countRecord_pwr (s : State) (q : Nat) (irq : Bool) : (countRecord s q irq).pwr = s.pwr := by unfold countRecord; dsimp only; (repeat' split) <;> simp
@[simp] theorem countRecord_fw (s : State) (q : Nat) (irq : Bool) : (countRecord s q irq).fw = s.fw := by unfold countRecord; dsimp only; (repeat' split) <;> simp
@[simp] theorem countRecord_glb (s : State) (q : Nat) (irq : Bool) : (countRecord s q irq).glb = s.glb := by unfold countRecord; dsimp only; (repeat' split) <;> simp
@[simp] theorem countRecord_mgt (s : State) (q : Nat) (irq : Bool) : (countRecord s q irq).mgt = s.mgt := by unfold countRecord; dsimp only; (repeat' split) <;> simp
@[simp] theorem countRecord_free (s : State) (q : Nat) (irq : Bool) : (countRecord s q irq).free = s.free := by unfold countRecord; dsimp only; (repeat' split) <;> simp
@[simp] theorem issueRecord_pending (s : State) (q a : Nat) (x : Issued) : (issueRecord s q a x).pending = s.pending := by unfold issueRecord; simp
@[simp] theorem issueRecord_part (s : State) (q a : Nat) (x : Issued) : (issueRecord s q a x).part = s.part := by unfold issueRecord; simp
@[simp] theorem issueRecord_datum (s : State) (q a : Nat) (x : Issued) : (issueRecord s q a x).datum = s.datum := by unfold issueRecord; simp
@[simp] theorem issueRecord_time (s : State) (q a : Nat) (x : Issued) : (issueRecord s q a x).time = s.time := by unfold issueRecord; simp
@[simp] theorem issueRecord_journal (s : State) (q a : Nat) (x : Issued) : (issueRecord s q a x).journal = s.journal := by unfold issueRecord; simp
@[simp] theorem issueRecord_ledger (s : State) (q a : Nat) (x : Issued) : (issueRecord s q a x).ledger = s.ledger := by unfold issueRecord; simp
@[simp] theorem issueRecord_recov (s : State) (q a : Nat) (x : Issued) : (issueRecord s q a x).recov = s.recov := by unfold issueRecord; simp
@[simp] theorem issueRecord_chtabBase (s : State) (q a : Nat) (x : Issued) : (issueRecord s q a x).chtabBase = s.chtabBase := by unfold issueRecord; simp
@[simp] theorem issueRecord_chtabEn (s : State) (q a : Nat) (x : Issued) : (issueRecord s q a x).chtabEn = s.chtabEn := by unfold issueRecord; simp
@[simp] theorem issueRecord_chans (s : State) (q a : Nat) (x : Issued) : (issueRecord s q a x).chans = s.chans := by unfold issueRecord; simp
@[simp] theorem issueRecord_upl (s : State) (q a : Nat) (x : Issued) : (issueRecord s q a x).upl = s.upl := by unfold issueRecord; simp
@[simp] theorem issueRecord_xc (s : State) (q a : Nat) (x : Issued) : (issueRecord s q a x).xc = s.xc := by unfold issueRecord; simp
@[simp] theorem issueRecord_sec (s : State) (q a : Nat) (x : Issued) : (issueRecord s q a x).sec = s.sec := by unfold issueRecord; simp
@[simp] theorem issueRecord_rad (s : State) (q a : Nat) (x : Issued) : (issueRecord s q a x).rad = s.rad := by unfold issueRecord; simp
@[simp] theorem issueRecord_sup (s : State) (q a : Nat) (x : Issued) : (issueRecord s q a x).sup = s.sup := by unfold issueRecord; simp
@[simp] theorem issueRecord_pwr (s : State) (q a : Nat) (x : Issued) : (issueRecord s q a x).pwr = s.pwr := by unfold issueRecord; simp
@[simp] theorem issueRecord_fw (s : State) (q a : Nat) (x : Issued) : (issueRecord s q a x).fw = s.fw := by unfold issueRecord; simp
@[simp] theorem issueRecord_glb (s : State) (q a : Nat) (x : Issued) : (issueRecord s q a x).glb = s.glb := by unfold issueRecord; simp
@[simp] theorem issueRecord_mgt (s : State) (q a : Nat) (x : Issued) : (issueRecord s q a x).mgt = s.mgt := by unfold issueRecord; simp
@[simp] theorem issueRecord_free (s : State) (q a : Nat) (x : Issued) : (issueRecord s q a x).free = s.free := by unfold issueRecord; simp
@[simp] theorem ledgerFault_pending (s : State) (x : LXfer) (rd : Bool) : (ledgerFault s x rd).pending = s.pending := by unfold ledgerFault; simp
@[simp] theorem ledgerFault_part (s : State) (x : LXfer) (rd : Bool) : (ledgerFault s x rd).part = s.part := by unfold ledgerFault; simp
@[simp] theorem ledgerFault_datum (s : State) (x : LXfer) (rd : Bool) : (ledgerFault s x rd).datum = s.datum := by unfold ledgerFault; simp
@[simp] theorem ledgerFault_time (s : State) (x : LXfer) (rd : Bool) : (ledgerFault s x rd).time = s.time := by unfold ledgerFault; simp
@[simp] theorem ledgerFault_rings (s : State) (x : LXfer) (rd : Bool) : (ledgerFault s x rd).rings = s.rings := by unfold ledgerFault; simp
@[simp] theorem ledgerFault_journal (s : State) (x : LXfer) (rd : Bool) : (ledgerFault s x rd).journal = s.journal := by unfold ledgerFault; simp
@[simp] theorem ledgerFault_recov (s : State) (x : LXfer) (rd : Bool) : (ledgerFault s x rd).recov = s.recov := by unfold ledgerFault; simp
@[simp] theorem ledgerFault_chtabBase (s : State) (x : LXfer) (rd : Bool) : (ledgerFault s x rd).chtabBase = s.chtabBase := by unfold ledgerFault; simp
@[simp] theorem ledgerFault_chtabEn (s : State) (x : LXfer) (rd : Bool) : (ledgerFault s x rd).chtabEn = s.chtabEn := by unfold ledgerFault; simp
@[simp] theorem ledgerFault_chans (s : State) (x : LXfer) (rd : Bool) : (ledgerFault s x rd).chans = s.chans := by unfold ledgerFault; simp
@[simp] theorem ledgerFault_upl (s : State) (x : LXfer) (rd : Bool) : (ledgerFault s x rd).upl = s.upl := by unfold ledgerFault; simp
@[simp] theorem ledgerFault_xc (s : State) (x : LXfer) (rd : Bool) : (ledgerFault s x rd).xc = s.xc := by unfold ledgerFault; simp
@[simp] theorem ledgerFault_sec (s : State) (x : LXfer) (rd : Bool) : (ledgerFault s x rd).sec = s.sec := by unfold ledgerFault; simp
@[simp] theorem ledgerFault_rad (s : State) (x : LXfer) (rd : Bool) : (ledgerFault s x rd).rad = s.rad := by unfold ledgerFault; simp
@[simp] theorem ledgerFault_pwr (s : State) (x : LXfer) (rd : Bool) : (ledgerFault s x rd).pwr = s.pwr := by unfold ledgerFault; simp
@[simp] theorem ledgerFault_fw (s : State) (x : LXfer) (rd : Bool) : (ledgerFault s x rd).fw = s.fw := by unfold ledgerFault; simp
@[simp] theorem ledgerFault_glb (s : State) (x : LXfer) (rd : Bool) : (ledgerFault s x rd).glb = s.glb := by unfold ledgerFault; simp
@[simp] theorem ledgerFault_mgt (s : State) (x : LXfer) (rd : Bool) : (ledgerFault s x rd).mgt = s.mgt := by unfold ledgerFault; simp
@[simp] theorem ledgerFault_free (s : State) (x : LXfer) (rd : Bool) : (ledgerFault s x rd).free = s.free := by unfold ledgerFault; simp
@[simp] theorem ledgerWait_pending (s : State) (x : LXfer) : (ledgerWait s x).pending = s.pending := by unfold ledgerWait; (repeat' split) <;> rfl
@[simp] theorem ledgerWait_part (s : State) (x : LXfer) : (ledgerWait s x).part = s.part := by unfold ledgerWait; (repeat' split) <;> rfl
@[simp] theorem ledgerWait_datum (s : State) (x : LXfer) : (ledgerWait s x).datum = s.datum := by unfold ledgerWait; (repeat' split) <;> rfl
@[simp] theorem ledgerWait_time (s : State) (x : LXfer) : (ledgerWait s x).time = s.time := by unfold ledgerWait; (repeat' split) <;> rfl
@[simp] theorem ledgerWait_hif (s : State) (x : LXfer) : (ledgerWait s x).hif = s.hif := by unfold ledgerWait; (repeat' split) <;> rfl
@[simp] theorem ledgerWait_rings (s : State) (x : LXfer) : (ledgerWait s x).rings = s.rings := by unfold ledgerWait; (repeat' split) <;> rfl
@[simp] theorem ledgerWait_journal (s : State) (x : LXfer) : (ledgerWait s x).journal = s.journal := by unfold ledgerWait; (repeat' split) <;> rfl
@[simp] theorem ledgerWait_recov (s : State) (x : LXfer) : (ledgerWait s x).recov = s.recov := by unfold ledgerWait; (repeat' split) <;> rfl
@[simp] theorem ledgerWait_chtabBase (s : State) (x : LXfer) : (ledgerWait s x).chtabBase = s.chtabBase := by unfold ledgerWait; (repeat' split) <;> rfl
@[simp] theorem ledgerWait_chtabEn (s : State) (x : LXfer) : (ledgerWait s x).chtabEn = s.chtabEn := by unfold ledgerWait; (repeat' split) <;> rfl
@[simp] theorem ledgerWait_chans (s : State) (x : LXfer) : (ledgerWait s x).chans = s.chans := by unfold ledgerWait; (repeat' split) <;> rfl
@[simp] theorem ledgerWait_upl (s : State) (x : LXfer) : (ledgerWait s x).upl = s.upl := by unfold ledgerWait; (repeat' split) <;> rfl
@[simp] theorem ledgerWait_xc (s : State) (x : LXfer) : (ledgerWait s x).xc = s.xc := by unfold ledgerWait; (repeat' split) <;> rfl
@[simp] theorem ledgerWait_sec (s : State) (x : LXfer) : (ledgerWait s x).sec = s.sec := by unfold ledgerWait; (repeat' split) <;> rfl
@[simp] theorem ledgerWait_rad (s : State) (x : LXfer) : (ledgerWait s x).rad = s.rad := by unfold ledgerWait; (repeat' split) <;> rfl
@[simp] theorem ledgerWait_pwr (s : State) (x : LXfer) : (ledgerWait s x).pwr = s.pwr := by unfold ledgerWait; (repeat' split) <;> rfl
@[simp] theorem ledgerWait_fw (s : State) (x : LXfer) : (ledgerWait s x).fw = s.fw := by unfold ledgerWait; (repeat' split) <;> rfl
@[simp] theorem ledgerWait_glb (s : State) (x : LXfer) : (ledgerWait s x).glb = s.glb := by unfold ledgerWait; (repeat' split) <;> rfl
@[simp] theorem ledgerWait_evt (s : State) (x : LXfer) : (ledgerWait s x).evt = s.evt := by unfold ledgerWait; (repeat' split) <;> rfl
@[simp] theorem ledgerWait_mgt (s : State) (x : LXfer) : (ledgerWait s x).mgt = s.mgt := by unfold ledgerWait; (repeat' split) <;> rfl
@[simp] theorem ledgerWait_sent (s : State) (x : LXfer) : (ledgerWait s x).sent = s.sent := by unfold ledgerWait; (repeat' split) <;> rfl
@[simp] theorem ledgerWait_free (s : State) (x : LXfer) : (ledgerWait s x).free = s.free := by unfold ledgerWait; (repeat' split) <;> rfl
@[simp] theorem ledgerWrite_pending (s : State) (x : LXfer) (o : Nat) (b : List Byte) : (ledgerWrite s x o b).pending = s.pending := by unfold ledgerWrite; dsimp only; (repeat' split) <;> simp
@[simp] theorem ledgerWrite_part (s : State) (x : LXfer) (o : Nat) (b : List Byte) : (ledgerWrite s x o b).part = s.part := by unfold ledgerWrite; dsimp only; (repeat' split) <;> simp
@[simp] theorem ledgerWrite_datum (s : State) (x : LXfer) (o : Nat) (b : List Byte) : (ledgerWrite s x o b).datum = s.datum := by unfold ledgerWrite; dsimp only; (repeat' split) <;> simp
@[simp] theorem ledgerWrite_time (s : State) (x : LXfer) (o : Nat) (b : List Byte) : (ledgerWrite s x o b).time = s.time := by unfold ledgerWrite; dsimp only; (repeat' split) <;> simp
@[simp] theorem ledgerWrite_rings (s : State) (x : LXfer) (o : Nat) (b : List Byte) : (ledgerWrite s x o b).rings = s.rings := by unfold ledgerWrite; dsimp only; (repeat' split) <;> simp
@[simp] theorem ledgerWrite_journal (s : State) (x : LXfer) (o : Nat) (b : List Byte) : (ledgerWrite s x o b).journal = s.journal := by unfold ledgerWrite; dsimp only; (repeat' split) <;> simp
@[simp] theorem ledgerWrite_recov (s : State) (x : LXfer) (o : Nat) (b : List Byte) : (ledgerWrite s x o b).recov = s.recov := by unfold ledgerWrite; dsimp only; (repeat' split) <;> simp
@[simp] theorem ledgerWrite_chtabBase (s : State) (x : LXfer) (o : Nat) (b : List Byte) : (ledgerWrite s x o b).chtabBase = s.chtabBase := by unfold ledgerWrite; dsimp only; (repeat' split) <;> simp
@[simp] theorem ledgerWrite_chtabEn (s : State) (x : LXfer) (o : Nat) (b : List Byte) : (ledgerWrite s x o b).chtabEn = s.chtabEn := by unfold ledgerWrite; dsimp only; (repeat' split) <;> simp
@[simp] theorem ledgerWrite_chans (s : State) (x : LXfer) (o : Nat) (b : List Byte) : (ledgerWrite s x o b).chans = s.chans := by unfold ledgerWrite; dsimp only; (repeat' split) <;> simp
@[simp] theorem ledgerWrite_upl (s : State) (x : LXfer) (o : Nat) (b : List Byte) : (ledgerWrite s x o b).upl = s.upl := by unfold ledgerWrite; dsimp only; (repeat' split) <;> simp
@[simp] theorem ledgerWrite_xc (s : State) (x : LXfer) (o : Nat) (b : List Byte) : (ledgerWrite s x o b).xc = s.xc := by unfold ledgerWrite; dsimp only; (repeat' split) <;> simp
@[simp] theorem ledgerWrite_sec (s : State) (x : LXfer) (o : Nat) (b : List Byte) : (ledgerWrite s x o b).sec = s.sec := by unfold ledgerWrite; dsimp only; (repeat' split) <;> simp
@[simp] theorem ledgerWrite_rad (s : State) (x : LXfer) (o : Nat) (b : List Byte) : (ledgerWrite s x o b).rad = s.rad := by unfold ledgerWrite; dsimp only; (repeat' split) <;> simp
@[simp] theorem ledgerWrite_pwr (s : State) (x : LXfer) (o : Nat) (b : List Byte) : (ledgerWrite s x o b).pwr = s.pwr := by unfold ledgerWrite; dsimp only; (repeat' split) <;> simp
@[simp] theorem ledgerWrite_fw (s : State) (x : LXfer) (o : Nat) (b : List Byte) : (ledgerWrite s x o b).fw = s.fw := by unfold ledgerWrite; dsimp only; (repeat' split) <;> simp
@[simp] theorem ledgerWrite_glb (s : State) (x : LXfer) (o : Nat) (b : List Byte) : (ledgerWrite s x o b).glb = s.glb := by unfold ledgerWrite; dsimp only; (repeat' split) <;> simp
@[simp] theorem ledgerWrite_mgt (s : State) (x : LXfer) (o : Nat) (b : List Byte) : (ledgerWrite s x o b).mgt = s.mgt := by unfold ledgerWrite; dsimp only; (repeat' split) <;> simp
@[simp] theorem ledgerWrite_free (s : State) (x : LXfer) (o : Nat) (b : List Byte) : (ledgerWrite s x o b).free = s.free := by unfold ledgerWrite; dsimp only; (repeat' split) <;> simp
@[simp] theorem benchDue_pending (s : State) (r : Nat) : (benchDue s r).pending = s.pending := by unfold benchDue; simp
@[simp] theorem benchDue_part (s : State) (r : Nat) : (benchDue s r).part = s.part := by unfold benchDue; simp
@[simp] theorem benchDue_datum (s : State) (r : Nat) : (benchDue s r).datum = s.datum := by unfold benchDue; simp
@[simp] theorem benchDue_time (s : State) (r : Nat) : (benchDue s r).time = s.time := by unfold benchDue; simp
@[simp] theorem benchDue_hif (s : State) (r : Nat) : (benchDue s r).hif = s.hif := by unfold benchDue; simp
@[simp] theorem benchDue_journal (s : State) (r : Nat) : (benchDue s r).journal = s.journal := by unfold benchDue; simp
@[simp] theorem benchDue_ledger (s : State) (r : Nat) : (benchDue s r).ledger = s.ledger := by unfold benchDue; simp
@[simp] theorem benchDue_recov (s : State) (r : Nat) : (benchDue s r).recov = s.recov := by unfold benchDue; simp
@[simp] theorem benchDue_chtabBase (s : State) (r : Nat) : (benchDue s r).chtabBase = s.chtabBase := by unfold benchDue; simp
@[simp] theorem benchDue_chtabEn (s : State) (r : Nat) : (benchDue s r).chtabEn = s.chtabEn := by unfold benchDue; simp
@[simp] theorem benchDue_chans (s : State) (r : Nat) : (benchDue s r).chans = s.chans := by unfold benchDue; simp
@[simp] theorem benchDue_upl (s : State) (r : Nat) : (benchDue s r).upl = s.upl := by unfold benchDue; simp
@[simp] theorem benchDue_xc (s : State) (r : Nat) : (benchDue s r).xc = s.xc := by unfold benchDue; simp
@[simp] theorem benchDue_sec (s : State) (r : Nat) : (benchDue s r).sec = s.sec := by unfold benchDue; simp
@[simp] theorem benchDue_rad (s : State) (r : Nat) : (benchDue s r).rad = s.rad := by unfold benchDue; simp
@[simp] theorem benchDue_sup (s : State) (r : Nat) : (benchDue s r).sup = s.sup := by unfold benchDue; simp
@[simp] theorem benchDue_pwr (s : State) (r : Nat) : (benchDue s r).pwr = s.pwr := by unfold benchDue; simp
@[simp] theorem benchDue_fw (s : State) (r : Nat) : (benchDue s r).fw = s.fw := by unfold benchDue; simp
@[simp] theorem benchDue_glb (s : State) (r : Nat) : (benchDue s r).glb = s.glb := by unfold benchDue; simp
@[simp] theorem benchDue_evt (s : State) (r : Nat) : (benchDue s r).evt = s.evt := by unfold benchDue; simp
@[simp] theorem benchDue_mgt (s : State) (r : Nat) : (benchDue s r).mgt = s.mgt := by unfold benchDue; simp
@[simp] theorem benchDue_sent (s : State) (r : Nat) : (benchDue s r).sent = s.sent := by unfold benchDue; simp
@[simp] theorem benchDue_free (s : State) (r : Nat) : (benchDue s r).free = s.free := by unfold benchDue; simp
@[simp] theorem writeBench_pending (s : State) (r : RingNo) : (writeBench s r).pending = s.pending := by unfold writeBench; dsimp only; (repeat' split) <;> simp [benchDue]
@[simp] theorem writeBench_part (s : State) (r : RingNo) : (writeBench s r).part = s.part := by unfold writeBench; dsimp only; (repeat' split) <;> simp [benchDue]
@[simp] theorem writeBench_datum (s : State) (r : RingNo) : (writeBench s r).datum = s.datum := by unfold writeBench; dsimp only; (repeat' split) <;> simp [benchDue]
@[simp] theorem writeBench_time (s : State) (r : RingNo) : (writeBench s r).time = s.time := by unfold writeBench; dsimp only; (repeat' split) <;> simp [benchDue]
@[simp] theorem writeBench_journal (s : State) (r : RingNo) : (writeBench s r).journal = s.journal := by unfold writeBench; dsimp only; (repeat' split) <;> simp [benchDue]
@[simp] theorem writeBench_recov (s : State) (r : RingNo) : (writeBench s r).recov = s.recov := by unfold writeBench; dsimp only; (repeat' split) <;> simp [benchDue]
@[simp] theorem writeBench_chtabBase (s : State) (r : RingNo) : (writeBench s r).chtabBase = s.chtabBase := by unfold writeBench; dsimp only; (repeat' split) <;> simp [benchDue]
@[simp] theorem writeBench_chtabEn (s : State) (r : RingNo) : (writeBench s r).chtabEn = s.chtabEn := by unfold writeBench; dsimp only; (repeat' split) <;> simp [benchDue]
@[simp] theorem writeBench_chans (s : State) (r : RingNo) : (writeBench s r).chans = s.chans := by unfold writeBench; dsimp only; (repeat' split) <;> simp [benchDue]
@[simp] theorem writeBench_upl (s : State) (r : RingNo) : (writeBench s r).upl = s.upl := by unfold writeBench; dsimp only; (repeat' split) <;> simp [benchDue]
@[simp] theorem writeBench_xc (s : State) (r : RingNo) : (writeBench s r).xc = s.xc := by unfold writeBench; dsimp only; (repeat' split) <;> simp [benchDue]
@[simp] theorem writeBench_sec (s : State) (r : RingNo) : (writeBench s r).sec = s.sec := by unfold writeBench; dsimp only; (repeat' split) <;> simp [benchDue]
@[simp] theorem writeBench_rad (s : State) (r : RingNo) : (writeBench s r).rad = s.rad := by unfold writeBench; dsimp only; (repeat' split) <;> simp [benchDue]
@[simp] theorem writeBench_pwr (s : State) (r : RingNo) : (writeBench s r).pwr = s.pwr := by unfold writeBench; dsimp only; (repeat' split) <;> simp [benchDue]
@[simp] theorem writeBench_fw (s : State) (r : RingNo) : (writeBench s r).fw = s.fw := by unfold writeBench; dsimp only; (repeat' split) <;> simp [benchDue]
@[simp] theorem writeBench_glb (s : State) (r : RingNo) : (writeBench s r).glb = s.glb := by unfold writeBench; dsimp only; (repeat' split) <;> simp [benchDue]
@[simp] theorem writeBench_mgt (s : State) (r : RingNo) : (writeBench s r).mgt = s.mgt := by unfold writeBench; dsimp only; (repeat' split) <;> simp [benchDue]
@[simp] theorem writeBench_free (s : State) (r : RingNo) : (writeBench s r).free = s.free := by unfold writeBench; dsimp only; (repeat' split) <;> simp [benchDue]
@[simp] theorem writeBenches_pending (s : State) (l : List RingNo) : (writeBenches s l).pending = s.pending := foldl_keeps (State.pending) _ (fun _ _ => by simp) _ _
@[simp] theorem writeBenches_part (s : State) (l : List RingNo) : (writeBenches s l).part = s.part := foldl_keeps (State.part) _ (fun _ _ => by simp) _ _
@[simp] theorem writeBenches_datum (s : State) (l : List RingNo) : (writeBenches s l).datum = s.datum := foldl_keeps (State.datum) _ (fun _ _ => by simp) _ _
@[simp] theorem writeBenches_time (s : State) (l : List RingNo) : (writeBenches s l).time = s.time := foldl_keeps (State.time) _ (fun _ _ => by simp) _ _
@[simp] theorem writeBenches_journal (s : State) (l : List RingNo) : (writeBenches s l).journal = s.journal := foldl_keeps (State.journal) _ (fun _ _ => by simp) _ _
@[simp] theorem writeBenches_recov (s : State) (l : List RingNo) : (writeBenches s l).recov = s.recov := foldl_keeps (State.recov) _ (fun _ _ => by simp) _ _
@[simp] theorem writeBenches_chtabBase (s : State) (l : List RingNo) : (writeBenches s l).chtabBase = s.chtabBase := foldl_keeps (State.chtabBase) _ (fun _ _ => by simp) _ _
@[simp] theorem writeBenches_chtabEn (s : State) (l : List RingNo) : (writeBenches s l).chtabEn = s.chtabEn := foldl_keeps (State.chtabEn) _ (fun _ _ => by simp) _ _
@[simp] theorem writeBenches_chans (s : State) (l : List RingNo) : (writeBenches s l).chans = s.chans := foldl_keeps (State.chans) _ (fun _ _ => by simp) _ _
@[simp] theorem writeBenches_upl (s : State) (l : List RingNo) : (writeBenches s l).upl = s.upl := foldl_keeps (State.upl) _ (fun _ _ => by simp) _ _
@[simp] theorem writeBenches_xc (s : State) (l : List RingNo) : (writeBenches s l).xc = s.xc := foldl_keeps (State.xc) _ (fun _ _ => by simp) _ _
@[simp] theorem writeBenches_sec (s : State) (l : List RingNo) : (writeBenches s l).sec = s.sec := foldl_keeps (State.sec) _ (fun _ _ => by simp) _ _
@[simp] theorem writeBenches_rad (s : State) (l : List RingNo) : (writeBenches s l).rad = s.rad := foldl_keeps (State.rad) _ (fun _ _ => by simp) _ _
@[simp] theorem writeBenches_pwr (s : State) (l : List RingNo) : (writeBenches s l).pwr = s.pwr := foldl_keeps (State.pwr) _ (fun _ _ => by simp) _ _
@[simp] theorem writeBenches_fw (s : State) (l : List RingNo) : (writeBenches s l).fw = s.fw := foldl_keeps (State.fw) _ (fun _ _ => by simp) _ _
@[simp] theorem writeBenches_glb (s : State) (l : List RingNo) : (writeBenches s l).glb = s.glb := foldl_keeps (State.glb) _ (fun _ _ => by simp) _ _
@[simp] theorem writeBenches_mgt (s : State) (l : List RingNo) : (writeBenches s l).mgt = s.mgt := foldl_keeps (State.mgt) _ (fun _ _ => by simp) _ _
@[simp] theorem writeBenches_free (s : State) (l : List RingNo) : (writeBenches s l).free = s.free := foldl_keeps (State.free) _ (fun _ _ => by simp) _ _
@[simp] theorem writeHdr_pending (s : State) (b : Bool) : (writeHdr s b).pending = s.pending := by unfold writeHdr; dsimp only; (repeat' split) <;> simp
@[simp] theorem writeHdr_part (s : State) (b : Bool) : (writeHdr s b).part = s.part := by unfold writeHdr; dsimp only; (repeat' split) <;> simp
@[simp] theorem writeHdr_datum (s : State) (b : Bool) : (writeHdr s b).datum = s.datum := by unfold writeHdr; dsimp only; (repeat' split) <;> simp
@[simp] theorem writeHdr_time (s : State) (b : Bool) : (writeHdr s b).time = s.time := by unfold writeHdr; dsimp only; (repeat' split) <;> simp
@[simp] theorem writeHdr_rings (s : State) (b : Bool) : (writeHdr s b).rings = s.rings := by unfold writeHdr; dsimp only; (repeat' split) <;> simp
@[simp] theorem writeHdr_journal (s : State) (b : Bool) : (writeHdr s b).journal = s.journal := by unfold writeHdr; dsimp only; (repeat' split) <;> simp
@[simp] theorem writeHdr_recov (s : State) (b : Bool) : (writeHdr s b).recov = s.recov := by unfold writeHdr; dsimp only; (repeat' split) <;> simp
@[simp] theorem writeHdr_chtabBase (s : State) (b : Bool) : (writeHdr s b).chtabBase = s.chtabBase := by unfold writeHdr; dsimp only; (repeat' split) <;> simp
@[simp] theorem writeHdr_chtabEn (s : State) (b : Bool) : (writeHdr s b).chtabEn = s.chtabEn := by unfold writeHdr; dsimp only; (repeat' split) <;> simp
@[simp] theorem writeHdr_chans (s : State) (b : Bool) : (writeHdr s b).chans = s.chans := by unfold writeHdr; dsimp only; (repeat' split) <;> simp
@[simp] theorem writeHdr_upl (s : State) (b : Bool) : (writeHdr s b).upl = s.upl := by unfold writeHdr; dsimp only; (repeat' split) <;> simp
@[simp] theorem writeHdr_xc (s : State) (b : Bool) : (writeHdr s b).xc = s.xc := by unfold writeHdr; dsimp only; (repeat' split) <;> simp
@[simp] theorem writeHdr_sec (s : State) (b : Bool) : (writeHdr s b).sec = s.sec := by unfold writeHdr; dsimp only; (repeat' split) <;> simp
@[simp] theorem writeHdr_rad (s : State) (b : Bool) : (writeHdr s b).rad = s.rad := by unfold writeHdr; dsimp only; (repeat' split) <;> simp
@[simp] theorem writeHdr_pwr (s : State) (b : Bool) : (writeHdr s b).pwr = s.pwr := by unfold writeHdr; dsimp only; (repeat' split) <;> simp
@[simp] theorem writeHdr_fw (s : State) (b : Bool) : (writeHdr s b).fw = s.fw := by unfold writeHdr; dsimp only; (repeat' split) <;> simp
@[simp] theorem writeHdr_glb (s : State) (b : Bool) : (writeHdr s b).glb = s.glb := by unfold writeHdr; dsimp only; (repeat' split) <;> simp
@[simp] theorem writeHdr_mgt (s : State) (b : Bool) : (writeHdr s b).mgt = s.mgt := by unfold writeHdr; dsimp only; (repeat' split) <;> simp
@[simp] theorem writeHdr_free (s : State) (b : Bool) : (writeHdr s b).free = s.free := by unfold writeHdr; dsimp only; (repeat' split) <;> simp
@[simp] theorem writeHeaders_pending (s : State)  : (writeHeaders s).pending = s.pending := by unfold writeHeaders; (repeat' split) <;> simp
@[simp] theorem writeHeaders_part (s : State)  : (writeHeaders s).part = s.part := by unfold writeHeaders; (repeat' split) <;> simp
@[simp] theorem writeHeaders_datum (s : State)  : (writeHeaders s).datum = s.datum := by unfold writeHeaders; (repeat' split) <;> simp
@[simp] theorem writeHeaders_time (s : State)  : (writeHeaders s).time = s.time := by unfold writeHeaders; (repeat' split) <;> simp
@[simp] theorem writeHeaders_rings (s : State)  : (writeHeaders s).rings = s.rings := by unfold writeHeaders; (repeat' split) <;> simp
@[simp] theorem writeHeaders_journal (s : State)  : (writeHeaders s).journal = s.journal := by unfold writeHeaders; (repeat' split) <;> simp
@[simp] theorem writeHeaders_recov (s : State)  : (writeHeaders s).recov = s.recov := by unfold writeHeaders; (repeat' split) <;> simp
@[simp] theorem writeHeaders_chtabBase (s : State)  : (writeHeaders s).chtabBase = s.chtabBase := by unfold writeHeaders; (repeat' split) <;> simp
@[simp] theorem writeHeaders_chtabEn (s : State)  : (writeHeaders s).chtabEn = s.chtabEn := by unfold writeHeaders; (repeat' split) <;> simp
@[simp] theorem writeHeaders_chans (s : State)  : (writeHeaders s).chans = s.chans := by unfold writeHeaders; (repeat' split) <;> simp
@[simp] theorem writeHeaders_upl (s : State)  : (writeHeaders s).upl = s.upl := by unfold writeHeaders; (repeat' split) <;> simp
@[simp] theorem writeHeaders_xc (s : State)  : (writeHeaders s).xc = s.xc := by unfold writeHeaders; (repeat' split) <;> simp
@[simp] theorem writeHeaders_sec (s : State)  : (writeHeaders s).sec = s.sec := by unfold writeHeaders; (repeat' split) <;> simp
@[simp] theorem writeHeaders_rad (s : State)  : (writeHeaders s).rad = s.rad := by unfold writeHeaders; (repeat' split) <;> simp
@[simp] theorem writeHeaders_pwr (s : State)  : (writeHeaders s).pwr = s.pwr := by unfold writeHeaders; (repeat' split) <;> simp
@[simp] theorem writeHeaders_fw (s : State)  : (writeHeaders s).fw = s.fw := by unfold writeHeaders; (repeat' split) <;> simp
@[simp] theorem writeHeaders_glb (s : State)  : (writeHeaders s).glb = s.glb := by unfold writeHeaders; (repeat' split) <;> simp
@[simp] theorem writeHeaders_mgt (s : State)  : (writeHeaders s).mgt = s.mgt := by unfold writeHeaders; (repeat' split) <;> simp
@[simp] theorem writeHeaders_free (s : State)  : (writeHeaders s).free = s.free := by unfold writeHeaders; (repeat' split) <;> simp
@[simp] theorem startRecovery_pending (s : State) (sc : List RingNo) (k c : Nat) (y : Bool) (cm : List (RingNo × Word)) (rf : List Nat) : (startRecovery s sc k c y cm rf).pending = s.pending := by unfold startRecovery; simp
@[simp] theorem startRecovery_part (s : State) (sc : List RingNo) (k c : Nat) (y : Bool) (cm : List (RingNo × Word)) (rf : List Nat) : (startRecovery s sc k c y cm rf).part = s.part := by unfold startRecovery; simp
@[simp] theorem startRecovery_datum (s : State) (sc : List RingNo) (k c : Nat) (y : Bool) (cm : List (RingNo × Word)) (rf : List Nat) : (startRecovery s sc k c y cm rf).datum = s.datum := by unfold startRecovery; simp
@[simp] theorem startRecovery_time (s : State) (sc : List RingNo) (k c : Nat) (y : Bool) (cm : List (RingNo × Word)) (rf : List Nat) : (startRecovery s sc k c y cm rf).time = s.time := by unfold startRecovery; simp
@[simp] theorem startRecovery_hif (s : State) (sc : List RingNo) (k c : Nat) (y : Bool) (cm : List (RingNo × Word)) (rf : List Nat) : (startRecovery s sc k c y cm rf).hif = s.hif := by unfold startRecovery; simp
@[simp] theorem startRecovery_journal (s : State) (sc : List RingNo) (k c : Nat) (y : Bool) (cm : List (RingNo × Word)) (rf : List Nat) : (startRecovery s sc k c y cm rf).journal = s.journal := by unfold startRecovery; simp
@[simp] theorem startRecovery_ledger (s : State) (sc : List RingNo) (k c : Nat) (y : Bool) (cm : List (RingNo × Word)) (rf : List Nat) : (startRecovery s sc k c y cm rf).ledger = s.ledger := by unfold startRecovery; simp
@[simp] theorem startRecovery_chtabBase (s : State) (sc : List RingNo) (k c : Nat) (y : Bool) (cm : List (RingNo × Word)) (rf : List Nat) : (startRecovery s sc k c y cm rf).chtabBase = s.chtabBase := by unfold startRecovery; simp
@[simp] theorem startRecovery_chtabEn (s : State) (sc : List RingNo) (k c : Nat) (y : Bool) (cm : List (RingNo × Word)) (rf : List Nat) : (startRecovery s sc k c y cm rf).chtabEn = s.chtabEn := by unfold startRecovery; simp
@[simp] theorem startRecovery_chans (s : State) (sc : List RingNo) (k c : Nat) (y : Bool) (cm : List (RingNo × Word)) (rf : List Nat) : (startRecovery s sc k c y cm rf).chans = s.chans := by unfold startRecovery; simp
@[simp] theorem startRecovery_upl (s : State) (sc : List RingNo) (k c : Nat) (y : Bool) (cm : List (RingNo × Word)) (rf : List Nat) : (startRecovery s sc k c y cm rf).upl = s.upl := by unfold startRecovery; simp
@[simp] theorem startRecovery_xc (s : State) (sc : List RingNo) (k c : Nat) (y : Bool) (cm : List (RingNo × Word)) (rf : List Nat) : (startRecovery s sc k c y cm rf).xc = s.xc := by unfold startRecovery; simp
@[simp] theorem startRecovery_sec (s : State) (sc : List RingNo) (k c : Nat) (y : Bool) (cm : List (RingNo × Word)) (rf : List Nat) : (startRecovery s sc k c y cm rf).sec = s.sec := by unfold startRecovery; simp
@[simp] theorem startRecovery_rad (s : State) (sc : List RingNo) (k c : Nat) (y : Bool) (cm : List (RingNo × Word)) (rf : List Nat) : (startRecovery s sc k c y cm rf).rad = s.rad := by unfold startRecovery; simp
@[simp] theorem startRecovery_sup (s : State) (sc : List RingNo) (k c : Nat) (y : Bool) (cm : List (RingNo × Word)) (rf : List Nat) : (startRecovery s sc k c y cm rf).sup = s.sup := by unfold startRecovery; simp
@[simp] theorem startRecovery_pwr (s : State) (sc : List RingNo) (k c : Nat) (y : Bool) (cm : List (RingNo × Word)) (rf : List Nat) : (startRecovery s sc k c y cm rf).pwr = s.pwr := by unfold startRecovery; simp
@[simp] theorem startRecovery_fw (s : State) (sc : List RingNo) (k c : Nat) (y : Bool) (cm : List (RingNo × Word)) (rf : List Nat) : (startRecovery s sc k c y cm rf).fw = s.fw := by unfold startRecovery; simp
@[simp] theorem startRecovery_glb (s : State) (sc : List RingNo) (k c : Nat) (y : Bool) (cm : List (RingNo × Word)) (rf : List Nat) : (startRecovery s sc k c y cm rf).glb = s.glb := by unfold startRecovery; simp
@[simp] theorem startRecovery_evt (s : State) (sc : List RingNo) (k c : Nat) (y : Bool) (cm : List (RingNo × Word)) (rf : List Nat) : (startRecovery s sc k c y cm rf).evt = s.evt := by unfold startRecovery; simp
@[simp] theorem startRecovery_mgt (s : State) (sc : List RingNo) (k c : Nat) (y : Bool) (cm : List (RingNo × Word)) (rf : List Nat) : (startRecovery s sc k c y cm rf).mgt = s.mgt := by unfold startRecovery; simp
@[simp] theorem startRecovery_sent (s : State) (sc : List RingNo) (k c : Nat) (y : Bool) (cm : List (RingNo × Word)) (rf : List Nat) : (startRecovery s sc k c y cm rf).sent = s.sent := by unfold startRecovery; simp
@[simp] theorem startRecovery_free (s : State) (sc : List RingNo) (k c : Nat) (y : Bool) (cm : List (RingNo × Word)) (rf : List Nat) : (startRecovery s sc k c y cm rf).free = s.free := by unfold startRecovery; simp
@[simp] theorem unissue_pending (s : State) (sc : List RingNo) : (unissue s sc).pending = s.pending := by unfold unissue; dsimp only; (repeat' split) <;> simp
@[simp] theorem unissue_part (s : State) (sc : List RingNo) : (unissue s sc).part = s.part := by unfold unissue; dsimp only; (repeat' split) <;> simp
@[simp] theorem unissue_datum (s : State) (sc : List RingNo) : (unissue s sc).datum = s.datum := by unfold unissue; dsimp only; (repeat' split) <;> simp
@[simp] theorem unissue_time (s : State) (sc : List RingNo) : (unissue s sc).time = s.time := by unfold unissue; dsimp only; (repeat' split) <;> simp
@[simp] theorem unissue_hif (s : State) (sc : List RingNo) : (unissue s sc).hif = s.hif := by unfold unissue; dsimp only; (repeat' split) <;> simp
@[simp] theorem unissue_journal (s : State) (sc : List RingNo) : (unissue s sc).journal = s.journal := by unfold unissue; dsimp only; (repeat' split) <;> simp
@[simp] theorem unissue_ledger (s : State) (sc : List RingNo) : (unissue s sc).ledger = s.ledger := by unfold unissue; dsimp only; (repeat' split) <;> simp
@[simp] theorem unissue_recov (s : State) (sc : List RingNo) : (unissue s sc).recov = s.recov := by unfold unissue; dsimp only; (repeat' split) <;> simp
@[simp] theorem unissue_chtabBase (s : State) (sc : List RingNo) : (unissue s sc).chtabBase = s.chtabBase := by unfold unissue; dsimp only; (repeat' split) <;> simp
@[simp] theorem unissue_chtabEn (s : State) (sc : List RingNo) : (unissue s sc).chtabEn = s.chtabEn := by unfold unissue; dsimp only; (repeat' split) <;> simp
@[simp] theorem unissue_chans (s : State) (sc : List RingNo) : (unissue s sc).chans = s.chans := by unfold unissue; dsimp only; (repeat' split) <;> simp
@[simp] theorem unissue_upl (s : State) (sc : List RingNo) : (unissue s sc).upl = s.upl := by unfold unissue; dsimp only; (repeat' split) <;> simp
@[simp] theorem unissue_xc (s : State) (sc : List RingNo) : (unissue s sc).xc = s.xc := by unfold unissue; dsimp only; (repeat' split) <;> simp
@[simp] theorem unissue_sec (s : State) (sc : List RingNo) : (unissue s sc).sec = s.sec := by unfold unissue; dsimp only; (repeat' split) <;> simp
@[simp] theorem unissue_rad (s : State) (sc : List RingNo) : (unissue s sc).rad = s.rad := by unfold unissue; dsimp only; (repeat' split) <;> simp
@[simp] theorem unissue_sup (s : State) (sc : List RingNo) : (unissue s sc).sup = s.sup := by unfold unissue; dsimp only; (repeat' split) <;> simp
@[simp] theorem unissue_pwr (s : State) (sc : List RingNo) : (unissue s sc).pwr = s.pwr := by unfold unissue; dsimp only; (repeat' split) <;> simp
@[simp] theorem unissue_fw (s : State) (sc : List RingNo) : (unissue s sc).fw = s.fw := by unfold unissue; dsimp only; (repeat' split) <;> simp
@[simp] theorem unissue_glb (s : State) (sc : List RingNo) : (unissue s sc).glb = s.glb := by unfold unissue; dsimp only; (repeat' split) <;> simp
@[simp] theorem unissue_mgt (s : State) (sc : List RingNo) : (unissue s sc).mgt = s.mgt := by unfold unissue; dsimp only; (repeat' split) <;> simp
@[simp] theorem unissue_sent (s : State) (sc : List RingNo) : (unissue s sc).sent = s.sent := by unfold unissue; dsimp only; (repeat' split) <;> simp
@[simp] theorem unissue_free (s : State) (sc : List RingNo) : (unissue s sc).free = s.free := by unfold unissue; dsimp only; (repeat' split) <;> simp

@[simp] theorem ringAt_setPwr (s : State) (st : PwrSt) (i : Nat) : ringAt (setPwr s st) i = ringAt s i := by simp only [ringAt, setPwr_rings]
@[simp] theorem chanAt_setPwr (s : State) (st : PwrSt) (i : Nat) : chanAt (setPwr s st) i = chanAt s i := by simp only [chanAt, setPwr_chans]
@[simp] theorem slotAt_setPwr (s : State) (st : PwrSt) (i : Nat) : slotAt (setPwr s st) i = slotAt s i := by simp only [slotAt, setPwr_sec]
@[simp] theorem ringAt_leaveSleep (s : State) (i : Nat) : ringAt (leaveSleep s) i = ringAt s i := by simp only [ringAt, leaveSleep_rings]
@[simp] theorem chanAt_leaveSleep (s : State) (i : Nat) : chanAt (leaveSleep s) i = chanAt s i := by simp only [chanAt, leaveSleep_chans]
@[simp] theorem slotAt_leaveSleep (s : State) (i : Nat) : slotAt (leaveSleep s) i = slotAt s i := by simp only [slotAt, leaveSleep_sec]
@[simp] theorem ringAt_ponWake (s : State) (i : Nat) : ringAt (ponWake s) i = ringAt s i := by simp only [ringAt, ponWake_rings]
@[simp] theorem chanAt_ponWake (s : State) (i : Nat) : chanAt (ponWake s) i = chanAt s i := by simp only [chanAt, ponWake_chans]
@[simp] theorem slotAt_ponWake (s : State) (i : Nat) : slotAt (ponWake s) i = slotAt s i := by simp only [slotAt, ponWake_sec]
@[simp] theorem ringAt_latchFault (s : State) (k r f a : Nat) (i : Nat) : ringAt (latchFault s k r f a) i = ringAt s i := by simp only [ringAt, latchFault_rings]
@[simp] theorem chanAt_latchFault (s : State) (k r f a : Nat) (i : Nat) : chanAt (latchFault s k r f a) i = chanAt s i := by simp only [chanAt, latchFault_chans]
@[simp] theorem slotAt_latchFault (s : State) (k r f a : Nat) (i : Nat) : slotAt (latchFault s k r f a) i = slotAt s i := by simp only [slotAt, latchFault_sec]
@[simp] theorem chanAt_ringWindowFault (s : State) (r a : Nat) (i : Nat) : chanAt (ringWindowFault s r a) i = chanAt s i := by simp only [chanAt, ringWindowFault_chans]
@[simp] theorem slotAt_ringWindowFault (s : State) (r a : Nat) (i : Nat) : slotAt (ringWindowFault s r a) i = slotAt s i := by simp only [slotAt, ringWindowFault_sec]
@[simp] theorem chanAt_returnWith (s : State) (r : Nat) (q : Word) (o : Outcome) (i : Nat) : chanAt (returnWith s r q o) i = chanAt s i := by simp only [chanAt, returnWith_chans]
@[simp] theorem slotAt_returnWith (s : State) (r : Nat) (q : Word) (o : Outcome) (i : Nat) : slotAt (returnWith s r q o) i = slotAt s i := by simp only [slotAt, returnWith_sec]
@[simp] theorem chanAt_returnWork (s : State) (r : Nat) (q : Word) (st : Status) (i : Nat) : chanAt (returnWork s r q st) i = chanAt s i := by simp only [chanAt, returnWork_chans]
@[simp] theorem slotAt_returnWork (s : State) (r : Nat) (q : Word) (st : Status) (i : Nat) : slotAt (returnWork s r q st) i = slotAt s i := by simp only [slotAt, returnWork_sec]
@[simp] theorem chanAt_returnExpired (s : State) (r : Nat) (q : Word) (i : Nat) : chanAt (returnExpired s r q) i = chanAt s i := by simp only [chanAt, returnExpired_chans]
@[simp] theorem slotAt_returnExpired (s : State) (r : Nat) (q : Word) (i : Nat) : slotAt (returnExpired s r q) i = slotAt s i := by simp only [slotAt, returnExpired_sec]
@[simp] theorem chanAt_emitWork (s : State) (r : RingNo) (q : Word) (o : Outcome) (i : Nat) : chanAt (emitWork s r q o) i = chanAt s i := by simp only [chanAt, emitWork_chans]
@[simp] theorem slotAt_emitWork (s : State) (r : RingNo) (q : Word) (o : Outcome) (i : Nat) : slotAt (emitWork s r q o) i = slotAt s i := by simp only [slotAt, emitWork_sec]
@[simp] theorem chanAt_beginEmission (s : State) (r : RingNo) (q : Word) (o : Outcome) (i : Nat) : chanAt (beginEmission s r q o) i = chanAt s i := by simp only [chanAt, beginEmission_chans]
@[simp] theorem slotAt_beginEmission (s : State) (r : RingNo) (q : Word) (o : Outcome) (i : Nat) : slotAt (beginEmission s r q o) i = slotAt s i := by simp only [slotAt, beginEmission_sec]
@[simp] theorem chanAt_endEmission (s : State) (r : Nat) (q : Word) (f : Outcome → Outcome) (i : Nat) : chanAt (endEmission s r q f) i = chanAt s i := by simp only [chanAt, endEmission_chans]
@[simp] theorem slotAt_endEmission (s : State) (r : Nat) (q : Word) (f : Outcome → Outcome) (i : Nat) : slotAt (endEmission s r q f) i = slotAt s i := by simp only [slotAt, endEmission_sec]
@[simp] theorem chanAt_cutEmissions (s : State) (r : Nat) (i : Nat) : chanAt (cutEmissions s r) i = chanAt s i := by simp only [chanAt, cutEmissions_chans]
@[simp] theorem slotAt_cutEmissions (s : State) (r : Nat) (i : Nat) : slotAt (cutEmissions s r) i = slotAt s i := by simp only [slotAt, cutEmissions_sec]
@[simp] theorem chanAt_stall (s : State) (q : Nat) (i : Nat) : chanAt (stall s q) i = chanAt s i := by simp only [chanAt, stall_chans]
@[simp] theorem slotAt_stall (s : State) (q : Nat) (i : Nat) : slotAt (stall s q) i = slotAt s i := by simp only [slotAt, stall_sec]
@[simp] theorem chanAt_countRecord (s : State) (q : Nat) (irq : Bool) (i : Nat) : chanAt (countRecord s q irq) i = chanAt s i := by simp only [chanAt, countRecord_chans]
@[simp] theorem slotAt_countRecord (s : State) (q : Nat) (irq : Bool) (i : Nat) : slotAt (countRecord s q irq) i = slotAt s i := by simp only [slotAt, countRecord_sec]
@[simp] theorem chanAt_issueRecord (s : State) (q a : Nat) (x : Issued) (i : Nat) : chanAt (issueRecord s q a x) i = chanAt s i := by simp only [chanAt, issueRecord_chans]
@[simp] theorem slotAt_issueRecord (s : State) (q a : Nat) (x : Issued) (i : Nat) : slotAt (issueRecord s q a x) i = slotAt s i := by simp only [slotAt, issueRecord_sec]
@[simp] theorem ringAt_ledgerFault (s : State) (x : LXfer) (rd : Bool) (i : Nat) : ringAt (ledgerFault s x rd) i = ringAt s i := by simp only [ringAt, ledgerFault_rings]
@[simp] theorem chanAt_ledgerFault (s : State) (x : LXfer) (rd : Bool) (i : Nat) : chanAt (ledgerFault s x rd) i = chanAt s i := by simp only [chanAt, ledgerFault_chans]
@[simp] theorem slotAt_ledgerFault (s : State) (x : LXfer) (rd : Bool) (i : Nat) : slotAt (ledgerFault s x rd) i = slotAt s i := by simp only [slotAt, ledgerFault_sec]
@[simp] theorem ringAt_ledgerWrite (s : State) (x : LXfer) (o : Nat) (b : List Byte) (i : Nat) : ringAt (ledgerWrite s x o b) i = ringAt s i := by simp only [ringAt, ledgerWrite_rings]
@[simp] theorem chanAt_ledgerWrite (s : State) (x : LXfer) (o : Nat) (b : List Byte) (i : Nat) : chanAt (ledgerWrite s x o b) i = chanAt s i := by simp only [chanAt, ledgerWrite_chans]
@[simp] theorem slotAt_ledgerWrite (s : State) (x : LXfer) (o : Nat) (b : List Byte) (i : Nat) : slotAt (ledgerWrite s x o b) i = slotAt s i := by simp only [slotAt, ledgerWrite_sec]
@[simp] theorem chanAt_benchDue (s : State) (r : Nat) (i : Nat) : chanAt (benchDue s r) i = chanAt s i := by simp only [chanAt, benchDue_chans]
@[simp] theorem slotAt_benchDue (s : State) (r : Nat) (i : Nat) : slotAt (benchDue s r) i = slotAt s i := by simp only [slotAt, benchDue_sec]
@[simp] theorem chanAt_writeBench (s : State) (r : RingNo) (i : Nat) : chanAt (writeBench s r) i = chanAt s i := by simp only [chanAt, writeBench_chans]
@[simp] theorem slotAt_writeBench (s : State) (r : RingNo) (i : Nat) : slotAt (writeBench s r) i = slotAt s i := by simp only [slotAt, writeBench_sec]
@[simp] theorem chanAt_writeBenches (s : State) (l : List RingNo) (i : Nat) : chanAt (writeBenches s l) i = chanAt s i := by simp only [chanAt, writeBenches_chans]
@[simp] theorem slotAt_writeBenches (s : State) (l : List RingNo) (i : Nat) : slotAt (writeBenches s l) i = slotAt s i := by simp only [slotAt, writeBenches_sec]
@[simp] theorem ringAt_writeHeaders (s : State) (i : Nat) : ringAt (writeHeaders s) i = ringAt s i := by simp only [ringAt, writeHeaders_rings]
@[simp] theorem chanAt_writeHeaders (s : State) (i : Nat) : chanAt (writeHeaders s) i = chanAt s i := by simp only [chanAt, writeHeaders_chans]
@[simp] theorem slotAt_writeHeaders (s : State) (i : Nat) : slotAt (writeHeaders s) i = slotAt s i := by simp only [slotAt, writeHeaders_sec]
@[simp] theorem chanAt_startRecovery (s : State) (sc : List RingNo) (k c : Nat) (y : Bool) (cm : List (RingNo × Word)) (rf : List Nat) (i : Nat) : chanAt (startRecovery s sc k c y cm rf) i = chanAt s i := by simp only [chanAt, startRecovery_chans]
@[simp] theorem slotAt_startRecovery (s : State) (sc : List RingNo) (k c : Nat) (y : Bool) (cm : List (RingNo × Word)) (rf : List Nat) (i : Nat) : slotAt (startRecovery s sc k c y cm rf) i = slotAt s i := by simp only [slotAt, startRecovery_sec]
@[simp] theorem chanAt_unissue (s : State) (sc : List RingNo) (i : Nat) : chanAt (unissue s sc) i = chanAt s i := by simp only [chanAt, unissue_chans]
@[simp] theorem slotAt_unissue (s : State) (sc : List RingNo) (i : Nat) : slotAt (unissue s sc) i = slotAt s i := by simp only [slotAt, unissue_sec]

end Sys2Proof.Machine
end

