-- ==== Sys2Proof/Tests/Slice0.lean ====
section
/-! SUPPORT. Tests: ill-formed commands are refused, each statement's hypotheses are met by a state and operands, and a few results taken from the manual. -/

namespace Sys2Proof.Tests

open Sys2Proof Sys2Proof.Machine

set_option Elab.async false

/-! ### States the witnesses stand on -/

/-- A function with its enables set. -/
def openFn (k : Nat) : Func := { Func.reset k with bme := true, mse := true }

/-- A window over the lowest 4 GiB, both directions. -/
def openWin : Window := { base := 0, limit := 0xFFFFF, write := true, read := true, enable := true }

/-- A running terminal: domains on, the link up, the PF and VF 8 enabled with an open window, an active ledger, firmware running. -/
def up : State :=
  { State.reset with
    pwr := { State.reset.pwr with domCore := true, domUpl := true, domChla := true, domChlb := true, domRad := true, domFeed := true, xtal := true, cold := false }
    hif := { State.reset.hif with
      linkUp := true
      funcs := vset (vset State.reset.hif.funcs 0 (openFn 64)) 8 (openFn 4)
      windows := vset (vset State.reset.hif.windows 0 (vset (Vector.replicate 8 Window.reset) 0 openWin)) 8
        (vset (Vector.replicate 8 Window.reset) 0 openWin)
      crs := false
      perst := false }
    ledger := { State.reset.ledger with enable := true, active := true }
    fw := { State.reset.fw with cp0 := .running, cp1 := .running } }

/-- A descriptor. -/
def desc (seq : Word) (op : Half) (addr : DWord) (len p0 p1 : Word) : Desc :=
  { seq := seq, opcode := op, flags := 0, addr := addr, len := len, p0 := p0, p1 := p1, cookie := 0 }

/-- A descriptor's 32 bytes, written out from Table 02.5. -/
def descBytes (d : Desc) : List Byte :=
  bytesLE 4 d.seq.toNat ++ bytesLE 2 d.opcode.toNat ++ bytesLE 2 d.flags.toNat ++ bytesLE 8 d.addr.toNat ++ bytesLE 4 d.len.toNat
    ++ bytesLE 4 d.p0.toNat ++ bytesLE 4 d.p1.toNat ++ bytesLE 4 d.cookie.toNat

/-- Accepted work. -/
def work (d : Desc) (st : Stage) : Work :=
  { seq := d.seq, d := d, at_ := 0, stage := st, ret := none, recov := false, refetch := false, issued := false, reserve := false }

/-- An enabled, active ring of 64 slots with some work. -/
def liveRing (r : Nat) (ws : List Work) : Ring :=
  { Ring.reset r with enable := true, state := .active, work := ws, acc := 0xFFFFFFFF + word ws.length, tail := word ws.length }

/-- A state with ring r live. -/
def withRing (s : State) (r : Nat) (ws : List Work) : State := setRing s r (fun _ => liveRing r ws)

/-- Channel c in SERVICE. -/
def inService (s : State) (c : Nat) : State :=
  setChan s c (fun k => { k with tab := { k.tab with state := .service, island := true } })

/-- The command completes. -/
def completes (o : Host.Outcome State Fault Refusal) : Bool := match o with | .next _ => true | _ => false

/-- What the next state satisfies. -/
def after (o : Host.Outcome State Fault Refusal) (p : State → Bool) : Bool := match o with | .next t => p t | _ => false

/-! ### The queue, doorbells, fetching and rings -/

theorem witness_EmptyQueueCountsDatum :
    up.pending = [] ∧ up.pwr.state ≠ .off ∧ up.pwr.state ≠ .deep ∧ { up.time with pllLock := true }.pllLock = true := by decide +kernel

/-- Ring 22 (TXE of channel 1), live with two posted descriptors, and its completion ring. -/
def txe1 : State := setRing (withRing (withRing up 1 []) 24 []) 22 (fun _ => { liveRing 22 [] with tail := 2 })

theorem witness_DoorbellCheckedAndTaken_taken :
    isFw .pf = false ∧ barServes txe1 .pf = true ∧ txe1.pwr.state ≠ .entering ∧ txe1.pwr.testEn = false ∧ doorbellRing .pf 0x2000 = some 22 ∧
      ringOnPart txe1 22 = true ∧ ownsRing txe1 .pf 22 = true ∧ (ringAt txe1 22).enable = true ∧ hostWritten 22 = true ∧
      ((64 : Word) - ((ringAt txe1 22).cpl + 1)).toNat ≤ (ringAt txe1 22).size ∧ precedes 64 (ringAt txe1 22).tail = false ∧
      (64 : Word) ≠ (ringAt txe1 22).tail := by decide +kernel

theorem witness_DoorbellCheckedAndTaken_head :
    ringOnPart txe1 1 = true ∧ ownsRing txe1 .pf 1 = true ∧ hostWritten 1 = false ∧
      ((ringAt txe1 1).cpl + 1 - (0 : Word)).toNat ≤ (ringAt txe1 1).size ∧ precedes 0 (ringAt txe1 1).head = false ∧
      (0 : Word) = (ringAt txe1 1).head := by decide +kernel

theorem witness_DoorbellCheckedAndTaken_refused :
    (ringAt txe1 22).size < ((65 : Word) - ((ringAt txe1 22).cpl + 1)).toNat ∧ ownsRing txe1 (.vf 1) 22 = false ∧
      doorbellRing (.vf 1) 0 = some 22 ∧ (ringAt txe1 28).enable = false := by decide +kernel

theorem test_doorbell_moves_tail :
    after (exec (.doorbell .pf 0x2000 (some 64)) txe1) (fun t => (ringAt t 22).tail == 64 && (ringAt t 22).bmDue) = true := by decide +kernel

theorem test_doorbell_read_answers_tail :
    after (exec (.doorbell .pf 0x2000 none) txe1) (fun t => t.sent.head? == some (.doorbellAnswer .pf 0x2000 2)) = true := by decide +kernel

/-- TXE of channel 1 with one accepted descriptor that is to be fetched again. -/
def again1 : State := withRing (withRing up 24 []) 22 [work (desc 0 1 0x2000 64 0 0) .wantDesc]

theorem witness_FetchGrantedByClass_again :
    grant again1 = some 22 ∧ toRefetch again1 22 = some (work (desc 0 1 0x2000 64 0 0) .wantDesc) ∧
      findWork (ringAt again1 22) 0 = some (work (desc 0 1 0x2000 64 0 0) .wantDesc) ∧
      inWindows again1 (ringOwner again1 22) false (slotAddr (ringAt again1 22) 0) 32 = true ∧
      (let s := { again1 with hif := { again1.hif with windows := State.reset.hif.windows } }
       grant s = some 22 ∧ inWindows s (ringOwner s 22) false (slotAddr (ringAt s 22) 0) 32 = false) ∧ isRxRing 22 = false := by decide +kernel

theorem witness_FetchGrantedByClass : grant txe1 = some 22 ∧ toRefetch txe1 22 = none ∧
    inWindows txe1 (ringOwner txe1 22) false (slotAddr (ringAt txe1 22) ((ringAt txe1 22).acc + 1)) (32 * fetchCount (ringAt txe1 22) 22) = true := by
  decide +kernel

theorem witness_FetchGrantedByClass_window_fault :
    (let s := { txe1 with hif := { txe1.hif with windows := State.reset.hif.windows } }
     grant s = some 22 ∧ inWindows s (ringOwner s 22) false (slotAddr (ringAt s 22) ((ringAt s 22).acc + 1))
       (32 * fetchCount (ringAt s 22) 22) = false) := by decide +kernel

/-- Ring 0 with a fetch of two slots in flight. -/
def fetching : State := setRing (withRing (withRing up 1 []) 0 []) 0 (fun g => { g with fetch := some (0, 2), tail := 2 })

/-- Two descriptors, the second with another SEQ than its place. -/
def fetched : List Byte := descBytes (desc 0 0x100 0x1234567890ABC000 7 0x0A0B0C0D 9) ++ descBytes (desc 5 0x100 0 0 0 0)

/-- A descriptor's 32 bytes in the order of Table 02.5. -/
theorem test_descriptor_bytes_parse :
    parseDesc [0x04, 0x03, 0x02, 0x01, 0x01, 0x00, 0x02, 0x00, 0x88, 0x77, 0x66, 0x55, 0x44, 0x33, 0x22, 0x11, 0x40, 0x00, 0x00, 0x00,
      0x0D, 0x0C, 0x0B, 0x0A, 0x42, 0x00, 0x00, 0x00, 0xEF, 0xBE, 0xAD, 0xDE] =
      { seq := 0x01020304, opcode := 1, flags := 2, addr := 0x1122334455667788, len := 64, p0 := 0x0A0B0C0D, p1 := 0x42, cookie := 0xDEADBEEF } := by
  decide +kernel

theorem witness_WholeFetchAcceptedInOrder :
    (ringAt fetching 0).refetch = none ∧ (ringAt fetching 0).fetch = some (0, 2) ∧ fetched.length = 32 * 2 ∧
      (parseDesc (fetched.take 32)).seq = 0 ∧ (parseDesc (fetched.drop 32)).seq = 5 ∧ opcodeAllowed 0 0x100 = true ∧
      opcodeAllowed 0 1 = false ∧ serving txe1 1 = false ∧ noPathAt fetching 0 (parseDesc fetched) = false := by decide +kernel

theorem test_wrong_seq_is_its_own_return :
    after (exec (.descriptorFetchComplete 0 .ok fetched) fetching)
      (fun t => (ringAt t 0).seqErr && returnedWith t 0 1 == some (Outcome.of .retSeq 0 0) && (ringAt t 0).acc == 1
        && returnedWith t 0 0 == none) = true := by
  decide +kernel

theorem witness_FailedFetchAcceptsNothing :
    (ringAt fetching 0).fetch = some (0, 2) ∧ ([] : List Byte).length ≤ 256 ∧ XferResult.timeout ≠ XferResult.ok := by decide +kernel

theorem witness_DescriptorFetchedAgain :
    (let s := setRing again1 22 (fun g => { g with refetch := some 0 })
     (ringAt s 22).refetch = some 0 ∧ toRefetch s 22 = some (work (desc 0 1 0x2000 64 0 0) .wantDesc) ∧
       (descBytes (desc 0 1 0x2000 64 0 0)).length = 32 ∧ (parseDesc (descBytes (desc 0 1 0x2000 64 0 0))).seq = 0) := by decide +kernel

theorem witness_HaltedClearResumes :
    (let s := setRing txe1 22 (fun g => { g with halted := true, state := .halted })
     reachesRing .pf 22 = true ∧ ringOnPart s 22 = true ∧ (ringAt s 22).halted = true) := by decide +kernel

theorem witness_RingCfgCreatesRings0And1 :
    reachesAll .pf = true ∧ bitOf 0x80050A00 31 = true ∧ (ringAt up 1).enable = false ∧ (ringAt fetching 1).enable = true ∧
      bitOf 0x00050A00 31 = false ∧ (ringAt up 0).acc = (ringAt up 0).cpl ∧ (ringAt up 0).enable = false ∧
      (ringAt (setRing up 0 (fun g => { g with acc := 3 })) 0).acc ≠ (ringAt up 0).cpl ∧ (ringAt fetching 0).enable = true := by decide +kernel

theorem witness_RingCfgCreatesRings0And1_log2_taken :
    after (exec (.ringCfgWrite .pf 1 0x00050A00) up) (fun t => (ringAt t 1).log2 == 10 && (ringAt t 1).vector == 5) = true := by decide +kernel

/-- Ring 0 with one command accepted. -/
def cmd0 (op : Half) (addr : DWord) (p0 p1 : Word) : State :=
  withRing (withRing up 1 []) 0 [work (desc 0 op addr 0 p0 p1) .accepted]

theorem witness_CreateRingReturnsOrCreates :
    cmdWork (cmd0 0x100 0x1000 0x0618 0xFF) 0 0 0x100 = some (work (desc 0 0x100 0x1000 0 0x0618 0xFF) .accepted) ∧
      createStatus (cmd0 0x100 0x1000 0x0618 0xFF) 0 (desc 0 0x100 0x1000 0 0x0618 0xFF) = none ∧
      benchReady (cmd0 0x100 0x1000 0x0618 0xFF) = true ∧
      benchReady { cmd0 0x100 0x1000 0x0618 0xFF with hif := { up.hif with linkUp := false } } = false ∧
      outcomesOwed (ringAt (cmd0 0x100 0x1000 0x0618 0xFF) 24) = false ∧
      outcomesOwed { Ring.reset 24 with work := [work (desc 0 1 0x2000 64 0 0) .accepted] } = true := by decide +kernel

theorem witness_CreateRingReturnsOrCreates_returned :
    ringOnPart up (bits 0x6A0 7 0) = false ∧ ringOnPart up (bits 0x601 7 0) = true ∧ mayCreate 0 (bits 0x601 7 0) = false ∧
      mayCreate 0 (bits 0x1118 7 0) = true ∧ 16 < bits 0x1118 12 8 ∧ bits 0x0518 12 8 < 6 ∧
      createStatus up 0 (desc 0 0x100 0x1000 0 0x1118 0xFF) ≠ none := by decide +kernel

theorem test_create_ring_sets_counters :
    after (exec (.createRing 0 0) (cmd0 0x100 0x1000 0x0618 0xFF)) (fun t => (ringAt t 24).enable && (ringAt t 24).cpl == 0xFFFFFFFF
      && (ringAt t 24).base == 1 && t.journal.length == 1) = true := by decide +kernel

theorem witness_DestroyRingReturnsItsWork :
    (let s := withRing (cmd0 0x101 0 22 0) 22 [work (desc 0 1 0x2000 64 0 0) .accepted]
     cmdWork s 0 0 0x101 = some (work (desc 0 0x101 0 0 22 0) .accepted) ∧ destroyStatus s 0 (desc 0 0x101 0 0 22 0) = none ∧
       workOpen s 22 0 = some (work (desc 0 1 0x2000 64 0 0) .accepted) ∧ benchReady s = true) := by decide +kernel

theorem witness_DestroyRingReturnsItsWork_returned :
    ringOnPart up 160 = false ∧ ringOnPart up 1 = true ∧ mayCreate 0 1 = false ∧ mayCreate 0 159 = true ∧ (ringAt up 159).enable = false := by
  decide +kernel

/-! ### Records, interrupts, transmit and receive -/

/-- TXE of channel 1 with one executed frame whose record is due, and its completion ring 26. -/
def recDue : State :=
  { withRing (withRing (inService up 1) 26 []) 22 [{ work (desc 0 1 0x2000 64 0 0) .sent with ret := some (Outcome.of .ok 0 0) }] with
    hif := { up.hif with vfEnable := false } }

theorem witness_RecordWrittenInOrder :
    hostWritten 22 = true ∧ recordRing 22 = 26 ∧ frozen recDue = false ∧ (ringAt recDue 26).lost = [] ∧ (nextOutcome recDue 22).isSome = true ∧ (ringAt recDue 22).state ≠ .recovering ∧
      (ringAt recDue 26).state ≠ .recovering ∧ (ringAt recDue 26).enable = true ∧ mayMaster recDue (ringOwner recDue 26) = true ∧
      slotFree (ringAt recDue 26) (nextRecord (ringAt recDue 26)) = true ∧
      inWindows recDue (ringOwner recDue 26) true (slotAddr (ringAt recDue 26) (nextRecord (ringAt recDue 26))) 32 = true := by decide +kernel

/-- The same with every slot of the completion ring used. -/
def recFull : State := setRing recDue 26 (fun g => { g with cpl := 63 })

theorem witness_RecordWrittenInOrder_held :
    slotFree (ringAt recFull 26) (nextRecord (ringAt recFull 26)) = false ∧ (nextOutcome recFull 22).isSome = true ∧
      slotFree (ringAt (setRing recFull 26 (fun g => { g with cpl := 62 })) 26) 63 = true := by decide +kernel

theorem test_record_is_32_bytes :
    after (exec (.recordWrite 22) recDue) (fun t => match t.sent with | .memWrite _ _ b :: _ => b.length == 32 | _ => false) = true := by
  decide +kernel

theorem witness_AcknowledgedRecordCompletesWork :
    (let x : Issued := { src := .work 22 0, slot := 0, bytes := zeros 32, irq := false }
     let s := setRing recDue 26 (fun g => { g with unacked := [x] })
     (ringAt s 26).unacked = x :: [] ∧ s.pwr.entryReq = none ∧ (22 : RingNo) ≠ 26 ∧ (ringAt s 26).early = [] ∧
       x.slot = (ringAt s 26).cpl + 1 ∧ ({ x with slot := 1 }).slot ≠ (ringAt s 26).cpl + 1) := by decide +kernel

/-- Of two records on their way the younger is acknowledged first: W waits for the older. -/
theorem test_w_waits_for_the_older_slot :
    after (exec (.recordAcknowledged 26) (setRing recDue 26 (fun g => { g with unacked := [
      { src := .work 22 0, slot := 1, bytes := zeros 32, irq := false }, { src := .work 22 1, slot := 0, bytes := zeros 32, irq := false }] })))
      (fun t => (ringAt t 26).cpl == 0xFFFFFFFF && (ringAt t 26).early == [1]) = true := by decide +kernel

theorem witness_ModerationTimeSendsInterrupt :
    (let s := setRing { up with hif := { up.hif with funcs := vset up.hif.funcs 0 { openFn 64 with
        table := List.replicate 64 { addrLo := 0, addrHi := 0, data := 0, ctrl := 0 } } } } 1 (fun g => { g with modCnt := 1 })
     (ringAt s 1).modCnt ≠ 0 ∧ (vget s.hif.funcs (ringOwner s 1) (Func.reset 0)).bme = true ∧
       (vget s.hif.funcs (ringOwner s 1) (Func.reset 0)).table[(ringAt s 1).vector.toNat]? =
         some { addrLo := 0, addrHi := 0, data := 0, ctrl := 0 } ∧ (ringAt up 1).modCnt = 0) := by decide +kernel

/-- A TX_FRAME of n bytes at a stage on a transmit ring. -/
def txAt (s : State) (r : Nat) (n : Word) (st : Stage) : State := withRing s r [work (desc 0 1 0x2000 n 0 0x42) st]

/-- The uplink in O5 with XGEM port 0x42. -/
def o5 : State := { up with upl := { up.upl with
  onuState := 5, ports := vset up.upl.ports 1 { (vget up.upl.ports 1 PortEntry.zero) with valid := true, port := 0x42 } } }

theorem witness_TransmitFrameChecked :
    (workAt (txAt up 6 64 .accepted) 6 0 1 .accepted).isSome = true ∧ pathOpen (txAt up 6 64 .accepted) 6 = false ∧
      pathOpen (txAt o5 6 13 .accepted) 6 = true ∧ ringChan 6 = none ∧ (13 : Word).toNat < 14 ∧
      portActive (txAt up 6 64 .accepted) (bits 0x42 15 0) = false ∧
      txStatus (txAt o5 6 14 .accepted) 6 (desc 0 1 0x2000 14 0 0x42) = none := by decide +kernel

theorem witness_TransmitBufferReadOrReturned :
    (let s := txAt (inService up 1) 22 64 .wantRead
     (workAt s 22 0 1 .wantRead).isSome = true ∧ readTurn s 22 0 = true ∧ mayMaster s (ringOwner s 22) = true ∧
       inWindows s (ringOwner s 22) false 0x2000 64 = true ∧ placeFor s 22 64 ≠ none ∧ placeFor s 22 100000000 = none ∧
       inWindows s (ringOwner s 22) false 0xFFFFFFF0 17 = false) := by decide +kernel

theorem witness_TransmitBufferStored :
    (workAt (txAt (inService up 1) 22 14 .reading) 22 0 1 .reading).isSome = true ∧ ringChan 22 = some 1 ∧
      beAt (zeros 12 ++ [0x88, 0x08]) (etherOff (zeros 12 ++ [0x88, 0x08])) 2 = 0x8808 ∧ beAt (zeros 14) (etherOff (zeros 14)) 2 ≠ 0x8808 ∧
      hasPlace (txAt (inService up 1) 22 14 .reading) 22 0 = false := by decide +kernel

theorem test_short_frame_padded_to_64 :
    after (exec (.txBufferReadComplete 22 0 .ok (zeros 14)) (txAt (inService up 1) 22 14 .reading))
      (fun t => (vget (chanAt t 1).qs.q 2 []).map (fun f => f.bytes.length) == [] && (vget (chanAt t 1).qs.q 0 []).map (fun f => f.bytes.length) == [64])
      = true := by decide +kernel

theorem witness_ReceiveBufferPosted :
    (workAt (withRing up 4 [work (desc 0 2 0x2000 9212 0 0) .accepted]) 4 0 2 .accepted).isSome = true ∧
      (9211 : Word).toNat < (if (4 : Nat) = 8 then 2048 else 9212) ∧ (if (8 : Nat) = 8 then 2048 else 9212) ≤ (2048 : Word).toNat := by decide +kernel

/-- A frame waiting for a management buffer. -/
def waitingFrame : Frame :=
  { id := 0, src := .work 6 0, dest := .mgmtRx, bytes := zeros 64, prio := 0, entered := 0, rxPoint := 0, placed := 0, planned := 0, port := 0, reason := 0,
    macsec := false, inReserve := false, ts := none }

theorem witness_ReceivedFrameDelivered :
    (let s := { withRing up 4 [work (desc 0 2 0x2000 9212 0 0) .queued] with xc := { up.xc with mgmtRx := [waitingFrame] } }
     waitingFrames s 4 = [waitingFrame] ∧ postedBuffer s 4 = some (work (desc 0 2 0x2000 9212 0 0) .queued) ∧
       findWork (ringAt s 4) 0 = some (work (desc 0 2 0x2000 9212 0 0) .queued) ∧ journalOf s 4 0 = none ∧ frozen s = false ∧ (ringAt s 4).state ≠ .recovering ∧
       mayMaster s (ringOwner s 4) = true ∧ inWindows s (ringOwner s 4) true 0x2000 (noFcs (zeros 64)).length = true ∧
       inWindows s (ringOwner s 4) true 0x100000000 (noFcs (zeros 64)).length = false) := by decide +kernel

theorem witness_LifetimeReturnsWork :
    (let s := { setRing (txAt (inService up 1) 22 64 .accepted) 22 (fun g => { g with lifetime := 1 }) with datum := 1000000 * 2 ^ 40 }
     (workOpen s 22 0).isSome = true ∧ isTxRing 22 = true ∧ lifeOver s 22 (work (desc 0 1 0x2000 64 0 0x42) .accepted) = true ∧
       beingPlaced s 22 0 = false ∧ (ringAt s 22).state ≠ .recovering ∧ isP1 s = false ∧
       isP1 { s with glb := { s.glb with inForce := 1 } } = true ∧
       lifeOver { s with datum := 1000000 * 2 ^ 40 - 1 } 22 (work (desc 0 1 0x2000 64 0 0x42) .accepted) = false) := by decide +kernel

/-! ### Resets and the link -/

theorem witness_BusResetIsDeviceReset :
    offPath up = false ∧ up.sup.sealing = false ∧ up.glb.inReset = false ∧ up.hif.perst = false ∧ up.hif.linkUp = true ∧ offPath { up with sup := { up.sup with sealing := true } } = false := by decide +kernel

theorem witness_HostFullResetKeepsTheLink :
    up.sup.sealing = false ∧ up.pwr.state ≠ .entering ∧ up.pwr.state ≠ .poweringDown ∧ up.pwr.state ≠ .waking ∧ up.glb.inReset = false ∧
      ({ up.glb with inReset := true }).inReset = true ∧
      { up.pwr with state := .waking }.state = .waking ∧ (0xA5C30000 : Word) ≠ 0xA5C30001 := by decide +kernel

theorem test_wrong_key_does_nothing : exec (.hostFullReset .pf 0xA5C30000) up = .next up := by rfl

/-- PERST# and the loss of the link that follows it are one reset (R20). -/
theorem test_overlapping_causes_count_once :
    after (exec .perstAssert up) (fun t => t.glb.count == 1 && t.glb.last == 1
      && after (exec .linkDown { t with hif := { t.hif with linkUp := true } }) (fun u => u.glb.count == 1 && u.glb.last == 1)) = true := by
  decide +kernel

theorem witness_TestEnableRiseResets : up.pwr.testEn = false ∧ offPath up = false ∧ up.sup.sealing = false ∧
    { up.pwr with testEn := true }.testEn = true ∧ reached up 6 = true ∧ reached { up with pwr := { up.pwr with cold := true } } 6 = false ∧ ({ up with pwr := { up.pwr with testEn := true } }).pwr.state ≠ .deep := by decide +kernel

theorem witness_PerstAndLinkBringUp :
    (let s := { up with hif := { up.hif with perst := true } }
     s.hif.perst = true ∧ { s.pwr with state := .deep }.state = .deep ∧ s.pwr.state = .run ∧ up.hif.perst = false ∧ up.pwr.domHif = true ∧
       up.pwr.testEn = false ∧ linkFits 4 3 = true ∧ linkFits 4 4 = false ∧ linkFits 3 1 = false) := by decide +kernel

theorem witness_PfFlrReturnsRingsToPf :
    configServed up = true ∧ configServed State.reset = false ∧ (∀ v, v ∈ up.recov → v.cause ≠ 1 ∧ v.cause ≠ 2) ∧
      (∃ v, v ∈ (startRecovery up allRings 2 0xFF false [] []).recov ∧ v.settled = false ∧ (v.cause = 1 ∨ v.cause = 2)) := by decide +kernel

/-- VF 24's function enabled. -/
def vfs : State := { inService up 23 with hif := { up.hif with vfEnable := true, numVfs := 24 } }

theorem witness_ChannelResetLeavesOtherChannels :
    configServed vfs = true ∧ vfOn vfs 23 = true ∧ present vfs 23 = true ∧ (vfs.recov.find? (takesReset 23)).isNone = true ∧
      ((startRecovery vfs (chanRings 23) 3 23 false [] []).recov.find? (takesReset 23)).isSome = true ∧
      ((startRecovery vfs allRings 1 0xFF true [] []).recov.find? (takesReset 23)).isSome = true := by decide +kernel

/-- A recovery that is no reset takes no CHANNEL reset in (R20): its own follows. -/
theorem test_core_failure_does_not_absorb_a_channel_reset :
    after (exec (.vfFlr 23) (startRecovery vfs allRings 0x10 0xFF false [] [])) (fun t => (chanAt t 23).tab.state == .off
      && t.recov.length == 2) = true := by decide +kernel

theorem test_vf_flr_recovers_six_rings :
    after (exec (.vfFlr 23) vfs) (fun t => (chanAt t 23).tab.state == .off && match t.recov with
      | [v] => v.cause == 3 && v.scope.map (·.val) == [154, 155, 156, 157, 158, 159]
      | _ => false) = true := by decide +kernel

theorem witness_IslandFaultHaltsItsChannel :
    present vfs 23 = true ∧ (chanAt vfs 23).tab.state ≠ .off ∧ (chanAt vfs 23).tab.state ≠ .halted := by decide +kernel

theorem test_island_fault_halts :
    after (exec (.channelIslandFault 23) vfs) (fun t => (chanAt t 23).tab.state == .halted && (chanAt t 23).tab.haltCause == 1) = true := by
  decide +kernel

/-- CH_RESET of channel n on ring 0. -/
def chReset0 (n : Word) : State := withRing (withRing up 1 []) 0 [work (desc 0 0x110 0 0 n 0) .accepted]

theorem witness_ChannelResetCommand :
    (cmdWork (chReset0 23) 0 0 0x110).isSome = true ∧ cmdChan 0 (desc 0 0x110 0 0 23 0) = 23 ∧ present up 23 = true ∧
      ((chReset0 23).recov.find? (takesReset 23)).isNone = true ∧ 24 ≤ cmdChan 0 (desc 0 0x110 0 0 24 0) ∧
      present (State.resetOf .gnx1200) 12 = false ∧ present (State.resetOf .gnx1200) 11 = true := by decide +kernel

/-! ### Ledger and recovery -/

/-- The CRC-32C check value of "123456789", which R74's parameters give. -/
theorem test_crc32c_check : crc32c [0x31, 0x32, 0x33, 0x34, 0x35, 0x36, 0x37, 0x38, 0x39] = 0xE3069283 := by decide +kernel

theorem witness_LedgerEnabledAndClosed :
    reachesAll .pf = true ∧ ledgerOff State.reset = true ∧ ledgerOff up = false ∧ ledgerSettled up = true ∧ up.ledger.active = true ∧
      up.ledger.enable = true ∧ up.ledger.inFlight = [] ∧ up.ledger.failed = [] ∧ up.ledger.adopting = false ∧ up.ledger.closing = false ∧ ledgerQuiet up = true ∧ headersDone up = true ∧
      ledgerQuiet { up with ledger := { up.ledger with failed := [.hdrA] } } = false ∧ mayMaster up 0 = true ∧
      headersDone { up with ledger := { up.ledger with inFlight := [.hdrA] } } = false ∧
      ledgerSettled (setRing up 0 (fun g => { g with acc := 0 })) = false ∧ { up.ledger with closing := true }.closing = true := by decide +kernel

/-- Without the bus the headers of an enable wait; with it both are written, each with its own generation. -/
theorem test_ledger_enable_starts_two_header_generations :
    after (exec (.ledgerEnable .pf) { up with ledger := Ledger.reset, hif := { up.hif with linkUp := false } })
      (fun t => t.ledger.hdrGen == 0 && t.ledger.enable && !t.ledger.active && t.ledger.waiting.contains .hdrA) = true ∧
      after (exec (.ledgerEnable .pf) { up with ledger := Ledger.reset })
        (fun t => t.ledger.hdrGen == 2 && t.ledger.enable && !t.ledger.active && t.ledger.inFlight.contains .hdrB) = true := by decide +kernel

theorem witness_BenchmarkRecordWrittenByGeneration :
    (let s := setRing (withRing up 159 []) 159 (fun g => { g with bmDue := true })
     (ringAt s 159).bmDue = true ∧ mayMaster s 0 = true ∧ ringOnPart s 159 = true ∧ ledgerLive s = true ∧ frozen s = false ∧
       inWindows s 0 true (ledgAddr s (benchOff (decide (((ringAt s 159).gen + 1).toNat % 2 = 1)) 159)) 64 = true) := by decide +kernel

theorem witness_LedgerTransferHeldAndRetried :
    (let s := { up with ledger := { up.ledger with inFlight := [.hdrA, .adoptRead] } }
     let u := { up with ledger := { up.ledger with failed := [.hdrA] } }
     s.ledger.inFlight.contains .hdrA = true ∧ s.ledger.inFlight.contains .adoptRead = true ∧ u.ledger.failed = [.hdrA] ∧
       mayMaster u 0 = true ∧ u.sup.sealing = false ∧ s.sup.sealPhase = 0 ∧ u.ledger.inFlight.contains .hdrA = false ∧
       u.ledger.waiting.contains .adoptRead = false ∧ u.ledger.adopting = false ∧ inWindows u 0 true (ledgAddr u 0) 256 = true) := by decide +kernel

/-- A terminal whose ledger is OFF. -/
def ledgerIdle : State := { up with ledger := { Ledger.reset with epoch := 7 } }

/-- The image a CLOSED ledger of that terminal leaves. -/
def closedImage : LedgerImage :=
  { hdrA := hdrBytes ledgerIdle, hdrB := zeros 256, recsA := List.replicate 160 (zeros 64), recsB := List.replicate 160 (zeros 64),
    spill := zeros 8192, tribs := [] }

theorem witness_LedgerAdopted :
    reachesAll .pf = true ∧ mayMaster ledgerIdle 0 = true ∧ mayMaster { ledgerIdle with hif := { ledgerIdle.hif with linkUp := false } } 0 = false ∧ ledgerIdle.sup.sealing = false ∧ ledgerOff ledgerIdle = true ∧ closedImage.wf = true ∧ inWindows ledgerIdle 0 false (ledgAddr ledgerIdle 0) 0x7200 = true ∧
      hdrValid closedImage.hdrA = true ∧ hdrValid closedImage.hdrB = false ∧
      laterOf closedImage.hdrA closedImage.hdrB (hdrValid closedImage.hdrA) (hdrValid closedImage.hdrB) 16 = some closedImage.hdrA ∧
      leAt closedImage.hdrA 24 1 = 3 ∧ ({ closedImage with hdrA := zeros 256 }).wf = true ∧ hdrValid (zeros 256) = false := by decide +kernel

theorem witness_LedgerAdopted_foreign :
    leAt closedImage.hdrA 8 8 ≠ ({ ledgerIdle with glb := { ledgerIdle.glb with unitId := 5 } }).glb.unitId.toNat := by decide +kernel

/-- A recovery of cause 0x01 over rings 0, 6 and 4 with work on each. -/
def settling : State :=
  startRecovery (withRing (withRing (withRing (withRing up 1 []) 0 [work (desc 0 0x110 0 0 23 0) .accepted]) 6 [work (desc 0 1 0x2000 64 0 0) .queued]) 4
    [work (desc 0 2 0x2000 9212 0 0) .queued]) [0, 4, 6] 1 0xFF true [] []

theorem witness_RecoverySettledByTable :
    settling.recov.length = 1 ∧ settling.hif.linkUp = true ∧ (settling.recov.all (fun v => !v.settled && v.cause == 1 && v.lossy && maySettle settling v)) = true ∧
      mayMaster settling 0 = true ∧ isRxRing 6 = false ∧ isTribRing 6 = false ∧ (workOpen settling 6 0).isSome = true ∧
      isRxRing 4 = true ∧ (workOpen settling 4 0).isSome = true := by decide +kernel

theorem test_recovery_returns_command_reset :
    after (exec .recoverySettle settling) (fun t => returnedWith t 0 0 == some (Outcome.of .retReset 0 0) && t.ledger.epoch == 1
      && returnedWith t 4 0 == none) = true := by decide +kernel

theorem witness_RecoveryDoneActivatesRings :
    (let v : Recovery := { scope := [0, 4], cause := 1, chan := 0xFF, lossy := true, settled := true, cmds := [], refresh := [] }
     let s := { withRing (withRing up 1 []) 0 [] with recov := [v] }
     (ringAt s 1).enable = true ∧ frozen s = false ∧ mayMaster s 0 = true ∧ causeWaits s v = false ∧ slotFree (ringAt s 1) (nextRecord (ringAt s 1)) = true ∧
       inWindows s 0 true (slotAddr (ringAt s 1) (nextRecord (ringAt s 1))) 32 = true ∧ (ringAt s 0).enable = true) := by decide +kernel

/-! ### Channel table, channel life and the line -/

/-- The table enabled at base 0. -/
def tabled : State := { up with chtabEn := true }

/-- The entry of channel c at a phase of its read. -/
def reading (c : Nat) (p : ReadPhase) : State := setChan tabled c (fun k => { k with tab := { k.tab with phase := p, pend := true, served := true } })

/-- Channel 23 in TRAIN at a phase. -/
def training (p : BitVec 4) : State := setChan up 23 (fun k => { k with tab := { k.tab with state := .train, island := true, target := .service, failLimit := 1 }, line := { k.line with phase := p } })

theorem witness_RefreshRequestedByMask :
    reachesAll .pf = true ∧ (0x800001 : Word).getLsbD 23 = true ∧ (0x800001 : Word).getLsbD 22 = false ∧ present up 23 = true ∧
      up.chtabEn = false ∧ present (State.resetOf .gnx1200) 23 = false := by decide +kernel

theorem witness_RefreshCommandWaitsForRead :
    (let s := { withRing (withRing (reading 23 .waitRetry) 1 []) 0 [work (desc 0 0x111 0 0 23 0) .accepted] with chtabEn := true }
     (cmdWork s 0 0 0x111).isSome = true ∧ cmdChan 0 (desc 0 0x111 0 0 23 0) = 23 ∧ present s 23 = true ∧ s.chtabEn = true ∧
       (chanAt s 23).tab.phase = .waitRetry ∧ (chanAt s 23).tab.cmds = [] ∧ { s with chtabEn := false }.chtabEn = false ∧
       24 ≤ cmdChan 0 (desc 0 0x111 0 0 24 0) ∧ present (State.resetOf .gnx1200) (cmdChan 0 (desc 0 0x111 0 0 12 0)) = false) := by decide +kernel

theorem witness_TableEnableFollowed :
    reachesAll .pf = true ∧ up.chtabEn = false ∧ tabled.chtabEn = true ∧ present tabled 23 = true ∧ (chanAt (inService tabled 23) 23).tab.state ≠ .absent := by
  decide +kernel

theorem test_table_disable_puts_service_into_off :
    after (exec (.chtabEnableChange .pf false) (inService tabled 23)) (fun t => (chanAt t 23).tab.state == .off && !t.chtabEn) = true := by decide +kernel

theorem witness_EntryReadWholeOrDiscarded :
    (chanAt (reading 23 (.first 4 (zeros 0x7F8))) 23).tab.phase = .first 4 (zeros 0x7F8) ∧ (4 : Word).toNat % 2 = 0 ∧ (5 : Word).toNat % 2 = 1 ∧
      (5 : Word) ≠ 4 ∧ XferResult.ca ≠ .ok ∧ 1000 ≤ 999 + 1 := by decide +kernel

theorem test_odd_generation_is_discarded :
    after (exec (.chtabReadPhaseComplete 23 .ok [5, 0, 0, 0]) (reading 23 (.first 5 (zeros 0x7F8))))
      (fun t => (chanAt t 23).tab.phase == .waitRetry && (chanAt t 23).tab.discards == 1 && (chanAt t 23).tab.gen == 0xFFFFFFFF) = true := by
  decide +kernel

theorem witness_EntryReadRetried :
    (chanAt (reading 23 .waitRetry) 23).tab.phase = .waitRetry ∧ (chanAt (reading 23 .waitError) 23).tab.phase = .waitError ∧
      (reading 23 .waitRetry).chtabEn = true ∧ (chanAt (reading 23 .waitRetry) 23).tab.pend = true ∧ present (reading 23 .waitRetry) 23 = true ∧
      mayMaster (reading 23 .waitRetry) 0 = true ∧
      inWindows (reading 23 .waitRetry) 0 false ((reading 23 .waitRetry).chtabBase.toNat * 4096 + 0x800 * 23 + 0x7FC) 4 = true := by decide +kernel

theorem witness_HoldAndIslandFollowTarget :
    present up 23 = true ∧ bits 3 1 0 = 3 ∧ bits 2 1 0 = 2 ∧ (chanAt (inService up 23) 23).tab.state ≠ .absent ∧ mayLeaveOff up 23 = false ∧
      mayLeaveOff (setChan tabled 23 (fun k => { k with tab := { k.tab with state := .off, readSince := true, gen := 0, target := .ready } })) 23 = true := by
  decide +kernel

/-- A frame boundary's data. -/
def frameRx (drop : Nat) : FrameRx :=
  { dropDb := drop, adc := [], pcmIn := [List.replicate 1024 false, List.replicate 1024 false], eoc := zeros 16 }

theorem witness_FrameBoundaryFollowed :
    (let r := setChan tabled 23 (fun k => { k with tab := { k.tab with state := .ready, target := .service, readSince := true, gen := 0 } })
     let stepped (s : State) : State := { s with time := { s.time with stepped := BitVec.ofNat 24 (2 ^ 23) } }
     present up 23 = true ∧ atEdge up frameUnit (framePhase up 23 * nsUnit) = true ∧ atEdge r frameUnit (framePhase r 23 * nsUnit) = true ∧
       atEdge { up with datum := 250000 * nsUnit } frameUnit (framePhase up 23 * nsUnit) = false ∧ present (State.resetOf .gnx1200) 23 = false ∧
       serving (inService up 23) 23 = true ∧ (inService up 23).time.stepped.getLsbD 23 = false ∧
       (stepped (inService up 23)).time.stepped.getLsbD 23 = true ∧ (chanAt (training 3) 23).tab.state = .train ∧ mayTrain r 23 = true ∧
       20 ≤ (frameRx 20).dropDb) := by decide +kernel

theorem test_frame_boundary_enters_train :
    after (exec (.tddFrameBoundary 23 (frameRx 0))
      (setChan tabled 23 (fun k => { k with tab := { k.tab with state := .ready, target := .service, readSince := true, gen := 0 } })))
      (fun t => (chanAt t 23).tab.state == .train && (chanAt t 23).line.latMds == 30) = true := by decide +kernel

theorem witness_HandshakeChecksPeer :
    (chanAt (training 1) 23).tab.state = .train ∧ (chanAt (training 1) 23).line.phase = 1 ∧ (chanAt (training 1) 23).line.latPeer = 0 ∧
      (chanAt (setChan (training 1) 23 (fun k => { k with line := { k.line with latPeer := 7 } })) 23).line.latPeer ≠ 0 ∧ (7 : DWord) ≠ 8 := by
  decide +kernel

theorem test_wrong_peer_halts :
    after (exec (.handshakeAnswer 23 true 8) (setChan (training 1) 23 (fun k => { k with line := { k.line with latPeer := 7 } })))
      (fun t => (chanAt t 23).tab.state == .halted && (chanAt t 23).tab.haltCause == 3) = true := by decide +kernel

theorem witness_TrainingPhasesEnd :
    (chanAt (training 6) 23).line.phase = 6 ∧ (chanAt (training 0) 23).line.phase = 0 ∧ (chanAt (training 2) 23).line.phase = 2 ∧
      (chanAt (training 1) 23).tab.trainFails ≠ 255 ∧ (chanAt (training 1) 23).tab.failLimit ≠ 0 ∧
      (chanAt (training 1) 23).tab.failLimit.toNat ≤ (chanAt (training 1) 23).tab.trainFails.toNat + 1 ∧
      (chanAt up 23).tab.failLimit = 0 ∧ 6000 < 6001 := by decide +kernel

theorem test_round_trip_6001_fails :
    after (exec (.trainingPhaseEnd 23 (.timing 6001)) (training 2)) (fun t => (chanAt t 23).line.lastFail == 2) = true ∧
      after (exec (.trainingPhaseEnd 23 (.timing 6000)) (training 2)) (fun t => (chanAt t 23).line.phase == 3) = true := by decide +kernel

theorem witness_MarginEconomyAndLossOfLine :
    (let s := setChan (inService up 23) 23 (fun k => { k with tab := { k.tab with econEn := true }, line := { k.line with econTimer := some 0, lightPeer := true, latMds := 23, econDs := 16000, tonesDs := List.replicate 1024 { bits := 12, snr := 0, dead := false }, tonesUs := List.replicate 1024 { bits := 12, snr := 0, dead := false } }, fr := { k.fr with badRun := 400 } })
     serving s 23 = true ∧ (chanAt s 23).tab.state = .service ∧ (chanAt s 23).tab.econEn = true ∧ (chanAt s 23).line.econTimer ≠ none ∧
       lightFrame (chanAt s 23) = true ∧ (chanAt s 23).line.econChg.entry = none ∧ 400 ≤ (chanAt s 23).fr.badRun ∧
       econCarries (chanAt s 23).line = true) := by decide +kernel

theorem witness_MarginEconomyAndLossOfLine_blocked :
    econCarries { (chanAt up 23).line with latTrib := Vector.replicate 4 { Trib.off with enable := true, n := 32 }, latMds := 30 } = false := by
  decide +kernel

/-- A frame of one codeword whose information bytes begin with an overhead that carries a margin, LIGHT and RDI. -/
def overheadInfo : List Byte := (let h := [0, 0, 0x18] ++ zeros 27 ++ [0x12, 0x34] ++ zeros 30; h ++ bytesBE 2 (crc16 h)) ++ zeros 160

/-- Channel 23 in SERVICE with an upstream frame of one codeword still to be decoded. -/
def decoding : State :=
  setChan (inService up 23) 23 (fun k => { k with line := { k.line with latMds := 30 }, fr := { k.fr with prevRx := some (0, 120) } })

theorem witness_OverheadCheckedWhole :
    (chanAt up 23).fr.prevRx = none ∧ serving decoding 23 = true ∧ (chanAt decoding 23).fr.prevRx = some (0, 120) ∧
      ownCodewords (120 * slotsUs (chanAt decoding 23).line) (chanAt decoding 23).fr.leftRx = 1 ∧
      checkOk (((([wordAt [overheadInfo] 0]).flatMap (fun w => w.1)).map (fun x => x.1)).take 64) = true ∧
      checkOk (((([wordAt [] 0]).flatMap (fun w => w.1)).map (fun x => x.1)).take 64) = false := by decide +kernel

/-- A codeword shortened to a message of four bytes, with two of its bytes in error, is corrected (R154). -/
theorem test_codeword_corrected :
    (let w := rsCodeword 16 [0x12, 0x34, 0x56, 0x78]
     rsDecode 16 w = some ([0x12, 0x34, 0x56, 0x78], false) ∧
       rsDecode 16 ((w.set 1 0).set 9 (w.getD 9 0 ^^^ 0x40)) = some ([0x12, 0x34, 0x56, 0x78], true)) := by decide +kernel

theorem test_overhead_followed :
    after (exec (.overheadReceived 23 [overheadInfo]) decoding) (fun t => (chanAt t 23).line.marginDs == 0x1234 &&
      (chanAt t 23).line.lightPeer && (chanAt t 23).fr.feRdi && (chanAt t 23).pm.cur.cwBad == 1) = true := by decide +kernel

/-- Received bytes of one slot. -/
def rxOf (bad : Bool) (l : List Byte) : List RxByte := l.map (fun b => { byte := b, slot := 0, bad := bad })

/-- Channel 23 in SERVICE with received DTU bytes. -/
def received (x : List RxByte) : State := setChan (inService up 23) 23 (fun k => { k with fr := { k.fr with rxStream := x } })

/-- An IDLE DTU whose SEQ is 3. -/
def dtu3 : List Byte := let b := [0, 3, 0, 0] ++ zeros 440; b ++ bytesBE 4 (crc32c b)

theorem witness_BadDtuCountedGoodDtuTaken :
    (let s := received (rxOf false dtu3)
     let x := (chanAt s 23).fr.rxStream.take 448
     let b := x.map (fun y => y.byte)
     serving s 23 = true ∧ 448 ≤ (chanAt s 23).fr.rxStream.length ∧ x.any (fun y => y.bad) = false ∧ b.length = 448 ∧
       beAt b 2 1 = 0 ∧ beAt b 0 2 = 3 ∧ (chanAt s 23).fr.rxHigh = none ∧ (chanAt (received []) 23).fr.rxStream.length < 448 ∧
       farOff (chanAt s 23).fr 4096 = true ∧ farOff (chanAt s 23).fr 4095 = false ∧ (x.take 1).map (fun y => y.slot) = [0] ∧
       dtuNamed (chanAt s 23).fr.rxStream (zeros 448) false 0 = false) := by decide +kernel

theorem witness_BadDtuCountedGoodDtuTaken_good : dtuGood (((rxOf false dtu3).take 448).map (fun y => y.byte)) = true := by
  rw [List.take_of_length_le (by decide +kernel), rxOf, List.map_map, show ((fun y : RxByte => y.byte) ∘ fun b => ⟨b, 0, false⟩) = id from rfl,
    List.map_id]
  exact dtuGood_of_crc _ (by decide +kernel) (by decide +kernel)

theorem witness_BadDtuCountedGoodDtuTaken_bad :
    dtuGood (zeros 447) = false ∧ (rxOf true dtu3).any (fun y => y.bad) = true := by decide +kernel

/-- Channel 23 in SERVICE with bytes of the present frame's region unfilled. -/
def closing (f : Framer → Framer) : State :=
  setChan (inService up 23) 23 (fun k => { k with fr := f { k.fr with frameAt := some 0, regionSize := 1000, regionLeft := 1000 } })

theorem witness_DtuClosesInOrder :
    (let s := closing (fun f => f)
     let u := closing (fun f => { f with rtxQueue := [(5, 0)], txStore := [{ seq := 5, bytes := zeros 448, at_ := 0 }] })
     let w := closing (fun f => { f with openDtu := [0x80, 1, 7] })
     mayClose (chanAt s 23).fr = true ∧ mayClose (chanAt u 23).fr = true ∧ mayClose (chanAt w 23).fr = true ∧
       mayClose (chanAt (inService up 23) 23).fr = false ∧
       rtxDue (chanAt (placeAll s 23) 23).fr = none ∧ (chanAt (placeAll s 23) 23).fr.openDtu = [] ∧ rtxDue (chanAt (placeAll u 23) 23).fr = some 5 ∧
       (heldDtu (chanAt (placeAll u 23) 23).fr 5).isSome = true ∧ rtxDue (chanAt (placeAll w 23) 23).fr = none ∧
       (chanAt (placeAll w 23) 23).fr.openDtu ≠ []) := by decide +kernel

theorem witness_MissingDtuDeclaredLost :
    (let s := setChan (inService up 23) 23 (fun k => { k with fr := { k.fr with missing := [{ seq := 5, age := 9 }] } })
     serving s 23 = true ∧ lostDue (chanAt s 23).fr 5 = true ∧ lostDue (chanAt s 23).fr 4 = false ∧
       lostDue { (chanAt s 23).fr with missing := [{ seq := 5, age := 8 }] } 5 = false) := by decide +kernel

/-- TRIB_BLOCK of n bytes on ring 159, its channel in SERVICE with tributary 0 of one timeslot on the ring. -/
def tribAt (n : Word) (fl : Half) : State :=
  withRing (setChan (inService up 23) 23 (fun k => { k with line := { k.line with latTrib := vset k.line.latTrib 0 { Trib.off with enable := true, ring := true, n := 1 } } }))
    159 [work { desc 0 4 0x2000 n 0 0 with flags := fl } .accepted]

theorem witness_TributaryBlockChecked :
    (workOpen (tribAt 4 4) 159 0).isSome = true ∧ isTribRing 159 = true ∧ (ringAt (tribAt 4 4) 159).state ≠ .recovering ∧
      (159 - 16) / 6 = 23 ∧ serving (tribAt 4 4) 23 = true ∧ serving up 23 = false ∧ (0 : Half).getLsbD 2 = false ∧ (4 : Half).getLsbD 2 = true ∧
      blockStatus (tribAt 4 4) 23 (work { desc 0 4 0x2000 4 0 0 with flags := 4 } .accepted) = none ∧
      blockStatus (tribAt 256 4) 23 (work { desc 0 4 0x2000 256 0 0 with flags := 4 } .accepted) = none ∧
      blockStatus (tribAt 260 4) 23 (work { desc 0 4 0x2000 260 0 0 with flags := 4 } .accepted) = some .retLength ∧
      (260 : Word).toNat % (4 * 1) = 0 ∧ 256 * 1 < (260 : Word).toNat ∧ (6 : Word).toNat % (4 * 1) ≠ 0 ∧
      inWindows (tribAt 4 4) (ringOwner (tribAt 4 4) 159) true 0x2000 4 = true := by decide +kernel

/-! ### The fibre uplink -/

/-- The uplink of `up` receiving in SYNC, gate RANGED with ONU-ID 5. -/
def fibre : State :=
  { up with upl := { up.upl with modAbs := false, rxLos := false, rxOn := true, sync := .sync, gate := .ranged, onuId := 5,
                                 allocs := vset up.upl.allocs 0 (some 5), txAllow := true, missing := false } }

/-- That uplink with other fields. -/
def fibreWith (f : Upl → Upl) : State := { fibre with upl := f fibre.upl }

/-- An allocation structure for Alloc-ID 5 with DBRu and three words, as the BWmap carries it. -/
def word5 : DWord := BitVec.ofNat 64 (withHec 51 (5 * 2 ^ 37 + 2 ^ 36 + 3 * 2 ^ 3))

/-- What it says. -/
def grant5 : Alloc := { allocId := 5, sn := false, dbru := true, ploamu := false, start := 0, grant := 3, fwi := false, profile := 0 }

/-- A burst of that allocation. -/
def burst0 : Burst :=
  { tds := 0, base := 0, rand := 0, tHdr := 0, winFrom := 0, winTo := 10, valid := false, k := 1, lead := 0, fec := false, psbu := [], allocs := [grant5]
    ind := 0, ploam := none, bufOcc := [0], key := none, superframe := 0, segs := [], lastOf := [], deficit := Vector.replicate 64 0
    cursor := Vector.replicate 8 0, opened := 0, bytes := [] }

theorem witness_UplinkSynchronisation :
    rxLive fibre = true ∧ (7 : BitVec 51) = (0 : BitVec 19) ++ (7 : Word) ∧ fibre.upl.sync ≠ .hunt ∧ (fibreWith (fun u => { u with sync := .hunt })).upl.sync = .hunt ∧
      (fibreWith (fun u => { u with eqdNext := some (-7, 0) })).upl.eqdNext = some (-7, 0) ∧ (0 : Int) ≤ fibre.datum ∧ (fibre.datum : Int) < 1 ∧
      fibre.upl.misses < 2 ∧ 2 ≤ (fibreWith (fun u => { u with misses := 2 })).upl.misses ∧ fibre.pwr.domUpl = true ∧
      (fibreWith (fun u => { u with lods := true })).upl.lods = true ∧ fibre.upl.gate ≠ .stopped := by decide +kernel

theorem test_third_missed_psync_declares_lods :
    after (exec .psyncExpectedMiss (fibreWith (fun u => { u with misses := 1 }))) (fun t => t.upl.sync == .sync && t.upl.missing) = true ∧
      after (exec .psyncExpectedMiss (fibreWith (fun u => { u with misses := 2 }))) (fun t => t.upl.sync == .hunt && t.upl.lods) = true := by
  decide +kernel

/-- A message of 40 bytes with the integrity check the link's key gives it. -/
def signed (s : State) (x : List Byte) : Ploam := x ++ ploamMic s 1 x

/-- Such a message is accepted. -/
theorem micGood_signed (s : State) (x : List Byte) (h : x.length = 40) : micGood s (signed s x) = true := by
  have hf : ∀ y : List Byte, fit 40 (x ++ y) = x := fun y => by simp [fit, h]
  have h0 : fit 40 x = x := by simpa using hf []
  have hl : (ploamMic s 1 x).length = 8 := by simp [ploamMic, fit, zeros]
  have hm : ploamMic s 1 (x ++ ploamMic s 1 x) = ploamMic s 1 x := by rw [ploamMic, hf, ploamMic, h0]
  unfold micGood signed
  rw [List.drop_left' h, hm, List.length_append, h, hl]
  simp

/-- A message to ONU-ID 5, to every ONU, and to ONU-ID 6. -/
def toOnu (hi lo : Byte) : Ploam := signed fibre ([hi, lo] ++ zeros 38)

theorem witness_PloamDiscardedOrPassed :
    inSync fibre = true ∧ ploamOnu (toOnu 0 5) = fibre.upl.onuId ∧ ploamOnu (toOnu 3 0xFF) = 0x3FF ∧ ploamOnu (toOnu 0 6) ≠ fibre.upl.onuId ∧
      ploamOnu (toOnu 0 6) ≠ 0x3FF ∧ inSync up = false ∧ sleepWithdrawn (toOnu 0 5) = false ∧
      sleepWithdrawn (signed fibre ([0, 5, 0x12] ++ zeros 37)) = true ∧ micGood fibre ([0, 5] ++ zeros 38) = false := by
  decide +kernel

theorem witness_PloamAccepted : micGood fibre (toOnu 0 5) = true := micGood_signed fibre _ (by decide)

theorem witness_PloamMovesTheGate :
    inSync fibre = true ∧ fibre.upl.snHi = 0 ∧ fibre.upl.gate = .ranged ∧ (slotOf fibre.upl 5).isSome = true ∧ slotOf fibre.upl 6 = none ∧
      freeSlot fibre.upl = some 1 ∧ freeSlot (fibreWith (fun u => { u with allocs := Vector.replicate 32 (some 5) })).upl = none ∧
      (fibreWith (fun u => { u with gate := .stopped })).upl.gate = .stopped := by decide +kernel

theorem test_assign_alloc_takes_lowest_free_slot : slotOf (allocOp fibre 6 true).upl 6 = some 1 := by decide +kernel

/-- The bits of an allocation structure in their places, and one bit error corrected (R109). -/
theorem test_allocation_bits_parse :
    parseAllocs [word5, word5 ^^^ (1 : DWord) <<< 40] = [grant5, grant5] := by decide +kernel

/-- That uplink with profile 0 taught and room for a burst. -/
def bursting : State :=
  fibreWith (fun u => { u with maxBurst := 1000, profiles := vset u.profiles 0 (some { preamble := zeros 4, delimiter := zeros 4, fec := false }) })

theorem witness_BurstFixedAndWindowOpened :
    fibre.pwr.domUpl = true ∧ ((parseAllocs [word5]).filter (allocOurs fibre.upl)).filter (fun a => !allocMasked fibre.upl a) ≠ [] ∧
      allocPermitted fibre.upl grant5 = true ∧ allocPermitted fibre.upl { grant5 with sn := true } = false ∧ gateLive fibre = true ∧
      gateLive (fibreWith (fun u => { u with missing := true })) = false ∧
      ((parseAllocs [word5]).filter (allocOurs fibre.upl)).filter (fun a => !allocMasked (fibreWith (fun u => { u with allocMask := 1 })).upl a) = [] ∧
      allocMasked (fibreWith (fun u => { u with allocMask := 1 })).upl grant5 = true ∧
      (fibreWith (fun u => { u with bursts := [burst0] })).upl.bursts = [burst0] ∧ fibre.upl.window = none ∧
      lastEnd (fibreWith (fun u => { u with bursts := [burst0] })).upl = some 10 := by decide +kernel

theorem test_burst_fixed :
    after (exec (.burstContentFix 0 ⟨[word5], []⟩) bursting) (fun t => t.upl.refused == 0 && t.upl.bursts.map (·.allocs) == [[grant5]]) = true ∧
      after (exec (.burstContentFix 0 ⟨[word5], []⟩) fibre) (fun t => t.upl.refused == 1 && t.upl.bursts == []) = true := by decide +kernel

theorem witness_BurstWindowEnds :
    (let s := withRing (fibreWith (fun u => { u with window := some { burst0 with lastOf := [{ ring := 2, seq := 0, endBit := 0, ts := none }] } })) 2
       [work (desc 0 0x111 0 0 0 0) .emitted]
     s.upl.window.isSome = true ∧ journalSpace s = true ∧ (workOpen s 2 0).isSome = true ∧ 0 ≤ 32 * s.upl.maxBurst.toNat ∧
       fibre.upl.window = none ∧ burst0.lastOf = []) := by decide +kernel

theorem witness_OpticsFollowed :
    fibre.pwr.domUpl = true ∧ fibre.upl.modAbs = false ∧ (fibreWith (fun u => { u with rogueEn := true })).upl.rogueEn = true ∧ fibre.upl.rogue = false ∧
      fibre.upl.txSd = false ∧ vget (vset (Vector.replicate 5 (none : Option Half)) 4 (some 9)) 4 none = some 9 ∧
      vget (Vector.replicate 5 (none : Option Half)) 4 none = none ∧ (fibreWith (fun u => { u with modAbs := true })).upl.modAbs = true := by decide +kernel

theorem test_rogue_light_shuts_the_transmitter :
    after (exec .rogueLight (fibreWith (fun u => { u with rogueEn := true }))) (fun t => t.upl.rogue && t.upl.txDisable && t.upl.gate == .ranged) = true := by
  decide +kernel

/-- The header of a whole XGEM frame of 5 bytes in clear for port 9. -/
def xgem9 : DWord := BitVec.ofNat 64 (withHec 51 (5 * 2 ^ 37 + 9 * 2 ^ 19 + 1))

theorem witness_XgemPortsKeptAndUsed :
    fibre.pwr.domUpl = true ∧ inSync fibre = true ∧ 2 ≤ bits 0x60000000 30 29 ∧ bits 0x20000007 30 29 < 2 ∧ fibre.upl.xgemSkip = false ∧
      fibre.upl.xgemPart = none ∧ (fibreWith (fun u => { u with xgemSkip := true })).upl.xgemSkip = true ∧
      (7 : DWord) = (0 : Word) ++ (7 : Word) ∧
      (hecField 51 xgem9.toNat).map (fun v => ((xgemHdrOf v).port, (xgemHdrOf v).keyIdx, (xgemHdrOf v).last, (xgemHdrOf v).len)) = some (9, 0, true, 5) ∧
      fibre.upl.ports.toList.all (fun e => !e.valid) = true ∧
      (let e : PortEntry := { valid := true, type := 2, encReq := false, flow := 0, port := 9 }
       (vset fibre.upl.ports 0 e).toList.find? (fun e => e.valid && e.port == 9) = some e) := by decide +kernel

theorem test_port_entry_0_is_refused :
    after (exec (.uplPortWrite (.fw 0) 0) (fibreWith (fun u => { u with portData := 0xA0000007 }))) (fun t => t.upl.portStatus == 2) = true := by
  decide +kernel

/-- A frame in a T-CONT queue. -/
def waiting : Frame :=
  { id := 0, src := .uplink 0, dest := .tcont 3, bytes := [1], prio := 0, entered := 0, rxPoint := 0, placed := 0, planned := 0, port := 0, reason := 0
    macsec := false, inReserve := false, ts := none }

theorem witness_PonPowerSavingFollowed :
    (fibreWith (fun u => { u with ponMode := .cyclicSleep })).upl.ponMode = .cyclicSleep ∧ fibre.upl.ponMode = .awake ∧ fibre.pwr.domUpl = true ∧
      (fibreWith (fun u => { u with tcont := vset u.tcont 3 [waiting] })).upl.tcont.toList.any (fun l => decide (l ≠ [])) = true := by
  decide +kernel
/-! ### Forwarding, scheduling and time -/

/-- A MAC section with MACsec off. -/
def mac0 : MacSect :=
  { mtu := 1522, pfcObey := 0xFF, pfcGen := 0x81, xoff := 1000, xon := 500, headroom := 0, quanta := 0xFFFF, legacy := false, missExc := false,
    trapL2cp := false, defPcp := 0, macSa := zeros 6, txEn := false, rxEn := false, conf := false, xpn := false, inclSci := false, validate := 0,
    txAn := 0, rxAn0 := 0, rxAn1 := 0, txKey := 0, rxKey0 := 0, rxKey1 := 0, txSci := zeros 8, rxSci := zeros 8, txSsci := 0, rxSsci := 0,
    txPnInit := 0, replayWin := 0, pnThresh := 0 }

/-- Channel 0 in SERVICE with that MAC section. -/
def lineUp : State := setChan (inService up 0) 0 (fun k => { k with tab := { k.tab with mac := some mac0, queues := vset k.tab.queues 7 { QDesc.zero with level := 7 } } })

/-- A stored frame. -/
def frame0 (d : Dest) : Frame :=
  { id := 0, src := .pause, dest := d, bytes := zeros 64, prio := 7, entered := 0, rxPoint := 0, placed := 0, planned := 0, port := 0, reason := 0,
    macsec := false, inReserve := false, ts := none }

theorem witness_UpstreamFrameClassified :
    serving lineUp 0 = true ∧ (chanAt lineUp 0).tab.mac = some mac0 ∧ fcsGood (withFcs (zeros 60)) = true ∧ (withFcs (zeros 60)).length = 64 ∧
      fcsGood (zeros 64) = false ∧ beAt (noFcs (withFcs (zeros 60))) 12 2 ≠ 0x8808 ∧ cells 64 ≤ usFree lineUp 0 ∧
      upstreamEntry lineUp 0 (matchVid (noFcs (withFcs (zeros 60)))) (framePcp (noFcs (withFcs (zeros 60))) 0) = none ∧
      (let e : Vector Word 4 := #v[0xE8300000, 0, 0, 0]
       let s := { lineUp with xc := { lineUp.xc with flow := vset lineUp.xc.flow 5 e } }
       feKind e = 5 ∧ upstreamEntry s 0 (matchVid (noFcs (withFcs (zeros 60)))) (framePcp (noFcs (withFcs (zeros 60))) 0) = some e) := by decide +kernel

theorem test_frame_of_63_bytes_is_a_runt :
    after (exec (.upstreamFrameReceived 0 (zeros 63) 0) lineUp) (fun t => (chanAt t 0).mac.runt == 1) = true := by decide +kernel

theorem witness_PauseHeldAndGenerated :
    (let x := withFcs (zeros 12 ++ [0x88, 0x08, 0x01, 0x01, 0x00, 0xFF] ++ zeros 42)
     fcsGood x = true ∧ beAt x 12 2 = 0x8808 ∧ beAt (noFcs x) 14 2 = 0x0101 ∧ (0xFF &&& mac0.pfcObey.toNat).testBit 7 = true) ∧
      mac0.pfcGen.getLsbD 7 = true ∧
      (let s := setChan lineUp 0 (fun k => { k with qs := { k.qs with genTimer := some 0, gen := 0x80, obey := vset k.qs.obey 7 (some 0) } })
       (chanAt s 0).qs.genTimer = some 0 ∧ (chanAt s 0).qs.gen.getLsbD 7 = true ∧ congested s 0 mac0 7 = false ∧
         congested s 0 { mac0 with headroom := 0xFFFF } 7 = true ∧ vget (chanAt s 0).qs.obey 7 none = some 0 ∧ (0 : Nat) ≤ s.datum) := by decide +kernel


theorem witness_FlowTableKept :
    ftPortOf .pf = some 0 ∧ flowBad up (Vector.replicate 4 0) = false ∧ flowDup up 0 (Vector.replicate 4 0) = false ∧ (feKind (vset (Vector.replicate 4 0) 1 (0 : Word))) < 6 := by
  decide +kernel

theorem witness_BufferBankRetired :
    up.xc.retired.getLsbD 63 = false ∧ ({ up.xc with retired := 0x8000000000000000 }).retired.getLsbD 63 = true ∧
      (let s := withRing lineUp 22 [work (desc 0 1 0x2000 64 0 0) .queued]
       let u := setChan s 0 (fun k => { k with qs := { k.qs with q := vset k.qs.q 7 [{ frame0 .line with src := .work 22 0 }] } })
       (22, 0) ∈ struckWork u [0] ∧ (findWork (ringAt u 22) 0).map (lifeOver u 22) = some false ∧
         (findWork (ringAt u 22) 0).map (lifeOver { u with datum := 10 * secUnit } 22) = some false ∧ journalOf u 22 0 = none ∧ isP1 u = false) ∧
      struck [0] { frame0 (.tcont 0) with src := .work 1 0 } = true ∧ struck [0] (frame0 (.tcont 0)) = false := by decide +kernel

/-- Channel 0 with a head frame in queue 7. -/
def queued7 : State := setChan lineUp 0 (fun k => { k with qs := { k.qs with q := vset k.qs.q 7 [{ frame0 .line with src := .work 22 0 }] } })

/-- That channel in a frame whose DTU region is unfilled, so that the head has its place; and one with a frame for T-CONT 3 in upstream queue 8. -/
def placed7 : State := setChan queued7 0 (fun k => { k with line := { k.line with latMds := 30 }, fr := { k.fr with frameAt := some 0, bitsTx := 8000, regionSize := 10000, regionLeft := 10000 } })
def queued8 : State := setChan lineUp 0 (fun k => { k with qs := { k.qs with q := vset k.qs.q 8 [frame0 (.tcont 3)] } })

theorem witness_SchedulerServesHighestLevel :
    serving placed7 0 = true ∧ mac0.txEn = false ∧ (chanAt placed7 0).qs.cur = none ∧ (chanAt placed7 0).qs.pauseTx = [] ∧
      eligible (chanAt placed7 0) placed7.datum 7 = true ∧ eligible (chanAt queued7 0) 0 7 = false ∧
      (List.range 16).all (fun i => !eligible (chanAt lineUp 0) 0 i) = true ∧ eligible (chanAt queued8 0) 0 8 = true ∧
      (chanAt placed7 0).gcl.active.enable = false := by
  decide +kernel

theorem test_selection_takes_the_head_frame :
    after (exec (.schedulerSelect 0 .ds 7) placed7) (fun t => (vget (chanAt t 0).qs.q 7 []).isEmpty) = true ∧
      after (exec (.schedulerSelect 0 .ds 6) placed7) (fun t => (vget (chanAt t 0).qs.q 7 []).length == 1) = true ∧
      after (exec (.schedulerSelect 0 .us 0) queued8) (fun t => (vget t.upl.tcont 3 []).length == 1) = true := by decide +kernel

theorem witness_ShapingAndHistograms :
    (let s := setChan { lineUp with time := { lineUp.time with pllLock := true } } 0 (fun k => { k with tab := { k.tab with pendQueues := some (Vector.replicate 16 QDesc.zero) } })
     (chanAt s 0).tab.pendQueues.isSome = true ∧ (chanAt lineUp 0).tab.pendQueues = none ∧ atEdge s usUnit 0 = true ∧ atEdge s msUnit 0 = true ∧
       atEdge { s with datum := usUnit / 2 } usUnit 0 = false ∧ atEdge { s with datum := msUnit / 2 } msUnit 0 = false) ∧ reachesChan .pf 0 = true ∧ present lineUp 23 = true := by
  decide +kernel

/-- A one-second list of one entry. -/
def bank1 : GclBank := { len := 1, mode := false, enable := true, phase := 999999999, entries := [(125000000, 0xFFFF)] }

theorem witness_GateListsSwapAtCycleStart :
    gclUsable bank1 false = true ∧
      gclUsable { bank1 with len := 0 } false = false ∧ gclUsable { bank1 with phase := 1000000000 } false = false ∧ isP1 up = false ∧
      (let g : Gcl := { (chanAt up 0).gcl with shadow := { bank1 with phase := 0, entries := [(62500000, 1), (62500000, 2)], len := 2 }, pending := true }
       let s := setChan up 0 (fun k => { k with gcl := g })
       gclUsable (chanAt s 0).gcl.shadow (isP1 s) = true ∧ (chanAt s 0).gcl.pending = true ∧
         atEdge s (cycleNs (chanAt s 0).gcl.shadow * nsUnit) ((chanAt s 0).gcl.shadow.phase * nsUnit) = true ∧
         atEdge { s with datum := secUnit / 2 } (cycleNs (chanAt s 0).gcl.shadow * nsUnit) ((chanAt s 0).gcl.shadow.phase * nsUnit) = false) ∧
      present up 0 = true ∧ reachesChan (.vf 0) 0 = true := by decide +kernel

/-- The gates of a list of two entries: the second entry's gates hold half a second past the phase (R209). -/
theorem test_gates_follow_the_datum :
    (let k := { (chanAt up 0) with gcl := { (chanAt up 0).gcl with active := { bank1 with phase := 0, entries := [(62500000, 1), (62500000, 2)], len := 2 } } }
     gateOpen k 0 0 = true ∧ gateOpen k 0 1 = false ∧ gateOpen k (secUnit / 2) 0 = false ∧ gateOpen k (secUnit / 2) 1 = true) := by decide +kernel

/-- The uplink with a reference and a time state. -/
def timed (f : Time → Time) : State := { fibre with time := f { fibre.time with ref := some (0, 0) } }

theorem witness_DatumDisciplined :
    reachesAll .pf = true ∧ fibre.upl.gate = .ranged ∧ (1 - word fibre.upl.superframe.toNat).toNat = 1 ∧ (0 : Word) = word fibre.upl.superframe.toNat ∧
      80000 < ((0 : Word) - 1 - word fibre.upl.superframe.toNat).toNat ∧ rxLive (timed id) = true ∧ (timed id).upl.sync ≠ .hunt ∧
      (timed id).time.todStatus ≠ .armed ∧ (timed id).time.st ≠ .holdover ∧ (timed id).time.ref = some (0, 0) ∧ (timed id).time.refKind = false ∧
      (timed (fun x => { x with errNext := 7, errCount := 63 })).time.errNext = 7 ∧ (timed (fun x => { x with avgDue := some 0 })).time.avgDue = some 0 ∧
      beyondLimit up 0 = false ∧ beyondLimit up (2000 * usUnit : Nat) = true ∧ (-(10 * nsUnit : Int) ≤ 0) ∧
      (timed (fun x => { x with st := .holdover, holdErr := 5, holdMax := 4 })).time.holdErr.toNat = 5 ∧
      (timed (fun x => { x with ppsInEn := true, todStatus := .armed, todKind := true })).time.todKind = true ∧
      (timed id).pwr.state ≠ .deep ∧ (timed id).pwr.state ≠ .off := by decide +kernel

theorem witness_SecondBoundaryAndTimestamps :
    up.pwr.state ≠ .off ∧ up.pwr.domHif = true ∧ present up 23 = true ∧ (chanAt up 23).pm.pend.length < 9 ∧ ({ up.time with st := .locked }).st = .locked ∧
      up.pwr.xtal = true ∧ atEdge up secUnit 0 = true ∧ atEdge { up with datum := secUnit / 2 } secUnit 0 = false ∧ up.rad.tx = none ∧ up.rad.refill = false := by
  decide +kernel
/-! ### SEC -/

/-- A key of a kind held by an owner in slot i, generation 1. -/
def keyed (s : State) (i : Nat) (kind : BitVec 4) (o : Owner) (x : Bool) : State :=
  { s with sec := { s.sec with slots := vset s.sec.slots i { Slot.empty with valid := true, kind := kind, owner := o, exportable := x, gen := 1, key := zeros 16 } } }

/-- Ring 9 with one descriptor of an opcode. -/
def secWith (op : Half) (len p0 p1 : Word) : State := withRing up 9 [work (desc 0 op 0x2000 len p0 p1) .accepted]

/-- The bytes of an operation block of n source bytes, and the block (Table 11.4). -/
def rawBlock (n : Nat) : List Byte := bytesLE 8 0x4000 ++ bytesLE 8 0x14000 ++ bytesLE 4 n ++ zeros 44
def block (n : Word) : OpBlock := { src := 0x4000, dst := 0x14000, srcLen := n, aadLen := 0, iv := zeros 16, tag := zeros 16 }

theorem test_operation_block_bytes_parse :
    blockOf ([0x88, 0x77, 0x66, 0x55, 0x44, 0x33, 0x22, 0x11, 1, 0, 0, 0, 0, 0, 0, 0x80, 0x10, 0, 0, 0, 8, 0, 0, 0] ++ (List.range 40).map (BitVec.ofNat 8)) =
      { src := 0x1122334455667788, dst := 0x8000000000000001, srcLen := 16, aadLen := 8, iv := (List.range 16).map (BitVec.ofNat 8)
        tag := ((List.range 32).drop 16).map (BitVec.ofNat 8) } := by decide +kernel

theorem witness_CipherOperationsChecked :
    (secTaken (secWith 0x10 64 0x101 0) (.host 0) 0x10).isSome = true ∧ (secTaken up (.fw (desc 0 0x12 0 64 0 0)) 0x12).isSome = true ∧
      keyWrong up (handleIn 0x101) [1, 2] = true ∧ keyWrong (keyed up 1 1 .pf false) (handleIn 0x101) [1, 2] = false ∧
      notOwner (keyed up 1 1 .fw false) (.host 0) (handleIn 0x101) = true ∧ notOwner (keyed up 1 1 .pf false) (.host 0) (handleIn 0x101) = false ∧
      (rawBlock 65536).length = 64 ∧ blockOf (rawBlock 65536) = block 65536 ∧ secTurn (secWith 0x10 64 0x101 0) 1 = false ∧
      (let s := { up with sec := { up.sec with ops := [{ src := .fw (desc 0 0x12 0 64 0 0), d := desc 0 0x12 0 64 0 0, blk := none }] } }
       fwRuns s = true ∧ s.pwr.domHif = true ∧ s.sec.port.length < 15 ∧
         15 ≤ { s.sec with port := List.replicate 15 { d := desc 0 0x12 0 64 0 0, res := .ok, raw := [] } }.port.length) ∧
      overlap (block 16).dst.toNat (outLen (block 16)) 0x14008 64 = true ∧
      coresLeft up = 4 ∧ coresLeft { up with sec := { up.sec with retired := 15 } } = 0 ∧ 65536 < (block 65537).srcLen.toNat ∧
      (block 65536).srcLen.toNat ≤ 65536 ∧ overlap (block 65536).dst.toNat (outLen (block 65536)) (block 65536).src.toNat 65536 = false ∧
      inWindows up 0 true 0x14000 65536 = true := by decide +kernel

theorem test_length_of_63_is_returned :
    after (exec (.gcmEncrypt (.host 0) ⟨.ok, rawBlock 64⟩) (secWith 0x10 63 0x101 0)) (fun t => returnedWith t 9 0 == some (Outcome.of .retLength 0 0)) = true := by
  decide +kernel

theorem witness_KeysEnterTheStore :
    (secTaken (secWith 0x17 64 0x10000 0) (.host 0) 0x17).isSome = true ∧ secOwner (.host 0) = .pf ∧ up.sec.plainDis = false ∧
      kindMade (kindOf (desc 0 0x17 0 64 0x10000 0)) = true ∧ kindMade (kindOf (desc 0 0x17 0 64 0xC0000 0)) = false ∧
      kindBytes 11 16 = true ∧ kindBytes 2 16 = false ∧ freeKeySlot up (.host 0) = some 1 ∧
      (freeKeySlot { up with sec := { up.sec with slots := Vector.replicate 64 { Slot.empty with valid := true } } } (.host 0)) = none ∧
      (secTaken (secWith 0x18 64 0x10000 0x101) (.host 0) 0x18).isSome = true ∧ keyWrong (keyed up 1 9 .pf false) (handleIn 0x101) [9] = false ∧
      (secTaken (secWith 0x16 0 0x10000 0) (.host 0) 0x16).isSome = true ∧ up.sec.trngFail = false ∧
      (secTaken (secWith 0x1A 0 0 0x20101) (.host 0) 0x1A).isSome = true ∧ selectorOf (desc 0 0x1A 0 0 0 0x20101) = 2 ∧
      selectorOf (desc 0 0x1A 0 0 0 0x30101) = 3 ∧ selectorOf (desc 0 0x1A 0 0 0 0x80101) = 8 ∧
      keyWrong (keyed up 1 6 .pf false) (handleIn 0x101) [6] = false := by decide +kernel

theorem test_key_gen_gives_the_handle_of_the_lowest_slot :
    after (exec (.keyGen (.host 0)) (secWith 0x16 0 0x10000 0)) (fun t => (journalOf t 9 0).map (fun e => e.out.res0) == some (word (handleOf up 1).toNat)
      && (slotAt t 1).valid) = true := by decide +kernel

theorem witness_KeysExportedAndCleared :
    (let s := keyed (keyed (secWith 0x19 64 0x101 0x102) 1 1 .pf true) 2 9 .pf false
     (secTaken s (.host 0) 0x19).isSome = true ∧ (slotAt s 1).exportable = true ∧ (slotAt s 2).exportable = false) ∧
      (let s := keyed (secWith 0x1B 0 0x101 0) 1 1 .pf false
       (secTaken s (.host 0) 0x1B).isSome = true ∧ secBusy s (.host 0) = false ∧ handleLive s 0x101 = true ∧ notOwner s (.host 0) 0x101 = false) ∧
      (secTaken (secWith 0x1C 0 0x101 0) (.host 0) 0x1C).isSome = true ∧ handleLive up 0x101 = false ∧
      (secTaken (secWith 0x1D 32 0 0) (.host 0) 0x1D).isSome = true ∧ inWindows up 0 true 0x2000 32 = true := by decide +kernel

theorem test_key_clear_raises_gen :
    after (exec (.keyClear (.host 0)) (keyed (secWith 0x1B 0 0x101 0) 1 1 .pf false)) (fun t => slotAt t 1 == { Slot.empty with gen := 2 }) = true := by
  decide +kernel

theorem witness_CheckValueContexts :
    cvMine (.host 0) 5 = true ∧ cvMine (.host 0) 6 = false ∧ (secTaken (secWith 0x13 16 5 0) (.host 0) 0x13).isSome = true ∧
      (secTaken (secWith 0x14 0 5 0) (.host 0) 0x14).isSome = true ∧ (secTaken (secWith 0x15 0 5 0) (.host 0) 0x15).isSome = true ∧
      cvBad CvCtx.empty = false ∧ cvBad (cvSpelled (desc 0 0x15 0 0 0x100 0)) = true ∧ secBusy up (.host 0) = false := by decide +kernel

/-- An operation of ring 9 under way. -/
def underWay (op : Half) (b : Option OpBlock) (len p0 : Word) : State :=
  let s := withRing up 9 [work (desc 0 op 0x2000 len p0 0) .queued]
  { s with sec := { s.sec with ops := [{ src := .host 0, d := desc 0 op 0x2000 len p0 0, blk := b }] } }

theorem witness_SecOperationActsOnce :
    (∀ x ∈ [underWay 0x10 (some (block 16)) 64 0x101, underWay 0x11 (some (block 16)) 64 0x101, underWay 0x12 (some (block 16)) 64 0x200101,
        underWay 0x13 none 16 5], (x.sec.ops.find? (fun o => decide (o.src = .host 0))).isSome = true ∧ secMayEnd x (.host 0) = true) ∧
      cmacVerify (desc 0 0x12 0x2000 64 0x200101 0) = true := by decide +kernel

theorem test_failed_read_is_returned_dma :
    after (exec (.secOperationComplete (.host 0) .ca []) (underWay 0x10 (some (block 16)) 64 0x101))
      (fun t => returnedWith t 9 0 == some (Outcome.of .retDma 0 0) && t.sec.ops.isEmpty) = true := by decide +kernel

theorem witness_CoresAndRandomness :
    up.sec.retired.getLsbD 3 = false ∧ up.sec.trngFail = false ∧ ({ up.sec with trngFail := true }).trngFail = true := by decide +kernel
/-! ### The building radio -/

/-- The radio on, its path open and its governor's window empty, with work on RAD_TX. -/
def radioWith (ws : List Work) : State :=
  let s := withRing up 7 ws
  { s with rad := { s.rad with en := true, txAllow := true, gov := s.rad.gov.map (fun g => { g with buckets := [] }) } }

/-- A 16-byte RAD_FRAME on channel 0 with CSMA or neither. -/
def frameDesc (p0 : Word) : Desc := desc 0 0x0003 0x2000 16 p0 0

/-- That frame in a phase. -/
def radioIn (ph : RadPhase) (attempts : Nat) (p0 : Word) : State :=
  let s := radioWith [work (frameDesc p0) .queued]
  { s with rad := { s.rad with tx := some { seq := 0, frame := [0x21, 0x00, 9] ++ zeros 13, phase := ph, attempts := attempts, units := 0, clamped := false } } }

theorem witness_RadioFrameTakenUp :
    (let s := radioWith [work (frameDesc 0) .accepted]
     radTx s = none ∧ (workAt s 7 0 0x0003 .accepted).isSome = true ∧ radTurn s 0 = true ∧ radPath s = true ∧ radStatus s (frameDesc 0) = none ∧
       mayMaster s 0 = true ∧ inWindows s 0 false 0x2000 16 = true ∧ s.rad.paEn = false ∧ s.rad.acks = [] ∧ journalRoom s = true ∧
       neverFits s 0 1 = false ∧ lacking s 0 1 = none ∧ radPath up = false) ∧
      bitOf (frameDesc 0x200000).p0 21 = true ∧ (desc 0 3 0 2 0 0).len.toNat < 3 := by decide +kernel

theorem test_closed_path_returns_no_path :
    after (exec (.radFrame 0 .ok (zeros 16)) (withRing up 7 [work (frameDesc 0) .accepted]))
      (fun t => returnedWith t 7 0 == some (Outcome.of .retNoPath 0 0)) = true := by decide +kernel

theorem witness_RadioAttemptsFollowed :
    (radTx (radioIn (.csma 4 5 0) 0 0x200000)).isSome = true ∧ 3 + 1 ≤ maxBackoffs up ∧ maxBackoffs up < 4 + 1 ∧
      (radTx (radioIn (.lbt 0 3) 0 0x400000)).isSome = true ∧ 0 + 1 < lbtMax up ∧ lbtMax up ≤ 9 + 1 ∧
      (radTx (radioIn .waitAck 1 0x0E200000)).isSome = true ∧ bits 0x0E200000 27 25 = 7 ∧ frameSeq ([0x21, 0x00, 9] ++ zeros 13) = some 9 ∧ frameType [2, 0, 9] = 2 ∧ frameSeq [2, 0, 9] = some 9 ∧
      frameAr ([0x21, 0x00, 9] ++ zeros 13) = true ∧ (radTx (radioIn .sending 1 0)).isSome = true ∧ fcsStripped false [1, 2, 3] = none ∧
      radPath (radioIn (.lbt 0 3) 0 0x400000) = true ∧ (radioIn (.lbt 0 3) 0 0x400000).rad.paEn = false ∧ (radioIn (.lbt 0 3) 0 0x400000).rad.acks = [] ∧
      journalRoom (radioIn (.lbt 0 3) 0 0x400000) = true ∧ (ringAt (radioIn (.lbt 0 3) 0 0x400000) 7).state ≠ .recovering ∧
      neverFits (radioIn (.lbt 0 3) 0 0x400000) 0 1 = false ∧ lacking (radioIn (.lbt 0 3) 0 0x400000) 0 1 = none ∧
      bitOf (frameDesc 0x600000).p0 22 = true := by decide +kernel

theorem test_last_backoff_gives_up :
    after (exec (.csmaBackoffExpiry true) (radioIn (.csma 4 5 0) 0 0x200000)) (fun t => returnedWith t 7 0 == some (Outcome.of .retBusy 1 0)) = true := by
  decide +kernel

/-- A broadcast data frame that asks for an acknowledgement, sequence number 7, PAN and destination 0xFFFF, from PAN 0x1234's 0x5678; and its octets with a 2-octet FCS. -/
def heardBody : List Byte := [0x21, 0x88, 7, 0xFF, 0xFF, 0xFF, 0xFF, 0x34, 0x12, 0x78, 0x56, 0xAB]
def heard (p : List Byte) (room : Bool) : RadRx := { psdu := p, fcs4 := false, roomAtSfd := room, lqi := 0, rssi := 0 }

theorem witness_RadioReceptionFollowed :
    (radioWith []).rad.en = true ∧ up.rad.en = false ∧ (radioWith []).pwr.domRad = true ∧
      fcsStripped false (psduOf false heardBody) = some heardBody ∧ fcsStripped false (heardBody ++ [0, 0]) = none ∧
      (macHdr heardBody).map (fun h => (h.secured, addressed up h)) = some (false, true) ∧ hostKind heardBody = true ∧
      macHdr [0x41] = none ∧ hostKind [2, 0, 9] = false ∧
      (let s := radioWith []
       let a : RadAck := { frame := [2, 0, 9], fcs4 := false, chan := 0, idx := 1 }
       let u := { withRing s 8 [work (desc 0 0x0002 0x2000 2048 0 0) .queued] with rad := { s.rad with store := [{ body := [1], res0 := 0, res1 := 0 }], acks := [a] } }
       s.rad.ackEn = true ∧ ackFits s 0 (airtime s 0 5) = true ∧ (postedBuffer u 8).isSome = true ∧ (∀ x ∈ u.rad.acks, x.idx ≠ 0) ∧
         inWindows u 0 true 0x2000 1 = true ∧ ackFits s 0 36000001 = false) := by decide +kernel

/-- A secured data frame of level 5, key identifier mode 0, frame counter 6, between short addresses of PAN 0x1234, and its sender's entry with a CCM key. -/
def securedBody : List Byte := [0x49, 0x98, 7, 0x34, 0x12, 0xFF, 0xFF, 0x78, 0x56, 0x05, 6, 0, 0, 0] ++ zeros 8
def knows (fcMin : Word) : State :=
  let s := keyed (radioWith []) 1 10 .pf false
  { s with rad := { s.rad with dev := vset s.rad.dev 3 #v[1, 0, 0x01015678, fcMin] } }

theorem witness_RadioReceptionFollowed_secured :
    (macHdr securedBody).map (fun h => (h.secured, h.counter, h.src, devOf up h.src)) = some (true, some 6, (2, 0x5678), none) ∧
      (macHdr securedBody).map (fun h => devOf (knows 6) h.src) = some (some 3) ∧ radKey (knows 6) (devHandle (devAt (knows 6) 3)) = true ∧
      (vget (devAt (knows 6) 3) 3 0).toNat = 6 ∧ (vget (devAt (knows 7) 3) 3 0).toNat = 7 := by decide +kernel

theorem test_broadcast_is_stored_and_acknowledged :
    after (exec (.radioFrameReceived (heard (psduOf false heardBody) true)) (radioWith []))
      (fun t => t.rad.store.map (·.body) == [heardBody] && t.rad.acks.length == 1) = true ∧
      after (exec (.radioFrameReceived (heard (heardBody ++ [0, 0]) true)) (radioWith [])) (fun t => vget t.rad.cnt 5 0 == 1 && t.rad.store == []) = true := by
  decide +kernel

theorem witness_RadioDeviceTable : (30 : BitVec 5) ≠ 31 ∧ devAt up 30 = Vector.replicate 4 0 := by decide +kernel
/-! ### Supply and feeds -/

/-- Channel 23's feed in a state. -/
def fed (st : FeedSt) (tries : Nat) : State :=
  setChan up 23 (fun k => { k with feed := { k.feed with state := st, gate := true, tries := tries, cfg := { k.feed.cfg with enable := true, width := 64, iOpen := 2 } } })

/-- Comparator i with an open disturbance. -/
def disturbed (i : Nat) (l : Lvl) (int : Bool) : State :=
  { up with sup := { up.sup with comps := vset up.sup.comps i { Comp.reset with lvl := l, dist := some { start := 5, valid := false, int := int } } } }

theorem witness_FeedTripsAndRecovery :
    (chanAt (fed .established 2) 23).feed.gate = true ∧ feedRunning (chanAt (fed .established 3) 23).feed = true ∧ (chanAt (fed .pulsing 3) 23).feed.tries = 3 ∧
      (chanAt (fed .lockedOff 0) 23).feed.state = .lockedOff ∧ (chanAt (fed .paused 0) 23).feed.state = .paused ∧ (chanAt up 23).feed.gate = false ∧
      present up 23 = true := by decide +kernel

theorem test_fourth_trip_locks_off :
    after (exec (.feedOverloadTrip 23) (fed .established 3)) (fun t => (chanAt t 23).feed.state == .lockedOff && (chanAt t 23).feed.last == 2) = true ∧
      after (exec (.feedOverloadTrip 23) (fed .established 2)) (fun t => (chanAt t 23).feed.state == .backoff && (chanAt t 23).feed.tries == 3) = true := by
  decide +kernel

theorem witness_FeedAdmittedAndMeasured :
    feedUsed up ≤ up.sup.budget.toNat ∧ inrushCount up ≤ up.sup.inrushMax.toNat ∧ up.pwr.domFeed = true ∧ (chanAt up 23).feed.state ≠ .waitBudget ∧
      (chanAt (fed .inrush 0) 23).feed.state = .inrush ∧ (chanAt (fed .pulsing 0) 23).feed.state = .pulsing ∧
      windowTaken (chanAt (fed .established 0) 23).feed = true ∧ windowTaken (chanAt (fed .pulsing 0) 23).feed = false ∧
      up.sup.feedBack = none ∧ { up.sup with feedBack := some 0 }.feedBack = some 0 ∧ up.datum < 0 + 64 * usUnit ∧ feedLow up = false ∧ 2 * 10 ≤ (20 : Half).toNat ∧ (19 : Half).toNat < 2 * 10 := by decide +kernel

theorem witness_FeedSwitchedOff : present up 23 = true ∧ up.pwr.state ≠ .off ∧ present (State.resetOf .gnx1200) 11 = true := by decide +kernel

theorem witness_SupplyCrossingsFollowed :
    up.pwr.state ≠ .off ∧ (compAt up 0).dist = none ∧ up.sup.sealing = false ∧ possible (compAt up 0) .low = true ∧
      possible (compAt (disturbed 0 .low false) 0) .low = false ∧ possible (compAt (disturbed 2 .low false) 2) .int = true ∧
      possible (compAt (disturbed 2 .int true) 2) .int = false ∧ (compAt (disturbed 1 .low false) 1).dist.isSome = true ∧ up.pwr.domFeed = true := by
  decide +kernel

theorem test_battery_int_is_declared :
    after (exec (.levelCrossingDeclared .bat .int) up) (fun t => (compAt t 1).lvl == .int && !t.sup.sealing) = true := by decide +kernel

/-- A seal under way. -/
def sealingIn (st : PwrSt) (l : Lvl) : State :=
  let s := disturbed 0 l false
  { s with pwr := { s.pwr with state := st }, sup := { s.sup with sealing := true } }

theorem witness_SealEndsInServiceOrPowerDown :
    (sealingIn .run .low).sup.sealing = true ∧ sealWritten (sealingIn .deep .low) = true ∧ sealWritten (sealingIn .run .low) = false ∧
      (let s := { sealingIn .run .low with sup := { (sealingIn .run .low).sup with sealPhase := 3 } }
       sealWritten s = true ∧ s.pwr.state = .run ∧ s.glb.inReset = false) ∧ up.ledger.inFlight = [] ∧ (sealingIn .run .low).sup.heldReset = none ∧
      sealResumes { up with sup := { up.sup with sealing := true } } = true ∧ sealResumes (sealingIn .run .low) = false ∧
      (sealingIn .deep .low).pwr.state = .deep := by decide +kernel
/-! ### Power states -/

/-- A power record changed. -/
def powerWith (f : Pwr → Pwr) : State := { up with pwr := f up.pwr }

/-- POWERING_DOWN at a step, every enable high. -/
def goingDown (k : Nat) (off : Bool) : State :=
  powerWith (fun p => { p with state := .poweringDown, downStep := k, toOff := off, enCore := true, enSds := true, enCh := true, enAfe := true })

/-- The worked example of 18_pins_electrical.md: channels 7 and 19 in rows AC and AD, and the centre field beside them. -/
theorem test_balls_of_channels_7_and_19 :
    ["AC", "AD", "AE"].map (fun x => rowNames.idxOf x + 1) = [22, 23, 24] ∧
      [1, 2, 3, 4, 5, 6].map (ballAt 22) =
        [.signal (.lnTxP 7), .signal (.lnTxN 7), .supply .vss, .signal (.lnRxP 7), .signal (.lnRxN 7), .supply .vddAfe] ∧
      [2, 3, 4].map (ballAt 23) = [.signal (.drvEn 7), .signal (.feedGate 7), .signal (.feedIsns 7)] ∧
      [35, 34, 32, 31].map (ballAt 22) = [.signal (.lnTxP 19), .signal (.lnTxN 19), .signal (.lnRxP 19), .signal (.lnRxN 19)] ∧
      [34, 33, 32].map (ballAt 23) = [.signal (.drvEn 19), .signal (.feedGate 19), .signal (.feedIsns 19)] ∧
      [7, 9, 10].map (ballAt 22) = [.supply .vddAfe, .supply .vddCore, .supply .vss] := by decide +kernel

theorem test_pulls_hold_outputs_of_domains_that_are_off :
    ballLevel (powerWith (fun p => { p with domUpl := false, domFeed := false })) .optTxDisable = some .high ∧
      ballLevel (powerWith (fun p => { p with domUpl := false, domFeed := false })) (.feedGate 7) = some .low ∧
      (Signal.tdo).powered (powerWith (fun p => { p with domCore := false })) = false := by decide +kernel

/-- Waking at a step. -/
def comingUp (k : Nat) (wait : Bool) : State := powerWith (fun p => { p with state := .waking, upStep := k, retryWait := wait })

theorem witness_PowerDownStepsInOrder :
    (goingDown 11 false).pwr.state = .poweringDown ∧ (goingDown 11 true).pwr.toOff = true ∧ (goingDown 11 false).pwr.latchedWake = none ∧
      (goingDown 6 false).pwr.domHif = true ∧ railOn (goingDown 6 false).pwr .afe = true ∧ (goingDown 6 false).pwr.collapsed.contains .afe = false ∧
      up.pwr.state ≠ .poweringDown := by decide +kernel

theorem test_down_step_10_stops_the_pll :
    after (exec .powerDownStep (goingDown 10 false)) (fun t => t.pwr.downStep == 11 && !t.time.pllLock && !t.pwr.enCore) = true := by decide +kernel

theorem witness_PowerUpStepsInOrder :
    (comingUp 1 false).pwr.retryWait = false ∧ (comingUp 8 false).pwr.upStep = 8 ∧ (comingUp 8 false).pwr.state = .waking ∧
      (comingUp 7 true).pwr.retryWait = true ∧ (comingUp 3 false).pwr.upStep = 3 ∧ up.pwr.upStep = 0 := by decide +kernel

theorem test_up_step_4_locks_the_pll :
    after (exec .powerUpStep (comingUp 4 false)) (fun t => t.pwr.step == 4 && t.pwr.upStep == 5 && t.time.pllLock) = true := by decide +kernel

theorem witness_IdleSleepAndWake :
    up.pwr.state = .run ∧ up.pwr.floor ≠ 0 ∧ coresIdle up = true ∧ coresIdle State.reset = false ∧
      sleepQuiet (powerWith (fun p => { p with state := .idle, floor := 2 })) = true ∧
      (chanAt (inService up 23) 23).tab.state = .service ∧ (powerWith (fun p => { p with state := .deep })).pwr.wakeBits.getLsbD 0 = true ∧
      up.pwr.wakeBits.getLsbD 1 = false ∧ word (instSec up.datum) = up.pwr.alarm := by decide +kernel

theorem test_idle_timer_halts_the_processors :
    after (exec .idleTimerExpiry up) (fun t => t.pwr.state == .idle && t.fw.cp0 == .halted && t.fw.cp1 == .halted) = true := by decide +kernel

/-- Ring 0 with one command of an opcode, every channel OFF. -/
def command (op : Half) (addr : DWord) (len p0 p1 : Word) : State := withRing up 0 [work (desc 0 op addr len p0 p1) .accepted]

theorem witness_EntryRequestedAndAbandoned :
    (cmdWork (command 0x0120 0 0 1 0) 0 0 0x0120).isSome = true ∧ bits 1 1 0 = 1 ∧ 2 ≤ bits 2 1 0 ∧
      mayRequest (command 0x0120 0 0 1 0) = true ∧ quiescent (command 0x0120 0 0 1 0) (some 0) = true ∧
      1200 < retLoad { up.pwr with extUa := 255 } 63 ∧ (powerWith (fun p => { p with state := .entering })).pwr.state = .entering ∧
      up.hif.linkUp = true ∧ entryCheck (command 0x0120 0 0 1 0) (some 0) true = 0 ∧ entryCheck (command 0x0120 0 0 0 0) (some 0) false = 0 ∧
      entryCheck up none true = 0 ∧ entryCheck (inService up 23) none true ≠ 0 ∧ ledgerLive up = true ∧
      ledgerLive { up with ledger := State.reset.ledger } = false ∧ ledgerQuiet { up with ledger := State.reset.ledger } = true ∧
      mayRequest (inService up 23) && quiescent (inService up 23) none = false := by decide +kernel
/-! ### Processors, images, settings, capsules and identity -/

/-- An image header that boots. -/
def image0 : ImageHdr :=
  { version := 1, svn := 0, raiseFloor := false, p1 := true, p2 := true, schemaMin := 1, schemaMax := 1, migrateMin := 1, length := 4096,
    magicOk := true, sigOk := true }

/-- Firmware running slot A, confirmed, with slot B in a state. -/
def slotB (st : SlotSt) (live : Bool) : State :=
  { command 0x0130 0x2000 4096 0xBFF 0 with fw := { up.fw with
      runSlot := 1
      slotA := { ImgSlot.empty with st := .confirmed, hdr := some image0 }
      slotB := { ImgSlot.empty with st := st, hdr := some image0 }
      trialLive := live
      timerOn := live } }

theorem witness_ProcessorsWatched :
    (let s := { up with datum := 2000 * msUnit }
     cpState s 0 = .running ∧ cpState s 1 = .running ∧ wdgOver s 1 = true ∧ wdgTwice s 1 = false ∧ wdgOver up 1 = false ∧
       wdgTwice { s with fw := { s.fw with lastWdg := vset s.fw.lastWdg 1 (some 0) } } 1 = true) ∧ up.pwr.domCore = true ∧
      ({ up.fw with cp1 := .reset }).cp1 = .reset ∧ up.sup.sealing = false ∧
      up.glb.inReset = false ∧ (let h : PtpHalf := { domain := 0, seqId := 0, t := 0, out := none }
        h.t + secUnit ≤ ({ up with datum := secUnit }).datum ∧ up.datum < h.t + secUnit) := by decide +kernel

theorem test_expired_watchdog_resets_its_processor :
    after (exec (.watchdogExpiry 1) { up with datum := 2000 * msUnit }) (fun t => t.fw.cp1 == .reset && t.fw.cp0 == .running && t.fw.wdgResets == 1) = true := by
  decide +kernel

theorem witness_ImagesStagedAndActivated :
    (cmdWork (slotB .valid false) 0 0 0x0130).isSome = true ∧ runsTrial (slotB .valid false) = false ∧ mayMaster (slotB .valid false) 0 = true ∧
      inWindows (slotB .valid false) 0 false 0x2000 4096 = true ∧ 0xBFF * 4096 + 4096 ≤ 0xC00000 ∧ 0xC00000 < 0xC00 * 4096 + 4096 ∧
      (zeros 4096).length = 4096 ∧ inactive (slotB .valid false) = 2 ∧ activateWhy (slotB .valid false) (fwSlot (slotB .valid false) 2) = 0 ∧
      activateWhy up ImgSlot.empty = 1 ∧ (fwSlot (slotB .valid false) 1).st = .confirmed ∧ (cmdWork (command 0x0131 0 0 0 0) 0 0 0x0131).isSome = true := by
  decide +kernel

theorem witness_TrialConfirmedOrRejected :
    trialSlot (slotB .trial true) = some 2 ∧ trialSlot (slotB .valid false) = none ∧ (slotB .trial true).fw.restricted = false ∧
      (slotB .trial true).fw.timerOn = true ∧ (slotB .trial true).fw.left.toNat ≤ 1 ∧ (slotB .trial true).pwr.state ≠ .off ∧ (cmdWork (command 0x0132 0 0 0 0) 0 0 0x0132).isSome = true ∧
      (cmdWork (command 0x0133 0 0 0 0) 0 0 0x0133).isSome = true ∧ up.pwr.domCore = true := by decide +kernel

theorem test_armed_confirm_confirms :
    after (exec .fwSlotConfirm (slotB .trial true)) (fun t => t.fw.slotB.st == .confirmed && !t.fw.trialLive) = true := by decide +kernel

/-- A generation of the settings of a schema, and of a position of its own. -/
def setting (gen : Word) (schema : Nat) : SetGen :=
  { pos := gen.toNat, gen := gen, schema := schema, fromCapsule := false, migrated := false, parent := 0, writer := 1 }

theorem witness_HandoverAndFlashGuard :
    (fwSlot (slotB .valid false) 1).hdr = some image0 ∧ bootSel (slotB .valid false) = 1 ∧
      scanGens image0 (gensFound [setting 3 1, setting 2 1] []) = some (setting 3 1, false) ∧
      scanGens image0 (gensFound [setting 3 9, setting 2 1] []) = some (setting 2 1, false) ∧
      topGen (gensFound [setting 3 9, setting 2 1] []) = some (setting 3 9) ∧
      scanGens { image0 with schemaMin := 2, schemaMax := 2 } (gensFound [setting 3 1] []) = some (setting 3 1, true) ∧
      scanGens image0 (gensFound [] [[]]) = none ∧ bootSel (slotB .trial true) = 2 ∧ bootSel State.reset = 0 ∧
      ({ (slotB .valid false).fw with cp0 := .bootMonitor }).cp0 = .bootMonitor ∧ slotOpen (slotB .trial true) 2 = false ∧
      slotOpen (slotB .valid false) 2 = true ∧ slotOpen (slotB .valid false) 1 = false ∧ cpServes (slotB .valid false) = true ∧
      flashAllowed (slotB .valid false) 0xC20000 4096 = true ∧ touches 0x1FFFF 1 0 0x20000 = true ∧ touches 0x20000 1 0 0x20000 = false := by
  decide +kernel

theorem test_flash_write_below_the_slots_is_denied :
    after (exec (.flashWrite .erase 0x1F000 4096) (slotB .valid false)) (fun t => t.evt.store.length == up.evt.store.length && t.fw == (slotB .valid false).fw) = true := by
  decide +kernel

/-- The bytes of a capsule of a kind for any unit, without a body (Table 15.9). -/
def capsuleRaw (kind seq : Nat) : List Byte := bytesLE 4 0x50534143 ++ bytesLE 4 kind ++ zeros 8 ++ bytesLE 4 seq ++ bytesLE 2 1 ++ zeros 490

/-- That capsule, signed by the operator. -/
def capsule (kind seq : Nat) : Capsule := capsuleOf (capsuleRaw kind seq) { operator := true, dravhar := true }

/-- The terminal knowing its record, copy 1 of an operator's key. -/
def known : State := { up with fw := { up.fw with rec_ := { IdRec.blank with operatorKey := [1] }, recKnown := true, recCopy := 1 } }

/-- What a unit writes as its record is a valid copy (R348, R349). -/
theorem recGood_recBytes (s : State) (r : IdRec) : recGood (recBytes s r) = true := by
  have hf : ∀ (n : Nat) (b : List Byte), (fit n b).length = n := fun n b => by simp [fit, zeros]
  have h : closureOk (recBytes s r) 4096 = true := closureOk_closed _ _ (by rw [hf])
  have h0 : leAt (recBytes s r) 0 4 = 0x54444E49 := by
    simp [leAt, recBytes, closed, fit, bytesLE, ofLE]
  have h4 : leAt (recBytes s r) 4 2 = 1 := by
    simp [leAt, recBytes, closed, fit, bytesLE, ofLE]
  simp [recGood, h, h0, h4]

theorem witness_CapsulesAndIdentity :
    (cmdWork (command 0x0134 0x2000 512 0 0) 0 0 0x0134).isSome = true ∧ mayMaster up 0 = true ∧
      capsuleReject (slotB .valid false) (capsule 0 1) = some (Outcome.of .retParam 0 0) ∧
      capsuleReject (slotB .valid false) (capsule 3 1) = some (Outcome.of .retDenied 4 0) ∧
      (let s := { slotB .valid false with fw := { (slotB .valid false).fw with rec_ := { IdRec.blank with operatorKey := [1] } } }
       capsuleReject s (capsule 3 1) = none ∧ capsuleReject s (capsule 3 0) = some (Outcome.of .retDenied 3 0)) ∧
      (capsuleRaw 3 1).length = 512 ∧ ({ operator := false, dravhar := false } : SigKeys).operator = false ∧ up.glb.loaded = false ∧ up.pwr.domCore = true ∧
      ({ up with hif := { up.hif with crs := true } }).hif.crs = true ∧ up.hif.crs = false ∧
      (if up.fw.recKnown then (up.fw.recCopy, up.fw.rec_) else pickCopy [] []) = (0, IdRec.blank) ∧ recGood [] = false ∧
      (if known.fw.recKnown then (known.fw.recCopy, known.fw.rec_) else pickCopy [] []) = (1, { IdRec.blank with operatorKey := [1] }) := by decide +kernel
/-! ### Register accesses, configuration space, events and the management port -/

theorem witness_AccessServedRefusedOrHeld :
    up.pwr.testEn = false ∧ otherPort .pf 0x40 = false ∧ otherPort .pf 0x70120 = true ∧ barServes up .pf = true ∧ barServes up (.vf 7) = false ∧ viewOff .pf 0x40 = some 0x40 ∧ viewOff (.vf 7) 0xE0C0 = none ∧ holdsReg up 0x40 = true ∧
      domReady up (regDomain 0x40) = true ∧ up.pwr.waiting = [] ∧ pairLow 0x40 = false ∧ lookup up.hif.latchPcie 0x40 = none ∧
      domReady (powerWith (fun p => { p with domRad := false })) (regDomain 0x90000) = false ∧ canReady up .rad = true ∧
      (powerWith (fun p => { p with woken := [.core] })).pwr.woken.contains .core = true := by decide +kernel

theorem witness_RegistersWrittenByAccessType :
    barServes up .pf = true ∧ up.pwr.testEn = false ∧ up.pwr.state ≠ .entering ∧ up.pwr.waiting = [] ∧ up.pwr.domHif = true ∧ up.pwr.domUpl = true ∧
      holdsReg up 0x48 = false ∧ viewOff .pf (0x48 : BitVec 22).toNat = some 0x48 ∧ (0x704FC : BitVec 22).toNat = 0x70400 + 4 * (63 : Fin 64).val ∧
      ({ up.upl with lock := true }).lock = true ∧ viewOff (.vf 23) 0xDFFC = some (0x100000 + 0x10000 * 23 + 0xDFFC) ∧
      viewOff (.vf 23) 0xE0BF = some (0x12000 + 0x20 * (16 + 6 * 23) + 0xBF) ∧ viewOff (.vf 23) 0xF000 = some 0x417000 := by decide +kernel

theorem test_lock_all_locks_the_uplink :
    after (exec (.lockAll .pf) up) (fun t => t.upl.lock && t.hif.lock && t.rad.lock && t.sup.lock && t.sec.lock) = true := by decide +kernel

theorem witness_FunctionEnablesFollowed :
    configServed up = true ∧ configServed State.reset = false ∧ up.ledger.waiting = [] ∧
      vfOn { up with hif := { up.hif with vfEnable := true, numVfs := 24 } } 23 = true ∧ ringChan 159 = some 23 ∧ ringChan 15 = none ∧
      (powerWith (fun p => { p with state := .entering })).pwr.state = .entering := by decide +kernel

theorem test_num_vfs_8_gives_no_vf_to_channel_8 :
    after (exec (.vfEnableWrite true 8) up) (fun t => vfOn t 7 && !vfOn t 8) = true := by decide +kernel

theorem witness_EventsRaisedAndCounted :
    reachesCounter up (.vf 23) (.ch 23 3) = true ∧ reachesCounter up (.vf 22) (.ch 23 3) = false ∧ reachesCounter up .pf (.pf 31) = true ∧
      bits 0xC0000000 31 30 = 3 ∧ (ringAt (withRing up 2 []) 2).enable = true ∧ up.evt.store.length < 256 ∧
      isLevelSource 92 = false := by decide +kernel

/-- The management port selected in a mode. -/
def selected (m : AhnMode) (armed : Option Nat) : State :=
  { up with mgt := { up.mgt with selected := true, mode := m, armed := armed } }

theorem witness_ManagementHeaders :
    up.pwr.state ≠ .off ∧ up.mgt.selected = false ∧ (20 : Nat) ≤ 20 ∧ (19 : Nat) < 20 ∧ (selected .header none).mgt.mode = .header ∧
      (armedReg 0x00C007).isSome = true ∧ (armedReg (0x0400C5 + 0x4000 * 23)).isSome = true ∧ armedReg (0x0400C5 + 0x4000 * 24) = none ∧
      (selected .header (some 0x00C007)).mgt.armed = some (0x00C007 : BitVec 24).toNat ∧ knownOpcode 0 = false ∧ knownOpcode 0x3C000000 = true := by
  decide +kernel

theorem test_short_high_does_not_select :
    after (exec (.ahnairSelectFall false 19) up) (fun t => !t.mgt.selected) = true ∧
      after (exec (.ahnairSelectFall false 20) up) (fun t => t.mgt.selected && t.mgt.allOnes) = true := by decide +kernel

theorem witness_ManagementDataWords :
    (selected (.reading 0x100000) none).mgt.mode = .reading 0x100000 ∧ (selected (.writing 0x34006) none).mgt.mode = .writing (0x34004 + 2) ∧
      armedReg (0x0400C5 + 0x4000 * 23) = some (.feedCtl 23) ∧ bits 0xFFFD0002 31 16 + bits 0xFFFD0002 15 0 = 0xFFFF ∧
      bits 0xFFFC0002 31 16 + bits 0xFFFC0002 15 0 ≠ 0xFFFF ∧ present up 23 = true ∧ bitOf 0xFFFD0002 1 = true := by decide +kernel

theorem test_armed_bmc_off :
    after (exec (.ahnairDataWord 0xFFFD0002) (selected (.armedFirst (0x0400C5 + 0x4000 * 23)) none)) (fun t => (chanAt t 23).feed.bmcOff) = true ∧
      after (exec (.ahnairDataWord 0xFFFC0002) (selected (.armedFirst (0x0400C5 + 0x4000 * 23)) none))
        (fun t => !(chanAt t 23).feed.bmcOff && t.mgt.armErr) = true := by decide +kernel
/-! ### Invariants and rules stated whole -/

theorem witness_EveryCommandKeepsTheRootKey : RootKeyHeld State.reset ∧ (∃ t, step State.reset = .next t) :=
  ⟨⟨rfl, rfl, rfl, rfl, rfl⟩, ⟨_, rfl⟩⟩

theorem witness_StoppedGateLeavesOnlyByEnableOrPowerOn :
    (fibreWith (fun u => { u with gate := .stopped })).upl.gate = .stopped ∧ up.pwr.state ≠ .off ∧
      after (exec .psyncExpectedMiss (fibreWith (fun u => { u with gate := .stopped }))) (fun t => t.upl.gate == .stopped) = true := by decide +kernel

theorem witness_NoCommandTouchesQueueOrPart : completes (exec .idleExit up) = true ∧ completes (exec .powerOn up) = true := by decide +kernel

theorem witness_NoRunOfWellFormedCommandsStops :
    ∀ c ∈ ({ up with pending := [Instr.powerOn, .idleExit] }).pending, c.wf = true := by decide +kernel

theorem witness_AdoptedRingIsTheRecordedRing : hostWritten 0 = true ∧ hostWritten 159 = true ∧ hostWritten 1 = false := by decide +kernel

theorem witness_EveryWellFormedCommandCompletes :
    (Instr.powerOn).wf = true ∧ completes (exec .idleExit up) = true ∧ (∀ c ∈ State.reset.pending, c.wf = true) := by decide +kernel

theorem witness_VfWriteReachesItsChannelAlone : up.pwr.state ≠ .entering ∧ ringChan 153 = some 22 ∧ ringChan 154 = some 23 := by decide +kernel

theorem witness_NoFetchUnlessLedgerActive :
    ledgerState State.reset ≠ 1 ∧ ledgerState up = 1 ∧ (ringAt State.reset 159).fetch = none ∧ (ringAt State.reset 159).refetch = none ∧
      completes (exec .idleExit State.reset) = true := by
  decide +kernel

theorem witness_DatumReadLatchesItsOtherRegisters :
    barServes up .pf = true ∧ up.pwr.waiting = [] ∧ up.pwr.testEn = false ∧ isFw (.fw 1) = true ∧ barServes up (.fw 1) = true := by decide +kernel

theorem witness_IncompleteWordDiscarded : portLive (selected .header none) = true ∧ (selected .header none).mgt.selected = true ∧ 33 % 32 ≠ 0 := by
  decide +kernel

theorem witness_DiagnosticValidOnlyAfterGoodRead : NoDiagWhileAbsent State.reset ∧ fibre.pwr.domUpl = true ∧
    vget (Vector.replicate 5 (none : Option Half)) 4 none = none ∧ fibre.upl.modAbs = false ∧ vget (Vector.replicate 5 (some (7 : Half))) 4 none = some 7 :=
  ⟨by unfold NoDiagWhileAbsent; decide +kernel, by decide +kernel, by decide +kernel, by decide +kernel, by decide +kernel⟩

theorem witness_WindowsChangedByThePfAlone :
    up.pwr.testEn = false ∧ barServes up .pf = true ∧ up.pwr.domHif = true ∧ up.pwr.waiting = [] ∧ up.pwr.state ≠ .entering ∧ 24 ≤ up.part.channels ∧ up.hif.lock = false ∧
      ({ up.hif with lock := true }).lock = true ∧ (0x11C7C : BitVec 22).toNat = 0x11000 + 0x80 * 24 + 0x10 * 7 + 4 * 3 ∧
      lookup (({ up.hif with winLo := [(0x11C70, 7)] }).winLo) 0x11C70 = some 7 := by decide +kernel
/-! ### Ill-formed commands -/

theorem wf_fetch_of_257_bytes : (Instr.descriptorFetchComplete 0 .ok (zeros 257)).wf = false ∧
    (Instr.descriptorFetchComplete 0 .ok (zeros 256)).wf = true := by decide +kernel

theorem wf_table_phase_of_8_bytes : (Instr.chtabReadPhaseComplete 0 .ok (zeros 8)).wf = false ∧
    (Instr.chtabReadPhaseComplete 0 .ok (zeros 4)).wf = true ∧ (Instr.chtabReadPhaseComplete 0 .ca (zeros 8)).wf = true := by decide +kernel

/-- An image whose headers are short. -/
def shortImage : LedgerImage := { hdrA := [], hdrB := [], recsA := [], recsB := [], spill := [], tribs := [] }

theorem wf_short_ledger_image : (Instr.ledgerAdopt .pf .ok shortImage).wf = false ∧ (Instr.ledgerRetry .ok shortImage).wf = false := by decide +kernel

theorem wf_frame_boundary : (Instr.tddFrameBoundary 0 { frameRx 0 with adc := [List.replicate 8639 0] }).wf = false ∧
    (Instr.tddFrameBoundary 0 { frameRx 0 with eoc := zeros 15 }).wf = false ∧ (Instr.tddFrameBoundary 0 { frameRx 0 with pcmIn := [] }).wf = false ∧
    (Instr.tddFrameBoundary 0 { frameRx 0 with pcmIn := [[], []] }).wf = false ∧ (Instr.tddFrameBoundary 0 (frameRx 0)).wf = true := by decide +kernel

theorem wf_codeword_of_239_bytes : (Instr.overheadReceived 0 [zeros 240, zeros 239]).wf = false ∧ (Instr.overheadReceived 0 [zeros 240]).wf = true := by
  decide +kernel

theorem wf_block_of_63_bytes :
    (∀ i ∈ [Instr.gcmEncrypt (.host 0) ⟨.ok, zeros 63⟩, .gcmDecrypt (.host 0) ⟨.ok, zeros 63⟩, .cmac (.host 0) ⟨.ok, zeros 63⟩, .keyLoad (.host 0) ⟨.ok, zeros 63⟩,
      .keyImport (.host 0) ⟨.ok, zeros 63⟩, .keyExport (.host 0) ⟨.ok, zeros 63⟩, .ccmStar (.host 0) ⟨.ok, zeros 63⟩], i.wf = false) ∧
      (Instr.gcmEncrypt (.host 0) ⟨.ok, zeros 64⟩).wf = true ∧ (Instr.gcmEncrypt (.host 0) ⟨.timeout, []⟩).wf = true := by decide +kernel

theorem test_ill_formed_fetch_faults :
    completes (exec (.descriptorFetchComplete 0 .ok (zeros 257)) (setRing (withRing up 0 []) 0 (fun g => { g with fetch := some (0, 8) }))) = false := by
  decide +kernel

end Sys2Proof.Tests
end

/-! # R55: only the PF changes a window, and not once HIF_LOCK is set

The windows and their LOCK are two fields of one state that every command acts on. The proof says, once for each operation of the model, that it
leaves both as they are (the lemmas `_guarded`, by chapter); then what the resets and LOCK_ALL leave (`HeldOrReset`); then what a register write
does to them; and last what a write of the PF or of firmware to a window's register does. -/

namespace Sys2Proof.Machine

open Sys2Proof

/-- What HIF_LOCK guards (R55): the windows, and the LOCK itself. -/
def Hif.guarded (h : Hif) : Vector (Vector Window 8) 25 × Bool := (h.windows, h.lock)

@[simp] theorem guarded_mk (lock linkUp width speed faultValid faultKind faultRing faultFn faultAddr windows winLo funcs vfEnable numVfs
    mps256 mrrs crs perst pcieWake rrExpress rrControl rrBulk fetchStop l2 latchPcie latchAhn) :
    (Hif.mk lock linkUp width speed faultValid faultKind faultRing faultFn faultAddr windows winLo funcs vfEnable numVfs mps256 mrrs crs
      perst pcieWake rrExpress rrControl rrBulk fetchStop l2 latchPcie latchAhn).guarded = (windows, lock) := rfl

@[simp] theorem guarded_eta (h : Hif) : (h.windows, h.lock) = h.guarded := rfl

@[simp] theorem guarded_ite (p : Prop) [Decidable p] (a b : State) :
    (if p then a else b).hif.guarded = if p then a.hif.guarded else b.hif.guarded := by split <;> rfl

@[simp] theorem foldl_guarded {α : Type} (f : State → α → State) (h : ∀ s a, (f s a).hif.guarded = s.hif.guarded) (l : List α) (s : State) :
    (l.foldl f s).hif.guarded = s.hif.guarded := foldl_keeps (fun t => t.hif.guarded) f h l s

theorem EvtOnly.guarded {s t : State} (h : EvtOnly s t) : t.hif.guarded = s.hif.guarded := by rw [h]; rfl

/-! ### Iteration -/

theorem iter_guarded (f : State → State) (h : ∀ s, (f s).hif.guarded = s.hif.guarded) (n : Nat) (s : State) :
    (iter f n s).hif.guarded = s.hif.guarded := by
  induction n generalizing s with
  | zero => rfl
  | succ n ih => rw [iter, ih, h]

/-! ### Occurrences (R365 to R372) -/

@[simp] theorem sendMsix_guarded (s : State) (fv : Nat × Nat) : (sendMsix s fv).hif.guarded = s.hif.guarded :=
  (sendMsix_evtOnly s fv).guarded
@[simp] theorem sendAll_guarded (s : State) (l : List (Nat × Nat)) : (sendAll s l).hif.guarded = s.hif.guarded :=
  (sendAll_evtOnly s l).guarded
@[simp] theorem raise_guarded (s : State) (src scope : Nat) (info1 : Word) : (raise s src scope info1).hif.guarded = s.hif.guarded :=
  (raise_evtOnly s src scope info1).guarded
@[simp] theorem raiseC_guarded (s : State) (src scope inc : Nat) : (raiseC s src scope inc).hif.guarded = s.hif.guarded :=
  (raiseC_evtOnly s src scope inc).guarded

/-! ### Shared operations (chapters 02, 03) -/

@[simp] theorem setPwr_guarded (s : State) (st : PwrSt) : (setPwr s st).hif.guarded = s.hif.guarded := by simp [setPwr]
@[simp] theorem leaveSleep_guarded (s : State) : (leaveSleep s).hif.guarded = s.hif.guarded := by simp [leaveSleep]
@[simp] theorem ponWake_guarded (s : State) : (ponWake s).hif.guarded = s.hif.guarded := by simp [ponWake]
@[simp] theorem fwDenied_guarded (s : State) (off : Nat) : (fwDenied s off).hif.guarded = s.hif.guarded :=
  (fwDenied_evtOnly s off).guarded
@[simp] theorem latchFault_guarded (s : State) (kind ring fn addr : Nat) : (latchFault s kind ring fn addr).hif.guarded = s.hif.guarded := by
  unfold latchFault; split <;> rfl
@[simp] theorem ringWindowFault_guarded (s : State) (r addr : Nat) : (ringWindowFault s r addr).hif.guarded = s.hif.guarded := by
  simp [ringWindowFault]
@[simp] theorem countRecord_guarded (s : State) (q : Nat) (irq : Bool) : (countRecord s q irq).hif.guarded = s.hif.guarded := by
  unfold countRecord; (repeat' split) <;> simp
@[simp] theorem issueRecord_guarded (s : State) (q : Nat) (addr : Nat) (x : Issued) : (issueRecord s q addr x).hif.guarded = s.hif.guarded := by
  simp [issueRecord]
@[simp] theorem ledgerFault_guarded (s : State) (x : LXfer) (isRead : Bool) : (ledgerFault s x isRead).hif.guarded = s.hif.guarded := by
  simp [ledgerFault]
@[simp] theorem ledgerWrite_guarded (s : State) (x : LXfer) (off : Nat) (bytes : List Byte) :
    (ledgerWrite s x off bytes).hif.guarded = s.hif.guarded := by
  simp [ledgerWrite]
@[simp] theorem writeBench_guarded (s : State) (r : RingNo) : (writeBench s r).hif.guarded = s.hif.guarded := by simp [writeBench]
@[simp] theorem writeBenches_guarded (s : State) (l : List RingNo) : (writeBenches s l).hif.guarded = s.hif.guarded := by simp [writeBenches]
@[simp] theorem writeHdr_guarded (s : State) (copyB : Bool) : (writeHdr s copyB).hif.guarded = s.hif.guarded := by simp [writeHdr]
@[simp] theorem writeHeaders_guarded (s : State) : (writeHeaders s).hif.guarded = s.hif.guarded := by simp [writeHeaders]

/-! ### Records, seals and refused accesses (chapters 02, 03) -/

@[simp] theorem holdRecord_guarded (s : State) (q : Nat) (addr : Nat) (windowCause : Bool) :
    (holdRecord s q addr windowCause).hif.guarded = s.hif.guarded := by
  simp [holdRecord, stall]
@[simp] theorem markIssued_guarded (s : State) (x : RecSrc) : (markIssued s x).hif.guarded = s.hif.guarded := by unfold markIssued; split <;> simp
@[simp] theorem putRecord_guarded (s : State) (q : Nat) (x : Issued) : (putRecord s q x).hif.guarded = s.hif.guarded := by simp [putRecord]
@[simp] theorem rewriteLost_guarded (s : State) (q : Nat) : (rewriteLost s q).hif.guarded = s.hif.guarded := by unfold rewriteLost; split <;> simp
@[simp] theorem tryRecord_guarded (s : State) (r : Nat) : (tryRecord s r).hif.guarded = s.hif.guarded := by
  unfold tryRecord; dsimp only; (repeat' split) <;> simp
@[simp] theorem tryEvent_guarded (s : State) : (tryEvent s).hif.guarded = s.hif.guarded := by unfold tryEvent; split <;> simp
@[simp] theorem sealRing_guarded (n : Nat) (s : State) (r : Nat) : (sealRing n s r).hif.guarded = s.hif.guarded := by
  induction n generalizing s with
  | zero => rfl
  | succ n ih => unfold sealRing; (repeat' split) <;> simp [ih]
@[simp] theorem setPhase_guarded (s : State) (n : Fin 4) : (setPhase s n).hif.guarded = s.hif.guarded := by simp [setPhase]
@[simp] theorem entered_guarded (s : State) : (entered s).hif.guarded = s.hif.guarded := by simp [entered]
@[simp] theorem sealAdvance_guarded (s : State) : (sealAdvance s).hif.guarded = s.hif.guarded := by
  unfold sealAdvance; (repeat' split) <;> simp [sealThree, sealTwo, benchBoth]
@[simp] theorem sealLedger_guarded (s : State) : (sealLedger s).hif.guarded = s.hif.guarded := by simp [sealLedger, sealOne]
@[simp] theorem resumeService_guarded (s : State) (lossy : Bool) : (resumeService s lossy).hif.guarded = s.hif.guarded := by simp [resumeService]
@[simp] theorem abandonEntry_guarded (s : State) : (abandonEntry s).hif.guarded = s.hif.guarded := by simp [abandonEntry]
@[simp] theorem hostWrote_guarded (s : State) : (hostWrote s).hif.guarded = s.hif.guarded := by simp [hostWrote]
@[simp] theorem beginEntering_guarded (s : State) (toOff : Bool) : (beginEntering s toOff).hif.guarded = s.hif.guarded := by simp [beginEntering]
@[simp] theorem setFunc_guarded (s : State) (f : Nat) (g : Func → Func) : (setFunc s f g).hif.guarded = s.hif.guarded := by simp [setFunc]
@[simp] theorem aerReport_guarded (s : State) (f bit : Nat) : (aerReport s f bit).hif.guarded = s.hif.guarded := by simp [aerReport]
@[simp] theorem refuseAccess_guarded (s : State) (who : Requester) (off : Nat) : (refuseAccess s who off).hif.guarded = s.hif.guarded := by
  simp [refuseAccess]

/-! ### Network time (chapter 10) -/

@[simp] theorem setTimeState_guarded (s : State) (st : TimeSt) : (setTimeState s st).hif.guarded = s.hif.guarded := by simp [setTimeState]
@[simp] theorem applyOffset_guarded (s : State) (e : Int) (first : Bool) : (applyOffset s e first).hif.guarded = s.hif.guarded := by
  simp [applyOffset, moveDatum]
@[simp] theorem applyLoad_guarded (s : State) (k : BitVec 51) (ppsKind : Bool) : (applyLoad s k ppsKind).hif.guarded = s.hif.guarded := by
  simp [applyLoad]
@[simp] theorem loadLate_guarded (s : State) : (loadLate s).hif.guarded = s.hif.guarded := by simp [loadLate]
@[simp] theorem compareErr_guarded (s : State) (e : Int) (follows : Bool) : (compareErr s e follows).hif.guarded = s.hif.guarded := by
  simp [compareErr]
@[simp] theorem timePsbd_guarded (s : State) (k : BitVec 51) (inSync : Bool) : (timePsbd s k inSync).hif.guarded = s.hif.guarded := by
  unfold timePsbd; dsimp only; (repeat' split) <;> simp
@[simp] theorem ptpIn_guarded (s : State) (e : RxtsEntry) (t : Nat) : (ptpIn s e t).hif.guarded = s.hif.guarded := by simp [ptpIn]
@[simp] theorem ptpDone_guarded (s : State) (h : PtpHalf) (t : Nat) : (ptpDone s h t).hif.guarded = s.hif.guarded := by simp [ptpDone]
@[simp] theorem ptpOut_guarded (s : State) (c id : Nat) (b : List Byte) (ts : Option (Nat × Bool)) :
    (ptpOut s c id b ts).hif.guarded = s.hif.guarded := by
  unfold ptpOut; (repeat' split) <;> simp
@[simp] theorem captureUplink_guarded (s0 : State) (b : List Byte) (t : Nat) : (captureUplink s0 b t).hif.guarded = s0.hif.guarded := by
  unfold captureUplink; split <;> simp
@[simp] theorem captureChannel_guarded (s0 : State) (c : Nat) (b : List Byte) (t : Nat) : (captureChannel s0 c b t).hif.guarded = s0.hif.guarded := by
  unfold captureChannel; split <;> simp
@[simp] theorem todLoadOp_guarded (s : State) (kind : Bool) : (todLoadOp s kind).hif.guarded = s.hif.guarded := by simp [todLoadOp]
@[simp] theorem phaseAverageOp_guarded (s : State) : (phaseAverageOp s).hif.guarded = s.hif.guarded := by unfold phaseAverageOp; split <;> simp
@[simp] theorem invalidateOp_guarded (s : State) : (invalidateOp s).hif.guarded = s.hif.guarded := by simp [invalidateOp]
@[simp] theorem ppsInOp_guarded (s0 : State) : (ppsInOp s0).hif.guarded = s0.hif.guarded := by unfold ppsInOp; dsimp only; (repeat' split) <;> simp

/-! ### Key use and MACsec (chapter 11) -/

@[simp] theorem refreshKeyUse_guarded (s : State) (c : Nat) : (refreshKeyUse s c).hif.guarded = s.hif.guarded := by simp [refreshKeyUse]
@[simp] theorem refreshKeys_guarded (s : State) : (refreshKeys s).hif.guarded = s.hif.guarded := by simp [refreshKeys]
@[simp] theorem pnMovedFor_guarded (h : Half) (old new : Nat) (s : State) (c : Nat) : (pnMovedFor h old new s c).hif.guarded = s.hif.guarded := by
  unfold pnMovedFor; split <;> simp
@[simp] theorem movePn_guarded (s : State) (h : Half) (new : Nat) : (movePn s h new).hif.guarded = s.hif.guarded := by simp [movePn]
@[simp] theorem takePn_guarded (s : State) (c : Nat) (m : MacSect) : (takePn s c m).hif.guarded = s.hif.guarded := by simp [takePn]
@[simp] theorem macOut_guarded (s : State) (c : Nat) (b : List Byte) : (macOut s c b).1.hif.guarded = s.hif.guarded := by
  unfold macOut; (repeat' split) <;> simp
@[simp] theorem countMacRx_guarded (s : State) (c : Nat) (x : MacRx) : (countMacRx s c x).hif.guarded = s.hif.guarded := by simp [countMacRx]
theorem macsecIn_guarded {s t : State} {c : Nat} {m : MacSect} {b : List Byte} {x : Option (List Byte × Bool)} (e : macsecIn s c m b = (t, x)) :
    t.hif.guarded = s.hif.guarded := by
  unfold macsecIn at e; dsimp only at e; (repeat' split at e) <;> cases e <;> simp
theorem macIn_guarded {s t : State} {c : Nat} {b : List Byte} {x : Option (List Byte × Bool)} (e : macIn s c b = (t, x)) :
    t.hif.guarded = s.hif.guarded := by
  unfold macIn at e
  (repeat' split at e)
  · cases e; rfl
  · exact macsecIn_guarded e
  · cases e; rfl

/-! ### Packet storage and classification (chapter 08) -/

@[simp] theorem countBufDiscard_guarded (s : State) (c : Nat) : (countBufDiscard s c).hif.guarded = s.hif.guarded := by simp [countBufDiscard]
@[simp] theorem countLineDiscard_guarded (s : State) (c : Nat) : (countLineDiscard s c).hif.guarded = s.hif.guarded := by simp [countLineDiscard]
@[simp] theorem sendPause_guarded (s : State) (c : Nat) (m : MacSect) (ens : Nat) (q : Nat) : (sendPause s c m ens q).hif.guarded = s.hif.guarded := by
  simp [sendPause]
@[simp] theorem pauseCheck_guarded (s : State) (c : Nat) : (pauseCheck s c).hif.guarded = s.hif.guarded := by unfold pauseCheck; split <;> simp
@[simp] theorem takeId_guarded (s : State) : (takeId s).hif.guarded = s.hif.guarded := by simp [takeId]
@[simp] theorem enqueue_guarded (s : State) (c i : Nat) (f : Frame) : (enqueue s c i f).hif.guarded = s.hif.guarded := by simp [enqueue]
@[simp] theorem enqueueTcont_guarded (s0 : State) (q : Nat) (f : Frame) : (enqueueTcont s0 q f).hif.guarded = s0.hif.guarded := by simp [enqueueTcont]
@[simp] theorem countOversize_guarded (s : State) (c : Nat) : (countOversize s c).hif.guarded = s.hif.guarded := by simp [countOversize]
@[simp] theorem deliverDown_guarded (s : State) (idx port : Nat) (b : List Byte) (rx : Nat) :
    (deliverDown s idx port b rx).hif.guarded = s.hif.guarded := by
  unfold deliverDown; dsimp only; (repeat' split) <;> simp [toHostPart, toChannel, countNoFlow]
@[simp] theorem classifyUp_guarded (s : State) (c : Nat) (b : List Byte) (verified : Bool) (rx : Nat) :
    (classifyUp s c b verified rx).hif.guarded = s.hif.guarded := by
  unfold classifyUp; dsimp only; (repeat' split) <;> simp [storeUp]
@[simp] theorem macControl_guarded (s : State) (c : Nat) (b : List Byte) : (macControl s c b).hif.guarded = s.hif.guarded := by
  unfold macControl; split <;> simp [obeyPause]
@[simp] theorem macReceive_guarded (s : State) (c : Nat) (x : List Byte) (rx : Nat) : (macReceive s c x rx).hif.guarded = s.hif.guarded := by
  unfold macReceive; dsimp only; (repeat' split)
  case h_1 e => exact macIn_guarded e
  case h_2 e => simp [macIn_guarded e]
  all_goals simp
@[simp] theorem pauseRefreshOp_guarded (s : State) (c : Nat) : (pauseRefreshOp s c).hif.guarded = s.hif.guarded := by
  unfold pauseRefreshOp; split <;> simp
@[simp] theorem flowReadOp_guarded (s : State) (p : Nat) (idx : BitVec 12) : (flowReadOp s p idx).hif.guarded = s.hif.guarded := by simp [flowReadOp]
@[simp] theorem flowWriteOp_guarded (s : State) (p : Nat) (idx : BitVec 12) : (flowWriteOp s p idx).hif.guarded = s.hif.guarded := by
  simp [flowWriteOp]
@[simp] theorem flowClearOp_guarded (s : State) (p : Nat) (idx : BitVec 12) : (flowClearOp s p idx).hif.guarded = s.hif.guarded := by
  simp [flowClearOp]

/-! ### The feed (chapter 13) -/

@[simp] theorem supplyLog_guarded (s : State) (kind input detail : Nat) (value : Word) (start : Nat) (valid : Bool) :
    (supplyLog s kind input detail value start valid).hif.guarded = s.hif.guarded := by
  simp [supplyLog, logEntry]
@[simp] theorem supplyNow_guarded (s : State) (kind input detail : Nat) : (supplyNow s kind input detail).hif.guarded = s.hif.guarded := by
  simp [supplyNow]
@[simp] theorem budgetCheck_guarded (s : State) : (budgetCheck s).hif.guarded = s.hif.guarded := by simp [budgetCheck]
@[simp] theorem feedOff_guarded (s : State) : (feedOff s).hif.guarded = s.hif.guarded := by simp [feedOff]
@[simp] theorem feedPower_guarded (s : State) : (feedPower s).hif.guarded = s.hif.guarded := by simp [feedPower, feedOn]
@[simp] theorem feedTrip_guarded (s : State) (c cause : Nat) : (feedTrip s c cause).hif.guarded = s.hif.guarded := by simp [feedTrip]
@[simp] theorem feedUnlockOp_guarded (s : State) (c : Nat) : (feedUnlockOp s c).hif.guarded = s.hif.guarded := by simp [feedUnlockOp]
@[simp] theorem shedAll_guarded (s : State) (last detail : Nat) : (shedAll s last detail).hif.guarded = s.hif.guarded := by simp [shedAll]

/-! ### Rings (chapter 02) -/

@[simp] theorem doorbellFault_guarded (s : State) (r : Nat) : (doorbellFault s r).hif.guarded = s.hif.guarded := by simp [doorbellFault]
@[simp] theorem doorbellWrite_guarded (s : State) (who : Requester) (off : Nat) (v : Word) : (doorbellWrite s who off v).hif.guarded = s.hif.guarded := by
  unfold doorbellWrite; split <;> simp [doorbellAt]
@[simp] theorem haltRing_guarded (s : State) (r : Nat) : (haltRing s r).hif.guarded = s.hif.guarded := by simp [haltRing]
@[simp] theorem moveCursor_guarded (s : State) (r : Nat) : (moveCursor s r).hif.guarded = s.hif.guarded := by
  unfold moveCursor; dsimp only; split <;> rfl
@[simp] theorem refetchFailed_guarded (s : State) (r : Nat) (seq : Word) (st : Status) : (refetchFailed s r seq st).hif.guarded = s.hif.guarded := by
  simp [refetchFailed]
@[simp] theorem descriptorFetchOp_guarded (s : State) : (descriptorFetchOp s).hif.guarded = s.hif.guarded := by
  unfold descriptorFetchOp; (repeat' split) <;> simp [fetchAgain, fetchNew]
@[simp] theorem acceptOne_guarded (s : State) (r : Nat) (d : Desc) : (acceptOne s r d).hif.guarded = s.hif.guarded := by simp [acceptOne]
@[simp] theorem refetchDone_guarded (s : State) (r : Nat) (seq : Word) (res : XferResult) (data : List Byte) :
    (refetchDone s r seq res data).hif.guarded = s.hif.guarded := by
  unfold refetchDone; split <;> simp
@[simp] theorem fetchDone_guarded (s : State) (r : Nat) (first : Word) (n : Nat) (res : XferResult) (data : List Byte) :
    (fetchDone s r first n res data).hif.guarded = s.hif.guarded := by
  simp [fetchDone]
@[simp] theorem fetchCompleteOp_guarded (s : State) (r : Nat) (res : XferResult) (data : List Byte) :
    (fetchCompleteOp s r res data).hif.guarded = s.hif.guarded := by
  unfold fetchCompleteOp; split <;> simp
@[simp] theorem haltedClear_guarded (s : State) (r : Nat) : (haltedClear s r).hif.guarded = s.hif.guarded := by simp [haltedClear]
@[simp] theorem ringCfgOp_guarded (s : State) (r : RingNo) (v : Word) : (ringCfgOp s r v).hif.guarded = s.hif.guarded := by simp [ringCfgOp]
@[simp] theorem forgetBlocks_guarded (s : State) (n : Nat) : (forgetBlocks s n).hif.guarded = s.hif.guarded := by unfold forgetBlocks; split <;> simp
@[simp] theorem createRingOp_guarded (s : State) (r : RingNo) (seq : Word) : (createRingOp s r seq).hif.guarded = s.hif.guarded := by
  unfold createRingOp; (repeat' split) <;> simp
@[simp] theorem dropQueued_guarded (s : State) (p : Frame → Bool) : (dropQueued s p).hif.guarded = s.hif.guarded := by simp [dropQueued]
@[simp] theorem dropRadio_guarded (s : State) (n : Nat) : (dropRadio s n).hif.guarded = s.hif.guarded := by unfold dropRadio; split <;> simp
@[simp] theorem destroyRingOp_guarded (s : State) (r : RingNo) (seq : Word) : (destroyRingOp s r seq).hif.guarded = s.hif.guarded := by
  unfold destroyRingOp; (repeat' split) <;> simp [dropBlocks, returnOpen, dropSent]
@[simp] theorem recordWriteOp_guarded (s : State) (r : Nat) : (recordWriteOp s r).hif.guarded = s.hif.guarded := by
  unfold recordWriteOp; (repeat' split) <;> simp
@[simp] theorem recordAckOp_guarded (s : State) (q : Nat) : (recordAckOp s q).hif.guarded = s.hif.guarded := by
  unfold recordAckOp; dsimp only; (repeat' split) <;> simp [ackWork]
@[simp] theorem modTimeOp_guarded (s : State) (m : ModSrc) : (modTimeOp s m).hif.guarded = s.hif.guarded := by unfold modTimeOp; split <;> simp
@[simp] theorem setSizes_guarded (s : State) (dc : DevCtl) : (setSizes s dc).hif.guarded = s.hif.guarded := by simp [setSizes]
@[simp] theorem makeWaiting_guarded (s : State) (x : LXfer) : (makeWaiting s x).hif.guarded = s.hif.guarded := by unfold makeWaiting; split <;> simp
@[simp] theorem flushWaiting_guarded (s : State) : (flushWaiting s).hif.guarded = s.hif.guarded := by simp [flushWaiting]
@[simp] theorem setVfs_guarded (s : State) (enable : Bool) (numVfs : Half) : (setVfs s enable numVfs).hif.guarded = s.hif.guarded := by simp [setVfs]

/-! ### Channel-table reads (chapter 04) -/

@[simp] theorem mapTab_guarded (s : State) (c : Nat) (f : ChTab → ChTab) : (mapTab s c f).hif.guarded = s.hif.guarded := by simp [mapTab]
@[simp] theorem returnRefreshes_guarded (s : State) (c : Nat) (st : Status) : (returnRefreshes s c st).hif.guarded = s.hif.guarded := by
  simp [returnRefreshes]
@[simp] theorem readFailed_guarded (s : State) (c : Nat) (st : Status) : (readFailed s c st).hif.guarded = s.hif.guarded := by simp [readFailed]
@[simp] theorem issuePhase_guarded (s : State) (c off len : Nat) (p : ReadPhase) : (issuePhase s c off len p).hif.guarded = s.hif.guarded := by
  simp [issuePhase, readWindowFault]
@[simp] theorem beginRead_guarded (s : State) (c : Nat) : (beginRead s c).hif.guarded = s.hif.guarded := by simp [beginRead]
@[simp] theorem requestRefresh_guarded (s : State) (c : Nat) : (requestRefresh s c).hif.guarded = s.hif.guarded := by simp [requestRefresh]
@[simp] theorem requestAll_guarded (s : State) (l : List Nat) : (requestAll s l).hif.guarded = s.hif.guarded := by simp [requestAll]

/-! ### The ledger and recoveries (chapter 03) -/

@[simp] theorem ledgerFresh_guarded (s : State) : (ledgerFresh s).hif.guarded = s.hif.guarded := by simp [ledgerFresh]
@[simp] theorem ledgerCloseOp_guarded (s : State) : (ledgerCloseOp s).hif.guarded = s.hif.guarded := by simp [ledgerCloseOp]
@[simp] theorem adoptRing_guarded (img : LedgerImage) (s : State) (r : RingNo) : (adoptRing img s r).hif.guarded = s.hif.guarded := by
  unfold adoptRing; (repeat' split) <;> simp
@[simp] theorem adoptAdd_guarded (s : State) (r : RingNo) (n : Word) (d : Desc) (st : Stage) (ret : Option Outcome) :
    (adoptAdd s r n d st ret).hif.guarded = s.hif.guarded := by
  simp [adoptAdd]
@[simp] theorem adoptLost_guarded (invalid : Bool) (r : RingNo) (s : State) (n : Word) : (adoptLost invalid r s n).hif.guarded = s.hif.guarded := by
  simp [adoptLost]
@[simp] theorem adoptTrib_guarded (img : LedgerImage) (invalid : Bool) (r : RingNo) (s : State) (n : Word) :
    (adoptTrib img invalid r s n).hif.guarded = s.hif.guarded := by
  unfold adoptTrib; split <;> simp
@[simp] theorem adoptNow_guarded (s : State) (img : LedgerImage) : (adoptNow s img).hif.guarded = s.hif.guarded := by
  unfold adoptNow; split <;> simp [adoptSpilled, adoptRingWork, adoptWork]
@[simp] theorem adoptRead_guarded (s : State) (res : XferResult) (img : LedgerImage) : (adoptRead s res img).hif.guarded = s.hif.guarded := by
  simp [adoptRead]
@[simp] theorem retryOne_guarded (res : XferResult) (img : LedgerImage) (s : State) (x : LXfer) : (retryOne res img s x).hif.guarded = s.hif.guarded := by
  unfold retryOne; split <;> simp
@[simp] theorem countRxLost_guarded (s : State) (r n : Nat) : (countRxLost s r n).hif.guarded = s.hif.guarded := by
  unfold countRxLost; (repeat' split) <;> simp
@[simp] theorem settleOne_guarded (s : State) (v : Recovery) : (settleOne s v).hif.guarded = s.hif.guarded := by
  simp [settleOne, endReset, settleRing]
@[simp] theorem settleFirst_guarded (s : State) (done rest : List Recovery) : (settleFirst s done rest).hif.guarded = s.hif.guarded := by
  induction rest generalizing done with
  | nil => rfl
  | cons v rest ih => unfold settleFirst; split <;> simp [ih]
@[simp] theorem recoveryDoneOp_guarded (s : State) : (recoveryDoneOp s).hif.guarded = s.hif.guarded := by
  unfold recoveryDoneOp; split <;> simp [activate]

/-! ### Channel states (chapter 04) -/

@[simp] theorem setChSt_guarded (s : State) (c : Nat) (st : ChSt) : (setChSt s c st).hif.guarded = s.hif.guarded := by simp [setChSt]
@[simp] theorem wakeRaised_guarded (old s : State) : (wakeRaised old s).hif.guarded = s.hif.guarded := by simp [wakeRaised]
@[simp] theorem setIsland_guarded (s : State) (c : Nat) (on : Bool) : (setIsland s c on).hif.guarded = s.hif.guarded := by
  simp [setIsland, islandDomains]
@[simp] theorem dropCur_guarded (s : State) (c : Nat) : (dropCur s c).hif.guarded = s.hif.guarded := by
  unfold dropCur; split
  next => rfl
  next f _ => cases f.src <;> simp
@[simp] theorem dropChan_guarded (s : State) (c : Nat) (p : Frame → Bool) : (dropChan s c p).hif.guarded = s.hif.guarded := by simp [dropChan]
@[simp] theorem stopLine_guarded (s : State) (c : Nat) : (stopLine s c).hif.guarded = s.hif.guarded := by simp [stopLine]
@[simp] theorem breakBlock_guarded (s : State) (c i : Nat) : (breakBlock s c i).hif.guarded = s.hif.guarded := by unfold breakBlock; split <;> simp
@[simp] theorem leaveService_guarded (s : State) (c : Nat) : (leaveService s c).hif.guarded = s.hif.guarded := by simp [leaveService, returnNoPath]
@[simp] theorem enterOff_guarded (s : State) (c : Nat) : (enterOff s c).hif.guarded = s.hif.guarded := by simp [enterOff]
@[simp] theorem goReady_guarded (s : State) (c : Nat) : (goReady s c).hif.guarded = s.hif.guarded := by simp [goReady]
@[simp] theorem enterHalted_guarded (s : State) (c : Nat) (cause : Nat) : (enterHalted s c cause).hif.guarded = s.hif.guarded := by simp [enterHalted]
@[simp] theorem applyTarget_guarded (s : State) (c : Nat) : (applyTarget s c).hif.guarded = s.hif.guarded := by
  unfold applyTarget; (repeat' split) <;> simp [goOff]
@[simp] theorem failTraining_guarded (s : State) (c cause : Nat) : (failTraining s c cause).hif.guarded = s.hif.guarded := by simp [failTraining]
@[simp] theorem sweepNoCore_guarded (s : State) (c : Nat) : (sweepNoCore s c).hif.guarded = s.hif.guarded := by simp [sweepNoCore]
@[simp] theorem goTrain_guarded (s : State) (c : Nat) : (goTrain s c).hif.guarded = s.hif.guarded := by simp [goTrain]
@[simp] theorem lossOfLineOp_guarded (s : State) (c : Nat) : (lossOfLineOp s c).hif.guarded = s.hif.guarded := by simp [lossOfLineOp]
@[simp] theorem stopWork_guarded (s : State) (c : Nat) : (stopWork s c).hif.guarded = s.hif.guarded := by simp [stopWork]
@[simp] theorem channelReset_guarded (s : State) (c : Nat) (cmds : List (RingNo × Word)) : (channelReset s c cmds).hif.guarded = s.hif.guarded := by
  unfold channelReset; split <;> simp [resetChannel, clearChanEvents]
@[simp] theorem chResetOp_guarded (s : State) (r : RingNo) (seq : Word) : (chResetOp s r seq).hif.guarded = s.hif.guarded := by
  unfold chResetOp; (repeat' split) <;> simp
@[simp] theorem chHoldOp_guarded (s : State) (c : Nat) (v : Word) : (chHoldOp s c v).hif.guarded = s.hif.guarded := by simp [chHoldOp]

/-! ### The channel table (chapter 04) -/

@[simp] theorem applyEntry_guarded (s : State) (c : Nat) (g : Word) (b : List Byte) : (applyEntry s c g b).hif.guarded = s.hif.guarded := by
  simp [applyEntry, applyMac, raisePn, pnReached, applyFeed]
@[simp] theorem phaseOk_guarded (s : State) (c : Nat) (data : List Byte) : (phaseOk s c data).hif.guarded = s.hif.guarded := by
  unfold phaseOk; split <;> simp [nextPhase, discardRead, wholeRead, serveOne]
@[simp] theorem chtabRefreshOp_guarded (s : State) (mask : Word) : (chtabRefreshOp s mask).hif.guarded = s.hif.guarded := by simp [chtabRefreshOp]
@[simp] theorem chRefreshOp_guarded (s : State) (r : RingNo) (seq : Word) : (chRefreshOp s r seq).hif.guarded = s.hif.guarded := by
  unfold chRefreshOp; (repeat' split) <;> simp
@[simp] theorem chtabEnableOp_guarded (s : State) (on : Bool) : (chtabEnableOp s on).hif.guarded = s.hif.guarded := by
  simp [chtabEnableOp, tableOff, applyTargets]

/-! ### Frames of the host (chapters 03, 08) -/

@[simp] theorem txFrameOp_guarded (s : State) (r : Nat) (seq : Word) : (txFrameOp s r seq).hif.guarded = s.hif.guarded := by
  unfold txFrameOp; (repeat' split) <;> simp
@[simp] theorem returnLost_guarded (s : State) (r : RingNo) (seq : Word) (st : Status) : (returnLost s r seq st).hif.guarded = s.hif.guarded := by
  simp [returnLost]
@[simp] theorem txReadOp_guarded (s : State) (r : RingNo) (seq : Word) : (txReadOp s r seq).hif.guarded = s.hif.guarded := by
  unfold txReadOp; (repeat' split) <;> simp
@[simp] theorem storeTx_guarded (s : State) (r : RingNo) (w : Work) (b : List Byte) : (storeTx s r w b).hif.guarded = s.hif.guarded := by
  unfold storeTx; split <;> simp
@[simp] theorem txReadDoneOp_guarded (s : State) (r : RingNo) (seq : Word) (res : XferResult) (data : List Byte) :
    (txReadDoneOp s r seq res data).hif.guarded = s.hif.guarded := by
  unfold txReadDoneOp; split <;> simp
@[simp] theorem rxBufferOp_guarded (s : State) (r : Nat) (seq : Word) : (rxBufferOp s r seq).hif.guarded = s.hif.guarded := by
  unfold rxBufferOp; split <;> simp
@[simp] theorem dropWaiting_guarded (s : State) (r : Nat) : (dropWaiting s r).hif.guarded = s.hif.guarded := by
  unfold dropWaiting; (repeat' split) <;> simp
@[simp] theorem afterLeave_guarded (s : State) (f : Frame) : (afterLeave s f).hif.guarded = s.hif.guarded := by unfold afterLeave; split <;> simp
@[simp] theorem rxDeliverOp_guarded (s : State) (r : Nat) : (rxDeliverOp s r).hif.guarded = s.hif.guarded := by unfold rxDeliverOp; split <;> simp
@[simp] theorem lifetimeOp_guarded (s : State) (r : RingNo) (seq : Word) : (lifetimeOp s r seq).hif.guarded = s.hif.guarded := by
  unfold lifetimeOp; split <;> simp
@[simp] theorem refetchWork_guarded (s : State) (x : RingNo × Word) : (refetchWork s x).hif.guarded = s.hif.guarded := by
  unfold refetchWork; split <;> simp

/-! ### The cipher unit (chapter 11) -/

@[simp] theorem secReturn_guarded (s : State) (q : SecSrc) (st : Status) : (secReturn s q st).hif.guarded = s.hif.guarded := by
  unfold secReturn; split <;> simp
@[simp] theorem secDone_guarded (s : State) (q : SecSrc) (st : Status) (r0 r1 : Word) : (secDone s q st r0 r1).hif.guarded = s.hif.guarded := by
  unfold secDone; split <;> simp
@[simp] theorem secDo_guarded (s : State) (q : SecSrc) (c : Option Status) (act : State) :
    (secDo s q c act).hif.guarded = if c.isSome then s.hif.guarded else act.hif.guarded := by
  cases c <;> simp [secDo]
@[simp] theorem secWrite_guarded (s : State) (q : SecSrc) (addr : Nat) (b : List Byte) : (secWrite s q addr b).hif.guarded = s.hif.guarded := by
  unfold secWrite; (repeat' split) <;> simp
@[simp] theorem secFault_guarded (s : State) (q : SecSrc) (addr : Nat) : (secFault s q addr).hif.guarded = s.hif.guarded := by
  unfold secFault; split <;> simp
@[simp] theorem secWindow_guarded (s : State) (q : SecSrc) (write : Bool) (addr len : Nat) (go : State) :
    (secWindow s q write addr len go).hif.guarded = if secOpen s q write addr len then go.hif.guarded else s.hif.guarded := by
  simp [secWindow]
@[simp] theorem secReadFailed_guarded (s : State) (q : SecSrc) (res : XferResult) (addr : Nat) :
    (secReadFailed s q res addr).hif.guarded = s.hif.guarded := by
  unfold secReadFailed; split <;> simp
@[simp] theorem secRead_guarded (s : State) (q : SecSrc) (addr len : Nat) : (secRead s q addr len).hif.guarded = s.hif.guarded := by
  unfold secRead; split <;> simp
@[simp] theorem secStart_guarded (s : State) (q : SecSrc) (d : Desc) (blk : Option OpBlock) (addr len : Nat) :
    (secStart s q d blk addr len).hif.guarded = s.hif.guarded := by
  unfold secStart; split <;> simp
@[simp] theorem withBlock_guarded (s : State) (q : SecSrc) (d : Desc) (res : XferResult) (raw : List Byte) (pre : Option Status) (tagOut : Bool)
    (act : State → OpBlock → State) (h : ∀ t b, (act t b).hif.guarded = t.hif.guarded) :
    (withBlock s q d res raw pre tagOut act).hif.guarded = s.hif.guarded := by
  unfold withBlock; dsimp only; split <;> simp [secWindow, h]
@[simp] theorem cipherStart_guarded (s : State) (q : SecSrc) (d : Desc) (res : XferResult) (raw : List Byte) (kinds : List Nat)
    (out tagOut gcm : Bool) : (cipherStart s q d res raw kinds out tagOut gcm).hif.guarded = s.hif.guarded :=
  withBlock_guarded _ _ _ _ _ _ _ _ (fun t b => by simp)
@[simp] theorem gcmEncryptRun_guarded (s : State) (q : SecSrc) (d : Desc) (res : XferResult) (raw : List Byte) :
    (gcmEncryptRun s q d res raw).hif.guarded = s.hif.guarded := by
  simp [gcmEncryptRun]
@[simp] theorem gcmDecryptRun_guarded (s : State) (q : SecSrc) (d : Desc) (res : XferResult) (raw : List Byte) :
    (gcmDecryptRun s q d res raw).hif.guarded = s.hif.guarded := by
  simp [gcmDecryptRun]
@[simp] theorem cmacRun_guarded (s : State) (q : SecSrc) (d : Desc) (res : XferResult) (raw : List Byte) :
    (cmacRun s q d res raw).hif.guarded = s.hif.guarded := by
  simp [cmacRun]
@[simp] theorem ccmStarRun_guarded (s : State) (q : SecSrc) (d : Desc) (res : XferResult) (raw : List Byte) :
    (ccmStarRun s q d res raw).hif.guarded = s.hif.guarded := by
  simp [ccmStarRun]
@[simp] theorem createKey_guarded (s : State) (q : SecSrc) (kind : Nat) (exportable : Bool) (key : List Byte) (salt : Option (List Byte)) :
    (createKey s q kind exportable key salt).hif.guarded = s.hif.guarded := by
  unfold createKey; split <;> simp [makeKey]
@[simp] theorem countDraw_guarded (s : State) : (countDraw s).hif.guarded = s.hif.guarded := by simp [countDraw]
@[simp] theorem keyGenRun_guarded (s : State) (q : SecSrc) (d : Desc) : (keyGenRun s q d).hif.guarded = s.hif.guarded := by simp [keyGenRun]
@[simp] theorem keyLoadRun_guarded (s : State) (q : SecSrc) (d : Desc) (res : XferResult) (raw : List Byte) :
    (keyLoadRun s q d res raw).hif.guarded = s.hif.guarded :=
  withBlock_guarded _ _ _ _ _ _ _ _ (fun t b => by simp)
@[simp] theorem keyImportRun_guarded (s : State) (q : SecSrc) (d : Desc) (res : XferResult) (raw : List Byte) :
    (keyImportRun s q d res raw).hif.guarded = s.hif.guarded :=
  withBlock_guarded _ _ _ _ _ _ _ _ (fun t b => by simp)
@[simp] theorem keyExportRun_guarded (s : State) (q : SecSrc) (d : Desc) (res : XferResult) (raw : List Byte) :
    (keyExportRun s q d res raw).hif.guarded = s.hif.guarded :=
  withBlock_guarded _ _ _ _ _ _ _ _ (fun t b => by simp)
@[simp] theorem keyDeriveRun_guarded (s : State) (q : SecSrc) (d : Desc) : (keyDeriveRun s q d).hif.guarded = s.hif.guarded := by simp [keyDeriveRun]
@[simp] theorem keyClearRun_guarded (s : State) (q : SecSrc) (d : Desc) : (keyClearRun s q d).hif.guarded = s.hif.guarded := by simp [keyClearRun]
@[simp] theorem keyInfoRun_guarded (s : State) (q : SecSrc) (d : Desc) : (keyInfoRun s q d).hif.guarded = s.hif.guarded := by simp [keyInfoRun]
@[simp] theorem secRun_guarded (s : State) (q : SecSrc) (d : Desc) (res : XferResult) (raw : List Byte) :
    (secRun s q d res raw).hif.guarded = s.hif.guarded := by
  unfold secRun; split <;> simp [cvRestoreRun, cvSaveRun, cvUpdateRun, randomRun]
@[simp] theorem portTurn_guarded (n : Nat) (s : State) : (portTurn n s).hif.guarded = s.hif.guarded := by
  induction n generalizing s with
  | zero => rfl
  | succ n ih => unfold portTurn; (repeat' split) <;> simp [ih]
@[simp] theorem secCommand_guarded (s : State) (q : SecSrc) (op : Nat) (res : XferResult) (raw : List Byte) :
    (secCommand s q op res raw).hif.guarded = s.hif.guarded := by
  unfold secCommand; (repeat' split) <;> simp
@[simp] theorem verified_guarded (s : State) (q : SecSrc) (dst : Nat) (out : List Byte) (ok : Bool) :
    (verified s q dst out ok).hif.guarded = s.hif.guarded := by
  simp [verified]
@[simp] theorem blockDone_guarded (s : State) (q : SecSrc) (d : Desc) (b : OpBlock) (data : List Byte) :
    (blockDone s q d b data).hif.guarded = s.hif.guarded := by
  unfold blockDone; (repeat' split) <;> simp [sealedOut]
@[simp] theorem secCompleteOp_guarded (s : State) (q : SecSrc) (res : XferResult) (data : List Byte) :
    (secCompleteOp s q res data).hif.guarded = s.hif.guarded := by
  unfold secCompleteOp; (repeat' split) <;> simp [cvDone]
@[simp] theorem rerunOp_guarded (s : State) (o : SecOp) : (rerunOp s o).hif.guarded = s.hif.guarded := by unfold rerunOp; split <;> simp
@[simp] theorem coreFailOp_guarded (s : State) (core : Nat) (chans : List Nat) (ops : List SecSrc) :
    (coreFailOp s core chans ops).hif.guarded = s.hif.guarded := by
  simp [coreFailOp, sweepOps]
@[simp] theorem trngFailOp_guarded (s : State) : (trngFailOp s).hif.guarded = s.hif.guarded := by simp [trngFailOp]
@[simp] theorem clearKeys_guarded (s : State) : (clearKeys s).hif.guarded = s.hif.guarded := by simp [clearKeys]

/-! ### The radio (chapter 12) -/

@[simp] theorem radCount_guarded (s : State) (i : Nat) : (radCount s i).hif.guarded = s.hif.guarded := by simp [radCount]
@[simp] theorem chargeAll_guarded (s : State) (ch : BitVec 11) (n : Nat) : (chargeAll s ch n).hif.guarded = s.hif.guarded := by simp [chargeAll]
@[simp] theorem raiseRefused_guarded (s : State) (b : Option Nat) : (raiseRefused s b).hif.guarded = s.hif.guarded := by
  unfold raiseRefused; split <;> simp
@[simp] theorem radEnd_guarded (s : State) (t : RadTx) (acked noAck stop : Bool) : (radEnd s t acked noAck stop).hif.guarded = s.hif.guarded := by
  simp [radEnd]
@[simp] theorem radFail_guarded (s : State) (t : RadTx) (ret : Outcome) (noAck stop : Bool) :
    (radFail s t ret noAck stop).hif.guarded = s.hif.guarded := by
  simp [radFail]
@[simp] theorem tryAttempt_guarded (s : State) (t : RadTx) (w : Work) : (tryAttempt s t w).hif.guarded = s.hif.guarded := by
  unfold tryAttempt; dsimp only; (repeat' split) <;> simp [sendAttempt]
@[simp] theorem retryAttempt_guarded (s : State) : (retryAttempt s).hif.guarded = s.hif.guarded := by unfold retryAttempt; split <;> simp
@[simp] theorem releaseHeld_guarded (s : State) : (releaseHeld s).hif.guarded = s.hif.guarded := by unfold releaseHeld; split <;> simp
@[simp] theorem beginBackoff_guarded (s : State) (t : RadTx) (nb be : Nat) : (beginBackoff s t nb be).hif.guarded = s.hif.guarded := by
  simp [beginBackoff]
@[simp] theorem beginListen_guarded (s : State) (t : RadTx) (n : Nat) : (beginListen s t n).hif.guarded = s.hif.guarded := by simp [beginListen]
@[simp] theorem beginAccess_guarded (s : State) (t : RadTx) (w : Work) : (beginAccess s t w).hif.guarded = s.hif.guarded := by simp [beginAccess]
@[simp] theorem accessFails_guarded (s : State) (t : RadTx) : (accessFails s t).hif.guarded = s.hif.guarded := by simp [accessFails]
@[simp] theorem radFrameOp_guarded (s : State) (seq : Word) (res : XferResult) (frame : List Byte) :
    (radFrameOp s seq res frame).hif.guarded = s.hif.guarded := by
  unfold radFrameOp; (repeat' split) <;> simp
@[simp] theorem csmaOp_guarded (s : State) (busy : Bool) : (csmaOp s busy).hif.guarded = s.hif.guarded := by unfold csmaOp; (repeat' split) <;> simp
@[simp] theorem lbtOp_guarded (s : State) (free : Bool) : (lbtOp s free).hif.guarded = s.hif.guarded := by unfold lbtOp; (repeat' split) <;> simp
@[simp] theorem radioTxEndOp_guarded (s : State) : (radioTxEndOp s).hif.guarded = s.hif.guarded := by
  unfold radioTxEndOp; dsimp only; (repeat' split) <;> simp
@[simp] theorem radioAckOp_guarded (s : State) (psdu : List Byte) (four : Bool) : (radioAckOp s psdu four).hif.guarded = s.hif.guarded := by
  unfold radioAckOp; split <;> simp
@[simp] theorem radioAckTimeoutOp_guarded (s : State) : (radioAckTimeoutOp s).hif.guarded = s.hif.guarded := by
  unfold radioAckTimeoutOp; split <;> simp
@[simp] theorem setFcMin_guarded (s : State) (i : Nat) (q : Word) : (setFcMin s i q).hif.guarded = s.hif.guarded := by simp [setFcMin]
theorem radVerify_guarded {s t : State} {h : MacHdr} {b : List Byte} {x : Option (List Byte × Nat)} (e : radVerify s h b = (t, x)) :
    t.hif.guarded = s.hif.guarded := by
  unfold radVerify at e; dsimp only at e; (repeat' split at e) <;> cases e <;> simp
@[simp] theorem radStore_guarded (s : State) (f : RadRx) (b : List Byte) (secured : Bool) (idx : Nat) :
    (radStore s f b secured idx).hif.guarded = s.hif.guarded := by
  simp [radStore]
@[simp] theorem radioRxOp_guarded (s : State) (f : RadRx) : (radioRxOp s f).hif.guarded = s.hif.guarded := by
  unfold radioRxOp
  split; · rfl
  split; · simp
  split; · simp
  split; · simp
  split
  next e => exact radVerify_guarded e
  next e => simp [radVerify_guarded e]
@[simp] theorem radioAckTxOp_guarded (s : State) : (radioAckTxOp s).hif.guarded = s.hif.guarded := by unfold radioAckTxOp; split <;> simp
@[simp] theorem radioDeliverOp_guarded (s : State) : (radioDeliverOp s).hif.guarded = s.hif.guarded := by
  unfold radioDeliverOp; split <;> simp [popStored]
@[simp] theorem devCmd_guarded (s : State) (who : Requester) (idx : BitVec 5) (f : Rad → Rad) : (devCmd s who idx f).hif.guarded = s.hif.guarded := by
  unfold devCmd; split <;> simp
@[simp] theorem radOn_guarded (s : State) : (radOn s).hif.guarded = s.hif.guarded := by simp [radOn, govFill]
@[simp] theorem radCut_guarded (s : State) : (radCut s).hif.guarded = s.hif.guarded := by unfold radCut; split <;> simp
@[simp] theorem radOff_guarded (s : State) : (radOff s).hif.guarded = s.hif.guarded := by simp [radOff]
@[simp] theorem radFollow_guarded (s : State) : (radFollow s).hif.guarded = s.hif.guarded := by simp [radFollow]

/-! ### Boot (chapter 15) -/

@[simp] theorem boot_guarded (s : State) : (boot s).hif.guarded = s.hif.guarded := by simp [boot]
@[simp] theorem fwRestart_guarded (s : State) : (fwRestart s).hif.guarded = s.hif.guarded := by simp [fwRestart]
@[simp] theorem deriveCapsule_guarded (s : State) : (deriveCapsule s).hif.guarded = s.hif.guarded := by unfold deriveCapsule; (repeat' split) <;> simp
@[simp] theorem writeRecord_guarded (s : State) (f : IdRec → IdRec) : (writeRecord s f).hif.guarded = s.hif.guarded := by simp [writeRecord]

/-! ### Scheduling (chapter 09) -/

@[simp] theorem frameEmitted_guarded (s : State) (c : Nat) (f : Frame) : (frameEmitted s c f).hif.guarded = s.hif.guarded := by
  unfold frameEmitted; cases f.src <;> dsimp only <;> (repeat' split) <;> simp
@[simp] theorem countOverrun_guarded (s : State) (c : Nat) : (countOverrun s c).hif.guarded = s.hif.guarded := by simp [countOverrun]
@[simp] theorem placeBytes_guarded (n : Nat) (s : State) (c : Nat) : (placeBytes n s c).hif.guarded = s.hif.guarded := by
  induction n generalizing s with
  | zero => rfl
  | succ n ih => unfold placeBytes; dsimp only; (repeat' split) <;> simp [ih]
@[simp] theorem placeAll_guarded (s : State) (c : Nat) : (placeAll s c).hif.guarded = s.hif.guarded := by simp [placeAll]
@[simp] theorem takeCore_guarded (s : State) (c : Nat) : (takeCore s c).hif.guarded = s.hif.guarded := by simp [takeCore]
@[simp] theorem selectDown_guarded (s : State) (c prio : Nat) : (selectDown s c prio).hif.guarded = s.hif.guarded := by
  unfold selectDown; dsimp only; (repeat' split) <;> simp
@[simp] theorem releaseUp_guarded (s : State) (c : Nat) (f : Frame) : (releaseUp s c f).hif.guarded = s.hif.guarded := by
  unfold releaseUp; split <;> simp
@[simp] theorem selectUp_guarded (s : State) (c prio : Nat) : (selectUp s c prio).hif.guarded = s.hif.guarded := by
  unfold selectUp; dsimp only; (repeat' split) <;> simp
@[simp] theorem gclSwapOp_guarded (s : State) (c : Nat) : (gclSwapOp s c).hif.guarded = s.hif.guarded := by simp [gclSwapOp]
@[simp] theorem clearHist_guarded (s : State) (c : Nat) : (clearHist s c).hif.guarded = s.hif.guarded := by simp [clearHist]

/-! ### The uplink (chapter 05) -/

@[simp] theorem driveTx_guarded (s : State) : (driveTx s).hif.guarded = s.hif.guarded := by simp [driveTx]
@[simp] theorem followSrc_guarded (s : State) : (followSrc s).hif.guarded = s.hif.guarded := by simp [followSrc]
@[simp] theorem setGate_guarded (s : State) (g : GateSt) : (setGate s g).hif.guarded = s.hif.guarded := by simp [setGate]
@[simp] theorem emitBurstWork_guarded (cut : Bool) (s : State) (x : BurstWork) : (emitBurstWork cut s x).hif.guarded = s.hif.guarded := by
  unfold emitBurstWork; split <;> simp
@[simp] theorem mapTcont_guarded (s : State) (p : Frame → Frame) : (mapTcont s p).hif.guarded = s.hif.guarded := by simp [mapTcont]
@[simp] theorem dropTcont_guarded (s : State) (p : Frame → Bool) : (dropTcont s p).hif.guarded = s.hif.guarded := by simp [dropTcont]
@[simp] theorem pauseAll_guarded (s : State) : (pauseAll s).hif.guarded = s.hif.guarded := by simp [pauseAll]
@[simp] theorem loseSeg_guarded (st : Status) (s : State) (g : BurstSeg) : (loseSeg st s g).hif.guarded = s.hif.guarded := by
  unfold loseSeg; split <;> simp
@[simp] theorem stopWindow_guarded (s : State) (reached : Nat) (st : Status) : (stopWindow s reached st).hif.guarded = s.hif.guarded := by
  unfold stopWindow; split <;> simp
@[simp] theorem restoreBurst_guarded (s : State) (b : Burst) : (restoreBurst s b).hif.guarded = s.hif.guarded := by
  unfold restoreBurst; split <;> simp [unplan]
@[simp] theorem countRefused_guarded (s : State) : (countRefused s).hif.guarded = s.hif.guarded := by simp [countRefused]
@[simp] theorem refuseAll_guarded (s : State) : (refuseAll s).hif.guarded = s.hif.guarded := by
  unfold refuseAll; dsimp only; split <;> simp [-List.foldl_reverse]
@[simp] theorem declareLods_guarded (s : State) : (declareLods s).hif.guarded = s.hif.guarded := by simp [declareLods]
@[simp] theorem takeEqd_guarded (s : State) : (takeEqd s).hif.guarded = s.hif.guarded := by unfold takeEqd; split <;> simp
@[simp] theorem countXgem_guarded (s : State) : (countXgem s).hif.guarded = s.hif.guarded := by simp [countXgem]
@[simp] theorem psyncMissOp_guarded (s : State) : (psyncMissOp s).hif.guarded = s.hif.guarded := by unfold psyncMissOp; (repeat' split) <;> simp
@[simp] theorem micFail_guarded (s : State) : (micFail s).hif.guarded = s.hif.guarded := by simp [micFail]
@[simp] theorem allocOp_guarded (s : State) (id : BitVec 14) (add : Bool) : (allocOp s id add).hif.guarded = s.hif.guarded := by
  unfold allocOp; (repeat' split) <;> simp
@[simp] theorem unassign_guarded (s : State) : (unassign s).hif.guarded = s.hif.guarded := by simp [unassign]
@[simp] theorem stopGate_guarded (s : State) : (stopGate s).hif.guarded = s.hif.guarded := by simp [stopGate]
@[simp] theorem disableOp_guarded (s : State) (o : SnOrder) (hi lo : Word) : (disableOp s o hi lo).hif.guarded = s.hif.guarded := by
  unfold disableOp; (repeat' split) <;> simp
@[simp] theorem onuStateOp_guarded (s : State) (v : BitVec 4) : (onuStateOp s v).hif.guarded = s.hif.guarded := by simp [onuStateOp, returnUplink]
@[simp] theorem xgemTake_guarded (s : State) (e : PortEntry) (x : List Byte) (last : Bool) (t : Nat) :
    (xgemTake s e x last t).hif.guarded = s.hif.guarded := by
  unfold xgemTake; dsimp only; (repeat' split) <;> simp [xgemFrame]
@[simp] theorem xgemOp_guarded (s : State) (hdr : DWord) (pos hdrBit : Nat) (b : List Byte) :
    (xgemOp s hdr pos hdrBit b).hif.guarded = s.hif.guarded := by
  unfold xgemOp; dsimp only; (repeat' split) <;> simp
@[simp] theorem userWrite_guarded (s : State) (w : Option (Byte × List Byte)) : (userWrite s w).hif.guarded = s.hif.guarded := by
  unfold userWrite; split <;> simp
@[simp] theorem rogueClearOp_guarded (s : State) (sd : Bool) : (rogueClearOp s sd).hif.guarded = s.hif.guarded := by simp [rogueClearOp]
@[simp] theorem queuePloams_guarded (s : State) (l : List (List Byte)) : (queuePloams s l).hif.guarded = s.hif.guarded := by simp [queuePloams]
@[simp] theorem fixOp_guarded (s : State) (tds : Nat) (allocs : List Alloc) : (fixOp s tds allocs).hif.guarded = s.hif.guarded := by
  unfold fixOp; dsimp only; (repeat' split) <;> simp
@[simp] theorem contentFixOp_guarded (s : State) (tds : Nat) (allocs : List DWord) (ploams : List (List Byte)) :
    (contentFixOp s tds allocs ploams).hif.guarded = s.hif.guarded := by
  simp [contentFixOp, iter_guarded]
theorem openSegs_guarded (b : Burst) (l : List BurstSeg) (x : State × List (Nat × List Byte) × List BurstSeg) :
    (l.foldl (openSeg b) x).1.hif.guarded = x.1.hif.guarded := by
  induction l generalizing x with
  | nil => rfl
  | cons g l ih =>
    rw [List.foldl_cons, ih]
    unfold openSeg; (repeat' split) <;> simp
@[simp] theorem sendPloam_guarded (s : State) (b : Burst) : (sendPloam s b).hif.guarded = s.hif.guarded := by unfold sendPloam; split <;> simp
@[simp] theorem openBurst_guarded (s : State) (b : Burst) : (openBurst s b).hif.guarded = s.hif.guarded := by simp [openBurst, openSegs_guarded]
@[simp] theorem maskBurst_guarded (s : State) (b : Burst) : (maskBurst s b).hif.guarded = s.hif.guarded := by
  unfold maskBurst; dsimp only; (repeat' split) <;> simp
@[simp] theorem windowOpenOp_guarded (s : State) : (windowOpenOp s).hif.guarded = s.hif.guarded := by unfold windowOpenOp; split <;> simp
@[simp] theorem burstPtp_guarded (s : State) (g : BurstSeg) : (burstPtp s g).hif.guarded = s.hif.guarded := by
  unfold burstPtp; (repeat' split) <;> simp
@[simp] theorem leaveQueues_guarded (s : State) (l : List BurstSeg) : (leaveQueues s l).hif.guarded = s.hif.guarded := by simp [leaveQueues]
@[simp] theorem burstWindowCloseOp_guarded (s : State) : (windowCloseOp_ s).hif.guarded = s.hif.guarded := by
  unfold windowCloseOp_; split <;> simp [leaveQueues]
@[simp] theorem rxOff_guarded (s : State) : (rxOff s).hif.guarded = s.hif.guarded := by simp [rxOff]
@[simp] theorem rxOnAgain_guarded (s : State) : (rxOnAgain s).hif.guarded = s.hif.guarded := by simp [rxOnAgain]
@[simp] theorem enterMode_guarded (s : State) (m : PonMode) : (enterMode s m).hif.guarded = s.hif.guarded := by unfold enterMode; split <;> simp
@[simp] theorem ponTimerOp_guarded (s : State) (t : PonTimer) : (ponTimerOp s t).hif.guarded = s.hif.guarded := by
  unfold ponTimerOp; (repeat' split) <;> simp
@[simp] theorem dyingGasp_guarded (s : State) (onBattery : Bool) : (dyingGasp s onBattery).hif.guarded = s.hif.guarded := by simp [dyingGasp]
@[simp] theorem dyingGaspEnd_guarded (s : State) : (dyingGaspEnd s).hif.guarded = s.hif.guarded := by simp [dyingGaspEnd]
@[simp] theorem cutUplink_guarded (s : State) : (cutUplink s).hif.guarded = s.hif.guarded := by unfold cutUplink; split <;> simp
@[simp] theorem uplSettled_guarded (s : State) : (uplSettled s).hif.guarded = s.hif.guarded := by simp [uplSettled]

/-! ### What a reset and the link leave (chapters 00, 02) -/

@[simp] theorem loseLink_guarded (s : State) : (loseLink s).hif.guarded = s.hif.guarded := by simp [loseLink]
@[simp] theorem resetConfig_guarded (s : State) : (resetConfig s).hif.guarded = s.hif.guarded := by simp [resetConfig]
@[simp] theorem endCapsule_guarded (s : State) : (endCapsule s).hif.guarded = s.hif.guarded := by unfold endCapsule; split <;> simp
@[simp] theorem wakeSource_guarded (s : State) (code : Nat) : (wakeSource s code).hif.guarded = s.hif.guarded := by
  unfold wakeSource; dsimp only; split <;> simp
@[simp] theorem tryResume_guarded (s : State) : (tryResume s).hif.guarded = s.hif.guarded := by simp [tryResume]
@[simp] theorem returnReset_guarded (s : State) (r : RingNo) : (returnReset s r).hif.guarded = s.hif.guarded := by simp [returnReset]

/-! ### Power states and domains (chapter 14) -/

@[simp] theorem keysOff_guarded (s : State) : (keysOff s).hif.guarded = s.hif.guarded := by simp [keysOff]
@[simp] theorem hifOff_guarded (s : State) : (hifOff s).hif.guarded = s.hif.guarded := by
  have h : (keysOff (mapRings (resetConfig (loseLink s)) (fun _ g => ringHifOff g))).hif.guarded = s.hif.guarded := by simp
  exact h
@[simp] theorem switchOff_guarded (s : State) (d : Domain) : (switchOff s d).hif.guarded = s.hif.guarded := by
  unfold switchOff; (repeat' split) <;> simp [coreOff, uplOff, halfOff, islandOff]
@[simp] theorem lastStep_guarded (s : State) : (lastStep s).hif.guarded = s.hif.guarded := by unfold lastStep; dsimp only; (repeat' split) <;> simp
@[simp] theorem downAction_guarded (s : State) (k : Nat) : (downAction s k).hif.guarded = s.hif.guarded := by unfold downAction; split <;> simp
@[simp] theorem downFrom_guarded (n : Nat) (s : State) (k : Nat) : (downFrom n s k).hif.guarded = s.hif.guarded := by
  induction n generalizing s k with
  | zero => rfl
  | succ n ih => unfold downFrom; (repeat' split) <;> simp [ih]
@[simp] theorem startPowerDown_guarded (s : State) (toOff : Bool) : (startPowerDown s toOff).hif.guarded = s.hif.guarded := by simp [startPowerDown]
@[simp] theorem powerDownNext_guarded (s : State) : (powerDownNext s).hif.guarded = s.hif.guarded := by simp [powerDownNext]
@[simp] theorem upAction_guarded (s : State) (k : Nat) : (upAction s k).hif.guarded = s.hif.guarded := by
  unfold upAction; split <;> simp [endWake, coreStart]
@[simp] theorem releaseDomains_guarded (s : State) : (releaseDomains s).hif.guarded = s.hif.guarded := by unfold releaseDomains; split <;> simp
@[simp] theorem refuseEntry_guarded (s : State) (why : Nat) : (refuseEntry s why).hif.guarded = s.hif.guarded := by simp [refuseEntry]
@[simp] theorem stopFetch_guarded (s : State) : (stopFetch s).hif.guarded = s.hif.guarded := by simp [stopFetch]
@[simp] theorem pwrEnterOp_guarded (s : State) (seq : Word) : (pwrEnterOp s seq).hif.guarded = s.hif.guarded := by
  unfold pwrEnterOp; dsimp only; (repeat' split) <;> simp
@[simp] theorem pwrGoOp_guarded (s : State) (toOff : Bool) : (pwrGoOp s toOff).hif.guarded = s.hif.guarded := by
  unfold pwrGoOp; dsimp only; (repeat' split) <;> simp
@[simp] theorem pmeTurnOffOp_guarded (s : State) : (pmeTurnOffOp s).hif.guarded = s.hif.guarded := by simp [pmeTurnOffOp]
@[simp] theorem wakeIf_guarded (s : State) (bit code : Nat) : (wakeIf s bit code).hif.guarded = s.hif.guarded := by simp [wakeIf]

/-! ### The supply watch (chapter 13) -/

@[simp] theorem closes_guarded (s : State) (i : Nat) (c : Comp) (x : Crossing) : (closes s i c x).hif.guarded = s.hif.guarded := by
  unfold closes; split <;> simp [closeDist]
@[simp] theorem tryUnshed_guarded (s : State) : (tryUnshed s).hif.guarded = s.hif.guarded := by simp [tryUnshed, unshed]
@[simp] theorem endSealShed_guarded (s : State) : (endSealShed s).hif.guarded = s.hif.guarded := by simp [endSealShed]
@[simp] theorem feedCross_guarded (s0 : State) (x : Crossing) : (feedCross s0 x).hif.guarded = s0.hif.guarded := by
  unfold feedCross; (repeat' split) <;> simp [resumeInrush, pauseInrush]
@[simp] theorem sealStarts_guarded (s : State) : (sealStarts s).hif.guarded = s.hif.guarded := by simp [sealStarts]
@[simp] theorem startSeal_guarded (s : State) (bat : Bool) : (startSeal s bat).hif.guarded = s.hif.guarded := by simp [startSeal]
@[simp] theorem crossEffect_guarded (s : State) (i : SupIn) (x : Crossing) (trip close : Bool) :
    (crossEffect s i x trip close).hif.guarded = s.hif.guarded := by
  unfold crossEffect; (repeat' split) <;> simp [mainRestore, mainTrip]
@[simp] theorem sealDoneOp_guarded (s : State) : (sealDoneOp s).hif.guarded = s.hif.guarded := by simp [sealDoneOp]
@[simp] theorem endEntry_guarded (s : State) : (endEntry s).hif.guarded = s.hif.guarded := by simp [endEntry]
@[simp] theorem bmcOffOp_guarded (s : State) (c : Nat) (on : Bool) : (bmcOffOp s c on).hif.guarded = s.hif.guarded := by simp [bmcOffOp]

/-! ### Firmware and identity (chapter 15) -/

@[simp] theorem restartWdg_guarded (s : State) (cp : Nat) : (restartWdg s cp).hif.guarded = s.hif.guarded := by simp [restartWdg]
@[simp] theorem ptpDropOp_guarded (s : State) : (ptpDropOp s).hif.guarded = s.hif.guarded := by unfold ptpDropOp; split <;> simp
@[simp] theorem confirmSlot_guarded (s : State) (k : Nat) : (confirmSlot s k).hif.guarded = s.hif.guarded := by simp [confirmSlot]
@[simp] theorem rejectTrial_guarded (s : State) (k : Nat) : (rejectTrial s k).hif.guarded = s.hif.guarded := by simp [rejectTrial]
@[simp] theorem rollBack_guarded (s : State) (k : Nat) : (rollBack s k).hif.guarded = s.hif.guarded := by simp [rollBack]
@[simp] theorem confirmTimeoutOp_guarded (s : State) : (confirmTimeoutOp s).hif.guarded = s.hif.guarded := by unfold confirmTimeoutOp; split <;> simp
theorem readBuffer_guarded {s t : State} {w : Work} {res : XferResult} (e : readBuffer s w res = .inl t ∨ readBuffer s w res = .inr t) :
    t.hif.guarded = s.hif.guarded := by
  unfold readBuffer at e; dsimp only at e
  (repeat' split at e) <;> obtain ⟨⟨⟩⟩ | ⟨⟨⟩⟩ := e <;> simp
@[simp] theorem programSlot_guarded (s : State) (i off : Nat) (data : List Byte) : (programSlot s i off data).hif.guarded = s.hif.guarded := by
  simp [programSlot]
@[simp] theorem fwStageOp_guarded (s : State) (seq : Word) (res : XferResult) (data : List Byte) (sigOk : Bool) :
    (fwStageOp s seq res data sigOk).hif.guarded = s.hif.guarded := by
  unfold fwStageOp; dsimp only
  split; · rfl
  split; · simp
  split; · simp
  split; · simp
  split
  next e => exact readBuffer_guarded (.inl e)
  next e => split <;> simp [readBuffer_guarded (.inr e)]
@[simp] theorem restartAfter_guarded (s : State) (seq : Word) : (restartAfter s seq).hif.guarded = s.hif.guarded := by simp [restartAfter]
@[simp] theorem fwActivateOp_guarded (s : State) (seq : Word) : (fwActivateOp s seq).hif.guarded = s.hif.guarded := by
  unfold fwActivateOp; split <;> simp
@[simp] theorem fwConfirmOp_guarded (s : State) (seq : Word) : (fwConfirmOp s seq).hif.guarded = s.hif.guarded := by
  unfold fwConfirmOp; (repeat' split) <;> simp
@[simp] theorem fwFallbackOp_guarded (s : State) (seq : Word) : (fwFallbackOp s seq).hif.guarded = s.hif.guarded := by
  unfold fwFallbackOp; (repeat' split) <;> simp
@[simp] theorem slotFallbackOp_guarded (s : State) : (slotFallbackOp s).hif.guarded = s.hif.guarded := by
  unfold slotFallbackOp; dsimp only; (repeat' split) <;> simp
@[simp] theorem slotConfirmOp_guarded (s : State) : (slotConfirmOp s).hif.guarded = s.hif.guarded := by
  unfold slotConfirmOp; dsimp only; (repeat' split) <;> simp
@[simp] theorem revertOp_guarded (s : State) : (revertOp s).hif.guarded = s.hif.guarded := by simp [revertOp]
@[simp] theorem readSettings_guarded (s : State) (h : ImageHdr) (parseOk : Bool) : (readSettings s h parseOk).hif.guarded = s.hif.guarded := by
  unfold readSettings; dsimp only; (repeat' split) <;> simp [restrict]
@[simp] theorem giveRegId_guarded (s : State) : (giveRegId s).hif.guarded = s.hif.guarded := by unfold giveRegId; split <;> simp
@[simp] theorem handoverOp_guarded (s : State) (positions : List (List Byte)) (parseOk : Bool) :
    (handoverOp s positions parseOk).hif.guarded = s.hif.guarded := by
  unfold handoverOp; dsimp only; (repeat' split) <;> simp
@[simp] theorem capsuleApply_guarded (s : State) (c : Capsule) (positions : List (List Byte)) :
    (capsuleApply s c positions).hif.guarded = s.hif.guarded := by
  simp [capsuleApply, capsuleGen]
@[simp] theorem capsuleOp_guarded (s : State) (seq : Word) (res : XferResult) (data : List Byte) (keys : SigKeys) (positions : List (List Byte)) :
    (capsuleOp s seq res data keys positions).hif.guarded = s.hif.guarded := by
  unfold capsuleOp
  split
  next => rfl
  split
  next => simp
  split
  next e => exact readBuffer_guarded (.inl e)
  next e =>
    split
    next => rfl
    next =>
      rw [← readBuffer_guarded (.inr e)]
      dsimp only
      split <;> simp
@[simp] theorem fixProfile_guarded (s : State) (p : BitVec 2) : (fixProfile s p).hif.guarded = s.hif.guarded := by simp [fixProfile]
@[simp] theorem identityOp_guarded (s : State) (a b : List Byte) : (identityOp s a b).hif.guarded = s.hif.guarded := by
  unfold identityOp; dsimp only; (repeat' split) <;> simp

/-! ### Event counters (chapter 16) -/

@[simp] theorem evtSoftOp_guarded (s : State) (v : Word) : (evtSoftOp s v).hif.guarded = s.hif.guarded := by simp [evtSoftOp]
@[simp] theorem setCounter_guarded (s : State) (k : CntSel) (x : Counter) : (setCounter s k x).hif.guarded = s.hif.guarded := by
  unfold setCounter; split <;> simp
@[simp] theorem counterCfgOp_guarded (s : State) (who : Requester) (k : CntSel) (v : Word) : (counterCfgOp s who k v).hif.guarded = s.hif.guarded := by
  simp [counterCfgOp]

/-! ### Line signal (chapter 06) -/

@[simp] theorem toPhase_guarded (s : State) (c p : Nat) : (toPhase s c p).hif.guarded = s.hif.guarded := by simp [toPhase]
@[simp] theorem phaseEnd_guarded (s : State) (c : Nat) (r : PhaseResult) : (phaseEnd s c r).hif.guarded = s.hif.guarded := by
  unfold phaseEnd; dsimp only; (repeat' split) <;> simp [goService, takeEstimate, beginHandshake]
@[simp] theorem countSat_guarded (s : State) (c multiply other : Nat) : (countSat s c multiply other).hif.guarded = s.hif.guarded := by
  simp [countSat]
@[simp] theorem sendSymbol_guarded (s : State) (c k : Nat) (tones : List (Nat × Nat × Nat)) : (sendSymbol s c k tones).hif.guarded = s.hif.guarded := by
  simp [sendSymbol]
@[simp] theorem sendSync_guarded (s : State) (c : Nat) : (sendSync s c).hif.guarded = s.hif.guarded := by simp [sendSync]
@[simp] theorem sendTraining_guarded (s : State) (c : Nat) : (sendTraining s c).hif.guarded = s.hif.guarded := by simp [sendTraining]
@[simp] theorem takeSamples_guarded (s : State) (c : Nat) (adc : List (List (BitVec 14))) : (takeSamples s c adc).hif.guarded = s.hif.guarded := by
  simp [takeSamples]

/-! ### Line framing (chapter 07) -/

@[simp] theorem sendSlots_guarded (c n : Nat) (s : State) : (sendSlots c n s).hif.guarded = s.hif.guarded := by
  induction n generalizing s with
  | zero => rfl
  | succ n ih => simp [sendSlots, ih]
@[simp] theorem pump_guarded (s : State) (c : Nat) : (pump s c).hif.guarded = s.hif.guarded := by simp [pump]
@[simp] theorem putDtu_guarded (s : State) (c : Nat) (b : List Byte) : (putDtu s c b).hif.guarded = s.hif.guarded := by simp [putDtu]
@[simp] theorem dtuCloseOp_guarded (s0 : State) (c : Nat) : (dtuCloseOp s0 c).hif.guarded = s0.hif.guarded := by
  unfold dtuCloseOp; dsimp only; (repeat' split) <;> simp [closeData, endEmissions, ptpClose]
@[simp] theorem closeDue_guarded (c n : Nat) (s : State) : (closeDue c n s).hif.guarded = s.hif.guarded := by
  induction n generalizing s with
  | zero => rfl
  | succ n ih => simp [closeDue, ih]
@[simp] theorem takeSeg_guarded (c : Nat) (slots : List Nat) (s : State) (g : Seg) : (takeSeg c slots s g).hif.guarded = s.hif.guarded := by
  unfold takeSeg; dsimp only; (repeat' split) <;> simp [brokenPiece]
@[simp] theorem releaseAll_guarded (s : State) (c : Nat) : (releaseAll s c).hif.guarded = s.hif.guarded := by simp [releaseAll, releaseDtu]
@[simp] theorem serveNack_guarded (c fcnt : Nat) (s : State) (q : Half) : (serveNack c fcnt s q).hif.guarded = s.hif.guarded := by
  unfold serveNack; dsimp only; (repeat' split) <;> simp
@[simp] theorem receiveFrame_guarded (s : State) (c : Nat) (words : List (List Byte)) : (receiveFrame s c words).hif.guarded = s.hif.guarded := by
  unfold receiveFrame; dsimp only; (repeat' split) <;> simp [overheadOp, badOverhead]
theorem assembleRing_guarded {c i n fuel : Nat} {s t : State} {x : Option (List Byte)} (e : assembleRing c i n fuel s = (t, x)) :
    t.hif.guarded = s.hif.guarded := by
  induction fuel generalizing s with
  | zero => cases e; rfl
  | succ fuel ih =>
    unfold assembleRing at e; dsimp only at e
    split at e
    · cases e; rfl
    split at e
    · rw [ih e, setFr_hif]
    · cases e; rfl
    · cases e
      (repeat' split) <;> simp
@[simp] theorem countSlip_guarded (s : State) (c i : Nat) (tx : Bool) : (countSlip s c i tx).hif.guarded = s.hif.guarded := by simp [countSlip]
@[simp] theorem tribAssemble_guarded (s : State) (c i : Nat) (pcmIn : List (List Bool)) : (tribAssemble s c i pcmIn).hif.guarded = s.hif.guarded := by
  unfold tribAssemble; dsimp only; (repeat' split)
  case h_1 e => simp [assembleRing_guarded e]
  case h_2 e => simp [assembleRing_guarded e]
  all_goals simp
@[simp] theorem fillBlock_guarded (s : State) (c i : Nat) (x : Word × List Byte) (data : List Byte) :
    (fillBlock s c i x data).hif.guarded = s.hif.guarded := by
  unfold fillBlock; dsimp only; (repeat' split) <;> simp
@[simp] theorem tribDeliver_guarded (s : State) (c i : Nat) : (tribDeliver s c i).hif.guarded = s.hif.guarded := by
  unfold tribDeliver; dsimp only; (repeat' split) <;> simp
@[simp] theorem tribFrame_guarded (c : Nat) (pcmIn : List (List Bool)) (s : State) (i : Nat) : (tribFrame c pcmIn s i).hif.guarded = s.hif.guarded := by
  simp [tribFrame]
@[simp] theorem tribIdleFrame_guarded (c : Nat) (s : State) (i : Nat) : (tribIdleFrame c s i).hif.guarded = s.hif.guarded := by simp [tribIdleFrame]
@[simp] theorem tribBlockOp_guarded (s : State) (r : RingNo) (seq : Word) (res : XferResult) (data : List Byte) :
    (tribBlockOp s r seq res data).hif.guarded = s.hif.guarded := by
  unfold tribBlockOp; dsimp only; (repeat' split) <;> simp
@[simp] theorem econEntry_guarded (s : State) (c : Nat) : (econEntry s c).hif.guarded = s.hif.guarded := by
  unfold econEntry; split <;> simp [goEconomy]
@[simp] theorem econLeave_guarded (s : State) (c : Nat) : (econLeave s c).hif.guarded = s.hif.guarded := by
  unfold econLeave; split <;> simp [leaveEconomy]
@[simp] theorem econSwitch_guarded (s : State) (c : Nat) : (econSwitch s c).hif.guarded = s.hif.guarded := by simp [econSwitch]
@[simp] theorem pmFrame_guarded (s : State) (c : Nat) : (pmFrame s c).hif.guarded = s.hif.guarded := by simp [pmFrame]
@[simp] theorem beginFrame_guarded (s : State) (c : Nat) (rx : FrameRx) : (beginFrame s c rx).hif.guarded = s.hif.guarded := by simp [beginFrame]
@[simp] theorem endFrame_guarded (s : State) (c : Nat) (rx : FrameRx) : (endFrame s c rx).hif.guarded = s.hif.guarded := by simp [endFrame, closeRest]

/-! ### The management port (chapter 16) -/

@[simp] theorem portErr_guarded (s : State) (e : PortErr) : (portErr s e).hif.guarded = s.hif.guarded := by simp [portErr]
@[simp] theorem headerCommit_guarded (s : State) (uses : Option Nat) : (headerCommit s uses).hif.guarded = s.hif.guarded := by
  unfold headerCommit; split <;> simp
@[simp] theorem readHeader_guarded (s : State) (a : Nat) : (readHeader s a).hif.guarded = s.hif.guarded := by simp [readHeader, header]
@[simp] theorem writeHeader_guarded (s : State) (a : Nat) : (writeHeader s a).hif.guarded = s.hif.guarded := by simp [writeHeader, header]
@[simp] theorem armHeader_guarded (s : State) (a : Nat) : (armHeader s a).hif.guarded = s.hif.guarded := by simp [armHeader, header]
@[simp] theorem unknownHeader_guarded (s : State) (hdr : Word) : (unknownHeader s hdr).hif.guarded = s.hif.guarded := by simp [unknownHeader, header]
@[simp] theorem portValue_guarded (s : State) (off : Nat) : (portValue s off).2.hif.guarded = s.hif.guarded := by
  unfold portValue; dsimp only; (repeat' split) <;> rfl
@[simp] theorem portRead_guarded (s : State) (a : Nat) : (portRead s a).hif.guarded = s.hif.guarded := by
  unfold portRead; dsimp only; (repeat' split) <;> simp
@[simp] theorem armedWrite_guarded (s : State) (r : ArmedReg) (v : Word) : (armedWrite s r v).hif.guarded = s.hif.guarded := by
  unfold armedWrite; split <;> simp
@[simp] theorem armedFirst_guarded (s : State) (a : Nat) (v : Word) : (armedFirst s a v).hif.guarded = s.hif.guarded := by
  unfold armedFirst; split <;> simp
@[simp] theorem dataWordOp_guarded (s : State) (v : Word) : (dataWordOp s v).hif.guarded = s.hif.guarded := by
  unfold dataWordOp; (repeat' split) <;> simp [portWrite]

/-! ### Register writes outside the windows (chapter 17) -/

@[simp] theorem stage_guarded (s : State) (off : Nat) (v : Word) : (stage s off v).hif.guarded = s.hif.guarded := by simp [stage]
@[simp] theorem floorOp_guarded (s : State) (v : Word) : (floorOp s v).hif.guarded = s.hif.guarded := by simp [floorOp]
@[simp] theorem writePwr_guarded (s : State) (who : Requester) (off : Nat) (v : Word) : (writePwr s who off v).hif.guarded = s.hif.guarded := by
  unfold writePwr; dsimp only; split <;> cases who <;> simp [pfWrite]
@[simp] theorem ringStatWrite_guarded (s : State) (r : Nat) (v : Word) : (ringStatWrite s r v).hif.guarded = s.hif.guarded := by simp [ringStatWrite]
@[simp] theorem ringRegWrite_guarded (s : State) (off r o : Nat) (v : Word) : (ringRegWrite s off r o v).hif.guarded = s.hif.guarded := by
  unfold ringRegWrite; dsimp only; split <;> simp [takeHigh]
@[simp] theorem msixWrite_guarded (s : State) (f o : Nat) (v : Word) : (msixWrite s f o v).hif.guarded = s.hif.guarded := by
  unfold msixWrite; dsimp only; (repeat' split) <;> simp
@[simp] theorem chtabBaseHigh_guarded (s : State) (off : Nat) (v : Word) : (chtabBaseHigh s off v).hif.guarded = s.hif.guarded := by
  simp [chtabBaseHigh, takeHigh]
@[simp] theorem ledgCtlOp_guarded (s : State) (v : Word) : (ledgCtlOp s v).hif.guarded = s.hif.guarded := by simp [ledgCtlOp]
@[simp] theorem writeLedg_guarded (s : State) (off : Nat) (v : Word) : (writeLedg s off v).hif.guarded = s.hif.guarded := by
  unfold writeLedg; dsimp only; split <;> simp [takeHigh]
@[simp] theorem datumCtlOp_guarded (s : State) (v : Word) : (datumCtlOp s v).hif.guarded = s.hif.guarded := by simp [datumCtlOp]
@[simp] theorem tddOp_guarded (s : State) (v : Word) : (tddOp s v).hif.guarded = s.hif.guarded := by simp [tddOp]
@[simp] theorem writeTime_guarded (s : State) (who : Requester) (off : Nat) (v : Word) : (writeTime s who off v).hif.guarded = s.hif.guarded := by
  unfold writeTime; dsimp only; split <;> cases who <;> simp [pfWrite]
@[simp] theorem gateFwOp_guarded (s : State) (v : Word) : (gateFwOp s v).hif.guarded = s.hif.guarded := by simp [gateFwOp]
@[simp] theorem portCmdOp_guarded (s : State) (who : Requester) (v : Word) : (portCmdOp s who v).hif.guarded = s.hif.guarded := by
  unfold portCmdOp; split <;> simp
@[simp] theorem writeUpl_guarded (s : State) (who : Requester) (off : Nat) (v : Word) : (writeUpl s who off v).hif.guarded = s.hif.guarded := by
  unfold writeUpl; dsimp only; split <;> cases who <;> simp [pfWrite, lockWrite, fwWrite, takeHigh, uplLocked]
@[simp] theorem ftCmdOp_guarded (s : State) (p : Nat) (v : Word) : (ftCmdOp s p v).hif.guarded = s.hif.guarded := by unfold ftCmdOp; split <;> simp
@[simp] theorem writeXc_guarded (s : State) (who : Requester) (off : Nat) (v : Word) : (writeXc s who off v).hif.guarded = s.hif.guarded := by
  simp [writeXc]
@[simp] theorem writeSec_guarded (s : State) (who : Requester) (off : Nat) (v : Word) : (writeSec s who off v).hif.guarded = s.hif.guarded := by
  unfold writeSec; split <;> cases who <;> simp [pfWrite, lockWrite]
@[simp] theorem radCtlOp_guarded (s : State) (v : Word) : (radCtlOp s v).hif.guarded = s.hif.guarded := by simp [radCtlOp]
@[simp] theorem radAccessOp_guarded (s : State) (v : Word) : (radAccessOp s v).hif.guarded = s.hif.guarded := by
  unfold radAccessOp
  exact congrArg Hif.guarded (setRad_hif s _)
@[simp] theorem govWrite_guarded (s : State) (b o : Nat) (v : Word) : (govWrite s b o v).hif.guarded = s.hif.guarded := by simp [govWrite]
@[simp] theorem devCmdOp_guarded (s : State) (v : Word) : (devCmdOp s v).hif.guarded = s.hif.guarded := by simp [devCmdOp]
@[simp] theorem writeRad_guarded (s : State) (who : Requester) (off : Nat) (v : Word) : (writeRad s who off v).hif.guarded = s.hif.guarded := by
  cases who <;> simp [writeRad, pfWrite, lockWrite, fwWrite, takeHigh, radLocked]
@[simp] theorem auxOp_guarded (s : State) (v : Word) : (auxOp s v).hif.guarded = s.hif.guarded := by simp [auxOp]
@[simp] theorem writeSup_guarded (s : State) (who : Requester) (off : Nat) (v : Word) : (writeSup s who off v).hif.guarded = s.hif.guarded := by
  unfold writeSup; split <;> cases who <;> simp [pfWrite, lockWrite, supLocked]
@[simp] theorem routeOp_guarded (s : State) (i : Nat) (v : Word) : (routeOp s i v).hif.guarded = s.hif.guarded := by simp [routeOp]
@[simp] theorem writeEvt_guarded (s : State) (who : Requester) (off : Nat) (v : Word) : (writeEvt s who off v).hif.guarded = s.hif.guarded := by
  cases who <;> simp [writeEvt, pfWrite, fwWrite]
@[simp] theorem fwStatWrite_guarded (s : State) (who : Requester) (off : Nat) (v : Word) : (fwStatWrite s who off v).hif.guarded = s.hif.guarded := by
  unfold fwStatWrite; split <;> simp
@[simp] theorem kickOp_guarded (s : State) (who : Requester) (v : Word) : (kickOp s who v).hif.guarded = s.hif.guarded := by
  unfold kickOp; split <;> simp
@[simp] theorem writeFw_guarded (s : State) (who : Requester) (off : Nat) (v : Word) : (writeFw s who off v).hif.guarded = s.hif.guarded := by
  unfold writeFw; dsimp only; split <;> cases who <;> simp [pfWrite, fwWrite]
@[simp] theorem writeMgt_guarded (s : State) (who : Requester) (off : Nat) (v : Word) : (writeMgt s who off v).hif.guarded = s.hif.guarded := by
  cases who <;> simp [writeMgt, pfWrite]
@[simp] theorem shadowOp_guarded (s : State) (c : Nat) (f : Gcl → GclBank → GclBank) : (shadowOp s c f).hif.guarded = s.hif.guarded := by
  simp [shadowOp]
@[simp] theorem gclCtlOp_guarded (s : State) (c : Nat) (v : Word) : (gclCtlOp s c v).hif.guarded = s.hif.guarded := by simp [gclCtlOp]
@[simp] theorem writeChan_guarded (s : State) (who : Requester) (off c o : Nat) (v : Word) : (writeChan s who off c o v).hif.guarded = s.hif.guarded := by
  cases who <;> simp [writeChan, pfWrite, fwWrite]

/-! ### Reads and lingering domains (chapter 17) -/

@[simp] theorem readValue_guarded (s : State) (off : Nat) : (readValue s off).2.hif.guarded = s.hif.guarded := by
  unfold readValue; dsimp only; (repeat' split) <;> rfl
@[simp] theorem readOp_guarded (s : State) (who : Requester) (asked off : Nat) : (readOp s who asked off).hif.guarded = s.hif.guarded := by
  simp [readOp]
@[simp] theorem lingerOp_guarded (s : State) (d : Domain) : (lingerOp s d).hif.guarded = s.hif.guarded := by unfold lingerOp; (repeat' split) <;> simp

/-! ### The commands -/

/-- The outcome is no next state, or one that guards the same. -/
def KeepsGuarded (s : State) (o : Host.Outcome State Fault Refusal) : Prop := ∀ t, o = .next t → t.hif.guarded = s.hif.guarded

@[simp] theorem keepsGuarded_next (s t : State) : KeepsGuarded s (.next t) ↔ t.hif.guarded = s.hif.guarded := by simp [KeepsGuarded]

@[simp] theorem keepsGuarded_fault (s : State) (r : Fault) : KeepsGuarded s (.fault r) := by simp [KeepsGuarded]

@[simp] theorem keepsGuarded_ite (s : State) (p : Prop) [Decidable p] (a b : Host.Outcome State Fault Refusal) :
    KeepsGuarded s (if p then a else b) ↔ if p then KeepsGuarded s a else KeepsGuarded s b := by split <;> rfl

/-- The commands through which a reset, LOCK_ALL or a register write can reach the windows or their LOCK. -/
def reachesGuarded : Instr → Bool
  | .powerOn | .aonBrownOut | .wakePin | .perstAssert | .pcieHotReset | .linkDown | .hostFullReset .. | .testEnChange _ | .sealComplete
  | .watchdogExpiry _ | .lockAll _ | .registerWrite .. | .domainWakeOnAccess _ | .domainReady _ => true
  | _ => false

/-- Every other command keeps the windows and their LOCK. -/
theorem exec_guarded (c : Instr) (s : State) (h : reachesGuarded c = false) : KeepsGuarded s (exec c s) := by
  cases c with
  | powerOn => cases h
  | aonBrownOut => cases h
  | perstAssert => cases h
  | perstDeassert => simp [exec, execPerstDeassert]
  | pcieHotReset => cases h
  | linkDown => cases h
  | linkUp => simp [exec, execLinkUp]
  | pfFlr => simp [exec, execPfFlr, pfFlrOp]
  | vfFlr => simp [exec, execVfFlr, vfFlrOp]
  | channelIslandFault => simp [exec, execChannelIslandFault, islandFaultOp]
  | hostFullReset => cases h
  | testEnChange => cases h
  | registerWrite => cases h
  | unsupportedAccessWidth => simp [exec, execUnsupportedAccessWidth]
  | poisonedWrite => simp [exec, execPoisonedWrite]
  | busMasterEnableChange => simp [exec, execBusMasterEnableChange, sendPending]
  | memorySpaceEnableChange => simp [exec, execMemorySpaceEnableChange]
  | vfEnableWrite => simp [exec, execVfEnableWrite]
  | configPowerStateWrite => simp [exec, execConfigPowerStateWrite]
  | domainWakeOnAccess => cases h
  | domainReady => cases h
  | lingerExpiry => simp [exec, execLingerExpiry]
  | doorbell => dsimp only [exec, execDoorbell]; (repeat' split) <;> simp
  | descriptorFetch => simp [exec, execDescriptorFetch]
  | descriptorFetchComplete => simp [exec, execDescriptorFetchComplete]
  | ringHaltedClear => simp [exec, execRingHaltedClear]
  | ringCfgWrite => simp [exec, execRingCfgWrite]
  | createRing => simp [exec, execCreateRing]
  | destroyRing => simp [exec, execDestroyRing]
  | recordWrite => simp [exec, execRecordWrite]
  | recordAcknowledged => simp [exec, execRecordAcknowledged, recordAckedOp]
  | modTimeExpiry => simp [exec, execModTimeExpiry]
  | txFrame => simp [exec, execTxFrame]
  | txBufferRead => simp [exec, execTxBufferRead]
  | txBufferReadComplete => simp [exec, execTxBufferReadComplete]
  | rxBuffer => simp [exec, execRxBuffer]
  | rxFrameDeliver => simp [exec, execRxFrameDeliver]
  | lifetimeExpiry => simp [exec, execLifetimeExpiry]
  | ledgerEnable => simp [exec, execLedgerEnable]
  | ledgerAdopt => simp [exec, execLedgerAdopt]
  | ledgerClose => simp [exec, execLedgerClose]
  | ledgerWritesAcknowledged => simp [exec, execLedgerWritesAcknowledged, writesAckOp]
  | benchmarkRecordWrite => simp [exec, execBenchmarkRecordWrite]
  | ledgerTransferComplete => simp [exec, execLedgerTransferComplete, ledgerXferOp]
  | ledgerRetry => simp [exec, execLedgerRetry, ledgerRetryOp]
  | recoverySettle => simp [exec, execRecoverySettle]
  | recoveryDone => simp [exec, execRecoveryDone]
  | chtabRefresh => simp [exec, execChtabRefresh]
  | chRefresh => simp [exec, execChRefresh]
  | chReset => simp [exec, execChReset]
  | chtabEnableChange => simp [exec, execChtabEnableChange]
  | chtabReadPhaseComplete => simp [exec, execChtabReadPhaseComplete, phaseComplete]
  | chtabReadRetry => dsimp only [exec, execChtabReadRetry]; (repeat' split) <;> simp
  | chtabReadErrorRetry => dsimp only [exec, execChtabReadErrorRetry]; (repeat' split) <;> simp
  | chHoldWrite => simp [exec, execChHoldWrite]
  | islandPowered => simp [exec, execIslandPowered]
  | tddFrameBoundary => simp [exec, execTddFrameBoundary, boundaryOp, trainBoundary, clearStepped, serviceBoundary]
  | handshakeAnswer => simp [exec, execHandshakeAnswer, handshakeOp]
  | trainingPhaseEnd => simp [exec, execTrainingPhaseEnd]
  | marginUpdate => simp [exec, execMarginUpdate]
  | economyIdleTimerExpiry => simp [exec, execEconomyIdleTimerExpiry, econExpiry]
  | overheadReceived => simp [exec, execOverheadReceived]
  | dtuReceived => simp [exec, execDtuReceived, nextDtu, dtuReceivedOp, countErrDtu]
  | dtuClose => simp [exec, execDtuClose]
  | dtuLost => simp [exec, execDtuLost, dtuLostOp]
  | lossOfLine => simp [exec, execLossOfLine]
  | tribBlock => simp [exec, execTribBlock]
  | datumSecondBoundary => simp [exec, execDatumSecondBoundary, secondOp, govSecond, pmSecond]
  | ppsOutWidthExpiry => simp [exec, execPpsOutWidthExpiry]
  | psbdReceived => simp [exec, execPsbdReceived, psbdOp, xgtcOp]
  | psyncExpectedMiss => simp [exec, execPsyncExpectedMiss]
  | optRxLosChange => simp [exec, execOptRxLosChange]
  | lodsTo2Expiry => simp [exec, execLodsTo2Expiry]
  | optModAbsChange => simp [exec, execOptModAbsChange, modAbsOp]
  | opticsDiagPoll => simp [exec, execOpticsDiagPoll, opticsPollOp]
  | i2cStretchTimeout => simp [exec, execI2cStretchTimeout]
  | ploamReceived => simp [exec, execPloamReceived, ploam]
  | burstProfile => simp [exec, execBurstProfile, ploam]
  | assignOnuId => simp [exec, execAssignOnuId, assignOnu, ploam]
  | rangingTime => simp [exec, execRangingTime, rangeOp, ploam]
  | assignAllocId => simp [exec, execAssignAllocId, ploam]
  | deactivateOnuId => simp [exec, execDeactivateOnuId, ploam]
  | disableSerialNumber => simp [exec, execDisableSerialNumber, ploam]
  | xgemFrameReceived => simp [exec, execXgemFrameReceived]
  | burstContentFix => simp [exec, execBurstContentFix]
  | burstWindowOpen => simp [exec, execBurstWindowOpen]
  | burstWindowClose => simp [exec, execBurstWindowClose]
  | backstopExpiry => simp [exec, execBackstopExpiry, backstopOp]
  | rogueLight => simp [exec, execRogueLight]
  | rogueClear => dsimp only [exec, execRogueClear]; (repeat' split) <;> simp
  | emstopSet => simp [exec, execEmstopSet]
  | ponPowerSaveTimerExpiry => simp [exec, execPonPowerSaveTimerExpiry]
  | uplPortRead => simp [exec, execUplPortRead]
  | uplPortWrite => simp [exec, execUplPortWrite]
  | uplPortClear => simp [exec, execUplPortClear]
  | upstreamFrameReceived => simp [exec, execUpstreamFrameReceived]
  | pauseFrameReceived => simp [exec, execPauseFrameReceived]
  | pauseTimerExpiry => dsimp only [exec, execPauseTimerExpiry]; (repeat' split) <;> simp
  | pauseRefreshExpiry => simp [exec, execPauseRefreshExpiry]
  | flowTableRead => dsimp only [exec, execFlowTableRead]; (repeat' split) <;> simp
  | flowTableWrite => dsimp only [exec, execFlowTableWrite]; (repeat' split) <;> simp
  | flowTableClear => dsimp only [exec, execFlowTableClear]; (repeat' split) <;> simp
  | bufferUncorrectableError => simp [exec, execBufferUncorrectableError, countCorrected, bankLostOp, strikeAll]
  | schedulerSelect => dsimp only [exec, execSchedulerSelect]; (repeat' split) <;> simp
  | refillTick => simp [exec, execRefillTick]
  | gateIntervalExpiry => simp [exec, execGateIntervalExpiry]
  | gclSwap => simp [exec, execGclSwap]
  | histogramSample => simp [exec, execHistogramSample]
  | histClr => simp [exec, execHistClr]
  | todLoad => simp [exec, execTodLoad]
  | phaseAverage => simp [exec, execPhaseAverage]
  | holdoverEntry => simp [exec, execHoldoverEntry]
  | holdErrExceeded => simp [exec, execHoldErrExceeded, holdLimitOp]
  | crystalCalibration => simp [exec, execCrystalCalibration]
  | datumInvalidate => dsimp only [exec, execDatumInvalidate]; (repeat' split) <;> simp
  | ppsInEdge => simp [exec, execPpsInEdge]
  | rxtsNext => dsimp only [exec, execRxtsNext]; (repeat' split) <;> simp
  | gcmEncrypt => simp [exec, execGcmEncrypt]
  | gcmDecrypt => simp [exec, execGcmDecrypt]
  | cmac => simp [exec, execCmac]
  | cvUpdate => simp [exec, execCvUpdate]
  | cvSave => simp [exec, execCvSave]
  | cvRestore => simp [exec, execCvRestore]
  | keyGen => simp [exec, execKeyGen]
  | keyLoad => simp [exec, execKeyLoad]
  | keyImport => simp [exec, execKeyImport]
  | keyExport => simp [exec, execKeyExport]
  | keyDerive => simp [exec, execKeyDerive]
  | keyClear => simp [exec, execKeyClear]
  | keyInfo => simp [exec, execKeyInfo]
  | random => simp [exec, execRandom]
  | ccmStar => simp [exec, execCcmStar]
  | gcmKnownAnswerTest => simp [exec, execGcmKnownAnswerTest]
  | gcmCoreFail => simp [exec, execGcmCoreFail]
  | trngHealthFail => simp [exec, execTrngHealthFail]
  | trngRetest => simp [exec, execTrngRetest, reseedBoth]
  | drbgReseed => simp [exec, execDrbgReseed]
  | maskReseed => simp [exec, execMaskReseed]
  | radFrame => simp [exec, execRadFrame]
  | csmaBackoffExpiry => simp [exec, execCsmaBackoffExpiry]
  | lbtListenEnd => simp [exec, execLbtListenEnd]
  | radioTxEnd => simp [exec, execRadioTxEnd]
  | radioAckReceived => simp [exec, execRadioAckReceived]
  | radioAckTimeout => simp [exec, execRadioAckTimeout]
  | radioFrameReceived => simp [exec, execRadioFrameReceived]
  | radioAckTransmit => simp [exec, execRadioAckTransmit]
  | radioRxDeliver => simp [exec, execRadioRxDeliver]
  | radDevRead => simp [exec, execRadDevRead]
  | radDevWrite => simp [exec, execRadDevWrite]
  | radDevClear => simp [exec, execRadDevClear]
  | levelCrossingDeclared => simp [exec, execLevelCrossingDeclared, crossingOp]
  | sealComplete => cases h
  | feedAdmissionTick => simp [exec, execFeedAdmissionTick, admitOne]
  | feedRampEnd => simp [exec, execFeedRampEnd]
  | feedShortTrip => simp [exec, execFeedShortTrip]
  | feedOverloadTrip => simp [exec, execFeedOverloadTrip]
  | feedPowerTrip => simp [exec, execFeedPowerTrip]
  | feedBackoffExpiry => simp [exec, execFeedBackoffExpiry]
  | feedTriesReset => simp [exec, execFeedTriesReset]
  | feedInrushAbort => simp [exec, execFeedInrushAbort]
  | feedUnlock => dsimp only [exec, execFeedUnlock]; (repeat' split) <;> simp
  | feedHoldOff => simp [exec, execFeedHoldOff]
  | feedPulseStart => simp [exec, execFeedPulseStart]
  | feedPulseEnd => simp [exec, execFeedPulseEnd]
  | feedWindowClose => simp [exec, execFeedWindowClose, windowCloseOp]
  | idleTimerExpiry => simp [exec, execIdleTimerExpiry]
  | idleExit => simp [exec, execIdleExit]
  | sleepTimerExpiry => simp [exec, execSleepTimerExpiry]
  | l1EntryRequest => simp [exec, execL1EntryRequest]
  | pwrEnter => simp [exec, execPwrEnter]
  | pwrGoDeep => simp [exec, execPwrGoDeep]
  | pwrGoOff => simp [exec, execPwrGoOff]
  | pmeTurnOff => simp [exec, execPmeTurnOff]
  | entryTimeout => simp [exec, execEntryTimeout]
  | powerDownStep => simp [exec, execPowerDownStep]
  | railCollapse => simp [exec, execRailCollapse, railCollapseOp]
  | wakePin => cases h
  | pwrAlarm => simp [exec, execPwrAlarm]
  | powerUpStep => simp [exec, execPowerUpStep, powerUpOp]
  | railGoodTimeout => simp [exec, execRailGoodTimeout, railTimeoutOp]
  | powerUpRetry => simp [exec, execPowerUpRetry]
  | imageHandover => simp [exec, execImageHandover]
  | watchdogKick => simp [exec, execWatchdogKick]
  | watchdogExpiry => cases h
  | cpReady => simp [exec, execCpReady]
  | flashWrite => simp [exec, execFlashWrite, flashOp, flashSlot, flashGens]
  | ptpUnpairedDrop => simp [exec, execPtpUnpairedDrop]
  | fwStage => simp [exec, execFwStage]
  | fwActivate => simp [exec, execFwActivate]
  | fwConfirm => simp [exec, execFwConfirm]
  | fwFallback => simp [exec, execFwFallback]
  | capsuleApply => simp [exec, execCapsuleApply]
  | confirmationTimeout => simp [exec, execConfirmationTimeout]
  | fwSlotFallback => simp [exec, execFwSlotFallback]
  | fwSlotConfirm => simp [exec, execFwSlotConfirm]
  | revert => simp [exec, execRevert]
  | bmcOff => simp [exec, execBmcOff]
  | lockAll => cases h
  | ahnairSelectFall => simp [exec, execAhnairSelectFall, selectFallOp]
  | ahnairSelectRise => simp [exec, execAhnairSelectRise, selectRiseOp]
  | read => simp [exec, execRead]
  | write => simp [exec, execWrite]
  | status => simp [exec, execStatus, header]
  | arm => simp [exec, execArm]
  | ahnairUnknownOpcode => simp [exec, execAhnairUnknownOpcode]
  | ahnairDataWord => simp [exec, execAhnairDataWord]
  | evtSoft => simp [exec, execEvtSoft]
  | eventCounterConfig => simp [exec, execEventCounterConfig]
  | eventCounterClear => simp [exec, execEventCounterClear]
  | counterDurationTick => simp [exec, execCounterDurationTick, durationTickOp]
  | secOperationComplete => simp [exec, execSecOperationComplete]
  | identityLoaded => simp [exec, execIdentityLoaded]
  | crystalRunning => simp [exec, execCrystalRunning]

/-! ### Resets (R17, R20, R55) -/

/-- Every window at its reset value. -/
def resetWindows : Vector (Vector Window 8) 25 := Vector.replicate 25 (Vector.replicate 8 Window.reset)

/-- The windows stay and a LOCK that is set stays set, or every window is at its reset value. -/
def HeldOrReset (g h : Vector (Vector Window 8) 25 × Bool) : Prop :=
  (h.1 = g.1 ∧ (g.2 = true → h.2 = true)) ∨ h.1 = resetWindows

@[simp] theorem HeldOrReset.refl (g : Vector (Vector Window 8) 25 × Bool) : HeldOrReset g g := .inl ⟨rfl, id⟩

@[simp] theorem heldOrReset_resetWindows (g : Vector (Vector Window 8) 25 × Bool) (l : Bool) : HeldOrReset g (resetWindows, l) := .inr rfl

@[simp] theorem hifDevice_guarded (h : Hif) : (hifDevice h).guarded = (resetWindows, false) := rfl

@[simp] theorem msixDevice_guarded (h : Hif) : (msixDevice h).guarded = h.guarded := by
  simp [msixDevice]

@[simp] theorem powerOnOp_guarded (s : State) : (powerOnOp s).hif.guarded = (resetWindows, false) := rfl

@[simp] theorem clearDevice_guarded (s : State) (code : Nat) : (clearDevice s code).hif.guarded = (resetWindows, false) := by
  simp [clearDevice]

@[simp] theorem resetDevice_guarded (s : State) (c : ResetCause) : (resetDevice s c).hif.guarded = (resetWindows, false) := by
  simp [resetDevice]

theorem deviceReset_heldOrReset (s : State) (c : ResetCause) : HeldOrReset s.hif.guarded (deviceReset s c).hif.guarded := by
  unfold deviceReset; split <;> simp

theorem resetCause_heldOrReset (s : State) (c : ResetCause) : HeldOrReset s.hif.guarded (resetCause s c).hif.guarded := by
  unfold resetCause
  split
  · simp
  · exact deviceReset_heldOrReset s c

theorem busReset_heldOrReset (s : State) (c : ResetCause) : HeldOrReset s.hif.guarded (busReset s c).hif.guarded := by
  unfold busReset; dsimp only
  split
  · simp
  · simpa using resetCause_heldOrReset (resetConfig (loseLink s)) c

theorem hostResetOp_heldOrReset (s : State) (key : Word) : HeldOrReset s.hif.guarded (hostResetOp s key).hif.guarded := by
  unfold hostResetOp
  (repeat' split)
  · simp
  · simp
  · exact deviceReset_heldOrReset s _

theorem testEnOp_heldOrReset (s : State) (level : Bool) : HeldOrReset s.hif.guarded (testEnOp s level).hif.guarded := by
  unfold testEnOp; dsimp only
  split
  · simpa [holdDomains] using busReset_heldOrReset (modPwr s (fun p => { p with testEn := _ })) .linkOrHot
  · simp
  · simp

theorem afterSeal_heldOrReset (s : State) (held : Option ResetCause) : HeldOrReset s.hif.guarded (afterSeal s held).hif.guarded := by
  unfold afterSeal
  (repeat' split)
  next c => simpa using deviceReset_heldOrReset s c
  all_goals simp

theorem sealCompleteOp_heldOrReset (s : State) : HeldOrReset s.hif.guarded (sealCompleteOp s).hif.guarded := by
  unfold sealCompleteOp; dsimp only
  (repeat' split)
  case h_4.isTrue => simpa using afterSeal_heldOrReset (sealDoneOp s) s.sup.heldReset
  all_goals simp

theorem watchdogOp_heldOrReset (s : State) (cp : Nat) : HeldOrReset s.hif.guarded (watchdogOp s cp).hif.guarded := by
  unfold watchdogOp
  split
  · simp
  split
  · simpa [fatalWatchdog] using resetCause_heldOrReset (setCp (if s.fw.trialLive then modFw s endTrial else s) cp .reset) .watchdog
  · simp

theorem lockAllOp_heldOrReset (s : State) : HeldOrReset s.hif.guarded (lockAllOp s).hif.guarded := .inl ⟨rfl, fun _ => rfl⟩

theorem pfWrite_heldOrReset (s : State) (who : Requester) (off : Nat) (acts : Bool) (f : State → State)
    (h : HeldOrReset s.hif.guarded (f s).hif.guarded) : HeldOrReset s.hif.guarded (pfWrite s who off acts f).hif.guarded := by
  unfold pfWrite
  (repeat' split)
  · exact h
  · simp
  · simp
  · simp

/-! ### Register writes (R55, R375) -/

theorem writeGlb_heldOrReset (s : State) (who : Requester) (off : Nat) (v : Word) :
    HeldOrReset s.hif.guarded (writeGlb s who off v).hif.guarded := by
  unfold writeGlb
  split
  · exact pfWrite_heldOrReset _ _ _ _ _ (by simp [nextOp])
  · refine pfWrite_heldOrReset _ _ _ _ _ ?_
    split
    · exact lockAllOp_heldOrReset s
    · simp
  · exact pfWrite_heldOrReset _ _ _ _ _ (hostResetOp_heldOrReset s v)
  · exact pfWrite_heldOrReset _ _ _ _ _ (by simp)
  · simp

/-- R55, R375: a write of a locked field is ignored with LOCKED_WRITE. -/
theorem lockWrite_of_locked {locked : Bool} (h : locked = true) (s : State) (off : Nat) (f : State → State) :
    lockWrite s locked off f = raise s Src.lockedWrite 0xFF (word off) := by
  simp [lockWrite, h]

/-- A write that is not the PF's, or that meets the LOCK set, does not act on a window or on the LOCK. -/
theorem writeHif_guarded (s : State) (who : Requester) (off : Nat) (v : Word) (h : who = .pf → s.hif.lock = true) :
    (writeHif s who off v).hif.guarded = s.hif.guarded := by
  cases who with
  | pf => simp [writeHif, pfWrite, windowWrite, lockWrite_of_locked (h rfl)]
  | fw cp => simp [writeHif, pfWrite]
  | vf c => simp [writeHif, pfWrite]

theorem writeReg_heldOrReset (s : State) (who : Requester) (off : Nat) (v : Word) (h : who = .pf → s.hif.lock = true) :
    HeldOrReset s.hif.guarded (writeReg s who off v).hif.guarded := by
  unfold writeReg
  split
  · simp
  split
  · split <;> simp
  split
  · simp
  split
  case h_1 => exact writeGlb_heldOrReset s who off v
  all_goals simp [writeHif_guarded s who off v h]

theorem applyAccess_heldOrReset (s : State) (a : Access) (h : a.who = .pf → a.value ≠ none → s.hif.lock = true) :
    HeldOrReset s.hif.guarded (applyAccess s a).hif.guarded := by
  unfold applyAccess
  split
  · simp
  · simp
  · simp
  next v _ hv => exact writeReg_heldOrReset s a.who _ v (fun hw => h hw (by simp [hv]))

theorem servedAccess_heldOrReset (s : State) (a : Access) (h : a.who = .pf → a.value ≠ none → s.hif.lock = true) :
    HeldOrReset s.hif.guarded (servedAccess s a).hif.guarded := by
  unfold servedAccess
  (repeat' split)
  · exact applyAccess_heldOrReset s a h
  · simp
  · simp

theorem accessOp_heldOrReset (s : State) (a : Access) (h : a.who = .pf → a.value ≠ none → s.hif.lock = true) :
    HeldOrReset s.hif.guarded (accessOp s a).hif.guarded := by
  have hlock : (hostWrote s).hif.lock = s.hif.lock := congrArg Prod.snd (hostWrote_guarded s)
  unfold accessOp
  split
  · simp
  split
  · simp
  split
  · simpa using servedAccess_heldOrReset (hostWrote s) a (by simpa only [hlock] using h)
  · exact servedAccess_heldOrReset s a h

/-- The command is a write of the PF, or lets accesses that waited take place. -/
def mayWriteWindows : Instr → Prop
  | .registerWrite who _ _ => who = .pf
  | .domainWakeOnAccess a => a.who = .pf ∧ a.value ≠ none
  | .domainReady _ => True
  | _ => False

/-- A command that completes leaves the windows and a LOCK that is set as they were, or every window at its reset value; a write of the PF does so while the LOCK is set. -/
theorem exec_heldOrReset (c : Instr) (s t : State) (hready : ∀ d, c ≠ .domainReady d) (hlock : mayWriteWindows c → s.hif.lock = true)
    (h : exec c s = .next t) : HeldOrReset s.hif.guarded t.hif.guarded := by
  cases hc : reachesGuarded c with
  | false => simp [exec_guarded c s hc t h]
  | true =>
    cases c with
    | powerOn => cases h; simp
    | aonBrownOut => cases h; simp
    | wakePin => cases h; split <;> simp [wakeIf]
    | perstAssert =>
      cases h
      split
      · simp
      · simpa using busReset_heldOrReset (modHif s (fun x => { x with perst := true })) .perst
    | pcieHotReset =>
      cases h
      split
      · exact busReset_heldOrReset s _
      · simp
    | linkDown =>
      cases h
      split
      · exact busReset_heldOrReset s _
      · simp
    | hostFullReset who key =>
      cases h
      (repeat' split)
      · simp
      · simp
      · simp
      · exact hostResetOp_heldOrReset s key
    | testEnChange level => cases h; exact testEnOp_heldOrReset s level
    | sealComplete => cases h; exact sealCompleteOp_heldOrReset s
    | watchdogExpiry cp => cases h; exact watchdogOp_heldOrReset s cp.val
    | lockAll who => cases h; exact pfWrite_heldOrReset s who _ _ _ (lockAllOp_heldOrReset s)
    | registerWrite who off v => cases h; exact accessOp_heldOrReset s _ (fun hw _ => hlock hw)
    | domainWakeOnAccess a => cases h; exact accessOp_heldOrReset s a (fun hw hv => hlock ⟨hw, hv⟩)
    | domainReady d => exact absurd rfl (hready d)
    | _ => cases hc

/-! ### The PF's and firmware's writes of a window (R55, R375) -/

theorem hostWrote_of_not_entering (s : State) (h : s.pwr.state ≠ .entering) : hostWrote s = s := by
  simp [hostWrote, abandonEntry, h]

/-- A write of a HIF register by the PF or by firmware that is served and does not wait takes place at once. -/
theorem registerWrite_hif (s : State) (who : Requester) (v : Word) (off : BitVec 22) (hvf : ∀ c, who ≠ .vf c)
    (htest : s.pwr.testEn = false) (hdom : s.pwr.domHif = true) (hwait : s.pwr.waiting = []) (hst : s.pwr.state ≠ .entering)
    (hbar : barServes s who = true) (hblock : off.toNat / 0x10000 = 1) (hholds : holdsReg s off.toNat = true) :
    exec (.registerWrite who off v) s = .next (writeHif s who off.toNat v) := by
  have hview : viewOff who off.toNat = some off.toNat := by
    cases who with
    | vf c => exact absurd rfl (hvf c)
    | _ => simp only [viewOff]; rw [if_neg (by omega), if_pos (by omega)]
  have hreg : regDomain off.toNat = .hif := by
    simp only [regDomain, hblock]; rw [if_neg (by omega), if_neg (by omega)]
  have hnow : waitsFor s { who := who, off := off, value := some v } = none := by
    simp [waitsFor, hview, hreg, domReady, domOn, hdom, hwait]
  have hwrite : writeReg s who off.toNat v = writeHif s who off.toNat v := by
    simp only [writeReg, hholds, hblock]
    rw [if_neg (by simp), if_neg (by omega), if_neg (by omega)]
  show Host.Outcome.next (accessOp s _) = _
  simp [accessOp, htest, hbar, hostWrote_of_not_entering s hst, servedAccess, hnow, applyAccess, hview, hwrite]

/-- Register k of window w of function f stands in the HIF block, and decodes to f, w and 4 k. -/
theorem windowOff_decodes {off f w k : Nat} (hf : f ≤ 24) (hw : w < 8) (hk : k < 4) (h : off = 0x11000 + 0x80 * f + 0x10 * w + 4 * k) :
    off / 0x10000 = 1 ∧ 0x1000 ≤ off % 0x10000 ∧ off % 0x10000 < 0x1C80 ∧ (off % 0x10000 - 0x1000) / 0x80 = f ∧
      off % 0x10000 % 0x80 / 0x10 = w ∧ off % 0x10000 % 0x10 / 4 = k ∧ off % 4 = 0 := by
  omega

theorem channels_le (p : Part) : p.channels ≤ 24 := by cases p <;> decide

/-- Every window register of a function that the part has is a register. -/
theorem windowOff_holds (s : State) {off f w k : Nat} (hf : f ≤ s.part.channels) (hw : w < 8) (hk : k < 4)
    (h : off = 0x11000 + 0x80 * f + 0x10 * w + 4 * k) : holdsReg s off = true := by
  obtain ⟨hblock, hlo, hhi, hfn, -, -, halign⟩ := windowOff_decodes (hf.trans (channels_le s.part)) hw hk h
  have h1 : ¬ 0x400000 ≤ off := by omega
  have h2 : ¬ (0x100000 ≤ off ∧ off < 0x280000) := by omega
  simp [holdsReg, hifHolds, h1, h2, hblock, halign, hlo, hhi, hfn, hf]

/-- A write in the windows' registers is a write of the PF's window register it names. -/
theorem writeHif_window (s : State) (who : Requester) (v : Word) {off f w k : Nat} (hf : f ≤ 24) (hw : w < 8) (hk : k < 4)
    (h : off = 0x11000 + 0x80 * f + 0x10 * w + 4 * k) :
    writeHif s who off v = pfWrite s who off true (fun t => windowWrite t off f w (off % 0x10000 % 0x10) v) := by
  obtain ⟨-, hlo, hhi, hfn, hwin, -, -⟩ := windowOff_decodes hf hw hk h
  unfold writeHif; dsimp only
  iterate 6 rw [if_neg (by omega)]
  rw [if_pos ⟨hlo, hhi⟩, hfn, hwin]

theorem windowWrite_of_locked (s : State) (off f w o : Nat) (v : Word) (hl : s.hif.lock = true) :
    windowWrite s off f w o v = raise s Src.lockedWrite 0xFF (word off) := by
  simp [windowWrite, lockWrite_of_locked hl]

theorem writeHif_lock_of_locked (s : State) (v : Word) (hl : s.hif.lock = true) :
    writeHif s .pf 0x10004 v = raise s Src.lockedWrite 0xFF 0x10004 := by
  simp [writeHif, pfWrite, lockWrite_of_locked hl, word]

/-- Window w of function f. -/
def windowAt (h : Hif) (f w : Nat) : Window := vget (vget h.windows f (Vector.replicate 8 Window.reset)) w Window.reset

theorem newBase_toNat (old : BitVec 52) (low v : Word) : (newBase old (some low) v).toNat = v.toNat * 2 ^ 20 + low.toNat / 2 ^ 12 := by
  have := low.isLt
  have := v.isLt
  simp only [newBase, bits, BitVec.toNat_ofNat]
  omega

/-- The window once the high half v of its base is written over the low half held. -/
def basedWindow (x : Window) (low v : Word) : Window :=
  { x with base := newBase x.base (some low) v, write := bitOf low 2, read := bitOf low 1, enable := bitOf low 0 }

theorem basedWindow_fields (x : Window) (low v : Word) :
    (basedWindow x low v).base.toNat = v.toNat * 2 ^ 20 + low.toNat / 2 ^ 12 ∧ (basedWindow x low v).write = low.getLsbD 2 ∧
      (basedWindow x low v).read = low.getLsbD 1 ∧ (basedWindow x low v).enable = low.getLsbD 0 ∧ (basedWindow x low v).limit = x.limit := by
  refine ⟨newBase_toNat x.base low v, rfl, rfl, rfl, ?_⟩
  unfold basedWindow; rfl

/-- The host interface once window w of function f has its base. -/
def withBase (h : Hif) (off f w : Nat) (low v : Word) : Hif :=
  { h with
    winLo := without h.winLo (off - 4)
    windows := vset h.windows f (vset (vget h.windows f (Vector.replicate 8 Window.reset)) w (basedWindow (windowAt h f w) low v)) }

theorem windowWrite_base (s : State) {off f w o : Nat} {v low : Word} (ho : o / 4 = 1) (hl : s.hif.lock = false)
    (hlow : lookup s.hif.winLo (off - 4) = some low) :
    windowWrite s off f w o v = { s with hif := withBase s.hif off f w low v } := by
  simp [windowWrite, lockWrite, ho, hl, takeHigh, hlow, modHif, withBase, basedWindow, windowAt]

theorem windowAt_withBase (h : Hif) (off : Nat) {f w : Nat} (low v : Word) (g y : Nat) (hf : f < 25) (hw : w < 8) :
    windowAt (withBase h off f w low v) g y = if (g, y) = (f, w) then basedWindow (windowAt h f w) low v else windowAt h g y := by
  unfold windowAt withBase
  by_cases hg : g = f
  · subst hg
    by_cases hy : y = w
    · subst hy; simp [vget_vset_self, hf, hw, windowAt]
    · rw [vget_vset_self _ _ _ _ hf, vget_vset_ne _ _ _ _ _ hy, if_neg (by simp [hy])]
  · rw [vget_vset_ne _ _ _ _ _ hg, if_neg (by simp [hg])]

section

variable {s : State} {f w : Nat} {v : Word} {off : BitVec 22}

/-- The PF or firmware writes register k of window w of function f: the write reaches windowWrite unless it is denied. -/
theorem registerWrite_window (who : Requester) (hvf : ∀ c, who ≠ .vf c) (htest : s.pwr.testEn = false) (hdom : s.pwr.domHif = true)
    (hwait : s.pwr.waiting = []) (hst : s.pwr.state ≠ .entering) (hbar : barServes s who = true) (hf : f ≤ s.part.channels) (hw : w < 8)
    {k : Nat} (hk : k < 4) (hoff : off.toNat = 0x11000 + 0x80 * f + 0x10 * w + 4 * k) :
    exec (.registerWrite who off v) s =
      .next (pfWrite s who off.toNat true (fun t => windowWrite t off.toNat f w (off.toNat % 0x10000 % 0x10) v)) := by
  have hf24 := hf.trans (channels_le s.part)
  rw [registerWrite_hif s who v off hvf htest hdom hwait hst hbar (windowOff_decodes hf24 hw hk hoff).1 (windowOff_holds s hf hw hk hoff),
    writeHif_window s who v hf24 hw hk hoff]

/-- The write of the PF's LOCK register while it is set. -/
theorem registerWrite_lock_of_locked (htest : s.pwr.testEn = false) (hdom : s.pwr.domHif = true) (hwait : s.pwr.waiting = [])
    (hst : s.pwr.state ≠ .entering) (hbar : barServes s .pf = true) (hl : s.hif.lock = true) (hoff : off.toNat = 0x10004) :
    exec (.registerWrite .pf off v) s = .next (raise s Src.lockedWrite 0xFF 0x10004) := by
  have hholds : holdsReg s off.toNat = true := by simp [hoff, holdsReg, hifHolds]
  rw [registerWrite_hif s .pf v off (by simp) htest hdom hwait hst hbar (by omega) hholds, hoff, writeHif_lock_of_locked s v hl]

/-- What the write of a window's base leaves in the windows. -/
theorem withBase_windows (h : Hif) (off : Nat) (low : Word) (hf : f ≤ 24) (hw : w < 8) :
    (let x := vget (vget (withBase h off f w low v).windows f (Vector.replicate 8 Window.reset)) w Window.reset
     x.base.toNat = v.toNat * 2 ^ 20 + low.toNat / 2 ^ 12 ∧ x.write = low.getLsbD 2 ∧ x.read = low.getLsbD 1 ∧ x.enable = low.getLsbD 0 ∧
       x.limit = (vget (vget h.windows f (Vector.replicate 8 Window.reset)) w Window.reset).limit) ∧
    ∀ g y, (g, y) ≠ (f, w) → vget (vget (withBase h off f w low v).windows g (Vector.replicate 8 Window.reset)) y Window.reset =
      vget (vget h.windows g (Vector.replicate 8 Window.reset)) y Window.reset := by
  have hat := fun g y => windowAt_withBase h off low v g y (show f < 25 by omega) hw
  refine ⟨?_, fun g y hne => (hat g y).trans (if_neg hne)⟩
  intro x
  have hx : x = basedWindow (windowAt h f w) low v := (hat f w).trans (if_pos rfl)
  rw [hx]
  exact basedWindow_fields (windowAt h f w) low v

end

/-! ### The statement -/

theorem windows_of_heldOrReset {s t : State} (h : HeldOrReset s.hif.guarded t.hif.guarded) :
    (t.hif.windows = s.hif.windows ∧ (s.hif.lock = true → t.hif.lock = true)) ∨
      t.hif.windows = Vector.replicate 25 (Vector.replicate 8 Window.reset) := h

/-- Settles O60: every command but a write of the PF keeps the windows and a set LOCK, or resets the windows; the PF's and firmware's
writes of a window register are followed through the access to the register. -/
theorem windowsChangedByThePfAlone : Obligations.WindowsChangedByThePfAlone := by
  unfold Obligations.WindowsChangedByThePfAlone
  refine ⟨fun c s t hl hready h => ?_, fun c s t h => ?_, fun s f w v off htest hdom hwait hst hf hw => ⟨fun cp k hk hoff => ?_,
    fun hbar hl => ⟨fun k hk hoff => ?_, registerWrite_lock_of_locked htest hdom hwait hst hbar hl⟩, fun hbar hl low hoff hlow => ?_⟩⟩
  · obtain ⟨hwin, hlock⟩ | hreset := windows_of_heldOrReset (exec_heldOrReset c s t hready (fun _ => hl) h)
    · exact .inl ⟨hlock hl, hwin⟩
    · exact .inr hreset
  · by_cases hc : mayWriteWindows c
    · cases c with
      | registerWrite who off v => cases hc; exact .inr (.inr (.inl ⟨off, v, rfl⟩))
      | domainWakeOnAccess a => exact .inr (.inr (.inr (.inl ⟨a, rfl, hc⟩)))
      | domainReady d => exact .inr (.inr (.inr (.inr ⟨d, rfl⟩)))
      | _ => exact hc.elim
    · have hready : ∀ d, c ≠ .domainReady d := by rintro d rfl; exact hc trivial
      obtain ⟨hwin, -⟩ | hreset := windows_of_heldOrReset (exec_heldOrReset c s t hready (fun x => absurd x hc) h)
      · exact .inl hwin
      · exact .inr (.inl hreset)
  · rw [registerWrite_window (.fw cp) (by simp) htest hdom hwait hst rfl hf hw hk hoff]
    simp [pfWrite, fwDenied]
  · rw [registerWrite_window .pf (by simp) htest hdom hwait hst hbar hf hw hk hoff]
    simp [pfWrite, windowWrite_of_locked s _ _ _ _ _ hl]
  · have hoff' : off.toNat = 0x11000 + 0x80 * f + 0x10 * w + 4 * 1 := by omega
    have hreg : off.toNat % 0x10000 % 0x10 / 4 = 1 := by omega
    refine ⟨{ s with hif := withBase s.hif off.toNat f w low v }, ?_, rfl, withBase_windows s.hif off.toNat low (hf.trans (channels_le s.part)) hw⟩
    rw [registerWrite_window .pf (by simp) htest hdom hwait hst hbar hf hw (by decide) hoff']
    exact congrArg _ (windowWrite_base s hreg hl hlow)

end Sys2Proof.Machine

/-! # R72: no fetch begins unless the ledger is ACTIVE

A fetch is in flight on a ring as its field `fetch` (new descriptors) or `refetch` (the descriptor of accepted work). Only the arbiter's grant
sets either, and it grants only while LEDG_STAT.STATE is ACTIVE. The proof says, once for each operation of the model, what it does to these two
fields of the rings: an operation that touches no ring leaves them all (the lemmas `_rings`); one that touches rings, but not these fields, leaves
the fetches in flight (`_fetches`); and one that ends fetches, as a halt, a ring's creation or destruction, a recovery, a lost link and a reset do,
begins none (`_beginsNone`). The last are stated from any earlier moment p on, so that they chain; where such an operation acts on a plain update of
a field, its lemma is cited by name. -/

namespace Sys2Proof.Machine

open Sys2Proof

/-- The fetches in flight on ring r: of new descriptors, and of accepted work's descriptor. -/
def fetches (rs : Vector Ring 160) (r : Nat) : Option (Word × Nat) × Option Word :=
  ((vget rs r (Ring.reset r)).fetch, (vget rs r (Ring.reset r)).refetch)

theorem fetches_apply (s : State) (r : Nat) : fetches s.rings r = ((ringAt s r).fetch, (ringAt s r).refetch) := rfl

/-- From p to q no fetch begins on any ring: what was not in flight is not. -/
def BeginsNone (p q : Nat → Option (Word × Nat) × Option Word) : Prop :=
  ∀ r, ((p r).1 = none → (q r).1 = none) ∧ ((p r).2 = none → (q r).2 = none)

@[simp] theorem BeginsNone.refl (p : Nat → Option (Word × Nat) × Option Word) : BeginsNone p p := fun _ => ⟨id, id⟩

theorem BeginsNone.trans {p q r : Nat → Option (Word × Nat) × Option Word} (h : BeginsNone p q) (k : BeginsNone q r) : BeginsNone p r :=
  fun x => ⟨fun e => (k x).1 ((h x).1 e), fun e => (k x).2 ((h x).2 e)⟩

section

variable {p : Nat → Option (Word × Nat) × Option Word}

/-! ### Branches and folds -/

@[simp] theorem rings_ite (c : Prop) [Decidable c] (s t : State) : (if c then s else t).rings = if c then s.rings else t.rings := by
  split <;> rfl

@[simp] theorem fetches_ite (c : Prop) [Decidable c] (v w : Vector Ring 160) :
    fetches (if c then v else w) = if c then fetches v else fetches w := by split <;> rfl

@[simp] theorem beginsNone_ite (c : Prop) [Decidable c] (q r : Nat → Option (Word × Nat) × Option Word) :
    BeginsNone p (if c then q else r) ↔ if c then BeginsNone p q else BeginsNone p r := by split <;> rfl

@[simp] theorem fetch_ite (c : Prop) [Decidable c] (g h : Ring) : (if c then g else h).fetch = if c then g.fetch else h.fetch := by split <;> rfl

@[simp] theorem refetch_ite (c : Prop) [Decidable c] (g h : Ring) : (if c then g else h).refetch = if c then g.refetch else h.refetch := by
  split <;> rfl

@[simp] theorem foldl_rings {α : Type} (f : State → α → State) (h : ∀ s a, (f s a).rings = s.rings) (l : List α) (s : State) :
    (l.foldl f s).rings = s.rings := foldl_keeps (fun t => t.rings) f h l s

@[simp] theorem foldl_fetches {α : Type} (f : State → α → State) (h : ∀ s a, fetches (f s a).rings = fetches s.rings) (l : List α)
    (s : State) : fetches (l.foldl f s).rings = fetches s.rings := foldl_keeps (fun t => fetches t.rings) f h l s

@[simp] theorem foldl_beginsNone {α : Type} (f : State → α → State) (hf : ∀ s a, BeginsNone (fetches s.rings) (fetches (f s a).rings))
    (l : List α) (s : State) (h : BeginsNone p (fetches s.rings)) : BeginsNone p (fetches (l.foldl f s).rings) := by
  induction l generalizing s with
  | nil => exact h
  | cons a l ih => exact ih _ (h.trans (hf s a))

theorem iter_rings (f : State → State) (h : ∀ s, (f s).rings = s.rings) (n : Nat) (s : State) : (iter f n s).rings = s.rings := by
  induction n generalizing s with
  | zero => rfl
  | succ n ih => rw [iter, ih, h]

/-! ### One ring and every ring changed -/

@[simp] theorem setRing_fetches (s : State) (r : Nat) (f : Ring → Ring) (hf : ∀ g, (f g).fetch = g.fetch ∧ (f g).refetch = g.refetch) :
    fetches (setRing s r f).rings = fetches s.rings := by
  funext x
  rw [fetches_apply, fetches_apply, ringAt_setRing]
  split
  next hr => rw [(hf _).1, (hf _).2, hr.1]
  · rfl

@[simp] theorem setRing_beginsNone (s : State) (r : Nat) (f : Ring → Ring)
    (hf : ∀ g, (g.fetch = none → (f g).fetch = none) ∧ (g.refetch = none → (f g).refetch = none))
    (h : BeginsNone p (fetches s.rings)) : BeginsNone p (fetches (setRing s r f).rings) := by
  refine h.trans fun x => ?_
  rw [fetches_apply, fetches_apply, ringAt_setRing]
  split
  next hr => rw [← hr.1]; exact hf _
  · exact ⟨id, id⟩

@[simp] theorem mapRings_fetches (s : State) (f : Nat → Ring → Ring) (hf : ∀ r g, (f r g).fetch = g.fetch ∧ (f r g).refetch = g.refetch) :
    fetches (mapRings s f).rings = fetches s.rings := by
  funext x
  rw [fetches_apply, fetches_apply, ringAt_mapRings]
  split
  · rw [(hf _ _).1, (hf _ _).2]
  next hx => rw [ringAt, vget_past _ _ _ hx]

@[simp] theorem mapRings_beginsNone (s : State) (f : Nat → Ring → Ring)
    (hf : ∀ r g, (g.fetch = none → (f r g).fetch = none) ∧ (g.refetch = none → (f r g).refetch = none))
    (h : BeginsNone p (fetches s.rings)) : BeginsNone p (fetches (mapRings s f).rings) := by
  refine h.trans fun x => ?_
  rw [fetches_apply, fetches_apply, ringAt_mapRings]
  split
  · exact hf _ _
  · exact ⟨fun _ => rfl, fun _ => rfl⟩

/-! ### Accepted work and records (chapters 02, 03) -/

@[simp] theorem setWork_fetches (s : State) (r : Nat) (q : Word) (f : Work → Work) : fetches (setWork s r q f).rings = fetches s.rings := by
  simp [setWork]
@[simp] theorem returnWith_fetches (s : State) (r : Nat) (q : Word) (o : Outcome) : fetches (returnWith s r q o).rings = fetches s.rings := by
  simp [returnWith]
@[simp] theorem returnWork_fetches (s : State) (r : Nat) (q : Word) (st : Status) : fetches (returnWork s r q st).rings = fetches s.rings := by
  simp [returnWork]
@[simp] theorem returnExpired_fetches (s : State) (r : Nat) (q : Word) : fetches (returnExpired s r q).rings = fetches s.rings := by
  simp [returnExpired]
@[simp] theorem emitWork_fetches (s : State) (r : RingNo) (q : Word) (o : Outcome) : fetches (emitWork s r q o).rings = fetches s.rings := by
  simp [emitWork]
@[simp] theorem beginEmission_fetches (s : State) (r : RingNo) (q : Word) (o : Outcome) :
    fetches (beginEmission s r q o).rings = fetches s.rings := by
  simp [beginEmission]
@[simp] theorem endEmission_fetches (s : State) (r : Nat) (q : Word) (f : Outcome → Outcome) :
    fetches (endEmission s r q f).rings = fetches s.rings := by
  simp [endEmission]
@[simp] theorem cutEmissions_fetches (s : State) (r : Nat) : fetches (cutEmissions s r).rings = fetches s.rings := by simp [cutEmissions]
@[simp] theorem benchDue_fetches (s : State) (r : Nat) : fetches (benchDue s r).rings = fetches s.rings := by simp [benchDue]
@[simp] theorem unissue_fetches (s : State) (sc : List RingNo) : fetches (unissue s sc).rings = fetches s.rings := by simp [unissue]
@[simp] theorem stall_fetches (s : State) (q : Nat) : fetches (stall s q).rings = fetches s.rings := by simp [stall]
@[simp] theorem unstall_fetch (g : Ring) : (unstall g).fetch = g.fetch := by unfold unstall; split <;> rfl
@[simp] theorem unstall_refetch (g : Ring) : (unstall g).refetch = g.refetch := by unfold unstall; split <;> rfl
theorem passEarly_fetch_refetch (n : Nat) (g : Ring) : (passEarly n g).fetch = g.fetch ∧ (passEarly n g).refetch = g.refetch := by
  induction n generalizing g with
  | zero => exact ⟨rfl, rfl⟩
  | succ n ih => unfold passEarly; split <;> simp [ih]
@[simp] theorem ackSlot_fetch (g : Ring) (n : Word) : (ackSlot g n).fetch = g.fetch := by
  unfold ackSlot; split <;> simp [passEarly_fetch_refetch]
@[simp] theorem ackSlot_refetch (g : Ring) (n : Word) : (ackSlot g n).refetch = g.refetch := by
  unfold ackSlot; split <;> simp [passEarly_fetch_refetch]
@[simp] theorem startRecovery_beginsNone (s : State) (sc : List RingNo) (k c : Nat) (y : Bool) (cm : List (RingNo × Word)) (rf : List Nat)
    (h : BeginsNone p (fetches s.rings)) : BeginsNone p (fetches (startRecovery s sc k c y cm rf).rings) := by
  unfold startRecovery; dsimp only
  exact mapRings_beginsNone s _ (fun r g => by split <;> simp) h

/-! ### Shared operations (chapters 02, 03) -/

@[simp] theorem ringWindowFault_fetches (s : State) (r addr : Nat) : fetches (ringWindowFault s r addr).rings = fetches s.rings := by
  simp [ringWindowFault]
@[simp] theorem countRecord_fetches (s : State) (q : Nat) (irq : Bool) : fetches (countRecord s q irq).rings = fetches s.rings := by
  unfold countRecord; (repeat' split) <;> simp
@[simp] theorem issueRecord_fetches (s : State) (q : Nat) (addr : Nat) (x : Issued) : fetches (issueRecord s q addr x).rings = fetches s.rings := by
  simp [issueRecord]
@[simp] theorem writeBench_fetches (s : State) (r : RingNo) : fetches (writeBench s r).rings = fetches s.rings := by simp [writeBench]
@[simp] theorem writeBenches_fetches (s : State) (l : List RingNo) : fetches (writeBenches s l).rings = fetches s.rings := by simp [writeBenches]

/-! ### Records, seals and refused accesses (chapters 02, 03) -/

@[simp] theorem holdRecord_fetches (s : State) (q : Nat) (addr : Nat) (windowCause : Bool) :
    fetches (holdRecord s q addr windowCause).rings = fetches s.rings := by
  simp [holdRecord]
@[simp] theorem markIssued_fetches (s : State) (x : RecSrc) : fetches (markIssued s x).rings = fetches s.rings := by unfold markIssued; split <;> simp
@[simp] theorem putRecord_fetches (s : State) (q : Nat) (x : Issued) : fetches (putRecord s q x).rings = fetches s.rings := by simp [putRecord]
@[simp] theorem rewriteLost_fetches (s : State) (q : Nat) : fetches (rewriteLost s q).rings = fetches s.rings := by unfold rewriteLost; split <;> simp
@[simp] theorem tryRecord_fetches (s : State) (r : Nat) : fetches (tryRecord s r).rings = fetches s.rings := by
  unfold tryRecord; dsimp only; (repeat' split) <;> simp
@[simp] theorem tryEvent_fetches (s : State) : fetches (tryEvent s).rings = fetches s.rings := by unfold tryEvent; split <;> simp
@[simp] theorem sealRing_fetches (n : Nat) (s : State) (r : Nat) : fetches (sealRing n s r).rings = fetches s.rings := by
  induction n generalizing s with
  | zero => rfl
  | succ n ih => unfold sealRing; (repeat' split) <;> simp [ih]
@[simp] theorem setPhase_rings (s : State) (n : Fin 4) : (setPhase s n).rings = s.rings := by simp [setPhase]
@[simp] theorem entered_rings (s : State) : (entered s).rings = s.rings := by simp [entered]
@[simp] theorem sealAdvance_fetches (s : State) : fetches (sealAdvance s).rings = fetches s.rings := by
  unfold sealAdvance; (repeat' split) <;> simp [sealThree, sealTwo, benchBoth]
@[simp] theorem sealLedger_fetches (s : State) : fetches (sealLedger s).rings = fetches s.rings := by simp [sealLedger, sealOne]
@[simp] theorem resumeService_beginsNone (s : State) (lossy : Bool) (h : BeginsNone p (fetches s.rings)) :
    BeginsNone p (fetches (resumeService s lossy).rings) := by
  simp [h, resumeService]
@[simp] theorem abandonEntry_beginsNone (s : State) (h : BeginsNone p (fetches s.rings)) : BeginsNone p (fetches (abandonEntry s).rings) := by
  simp [h, abandonEntry]
@[simp] theorem hostWrote_beginsNone (s : State) (h : BeginsNone p (fetches s.rings)) : BeginsNone p (fetches (hostWrote s).rings) := by
  simp [h, hostWrote]
@[simp] theorem beginEntering_fetches (s : State) (toOff : Bool) : fetches (beginEntering s toOff).rings = fetches s.rings := by simp [beginEntering]
@[simp] theorem aerReport_rings (s : State) (f bit : Nat) : (aerReport s f bit).rings = s.rings := by simp [aerReport]
@[simp] theorem refuseAccess_rings (s : State) (who : Requester) (off : Nat) : (refuseAccess s who off).rings = s.rings := by
  simp [refuseAccess]

/-! ### Network time (chapter 10) -/

@[simp] theorem setTimeState_rings (s : State) (st : TimeSt) : (setTimeState s st).rings = s.rings := by simp [setTimeState]
@[simp] theorem applyOffset_rings (s : State) (e : Int) (first : Bool) : (applyOffset s e first).rings = s.rings := by
  simp [applyOffset, moveDatum]
@[simp] theorem applyLoad_rings (s : State) (k : BitVec 51) (ppsKind : Bool) : (applyLoad s k ppsKind).rings = s.rings := by
  simp [applyLoad]
@[simp] theorem loadLate_rings (s : State) : (loadLate s).rings = s.rings := by simp [loadLate]
@[simp] theorem compareErr_rings (s : State) (e : Int) (follows : Bool) : (compareErr s e follows).rings = s.rings := by
  simp [compareErr]
@[simp] theorem timePsbd_rings (s : State) (k : BitVec 51) (inSync : Bool) : (timePsbd s k inSync).rings = s.rings := by
  unfold timePsbd; dsimp only; (repeat' split) <;> simp
@[simp] theorem ptpIn_rings (s : State) (e : RxtsEntry) (t : Nat) : (ptpIn s e t).rings = s.rings := by simp [ptpIn]
@[simp] theorem ptpDone_rings (s : State) (h : PtpHalf) (t : Nat) : (ptpDone s h t).rings = s.rings := by simp [ptpDone]
@[simp] theorem ptpOut_rings (s : State) (c id : Nat) (b : List Byte) (ts : Option (Nat × Bool)) :
    (ptpOut s c id b ts).rings = s.rings := by
  unfold ptpOut; (repeat' split) <;> simp
@[simp] theorem captureUplink_rings (s0 : State) (b : List Byte) (t : Nat) : (captureUplink s0 b t).rings = s0.rings := by
  unfold captureUplink; split <;> simp
@[simp] theorem captureChannel_rings (s0 : State) (c : Nat) (b : List Byte) (t : Nat) : (captureChannel s0 c b t).rings = s0.rings := by
  unfold captureChannel; split <;> simp
@[simp] theorem todLoadOp_rings (s : State) (kind : Bool) : (todLoadOp s kind).rings = s.rings := by simp [todLoadOp]
@[simp] theorem phaseAverageOp_rings (s : State) : (phaseAverageOp s).rings = s.rings := by unfold phaseAverageOp; split <;> simp
@[simp] theorem invalidateOp_rings (s : State) : (invalidateOp s).rings = s.rings := by simp [invalidateOp]
@[simp] theorem ppsInOp_rings (s0 : State) : (ppsInOp s0).rings = s0.rings := by unfold ppsInOp; dsimp only; (repeat' split) <;> simp

/-! ### Key use and MACsec (chapter 11) -/

@[simp] theorem refreshKeyUse_rings (s : State) (c : Nat) : (refreshKeyUse s c).rings = s.rings := by simp [refreshKeyUse]
@[simp] theorem refreshKeys_rings (s : State) : (refreshKeys s).rings = s.rings := by simp [refreshKeys]
@[simp] theorem pnMovedFor_rings (h : Half) (old new : Nat) (s : State) (c : Nat) : (pnMovedFor h old new s c).rings = s.rings := by
  unfold pnMovedFor; split <;> simp
@[simp] theorem movePn_rings (s : State) (h : Half) (new : Nat) : (movePn s h new).rings = s.rings := by simp [movePn]
@[simp] theorem takePn_rings (s : State) (c : Nat) (m : MacSect) : (takePn s c m).rings = s.rings := by simp [takePn]
@[simp] theorem macOut_rings (s : State) (c : Nat) (b : List Byte) : (macOut s c b).1.rings = s.rings := by
  unfold macOut; (repeat' split) <;> simp
@[simp] theorem countMacRx_rings (s : State) (c : Nat) (x : MacRx) : (countMacRx s c x).rings = s.rings := by simp [countMacRx]
theorem macsecIn_rings {s t : State} {c : Nat} {m : MacSect} {b : List Byte} {x : Option (List Byte × Bool)} (e : macsecIn s c m b = (t, x)) :
    t.rings = s.rings := by
  unfold macsecIn at e; dsimp only at e; (repeat' split at e) <;> cases e <;> simp
theorem macIn_rings {s t : State} {c : Nat} {b : List Byte} {x : Option (List Byte × Bool)} (e : macIn s c b = (t, x)) :
    t.rings = s.rings := by
  unfold macIn at e
  (repeat' split at e)
  · cases e; rfl
  · exact macsecIn_rings e
  · cases e; rfl

/-! ### Packet storage and classification (chapter 08) -/

@[simp] theorem countBufDiscard_rings (s : State) (c : Nat) : (countBufDiscard s c).rings = s.rings := by simp [countBufDiscard]
@[simp] theorem countLineDiscard_rings (s : State) (c : Nat) : (countLineDiscard s c).rings = s.rings := by simp [countLineDiscard]
@[simp] theorem sendPause_rings (s : State) (c : Nat) (m : MacSect) (ens : Nat) (q : Nat) : (sendPause s c m ens q).rings = s.rings := by
  simp [sendPause]
@[simp] theorem pauseCheck_rings (s : State) (c : Nat) : (pauseCheck s c).rings = s.rings := by unfold pauseCheck; split <;> simp
@[simp] theorem takeId_rings (s : State) : (takeId s).rings = s.rings := by simp [takeId]
@[simp] theorem enqueue_rings (s : State) (c i : Nat) (f : Frame) : (enqueue s c i f).rings = s.rings := by simp [enqueue]
@[simp] theorem enqueueTcont_rings (s0 : State) (q : Nat) (f : Frame) : (enqueueTcont s0 q f).rings = s0.rings := by simp [enqueueTcont]
@[simp] theorem countOversize_rings (s : State) (c : Nat) : (countOversize s c).rings = s.rings := by simp [countOversize]
@[simp] theorem deliverDown_rings (s : State) (idx port : Nat) (b : List Byte) (rx : Nat) :
    (deliverDown s idx port b rx).rings = s.rings := by
  unfold deliverDown; dsimp only; (repeat' split) <;> simp [toHostPart, toChannel, countNoFlow]
@[simp] theorem classifyUp_rings (s : State) (c : Nat) (b : List Byte) (verified : Bool) (rx : Nat) :
    (classifyUp s c b verified rx).rings = s.rings := by
  unfold classifyUp; dsimp only; (repeat' split) <;> simp [storeUp]
@[simp] theorem macControl_rings (s : State) (c : Nat) (b : List Byte) : (macControl s c b).rings = s.rings := by
  unfold macControl; split <;> simp [obeyPause]
@[simp] theorem macReceive_rings (s : State) (c : Nat) (x : List Byte) (rx : Nat) : (macReceive s c x rx).rings = s.rings := by
  unfold macReceive; dsimp only; (repeat' split)
  case h_1 e => exact macIn_rings e
  case h_2 e => simp [macIn_rings e]
  all_goals simp
@[simp] theorem pauseRefreshOp_rings (s : State) (c : Nat) : (pauseRefreshOp s c).rings = s.rings := by
  unfold pauseRefreshOp; split <;> simp
@[simp] theorem flowReadOp_rings (s : State) (p : Nat) (idx : BitVec 12) : (flowReadOp s p idx).rings = s.rings := by simp [flowReadOp]
@[simp] theorem flowWriteOp_rings (s : State) (p : Nat) (idx : BitVec 12) : (flowWriteOp s p idx).rings = s.rings := by
  simp [flowWriteOp]
@[simp] theorem flowClearOp_rings (s : State) (p : Nat) (idx : BitVec 12) : (flowClearOp s p idx).rings = s.rings := by
  simp [flowClearOp]

/-! ### The feed (chapter 13) -/

@[simp] theorem supplyLog_rings (s : State) (kind input detail : Nat) (value : Word) (start : Nat) (valid : Bool) :
    (supplyLog s kind input detail value start valid).rings = s.rings := by
  simp [supplyLog, logEntry]
@[simp] theorem supplyNow_rings (s : State) (kind input detail : Nat) : (supplyNow s kind input detail).rings = s.rings := by
  simp [supplyNow]
@[simp] theorem budgetCheck_rings (s : State) : (budgetCheck s).rings = s.rings := by simp [budgetCheck]
@[simp] theorem feedOff_rings (s : State) : (feedOff s).rings = s.rings := by simp [feedOff]
@[simp] theorem feedPower_rings (s : State) : (feedPower s).rings = s.rings := by simp [feedPower, feedOn]
@[simp] theorem feedTrip_rings (s : State) (c cause : Nat) : (feedTrip s c cause).rings = s.rings := by simp [feedTrip]
@[simp] theorem feedUnlockOp_rings (s : State) (c : Nat) : (feedUnlockOp s c).rings = s.rings := by simp [feedUnlockOp]
@[simp] theorem shedAll_rings (s : State) (last detail : Nat) : (shedAll s last detail).rings = s.rings := by simp [shedAll]

/-! ### Rings (chapter 02) -/

@[simp] theorem doorbellFault_rings (s : State) (r : Nat) : (doorbellFault s r).rings = s.rings := by simp [doorbellFault]
@[simp] theorem doorbellWrite_fetches (s : State) (who : Requester) (off : Nat) (v : Word) :
    fetches (doorbellWrite s who off v).rings = fetches s.rings := by
  unfold doorbellWrite; split <;> simp [doorbellAt]
@[simp] theorem haltRing_beginsNone (s : State) (r : Nat) (h : BeginsNone p (fetches s.rings)) : BeginsNone p (fetches (haltRing s r).rings) := by
  simp [h, haltRing]
@[simp] theorem refetchFailed_fetches (s : State) (r : Nat) (seq : Word) (st : Status) :
    fetches (refetchFailed s r seq st).rings = fetches s.rings := by
  simp [refetchFailed]
@[simp] theorem acceptOne_fetches (s : State) (r : Nat) (d : Desc) : fetches (acceptOne s r d).rings = fetches s.rings := by simp [acceptOne]
@[simp] theorem refetchDone_beginsNone (s : State) (r : Nat) (seq : Word) (res : XferResult) (data : List Byte) (h : BeginsNone p (fetches s.rings)) :
    BeginsNone p (fetches (refetchDone s r seq res data).rings) := by
  unfold refetchDone; split <;> simp [h]
@[simp] theorem fetchDone_beginsNone (s : State) (r : Nat) (first : Word) (n : Nat) (res : XferResult) (data : List Byte)
    (h : BeginsNone p (fetches s.rings)) : BeginsNone p (fetches (fetchDone s r first n res data).rings) := by
  simp [h, fetchDone]
@[simp] theorem fetchCompleteOp_beginsNone (s : State) (r : Nat) (res : XferResult) (data : List Byte) (h : BeginsNone p (fetches s.rings)) :
    BeginsNone p (fetches (fetchCompleteOp s r res data).rings) := by
  unfold fetchCompleteOp; split <;> simp [h]
@[simp] theorem haltedClear_fetches (s : State) (r : Nat) : fetches (haltedClear s r).rings = fetches s.rings := by simp [haltedClear]
@[simp] theorem ringCfgOp_beginsNone (s : State) (r : RingNo) (v : Word) (h : BeginsNone p (fetches s.rings)) :
    BeginsNone p (fetches (ringCfgOp s r v).rings) := by
  unfold ringCfgOp; dsimp only; (repeat' split) <;> simp [h, freshRing]
@[simp] theorem forgetBlocks_rings (s : State) (n : Nat) : (forgetBlocks s n).rings = s.rings := by unfold forgetBlocks; split <;> simp
@[simp] theorem createRingOp_beginsNone (s : State) (r : RingNo) (seq : Word) (h : BeginsNone p (fetches s.rings)) :
    BeginsNone p (fetches (createRingOp s r seq).rings) := by
  unfold createRingOp; (repeat' split) <;> simp [h, createdRing, freshRing]
@[simp] theorem dropQueued_rings (s : State) (p : Frame → Bool) : (dropQueued s p).rings = s.rings := by simp [dropQueued]
@[simp] theorem dropRadio_rings (s : State) (n : Nat) : (dropRadio s n).rings = s.rings := by unfold dropRadio; split <;> simp
@[simp] theorem destroyRingOp_beginsNone (s : State) (r : RingNo) (seq : Word) (h : BeginsNone p (fetches s.rings)) :
    BeginsNone p (fetches (destroyRingOp s r seq).rings) := by
  unfold destroyRingOp; (repeat' split) <;> simp [h, dropBlocks, returnOpen, dropSent]
@[simp] theorem recordWriteOp_fetches (s : State) (r : Nat) : fetches (recordWriteOp s r).rings = fetches s.rings := by
  unfold recordWriteOp; (repeat' split) <;> simp
@[simp] theorem recordAckOp_fetches (s : State) (q : Nat) : fetches (recordAckOp s q).rings = fetches s.rings := by
  unfold recordAckOp; dsimp only; (repeat' split) <;> simp [ackWork]
@[simp] theorem modTimeOp_fetches (s : State) (m : ModSrc) : fetches (modTimeOp s m).rings = fetches s.rings := by unfold modTimeOp; split <;> simp
@[simp] theorem setSizes_rings (s : State) (dc : DevCtl) : (setSizes s dc).rings = s.rings := by simp [setSizes]
@[simp] theorem makeWaiting_fetches (s : State) (x : LXfer) : fetches (makeWaiting s x).rings = fetches s.rings := by
  unfold makeWaiting; split <;> simp
@[simp] theorem flushWaiting_fetches (s : State) : fetches (flushWaiting s).rings = fetches s.rings := by simp [flushWaiting]
@[simp] theorem setVfs_fetches (s : State) (enable : Bool) (numVfs : Half) : fetches (setVfs s enable numVfs).rings = fetches s.rings := by
  simp [setVfs]

/-! ### Channel-table reads (chapter 04) -/

@[simp] theorem mapTab_rings (s : State) (c : Nat) (f : ChTab → ChTab) : (mapTab s c f).rings = s.rings := by simp [mapTab]
@[simp] theorem returnRefreshes_fetches (s : State) (c : Nat) (st : Status) : fetches (returnRefreshes s c st).rings = fetches s.rings := by
  simp [returnRefreshes]
@[simp] theorem readFailed_fetches (s : State) (c : Nat) (st : Status) : fetches (readFailed s c st).rings = fetches s.rings := by simp [readFailed]
@[simp] theorem issuePhase_fetches (s : State) (c off len : Nat) (p : ReadPhase) : fetches (issuePhase s c off len p).rings = fetches s.rings := by
  simp [issuePhase, readWindowFault]
@[simp] theorem beginRead_fetches (s : State) (c : Nat) : fetches (beginRead s c).rings = fetches s.rings := by simp [beginRead]
@[simp] theorem requestRefresh_fetches (s : State) (c : Nat) : fetches (requestRefresh s c).rings = fetches s.rings := by simp [requestRefresh]
@[simp] theorem requestAll_fetches (s : State) (l : List Nat) : fetches (requestAll s l).rings = fetches s.rings := by simp [requestAll]

/-! ### The ledger and recoveries (chapter 03) -/

@[simp] theorem ledgerFresh_fetches (s : State) : fetches (ledgerFresh s).rings = fetches s.rings := by simp [ledgerFresh]
@[simp] theorem ledgerCloseOp_rings (s : State) : (ledgerCloseOp s).rings = s.rings := by simp [ledgerCloseOp]
@[simp] theorem adoptRing_beginsNone (img : LedgerImage) (s : State) (r : RingNo) (h : BeginsNone p (fetches s.rings)) :
    BeginsNone p (fetches (adoptRing img s r).rings) := by
  unfold adoptRing; (repeat' split) <;> simp [h, ringFromRec, freshRing]
@[simp] theorem adoptAdd_fetches (s : State) (r : RingNo) (n : Word) (d : Desc) (st : Stage) (ret : Option Outcome) :
    fetches (adoptAdd s r n d st ret).rings = fetches s.rings := by
  simp [adoptAdd]
@[simp] theorem adoptLost_fetches (invalid : Bool) (r : RingNo) (s : State) (n : Word) :
    fetches (adoptLost invalid r s n).rings = fetches s.rings := by
  simp [adoptLost]
@[simp] theorem adoptTrib_fetches (img : LedgerImage) (invalid : Bool) (r : RingNo) (s : State) (n : Word) :
    fetches (adoptTrib img invalid r s n).rings = fetches s.rings := by
  unfold adoptTrib; split <;> simp
@[simp] theorem adoptNow_beginsNone (s : State) (img : LedgerImage) (h : BeginsNone p (fetches s.rings)) :
    BeginsNone p (fetches (adoptNow s img).rings) := by
  unfold adoptNow
  split
  · simp [h]
  · dsimp only
    refine startRecovery_beginsNone _ _ _ _ _ _ _ ?_
    simp [adoptSpilled, adoptRingWork, adoptWork, h]
@[simp] theorem adoptRead_beginsNone (s : State) (res : XferResult) (img : LedgerImage) (h : BeginsNone p (fetches s.rings)) :
    BeginsNone p (fetches (adoptRead s res img).rings) := by
  unfold adoptRead; dsimp only
  (repeat' split)
  · simp [h]
  · simp [h]
  · exact adoptNow_beginsNone _ _ h
  · simp [h]
@[simp] theorem retryOne_beginsNone (res : XferResult) (img : LedgerImage) (s : State) (x : LXfer) (h : BeginsNone p (fetches s.rings)) :
    BeginsNone p (fetches (retryOne res img s x).rings) := by
  unfold retryOne; split <;> simp [h]
@[simp] theorem countRxLost_rings (s : State) (r n : Nat) : (countRxLost s r n).rings = s.rings := by
  unfold countRxLost; (repeat' split) <;> simp
@[simp] theorem settleOne_fetches (s : State) (v : Recovery) : fetches (settleOne s v).rings = fetches s.rings := by
  simp [settleOne, endReset, settleRing]
@[simp] theorem settleFirst_fetches (s : State) (done rest : List Recovery) : fetches (settleFirst s done rest).rings = fetches s.rings := by
  induction rest generalizing done with
  | nil => rfl
  | cons v rest ih => unfold settleFirst; split <;> simp [ih]
@[simp] theorem recoveryDoneOp_fetches (s : State) : fetches (recoveryDoneOp s).rings = fetches s.rings := by
  unfold recoveryDoneOp; split <;> simp [activate]

/-! ### Channel states (chapter 04) -/

@[simp] theorem setChSt_rings (s : State) (c : Nat) (st : ChSt) : (setChSt s c st).rings = s.rings := by simp [setChSt]
@[simp] theorem wakeRaised_rings (old s : State) : (wakeRaised old s).rings = s.rings := by simp [wakeRaised]
@[simp] theorem setIsland_rings (s : State) (c : Nat) (on : Bool) : (setIsland s c on).rings = s.rings := by
  simp [setIsland, islandDomains]
@[simp] theorem dropCur_rings (s : State) (c : Nat) : (dropCur s c).rings = s.rings := by
  unfold dropCur; split
  next => rfl
  next f _ => cases f.src <;> simp
@[simp] theorem dropChan_rings (s : State) (c : Nat) (p : Frame → Bool) : (dropChan s c p).rings = s.rings := by simp [dropChan]
@[simp] theorem stopLine_rings (s : State) (c : Nat) : (stopLine s c).rings = s.rings := by simp [stopLine]
@[simp] theorem breakBlock_fetches (s : State) (c i : Nat) : fetches (breakBlock s c i).rings = fetches s.rings := by
  unfold breakBlock; split <;> simp
@[simp] theorem leaveService_fetches (s : State) (c : Nat) : fetches (leaveService s c).rings = fetches s.rings := by
  simp [leaveService, returnNoPath]
@[simp] theorem enterOff_rings (s : State) (c : Nat) : (enterOff s c).rings = s.rings := by simp [enterOff]
@[simp] theorem goReady_fetches (s : State) (c : Nat) : fetches (goReady s c).rings = fetches s.rings := by simp [goReady]
@[simp] theorem enterHalted_rings (s : State) (c : Nat) (cause : Nat) : (enterHalted s c cause).rings = s.rings := by simp [enterHalted]
@[simp] theorem applyTarget_fetches (s : State) (c : Nat) : fetches (applyTarget s c).rings = fetches s.rings := by
  unfold applyTarget; (repeat' split) <;> simp [goOff]
@[simp] theorem failTraining_fetches (s : State) (c cause : Nat) : fetches (failTraining s c cause).rings = fetches s.rings := by simp [failTraining]
@[simp] theorem sweepNoCore_fetches (s : State) (c : Nat) : fetches (sweepNoCore s c).rings = fetches s.rings := by simp [sweepNoCore]
@[simp] theorem goTrain_fetches (s : State) (c : Nat) : fetches (goTrain s c).rings = fetches s.rings := by simp [goTrain]
@[simp] theorem lossOfLineOp_fetches (s : State) (c : Nat) : fetches (lossOfLineOp s c).rings = fetches s.rings := by simp [lossOfLineOp]
@[simp] theorem stopWork_fetches (s : State) (c : Nat) : fetches (stopWork s c).rings = fetches s.rings := by simp [stopWork]
@[simp] theorem channelReset_beginsNone (s : State) (c : Nat) (cmds : List (RingNo × Word)) (h : BeginsNone p (fetches s.rings)) :
    BeginsNone p (fetches (channelReset s c cmds).rings) := by
  unfold channelReset; split <;> simp [h, resetChannel, clearChanEvents]
@[simp] theorem chResetOp_beginsNone (s : State) (r : RingNo) (seq : Word) (h : BeginsNone p (fetches s.rings)) :
    BeginsNone p (fetches (chResetOp s r seq).rings) := by
  unfold chResetOp; (repeat' split) <;> simp [h]
@[simp] theorem chHoldOp_fetches (s : State) (c : Nat) (v : Word) : fetches (chHoldOp s c v).rings = fetches s.rings := by simp [chHoldOp]

/-! ### The channel table (chapter 04) -/

@[simp] theorem applyEntry_fetches (s : State) (c : Nat) (g : Word) (b : List Byte) : fetches (applyEntry s c g b).rings = fetches s.rings := by
  simp [applyEntry, applyMac, raisePn, pnReached, applyFeed]
@[simp] theorem phaseOk_fetches (s : State) (c : Nat) (data : List Byte) : fetches (phaseOk s c data).rings = fetches s.rings := by
  unfold phaseOk; split <;> simp [nextPhase, discardRead, wholeRead, serveOne]
@[simp] theorem chtabRefreshOp_fetches (s : State) (mask : Word) : fetches (chtabRefreshOp s mask).rings = fetches s.rings := by simp [chtabRefreshOp]
@[simp] theorem chRefreshOp_fetches (s : State) (r : RingNo) (seq : Word) : fetches (chRefreshOp s r seq).rings = fetches s.rings := by
  unfold chRefreshOp; (repeat' split) <;> simp
@[simp] theorem chtabEnableOp_fetches (s : State) (on : Bool) : fetches (chtabEnableOp s on).rings = fetches s.rings := by
  simp [chtabEnableOp, tableOff, applyTargets]

/-! ### Frames of the host (chapters 03, 08) -/

@[simp] theorem txFrameOp_fetches (s : State) (r : Nat) (seq : Word) : fetches (txFrameOp s r seq).rings = fetches s.rings := by
  unfold txFrameOp; (repeat' split) <;> simp
@[simp] theorem returnLost_fetches (s : State) (r : RingNo) (seq : Word) (st : Status) : fetches (returnLost s r seq st).rings = fetches s.rings := by
  simp [returnLost]
@[simp] theorem txReadOp_fetches (s : State) (r : RingNo) (seq : Word) : fetches (txReadOp s r seq).rings = fetches s.rings := by
  unfold txReadOp; (repeat' split) <;> simp
@[simp] theorem storeTx_fetches (s : State) (r : RingNo) (w : Work) (b : List Byte) : fetches (storeTx s r w b).rings = fetches s.rings := by
  unfold storeTx; split <;> simp
@[simp] theorem txReadDoneOp_fetches (s : State) (r : RingNo) (seq : Word) (res : XferResult) (data : List Byte) :
    fetches (txReadDoneOp s r seq res data).rings = fetches s.rings := by
  unfold txReadDoneOp; split <;> simp
@[simp] theorem rxBufferOp_fetches (s : State) (r : Nat) (seq : Word) : fetches (rxBufferOp s r seq).rings = fetches s.rings := by
  unfold rxBufferOp; split <;> simp
@[simp] theorem dropWaiting_rings (s : State) (r : Nat) : (dropWaiting s r).rings = s.rings := by
  unfold dropWaiting; (repeat' split) <;> simp
@[simp] theorem afterLeave_rings (s : State) (f : Frame) : (afterLeave s f).rings = s.rings := by unfold afterLeave; split <;> simp
@[simp] theorem rxDeliverOp_fetches (s : State) (r : Nat) : fetches (rxDeliverOp s r).rings = fetches s.rings := by unfold rxDeliverOp; split <;> simp
@[simp] theorem lifetimeOp_fetches (s : State) (r : RingNo) (seq : Word) : fetches (lifetimeOp s r seq).rings = fetches s.rings := by
  unfold lifetimeOp; split <;> simp
@[simp] theorem refetchWork_fetches (s : State) (x : RingNo × Word) : fetches (refetchWork s x).rings = fetches s.rings := by
  unfold refetchWork; split <;> simp

/-! ### The cipher unit (chapter 11) -/

@[simp] theorem secReturn_fetches (s : State) (q : SecSrc) (st : Status) : fetches (secReturn s q st).rings = fetches s.rings := by
  unfold secReturn; split <;> simp
@[simp] theorem secDone_fetches (s : State) (q : SecSrc) (st : Status) (r0 r1 : Word) : fetches (secDone s q st r0 r1).rings = fetches s.rings := by
  unfold secDone; split <;> simp
@[simp] theorem secDo_fetches (s : State) (q : SecSrc) (c : Option Status) (act : State) :
    fetches (secDo s q c act).rings = if c.isSome then fetches s.rings else fetches act.rings := by
  cases c <;> simp [secDo]
@[simp] theorem secWrite_rings (s : State) (q : SecSrc) (addr : Nat) (b : List Byte) : (secWrite s q addr b).rings = s.rings := by
  unfold secWrite; (repeat' split) <;> simp
@[simp] theorem secFault_fetches (s : State) (q : SecSrc) (addr : Nat) : fetches (secFault s q addr).rings = fetches s.rings := by
  unfold secFault; split <;> simp
@[simp] theorem secWindow_fetches (s : State) (q : SecSrc) (write : Bool) (addr len : Nat) (go : State) :
    fetches (secWindow s q write addr len go).rings = if secOpen s q write addr len then fetches go.rings else fetches s.rings := by
  simp [secWindow]
@[simp] theorem secReadFailed_fetches (s : State) (q : SecSrc) (res : XferResult) (addr : Nat) :
    fetches (secReadFailed s q res addr).rings = fetches s.rings := by
  unfold secReadFailed; split <;> simp
@[simp] theorem secRead_rings (s : State) (q : SecSrc) (addr len : Nat) : (secRead s q addr len).rings = s.rings := by
  unfold secRead; split <;> simp
@[simp] theorem secStart_fetches (s : State) (q : SecSrc) (d : Desc) (blk : Option OpBlock) (addr len : Nat) :
    fetches (secStart s q d blk addr len).rings = fetches s.rings := by
  unfold secStart; split <;> simp
@[simp] theorem withBlock_fetches (s : State) (q : SecSrc) (d : Desc) (res : XferResult) (raw : List Byte) (pre : Option Status) (tagOut : Bool)
    (act : State → OpBlock → State) (h : ∀ t b, fetches (act t b).rings = fetches t.rings) :
    fetches (withBlock s q d res raw pre tagOut act).rings = fetches s.rings := by
  unfold withBlock; dsimp only; split <;> simp [secWindow, h]
@[simp] theorem cipherStart_fetches (s : State) (q : SecSrc) (d : Desc) (res : XferResult) (raw : List Byte) (kinds : List Nat)
    (out tagOut gcm : Bool) : fetches (cipherStart s q d res raw kinds out tagOut gcm).rings = fetches s.rings :=
  withBlock_fetches _ _ _ _ _ _ _ _ (fun t b => by simp)
@[simp] theorem gcmEncryptRun_fetches (s : State) (q : SecSrc) (d : Desc) (res : XferResult) (raw : List Byte) :
    fetches (gcmEncryptRun s q d res raw).rings = fetches s.rings := by
  simp [gcmEncryptRun]
@[simp] theorem gcmDecryptRun_fetches (s : State) (q : SecSrc) (d : Desc) (res : XferResult) (raw : List Byte) :
    fetches (gcmDecryptRun s q d res raw).rings = fetches s.rings := by
  simp [gcmDecryptRun]
@[simp] theorem cmacRun_fetches (s : State) (q : SecSrc) (d : Desc) (res : XferResult) (raw : List Byte) :
    fetches (cmacRun s q d res raw).rings = fetches s.rings := by
  simp [cmacRun]
@[simp] theorem ccmStarRun_fetches (s : State) (q : SecSrc) (d : Desc) (res : XferResult) (raw : List Byte) :
    fetches (ccmStarRun s q d res raw).rings = fetches s.rings := by
  simp [ccmStarRun]
@[simp] theorem createKey_fetches (s : State) (q : SecSrc) (kind : Nat) (exportable : Bool) (key : List Byte) (salt : Option (List Byte)) :
    fetches (createKey s q kind exportable key salt).rings = fetches s.rings := by
  unfold createKey; split <;> simp [makeKey]
@[simp] theorem countDraw_rings (s : State) : (countDraw s).rings = s.rings := by simp [countDraw]
@[simp] theorem keyGenRun_fetches (s : State) (q : SecSrc) (d : Desc) : fetches (keyGenRun s q d).rings = fetches s.rings := by simp [keyGenRun]
@[simp] theorem keyLoadRun_fetches (s : State) (q : SecSrc) (d : Desc) (res : XferResult) (raw : List Byte) :
    fetches (keyLoadRun s q d res raw).rings = fetches s.rings :=
  withBlock_fetches _ _ _ _ _ _ _ _ (fun t b => by simp)
@[simp] theorem keyImportRun_fetches (s : State) (q : SecSrc) (d : Desc) (res : XferResult) (raw : List Byte) :
    fetches (keyImportRun s q d res raw).rings = fetches s.rings :=
  withBlock_fetches _ _ _ _ _ _ _ _ (fun t b => by simp)
@[simp] theorem keyExportRun_fetches (s : State) (q : SecSrc) (d : Desc) (res : XferResult) (raw : List Byte) :
    fetches (keyExportRun s q d res raw).rings = fetches s.rings :=
  withBlock_fetches _ _ _ _ _ _ _ _ (fun t b => by simp)
@[simp] theorem keyDeriveRun_fetches (s : State) (q : SecSrc) (d : Desc) : fetches (keyDeriveRun s q d).rings = fetches s.rings := by
  simp [keyDeriveRun]
@[simp] theorem keyClearRun_fetches (s : State) (q : SecSrc) (d : Desc) : fetches (keyClearRun s q d).rings = fetches s.rings := by simp [keyClearRun]
@[simp] theorem keyInfoRun_fetches (s : State) (q : SecSrc) (d : Desc) : fetches (keyInfoRun s q d).rings = fetches s.rings := by simp [keyInfoRun]
@[simp] theorem secRun_fetches (s : State) (q : SecSrc) (d : Desc) (res : XferResult) (raw : List Byte) :
    fetches (secRun s q d res raw).rings = fetches s.rings := by
  unfold secRun; split <;> simp [cvRestoreRun, cvSaveRun, cvUpdateRun, randomRun]
@[simp] theorem portTurn_fetches (n : Nat) (s : State) : fetches (portTurn n s).rings = fetches s.rings := by
  induction n generalizing s with
  | zero => rfl
  | succ n ih => unfold portTurn; (repeat' split) <;> simp [ih]
@[simp] theorem secCommand_fetches (s : State) (q : SecSrc) (op : Nat) (res : XferResult) (raw : List Byte) :
    fetches (secCommand s q op res raw).rings = fetches s.rings := by
  unfold secCommand; (repeat' split) <;> simp
@[simp] theorem verified_fetches (s : State) (q : SecSrc) (dst : Nat) (out : List Byte) (ok : Bool) :
    fetches (verified s q dst out ok).rings = fetches s.rings := by
  simp [verified]
@[simp] theorem blockDone_fetches (s : State) (q : SecSrc) (d : Desc) (b : OpBlock) (data : List Byte) :
    fetches (blockDone s q d b data).rings = fetches s.rings := by
  unfold blockDone; (repeat' split) <;> simp [sealedOut]
@[simp] theorem secCompleteOp_fetches (s : State) (q : SecSrc) (res : XferResult) (data : List Byte) :
    fetches (secCompleteOp s q res data).rings = fetches s.rings := by
  unfold secCompleteOp; (repeat' split) <;> simp [cvDone]
@[simp] theorem rerunOp_rings (s : State) (o : SecOp) : (rerunOp s o).rings = s.rings := by unfold rerunOp; split <;> simp
@[simp] theorem coreFailOp_beginsNone (s : State) (core : Nat) (chans : List Nat) (ops : List SecSrc) (h : BeginsNone p (fetches s.rings)) :
    BeginsNone p (fetches (coreFailOp s core chans ops).rings) := by
  simp [h, coreFailOp, sweepOps]
@[simp] theorem trngFailOp_rings (s : State) : (trngFailOp s).rings = s.rings := by simp [trngFailOp]
@[simp] theorem clearKeys_rings (s : State) : (clearKeys s).rings = s.rings := by simp [clearKeys]

/-! ### The radio (chapter 12) -/

@[simp] theorem radCount_rings (s : State) (i : Nat) : (radCount s i).rings = s.rings := by simp [radCount]
@[simp] theorem chargeAll_rings (s : State) (ch : BitVec 11) (n : Nat) : (chargeAll s ch n).rings = s.rings := by simp [chargeAll]
@[simp] theorem raiseRefused_rings (s : State) (b : Option Nat) : (raiseRefused s b).rings = s.rings := by
  unfold raiseRefused; split <;> simp
@[simp] theorem radEnd_fetches (s : State) (t : RadTx) (acked noAck stop : Bool) : fetches (radEnd s t acked noAck stop).rings = fetches s.rings := by
  simp [radEnd]
@[simp] theorem radFail_fetches (s : State) (t : RadTx) (ret : Outcome) (noAck stop : Bool) :
    fetches (radFail s t ret noAck stop).rings = fetches s.rings := by
  simp [radFail]
@[simp] theorem tryAttempt_fetches (s : State) (t : RadTx) (w : Work) : fetches (tryAttempt s t w).rings = fetches s.rings := by
  unfold tryAttempt; dsimp only; (repeat' split) <;> simp [sendAttempt]
@[simp] theorem retryAttempt_fetches (s : State) : fetches (retryAttempt s).rings = fetches s.rings := by unfold retryAttempt; split <;> simp
@[simp] theorem releaseHeld_fetches (s : State) : fetches (releaseHeld s).rings = fetches s.rings := by unfold releaseHeld; split <;> simp
@[simp] theorem beginBackoff_rings (s : State) (t : RadTx) (nb be : Nat) : (beginBackoff s t nb be).rings = s.rings := by
  simp [beginBackoff]
@[simp] theorem beginListen_rings (s : State) (t : RadTx) (n : Nat) : (beginListen s t n).rings = s.rings := by simp [beginListen]
@[simp] theorem beginAccess_fetches (s : State) (t : RadTx) (w : Work) : fetches (beginAccess s t w).rings = fetches s.rings := by simp [beginAccess]
@[simp] theorem accessFails_fetches (s : State) (t : RadTx) : fetches (accessFails s t).rings = fetches s.rings := by simp [accessFails]
@[simp] theorem radFrameOp_fetches (s : State) (seq : Word) (res : XferResult) (frame : List Byte) :
    fetches (radFrameOp s seq res frame).rings = fetches s.rings := by
  unfold radFrameOp; (repeat' split) <;> simp
@[simp] theorem csmaOp_fetches (s : State) (busy : Bool) : fetches (csmaOp s busy).rings = fetches s.rings := by
  unfold csmaOp; (repeat' split) <;> simp
@[simp] theorem lbtOp_fetches (s : State) (free : Bool) : fetches (lbtOp s free).rings = fetches s.rings := by unfold lbtOp; (repeat' split) <;> simp
@[simp] theorem radioTxEndOp_fetches (s : State) : fetches (radioTxEndOp s).rings = fetches s.rings := by
  unfold radioTxEndOp; dsimp only; (repeat' split) <;> simp
@[simp] theorem radioAckOp_fetches (s : State) (psdu : List Byte) (four : Bool) : fetches (radioAckOp s psdu four).rings = fetches s.rings := by
  unfold radioAckOp; split <;> simp
@[simp] theorem radioAckTimeoutOp_fetches (s : State) : fetches (radioAckTimeoutOp s).rings = fetches s.rings := by
  unfold radioAckTimeoutOp; split <;> simp
@[simp] theorem setFcMin_rings (s : State) (i : Nat) (q : Word) : (setFcMin s i q).rings = s.rings := by simp [setFcMin]
theorem radVerify_rings {s t : State} {h : MacHdr} {b : List Byte} {x : Option (List Byte × Nat)} (e : radVerify s h b = (t, x)) :
    t.rings = s.rings := by
  unfold radVerify at e; dsimp only at e; (repeat' split at e) <;> cases e <;> simp
@[simp] theorem radStore_rings (s : State) (f : RadRx) (b : List Byte) (secured : Bool) (idx : Nat) :
    (radStore s f b secured idx).rings = s.rings := by
  simp [radStore]
@[simp] theorem radioRxOp_rings (s : State) (f : RadRx) : (radioRxOp s f).rings = s.rings := by
  unfold radioRxOp
  split; · rfl
  split; · simp
  split; · simp
  split; · simp
  split
  next e => exact radVerify_rings e
  next e => simp [radVerify_rings e]
@[simp] theorem radioAckTxOp_fetches (s : State) : fetches (radioAckTxOp s).rings = fetches s.rings := by unfold radioAckTxOp; split <;> simp
@[simp] theorem radioDeliverOp_fetches (s : State) : fetches (radioDeliverOp s).rings = fetches s.rings := by
  unfold radioDeliverOp; split <;> simp [popStored]
@[simp] theorem devCmd_rings (s : State) (who : Requester) (idx : BitVec 5) (f : Rad → Rad) : (devCmd s who idx f).rings = s.rings := by
  unfold devCmd; split <;> simp
@[simp] theorem radOn_rings (s : State) : (radOn s).rings = s.rings := by simp [radOn, govFill]
@[simp] theorem radCut_fetches (s : State) : fetches (radCut s).rings = fetches s.rings := by unfold radCut; split <;> simp
@[simp] theorem radOff_fetches (s : State) : fetches (radOff s).rings = fetches s.rings := by simp [radOff]
@[simp] theorem radFollow_fetches (s : State) : fetches (radFollow s).rings = fetches s.rings := by simp [radFollow]

/-! ### Boot (chapter 15) -/

@[simp] theorem boot_rings (s : State) : (boot s).rings = s.rings := by simp [boot]
@[simp] theorem fwRestart_beginsNone (s : State) (h : BeginsNone p (fetches s.rings)) : BeginsNone p (fetches (fwRestart s).rings) := by
  simp [h, fwRestart]
@[simp] theorem deriveCapsule_rings (s : State) : (deriveCapsule s).rings = s.rings := by unfold deriveCapsule; (repeat' split) <;> simp
@[simp] theorem writeRecord_rings (s : State) (f : IdRec → IdRec) : (writeRecord s f).rings = s.rings := by simp [writeRecord]

/-! ### Scheduling (chapter 09) -/

@[simp] theorem frameEmitted_fetches (s : State) (c : Nat) (f : Frame) : fetches (frameEmitted s c f).rings = fetches s.rings := by
  unfold frameEmitted; cases f.src <;> dsimp only <;> (repeat' split) <;> simp
@[simp] theorem countOverrun_rings (s : State) (c : Nat) : (countOverrun s c).rings = s.rings := by simp [countOverrun]
@[simp] theorem placeBytes_fetches (n : Nat) (s : State) (c : Nat) : fetches (placeBytes n s c).rings = fetches s.rings := by
  induction n generalizing s with
  | zero => rfl
  | succ n ih => unfold placeBytes; dsimp only; (repeat' split) <;> simp [ih]
@[simp] theorem placeAll_fetches (s : State) (c : Nat) : fetches (placeAll s c).rings = fetches s.rings := by simp [placeAll]
@[simp] theorem takeCore_rings (s : State) (c : Nat) : (takeCore s c).rings = s.rings := by simp [takeCore]
@[simp] theorem selectDown_fetches (s : State) (c prio : Nat) : fetches (selectDown s c prio).rings = fetches s.rings := by
  unfold selectDown; dsimp only; (repeat' split) <;> simp
@[simp] theorem releaseUp_rings (s : State) (c : Nat) (f : Frame) : (releaseUp s c f).rings = s.rings := by
  unfold releaseUp; split <;> simp
@[simp] theorem selectUp_rings (s : State) (c prio : Nat) : (selectUp s c prio).rings = s.rings := by
  unfold selectUp; dsimp only; (repeat' split) <;> simp
@[simp] theorem gclSwapOp_rings (s : State) (c : Nat) : (gclSwapOp s c).rings = s.rings := by simp [gclSwapOp]
@[simp] theorem clearHist_rings (s : State) (c : Nat) : (clearHist s c).rings = s.rings := by simp [clearHist]

/-! ### The uplink (chapter 05) -/

@[simp] theorem driveTx_rings (s : State) : (driveTx s).rings = s.rings := by simp [driveTx]
@[simp] theorem followSrc_rings (s : State) : (followSrc s).rings = s.rings := by simp [followSrc]
@[simp] theorem setGate_rings (s : State) (g : GateSt) : (setGate s g).rings = s.rings := by simp [setGate]
@[simp] theorem emitBurstWork_fetches (cut : Bool) (s : State) (x : BurstWork) : fetches (emitBurstWork cut s x).rings = fetches s.rings := by
  unfold emitBurstWork; split <;> simp
@[simp] theorem mapTcont_rings (s : State) (p : Frame → Frame) : (mapTcont s p).rings = s.rings := by simp [mapTcont]
@[simp] theorem dropTcont_rings (s : State) (p : Frame → Bool) : (dropTcont s p).rings = s.rings := by simp [dropTcont]
@[simp] theorem pauseAll_rings (s : State) : (pauseAll s).rings = s.rings := by simp [pauseAll]
@[simp] theorem loseSeg_fetches (st : Status) (s : State) (g : BurstSeg) : fetches (loseSeg st s g).rings = fetches s.rings := by
  unfold loseSeg; split <;> simp
@[simp] theorem stopWindow_fetches (s : State) (reached : Nat) (st : Status) : fetches (stopWindow s reached st).rings = fetches s.rings := by
  unfold stopWindow; split <;> simp
@[simp] theorem restoreBurst_rings (s : State) (b : Burst) : (restoreBurst s b).rings = s.rings := by
  unfold restoreBurst; split <;> simp [unplan]
@[simp] theorem countRefused_rings (s : State) : (countRefused s).rings = s.rings := by simp [countRefused]
@[simp] theorem refuseAll_rings (s : State) : (refuseAll s).rings = s.rings := by
  unfold refuseAll; dsimp only; split <;> simp [-List.foldl_reverse]
@[simp] theorem declareLods_rings (s : State) : (declareLods s).rings = s.rings := by simp [declareLods]
@[simp] theorem takeEqd_rings (s : State) : (takeEqd s).rings = s.rings := by unfold takeEqd; split <;> simp
@[simp] theorem countXgem_rings (s : State) : (countXgem s).rings = s.rings := by simp [countXgem]
@[simp] theorem psyncMissOp_rings (s : State) : (psyncMissOp s).rings = s.rings := by unfold psyncMissOp; (repeat' split) <;> simp
@[simp] theorem micFail_rings (s : State) : (micFail s).rings = s.rings := by simp [micFail]
@[simp] theorem allocOp_rings (s : State) (id : BitVec 14) (add : Bool) : (allocOp s id add).rings = s.rings := by
  unfold allocOp; (repeat' split) <;> simp
@[simp] theorem unassign_rings (s : State) : (unassign s).rings = s.rings := by simp [unassign]
@[simp] theorem stopGate_rings (s : State) : (stopGate s).rings = s.rings := by simp [stopGate]
@[simp] theorem disableOp_rings (s : State) (o : SnOrder) (hi lo : Word) : (disableOp s o hi lo).rings = s.rings := by
  unfold disableOp; (repeat' split) <;> simp
@[simp] theorem onuStateOp_fetches (s : State) (v : BitVec 4) : fetches (onuStateOp s v).rings = fetches s.rings := by simp [onuStateOp, returnUplink]
@[simp] theorem xgemTake_rings (s : State) (e : PortEntry) (x : List Byte) (last : Bool) (t : Nat) :
    (xgemTake s e x last t).rings = s.rings := by
  unfold xgemTake; dsimp only; (repeat' split) <;> simp [xgemFrame]
@[simp] theorem xgemOp_rings (s : State) (hdr : DWord) (pos hdrBit : Nat) (b : List Byte) :
    (xgemOp s hdr pos hdrBit b).rings = s.rings := by
  unfold xgemOp; dsimp only; (repeat' split) <;> simp
@[simp] theorem userWrite_rings (s : State) (w : Option (Byte × List Byte)) : (userWrite s w).rings = s.rings := by
  unfold userWrite; split <;> simp
@[simp] theorem rogueClearOp_rings (s : State) (sd : Bool) : (rogueClearOp s sd).rings = s.rings := by simp [rogueClearOp]
@[simp] theorem queuePloams_rings (s : State) (l : List (List Byte)) : (queuePloams s l).rings = s.rings := by simp [queuePloams]
@[simp] theorem fixOp_rings (s : State) (tds : Nat) (allocs : List Alloc) : (fixOp s tds allocs).rings = s.rings := by
  unfold fixOp; dsimp only; (repeat' split) <;> simp
@[simp] theorem contentFixOp_rings (s : State) (tds : Nat) (allocs : List DWord) (ploams : List (List Byte)) :
    (contentFixOp s tds allocs ploams).rings = s.rings := by
  simp [contentFixOp, iter_rings]
theorem openSegs_rings (b : Burst) (l : List BurstSeg) (x : State × List (Nat × List Byte) × List BurstSeg) :
    (l.foldl (openSeg b) x).1.rings = x.1.rings := by
  induction l generalizing x with
  | nil => rfl
  | cons g l ih =>
    rw [List.foldl_cons, ih]
    unfold openSeg; (repeat' split) <;> simp
@[simp] theorem sendPloam_rings (s : State) (b : Burst) : (sendPloam s b).rings = s.rings := by unfold sendPloam; split <;> simp
@[simp] theorem openBurst_rings (s : State) (b : Burst) : (openBurst s b).rings = s.rings := by simp [openBurst, openSegs_rings]
@[simp] theorem maskBurst_rings (s : State) (b : Burst) : (maskBurst s b).rings = s.rings := by
  unfold maskBurst; dsimp only; (repeat' split) <;> simp
@[simp] theorem windowOpenOp_rings (s : State) : (windowOpenOp s).rings = s.rings := by unfold windowOpenOp; split <;> simp
@[simp] theorem burstPtp_rings (s : State) (g : BurstSeg) : (burstPtp s g).rings = s.rings := by
  unfold burstPtp; (repeat' split) <;> simp
@[simp] theorem burstWindowCloseOp_fetches (s : State) : fetches (windowCloseOp_ s).rings = fetches s.rings := by
  unfold windowCloseOp_; split <;> simp [leaveQueues]
@[simp] theorem rxOff_rings (s : State) : (rxOff s).rings = s.rings := by simp [rxOff]
@[simp] theorem rxOnAgain_rings (s : State) : (rxOnAgain s).rings = s.rings := by simp [rxOnAgain]
@[simp] theorem enterMode_rings (s : State) (m : PonMode) : (enterMode s m).rings = s.rings := by unfold enterMode; split <;> simp
@[simp] theorem ponTimerOp_rings (s : State) (t : PonTimer) : (ponTimerOp s t).rings = s.rings := by
  unfold ponTimerOp; (repeat' split) <;> simp
@[simp] theorem dyingGasp_rings (s : State) (onBattery : Bool) : (dyingGasp s onBattery).rings = s.rings := by simp [dyingGasp]
@[simp] theorem dyingGaspEnd_rings (s : State) : (dyingGaspEnd s).rings = s.rings := by simp [dyingGaspEnd]
@[simp] theorem cutUplink_fetches (s : State) : fetches (cutUplink s).rings = fetches s.rings := by unfold cutUplink; split <;> simp
@[simp] theorem uplSettled_rings (s : State) : (uplSettled s).rings = s.rings := by simp [uplSettled]

/-! ### What a reset and the link leave (chapters 00, 02) -/

@[simp] theorem loseLink_beginsNone (s : State) (h : BeginsNone p (fetches s.rings)) : BeginsNone p (fetches (loseLink s).rings) := by
  simp [h, loseLink]
@[simp] theorem resetConfig_fetches (s : State) : fetches (resetConfig s).rings = fetches s.rings := by simp [resetConfig]
@[simp] theorem endCapsule_fetches (s : State) : fetches (endCapsule s).rings = fetches s.rings := by unfold endCapsule; split <;> simp
@[simp] theorem wakeSource_beginsNone (s : State) (code : Nat) (h : BeginsNone p (fetches s.rings)) :
    BeginsNone p (fetches (wakeSource s code).rings) := by
  unfold wakeSource; dsimp only; split <;> simp [h]
@[simp] theorem tryResume_beginsNone (s : State) (h : BeginsNone p (fetches s.rings)) : BeginsNone p (fetches (tryResume s).rings) := by
  simp [h, tryResume]
@[simp] theorem returnReset_fetches (s : State) (r : RingNo) : fetches (returnReset s r).rings = fetches s.rings := by simp [returnReset]

/-! ### Power states and domains (chapter 14) -/

@[simp] theorem keysOff_rings (s : State) : (keysOff s).rings = s.rings := by simp [keysOff]
@[simp] theorem hifOff_beginsNone (s : State) (h : BeginsNone p (fetches s.rings)) : BeginsNone p (fetches (hifOff s).rings) := by
  unfold hifOff; dsimp only
  simp [ringHifOff, h]
@[simp] theorem switchOff_beginsNone (s : State) (d : Domain) (h : BeginsNone p (fetches s.rings)) :
    BeginsNone p (fetches (switchOff s d).rings) := by
  unfold switchOff; (repeat' split) <;> simp [h, coreOff, uplOff, halfOff, islandOff]
@[simp] theorem lastStep_beginsNone (s : State) (h : BeginsNone p (fetches s.rings)) :
    BeginsNone p (fetches (lastStep s).rings) := by
  unfold lastStep; dsimp only; (repeat' split) <;> simp [h]
@[simp] theorem downAction_beginsNone (s : State) (k : Nat) (h : BeginsNone p (fetches s.rings)) :
    BeginsNone p (fetches (downAction s k).rings) := by
  unfold downAction; split <;> simp [h]
@[simp] theorem downFrom_beginsNone (n : Nat) (s : State) (k : Nat) (h : BeginsNone p (fetches s.rings)) :
    BeginsNone p (fetches (downFrom n s k).rings) := by
  induction n generalizing s k with
  | zero => exact h
  | succ n ih =>
    unfold downFrom
    (repeat' split)
    · simp [h]
    · exact ih _ _ h
    · simp [h]
@[simp] theorem startPowerDown_beginsNone (s : State) (toOff : Bool) (h : BeginsNone p (fetches s.rings)) :
    BeginsNone p (fetches (startPowerDown s toOff).rings) := by
  simp [h, startPowerDown]
@[simp] theorem powerDownNext_beginsNone (s : State) (h : BeginsNone p (fetches s.rings)) : BeginsNone p (fetches (powerDownNext s).rings) :=
  downFrom_beginsNone _ _ _ h
@[simp] theorem upAction_beginsNone (s : State) (k : Nat) (h : BeginsNone p (fetches s.rings)) :
    BeginsNone p (fetches (upAction s k).rings) := by
  unfold upAction; split <;> simp [h, endWake, coreStart]
@[simp] theorem releaseDomains_rings (s : State) : (releaseDomains s).rings = s.rings := by unfold releaseDomains; split <;> simp
@[simp] theorem refuseEntry_rings (s : State) (why : Nat) : (refuseEntry s why).rings = s.rings := by simp [refuseEntry]
@[simp] theorem stopFetch_beginsNone (s : State) (h : BeginsNone p (fetches s.rings)) : BeginsNone p (fetches (stopFetch s).rings) := by
  simp [h, stopFetch]
@[simp] theorem pwrEnterOp_beginsNone (s : State) (seq : Word) (h : BeginsNone p (fetches s.rings)) :
    BeginsNone p (fetches (pwrEnterOp s seq).rings) := by
  unfold pwrEnterOp; dsimp only; (repeat' split) <;> simp [h]
@[simp] theorem pwrGoOp_beginsNone (s : State) (toOff : Bool) (h : BeginsNone p (fetches s.rings)) :
    BeginsNone p (fetches (pwrGoOp s toOff).rings) := by
  unfold pwrGoOp; dsimp only; (repeat' split) <;> simp [h]
@[simp] theorem pmeTurnOffOp_beginsNone (s : State) (h : BeginsNone p (fetches s.rings)) : BeginsNone p (fetches (pmeTurnOffOp s).rings) := by
  unfold pmeTurnOffOp
  split
  · refine startPowerDown_beginsNone _ _ ?_
    rw [modHif_rings]
    exact loseLink_beginsNone _ h
  · exact h
@[simp] theorem wakeIf_beginsNone (s : State) (bit code : Nat) (h : BeginsNone p (fetches s.rings)) :
    BeginsNone p (fetches (wakeIf s bit code).rings) := by
  simp [h, wakeIf]

/-! ### The supply watch (chapter 13) -/

@[simp] theorem closes_rings (s : State) (i : Nat) (c : Comp) (x : Crossing) : (closes s i c x).rings = s.rings := by
  unfold closes; split <;> simp [closeDist]
@[simp] theorem tryUnshed_rings (s : State) : (tryUnshed s).rings = s.rings := by simp [tryUnshed, unshed]
@[simp] theorem endSealShed_rings (s : State) : (endSealShed s).rings = s.rings := by simp [endSealShed]
@[simp] theorem feedCross_rings (s0 : State) (x : Crossing) : (feedCross s0 x).rings = s0.rings := by
  unfold feedCross; (repeat' split) <;> simp [resumeInrush, pauseInrush]
@[simp] theorem sealStarts_fetches (s : State) : fetches (sealStarts s).rings = fetches s.rings := by simp [sealStarts]
@[simp] theorem startSeal_fetches (s : State) (bat : Bool) : fetches (startSeal s bat).rings = fetches s.rings := by simp [startSeal]
@[simp] theorem crossEffect_beginsNone (s : State) (i : SupIn) (x : Crossing) (trip close : Bool) (h : BeginsNone p (fetches s.rings)) :
    BeginsNone p (fetches (crossEffect s i x trip close).rings) := by
  unfold crossEffect; (repeat' split) <;> simp [h, mainRestore, mainTrip]
@[simp] theorem sealDoneOp_rings (s : State) : (sealDoneOp s).rings = s.rings := by simp [sealDoneOp]
@[simp] theorem endEntry_rings (s : State) : (endEntry s).rings = s.rings := by simp [endEntry]
@[simp] theorem bmcOffOp_rings (s : State) (c : Nat) (on : Bool) : (bmcOffOp s c on).rings = s.rings := by simp [bmcOffOp]

/-! ### Firmware and identity (chapter 15) -/

@[simp] theorem restartWdg_rings (s : State) (cp : Nat) : (restartWdg s cp).rings = s.rings := by simp [restartWdg]
@[simp] theorem ptpDropOp_rings (s : State) : (ptpDropOp s).rings = s.rings := by unfold ptpDropOp; split <;> simp
@[simp] theorem confirmSlot_rings (s : State) (k : Nat) : (confirmSlot s k).rings = s.rings := by simp [confirmSlot]
@[simp] theorem rejectTrial_rings (s : State) (k : Nat) : (rejectTrial s k).rings = s.rings := by simp [rejectTrial]
@[simp] theorem rollBack_beginsNone (s : State) (k : Nat) (h : BeginsNone p (fetches s.rings)) : BeginsNone p (fetches (rollBack s k).rings) := by
  simp [h, rollBack]
@[simp] theorem confirmTimeoutOp_beginsNone (s : State) (h : BeginsNone p (fetches s.rings)) :
    BeginsNone p (fetches (confirmTimeoutOp s).rings) := by
  unfold confirmTimeoutOp; split <;> simp [h]
theorem readBuffer_fetches {s t : State} {w : Work} {res : XferResult} (e : readBuffer s w res = .inl t ∨ readBuffer s w res = .inr t) :
    fetches t.rings = fetches s.rings := by
  unfold readBuffer at e; dsimp only at e
  (repeat' split at e) <;> obtain ⟨⟨⟩⟩ | ⟨⟨⟩⟩ := e <;> simp
@[simp] theorem programSlot_rings (s : State) (i off : Nat) (data : List Byte) : (programSlot s i off data).rings = s.rings := by
  simp [programSlot]
@[simp] theorem fwStageOp_fetches (s : State) (seq : Word) (res : XferResult) (data : List Byte) (sigOk : Bool) :
    fetches (fwStageOp s seq res data sigOk).rings = fetches s.rings := by
  unfold fwStageOp; dsimp only
  split; · rfl
  split; · simp
  split; · simp
  split; · simp
  split
  next e => exact readBuffer_fetches (.inl e)
  next e => split <;> simp [readBuffer_fetches (.inr e)]
@[simp] theorem restartAfter_rings (s : State) (seq : Word) : (restartAfter s seq).rings = s.rings := by simp [restartAfter]
@[simp] theorem fwActivateOp_fetches (s : State) (seq : Word) : fetches (fwActivateOp s seq).rings = fetches s.rings := by
  unfold fwActivateOp; split <;> simp
@[simp] theorem fwConfirmOp_fetches (s : State) (seq : Word) : fetches (fwConfirmOp s seq).rings = fetches s.rings := by
  unfold fwConfirmOp; (repeat' split) <;> simp
@[simp] theorem fwFallbackOp_fetches (s : State) (seq : Word) : fetches (fwFallbackOp s seq).rings = fetches s.rings := by
  unfold fwFallbackOp; (repeat' split) <;> simp
@[simp] theorem slotFallbackOp_beginsNone (s : State) (h : BeginsNone p (fetches s.rings)) :
    BeginsNone p (fetches (slotFallbackOp s).rings) := by
  unfold slotFallbackOp; dsimp only; (repeat' split) <;> simp [h]
@[simp] theorem slotConfirmOp_rings (s : State) : (slotConfirmOp s).rings = s.rings := by
  unfold slotConfirmOp; dsimp only; (repeat' split) <;> simp
@[simp] theorem revertOp_rings (s : State) : (revertOp s).rings = s.rings := by simp [revertOp]
@[simp] theorem readSettings_fetches (s : State) (h : ImageHdr) (parseOk : Bool) : fetches (readSettings s h parseOk).rings = fetches s.rings := by
  unfold readSettings; dsimp only; (repeat' split) <;> simp [restrict]
@[simp] theorem giveRegId_rings (s : State) : (giveRegId s).rings = s.rings := by unfold giveRegId; split <;> simp
@[simp] theorem handoverOp_fetches (s : State) (positions : List (List Byte)) (parseOk : Bool) :
    fetches (handoverOp s positions parseOk).rings = fetches s.rings := by
  unfold handoverOp; dsimp only; (repeat' split) <;> simp
@[simp] theorem capsuleApply_rings (s : State) (c : Capsule) (positions : List (List Byte)) : (capsuleApply s c positions).rings = s.rings := by
  simp [capsuleApply, capsuleGen]
@[simp] theorem capsuleOp_beginsNone (s : State) (seq : Word) (res : XferResult) (data : List Byte) (keys : SigKeys) (positions : List (List Byte))
    (h : BeginsNone p (fetches s.rings)) : BeginsNone p (fetches (capsuleOp s seq res data keys positions).rings) := by
  unfold capsuleOp
  split
  · exact h
  split
  · simp [h]
  split
  next e => rwa [readBuffer_fetches (.inl e)]
  next e =>
    split
    · exact h
    · rw [← readBuffer_fetches (.inr e)] at h
      dsimp only
      (repeat' split) <;> simp [h]
@[simp] theorem fixProfile_rings (s : State) (p : BitVec 2) : (fixProfile s p).rings = s.rings := by simp [fixProfile]
@[simp] theorem identityOp_rings (s : State) (a b : List Byte) : (identityOp s a b).rings = s.rings := by
  unfold identityOp; dsimp only; (repeat' split) <;> simp

/-! ### Event counters (chapter 16) -/

@[simp] theorem evtSoftOp_rings (s : State) (v : Word) : (evtSoftOp s v).rings = s.rings := by simp [evtSoftOp]
@[simp] theorem setCounter_rings (s : State) (k : CntSel) (x : Counter) : (setCounter s k x).rings = s.rings := by
  unfold setCounter; split <;> simp
@[simp] theorem counterCfgOp_rings (s : State) (who : Requester) (k : CntSel) (v : Word) : (counterCfgOp s who k v).rings = s.rings := by
  simp [counterCfgOp]

/-! ### Line signal (chapter 06) -/

@[simp] theorem toPhase_rings (s : State) (c p : Nat) : (toPhase s c p).rings = s.rings := by simp [toPhase]
@[simp] theorem phaseEnd_fetches (s : State) (c : Nat) (r : PhaseResult) : fetches (phaseEnd s c r).rings = fetches s.rings := by
  unfold phaseEnd; dsimp only; (repeat' split) <;> simp [goService, takeEstimate, beginHandshake]
@[simp] theorem countSat_rings (s : State) (c multiply other : Nat) : (countSat s c multiply other).rings = s.rings := by
  simp [countSat]
@[simp] theorem sendSymbol_rings (s : State) (c k : Nat) (tones : List (Nat × Nat × Nat)) : (sendSymbol s c k tones).rings = s.rings := by
  simp [sendSymbol]
@[simp] theorem sendSync_rings (s : State) (c : Nat) : (sendSync s c).rings = s.rings := by simp [sendSync]
@[simp] theorem sendTraining_rings (s : State) (c : Nat) : (sendTraining s c).rings = s.rings := by simp [sendTraining]
@[simp] theorem takeSamples_rings (s : State) (c : Nat) (adc : List (List (BitVec 14))) : (takeSamples s c adc).rings = s.rings := by
  simp [takeSamples]

/-! ### Line framing (chapter 07) -/

@[simp] theorem sendSlots_rings (c n : Nat) (s : State) : (sendSlots c n s).rings = s.rings := by
  induction n generalizing s with
  | zero => rfl
  | succ n ih => simp [sendSlots, ih]
@[simp] theorem pump_rings (s : State) (c : Nat) : (pump s c).rings = s.rings := by simp [pump]
@[simp] theorem putDtu_rings (s : State) (c : Nat) (b : List Byte) : (putDtu s c b).rings = s.rings := by simp [putDtu]
@[simp] theorem dtuCloseOp_fetches (s0 : State) (c : Nat) : fetches (dtuCloseOp s0 c).rings = fetches s0.rings := by
  unfold dtuCloseOp; dsimp only; (repeat' split) <;> simp [closeData, endEmissions, ptpClose]
@[simp] theorem closeDue_fetches (c n : Nat) (s : State) : fetches (closeDue c n s).rings = fetches s.rings := by
  induction n generalizing s with
  | zero => rfl
  | succ n ih => simp [closeDue, ih]
@[simp] theorem takeSeg_rings (c : Nat) (slots : List Nat) (s : State) (g : Seg) : (takeSeg c slots s g).rings = s.rings := by
  unfold takeSeg; dsimp only; (repeat' split) <;> simp [brokenPiece]
@[simp] theorem releaseAll_rings (s : State) (c : Nat) : (releaseAll s c).rings = s.rings := by simp [releaseAll, releaseDtu]
@[simp] theorem serveNack_rings (c fcnt : Nat) (s : State) (q : Half) : (serveNack c fcnt s q).rings = s.rings := by
  unfold serveNack; dsimp only; (repeat' split) <;> simp
@[simp] theorem receiveFrame_rings (s : State) (c : Nat) (words : List (List Byte)) : (receiveFrame s c words).rings = s.rings := by
  unfold receiveFrame; dsimp only; (repeat' split) <;> simp [overheadOp, badOverhead]
theorem assembleRing_fetches {c i n fuel : Nat} {s t : State} {x : Option (List Byte)} (e : assembleRing c i n fuel s = (t, x)) :
    fetches t.rings = fetches s.rings := by
  induction fuel generalizing s with
  | zero => cases e; rfl
  | succ fuel ih =>
    unfold assembleRing at e; dsimp only at e
    split at e
    · cases e; rfl
    split at e
    · rw [ih e, setFr_rings]
    · cases e; rfl
    · cases e
      (repeat' split) <;> simp
@[simp] theorem countSlip_rings (s : State) (c i : Nat) (tx : Bool) : (countSlip s c i tx).rings = s.rings := by simp [countSlip]
@[simp] theorem tribAssemble_fetches (s : State) (c i : Nat) (pcmIn : List (List Bool)) :
    fetches (tribAssemble s c i pcmIn).rings = fetches s.rings := by
  unfold tribAssemble; dsimp only; (repeat' split)
  case h_1 e => simp [assembleRing_fetches e]
  case h_2 e => simp [assembleRing_fetches e]
  all_goals simp
@[simp] theorem fillBlock_fetches (s : State) (c i : Nat) (x : Word × List Byte) (data : List Byte) :
    fetches (fillBlock s c i x data).rings = fetches s.rings := by
  unfold fillBlock; dsimp only; (repeat' split) <;> simp
@[simp] theorem tribDeliver_fetches (s : State) (c i : Nat) : fetches (tribDeliver s c i).rings = fetches s.rings := by
  unfold tribDeliver; dsimp only; (repeat' split) <;> simp
@[simp] theorem tribFrame_fetches (c : Nat) (pcmIn : List (List Bool)) (s : State) (i : Nat) :
    fetches (tribFrame c pcmIn s i).rings = fetches s.rings := by
  simp [tribFrame]
@[simp] theorem tribIdleFrame_rings (c : Nat) (s : State) (i : Nat) : (tribIdleFrame c s i).rings = s.rings := by simp [tribIdleFrame]
@[simp] theorem tribBlockOp_fetches (s : State) (r : RingNo) (seq : Word) (res : XferResult) (data : List Byte) :
    fetches (tribBlockOp s r seq res data).rings = fetches s.rings := by
  unfold tribBlockOp; dsimp only; (repeat' split) <;> simp
@[simp] theorem econEntry_rings (s : State) (c : Nat) : (econEntry s c).rings = s.rings := by
  unfold econEntry; split <;> simp [goEconomy]
@[simp] theorem econLeave_rings (s : State) (c : Nat) : (econLeave s c).rings = s.rings := by
  unfold econLeave; split <;> simp [leaveEconomy]
@[simp] theorem econSwitch_rings (s : State) (c : Nat) : (econSwitch s c).rings = s.rings := by simp [econSwitch]
@[simp] theorem pmFrame_rings (s : State) (c : Nat) : (pmFrame s c).rings = s.rings := by simp [pmFrame]
@[simp] theorem beginFrame_rings (s : State) (c : Nat) (rx : FrameRx) : (beginFrame s c rx).rings = s.rings := by simp [beginFrame]
@[simp] theorem endFrame_fetches (s : State) (c : Nat) (rx : FrameRx) : fetches (endFrame s c rx).rings = fetches s.rings := by
  simp [endFrame, closeRest]

/-! ### The management port (chapter 16) -/

@[simp] theorem portErr_rings (s : State) (e : PortErr) : (portErr s e).rings = s.rings := by simp [portErr]
@[simp] theorem headerCommit_rings (s : State) (uses : Option Nat) : (headerCommit s uses).rings = s.rings := by
  unfold headerCommit; split <;> simp
@[simp] theorem readHeader_rings (s : State) (a : Nat) : (readHeader s a).rings = s.rings := by simp [readHeader, header]
@[simp] theorem writeHeader_rings (s : State) (a : Nat) : (writeHeader s a).rings = s.rings := by simp [writeHeader, header]
@[simp] theorem armHeader_rings (s : State) (a : Nat) : (armHeader s a).rings = s.rings := by simp [armHeader, header]
@[simp] theorem unknownHeader_rings (s : State) (hdr : Word) : (unknownHeader s hdr).rings = s.rings := by simp [unknownHeader, header]
@[simp] theorem portValue_rings (s : State) (off : Nat) : (portValue s off).2.rings = s.rings := by
  unfold portValue; dsimp only; (repeat' split) <;> rfl
@[simp] theorem portRead_rings (s : State) (a : Nat) : (portRead s a).rings = s.rings := by
  unfold portRead; dsimp only; (repeat' split) <;> simp
@[simp] theorem armedWrite_beginsNone (s : State) (r : ArmedReg) (v : Word) (h : BeginsNone p (fetches s.rings)) :
    BeginsNone p (fetches (armedWrite s r v).rings) := by
  unfold armedWrite; split <;> simp [h]
@[simp] theorem armedFirst_beginsNone (s : State) (a : Nat) (v : Word) (h : BeginsNone p (fetches s.rings)) :
    BeginsNone p (fetches (armedFirst s a v).rings) := by
  unfold armedFirst; dsimp only
  (repeat' split)
  · exact armedWrite_beginsNone _ _ _ h
  · simp [h]
  · simp [h]
@[simp] theorem dataWordOp_beginsNone (s : State) (v : Word) (h : BeginsNone p (fetches s.rings)) :
    BeginsNone p (fetches (dataWordOp s v).rings) := by
  unfold dataWordOp; dsimp only
  (repeat' split)
  case h_4 => exact armedFirst_beginsNone _ _ _ h
  all_goals simp [portWrite, h]

/-! ### Register writes outside the windows (chapter 17) -/

@[simp] theorem stage_rings (s : State) (off : Nat) (v : Word) : (stage s off v).rings = s.rings := by simp [stage]
@[simp] theorem floorOp_rings (s : State) (v : Word) : (floorOp s v).rings = s.rings := by simp [floorOp]
@[simp] theorem writePwr_rings (s : State) (who : Requester) (off : Nat) (v : Word) : (writePwr s who off v).rings = s.rings := by
  unfold writePwr; dsimp only; split <;> cases who <;> simp [pfWrite]
@[simp] theorem ringStatWrite_fetches (s : State) (r : Nat) (v : Word) : fetches (ringStatWrite s r v).rings = fetches s.rings := by
  simp [ringStatWrite]
@[simp] theorem ringRegWrite_beginsNone (s : State) (off r o : Nat) (v : Word) (h : BeginsNone p (fetches s.rings)) :
    BeginsNone p (fetches (ringRegWrite s off r o v).rings) := by
  unfold ringRegWrite; dsimp only; split <;> simp [h, takeHigh]
@[simp] theorem msixWrite_rings (s : State) (f o : Nat) (v : Word) : (msixWrite s f o v).rings = s.rings := by
  unfold msixWrite; dsimp only; (repeat' split) <;> simp
@[simp] theorem chtabBaseHigh_rings (s : State) (off : Nat) (v : Word) : (chtabBaseHigh s off v).rings = s.rings := by
  simp [chtabBaseHigh, takeHigh]
@[simp] theorem ledgCtlOp_fetches (s : State) (v : Word) : fetches (ledgCtlOp s v).rings = fetches s.rings := by simp [ledgCtlOp]
@[simp] theorem writeLedg_fetches (s : State) (off : Nat) (v : Word) : fetches (writeLedg s off v).rings = fetches s.rings := by
  unfold writeLedg; dsimp only; split <;> simp [takeHigh]
@[simp] theorem datumCtlOp_rings (s : State) (v : Word) : (datumCtlOp s v).rings = s.rings := by simp [datumCtlOp]
@[simp] theorem tddOp_rings (s : State) (v : Word) : (tddOp s v).rings = s.rings := by simp [tddOp]
@[simp] theorem writeTime_rings (s : State) (who : Requester) (off : Nat) (v : Word) : (writeTime s who off v).rings = s.rings := by
  unfold writeTime; dsimp only; split <;> cases who <;> simp [pfWrite]
@[simp] theorem gateFwOp_rings (s : State) (v : Word) : (gateFwOp s v).rings = s.rings := by simp [gateFwOp]
@[simp] theorem portCmdOp_rings (s : State) (who : Requester) (v : Word) : (portCmdOp s who v).rings = s.rings := by
  unfold portCmdOp; split <;> simp
@[simp] theorem writeUpl_fetches (s : State) (who : Requester) (off : Nat) (v : Word) : fetches (writeUpl s who off v).rings = fetches s.rings := by
  unfold writeUpl; dsimp only; split <;> cases who <;> simp [pfWrite, lockWrite, fwWrite, takeHigh, uplLocked]
@[simp] theorem ftCmdOp_rings (s : State) (p : Nat) (v : Word) : (ftCmdOp s p v).rings = s.rings := by unfold ftCmdOp; split <;> simp
@[simp] theorem writeXc_rings (s : State) (who : Requester) (off : Nat) (v : Word) : (writeXc s who off v).rings = s.rings := by
  simp [writeXc]
@[simp] theorem writeSec_rings (s : State) (who : Requester) (off : Nat) (v : Word) : (writeSec s who off v).rings = s.rings := by
  unfold writeSec; split <;> cases who <;> simp [pfWrite, lockWrite]
@[simp] theorem radCtlOp_fetches (s : State) (v : Word) : fetches (radCtlOp s v).rings = fetches s.rings := by simp [radCtlOp]
@[simp] theorem radAccessOp_rings (s : State) (v : Word) : (radAccessOp s v).rings = s.rings := by
  unfold radAccessOp
  exact setRad_rings s _
@[simp] theorem govWrite_rings (s : State) (b o : Nat) (v : Word) : (govWrite s b o v).rings = s.rings := by simp [govWrite]
@[simp] theorem devCmdOp_rings (s : State) (v : Word) : (devCmdOp s v).rings = s.rings := by simp [devCmdOp]
@[simp] theorem writeRad_fetches (s : State) (who : Requester) (off : Nat) (v : Word) : fetches (writeRad s who off v).rings = fetches s.rings := by
  cases who <;> simp [writeRad, pfWrite, lockWrite, fwWrite, takeHigh, radLocked]
@[simp] theorem auxOp_rings (s : State) (v : Word) : (auxOp s v).rings = s.rings := by simp [auxOp]
@[simp] theorem writeSup_rings (s : State) (who : Requester) (off : Nat) (v : Word) : (writeSup s who off v).rings = s.rings := by
  unfold writeSup; split <;> cases who <;> simp [pfWrite, lockWrite, supLocked]
@[simp] theorem routeOp_rings (s : State) (i : Nat) (v : Word) : (routeOp s i v).rings = s.rings := by simp [routeOp]
@[simp] theorem writeEvt_rings (s : State) (who : Requester) (off : Nat) (v : Word) : (writeEvt s who off v).rings = s.rings := by
  cases who <;> simp [writeEvt, pfWrite, fwWrite]
@[simp] theorem fwStatWrite_rings (s : State) (who : Requester) (off : Nat) (v : Word) : (fwStatWrite s who off v).rings = s.rings := by
  unfold fwStatWrite; split <;> simp
@[simp] theorem kickOp_rings (s : State) (who : Requester) (v : Word) : (kickOp s who v).rings = s.rings := by
  unfold kickOp; split <;> simp
@[simp] theorem writeFw_rings (s : State) (who : Requester) (off : Nat) (v : Word) : (writeFw s who off v).rings = s.rings := by
  unfold writeFw; dsimp only; split <;> cases who <;> simp [pfWrite, fwWrite]
@[simp] theorem writeMgt_rings (s : State) (who : Requester) (off : Nat) (v : Word) : (writeMgt s who off v).rings = s.rings := by
  cases who <;> simp [writeMgt, pfWrite]
@[simp] theorem shadowOp_rings (s : State) (c : Nat) (f : Gcl → GclBank → GclBank) : (shadowOp s c f).rings = s.rings := by
  simp [shadowOp]
@[simp] theorem gclCtlOp_rings (s : State) (c : Nat) (v : Word) : (gclCtlOp s c v).rings = s.rings := by simp [gclCtlOp]
@[simp] theorem writeChan_fetches (s : State) (who : Requester) (off c o : Nat) (v : Word) :
    fetches (writeChan s who off c o v).rings = fetches s.rings := by
  cases who <;> simp [writeChan, pfWrite, fwWrite]

/-! ### Reads and lingering domains (chapter 17) -/

@[simp] theorem readValue_rings (s : State) (off : Nat) : (readValue s off).2.rings = s.rings := by
  unfold readValue; dsimp only; (repeat' split) <;> rfl
@[simp] theorem readOp_rings (s : State) (who : Requester) (asked off : Nat) : (readOp s who asked off).rings = s.rings := by
  simp [readOp]
@[simp] theorem lingerOp_fetches (s : State) (d : Domain) : fetches (lingerOp s d).rings = fetches s.rings := by
  unfold lingerOp; (repeat' split) <;> simp

/-! ### Resets (R17, R20) -/

@[simp] theorem powerOnOp_beginsNone (s : State) : BeginsNone p (fetches (powerOnOp s).rings) := by
  have hr : (powerOnOp s).rings = Vector.ofFn (fun r : Fin 160 => Ring.reset r.val) := rfl
  intro x
  rw [hr]
  by_cases hx : x < 160 <;> simp [fetches, hx, Ring.reset]

@[simp] theorem revertIdentity_rings (s : State) : (revertIdentity s).rings = s.rings := by
  unfold revertIdentity; dsimp only; (repeat' split) <;> simp

@[simp] theorem clearDevice_rings (s : State) (code : Nat) : (clearDevice s code).rings = s.rings := by simp [clearDevice]

@[simp] theorem resetDevice_beginsNone (s : State) (c : ResetCause) (h : BeginsNone p (fetches s.rings)) :
    BeginsNone p (fetches (resetDevice s c).rings) := by
  simp [resetDevice, cutAll, h]

@[simp] theorem deviceReset_beginsNone (s : State) (c : ResetCause) (h : BeginsNone p (fetches s.rings)) :
    BeginsNone p (fetches (deviceReset s c).rings) := by
  unfold deviceReset; split <;> simp [h]

@[simp] theorem resetCause_beginsNone (s : State) (c : ResetCause) (h : BeginsNone p (fetches s.rings)) :
    BeginsNone p (fetches (resetCause s c).rings) := by
  unfold resetCause; split <;> simp [h]

@[simp] theorem busReset_beginsNone (s : State) (c : ResetCause) (h : BeginsNone p (fetches s.rings)) :
    BeginsNone p (fetches (busReset s c).rings) := by
  unfold busReset; dsimp only; split <;> simp [h]

@[simp] theorem hostResetOp_beginsNone (s : State) (key : Word) (h : BeginsNone p (fetches s.rings)) :
    BeginsNone p (fetches (hostResetOp s key).rings) := by
  unfold hostResetOp; (repeat' split) <;> simp [h]

theorem foldl_switchOff_beginsNone (l : List Domain) (s : State) (h : BeginsNone p (fetches s.rings)) :
    BeginsNone p (fetches (l.foldl switchOff s).rings) :=
  foldl_beginsNone switchOff (fun t d => switchOff_beginsNone t d (.refl _)) l s h

theorem holdDomains_beginsNone (s : State) (h : BeginsNone p (fetches s.rings)) : BeginsNone p (fetches (holdDomains s).rings) :=
  foldl_switchOff_beginsNone _ _ (busReset_beginsNone s _ h)

@[simp] theorem pfFlrOp_beginsNone (s : State) (h : BeginsNone p (fetches s.rings)) : BeginsNone p (fetches (pfFlrOp s).rings) := by
  unfold pfFlrOp; dsimp only
  split
  · simp [h]
  · refine startRecovery_beginsNone _ _ _ _ _ _ _ ?_
    simp [h]

@[simp] theorem vfFlrOp_beginsNone (s : State) (c : Nat) (h : BeginsNone p (fetches s.rings)) :
    BeginsNone p (fetches (vfFlrOp s c).rings) := by
  unfold vfFlrOp
  split
  · exact channelReset_beginsNone _ _ _ h
  · exact h

@[simp] theorem railCollapseOp_beginsNone (s : State) (r : Rail) (h : BeginsNone p (fetches s.rings)) :
    BeginsNone p (fetches (railCollapseOp s r).rings) := by
  unfold railCollapseOp; dsimp only
  split
  · refine powerDownNext_beginsNone _ ?_
    simpa using foldl_switchOff_beginsNone (railDomains r) (modPwr s _) h
  · exact h

@[simp] theorem powerUpOp_beginsNone (s : State) (h : BeginsNone p (fetches s.rings)) : BeginsNone p (fetches (powerUpOp s).rings) := by
  unfold powerUpOp; dsimp only
  split
  · exact h
  · exact upAction_beginsNone _ _ h

@[simp] theorem railTimeoutOp_beginsNone (s : State) (h : BeginsNone p (fetches s.rings)) :
    BeginsNone p (fetches (railTimeoutOp s).rings) := by
  unfold railTimeoutOp; dsimp only
  split
  · simpa only [raise_rings, supplyNow_rings, drew_rings, modPwr_rings] using foldl_switchOff_beginsNone [.rad, .feed, .upl, .core, .hif] s h
  · exact h

@[simp] theorem testEnOp_beginsNone (s : State) (level : Bool) (h : BeginsNone p (fetches s.rings)) :
    BeginsNone p (fetches (testEnOp s level).rings) := by
  unfold testEnOp; dsimp only
  split
  · exact holdDomains_beginsNone _ h
  · simp [h]
  · exact h

@[simp] theorem afterSeal_beginsNone (s : State) (held : Option ResetCause) (h : BeginsNone p (fetches s.rings)) :
    BeginsNone p (fetches (afterSeal s held).rings) := by
  unfold afterSeal; (repeat' split) <;> simp [h]

@[simp] theorem sealCompleteOp_beginsNone (s : State) (h : BeginsNone p (fetches s.rings)) :
    BeginsNone p (fetches (sealCompleteOp s).rings) := by
  unfold sealCompleteOp; dsimp only; (repeat' split) <;> simp [h]

@[simp] theorem watchdogOp_beginsNone (s : State) (cp : Nat) (h : BeginsNone p (fetches s.rings)) :
    BeginsNone p (fetches (watchdogOp s cp).rings) := by
  unfold watchdogOp; (repeat' split) <;> simp [fatalWatchdog, h]

/-! ### Register accesses (R375) -/

@[simp] theorem lockAllOp_rings (s : State) : (lockAllOp s).rings = s.rings := rfl

@[simp] theorem pfWrite_beginsNone (s : State) (who : Requester) (off : Nat) (acts : Bool) (f : State → State)
    (hf : BeginsNone p (fetches (f s).rings)) (h : BeginsNone p (fetches s.rings)) : BeginsNone p (fetches (pfWrite s who off acts f).rings) := by
  unfold pfWrite; (repeat' split) <;> simp [hf, h]

@[simp] theorem writeGlb_beginsNone (s : State) (who : Requester) (off : Nat) (v : Word) (h : BeginsNone p (fetches s.rings)) :
    BeginsNone p (fetches (writeGlb s who off v).rings) := by
  unfold writeGlb; split
  · exact pfWrite_beginsNone _ _ _ _ _ (by simp [nextOp, h]) h
  · exact pfWrite_beginsNone _ _ _ _ _ (by simp [h]) h
  · exact pfWrite_beginsNone _ _ _ _ _ (by simp [h]) h
  · exact pfWrite_beginsNone _ _ _ _ _ (by simp [h]) h
  · exact h

@[simp] theorem windowWrite_rings (s : State) (off f w o : Nat) (v : Word) : (windowWrite s off f w o v).rings = s.rings := by
  unfold windowWrite lockWrite; dsimp only; (repeat' split) <;> simp [takeHigh]

@[simp] theorem writeHif_beginsNone (s : State) (who : Requester) (off : Nat) (v : Word) (h : BeginsNone p (fetches s.rings)) :
    BeginsNone p (fetches (writeHif s who off v).rings) := by
  unfold writeHif; dsimp only; (repeat' split) <;> simp [lockWrite, h]

@[simp] theorem writeReg_beginsNone (s : State) (who : Requester) (off : Nat) (v : Word) (h : BeginsNone p (fetches s.rings)) :
    BeginsNone p (fetches (writeReg s who off v).rings) := by
  unfold writeReg; (repeat' split) <;> simp [h]

@[simp] theorem applyAccess_beginsNone (s : State) (a : Access) (h : BeginsNone p (fetches s.rings)) :
    BeginsNone p (fetches (applyAccess s a).rings) := by
  unfold applyAccess; split <;> simp [h]

@[simp] theorem servedAccess_beginsNone (s : State) (a : Access) (h : BeginsNone p (fetches s.rings)) :
    BeginsNone p (fetches (servedAccess s a).rings) := by
  unfold servedAccess; (repeat' split) <;> simp [h]

@[simp] theorem accessOp_beginsNone (s : State) (a : Access) (h : BeginsNone p (fetches s.rings)) :
    BeginsNone p (fetches (accessOp s a).rings) := by
  unfold accessOp; (repeat' split) <;> simp [h]

@[simp] theorem wakeDomain_rings (s : State) (d : Domain) : (wakeDomain s d).rings = s.rings := by
  cases d <;> simp [wakeDomain]

@[simp] theorem domainReadyOp_beginsNone (s : State) (d : Domain) (h : BeginsNone p (fetches s.rings)) :
    BeginsNone p (fetches (domainReadyOp s d).rings) := by
  unfold domainReadyOp; dsimp only; split <;> simp [h]

/-! ### The commands -/

/-- The outcome is no next state, or one to which no fetch begins. -/
def OutcomeBeginsNone (s : State) (o : Host.Outcome State Fault Refusal) : Prop :=
  ∀ t, o = .next t → BeginsNone (fetches s.rings) (fetches t.rings)

@[simp] theorem outcomeBeginsNone_next (s t : State) : OutcomeBeginsNone s (.next t) ↔ BeginsNone (fetches s.rings) (fetches t.rings) := by
  simp [OutcomeBeginsNone]

@[simp] theorem outcomeBeginsNone_fault (s : State) (r : Fault) : OutcomeBeginsNone s (.fault r) := by simp [OutcomeBeginsNone]

@[simp] theorem outcomeBeginsNone_ite (s : State) (c : Prop) [Decidable c] (a b : Host.Outcome State Fault Refusal) :
    OutcomeBeginsNone s (if c then a else b) ↔ if c then OutcomeBeginsNone s a else OutcomeBeginsNone s b := by split <;> rfl

/-- Only the arbiter's grant begins a fetch. -/
theorem exec_beginsNone (c : Instr) (s : State) (h : c ≠ .descriptorFetch) : OutcomeBeginsNone s (exec c s) := by
  cases c with
  | powerOn => simp [exec, execPowerOn]
  | aonBrownOut => simp [exec, execAonBrownOut]
  | perstAssert =>
    simp only [exec, execPerstAssert, outcomeBeginsNone_next]
    split
    · simp
    · exact busReset_beginsNone _ _ (.refl _)
  | perstDeassert =>
    simp only [exec, execPerstDeassert, outcomeBeginsNone_next]
    split
    · exact wakeSource_beginsNone _ _ (.refl _)
    · simp
  | pcieHotReset => simp [exec, execPcieHotReset]
  | linkDown => simp [exec, execLinkDown]
  | linkUp => simp [exec, execLinkUp]
  | pfFlr => simp [exec, execPfFlr]
  | vfFlr => simp [exec, execVfFlr]
  | channelIslandFault => simp [exec, execChannelIslandFault, islandFaultOp]
  | hostFullReset => dsimp only [exec, execHostFullReset]; (repeat' split) <;> simp
  | testEnChange => simp [exec, execTestEnChange]
  | registerWrite => simp [exec, execRegisterWrite]
  | unsupportedAccessWidth => simp [exec, execUnsupportedAccessWidth]
  | poisonedWrite => simp [exec, execPoisonedWrite]
  | busMasterEnableChange => simp [exec, execBusMasterEnableChange, sendPending]
  | memorySpaceEnableChange => simp [exec, execMemorySpaceEnableChange]
  | vfEnableWrite => simp [exec, execVfEnableWrite]
  | configPowerStateWrite =>
    simp only [exec, execConfigPowerStateWrite, outcomeBeginsNone_next]
    (repeat' split)
    · simp
    · exact abandonEntry_beginsNone _ (.refl _)
    · simp
  | domainWakeOnAccess => simp [exec, execDomainWakeOnAccess]
  | domainReady => simp [exec, execDomainReady]
  | lingerExpiry => simp [exec, execLingerExpiry]
  | doorbell => dsimp only [exec, execDoorbell]; (repeat' split) <;> simp
  | descriptorFetch => exact absurd rfl h
  | descriptorFetchComplete => simp [exec, execDescriptorFetchComplete]
  | ringHaltedClear => simp [exec, execRingHaltedClear]
  | ringCfgWrite => simp [exec, execRingCfgWrite]
  | createRing => simp [exec, execCreateRing]
  | destroyRing => simp [exec, execDestroyRing]
  | recordWrite => simp [exec, execRecordWrite]
  | recordAcknowledged => simp [exec, execRecordAcknowledged, recordAckedOp]
  | modTimeExpiry => simp [exec, execModTimeExpiry]
  | txFrame => simp [exec, execTxFrame]
  | txBufferRead => simp [exec, execTxBufferRead]
  | txBufferReadComplete => simp [exec, execTxBufferReadComplete]
  | rxBuffer => simp [exec, execRxBuffer]
  | rxFrameDeliver => simp [exec, execRxFrameDeliver]
  | lifetimeExpiry => simp [exec, execLifetimeExpiry]
  | ledgerEnable => simp [exec, execLedgerEnable]
  | ledgerAdopt => simp [exec, execLedgerAdopt]
  | ledgerClose => simp [exec, execLedgerClose]
  | ledgerWritesAcknowledged => simp [exec, execLedgerWritesAcknowledged, writesAckOp]
  | benchmarkRecordWrite => simp [exec, execBenchmarkRecordWrite]
  | ledgerTransferComplete => simp [exec, execLedgerTransferComplete, ledgerXferOp]
  | ledgerRetry => simp [exec, execLedgerRetry, ledgerRetryOp]
  | recoverySettle => simp [exec, execRecoverySettle]
  | recoveryDone => simp [exec, execRecoveryDone]
  | chtabRefresh => simp [exec, execChtabRefresh]
  | chRefresh => simp [exec, execChRefresh]
  | chReset => simp [exec, execChReset]
  | chtabEnableChange => simp [exec, execChtabEnableChange]
  | chtabReadPhaseComplete => simp [exec, execChtabReadPhaseComplete, phaseComplete]
  | chtabReadRetry => dsimp only [exec, execChtabReadRetry]; (repeat' split) <;> simp
  | chtabReadErrorRetry => dsimp only [exec, execChtabReadErrorRetry]; (repeat' split) <;> simp
  | chHoldWrite => simp [exec, execChHoldWrite]
  | islandPowered => simp [exec, execIslandPowered]
  | tddFrameBoundary => simp [exec, execTddFrameBoundary, boundaryOp, trainBoundary, clearStepped, serviceBoundary]
  | handshakeAnswer => simp [exec, execHandshakeAnswer, handshakeOp]
  | trainingPhaseEnd => simp [exec, execTrainingPhaseEnd]
  | marginUpdate => simp [exec, execMarginUpdate]
  | economyIdleTimerExpiry => simp [exec, execEconomyIdleTimerExpiry, econExpiry]
  | overheadReceived => simp [exec, execOverheadReceived]
  | dtuReceived => simp [exec, execDtuReceived, nextDtu, dtuReceivedOp, countErrDtu]
  | dtuClose => simp [exec, execDtuClose]
  | dtuLost => simp [exec, execDtuLost, dtuLostOp]
  | lossOfLine => simp [exec, execLossOfLine]
  | tribBlock => simp [exec, execTribBlock]
  | datumSecondBoundary => simp [exec, execDatumSecondBoundary, secondOp, govSecond, pmSecond]
  | ppsOutWidthExpiry => simp [exec, execPpsOutWidthExpiry]
  | psbdReceived => simp [exec, execPsbdReceived, psbdOp, xgtcOp]
  | psyncExpectedMiss => simp [exec, execPsyncExpectedMiss]
  | optRxLosChange => simp [exec, execOptRxLosChange]
  | lodsTo2Expiry => simp [exec, execLodsTo2Expiry]
  | optModAbsChange => simp [exec, execOptModAbsChange, modAbsOp]
  | opticsDiagPoll => simp [exec, execOpticsDiagPoll, opticsPollOp]
  | i2cStretchTimeout => simp [exec, execI2cStretchTimeout]
  | ploamReceived => simp [exec, execPloamReceived, ploam]
  | burstProfile => simp [exec, execBurstProfile, ploam]
  | assignOnuId => simp [exec, execAssignOnuId, assignOnu, ploam]
  | rangingTime => simp [exec, execRangingTime, rangeOp, ploam]
  | assignAllocId => simp [exec, execAssignAllocId, ploam]
  | deactivateOnuId => simp [exec, execDeactivateOnuId, ploam]
  | disableSerialNumber => simp [exec, execDisableSerialNumber, ploam]
  | xgemFrameReceived => simp [exec, execXgemFrameReceived]
  | burstContentFix => simp [exec, execBurstContentFix]
  | burstWindowOpen => simp [exec, execBurstWindowOpen]
  | burstWindowClose => simp [exec, execBurstWindowClose]
  | backstopExpiry => simp [exec, execBackstopExpiry, backstopOp]
  | rogueLight => simp [exec, execRogueLight]
  | rogueClear => dsimp only [exec, execRogueClear]; (repeat' split) <;> simp
  | emstopSet => simp [exec, execEmstopSet]
  | ponPowerSaveTimerExpiry => simp [exec, execPonPowerSaveTimerExpiry]
  | uplPortRead => simp [exec, execUplPortRead]
  | uplPortWrite => simp [exec, execUplPortWrite]
  | uplPortClear => simp [exec, execUplPortClear]
  | upstreamFrameReceived => simp [exec, execUpstreamFrameReceived]
  | pauseFrameReceived => simp [exec, execPauseFrameReceived]
  | pauseTimerExpiry => dsimp only [exec, execPauseTimerExpiry]; (repeat' split) <;> simp
  | pauseRefreshExpiry => simp [exec, execPauseRefreshExpiry]
  | flowTableRead => dsimp only [exec, execFlowTableRead]; (repeat' split) <;> simp
  | flowTableWrite => dsimp only [exec, execFlowTableWrite]; (repeat' split) <;> simp
  | flowTableClear => dsimp only [exec, execFlowTableClear]; (repeat' split) <;> simp
  | bufferUncorrectableError => simp [exec, execBufferUncorrectableError, countCorrected, bankLostOp, strikeAll]
  | schedulerSelect => dsimp only [exec, execSchedulerSelect]; (repeat' split) <;> simp
  | refillTick => simp [exec, execRefillTick]
  | gateIntervalExpiry => simp [exec, execGateIntervalExpiry]
  | gclSwap => simp [exec, execGclSwap]
  | histogramSample => simp [exec, execHistogramSample]
  | histClr => simp [exec, execHistClr]
  | todLoad => simp [exec, execTodLoad]
  | phaseAverage => simp [exec, execPhaseAverage]
  | holdoverEntry => simp [exec, execHoldoverEntry]
  | holdErrExceeded => simp [exec, execHoldErrExceeded, holdLimitOp]
  | crystalCalibration => simp [exec, execCrystalCalibration]
  | datumInvalidate => dsimp only [exec, execDatumInvalidate]; (repeat' split) <;> simp
  | ppsInEdge => simp [exec, execPpsInEdge]
  | rxtsNext => dsimp only [exec, execRxtsNext]; (repeat' split) <;> simp
  | gcmEncrypt => simp [exec, execGcmEncrypt]
  | gcmDecrypt => simp [exec, execGcmDecrypt]
  | cmac => simp [exec, execCmac]
  | cvUpdate => simp [exec, execCvUpdate]
  | cvSave => simp [exec, execCvSave]
  | cvRestore => simp [exec, execCvRestore]
  | keyGen => simp [exec, execKeyGen]
  | keyLoad => simp [exec, execKeyLoad]
  | keyImport => simp [exec, execKeyImport]
  | keyExport => simp [exec, execKeyExport]
  | keyDerive => simp [exec, execKeyDerive]
  | keyClear => simp [exec, execKeyClear]
  | keyInfo => simp [exec, execKeyInfo]
  | random => simp [exec, execRandom]
  | ccmStar => simp [exec, execCcmStar]
  | gcmKnownAnswerTest => simp [exec, execGcmKnownAnswerTest]
  | gcmCoreFail => simp [exec, execGcmCoreFail]
  | trngHealthFail => simp [exec, execTrngHealthFail]
  | trngRetest => simp [exec, execTrngRetest, reseedBoth]
  | drbgReseed => simp [exec, execDrbgReseed]
  | maskReseed => simp [exec, execMaskReseed]
  | radFrame => simp [exec, execRadFrame]
  | csmaBackoffExpiry => simp [exec, execCsmaBackoffExpiry]
  | lbtListenEnd => simp [exec, execLbtListenEnd]
  | radioTxEnd => simp [exec, execRadioTxEnd]
  | radioAckReceived => simp [exec, execRadioAckReceived]
  | radioAckTimeout => simp [exec, execRadioAckTimeout]
  | radioFrameReceived => simp [exec, execRadioFrameReceived]
  | radioAckTransmit => simp [exec, execRadioAckTransmit]
  | radioRxDeliver => simp [exec, execRadioRxDeliver]
  | radDevRead => simp [exec, execRadDevRead]
  | radDevWrite => simp [exec, execRadDevWrite]
  | radDevClear => simp [exec, execRadDevClear]
  | levelCrossingDeclared => simp [exec, execLevelCrossingDeclared, crossingOp]
  | sealComplete => simp [exec, execSealComplete]
  | feedAdmissionTick => simp [exec, execFeedAdmissionTick, admitOne]
  | feedRampEnd => simp [exec, execFeedRampEnd]
  | feedShortTrip => simp [exec, execFeedShortTrip]
  | feedOverloadTrip => simp [exec, execFeedOverloadTrip]
  | feedPowerTrip => simp [exec, execFeedPowerTrip]
  | feedBackoffExpiry => simp [exec, execFeedBackoffExpiry]
  | feedTriesReset => simp [exec, execFeedTriesReset]
  | feedInrushAbort => simp [exec, execFeedInrushAbort]
  | feedUnlock => dsimp only [exec, execFeedUnlock]; (repeat' split) <;> simp
  | feedHoldOff => simp [exec, execFeedHoldOff]
  | feedPulseStart => simp [exec, execFeedPulseStart]
  | feedPulseEnd => simp [exec, execFeedPulseEnd]
  | feedWindowClose => simp [exec, execFeedWindowClose, windowCloseOp]
  | idleTimerExpiry => simp [exec, execIdleTimerExpiry]
  | idleExit => simp [exec, execIdleExit]
  | sleepTimerExpiry => simp [exec, execSleepTimerExpiry]
  | l1EntryRequest => simp [exec, execL1EntryRequest]
  | pwrEnter => simp [exec, execPwrEnter]
  | pwrGoDeep => simp [exec, execPwrGoDeep]
  | pwrGoOff => simp [exec, execPwrGoOff]
  | pmeTurnOff => simp [exec, execPmeTurnOff]
  | entryTimeout => simp [exec, execEntryTimeout]
  | powerDownStep => simp [exec, execPowerDownStep]
  | railCollapse => simp [exec, execRailCollapse]
  | wakePin => simp [exec, execWakePin]
  | pwrAlarm => simp [exec, execPwrAlarm]
  | powerUpStep => simp [exec, execPowerUpStep]
  | railGoodTimeout => simp [exec, execRailGoodTimeout]
  | powerUpRetry => simp [exec, execPowerUpRetry]
  | imageHandover => simp [exec, execImageHandover]
  | watchdogKick => simp [exec, execWatchdogKick]
  | watchdogExpiry => simp [exec, execWatchdogExpiry]
  | cpReady => simp [exec, execCpReady]
  | flashWrite => simp [exec, execFlashWrite, flashOp, flashSlot, flashGens]
  | ptpUnpairedDrop => simp [exec, execPtpUnpairedDrop]
  | fwStage => simp [exec, execFwStage]
  | fwActivate => simp [exec, execFwActivate]
  | fwConfirm => simp [exec, execFwConfirm]
  | fwFallback => simp [exec, execFwFallback]
  | capsuleApply => simp [exec, execCapsuleApply]
  | confirmationTimeout => simp [exec, execConfirmationTimeout]
  | fwSlotFallback => simp [exec, execFwSlotFallback]
  | fwSlotConfirm => simp [exec, execFwSlotConfirm]
  | revert => simp [exec, execRevert]
  | bmcOff => simp [exec, execBmcOff]
  | lockAll => simpa [exec, execLockAll] using pfWrite_beginsNone s _ 0x40 true lockAllOp (.refl _) (.refl _)
  | ahnairSelectFall => simp [exec, execAhnairSelectFall, selectFallOp]
  | ahnairSelectRise => simp [exec, execAhnairSelectRise, selectRiseOp]
  | read => simp [exec, execRead]
  | write => simp [exec, execWrite]
  | status => simp [exec, execStatus, header]
  | arm => simp [exec, execArm]
  | ahnairUnknownOpcode => simp [exec, execAhnairUnknownOpcode]
  | ahnairDataWord => simp [exec, execAhnairDataWord]
  | evtSoft => simp [exec, execEvtSoft]
  | eventCounterConfig => simp [exec, execEventCounterConfig]
  | eventCounterClear => simp [exec, execEventCounterClear]
  | counterDurationTick => simp [exec, execCounterDurationTick, durationTickOp]
  | secOperationComplete => simp [exec, execSecOperationComplete]
  | identityLoaded => simp [exec, execIdentityLoaded]
  | crystalRunning => simp [exec, execCrystalRunning]

end

/-! ### The statement -/

/-- R72: no ring may be granted a fetch while LEDG_STAT.STATE is other than ACTIVE. -/
theorem mayGrant_of_not_active {s : State} (h : ledgerState s ≠ 1) (r : Nat) : mayGrant s r = false := by
  have hopen : fetchOpen s r = false := by simp [fetchOpen, h]
  simp [mayGrant, mayFetch, mayRefetch, hopen]

theorem nextAfter_eq_none {q : Nat → Bool} (h : ∀ r, q r = false) (cursor : Nat) : nextAfter cursor q = none := by
  simp [nextAfter, h]

theorem grant_of_not_active {s : State} (h : ledgerState s ≠ 1) : grant s = none := by
  simp [grant, mayGrant_of_not_active h, nextAfter_eq_none]

theorem descriptorFetch_of_not_active {s : State} (h : ledgerState s ≠ 1) : exec .descriptorFetch s = .next s := by
  simp [exec, execDescriptorFetch, descriptorFetchOp, grant_of_not_active h]

/-- Settles O56: while the ledger is not ACTIVE the arbiter grants nothing, and no command but its grant begins a fetch. -/
theorem noFetchUnlessLedgerActive : Obligations.NoFetchUnlessLedgerActive := by
  unfold Obligations.NoFetchUnlessLedgerActive
  intro s hs
  refine ⟨descriptorFetch_of_not_active hs, fun c t r h => ?_⟩
  by_cases hc : c = .descriptorFetch
  · subst hc
    rw [descriptorFetch_of_not_active hs] at h
    cases h
    exact ⟨id, id⟩
  · exact exec_beginsNone c s hc t h r

end Sys2Proof.Machine

/-! # R158: an overhead channel whose CHECK fails is ignored whole

An upstream frame does two things to its channel: its codewords are counted and their bytes join the received stream (`takeCodewords`), and then
its first 64 information bytes act as the overhead channel. The proof states the first once as one update of the channel, and what the second
makes of the channel as one equation for a failed CHECK and one for a valid overhead (its acknowledgement, its missing SEQs and its NACKs are the
only parts left open). What neither touches outside the channel is `OneChannel`. -/

namespace Sys2Proof.Machine

open Sys2Proof

/-! ### What an occurrence has sent before it stays sent (R365 to R372) -/

theorem sendMsix_sent (s : State) (fv : Nat × Nat) : s.sent <:+ (sendMsix s fv).sent := by
  unfold sendMsix
  dsimp only
  split
  · exact List.suffix_rfl
  · split
    · exact List.suffix_rfl
    · exact List.suffix_cons _ _

theorem foldl_sent {α : Type} (f : State → α → State) (h : ∀ s a, s.sent <:+ (f s a).sent) (l : List α) (s : State) :
    s.sent <:+ (l.foldl f s).sent := by
  induction l generalizing s with
  | nil => exact List.suffix_rfl
  | cons a l ih => exact (h s a).trans (ih (f s a))

theorem raiseFuel_sent (n : Nat) (s : State) (src scope : Nat) (info1 : Word) (inc : Nat) :
    s.sent <:+ (raiseFuel n s src scope info1 inc).sent := by
  induction n generalizing s src scope info1 inc with
  | zero => exact List.suffix_rfl
  | succ n ih =>
    have messages (e : Evt) (l : List (Nat × Nat)) : s.sent <:+ (sendAll { s with evt := e } l).sent :=
      foldl_sent sendMsix sendMsix_sent l { s with evt := e }
    unfold raiseFuel
    dsimp only
    refine List.IsSuffix.trans ?_ (foldl_sent _ (fun t w => ih t _ _ _ _) _ _)
    split
    · exact (messages _ _).trans (ih _ _ _ _ _)
    · exact messages _ _

theorem raise_sent (s : State) (src scope : Nat) (info1 : Word) : s.sent <:+ (raise s src scope info1).sent :=
  raiseFuel_sent raiseChain s src scope info1 1

theorem raiseC_sent (s : State) (src scope inc : Nat) : s.sent <:+ (raiseC s src scope inc).sent := by
  unfold raiseC
  split
  · exact List.suffix_rfl
  · exact raiseFuel_sent raiseChain s src scope _ inc

/-! ### Operations of one channel -/

/-- Outside channel c, t differs from s in no other channel, no ring and not in the journal; what s had sent stays sent. -/
structure OneChannel (s t : State) (c : Nat) : Prop where
  others : OnlyChan s t c
  rings : t.rings = s.rings
  journal : t.journal = s.journal
  sent : s.sent <:+ t.sent

theorem OneChannel.refl (s : State) (c : Nat) : OneChannel s s c := ⟨fun _ _ => rfl, rfl, rfl, List.suffix_rfl⟩

theorem OneChannel.trans {s t u : State} {c : Nat} (h : OneChannel s t c) (k : OneChannel t u c) : OneChannel s u c :=
  ⟨fun x hx => (k.others x hx).trans (h.others x hx), k.rings.trans h.rings, k.journal.trans h.journal, h.sent.trans k.sent⟩

theorem setChan_oneChannel (s : State) (c : Nat) (f : Chan → Chan) : OneChannel s (setChan s c f) c :=
  ⟨fun x hx => chanAt_setChan_ne s c x f hx, rfl, rfl, List.suffix_rfl⟩

theorem emitOut_oneChannel (s : State) (c : Nat) (o : Out) : OneChannel s (emitOut s o) c :=
  ⟨fun _ _ => rfl, rfl, rfl, List.suffix_cons _ _⟩

theorem raise_oneChannel (s : State) (c src scope : Nat) (info1 : Word) : OneChannel s (raise s src scope info1) c :=
  ⟨fun x _ => chanAt_raise s src scope info1 x, raise_rings s src scope info1, raise_journal s src scope info1, raise_sent s src scope info1⟩

theorem raiseC_oneChannel (s : State) (c src scope inc : Nat) : OneChannel s (raiseC s src scope inc) c :=
  ⟨fun x _ => chanAt_raiseC s src scope inc x, raiseC_rings s src scope inc, raiseC_journal s src scope inc, raiseC_sent s src scope inc⟩

theorem foldl_oneChannel {α : Type} {c : Nat} (f : State → α → State) (h : ∀ s a, OneChannel s (f s a) c) (l : List α) (s : State) :
    OneChannel s (l.foldl f s) c := by
  induction l generalizing s with
  | nil => exact OneChannel.refl s c
  | cons a l ih => exact (h s a).trans (ih (f s a))

theorem setChan_setChan (s : State) (c : Nat) (f g : Chan → Chan) : setChan (setChan s c f) c g = setChan s c (fun k => g (f k)) := by
  by_cases h : c < 24
  · simp [setChan, chanAt, vset, vget, h]
  · simp [setChan_past _ _ _ h]

/-! ### Retransmission requests (R163) -/

theorem serveNack_oneChannel (c fcnt : Nat) (s : State) (q : Half) : OneChannel s (serveNack c fcnt s q) c := by
  have missed : OneChannel s (raiseC (setFr s c (fun f => { f with rtxMiss := f.rtxMiss + 1 })) Src.rtxMiss c 1) c :=
    (setChan_oneChannel s c _).trans (raiseC_oneChannel _ c _ _ _)
  unfold serveNack
  dsimp only
  split
  · split
    · split
      · exact OneChannel.refl s c
      · exact setChan_oneChannel s c _
    · exact missed
  · exact missed

/-- A request is queued or counted in RTX_MISS, and does nothing else to its channel. -/
theorem chanAt_serveNack {c : Nat} (hc : c < 24) (fcnt : Nat) (s : State) (q : Half) : ∃ queue miss,
    chanAt (serveNack c fcnt s q) c = { chanAt s c with fr := { (chanAt s c).fr with rtxQueue := queue, rtxMiss := miss } } := by
  have missed : chanAt (raiseC (setFr s c (fun f => { f with rtxMiss := f.rtxMiss + 1 })) Src.rtxMiss c 1) c =
      { chanAt s c with fr := { (chanAt s c).fr with rtxQueue := (chanAt s c).fr.rtxQueue, rtxMiss := (chanAt s c).fr.rtxMiss + 1 } } := by
    rw [chanAt_raiseC, setFr, chanAt_setChan_self s c _ hc]
  unfold serveNack
  dsimp only
  split
  · split
    · split
      · exact ⟨_, _, rfl⟩
      · exact ⟨_, _, chanAt_setChan_self s c _ hc⟩
    · exact ⟨_, _, missed⟩
  · exact ⟨_, _, missed⟩

theorem chanAt_foldl_serveNack {c : Nat} (hc : c < 24) (fcnt : Nat) (l : List Half) (s : State) : ∃ queue miss,
    chanAt (l.foldl (serveNack c fcnt) s) c = { chanAt s c with fr := { (chanAt s c).fr with rtxQueue := queue, rtxMiss := miss } } := by
  induction l generalizing s with
  | nil => exact ⟨_, _, rfl⟩
  | cons q l ih =>
    obtain ⟨queue, miss, hq⟩ := chanAt_serveNack hc fcnt s q
    obtain ⟨queue', miss', hl⟩ := ih (serveNack c fcnt s q)
    exact ⟨queue', miss', by rw [List.foldl_cons, hl, hq]⟩

/-! ### The overhead channel (R157, R158, R162, R171) -/

/-- An acknowledgement confirms at most a waiting ECONOMY entry (R152). -/
theorem takeAck_eq (fcnt : Half) (k : Chan) : ∃ chg, takeAck fcnt k = { k with line := { k.line with econChg := chg } } := by
  unfold takeAck
  split
  · split
    · exact ⟨_, rfl⟩
    · exact ⟨_, rfl⟩
  · exact ⟨_, rfl⟩

/-- A later highest SEQ moves the highest SEQ and adds missing ones, and does nothing else (R162). -/
theorem findMissing_eq (q : Half) (f : Framer) : ∃ high missing, findMissing q f = { f with rxHigh := high, missing := missing } := by
  unfold findMissing
  dsimp only
  split
  · exact ⟨_, _, rfl⟩
  · exact ⟨_, _, rfl⟩

/-- What a valid overhead makes of its channel, but for the ECONOMY entry it acknowledges and the SEQs it shows missing. -/
theorem takeOverhead_eq (b : List Byte) (k : Chan) : ∃ chg high missing, takeOverhead b k = { k with
    line := { k.line with econChg := chg, lightPeer := (beAt b 2 1).testBit 4, marginDs := BitVec.ofNat 16 (beAt b 30 2) }
    fr := { k.fr with
      rxHigh := high
      missing := missing
      crcFails := 0
      crcGoods := k.fr.crcGoods + 1
      lof := k.fr.lof && decide (k.fr.crcGoods + 1 < 4)
      feRdi := (beAt b 2 1).testBit 3
      eocRx := (b.drop 36).take 16 }
    pm := { k.pm with cur := { k.pm.cur with
      feLost := k.pm.cur.feLost + beAt b 32 2, feRdi := k.pm.cur.feRdi || (beAt b 2 1).testBit 3 } } } := by
  obtain ⟨chg, hack⟩ : ∃ chg, (if (beAt b 2 1).testBit 5 then takeAck (BitVec.ofNat 16 (beAt b 0 2)) k else k) =
      { k with line := { k.line with econChg := chg } } := by
    split
    · exact takeAck_eq _ k
    · exact ⟨_, rfl⟩
  unfold takeOverhead
  dsimp only
  rw [hack]
  obtain ⟨high, missing, hm⟩ := findMissing_eq (BitVec.ofNat 16 (beAt b 28 2)) { k.fr with
    crcFails := 0, crcGoods := k.fr.crcGoods + 1, lof := k.fr.lof && decide (k.fr.crcGoods + 1 < 4),
    feRdi := (beAt b 2 1).testBit 3, eocRx := (b.drop 36).take 16 }
  exact ⟨chg, high, missing, by rw [hm]⟩

theorem badOverhead_oneChannel (s : State) (c : Nat) : OneChannel s (badOverhead s c) c := by
  have counted (f : Framer → Framer) (p : PmSec → PmSec) : OneChannel s (raiseC (setPm (setFr s c f) c p) Src.ohCrc c 1) c :=
    ((setChan_oneChannel s c _).trans (setChan_oneChannel _ c _)).trans (raiseC_oneChannel _ c _ _ _)
  unfold badOverhead
  dsimp only
  split
  · exact (counted _ _).trans (raise_oneChannel _ c _ _ _)
  · exact counted _ _

/-- A failed CHECK is counted, and the fourth in a row sets LOF: the channel is otherwise as it was (R158, R171). -/
theorem chanAt_badOverhead (s : State) {c : Nat} (hc : c < 24) : chanAt (badOverhead s c) c = { chanAt s c with
    fr := { (chanAt s c).fr with
      ohCrc := (chanAt s c).fr.ohCrc + 1
      crcFails := (chanAt s c).fr.crcFails + 1
      crcGoods := 0
      lof := (chanAt s c).fr.lof || decide (4 ≤ (chanAt s c).fr.crcFails + 1) }
    pm := { (chanAt s c).pm with cur := { (chanAt s c).pm.cur with ohCrc := (chanAt s c).pm.cur.ohCrc + 1 } } } := by
  have lof (a d : Bool) : (a || (!a && d)) = (a || d) := by cases a <;> rfl
  unfold badOverhead
  dsimp only
  split <;> simp only [chanAt_raise, chanAt_raiseC, setPm, setFr, chanAt_setChan_self _ c _ hc, lof]

theorem overheadOp_of_bad {s : State} {c : Nat} {b : List Byte} (h : checkOk b = false) : overheadOp s c b = badOverhead s c := by
  simp [overheadOp, h]

/-- A valid overhead before its requests are served: its channel takes it, its EOC goes to firmware and a rise of RDI is raised. -/
def followOverhead (s : State) (c : Nat) (b : List Byte) : State :=
  let u := emitOut (setChan s c (takeOverhead b)) (.toFirmware ((b.drop 36).take 16))
  if !(chanAt s c).fr.feRdi && (beAt b 2 1).testBit 3 then raise u Src.feRdi c 0 else u

theorem overheadOp_of_good {s : State} {c : Nat} {b : List Byte} (h : checkOk b = true) :
    overheadOp s c b = (nackSeqs b).foldl (serveNack c (beAt b 0 2)) (followOverhead s c b) := by
  simp [overheadOp, h, followOverhead]

theorem followOverhead_oneChannel (s : State) (c : Nat) (b : List Byte) : OneChannel s (followOverhead s c b) c := by
  have heard := (setChan_oneChannel s c (takeOverhead b)).trans (emitOut_oneChannel _ c (.toFirmware ((b.drop 36).take 16)))
  unfold followOverhead
  dsimp only
  split
  · exact heard.trans (raise_oneChannel _ c _ _ _)
  · exact heard

theorem chanAt_followOverhead (s : State) {c : Nat} (hc : c < 24) (b : List Byte) :
    chanAt (followOverhead s c b) c = takeOverhead b (chanAt s c) := by
  unfold followOverhead
  dsimp only
  split <;> simp only [chanAt_raise, chanAt_emitOut, chanAt_setChan_self s c _ hc]

theorem followOverhead_sent (s : State) (c : Nat) (b : List Byte) : Out.toFirmware ((b.drop 36).take 16) ∈ (followOverhead s c b).sent := by
  unfold followOverhead
  dsimp only
  split
  · exact (raise_sent _ _ _ _).subset List.mem_cons_self
  · exact List.mem_cons_self

theorem overheadOp_oneChannel (s : State) (c : Nat) (b : List Byte) : OneChannel s (overheadOp s c b) c := by
  cases h : checkOk b with
  | false => rw [overheadOp_of_bad h]; exact badOverhead_oneChannel s c
  | true =>
    rw [overheadOp_of_good h]
    exact (followOverhead_oneChannel s c b).trans (foldl_oneChannel _ (serveNack_oneChannel c (beAt b 0 2)) _ _)

theorem overheadOp_sent_eoc {s : State} {c : Nat} {b : List Byte} (h : checkOk b = true) :
    Out.toFirmware ((b.drop 36).take 16) ∈ (overheadOp s c b).sent := by
  rw [overheadOp_of_good h]
  exact (foldl_oneChannel _ (serveNack_oneChannel c (beAt b 0 2)) _ _).sent.subset (followOverhead_sent s c b)

/-- The channel after a valid overhead: as taken, but for its retransmission requests. -/
theorem chanAt_overheadOp_good (s : State) {c : Nat} (hc : c < 24) {b : List Byte} (h : checkOk b = true) : ∃ queue miss,
    chanAt (overheadOp s c b) c = { takeOverhead b (chanAt s c) with
      fr := { (takeOverhead b (chanAt s c)).fr with rtxQueue := queue, rtxMiss := miss } } := by
  rw [overheadOp_of_good h, ← chanAt_followOverhead s hc b]
  exact chanAt_foldl_serveNack hc _ _ _

/-- The parts of a channel that an overhead leaves as they were, whatever its CHECK. -/
theorem overheadOp_keeps (s : State) {c : Nat} (hc : c < 24) (b : List Byte) :
    (chanAt (overheadOp s c b) c).tab = (chanAt s c).tab ∧ (chanAt (overheadOp s c b) c).qs = (chanAt s c).qs ∧
    (chanAt (overheadOp s c b) c).fr.prevRx = (chanAt s c).fr.prevRx ∧
    (chanAt (overheadOp s c b) c).fr.rxStream = (chanAt s c).fr.rxStream ∧
    (chanAt (overheadOp s c b) c).pm.cur.cwFixed = (chanAt s c).pm.cur.cwFixed ∧
    (chanAt (overheadOp s c b) c).pm.cur.cwBad = (chanAt s c).pm.cur.cwBad := by
  cases h : checkOk b with
  | false => simp [overheadOp_of_bad h, chanAt_badOverhead s hc]
  | true =>
    obtain ⟨queue, miss, hk⟩ := chanAt_overheadOp_good s hc h
    obtain ⟨chg, high, missing, ht⟩ := takeOverhead_eq b (chanAt s c)
    simp [hk, ht]

/-- A valid overhead gives the peer's margin, LIGHT, RDI and lost DTUs. -/
theorem overheadOp_good_values (s : State) {c : Nat} (hc : c < 24) {b : List Byte} (h : checkOk b = true) :
    (chanAt (overheadOp s c b) c).line.marginDs = BitVec.ofNat 16 (beAt b 30 2) ∧
    (chanAt (overheadOp s c b) c).line.lightPeer = (beAt b 2 1).testBit 4 ∧
    (chanAt (overheadOp s c b) c).fr.feRdi = (beAt b 2 1).testBit 3 ∧
    (chanAt (overheadOp s c b) c).fr.ohCrc = (chanAt s c).fr.ohCrc ∧ (chanAt (overheadOp s c b) c).fr.crcFails = 0 ∧
    (chanAt (overheadOp s c b) c).pm.cur.feLost = (chanAt s c).pm.cur.feLost + beAt b 32 2 := by
  obtain ⟨queue, miss, hk⟩ := chanAt_overheadOp_good s hc h
  obtain ⟨chg, high, missing, ht⟩ := takeOverhead_eq b (chanAt s c)
  simp [hk, ht]

/-! ### The codewords of a frame (R154, R155) -/

/-- A channel that has counted a frame's codewords and taken their bytes, all but the overhead. -/
def takeCodewords (at_ bpt : Nat) (ws : List (List (Byte × Bool) × Bool)) (k : Chan) : Chan :=
  let b := rxBytes k at_ bpt (ws.flatMap (fun w => w.1))
  let o := tribOffset k.line.latTrib 4
  { k with
    fr := { k.fr with
      prevRx := none
      leftRx := leftAfter (bpt * slotsUs k.line) k.fr.leftRx
      rxStream := k.fr.rxStream ++ b.drop o
      rxTribs := some ((b.drop 64).take (o - 64)) }
    pm := { k.pm with cur := { k.pm.cur with
      cwFixed := k.pm.cur.cwFixed + ws.countP (fun w => w.2)
      cwBad := k.pm.cur.cwBad + ws.countP (fun w => w.1.any (fun x => x.2)) } } }

theorem rxBytes_take_bytes (k : Chan) (at_ bpt n : Nat) (info : List (Byte × Bool)) :
    ((rxBytes k at_ bpt info).take n).map (fun y => y.byte) = (info.map (fun x => x.1)).take n := by
  have bytes : (rxBytes k at_ bpt info).map (fun y => y.byte) = info.map (fun x => x.1) := calc
    _ = (info.zipIdx.map Prod.fst).map (fun x => x.1) := by simp only [rxBytes, List.map_map, Function.comp_def]
    _ = info.map (fun x => x.1) := by rw [List.zipIdx_map_fst]
  rw [List.map_take, bytes]

theorem receiveFrame_of_none {s : State} {c : Nat} (words : List (List Byte)) (h : (chanAt s c).fr.prevRx = none) : receiveFrame s c words = s := by
  simp [receiveFrame, h]

theorem receiveFrame_of_some {s : State} {c : Nat} (words : List (List Byte)) {at_ bpt : Nat} {ws : List (List (Byte × Bool) × Bool)}
    (h : (chanAt s c).fr.prevRx = some (at_, bpt))
    (hws : ws = (List.range (ownCodewords (bpt * slotsUs (chanAt s c).line) (chanAt s c).fr.leftRx)).map (wordAt words)) :
    receiveFrame s c words = overheadOp (setChan s c (takeCodewords at_ bpt ws)) c
      (((ws.flatMap (fun w => w.1)).map (fun x => x.1)).take 64) := by
  subst hws
  simp only [receiveFrame, h, rxBytes_take_bytes, setFr, setPm, setChan_setChan]
  rfl

theorem exec_overheadReceived {s : State} {c : Ch} (words : List (List Byte)) (h : serving s c.val = true) :
    exec (.overheadReceived c words) s = .next (receiveFrame s c.val words) := by
  simp [exec, execOverheadReceived, h]

theorem exec_overheadReceived_of_none {s : State} {c : Ch} (words : List (List Byte)) (h : (chanAt s c.val).fr.prevRx = none) :
    exec (.overheadReceived c words) s = .next s := by
  simp [exec, execOverheadReceived, receiveFrame_of_none words h]

/-! ### The statement -/

/-- Settles O18: a received frame is one update of its channel by the codewords, then its overhead, which a failed CHECK only counts. -/
theorem overheadCheckedWhole : Obligations.OverheadCheckedWhole := by
  unfold Obligations.OverheadCheckedWhole
  refine ⟨fun s c words hnone => exec_overheadReceived_of_none words hnone, fun s c words at_ bpt ws b hserving hprev hws hb => ?_⟩
  generalize hu : setChan s c.val (takeCodewords at_ bpt ws) = u
  have run : exec (.overheadReceived c words) s = .next (overheadOp u c.val b) := by
    rw [exec_overheadReceived words hserving, receiveFrame_of_some words hprev hws, hb, hu]
  have taken : chanAt u c.val = takeCodewords at_ bpt ws (chanAt s c.val) := by rw [← hu, chanAt_setChan_self s c.val _ c.isLt]
  have one : OneChannel s (overheadOp u c.val b) c.val := by
    have frame := setChan_oneChannel s c.val (takeCodewords at_ bpt ws)
    rw [hu] at frame
    exact frame.trans (overheadOp_oneChannel u c.val b)
  obtain ⟨tab, qs, prevRx, rxStream, cwFixed, cwBad⟩ := overheadOp_keeps u c.isLt b
  rw [taken] at tab qs prevRx rxStream cwFixed cwBad
  refine ⟨_, run, one.others, one.rings, one.journal, tab, qs, prevRx, rxStream, cwFixed, cwBad, fun bad => ?_, fun good => ?_⟩
  · rw [overheadOp_of_bad bad, chanAt_badOverhead u c.isLt, taken]
    rfl
  · obtain ⟨margin, light, rdi, ohCrc, crcFails, feLost⟩ := overheadOp_good_values u c.isLt good
    rw [taken] at ohCrc feLost
    exact ⟨margin, light, rdi, ohCrc, crcFails, overheadOp_sent_eoc good, feLost⟩

end Sys2Proof.Machine

/-! # R233: a read of DATUM_NS latches the other datum registers

The instant latched is one field, `latch`, of the network time; only the read of DATUM_NS writes it, and only a POWER-ON clears it. The proof says,
once for each operation of the model, that it leaves the network time as it is (the lemmas `_time`, by chapter), or, where it does change the time,
that it leaves the latch (`_latch`); then it follows a register access to its read; and last it goes through the commands. -/

namespace Sys2Proof.Machine

open Sys2Proof

/-! ### Branches, folds and the updates of the time -/

@[simp] theorem time_ite (p : Prop) [Decidable p] (a b : State) : (if p then a else b).time = if p then a.time else b.time := by split <;> rfl

@[simp] theorem Time.latch_ite (p : Prop) [Decidable p] (a b : Time) : (if p then a else b).latch = if p then a.latch else b.latch := by
  split <;> rfl

@[simp] theorem foldl_time {α : Type} (f : State → α → State) (h : ∀ s a, (f s a).time = s.time) (l : List α) (s : State) :
    (l.foldl f s).time = s.time := foldl_keeps (fun t => t.time) f h l s

@[simp] theorem foldl_latch {α : Type} (f : State → α → State) (h : ∀ s a, (f s a).time.latch = s.time.latch) (l : List α) (s : State) :
    (l.foldl f s).time.latch = s.time.latch := foldl_keeps (fun t => t.time.latch) f h l s

theorem iter_time (f : State → State) (h : ∀ s, (f s).time = s.time) (n : Nat) (s : State) : (iter f n s).time = s.time := by
  induction n generalizing s with
  | zero => rfl
  | succ n ih => rw [iter, ih, h]

@[simp] theorem Time.noAverage_latch (t : Time) : t.noAverage.latch = t.latch := rfl

@[simp] theorem Time.slewTo_latch (t : Time) (e : Int) : (t.slewTo e).latch = t.latch := rfl

@[simp] theorem Time.takeErr_latch (t : Time) (e : Int) (follows : Bool) : (t.takeErr e follows).latch = t.latch := by simp [Time.takeErr]

@[simp] theorem timeSecond_latch (deep : Bool) (t : Time) : (timeSecond deep t).latch = t.latch := rfl

/-! ### Records, seals and refused accesses (chapters 02, 03) -/

@[simp] theorem holdRecord_time (s : State) (q : Nat) (addr : Nat) (windowCause : Bool) :
    (holdRecord s q addr windowCause).time = s.time := by simp [holdRecord, stall]
@[simp] theorem markIssued_time (s : State) (x : RecSrc) : (markIssued s x).time = s.time := by unfold markIssued; split <;> simp
@[simp] theorem putRecord_time (s : State) (q : Nat) (x : Issued) : (putRecord s q x).time = s.time := by simp [putRecord]
@[simp] theorem rewriteLost_time (s : State) (q : Nat) : (rewriteLost s q).time = s.time := by unfold rewriteLost; split <;> simp
@[simp] theorem tryRecord_time (s : State) (r : Nat) : (tryRecord s r).time = s.time := by unfold tryRecord; dsimp only; (repeat' split) <;> simp
@[simp] theorem tryEvent_time (s : State) : (tryEvent s).time = s.time := by unfold tryEvent; split <;> simp
@[simp] theorem sealRing_time (n : Nat) (s : State) (r : Nat) : (sealRing n s r).time = s.time := by
  induction n generalizing s with
  | zero => rfl
  | succ n ih => unfold sealRing; (repeat' split) <;> simp [ih]
@[simp] theorem setPhase_time (s : State) (n : Fin 4) : (setPhase s n).time = s.time := by simp [setPhase]
@[simp] theorem entered_time (s : State) : (entered s).time = s.time := by simp [entered]
@[simp] theorem sealAdvance_time (s : State) : (sealAdvance s).time = s.time := by
  unfold sealAdvance; (repeat' split) <;> simp [sealThree, sealTwo, benchBoth]
@[simp] theorem sealLedger_time (s : State) : (sealLedger s).time = s.time := by simp [sealLedger, sealOne]
@[simp] theorem resumeService_time (s : State) (lossy : Bool) : (resumeService s lossy).time = s.time := by simp [resumeService]
@[simp] theorem abandonEntry_time (s : State) : (abandonEntry s).time = s.time := by simp [abandonEntry]
@[simp] theorem hostWrote_time (s : State) : (hostWrote s).time = s.time := by simp [hostWrote]
@[simp] theorem beginEntering_time (s : State) (toOff : Bool) : (beginEntering s toOff).time = s.time := by simp [beginEntering]
@[simp] theorem aerReport_time (s : State) (f bit : Nat) : (aerReport s f bit).time = s.time := by simp [aerReport]
@[simp] theorem refuseAccess_time (s : State) (who : Requester) (off : Nat) : (refuseAccess s who off).time = s.time := by simp [refuseAccess]

/-! ### Network time (chapter 10) -/

@[simp] theorem setTimeState_latch (s : State) (st : TimeSt) : (setTimeState s st).time.latch = s.time.latch := by simp [setTimeState]
@[simp] theorem applyOffset_latch (s : State) (e : Int) (first : Bool) : (applyOffset s e first).time.latch = s.time.latch := by
  simp [applyOffset, moveDatum]
@[simp] theorem applyLoad_latch (s : State) (k : BitVec 51) (ppsKind : Bool) : (applyLoad s k ppsKind).time.latch = s.time.latch := by
  simp [applyLoad]
@[simp] theorem loadLate_latch (s : State) : (loadLate s).time.latch = s.time.latch := by simp [loadLate]
@[simp] theorem compareErr_latch (s : State) (e : Int) (follows : Bool) : (compareErr s e follows).time.latch = s.time.latch := by simp [compareErr]
@[simp] theorem timePsbd_latch (s : State) (k : BitVec 51) (inSync : Bool) : (timePsbd s k inSync).time.latch = s.time.latch := by
  unfold timePsbd; dsimp only; (repeat' split) <;> simp
@[simp] theorem ptpIn_time (s : State) (e : RxtsEntry) (t : Nat) : (ptpIn s e t).time = s.time := by simp [ptpIn]
@[simp] theorem ptpDone_time (s : State) (h : PtpHalf) (t : Nat) : (ptpDone s h t).time = s.time := by simp [ptpDone]
@[simp] theorem ptpOut_time (s : State) (c id : Nat) (b : List Byte) (ts : Option (Nat × Bool)) :
    (ptpOut s c id b ts).time = s.time := by unfold ptpOut; (repeat' split) <;> simp
@[simp] theorem captureUplink_latch (s0 : State) (b : List Byte) (t : Nat) : (captureUplink s0 b t).time.latch = s0.time.latch := by
  unfold captureUplink; split <;> simp
@[simp] theorem captureChannel_time (s0 : State) (c : Nat) (b : List Byte) (t : Nat) : (captureChannel s0 c b t).time = s0.time := by
  unfold captureChannel; split <;> simp
@[simp] theorem todLoadOp_latch (s : State) (kind : Bool) : (todLoadOp s kind).time.latch = s.time.latch := by simp [todLoadOp]
@[simp] theorem phaseAverageOp_latch (s : State) : (phaseAverageOp s).time.latch = s.time.latch := by unfold phaseAverageOp; split <;> simp
@[simp] theorem invalidateOp_latch (s : State) : (invalidateOp s).time.latch = s.time.latch := by simp [invalidateOp]
@[simp] theorem ppsInOp_latch (s0 : State) : (ppsInOp s0).time.latch = s0.time.latch := by unfold ppsInOp; dsimp only; (repeat' split) <;> simp

/-! ### Key use and MACsec (chapter 11) -/

@[simp] theorem refreshKeyUse_time (s : State) (c : Nat) : (refreshKeyUse s c).time = s.time := by simp [refreshKeyUse]
@[simp] theorem refreshKeys_time (s : State) : (refreshKeys s).time = s.time := by simp [refreshKeys]
@[simp] theorem pnMovedFor_time (h : Half) (old new : Nat) (s : State) (c : Nat) : (pnMovedFor h old new s c).time = s.time := by
  unfold pnMovedFor; split <;> simp
@[simp] theorem movePn_time (s : State) (h : Half) (new : Nat) : (movePn s h new).time = s.time := by simp [movePn]
@[simp] theorem takePn_time (s : State) (c : Nat) (m : MacSect) : (takePn s c m).time = s.time := by simp [takePn]
@[simp] theorem macOut_time (s : State) (c : Nat) (b : List Byte) : (macOut s c b).1.time = s.time := by unfold macOut; (repeat' split) <;> simp
@[simp] theorem countMacRx_time (s : State) (c : Nat) (x : MacRx) : (countMacRx s c x).time = s.time := by simp [countMacRx]
theorem macsecIn_time {s t : State} {c : Nat} {m : MacSect} {b : List Byte} {x : Option (List Byte × Bool)} (e : macsecIn s c m b = (t, x)) :
    t.time = s.time := by unfold macsecIn at e; dsimp only at e; (repeat' split at e) <;> cases e <;> simp
theorem macIn_time {s t : State} {c : Nat} {b : List Byte} {x : Option (List Byte × Bool)} (e : macIn s c b = (t, x)) : t.time = s.time := by
  unfold macIn at e
  (repeat' split at e)
  · cases e; rfl
  · exact macsecIn_time e
  · cases e; rfl

/-! ### Packet storage and classification (chapter 08) -/

@[simp] theorem countBufDiscard_time (s : State) (c : Nat) : (countBufDiscard s c).time = s.time := by simp [countBufDiscard]
@[simp] theorem countLineDiscard_time (s : State) (c : Nat) : (countLineDiscard s c).time = s.time := by simp [countLineDiscard]
@[simp] theorem sendPause_time (s : State) (c : Nat) (m : MacSect) (ens : Nat) (q : Nat) : (sendPause s c m ens q).time = s.time := by
  simp [sendPause]
@[simp] theorem pauseCheck_time (s : State) (c : Nat) : (pauseCheck s c).time = s.time := by unfold pauseCheck; split <;> simp
@[simp] theorem takeId_time (s : State) : (takeId s).time = s.time := by simp [takeId]
@[simp] theorem enqueue_time (s : State) (c i : Nat) (f : Frame) : (enqueue s c i f).time = s.time := by simp [enqueue]
@[simp] theorem enqueueTcont_time (s0 : State) (q : Nat) (f : Frame) : (enqueueTcont s0 q f).time = s0.time := by simp [enqueueTcont]
@[simp] theorem countOversize_time (s : State) (c : Nat) : (countOversize s c).time = s.time := by simp [countOversize]
@[simp] theorem deliverDown_time (s : State) (idx port : Nat) (b : List Byte) (rx : Nat) :
    (deliverDown s idx port b rx).time = s.time := by unfold deliverDown; dsimp only; (repeat' split) <;> simp [toHostPart, toChannel, countNoFlow]
@[simp] theorem classifyUp_time (s : State) (c : Nat) (b : List Byte) (verified : Bool) (rx : Nat) :
    (classifyUp s c b verified rx).time = s.time := by unfold classifyUp; dsimp only; (repeat' split) <;> simp [storeUp]
@[simp] theorem macControl_time (s : State) (c : Nat) (b : List Byte) : (macControl s c b).time = s.time := by
  unfold macControl; split <;> simp [obeyPause]
@[simp] theorem macReceive_time (s : State) (c : Nat) (x : List Byte) (rx : Nat) : (macReceive s c x rx).time = s.time := by
  unfold macReceive; dsimp only; (repeat' split)
  case h_1 e => exact macIn_time e
  case h_2 e => simp [macIn_time e]
  all_goals simp
@[simp] theorem pauseRefreshOp_time (s : State) (c : Nat) : (pauseRefreshOp s c).time = s.time := by unfold pauseRefreshOp; split <;> simp
@[simp] theorem flowReadOp_time (s : State) (p : Nat) (idx : BitVec 12) : (flowReadOp s p idx).time = s.time := by simp [flowReadOp]
@[simp] theorem flowWriteOp_time (s : State) (p : Nat) (idx : BitVec 12) : (flowWriteOp s p idx).time = s.time := by simp [flowWriteOp]
@[simp] theorem flowClearOp_time (s : State) (p : Nat) (idx : BitVec 12) : (flowClearOp s p idx).time = s.time := by simp [flowClearOp]

/-! ### The feed (chapter 13) -/

@[simp] theorem supplyLog_time (s : State) (kind input detail : Nat) (value : Word) (start : Nat) (valid : Bool) :
    (supplyLog s kind input detail value start valid).time = s.time := by simp [supplyLog, logEntry]
@[simp] theorem supplyNow_time (s : State) (kind input detail : Nat) : (supplyNow s kind input detail).time = s.time := by simp [supplyNow]
@[simp] theorem budgetCheck_time (s : State) : (budgetCheck s).time = s.time := by simp [budgetCheck]
@[simp] theorem feedOff_time (s : State) : (feedOff s).time = s.time := by simp [feedOff]
@[simp] theorem feedPower_time (s : State) : (feedPower s).time = s.time := by simp [feedPower, feedOn]
@[simp] theorem feedTrip_time (s : State) (c cause : Nat) : (feedTrip s c cause).time = s.time := by simp [feedTrip]
@[simp] theorem feedUnlockOp_time (s : State) (c : Nat) : (feedUnlockOp s c).time = s.time := by simp [feedUnlockOp]
@[simp] theorem shedAll_time (s : State) (last detail : Nat) : (shedAll s last detail).time = s.time := by simp [shedAll]

/-! ### Rings (chapter 02) -/

@[simp] theorem doorbellFault_time (s : State) (r : Nat) : (doorbellFault s r).time = s.time := by simp [doorbellFault]
@[simp] theorem doorbellWrite_time (s : State) (who : Requester) (off : Nat) (v : Word) : (doorbellWrite s who off v).time = s.time := by
  unfold doorbellWrite; split <;> simp [doorbellAt]
@[simp] theorem haltRing_time (s : State) (r : Nat) : (haltRing s r).time = s.time := by simp [haltRing]
@[simp] theorem moveCursor_time (s : State) (r : Nat) : (moveCursor s r).time = s.time := rfl
@[simp] theorem refetchFailed_time (s : State) (r : Nat) (seq : Word) (st : Status) : (refetchFailed s r seq st).time = s.time := by
  simp [refetchFailed]
@[simp] theorem descriptorFetchOp_time (s : State) : (descriptorFetchOp s).time = s.time := by
  unfold descriptorFetchOp; (repeat' split) <;> simp [fetchAgain, fetchNew]
@[simp] theorem acceptOne_time (s : State) (r : Nat) (d : Desc) : (acceptOne s r d).time = s.time := by simp [acceptOne]
@[simp] theorem refetchDone_time (s : State) (r : Nat) (seq : Word) (res : XferResult) (data : List Byte) :
    (refetchDone s r seq res data).time = s.time := by unfold refetchDone; split <;> simp
@[simp] theorem fetchDone_time (s : State) (r : Nat) (first : Word) (n : Nat) (res : XferResult) (data : List Byte) :
    (fetchDone s r first n res data).time = s.time := by simp [fetchDone]
@[simp] theorem fetchCompleteOp_time (s : State) (r : Nat) (res : XferResult) (data : List Byte) :
    (fetchCompleteOp s r res data).time = s.time := by unfold fetchCompleteOp; split <;> simp
@[simp] theorem haltedClear_time (s : State) (r : Nat) : (haltedClear s r).time = s.time := by simp [haltedClear]
@[simp] theorem ringCfgOp_time (s : State) (r : RingNo) (v : Word) : (ringCfgOp s r v).time = s.time := by simp [ringCfgOp]
@[simp] theorem forgetBlocks_time (s : State) (n : Nat) : (forgetBlocks s n).time = s.time := by unfold forgetBlocks; split <;> simp
@[simp] theorem createRingOp_time (s : State) (r : RingNo) (seq : Word) : (createRingOp s r seq).time = s.time := by
  unfold createRingOp; (repeat' split) <;> simp
@[simp] theorem dropQueued_time (s : State) (p : Frame → Bool) : (dropQueued s p).time = s.time := by simp [dropQueued]
@[simp] theorem dropRadio_time (s : State) (n : Nat) : (dropRadio s n).time = s.time := by unfold dropRadio; split <;> simp
@[simp] theorem destroyRingOp_time (s : State) (r : RingNo) (seq : Word) : (destroyRingOp s r seq).time = s.time := by
  unfold destroyRingOp; (repeat' split) <;> simp [dropBlocks, returnOpen, dropSent]
@[simp] theorem recordWriteOp_time (s : State) (r : Nat) : (recordWriteOp s r).time = s.time := by unfold recordWriteOp; (repeat' split) <;> simp
@[simp] theorem recordAckOp_time (s : State) (q : Nat) : (recordAckOp s q).time = s.time := by
  unfold recordAckOp; dsimp only; (repeat' split) <;> simp [ackWork]
@[simp] theorem modTimeOp_time (s : State) (m : ModSrc) : (modTimeOp s m).time = s.time := by unfold modTimeOp; split <;> simp
@[simp] theorem setSizes_time (s : State) (dc : DevCtl) : (setSizes s dc).time = s.time := by simp [setSizes]
@[simp] theorem makeWaiting_time (s : State) (x : LXfer) : (makeWaiting s x).time = s.time := by unfold makeWaiting; split <;> simp
@[simp] theorem flushWaiting_time (s : State) : (flushWaiting s).time = s.time := by simp [flushWaiting]
@[simp] theorem setVfs_time (s : State) (enable : Bool) (numVfs : Half) : (setVfs s enable numVfs).time = s.time := by simp [setVfs]

/-! ### Channel-table reads (chapter 04) -/

@[simp] theorem mapTab_time (s : State) (c : Nat) (f : ChTab → ChTab) : (mapTab s c f).time = s.time := by simp [mapTab]
@[simp] theorem returnRefreshes_time (s : State) (c : Nat) (st : Status) : (returnRefreshes s c st).time = s.time := by simp [returnRefreshes]
@[simp] theorem readFailed_time (s : State) (c : Nat) (st : Status) : (readFailed s c st).time = s.time := by simp [readFailed]
@[simp] theorem issuePhase_time (s : State) (c off len : Nat) (p : ReadPhase) : (issuePhase s c off len p).time = s.time := by
  simp [issuePhase, readWindowFault]
@[simp] theorem beginRead_time (s : State) (c : Nat) : (beginRead s c).time = s.time := by simp [beginRead]
@[simp] theorem requestRefresh_time (s : State) (c : Nat) : (requestRefresh s c).time = s.time := by simp [requestRefresh]
@[simp] theorem requestAll_time (s : State) (l : List Nat) : (requestAll s l).time = s.time := by simp [requestAll]

/-! ### The ledger and recoveries (chapter 03) -/

@[simp] theorem ledgerFresh_time (s : State) : (ledgerFresh s).time = s.time := by simp [ledgerFresh]
@[simp] theorem ledgerCloseOp_time (s : State) : (ledgerCloseOp s).time = s.time := by simp [ledgerCloseOp]
@[simp] theorem adoptRing_time (img : LedgerImage) (s : State) (r : RingNo) : (adoptRing img s r).time = s.time := by
  unfold adoptRing; (repeat' split) <;> simp
@[simp] theorem adoptAdd_time (s : State) (r : RingNo) (n : Word) (d : Desc) (st : Stage) (ret : Option Outcome) :
    (adoptAdd s r n d st ret).time = s.time := by simp [adoptAdd]
@[simp] theorem adoptLost_time (invalid : Bool) (r : RingNo) (s : State) (n : Word) : (adoptLost invalid r s n).time = s.time := by simp [adoptLost]
@[simp] theorem adoptTrib_time (img : LedgerImage) (invalid : Bool) (r : RingNo) (s : State) (n : Word) :
    (adoptTrib img invalid r s n).time = s.time := by unfold adoptTrib; split <;> simp
@[simp] theorem adoptNow_time (s : State) (img : LedgerImage) : (adoptNow s img).time = s.time := by
  unfold adoptNow; split <;> simp [adoptSpilled, adoptRingWork, adoptWork]
@[simp] theorem adoptRead_time (s : State) (res : XferResult) (img : LedgerImage) : (adoptRead s res img).time = s.time := by simp [adoptRead]
@[simp] theorem retryOne_time (res : XferResult) (img : LedgerImage) (s : State) (x : LXfer) : (retryOne res img s x).time = s.time := by
  unfold retryOne; split <;> simp
@[simp] theorem countRxLost_time (s : State) (r n : Nat) : (countRxLost s r n).time = s.time := by unfold countRxLost; (repeat' split) <;> simp
@[simp] theorem settleOne_time (s : State) (v : Recovery) : (settleOne s v).time = s.time := by simp [settleOne, endReset, settleRing]
@[simp] theorem settleFirst_time (s : State) (done rest : List Recovery) : (settleFirst s done rest).time = s.time := by
  induction rest generalizing done with
  | nil => rfl
  | cons v rest ih => unfold settleFirst; split <;> simp [ih]
@[simp] theorem recoveryDoneOp_time (s : State) : (recoveryDoneOp s).time = s.time := by unfold recoveryDoneOp; split <;> simp [activate]

/-! ### Channel states (chapter 04) -/

@[simp] theorem setChSt_time (s : State) (c : Nat) (st : ChSt) : (setChSt s c st).time = s.time := by simp [setChSt]
@[simp] theorem wakeRaised_time (old s : State) : (wakeRaised old s).time = s.time := by simp [wakeRaised]
@[simp] theorem setIsland_time (s : State) (c : Nat) (on : Bool) : (setIsland s c on).time = s.time := by simp [setIsland, islandDomains]
@[simp] theorem dropCur_time (s : State) (c : Nat) : (dropCur s c).time = s.time := by
  unfold dropCur; split
  next => rfl
  next f _ => cases f.src <;> simp
@[simp] theorem dropChan_time (s : State) (c : Nat) (p : Frame → Bool) : (dropChan s c p).time = s.time := by simp [dropChan]
@[simp] theorem stopLine_time (s : State) (c : Nat) : (stopLine s c).time = s.time := by simp [stopLine]
@[simp] theorem breakBlock_time (s : State) (c i : Nat) : (breakBlock s c i).time = s.time := by unfold breakBlock; split <;> simp
@[simp] theorem leaveService_time (s : State) (c : Nat) : (leaveService s c).time = s.time := by simp [leaveService, returnNoPath]
@[simp] theorem enterOff_time (s : State) (c : Nat) : (enterOff s c).time = s.time := by simp [enterOff]
@[simp] theorem goReady_time (s : State) (c : Nat) : (goReady s c).time = s.time := by simp [goReady]
@[simp] theorem enterHalted_time (s : State) (c : Nat) (cause : Nat) : (enterHalted s c cause).time = s.time := by simp [enterHalted]
@[simp] theorem applyTarget_time (s : State) (c : Nat) : (applyTarget s c).time = s.time := by unfold applyTarget; (repeat' split) <;> simp [goOff]
@[simp] theorem failTraining_time (s : State) (c cause : Nat) : (failTraining s c cause).time = s.time := by simp [failTraining]
@[simp] theorem sweepNoCore_time (s : State) (c : Nat) : (sweepNoCore s c).time = s.time := by simp [sweepNoCore]
@[simp] theorem goTrain_time (s : State) (c : Nat) : (goTrain s c).time = s.time := by simp [goTrain]
@[simp] theorem lossOfLineOp_time (s : State) (c : Nat) : (lossOfLineOp s c).time = s.time := by simp [lossOfLineOp]
@[simp] theorem stopWork_time (s : State) (c : Nat) : (stopWork s c).time = s.time := by simp [stopWork]
@[simp] theorem channelReset_time (s : State) (c : Nat) (cmds : List (RingNo × Word)) : (channelReset s c cmds).time = s.time := by
  unfold channelReset; split <;> simp [resetChannel, clearChanEvents]
@[simp] theorem chResetOp_time (s : State) (r : RingNo) (seq : Word) : (chResetOp s r seq).time = s.time := by
  unfold chResetOp; (repeat' split) <;> simp
@[simp] theorem chHoldOp_time (s : State) (c : Nat) (v : Word) : (chHoldOp s c v).time = s.time := by simp [chHoldOp]

/-! ### The channel table (chapter 04) -/

@[simp] theorem applyEntry_time (s : State) (c : Nat) (g : Word) (b : List Byte) : (applyEntry s c g b).time = s.time := by
  simp [applyEntry, applyMac, raisePn, pnReached, applyFeed]
@[simp] theorem phaseOk_time (s : State) (c : Nat) (data : List Byte) : (phaseOk s c data).time = s.time := by
  unfold phaseOk; split <;> simp [nextPhase, discardRead, wholeRead, serveOne]
@[simp] theorem chtabRefreshOp_time (s : State) (mask : Word) : (chtabRefreshOp s mask).time = s.time := by simp [chtabRefreshOp]
@[simp] theorem chRefreshOp_time (s : State) (r : RingNo) (seq : Word) : (chRefreshOp s r seq).time = s.time := by
  unfold chRefreshOp; (repeat' split) <;> simp
@[simp] theorem chtabEnableOp_time (s : State) (on : Bool) : (chtabEnableOp s on).time = s.time := by simp [chtabEnableOp, tableOff, applyTargets]

/-! ### Frames of the host (chapters 03, 08) -/

@[simp] theorem txFrameOp_time (s : State) (r : Nat) (seq : Word) : (txFrameOp s r seq).time = s.time := by unfold txFrameOp; (repeat' split) <;> simp
@[simp] theorem returnLost_time (s : State) (r : RingNo) (seq : Word) (st : Status) : (returnLost s r seq st).time = s.time := by simp [returnLost]
@[simp] theorem txReadOp_time (s : State) (r : RingNo) (seq : Word) : (txReadOp s r seq).time = s.time := by unfold txReadOp; (repeat' split) <;> simp
@[simp] theorem storeTx_time (s : State) (r : RingNo) (w : Work) (b : List Byte) : (storeTx s r w b).time = s.time := by
  unfold storeTx; split <;> simp
@[simp] theorem txReadDoneOp_time (s : State) (r : RingNo) (seq : Word) (res : XferResult) (data : List Byte) :
    (txReadDoneOp s r seq res data).time = s.time := by unfold txReadDoneOp; split <;> simp
@[simp] theorem rxBufferOp_time (s : State) (r : Nat) (seq : Word) : (rxBufferOp s r seq).time = s.time := by unfold rxBufferOp; split <;> simp
@[simp] theorem dropWaiting_time (s : State) (r : Nat) : (dropWaiting s r).time = s.time := by unfold dropWaiting; (repeat' split) <;> simp
@[simp] theorem afterLeave_time (s : State) (f : Frame) : (afterLeave s f).time = s.time := by unfold afterLeave; split <;> simp
@[simp] theorem rxDeliverOp_time (s : State) (r : Nat) : (rxDeliverOp s r).time = s.time := by unfold rxDeliverOp; split <;> simp
@[simp] theorem lifetimeOp_time (s : State) (r : RingNo) (seq : Word) : (lifetimeOp s r seq).time = s.time := by unfold lifetimeOp; split <;> simp
@[simp] theorem refetchWork_time (s : State) (x : RingNo × Word) : (refetchWork s x).time = s.time := by unfold refetchWork; split <;> simp

/-! ### The cipher unit (chapter 11) -/

@[simp] theorem secReturn_time (s : State) (q : SecSrc) (st : Status) : (secReturn s q st).time = s.time := by unfold secReturn; split <;> simp
@[simp] theorem secDone_time (s : State) (q : SecSrc) (st : Status) (r0 r1 : Word) : (secDone s q st r0 r1).time = s.time := by
  unfold secDone; split <;> simp
@[simp] theorem secDo_time (s : State) (q : SecSrc) (c : Option Status) (act : State) :
    (secDo s q c act).time = if c.isSome then s.time else act.time := by
  cases c <;> simp [secDo]
@[simp] theorem secWrite_time (s : State) (q : SecSrc) (addr : Nat) (b : List Byte) : (secWrite s q addr b).time = s.time := by
  unfold secWrite; (repeat' split) <;> simp
@[simp] theorem secFault_time (s : State) (q : SecSrc) (addr : Nat) : (secFault s q addr).time = s.time := by unfold secFault; split <;> simp
@[simp] theorem secWindow_time (s : State) (q : SecSrc) (write : Bool) (addr len : Nat) (go : State) :
    (secWindow s q write addr len go).time = if secOpen s q write addr len then go.time else s.time := by simp [secWindow]
@[simp] theorem secReadFailed_time (s : State) (q : SecSrc) (res : XferResult) (addr : Nat) :
    (secReadFailed s q res addr).time = s.time := by unfold secReadFailed; split <;> simp
@[simp] theorem secRead_time (s : State) (q : SecSrc) (addr len : Nat) : (secRead s q addr len).time = s.time := by unfold secRead; split <;> simp
@[simp] theorem secStart_time (s : State) (q : SecSrc) (d : Desc) (blk : Option OpBlock) (addr len : Nat) :
    (secStart s q d blk addr len).time = s.time := by unfold secStart; split <;> simp
@[simp] theorem withBlock_time (s : State) (q : SecSrc) (d : Desc) (res : XferResult) (raw : List Byte) (pre : Option Status) (tagOut : Bool)
    (act : State → OpBlock → State) (h : ∀ t b, (act t b).time = t.time) :
    (withBlock s q d res raw pre tagOut act).time = s.time := by unfold withBlock; dsimp only; split <;> simp [secWindow, h]
@[simp] theorem cipherStart_time (s : State) (q : SecSrc) (d : Desc) (res : XferResult) (raw : List Byte) (kinds : List Nat)
    (out tagOut gcm : Bool) : (cipherStart s q d res raw kinds out tagOut gcm).time = s.time :=
  withBlock_time _ _ _ _ _ _ _ _ (fun t b => by simp)
@[simp] theorem gcmEncryptRun_time (s : State) (q : SecSrc) (d : Desc) (res : XferResult) (raw : List Byte) :
    (gcmEncryptRun s q d res raw).time = s.time := by simp [gcmEncryptRun]
@[simp] theorem gcmDecryptRun_time (s : State) (q : SecSrc) (d : Desc) (res : XferResult) (raw : List Byte) :
    (gcmDecryptRun s q d res raw).time = s.time := by simp [gcmDecryptRun]
@[simp] theorem cmacRun_time (s : State) (q : SecSrc) (d : Desc) (res : XferResult) (raw : List Byte) :
    (cmacRun s q d res raw).time = s.time := by simp [cmacRun]
@[simp] theorem ccmStarRun_time (s : State) (q : SecSrc) (d : Desc) (res : XferResult) (raw : List Byte) :
    (ccmStarRun s q d res raw).time = s.time := by simp [ccmStarRun]
@[simp] theorem createKey_time (s : State) (q : SecSrc) (kind : Nat) (exportable : Bool) (key : List Byte) (salt : Option (List Byte)) :
    (createKey s q kind exportable key salt).time = s.time := by unfold createKey; split <;> simp [makeKey]
@[simp] theorem countDraw_time (s : State) : (countDraw s).time = s.time := by simp [countDraw]
@[simp] theorem keyGenRun_time (s : State) (q : SecSrc) (d : Desc) : (keyGenRun s q d).time = s.time := by simp [keyGenRun]
@[simp] theorem keyLoadRun_time (s : State) (q : SecSrc) (d : Desc) (res : XferResult) (raw : List Byte) : (keyLoadRun s q d res raw).time = s.time :=
  withBlock_time _ _ _ _ _ _ _ _ (fun t b => by simp)
@[simp] theorem keyImportRun_time (s : State) (q : SecSrc) (d : Desc) (res : XferResult) (raw : List Byte) :
    (keyImportRun s q d res raw).time = s.time :=
  withBlock_time _ _ _ _ _ _ _ _ (fun t b => by simp)
@[simp] theorem keyExportRun_time (s : State) (q : SecSrc) (d : Desc) (res : XferResult) (raw : List Byte) :
    (keyExportRun s q d res raw).time = s.time :=
  withBlock_time _ _ _ _ _ _ _ _ (fun t b => by simp)
@[simp] theorem keyDeriveRun_time (s : State) (q : SecSrc) (d : Desc) : (keyDeriveRun s q d).time = s.time := by simp [keyDeriveRun]
@[simp] theorem keyClearRun_time (s : State) (q : SecSrc) (d : Desc) : (keyClearRun s q d).time = s.time := by simp [keyClearRun]
@[simp] theorem keyInfoRun_time (s : State) (q : SecSrc) (d : Desc) : (keyInfoRun s q d).time = s.time := by simp [keyInfoRun]
@[simp] theorem secRun_time (s : State) (q : SecSrc) (d : Desc) (res : XferResult) (raw : List Byte) :
    (secRun s q d res raw).time = s.time := by unfold secRun; split <;> simp [cvRestoreRun, cvSaveRun, cvUpdateRun, randomRun]
@[simp] theorem portTurn_time (n : Nat) (s : State) : (portTurn n s).time = s.time := by
  induction n generalizing s with
  | zero => rfl
  | succ n ih => unfold portTurn; (repeat' split) <;> simp [ih]
@[simp] theorem secCommand_time (s : State) (q : SecSrc) (op : Nat) (res : XferResult) (raw : List Byte) :
    (secCommand s q op res raw).time = s.time := by unfold secCommand; (repeat' split) <;> simp
@[simp] theorem verified_time (s : State) (q : SecSrc) (dst : Nat) (out : List Byte) (ok : Bool) :
    (verified s q dst out ok).time = s.time := by simp [verified]
@[simp] theorem blockDone_time (s : State) (q : SecSrc) (d : Desc) (b : OpBlock) (data : List Byte) :
    (blockDone s q d b data).time = s.time := by unfold blockDone; (repeat' split) <;> simp [sealedOut]
@[simp] theorem secCompleteOp_time (s : State) (q : SecSrc) (res : XferResult) (data : List Byte) :
    (secCompleteOp s q res data).time = s.time := by unfold secCompleteOp; (repeat' split) <;> simp [cvDone]
@[simp] theorem rerunOp_time (s : State) (o : SecOp) : (rerunOp s o).time = s.time := by unfold rerunOp; split <;> simp
@[simp] theorem coreFailOp_time (s : State) (core : Nat) (chans : List Nat) (ops : List SecSrc) :
    (coreFailOp s core chans ops).time = s.time := by simp [coreFailOp, sweepOps]
@[simp] theorem trngFailOp_time (s : State) : (trngFailOp s).time = s.time := by simp [trngFailOp]
@[simp] theorem clearKeys_time (s : State) : (clearKeys s).time = s.time := by simp [clearKeys]

/-! ### The radio (chapter 12) -/

@[simp] theorem radCount_time (s : State) (i : Nat) : (radCount s i).time = s.time := by simp [radCount]
@[simp] theorem chargeAll_time (s : State) (ch : BitVec 11) (n : Nat) : (chargeAll s ch n).time = s.time := by simp [chargeAll]
@[simp] theorem raiseRefused_time (s : State) (b : Option Nat) : (raiseRefused s b).time = s.time := by unfold raiseRefused; split <;> simp
@[simp] theorem radEnd_time (s : State) (t : RadTx) (acked noAck stop : Bool) : (radEnd s t acked noAck stop).time = s.time := by simp [radEnd]
@[simp] theorem radFail_time (s : State) (t : RadTx) (ret : Outcome) (noAck stop : Bool) :
    (radFail s t ret noAck stop).time = s.time := by simp [radFail]
@[simp] theorem tryAttempt_time (s : State) (t : RadTx) (w : Work) : (tryAttempt s t w).time = s.time := by
  unfold tryAttempt; dsimp only; (repeat' split) <;> simp [sendAttempt]
@[simp] theorem retryAttempt_time (s : State) : (retryAttempt s).time = s.time := by unfold retryAttempt; split <;> simp
@[simp] theorem releaseHeld_time (s : State) : (releaseHeld s).time = s.time := by unfold releaseHeld; split <;> simp
@[simp] theorem beginBackoff_time (s : State) (t : RadTx) (nb be : Nat) : (beginBackoff s t nb be).time = s.time := by simp [beginBackoff]
@[simp] theorem beginListen_time (s : State) (t : RadTx) (n : Nat) : (beginListen s t n).time = s.time := by simp [beginListen]
@[simp] theorem beginAccess_time (s : State) (t : RadTx) (w : Work) : (beginAccess s t w).time = s.time := by simp [beginAccess]
@[simp] theorem accessFails_time (s : State) (t : RadTx) : (accessFails s t).time = s.time := by simp [accessFails]
@[simp] theorem radFrameOp_time (s : State) (seq : Word) (res : XferResult) (frame : List Byte) :
    (radFrameOp s seq res frame).time = s.time := by unfold radFrameOp; (repeat' split) <;> simp
@[simp] theorem csmaOp_time (s : State) (busy : Bool) : (csmaOp s busy).time = s.time := by unfold csmaOp; (repeat' split) <;> simp
@[simp] theorem lbtOp_time (s : State) (free : Bool) : (lbtOp s free).time = s.time := by unfold lbtOp; (repeat' split) <;> simp
@[simp] theorem radioTxEndOp_time (s : State) : (radioTxEndOp s).time = s.time := by unfold radioTxEndOp; dsimp only; (repeat' split) <;> simp
@[simp] theorem radioAckOp_time (s : State) (psdu : List Byte) (four : Bool) : (radioAckOp s psdu four).time = s.time := by
  unfold radioAckOp; split <;> simp
@[simp] theorem radioAckTimeoutOp_time (s : State) : (radioAckTimeoutOp s).time = s.time := by unfold radioAckTimeoutOp; split <;> simp
@[simp] theorem setFcMin_time (s : State) (i : Nat) (q : Word) : (setFcMin s i q).time = s.time := by simp [setFcMin]
theorem radVerify_time {s t : State} {h : MacHdr} {b : List Byte} {x : Option (List Byte × Nat)} (e : radVerify s h b = (t, x)) :
    t.time = s.time := by unfold radVerify at e; dsimp only at e; (repeat' split at e) <;> cases e <;> simp
@[simp] theorem radStore_time (s : State) (f : RadRx) (b : List Byte) (secured : Bool) (idx : Nat) :
    (radStore s f b secured idx).time = s.time := by simp [radStore]
@[simp] theorem radioRxOp_time (s : State) (f : RadRx) : (radioRxOp s f).time = s.time := by
  unfold radioRxOp
  split; · rfl
  split; · simp
  split; · simp
  split; · simp
  split
  next e => exact radVerify_time e
  next e => simp [radVerify_time e]
@[simp] theorem radioAckTxOp_time (s : State) : (radioAckTxOp s).time = s.time := by unfold radioAckTxOp; split <;> simp
@[simp] theorem radioDeliverOp_time (s : State) : (radioDeliverOp s).time = s.time := by unfold radioDeliverOp; split <;> simp [popStored]
@[simp] theorem devCmd_time (s : State) (who : Requester) (idx : BitVec 5) (f : Rad → Rad) : (devCmd s who idx f).time = s.time := by
  unfold devCmd; split <;> simp
@[simp] theorem radOn_time (s : State) : (radOn s).time = s.time := by simp [radOn, govFill]
@[simp] theorem radCut_time (s : State) : (radCut s).time = s.time := by unfold radCut; split <;> simp
@[simp] theorem radOff_time (s : State) : (radOff s).time = s.time := by simp [radOff]
@[simp] theorem radFollow_time (s : State) : (radFollow s).time = s.time := by simp [radFollow]

/-! ### Boot (chapter 15) -/

@[simp] theorem boot_time (s : State) : (boot s).time = s.time := by simp [boot]
@[simp] theorem fwRestart_time (s : State) : (fwRestart s).time = s.time := by simp [fwRestart]
@[simp] theorem deriveCapsule_time (s : State) : (deriveCapsule s).time = s.time := by unfold deriveCapsule; (repeat' split) <;> simp
@[simp] theorem writeRecord_time (s : State) (f : IdRec → IdRec) : (writeRecord s f).time = s.time := by simp [writeRecord]

/-! ### Scheduling (chapter 09) -/

@[simp] theorem frameEmitted_time (s : State) (c : Nat) (f : Frame) : (frameEmitted s c f).time = s.time := by
  unfold frameEmitted; cases f.src <;> dsimp only <;> (repeat' split) <;> simp
@[simp] theorem countOverrun_time (s : State) (c : Nat) : (countOverrun s c).time = s.time := by simp [countOverrun]
@[simp] theorem placeBytes_time (n : Nat) (s : State) (c : Nat) : (placeBytes n s c).time = s.time := by
  induction n generalizing s with
  | zero => rfl
  | succ n ih => unfold placeBytes; dsimp only; (repeat' split) <;> simp [ih]
@[simp] theorem placeAll_time (s : State) (c : Nat) : (placeAll s c).time = s.time := by simp [placeAll]
@[simp] theorem takeCore_time (s : State) (c : Nat) : (takeCore s c).time = s.time := by simp [takeCore]
@[simp] theorem selectDown_time (s : State) (c prio : Nat) : (selectDown s c prio).time = s.time := by
  unfold selectDown; dsimp only; (repeat' split) <;> simp
@[simp] theorem releaseUp_time (s : State) (c : Nat) (f : Frame) : (releaseUp s c f).time = s.time := by unfold releaseUp; split <;> simp
@[simp] theorem selectUp_time (s : State) (c prio : Nat) : (selectUp s c prio).time = s.time := by
  unfold selectUp; dsimp only; (repeat' split) <;> simp
@[simp] theorem gclSwapOp_time (s : State) (c : Nat) : (gclSwapOp s c).time = s.time := by simp [gclSwapOp]
@[simp] theorem clearHist_time (s : State) (c : Nat) : (clearHist s c).time = s.time := by simp [clearHist]

/-! ### The uplink (chapter 05) -/

@[simp] theorem driveTx_time (s : State) : (driveTx s).time = s.time := by simp [driveTx]
@[simp] theorem followSrc_latch (s : State) : (followSrc s).time.latch = s.time.latch := by simp [followSrc]
@[simp] theorem setGate_latch (s : State) (g : GateSt) : (setGate s g).time.latch = s.time.latch := by simp [setGate]
@[simp] theorem emitBurstWork_time (cut : Bool) (s : State) (x : BurstWork) : (emitBurstWork cut s x).time = s.time := by
  unfold emitBurstWork; split <;> simp
@[simp] theorem mapTcont_time (s : State) (p : Frame → Frame) : (mapTcont s p).time = s.time := by simp [mapTcont]
@[simp] theorem dropTcont_time (s : State) (p : Frame → Bool) : (dropTcont s p).time = s.time := by simp [dropTcont]
@[simp] theorem pauseAll_time (s : State) : (pauseAll s).time = s.time := by simp [pauseAll]
@[simp] theorem loseSeg_time (st : Status) (s : State) (g : BurstSeg) : (loseSeg st s g).time = s.time := by unfold loseSeg; split <;> simp
@[simp] theorem stopWindow_time (s : State) (reached : Nat) (st : Status) : (stopWindow s reached st).time = s.time := by
  unfold stopWindow; split <;> simp
@[simp] theorem restoreBurst_time (s : State) (b : Burst) : (restoreBurst s b).time = s.time := by unfold restoreBurst; split <;> simp [unplan]
@[simp] theorem countRefused_time (s : State) : (countRefused s).time = s.time := by simp [countRefused]
@[simp] theorem refuseAll_time (s : State) : (refuseAll s).time = s.time := by unfold refuseAll; dsimp only; split <;> simp [-List.foldl_reverse]
@[simp] theorem declareLods_latch (s : State) : (declareLods s).time.latch = s.time.latch := by simp [declareLods]
@[simp] theorem takeEqd_time (s : State) : (takeEqd s).time = s.time := by unfold takeEqd; split <;> simp
@[simp] theorem countXgem_time (s : State) : (countXgem s).time = s.time := by simp [countXgem]
@[simp] theorem psyncMissOp_latch (s : State) : (psyncMissOp s).time.latch = s.time.latch := by unfold psyncMissOp; (repeat' split) <;> simp
@[simp] theorem micFail_time (s : State) : (micFail s).time = s.time := by simp [micFail]
@[simp] theorem allocOp_time (s : State) (id : BitVec 14) (add : Bool) : (allocOp s id add).time = s.time := by
  unfold allocOp; (repeat' split) <;> simp
@[simp] theorem unassign_latch (s : State) : (unassign s).time.latch = s.time.latch := by simp [unassign]
@[simp] theorem stopGate_latch (s : State) : (stopGate s).time.latch = s.time.latch := by simp [stopGate]
@[simp] theorem disableOp_latch (s : State) (o : SnOrder) (hi lo : Word) : (disableOp s o hi lo).time.latch = s.time.latch := by
  unfold disableOp; (repeat' split) <;> simp
@[simp] theorem onuStateOp_time (s : State) (v : BitVec 4) : (onuStateOp s v).time = s.time := by simp [onuStateOp, returnUplink]
@[simp] theorem xgemTake_latch (s : State) (e : PortEntry) (x : List Byte) (last : Bool) (t : Nat) :
    (xgemTake s e x last t).time.latch = s.time.latch := by unfold xgemTake; dsimp only; (repeat' split) <;> simp [xgemFrame]
@[simp] theorem xgemOp_latch (s : State) (hdr : DWord) (pos hdrBit : Nat) (b : List Byte) :
    (xgemOp s hdr pos hdrBit b).time.latch = s.time.latch := by unfold xgemOp; dsimp only; (repeat' split) <;> simp
@[simp] theorem userWrite_time (s : State) (w : Option (Byte × List Byte)) : (userWrite s w).time = s.time := by unfold userWrite; split <;> simp
@[simp] theorem rogueClearOp_time (s : State) (sd : Bool) : (rogueClearOp s sd).time = s.time := by simp [rogueClearOp]
@[simp] theorem queuePloams_time (s : State) (l : List (List Byte)) : (queuePloams s l).time = s.time := by simp [queuePloams]
@[simp] theorem fixOp_time (s : State) (tds : Nat) (allocs : List Alloc) : (fixOp s tds allocs).time = s.time := by
  unfold fixOp; dsimp only; (repeat' split) <;> simp
@[simp] theorem contentFixOp_time (s : State) (tds : Nat) (allocs : List DWord) (ploams : List (List Byte)) :
    (contentFixOp s tds allocs ploams).time = s.time := by simp [contentFixOp, iter_time]
theorem openSegs_time (b : Burst) (l : List BurstSeg) (x : State × List (Nat × List Byte) × List BurstSeg) :
    (l.foldl (openSeg b) x).1.time = x.1.time := by
  induction l generalizing x with
  | nil => rfl
  | cons g l ih =>
    rw [List.foldl_cons, ih]
    unfold openSeg; (repeat' split) <;> simp
@[simp] theorem sendPloam_time (s : State) (b : Burst) : (sendPloam s b).time = s.time := by unfold sendPloam; split <;> simp
@[simp] theorem openBurst_time (s : State) (b : Burst) : (openBurst s b).time = s.time := by simp [openBurst, openSegs_time]
@[simp] theorem maskBurst_time (s : State) (b : Burst) : (maskBurst s b).time = s.time := by unfold maskBurst; dsimp only; (repeat' split) <;> simp
@[simp] theorem windowOpenOp_time (s : State) : (windowOpenOp s).time = s.time := by unfold windowOpenOp; split <;> simp
@[simp] theorem burstPtp_time (s : State) (g : BurstSeg) : (burstPtp s g).time = s.time := by unfold burstPtp; (repeat' split) <;> simp
@[simp] theorem burstWindowCloseOp_time (s : State) : (windowCloseOp_ s).time = s.time := by unfold windowCloseOp_; split <;> simp [leaveQueues]
@[simp] theorem rxOff_latch (s : State) : (rxOff s).time.latch = s.time.latch := by simp [rxOff]
@[simp] theorem rxOnAgain_time (s : State) : (rxOnAgain s).time = s.time := by simp [rxOnAgain]
@[simp] theorem enterMode_latch (s : State) (m : PonMode) : (enterMode s m).time.latch = s.time.latch := by unfold enterMode; split <;> simp
@[simp] theorem ponTimerOp_latch (s : State) (t : PonTimer) : (ponTimerOp s t).time.latch = s.time.latch := by
  unfold ponTimerOp; (repeat' split) <;> simp
@[simp] theorem dyingGasp_time (s : State) (onBattery : Bool) : (dyingGasp s onBattery).time = s.time := by simp [dyingGasp]
@[simp] theorem dyingGaspEnd_time (s : State) : (dyingGaspEnd s).time = s.time := by simp [dyingGaspEnd]
@[simp] theorem cutUplink_time (s : State) : (cutUplink s).time = s.time := by unfold cutUplink; split <;> simp
@[simp] theorem uplSettled_latch (s : State) : (uplSettled s).time.latch = s.time.latch := by simp [uplSettled]

/-! ### What a reset and the link leave (chapters 00, 02) -/

@[simp] theorem loseLink_time (s : State) : (loseLink s).time = s.time := by simp [loseLink]
@[simp] theorem resetConfig_time (s : State) : (resetConfig s).time = s.time := by simp [resetConfig]
@[simp] theorem endCapsule_time (s : State) : (endCapsule s).time = s.time := by unfold endCapsule; split <;> simp
@[simp] theorem wakeSource_time (s : State) (code : Nat) : (wakeSource s code).time = s.time := by unfold wakeSource; dsimp only; split <;> simp
@[simp] theorem tryResume_time (s : State) : (tryResume s).time = s.time := by simp [tryResume]
@[simp] theorem returnReset_time (s : State) (r : RingNo) : (returnReset s r).time = s.time := by simp [returnReset]

/-! ### Power states and domains (chapter 14) -/

@[simp] theorem keysOff_time (s : State) : (keysOff s).time = s.time := by simp [keysOff]
@[simp] theorem hifOff_time (s : State) : (hifOff s).time = s.time := by
  simp [hifOff]
@[simp] theorem switchOff_latch (s : State) (d : Domain) : (switchOff s d).time.latch = s.time.latch := by
  unfold switchOff; (repeat' split) <;> simp [coreOff, uplOff, halfOff, islandOff]
@[simp] theorem lastStep_latch (s : State) : (lastStep s).time.latch = s.time.latch := by unfold lastStep; dsimp only; (repeat' split) <;> simp
@[simp] theorem downAction_latch (s : State) (k : Nat) : (downAction s k).time.latch = s.time.latch := by unfold downAction; split <;> simp
@[simp] theorem downFrom_latch (n : Nat) (s : State) (k : Nat) : (downFrom n s k).time.latch = s.time.latch := by
  induction n generalizing s k with
  | zero => rfl
  | succ n ih => unfold downFrom; (repeat' split) <;> simp [ih]
@[simp] theorem startPowerDown_latch (s : State) (toOff : Bool) : (startPowerDown s toOff).time.latch = s.time.latch := by simp [startPowerDown]
@[simp] theorem powerDownNext_latch (s : State) : (powerDownNext s).time.latch = s.time.latch := by simp [powerDownNext]
@[simp] theorem upAction_latch (s : State) (k : Nat) : (upAction s k).time.latch = s.time.latch := by
  unfold upAction; split <;> simp [endWake, coreStart]
@[simp] theorem releaseDomains_latch (s : State) : (releaseDomains s).time.latch = s.time.latch := by unfold releaseDomains; split <;> simp
@[simp] theorem refuseEntry_time (s : State) (why : Nat) : (refuseEntry s why).time = s.time := by simp [refuseEntry]
@[simp] theorem stopFetch_time (s : State) : (stopFetch s).time = s.time := by simp [stopFetch]
@[simp] theorem pwrEnterOp_time (s : State) (seq : Word) : (pwrEnterOp s seq).time = s.time := by
  unfold pwrEnterOp; dsimp only; (repeat' split) <;> simp
@[simp] theorem pwrGoOp_time (s : State) (toOff : Bool) : (pwrGoOp s toOff).time = s.time := by unfold pwrGoOp; dsimp only; (repeat' split) <;> simp
@[simp] theorem pmeTurnOffOp_latch (s : State) : (pmeTurnOffOp s).time.latch = s.time.latch := by simp [pmeTurnOffOp]
@[simp] theorem wakeIf_time (s : State) (bit code : Nat) : (wakeIf s bit code).time = s.time := by simp [wakeIf]
@[simp] theorem lingerOp_time (s : State) (d : Domain) : (lingerOp s d).time = s.time := by unfold lingerOp; (repeat' split) <;> simp

/-! ### The supply watch (chapter 13) -/

@[simp] theorem closes_time (s : State) (i : Nat) (c : Comp) (x : Crossing) : (closes s i c x).time = s.time := by
  unfold closes; split <;> simp [closeDist]
@[simp] theorem tryUnshed_time (s : State) : (tryUnshed s).time = s.time := by simp [tryUnshed, unshed]
@[simp] theorem endSealShed_time (s : State) : (endSealShed s).time = s.time := by simp [endSealShed]
@[simp] theorem feedCross_time (s0 : State) (x : Crossing) : (feedCross s0 x).time = s0.time := by
  unfold feedCross; (repeat' split) <;> simp [resumeInrush, pauseInrush]
@[simp] theorem sealStarts_time (s : State) : (sealStarts s).time = s.time := by simp [sealStarts]
@[simp] theorem startSeal_time (s : State) (bat : Bool) : (startSeal s bat).time = s.time := by simp [startSeal]
@[simp] theorem crossEffect_time (s : State) (i : SupIn) (x : Crossing) (trip close : Bool) :
    (crossEffect s i x trip close).time = s.time := by unfold crossEffect; (repeat' split) <;> simp [mainRestore, mainTrip]
@[simp] theorem sealDoneOp_time (s : State) : (sealDoneOp s).time = s.time := by simp [sealDoneOp]
@[simp] theorem endEntry_time (s : State) : (endEntry s).time = s.time := by simp [endEntry]
@[simp] theorem bmcOffOp_time (s : State) (c : Nat) (on : Bool) : (bmcOffOp s c on).time = s.time := by simp [bmcOffOp]

/-! ### Firmware and identity (chapter 15) -/

@[simp] theorem restartWdg_time (s : State) (cp : Nat) : (restartWdg s cp).time = s.time := by simp [restartWdg]
@[simp] theorem ptpDropOp_time (s : State) : (ptpDropOp s).time = s.time := by unfold ptpDropOp; split <;> simp
@[simp] theorem confirmSlot_time (s : State) (k : Nat) : (confirmSlot s k).time = s.time := by simp [confirmSlot]
@[simp] theorem rejectTrial_time (s : State) (k : Nat) : (rejectTrial s k).time = s.time := by simp [rejectTrial]
@[simp] theorem rollBack_time (s : State) (k : Nat) : (rollBack s k).time = s.time := by simp [rollBack]
@[simp] theorem confirmTimeoutOp_time (s : State) : (confirmTimeoutOp s).time = s.time := by unfold confirmTimeoutOp; split <;> simp
theorem readBuffer_time {s t : State} {w : Work} {res : XferResult} (e : readBuffer s w res = .inl t ∨ readBuffer s w res = .inr t) :
    t.time = s.time := by
  unfold readBuffer at e; dsimp only at e
  (repeat' split at e) <;> obtain ⟨⟨⟩⟩ | ⟨⟨⟩⟩ := e <;> simp
@[simp] theorem programSlot_time (s : State) (i off : Nat) (data : List Byte) : (programSlot s i off data).time = s.time := by simp [programSlot]
@[simp] theorem fwStageOp_time (s : State) (seq : Word) (res : XferResult) (data : List Byte) (sigOk : Bool) :
    (fwStageOp s seq res data sigOk).time = s.time := by
  unfold fwStageOp; dsimp only
  split; · rfl
  split; · simp
  split; · simp
  split; · simp
  split
  next e => exact readBuffer_time (.inl e)
  next e => split <;> simp [readBuffer_time (.inr e)]
@[simp] theorem restartAfter_time (s : State) (seq : Word) : (restartAfter s seq).time = s.time := by simp [restartAfter]
@[simp] theorem fwActivateOp_time (s : State) (seq : Word) : (fwActivateOp s seq).time = s.time := by unfold fwActivateOp; split <;> simp
@[simp] theorem fwConfirmOp_time (s : State) (seq : Word) : (fwConfirmOp s seq).time = s.time := by unfold fwConfirmOp; (repeat' split) <;> simp
@[simp] theorem fwFallbackOp_time (s : State) (seq : Word) : (fwFallbackOp s seq).time = s.time := by unfold fwFallbackOp; (repeat' split) <;> simp
@[simp] theorem slotFallbackOp_time (s : State) : (slotFallbackOp s).time = s.time := by unfold slotFallbackOp; dsimp only; (repeat' split) <;> simp
@[simp] theorem slotConfirmOp_time (s : State) : (slotConfirmOp s).time = s.time := by unfold slotConfirmOp; dsimp only; (repeat' split) <;> simp
@[simp] theorem revertOp_time (s : State) : (revertOp s).time = s.time := by simp [revertOp]
@[simp] theorem readSettings_time (s : State) (h : ImageHdr) (parseOk : Bool) : (readSettings s h parseOk).time = s.time := by
  unfold readSettings; dsimp only; (repeat' split) <;> simp [restrict]
@[simp] theorem giveRegId_time (s : State) : (giveRegId s).time = s.time := by unfold giveRegId; split <;> simp
@[simp] theorem handoverOp_time (s : State) (positions : List (List Byte)) (parseOk : Bool) :
    (handoverOp s positions parseOk).time = s.time := by unfold handoverOp; dsimp only; (repeat' split) <;> simp
@[simp] theorem capsuleApply_time (s : State) (c : Capsule) (positions : List (List Byte)) :
    (capsuleApply s c positions).time = s.time := by simp [capsuleApply, capsuleGen]
@[simp] theorem capsuleOp_time (s : State) (seq : Word) (res : XferResult) (data : List Byte) (keys : SigKeys) (positions : List (List Byte)) :
    (capsuleOp s seq res data keys positions).time = s.time := by
  unfold capsuleOp
  split
  next => rfl
  split
  next => simp
  split
  next e => exact readBuffer_time (.inl e)
  next e =>
    split
    next => rfl
    next =>
      rw [← readBuffer_time (.inr e)]
      dsimp only
      split <;> simp
@[simp] theorem fixProfile_time (s : State) (p : BitVec 2) : (fixProfile s p).time = s.time := by simp [fixProfile]
@[simp] theorem identityOp_time (s : State) (a b : List Byte) : (identityOp s a b).time = s.time := by
  unfold identityOp; dsimp only; (repeat' split) <;> simp

/-! ### Event counters (chapter 16) -/

@[simp] theorem evtSoftOp_time (s : State) (v : Word) : (evtSoftOp s v).time = s.time := by simp [evtSoftOp]
@[simp] theorem setCounter_time (s : State) (k : CntSel) (x : Counter) : (setCounter s k x).time = s.time := by unfold setCounter; split <;> simp
@[simp] theorem counterCfgOp_time (s : State) (who : Requester) (k : CntSel) (v : Word) : (counterCfgOp s who k v).time = s.time := by
  simp [counterCfgOp]

/-! ### Line signal (chapter 06) -/

@[simp] theorem toPhase_time (s : State) (c p : Nat) : (toPhase s c p).time = s.time := by simp [toPhase]
@[simp] theorem phaseEnd_time (s : State) (c : Nat) (r : PhaseResult) : (phaseEnd s c r).time = s.time := by
  unfold phaseEnd; dsimp only; (repeat' split) <;> simp [goService, takeEstimate, beginHandshake]
@[simp] theorem countSat_time (s : State) (c multiply other : Nat) : (countSat s c multiply other).time = s.time := by simp [countSat]
@[simp] theorem sendSymbol_time (s : State) (c k : Nat) (tones : List (Nat × Nat × Nat)) : (sendSymbol s c k tones).time = s.time := by
  simp [sendSymbol]
@[simp] theorem sendSync_time (s : State) (c : Nat) : (sendSync s c).time = s.time := by simp [sendSync]
@[simp] theorem sendTraining_time (s : State) (c : Nat) : (sendTraining s c).time = s.time := by simp [sendTraining]
@[simp] theorem takeSamples_time (s : State) (c : Nat) (adc : List (List (BitVec 14))) : (takeSamples s c adc).time = s.time := by simp [takeSamples]

/-! ### Line framing (chapter 07) -/

@[simp] theorem sendSlots_time (c n : Nat) (s : State) : (sendSlots c n s).time = s.time := by
  induction n generalizing s with
  | zero => rfl
  | succ n ih => simp [sendSlots, ih]
@[simp] theorem pump_time (s : State) (c : Nat) : (pump s c).time = s.time := by simp [pump]
@[simp] theorem putDtu_time (s : State) (c : Nat) (b : List Byte) : (putDtu s c b).time = s.time := by simp [putDtu]
@[simp] theorem dtuCloseOp_time (s0 : State) (c : Nat) : (dtuCloseOp s0 c).time = s0.time := by
  unfold dtuCloseOp; dsimp only; (repeat' split) <;> simp [closeData, endEmissions, ptpClose]
@[simp] theorem closeDue_time (c n : Nat) (s : State) : (closeDue c n s).time = s.time := by
  induction n generalizing s with
  | zero => rfl
  | succ n ih => simp [closeDue, ih]
@[simp] theorem takeSeg_time (c : Nat) (slots : List Nat) (s : State) (g : Seg) : (takeSeg c slots s g).time = s.time := by
  unfold takeSeg; dsimp only; (repeat' split) <;> simp [brokenPiece]
@[simp] theorem releaseAll_time (s : State) (c : Nat) : (releaseAll s c).time = s.time := by simp [releaseAll, releaseDtu]
@[simp] theorem serveNack_time (c fcnt : Nat) (s : State) (q : Half) : (serveNack c fcnt s q).time = s.time := by
  unfold serveNack; dsimp only; (repeat' split) <;> simp
@[simp] theorem receiveFrame_time (s : State) (c : Nat) (words : List (List Byte)) : (receiveFrame s c words).time = s.time := by
  unfold receiveFrame; dsimp only; (repeat' split) <;> simp [overheadOp, badOverhead]
theorem assembleRing_time {c i n fuel : Nat} {s t : State} {x : Option (List Byte)} (e : assembleRing c i n fuel s = (t, x)) : t.time = s.time := by
  induction fuel generalizing s with
  | zero => cases e; rfl
  | succ fuel ih =>
    unfold assembleRing at e; dsimp only at e
    split at e
    · cases e; rfl
    split at e
    · rw [ih e, setFr_time]
    · cases e; rfl
    · cases e
      (repeat' split) <;> simp
@[simp] theorem countSlip_time (s : State) (c i : Nat) (tx : Bool) : (countSlip s c i tx).time = s.time := by simp [countSlip]
@[simp] theorem tribAssemble_time (s : State) (c i : Nat) (pcmIn : List (List Bool)) : (tribAssemble s c i pcmIn).time = s.time := by
  unfold tribAssemble; dsimp only; (repeat' split)
  case h_1 e => simp [assembleRing_time e]
  case h_2 e => simp [assembleRing_time e]
  all_goals simp
@[simp] theorem fillBlock_time (s : State) (c i : Nat) (x : Word × List Byte) (data : List Byte) :
    (fillBlock s c i x data).time = s.time := by unfold fillBlock; dsimp only; (repeat' split) <;> simp
@[simp] theorem tribDeliver_time (s : State) (c i : Nat) : (tribDeliver s c i).time = s.time := by
  unfold tribDeliver; dsimp only; (repeat' split) <;> simp
@[simp] theorem tribFrame_time (c : Nat) (pcmIn : List (List Bool)) (s : State) (i : Nat) : (tribFrame c pcmIn s i).time = s.time := by
  simp [tribFrame]
@[simp] theorem tribIdleFrame_time (c : Nat) (s : State) (i : Nat) : (tribIdleFrame c s i).time = s.time := by simp [tribIdleFrame]
@[simp] theorem tribBlockOp_time (s : State) (r : RingNo) (seq : Word) (res : XferResult) (data : List Byte) :
    (tribBlockOp s r seq res data).time = s.time := by unfold tribBlockOp; dsimp only; (repeat' split) <;> simp
@[simp] theorem econEntry_time (s : State) (c : Nat) : (econEntry s c).time = s.time := by unfold econEntry; split <;> simp [goEconomy]
@[simp] theorem econLeave_time (s : State) (c : Nat) : (econLeave s c).time = s.time := by unfold econLeave; split <;> simp [leaveEconomy]
@[simp] theorem econSwitch_time (s : State) (c : Nat) : (econSwitch s c).time = s.time := by simp [econSwitch]
@[simp] theorem pmFrame_time (s : State) (c : Nat) : (pmFrame s c).time = s.time := by simp [pmFrame]
@[simp] theorem beginFrame_time (s : State) (c : Nat) (rx : FrameRx) : (beginFrame s c rx).time = s.time := by simp [beginFrame]
@[simp] theorem endFrame_time (s : State) (c : Nat) (rx : FrameRx) : (endFrame s c rx).time = s.time := by simp [endFrame, closeRest]

/-! ### The management port (chapter 16) -/

@[simp] theorem portErr_time (s : State) (e : PortErr) : (portErr s e).time = s.time := by simp [portErr]
@[simp] theorem headerCommit_time (s : State) (uses : Option Nat) : (headerCommit s uses).time = s.time := by unfold headerCommit; split <;> simp
@[simp] theorem readHeader_time (s : State) (a : Nat) : (readHeader s a).time = s.time := by simp [readHeader, header]
@[simp] theorem writeHeader_time (s : State) (a : Nat) : (writeHeader s a).time = s.time := by simp [writeHeader, header]
@[simp] theorem armHeader_time (s : State) (a : Nat) : (armHeader s a).time = s.time := by simp [armHeader, header]
@[simp] theorem unknownHeader_time (s : State) (hdr : Word) : (unknownHeader s hdr).time = s.time := by simp [unknownHeader, header]
@[simp] theorem portValue_latch (s : State) (off : Nat) : (portValue s off).2.time.latch = s.time.latch := by
  unfold portValue; dsimp only; (repeat' split) <;> rfl
@[simp] theorem portRead_latch (s : State) (a : Nat) : (portRead s a).time.latch = s.time.latch := by
  unfold portRead; dsimp only; (repeat' split) <;> simp
@[simp] theorem armedWrite_time (s : State) (r : ArmedReg) (v : Word) : (armedWrite s r v).time = s.time := by unfold armedWrite; split <;> simp
@[simp] theorem armedFirst_time (s : State) (a : Nat) (v : Word) : (armedFirst s a v).time = s.time := by unfold armedFirst; split <;> simp
@[simp] theorem dataWordOp_latch (s : State) (v : Word) : (dataWordOp s v).time.latch = s.time.latch := by
  unfold dataWordOp; (repeat' split) <;> simp [portWrite]

/-! ### Resets (R17, R20) -/

@[simp] theorem revertIdentity_time (s : State) : (revertIdentity s).time = s.time := by unfold revertIdentity; dsimp only; (repeat' split) <;> simp
@[simp] theorem clearDevice_latch (s : State) (code : Nat) : (clearDevice s code).time.latch = s.time.latch := by simp [clearDevice]
@[simp] theorem resetDevice_latch (s : State) (c : ResetCause) : (resetDevice s c).time.latch = s.time.latch := by simp [resetDevice, cutAll]
@[simp] theorem deviceReset_latch (s : State) (c : ResetCause) : (deviceReset s c).time.latch = s.time.latch := by unfold deviceReset; split <;> simp
@[simp] theorem resetCause_latch (s : State) (c : ResetCause) : (resetCause s c).time.latch = s.time.latch := by unfold resetCause; split <;> simp
@[simp] theorem busReset_latch (s : State) (c : ResetCause) : (busReset s c).time.latch = s.time.latch := by
  unfold busReset; dsimp only; split <;> simp
@[simp] theorem hostResetOp_latch (s : State) (key : Word) : (hostResetOp s key).time.latch = s.time.latch := by
  unfold hostResetOp; (repeat' split) <;> simp
@[simp] theorem testEnOp_latch (s : State) (level : Bool) : (testEnOp s level).time.latch = s.time.latch := by
  unfold testEnOp; dsimp only; split <;> simp [holdDomains]
@[simp] theorem afterSeal_latch (s : State) (held : Option ResetCause) : (afterSeal s held).time.latch = s.time.latch := by
  unfold afterSeal; (repeat' split) <;> simp
@[simp] theorem sealCompleteOp_latch (s : State) : (sealCompleteOp s).time.latch = s.time.latch := by
  unfold sealCompleteOp; dsimp only; (repeat' split) <;> simp
@[simp] theorem watchdogOp_latch (s : State) (cp : Nat) : (watchdogOp s cp).time.latch = s.time.latch := by
  unfold watchdogOp; (repeat' split) <;> simp [fatalWatchdog]

/-! ### Register writes (chapter 17) -/

theorem pfWrite_eq_ite (s : State) (who : Requester) (off : Nat) (acts : Bool) (f : State → State) :
    pfWrite s who off acts f = if who = .pf then f s else if isFw who && acts then fwDenied s off else s := by
  cases who <;> simp [pfWrite, isFw]
@[simp] theorem stage_time (s : State) (off : Nat) (v : Word) : (stage s off v).time = s.time := by simp [stage]
@[simp] theorem lockAllOp_time (s : State) : (lockAllOp s).time = s.time := rfl
@[simp] theorem nextOp_time (s : State) (v : Word) : (nextOp s v).time = s.time := by simp [nextOp]
@[simp] theorem writeGlb_latch (s : State) (who : Requester) (off : Nat) (v : Word) : (writeGlb s who off v).time.latch = s.time.latch := by
  unfold writeGlb; split <;> simp [pfWrite_eq_ite]
@[simp] theorem floorOp_time (s : State) (v : Word) : (floorOp s v).time = s.time := by simp [floorOp]
@[simp] theorem writePwr_time (s : State) (who : Requester) (off : Nat) (v : Word) : (writePwr s who off v).time = s.time := by
  unfold writePwr; dsimp only; split <;> simp [pfWrite_eq_ite]
@[simp] theorem ringStatWrite_time (s : State) (r : Nat) (v : Word) : (ringStatWrite s r v).time = s.time := by simp [ringStatWrite]
@[simp] theorem ringRegWrite_time (s : State) (off r o : Nat) (v : Word) : (ringRegWrite s off r o v).time = s.time := by
  unfold ringRegWrite; dsimp only; split <;> simp [takeHigh]
@[simp] theorem msixWrite_time (s : State) (f o : Nat) (v : Word) : (msixWrite s f o v).time = s.time := by
  unfold msixWrite; dsimp only; (repeat' split) <;> simp
@[simp] theorem chtabBaseHigh_time (s : State) (off : Nat) (v : Word) : (chtabBaseHigh s off v).time = s.time := by simp [chtabBaseHigh, takeHigh]
@[simp] theorem windowWrite_time (s : State) (off f w o : Nat) (v : Word) : (windowWrite s off f w o v).time = s.time := by
  unfold windowWrite; dsimp only; split <;> simp [lockWrite, takeHigh]
@[simp] theorem writeHif_time (s : State) (who : Requester) (off : Nat) (v : Word) : (writeHif s who off v).time = s.time := by
  simp [writeHif, pfWrite_eq_ite, lockWrite]
@[simp] theorem ledgCtlOp_time (s : State) (v : Word) : (ledgCtlOp s v).time = s.time := by simp [ledgCtlOp]
@[simp] theorem writeLedg_time (s : State) (off : Nat) (v : Word) : (writeLedg s off v).time = s.time := by
  unfold writeLedg; dsimp only; split <;> simp [takeHigh]
@[simp] theorem datumCtlOp_latch (s : State) (v : Word) : (datumCtlOp s v).time.latch = s.time.latch := by simp [datumCtlOp]
@[simp] theorem tddOp_latch (s : State) (v : Word) : (tddOp s v).time.latch = s.time.latch := by simp [tddOp]
@[simp] theorem writeTime_latch (s : State) (who : Requester) (off : Nat) (v : Word) : (writeTime s who off v).time.latch = s.time.latch := by
  unfold writeTime; dsimp only; split <;> simp [pfWrite_eq_ite]
@[simp] theorem gateFwOp_latch (s : State) (v : Word) : (gateFwOp s v).time.latch = s.time.latch := by simp [gateFwOp]
@[simp] theorem portCmdOp_time (s : State) (who : Requester) (v : Word) : (portCmdOp s who v).time = s.time := by unfold portCmdOp; split <;> simp
@[simp] theorem writeUpl_latch (s : State) (who : Requester) (off : Nat) (v : Word) : (writeUpl s who off v).time.latch = s.time.latch := by
  unfold writeUpl; dsimp only; split <;> simp [uplLocked, pfWrite_eq_ite, lockWrite, fwWrite, takeHigh]
@[simp] theorem ftCmdOp_time (s : State) (p : Nat) (v : Word) : (ftCmdOp s p v).time = s.time := by unfold ftCmdOp; split <;> simp
@[simp] theorem writeXc_time (s : State) (who : Requester) (off : Nat) (v : Word) : (writeXc s who off v).time = s.time := by simp [writeXc]
@[simp] theorem writeSec_time (s : State) (who : Requester) (off : Nat) (v : Word) : (writeSec s who off v).time = s.time := by
  unfold writeSec; split <;> simp [pfWrite_eq_ite, lockWrite]
@[simp] theorem radCtlOp_time (s : State) (v : Word) : (radCtlOp s v).time = s.time := by simp [radCtlOp]
@[simp] theorem radAccessOp_time (s : State) (v : Word) : (radAccessOp s v).time = s.time := by
  unfold radAccessOp
  exact setRad_time s _
@[simp] theorem govWrite_time (s : State) (b o : Nat) (v : Word) : (govWrite s b o v).time = s.time := by simp [govWrite]
@[simp] theorem devCmdOp_time (s : State) (v : Word) : (devCmdOp s v).time = s.time := by simp [devCmdOp]
@[simp] theorem writeRad_time (s : State) (who : Requester) (off : Nat) (v : Word) : (writeRad s who off v).time = s.time := by
  simp [writeRad, radLocked, pfWrite_eq_ite, lockWrite, fwWrite, takeHigh]
@[simp] theorem auxOp_time (s : State) (v : Word) : (auxOp s v).time = s.time := by simp [auxOp]
@[simp] theorem writeSup_time (s : State) (who : Requester) (off : Nat) (v : Word) : (writeSup s who off v).time = s.time := by
  unfold writeSup; split <;> simp [supLocked, pfWrite_eq_ite, lockWrite]
@[simp] theorem routeOp_time (s : State) (i : Nat) (v : Word) : (routeOp s i v).time = s.time := by simp [routeOp]
@[simp] theorem writeEvt_time (s : State) (who : Requester) (off : Nat) (v : Word) : (writeEvt s who off v).time = s.time := by
  simp [writeEvt, pfWrite_eq_ite, fwWrite]
@[simp] theorem fwStatWrite_time (s : State) (who : Requester) (off : Nat) (v : Word) : (fwStatWrite s who off v).time = s.time := by
  unfold fwStatWrite; split <;> simp
@[simp] theorem kickOp_time (s : State) (who : Requester) (v : Word) : (kickOp s who v).time = s.time := by unfold kickOp; split <;> simp
@[simp] theorem writeFw_time (s : State) (who : Requester) (off : Nat) (v : Word) : (writeFw s who off v).time = s.time := by
  unfold writeFw; dsimp only; split <;> simp [pfWrite_eq_ite, fwWrite]
@[simp] theorem writeMgt_time (s : State) (who : Requester) (off : Nat) (v : Word) : (writeMgt s who off v).time = s.time := by
  simp [writeMgt, pfWrite_eq_ite]
@[simp] theorem shadowOp_time (s : State) (c : Nat) (f : Gcl → GclBank → GclBank) : (shadowOp s c f).time = s.time := by simp [shadowOp]
@[simp] theorem gclCtlOp_time (s : State) (c : Nat) (v : Word) : (gclCtlOp s c v).time = s.time := by simp [gclCtlOp]
@[simp] theorem writeChan_time (s : State) (who : Requester) (off c o : Nat) (v : Word) : (writeChan s who off c o v).time = s.time := by
  simp [writeChan, pfWrite_eq_ite, fwWrite]
@[simp] theorem writeReg_latch (s : State) (who : Requester) (off : Nat) (v : Word) : (writeReg s who off v).time.latch = s.time.latch := by
  unfold writeReg; (repeat' split) <;> simp

/-! ### Register accesses (R233, R375) -/

/-- The access reads DATUM_NS. -/
def readsDatumNs (a : Access) : Prop := a.value = none ∧ viewOff a.who a.off.toNat = some 0x50000

theorem readValue_latch {off : Nat} (h : off ≠ 0x50000) (s : State) : (readValue s off).2.time.latch = s.time.latch := by
  unfold readValue; rw [if_neg h]; split <;> rfl

theorem readOp_latch {off : Nat} (h : off ≠ 0x50000) (s : State) (who : Requester) (asked : Nat) :
    (readOp s who asked off).time.latch = s.time.latch := by simp [readOp, readValue_latch h]

theorem applyAccess_latch (s : State) {a : Access} (h : ¬ readsDatumNs a) : (applyAccess s a).time.latch = s.time.latch := by
  unfold applyAccess
  split
  · simp
  · rfl
  next hview hvalue => exact readOp_latch (fun hoff => h ⟨hvalue, hoff ▸ hview⟩) s _ _
  · simp

theorem servedAccess_latch (s : State) {a : Access} (h : ¬ readsDatumNs a) : (servedAccess s a).time.latch = s.time.latch := by
  unfold servedAccess; (repeat' split) <;> simp [applyAccess_latch s h]

theorem accessOp_latch (s : State) {a : Access} (h : ¬ readsDatumNs a) : (accessOp s a).time.latch = s.time.latch := by
  unfold accessOp; (repeat' split) <;> simp [servedAccess_latch _ h]

/-! ### The commands -/

/-- The outcome is no next state, or one with the same instant latched. -/
def KeepsLatch (s : State) (o : Host.Outcome State Fault Refusal) : Prop := ∀ t, o = .next t → t.time.latch = s.time.latch

@[simp] theorem keepsLatch_next (s t : State) : KeepsLatch s (.next t) ↔ t.time.latch = s.time.latch := by simp [KeepsLatch]

@[simp] theorem keepsLatch_fault (s : State) (r : Fault) : KeepsLatch s (.fault r) := by simp [KeepsLatch]

@[simp] theorem keepsLatch_ite (s : State) (p : Prop) [Decidable p] (a b : Host.Outcome State Fault Refusal) :
    KeepsLatch s (if p then a else b) ↔ if p then KeepsLatch s a else KeepsLatch s b := by split <;> rfl

/-- The commands that may change the instant latched: a read of DATUM_NS, the readiness of a domain such a read waited for, and those that can
be a POWER-ON. -/
def mayLatch : Instr → Prop
  | .powerOn | .aonBrownOut | .wakePin | .domainReady _ => True
  | .domainWakeOnAccess a => readsDatumNs a
  | _ => False

theorem mayLatch_cases {c : Instr} (h : mayLatch c) : c = .powerOn ∨ c = .aonBrownOut ∨ c = .wakePin ∨ (∃ d, c = .domainReady d) ∨
    ∃ a, c = .domainWakeOnAccess a ∧ a.value = none ∧ viewOff a.who a.off.toNat = some 0x50000 := by
  cases c with
  | powerOn => exact .inl rfl
  | aonBrownOut => exact .inr (.inl rfl)
  | wakePin => exact .inr (.inr (.inl rfl))
  | domainReady d => exact .inr (.inr (.inr (.inl ⟨d, rfl⟩)))
  | domainWakeOnAccess a =>
    obtain ⟨hvalue, hview⟩ := h
    exact .inr (.inr (.inr (.inr ⟨a, rfl, hvalue, hview⟩)))
  | _ => exact h.elim

/-- Every other command keeps the instant latched. -/
theorem exec_latch (c : Instr) (s : State) (h : ¬ mayLatch c) : KeepsLatch s (exec c s) := by
  cases c with
  | powerOn => exact absurd trivial h
  | aonBrownOut => exact absurd trivial h
  | perstAssert => simp [exec, execPerstAssert]
  | perstDeassert => simp [exec, execPerstDeassert]
  | pcieHotReset => simp [exec, execPcieHotReset]
  | linkDown => simp [exec, execLinkDown]
  | linkUp => simp [exec, execLinkUp]
  | pfFlr => simp [exec, execPfFlr, pfFlrOp]
  | vfFlr => simp [exec, execVfFlr, vfFlrOp]
  | channelIslandFault => simp [exec, execChannelIslandFault, islandFaultOp]
  | hostFullReset => dsimp only [exec, execHostFullReset]; (repeat' split) <;> simp
  | testEnChange => simp [exec, execTestEnChange]
  | registerWrite => simpa [exec, execRegisterWrite] using accessOp_latch s (by simp [readsDatumNs])
  | unsupportedAccessWidth => simp [exec, execUnsupportedAccessWidth]
  | poisonedWrite => simp [exec, execPoisonedWrite]
  | busMasterEnableChange => simp [exec, execBusMasterEnableChange, sendPending]
  | memorySpaceEnableChange => simp [exec, execMemorySpaceEnableChange]
  | vfEnableWrite => simp [exec, execVfEnableWrite]
  | configPowerStateWrite => simp [exec, execConfigPowerStateWrite]
  | domainWakeOnAccess a => simpa [exec, execDomainWakeOnAccess] using accessOp_latch s h
  | domainReady => exact absurd trivial h
  | lingerExpiry => simp [exec, execLingerExpiry]
  | doorbell => dsimp only [exec, execDoorbell]; (repeat' split) <;> simp
  | descriptorFetch => simp [exec, execDescriptorFetch]
  | descriptorFetchComplete => simp [exec, execDescriptorFetchComplete]
  | ringHaltedClear => simp [exec, execRingHaltedClear]
  | ringCfgWrite => simp [exec, execRingCfgWrite]
  | createRing => simp [exec, execCreateRing]
  | destroyRing => simp [exec, execDestroyRing]
  | recordWrite => simp [exec, execRecordWrite]
  | recordAcknowledged => simp [exec, execRecordAcknowledged, recordAckedOp]
  | modTimeExpiry => simp [exec, execModTimeExpiry]
  | txFrame => simp [exec, execTxFrame]
  | txBufferRead => simp [exec, execTxBufferRead]
  | txBufferReadComplete => simp [exec, execTxBufferReadComplete]
  | rxBuffer => simp [exec, execRxBuffer]
  | rxFrameDeliver => simp [exec, execRxFrameDeliver]
  | lifetimeExpiry => simp [exec, execLifetimeExpiry]
  | ledgerEnable => simp [exec, execLedgerEnable]
  | ledgerAdopt => simp [exec, execLedgerAdopt]
  | ledgerClose => simp [exec, execLedgerClose]
  | ledgerWritesAcknowledged => simp [exec, execLedgerWritesAcknowledged, writesAckOp]
  | benchmarkRecordWrite => simp [exec, execBenchmarkRecordWrite]
  | ledgerTransferComplete => simp [exec, execLedgerTransferComplete, ledgerXferOp]
  | ledgerRetry => simp [exec, execLedgerRetry, ledgerRetryOp]
  | recoverySettle => simp [exec, execRecoverySettle]
  | recoveryDone => simp [exec, execRecoveryDone]
  | chtabRefresh => simp [exec, execChtabRefresh]
  | chRefresh => simp [exec, execChRefresh]
  | chReset => simp [exec, execChReset]
  | chtabEnableChange => simp [exec, execChtabEnableChange]
  | chtabReadPhaseComplete => simp [exec, execChtabReadPhaseComplete, phaseComplete]
  | chtabReadRetry => dsimp only [exec, execChtabReadRetry]; (repeat' split) <;> simp
  | chtabReadErrorRetry => dsimp only [exec, execChtabReadErrorRetry]; (repeat' split) <;> simp
  | chHoldWrite => simp [exec, execChHoldWrite]
  | islandPowered => simp [exec, execIslandPowered]
  | tddFrameBoundary => simp [exec, execTddFrameBoundary, boundaryOp, trainBoundary, clearStepped, serviceBoundary]
  | handshakeAnswer => simp [exec, execHandshakeAnswer, handshakeOp]
  | trainingPhaseEnd => simp [exec, execTrainingPhaseEnd]
  | marginUpdate => simp [exec, execMarginUpdate]
  | economyIdleTimerExpiry => simp [exec, execEconomyIdleTimerExpiry, econExpiry]
  | overheadReceived => simp [exec, execOverheadReceived]
  | dtuReceived => simp [exec, execDtuReceived, nextDtu, dtuReceivedOp, countErrDtu]
  | dtuClose => simp [exec, execDtuClose]
  | dtuLost => simp [exec, execDtuLost, dtuLostOp]
  | lossOfLine => simp [exec, execLossOfLine]
  | tribBlock => simp [exec, execTribBlock]
  | datumSecondBoundary => simp [exec, execDatumSecondBoundary, secondOp, govSecond, pmSecond]
  | ppsOutWidthExpiry => simp [exec, execPpsOutWidthExpiry]
  | psbdReceived => simp [exec, execPsbdReceived, psbdOp, xgtcOp]
  | psyncExpectedMiss => simp [exec, execPsyncExpectedMiss]
  | optRxLosChange => simp [exec, execOptRxLosChange]
  | lodsTo2Expiry => simp [exec, execLodsTo2Expiry]
  | optModAbsChange => simp [exec, execOptModAbsChange, modAbsOp]
  | opticsDiagPoll => simp [exec, execOpticsDiagPoll, opticsPollOp]
  | i2cStretchTimeout => simp [exec, execI2cStretchTimeout]
  | ploamReceived => simp [exec, execPloamReceived, ploam]
  | burstProfile => simp [exec, execBurstProfile, ploam]
  | assignOnuId => simp [exec, execAssignOnuId, assignOnu, ploam]
  | rangingTime => simp [exec, execRangingTime, rangeOp, ploam]
  | assignAllocId => simp [exec, execAssignAllocId, ploam]
  | deactivateOnuId => simp [exec, execDeactivateOnuId, ploam]
  | disableSerialNumber => simp [exec, execDisableSerialNumber, ploam]
  | xgemFrameReceived => simp [exec, execXgemFrameReceived]
  | burstContentFix => simp [exec, execBurstContentFix]
  | burstWindowOpen => simp [exec, execBurstWindowOpen]
  | burstWindowClose => simp [exec, execBurstWindowClose]
  | backstopExpiry => simp [exec, execBackstopExpiry, backstopOp]
  | rogueLight => simp [exec, execRogueLight]
  | rogueClear => dsimp only [exec, execRogueClear]; (repeat' split) <;> simp
  | emstopSet => simp [exec, execEmstopSet]
  | ponPowerSaveTimerExpiry => simp [exec, execPonPowerSaveTimerExpiry]
  | uplPortRead => simp [exec, execUplPortRead]
  | uplPortWrite => simp [exec, execUplPortWrite]
  | uplPortClear => simp [exec, execUplPortClear]
  | upstreamFrameReceived => simp [exec, execUpstreamFrameReceived]
  | pauseFrameReceived => simp [exec, execPauseFrameReceived]
  | pauseTimerExpiry => dsimp only [exec, execPauseTimerExpiry]; (repeat' split) <;> simp
  | pauseRefreshExpiry => simp [exec, execPauseRefreshExpiry]
  | flowTableRead => dsimp only [exec, execFlowTableRead]; (repeat' split) <;> simp
  | flowTableWrite => dsimp only [exec, execFlowTableWrite]; (repeat' split) <;> simp
  | flowTableClear => dsimp only [exec, execFlowTableClear]; (repeat' split) <;> simp
  | bufferUncorrectableError => simp [exec, execBufferUncorrectableError, countCorrected, bankLostOp, strikeAll]
  | schedulerSelect => dsimp only [exec, execSchedulerSelect]; (repeat' split) <;> simp
  | refillTick => simp [exec, execRefillTick]
  | gateIntervalExpiry => simp [exec, execGateIntervalExpiry]
  | gclSwap => simp [exec, execGclSwap]
  | histogramSample => simp [exec, execHistogramSample]
  | histClr => simp [exec, execHistClr]
  | todLoad => simp [exec, execTodLoad]
  | phaseAverage => simp [exec, execPhaseAverage]
  | holdoverEntry => simp [exec, execHoldoverEntry]
  | holdErrExceeded => simp [exec, execHoldErrExceeded, holdLimitOp]
  | crystalCalibration => simp [exec, execCrystalCalibration]
  | datumInvalidate => dsimp only [exec, execDatumInvalidate]; (repeat' split) <;> simp
  | ppsInEdge => simp [exec, execPpsInEdge]
  | rxtsNext => dsimp only [exec, execRxtsNext]; (repeat' split) <;> simp
  | gcmEncrypt => simp [exec, execGcmEncrypt]
  | gcmDecrypt => simp [exec, execGcmDecrypt]
  | cmac => simp [exec, execCmac]
  | cvUpdate => simp [exec, execCvUpdate]
  | cvSave => simp [exec, execCvSave]
  | cvRestore => simp [exec, execCvRestore]
  | keyGen => simp [exec, execKeyGen]
  | keyLoad => simp [exec, execKeyLoad]
  | keyImport => simp [exec, execKeyImport]
  | keyExport => simp [exec, execKeyExport]
  | keyDerive => simp [exec, execKeyDerive]
  | keyClear => simp [exec, execKeyClear]
  | keyInfo => simp [exec, execKeyInfo]
  | random => simp [exec, execRandom]
  | ccmStar => simp [exec, execCcmStar]
  | gcmKnownAnswerTest => simp [exec, execGcmKnownAnswerTest]
  | gcmCoreFail => simp [exec, execGcmCoreFail]
  | trngHealthFail => simp [exec, execTrngHealthFail]
  | trngRetest => simp [exec, execTrngRetest, reseedBoth]
  | drbgReseed => simp [exec, execDrbgReseed]
  | maskReseed => simp [exec, execMaskReseed]
  | radFrame => simp [exec, execRadFrame]
  | csmaBackoffExpiry => simp [exec, execCsmaBackoffExpiry]
  | lbtListenEnd => simp [exec, execLbtListenEnd]
  | radioTxEnd => simp [exec, execRadioTxEnd]
  | radioAckReceived => simp [exec, execRadioAckReceived]
  | radioAckTimeout => simp [exec, execRadioAckTimeout]
  | radioFrameReceived => simp [exec, execRadioFrameReceived]
  | radioAckTransmit => simp [exec, execRadioAckTransmit]
  | radioRxDeliver => simp [exec, execRadioRxDeliver]
  | radDevRead => simp [exec, execRadDevRead]
  | radDevWrite => simp [exec, execRadDevWrite]
  | radDevClear => simp [exec, execRadDevClear]
  | levelCrossingDeclared => simp [exec, execLevelCrossingDeclared, crossingOp]
  | sealComplete => simp [exec, execSealComplete]
  | feedAdmissionTick => simp [exec, execFeedAdmissionTick, admitOne]
  | feedRampEnd => simp [exec, execFeedRampEnd]
  | feedShortTrip => simp [exec, execFeedShortTrip]
  | feedOverloadTrip => simp [exec, execFeedOverloadTrip]
  | feedPowerTrip => simp [exec, execFeedPowerTrip]
  | feedBackoffExpiry => simp [exec, execFeedBackoffExpiry]
  | feedTriesReset => simp [exec, execFeedTriesReset]
  | feedInrushAbort => simp [exec, execFeedInrushAbort]
  | feedUnlock => dsimp only [exec, execFeedUnlock]; (repeat' split) <;> simp
  | feedHoldOff => simp [exec, execFeedHoldOff]
  | feedPulseStart => simp [exec, execFeedPulseStart]
  | feedPulseEnd => simp [exec, execFeedPulseEnd]
  | feedWindowClose => simp [exec, execFeedWindowClose, windowCloseOp]
  | idleTimerExpiry => simp [exec, execIdleTimerExpiry]
  | idleExit => simp [exec, execIdleExit]
  | sleepTimerExpiry => simp [exec, execSleepTimerExpiry]
  | l1EntryRequest => simp [exec, execL1EntryRequest]
  | pwrEnter => simp [exec, execPwrEnter]
  | pwrGoDeep => simp [exec, execPwrGoDeep]
  | pwrGoOff => simp [exec, execPwrGoOff]
  | pmeTurnOff => simp [exec, execPmeTurnOff]
  | entryTimeout => simp [exec, execEntryTimeout]
  | powerDownStep => simp [exec, execPowerDownStep]
  | railCollapse => simp [exec, execRailCollapse, railCollapseOp]
  | wakePin => exact absurd trivial h
  | pwrAlarm => simp [exec, execPwrAlarm]
  | powerUpStep => simp [exec, execPowerUpStep, powerUpOp]
  | railGoodTimeout => simp [exec, execRailGoodTimeout, railTimeoutOp]
  | powerUpRetry => simp [exec, execPowerUpRetry]
  | imageHandover => simp [exec, execImageHandover]
  | watchdogKick => simp [exec, execWatchdogKick]
  | watchdogExpiry => simp [exec, execWatchdogExpiry]
  | cpReady => simp [exec, execCpReady]
  | flashWrite => simp [exec, execFlashWrite, flashOp, flashSlot, flashGens]
  | ptpUnpairedDrop => simp [exec, execPtpUnpairedDrop]
  | fwStage => simp [exec, execFwStage]
  | fwActivate => simp [exec, execFwActivate]
  | fwConfirm => simp [exec, execFwConfirm]
  | fwFallback => simp [exec, execFwFallback]
  | capsuleApply => simp [exec, execCapsuleApply]
  | confirmationTimeout => simp [exec, execConfirmationTimeout]
  | fwSlotFallback => simp [exec, execFwSlotFallback]
  | fwSlotConfirm => simp [exec, execFwSlotConfirm]
  | revert => simp [exec, execRevert]
  | bmcOff => simp [exec, execBmcOff]
  | lockAll => simp [exec, execLockAll, pfWrite_eq_ite]
  | ahnairSelectFall => simp [exec, execAhnairSelectFall, selectFallOp]
  | ahnairSelectRise => simp [exec, execAhnairSelectRise, selectRiseOp]
  | read => simp [exec, execRead]
  | write => simp [exec, execWrite]
  | status => simp [exec, execStatus, header]
  | arm => simp [exec, execArm]
  | ahnairUnknownOpcode => simp [exec, execAhnairUnknownOpcode]
  | ahnairDataWord => simp [exec, execAhnairDataWord]
  | evtSoft => simp [exec, execEvtSoft]
  | eventCounterConfig => simp [exec, execEventCounterConfig]
  | eventCounterClear => simp [exec, execEventCounterClear]
  | counterDurationTick => simp [exec, execCounterDurationTick, durationTickOp]
  | secOperationComplete => simp [exec, execSecOperationComplete]
  | identityLoaded => simp [exec, execIdentityLoaded]
  | crystalRunning => simp [exec, execCrystalRunning]

/-! ### The read of DATUM_NS -/

/-- DATUM_NS stands in the always-on domain, so no read of it waits unless an earlier access does. -/
theorem waitsFor_datumNs {s : State} {who : Requester} (hview : viewOff who 0x50000 = some 0x50000) (hwait : s.pwr.waiting = []) :
    waitsFor s { who := who, off := 0x50000, value := none } = none := by simp [waitsFor, hview, regDomain, domReady, domOn, hwait]

theorem servedAccess_of_ready {s : State} {a : Access} (h : waitsFor s a = none) : servedAccess s a = applyAccess s a := by simp [servedAccess, h]

theorem readOp_datumNs (s : State) (who : Requester) (asked : Nat) :
    readOp s who asked 0x50000 =
      { s with time := { s.time with latch := s.datum }, sent := .readAnswer who asked (word (instNsPart s.datum)) :: s.sent } := by
  simp [readOp, readValue, readReg, readTime, modTime, otherPort, emitOut]

/-- A read of DATUM_NS that is served. -/
theorem exec_readDatumNs {s : State} {who : Requester} (hview : viewOff who 0x50000 = some 0x50000) (htest : s.pwr.testEn = false)
    (hbar : barServes s who = true) (hwait : s.pwr.waiting = []) :
    exec (.domainWakeOnAccess { who := who, off := 0x50000, value := none }) s = .next (readOp s who 0x50000 0x50000) := by
  have served : accessOp s { who := who, off := 0x50000, value := none } = servedAccess s { who := who, off := 0x50000, value := none } := by
    simp [accessOp, htest, hbar]
  show Host.Outcome.next (accessOp s _) = _
  rw [served, servedAccess_of_ready (waitsFor_datumNs hview hwait)]
  simp [applyAccess, hview]

theorem viewOff_datumNs {who : Requester} (h : who = .pf ∨ isFw who = true) : viewOff who 0x50000 = some 0x50000 := by
  cases who with
  | pf => rfl
  | fw cp => rfl
  | vf c => simp [isFw] at h

/-! ### The statement -/

/-- Settles O57: the read of DATUM_NS is followed through the register access, and every command that is neither such a read, nor lets one that
waited take place, nor can be a POWER-ON keeps the instant latched. -/
theorem datumReadLatchesItsOtherRegisters : Obligations.DatumReadLatchesItsOtherRegisters := by
  unfold Obligations.DatumReadLatchesItsOtherRegisters
  refine ⟨fun s who hwho htest hbar hwait => ?_, fun s => ⟨rfl, rfl, rfl⟩, fun c s t h => ?_⟩
  · rw [exec_readDatumNs (viewOff_datumNs hwho) htest hbar hwait, readOp_datumNs]
  · by_cases hc : mayLatch c
    · exact .inr (mayLatch_cases hc)
    · exact .inl (exec_latch c s hc t h)

end Sys2Proof.Machine

/-! # R362: a word cut short by the rise of select

A rise of select reports at most two errors, a word incomplete and an arming unused, and then ends the select period in the port alone. `portErrIf`
is the report of one error under its condition; the proof writes the rise as two such reports followed by `Mgt.endSelect`, and takes from each of
the three parts what it does to PARTIAL and what it leaves as it was (`PortOnly`). -/

namespace Sys2Proof.Machine

open Sys2Proof

/-! ### What the port leaves as it was -/

/-- t differs from s at most in the port and in what an occurrence changes. -/
def PortOnly (s t : State) : Prop :=
  t = { s with mgt := t.mgt, evt := t.evt, hif := { s.hif with funcs := t.hif.funcs }, sent := t.sent }

theorem PortOnly.refl (s : State) : PortOnly s s := rfl

theorem PortOnly.trans {s t u : State} (h : PortOnly s t) (k : PortOnly t u) : PortOnly s u := by
  unfold PortOnly at *
  rw [h] at k
  exact k

theorem EvtOnly.portOnly {s t : State} (h : EvtOnly s t) : PortOnly s t := by
  unfold PortOnly
  rw [h]

theorem modMgt_portOnly (s : State) (f : Mgt → Mgt) : PortOnly s (modMgt s f) := rfl

/-! ### Errors (R363) -/

theorem portErr_portOnly (s : State) (e : PortErr) : PortOnly s (portErr s e) := by
  unfold portErr
  split
  · exact modMgt_portOnly s _
  · exact (modMgt_portOnly s _).trans (raise_evtOnly _ _ _ _).portOnly

@[simp] theorem portErr_mgt (s : State) (e : PortErr) :
    (portErr s e).mgt = { s.mgt.setSticky e with errs := s.mgt.errs ||| e.report } := by
  unfold portErr
  split <;> simp

/-- Error e reported where b holds. -/
def portErrIf (b : Bool) (e : PortErr) (s : State) : State := if b then portErr s e else s

@[simp] theorem portErrIf_false (e : PortErr) (s : State) : portErrIf false e s = s := rfl

theorem ite_portErr (p : Prop) [Decidable p] (e : PortErr) (s : State) : (if p then s else portErr s e) = portErrIf (decide ¬p) e s := by
  by_cases h : p <;> simp [portErrIf, h]

theorem portErrIf_portOnly (b : Bool) (e : PortErr) (s : State) : PortOnly s (portErrIf b e s) := by
  cases b
  · exact PortOnly.refl s
  · exact portErr_portOnly s e

@[simp] theorem portErrIf_partial_partial (b : Bool) (s : State) : (portErrIf b .partial_ s).mgt.partial_ = (s.mgt.partial_ || b) := by
  cases b <;> simp [portErrIf, Mgt.setSticky]

@[simp] theorem portErrIf_arm_partial (b : Bool) (s : State) : (portErrIf b .arm s).mgt.partial_ = s.mgt.partial_ := by
  cases b <;> simp [portErrIf, Mgt.setSticky]

/-! ### The rise of select (R362, R363) -/

/-- An arming waits for its header, or the header that uses it for its data word. -/
def Mgt.armingPending (m : Mgt) : Bool := m.armed.isSome || (match m.mode with | .armedFirst _ => true | _ => false)

theorem Mgt.armingPending_eq_false {m : Mgt} (harmed : m.armed = none) (hmode : ∀ a, m.mode ≠ .armedFirst a) : m.armingPending = false := by
  cases h : m.mode with
  | armedFirst a => exact absurd h (hmode a)
  | _ => simp [armingPending, harmed, h]

/-- The port after the end of a select period. -/
def Mgt.endSelect (m : Mgt) : Mgt :=
  { m with selected := false, mode := .header, armed := none, words := 0, lastWords := BitVec.ofNat 8 (min m.words 255) }

/-- The errors a rise of select after so many bits of an unfinished word reports: the word incomplete, then the arming unused. -/
def riseErrors (s : State) (bits : Nat) : State :=
  portErrIf s.mgt.armingPending .arm (portErrIf (decide (bits % 32 ≠ 0)) .partial_ s)

theorem riseErrors_portOnly (s : State) (bits : Nat) : PortOnly s (riseErrors s bits) :=
  (portErrIf_portOnly _ _ s).trans (portErrIf_portOnly _ _ _)

theorem riseErrors_partial (s : State) (bits : Nat) :
    (riseErrors s bits).mgt.partial_ = (s.mgt.partial_ || decide (bits % 32 ≠ 0)) := by
  simp only [riseErrors, portErrIf_arm_partial, portErrIf_partial_partial]

theorem riseErrors_of_whole_word {s : State} {bits : Nat} (hbits : bits % 32 = 0) (hpending : s.mgt.armingPending = false) :
    riseErrors s bits = s := by
  simp [riseErrors, hbits, hpending]

/-- The rise that ends a select period of a live port. -/
theorem selectRiseOp_of_selected {s : State} (hlive : portLive s = true) (hsel : s.mgt.selected = true) (bits : Nat) :
    selectRiseOp s bits = modMgt (riseErrors s bits) Mgt.endSelect := by
  unfold selectRiseOp
  rw [if_neg (by simp [hlive, hsel])]
  simp only [ite_portErr]
  rfl

/-! ### The statement -/

/-- Settles O58: the rise is its reports followed by the end of the select period, and with neither a word incomplete nor an arming pending there is
no report. -/
theorem incompleteWordDiscarded : Obligations.IncompleteWordDiscarded := by
  unfold Obligations.IncompleteWordDiscarded
  intro s bits hlive hsel
  have rise : exec (.ahnairSelectRise bits) s = .next (modMgt (riseErrors s bits) Mgt.endSelect) :=
    congrArg Host.Outcome.next (selectRiseOp_of_selected hlive hsel bits)
  refine ⟨_, rise, rfl, rfl, riseErrors_partial s bits, (riseErrors_portOnly s bits).trans (modMgt_portOnly _ _), fun hbits harmed hmode => ?_⟩
  rw [riseErrors_of_whole_word hbits (Mgt.armingPending_eq_false harmed hmode)]
  exact ⟨rfl, rfl, rfl⟩

end Sys2Proof.Machine

/-! # R385: a diagnostic is VALID only after a good read of a module that is there

What the statement speaks of are four fields: the module's absence and the diagnostics in the uplink, TEST_EN and the uplink's domain in the power
state. The proof says, once for each operation of the model, that it leaves all four as they are (`SameOptics`, the lemmas `_optics`, by chapter).
The others either read or move the module, clear every diagnostic, or switch the uplink's domain off: they let no diagnostic become VALID that must
not be (`Calms`). Only the power-up step that switches the domain on, and a change of TEST_EN, need more: that TEST_EN holds the domain off. -/

namespace Sys2Proof.Machine

open Sys2Proof

/-- What R385 speaks of in the uplink: the module's absence and the diagnostics. -/
def Upl.optics (u : Upl) : Bool × Vector (Bool × Half) 5 := (u.modAbs, u.diag)

/-- What R385 and R396 speak of in the power state: TEST_EN, and whether the uplink's domain is on. -/
def Pwr.optics (p : Pwr) : Bool × Bool := (p.testEn, p.domUpl)

/-- From s to t the module's absence, the diagnostics, TEST_EN and the uplink's domain stay. -/
@[simp] abbrev SameOptics (s t : State) : Prop := t.upl.optics = s.upl.optics ∧ t.pwr.optics = s.pwr.optics

theorem SameOptics.refl (s : State) : SameOptics s s := ⟨rfl, rfl⟩

theorem SameOptics.trans {s t u : State} (h : SameOptics s t) (k : SameOptics t u) : SameOptics s u := by
  obtain ⟨hupl, hpwr⟩ := h
  obtain ⟨kupl, kpwr⟩ := k
  exact ⟨kupl.trans hupl, kpwr.trans hpwr⟩

/-! ### Branches, folds and updates of a part -/

@[simp] theorem Upl.optics_mk (sync_ misses missing lods superframe tds onuState gate onuId lock maxBurst rogueEn dgOnBat usRate
    respTrim burstTrail burstLead txAllow allocMask rogue emstop eqd eqdNext snLo snHi bind0 bind1 bind2 allocs profiles modAbs
    rxLos txSd burstEn txDisable diag a0h ports portStatus portIdx portData bursts prevEnd window ploamUp xgemSkip xgemPart
    dgActive dgLeft dgHeaders dgPloams dgStart dgValid ponMode rxOn refused backstops micFails xgemDisc fecUncorr allocOver tcont
    tcDeficit tcCursor) :
    (Upl.mk sync_ misses missing lods superframe tds onuState gate onuId lock maxBurst rogueEn dgOnBat usRate respTrim burstTrail
    burstLead txAllow allocMask rogue emstop eqd eqdNext snLo snHi bind0 bind1 bind2 allocs profiles modAbs rxLos txSd burstEn
    txDisable diag a0h ports portStatus portIdx portData bursts prevEnd window ploamUp xgemSkip xgemPart dgActive dgLeft dgHeaders
    dgPloams dgStart dgValid ponMode rxOn refused backstops micFails xgemDisc fecUncorr allocOver tcont tcDeficit tcCursor).optics
    = (modAbs, diag) := rfl

@[simp] theorem Pwr.optics_mk (state refused why lost wakeCause domHif domCore domUpl domChla domChlb domRad domFeed step floor
    sleepMs idleUs lingerMs extUa groups wakeBits alarm upStep downStep toOff cold entryReq entrySeal latchedWake retained
    collapsed enCore enSds enCh enAfe refEn retryWait woken waiting xtal testEn) :
    (Pwr.mk state refused why lost wakeCause domHif domCore domUpl domChla domChlb domRad domFeed step floor sleepMs idleUs lingerMs
    extUa groups wakeBits alarm upStep downStep toOff cold entryReq entrySeal latchedWake retained collapsed enCore enSds enCh
    enAfe refEn retryWait woken waiting xtal testEn).optics = (testEn, domUpl) := rfl

@[simp] theorem Upl.optics_eta (u : Upl) : (u.modAbs, u.diag) = u.optics := rfl

@[simp] theorem Pwr.optics_eta (p : Pwr) : (p.testEn, p.domUpl) = p.optics := rfl

@[simp] theorem ite_optics (p : Prop) [Decidable p] (a b : State) :
    (if p then a else b).upl.optics = (if p then a.upl.optics else b.upl.optics) ∧
      (if p then a else b).pwr.optics = (if p then a.pwr.optics else b.pwr.optics) := by split <;> exact ⟨rfl, rfl⟩

@[simp] theorem foldl_upl_optics {α : Type} (f : State → α → State) (h : ∀ s a, (f s a).upl.optics = s.upl.optics) (l : List α) (s : State) :
    (l.foldl f s).upl.optics = s.upl.optics := foldl_keeps (fun t => t.upl.optics) f h l s

@[simp] theorem foldl_pwr_optics {α : Type} (f : State → α → State) (h : ∀ s a, (f s a).pwr.optics = s.pwr.optics) (l : List α) (s : State) :
    (l.foldl f s).pwr.optics = s.pwr.optics := foldl_keeps (fun t => t.pwr.optics) f h l s

theorem iter_optics (f : State → State) (h : ∀ s, SameOptics s (f s)) (n : Nat) (s : State) : SameOptics s (iter f n s) := by
  induction n generalizing s with
  | zero => exact .refl s
  | succ n ih => exact (h s).trans (ih _)

/-! ### Shared operations (chapters 02, 03) -/

@[simp] theorem setPwr_optics (s : State) (st : PwrSt) : SameOptics s (setPwr s st) := by unfold setPwr; (repeat' split) <;> simp
@[simp] theorem leaveSleep_optics (s : State) : SameOptics s (leaveSleep s) := by simp [leaveSleep]
@[simp] theorem ponWake_optics (s : State) : SameOptics s (ponWake s) := by simp [ponWake]

/-! ### Records, seals and refused accesses (chapters 02, 03) -/

@[simp] theorem holdRecord_optics (s : State) (q : Nat) (addr : Nat) (windowCause : Bool) : SameOptics s (holdRecord s q addr windowCause) := by
  simp [holdRecord, stall]
@[simp] theorem markIssued_optics (s : State) (x : RecSrc) : SameOptics s (markIssued s x) := by unfold markIssued; split <;> simp
@[simp] theorem putRecord_optics (s : State) (q : Nat) (x : Issued) : SameOptics s (putRecord s q x) := by simp [putRecord]
@[simp] theorem rewriteLost_optics (s : State) (q : Nat) : SameOptics s (rewriteLost s q) := by unfold rewriteLost; split <;> simp
@[simp] theorem tryRecord_optics (s : State) (r : Nat) : SameOptics s (tryRecord s r) := by unfold tryRecord; dsimp only; (repeat' split) <;> simp
@[simp] theorem tryEvent_optics (s : State) : SameOptics s (tryEvent s) := by unfold tryEvent; split <;> simp
@[simp] theorem sealRing_optics (n : Nat) (s : State) (r : Nat) : SameOptics s (sealRing n s r) := by
  induction n generalizing s with
  | zero => exact .refl s
  | succ n ih => unfold sealRing; (repeat' split) <;> simp [ih]
@[simp] theorem setPhase_optics (s : State) (n : Fin 4) : SameOptics s (setPhase s n) := by simp [setPhase]
@[simp] theorem entered_optics (s : State) : SameOptics s (entered s) := by simp [entered]
@[simp] theorem sealAdvance_optics (s : State) : SameOptics s (sealAdvance s) := by
  unfold sealAdvance; (repeat' split) <;> simp [sealThree, sealTwo, benchBoth]
@[simp] theorem sealLedger_optics (s : State) : SameOptics s (sealLedger s) := by simp [sealLedger, sealOne]
@[simp] theorem resumeService_optics (s : State) (lossy : Bool) : SameOptics s (resumeService s lossy) := by simp [resumeService]
@[simp] theorem abandonEntry_optics (s : State) : SameOptics s (abandonEntry s) := by simp [abandonEntry]
@[simp] theorem hostWrote_optics (s : State) : SameOptics s (hostWrote s) := by simp [hostWrote]
@[simp] theorem beginEntering_optics (s : State) (toOff : Bool) : SameOptics s (beginEntering s toOff) := by simp [beginEntering]
@[simp] theorem aerReport_optics (s : State) (f bit : Nat) : SameOptics s (aerReport s f bit) := by simp [aerReport]
@[simp] theorem refuseAccess_optics (s : State) (who : Requester) (off : Nat) : SameOptics s (refuseAccess s who off) := by simp [refuseAccess]

/-! ### Network time (chapter 10) -/

@[simp] theorem setTimeState_optics (s : State) (st : TimeSt) : SameOptics s (setTimeState s st) := by simp [setTimeState]
@[simp] theorem applyOffset_optics (s : State) (e : Int) (first : Bool) : SameOptics s (applyOffset s e first) := by simp [applyOffset, moveDatum]
@[simp] theorem applyLoad_optics (s : State) (k : BitVec 51) (ppsKind : Bool) : SameOptics s (applyLoad s k ppsKind) := by simp [applyLoad]
@[simp] theorem loadLate_optics (s : State) : SameOptics s (loadLate s) := by simp [loadLate]
@[simp] theorem compareErr_optics (s : State) (e : Int) (follows : Bool) : SameOptics s (compareErr s e follows) := by simp [compareErr]
@[simp] theorem timePsbd_optics (s : State) (k : BitVec 51) (inSync : Bool) : SameOptics s (timePsbd s k inSync) := by
  unfold timePsbd; dsimp only; (repeat' split) <;> simp
@[simp] theorem ptpIn_optics (s : State) (e : RxtsEntry) (t : Nat) : SameOptics s (ptpIn s e t) := by simp [ptpIn]
@[simp] theorem ptpDone_optics (s : State) (h : PtpHalf) (t : Nat) : SameOptics s (ptpDone s h t) := by simp [ptpDone]
@[simp] theorem ptpOut_optics (s : State) (c id : Nat) (b : List Byte) (ts : Option (Nat × Bool)) : SameOptics s (ptpOut s c id b ts) := by
  unfold ptpOut; (repeat' split) <;> simp
@[simp] theorem captureUplink_optics (s0 : State) (b : List Byte) (t : Nat) : SameOptics s0 (captureUplink s0 b t) := by
  unfold captureUplink; split <;> simp
@[simp] theorem captureChannel_optics (s0 : State) (c : Nat) (b : List Byte) (t : Nat) : SameOptics s0 (captureChannel s0 c b t) := by
  unfold captureChannel; split <;> simp
@[simp] theorem todLoadOp_optics (s : State) (kind : Bool) : SameOptics s (todLoadOp s kind) := by simp [todLoadOp]
@[simp] theorem phaseAverageOp_optics (s : State) : SameOptics s (phaseAverageOp s) := by unfold phaseAverageOp; split <;> simp
@[simp] theorem invalidateOp_optics (s : State) : SameOptics s (invalidateOp s) := by simp [invalidateOp]
@[simp] theorem ppsInOp_optics (s0 : State) : SameOptics s0 (ppsInOp s0) := by unfold ppsInOp; dsimp only; (repeat' split) <;> simp

/-! ### Key use and MACsec (chapter 11) -/

@[simp] theorem refreshKeyUse_optics (s : State) (c : Nat) : SameOptics s (refreshKeyUse s c) := by simp [refreshKeyUse]
@[simp] theorem refreshKeys_optics (s : State) : SameOptics s (refreshKeys s) := by simp [refreshKeys]
@[simp] theorem pnMovedFor_optics (h : Half) (old new : Nat) (s : State) (c : Nat) : SameOptics s (pnMovedFor h old new s c) := by
  unfold pnMovedFor; split <;> simp
@[simp] theorem movePn_optics (s : State) (h : Half) (new : Nat) : SameOptics s (movePn s h new) := by simp [movePn]
@[simp] theorem takePn_optics (s : State) (c : Nat) (m : MacSect) : SameOptics s (takePn s c m) := by simp [takePn]
@[simp] theorem macOut_optics (s : State) (c : Nat) (b : List Byte) : SameOptics s (macOut s c b).1 := by unfold macOut; (repeat' split) <;> simp
@[simp] theorem countMacRx_optics (s : State) (c : Nat) (x : MacRx) : SameOptics s (countMacRx s c x) := by simp [countMacRx]
theorem macsecIn_optics {s t : State} {c : Nat} {m : MacSect} {b : List Byte} {x : Option (List Byte × Bool)} (e : macsecIn s c m b = (t, x)) :
    SameOptics s t := by unfold macsecIn at e; dsimp only at e; (repeat' split at e) <;> cases e <;> simp
theorem macIn_optics {s t : State} {c : Nat} {b : List Byte} {x : Option (List Byte × Bool)} (e : macIn s c b = (t, x)) : SameOptics s t := by
  unfold macIn at e
  (repeat' split at e)
  · cases e; exact .refl s
  · exact macsecIn_optics e
  · cases e; exact .refl s

/-! ### Packet storage and classification (chapter 08) -/

@[simp] theorem countBufDiscard_optics (s : State) (c : Nat) : SameOptics s (countBufDiscard s c) := by simp [countBufDiscard]
@[simp] theorem countLineDiscard_optics (s : State) (c : Nat) : SameOptics s (countLineDiscard s c) := by simp [countLineDiscard]
@[simp] theorem sendPause_optics (s : State) (c : Nat) (m : MacSect) (ens : Nat) (q : Nat) : SameOptics s (sendPause s c m ens q) := by
  simp [sendPause]
@[simp] theorem pauseCheck_optics (s : State) (c : Nat) : SameOptics s (pauseCheck s c) := by unfold pauseCheck; split <;> simp
@[simp] theorem takeId_optics (s : State) : SameOptics s (takeId s) := by simp [takeId]
@[simp] theorem enqueue_optics (s : State) (c i : Nat) (f : Frame) : SameOptics s (enqueue s c i f) := by simp [enqueue]
@[simp] theorem enqueueTcont_optics (s0 : State) (q : Nat) (f : Frame) : SameOptics s0 (enqueueTcont s0 q f) := by simp [enqueueTcont]
@[simp] theorem countOversize_optics (s : State) (c : Nat) : SameOptics s (countOversize s c) := by simp [countOversize]
@[simp] theorem deliverDown_optics (s : State) (idx port : Nat) (b : List Byte) (rx : Nat) : SameOptics s (deliverDown s idx port b rx) := by
  unfold deliverDown; dsimp only; (repeat' split) <;> simp [toHostPart, toChannel, countNoFlow]
@[simp] theorem classifyUp_optics (s : State) (c : Nat) (b : List Byte) (verified : Bool) (rx : Nat) :
    SameOptics s (classifyUp s c b verified rx) := by unfold classifyUp; dsimp only; (repeat' split) <;> simp [storeUp]
@[simp] theorem macControl_optics (s : State) (c : Nat) (b : List Byte) : SameOptics s (macControl s c b) := by
  unfold macControl; split <;> simp [obeyPause]
@[simp] theorem macReceive_optics (s : State) (c : Nat) (x : List Byte) (rx : Nat) : SameOptics s (macReceive s c x rx) := by
  unfold macReceive; dsimp only; (repeat' split)
  case h_1 e => exact macIn_optics e
  case h_2 e => simp [macIn_optics e]
  all_goals simp
@[simp] theorem pauseRefreshOp_optics (s : State) (c : Nat) : SameOptics s (pauseRefreshOp s c) := by unfold pauseRefreshOp; split <;> simp
@[simp] theorem flowReadOp_optics (s : State) (p : Nat) (idx : BitVec 12) : SameOptics s (flowReadOp s p idx) := by simp [flowReadOp]
@[simp] theorem flowWriteOp_optics (s : State) (p : Nat) (idx : BitVec 12) : SameOptics s (flowWriteOp s p idx) := by simp [flowWriteOp]
@[simp] theorem flowClearOp_optics (s : State) (p : Nat) (idx : BitVec 12) : SameOptics s (flowClearOp s p idx) := by simp [flowClearOp]

/-! ### The feed (chapter 13) -/

@[simp] theorem supplyLog_optics (s : State) (kind input detail : Nat) (value : Word) (start : Nat) (valid : Bool) :
    SameOptics s (supplyLog s kind input detail value start valid) := by simp [supplyLog, logEntry]
@[simp] theorem supplyNow_optics (s : State) (kind input detail : Nat) : SameOptics s (supplyNow s kind input detail) := by simp [supplyNow]
@[simp] theorem budgetCheck_optics (s : State) : SameOptics s (budgetCheck s) := by simp [budgetCheck]
@[simp] theorem feedOff_optics (s : State) : SameOptics s (feedOff s) := by simp [feedOff]
@[simp] theorem feedPower_optics (s : State) : SameOptics s (feedPower s) := by simp [feedPower, feedOn]
@[simp] theorem feedTrip_optics (s : State) (c cause : Nat) : SameOptics s (feedTrip s c cause) := by simp [feedTrip]
@[simp] theorem feedUnlockOp_optics (s : State) (c : Nat) : SameOptics s (feedUnlockOp s c) := by simp [feedUnlockOp]
@[simp] theorem shedAll_optics (s : State) (last detail : Nat) : SameOptics s (shedAll s last detail) := by simp [shedAll]

/-! ### Rings (chapter 02) -/

@[simp] theorem doorbellFault_optics (s : State) (r : Nat) : SameOptics s (doorbellFault s r) := by simp [doorbellFault]
@[simp] theorem doorbellWrite_optics (s : State) (who : Requester) (off : Nat) (v : Word) : SameOptics s (doorbellWrite s who off v) := by
  unfold doorbellWrite; split <;> simp [doorbellAt]
@[simp] theorem haltRing_optics (s : State) (r : Nat) : SameOptics s (haltRing s r) := by simp [haltRing]
@[simp] theorem moveCursor_optics (s : State) (r : Nat) : SameOptics s (moveCursor s r) := .refl s
@[simp] theorem refetchFailed_optics (s : State) (r : Nat) (seq : Word) (st : Status) : SameOptics s (refetchFailed s r seq st) := by
  simp [refetchFailed]
@[simp] theorem descriptorFetchOp_optics (s : State) : SameOptics s (descriptorFetchOp s) := by
  unfold descriptorFetchOp; (repeat' split) <;> simp [fetchAgain, fetchNew]
@[simp] theorem acceptOne_optics (s : State) (r : Nat) (d : Desc) : SameOptics s (acceptOne s r d) := by simp [acceptOne]
@[simp] theorem refetchDone_optics (s : State) (r : Nat) (seq : Word) (res : XferResult) (data : List Byte) :
    SameOptics s (refetchDone s r seq res data) := by unfold refetchDone; split <;> simp
@[simp] theorem fetchDone_optics (s : State) (r : Nat) (first : Word) (n : Nat) (res : XferResult) (data : List Byte) :
    SameOptics s (fetchDone s r first n res data) := by simp [fetchDone]
@[simp] theorem fetchCompleteOp_optics (s : State) (r : Nat) (res : XferResult) (data : List Byte) : SameOptics s (fetchCompleteOp s r res data) := by
  unfold fetchCompleteOp; split <;> simp
@[simp] theorem haltedClear_optics (s : State) (r : Nat) : SameOptics s (haltedClear s r) := by simp [haltedClear]
@[simp] theorem ringCfgOp_optics (s : State) (r : RingNo) (v : Word) : SameOptics s (ringCfgOp s r v) := by simp [ringCfgOp]
@[simp] theorem forgetBlocks_optics (s : State) (n : Nat) : SameOptics s (forgetBlocks s n) := by unfold forgetBlocks; split <;> simp
@[simp] theorem createRingOp_optics (s : State) (r : RingNo) (seq : Word) : SameOptics s (createRingOp s r seq) := by
  unfold createRingOp; (repeat' split) <;> simp
@[simp] theorem dropQueued_optics (s : State) (p : Frame → Bool) : SameOptics s (dropQueued s p) := by simp [dropQueued]
@[simp] theorem dropRadio_optics (s : State) (n : Nat) : SameOptics s (dropRadio s n) := by unfold dropRadio; split <;> simp
@[simp] theorem destroyRingOp_optics (s : State) (r : RingNo) (seq : Word) : SameOptics s (destroyRingOp s r seq) := by
  unfold destroyRingOp; (repeat' split) <;> simp [dropBlocks, returnOpen, dropSent]
@[simp] theorem recordWriteOp_optics (s : State) (r : Nat) : SameOptics s (recordWriteOp s r) := by unfold recordWriteOp; (repeat' split) <;> simp
@[simp] theorem recordAckOp_optics (s : State) (q : Nat) : SameOptics s (recordAckOp s q) := by
  unfold recordAckOp; dsimp only; (repeat' split) <;> simp [ackWork]
@[simp] theorem modTimeOp_optics (s : State) (m : ModSrc) : SameOptics s (modTimeOp s m) := by unfold modTimeOp; split <;> simp
@[simp] theorem setSizes_optics (s : State) (dc : DevCtl) : SameOptics s (setSizes s dc) := by simp [setSizes]
@[simp] theorem makeWaiting_optics (s : State) (x : LXfer) : SameOptics s (makeWaiting s x) := by unfold makeWaiting; split <;> simp
@[simp] theorem flushWaiting_optics (s : State) : SameOptics s (flushWaiting s) := by simp [flushWaiting]
@[simp] theorem setVfs_optics (s : State) (enable : Bool) (numVfs : Half) : SameOptics s (setVfs s enable numVfs) := by simp [setVfs]

/-! ### Channel-table reads (chapter 04) -/

@[simp] theorem mapTab_optics (s : State) (c : Nat) (f : ChTab → ChTab) : SameOptics s (mapTab s c f) := by simp [mapTab]
@[simp] theorem returnRefreshes_optics (s : State) (c : Nat) (st : Status) : SameOptics s (returnRefreshes s c st) := by simp [returnRefreshes]
@[simp] theorem readFailed_optics (s : State) (c : Nat) (st : Status) : SameOptics s (readFailed s c st) := by simp [readFailed]
@[simp] theorem issuePhase_optics (s : State) (c off len : Nat) (p : ReadPhase) : SameOptics s (issuePhase s c off len p) := by
  simp [issuePhase, readWindowFault]
@[simp] theorem beginRead_optics (s : State) (c : Nat) : SameOptics s (beginRead s c) := by simp [beginRead]
@[simp] theorem requestRefresh_optics (s : State) (c : Nat) : SameOptics s (requestRefresh s c) := by simp [requestRefresh]
@[simp] theorem requestAll_optics (s : State) (l : List Nat) : SameOptics s (requestAll s l) := by simp [requestAll]

/-! ### The ledger and recoveries (chapter 03) -/

@[simp] theorem ledgerFresh_optics (s : State) : SameOptics s (ledgerFresh s) := by simp [ledgerFresh]
@[simp] theorem ledgerCloseOp_optics (s : State) : SameOptics s (ledgerCloseOp s) := by simp [ledgerCloseOp]
@[simp] theorem adoptRing_optics (img : LedgerImage) (s : State) (r : RingNo) : SameOptics s (adoptRing img s r) := by
  unfold adoptRing; (repeat' split) <;> simp
@[simp] theorem adoptAdd_optics (s : State) (r : RingNo) (n : Word) (d : Desc) (st : Stage) (ret : Option Outcome) :
    SameOptics s (adoptAdd s r n d st ret) := by simp [adoptAdd]
@[simp] theorem adoptLost_optics (invalid : Bool) (r : RingNo) (s : State) (n : Word) : SameOptics s (adoptLost invalid r s n) := by simp [adoptLost]
@[simp] theorem adoptTrib_optics (img : LedgerImage) (invalid : Bool) (r : RingNo) (s : State) (n : Word) :
    SameOptics s (adoptTrib img invalid r s n) := by unfold adoptTrib; split <;> simp
@[simp] theorem adoptNow_optics (s : State) (img : LedgerImage) : SameOptics s (adoptNow s img) := by
  unfold adoptNow; split <;> simp [adoptSpilled, adoptRingWork, adoptWork]
@[simp] theorem adoptRead_optics (s : State) (res : XferResult) (img : LedgerImage) : SameOptics s (adoptRead s res img) := by simp [adoptRead]
@[simp] theorem retryOne_optics (res : XferResult) (img : LedgerImage) (s : State) (x : LXfer) : SameOptics s (retryOne res img s x) := by
  unfold retryOne; split <;> simp
@[simp] theorem countRxLost_optics (s : State) (r n : Nat) : SameOptics s (countRxLost s r n) := by unfold countRxLost; (repeat' split) <;> simp
@[simp] theorem settleOne_optics (s : State) (v : Recovery) : SameOptics s (settleOne s v) := by simp [settleOne, endReset, settleRing]
@[simp] theorem settleFirst_optics (s : State) (done rest : List Recovery) : SameOptics s (settleFirst s done rest) := by
  induction rest generalizing done with
  | nil => exact .refl _
  | cons v rest ih => unfold settleFirst; split <;> simp [ih]
@[simp] theorem recoveryDoneOp_optics (s : State) : SameOptics s (recoveryDoneOp s) := by unfold recoveryDoneOp; split <;> simp [activate]

/-! ### Channel states (chapter 04) -/

@[simp] theorem setChSt_optics (s : State) (c : Nat) (st : ChSt) : SameOptics s (setChSt s c st) := by simp [setChSt]
@[simp] theorem wakeRaised_optics (old s : State) : SameOptics s (wakeRaised old s) := by simp [wakeRaised]
@[simp] theorem setIsland_optics (s : State) (c : Nat) (on : Bool) : SameOptics s (setIsland s c on) := by simp [setIsland, islandDomains]
@[simp] theorem dropCur_optics (s : State) (c : Nat) : SameOptics s (dropCur s c) := by
  unfold dropCur; split
  next => exact .refl s
  next f _ => cases f.src <;> simp
@[simp] theorem dropChan_optics (s : State) (c : Nat) (p : Frame → Bool) : SameOptics s (dropChan s c p) := by simp [dropChan]
@[simp] theorem stopLine_optics (s : State) (c : Nat) : SameOptics s (stopLine s c) := by simp [stopLine]
@[simp] theorem breakBlock_optics (s : State) (c i : Nat) : SameOptics s (breakBlock s c i) := by unfold breakBlock; split <;> simp
@[simp] theorem leaveService_optics (s : State) (c : Nat) : SameOptics s (leaveService s c) := by simp [leaveService, returnNoPath]
@[simp] theorem enterOff_optics (s : State) (c : Nat) : SameOptics s (enterOff s c) := by simp [enterOff]
@[simp] theorem goReady_optics (s : State) (c : Nat) : SameOptics s (goReady s c) := by simp [goReady]
@[simp] theorem enterHalted_optics (s : State) (c : Nat) (cause : Nat) : SameOptics s (enterHalted s c cause) := by simp [enterHalted]
@[simp] theorem applyTarget_optics (s : State) (c : Nat) : SameOptics s (applyTarget s c) := by unfold applyTarget; (repeat' split) <;> simp [goOff]
@[simp] theorem failTraining_optics (s : State) (c cause : Nat) : SameOptics s (failTraining s c cause) := by simp [failTraining]
@[simp] theorem sweepNoCore_optics (s : State) (c : Nat) : SameOptics s (sweepNoCore s c) := by simp [sweepNoCore]
@[simp] theorem goTrain_optics (s : State) (c : Nat) : SameOptics s (goTrain s c) := by simp [goTrain]
@[simp] theorem lossOfLineOp_optics (s : State) (c : Nat) : SameOptics s (lossOfLineOp s c) := by simp [lossOfLineOp]
@[simp] theorem stopWork_optics (s : State) (c : Nat) : SameOptics s (stopWork s c) := by simp [stopWork]
@[simp] theorem channelReset_optics (s : State) (c : Nat) (cmds : List (RingNo × Word)) : SameOptics s (channelReset s c cmds) := by
  unfold channelReset; split <;> simp [resetChannel, clearChanEvents]
@[simp] theorem chResetOp_optics (s : State) (r : RingNo) (seq : Word) : SameOptics s (chResetOp s r seq) := by
  unfold chResetOp; (repeat' split) <;> simp
@[simp] theorem chHoldOp_optics (s : State) (c : Nat) (v : Word) : SameOptics s (chHoldOp s c v) := by simp [chHoldOp]

/-! ### The channel table (chapter 04) -/

@[simp] theorem applyEntry_optics (s : State) (c : Nat) (g : Word) (b : List Byte) : SameOptics s (applyEntry s c g b) := by
  simp [applyEntry, applyMac, raisePn, pnReached, applyFeed]
@[simp] theorem phaseOk_optics (s : State) (c : Nat) (data : List Byte) : SameOptics s (phaseOk s c data) := by
  unfold phaseOk; split <;> simp [nextPhase, discardRead, wholeRead, serveOne]
@[simp] theorem chtabRefreshOp_optics (s : State) (mask : Word) : SameOptics s (chtabRefreshOp s mask) := by simp [chtabRefreshOp]
@[simp] theorem chRefreshOp_optics (s : State) (r : RingNo) (seq : Word) : SameOptics s (chRefreshOp s r seq) := by
  unfold chRefreshOp; (repeat' split) <;> simp
@[simp] theorem chtabEnableOp_optics (s : State) (on : Bool) : SameOptics s (chtabEnableOp s on) := by simp [chtabEnableOp, tableOff, applyTargets]

/-! ### Frames of the host (chapters 03, 08) -/

@[simp] theorem txFrameOp_optics (s : State) (r : Nat) (seq : Word) : SameOptics s (txFrameOp s r seq) := by
  unfold txFrameOp; (repeat' split) <;> simp
@[simp] theorem returnLost_optics (s : State) (r : RingNo) (seq : Word) (st : Status) : SameOptics s (returnLost s r seq st) := by simp [returnLost]
@[simp] theorem txReadOp_optics (s : State) (r : RingNo) (seq : Word) : SameOptics s (txReadOp s r seq) := by
  unfold txReadOp; (repeat' split) <;> simp
@[simp] theorem storeTx_optics (s : State) (r : RingNo) (w : Work) (b : List Byte) : SameOptics s (storeTx s r w b) := by
  unfold storeTx; split <;> simp
@[simp] theorem txReadDoneOp_optics (s : State) (r : RingNo) (seq : Word) (res : XferResult) (data : List Byte) :
    SameOptics s (txReadDoneOp s r seq res data) := by unfold txReadDoneOp; split <;> simp
@[simp] theorem rxBufferOp_optics (s : State) (r : Nat) (seq : Word) : SameOptics s (rxBufferOp s r seq) := by unfold rxBufferOp; split <;> simp
@[simp] theorem dropWaiting_optics (s : State) (r : Nat) : SameOptics s (dropWaiting s r) := by unfold dropWaiting; (repeat' split) <;> simp
@[simp] theorem afterLeave_optics (s : State) (f : Frame) : SameOptics s (afterLeave s f) := by unfold afterLeave; split <;> simp
@[simp] theorem rxDeliverOp_optics (s : State) (r : Nat) : SameOptics s (rxDeliverOp s r) := by unfold rxDeliverOp; split <;> simp
@[simp] theorem lifetimeOp_optics (s : State) (r : RingNo) (seq : Word) : SameOptics s (lifetimeOp s r seq) := by unfold lifetimeOp; split <;> simp
@[simp] theorem refetchWork_optics (s : State) (x : RingNo × Word) : SameOptics s (refetchWork s x) := by unfold refetchWork; split <;> simp

/-! ### The cipher unit (chapter 11) -/

@[simp] theorem secReturn_optics (s : State) (q : SecSrc) (st : Status) : SameOptics s (secReturn s q st) := by unfold secReturn; split <;> simp
@[simp] theorem secDone_optics (s : State) (q : SecSrc) (st : Status) (r0 r1 : Word) : SameOptics s (secDone s q st r0 r1) := by
  unfold secDone; split <;> simp
@[simp] theorem secDo_optics (s : State) (q : SecSrc) (c : Option Status) (act : State) :
    SameOptics (if c.isSome then s else act) (secDo s q c act) := by cases c <;> simp [secDo]
@[simp] theorem secWrite_optics (s : State) (q : SecSrc) (addr : Nat) (b : List Byte) : SameOptics s (secWrite s q addr b) := by
  unfold secWrite; (repeat' split) <;> simp
@[simp] theorem secFault_optics (s : State) (q : SecSrc) (addr : Nat) : SameOptics s (secFault s q addr) := by unfold secFault; split <;> simp
@[simp] theorem secWindow_optics (s : State) (q : SecSrc) (write : Bool) (addr len : Nat) (go : State) :
    SameOptics (if secOpen s q write addr len then go else s) (secWindow s q write addr len go) := by simp [secWindow]
@[simp] theorem secReadFailed_optics (s : State) (q : SecSrc) (res : XferResult) (addr : Nat) : SameOptics s (secReadFailed s q res addr) := by
  unfold secReadFailed; split <;> simp
@[simp] theorem secRead_optics (s : State) (q : SecSrc) (addr len : Nat) : SameOptics s (secRead s q addr len) := by unfold secRead; split <;> simp
@[simp] theorem secStart_optics (s : State) (q : SecSrc) (d : Desc) (blk : Option OpBlock) (addr len : Nat) :
    SameOptics s (secStart s q d blk addr len) := by unfold secStart; split <;> simp
@[simp] theorem withBlock_optics (s : State) (q : SecSrc) (d : Desc) (res : XferResult) (raw : List Byte) (pre : Option Status) (tagOut : Bool)
    (act : State → OpBlock → State) (h : ∀ t b, SameOptics t (act t b)) : SameOptics s (withBlock s q d res raw pre tagOut act) := by
  unfold withBlock; dsimp only; split <;> simp [secWindow, h]
@[simp] theorem cipherStart_optics (s : State) (q : SecSrc) (d : Desc) (res : XferResult) (raw : List Byte) (kinds : List Nat)
    (out tagOut gcm : Bool) : SameOptics s (cipherStart s q d res raw kinds out tagOut gcm) :=
  withBlock_optics _ _ _ _ _ _ _ _ (fun t b => by simp)
@[simp] theorem gcmEncryptRun_optics (s : State) (q : SecSrc) (d : Desc) (res : XferResult) (raw : List Byte) :
    SameOptics s (gcmEncryptRun s q d res raw) := by simp [gcmEncryptRun]
@[simp] theorem gcmDecryptRun_optics (s : State) (q : SecSrc) (d : Desc) (res : XferResult) (raw : List Byte) :
    SameOptics s (gcmDecryptRun s q d res raw) := by simp [gcmDecryptRun]
@[simp] theorem cmacRun_optics (s : State) (q : SecSrc) (d : Desc) (res : XferResult) (raw : List Byte) : SameOptics s (cmacRun s q d res raw) := by
  simp [cmacRun]
@[simp] theorem ccmStarRun_optics (s : State) (q : SecSrc) (d : Desc) (res : XferResult) (raw : List Byte) :
    SameOptics s (ccmStarRun s q d res raw) := by simp [ccmStarRun]
@[simp] theorem createKey_optics (s : State) (q : SecSrc) (kind : Nat) (exportable : Bool) (key : List Byte) (salt : Option (List Byte)) :
    SameOptics s (createKey s q kind exportable key salt) := by unfold createKey; split <;> simp [makeKey]
@[simp] theorem countDraw_optics (s : State) : SameOptics s (countDraw s) := by simp [countDraw]
@[simp] theorem keyGenRun_optics (s : State) (q : SecSrc) (d : Desc) : SameOptics s (keyGenRun s q d) := by simp [keyGenRun]
@[simp] theorem keyLoadRun_optics (s : State) (q : SecSrc) (d : Desc) (res : XferResult) (raw : List Byte) :
    SameOptics s (keyLoadRun s q d res raw) :=
  withBlock_optics _ _ _ _ _ _ _ _ (fun t b => by simp)
@[simp] theorem keyImportRun_optics (s : State) (q : SecSrc) (d : Desc) (res : XferResult) (raw : List Byte) :
    SameOptics s (keyImportRun s q d res raw) :=
  withBlock_optics _ _ _ _ _ _ _ _ (fun t b => by simp)
@[simp] theorem keyExportRun_optics (s : State) (q : SecSrc) (d : Desc) (res : XferResult) (raw : List Byte) :
    SameOptics s (keyExportRun s q d res raw) :=
  withBlock_optics _ _ _ _ _ _ _ _ (fun t b => by simp)
@[simp] theorem keyDeriveRun_optics (s : State) (q : SecSrc) (d : Desc) : SameOptics s (keyDeriveRun s q d) := by simp [keyDeriveRun]
@[simp] theorem keyClearRun_optics (s : State) (q : SecSrc) (d : Desc) : SameOptics s (keyClearRun s q d) := by simp [keyClearRun]
@[simp] theorem keyInfoRun_optics (s : State) (q : SecSrc) (d : Desc) : SameOptics s (keyInfoRun s q d) := by simp [keyInfoRun]
@[simp] theorem secRun_optics (s : State) (q : SecSrc) (d : Desc) (res : XferResult) (raw : List Byte) : SameOptics s (secRun s q d res raw) := by
  unfold secRun; split <;> simp [cvRestoreRun, cvSaveRun, cvUpdateRun, randomRun]
@[simp] theorem portTurn_optics (n : Nat) (s : State) : SameOptics s (portTurn n s) := by
  induction n generalizing s with
  | zero => exact .refl s
  | succ n ih => unfold portTurn; (repeat' split) <;> simp [ih]
@[simp] theorem secCommand_optics (s : State) (q : SecSrc) (op : Nat) (res : XferResult) (raw : List Byte) :
    SameOptics s (secCommand s q op res raw) := by unfold secCommand; (repeat' split) <;> simp
@[simp] theorem verified_optics (s : State) (q : SecSrc) (dst : Nat) (out : List Byte) (ok : Bool) : SameOptics s (verified s q dst out ok) := by
  simp [verified]
@[simp] theorem blockDone_optics (s : State) (q : SecSrc) (d : Desc) (b : OpBlock) (data : List Byte) : SameOptics s (blockDone s q d b data) := by
  unfold blockDone; (repeat' split) <;> simp [sealedOut]
@[simp] theorem secCompleteOp_optics (s : State) (q : SecSrc) (res : XferResult) (data : List Byte) : SameOptics s (secCompleteOp s q res data) := by
  unfold secCompleteOp; (repeat' split) <;> simp [cvDone]
@[simp] theorem rerunOp_optics (s : State) (o : SecOp) : SameOptics s (rerunOp s o) := by unfold rerunOp; split <;> simp
@[simp] theorem coreFailOp_optics (s : State) (core : Nat) (chans : List Nat) (ops : List SecSrc) : SameOptics s (coreFailOp s core chans ops) := by
  simp [coreFailOp, sweepOps]
@[simp] theorem trngFailOp_optics (s : State) : SameOptics s (trngFailOp s) := by simp [trngFailOp]
@[simp] theorem clearKeys_optics (s : State) : SameOptics s (clearKeys s) := by simp [clearKeys]

/-! ### The radio (chapter 12) -/

@[simp] theorem radCount_optics (s : State) (i : Nat) : SameOptics s (radCount s i) := by simp [radCount]
@[simp] theorem chargeAll_optics (s : State) (ch : BitVec 11) (n : Nat) : SameOptics s (chargeAll s ch n) := by simp [chargeAll]
@[simp] theorem raiseRefused_optics (s : State) (b : Option Nat) : SameOptics s (raiseRefused s b) := by unfold raiseRefused; split <;> simp
@[simp] theorem radEnd_optics (s : State) (t : RadTx) (acked noAck stop : Bool) : SameOptics s (radEnd s t acked noAck stop) := by simp [radEnd]
@[simp] theorem radFail_optics (s : State) (t : RadTx) (ret : Outcome) (noAck stop : Bool) : SameOptics s (radFail s t ret noAck stop) := by
  simp [radFail]
@[simp] theorem tryAttempt_optics (s : State) (t : RadTx) (w : Work) : SameOptics s (tryAttempt s t w) := by
  unfold tryAttempt; dsimp only; (repeat' split) <;> simp [sendAttempt]
@[simp] theorem retryAttempt_optics (s : State) : SameOptics s (retryAttempt s) := by unfold retryAttempt; split <;> simp
@[simp] theorem releaseHeld_optics (s : State) : SameOptics s (releaseHeld s) := by unfold releaseHeld; split <;> simp
@[simp] theorem beginBackoff_optics (s : State) (t : RadTx) (nb be : Nat) : SameOptics s (beginBackoff s t nb be) := by simp [beginBackoff]
@[simp] theorem beginListen_optics (s : State) (t : RadTx) (n : Nat) : SameOptics s (beginListen s t n) := by simp [beginListen]
@[simp] theorem beginAccess_optics (s : State) (t : RadTx) (w : Work) : SameOptics s (beginAccess s t w) := by simp [beginAccess]
@[simp] theorem accessFails_optics (s : State) (t : RadTx) : SameOptics s (accessFails s t) := by simp [accessFails]
@[simp] theorem radFrameOp_optics (s : State) (seq : Word) (res : XferResult) (frame : List Byte) : SameOptics s (radFrameOp s seq res frame) := by
  unfold radFrameOp; (repeat' split) <;> simp
@[simp] theorem csmaOp_optics (s : State) (busy : Bool) : SameOptics s (csmaOp s busy) := by unfold csmaOp; (repeat' split) <;> simp
@[simp] theorem lbtOp_optics (s : State) (free : Bool) : SameOptics s (lbtOp s free) := by unfold lbtOp; (repeat' split) <;> simp
@[simp] theorem radioTxEndOp_optics (s : State) : SameOptics s (radioTxEndOp s) := by unfold radioTxEndOp; dsimp only; (repeat' split) <;> simp
@[simp] theorem radioAckOp_optics (s : State) (psdu : List Byte) (four : Bool) : SameOptics s (radioAckOp s psdu four) := by
  unfold radioAckOp; split <;> simp
@[simp] theorem radioAckTimeoutOp_optics (s : State) : SameOptics s (radioAckTimeoutOp s) := by unfold radioAckTimeoutOp; split <;> simp
@[simp] theorem setFcMin_optics (s : State) (i : Nat) (q : Word) : SameOptics s (setFcMin s i q) := by simp [setFcMin]
theorem radVerify_optics {s t : State} {h : MacHdr} {b : List Byte} {x : Option (List Byte × Nat)} (e : radVerify s h b = (t, x)) :
    SameOptics s t := by unfold radVerify at e; dsimp only at e; (repeat' split at e) <;> cases e <;> simp
@[simp] theorem radStore_optics (s : State) (f : RadRx) (b : List Byte) (secured : Bool) (idx : Nat) : SameOptics s (radStore s f b secured idx) := by
  simp [radStore]
@[simp] theorem radioRxOp_optics (s : State) (f : RadRx) : SameOptics s (radioRxOp s f) := by
  unfold radioRxOp
  split; · exact .refl s
  split; · simp
  split; · simp
  split; · simp
  split
  next e => exact radVerify_optics e
  next e => simp [radVerify_optics e]
@[simp] theorem radioAckTxOp_optics (s : State) : SameOptics s (radioAckTxOp s) := by unfold radioAckTxOp; split <;> simp
@[simp] theorem radioDeliverOp_optics (s : State) : SameOptics s (radioDeliverOp s) := by unfold radioDeliverOp; split <;> simp [popStored]
@[simp] theorem devCmd_optics (s : State) (who : Requester) (idx : BitVec 5) (f : Rad → Rad) : SameOptics s (devCmd s who idx f) := by
  unfold devCmd; split <;> simp
@[simp] theorem radOn_optics (s : State) : SameOptics s (radOn s) := by simp [radOn, govFill]
@[simp] theorem radCut_optics (s : State) : SameOptics s (radCut s) := by unfold radCut; split <;> simp
@[simp] theorem radOff_optics (s : State) : SameOptics s (radOff s) := by simp [radOff]
@[simp] theorem radFollow_optics (s : State) : SameOptics s (radFollow s) := by simp [radFollow]

/-! ### Boot (chapter 15) -/

@[simp] theorem boot_optics (s : State) : SameOptics s (boot s) := by simp [boot]
@[simp] theorem fwRestart_optics (s : State) : SameOptics s (fwRestart s) := by simp [fwRestart]
@[simp] theorem deriveCapsule_optics (s : State) : SameOptics s (deriveCapsule s) := by unfold deriveCapsule; (repeat' split) <;> simp
@[simp] theorem writeRecord_optics (s : State) (f : IdRec → IdRec) : SameOptics s (writeRecord s f) := by simp [writeRecord]

/-! ### Scheduling (chapter 09) -/

@[simp] theorem frameEmitted_optics (s : State) (c : Nat) (f : Frame) : SameOptics s (frameEmitted s c f) := by
  unfold frameEmitted; cases f.src <;> dsimp only <;> (repeat' split) <;> simp
@[simp] theorem countOverrun_optics (s : State) (c : Nat) : SameOptics s (countOverrun s c) := by simp [countOverrun]
@[simp] theorem placeBytes_optics (n : Nat) (s : State) (c : Nat) : SameOptics s (placeBytes n s c) := by
  induction n generalizing s with
  | zero => exact .refl s
  | succ n ih => unfold placeBytes; dsimp only; (repeat' split) <;> simp [ih]
@[simp] theorem placeAll_optics (s : State) (c : Nat) : SameOptics s (placeAll s c) := by simp [placeAll]
@[simp] theorem takeCore_optics (s : State) (c : Nat) : SameOptics s (takeCore s c) := by simp [takeCore]
@[simp] theorem selectDown_optics (s : State) (c prio : Nat) : SameOptics s (selectDown s c prio) := by
  unfold selectDown; dsimp only; (repeat' split) <;> simp
@[simp] theorem releaseUp_optics (s : State) (c : Nat) (f : Frame) : SameOptics s (releaseUp s c f) := by unfold releaseUp; split <;> simp
@[simp] theorem selectUp_optics (s : State) (c prio : Nat) : SameOptics s (selectUp s c prio) := by
  unfold selectUp; dsimp only; (repeat' split) <;> simp
@[simp] theorem gclSwapOp_optics (s : State) (c : Nat) : SameOptics s (gclSwapOp s c) := by simp [gclSwapOp]
@[simp] theorem clearHist_optics (s : State) (c : Nat) : SameOptics s (clearHist s c) := by simp [clearHist]

/-! ### The uplink (chapter 05) -/

@[simp] theorem driveTx_optics (s : State) : SameOptics s (driveTx s) := by simp [driveTx]
@[simp] theorem followSrc_optics (s : State) : SameOptics s (followSrc s) := by simp [followSrc]
@[simp] theorem setGate_optics (s : State) (g : GateSt) : SameOptics s (setGate s g) := by simp [setGate]
@[simp] theorem emitBurstWork_optics (cut : Bool) (s : State) (x : BurstWork) : SameOptics s (emitBurstWork cut s x) := by
  unfold emitBurstWork; split <;> simp
@[simp] theorem mapTcont_optics (s : State) (p : Frame → Frame) : SameOptics s (mapTcont s p) := by simp [mapTcont]
@[simp] theorem dropTcont_optics (s : State) (p : Frame → Bool) : SameOptics s (dropTcont s p) := by simp [dropTcont]
@[simp] theorem pauseAll_optics (s : State) : SameOptics s (pauseAll s) := by simp [pauseAll]
@[simp] theorem loseSeg_optics (st : Status) (s : State) (g : BurstSeg) : SameOptics s (loseSeg st s g) := by unfold loseSeg; split <;> simp
@[simp] theorem stopWindow_optics (s : State) (reached : Nat) (st : Status) : SameOptics s (stopWindow s reached st) := by
  unfold stopWindow; split <;> simp
@[simp] theorem restoreBurst_optics (s : State) (b : Burst) : SameOptics s (restoreBurst s b) := by unfold restoreBurst; split <;> simp [unplan]
@[simp] theorem countRefused_optics (s : State) : SameOptics s (countRefused s) := by simp [countRefused]
@[simp] theorem refuseAll_optics (s : State) : SameOptics s (refuseAll s) := by unfold refuseAll; dsimp only; split <;> simp [-List.foldl_reverse]
@[simp] theorem declareLods_optics (s : State) : SameOptics s (declareLods s) := by simp [declareLods]
@[simp] theorem takeEqd_optics (s : State) : SameOptics s (takeEqd s) := by unfold takeEqd; split <;> simp
@[simp] theorem countXgem_optics (s : State) : SameOptics s (countXgem s) := by simp [countXgem]
@[simp] theorem psyncMissOp_optics (s : State) : SameOptics s (psyncMissOp s) := by unfold psyncMissOp; (repeat' split) <;> simp
@[simp] theorem micFail_optics (s : State) : SameOptics s (micFail s) := by simp [micFail]
@[simp] theorem clearIds_optics (u : Upl) : (clearIds u).optics = u.optics := rfl
@[simp] theorem removeOmci_optics (u : Upl) : (removeOmci u).optics = u.optics := rfl
@[simp] theorem installOmci_optics (u : Upl) (id : BitVec 10) : (installOmci u id).optics = u.optics := by simp [installOmci]
@[simp] theorem portReadOp_optics (u : Upl) (idx : BitVec 10) : (portReadOp u idx).optics = u.optics := rfl
@[simp] theorem portWriteOp_optics (u : Upl) (idx : BitVec 10) : (portWriteOp u idx).optics = u.optics := by
  unfold portWriteOp; dsimp only; (repeat' split) <;> rfl
@[simp] theorem portClearOp_optics (u : Upl) (idx : BitVec 10) : (portClearOp u idx).optics = u.optics := by unfold portClearOp; split <;> rfl
@[simp] theorem syncMatch_optics (u : Upl) : (syncMatch u).optics = u.optics := by unfold syncMatch; split <;> rfl
@[simp] theorem pickPloam_optics (u : Upl) (first : Alloc) : (pickPloam u first).1.optics = u.optics := by
  unfold pickPloam; (repeat' split) <;> rfl
@[simp] theorem allocOp_optics (s : State) (id : BitVec 14) (add : Bool) : SameOptics s (allocOp s id add) := by
  unfold allocOp; (repeat' split) <;> simp
@[simp] theorem unassign_optics (s : State) : SameOptics s (unassign s) := by simp [unassign]
@[simp] theorem stopGate_optics (s : State) : SameOptics s (stopGate s) := by simp [stopGate]
@[simp] theorem disableOp_optics (s : State) (o : SnOrder) (hi lo : Word) : SameOptics s (disableOp s o hi lo) := by
  unfold disableOp; (repeat' split) <;> simp
@[simp] theorem onuStateOp_optics (s : State) (v : BitVec 4) : SameOptics s (onuStateOp s v) := by simp [onuStateOp, returnUplink]
@[simp] theorem xgemTake_optics (s : State) (e : PortEntry) (x : List Byte) (last : Bool) (t : Nat) : SameOptics s (xgemTake s e x last t) := by
  unfold xgemTake; dsimp only; (repeat' split) <;> simp [xgemFrame]
@[simp] theorem xgemOp_optics (s : State) (hdr : DWord) (pos hdrBit : Nat) (b : List Byte) : SameOptics s (xgemOp s hdr pos hdrBit b) := by
  unfold xgemOp; dsimp only; (repeat' split) <;> simp
@[simp] theorem userWrite_optics (s : State) (w : Option (Byte × List Byte)) : SameOptics s (userWrite s w) := by unfold userWrite; split <;> simp
@[simp] theorem rogueClearOp_optics (s : State) (sd : Bool) : SameOptics s (rogueClearOp s sd) := by simp [rogueClearOp]
@[simp] theorem queuePloams_optics (s : State) (l : List (List Byte)) : SameOptics s (queuePloams s l) := by simp [queuePloams]
theorem fixBurst_optics {s : State} {tds : Nat} {base : Int} {l : List Alloc} {rand : Nat} {u : Upl} {b : Burst}
    (e : fixBurst s tds base l rand = some (u, b)) : u.optics = s.upl.optics := by
  cases l with
  | nil => cases e
  | cons first t =>
    cases hprof : vget s.upl.profiles first.profile.val none with
    | none => simp [fixBurst, hprof] at e
    | some prof =>
      simp only [fixBurst, hprof, Option.ite_none_left_eq_some, Option.some.injEq, Prod.mk.injEq] at e
      obtain ⟨-, rfl, -⟩ := e
      simp
@[simp] theorem fixOp_optics (s : State) (tds : Nat) (allocs : List Alloc) : SameOptics s (fixOp s tds allocs) := by
  unfold fixOp; dsimp only
  split
  · exact .refl s
  split
  · simp
  next e => simp [fixBurst_optics e]
@[simp] theorem contentFixOp_optics (s : State) (tds : Nat) (allocs : List DWord) (ploams : List (List Byte)) :
    SameOptics s (contentFixOp s tds allocs ploams) := by simp [contentFixOp, iter_optics]
theorem openSegs_optics (b : Burst) (l : List BurstSeg) (x : State × List (Nat × List Byte) × List BurstSeg) :
    SameOptics x.1 (l.foldl (openSeg b) x).1 := by
  induction l generalizing x with
  | nil => exact .refl _
  | cons g l ih =>
    refine SameOptics.trans ?_ (ih _)
    unfold openSeg; (repeat' split) <;> simp
@[simp] theorem sendPloam_optics (s : State) (b : Burst) : SameOptics s (sendPloam s b) := by unfold sendPloam; split <;> simp
@[simp] theorem openBurst_optics (s : State) (b : Burst) : SameOptics s (openBurst s b) := by simp [openBurst, openSegs_optics]
@[simp] theorem maskBurst_optics (s : State) (b : Burst) : SameOptics s (maskBurst s b) := by
  unfold maskBurst; dsimp only
  split
  · simp
  split
  · simp
  next e => simpa using fixBurst_optics e
@[simp] theorem windowOpenOp_optics (s : State) : SameOptics s (windowOpenOp s) := by unfold windowOpenOp; split <;> simp
@[simp] theorem burstPtp_optics (s : State) (g : BurstSeg) : SameOptics s (burstPtp s g) := by unfold burstPtp; (repeat' split) <;> simp
@[simp] theorem burstWindowCloseOp_optics (s : State) : SameOptics s (windowCloseOp_ s) := by unfold windowCloseOp_; split <;> simp [leaveQueues]
@[simp] theorem rxOff_optics (s : State) : SameOptics s (rxOff s) := by simp [rxOff]
@[simp] theorem rxOnAgain_optics (s : State) : SameOptics s (rxOnAgain s) := by simp [rxOnAgain]
@[simp] theorem enterMode_optics (s : State) (m : PonMode) : SameOptics s (enterMode s m) := by unfold enterMode; split <;> simp
@[simp] theorem ponTimerOp_optics (s : State) (t : PonTimer) : SameOptics s (ponTimerOp s t) := by unfold ponTimerOp; (repeat' split) <;> simp
@[simp] theorem dyingGasp_optics (s : State) (onBattery : Bool) : SameOptics s (dyingGasp s onBattery) := by simp [dyingGasp]
@[simp] theorem dyingGaspEnd_optics (s : State) : SameOptics s (dyingGaspEnd s) := by simp [dyingGaspEnd]
@[simp] theorem cutUplink_optics (s : State) : SameOptics s (cutUplink s) := by unfold cutUplink; split <;> simp
@[simp] theorem uplSettled_optics (s : State) : SameOptics s (uplSettled s) := by simp [uplSettled]

/-! ### What a reset and the link leave (chapters 00, 02) -/

@[simp] theorem loseLink_optics (s : State) : SameOptics s (loseLink s) := by simp [loseLink]
@[simp] theorem resetConfig_optics (s : State) : SameOptics s (resetConfig s) := by simp [resetConfig]
@[simp] theorem endCapsule_optics (s : State) : SameOptics s (endCapsule s) := by unfold endCapsule; split <;> simp
@[simp] theorem wakeSource_optics (s : State) (code : Nat) : SameOptics s (wakeSource s code) := by unfold wakeSource; dsimp only; split <;> simp
@[simp] theorem tryResume_optics (s : State) : SameOptics s (tryResume s) := by simp [tryResume]
@[simp] theorem returnReset_optics (s : State) (r : RingNo) : SameOptics s (returnReset s r) := by simp [returnReset]

/-! ### Power states and domains (chapter 14) -/

@[simp] theorem keysOff_optics (s : State) : SameOptics s (keysOff s) := by simp [keysOff]
@[simp] theorem hifOff_optics (s : State) : SameOptics s (hifOff s) := by simp [hifOff]
@[simp] theorem lastStep_optics (s : State) : SameOptics s (lastStep s) := by unfold lastStep; dsimp only; (repeat' split) <;> simp
@[simp] theorem refuseEntry_optics (s : State) (why : Nat) : SameOptics s (refuseEntry s why) := by simp [refuseEntry]
@[simp] theorem stopFetch_optics (s : State) : SameOptics s (stopFetch s) := by simp [stopFetch]
@[simp] theorem pwrEnterOp_optics (s : State) (seq : Word) : SameOptics s (pwrEnterOp s seq) := by
  unfold pwrEnterOp; dsimp only; (repeat' split) <;> simp
@[simp] theorem pwrGoOp_optics (s : State) (toOff : Bool) : SameOptics s (pwrGoOp s toOff) := by unfold pwrGoOp; dsimp only; (repeat' split) <;> simp
@[simp] theorem wakeIf_optics (s : State) (bit code : Nat) : SameOptics s (wakeIf s bit code) := by simp [wakeIf]
@[simp] theorem lingerOp_optics (s : State) (d : Domain) : SameOptics s (lingerOp s d) := by unfold lingerOp; (repeat' split) <;> simp

/-! ### The supply watch (chapter 13) -/

@[simp] theorem closes_optics (s : State) (i : Nat) (c : Comp) (x : Crossing) : SameOptics s (closes s i c x) := by
  unfold closes; split <;> simp [closeDist]
@[simp] theorem tryUnshed_optics (s : State) : SameOptics s (tryUnshed s) := by simp [tryUnshed, unshed]
@[simp] theorem endSealShed_optics (s : State) : SameOptics s (endSealShed s) := by simp [endSealShed]
@[simp] theorem feedCross_optics (s0 : State) (x : Crossing) : SameOptics s0 (feedCross s0 x) := by
  unfold feedCross; (repeat' split) <;> simp [resumeInrush, pauseInrush]
@[simp] theorem sealStarts_optics (s : State) : SameOptics s (sealStarts s) := by simp [sealStarts]
@[simp] theorem startSeal_optics (s : State) (bat : Bool) : SameOptics s (startSeal s bat) := by simp [startSeal]
@[simp] theorem crossEffect_optics (s : State) (i : SupIn) (x : Crossing) (trip close : Bool) : SameOptics s (crossEffect s i x trip close) := by
  unfold crossEffect; (repeat' split) <;> simp [mainRestore, mainTrip]
@[simp] theorem sealDoneOp_optics (s : State) : SameOptics s (sealDoneOp s) := by simp [sealDoneOp]
@[simp] theorem endEntry_optics (s : State) : SameOptics s (endEntry s) := by simp [endEntry]
@[simp] theorem bmcOffOp_optics (s : State) (c : Nat) (on : Bool) : SameOptics s (bmcOffOp s c on) := by simp [bmcOffOp]

/-! ### Firmware and identity (chapter 15) -/

@[simp] theorem restartWdg_optics (s : State) (cp : Nat) : SameOptics s (restartWdg s cp) := by simp [restartWdg]
@[simp] theorem ptpDropOp_optics (s : State) : SameOptics s (ptpDropOp s) := by unfold ptpDropOp; split <;> simp
@[simp] theorem confirmSlot_optics (s : State) (k : Nat) : SameOptics s (confirmSlot s k) := by simp [confirmSlot]
@[simp] theorem rejectTrial_optics (s : State) (k : Nat) : SameOptics s (rejectTrial s k) := by simp [rejectTrial]
@[simp] theorem rollBack_optics (s : State) (k : Nat) : SameOptics s (rollBack s k) := by simp [rollBack]
@[simp] theorem confirmTimeoutOp_optics (s : State) : SameOptics s (confirmTimeoutOp s) := by unfold confirmTimeoutOp; split <;> simp
theorem readBuffer_optics {s t : State} {w : Work} {res : XferResult} (e : readBuffer s w res = .inl t ∨ readBuffer s w res = .inr t) :
    SameOptics s t := by
  unfold readBuffer at e; dsimp only at e
  (repeat' split at e) <;> obtain ⟨⟨⟩⟩ | ⟨⟨⟩⟩ := e <;> simp
@[simp] theorem programSlot_optics (s : State) (i off : Nat) (data : List Byte) : SameOptics s (programSlot s i off data) := by simp [programSlot]
@[simp] theorem fwStageOp_optics (s : State) (seq : Word) (res : XferResult) (data : List Byte) (sigOk : Bool) :
    SameOptics s (fwStageOp s seq res data sigOk) := by
  unfold fwStageOp; dsimp only
  split; · exact .refl s
  split; · simp
  split; · simp
  split; · simp
  split
  next e => exact readBuffer_optics (.inl e)
  next e => split <;> simp [readBuffer_optics (.inr e)]
@[simp] theorem restartAfter_optics (s : State) (seq : Word) : SameOptics s (restartAfter s seq) := by simp [restartAfter]
@[simp] theorem fwActivateOp_optics (s : State) (seq : Word) : SameOptics s (fwActivateOp s seq) := by unfold fwActivateOp; split <;> simp
@[simp] theorem fwConfirmOp_optics (s : State) (seq : Word) : SameOptics s (fwConfirmOp s seq) := by unfold fwConfirmOp; (repeat' split) <;> simp
@[simp] theorem fwFallbackOp_optics (s : State) (seq : Word) : SameOptics s (fwFallbackOp s seq) := by unfold fwFallbackOp; (repeat' split) <;> simp
@[simp] theorem slotFallbackOp_optics (s : State) : SameOptics s (slotFallbackOp s) := by unfold slotFallbackOp; dsimp only; (repeat' split) <;> simp
@[simp] theorem slotConfirmOp_optics (s : State) : SameOptics s (slotConfirmOp s) := by unfold slotConfirmOp; dsimp only; (repeat' split) <;> simp
@[simp] theorem revertOp_optics (s : State) : SameOptics s (revertOp s) := by simp [revertOp]
@[simp] theorem readSettings_optics (s : State) (h : ImageHdr) (parseOk : Bool) : SameOptics s (readSettings s h parseOk) := by
  unfold readSettings; dsimp only; (repeat' split) <;> simp [restrict]
@[simp] theorem giveRegId_optics (s : State) : SameOptics s (giveRegId s) := by unfold giveRegId; split <;> simp
@[simp] theorem handoverOp_optics (s : State) (positions : List (List Byte)) (parseOk : Bool) : SameOptics s (handoverOp s positions parseOk) := by
  unfold handoverOp; dsimp only; (repeat' split) <;> simp
@[simp] theorem capsuleApply_optics (s : State) (c : Capsule) (positions : List (List Byte)) : SameOptics s (capsuleApply s c positions) := by
  simp [capsuleApply, capsuleGen]
@[simp] theorem capsuleOp_optics (s : State) (seq : Word) (res : XferResult) (data : List Byte) (keys : SigKeys) (positions : List (List Byte)) :
    SameOptics s (capsuleOp s seq res data keys positions) := by
  unfold capsuleOp
  split
  next => exact .refl s
  split
  next => simp
  split
  next e => exact readBuffer_optics (.inl e)
  next e =>
    split
    next => exact .refl s
    next =>
      refine (readBuffer_optics (.inr e)).trans ?_
      dsimp only
      split <;> simp
@[simp] theorem fixProfile_optics (s : State) (p : BitVec 2) : SameOptics s (fixProfile s p) := by simp [fixProfile]
@[simp] theorem identityOp_optics (s : State) (a b : List Byte) : SameOptics s (identityOp s a b) := by
  unfold identityOp; dsimp only; (repeat' split) <;> simp

/-! ### Event counters (chapter 16) -/

@[simp] theorem evtSoftOp_optics (s : State) (v : Word) : SameOptics s (evtSoftOp s v) := by simp [evtSoftOp]
@[simp] theorem setCounter_optics (s : State) (k : CntSel) (x : Counter) : SameOptics s (setCounter s k x) := by unfold setCounter; split <;> simp
@[simp] theorem counterCfgOp_optics (s : State) (who : Requester) (k : CntSel) (v : Word) : SameOptics s (counterCfgOp s who k v) := by
  simp [counterCfgOp]

/-! ### Line signal (chapter 06) -/

@[simp] theorem toPhase_optics (s : State) (c p : Nat) : SameOptics s (toPhase s c p) := by simp [toPhase]
@[simp] theorem phaseEnd_optics (s : State) (c : Nat) (r : PhaseResult) : SameOptics s (phaseEnd s c r) := by
  unfold phaseEnd; dsimp only; (repeat' split) <;> simp [goService, takeEstimate, beginHandshake]
@[simp] theorem countSat_optics (s : State) (c multiply other : Nat) : SameOptics s (countSat s c multiply other) := by simp [countSat]
@[simp] theorem sendSymbol_optics (s : State) (c k : Nat) (tones : List (Nat × Nat × Nat)) : SameOptics s (sendSymbol s c k tones) := by
  simp [sendSymbol]
@[simp] theorem sendSync_optics (s : State) (c : Nat) : SameOptics s (sendSync s c) := by simp [sendSync]
@[simp] theorem sendTraining_optics (s : State) (c : Nat) : SameOptics s (sendTraining s c) := by simp [sendTraining]
@[simp] theorem takeSamples_optics (s : State) (c : Nat) (adc : List (List (BitVec 14))) : SameOptics s (takeSamples s c adc) := by simp [takeSamples]

/-! ### Line framing (chapter 07) -/

@[simp] theorem sendSlots_optics (c n : Nat) (s : State) : SameOptics s (sendSlots c n s) := by
  induction n generalizing s with
  | zero => exact .refl s
  | succ n ih => simp [sendSlots, ih]
@[simp] theorem pump_optics (s : State) (c : Nat) : SameOptics s (pump s c) := by simp [pump]
@[simp] theorem putDtu_optics (s : State) (c : Nat) (b : List Byte) : SameOptics s (putDtu s c b) := by simp [putDtu]
@[simp] theorem dtuCloseOp_optics (s0 : State) (c : Nat) : SameOptics s0 (dtuCloseOp s0 c) := by
  unfold dtuCloseOp; dsimp only; (repeat' split) <;> simp [closeData, endEmissions, ptpClose]
@[simp] theorem closeDue_optics (c n : Nat) (s : State) : SameOptics s (closeDue c n s) := by
  induction n generalizing s with
  | zero => exact .refl s
  | succ n ih => simp [closeDue, ih]
@[simp] theorem takeSeg_optics (c : Nat) (slots : List Nat) (s : State) (g : Seg) : SameOptics s (takeSeg c slots s g) := by
  unfold takeSeg; dsimp only; (repeat' split) <;> simp [brokenPiece]
@[simp] theorem releaseAll_optics (s : State) (c : Nat) : SameOptics s (releaseAll s c) := by simp [releaseAll, releaseDtu]
@[simp] theorem serveNack_optics (c fcnt : Nat) (s : State) (q : Half) : SameOptics s (serveNack c fcnt s q) := by
  unfold serveNack; dsimp only; (repeat' split) <;> simp
@[simp] theorem receiveFrame_optics (s : State) (c : Nat) (words : List (List Byte)) : SameOptics s (receiveFrame s c words) := by
  unfold receiveFrame; dsimp only; (repeat' split) <;> simp [overheadOp, badOverhead]
theorem assembleRing_optics {c i n fuel : Nat} {s t : State} {x : Option (List Byte)} (e : assembleRing c i n fuel s = (t, x)) : SameOptics s t := by
  induction fuel generalizing s with
  | zero => cases e; exact .refl _
  | succ fuel ih =>
    unfold assembleRing at e; dsimp only at e
    split at e
    · cases e; exact .refl _
    split at e
    · exact SameOptics.trans (by simp) (ih e)
    · cases e; exact .refl _
    · cases e
      (repeat' split) <;> simp
@[simp] theorem countSlip_optics (s : State) (c i : Nat) (tx : Bool) : SameOptics s (countSlip s c i tx) := by simp [countSlip]
@[simp] theorem tribAssemble_optics (s : State) (c i : Nat) (pcmIn : List (List Bool)) : SameOptics s (tribAssemble s c i pcmIn) := by
  unfold tribAssemble; dsimp only; (repeat' split)
  case h_1 e => simp [assembleRing_optics e]
  case h_2 e => simp [assembleRing_optics e]
  all_goals simp
@[simp] theorem fillBlock_optics (s : State) (c i : Nat) (x : Word × List Byte) (data : List Byte) : SameOptics s (fillBlock s c i x data) := by
  unfold fillBlock; dsimp only; (repeat' split) <;> simp
@[simp] theorem tribDeliver_optics (s : State) (c i : Nat) : SameOptics s (tribDeliver s c i) := by
  unfold tribDeliver; dsimp only; (repeat' split) <;> simp
@[simp] theorem tribFrame_optics (c : Nat) (pcmIn : List (List Bool)) (s : State) (i : Nat) : SameOptics s (tribFrame c pcmIn s i) := by
  simp [tribFrame]
@[simp] theorem tribIdleFrame_optics (c : Nat) (s : State) (i : Nat) : SameOptics s (tribIdleFrame c s i) := by simp [tribIdleFrame]
@[simp] theorem tribBlockOp_optics (s : State) (r : RingNo) (seq : Word) (res : XferResult) (data : List Byte) :
    SameOptics s (tribBlockOp s r seq res data) := by unfold tribBlockOp; dsimp only; (repeat' split) <;> simp
@[simp] theorem econEntry_optics (s : State) (c : Nat) : SameOptics s (econEntry s c) := by unfold econEntry; split <;> simp [goEconomy]
@[simp] theorem econLeave_optics (s : State) (c : Nat) : SameOptics s (econLeave s c) := by unfold econLeave; split <;> simp [leaveEconomy]
@[simp] theorem econSwitch_optics (s : State) (c : Nat) : SameOptics s (econSwitch s c) := by simp [econSwitch]
@[simp] theorem pmFrame_optics (s : State) (c : Nat) : SameOptics s (pmFrame s c) := by simp [pmFrame]
@[simp] theorem beginFrame_optics (s : State) (c : Nat) (rx : FrameRx) : SameOptics s (beginFrame s c rx) := by simp [beginFrame]
@[simp] theorem endFrame_optics (s : State) (c : Nat) (rx : FrameRx) : SameOptics s (endFrame s c rx) := by simp [endFrame, closeRest]

/-! ### The management port (chapter 16) -/

@[simp] theorem portErr_optics (s : State) (e : PortErr) : SameOptics s (portErr s e) := by simp [portErr]
@[simp] theorem headerCommit_optics (s : State) (uses : Option Nat) : SameOptics s (headerCommit s uses) := by unfold headerCommit; split <;> simp
@[simp] theorem readHeader_optics (s : State) (a : Nat) : SameOptics s (readHeader s a) := by simp [readHeader, header]
@[simp] theorem writeHeader_optics (s : State) (a : Nat) : SameOptics s (writeHeader s a) := by simp [writeHeader, header]
@[simp] theorem armHeader_optics (s : State) (a : Nat) : SameOptics s (armHeader s a) := by simp [armHeader, header]
@[simp] theorem unknownHeader_optics (s : State) (hdr : Word) : SameOptics s (unknownHeader s hdr) := by simp [unknownHeader, header]
@[simp] theorem portValue_optics (s : State) (off : Nat) : SameOptics s (portValue s off).2 := by
  unfold portValue; dsimp only; (repeat' split) <;> exact .refl s
@[simp] theorem portRead_optics (s : State) (a : Nat) : SameOptics s (portRead s a) := by unfold portRead; dsimp only; (repeat' split) <;> simp
@[simp] theorem armedWrite_optics (s : State) (r : ArmedReg) (v : Word) : SameOptics s (armedWrite s r v) := by unfold armedWrite; split <;> simp
@[simp] theorem armedFirst_optics (s : State) (a : Nat) (v : Word) : SameOptics s (armedFirst s a v) := by unfold armedFirst; split <;> simp
@[simp] theorem dataWordOp_optics (s : State) (v : Word) : SameOptics s (dataWordOp s v) := by unfold dataWordOp; (repeat' split) <;> simp [portWrite]

/-! ### Resets (R17, R20) -/

@[simp] theorem revertIdentity_optics (s : State) : SameOptics s (revertIdentity s) := by unfold revertIdentity; dsimp only; (repeat' split) <;> simp

/-! ### Register writes (chapter 17) -/

@[simp] theorem stage_optics (s : State) (off : Nat) (v : Word) : SameOptics s (stage s off v) := by simp [stage]
@[simp] theorem lockAllOp_optics (s : State) : SameOptics s (lockAllOp s) := .refl s
@[simp] theorem nextOp_optics (s : State) (v : Word) : SameOptics s (nextOp s v) := by simp [nextOp]
@[simp] theorem floorOp_optics (s : State) (v : Word) : SameOptics s (floorOp s v) := by simp [floorOp]
@[simp] theorem writePwr_optics (s : State) (who : Requester) (off : Nat) (v : Word) : SameOptics s (writePwr s who off v) := by
  unfold writePwr; dsimp only; split <;> simp [pfWrite_eq_ite]
@[simp] theorem ringStatWrite_optics (s : State) (r : Nat) (v : Word) : SameOptics s (ringStatWrite s r v) := by simp [ringStatWrite]
@[simp] theorem ringRegWrite_optics (s : State) (off r o : Nat) (v : Word) : SameOptics s (ringRegWrite s off r o v) := by
  unfold ringRegWrite; dsimp only; split <;> simp [takeHigh]
@[simp] theorem msixWrite_optics (s : State) (f o : Nat) (v : Word) : SameOptics s (msixWrite s f o v) := by
  unfold msixWrite; dsimp only; (repeat' split) <;> simp
@[simp] theorem chtabBaseHigh_optics (s : State) (off : Nat) (v : Word) : SameOptics s (chtabBaseHigh s off v) := by simp [chtabBaseHigh, takeHigh]
@[simp] theorem windowWrite_optics (s : State) (off f w o : Nat) (v : Word) : SameOptics s (windowWrite s off f w o v) := by
  unfold windowWrite; dsimp only; split <;> simp [lockWrite, takeHigh]
@[simp] theorem writeHif_optics (s : State) (who : Requester) (off : Nat) (v : Word) : SameOptics s (writeHif s who off v) := by
  simp [writeHif, pfWrite_eq_ite, lockWrite]
@[simp] theorem ledgCtlOp_optics (s : State) (v : Word) : SameOptics s (ledgCtlOp s v) := by simp [ledgCtlOp]
@[simp] theorem writeLedg_optics (s : State) (off : Nat) (v : Word) : SameOptics s (writeLedg s off v) := by
  unfold writeLedg; dsimp only; split <;> simp [takeHigh]
@[simp] theorem datumCtlOp_optics (s : State) (v : Word) : SameOptics s (datumCtlOp s v) := by simp [datumCtlOp]
@[simp] theorem tddOp_optics (s : State) (v : Word) : SameOptics s (tddOp s v) := by simp [tddOp]
@[simp] theorem writeTime_optics (s : State) (who : Requester) (off : Nat) (v : Word) : SameOptics s (writeTime s who off v) := by
  unfold writeTime; dsimp only; split <;> simp [pfWrite_eq_ite]
@[simp] theorem gateFwOp_optics (s : State) (v : Word) : SameOptics s (gateFwOp s v) := by simp [gateFwOp]
@[simp] theorem portCmdOp_optics (s : State) (who : Requester) (v : Word) : SameOptics s (portCmdOp s who v) := by unfold portCmdOp; split <;> simp
@[simp] theorem writeUpl_optics (s : State) (who : Requester) (off : Nat) (v : Word) : SameOptics s (writeUpl s who off v) := by
  unfold writeUpl; dsimp only; split <;> simp [uplLocked, pfWrite_eq_ite, lockWrite, fwWrite, takeHigh]
@[simp] theorem ftCmdOp_optics (s : State) (p : Nat) (v : Word) : SameOptics s (ftCmdOp s p v) := by unfold ftCmdOp; split <;> simp
@[simp] theorem writeXc_optics (s : State) (who : Requester) (off : Nat) (v : Word) : SameOptics s (writeXc s who off v) := by simp [writeXc]
@[simp] theorem writeSec_optics (s : State) (who : Requester) (off : Nat) (v : Word) : SameOptics s (writeSec s who off v) := by
  unfold writeSec; split <;> simp [pfWrite_eq_ite, lockWrite]
@[simp] theorem radCtlOp_optics (s : State) (v : Word) : SameOptics s (radCtlOp s v) := by simp [radCtlOp]
@[simp] theorem radAccessOp_optics (s : State) (v : Word) : SameOptics s (radAccessOp s v) := by
  unfold radAccessOp
  exact ⟨congrArg Upl.optics (setRad_upl s _), congrArg Pwr.optics (setRad_pwr s _)⟩
@[simp] theorem govWrite_optics (s : State) (b o : Nat) (v : Word) : SameOptics s (govWrite s b o v) := by simp [govWrite]
@[simp] theorem devCmdOp_optics (s : State) (v : Word) : SameOptics s (devCmdOp s v) := by simp [devCmdOp]
@[simp] theorem writeRad_optics (s : State) (who : Requester) (off : Nat) (v : Word) : SameOptics s (writeRad s who off v) := by
  simp [writeRad, radLocked, pfWrite_eq_ite, lockWrite, fwWrite, takeHigh]
@[simp] theorem auxOp_optics (s : State) (v : Word) : SameOptics s (auxOp s v) := by simp [auxOp]
@[simp] theorem writeSup_optics (s : State) (who : Requester) (off : Nat) (v : Word) : SameOptics s (writeSup s who off v) := by
  unfold writeSup; split <;> simp [supLocked, pfWrite_eq_ite, lockWrite]
@[simp] theorem routeOp_optics (s : State) (i : Nat) (v : Word) : SameOptics s (routeOp s i v) := by simp [routeOp]
@[simp] theorem writeEvt_optics (s : State) (who : Requester) (off : Nat) (v : Word) : SameOptics s (writeEvt s who off v) := by
  simp [writeEvt, pfWrite_eq_ite, fwWrite]
@[simp] theorem fwStatWrite_optics (s : State) (who : Requester) (off : Nat) (v : Word) : SameOptics s (fwStatWrite s who off v) := by
  unfold fwStatWrite; split <;> simp
@[simp] theorem kickOp_optics (s : State) (who : Requester) (v : Word) : SameOptics s (kickOp s who v) := by unfold kickOp; split <;> simp
@[simp] theorem writeFw_optics (s : State) (who : Requester) (off : Nat) (v : Word) : SameOptics s (writeFw s who off v) := by
  unfold writeFw; dsimp only; split <;> simp [pfWrite_eq_ite, fwWrite]
@[simp] theorem writeMgt_optics (s : State) (who : Requester) (off : Nat) (v : Word) : SameOptics s (writeMgt s who off v) := by
  simp [writeMgt, pfWrite_eq_ite]
@[simp] theorem shadowOp_optics (s : State) (c : Nat) (f : Gcl → GclBank → GclBank) : SameOptics s (shadowOp s c f) := by simp [shadowOp]
@[simp] theorem gclCtlOp_optics (s : State) (c : Nat) (v : Word) : SameOptics s (gclCtlOp s c v) := by simp [gclCtlOp]
@[simp] theorem writeChan_optics (s : State) (who : Requester) (off c o : Nat) (v : Word) : SameOptics s (writeChan s who off c o v) := by
  simp [writeChan, pfWrite_eq_ite, fwWrite]

/-! ### What lets no diagnostic become VALID -/

/-- The diagnostics with none VALID, as a reset leaves them. -/
def noDiags : Vector (Bool × Half) 5 := Vector.replicate 5 (false, 0)

theorem vget_noDiags (i : Fin 5) : vget noDiags i.val (false, 0) = (false, 0) := by revert i; decide

/-- While the module is absent or the uplink's domain is off, no diagnostic is VALID. -/
def QuietDiags (u : Bool × Vector (Bool × Half) 5) (p : Bool × Bool) : Prop :=
  (u.1 = true ∨ p.2 = false) → ∀ i : Fin 5, (vget u.2 i.val (false, 0)).1 = false

theorem noDiagWhileAbsent_iff (s : State) :
    NoDiagWhileAbsent s ↔ (s.pwr.testEn = true → s.pwr.domUpl = false) ∧ QuietDiags s.upl.optics s.pwr.optics := Iff.rfl

theorem quietDiags_noDiags (a : Bool) (p : Bool × Bool) : QuietDiags (a, noDiags) p := fun _ i => congrArg Prod.fst (vget_noDiags i)

/-- From s to t the diagnostics stay quiet if they were, TEST_EN stays, and the uplink's domain does not come on. -/
def Calms (s t : State) : Prop :=
  (QuietDiags s.upl.optics s.pwr.optics → QuietDiags t.upl.optics t.pwr.optics) ∧ t.pwr.optics.1 = s.pwr.optics.1 ∧
    (s.pwr.optics.2 = false → t.pwr.optics.2 = false)

theorem SameOptics.calms {s t : State} (h : SameOptics s t) : Calms s t := by
  obtain ⟨hu, hp⟩ := h
  simp [Calms, hu, hp]

theorem Calms.trans {s t u : State} (h : Calms s t) (k : Calms t u) : Calms s u := by
  obtain ⟨hquiet, htest, hoff⟩ := h
  obtain ⟨kquiet, ktest, koff⟩ := k
  exact ⟨kquiet ∘ hquiet, ktest.trans htest, koff ∘ hoff⟩

theorem Calms.refl (s : State) : Calms s s := (SameOptics.refl s).calms

theorem Calms.noDiagWhileAbsent {s t : State} (h : Calms s t) (hs : NoDiagWhileAbsent s) : NoDiagWhileAbsent t := by
  obtain ⟨hquiet, htest, hoff⟩ := h
  obtain ⟨held, quiet⟩ := (noDiagWhileAbsent_iff s).1 hs
  exact (noDiagWhileAbsent_iff t).2 ⟨fun e => hoff (held (htest.symm.trans e)), hquiet quiet⟩

/-- From s to t the diagnostics are cleared, and the rest stays. -/
@[simp] abbrev DiagsCleared (s t : State) : Prop := t.upl.optics = (s.upl.optics.1, noDiags) ∧ t.pwr.optics = s.pwr.optics

/-- From s to t the diagnostics are cleared, and the uplink's domain is off. -/
@[simp] abbrev UplinkOff (s t : State) : Prop := t.upl.optics = (s.upl.optics.1, noDiags) ∧ t.pwr.optics = (s.pwr.optics.1, false)

theorem DiagsCleared.calms {s t : State} (h : DiagsCleared s t) : Calms s t := by
  obtain ⟨hu, hp⟩ := h
  exact ⟨fun _ => hu ▸ quietDiags_noDiags _ _, by rw [hp], by rw [hp]; exact id⟩

theorem UplinkOff.calms {s t : State} (h : UplinkOff s t) : Calms s t := by
  obtain ⟨hu, hp⟩ := h
  exact ⟨fun _ => hu ▸ quietDiags_noDiags _ _, by rw [hp], fun _ => by rw [hp]⟩

theorem foldl_calms {α : Type} {f : State → α → State} (h : ∀ s a, Calms s (f s a)) (l : List α) (s : State) : Calms s (l.foldl f s) := by
  induction l generalizing s with
  | nil => exact .refl s
  | cons a l ih => exact (h s a).trans (ih _)

/-! ### Resets (R17, R20, R115) -/

@[simp] theorem uplRestart_optics (u : Upl) : (uplRestart u).optics = (u.optics.1, noDiags) := rfl

@[simp] theorem uplKept_optics (u : Upl) : (uplKept u).optics = (u.optics.1, noDiags) := rfl

theorem powerOnOp_uplinkOff (s : State) : UplinkOff s (powerOnOp s) := ⟨rfl, rfl⟩

@[simp] theorem clearDevice_optics (s : State) (code : Nat) : DiagsCleared s (clearDevice s code) := by simp [clearDevice]

@[simp] theorem resetDevice_optics (s : State) (c : ResetCause) : DiagsCleared s (resetDevice s c) := by simp [resetDevice, cutAll]

theorem deviceReset_calms (s : State) (c : ResetCause) : Calms s (deviceReset s c) := by
  unfold deviceReset
  split
  · exact .refl s
  · exact DiagsCleared.calms (resetDevice_optics s c)

theorem resetCause_calms (s : State) (c : ResetCause) : Calms s (resetCause s c) := by
  unfold resetCause
  split
  · exact SameOptics.calms (by simp)
  · exact deviceReset_calms s c

theorem busReset_calms (s : State) (c : ResetCause) : Calms s (busReset s c) := by
  have link : Calms s (resetConfig (loseLink s)) := SameOptics.calms (by simp)
  unfold busReset; dsimp only
  split
  · exact link
  · exact link.trans (resetCause_calms _ c)

theorem hostResetOp_calms (s : State) (key : Word) : Calms s (hostResetOp s key) := by
  unfold hostResetOp
  split
  · exact .refl s
  split
  · exact SameOptics.calms (by simp)
  · exact deviceReset_calms s _

theorem watchdogOp_calms (s : State) (cp : Nat) : Calms s (watchdogOp s cp) := by
  unfold watchdogOp
  split
  · exact .refl s
  split
  · exact Calms.trans (SameOptics.calms (by simp)) (resetCause_calms _ .watchdog)
  · exact SameOptics.calms (by simp)

/-! ### Domains switched off (R306, Table 14.9) -/

theorem uplOff_optics (s : State) : UplinkOff s (uplOff s) := by
  have hp : (cutUplink (dyingGaspEnd s)).pwr.optics = s.pwr.optics := by simp
  refine ⟨by simp [uplOff], ?_⟩
  simp only [uplOff, uplSettled_optics, modPwr_pwr, Pwr.optics_mk]
  exact congrArg (fun p => (p.1, false)) hp

theorem switchOff_optics (s : State) {d : Domain} (h : d ≠ .upl) : SameOptics s (switchOff s d) := by
  unfold switchOff
  split
  · cases d with
    | upl => exact absurd rfl h
    | _ => simp [coreOff, halfOff, islandOff]
  · exact .refl s

theorem switchOff_calms (s : State) (d : Domain) : Calms s (switchOff s d) := by
  by_cases h : d = .upl
  · subst h
    unfold switchOff
    split
    · exact UplinkOff.calms (uplOff_optics s)
    · exact .refl s
  · exact SameOptics.calms (switchOff_optics s h)

theorem switchOff_upl_off (s : State) : (switchOff s .upl).pwr.optics.2 = false := by
  unfold switchOff
  split
  · rw [(uplOff_optics s).2]
  next h =>
    show s.pwr.domUpl = false
    simpa [domOn] using h

theorem downAction_calms (s : State) (k : Nat) : Calms s (downAction s k) := by
  unfold downAction
  split
  case h_6 => exact switchOff_calms s _
  all_goals exact SameOptics.calms (by simp)

theorem downFrom_calms (n : Nat) (s : State) (k : Nat) : Calms s (downFrom n s k) := by
  induction n generalizing s k with
  | zero => exact .refl s
  | succ n ih =>
    unfold downFrom
    split
    · exact downAction_calms s _
    split
    · exact Calms.trans (SameOptics.calms (by simp)) (ih _ _)
    · exact (downAction_calms s k).trans (SameOptics.calms (by simp))

theorem startPowerDown_calms (s : State) (toOff : Bool) : Calms s (startPowerDown s toOff) :=
  Calms.trans (SameOptics.calms (by simp)) (downFrom_calms _ _ _)

theorem powerDownNext_calms (s : State) : Calms s (powerDownNext s) :=
  Calms.trans (SameOptics.calms (by simp)) (downFrom_calms _ _ _)

theorem railCollapseOp_calms (s : State) (r : Rail) : Calms s (railCollapseOp s r) := by
  unfold railCollapseOp
  split
  · have noted : Calms s (modPwr s (fun p => { p with collapsed := r :: p.collapsed })) := SameOptics.calms (by simp)
    have isolated := noted.trans (foldl_calms switchOff_calms (railDomains r) _)
    exact (isolated.trans (SameOptics.calms (by simp))).trans (powerDownNext_calms _)
  · exact .refl s

theorem railTimeoutOp_calms (s : State) : Calms s (railTimeoutOp s) := by
  unfold railTimeoutOp; dsimp only
  split
  · exact (foldl_calms switchOff_calms [.rad, .feed, .upl, .core, .hif] s).trans (SameOptics.calms (by simp))
  · exact .refl s

theorem pmeTurnOffOp_calms (s : State) : Calms s (pmeTurnOffOp s) := by
  unfold pmeTurnOffOp
  split
  · exact Calms.trans (SameOptics.calms (by simp)) (startPowerDown_calms _ _)
  · exact .refl s

theorem afterSeal_calms (s : State) (held : Option ResetCause) : Calms s (afterSeal s held) := by
  unfold afterSeal
  split
  next c => exact (deviceReset_calms s c).trans (SameOptics.calms (by simp))
  · split <;> exact SameOptics.calms (by simp)

theorem sealCompleteOp_calms (s : State) : Calms s (sealCompleteOp s) := by
  have done : Calms s (sealDoneOp s) := SameOptics.calms (by simp)
  unfold sealCompleteOp; dsimp only
  split
  · exact .refl s
  split
  case h_4 =>
    split
    · exact done.trans (afterSeal_calms _ _)
    · exact done.trans (startPowerDown_calms _ _)
  all_goals exact done

/-! ### The domains switched on, and TEST_EN (R323, R396) -/

theorem QuietDiags.of_off {u : Bool × Vector (Bool × Half) 5} {p : Bool × Bool} (h : QuietDiags u p) (hoff : p.2 = false) (q : Bool × Bool) :
    QuietDiags u q := fun _ => h (.inr hoff)

theorem QuietDiags.of_on {u : Bool × Vector (Bool × Half) 5} {p q : Bool × Bool} (h : QuietDiags u p) (hon : q.2 = true) : QuietDiags u q :=
  fun e => h (.inl (e.resolve_right (by simp [hon])))

theorem upAction_optics (s : State) {k : Nat} (h : k ≠ 8) : SameOptics s (upAction s k) := by
  unfold upAction
  split
  case h_6 => exact absurd rfl h
  all_goals simp [coreStart]

theorem upAction_upl_optics (s : State) : (upAction s 8).upl.optics = s.upl.optics ∧ (upAction s 8).pwr.optics = (s.pwr.testEn, !s.pwr.testEn) := by
  simp [upAction, endWake]

/-- The step that switches the uplink's domain on does so while TEST_EN is low. -/
theorem upAction_noDiagWhileAbsent {s : State} (hs : NoDiagWhileAbsent s) (k : Nat) : NoDiagWhileAbsent (upAction s k) := by
  by_cases hk : k = 8
  · subst hk
    obtain ⟨hu, hp⟩ := upAction_upl_optics s
    obtain ⟨held, quiet⟩ := (noDiagWhileAbsent_iff s).1 hs
    refine (noDiagWhileAbsent_iff _).2 ⟨fun htest => ?_, ?_⟩
    · have same : (upAction s 8).pwr.testEn = s.pwr.testEn := congrArg Prod.fst hp
      exact (congrArg Prod.snd hp).trans (by simp [← same, htest])
    · rw [hu, hp]
      cases htest : s.pwr.testEn with
      | true => exact quiet.of_off (held htest) _
      | false => exact quiet.of_on rfl
  · exact (SameOptics.calms (upAction_optics s hk)).noDiagWhileAbsent hs

theorem powerUpOp_noDiagWhileAbsent {s : State} (hs : NoDiagWhileAbsent s) : NoDiagWhileAbsent (powerUpOp s) := by
  unfold powerUpOp; dsimp only
  split
  · exact hs
  · exact upAction_noDiagWhileAbsent ((SameOptics.calms (by simp)).noDiagWhileAbsent hs) _

theorem holdDomains_calms (s : State) : Calms s (holdDomains s) := (busReset_calms s _).trans (foldl_calms switchOff_calms _ _)

theorem holdDomains_off (s : State) : (holdDomains s).pwr.optics.2 = false := by
  simp only [holdDomains, List.foldl_cons, List.foldl_nil, (switchOff_optics _ (show Domain.hif ≠ .upl by decide)).2,
    (switchOff_optics _ (show Domain.core ≠ .upl by decide)).2, switchOff_upl_off]

theorem releaseDomains_optics (s : State) : (releaseDomains s).upl.optics = s.upl.optics ∧ (releaseDomains s).pwr.testEn = s.pwr.testEn := by
  have test : (releaseDomains s).pwr.optics.1 = s.pwr.optics.1 := by
    unfold releaseDomains
    split
    case h_4 => simp only [feedPower_optics, uplSettled_optics, ite_optics, boot_optics, modPwr_pwr, Pwr.optics_mk, ite_self]; rfl
    all_goals rfl
  refine ⟨?_, test⟩
  unfold releaseDomains
  split <;> simp

theorem testEnOp_rise {s : State} (h : s.pwr.testEn = false) : testEnOp s true = holdDomains (modPwr s (fun p => { p with testEn := true })) := by
  simp [testEnOp, h]

theorem testEnOp_fall {s : State} (h : s.pwr.testEn = true) : testEnOp s false = releaseDomains (modPwr s (fun p => { p with testEn := false })) := by
  simp [testEnOp, h]

theorem testEnOp_same (s : State) : testEnOp s s.pwr.testEn = s := by
  unfold testEnOp; dsimp only
  split
  · simp_all
  · simp_all
  · rfl

/-- A rise of TEST_EN switches the uplink's domain off; at its fall that domain was off, and no diagnostic is VALID. -/
theorem testEnOp_noDiagWhileAbsent {s : State} (hs : NoDiagWhileAbsent s) (level : Bool) : NoDiagWhileAbsent (testEnOp s level) := by
  obtain ⟨held, quiet⟩ := (noDiagWhileAbsent_iff s).1 hs
  cases hlevel : level <;> cases htest : s.pwr.testEn
  case true.false =>
    rw [testEnOp_rise htest]
    exact (noDiagWhileAbsent_iff _).2 ⟨fun _ => holdDomains_off _, (holdDomains_calms _).1 quiet⟩
  case false.true =>
    rw [testEnOp_fall htest]
    obtain ⟨hu, hp⟩ := releaseDomains_optics (modPwr s (fun p => { p with testEn := false }))
    refine (noDiagWhileAbsent_iff _).2 ⟨fun e => ?_, ?_⟩
    · rw [hp] at e; cases e
    · rw [hu]; exact quiet.of_off (held htest) _
  all_goals
    rw [← htest, testEnOp_same]
    exact hs

/-! ### The module and its readings (R105, R385, R402) -/

theorem vget_vmapIdx_diag (f : Nat → Bool × Half → Bool × Half) (v : Vector (Bool × Half) 5) (i : Fin 5) :
    vget (vmapIdx f v) i.val (false, 0) = f i.val (vget v i.val (false, 0)) := by
  rw [vget_vmapIdx, if_pos i.isLt]

/-- UPL_OPT_DIAG_i shows VALID and VALUE of diagnostic i (R385). -/
theorem readReg_diag (s : State) (i : Fin 5) : readReg s (0x60054 + 4 * i.val) =
    word (flagAt (vget s.upl.diag i.val (false, 0)).1 31 + (vget s.upl.diag i.val (false, 0)).2.toNat) := by
  fin_cases i <;> rfl

theorem word_diag_valid_clear (v : Half) : (word (flagAt false 31 + v.toNat)).getLsbD 31 = false := by
  have := v.isLt
  simp only [word, flagAt, BitVec.getLsbD_ofNat]
  simp [Nat.testBit_lt_two_pow (show v.toNat < 2 ^ 31 by omega)]

theorem readReg_diag_of_invalid {s : State} {i : Fin 5} (h : (vget s.upl.diag i.val (false, 0)).1 = false) :
    (readReg s (0x60054 + 4 * i.val)).getLsbD 31 = false := by
  rw [readReg_diag, h, word_diag_valid_clear]

theorem readReg_diag_of_valid {s : State} {i : Fin 5} {v : Half} (h : vget s.upl.diag i.val (false, 0) = (true, v)) :
    readReg s (0x60054 + 4 * i.val) = BitVec.ofNat 32 (2 ^ 31 + v.toNat) := by
  rw [readReg_diag, h]
  rfl

/-- The state after a read of diagnostic i that failed. -/
def failRead (s : State) (i : Fin 5) : State :=
  setUpl s (fun u => { u with diag := vmapIdx (fun j d => if j = i.val then (false, d.2) else d) u.diag })

theorem exec_i2cStretchTimeout (s : State) (i : Fin 5) : exec (.i2cStretchTimeout i) s = .next (failRead s i) := rfl

theorem failRead_diag (s : State) (i j : Fin 5) : vget (failRead s i).upl.diag j.val (false, 0) =
    if j = i then (false, (vget s.upl.diag j.val (false, 0)).2) else vget s.upl.diag j.val (false, 0) := by
  show vget (vmapIdx _ s.upl.diag) j.val _ = _
  rw [vget_vmapIdx_diag]
  simp only [Fin.ext_iff]

theorem failRead_calms (s : State) (i : Fin 5) : Calms s (failRead s i) := by
  refine ⟨fun quiet absent j => ?_, rfl, id⟩
  show (vget (failRead s i).upl.diag j.val (false, 0)).1 = false
  rw [failRead_diag]
  split
  · rfl
  · exact quiet absent j

/-- The state after the five diagnostics and page A0h are read. -/
def readDiags (s : State) (vals : Vector (Option Half) 5) (a0h : Option (List Byte)) : State :=
  setUpl s (fun u => { u with
    diag := vmapIdx (fun i d => diagOf u.modAbs (vget vals i none) d) u.diag
    a0h := if u.modAbs then u.a0h else a0h.getD u.a0h })

theorem opticsPollOp_of_on {s : State} (hon : s.pwr.domUpl = true) (vals : Vector (Option Half) 5) (a0h : Option (List Byte))
    (user : Option (Byte × List Byte)) : opticsPollOp s vals a0h user = userWrite (readDiags s vals a0h) user := by
  simp [opticsPollOp, hon, readDiags]

@[simp] theorem userWrite_upl (s : State) (w : Option (Byte × List Byte)) : (userWrite s w).upl = s.upl := by
  unfold userWrite; (repeat' split) <;> rfl

theorem readDiags_diag (s : State) (vals : Vector (Option Half) 5) (a0h : Option (List Byte)) (i : Fin 5) :
    vget (readDiags s vals a0h).upl.diag i.val (false, 0) =
      diagOf s.upl.modAbs (vget vals i.val none) (vget s.upl.diag i.val (false, 0)) :=
  vget_vmapIdx_diag _ _ _

theorem exec_opticsDiagPoll {s : State} (hon : s.pwr.domUpl = true) (vals : Vector (Option Half) 5) (a0h : Option (List Byte))
    (user : Option (Byte × List Byte)) : exec (.opticsDiagPoll ⟨vals, a0h, user⟩) s = .next (userWrite (readDiags s vals a0h) user) :=
  congrArg Host.Outcome.next (opticsPollOp_of_on hon vals a0h user)

theorem diagOf_absent (v : Option Half) (d : Bool × Half) : (diagOf true v d).1 = false := by cases v <;> rfl

theorem readDiags_calms {s : State} (hon : s.pwr.domUpl = true) (vals : Vector (Option Half) 5) (a0h : Option (List Byte)) :
    Calms s (readDiags s vals a0h) := by
  refine ⟨fun _ absent i => ?_, rfl, id⟩
  have hmod : s.upl.modAbs = true := absent.resolve_right (fun off : s.pwr.domUpl = false => by simp [hon] at off)
  show (vget (readDiags s vals a0h).upl.diag i.val (false, 0)).1 = false
  rw [readDiags_diag, hmod, diagOf_absent]

theorem opticsPollOp_calms (s : State) (vals : Vector (Option Half) 5) (a0h : Option (List Byte)) (user : Option (Byte × List Byte)) :
    Calms s (opticsPollOp s vals a0h user) := by
  by_cases hon : s.pwr.domUpl = true
  · rw [opticsPollOp_of_on hon]
    exact (readDiags_calms hon vals a0h).trans (SameOptics.calms (by simp))
  · rw [opticsPollOp, if_neg hon]
    exact .refl s

/-- The module is plugged in: only a domain that is off keeps the diagnostics from being VALID. -/
theorem QuietDiags.plugged {u : Bool × Vector (Bool × Half) 5} {p : Bool × Bool} (h : QuietDiags u p) : QuietDiags (false, u.2) p :=
  fun e => h (.inr (e.resolve_left Bool.false_ne_true))

theorem quietDiags_cleared (a : Bool) (v : Vector (Bool × Half) 5) (p : Bool × Bool) : QuietDiags (a, vmapIdx (fun _ d => (false, d.2)) v) p :=
  fun _ i => congrArg Prod.fst (vget_vmapIdx_diag _ v i)

theorem modAbsOp_pwr_optics (s : State) (level : Bool) : (modAbsOp s level).pwr.optics = s.pwr.optics := by
  unfold modAbsOp; dsimp only; (repeat' split) <;> simp

/-- While the domain is off nothing is VALID already; while it is on, the module's removal clears every VALID. -/
theorem modAbsOp_quietDiags {s : State} (quiet : QuietDiags s.upl.optics s.pwr.optics) (level : Bool) :
    QuietDiags (modAbsOp s level).upl.optics s.pwr.optics := by
  unfold modAbsOp; dsimp only
  split
  next hoff =>
    have off : s.pwr.domUpl = false := by simpa using hoff
    exact fun _ => quiet (.inr off)
  cases level with
  | true =>
    simp only [if_true, driveTx_optics, declareLods_optics, setUpl_upl, Upl.optics_mk]
    exact quietDiags_cleared _ _ _
  | false =>
    simp only [Bool.false_eq_true, if_false, driveTx_optics, ite_optics, raise_upl, setUpl_upl, Upl.optics_mk, ite_self]
    exact quiet.plugged

theorem modAbsOp_calms (s : State) (level : Bool) : Calms s (modAbsOp s level) := by
  have hp := modAbsOp_pwr_optics s level
  exact ⟨fun quiet => by rw [hp]; exact modAbsOp_quietDiags quiet level, by rw [hp], by rw [hp]; exact id⟩

/-! ### Register writes and accesses (R375, R382) -/

theorem pfWrite_calms (s : State) (who : Requester) (off : Nat) (acts : Bool) (f : State → State) (h : Calms s (f s)) :
    Calms s (pfWrite s who off acts f) := by
  rw [pfWrite_eq_ite]
  split
  · exact h
  · exact SameOptics.calms (by simp)

theorem writeGlb_calms (s : State) (who : Requester) (off : Nat) (v : Word) : Calms s (writeGlb s who off v) := by
  unfold writeGlb
  split
  case h_3 => exact pfWrite_calms _ _ _ _ _ (hostResetOp_calms s v)
  all_goals exact SameOptics.calms (by simp [pfWrite_eq_ite])

theorem writeReg_calms (s : State) (who : Requester) (off : Nat) (v : Word) : Calms s (writeReg s who off v) := by
  unfold writeReg
  split
  · exact .refl s
  split
  · split <;> exact SameOptics.calms (by simp)
  split
  · exact SameOptics.calms (by simp)
  split
  case h_1 => exact writeGlb_calms s who off v
  all_goals exact SameOptics.calms (by simp)

@[simp] theorem readValue_optics (s : State) (off : Nat) : SameOptics s (readValue s off).2 := by unfold readValue; (repeat' split) <;> exact .refl s

@[simp] theorem readOp_optics (s : State) (who : Requester) (asked off : Nat) : SameOptics s (readOp s who asked off) := by simp [readOp]

theorem applyAccess_calms (s : State) (a : Access) : Calms s (applyAccess s a) := by
  unfold applyAccess
  split
  case h_4 => exact writeReg_calms s _ _ _
  all_goals exact SameOptics.calms (by simp)

theorem servedAccess_calms (s : State) (a : Access) : Calms s (servedAccess s a) := by
  unfold servedAccess
  split
  · exact applyAccess_calms s a
  · split <;> exact SameOptics.calms (by simp)

theorem accessOp_calms (s : State) (a : Access) : Calms s (accessOp s a) := by
  unfold accessOp
  split
  · exact .refl s
  split
  · exact SameOptics.calms (by simp)
  · exact Calms.trans (SameOptics.calms (by simp)) (servedAccess_calms _ a)

@[simp] theorem wakeDomain_optics (s : State) (d : Domain) : SameOptics s (wakeDomain s d) := by
  unfold wakeDomain; dsimp only; (repeat' split) <;> simp

theorem domainReadyOp_calms (s : State) (d : Domain) : Calms s (domainReadyOp s d) := by
  unfold domainReadyOp; dsimp only
  split
  · exact .refl s
  · have woken : Calms s (modPwr (wakeDomain s d) (fun p => { p with waiting := p.waiting.filter (fun w => w.1 != d) })) :=
      SameOptics.calms (by simp)
    exact woken.trans (foldl_calms (fun t (w : Domain × Access) => applyAccess_calms t w.2) _ _)

theorem wakePin_calms (s : State) : Calms s (if s.pwr.state = .off then powerOnOp s else wakeIf s 0 1) := by
  split
  · exact UplinkOff.calms (powerOnOp_uplinkOff s)
  · exact SameOptics.calms (by simp)

/-! ### The commands -/

/-- The outcome is no next state, or one with the same module, diagnostics, TEST_EN and uplink domain. -/
def KeepsOptics (s : State) (o : Host.Outcome State Fault Refusal) : Prop := ∀ t, o = .next t → SameOptics s t

@[simp] theorem keepsOptics_next (s t : State) : KeepsOptics s (.next t) ↔ SameOptics s t := by simp [KeepsOptics]

@[simp] theorem keepsOptics_fault (s : State) (r : Fault) : KeepsOptics s (.fault r) := by simp [KeepsOptics]

@[simp] theorem keepsOptics_ite (s : State) (p : Prop) [Decidable p] (a b : Host.Outcome State Fault Refusal) :
    KeepsOptics s (if p then a else b) ↔ if p then KeepsOptics s a else KeepsOptics s b := by split <;> rfl

/-- The commands that read or move the module, can reset the terminal or switch the uplink's domain, or let a register write through. -/
def movesOptics : Instr → Bool
  | .powerOn | .aonBrownOut | .wakePin | .perstAssert | .pcieHotReset | .linkDown | .hostFullReset .. | .testEnChange _
  | .registerWrite .. | .domainWakeOnAccess _ | .domainReady _ | .optModAbsChange _ | .opticsDiagPoll _ | .i2cStretchTimeout _
  | .sealComplete | .pmeTurnOff | .powerDownStep | .railCollapse _ | .powerUpStep | .railGoodTimeout | .watchdogExpiry _ => true
  | _ => false

/-- Every other command keeps them all. -/
theorem exec_optics (c : Instr) (s : State) (h : movesOptics c = false) : KeepsOptics s (exec c s) := by
  cases c with
  | perstDeassert => simp [exec, execPerstDeassert]
  | linkUp => simp [exec, execLinkUp]
  | pfFlr => simp [exec, execPfFlr, pfFlrOp]
  | vfFlr => simp [exec, execVfFlr, vfFlrOp]
  | channelIslandFault => simp [exec, execChannelIslandFault, islandFaultOp]
  | unsupportedAccessWidth => simp [exec, execUnsupportedAccessWidth]
  | poisonedWrite => simp [exec, execPoisonedWrite]
  | busMasterEnableChange => simp [exec, execBusMasterEnableChange, sendPending]
  | memorySpaceEnableChange => simp [exec, execMemorySpaceEnableChange]
  | vfEnableWrite => simp [exec, execVfEnableWrite]
  | configPowerStateWrite => simp [exec, execConfigPowerStateWrite]
  | lingerExpiry => simp [exec, execLingerExpiry]
  | doorbell => dsimp only [exec, execDoorbell]; (repeat' split) <;> simp
  | descriptorFetch => simp [exec, execDescriptorFetch]
  | descriptorFetchComplete => simp [exec, execDescriptorFetchComplete]
  | ringHaltedClear => simp [exec, execRingHaltedClear]
  | ringCfgWrite => simp [exec, execRingCfgWrite]
  | createRing => simp [exec, execCreateRing]
  | destroyRing => simp [exec, execDestroyRing]
  | recordWrite => simp [exec, execRecordWrite]
  | recordAcknowledged => simp [exec, execRecordAcknowledged, recordAckedOp]
  | modTimeExpiry => simp [exec, execModTimeExpiry]
  | txFrame => simp [exec, execTxFrame]
  | txBufferRead => simp [exec, execTxBufferRead]
  | txBufferReadComplete => simp [exec, execTxBufferReadComplete]
  | rxBuffer => simp [exec, execRxBuffer]
  | rxFrameDeliver => simp [exec, execRxFrameDeliver]
  | lifetimeExpiry => simp [exec, execLifetimeExpiry]
  | ledgerEnable => simp [exec, execLedgerEnable]
  | ledgerAdopt => simp [exec, execLedgerAdopt]
  | ledgerClose => simp [exec, execLedgerClose]
  | ledgerWritesAcknowledged => simp [exec, execLedgerWritesAcknowledged, writesAckOp]
  | benchmarkRecordWrite => simp [exec, execBenchmarkRecordWrite]
  | ledgerTransferComplete => simp [exec, execLedgerTransferComplete, ledgerXferOp]
  | ledgerRetry => simp [exec, execLedgerRetry, ledgerRetryOp]
  | recoverySettle => simp [exec, execRecoverySettle]
  | recoveryDone => simp [exec, execRecoveryDone]
  | chtabRefresh => simp [exec, execChtabRefresh]
  | chRefresh => simp [exec, execChRefresh]
  | chReset => simp [exec, execChReset]
  | chtabEnableChange => simp [exec, execChtabEnableChange]
  | chtabReadPhaseComplete => simp [exec, execChtabReadPhaseComplete, phaseComplete]
  | chtabReadRetry => dsimp only [exec, execChtabReadRetry]; (repeat' split) <;> simp
  | chtabReadErrorRetry => dsimp only [exec, execChtabReadErrorRetry]; (repeat' split) <;> simp
  | chHoldWrite => simp [exec, execChHoldWrite]
  | islandPowered => simp [exec, execIslandPowered]
  | tddFrameBoundary => simp [exec, execTddFrameBoundary, boundaryOp, trainBoundary, clearStepped, serviceBoundary]
  | handshakeAnswer => simp [exec, execHandshakeAnswer, handshakeOp]
  | trainingPhaseEnd => simp [exec, execTrainingPhaseEnd]
  | marginUpdate => simp [exec, execMarginUpdate]
  | economyIdleTimerExpiry => simp [exec, execEconomyIdleTimerExpiry, econExpiry]
  | overheadReceived => simp [exec, execOverheadReceived]
  | dtuReceived => simp [exec, execDtuReceived, nextDtu, dtuReceivedOp, countErrDtu]
  | dtuClose => simp [exec, execDtuClose]
  | dtuLost => simp [exec, execDtuLost, dtuLostOp]
  | lossOfLine => simp [exec, execLossOfLine]
  | tribBlock => simp [exec, execTribBlock]
  | datumSecondBoundary => simp [exec, execDatumSecondBoundary, secondOp, govSecond, pmSecond]
  | ppsOutWidthExpiry => simp [exec, execPpsOutWidthExpiry]
  | psbdReceived => simp [exec, execPsbdReceived, psbdOp, xgtcOp]
  | psyncExpectedMiss => simp [exec, execPsyncExpectedMiss]
  | optRxLosChange => simp [exec, execOptRxLosChange]
  | lodsTo2Expiry => simp [exec, execLodsTo2Expiry]
  | ploamReceived => simp [exec, execPloamReceived, ploam]
  | burstProfile => simp [exec, execBurstProfile, ploam]
  | assignOnuId => simp [exec, execAssignOnuId, assignOnu, ploam]
  | rangingTime => simp [exec, execRangingTime, rangeOp, ploam]
  | assignAllocId => simp [exec, execAssignAllocId, ploam]
  | deactivateOnuId => simp [exec, execDeactivateOnuId, ploam]
  | disableSerialNumber => simp [exec, execDisableSerialNumber, ploam]
  | xgemFrameReceived => simp [exec, execXgemFrameReceived]
  | burstContentFix => simp [exec, execBurstContentFix]
  | burstWindowOpen => simp [exec, execBurstWindowOpen]
  | burstWindowClose => simp [exec, execBurstWindowClose]
  | backstopExpiry => simp [exec, execBackstopExpiry, backstopOp]
  | rogueLight => simp [exec, execRogueLight]
  | rogueClear => dsimp only [exec, execRogueClear]; (repeat' split) <;> simp
  | emstopSet => simp [exec, execEmstopSet]
  | ponPowerSaveTimerExpiry => simp [exec, execPonPowerSaveTimerExpiry]
  | uplPortRead => simp [exec, execUplPortRead]
  | uplPortWrite => simp [exec, execUplPortWrite]
  | uplPortClear => simp [exec, execUplPortClear]
  | upstreamFrameReceived => simp [exec, execUpstreamFrameReceived]
  | pauseFrameReceived => simp [exec, execPauseFrameReceived]
  | pauseTimerExpiry => dsimp only [exec, execPauseTimerExpiry]; (repeat' split) <;> simp
  | pauseRefreshExpiry => simp [exec, execPauseRefreshExpiry]
  | flowTableRead => dsimp only [exec, execFlowTableRead]; (repeat' split) <;> simp
  | flowTableWrite => dsimp only [exec, execFlowTableWrite]; (repeat' split) <;> simp
  | flowTableClear => dsimp only [exec, execFlowTableClear]; (repeat' split) <;> simp
  | bufferUncorrectableError => simp [exec, execBufferUncorrectableError, countCorrected, bankLostOp, strikeAll]
  | schedulerSelect => dsimp only [exec, execSchedulerSelect]; (repeat' split) <;> simp
  | refillTick => simp [exec, execRefillTick]
  | gateIntervalExpiry => simp [exec, execGateIntervalExpiry]
  | gclSwap => simp [exec, execGclSwap]
  | histogramSample => simp [exec, execHistogramSample]
  | histClr => simp [exec, execHistClr]
  | todLoad => simp [exec, execTodLoad]
  | phaseAverage => simp [exec, execPhaseAverage]
  | holdoverEntry => simp [exec, execHoldoverEntry]
  | holdErrExceeded => simp [exec, execHoldErrExceeded, holdLimitOp]
  | crystalCalibration => simp [exec, execCrystalCalibration]
  | datumInvalidate => dsimp only [exec, execDatumInvalidate]; (repeat' split) <;> simp
  | ppsInEdge => simp [exec, execPpsInEdge]
  | rxtsNext => dsimp only [exec, execRxtsNext]; (repeat' split) <;> simp
  | gcmEncrypt => simp [exec, execGcmEncrypt]
  | gcmDecrypt => simp [exec, execGcmDecrypt]
  | cmac => simp [exec, execCmac]
  | cvUpdate => simp [exec, execCvUpdate]
  | cvSave => simp [exec, execCvSave]
  | cvRestore => simp [exec, execCvRestore]
  | keyGen => simp [exec, execKeyGen]
  | keyLoad => simp [exec, execKeyLoad]
  | keyImport => simp [exec, execKeyImport]
  | keyExport => simp [exec, execKeyExport]
  | keyDerive => simp [exec, execKeyDerive]
  | keyClear => simp [exec, execKeyClear]
  | keyInfo => simp [exec, execKeyInfo]
  | random => simp [exec, execRandom]
  | ccmStar => simp [exec, execCcmStar]
  | gcmKnownAnswerTest => simp [exec, execGcmKnownAnswerTest]
  | gcmCoreFail => simp [exec, execGcmCoreFail]
  | trngHealthFail => simp [exec, execTrngHealthFail]
  | trngRetest => simp [exec, execTrngRetest, reseedBoth]
  | drbgReseed => simp [exec, execDrbgReseed]
  | maskReseed => simp [exec, execMaskReseed]
  | radFrame => simp [exec, execRadFrame]
  | csmaBackoffExpiry => simp [exec, execCsmaBackoffExpiry]
  | lbtListenEnd => simp [exec, execLbtListenEnd]
  | radioTxEnd => simp [exec, execRadioTxEnd]
  | radioAckReceived => simp [exec, execRadioAckReceived]
  | radioAckTimeout => simp [exec, execRadioAckTimeout]
  | radioFrameReceived => simp [exec, execRadioFrameReceived]
  | radioAckTransmit => simp [exec, execRadioAckTransmit]
  | radioRxDeliver => simp [exec, execRadioRxDeliver]
  | radDevRead => simp [exec, execRadDevRead]
  | radDevWrite => simp [exec, execRadDevWrite]
  | radDevClear => simp [exec, execRadDevClear]
  | levelCrossingDeclared => simp [exec, execLevelCrossingDeclared, crossingOp]
  | feedAdmissionTick => simp [exec, execFeedAdmissionTick, admitOne]
  | feedRampEnd => simp [exec, execFeedRampEnd]
  | feedShortTrip => simp [exec, execFeedShortTrip]
  | feedOverloadTrip => simp [exec, execFeedOverloadTrip]
  | feedPowerTrip => simp [exec, execFeedPowerTrip]
  | feedBackoffExpiry => simp [exec, execFeedBackoffExpiry]
  | feedTriesReset => simp [exec, execFeedTriesReset]
  | feedInrushAbort => simp [exec, execFeedInrushAbort]
  | feedUnlock => dsimp only [exec, execFeedUnlock]; (repeat' split) <;> simp
  | feedHoldOff => simp [exec, execFeedHoldOff]
  | feedPulseStart => simp [exec, execFeedPulseStart]
  | feedPulseEnd => simp [exec, execFeedPulseEnd]
  | feedWindowClose => simp [exec, execFeedWindowClose, windowCloseOp]
  | idleTimerExpiry => simp [exec, execIdleTimerExpiry]
  | idleExit => simp [exec, execIdleExit]
  | sleepTimerExpiry => simp [exec, execSleepTimerExpiry]
  | l1EntryRequest => simp [exec, execL1EntryRequest]
  | pwrEnter => simp [exec, execPwrEnter]
  | pwrGoDeep => simp [exec, execPwrGoDeep]
  | pwrGoOff => simp [exec, execPwrGoOff]
  | entryTimeout => simp [exec, execEntryTimeout]
  | pwrAlarm => simp [exec, execPwrAlarm]
  | powerUpRetry => simp [exec, execPowerUpRetry]
  | imageHandover => simp [exec, execImageHandover]
  | watchdogKick => simp [exec, execWatchdogKick]
  | cpReady => simp [exec, execCpReady]
  | flashWrite => simp [exec, execFlashWrite, flashOp, flashSlot, flashGens]
  | ptpUnpairedDrop => simp [exec, execPtpUnpairedDrop]
  | fwStage => simp [exec, execFwStage]
  | fwActivate => simp [exec, execFwActivate]
  | fwConfirm => simp [exec, execFwConfirm]
  | fwFallback => simp [exec, execFwFallback]
  | capsuleApply => simp [exec, execCapsuleApply]
  | confirmationTimeout => simp [exec, execConfirmationTimeout]
  | fwSlotFallback => simp [exec, execFwSlotFallback]
  | fwSlotConfirm => simp [exec, execFwSlotConfirm]
  | revert => simp [exec, execRevert]
  | bmcOff => simp [exec, execBmcOff]
  | lockAll => simp [exec, execLockAll, pfWrite_eq_ite]
  | ahnairSelectFall => simp [exec, execAhnairSelectFall, selectFallOp]
  | ahnairSelectRise => simp [exec, execAhnairSelectRise, selectRiseOp]
  | read => simp [exec, execRead]
  | write => simp [exec, execWrite]
  | status => simp [exec, execStatus, header]
  | arm => simp [exec, execArm]
  | ahnairUnknownOpcode => simp [exec, execAhnairUnknownOpcode]
  | ahnairDataWord => simp [exec, execAhnairDataWord]
  | evtSoft => simp [exec, execEvtSoft]
  | eventCounterConfig => simp [exec, execEventCounterConfig]
  | eventCounterClear => simp [exec, execEventCounterClear]
  | counterDurationTick => simp [exec, execCounterDurationTick, durationTickOp]
  | secOperationComplete => simp [exec, execSecOperationComplete]
  | identityLoaded => simp [exec, execIdentityLoaded]
  | crystalRunning => simp [exec, execCrystalRunning]
  | _ => cases h

/-- No command but the step that switches the uplink's domain on, and a change of TEST_EN, can disturb quiet diagnostics. -/
theorem exec_calms {c : Instr} {s t : State} (hup : c ≠ .powerUpStep) (htest : ∀ level, c ≠ .testEnChange level) (h : exec c s = .next t) :
    Calms s t := by
  cases hc : movesOptics c with
  | false => exact SameOptics.calms (exec_optics c s hc t h)
  | true =>
    cases c with
    | powerUpStep => exact absurd rfl hup
    | testEnChange level => exact absurd rfl (htest level)
    | powerOn => cases h; exact UplinkOff.calms (powerOnOp_uplinkOff s)
    | aonBrownOut => cases h; exact UplinkOff.calms (powerOnOp_uplinkOff s)
    | wakePin => cases h; exact wakePin_calms s
    | perstAssert =>
      cases h
      split
      · exact .refl s
      · exact Calms.trans (SameOptics.calms (by simp)) (busReset_calms (modHif s (fun x => { x with perst := true })) .perst)
    | pcieHotReset =>
      cases h
      split
      · exact busReset_calms s _
      · exact .refl s
    | linkDown =>
      cases h
      split
      · exact busReset_calms s _
      · exact .refl s
    | hostFullReset who key =>
      cases h
      split
      · exact .refl s
      · split <;> exact SameOptics.calms (by simp)
      · exact hostResetOp_calms s key
    | registerWrite who off v => cases h; exact accessOp_calms s _
    | domainWakeOnAccess a => cases h; exact accessOp_calms s a
    | domainReady d => cases h; exact domainReadyOp_calms s d
    | optModAbsChange level => cases h; exact modAbsOp_calms s level
    | opticsDiagPoll p => cases h; exact opticsPollOp_calms s _ _ _
    | i2cStretchTimeout i => cases h; exact failRead_calms s i
    | sealComplete => cases h; exact sealCompleteOp_calms s
    | pmeTurnOff => cases h; exact pmeTurnOffOp_calms s
    | powerDownStep =>
      cases h
      split
      · exact powerDownNext_calms s
      · exact .refl s
    | railCollapse r => cases h; exact railCollapseOp_calms s r
    | railGoodTimeout => cases h; exact railTimeoutOp_calms s
    | watchdogExpiry cp => cases h; exact watchdogOp_calms s cp.val
    | _ => cases hc

theorem exec_noDiagWhileAbsent {c : Instr} {s t : State} (hs : NoDiagWhileAbsent s) (h : exec c s = .next t) : NoDiagWhileAbsent t := by
  cases c with
  | powerUpStep => cases h; exact powerUpOp_noDiagWhileAbsent hs
  | testEnChange level => cases h; exact testEnOp_noDiagWhileAbsent hs level
  | _ => exact (exec_calms (by simp) (by simp) h).noDiagWhileAbsent hs

/-! ### The statement -/

/-- Settles O59: the readings are followed into the registers, and every command either calms the diagnostics, switches the uplink's domain on,
or moves TEST_EN. -/
theorem diagnosticValidOnlyAfterGoodRead : Obligations.DiagnosticValidOnlyAfterGoodRead := by
  unfold Obligations.DiagnosticValidOnlyAfterGoodRead
  refine ⟨fun s i => ⟨_, exec_i2cStretchTimeout s i, ?_, fun j hj => ?_⟩, fun s vals a0h user i v hon hmod hval => ?_,
    fun s vals a0h user i hon hval => ?_, fun c s t hs h => exec_noDiagWhileAbsent hs h⟩
  · exact readReg_diag_of_invalid (by rw [failRead_diag, if_pos rfl])
  · rw [readReg_diag, readReg_diag, failRead_diag, if_neg hj]
  · refine ⟨_, exec_opticsDiagPoll hon vals a0h user, readReg_diag_of_valid ?_⟩
    rw [userWrite_upl, readDiags_diag, hmod, hval]
    rfl
  · refine ⟨_, exec_opticsDiagPoll hon vals a0h user, readReg_diag_of_invalid ?_⟩
    rw [userWrite_upl, readDiags_diag, hval]
    rfl

end Sys2Proof.Machine

/-! # What no command takes away: the queue, the part fuse, the root key and STOPPED

The four fields of this part are the queue of waiting commands, the part fuse, the root key's slot and the emission gate. The proof says, once for
each operation of the model, that it leaves all four as they are (`SameHeld`, the lemmas `_held`, by chapter). The operations that move the gate, and
those that fill or clear a key slot, are few: each keeps a root key that is held, and a gate that is STOPPED (`Holds`). -/

namespace Sys2Proof.Machine

open Sys2Proof

/-- What R241 and R243 fix of the root key's slot: all but its packet number. -/
def rootOf (v : Vector Slot 64) : Bool × BitVec 4 × Owner × Bool × List Byte :=
  let k := vget v 0 Slot.empty
  (k.valid, k.kind, k.owner, k.exportable, k.key)

/-- The root key as POWER-ON loads it. -/
def rootHeld : Bool × BitVec 4 × Owner × Bool × List Byte := (true, 15, .system, false, Config.rootKey)

theorem rootKeyHeld_iff (s : State) : RootKeyHeld s ↔ rootOf s.sec.slots = rootHeld := by
  simp [RootKeyHeld, rootOf, rootHeld, slotAt]

/-- From s to t the queue, the part fuse, the root key's slot and the gate stay. -/
@[simp] abbrev SameHeld (s t : State) : Prop :=
  t.pending = s.pending ∧ t.part = s.part ∧ rootOf t.sec.slots = rootOf s.sec.slots ∧ t.upl.gate = s.upl.gate

/-- From s to t the queue, the part fuse and the gate stay, and a root key that is held. -/
@[simp] abbrev KeepsRoot (s t : State) : Prop :=
  t.pending = s.pending ∧ t.part = s.part ∧ t.upl.gate = s.upl.gate ∧ (rootOf s.sec.slots = rootHeld → rootOf t.sec.slots = rootHeld)

/-- From s to t the queue, the part fuse and the root key's slot stay, and the gate is g after. -/
@[simp] abbrev LeavesGate (s t : State) (g : GateSt) : Prop :=
  t.pending = s.pending ∧ t.part = s.part ∧ rootOf t.sec.slots = rootOf s.sec.slots ∧ t.upl.gate = g

theorem SameHeld.refl (s : State) : SameHeld s s := ⟨rfl, rfl, rfl, rfl⟩

theorem SameHeld.trans {s t u : State} (h : SameHeld s t) (k : SameHeld t u) : SameHeld s u := by
  obtain ⟨hq, hp, hr, hg⟩ := h
  obtain ⟨kq, kp, kr, kg⟩ := k
  exact ⟨kq.trans hq, kp.trans hp, kr.trans hr, kg.trans hg⟩

theorem KeepsRoot.refl (s : State) : KeepsRoot s s := ⟨rfl, rfl, rfl, id⟩

theorem SameHeld.keepsRoot {s t : State} (h : SameHeld s t) : KeepsRoot s t := by
  obtain ⟨hq, hp, hr, hg⟩ := h
  exact ⟨hq, hp, hg, hr.trans⟩

theorem KeepsRoot.trans {s t u : State} (h : KeepsRoot s t) (k : KeepsRoot t u) : KeepsRoot s u := by
  obtain ⟨hq, hp, hg, hr⟩ := h
  obtain ⟨kq, kp, kg, kr⟩ := k
  exact ⟨kq.trans hq, kp.trans hp, kg.trans hg, fun e => kr (hr e)⟩

/-- From s to t the queue and the part fuse stay, a root key that is held, and a gate that is STOPPED. -/
def Holds (s t : State) : Prop :=
  t.pending = s.pending ∧ t.part = s.part ∧ (rootOf s.sec.slots = rootHeld → rootOf t.sec.slots = rootHeld) ∧
    (s.upl.gate = .stopped → t.upl.gate = .stopped)

theorem Holds.refl (s : State) : Holds s s := ⟨rfl, rfl, id, id⟩

theorem Holds.trans {s t u : State} (h : Holds s t) (k : Holds t u) : Holds s u := by
  obtain ⟨hq, hp, hr, hg⟩ := h
  obtain ⟨kq, kp, kr, kg⟩ := k
  exact ⟨kq.trans hq, kp.trans hp, fun e => kr (hr e), fun e => kg (hg e)⟩

theorem KeepsRoot.holds {s t : State} (h : KeepsRoot s t) : Holds s t := by
  obtain ⟨hq, hp, hg, hr⟩ := h
  exact ⟨hq, hp, hr, hg.trans⟩

theorem SameHeld.holds {s t : State} (h : SameHeld s t) : Holds s t := KeepsRoot.holds (SameHeld.keepsRoot h)

theorem LeavesGate.holds {s t : State} {g : GateSt} (h : LeavesGate s t g) (hg : s.upl.gate = .stopped → g = .stopped) : Holds s t := by
  obtain ⟨hq, hp, hr, hg'⟩ := h
  exact ⟨hq, hp, hr.trans, fun e => hg'.trans (hg e)⟩

theorem foldl_holds {α : Type} {f : State → α → State} (h : ∀ s a, Holds s (f s a)) (l : List α) (s : State) : Holds s (l.foldl f s) := by
  induction l generalizing s with
  | nil => exact .refl s
  | cons a l ih => exact (h s a).trans (ih _)

theorem EvtOnly.held {s t : State} (h : EvtOnly s t) : SameHeld s t := by rw [h]; exact .refl s

/-! ### Branches, folds and updates of a part -/

@[simp] theorem ite_held (p : Prop) [Decidable p] (a b : State) :
    (if p then a else b).pending = (if p then a.pending else b.pending) ∧ (if p then a else b).part = (if p then a.part else b.part) ∧
      rootOf (if p then a else b).sec.slots = (if p then rootOf a.sec.slots else rootOf b.sec.slots) ∧
      (if p then a else b).upl.gate = (if p then a.upl.gate else b.upl.gate) := by split <;> exact ⟨rfl, rfl, rfl, rfl⟩

@[simp] theorem foldl_held_pending {α : Type} (f : State → α → State) (h : ∀ s a, (f s a).pending = s.pending) (l : List α) (s : State) :
    (l.foldl f s).pending = s.pending := foldl_keeps (fun t => t.pending) f h l s
@[simp] theorem foldl_held_part {α : Type} (f : State → α → State) (h : ∀ s a, (f s a).part = s.part) (l : List α) (s : State) :
    (l.foldl f s).part = s.part := foldl_keeps (fun t => t.part) f h l s
@[simp] theorem foldl_held_root {α : Type} (f : State → α → State) (h : ∀ s a, rootOf (f s a).sec.slots = rootOf s.sec.slots) (l : List α)
    (s : State) : rootOf (l.foldl f s).sec.slots = rootOf s.sec.slots := foldl_keeps (fun t => rootOf t.sec.slots) f h l s
@[simp] theorem foldl_held_gate {α : Type} (f : State → α → State) (h : ∀ s a, (f s a).upl.gate = s.upl.gate) (l : List α) (s : State) :
    (l.foldl f s).upl.gate = s.upl.gate := foldl_keeps (fun t => t.upl.gate) f h l s

theorem iter_held (f : State → State) (h : ∀ s, SameHeld s (f s)) (n : Nat) (s : State) : SameHeld s (iter f n s) := by
  induction n generalizing s with
  | zero => exact .refl s
  | succ n ih => exact (h s).trans (ih _)

/-- A write of a slot that keeps what R241 and R243 fix of it keeps the root key's. -/
theorem setSlot_root (s : State) (i : Nat) (f : Slot → Slot)
    (h : ∀ k, (f k).valid = k.valid ∧ (f k).kind = k.kind ∧ (f k).owner = k.owner ∧ (f k).exportable = k.exportable ∧ (f k).key = k.key) :
    rootOf (setSlot s i f).sec.slots = rootOf s.sec.slots := by
  obtain ⟨hv, hk, ho, he, hy⟩ := h (slotAt s i)
  unfold rootOf setSlot
  simp only [vget_vset]
  split
  next hi => rw [hv, hk, ho, he, hy, hi.1]; rfl
  · rfl


/-- A write of another slot keeps the root key's. -/
theorem setSlot_ne_root (s : State) {i : Nat} (f : Slot → Slot) (h : i ≠ 0) : rootOf (setSlot s i f).sec.slots = rootOf s.sec.slots := by
  unfold rootOf setSlot
  simp [vget_vset, h]

/-- The slot of a root key that is held is not free, to any search for a free slot. -/
theorem freeSlot_ne_zero {s : State} {l : List Nat} {p : Nat → Bool} {i : Nat} (h : rootOf s.sec.slots = rootHeld)
    (hi : l.find? (fun i => p i && !(slotAt s i).valid) = some i) : i ≠ 0 := by
  rintro rfl
  have free := List.find?_some hi
  obtain ⟨valid, -⟩ := (rootKeyHeld_iff s).2 h
  simp [valid] at free

theorem freeKeySlot_ne_zero {s : State} {q : SecSrc} {i : Nat} (h : rootOf s.sec.slots = rootHeld) (hi : freeKeySlot s q = some i) : i ≠ 0 :=
  freeSlot_ne_zero (p := fun _ => true) h (by simpa [freeKeySlot] using hi)

/-- No handle that KEY_CLEAR takes names the root key's slot. -/
theorem clearedSlot_ne_zero {s : State} {q : SecSrc} {d : Desc} (h : rootOf s.sec.slots = rootHeld) (hc : clearCheck s q d = none) :
    handleSlot (handleIn d.p0) ≠ 0 := by
  intro h0
  obtain ⟨-, kind, -⟩ := (rootKeyHeld_iff s).2 h
  simp [clearCheck, firstOf, keyWrong, h0, kind] at hc

/-- Clearing the slots of SEC leaves slot 0. -/
theorem clearSlots_root (v : Vector Slot 64) : rootOf (vmapIdx (fun i k => if i = 0 then k else clearSlot k) v) = rootOf v := by
  have slot : vget (vmapIdx (fun i k => if i = 0 then k else clearSlot k) v) 0 Slot.empty = vget v 0 Slot.empty := by
    rw [vget_vmapIdx, if_pos (by decide), if_pos rfl]
  simp only [rootOf, slot]
/-! ### Shared operations (chapters 02, 03) -/

@[simp] theorem setPwr_held (s : State) (st : PwrSt) : SameHeld s (setPwr s st) := by unfold setPwr; (repeat' split) <;> simp
theorem startRecovery_held (s : State) (sc : List RingNo) (k c : Nat) (y : Bool) (cm : List (RingNo × Word)) (rf : List Nat) :
    SameHeld s (startRecovery s sc k c y cm rf) := by simp
@[simp] theorem leaveSleep_held (s : State) : SameHeld s (leaveSleep s) := by simp [leaveSleep]
@[simp] theorem ponWake_held (s : State) : SameHeld s (ponWake s) := by simp [ponWake]

/-! ### Records, seals and refused accesses (chapters 02, 03) -/

@[simp] theorem holdRecord_held (s : State) (q : Nat) (addr : Nat) (windowCause : Bool) : SameHeld s (holdRecord s q addr windowCause) := by
  simp [holdRecord, stall]
@[simp] theorem markIssued_held (s : State) (x : RecSrc) : SameHeld s (markIssued s x) := by unfold markIssued; split <;> simp
@[simp] theorem putRecord_held (s : State) (q : Nat) (x : Issued) : SameHeld s (putRecord s q x) := by simp [putRecord]
@[simp] theorem rewriteLost_held (s : State) (q : Nat) : SameHeld s (rewriteLost s q) := by unfold rewriteLost; split <;> simp
@[simp] theorem tryRecord_held (s : State) (r : Nat) : SameHeld s (tryRecord s r) := by unfold tryRecord; dsimp only; (repeat' split) <;> simp
@[simp] theorem tryEvent_held (s : State) : SameHeld s (tryEvent s) := by unfold tryEvent; split <;> simp
@[simp] theorem sealRing_held (n : Nat) (s : State) (r : Nat) : SameHeld s (sealRing n s r) := by
  induction n generalizing s with
  | zero => exact .refl s
  | succ n ih => unfold sealRing; (repeat' split) <;> simp [ih]
@[simp] theorem setPhase_held (s : State) (n : Fin 4) : SameHeld s (setPhase s n) := by simp [setPhase]
@[simp] theorem entered_held (s : State) : SameHeld s (entered s) := by simp [entered]
@[simp] theorem sealAdvance_held (s : State) : SameHeld s (sealAdvance s) := by
  unfold sealAdvance; (repeat' split) <;> simp [sealThree, sealTwo, benchBoth]
@[simp] theorem sealLedger_held (s : State) : SameHeld s (sealLedger s) := by simp [sealLedger, sealOne]
@[simp] theorem resumeService_held (s : State) (lossy : Bool) : SameHeld s (resumeService s lossy) := by simp [resumeService]
@[simp] theorem abandonEntry_held (s : State) : SameHeld s (abandonEntry s) := by simp [abandonEntry]
@[simp] theorem hostWrote_held (s : State) : SameHeld s (hostWrote s) := by simp [hostWrote]
@[simp] theorem beginEntering_held (s : State) (toOff : Bool) : SameHeld s (beginEntering s toOff) := by simp [beginEntering]
@[simp] theorem aerReport_held (s : State) (f bit : Nat) : SameHeld s (aerReport s f bit) := by simp [aerReport]
@[simp] theorem refuseAccess_held (s : State) (who : Requester) (off : Nat) : SameHeld s (refuseAccess s who off) := by simp [refuseAccess]

/-! ### Network time (chapter 10) -/

@[simp] theorem setTimeState_held (s : State) (st : TimeSt) : SameHeld s (setTimeState s st) := by simp [setTimeState]
@[simp] theorem applyOffset_held (s : State) (e : Int) (first : Bool) : SameHeld s (applyOffset s e first) := by simp [applyOffset, moveDatum]
@[simp] theorem applyLoad_held (s : State) (k : BitVec 51) (ppsKind : Bool) : SameHeld s (applyLoad s k ppsKind) := by simp [applyLoad]
@[simp] theorem loadLate_held (s : State) : SameHeld s (loadLate s) := by simp [loadLate]
@[simp] theorem compareErr_held (s : State) (e : Int) (follows : Bool) : SameHeld s (compareErr s e follows) := by simp [compareErr]
@[simp] theorem timePsbd_held (s : State) (k : BitVec 51) (inSync : Bool) : SameHeld s (timePsbd s k inSync) := by
  unfold timePsbd; dsimp only; (repeat' split) <;> simp
@[simp] theorem ptpIn_held (s : State) (e : RxtsEntry) (t : Nat) : SameHeld s (ptpIn s e t) := by simp [ptpIn]
@[simp] theorem ptpDone_held (s : State) (h : PtpHalf) (t : Nat) : SameHeld s (ptpDone s h t) := by simp [ptpDone]
@[simp] theorem ptpOut_held (s : State) (c id : Nat) (b : List Byte) (ts : Option (Nat × Bool)) : SameHeld s (ptpOut s c id b ts) := by
  unfold ptpOut; (repeat' split) <;> simp
@[simp] theorem captureUplink_held (s0 : State) (b : List Byte) (t : Nat) : SameHeld s0 (captureUplink s0 b t) := by
  unfold captureUplink; split <;> simp
@[simp] theorem captureChannel_held (s0 : State) (c : Nat) (b : List Byte) (t : Nat) : SameHeld s0 (captureChannel s0 c b t) := by
  unfold captureChannel; split <;> simp
@[simp] theorem todLoadOp_held (s : State) (kind : Bool) : SameHeld s (todLoadOp s kind) := by simp [todLoadOp]
@[simp] theorem phaseAverageOp_held (s : State) : SameHeld s (phaseAverageOp s) := by unfold phaseAverageOp; split <;> simp
@[simp] theorem invalidateOp_held (s : State) : SameHeld s (invalidateOp s) := by simp [invalidateOp]
@[simp] theorem ppsInOp_held (s0 : State) : SameHeld s0 (ppsInOp s0) := by unfold ppsInOp; dsimp only; (repeat' split) <;> simp

/-! ### Key use and MACsec (chapter 11) -/

@[simp] theorem refreshKeyUse_held (s : State) (c : Nat) : SameHeld s (refreshKeyUse s c) := by simp [refreshKeyUse]
@[simp] theorem refreshKeys_held (s : State) : SameHeld s (refreshKeys s) := by simp [refreshKeys]
@[simp] theorem pnMovedFor_held (h : Half) (old new : Nat) (s : State) (c : Nat) : SameHeld s (pnMovedFor h old new s c) := by
  unfold pnMovedFor; split <;> simp
@[simp] theorem movePn_held (s : State) (h : Half) (new : Nat) : SameHeld s (movePn s h new) := by simp [movePn, setSlot_root]
@[simp] theorem takePn_held (s : State) (c : Nat) (m : MacSect) : SameHeld s (takePn s c m) := by simp [takePn]
@[simp] theorem macOut_held (s : State) (c : Nat) (b : List Byte) : SameHeld s (macOut s c b).1 := by unfold macOut; (repeat' split) <;> simp
@[simp] theorem countMacRx_held (s : State) (c : Nat) (x : MacRx) : SameHeld s (countMacRx s c x) := by simp [countMacRx]
theorem macsecIn_held {s t : State} {c : Nat} {m : MacSect} {b : List Byte} {x : Option (List Byte × Bool)} (e : macsecIn s c m b = (t, x)) :
    SameHeld s t := by unfold macsecIn at e; dsimp only at e; (repeat' split at e) <;> cases e <;> simp
theorem macIn_held {s t : State} {c : Nat} {b : List Byte} {x : Option (List Byte × Bool)} (e : macIn s c b = (t, x)) : SameHeld s t := by
  unfold macIn at e
  (repeat' split at e)
  · cases e; exact .refl s
  · exact macsecIn_held e
  · cases e; exact .refl s

/-! ### Packet storage and classification (chapter 08) -/

@[simp] theorem countBufDiscard_held (s : State) (c : Nat) : SameHeld s (countBufDiscard s c) := by simp [countBufDiscard]
@[simp] theorem countLineDiscard_held (s : State) (c : Nat) : SameHeld s (countLineDiscard s c) := by simp [countLineDiscard]
@[simp] theorem sendPause_held (s : State) (c : Nat) (m : MacSect) (ens : Nat) (q : Nat) : SameHeld s (sendPause s c m ens q) := by
  simp [sendPause]
@[simp] theorem pauseCheck_held (s : State) (c : Nat) : SameHeld s (pauseCheck s c) := by unfold pauseCheck; split <;> simp
@[simp] theorem takeId_held (s : State) : SameHeld s (takeId s) := by simp [takeId]
@[simp] theorem enqueue_held (s : State) (c i : Nat) (f : Frame) : SameHeld s (enqueue s c i f) := by simp [enqueue]
@[simp] theorem enqueueTcont_held (s0 : State) (q : Nat) (f : Frame) : SameHeld s0 (enqueueTcont s0 q f) := by simp [enqueueTcont]
@[simp] theorem countOversize_held (s : State) (c : Nat) : SameHeld s (countOversize s c) := by simp [countOversize]
@[simp] theorem deliverDown_held (s : State) (idx port : Nat) (b : List Byte) (rx : Nat) : SameHeld s (deliverDown s idx port b rx) := by
  unfold deliverDown; dsimp only; (repeat' split) <;> simp [toHostPart, toChannel, countNoFlow]
@[simp] theorem classifyUp_held (s : State) (c : Nat) (b : List Byte) (verified : Bool) (rx : Nat) :
    SameHeld s (classifyUp s c b verified rx) := by unfold classifyUp; dsimp only; (repeat' split) <;> simp [storeUp]
@[simp] theorem macControl_held (s : State) (c : Nat) (b : List Byte) : SameHeld s (macControl s c b) := by
  unfold macControl; split <;> simp [obeyPause]
@[simp] theorem macReceive_held (s : State) (c : Nat) (x : List Byte) (rx : Nat) : SameHeld s (macReceive s c x rx) := by
  unfold macReceive; dsimp only; (repeat' split)
  case h_1 e => exact macIn_held e
  case h_2 e => simp [macIn_held e]
  all_goals simp
@[simp] theorem pauseRefreshOp_held (s : State) (c : Nat) : SameHeld s (pauseRefreshOp s c) := by unfold pauseRefreshOp; split <;> simp
@[simp] theorem flowReadOp_held (s : State) (p : Nat) (idx : BitVec 12) : SameHeld s (flowReadOp s p idx) := by simp [flowReadOp]
@[simp] theorem flowWriteOp_held (s : State) (p : Nat) (idx : BitVec 12) : SameHeld s (flowWriteOp s p idx) := by simp [flowWriteOp]
@[simp] theorem flowClearOp_held (s : State) (p : Nat) (idx : BitVec 12) : SameHeld s (flowClearOp s p idx) := by simp [flowClearOp]

/-! ### The feed (chapter 13) -/

@[simp] theorem supplyLog_held (s : State) (kind input detail : Nat) (value : Word) (start : Nat) (valid : Bool) :
    SameHeld s (supplyLog s kind input detail value start valid) := by simp [supplyLog, logEntry]
@[simp] theorem supplyNow_held (s : State) (kind input detail : Nat) : SameHeld s (supplyNow s kind input detail) := by simp [supplyNow]
@[simp] theorem budgetCheck_held (s : State) : SameHeld s (budgetCheck s) := by simp [budgetCheck]
@[simp] theorem feedOff_held (s : State) : SameHeld s (feedOff s) := by simp [feedOff]
@[simp] theorem feedPower_held (s : State) : SameHeld s (feedPower s) := by simp [feedPower, feedOn]
@[simp] theorem feedTrip_held (s : State) (c cause : Nat) : SameHeld s (feedTrip s c cause) := by simp [feedTrip]
@[simp] theorem feedUnlockOp_held (s : State) (c : Nat) : SameHeld s (feedUnlockOp s c) := by simp [feedUnlockOp]
@[simp] theorem shedAll_held (s : State) (last detail : Nat) : SameHeld s (shedAll s last detail) := by simp [shedAll]

/-! ### Rings (chapter 02) -/

@[simp] theorem doorbellFault_held (s : State) (r : Nat) : SameHeld s (doorbellFault s r) := by simp [doorbellFault]
@[simp] theorem doorbellWrite_held (s : State) (who : Requester) (off : Nat) (v : Word) : SameHeld s (doorbellWrite s who off v) := by
  unfold doorbellWrite; split <;> simp [doorbellAt]
@[simp] theorem haltRing_held (s : State) (r : Nat) : SameHeld s (haltRing s r) := by simp [haltRing]
@[simp] theorem moveCursor_held (s : State) (r : Nat) : SameHeld s (moveCursor s r) := .refl s
@[simp] theorem refetchFailed_held (s : State) (r : Nat) (seq : Word) (st : Status) : SameHeld s (refetchFailed s r seq st) := by
  simp [refetchFailed]
@[simp] theorem descriptorFetchOp_held (s : State) : SameHeld s (descriptorFetchOp s) := by
  unfold descriptorFetchOp; (repeat' split) <;> simp [fetchAgain, fetchNew]
@[simp] theorem acceptOne_held (s : State) (r : Nat) (d : Desc) : SameHeld s (acceptOne s r d) := by simp [acceptOne]
@[simp] theorem refetchDone_held (s : State) (r : Nat) (seq : Word) (res : XferResult) (data : List Byte) :
    SameHeld s (refetchDone s r seq res data) := by unfold refetchDone; split <;> simp
@[simp] theorem fetchDone_held (s : State) (r : Nat) (first : Word) (n : Nat) (res : XferResult) (data : List Byte) :
    SameHeld s (fetchDone s r first n res data) := by simp [fetchDone]
@[simp] theorem fetchCompleteOp_held (s : State) (r : Nat) (res : XferResult) (data : List Byte) : SameHeld s (fetchCompleteOp s r res data) := by
  unfold fetchCompleteOp; split <;> simp
@[simp] theorem haltedClear_held (s : State) (r : Nat) : SameHeld s (haltedClear s r) := by simp [haltedClear]
@[simp] theorem ringCfgOp_held (s : State) (r : RingNo) (v : Word) : SameHeld s (ringCfgOp s r v) := by simp [ringCfgOp]
@[simp] theorem forgetBlocks_held (s : State) (n : Nat) : SameHeld s (forgetBlocks s n) := by unfold forgetBlocks; split <;> simp
@[simp] theorem createRingOp_held (s : State) (r : RingNo) (seq : Word) : SameHeld s (createRingOp s r seq) := by
  unfold createRingOp; (repeat' split) <;> simp
@[simp] theorem dropQueued_held (s : State) (p : Frame → Bool) : SameHeld s (dropQueued s p) := by simp [dropQueued]
@[simp] theorem dropRadio_held (s : State) (n : Nat) : SameHeld s (dropRadio s n) := by unfold dropRadio; split <;> simp
@[simp] theorem destroyRingOp_held (s : State) (r : RingNo) (seq : Word) : SameHeld s (destroyRingOp s r seq) := by
  unfold destroyRingOp; (repeat' split) <;> simp [dropBlocks, returnOpen, dropSent]
@[simp] theorem recordWriteOp_held (s : State) (r : Nat) : SameHeld s (recordWriteOp s r) := by unfold recordWriteOp; (repeat' split) <;> simp
@[simp] theorem recordAckOp_held (s : State) (q : Nat) : SameHeld s (recordAckOp s q) := by
  unfold recordAckOp; dsimp only; (repeat' split) <;> simp [ackWork]
@[simp] theorem modTimeOp_held (s : State) (m : ModSrc) : SameHeld s (modTimeOp s m) := by unfold modTimeOp; split <;> simp
@[simp] theorem setSizes_held (s : State) (dc : DevCtl) : SameHeld s (setSizes s dc) := by simp [setSizes]
@[simp] theorem makeWaiting_held (s : State) (x : LXfer) : SameHeld s (makeWaiting s x) := by unfold makeWaiting; split <;> simp
@[simp] theorem flushWaiting_held (s : State) : SameHeld s (flushWaiting s) := by simp [flushWaiting]
@[simp] theorem setVfs_held (s : State) (enable : Bool) (numVfs : Half) : SameHeld s (setVfs s enable numVfs) := by simp [setVfs]

/-! ### Channel-table reads (chapter 04) -/

@[simp] theorem mapTab_held (s : State) (c : Nat) (f : ChTab → ChTab) : SameHeld s (mapTab s c f) := by simp [mapTab]
@[simp] theorem returnRefreshes_held (s : State) (c : Nat) (st : Status) : SameHeld s (returnRefreshes s c st) := by simp [returnRefreshes]
@[simp] theorem readFailed_held (s : State) (c : Nat) (st : Status) : SameHeld s (readFailed s c st) := by simp [readFailed]
@[simp] theorem issuePhase_held (s : State) (c off len : Nat) (p : ReadPhase) : SameHeld s (issuePhase s c off len p) := by
  simp [issuePhase, readWindowFault]
@[simp] theorem beginRead_held (s : State) (c : Nat) : SameHeld s (beginRead s c) := by simp [beginRead]
@[simp] theorem requestRefresh_held (s : State) (c : Nat) : SameHeld s (requestRefresh s c) := by simp [requestRefresh]
@[simp] theorem requestAll_held (s : State) (l : List Nat) : SameHeld s (requestAll s l) := by simp [requestAll]

/-! ### The ledger and recoveries (chapter 03) -/

@[simp] theorem ledgerFresh_held (s : State) : SameHeld s (ledgerFresh s) := by simp [ledgerFresh]
@[simp] theorem ledgerCloseOp_held (s : State) : SameHeld s (ledgerCloseOp s) := by simp [ledgerCloseOp]
@[simp] theorem adoptRing_held (img : LedgerImage) (s : State) (r : RingNo) : SameHeld s (adoptRing img s r) := by
  unfold adoptRing; (repeat' split) <;> simp
@[simp] theorem adoptAdd_held (s : State) (r : RingNo) (n : Word) (d : Desc) (st : Stage) (ret : Option Outcome) :
    SameHeld s (adoptAdd s r n d st ret) := by simp [adoptAdd]
@[simp] theorem adoptLost_held (invalid : Bool) (r : RingNo) (s : State) (n : Word) : SameHeld s (adoptLost invalid r s n) := by simp [adoptLost]
@[simp] theorem adoptTrib_held (img : LedgerImage) (invalid : Bool) (r : RingNo) (s : State) (n : Word) :
    SameHeld s (adoptTrib img invalid r s n) := by unfold adoptTrib; split <;> simp
@[simp] theorem adoptNow_held (s : State) (img : LedgerImage) : SameHeld s (adoptNow s img) := by
  unfold adoptNow; split <;> simp [adoptSpilled, adoptRingWork, adoptWork]
@[simp] theorem adoptRead_held (s : State) (res : XferResult) (img : LedgerImage) : SameHeld s (adoptRead s res img) := by simp [adoptRead]
@[simp] theorem retryOne_held (res : XferResult) (img : LedgerImage) (s : State) (x : LXfer) : SameHeld s (retryOne res img s x) := by
  unfold retryOne; split <;> simp
@[simp] theorem countRxLost_held (s : State) (r n : Nat) : SameHeld s (countRxLost s r n) := by unfold countRxLost; (repeat' split) <;> simp
@[simp] theorem settleOne_held (s : State) (v : Recovery) : SameHeld s (settleOne s v) := by simp [settleOne, endReset, settleRing]
@[simp] theorem settleFirst_held (s : State) (done rest : List Recovery) : SameHeld s (settleFirst s done rest) := by
  induction rest generalizing done with
  | nil => exact .refl _
  | cons v rest ih => unfold settleFirst; split <;> simp [ih]
@[simp] theorem recoveryDoneOp_held (s : State) : SameHeld s (recoveryDoneOp s) := by unfold recoveryDoneOp; split <;> simp [activate]

/-! ### Channel states (chapter 04) -/

@[simp] theorem setChSt_held (s : State) (c : Nat) (st : ChSt) : SameHeld s (setChSt s c st) := by simp [setChSt]
@[simp] theorem wakeRaised_held (old s : State) : SameHeld s (wakeRaised old s) := by simp [wakeRaised]
@[simp] theorem setIsland_held (s : State) (c : Nat) (on : Bool) : SameHeld s (setIsland s c on) := by simp [setIsland, islandDomains]
@[simp] theorem dropCur_held (s : State) (c : Nat) : SameHeld s (dropCur s c) := by
  unfold dropCur; split
  next => exact .refl s
  next f _ => cases f.src <;> simp
@[simp] theorem dropChan_held (s : State) (c : Nat) (p : Frame → Bool) : SameHeld s (dropChan s c p) := by simp [dropChan]
@[simp] theorem stopLine_held (s : State) (c : Nat) : SameHeld s (stopLine s c) := by simp [stopLine]
@[simp] theorem breakBlock_held (s : State) (c i : Nat) : SameHeld s (breakBlock s c i) := by unfold breakBlock; split <;> simp
@[simp] theorem leaveService_held (s : State) (c : Nat) : SameHeld s (leaveService s c) := by simp [leaveService, returnNoPath]
@[simp] theorem enterOff_held (s : State) (c : Nat) : SameHeld s (enterOff s c) := by simp [enterOff]
@[simp] theorem goReady_held (s : State) (c : Nat) : SameHeld s (goReady s c) := by simp [goReady]
@[simp] theorem enterHalted_held (s : State) (c : Nat) (cause : Nat) : SameHeld s (enterHalted s c cause) := by simp [enterHalted]
@[simp] theorem applyTarget_held (s : State) (c : Nat) : SameHeld s (applyTarget s c) := by unfold applyTarget; (repeat' split) <;> simp [goOff]
@[simp] theorem failTraining_held (s : State) (c cause : Nat) : SameHeld s (failTraining s c cause) := by simp [failTraining]
@[simp] theorem sweepNoCore_held (s : State) (c : Nat) : SameHeld s (sweepNoCore s c) := by simp [sweepNoCore]
@[simp] theorem goTrain_held (s : State) (c : Nat) : SameHeld s (goTrain s c) := by simp [goTrain]
@[simp] theorem lossOfLineOp_held (s : State) (c : Nat) : SameHeld s (lossOfLineOp s c) := by simp [lossOfLineOp]
@[simp] theorem stopWork_held (s : State) (c : Nat) : SameHeld s (stopWork s c) := by simp [stopWork]
@[simp] theorem channelReset_held (s : State) (c : Nat) (cmds : List (RingNo × Word)) : SameHeld s (channelReset s c cmds) := by
  unfold channelReset; split <;> simp [resetChannel, clearChanEvents]
@[simp] theorem chResetOp_held (s : State) (r : RingNo) (seq : Word) : SameHeld s (chResetOp s r seq) := by
  unfold chResetOp; (repeat' split) <;> simp
@[simp] theorem chHoldOp_held (s : State) (c : Nat) (v : Word) : SameHeld s (chHoldOp s c v) := by simp [chHoldOp]

/-! ### The channel table (chapter 04) -/

@[simp] theorem applyEntry_held (s : State) (c : Nat) (g : Word) (b : List Byte) : SameHeld s (applyEntry s c g b) := by
  simp [applyEntry, applyMac, raisePn, pnReached, applyFeed]
@[simp] theorem phaseOk_held (s : State) (c : Nat) (data : List Byte) : SameHeld s (phaseOk s c data) := by
  unfold phaseOk; split <;> simp [nextPhase, discardRead, wholeRead, serveOne]
@[simp] theorem chtabRefreshOp_held (s : State) (mask : Word) : SameHeld s (chtabRefreshOp s mask) := by simp [chtabRefreshOp]
@[simp] theorem chRefreshOp_held (s : State) (r : RingNo) (seq : Word) : SameHeld s (chRefreshOp s r seq) := by
  unfold chRefreshOp; (repeat' split) <;> simp
@[simp] theorem chtabEnableOp_held (s : State) (on : Bool) : SameHeld s (chtabEnableOp s on) := by simp [chtabEnableOp, tableOff, applyTargets]

/-! ### Frames of the host (chapters 03, 08) -/

@[simp] theorem txFrameOp_held (s : State) (r : Nat) (seq : Word) : SameHeld s (txFrameOp s r seq) := by
  unfold txFrameOp; (repeat' split) <;> simp
@[simp] theorem returnLost_held (s : State) (r : RingNo) (seq : Word) (st : Status) : SameHeld s (returnLost s r seq st) := by simp [returnLost]
@[simp] theorem txReadOp_held (s : State) (r : RingNo) (seq : Word) : SameHeld s (txReadOp s r seq) := by
  unfold txReadOp; (repeat' split) <;> simp
@[simp] theorem storeTx_held (s : State) (r : RingNo) (w : Work) (b : List Byte) : SameHeld s (storeTx s r w b) := by
  unfold storeTx; split <;> simp
@[simp] theorem txReadDoneOp_held (s : State) (r : RingNo) (seq : Word) (res : XferResult) (data : List Byte) :
    SameHeld s (txReadDoneOp s r seq res data) := by unfold txReadDoneOp; split <;> simp
@[simp] theorem rxBufferOp_held (s : State) (r : Nat) (seq : Word) : SameHeld s (rxBufferOp s r seq) := by unfold rxBufferOp; split <;> simp
@[simp] theorem dropWaiting_held (s : State) (r : Nat) : SameHeld s (dropWaiting s r) := by unfold dropWaiting; (repeat' split) <;> simp
@[simp] theorem afterLeave_held (s : State) (f : Frame) : SameHeld s (afterLeave s f) := by unfold afterLeave; split <;> simp
@[simp] theorem rxDeliverOp_held (s : State) (r : Nat) : SameHeld s (rxDeliverOp s r) := by unfold rxDeliverOp; split <;> simp
@[simp] theorem lifetimeOp_held (s : State) (r : RingNo) (seq : Word) : SameHeld s (lifetimeOp s r seq) := by unfold lifetimeOp; split <;> simp
@[simp] theorem refetchWork_held (s : State) (x : RingNo × Word) : SameHeld s (refetchWork s x) := by unfold refetchWork; split <;> simp

/-! ### The cipher unit (chapter 11) -/

@[simp] theorem secReturn_held (s : State) (q : SecSrc) (st : Status) : SameHeld s (secReturn s q st) := by unfold secReturn; split <;> simp
@[simp] theorem secDone_held (s : State) (q : SecSrc) (st : Status) (r0 r1 : Word) : SameHeld s (secDone s q st r0 r1) := by
  unfold secDone; split <;> simp
@[simp] theorem secDo_held (s : State) (q : SecSrc) (c : Option Status) (act : State) :
    SameHeld (if c.isSome then s else act) (secDo s q c act) := by cases c <;> simp [secDo]
@[simp] theorem secWrite_held (s : State) (q : SecSrc) (addr : Nat) (b : List Byte) : SameHeld s (secWrite s q addr b) := by
  unfold secWrite; (repeat' split) <;> simp
@[simp] theorem secFault_held (s : State) (q : SecSrc) (addr : Nat) : SameHeld s (secFault s q addr) := by unfold secFault; split <;> simp
@[simp] theorem secWindow_held (s : State) (q : SecSrc) (write : Bool) (addr len : Nat) (go : State) :
    SameHeld (if secOpen s q write addr len then go else s) (secWindow s q write addr len go) := by simp [secWindow]
@[simp] theorem secReadFailed_held (s : State) (q : SecSrc) (res : XferResult) (addr : Nat) : SameHeld s (secReadFailed s q res addr) := by
  unfold secReadFailed; split <;> simp
@[simp] theorem secRead_held (s : State) (q : SecSrc) (addr len : Nat) : SameHeld s (secRead s q addr len) := by unfold secRead; split <;> simp
@[simp] theorem secStart_held (s : State) (q : SecSrc) (d : Desc) (blk : Option OpBlock) (addr len : Nat) :
    SameHeld s (secStart s q d blk addr len) := by unfold secStart; split <;> simp
@[simp] theorem withBlock_held (s : State) (q : SecSrc) (d : Desc) (res : XferResult) (raw : List Byte) (pre : Option Status) (tagOut : Bool)
    (act : State → OpBlock → State) (h : ∀ t b, SameHeld t (act t b)) : SameHeld s (withBlock s q d res raw pre tagOut act) := by
  unfold withBlock; dsimp only; split <;> simp [secWindow, h]
@[simp] theorem cipherStart_held (s : State) (q : SecSrc) (d : Desc) (res : XferResult) (raw : List Byte) (kinds : List Nat)
    (out tagOut gcm : Bool) : SameHeld s (cipherStart s q d res raw kinds out tagOut gcm) :=
  withBlock_held _ _ _ _ _ _ _ _ (fun t b => by simp)
@[simp] theorem gcmEncryptRun_held (s : State) (q : SecSrc) (d : Desc) (res : XferResult) (raw : List Byte) :
    SameHeld s (gcmEncryptRun s q d res raw) := by simp [gcmEncryptRun]
@[simp] theorem gcmDecryptRun_held (s : State) (q : SecSrc) (d : Desc) (res : XferResult) (raw : List Byte) :
    SameHeld s (gcmDecryptRun s q d res raw) := by simp [gcmDecryptRun]
@[simp] theorem cmacRun_held (s : State) (q : SecSrc) (d : Desc) (res : XferResult) (raw : List Byte) : SameHeld s (cmacRun s q d res raw) := by
  simp [cmacRun]
@[simp] theorem ccmStarRun_held (s : State) (q : SecSrc) (d : Desc) (res : XferResult) (raw : List Byte) :
    SameHeld s (ccmStarRun s q d res raw) := by simp [ccmStarRun]
@[simp] theorem createKey_held (s : State) (q : SecSrc) (kind : Nat) (exportable : Bool) (key : List Byte) (salt : Option (List Byte)) :
    KeepsRoot s (createKey s q kind exportable key salt) := by
  unfold createKey
  split
  · simp
  next i hi =>
    simp only [KeepsRoot, secDone_held, makeKey, refreshKeys_held, setSlot_pending, setSlot_part, setSlot_upl, true_and]
    exact fun h => (setSlot_ne_root s _ (freeKeySlot_ne_zero h hi)).trans h
@[simp] theorem countDraw_held (s : State) : SameHeld s (countDraw s) := by
  refine ⟨rfl, rfl, ?_, rfl⟩
  simp only [countDraw, setSec_sec]
  split <;> rfl
@[simp] theorem keyGenRun_held (s : State) (q : SecSrc) (d : Desc) : KeepsRoot s (keyGenRun s q d) := by simp +contextual [keyGenRun]
@[simp] theorem keyLoadRun_held (s : State) (q : SecSrc) (d : Desc) (res : XferResult) (raw : List Byte) :
    SameHeld s (keyLoadRun s q d res raw) :=
  withBlock_held _ _ _ _ _ _ _ _ (fun t b => by simp)
@[simp] theorem keyImportRun_held (s : State) (q : SecSrc) (d : Desc) (res : XferResult) (raw : List Byte) :
    SameHeld s (keyImportRun s q d res raw) :=
  withBlock_held _ _ _ _ _ _ _ _ (fun t b => by simp)
@[simp] theorem keyExportRun_held (s : State) (q : SecSrc) (d : Desc) (res : XferResult) (raw : List Byte) :
    SameHeld s (keyExportRun s q d res raw) :=
  withBlock_held _ _ _ _ _ _ _ _ (fun t b => by simp)
@[simp] theorem keyDeriveRun_held (s : State) (q : SecSrc) (d : Desc) : KeepsRoot s (keyDeriveRun s q d) := by simp +contextual [keyDeriveRun]
@[simp] theorem keyClearRun_held (s : State) (q : SecSrc) (d : Desc) : KeepsRoot s (keyClearRun s q d) := by
  unfold keyClearRun
  split
  · simp
  · cases hc : clearCheck s q d with
    | some st => simp [secDo]
    | none =>
      simp only [secDo, KeepsRoot, secDone_held, refreshKeys_held, setSlot_pending, setSlot_part, setSlot_upl, true_and]
      exact fun h => (setSlot_ne_root s _ (clearedSlot_ne_zero h hc)).trans h
@[simp] theorem keyInfoRun_held (s : State) (q : SecSrc) (d : Desc) : SameHeld s (keyInfoRun s q d) := by simp [keyInfoRun]
@[simp] theorem setCtx_held (s : State) (i : Nat) (k : CvCtx) : SameHeld s (setCtx s i k) := by simp [setCtx]
@[simp] theorem secRun_held (s : State) (q : SecSrc) (d : Desc) (res : XferResult) (raw : List Byte) : KeepsRoot s (secRun s q d res raw) := by
  unfold secRun; split <;> simp +contextual [cvRestoreRun, cvSaveRun, cvUpdateRun, randomRun]
@[simp] theorem portTurn_held (n : Nat) (s : State) : KeepsRoot s (portTurn n s) := by
  induction n generalizing s with
  | zero => exact KeepsRoot.refl s
  | succ n ih => unfold portTurn; (repeat' split) <;> simp +contextual [ih]
@[simp] theorem secCommand_held (s : State) (q : SecSrc) (op : Nat) (res : XferResult) (raw : List Byte) :
    KeepsRoot s (secCommand s q op res raw) := by unfold secCommand; (repeat' split) <;> simp +contextual
@[simp] theorem verified_held (s : State) (q : SecSrc) (dst : Nat) (out : List Byte) (ok : Bool) : SameHeld s (verified s q dst out ok) := by
  simp [verified]
@[simp] theorem blockDone_held (s : State) (q : SecSrc) (d : Desc) (b : OpBlock) (data : List Byte) : KeepsRoot s (blockDone s q d b data) := by
  unfold blockDone; (repeat' split) <;> simp +contextual [sealedOut]
@[simp] theorem secCompleteOp_held (s : State) (q : SecSrc) (res : XferResult) (data : List Byte) : KeepsRoot s (secCompleteOp s q res data) := by
  unfold secCompleteOp; (repeat' split) <;> simp +contextual [cvDone]
@[simp] theorem rerunOp_held (s : State) (o : SecOp) : SameHeld s (rerunOp s o) := by unfold rerunOp; split <;> simp
@[simp] theorem sweepOps_held (s : State) : KeepsRoot s (sweepOps s) := by unfold sweepOps; dsimp only; split <;> simp +contextual
@[simp] theorem coreFailOp_held (s : State) (core : Nat) (chans : List Nat) (ops : List SecSrc) : KeepsRoot s (coreFailOp s core chans ops) := by
  unfold coreFailOp; dsimp only
  split
  · exact .refl s
  · exact KeepsRoot.trans (KeepsRoot.trans (SameHeld.keepsRoot (by simp)) (sweepOps_held _)) (SameHeld.keepsRoot (startRecovery_held _ _ _ _ _ _ _))
@[simp] theorem trngFailOp_held (s : State) : SameHeld s (trngFailOp s) := by simp [trngFailOp]
@[simp] theorem clearKeys_held (s : State) : SameHeld s (clearKeys s) := by simp [clearKeys, clearSlots_root]

/-! ### The radio (chapter 12) -/

@[simp] theorem radCount_held (s : State) (i : Nat) : SameHeld s (radCount s i) := by simp [radCount]
@[simp] theorem chargeAll_held (s : State) (ch : BitVec 11) (n : Nat) : SameHeld s (chargeAll s ch n) := by simp [chargeAll]
@[simp] theorem raiseRefused_held (s : State) (b : Option Nat) : SameHeld s (raiseRefused s b) := by unfold raiseRefused; split <;> simp
@[simp] theorem radEnd_held (s : State) (t : RadTx) (acked noAck stop : Bool) : SameHeld s (radEnd s t acked noAck stop) := by simp [radEnd]
@[simp] theorem radFail_held (s : State) (t : RadTx) (ret : Outcome) (noAck stop : Bool) : SameHeld s (radFail s t ret noAck stop) := by
  simp [radFail]
@[simp] theorem tryAttempt_held (s : State) (t : RadTx) (w : Work) : SameHeld s (tryAttempt s t w) := by
  unfold tryAttempt; dsimp only; (repeat' split) <;> simp [sendAttempt]
@[simp] theorem retryAttempt_held (s : State) : SameHeld s (retryAttempt s) := by unfold retryAttempt; split <;> simp
@[simp] theorem releaseHeld_held (s : State) : SameHeld s (releaseHeld s) := by unfold releaseHeld; split <;> simp
@[simp] theorem beginBackoff_held (s : State) (t : RadTx) (nb be : Nat) : SameHeld s (beginBackoff s t nb be) := by simp [beginBackoff]
@[simp] theorem beginListen_held (s : State) (t : RadTx) (n : Nat) : SameHeld s (beginListen s t n) := by simp [beginListen]
@[simp] theorem beginAccess_held (s : State) (t : RadTx) (w : Work) : SameHeld s (beginAccess s t w) := by simp [beginAccess]
@[simp] theorem accessFails_held (s : State) (t : RadTx) : SameHeld s (accessFails s t) := by simp [accessFails]
@[simp] theorem radFrameOp_held (s : State) (seq : Word) (res : XferResult) (frame : List Byte) : SameHeld s (radFrameOp s seq res frame) := by
  unfold radFrameOp; (repeat' split) <;> simp
@[simp] theorem csmaOp_held (s : State) (busy : Bool) : SameHeld s (csmaOp s busy) := by unfold csmaOp; (repeat' split) <;> simp
@[simp] theorem lbtOp_held (s : State) (free : Bool) : SameHeld s (lbtOp s free) := by unfold lbtOp; (repeat' split) <;> simp
@[simp] theorem radioTxEndOp_held (s : State) : SameHeld s (radioTxEndOp s) := by unfold radioTxEndOp; dsimp only; (repeat' split) <;> simp
@[simp] theorem radioAckOp_held (s : State) (psdu : List Byte) (four : Bool) : SameHeld s (radioAckOp s psdu four) := by
  unfold radioAckOp; split <;> simp
@[simp] theorem radioAckTimeoutOp_held (s : State) : SameHeld s (radioAckTimeoutOp s) := by unfold radioAckTimeoutOp; split <;> simp
@[simp] theorem setFcMin_held (s : State) (i : Nat) (q : Word) : SameHeld s (setFcMin s i q) := by simp [setFcMin]
theorem radVerify_held {s t : State} {h : MacHdr} {b : List Byte} {x : Option (List Byte × Nat)} (e : radVerify s h b = (t, x)) :
    SameHeld s t := by unfold radVerify at e; dsimp only at e; (repeat' split at e) <;> cases e <;> simp
@[simp] theorem radStore_held (s : State) (f : RadRx) (b : List Byte) (secured : Bool) (idx : Nat) : SameHeld s (radStore s f b secured idx) := by
  simp [radStore]
@[simp] theorem radioRxOp_held (s : State) (f : RadRx) : SameHeld s (radioRxOp s f) := by
  unfold radioRxOp
  split; · exact .refl s
  split; · simp
  split; · simp
  split; · simp
  split
  next e => exact radVerify_held e
  next e => simp [radVerify_held e]
@[simp] theorem radioAckTxOp_held (s : State) : SameHeld s (radioAckTxOp s) := by unfold radioAckTxOp; split <;> simp
@[simp] theorem radioDeliverOp_held (s : State) : SameHeld s (radioDeliverOp s) := by unfold radioDeliverOp; split <;> simp [popStored]
@[simp] theorem devCmd_held (s : State) (who : Requester) (idx : BitVec 5) (f : Rad → Rad) : SameHeld s (devCmd s who idx f) := by
  unfold devCmd; split <;> simp
@[simp] theorem radOn_held (s : State) : SameHeld s (radOn s) := by simp [radOn, govFill]
@[simp] theorem radCut_held (s : State) : SameHeld s (radCut s) := by unfold radCut; split <;> simp
@[simp] theorem radOff_held (s : State) : SameHeld s (radOff s) := by simp [radOff]
@[simp] theorem radFollow_held (s : State) : SameHeld s (radFollow s) := by simp [radFollow]

/-! ### Boot (chapter 15) -/

@[simp] theorem boot_held (s : State) : SameHeld s (boot s) := by simp [boot]
@[simp] theorem fwRestart_held (s : State) : SameHeld s (fwRestart s) := by simp [fwRestart]
@[simp] theorem deriveCapsule_held (s : State) : KeepsRoot s (deriveCapsule s) := by
  unfold deriveCapsule
  split
  · simp
  split
  · simp
  next i hi => exact ⟨rfl, rfl, rfl, fun h => (setSlot_ne_root s _ (freeSlot_ne_zero h hi)).trans h⟩
@[simp] theorem writeRecord_held (s : State) (f : IdRec → IdRec) : KeepsRoot s (writeRecord s f) := by simp +contextual [writeRecord]

/-! ### Scheduling (chapter 09) -/

@[simp] theorem frameEmitted_held (s : State) (c : Nat) (f : Frame) : SameHeld s (frameEmitted s c f) := by
  unfold frameEmitted; cases f.src <;> dsimp only <;> (repeat' split) <;> simp
@[simp] theorem countOverrun_held (s : State) (c : Nat) : SameHeld s (countOverrun s c) := by simp [countOverrun]
@[simp] theorem placeBytes_held (n : Nat) (s : State) (c : Nat) : SameHeld s (placeBytes n s c) := by
  induction n generalizing s with
  | zero => exact .refl s
  | succ n ih => unfold placeBytes; dsimp only; (repeat' split) <;> simp [ih]
@[simp] theorem placeAll_held (s : State) (c : Nat) : SameHeld s (placeAll s c) := by simp [placeAll]
@[simp] theorem takeCore_held (s : State) (c : Nat) : SameHeld s (takeCore s c) := by simp [takeCore]
@[simp] theorem selectDown_held (s : State) (c prio : Nat) : SameHeld s (selectDown s c prio) := by
  unfold selectDown; dsimp only; (repeat' split) <;> simp
@[simp] theorem releaseUp_held (s : State) (c : Nat) (f : Frame) : SameHeld s (releaseUp s c f) := by unfold releaseUp; split <;> simp
@[simp] theorem selectUp_held (s : State) (c prio : Nat) : SameHeld s (selectUp s c prio) := by
  unfold selectUp; dsimp only; (repeat' split) <;> simp
@[simp] theorem gclSwapOp_held (s : State) (c : Nat) : SameHeld s (gclSwapOp s c) := by simp [gclSwapOp]
@[simp] theorem clearHist_held (s : State) (c : Nat) : SameHeld s (clearHist s c) := by simp [clearHist]

/-! ### The uplink (chapter 05) -/

@[simp] theorem driveTx_held (s : State) : SameHeld s (driveTx s) := by simp [driveTx]
@[simp] theorem followSrc_held (s : State) : SameHeld s (followSrc s) := by simp [followSrc]
@[simp] theorem setGate_held (s : State) (g : GateSt) : LeavesGate s (setGate s g) g := by
  unfold setGate; split <;> simp_all
@[simp] theorem emitBurstWork_held (cut : Bool) (s : State) (x : BurstWork) : SameHeld s (emitBurstWork cut s x) := by
  unfold emitBurstWork; split <;> simp
@[simp] theorem mapTcont_held (s : State) (p : Frame → Frame) : SameHeld s (mapTcont s p) := by simp [mapTcont]
@[simp] theorem dropTcont_held (s : State) (p : Frame → Bool) : SameHeld s (dropTcont s p) := by simp [dropTcont]
@[simp] theorem pauseAll_held (s : State) : SameHeld s (pauseAll s) := by simp [pauseAll]
@[simp] theorem loseSeg_held (st : Status) (s : State) (g : BurstSeg) : SameHeld s (loseSeg st s g) := by unfold loseSeg; split <;> simp
@[simp] theorem stopWindow_held (s : State) (reached : Nat) (st : Status) : SameHeld s (stopWindow s reached st) := by
  unfold stopWindow; split <;> simp
@[simp] theorem restoreBurst_held (s : State) (b : Burst) : SameHeld s (restoreBurst s b) := by unfold restoreBurst; split <;> simp [unplan]
@[simp] theorem countRefused_held (s : State) : SameHeld s (countRefused s) := by simp [countRefused]
@[simp] theorem refuseAll_held (s : State) : SameHeld s (refuseAll s) := by unfold refuseAll; dsimp only; split <;> simp [-List.foldl_reverse]
@[simp] theorem declareLods_held (s : State) : SameHeld s (declareLods s) := by simp [declareLods]
@[simp] theorem takeEqd_held (s : State) : SameHeld s (takeEqd s) := by unfold takeEqd; split <;> simp
@[simp] theorem countXgem_held (s : State) : SameHeld s (countXgem s) := by simp [countXgem]
@[simp] theorem psyncMissOp_held (s : State) : SameHeld s (psyncMissOp s) := by unfold psyncMissOp; (repeat' split) <;> simp
@[simp] theorem micFail_held (s : State) : SameHeld s (micFail s) := by simp [micFail]
@[simp] theorem clearIds_held (u : Upl) : (clearIds u).gate = u.gate := rfl
@[simp] theorem removeOmci_held (u : Upl) : (removeOmci u).gate = u.gate := rfl
@[simp] theorem installOmci_held (u : Upl) (id : BitVec 10) : (installOmci u id).gate = u.gate := by simp [installOmci]
@[simp] theorem portReadOp_held (u : Upl) (idx : BitVec 10) : (portReadOp u idx).gate = u.gate := rfl
@[simp] theorem portWriteOp_held (u : Upl) (idx : BitVec 10) : (portWriteOp u idx).gate = u.gate := by
  unfold portWriteOp; dsimp only; (repeat' split) <;> rfl
@[simp] theorem portClearOp_held (u : Upl) (idx : BitVec 10) : (portClearOp u idx).gate = u.gate := by unfold portClearOp; split <;> rfl
@[simp] theorem syncMatch_held (u : Upl) : (syncMatch u).gate = u.gate := by unfold syncMatch; split <;> rfl
@[simp] theorem pickPloam_held (u : Upl) (first : Alloc) : (pickPloam u first).1.gate = u.gate := by
  unfold pickPloam; (repeat' split) <;> rfl
@[simp] theorem allocOp_held (s : State) (id : BitVec 14) (add : Bool) : SameHeld s (allocOp s id add) := by
  unfold allocOp; (repeat' split) <;> simp
@[simp] theorem unassign_held (s : State) :
    LeavesGate s (unassign s) (if s.upl.gate = .stopped then .stopped else .notAssigned) := by
  unfold unassign; split <;> simp [*]
@[simp] theorem stopGate_held (s : State) : LeavesGate s (stopGate s) .stopped := by simp [stopGate]
@[simp] theorem onuStateOp_held (s : State) (v : BitVec 4) : SameHeld s (onuStateOp s v) := by simp [onuStateOp, returnUplink]
@[simp] theorem xgemTake_held (s : State) (e : PortEntry) (x : List Byte) (last : Bool) (t : Nat) : SameHeld s (xgemTake s e x last t) := by
  unfold xgemTake; dsimp only; (repeat' split) <;> simp [xgemFrame]
@[simp] theorem xgemOp_held (s : State) (hdr : DWord) (pos hdrBit : Nat) (b : List Byte) : SameHeld s (xgemOp s hdr pos hdrBit b) := by
  unfold xgemOp; dsimp only; (repeat' split) <;> simp
@[simp] theorem userWrite_held (s : State) (w : Option (Byte × List Byte)) : SameHeld s (userWrite s w) := by unfold userWrite; split <;> simp
@[simp] theorem rogueClearOp_held (s : State) (sd : Bool) : SameHeld s (rogueClearOp s sd) := by simp [rogueClearOp]
@[simp] theorem queuePloams_held (s : State) (l : List (List Byte)) : SameHeld s (queuePloams s l) := by simp [queuePloams]
theorem fixBurst_held {s : State} {tds : Nat} {base : Int} {l : List Alloc} {rand : Nat} {u : Upl} {b : Burst}
    (e : fixBurst s tds base l rand = some (u, b)) : u.gate = s.upl.gate := by
  cases l with
  | nil => cases e
  | cons first t =>
    cases hprof : vget s.upl.profiles first.profile.val none with
    | none => simp [fixBurst, hprof] at e
    | some prof =>
      simp only [fixBurst, hprof, Option.ite_none_left_eq_some, Option.some.injEq, Prod.mk.injEq] at e
      obtain ⟨-, rfl, -⟩ := e
      simp
@[simp] theorem fixOp_held (s : State) (tds : Nat) (allocs : List Alloc) : SameHeld s (fixOp s tds allocs) := by
  unfold fixOp; dsimp only
  split
  · exact .refl s
  split
  · simp
  next e => simp [fixBurst_held e]
@[simp] theorem contentFixOp_held (s : State) (tds : Nat) (allocs : List DWord) (ploams : List (List Byte)) :
    SameHeld s (contentFixOp s tds allocs ploams) := by simp [contentFixOp, iter_held]
theorem openSegs_held (b : Burst) (l : List BurstSeg) (x : State × List (Nat × List Byte) × List BurstSeg) :
    SameHeld x.1 (l.foldl (openSeg b) x).1 := by
  induction l generalizing x with
  | nil => exact .refl _
  | cons g l ih =>
    refine SameHeld.trans ?_ (ih _)
    unfold openSeg; (repeat' split) <;> simp
@[simp] theorem sendPloam_held (s : State) (b : Burst) : SameHeld s (sendPloam s b) := by unfold sendPloam; split <;> simp
@[simp] theorem openBurst_held (s : State) (b : Burst) : SameHeld s (openBurst s b) := by simp [openBurst, openSegs_held]
@[simp] theorem maskBurst_held (s : State) (b : Burst) : SameHeld s (maskBurst s b) := by
  unfold maskBurst; dsimp only
  split
  · simp
  split
  · simp
  next e => simpa using fixBurst_held e
@[simp] theorem windowOpenOp_held (s : State) : SameHeld s (windowOpenOp s) := by unfold windowOpenOp; split <;> simp
@[simp] theorem burstPtp_held (s : State) (g : BurstSeg) : SameHeld s (burstPtp s g) := by unfold burstPtp; (repeat' split) <;> simp
@[simp] theorem burstWindowCloseOp_held (s : State) : SameHeld s (windowCloseOp_ s) := by unfold windowCloseOp_; split <;> simp [leaveQueues]
@[simp] theorem rxOff_held (s : State) : SameHeld s (rxOff s) := by simp [rxOff]
@[simp] theorem rxOnAgain_held (s : State) : SameHeld s (rxOnAgain s) := by simp [rxOnAgain]
@[simp] theorem enterMode_held (s : State) (m : PonMode) : SameHeld s (enterMode s m) := by unfold enterMode; split <;> simp
@[simp] theorem ponTimerOp_held (s : State) (t : PonTimer) : SameHeld s (ponTimerOp s t) := by unfold ponTimerOp; (repeat' split) <;> simp
@[simp] theorem dyingGasp_held (s : State) (onBattery : Bool) : SameHeld s (dyingGasp s onBattery) := by simp [dyingGasp]
@[simp] theorem dyingGaspEnd_held (s : State) : SameHeld s (dyingGaspEnd s) := by simp [dyingGaspEnd]
@[simp] theorem cutUplink_held (s : State) : SameHeld s (cutUplink s) := by unfold cutUplink; split <;> simp
@[simp] theorem uplSettled_held (s : State) : SameHeld s (uplSettled s) := by simp [uplSettled]

/-! ### What a reset and the link leave (chapters 00, 02) -/

@[simp] theorem loseLink_held (s : State) : SameHeld s (loseLink s) := by simp [loseLink]
@[simp] theorem resetConfig_held (s : State) : SameHeld s (resetConfig s) := by simp [resetConfig]
@[simp] theorem endCapsule_held (s : State) : SameHeld s (endCapsule s) := by unfold endCapsule; split <;> simp
@[simp] theorem wakeSource_held (s : State) (code : Nat) : SameHeld s (wakeSource s code) := by unfold wakeSource; dsimp only; split <;> simp
@[simp] theorem tryResume_held (s : State) : SameHeld s (tryResume s) := by simp [tryResume]
@[simp] theorem returnReset_held (s : State) (r : RingNo) : SameHeld s (returnReset s r) := by simp [returnReset]

/-! ### Power states and domains (chapter 14) -/

@[simp] theorem keysOff_held (s : State) : SameHeld s (keysOff s) := by simp [keysOff]
@[simp] theorem hifOff_held (s : State) : SameHeld s (hifOff s) := by simp [hifOff]
@[simp] theorem lastStep_held (s : State) : SameHeld s (lastStep s) := by unfold lastStep; dsimp only; (repeat' split) <;> simp
@[simp] theorem refuseEntry_held (s : State) (why : Nat) : SameHeld s (refuseEntry s why) := by simp [refuseEntry]
@[simp] theorem stopFetch_held (s : State) : SameHeld s (stopFetch s) := by simp [stopFetch]
@[simp] theorem pwrEnterOp_held (s : State) (seq : Word) : SameHeld s (pwrEnterOp s seq) := by
  unfold pwrEnterOp; dsimp only; (repeat' split) <;> simp
@[simp] theorem pwrGoOp_held (s : State) (toOff : Bool) : SameHeld s (pwrGoOp s toOff) := by unfold pwrGoOp; dsimp only; (repeat' split) <;> simp
@[simp] theorem wakeIf_held (s : State) (bit code : Nat) : SameHeld s (wakeIf s bit code) := by simp [wakeIf]
@[simp] theorem lingerOp_held (s : State) (d : Domain) : SameHeld s (lingerOp s d) := by unfold lingerOp; (repeat' split) <;> simp

/-! ### The supply watch (chapter 13) -/

@[simp] theorem closes_held (s : State) (i : Nat) (c : Comp) (x : Crossing) : SameHeld s (closes s i c x) := by
  unfold closes; split <;> simp [closeDist]
@[simp] theorem tryUnshed_held (s : State) : SameHeld s (tryUnshed s) := by simp [tryUnshed, unshed]
@[simp] theorem endSealShed_held (s : State) : SameHeld s (endSealShed s) := by simp [endSealShed]
@[simp] theorem feedCross_held (s0 : State) (x : Crossing) : SameHeld s0 (feedCross s0 x) := by
  unfold feedCross; (repeat' split) <;> simp [resumeInrush, pauseInrush]
@[simp] theorem sealStarts_held (s : State) : SameHeld s (sealStarts s) := by simp [sealStarts]
@[simp] theorem startSeal_held (s : State) (bat : Bool) : SameHeld s (startSeal s bat) := by simp [startSeal]
@[simp] theorem crossEffect_held (s : State) (i : SupIn) (x : Crossing) (trip close : Bool) : SameHeld s (crossEffect s i x trip close) := by
  unfold crossEffect; (repeat' split) <;> simp [mainRestore, mainTrip]
@[simp] theorem sealDoneOp_held (s : State) : SameHeld s (sealDoneOp s) := by simp [sealDoneOp]
@[simp] theorem endEntry_held (s : State) : SameHeld s (endEntry s) := by simp [endEntry]
@[simp] theorem bmcOffOp_held (s : State) (c : Nat) (on : Bool) : SameHeld s (bmcOffOp s c on) := by simp [bmcOffOp]

/-! ### Firmware and identity (chapter 15) -/

@[simp] theorem restartWdg_held (s : State) (cp : Nat) : SameHeld s (restartWdg s cp) := by simp [restartWdg]
@[simp] theorem ptpDropOp_held (s : State) : SameHeld s (ptpDropOp s) := by unfold ptpDropOp; split <;> simp
@[simp] theorem confirmSlot_held (s : State) (k : Nat) : SameHeld s (confirmSlot s k) := by simp [confirmSlot]
@[simp] theorem rejectTrial_held (s : State) (k : Nat) : SameHeld s (rejectTrial s k) := by simp [rejectTrial]
@[simp] theorem rollBack_held (s : State) (k : Nat) : SameHeld s (rollBack s k) := by simp [rollBack]
@[simp] theorem confirmTimeoutOp_held (s : State) : SameHeld s (confirmTimeoutOp s) := by unfold confirmTimeoutOp; split <;> simp
theorem readBuffer_held {s t : State} {w : Work} {res : XferResult} (e : readBuffer s w res = .inl t ∨ readBuffer s w res = .inr t) :
    SameHeld s t := by
  unfold readBuffer at e; dsimp only at e
  (repeat' split at e) <;> obtain ⟨⟨⟩⟩ | ⟨⟨⟩⟩ := e <;> simp
@[simp] theorem programSlot_held (s : State) (i off : Nat) (data : List Byte) : SameHeld s (programSlot s i off data) := by simp [programSlot]
@[simp] theorem fwStageOp_held (s : State) (seq : Word) (res : XferResult) (data : List Byte) (sigOk : Bool) :
    SameHeld s (fwStageOp s seq res data sigOk) := by
  unfold fwStageOp; dsimp only
  split; · exact .refl s
  split; · simp
  split; · simp
  split; · simp
  split
  next e => exact readBuffer_held (.inl e)
  next e => split <;> simp [readBuffer_held (.inr e)]
@[simp] theorem restartAfter_held (s : State) (seq : Word) : SameHeld s (restartAfter s seq) := by simp [restartAfter]
@[simp] theorem fwActivateOp_held (s : State) (seq : Word) : SameHeld s (fwActivateOp s seq) := by unfold fwActivateOp; split <;> simp
@[simp] theorem fwConfirmOp_held (s : State) (seq : Word) : SameHeld s (fwConfirmOp s seq) := by unfold fwConfirmOp; (repeat' split) <;> simp
@[simp] theorem fwFallbackOp_held (s : State) (seq : Word) : SameHeld s (fwFallbackOp s seq) := by unfold fwFallbackOp; (repeat' split) <;> simp
@[simp] theorem slotFallbackOp_held (s : State) : SameHeld s (slotFallbackOp s) := by unfold slotFallbackOp; dsimp only; (repeat' split) <;> simp
@[simp] theorem slotConfirmOp_held (s : State) : SameHeld s (slotConfirmOp s) := by unfold slotConfirmOp; dsimp only; (repeat' split) <;> simp
@[simp] theorem revertOp_held (s : State) : SameHeld s (revertOp s) := by simp [revertOp]
@[simp] theorem readSettings_held (s : State) (h : ImageHdr) (parseOk : Bool) : SameHeld s (readSettings s h parseOk) := by
  unfold readSettings; dsimp only; (repeat' split) <;> simp [restrict]
@[simp] theorem giveRegId_held (s : State) : SameHeld s (giveRegId s) := by unfold giveRegId; split <;> simp
@[simp] theorem handoverOp_held (s : State) (positions : List (List Byte)) (parseOk : Bool) : SameHeld s (handoverOp s positions parseOk) := by
  unfold handoverOp; dsimp only; (repeat' split) <;> simp
@[simp] theorem capsuleApply_held (s : State) (c : Capsule) (positions : List (List Byte)) : KeepsRoot s (capsuleApply s c positions) := by
  simp +contextual [capsuleApply, capsuleGen]
@[simp] theorem capsuleOp_held (s : State) (seq : Word) (res : XferResult) (data : List Byte) (keys : SigKeys) (positions : List (List Byte)) :
    KeepsRoot s (capsuleOp s seq res data keys positions) := by
  unfold capsuleOp
  split
  next => exact .refl s
  split
  next => simp
  split
  next e => exact SameHeld.keepsRoot (readBuffer_held (.inl e))
  next e =>
    split
    next => exact .refl s
    next =>
      refine (SameHeld.keepsRoot (readBuffer_held (.inr e))).trans ?_
      dsimp only
      split <;> simp +contextual
@[simp] theorem fixProfile_held (s : State) (p : BitVec 2) : SameHeld s (fixProfile s p) := by simp [fixProfile]
@[simp] theorem identityOp_held (s : State) (a b : List Byte) : KeepsRoot s (identityOp s a b) := by
  unfold identityOp; dsimp only; (repeat' split) <;> simp +contextual

/-! ### Event counters (chapter 16) -/

@[simp] theorem evtSoftOp_held (s : State) (v : Word) : SameHeld s (evtSoftOp s v) := by simp [evtSoftOp]
@[simp] theorem setCounter_held (s : State) (k : CntSel) (x : Counter) : SameHeld s (setCounter s k x) := by unfold setCounter; split <;> simp
@[simp] theorem counterCfgOp_held (s : State) (who : Requester) (k : CntSel) (v : Word) : SameHeld s (counterCfgOp s who k v) := by
  simp [counterCfgOp]

/-! ### Line signal (chapter 06) -/

@[simp] theorem toPhase_held (s : State) (c p : Nat) : SameHeld s (toPhase s c p) := by simp [toPhase]
@[simp] theorem phaseEnd_held (s : State) (c : Nat) (r : PhaseResult) : SameHeld s (phaseEnd s c r) := by
  unfold phaseEnd; dsimp only; (repeat' split) <;> simp [goService, takeEstimate, beginHandshake]
@[simp] theorem countSat_held (s : State) (c multiply other : Nat) : SameHeld s (countSat s c multiply other) := by simp [countSat]
@[simp] theorem sendSymbol_held (s : State) (c k : Nat) (tones : List (Nat × Nat × Nat)) : SameHeld s (sendSymbol s c k tones) := by
  simp [sendSymbol]
@[simp] theorem sendSync_held (s : State) (c : Nat) : SameHeld s (sendSync s c) := by simp [sendSync]
@[simp] theorem sendTraining_held (s : State) (c : Nat) : SameHeld s (sendTraining s c) := by simp [sendTraining]
@[simp] theorem takeSamples_held (s : State) (c : Nat) (adc : List (List (BitVec 14))) : SameHeld s (takeSamples s c adc) := by simp [takeSamples]

/-! ### Line framing (chapter 07) -/

@[simp] theorem sendSlots_held (c n : Nat) (s : State) : SameHeld s (sendSlots c n s) := by
  induction n generalizing s with
  | zero => exact .refl s
  | succ n ih => simp [sendSlots, ih]
@[simp] theorem pump_held (s : State) (c : Nat) : SameHeld s (pump s c) := by simp [pump]
@[simp] theorem putDtu_held (s : State) (c : Nat) (b : List Byte) : SameHeld s (putDtu s c b) := by simp [putDtu]
@[simp] theorem dtuCloseOp_held (s0 : State) (c : Nat) : SameHeld s0 (dtuCloseOp s0 c) := by
  unfold dtuCloseOp; dsimp only; (repeat' split) <;> simp [closeData, endEmissions, ptpClose]
@[simp] theorem closeDue_held (c n : Nat) (s : State) : SameHeld s (closeDue c n s) := by
  induction n generalizing s with
  | zero => exact .refl s
  | succ n ih => simp [closeDue, ih]
@[simp] theorem takeSeg_held (c : Nat) (slots : List Nat) (s : State) (g : Seg) : SameHeld s (takeSeg c slots s g) := by
  unfold takeSeg; dsimp only; (repeat' split) <;> simp [brokenPiece]
@[simp] theorem releaseAll_held (s : State) (c : Nat) : SameHeld s (releaseAll s c) := by simp [releaseAll, releaseDtu]
@[simp] theorem serveNack_held (c fcnt : Nat) (s : State) (q : Half) : SameHeld s (serveNack c fcnt s q) := by
  unfold serveNack; dsimp only; (repeat' split) <;> simp
@[simp] theorem receiveFrame_held (s : State) (c : Nat) (words : List (List Byte)) : SameHeld s (receiveFrame s c words) := by
  unfold receiveFrame; dsimp only; (repeat' split) <;> simp [overheadOp, badOverhead]
theorem assembleRing_held {c i n fuel : Nat} {s t : State} {x : Option (List Byte)} (e : assembleRing c i n fuel s = (t, x)) : SameHeld s t := by
  induction fuel generalizing s with
  | zero => cases e; exact .refl _
  | succ fuel ih =>
    unfold assembleRing at e; dsimp only at e
    split at e
    · cases e; exact .refl _
    split at e
    · exact SameHeld.trans (by simp) (ih e)
    · cases e; exact .refl _
    · cases e
      (repeat' split) <;> simp
@[simp] theorem countSlip_held (s : State) (c i : Nat) (tx : Bool) : SameHeld s (countSlip s c i tx) := by simp [countSlip]
@[simp] theorem tribAssemble_held (s : State) (c i : Nat) (pcmIn : List (List Bool)) : SameHeld s (tribAssemble s c i pcmIn) := by
  unfold tribAssemble; dsimp only; (repeat' split)
  case h_1 e => simp [assembleRing_held e]
  case h_2 e => simp [assembleRing_held e]
  all_goals simp
@[simp] theorem fillBlock_held (s : State) (c i : Nat) (x : Word × List Byte) (data : List Byte) : SameHeld s (fillBlock s c i x data) := by
  unfold fillBlock; dsimp only; (repeat' split) <;> simp
@[simp] theorem tribDeliver_held (s : State) (c i : Nat) : SameHeld s (tribDeliver s c i) := by
  unfold tribDeliver; dsimp only; (repeat' split) <;> simp
@[simp] theorem tribFrame_held (c : Nat) (pcmIn : List (List Bool)) (s : State) (i : Nat) : SameHeld s (tribFrame c pcmIn s i) := by
  simp [tribFrame]
@[simp] theorem tribIdleFrame_held (c : Nat) (s : State) (i : Nat) : SameHeld s (tribIdleFrame c s i) := by simp [tribIdleFrame]
@[simp] theorem tribBlockOp_held (s : State) (r : RingNo) (seq : Word) (res : XferResult) (data : List Byte) :
    SameHeld s (tribBlockOp s r seq res data) := by unfold tribBlockOp; dsimp only; (repeat' split) <;> simp
@[simp] theorem econEntry_held (s : State) (c : Nat) : SameHeld s (econEntry s c) := by unfold econEntry; split <;> simp [goEconomy]
@[simp] theorem econLeave_held (s : State) (c : Nat) : SameHeld s (econLeave s c) := by unfold econLeave; split <;> simp [leaveEconomy]
@[simp] theorem econSwitch_held (s : State) (c : Nat) : SameHeld s (econSwitch s c) := by simp [econSwitch]
@[simp] theorem pmFrame_held (s : State) (c : Nat) : SameHeld s (pmFrame s c) := by simp [pmFrame]
@[simp] theorem beginFrame_held (s : State) (c : Nat) (rx : FrameRx) : SameHeld s (beginFrame s c rx) := by simp [beginFrame]
@[simp] theorem endFrame_held (s : State) (c : Nat) (rx : FrameRx) : SameHeld s (endFrame s c rx) := by simp [endFrame, closeRest]

/-! ### The management port (chapter 16) -/

@[simp] theorem portErr_held (s : State) (e : PortErr) : SameHeld s (portErr s e) := by simp [portErr]
@[simp] theorem headerCommit_held (s : State) (uses : Option Nat) : SameHeld s (headerCommit s uses) := by unfold headerCommit; split <;> simp
@[simp] theorem readHeader_held (s : State) (a : Nat) : SameHeld s (readHeader s a) := by simp [readHeader, header]
@[simp] theorem writeHeader_held (s : State) (a : Nat) : SameHeld s (writeHeader s a) := by simp [writeHeader, header]
@[simp] theorem armHeader_held (s : State) (a : Nat) : SameHeld s (armHeader s a) := by simp [armHeader, header]
@[simp] theorem unknownHeader_held (s : State) (hdr : Word) : SameHeld s (unknownHeader s hdr) := by simp [unknownHeader, header]
@[simp] theorem portValue_held (s : State) (off : Nat) : SameHeld s (portValue s off).2 := by
  unfold portValue; dsimp only; (repeat' split) <;> exact .refl s
@[simp] theorem portRead_held (s : State) (a : Nat) : SameHeld s (portRead s a) := by unfold portRead; dsimp only; (repeat' split) <;> simp
@[simp] theorem armedWrite_held (s : State) (r : ArmedReg) (v : Word) : SameHeld s (armedWrite s r v) := by unfold armedWrite; split <;> simp
@[simp] theorem armedFirst_held (s : State) (a : Nat) (v : Word) : SameHeld s (armedFirst s a v) := by unfold armedFirst; split <;> simp
@[simp] theorem dataWordOp_held (s : State) (v : Word) : SameHeld s (dataWordOp s v) := by unfold dataWordOp; (repeat' split) <;> simp [portWrite]

/-! ### Resets (R17, R20) -/

@[simp] theorem revertIdentity_held (s : State) : KeepsRoot s (revertIdentity s) := by
  unfold revertIdentity; dsimp only; (repeat' split) <;> simp +contextual

/-! ### Register writes (chapter 17) -/

@[simp] theorem stage_held (s : State) (off : Nat) (v : Word) : SameHeld s (stage s off v) := by simp [stage]
@[simp] theorem lockAllOp_held (s : State) : SameHeld s (lockAllOp s) := .refl s
@[simp] theorem nextOp_held (s : State) (v : Word) : SameHeld s (nextOp s v) := by simp [nextOp]
@[simp] theorem floorOp_held (s : State) (v : Word) : SameHeld s (floorOp s v) := by simp [floorOp]
@[simp] theorem writePwr_held (s : State) (who : Requester) (off : Nat) (v : Word) : SameHeld s (writePwr s who off v) := by
  unfold writePwr; dsimp only; split <;> simp [pfWrite_eq_ite]
@[simp] theorem ringStatWrite_held (s : State) (r : Nat) (v : Word) : SameHeld s (ringStatWrite s r v) := by simp [ringStatWrite]
@[simp] theorem ringRegWrite_held (s : State) (off r o : Nat) (v : Word) : SameHeld s (ringRegWrite s off r o v) := by
  unfold ringRegWrite; dsimp only; split <;> simp [takeHigh]
@[simp] theorem msixWrite_held (s : State) (f o : Nat) (v : Word) : SameHeld s (msixWrite s f o v) := by
  unfold msixWrite; dsimp only; (repeat' split) <;> simp
@[simp] theorem chtabBaseHigh_held (s : State) (off : Nat) (v : Word) : SameHeld s (chtabBaseHigh s off v) := by simp [chtabBaseHigh, takeHigh]
@[simp] theorem windowWrite_held (s : State) (off f w o : Nat) (v : Word) : SameHeld s (windowWrite s off f w o v) := by
  unfold windowWrite; dsimp only; split <;> simp [lockWrite, takeHigh]
@[simp] theorem writeHif_held (s : State) (who : Requester) (off : Nat) (v : Word) : SameHeld s (writeHif s who off v) := by
  simp [writeHif, pfWrite_eq_ite, lockWrite]
@[simp] theorem ledgCtlOp_held (s : State) (v : Word) : SameHeld s (ledgCtlOp s v) := by simp [ledgCtlOp]
@[simp] theorem writeLedg_held (s : State) (off : Nat) (v : Word) : SameHeld s (writeLedg s off v) := by
  unfold writeLedg; dsimp only; split <;> simp [takeHigh]
@[simp] theorem datumCtlOp_held (s : State) (v : Word) : SameHeld s (datumCtlOp s v) := by simp [datumCtlOp]
@[simp] theorem tddOp_held (s : State) (v : Word) : SameHeld s (tddOp s v) := by simp [tddOp]
@[simp] theorem writeTime_held (s : State) (who : Requester) (off : Nat) (v : Word) : SameHeld s (writeTime s who off v) := by
  unfold writeTime; dsimp only; split <;> simp [pfWrite_eq_ite]
theorem gateFwOp_holds (s : State) (v : Word) : Holds s (gateFwOp s v) := by
  unfold gateFwOp; dsimp only
  split
  · exact LeavesGate.holds (g := .stopped) (by simp) fun _ => rfl
  · exact SameHeld.holds (by simp)
@[simp] theorem portCmdOp_held (s : State) (who : Requester) (v : Word) : SameHeld s (portCmdOp s who v) := by unfold portCmdOp; split <;> simp
theorem fwWrite_holds (s : State) (who : Requester) (f : State → State) (h : Holds s (f s)) : Holds s (fwWrite s who f) := by
  unfold fwWrite; split
  · exact h
  · exact .refl s
theorem writeUpl_holds (s : State) (who : Requester) (off : Nat) (v : Word) : Holds s (writeUpl s who off v) := by
  unfold writeUpl; dsimp only
  split
  case h_5 => exact fwWrite_holds s who _ (gateFwOp_holds s v)
  all_goals exact SameHeld.holds (by simp [uplLocked, pfWrite_eq_ite, lockWrite, fwWrite, takeHigh])
@[simp] theorem ftCmdOp_held (s : State) (p : Nat) (v : Word) : SameHeld s (ftCmdOp s p v) := by unfold ftCmdOp; split <;> simp
@[simp] theorem writeXc_held (s : State) (who : Requester) (off : Nat) (v : Word) : SameHeld s (writeXc s who off v) := by simp [writeXc]
@[simp] theorem writeSec_held (s : State) (who : Requester) (off : Nat) (v : Word) : SameHeld s (writeSec s who off v) := by
  unfold writeSec; split <;> simp [pfWrite_eq_ite, lockWrite]
@[simp] theorem radCtlOp_held (s : State) (v : Word) : SameHeld s (radCtlOp s v) := by simp [radCtlOp]
@[simp] theorem radAccessOp_held (s : State) (v : Word) : SameHeld s (radAccessOp s v) := by
  unfold radAccessOp
  exact ⟨setRad_pending s _, setRad_part s _, congrArg (fun x => rootOf x.slots) (setRad_sec s _), congrArg Upl.gate (setRad_upl s _)⟩
@[simp] theorem govWrite_held (s : State) (b o : Nat) (v : Word) : SameHeld s (govWrite s b o v) := by simp [govWrite]
@[simp] theorem devCmdOp_held (s : State) (v : Word) : SameHeld s (devCmdOp s v) := by simp [devCmdOp]
@[simp] theorem writeRad_held (s : State) (who : Requester) (off : Nat) (v : Word) : SameHeld s (writeRad s who off v) := by
  simp [writeRad, radLocked, pfWrite_eq_ite, lockWrite, fwWrite, takeHigh]
@[simp] theorem auxOp_held (s : State) (v : Word) : SameHeld s (auxOp s v) := by simp [auxOp]
@[simp] theorem writeSup_held (s : State) (who : Requester) (off : Nat) (v : Word) : SameHeld s (writeSup s who off v) := by
  unfold writeSup; split <;> simp [supLocked, pfWrite_eq_ite, lockWrite]
@[simp] theorem routeOp_held (s : State) (i : Nat) (v : Word) : SameHeld s (routeOp s i v) := by simp [routeOp]
@[simp] theorem writeEvt_held (s : State) (who : Requester) (off : Nat) (v : Word) : SameHeld s (writeEvt s who off v) := by
  simp [writeEvt, pfWrite_eq_ite, fwWrite]
@[simp] theorem fwStatWrite_held (s : State) (who : Requester) (off : Nat) (v : Word) : SameHeld s (fwStatWrite s who off v) := by
  unfold fwStatWrite; split <;> simp
@[simp] theorem kickOp_held (s : State) (who : Requester) (v : Word) : SameHeld s (kickOp s who v) := by unfold kickOp; split <;> simp
@[simp] theorem writeFw_held (s : State) (who : Requester) (off : Nat) (v : Word) : SameHeld s (writeFw s who off v) := by
  unfold writeFw; dsimp only; split <;> simp [pfWrite_eq_ite, fwWrite]
@[simp] theorem writeMgt_held (s : State) (who : Requester) (off : Nat) (v : Word) : SameHeld s (writeMgt s who off v) := by
  simp [writeMgt, pfWrite_eq_ite]
@[simp] theorem shadowOp_held (s : State) (c : Nat) (f : Gcl → GclBank → GclBank) : SameHeld s (shadowOp s c f) := by simp [shadowOp]
@[simp] theorem gclCtlOp_held (s : State) (c : Nat) (v : Word) : SameHeld s (gclCtlOp s c v) := by simp [gclCtlOp]
@[simp] theorem writeChan_held (s : State) (who : Requester) (off c o : Nat) (v : Word) : SameHeld s (writeChan s who off c o v) := by
  simp [writeChan, pfWrite_eq_ite, fwWrite]


/-! ### Resets (R17, R20, R115) -/

@[simp] theorem uplRestart_gate (u : Upl) : (uplRestart u).gate = if u.gate = .stopped then .stopped else .notAssigned := rfl

theorem powerOnOp_kept (s : State) : (powerOnOp s).pending = s.pending ∧ (powerOnOp s).part = s.part := ⟨rfl, by cases s with | _ => rfl⟩

theorem powerOnOp_root (s : State) : rootOf (powerOnOp s).sec.slots = rootHeld := rfl

theorem clearDevice_holds (s : State) (code : Nat) : Holds s (clearDevice s code) := by
  exact ⟨by simp [clearDevice], by simp [clearDevice], fun e => by simp [clearDevice, e], fun e => by simp [clearDevice, e]⟩

theorem resetDevice_holds (s : State) (c : ResetCause) : Holds s (resetDevice s c) := by
  unfold resetDevice
  have cut : Holds s (endCapsule (cutAll (dyingGaspEnd s))) := SameHeld.holds (by simp [cutAll])
  exact (cut.trans (clearDevice_holds _ c.code)).trans (SameHeld.holds (by simp))

theorem deviceReset_holds (s : State) (c : ResetCause) : Holds s (deviceReset s c) := by
  unfold deviceReset
  split
  · exact .refl s
  · exact resetDevice_holds s c

theorem resetCause_holds (s : State) (c : ResetCause) : Holds s (resetCause s c) := by
  unfold resetCause
  split
  · exact SameHeld.holds (by simp)
  · exact deviceReset_holds s c

theorem busReset_holds (s : State) (c : ResetCause) : Holds s (busReset s c) := by
  have link : Holds s (resetConfig (loseLink s)) := SameHeld.holds (by simp)
  unfold busReset; dsimp only
  split
  · exact link
  · exact link.trans (resetCause_holds _ c)

theorem hostResetOp_holds (s : State) (key : Word) : Holds s (hostResetOp s key) := by
  unfold hostResetOp
  split
  · exact .refl s
  split
  · exact SameHeld.holds (by simp)
  · exact deviceReset_holds s _

theorem watchdogOp_holds (s : State) (cp : Nat) : Holds s (watchdogOp s cp) := by
  unfold watchdogOp
  split
  · exact .refl s
  split
  · exact Holds.trans (SameHeld.holds (by simp)) (resetCause_holds _ .watchdog)
  · exact SameHeld.holds (by simp)

/-! ### Domains switched off and on (R306, R323, R396) -/

theorem uplOff_holds (s : State) : Holds s (uplOff s) := by
  refine LeavesGate.holds (g := if s.upl.gate = .stopped then .stopped else .notAssigned) (by simp [uplOff, uplKept]) fun e => by simp [e]

theorem switchOff_holds (s : State) (d : Domain) : Holds s (switchOff s d) := by
  unfold switchOff
  split
  · cases d with
    | upl => exact uplOff_holds s
    | _ => exact SameHeld.holds (by simp [coreOff, halfOff, islandOff])
  · exact .refl s

theorem downAction_holds (s : State) (k : Nat) : Holds s (downAction s k) := by
  unfold downAction
  split
  case h_6 => exact switchOff_holds s _
  all_goals exact SameHeld.holds (by simp)

theorem downFrom_holds (n : Nat) (s : State) (k : Nat) : Holds s (downFrom n s k) := by
  induction n generalizing s k with
  | zero => exact .refl s
  | succ n ih =>
    unfold downFrom
    split
    · exact downAction_holds s _
    split
    · exact Holds.trans (SameHeld.holds (by simp)) (ih _ _)
    · exact (downAction_holds s k).trans (SameHeld.holds (by simp))

theorem startPowerDown_holds (s : State) (toOff : Bool) : Holds s (startPowerDown s toOff) :=
  Holds.trans (SameHeld.holds (by simp)) (downFrom_holds _ _ _)

theorem powerDownNext_holds (s : State) : Holds s (powerDownNext s) :=
  Holds.trans (SameHeld.holds (by simp)) (downFrom_holds _ _ _)

theorem railCollapseOp_holds (s : State) (r : Rail) : Holds s (railCollapseOp s r) := by
  unfold railCollapseOp
  split
  · have noted : Holds s (modPwr s (fun p => { p with collapsed := r :: p.collapsed })) := SameHeld.holds (by simp)
    have isolated := noted.trans (foldl_holds switchOff_holds (railDomains r) _)
    exact (isolated.trans (SameHeld.holds (by simp))).trans (powerDownNext_holds _)
  · exact .refl s

theorem railTimeoutOp_holds (s : State) : Holds s (railTimeoutOp s) := by
  unfold railTimeoutOp; dsimp only
  split
  · exact (foldl_holds switchOff_holds [.rad, .feed, .upl, .core, .hif] s).trans (SameHeld.holds (by simp))
  · exact .refl s

theorem pmeTurnOffOp_holds (s : State) : Holds s (pmeTurnOffOp s) := by
  unfold pmeTurnOffOp
  split
  · exact Holds.trans (SameHeld.holds (by simp)) (startPowerDown_holds _ _)
  · exact .refl s

theorem afterSeal_holds (s : State) (held : Option ResetCause) : Holds s (afterSeal s held) := by
  unfold afterSeal
  split
  next c => exact (deviceReset_holds s c).trans (SameHeld.holds (by simp))
  · split <;> exact SameHeld.holds (by simp)

theorem sealCompleteOp_holds (s : State) : Holds s (sealCompleteOp s) := by
  have done : Holds s (sealDoneOp s) := SameHeld.holds (by simp)
  unfold sealCompleteOp; dsimp only
  split
  · exact .refl s
  split
  case h_4 =>
    split
    · exact done.trans (afterSeal_holds _ _)
    · exact done.trans (startPowerDown_holds _ _)
  all_goals exact done

@[simp] theorem upAction_held (s : State) (k : Nat) : SameHeld s (upAction s k) := by
  unfold upAction
  split <;> simp [coreStart, endWake]

theorem holdDomains_holds (s : State) : Holds s (holdDomains s) := (busReset_holds s _).trans (foldl_holds switchOff_holds _ _)

@[simp] theorem releaseDomains_held (s : State) : SameHeld s (releaseDomains s) := by
  unfold releaseDomains
  split <;> simp

theorem testEnOp_holds (s : State) (level : Bool) : Holds s (testEnOp s level) := by
  have moved : ∀ b, Holds s (modPwr s (fun p => { p with testEn := b })) := fun b => SameHeld.holds (by simp)
  unfold testEnOp; dsimp only
  split
  · exact (moved _).trans (holdDomains_holds _)
  · exact (moved false).trans (SameHeld.holds (releaseDomains_held _))
  · exact moved _

@[simp] theorem modAbsOp_held (s : State) (level : Bool) : SameHeld s (modAbsOp s level) := by
  unfold modAbsOp; dsimp only; (repeat' split) <;> simp
@[simp] theorem opticsPollOp_held (s : State) (vals : Vector (Option Half) 5) (a0h : Option (List Byte)) (user : Option (Byte × List Byte)) :
    SameHeld s (opticsPollOp s vals a0h user) := by simp [opticsPollOp]

/-! ### Register writes and accesses (R375, R382) -/

theorem pfWrite_holds (s : State) (who : Requester) (off : Nat) (acts : Bool) (f : State → State) (h : Holds s (f s)) :
    Holds s (pfWrite s who off acts f) := by
  rw [pfWrite_eq_ite]
  split
  · exact h
  · exact SameHeld.holds (by simp)

theorem writeGlb_holds (s : State) (who : Requester) (off : Nat) (v : Word) : Holds s (writeGlb s who off v) := by
  unfold writeGlb
  split
  case h_3 => exact pfWrite_holds _ _ _ _ _ (hostResetOp_holds s v)
  all_goals exact SameHeld.holds (by simp [pfWrite_eq_ite])

theorem writeReg_holds (s : State) (who : Requester) (off : Nat) (v : Word) : Holds s (writeReg s who off v) := by
  unfold writeReg
  split
  · exact .refl s
  split
  · split <;> exact SameHeld.holds (by simp)
  split
  · exact SameHeld.holds (by simp)
  split
  case h_1 => exact writeGlb_holds s who off v
  case h_6 => exact writeUpl_holds s who off v
  all_goals exact SameHeld.holds (by simp)

@[simp] theorem readValue_held (s : State) (off : Nat) : SameHeld s (readValue s off).2 := by unfold readValue; (repeat' split) <;> exact .refl s

@[simp] theorem readOp_held (s : State) (who : Requester) (asked off : Nat) : SameHeld s (readOp s who asked off) := by simp [readOp]

theorem applyAccess_holds (s : State) (a : Access) : Holds s (applyAccess s a) := by
  unfold applyAccess
  split
  case h_4 => exact writeReg_holds s _ _ _
  all_goals exact SameHeld.holds (by simp)

theorem servedAccess_holds (s : State) (a : Access) : Holds s (servedAccess s a) := by
  unfold servedAccess
  split
  · exact applyAccess_holds s a
  · split <;> exact SameHeld.holds (by simp)

theorem accessOp_holds (s : State) (a : Access) : Holds s (accessOp s a) := by
  unfold accessOp
  split
  · exact .refl s
  split
  · exact SameHeld.holds (by simp)
  · exact Holds.trans (SameHeld.holds (by simp)) (servedAccess_holds _ a)

@[simp] theorem wakeDomain_held (s : State) (d : Domain) : SameHeld s (wakeDomain s d) := by
  unfold wakeDomain; dsimp only; (repeat' split) <;> simp

theorem domainReadyOp_holds (s : State) (d : Domain) : Holds s (domainReadyOp s d) := by
  unfold domainReadyOp; dsimp only
  split
  · exact .refl s
  · have woken : Holds s (modPwr (wakeDomain s d) (fun p => { p with waiting := p.waiting.filter (fun w => w.1 != d) })) :=
      SameHeld.holds (by simp)
    exact woken.trans (foldl_holds (fun t (w : Domain × Access) => applyAccess_holds t w.2) _ _)

/-! ### The commands -/

/-- The outcome is no next state, or one that holds the same. -/
def KeepsHeld (s : State) (o : Host.Outcome State Fault Refusal) : Prop := ∀ t, o = .next t → SameHeld s t

@[simp] theorem keepsHeld_next (s t : State) : KeepsHeld s (.next t) ↔ SameHeld s t := by simp [KeepsHeld]

@[simp] theorem keepsHeld_fault (s : State) (r : Fault) : KeepsHeld s (.fault r) := by simp [KeepsHeld]

@[simp] theorem keepsHeld_ite (s : State) (p : Prop) [Decidable p] (a b : Host.Outcome State Fault Refusal) :
    KeepsHeld s (if p then a else b) ↔ if p then KeepsHeld s a else KeepsHeld s b := by split <;> rfl

/-- The commands that move the gate or a key slot, can reset the terminal or switch a domain, or let a register write through. -/
def movesHeld : Instr → Bool
  | .powerOn | .aonBrownOut | .wakePin | .perstAssert | .pcieHotReset | .linkDown | .hostFullReset .. | .testEnChange _
  | .registerWrite .. | .domainWakeOnAccess _ | .domainReady _ | .sealComplete | .pmeTurnOff | .powerDownStep | .railCollapse _
  | .railGoodTimeout | .watchdogExpiry _
  | .gcmEncrypt .. | .gcmDecrypt .. | .cmac .. | .cvUpdate _ | .cvSave _ | .cvRestore _ | .keyGen _ | .keyLoad .. | .keyImport ..
  | .keyExport .. | .keyDerive _ | .keyClear _ | .keyInfo _ | .random _ | .ccmStar .. | .gcmKnownAnswerTest .. | .gcmCoreFail ..
  | .secOperationComplete .. | .capsuleApply .. | .identityLoaded .. | .assignOnuId .. | .rangingTime .. | .deactivateOnuId _
  | .disableSerialNumber .. | .emstopSet _ | .lodsTo2Expiry => true
  | _ => false

/-- Every other command leaves the four fields. -/
theorem exec_held (c : Instr) (s : State) (h : movesHeld c = false) : KeepsHeld s (exec c s) := by
  cases c with
  | perstDeassert => simp [exec, execPerstDeassert]
  | linkUp => simp [exec, execLinkUp]
  | pfFlr => simp [exec, execPfFlr, pfFlrOp]
  | vfFlr => simp [exec, execVfFlr, vfFlrOp]
  | channelIslandFault => simp [exec, execChannelIslandFault, islandFaultOp]
  | unsupportedAccessWidth => simp [exec, execUnsupportedAccessWidth]
  | poisonedWrite => simp [exec, execPoisonedWrite]
  | busMasterEnableChange => simp [exec, execBusMasterEnableChange, sendPending]
  | memorySpaceEnableChange => simp [exec, execMemorySpaceEnableChange]
  | vfEnableWrite => simp [exec, execVfEnableWrite]
  | configPowerStateWrite => simp [exec, execConfigPowerStateWrite]
  | lingerExpiry => simp [exec, execLingerExpiry]
  | doorbell => dsimp only [exec, execDoorbell]; (repeat' split) <;> simp
  | descriptorFetch => simp [exec, execDescriptorFetch]
  | descriptorFetchComplete => simp [exec, execDescriptorFetchComplete]
  | ringHaltedClear => simp [exec, execRingHaltedClear]
  | ringCfgWrite => simp [exec, execRingCfgWrite]
  | createRing => simp [exec, execCreateRing]
  | destroyRing => simp [exec, execDestroyRing]
  | recordWrite => simp [exec, execRecordWrite]
  | recordAcknowledged => simp [exec, execRecordAcknowledged, recordAckedOp]
  | modTimeExpiry => simp [exec, execModTimeExpiry]
  | txFrame => simp [exec, execTxFrame]
  | txBufferRead => simp [exec, execTxBufferRead]
  | txBufferReadComplete => simp [exec, execTxBufferReadComplete]
  | rxBuffer => simp [exec, execRxBuffer]
  | rxFrameDeliver => simp [exec, execRxFrameDeliver]
  | lifetimeExpiry => simp [exec, execLifetimeExpiry]
  | ledgerEnable => simp [exec, execLedgerEnable]
  | ledgerAdopt => simp [exec, execLedgerAdopt]
  | ledgerClose => simp [exec, execLedgerClose]
  | ledgerWritesAcknowledged => simp [exec, execLedgerWritesAcknowledged, writesAckOp]
  | benchmarkRecordWrite => simp [exec, execBenchmarkRecordWrite]
  | ledgerTransferComplete => simp [exec, execLedgerTransferComplete, ledgerXferOp]
  | ledgerRetry => simp [exec, execLedgerRetry, ledgerRetryOp]
  | recoverySettle => simp [exec, execRecoverySettle]
  | recoveryDone => simp [exec, execRecoveryDone]
  | chtabRefresh => simp [exec, execChtabRefresh]
  | chRefresh => simp [exec, execChRefresh]
  | chReset => simp [exec, execChReset]
  | chtabEnableChange => simp [exec, execChtabEnableChange]
  | chtabReadPhaseComplete => simp [exec, execChtabReadPhaseComplete, phaseComplete]
  | chtabReadRetry => dsimp only [exec, execChtabReadRetry]; (repeat' split) <;> simp
  | chtabReadErrorRetry => dsimp only [exec, execChtabReadErrorRetry]; (repeat' split) <;> simp
  | chHoldWrite => simp [exec, execChHoldWrite]
  | islandPowered => simp [exec, execIslandPowered]
  | tddFrameBoundary => simp [exec, execTddFrameBoundary, boundaryOp, trainBoundary, clearStepped, serviceBoundary]
  | handshakeAnswer => simp [exec, execHandshakeAnswer, handshakeOp]
  | trainingPhaseEnd => simp [exec, execTrainingPhaseEnd]
  | marginUpdate => simp [exec, execMarginUpdate]
  | economyIdleTimerExpiry => simp [exec, execEconomyIdleTimerExpiry, econExpiry]
  | overheadReceived => simp [exec, execOverheadReceived]
  | dtuReceived => simp [exec, execDtuReceived, nextDtu, dtuReceivedOp, countErrDtu]
  | dtuClose => simp [exec, execDtuClose]
  | dtuLost => simp [exec, execDtuLost, dtuLostOp]
  | lossOfLine => simp [exec, execLossOfLine]
  | tribBlock => simp [exec, execTribBlock]
  | datumSecondBoundary => simp [exec, execDatumSecondBoundary, secondOp, govSecond, pmSecond]
  | ppsOutWidthExpiry => simp [exec, execPpsOutWidthExpiry]
  | psbdReceived => simp [exec, execPsbdReceived, psbdOp, xgtcOp]
  | psyncExpectedMiss => simp [exec, execPsyncExpectedMiss]
  | optRxLosChange => simp [exec, execOptRxLosChange]
  | ploamReceived => simp [exec, execPloamReceived, ploam]
  | burstProfile => simp [exec, execBurstProfile, ploam]
  | assignAllocId => simp [exec, execAssignAllocId, ploam]
  | xgemFrameReceived => simp [exec, execXgemFrameReceived]
  | burstContentFix => simp [exec, execBurstContentFix]
  | burstWindowOpen => simp [exec, execBurstWindowOpen]
  | burstWindowClose => simp [exec, execBurstWindowClose]
  | backstopExpiry => simp [exec, execBackstopExpiry, backstopOp]
  | rogueLight => simp [exec, execRogueLight]
  | rogueClear => dsimp only [exec, execRogueClear]; (repeat' split) <;> simp
  | ponPowerSaveTimerExpiry => simp [exec, execPonPowerSaveTimerExpiry]
  | uplPortRead => simp [exec, execUplPortRead]
  | uplPortWrite => simp [exec, execUplPortWrite]
  | uplPortClear => simp [exec, execUplPortClear]
  | upstreamFrameReceived => simp [exec, execUpstreamFrameReceived]
  | pauseFrameReceived => simp [exec, execPauseFrameReceived]
  | pauseTimerExpiry => dsimp only [exec, execPauseTimerExpiry]; (repeat' split) <;> simp
  | pauseRefreshExpiry => simp [exec, execPauseRefreshExpiry]
  | flowTableRead => dsimp only [exec, execFlowTableRead]; (repeat' split) <;> simp
  | flowTableWrite => dsimp only [exec, execFlowTableWrite]; (repeat' split) <;> simp
  | flowTableClear => dsimp only [exec, execFlowTableClear]; (repeat' split) <;> simp
  | bufferUncorrectableError => simp [exec, execBufferUncorrectableError, countCorrected, bankLostOp, strikeAll]
  | schedulerSelect => dsimp only [exec, execSchedulerSelect]; (repeat' split) <;> simp
  | refillTick => simp [exec, execRefillTick]
  | gateIntervalExpiry => simp [exec, execGateIntervalExpiry]
  | gclSwap => simp [exec, execGclSwap]
  | histogramSample => simp [exec, execHistogramSample]
  | histClr => simp [exec, execHistClr]
  | todLoad => simp [exec, execTodLoad]
  | phaseAverage => simp [exec, execPhaseAverage]
  | holdoverEntry => simp [exec, execHoldoverEntry]
  | holdErrExceeded => simp [exec, execHoldErrExceeded, holdLimitOp]
  | crystalCalibration => simp [exec, execCrystalCalibration]
  | datumInvalidate => dsimp only [exec, execDatumInvalidate]; (repeat' split) <;> simp
  | ppsInEdge => simp [exec, execPpsInEdge]
  | rxtsNext => dsimp only [exec, execRxtsNext]; (repeat' split) <;> simp
  | trngHealthFail => simp [exec, execTrngHealthFail]
  | trngRetest => simp [exec, execTrngRetest, reseedBoth]
  | drbgReseed => simp [exec, execDrbgReseed]
  | maskReseed => simp [exec, execMaskReseed]
  | radFrame => simp [exec, execRadFrame]
  | csmaBackoffExpiry => simp [exec, execCsmaBackoffExpiry]
  | lbtListenEnd => simp [exec, execLbtListenEnd]
  | radioTxEnd => simp [exec, execRadioTxEnd]
  | radioAckReceived => simp [exec, execRadioAckReceived]
  | radioAckTimeout => simp [exec, execRadioAckTimeout]
  | radioFrameReceived => simp [exec, execRadioFrameReceived]
  | radioAckTransmit => simp [exec, execRadioAckTransmit]
  | radioRxDeliver => simp [exec, execRadioRxDeliver]
  | radDevRead => simp [exec, execRadDevRead]
  | radDevWrite => simp [exec, execRadDevWrite]
  | radDevClear => simp [exec, execRadDevClear]
  | levelCrossingDeclared => simp [exec, execLevelCrossingDeclared, crossingOp]
  | feedAdmissionTick => simp [exec, execFeedAdmissionTick, admitOne]
  | feedRampEnd => simp [exec, execFeedRampEnd]
  | feedShortTrip => simp [exec, execFeedShortTrip]
  | feedOverloadTrip => simp [exec, execFeedOverloadTrip]
  | feedPowerTrip => simp [exec, execFeedPowerTrip]
  | feedBackoffExpiry => simp [exec, execFeedBackoffExpiry]
  | feedTriesReset => simp [exec, execFeedTriesReset]
  | feedInrushAbort => simp [exec, execFeedInrushAbort]
  | feedUnlock => dsimp only [exec, execFeedUnlock]; (repeat' split) <;> simp
  | feedHoldOff => simp [exec, execFeedHoldOff]
  | feedPulseStart => simp [exec, execFeedPulseStart]
  | feedPulseEnd => simp [exec, execFeedPulseEnd]
  | feedWindowClose => simp [exec, execFeedWindowClose, windowCloseOp]
  | idleTimerExpiry => simp [exec, execIdleTimerExpiry]
  | idleExit => simp [exec, execIdleExit]
  | sleepTimerExpiry => simp [exec, execSleepTimerExpiry]
  | l1EntryRequest => simp [exec, execL1EntryRequest]
  | pwrEnter => simp [exec, execPwrEnter]
  | pwrGoDeep => simp [exec, execPwrGoDeep]
  | pwrGoOff => simp [exec, execPwrGoOff]
  | entryTimeout => simp [exec, execEntryTimeout]
  | pwrAlarm => simp [exec, execPwrAlarm]
  | powerUpRetry => simp [exec, execPowerUpRetry]
  | imageHandover => simp [exec, execImageHandover]
  | watchdogKick => simp [exec, execWatchdogKick]
  | cpReady => simp [exec, execCpReady]
  | flashWrite => simp [exec, execFlashWrite, flashOp, flashSlot, flashGens]
  | ptpUnpairedDrop => simp [exec, execPtpUnpairedDrop]
  | fwStage => simp [exec, execFwStage]
  | fwActivate => simp [exec, execFwActivate]
  | fwConfirm => simp [exec, execFwConfirm]
  | fwFallback => simp [exec, execFwFallback]
  | confirmationTimeout => simp [exec, execConfirmationTimeout]
  | fwSlotFallback => simp [exec, execFwSlotFallback]
  | fwSlotConfirm => simp [exec, execFwSlotConfirm]
  | revert => simp [exec, execRevert]
  | bmcOff => simp [exec, execBmcOff]
  | lockAll => simp [exec, execLockAll, pfWrite_eq_ite]
  | ahnairSelectFall => simp [exec, execAhnairSelectFall, selectFallOp]
  | ahnairSelectRise => simp [exec, execAhnairSelectRise, selectRiseOp]
  | read => simp [exec, execRead]
  | write => simp [exec, execWrite]
  | status => simp [exec, execStatus, header]
  | arm => simp [exec, execArm]
  | ahnairUnknownOpcode => simp [exec, execAhnairUnknownOpcode]
  | ahnairDataWord => simp [exec, execAhnairDataWord]
  | evtSoft => simp [exec, execEvtSoft]
  | eventCounterConfig => simp [exec, execEventCounterConfig]
  | eventCounterClear => simp [exec, execEventCounterClear]
  | counterDurationTick => simp [exec, execCounterDurationTick, durationTickOp]
  | crystalRunning => simp [exec, execCrystalRunning]
  | powerUpStep => simp [exec, execPowerUpStep, powerUpOp]
  | optModAbsChange => simp [exec, execOptModAbsChange]
  | opticsDiagPoll => simp [exec, execOpticsDiagPoll]
  | i2cStretchTimeout => simp [exec, execI2cStretchTimeout]
  | _ => cases h

/-- A downstream message is discarded, counted, or handed on and acted on. -/
theorem ploam_cases (s : State) (m : Ploam) (f : State → State) :
    ploam s m f = s ∨ ploam s m f = micFail s ∨ ploam s m f = f (emitOut s (.toFirmware m)) := by
  unfold ploam
  split
  · exact .inl rfl
  split
  · exact .inl rfl
  split
  · exact .inr (.inl rfl)
  · exact .inr (.inr rfl)

theorem ploam_holds (s : State) (m : Ploam) (f : State → State) (h : ∀ t, Holds t (f t)) : Holds s (ploam s m f) := by
  obtain e | e | e := ploam_cases s m f <;> rw [e]
  · exact .refl s
  · exact SameHeld.holds (by simp)
  · exact Holds.trans (SameHeld.holds (by simp)) (h _)

theorem setGate_of_unstopped_holds {s : State} (hs : s.upl.gate ≠ .stopped) (g : GateSt) {t : State} (h : SameHeld s t) :
    Holds s (setGate t g) := by
  have moved : LeavesGate s (setGate t g) g := by simp [h]
  exact LeavesGate.holds moved fun e => absurd e hs

theorem assignOnu_holds {s : State} (hs : s.upl.gate ≠ .stopped) (id : BitVec 10) : Holds s (assignOnu s id) :=
  setGate_of_unstopped_holds hs _ (by simp)

theorem rangeOp_holds (s : State) (absolute : Bool) (delay : Int) : Holds s (rangeOp s absolute delay) := by
  have taken : SameHeld s (takeEqd s) := takeEqd_held s
  unfold rangeOp; dsimp only
  split
  next hg =>
    refine setGate_of_unstopped_holds (fun e => ?_) _ (by simp)
    rw [taken.2.2.2, e] at hg
    exact hg.elim GateSt.noConfusion GateSt.noConfusion
  · exact SameHeld.holds taken

theorem unassign_holds (s : State) : Holds s (unassign s) := LeavesGate.holds (unassign_held s) fun e => by simp [e]

theorem stopGate_holds (s : State) : Holds s (stopGate s) := LeavesGate.holds (stopGate_held s) fun _ => rfl

/-- The commands that can lead the gate out of STOPPED. -/
def mayUnstop : Instr → Bool
  | .powerOn | .aonBrownOut | .wakePin | .disableSerialNumber .. => true
  | _ => false

/-- Every command but a POWER-ON and a Disable_Serial_Number keeps the queue, the part fuse, a root key that is held, and STOPPED. -/
theorem exec_holds {c : Instr} {s t : State} (hc : mayUnstop c = false) (h : exec c s = .next t) : Holds s t := by
  cases hm : movesHeld c with
  | false => exact SameHeld.holds (exec_held c s hm t h)
  | true =>
    cases c with
    | powerOn => cases hc
    | aonBrownOut => cases hc
    | wakePin => cases hc
    | disableSerialNumber => cases hc
    | perstAssert =>
      cases h
      split
      · exact .refl s
      · exact Holds.trans (SameHeld.holds (by simp)) (busReset_holds (modHif s (fun x => { x with perst := true })) .perst)
    | pcieHotReset =>
      cases h
      split
      · exact busReset_holds s _
      · exact .refl s
    | linkDown =>
      cases h
      split
      · exact busReset_holds s _
      · exact .refl s
    | hostFullReset who key =>
      cases h
      split
      · exact .refl s
      · split <;> exact SameHeld.holds (by simp)
      · exact hostResetOp_holds s key
    | testEnChange level => cases h; exact testEnOp_holds s level
    | registerWrite who off v => cases h; exact accessOp_holds s _
    | domainWakeOnAccess a => cases h; exact accessOp_holds s a
    | domainReady d => cases h; exact domainReadyOp_holds s d
    | sealComplete => cases h; exact sealCompleteOp_holds s
    | pmeTurnOff => cases h; exact pmeTurnOffOp_holds s
    | powerDownStep =>
      cases h
      split
      · exact powerDownNext_holds s
      · exact .refl s
    | railCollapse r => cases h; exact railCollapseOp_holds s r
    | railGoodTimeout => cases h; exact railTimeoutOp_holds s
    | watchdogExpiry cp => cases h; exact watchdogOp_holds s cp.val
    | assignOnuId m id snHi snLo =>
      cases h
      refine ploam_holds s m _ fun t => ?_
      split
      next hg =>
        simp only [Bool.and_eq_true, decide_eq_true_eq] at hg
        exact assignOnu_holds hg.2 id
      · exact .refl t
    | rangingTime m absolute delay => cases h; exact ploam_holds s m _ fun t => rangeOp_holds t absolute delay
    | deactivateOnuId m => cases h; exact ploam_holds s m _ unassign_holds
    | emstopSet who =>
      cases h
      split
      · exact stopGate_holds s
      · exact .refl s
    | lodsTo2Expiry =>
      cases h
      split
      · exact unassign_holds s
      · exact .refl s
    | gcmKnownAnswerTest core pass =>
      cases h
      split
      · exact .refl s
      · exact KeepsRoot.holds (coreFailOp_held s _ _ _)
    | gcmCoreFail core hit => cases h; exact KeepsRoot.holds (coreFailOp_held s _ _ _)
    | secOperationComplete q res data =>
      cases h
      exact KeepsRoot.holds (KeepsRoot.trans (secCompleteOp_held s q res data) (portTurn_held 16 _))
    | capsuleApply seq res cap positions => cases h; exact KeepsRoot.holds (capsuleOp_held s _ _ _ _ _)
    | identityLoaded copyA copyB => cases h; exact KeepsRoot.holds (identityOp_held s _ _)
    | gcmEncrypt q blk => cases h; exact KeepsRoot.holds (secCommand_held s q _ _ _)
    | gcmDecrypt q blk => cases h; exact KeepsRoot.holds (secCommand_held s q _ _ _)
    | cmac q blk => cases h; exact KeepsRoot.holds (secCommand_held s q _ _ _)
    | keyLoad q blk => cases h; exact KeepsRoot.holds (secCommand_held s q _ _ _)
    | keyImport q blk => cases h; exact KeepsRoot.holds (secCommand_held s q _ _ _)
    | keyExport q blk => cases h; exact KeepsRoot.holds (secCommand_held s q _ _ _)
    | ccmStar q blk => cases h; exact KeepsRoot.holds (secCommand_held s q _ _ _)
    | cvUpdate q => cases h; exact KeepsRoot.holds (secCommand_held s q _ _ _)
    | cvSave q => cases h; exact KeepsRoot.holds (secCommand_held s q _ _ _)
    | cvRestore q => cases h; exact KeepsRoot.holds (secCommand_held s q _ _ _)
    | keyGen q => cases h; exact KeepsRoot.holds (secCommand_held s q _ _ _)
    | keyDerive q => cases h; exact KeepsRoot.holds (secCommand_held s q _ _ _)
    | keyClear q => cases h; exact KeepsRoot.holds (secCommand_held s q _ _ _)
    | keyInfo q => cases h; exact KeepsRoot.holds (secCommand_held s q _ _ _)
    | random q => cases h; exact KeepsRoot.holds (secCommand_held s q _ _ _)
    | _ => cases hm

/-! ### What POWER-ON and Disable_Serial_Number keep -/

/-- From s to t the queue and the part fuse stay, and a root key that is held. -/
def KeepsQueue (s t : State) : Prop :=
  t.pending = s.pending ∧ t.part = s.part ∧ (rootOf s.sec.slots = rootHeld → rootOf t.sec.slots = rootHeld)

theorem Holds.keepsQueue {s t : State} (h : Holds s t) : KeepsQueue s t := by
  obtain ⟨hq, hp, hr, -⟩ := h
  exact ⟨hq, hp, hr⟩

theorem powerOnOp_keepsQueue (s : State) : KeepsQueue s (powerOnOp s) :=
  ⟨(powerOnOp_kept s).1, (powerOnOp_kept s).2, fun _ => powerOnOp_root s⟩

theorem disableOp_keepsQueue (s : State) (o : SnOrder) (hi lo : Word) : KeepsQueue s (disableOp s o hi lo) := by
  unfold disableOp KeepsQueue; dsimp only; (repeat' split) <;> simp

/-- Only an order that enables this unit leads out of STOPPED. -/
theorem disableOp_stopped {s : State} (hs : s.upl.gate = .stopped) (o : SnOrder) (hi lo : Word) :
    (disableOp s o hi lo).upl.gate = .stopped ∨ (o ≠ .disable ∧ (o = .enable → snMatch s hi lo = true)) := by
  cases o with
  | disable =>
    left
    unfold disableOp; dsimp only
    split <;> simp [hs]
  | enable =>
    by_cases hm : snMatch s hi lo = true
    · exact .inr ⟨by simp, fun _ => hm⟩
    · left; simp [disableOp, hm, hs]
  | enableAll => exact .inr ⟨by simp, by simp⟩

theorem exec_keepsQueue {c : Instr} {s t : State} (h : exec c s = .next t) : KeepsQueue s t := by
  cases hc : mayUnstop c with
  | false => exact (exec_holds hc h).keepsQueue
  | true =>
    cases c with
    | powerOn => cases h; exact powerOnOp_keepsQueue s
    | aonBrownOut => cases h; exact powerOnOp_keepsQueue s
    | wakePin =>
      cases h
      split
      · exact powerOnOp_keepsQueue s
      · exact Holds.keepsQueue (SameHeld.holds (by simp))
    | disableSerialNumber m o hi lo =>
      cases h
      obtain e | e | e := ploam_cases s m (fun s => disableOp s o hi lo) <;> rw [e]
      · exact (Holds.refl s).keepsQueue
      · exact Holds.keepsQueue (SameHeld.holds (by simp))
      · exact disableOp_keepsQueue (emitOut s (.toFirmware m)) o hi lo
    | _ => cases hc

@[simp] theorem tick_held (s : State) : SameHeld s (tick s) := by
  unfold tick; dsimp only; (repeat' split) <;> exact .refl s

/-! ### Well-formed commands complete (chapters 00, 02, 03, 04) -/

theorem imageOk_of_wf {img : LedgerImage} (h : img.wf = true) : imageOk img = true := h

/-- A transfer of the shape its command expects is no fault; every other command has no fault to end in. -/
theorem exec_completes (c : Instr) (s : State) (h : c.wf = true) : ∃ t, exec c s = .next t := by
  cases c with
  | descriptorFetchComplete r res data =>
    have len : ¬ 256 < data.length := by simpa [Instr.wf] using h
    exact ⟨_, if_neg len⟩
  | ledgerAdopt who res img =>
    have good : ¬ (res = .ok ∧ ledgerOff s ∧ !imageOk img) := fun ⟨hres, _, hbad⟩ => by
      simp only [Instr.wf, hres, bne_self_eq_false, Bool.false_or] at h
      simp [imageOk_of_wf h] at hbad
    exact ⟨_, if_neg good⟩
  | ledgerRetry res img =>
    have good : ¬ (res = .ok ∧ (retryDue s.ledger).contains .adoptRead ∧ !imageOk img) := fun ⟨hres, _, hbad⟩ => by
      simp only [Instr.wf, hres, bne_self_eq_false, Bool.false_or] at h
      simp [imageOk_of_wf h] at hbad
    exact ⟨_, if_neg good⟩
  | chtabReadPhaseComplete c res data =>
    have len : ¬ (res = .ok ∧ data.length ≠ 4 ∧ data.length ≠ 0x7F8) := fun ⟨hres, h4, hbody⟩ => by
      simp [Instr.wf, hres, h4, hbody] at h
    exact ⟨_, if_neg len⟩
  | _ => exact ⟨_, rfl⟩

/-- A step of a terminal with well-formed commands waiting completes, and leaves no other command waiting. -/
theorem step_completes {s : State} (h : ∀ c, c ∈ s.pending → c.wf = true) : ∃ t, step s = .next t ∧ ∀ c, c ∈ t.pending → c.wf = true := by
  unfold step
  split
  next empty => exact ⟨tick s, rfl, by simpa using h⟩
  next c rest queue =>
    obtain ⟨t, ht⟩ := exec_completes c { s with pending := rest } (h c (by simp [queue]))
    have kept : t.pending = rest := (exec_keepsQueue ht).1
    exact ⟨t, ht, fun x hx => h x (by rw [queue]; exact List.mem_cons_of_mem _ (kept ▸ hx))⟩

/-! ### The statements -/

/-- Settles O51: a command keeps the root key's slot, or reloads it as POWER-ON does; the clock's edge keeps all of SEC. -/
theorem everyCommandKeepsTheRootKey : Obligations.EveryCommandKeepsTheRootKey := by
  unfold Obligations.EveryCommandKeepsTheRootKey
  have kept : ∀ (c : Instr) (s t : State), RootKeyHeld s → exec c s = .next t → RootKeyHeld t := fun c s t hs h => by
    rw [rootKeyHeld_iff] at hs ⊢
    exact (exec_keepsQueue h).2.2 hs
  refine ⟨kept, fun s t hs h => ?_⟩
  unfold step at h
  split at h
  · cases h
    rw [rootKeyHeld_iff] at hs ⊢
    simpa using hs
  next c rest _ => exact kept c { s with pending := rest } t hs h

/-- Settles O52: every other command holds STOPPED, and of the four that can leave it a Disable_Serial_Number leaves it only as an enable. -/
theorem stoppedGateLeavesOnlyByEnableOrPowerOn : Obligations.StoppedGateLeavesOnlyByEnableOrPowerOn := by
  unfold Obligations.StoppedGateLeavesOnlyByEnableOrPowerOn
  intro c s t hs h
  cases hc : mayUnstop c with
  | false => exact .inl ((exec_holds hc h).2.2.2 hs)
  | true =>
    cases c with
    | powerOn => exact .inr (.inl rfl)
    | aonBrownOut => exact .inr (.inr (.inl rfl))
    | wakePin =>
      by_cases hoff : s.pwr.state = .off
      · exact .inr (.inr (.inr (.inl ⟨rfl, hoff⟩)))
      · cases h
        left
        rw [if_neg hoff]
        simpa using hs
    | disableSerialNumber m o hi lo =>
      cases h
      obtain e | e | e := ploam_cases s m (fun s => disableOp s o hi lo)
      · exact .inl (by rw [e]; exact hs)
      · exact .inl (by rw [e]; simpa using hs)
      · rw [e]
        obtain stays | ⟨hne, hsn⟩ := disableOp_stopped (s := emitOut s (.toFirmware m)) hs o hi lo
        · exact .inl stays
        · exact .inr (.inr (.inr (.inr ⟨m, o, hi, lo, rfl, hne, hsn⟩)))
    | _ => cases hc

/-- Settles O53: no command touches the queue or the fuse, and the four commands that can fault do so only for ill-formed operands. -/
theorem commandsCompleteAndKeepQueue : Obligations.CommandsCompleteAndKeepQueue := by
  unfold Obligations.CommandsCompleteAndKeepQueue
  refine ⟨fun c s t h => ?_, exec_completes⟩
  obtain ⟨hq, hp, -⟩ := exec_keepsQueue h
  exact ⟨hq, hp⟩

/-- Settles O54, by induction on the number of steps: a step completes and leaves well-formed commands waiting. -/
theorem noRunOfWellFormedCommandsStops : Obligations.NoRunOfWellFormedCommandsStops := by
  unfold Obligations.NoRunOfWellFormedCommandsStops
  intro n
  induction n with
  | zero => exact fun _ _ => trivial
  | succ n ih =>
    intro s h
    obtain ⟨t, ht, hwf⟩ := step_completes h
    exact ⟨t, ht, ih t hwf⟩

/-- Settles O1: the step of a queue that is not empty, by definition. -/
theorem stepRunsFrontCommand : Obligations.StepRunsFrontCommand := fun _ _ _ => rfl

end Sys2Proof.Machine

/-! # R375: a VF's write reaches its channel alone

What one write through a VF's view can change is one relation (`VfOnly`), which composes. Each update that such a write makes (of the channel, of
one of its rings, of its function, of its event bits and counters, of the accesses that wait) is in the relation, and so is each register. -/

namespace Sys2Proof.Machine

open Sys2Proof

/-- From s to t only what channel n owns changes: its state, its rings, its function, its event bits and counters; and what is sent, and which
accesses wait. -/
structure VfOnly (n : Nat) (s t : State) : Prop where
  chans : OnlyChan s t n
  rings : ∀ r, ringChan r ≠ some n → ringAt t r = ringAt s r
  funcs : ∀ f, f ≠ n + 1 → vget t.hif.funcs f (Func.reset 0) = vget s.hif.funcs f (Func.reset 0)
  chStat : ∀ x, x ≠ n → vget t.evt.chStat x 0 = vget s.evt.chStat x 0
  counters : ∀ (x : Ch) (j : Fin 4), x.val ≠ n → counterAt t (.ch x j) = counterAt s (.ch x j)
  rest : t = { s with
    chans := t.chans, rings := t.rings, hif := { s.hif with funcs := t.hif.funcs }, sent := t.sent,
    evt := { s.evt with chStat := t.evt.chStat, ch := t.evt.ch }, pwr := { s.pwr with waiting := t.pwr.waiting } }

variable {n : Nat}

theorem VfOnly.refl (s : State) : VfOnly n s s := ⟨fun _ _ => rfl, fun _ _ => rfl, fun _ _ => rfl, fun _ _ => rfl, fun _ _ _ => rfl, rfl⟩

theorem VfOnly.trans {s t u : State} (h : VfOnly n s t) (k : VfOnly n t u) : VfOnly n s u where
  chans x hx := (k.chans x hx).trans (h.chans x hx)
  rings r hr := (k.rings r hr).trans (h.rings r hr)
  funcs f hf := (k.funcs f hf).trans (h.funcs f hf)
  chStat x hx := (k.chStat x hx).trans (h.chStat x hx)
  counters x j hx := (k.counters x j hx).trans (h.counters x j hx)
  rest := by
    have hk := k.rest
    rw [h.rest] at hk
    exact hk

/-! ### The updates of what a channel owns -/

theorem setChan_vfOnly (s : State) (f : Chan → Chan) : VfOnly n s (setChan s n f) :=
  { VfOnly.refl s with chans := fun _ hx => chanAt_setChan_ne s n _ f hx, rest := rfl }

theorem setRing_vfOnly (s : State) {r : Nat} (hr : ringChan r = some n) (f : Ring → Ring) : VfOnly n s (setRing s r f) :=
  { VfOnly.refl s with rings := fun x hx => ringAt_setRing_ne s r x f (fun e => hx (e ▸ hr)), rest := rfl }

theorem setFunc_vfOnly (s : State) (f : Func → Func) : VfOnly n s (setFunc s (n + 1) f) :=
  { VfOnly.refl s with funcs := fun _ hf => vget_vset_ne _ _ _ _ _ hf, rest := rfl }

theorem emitOut_vfOnly (s : State) (o : Out) : VfOnly n s (emitOut s o) := { VfOnly.refl s with rest := rfl }

theorem sendMsix_vfOnly (s : State) (k : Nat) : VfOnly n s (sendMsix s (n + 1, k)) := by
  unfold sendMsix; dsimp only
  split
  · exact .refl s
  split
  · exact setFunc_vfOnly s (fun f => { f with pba := f.pba ||| BitVec.ofNat 64 (2 ^ k) })
  · exact emitOut_vfOnly s _

theorem setCounter_vfOnly (s : State) {c : Ch} (hc : c.val = n) (j : Fin 4) (x : Counter) : VfOnly n s (setCounter s (.ch c j) x) :=
  { VfOnly.refl s with
    counters := fun y i hy => by
      have hne : c.val ≠ y.val := fun e => hy (e.symm.trans hc)
      simp [counterAt, setCounter, hne]
    rest := rfl }

theorem chStat_vfOnly (s : State) (v : BitVec 17) : VfOnly n s { s with evt := { s.evt with chStat := vset s.evt.chStat n v } } :=
  { VfOnly.refl s with chStat := fun _ hx => vget_vset_ne _ _ _ _ _ hx, rest := rfl }

theorem waits_vfOnly (s : State) (l : List (Domain × Access)) : VfOnly n s (modPwr s (fun p => { p with waiting := l })) :=
  { VfOnly.refl s with rest := rfl }

/-! ### The registers of a VF's view (R375) -/

theorem haltedClear_vfOnly (s : State) {r : Nat} (hr : ringChan r = some n) : VfOnly n s (haltedClear s r) := setRing_vfOnly s hr _

theorem ringStatWrite_vfOnly (s : State) {r : Nat} (hr : ringChan r = some n) (v : Word) : VfOnly n s (ringStatWrite s r v) := by
  unfold ringStatWrite; dsimp only
  split
  · exact (setRing_vfOnly s hr _).trans (haltedClear_vfOnly _ hr)
  · exact setRing_vfOnly s hr _

theorem two_le_of_ringChan {r : Nat} (hr : ringChan r = some n) : ¬ r < 2 := by
  unfold ringChan at hr
  split at hr
  · cases hr
  · omega

theorem ringRegWrite_vfOnly (s : State) (off : Nat) {r : Nat} (hr : ringChan r = some n) (o : Nat) (v : Word) :
    VfOnly n s (ringRegWrite s off r o v) := by
  have hpf := two_le_of_ringChan hr
  unfold ringRegWrite; dsimp only
  split
  · simpa [hpf] using VfOnly.refl s
  · simpa [hpf] using VfOnly.refl s
  · rw [if_neg hpf]; exact setRing_vfOnly s hr _
  · exact setRing_vfOnly s hr _
  · exact ringStatWrite_vfOnly s hr v
  · exact .refl s

/-- An entry of the function's table is written, and its message sent where it was pending. -/
theorem entry_vfOnly (s : State) (k : Nat) (p : Prop) [Decidable p] (f g : Func → Func) :
    VfOnly n s (if p then sendMsix (setFunc (setFunc s (n + 1) f) (n + 1) g) (n + 1, k) else setFunc s (n + 1) f) := by
  split
  · exact ((setFunc_vfOnly s f).trans (setFunc_vfOnly _ g)).trans (sendMsix_vfOnly _ k)
  · exact setFunc_vfOnly s f

theorem msixWrite_vfOnly (s : State) (o : Nat) (v : Word) : VfOnly n s (msixWrite s (n + 1) o v) := by
  unfold msixWrite; dsimp only
  cases (vget s.hif.funcs (n + 1) (Func.reset 0)).table[o / 16]? with
  | none => exact .refl s
  | some e => exact entry_vfOnly s _ _ _ _

theorem gclCtlOp_vfOnly (s : State) (v : Word) : VfOnly n s (gclCtlOp s n v) := by
  unfold gclCtlOp; dsimp only
  split
  · exact (setChan_vfOnly s _).trans (setChan_vfOnly _ _)
  · exact setChan_vfOnly s _

theorem counterCfgOp_vfOnly (s : State) (who : Requester) {c : Ch} (hc : c.val = n) (j : Fin 4) (v : Word) :
    VfOnly n s (counterCfgOp s who (.ch c j) v) := by
  unfold counterCfgOp
  split
  · exact setCounter_vfOnly s hc j _
  · exact .refl s

theorem clearHist_vfOnly (s : State) (v : Word) : VfOnly n s (if bitOf v 0 then clearHist s n else s) := by
  split
  · exact setChan_vfOnly s (fun k => { k with qs := { k.qs with hist := Vector.replicate 32 (Vector.replicate 16 0) } })
  · exact .refl s

theorem rxtsNext_vfOnly (s : State) (v : Word) :
    VfOnly n s (if bitOf v 31 then setChan s n (fun k => { k with rxts := { k.rxts with fifo := k.rxts.fifo.tail } }) else s) := by
  split
  · exact setChan_vfOnly s _
  · exact .refl s

theorem ite_vfOnly {s a b : State} {p : Prop} [Decidable p] (ha : p → VfOnly n s a) (hb : ¬ p → VfOnly n s b) :
    VfOnly n s (if p then a else b) := by
  by_cases h : p
  · rw [if_pos h]; exact ha h
  · rw [if_neg h]; exact hb h

/-- A channel register: of the channel itself, of its event bits or counters, or not a VF's to write. -/
theorem writeChan_vfOnly (s : State) (c : Ch) (off o : Nat) (v : Word) : VfOnly c.val s (writeChan s (.vf c) off c.val o v) := by
  have hc : (Fin.ofNat 24 c.val).val = c.val := Nat.mod_eq_of_lt c.isLt
  have chan : ∀ {p : Prop}, ∀ f, p → VfOnly c.val s (setChan s c.val f) := fun f _ => setChan_vfOnly s f
  unfold writeChan
  refine ite_vfOnly (fun _ => .refl s) fun _ => ?hold
  refine ite_vfOnly (chan _) fun _ => ite_vfOnly (chan _) fun _ => ite_vfOnly (chan _) fun _ => ite_vfOnly (chan _) fun _ => ?line
  refine ite_vfOnly (fun _ => gclCtlOp_vfOnly s v) fun _ => ite_vfOnly (chan _) fun _ => ite_vfOnly (chan _) fun _ => ?gates
  refine ite_vfOnly (chan _) fun _ => ite_vfOnly (chan _) fun _ => ite_vfOnly (chan _) fun _ => ite_vfOnly (chan _) fun _ => ?lists
  refine ite_vfOnly (fun _ => clearHist_vfOnly s v) fun _ => ite_vfOnly (fun _ => rxtsNext_vfOnly s v) fun _ => ?samples
  refine ite_vfOnly (chan _) fun _ => ite_vfOnly (fun _ => .refl s) fun _ => ite_vfOnly (fun _ => .refl s) fun _ => ?feed
  exact ite_vfOnly (fun _ => chStat_vfOnly s _) fun _ => ite_vfOnly (fun _ => counterCfgOp_vfOnly s _ hc _ v) fun _ => .refl s

/-- A register of the HIF block at the place of a VF's rings: a register of a ring of its channel, or a doorbell, which no register write moves. -/
theorem writeHif_vfOnly (s : State) (c : Ch) {off : Nat} (h : (0x12000 + 0x20 * chRing c.val 0 ≤ off ∧ off < 0x12000 + 0x20 * chRing c.val 6) ∨
    (0x13400 ≤ off ∧ off < 0x14000)) (v : Word) : VfOnly c.val s (writeHif s (.vf c) off v) := by
  have hc := c.isLt
  simp only [chRing] at h
  have low : off % 0x10000 = off - 0x10000 := by omega
  have past : 0x2200 ≤ off % 0x10000 ∧ off % 0x10000 < 0x4000 := by omega
  unfold writeHif; dsimp only
  rw [if_neg (by omega), if_neg (by omega), if_neg (by omega), if_neg (by omega), if_neg (by omega), if_neg (by omega), if_neg (by omega)]
  split
  next hring =>
    have hr : (off % 0x10000 - 0x2000) / 0x20 - 16 - 6 * c.val < 6 ∧ 16 + 6 * c.val ≤ (off % 0x10000 - 0x2000) / 0x20 := by omega
    refine ringRegWrite_vfOnly s off ?_ _ v
    unfold ringChan
    rw [if_neg (by omega)]
    congr 1
    omega
  · rw [if_neg (by omega)]; exact .refl s

/-- Where a VF's view shows a register: in its channel's block, among its rings' registers and doorbells, or in its MSI-X table. -/
theorem viewOff_vf {c : Ch} {asked off : Nat} (h : viewOff (.vf c) asked = some off) :
    (0x100000 + 0x10000 * c.val ≤ off ∧ off < 0x10E000 + 0x10000 * c.val) ∨
    ((0x12000 + 0x20 * chRing c.val 0 ≤ off ∧ off < 0x12000 + 0x20 * chRing c.val 6) ∨ (0x13400 ≤ off ∧ off < 0x14000)) ∨
    (0x400000 + 0x1000 * c.val ≤ off ∧ off < 0x401000 + 0x1000 * c.val) := by
  have hc := c.isLt
  unfold viewOff at h; dsimp only [chRing] at h
  simp only [chRing]
  split at h
  · have := Option.some.inj h; omega
  split at h
  · have := Option.some.inj h; omega
  split at h
  · have := Option.some.inj h; omega
  split at h
  · have := Option.some.inj h; omega
  · cases h

/-- A register at the offset where a VF's view shows it. -/
theorem writeReg_vfOnly (s : State) (c : Ch) {asked off : Nat} (h : viewOff (.vf c) asked = some off) (v : Word) :
    VfOnly c.val s (writeReg s (.vf c) off v) := by
  have hc := c.isLt
  unfold writeReg
  refine ite_vfOnly (fun _ => .refl s) fun _ => ?_
  obtain hchan | hring | hmsix := viewOff_vf h
  · have block : (off - 0x100000) / 0x10000 = c.val := by omega
    rw [if_neg (by omega), if_pos (by omega), block]
    exact writeChan_vfOnly s c _ _ v
  · have block : off / 0x10000 = 1 := by simp only [chRing] at hring; omega
    rw [if_neg (by omega), if_neg (by omega), block]
    exact writeHif_vfOnly s c hring v
  · have table : (off - 0x400000) / 0x1000 = c.val := by omega
    rw [if_pos (by omega), table]
    exact ite_vfOnly (fun _ => msixWrite_vfOnly s _ v) fun _ => .refl s

/-! ### The access, and the statement -/

theorem refuseAccess_vfOnly (s : State) (c : Ch) (off : Nat) : VfOnly c.val s (refuseAccess s (.vf c) off) :=
  ((emitOut_vfOnly s _).trans (setFunc_vfOnly _ _)).trans (emitOut_vfOnly _ _)

theorem servedAccess_vfOnly (s : State) (c : Ch) (off : BitVec 22) (v : Word) :
    VfOnly c.val s (servedAccess s { who := .vf c, off := off, value := some v }) := by
  unfold servedAccess
  split
  · unfold applyAccess
    split
    next hv => cases hv
    · exact .refl s
    next hv => cases hv
    next o w hoff hw => cases hw; exact writeReg_vfOnly s c hoff v
  · split
    next late => simp [uplLate] at late
    · exact waits_vfOnly s _

theorem accessOp_vfOnly {s : State} (h : s.pwr.state ≠ .entering) (c : Ch) (off : BitVec 22) (v : Word) :
    VfOnly c.val s (accessOp s { who := .vf c, off := off, value := some v }) := by
  unfold accessOp
  split
  · exact .refl s
  split
  · exact refuseAccess_vfOnly s c _
  · rw [hostWrote_of_not_entering _ h, ite_self]
    exact servedAccess_vfOnly s c off v

/-- Settles O55: the write is refused, waits, or reaches a register of its view, each within what the VF's channel owns. -/
theorem vfWriteReachesItsChannelAlone : Obligations.VfWriteReachesItsChannelAlone := by
  unfold Obligations.VfWriteReachesItsChannelAlone
  intro s c off v h
  have reach := accessOp_vfOnly h c off v
  exact ⟨_, rfl, reach.chans, reach.rings, by rw [reach.rest], by rw [reach.rest], reach.funcs, by rw [reach.rest], reach.chStat,
    fun x j hx => reach.counters x j (fun e => hx (Fin.ext e)), by rw [reach.rest]⟩

end Sys2Proof.Machine

/-! # The registers after POWER-ON, and the clock's edge -/

namespace Sys2Proof.Machine

open Sys2Proof

/-! ### After POWER-ON (Tables 17.2 to 17.13, R388, R390) -/

/-- In the centre field a ball is one of the supplies, by its row and column. -/
theorem ballAt_centre {i c : Nat} (hi : 5 ≤ i ∧ i ≤ 31) (hc : 7 ≤ c ∧ c ≤ 29) : ballAt i c = .supply (centreBall i c) := by
  unfold ballAt
  rw [if_neg (by omega), if_neg (by omega), if_pos hi]

/-- The analogue supply lies in the two outer columns of the centre field on each side. -/
theorem centreBall_of_centre {c : Nat} (i : Nat) (hc : 7 ≤ c ∧ c ≤ 29) : centreBall i c =
    if (i + c) % 2 = 0 then .vss else if c = 7 ∨ c = 8 ∨ c = 28 ∨ c = 29 then .vddAfe else if c ≤ 18 then .vddCore else .vddCh := by
  have outer : (c ≤ 8 ∨ 28 ≤ c) ↔ (c = 7 ∨ c = 8 ∨ c = 28 ∨ c = 29) := by omega
  simp only [centreBall, outer]

/-- Settles O50: the reset state and the ball map are closed tables, evaluated; the centre field by its rule. -/
theorem resetReadsAsTheTablesGive : Obligations.ResetReadsAsTheTablesGive := by
  unfold Obligations.ResetReadsAsTheTablesGive
  refine ⟨by decide +kernel, by decide +kernel, by decide +kernel, ⟨rfl, rfl, rfl, rfl, rfl⟩, rfl, rfl, by decide +kernel, ?_⟩
  intro i c hi hi' hc hc'
  rw [ballAt_centre ⟨hi, hi'⟩ ⟨hc, hc'⟩, centreBall_of_centre i ⟨hc, hc'⟩]

/-! ### The clock's edge (R219, R224, R227) -/

theorem slewStep_natAbs_le_cap (rest : Int) : (slewStep rest).natAbs ≤ slewCap := by unfold slewStep; omega

theorem slewStep_natAbs_le (rest : Int) : (slewStep rest).natAbs ≤ rest.natAbs := by unfold slewStep; omega

theorem slewCap_is_10_ppm : slewCap * 1000000 ≤ 3534952506996 * 10 := by decide

theorem slewNow_natAbs_le (t : Time) : (slewNow t).natAbs ≤ (if t.slewKeep then t.slewRate else t.slew).natAbs := by
  unfold slewNow; split <;> exact slewStep_natAbs_le _

theorem slewNow_natAbs_le_10_ppm (t : Time) : (slewNow t).natAbs * 1000000 ≤ 3534952506996 * 10 := by
  have cap : (slewNow t).natAbs ≤ slewCap := by unfold slewNow; split <;> exact slewStep_natAbs_le_cap _
  exact (Nat.mul_le_mul_right _ cap).trans slewCap_is_10_ppm

/-- Holdover's error alone grows, and only in HOLDOVER. -/
theorem growHold_eq (t : Time) (inc : Nat) (crystal : Bool) :
    growHold t inc crystal = { t with holdErr := (growHold t inc crystal).holdErr, holdAcc := (growHold t inc crystal).holdAcc } := by
  unfold growHold; dsimp only; split <;> rfl

theorem growHold_holdErr {t : Time} (h : t.st ≠ .holdover) (inc : Nat) (crystal : Bool) : (growHold t inc crystal).holdErr = t.holdErr := by
  unfold growHold; rw [if_neg h]

@[simp] theorem growHold_slew (t : Time) (inc : Nat) (crystal : Bool) : (growHold t inc crystal).slew = t.slew := by rw [growHold_eq]

theorem tick_off {s : State} (h : s.pwr.state = .off) : tick s = s := by simp [tick, h]

theorem tick_deep {s : State} (h : s.pwr.state = .deep) :
    tick s = { s with datum := (s.datum + s.time.calInc) % datumMod, time := growHold s.time s.time.calInc true } := by simp [tick, h]

theorem tick_locked {s : State} (hoff : s.pwr.state ≠ .off) (hdeep : s.pwr.state ≠ .deep) (h : s.time.pllLock = true) :
    tick s = { s with
      datum := (s.datum + ((nominalInc : Int) + slewNow s.time).toNat) % datumMod
      time := { growHold s.time ((nominalInc : Int) + slewNow s.time).toNat false with
        slew := s.time.slew - slewNow s.time, slewRate := slewNow s.time, slewKeep := false } } := by
  unfold tick
  split
  · contradiction
  · contradiction
  · rw [if_pos h]

theorem tick_unlocked {s : State} (hoff : s.pwr.state ≠ .off) (hdeep : s.pwr.state ≠ .deep) (h : s.time.pllLock = false) :
    tick s = { s with
      datum := (s.datum + if s.pwr.xtal then s.time.calInc else oscInc) % datumMod
      time := growHold s.time (if s.pwr.xtal then s.time.calInc else oscInc) s.pwr.xtal } := by
  unfold tick
  split
  · contradiction
  · contradiction
  · rw [if_neg (by simp [h])]
    split
    next hx => rw [hx]
    next hx => rw [Bool.not_eq_true] at hx; rw [hx]

/-- Settles O2: the four cases of an edge, by the power state and the root PLL. -/
theorem emptyQueueCountsDatum : Obligations.EmptyQueueCountsDatum := by
  unfold Obligations.EmptyQueueCountsDatum
  intro s hq
  refine ⟨tick s, by simp [step, hq], ?_⟩
  by_cases hoff : s.pwr.state = .off
  · rw [tick_off hoff]
    exact ⟨rfl, rfl, fun _ => rfl, fun _ => rfl, fun h => absurd (hoff.symm.trans h) (by simp), fun h => absurd hoff h, fun h => absurd hoff h⟩
  by_cases hdeep : s.pwr.state = .deep
  · rw [tick_deep hdeep]
    exact ⟨rfl, by dsimp only; rw [growHold_eq], fun h => growHold_holdErr h _ _, fun h => absurd h hoff, fun _ => ⟨rfl, growHold_slew _ _ _⟩,
      fun _ h => absurd hdeep h, fun _ h => absurd hdeep h⟩
  cases hpll : s.time.pllLock with
  | true =>
    rw [tick_locked hoff hdeep hpll]
    refine ⟨rfl, ?_, fun h => growHold_holdErr h _ _, fun h => absurd h hoff, fun h => absurd h hdeep, fun _ _ _ => ?_, fun _ _ h => by cases h⟩
    · dsimp only; rw [growHold_eq]
    · exact ⟨rfl, rfl, rfl, slewNow_natAbs_le_10_ppm s.time, slewNow_natAbs_le s.time⟩
  | false =>
    rw [tick_unlocked hoff hdeep hpll]
    exact ⟨rfl, by dsimp only; rw [growHold_eq], fun h => growHold_holdErr h _ _, fun h => absurd h hoff, fun h => absurd h hdeep,
      nofun, fun _ _ _ => ⟨rfl, growHold_slew _ _ _⟩⟩

end Sys2Proof.Machine

/-! # Frames, rings and accepted work

What says that two states agree but for some parts, what a change of one piece of accepted work leaves, and what a return does to it. -/

namespace Sys2Proof.Machine

open Sys2Proof

/-- Two states with the same parts are the same state. -/
theorem State.eq_of_parts {s t : State} (pending : s.pending = t.pending) (part : s.part = t.part) (datum : s.datum = t.datum)
    (time : s.time = t.time) (hif : s.hif = t.hif) (rings : s.rings = t.rings) (journal : s.journal = t.journal)
    (ledger : s.ledger = t.ledger) (recov : s.recov = t.recov) (chtabBase : s.chtabBase = t.chtabBase)
    (chtabEn : s.chtabEn = t.chtabEn) (chans : s.chans = t.chans) (upl : s.upl = t.upl) (xc : s.xc = t.xc) (sec : s.sec = t.sec)
    (rad : s.rad = t.rad) (sup : s.sup = t.sup) (pwr : s.pwr = t.pwr) (fw : s.fw = t.fw) (glb : s.glb = t.glb)
    (evt : s.evt = t.evt) (mgt : s.mgt = t.mgt) (sent : s.sent = t.sent) (free : s.free = t.free) : s = t := by
  cases s; cases t; simp_all

/-! ### One ring, one channel -/

theorem OnlyRing.refl (s : State) (r : Nat) : OnlyRing s s r := fun _ _ => rfl

theorem OnlyRing.trans {s t u : State} {r : Nat} (h : OnlyRing s t r) (k : OnlyRing t u r) : OnlyRing s u r :=
  fun x hx => (k x hx).trans (h x hx)

/-- A state with the same rings changes none of them. -/
theorem onlyRing_of_rings {s t : State} (r : Nat) (h : t.rings = s.rings) : OnlyRing s t r :=
  fun x _ => by simp only [ringAt, h]

theorem setRing_onlyRing (s : State) (r : Nat) (f : Ring → Ring) : OnlyRing s (setRing s r f) r :=
  fun _ hx => ringAt_setRing_ne s r _ f hx

theorem setWork_onlyRing (s : State) (r : Nat) (q : Word) (f : Work → Work) : OnlyRing s (setWork s r q f) r :=
  setRing_onlyRing _ _ _

theorem returnWith_onlyRing (s : State) (r : Nat) (q : Word) (o : Outcome) : OnlyRing s (returnWith s r q o) r := by
  unfold returnWith
  split
  · exact .refl s r
  · exact setWork_onlyRing _ _ _ _

theorem returnWork_onlyRing (s : State) (r : Nat) (q : Word) (st : Status) : OnlyRing s (returnWork s r q st) r :=
  returnWith_onlyRing _ _ _ _

theorem ringAt_ringWindowFault (s : State) (r a x : Nat) :
    ringAt (ringWindowFault s r a) x = ringAt (setRing s r (fun g => { g with winErr := true })) x := by
  simp only [ringWindowFault, ringAt_raise, ringAt_latchFault]

theorem ringWindowFault_onlyRing (s : State) (r a : Nat) : OnlyRing s (ringWindowFault s r a) r :=
  fun x hx => by rw [ringAt_ringWindowFault, ringAt_setRing_ne _ _ _ _ hx]

theorem OnlyChan.refl (s : State) (c : Nat) : OnlyChan s s c := fun _ _ => rfl

theorem OnlyChan.trans {s t u : State} {c : Nat} (h : OnlyChan s t c) (k : OnlyChan t u c) : OnlyChan s u c :=
  fun x hx => (k x hx).trans (h x hx)

theorem onlyChan_of_chans {s t : State} (c : Nat) (h : t.chans = s.chans) : OnlyChan s t c :=
  fun x _ => by simp only [chanAt, h]

theorem setChan_onlyChan (s : State) (c : Nat) (f : Chan → Chan) : OnlyChan s (setChan s c f) c :=
  fun _ hx => chanAt_setChan_ne s c _ f hx

/-! ### Accepted work -/

/-- Work is found by its own sequence number. -/
theorem seq_of_findWork {g : Ring} {q : Word} {w : Work} (h : findWork g q = some w) : w.seq = q := by
  simpa using List.find?_some h

/-- A ring past the last holds no work. -/
theorem lt_of_findWork {s : State} {r : Nat} {q : Word} {w : Work} (h : findWork (ringAt s r) q = some w) : r < 160 := by
  by_contra hr
  simp [ringAt, hr, Ring.reset, findWork] at h

theorem find_mapIf_seq (q q' : Word) (f : Work → Work) (hf : ∀ w, (f w).seq = w.seq) (l : List Work) :
    (mapIf (fun w => w.seq == q) f l).find? (fun w => w.seq == q') =
      if q' = q then (l.find? (fun w => w.seq == q)).map f else l.find? (fun w => w.seq == q') := by
  have hp : (fun w : Work => w.seq == q') ∘ (fun w => if w.seq == q then f w else w) = fun w => w.seq == q' := by
    funext w
    simp only [Function.comp_apply]
    split <;> simp [hf]
  rw [mapIf, List.find?_map, hp]
  cases hl : l.find? (fun w => w.seq == q') with
  | none => split <;> simp_all
  | some w =>
    have hw : w.seq = q' := by simpa using List.find?_some hl
    by_cases hq : q' = q
    · subst hq; simp [hl, hw]
    · simp [hw, hq]

/-- What a change of one piece of work leaves of any other. -/
theorem findWork_setWork (s : State) (r r' : Nat) (q q' : Word) (f : Work → Work) (hf : ∀ w, (f w).seq = w.seq) :
    findWork (ringAt (setWork s r q f) r') q' =
      if r' = r ∧ q' = q then (findWork (ringAt s r) q).map f else findWork (ringAt s r') q' := by
  by_cases hr : r' = r
  · subst hr
    by_cases h : r' < 160
    · simp only [setWork, ringAt_setRing_self _ _ _ h, findWork, find_mapIf_seq _ _ f hf, true_and]
    · have hnone : ∀ q, findWork (ringAt s r') q = none := fun q => by simp [ringAt, h, Ring.reset, findWork]
      simp [setWork, setRing_past _ _ _ h, hnone]
  · simp [setWork, ringAt_setRing_ne _ _ _ _ hr, hr]

theorem findWork_setWork_self {s : State} {r : Nat} {q : Word} {w : Work} (f : Work → Work) (hf : ∀ w, (f w).seq = w.seq)
    (h : findWork (ringAt s r) q = some w) : findWork (ringAt (setWork s r q f) r) q = some (f w) := by
  simp [findWork_setWork _ _ _ _ _ _ hf, h]

/-- A change of one piece of work puts it at the stage it gives. -/
theorem atStage_setWork {s : State} {r : Nat} {q : Word} {w : Work} {st : Stage} (f : Work → Work) (hf : ∀ w, (f w).seq = w.seq)
    (h : findWork (ringAt s r) q = some w) (hst : (f w).stage = st) : atStage (setWork s r q f) r q st :=
  ⟨f w, findWork_setWork_self f hf h, hst⟩

theorem ringAt_returnWith_self {s : State} {r : Nat} {q : Word} {o : Outcome} {w : Work} (h : findWork (ringAt s r) q = some w)
    (hret : w.ret = none) (hj : journalOf s r q = none) : findWork (ringAt (returnWith s r q o) r) q = some { w with ret := some o } := by
  simp only [returnWith, hj, Option.isSome_none, Bool.false_eq_true, if_false]
  rw [findWork_setWork_self _ (fun w => by split <;> rfl) h, hret]

/-- Work without an outcome is returned with the outcome it is given. -/
theorem returnedWith_returnWith {s : State} {r : Nat} {q : Word} {o : Outcome} {w : Work} (h : findWork (ringAt s r) q = some w)
    (hret : w.ret = none) (hj : journalOf s r q = none) : returnedWith (returnWith s r q o) r q = some o := by
  simp [returnedWith, ringAt_returnWith_self h hret hj]

theorem returnedWith_returnWork {s : State} {r : Nat} {q : Word} {st : Status} {w : Work} (h : findWork (ringAt s r) q = some w)
    (hret : w.ret = none) (hj : journalOf s r q = none) : returnedWith (returnWork s r q st) r q = some (Outcome.of st 0 0) :=
  returnedWith_returnWith h hret hj

/-- Open work is accepted work with no return and no journal entry. -/
theorem workOpen_eq_some {s : State} {r : Nat} {q : Word} {w : Work} :
    workOpen s r q = some w ↔ findWork (ringAt s r) q = some w ∧ w.ret = none ∧ journalOf s r q = none := by
  unfold workOpen
  cases h : findWork (ringAt s r) q with
  | none => simp
  | some w' =>
    simp only [Option.some.injEq]
    split
    case isTrue hc =>
      simp only [reduceCtorEq, false_iff, not_and]
      rintro rfl hr hj
      simp [hr, hj] at hc
    case isFalse hc =>
      simp only [Bool.or_eq_true, not_or, Bool.not_eq_true, Option.isSome_eq_false_iff, Option.isNone_iff_eq_none] at hc
      simp only [Option.some.injEq]
      exact ⟨fun h => h ▸ ⟨rfl, hc.1, hc.2⟩, And.left⟩

end Sys2Proof.Machine

/-! # Doorbells and the arbiter's grants

A doorbell's four ends, what a grant says of the other rings, and the two fetches it may begin. -/

namespace Sys2Proof.Machine

open Sys2Proof

/-! ### Doorbells (R39, R43) -/

theorem doorbellAt_of_bad {s : State} {r : Nat} {v : Word} (h : (ringAt s r).enable = false ∨ doorbellOk (ringAt s r) r v = false) :
    doorbellAt s r v = doorbellFault (setRing s r (fun g => { g with dbErr := true })) r := by
  unfold doorbellAt
  rw [if_pos (by simpa using h)]

theorem doorbellAt_of_tail {s : State} {r : Nat} {v : Word} (he : (ringAt s r).enable = true) (hok : doorbellOk (ringAt s r) r v = true)
    (hw : hostWritten r = true) : doorbellAt s r v =
      if v = (ringAt s r).tail then s
      else
        let s1 := setRing s r (fun g => { g with tail := v, bmDue := true, bmGate := true })
        let s2 := if r = 3 ∨ r = 6 then ponWake s1 else s1
        if isRxRing r then s2 else leaveSleep s2 := by
  simp [doorbellAt, he, hok, hw]

theorem doorbellAt_of_head {s : State} {r : Nat} {v : Word} (he : (ringAt s r).enable = true) (hok : doorbellOk (ringAt s r) r v = true)
    (hw : hostWritten r = false) : doorbellAt s r v =
      if v = (ringAt s r).head then s else setRing s r (fun g => { g with head := v, bmDue := true }) := by
  simp [doorbellAt, he, hok, hw]

theorem doorbellOk_tail {g : Ring} {r : Nat} {v : Word} (hw : hostWritten r = true) :
    doorbellOk g r v = true ↔ (v - (g.cpl + 1)).toNat ≤ g.size ∧ precedes v g.tail = false := by
  simp [doorbellOk, hw]

theorem doorbellOk_head {g : Ring} {r : Nat} {v : Word} (hw : hostWritten r = false) :
    doorbellOk g r v = true ↔ (g.cpl + 1 - v).toNat ≤ g.size ∧ precedes v g.head = false := by
  simp [doorbellOk, hw]

/-- A ring past the last is not enabled. -/
theorem lt_of_enable {s : State} {r : Nat} (h : (ringAt s r).enable = true) : r < 160 := by
  by_contra hr
  simp [ringAt, hr, Ring.reset] at h

/-- What follows a new T: the uplink and the terminal may leave their low-power modes, and the rings stay. -/
theorem wakeAfterTail_frame (s : State) (r : Nat) :
    let t := if isRxRing r then (if r = 3 ∨ r = 6 then ponWake s else s) else leaveSleep (if r = 3 ∨ r = 6 then ponWake s else s)
    t.rings = s.rings ∧ t = { s with upl := t.upl, pwr := t.pwr, hif := t.hif, fw := t.fw, evt := t.evt, sent := t.sent } := by
  intro t
  have hrings : t.rings = s.rings := by simp only [t]; split <;> split <;> simp
  refine ⟨hrings, ?_⟩
  apply State.eq_of_parts <;> simp only [t] <;> split <;> split <;> simp

theorem doorbellWrite_of_wrong {s : State} {who : Requester} {off r : Nat} {v : Word} (hd : doorbellRing who off = some r)
    (h : ringOnPart s r = false ∨ ownsRing s who r = false) : doorbellWrite s who off v = raise s Src.doorbellFault 0xFF (word r) := by
  simp only [doorbellWrite, hd]
  rw [if_pos (by simpa using h)]; rfl

theorem doorbellWrite_of_own {s : State} {who : Requester} {off r : Nat} {v : Word} (hd : doorbellRing who off = some r)
    (hp : ringOnPart s r = true) (ho : ownsRing s who r = true) : doorbellWrite s who off v = doorbellAt s r v := by
  simp [doorbellWrite, hd, hp, ho]

/-! ### The arbiter (Table 02.4) -/

theorem nextAfter_some {cursor r : Nat} {p : Nat → Bool} (h : nextAfter cursor p = some r) : p r = true ∧ r < 160 := by
  refine ⟨List.find?_some h, ?_⟩
  obtain ⟨i, -, rfl⟩ := List.mem_map.1 (List.mem_of_find?_eq_some h)
  omega

/-- The cyclic search passes every ring. -/
theorem nextAfter_none {cursor : Nat} {p : Nat → Bool} (h : nextAfter cursor p = none) {x : Nat} (hx : x < 160) : p x = false := by
  have hall := List.find?_eq_none.1 h
  have hmem : x ∈ (List.range 160).map (fun i => (cursor + 1 + i) % 160) :=
    List.mem_map.2 ⟨(x + 160 - (cursor + 1) % 160) % 160, List.mem_range.2 (by omega), by omega⟩
  simpa using hall x hmem

theorem ringClass_le (r : Nat) : ringClass r ≤ 2 := by
  unfold ringClass
  split
  · omega
  · split <;> omega

/-- A granted ring may be granted, and no ring of an earlier class may. -/
theorem grant_some {s : State} {r : Nat} (h : grant s = some r) :
    mayGrant s r = true ∧ r < 160 ∧ ∀ x, x < 160 → mayGrant s x = true → ringClass r ≤ ringClass x := by
  unfold grant at h
  cases h0 : nextAfter s.hif.rrExpress (fun r => ringClass r == 0 && mayGrant s r) with
  | some r0 =>
    obtain ⟨hp, hr⟩ := nextAfter_some h0
    simp only [h0, Option.some.injEq] at h
    subst h
    simp only [Bool.and_eq_true, beq_iff_eq] at hp
    exact ⟨hp.2, hr, fun x _ _ => by omega⟩
  | none =>
    have hno0 : ∀ x, x < 160 → mayGrant s x = true → ringClass x ≠ 0 := fun x hx hm hc => by
      simpa [hm, hc] using nextAfter_none h0 hx
    simp only [h0] at h
    cases h1 : nextAfter s.hif.rrControl (fun r => ringClass r == 1 && mayGrant s r) with
    | some r1 =>
      obtain ⟨hp, hr⟩ := nextAfter_some h1
      simp only [h1, Option.some.injEq] at h
      subst h
      simp only [Bool.and_eq_true, beq_iff_eq] at hp
      exact ⟨hp.2, hr, fun x hx hm => by have := hno0 x hx hm; omega⟩
    | none =>
      have hno1 : ∀ x, x < 160 → mayGrant s x = true → ringClass x ≠ 1 := fun x hx hm hc => by
        simpa [hm, hc] using nextAfter_none h1 hx
      simp only [h1] at h
      obtain ⟨hp, hr⟩ := nextAfter_some h
      simp only [Bool.and_eq_true, beq_iff_eq] at hp
      exact ⟨hp.2, hr, fun x hx hm => by
        have := hno0 x hx hm; have := hno1 x hx hm; have := ringClass_le x; omega⟩

/-! ### The cursor of a class says nothing of rings and windows -/

@[simp] theorem ringAt_moveCursor (s : State) (r x : Nat) : ringAt (moveCursor s r) x = ringAt s x := rfl

@[simp] theorem journalOf_moveCursor (s : State) (r x : Nat) (q : Word) : journalOf (moveCursor s r) x q = journalOf s x q := rfl

@[simp] theorem moveCursor_sent (s : State) (r : Nat) : (moveCursor s r).sent = s.sent := rfl

theorem moveCursor_hif (s : State) (r : Nat) : ∃ a b c,
    (moveCursor s r).hif = { s.hif with rrExpress := a, rrControl := b, rrBulk := c } := by
  unfold moveCursor
  dsimp only
  split <;> exact ⟨_, _, _, rfl⟩

@[simp] theorem ringOwner_moveCursor (s : State) (r x : Nat) : ringOwner (moveCursor s r) x = ringOwner s x := by
  obtain ⟨a, b, c, h⟩ := moveCursor_hif s r
  simp only [ringOwner, vfOn, h]; rfl

@[simp] theorem inWindows_moveCursor (s : State) (r f : Nat) (w : Bool) (a l : Nat) : inWindows (moveCursor s r) f w a l = inWindows s f w a l := by
  obtain ⟨x, y, z, h⟩ := moveCursor_hif s r
  simp only [inWindows, pageOpen, h]

@[simp] theorem readRequests_moveCursor (s : State) (r f a l : Nat) : readRequests (moveCursor s r) f a l = readRequests s f a l := by
  obtain ⟨x, y, z, h⟩ := moveCursor_hif s r
  simp only [readRequests, maxRead, h]

@[simp] theorem readRequests_setRing (s : State) (r : Nat) (g : Ring → Ring) (f a l : Nat) :
    readRequests (setRing s r g) f a l = readRequests s f a l := rfl

@[simp] theorem sendRead_sent (s : State) (f a l : Nat) : (sendRead s f a l).sent = readRequests s f a l ++ s.sent := rfl

@[simp] theorem ringAt_sendRead (s : State) (f a l x : Nat) : ringAt (sendRead s f a l) x = ringAt s x := rfl

theorem sendRead_onlyRing (s : State) (f a l r : Nat) : OnlyRing s (sendRead s f a l) r := onlyRing_of_rings r rfl

/-! ### The two fetches -/

/-- The parts a fetch may change. -/
def FetchFrame (s t : State) : Prop := t = { s with hif := t.hif, rings := t.rings, evt := t.evt, sent := t.sent }

theorem FetchFrame.trans {s t u : State} (h : FetchFrame s t) (k : FetchFrame t u) : FetchFrame s u := by
  unfold FetchFrame at *
  rw [k, h]

theorem moveCursor_frame (s : State) (r : Nat) : FetchFrame s (moveCursor s r) := rfl

theorem setRing_frame (s : State) (r : Nat) (f : Ring → Ring) : FetchFrame s (setRing s r f) := rfl

theorem sendRead_frame (s : State) (f a l : Nat) : FetchFrame s (sendRead s f a l) := rfl

theorem ringWindowFault_frame (s : State) (r a : Nat) : FetchFrame s (ringWindowFault s r a) := by
  apply State.eq_of_parts <;> simp

theorem returnWork_frame (s : State) (r : Nat) (q : Word) (st : Status) : FetchFrame s (returnWork s r q st) := by
  apply State.eq_of_parts <;> simp

theorem refetchFailed_frame (s : State) (r : Nat) (q : Word) (st : Status) : FetchFrame s (refetchFailed s r q st) := by
  unfold refetchFailed
  split
  · rfl
  · exact returnWork_frame _ _ _ _

theorem refetchFailed_onlyRing (s : State) (r : Nat) (q : Word) (st : Status) : OnlyRing s (refetchFailed s r q st) r := by
  unfold refetchFailed
  split
  · exact .refl s r
  · exact returnWork_onlyRing _ _ _ _

/-- A failed re-fetch changes no more of its ring than the work. -/
theorem ringAt_refetchFailed (s : State) (r : Nat) (q : Word) (st : Status) :
    ∃ l, ringAt (refetchFailed s r q st) r = { ringAt s r with work := l } := by
  unfold refetchFailed returnWork returnWith
  split
  · exact ⟨_, rfl⟩
  · split
    · exact ⟨_, rfl⟩
    · by_cases hr : r < 160
      · exact ⟨_, ringAt_setRing_self _ _ _ hr⟩
      · rw [setWork, setRing_past _ _ _ hr]; exact ⟨_, rfl⟩

theorem fetchAgain_frame (s : State) (r : Nat) (w : Work) : FetchFrame s (fetchAgain s r w) := by
  unfold fetchAgain
  dsimp only
  split
  · exact (setRing_frame _ _ _).trans (sendRead_frame _ _ _ _)
  · exact (ringWindowFault_frame _ _ _).trans (refetchFailed_frame _ _ _ _)

theorem fetchAgain_onlyRing (s : State) (r : Nat) (w : Work) : OnlyRing s (fetchAgain s r w) r := by
  unfold fetchAgain
  dsimp only
  split
  · exact (setRing_onlyRing s r _).trans (sendRead_onlyRing _ _ _ _ r)
  · exact (ringWindowFault_onlyRing _ _ _).trans (refetchFailed_onlyRing _ _ _ _)

theorem fetchNew_frame (s : State) (r : Nat) : FetchFrame s (fetchNew s r) := by
  unfold fetchNew
  dsimp only
  split
  · exact (setRing_frame _ _ _).trans (sendRead_frame _ _ _ _)
  · exact (setRing_frame _ _ _).trans (ringWindowFault_frame _ _ _)

theorem fetchNew_onlyRing (s : State) (r : Nat) : OnlyRing s (fetchNew s r) r := by
  unfold fetchNew
  dsimp only
  split
  · exact (setRing_onlyRing s r _).trans (sendRead_onlyRing _ _ _ _ r)
  · exact (setRing_onlyRing _ _ _).trans (ringWindowFault_onlyRing _ _ _)

/-- The grant's own step: what it does to a ring it fetches a descriptor of again, and to one it fetches new ones of. -/
theorem descriptorFetchOp_of_refetch {s : State} {r : Nat} {w : Work} (h : grant s = some r) (hw : toRefetch s r = some w) :
    descriptorFetchOp s = fetchAgain (moveCursor s r) r w := by
  simp [descriptorFetchOp, h, hw]

theorem descriptorFetchOp_of_new {s : State} {r : Nat} (h : grant s = some r) (hw : toRefetch s r = none) :
    descriptorFetchOp s = fetchNew (moveCursor s r) r := by
  simp [descriptorFetchOp, h, hw]

/-- Work to be fetched again has neither a return nor a journal entry. -/
theorem open_of_toRefetch {s : State} {r : Nat} {w : Work} (h : toRefetch s r = some w) : w.ret = none ∧ journalOf s r w.seq = none := by
  have := List.find?_some h
  simp only [Bool.and_eq_true, decide_eq_true_eq, Option.isNone_iff_eq_none] at this
  exact ⟨this.1.2, this.2⟩

@[simp] theorem journalOf_ringWindowFault (s : State) (r a x : Nat) (q : Word) : journalOf (ringWindowFault s r a) x q = journalOf s x q := by
  simp only [journalOf, ringWindowFault_journal]

/-- The work of a failed re-fetch outside the windows is returned, unless it is a receive buffer. -/
theorem returnedWith_fetchAgain {s : State} {r : Nat} {w : Work} (hw : toRefetch s r = some w) (hf : findWork (ringAt s r) w.seq = some w)
    (hwin : inWindows s (ringOwner s r) false (slotAddr (ringAt s r) w.seq) 32 = false) (hrx : isRxRing r = false) :
    returnedWith (fetchAgain s r w) r w.seq = some (Outcome.of .retWindow 0 0) := by
  obtain ⟨hret, hj⟩ := open_of_toRefetch hw
  simp only [fetchAgain, hwin, Bool.false_eq_true, if_false, refetchFailed, hrx]
  refine returnedWith_returnWork (w := w) ?_ hret (by simpa using hj)
  rw [ringAt_ringWindowFault, ringAt_setRing_self _ _ _ (lt_of_findWork hf)]
  exact hf

theorem fetchCount_bounds {s : State} {r : Nat} (h : mayFetch s r = true) :
    1 ≤ fetchCount (ringAt s r) r ∧ fetchCount (ringAt s r) r ≤ 8 ∧ (ringClass r = 0 → fetchCount (ringAt s r) r = 1) ∧
    fetchCount (ringAt s r) r ≤ ((ringAt s r).tail - ((ringAt s r).acc + 1)).toNat ∧
    ((ringAt s r).acc + 1).toNat % (ringAt s r).size + fetchCount (ringAt s r) r ≤ (ringAt s r).size := by
  have hu : untaken (ringAt s r) ≠ 0 := by
    simp only [mayFetch, Bool.and_eq_true, decide_eq_true_eq] at h
    exact h.1.2
  have hpos : 0 < (ringAt s r).size := by simp [Ring.size]
  have hm := Nat.mod_lt ((ringAt s r).acc + 1).toNat hpos
  unfold untaken at hu
  refine ⟨?_, ?_, fun hc => ?_, ?_, ?_⟩ <;> unfold fetchCount untaken <;> split <;> omega

/-- Settles O3: the four ends of a doorbell, the grant's order, and the fetch it begins or the halt it makes. -/
theorem doorbellsAndFetchGrants : Obligations.DoorbellsAndFetchGrants := by
  unfold Obligations.DoorbellsAndFetchGrants
  refine ⟨fun s who off v r hfw hbar hent htest hd => ⟨doorbellWrite s who off.toNat v, ?_, ?_, ?_, ?_, ?_⟩, ?_, ?_⟩
  · simp [exec, execDoorbell, hfw, htest, hbar, hostWrote_of_not_entering s hent]
  · exact doorbellWrite_of_wrong hd
  · intro hp ho he hw hle hpre
    rw [doorbellWrite_of_own hd hp ho, doorbellAt_of_tail he ((doorbellOk_tail hw).2 ⟨hle, hpre⟩) hw]
    refine ⟨fun hv => if_pos hv, fun hv => ?_⟩
    rw [if_neg hv]
    obtain ⟨hrings, hframe⟩ := wakeAfterTail_frame (setRing s r (fun g => { g with tail := v, bmDue := true, bmGate := true })) r
    refine ⟨?_, (setRing_onlyRing _ _ _).trans (onlyRing_of_rings r hrings), ?_⟩
    · simp only [ringAt] at hrings ⊢
      rw [hrings]
      exact ringAt_setRing_self s r _ (lt_of_enable he)
    · dsimp only at hframe hrings ⊢
      rw [hrings]
      exact hframe
  · intro hp ho he hw hle hpre
    rw [doorbellWrite_of_own hd hp ho, doorbellAt_of_head he ((doorbellOk_head hw).2 ⟨hle, hpre⟩) hw]
    refine ⟨fun hv => if_pos hv, fun hv => ?_⟩
    rw [if_neg hv]
    exact ⟨ringAt_setRing_self _ _ _ (lt_of_enable he), setRing_onlyRing _ _ _, rfl⟩
  · intro hp ho hbad
    rw [doorbellWrite_of_own hd hp ho]
    refine doorbellAt_of_bad (hbad.imp_right ?_)
    rintro (⟨hw, h⟩ | ⟨hw, h⟩)
    · rw [← Bool.not_eq_true, doorbellOk_tail hw]
      rintro ⟨hle, hpre⟩
      rcases h with h | h
      · omega
      · simp [h] at hpre
    · rw [← Bool.not_eq_true, doorbellOk_head hw]
      rintro ⟨hle, hpre⟩
      rcases h with h | h
      · omega
      · simp [h] at hpre
  · intro s who off hfw hbar htest
    refine ⟨_, doorbellImage s who off.toNat, ?_, rfl, fun hn => ?_, fun r hr hp => ?_⟩
    · simp [exec, execDoorbell, hfw, htest, hbar]
    · simp [doorbellImage, hn]
    · simp [doorbellImage, hr, hp]
  · intro s r hg
    obtain ⟨hm, hr, hcls⟩ := grant_some hg
    refine ⟨hm, hr, hcls, descriptorFetchOp s, rfl, ?_, ?_, ?_, ?_, ?_⟩
    · cases hw : toRefetch s r with
      | some w => rw [descriptorFetchOp_of_refetch hg hw]; exact fetchAgain_onlyRing (moveCursor s r) r w
      | none => rw [descriptorFetchOp_of_new hg hw]; exact fetchNew_onlyRing (moveCursor s r) r
    · cases hw : toRefetch s r with
      | some w => rw [descriptorFetchOp_of_refetch hg hw]; exact (moveCursor_frame s r).trans (fetchAgain_frame _ r w)
      | none => rw [descriptorFetchOp_of_new hg hw]; exact (moveCursor_frame s r).trans (fetchNew_frame _ r)
    · intro w hw hf
      rw [descriptorFetchOp_of_refetch hg hw]
      refine ⟨fun hwin => ?_, fun hwin => ?_⟩
      · simp [fetchAgain, hwin, ringAt_setRing_self, hr]
      · obtain ⟨l, hl⟩ := ringAt_refetchFailed
          (ringWindowFault (moveCursor s r) r (slotAddr (ringAt s r) w.seq)) r w.seq .retWindow
        have hring : ringAt (fetchAgain (moveCursor s r) r w) r = { ringAt s r with winErr := true, work := l } := by
          simp only [fetchAgain, inWindows_moveCursor, ringOwner_moveCursor, ringAt_moveCursor, hwin, Bool.false_eq_true, if_false]
          rw [hl, ringAt_ringWindowFault, ringAt_setRing_self _ _ _ hr]
          rfl
        refine ⟨by rw [hring], by rw [hring], fun hrx => ?_⟩
        exact returnedWith_fetchAgain (s := moveCursor s r) hw hf (by simpa using hwin) hrx
    · intro hw hwin
      have hmf : mayFetch s r = true := by simpa [mayGrant, mayRefetch, hw] using hm
      rw [descriptorFetchOp_of_new hg hw]
      have hnew : fetchNew (moveCursor s r) r = sendRead
          (setRing (moveCursor s r) r (fun g => { g with fetch := some (g.acc + 1, fetchCount (ringAt s r) r) }))
          (ringOwner s r) (slotAddr (ringAt s r) ((ringAt s r).acc + 1)) (32 * fetchCount (ringAt s r) r) := by
        simp only [fetchNew, inWindows_moveCursor, ringOwner_moveCursor, ringAt_moveCursor, hwin, if_true]
      rw [hnew]
      exact ⟨by rw [ringAt_sendRead]; exact ringAt_setRing_self _ _ _ hr, by rw [sendRead_sent, readRequests_setRing, readRequests_moveCursor]; rfl,
        fetchCount_bounds hmf⟩
    · intro hw hwin
      rw [descriptorFetchOp_of_new hg hw]
      simp only [fetchNew, inWindows_moveCursor, ringOwner_moveCursor, ringAt_moveCursor, hwin, Bool.false_eq_true, if_false]
      rw [ringAt_ringWindowFault, ringAt_setRing_self _ _ _ hr, haltRing, ringAt_setRing_self _ _ _ hr]
      rfl

end Sys2Proof.Machine

/-! # Fetches that complete

A whole fetch is accepted descriptor by descriptor; its effect is one change of its ring. -/

namespace Sys2Proof.Machine

open Sys2Proof

/-- Two changes of one ring are one change. -/
theorem setRing_setRing (s : State) (r : Nat) (f g : Ring → Ring) : setRing (setRing s r f) r g = setRing s r (fun x => g (f x)) := by
  by_cases h : r < 160
  · simp only [setRing, ringAt, vget, vset, h, dif_pos]
    simp
  · simp only [setRing_past _ _ _ h]

/-! ### What a fetch leaves on its ring -/

/-- One descriptor accepted with sequence number q. -/
def acceptedAs (s : State) (r : Nat) (q : Word) (d : Desc) : Work :=
  { seq := q, d := d, at_ := s.datum, stage := .accepted, ret := fetchReturn s r q d
    recov := false, refetch := false, issued := false, reserve := false }

/-- The descriptors of one fetch accepted in sequence order after acceptance counter a. -/
def acceptedRun (s : State) (r : Nat) : Word → List Desc → List Work
  | _, [] => []
  | a, d :: ds => acceptedAs s r (a + 1) d :: acceptedRun s r (a + 1) ds

/-- A ring after the descriptors of one fetch. -/
def acceptInto (s : State) (r : Nat) (ds : List Desc) (g : Ring) : Ring :=
  { g with
    acc := g.acc + word ds.length
    work := g.work ++ acceptedRun s r g.acc ds
    seqErr := g.seqErr || (acceptedRun s r g.acc ds).any (fun w => w.d.seq != w.seq) }

theorem acceptOne_eq (s : State) (r : Nat) (d : Desc) : acceptOne s r d = setRing s r (acceptInto s r [d]) := by
  simp only [acceptOne, setRing, acceptInto, acceptedRun, acceptedAs, List.any_cons, List.any_nil, Bool.or_false,
    List.length_singleton]
  rfl

theorem word_succ (n : Nat) : word (n + 1) = 1 + word n := by
  simp only [word, BitVec.ofNat_add]
  exact BitVec.add_comm _ _

theorem acceptInto_cons (s : State) (r : Nat) (d : Desc) (ds : List Desc) (g : Ring) :
    acceptInto s r ds (acceptInto s r [d] g) = acceptInto s r (d :: ds) g := by
  have hnil : word ([] : List Desc).length = 0#32 := rfl
  simp only [acceptInto, hnil, BitVec.add_zero, acceptedRun, List.length_cons, word_succ, List.append_assoc, List.cons_append, List.nil_append,
    List.any_cons, List.any_nil, Bool.or_false, Bool.or_assoc, BitVec.add_assoc]

/-- Accepting the descriptors one by one is one change of the ring. -/
theorem foldl_acceptOne (s : State) (r : Nat) (ds : List Desc) : ∀ f : Ring → Ring,
    ds.foldl (fun t d => acceptOne t r d) (setRing s r f) = setRing s r (fun g => acceptInto s r ds (f g)) := by
  induction ds with
  | nil =>
    intro f
    have hnil : ∀ g, acceptInto s r [] g = g := fun g => by simp [acceptInto, acceptedRun, word]
    simp only [List.foldl_nil, hnil]
  | cons d ds ih =>
    intro f
    rw [List.foldl_cons, acceptOne_eq, setRing_setRing]
    refine (ih _).trans ?_
    congr 1
    funext g
    exact acceptInto_cons s r d ds (f g)

theorem acceptedRun_length (s : State) (r : Nat) (ds : List Desc) : ∀ a, (acceptedRun s r a ds).length = ds.length := by
  induction ds with
  | nil => exact fun _ => rfl
  | cons d ds ih => intro a; simp only [acceptedRun, List.length_cons, ih]

theorem acceptedRun_getElem? (s : State) (r : Nat) (ds : List Desc) : ∀ (a : Word) (i : Nat),
    (acceptedRun s r a ds)[i]? = ds[i]?.map (acceptedAs s r (a + 1 + word i)) := by
  induction ds with
  | nil => intro a i; simp [acceptedRun]
  | cons d ds ih =>
    intro a i
    cases i with
    | zero => simp [acceptedRun, word]
    | succ i => simp only [acceptedRun, List.getElem?_cons_succ, ih, word_succ, BitVec.add_assoc]

theorem parseDescs_length (n : Nat) : ∀ b, (parseDescs n b).length = n := by
  induction n with
  | zero => exact fun _ => rfl
  | succ n ih => intro b; simp only [parseDescs, List.length_cons, ih]

theorem parseDescs_getElem? (n : Nat) : ∀ (b : List Byte) (i : Nat),
    (parseDescs n b)[i]? = if i < n then some (parseDesc ((b.drop (32 * i)).take 32)) else none := by
  induction n with
  | zero => intro b i; simp [parseDescs]
  | succ n ih =>
    intro b i
    cases i with
    | zero => simp [parseDescs]
    | succ i =>
      simp only [parseDescs, List.getElem?_cons_succ, ih, List.drop_drop, Nat.add_lt_add_iff_right]
      congr 5
      omega

/-! ### The return a fetched descriptor meets (R50, R63, R97) -/

theorem fetchReturn_of_seq {s : State} {r : Nat} {q : Word} {d : Desc} (h : d.seq ≠ q) :
    fetchReturn s r q d = some (Outcome.of .retSeq 0 0) := if_pos h

theorem fetchReturn_of_opcode {s : State} {r : Nat} {q : Word} {d : Desc} (h : d.seq = q) (ho : opcodeAllowed r d.opcode.toNat = false) :
    fetchReturn s r q d = some (Outcome.of .retOpcode 0 0) := by simp [fetchReturn, h, ho]

theorem fetchReturn_of_allowed {s : State} {r : Nat} {q : Word} {d : Desc} (h : d.seq = q) (ho : opcodeAllowed r d.opcode.toNat = true) :
    fetchReturn s r q d = if noPathAt s r d then some (Outcome.of .retNoPath 0 0) else none := by simp [fetchReturn, h, ho]

theorem noPathAt_of_transmit {s : State} {r c : Nat} (d : Desc) (hc : ringChan r = some c) (hk : (r - 16) % 6 < 2) (hs : serving s c = false) :
    noPathAt s r d = true := by simp [noPathAt, hc, hk, hs]

/-! ### The two ends of a fetch -/

theorem fetchDone_ok {s : State} {r : Nat} {first : Word} {n : Nat} {data : List Byte} (h : data.length = 32 * n) :
    fetchDone s r first n .ok data = setRing s r (fun g => acceptInto s r (parseDescs n data) { g with fetch := none }) := by
  rw [fetchDone, if_pos rfl, if_pos h, foldl_acceptOne]

theorem fetchDone_error {s : State} {r : Nat} {first : Word} {n : Nat} {res : XferResult} {data : List Byte} (h : res ≠ .ok) :
    fetchDone s r first n res data =
      raise (latchFault (setRing (haltRing s r) r (fun g => { g with dmaErr := true })) (xferKind res) r (ringOwner s r)
        (slotAddr (ringAt s r) first)) Src.dmaFault 0xFF (word r) := if_neg h

theorem exec_fetchComplete_new {s : State} {r : RingNo} {res : XferResult} {data : List Byte} {first : Word} {n : Nat}
    (hr : (ringAt s r.val).refetch = none) (hf : (ringAt s r.val).fetch = some (first, n)) (hl : data.length ≤ 256) :
    exec (.descriptorFetchComplete r res data) s = .next (fetchDone s r.val first n res data) := by
  have : ¬ 256 < data.length := by omega
  simp [exec, execDescriptorFetchComplete, fetchCompleteOp, hr, hf, this]

/-- Settles O4: the change of the ring that a whole fetch makes, the halt of a failed one, the re-fetch and the resumption. -/
theorem fetchesAcceptedOrHalted : Obligations.FetchesAcceptedOrHalted := by
  unfold Obligations.FetchesAcceptedOrHalted
  refine ⟨?_, ?_, ?_, ?_⟩
  · intro s r data first n hre hf hn hl
    refine ⟨_, acceptedRun s r.val (ringAt s r.val).acc (parseDescs n data), exec_fetchComplete_new hre hf (by omega), ?_⟩
    rw [fetchDone_ok hl]
    have hring := ringAt_setRing_self s r.val (fun g => acceptInto s r.val (parseDescs n data) { g with fetch := none }) r.isLt
    refine ⟨setRing_onlyRing _ _ _, rfl, ?_, by rw [acceptedRun_length, parseDescs_length], ?_⟩
    · rw [hring]; simp only [acceptInto, parseDescs_length]
    · intro i w hi
      have hany : w.d.seq ≠ w.seq →
          (ringAt (setRing s r.val (fun g => acceptInto s r.val (parseDescs n data) { g with fetch := none })) r.val).seqErr = true := by
        intro hne
        rw [hring]
        simp only [acceptInto, Bool.or_eq_true, List.any_eq_true, bne_iff_ne]
        exact .inr ⟨w, List.mem_of_getElem? hi, hne⟩
      rw [acceptedRun_getElem?, parseDescs_getElem?] at hi
      split at hi
      case isFalse => simp at hi
      simp only [Option.map_some, Option.some.injEq] at hi
      subst hi
      refine ⟨rfl, rfl, rfl, rfl, fun h => ⟨fetchReturn_of_seq h, hany h⟩, fun h ho => fetchReturn_of_opcode h ho, ?_, ?_⟩
      · intro c h ho hc hk hs
        exact (fetchReturn_of_allowed h ho).trans (if_pos (noPathAt_of_transmit _ hc hk hs))
      · intro h ho hp
        exact (fetchReturn_of_allowed h ho).trans (if_neg (by simp [acceptedAs] at hp ⊢; exact hp))
  · intro s r data res first n hre hf hl hres
    refine ⟨_, exec_fetchComplete_new hre hf hl, ?_⟩
    rw [fetchDone_error hres, haltRing, setRing_setRing]
    refine ⟨fun x hx => ?_, ?_, ?_⟩
    · simp only [ringAt_raise, ringAt_latchFault, ringAt_setRing_ne _ _ _ _ hx]
    · simp only [ringAt_raise, ringAt_latchFault, ringAt_setRing_self _ _ _ r.isLt]
    · apply State.eq_of_parts <;> simp
  · intro s r data w hre hto hf hl hseq
    refine ⟨setWork (setRing s r.val (fun g => { g with refetch := none })) r.val w.seq
      (fun w => { w with d := parseDesc data, stage := .accepted }), ?_, ?_, rfl, ?_, ?_, ?_⟩
    · simp [exec, execDescriptorFetchComplete, fetchCompleteOp, hre, refetchDone, hto, hl, hseq]
    · exact (setRing_onlyRing _ _ _).trans (setWork_onlyRing _ _ _ _)
    · rw [setWork, setRing_setRing, ringAt_setRing_self _ _ _ r.isLt]
    · rw [setWork, setRing_setRing, ringAt_setRing_self _ _ _ r.isLt]
    · refine findWork_setWork_self _ (fun _ => rfl) ?_
      rw [ringAt_setRing_self _ _ _ r.isLt]
      exact hf
  · intro s who r hreach hp hh
    refine ⟨haltedClear s r.val, ?_, setRing_onlyRing _ _ _, rfl, ?_⟩
    · simp [exec, execRingHaltedClear, hreach, hp]
    · rw [haltedClear, ringAt_setRing_self _ _ _ r.isLt, if_pos hh]

end Sys2Proof.Machine

/-! # Creating and removing rings

RING_CFG of the two rings the registers create, CREATE_RING and DESTROY_RING: the benchmark record of a change touches no more of its ring than GEN and two marks, and what the blocks give up of a ring that goes leaves its accepted work. -/

namespace Sys2Proof.Machine

open Sys2Proof

/-! ### Commands -/

/-- The work of a command that may have an outcome now. -/
theorem cmdWork_eq_some {s : State} {r : Nat} {q : Word} {op : Nat} {w : Work} (h : cmdWork s r q op = some w) :
    workOpen s r q = some w ∧ w.d.opcode.toNat = op ∧ w.stage ≠ .wantDesc ∧ isCmdRing r = true ∧ cmdServed s op = true ∧
      journalRoom s = true ∧ (ringAt s r).state ≠ .recovering := by
  unfold cmdWork at h
  cases hw : workOpen s r q with
  | none => simp [hw] at h
  | some w' =>
    simp only [hw] at h
    split at h
    case isFalse => simp at h
    case isTrue hc => cases h; exact ⟨rfl, hc⟩

theorem returnedWith_of_workOpen {s : State} {r : Nat} {q : Word} {w : Work} (h : workOpen s r q = some w) (st : Status) :
    returnedWith (returnWork s r q st) r q = some (Outcome.of st 0 0) := by
  obtain ⟨hf, hret, hj⟩ := workOpen_eq_some.1 h
  exact returnedWith_returnWork hf hret hj

theorem journalSpace_of_room {s : State} (h : journalRoom s = true) : journalSpace s = true := by
  simp only [journalRoom, Bool.and_eq_true] at h
  exact h.1

/-- The journal's room depends on the journal and on the bursts alone. -/
theorem journalSpace_congr {s t : State} (hj : t.journal = s.journal) (hb : t.upl.bursts = s.upl.bursts) (hw : t.upl.window = s.upl.window) :
    journalSpace t = journalSpace s := by
  unfold journalSpace reservedEntries
  rw [hj, hb, hw]

theorem emitWork_journal {s : State} (h : journalSpace s = true) (r : RingNo) (q : Word) (o : Outcome) :
    (emitWork s r q o).journal = s.journal ++ [{ ring := r, seq := q, out := o }] := by
  simp [emitWork, h]

theorem ringAt_emitWork_ne (s : State) (r : RingNo) (q : Word) (o : Outcome) {x : Nat} (hx : x ≠ r.val) :
    ringAt (emitWork s r q o) x = ringAt s x := by
  unfold emitWork
  split
  · change ringAt (setRing (setWork s r.val q (fun w => { w with stage := .sent })) r.val (fun g => { g with emitted := g.emitted + 1 })) x = _
    exact (ringAt_setRing_ne _ _ _ _ hx).trans (setWork_onlyRing _ _ _ _ x hx)
  · rfl

/-! ### A benchmark record's own marks (R73) -/

/-- A ring with other benchmark marks. -/
def Ring.benched (g : Ring) (gen : Word) (due gate : Bool) : Ring := { g with gen := gen, bmDue := due, bmGate := gate }

/-- On the rings a benchmark record is a change of those marks. -/
theorem writeBench_rings (s : State) (r : RingNo) : ∃ gen due gate,
    (writeBench s r).rings = (setRing s r.val (fun g => g.benched gen due gate)).rings := by
  unfold writeBench
  split
  · exact ⟨(ringAt s r.val).gen, false, false, rfl⟩
  · split
    · exact ⟨(ringAt s r.val).gen, true, (ringAt s r.val).bmGate, (ledgerWait_rings _ _).trans rfl⟩
    · exact ⟨(ringAt s r.val).gen + 1, false, false, (ledgerWrite_rings _ _ _ _).trans rfl⟩

theorem ringAt_writeBench (s : State) (r : RingNo) : ∃ gen due gate,
    ringAt (writeBench s r) r.val = (ringAt s r.val).benched gen due gate := by
  obtain ⟨gen, due, gate, h⟩ := writeBench_rings s r
  exact ⟨gen, due, gate, (congrArg (fun v => vget v r.val (Ring.reset r.val)) h).trans (ringAt_setRing_self s r.val _ r.isLt)⟩

theorem writeBench_onlyRing (s : State) (r : RingNo) : OnlyRing s (writeBench s r) r.val := by
  obtain ⟨gen, due, gate, h⟩ := writeBench_rings s r
  exact (setRing_onlyRing s r.val _).trans (onlyRing_of_rings r.val h)

theorem ringAt_writeBench_ne (s : State) (r : RingNo) {x : Nat} (hx : x ≠ r.val) : ringAt (writeBench s r) x = ringAt s x :=
  writeBench_onlyRing s r x hx

/-! ### Records to be written again (R68) -/

/-- A ring of number x whose records in a scope are to be written again. -/
def unissuedRing (sc : List RingNo) (x : Nat) (g : Ring) : Ring :=
  { g with
    unacked := if sc.any (fun y => y.val == x) then [] else g.unacked
    lost := if sc.any (fun y => y.val == x) then g.unacked.foldr (insertIssued (g.cpl + 1)) g.lost else g.lost
    work := if sc.any (fun y => y.val == recordRing x) then g.work.map (fun w => { w with issued := false }) else g.work }

theorem unissue_rings_eq (s : State) (sc : List RingNo) : (unissue s sc).rings = (mapRings s (unissuedRing sc)).rings := by
  unfold unissue
  dsimp only
  split <;> rfl

theorem ringAt_unissue (s : State) (sc : List RingNo) {x : Nat} (hx : x < 160) :
    ringAt (unissue s sc) x = unissuedRing sc x (ringAt s x) := by
  have h : ringAt (unissue s sc) x = ringAt (mapRings s (unissuedRing sc)) x := by simp only [ringAt, unissue_rings_eq]
  rw [h, ringAt_mapRings, if_pos hx]

/-- A ring that is not of the scope keeps all but its work. -/
theorem ringAt_unissue_ne (s : State) (r : RingNo) {x : Nat} (hx : x ≠ r.val) : ∃ l,
    ringAt (unissue s [r]) x = { ringAt s x with work := l } ∧ (recordRing x ≠ r.val → l = (ringAt s x).work) := by
  by_cases h160 : x < 160
  · have hne : [r].any (fun y => y.val == x) = false := by simpa using fun h => hx h.symm
    refine ⟨(unissuedRing [r] x (ringAt s x)).work, by rw [ringAt_unissue s [r] h160, unissuedRing, hne]; rfl, fun h => ?_⟩
    have hw : [r].any (fun y => y.val == recordRing x) = false := by simpa using fun h' => h h'.symm
    simp only [unissuedRing, hw, Bool.false_eq_true, if_false]
  · refine ⟨(ringAt s x).work, ?_, fun _ => rfl⟩
    simp only [ringAt, vget_past _ _ _ h160]

/-- No ring gives its records to ring 0. -/
theorem recordRing_ne_zero (x : Nat) : recordRing x ≠ 0 := by
  unfold recordRing chRing
  split
  · omega
  · split
    · omega
    · split <;> omega

/-! ### RING_CFG of rings 0 and 1 (R51) -/

/-- ENABLE as a write of RING_CFG leaves it. -/
def cfgEnable (s : State) (r : Nat) (v : Word) : Bool :=
  if bitOf v 31 == (ringAt s r).enable then (ringAt s r).enable
  else if enableTaken s r (bitOf v 31) then bitOf v 31 else (ringAt s r).enable

/-- VECTOR and LOG2_SIZE as a write of RING_CFG leaves them. -/
def cfgFields (en : Bool) (v : Word) (g : Ring) : Ring :=
  { g with
    vector := BitVec.ofNat 8 (bits v 23 16)
    log2 := if !g.enable && !en && decide (6 ≤ bits v 12 8) && decide (bits v 12 8 ≤ 16) then BitVec.ofNat 5 (bits v 12 8) else g.log2 }

/-- A ring taken out of use. -/
def disabledRing (g : Ring) : Ring := { g with enable := false, state := .disabled, halted := false, fetch := none, refetch := none }

theorem ringCfgOp_same {s : State} {r : RingNo} {v : Word} (h : cfgEnable s r.val v = (ringAt s r.val).enable) :
    ringCfgOp s r v = setRing s r.val (cfgFields (cfgEnable s r.val v) v) := by
  have hc : (cfgEnable s r.val v == (ringAt s r.val).enable) = true := by simpa using h
  exact if_pos hc

theorem ringCfgOp_on {s : State} {r : RingNo} {v : Word} (h : (ringAt s r.val).enable = false) (hon : cfgEnable s r.val v = true) :
    ringCfgOp s r v =
      writeBench (setRing (unissue (setRing s r.val (cfgFields (cfgEnable s r.val v) v)) [r]) r.val freshRing) r := by
  have hc : ¬ (cfgEnable s r.val v == (ringAt s r.val).enable) = true := by simp [h, hon]
  exact (if_neg hc).trans (if_pos hon)

theorem ringCfgOp_off {s : State} {r : RingNo} {v : Word} (h : (ringAt s r.val).enable = true) (hoff : cfgEnable s r.val v = false) :
    ringCfgOp s r v = writeBench (setRing (setRing s r.val (cfgFields (cfgEnable s r.val v) v)) r.val disabledRing) r := by
  have hc : ¬ (cfgEnable s r.val v == (ringAt s r.val).enable) = true := by simp [h, hoff]
  exact (if_neg hc).trans (if_neg (show ¬ cfgEnable s r.val v = true by simp [hoff]))

/-- The ring that a write of RING_CFG leaves. -/
theorem ringAt_ringCfgOp (s : State) (r : RingNo) (v : Word) : ∃ gen due gate l us ls,
    ringAt (ringCfgOp s r v) r.val =
      if cfgEnable s r.val v = (ringAt s r.val).enable then cfgFields (cfgEnable s r.val v) v (ringAt s r.val)
      else if cfgEnable s r.val v then
        (freshRing { cfgFields (cfgEnable s r.val v) v (ringAt s r.val) with work := l, unacked := us, lost := ls }).benched gen due gate
      else (disabledRing (cfgFields (cfgEnable s r.val v) v (ringAt s r.val))).benched gen due gate := by
  by_cases h : cfgEnable s r.val v = (ringAt s r.val).enable
  · exact ⟨0, false, false, [], [], [], by rw [ringCfgOp_same h, if_pos h, ringAt_setRing_self _ _ _ r.isLt]⟩
  · cases hon : cfgEnable s r.val v with
    | true =>
      have hen : (ringAt s r.val).enable = false := by simpa [hon] using h
      obtain ⟨gen, due, gate, hb⟩ := ringAt_writeBench
        (setRing (unissue (setRing s r.val (cfgFields true v)) [r]) r.val freshRing) r
      rw [ringAt_setRing_self _ _ _ r.isLt, ringAt_unissue _ _ r.isLt, ringAt_setRing_self _ _ _ r.isLt] at hb
      exact ⟨gen, due, gate, _, _, _, by rw [ringCfgOp_on hen hon, if_neg (by simp [hen]), if_pos rfl, hon, hb]; rfl⟩
    | false =>
      have hen : (ringAt s r.val).enable = true := by simpa [hon] using h
      obtain ⟨gen, due, gate, hb⟩ := ringAt_writeBench (setRing (setRing s r.val (cfgFields false v)) r.val disabledRing) r
      rw [ringAt_setRing_self _ _ _ r.isLt, ringAt_setRing_self _ _ _ r.isLt] at hb
      exact ⟨gen, due, gate, [], [], [], by rw [ringCfgOp_off hen hon, if_neg (by simp [hen]), if_neg (by simp), hon, hb]⟩

/-- What a write of RING_CFG leaves of another ring. -/
theorem ringAt_ringCfgOp_ne (s : State) (r : RingNo) (v : Word) {x : Nat} (hx : x ≠ r.val) : ∃ l,
    ringAt (ringCfgOp s r v) x = { ringAt s x with work := l } ∧ (recordRing x ≠ r.val → l = (ringAt s x).work) := by
  have hne (f : Ring → Ring) (t : State) : ringAt (setRing t r.val f) x = ringAt t x := ringAt_setRing_ne t r.val x f hx
  by_cases h : cfgEnable s r.val v = (ringAt s r.val).enable
  · exact ⟨_, (by rw [ringCfgOp_same h]; exact hne _ s), fun _ => rfl⟩
  · cases hon : cfgEnable s r.val v with
    | true =>
      have hen : (ringAt s r.val).enable = false := by simpa [hon] using h
      obtain ⟨l, hl, hw⟩ := ringAt_unissue_ne (setRing s r.val (cfgFields (cfgEnable s r.val v) v)) r hx
      rw [hne] at hl hw
      exact ⟨l, by rw [ringCfgOp_on hen hon, ringAt_writeBench_ne _ _ hx, hne, hl], hw⟩
    | false =>
      have hen : (ringAt s r.val).enable = true := by simpa [hon] using h
      exact ⟨_, (by rw [ringCfgOp_off hen hon, ringAt_writeBench_ne _ _ hx, hne, hne]), fun _ => rfl⟩

/-- The parts a benchmark record may change. -/
theorem writeBench_frame (s : State) (r : RingNo) : ∃ rings hif ledger sup evt sent,
    writeBench s r = { s with rings := rings, hif := hif, ledger := ledger, sup := sup, evt := evt, sent := sent } := by
  refine ⟨(writeBench s r).rings, (writeBench s r).hif, (writeBench s r).ledger, (writeBench s r).sup, (writeBench s r).evt,
    (writeBench s r).sent, ?_⟩
  apply State.eq_of_parts <;> simp

theorem ringCfgOp_frame (s : State) (r : RingNo) (v : Word) :
    let t := ringCfgOp s r v
    t = { s with rings := t.rings, hif := t.hif, ledger := t.ledger, sup := t.sup, evt := t.evt, sent := t.sent } := by
  intro t
  by_cases h : cfgEnable s r.val v = (ringAt s r.val).enable
  · simp only [t, ringCfgOp_same h]; rfl
  · cases hon : cfgEnable s r.val v with
    | true =>
      have hen : (ringAt s r.val).enable = false := by simpa [hon] using h
      simp only [t, ringCfgOp_on hen hon]
      apply State.eq_of_parts <;> simp
    | false =>
      have hen : (ringAt s r.val).enable = true := by simpa [hon] using h
      simp only [t, ringCfgOp_off hen hon]
      apply State.eq_of_parts <;> simp

theorem cfgEnable_of_on_taken {s : State} {r : Nat} {v : Word} (hv : bitOf v 31 = true) (h : enableTaken s r true = true) :
    cfgEnable s r v = true := by
  unfold cfgEnable
  rw [hv, h, if_pos rfl]
  split
  case isTrue h => simpa using h.symm
  case isFalse => rfl

theorem cfgEnable_of_off_taken {s : State} {r : Nat} {v : Word} (hv : bitOf v 31 = false) (h : enableTaken s r false = true) :
    cfgEnable s r v = false := by
  unfold cfgEnable
  rw [hv, h, if_pos rfl]
  split
  case isTrue h => simpa using h.symm
  case isFalse => rfl

theorem cfgEnable_of_not_taken {s : State} {r : Nat} {v : Word} (h : enableTaken s r (bitOf v 31) = false) :
    cfgEnable s r v = (ringAt s r).enable := by
  simp [cfgEnable, h]

/-- ENABLE after the write is what `cfgEnable` says. -/
theorem ringCfgOp_enable (s : State) (r : RingNo) (v : Word) : (ringAt (ringCfgOp s r v) r.val).enable = cfgEnable s r.val v := by
  obtain ⟨gen, due, gate, l, us, ls, h⟩ := ringAt_ringCfgOp s r v
  rw [h]
  split
  case isTrue he => exact he.symm
  case isFalse he =>
    cases hc : cfgEnable s r.val v <;> rfl

/-- LOG2_SIZE moves only on a ring that is and stays out of use, to a size of Table 02.2. -/
theorem ringCfgOp_log2 {s : State} {r : RingNo} {v : Word} (h : (ringAt (ringCfgOp s r v) r.val).log2 ≠ (ringAt s r.val).log2) :
    (ringAt s r.val).enable = false ∧ (ringAt (ringCfgOp s r v) r.val).enable = false ∧
      (ringAt (ringCfgOp s r v) r.val).log2 = BitVec.ofNat 5 (bits v 12 8) ∧ 6 ≤ bits v 12 8 ∧ bits v 12 8 ≤ 16 := by
  obtain ⟨gen, due, gate, l, us, ls, hr⟩ := ringAt_ringCfgOp s r v
  have hlog : (ringAt (ringCfgOp s r v) r.val).log2 = (cfgFields (cfgEnable s r.val v) v (ringAt s r.val)).log2 := by
    rw [hr]
    split
    · rfl
    · split <;> rfl
  rw [ringCfgOp_enable, hlog]
  rw [hlog] at h
  simp only [cfgFields, ne_eq, ite_eq_right_iff, not_forall] at h ⊢
  obtain ⟨hc, -⟩ := h
  rw [if_pos hc]
  simp only [Bool.and_eq_true, Bool.not_eq_true', decide_eq_true_eq] at hc
  obtain ⟨⟨⟨he, hen⟩, h6⟩, h16⟩ := hc
  exact ⟨he, hen, rfl, h6, h16⟩

/-- A ring that the write creates has the counters of R40. -/
theorem ringCfgOp_created {s : State} {r : RingNo} {v : Word} (h : (ringAt s r.val).enable = false) (hon : cfgEnable s r.val v = true) :
    (ringAt (ringCfgOp s r v) r.val).tail = 0 ∧ (ringAt (ringCfgOp s r v) r.val).head = 0 ∧
      (ringAt (ringCfgOp s r v) r.val).acc = 0xFFFFFFFF ∧ (ringAt (ringCfgOp s r v) r.val).cpl = 0xFFFFFFFF ∧
      (ringAt (ringCfgOp s r v) r.val).state = .active := by
  obtain ⟨gen, due, gate, l, us, ls, hr⟩ := ringAt_ringCfgOp s r v
  rw [if_neg (by simp [h, hon]), if_pos hon] at hr
  rw [hr]
  exact ⟨rfl, rfl, rfl, rfl, rfl⟩

theorem ringCfgOp_vector_base (s : State) (r : RingNo) (v : Word) :
    (ringAt (ringCfgOp s r v) r.val).vector = BitVec.ofNat 8 (bits v 23 16) ∧
      (ringAt (ringCfgOp s r v) r.val).base = (ringAt s r.val).base := by
  obtain ⟨gen, due, gate, l, us, ls, hr⟩ := ringAt_ringCfgOp s r v
  rw [hr]
  split
  · exact ⟨rfl, rfl⟩
  · split <;> exact ⟨rfl, rfl⟩

/-- R51 of one of the two rings. -/
theorem ringCfgOp_spec (s : State) (r : RingNo) (v : Word) :
    let t := ringCfgOp s r v
    (∀ x, x ≠ r.val → ringAt t x = { ringAt s x with work := (ringAt t x).work }) ∧
      (r.val = 0 → OnlyRing s t 0) ∧
      (bitOf v 31 = true → (r.val ≠ 0 ∨ (ringAt s 1).enable = true) → cfgEnable s r.val v = true) ∧
      (bitOf v 31 = true → r.val = 0 → (ringAt s 1).enable = false → cfgEnable s r.val v = (ringAt s r.val).enable) ∧
      (bitOf v 31 = false → (ringAt s 0).acc ≠ (ringAt s 0).cpl → cfgEnable s r.val v = (ringAt s r.val).enable) ∧
      (bitOf v 31 = false → r.val = 1 → (ringAt s 0).enable = true → cfgEnable s r.val v = (ringAt s r.val).enable) ∧
      (bitOf v 31 = false → (ringAt s 0).acc = (ringAt s 0).cpl → (r.val ≠ 1 ∨ (ringAt s 0).enable = false) →
        cfgEnable s r.val v = false) := by
  refine ⟨fun x hx => ?_, fun h0 x hx => ?_, fun hv h => ?_, fun hv h0 h => ?_, fun hv h => ?_, fun hv h1 h => ?_, fun hv h h1 => ?_⟩
  · obtain ⟨l, hl, -⟩ := ringAt_ringCfgOp_ne s r v hx
    rw [hl]
  · obtain ⟨l, hl, hw⟩ := ringAt_ringCfgOp_ne s r v (h0 ▸ hx)
    rw [hl, hw (h0 ▸ recordRing_ne_zero x)]
  · exact cfgEnable_of_on_taken hv (by simpa [enableTaken] using h)
  · exact cfgEnable_of_not_taken (by simp [enableTaken, hv, h0, h])
  · exact cfgEnable_of_not_taken (by simp [enableTaken, hv, h])
  · exact cfgEnable_of_not_taken (by simp [enableTaken, hv, h1, h])
  · exact cfgEnable_of_off_taken hv (by simpa [enableTaken, h] using h1)

/-! ### CREATE_RING (R52) -/

/-- A ring of the part is one of the 160. -/
theorem lt_of_ringOnPart {s : State} {n : Nat} (h : ringOnPart s n = true) : n < 160 := by
  have : s.part.channels ≤ 24 := channels_le s.part
  simp only [ringOnPart, Bool.or_eq_true, Bool.and_eq_true, decide_eq_true_eq] at h
  omega

/-- No ring creates or destroys itself. -/
theorem ne_of_mayCreate {issuer n : Nat} (h : mayCreate issuer n = true) : n ≠ issuer := by
  unfold mayCreate at h
  split at h
  · simp only [Bool.and_eq_true, decide_eq_true_eq] at h; omega
  · simp only [Bool.and_eq_true, Bool.or_eq_true, beq_iff_eq, decide_eq_true_eq] at h; omega

theorem createStatus_absent {s : State} (issuer : Nat) {d : Desc} (h : ringOnPart s (bits d.p0 7 0) = false) :
    createStatus s issuer d = some .retAbsent := if_pos (by simp [h])

theorem createStatus_denied {s : State} {issuer : Nat} {d : Desc} (hp : ringOnPart s (bits d.p0 7 0) = true)
    (h : mayCreate issuer (bits d.p0 7 0) = false) : createStatus s issuer d = some .retDenied :=
  (if_neg (by simp [hp])).trans (if_pos (by simp [h]))

theorem createStatus_param {s : State} {issuer : Nat} {d : Desc} (hp : ringOnPart s (bits d.p0 7 0) = true)
    (hm : mayCreate issuer (bits d.p0 7 0) = true) (h : d.addr.toNat % 4096 ≠ 0 ∨ bits d.p0 12 8 < 6 ∨ 16 < bits d.p0 12 8) :
    createStatus s issuer d = some .retParam :=
  (if_neg (by simp [hp])).trans ((if_neg (by simp [hm])).trans
    (if_pos (.inr (h.imp_right (fun k => k.imp_right .inl)))))

theorem createStatus_none {s : State} {issuer : Nat} {d : Desc} (h : createStatus s issuer d = none) :
    ringOnPart s (bits d.p0 7 0) = true ∧ mayCreate issuer (bits d.p0 7 0) = true ∧ d.addr.toNat % 4096 = 0 ∧
      6 ≤ bits d.p0 12 8 ∧ bits d.p0 12 8 ≤ 16 := by
  have hp : ringOnPart s (bits d.p0 7 0) = true := by
    by_contra hp
    simp [createStatus_absent issuer (by simpa using hp)] at h
  have hm : mayCreate issuer (bits d.p0 7 0) = true := by
    by_contra hm
    simp [createStatus_denied hp (by simpa using hm)] at h
  by_cases hbad : d.addr.toNat % 4096 ≠ 0 ∨ bits d.p0 12 8 < 6 ∨ 16 < bits d.p0 12 8
  · simp [createStatus_param hp hm hbad] at h
  · exact ⟨hp, hm, by omega, by omega, by omega⟩

theorem createRingOp_returned {s : State} {r : RingNo} {seq : Word} {w : Work} {st : Status} (hw : cmdWork s r.val seq 0x0100 = some w)
    (hst : createStatus s r.val w.d = some st) : createRingOp s r seq = returnWork s r.val seq st := by
  simp [createRingOp, hw, hst]

theorem createRingOp_waits {s : State} {r : RingNo} {seq : Word} {w : Work} (hw : cmdWork s r.val seq 0x0100 = some w)
    (hst : createStatus s r.val w.d = none) (h : benchReady s = false ∨ outcomesOwed (ringAt s (bits w.d.p0 7 0)) = true) :
    createRingOp s r seq = s := by
  simp only [createRingOp, hw, hst]
  exact if_pos (by simpa using h)

/-- The ring's change before its benchmark record. -/
def createdState (s : State) (d : Desc) : State :=
  forgetBlocks (setRing (unissue s [Fin.ofNat 160 (bits d.p0 7 0)]) (bits d.p0 7 0) (createdRing s d)) (bits d.p0 7 0)

theorem createRingOp_created {s : State} {r : RingNo} {seq : Word} {w : Work} (hw : cmdWork s r.val seq 0x0100 = some w)
    (hst : createStatus s r.val w.d = none) (hb : benchReady s = true) (ho : outcomesOwed (ringAt s (bits w.d.p0 7 0)) = false) :
    createRingOp s r seq =
      emitWork (writeBench (createdState s w.d) (Fin.ofNat 160 (bits w.d.p0 7 0))) r seq (Outcome.of .ok 0 0) := by
  simp only [createRingOp, hw, hst]
  exact if_neg (by simp [hb, ho])

theorem forgetBlocks_frame (s : State) (n : Nat) : ∃ ch, forgetBlocks s n = { s with chans := ch } := by
  unfold forgetBlocks
  split
  · split
    · exact ⟨_, rfl⟩
    · exact ⟨_, rfl⟩
  · exact ⟨_, rfl⟩

theorem createdState_frame (s : State) (d : Desc) : ∃ rings ch evt, createdState s d = { s with rings := rings, chans := ch, evt := evt } := by
  obtain ⟨ch, h⟩ := forgetBlocks_frame (setRing (unissue s [Fin.ofNat 160 (bits d.p0 7 0)]) (bits d.p0 7 0) (createdRing s d)) (bits d.p0 7 0)
  refine ⟨(createdState s d).rings, ch, (createdState s d).evt, ?_⟩
  rw [createdState, h]
  apply State.eq_of_parts <;> simp

theorem ringAt_createdState (s : State) (d : Desc) {n : Nat} (hn : n = bits d.p0 7 0) (h : n < 160) :
    ∃ us ls l, ringAt (createdState s d) n = createdRing s d { ringAt s n with unacked := us, lost := ls, work := l } := by
  subst hn
  have hrings : ringAt (createdState s d) (bits d.p0 7 0) =
      ringAt (setRing (unissue s [Fin.ofNat 160 (bits d.p0 7 0)]) (bits d.p0 7 0) (createdRing s d)) (bits d.p0 7 0) := by
    simp only [ringAt, createdState, forgetBlocks_rings]
  rw [hrings, ringAt_setRing_self _ _ _ h, ringAt_unissue _ _ h]
  exact ⟨_, _, _, rfl⟩

/-- What CREATE_RING leaves when it executes (R40, R52). -/
theorem createRingOp_spec {s : State} {r : RingNo} {seq : Word} {w : Work} (hw : cmdWork s r.val seq 0x0100 = some w)
    (hst : createStatus s r.val w.d = none) (hb : benchReady s = true) (ho : outcomesOwed (ringAt s (bits w.d.p0 7 0)) = false) :
    let t := createRingOp s r seq
    let g := ringAt t (bits w.d.p0 7 0)
    g.enable = true ∧ g.tail = 0 ∧ g.head = 0 ∧ g.acc = 0xFFFFFFFF ∧ g.cpl = 0xFFFFFFFF ∧ g.base.toNat * 4096 = w.d.addr.toNat ∧
      g.log2.toNat = bits w.d.p0 12 8 ∧ t.journal = s.journal ++ [{ ring := r, seq := seq, out := Outcome.of .ok 0 0 }] ∧
      t = { s with rings := t.rings, chans := t.chans, journal := t.journal, hif := t.hif, ledger := t.ledger, sup := t.sup,
                   evt := t.evt, sent := t.sent } := by
  obtain ⟨-, -, -, -, -, hroom, -⟩ := cmdWork_eq_some hw
  obtain ⟨hp, hm, haddr, h6, h16⟩ := createStatus_none hst
  have hn := lt_of_ringOnPart hp
  have hne := ne_of_mayCreate hm
  have hop := createRingOp_created hw hst hb ho
  have hval : (Fin.ofNat 160 (bits w.d.p0 7 0)).val = bits w.d.p0 7 0 := Nat.mod_eq_of_lt hn
  obtain ⟨rings, ch, evt, hframe⟩ := createdState_frame s w.d
  obtain ⟨us, ls, l, hring⟩ := ringAt_createdState s w.d rfl hn
  obtain ⟨gen, due, gate, hbench⟩ := ringAt_writeBench (createdState s w.d) (Fin.ofNat 160 (bits w.d.p0 7 0))
  have hg : ringAt (createRingOp s r seq) (bits w.d.p0 7 0) =
      (createdRing s w.d { ringAt s (bits w.d.p0 7 0) with unacked := us, lost := ls, work := l }).benched gen due gate := by
    rw [hop, ringAt_emitWork_ne _ _ _ _ hne, ← hring]
    rw [hval] at hbench
    exact hbench
  have hspace : journalSpace (writeBench (createdState s w.d) (Fin.ofNat 160 (bits w.d.p0 7 0))) = true := by
    rw [journalSpace_congr (s := s), journalSpace_of_room hroom] <;> simp [hframe]
  intro t g
  have hgt : g = (createdRing s w.d { ringAt s (bits w.d.p0 7 0) with unacked := us, lost := ls, work := l }).benched gen due gate := hg
  refine ⟨by rw [hgt]; rfl, by rw [hgt]; rfl, by rw [hgt]; rfl, by rw [hgt]; rfl, by rw [hgt]; rfl, ?_, ?_, ?_, ?_⟩
  · have : (ringAt t (bits w.d.p0 7 0)).base = BitVec.ofNat 52 (w.d.addr.toNat / 4096) := by rw [show ringAt t _ = _ from hg]; rfl
    have hlt := w.d.addr.isLt
    rw [this, BitVec.toNat_ofNat]
    omega
  · have : (ringAt t (bits w.d.p0 7 0)).log2 = BitVec.ofNat 5 (bits w.d.p0 12 8) := by rw [show ringAt t _ = _ from hg]; rfl
    rw [this, BitVec.toNat_ofNat]
    omega
  · simp only [t, hop]
    rw [emitWork_journal hspace, writeBench_journal, hframe]
  · simp only [t, hop]
    apply State.eq_of_parts <;> simp [hframe]

/-! ### DESTROY_RING (R53) -/

theorem destroyStatus_absent {s : State} (issuer : Nat) {d : Desc} (h : ringOnPart s (bits d.p0 7 0) = false) :
    destroyStatus s issuer d = some .retAbsent := if_pos (by simp [h])

theorem destroyStatus_denied {s : State} {issuer : Nat} {d : Desc} (hp : ringOnPart s (bits d.p0 7 0) = true)
    (h : mayCreate issuer (bits d.p0 7 0) = false) : destroyStatus s issuer d = some .retDenied :=
  (if_neg (by simp [hp])).trans (if_pos (by simp [h]))

theorem destroyStatus_busy {s : State} {issuer : Nat} {d : Desc} (hp : ringOnPart s (bits d.p0 7 0) = true)
    (hm : mayCreate issuer (bits d.p0 7 0) = true) (h : (ringAt s (bits d.p0 7 0)).enable = false) :
    destroyStatus s issuer d = some .retBusy :=
  (if_neg (by simp [hp])).trans ((if_neg (by simp [hm])).trans (if_pos (by simp [h])))

theorem destroyStatus_none {s : State} {issuer : Nat} {d : Desc} (h : destroyStatus s issuer d = none) :
    ringOnPart s (bits d.p0 7 0) = true ∧ mayCreate issuer (bits d.p0 7 0) = true := by
  have hp : ringOnPart s (bits d.p0 7 0) = true := by
    by_contra hp
    simp [destroyStatus_absent issuer (by simpa using hp)] at h
  refine ⟨hp, ?_⟩
  by_contra hm
  simp [destroyStatus_denied hp (by simpa using hm)] at h

theorem destroyRingOp_returned {s : State} {r : RingNo} {seq : Word} {w : Work} {st : Status} (hw : cmdWork s r.val seq 0x0101 = some w)
    (hst : destroyStatus s r.val w.d = some st) : destroyRingOp s r seq = returnWork s r.val seq st := by
  simp [destroyRingOp, hw, hst]

theorem destroyRingOp_waits {s : State} {r : RingNo} {seq : Word} {w : Work} (hw : cmdWork s r.val seq 0x0101 = some w)
    (hst : destroyStatus s r.val w.d = none) (h : benchReady s = false) : destroyRingOp s r seq = s := by
  simp only [destroyRingOp, hw, hst]
  exact if_pos (by simpa using h)

/-- What the blocks give up of a ring that is destroyed. -/
def givenUp (s : State) (n : Nat) : State :=
  dropBlocks (dropSent (dropRadio (returnOpen s n .retDestroyed) n) (unsentOfRing s n)) n

theorem destroyRingOp_destroyed {s : State} {r : RingNo} {seq : Word} {w : Work} (hw : cmdWork s r.val seq 0x0101 = some w)
    (hst : destroyStatus s r.val w.d = none) (hb : benchReady s = true) :
    destroyRingOp s r seq = emitWork (writeBench (setRing (givenUp s (bits w.d.p0 7 0)) (bits w.d.p0 7 0) disabledRing)
      (Fin.ofNat 160 (bits w.d.p0 7 0))) r seq (Outcome.of .ok 0 0) := by
  simp only [destroyRingOp, hw, hst]
  exact if_neg (by simp [hb])

theorem returnOpen_frame (s : State) (n : Nat) (st : Status) : ∃ rings, returnOpen s n st = { s with rings := rings } := by
  refine ⟨(returnOpen s n st).rings, ?_⟩
  have hkeep (x : State) (l : List Work) : l.foldl (fun t w => returnWork t n w.seq st) x =
      { x with rings := (l.foldl (fun t w => returnWork t n w.seq st) x).rings } := by
    induction l generalizing x with
    | nil => rfl
    | cons w l ih =>
      rw [List.foldl_cons, ih]
      apply State.eq_of_parts <;> simp
  exact hkeep s _

theorem dropRadio_frame (s : State) (n : Nat) : ∃ rad, dropRadio s n = { s with rad := rad } := by
  unfold dropRadio
  split
  · split
    · exact ⟨_, rfl⟩
    · exact ⟨_, rfl⟩
  · exact ⟨_, rfl⟩

/-- What the blocks give up of a ring changes no ring beyond the returns. -/
theorem givenUp_frame (s : State) (n : Nat) : ∃ ch up rad sec, givenUp s n =
    { s with rings := (returnOpen s n .retDestroyed).rings, chans := ch, upl := { s.upl with tcont := up }, rad := rad, sec := sec } := by
  obtain ⟨rings, hr⟩ := returnOpen_frame s n .retDestroyed
  obtain ⟨rad, hrad⟩ := dropRadio_frame (returnOpen s n .retDestroyed) n
  unfold givenUp
  rw [hrad, hr]
  exact ⟨_, _, _, _, rfl⟩

theorem findWork_returnWith_ne (s : State) (n : Nat) {q q' : Word} (o : Outcome) (h : q ≠ q') :
    findWork (ringAt (returnWith s n q' o) n) q = findWork (ringAt s n) q := by
  unfold returnWith
  split
  · rfl
  · rw [findWork_setWork _ _ _ _ _ _ (fun w => by split <;> rfl), if_neg (by simp [h])]

/-- A return that stands keeps standing. -/
theorem returnedWith_stands (s : State) (n : Nat) {q q' : Word} {o o' : Outcome} (h : returnedWith s n q = some o) :
    returnedWith (returnWith s n q' o') n q = some o := by
  unfold returnWith
  split
  · exact h
  · unfold returnedWith at h ⊢
    by_cases hq : q = q'
    · subst hq
      cases hf : findWork (ringAt s n) q with
      | none => simp [hf] at h
      | some w =>
        simp only [hf] at h
        rw [findWork_setWork_self _ (fun w => by split <;> rfl) hf]
        simp only [h]
    · rw [findWork_setWork _ _ _ _ _ _ (fun w => by split <;> rfl), if_neg (by simp [hq])]
      exact h

/-- Every open work among those returned is returned so. -/
theorem returnedWith_foldl (n : Nat) (o : Outcome) (l : List Work) : ∀ (s : State) (q : Word) (x : Work),
    workOpen s n q = some x → (∃ w ∈ l, w.seq = q) → returnedWith (l.foldl (fun t w => returnWith t n w.seq o) s) n q = some o := by
  have hstands (l : List Work) : ∀ (s : State) (q : Word), returnedWith s n q = some o →
      returnedWith (l.foldl (fun t w => returnWith t n w.seq o) s) n q = some o := by
    induction l with
    | nil => exact fun s q h => h
    | cons w l ih => exact fun s q h => ih _ q (returnedWith_stands s n h)
  induction l with
  | nil => rintro s q x - ⟨w, hw, -⟩; simp at hw
  | cons w l ih =>
    intro s q x hx hmem
    obtain ⟨hf, hret, hj⟩ := workOpen_eq_some.1 hx
    by_cases hq : w.seq = q
    · subst hq
      exact hstands l _ _ (returnedWith_returnWith hf hret hj)
    · refine ih _ q x ?_ ?_
      · refine workOpen_eq_some.2 ⟨(findWork_returnWith_ne s n o (Ne.symm hq)).trans hf, hret, ?_⟩
        simpa only [journalOf, returnWith_journal] using hj
      · obtain ⟨w', hw', hq'⟩ := hmem
        rcases List.mem_cons.1 hw' with rfl | hl
        · exact absurd hq' hq
        · exact ⟨w', hl, hq'⟩

/-- Open work of a ring whose open work is returned is returned. -/
theorem returnedWith_returnOpen {s : State} {n : Nat} {q : Word} {x : Work} (st : Status) (h : workOpen s n q = some x) :
    returnedWith (returnOpen s n st) n q = some (Outcome.of st 0 0) := by
  obtain ⟨hf, -, -⟩ := workOpen_eq_some.1 h
  exact returnedWith_foldl n (Outcome.of st 0 0) _ s q x h ⟨x, List.mem_of_find?_eq_some hf, seq_of_findWork hf⟩

/-- What DESTROY_RING leaves when it executes (R53). -/
theorem destroyRingOp_spec {s : State} {r : RingNo} {seq : Word} {w : Work} (hw : cmdWork s r.val seq 0x0101 = some w)
    (hst : destroyStatus s r.val w.d = none) (hb : benchReady s = true) :
    let t := destroyRingOp s r seq
    (ringAt t (bits w.d.p0 7 0)).enable = false ∧ (ringAt t (bits w.d.p0 7 0)).state = .disabled ∧
      (∀ q x, workOpen s (bits w.d.p0 7 0) q = some x →
        returnedWith t (bits w.d.p0 7 0) q = some (Outcome.of .retDestroyed 0 0)) ∧
      t.journal = s.journal ++ [{ ring := r, seq := seq, out := Outcome.of .ok 0 0 }] ∧
      t = { s with rings := t.rings, journal := t.journal, chans := t.chans, upl := t.upl, rad := t.rad, sec := t.sec, hif := t.hif,
                   ledger := t.ledger, sup := t.sup, evt := t.evt, sent := t.sent } := by
  obtain ⟨-, -, -, -, -, hroom, -⟩ := cmdWork_eq_some hw
  obtain ⟨hp, hm⟩ := destroyStatus_none hst
  have hn := lt_of_ringOnPart hp
  have hop := destroyRingOp_destroyed hw hst hb
  have hval : (Fin.ofNat 160 (bits w.d.p0 7 0)).val = bits w.d.p0 7 0 := Nat.mod_eq_of_lt hn
  obtain ⟨ch, up, rad, sec, hframe⟩ := givenUp_frame s (bits w.d.p0 7 0)
  obtain ⟨gen, due, gate, hbench⟩ := ringAt_writeBench
    (setRing (givenUp s (bits w.d.p0 7 0)) (bits w.d.p0 7 0) disabledRing) (Fin.ofNat 160 (bits w.d.p0 7 0))
  have hg : ringAt (destroyRingOp s r seq) (bits w.d.p0 7 0) =
      (disabledRing (ringAt (returnOpen s (bits w.d.p0 7 0) .retDestroyed) (bits w.d.p0 7 0))).benched gen due gate := by
    rw [hval, ringAt_setRing_self _ _ _ hn] at hbench
    rw [hop, ringAt_emitWork_ne _ _ _ _ (ne_of_mayCreate hm), hbench, hframe]
    rfl
  have hspace : journalSpace (writeBench (setRing (givenUp s (bits w.d.p0 7 0)) (bits w.d.p0 7 0) disabledRing)
      (Fin.ofNat 160 (bits w.d.p0 7 0))) = true := by
    rw [journalSpace_congr (s := s), journalSpace_of_room hroom] <;> simp [hframe]
  intro t
  refine ⟨by rw [show ringAt t _ = _ from hg]; rfl, by rw [show ringAt t _ = _ from hg]; rfl, fun q x hx => ?_, ?_, ?_⟩
  · have hret := returnedWith_returnOpen .retDestroyed hx
    unfold returnedWith at hret ⊢
    rw [show ringAt t _ = _ from hg]
    exact hret
  · simp only [t, hop]
    rw [emitWork_journal hspace, writeBench_journal, setRing_journal, hframe]
  · simp only [t, hop]
    apply State.eq_of_parts <;> simp [hframe]

/-- Settles O5: RING_CFG of the two rings, then each status of the two commands and what each of them does when it executes. -/
theorem ringsCreatedAndDestroyed : Obligations.RingsCreatedAndDestroyed := by
  unfold Obligations.RingsCreatedAndDestroyed
  refine ⟨fun s who r v hreach => ?_, fun s r seq w hw => ?_, fun s r seq w hw => ?_⟩
  · obtain ⟨x, hx, hval⟩ : ∃ x : RingNo, Fin.ofNat 160 r.val = x ∧ x.val = r.val := ⟨_, rfl, Nat.mod_eq_of_lt (by omega)⟩
    have h0 : r = 0 ↔ x.val = 0 := by rw [hval]; exact Fin.ext_iff
    have h1 : r = 1 ↔ x.val = 1 := by rw [hval]; exact Fin.ext_iff
    have hlt : x.val < 2 := hval ▸ r.isLt
    obtain ⟨hne, hone, hon, hon0, hoff, hoff1, hoffed⟩ := ringCfgOp_spec s x v
    obtain ⟨hvec, hbase⟩ := ringCfgOp_vector_base s x v
    have hen := ringCfgOp_enable s x v
    rw [← hval]
    refine ⟨ringCfgOp s x v, by simp only [exec, execRingCfgWrite, hreach, hx, if_true], hne, fun h => hone (h0.1 h), ringCfgOp_frame s x v,
      hvec, hbase, ?_, ?_, ?_, ?_, ?_, ?_, ringCfgOp_log2⟩
    · intro hv h h1e
      have := hon0 hv (h0.1 h) h1e
      rw [h0.1 h] at hen this
      rw [hen, this]
    · exact fun hv h => hen.trans (hon hv (h.imp_left (fun k => by have := h1.1 k; omega)))
    · exact fun hv h he => ringCfgOp_created he (hon hv (h.imp_left (fun k => by have := h1.1 k; omega)))
    · exact fun hv h => hen.trans (hoff hv h)
    · intro hv h he
      have := hoff1 hv (h1.1 h) he
      rw [h1.1 h] at hen this
      rw [hen, this]
    · exact fun hv h h' => hen.trans (hoffed hv h (h'.imp_left (fun k => by have := h0.1 k; omega)))
  · obtain ⟨hopen, -⟩ := cmdWork_eq_some hw
    have hreturned {st : Status} (hst : createStatus s r.val w.d = some st) :
        returnedWith (createRingOp s r seq) r.val seq = some (Outcome.of st 0 0) := by
      rw [createRingOp_returned hw hst]
      exact returnedWith_of_workOpen hopen st
    refine ⟨createRingOp s r seq, rfl, fun h => hreturned (createStatus_absent _ h), fun hp h => hreturned (createStatus_denied hp h),
      fun hp hm h => hreturned (createStatus_param hp hm h), fun h => ?_, createRingOp_waits hw, createRingOp_spec hw⟩
    obtain ⟨st, hst⟩ := Option.ne_none_iff_exists'.1 h
    rw [createRingOp_returned hw hst]
    refine ⟨?_, returnWork_onlyRing _ _ _ _⟩
    apply State.eq_of_parts <;> simp
  · obtain ⟨hopen, -⟩ := cmdWork_eq_some hw
    have hreturned {st : Status} (hst : destroyStatus s r.val w.d = some st) :
        returnedWith (destroyRingOp s r seq) r.val seq = some (Outcome.of st 0 0) := by
      rw [destroyRingOp_returned hw hst]
      exact returnedWith_of_workOpen hopen st
    exact ⟨destroyRingOp s r seq, rfl, fun h => hreturned (destroyStatus_absent _ h), fun hp h => hreturned (destroyStatus_denied hp h),
      fun hp hm h => hreturned (destroyStatus_busy hp hm h), destroyRingOp_waits hw, destroyRingOp_spec hw⟩

end Sys2Proof.Machine

/-! # The acknowledged record a restart waits for

R340's restart follows the acknowledgement of the record it waits for, and begins a recovery: an acknowledgement is not always a change of the rings and the journal alone. -/

namespace Sys2Proof.Machine

open Sys2Proof

theorem ringAt_congr {s t : State} (h : t.rings = s.rings) (x : Nat) : ringAt t x = ringAt s x := by simp only [ringAt, h]

/-! ### Acknowledgement (R66 to R68) -/

/-- A ring whose work q is acknowledged. -/
def ackedRing (executed : Bool) (q : Word) (g : Ring) : Ring :=
  { g with
    cpl := q
    work := g.work.filter (fun w => w.seq != q)
    emitted := if executed then g.emitted + 1 else g.emitted
    bmDue := true }

theorem ackWork_rings_eq (s : State) (r : Nat) (q : Word) : ∃ e, (ackWork s r q).rings = (setRing s r (ackedRing e q)).rings :=
  ⟨_, rfl⟩

/-- The work and its journal entry are gone, and C has passed it. -/
theorem ackWork_spec (s : State) {r : Nat} (hr : r < 160) (q : Word) :
    (ringAt (ackWork s r q) r).cpl = q ∧ findWork (ringAt (ackWork s r q) r) q = none ∧ journalOf (ackWork s r q) r q = none ∧
      (ringAt (ackWork s r q) r).unacked = (ringAt s r).unacked ∧ OnlyRing s (ackWork s r q) r := by
  obtain ⟨e, he⟩ := ackWork_rings_eq s r q
  have hself : ringAt (ackWork s r q) r = ackedRing e q (ringAt s r) := (ringAt_congr he r).trans (ringAt_setRing_self s r _ hr)
  refine ⟨by rw [hself]; rfl, ?_, ?_, by rw [hself]; rfl, (setRing_onlyRing s r _).trans (onlyRing_of_rings r he)⟩
  · rw [hself]
    simp [findWork, ackedRing, List.find?_eq_none]
  · simp only [journalOf, ackWork, List.find?_eq_none, List.mem_filter]
    intro j hj
    simpa [imp_iff_not_or] using hj.2

/-- The acknowledgement of the record of a piece of work, with no entry under way. -/
theorem recordAckOp_work {s : State} {q r : RingNo} {seq : Word} {rest : List Issued} {x : Issued}
    (hu : (ringAt s q.val).unacked = x :: rest) (hx : x.src = .work r seq) (he : s.pwr.entryReq = none) :
    recordAckOp s q.val =
      if r.val = q.val then ackWork (setRing s q.val (fun g => { g with unacked := rest })) r.val seq
      else setRing (ackWork (setRing s q.val (fun g => { g with unacked := rest })) r.val seq) q.val (fun g => ackSlot g x.slot) := by
  have hpwr (u : State) : (ackWork u r.val seq).pwr = u.pwr := rfl
  by_cases h : r.val = q.val
  · simp only [recordAckOp, hu, hx, if_pos h, hpwr, setRing_pwr, he]
  · simp only [recordAckOp, hu, hx, if_neg h, hpwr, setRing_pwr, he]

/-! ### The restart that follows -/

/-- A firmware restart begins a recovery. -/
theorem fwRestart_recov_ne (s : State) : (fwRestart s).recov ≠ [] := by simp [fwRestart, startRecovery]

/-- The record of the work of sequence number 0 on ring 0, issued on ring 1. -/
def restartRecord : Issued := { src := .work 0 0, slot := 0, bytes := [], irq := false }

/-- FW_ACTIVATE of sequence number 0, executed, with its record issued. -/
def restartWork : Work :=
  { seq := 0, d := { seq := 0, opcode := 0x0131, flags := 0, addr := 0, len := 0, p0 := 0, p1 := 0, cookie := 0 }, at_ := 0
    stage := .sent, ret := none, recov := false, refetch := false, issued := true, reserve := false }

/-- The restart waits for that record (R340). -/
def restartWaiting : State :=
  setRing (setRing { State.reset with fw := { State.reset.fw with restartAt := [0] } } 0 (fun g => { g with work := [restartWork] }))
    1 (fun g => { g with unacked := [restartRecord] })

theorem restartWaiting_unacked : (ringAt restartWaiting 1).unacked = [restartRecord] := by
  rw [restartWaiting, ringAt_setRing_self _ _ _ (by decide)]

theorem restartWaiting_work : (ringAt restartWaiting 0).work = [restartWork] := by
  rw [restartWaiting, ringAt_setRing_ne _ _ _ _ (by decide), ringAt_setRing_self _ _ _ (by decide)]

theorem recordAckOp_restartWaiting : recordAckOp restartWaiting 1 =
    setRing (ackWork (setRing restartWaiting 1 (fun g => { g with unacked := [] })) 0 0) 1 (fun g => ackSlot g restartRecord.slot) := by
  have hop := recordAckOp_work (q := 1) (r := 0) restartWaiting_unacked rfl rfl
  rwa [if_neg (by decide)] at hop

/-- The acknowledgement takes the work off ring 0. -/
theorem findWork_recordAckOp_restartWaiting : findWork (ringAt (recordAckOp restartWaiting 1) 0) 0 = none := by
  obtain ⟨-, hfind, -⟩ := ackWork_spec (setRing restartWaiting 1 (fun g => { g with unacked := [] })) (r := 0) (by decide) 0
  rw [recordAckOp_restartWaiting, ringAt_setRing_ne _ _ _ _ (by decide)]
  exact hfind

/-- The acknowledgement of that record is followed by the restart. -/
theorem recordAckedOp_restartWaiting : (recordAckedOp restartWaiting 1).recov ≠ [] := by
  have hat : (recordAckOp restartWaiting 1).fw.restartAt = [0] := by
    rw [recordAckOp_restartWaiting]; rfl
  have hdue : ((findWork (ringAt restartWaiting 0) 0).isSome && (findWork (ringAt (recordAckOp restartWaiting 1) 0) 0).isNone) = true := by
    rw [findWork_recordAckOp_restartWaiting, findWork, restartWaiting_work]; rfl
  simp only [recordAckedOp, hat, List.any_cons, hdue, Bool.true_or, if_true]
  exact fwRestart_recov_ne _

/-- Refutes O6: the clause on acknowledgements says that only rings and the journal move, but where a firmware restart waits for the
record, its acknowledgement is followed by the restart and its recovery (R340). -/
theorem not_recordsWrittenAcknowledgedAndSignalled : ¬ Obligations.RecordsWrittenAcknowledgedAndSignalled := by
  unfold Obligations.RecordsWrittenAcknowledgedAndSignalled
  rintro ⟨-, hack, -⟩
  obtain ⟨t, ht, hframe, -⟩ := hack restartWaiting 1 0 0 [] restartRecord restartWaiting_unacked rfl rfl
  have hrec : t.recov = [] := by rw [hframe]; rfl
  exact recordAckedOp_restartWaiting (Host.Outcome.next.inj ht ▸ hrec)

end Sys2Proof.Machine

/-! # Transmit frames

A frame's checks, its buffer read and its place in a queue; a failed read gives up the place its lost copy kept. -/

namespace Sys2Proof.Machine

open Sys2Proof

/-! ### Returns -/

/-- A return changes the rings alone. -/
theorem returnWith_frame (s : State) (r : Nat) (q : Word) (o : Outcome) :
    returnWith s r q o = { s with rings := (returnWith s r q o).rings } := by
  apply State.eq_of_parts <;> simp

/-- What a return reads of a state: the rings. -/
theorem returnedWith_congr {s t : State} (h : t.rings = s.rings) (r : Nat) (q : Word) : returnedWith t r q = returnedWith s r q := by
  simp only [returnedWith, ringAt_congr h]

theorem atStage_congr {s t : State} (h : t.rings = s.rings) {r : Nat} {q : Word} {st : Stage} (hs : atStage s r q st) : atStage t r q st := by
  obtain ⟨w, hw, hst⟩ := hs
  exact ⟨w, by rw [ringAt_congr h]; exact hw, hst⟩

/-- A return of work changes no more of its ring than the work. -/
theorem ringAt_returnWith (s : State) (r : Nat) (q : Word) (o : Outcome) : ∃ l, ringAt (returnWith s r q o) r = { ringAt s r with work := l } := by
  unfold returnWith
  split
  · exact ⟨_, rfl⟩
  · by_cases hr : r < 160
    · exact ⟨_, ringAt_setRing_self _ _ _ hr⟩
    · rw [setWork, setRing_past _ _ _ hr]
      exact ⟨_, rfl⟩

/-- The work of an opcode that stands at a stage on a ring outside recovery. -/
theorem workAt_eq_some {s : State} {r : Nat} {q : Word} {op : Nat} {st : Stage} {w : Work} (h : workAt s r q op st = some w) :
    workOpen s r q = some w ∧ w.d.opcode.toNat = op ∧ w.stage = st ∧ (ringAt s r).state ≠ .recovering := by
  unfold workAt at h
  cases hw : workOpen s r q with
  | none => simp [hw] at h
  | some w' =>
    simp only [hw] at h
    split at h
    case isFalse => simp at h
    case isTrue hc => cases h; exact ⟨rfl, hc⟩

/-- The place of a lost copy given up says nothing of the rings. -/
theorem returnLost_rings (s : State) (r : RingNo) (q : Word) (st : Status) : (returnLost s r q st).rings = (returnWork s r.val q st).rings :=
  dropQueued_rings _ _

theorem returnLost_onlyRing (s : State) (r : RingNo) (q : Word) (st : Status) : OnlyRing s (returnLost s r q st) r.val :=
  (returnWork_onlyRing s r.val q st).trans (onlyRing_of_rings _ (returnLost_rings s r q st))

/-! ### The checks of a TX_FRAME -/

theorem txStatus_of_closed {s : State} {r : Nat} (d : Desc) (h : pathOpen s r = false) : txStatus s r d = some .retNoPath :=
  if_pos (by simp [h])

theorem txStatus_of_length {s : State} {r : Nat} {d : Desc} (hp : pathOpen s r = true) (hc : ringChan r = none)
    (h : d.len.toNat < 14 ∨ 9212 < d.len.toNat) : txStatus s r d = some .retLength := by
  have h' : d.len.toNat < 14 ∨ 9212 < d.len.toNat ∨ txLimit s r < taggedLen d + 4 := h.imp_right .inl
  simp only [txStatus, hp, hc, Bool.not_true, Bool.false_eq_true, if_false, if_pos h']

theorem txStatus_of_port {s : State} {r : Nat} {d : Desc} (hp : pathOpen s r = true) (hc : ringChan r = none) (h14 : 14 ≤ d.len.toNat)
    (h92 : d.len.toNat ≤ 9200) (h : portActive s (bits d.p1 15 0) = false) : txStatus s r d = some .retParam := by
  have htag : taggedLen d ≤ d.len.toNat + 4 := by unfold taggedLen; split <;> omega
  have hlim : txLimit s r = 9216 := by simp only [txLimit, hc]
  have hlen : ¬ (d.len.toNat < 14 ∨ 9212 < d.len.toNat ∨ txLimit s r < taggedLen d + 4) := by omega
  simp [txStatus, hp, hc, hlen, h]

theorem txFrameOp_returned {s : State} {r : Nat} {q : Word} {w : Work} {st : Status} (hw : workAt s r q 0x0001 .accepted = some w)
    (hst : txStatus s r w.d = some st) : txFrameOp s r q = returnWork s r q st := by simp [txFrameOp, hw, hst]

theorem txFrameOp_waits {s : State} {r : Nat} {q : Word} {w : Work} (hw : workAt s r q 0x0001 .accepted = some w)
    (hst : txStatus s r w.d = none) : txFrameOp s r q = setWork s r q (fun w => { w with stage := .wantRead }) := by
  simp [txFrameOp, hw, hst]

/-! ### The buffer read -/

section
variable {s : State} {r : RingNo} {seq : Word} {w : Work} (hw : workAt s r.val seq 0x0001 .wantRead = some w)
  (ht : readTurn s r.val seq = true) (hm : mayMaster s (ringOwner s r.val) = true)
include hw ht hm

theorem txReadOp_outside (hwin : inWindows s (ringOwner s r.val) false w.d.addr.toNat w.d.len.toNat = false) :
    txReadOp s r seq = returnLost (ringWindowFault s r.val w.d.addr.toNat) r seq .retWindow := by
  simp [txReadOp, hw, ht, hm, hwin]

theorem txReadOp_waits (hwin : inWindows s (ringOwner s r.val) false w.d.addr.toNat w.d.len.toNat = true)
    (hp : placeFor s r.val (txLen w.d) = none) : txReadOp s r seq = s := by
  simp [txReadOp, hw, ht, hm, hwin, hp]

theorem txReadOp_reads {res : Bool} (hwin : inWindows s (ringOwner s r.val) false w.d.addr.toNat w.d.len.toNat = true)
    (hp : placeFor s r.val (txLen w.d) = some res) : txReadOp s r seq =
      sendRead (setWork s r.val seq (fun w => { w with stage := .reading, reserve := res })) (ringOwner s r.val) w.d.addr.toNat w.d.len.toNat := by
  simp [txReadOp, hw, ht, hm, hwin, hp]

end

/-- Work returned after its ring was marked is returned so. -/
theorem returnedWith_returnLost {s t : State} {r : RingNo} {q : Word} {w : Work} (st : Status) (hopen : workOpen s r.val q = some w)
    (hwork : (ringAt t r.val).work = (ringAt s r.val).work) (hj : t.journal = s.journal) :
    returnedWith (returnLost t r q st) r.val q = some (Outcome.of st 0 0) := by
  obtain ⟨hf, hret, hjn⟩ := workOpen_eq_some.1 hopen
  rw [returnedWith_congr (returnLost_rings t r q st)]
  refine returnedWith_returnWork (w := w) ?_ hret ?_
  · rw [findWork, hwork]; exact hf
  · rw [journalOf, hj]; exact hjn

/-! ### The end of the buffer read -/

/-- The parts that the end of a read leaves. -/
theorem returnLost_keeps (s : State) (r : RingNo) (q : Word) (st : Status) :
    (returnLost s r q st).journal = s.journal ∧ (returnLost s r q st).ledger = s.ledger ∧ (returnLost s r q st).datum = s.datum ∧
      (returnLost s r q st).pwr = s.pwr := by
  refine ⟨?_, ?_, ?_, ?_⟩ <;> simp [returnLost, dropQueued]

/-- DMA_ERR and the latched fault of a failed transfer of ring r. -/
def dmaMarked (s : State) (r : RingNo) (res : XferResult) (addr : Nat) : State :=
  latchFault (setRing s r.val (fun g => { g with dmaErr := true })) (xferKind res) r.val (ringOwner s r.val) addr

theorem ringAt_dmaMarked (s : State) (r : RingNo) (res : XferResult) (addr : Nat) :
    ringAt (dmaMarked s r res addr) r.val = { ringAt s r.val with dmaErr := true } := by
  rw [dmaMarked, ringAt_latchFault, ringAt_setRing_self _ _ _ r.isLt]

theorem dmaMarked_onlyRing (s : State) (r : RingNo) (res : XferResult) (addr : Nat) : OnlyRing s (dmaMarked s r res addr) r.val :=
  (setRing_onlyRing _ _ _).trans (onlyRing_of_rings _ (latchFault_rings _ _ _ _ _))

/-- A queue of a channel after a frame has joined it. -/
theorem chanAt_enqueue (s : State) {c i : Nat} (hc : c < 24) (hi : i < 16) (f : Frame) :
    vget (chanAt (enqueue s c i f) c).qs.q i [] = vget (chanAt s c).qs.q i [] ++ [{ f with id := s.xc.nextId, entered := s.datum }] := by
  unfold enqueue setQs
  rw [chanAt_setChan_self _ _ _ hc]
  exact vget_vset_self _ _ _ _ hi

theorem ringChan_lt {r c : Nat} (hr : r < 160) (h : ringChan r = some c) : c < 24 := by
  unfold ringChan at h
  split at h
  · simp at h
  · simp only [Option.some.injEq] at h; omega

theorem storeTx_chan {s : State} {r : RingNo} {w : Work} {b : List Byte} {c : Nat} (h : hasPlace s r w.seq = false)
    (hc : ringChan r.val = some c) :
    storeTx s r w b = enqueue (setWork s r.val w.seq (fun w => { w with stage := .queued })) c (bits w.d.p0 2 0)
      { mkFrame (.work r w.seq) .line b (bits w.d.p0 2 0) 0 0 false 0 with inReserve := w.reserve } := by
  have h' : hasPlace (setWork s r.val w.seq (fun w => { w with stage := .queued })) r w.seq = false := h
  simp only [storeTx, h', Bool.false_eq_true, if_false, hc]

/-- Settles O7: the checks in their order, the read in its turn, and its end. -/
theorem transmitWorkFollowed : Obligations.TransmitWorkFollowed := by
  unfold Obligations.TransmitWorkFollowed
  refine ⟨?_, ?_, ?_⟩
  · intro s r seq w hw
    obtain ⟨hopen, -⟩ := workAt_eq_some hw
    obtain ⟨hf, -⟩ := workOpen_eq_some.1 hopen
    have hreturned {st : Status} (hst : txStatus s r.val w.d = some st) :
        returnedWith (txFrameOp s r.val seq) r.val seq = some (Outcome.of st 0 0) := by
      rw [txFrameOp_returned hw hst]
      exact returnedWith_of_workOpen hopen st
    refine ⟨txFrameOp s r.val seq, rfl, ?_, ?_, fun h => hreturned (txStatus_of_closed _ h),
      fun hp hc h => hreturned (txStatus_of_length hp hc h), fun hp hc h14 h92 h => hreturned (txStatus_of_port hp hc h14 h92 h), fun h => ?_⟩
    · cases hst : txStatus s r.val w.d with
      | some st => rw [txFrameOp_returned hw hst]; exact returnWork_onlyRing _ _ _ _
      | none => rw [txFrameOp_waits hw hst]; exact setWork_onlyRing _ _ _ _
    · cases hst : txStatus s r.val w.d with
      | some st => rw [txFrameOp_returned hw hst]; exact returnWith_frame _ _ _ _
      | none => rw [txFrameOp_waits hw hst]; rfl
    · rw [txFrameOp_waits hw h]
      exact atStage_setWork _ (fun _ => rfl) hf rfl
  · intro s r seq w hw ht hm
    obtain ⟨hopen, -⟩ := workAt_eq_some hw
    obtain ⟨hf, -⟩ := workOpen_eq_some.1 hopen
    refine ⟨txReadOp s r seq, rfl, ?_⟩
    cases hwin : inWindows s (ringOwner s r.val) false w.d.addr.toNat w.d.len.toNat with
    | false =>
      rw [txReadOp_outside hw ht hm hwin]
      obtain ⟨hj, hl, hd, hp⟩ := returnLost_keeps (ringWindowFault s r.val w.d.addr.toNat) r seq .retWindow
      have hring : ringAt (ringWindowFault s r.val w.d.addr.toNat) r.val = { ringAt s r.val with winErr := true } := by
        rw [ringAt_ringWindowFault, ringAt_setRing_self _ _ _ r.isLt]
      refine ⟨(ringWindowFault_onlyRing _ _ _).trans (returnLost_onlyRing _ _ _ _), by rw [hj, ringWindowFault_journal],
        by rw [hl, ringWindowFault_ledger], by rw [hd, ringWindowFault_datum], by rw [hp, ringWindowFault_pwr], fun _ => ⟨?_, ?_⟩,
        fun h => by simp at h, fun h => by simp at h⟩
      · exact returnedWith_returnLost _ hopen (by rw [hring]) (ringWindowFault_journal _ _ _)
      · obtain ⟨l, hl⟩ := ringAt_returnWith (ringWindowFault s r.val w.d.addr.toNat) r.val seq (Outcome.of .retWindow 0 0)
        rw [ringAt_congr (returnLost_rings _ _ _ _), returnWork, hl, hring]
    | true =>
      cases hplace : placeFor s r.val (txLen w.d) with
      | none =>
        rw [txReadOp_waits hw ht hm hwin hplace]
        exact ⟨.refl _ _, rfl, rfl, rfl, rfl, fun h => by simp at h, fun _ _ => rfl, fun _ h => absurd rfl h⟩
      | some res =>
        rw [txReadOp_reads hw ht hm hwin hplace]
        refine ⟨(setWork_onlyRing s r.val seq _).trans (sendRead_onlyRing _ _ _ _ _), rfl, rfl, rfl, rfl, fun h => by simp at h,
          fun _ h => by simp at h, fun _ _ => ⟨?_, rfl, rfl⟩⟩
        exact atStage_congr rfl (atStage_setWork (fun w => { w with stage := .reading, reserve := res }) (fun _ => rfl) hf rfl)
  · intro s r seq w res data c hw hc
    obtain ⟨hopen, -⟩ := workAt_eq_some hw
    obtain ⟨hf, -⟩ := workOpen_eq_some.1 hopen
    have hseq : w.seq = seq := seq_of_findWork hf
    refine ⟨txReadDoneOp s r seq res data, rfl, ?_⟩
    by_cases hres : res = .ok
    · by_cases hlen : data.length = w.d.len.toNat
      · by_cases hpause : beAt data (etherOff data) 2 = 0x8808
        · have hop : txReadDoneOp s r seq res data = returnLost s r seq .retParam := by
            simp [txReadDoneOp, hw, hres, hlen, hpause]
          obtain ⟨hj, hl, hd, -⟩ := returnLost_keeps s r seq .retParam
          rw [hop]
          exact ⟨hj, hl, returnLost_onlyRing _ _ _ _, hd, fun h => absurd hres h, fun _ _ _ => returnedWith_returnLost _ hopen rfl rfl,
            fun _ _ h => absurd hpause h⟩
        · have hop : txReadDoneOp s r seq res data = storeTx s r w (txBytes w.d data) := by
            simp [txReadDoneOp, hw, hres, hlen, hpause]
          rw [hop]
          have hst {t : State} : t.rings = (setWork s r.val w.seq (fun w => { w with stage := .queued })).rings → OnlyRing s t r.val :=
            fun h => (setWork_onlyRing s r.val w.seq _).trans (onlyRing_of_rings _ h)
          cases hplace : hasPlace s r w.seq with
          | true =>
            have hstore : storeTx s r w (txBytes w.d data) = { setWork s r.val w.seq (fun w => { w with stage := .queued }) with
                chans := (storeTx s r w (txBytes w.d data)).chans, upl := (storeTx s r w (txBytes w.d data)).upl } := by
              have h' : hasPlace (setWork s r.val w.seq (fun w => { w with stage := .queued })) r w.seq = true := hplace
              simp only [storeTx, h', if_true]
            refine ⟨by rw [hstore]; rfl, by rw [hstore]; rfl, hst (by rw [hstore]), by rw [hstore]; rfl, fun h => absurd hres h,
              fun _ _ h => absurd h hpause, fun _ _ _ h => ?_⟩
            rw [← hseq, hplace] at h
            simp at h
          | false =>
            rw [storeTx_chan hplace hc]
            refine ⟨rfl, rfl, hst rfl, rfl, fun h => absurd hres h, fun _ _ h => absurd h hpause,
              fun _ _ _ _ => ⟨?_, ?_, ?_⟩⟩
            · rw [← hseq] at hf ⊢
              exact atStage_congr rfl (atStage_setWork (fun w => { w with stage := .queued }) (fun _ => rfl) hf rfl)
            · exact (onlyChan_of_chans (s := s) c rfl).trans (setChan_onlyChan _ _ _)
            · have hi : bits w.d.p0 2 0 < 16 := by simp only [bits]; omega
              refine ⟨_, (chanAt_enqueue _ (ringChan_lt r.isLt hc) hi _).trans rfl, ?_, rfl, rfl⟩
              rw [← hseq]
              rfl
      · have hop : txReadDoneOp s r seq res data = s := by simp [txReadDoneOp, hw, hres, hlen]
        rw [hop]
        exact ⟨rfl, rfl, .refl _ _, rfl, fun h => absurd hres h, fun _ h => absurd h hlen, fun _ h => absurd h hlen⟩
    · have hop : txReadDoneOp s r seq res data = returnLost (dmaMarked s r res w.d.addr.toNat) r seq .retDma := by
        simp [txReadDoneOp, hw, hres, dmaMarked]
      obtain ⟨hj, hl, hd, -⟩ := returnLost_keeps (dmaMarked s r res w.d.addr.toNat) r seq .retDma
      have hring := ringAt_dmaMarked s r res w.d.addr.toNat
      obtain ⟨l, hwork⟩ := ringAt_returnWith (dmaMarked s r res w.d.addr.toNat) r.val seq (Outcome.of .retDma 0 0)
      have hrl : ringAt (returnLost (dmaMarked s r res w.d.addr.toNat) r seq .retDma) r.val = { ringAt s r.val with dmaErr := true, work := l } := by
        rw [ringAt_congr (returnLost_rings _ _ _ _), returnWork, hwork, hring]
      rw [hop]
      refine ⟨by rw [hj]; simp [dmaMarked], by rw [hl]; simp [dmaMarked], (dmaMarked_onlyRing _ _ _ _).trans (returnLost_onlyRing _ _ _ _),
        by rw [hd]; simp [dmaMarked], fun _ => ⟨?_, by rw [hrl], by rw [hrl], by rw [hrl]⟩, fun h => absurd h hres, fun h => absurd h hres⟩
      exact returnedWith_returnLost _ hopen (by rw [hring]) (by simp [dmaMarked])

end Sys2Proof.Machine

/-! # Receive buffers and LIFETIME

A posted buffer takes the oldest waiting frame whole; what a frame's leaving does to the channel's pause says nothing of the waiting frames. -/

namespace Sys2Proof.Machine

open Sys2Proof

/-! ### Posting -/

theorem rxBufferOp_short {s : State} {r : Nat} {q : Word} {w : Work} (hw : workAt s r q 0x0002 .accepted = some w)
    (h : w.d.len.toNat < rxMin r) : rxBufferOp s r q = returnWork s r q .retLength := by simp [rxBufferOp, hw, h]

theorem rxBufferOp_posted {s : State} {r : Nat} {q : Word} {w : Work} (hw : workAt s r q 0x0002 .accepted = some w)
    (h : rxMin r ≤ w.d.len.toNat) : rxBufferOp s r q = setWork s r q (fun w => { w with stage := .queued }) := by
  simp [rxBufferOp, hw, Nat.not_lt.2 h]

/-! ### Pause after a frame has left (R195) -/

/-- A step that says nothing of the journal, the ledger and the waiting frames, and takes nothing back that was sent. -/
def KeepsWaiting (s t : State) : Prop :=
  t.journal = s.journal ∧ t.ledger = s.ledger ∧ t.xc = s.xc ∧ (∀ x, (chanAt t x).hostRx = (chanAt s x).hostRx) ∧ s.sent <:+ t.sent

theorem KeepsWaiting.refl (s : State) : KeepsWaiting s s := ⟨rfl, rfl, rfl, fun _ => rfl, List.suffix_rfl⟩

theorem KeepsWaiting.trans {s t u : State} (h : KeepsWaiting s t) (k : KeepsWaiting t u) : KeepsWaiting s u := by
  obtain ⟨hj, hl, hx, hc, hs⟩ := h
  obtain ⟨kj, kl, kx, kc, ks⟩ := k
  exact ⟨kj.trans hj, kl.trans hl, kx.trans hx, fun x => (kc x).trans (hc x), hs.trans ks⟩

theorem setChan_keepsWaiting (s : State) (c : Nat) (f : Chan → Chan) (hf : ∀ k, (f k).hostRx = k.hostRx) : KeepsWaiting s (setChan s c f) := by
  refine ⟨rfl, rfl, rfl, fun x => ?_, List.suffix_rfl⟩
  rw [chanAt_setChan]
  split
  · next h => rw [hf, h.1]
  · rfl

theorem raiseC_keepsWaiting (s : State) (src scope inc : Nat) : KeepsWaiting s (raiseC s src scope inc) :=
  ⟨by simp, by simp, by simp, fun x => by simp, raiseC_sent s src scope inc⟩

theorem setQs_keepsWaiting (s : State) (c : Nat) (f : Queues → Queues) : KeepsWaiting s (setQs s c f) :=
  setChan_keepsWaiting _ _ _ fun _ => rfl

theorem setMac_keepsWaiting (s : State) (c : Nat) (f : MacCnt → MacCnt) : KeepsWaiting s (setMac s c f) :=
  setChan_keepsWaiting _ _ _ fun _ => rfl

theorem sendPause_keepsWaiting (s : State) (c : Nat) (m : MacSect) (ens q : Nat) : KeepsWaiting s (sendPause s c m ens q) := by
  unfold sendPause
  exact ((setQs_keepsWaiting _ _ _).trans (setMac_keepsWaiting _ _ _)).trans (raiseC_keepsWaiting _ _ _ _)

theorem pauseCheck_keepsWaiting (s : State) (c : Nat) : KeepsWaiting s (pauseCheck s c) := by
  have hsend (p : Prop) [Decidable p] (t : State) (m : MacSect) (ens q : Nat) : KeepsWaiting t (if p then t else sendPause t c m ens q) := by
    split
    · exact .refl t
    · exact sendPause_keepsWaiting _ _ _ _ _
  unfold pauseCheck
  split
  · exact .refl s
  · dsimp only
    split
    · exact .refl s
    · exact ((hsend _ s _ _ _).trans (hsend _ _ _ _ _)).trans (setQs_keepsWaiting _ _ _)

theorem afterLeave_keepsWaiting (s : State) (f : Frame) : KeepsWaiting s (afterLeave s f) := by
  unfold afterLeave
  split
  · exact pauseCheck_keepsWaiting _ _
  · exact .refl s

theorem KeepsWaiting.waitingFrames {s t : State} (h : KeepsWaiting s t) (r : Nat) : waitingFrames t r = waitingFrames s r := by
  obtain ⟨-, -, hx, hc, -⟩ := h
  unfold Machine.waitingFrames
  simp only [hx, hc]

/-! ### Delivery -/

/-- The waiting frames are those of the partition and of the channels. -/
theorem waitingFrames_congr {s t : State} (hc : t.chans = s.chans) (hx : t.xc = s.xc) (r : Nat) : waitingFrames t r = waitingFrames s r := by
  unfold Machine.waitingFrames chanAt
  simp only [hc, hx]

/-- The oldest waiting frame leaves. -/
theorem waitingFrames_dropWaiting {s : State} {r : Nat} {f : Frame} {l : List Frame} (hr : r < 160) (h : waitingFrames s r = f :: l) :
    waitingFrames (dropWaiting s r) r = l := by
  unfold waitingFrames at h ⊢
  unfold dropWaiting
  by_cases h4 : r = 4
  · simp only [h4, if_true] at h ⊢
    simp [h]
  · by_cases h5 : r = 5
    · subst h5
      simp only [if_neg (show ¬ 5 = 4 by decide), if_true] at h ⊢
      simp [h]
    · simp only [h4, h5, if_false] at h ⊢
      cases hc : ringChan r with
      | none => simp [hc] at h
      | some c =>
        simp only [hc] at h ⊢
        split at h
        case isFalse => simp at h
        case isTrue hk => rw [if_pos hk, chanAt_setChan_self _ _ _ (ringChan_lt hr hc), h]; rfl

theorem dropWaiting_keeps (s : State) (r : Nat) :
    (dropWaiting s r).journal = s.journal ∧ (dropWaiting s r).ledger = s.ledger ∧ (dropWaiting s r).sent = s.sent := by
  unfold dropWaiting
  split
  · exact ⟨rfl, rfl, rfl⟩
  · split
    · exact ⟨rfl, rfl, rfl⟩
    · split <;> exact ⟨rfl, rfl, rfl⟩

section
variable {s : State} {r : Nat} {f : Frame} {l : List Frame} {w : Work} (hwait : waitingFrames s r = f :: l)
  (hpost : postedBuffer s r = some w) (hrec : (ringAt s r).state ≠ .recovering) (hm : mayMaster s (ringOwner s r) = true)
  (hfr : frozen s = false)
include hwait hpost hrec hm hfr

theorem rxDeliverOp_outside (hwin : inWindows s (ringOwner s r) true w.d.addr.toNat (noFcs f.bytes).length = false) :
    rxDeliverOp s r = returnWork (ringWindowFault s r w.d.addr.toNat) r w.seq .retWindow := by
  simp [rxDeliverOp, hwait, hpost, hrec, hm, hfr, hwin]

theorem rxDeliverOp_inside (hwin : inWindows s (ringOwner s r) true w.d.addr.toNat (noFcs f.bytes).length = true) :
    rxDeliverOp s r = afterLeave (dropWaiting (sendWrite (returnWith s r w.seq (rxOutcome f)) (ringOwner s r) w.d.addr.toNat (noFcs f.bytes)) r) f := by
  simp [rxDeliverOp, hwait, hpost, hrec, hm, hfr, hwin]

end

/-- The write requests of a transfer depend on Max Payload Size alone. -/
theorem writeRequests_congr {s t : State} (h : t.hif = s.hif) (f a : Nat) (b : List Byte) : writeRequests t f a b = writeRequests s f a b := by
  simp only [writeRequests, maxPayload, h]

/-! ### LIFETIME -/

theorem returnExpired_frame (s : State) (r : Nat) (q : Word) : returnExpired s r q = { s with rings := (returnExpired s r q).rings } := by
  apply State.eq_of_parts <;> simp

theorem returnExpired_of_p1 {s : State} (h : isP1 s = true) (r : Nat) (q : Word) :
    returnExpired s r q = returnWith s r q (Outcome.of .retNoPath 0 (word (2 ^ 30))) := if_pos h

theorem returnExpired_of_not_p1 {s : State} (h : isP1 s = false) (r : Nat) (q : Word) :
    returnExpired s r q = returnWork s r q .retExpired := if_neg (by simp [h])

theorem returnExpired_onlyRing (s : State) (r : Nat) (q : Word) : OnlyRing s (returnExpired s r q) r := by
  unfold returnExpired
  split
  · exact returnWith_onlyRing _ _ _ _
  · exact returnWork_onlyRing _ _ _ _

/-- A transmit queue keeps, of the frames that are to go, those partly placed alone. -/
theorem placed_of_mem_dropQueued {s : State} {p : Frame → Bool} {c i : Nat} {f : Frame}
    (h : f ∈ vget (chanAt (dropQueued s p) c).qs.q i []) (hp : p f = true) : f.placed ≠ 0 := by
  by_cases hc : c < 24
  · have hchan : chanAt (dropQueued s p) c =
        { chanAt s c with qs := ((chanAt s c).qs.keep (fun f => !p f || decide (f.placed ≠ 0))).dropCur p } := by
      simp only [dropQueued, chanAt]
      rw [vget_vmapIdx _ _ _ _ (Chan.reset false), if_pos hc]
    have hq (q : Queues) : (q.dropCur p).q = q.q := by
      unfold Queues.dropCur
      split
      · split <;> rfl
      · rfl
    rw [hchan] at h
    simp only [hq, Queues.keep] at h
    by_cases hi : i < 16
    · rw [vget_vmapIdx _ _ _ _ [], if_pos hi, List.mem_filter] at h
      simpa [hp] using h.2
    · simp [vget_past _ _ _ hi] at h
  · have hchan : chanAt (dropQueued s p) c = Chan.reset false := vget_past _ _ _ hc
    have hempty : vget (Chan.reset false).qs.q i [] = [] := by
      by_cases hi : i < 16
      · exact vget_replicate _ _ _ hi
      · exact vget_past _ _ _ hi
    rw [hchan, hempty] at h
    simp at h

theorem lifetimeOp_expired {s : State} {r : RingNo} {seq : Word} {w : Work} (hw : workOpen s r.val seq = some w)
    (ht : isTxRing r.val = true) (hl : lifeOver s r.val w = true) (hp : beingPlaced s r.val seq = false)
    (hrec : (ringAt s r.val).state ≠ .recovering) : ∃ rad, lifetimeOp s r seq =
      { dropQueued (returnExpired s r.val seq) (fun f => decide (f.src = .work r seq)) with rad := rad } := by
  simp only [lifetimeOp, hw, ht, hl, hp, hrec, decide_false, Bool.not_true, Bool.or_self, Bool.false_eq_true, if_false]
  generalize dropQueued (returnExpired s r.val seq) (fun f => decide (f.src = .work r seq)) = t
  split
  · exact ⟨_, rfl⟩
  · exact ⟨_, rfl⟩

/-- What expired work leaves: the return on its ring, and the queues without its frame. -/
theorem lifetimeOp_parts {s : State} {r : RingNo} {seq : Word} {w : Work} (hw : workOpen s r.val seq = some w)
    (ht : isTxRing r.val = true) (hl : lifeOver s r.val w = true) (hp : beingPlaced s r.val seq = false)
    (hrec : (ringAt s r.val).state ≠ .recovering) :
    (lifetimeOp s r seq).rings = (returnExpired s r.val seq).rings ∧
      (lifetimeOp s r seq).chans = (dropQueued (returnExpired s r.val seq) (fun f => decide (f.src = .work r seq))).chans ∧
      lifetimeOp s r seq = { s with rings := (lifetimeOp s r seq).rings, chans := (lifetimeOp s r seq).chans,
                                    upl := (lifetimeOp s r seq).upl, rad := (lifetimeOp s r seq).rad } := by
  obtain ⟨rad, hop⟩ := lifetimeOp_expired hw ht hl hp hrec
  rw [hop]
  simp only [dropQueued]
  refine ⟨trivial, trivial, ?_⟩
  apply State.eq_of_parts <;> simp

/-- Settles O8: a buffer posted or returned, the delivery inside and outside the windows, and an expired LIFETIME. -/
theorem receiveWorkAndLifetimesFollowed : Obligations.ReceiveWorkAndLifetimesFollowed := by
  unfold Obligations.ReceiveWorkAndLifetimesFollowed
  refine ⟨?_, ?_, ?_⟩
  · intro s r seq w hw
    obtain ⟨hopen, -⟩ := workAt_eq_some hw
    obtain ⟨hf, -⟩ := workOpen_eq_some.1 hopen
    refine ⟨rxBufferOp s r.val seq, rfl, ?_⟩
    by_cases hlen : w.d.len.toNat < rxMin r.val
    · rw [rxBufferOp_short hw hlen]
      exact ⟨returnWork_onlyRing _ _ _ _, returnWith_frame _ _ _ _, fun _ => returnedWith_of_workOpen hopen _,
        fun h => absurd hlen (Nat.not_lt.2 h)⟩
    · rw [rxBufferOp_posted hw (Nat.not_lt.1 hlen)]
      exact ⟨setWork_onlyRing _ _ _ _, rfl, fun h => absurd h hlen, fun _ => atStage_setWork _ (fun _ => rfl) hf rfl⟩
  · intro s r f l w hwait hpost hf hj hrec hm hfr
    have hret : w.ret = none := by
      have := List.find?_some hpost
      simp only [Bool.and_eq_true, Option.isNone_iff_eq_none] at this
      exact this.2
    refine ⟨rxDeliverOp s r.val, rfl, ?_⟩
    cases hwin : inWindows s (ringOwner s r.val) true w.d.addr.toNat (noFcs f.bytes).length with
    | false =>
      rw [rxDeliverOp_outside hwait hpost hrec hm hfr hwin]
      have hring : ringAt (ringWindowFault s r.val w.d.addr.toNat) r.val = { ringAt s r.val with winErr := true } := by
        rw [ringAt_ringWindowFault, ringAt_setRing_self _ _ _ r.isLt]
      refine ⟨(ringWindowFault_onlyRing _ _ _).trans (returnWork_onlyRing _ _ _ _), by simp, by simp, fun h => by simp at h,
        fun _ => ⟨?_, ?_, ?_, by simp, by simp⟩⟩
      · rw [waitingFrames_congr (s := s) (by simp) (by simp), hwait]
      · refine returnedWith_returnWork (w := w) ?_ hret (by simpa using hj)
        rw [hring]
        exact hf
      · obtain ⟨l, hl⟩ := ringAt_returnWith (ringWindowFault s r.val w.d.addr.toNat) r.val w.seq (Outcome.of .retWindow 0 0)
        rw [returnWork, hl, hring]
    | true =>
      rw [rxDeliverOp_inside hwait hpost hrec hm hfr hwin]
      have hafter := afterLeave_keepsWaiting
        (dropWaiting (sendWrite (returnWith s r.val w.seq (rxOutcome f)) (ringOwner s r.val) w.d.addr.toNat (noFcs f.bytes)) r.val) f
      have hwaits := hafter.waitingFrames r.val
      obtain ⟨hdj, hdl, hds⟩ := dropWaiting_keeps
        (sendWrite (returnWith s r.val w.seq (rxOutcome f)) (ringOwner s r.val) w.d.addr.toNat (noFcs f.bytes)) r.val
      obtain ⟨haj, hal, -, -, hsent⟩ := hafter
      have hrings : (afterLeave (dropWaiting (sendWrite (returnWith s r.val w.seq (rxOutcome f)) (ringOwner s r.val) w.d.addr.toNat (noFcs f.bytes)) r.val) f).rings =
          (returnWith s r.val w.seq (rxOutcome f)).rings := by
        rw [afterLeave_rings, dropWaiting_rings]; rfl
      refine ⟨(returnWith_onlyRing s r.val w.seq (rxOutcome f)).trans (onlyRing_of_rings _ hrings), ?_, ?_, fun _ => ⟨fun o ho => ?_, ?_, ?_⟩,
        fun h => by simp at h⟩
      · rw [haj, hdj]; exact returnWith_journal _ _ _ _
      · rw [hal, hdl]; exact returnWith_ledger _ _ _ _
      · refine hsent.subset ?_
        rw [hds]
        refine List.mem_append_left _ ?_
        rw [writeRequests_congr (s := s) (returnWith_hif _ _ _ _)]
        exact ho
      · rw [hwaits]
        refine waitingFrames_dropWaiting (f := f) r.isLt ?_
        have hsame : waitingFrames (sendWrite (returnWith s r.val w.seq (rxOutcome f)) (ringOwner s r.val) w.d.addr.toNat (noFcs f.bytes)) r.val =
            waitingFrames s r.val := waitingFrames_congr (returnWith_chans _ _ _ _) (returnWith_xc _ _ _ _) _
        rw [hsame, hwait]
      · rw [returnedWith_congr hrings]
        exact returnedWith_returnWith hf hret hj
  · intro s r seq w hw ht hl hp hrec
    obtain ⟨hf, hret, hj⟩ := workOpen_eq_some.1 hw
    obtain ⟨hrings, hchans, hframe⟩ := lifetimeOp_parts hw ht hl hp hrec
    refine ⟨lifetimeOp s r seq, rfl, (returnExpired_onlyRing s r.val seq).trans (onlyRing_of_rings _ hrings), hframe,
      fun h1 => ?_, fun h1 => ?_, fun c i f hmem hsrc => ?_⟩
    · rw [returnedWith_congr hrings, returnExpired_of_not_p1 h1]
      exact returnedWith_returnWork hf hret hj
    · rw [returnedWith_congr hrings, returnExpired_of_p1 h1]
      exact returnedWith_returnWith hf hret hj
    · simp only [chanAt, hchans] at hmem
      exact placed_of_mem_dropQueued (s := returnExpired s r.val seq) (c := c) hmem (by simpa using hsrc)

end Sys2Proof.Machine

/-! # Gate lists

A swap request waits or sets BAD; the banks change places at a cycle start; the gates repeat with the cycle. -/

namespace Sys2Proof.Machine

open Sys2Proof

theorem armOverrun_keeps (k : Chan) (t : Nat) :
    (armOverrun k t).gcl = k.gcl ∧ (armOverrun k t).tab = k.tab ∧ (armOverrun k t).qs.q = k.qs.q := by
  unfold armOverrun
  split
  · split <;> exact ⟨rfl, rfl, rfl⟩
  · exact ⟨rfl, rfl, rfl⟩

theorem gclTurn_of_not_pending {s : State} {g : Gcl} (h : g.pending = false) : gclTurn s g = g := by simp [gclTurn, h]

theorem gclTurn_of_unusable {s : State} {g : Gcl} (hp : g.pending = true) (h : gclUsable g.shadow (isP1 s) = false) :
    gclTurn s g = { g with pending := false, bad := true } := by simp [gclTurn, hp, h]

theorem gclTurn_of_usable {s : State} {g : Gcl} (hp : g.pending = true) (h : gclUsable g.shadow (isP1 s) = true) :
    gclTurn s g = if atEdge s (cycleNs g.shadow * nsUnit) (g.shadow.phase * nsUnit) then
      { g with active := g.shadow, shadow := g.active, pending := false } else g := by simp [gclTurn, hp, h]

/-- One cycle later a list is as far into its cycle as before. -/
theorem gclInto_add_cycle {b : GclBank} {t : Nat} (h : b.phase * nsUnit ≤ t + secUnit) :
    gclInto b (t + cycleNs b * nsUnit) = gclInto b t := by
  have hsub : t + cycleNs b * nsUnit + secUnit - b.phase * nsUnit = (t + secUnit - b.phase * nsUnit) + cycleNs b * nsUnit := by omega
  rw [gclInto, gclInto, hsub, Nat.add_mod_right]

theorem gateOpen_of_disabled {k : Chan} (h : k.gcl.active.enable = false) (t i : Nat) : gateOpen k t i = true := by simp [gateOpen, h]

theorem gateOpen_add_cycle {k : Chan} {t : Nat} (h : k.gcl.active.phase * nsUnit ≤ t + secUnit) (i : Nat) :
    gateOpen k (t + cycleNs k.gcl.active * nsUnit) i = gateOpen k t i := by
  have he : gclEntry k.gcl (t + cycleNs k.gcl.active * nsUnit) = gclEntry k.gcl t := by
    simp only [gclEntry, gclInto_add_cycle h]
  unfold gateOpen
  rw [he]

theorem gclValid_iff (b : GclBank) : gclValid b = true ↔ 1 ≤ b.len ∧ b.len ≤ 256 ∧ b.len ≤ b.entries.length ∧
    (∀ e, e ∈ b.entries.take b.len → e.1 ≠ 0) ∧ 1000000000 % cycleNs b = 0 ∧ b.phase < 1000000000 := by
  simp only [gclValid, Bool.and_eq_true, decide_eq_true_eq, List.all_eq_true]
  constructor
  · rintro ⟨⟨⟨⟨⟨h1, h2⟩, h3⟩, h4⟩, h5⟩, h6⟩
    exact ⟨h1, h2, h3, h4, h5, h6⟩
  · rintro ⟨h1, h2, h3, h4, h5, h6⟩
    exact ⟨⟨⟨⟨⟨h1, h2⟩, h3⟩, h4⟩, h5⟩, h6⟩

/-- Settles O28: the request, the turn of the banks, the period of the gates, and what makes a bank usable. -/
theorem gateListsSwapAtCycleStart : Obligations.GateListsSwapAtCycleStart := by
  unfold Obligations.GateListsSwapAtCycleStart
  refine ⟨fun s c hp => ⟨fun who hreach => ?_, ?_⟩, fun k t i => ⟨fun h => gateOpen_of_disabled h t i, fun h => gateOpen_add_cycle h i⟩, ?_⟩
  · refine ⟨gclSwapOp s c.val, by simp [exec, execGclSwap, hreach, hp], rfl, setChan_onlyChan _ _ _, fun h => ?_, fun h => ?_⟩
    · simp [gclSwapOp, chanAt_setChan_self _ _ _ c.isLt, gclRequest, h]
    · simp [gclSwapOp, chanAt_setChan_self _ _ _ c.isLt, gclRequest, h]
  · refine ⟨_, by simp [exec, execGateIntervalExpiry, hp]; rfl, rfl, setChan_onlyChan _ _ _, ?_⟩
    rw [chanAt_setChan_self _ _ _ c.isLt]
    obtain ⟨hgcl, htab, hq⟩ := armOverrun_keeps { chanAt s c.val with gcl := gclTurn s (chanAt s c.val).gcl } s.datum
    refine ⟨htab, hq, fun h => hgcl.trans (gclTurn_of_not_pending h), fun h => ⟨fun hu => hgcl.trans (gclTurn_of_unusable h hu),
      fun hu => hgcl.trans (gclTurn_of_usable h hu)⟩⟩
  · exact fun b => ⟨by simp [gclUsable], by simpa [gclUsable] using gclValid_iff b⟩

end Sys2Proof.Machine

/-! # Events and their counters

An occurrence and the chain it can start: pending bits stay set, a stored record of another source stays stored, a counter that takes neither of the chain's two sources stays. -/

namespace Sys2Proof.Machine

open Sys2Proof

@[simp] theorem sendMsix_evt (s : State) (fv : Nat × Nat) : (sendMsix s fv).evt = s.evt := by
  unfold sendMsix
  dsimp only
  split
  · rfl
  · split <;> rfl

@[simp] theorem sendAll_evt (s : State) (l : List (Nat × Nat)) : (sendAll s l).evt = s.evt :=
  foldl_keeps State.evt sendMsix sendMsix_evt l s

/-! ### What a chain of occurrences keeps -/

/-- What one occurrence makes of the event block. -/
def occurred (s : State) (src scope : Nat) (info1 : Word) (inc : Nat) : Evt :=
  (routeOcc s (storeOcc s (countAll s.evt src scope inc) src scope info1).1 src scope).1

/-- A predicate of the event block that every occurrence of the chain keeps holds after it, if it holds after its first occurrence. -/
theorem raiseFuel_evt_induction (P : Evt → Prop)
    (hP : ∀ s src scope info1 inc, src = Src.evtOverflow ∨ src = Src.counterWrap → P s.evt → P (occurred s src scope info1 inc)) (n : Nat) :
    ∀ s src scope info1 inc, P (occurred s src scope info1 inc) → P (raiseFuel (n + 1) s src scope info1 inc).evt := by
  have hchain (k : Nat) : ∀ s src scope info1 inc, src = Src.evtOverflow ∨ src = Src.counterWrap → P s.evt →
      P (raiseFuel k s src scope info1 inc).evt := by
    induction k with
    | zero => exact fun _ _ _ _ _ _ h => h
    | succ k ih =>
      intro s src scope info1 inc hsrc h
      have hwraps (l : List (Nat × Nat)) : ∀ t : State, P t.evt → P (l.foldl (fun t w => raiseFuel k t Src.counterWrap w.1 (word w.2) 1) t).evt := by
        induction l with
        | nil => exact fun _ h => h
        | cons w l ihl => exact fun t h => ihl _ (ih t _ _ _ _ (.inr rfl) h)
      unfold raiseFuel
      dsimp only
      refine hwraps _ _ ?_
      have hocc := hP s src scope info1 inc hsrc h
      split
      · exact ih _ _ _ _ _ (.inl rfl) (by rw [sendAll_evt]; exact hocc)
      · rw [sendAll_evt]; exact hocc
  intro s src scope info1 inc h
  have hwraps (l : List (Nat × Nat)) : ∀ t : State, P t.evt → P (l.foldl (fun t w => raiseFuel n t Src.counterWrap w.1 (word w.2) 1) t).evt := by
    induction l with
    | nil => exact fun _ h => h
    | cons w l ihl => exact fun t h => ihl _ (hchain n t _ _ _ _ (.inr rfl) h)
  unfold raiseFuel
  dsimp only
  refine hwraps _ _ ?_
  split
  · exact hchain n _ _ _ _ _ (.inl rfl) (by rw [sendAll_evt]; exact h)
  · rw [sendAll_evt]; exact h

theorem raise_evt_induction (P : Evt → Prop)
    (hP : ∀ s src scope info1 inc, src = Src.evtOverflow ∨ src = Src.counterWrap → P s.evt → P (occurred s src scope info1 inc))
    {s : State} {src scope : Nat} {info1 : Word} (h : P (occurred s src scope info1 1)) : P (raise s src scope info1).evt :=
  raiseFuel_evt_induction P hP 511 s src scope info1 1 h

/-! ### The parts of an occurrence -/

theorem countAll_store (e : Evt) (src scope inc : Nat) : (countAll e src scope inc).store = e.store := by
  simp only [countAll]

theorem countAll_intPend (e : Evt) (src scope inc : Nat) : (countAll e src scope inc).intPend = e.intPend := by
  simp only [countAll]

theorem logAlone_keeps (s : State) (e : Evt) (src scope : Nat) (info1 : Word) :
    (logAlone s e src scope info1).store = e.store ∧ (logAlone s e src scope info1).intPend = e.intPend ∧
      (logAlone s e src scope info1).pf = e.pf := by
  unfold logAlone logPush
  split
  · split
    · split <;> exact ⟨rfl, rfl, rfl⟩
    · exact ⟨rfl, rfl, rfl⟩
  · exact ⟨rfl, rfl, rfl⟩

theorem storeOcc_keeps (s : State) (e : Evt) (src scope : Nat) (info1 : Word) :
    (storeOcc s e src scope info1).1.intPend = e.intPend ∧ (storeOcc s e src scope info1).1.pf = e.pf := by
  unfold storeOcc
  dsimp only
  split
  · split
    · exact ⟨rfl, rfl⟩
    · split
      · split <;> exact ⟨rfl, rfl⟩
      · exact (logAlone_keeps s { e with lost := true, overflow := e.overflow + 1 } src scope info1).2
  · exact (logAlone_keeps s e src scope info1).2

theorem countPfVec_keeps (s : State) (e : Evt) (v : Nat) :
    (countPfVec s e v).1.intPend = e.intPend ∧ (countPfVec s e v).1.store = e.store ∧ (countPfVec s e v).1.pf = e.pf := by
  unfold countPfVec
  dsimp only
  split <;> exact ⟨rfl, rfl, rfl⟩

theorem countChVec_keeps (s : State) (e : Evt) (c : Nat) :
    (countChVec s e c).1.intPend = e.intPend ∧ (countChVec s e c).1.store = e.store ∧ (countChVec s e c).1.pf = e.pf := by
  unfold countChVec
  dsimp only
  split <;> exact ⟨rfl, rfl, rfl⟩

theorem routeOcc_keeps (s : State) (e : Evt) (src scope : Nat) :
    (routeOcc s e src scope).1.intPend = vset e.intPend (src / 32) (vget e.intPend (src / 32) 0 ||| word (2 ^ (src % 32))) ∧
      (routeOcc s e src scope).1.store = e.store ∧ (routeOcc s e src scope).1.pf = e.pf := by
  have hpf (e : Evt) (v : Nat) : let x := if 1 ≤ v ∧ v ≤ 9 then countPfVec s e v else (e, [])
      x.1.intPend = e.intPend ∧ x.1.store = e.store ∧ x.1.pf = e.pf := by
    intro x
    simp only [x]
    split
    · exact countPfVec_keeps s e v
    · exact ⟨rfl, rfl, rfl⟩
  unfold routeOcc
  dsimp only
  obtain ⟨hi, hs, hp⟩ := hpf { e with intPend := vset e.intPend (src / 32) (vget e.intPend (src / 32) 0 ||| word (2 ^ (src % 32))) }
    (vget e.vec src 0).toNat
  split
  · obtain ⟨ki, ks, kp⟩ := countChVec_keeps s
      { (if 1 ≤ (vget e.vec src 0).toNat ∧ (vget e.vec src 0).toNat ≤ 9 then
          countPfVec s { e with intPend := vset e.intPend (src / 32) (vget e.intPend (src / 32) 0 ||| word (2 ^ (src % 32))) } (vget e.vec src 0).toNat
        else ({ e with intPend := vset e.intPend (src / 32) (vget e.intPend (src / 32) 0 ||| word (2 ^ (src % 32))) }, [])).1 with
        chStat := _ } scope
    exact ⟨ki.trans hi, ks.trans hs, kp.trans hp⟩
  · exact ⟨hi, hs, hp⟩

/-! ### Pending bits -/

theorem occurred_intPend (s : State) (src scope : Nat) (info1 : Word) (inc : Nat) :
    (occurred s src scope info1 inc).intPend = vset s.evt.intPend (src / 32) (vget s.evt.intPend (src / 32) 0 ||| word (2 ^ (src % 32))) := by
  unfold occurred
  rw [(routeOcc_keeps _ _ _ _).1, (storeOcc_keeps _ _ _ _ _).1, countAll_intPend]

/-- Bit i of pending register g. -/
def pendingBit (g i : Nat) (e : Evt) : Prop := (vget e.intPend g 0).getLsbD i = true

/-- A pending bit stays. -/
theorem pendingBit_occurred {s : State} {g i : Nat} (h : pendingBit g i s.evt) (src scope : Nat) (info1 : Word) (inc : Nat) :
    pendingBit g i (occurred s src scope info1 inc) := by
  unfold pendingBit at h ⊢
  rw [occurred_intPend, vget_vset]
  split
  · next hg => rw [hg.1, BitVec.getLsbD_or, h]; rfl
  · exact h

theorem getLsbD_word_two_pow {k : Nat} (h : k < 32) : (word (2 ^ k)).getLsbD k = true := by
  rw [word, BitVec.getLsbD_ofNat, Nat.testBit_two_pow_self]
  simpa using h

/-- An occurrence sets the bit of its source. -/
theorem pendingBit_of_occurred (s : State) {src : Nat} (h : src < 96) (scope : Nat) (info1 : Word) (inc : Nat) :
    pendingBit (src / 32) (src % 32) (occurred s src scope info1 inc) := by
  unfold pendingBit
  rw [occurred_intPend, vget_vset_self _ _ _ _ (by omega), BitVec.getLsbD_or, getLsbD_word_two_pow (by omega), Bool.or_true]

/-! ### Stored records -/

/-- A stored record stays where a record of another source is stored, merged or lost. -/
theorem mem_store_occurred {s : State} {r : EvRec} {src : Nat} (h : r ∈ s.evt.store) (hne : r.source ≠ src) (scope : Nat) (info1 : Word) (inc : Nat) :
    r ∈ (occurred s src scope info1 inc).store := by
  unfold occurred
  rw [(routeOcc_keeps _ _ _ _).2.1]
  have h' : r ∈ (countAll s.evt src scope inc).store := by rw [countAll_store]; exact h
  have hm : mergeable src scope r = false := by simp [mergeable, hne]
  generalize countAll s.evt src scope inc = e at h'
  unfold storeOcc
  dsimp only
  split
  · split
    · exact List.mem_map.2 ⟨r, h', by simp [hm]⟩
    · split
      · split
        · exact List.mem_append_left _ h'
        · exact List.mem_append_left _ h'
      · rw [(logAlone_keeps s { e with lost := true, overflow := e.overflow + 1 } src scope info1).1]
        exact h'
  · rw [(logAlone_keeps s e src scope info1).1]
    exact h'

/-- An occurrence of a record source stores its record where nothing merges it and the store has room. -/
theorem newRecord_mem_occurred {s : State} {src scope : Nat} (info1 : Word) (inc : Nat) (hsrc : isRecordSource src = true)
    (hrec : vget s.evt.record src false = true) (hen : (ringAt s 2).enable = true) (hroom : s.evt.store.length < 256)
    (hm : s.evt.store.any (mergeable src scope) = false) :
    newRecord s (countAll s.evt src scope inc) src scope info1 true ∈ (occurred s src scope info1 inc).store := by
  have hst := countAll_store s.evt src scope inc
  have hr : vget (countAll s.evt src scope inc).record src false = true := by simpa only [countAll] using hrec
  unfold occurred
  rw [(routeOcc_keeps _ _ _ _).2.1]
  rw [← hst] at hm hroom
  generalize countAll s.evt src scope inc = e at hm hroom hr
  unfold storeOcc
  simp only [hsrc, hr, hen, hm, Bool.and_self, if_true, Bool.false_eq_true, if_false, if_pos hroom]
  split
  · exact List.mem_append_right _ (List.mem_singleton.2 rfl)
  · exact List.mem_append_right _ (List.mem_singleton.2 rfl)

/-! ### Counters and occurrences -/

/-- A PF counter that takes neither of the chain's two sources stays. -/
theorem pf_occurred {s : State} {i : Nat} (hi : i < 32) {src : Nat} (scope : Nat) (info1 : Word) (inc : Nat)
    (h : pfTakes (vget s.evt.pf i Counter.reset) src scope = false) :
    vget (occurred s src scope info1 inc).pf i Counter.reset = vget s.evt.pf i Counter.reset := by
  unfold occurred
  rw [(routeOcc_keeps _ _ _ _).2.2, (storeOcc_keeps _ _ _ _ _).2]
  simp only [countAll]
  rw [vget_vmapIdx _ _ _ _ Counter.reset, if_pos hi, if_neg (by simp [h])]

/-- No level source is one the chain raises. -/
theorem pfTakes_of_level {k : Counter} (h : k.enable = false ∨ isLevelSource k.source.toNat = true) {src : Nat} (scope : Nat)
    (hsrc : src = Src.evtOverflow ∨ src = Src.counterWrap) : pfTakes k src scope = false := by
  rcases h with h | h
  · simp [pfTakes, h]
  · have hne : k.source.toNat ≠ src := by
      rintro he
      rw [he] at h
      rcases hsrc with rfl | rfl <;> simp [isLevelSource, Src.evtOverflow, Src.counterWrap] at h
    simp [pfTakes, hne]

theorem raise_wrap_pf {s : State} {i : Nat} (hi : i < 32)
    (h : (vget s.evt.pf i Counter.reset).enable = false ∨ isLevelSource (vget s.evt.pf i Counter.reset).source.toNat = true)
    (scope : Nat) (info1 : Word) :
    vget (raise s Src.counterWrap scope info1).evt.pf i Counter.reset = vget s.evt.pf i Counter.reset := by
  refine raise_evt_induction (fun e => vget e.pf i Counter.reset = vget s.evt.pf i Counter.reset) ?_ ?_
  · intro t src scope info1 inc hsrc ht
    rw [pf_occurred hi _ _ _ (pfTakes_of_level (by rw [ht]; exact h) _ hsrc), ht]
  · exact pf_occurred hi _ _ _ (pfTakes_of_level h _ (.inr rfl))

theorem foldl_raise_wrap_pf {i : Nat} (hi : i < 32) (l : List (Nat × Nat)) : ∀ s : State,
    ((vget s.evt.pf i Counter.reset).enable = false ∨ isLevelSource (vget s.evt.pf i Counter.reset).source.toNat = true) →
    vget (l.foldl (fun t w => raise t Src.counterWrap w.1 (word w.2)) s).evt.pf i Counter.reset = vget s.evt.pf i Counter.reset := by
  induction l with
  | nil => exact fun _ _ => rfl
  | cons w l ih =>
    intro s h
    have hw := raise_wrap_pf hi h w.1 (word w.2)
    rw [List.foldl_cons, ih _ (by rw [hw]; exact h), hw]

theorem foldl_raise_evtOnly (l : List (Nat × Nat)) : ∀ s : State,
    EvtOnly s (l.foldl (fun t w => raise t Src.counterWrap w.1 (word w.2)) s) := by
  induction l with
  | nil => exact EvtOnly.refl
  | cons w l ih => exact fun s => (raise_evtOnly s _ _ _).trans (ih _)

/-- An occurrence changes the event block, MSI-X bits and what was sent. -/
theorem EvtOnly.frame {s t : State} (h : EvtOnly s t) : t = { s with hif := t.hif, evt := t.evt, sent := t.sent } := by
  unfold EvtOnly at h
  rw [h]

/-- A datum microsecond is a change of the counters and the wraps it brings. -/
theorem durationTickOp_eq (s : State) : ∃ (e : Evt) (l : List (Nat × Nat)), durationTickOp s =
      l.foldl (fun t w => raise t Src.counterWrap w.1 (word w.2)) { s with evt := e } ∧
    e.pf = vmapIdx (fun _ k => tickCounter s k none) s.evt.pf := ⟨_, _, rfl, rfl⟩

theorem tickCounter_frame (s : State) (k : Counter) (own : Option Nat) :
    (tickCounter s k own).enable = k.enable ∧ (tickCounter s k own).source = k.source := by
  unfold tickCounter
  split
  · exact ⟨rfl, rfl⟩
  · dsimp only
    split <;> exact ⟨rfl, rfl⟩

theorem tickCounter_of_disabled (s : State) {k : Counter} (own : Option Nat) (h : k.enable = false) : tickCounter s k own = k := by
  simp [tickCounter, h]

theorem tickCounter_duration (s : State) {k : Counter} (own : Option Nat) (he : k.enable = true) (hl : isLevelSource k.source.toNat = true)
    (hm : k.mode = 1) : (tickCounter s k own).value = k.value + BitVec.ofNat 48 (highScopes s k own).length := by
  have hm' : k.mode.toNat = 1 := by rw [hm]; rfl
  simp only [tickCounter, he, hl, hm', Bool.not_true, Bool.or_self, Bool.false_eq_true, if_false, BitVec.ofNat_add, BitVec.ofNat_toNat,
    BitVec.setWidth_eq]

/-! ### A counter replaced -/

theorem counterAt_setCounter (s : State) (k j : CntSel) (x : Counter) :
    counterAt (setCounter s k x) j = if j = k then x else counterAt s j := by
  cases k with
  | pf i =>
    cases j with
    | pf i' =>
      simp only [setCounter, counterAt, CntSel.pf.injEq]
      by_cases h : i' = i
      · subst h; simp
      · have hv : i.val ≠ i'.val := fun hv => h (Fin.ext hv.symm)
        simp [h, hv]
    | ch c' j' => simp [setCounter, counterAt]
  | ch c j₀ =>
    cases j with
    | pf i' => simp [setCounter, counterAt]
    | ch c' j' =>
      simp only [setCounter, counterAt, CntSel.ch.injEq]
      by_cases hc : c' = c
      · subst hc
        by_cases hj : j' = j₀
        · subst hj; simp
        · have hv : j₀.val ≠ j'.val := fun hv => hj (Fin.ext hv.symm)
          simp [hj, hv]
      · have hv : c.val ≠ c'.val := fun hv => hc (Fin.ext hv.symm)
        simp [hc, hv]

theorem setCounter_frame (s : State) (k : CntSel) (x : Counter) : setCounter s k x =
    { s with evt := { s.evt with pf := (setCounter s k x).evt.pf, ch := (setCounter s k x).evt.ch } } := by
  cases k <;> rfl

theorem counterAt_setCounter_self (s : State) (k : CntSel) (x : Counter) : counterAt (setCounter s k x) k = x := by
  rw [counterAt_setCounter, if_pos rfl]

theorem counterAt_setCounter_ne (s : State) {k j : CntSel} (x : Counter) (h : j ≠ k) : counterAt (setCounter s k x) j = counterAt s j := by
  rw [counterAt_setCounter, if_neg h]

/-! ### Configuration (R371) -/

theorem cfgWrite_of_bad {s : State} {pf : Bool} {v : Word} {k : Counter} (h : cfgOk s pf (cfgOf v k) = false)
    (hen : k.enable ≠ bitOf v 31) : cfgWrite s pf v k = { k with bad := true } := by
  have : decide ((cfgOf v k).enable ≠ k.enable) = true := decide_eq_true (fun e => hen e.symm)
  simp only [cfgWrite, this, h, Bool.or_true, Bool.not_false, Bool.and_self, if_true]

/-- The fields a taken configuration gives, and the value it clears. -/
theorem cfgWrite_of_ok {s : State} {pf : Bool} {v : Word} {k : Counter} (h : cfgOk s pf (cfgOf v k) = true) :
    (cfgWrite s pf v k).enable = bitOf v 31 ∧ (cfgWrite s pf v k).mode = BitVec.ofNat 2 (bits v 30 29) ∧
      (cfgWrite s pf v k).source = BitVec.ofNat 7 (bits v 6 0) ∧
      ((bitOf v 26 = true ∨ (pf = true ∧ (cfgOf v k).scope ≠ k.scope) ∨ (cfgOf v k).mode ≠ k.mode ∨ (cfgOf v k).source ≠ k.source) →
        (cfgWrite s pf v k).value = 0) := by
  unfold cfgWrite
  simp only [h, Bool.not_true, Bool.and_false, Bool.false_eq_true, if_false]
  refine ⟨?_, ?_, ?_, fun hclear => ?_⟩
  · split <;> split <;> rfl
  · split <;> split <;> rfl
  · split <;> split <;> rfl
  · rw [if_pos]
    simp only [Bool.or_eq_true, Bool.and_eq_true, decide_eq_true_eq]
    tauto

theorem bits_two_bits (v : Word) : (BitVec.ofNat 2 (bits v 30 29)).toNat = bits v 30 29 := by
  simp only [bits, BitVec.toNat_ofNat]; omega

theorem bits_seven_bits (v : Word) : (BitVec.ofNat 7 (bits v 6 0)).toNat = bits v 6 0 := by
  simp only [bits, BitVec.toNat_ofNat]; omega

theorem bits_scope_byte (v : Word) : (BitVec.ofNat 8 (bits v 15 8)).toNat = bits v 15 8 := by
  simp only [bits, BitVec.toNat_ofNat]; omega

/-- Settles O48: a soft event's bit and record, the counters' configuration and clearing, and the datum microsecond. -/
theorem eventsRaisedAndCounted : Obligations.EventsRaisedAndCounted := by
  unfold Obligations.EventsRaisedAndCounted
  refine fun s => ⟨fun cp v => ?_, fun v => rfl, fun who k v hreach => ⟨?_, ?_⟩, ?_⟩
  · have hn : bits v 31 30 < 4 := by simp only [bits]; omega
    have hsoft : Src.soft0 + bits v 31 30 = 92 + bits v 31 30 := rfl
    refine ⟨evtSoftOp s v, rfl, (raise_evtOnly _ _ _ _).frame, ?_, fun hrec hen hroom hno => ?_⟩
    · have hbit := raise_evt_induction (pendingBit ((92 + bits v 31 30) / 32) ((92 + bits v 31 30) % 32))
        (fun t src scope info1 inc _ h => pendingBit_occurred h src scope info1 inc)
        (pendingBit_of_occurred s (by omega) 0xFF (word (bits v 29 0)) 1)
      rw [show (92 + bits v 31 30) / 32 = 2 by omega, show (92 + bits v 31 30) % 32 = 28 + bits v 31 30 by omega] at hbit
      exact hbit
    · have hsrc : isRecordSource (92 + bits v 31 30) = true := by
        have hcases : bits v 31 30 = 0 ∨ bits v 31 30 = 1 ∨ bits v 31 30 = 2 ∨ bits v 31 30 = 3 := by omega
        rcases hcases with h | h | h | h <;> rw [h] <;> rfl
      have hnone : s.evt.store.any (mergeable (92 + bits v 31 30) 0xFF) = false := by
        rw [List.any_eq_false]
        exact fun r hr => by simp [hno r hr]
      refine ⟨newRecord s (countAll s.evt (92 + bits v 31 30) 0xFF 1) (92 + bits v 31 30) 0xFF (word (bits v 29 0)) true, ?_,
        rfl, rfl, rfl, rfl, rfl⟩
      refine raise_evt_induction (fun e => newRecord s (countAll s.evt (92 + bits v 31 30) 0xFF 1) (92 + bits v 31 30) 0xFF
        (word (bits v 29 0)) true ∈ e.store) ?_ (newRecord_mem_occurred _ _ hsrc hrec hen hroom hnone)
      intro t src scope info1 inc hchain ht
      refine mem_store_occurred ht ?_ _ _ _
      show 92 + bits v 31 30 ≠ src
      rcases hchain with rfl | rfl
      · simp only [Src.evtOverflow]; omega
      · simp only [Src.counterWrap]; omega
  · have hop : exec (.eventCounterConfig who k v) s = .next (setCounter s k (cfgWrite s (isPfCounter k) v (counterAt s k))) := by
      simp only [exec, execEventCounterConfig, counterCfgOp, hreach, if_true]
    refine ⟨_, hop, setCounter_frame _ _ _, fun j hj => counterAt_setCounter_ne _ _ hj, fun hbad hen => ?_, fun hok => ?_⟩
    · rw [counterAt_setCounter_self, cfgWrite_of_bad hbad hen]
    · obtain ⟨hen, hmode, hsrc, hzero⟩ := cfgWrite_of_ok hok
      rw [counterAt_setCounter_self, hmode, hsrc, bits_two_bits, bits_seven_bits]
      refine ⟨hen, rfl, rfl, fun hclear => hzero ?_⟩
      have hne {n : Nat} {x y : BitVec n} (h : y.toNat ≠ x.toNat) : x ≠ y := fun e => h (by rw [e])
      rcases hclear with h | ⟨hpf, h⟩ | h | h
      · exact .inl h
      · exact .inr (.inl ⟨hpf, hne (by rw [cfgOf, bits_scope_byte]; exact h)⟩)
      · exact .inr (.inr (.inl (hne (by rw [cfgOf, bits_two_bits]; exact h))))
      · exact .inr (.inr (.inr (hne (by rw [cfgOf, bits_seven_bits]; exact h))))
  · refine ⟨setCounter s k { counterAt s k with value := 0, period := [] }, ?_, setCounter_frame _ _ _, counterAt_setCounter_self _ _ _,
      fun j hj => counterAt_setCounter_ne _ _ hj⟩
    simp only [exec, execEventCounterClear, hreach, if_true]
  · obtain ⟨e, l, hop, hpf⟩ := durationTickOp_eq s
    refine ⟨durationTickOp s, rfl, ?_, fun i hi => ?_⟩
    · have hframe := (foldl_raise_evtOnly l { s with evt := e }).frame
      rw [hop]
      exact hframe
    · have htick : vget e.pf i Counter.reset = tickCounter s (vget s.evt.pf i Counter.reset) none := by
        rw [hpf, vget_vmapIdx _ _ _ _ Counter.reset, if_pos hi]
      obtain ⟨hen, hsrc⟩ := tickCounter_frame s (vget s.evt.pf i Counter.reset) none
      have hafter : ((vget s.evt.pf i Counter.reset).enable = false ∨ isLevelSource (vget s.evt.pf i Counter.reset).source.toNat = true) →
          vget (durationTickOp s).evt.pf i Counter.reset = tickCounter s (vget s.evt.pf i Counter.reset) none := by
        intro h
        rw [hop, foldl_raise_wrap_pf hi l { s with evt := e } (by show _ ∨ _; rw [htick, hen, hsrc]; exact h)]
        exact htick
      exact ⟨fun h => by rw [hafter (.inl h), tickCounter_of_disabled s none h],
        fun he hl hm => by rw [hafter (.inr hl), tickCounter_duration s none he hl hm]⟩

end Sys2Proof.Machine

/-! # Queues served, shaped and sampled

What the scheduler comes to among eligible queues, what placing a frame leaves of its channel's queues, and the ticks of the refill and of the samples. -/

namespace Sys2Proof.Machine

open Sys2Proof

/-! ### Eligibility (R203) -/

theorem headFitsLine_of_no_list {k : Chan} (h : k.gcl.active.enable = false) (t i : Nat) :
    headFitsLine k t i = portionFits k (lineLen k (headLen k i)) := by
  simp only [headFitsLine, headLen, h, Bool.false_and, Bool.not_false, Bool.true_or, Bool.and_true]

theorem eligible_of_no_list {k : Chan} (h : k.gcl.active.enable = false) (t i : Nat) :
    eligible k t i = true ↔ headReady k i = true ∧ ((qdescAt k i).shape = true → 0 < vget k.qs.credit i 0) ∧
      (i < 8 → vget k.qs.obey i none = none ∧ portionFits k (lineLen k (headLen k i)) = true) := by
  simp only [eligible, gateOpen_of_disabled h, headFitsLine_of_no_list h, Bool.and_eq_true, Bool.or_eq_true, Bool.not_eq_true',
    decide_eq_true_eq, Option.isNone_iff_eq_none, and_true, and_assoc]
  refine and_congr_right fun _ => and_congr ?_ ?_
  · cases (qdescAt k i).shape <;> simp
  · constructor
    · exact fun h hi => h.resolve_left (by omega)
    · intro h
      by_cases hi : 8 ≤ i
      · exact .inl hi
      · exact .inr (h (by omega))

theorem head_of_eligible {k : Chan} {t i : Nat} (h : eligible k t i = true) : ∃ f rest, vget k.qs.q i [] = f :: rest := by
  simp only [eligible, Bool.and_eq_true] at h
  have hr := h.1.1.1
  unfold headReady at hr
  cases hq : vget k.qs.q i [] with
  | nil => simp [hq] at hr
  | cons f rest => exact ⟨f, rest, rfl⟩

/-! ### Deficit round robin (R204) -/

theorem minRounds_mem (need : Nat → Nat) (l : List Nat) (h : l ≠ []) : ∃ a ∈ l, need a = minRounds need l := by
  induction l with
  | nil => exact absurd rfl h
  | cons a l ih =>
    cases l with
    | nil => exact ⟨a, List.mem_singleton.2 rfl, rfl⟩
    | cons b l =>
      obtain ⟨x, hx, hn⟩ := ih (by simp)
      simp only [minRounds]
      rcases Nat.le_total (need a) (minRounds need (b :: l)) with hle | hle
      · exact ⟨a, List.mem_cons_self, (Nat.min_eq_left hle).symm⟩
      · exact ⟨x, List.mem_cons_of_mem _ hx, hn.trans (Nat.min_eq_right hle).symm⟩

theorem mem_rotate {cursor : Nat} {l : List Nat} {a : Nat} : a ∈ rotate cursor l ↔ a ∈ l := by
  simp only [rotate, List.mem_append, List.mem_filter, decide_eq_true_eq]
  constructor
  · rintro (h | h) <;> exact h.1
  · intro h
    rcases Nat.lt_or_ge a cursor with hlt | hge
    · exact .inr ⟨h, hlt⟩
    · exact .inl ⟨h, hge⟩

/-- Some queue is served where one is eligible, and it is one of them. -/
theorem dwrr_some (cursor : Nat) {els : List Nat} (need : Nat → Nat) (h : els ≠ []) : ∃ q k, dwrr cursor els need = some (q, k) ∧ q ∈ els := by
  obtain ⟨a, ha, hn⟩ := minRounds_mem need els h
  unfold dwrr
  dsimp only
  cases hf : (rotate cursor els).find? (fun i => decide (need i = minRounds need els)) with
  | none =>
    have := List.find?_eq_none.1 hf a (mem_rotate.2 ha)
    simp [hn] at this
  | some q => exact ⟨q, _, rfl, mem_rotate.1 (List.mem_of_find?_eq_some hf)⟩

theorem dwrr_nil (cursor : Nat) (need : Nat → Nat) : dwrr cursor [] need = none := rfl

/-- The top level is a level of the list, and no level is above it. -/
theorem topLevel_spec (level : Nat → Nat) (l : List Nat) :
    (∀ i ∈ l, level i ≤ topLevel level l) ∧ (l ≠ [] → ∃ i ∈ l, level i = topLevel level l) := by
  have hfold : ∀ (l : List Nat) (a : Nat), a ≤ l.foldl (fun a i => max a (level i)) a ∧
      (∀ i ∈ l, level i ≤ l.foldl (fun a i => max a (level i)) a) ∧
      (l.foldl (fun a i => max a (level i)) a = a ∨ ∃ i ∈ l, level i = l.foldl (fun a i => max a (level i)) a) := by
    intro l
    induction l with
    | nil => exact fun a => ⟨Nat.le_refl _, by simp, .inl rfl⟩
    | cons b l ih =>
      intro a
      obtain ⟨hle, hall, hat⟩ := ih (max a (level b))
      refine ⟨(Nat.le_max_left a (level b)).trans hle, fun i hi => ?_, ?_⟩
      · rcases List.mem_cons.1 hi with rfl | hi
        · exact (Nat.le_max_right a (level i)).trans hle
        · exact hall i hi
      · rcases hat with hat | ⟨i, hi, hat⟩
        · rcases Nat.le_total a (level b) with h | h
          · exact .inr ⟨b, List.mem_cons_self, by rw [List.foldl_cons, hat, Nat.max_eq_right h]⟩
          · exact .inl (by rw [List.foldl_cons, hat, Nat.max_eq_left h])
        · exact .inr ⟨i, List.mem_cons_of_mem _ hi, hat⟩
  obtain ⟨-, hall, hat⟩ := hfold l 0
  refine ⟨hall, fun hne => ?_⟩
  rcases hat with hat | hat
  · obtain ⟨b, l', rfl⟩ := List.exists_cons_of_ne_nil hne
    refine ⟨b, List.mem_cons_self, ?_⟩
    have hb : level b ≤ 0 := hat ▸ hall b List.mem_cons_self
    show level b = (b :: l').foldl (fun a i => max a (level i)) 0
    omega
  · exact hat

/-- The queues of a direction. -/
def dirQueues (up : Bool) : List Nat := (List.range 8).map (fun p => if up then p + 8 else p)

theorem mem_dirQueues_down {i : Nat} : i ∈ dirQueues false ↔ i < 8 := by simp [dirQueues]

theorem mem_dirQueues_up {i : Nat} : i ∈ dirQueues true ↔ 8 ≤ i ∧ i < 16 := by
  simp only [dirQueues, List.mem_map, List.mem_range, if_true]
  constructor
  · rintro ⟨p, hp, rfl⟩; omega
  · rintro ⟨h8, h16⟩; exact ⟨i - 8, by omega, by omega⟩

theorem pickQueue_none {k : Chan} {up : Bool} {t : Nat} (h : ∀ i ∈ dirQueues up, eligible k t i = false) : pickQueue k up t = none := by
  have hels : (dirQueues up).filter (eligible k t) = [] := List.filter_eq_nil_iff.2 (fun i hi => by simp [h i hi])
  unfold dirQueues at hels
  simp only [pickQueue, hels, List.filter_nil, dwrr_nil]

/-- With an eligible queue the scheduler comes to one of the highest level, and takes its head frame. -/
theorem pickQueue_some {k : Chan} {up : Bool} {t i : Nat} (hi : i ∈ dirQueues up) (he : eligible k t i = true) : ∃ q qs,
    pickQueue k up t = some (q, qs) ∧ q ∈ dirQueues up ∧ eligible k t q = true ∧
      (∀ j ∈ dirQueues up, eligible k t j = true → (qdescAt k j).level ≤ (qdescAt k q).level) ∧
      qs.q = vset k.qs.q q (vget k.qs.q q []).tail ∧
      ((qdescAt k q).shape = true → qs.credit = vset k.qs.credit q (vget k.qs.credit q 0 - ((headLen k q * 8000 : Nat) : Int))) := by
  have hmem : i ∈ (dirQueues up).filter (eligible k t) := List.mem_filter.2 ⟨hi, he⟩
  obtain ⟨htop, hat⟩ := topLevel_spec (fun i => (qdescAt k i).level) ((dirQueues up).filter (eligible k t))
  obtain ⟨j, hj, hlv⟩ := hat (List.ne_nil_of_mem hmem)
  have hbest : ((dirQueues up).filter (eligible k t)).filter (fun i => decide ((qdescAt k i).level =
      topLevel (fun i => (qdescAt k i).level) ((dirQueues up).filter (eligible k t)))) ≠ [] :=
    List.ne_nil_of_mem (List.mem_filter.2 ⟨hj, by simpa using hlv⟩)
  obtain ⟨q, n, hd, hq⟩ := dwrr_some
    (vget (if up then k.qs.cursorUs else k.qs.cursorDs) (topLevel (fun i => (qdescAt k i).level) ((dirQueues up).filter (eligible k t))) 0)
    (fun i => needRounds (vget k.qs.deficit i 0) (headLen k i) (quantum (qdescAt k i).weight)) hbest
  obtain ⟨hels, hql⟩ := List.mem_filter.1 hq
  obtain ⟨hdir, hqe⟩ := List.mem_filter.1 hels
  have hql' : (qdescAt k q).level = topLevel (fun i => (qdescAt k i).level) ((dirQueues up).filter (eligible k t)) := by simpa using hql
  have hpick : ∃ qs, pickQueue k up t = some (q, qs) ∧ qs.q = vset k.qs.q q (vget k.qs.q q []).tail ∧
      ((qdescAt k q).shape = true → qs.credit = vset k.qs.credit q (vget k.qs.credit q 0 - ((headLen k q * 8000 : Nat) : Int))) := by
    unfold pickQueue
    unfold dirQueues at hd
    simp only [hd]
    exact ⟨_, rfl, rfl, fun h => if_pos h⟩
  obtain ⟨qs, hp, hqq, hcredit⟩ := hpick
  exact ⟨q, qs, hp, hdir, hqe, fun x hx hxe => hql' ▸ htop x (List.mem_filter.2 ⟨hx, hxe⟩), hqq, hcredit⟩

/-! ### Placing a frame (R205) -/

/-- What placing bytes leaves: the other channels, the ledger, the datum and the uplink; and of its own channel the queues and their credit. -/
def PlaceKeeps (c : Nat) (s t : State) : Prop :=
  OnlyChan s t c ∧ t.ledger = s.ledger ∧ t.datum = s.datum ∧ t.upl = s.upl ∧
    (chanAt t c).qs.q = (chanAt s c).qs.q ∧ (chanAt t c).qs.credit = (chanAt s c).qs.credit

theorem PlaceKeeps.refl (c : Nat) (s : State) : PlaceKeeps c s s := ⟨.refl s c, rfl, rfl, rfl, rfl, rfl⟩

theorem PlaceKeeps.trans {c : Nat} {s t u : State} (h : PlaceKeeps c s t) (k : PlaceKeeps c t u) : PlaceKeeps c s u := by
  obtain ⟨ho, hl, hd, hu, hq, hc⟩ := h
  obtain ⟨ko, kl, kd, ku, kq, kc⟩ := k
  exact ⟨ho.trans ko, kl.trans hl, kd.trans hd, ku.trans hu, kq.trans hq, kc.trans hc⟩

theorem placeKeeps_of_chans {c : Nat} {s t : State} (hc : t.chans = s.chans) (hl : t.ledger = s.ledger) (hd : t.datum = s.datum)
    (hu : t.upl = s.upl) : PlaceKeeps c s t :=
  ⟨onlyChan_of_chans c hc, hl, hd, hu, by simp only [chanAt, hc], by simp only [chanAt, hc]⟩

theorem setChan_placeKeeps (c : Nat) (s : State) (f : Chan → Chan) (hq : ∀ k, (f k).qs.q = k.qs.q) (hc : ∀ k, (f k).qs.credit = k.qs.credit) :
    PlaceKeeps c s (setChan s c f) := by
  refine ⟨setChan_onlyChan _ _ _, rfl, rfl, rfl, ?_, ?_⟩ <;> rw [chanAt_setChan] <;> split <;> simp [hq, hc]

theorem raiseC_placeKeeps (c : Nat) (s : State) (src scope inc : Nat) : PlaceKeeps c s (raiseC s src scope inc) :=
  placeKeeps_of_chans (by simp) (by simp) (by simp) (by simp)

theorem ptpOut_placeKeeps (c : Nat) (s : State) (c' id : Nat) (b : List Byte) (ts : Option (Nat × Bool)) : PlaceKeeps c s (ptpOut s c' id b ts) := by
  unfold ptpOut
  split
  · exact .refl c s
  · split
    · exact .refl c s
    · split
      · exact placeKeeps_of_chans (by simp [ptpDone]) (by simp [ptpDone]) (by simp [ptpDone]) (by simp [ptpDone])
      · exact placeKeeps_of_chans rfl rfl rfl rfl

theorem frameEmitted_placeKeeps (c : Nat) (s : State) (f : Frame) : PlaceKeeps c s (frameEmitted s c f) := by
  have hmac (g : MacCnt → MacCnt) : PlaceKeeps c s (setMac s c g) := setChan_placeKeeps c s _ (fun _ => rfl) fun _ => rfl
  have hcount (g : MacCnt → MacCnt) : PlaceKeeps c s (raiseC (setMac s c g) Src.dsFrames c 1) :=
    (hmac g).trans (raiseC_placeKeeps _ _ _ _ _)
  unfold frameEmitted
  cases f.src with
  | work r q =>
    dsimp only
    split
    · exact (hcount _).trans (placeKeeps_of_chans (beginEmission_chans _ _ _ _) (beginEmission_ledger _ _ _ _)
        (beginEmission_datum _ _ _ _) (beginEmission_upl _ _ _ _))
    · exact hcount _
  | pause => exact .refl c s
  | line c' => exact (hcount _).trans (ptpOut_placeKeeps _ _ _ _ _ _)
  | uplink p => exact (hcount _).trans (ptpOut_placeKeeps _ _ _ _ _ _)

theorem countOverrun_placeKeeps (c : Nat) (s : State) : PlaceKeeps c s (countOverrun s c) := by
  unfold countOverrun
  split
  · refine .trans ?_ (raiseC_placeKeeps _ _ _ _ _)
    exact setChan_placeKeeps c s _ (fun _ => rfl) fun _ => rfl
  · exact .refl c s

theorem placeBytes_placeKeeps (c n : Nat) : ∀ s : State, PlaceKeeps c s (placeBytes n s c) := by
  induction n with
  | zero => exact .refl c
  | succ n ih =>
    intro s
    have hfr (t : State) (g : Framer → Framer) : PlaceKeeps c t (setFr t c g) := setChan_placeKeeps c t _ (fun _ => rfl) fun _ => rfl
    have hcur (t : State) (x : Option Frame) : PlaceKeeps c t (setQs t c (fun q => { q with cur := x })) :=
      setChan_placeKeeps c t _ (fun _ => rfl) fun _ => rfl
    unfold placeBytes
    dsimp only
    split
    · split
      · exact .refl c s
      · split
        · exact .refl c s
        · split
          · exact ((hfr _ _).trans (hcur _ _)).trans ((frameEmitted_placeKeeps c _ _).trans ((countOverrun_placeKeeps c _).trans (ih _)))
          · exact (hfr _ _).trans (hcur _ _)
    · split
      · exact .refl c s
      · split
        · exact .refl c s
        · refine .trans ?_ (ih _)
          exact setChan_placeKeeps c s _ (fun _ => rfl) fun _ => rfl

/-! ### Selections -/

section
variable {s : State} {c : Nat} {m : MacSect} (hs : serving s c = true) (hm : (chanAt s c).tab.mac = some m) (htx : m.txEn = false)
  (hcur : (chanAt s c).qs.cur = none) (hpause : (chanAt s c).qs.pauseTx = [])
include hs hm htx hcur hpause

/-- A downstream selection on a channel that does not protect, with no frame in progress. -/
theorem selectDown_unprotected {p : Nat} {q : Nat} {qs : Queues} {f : Frame} {rest : List Frame}
    (hpick : pickQueue (chanAt s c) false s.datum = some (q, qs)) (hq : vget (chanAt s c).qs.q q [] = f :: rest) :
    selectDown s c p = if q ≠ p then s else
      placeAll (setQs s c (fun _ => { qs with cur := some { f with placed := 0 }, plain := f.bytes, overrunArmed := false })) c := by
  have hwants : wantsCore s c = false := by simp [wantsCore, hm, htx]
  have hprot : mayProtect s c = true := by simp [mayProtect, hm, htx]
  simp [selectDown, hs, hcur, hpause, hprot, coreTurn, hwants, hpick, hq, takeCore, macOut, hm, htx]

end

theorem selectDown_none {s : State} {c : Nat} (p : Nat) (h : pickQueue (chanAt s c) false s.datum = none) : selectDown s c p = s := by
  simp [selectDown, h]

theorem selectUp_none {s : State} {c : Nat} (p : Nat) (h : pickQueue (chanAt s c) true s.datum = none) : selectUp s c p = s := by
  simp [selectUp, h]

theorem selectUp_some {s : State} {c p q : Nat} {qs : Queues} {f : Frame} {rest : List Frame} (hs : serving s c = true)
    (hpick : pickQueue (chanAt s c) true s.datum = some (q, qs)) (hq : vget (chanAt s c).qs.q q [] = f :: rest) :
    selectUp s c p = if q ≠ p + 8 then s else pauseCheck (releaseUp (setQs s c (fun _ => qs)) c f) c := by
  simp [selectUp, hs, hpick, hq]

/-! ### An upstream frame released (R201, R206) -/

theorem sendPause_placeKeeps (c : Nat) (s : State) (m : MacSect) (ens q : Nat) : PlaceKeeps c s (sendPause s c m ens q) := by
  have hqs (t : State) (x : List (List Byte)) : PlaceKeeps c t (setQs t c (fun q => { q with pauseTx := q.pauseTx ++ x })) :=
    setChan_placeKeeps c t _ (fun _ => rfl) fun _ => rfl
  have hmac (t : State) (g : MacCnt → MacCnt) : PlaceKeeps c t (setMac t c g) := setChan_placeKeeps c t _ (fun _ => rfl) fun _ => rfl
  unfold sendPause
  exact ((hqs _ _).trans (hmac _ _)).trans (raiseC_placeKeeps _ _ _ _ _)

theorem pauseCheck_placeKeeps (c : Nat) (s : State) : PlaceKeeps c s (pauseCheck s c) := by
  have hsend (p : Prop) [Decidable p] (t : State) (m : MacSect) (ens q : Nat) : PlaceKeeps c t (if p then t else sendPause t c m ens q) := by
    split
    · exact .refl c t
    · exact sendPause_placeKeeps _ _ _ _ _
  unfold pauseCheck
  split
  · exact .refl c s
  · dsimp only
    split
    · exact .refl c s
    · exact ((hsend _ s _ _ _).trans (hsend _ _ _ _ _)).trans (setChan_placeKeeps c _ _ (fun _ => rfl) fun _ => rfl)

/-- What the release of a frame leaves, and where the frame goes. -/
theorem releaseUp_spec (s : State) {c : Nat} (hc : c < 24) (f : Frame) :
    let t := releaseUp s c f
    OnlyChan s t c ∧ t.rings = s.rings ∧ t.journal = s.journal ∧ t.datum = s.datum ∧ (chanAt t c).qs = (chanAt s c).qs ∧
      (f.dest = .rxh → (chanAt t c).hostRx = (chanAt s c).hostRx ++ [f]) ∧
      (∀ k, k < 64 → f.dest = .tcont k →
        vget t.upl.tcont k [] = vget s.upl.tcont k [] ++ [{ f with entered := s.datum }] ∧ t.upl.ponMode = .awake) ∧
      (f.dest = .excRx → t.xc.excRx = s.xc.excRx ++ [f]) := by
  intro t
  have hexc (h : ∀ q, f.dest ≠ .tcont q) (h' : f.dest ≠ .rxh) : t = { s with xc := { s.xc with excRx := s.xc.excRx ++ [f] } } := by
    simp only [t, releaseUp]
  cases hd : f.dest with
  | tcont q =>
    have ht : t = enqueueTcont s q f := by simp only [t, releaseUp, hd]
    have hpon : (ponWake s).upl.tcont = s.upl.tcont ∧ (ponWake s).upl.ponMode = .awake := by
      unfold ponWake
      dsimp only
      split
      · exact ⟨by rw [leaveSleep_upl], rfl⟩
      · exact ⟨rfl, rfl⟩
    rw [ht]
    refine ⟨onlyChan_of_chans c (ponWake_chans s), ponWake_rings s, ponWake_journal s, ponWake_datum s,
      by simp only [enqueueTcont, chanAt, ponWake_chans], fun h => by simp at h, fun k hk h => ?_, fun h => by simp at h⟩
    obtain rfl : q = k := by simpa using h
    refine ⟨?_, hpon.2⟩
    simp only [enqueueTcont, hpon.1, ponWake_datum, hd]
    exact vget_vset_self _ _ _ _ hk
  | rxh =>
    have ht : t = setChan s c (fun k => { k with hostRx := k.hostRx ++ [f] }) := by simp only [t, releaseUp, hd]
    rw [ht]
    have hself : chanAt (setChan s c (fun k => { k with hostRx := k.hostRx ++ [f] })) c =
        { chanAt s c with hostRx := (chanAt s c).hostRx ++ [f] } := chanAt_setChan_self _ _ _ hc
    exact ⟨setChan_onlyChan _ _ _, rfl, rfl, rfl, by rw [hself], fun _ => by rw [hself], fun _ _ h => by simp at h, fun h => by simp at h⟩
  | line =>
    have ht := hexc (by simp [hd]) (by simp [hd])
    rw [ht]
    exact ⟨.refl s c, rfl, rfl, rfl, rfl, fun h => by simp at h, fun _ _ h => by simp at h, fun h => by simp at h⟩
  | mgmtRx =>
    have ht := hexc (by simp [hd]) (by simp [hd])
    rw [ht]
    exact ⟨.refl s c, rfl, rfl, rfl, rfl, fun h => by simp at h, fun _ _ h => by simp at h, fun h => by simp at h⟩
  | excRx =>
    have ht := hexc (by simp [hd]) (by simp [hd])
    rw [ht]
    exact ⟨.refl s c, rfl, rfl, rfl, rfl, fun h => by simp at h, fun _ _ h => by simp at h, fun _ => rfl⟩

/-- An upstream selection of the queue the scheduler comes to. -/
theorem selectUp_spec {s : State} {c : Nat} (hc : c < 24) (qs : Queues) (f : Frame) :
    let t := pauseCheck (releaseUp (setQs s c (fun _ => qs)) c f) c
    OnlyChan s t c ∧ t.rings = s.rings ∧ t.journal = s.journal ∧ t.datum = s.datum ∧ (chanAt t c).qs.q = qs.q ∧
      (f.dest = .rxh → (chanAt t c).hostRx = (chanAt s c).hostRx ++ [f]) ∧
      (∀ k, k < 64 → f.dest = .tcont k →
        vget t.upl.tcont k [] = vget s.upl.tcont k [] ++ [{ f with entered := s.datum }] ∧ t.upl.ponMode = .awake) ∧
      (f.dest = .excRx → t.xc.excRx = s.xc.excRx ++ [f]) := by
  have hself : chanAt (setQs s c (fun _ => qs)) c = { chanAt s c with qs := qs } := chanAt_setChan_self _ _ _ hc
  obtain ⟨ho, hr, hj, hd, hq, hrx, htc, hex⟩ := releaseUp_spec (setQs s c (fun _ => qs)) hc f
  obtain ⟨ko, -, kd, ku, kq, -⟩ := pauseCheck_placeKeeps c (releaseUp (setQs s c (fun _ => qs)) c f)
  obtain ⟨kj, -, kx, krx, -⟩ := pauseCheck_keepsWaiting (releaseUp (setQs s c (fun _ => qs)) c f) c
  have hqs : OnlyChan s (setQs s c (fun _ => qs)) c := setChan_onlyChan _ _ _
  intro t
  refine ⟨(hqs.trans ho).trans ko, (pauseCheck_rings _ _).trans hr, kj.trans hj, kd.trans hd, ?_, fun h => ?_, fun k hk h => ?_, fun h => ?_⟩
  · rw [kq, hq, hself]
  · rw [krx, hrx h, hself]
  · simp only [t]
    rw [ku]
    exact htc k hk h
  · simp only [t]
    rw [kx]
    exact hex h

/-! ### The refill (R207, R208) -/

theorem serving_iff (s : State) (c : Nat) : serving s c = true ↔ (chanAt s c).tab.state = .service ∨ (chanAt s c).tab.state = .economy := by
  simp [serving]

theorem tickChan_keeps (k : Chan) : (tickChan k).tab.pendQueues = none ∧ (tickChan k).qs.q = k.qs.q ∧ (tickChan k).line = k.line ∧
    (∀ v, k.tab.pendQueues = some v → (tickChan k).tab.queues = v) := by
  have happly : (applyQueues k).tab.pendQueues = none ∧ (applyQueues k).qs.q = k.qs.q ∧ (applyQueues k).line = k.line ∧
      (∀ v, k.tab.pendQueues = some v → (applyQueues k).tab.queues = v) := by
    unfold applyQueues
    cases hp : k.tab.pendQueues with
    | none => exact ⟨hp, rfl, rfl, fun v h => by simp at h⟩
    | some v => exact ⟨rfl, rfl, rfl, fun v' h => by simpa using h⟩
  unfold tickChan
  dsimp only
  split
  · exact happly
  · exact happly

theorem tickChan_credit {k : Chan} (hp : k.tab.pendQueues = none) (hs : k.tab.state = .service ∨ k.tab.state = .economy) {i : Nat} (hi : i < 16) :
    vget (tickChan k).qs.credit i 0 = if (qdescAt k i).shape then min (vget k.qs.credit i 0 + ((qdescAt k i).cir : Int)) (creditCap (qdescAt k i))
      else vget k.qs.credit i 0 := by
  have happly : applyQueues k = k := by simp only [applyQueues, hp]
  unfold tickChan
  rw [happly, if_pos hs]
  unfold refill
  rw [vget_vmapIdx _ _ _ _ (0 : Int), if_pos hi]

/-- A channel after every channel is mapped. -/
theorem chanAt_vmapIdx {s t : State} {f : Nat → Chan → Chan} (h : t.chans = vmapIdx f s.chans) {c : Nat} (hc : c < 24) :
    chanAt t c = f c (chanAt s c) := by
  simp only [chanAt, h]
  rw [vget_vmapIdx _ _ _ _ (Chan.reset false), if_pos hc]

/-! ### Samples (R216) -/

/-- A bin of a channel's histograms. -/
def binAt (h : Vector (Vector Word 16) 32) (i b : Nat) : Nat := (vget (vget h i (Vector.replicate 16 0)) b 0).toNat

/-- A bin after a sample: the sample's bin rises, saturating. -/
def bumped (hit : Bool) (n : Nat) : Nat := if hit then min 0xFFFFFFFF (n + 1) else n

theorem histBin_lt (v : Nat) : histBin v < 16 := by unfold histBin; split <;> omega

theorem binAt_histAdd (h : Vector (Vector Word 16) 32) {row : Nat} (hrow : row < 32) (v i b : Nat) :
    binAt (histAdd h row v) i b = bumped (decide (i = row ∧ b = histBin v)) (binAt h i b) := by
  unfold binAt histAdd bumped
  dsimp only
  by_cases hi : i = row
  · subst hi
    rw [vget_vset_self _ _ _ _ hrow]
    by_cases hb : b = histBin v
    · subst hb
      rw [vget_vset_self _ _ _ _ (histBin_lt v)]
      simp only [word, satAdd, and_self, decide_true, if_true, BitVec.toNat_ofNat]
      omega
    · rw [vget_vset_ne _ _ _ _ _ hb]
      simp [hb]
  · rw [vget_vset_ne _ _ _ _ _ hi]
    simp [hi]

/-- The sample that row i of the histograms takes. -/
def sampleOf (now : Nat) (k : Chan) (i : Nat) : Nat :=
  if i < 16 then frameCells (vget k.qs.q i []) else holDelay now (vget k.qs.q (i - 16) [])

/-- Each row takes its own sample once. -/
theorem binAt_samples (now : Nat) (k : Chan) (h : Vector (Vector Word 16) 32) (n : Nat) (hn : n ≤ 16) (i b : Nat) :
    binAt ((List.range n).foldl (fun h i =>
      histAdd (histAdd h i (frameCells (vget k.qs.q i []))) (16 + i) (holDelay now (vget k.qs.q i []))) h) i b =
      bumped (decide ((i < n ∨ 16 ≤ i ∧ i < 16 + n) ∧ b = histBin (sampleOf now k i))) (binAt h i b) := by
  induction n with
  | zero =>
    have : ¬ (i < 0 ∨ 16 ≤ i ∧ i < 16 + 0) := by omega
    simp only [this, bumped, false_and, decide_false, Bool.false_eq_true, if_false, List.range_zero, List.foldl_nil]
  | succ n ih =>
    rw [List.range_succ, List.foldl_append, List.foldl_cons, List.foldl_nil, binAt_histAdd _ (by omega), binAt_histAdd _ (by omega),
      ih (by omega)]
    have hocc : sampleOf now k n = frameCells (vget k.qs.q n []) := if_pos (by omega)
    have hhol : sampleOf now k (16 + n) = holDelay now (vget k.qs.q n []) := by
      rw [sampleOf, if_neg (by omega), Nat.add_sub_cancel_left]
    by_cases h1 : i = n
    · subst h1
      have ha : ¬ (i = 16 + i) := by omega
      have hb : ¬ (i < i ∨ 16 ≤ i ∧ i < 16 + i) := by omega
      have hc : i < i + 1 ∨ 16 ≤ i ∧ i < 16 + (i + 1) := by omega
      simp only [ha, hb, hc, hocc, bumped, false_and, true_and, decide_false, Bool.false_eq_true, if_false]
    · by_cases h2 : i = 16 + n
      · subst h2
        have ha : ¬ (16 + n = n) := by omega
        have hb : ¬ (16 + n < n ∨ 16 ≤ 16 + n ∧ 16 + n < 16 + n) := by omega
        have hc : 16 + n < n + 1 ∨ 16 ≤ 16 + n ∧ 16 + n < 16 + (n + 1) := by omega
        simp only [ha, hb, hc, hhol, bumped, false_and, true_and, decide_false, Bool.false_eq_true, if_false]
      · have hiff : (i < n + 1 ∨ 16 ≤ i ∧ i < 16 + (n + 1)) ↔ (i < n ∨ 16 ≤ i ∧ i < 16 + n) := by omega
        simp only [h1, h2, hiff, bumped, false_and, decide_false, Bool.false_eq_true, if_false]

theorem sampleChan_of_not_serving {k : Chan} (now : Nat) (h : ¬ (k.tab.state = .service ∨ k.tab.state = .economy)) : sampleChan now k = k := if_neg h

theorem sampleChan_keeps (now : Nat) (k : Chan) : (sampleChan now k).tab = k.tab ∧ (sampleChan now k).qs.q = k.qs.q := by
  unfold sampleChan
  split <;> exact ⟨rfl, rfl⟩

theorem binAt_sampleChan {k : Chan} (now : Nat) (h : k.tab.state = .service ∨ k.tab.state = .economy) {i : Nat} (hi : i < 32) (b : Nat) :
    binAt (sampleChan now k).qs.hist i b = bumped (decide (b = histBin (sampleOf now k i))) (binAt k.qs.hist i b) := by
  have hrows : i < 16 ∨ 16 ≤ i ∧ i < 16 + 16 := by omega
  rw [sampleChan, if_pos h]
  simp only [binAt_samples now k _ 16 (Nat.le_refl _), hrows, true_and]

theorem hist_cleared (i b : Nat) : vget (vget (Vector.replicate 32 (Vector.replicate 16 (0 : Word))) i (Vector.replicate 16 0)) b 0 = 0 := by
  have hrow : vget (Vector.replicate 32 (Vector.replicate 16 (0 : Word))) i (Vector.replicate 16 0) = Vector.replicate 16 0 := by
    by_cases hi : i < 32
    · exact vget_replicate _ _ _ hi
    · exact vget_past _ _ _ hi
  rw [hrow]
  by_cases hb : b < 16
  · exact vget_replicate _ _ _ hb
  · exact vget_past _ _ _ hb

/-- Settles O27: the two selections, eligibility without a list, the refill, the samples and their clearing. -/
theorem queuesServedAndShaped : Obligations.QueuesServedAndShaped := by
  unfold Obligations.QueuesServedAndShaped
  refine ⟨fun s c m hs hm => ⟨fun htx hcur hpause => ⟨fun p => ?_, fun i hi he => ?_⟩, fun hcur p => ?_, fun p => ?_, fun i h8 h16 he => ?_⟩,
    fun k t i h => eligible_of_no_list h t i, fun s => ⟨fun h => ?_, fun h => ?_, fun h => ?_, fun h => ?_, fun who c hreach hp => ?_⟩⟩
  · refine ⟨selectDown s c.val p.val, rfl, ?_⟩
    by_cases hany : ∃ i, i < 8 ∧ eligible (chanAt s c.val) s.datum i = true
    · obtain ⟨i, hi, he⟩ := hany
      obtain ⟨q, qs, hpick, -, hqe, -, -, -⟩ := pickQueue_some (up := false) (mem_dirQueues_down.2 hi) he
      obtain ⟨f, rest, hq⟩ := head_of_eligible hqe
      rw [selectDown_unprotected hs hm htx hcur hpause hpick hq]
      split
      · exact ⟨.refl _ _, rfl, rfl, rfl, fun h => absurd he (by simp [h i hi])⟩
      · obtain ⟨ho, hl, hd, hu, -, -⟩ := placeBytes_placeKeeps c.val 300
          (setQs s c.val (fun _ => { qs with cur := some { f with placed := 0 }, plain := f.bytes, overrunArmed := false }))
        have hset : OnlyChan s (setQs s c.val (fun _ => { qs with cur := some { f with placed := 0 }, plain := f.bytes, overrunArmed := false })) c.val :=
          setChan_onlyChan _ _ _
        exact ⟨hset.trans ho, hl, hd, hu, fun h => absurd he (by simp [h i hi])⟩
    · have hnone : pickQueue (chanAt s c.val) false s.datum = none := pickQueue_none fun i hi => by
        simpa using fun he => hany ⟨i, mem_dirQueues_down.1 hi, he⟩
      rw [selectDown_none _ hnone]
      exact ⟨.refl _ _, rfl, rfl, rfl, fun _ => rfl⟩
  · obtain ⟨q, qs, hpick, hdir, hqe, hlv, hqq, hcredit⟩ := pickQueue_some (up := false) (mem_dirQueues_down.2 hi) he
    obtain ⟨f, rest, hq⟩ := head_of_eligible hqe
    have hq8 : q < 8 := mem_dirQueues_down.1 hdir
    have hop (p : Fin 8) : exec (.schedulerSelect c .ds p) s = .next (selectDown s c.val p.val) := rfl
    have hself : chanAt (setQs s c.val (fun _ => { qs with cur := some { f with placed := 0 }, plain := f.bytes, overrunArmed := false })) c.val =
        { chanAt s c.val with qs := { qs with cur := some { f with placed := 0 }, plain := f.bytes, overrunArmed := false } } :=
      chanAt_setChan_self _ _ _ c.isLt
    obtain ⟨-, -, -, -, kq, kc⟩ := placeBytes_placeKeeps c.val 300
      (setQs s c.val (fun _ => { qs with cur := some { f with placed := 0 }, plain := f.bytes, overrunArmed := false }))
    rw [hself] at kq kc
    refine ⟨⟨q, hq8⟩, f, rest, selectDown s c.val q, hop _, fun p hne => ?_, hqe, hlv i (mem_dirQueues_down.2 hi) he, hq, ?_⟩
    · rw [hop, selectDown_unprotected hs hm htx hcur hpause hpick hq, if_pos (fun h => hne (Fin.ext h.symm))]
    · rw [selectDown_unprotected hs hm htx hcur hpause hpick hq, if_neg (by simp), placeAll, kq, kc, hqq, hq]
      refine ⟨vget_vset_self _ _ _ _ (by omega), fun j hj => vget_vset_ne _ _ _ _ _ hj, fun hshape => ?_⟩
      rw [hcredit hshape, vget_vset_self _ _ _ _ (by omega), headLen, hq]
  · have hop : exec (.schedulerSelect c .ds p) s = .next (selectDown s c.val p.val) := rfl
    rw [hop]
    simp [selectDown, hcur]
  · refine ⟨selectUp s c.val p.val, rfl, ?_⟩
    by_cases hany : ∃ i, (8 ≤ i ∧ i < 16) ∧ eligible (chanAt s c.val) s.datum i = true
    · obtain ⟨i, hi, he⟩ := hany
      obtain ⟨q, qs, hpick, -, hqe, -, -, -⟩ := pickQueue_some (up := true) (mem_dirQueues_up.2 hi) he
      obtain ⟨f, rest, hq⟩ := head_of_eligible hqe
      rw [selectUp_some hs hpick hq]
      split
      · exact ⟨.refl _ _, rfl, rfl, rfl, fun h => absurd he (by simp [h i hi.1 hi.2])⟩
      · obtain ⟨ho, hr, hj, hd, -⟩ := selectUp_spec (s := s) c.isLt qs f
        exact ⟨ho, hr, hj, hd, fun h => absurd he (by simp [h i hi.1 hi.2])⟩
    · have hnone : pickQueue (chanAt s c.val) true s.datum = none := pickQueue_none fun i hi => by
        simpa using fun he => hany ⟨i, mem_dirQueues_up.1 hi, he⟩
      rw [selectUp_none _ hnone]
      exact ⟨.refl _ _, rfl, rfl, rfl, fun _ => rfl⟩
  · obtain ⟨q, qs, hpick, hdir, hqe, hlv, hqq, -⟩ := pickQueue_some (up := true) (mem_dirQueues_up.2 ⟨h8, h16⟩) he
    obtain ⟨f, rest, hq⟩ := head_of_eligible hqe
    obtain ⟨hq8, hq16⟩ := mem_dirQueues_up.1 hdir
    have hop (p : Fin 8) : exec (.schedulerSelect c .us p) s = .next (selectUp s c.val p.val) := rfl
    obtain ⟨-, -, -, -, kq, hrx, htc, hex⟩ := selectUp_spec (s := s) c.isLt qs f
    have hq' : q - 8 + 8 = q := by omega
    refine ⟨⟨q - 8, by omega⟩, f, rest, selectUp s c.val (q - 8), hop _, fun p hne => ?_, ?_⟩
    · rw [hop, selectUp_some hs hpick hq, if_pos (fun h => hne (Fin.ext (by simp only; omega)))]
    · simp only [hq']
      rw [selectUp_some hs hpick hq, if_neg (by omega), kq, hqq, hq]
      exact ⟨hlv i (mem_dirQueues_up.2 ⟨h8, h16⟩) he, rfl, vget_vset_self _ _ _ _ hq16, hrx, htc, hex⟩
  · simp [exec, execRefillTick, h]
  · refine ⟨{ s with chans := vmapIdx (fun _ k => tickChan k) s.chans }, by simp [exec, execRefillTick, h], rfl, fun c hc => ?_⟩
    have hchan := chanAt_vmapIdx (s := s) (t := { s with chans := vmapIdx (fun _ k => tickChan k) s.chans }) (f := fun _ k => tickChan k) rfl hc
    rw [hchan]
    obtain ⟨hpend, hq, hline, hv⟩ := tickChan_keeps (chanAt s c)
    exact ⟨hpend, hv, fun hp hs i hi => tickChan_credit hp ((serving_iff s c).1 hs) hi, hq, hline⟩
  · simp [exec, execHistogramSample, h]
  · refine ⟨{ s with chans := vmapIdx (fun _ k => sampleChan s.datum k) s.chans }, by simp [exec, execHistogramSample, h], rfl, fun c hc => ?_⟩
    have hchan := chanAt_vmapIdx (s := s) (t := { s with chans := vmapIdx (fun _ k => sampleChan s.datum k) s.chans })
      (f := fun _ k => sampleChan s.datum k) rfl hc
    rw [hchan]
    obtain ⟨htab, hq⟩ := sampleChan_keeps s.datum (chanAt s c)
    refine ⟨fun hs => sampleChan_of_not_serving _ (fun h => by rw [(serving_iff s c).2 h] at hs; simp at hs), fun hs => ⟨htab, hq, fun i b v _ hv => ?_⟩⟩
    have hv' : i < 32 ∧ v = sampleOf s.datum (chanAt s c) i := by
      rcases hv with ⟨hi, hv⟩ | ⟨hi, hi', hv⟩
      · exact ⟨by omega, by rw [sampleOf, if_pos hi, hv]⟩
      · exact ⟨hi', by rw [sampleOf, if_neg (by omega), hv]⟩
    have hbin := binAt_sampleChan s.datum ((serving_iff s c).1 hs) hv'.1 b
    simp only [binAt, bumped, decide_eq_true_eq] at hbin
    rw [hv'.2]
    exact hbin
  · refine ⟨clearHist s c.val, by simp [exec, execHistClr, hreach, hp], rfl, setChan_onlyChan _ _ _, ?_⟩
    have hself : chanAt (clearHist s c.val) c.val = { chanAt s c.val with qs := { (chanAt s c.val).qs with hist := Vector.replicate 32 (Vector.replicate 16 0) } } :=
      chanAt_setChan_self _ _ _ c.isLt
    rw [hself]
    exact ⟨rfl, hist_cleared⟩

end Sys2Proof.Machine

/-! # The datum disciplined

Loads, comparisons, averages, holdover and PPS_IN: each moves the datum, the time block and, through an event, the event block alone. -/

namespace Sys2Proof.Machine

open Sys2Proof

/-- What the datum's own operations may move: the datum, the time block, the duty governor's windows, and what an occurrence moves. -/
def TimeFrame (s t : State) : Prop :=
  t = { s with datum := t.datum, time := t.time, hif := t.hif, rad := t.rad, evt := t.evt, sent := t.sent }

theorem TimeFrame.trans {s t u : State} (h : TimeFrame s t) (h' : TimeFrame t u) : TimeFrame s u := by
  unfold TimeFrame at h h' ⊢
  rw [h', h]

theorem EvtOnly.timeFrame {s t : State} (h : EvtOnly s t) : TimeFrame s t := by
  rw [h.frame]
  rfl

theorem timeFrame_time (s : State) (x : Time) : TimeFrame s { s with time := x } := rfl

theorem moveDatum_frame (s : State) (d : Int) : TimeFrame s (moveDatum s d) := rfl

/-! ### The state of the datum -/

theorem setTimeState_evtOnly (s : State) (st : TimeSt) : EvtOnly { s with time := { s.time with st := st } } (setTimeState s st) := by
  unfold setTimeState
  split
  next h =>
    subst h
    rfl
  · exact raise_evtOnly _ _ _ _

theorem setTimeState_time_eq (s : State) (st : TimeSt) : (setTimeState s st).time = { s.time with st := st } :=
  (setTimeState_evtOnly s st).time

theorem setTimeState_datum_eq (s : State) (st : TimeSt) : (setTimeState s st).datum = s.datum :=
  (setTimeState_evtOnly s st).datum

theorem setTimeState_frame (s : State) (st : TimeSt) : TimeFrame s (setTimeState s st) :=
  (timeFrame_time s _).trans (setTimeState_evtOnly s st).timeFrame

theorem evtOnly_framed (s : State) (x : Time) {t : State} (h : EvtOnly { s with time := x } t) :
    t = { s with time := t.time, hif := t.hif, evt := t.evt, sent := t.sent } := by
  have ht : t.time = x := h.time
  rw [ht]
  exact h.frame

theorem setTimeState_framed (s : State) (x : Time) (st : TimeSt) :
    setTimeState { s with time := x } st = { s with
      time := (setTimeState { s with time := x } st).time
      hif := (setTimeState { s with time := x } st).hif
      evt := (setTimeState { s with time := x } st).evt
      sent := (setTimeState { s with time := x } st).sent } :=
  evtOnly_framed s _ (setTimeState_evtOnly { s with time := x } st)

theorem setTimeState_sent (s : State) (st : TimeSt) : s.sent <:+ (setTimeState s st).sent := by
  unfold setTimeState
  split
  · exact List.suffix_rfl
  · refine List.IsSuffix.trans ?_ (raise_sent _ _ _ _)
    exact List.suffix_rfl

/-! ### An offset applied (R221) -/

/-- The time block after an offset that is slewed out. -/
def Time.slewed (t : Time) (e : Int) (far : Bool) : Time :=
  { (t.noAverage.slewTo e) with offset := offsetReg e, goodAvgs := 0, far := far, st := .slewing }

/-- The time block after an offset that moves the datum at once. -/
def Time.moved (t : Time) (e : Int) : Time :=
  { t.noAverage with
    offset := offsetReg e, goodAvgs := 0, valid := false, validNext := true, ppsOut := false
    slew := 0, slewRate := 0, slewKeep := false, stepped := BitVec.allOnes 24, st := .slewing }

theorem applyOffset_frame (s : State) (e : Int) (first : Bool) : TimeFrame s (applyOffset s e first) := by
  unfold applyOffset
  dsimp only
  split
  · exact ((timeFrame_time s _).trans (moveDatum_frame _ _)).trans (setTimeState_frame _ _)
  split
  · exact (timeFrame_time s _).trans (setTimeState_frame _ _)
  split
  · exact (((timeFrame_time s _).trans (moveDatum_frame _ _)).trans (raise_evtOnly _ _ _ _).timeFrame).trans (setTimeState_frame _ _)
  · exact (timeFrame_time s _).trans (setTimeState_frame _ _)

theorem moveDatum_sent (s : State) (d : Int) : s.sent <:+ (moveDatum s d).sent := List.suffix_rfl

theorem applyOffset_within {s : State} {e : Int} (h : beyondLimit s e = false) :
    (applyOffset s e false).time = s.time.slewed e false ∧ (applyOffset s e false).datum = s.datum := by
  unfold applyOffset
  simp [h, setTimeState_time_eq, setTimeState_datum_eq, Time.slewed, Time.slewTo, Time.noAverage]

theorem applyOffset_far {s : State} {e : Int} (h : beyondLimit s e = true) (hs : s.time.stepEn = false) :
    (applyOffset s e false).time = s.time.slewed e true ∧ (applyOffset s e false).datum = s.datum := by
  unfold applyOffset
  simp [h, hs, setTimeState_time_eq, setTimeState_datum_eq, Time.slewed, Time.slewTo, Time.noAverage]

theorem applyOffset_step {s : State} {e : Int} (h : beyondLimit s e = true) (hs : s.time.stepEn = true) :
    (applyOffset s e false).time = { s.time.moved e with far := false } ∧
      (applyOffset s e false).datum = toDatum ((s.datum : Int) + e) := by
  unfold applyOffset
  simp [h, hs, setTimeState_time_eq, setTimeState_datum_eq, Time.moved, Time.noAverage, moveDatum]

theorem applyOffset_first (s : State) (e : Int) :
    (applyOffset s e true).time = s.time.moved e ∧ (applyOffset s e true).datum = toDatum ((s.datum : Int) + e) := by
  unfold applyOffset
  simp [setTimeState_time_eq, setTimeState_datum_eq, Time.moved, Time.noAverage, moveDatum]

theorem applyOffset_sent (s : State) (e : Int) (first : Bool) : s.sent <:+ (applyOffset s e first).sent := by
  unfold applyOffset
  dsimp only
  split
  · refine List.IsSuffix.trans ?_ (setTimeState_sent _ _)
    refine List.IsSuffix.trans ?_ (moveDatum_sent _ _)
    exact List.suffix_rfl
  split
  · refine List.IsSuffix.trans ?_ (setTimeState_sent _ _)
    exact List.suffix_rfl
  split
  · refine List.IsSuffix.trans ?_ (setTimeState_sent _ _)
    refine List.IsSuffix.trans ?_ (raise_sent _ _ _ _)
    refine List.IsSuffix.trans ?_ (moveDatum_sent _ _)
    exact List.suffix_rfl
  · refine List.IsSuffix.trans ?_ (setTimeState_sent _ _)
    exact List.suffix_rfl

/-- The time block's parts that neither an offset nor a comparison touches: the load's status, the reference's kind and PPS_IN's capture. -/
def Time.KeepsLoad (x y : Time) : Prop :=
  y.todStatus = x.todStatus ∧ y.refKind = x.refKind ∧ y.ppsInUnread = x.ppsInUnread ∧ y.ppsInSec = x.ppsInSec ∧
    y.ppsInNs = x.ppsInNs ∧ y.ppsInOvr = x.ppsInOvr

theorem applyOffset_keepsLoad (s : State) (e : Int) (first : Bool) : s.time.KeepsLoad (applyOffset s e first).time := by
  cases first with
  | true =>
    rw [(applyOffset_first s e).1]
    exact ⟨rfl, rfl, rfl, rfl, rfl, rfl⟩
  | false =>
    cases hb : beyondLimit s e with
    | false =>
      rw [(applyOffset_within hb).1]
      exact ⟨rfl, rfl, rfl, rfl, rfl, rfl⟩
    | true =>
      cases hs : s.time.stepEn with
      | false =>
        rw [(applyOffset_far hb hs).1]
        exact ⟨rfl, rfl, rfl, rfl, rfl, rfl⟩
      | true =>
        rw [(applyOffset_step hb hs).1]
        exact ⟨rfl, rfl, rfl, rfl, rfl, rfl⟩

/-! ### Comparisons (R223) -/

theorem takeErr_fresh (x : Time) (e : Int) : x.takeErr e false = { x with errSum := e, errCount := 1 } := by
  simp [Time.takeErr]

theorem takeErr_follows {x : Time} (e : Int) (h : x.errCount ≠ 63) :
    x.takeErr e true = { x with errSum := x.errSum + e, errCount := x.errCount + 1 } := by
  simp only [Time.takeErr, if_true]
  rw [if_neg (by omega)]

theorem takeErr_full {x : Time} (e : Int) (h : x.errCount = 63) :
    x.takeErr e true = { x with errSum := 0, errCount := 0, avgDue := some (x.errSum + e) } := by
  simp [Time.takeErr, h]

theorem takeErr_frame (x : Time) (e : Int) (follows : Bool) :
    x.takeErr e follows = { x with
      errSum := (x.takeErr e follows).errSum
      errCount := (x.takeErr e follows).errCount
      avgDue := (x.takeErr e follows).avgDue } := by
  cases follows with
  | false => rw [takeErr_fresh]
  | true =>
    by_cases h : x.errCount = 63
    · rw [takeErr_full e h]
    · rw [takeErr_follows e h]

theorem takeErr_keepsLoad (x : Time) (e : Int) (follows : Bool) : x.KeepsLoad (x.takeErr e follows) := by
  rw [takeErr_frame]
  exact ⟨rfl, rfl, rfl, rfl, rfl, rfl⟩

theorem compareErr_frame (s : State) (e : Int) (follows : Bool) : TimeFrame s (compareErr s e follows) := by
  unfold compareErr
  dsimp only
  split
  · exact (timeFrame_time s _).trans (setTimeState_frame _ _)
  · exact timeFrame_time s _

theorem compareErr_sent (s : State) (e : Int) (follows : Bool) : s.sent <:+ (compareErr s e follows).sent := by
  unfold compareErr
  dsimp only
  split
  · refine List.IsSuffix.trans ?_ (setTimeState_sent _ _)
    exact List.suffix_rfl
  · exact List.suffix_rfl

theorem compareErr_keepsLoad (s : State) (e : Int) (follows : Bool) : s.time.KeepsLoad (compareErr s e follows).time := by
  unfold compareErr
  dsimp only
  split
  · rw [setTimeState_time_eq]
    exact takeErr_keepsLoad _ _ _
  · exact takeErr_keepsLoad _ _ _

theorem compareErr_tracking {s : State} (h : s.time.st ≠ .holdover) (e : Int) (follows : Bool) :
    compareErr s e follows = { s with time := s.time.takeErr e follows } := by
  simp [compareErr, h]

/-! ### Loads and PSBds (R220) -/

theorem todLoadOp_superframe (s : State) :
    EvtOnly { s with time := { s.time with todKind := false, todStatus := (todLoadOp s false).time.todStatus } } (todLoadOp s false) := by
  unfold todLoadOp
  simp only [Bool.false_eq_true, if_false]
  split
  · rfl
  split
  · rfl
  · unfold loadLate
    simpa using raise_evtOnly _ _ _ _

theorem todLoadOp_status (s : State) : (todLoadOp s false).time.todStatus =
    if s.upl.gate ≠ .ranged then .rejected
    else if 1 ≤ (s.time.todN - word s.upl.superframe.toNat).toNat ∧ (s.time.todN - word s.upl.superframe.toNat).toNat ≤ 80000
      then .armed else .late := by
  unfold todLoadOp
  simp only [Bool.false_eq_true, if_false]
  split
  · rfl
  split
  · rfl
  · simp [loadLate]

/-- A load of a time of day by superframe is rejected, armed or late. -/
theorem todLoad_superframe (s : State) (who : Requester) (hw : reachesAll who = true) :
    ∃ t, exec (.todLoad who false) s = .next t ∧
      t = { s with time := { s.time with todKind := false, todStatus := t.time.todStatus }, hif := t.hif, evt := t.evt, sent := t.sent } ∧
      (s.upl.gate ≠ .ranged → t.time.todStatus = .rejected) ∧
      (s.upl.gate = .ranged → 1 ≤ (s.time.todN - word s.upl.superframe.toNat).toNat →
        (s.time.todN - word s.upl.superframe.toNat).toNat ≤ 80000 → t.time.todStatus = .armed) ∧
      (s.upl.gate = .ranged → (s.time.todN = word s.upl.superframe.toNat ∨
        80000 < (s.time.todN - word s.upl.superframe.toNat).toNat) → t.time.todStatus = .late) := by
  have he : exec (.todLoad who false) s = .next (todLoadOp s false) := by simp only [exec, execTodLoad, hw, if_true]
  refine ⟨_, he, (todLoadOp_superframe s).frame, ?_, ?_, ?_⟩
  · intro hg
    rw [todLoadOp_status, if_pos hg]
  · intro hg h1 h2
    rw [todLoadOp_status, if_neg (by simp [hg]), if_pos ⟨h1, h2⟩]
  · intro hg hl
    rw [todLoadOp_status, if_neg (by simp [hg]), if_neg]
    rintro ⟨h1, h2⟩
    rcases hl with hl | hl
    · simp [hl] at h1
    · omega

theorem todLoad_pps (s : State) (who : Requester) (hw : reachesAll who = true) :
    ∃ t, exec (.todLoad who true) s = .next t ∧
      t = { s with time := { s.time with todKind := true, todStatus := t.time.todStatus } } ∧
      t.time.todStatus = if isP1 s || !s.time.ppsInEn then .rejected else .armed := by
  have he : exec (.todLoad who true) s = .next (todLoadOp s true) := by simp only [exec, execTodLoad, hw, if_true]
  refine ⟨_, he, ?_⟩
  unfold todLoadOp
  simp only [if_true]
  split <;> exact ⟨rfl, rfl⟩

/-! ### The downstream's own part of a PSBd -/

theorem followSrc_time (s : State) : (followSrc s).time = { s.time with src := (followSrc s).time.src } := by
  unfold followSrc
  split
  · rfl
  split <;> rfl

theorem followSrc_datum (s : State) : (followSrc s).datum = s.datum := by
  unfold followSrc
  split
  · rfl
  split <;> rfl

theorem followSrc_upl (s : State) : (followSrc s).upl = s.upl := by
  unfold followSrc
  split
  · rfl
  split <;> rfl

theorem takeEqd_datum (s : State) : (takeEqd s).datum = s.datum := by
  unfold takeEqd
  split
  · rfl
  split <;> rfl

theorem takeEqd_sync (s : State) : (takeEqd s).upl.sync = s.upl.sync := by
  unfold takeEqd
  split
  · rfl
  split <;> rfl

theorem xgtcOp_time_eq (s : State) (cw : List (List Byte)) : (xgtcOp s cw).time = s.time := by
  unfold xgtcOp
  dsimp only
  split <;> simp

theorem xgtcOp_datum (s : State) (cw : List (List Byte)) : (xgtcOp s cw).datum = s.datum := by
  unfold xgtcOp
  dsimp only
  split <;> simp [countXgem]

theorem timePsbd_tracking {s : State} {k : BitVec 51} {n : BitVec 51} {base : Int} (ha : s.time.todStatus ≠ .armed)
    (hr : s.time.ref = some (n, base)) (hk : s.time.refKind = false) :
    timePsbd s k true = compareErr { s with time := { s.time with errNext := k + 1 } }
      (base + quarterNs s.time.todDelay + signed (k - n).toNat 51 * (125000 * nsUnit : Nat) - (s.datum : Int)) (s.time.errNext == k) := by
  unfold timePsbd
  simp [ha, hr, hk]

/-- The state once a PSBd has been found, before its codewords and its time of day. -/
def psbdFound (s : State) (k : BitVec 51) : State :=
  followSrc (takeEqd (setUpl s (fun u => { syncMatch u with superframe := k, tds := s.datum })))

theorem psbdOp_live {s : State} (h : rxLive s = true) (k : BitVec 51) (cw : List (List Byte)) :
    psbdOp s k cw = timePsbd (if decide ((psbdFound s k).upl.sync = .sync) then xgtcOp (psbdFound s k) cw else psbdFound s k) k
      (decide ((psbdFound s k).upl.sync = .sync)) := by
  unfold psbdOp
  rw [h]
  rfl

theorem psbdFound_sync {s : State} (h : s.upl.sync ≠ .hunt) (k : BitVec 51) : (psbdFound s k).upl.sync = .sync := by
  rw [psbdFound, followSrc_upl, takeEqd_sync]
  show (syncMatch s.upl).sync = .sync
  unfold syncMatch
  split
  next hs => exact absurd hs h
  · rfl

theorem psbdFound_time (s : State) (k : BitVec 51) : (psbdFound s k).time = { s.time with src := (psbdFound s k).time.src } := by
  rw [psbdFound, followSrc_time, takeEqd_time]
  rfl

theorem psbdFound_datum (s : State) (k : BitVec 51) : (psbdFound s k).datum = s.datum := by
  rw [psbdFound, followSrc_datum, takeEqd_datum]
  rfl

/-- A PSBd received in SYNC with a superframe reference in force is one comparison. -/
theorem psbdOp_tracking {s : State} {k n : BitVec 51} {base : Int} (cw : List (List Byte)) (hl : rxLive s = true)
    (hs : s.upl.sync ≠ .hunt) (ha : s.time.todStatus ≠ .armed) (hh : s.time.st ≠ .holdover)
    (hr : s.time.ref = some (n, base)) (hk : s.time.refKind = false) :
    (psbdOp s k cw).datum = s.datum ∧ ∃ src, (psbdOp s k cw).time =
      ({ s.time with src := src, errNext := k + 1 } : Time).takeErr
        (base + quarterNs s.time.todDelay + signed (k - n).toNat 51 * (125000 * nsUnit : Nat) - (s.datum : Int)) (s.time.errNext == k) := by
  rw [psbdOp_live hl, decide_eq_true (psbdFound_sync hs k), if_pos rfl]
  have htime : (xgtcOp (psbdFound s k) cw).time = { s.time with src := (psbdFound s k).time.src } := by
    rw [xgtcOp_time_eq]
    exact psbdFound_time s k
  have hdatum : (xgtcOp (psbdFound s k) cw).datum = s.datum := (xgtcOp_datum _ cw).trans (psbdFound_datum s k)
  rw [timePsbd_tracking (n := n) (base := base) (by rw [htime]; exact ha) (by rw [htime]; exact hr) (by rw [htime]; exact hk),
    compareErr_tracking (by rw [htime]; exact hh), hdatum, htime]
  exact ⟨rfl, _, rfl⟩

/-! ### An average judged (R223, R224, R226) -/

theorem tenNs_natAbs {e : Int} (h1 : e ≤ 10 * nsUnit) (h2 : -(10 * nsUnit : Int) ≤ e) : e.natAbs ≤ 10 * nsUnit := by
  omega

theorem phaseAverageOp_idle {s : State} (h : s.time.avgDue = none ∨ s.time.ref = none) : phaseAverageOp s = s := by
  unfold phaseAverageOp
  split
  · rfl
  next hs =>
    have hr : s.time.ref = none := h.resolve_left (by simp [hs])
    simp [hr]

theorem phaseAverageOp_beyond {s : State} {a : Int} (ha : s.time.avgDue = some a) (hr : s.time.ref.isSome = true)
    (hb : beyondLimit s (a / 64) = true) : phaseAverageOp s = applyOffset s (a / 64) false := by
  unfold phaseAverageOp
  have hn : s.time.ref.isNone = false := by simpa using hr
  simp [ha, hn, hb]

/-- The number of good averages in a row after an average e. -/
def goodAfter (x : Time) (e : Int) : Nat := if e.natAbs ≤ 10 * nsUnit then x.goodAvgs + 1 else 0

/-- The time block after an average e within the limit, before its state follows. -/
def Time.judged (x : Time) (e : Int) : Time :=
  { x.slewTo e with offset := offsetReg e, far := false, avgDue := none, goodAvgs := goodAfter x e }

theorem phaseAverageOp_within {s : State} {a : Int} (ha : s.time.avgDue = some a) (hr : s.time.ref.isSome = true)
    (hb : beyondLimit s (a / 64) = false) : phaseAverageOp s =
      if 8 ≤ goodAfter s.time (a / 64) then
        setTimeState { s with time := { s.time.judged (a / 64) with holdErr := 0, holdAcc := 0, holdOver := false } } .locked
      else setTimeState { s with time := s.time.judged (a / 64) } .slewing := by
  unfold phaseAverageOp
  have hn : s.time.ref.isNone = false := by simpa using hr
  simp only [ha, hn, hb, Bool.false_eq_true, if_false]
  rfl

theorem phaseAverageOp_frame (s : State) : TimeFrame s (phaseAverageOp s) := by
  cases ha : s.time.avgDue with
  | none =>
    rw [phaseAverageOp_idle (.inl ha)]
    rfl
  | some a =>
    cases hr : s.time.ref.isSome with
    | false =>
      rw [phaseAverageOp_idle (.inr (by simpa using hr))]
      rfl
    | true =>
      cases hb : beyondLimit s (a / 64) with
      | true =>
        rw [phaseAverageOp_beyond ha hr hb]
        exact applyOffset_frame _ _ _
      | false =>
        rw [phaseAverageOp_within ha hr hb]
        split <;> exact (timeFrame_time s _).trans (setTimeState_frame _ _)

/-- An average within STEP_LIMIT sets the slew, and the eighth good one in a row locks the datum. -/
theorem phaseAverageOp_slews {s : State} {a : Int} (ha : s.time.avgDue = some a) (hr : s.time.ref.isSome = true)
    (hb : beyondLimit s (a / 64) = false) :
    (phaseAverageOp s).datum = s.datum ∧
    (phaseAverageOp s).time = { s.time.judged (a / 64) with
      st := if 8 ≤ goodAfter s.time (a / 64) then .locked else .slewing
      holdErr := if 8 ≤ goodAfter s.time (a / 64) then 0 else s.time.holdErr
      holdAcc := if 8 ≤ goodAfter s.time (a / 64) then 0 else s.time.holdAcc
      holdOver := if 8 ≤ goodAfter s.time (a / 64) then false else s.time.holdOver } := by
  rw [phaseAverageOp_within ha hr hb]
  split
  · exact ⟨setTimeState_datum_eq _ _, setTimeState_time_eq _ _⟩
  · exact ⟨setTimeState_datum_eq _ _, setTimeState_time_eq _ _⟩

theorem phaseAverage_judged {s : State} {a : Int} (ha : s.time.avgDue = some a) (hr : s.time.ref.isSome = true) :
    (phaseAverageOp s).time.offset = offsetReg (a / 64) ∧ (phaseAverageOp s).time.avgDue = none ∧
      (beyondLimit s (a / 64) = false →
        (phaseAverageOp s).datum = s.datum ∧ (phaseAverageOp s).time.slew = a / 64 ∧ (phaseAverageOp s).time.far = false ∧
        (phaseAverageOp s).time.slewKeep = decide ((a / 64 < 0 ∧ 0 < s.time.slewRate) ∨ (0 < a / 64 ∧ s.time.slewRate < 0)) ∧
        (a / 64 ≤ 10 * nsUnit → -(10 * nsUnit : Int) ≤ a / 64 → 7 ≤ s.time.goodAvgs →
          (phaseAverageOp s).time.st = .locked ∧ (phaseAverageOp s).time.holdErr = 0 ∧ (phaseAverageOp s).time.holdOver = false) ∧
        ((10 * nsUnit : Int) < a / 64 → (phaseAverageOp s).time.st = .slewing ∧ (phaseAverageOp s).time.goodAvgs = 0)) ∧
      (beyondLimit s (a / 64) = true →
        (s.time.stepEn = false → (phaseAverageOp s).datum = s.datum ∧ (phaseAverageOp s).time.far = true ∧
          (phaseAverageOp s).time.slew = a / 64 ∧ (phaseAverageOp s).time.st = .slewing) ∧
        (s.time.stepEn = true → (phaseAverageOp s).datum = toDatum ((s.datum : Int) + a / 64) ∧
          (phaseAverageOp s).time.valid = false ∧ (phaseAverageOp s).time.validNext = true ∧
          (phaseAverageOp s).time.slew = 0 ∧ (phaseAverageOp s).time.far = false ∧
          (phaseAverageOp s).time.stepped = BitVec.allOnes 24)) := by
  cases hb : beyondLimit s (a / 64) with
  | false =>
    obtain ⟨hd, ht⟩ := phaseAverageOp_slews ha hr hb
    rw [hd, ht]
    refine ⟨rfl, rfl, fun _ => ⟨rfl, rfl, rfl, rfl, ?_, ?_⟩, fun h => absurd h (by simp)⟩
    · intro h1 h2 h7
      have hg : 8 ≤ goodAfter s.time (a / 64) := by
        rw [goodAfter, if_pos (tenNs_natAbs h1 h2)]
        omega
      simp [hg]
    · intro h
      have hg : goodAfter s.time (a / 64) = 0 := if_neg (by omega)
      simp [hg, Time.judged]
  | true =>
    rw [phaseAverageOp_beyond ha hr hb]
    cases hs : s.time.stepEn with
    | false =>
      obtain ⟨ht, hd⟩ := applyOffset_far hb hs
      rw [ht, hd]
      exact ⟨rfl, rfl, fun h => absurd h (by simp), fun _ => ⟨fun _ => ⟨rfl, rfl, rfl, rfl⟩, fun h => absurd h (by simp)⟩⟩
    | true =>
      obtain ⟨ht, hd⟩ := applyOffset_step hb hs
      rw [ht, hd]
      exact ⟨rfl, rfl, fun h => absurd h (by simp),
        fun _ => ⟨fun h => absurd h (by simp), fun _ => ⟨rfl, rfl, rfl, rfl, rfl, rfl⟩⟩⟩

/-! ### Holdover and INVALIDATE (R226, R228, R235) -/

theorem holdoverEntry_spec (s : State) :
    ∃ t, exec .holdoverEntry s = .next t ∧ t = { s with time := t.time, hif := t.hif, evt := t.evt, sent := t.sent } ∧
      (s.time.ref = none ∨ s.time.st = .unset → t = s) ∧
      (s.time.ref.isSome = true → s.time.st ≠ .unset → t.time = { s.time with st := .holdover, goodAvgs := 0, avgDue := none }) := by
  by_cases h : s.time.ref.isSome = true ∧ s.time.st ≠ .unset
  · have he : exec .holdoverEntry s = .next (setTimeState { s with time := { s.time with goodAvgs := 0, avgDue := none } } .holdover) := by
      simp only [exec, execHoldoverEntry, h.1, decide_eq_true h.2, Bool.and_self, if_true]
    refine ⟨_, he, setTimeState_framed s _ _, ?_, fun _ _ => setTimeState_time_eq _ _⟩
    · rintro (hr | hu)
      · exact absurd h.1 (by simp [hr])
      · exact absurd hu h.2
  · have he : exec .holdoverEntry s = .next s := by
      simp only [exec, execHoldoverEntry]
      rw [if_neg (by simpa using h)]
    exact ⟨s, he, rfl, fun _ => rfl, fun hr hu => absurd ⟨hr, hu⟩ h⟩

theorem holdErrExceeded_spec (s : State) (err : Word) :
    ∃ t, exec (.holdErrExceeded err) s = .next t ∧ t = { s with time := t.time, hif := t.hif, evt := t.evt, sent := t.sent } ∧
      (s.time.st ≠ .holdover ∨ s.time.holdErr ≠ err ∨ s.time.holdErr.toNat ≤ s.time.holdMax.toNat ∨ s.time.holdOver = true → t = s) ∧
      (s.time.st = .holdover → s.time.holdErr = err → s.time.holdMax.toNat < s.time.holdErr.toNat → s.time.holdOver = false →
        t.time = { s.time with holdExceeded := true, holdOver := true }) := by
  refine ⟨holdLimitOp s err, rfl, ?_⟩
  unfold holdLimitOp
  split
  next h =>
    obtain ⟨hst, herr, hlt, hov⟩ := h
    refine ⟨evtOnly_framed s _ (raise_evtOnly _ _ _ _), ?_, fun _ _ _ _ => by simp⟩
    · rintro (h | h | h | h)
      · exact absurd hst h
      · exact absurd herr h
      · omega
      · simp [h] at hov
  next h => exact ⟨rfl, fun _ => rfl, fun h1 h2 h3 h4 => absurd ⟨h1, h2, h3, by simp [h4]⟩ h⟩

theorem datumInvalidate_pf (s : State) :
    ∃ t, exec (.datumInvalidate .pf) s = .next t ∧ t.datum = s.datum ∧
      t = { s with time := t.time, hif := t.hif, evt := t.evt, sent := t.sent } ∧
      t.time = { s.time with st := .unset, valid := false, validNext := false, ref := none, ppsOut := false,
                             goodAvgs := 0, errSum := 0, errCount := 0, avgDue := none } := by
  exact ⟨invalidateOp s, rfl, setTimeState_datum_eq _ _, setTimeState_framed _ _ _, setTimeState_time_eq _ _⟩

theorem datumInvalidate_fw (s : State) (cp : Fin 2) :
    ∃ t, exec (.datumInvalidate (.fw cp)) s = .next t ∧ t.time = s.time ∧ t.datum = s.datum :=
  ⟨fwDenied s 0x50014, rfl, by simp, by simp⟩

/-! ### PPS_IN (R236) -/

/-- The state once a PPS_IN edge is captured. -/
def ppsCaptured (s : State) : State :=
  { emitOut s .ppsIn with time := { s.time with
      ppsInNs := word (instNsPart s.datum)
      ppsInSec := word (instSec s.datum)
      ppsInOvr := s.time.ppsInOvr || s.time.ppsInUnread
      ppsInUnread := true } }

/-- What follows a captured edge keeps the capture and what has been sent. -/
def PpsFollows (s t : State) : Prop :=
  TimeFrame s t ∧ s.sent <:+ t.sent ∧ t.time.ppsInUnread = s.time.ppsInUnread ∧ t.time.ppsInSec = s.time.ppsInSec ∧
    t.time.ppsInNs = s.time.ppsInNs ∧ t.time.ppsInOvr = s.time.ppsInOvr

theorem PpsFollows.refl (s : State) : PpsFollows s s := ⟨rfl, List.suffix_rfl, rfl, rfl, rfl, rfl⟩

theorem PpsFollows.trans {s t u : State} (h : PpsFollows s t) (h' : PpsFollows t u) : PpsFollows s u := by
  obtain ⟨hf, hs, h1, h2, h3, h4⟩ := h
  obtain ⟨hf', hs', h1', h2', h3', h4'⟩ := h'
  exact ⟨hf.trans hf', hs.trans hs', h1'.trans h1, h2'.trans h2, h3'.trans h3, h4'.trans h4⟩

theorem ppsFollows_applyOffset (s : State) (e : Int) (first : Bool) : PpsFollows s (applyOffset s e first) := by
  obtain ⟨-, -, h⟩ := applyOffset_keepsLoad s e first
  exact ⟨applyOffset_frame s e first, applyOffset_sent s e first, h⟩

theorem ppsFollows_compareErr (s : State) (e : Int) (follows : Bool) : PpsFollows s (compareErr s e follows) := by
  obtain ⟨-, -, h⟩ := compareErr_keepsLoad s e follows
  exact ⟨compareErr_frame s e follows, compareErr_sent s e follows, h⟩

/-- The state with an armed load taken as the reference in force. -/
def loadTaken (s : State) (k : BitVec 51) (ppsKind : Bool) : State :=
  { s with time := { s.time with ref := some (k, loadBase s), refKind := ppsKind, todStatus := .applied } }

theorem applyLoad_eq (s : State) (k : BitVec 51) (p : Bool) : applyLoad s k p = applyOffset (loadTaken s k p)
    (loadBase s + quarterNs s.time.todDelay - (s.datum : Int)) (!s.time.valid && s.time.ref.isNone) := rfl

theorem ppsFollows_loadTaken (s : State) (k : BitVec 51) (p : Bool) : PpsFollows s (loadTaken s k p) :=
  ⟨rfl, List.suffix_rfl, rfl, rfl, rfl, rfl⟩

theorem ppsFollows_setRef (s : State) (r : Option (BitVec 51 × Int)) : PpsFollows s { s with time := { s.time with ref := r } } :=
  ⟨rfl, List.suffix_rfl, rfl, rfl, rfl, rfl⟩

theorem applyLoad_status (s : State) (k : BitVec 51) (p : Bool) :
    (applyLoad s k p).time.todStatus = .applied ∧ (applyLoad s k p).time.refKind = p := by
  rw [applyLoad_eq]
  obtain ⟨h1, h2, -⟩ := applyOffset_keepsLoad (loadTaken s k p)
    (loadBase s + quarterNs s.time.todDelay - (s.datum : Int)) (!s.time.valid && s.time.ref.isNone)
  exact ⟨h1, h2⟩

theorem ppsInOp_off {s : State} (h : s.time.ppsInEn = false ∨ s.pwr.state = .deep ∨ s.pwr.state = .off) : ppsInOp s = s := by
  unfold ppsInOp
  rw [if_pos (by simpa using h)]

theorem ppsInOp_armed {s : State} (h : ¬ (s.time.ppsInEn = false ∨ s.pwr.state = .deep ∨ s.pwr.state = .off))
    (ha : s.time.todStatus = .armed ∧ s.time.todKind = true) : ppsInOp s = applyLoad (ppsCaptured s) 0 true := by
  unfold ppsInOp
  rw [if_neg (by simpa using h)]
  exact if_pos ha

theorem ppsFollows_ppsInOp {s : State} (h : ¬ (s.time.ppsInEn = false ∨ s.pwr.state = .deep ∨ s.pwr.state = .off)) :
    PpsFollows (ppsCaptured s) (ppsInOp s) := by
  by_cases ha : s.time.todStatus = .armed ∧ s.time.todKind = true
  · rw [ppsInOp_armed h ha]
    rw [applyLoad_eq]
    exact (ppsFollows_loadTaken _ _ _).trans (ppsFollows_applyOffset _ _ _)
  · have hop : ppsInOp s = match (ppsCaptured s).time.ref with
        | some (n, base) =>
          if (ppsCaptured s).time.refKind then
            compareErr { ppsCaptured s with time := { (ppsCaptured s).time with ref := some (n, base + (secUnit : Nat)) } }
              (base + (secUnit : Nat) + quarterNs (ppsCaptured s).time.todDelay - ((ppsCaptured s).datum : Int)) true
          else ppsCaptured s
        | none => ppsCaptured s := by
      unfold ppsInOp
      rw [if_neg (by simpa using h)]
      exact if_neg ha
    rw [hop]
    split
    · split
      · exact (ppsFollows_setRef _ _).trans (ppsFollows_compareErr _ _ _)
      · exact .refl _
    · exact .refl _

theorem ppsInEdge_spec (s : State) :
    ∃ t, exec .ppsInEdge s = .next t ∧
      t = { s with datum := t.datum, time := t.time, hif := t.hif, rad := t.rad, evt := t.evt, sent := t.sent } ∧
      (s.time.ppsInEn = false ∨ s.pwr.state = .deep ∨ s.pwr.state = .off → t = s) ∧
      (s.time.ppsInEn = true → s.pwr.state ≠ .deep → s.pwr.state ≠ .off →
        Out.ppsIn ∈ t.sent ∧ t.time.ppsInUnread = true ∧ t.time.ppsInSec = word (instSec s.datum) ∧
        t.time.ppsInNs = word (instNsPart s.datum) ∧ t.time.ppsInOvr = (s.time.ppsInOvr || s.time.ppsInUnread) ∧
        (s.time.todStatus = .armed → s.time.todKind = true → t.time.todStatus = .applied ∧ t.time.refKind = true)) := by
  refine ⟨ppsInOp s, rfl, ?_⟩
  by_cases h : s.time.ppsInEn = false ∨ s.pwr.state = .deep ∨ s.pwr.state = .off
  · rw [ppsInOp_off h]
    refine ⟨rfl, fun _ => rfl, fun h1 h2 h3 => ?_⟩
    rcases h with h | h | h
    · simp [h] at h1
    · exact absurd h h2
    · exact absurd h h3
  · obtain ⟨hf, hsent, h3, h4, h5, h6⟩ := ppsFollows_ppsInOp h
    refine ⟨TimeFrame.trans (t := ppsCaptured s) rfl hf, fun h' => absurd h' h, fun _ _ _ => ⟨?_, h3, h4, h5, h6, ?_⟩⟩
    · exact hsent.subset (List.mem_cons_self ..)
    · intro ha hk
      rw [ppsInOp_armed h ⟨ha, hk⟩]
      exact applyLoad_status _ _ _

/-! ### The statement -/

theorem psbdReceived_tracking (s : State) (hi : BitVec 19) (lo : Word) (k : BitVec 51) (cw : List (List Byte)) (n : BitVec 51)
    (base e : Int) (hkey : k = hi ++ lo) (hl : rxLive s = true) (hs : s.upl.sync ≠ .hunt) (ha : s.time.todStatus ≠ .armed)
    (hh : s.time.st ≠ .holdover) (hr : s.time.ref = some (n, base)) (hk : s.time.refKind = false)
    (he : e = base + quarterNs s.time.todDelay + signed (k - n).toNat 51 * (125000 * nsUnit : Nat) - (s.datum : Int)) :
    ∃ t, exec (.psbdReceived hi lo cw) s = .next t ∧ t.datum = s.datum ∧
      t.time = { s.time with src := t.time.src, errNext := k + 1, errSum := t.time.errSum, errCount := t.time.errCount, avgDue := t.time.avgDue } ∧
      (s.time.errNext ≠ k → t.time.errSum = e ∧ t.time.errCount = 1 ∧ t.time.avgDue = s.time.avgDue) ∧
      (s.time.errNext = k → s.time.errCount ≠ 63 →
        t.time.errSum = s.time.errSum + e ∧ t.time.errCount = s.time.errCount + 1 ∧ t.time.avgDue = s.time.avgDue) ∧
      (s.time.errNext = k → s.time.errCount = 63 →
        t.time.avgDue = some (s.time.errSum + e) ∧ t.time.errSum = 0 ∧ t.time.errCount = 0) := by
  subst hkey
  obtain ⟨hd, src, ht⟩ := psbdOp_tracking (k := hi ++ lo) cw hl hs ha hh hr hk
  rw [← he] at ht
  refine ⟨_, rfl, hd, ?_, fun hn => ?_, fun hn hc => ?_, fun hn hc => ?_⟩
  · rw [ht, takeErr_frame]
  · rw [ht, beq_false_of_ne hn, takeErr_fresh]
    exact ⟨rfl, rfl, rfl⟩
  · rw [ht, hn, beq_self_eq_true, takeErr_follows (x := { s.time with src := src, errNext := hi ++ lo + 1 }) _ hc]
    exact ⟨rfl, rfl, rfl⟩
  · rw [ht, hn, beq_self_eq_true, takeErr_full (x := { s.time with src := src, errNext := hi ++ lo + 1 }) _ hc]
    exact ⟨rfl, rfl, rfl⟩

/-- Settles O29: every operation of the datum comes to an offset applied or a comparison taken. -/
theorem datumDisciplined : Obligations.DatumDisciplined := by
  intro s
  refine ⟨todLoad_superframe s, todLoad_pps s, psbdReceived_tracking s, ?_, holdoverEntry_spec s, holdErrExceeded_spec s,
    datumInvalidate_pf s, datumInvalidate_fw s, ppsInEdge_spec s⟩
  exact ⟨phaseAverageOp s, rfl, phaseAverageOp_frame s, phaseAverageOp_idle, fun a ha hr => phaseAverage_judged ha hr⟩

end Sys2Proof.Machine

/-! # The datum's second boundary, receive timestamps and the crystal

The radio's attempts keep to the radio, its ring and the journal, so the boundary's other parts can be read off its definition. -/

namespace Sys2Proof.Machine

open Sys2Proof

/-! ### What a radio attempt moves -/

/-- What the radio's operations may move: its ring and the journal, the radio, and what an occurrence moves. -/
def RadFrame (s t : State) : Prop :=
  t = { s with hif := t.hif, rings := t.rings, journal := t.journal, rad := t.rad, evt := t.evt, sent := t.sent, free := t.free }

theorem RadFrame.refl (s : State) : RadFrame s s := rfl

theorem RadFrame.trans {s t u : State} (h : RadFrame s t) (h' : RadFrame t u) : RadFrame s u := by
  unfold RadFrame at h h' ⊢
  rw [h', h]

theorem EvtOnly.radFrame {s t : State} (h : EvtOnly s t) : RadFrame s t := by
  rw [h.frame]
  rfl

theorem setRad_radFrame (s : State) (f : Rad → Rad) : RadFrame s (setRad s f) := rfl

theorem radCount_radFrame (s : State) (i : Nat) : RadFrame s (radCount s i) := rfl

theorem chargeAll_radFrame (s : State) (ch : BitVec 11) (n : Nat) : RadFrame s (chargeAll s ch n) := rfl

theorem emitOut_radFrame (s : State) (o : Out) : RadFrame s (emitOut s o) := rfl

theorem setOutcome_radFrame (s : State) (r : Nat) (q : Word) (f : Outcome → Outcome) : RadFrame s (setOutcome s r q f) := rfl

theorem returnWith_radFrame (s : State) (r : Nat) (q : Word) (o : Outcome) : RadFrame s (returnWith s r q o) := by
  unfold RadFrame
  apply State.eq_of_parts <;> simp

theorem beginEmission_radFrame (s : State) (r : RingNo) (q : Word) (o : Outcome) : RadFrame s (beginEmission s r q o) := by
  unfold RadFrame
  apply State.eq_of_parts <;> simp

theorem endEmission_radFrame (s : State) (r : Nat) (q : Word) (f : Outcome → Outcome) : RadFrame s (endEmission s r q f) := by
  unfold RadFrame
  apply State.eq_of_parts <;> simp

theorem raiseRefused_radFrame (s : State) (b : Option Nat) : RadFrame s (raiseRefused s b) := by
  unfold raiseRefused
  split
  · exact (raise_evtOnly _ _ _ _).radFrame
  · exact RadFrame.trans (t := drew s) rfl (raise_evtOnly _ _ _ _).radFrame

theorem radEnd_radFrame (s : State) (t : RadTx) (acked noAck stop : Bool) : RadFrame s (radEnd s t acked noAck stop) := by
  have ended : RadFrame s (endEmission (setTx s none) 7 t.seq (fun _ => radOutcome t acked noAck stop)) :=
    (setRad_radFrame s _).trans (endEmission_radFrame _ _ _ _)
  unfold radEnd
  dsimp only
  split
  · exact (ended.trans (radCount_radFrame _ _)).trans (raiseC_evtOnly _ _ _ _).radFrame
  · exact ended

theorem radFail_radFrame (s : State) (t : RadTx) (ret : Outcome) (noAck stop : Bool) : RadFrame s (radFail s t ret noAck stop) := by
  unfold radFail
  split
  · exact (setRad_radFrame s _).trans (returnWith_radFrame _ _ _ _)
  · exact radEnd_radFrame _ _ _ _ _

theorem sendAttempt_radFrame (s : State) (t : RadTx) (d : Desc) : RadFrame s (sendAttempt s t d) := by
  unfold sendAttempt
  dsimp only
  refine RadFrame.trans ?_ (emitOut_radFrame _ _)
  refine RadFrame.trans ?_ (raiseC_evtOnly _ _ _ _).radFrame
  refine RadFrame.trans ?_ (radCount_radFrame _ _)
  have charged (n : Nat) (x : Option RadTx) :
      RadFrame s (setRad (chargeAll s (txChan d) n) (fun r => { r with tx := x, paEn := true })) :=
    (chargeAll_radFrame s _ _).trans (setRad_radFrame _ _)
  split
  · exact ((charged _ _).trans (radCount_radFrame _ _)).trans (beginEmission_radFrame _ _ _ _)
  · exact (charged _ _).trans (setOutcome_radFrame _ _ _ _)

theorem tryAttempt_radFrame (s : State) (t : RadTx) (w : Work) : RadFrame s (tryAttempt s t w) := by
  unfold tryAttempt
  dsimp only
  split
  · exact radFail_radFrame _ _ _ _ _
  split
  · exact setRad_radFrame _ _
  split
  · exact (raiseRefused_radFrame _ _).trans (radFail_radFrame _ _ _ _ _)
  split
  · exact sendAttempt_radFrame _ _ _
  next b _ =>
    refine (raiseRefused_radFrame s (some b)).trans ?_
    split
    · exact radEnd_radFrame _ _ _ _ _
    split
    · exact setRad_radFrame _ _
    · exact radFail_radFrame _ _ _ _ _

theorem retryAttempt_radFrame (s : State) : RadFrame s (retryAttempt s) := by
  unfold retryAttempt
  split
  · exact .refl s
  split
  · exact tryAttempt_radFrame _ _ _
  · exact .refl s

/-! ### A channel's second (R173 to R176) -/

theorem decideFirst_pm (p : Pm) (e : PmPend) (l : List PmPend) :
    (decideFirst p e l).1.cur = p.cur := rfl

/-- The tenth pending second decides and commits the first of them. -/
theorem commitSecond_of_full {p : Pm} (h : 10 ≤ p.pend.length) :
    (commitSecond p).cur = p.cur ∧ (commitSecond p).pend = p.pend.tail := by
  unfold commitSecond
  split
  next e t hp =>
    rw [if_pos h]
    exact ⟨rfl, by rw [hp]; rfl⟩
  next hp => simp [hp] at h

theorem commitSecond_of_short {p : Pm} (h : ¬ 10 ≤ p.pend.length) : commitSecond p = p := by
  unfold commitSecond
  split
  · exact if_neg h
  · rfl

theorem endSecond_length (p : Pm) (sec : Nat) (valid : Bool) : (endSecond p sec valid).pend.length = p.pend.length + 1 := by
  simp [endSecond]

theorem pm_after_second (p : Pm) (sec : Nat) (valid : Bool) :
    (commitSecond (endSecond p sec valid)).cur = PmSec.zero ∧
    (9 ≤ p.pend.length → (commitSecond (endSecond p sec valid)).pend.length = p.pend.length) ∧
    (p.pend.length < 9 → (commitSecond (endSecond p sec valid)).bins15 = p.bins15) := by
  have hlen := endSecond_length p sec valid
  by_cases h : 10 ≤ (endSecond p sec valid).pend.length
  · obtain ⟨hc, hp⟩ := commitSecond_of_full h
    refine ⟨hc, fun _ => ?_, fun h9 => ?_⟩
    · rw [hp, List.length_tail, hlen]
      rfl
    · omega
  · rw [commitSecond_of_short h]
    exact ⟨rfl, fun h9 => by omega, fun _ => rfl⟩

/-- A channel's second leaves everything but that channel's performance block and what an occurrence moves. -/
def PmFrame (s t : State) : Prop := t = { s with chans := t.chans, hif := t.hif, evt := t.evt, sent := t.sent }

theorem PmFrame.trans {s t u : State} (h : PmFrame s t) (h' : PmFrame t u) : PmFrame s u := by
  unfold PmFrame at h h' ⊢
  rw [h', h]

theorem pmFrame_of_evtOnly {s t : State} (h : EvtOnly s t) : PmFrame s t := by
  rw [h.frame]
  rfl

theorem setChan_pmFrame (s : State) (c : Nat) (f : Chan → Chan) : PmFrame s (setChan s c f) := rfl

theorem pmSecond_frame (s : State) (sec : Nat) (valid : Bool) (c : Nat) : PmFrame s (pmSecond s sec valid c) := by
  unfold pmSecond
  dsimp only
  split
  · rfl
  split
  · refine PmFrame.trans ?_ (pmFrame_of_evtOnly (raise_evtOnly _ _ _ _))
    exact setChan_pmFrame s c _
  · rfl

theorem pmSecond_chan (s : State) (sec : Nat) (valid : Bool) (c : Nat) (hp : present s c = true) (hc : c < 24) :
    chanAt (pmSecond s sec valid c) c = { chanAt s c with pm := commitSecond (endSecond (chanAt s c).pm sec valid) } := by
  unfold pmSecond
  rw [hp]
  simp only [Bool.not_true, Bool.false_eq_true, if_false]
  split <;> simp [chanAt_setChan_self s c _ hc]

theorem pmSecond_chan_ne (s : State) (sec : Nat) (valid : Bool) {c x : Nat} (h : x ≠ c) :
    chanAt (pmSecond s sec valid c) x = chanAt s x := by
  unfold pmSecond
  dsimp only
  split
  · rfl
  split <;> simp [chanAt_setChan_ne s c x _ h]

theorem present_of_pmFrame {s t : State} (h : PmFrame s t) (c : Nat) : present t c = present s c := by
  rw [h]
  rfl

theorem pmSeconds_frame (sec : Nat) (valid : Bool) (l : List Nat) (s : State) :
    PmFrame s (l.foldl (fun t c => pmSecond t sec valid c) s) := by
  induction l generalizing s with
  | nil => rfl
  | cons c l ih => exact (pmSecond_frame s sec valid c).trans (ih _)

theorem pmSeconds_chan_of_not_mem (sec : Nat) (valid : Bool) (l : List Nat) (s : State) {x : Nat} (h : x ∉ l) :
    chanAt (l.foldl (fun t c => pmSecond t sec valid c) s) x = chanAt s x := by
  induction l generalizing s with
  | nil => rfl
  | cons c l ih =>
    obtain ⟨hc, hl⟩ := not_or.mp (fun h' => h (List.mem_cons.mpr h'))
    rw [List.foldl_cons, ih _ hl, pmSecond_chan_ne s sec valid hc]

/-- Each channel's second ends once. -/
theorem pmSeconds_chan (sec : Nat) (valid : Bool) (l : List Nat) (s : State) {c : Nat} (hd : l.Nodup) (hm : c ∈ l)
    (hp : present s c = true) (hc : c < 24) :
    chanAt (l.foldl (fun t c => pmSecond t sec valid c) s) c =
      { chanAt s c with pm := commitSecond (endSecond (chanAt s c).pm sec valid) } := by
  induction l generalizing s with
  | nil => simp at hm
  | cons x l ih =>
    obtain ⟨hx, hd'⟩ := List.nodup_cons.mp hd
    rw [List.foldl_cons]
    rcases List.mem_cons.mp hm with rfl | hm
    · rw [pmSeconds_chan_of_not_mem sec valid l _ hx, pmSecond_chan s sec valid c hp hc]
    · have hne : c ≠ x := fun h => hx (h ▸ hm)
      rw [ih _ hd' hm ((present_of_pmFrame (pmSecond_frame s sec valid x) c).trans hp), pmSecond_chan_ne s sec valid hne]

/-! ### The boundary -/

/-- Every channel's second ends, while the host interface's domain is powered. -/
def secondsEnded (s : State) : State :=
  if s.pwr.domHif then (List.range 24).foldl (fun t c => pmSecond t (instSec s.datum - 1) s.time.valid c) s else s

theorem secondsEnded_frame (s : State) : PmFrame s (secondsEnded s) := by
  unfold secondsEnded
  split
  · exact pmSeconds_frame _ _ _ _
  · rfl

/-- The boundary's parts but the duty governor's. -/
def secondCounted (s : State) : State :=
  { secondsEnded s with
    time := timeSecond (decide (s.pwr.state = .deep)) s.time
    fw := leftSecond s.fw }

theorem secondOp_idle {s : State} (h : s.pwr.state = .off ∨ atEdge s secUnit 0 = false) : secondOp s = s := by
  unfold secondOp
  rw [if_pos (by simpa using h)]

theorem secondOp_edge {s : State} (h : ¬ (s.pwr.state = .off ∨ atEdge s secUnit 0 = false)) :
    secondOp s = govSecond (secondCounted s) := by
  have hp : (secondsEnded s).pwr = s.pwr := by rw [secondsEnded_frame s]
  have ht : (secondsEnded s).time = s.time := by rw [secondsEnded_frame s]
  have hf : (secondsEnded s).fw = s.fw := by rw [secondsEnded_frame s]
  have : secondOp s = govSecond { secondsEnded s with
      time := timeSecond (decide ((secondsEnded s).pwr.state = .deep)) (secondsEnded s).time, fw := leftSecond (secondsEnded s).fw } := by
    unfold secondOp
    exact if_neg (by simpa using h)
  rw [this, hp, ht, hf, secondCounted]

theorem govSecond_radFrame (s : State) : RadFrame s (govSecond s) := by
  unfold govSecond
  split
  · exact .refl s
  · exact RadFrame.trans (t := { s with rad := s.rad.advance }) rfl (retryAttempt_radFrame _)

theorem govSecond_rad (s : State) : (s.rad.refill = true → (govSecond s).rad = s.rad) ∧
    (s.rad.refill = false → s.rad.tx = none → (govSecond s).rad = s.rad.advance) := by
  unfold govSecond
  refine ⟨fun h => by rw [if_pos h], fun h ht => ?_⟩
  have htx : radTx { s with rad := s.rad.advance } = none := by
    simp [radTx, Rad.advance, ht]
  rw [if_neg (by simp [h]), retryAttempt, htx]

theorem leftSecond_left {w : Fw} (h : w.timerOn = true) : (leftSecond w).left.toNat = w.left.toNat - 1 := by
  have := w.left.isLt
  simp only [leftSecond, h, if_true, BitVec.toNat_ofNat]
  omega

theorem datumSecondBoundary_spec (s : State) :
    ∃ t, exec .datumSecondBoundary s = .next t ∧ t.datum = s.datum ∧ t.ledger = s.ledger ∧ t.upl = s.upl ∧
      (s.pwr.state = .off ∨ atEdge s secUnit 0 = false → t = s) ∧
      (s.pwr.state ≠ .off → atEdge s secUnit 0 = true →
        t.time = { s.time with ppsOut := s.time.ppsOut || (s.time.ppsOutEn && s.time.valid && decide (s.pwr.state ≠ .deep)),
                               valid := s.time.valid || s.time.validNext, validNext := false } ∧
        (s.fw.timerOn = true → t.fw.left.toNat = s.fw.left.toNat - 1) ∧ (s.fw.timerOn = false → t.fw = s.fw) ∧
        (s.rad.refill = true → t.rad = s.rad) ∧
        (s.rad.refill = false → s.rad.tx = none → t.rad = s.rad.advance)) ∧
      (s.pwr.state ≠ .off → atEdge s secUnit 0 = true → s.pwr.domHif = true → ∀ c, present s c = true → c < 24 →
        (chanAt t c).pm.cur = PmSec.zero ∧ (chanAt t c).tab = (chanAt s c).tab ∧ (chanAt t c).fr = (chanAt s c).fr ∧
        (9 ≤ (chanAt s c).pm.pend.length → (chanAt t c).pm.pend.length = (chanAt s c).pm.pend.length) ∧
        ((chanAt s c).pm.pend.length < 9 → (chanAt t c).pm.bins15 = (chanAt s c).pm.bins15)) := by
  refine ⟨secondOp s, rfl, ?_⟩
  by_cases h : s.pwr.state = .off ∨ atEdge s secUnit 0 = false
  · rw [secondOp_idle h]
    refine ⟨rfl, rfl, rfl, fun _ => rfl, fun h1 h2 => ?_, fun h1 h2 => ?_⟩
    · exact absurd h (by simp [h1, h2])
    · exact absurd h (by simp [h1, h2])
  · rw [secondOp_edge h]
    have hg := govSecond_radFrame (secondCounted s)
    have hs := secondsEnded_frame s
    obtain ⟨hrefill, hfree⟩ := govSecond_rad (secondCounted s)
    have hrad : (secondCounted s).rad = s.rad := by
      show (secondsEnded s).rad = s.rad
      rw [hs]
    rw [hrad] at hrefill hfree
    have htime : (govSecond (secondCounted s)).time = timeSecond (decide (s.pwr.state = .deep)) s.time := by rw [hg]; rfl
    have hfw : (govSecond (secondCounted s)).fw = leftSecond s.fw := by rw [hg]; rfl
    have hchans : (govSecond (secondCounted s)).chans = (secondsEnded s).chans := by rw [hg]; rfl
    have hdatum : (govSecond (secondCounted s)).datum = (secondsEnded s).datum := by rw [hg]; rfl
    have hledger : (govSecond (secondCounted s)).ledger = (secondsEnded s).ledger := by rw [hg]; rfl
    have hupl : (govSecond (secondCounted s)).upl = (secondsEnded s).upl := by rw [hg]; rfl
    refine ⟨by rw [hdatum, hs], by rw [hledger, hs], by rw [hupl, hs], fun h' => absurd h' h, fun _ _ => ⟨?_, ?_, ?_, hrefill, hfree⟩,
      fun _ _ hd c hp hc => ?_⟩
    · rw [htime]
      simp [timeSecond]
    · intro ht
      rw [hfw, leftSecond_left ht]
    · intro ht
      rw [hfw, leftSecond, if_neg (by simp [ht])]
    · have hchan : chanAt (govSecond (secondCounted s)) c =
          { chanAt s c with pm := commitSecond (endSecond (chanAt s c).pm (instSec s.datum - 1) s.time.valid) } := by
        have hsame : chanAt (govSecond (secondCounted s)) c = chanAt (secondsEnded s) c := by rw [chanAt, chanAt, hchans]
        rw [hsame, secondsEnded, if_pos hd]
        exact pmSeconds_chan _ _ _ _ List.nodup_range (List.mem_range.mpr hc) hp hc
      obtain ⟨hcur, hfull, hshort⟩ := pm_after_second (chanAt s c).pm (instSec s.datum - 1) s.time.valid
      rw [hchan]
      exact ⟨hcur, rfl, rfl, hfull, hshort⟩

theorem rxtsNext_channel (s : State) (who : Requester) (c : Ch) (hw : reachesChan who c.val = true) (hp : present s c.val = true) :
    ∃ t, exec (.rxtsNext who (.ch c)) s = .next t ∧ t = { s with chans := t.chans } ∧ OnlyChan s t c.val ∧
      chanAt t c.val = { chanAt s c.val with rxts := { (chanAt s c.val).rxts with fifo := (chanAt s c.val).rxts.fifo.tail } } := by
  have he : exec (.rxtsNext who (.ch c)) s =
      .next (setChan s c.val (fun k => { k with rxts := { k.rxts with fifo := k.rxts.fifo.tail } })) := by
    simp only [exec, execRxtsNext, hw, hp, Bool.and_self, if_true]
  exact ⟨_, he, rfl, setChan_onlyChan s c.val _, chanAt_setChan_self s c.val _ c.isLt⟩

/-- Settles O30: the boundary ends each channel's second, then moves the time block, the timer and the governor's windows. -/
theorem secondBoundaryAndTimestamps : Obligations.SecondBoundaryAndTimestamps := by
  intro s
  refine ⟨datumSecondBoundary_spec s, rfl, fun who hw => ?_, rxtsNext_channel s, fun inc hl hx => ?_, fun inc h => ?_, rfl⟩
  · simp only [exec, execRxtsNext, hw, if_true]
  · simp only [exec, execCrystalCalibration, hl, hx, and_self, if_true]
  · simp only [exec, execCrystalCalibration]
    rw [if_neg]
    rintro ⟨h1, h2⟩
    rcases h with h | h
    · exact h h1
    · simp [h] at h2

end Sys2Proof.Machine

/-! # What every SEC operation is made of

A request is held by its requester until it is returned or executed. Returns, reads, writes, starts and outcomes each move the same few parts, and every operation of Table 11.3 is built of them. -/

namespace Sys2Proof.Machine

open Sys2Proof

/-! ### A request that can still be answered -/

/-- A request can still be returned or executed: the host's is open work of ring 9 with a journal entry free, firmware's always. -/
def SecHeld (s : State) : SecSrc → Prop
  | .host seq => (∃ w, workOpen s 9 seq = some w) ∧ journalSpace s = true
  | .fw _ => True

theorem SecHeld.congr {s t : State} (hr : t.rings = s.rings) (hj : t.journal = s.journal) (hu : t.upl = s.upl) {q : SecSrc}
    (h : SecHeld s q) : SecHeld t q := by
  cases q with
  | fw f => trivial
  | host seq =>
    obtain ⟨⟨w, hw⟩, hspace⟩ := h
    refine ⟨⟨w, ?_⟩, ?_⟩
    · obtain ⟨hf, hret, hjw⟩ := workOpen_eq_some.mp hw
      refine workOpen_eq_some.mpr ⟨by rw [ringAt_congr hr]; exact hf, hret, ?_⟩
      rw [journalOf, hj]
      exact hjw
    · rw [journalSpace_congr hj (by rw [hu]) (by rw [hu])]
      exact hspace

/-! ### What a SEC operation moves -/

/-- What the operations of a requester move, while the firmware port keeps its queue and a retired core stays retired. -/
structure SecActs (q : SecSrc) (s t : State) : Prop where
  frame : t = { s with hif := t.hif, rings := t.rings, journal := t.journal, chans := t.chans, sec := t.sec, evt := t.evt, sent := t.sent, free := t.free }
  ring : OnlyRing s t 9
  port : t.sec.port = s.sec.port
  retired : t.sec.retired = s.sec.retired
  fw : ∀ f, q = .fw f → t.rings = s.rings ∧ t.journal = s.journal

/-- What the checks and the start of an operation move. -/
structure SecChecks (s t : State) : Prop where
  frame : t = { s with hif := t.hif, rings := t.rings, sec := { s.sec with ops := t.sec.ops }, evt := t.evt, sent := t.sent }
  ring : OnlyRing s t 9

theorem SecActs.refl (q : SecSrc) (s : State) : SecActs q s s := ⟨rfl, .refl s 9, rfl, rfl, fun _ _ => ⟨rfl, rfl⟩⟩

theorem SecActs.trans {q : SecSrc} {s t u : State} (h : SecActs q s t) (h' : SecActs q t u) : SecActs q s u := by
  refine ⟨?_, h.ring.trans h'.ring, h'.port.trans h.port, h'.retired.trans h.retired, fun f hf => ?_⟩
  · have e := h.frame
    have e' := h'.frame
    rw [e', e]
  · obtain ⟨hr, hj⟩ := h.fw f hf
    obtain ⟨hr', hj'⟩ := h'.fw f hf
    exact ⟨hr'.trans hr, hj'.trans hj⟩

theorem SecChecks.refl (s : State) : SecChecks s s := ⟨rfl, .refl s 9⟩

theorem SecChecks.trans {s t u : State} (h : SecChecks s t) (h' : SecChecks t u) : SecChecks s u := by
  refine ⟨?_, h.ring.trans h'.ring⟩
  have e := h.frame
  have e' := h'.frame
  rw [e', e]

theorem EvtOnly.secChecks {s t : State} (h : EvtOnly s t) : SecChecks s t := by
  refine ⟨?_, onlyRing_of_rings 9 h.rings⟩
  rw [h.frame]

/-- A check or a start is an action when, for firmware, it leaves the rings. -/
theorem SecChecks.acts {q : SecSrc} {s t : State} (h : SecChecks s t) (hf : ∀ f, q = .fw f → t.rings = s.rings) : SecActs q s t := by
  have e := h.frame
  refine ⟨by rw [e], h.ring, by rw [e], by rw [e], fun f hq => ⟨hf f hq, by rw [e]⟩⟩

/-! ### Each part once -/

theorem secRead_sent (s : State) (q : SecSrc) (a n : Nat) : secRead s q a n = { s with sent := (secRead s q a n).sent } := by
  unfold secRead
  split
  · split <;> rfl
  · rfl

theorem secRead_checks (s : State) (q : SecSrc) (a n : Nat) : SecChecks s (secRead s q a n) := by
  rw [secRead_sent]
  exact ⟨rfl, .refl s 9⟩

theorem secHeld_secRead {s : State} {q : SecSrc} (h : SecHeld s q) (q' : SecSrc) (a n : Nat) : SecHeld (secRead s q' a n) q := by
  rw [secRead_sent]
  exact h.congr rfl rfl rfl

theorem secOpen_secRead (s : State) (q q' : SecSrc) (a n : Nat) (w : Bool) (x l : Nat) :
    secOpen (secRead s q a n) q' w x l = secOpen s q' w x l := by
  rw [secRead_sent]
  rfl

theorem secReturn_checks (s : State) (q : SecSrc) (st : Status) : SecChecks s (secReturn s q st) := by
  unfold secReturn
  split
  · refine ⟨?_, returnWork_onlyRing s 9 _ st⟩
    rw [returnWork, returnWith_frame]
  · exact ⟨rfl, .refl s 9⟩

theorem secReturn_returned {s : State} {q : SecSrc} (h : SecHeld s q) (st : Status) : SecReturned s (secReturn s q st) q st := by
  cases q with
  | fw f => exact ⟨rfl, rfl, rfl⟩
  | host seq =>
    obtain ⟨⟨w, hw⟩, -⟩ := h
    obtain ⟨hf, hret, hj⟩ := workOpen_eq_some.mp hw
    exact ⟨returnWork_sec s 9 seq st, returnWork_journal s 9 seq st, returnedWith_returnWork hf hret hj⟩

theorem secFault_checks (s : State) (q : SecSrc) (a : Nat) : SecChecks s (secFault s q a) := by
  unfold secFault
  split
  · refine ⟨?_, ringWindowFault_onlyRing s 9 a⟩
    apply State.eq_of_parts <;> simp
  · exact .refl s

theorem secFault_sec (s : State) (q : SecSrc) (a : Nat) : (secFault s q a).sec = s.sec := by
  cases q with
  | host seq => exact ringWindowFault_sec s 9 a
  | fw f => rfl

/-- A range outside the windows returns the request RET_WINDOW. -/
theorem secFault_returned {s : State} {q : SecSrc} (h : SecHeld s q) (a : Nat) (st : Status) :
    SecReturned s (secReturn (secFault s q a) q st) q st := by
  cases q with
  | fw f => exact secReturn_returned h st
  | host seq =>
    obtain ⟨⟨w, hw⟩, -⟩ := h
    obtain ⟨hf, hret, hj⟩ := workOpen_eq_some.mp hw
    have hfind : findWork (ringAt (ringWindowFault s 9 a) 9) seq = some w := by
      rw [ringAt_ringWindowFault, ringAt_setRing_self _ _ _ (by decide)]
      exact hf
    refine ⟨?_, ?_, returnedWith_returnWork hfind hret ?_⟩
    · show (returnWork _ 9 seq st).sec = _
      rw [returnWork_sec]
      exact ringWindowFault_sec s 9 a
    · show (returnWork _ 9 seq st).journal = _
      rw [returnWork_journal]
      exact ringWindowFault_journal s 9 a
    · show journalOf (ringWindowFault s 9 a) 9 seq = none
      rw [journalOf_ringWindowFault]
      exact hj

theorem dmaLatched_checks (s : State) (k a : Nat) :
    SecChecks s (latchFault (setRing s 9 (fun g => { g with dmaErr := true })) k 9 0 a) := by
  refine ⟨?_, fun x hx => ?_⟩
  · apply State.eq_of_parts <;> simp
  · rw [ringAt_latchFault, ringAt_setRing_ne _ _ _ _ hx]

theorem secReadFailed_checks (s : State) (q : SecSrc) (res : XferResult) (a : Nat) : SecChecks s (secReadFailed s q res a) := by
  cases q with
  | host seq => exact (dmaLatched_checks s _ a).trans (secReturn_checks _ (.host seq) .retDma)
  | fw f => exact secReturn_checks s (.fw f) .retDma

theorem secReadFailed_sec (s : State) (q : SecSrc) (res : XferResult) (a : Nat) : (secReadFailed s q res a).sec = s.sec := by
  cases q with
  | host seq =>
    show (returnWork _ 9 seq .retDma).sec = _
    simp
  | fw f => rfl

/-- A read that fails returns the request RET_DMA. -/
theorem secReadFailed_returned {s : State} {q : SecSrc} (h : SecHeld s q) (res : XferResult) (a : Nat) :
    SecReturned s (secReadFailed s q res a) q .retDma := by
  cases q with
  | fw f => exact secReturn_returned h .retDma
  | host seq =>
    obtain ⟨⟨w, hw⟩, -⟩ := h
    obtain ⟨hf, hret, hj⟩ := workOpen_eq_some.mp hw
    have hfind : findWork (ringAt (latchFault (setRing s 9 (fun g => { g with dmaErr := true })) (xferKind res) 9 0 a) 9) seq = some w := by
      rw [ringAt_latchFault, ringAt_setRing_self _ _ _ (by decide)]
      exact hf
    refine ⟨secReadFailed_sec s (.host seq) res a, ?_, returnedWith_returnWork hfind hret ?_⟩
    · show (returnWork _ 9 seq .retDma).journal = _
      simp
    · simpa [journalOf] using hj

theorem secWrite_sent (s : State) (q : SecSrc) (a : Nat) (b : List Byte) : secWrite s q a b = { s with sent := (secWrite s q a b).sent } := by
  unfold secWrite
  split
  · rfl
  split <;> rfl

theorem secWrite_checks (s : State) (q : SecSrc) (a : Nat) (b : List Byte) : SecChecks s (secWrite s q a b) := by
  rw [secWrite_sent]
  exact ⟨rfl, .refl s 9⟩

theorem secHeld_secWrite {s : State} {q : SecSrc} (h : SecHeld s q) (q' : SecSrc) (a : Nat) (b : List Byte) : SecHeld (secWrite s q' a b) q := by
  rw [secWrite_sent]
  exact h.congr rfl rfl rfl

theorem secWrite_journal (s : State) (q : SecSrc) (a : Nat) (b : List Byte) : (secWrite s q a b).journal = s.journal := by rw [secWrite_sent]

theorem secWrite_sec (s : State) (q : SecSrc) (a : Nat) (b : List Byte) : (secWrite s q a b).sec = s.sec := by rw [secWrite_sent]

/-- The host's output goes out as the write requests of its bytes. -/
theorem secWrite_host {b : List Byte} (hb : b ≠ []) (s : State) (seq : Word) (a : Nat) :
    (secWrite s (.host seq) a b).sent = writeRequests s 0 a b ++ s.sent := by
  rw [secWrite, if_neg hb]
  rfl

theorem secStart_checks (s : State) (q : SecSrc) (d : Desc) (blk : Option OpBlock) (a n : Nat) : SecChecks s (secStart s q d blk a n) := by
  have begun : SecChecks s (setSec s (fun x => { x with ops := x.ops ++ [{ src := q, d := d, blk := blk }] })) := ⟨rfl, .refl s 9⟩
  unfold secStart
  dsimp only
  split
  · exact (begun.trans (secRead_checks _ _ _ _)).trans ⟨rfl, setWork_onlyRing _ 9 _ _⟩
  · exact begun.trans (secRead_checks _ _ _ _)

/-- An operation whose checks pass starts with its reads. -/
theorem secStart_started {s : State} {q : SecSrc} (h : SecHeld s q) (d : Desc) (blk : Option OpBlock) (a n : Nat) :
    SecStarted s (secStart s q d blk a n) q d blk := by
  cases q with
  | fw f => exact ⟨rfl, rfl, rfl⟩
  | host seq =>
    obtain ⟨⟨w, hw⟩, -⟩ := h
    obtain ⟨hf, -, -⟩ := workOpen_eq_some.mp hw
    have hread := secRead_sent (setSec s (fun x => { x with ops := x.ops ++ [{ src := .host seq, d := d, blk := blk }] })) (.host seq) a n
    refine ⟨?_, ?_, ?_⟩
    · show (secRead _ _ a n).sec = _
      rw [hread]
      rfl
    · show (secRead _ _ a n).journal = _
      rw [hread]
      rfl
    · show atStage (setWork (secRead _ _ a n) 9 seq _) 9 seq .queued
      rw [hread]
      exact atStage_setWork (w := w) _ (fun _ => rfl) hf rfl

theorem emitWork_acts (s : State) (seq : Word) (o : Outcome) : SecActs (.host seq) s (emitWork s 9 seq o) := by
  refine ⟨?_, fun x hx => ringAt_emitWork_ne s 9 seq o hx, by simp, by simp, fun f hf => absurd hf (by simp)⟩
  apply State.eq_of_parts <;> simp

theorem secDone_acts (s : State) (q : SecSrc) (st : Status) (r0 r1 : Word) : SecActs q s (secDone s q st r0 r1) := by
  cases q with
  | host seq => exact emitWork_acts s seq _
  | fw f => exact ⟨rfl, .refl s 9, rfl, rfl, fun _ _ => ⟨rfl, rfl⟩⟩

@[simp] theorem secDone_sec (s : State) (q : SecSrc) (st : Status) (r0 r1 : Word) : (secDone s q st r0 r1).sec = s.sec := by
  cases q with
  | host seq => exact emitWork_sec s 9 seq _
  | fw f => rfl

theorem slotAt_secDone (s : State) (q : SecSrc) (st : Status) (r0 r1 : Word) (i : Nat) : slotAt (secDone s q st r0 r1) i = slotAt s i := by
  rw [slotAt, secDone_sec, slotAt]

theorem ctxAt_secDone (s : State) (q : SecSrc) (st : Status) (r0 r1 : Word) (i : Nat) : ctxAt (secDone s q st r0 r1) i = ctxAt s i := by
  rw [ctxAt, secDone_sec, ctxAt]

/-- An executed request's outcome enters the journal, or goes to firmware. -/
theorem secDone_executed {s : State} {q : SecSrc} (h : SecHeld s q) (st : Status) (r0 r1 : Word) :
    SecExecuted s (secDone s q st r0 r1) q st r0 r1 := by
  cases q with
  | host seq => exact emitWork_journal h.2 9 seq _
  | fw f => exact ⟨rfl, List.mem_cons_self ..⟩

theorem SecExecuted.of_journal {s t u : State} {q : SecSrc} {st : Status} {r0 r1 : Word} (hj : t.journal = s.journal)
    (h : SecExecuted t u q st r0 r1) : SecExecuted s u q st r0 r1 := by
  cases q with
  | host seq => exact (show u.journal = _ from h).trans (by rw [hj])
  | fw f => exact ⟨h.1.trans hj, h.2⟩

/-- What has gone out stays sent when the outcome is formed. -/
theorem secDone_sent (s : State) (q : SecSrc) (st : Status) (r0 r1 : Word) : s.sent <:+ (secDone s q st r0 r1).sent := by
  cases q with
  | host seq =>
    show _ <:+ (emitWork s 9 seq _).sent
    rw [emitWork_sent]
  | fw f => exact List.suffix_cons _ _

theorem secDone_host_sent (s : State) (seq : Word) (st : Status) (r0 r1 : Word) : (secDone s (.host seq) st r0 r1).sent = s.sent :=
  emitWork_sent s 9 seq _

/-! ### Outcomes seen from an earlier state -/

theorem SecReturned.of_secRead {s u : State} {q : SecSrc} {st : Status} {a n : Nat} (h : SecReturned (secRead s q a n) u q st) :
    SecReturned s u q st := by
  cases q with
  | fw f => exact h
  | host seq =>
    obtain ⟨hsec, hj, hret⟩ := h
    rw [secRead_sent] at hsec hj
    exact ⟨hsec, hj, hret⟩

theorem SecStarted.of_secRead {s u : State} {q : SecSrc} {d : Desc} {blk : Option OpBlock} {a n : Nat}
    (h : SecStarted (secRead s q a n) u q d blk) : SecStarted s u q d blk := by
  cases q with
  | fw f => exact h
  | host seq =>
    obtain ⟨hsec, hj, hst⟩ := h
    rw [secRead_sent] at hsec hj
    exact ⟨hsec, hj, hst⟩

/-! ### Keys -/

theorem refreshKeyUse_pmFrame (s : State) (c : Nat) : PmFrame s (refreshKeyUse s c) := by
  unfold refreshKeyUse
  extract_lets k now s1
  split
  · rfl
  split
  · refine PmFrame.trans ?_ (pmFrame_of_evtOnly (raise_evtOnly _ _ _ _))
    exact setChan_pmFrame s c _
  · exact setChan_pmFrame s c _

theorem foldl_pmFrame {α : Type} (f : State → α → State) (hf : ∀ s a, PmFrame s (f s a)) (l : List α) (s : State) : PmFrame s (l.foldl f s) := by
  induction l generalizing s with
  | nil => rfl
  | cons a l ih => exact (hf s a).trans (ih _)

theorem refreshKeys_pmFrame (s : State) : PmFrame s (refreshKeys s) := foldl_pmFrame _ refreshKeyUse_pmFrame _ s

@[simp] theorem refreshKeys_sec (s : State) : (refreshKeys s).sec = s.sec := by rw [refreshKeys_pmFrame]

theorem secHeld_refreshKeys {s : State} {q : SecSrc} (h : SecHeld s q) : SecHeld (refreshKeys s) q :=
  h.congr (refreshKeys_rings s) (by rw [refreshKeys_pmFrame]) (by rw [refreshKeys_pmFrame])

theorem refreshKeys_acts (q : SecSrc) (s : State) : SecActs q s (refreshKeys s) := by
  have e := refreshKeys_pmFrame s
  refine ⟨by rw [e], onlyRing_of_rings 9 (refreshKeys_rings s), by simp, by simp, fun _ _ => ⟨refreshKeys_rings s, by rw [e]⟩⟩

theorem setSlot_acts (q : SecSrc) (s : State) (i : Nat) (f : Slot → Slot) : SecActs q s (setSlot s i f) :=
  ⟨rfl, .refl s 9, rfl, rfl, fun _ _ => ⟨rfl, rfl⟩⟩

theorem setCtx_acts (q : SecSrc) (s : State) (i : Nat) (k : CvCtx) : SecActs q s (setCtx s i k) :=
  ⟨rfl, .refl s 9, rfl, rfl, fun _ _ => ⟨rfl, rfl⟩⟩

theorem drew_acts (q : SecSrc) (s : State) : SecActs q s (drew s) := ⟨rfl, .refl s 9, rfl, rfl, fun _ _ => ⟨rfl, rfl⟩⟩

theorem countDraw_eq (s : State) : countDraw s = { s with free := s.free + 1, sec := (countDraw s).sec } := rfl

theorem countDraw_slots (s : State) : (countDraw s).sec.slots = s.sec.slots := by
  show (if _ then _ else _ : Sec).slots = _
  split <;> rfl

theorem countDraw_count (s : State) : (countDraw s).sec.drbgCount = if s.sec.drbgCount + 1 = 65536 then 0 else s.sec.drbgCount + 1 := by
  show (if _ then _ else _ : Sec).drbgCount = _
  split
  next h => exact (if_pos h).symm
  next h => exact (if_neg h).symm

theorem countDraw_acts (q : SecSrc) (s : State) : SecActs q s (countDraw s) := by
  refine ⟨rfl, .refl s 9, ?_, ?_, fun _ _ => ⟨rfl, rfl⟩⟩
  · show (if _ then _ else _ : Sec).port = _
    split <;> rfl
  · show (if _ then _ else _ : Sec).retired = _
    split <;> rfl

theorem SecHeld.acts {s t : State} {q q' : SecSrc} (h : SecHeld s q) (ha : SecActs q' s t) (hr : t.rings = s.rings)
    (hj : t.journal = s.journal) : SecHeld t q :=
  h.congr hr hj (by rw [ha.frame])

/-! ### Checks in order -/

theorem secDo_of_some {c : Option Status} {st : Status} (h : c = some st) (s : State) (q : SecSrc) (act : State) :
    secDo s q c act = secReturn s q st := by
  rw [h]
  rfl

theorem secDo_of_none {c : Option Status} (h : c = none) (s : State) (q : SecSrc) (act : State) : secDo s q c act = act := by
  rw [h]
  rfl

theorem secWindow_open {s : State} {q : SecSrc} {w : Bool} {a n : Nat} (h : secOpen s q w a n = true) (go : State) :
    secWindow s q w a n go = go := by
  rw [secWindow, if_pos h]

theorem secWindow_closed {s : State} {q : SecSrc} {w : Bool} {a n : Nat} (h : secOpen s q w a n = false) (go : State) :
    secWindow s q w a n go = secReturn (secFault s q a) q .retWindow := by
  rw [secWindow, if_neg (by simp [h])]

theorem secOpen_fw (s : State) (f : Desc) (w : Bool) (a n : Nat) : secOpen s (.fw f) w a n = true := rfl

/-- A check list returns the request or lets it act. -/
theorem secDo_induction {P : State → Prop} {s act : State} {q : SecSrc} (c : Option Status) (ret : ∀ st, P (secReturn s q st)) (go : P act) :
    P (secDo s q c act) := by
  cases c with
  | none => exact go
  | some st => exact ret st

theorem secWindow_induction {P : State → Prop} {s go : State} {q : SecSrc} (w : Bool) (a n : Nat)
    (fault : P (secReturn (secFault s q a) q .retWindow)) (h : P go) : P (secWindow s q w a n go) := by
  cases ho : secOpen s q w a n with
  | true => rwa [secWindow_open ho]
  | false => rwa [secWindow_closed ho]

/-- The block of an operation is checked and read, or the request is returned before. -/
theorem withBlock_induction {P : State → Prop} (s : State) (q : SecSrc) (d : Desc) (res : XferResult) (raw : List Byte)
    (pre : Option Status) (tagOut : Bool) (act : State → OpBlock → State) (ret : ∀ st, P (secReturn s q st))
    (fault : P (secReturn (secFault s q d.addr.toNat) q .retWindow))
    (failed : P (secReadFailed (secRead s q d.addr.toNat 64) q res d.addr.toNat)) (idle : P s)
    (go : P (act (secRead s q d.addr.toNat 64) (blockOf raw))) : P (withBlock s q d res raw pre tagOut act) := by
  unfold withBlock
  dsimp only
  split
  · exact ret _
  refine secWindow_induction _ _ _ fault (secWindow_induction _ _ _ fault ?_)
  split
  · exact failed
  split
  · exact idle
  · exact go

theorem withBlock_length {d : Desc} (h : d.len ≠ 64) (s : State) (q : SecSrc) (res : XferResult) (raw : List Byte) (pre : Option Status)
    (tagOut : Bool) (act : State → OpBlock → State) : withBlock s q d res raw pre tagOut act = secReturn s q .retLength := by
  have hfirst : firstOf [(decide (d.len ≠ 64), Status.retLength)] = some .retLength := by rw [firstOf, if_pos (decide_eq_true h)]
  rw [withBlock, hfirst]
  rfl

theorem withBlock_pre {d : Desc} {pre : Option Status} {st : Status} (h : d.len = 64) (hp : pre = some st) (s : State) (q : SecSrc)
    (res : XferResult) (raw : List Byte) (tagOut : Bool) (act : State → OpBlock → State) :
    withBlock s q d res raw pre tagOut act = secReturn s q st := by
  simp [withBlock, firstOf, h, hp]

theorem withBlock_closed {s : State} {q : SecSrc} {d : Desc} {pre : Option Status} (h : d.len = 64) (hp : pre = none)
    (ho : secOpen s q false d.addr.toNat 64 = false) (res : XferResult) (raw : List Byte) (tagOut : Bool) (act : State → OpBlock → State) :
    withBlock s q d res raw pre tagOut act = secReturn (secFault s q d.addr.toNat) q .retWindow := by
  simp [withBlock, firstOf, h, hp, secWindow_closed ho]

theorem withBlock_failed {s : State} {q : SecSrc} {d : Desc} {pre : Option Status} {tagOut : Bool} {res : XferResult} (h : d.len = 64)
    (hp : pre = none) (ho : secOpen s q false d.addr.toNat 64 = true) (ht : secOpen s q tagOut d.addr.toNat 64 = true) (hres : res ≠ .ok)
    (raw : List Byte) (act : State → OpBlock → State) :
    withBlock s q d res raw pre tagOut act = secReadFailed (secRead s q d.addr.toNat 64) q res d.addr.toNat := by
  simp [withBlock, firstOf, h, hp, secWindow_open ho, secWindow_open ht, hres]

theorem withBlock_read {s : State} {q : SecSrc} {d : Desc} {pre : Option Status} {tagOut : Bool} {raw : List Byte} (h : d.len = 64)
    (hp : pre = none) (ho : secOpen s q false d.addr.toNat 64 = true) (ht : secOpen s q tagOut d.addr.toNat 64 = true) (hraw : raw.length = 64)
    (act : State → OpBlock → State) : withBlock s q d .ok raw pre tagOut act = act (secRead s q d.addr.toNat 64) (blockOf raw) := by
  simp [withBlock, firstOf, h, hp, secWindow_open ho, secWindow_open ht, hraw]

/-! ### Each operation moves what a SEC operation may -/

theorem secReturn_acts (s : State) (q : SecSrc) (st : Status) : SecActs q s (secReturn s q st) :=
  (secReturn_checks s q st).acts fun f hf => by subst hf; rfl

theorem secFault_acts (s : State) (q : SecSrc) (a : Nat) (st : Status) : SecActs q s (secReturn (secFault s q a) q st) :=
  ((secFault_checks s q a).trans (secReturn_checks _ _ _)).acts fun f hf => by subst hf; rfl

theorem secRead_acts (s : State) (q : SecSrc) (a n : Nat) : SecActs q s (secRead s q a n) :=
  (secRead_checks s q a n).acts fun _ _ => secRead_rings s q a n

theorem secReadFailed_acts (s : State) (q : SecSrc) (res : XferResult) (a : Nat) : SecActs q s (secReadFailed s q res a) :=
  (secReadFailed_checks s q res a).acts fun f hf => by subst hf; rfl

theorem secWrite_acts (s : State) (q : SecSrc) (a : Nat) (b : List Byte) : SecActs q s (secWrite s q a b) :=
  (secWrite_checks s q a b).acts fun _ _ => by rw [secWrite_sent]

theorem secStart_acts (s : State) (q : SecSrc) (d : Desc) (blk : Option OpBlock) (a n : Nat) : SecActs q s (secStart s q d blk a n) :=
  (secStart_checks s q d blk a n).acts fun f hf => by subst hf; rfl

theorem withBlock_acts (s : State) (q : SecSrc) (d : Desc) (res : XferResult) (raw : List Byte) (pre : Option Status) (tagOut : Bool)
    (act : State → OpBlock → State) (h : ∀ t b, SecActs q t (act t b)) : SecActs q s (withBlock s q d res raw pre tagOut act) :=
  withBlock_induction (P := SecActs q s) s q d res raw pre tagOut act (secReturn_acts s q) (secFault_acts s q _ _)
    ((secRead_acts s q _ _).trans (secReadFailed_acts _ q res _)) (.refl q s) ((secRead_acts s q _ _).trans (h _ _))

theorem withBlock_checks (s : State) (q : SecSrc) (d : Desc) (res : XferResult) (raw : List Byte) (pre : Option Status) (tagOut : Bool)
    (act : State → OpBlock → State) (h : ∀ t b, SecChecks t (act t b)) : SecChecks s (withBlock s q d res raw pre tagOut act) :=
  withBlock_induction (P := SecChecks s) s q d res raw pre tagOut act (secReturn_checks s q)
    ((secFault_checks s q _).trans (secReturn_checks _ _ _))
    ((secRead_checks s q _ _).trans (secReadFailed_checks _ q res _)) (.refl s) ((secRead_checks s q _ _).trans (h _ _))

theorem cipherStart_checks (s : State) (q : SecSrc) (d : Desc) (res : XferResult) (raw : List Byte) (kinds : List Nat) (out tagOut gcm : Bool) :
    SecChecks s (cipherStart s q d res raw kinds out tagOut gcm) := by
  refine withBlock_checks _ _ _ _ _ _ _ _ fun t b => ?_
  have fault (a : Nat) : SecChecks t (secReturn (secFault t q a) q .retWindow) :=
    (secFault_checks t q a).trans (secReturn_checks _ _ _)
  exact secDo_induction _ (secReturn_checks t q)
    (secWindow_induction _ _ _ (fault _) (secWindow_induction _ _ _ (fault _) (secStart_checks _ _ _ _ _ _)))

theorem cipherStart_acts (s : State) (q : SecSrc) (d : Desc) (res : XferResult) (raw : List Byte) (kinds : List Nat) (out tagOut gcm : Bool) :
    SecActs q s (cipherStart s q d res raw kinds out tagOut gcm) :=
  withBlock_acts _ _ _ _ _ _ _ _ fun t _ => secDo_induction _ (secReturn_acts t q)
    (secWindow_induction _ _ _ (secFault_acts t q _ _) (secWindow_induction _ _ _ (secFault_acts t q _ _) (secStart_acts _ _ _ _ _ _)))

theorem makeKey_acts (s : State) (q : SecSrc) (i kind : Nat) (x : Bool) (key : List Byte) (salt : Option (List Byte)) :
    SecActs q s (makeKey s q i kind x key salt) := (setSlot_acts q s i _).trans (refreshKeys_acts q _)

theorem createKey_acts (s : State) (q : SecSrc) (kind : Nat) (x : Bool) (key : List Byte) (salt : Option (List Byte)) :
    SecActs q s (createKey s q kind x key salt) := by
  unfold createKey
  split
  · exact secReturn_acts s q _
  · exact (makeKey_acts s q _ _ _ _ _).trans (secDone_acts _ _ _ _ _)

theorem keyGenRun_acts (s : State) (q : SecSrc) (d : Desc) : SecActs q s (keyGenRun s q d) :=
  secDo_induction _ (secReturn_acts s q) (((drew_acts q s).trans (countDraw_acts q _)).trans (createKey_acts _ _ _ _ _ _))

theorem keyLoadRun_acts (s : State) (q : SecSrc) (d : Desc) (res : XferResult) (raw : List Byte) : SecActs q s (keyLoadRun s q d res raw) :=
  withBlock_acts _ _ _ _ _ _ _ _ fun t _ => secDo_induction _ (secReturn_acts t q)
    (secWindow_induction _ _ _ (secFault_acts t q _ _) (secStart_acts _ _ _ _ _ _))

theorem keyImportRun_acts (s : State) (q : SecSrc) (d : Desc) (res : XferResult) (raw : List Byte) : SecActs q s (keyImportRun s q d res raw) :=
  withBlock_acts _ _ _ _ _ _ _ _ fun t _ => secDo_induction _ (secReturn_acts t q)
    (secWindow_induction _ _ _ (secFault_acts t q _ _) (secStart_acts _ _ _ _ _ _))

theorem keyExportRun_acts (s : State) (q : SecSrc) (d : Desc) (res : XferResult) (raw : List Byte) : SecActs q s (keyExportRun s q d res raw) :=
  withBlock_acts _ _ _ _ _ _ _ _ fun t _ => secDo_induction _ (secReturn_acts t q)
    (secWindow_induction _ _ _ (secFault_acts t q _ _) ((secWrite_acts _ _ _ _).trans (secDone_acts _ _ _ _ _)))

theorem keyDeriveRun_acts (s : State) (q : SecSrc) (d : Desc) : SecActs q s (keyDeriveRun s q d) :=
  secDo_induction _ (secReturn_acts s q) (createKey_acts _ _ _ _ _ _)

theorem keyClearRun_acts (s : State) (q : SecSrc) (d : Desc) : SecActs q s (keyClearRun s q d) := by
  unfold keyClearRun
  split
  · exact .refl q s
  · exact secDo_induction _ (secReturn_acts s q) (((setSlot_acts q s _ _).trans (refreshKeys_acts q _)).trans (secDone_acts _ _ _ _ _))

theorem keyInfoRun_acts (s : State) (q : SecSrc) (d : Desc) : SecActs q s (keyInfoRun s q d) :=
  secDo_induction _ (secReturn_acts s q) (secDone_acts _ _ _ _ _)

theorem randomRun_acts (s : State) (q : SecSrc) (d : Desc) : SecActs q s (randomRun s q d) :=
  secDo_induction _ (secReturn_acts s q) (secWindow_induction _ _ _ (secFault_acts s q _ _)
    (((countDraw_acts q s).trans (secWrite_acts _ _ _ _)).trans (secDone_acts _ _ _ _ _)))

theorem cvUpdateRun_acts (s : State) (q : SecSrc) (d : Desc) : SecActs q s (cvUpdateRun s q d) := by
  refine secDo_induction _ (secReturn_acts s q) (secWindow_induction _ _ _ (secFault_acts s q _ _) ?_)
  split
  · exact .refl q s
  · exact secStart_acts _ _ _ _ _ _

theorem cvSaveRun_acts (s : State) (q : SecSrc) (d : Desc) : SecActs q s (cvSaveRun s q d) := by
  unfold cvSaveRun
  split
  · exact .refl q s
  · exact secDo_induction _ (secReturn_acts s q) (secDone_acts _ _ _ _ _)

theorem cvRestoreRun_acts (s : State) (q : SecSrc) (d : Desc) : SecActs q s (cvRestoreRun s q d) := by
  unfold cvRestoreRun
  split
  · exact .refl q s
  · exact secDo_induction _ (secReturn_acts s q) ((setCtx_acts q s _ _).trans (secDone_acts _ _ _ _ _))

/-- Table 11.3: whatever the opcode. -/
theorem secRun_acts (s : State) (q : SecSrc) (d : Desc) (res : XferResult) (raw : List Byte) : SecActs q s (secRun s q d res raw) := by
  unfold secRun
  split
  · exact cipherStart_acts _ _ _ _ _ _ _ _ _
  · exact cipherStart_acts _ _ _ _ _ _ _ _ _
  · exact cipherStart_acts _ _ _ _ _ _ _ _ _
  · exact cvUpdateRun_acts _ _ _
  · exact cvSaveRun_acts _ _ _
  · exact cvRestoreRun_acts _ _ _
  · exact keyGenRun_acts _ _ _
  · exact keyLoadRun_acts _ _ _ _ _
  · exact keyImportRun_acts _ _ _ _ _
  · exact keyExportRun_acts _ _ _ _ _
  · exact keyDeriveRun_acts _ _ _
  · exact keyClearRun_acts _ _ _
  · exact keyInfoRun_acts _ _ _
  · exact randomRun_acts _ _ _
  · exact cipherStart_acts _ _ _ _ _ _ _ _ _
  · exact .refl q s

/-! ### Taking a request up (R44, R237, R248) -/

theorem portTurn_of_empty {t : State} (h : t.sec.port = []) (n : Nat) : portTurn n t = t := by
  cases n with
  | zero => rfl
  | succ n =>
    unfold portTurn
    split
    · rfl
    · rw [h]

theorem portTurn_of_runs {t : State} (h : fwRuns t = true) (n : Nat) : portTurn n t = t := by
  cases n with
  | zero => rfl
  | succ n => rw [portTurn, if_pos h]

theorem secTaken_spec {s : State} {q : SecSrc} {op : Nat} {d : Desc} (h : secTaken s q op = some d) :
    SecHeld s q ∧ d.opcode.toNat = op := by
  cases q with
  | host seq =>
    unfold secTaken at h
    dsimp only at h
    split at h
    next w hw =>
      split at h
      next hc =>
        obtain ⟨hopen, hop, -, -⟩ := workAt_eq_some hw
        simp only [Bool.and_eq_true] at hc
        cases h
        exact ⟨⟨⟨w, hopen⟩, journalSpace_of_room hc.2⟩, hop⟩
      · cases h
    · cases h
  | fw f =>
    unfold secTaken at h
    dsimp only at h
    split at h
    next hc =>
      cases h
      exact ⟨trivial, hc.1⟩
    · cases h

/-- A request that is taken up at once runs its operation. -/
theorem secCommand_taken {s : State} {q : SecSrc} {op : Nat} {d : Desc} (h : secTaken s q op = some d) (res : XferResult) (raw : List Byte) :
    secCommand s q op res raw = secRun s q d res raw := by
  cases q with
  | host seq =>
    unfold secTaken at h
    dsimp only at h
    split at h
    next w hw =>
      split at h
      next hc =>
        cases h
        simp only [secCommand, hw, hc, if_true]
      · cases h
    · cases h
  | fw f =>
    unfold secTaken at h
    dsimp only at h
    split at h
    next hc =>
      cases h
      obtain ⟨hop, hdom, hruns, hport⟩ := hc
      have hruns' : fwRuns s = false := by simpa using hruns
      have hheld : portHeld s < 16 := by simp [portHeld, hport, hruns']
      have hback : ({ s with sec := { s.sec with port := [] } } : State) = s := by rw [← hport]
      have hturn : portTurn 16 (setSec s (fun x => { x with port := x.port ++ [{ d := d, res := res, raw := raw }] })) =
          portTurn 15 (secRun s (.fw d) d res raw) := by
        rw [portTurn, if_neg (by rw [show fwRuns (setSec s _) = fwRuns s from rfl, hruns']; simp)]
        simp only [setSec, hport, List.nil_append, hback]
      rw [secCommand, if_pos ⟨hop, hdom, hheld⟩, hturn]
      exact portTurn_of_empty ((secRun_acts s (.fw d) d res raw).port.trans hport) 15
    · cases h

end Sys2Proof.Machine

/-! # A cipher operation's checks

The checks of the descriptor, of the operation block and of the windows, in the model's order (log 46), each with its return; and the operation that waits. -/

namespace Sys2Proof.Machine

open Sys2Proof

/-! ### The checks of the descriptor and of the block -/

theorem cipherPre_key {s : State} {d : Desc} {kinds : List Nat} (h : keyWrong s (handleIn d.p0) kinds = true) (q : SecSrc) (gcm : Bool) :
    cipherPre s q d kinds gcm = some .retKey := by
  simp [cipherPre, firstOf, h]

theorem cipherPre_owner {s : State} {q : SecSrc} {d : Desc} {kinds : List Nat} (h : keyWrong s (handleIn d.p0) kinds = false)
    (ho : notOwner s q (handleIn d.p0) = true) (gcm : Bool) : cipherPre s q d kinds gcm = some .retDenied := by
  simp [cipherPre, firstOf, h, ho]

theorem cipherPre_core {s : State} {q : SecSrc} {d : Desc} {kinds : List Nat} (h : keyWrong s (handleIn d.p0) kinds = false)
    (ho : notOwner s q (handleIn d.p0) = false) (hc : coresLeft s = 0) : cipherPre s q d kinds true = some .retPart := by
  simp [cipherPre, firstOf, h, ho, hc]

theorem cipherPre_none {s : State} {q : SecSrc} {d : Desc} {kinds : List Nat} {gcm : Bool} (h : keyWrong s (handleIn d.p0) kinds = false)
    (ho : notOwner s q (handleIn d.p0) = false) (hc : gcm = false ∨ 0 < coresLeft s) : cipherPre s q d kinds gcm = none := by
  have hcore : (gcm && decide (coresLeft s = 0)) = false := by
    rcases hc with hc | hc
    · simp [hc]
    · simp [Nat.pos_iff_ne_zero.mp hc]
  simp [cipherPre, firstOf, h, ho, hcore]

theorem cipherCheck_lengths {b : OpBlock} (h : 65536 < b.srcLen.toNat ∨ b.srcLen.toNat < b.aadLen.toNat) (d : Desc) (n : Nat) :
    cipherCheck d b n = some .retLength := by
  simp [cipherCheck, firstOf, lenBad, h]

theorem lenBad_eq_false {b : OpBlock} (h1 : b.srcLen.toNat ≤ 65536) (h2 : b.aadLen.toNat ≤ b.srcLen.toNat) : lenBad b = false := by
  simp [lenBad, h1, h2]

theorem cipherCheck_overlap {b : OpBlock} {d : Desc} {n : Nat} (h1 : b.srcLen.toNat ≤ 65536) (h2 : b.aadLen.toNat ≤ b.srcLen.toNat)
    (h : overlap b.dst.toNat n b.src.toNat b.srcLen.toNat = true ∨ overlap b.dst.toNat n d.addr.toNat 64 = true) :
    cipherCheck d b n = some .retParam := by
  simp [cipherCheck, firstOf, lenBad_eq_false h1 h2, h]

theorem cipherCheck_none {b : OpBlock} {d : Desc} {n : Nat} (h1 : b.srcLen.toNat ≤ 65536) (h2 : b.aadLen.toNat ≤ b.srcLen.toNat)
    (hs : overlap b.dst.toNat n b.src.toNat b.srcLen.toNat = false) (hb : overlap b.dst.toNat n d.addr.toNat 64 = false) :
    cipherCheck d b n = none := by
  simp [cipherCheck, firstOf, lenBad_eq_false h1 h2, hs, hb]

theorem overlap_of_no_bytes (a b m : Nat) : overlap a 0 b m = false := by simp [overlap]

theorem secOpen_of_no_bytes (s : State) (q : SecSrc) (w : Bool) (a : Nat) : secOpen s q w a 0 = true := by
  cases q with
  | host seq => simp [secOpen]
  | fw f => rfl

theorem secChecks_frame {s t : State} (h : SecChecks s t) :
    t = { s with hif := t.hif, rings := t.rings, sec := t.sec, evt := t.evt, sent := t.sent } := by
  have e := h.frame
  rw [e]

/-! ### What a cipher operation comes to -/

/-- Bytes the operation writes at DST. -/
def dstLen (out : Bool) (b : OpBlock) : Nat := if out then outLen b else 0

/-- An operation whose block is read goes on with the checks of the block. -/
theorem cipherStart_read {s : State} {q : SecSrc} {d : Desc} {raw : List Byte} {kinds : List Nat} {tagOut gcm : Bool} (hl : d.len = 64)
    (hp : cipherPre s q d kinds gcm = none) (ho : secOpen s q false d.addr.toNat 64 = true) (ht : secOpen s q tagOut d.addr.toNat 64 = true)
    (hraw : raw.length = 64) (out : Bool) :
    cipherStart s q d .ok raw kinds out tagOut gcm =
      secDo (secRead s q d.addr.toNat 64) q (cipherCheck d (blockOf raw) (dstLen out (blockOf raw)))
        (secWindow (secRead s q d.addr.toNat 64) q false (blockOf raw).src.toNat (blockOf raw).srcLen.toNat
          (secWindow (secRead s q d.addr.toNat 64) q true (blockOf raw).dst.toNat (dstLen out (blockOf raw))
            (secStart (secRead s q d.addr.toNat 64) q d (some (blockOf raw)) (blockOf raw).src.toNat (blockOf raw).srcLen.toNat))) :=
  withBlock_read hl hp ho ht hraw _

section Read

variable {s : State} {q : SecSrc} {d : Desc} {raw : List Byte} {kinds : List Nat} {out tagOut gcm : Bool}

theorem cipherStart_block_returned (h : SecHeld s q) (hl : d.len = 64) (hp : cipherPre s q d kinds gcm = none)
    (ho : secOpen s q false d.addr.toNat 64 = true) (ht : secOpen s q tagOut d.addr.toNat 64 = true) (hraw : raw.length = 64) {st : Status}
    (hc : cipherCheck d (blockOf raw) (dstLen out (blockOf raw)) = some st) :
    SecReturned s (cipherStart s q d .ok raw kinds out tagOut gcm) q st := by
  rw [cipherStart_read hl hp ho ht hraw, secDo_of_some hc]
  exact (secReturn_returned (secHeld_secRead h _ _ _) st).of_secRead

theorem cipherStart_source_closed (h : SecHeld s q) (hl : d.len = 64) (hp : cipherPre s q d kinds gcm = none)
    (ho : secOpen s q false d.addr.toNat 64 = true) (ht : secOpen s q tagOut d.addr.toNat 64 = true) (hraw : raw.length = 64)
    (hc : cipherCheck d (blockOf raw) (dstLen out (blockOf raw)) = none)
    (hs : secOpen s q false (blockOf raw).src.toNat (blockOf raw).srcLen.toNat = false) :
    SecReturned s (cipherStart s q d .ok raw kinds out tagOut gcm) q .retWindow := by
  rw [cipherStart_read hl hp ho ht hraw, secDo_of_none hc, secWindow_closed (by rw [secOpen_secRead]; exact hs)]
  exact (secFault_returned (secHeld_secRead h _ _ _) _ _).of_secRead

theorem cipherStart_started (h : SecHeld s q) (hl : d.len = 64) (hp : cipherPre s q d kinds gcm = none)
    (ho : secOpen s q false d.addr.toNat 64 = true) (ht : secOpen s q tagOut d.addr.toNat 64 = true) (hraw : raw.length = 64)
    (hc : cipherCheck d (blockOf raw) (dstLen out (blockOf raw)) = none)
    (hs : secOpen s q false (blockOf raw).src.toNat (blockOf raw).srcLen.toNat = true)
    (hd : secOpen s q true (blockOf raw).dst.toNat (dstLen out (blockOf raw)) = true) :
    SecStarted s (cipherStart s q d .ok raw kinds out tagOut gcm) q d (some (blockOf raw)) := by
  rw [cipherStart_read hl hp ho ht hraw, secDo_of_none hc, secWindow_open (by rw [secOpen_secRead]; exact hs),
    secWindow_open (by rw [secOpen_secRead]; exact hd)]
  exact (secStart_started (secHeld_secRead h _ _ _) _ _ _ _).of_secRead

end Read

/-! ### Waiting -/

theorem secCommand_host_waits {s : State} {seq : Word} (h : secTurn s seq = false) (op : Nat) (res : XferResult) (raw : List Byte) :
    secCommand s (.host seq) op res raw = s := by
  unfold secCommand
  dsimp only
  split
  · rfl
  · simp [h]

/-- Firmware's operation waits in its port behind one that runs. -/
theorem secCommand_fw_waits {s : State} {d : Desc} {op : Nat} (hop : d.opcode.toNat = op) (hd : s.pwr.domHif = true) (hr : fwRuns s = true)
    (res : XferResult) (raw : List Byte) :
    (s.sec.port.length < 15 → secCommand s (.fw d) op res raw =
      { s with sec := { s.sec with port := s.sec.port ++ [{ d := d, res := res, raw := raw }] } }) ∧
    (15 ≤ s.sec.port.length → secCommand s (.fw d) op res raw = s) := by
  have hheld : portHeld s = s.sec.port.length + 1 := by rw [portHeld, if_pos hr]
  refine ⟨fun h => ?_, fun h => ?_⟩
  · rw [secCommand, if_pos ⟨hop, hd, by omega⟩, portTurn_of_runs (t := setSec s (fun x => { x with port := x.port ++ [{ d := d, res := res, raw := raw }] })) hr]
    rfl
  · rw [secCommand, if_neg (by rintro ⟨-, -, hlt⟩; omega)]

/-- Each cipher operation is one checked start: CMAC alone writes nothing at DST, and CCM_STAR alone needs no GCM core. -/
theorem cipher_of_mem {q : SecSrc} {res : XferResult} {raw : List Byte} {c : Instr} {op : Nat} {kinds : List Nat}
    (h : (c, op, kinds) ∈ [(Instr.gcmEncrypt q ⟨res, raw⟩, 0x10, [1, 2]), (.gcmDecrypt q ⟨res, raw⟩, 0x11, [1, 2]),
      (.cmac q ⟨res, raw⟩, 0x12, [7, 11]), (.ccmStar q ⟨res, raw⟩, 0x1E, [10])]) (s : State) :
    exec c s = .next (secCommand s q op res raw) ∧ ∀ d : Desc, d.opcode.toNat = op →
      ∃ tagOut, secRun s q d res raw = cipherStart s q d res raw kinds (decide (op ≠ 0x12)) tagOut (decide (op ≠ 0x1E)) := by
  simp only [List.mem_cons, List.not_mem_nil, or_false, Prod.mk.injEq] at h
  rcases h with ⟨rfl, rfl, rfl⟩ | ⟨rfl, rfl, rfl⟩ | ⟨rfl, rfl, rfl⟩ | ⟨rfl, rfl, rfl⟩
  · exact ⟨rfl, fun d h => ⟨true, by simp only [secRun, h, gcmEncryptRun]; rfl⟩⟩
  · exact ⟨rfl, fun d h => ⟨false, by simp only [secRun, h, gcmDecryptRun]; rfl⟩⟩
  · exact ⟨rfl, fun d h => ⟨!cmacVerify d, by simp only [secRun, h, cmacRun]; rfl⟩⟩
  · exact ⟨rfl, fun d h => ⟨ccmEnc d, by simp only [secRun, h, ccmStarRun]; rfl⟩⟩

/-- Settles O31: each cipher operation is one checked start with its own kinds, output and core. -/
theorem cipherOperationsChecked : Obligations.CipherOperationsChecked := by
  intro s q res raw b d c op kinds hmem hb
  obtain ⟨he, hrun⟩ := cipher_of_mem hmem s
  refine ⟨fun seq hq ht => ?_, fun hq hop hd hr => ?_, fun ht => ?_⟩
  · subst hq
    rw [he, secCommand_host_waits ht]
  · subst hq
    obtain ⟨hroom, hfull⟩ := secCommand_fw_waits hop hd hr res raw
    exact ⟨fun h => by rw [he, hroom h], fun h => by rw [he, hfull h]⟩
  obtain ⟨h, hop⟩ := secTaken_spec ht
  obtain ⟨tagOut, hstart⟩ := hrun d hop
  rw [secCommand_taken ht, hstart] at he
  have hchecks := cipherStart_checks s q d res raw kinds (decide (op ≠ 0x12)) tagOut (decide (op ≠ 0x1E))
  have returned {st : Status} (e : cipherStart s q d res raw kinds (decide (op ≠ 0x12)) tagOut (decide (op ≠ 0x1E)) = secReturn s q st) :
      SecReturned s (cipherStart s q d res raw kinds (decide (op ≠ 0x12)) tagOut (decide (op ≠ 0x1E))) q st := e ▸ secReturn_returned h st
  refine ⟨_, he, hchecks.ring, secChecks_frame hchecks, fun hl => ?_, fun hl hk => ?_, fun hl hk ho => ?_, fun hl hk ho hg hc => ?_,
    fun hl hk ho hc => ?_⟩
  · exact returned (withBlock_length hl _ _ _ _ _ _ _)
  · exact returned (withBlock_pre hl (cipherPre_key hk q _) _ _ _ _ _ _)
  · exact returned (withBlock_pre hl (cipherPre_owner hk ho _) _ _ _ _ _ _)
  · exact returned (withBlock_pre hl (by rw [decide_eq_true hg]; exact cipherPre_core hk ho hc) _ _ _ _ _ _)
  have hpre : cipherPre s q d kinds (decide (op ≠ 0x1E)) = none := cipherPre_none hk ho (hc.imp (fun e => by simp [e]) id)
  refine ⟨fun hw => ?_, fun hw hw' => ?_⟩
  · rw [cipherStart, withBlock_closed hl hpre hw]
    exact secFault_returned h _ _
  have htag : secOpen s q tagOut d.addr.toNat 64 = true := by cases tagOut <;> assumption
  refine ⟨fun hres => ?_, fun hres hraw => ?_⟩
  · rw [cipherStart, withBlock_failed hl hpre hw htag hres]
    exact (secReadFailed_returned (secHeld_secRead h _ _ _) _ _).of_secRead
  subst hres hb
  refine ⟨fun hlen => ?_, fun h1 h2 hout hover => ?_, fun h1 h2 hs hb => ?_⟩
  · exact cipherStart_block_returned h hl hpre hw htag hraw (cipherCheck_lengths hlen d _)
  · exact cipherStart_block_returned h hl hpre hw htag hraw (by rw [dstLen, if_pos (decide_eq_true hout)]; exact cipherCheck_overlap h1 h2 hover)
  · have hcheck : cipherCheck d (blockOf raw) (dstLen (decide (op ≠ 0x12)) (blockOf raw)) = none := by
      unfold dstLen
      split
      · exact cipherCheck_none h1 h2 hs hb
      · exact cipherCheck_none h1 h2 (overlap_of_no_bytes _ _ _) (overlap_of_no_bytes _ _ _)
    refine ⟨cipherStart_source_closed h hl hpre hw htag hraw hcheck, fun hsrc hdst => ?_⟩
    refine cipherStart_started h hl hpre hw htag hraw hcheck hsrc ?_
    unfold dstLen
    split
    · exact hdst
    · exact secOpen_of_no_bytes _ _ _ _

end Sys2Proof.Machine

/-! # Keys entering the key store

KEY_LOAD and KEY_IMPORT read an operation block and start; KEY_GEN and KEY_DERIVE fill the lowest free slot of their requester's range at once. -/

namespace Sys2Proof.Machine

open Sys2Proof

/-! ### Free slots and handles -/

theorem lt_of_freeKeySlot {s : State} {q : SecSrc} {i : Nat} (h : freeKeySlot s q = some i) : i < 64 := by
  have hm := List.mem_of_find?_eq_some h
  unfold rangeOfOwner at hm
  split at hm <;> exact List.mem_range.mp (List.mem_filter.mp hm).1

theorem slotAt_congr {s t : State} (h : t.sec.slots = s.sec.slots) (i : Nat) : slotAt t i = slotAt s i := by
  rw [slotAt, h, slotAt]

theorem slotAt_of_sec {s t : State} (h : t.sec = s.sec) (i : Nat) : slotAt t i = slotAt s i := slotAt_congr (by rw [h]) i

theorem freeKeySlot_congr {s t : State} (h : t.sec.slots = s.sec.slots) (hs : t.sec.split = s.sec.split) (q : SecSrc) :
    freeKeySlot t q = freeKeySlot s q := by
  have hr : rangeOfOwner t q = rangeOfOwner s q := by
    unfold rangeOfOwner
    split <;> rw [hs]
  unfold freeKeySlot
  rw [hr]
  simp only [slotAt_congr h]

theorem handleOf_congr {s t : State} (h : t.sec.slots = s.sec.slots) (i : Nat) : handleOf t i = handleOf s i := by
  rw [handleOf, slotAt_congr h, handleOf]

theorem freeKeySlot_secRead (s : State) (q q' : SecSrc) (a n : Nat) : freeKeySlot (secRead s q a n) q' = freeKeySlot s q' := by
  rw [secRead_sent]
  rfl

/-! ### A key created -/

/-- A slot that holds a new key. -/
def Slot.holding (k : Slot) (q : SecSrc) (kind : Nat) (x : Bool) (key : List Byte) (salt : Option (List Byte)) : Slot :=
  { k with valid := true, kind := BitVec.ofNat 4 kind, owner := secOwner q, exportable := x, key := key, salt := salt, pn := 1 }

theorem slotAt_makeKey {i : Nat} (h : i < 64) (s : State) (q : SecSrc) (kind : Nat) (x : Bool) (key : List Byte) (salt : Option (List Byte)) :
    slotAt (makeKey s q i kind x key salt) i = (slotAt s i).holding q kind x key salt := by
  rw [makeKey, slotAt_of_sec (refreshKeys_sec _), slotAt_setSlot, if_pos ⟨rfl, h⟩]
  rfl

theorem slotAt_makeKey_ne {i j : Nat} (h : j ≠ i) (s : State) (q : SecSrc) (kind : Nat) (x : Bool) (key : List Byte)
    (salt : Option (List Byte)) : slotAt (makeKey s q i kind x key salt) j = slotAt s j := by
  rw [makeKey, slotAt_of_sec (refreshKeys_sec _), slotAt_setSlot, if_neg (fun e => h e.1.symm)]

theorem makeKey_journal (s : State) (q : SecSrc) (i kind : Nat) (x : Bool) (key : List Byte) (salt : Option (List Byte)) :
    (makeKey s q i kind x key salt).journal = s.journal := by
  rw [makeKey, refreshKeys_pmFrame]
  rfl

theorem secHeld_makeKey {s : State} {q : SecSrc} (h : SecHeld s q) (q' : SecSrc) (i kind : Nat) (x : Bool) (key : List Byte)
    (salt : Option (List Byte)) : SecHeld (makeKey s q' i kind x key salt) q :=
  secHeld_refreshKeys (h.congr (t := setSlot s i _) rfl rfl rfl)

theorem createKey_of_free {s : State} {q : SecSrc} {i : Nat} (hi : freeKeySlot s q = some i) (kind : Nat) (x : Bool) (key : List Byte)
    (salt : Option (List Byte)) :
    createKey s q kind x key salt = secDone (makeKey s q i kind x key salt) q .ok (word (handleOf s i).toNat) 0 := by
  simp only [createKey, hi]

/-- A created key fills the lowest free slot of its requester's range, and its handle is the result. -/
theorem createKey_made {s : State} {q : SecSrc} {i : Nat} (h : SecHeld s q) (hi : freeKeySlot s q = some i) (kind : Nat) (x : Bool)
    (key : List Byte) (salt : Option (List Byte)) :
    SecExecuted s (createKey s q kind x key salt) q .ok (word (handleOf s i).toNat) 0 ∧
    slotAt (createKey s q kind x key salt) i = (slotAt s i).holding q kind x key salt ∧
    ∀ j, j ≠ i → slotAt (createKey s q kind x key salt) j = slotAt s j := by
  rw [createKey_of_free hi]
  refine ⟨(secDone_executed (secHeld_makeKey h q i kind x key salt) _ _ _).of_journal (makeKey_journal _ _ _ _ _ _ _), ?_, fun j hj => ?_⟩
  · rw [slotAt_secDone, slotAt_makeKey (lt_of_freeKeySlot hi)]
  · rw [slotAt_secDone, slotAt_makeKey_ne hj]

/-! ### KEY_LOAD and KEY_IMPORT -/

theorem keyLoadPre_denied {s : State} {q : SecSrc} (h : secOwner q = .fw ∨ s.sec.plainDis = true) (d : Desc) :
    keyLoadPre s q d = some .retDenied := by
  have hd : (decide (secOwner q ≠ .pf) || s.sec.plainDis) = true := by
    rcases h with h | h <;> simp [h]
  rw [keyLoadPre, firstOf, if_pos hd]

theorem keyLoadPre_of_host {s : State} {q : SecSrc} (hq : secOwner q = .pf) (hp : s.sec.plainDis = false) (d : Desc) :
    keyLoadPre s q d = if kindMade (kindOf d) then none else some .retParam := by
  cases hk : kindMade (kindOf d) <;> simp [keyLoadPre, firstOf, hq, hp, hk]

theorem secOpen_of_host {q : SecSrc} (h : secOwner q = .pf) (s : State) (w : Bool) {a n : Nat} (hw : inWindows s 0 w a n = true) :
    secOpen s q w a n = true := by
  cases q with
  | host seq => simp [secOpen, hw]
  | fw f => simp [secOwner] at h

/-- A key that is read in: its block's length and the room for it are checked, and SRC is read. -/
def keyReadIn (q : SecSrc) (d : Desc) (lengthBad : OpBlock → Bool) (t : State) (b : OpBlock) : State :=
  secDo t q (firstOf [(lengthBad b, .retLength), ((freeKeySlot t q).isNone, .retBusy)])
    (secWindow t q false b.src.toNat b.srcLen.toNat (secStart t q d (some b) b.src.toNat b.srcLen.toNat))

theorem keyLoadRun_eq (s : State) (q : SecSrc) (d : Desc) (res : XferResult) (raw : List Byte) : keyLoadRun s q d res raw =
    withBlock s q d res raw (keyLoadPre s q d) false (keyReadIn q d (fun b => !kindBytes (kindOf d) b.srcLen.toNat)) := rfl

theorem keyImportRun_eq (s : State) (q : SecSrc) (d : Desc) (res : XferResult) (raw : List Byte) : keyImportRun s q d res raw =
    withBlock s q d res raw (keyImportPre s q d) false
      (keyReadIn q d (fun b => decide (b.srcLen.toNat < 8) || !kindBytes (kindOf d) (b.srcLen.toNat - 8))) := rfl

/-- What a read-in key comes to once its block has been read. -/
theorem keyReadIn_spec {s : State} {q : SecSrc} (h : SecHeld s q) (d : Desc) (lengthBad : OpBlock → Bool) (b : OpBlock) (a n : Nat) :
    (lengthBad b = true → SecReturned s (keyReadIn q d lengthBad (secRead s q a n) b) q .retLength) ∧
    (lengthBad b = false → freeKeySlot s q = none → SecReturned s (keyReadIn q d lengthBad (secRead s q a n) b) q .retBusy) ∧
    (lengthBad b = false → freeKeySlot s q ≠ none → secOpen s q false b.src.toNat b.srcLen.toNat = true →
      SecStarted s (keyReadIn q d lengthBad (secRead s q a n) b) q d (some b)) := by
  have hread := secHeld_secRead h q a n
  refine ⟨fun hb => ?_, fun hb hf => ?_, fun hb hf ho => ?_⟩
  · rw [keyReadIn, secDo_of_some (st := .retLength) (by rw [firstOf, if_pos hb])]
    exact (secReturn_returned hread _).of_secRead
  · rw [keyReadIn, secDo_of_some (st := .retBusy) (by simp [firstOf, hb, freeKeySlot_secRead, hf])]
    exact (secReturn_returned hread _).of_secRead
  · rw [keyReadIn, secDo_of_none (by simp [firstOf, hb, freeKeySlot_secRead, hf]), secWindow_open (by rw [secOpen_secRead]; exact ho)]
    exact (secStart_started hread _ _ _ _).of_secRead

/-- The execution of a request that is taken up. -/
theorem exec_taken {s : State} {q : SecSrc} {op : Nat} {d : Desc} {c : Instr} {res : XferResult} {raw : List Byte}
    (ht : secTaken s q op = some d) (he : exec c s = .next (secCommand s q op res raw)) :
    exec c s = .next (secRun s q d res raw) ∧ d.opcode.toNat = op ∧ SecHeld s q := by
  obtain ⟨h, hop⟩ := secTaken_spec ht
  exact ⟨by rw [he, secCommand_taken ht], hop, h⟩

theorem keyLoad_spec {s : State} {q : SecSrc} {res : XferResult} {raw : List Byte} {b : OpBlock} {d : Desc} (hb : b = blockOf raw)
    (ht : secTaken s q 0x17 = some d) : ∃ t, exec (.keyLoad q ⟨res, raw⟩) s = .next t ∧ OnlyRing s t 9 ∧
      (d.len ≠ 64 → SecReturned s t q .retLength) ∧
      (d.len = 64 → (secOwner q = .fw ∨ s.sec.plainDis = true) → SecReturned s t q .retDenied) ∧
      (d.len = 64 → secOwner q = .pf → s.sec.plainDis = false →
        (kindMade (kindOf d) = false → SecReturned s t q .retParam) ∧
        (kindMade (kindOf d) = true → inWindows s 0 false d.addr.toNat 64 = true →
          (res ≠ .ok → SecReturned s t q .retDma) ∧
          (res = .ok → raw.length = 64 →
            (kindBytes (kindOf d) b.srcLen.toNat = false → SecReturned s t q .retLength) ∧
            (kindBytes (kindOf d) b.srcLen.toNat = true → freeKeySlot s q = none → SecReturned s t q .retBusy) ∧
            (kindBytes (kindOf d) b.srcLen.toNat = true → freeKeySlot s q ≠ none →
              inWindows s 0 false b.src.toNat b.srcLen.toNat = true → SecStarted s t q d (some b))))) := by
  obtain ⟨he, hop, h⟩ := exec_taken ht (show exec (.keyLoad q ⟨res, raw⟩) s = .next (secCommand s q 0x17 res raw) from rfl)
  have hrun : secRun s q d res raw = keyLoadRun s q d res raw := by simp only [secRun, hop]
  rw [hrun] at he
  have returned {st : Status} (e : keyLoadRun s q d res raw = secReturn s q st) : SecReturned s (keyLoadRun s q d res raw) q st :=
    e ▸ secReturn_returned h st
  refine ⟨_, he, (keyLoadRun_acts s q d res raw).ring, fun hl => ?_, fun hl hden => ?_, fun hl hq hp => ⟨fun hk => ?_, fun hk hw => ?_⟩⟩
  · exact returned (withBlock_length hl _ _ _ _ _ _ _)
  · exact returned (withBlock_pre hl (keyLoadPre_denied hden d) _ _ _ _ _ _)
  · exact returned (withBlock_pre hl (by rw [keyLoadPre_of_host hq hp, hk]; rfl) _ _ _ _ _ _)
  have hpre : keyLoadPre s q d = none := by rw [keyLoadPre_of_host hq hp, if_pos hk]
  have hopen := secOpen_of_host hq s false hw
  rw [keyLoadRun_eq]
  refine ⟨fun hres => ?_, fun hres hraw => ?_⟩
  · rw [withBlock_failed hl hpre hopen hopen hres]
    exact (secReadFailed_returned (secHeld_secRead h _ _ _) _ _).of_secRead
  · subst hres hb
    rw [withBlock_read hl hpre hopen hopen hraw]
    obtain ⟨hlen, hbusy, hstart⟩ := keyReadIn_spec h d (fun b => !kindBytes (kindOf d) b.srcLen.toNat) (blockOf raw) d.addr.toNat 64
    exact ⟨fun hx => hlen (by simp [hx]), fun hx => hbusy (by simp [hx]),
      fun hx hf hs => hstart (by simp [hx]) hf (secOpen_of_host hq s false hs)⟩

theorem keyImportPre_of_kind {d : Desc} (h : kindMade (kindOf d) = true) (s : State) (q : SecSrc) :
    keyImportPre s q d = firstOf [(keyWrong s (handleIn d.p1) [9], .retKey), (notOwner s q (handleIn d.p1), .retDenied)] := by
  rw [keyImportPre, firstOf, if_neg (by simp [h])]

theorem keyImport_spec {s : State} {q : SecSrc} {res : XferResult} {raw : List Byte} {b : OpBlock} {d : Desc} (hb : b = blockOf raw)
    (ht : secTaken s q 0x18 = some d) (hl : d.len = 64) (hk : kindMade (kindOf d) = true) :
    ∃ t, exec (.keyImport q ⟨res, raw⟩) s = .next t ∧ OnlyRing s t 9 ∧
      (keyWrong s (handleIn d.p1) [9] = true → SecReturned s t q .retKey) ∧
      (keyWrong s (handleIn d.p1) [9] = false → notOwner s q (handleIn d.p1) = true → SecReturned s t q .retDenied) ∧
      (keyWrong s (handleIn d.p1) [9] = false → notOwner s q (handleIn d.p1) = false → secOpen s q false d.addr.toNat 64 = true →
        res = .ok → raw.length = 64 →
        ((b.srcLen.toNat < 8 ∨ kindBytes (kindOf d) (b.srcLen.toNat - 8) = false) → SecReturned s t q .retLength) ∧
        (8 ≤ b.srcLen.toNat → kindBytes (kindOf d) (b.srcLen.toNat - 8) = true →
          (freeKeySlot s q = none → SecReturned s t q .retBusy) ∧
          (freeKeySlot s q ≠ none → secOpen s q false b.src.toNat b.srcLen.toNat = true → SecStarted s t q d (some b)))) := by
  obtain ⟨he, hop, h⟩ := exec_taken ht (show exec (.keyImport q ⟨res, raw⟩) s = .next (secCommand s q 0x18 res raw) from rfl)
  have hrun : secRun s q d res raw = keyImportRun s q d res raw := by simp only [secRun, hop]
  rw [hrun] at he
  have returned {st : Status} (hp : keyImportPre s q d = some st) : SecReturned s (keyImportRun s q d res raw) q st := by
    rw [keyImportRun_eq, withBlock_pre hl hp]
    exact secReturn_returned h st
  refine ⟨_, he, (keyImportRun_acts s q d res raw).ring, fun hw => ?_, fun hw ho => ?_, fun hw ho hopen hres hraw => ?_⟩
  · exact returned (by simp [keyImportPre_of_kind hk, firstOf, hw])
  · exact returned (by simp [keyImportPre_of_kind hk, firstOf, hw, ho])
  subst hres hb
  have hpre : keyImportPre s q d = none := by simp [keyImportPre_of_kind hk, firstOf, hw, ho]
  rw [keyImportRun_eq, withBlock_read hl hpre hopen hopen hraw]
  obtain ⟨hlen, hbusy, hstart⟩ := keyReadIn_spec h d
    (fun b => decide (b.srcLen.toNat < 8) || !kindBytes (kindOf d) (b.srcLen.toNat - 8)) (blockOf raw) d.addr.toNat 64
  refine ⟨fun hx => hlen ?_, fun h8 hx => ⟨hbusy ?_, hstart ?_⟩⟩
  · rcases hx with hx | hx <;> simp [hx]
  · simp [h8, hx]
  · simp [h8, hx]

/-! ### KEY_GEN and KEY_DERIVE -/

theorem kindOf_lt_of_kindMade {d : Desc} (h : kindMade (kindOf d) = true) : kindOf d < 16 := by
  simp only [kindMade, Bool.and_eq_true, decide_eq_true_eq] at h
  omega

/-- The state KEY_GEN creates its key from: its draws counted. -/
def drawn (s : State) : State := countDraw (drew s)

theorem drawn_slots (s : State) : (drawn s).sec.slots = s.sec.slots := countDraw_slots (drew s)

theorem drawn_split (s : State) : (drawn s).sec.split = s.sec.split := by
  show (if _ then _ else _ : Sec).split = _
  split <;> rfl

theorem drawn_count (s : State) : (drawn s).sec.drbgCount = if s.sec.drbgCount + 1 = 65536 then 0 else s.sec.drbgCount + 1 :=
  countDraw_count (drew s)

theorem freeKeySlot_drawn (s : State) (q : SecSrc) : freeKeySlot (drawn s) q = freeKeySlot s q :=
  freeKeySlot_congr (drawn_slots s) (drawn_split s) q

theorem createKey_drbg (s : State) (q : SecSrc) (kind : Nat) (x : Bool) (key : List Byte) (salt : Option (List Byte)) :
    (createKey s q kind x key salt).sec.drbgCount = s.sec.drbgCount := by
  unfold createKey
  split
  · exact congrArg Sec.drbgCount (by
      cases q with
      | host seq => exact returnWork_sec s 9 seq _
      | fw f => rfl)
  · rw [secDone_sec, makeKey, refreshKeys_sec]
    rfl

/-- KEY_GEN once its checks pass: the key drawn enters a slot. -/
theorem keyGenRun_draws {s : State} {q : SecSrc} {d : Desc} {i : Nat} (hk : kindMade (kindOf d) = true) (hf : s.sec.trngFail = false)
    (hi : freeKeySlot s q = some i) : ∃ x key salt, keyGenRun s q d = createKey (drawn s) q (kindOf d) x key salt :=
  ⟨_, _, _, secDo_of_none (by simp [firstOf, hk, hf, hi]) s q _⟩

theorem keyGen_spec {s : State} {q : SecSrc} {d : Desc} (ht : secTaken s q 0x16 = some d) :
    ∃ t, exec (.keyGen q) s = .next t ∧ OnlyRing s t 9 ∧
      (kindMade (kindOf d) = false → SecReturned s t q .retParam) ∧
      (kindMade (kindOf d) = true → s.sec.trngFail = true → SecReturned s t q .retPart) ∧
      (kindMade (kindOf d) = true → s.sec.trngFail = false → freeKeySlot s q = none → SecReturned s t q .retBusy) ∧
      (∀ i, kindMade (kindOf d) = true → s.sec.trngFail = false → freeKeySlot s q = some i →
        SecExecuted s t q .ok (word (handleOf s i).toNat) 0 ∧ (slotAt t i).valid = true ∧ (slotAt t i).kind.toNat = kindOf d ∧
        (slotAt t i).owner = secOwner q ∧ (slotAt t i).gen = (slotAt s i).gen ∧ (slotAt t i).pn = 1 ∧
        t.sec.drbgCount = (if s.sec.drbgCount + 1 = 65536 then 0 else s.sec.drbgCount + 1) ∧
        ∀ j, j ≠ i → slotAt t j = slotAt s j) := by
  obtain ⟨he, hop, h⟩ := exec_taken ht (show exec (.keyGen q) s = .next (secCommand s q 0x16 .ok []) from rfl)
  have hrun : secRun s q d .ok [] = keyGenRun s q d := by simp only [secRun, hop]
  rw [hrun] at he
  have returned {st : Status} (e : keyGenRun s q d = secReturn s q st) : SecReturned s (keyGenRun s q d) q st := e ▸ secReturn_returned h st
  refine ⟨_, he, (keyGenRun_acts s q d).ring, fun hk => ?_, fun hk hf => ?_, fun hk hf hi => ?_, fun i hk hf hi => ?_⟩
  · exact returned (secDo_of_some (by simp [firstOf, hk]) _ _ _)
  · exact returned (secDo_of_some (by simp [firstOf, hk, hf]) _ _ _)
  · exact returned (secDo_of_some (by simp [firstOf, hk, hf, hi]) _ _ _)
  · obtain ⟨x, key, salt, e⟩ := keyGenRun_draws hk hf hi
    have hheld : SecHeld (drawn s) q := h.congr rfl rfl rfl
    obtain ⟨hex, hself, hother⟩ := createKey_made hheld ((freeKeySlot_drawn s q).trans hi) (kindOf d) x key salt
    rw [handleOf_congr (drawn_slots s)] at hex
    rw [slotAt_congr (drawn_slots s)] at hself
    rw [e, hself]
    refine ⟨hex.of_journal rfl, rfl, ?_, rfl, rfl, rfl, ?_, fun j hj => ?_⟩
    · exact (BitVec.toNat_ofNat _ _).trans (Nat.mod_eq_of_lt (kindOf_lt_of_kindMade hk))
    · rw [createKey_drbg, drawn_count]
    · rw [hother j hj, slotAt_congr (drawn_slots s)]

theorem deriveCheck_source {s : State} {q : SecSrc} {d : Desc} (h : selectorOf d ≤ 2) :
    deriveCheck s q d = firstOf [(keyWrong s (handleIn d.p1) [6], .retKey), (notOwner s q (handleIn d.p1), .retDenied),
      ((freeKeySlot s q).isNone, .retBusy)] := by
  have h8 : selectorOf d ≠ 8 := by omega
  have h3 : ¬ 3 < selectorOf d := by omega
  simp [deriveCheck, firstOf, h, h8, h3]

theorem deriveCheck_none {s : State} {q : SecSrc} {d : Desc} {i : Nat} (hi : freeKeySlot s q = some i)
    (h : selectorOf d = 3 ∨ (selectorOf d ≤ 2 ∧ keyWrong s (handleIn d.p1) [6] = false ∧ notOwner s q (handleIn d.p1) = false)) :
    deriveCheck s q d = none := by
  rcases h with h | ⟨h2, hk, ho⟩
  · simp [deriveCheck, firstOf, h, hi]
  · rw [deriveCheck_source h2]
    simp [firstOf, hk, ho, hi]

theorem keyDerive_spec {s : State} {q : SecSrc} {d : Desc} (ht : secTaken s q 0x1A = some d) :
    ∃ t, exec (.keyDerive q) s = .next t ∧ OnlyRing s t 9 ∧
      (selectorOf d = 8 → SecReturned s t q .retDenied) ∧
      (3 < selectorOf d → selectorOf d ≠ 8 → SecReturned s t q .retParam) ∧
      (selectorOf d ≤ 2 → keyWrong s (handleIn d.p1) [6] = true → SecReturned s t q .retKey) ∧
      (∀ i, (selectorOf d = 3 ∨ (selectorOf d ≤ 2 ∧ keyWrong s (handleIn d.p1) [6] = false ∧ notOwner s q (handleIn d.p1) = false)) →
        freeKeySlot s q = some i →
        SecExecuted s t q .ok (word (handleOf s i).toNat) 0 ∧ (slotAt t i).valid = true ∧ (slotAt t i).key = derived s d ∧
        (slotAt t i).kind = (if selectorOf d = 2 then 8 else 7) ∧ ∀ j, j ≠ i → slotAt t j = slotAt s j) := by
  obtain ⟨he, hop, h⟩ := exec_taken ht (show exec (.keyDerive q) s = .next (secCommand s q 0x1A .ok []) from rfl)
  have hrun : secRun s q d .ok [] = keyDeriveRun s q d := by simp only [secRun, hop]
  rw [hrun] at he
  have returned {st : Status} (hc : deriveCheck s q d = some st) : SecReturned s (keyDeriveRun s q d) q st := by
    rw [keyDeriveRun, secDo_of_some hc]
    exact secReturn_returned h st
  refine ⟨_, he, (keyDeriveRun_acts s q d).ring, fun h8 => ?_, fun h3 h8 => ?_, fun h2 hk => ?_, fun i hc hi => ?_⟩
  · exact returned (by simp [deriveCheck, firstOf, h8])
  · exact returned (by simp [deriveCheck, firstOf, h8, h3])
  · exact returned (by rw [deriveCheck_source h2, firstOf, if_pos hk])
  · rw [keyDeriveRun, secDo_of_none (deriveCheck_none hi hc)]
    obtain ⟨hex, hself, hother⟩ := createKey_made h hi (if selectorOf d = 2 then 8 else 7) (bitOf d.p0 20) (derived s d) none
    rw [hself]
    refine ⟨hex, rfl, rfl, ?_, hother⟩
    show BitVec.ofNat 4 _ = _
    split <;> rfl

/-- Settles O32: each key operation runs its checks in order, and a created key fills the lowest free slot. -/
theorem keysEnterTheStore : Obligations.KeysEnterTheStore :=
  fun _ _ _ _ _ _ hb => ⟨keyLoad_spec hb, keyImport_spec hb, keyGen_spec, keyDerive_spec⟩

end Sys2Proof.Machine

/-! # Keys exported, cleared and told of; random bytes

KEY_EXPORT, KEY_CLEAR, KEY_INFO and RANDOM act in one step, each after its checks. -/

namespace Sys2Proof.Machine

open Sys2Proof

/-! ### What a return leaves of the keys and of what was sent -/

theorem secReturn_sec (s : State) (q : SecSrc) (st : Status) : (secReturn s q st).sec = s.sec := by
  cases q with
  | host seq => exact returnWork_sec s 9 seq st
  | fw f => rfl

theorem secReturn_host_kept (s : State) (seq : Word) (st : Status) :
    (secReturn s (.host seq) st).journal = s.journal ∧ (secReturn s (.host seq) st).sent = s.sent :=
  ⟨returnWork_journal s 9 seq st, returnWork_sent s 9 seq st⟩

theorem secRead_sec (s : State) (q : SecSrc) (a n : Nat) : (secRead s q a n).sec = s.sec := by rw [secRead_sent]

theorem secRead_journal (s : State) (q : SecSrc) (a n : Nat) : (secRead s q a n).journal = s.journal := by rw [secRead_sent]

theorem secWindow_sec {s go : State} (h : go.sec = s.sec) (q : SecSrc) (w : Bool) (a n : Nat) : (secWindow s q w a n go).sec = s.sec := by
  refine secWindow_induction (P := fun t => t.sec = s.sec) w a n ?_ h
  rw [secReturn_sec, secFault_sec]

/-! ### KEY_EXPORT (R246) -/

/-- The key wrapped and written, with its outcome. -/
def exportWritten (q : SecSrc) (d : Desc) (t : State) (b : OpBlock) : State :=
  secDone (secWrite t q b.dst.toNat (exported t d)) q .ok (word (exportLen t d)) 0

/-- KEY_EXPORT once its block has been read. -/
def exportAct (q : SecSrc) (d : Desc) (t : State) (b : OpBlock) : State :=
  secDo t q (firstOf [(overlap b.dst.toNat (exportLen t d) d.addr.toNat 64, .retParam)])
    (secWindow t q true b.dst.toNat (exportLen t d) (exportWritten q d t b))

theorem keyExportRun_eq (s : State) (q : SecSrc) (d : Desc) (res : XferResult) (raw : List Byte) :
    keyExportRun s q d res raw = withBlock s q d res raw (keyExportPre s q d) false (exportAct q d) := rfl

theorem exportAct_sec (t : State) (q : SecSrc) (d : Desc) (b : OpBlock) : (exportAct q d t b).sec = t.sec := by
  refine secDo_induction (P := fun u => u.sec = t.sec) _ (secReturn_sec t q) (secWindow_sec ?_ q _ _ _)
  rw [exportWritten, secDone_sec, secWrite_sec]

theorem keyExportRun_sec (s : State) (q : SecSrc) (d : Desc) (res : XferResult) (raw : List Byte) : (keyExportRun s q d res raw).sec = s.sec := by
  refine withBlock_induction (P := fun t => t.sec = s.sec) s q d res raw _ _ (exportAct q d) (secReturn_sec s q) ?_ ?_ rfl ?_
  · rw [secReturn_sec, secFault_sec]
  · rw [secReadFailed_sec, secRead_sec]
  · rw [exportAct_sec, secRead_sec]

/-- A key that may not be exported is returned by a check, before anything is read or written. -/
theorem keyExportPre_of_private {s : State} {d : Desc} (h : (slotAt s (handleSlot (handleIn d.p0))).exportable = false) (q : SecSrc) :
    ∃ st, keyExportPre s q d = some st := by
  have hx : exportOk s d = false := by simp [exportOk, h]
  unfold keyExportPre
  dsimp only [firstOf]
  split
  · exact ⟨_, rfl⟩
  split
  · exact ⟨_, rfl⟩
  · exact ⟨_, by rw [if_pos (by simp [hx])]⟩

theorem keyExportRun_of_private {s : State} {d : Desc} (h : (slotAt s (handleSlot (handleIn d.p0))).exportable = false) (q : SecSrc)
    (res : XferResult) (raw : List Byte) : ∃ st, keyExportRun s q d res raw = secReturn s q st := by
  by_cases hl : d.len = 64
  · obtain ⟨st, hst⟩ := keyExportPre_of_private h q
    exact ⟨st, withBlock_pre hl hst _ _ _ _ _ _⟩
  · exact ⟨_, withBlock_length hl _ _ _ _ _ _ _⟩

theorem exported_secRead (s : State) (q : SecSrc) (a n : Nat) (d : Desc) : exported (secRead s q a n) d = exported s d := by
  rw [secRead_sent]
  rfl

theorem exportLen_secRead (s : State) (q : SecSrc) (a n : Nat) (d : Desc) : exportLen (secRead s q a n) d = exportLen s d := by
  rw [secRead_sent]
  rfl

theorem writeRequests_secRead (s : State) (q : SecSrc) (a n f x : Nat) (l : List Byte) :
    writeRequests (secRead s q a n) f x l = writeRequests s f x l := by
  rw [secRead_sent]
  rfl

/-- KEY_EXPORT writes the wrapped key and answers its length. -/
theorem exportWritten_spec {s : State} {q : SecSrc} (h : SecHeld s q) (d : Desc) (b : OpBlock) (a n : Nat) :
    SecExecuted s (exportWritten q d (secRead s q a n) b) q .ok (word (exportLen s d)) 0 ∧
    (exported s d ≠ [] → ∀ r, q = .host r → ∀ o, o ∈ writeRequests s 0 b.dst.toNat (exported s d) →
      o ∈ (exportWritten q d (secRead s q a n) b).sent) := by
  rw [exportWritten, exported_secRead, exportLen_secRead]
  refine ⟨?_, fun hne r hq o ho => ?_⟩
  · refine (secDone_executed (secHeld_secWrite (secHeld_secRead h _ _ _) _ _ _) _ _ _).of_journal ?_
    rw [secWrite_journal, secRead_journal]
  · subst hq
    rw [secDone_host_sent, secWrite_host hne, writeRequests_secRead]
    exact List.mem_append_left _ ho

theorem keyExport_spec {s : State} {q : SecSrc} {res : XferResult} {raw : List Byte} {b : OpBlock} {d : Desc} (hb : b = blockOf raw)
    (ht : secTaken s q 0x19 = some d) : ∃ t, exec (.keyExport q ⟨res, raw⟩) s = .next t ∧ OnlyRing s t 9 ∧ t.sec = s.sec ∧
      (d.len ≠ 64 → SecReturned s t q .retLength) ∧
      ((slotAt s (handleSlot (handleIn d.p0))).exportable = false → ∀ r, q = .host r → t.journal = s.journal ∧ t.sent = s.sent) ∧
      (d.len = 64 → keyWrong s (handleIn d.p0) [1, 2, 3, 4, 5, 6, 7, 8, 9, 10, 11] = false → keyWrong s (handleIn d.p1) [8, 9] = false →
        (notOwner s q (handleIn d.p0) = true ∨ notOwner s q (handleIn d.p1) = true → SecReturned s t q .retDenied) ∧
        (notOwner s q (handleIn d.p0) = false → notOwner s q (handleIn d.p1) = false →
          (exportOk s d = false → SecReturned s t q .retKey) ∧
          (exportOk s d = true → secOpen s q false d.addr.toNat 64 = true → res = .ok → raw.length = 64 →
            overlap b.dst.toNat (exportLen s d) d.addr.toNat 64 = false → secOpen s q true b.dst.toNat (exportLen s d) = true →
            SecExecuted s t q .ok (word (exportLen s d)) 0 ∧
            (exported s d ≠ [] → ∀ r, q = .host r → ∀ o, o ∈ writeRequests s 0 b.dst.toNat (exported s d) → o ∈ t.sent)))) := by
  obtain ⟨he, hop, h⟩ := exec_taken ht (show exec (.keyExport q ⟨res, raw⟩) s = .next (secCommand s q 0x19 res raw) from rfl)
  have hrun : secRun s q d res raw = keyExportRun s q d res raw := by simp only [secRun, hop]
  rw [hrun] at he
  have returned {st : Status} (e : keyExportRun s q d res raw = secReturn s q st) : SecReturned s (keyExportRun s q d res raw) q st :=
    e ▸ secReturn_returned h st
  refine ⟨_, he, (keyExportRun_acts s q d res raw).ring, keyExportRun_sec s q d res raw, fun hl => ?_, fun hx r hq => ?_,
    fun hl hk hw => ⟨fun ho => ?_, fun ho ho' => ⟨fun hx => ?_, fun hx hopen hres hraw hover hdst => ?_⟩⟩⟩
  · exact returned (withBlock_length hl _ _ _ _ _ _ _)
  · obtain ⟨st, e⟩ := keyExportRun_of_private hx q res raw
    rw [e]
    subst hq
    exact secReturn_host_kept s r st
  · refine returned (withBlock_pre hl ?_ _ _ _ _ _ _)
    rcases ho with ho | ho <;> simp [keyExportPre, firstOf, hk, hw, ho]
  · exact returned (withBlock_pre hl (by simp [keyExportPre, firstOf, hk, hw, ho, ho', hx]) _ _ _ _ _ _)
  · subst hres hb
    have hpre : keyExportPre s q d = none := by simp [keyExportPre, firstOf, hk, hw, ho, ho', hx]
    rw [keyExportRun_eq, withBlock_read hl hpre hopen hopen hraw, exportAct, exportLen_secRead,
      secDo_of_none (by simp [firstOf, hover]), secWindow_open (by rw [secOpen_secRead]; exact hdst)]
    exact exportWritten_spec h d (blockOf raw) _ _

/-! ### KEY_CLEAR (R239, R242) -/

theorem handleSlot_lt (x : Half) : handleSlot x < 64 := Nat.mod_lt _ (by decide)

/-- The slot cleared, with its outcome. -/
def keyCleared (s : State) (q : SecSrc) (i : Nat) : State := secDone (refreshKeys (setSlot s i clearSlot)) q .ok 0 0

theorem slotAt_keyCleared {i : Nat} (h : i < 64) (s : State) (q : SecSrc) : slotAt (keyCleared s q i) i = clearSlot (slotAt s i) := by
  rw [keyCleared, slotAt_secDone, slotAt_of_sec (refreshKeys_sec _), slotAt_setSlot, if_pos ⟨rfl, h⟩]

theorem slotAt_keyCleared_ne {i j : Nat} (h : j ≠ i) (s : State) (q : SecSrc) : slotAt (keyCleared s q i) j = slotAt s j := by
  rw [keyCleared, slotAt_secDone, slotAt_of_sec (refreshKeys_sec _), slotAt_setSlot, if_neg (fun e => h e.1.symm)]

theorem keyCleared_executed {s : State} {q : SecSrc} (h : SecHeld s q) (i : Nat) : SecExecuted s (keyCleared s q i) q .ok 0 0 := by
  refine (secDone_executed (secHeld_refreshKeys (h.congr (t := setSlot s i clearSlot) rfl rfl rfl)) _ _ _).of_journal ?_
  rw [refreshKeys_pmFrame]
  rfl

/-- No handle names an empty slot. -/
theorem handleLive_of_invalid {s : State} {x : Half} (h : (slotAt s (handleSlot x)).valid = false) : handleLive s x = false := by
  simp [handleLive, h]

theorem keyClear_spec {s : State} {q : SecSrc} {d : Desc} (ht : secTaken s q 0x1B = some d) :
    ∃ t, exec (.keyClear q) s = .next t ∧ OnlyRing s t 9 ∧
      (secBusy s q = true → t = s) ∧
      (secBusy s q = false → keyWrong s (handleIn d.p0) [1, 2, 3, 4, 5, 6, 7, 8, 9, 10, 11, 12] = true → SecReturned s t q .retKey) ∧
      (secBusy s q = false → keyWrong s (handleIn d.p0) [1, 2, 3, 4, 5, 6, 7, 8, 9, 10, 11, 12] = false → notOwner s q (handleIn d.p0) = true →
        SecReturned s t q .retDenied) ∧
      (secBusy s q = false → keyWrong s (handleIn d.p0) [1, 2, 3, 4, 5, 6, 7, 8, 9, 10, 11, 12] = false → notOwner s q (handleIn d.p0) = false →
        SecExecuted s t q .ok 0 0 ∧ slotAt t (handleSlot (handleIn d.p0)) =
          { Slot.empty with gen := (slotAt s (handleSlot (handleIn d.p0))).gen + 1 } ∧
        handleLive t (handleIn d.p0) = false ∧
        ∀ j, j ≠ handleSlot (handleIn d.p0) → slotAt t j = slotAt s j) := by
  obtain ⟨he, hop, h⟩ := exec_taken ht (show exec (.keyClear q) s = .next (secCommand s q 0x1B .ok []) from rfl)
  have hrun : secRun s q d .ok [] = keyClearRun s q d := by simp only [secRun, hop]
  rw [hrun] at he
  have notBusy (hb : secBusy s q = false) :
      keyClearRun s q d = secDo s q (clearCheck s q d) (keyCleared s q (handleSlot (handleIn d.p0))) := if_neg (by simp [hb])
  have returned {st : Status} (hb : secBusy s q = false) (hc : clearCheck s q d = some st) : SecReturned s (keyClearRun s q d) q st := by
    rw [notBusy hb, secDo_of_some hc]
    exact secReturn_returned h st
  refine ⟨_, he, (keyClearRun_acts s q d).ring, fun hb => if_pos hb, fun hb hk => ?_, fun hb hk ho => ?_, fun hb hk ho => ?_⟩
  · exact returned hb (by simp [clearCheck, firstOf, hk])
  · exact returned hb (by simp [clearCheck, firstOf, hk, ho])
  · rw [notBusy hb, secDo_of_none (by simp [clearCheck, firstOf, hk, ho])]
    have hself := slotAt_keyCleared (handleSlot_lt (handleIn d.p0)) s q
    refine ⟨keyCleared_executed h _, hself, handleLive_of_invalid (by rw [hself]; rfl), fun j hj => slotAt_keyCleared_ne hj s q⟩

/-! ### KEY_INFO and RANDOM (R239, R261) -/

theorem keyInfo_spec {s : State} {q : SecSrc} {d : Desc} (ht : secTaken s q 0x1C = some d) :
    ∃ t, exec (.keyInfo q) s = .next t ∧ OnlyRing s t 9 ∧ t.sec = s.sec ∧
      (handleLive s (handleIn d.p0) = false → SecReturned s t q .retKey) ∧
      (handleLive s (handleIn d.p0) = true → notOwner s q (handleIn d.p0) = false →
        SecExecuted s t q .ok (slotImage (slotAt s (handleSlot (handleIn d.p0)))) 0) := by
  obtain ⟨he, hop, h⟩ := exec_taken ht (show exec (.keyInfo q) s = .next (secCommand s q 0x1C .ok []) from rfl)
  have hrun : secRun s q d .ok [] = keyInfoRun s q d := by simp only [secRun, hop]
  rw [hrun] at he
  refine ⟨_, he, (keyInfoRun_acts s q d).ring, ?_, fun hk => ?_, fun hk ho => ?_⟩
  · exact secDo_induction (P := fun t => t.sec = s.sec) _ (secReturn_sec s q) (secDone_sec s q _ _ _)
  · rw [keyInfoRun, secDo_of_some (st := .retKey) (by simp [firstOf, hk])]
    exact secReturn_returned h _
  · rw [keyInfoRun, secDo_of_none (by simp [firstOf, hk, ho])]
    exact secDone_executed h _ _ _

/-- RANDOM's bytes drawn and written. -/
def randomWritten (s : State) (q : SecSrc) (d : Desc) : State :=
  secDone (secWrite (countDraw s) q d.addr.toNat (fit d.len.toNat (Config.drawBytes s.free d.len.toNat))) q .ok 0 0

theorem randomRun_eq (s : State) (q : SecSrc) (d : Desc) : randomRun s q d =
    secDo s q (firstOf [(s.sec.trngFail, .retPart)]) (secWindow s q true d.addr.toNat d.len.toNat (randomWritten s q d)) := rfl

theorem randomWritten_sec (s : State) (q : SecSrc) (d : Desc) : (randomWritten s q d).sec = (countDraw s).sec := by
  rw [randomWritten, secDone_sec, secWrite_sec]

theorem randomRun_slots (s : State) (q : SecSrc) (d : Desc) : (randomRun s q d).sec.slots = s.sec.slots := by
  refine secDo_induction (P := fun t => t.sec.slots = s.sec.slots) _ (fun st => by rw [secReturn_sec]) ?_
  refine secWindow_induction (P := fun t => t.sec.slots = s.sec.slots) _ _ _ ?_ ?_
  · rw [secReturn_sec, secFault_sec]
  · show (randomWritten s q d).sec.slots = _
    rw [randomWritten_sec, countDraw_slots]

theorem secOpen_of_inWindows {s : State} {w : Bool} {a : Nat} {l : Word} (h : l = 0 ∨ inWindows s 0 w a l.toNat = true) (q : SecSrc) :
    secOpen s q w a l.toNat = true := by
  cases q with
  | fw f => rfl
  | host seq =>
    rcases h with h | h
    · simp [secOpen, h]
    · simp [secOpen, h]

theorem random_spec {s : State} {q : SecSrc} {d : Desc} (ht : secTaken s q 0x1D = some d) :
    ∃ t, exec (.random q) s = .next t ∧ OnlyRing s t 9 ∧ t.sec.slots = s.sec.slots ∧
      (s.sec.trngFail = true → SecReturned s t q .retPart) ∧
      (s.sec.trngFail = false → (d.len = 0 ∨ inWindows s 0 true d.addr.toNat d.len.toNat = true) →
        SecExecuted s t q .ok 0 0 ∧ t.sec.drbgCount = (if s.sec.drbgCount + 1 = 65536 then 0 else s.sec.drbgCount + 1)) := by
  obtain ⟨he, hop, h⟩ := exec_taken ht (show exec (.random q) s = .next (secCommand s q 0x1D .ok []) from rfl)
  have hrun : secRun s q d .ok [] = randomRun s q d := by simp only [secRun, hop]
  rw [hrun] at he
  refine ⟨_, he, (randomRun_acts s q d).ring, randomRun_slots s q d, fun hf => ?_, fun hf hw => ?_⟩
  · rw [randomRun_eq, secDo_of_some (st := .retPart) (by simp [firstOf, hf])]
    exact secReturn_returned h _
  · rw [randomRun_eq, secDo_of_none (by simp [firstOf, hf]), secWindow_open (secOpen_of_inWindows hw q)]
    refine ⟨(secDone_executed (secHeld_secWrite (h.congr (t := countDraw s) rfl rfl rfl) _ _ _) _ _ _).of_journal ?_, ?_⟩
    · rw [secWrite_journal]
      rfl
    · rw [randomWritten_sec, countDraw_count]

/-- Settles O33: each of the four operations is a check list and one act. -/
theorem keysExportedAndCleared : Obligations.KeysExportedAndCleared :=
  fun _ _ _ _ _ _ hb => ⟨keyExport_spec hb, keyClear_spec, keyInfo_spec, random_spec⟩

end Sys2Proof.Machine

/-! # Check values, and the one step in which a SEC operation acts

A check-value context is one requester's; an operation whose reads have ended acts on the state without it, and the firmware port then goes on. -/

namespace Sys2Proof.Machine

open Sys2Proof

/-! ### Check-value contexts (R262 to R264) -/

theorem cvIdx_lt (d : Desc) : cvIdx d < 8 := by
  simp only [cvIdx, bits]
  omega

theorem ctxAt_setCtx_self {i : Nat} (h : i < 8) (s : State) (k : CvCtx) : ctxAt (setCtx s i k) i = k := vget_vset_self _ _ _ _ h

theorem ctxAt_setCtx_ne {i j : Nat} (h : j ≠ i) (s : State) (k : CvCtx) : ctxAt (setCtx s i k) j = ctxAt s j := vget_vset_ne _ _ _ _ _ h

theorem cvState_toNat (k : CvCtx) : (cvState k).toNat = k.alg.toNat * 16 + (if k.odd then 64 else 0) + k.pend.toNat * 256 := by
  have ha := k.alg.isLt
  have hp := k.pend.isLt
  simp only [cvState, word, fieldAt, flagAt, BitVec.toNat_ofNat]
  split <;> omega

/-- The context a CV_RESTORE spells is the one whose running value and state word it carries. -/
theorem cvSpelled_of_state {d : Desc} {k : CvCtx} (hr : d.p1 = k.run) (hb : bits d.p0 15 4 = bits (cvState k) 15 4) : cvSpelled d = k := by
  have ha := k.alg.isLt
  have hp := k.pend.isLt
  have hn := cvState_toNat k
  simp only [bits] at hb
  rw [hn] at hb
  have halg : bits d.p0 5 4 = k.alg.toNat := by
    simp only [bits]
    split at hb <;> omega
  have hodd : bitOf d.p0 6 = k.odd := by
    rw [bitOf, Nat.testBit_eq_decide_div_mod_eq]
    cases ho : k.odd with
    | true =>
      rw [ho, if_pos rfl] at hb
      exact decide_eq_true (by omega)
    | false =>
      rw [ho, if_neg (by simp)] at hb
      exact decide_eq_false (by omega)
  have hpend : bits d.p0 15 8 = k.pend.toNat := by
    simp only [bits]
    split at hb <;> omega
  unfold cvSpelled
  rw [halg, hpend, hodd, hr, BitVec.ofNat_toNat, BitVec.ofNat_toNat]
  rfl

/-- The three check-value operations, each of which another's context is denied. -/
theorem cv_denied {s : State} {q : SecSrc} {d : Desc} {c : Instr} {op : Nat}
    (hm : (c, op) ∈ [(Instr.cvUpdate q, 0x13), (.cvSave q, 0x14), (.cvRestore q, 0x15)]) (ht : secTaken s q op = some d)
    (hb : secBusy s q = false) (hc : cvMine q (cvIdx d) = false) : ∃ t, exec c s = .next t ∧ OnlyRing s t 9 ∧ SecReturned s t q .retDenied := by
  have hbusy : ¬ secBusy s q = true := by simp [hb]
  obtain ⟨h, hop⟩ := secTaken_spec ht
  refine ⟨secReturn s q .retDenied, ?_, (secReturn_checks s q _).ring, secReturn_returned h _⟩
  simp only [List.mem_cons, List.not_mem_nil, or_false, Prod.mk.injEq] at hm
  rcases hm with ⟨rfl, rfl⟩ | ⟨rfl, rfl⟩ | ⟨rfl, rfl⟩
  · rw [(exec_taken ht (show exec (.cvUpdate q) s = .next (secCommand s q 0x13 .ok []) from rfl)).1]
    simp only [secRun, hop, cvUpdateRun]
    rw [secDo_of_some (by simp only [firstOf, hc]; rfl)]
  · rw [(exec_taken ht (show exec (.cvSave q) s = .next (secCommand s q 0x14 .ok []) from rfl)).1]
    simp only [secRun, hop, cvSaveRun, if_neg hbusy]
    rw [secDo_of_some (by simp only [firstOf, hc]; rfl)]
  · rw [(exec_taken ht (show exec (.cvRestore q) s = .next (secCommand s q 0x15 .ok []) from rfl)).1]
    simp only [secRun, hop, cvRestoreRun, if_neg hbusy]
    rw [secDo_of_some (by simp only [firstOf, hc]; rfl)]

theorem cvUpdate_spec {s : State} {q : SecSrc} {d : Desc} (ht : secTaken s q 0x13 = some d) (hc : cvMine q (cvIdx d) = true)
    (hl : d.len.toNat ≤ 65536) (hw : d.len = 0 ∨ inWindows s 0 false d.addr.toNat d.len.toNat = true) :
    ∃ t, exec (.cvUpdate q) s = .next t ∧ OnlyRing s t 9 ∧ (secBusy s q = true → t = s) ∧
      (secBusy s q = false → SecStarted s t q d none) := by
  obtain ⟨he, hop, h⟩ := exec_taken ht (show exec (.cvUpdate q) s = .next (secCommand s q 0x13 .ok []) from rfl)
  have hrun : secRun s q d .ok [] = if secBusy s q then s else secStart s q d none d.addr.toNat d.len.toNat := by
    simp only [secRun, hop, cvUpdateRun]
    rw [secDo_of_none (by simp [firstOf, hc, hl]), secWindow_open (secOpen_of_inWindows hw q)]
  refine ⟨_, he, (secRun_acts s q d .ok []).ring, fun hb => ?_, fun hb => ?_⟩
  · rw [hrun, if_pos hb]
  · rw [hrun, if_neg (by simp [hb])]
    exact secStart_started h d none _ _

theorem cvSave_spec {s : State} {q : SecSrc} {d : Desc} (ht : secTaken s q 0x14 = some d) (hc : cvMine q (cvIdx d) = true)
    (hb : secBusy s q = false) :
    ∃ t, exec (.cvSave q) s = .next t ∧ OnlyRing s t 9 ∧ t.sec = s.sec ∧
      SecExecuted s t q .ok (ctxAt s (cvIdx d)).run (cvState (ctxAt s (cvIdx d))) := by
  obtain ⟨he, hop, h⟩ := exec_taken ht (show exec (.cvSave q) s = .next (secCommand s q 0x14 .ok []) from rfl)
  have hrun : secRun s q d .ok [] = secDone s q .ok (ctxAt s (cvIdx d)).run (cvState (ctxAt s (cvIdx d))) := by
    simp only [secRun, hop, cvSaveRun, hb, Bool.false_eq_true, if_false]
    rw [secDo_of_none (by simp [firstOf, hc])]
  rw [hrun] at he
  exact ⟨_, he, (secDone_acts s q _ _ _).ring, secDone_sec s q _ _ _, secDone_executed h _ _ _⟩

theorem cvRestore_spec {s : State} {q : SecSrc} {d : Desc} (ht : secTaken s q 0x15 = some d) (hc : cvMine q (cvIdx d) = true)
    (hb : secBusy s q = false) :
    ∃ t, exec (.cvRestore q) s = .next t ∧ OnlyRing s t 9 ∧
      (∀ k : CvCtx, d.p1 = k.run → bits d.p0 15 4 = bits (cvState k) 15 4 → bits d.p0 7 7 = 0 → cvBad k = false →
        SecExecuted s t q .ok 0 0 ∧ ctxAt t (cvIdx d) = k ∧ ∀ j, j ≠ cvIdx d → ctxAt t j = ctxAt s j) ∧
      (cvBad (cvSpelled d) = true → SecReturned s t q .retParam) := by
  obtain ⟨he, hop, h⟩ := exec_taken ht (show exec (.cvRestore q) s = .next (secCommand s q 0x15 .ok []) from rfl)
  have hrun : secRun s q d .ok [] = secDo s q (firstOf [(!cvMine q (cvIdx d), .retDenied), (cvBad (cvSpelled d), .retParam)])
      (secDone (setCtx s (cvIdx d) (cvSpelled d)) q .ok 0 0) := by
    simp only [secRun, hop, cvRestoreRun, hb, Bool.false_eq_true, if_false]
  refine ⟨_, he, (secRun_acts s q d .ok []).ring, fun k hr hbits _ hk => ?_, fun hk => ?_⟩
  · have hspell := cvSpelled_of_state hr hbits
    rw [hrun, hspell, secDo_of_none (by simp [firstOf, hc, hk])]
    refine ⟨(secDone_executed (h.congr (t := setCtx s (cvIdx d) k) rfl rfl rfl) _ _ _).of_journal rfl, ?_, fun j hj => ?_⟩
    · rw [ctxAt_secDone, ctxAt_setCtx_self (cvIdx_lt d)]
    · rw [ctxAt_secDone, ctxAt_setCtx_ne hj]
  · rw [hrun, secDo_of_some (st := .retParam) (by simp [firstOf, hc, hk])]
    exact secReturn_returned h _

/-! ### An operation acts (R242, R245) -/

theorem verified_acts (s : State) (q : SecSrc) (dst : Nat) (out : List Byte) (ok : Bool) : SecActs q s (verified s q dst out ok) := by
  unfold verified
  split
  · exact (secWrite_acts s q _ _).trans (secDone_acts _ _ _ _ _)
  · exact ((secWrite_acts s q _ _).trans (secWrite_acts _ _ _ _)).trans (secDone_acts _ _ _ _ _)

theorem sealedOut_acts (s : State) (q : SecSrc) (d : Desc) (dst : Nat) (out tag : List Byte) : SecActs q s (sealedOut s q d dst out tag) :=
  ((secWrite_acts s q _ _).trans (secWrite_acts _ _ _ _)).trans (secDone_acts _ _ _ _ _)

theorem blockDone_acts (s : State) (q : SecSrc) (d : Desc) (b : OpBlock) (data : List Byte) : SecActs q s (blockDone s q d b data) := by
  unfold blockDone
  dsimp only
  split
  · exact sealedOut_acts _ _ _ _ _ _
  · exact verified_acts _ _ _ _ _
  · split
    · exact secDone_acts _ _ _ _ _
    · exact (secWrite_acts s q _ _).trans (secDone_acts _ _ _ _ _)
  · split
    · exact sealedOut_acts _ _ _ _ _ _
    · exact verified_acts _ _ _ _ _
  · exact (drew_acts q s).trans (createKey_acts _ _ _ _ _ _)
  · split
    · exact secDone_acts _ _ _ _ _
    · exact (drew_acts q s).trans (createKey_acts _ _ _ _ _ _)

theorem cvDone_acts (s : State) (q : SecSrc) (d : Desc) (data : List Byte) : SecActs q s (cvDone s q d data) :=
  (setCtx_acts q s _ _).trans (secDone_acts _ _ _ _ _)

/-- The state an operation that ends acts on: the operation is no longer under way. -/
def opEnded (s : State) (q : SecSrc) : State := setSec s (fun x => { x with ops := eraseFirst (fun o => decide (o.src = q)) x.ops })

theorem opEnded_acts (s : State) (q : SecSrc) : SecActs q s (opEnded s q) := ⟨rfl, .refl s 9, rfl, rfl, fun _ _ => ⟨rfl, rfl⟩⟩

/-- Where an operation reads. -/
def secSrcAddr (o : SecOp) : Nat := match o.blk with | some b => b.src.toNat | none => o.d.addr.toNat

section Complete

variable {s : State} {q : SecSrc} {o : SecOp} (hfind : s.sec.ops.find? (fun x => decide (x.src = q)) = some o) (hend : secMayEnd s q = true)

include hfind hend

theorem secCompleteOp_failed {res : XferResult} (hres : res ≠ .ok) (data : List Byte) :
    secCompleteOp s q res data = secReadFailed (opEnded s q) q res (secSrcAddr o) := by
  simp only [secCompleteOp, hfind, hend, Bool.not_true, Bool.false_eq_true, if_false, hres, ne_eq, not_false_eq_true, if_true]
  rfl

theorem secCompleteOp_short {data : List Byte} (hl : data.length ≠ secSrcLen o) : secCompleteOp s q .ok data = s := by
  simp only [secCompleteOp, hfind, hend, Bool.not_true, Bool.false_eq_true, if_false, ne_eq, not_true_eq_false, hl, not_false_eq_true, if_true]

theorem secCompleteOp_block {b : OpBlock} {data : List Byte} (hb : o.blk = some b) (hl : data.length = b.srcLen.toNat) :
    secCompleteOp s q .ok data = blockDone (opEnded s q) q o.d b data := by
  have hlen : data.length = secSrcLen o := by rw [hl, secSrcLen, hb]
  simp only [secCompleteOp, hfind, hend, Bool.not_true, Bool.false_eq_true, if_false, ne_eq, not_true_eq_false, hlen, hb]
  rfl

theorem secCompleteOp_cv {data : List Byte} (hb : o.blk = none) (hl : data.length = o.d.len.toNat) :
    secCompleteOp s q .ok data = cvDone (opEnded s q) q o.d data := by
  have hlen : data.length = secSrcLen o := by rw [hl, secSrcLen, hb]
  simp only [secCompleteOp, hfind, hend, Bool.not_true, Bool.false_eq_true, if_false, ne_eq, not_true_eq_false, hlen, hb]
  rfl

end Complete

theorem secCompleteOp_acts (s : State) (q : SecSrc) (res : XferResult) (data : List Byte) : SecActs q s (secCompleteOp s q res data) := by
  unfold secCompleteOp
  split
  · exact .refl q s
  split
  · exact .refl q s
  split
  · exact (opEnded_acts s q).trans (secReadFailed_acts _ _ _ _)
  split
  · exact .refl q s
  split
  · exact (opEnded_acts s q).trans (blockDone_acts _ _ _ _ _)
  · exact (opEnded_acts s q).trans (cvDone_acts _ _ _ _)

theorem secHeld_of_mayEnd {s : State} {q : SecSrc} (h : secMayEnd s q = true) : SecHeld s q := by
  cases q with
  | fw f => trivial
  | host seq =>
    simp only [secMayEnd, Bool.and_eq_true, Option.isSome_iff_exists] at h
    obtain ⟨⟨w, hw⟩, hroom⟩ := h
    exact ⟨⟨w, (workAt_eq_some hw).1⟩, journalSpace_of_room hroom⟩

/-! ### What each operation does as it ends -/

section Act

variable {s : State} {q : SecSrc} (h : SecHeld s q) (d : Desc) (b : OpBlock) (data : List Byte)

/-- The key of an operation's handle. -/
def opKey (s : State) (d : Desc) : List Byte := (slotAt s (handleSlot (handleIn d.p0))).key

theorem sealedOut_sec (s : State) (q : SecSrc) (d : Desc) (dst : Nat) (out tag : List Byte) : (sealedOut s q d dst out tag).sec = s.sec := by
  rw [sealedOut, secDone_sec, secWrite_sec, secWrite_sec]

include h

theorem secWrite_done_executed (dst : Nat) (out : List Byte) (st : Status) (r0 r1 : Word) :
    SecExecuted s (secDone (secWrite s q dst out) q st r0 r1) q st r0 r1 :=
  (secDone_executed (secHeld_secWrite h q _ _) _ _ _).of_journal (secWrite_journal _ _ _ _)

theorem sealedOut_executed (dst : Nat) (out tag : List Byte) : SecExecuted s (sealedOut s q d dst out tag) q .ok 0 0 :=
  (secWrite_done_executed (secHeld_secWrite h q _ _) _ _ _ _ _).of_journal (secWrite_journal _ _ _ _)

theorem verified_executed (dst : Nat) (out : List Byte) (ok : Bool) :
    SecExecuted s (verified s q dst out ok) q (if ok then .ok else .verifyFailed) 0 0 := by
  unfold verified
  split
  · exact secWrite_done_executed h _ _ _ _ _
  · exact (secWrite_done_executed (secHeld_secWrite h q _ _) _ _ _ _ _).of_journal (secWrite_journal _ _ _ _)

end Act

theorem zeros_ne_nil {n : Nat} (h : n ≠ 0) : zeros n ≠ [] := by
  simp [zeros, h]

/-- A decryption that fails ends with zeros over every output byte. -/
theorem verified_failed_zeros (s : State) (seq : Word) (dst : Nat) {out : List Byte} (h : out ≠ []) :
    ∃ rest, (verified s (.host seq) dst out false).sent = writeRequests s 0 dst (zeros out.length) ++ rest := by
  have hz : zeros out.length ≠ [] := zeros_ne_nil (by simpa using h)
  refine ⟨(secWrite s (.host seq) dst out).sent, ?_⟩
  rw [verified, if_neg (by simp), secDone_host_sent, secWrite_host hz]
  rw [secWrite_sent]
  rfl

/-- An encryption's output and tag go out as write requests. -/
theorem sealedOut_written (s : State) (seq : Word) (d : Desc) (dst : Nat) (out : List Byte) {tag : List Byte} (ht : tag ≠ []) :
    (out ≠ [] → ∀ x, x ∈ writeRequests s 0 dst out → x ∈ (sealedOut s (.host seq) d dst out tag).sent) ∧
    ∀ x, x ∈ writeRequests s 0 (d.addr.toNat + 40) tag → x ∈ (sealedOut s (.host seq) d dst out tag).sent := by
  have hsent : (sealedOut s (.host seq) d dst out tag).sent =
      writeRequests s 0 (d.addr.toNat + 40) tag ++ (secWrite s (.host seq) dst out).sent := by
    rw [sealedOut, secDone_host_sent, secWrite_host ht]
    rw [secWrite_sent]
    rfl
  rw [hsent]
  refine ⟨fun ho x hx => List.mem_append_right _ ?_, fun x hx => List.mem_append_left _ hx⟩
  rw [secWrite_host ho]
  exact List.mem_append_left _ hx

section Opcodes

variable (s : State) (q : SecSrc) {d : Desc} (b : OpBlock) (data : List Byte)

theorem blockDone_gcmEncrypt (h : d.opcode = 0x10) : blockDone s q d b data = sealedOut s q d b.dst.toNat
    (gcmSealed (opKey s d) (b.iv.take 12) (data.take b.aadLen.toNat) (data.drop b.aadLen.toNat)).1
    (gcmSealed (opKey s d) (b.iv.take 12) (data.take b.aadLen.toNat) (data.drop b.aadLen.toNat)).2 := by
  simp only [blockDone, h]
  rfl

theorem blockDone_gcmDecrypt (h : d.opcode = 0x11) : blockDone s q d b data = verified s q b.dst.toNat
    (gcmOpened (opKey s d) (b.iv.take 12) (data.take b.aadLen.toNat) (data.drop b.aadLen.toNat)).1
    ((gcmOpened (opKey s d) (b.iv.take 12) (data.take b.aadLen.toNat) (data.drop b.aadLen.toNat)).2 == b.tag) := by
  simp only [blockDone, h]
  rfl

theorem blockDone_cmacVerify (h : d.opcode = 0x12) (hv : cmacVerify d = true) : blockDone s q d b data =
    secDone s q (if fit 16 (Config.cmac (opKey s d) data) = b.tag then .ok else .verifyFailed) 0 0 := by
  simp only [blockDone, h]
  exact if_pos hv

theorem blockDone_ccmDecrypt (h : d.opcode = 0x1E) (he : ccmEnc d = false) : blockDone s q d b data = verified s q b.dst.toNat
    (ccmOpened (opKey s d) (b.iv.take 13) (data.take b.aadLen.toNat) (data.drop b.aadLen.toNat) (ccmMic d)
      (decide (data.drop b.aadLen.toNat ≠ []))).1
    ((ccmOpened (opKey s d) (b.iv.take 13) (data.take b.aadLen.toNat) (data.drop b.aadLen.toNat) (ccmMic d)
      (decide (data.drop b.aadLen.toNat ≠ []))).2 == b.tag.take (ccmMic d)) := by
  simp only [blockDone, h, he, Bool.false_eq_true, if_false]
  rfl

theorem blockDone_load (h : d.opcode = 0x17) : ∃ x salt, blockDone s q d b data = createKey (drew s) q (kindOf d) x data salt := by
  simp only [blockDone, h]
  exact ⟨_, _, rfl⟩

theorem blockDone_unwraps_none (h : d.opcode = 0x18) (hk : Config.keyUnwrap (slotAt s (handleSlot (handleIn d.p1))).key data = none) :
    blockDone s q d b data = secDone s q .verifyFailed 0 0 := by
  simp only [blockDone, h]
  show (match Config.keyUnwrap _ _ with | none => _ | some k => _) = _
  rw [hk]

end Opcodes

/-! ### The operation's end -/

theorem secHeld_opEnded {s : State} {q : SecSrc} (h : SecHeld s q) : SecHeld (opEnded s q) q := h.congr rfl rfl rfl

theorem fit_length (n : Nat) (l : List Byte) : (fit n l).length = n := by
  simp [fit, zeros]

theorem gcmSealed_lengths (key iv aad body : List Byte) :
    (gcmSealed key iv aad body).1.length = body.length ∧ (gcmSealed key iv aad body).2.length = 16 :=
  ⟨fit_length _ _, fit_length _ _⟩

theorem body_length {b : OpBlock} {data : List Byte} (h : data.length = b.srcLen.toNat) : (data.drop b.aadLen.toNat).length = outLen b := by
  rw [List.length_drop, h, outLen]

section Ends

variable {s : State} {q : SecSrc} {o : SecOp} {data : List Byte} (hfind : s.sec.ops.find? (fun x => decide (x.src = q)) = some o)
  (hend : secMayEnd s q = true)

include hfind hend

/-- A read that fails returns the operation, and changes no key and no context. -/
theorem secComplete_failed {res : XferResult} (hres : res ≠ .ok) :
    (secCompleteOp s q res data).journal = s.journal ∧ (secCompleteOp s q res data).sec.slots = s.sec.slots ∧
      (secCompleteOp s q res data).sec.ctxs = s.sec.ctxs ∧
      (∀ r, q = .host r → returnedWith (secCompleteOp s q res data) 9 r = some (Outcome.of .retDma 0 0)) ∧
      (∀ f, q = .fw f → Out.fwOutcome Status.retDma.code 0 0 ∈ (secCompleteOp s q res data).sent) := by
  rw [secCompleteOp_failed hfind hend hres]
  obtain ⟨hsec, hj, hret⟩ := secReadFailed_returned (secHeld_opEnded (secHeld_of_mayEnd hend)) res (secSrcAddr o)
  refine ⟨hj, by rw [hsec]; rfl, by rw [hsec]; rfl, fun r hq => ?_, fun f hq => ?_⟩
  · subst hq
    exact hret
  · subst hq
    rw [show (secReadFailed _ _ _ _).sent = _ from hret]
    exact List.mem_cons_self ..

theorem secComplete_gcmEncrypt {b : OpBlock} {ct tag : List Byte} (hb : o.blk = some b) (hop : o.d.opcode = 0x10)
    (hl : data.length = b.srcLen.toNat)
    (hg : gcmSealed (slotAt s (handleSlot (handleIn o.d.p0))).key (b.iv.take 12) (data.take b.aadLen.toNat) (data.drop b.aadLen.toNat) = (ct, tag)) :
    SecExecuted s (secCompleteOp s q .ok data) q .ok 0 0 ∧ (secCompleteOp s q .ok data).sec.slots = s.sec.slots ∧ ct.length = outLen b ∧
      tag.length = 16 ∧ ∀ r, q = .host r → (ct ≠ [] → ∀ x, x ∈ writeRequests s 0 b.dst.toNat ct → x ∈ (secCompleteOp s q .ok data).sent) ∧
        ∀ x, x ∈ writeRequests s 0 (o.d.addr.toNat + 40) tag → x ∈ (secCompleteOp s q .ok data).sent := by
  have hkey : gcmSealed (opKey (opEnded s q) o.d) (b.iv.take 12) (data.take b.aadLen.toNat) (data.drop b.aadLen.toNat) = (ct, tag) := hg
  obtain ⟨hct, htag⟩ := gcmSealed_lengths (slotAt s (handleSlot (handleIn o.d.p0))).key (b.iv.take 12) (data.take b.aadLen.toNat)
    (data.drop b.aadLen.toNat)
  rw [hg] at hct htag
  rw [secCompleteOp_block hfind hend hb hl, blockDone_gcmEncrypt _ _ _ _ hop, hkey]
  refine ⟨(sealedOut_executed (secHeld_opEnded (secHeld_of_mayEnd hend)) _ _ _ _).of_journal rfl, ?_, hct.trans (body_length hl), htag,
    fun r hq => ?_⟩
  · rw [sealedOut_sec]
    rfl
  · subst hq
    exact sealedOut_written (opEnded s (.host r)) r o.d b.dst.toNat ct (fun e => by rw [show tag = [] from e] at htag; cases htag)

theorem secComplete_gcmDecrypt {b : OpBlock} {pt tag : List Byte} (hb : o.blk = some b) (hop : o.d.opcode = 0x11)
    (hl : data.length = b.srcLen.toNat)
    (hg : gcmOpened (slotAt s (handleSlot (handleIn o.d.p0))).key (b.iv.take 12) (data.take b.aadLen.toNat) (data.drop b.aadLen.toNat) = (pt, tag)) :
    (tag = b.tag → SecExecuted s (secCompleteOp s q .ok data) q .ok 0 0) ∧
      (tag ≠ b.tag → SecExecuted s (secCompleteOp s q .ok data) q .verifyFailed 0 0 ∧
        ∀ r, q = .host r → pt ≠ [] → ∃ rest, (secCompleteOp s q .ok data).sent = writeRequests s 0 b.dst.toNat (zeros pt.length) ++ rest) := by
  have hkey : gcmOpened (opKey (opEnded s q) o.d) (b.iv.take 12) (data.take b.aadLen.toNat) (data.drop b.aadLen.toNat) = (pt, tag) := hg
  rw [secCompleteOp_block hfind hend hb hl, blockDone_gcmDecrypt _ _ _ _ hop, hkey]
  have hex := verified_executed (secHeld_opEnded (secHeld_of_mayEnd hend)) b.dst.toNat pt (tag == b.tag)
  refine ⟨fun ht => ?_, fun ht => ⟨?_, fun r hq hne => ?_⟩⟩
  · rw [beq_iff_eq.mpr ht] at hex ⊢
    exact hex.of_journal rfl
  · rw [beq_false_of_ne ht] at hex ⊢
    exact hex.of_journal rfl
  · subst hq
    rw [beq_false_of_ne ht]
    exact verified_failed_zeros (opEnded s (.host r)) r b.dst.toNat hne

theorem secComplete_cmacVerify {b : OpBlock} (hb : o.blk = some b) (hop : o.d.opcode = 0x12) (hl : data.length = b.srcLen.toNat)
    (hv : cmacVerify o.d = true) : SecExecuted s (secCompleteOp s q .ok data) q
      (if fit 16 (Config.cmac (slotAt s (handleSlot (handleIn o.d.p0))).key data) = b.tag then .ok else .verifyFailed) 0 0 := by
  rw [secCompleteOp_block hfind hend hb hl, blockDone_cmacVerify _ _ _ _ hop hv]
  exact (secDone_executed (secHeld_opEnded (secHeld_of_mayEnd hend)) _ _ _).of_journal rfl

theorem secComplete_ccmDecrypt {b : OpBlock} {pt tag : List Byte} (hb : o.blk = some b) (hop : o.d.opcode = 0x1E)
    (hl : data.length = b.srcLen.toNat) (he : ccmEnc o.d = false)
    (hg : ccmOpened (slotAt s (handleSlot (handleIn o.d.p0))).key (b.iv.take 13) (data.take b.aadLen.toNat) (data.drop b.aadLen.toNat)
      (ccmMic o.d) (decide (data.drop b.aadLen.toNat ≠ [])) = (pt, tag)) :
    SecExecuted s (secCompleteOp s q .ok data) q (if tag = b.tag.take (ccmMic o.d) then .ok else .verifyFailed) 0 0 := by
  have hkey : ccmOpened (opKey (opEnded s q) o.d) (b.iv.take 13) (data.take b.aadLen.toNat) (data.drop b.aadLen.toNat) (ccmMic o.d)
      (decide (data.drop b.aadLen.toNat ≠ [])) = (pt, tag) := hg
  rw [secCompleteOp_block hfind hend hb hl, blockDone_ccmDecrypt _ _ _ _ hop he, hkey]
  have hex := (verified_executed (secHeld_opEnded (secHeld_of_mayEnd hend)) b.dst.toNat pt (tag == b.tag.take (ccmMic o.d))).of_journal
    (s := s) rfl
  simpa only [beq_iff_eq] using hex

theorem secComplete_load {b : OpBlock} {i : Nat} (hb : o.blk = some b) (hop : o.d.opcode = 0x17) (hl : data.length = b.srcLen.toNat)
    (hi : freeKeySlot s q = some i) :
    SecExecuted s (secCompleteOp s q .ok data) q .ok (word (handleOf s i).toNat) 0 ∧ (slotAt (secCompleteOp s q .ok data) i).valid = true ∧
      (slotAt (secCompleteOp s q .ok data) i).key = data ∧ (slotAt (secCompleteOp s q .ok data) i).owner = secOwner q ∧
      ∀ j, j ≠ i → slotAt (secCompleteOp s q .ok data) j = slotAt s j := by
  obtain ⟨x, salt, e⟩ := blockDone_load (opEnded s q) q b data hop
  have hheld : SecHeld (drew (opEnded s q)) q := (secHeld_of_mayEnd hend).congr rfl rfl rfl
  obtain ⟨hex, hself, hother⟩ := createKey_made hheld (i := i) ((freeKeySlot_congr rfl rfl q).trans hi) (kindOf o.d) x data salt
  rw [secCompleteOp_block hfind hend hb hl, e, hself]
  exact ⟨hex.of_journal rfl, rfl, rfl, rfl, hother⟩

theorem secComplete_unwraps_none {b : OpBlock} (hb : o.blk = some b) (hop : o.d.opcode = 0x18) (hl : data.length = b.srcLen.toNat)
    (hk : Config.keyUnwrap (slotAt s (handleSlot (handleIn o.d.p1))).key data = none) :
    SecExecuted s (secCompleteOp s q .ok data) q .verifyFailed 0 0 ∧ (secCompleteOp s q .ok data).sec.slots = s.sec.slots := by
  rw [secCompleteOp_block hfind hend hb hl, blockDone_unwraps_none (opEnded s q) _ _ _ hop hk]
  refine ⟨(secDone_executed (secHeld_opEnded (secHeld_of_mayEnd hend)) _ _ _).of_journal rfl, ?_⟩
  rw [secDone_sec]
  rfl

theorem secComplete_cvUpdate (hb : o.blk = none) (hl : data.length = o.d.len.toNat) :
    SecExecuted s (secCompleteOp s q .ok data) q .ok (cvUpdate o.d.p0 (ctxAt s (cvIdx o.d)) data).1 0 ∧
      (secCompleteOp s q .ok data).sec.slots = s.sec.slots ∧
      ctxAt (secCompleteOp s q .ok data) (cvIdx o.d) = (cvUpdate o.d.p0 (ctxAt s (cvIdx o.d)) data).2 := by
  have hheld : SecHeld (setCtx (opEnded s q) (cvIdx o.d) (cvUpdate o.d.p0 (ctxAt s (cvIdx o.d)) data).2) q :=
    (secHeld_of_mayEnd hend).congr rfl rfl rfl
  have hop : secCompleteOp s q .ok data = secDone (setCtx (opEnded s q) (cvIdx o.d) (cvUpdate o.d.p0 (ctxAt s (cvIdx o.d)) data).2) q .ok
      (cvUpdate o.d.p0 (ctxAt s (cvIdx o.d)) data).1 0 := secCompleteOp_cv hfind hend hb hl
  rw [hop]
  refine ⟨(secDone_executed hheld _ _ _).of_journal rfl, ?_, ?_⟩
  · rw [secDone_sec]
    rfl
  · rw [ctxAt_secDone, ctxAt_setCtx_self (cvIdx_lt o.d)]

end Ends

/-- Settles O34: the check-value operations act by their checks, and an operation acts once, as its reads end. -/
theorem secOperationsAndCheckValues : Obligations.SecOperationsAndCheckValues := by
  refine ⟨fun s q d => ⟨fun c op hm ht hb hc => cv_denied hm ht hb hc, cvUpdate_spec, cvSave_spec, cvRestore_spec⟩,
    fun s q o res data hfind hend => ?_⟩
  have ha := secCompleteOp_acts s q res data
  refine ⟨_, secCompleteOp s q res data, rfl, rfl, fun hp => portTurn_of_empty (ha.port.trans hp) 16, ha.ring, by rw [ha.frame], by rw [ha.frame],
    ha.port, ?_, secComplete_failed hfind hend, ?_, ?_, ?_, ?_, ?_, ?_, ?_⟩
  · rintro rfl hl
    exact secCompleteOp_short hfind hend hl
  · rintro b ct tag rfl hb hop hl hg
    exact secComplete_gcmEncrypt hfind hend hb hop hl hg
  · rintro b pt tag rfl hb hop hl hg
    exact secComplete_gcmDecrypt hfind hend hb hop hl hg
  · rintro b rfl hb hop hl hv
    exact secComplete_cmacVerify hfind hend hb hop hl hv
  · rintro b pt tag rfl hb hop hl he hg
    exact secComplete_ccmDecrypt hfind hend hb hop hl he hg
  · rintro b i rfl hb hop hl hi
    exact secComplete_load hfind hend hb hop hl hi
  · rintro b rfl hb hop hl hk
    exact secComplete_unwraps_none hfind hend hb hop hl hk
  · rintro rfl hb hl
    exact secComplete_cvUpdate hfind hend hb hl

end Sys2Proof.Machine

/-! # GCM cores retired, and the random generators stopped and reseeded

A core's failure re-runs what the core carried, sweeps what no core can carry, and starts one recovery; the rings keep their counters throughout. -/

namespace Sys2Proof.Machine

open Sys2Proof

/-! ### The rings' counters -/

theorem SameCounters.refl (s : State) : SameCounters s s := fun _ => ⟨rfl, rfl, rfl, rfl, rfl, rfl, rfl, rfl⟩

theorem SameCounters.trans {s t u : State} (h : SameCounters s t) (h' : SameCounters t u) : SameCounters s u := by
  intro r
  obtain ⟨a1, a2, a3, a4, a5, a6, a7, a8⟩ := h r
  obtain ⟨b1, b2, b3, b4, b5, b6, b7, b8⟩ := h' r
  exact ⟨b1.trans a1, b2.trans a2, b3.trans a3, b4.trans a4, b5.trans a5, b6.trans a6, b7.trans a7, b8.trans a8⟩

theorem sameCounters_of_rings {s t : State} (h : t.rings = s.rings) : SameCounters s t := by
  intro r
  rw [ringAt_congr h]
  exact ⟨rfl, rfl, rfl, rfl, rfl, rfl, rfl, rfl⟩

theorem setWork_sameCounters (s : State) (r : Nat) (q : Word) (f : Work → Work) : SameCounters s (setWork s r q f) := by
  intro x
  rw [setWork, ringAt_setRing]
  split
  next h =>
    rw [h.1]
    exact ⟨rfl, rfl, rfl, rfl, rfl, rfl, rfl, rfl⟩
  · exact ⟨rfl, rfl, rfl, rfl, rfl, rfl, rfl, rfl⟩

theorem returnWith_sameCounters (s : State) (r : Nat) (q : Word) (o : Outcome) : SameCounters s (returnWith s r q o) := by
  unfold returnWith
  split
  · exact .refl s
  · exact setWork_sameCounters s r q _

/-- A ring that a recovery takes in, as it stands. -/
def recovering (scope : List RingNo) (r : Nat) (g : Ring) : Ring :=
  if scope.any (fun x => x.val == r) && g.enable then { g with state := .recovering, fetch := none, refetch := none } else g

theorem startRecovery_rings (s : State) (scope : List RingNo) (cause chan : Nat) (lossy : Bool) (cmds : List (RingNo × Word))
    (refresh : List Nat) : (startRecovery s scope cause chan lossy cmds refresh).rings = (mapRings s (recovering scope)).rings := rfl

theorem recovering_counters (scope : List RingNo) (r : Nat) (g : Ring) :
    (recovering scope r g).base = g.base ∧ (recovering scope r g).log2 = g.log2 ∧ (recovering scope r g).lifetime = g.lifetime ∧
    (recovering scope r g).tail = g.tail ∧ (recovering scope r g).head = g.head ∧ (recovering scope r g).acc = g.acc ∧
    (recovering scope r g).cpl = g.cpl ∧ (recovering scope r g).enable = g.enable ∧ (recovering scope r g).work = g.work := by
  unfold recovering
  split <;> exact ⟨rfl, rfl, rfl, rfl, rfl, rfl, rfl, rfl, rfl⟩

theorem ringAt_startRecovery (s : State) (scope : List RingNo) (cause chan : Nat) (lossy : Bool) (cmds : List (RingNo × Word))
    (refresh : List Nat) {r : Nat} (h : r < 160) :
    ringAt (startRecovery s scope cause chan lossy cmds refresh) r = recovering scope r (ringAt s r) := by
  rw [ringAt_congr (startRecovery_rings s scope cause chan lossy cmds refresh), ringAt_mapRings, if_pos h]

theorem ringAt_past {r : Nat} (h : ¬ r < 160) (s : State) : ringAt s r = Ring.reset r := by
  simp [ringAt, vget, h]

theorem startRecovery_sameCounters (s : State) (scope : List RingNo) (cause chan : Nat) (lossy : Bool) (cmds : List (RingNo × Word))
    (refresh : List Nat) : SameCounters s (startRecovery s scope cause chan lossy cmds refresh) := by
  intro r
  by_cases hr : r < 160
  · rw [ringAt_startRecovery _ _ _ _ _ _ _ hr]
    obtain ⟨h1, h2, h3, h4, h5, h6, h7, h8, -⟩ := recovering_counters scope r (ringAt s r)
    exact ⟨h1, h2, h3, h4, h5, h6, h7, h8⟩
  · rw [ringAt_past hr, ringAt_past hr]
    exact ⟨rfl, rfl, rfl, rfl, rfl, rfl, rfl, rfl⟩

theorem startRecovery_recov (s : State) (scope : List RingNo) (cause chan : Nat) (lossy : Bool) (cmds : List (RingNo × Word))
    (refresh : List Nat) : (startRecovery s scope cause chan lossy cmds refresh).recov =
      s.recov ++ [{ scope := scope, cause := BitVec.ofNat 8 cause, chan := BitVec.ofNat 8 chan, lossy := lossy, settled := false, cmds := cmds, refresh := refresh }] := by
  simp only [startRecovery, mapRings_recov]

theorem returnedWith_startRecovery (s : State) (scope : List RingNo) (cause chan : Nat) (lossy : Bool) (cmds : List (RingNo × Word))
    (refresh : List Nat) {r : Nat} (h : r < 160) (q : Word) :
    returnedWith (startRecovery s scope cause chan lossy cmds refresh) r q = returnedWith s r q := by
  obtain ⟨-, -, -, -, -, -, -, -, hw⟩ := recovering_counters scope r (ringAt s r)
  rw [returnedWith, returnedWith, ringAt_startRecovery _ _ _ _ _ _ _ h, findWork, findWork, hw]

/-! ### What a core's failure moves before its recovery -/

/-- What re-running and sweeping may move; the rings keep their counters, and of the SEC block only the operations under way change. -/
structure SweepActs (s t : State) : Prop where
  frame : t = { s with hif := t.hif, rings := t.rings, chans := t.chans, sec := { s.sec with ops := t.sec.ops }, evt := t.evt, sent := t.sent }
  counters : SameCounters s t

theorem SweepActs.refl (s : State) : SweepActs s s := ⟨rfl, .refl s⟩

theorem SweepActs.trans {s t u : State} (h : SweepActs s t) (h' : SweepActs t u) : SweepActs s u := by
  refine ⟨?_, h.counters.trans h'.counters⟩
  have e := h.frame
  have e' := h'.frame
  rw [e', e]

theorem EvtOnly.sweepActs {s t : State} (h : EvtOnly s t) : SweepActs s t := by
  refine ⟨?_, sameCounters_of_rings h.rings⟩
  rw [h.frame]

theorem setChan_sweepActs (s : State) (c : Nat) (f : Chan → Chan) : SweepActs s (setChan s c f) := ⟨rfl, sameCounters_of_rings rfl⟩

theorem returnWork_sweepActs (s : State) (r : Nat) (q : Word) (st : Status) : SweepActs s (returnWork s r q st) := by
  refine ⟨?_, returnWith_sameCounters s r q _⟩
  rw [returnWork, returnWith_frame]

theorem secRead_sweepActs (s : State) (q : SecSrc) (a n : Nat) : SweepActs s (secRead s q a n) := by
  rw [secRead_sent]
  exact ⟨rfl, sameCounters_of_rings rfl⟩

theorem secReturn_sweepActs (s : State) (q : SecSrc) (st : Status) : SweepActs s (secReturn s q st) := by
  cases q with
  | host seq => exact returnWork_sweepActs s 9 seq st
  | fw f => exact ⟨rfl, sameCounters_of_rings rfl⟩

theorem foldl_sweepActs {α : Type} {f : State → α → State} (hf : ∀ s a, SweepActs s (f s a)) (l : List α) (s : State) :
    SweepActs s (l.foldl f s) := by
  induction l generalizing s with
  | nil => exact .refl s
  | cons a l ih => exact (hf s a).trans (ih _)

theorem sweepNoCore_sweepActs (s : State) (c : Nat) : SweepActs s (sweepNoCore s c) := by
  unfold sweepNoCore
  dsimp only
  split
  · exact .refl s
  refine SweepActs.trans ?_ (raiseC_evtOnly _ _ _ _).sweepActs
  refine SweepActs.trans ?_ (setChan_sweepActs _ _ _)
  refine SweepActs.trans ?_ (setChan_sweepActs _ _ _)
  refine SweepActs.trans ?_ (foldl_sweepActs (fun t k => foldl_sweepActs (fun u _ => returnWork_sweepActs u _ _ _) _ t) _ _)
  exact setChan_sweepActs _ _ _

/-- What the firmware port's own turns move: no ring, no journal entry, no core. -/
structure PortActs (s t : State) : Prop where
  frame : t = { s with hif := t.hif, chans := t.chans, sec := t.sec, evt := t.evt, sent := t.sent, free := t.free }
  retired : t.sec.retired = s.sec.retired

theorem PortActs.trans {s t u : State} (h : PortActs s t) (h' : PortActs t u) : PortActs s u := by
  refine ⟨?_, h'.retired.trans h.retired⟩
  have e := h.frame
  have e' := h'.frame
  rw [e', e]

theorem SecActs.portActs {f : Desc} {s t : State} (h : SecActs (.fw f) s t) : PortActs s t := by
  obtain ⟨hr, hj⟩ := h.fw f rfl
  refine ⟨?_, h.retired⟩
  have e := h.frame
  rw [hr, hj] at e
  exact e

theorem portTurn_portActs (n : Nat) (s : State) : PortActs s (portTurn n s) := by
  induction n generalizing s with
  | zero => exact ⟨rfl, rfl⟩
  | succ n ih =>
    rw [portTurn]
    split
    · exact ⟨rfl, rfl⟩
    split
    · exact ⟨rfl, rfl⟩
    next r t hp =>
      have htake : PortActs s (setSec s (fun x => { x with port := t })) := ⟨rfl, rfl⟩
      exact (htake.trans (secRun_acts _ (.fw r.d) r.d r.res r.raw).portActs).trans (ih _)

/-- The sweep of a channel leaves the rings that no channel owns. -/
theorem ringAt_sweepNoCore (s : State) (c : Nat) {x : Nat} (hx : x < 16) : ringAt (sweepNoCore s c) x = ringAt s x := by
  have sweep (l : List Work) (r : Nat) (hr : x ≠ r) (u : State) :
      ringAt (l.foldl (fun u w => returnWork u r w.seq .retPart) u) x = ringAt u x := by
    induction l generalizing u with
    | nil => rfl
    | cons w l ih => rw [List.foldl_cons, ih, returnWork_onlyRing u r w.seq _ x hr]
  have hne (k : Nat) : x ≠ chRing c k := by
    unfold chRing
    omega
  unfold sweepNoCore
  dsimp only
  split
  · rfl
  rw [ringAt_raiseC, ringAt_congr (setMac_rings _ _ _), ringAt_congr (setQs_rings _ _ _)]
  simp only [List.foldl_cons, List.foldl_nil]
  rw [sweep _ _ (hne 1), sweep _ _ (hne 0), ringAt_congr (setQs_rings _ _ _)]

/-! ### The operations swept (R250) -/

/-- Every on-core request is returned RET_PART, and none runs on. -/
def opsReturned (s : State) : State :=
  (s.sec.ops.filter onCore).foldl (fun t o => secReturn t o.src .retPart)
    (setSec s (fun x => { x with ops := x.ops.filter (fun o => !onCore o) }))

theorem sweepOps_eq (s : State) : sweepOps s = if coresLeft s = 0 then portTurn 16 (opsReturned s) else s := rfl

theorem opsReturned_sweepActs (s : State) : SweepActs s (opsReturned s) := by
  unfold opsReturned
  refine SweepActs.trans ?_ (foldl_sweepActs (fun t o => secReturn_sweepActs t (SecOp.src o) _) _ _)
  exact ⟨rfl, sameCounters_of_rings rfl⟩

theorem returnedWith_secReturn_stands {s : State} {q : Word} {o : Outcome} (h : returnedWith s 9 q = some o) (x : SecSrc) (st : Status) :
    returnedWith (secReturn s x st) 9 q = some o := by
  cases x with
  | host seq => exact returnedWith_stands s 9 h
  | fw f => exact h

theorem workOpen_secReturn_ne {s : State} {q : Word} {x : SecSrc} {w : Work} (h : workOpen s 9 q = some w) (hx : x ≠ .host q) (st : Status) :
    workOpen (secReturn s x st) 9 q = some w := by
  cases x with
  | fw f => exact h
  | host seq =>
    obtain ⟨hf, hret, hj⟩ := workOpen_eq_some.mp h
    have hne : q ≠ seq := fun e => hx (by rw [e])
    refine workOpen_eq_some.mpr ⟨(findWork_returnWith_ne s 9 _ hne).trans hf, hret, ?_⟩
    simpa only [journalOf, secReturn, returnWork_journal] using hj

/-- Every open request among those returned is returned RET_PART. -/
theorem returnedWith_secReturns (l : List SecOp) (s : State) (q : Word) (w : Work) (h : workOpen s 9 q = some w) (hm : ∃ o ∈ l, o.src = .host q) :
    returnedWith (l.foldl (fun t o => secReturn t o.src .retPart) s) 9 q = some (Outcome.of .retPart 0 0) := by
  have hstands (l : List SecOp) : ∀ t : State, returnedWith t 9 q = some (Outcome.of .retPart 0 0) →
      returnedWith (l.foldl (fun t o => secReturn t o.src .retPart) t) 9 q = some (Outcome.of .retPart 0 0) := by
    induction l with
    | nil => exact fun t ht => ht
    | cons o l ih => exact fun t ht => ih _ (returnedWith_secReturn_stands ht o.src _)
  induction l generalizing s with
  | nil => simp at hm
  | cons o l ih =>
    by_cases ho : o.src = .host q
    · obtain ⟨hf, hret, hj⟩ := workOpen_eq_some.mp h
      refine hstands l _ ?_
      show returnedWith (secReturn s o.src .retPart) 9 q = _
      rw [ho]
      exact returnedWith_returnWork hf hret hj
    · refine ih _ (workOpen_secReturn_ne h ho _) ?_
      obtain ⟨o', ho', hsrc⟩ := hm
      rcases List.mem_cons.mp ho' with rfl | hl
      · exact absurd hsrc ho
      · exact ⟨o', hl, hsrc⟩

theorem opsReturned_returned {s : State} {o : SecOp} {q : Word} {w : Work} (ho : o ∈ s.sec.ops) (hon : onCore o = true)
    (hsrc : o.src = .host q) (hw : workOpen s 9 q = some w) : returnedWith (opsReturned s) 9 q = some (Outcome.of .retPart 0 0) :=
  returnedWith_secReturns _ (setSec s _) q w hw ⟨o, List.mem_filter.mpr ⟨ho, hon⟩, hsrc⟩

theorem workOpen_of_same {s t : State} {r : Nat} (hr : ringAt t r = ringAt s r) (hj : t.journal = s.journal) (q : Word) :
    workOpen t r q = workOpen s r q := by
  unfold workOpen journalOf
  rw [hr, hj]

/-! ### A core's failure in its stages -/

/-- A core retired, and reported. -/
def coreRetired (s : State) (core : Nat) : State :=
  raise (setSec s (fun x => { x with retired := x.retired ||| BitVec.ofNat 4 (2 ^ core) })) Src.gcmCoreFail 0xFF 0x10

/-- What the core carried is run again, and what no core can protect is swept. -/
def coreRerun (u : State) (chans : List Nat) (ops : List SecSrc) : State :=
  let s3 := chans.foldl (fun t c => if protects t c then setQs t c rerunCur else t) u
  (List.range 24).foldl sweepNoCore ((s3.sec.ops.filter (fun o => onCore o && ops.contains o.src)).foldl rerunOp s3)

/-- The rings that a core's failure recovers: ring 9, and those whose frames run again. -/
def coreScope (u : State) (chans : List Nat) : List RingNo :=
  allRings.filter (fun r => decide (r.val = 9) || (chans.filterMap (rerunRing u)).contains r)

theorem coreFailOp_eq {s : State} {core : Nat} (h : s.sec.retired.getLsbD core = false) (chans : List Nat) (ops : List SecSrc) :
    coreFailOp s core chans ops = startRecovery (sweepOps (coreRerun (coreRetired s core) chans ops)) (coreScope (coreRetired s core) chans)
      0x10 0xFF false [] [] := by
  unfold coreFailOp
  rw [if_neg (by simp [h])]
  rfl

theorem rerunOp_sweepActs (s : State) (o : SecOp) : SweepActs s (rerunOp s o) := by
  unfold rerunOp
  split
  · exact secRead_sweepActs _ _ _ _
  · exact .refl s

theorem coreRerun_sweepActs (u : State) (chans : List Nat) (ops : List SecSrc) : SweepActs u (coreRerun u chans ops) := by
  unfold coreRerun
  dsimp only
  refine SweepActs.trans ?_ (foldl_sweepActs sweepNoCore_sweepActs _ _)
  refine SweepActs.trans ?_ (foldl_sweepActs rerunOp_sweepActs _ _)
  refine foldl_sweepActs (fun t c => ?_) _ _
  split
  · exact setChan_sweepActs _ _ _
  · exact .refl t

theorem foldl_eq {α β : Type} {f : State → α → State} (p : State → β) (hf : ∀ s a, p (f s a) = p s) (l : List α) (s : State) :
    p (l.foldl f s) = p s := by
  induction l generalizing s with
  | nil => rfl
  | cons a l ih => exact (ih _).trans (hf s a)

theorem rerunOp_ops (s : State) (o : SecOp) : (rerunOp s o).sec.ops = s.sec.ops := by
  unfold rerunOp
  split
  · rw [secRead_sec]
  · rfl

theorem rerunOp_ring9 (s : State) (o : SecOp) : ringAt (rerunOp s o) 9 = ringAt s 9 := by
  unfold rerunOp
  split
  · rw [ringAt_congr (secRead_rings _ _ _ _)]
  · rfl

theorem sweepNoCore_ops (s : State) (c : Nat) : (sweepNoCore s c).sec.ops = s.sec.ops := by
  unfold sweepNoCore
  dsimp only
  split
  · rfl
  · rw [raiseC_sec, setMac_sec, setQs_sec,
      foldl_eq (fun t : State => t.sec.ops) (fun t k => foldl_eq (fun t : State => t.sec.ops) (fun u w => by rw [returnWork_sec]) _ t), setQs_sec]

/-- Re-running leaves the operations under way, and ring 9. -/
theorem coreRerun_kept (u : State) (chans : List Nat) (ops : List SecSrc) :
    (coreRerun u chans ops).sec.ops = u.sec.ops ∧ ringAt (coreRerun u chans ops) 9 = ringAt u 9 := by
  have hmark (t : State) (c : Nat) : (if protects t c then setQs t c rerunCur else t).sec.ops = t.sec.ops ∧
      ringAt (if protects t c then setQs t c rerunCur else t) 9 = ringAt t 9 := by split <;> exact ⟨rfl, rfl⟩
  unfold coreRerun
  dsimp only
  refine ⟨?_, ?_⟩
  · rw [foldl_eq (fun t : State => t.sec.ops) sweepNoCore_ops, foldl_eq (fun t : State => t.sec.ops) rerunOp_ops,
      foldl_eq (fun t : State => t.sec.ops) (fun t c => (hmark t c).1)]
  · rw [foldl_eq (fun t : State => ringAt t 9) (fun t c => ringAt_sweepNoCore t c (by decide)), foldl_eq (fun t : State => ringAt t 9) rerunOp_ring9,
      foldl_eq (fun t : State => ringAt t 9) (fun t c => (hmark t c).2)]

theorem coresLeft_congr {s t : State} (h : t.sec.retired = s.sec.retired) : coresLeft t = coresLeft s := by
  rw [coresLeft, h, coresLeft]

/-- What the sweep of operations moves. -/
theorem sweepOps_spec (s : State) : SameCounters s (sweepOps s) ∧ (sweepOps s).ledger = s.ledger ∧ (sweepOps s).journal = s.journal ∧
    (sweepOps s).recov = s.recov ∧ (sweepOps s).sec.retired = s.sec.retired ∧ (s.sec.port = [] → (sweepOps s).sec.slots = s.sec.slots) := by
  rw [sweepOps_eq]
  split
  · have hs := opsReturned_sweepActs s
    have hp := portTurn_portActs 16 (opsReturned s)
    have e := hs.frame
    have e' := hp.frame
    refine ⟨hs.counters.trans (sameCounters_of_rings (by rw [e'])), by rw [e', e], by rw [e', e], by rw [e', e], by rw [hp.retired, e], fun hport => ?_⟩
    rw [portTurn_of_empty (by rw [e]; exact hport), e]
  · exact ⟨.refl s, rfl, rfl, rfl, rfl, fun _ => rfl⟩

theorem gcmCoreFail_spec (s : State) (core : Nat) (chans : List Nat) (ops : List SecSrc) :
    SameCounters s (coreFailOp s core chans ops) ∧ (coreFailOp s core chans ops).ledger = s.ledger ∧
    (coreFailOp s core chans ops).journal = s.journal ∧ (s.sec.port = [] → (coreFailOp s core chans ops).sec.slots = s.sec.slots) := by
  cases hc : s.sec.retired.getLsbD core with
  | true =>
    rw [show coreFailOp s core chans ops = s from if_pos hc]
    exact ⟨.refl s, rfl, rfl, fun _ => rfl⟩
  | false =>
    rw [coreFailOp_eq hc]
    have hr := coreRerun_sweepActs (coreRetired s core) chans ops
    have e := hr.frame
    obtain ⟨hcount, hledger, hjournal, -, -, hslots⟩ := sweepOps_spec (coreRerun (coreRetired s core) chans ops)
    have hretired : SameCounters s (coreRetired s core) := sameCounters_of_rings (raise_rings _ _ _ _)
    refine ⟨((hretired.trans hr.counters).trans hcount).trans (startRecovery_sameCounters _ _ _ _ _ _ _), ?_, ?_, fun hport => ?_⟩
    · rw [startRecovery_ledger, hledger, e]
      exact raise_ledger _ _ _ _
    · rw [startRecovery_journal, hjournal, e]
      exact raise_journal _ _ _ _
    · have hsec : (coreRetired s core).sec = { s.sec with retired := s.sec.retired ||| BitVec.ofNat 4 (2 ^ core) } := raise_sec _ _ _ _
      rw [startRecovery_sec, hslots (by rw [e]; show (coreRetired s core).sec.port = []; rw [hsec]; exact hport), e]
      show (coreRetired s core).sec.slots = _
      rw [hsec]

theorem coreRetired_sec (s : State) (core : Nat) :
    (coreRetired s core).sec = { s.sec with retired := s.sec.retired ||| BitVec.ofNat 4 (2 ^ core) } := raise_sec _ _ _ _

theorem gcmCoreFail_retires {s : State} {core : Nat} (hc : s.sec.retired.getLsbD core = false) (chans : List Nat) (ops : List SecSrc) :
    (coreFailOp s core chans ops).sec.retired = s.sec.retired ||| BitVec.ofNat 4 (2 ^ core) := by
  rw [coreFailOp_eq hc, startRecovery_sec]
  obtain ⟨-, -, -, -, hretired, -⟩ := sweepOps_spec (coreRerun (coreRetired s core) chans ops)
  rw [hretired, (coreRerun_sweepActs (coreRetired s core) chans ops).frame]
  show (coreRetired s core).sec.retired = _
  rw [coreRetired_sec]

theorem coreRetired_ring (s : State) (core r : Nat) : ringAt (coreRetired s core) r = ringAt s r := ringAt_congr (raise_rings _ _ _ _) r

theorem coreRetired_journal (s : State) (core : Nat) : (coreRetired s core).journal = s.journal := raise_journal _ _ _ _

theorem coreRerun_journal (u : State) (chans : List Nat) (ops : List SecSrc) : (coreRerun u chans ops).journal = u.journal := by
  rw [(coreRerun_sweepActs u chans ops).frame]

/-- With no core left the requests on a core are returned RET_PART. -/
theorem gcmCoreFail_returns {s : State} {core : Nat} (hc : s.sec.retired.getLsbD core = false) (chans : List Nat) (ops : List SecSrc)
    {o : SecOp} {seq : Word} {w : Work} (ho : o ∈ s.sec.ops) (hon : onCore o = true) (hsrc : o.src = .host seq)
    (hw : workOpen s 9 seq = some w) (hleft : coresLeft (coreFailOp s core chans ops) = 0) :
    returnedWith (coreFailOp s core chans ops) 9 seq = some (Outcome.of .retPart 0 0) := by
  have hret := gcmCoreFail_retires hc chans ops
  rw [coreFailOp_eq hc, returnedWith_startRecovery _ _ _ _ _ _ _ (by decide)]
  obtain ⟨hops, hring⟩ := coreRerun_kept (coreRetired s core) chans ops
  have e := (coreRerun_sweepActs (coreRetired s core) chans ops).frame
  have hsec : (coreRerun (coreRetired s core) chans ops).sec.retired = s.sec.retired ||| BitVec.ofNat 4 (2 ^ core) := by
    rw [e]
    show (coreRetired s core).sec.retired = _
    rw [coreRetired_sec]
  have hnone : coresLeft (coreRerun (coreRetired s core) chans ops) = 0 := (coresLeft_congr (hsec.trans hret.symm)).trans hleft
  have hturn : (portTurn 16 (opsReturned (coreRerun (coreRetired s core) chans ops))).rings =
      (opsReturned (coreRerun (coreRetired s core) chans ops)).rings := by rw [(portTurn_portActs 16 _).frame]
  rw [sweepOps_eq, if_pos hnone, returnedWith_congr hturn]
  refine opsReturned_returned (by rw [hops, coreRetired_sec]; exact ho) hon hsrc (w := w) ?_
  rw [workOpen_of_same (hring.trans (coreRetired_ring s core 9)) ((coreRerun_journal _ _ _).trans (coreRetired_journal s core))]
  exact hw

/-- A core's failure starts one recovery of cause 0x10, with ring 9 in its scope. -/
theorem gcmCoreFail_recovers {s : State} {core : Nat} (hc : s.sec.retired.getLsbD core = false) (chans : List Nat) (ops : List SecSrc) :
    ∃ v, v ∈ (coreFailOp s core chans ops).recov ∧ v.cause = 0x10 ∧ ∀ r : RingNo, r.val = 9 → r ∈ v.scope := by
  rw [coreFailOp_eq hc, startRecovery_recov]
  refine ⟨_, List.mem_append_right _ (List.mem_singleton.mpr rfl), rfl, fun r hr => ?_⟩
  refine List.mem_filter.mpr ⟨List.mem_finRange r, ?_⟩
  simp [hr]

theorem getLsbD_of_retired (x : BitVec 4) (core : Fin 4) : (x ||| BitVec.ofNat 4 (2 ^ core.val)).getLsbD core.val = true := by
  have : ∀ c : Fin 4, (BitVec.ofNat 4 (2 ^ c.val)).getLsbD c.val = true := by decide
  rw [BitVec.getLsbD_or, this core, Bool.or_true]

theorem gcmKnownAnswer_spec (s : State) (core : Fin 4) : exec (.gcmKnownAnswerTest core true) s = .next s ∧
    ∃ t, exec (.gcmKnownAnswerTest core false) s = .next t ∧ SameCounters s t ∧ t.sec.retired.getLsbD core.val = true := by
  refine ⟨rfl, coreFailOp s core.val [] [], rfl, (gcmCoreFail_spec s core.val [] []).1, ?_⟩
  cases hc : s.sec.retired.getLsbD core.val with
  | true => rw [show coreFailOp s core.val [] [] = s from if_pos hc, hc]
  | false => rw [gcmCoreFail_retires hc, getLsbD_of_retired]

/-! ### Randomness (R260, R261) -/

theorem trngFailOp_frame (s : State) : trngFailOp s =
    { s with sec := { s.sec with trngFail := true, maskStale := true }, hif := (trngFailOp s).hif, evt := (trngFailOp s).evt, sent := (trngFailOp s).sent } := by
  apply State.eq_of_parts <;> simp [trngFailOp, setSec]

/-- Settles O35: a core's failure is a re-run, a sweep and one recovery; the generators stop and are reseeded by the definition's cases. -/
theorem coresAndRandomness : Obligations.CoresAndRandomness := by
  intro s
  refine ⟨fun core chs ops => ?_, gcmKnownAnswer_spec s, ⟨_, rfl, trngFailOp_frame s⟩, ?_, fun hf => ?_, fun hf => ?_⟩
  · obtain ⟨hcount, hledger, hjournal, hslots⟩ := gcmCoreFail_spec s core.val (chs.map (fun c => c.val)) ops
    exact ⟨_, rfl, hcount, hledger, hjournal, hslots, fun hc => if_pos hc, fun hc => ⟨gcmCoreFail_retires hc _ _,
      fun o seq w ho hon hsrc hw hleft => gcmCoreFail_returns hc _ _ ho hon hsrc hw hleft, gcmCoreFail_recovers hc _ _⟩⟩
  · refine ⟨if s.sec.trngFail then setSec (reseedBoth s) (fun x => { x with trngFail := false, maskStale := false }) else s, rfl,
      fun hf => if_neg (by simp [hf]), fun hf => ?_⟩
    rw [if_pos hf]
    rfl
  · simp [exec, execTrngRetest, execDrbgReseed, execMaskReseed, hf]
  · have hn : ¬ s.sec.trngFail = true := by simp [hf]
    have hretest : exec (.trngRetest false) s = .next (trngFailOp s) := by
      show Host.Outcome.next (if s.sec.trngFail then s else trngFailOp s) = _
      rw [if_neg hn]
    have hdrbg : exec .drbgReseed s = .next (setSec (drew s) (fun x => { x with drbgCount := 0, drbgSeed := s.free })) := by
      show Host.Outcome.next (if s.sec.trngFail then s else _) = _
      rw [if_neg hn]
    have hmask : exec .maskReseed s = .next (setSec (drew s) (fun x => { x with maskSeed := s.free })) := by
      show Host.Outcome.next (if s.sec.trngFail then s else _) = _
      rw [if_neg hn]
    exact ⟨⟨_, hretest, by simp [trngFailOp, setSec], by simp [trngFailOp, setSec]⟩, ⟨_, hdrbg, rfl⟩, ⟨_, hmask, rfl⟩⟩

end Sys2Proof.Machine

/-! # Feed trips, UNLOCK and the two ways of holding a feed off

One controller's moves, and the FEED domain that follows them. -/

namespace Sys2Proof.Machine

open Sys2Proof

/-! ### One controller -/

theorem chanAt_setFeed_self (s : State) (c : Ch) (f : Feed → Feed) :
    chanAt (setFeed s c.val f) c.val = { chanAt s c.val with feed := f (chanAt s c.val).feed } := chanAt_setChan_self s c.val _ c.isLt

theorem setFeed_onlyChan (s : State) (c : Nat) (f : Feed → Feed) : OnlyChan s (setFeed s c f) c := setChan_onlyChan s c _

theorem raise_onlyChan (s : State) (src scope : Nat) (i : Word) (c : Nat) : OnlyChan s (raise s src scope i) c := fun x _ => chanAt_raise s src scope i x

/-- What following the enable leaves: the settings, the holds and TRIES. -/
theorem feedFollow_kept (f : Feed) : (feedFollow f).cfg = f.cfg ∧ (feedFollow f).holdOff = f.holdOff ∧ (feedFollow f).bmcOff = f.bmcOff ∧
    (feedFollow f).tries = f.tries := by
  unfold feedFollow
  split
  · exact ⟨rfl, rfl, rfl, rfl⟩
  split
  · split <;> exact ⟨rfl, rfl, rfl, rfl⟩
  split <;> exact ⟨rfl, rfl, rfl, rfl⟩

theorem feedFollow_tries (f : Feed) : (feedFollow f).tries = f.tries := by
  obtain ⟨-, -, -, h⟩ := feedFollow_kept f
  exact h

theorem feedFollow_disabled {f : Feed} (h : feedEnable f = false) (hl : f.state ≠ .lockedOff) : (feedFollow f).state = .off := by
  unfold feedFollow
  rw [if_neg hl, if_pos (by simp [h])]
  split
  next ho => exact ho
  · rfl

theorem feedFollow_off {f : Feed} (h : f.state = .off) : (feedFollow f).state = if feedEnable f then .waitBudget else .off := by
  unfold feedFollow
  rw [if_neg (by simp [h])]
  cases he : feedEnable f <;> simp [h]

theorem feedEnable_of_kept {f g : Feed} (hc : g.cfg = f.cfg) (hh : g.holdOff = f.holdOff) (hb : g.bmcOff = f.bmcOff) :
    feedEnable g = feedEnable f := by
  rw [feedEnable, hc, hh, hb, feedEnable]

theorem feedEnable_follow (f : Feed) : feedEnable (feedFollow f) = feedEnable f := by
  obtain ⟨hc, hh, hb, -⟩ := feedFollow_kept f
  exact feedEnable_of_kept hc hh hb

theorem feedDomainOff_kept (f : Feed) : (feedDomainOff f).holdOff = f.holdOff ∧ (feedDomainOff f).bmcOff = f.bmcOff ∧
    (f.state ≠ .lockedOff → (feedDomainOff f).state = .off) := by
  unfold feedDomainOff
  split
  next h => exact ⟨rfl, rfl, fun hl => absurd h hl⟩
  · exact ⟨rfl, rfl, fun _ => rfl⟩

/-! ### The FEED domain -/

/-- Where the FEED domain follows Table 14.2, each controller stays, follows its enable or is switched off. -/
theorem feedPower_feed (s : State) (c : Ch) : (chanAt (feedPower s) c.val).feed = (chanAt s c.val).feed ∨
    (chanAt (feedPower s) c.val).feed = feedFollow (chanAt s c.val).feed ∨
    (chanAt (feedPower s) c.val).feed = feedDomainOff (chanAt s c.val).feed := by
  unfold feedPower
  split
  · split
    · exact .inl rfl
    · have : chanAt (feedOn s) c.val = if present s c.val then { chanAt s c.val with feed := feedFollow (chanAt s c.val).feed } else chanAt s c.val :=
        chanAt_vmapIdx (t := feedOn s) (s := s) (f := fun c k => if present s c then { k with feed := feedFollow k.feed } else k) rfl c.isLt
      rw [this]
      split
      · exact .inr (.inl rfl)
      · exact .inl rfl
  · split
    · have : chanAt (feedOff s) c.val = { chanAt s c.val with feed := feedDomainOff (chanAt s c.val).feed } :=
        chanAt_vmapIdx (t := feedOff s) (s := s) (f := fun _ k => { k with feed := feedDomainOff k.feed }) rfl c.isLt
      rw [this]
      exact .inr (.inr rfl)
    · exact .inl rfl

theorem feedPower_frame (s : State) : feedPower s = { s with chans := (feedPower s).chans, pwr := (feedPower s).pwr } := by
  unfold feedPower
  split
  · split <;> rfl
  · split <;> rfl

/-- A hold keeps an output off, whatever the domain does. -/
theorem feedPower_holds (s : State) (c : Ch) : (chanAt (feedPower s) c.val).feed.holdOff = (chanAt s c.val).feed.holdOff ∧
    (chanAt (feedPower s) c.val).feed.bmcOff = (chanAt s c.val).feed.bmcOff ∧
    (feedEnable (chanAt s c.val).feed = false → (chanAt s c.val).feed.state = .off → (chanAt (feedPower s) c.val).feed.state = .off) := by
  rcases feedPower_feed s c with h | h | h
  · rw [h]
    exact ⟨rfl, rfl, fun _ hs => hs⟩
  · rw [h]
    obtain ⟨-, hh, hb, -⟩ := feedFollow_kept (chanAt s c.val).feed
    exact ⟨hh, hb, fun he hs => feedFollow_disabled he (by simp [hs])⟩
  · rw [h]
    obtain ⟨hh, hb, hoff⟩ := feedDomainOff_kept (chanAt s c.val).feed
    exact ⟨hh, hb, fun _ hs => hoff (by simp [hs])⟩

/-- A hold set or cleared on a controller, then followed by its domain. -/
theorem feedHold_spec (s : State) (c : Ch) (g : Feed → Feed) :
    (chanAt (feedPower (setFeed s c.val (fun f => feedFollow (g f)))) c.val).feed.holdOff = (g (chanAt s c.val).feed).holdOff ∧
    (chanAt (feedPower (setFeed s c.val (fun f => feedFollow (g f)))) c.val).feed.bmcOff = (g (chanAt s c.val).feed).bmcOff ∧
    (feedEnable (g (chanAt s c.val).feed) = false → (g (chanAt s c.val).feed).state ≠ .lockedOff →
      (chanAt (feedPower (setFeed s c.val (fun f => feedFollow (g f)))) c.val).feed.state = .off) := by
  obtain ⟨hh, hb, hoff⟩ := feedPower_holds (setFeed s c.val (fun f => feedFollow (g f))) c
  rw [chanAt_setFeed_self] at hh hb hoff
  obtain ⟨-, hh', hb', -⟩ := feedFollow_kept (g (chanAt s c.val).feed)
  refine ⟨hh.trans hh', hb.trans hb', fun he hl => hoff ?_ (feedFollow_disabled he hl)⟩
  rw [feedEnable_follow]
  exact he

/-! ### Trips (R300) -/

theorem feedTrip_frame (s : State) (c cause : Nat) : feedTrip s c cause =
    { s with hif := (feedTrip s c cause).hif, chans := (feedTrip s c cause).chans, evt := (feedTrip s c cause).evt, sent := (feedTrip s c cause).sent, free := (feedTrip s c cause).free } := by
  unfold feedTrip
  dsimp only
  split <;> apply State.eq_of_parts <;> simp

theorem feedTrip_onlyChan (s : State) (c cause : Nat) : OnlyChan s (feedTrip s c cause) c := by
  unfold feedTrip
  dsimp only
  split
  · exact ((OnlyChan.trans (t := drew s) (fun _ _ => rfl) (setFeed_onlyChan _ _ _)).trans (raise_onlyChan _ _ _ _ _)).trans (raise_onlyChan _ _ _ _ _)
  · exact (setFeed_onlyChan _ _ _).trans (raise_onlyChan _ _ _ _ _)

/-- The controller after a trip. -/
theorem feedTrip_feed (s : State) (c : Ch) (cause : Nat) :
    (chanAt (feedTrip s c.val cause) c.val).feed.gate = false ∧ (chanAt (feedTrip s c.val cause) c.val).feed.reserve = 0 ∧
    (chanAt (feedTrip s c.val cause) c.val).feed.last = BitVec.ofNat 4 cause ∧
    (chanAt (feedTrip s c.val cause) c.val).feed.load = .notMeasured ∧
    (chanAt (feedTrip s c.val cause) c.val).feed.cfg = (chanAt s c.val).feed.cfg ∧
    ((chanAt s c.val).feed.tries = 3 → (chanAt (feedTrip s c.val cause) c.val).feed.state = .lockedOff) ∧
    ((chanAt s c.val).feed.tries ≠ 3 → (chanAt (feedTrip s c.val cause) c.val).feed.state = .backoff ∧
      (chanAt (feedTrip s c.val cause) c.val).feed.tries = (chanAt s c.val).feed.tries + 1) := by
  unfold feedTrip
  dsimp only
  split
  next h =>
    rw [chanAt_raise, chanAt_raise, chanAt_setFeed_self]
    exact ⟨rfl, rfl, rfl, rfl, rfl, fun _ => rfl, fun hn => absurd h hn⟩
  next h =>
    rw [chanAt_raise, chanAt_setFeed_self]
    exact ⟨rfl, rfl, rfl, rfl, rfl, fun he => absurd he h, fun _ => ⟨rfl, rfl⟩⟩

/-- Each trip acts while its output is live, and changes nothing otherwise. -/
theorem trip_exec {s : State} {c : Ch} {i : Instr} {cause : Nat} {live : Bool}
    (h : (i, cause, live) ∈ [(Instr.feedShortTrip c, 1, (chanAt s c.val).feed.gate), (.feedOverloadTrip c, 2, feedRunning (chanAt s c.val).feed),
      (.feedPowerTrip c, 3, feedRunning (chanAt s c.val).feed)]) :
    exec i s = .next (if live then feedTrip s c.val cause else s) := by
  simp only [List.mem_cons, List.not_mem_nil, or_false, Prod.mk.injEq] at h
  rcases h with ⟨rfl, rfl, rfl⟩ | ⟨rfl, rfl, rfl⟩ | ⟨rfl, rfl, rfl⟩ <;> rfl

theorem feedTrips (s : State) (c : Ch) (i : Instr) (cause : Nat) (live : Bool)
    (h : (i, cause, live) ∈ [(Instr.feedShortTrip c, 1, (chanAt s c.val).feed.gate), (.feedOverloadTrip c, 2, feedRunning (chanAt s c.val).feed),
      (.feedPowerTrip c, 3, feedRunning (chanAt s c.val).feed)]) :
    ∃ t, exec i s = .next t ∧ OnlyChan s t c.val ∧
      t = { s with hif := t.hif, chans := t.chans, evt := t.evt, sent := t.sent, free := t.free } ∧
      (live = false → t = s) ∧
      (live = true → (chanAt t c.val).feed.gate = false ∧ (chanAt t c.val).feed.reserve = 0 ∧
        (chanAt t c.val).feed.last = BitVec.ofNat 4 cause ∧ (chanAt t c.val).feed.load = .notMeasured ∧
        (chanAt t c.val).feed.cfg = (chanAt s c.val).feed.cfg ∧
        ((chanAt s c.val).feed.tries = 3 → (chanAt t c.val).feed.state = .lockedOff) ∧
        ((chanAt s c.val).feed.tries ≠ 3 → (chanAt t c.val).feed.state = .backoff ∧
          (chanAt t c.val).feed.tries = (chanAt s c.val).feed.tries + 1)) := by
  have he := trip_exec h
  cases live with
  | true => exact ⟨_, he, feedTrip_onlyChan s c.val cause, feedTrip_frame s c.val cause, fun h => absurd h (by simp), fun _ => feedTrip_feed s c cause⟩
  | false => exact ⟨s, he, .refl s c.val, rfl, fun _ => rfl, fun h => absurd h (by simp)⟩

/-! ### Backoff, TRIES, inrush and UNLOCK (R300, R301) -/

/-- A controller changed while a condition holds: only its channel moves. -/
theorem setFeedIf_spec (s : State) (c : Ch) (p : Prop) [Decidable p] (f g : Feed → Feed) (hp : p → f (chanAt s c.val).feed = g (chanAt s c.val).feed)
    (hn : ¬ p → g (chanAt s c.val).feed = (chanAt s c.val).feed) (t : State)
    (ht : t = if p then setFeed s c.val f else s) :
    t = { s with chans := t.chans } ∧ OnlyChan s t c.val ∧ chanAt t c.val = { chanAt s c.val with feed := g (chanAt s c.val).feed } := by
  by_cases h : p
  · rw [if_pos h] at ht
    subst ht
    exact ⟨rfl, setFeed_onlyChan s c.val f, by rw [chanAt_setFeed_self, hp h]⟩
  · rw [if_neg h] at ht
    subst t
    exact ⟨rfl, .refl s c.val, by rw [hn h]⟩

theorem feedBackoffExpiry_spec (s : State) (c : Ch) : ∃ t, exec (.feedBackoffExpiry c) s = .next t ∧ t = { s with chans := t.chans } ∧ OnlyChan s t c.val ∧
      chanAt t c.val = { chanAt s c.val with feed := { (chanAt s c.val).feed with
        state := if (chanAt s c.val).feed.state = .backoff then .waitBudget else (chanAt s c.val).feed.state } } := by
  refine ⟨_, rfl, setFeedIf_spec s c ((chanAt s c.val).feed.state = .backoff) _
    (fun f => { f with state := if f.state = .backoff then .waitBudget else f.state }) (fun h => ?_) (fun h => ?_) _ rfl⟩
  · simp only [if_pos h]
  · simp only [if_neg h]

theorem feedTriesReset_spec (s : State) (c : Ch) : ∃ t, exec (.feedTriesReset c) s = .next t ∧ t = { s with chans := t.chans } ∧ OnlyChan s t c.val ∧
      chanAt t c.val = { chanAt s c.val with feed := { (chanAt s c.val).feed with
        tries := if feedRunning (chanAt s c.val).feed then 0 else (chanAt s c.val).feed.tries } } := by
  refine ⟨_, rfl, setFeedIf_spec s c (feedRunning (chanAt s c.val).feed = true) _
    (fun f => { f with tries := if feedRunning f then 0 else f.tries }) (fun h => ?_) (fun h => ?_) _ rfl⟩
  · simp only [if_pos h]
  · simp only [if_neg h]

theorem feedInrushAbort_spec (s : State) (c : Ch) : ∃ t, exec (.feedInrushAbort c) s = .next t ∧ OnlyChan s t c.val ∧
      t = { s with hif := t.hif, chans := t.chans, evt := t.evt, sent := t.sent } ∧
      ((chanAt s c.val).feed.state ≠ .paused → t = s) ∧
      ((chanAt s c.val).feed.state = .paused → (chanAt t c.val).feed.state = .backoff ∧ (chanAt t c.val).feed.last = 4 ∧
        (chanAt t c.val).feed.tries = (chanAt s c.val).feed.tries ∧ (chanAt t c.val).feed.gate = false) := by
  by_cases h : (chanAt s c.val).feed.state = .paused
  · have he : exec (.feedInrushAbort c) s = .next (raise (setFeed s c.val (fun f => { feedDrop f .backoff with last := 4 }))
        Src.feedInrushInterrupted c.val 0) := by
      show Host.Outcome.next (if (chanAt s c.val).feed.state = .paused then _ else _) = _
      rw [if_pos h]
    refine ⟨_, he, (setFeed_onlyChan _ _ _).trans (raise_onlyChan _ _ _ _ _), ?_, fun hn => absurd h hn, fun _ => ?_⟩
    · apply State.eq_of_parts <;> simp
    · rw [chanAt_raise, chanAt_setFeed_self]
      exact ⟨rfl, rfl, rfl, rfl⟩
  · have he : exec (.feedInrushAbort c) s = .next s := by
      show Host.Outcome.next (if (chanAt s c.val).feed.state = .paused then _ else _) = _
      rw [if_neg h]
    exact ⟨s, he, .refl s c.val, rfl, fun _ => rfl, fun hp => absurd hp h⟩

theorem feedUnlock_spec (s : State) (c : Ch) (hp : present s c.val = true) :
    ∃ t, exec (.feedUnlock .pf c) s = .next t ∧ t = { s with chans := t.chans } ∧ OnlyChan s t c.val ∧
      (chanAt t c.val).feed.tries = 0 ∧ (chanAt t c.val).tab = (chanAt s c.val).tab ∧
      ((chanAt s c.val).feed.state = .lockedOff →
        (chanAt t c.val).feed.state = if feedEnable (chanAt s c.val).feed then .waitBudget else .off) := by
  have he : exec (.feedUnlock .pf c) s = .next (feedUnlockOp s c.val) := by
    show Host.Outcome.next (if present s c.val then _ else _) = _
    rw [if_pos hp]
  refine ⟨_, he, rfl, setFeed_onlyChan _ _ _, ?_⟩
  rw [feedUnlockOp, chanAt_setFeed_self]
  refine ⟨?_, rfl, fun hl => ?_⟩
  · show (feedFollow _).tries = 0
    rw [feedFollow_tries]
    split <;> rfl
  · show (feedFollow (if (chanAt s c.val).feed.state = .lockedOff then _ else _)).state = _
    rw [if_pos hl, feedFollow_off rfl]
    rfl

/-! ### HOLD_OFF and BMC_OFF (R297, R361) -/

theorem feedHoldOff_fw (s : State) (c : Ch) (hp : present s c.val = true) (cp : Fin 2) (on : Bool) :
    ∃ t, exec (.feedHoldOff (.fw cp) c on) s = .next t ∧ t = { s with chans := t.chans, pwr := t.pwr } ∧
      (chanAt t c.val).feed.holdOff = on ∧ (chanAt t c.val).feed.bmcOff = (chanAt s c.val).feed.bmcOff ∧
      (on = true → (chanAt s c.val).feed.state ≠ .lockedOff → (chanAt t c.val).feed.state = .off) := by
  have he : exec (.feedHoldOff (.fw cp) c on) s = .next (feedPower (setFeed s c.val (fun f => feedFollow { f with holdOff := on }))) := by
    show Host.Outcome.next (if isFw (.fw cp) && present s c.val then _ else _) = _
    rw [if_pos (by rw [hp]; rfl)]
  obtain ⟨hh, hb, hoff⟩ := feedHold_spec s c (fun f => { f with holdOff := on })
  refine ⟨_, he, ?_, hh, hb, fun hon hl => hoff (by simp [feedEnable, hon]) hl⟩
  rw [feedPower_frame]
  rfl

theorem bmcOff_spec (s : State) (c : Ch) (hp : present s c.val = true) (on : Bool) (ho : s.pwr.state ≠ .off) :
    ∃ t, exec (.bmcOff c on) s = .next t ∧
      t = { s with hif := t.hif, chans := t.chans, pwr := t.pwr, evt := t.evt, sent := t.sent } ∧
      (chanAt t c.val).feed.bmcOff = on ∧ (chanAt t c.val).feed.holdOff = (chanAt s c.val).feed.holdOff ∧
      (on = true → (chanAt s c.val).feed.state ≠ .lockedOff → (chanAt t c.val).feed.state = .off) := by
  have he : exec (.bmcOff c on) s =
      .next (feedPower (setFeed (raise s Src.mgtArmedWrite 0xFF 0) c.val (fun f => feedFollow { f with bmcOff := on }))) := by
    show Host.Outcome.next (if present s c.val && decide (s.pwr.state ≠ .off) then _ else _) = _
    rw [if_pos (by simp [hp, ho])]
  obtain ⟨hh, hb, hoff⟩ := feedHold_spec (raise s Src.mgtArmedWrite 0xFF 0) c (fun f => { f with bmcOff := on })
  rw [chanAt_raise] at hh hb hoff
  refine ⟨_, he, ?_, hb, hh, fun hon hl => hoff (by simp [feedEnable, hon]) hl⟩
  rw [feedPower_frame]
  apply State.eq_of_parts <;> simp

/-- Settles O38: each move of a controller changes its own channel, and a hold keeps its output off through the domain. -/
theorem feedTripsAndSwitchOff : Obligations.FeedTripsAndSwitchOff := by
  refine ⟨fun s c => ⟨feedTrips s c, feedBackoffExpiry_spec s c, feedTriesReset_spec s c, feedInrushAbort_spec s c, feedUnlock_spec s c,
    fun _ => rfl⟩, fun s c hp => ⟨feedHoldOff_fw s c hp, fun on => rfl, bmcOff_spec s c hp⟩⟩

end Sys2Proof.Machine

/-! # The XGEM port table and downstream XGEM frames

The indirect port reads and writes one entry; a downstream frame is discarded and counted, kept as a fragment, or goes on to firmware or the cross-connect. -/

namespace Sys2Proof.Machine

open Sys2Proof

/-! ### The port table (R111, R386) -/

theorem portOfWord_type (w : Word) : (portOfWord w).type.toNat = bits w 30 29 := by
  have : bits w 30 29 < 4 := by
    simp only [bits]
    omega
  exact (BitVec.toNat_ofNat _ _).trans (Nat.mod_eq_of_lt this)

theorem portOfWord_port (w : Word) : (portOfWord w).port.toNat = bits w 15 0 := by
  have : bits w 15 0 < 2 ^ 16 := by
    simp only [bits]
    omega
  exact (BitVec.toNat_ofNat _ _).trans (Nat.mod_eq_of_lt this)

/-- The entry a word spells shows that word. -/
theorem portImage_portOfWord (w : Word) : portImage (portOfWord w) = w := by
  have h := w.isLt
  apply BitVec.eq_of_toNat_eq
  simp only [portImage, portOfWord, word, fieldAt, flagAt, bitOf, bits, BitVec.toNat_ofNat, Nat.testBit_eq_decide_div_mod_eq,
    decide_eq_true_eq]
  split <;> split <;> omega

/-- A port ID is taken where another entry holds it. -/
theorem portDup_iff (u : Upl) (i : Nat) (e : PortEntry) :
    portDup u i e = true ↔ ∃ j, j < 1024 ∧ j ≠ i ∧ (vget u.ports j PortEntry.zero).valid = true ∧ (vget u.ports j PortEntry.zero).port = e.port := by
  simp only [portDup, List.any_eq_true, Bool.and_eq_true, bne_iff_ne, ne_eq, beq_iff_eq, Prod.exists]
  constructor
  · rintro ⟨x, j, hm, ⟨hj, hv⟩, hp⟩
    obtain ⟨-, hlt, hx⟩ := List.mem_zipIdx hm
    have hj' : j < 1024 := by simpa using hlt
    have hx' : vget u.ports j PortEntry.zero = x := by
      rw [hx]
      simp [vget, hj']
    exact ⟨j, hj', hj, by rw [hx']; exact hv, by rw [hx']; exact hp⟩
  · rintro ⟨j, hlt, hj, hv, hp⟩
    refine ⟨vget u.ports j PortEntry.zero, j, ?_, ⟨hj, hv⟩, hp⟩
    rw [List.mem_zipIdx_iff_getElem?]
    simp [vget, hlt]

/-- What a firmware WRITE leaves of the port table. -/
theorem portWriteOp_kept (u : Upl) (i : BitVec 10) :
    portWriteOp u i = { u with portIdx := i, portStatus := (portWriteOp u i).portStatus, ports := (portWriteOp u i).ports } ∧
    ∀ j, j ≠ i.toNat → vget (portWriteOp u i).ports j PortEntry.zero = vget u.ports j PortEntry.zero := by
  unfold portWriteOp
  dsimp only
  split
  · exact ⟨rfl, fun _ _ => rfl⟩
  split
  · exact ⟨rfl, fun _ _ => rfl⟩
  · exact ⟨rfl, fun j hj => vget_vset_ne _ _ _ _ _ hj⟩

theorem portWriteOp_reserved {u : Upl} {i : BitVec 10} (h : i = 0 ∨ 2 ≤ bits u.portData 30 29) :
    portWriteOp u i = { u with portIdx := i, portStatus := 2 } := by
  rw [portWriteOp, if_pos (by rw [portOfWord_type]; exact h)]

theorem portWriteOp_open {u : Upl} {i : BitVec 10} (hi : i ≠ 0) (h : bits u.portData 30 29 < 2) : portWriteOp u i =
    if portDup u i.toNat (portOfWord u.portData) then { u with portIdx := i, portStatus := 1 }
    else { u with portIdx := i, portStatus := 0, ports := vset u.ports i.toNat (portOfWord u.portData) } := by
  rw [portWriteOp, if_neg]
  rw [portOfWord_type]
  rintro (h' | h')
  · exact hi h'
  · omega

theorem uplPortWrite_fw {s : State} (hd : s.pwr.domUpl = true) (cp : Fin 2) (i : BitVec 10) :
    ∃ t, exec (.uplPortWrite (.fw cp) i) s = .next t ∧
      t = { s with upl := { s.upl with portIdx := i, portStatus := t.upl.portStatus, ports := t.upl.ports } } ∧
      (∀ j, j ≠ i.toNat → vget t.upl.ports j PortEntry.zero = vget s.upl.ports j PortEntry.zero) ∧
      ((i = 0 ∨ 2 ≤ bits s.upl.portData 30 29) → t.upl.portStatus = 2 ∧ t.upl.ports = s.upl.ports) ∧
      (i ≠ 0 → bits s.upl.portData 30 29 < 2 →
        (t.upl.portStatus = 1 ↔ ∃ j, j < 1024 ∧ j ≠ i.toNat ∧ (vget s.upl.ports j PortEntry.zero).valid = true ∧
          (vget s.upl.ports j PortEntry.zero).port.toNat = bits s.upl.portData 15 0) ∧
        (t.upl.portStatus ≠ 1 → t.upl.portStatus = 0 ∧
          portImage (vget t.upl.ports i.toNat PortEntry.zero) = s.upl.portData)) := by
  have he : exec (.uplPortWrite (.fw cp) i) s = .next (setUpl s (fun u => portWriteOp u i)) := by
    show Host.Outcome.next (if isFw (.fw cp) && s.pwr.domUpl then _ else _) = _
    rw [if_pos (by rw [hd]; rfl)]
  obtain ⟨hkept, hothers⟩ := portWriteOp_kept s.upl i
  refine ⟨_, he, ?_, hothers, fun h => ?_, fun hi h => ?_⟩
  · show { s with upl := portWriteOp s.upl i } = _
    rw [hkept]
    rfl
  · show (portWriteOp s.upl i).portStatus = 2 ∧ (portWriteOp s.upl i).ports = s.upl.ports
    rw [portWriteOp_reserved h]
    exact ⟨rfl, rfl⟩
  · have hport (j : Nat) : (vget s.upl.ports j PortEntry.zero).port = (portOfWord s.upl.portData).port ↔
        (vget s.upl.ports j PortEntry.zero).port.toNat = bits s.upl.portData 15 0 := by
      rw [← portOfWord_port, BitVec.toNat_inj]
    show ((portWriteOp s.upl i).portStatus = 1 ↔ _) ∧ ((portWriteOp s.upl i).portStatus ≠ 1 → (portWriteOp s.upl i).portStatus = 0 ∧
      portImage (vget (portWriteOp s.upl i).ports i.toNat PortEntry.zero) = s.upl.portData)
    simp only [← hport]
    rw [← portDup_iff, portWriteOp_open hi h]
    split
    next hdup => exact ⟨⟨fun _ => hdup, fun _ => rfl⟩, fun hn => absurd rfl hn⟩
    next hdup =>
      refine ⟨⟨fun h0 => absurd (show (0 : BitVec 2) = 1 from h0) (by decide), fun hd => absurd hd hdup⟩, fun _ => ⟨rfl, ?_⟩⟩
      rw [vget_vset_self _ _ _ _ i.isLt, portImage_portOfWord]

theorem uplPortClear_fw {s : State} (hd : s.pwr.domUpl = true) (cp : Fin 2) (i : BitVec 10) :
    ∃ t, exec (.uplPortClear (.fw cp) i) s = .next t ∧
      t = { s with upl := { s.upl with portIdx := i, portStatus := t.upl.portStatus, ports := t.upl.ports } } ∧
      (i = 0 → t.upl.portStatus = 2 ∧ t.upl.ports = s.upl.ports) ∧
      (i ≠ 0 → t.upl.portStatus = 0 ∧ vget t.upl.ports i.toNat PortEntry.zero = PortEntry.zero) := by
  have he : exec (.uplPortClear (.fw cp) i) s = .next (setUpl s (fun u => portClearOp u i)) := by
    show Host.Outcome.next (if isFw (.fw cp) && s.pwr.domUpl then _ else _) = _
    rw [if_pos (by rw [hd]; rfl)]
  refine ⟨_, he, ?_⟩
  show { s with upl := portClearOp s.upl i } = { s with upl := { s.upl with
      portIdx := i, portStatus := (portClearOp s.upl i).portStatus, ports := (portClearOp s.upl i).ports } } ∧
    (i = 0 → (portClearOp s.upl i).portStatus = 2 ∧ (portClearOp s.upl i).ports = s.upl.ports) ∧
    (i ≠ 0 → (portClearOp s.upl i).portStatus = 0 ∧ vget (portClearOp s.upl i).ports i.toNat PortEntry.zero = PortEntry.zero)
  unfold portClearOp
  split
  next h0 => exact ⟨rfl, fun _ => ⟨rfl, rfl⟩, fun hn => absurd h0 hn⟩
  next h0 => exact ⟨rfl, fun h => absurd h h0, fun _ => ⟨rfl, vget_vset_self _ _ _ _ i.isLt⟩⟩

/-! ### What a downstream frame moves -/

/-- What a downstream frame may move. -/
def DownFrame (s t : State) : Prop :=
  t = { s with time := t.time, hif := t.hif, chans := t.chans, upl := t.upl, xc := t.xc, fw := t.fw, evt := t.evt, sent := t.sent, free := t.free }

theorem DownFrame.refl (s : State) : DownFrame s s := rfl

theorem DownFrame.trans {s t u : State} (h : DownFrame s t) (h' : DownFrame t u) : DownFrame s u := by
  unfold DownFrame at h h' ⊢
  rw [h', h]

theorem EvtOnly.downFrame {s t : State} (h : EvtOnly s t) : DownFrame s t := by
  rw [h.frame]
  rfl

theorem setUpl_downFrame (s : State) (f : Upl → Upl) : DownFrame s (setUpl s f) := rfl

theorem setChan_downFrame (s : State) (c : Nat) (f : Chan → Chan) : DownFrame s (setChan s c f) := rfl

theorem takeId_downFrame (s : State) : DownFrame s (takeId s) := rfl

theorem countXgem_downFrame (s : State) : DownFrame s (countXgem s) := (setUpl_downFrame s _).trans (raiseC_evtOnly _ _ _ _).downFrame

theorem countNoFlow_downFrame (s : State) : DownFrame s (countNoFlow s) :=
  DownFrame.trans (t := { s with xc := _ }) rfl (raiseC_evtOnly _ _ _ _).downFrame

theorem countBufDiscard_downFrame (s : State) (c : Nat) : DownFrame s (countBufDiscard s c) :=
  (setChan_downFrame s c _).trans (raiseC_evtOnly _ _ _ _).downFrame

theorem DownFrame.ite {c : Prop} [Decidable c] {s t u : State} (h : DownFrame s t) (h' : DownFrame s u) : DownFrame s (if c then t else u) := by
  split <;> assumption

theorem countOversize_downFrame (s : State) (c : Nat) : DownFrame s (countOversize s c) := rfl

theorem enqueue_downFrame (s : State) (c i : Nat) (f : Frame) : DownFrame s (enqueue s c i f) := rfl

theorem toChannel_downFrame (s : State) (e : FlowEntry) (port c : Nat) (b : List Byte) (rx : Nat) : DownFrame s (toChannel s e port c b rx) := by
  unfold toChannel
  dsimp only
  exact .ite (setChan_downFrame s c _) (.ite (countOversize_downFrame s c)
    (.ite (countBufDiscard_downFrame s c) (.ite (enqueue_downFrame s c _ _) (countBufDiscard_downFrame s c))))

theorem toHostPart_downFrame (s : State) (exc : Bool) (port prio reason : Nat) (b : List Byte) (rx : Nat) :
    DownFrame s (toHostPart s exc port prio reason b rx) := by
  unfold toHostPart
  dsimp only
  split
  · rfl
  split
  · split <;> rfl
  · rfl

theorem foldl_downFrame {α : Type} {f : State → α → State} (hf : ∀ s a, DownFrame s (f s a)) (l : List α) (s : State) : DownFrame s (l.foldl f s) := by
  induction l generalizing s with
  | nil => exact .refl s
  | cons a l ih => exact (hf s a).trans (ih _)

theorem deliverDown_downFrame (s : State) (idx port : Nat) (b : List Byte) (rx : Nat) : DownFrame s (deliverDown s idx port b rx) := by
  unfold deliverDown
  dsimp only
  split
  · exact .refl s
  split
  · exact countNoFlow_downFrame s
  split
  · exact toChannel_downFrame _ _ _ _ _ _
  · refine foldl_downFrame (fun t c => ?_) _ _
    split
    · exact toChannel_downFrame _ _ _ _ _ _
    · exact .refl t
  · exact DownFrame.trans (t := drew s) rfl (toHostPart_downFrame _ _ _ _ _ _ _)
  · exact DownFrame.trans (t := drew s) rfl (toHostPart_downFrame _ _ _ _ _ _ _)
  · exact countNoFlow_downFrame s

theorem ptpIn_downFrame (s : State) (e : RxtsEntry) (t : Nat) : DownFrame s (ptpIn s e t) := by
  unfold ptpIn
  split <;> rfl

theorem captureUplink_downFrame (s : State) (b : List Byte) (t : Nat) : DownFrame s (captureUplink s b t) := by
  unfold captureUplink
  split
  · exact .refl s
  next e _ =>
    have captured : DownFrame s { ptpIn s e t with time := { (ptpIn s e t).time with rxts := (ptpIn s e t).time.rxts.push e } } :=
      (ptpIn_downFrame s e t).trans rfl
    dsimp only
    split
    · exact captured
    · exact captured.trans (raiseC_evtOnly _ _ _ _).downFrame

theorem xgemFrame_downFrame (s : State) (e : PortEntry) (x : List Byte) (t : Nat) : DownFrame s (xgemFrame s e x t) := by
  unfold xgemFrame
  split
  · rfl
  split
  · exact countXgem_downFrame s
  · exact (captureUplink_downFrame _ _ _).trans (deliverDown_downFrame _ _ _ _ _)

theorem xgemTake_downFrame (s : State) (e : PortEntry) (x : List Byte) (last : Bool) (t : Nat) : DownFrame s (xgemTake s e x last t) := by
  have goesOn (u : State) (h : DownFrame s u) (at_ : Nat) (b : List Byte) :
      DownFrame s (if last then xgemFrame (setUpl u (fun u => { u with xgemPart := none })) e b at_
        else setUpl u (fun u => { u with xgemPart := some (e.port, at_, b) })) := by
    split
    · exact (h.trans (setUpl_downFrame _ _)).trans (xgemFrame_downFrame _ _ _ _)
    · exact h.trans (setUpl_downFrame _ _)
  unfold xgemTake
  cases s.upl.xgemPart with
  | none => exact goesOn s (.refl s) t x
  | some y =>
    obtain ⟨p, t0, b0⟩ := y
    dsimp only
    by_cases hp : p = e.port
    · rw [if_pos hp]
      exact goesOn s (.refl s) t0 (b0 ++ x)
    · rw [if_neg hp]
      exact goesOn _ (countXgem_downFrame s) t x

theorem xgemOp_downFrame (s : State) (hdr : DWord) (pos hb : Nat) (b : List Byte) : DownFrame s (xgemOp s hdr pos hb b) := by
  unfold xgemOp
  dsimp only
  split
  · exact .refl s
  split
  · exact countXgem_downFrame s
  split
  · exact (setUpl_downFrame s _).trans (countXgem_downFrame _)
  split
  · exact countXgem_downFrame s
  split
  · exact countXgem_downFrame s
  · exact xgemTake_downFrame _ _ _ _ _

/-! ### Discards -/

theorem countXgem_upl (s : State) : (countXgem s).upl = { s.upl with xgemDisc := s.upl.xgemDisc + 1 } := by
  rw [countXgem, raiseC_upl]
  rfl

theorem countXgem_kept (s : State) : (countXgem s).chans = s.chans ∧ (countXgem s).xc = s.xc := by
  rw [countXgem, raiseC_chans, raiseC_xc]
  exact ⟨rfl, rfl⟩

/-- A counted discard. -/
theorem countXgem_discards (s : State) : (countXgem s).upl = { s.upl with xgemDisc := s.upl.xgemDisc + 1 } ∧
    (countXgem s).chans = s.chans ∧ (countXgem s).xc = s.xc := ⟨countXgem_upl s, countXgem_kept s⟩

/-- A header that cannot be corrected discards the rest of its frame's payload. -/
theorem xgemOp_lost {s : State} {hdr : DWord} (hs : inSync s = true) (h : s.upl.xgemSkip = true ∨ hecField 51 hdr.toNat = none)
    (pos hb : Nat) (b : List Byte) : (xgemOp s hdr pos hb b).upl = { s.upl with xgemDisc := s.upl.xgemDisc + 1, xgemSkip := true } ∧
      (xgemOp s hdr pos hb b).chans = s.chans ∧ (xgemOp s hdr pos hb b).xc = s.xc := by
  unfold xgemOp
  rw [if_neg (by simp [hs])]
  split
  next hskip =>
    obtain ⟨hupl, hkept⟩ := countXgem_discards s
    rw [hupl, ← hskip]
    exact ⟨rfl, hkept⟩
  next hskip =>
    rw [h.resolve_left hskip]
    obtain ⟨hupl, hkept⟩ := countXgem_discards (setUpl s (fun u => { u with xgemSkip := true }))
    exact ⟨hupl, hkept⟩

/-- A frame whose header is read: its port's entry is looked up, and its payload opened and taken. -/
def xgemRead (s : State) (v pos hb : Nat) (b : List Byte) : State :=
  match s.upl.ports.toList.find? (fun e => e.valid && e.port == (xgemHdrOf v).port) with
  | none => countXgem s
  | some e =>
    match xgemOpen s e (xgemHdrOf v).keyIdx pos (b.take (xgemHdrOf v).len) with
    | none => countXgem s
    | some x => xgemTake s e x (xgemHdrOf v).last (s.upl.tds + (bitTime (hb : Nat)).toNat)

/-- A header that is read goes on with its port's entry. -/
theorem xgemOp_read {s : State} {hdr : DWord} {v : Nat} (hs : inSync s = true) (hskip : s.upl.xgemSkip = false)
    (hv : hecField 51 hdr.toNat = some v) (pos hb : Nat) (b : List Byte) :
    xgemOp s hdr pos hb b = xgemRead s v pos hb b := by
  unfold xgemOp
  rw [if_neg (by simp [hs]), if_neg (by simp [hskip]), hv]
  rfl

theorem findPort_none {s : State} {v : Nat} (h : ∀ e, e ∈ s.upl.ports.toList → e.valid = true → e.port ≠ (xgemHdrOf v).port) :
    s.upl.ports.toList.find? (fun e => e.valid && e.port == (xgemHdrOf v).port) = none := by
  refine List.find?_eq_none.mpr fun e he hp => ?_
  simp only [Bool.and_eq_true, beq_iff_eq] at hp
  exact h e he hp.1 hp.2

theorem xgemOpen_without_key {s : State} {e : PortEntry} {k : BitVec 2}
    (h : k = 3 ∨ (k = 0 ∧ e.encReq = true) ∨ (k ≠ 0 ∧ ∀ x, xgemHandle s.upl e k = some x → uplKeyUsable s 5 x = false)) (pos : Nat)
    (b : List Byte) : xgemOpen s e k pos b = none := by
  have handled (hk : k ≠ 0) (hx : ∀ x, xgemHandle s.upl e k = some x → uplKeyUsable s 5 x = false) : xgemOpen s e k pos b = none := by
    rw [xgemOpen, if_neg hk]
    split
    · rfl
    next x he => rw [if_neg (by simp [hx x he])]
  rcases h with rfl | ⟨rfl, he⟩ | ⟨hk, hx⟩
  · exact handled (by decide) (fun x hx => by simp [xgemHandle] at hx)
  · rw [xgemOpen, if_pos rfl, if_pos he]
  · exact handled hk hx

theorem xgemOpen_plain {s : State} {e : PortEntry} (he : e.encReq = false) (pos : Nat) (b : List Byte) : xgemOpen s e 0 pos b = some b := by
  rw [xgemOpen, if_pos rfl, if_neg (by simp [he])]

theorem xgemTake_first {s : State} (hp : s.upl.xgemPart = none) (e : PortEntry) (x : List Byte) (last : Bool) (t : Nat) :
    xgemTake s e x last t = if last then xgemFrame s e x t else setUpl s (fun u => { u with xgemPart := some (e.port, t, x) }) := by
  have hsame : setUpl s (fun u => { u with xgemPart := none }) = s := by
    show { s with upl := { s.upl with xgemPart := none } } = s
    rw [← hp]
  unfold xgemTake
  rw [hp]
  show (if last then xgemFrame (setUpl s (fun u => { u with xgemPart := none })) e x t else _) = _
  rw [hsame]

theorem xgemReceived_spec (s : State) (hi lo : Word) (hdr : DWord) (pos hb : Nat) (x : List Byte) (hh : hdr = hi ++ lo) (hs : inSync s = true) :
    ∃ t, exec (.xgemFrameReceived hi lo pos hb x) s = .next t ∧
        t = { s with time := t.time, hif := t.hif, chans := t.chans, upl := t.upl, xc := t.xc, fw := t.fw, evt := t.evt,
                     sent := t.sent, free := t.free } ∧
        ((s.upl.xgemSkip = true ∨ hecField 51 hdr.toNat = none) →
          t.upl = { s.upl with xgemDisc := s.upl.xgemDisc + 1, xgemSkip := true } ∧ t.chans = s.chans ∧ t.xc = s.xc) ∧
        (∀ v, s.upl.xgemSkip = false → hecField 51 hdr.toNat = some v →
          ((∀ e, e ∈ s.upl.ports.toList → e.valid = true → e.port ≠ (xgemHdrOf v).port) →
            t.upl = { s.upl with xgemDisc := s.upl.xgemDisc + 1 } ∧ t.chans = s.chans ∧ t.xc = s.xc) ∧
          (∀ e, s.upl.ports.toList.find? (fun e => e.valid && e.port == (xgemHdrOf v).port) = some e →
            (((xgemHdrOf v).keyIdx = 3 ∨ ((xgemHdrOf v).keyIdx = 0 ∧ e.encReq = true) ∨
                ((xgemHdrOf v).keyIdx ≠ 0 ∧ ∀ h, xgemHandle s.upl e (xgemHdrOf v).keyIdx = some h → uplKeyUsable s 5 h = false)) →
              t.upl = { s.upl with xgemDisc := s.upl.xgemDisc + 1 } ∧ t.chans = s.chans ∧ t.xc = s.xc) ∧
            ((xgemHdrOf v).keyIdx = 0 → e.encReq = false → s.upl.xgemPart = none →
              ((xgemHdrOf v).last = true → e.type = 2 → t = { s with sent := .toFirmware (x.take (xgemHdrOf v).len) :: s.sent }) ∧
              ((xgemHdrOf v).last = false → t = { s with upl := { s.upl with
                xgemPart := some (e.port, s.upl.tds + (bitTime (hb : Nat)).toNat, x.take (xgemHdrOf v).len) } })))) := by
  subst hh
  refine ⟨xgemOp s (hi ++ lo) pos hb x, rfl, xgemOp_downFrame s _ pos hb x, fun h => xgemOp_lost hs h pos hb x, fun v hskip hv => ⟨fun hne => ?_,
    fun e he => ⟨fun hkey => ?_, fun hk henc hpart => ?_⟩⟩⟩
  · rw [xgemOp_read hs hskip hv, xgemRead, findPort_none hne]
    exact countXgem_discards s
  · rw [xgemOp_read hs hskip hv, xgemRead, he]
    dsimp only
    rw [xgemOpen_without_key hkey]
    exact countXgem_discards s
  · have hop : xgemOp s (hi ++ lo) pos hb x =
        xgemTake s e (x.take (xgemHdrOf v).len) (xgemHdrOf v).last (s.upl.tds + (bitTime (hb : Nat)).toNat) := by
      rw [xgemOp_read hs hskip hv, xgemRead, he]
      dsimp only
      rw [hk, xgemOpen_plain henc]
    rw [hop, xgemTake_first hpart]
    refine ⟨fun hl ht => ?_, fun hl => ?_⟩
    · rw [if_pos hl, xgemFrame, if_pos ht]
      rfl
    · rw [if_neg (by simp [hl])]
      rfl

/-- Settles O24: the port table's operations change one entry, and a downstream frame is discarded before its payload is used. -/
theorem xgemPortsKeptAndUsed : Obligations.XgemPortsKeptAndUsed := by
  intro s hd
  refine ⟨fun who i hw => ?_, uplPortWrite_fw hd, uplPortClear_fw hd, fun i => ⟨rfl, rfl⟩, xgemReceived_spec s⟩
  show Host.Outcome.next (if reachesAll who && s.pwr.domUpl then _ else _) = _
  rw [if_pos (by rw [hw, hd]; rfl)]
  rfl

end Sys2Proof.Machine


/-! # The uplink's synchronisation (O20)

What the gate, the synchronisation and the levels that follow them do to the state is said once here, as a frame
(`UplFrame`: the uplink, the source of the datum, and the events) and as the uplink's new value; the statements about the
optics and the PLOAM messages use the same layer. -/

namespace Sys2Proof.Machine

open Sys2Proof

/-! ### The frame -/

/-- Only the uplink, the source of the datum and the events differ. -/
def UplFrame (s t : State) : Prop := t = { s with time := t.time, hif := t.hif, upl := t.upl, evt := t.evt, sent := t.sent }

theorem UplFrame.refl (s : State) : UplFrame s s := rfl

theorem UplFrame.trans {s t u : State} (h : UplFrame s t) (h' : UplFrame t u) : UplFrame s u := by
  unfold UplFrame at h h' ⊢
  rw [h', h]

theorem EvtOnly.uplFrame {s t : State} (h : EvtOnly s t) : UplFrame s t := by
  rw [h.frame]
  rfl

theorem setUpl_uplFrame (s : State) (f : Upl → Upl) : UplFrame s (setUpl s f) := rfl

theorem UplFrame.ite {c : Prop} [Decidable c] {s t u : State} (h : UplFrame s t) (h' : UplFrame s u) : UplFrame s (if c then t else u) := by
  split <;> assumption

theorem driveTx_uplFrame (s : State) : UplFrame s (driveTx s) := rfl

theorem followSrc_uplFrame (s : State) : UplFrame s (followSrc s) := .ite rfl (.ite rfl rfl)

theorem takeEqd_uplFrame (s : State) : UplFrame s (takeEqd s) := by
  unfold takeEqd
  split
  · rfl
  · exact .ite rfl rfl

theorem setGate_uplFrame (s : State) (g : GateSt) : UplFrame s (setGate s g) :=
  .ite ((driveTx_uplFrame s).trans (followSrc_uplFrame _))
    (((setUpl_uplFrame s _).trans ((driveTx_uplFrame _).trans (followSrc_uplFrame _))).trans (raise_evtOnly _ _ _ _).uplFrame)

theorem declareLods_uplFrame (s : State) : UplFrame s (declareLods s) :=
  .ite ((setUpl_uplFrame s _).trans (followSrc_uplFrame _))
    (((setUpl_uplFrame s _).trans (followSrc_uplFrame _)).trans (raise_evtOnly _ _ _ _).uplFrame)

theorem unassign_uplFrame (s : State) : UplFrame s (unassign s) :=
  .ite rfl ((setUpl_uplFrame s _).trans (setGate_uplFrame _ _))

theorem countXgem_uplFrame (s : State) : UplFrame s (countXgem s) := (setUpl_uplFrame s _).trans (raiseC_evtOnly _ _ _ _).uplFrame

theorem xgtcOp_uplFrame (s : State) (cw : List (List Byte)) : UplFrame s (xgtcOp s cw) := by
  have h : UplFrame s (raiseC (setUpl s (fun u => { u with fecUncorr := u.fecUncorr + (decodeDown cw).2, xgemSkip := false }))
      Src.fecUncorr 0xFE (decodeDown cw).2) := (setUpl_uplFrame s _).trans (raiseC_evtOnly _ _ _ _).uplFrame
  exact .ite ((h.trans (setUpl_uplFrame _ _)).trans (countXgem_uplFrame _)) h

/-! ### The uplink's new value -/

/-- OPT_TX_DISABLE as the gate, the module and the domain set it. -/
def Upl.driven (u : Upl) (on : Bool) : Upl := { u with txDisable := decide (u.gate = .stopped) || u.modAbs || u.rogue || !on }

theorem driveTx_upl (s : State) : (driveTx s).upl = s.upl.driven s.pwr.domUpl := rfl

theorem setGate_upl (s : State) (g : GateSt) : (setGate s g).upl = ({ s.upl with gate := g } : Upl).driven s.pwr.domUpl := by
  unfold setGate
  split
  next h =>
    subst h
    rw [followSrc_upl]
    rfl
  · rw [raise_upl, followSrc_upl]
    rfl

/-- The uplink once LODS is declared. -/
def Upl.lost (u : Upl) : Upl := { u with sync := .hunt, misses := 0, missing := true, lods := true }

theorem declareLods_upl (s : State) : (declareLods s).upl = s.upl.lost := by
  unfold declareLods
  split
  · exact followSrc_upl _
  · rw [raise_upl]
    exact followSrc_upl _

/-- Outside SYNC the datum does not follow the downstream. -/
theorem followSrc_src {s : State} (h : inSync s = false) : (followSrc s).time.src ≠ .locked := by
  unfold followSrc
  rw [if_neg (by simp [h])]
  split
  · nofun
  · assumption

theorem declareLods_src (s : State) : (declareLods s).time.src ≠ .locked := by
  have h : (followSrc (setUpl s (fun u => { u with sync := .hunt, misses := 0, missing := true, lods := true }))).time.src ≠ .locked :=
    followSrc_src (by simp [inSync, setUpl])
  unfold declareLods
  split
  · exact h
  · rw [raise_time]
    exact h

theorem takeEqd_upl_eq (s : State) : (takeEqd s).upl = { s.upl with eqd := (takeEqd s).upl.eqd, eqdNext := (takeEqd s).upl.eqdNext } := by
  unfold takeEqd
  split
  · rfl
  · split <;> rfl

theorem takeEqd_of_started {s : State} {e u : Int} (h : s.upl.eqdNext = some (e, u)) (hu : u ≤ s.datum) :
    (takeEqd s).upl.eqd = e ∧ (takeEqd s).upl.eqdNext = none := by
  unfold takeEqd
  rw [h]
  dsimp only
  rw [if_pos hu]
  exact ⟨rfl, rfl⟩

theorem takeEqd_of_ahead {s : State} {e u : Int} (h : s.upl.eqdNext = some (e, u)) (hu : (s.datum : Int) < u) : takeEqd s = s := by
  unfold takeEqd
  rw [h]
  dsimp only
  rw [if_neg (by omega)]

theorem clearIds_allocs (u : Upl) (i : Nat) : vget (clearIds u).allocs i none = none := by
  by_cases h : i < 32
  · exact vget_replicate _ _ _ h
  · exact vget_past _ _ _ h

theorem unassign_upl {s : State} (h : s.upl.gate ≠ .stopped) :
    (unassign s).upl = ({ clearIds s.upl with gate := .notAssigned } : Upl).driven s.pwr.domUpl := by
  unfold unassign
  rw [if_neg h]
  exact setGate_upl _ _

/-! ### A PSBd -/

theorem decodeDown_bad (cw : List (List Byte)) : (decodeDown cw).2 = cw.countP (fun w => (rsDecode 32 w).isNone) := by
  show (cw.map (fun w => (w, rsDecode 32 w))).countP (fun x => x.2.isNone) = _
  rw [List.countP_map]
  rfl

/-- The XGTC header of the frame cannot be corrected (R108). -/
def xgtcLost (cw : List (List Byte)) : Bool := decide (4 ≤ (decodeDown cw).1.length) && (hecField 19 (beAt (decodeDown cw).1 0 4)).isNone

theorem xgtcOp_upl (s : State) (cw : List (List Byte)) : (xgtcOp s cw).upl =
    { s.upl with fecUncorr := s.upl.fecUncorr + (decodeDown cw).2, xgemSkip := xgtcLost cw,
                 xgemDisc := s.upl.xgemDisc + (if xgtcLost cw then 1 else 0) } := by
  show (if xgtcLost cw = true then _ else _ : State).upl = _
  cases xgtcLost cw with
  | true =>
    rw [if_pos rfl, countXgem_upl]
    simp only [setUpl, raiseC_upl]
    rfl
  | false =>
    rw [if_neg (by simp), raiseC_upl]
    rfl

/-- The uplink at a PSBd, before the EqD in force is looked at. -/
def Upl.matched (u : Upl) (k : BitVec 51) (d : Nat) : Upl := { syncMatch u with superframe := k, tds := d }

theorem psbdFound_upl (s : State) (k : BitVec 51) : (psbdFound s k).upl = (takeEqd (setUpl s (fun u => u.matched k s.datum))).upl :=
  followSrc_upl _

theorem syncMatch_eqdNext (u : Upl) : (syncMatch u).eqdNext = u.eqdNext ∧ (syncMatch u).eqd = u.eqd := by
  unfold syncMatch
  split <;> exact ⟨rfl, rfl⟩

theorem psbdFound_upl_eq (s : State) (k : BitVec 51) : (psbdFound s k).upl =
    { s.upl.matched k s.datum with eqd := (psbdFound s k).upl.eqd, eqdNext := (psbdFound s k).upl.eqdNext } := by
  rw [psbdFound_upl]
  exact takeEqd_upl_eq _

theorem psbdFound_eqd {s : State} (k : BitVec 51) {e u : Int} (h : s.upl.eqdNext = some (e, u)) :
    (u ≤ s.datum → (psbdFound s k).upl.eqd = e ∧ (psbdFound s k).upl.eqdNext = none) ∧
    ((s.datum : Int) < u → (psbdFound s k).upl.eqd = s.upl.eqd ∧ (psbdFound s k).upl.eqdNext = some (e, u)) := by
  obtain ⟨hnext, heqd⟩ := syncMatch_eqdNext s.upl
  have h' : (setUpl s (fun u => u.matched k s.datum)).upl.eqdNext = some (e, u) := hnext.trans h
  rw [psbdFound_upl]
  refine ⟨fun hu => takeEqd_of_started h' hu, fun hu => ?_⟩
  rw [takeEqd_of_ahead h' hu]
  exact ⟨heqd, h'⟩

theorem psbdFound_uplFrame (s : State) (k : BitVec 51) : UplFrame s (psbdFound s k) :=
  (setUpl_uplFrame s _).trans ((takeEqd_uplFrame _).trans (followSrc_uplFrame _))

theorem loadLate_timeFrame (s : State) : TimeFrame s (loadLate s) := (timeFrame_time s _).trans (raise_evtOnly _ _ _ _).timeFrame

theorem applyLoad_timeFrame (s : State) (k : BitVec 51) (p : Bool) : TimeFrame s (applyLoad s k p) := by
  rw [applyLoad_eq]
  exact (timeFrame_time s _).trans (applyOffset_frame _ _ _)

theorem timePsbd_timeFrame (s : State) (k : BitVec 51) (b : Bool) : TimeFrame s (timePsbd s k b) := by
  unfold timePsbd
  extract_lets low s1
  have h1 : TimeFrame s s1 := by
    unfold s1
    split
    · split
      · exact applyLoad_timeFrame s k false
      · split
        · exact loadLate_timeFrame s
        · rfl
    · rfl
  split
  · dsimp only
    split
    · exact (h1.trans (timeFrame_time s1 _)).trans (compareErr_frame _ _ _)
    · exact h1
  · exact h1

/-- What a PSBd may change. -/
def PsbdFrame (s t : State) : Prop :=
  t = { s with datum := t.datum, time := t.time, hif := t.hif, upl := t.upl, rad := t.rad, evt := t.evt, sent := t.sent }

theorem UplFrame.psbd {s t u : State} (h : UplFrame s t) (h' : TimeFrame t u) : PsbdFrame s u := by
  unfold UplFrame at h
  unfold TimeFrame at h'
  unfold PsbdFrame
  rw [h', h]

theorem TimeFrame.upl {s t : State} (h : TimeFrame s t) : t.upl = s.upl := by
  rw [h]

/-- A PSBd in HUNT is only found; in PRESYNC and SYNC its codewords are decoded too. -/
theorem psbdOp_hunt {s : State} (hl : rxLive s = true) (h : s.upl.sync = .hunt) (k : BitVec 51) (cw : List (List Byte)) :
    PsbdFrame s (psbdOp s k cw) ∧ (psbdOp s k cw).upl = (psbdFound s k).upl := by
  have hs : (psbdFound s k).upl.sync = .presync := by
    rw [psbdFound_upl_eq]
    show (syncMatch s.upl).sync = .presync
    unfold syncMatch
    rw [h]
  rw [psbdOp_live hl, hs]
  have ht := timePsbd_timeFrame (psbdFound s k) k false
  exact ⟨(psbdFound_uplFrame s k).psbd ht, ht.upl⟩

theorem psbdOp_synced {s : State} (hl : rxLive s = true) (h : s.upl.sync ≠ .hunt) (k : BitVec 51) (cw : List (List Byte)) :
    PsbdFrame s (psbdOp s k cw) ∧ (psbdOp s k cw).upl = (xgtcOp (psbdFound s k) cw).upl := by
  rw [psbdOp_live hl, psbdFound_sync h]
  have ht := timePsbd_timeFrame (xgtcOp (psbdFound s k) cw) k true
  exact ⟨((psbdFound_uplFrame s k).trans (xgtcOp_uplFrame _ cw)).psbd ht, ht.upl⟩

theorem syncMatch_synced {u : Upl} (h : u.sync ≠ .hunt) : syncMatch u = { u with sync := .sync, misses := 0, missing := false, lods := false } := by
  unfold syncMatch
  split
  next hs => exact absurd hs h
  · rfl

theorem psbdReceived_spec (s : State) (hi : BitVec 19) (lo : Word) (k : BitVec 51) (cw : List (List Byte)) (hk : k = hi ++ lo)
    (hl : rxLive s = true) : ∃ t, exec (.psbdReceived hi lo cw) s = .next t ∧
      t = { s with datum := t.datum, time := t.time, hif := t.hif, upl := t.upl, rad := t.rad, evt := t.evt, sent := t.sent } ∧
      t.upl.superframe = k ∧ t.upl.tds = s.datum ∧
      (∀ e u, s.upl.eqdNext = some (e, u) →
        (u ≤ s.datum → t.upl.eqd = e ∧ t.upl.eqdNext = none) ∧
        ((s.datum : Int) < u → t.upl.eqd = s.upl.eqd ∧ t.upl.eqdNext = some (e, u))) ∧
      (s.upl.sync = .hunt → t.upl.sync = .presync ∧ t.upl.fecUncorr = s.upl.fecUncorr) ∧
      (s.upl.sync ≠ .hunt → t.upl.sync = .sync ∧ t.upl.misses = 0 ∧ t.upl.lods = false ∧ t.upl.missing = false ∧
        t.upl.fecUncorr = s.upl.fecUncorr + cw.countP (fun w => (rsDecode 32 w).isNone) ∧
        t.upl.xgemSkip = (decide (4 ≤ (decodeDown cw).1.length) && (hecField 19 (beAt (decodeDown cw).1 0 4)).isNone) ∧
        t.upl.xgemDisc = s.upl.xgemDisc + (if t.upl.xgemSkip then 1 else 0)) := by
  subst hk
  refine ⟨psbdOp s (hi ++ lo) cw, rfl, ?_⟩
  by_cases h : s.upl.sync = .hunt
  · obtain ⟨hf, hu⟩ := psbdOp_hunt hl h (hi ++ lo) cw
    have hm : syncMatch s.upl = { s.upl with sync := .presync } := by
      unfold syncMatch
      rw [h]
    refine ⟨hf, ?_, ?_, fun e u he => ?_, fun _ => ⟨?_, ?_⟩, fun hne => absurd h hne⟩
    · rw [hu, psbdFound_upl_eq]
      rfl
    · rw [hu, psbdFound_upl_eq]
      rfl
    · rw [hu]
      exact psbdFound_eqd _ he
    · rw [hu, psbdFound_upl_eq, Upl.matched, hm]
    · rw [hu, psbdFound_upl_eq, Upl.matched, hm]
  · obtain ⟨hf, hu⟩ := psbdOp_synced hl h (hi ++ lo) cw
    rw [xgtcOp_upl, psbdFound_upl_eq, Upl.matched, syncMatch_synced h, decodeDown_bad] at hu
    refine ⟨hf, ?_, ?_, fun e u he => ?_, fun hs => absurd hs h, fun _ => ⟨?_, ?_, ?_, ?_, ?_, ?_, ?_⟩⟩
    · rw [hu]
    · rw [hu]
    · rw [hu]
      exact psbdFound_eqd _ he
    all_goals rw [hu]
    all_goals rfl

/-! ### A missed PSBd, loss of light and TO2 -/

theorem psyncExpectedMiss_spec {s : State} (hl : rxLive s = true) : ∃ t, exec .psyncExpectedMiss s = .next t ∧
    t = { s with time := t.time, hif := t.hif, upl := t.upl, evt := t.evt, sent := t.sent } ∧
    (s.upl.sync = .hunt → t = s) ∧ (s.upl.sync = .presync → t = { s with upl := { s.upl with sync := .hunt } }) ∧
    (s.upl.sync = .sync → s.upl.misses < 2 →
      t = { s with upl := { s.upl with misses := s.upl.misses + 1, missing := true } }) ∧
    (s.upl.sync = .sync → 2 ≤ s.upl.misses → t.upl.sync = .hunt ∧ t.upl.lods = true ∧ t.time.src ≠ .locked) := by
  refine ⟨psyncMissOp s, rfl, ?_⟩
  unfold psyncMissOp
  rw [hl, Bool.not_true, if_neg (by simp)]
  cases hs : s.upl.sync with
  | hunt => exact ⟨rfl, fun _ => rfl, nofun, nofun, nofun⟩
  | presync => exact ⟨rfl, nofun, fun _ => rfl, nofun, nofun⟩
  | sync =>
    dsimp only
    by_cases h : 3 ≤ s.upl.misses + 1
    · rw [if_pos h]
      refine ⟨declareLods_uplFrame s, nofun, nofun, fun _ h2 => by omega, fun _ _ => ⟨?_, ?_, declareLods_src s⟩⟩
      · rw [declareLods_upl]
        rfl
      · rw [declareLods_upl]
        rfl
    · rw [if_neg h]
      exact ⟨rfl, nofun, nofun, fun _ _ => rfl, fun _ h2 => absurd h2 (by omega)⟩

theorem optRxLosChange_spec (s : State) (level : Bool) : ∃ t, exec (.optRxLosChange level) s = .next t ∧ t.upl.rxLos = level ∧
    t.upl.gate = s.upl.gate ∧ t = { s with time := t.time, hif := t.hif, upl := t.upl, evt := t.evt, sent := t.sent } ∧
    (level = true → s.pwr.domUpl = true → t.upl.lods = true ∧ t.upl.sync = .hunt) ∧
    (level = false → t = { s with upl := { s.upl with rxLos := false } }) := by
  by_cases h : level = true ∧ s.pwr.domUpl = true
  · obtain ⟨rfl, hd⟩ := h
    have hu := declareLods_upl (setUpl s (fun u => { u with rxLos := true }))
    refine ⟨declareLods (setUpl s (fun u => { u with rxLos := true })), ?_, ?_, ?_, ?_, fun _ _ => ⟨?_, ?_⟩, nofun⟩
    · show Host.Outcome.next (if true && s.pwr.domUpl then _ else _) = _
      rw [hd]
      rfl
    · rw [hu]
      rfl
    · rw [hu]
      rfl
    · exact (setUpl_uplFrame s _).trans (declareLods_uplFrame _)
    · rw [hu]
      rfl
    · rw [hu]
      rfl
  · refine ⟨setUpl s (fun u => { u with rxLos := level }), ?_, rfl, rfl, rfl, fun hl hd => absurd ⟨hl, hd⟩ h, ?_⟩
    · show Host.Outcome.next (if level && s.pwr.domUpl then _ else _) = _
      rw [if_neg (by simpa using h)]
    · rintro rfl
      rfl

theorem lodsTo2Expiry_spec (s : State) : ∃ t, exec .lodsTo2Expiry s = .next t ∧
    t = { s with time := t.time, hif := t.hif, upl := t.upl, evt := t.evt, sent := t.sent } ∧
    (s.upl.lods = false ∨ s.upl.gate = .stopped → t = s) ∧
    (s.upl.lods = true → s.upl.gate ≠ .stopped →
      t.upl.gate = .notAssigned ∧ t.upl.onuId = 0x3FF ∧ t.upl.eqd = 0 ∧ t.upl.lods = true ∧ ∀ i, vget t.upl.allocs i none = none) := by
  by_cases h : s.upl.lods = true ∧ s.upl.gate ≠ .stopped
  · obtain ⟨hl, hg⟩ := h
    refine ⟨unassign s, ?_, unassign_uplFrame s, fun hn => ?_, fun _ _ => ?_⟩
    · show Host.Outcome.next (if s.upl.lods && decide (s.upl.gate ≠ .stopped) then _ else _) = _
      rw [if_pos (by simp [hl, hg])]
    · exact absurd hn (by simp [hl, hg])
    · rw [unassign_upl hg]
      exact ⟨rfl, rfl, rfl, hl, clearIds_allocs s.upl⟩
  · refine ⟨s, ?_, rfl, fun _ => rfl, fun hl hg => absurd ⟨hl, hg⟩ h⟩
    show Host.Outcome.next (if s.upl.lods && decide (s.upl.gate ≠ .stopped) then _ else _) = _
    rw [if_neg (by simpa using h)]

/-- Settles O20: a PSBd matches and is decoded in SYNC, and misses, loss of light and TO2 move the synchronisation and the gate. -/
theorem uplinkSynchronisation : Obligations.UplinkSynchronisation :=
  fun s => ⟨fun hi lo k cw hk hl => psbdReceived_spec s hi lo k cw hk hl, psyncExpectedMiss_spec, optRxLosChange_spec s, lodsTo2Expiry_spec s⟩

end Sys2Proof.Machine


/-! # Downstream PLOAM messages (O21)

A message is discarded, counted for its integrity check, or accepted: then it is sent to firmware and acts. What it does to
the gate is read off the uplink's value (`setGate_upl`, `unassign_upl`). -/

namespace Sys2Proof.Machine

open Sys2Proof

/-! ### Accepted or not -/

/-- The message names this unit or every unit. -/
def ploamForUs (s : State) (m : Ploam) : Prop := ploamOnu m = s.upl.onuId ∨ ploamOnu m = 0x3FF

theorem ploam_of_unread {s : State} {m : Ploam} (h : inSync s = false ∨ (ploamOnu m ≠ s.upl.onuId ∧ ploamOnu m ≠ 0x3FF)) (f : State → State) :
    ploam s m f = s := by
  unfold ploam
  by_cases hs : inSync s = true
  · rw [if_neg (by simp [hs]), if_pos (h.resolve_left (by simp [hs]))]
  · rw [if_pos (by simpa using hs)]

theorem ploam_of_bad {s : State} {m : Ploam} (hs : inSync s = true) (ha : ploamForUs s m) (hm : micGood s m = false) (f : State → State) :
    ploam s m f = micFail s := by
  unfold ploam ploamForUs at *
  rw [if_neg (by simp [hs]), if_neg (by tauto), if_pos (by simp [hm])]

theorem ploam_of_good {s : State} {m : Ploam} (hs : inSync s = true) (ha : ploamForUs s m) (hm : micGood s m = true) (f : State → State) :
    ploam s m f = f (emitOut s (.toFirmware m)) := by
  unfold ploam ploamForUs at *
  rw [if_neg (by simp [hs]), if_neg (by tauto), if_neg (by simp [hm])]

theorem micFail_counts (s : State) : (micFail s).upl = { s.upl with micFails := s.upl.micFails + 1 } ∧
    micFail s = { s with upl := (micFail s).upl, hif := (micFail s).hif, evt := (micFail s).evt, sent := (micFail s).sent } := by
  have h := raiseC_evtOnly (setUpl s (fun u => { u with micFails := u.micFails + 1 })) Src.ploamMicFail 0xFE 1
  refine ⟨by simp [micFail, setUpl], ?_⟩
  unfold micFail
  rw [h.frame]
  rfl

/-! ### What was sent stays sent -/

theorem sent_ite {c : Prop} [Decidable c] {s t u : State} (h : s.sent <:+ t.sent) (h' : s.sent <:+ u.sent) : s.sent <:+ (if c then t else u).sent := by
  split <;> assumption

theorem followSrc_sent_eq (s : State) : (followSrc s).sent = s.sent := by
  unfold followSrc
  split
  · rfl
  · split <;> rfl

theorem setGate_sent (s : State) (g : GateSt) : s.sent <:+ (setGate s g).sent := by
  refine sent_ite ?_ (List.IsSuffix.trans ?_ (raise_sent _ _ _ _))
  · rw [followSrc_sent_eq]
    exact List.suffix_rfl
  · rw [followSrc_sent_eq]
    exact List.suffix_rfl

theorem ponWake_sent (s : State) : s.sent <:+ (ponWake s).sent := by
  have hset : s.sent <:+ (setPwr s .run).sent := by
    unfold setPwr
    dsimp only
    split
    · exact List.suffix_rfl
    · refine List.IsSuffix.trans ?_ (raise_sent _ _ _ _)
      exact List.suffix_rfl
  exact sent_ite (c := s.upl.ponMode = .watchful) (sent_ite (c := s.pwr.state = .sleep) hset List.suffix_rfl) List.suffix_rfl

theorem unassign_sent (s : State) : s.sent <:+ (unassign s).sent :=
  sent_ite List.suffix_rfl (setGate_sent (setUpl s clearIds) _)

theorem stopGate_sent (s : State) : s.sent <:+ (stopGate s).sent := setGate_sent (setUpl s _) _

theorem assignOnu_sent (s : State) (id : BitVec 10) : s.sent <:+ (assignOnu s id).sent := setGate_sent (setUpl s _) _

theorem takeEqd_sent (s : State) : (takeEqd s).sent = s.sent := by
  unfold takeEqd
  split
  · rfl
  · split <;> rfl

theorem rangeOp_sent (s : State) (a : Bool) (d : Int) : s.sent <:+ (rangeOp s a d).sent := by
  rw [← takeEqd_sent s]
  exact sent_ite (setGate_sent (setUpl (takeEqd s) _) _) List.suffix_rfl

theorem allocOp_sent (s : State) (id : BitVec 14) (add : Bool) : s.sent <:+ (allocOp s id add).sent := by
  refine sent_ite List.suffix_rfl ?_
  split
  · exact List.suffix_rfl
  · exact List.suffix_rfl
  · exact raiseC_sent (setUpl s _) _ _ _
  · exact sent_ite List.suffix_rfl List.suffix_rfl
  · exact List.suffix_rfl

theorem disableOp_sent (s : State) (o : SnOrder) (hi lo : Word) : s.sent <:+ (disableOp s o hi lo).sent := by
  have leave : s.sent <:+ (if s.upl.gate = .stopped then setGate (setUpl s (fun u => { u with emstop := false })) .notAssigned else s).sent :=
    sent_ite (setGate_sent (setUpl s _) _) List.suffix_rfl
  cases o with
  | disable => exact sent_ite (stopGate_sent (setUpl s _)) List.suffix_rfl
  | enable => exact sent_ite leave List.suffix_rfl
  | enableAll => exact leave

/-- A command is one message, acted on by an operation that takes nothing back from firmware. -/
def PloamActs (s : State) (m : Ploam) (c : Instr) : Prop :=
  ∃ f : State → State, exec c s = .next (ploam s m f) ∧ ∀ t, t.sent <:+ (f t).sent

theorem ploamActs_of_message {s : State} {m : Ploam} {c : Instr}
    (h : c = Instr.deactivateOnuId m ∨ (∃ body check, m = body ++ check ∧ c = .ploamReceived body check) ∨ (∃ i p, c = .burstProfile m i p) ∨
      (∃ i hi lo, c = .assignOnuId m i hi lo) ∨ (∃ a d, c = .rangingTime m a d) ∨ (∃ i a, c = .assignAllocId m i a) ∨
      (∃ o hi lo, c = .disableSerialNumber m o hi lo)) : PloamActs s m c := by
  rcases h with rfl | ⟨body, check, rfl, rfl⟩ | ⟨i, p, rfl⟩ | ⟨i, hi, lo, rfl⟩ | ⟨a, d, rfl⟩ | ⟨i, a, rfl⟩ | ⟨o, hi, lo, rfl⟩
  · exact ⟨_, rfl, unassign_sent⟩
  · exact ⟨_, rfl, fun t => sent_ite (ponWake_sent t) List.suffix_rfl⟩
  · exact ⟨_, rfl, fun t => List.suffix_rfl⟩
  · exact ⟨_, rfl, fun t => sent_ite (assignOnu_sent t i) List.suffix_rfl⟩
  · exact ⟨_, rfl, fun t => rangeOp_sent t a d⟩
  · exact ⟨_, rfl, fun t => allocOp_sent t i a⟩
  · exact ⟨_, rfl, fun t => disableOp_sent t o hi lo⟩

theorem PloamActs.spec {s : State} {m : Ploam} {c : Instr} (h : PloamActs s m c) :
    ((inSync s = false ∨ (ploamOnu m ≠ s.upl.onuId ∧ ploamOnu m ≠ 0x3FF)) → exec c s = .next s) ∧
    (inSync s = true → (ploamOnu m = s.upl.onuId ∨ ploamOnu m = 0x3FF) → micGood s m = false →
      ∃ t, exec c s = .next t ∧ t.upl = { s.upl with micFails := s.upl.micFails + 1 } ∧
        t = { s with upl := t.upl, hif := t.hif, evt := t.evt, sent := t.sent }) ∧
    (inSync s = true → (ploamOnu m = s.upl.onuId ∨ ploamOnu m = 0x3FF) → micGood s m = true →
      ∃ t, exec c s = .next t ∧ Out.toFirmware m ∈ t.sent) := by
  obtain ⟨f, hexec, hsent⟩ := h
  refine ⟨fun hn => ?_, fun hs ha hm => ⟨micFail s, ?_, micFail_counts s⟩, fun hs ha hm => ⟨f (emitOut s (.toFirmware m)), ?_, ?_⟩⟩
  · rw [hexec, ploam_of_unread hn]
  · rw [hexec, ploam_of_bad hs ha hm]
  · rw [hexec, ploam_of_good hs ha hm]
  · exact (hsent _).subset (List.mem_cons_self ..)

/-! ### What each message does

Each lemma is about the state the accepted message has been sent in: the message's own output changes nothing the action
reads. -/

theorem ponWake_upl (s : State) : (ponWake s).upl = { s.upl with ponMode := .awake, rxOn := true } := by
  unfold ponWake
  dsimp only
  split <;> simp

theorem profiles_spec (s : State) (i : Fin 4) (p : BurstProf) : vget (vset s.upl.profiles i.val (some p)) i.val none = some p ∧
    ∀ j, j ≠ i.val → vget (vset s.upl.profiles i.val (some p)) j none = vget s.upl.profiles j none :=
  ⟨vget_vset_self _ _ _ _ i.isLt, fun _ hj => vget_vset_ne _ _ _ _ _ hj⟩

/-- The ports once every entry with a port ID is invalidated. -/
def withoutPort (v : Vector PortEntry 1024) (p : Half) : Vector PortEntry 1024 :=
  vmapIdx (fun _ e => if e.valid && e.port == p then { e with valid := false } else e) v

theorem withoutPort_port {v : Vector PortEntry 1024} {p : Half} {j : Nat} (h : (vget (withoutPort v p) j PortEntry.zero).valid = true) :
    (vget (withoutPort v p) j PortEntry.zero).port ≠ p := by
  unfold withoutPort at h ⊢
  rw [vget_vmapIdx _ _ _ _ PortEntry.zero] at h ⊢
  split at h
  next hlt =>
    rw [if_pos hlt]
    intro hp
    by_cases hc : (vget v j PortEntry.zero).valid && (vget v j PortEntry.zero).port == p
    · rw [if_pos hc] at h
      exact absurd h (by simp)
    · rw [if_neg hc] at h hp
      exact hc (by rw [h, hp, Bool.true_and, beq_self_eq_true])
  · exact absurd h (by decide)

theorem installOmci_ports_eq (u : Upl) (id : BitVec 10) : (installOmci u id).ports = vset (withoutPort u.ports (BitVec.ofNat 16 id.toNat)) 0
    { valid := true, type := 2, encReq := false, flow := 0, port := BitVec.ofNat 16 id.toNat } := rfl

theorem installOmci_ports (u : Upl) (id : BitVec 10) :
    (vget (installOmci u id).ports 0 PortEntry.zero).valid = true ∧
    (vget (installOmci u id).ports 0 PortEntry.zero).port.toNat = id.toNat ∧
    ∀ j, 0 < j → (vget (installOmci u id).ports j PortEntry.zero).valid = true →
      (vget (installOmci u id).ports j PortEntry.zero).port.toNat ≠ id.toNat := by
  have hid : (BitVec.ofNat 16 id.toNat).toNat = id.toNat := by
    rw [BitVec.toNat_ofNat]
    exact Nat.mod_eq_of_lt (by omega)
  rw [installOmci_ports_eq, vget_vset_self _ _ _ _ (by decide)]
  refine ⟨rfl, hid, fun j hj hv hp => ?_⟩
  rw [vget_vset_ne _ _ _ _ _ (by omega)] at hv hp
  exact withoutPort_port hv (BitVec.eq_of_toNat_eq (hp.trans hid.symm))

theorem assignOnu_uplFrame (s : State) (id : BitVec 10) : UplFrame s (assignOnu s id) :=
  (setUpl_uplFrame s _).trans (setGate_uplFrame _ _)

theorem assignOnu_upl (s : State) (id : BitVec 10) :
    (assignOnu s id).upl.onuId = id ∧ (assignOnu s id).upl.gate = .assigned ∧ (assignOnu s id).upl.eqd = 0 ∧ (assignOnu s id).upl.eqdNext = none ∧
    vget (assignOnu s id).upl.allocs 0 none = some (BitVec.ofNat 14 id.toNat) ∧
    (vget (assignOnu s id).upl.ports 0 PortEntry.zero).valid = true ∧ (vget (assignOnu s id).upl.ports 0 PortEntry.zero).port.toNat = id.toNat ∧
    ∀ j, 0 < j → (vget (assignOnu s id).upl.ports j PortEntry.zero).valid = true →
      (vget (assignOnu s id).upl.ports j PortEntry.zero).port.toNat ≠ id.toNat := by
  unfold assignOnu
  rw [setGate_upl]
  exact ⟨rfl, rfl, rfl, rfl, vget_vset_self _ _ _ _ (by decide), installOmci_ports _ id⟩

theorem uplPeriod_pos : (0 : Int) < uplPeriod := by decide

theorem nextUpstream_spec (s : State) : (s.datum : Int) ≤ nextUpstream s ∧ nextUpstream s < s.datum + uplPeriod ∧
    (nextUpstream s - (s.upl.tds + bitTime (frameBits s.upl s.upl.eqd))) % uplPeriod = 0 := by
  unfold nextUpstream
  dsimp only
  generalize (s.upl.tds : Int) + bitTime (frameBits s.upl s.upl.eqd) = b
  have h0 := Int.emod_nonneg (b - s.datum) (Int.ne_of_gt uplPeriod_pos)
  have h1 := Int.emod_lt_of_pos (b - s.datum) uplPeriod_pos
  refine ⟨by omega, by omega, Int.emod_eq_zero_of_dvd ?_⟩
  have hd := (Int.dvd_neg).mpr (Int.dvd_self_sub_emod (x := b - s.datum) (m := uplPeriod))
  rwa [show -(b - (s.datum : Int) - (b - s.datum) % uplPeriod) = s.datum + (b - s.datum) % uplPeriod - b by omega] at hd

/-- In SYNC and RANGED the datum follows the downstream. -/
theorem setGate_ranged_src {s : State} (h : inSync s = true) : (setGate s .ranged).time.src = .locked := by
  have follow (t : State) (hg : t.upl.gate = .ranged) (ht : inSync t = true) : (followSrc t).time.src = .locked := by
    unfold followSrc
    rw [if_pos ⟨hg, ht⟩]
  unfold setGate
  split
  next hg => exact follow _ hg h
  · rw [raise_time]
    exact follow _ rfl h

theorem takeEqd_inSync (s : State) : inSync (takeEqd s) = inSync s := by
  unfold takeEqd
  split
  · rfl
  · split <;> rfl

theorem takeEqd_gate (s : State) : (takeEqd s).upl.gate = s.upl.gate ∧ (takeEqd s).upl.usRate = s.upl.usRate := by
  rw [takeEqd_upl_eq]
  exact ⟨rfl, rfl⟩

theorem takeEqd_of_none {s : State} (h : s.upl.eqdNext = none) : takeEqd s = s := by
  unfold takeEqd
  rw [h]

theorem rateK_cast (u : Upl) : ((rateK u : Nat) : Int) = if u.usRate = 1 then 4 else 1 := by
  unfold rateK
  split <;> rfl

/-- The EqD a Ranging_Time adds its delay to. -/
def rangeBase (u : Upl) (absolute : Bool) : Int := if absolute then 0 else match u.eqdNext with | some (e, _) => e | none => u.eqd

theorem rangeOp_uplFrame (s : State) (a : Bool) (d : Int) : UplFrame s (rangeOp s a d) :=
  (takeEqd_uplFrame s).trans (.ite ((setUpl_uplFrame _ _).trans (setGate_uplFrame _ _)) (.refl _))

theorem rangeOp_ranges {s : State} (h : s.upl.gate = .assigned ∨ s.upl.gate = .ranged) (a : Bool) (d : Int) :
    rangeOp s a d = setGate (setUpl (takeEqd s) (fun u => { u with
      eqdNext := some (rangeBase (takeEqd s).upl a + (rateK u : Int) * d, nextUpstream (takeEqd s)) })) .ranged := by
  rw [← (takeEqd_gate s).1] at h
  exact if_pos h

theorem rangeOp_ignores {s : State} (h : s.upl.gate = .notAssigned ∨ s.upl.gate = .stopped) (a : Bool) (d : Int) : rangeOp s a d = takeEqd s := by
  refine if_neg fun h' => ?_
  rw [(takeEqd_gate s).1] at h'
  rcases h with h | h <;> simp [h] at h'

theorem rangeOp_spec {s : State} (hs : inSync s = true) (a : Bool) (d : Int) :
    (rangeOp s a d).upl.eqd = (takeEqd s).upl.eqd ∧
    (s.upl.gate = .assigned ∨ s.upl.gate = .ranged → (rangeOp s a d).upl.gate = .ranged ∧ (rangeOp s a d).time.src = .locked ∧
      (a = true → (rangeOp s a d).upl.eqdNext = some ((if s.upl.usRate = 1 then 4 else 1) * d, nextUpstream (takeEqd s))) ∧
      (a = false → s.upl.eqdNext = none →
        (rangeOp s a d).upl.eqdNext = some (s.upl.eqd + (if s.upl.usRate = 1 then 4 else 1) * d, nextUpstream s))) := by
  by_cases hg : s.upl.gate = .assigned ∨ s.upl.gate = .ranged
  · rw [rangeOp_ranges hg]
    refine ⟨by rw [setGate_upl]; rfl, fun _ => ⟨by rw [setGate_upl]; rfl, setGate_ranged_src ((takeEqd_inSync s).trans hs), fun ha => ?_, fun ha hn => ?_⟩⟩
    · subst ha
      rw [setGate_upl]
      show some ((0 : Int) + (rateK (takeEqd s).upl : Int) * d, nextUpstream (takeEqd s)) = _
      rw [rateK_cast, (takeEqd_gate s).2, Int.zero_add]
    · subst ha
      rw [takeEqd_of_none hn, setGate_upl]
      have hb : rangeBase s.upl false = s.upl.eqd := by
        unfold rangeBase
        rw [hn]
        rfl
      show some (rangeBase s.upl false + (rateK s.upl : Int) * d, nextUpstream s) = _
      rw [rateK_cast, hb]
  · refine ⟨?_, fun h => absurd h hg⟩
    show (if (takeEqd s).upl.gate = .assigned ∨ (takeEqd s).upl.gate = .ranged then _ else _ : State).upl.eqd = _
    rw [(takeEqd_gate s).1, if_neg hg]

/-! ### Alloc-IDs -/

theorem lt_of_find_range {n : Nat} {p : Nat → Bool} {i : Nat} (h : (List.range n).find? p = some i) : i < n :=
  List.mem_range.mp (List.mem_of_find?_eq_some h)

theorem allocOp_live {s : State} (hg : s.upl.gate = .assigned ∨ s.upl.gate = .ranged) : ¬(s.upl.gate ≠ .assigned ∧ s.upl.gate ≠ .ranged) := by
  tauto

theorem allocOp_add {s : State} (hg : s.upl.gate = .assigned ∨ s.upl.gate = .ranged) (id : BitVec 14) :
    allocOp s id true = { s with hif := (allocOp s id true).hif, upl := (allocOp s id true).upl, evt := (allocOp s id true).evt,
                                 sent := (allocOp s id true).sent } ∧
    ((slotOf s.upl id).isSome = true → allocOp s id true = s) ∧
    (∀ i, slotOf s.upl id = none → freeSlot s.upl = some i → vget (allocOp s id true).upl.allocs i none = some id) ∧
    (slotOf s.upl id = none → freeSlot s.upl = none → (allocOp s id true).upl = { s.upl with allocOver := s.upl.allocOver + 1 }) := by
  unfold allocOp
  rw [if_neg (allocOp_live hg)]
  cases slotOf s.upl id with
  | some i => exact ⟨rfl, fun _ => rfl, nofun, nofun⟩
  | none =>
    cases hf : freeSlot s.upl with
    | some i =>
      refine ⟨rfl, nofun, fun j _ hj => ?_, nofun⟩
      cases hj
      exact vget_vset_self _ _ _ _ (lt_of_find_range hf)
    | none =>
      have h := raiseC_evtOnly (setUpl s (fun u => { u with allocOver := u.allocOver + 1 })) Src.uplAllocOverflow 0xFF 1
      refine ⟨?_, nofun, nofun, fun _ _ => by simp [setUpl]⟩
      dsimp only
      rw [h.frame]
      rfl

theorem allocOp_remove {s : State} (hg : s.upl.gate = .assigned ∨ s.upl.gate = .ranged) (id : BitVec 14) :
    allocOp s id false = { s with upl := { s.upl with allocs := (allocOp s id false).upl.allocs } } ∧
    (∀ i, slotOf s.upl id = some i → 0 < i → vget (allocOp s id false).upl.allocs i none = none) ∧
    (slotOf s.upl id = some 0 → (allocOp s id false).upl.allocs = s.upl.allocs) := by
  unfold allocOp
  rw [if_neg (allocOp_live hg)]
  cases hs : slotOf s.upl id with
  | none => exact ⟨rfl, nofun, nofun⟩
  | some i =>
    dsimp only
    by_cases h0 : i = 0
    · rw [if_pos h0]
      refine ⟨rfl, fun j hj hpos => ?_, fun _ => rfl⟩
      cases hj
      omega
    · rw [if_neg h0]
      refine ⟨rfl, fun j hj _ => ?_, fun hj => ?_⟩
      · cases hj
        exact vget_vset_self _ _ _ _ (lt_of_find_range hs)
      · cases hj
        exact absurd rfl h0

/-! ### Leaving the assigned states, and the serial number's order -/

theorem unassign_clears (s : State) : (unassign s).upl.gate = (if s.upl.gate = .stopped then .stopped else .notAssigned) ∧
    (unassign s).upl.onuId = 0x3FF ∧ (unassign s).upl.eqd = 0 ∧ ∀ i, vget (unassign s).upl.allocs i none = none := by
  by_cases hg : s.upl.gate = .stopped
  · rw [if_pos hg]
    unfold unassign
    rw [if_pos hg]
    exact ⟨hg, rfl, rfl, clearIds_allocs s.upl⟩
  · rw [if_neg hg, unassign_upl hg]
    exact ⟨rfl, rfl, rfl, clearIds_allocs s.upl⟩

theorem stopGate_uplFrame (s : State) : UplFrame s (stopGate s) := (setUpl_uplFrame s _).trans (setGate_uplFrame _ _)

theorem stopGate_upl (s : State) : (stopGate s).upl = { s.upl with gate := .stopped, emstop := true, txDisable := true } := by
  unfold stopGate
  rw [setGate_upl]
  simp [setUpl, Upl.driven]

theorem snMatch_self (s : State) : snMatch s s.upl.snHi s.upl.snLo = true := by simp [snMatch]

theorem snMatch_ne {s : State} {hi lo : Word} (h : hi ≠ s.upl.snHi ∨ lo ≠ s.upl.snLo) : snMatch s hi lo = false := by
  unfold snMatch
  rcases h with h | h <;> simp [h]

/-- A Disable_Serial_Number's enable lets the gate leave STOPPED. -/
def leaveStopped (s : State) : State :=
  if s.upl.gate = .stopped then setGate (setUpl s (fun u => { u with emstop := false })) .notAssigned else s

theorem leaveStopped_uplFrame (s : State) : UplFrame s (leaveStopped s) := .ite ((setUpl_uplFrame s _).trans (setGate_uplFrame _ _)) (.refl s)

theorem leaveStopped_upl {s : State} (h : s.upl.gate = .stopped) : (leaveStopped s).upl.gate = .notAssigned ∧ (leaveStopped s).upl.emstop = false := by
  unfold leaveStopped
  rw [if_pos h, setGate_upl]
  exact ⟨rfl, rfl⟩

theorem disableOp_uplFrame (s : State) (o : SnOrder) (hi lo : Word) : UplFrame s (disableOp s o hi lo) := by
  cases o with
  | disable => exact .ite ((setUpl_uplFrame s _).trans (stopGate_uplFrame _)) (.refl s)
  | enable => exact .ite (leaveStopped_uplFrame s) (.refl s)
  | enableAll => exact leaveStopped_uplFrame s

theorem disableOp_disable (s : State) :
    (disableOp s .disable s.upl.snHi s.upl.snLo).upl.gate = .stopped ∧ (disableOp s .disable s.upl.snHi s.upl.snLo).upl.emstop = true ∧
    (disableOp s .disable s.upl.snHi s.upl.snLo).upl.onuId = 0x3FF ∧ (disableOp s .disable s.upl.snHi s.upl.snLo).upl.txDisable = true := by
  have h : disableOp s .disable s.upl.snHi s.upl.snLo = stopGate (setUpl s clearIds) := if_pos (snMatch_self s)
  rw [h, stopGate_upl]
  exact ⟨rfl, rfl, rfl, rfl⟩

theorem disableOp_leaves {s : State} {o : SnOrder} {hi lo : Word} (ho : o ≠ .disable)
    (h : o = .enableAll ∨ (hi = s.upl.snHi ∧ lo = s.upl.snLo)) : disableOp s o hi lo = leaveStopped s := by
  cases o with
  | disable => exact absurd rfl ho
  | enable =>
    obtain ⟨rfl, rfl⟩ := h.resolve_left nofun
    exact if_pos (snMatch_self s)
  | enableAll => rfl

theorem disableOp_ignores {s : State} {o : SnOrder} {hi lo : Word} (ho : o ≠ .enableAll) (h : hi ≠ s.upl.snHi ∨ lo ≠ s.upl.snLo) :
    disableOp s o hi lo = s := by
  cases o with
  | enableAll => exact absurd rfl ho
  | disable => exact if_neg (by simp [snMatch_ne h])
  | enable => exact if_neg (by simp [snMatch_ne h])

/-! ### The accepted messages -/

theorem assignOnuId_accepted (s : State) (m : Ploam) (hs : inSync s = true) (ha : ploamForUs s m) (hm : micGood s m = true) (id : BitVec 10)
    (hi lo : Word) : ∃ t, exec (.assignOnuId m id hi lo) s = .next t ∧
      t = { s with time := t.time, hif := t.hif, upl := t.upl, evt := t.evt, sent := t.sent } ∧
      ((hi ≠ s.upl.snHi ∨ lo ≠ s.upl.snLo ∨ s.upl.gate = .stopped) → t = { s with sent := .toFirmware m :: s.sent }) ∧
      (hi = s.upl.snHi → lo = s.upl.snLo → s.upl.gate ≠ .stopped →
        t.upl.onuId = id ∧ t.upl.gate = .assigned ∧ t.upl.eqd = 0 ∧ t.upl.eqdNext = none ∧
        vget t.upl.allocs 0 none = some (BitVec.ofNat 14 id.toNat) ∧
        (vget t.upl.ports 0 PortEntry.zero).valid = true ∧ (vget t.upl.ports 0 PortEntry.zero).port.toNat = id.toNat ∧
        ∀ j, 0 < j → (vget t.upl.ports j PortEntry.zero).valid = true → (vget t.upl.ports j PortEntry.zero).port.toNat ≠ id.toNat) := by
  have hexec : exec (.assignOnuId m id hi lo) s = .next (if snMatch s hi lo && decide (s.upl.gate ≠ .stopped) then
      assignOnu (emitOut s (.toFirmware m)) id else emitOut s (.toFirmware m)) := congrArg Host.Outcome.next (ploam_of_good hs ha hm _)
  by_cases h : hi = s.upl.snHi ∧ lo = s.upl.snLo ∧ s.upl.gate ≠ .stopped
  · obtain ⟨rfl, rfl, hg⟩ := h
    rw [if_pos (by simp [snMatch_self, hg])] at hexec
    refine ⟨_, hexec, assignOnu_uplFrame _ id, fun hn => ?_, fun _ _ _ => assignOnu_upl _ id⟩
    exact absurd hn (by simp [hg])
  · rw [if_neg (by simpa [snMatch] using h)] at hexec
    exact ⟨_, hexec, rfl, fun _ => rfl, fun h1 h2 h3 => absurd ⟨h1, h2, h3⟩ h⟩

theorem rangingTime_accepted (s : State) (m : Ploam) (hs : inSync s = true) (ha : ploamForUs s m) (hm : micGood s m = true) (absolute : Bool)
    (delay : Int) : ∃ t, exec (.rangingTime m absolute delay) s = .next t ∧
      t = { s with time := t.time, hif := t.hif, upl := t.upl, evt := t.evt, sent := t.sent } ∧ t.upl.eqd = (takeEqd s).upl.eqd ∧
      (s.upl.gate = .assigned ∨ s.upl.gate = .ranged → t.upl.gate = .ranged ∧ t.time.src = .locked ∧
        (absolute = true → t.upl.eqdNext = some ((if s.upl.usRate = 1 then 4 else 1) * delay, nextUpstream (takeEqd s))) ∧
        (absolute = false → s.upl.eqdNext = none →
          t.upl.eqdNext = some (s.upl.eqd + (if s.upl.usRate = 1 then 4 else 1) * delay, nextUpstream s))) ∧
      (s.upl.gate = .notAssigned ∨ s.upl.gate = .stopped → t = { takeEqd s with sent := .toFirmware m :: s.sent }) := by
  have hexec : exec (.rangingTime m absolute delay) s = .next (rangeOp (emitOut s (.toFirmware m)) absolute delay) :=
    congrArg Host.Outcome.next (ploam_of_good hs ha hm _)
  have htake : takeEqd (emitOut s (.toFirmware m)) = { takeEqd s with sent := .toFirmware m :: s.sent } := by
    unfold takeEqd
    show (match s.upl.eqdNext with | none => _ | some (e, t) => _ : State) = _
    cases s.upl.eqdNext with
    | none => rfl
    | some p =>
      dsimp only
      rw [emitOut_datum]
      by_cases h : p.2 ≤ (s.datum : Int)
      · rw [if_pos h, if_pos h]
        rfl
      · rw [if_neg h, if_neg h]
        rfl
  have hspec := rangeOp_spec (s := emitOut s (.toFirmware m)) hs absolute delay
  rw [htake] at hspec
  obtain ⟨heqd, hrange⟩ := hspec
  exact ⟨_, hexec, rangeOp_uplFrame _ absolute delay, heqd, hrange, fun hg => (rangeOp_ignores (s := emitOut s _) hg absolute delay).trans htake⟩

theorem deactivateOnuId_accepted (s : State) (m : Ploam) (hs : inSync s = true) (ha : ploamForUs s m) (hm : micGood s m = true) :
    ∃ t, exec (.deactivateOnuId m) s = .next t ∧
      t = { s with time := t.time, hif := t.hif, upl := t.upl, evt := t.evt, sent := t.sent } ∧
      t.upl.gate = (if s.upl.gate = .stopped then .stopped else .notAssigned) ∧ t.upl.onuId = 0x3FF ∧ t.upl.eqd = 0 ∧
      ∀ i, vget t.upl.allocs i none = none :=
  ⟨_, congrArg Host.Outcome.next (ploam_of_good hs ha hm _), unassign_uplFrame _, unassign_clears (emitOut s (.toFirmware m))⟩

theorem disableSerialNumber_accepted (s : State) (m : Ploam) (hs : inSync s = true) (ha : ploamForUs s m) (hm : micGood s m = true)
    (o : SnOrder) (hi lo : Word) : ∃ t, exec (.disableSerialNumber m o hi lo) s = .next t ∧
      t = { s with time := t.time, hif := t.hif, upl := t.upl, evt := t.evt, sent := t.sent } ∧
      (o = .disable → hi = s.upl.snHi → lo = s.upl.snLo → t.upl.gate = .stopped ∧ t.upl.emstop = true ∧ t.upl.onuId = 0x3FF ∧
        t.upl.txDisable = true) ∧
      (o ≠ .disable → (o = .enableAll ∨ (hi = s.upl.snHi ∧ lo = s.upl.snLo)) → s.upl.gate = .stopped →
        t.upl.gate = .notAssigned ∧ t.upl.emstop = false) ∧
      (o ≠ .enableAll → (hi ≠ s.upl.snHi ∨ lo ≠ s.upl.snLo) → t = { s with sent := .toFirmware m :: s.sent }) := by
  refine ⟨disableOp (emitOut s (.toFirmware m)) o hi lo, congrArg Host.Outcome.next (ploam_of_good hs ha hm _), disableOp_uplFrame _ o hi lo,
    ?_, fun ho h hg => ?_, fun ho h => ?_⟩
  · rintro rfl rfl rfl
    exact disableOp_disable (emitOut s (.toFirmware m))
  · rw [disableOp_leaves (s := emitOut s (.toFirmware m)) ho h]
    exact leaveStopped_upl hg
  · exact disableOp_ignores (s := emitOut s (.toFirmware m)) ho h

/-- Settles O21: a message is discarded, counted, or sent to firmware, and an accepted one moves the gate, the IDs, the profiles and EqD. -/
theorem ploamMessagesActOnTheGate : Obligations.PloamMessagesActOnTheGate := by
  refine ⟨fun s m c hc => (ploamActs_of_message hc).spec, fun s m hs ha hm => ?_⟩
  refine ⟨fun body check hbc => ?_, fun i p => ?_, assignOnuId_accepted s m hs ha hm, rangingTime_accepted s m hs ha hm, nextUpstream_spec s,
    fun id hg => ?_, deactivateOnuId_accepted s m hs ha hm, disableSerialNumber_accepted s m hs ha hm⟩
  · subst hbc
    have hexec : exec (.ploamReceived body check) s = .next (if sleepWithdrawn (body ++ check) then
        ponWake (emitOut s (.toFirmware (body ++ check))) else emitOut s (.toFirmware (body ++ check))) :=
      congrArg Host.Outcome.next (ploam_of_good hs ha hm _)
    refine ⟨fun hw => ?_, fun hw => ⟨ponWake (emitOut s (.toFirmware (body ++ check))), ?_, ponWake_upl _⟩⟩
    · rw [hexec, hw]
      rfl
    · rw [hexec, if_pos hw]
  · exact ⟨_, congrArg Host.Outcome.next (ploam_of_good hs ha hm _), rfl, profiles_spec s i p⟩
  · obtain ⟨hframe, hknown, hfree, hover⟩ := allocOp_add (s := emitOut s (.toFirmware m)) hg id
    obtain ⟨hframe', hslot, hdefault⟩ := allocOp_remove (s := emitOut s (.toFirmware m)) hg id
    exact ⟨_, congrArg Host.Outcome.next (ploam_of_good hs ha hm _), hframe, hknown, hfree, hover,
      _, congrArg Host.Outcome.next (ploam_of_good hs ha hm _), hframe', hslot, hdefault⟩

end Sys2Proof.Machine


/-! # The optical module, light outside a window, and PON power saving (O23)

A window that ends early changes the rings, the journal, the channels and, of the uplink, the T-CONT queues alone
(`TcFrame`); the statement about bursts uses the same layer. -/

namespace Sys2Proof.Machine

open Sys2Proof

/-! ### The work of a burst -/

/-- The rings, the journal, the channels, the T-CONT queues and the events differ. -/
def TcFrame (s t : State) : Prop :=
  t = { s with hif := t.hif, rings := t.rings, journal := t.journal, chans := t.chans, upl := { s.upl with tcont := t.upl.tcont },
               evt := t.evt, sent := t.sent }

theorem TcFrame.refl (s : State) : TcFrame s s := rfl

theorem TcFrame.trans {s t u : State} (h : TcFrame s t) (h' : TcFrame t u) : TcFrame s u := by
  unfold TcFrame at h h' ⊢
  rw [h', h]

theorem TcFrame.ite {c : Prop} [Decidable c] {s t u : State} (h : TcFrame s t) (h' : TcFrame s u) : TcFrame s (if c then t else u) := by
  split <;> assumption

theorem TcFrame.upl {s t : State} (h : TcFrame s t) : t.upl = { s.upl with tcont := t.upl.tcont } := by
  rw [h]

theorem PmFrame.tcFrame {s t : State} (h : PmFrame s t) : TcFrame s t := by
  rw [h]
  rfl

theorem foldl_tcFrame {α : Type} {f : State → α → State} (hf : ∀ s a, TcFrame s (f s a)) (l : List α) (s : State) : TcFrame s (l.foldl f s) := by
  induction l generalizing s with
  | nil => rfl
  | cons a l ih => exact (hf s a).trans (ih _)

theorem PmFrame.refl (s : State) : PmFrame s s := rfl

theorem PmFrame.ite {c : Prop} [Decidable c] {s t u : State} (h : PmFrame s t) (h' : PmFrame s u) : PmFrame s (if c then t else u) := by
  split <;> assumption

theorem sendPause_pmFrame (s : State) (c : Nat) (m : MacSect) (ens q : Nat) : PmFrame s (sendPause s c m ens q) := by
  refine PmFrame.trans ?_ (pmFrame_of_evtOnly (raiseC_evtOnly _ _ _ _))
  exact (setChan_pmFrame s c _).trans (setChan_pmFrame _ c _)

theorem pauseCheck_pmFrame (s : State) (c : Nat) : PmFrame s (pauseCheck s c) := by
  unfold pauseCheck
  split
  · rfl
  next m _ =>
    refine .ite (.refl s) ?_
    refine PmFrame.trans ?_ (setChan_pmFrame _ c _)
    exact PmFrame.trans (.ite (.refl s) (sendPause_pmFrame s c m _ _)) (.ite (.refl _) (sendPause_pmFrame _ c m _ _))

theorem pauseAll_pmFrame (s : State) : PmFrame s (pauseAll s) := foldl_pmFrame _ pauseCheck_pmFrame _ s

theorem tcont_tcFrame (s : State) (v : Vector (List Frame) 64) : TcFrame s { s with upl := { s.upl with tcont := v } } := rfl

theorem mapTcont_tcFrame (s : State) (p : Frame → Frame) : TcFrame s (mapTcont s p) := tcont_tcFrame s _

theorem dropTcont_tcFrame (s : State) (p : Frame → Bool) : TcFrame s (dropTcont s p) := tcont_tcFrame s _

theorem returnWork_tcFrame (s : State) (r : Nat) (q : Word) (st : Status) : TcFrame s (returnWork s r q st) := by
  rw [returnWork, returnWith_frame]
  rfl

theorem emitWork_tcFrame (s : State) (r : RingNo) (q : Word) (o : Outcome) : TcFrame s (emitWork s r q o) := .ite rfl rfl

theorem emitBurstWork_tcFrame (cut : Bool) (s : State) (x : BurstWork) : TcFrame s (emitBurstWork cut s x) := by
  unfold emitBurstWork
  split
  · exact .refl s
  · exact emitWork_tcFrame _ _ _ _

theorem loseSeg_tcFrame (st : Status) (s : State) (g : BurstSeg) : TcFrame s (loseSeg st s g) := by
  unfold loseSeg
  dsimp only
  split
  · exact (dropTcont_tcFrame s _).trans (returnWork_tcFrame _ _ _ _)
  · exact dropTcont_tcFrame s _

/-! ### A window that stops -/

/-- What a window that ends changes. -/
def WinFrame (s t : State) : Prop :=
  t = { s with hif := t.hif, rings := t.rings, journal := t.journal, chans := t.chans, upl := t.upl, evt := t.evt, sent := t.sent } ∧
  t.upl = { s.upl with window := none, burstEn := false, txSd := false, tcont := t.upl.tcont }

/-- The window is gone and the bytes that left are out. -/
def windowGone (s : State) (b : List Byte) : State :=
  emitOut (setUpl s (fun u => { u with window := none, burstEn := false, txSd := false })) (.burst b)

theorem TcFrame.winFrame {s t : State} {b : List Byte} (h : TcFrame (windowGone s b) t) : WinFrame s t := by
  unfold TcFrame at h
  exact ⟨by rw [h]; rfl, by rw [h]; rfl⟩

theorem stopWindow_none {s : State} (h : s.upl.window = none) (reached : Nat) (st : Status) : stopWindow s reached st = s := by
  unfold stopWindow
  rw [h]

theorem stopWindow_some {s : State} {b : Burst} (h : s.upl.window = some b) (reached : Nat) (st : Status) : stopWindow s reached st =
    pauseAll (b.segs.foldl (loseSeg st) ((b.lastOf.filter (fun x => decide (x.endBit ≤ reached))).foldl (emitBurstWork true)
      (windowGone s (sentBytes b reached)))) := by
  unfold stopWindow
  rw [h]
  rfl

theorem stopWindow_winFrame {s : State} {b : Burst} (h : s.upl.window = some b) (reached : Nat) (st : Status) :
    WinFrame s (stopWindow s reached st) := by
  rw [stopWindow_some h]
  exact TcFrame.winFrame (((foldl_tcFrame (emitBurstWork_tcFrame true) _ _).trans (foldl_tcFrame (loseSeg_tcFrame st) _ _)).trans
    (pauseAll_pmFrame _).tcFrame)

/-- What ending any window there is leaves. -/
def StopFrame (s t : State) : Prop :=
  t = { s with time := t.time, hif := t.hif, rings := t.rings, journal := t.journal, chans := t.chans, upl := t.upl, evt := t.evt, sent := t.sent }

theorem StopFrame.trans {s t u : State} (h : StopFrame s t) (h' : StopFrame t u) : StopFrame s u := by
  unfold StopFrame at h h' ⊢
  rw [h', h]

theorem UplFrame.stopFrame {s t : State} (h : UplFrame s t) : StopFrame s t := by
  rw [h]
  rfl

theorem stopWindow_stopFrame (s : State) (reached : Nat) (st : Status) : StopFrame s (stopWindow s reached st) := by
  cases h : s.upl.window with
  | none =>
    rw [stopWindow_none h]
    rfl
  | some b =>
    obtain ⟨hf, _⟩ := stopWindow_winFrame h reached st
    rw [hf]
    rfl

/-- A window that stops leaves the levels that hold the laser, and no window. -/
theorem stopWindow_upl (s : State) (reached : Nat) (st : Status) :
    (stopWindow s reached st).upl.window = none ∧ (stopWindow s reached st).upl.modAbs = s.upl.modAbs := by
  cases h : s.upl.window with
  | none =>
    rw [stopWindow_none h]
    exact ⟨h, rfl⟩
  | some b =>
    obtain ⟨_, hu⟩ := stopWindow_winFrame h reached st
    rw [hu]
    exact ⟨rfl, rfl⟩

/-! ### The module -/

/-- The module's level is taken and its change raised. -/
def modAbsSeen (s : State) (level : Bool) : State :=
  if s.upl.modAbs = level then setUpl s (fun u => { u with modAbs := level })
  else raise (setUpl s (fun u => { u with modAbs := level })) Src.opticsChange 0xFE 0

theorem modAbsSeen_uplFrame (s : State) (level : Bool) : UplFrame s (modAbsSeen s level) :=
  .ite rfl ((setUpl_uplFrame s _).trans (raise_evtOnly _ _ _ _).uplFrame)

theorem modAbsSeen_upl (s : State) (level : Bool) : (modAbsSeen s level).upl = { s.upl with modAbs := level } := by
  unfold modAbsSeen
  split
  · rfl
  · rw [raise_upl]
    rfl

theorem modAbsSeen_work (s : State) (level : Bool) : (modAbsSeen s level).rings = s.rings ∧ (modAbsSeen s level).journal = s.journal := by
  have h := modAbsSeen_uplFrame s level
  rw [h]
  exact ⟨rfl, rfl⟩

/-- No diagnostic is valid. -/
def diagsInvalid (u : Upl) : Upl := { u with diag := vmapIdx (fun _ d => (false, d.2)) u.diag }

theorem modAbsOp_unpowered {s : State} (h : s.pwr.domUpl = false) (level : Bool) :
    modAbsOp s level = setUpl s (fun u => { u with modAbs := level }) := if_pos (by simp [h])

theorem modAbsOp_present {s : State} (h : s.pwr.domUpl = true) : modAbsOp s false = driveTx (modAbsSeen s false) := by
  unfold modAbsOp modAbsSeen
  simp [h]

/-- The window stopped as the module leaves, and the diagnostics invalid. -/
def moduleGone (s : State) : State :=
  setUpl (stopWindow (modAbsSeen s true) (reachedBits (modAbsSeen s true)) .retNoPath) diagsInvalid

theorem modAbsOp_absent {s : State} (h : s.pwr.domUpl = true) : modAbsOp s true = driveTx (declareLods (moduleGone s)) := by
  show (if !s.pwr.domUpl then _ else driveTx (declareLods (moduleGone s)) : State) = _
  rw [if_neg (by simp [h])]

theorem diagsInvalid_diag (u : Upl) (i : Nat) : (vget (diagsInvalid u).diag i (false, 0)).1 = false := by
  show (vget (vmapIdx (fun _ d => (false, d.2)) u.diag) i (false, 0)).1 = false
  rw [vget_vmapIdx _ _ _ _ ((false, 0) : Bool × Half)]
  split <;> rfl

theorem moduleGone_stopFrame (s : State) : StopFrame s (moduleGone s) :=
  ((modAbsSeen_uplFrame s true).stopFrame.trans (stopWindow_stopFrame _ _ _)).trans (setUpl_uplFrame _ _).stopFrame

theorem moduleGone_work {s : State} (h : s.upl.window = none) : (moduleGone s).rings = s.rings ∧ (moduleGone s).journal = s.journal := by
  have hw : (modAbsSeen s true).upl.window = none := by
    rw [modAbsSeen_upl]
    exact h
  unfold moduleGone
  rw [stopWindow_none hw]
  exact modAbsSeen_work s true

/-- With the module gone the uplink has no window, no valid diagnostic and no synchronisation, and the laser is held off. -/
theorem modAbsOp_absent_upl {s : State} (h : s.pwr.domUpl = true) :
    (modAbsOp s true).upl.modAbs = true ∧ (modAbsOp s true).upl.txDisable = true ∧ (modAbsOp s true).upl.lods = true ∧
    (modAbsOp s true).upl.sync = .hunt ∧ (modAbsOp s true).upl.window = none ∧
    ∀ i, (vget (modAbsOp s true).upl.diag i (false, 0)).1 = false := by
  obtain ⟨hwin, habs⟩ := stopWindow_upl (modAbsSeen s true) (reachedBits (modAbsSeen s true)) .retNoPath
  have hlevel : (moduleGone s).upl.modAbs = true := habs.trans (by rw [modAbsSeen_upl])
  rw [modAbsOp_absent h, driveTx_upl, declareLods_upl]
  refine ⟨hlevel, ?_, rfl, rfl, hwin, fun i => diagsInvalid_diag _ i⟩
  show (_ || (moduleGone s).upl.modAbs || _ || _) = true
  rw [hlevel, Bool.or_true, Bool.true_or, Bool.true_or]

theorem optModAbsChange_spec (s : State) (level : Bool) : ∃ t, exec (.optModAbsChange level) s = .next t ∧ t.upl.modAbs = level ∧
    t = { s with time := t.time, hif := t.hif, rings := t.rings, journal := t.journal, chans := t.chans, upl := t.upl, evt := t.evt, sent := t.sent } ∧
    (level = false ∨ s.upl.window = none → t.rings = s.rings ∧ t.journal = s.journal) ∧
    (s.pwr.domUpl = true → level = true → t.upl.txDisable = true ∧ t.upl.lods = true ∧ t.upl.sync = .hunt ∧
      t.upl.window = none ∧ ∀ i, (vget t.upl.diag i (false, 0)).1 = false) := by
  refine ⟨modAbsOp s level, rfl, ?_⟩
  by_cases hd : s.pwr.domUpl = true
  · cases level with
    | true =>
      obtain ⟨habs, hrest⟩ := modAbsOp_absent_upl hd
      refine ⟨habs, ?_, fun hw => ?_, fun _ _ => hrest⟩
      · rw [modAbsOp_absent hd]
        exact ((moduleGone_stopFrame s).trans (declareLods_uplFrame _).stopFrame).trans (driveTx_uplFrame _).stopFrame
      · rw [modAbsOp_absent hd]
        have hf := (declareLods_uplFrame (moduleGone s)).trans (driveTx_uplFrame _)
        rw [hf]
        exact moduleGone_work (hw.resolve_left nofun)
    | false =>
      rw [modAbsOp_present hd]
      refine ⟨?_, ((modAbsSeen_uplFrame s false).trans (driveTx_uplFrame _)).stopFrame, fun _ => modAbsSeen_work s false, fun _ => nofun⟩
      rw [driveTx_upl, modAbsSeen_upl]
      rfl
  · rw [modAbsOp_unpowered (by simpa using hd)]
    exact ⟨rfl, rfl, fun _ => ⟨rfl, rfl⟩, fun h => absurd h hd⟩

/-! ### The diagnostics -/

/-- The diagnostics after a poll. -/
def polledDiag (u : Upl) (vals : Vector (Option Half) 5) : Vector (Bool × Half) 5 :=
  vmapIdx (fun i d => diagOf u.modAbs (vget vals i none) d) u.diag

theorem polledDiag_at (u : Upl) (vals : Vector (Option Half) 5) (i : Nat) (hi : i < 5) :
    (∀ x, vget vals i none = some x → u.modAbs = false → vget (polledDiag u vals) i (false, 0) = (true, x)) ∧
    ((vget vals i none = none ∨ u.modAbs = true) →
      vget (polledDiag u vals) i (false, 0) = (false, (vget u.diag i (false, 0)).2)) := by
  unfold polledDiag
  rw [vget_vmapIdx _ _ _ _ ((false, 0) : Bool × Half), if_pos hi]
  refine ⟨fun x hx ha => ?_, fun h => ?_⟩
  · rw [hx, ha]
    rfl
  · unfold diagOf
    rcases h with h | h
    · rw [h]
    · rw [h]
      split <;> rfl

/-- The state once page A0h and the diagnostics are read. -/
def polled (s : State) (vals : Vector (Option Half) 5) (a0h : Option (List Byte)) : State :=
  setUpl s (fun u => { u with diag := polledDiag u vals, a0h := if u.modAbs then u.a0h else a0h.getD u.a0h })

theorem userWrite_eq (s : State) (w : Option (Byte × List Byte)) : userWrite s w = { s with sent := (userWrite s w).sent } := by
  unfold userWrite
  split
  · split <;> rfl
  · rfl

theorem polled_cpServes (s : State) (vals : Vector (Option Half) 5) (a0h : Option (List Byte)) : cpServes (polled s vals a0h) = cpServes s := rfl

theorem opticsDiagPoll_spec (s : State) (vals : Vector (Option Half) 5) (a0h : Option (List Byte)) (user : Option (Byte × List Byte))
    (hd : s.pwr.domUpl = true) : ∃ t, exec (.opticsDiagPoll ⟨vals, a0h, user⟩) s = .next t ∧
      t = { s with upl := { s.upl with diag := t.upl.diag, a0h := t.upl.a0h }, sent := t.sent } ∧
      (∀ x, a0h = some x → s.upl.modAbs = false → t.upl.a0h = x) ∧ (a0h = none ∨ s.upl.modAbs = true → t.upl.a0h = s.upl.a0h) ∧
      (user = none → t.sent = s.sent) ∧
      (∀ a x, user = some (a, x) → t.sent =
        if cpServes s && !s.upl.modAbs && decide (128 ≤ a.toNat) && decide (a.toNat + x.length ≤ 248) then .i2cWrite a x :: s.sent else s.sent) ∧
      ∀ i, i < 5 → (∀ x, vget vals i none = some x → s.upl.modAbs = false → vget t.upl.diag i (false, 0) = (true, x)) ∧
        ((vget vals i none = none ∨ s.upl.modAbs = true) →
          vget t.upl.diag i (false, 0) = (false, (vget s.upl.diag i (false, 0)).2)) := by
  have hw := userWrite_eq (polled s vals a0h) user
  refine ⟨userWrite (polled s vals a0h) user, ?_, ?_, ?_, ?_, ?_, ?_, ?_⟩
  · exact congrArg Host.Outcome.next (if_pos hd)
  · rw [hw]
    rfl
  · intro x hx ha
    rw [hw]
    show (if s.upl.modAbs = true then s.upl.a0h else a0h.getD s.upl.a0h) = x
    rw [ha, hx]
    rfl
  · intro h
    rw [hw]
    show (if s.upl.modAbs = true then s.upl.a0h else a0h.getD s.upl.a0h) = s.upl.a0h
    rcases h with h | h
    · rw [h]
      exact ite_self _
    · rw [if_pos h]
  · rintro rfl
    rfl
  · rintro a x rfl
    unfold userWrite
    dsimp only
    rw [polled_cpServes]
    show (if (cpServes s && !s.upl.modAbs && _ && _) = true then _ else _ : State).sent = _
    split <;> rfl
  · intro i hi
    rw [hw]
    exact polledDiag_at s.upl vals i hi

/-! ### Light outside a window, and the emergency stop -/

theorem rogueLight_spec (s : State) : ∃ t, exec .rogueLight s = .next t ∧
    t = { s with hif := t.hif, upl := t.upl, evt := t.evt, sent := t.sent } ∧
    ((s.upl.rogueEn = false ∨ s.upl.window.isSome = true) → t = s) ∧
    (s.pwr.domUpl = true → s.upl.rogueEn = true → s.upl.window = none → s.upl.rogue = false →
      t.upl.rogue = true ∧ t.upl.txDisable = true ∧ t.upl.gate = s.upl.gate) := by
  by_cases h : s.pwr.domUpl = true ∧ s.upl.rogueEn = true ∧ s.upl.window = none ∧ s.upl.rogue = false
  · obtain ⟨hd, he, hw, hr⟩ := h
    have hx := raise_evtOnly (driveTx (setUpl s (fun u => { u with rogue := true, txSd := true }))) Src.rogueLight 0xFE 0
    refine ⟨raise (driveTx (setUpl s (fun u => { u with rogue := true, txSd := true }))) Src.rogueLight 0xFE 0, ?_, ?_, ?_, fun _ _ _ _ => ?_⟩
    · exact congrArg Host.Outcome.next (if_pos (by simp [hd, he, hw, hr]))
    · rw [hx.frame]
      rfl
    · intro hn
      exact absurd hn (by simp [he, hw])
    · rw [raise_upl, driveTx_upl]
      exact ⟨rfl, by simp [Upl.driven, setUpl], rfl⟩
  · refine ⟨s, congrArg Host.Outcome.next (if_neg fun hc => h ?_), rfl, fun _ => rfl, fun a b c d => absurd ⟨a, b, c, d⟩ h⟩
    simpa [and_assoc] using hc

theorem rogueClear_pf {s : State} (hd : s.pwr.domUpl = true) (sd : Bool) : ∃ t, exec (.rogueClear ⟨.pf, sd⟩) s = .next t ∧ t = { s with upl := t.upl } ∧
    (sd = true → t.upl = { s.upl with txSd := true }) ∧
    (sd = false → t.upl.rogue = false ∧ t.upl.txSd = false ∧
      t.upl.txDisable = (decide (s.upl.gate = .stopped) || s.upl.modAbs)) := by
  have hexec : exec (.rogueClear ⟨.pf, sd⟩) s = .next (rogueClearOp s sd) := congrArg Host.Outcome.next (if_pos hd)
  cases sd with
  | true => exact ⟨_, hexec, rfl, fun _ => rfl, nofun⟩
  | false =>
    refine ⟨_, hexec, rfl, nofun, fun _ => ⟨rfl, rfl, ?_⟩⟩
    show (decide (s.upl.gate = .stopped) || s.upl.modAbs || false || !s.pwr.domUpl) = _
    rw [hd, Bool.or_false, Bool.not_true, Bool.or_false]

theorem emstopSet_fw {s : State} (hd : s.pwr.domUpl = true) (cp : Fin 2) : ∃ t, exec (.emstopSet (.fw cp)) s = .next t ∧
    t = { s with time := t.time, hif := t.hif, upl := t.upl, evt := t.evt, sent := t.sent } ∧
    t.upl.gate = .stopped ∧ t.upl.emstop = true ∧ t.upl.txDisable = true := by
  refine ⟨stopGate s, congrArg Host.Outcome.next (if_pos hd), stopGate_uplFrame s, ?_⟩
  rw [stopGate_upl]
  exact ⟨rfl, rfl, rfl⟩

theorem i2cStretchTimeout_spec (s : State) (i : Fin 5) : ∃ t, exec (.i2cStretchTimeout i) s = .next t ∧
    t = { s with upl := { s.upl with diag := t.upl.diag } } ∧ (vget t.upl.diag i.val (false, 0)).1 = false ∧
    ∀ j, j ≠ i.val → vget t.upl.diag j (false, 0) = vget s.upl.diag j (false, 0) := by
  refine ⟨_, rfl, rfl, ?_, fun j hj => ?_⟩
  · show (vget (vmapIdx (fun j d => if j = i.val then (false, d.2) else d) s.upl.diag) i.val (false, 0)).1 = false
    rw [vget_vmapIdx _ _ _ _ ((false, 0) : Bool × Half), if_pos i.isLt, if_pos rfl]
  · show vget (vmapIdx (fun j d => if j = i.val then (false, d.2) else d) s.upl.diag) j (false, 0) = _
    rw [vget_vmapIdx _ _ _ _ ((false, 0) : Bool × Half)]
    split
    · rfl
    next h => exact (vget_past _ _ _ h).symm

/-! ### PON power saving -/

/-- What a power-saving timer's expiry leaves. -/
def PonFrame (s t : State) : Prop :=
  t = { s with time := t.time, upl := t.upl, free := t.free } ∧ t.upl.lods = s.upl.lods ∧ t.upl.gate = s.upl.gate ∧ t.upl.tcont = s.upl.tcont

theorem followSrc_timeOnly (s : State) : followSrc s = { s with time := (followSrc s).time } := by
  unfold followSrc
  split
  · rfl
  · split <;> rfl

theorem rxOff_ponFrame (s : State) : PonFrame s (rxOff s) := by
  unfold rxOff
  rw [followSrc_timeOnly]
  exact ⟨rfl, rfl, rfl, rfl⟩

theorem rxOff_upl (s : State) : (rxOff s).upl = { s.upl with rxOn := false, sync := .hunt, misses := 0, missing := true } := followSrc_upl _

theorem enterMode_ponFrame (s : State) (m : PonMode) : PonFrame s (enterMode (drew s) m) := by
  have off : PonFrame s (rxOff (setUpl (drew s) (fun u => { u with ponMode := m }))) := by
    obtain ⟨h, hlods, hgate, htcont⟩ := rxOff_ponFrame (setUpl (drew s) (fun u => { u with ponMode := m }))
    exact ⟨by rw [h]; rfl, hlods, hgate, htcont⟩
  cases m with
  | awake => exact ⟨rfl, rfl, rfl, rfl⟩
  | doze => exact ⟨rfl, rfl, rfl, rfl⟩
  | cyclicSleep => exact off
  | watchful => exact off

theorem ponTimerOp_ponFrame (s : State) (x : PonTimer) : PonFrame s (ponTimerOp s x) := by
  have stay : PonFrame s s := ⟨rfl, rfl, rfl, rfl⟩
  unfold ponTimerOp
  split
  · exact stay
  · split
    · split
      · exact stay
      · exact enterMode_ponFrame s _
    · exact ⟨rfl, rfl, rfl, rfl⟩
    · exact ⟨rfl, rfl, rfl, rfl⟩
    · exact ⟨rfl, rfl, rfl, rfl⟩
    · exact rxOff_ponFrame s
    · exact rxOff_ponFrame s
    · exact stay

/-- A timer's expiry as the mode the uplink is in takes it (Table 05.6). -/
def ponExpiry (s : State) (x : PonTimer) (m : PonMode) : State :=
  match x, m with
  | .ihold, .awake =>
    if s.upl.tcont.toList.any (fun l => decide (l ≠ [])) then s else enterMode (drew s) (modeOf (Config.freeWord s.free).toNat)
  | .irxoff, .cyclicSleep => rxOnAgain s
  | .ilowpower, .cyclicSleep => rxOnAgain s
  | .ilowpower, .watchful => rxOnAgain s
  | .iaware, .cyclicSleep => rxOff s
  | .iaware, .watchful => rxOff s
  | _, _ => s

theorem exec_ponTimer {s : State} (hd : s.pwr.domUpl = true) (x : PonTimer) :
    exec (.ponPowerSaveTimerExpiry x) s = .next (ponExpiry s x s.upl.ponMode) :=
  congrArg Host.Outcome.next (if_neg (by simp [hd]))

theorem ponPowerSave_spec (s : State) (hd : s.pwr.domUpl = true) :
    (∀ x, ∃ t, exec (.ponPowerSaveTimerExpiry x) s = .next t ∧ t = { s with time := t.time, upl := t.upl, free := t.free } ∧
      t.upl.lods = s.upl.lods ∧ t.upl.gate = s.upl.gate ∧ t.upl.tcont = s.upl.tcont) ∧
    (s.upl.ponMode = .cyclicSleep → ∃ t, exec (.ponPowerSaveTimerExpiry .iaware) s = .next t ∧ t.upl.rxOn = false ∧
      t.upl.sync = .hunt ∧ t.upl.ponMode = .cyclicSleep) ∧
    (∀ x, x = .irxoff ∨ x = .ilowpower → s.upl.ponMode = .cyclicSleep →
      exec (.ponPowerSaveTimerExpiry x) s = .next { s with upl := { s.upl with rxOn := true } }) ∧
    (s.upl.ponMode = .awake → (∃ l, l ∈ s.upl.tcont.toList ∧ l ≠ []) → exec (.ponPowerSaveTimerExpiry .ihold) s = .next s) := by
  refine ⟨fun x => ⟨ponTimerOp s x, rfl, ponTimerOp_ponFrame s x⟩, fun hm => ⟨rxOff s, ?_, ?_⟩, fun x hx hm => ?_, fun hm hl => ?_⟩
  · rw [exec_ponTimer hd, hm]
    rfl
  · rw [rxOff_upl]
    exact ⟨rfl, rfl, hm⟩
  · rcases hx with rfl | rfl
    · rw [exec_ponTimer hd, hm]
      rfl
    · rw [exec_ponTimer hd, hm]
      rfl
  · rw [exec_ponTimer hd, hm]
    obtain ⟨l, hl, hne⟩ := hl
    exact congrArg Host.Outcome.next (if_pos (List.any_eq_true.mpr ⟨l, hl, decide_eq_true hne⟩))

/-- Settles O23: the module, its diagnostics, light outside a window and the sleep timers each move what they name. -/
theorem opticsAndPonPowerFollowed : Obligations.OpticsAndPonPowerFollowed := by
  refine ⟨fun s => ⟨optModAbsChange_spec s, fun vals a0h user hd => opticsDiagPoll_spec s vals a0h user hd, i2cStretchTimeout_spec s,
    rogueLight_spec s, fun sd hd => rogueClear_pf hd sd, fun cp sd => ⟨fwDenied s 0x60020, rfl, raise_upl _ _ _ _⟩,
    fun cp hd => emstopSet_fw hd cp, rfl⟩, ponPowerSave_spec⟩

end Sys2Proof.Machine


/-! # Bursts: fixed, opened and ended (O22)

The uplink values a content fix, a refusal and an opening give are stated once; the frames follow from them. -/

namespace Sys2Proof.Machine

open Sys2Proof

/-! ### What the gate's operations leave -/

/-- Only the uplink and the events differ. -/
def GateFrame (s t : State) : Prop := t = { s with hif := t.hif, upl := t.upl, evt := t.evt, sent := t.sent }

theorem GateFrame.refl (s : State) : GateFrame s s := rfl

theorem GateFrame.trans {s t u : State} (h : GateFrame s t) (h' : GateFrame t u) : GateFrame s u := by
  unfold GateFrame at h h' ⊢
  rw [h', h]

theorem EvtOnly.gateFrame {s t : State} (h : EvtOnly s t) : GateFrame s t := by
  rw [h.frame]
  rfl

theorem setUpl_gateFrame (s : State) (f : Upl → Upl) : GateFrame s (setUpl s f) := rfl

theorem countXgem_gateFrame (s : State) : GateFrame s (countXgem s) := (setUpl_gateFrame s _).trans (raiseC_evtOnly _ _ _ _).gateFrame

theorem countRefused_gateFrame (s : State) : GateFrame s (countRefused s) := (setUpl_gateFrame s _).trans (raiseC_evtOnly _ _ _ _).gateFrame

theorem takeEqd_gateFrame (s : State) : GateFrame s (takeEqd s) := by
  unfold takeEqd
  split
  · rfl
  · split <;> rfl

theorem queuePloams_gateFrame (s : State) (l : List (List Byte)) : GateFrame s (queuePloams s l) := by
  unfold queuePloams
  split <;> rfl

theorem countRefused_upl (s : State) : (countRefused s).upl = { s.upl with refused := s.upl.refused + 1 } := by
  unfold countRefused
  rw [raiseC_upl]
  rfl

theorem iter_countXgem (n : Nat) (s : State) :
    GateFrame s (iter countXgem n s) ∧ (iter countXgem n s).upl = { s.upl with xgemDisc := s.upl.xgemDisc + n } := by
  induction n generalizing s with
  | zero => exact ⟨rfl, rfl⟩
  | succ n ih =>
    obtain ⟨hf, hu⟩ := ih (countXgem s)
    refine ⟨(countXgem_gateFrame s).trans hf, ?_⟩
    show (iter countXgem n (countXgem s)).upl = _
    rw [hu, countXgem_upl, Nat.add_assoc, Nat.add_comm 1 n]

/-! ### A content fix -/

/-- The state a content fix works on: firmware's messages queued, an EqD that has started in force, the lost structures counted. -/
def fixReady (s : State) (l : List DWord) (p : List (List Byte)) : State := iter countXgem (allocsLost l) (takeEqd (queuePloams s p))

theorem queuePloams_upl {s : State} (hd : s.pwr.domUpl = true) (p : List (List Byte)) :
    (queuePloams s p).upl = { s.upl with ploamUp := s.upl.ploamUp ++ (if cpServes s then p else []) } := by
  unfold queuePloams
  rw [hd, Bool.and_true]
  split
  · rfl
  · rw [List.append_nil]

theorem fixReady_gateFrame (s : State) (l : List DWord) (p : List (List Byte)) : GateFrame s (fixReady s l p) :=
  ((queuePloams_gateFrame s p).trans (takeEqd_gateFrame _)).trans (iter_countXgem _ _).1

theorem fixReady_upl {s : State} (hd : s.pwr.domUpl = true) (l : List DWord) (p : List (List Byte)) : (fixReady s l p).upl =
    { s.upl with ploamUp := s.upl.ploamUp ++ (if cpServes s then p else []), eqd := (fixReady s l p).upl.eqd,
                 eqdNext := (fixReady s l p).upl.eqdNext, xgemDisc := s.upl.xgemDisc + allocsLost l } := by
  unfold fixReady
  rw [(iter_countXgem _ _).2, takeEqd_upl_eq, queuePloams_upl hd]

/-- Of the uplink, a fixed burst takes frames of the T-CONT queues and a PLOAM message. -/
def Upl.filled (u v : Upl) : Prop :=
  v = { u with tcont := v.tcont, tcDeficit := v.tcDeficit, tcCursor := v.tcCursor, dgLeft := v.dgLeft, ploamUp := v.ploamUp }

theorem pickPloam_upl (u : Upl) (a : Alloc) : (pickPloam u a).1 = { u with dgLeft := (pickPloam u a).1.dgLeft, ploamUp := (pickPloam u a).1.ploamUp } := by
  unfold pickPloam
  split
  · rfl
  · split
    · rfl
    · split <;> rfl

/-- A burst that is fixed has passed every condition of the gate, lies behind the last one, and takes only frames and a message. -/
theorem fixBurst_some {s : State} {tds : Nat} {base : Int} {l : List Alloc} {rand : Nat} {u : Upl} {b : Burst}
    (h : fixBurst s tds base l rand = some (u, b)) :
    (∃ n, windowRefused s l n b.winFrom = false) ∧ b.allocs = l ∧ s.upl.filled u := by
  unfold fixBurst at h
  cases l with
  | nil => exact absurd h nofun
  | cons first rest =>
    dsimp only at h
    cases hp : vget s.upl.profiles first.profile.val none with
    | none =>
      rw [hp] at h
      exact absurd h nofun
    | some prof =>
      rw [hp] at h
      dsimp only at h
      rw [Option.ite_none_left_eq_some] at h
      obtain ⟨hr, h⟩ := h
      simp only [Option.some.injEq, Prod.mk.injEq] at h
      obtain ⟨rfl, rfl⟩ := h
      refine ⟨⟨_, by simpa using hr⟩, rfl, ?_⟩
      unfold Upl.filled
      rw [pickPloam_upl]

theorem windowRefused_false {s : State} {l : List Alloc} {n : Nat} {w : Int} (h : windowRefused s l n w = false) :
    gateLive s = true ∧ (∀ a, a ∈ l → allocPermitted s.upl a = true) ∧ ∀ e, lastEnd s.upl = some e → e ≤ w := by
  unfold windowRefused at h
  simp only [Bool.or_eq_false_iff, Bool.not_eq_false', List.all_eq_true] at h
  obtain ⟨⟨⟨hlive, hall⟩, -⟩, hlast⟩ := h
  refine ⟨hlive, hall, fun e he => ?_⟩
  rw [he] at hlast
  exact Int.not_lt.mp (of_decide_eq_false hlast)

/-- The allocations of a list that are not masked. -/
def unmasked (u : Upl) (l : List Alloc) : List Alloc := l.filter (fun a => !allocMasked u a)

/-- What a fixed burst adds. -/
def BurstAdded (s t : State) (l : List Alloc) : Prop :=
  ∃ u b, s.upl.filled u ∧ t = { s with upl := { u with bursts := u.bursts ++ [b] }, free := t.free } ∧ b.allocs = l ∧
    gateLive s = true ∧ (∀ a, a ∈ l → allocPermitted s.upl a = true) ∧ ∀ e, lastEnd s.upl = some e → e ≤ b.winFrom

theorem fixOp_of_none {s : State} {l : List Alloc} (h : unmasked s.upl l = []) (tds : Nat) : fixOp s tds l = s := by
  show (match unmasked s.upl l with | [] => s | first :: t => _) = s
  rw [h]

theorem fixOp_of_some {s : State} {l : List Alloc} (h : unmasked s.upl l ≠ []) (tds : Nat) :
    fixOp s tds l = countRefused (drew s) ∨ BurstAdded s (fixOp s tds l) (unmasked s.upl l) := by
  unfold fixOp
  split
  next hn => exact absurd hn h
  next first rest hl =>
    dsimp only
    split
    · exact .inl rfl
    next u b hf =>
      obtain ⟨⟨n, hr⟩, ha, hu⟩ := fixBurst_some hf
      obtain ⟨hlive, hall, hlast⟩ := windowRefused_false hr
      have hl' : unmasked s.upl l = first :: rest := hl
      rw [hl']
      exact .inr ⟨u, b, hu, rfl, ha, hlive, hall, hlast⟩

/-- What a content fix leaves. -/
def FixFrame (s t : State) : Prop := t = { s with hif := t.hif, upl := t.upl, evt := t.evt, sent := t.sent, free := t.free }

theorem GateFrame.fix {s t u : State} (h : GateFrame s t) (h' : FixFrame t u) : FixFrame s u := by
  unfold GateFrame at h
  unfold FixFrame at *
  rw [h', h]

theorem countRefused_drew_fixFrame (s : State) : FixFrame s (countRefused (drew s)) := by
  have h := countRefused_gateFrame (drew s)
  rw [h]
  rfl

theorem BurstAdded.fixFrame {s t : State} {l : List Alloc} (h : BurstAdded s t l) : FixFrame s t := by
  obtain ⟨u, b, -, ht, -⟩ := h
  rw [ht]
  rfl

theorem BurstAdded.upl {s t : State} {l : List Alloc} (h : BurstAdded s t l) :
    t.upl.xgemDisc = s.upl.xgemDisc ∧ t.upl.refused = s.upl.refused ∧ gateLive s = true ∧ (∀ a, a ∈ l → allocPermitted s.upl a = true) ∧
    ∃ b, t.upl.bursts = s.upl.bursts ++ [b] ∧ b.allocs = l ∧ ∀ e, lastEnd s.upl = some e → e ≤ b.winFrom := by
  obtain ⟨u, b, hu, ht, ha, hlive, hall, hlast⟩ := h
  unfold Upl.filled at hu
  rw [ht]
  exact ⟨by rw [hu], by rw [hu], hlive, hall, b, by rw [hu], ha, hlast⟩

theorem burstContentFix_spec {s : State} (hd : s.pwr.domUpl = true) (tds : Nat) (l : List DWord) (p : List (List Byte)) :
    ∃ t, exec (.burstContentFix tds ⟨l, p⟩) s = .next t ∧
      t = { s with hif := t.hif, upl := t.upl, evt := t.evt, sent := t.sent, free := t.free } ∧
      t.upl.xgemDisc = s.upl.xgemDisc + allocsLost l ∧
      (((parseAllocs l).filter (allocOurs s.upl)).filter (fun a => !allocMasked s.upl a) = [] →
        t.upl.bursts = s.upl.bursts ∧ t.upl.refused = s.upl.refused ∧ t.upl.tcont = s.upl.tcont ∧
        t.upl.ploamUp = s.upl.ploamUp ++ (if cpServes s then p else [])) ∧
      (((parseAllocs l).filter (allocOurs s.upl)).filter (fun a => !allocMasked s.upl a) ≠ [] →
        ((gateLive s = false ∨ ∃ a, a ∈ parseAllocs l ∧ allocOurs s.upl a = true ∧ allocMasked s.upl a = false ∧ allocPermitted s.upl a = false) →
          t.upl.refused = s.upl.refused + 1 ∧ t.upl.bursts = s.upl.bursts ∧ t.upl.tcont = s.upl.tcont) ∧
        (t.upl.refused ≠ s.upl.refused + 1 → ∃ b, t.upl.bursts = s.upl.bursts ++ [b] ∧ t.upl.refused = s.upl.refused ∧
          b.allocs = ((parseAllocs l).filter (allocOurs s.upl)).filter (fun a => !allocMasked s.upl a) ∧
          ∀ e, lastEnd s.upl = some e → e ≤ b.winFrom)) := by
  have hready := fixReady_upl hd l p
  have hframe := fixReady_gateFrame s l p
  have hours : allocOurs (fixReady s l p).upl = allocOurs s.upl := by
    rw [hready]
    rfl
  have hun (x : List Alloc) : unmasked (fixReady s l p).upl x = unmasked s.upl x := by
    rw [hready]
    rfl
  have hperm (a : Alloc) : allocPermitted (fixReady s l p).upl a = allocPermitted s.upl a := by
    rw [hready]
    rfl
  have hlive : gateLive (fixReady s l p) = gateLive s := by
    unfold gateLive inSync rxLive
    rw [hready, hframe]
  have hlast : lastEnd (fixReady s l p).upl = lastEnd s.upl := by
    rw [hready]
    rfl
  have hexec : exec (.burstContentFix tds ⟨l, p⟩) s = .next (fixOp (fixReady s l p) tds ((parseAllocs l).filter (allocOurs s.upl))) := by
    rw [← hours]
    exact congrArg Host.Outcome.next (if_neg (by simp [hd]))
  refine ⟨_, hexec, ?_⟩
  have hmine (x : List Alloc) : x.filter (fun a => !allocMasked s.upl a) = unmasked s.upl x := rfl
  simp only [hmine]
  by_cases hn : unmasked s.upl ((parseAllocs l).filter (allocOurs s.upl)) = []
  · rw [fixOp_of_none ((hun _).trans hn)]
    refine ⟨hframe.fix rfl, ?_, fun _ => ?_, fun h => absurd hn h⟩
    · rw [hready]
    · rw [hready]
      exact ⟨rfl, rfl, rfl, rfl⟩
  · rcases fixOp_of_some (s := fixReady s l p) (by rw [hun]; exact hn) tds with h | h
    · rw [h]
      refine ⟨hframe.fix (countRefused_drew_fixFrame _), ?_, fun h' => absurd h' hn, fun _ => ⟨fun _ => ?_, fun hne => ?_⟩⟩
      · rw [countRefused_upl]
        show (fixReady s l p).upl.xgemDisc = _
        rw [hready]
      · rw [countRefused_upl]
        show (fixReady s l p).upl.refused + 1 = _ ∧ (fixReady s l p).upl.bursts = _ ∧ (fixReady s l p).upl.tcont = _
        rw [hready]
        exact ⟨rfl, rfl, rfl⟩
      · refine absurd ?_ hne
        rw [countRefused_upl]
        show (fixReady s l p).upl.refused + 1 = _
        rw [hready]
    · obtain ⟨hx, hr, hg, hall, b, hb, ha, he⟩ := h.upl
      rw [hlive] at hg
      rw [hun] at hall ha
      rw [hlast] at he
      refine ⟨hframe.fix h.fixFrame, ?_, fun h' => absurd h' hn, fun _ => ⟨fun hbad => ?_, fun _ => ⟨b, ?_, ?_, ha, he⟩⟩⟩
      · rw [hx, hready]
      · rcases hbad with hbad | ⟨a, hmem, hour, hmask, hbad⟩
        · rw [hg] at hbad
          exact absurd hbad nofun
        · have := hall a (List.mem_filter.mpr ⟨List.mem_filter.mpr ⟨hmem, hour⟩, by simp [hmask]⟩)
          rw [hperm, hbad] at this
          exact absurd this nofun
      · rw [hb, hready]
      · rw [hr, hready]

/-! ### A burst that is not sent -/

/-- A burst that is not sent gives its frames and its message back. -/
def Restored (s t : State) : Prop := t = { s with upl := { s.upl with tcont := t.upl.tcont, dgLeft := t.upl.dgLeft, ploamUp := t.upl.ploamUp } }

theorem Restored.trans {s t u : State} (h : Restored s t) (h' : Restored t u) : Restored s u := by
  unfold Restored at h h' ⊢
  rw [h', h]

theorem restoreBurst_restored (s : State) (b : Burst) : Restored s (restoreBurst s b) := by
  obtain ⟨v, hv⟩ : ∃ v, unplan s b = { s with upl := { s.upl with tcont := v } } := ⟨_, rfl⟩
  unfold restoreBurst
  rw [hv]
  dsimp only
  split <;> rfl

theorem foldl_restoreBurst (l : List Burst) (s : State) : Restored s (l.foldl restoreBurst s) := by
  induction l generalizing s with
  | nil => rfl
  | cons b l ih => exact (restoreBurst_restored s b).trans (ih _)

theorem foldl_countRefused (l : List Burst) (s : State) : GateFrame s (l.foldl (fun t _ => countRefused t) s) ∧
    (l.foldl (fun t _ => countRefused t) s).upl = { s.upl with refused := s.upl.refused + l.length } := by
  induction l generalizing s with
  | nil => exact ⟨rfl, rfl⟩
  | cons b l ih =>
    obtain ⟨hf, hu⟩ := ih (countRefused s)
    refine ⟨(countRefused_gateFrame s).trans hf, ?_⟩
    show (l.foldl (fun t _ => countRefused t) (countRefused s)).upl = _
    rw [hu, countRefused_upl, List.length_cons, Nat.add_assoc, Nat.add_comm 1]

/-- The scheduler stands as before the first of the waiting bursts. -/
def schedulerBack (s : State) (l : List Burst) : State :=
  match l with
  | [] => s
  | b :: _ => setUpl s (fun u => { u with tcDeficit := b.deficit, tcCursor := b.cursor })

/-- Every waiting burst given back, before they are counted. -/
def burstsBack (s : State) : State :=
  schedulerBack (s.upl.bursts.reverse.foldl restoreBurst (setUpl s (fun u => { u with bursts := [] }))) s.upl.bursts

theorem burstsBack_eq (s : State) : burstsBack s = { s with upl := { s.upl with
    bursts := [], tcont := (burstsBack s).upl.tcont, dgLeft := (burstsBack s).upl.dgLeft, ploamUp := (burstsBack s).upl.ploamUp,
    tcDeficit := (burstsBack s).upl.tcDeficit, tcCursor := (burstsBack s).upl.tcCursor } } := by
  have h := foldl_restoreBurst s.upl.bursts.reverse (setUpl s (fun u => { u with bursts := [] }))
  unfold Restored at h
  unfold burstsBack schedulerBack
  split
  · rw [h]
    rfl
  · rw [h]
    rfl

/-- Every waiting burst is refused, and no window opens. -/
theorem refuseAll_spec (s : State) : GateFrame s (refuseAll s) ∧ (refuseAll s).upl.bursts = [] ∧ (refuseAll s).upl.window = s.upl.window ∧
    (refuseAll s).upl.burstEn = s.upl.burstEn ∧ (refuseAll s).upl.refused = s.upl.refused + s.upl.bursts.length := by
  have hb := burstsBack_eq s
  obtain ⟨hf, hu⟩ := foldl_countRefused s.upl.bursts (burstsBack s)
  have h : refuseAll s = s.upl.bursts.foldl (fun t _ => countRefused t) (burstsBack s) := rfl
  rw [h]
  refine ⟨GateFrame.trans ?_ hf, ?_⟩
  · rw [hb]
    rfl
  · rw [hu, hb]
    exact ⟨rfl, rfl, rfl, rfl⟩

/-! ### A window opens -/

/-- Only the T-CONT queues differ. -/
def TcOnly (s t : State) : Prop := t = { s with upl := { s.upl with tcont := t.upl.tcont } }

theorem TcOnly.trans {s t u : State} (h : TcOnly s t) (h' : TcOnly t u) : TcOnly s u := by
  unfold TcOnly at h h' ⊢
  rw [h', h]

theorem mapTcont_tcOnly (s : State) (p : Frame → Frame) : TcOnly s (mapTcont s p) := by
  obtain ⟨v, hv⟩ : ∃ v, mapTcont s p = { s with upl := { s.upl with tcont := v } } := ⟨_, rfl⟩
  rw [hv]
  rfl

theorem openSeg_tcOnly (b : Burst) (x : State × List (Nat × List Byte) × List BurstSeg) (g : BurstSeg) : TcOnly x.1 (openSeg b x g).1 := by
  unfold openSeg
  split
  · rfl
  · split
    · exact mapTcont_tcOnly _ _
    · rfl

theorem foldl_openSeg_tcOnly (b : Burst) (l : List BurstSeg) (x : State × List (Nat × List Byte) × List BurstSeg) :
    TcOnly x.1 (l.foldl (openSeg b) x).1 := by
  induction l generalizing x with
  | nil => rfl
  | cons g l ih => exact (openSeg_tcOnly b x g).trans (ih _)

/-- The window that opens, with the pieces that still stand at the heads of their queues. -/
def openedWindow (s : State) (b : Burst) : Burst :=
  let (_, pieces, segs) := b.segs.foldl (openSeg b) (s, [], [])
  { b with opened := s.datum, bytes := burstBytes s b pieces, segs := segs,
           lastOf := b.lastOf.filter (fun w => segs.any (fun g => g.last && decide (g.src = .work w.ring w.seq))) }

/-- The state with the window open, before its PLOAM message leaves. -/
def windowOpened (s : State) (b : Burst) : State :=
  setUpl (b.segs.foldl (openSeg b) (s, [], [])).1 (fun u => { u with
    window := some (openedWindow s b), prevEnd := some b.winTo, burstEn := true, txSd := true,
    dgHeaders := if b.ind % 2 = 1 then u.dgHeaders + 1 else u.dgHeaders })

theorem openBurst_eq (s : State) (b : Burst) : openBurst s b = sendPloam (windowOpened s b) b := rfl

theorem windowOpened_eq (s : State) (b : Burst) : windowOpened s b = { s with upl := { s.upl with
    tcont := (windowOpened s b).upl.tcont, window := some (openedWindow s b), prevEnd := some b.winTo, burstEn := true, txSd := true,
    dgHeaders := (windowOpened s b).upl.dgHeaders } } := by
  have h := foldl_openSeg_tcOnly b b.segs (s, [], [])
  unfold TcOnly at h
  unfold windowOpened
  rw [h]
  rfl

theorem sendPloam_eq (s : State) (b : Burst) :
    sendPloam s b = { s with upl := { s.upl with dgPloams := (sendPloam s b).upl.dgPloams }, sent := (sendPloam s b).sent } := by
  unfold sendPloam
  split
  · rfl
  · dsimp only
    split <;> rfl

theorem sendPloam_sends {s : State} {b : Burst} {dg : Bool} {m : List Byte} (h : b.ploam = some (dg, m)) :
    Out.ploamUp (signedPloam s m) ∈ (sendPloam s b).sent := by
  unfold sendPloam
  rw [h]
  dsimp only
  split <;> exact List.mem_cons_self ..

theorem openBurst_spec (s : State) (b : Burst) : GateFrame s (openBurst s b) ∧ (openBurst s b).upl.bursts = s.upl.bursts ∧
    (openBurst s b).upl.burstEn = true ∧ (openBurst s b).upl.txSd = true ∧ (openBurst s b).upl.prevEnd = some b.winTo ∧
    (openBurst s b).upl.refused = s.upl.refused ∧ (openBurst s b).upl.window = some (openedWindow s b) ∧
    ∀ dg m, b.ploam = some (dg, m) → Out.ploamUp (signedPloam s m) ∈ (openBurst s b).sent := by
  have hw := windowOpened_eq s b
  have hp := sendPloam_eq (windowOpened s b) b
  rw [openBurst_eq]
  refine ⟨?_, ?_, ?_, ?_, ?_, ?_, ?_, fun dg m hm => ?_⟩
  · rw [hp, hw]
    rfl
  · rw [hp, hw]
  · rw [hp, hw]
  · rw [hp, hw]
  · rw [hp, hw]
  · rw [hp, hw]
  · rw [hp, hw]
  · have hs : signedPloam (windowOpened s b) m = signedPloam s m := by
      rw [hw]
      rfl
    rw [← hs]
    exact sendPloam_sends hm

/-- A burst with masked allocations gives them up: what is left of it, if anything, waits in its place. -/
theorem maskBurst_spec (s : State) (b : Burst) : GateFrame s (maskBurst s b) ∧ (maskBurst s b).upl.window = s.upl.window ∧
    (maskBurst s b).upl.burstEn = s.upl.burstEn ∧ ∃ pre, (maskBurst s b).upl.bursts = pre ++ s.upl.bursts ∧
      ∀ x, x ∈ pre → x.allocs = b.allocs.filter (fun a => !allocMasked s.upl a) := by
  have hr := restoreBurst_restored s b
  unfold Restored at hr
  unfold maskBurst
  dsimp only
  split
  · rw [hr]
    exact ⟨rfl, rfl, rfl, [], rfl, nofun⟩
  split
  · refine ⟨GateFrame.trans ?_ (countRefused_gateFrame _), ?_⟩
    · rw [hr]
      rfl
    · rw [countRefused_upl, hr]
      exact ⟨rfl, rfl, [], rfl, nofun⟩
  next u x hf =>
    obtain ⟨-, ha, hu⟩ := fixBurst_some hf
    unfold Upl.filled at hu
    rw [hr] at hu
    rw [hu, hr]
    refine ⟨rfl, rfl, rfl, [x], rfl, fun y hy => ?_⟩
    rw [List.mem_singleton.mp hy]
    exact ha

/-! ### The window's opening is decided -/

theorem windowOpenOp_next {s : State} {b : Burst} {rest : List Burst} (hb : s.upl.bursts = b :: rest) (hw : s.upl.window = none) :
    windowOpenOp s = if !gateLive s then refuseAll s
      else if !b.allocs.all (fun a => allocMasked s.upl a || allocPermitted s.upl a) then
        countRefused (restoreBurst (setUpl s (fun u => { u with bursts := rest })) b)
      else if b.allocs.any (allocMasked s.upl) then maskBurst (setUpl s (fun u => { u with bursts := rest })) b
      else openBurst (setUpl s (fun u => { u with bursts := rest })) b := by
  unfold windowOpenOp
  rw [hb]
  dsimp only
  rw [hw, Option.isSome_none, if_neg Bool.false_ne_true]

/-- The window of a burst whose grants the gate state does not permit is refused whole. -/
theorem refusedOne_spec (s : State) (b : Burst) (rest : List Burst) :
    GateFrame s (countRefused (restoreBurst (setUpl s (fun u => { u with bursts := rest })) b)) ∧
    (countRefused (restoreBurst (setUpl s (fun u => { u with bursts := rest })) b)).upl.window = s.upl.window ∧
    (countRefused (restoreBurst (setUpl s (fun u => { u with bursts := rest })) b)).upl.bursts = rest ∧
    (countRefused (restoreBurst (setUpl s (fun u => { u with bursts := rest })) b)).upl.burstEn = s.upl.burstEn ∧
    (countRefused (restoreBurst (setUpl s (fun u => { u with bursts := rest })) b)).upl.refused = s.upl.refused + 1 := by
  have hr := restoreBurst_restored (setUpl s (fun u => { u with bursts := rest })) b
  unfold Restored at hr
  refine ⟨GateFrame.trans ?_ (countRefused_gateFrame _), ?_⟩
  · rw [hr]
    rfl
  · rw [countRefused_upl, hr]
    exact ⟨rfl, rfl, rfl, rfl⟩

theorem burstWindowOpen_spec {s : State} {b : Burst} {rest : List Burst} (hb : s.upl.bursts = b :: rest) (hw : s.upl.window = none) :
    ∃ t, exec .burstWindowOpen s = .next t ∧ t = { s with hif := t.hif, upl := t.upl, evt := t.evt, sent := t.sent } ∧
      (gateLive s = true → (∀ a, a ∈ b.allocs → allocMasked s.upl a = false ∧ allocPermitted s.upl a = true) →
        t.upl.bursts = rest ∧ t.upl.burstEn = true ∧ t.upl.txSd = true ∧ t.upl.prevEnd = some b.winTo ∧
        t.upl.refused = s.upl.refused ∧
        (∃ w, t.upl.window = some w ∧ w.opened = s.datum ∧ w.allocs = b.allocs ∧ w.psbu = b.psbu) ∧
        ∀ dg m, b.ploam = some (dg, m) → Out.ploamUp (signedPloam s m) ∈ t.sent) ∧
      (gateLive s = true → (∃ a, a ∈ b.allocs ∧ allocMasked s.upl a = false ∧ allocPermitted s.upl a = false) →
        t.upl.window = none ∧ t.upl.bursts = rest ∧ t.upl.burstEn = s.upl.burstEn ∧ t.upl.refused = s.upl.refused + 1) ∧
      (gateLive s = true → (∃ a, a ∈ b.allocs ∧ allocMasked s.upl a = true) →
        t.upl.window = none ∧ t.upl.burstEn = s.upl.burstEn ∧ ∃ pre, t.upl.bursts = pre ++ rest ∧
          ∀ x, x ∈ pre → ∀ a, a ∈ x.allocs → a ∈ b.allocs ∧ allocMasked s.upl a = false) ∧
      (gateLive s = false → t.upl.window = none ∧ t.upl.bursts = [] ∧ t.upl.burstEn = s.upl.burstEn ∧
        t.upl.refused = s.upl.refused + 1 + rest.length) := by
  refine ⟨windowOpenOp s, rfl, ?_⟩
  rw [windowOpenOp_next hb hw]
  by_cases hlive : gateLive s = true
  · rw [hlive, Bool.not_true, if_neg Bool.false_ne_true]
    by_cases hall : b.allocs.all (fun a => allocMasked s.upl a || allocPermitted s.upl a) = true
    · rw [hall, Bool.not_true, if_neg Bool.false_ne_true]
      have hok := List.all_eq_true.mp hall
      have hnone : ¬∃ a, a ∈ b.allocs ∧ allocMasked s.upl a = false ∧ allocPermitted s.upl a = false := by
        rintro ⟨a, ha, hm, hp⟩
        have := hok a ha
        rw [hm, hp] at this
        exact absurd this nofun
      by_cases hany : b.allocs.any (allocMasked s.upl) = true
      · rw [if_pos hany]
        obtain ⟨a, ha, hm⟩ := List.any_eq_true.mp hany
        obtain ⟨hf, hwin, hen, pre, hpre, hx⟩ := maskBurst_spec (setUpl s (fun u => { u with bursts := rest })) b
        refine ⟨hf, fun _ hu => ?_, fun _ hn => absurd hn hnone, fun _ _ => ⟨hwin.trans hw, hen, pre, hpre, fun x hxp y hy => ?_⟩, nofun⟩
        · have := (hu a ha).1
          rw [hm] at this
          exact absurd this nofun
        · rw [hx x hxp] at hy
          obtain ⟨hyb, hym⟩ := List.mem_filter.mp hy
          exact ⟨hyb, (Bool.not_eq_true' _).mp hym⟩
      · rw [if_neg hany]
        obtain ⟨hf, hbursts, hen, hsd, hprev, href, hwin, hpl⟩ := openBurst_spec (setUpl s (fun u => { u with bursts := rest })) b
        refine ⟨hf, fun _ _ => ⟨hbursts, hen, hsd, hprev, href, ⟨_, hwin, rfl, rfl, rfl⟩, hpl⟩, fun _ hn => absurd hn hnone, fun _ hn => ?_, nofun⟩
        exact absurd (List.any_eq_true.mpr hn) hany
    · rw [if_pos (by simpa using hall)]
      obtain ⟨hf, hwin, hbursts, hen, href⟩ := refusedOne_spec s b rest
      refine ⟨hf, fun _ hok => ?_, fun _ _ => ⟨hwin.trans hw, hbursts, hen, href⟩, fun _ _ => ⟨hwin.trans hw, hen, [], hbursts, nofun⟩, nofun⟩
      refine absurd (List.all_eq_true.mpr fun a ha => ?_) hall
      rw [(hok a ha).2, Bool.or_true]
  · have hdead : gateLive s = false := by simpa using hlive
    rw [if_pos (by simp [hdead])]
    obtain ⟨hf, hbursts, hwin, hen, href⟩ := refuseAll_spec s
    refine ⟨hf, fun h => absurd h hlive, fun h => absurd h hlive, fun h => absurd h hlive, fun _ => ⟨hwin.trans hw, hbursts, hen, ?_⟩⟩
    rw [href, hb, List.length_cons]
    omega

theorem burstWindowOpen_waits {s : State} (h : s.upl.bursts = [] ∨ s.upl.window.isSome = true) : exec .burstWindowOpen s = .next s := by
  refine congrArg Host.Outcome.next ?_
  unfold windowOpenOp
  split
  · rfl
  next b rest hb => exact if_pos (h.resolve_left (by simp [hb]))

/-! ### A window ends -/

/-- What the residence points of a burst's frames change. -/
def FwFrame (s t : State) : Prop := t = { s with hif := t.hif, fw := t.fw, evt := t.evt, sent := t.sent }

theorem FwFrame.trans {s t u : State} (h : FwFrame s t) (h' : FwFrame t u) : FwFrame s u := by
  unfold FwFrame at h h' ⊢
  rw [h', h]

theorem EvtOnly.fwFrame {s t : State} (h : EvtOnly s t) : FwFrame s t := by
  rw [h.frame]
  rfl

theorem fw_fwFrame (s : State) (f : Fw) : FwFrame s { s with fw := f } := rfl

theorem ptpDone_fwFrame (s : State) (h : PtpHalf) (t : Nat) : FwFrame s (ptpDone s h t) :=
  (fw_fwFrame s _).trans (raise_evtOnly _ _ _ _).fwFrame

theorem ptpOut_fwFrame (s : State) (c id : Nat) (b : List Byte) (ts : Option (Nat × Bool)) : FwFrame s (ptpOut s c id b ts) := by
  unfold ptpOut
  split
  · rfl
  · split
    · rfl
    · split
      · exact ptpDone_fwFrame _ _ _
      · rfl

theorem burstPtp_fwFrame (s : State) (g : BurstSeg) : FwFrame s (burstPtp s g) := by
  unfold burstPtp
  split
  · split
    · split
      · exact ptpOut_fwFrame _ _ _ _ _
      · rfl
    · rfl
  · rfl

theorem foldl_burstPtp (l : List BurstSeg) (s : State) : FwFrame s (l.foldl burstPtp s) := by
  induction l generalizing s with
  | nil => rfl
  | cons g l ih => exact (burstPtp_fwFrame s g).trans (ih _)

/-- The window closed and its bytes out, before its work is executed. -/
def windowClosed (s : State) (b : Burst) : State :=
  emitOut (setUpl (leaveQueues (b.segs.foldl burstPtp s) b.segs) (fun u => { u with window := none, burstEn := false, txSd := false }))
    (.burst (b.psbu ++ b.bytes))

theorem windowCloseOp_some {s : State} {b : Burst} (h : s.upl.window = some b) :
    windowCloseOp_ s = pauseAll (b.lastOf.foldl (emitBurstWork false) (windowClosed s b)) := by
  unfold windowCloseOp_
  rw [h]
  rfl

/-- The close of a window changes the uplink's window and T-CONT queues, firmware's residence points, and the events. -/
theorem windowClosed_eq (s : State) (b : Burst) : windowClosed s b = { s with
    hif := (windowClosed s b).hif, fw := (windowClosed s b).fw, evt := (windowClosed s b).evt, sent := (windowClosed s b).sent,
    upl := { s.upl with window := none, burstEn := false, txSd := false, tcont := (windowClosed s b).upl.tcont } } := by
  have h := foldl_burstPtp b.segs s
  unfold FwFrame at h
  obtain ⟨v, hv⟩ : ∃ v, leaveQueues (b.segs.foldl burstPtp s) b.segs =
      { (b.segs.foldl burstPtp s) with upl := { (b.segs.foldl burstPtp s).upl with tcont := v } } := ⟨_, rfl⟩
  unfold windowClosed
  rw [hv, h]
  rfl

/-- Fewer entries are kept for bursts once the window is gone. -/
theorem journalSpace_of_closed {s t : State} (h : journalSpace s = true) (hj : t.journal = s.journal) (hb : t.upl.bursts = s.upl.bursts)
    (hw : t.upl.window = none) : journalSpace t = true := by
  unfold journalSpace reservedEntries at h ⊢
  rw [hj, hb, hw]
  exact decide_eq_true (by have := of_decide_eq_true h; dsimp only; omega)

theorem emitBurstWork_journal {s t : State} {x : BurstWork} {w : Work} (h : workOpen s x.ring.val x.seq = some w) (hs : journalSpace s = true)
    (hr : t.rings = s.rings) (hj : t.journal = s.journal) (hb : t.upl.bursts = s.upl.bursts) (hw : t.upl.window = none) (cut : Bool) :
    (emitBurstWork cut t x).journal = s.journal ++ [{ ring := x.ring, seq := x.seq, out := uplOutcome w x cut }] := by
  have ho : workOpen t x.ring.val x.seq = some w := (workOpen_of_same (ringAt_congr hr _) hj _).trans h
  unfold emitBurstWork
  rw [ho]
  dsimp only
  rw [emitWork_journal (journalSpace_of_closed hs hj hb hw), hj]

theorem pauseAll_journal (s : State) : (pauseAll s).journal = s.journal := by
  rw [pauseAll_pmFrame s]

theorem emitBurstWork_sent_eq (cut : Bool) (s : State) (x : BurstWork) : (emitBurstWork cut s x).sent = s.sent := by
  unfold emitBurstWork
  split <;> simp

theorem foldl_emitBurstWork_sent (cut : Bool) (l : List BurstWork) (s : State) : (l.foldl (emitBurstWork cut) s).sent = s.sent := by
  induction l generalizing s with
  | nil => rfl
  | cons x l ih => exact (ih _).trans (emitBurstWork_sent_eq cut s x)

theorem sendPause_sent (s : State) (c : Nat) (m : MacSect) (ens q : Nat) : s.sent <:+ (sendPause s c m ens q).sent := by
  refine List.IsSuffix.trans ?_ (raiseC_sent _ _ _ _)
  exact List.suffix_rfl

theorem pauseCheck_sent (s : State) (c : Nat) : s.sent <:+ (pauseCheck s c).sent := by
  unfold pauseCheck
  split
  · exact List.suffix_rfl
  next m _ =>
    refine sent_ite List.suffix_rfl ?_
    rw [setQs_sent]
    exact (sent_ite List.suffix_rfl (sendPause_sent s c m _ _)).trans (sent_ite List.suffix_rfl (sendPause_sent _ c m _ _))

theorem pauseAll_sent (s : State) : s.sent <:+ (pauseAll s).sent := foldl_sent _ pauseCheck_sent _ s

theorem burstWindowClose_spec {s : State} {b : Burst} (hb : s.upl.window = some b) : ∃ t, exec .burstWindowClose s = .next t ∧
    t = { s with hif := t.hif, rings := t.rings, journal := t.journal, chans := t.chans, upl := t.upl, fw := t.fw, evt := t.evt, sent := t.sent } ∧
    t.upl = { s.upl with window := none, burstEn := false, txSd := false, tcont := t.upl.tcont } ∧
    Out.burst (b.psbu ++ b.bytes) ∈ t.sent ∧
    (b.lastOf = [] → t.rings = s.rings ∧ t.journal = s.journal) ∧
    (∀ x w, b.lastOf = [x] → workOpen s x.ring.val x.seq = some w → journalSpace s = true →
      t.journal = s.journal ++ [{ ring := x.ring, seq := x.seq, out := uplOutcome w x false }]) := by
  have hc := windowClosed_eq s b
  have hframe : TcFrame (windowClosed s b) (pauseAll (b.lastOf.foldl (emitBurstWork false) (windowClosed s b))) :=
    (foldl_tcFrame (emitBurstWork_tcFrame false) _ _).trans (pauseAll_pmFrame _).tcFrame
  unfold TcFrame at hframe
  refine ⟨pauseAll (b.lastOf.foldl (emitBurstWork false) (windowClosed s b)), congrArg Host.Outcome.next (windowCloseOp_some hb), ?_, ?_, ?_, ?_, ?_⟩
  · rw [hframe, hc]
  · rw [hframe, hc]
  · refine (pauseAll_sent _).subset ?_
    rw [foldl_emitBurstWork_sent]
    exact List.mem_cons_self ..
  · intro hn
    rw [hn]
    refine ⟨(pauseAll_rings _).trans ?_, (pauseAll_journal _).trans ?_⟩
    · show (windowClosed s b).rings = _
      rw [hc]
    · show (windowClosed s b).journal = _
      rw [hc]
  · intro x w hx ho hs
    rw [hx, pauseAll_journal]
    refine emitBurstWork_journal ho hs ?_ ?_ ?_ ?_ false <;> rw [hc]

/-! ### The backstop -/

theorem loseSeg_journal (st : Status) (s : State) (g : BurstSeg) : (loseSeg st s g).journal = s.journal := by
  have hd : (dropTcont s (ofFrame g)).journal = s.journal := setUpl_journal s _
  unfold loseSeg
  dsimp only
  split
  · exact (returnWork_journal _ _ _ _).trans hd
  · exact hd

theorem foldl_loseSeg_journal (st : Status) (l : List BurstSeg) (s : State) : (l.foldl (loseSeg st) s).journal = s.journal := by
  induction l generalizing s with
  | nil => rfl
  | cons g l ih => exact (ih _).trans (loseSeg_journal st s g)

theorem stopWindow_journal {s : State} {b : Burst} {x : BurstWork} {w : Work} {reached : Nat} (hb : s.upl.window = some b) (hx : b.lastOf = [x])
    (hr : x.endBit ≤ reached) (ho : workOpen s x.ring.val x.seq = some w) (hs : journalSpace s = true) (st : Status) :
    (stopWindow s reached st).journal = s.journal ++ [{ ring := x.ring, seq := x.seq, out := uplOutcome w x true }] := by
  rw [stopWindow_some hb, pauseAll_journal, foldl_loseSeg_journal, hx, List.filter_singleton, decide_eq_true hr]
  exact emitBurstWork_journal (t := windowGone s (sentBytes b reached)) ho hs rfl rfl rfl rfl true

/-- The state once the backstop has ended the window, before it is counted. -/
def backstopped (s : State) : State :=
  setUpl (stopWindow s (32 * s.upl.maxBurst.toNat) .retNoPath) (fun u => { u with backstops := u.backstops + 1 })

theorem backstopExpiry_spec {s : State} {b : Burst} (hb : s.upl.window = some b) : ∃ t, exec .backstopExpiry s = .next t ∧
    t = { s with hif := t.hif, rings := t.rings, journal := t.journal, chans := t.chans, upl := t.upl, evt := t.evt, sent := t.sent } ∧
    t.upl.window = none ∧ t.upl.burstEn = false ∧ t.upl.gate = s.upl.gate ∧ t.upl.bursts = s.upl.bursts ∧
    t.upl.backstops = s.upl.backstops + 1 ∧
    (∀ x w, b.lastOf = [x] → x.endBit ≤ 32 * s.upl.maxBurst.toNat → workOpen s x.ring.val x.seq = some w → journalSpace s = true →
      t.journal = s.journal ++ [{ ring := x.ring, seq := x.seq, out := uplOutcome w x true }]) := by
  obtain ⟨hf, hu⟩ := stopWindow_winFrame hb (32 * s.upl.maxBurst.toNat) .retNoPath
  have hr := (raiseC_evtOnly (backstopped s) Src.backstop 0xFE 1).frame
  refine ⟨raiseC (backstopped s) Src.backstop 0xFE 1, congrArg Host.Outcome.next (if_neg (by simp [hb])), ?_, ?_⟩
  · rw [hr, backstopped, hf]
    rfl
  · have hupl : (raiseC (backstopped s) Src.backstop 0xFE 1).upl =
        { (stopWindow s (32 * s.upl.maxBurst.toNat) .retNoPath).upl with
          backstops := (stopWindow s (32 * s.upl.maxBurst.toNat) .retNoPath).upl.backstops + 1 } := raiseC_upl _ _ _ _
    rw [hupl, hu]
    refine ⟨rfl, rfl, rfl, rfl, rfl, fun x w hx he ho hs => ?_⟩
    rw [raiseC_journal]
    exact stopWindow_journal hb hx he ho hs .retNoPath

theorem windowEnds_without {s : State} (h : s.upl.window = none) : exec .burstWindowClose s = .next s ∧ exec .backstopExpiry s = .next s := by
  refine ⟨congrArg Host.Outcome.next ?_, congrArg Host.Outcome.next (if_pos (by simp [h]))⟩
  unfold windowCloseOp_
  rw [h]

/-- Settles O22: a content fix, a window's opening and its end, each as the gate's conditions of the moment decide. -/
theorem burstsFixedAndEnded : Obligations.BurstsFixedAndEnded := by
  refine ⟨fun s => ⟨fun tds l p hd => burstContentFix_spec hd tds l p, fun tds l p hd => congrArg Host.Outcome.next (if_pos (by simp [hd])),
    fun b rest hb hw => burstWindowOpen_spec hb hw, burstWindowOpen_waits⟩, fun s => ⟨fun b hb => burstWindowClose_spec hb, windowEnds_without,
    fun b hb => backstopExpiry_spec hb⟩⟩

end Sys2Proof.Machine


/-! # Radio frames sent (O36)

Every operation of the transmit path keeps to ring 7, the journal, the radio, the DRBG's count and the events (`RadActs`);
what it makes of the radio is stated per operation. -/

namespace Sys2Proof.Machine

open Sys2Proof

/-! ### What the transmit path may change -/

theorem emitWork_onlyRing (s : State) (r : RingNo) (q : Word) (o : Outcome) : OnlyRing s (emitWork s r q o) r.val :=
  fun _ hx => ringAt_emitWork_ne s r q o hx

theorem beginEmission_onlyRing (s : State) (r : RingNo) (q : Word) (o : Outcome) : OnlyRing s (beginEmission s r q o) r.val := by
  unfold beginEmission
  split
  · exact (emitWork_onlyRing s r q o).trans (setWork_onlyRing _ _ _ _)
  · exact .refl s _

theorem endEmission_onlyRing (s : State) (r : Nat) (q : Word) (f : Outcome → Outcome) : OnlyRing s (endEmission s r q f) r :=
  (onlyRing_of_rings (t := setOutcome s r q f) r rfl).trans (setWork_onlyRing _ _ _ _)

/-- What an operation of the transmit path leaves: the rings but RAD_TX, and every part but those a transmission moves. -/
structure RadActs (s t : State) : Prop where
  ring : OnlyRing s t 7
  frame : t = { s with hif := t.hif, rings := t.rings, journal := t.journal, rad := t.rad,
                       sec := { s.sec with drbgCount := t.sec.drbgCount, drbgSeed := t.sec.drbgSeed }, evt := t.evt, sent := t.sent, free := t.free }

theorem RadActs.refl (s : State) : RadActs s s := ⟨.refl s 7, rfl⟩

theorem RadActs.trans {s t u : State} (h : RadActs s t) (h' : RadActs t u) : RadActs s u := by
  obtain ⟨hr, hf⟩ := h
  obtain ⟨hr', hf'⟩ := h'
  refine ⟨hr.trans hr', ?_⟩
  rw [hf', hf]

theorem RadActs.of {s t : State} (h : RadFrame s t) (hr : OnlyRing s t 7) : RadActs s t := by
  refine ⟨hr, ?_⟩
  rw [h]

theorem RadActs.ite {c : Prop} [Decidable c] {s t u : State} (h : RadActs s t) (h' : RadActs s u) : RadActs s (if c then t else u) := by
  split <;> assumption

theorem EvtOnly.radActs {s t : State} (h : EvtOnly s t) : RadActs s t := .of h.radFrame (onlyRing_of_rings 7 h.rings)

theorem setRad_radActs (s : State) (f : Rad → Rad) : RadActs s (setRad s f) := .of rfl (onlyRing_of_rings 7 rfl)

theorem drew_radActs (s : State) : RadActs s (drew s) := .of rfl (onlyRing_of_rings 7 rfl)

theorem emitOut_radActs (s : State) (o : Out) : RadActs s (emitOut s o) := .of rfl (onlyRing_of_rings 7 rfl)

theorem sendRead_radActs (s : State) (f a l : Nat) : RadActs s (sendRead s f a l) := .of rfl (onlyRing_of_rings 7 rfl)

theorem setRing_radActs (s : State) (f : Ring → Ring) : RadActs s (setRing s 7 f) := .of rfl (setRing_onlyRing s 7 f)

theorem setOutcome_radActs (s : State) (q : Word) (f : Outcome → Outcome) : RadActs s (setOutcome s 7 q f) := .of rfl (onlyRing_of_rings 7 rfl)

theorem setWork_radActs (s : State) (q : Word) (f : Work → Work) : RadActs s (setWork s 7 q f) := .of rfl (setWork_onlyRing s 7 q f)

theorem returnWith_radActs (s : State) (q : Word) (o : Outcome) : RadActs s (returnWith s 7 q o) :=
  .of (returnWith_radFrame s 7 q o) (returnWith_onlyRing s 7 q o)

theorem beginEmission_radActs (s : State) (q : Word) (o : Outcome) : RadActs s (beginEmission s 7 q o) :=
  .of (beginEmission_radFrame s 7 q o) (beginEmission_onlyRing s 7 q o)

theorem endEmission_radActs (s : State) (q : Word) (f : Outcome → Outcome) : RadActs s (endEmission s 7 q f) :=
  .of (endEmission_radFrame s 7 q f) (endEmission_onlyRing s 7 q f)

theorem raiseC_radActs (s : State) (src scope n : Nat) : RadActs s (raiseC s src scope n) := (raiseC_evtOnly _ _ _ _).radActs

theorem raiseRefused_radActs (s : State) (b : Option Nat) : RadActs s (raiseRefused s b) := by
  unfold raiseRefused
  split
  · exact (raise_evtOnly _ _ _ _).radActs
  · exact (drew_radActs s).trans (raise_evtOnly _ _ _ _).radActs

theorem countDraw_radActs (s : State) : RadActs s (countDraw s) := by
  refine ⟨onlyRing_of_rings 7 rfl, ?_⟩
  unfold countDraw setSec
  dsimp only
  split <;> rfl

theorem radEnd_radActs (s : State) (x : RadTx) (acked noAck stop : Bool) : RadActs s (radEnd s x acked noAck stop) := by
  have ended : RadActs s (endEmission (setTx s none) 7 x.seq (fun _ => radOutcome x acked noAck stop)) :=
    (setRad_radActs s _).trans (endEmission_radActs _ _ _)
  exact .ite ((ended.trans (setRad_radActs _ _)).trans (raiseC_radActs _ _ _ _)) ended

theorem radFail_radActs (s : State) (x : RadTx) (ret : Outcome) (noAck stop : Bool) : RadActs s (radFail s x ret noAck stop) :=
  .ite ((setRad_radActs s _).trans (returnWith_radActs _ _ _)) (radEnd_radActs _ _ _ _ _)

/-- The attempt charged and on its way. -/
def attemptCharged (s : State) (x : RadTx) (d : Desc) : State :=
  setRad (chargeAll s (txChan d) (txCharge s d x.frame)) (fun r => { r with
    tx := some { x with phase := .sending, attempts := x.attempts + 1, units := x.units + txCharge s d x.frame,
                        clamped := x.clamped || decide (usedPower s (txChan d) (reqPower d) ≠ reqPower d) }
    paEn := true })

/-- The outcome of the attempt so far. -/
def attemptOutcome (s : State) (x : RadTx) (d : Desc) : Outcome :=
  radOutcome { x with phase := .sending, attempts := x.attempts + 1, units := x.units + txCharge s d x.frame,
                      clamped := x.clamped || decide (usedPower s (txChan d) (reqPower d) ≠ reqPower d) } false false false

/-- The attempt's outcome entered: the first attempt is the emission point. -/
def attemptEntered (s : State) (x : RadTx) (d : Desc) : State :=
  if x.attempts = 0 then beginEmission (radCount (attemptCharged s x d) 0) 7 x.seq (attemptOutcome s x d)
  else setOutcome (attemptCharged s x d) 7 x.seq (fun _ => attemptOutcome s x d)

theorem sendAttempt_eq (s : State) (x : RadTx) (d : Desc) : sendAttempt s x d =
    emitOut (raiseC (radCount (attemptEntered s x d) 1) Src.radTxAttempt 0xFF 1)
      (.radio (phrOf (bitOf d.p0 23) (bitOf d.p0 24) (psduLen d)) (psduOf (bitOf d.p0 23) x.frame) (txChan d).toNat
        (usedPower s (txChan d) (reqPower d))) := rfl

theorem attemptCharged_radActs (s : State) (x : RadTx) (d : Desc) : RadActs s (attemptCharged s x d) :=
  (setRad_radActs s _).trans (setRad_radActs _ _)

theorem attemptEntered_radActs (s : State) (x : RadTx) (d : Desc) : RadActs s (attemptEntered s x d) :=
  .ite (((attemptCharged_radActs s x d).trans (setRad_radActs _ _)).trans (beginEmission_radActs _ _ _))
    ((attemptCharged_radActs s x d).trans (setOutcome_radActs _ _ _))

theorem sendAttempt_radActs (s : State) (x : RadTx) (d : Desc) : RadActs s (sendAttempt s x d) := by
  rw [sendAttempt_eq]
  exact (((attemptEntered_radActs s x d).trans (setRad_radActs _ _)).trans (raiseC_radActs _ _ _ _)).trans (emitOut_radActs _ _)

theorem tryAttempt_radActs (s : State) (x : RadTx) (w : Work) : RadActs s (tryAttempt s x w) := by
  unfold tryAttempt
  dsimp only
  refine .ite (radFail_radActs _ _ _ _ _) (.ite (setRad_radActs _ _) (.ite ((raiseRefused_radActs _ _).trans (radFail_radActs _ _ _ _ _)) ?_))
  split
  · exact sendAttempt_radActs _ _ _
  · exact .ite ((raiseRefused_radActs _ _).trans (radEnd_radActs _ _ _ _ _))
      (.ite ((raiseRefused_radActs _ _).trans (setRad_radActs _ _)) ((raiseRefused_radActs _ _).trans (radFail_radActs _ _ _ _ _)))

theorem beginBackoff_radActs (s : State) (x : RadTx) (nb be : Nat) : RadActs s (beginBackoff s x nb be) :=
  (setRad_radActs s _).trans (countDraw_radActs _)

theorem beginListen_radActs (s : State) (x : RadTx) (n : Nat) : RadActs s (beginListen s x n) :=
  (setRad_radActs s _).trans (countDraw_radActs _)

theorem beginAccess_radActs (s : State) (x : RadTx) (w : Work) : RadActs s (beginAccess s x w) :=
  .ite (beginBackoff_radActs _ _ _ _) (.ite (beginListen_radActs _ _ _) (tryAttempt_radActs _ _ _))

theorem accessFails_radActs (s : State) (x : RadTx) : RadActs s (accessFails s x) :=
  ((setRad_radActs s _).trans (raiseC_radActs _ _ _ _)).trans (radFail_radActs _ _ _ _ _)

theorem releaseHeld_radActs (s : State) : RadActs s (releaseHeld s) := by
  unfold releaseHeld
  split
  · exact .refl s
  · exact .ite (tryAttempt_radActs _ _ _) (.refl s)

/-! ### What each operation makes of the radio -/

/-- The counters with one of them raised. -/
def Rad.counted (r : Rad) (i : Nat) : Rad := { r with cnt := vset r.cnt i (vget r.cnt i 0 + 1) }

theorem counted_self (r : Rad) {i : Nat} (h : i < 12) : vget (r.counted i).cnt i 0 = vget r.cnt i 0 + 1 := vget_vset_self _ _ _ _ h

theorem counted_ne (r : Rad) {i j : Nat} (h : j ≠ i) : vget (r.counted i).cnt j 0 = vget r.cnt j 0 := vget_vset_ne _ _ _ _ _ h

theorem radEnd_rad (s : State) (x : RadTx) (acked noAck stop : Bool) : (radEnd s x acked noAck stop).rad =
    if noAck then ({ s.rad with tx := none } : Rad).counted 2 else { s.rad with tx := none } := by
  have ended : (endEmission (setTx s none) 7 x.seq (fun _ => radOutcome x acked noAck stop)).rad = { s.rad with tx := none } := rfl
  unfold radEnd
  dsimp only
  split
  · rw [raiseC_rad]
    rfl
  · exact ended

theorem radFail_rad (s : State) (x : RadTx) (ret : Outcome) (noAck stop : Bool) : (radFail s x ret noAck stop).rad =
    if x.attempts ≠ 0 ∧ noAck = true then ({ s.rad with tx := none } : Rad).counted 2 else { s.rad with tx := none } := by
  unfold radFail
  by_cases h : x.attempts = 0
  · rw [if_pos h, if_neg (by simp [h])]
    exact returnWith_rad _ _ _ _
  · rw [if_neg h, radEnd_rad]
    cases noAck <;> simp [h]

theorem accessFails_rad (s : State) (x : RadTx) : (accessFails s x).rad.tx = none ∧ vget (accessFails s x).rad.cnt 3 0 = vget s.rad.cnt 3 0 + 1 := by
  unfold accessFails
  rw [radFail_rad, raiseC_rad]
  split
  · exact ⟨rfl, (counted_ne _ (by decide)).trans (counted_self s.rad (by decide))⟩
  · exact ⟨rfl, counted_self s.rad (by decide)⟩

theorem beginBackoff_eq (s : State) (x : RadTx) (nb be : Nat) : ∃ n, n < 2 ^ be ∧
    beginBackoff s x nb be = { s with free := (beginBackoff s x nb be).free, sec := (beginBackoff s x nb be).sec,
                                      rad := { s.rad with tx := some { x with phase := .csma nb be n } } } :=
  ⟨_, Nat.mod_lt _ (Nat.two_pow_pos be), rfl⟩

theorem beginListen_eq (s : State) (x : RadTx) (l : Nat) : ∃ n, n < 32 ∧
    beginListen s x l = { s with free := (beginListen s x l).free, sec := (beginListen s x l).sec,
                                 rad := { s.rad with tx := some { x with phase := .lbt l n } } } :=
  ⟨_, Nat.mod_lt _ (by decide), rfl⟩

/-- The frame under execution has its work on RAD_TX, and before its first attempt the work has no outcome. -/
theorem radTx_some {s : State} {x : RadTx} {w : Work} (h : radTx s = some (x, w)) :
    s.rad.tx = some x ∧ findWork (ringAt s 7) x.seq = some w ∧ (x.attempts = 0 → w.ret = none ∧ journalOf s 7 x.seq = none) := by
  unfold radTx at h
  cases ht : s.rad.tx with
  | none => simp [ht] at h
  | some y =>
    rw [ht] at h
    dsimp only at h
    cases hw : findWork (ringAt s 7) y.seq with
    | none => simp [hw] at h
    | some v =>
      rw [hw] at h
      dsimp only at h
      split at h
      · exact absurd h nofun
      next hc =>
        cases h
        refine ⟨rfl, hw, fun h0 => ?_⟩
        simpa [h0] using hc

/-- The radio's transmission state is read off the ring, the journal and the radio. -/
theorem radTx_congr {s t : State} (hr : t.rings = s.rings) (hj : t.journal = s.journal) (ht : t.rad.tx = s.rad.tx) : radTx t = radTx s := by
  unfold radTx journalOf
  rw [ringAt_congr hr, hj, ht]

/-! ### An attempt that starts -/

theorem attemptEntered_rad (s : State) (x : RadTx) (d : Desc) : (attemptEntered s x d).rad =
    if x.attempts = 0 then (attemptCharged s x d).rad.counted 0 else (attemptCharged s x d).rad := by
  unfold attemptEntered
  split
  · exact beginEmission_rad _ _ _ _
  · rfl

theorem sendAttempt_rad (s : State) (x : RadTx) (d : Desc) : (sendAttempt s x d).rad = (attemptEntered s x d).rad.counted 1 := by
  rw [sendAttempt_eq, emitOut_rad, raiseC_rad]
  rfl

/-- The radio once an attempt starts: the transmitter on, the attempt sent and counted. -/
theorem sendAttempt_starts (s : State) (x : RadTx) (d : Desc) : (sendAttempt s x d).rad.paEn = true ∧
    vget (sendAttempt s x d).rad.cnt 1 0 = vget s.rad.cnt 1 0 + 1 ∧ (sendAttempt s x d).rad.gov = (attemptCharged s x d).rad.gov ∧
    ∃ y, (sendAttempt s x d).rad.tx = some y ∧ y.phase = .sending ∧ y.attempts = x.attempts + 1 ∧ y.frame = x.frame := by
  rw [sendAttempt_rad, counted_self _ (by decide), attemptEntered_rad]
  split
  · exact ⟨rfl, congrArg (· + 1) (counted_ne _ (by decide)), rfl, _, rfl, rfl, rfl, rfl⟩
  · exact ⟨rfl, rfl, rfl, _, rfl, rfl, rfl, rfl⟩

theorem govUsed_addUnits (g : GovBand) (n : Nat) : govUsed (addUnits g n) = govUsed g + n := by
  unfold govUsed addUnits total
  cases hb : g.buckets with
  | nil => simp
  | cons a l =>
    simp only [List.foldl_cons]
    have shift (l : List Nat) (a b : Nat) : l.foldl (· + ·) (a + b) = l.foldl (· + ·) a + b := by
      induction l generalizing a with
      | nil => rfl
      | cons c l ih => rw [List.foldl_cons, List.foldl_cons, ← ih, Nat.add_right_comm]
    rw [← shift, Nat.zero_add, Nat.zero_add]

/-- Every band that takes the channel is charged, and no other. -/
theorem sendAttempt_charges (s : State) (x : RadTx) (d : Desc) {b : Nat} (hb : b < 8) : govUsed (govAt (sendAttempt s x d) b) =
    govUsed (govAt s b) + if bandTakes (govAt s b) (txChan d) then txCharge s d x.frame else 0 := by
  obtain ⟨-, -, hgov, -⟩ := sendAttempt_starts s x d
  have h : govAt (sendAttempt s x d) b =
      if bandTakes (govAt s b) (txChan d) then addUnits (govAt s b) (txCharge s d x.frame) else govAt s b := by
    unfold govAt
    rw [hgov]
    show vget (vmapIdx (fun _ g => if bandTakes g (txChan d) then addUnits g (txCharge s d x.frame) else g) s.rad.gov) b _ = _
    rw [vget_vmapIdx _ _ _ _ (GovBand.default 0 0 false 0 14 0), if_pos hb]
  rw [h]
  split
  · exact govUsed_addUnits _ _
  · rfl

theorem journalOf_appended (l : List JEntry) (e : JEntry) : ((l ++ [e]).find? (fun j => j.ring.val == e.ring.val && j.seq == e.seq)).isSome = true := by
  rw [List.find?_isSome]
  exact ⟨e, List.mem_append_right _ (List.mem_singleton_self e), by simp⟩

/-- The first attempt enters its outcome. -/
theorem sendAttempt_journal {s : State} {x : RadTx} (h0 : x.attempts = 0) (hj : journalRoom s = true) (d : Desc) :
    (sendAttempt s x d).journal = s.journal ++ [{ ring := 7, seq := x.seq, out := attemptOutcome s x d }] := by
  have hspace : journalSpace (radCount (attemptCharged s x d) 0) = true :=
    (journalSpace_congr (s := s) (t := radCount (attemptCharged s x d) 0) rfl rfl rfl).trans (journalSpace_of_room hj)
  rw [sendAttempt_eq, emitOut_journal, raiseC_journal]
  show (attemptEntered s x d).journal = _
  unfold attemptEntered
  rw [if_pos h0]
  unfold beginEmission
  have hkept : (radCount (attemptCharged s x d) 0).journal = s.journal := by
    simp only [radCount, attemptCharged, chargeAll, setRad_journal]
  rw [if_pos hspace, setWork_journal, emitWork_journal hspace, hkept]

theorem sendAttempt_sends (s : State) (x : RadTx) (d : Desc) : Out.radio (phrOf (bitOf d.p0 23) (bitOf d.p0 24) (psduLen d))
    (psduOf (bitOf d.p0 23) x.frame) (txChan d).toNat (usedPower s (txChan d) (reqPower d)) ∈ (sendAttempt s x d).sent := by
  rw [sendAttempt_eq, emitOut_sent]
  exact List.mem_cons_self ..

/-! ### The governor's answer -/

section
variable {s : State} {x : RadTx} {w : Work} (hpath : radPath s = true) (hpa : s.rad.paEn = false) (hacks : s.rad.acks = [])
  (hring : (ringAt s 7).state ≠ .recovering) (hroom : x.attempts ≠ 0 ∨ journalRoom s = true)
  (hfits : neverFits s (txChan w.d) (txCharge s w.d x.frame) = false)
include hpath hpa hacks hring hroom hfits

/-- An attempt that nothing holds back asks the governor. -/
theorem tryAttempt_asks : tryAttempt s x w = match lacking s (txChan w.d) (txCharge s w.d x.frame) with
    | none => sendAttempt s x w.d
    | some b =>
      if x.attempts ≠ 0 then radEnd (raiseRefused s (some b)) x false false true
      else if s.rad.budgetWait then setTx (raiseRefused s (some b)) (some { x with phase := .waitBudget })
      else radFail (raiseRefused s (some b)) x
        (Outcome.of .retBudget (word (fieldAt b 8 24 + fieldAt (headroom (govAt s b)) 24 0)) 0) false true := by
  have hheld : ¬(s.rad.paEn = true ∨ s.rad.acks ≠ [] ∨ (ringAt s 7).state = .recovering ∨ (x.attempts = 0 ∧ (!journalRoom s) = true)) := by
    rw [hpa, hacks]
    rintro (h | h | h | ⟨h0, hj⟩)
    · exact absurd h nofun
    · exact absurd rfl h
    · exact hring h
    · rcases hroom with h | h
      · exact h h0
      · rw [h] at hj
        exact absurd hj nofun
  unfold tryAttempt
  rw [if_neg (by simp [hpath]), if_neg hheld]
  exact if_neg (by simp [hfits])

theorem tryAttempt_grants (hl : lacking s (txChan w.d) (txCharge s w.d x.frame) = none) : tryAttempt s x w = sendAttempt s x w.d := by
  rw [tryAttempt_asks hpath hpa hacks hring hroom hfits, hl]

theorem tryAttempt_waits {b : Nat} (hl : lacking s (txChan w.d) (txCharge s w.d x.frame) = some b) (h0 : x.attempts = 0)
    (hb : s.rad.budgetWait = true) : (tryAttempt s x w).rad = { s.rad with tx := some { x with phase := .waitBudget } } := by
  rw [tryAttempt_asks hpath hpa hacks hring hroom hfits, hl]
  dsimp only
  rw [if_neg (by simp [h0]), if_pos hb]
  show ({ (raise s _ _ _).rad with tx := _ } : Rad) = _
  rw [raise_rad]
end

/-! ### A RAD_FRAME is taken up -/

/-- The frame under execution as a RAD_FRAME's begins. -/
def radTaken (s : State) (seq : Word) (d : Desc) (frame : List Byte) : RadTx :=
  { seq := seq, frame := securedFrame s d frame, phase := .held, attempts := 0, units := 0, clamped := false }

/-- The state once a frame's bytes are read, before channel access begins. -/
def frameRead (s : State) (seq : Word) (d : Desc) : State :=
  setWork (sendRead s 0 d.addr.toNat d.len.toNat) 7 seq (fun w => { w with stage := .queued })

/-- The state once a frame's read has failed, before the work is returned. -/
def frameLost (s : State) (d : Desc) (res : XferResult) : State :=
  latchFault (setRing (sendRead s 0 d.addr.toNat d.len.toNat) 7 (fun g => { g with dmaErr := true })) (xferKind res) 7 0 d.addr.toNat

section
variable {s : State} {seq : Word} {res : XferResult} {frame : List Byte} {w : Work} (hidle : radTx s = none)
  (hw : workAt s 7 seq 0x0003 .accepted = some w) (hturn : radTurn s seq = true)
include hidle hw hturn

theorem radFrameOp_takes : radFrameOp s seq res frame = match radStatus s w.d with
    | some st => returnWork s 7 seq st
    | none =>
      if !mayMaster s 0 then s
      else if !inWindows s 0 false w.d.addr.toNat w.d.len.toNat then returnWork (ringWindowFault s 7 w.d.addr.toNat) 7 seq .retWindow
      else if res ≠ .ok then returnWork (frameLost s w.d res) 7 seq .retDma
      else if frame.length ≠ w.d.len.toNat then s
      else beginAccess (frameRead s seq w.d) (radTaken s seq w.d frame) w := by
  unfold radFrameOp
  rw [hidle]
  dsimp only
  rw [hw]
  dsimp only
  rw [hturn, Bool.not_true, if_neg Bool.false_ne_true]
  rfl

theorem radFrameOp_returns {st : Status} (hst : radStatus s w.d = some st) :
    radFrameOp s seq res frame = returnWork s 7 seq st := by
  rw [radFrameOp_takes hidle hw hturn, hst]

theorem radFrameOp_outside (hst : radStatus s w.d = none) (hm : mayMaster s 0 = true)
    (hwin : inWindows s 0 false w.d.addr.toNat w.d.len.toNat = false) :
    radFrameOp s seq res frame = returnWork (ringWindowFault s 7 w.d.addr.toNat) 7 seq .retWindow := by
  rw [radFrameOp_takes hidle hw hturn, hst]
  dsimp only
  rw [if_neg (by simp [hm]), if_pos (by simp [hwin])]

theorem radFrameOp_lost (hst : radStatus s w.d = none) (hm : mayMaster s 0 = true)
    (hwin : inWindows s 0 false w.d.addr.toNat w.d.len.toNat = true) (hres : res ≠ .ok) :
    radFrameOp s seq res frame = returnWork (frameLost s w.d res) 7 seq .retDma := by
  rw [radFrameOp_takes hidle hw hturn, hst]
  dsimp only
  rw [if_neg (by simp [hm]), if_neg (by simp [hwin]), if_pos hres]

theorem radFrameOp_accesses (hst : radStatus s w.d = none) (hm : mayMaster s 0 = true)
    (hwin : inWindows s 0 false w.d.addr.toNat w.d.len.toNat = true) (hres : res = .ok) (hlen : frame.length = w.d.len.toNat) :
    radFrameOp s seq res frame = beginAccess (frameRead s seq w.d) (radTaken s seq w.d frame) w := by
  rw [radFrameOp_takes hidle hw hturn, hst]
  dsimp only
  rw [if_neg (by simp [hm]), if_neg (by simp [hwin]), if_neg (by simp [hres]), if_neg (by simp [hlen])]

end

theorem frameLost_radActs (s : State) (d : Desc) (res : XferResult) : RadActs s (frameLost s d res) := by
  have h : RadActs s (setRing (sendRead s 0 d.addr.toNat d.len.toNat) 7 (fun g => { g with dmaErr := true })) :=
    (sendRead_radActs s _ _ _).trans (setRing_radActs _ _)
  refine h.trans (.of ?_ (onlyRing_of_rings 7 (latchFault_rings _ _ _ _ _)))
  unfold RadFrame frameLost
  apply State.eq_of_parts <;> simp

theorem ringWindowFault_radActs (s : State) (a : Nat) : RadActs s (ringWindowFault s 7 a) := by
  refine .of ?_ (ringWindowFault_onlyRing s 7 a)
  unfold RadFrame ringWindowFault
  apply State.eq_of_parts <;> simp

theorem returnWork_radActs (s : State) (q : Word) (st : Status) : RadActs s (returnWork s 7 q st) := returnWith_radActs s q _

theorem radFrameOp_radActs (s : State) (seq : Word) (res : XferResult) (frame : List Byte) : RadActs s (radFrameOp s seq res frame) := by
  unfold radFrameOp
  split
  · exact .ite (releaseHeld_radActs s) (.refl s)
  · split
    · exact .refl s
    next w _ =>
      refine .ite (.refl s) ?_
      split
      · exact returnWork_radActs _ _ _
      · exact .ite (.refl s) (.ite ((ringWindowFault_radActs s _).trans (returnWork_radActs _ _ _))
          (.ite ((frameLost_radActs s w.d res).trans (returnWork_radActs _ _ _)) (.ite (.refl s)
            (((sendRead_radActs s _ _ _).trans (setWork_radActs _ _ _)).trans (beginAccess_radActs _ _ _)))))

theorem radStatus_noPath {s : State} (h : radPath s = false) (d : Desc) : radStatus s d = some .retNoPath := by
  unfold radStatus firstOf
  simp [h]

theorem radStatus_length {s : State} (hp : radPath s = true) {d : Desc} (h : d.len.toNat < 3 ∨ 2047 < d.len.toNat ∨ 2047 < psduLen d) :
    radStatus s d = some .retLength := by
  unfold radStatus firstOf firstOf
  simp only [hp, Bool.not_true]
  rw [if_neg Bool.false_ne_true, if_pos]
  simpa [or_assoc] using h

/-! ### The commands -/

theorem beginAccess_csma {x : RadTx} {w : Work} (h : bitOf w.d.p0 21 = true) (s : State) : beginAccess s x w = beginBackoff s x 0 (minBe s) :=
  if_pos h

theorem beginAccess_lbt {x : RadTx} {w : Work} (h : bitOf w.d.p0 21 = false) (h' : bitOf w.d.p0 22 = true) (s : State) :
    beginAccess s x w = beginListen s x 0 := (if_neg (by simp [h])).trans (if_pos h')

theorem beginAccess_plain {x : RadTx} {w : Work} (h : bitOf w.d.p0 21 = false) (h' : bitOf w.d.p0 22 = false) (s : State) :
    beginAccess s x w = tryAttempt s x w := (if_neg (by simp [h])).trans (if_neg (by simp [h']))

theorem frameRead_ring (s : State) (seq : Word) (d : Desc) : (ringAt (frameRead s seq d) 7).state = (ringAt s 7).state := by
  unfold frameRead setWork
  rw [ringAt_setRing_self _ _ _ (by decide)]
  rfl

/-- What a frame that starts at once leaves. -/
theorem radFrame_sent {s : State} {seq : Word} {w : Work} {frame : List Byte} (hpath : radPath s = true) (hpa : s.rad.paEn = false)
    (hacks : s.rad.acks = []) (hring : (ringAt s 7).state ≠ .recovering) (hroom : journalRoom s = true)
    (hfits : neverFits s (txChan w.d) (txCharge s w.d (securedFrame s w.d frame)) = false)
    (hlack : lacking s (txChan w.d) (txCharge s w.d (securedFrame s w.d frame)) = none) :
    tryAttempt (frameRead s seq w.d) (radTaken s seq w.d frame) w = sendAttempt (frameRead s seq w.d) (radTaken s seq w.d frame) w.d := by
  have hread : frameRead s seq w.d = { s with rings := (frameRead s seq w.d).rings, sent := (frameRead s seq w.d).sent } := rfl
  refine tryAttempt_grants ?_ ?_ ?_ ?_ (.inr ?_) ?_ ?_
  · rw [hread]
    exact hpath
  · rw [hread]
    exact hpa
  · rw [hread]
    exact hacks
  · rw [frameRead_ring]
    exact hring
  · rw [hread]
    exact hroom
  · rw [hread]
    exact hfits
  · rw [hread]
    exact hlack

/-- Work returned after its ring was marked keeps the marks. -/
theorem returnWork_marked {s t : State} {q : Word} {w : Work} (st : Status) (hopen : workOpen s 7 q = some w)
    (hwork : (ringAt t 7).work = (ringAt s 7).work) (hj : t.journal = s.journal) :
    returnedWith (returnWork t 7 q st) 7 q = some (Outcome.of st 0 0) ∧
    (ringAt (returnWork t 7 q st) 7).winErr = (ringAt t 7).winErr ∧ (ringAt (returnWork t 7 q st) 7).dmaErr = (ringAt t 7).dmaErr := by
  obtain ⟨hf, hret, hjn⟩ := workOpen_eq_some.1 hopen
  obtain ⟨l, hl⟩ := ringAt_returnWith t 7 q (Outcome.of st 0 0)
  refine ⟨returnedWith_returnWork (w := w) ?_ hret ?_, ?_⟩
  · rw [findWork, hwork]
    exact hf
  · rw [journalOf, hj]
    exact hjn
  · rw [returnWork, hl]
    exact ⟨rfl, rfl⟩

theorem radFrame_spec (s : State) (seq : Word) (res : XferResult) (frame : List Byte) (w : Work)
    (hidle : radTx s = none) (hw : workAt s 7 seq 0x0003 .accepted = some w) (hturn : radTurn s seq = true) :
    ∃ t, exec (.radFrame seq res frame) s = .next t ∧ OnlyRing s t 7 ∧
      t = { s with hif := t.hif, rings := t.rings, journal := t.journal, rad := t.rad, sec := { s.sec with drbgCount := t.sec.drbgCount, drbgSeed := t.sec.drbgSeed }, evt := t.evt, sent := t.sent, free := t.free } ∧
      (radPath s = false → returnedWith t 7 seq = some (Outcome.of .retNoPath 0 0) ∧ t = { s with rings := t.rings }) ∧
      (radPath s = true → (w.d.len.toNat < 3 ∨ 2047 < w.d.len.toNat ∨ 2047 < psduLen w.d) → returnedWith t 7 seq = some (Outcome.of .retLength 0 0)) ∧
      (radStatus s w.d = none → mayMaster s 0 = true →
        (inWindows s 0 false w.d.addr.toNat w.d.len.toNat = false →
          returnedWith t 7 seq = some (Outcome.of .retWindow 0 0) ∧ (ringAt t 7).winErr = true) ∧
        (inWindows s 0 false w.d.addr.toNat w.d.len.toNat = true →
          (res ≠ .ok → returnedWith t 7 seq = some (Outcome.of .retDma 0 0) ∧ (ringAt t 7).dmaErr = true ∧ t.rad = s.rad) ∧
          (res = .ok → frame.length = w.d.len.toNat → bitOf w.d.p0 21 = true → ∃ k, k < 2 ^ minBe s ∧
            t.rad = { s.rad with tx := some { seq := seq, frame := securedFrame s w.d frame, phase := .csma 0 (minBe s) k,
                                              attempts := 0, units := 0, clamped := false } }) ∧
          (res = .ok → frame.length = w.d.len.toNat → bitOf w.d.p0 21 = false → bitOf w.d.p0 22 = true → ∃ k, k < 32 ∧
            t.rad = { s.rad with tx := some { seq := seq, frame := securedFrame s w.d frame, phase := .lbt 0 k,
                                              attempts := 0, units := 0, clamped := false } }) ∧
          (res = .ok → frame.length = w.d.len.toNat → bitOf w.d.p0 21 = false → bitOf w.d.p0 22 = false → s.rad.paEn = false →
            s.rad.acks = [] → journalRoom s = true →
            neverFits s (txChan w.d) (txCharge s w.d (securedFrame s w.d frame)) = false →
            lacking s (txChan w.d) (txCharge s w.d (securedFrame s w.d frame)) = none →
            t.rad.paEn = true ∧ t.journal.length = s.journal.length + 1 ∧ (journalOf t 7 seq).isSome = true ∧
            Out.radio (phrOf (bitOf w.d.p0 23) (bitOf w.d.p0 24) (psduLen w.d)) (psduOf (bitOf w.d.p0 23) (securedFrame s w.d frame)) (txChan w.d).toNat (usedPower s (txChan w.d) (reqPower w.d)) ∈ t.sent ∧
            ∀ b, b < 8 → govUsed (govAt t b) = govUsed (govAt s b) +
              if bandTakes (govAt s b) (txChan w.d) then txCharge s w.d (securedFrame s w.d frame) else 0))) := by
  obtain ⟨hring, hframe⟩ := radFrameOp_radActs s seq res frame
  obtain ⟨hopen, -, -, hstate⟩ := workAt_eq_some hw
  obtain ⟨hfind, hret, hjn⟩ := workOpen_eq_some.1 hopen
  refine ⟨radFrameOp s seq res frame, rfl, hring, hframe, fun hp => ?_, fun hp hl => ?_, fun hst hm => ⟨fun hwin => ?_, fun hwin =>
    ⟨fun hres => ?_, fun hres hlen hb => ?_, fun hres hlen hb hb' => ?_, fun hres hlen hb hb' hpa hacks hroom hfits hlack => ?_⟩⟩⟩
  · rw [radFrameOp_returns hidle hw hturn (radStatus_noPath hp w.d)]
    exact ⟨returnedWith_returnWork hfind hret hjn, returnWith_frame _ _ _ _⟩
  · rw [radFrameOp_returns hidle hw hturn (radStatus_length hp hl)]
    exact returnedWith_returnWork hfind hret hjn
  · rw [radFrameOp_outside hidle hw hturn hst hm hwin]
    have hmark : ringAt (ringWindowFault s 7 w.d.addr.toNat) 7 = { ringAt s 7 with winErr := true } := by
      rw [ringAt_ringWindowFault, ringAt_setRing_self _ _ _ (by decide)]
    obtain ⟨hback, hwin', -⟩ := returnWork_marked (t := ringWindowFault s 7 w.d.addr.toNat) .retWindow hopen (by rw [hmark]) (by simp [ringWindowFault])
    exact ⟨hback, hwin'.trans (by rw [hmark])⟩
  · rw [radFrameOp_lost hidle hw hturn hst hm hwin hres]
    have hmark : ringAt (frameLost s w.d res) 7 = { ringAt s 7 with dmaErr := true } := by
      rw [frameLost, ringAt_latchFault, ringAt_setRing_self _ _ _ (by decide)]
      rfl
    obtain ⟨hback, -, hdma⟩ := returnWork_marked (t := frameLost s w.d res) .retDma hopen (by rw [hmark]) (by simp [frameLost, sendRead])
    refine ⟨hback, hdma.trans (by rw [hmark]), ?_⟩
    rw [returnWork_rad]
    simp [frameLost, sendRead]
  · rw [radFrameOp_accesses hidle hw hturn hst hm hwin hres hlen, beginAccess_csma hb]
    obtain ⟨n, hn, heq⟩ := beginBackoff_eq (frameRead s seq w.d) (radTaken s seq w.d frame) 0 (minBe (frameRead s seq w.d))
    refine ⟨n, hn, ?_⟩
    rw [heq]
    rfl
  · rw [radFrameOp_accesses hidle hw hturn hst hm hwin hres hlen, beginAccess_lbt hb hb']
    obtain ⟨n, hn, heq⟩ := beginListen_eq (frameRead s seq w.d) (radTaken s seq w.d frame) 0
    refine ⟨n, hn, ?_⟩
    rw [heq]
    rfl
  · have hpath : radPath s = true := by
      by_contra hp
      rw [radStatus_noPath (by simpa using hp)] at hst
      exact absurd hst nofun
    rw [radFrameOp_accesses hidle hw hturn hst hm hwin hres hlen, beginAccess_plain hb hb',
      radFrame_sent hpath hpa hacks hstate hroom hfits hlack]
    have hj := sendAttempt_journal (s := frameRead s seq w.d) (x := radTaken s seq w.d frame) rfl hroom w.d
    refine ⟨(sendAttempt_starts _ _ _).1, ?_, ?_, sendAttempt_sends _ _ _, fun b hb => sendAttempt_charges _ _ _ hb⟩
    · rw [hj, List.length_append]
      rfl
    · unfold journalOf
      rw [hj]
      exact journalOf_appended _ { ring := 7, seq := seq, out := _ }

/-! ### The frame under execution moves -/

section
variable {s : State} {x : RadTx} {w : Work} (hx : radTx s = some (x, w))
include hx

theorem csmaOp_of {nb be k : Nat} (hph : x.phase = .csma nb be k) (busy : Bool) : csmaOp s busy =
    if busy then (if maxBackoffs s < nb + 1 then accessFails s x else beginBackoff s x (nb + 1) (min (be + 1) (maxBe s)))
    else if bitOf w.d.p0 22 then beginListen s x 0 else tryAttempt s x w := by
  unfold csmaOp
  rw [hx]
  dsimp only
  rw [hph]

theorem lbtOp_of {l k : Nat} (hph : x.phase = .lbt l k) (free : Bool) : lbtOp s free =
    if free then tryAttempt s x w else if lbtMax s ≤ l + 1 then accessFails s x else beginListen s x (l + 1) := by
  unfold lbtOp
  rw [hx]
  dsimp only
  rw [hph]

/-- Channel access that fails before the first attempt returns the work. -/
theorem accessFails_returns (h0 : x.attempts = 0) : returnedWith (accessFails s x) 7 x.seq = some (Outcome.of .retBusy 1 0) := by
  obtain ⟨-, hf, hopen⟩ := radTx_some hx
  obtain ⟨hret, hj⟩ := hopen h0
  unfold accessFails radFail
  rw [if_pos h0]
  refine returnedWith_returnWith (w := w) ?_ hret ?_
  · show findWork (ringAt (raiseC (radCount s 3) Src.radCcaBusy 0xFF 1) 7) x.seq = _
    rw [ringAt_congr (raiseC_rings _ _ _ _)]
    exact hf
  · show journalOf (raiseC (radCount s 3) Src.radCcaBusy 0xFF 1) 7 x.seq = _
    rw [journalOf, raiseC_journal]
    exact hj

theorem csmaBusy_spec {nb be k : Nat} (hph : x.phase = .csma nb be k) : ∃ t, exec (.csmaBackoffExpiry true) s = .next t ∧ OnlyRing s t 7 ∧
    t.datum = s.datum ∧
    (nb + 1 ≤ maxBackoffs s → t = { s with free := t.free, sec := t.sec, rad := t.rad } ∧ t.sec.slots = s.sec.slots ∧
      ∃ n, n < 2 ^ min (be + 1) (maxBe s) ∧
        t.rad = { s.rad with tx := some { x with phase := .csma (nb + 1) (min (be + 1) (maxBe s)) n } }) ∧
    (maxBackoffs s < nb + 1 → t.rad.tx = none ∧ vget t.rad.cnt 3 0 = vget s.rad.cnt 3 0 + 1 ∧
      (x.attempts = 0 → returnedWith t 7 x.seq = some (Outcome.of .retBusy 1 0))) := by
  have hexec : exec (.csmaBackoffExpiry true) s =
      .next (if maxBackoffs s < nb + 1 then accessFails s x else beginBackoff s x (nb + 1) (min (be + 1) (maxBe s))) :=
    congrArg Host.Outcome.next ((csmaOp_of hx hph true).trans (if_pos rfl))
  by_cases h : maxBackoffs s < nb + 1
  · rw [if_pos h] at hexec
    obtain ⟨hring, hframe⟩ := accessFails_radActs s x
    obtain ⟨htx, hcnt⟩ := accessFails_rad s x
    exact ⟨_, hexec, hring, by rw [hframe], fun hle => absurd h (by omega), fun _ => ⟨htx, hcnt, accessFails_returns hx⟩⟩
  · rw [if_neg h] at hexec
    obtain ⟨n, hn, heq⟩ := beginBackoff_eq s x (nb + 1) (min (be + 1) (maxBe s))
    refine ⟨_, hexec, (beginBackoff_radActs _ _ _ _).ring, rfl, fun _ => ⟨rfl, countDraw_slots _, n, hn, ?_⟩, fun hlt => absurd hlt h⟩
    rw [heq]

theorem csmaIdle_spec {nb be k : Nat} (hph : x.phase = .csma nb be k) (hlbt : bitOf w.d.p0 22 = true) :
    ∃ t n, exec (.csmaBackoffExpiry false) s = .next t ∧ n < 32 ∧
      t = { s with free := t.free, sec := t.sec, rad := { s.rad with tx := some { x with phase := .lbt 0 n } } } := by
  obtain ⟨n, hn, heq⟩ := beginListen_eq s x 0
  refine ⟨beginListen s x 0, n, congrArg Host.Outcome.next ?_, hn, heq⟩
  rw [csmaOp_of hx hph, if_neg Bool.false_ne_true, if_pos hlbt]

theorem lbtBusy_spec {l k : Nat} (hph : x.phase = .lbt l k) : ∃ t, exec (.lbtListenEnd false) s = .next t ∧ OnlyRing s t 7 ∧ t.datum = s.datum ∧
    (l + 1 < lbtMax s → ∃ n, n < 32 ∧
      t = { s with free := t.free, sec := t.sec, rad := { s.rad with tx := some { x with phase := .lbt (l + 1) n } } }) ∧
    (lbtMax s ≤ l + 1 → t.rad.tx = none ∧ vget t.rad.cnt 3 0 = vget s.rad.cnt 3 0 + 1) := by
  have hexec : exec (.lbtListenEnd false) s = .next (if lbtMax s ≤ l + 1 then accessFails s x else beginListen s x (l + 1)) :=
    congrArg Host.Outcome.next ((lbtOp_of hx hph false).trans (if_neg Bool.false_ne_true))
  by_cases h : lbtMax s ≤ l + 1
  · rw [if_pos h] at hexec
    obtain ⟨hring, hframe⟩ := accessFails_radActs s x
    exact ⟨_, hexec, hring, by rw [hframe], fun hlt => absurd h (by omega), fun _ => accessFails_rad s x⟩
  · rw [if_neg h] at hexec
    exact ⟨_, hexec, (beginListen_radActs _ _ _).ring, rfl, fun _ => beginListen_eq s x (l + 1), fun hle => absurd hle h⟩

theorem lbtFree_spec {l k : Nat} (hph : x.phase = .lbt l k) (hpath : radPath s = true) (hpa : s.rad.paEn = false) (hacks : s.rad.acks = [])
    (hring : (ringAt s 7).state ≠ .recovering) (hroom : x.attempts ≠ 0 ∨ journalRoom s = true)
    (hfits : neverFits s (txChan w.d) (txCharge s w.d x.frame) = false) :
    ∃ t, exec (.lbtListenEnd true) s = .next t ∧ OnlyRing s t 7 ∧
      (lacking s (txChan w.d) (txCharge s w.d x.frame) = none → t.rad.paEn = true ∧ vget t.rad.cnt 1 0 = vget s.rad.cnt 1 0 + 1 ∧
        ∃ y, t.rad.tx = some y ∧ y.phase = .sending ∧ y.attempts = x.attempts + 1 ∧ y.frame = x.frame) ∧
      (∀ b, lacking s (txChan w.d) (txCharge s w.d x.frame) = some b → x.attempts = 0 → s.rad.budgetWait = true →
        t.rad = { s.rad with tx := some { x with phase := .waitBudget } }) := by
  refine ⟨tryAttempt s x w, congrArg Host.Outcome.next ((lbtOp_of hx hph true).trans (if_pos rfl)), (tryAttempt_radActs s x w).ring, fun hl => ?_,
    fun b hl h0 hb => tryAttempt_waits hpath hpa hacks hring hroom hfits hl h0 hb⟩
  rw [tryAttempt_grants hpath hpa hacks hring hroom hfits hl]
  obtain ⟨h1, h2, -, h3⟩ := sendAttempt_starts s x w.d
  exact ⟨h1, h2, h3⟩

/-! ### The end of a transmission, and its acknowledgement -/

theorem radioTxEndOp_of (hpa : s.rad.paEn = true) (hph : x.phase = .sending) : radioTxEndOp s =
    if frameAr x.frame then setTx (setRad s (fun r => { r with paEn := false })) (some { x with phase := .waitAck })
    else radEnd (setRad s (fun r => { r with paEn := false })) x false false false := by
  have h : radTx (setRad s (fun r => { r with paEn := false })) = some (x, w) := (radTx_congr rfl rfl rfl).trans hx
  unfold radioTxEndOp
  rw [hpa, Bool.not_true, if_neg Bool.false_ne_true]
  dsimp only
  rw [h]
  dsimp only
  rw [if_pos hph]

/-- The radio once the last symbol has left. -/
theorem radioTxEndOp_rad (hpa : s.rad.paEn = true) (hph : x.phase = .sending) : (radioTxEndOp s).rad =
    if frameAr x.frame then { s.rad with paEn := false, tx := some { x with phase := .waitAck } } else { s.rad with paEn := false, tx := none } := by
  rw [radioTxEndOp_of hx hpa hph]
  split
  · rfl
  · exact radEnd_rad _ _ _ _ _

theorem radioTxEndOp_radActs (hpa : s.rad.paEn = true) (hph : x.phase = .sending) : RadActs s (radioTxEndOp s) := by
  rw [radioTxEndOp_of hx hpa hph]
  exact .ite ((setRad_radActs s _).trans (setRad_radActs _ _)) ((setRad_radActs s _).trans (radEnd_radActs _ _ _ _ _))
end

theorem foldl_endEmission_onlyRing (l : List Work) (s : State) : OnlyRing s (l.foldl (fun t w => endEmission t 7 w.seq Outcome.cut) s) 7 := by
  induction l generalizing s with
  | nil => exact .refl s 7
  | cons w l ih => exact (endEmission_onlyRing s 7 w.seq _).trans (ih _)

theorem radCut_onlyRing (s : State) : OnlyRing s (radCut s) 7 := by
  unfold radCut
  dsimp only
  refine OnlyRing.trans ?_ (setRad_radActs _ _).ring
  split
  · exact .refl s 7
  · split
    · exact .refl s 7
    · split
      · exact foldl_endEmission_onlyRing _ s
      · exact (radEnd_radActs _ _ _ _ _).ring

theorem radOff_spec (s : State) : OnlyRing s (radOff s) 7 ∧ (radOff s).pwr.domRad = false ∧ (radOff s).rad.paEn = false ∧
    (radOff s).rad.tx = none :=
  ⟨(radCut_onlyRing s).trans (onlyRing_of_rings 7 rfl), rfl, rfl, rfl⟩

theorem radFollow_enabled {s : State} (h : s.rad.en = true) : radFollow s = s := if_pos (by simp [h])

theorem radioTxEnd_spec {s : State} {x : RadTx} {w : Work} (hx : radTx s = some (x, w)) (hpa : s.rad.paEn = true) (hph : x.phase = .sending) :
    ∃ t, exec .radioTxEnd s = .next t ∧ OnlyRing s t 7 ∧ t.rad.paEn = false ∧
      (s.rad.en = true → frameAr x.frame = true → t.rad = { s.rad with paEn := false, tx := some { x with phase := .waitAck } }) ∧
      (s.rad.en = true → frameAr x.frame = false → t.rad.tx = none) ∧
      (s.rad.en = false → s.pwr.domRad = true → s.pwr.woken.contains .rad = false → t.pwr.domRad = false) := by
  have hrad := radioTxEndOp_rad hx hpa hph
  obtain ⟨hring, hframe⟩ := radioTxEndOp_radActs hx hpa hph
  have hpaEn : (radioTxEndOp s).rad.paEn = false := by
    rw [hrad]
    split <;> rfl
  have hen : (radioTxEndOp s).rad.en = s.rad.en := by
    rw [hrad]
    split <;> rfl
  have hpwr : (radioTxEndOp s).pwr = s.pwr := by rw [hframe]
  obtain ⟨hoffRing, hoffDom, hoffPa, -⟩ := radOff_spec (radioTxEndOp s)
  refine ⟨radFollow (radioTxEndOp s), rfl, ?_, ?_, fun he har => ?_, fun he har => ?_, fun he hd hw => ?_⟩
  · unfold radFollow
    split
    · exact hring
    · exact hring.trans hoffRing
  · unfold radFollow
    split
    · exact hpaEn
    · exact hoffPa
  · rw [radFollow_enabled (hen.trans he), hrad, if_pos har]
  · rw [radFollow_enabled (hen.trans he), hrad, if_neg (by simp [har])]
  · unfold radFollow
    rw [hen, hpaEn, hpwr, he, hd, hw]
    exact hoffDom

theorem radFcs_length (four : Bool) (b : List Byte) : (radFcs four b).length = fcsBytes four := by
  unfold radFcs fcsBytes
  cases four <;> simp [bytesLE]

/-- The FCS of a PSDU is stripped off again. -/
theorem fcsStripped_psduOf (four : Bool) (a : List Byte) : fcsStripped four (psduOf four a) = some a := by
  have hlen : (psduOf four a).length = a.length + fcsBytes four := by rw [psduOf, List.length_append, radFcs_length]
  have htake : (psduOf four a).take ((psduOf four a).length - fcsBytes four) = a := by
    rw [hlen, Nat.add_sub_cancel, psduOf, List.take_left']
    rfl
  unfold fcsStripped
  dsimp only
  rw [htake, if_pos ⟨by omega, rfl⟩]

theorem radioAckOp_ignores {s : State} {x : RadTx} {w : Work} (hx : radTx s = some (x, w)) {p : List Byte} {q : Bool}
    (h : x.phase ≠ .waitAck ∨ ackMatches x.frame p q = false) : radioAckOp s p q = s := by
  unfold radioAckOp
  rw [hx]
  dsimp only
  rw [if_neg]
  rintro ⟨h1, h2⟩
  rcases h with h | h
  · exact h h1
  · rw [h] at h2
    exact absurd h2 nofun

theorem radioAckOp_ends {s : State} {x : RadTx} {w : Work} (hx : radTx s = some (x, w)) {p : List Byte} {q : Bool}
    (hph : x.phase = .waitAck) (h : ackMatches x.frame p q = true) : radioAckOp s p q = radEnd s x true false false := by
  unfold radioAckOp
  rw [hx]
  dsimp only
  rw [if_pos ⟨hph, h⟩]

theorem find_mapIf {α : Type} (p : α → Bool) (f : α → α) (hf : ∀ a, p (f a) = p a) (l : List α) :
    (mapIf p f l).find? p = (l.find? p).map f := by
  induction l with
  | nil => rfl
  | cons a l ih =>
    show ((if p a then f a else a) :: mapIf p f l).find? p = _
    cases hp : p a with
    | true =>
      rw [if_pos rfl, List.find?_cons_of_pos ((hf a).trans hp), List.find?_cons_of_pos hp]
      rfl
    | false => rw [if_neg Bool.false_ne_true, List.find?_cons_of_neg (by simp [hp]), List.find?_cons_of_neg (by simp [hp]), ih]

/-- The outcome of emitted work becomes the final one. -/
theorem journalOf_endEmission {s : State} {r : Nat} {q : Word} {e : JEntry} (h : journalOf s r q = some e) (o : Outcome) :
    (journalOf (endEmission s r q (fun _ => o)) r q).map (·.out) = some o := by
  have hj : (endEmission s r q (fun _ => o)).journal =
      mapIf (fun j => j.ring.val == r && j.seq == q) (fun j => { j with out := o }) s.journal := rfl
  unfold journalOf at h ⊢
  rw [hj, find_mapIf _ (fun j : JEntry => { j with out := o }) (fun _ => rfl), h]
  rfl

theorem radioAck_spec {s : State} {x : RadTx} {w : Work} (hx : radTx s = some (x, w)) (q : Bool) (a : List Byte) :
    ∃ t, exec (.radioAckReceived (psduOf q a) q) s = .next t ∧ OnlyRing s t 7 ∧
      (x.phase ≠ .waitAck ∨ frameType a ≠ 2 ∨ frameSeq a ≠ frameSeq x.frame → t = s) ∧
      (x.phase = .waitAck → frameType a = 2 → frameSeq a = frameSeq x.frame → t.rad = { s.rad with tx := none } ∧ t.evt = s.evt ∧
        ∀ e, journalOf s 7 x.seq = some e → (journalOf t 7 x.seq).map (·.out) = some (radOutcome x true false false)) := by
  have hmatch : ackMatches x.frame (psduOf q a) q = (decide (frameType a = 2) && decide (frameSeq a = frameSeq x.frame)) := by
    unfold ackMatches
    rw [fcsStripped_psduOf]
  by_cases h : x.phase = .waitAck ∧ frameType a = 2 ∧ frameSeq a = frameSeq x.frame
  · obtain ⟨hph, ht, hs⟩ := h
    refine ⟨radEnd s x true false false, congrArg Host.Outcome.next (radioAckOp_ends hx hph (by rw [hmatch]; simp [ht, hs])),
      (radEnd_radActs _ _ _ _ _).ring, fun hn => ?_, fun _ _ _ => ⟨radEnd_rad _ _ _ _ _, rfl, fun e he => ?_⟩⟩
    · rcases hn with hn | hn | hn
      · exact absurd hph hn
      · exact absurd ht hn
      · exact absurd hs hn
    · exact journalOf_endEmission (s := setTx s none) he _
  · refine ⟨s, congrArg Host.Outcome.next (radioAckOp_ignores hx ?_), .refl s 7, fun _ => rfl, fun h1 h2 h3 => absurd ⟨h1, h2, h3⟩ h⟩
    rw [hmatch]
    by_cases hph : x.phase = .waitAck
    · refine .inr ?_
      by_contra hc
      rw [Bool.not_eq_false, Bool.and_eq_true, decide_eq_true_eq, decide_eq_true_eq] at hc
      exact h ⟨hph, hc⟩
    · exact .inl hph

theorem radioAckTimeout_spec {s : State} {x : RadTx} {w : Work} (hx : radTx s = some (x, w)) (hph : x.phase = .waitAck) :
    ∃ t, exec .radioAckTimeout s = .next t ∧ OnlyRing s t 7 ∧
      (x.attempts ≤ bits w.d.p0 27 25 → bitOf w.d.p0 21 = true → ∃ n, n < 2 ^ minBe s ∧
        t = { s with free := t.free, sec := t.sec, rad := { s.rad with tx := some { x with phase := .csma 0 (minBe s) n } } }) ∧
      (bits w.d.p0 27 25 < x.attempts → t.rad.tx = none ∧ vget t.rad.cnt 2 0 = vget s.rad.cnt 2 0 + 1) := by
  have hexec : exec .radioAckTimeout s =
      .next (if x.attempts ≤ bits w.d.p0 27 25 then beginAccess s x w else radEnd s x false true false) := by
    refine congrArg Host.Outcome.next ?_
    unfold radioAckTimeoutOp
    rw [hx]
    dsimp only
    rw [if_pos hph]
  by_cases h : x.attempts ≤ bits w.d.p0 27 25
  · rw [if_pos h] at hexec
    refine ⟨_, hexec, (beginAccess_radActs _ _ _).ring, fun _ hb => ?_, fun hlt => absurd h (by omega)⟩
    rw [beginAccess_csma hb]
    exact beginBackoff_eq s x 0 (minBe s)
  · rw [if_neg h] at hexec
    refine ⟨_, hexec, (radEnd_radActs _ _ _ _ _).ring, fun hle => absurd hle h, fun _ => ?_⟩
    rw [radEnd_rad]
    exact ⟨rfl, counted_self _ (by decide)⟩

/-- Settles O36: a RAD_FRAME is taken up by its checks, and the frame under execution moves through access, transmission and acknowledgement. -/
theorem radioFramesSent : Obligations.RadioFramesSent := by
  refine ⟨fun s seq res frame w hidle hw hturn => radFrame_spec s seq res frame w hidle hw hturn, fun s x w hx => ⟨fun nb be k hph => csmaBusy_spec hx hph,
    fun nb be k hph hl => csmaIdle_spec hx hph hl, fun l k hph => lbtBusy_spec hx hph,
    fun l k hph hpath hpa hacks hring hroom hfits => lbtFree_spec hx hph hpath hpa hacks hring hroom hfits,
    fun hpa hph => radioTxEnd_spec hx hpa hph, fun q p hp => ?_, fun q a => radioAck_spec hx q a, fun hph => radioAckTimeout_spec hx hph⟩⟩
  refine congrArg Host.Outcome.next (radioAckOp_ignores hx (.inr ?_))
  unfold ackMatches
  rw [hp]

end Sys2Proof.Machine


/-! # Radio frames received, and the device table (O37) -/

namespace Sys2Proof.Machine

open Sys2Proof

/-! ### Reception -/

/-- What a reception leaves: the rings, the journal and the frame under execution stay. -/
def RxKeeps (s t : State) : Prop := t.rings = s.rings ∧ t.journal = s.journal ∧ t.rad.tx = s.rad.tx

theorem RxKeeps.trans {s t u : State} (h : RxKeeps s t) (h' : RxKeeps t u) : RxKeeps s u := by
  obtain ⟨h1, h2, h3⟩ := h
  obtain ⟨k1, k2, k3⟩ := h'
  exact ⟨k1.trans h1, k2.trans h2, k3.trans h3⟩

theorem RxKeeps.refl (s : State) : RxKeeps s s := ⟨rfl, rfl, rfl⟩

/-- A frame that fails its security is counted. -/
def secFailed (s : State) : State := raiseC (radCount s 7) Src.radRxSecFail 0xFF 1

theorem secFailed_rad (s : State) : (secFailed s).rad = s.rad.counted 7 := raiseC_rad _ _ _ _

theorem secFailed_keeps (s : State) : RxKeeps s (secFailed s) := by
  refine ⟨raiseC_rings _ _ _ _, raiseC_journal _ _ _ _, ?_⟩
  rw [secFailed_rad]
  rfl

theorem radVerify_plain {s : State} {h : MacHdr} (hs : h.secured = false) (b : List Byte) : radVerify s h b = (s, some (b, 31)) :=
  if_pos (by simp [hs])

theorem radVerify_fails {s : State} {h : MacHdr} {b : List Byte} (hs : h.secured = true) (hd : devOf s h.src = none ∨
    ∃ i, devOf s h.src = some i ∧ (radKey s (devHandle (devAt s i)) = false ∨ openFrame s i h b = none)) : radVerify s h b = (secFailed s, none) := by
  unfold radVerify
  rw [if_neg (by simp [hs])]
  rcases hd with hd | ⟨i, hd, hk | ho⟩
  · rw [hd]
    rfl
  · rw [hd]
    exact if_pos (by simp [hk])
  · rw [hd]
    dsimp only
    split
    · rfl
    · rw [ho]
      rfl

theorem radVerify_opens {s : State} {h : MacHdr} {b x : List Byte} {i : Nat} {c : Word} (hs : h.secured = true) (hd : devOf s h.src = some i)
    (hk : radKey s (devHandle (devAt s i)) = true) (ho : openFrame s i h b = some x) (hc : h.counter = some c) : radVerify s h b =
      if c.toNat < (vget (devAt s i) 3 0).toNat then (radCount s 8, none) else (setFcMin s i c, some (x, i)) := by
  unfold radVerify
  rw [if_neg (by simp [hs]), hd]
  dsimp only
  rw [if_neg (by simp [hk]), ho]
  dsimp only
  rw [hc]
  rfl

theorem radVerify_keeps (s : State) (h : MacHdr) (b : List Byte) : RxKeeps s (radVerify s h b).1 := by
  have failed : RxKeeps s (raiseC (radCount s 7) Src.radRxSecFail 0xFF 1) := secFailed_keeps s
  unfold radVerify
  split
  · exact .refl s
  dsimp only
  split
  · exact failed
  split
  · exact failed
  split
  · exact failed
  split
  · exact ⟨rfl, rfl, rfl⟩
  · exact ⟨rfl, rfl, rfl⟩

theorem radStore_keeps (s : State) (f : RadRx) (b : List Byte) (sec : Bool) (idx : Nat) : RxKeeps s (radStore s f b sec idx) := by
  unfold radStore
  split <;> exact ⟨rfl, rfl, rfl⟩

theorem radStore_full {s : State} {f : RadRx} (h : f.roomAtSfd = false ∨ 2 ≤ s.rad.store.length) (b : List Byte) (sec : Bool) (idx : Nat) :
    radStore s f b sec idx = radCount s 9 := if_pos (by simpa using h)

/-- A frame with a place in the store is counted and stored, its acknowledgement due. -/
theorem radStore_stores {s : State} {f : RadRx} (hr : f.roomAtSfd = true) (hl : s.rad.store.length < 2) (b : List Byte) (sec : Bool) (idx : Nat) :
    vget (radStore s f b sec idx).rad.cnt 4 0 = vget s.rad.cnt 4 0 + 1 ∧
    (radStore s f b sec idx).rad.store.map (·.body) = s.rad.store.map (·.body) ++ [b] ∧
    (radStore s f b sec idx).rad.acks.length = s.rad.acks.length + (if ackWanted s b then 1 else 0) := by
  unfold radStore
  rw [if_neg (by rw [hr]; simpa using hl)]
  refine ⟨counted_self s.rad (by decide), List.map_append .., ?_⟩
  show (if ackWanted s b then s.rad.acks ++ [_] else s.rad.acks).length = _
  split
  · exact List.length_append
  · rfl

theorem radStore_dev (s : State) (f : RadRx) (b : List Byte) (sec : Bool) (idx : Nat) : (radStore s f b sec idx).rad.dev = s.rad.dev := by
  unfold radStore
  split <;> rfl

theorem devOf_lt {s : State} {a : Nat × Nat} {i : Nat} (h : devOf s a = some i) : i < 31 := lt_of_find_range h

theorem setFcMin_fc {s : State} {i : Nat} (hi : i < 31) {c : Word} (hc : c.toNat < 2 ^ 32 - 1) : vget (devAt (setFcMin s i c) i) 3 0 = c + 1 := by
  have h : devAt (setFcMin s i c) i = vset (devAt s i) 3 (nextFc s c) := vget_vset_self _ _ _ _ hi
  rw [h, vget_vset_self _ _ _ _ (by decide), nextFc, if_neg (by omega)]

theorem setFcMin_store (s : State) (i : Nat) (c : Word) : (setFcMin s i c).rad.store = s.rad.store := rfl

/-- A frame that has passed the FCS and the address goes through its security to the store. -/
def heardFrame (s : State) (f : RadRx) (h : MacHdr) (b : List Byte) : State :=
  match radVerify s h b with
  | (s1, none) => s1
  | (s1, some (x, idx)) => radStore s1 f x h.secured idx

theorem heardFrame_keeps (s : State) (f : RadRx) (h : MacHdr) (b : List Byte) : RxKeeps s (heardFrame s f h b) := by
  have hv := radVerify_keeps s h b
  unfold heardFrame
  split
  next s1 e =>
    rw [e] at hv
    exact hv
  next s1 x idx e =>
    rw [e] at hv
    exact hv.trans (radStore_keeps _ _ _ _ _)

section
variable {s : State} {f : RadRx} (hen : s.rad.en = true) (hpa : s.rad.paEn = false) (hd : s.pwr.domRad = true)
include hen hpa hd

theorem radioRxOp_badFcs (h : fcsStripped f.fcs4 f.psdu = none) : radioRxOp s f = radCount s 5 := by
  unfold radioRxOp
  rw [if_neg (by simp [hen, hpa, hd]), h]

theorem radioRxOp_foreign {b : List Byte} (hb : fcsStripped f.fcs4 f.psdu = some b)
    (h : macHdr b = none ∨ hostKind b = false ∨ ∃ x, macHdr b = some x ∧ addressed s x = false) : radioRxOp s f = radCount s 6 := by
  unfold radioRxOp
  rw [if_neg (by simp [hen, hpa, hd]), hb]
  dsimp only
  split
  · rfl
  next y hy =>
    refine if_pos ?_
    rcases h with h | h | ⟨x, hx, ha⟩
    · rw [h] at hy
      exact absurd hy nofun
    · simp [h]
    · rw [hx] at hy
      cases hy
      simp [ha]

theorem radioRxOp_ours {b : List Byte} (hb : fcsStripped f.fcs4 f.psdu = some b) {h : MacHdr} (hh : macHdr b = some h)
    (hk : hostKind b = true) (ha : addressed s h = true) : radioRxOp s f = heardFrame s f h b := by
  unfold radioRxOp
  rw [if_neg (by simp [hen, hpa, hd]), hb]
  dsimp only
  rw [hh]
  dsimp only
  rw [if_neg (by simp [hk, ha])]
  rfl
end

theorem heardFrame_verified {s s1 : State} {f : RadRx} {h : MacHdr} {b x : List Byte} {i : Nat} (hv : radVerify s h b = (s1, some (x, i))) :
    heardFrame s f h b = radStore s1 f x h.secured i := by
  unfold heardFrame
  rw [hv]

theorem heardFrame_discarded {s s1 : State} {f : RadRx} {h : MacHdr} {b : List Byte} (hv : radVerify s h b = (s1, none)) : heardFrame s f h b = s1 := by
  unfold heardFrame
  rw [hv]

theorem radioRxOp_keeps (s : State) (f : RadRx) : RxKeeps s (radioRxOp s f) := by
  unfold radioRxOp
  split
  · exact .refl s
  split
  · exact ⟨rfl, rfl, rfl⟩
  split
  · exact ⟨rfl, rfl, rfl⟩
  split
  · exact ⟨rfl, rfl, rfl⟩
  · exact heardFrame_keeps s f _ _

theorem radioFrameReceived_spec (s : State) (f : RadRx) : ∃ t, exec (.radioFrameReceived f) s = .next t ∧ t.rings = s.rings ∧ t.journal = s.journal ∧
    t.rad.tx = s.rad.tx ∧
    ((s.rad.en = false ∨ s.rad.paEn = true ∨ s.pwr.domRad = false) → t = s) ∧
    (s.rad.en = true → s.rad.paEn = false → s.pwr.domRad = true →
      (fcsStripped f.fcs4 f.psdu = none → t = { s with rad := { s.rad with cnt := vset s.rad.cnt 5 (vget s.rad.cnt 5 0 + 1) } }) ∧
      (∀ b, fcsStripped f.fcs4 f.psdu = some b →
        ((macHdr b = none ∨ hostKind b = false ∨ ∃ h, macHdr b = some h ∧ addressed s h = false) →
          t = { s with rad := { s.rad with cnt := vset s.rad.cnt 6 (vget s.rad.cnt 6 0 + 1) } }) ∧
        (∀ h, macHdr b = some h → hostKind b = true → addressed s h = true →
          (h.secured = false →
            (f.roomAtSfd = false ∨ 2 ≤ s.rad.store.length → t.rad.store = s.rad.store ∧ vget t.rad.cnt 9 0 = vget s.rad.cnt 9 0 + 1) ∧
            (f.roomAtSfd = true → s.rad.store.length < 2 → vget t.rad.cnt 4 0 = vget s.rad.cnt 4 0 + 1 ∧
              t.rad.store.map (·.body) = s.rad.store.map (·.body) ++ [b] ∧
              t.rad.acks.length = s.rad.acks.length + if ackWanted s b then 1 else 0)) ∧
          (h.secured = true → (devOf s h.src = none ∨ ∃ i, devOf s h.src = some i ∧
              (radKey s (devHandle (devAt s i)) = false ∨ openFrame s i h b = none)) →
            t.rad.store = s.rad.store ∧ t.rad.acks = s.rad.acks ∧ t.rad.dev = s.rad.dev ∧ vget t.rad.cnt 7 0 = vget s.rad.cnt 7 0 + 1) ∧
          (∀ i x c, h.secured = true → devOf s h.src = some i → radKey s (devHandle (devAt s i)) = true → openFrame s i h b = some x →
            h.counter = some c →
            (c.toNat < (vget (devAt s i) 3 0).toNat →
              t = { s with rad := { s.rad with cnt := vset s.rad.cnt 8 (vget s.rad.cnt 8 0 + 1) } }) ∧
            ((vget (devAt s i) 3 0).toNat ≤ c.toNat →
              (c.toNat < 2 ^ 32 - 1 → vget (devAt t i) 3 0 = c + 1) ∧
              (f.roomAtSfd = true → s.rad.store.length < 2 → t.rad.store.map (·.body) = s.rad.store.map (·.body) ++ [x])))))) := by
  obtain ⟨hrings, hjournal, htx⟩ := radioRxOp_keeps s f
  refine ⟨radioRxOp s f, rfl, hrings, hjournal, htx, fun h => ?_, fun hen hpa hd => ⟨fun hb => radioRxOp_badFcs hen hpa hd hb, fun b hb =>
    ⟨fun h => radioRxOp_foreign hen hpa hd hb h, fun h hh hk ha => ?_⟩⟩⟩
  · exact if_pos (by simpa [or_assoc] using h)
  · rw [radioRxOp_ours hen hpa hd hb hh hk ha]
    refine ⟨fun hs => ?_, fun hs hbad => ?_, fun i x c hs hdev hkey ho hc => ⟨fun hlt => ?_, fun hle => ?_⟩⟩
    · rw [heardFrame_verified (radVerify_plain hs b)]
      refine ⟨fun hfull => ?_, fun hr hl => radStore_stores hr hl b _ _⟩
      rw [radStore_full hfull]
      exact ⟨rfl, counted_self s.rad (by decide)⟩
    · rw [heardFrame_discarded (radVerify_fails hs hbad), secFailed_rad]
      exact ⟨rfl, rfl, rfl, counted_self s.rad (by decide)⟩
    · have hv := radVerify_opens hs hdev hkey ho hc
      rw [if_pos hlt] at hv
      exact heardFrame_discarded hv
    · have hv := radVerify_opens hs hdev hkey ho hc
      rw [if_neg (by omega)] at hv
      rw [heardFrame_verified hv]
      refine ⟨fun hmax => ?_, fun hr hl => (radStore_stores (s := setFcMin s i c) hr hl x _ _).2.1⟩
      unfold devAt
      rw [radStore_dev]
      exact setFcMin_fc (devOf_lt hdev) hmax

/-! ### An acknowledgement leaves -/

/-- The acknowledgements due and the count of suppressed ones stay. -/
def AcksKept (s t : State) : Prop := t.rad.acks = s.rad.acks ∧ vget t.rad.cnt 11 0 = vget s.rad.cnt 11 0

theorem AcksKept.refl (s : State) : AcksKept s s := ⟨rfl, rfl⟩

theorem AcksKept.trans {s t u : State} (h : AcksKept s t) (h' : AcksKept t u) : AcksKept s u := by
  obtain ⟨h1, h2⟩ := h
  obtain ⟨k1, k2⟩ := h'
  exact ⟨k1.trans h1, k2.trans h2⟩

theorem AcksKept.of_rad {s t : State} (h : t.rad = s.rad) : AcksKept s t := by
  unfold AcksKept
  rw [h]
  exact ⟨rfl, rfl⟩

theorem AcksKept.counted {s t : State} {r : Rad} (h : t.rad = r.counted 2) (ha : r.acks = s.rad.acks) (hc : r.cnt = s.rad.cnt) : AcksKept s t := by
  unfold AcksKept
  rw [h, counted_ne _ (by decide), hc]
  exact ⟨ha, rfl⟩

theorem radEnd_acksKept (s : State) (x : RadTx) (acked noAck stop : Bool) : AcksKept s (radEnd s x acked noAck stop) := by
  have h := radEnd_rad s x acked noAck stop
  cases noAck with
  | true => exact .counted h rfl rfl
  | false =>
    unfold AcksKept
    rw [h]
    exact ⟨rfl, rfl⟩

theorem radFail_acksKept (s : State) (x : RadTx) (ret : Outcome) (noAck stop : Bool) : AcksKept s (radFail s x ret noAck stop) := by
  have h := radFail_rad s x ret noAck stop
  split at h
  · exact .counted h rfl rfl
  · unfold AcksKept
    rw [h]
    exact ⟨rfl, rfl⟩

theorem attemptCharged_kept (s : State) (x : RadTx) (d : Desc) :
    (attemptCharged s x d).rad.acks = s.rad.acks ∧ (attemptCharged s x d).rad.cnt = s.rad.cnt := by
  dsimp only [attemptCharged, chargeAll, setRad]
  exact ⟨rfl, rfl⟩

theorem counted_acks (r : Rad) (i : Nat) : (r.counted i).acks = r.acks := rfl

theorem sendAttempt_acksKept (s : State) (x : RadTx) (d : Desc) : AcksKept s (sendAttempt s x d) := by
  obtain ⟨hacks, hcnt⟩ := attemptCharged_kept s x d
  unfold AcksKept
  rw [sendAttempt_rad, counted_ne _ (by decide), counted_acks, attemptEntered_rad]
  split
  · rw [counted_acks, counted_ne _ (by decide), hacks, hcnt]
    exact ⟨rfl, rfl⟩
  · rw [hacks, hcnt]
    exact ⟨rfl, rfl⟩

theorem raiseRefused_acksKept (s : State) (b : Option Nat) : AcksKept s (raiseRefused s b) := by
  unfold raiseRefused
  split
  · exact .of_rad (raise_rad _ _ _ _)
  · exact .of_rad ((raise_rad _ _ _ _).trans rfl)

theorem setTx_acksKept (s : State) (y : Option RadTx) : AcksKept s (setTx s y) := ⟨rfl, rfl⟩

theorem AcksKept.ite {c : Prop} [Decidable c] {s t u : State} (h : AcksKept s t) (h' : AcksKept s u) : AcksKept s (if c then t else u) := by
  split <;> assumption

theorem tryAttempt_acksKept (s : State) (x : RadTx) (w : Work) : AcksKept s (tryAttempt s x w) := by
  unfold tryAttempt
  dsimp only
  refine .ite (radFail_acksKept _ _ _ _ _) (.ite (setTx_acksKept _ _) (.ite ((raiseRefused_acksKept _ _).trans (radFail_acksKept _ _ _ _ _)) ?_))
  split
  · exact sendAttempt_acksKept _ _ _
  · exact .ite ((raiseRefused_acksKept _ _).trans (radEnd_acksKept _ _ _ _ _))
      (.ite ((raiseRefused_acksKept _ _).trans (setTx_acksKept _ _)) ((raiseRefused_acksKept _ _).trans (radFail_acksKept _ _ _ _ _)))

theorem releaseHeld_acksKept (s : State) : AcksKept s (releaseHeld s) := by
  unfold releaseHeld
  split
  · exact .refl s
  · exact .ite (tryAttempt_acksKept _ _ _) (.refl s)

/-- The first acknowledgement due is taken from the list. -/
def ackTaken (s : State) (rest : List RadAck) : State := setRad s (fun r => { r with acks := rest })

/-- The acknowledgement admitted: charged, marked on its frame, the transmitter on. -/
def ackAdmitted (s : State) (a : RadAck) (rest : List RadAck) : State :=
  drew (setRad (chargeAll (radCount (ackTaken s rest) 10) a.chan (airtime s a.chan (a.frame.length + fcsBytes a.fcs4))) (fun r => { r with
    paEn := true, store := markStored r.store a.idx 1 }))

/-- The acknowledgement suppressed: counted and marked on its frame. -/
def ackSuppressed (s : State) (a : RadAck) (rest : List RadAck) : State :=
  raiseC (setRad (radCount (ackTaken s rest) 11) (fun r => { r with store := markStored r.store a.idx 2 })) Src.radAckSuppressed 0xFF 1

/-- The acknowledgement as it goes out. -/
def ackOut (s : State) (a : RadAck) : Out :=
  .radio (phrOf a.fcs4 ((Config.freeWord s.free).getLsbD 0) (a.frame.length + fcsBytes a.fcs4)) (psduOf a.fcs4 a.frame) a.chan.toNat
    (usedPower s a.chan (signed s.rad.ackDbm.toNat 6))

theorem radioAckTxOp_due {s : State} {a : RadAck} {rest : List RadAck} (h : s.rad.acks = a :: rest) (hpa : s.rad.paEn = false) :
    radioAckTxOp s = if !radPath s || !s.rad.ackEn then releaseHeld (ackTaken s rest)
      else if ackFits s a.chan (airtime s a.chan (a.frame.length + fcsBytes a.fcs4)) then emitOut (ackAdmitted s a rest) (ackOut s a)
      else releaseHeld (ackSuppressed s a rest) := by
  unfold radioAckTxOp
  rw [h]
  dsimp only
  rw [if_neg (by simp [hpa])]
  rfl

theorem ackAdmitted_rad (s : State) (a : RadAck) (rest : List RadAck) : (ackAdmitted s a rest).rad.acks = rest ∧
    (ackAdmitted s a rest).rad.paEn = true ∧ (ackAdmitted s a rest).rings = s.rings ∧ (ackAdmitted s a rest).sent = s.sent ∧
    vget (ackAdmitted s a rest).rad.cnt 10 0 = vget s.rad.cnt 10 0 + 1 := by
  dsimp only [ackAdmitted, ackTaken, radCount, chargeAll, drew, setRad]
  exact ⟨rfl, rfl, rfl, rfl, counted_self s.rad (by decide)⟩

theorem ackAdmitted_radActs (s : State) (a : RadAck) (rest : List RadAck) : RadActs s (ackAdmitted s a rest) :=
  ((((setRad_radActs s _).trans (setRad_radActs _ _)).trans (setRad_radActs _ _)).trans (setRad_radActs _ _)).trans (drew_radActs _)

theorem ackSuppressed_radActs (s : State) (a : RadAck) (rest : List RadAck) : RadActs s (ackSuppressed s a rest) :=
  (((setRad_radActs s _).trans (setRad_radActs _ _)).trans (setRad_radActs _ _)).trans (raiseC_radActs _ _ _ _)

theorem ackSuppressed_rad (s : State) (a : RadAck) (rest : List RadAck) : (ackSuppressed s a rest).rad.acks = rest ∧
    vget (ackSuppressed s a rest).rad.cnt 11 0 = vget s.rad.cnt 11 0 + 1 := by
  unfold ackSuppressed
  rw [raiseC_rad]
  exact ⟨rfl, counted_self s.rad (by decide)⟩

theorem radioAckTransmit_waits {s : State} (h : s.rad.paEn = true) : exec .radioAckTransmit s = .next s := by
  refine congrArg Host.Outcome.next ?_
  unfold radioAckTxOp
  split
  · rfl
  · exact if_pos h

theorem radioAckTransmit_spec {s : State} {a : RadAck} {rest : List RadAck} (hpa : s.rad.paEn = false) (h : s.rad.acks = a :: rest) :
    ∃ t, exec .radioAckTransmit s = .next t ∧ OnlyRing s t 7 ∧ t.rad.acks = rest ∧
      (radPath s = true → s.rad.ackEn = true → ackFits s a.chan (airtime s a.chan (a.frame.length + fcsBytes a.fcs4)) = true →
        t.rad.paEn = true ∧ t.rings = s.rings ∧ vget t.rad.cnt 10 0 = vget s.rad.cnt 10 0 + 1 ∧
        ∃ v, t.sent = .radio (phrOf a.fcs4 v (a.frame.length + fcsBytes a.fcs4)) (psduOf a.fcs4 a.frame) a.chan.toNat
          (usedPower s a.chan (signed s.rad.ackDbm.toNat 6)) :: s.sent) ∧
      (radPath s = true → s.rad.ackEn = true → ackFits s a.chan (airtime s a.chan (a.frame.length + fcsBytes a.fcs4)) = false →
        vget t.rad.cnt 11 0 = vget s.rad.cnt 11 0 + 1) := by
  have hexec : exec .radioAckTransmit s = .next _ := congrArg Host.Outcome.next (radioAckTxOp_due h hpa)
  by_cases hopen : radPath s = true ∧ s.rad.ackEn = true
  · obtain ⟨hp, he⟩ := hopen
    rw [hp, he, Bool.not_true, Bool.or_false, if_neg Bool.false_ne_true] at hexec
    by_cases hf : ackFits s a.chan (airtime s a.chan (a.frame.length + fcsBytes a.fcs4)) = true
    · rw [if_pos hf] at hexec
      obtain ⟨hacks, hon, hrings, hsent, hcnt⟩ := ackAdmitted_rad s a rest
      refine ⟨_, hexec, ((ackAdmitted_radActs s a rest).trans (emitOut_radActs _ _)).ring, hacks,
        fun _ _ _ => ⟨hon, hrings, hcnt, (Config.freeWord s.free).getLsbD 0, ?_⟩, fun _ _ hn => absurd hf (by simp [hn])⟩
      rw [emitOut_sent, hsent]
      rfl
    · rw [if_neg hf] at hexec
      obtain ⟨hacks, hcnt⟩ := ackSuppressed_rad s a rest
      obtain ⟨hacks', hcnt'⟩ := releaseHeld_acksKept (ackSuppressed s a rest)
      exact ⟨_, hexec, ((ackSuppressed_radActs s a rest).trans (releaseHeld_radActs _)).ring, hacks'.trans hacks, fun _ _ h => absurd h hf,
        fun _ _ _ => hcnt'.trans hcnt⟩
  · rw [if_pos (by simpa [imp_iff_not_or] using hopen)] at hexec
    exact ⟨_, hexec, ((setRad_radActs s _).trans (releaseHeld_radActs _)).ring, (releaseHeld_acksKept _).1, fun h1 h2 => absurd ⟨h1, h2⟩ hopen,
      fun h1 h2 => absurd ⟨h1, h2⟩ hopen⟩

/-! ### A stored frame goes to the host -/

/-- The outcome of the buffer a stored frame fills. -/
def deliveredOutcome (f : RadStored) : Outcome := { status := .ok, len := word f.body.length, res0 := f.res0, res1 := f.res1, ts := none }

theorem radioDeliverOp_ready {s : State} {f : RadStored} {l : List RadStored} {w : Work} (hf : s.rad.store = f :: l) (hpost : postedBuffer s 8 = some w)
    (hring : (ringAt s 8).state ≠ .recovering) (hm : mayMaster s 0 = true) (hfr : frozen s = false) (hacks : ∀ a, a ∈ s.rad.acks → a.idx ≠ 0) :
    radioDeliverOp s = if !inWindows s 0 true w.d.addr.toNat f.body.length then
        returnWork (ringWindowFault s 8 w.d.addr.toNat) 8 w.seq .retWindow
      else popStored (sendWrite (returnWith s 8 w.seq (deliveredOutcome f))
        0 w.d.addr.toNat f.body) := by
  unfold radioDeliverOp
  rw [hf, hpost]
  refine if_neg ?_
  rintro (h | h | h | h)
  · exact hring h
  · rw [hm] at h
    exact absurd h nofun
  · rw [hfr] at h
    exact absurd h nofun
  · obtain ⟨a, ha, h0⟩ := List.any_eq_true.mp h
    exact hacks a ha (by simpa using h0)

theorem radioRxDeliver_spec {s : State} {f : RadStored} {l : List RadStored} {w : Work} (hf : s.rad.store = f :: l) (hpost : postedBuffer s 8 = some w)
    (hfind : findWork (ringAt s 8) w.seq = some w) (hj : journalOf s 8 w.seq = none) (hring : (ringAt s 8).state ≠ .recovering)
    (hm : mayMaster s 0 = true) (hfr : frozen s = false) (hacks : ∀ a, a ∈ s.rad.acks → a.idx ≠ 0) :
    ∃ t, exec .radioRxDeliver s = .next t ∧ OnlyRing s t 8 ∧ t.journal = s.journal ∧
      (inWindows s 0 true w.d.addr.toNat f.body.length = true → t.rad.store = l ∧
        t.sent = writeRequests s 0 w.d.addr.toNat f.body ++ s.sent ∧ ∃ o, returnedWith t 8 w.seq = some o ∧ o.status = .ok ∧
        o.len = word f.body.length ∧ o.res0 = f.res0 ∧ o.res1 = f.res1) ∧
      (inWindows s 0 true w.d.addr.toNat f.body.length = false → t.rad = s.rad ∧
        returnedWith t 8 w.seq = some (Outcome.of .retWindow 0 0)) := by
  have hret : w.ret = none := by
    have := List.find?_some hpost
    simp only [Bool.and_eq_true, Option.isNone_iff_eq_none] at this
    exact this.2
  have hexec : exec .radioRxDeliver s = .next _ := congrArg Host.Outcome.next (radioDeliverOp_ready hf hpost hring hm hfr hacks)
  by_cases hwin : inWindows s 0 true w.d.addr.toNat f.body.length = true
  · rw [hwin, Bool.not_true, if_neg Bool.false_ne_true] at hexec
    have hframe := returnWith_frame s 8 w.seq (deliveredOutcome f)
    have hrings (t : State) : (popStored (sendWrite t 0 w.d.addr.toNat f.body)).rings = t.rings := rfl
    refine ⟨_, hexec, (returnWith_onlyRing s 8 w.seq _).trans (onlyRing_of_rings 8 rfl), ?_, fun _ => ⟨?_, ?_, deliveredOutcome f, ?_, rfl, rfl, rfl, rfl⟩,
      fun hn => absurd hwin (by simp [hn])⟩
    · rw [hframe]
      rfl
    · rw [hframe]
      show s.rad.store.tail = l
      rw [hf]
      rfl
    · rw [hframe]
      rfl
    · rw [returnedWith_congr (hrings _)]
      exact returnedWith_returnWith hfind hret hj
  · rw [if_pos (by simpa using hwin)] at hexec
    have hmark : ringAt (ringWindowFault s 8 w.d.addr.toNat) 8 = { ringAt s 8 with winErr := true } := by
      rw [ringAt_ringWindowFault, ringAt_setRing_self _ _ _ (by decide)]
    have hjournal : (ringWindowFault s 8 w.d.addr.toNat).journal = s.journal := by simp [ringWindowFault]
    refine ⟨_, hexec, (ringWindowFault_onlyRing s 8 _).trans (returnWork_onlyRing _ _ _ _), (returnWork_journal _ _ _ _).trans hjournal,
      fun h => absurd h hwin, fun _ => ⟨?_, ?_⟩⟩
    · rw [returnWork_rad]
      simp [ringWindowFault]
    · refine returnedWith_returnWork (w := w) ?_ hret ?_
      · rw [hmark]
        exact hfind
      · rw [journalOf, hjournal]
        exact hj

/-! ### The device table -/

theorem radDev_pf {i : BitVec 5} (hi : i ≠ 31) (s : State) (f : Rad → Rad) : devCmd s .pf i f = setRad s (fun r => f { r with devIdx := i }) := if_neg hi

theorem devIdx_lt {i : BitVec 5} (hi : i ≠ 31) : i.toNat < 31 := by
  have : i.toNat ≠ 31 := fun h => hi (BitVec.eq_of_toNat_eq h)
  omega

/-- Entries of a changed device table. -/
theorem devAt_vset {s t : State} {i : Nat} {e : Vector Word 4} (hi : i < 31) (h : t.rad.dev = vset s.rad.dev i e) :
    devAt t i = e ∧ ∀ j, j ≠ i → devAt t j = devAt s j := by
  unfold devAt
  rw [h]
  exact ⟨vget_vset_self _ _ _ _ hi, fun j hj => vget_vset_ne _ _ _ _ _ hj⟩

theorem radDevices_spec (s : State) (i : BitVec 5) :
    (i ≠ 31 →
      (∃ t, exec (.radDevRead .pf i) s = .next t ∧
        t = { s with rad := { s.rad with devIdx := i, devData := devAt s i.toNat } }) ∧
      (∃ t, exec (.radDevWrite .pf i) s = .next t ∧ t = { s with rad := { s.rad with devIdx := i, dev := t.rad.dev } } ∧
        devAt t i.toNat = s.rad.devData ∧ ∀ j, j ≠ i.toNat → devAt t j = devAt s j) ∧
      (∃ t, exec (.radDevClear .pf i) s = .next t ∧ t = { s with rad := { s.rad with devIdx := i, dev := t.rad.dev } } ∧
        devAt t i.toNat = Vector.replicate 4 0 ∧ ∀ j, j ≠ i.toNat → devAt t j = devAt s j)) ∧
    (∀ c, c ∈ [Instr.radDevRead .pf 31, .radDevWrite .pf 31, .radDevClear .pf 31] → exec c s = .next s) ∧
    (∀ cp c, c ∈ [Instr.radDevRead (.fw cp) i, .radDevWrite (.fw cp) i, .radDevClear (.fw cp) i] →
      exec c s = .next (raise s Src.fwWriteDenied 0xFF 0x90300)) := by
  refine ⟨fun hi => ⟨⟨_, congrArg Host.Outcome.next (radDev_pf hi s _), rfl⟩, ⟨_, congrArg Host.Outcome.next (radDev_pf hi s _), rfl, ?_⟩,
    ⟨_, congrArg Host.Outcome.next (radDev_pf hi s _), rfl, ?_⟩⟩, fun c hc => ?_, fun cp c hc => ?_⟩
  · exact devAt_vset (devIdx_lt hi) rfl
  · exact devAt_vset (devIdx_lt hi) rfl
  · simp only [List.mem_cons, List.not_mem_nil, or_false] at hc
    rcases hc with rfl | rfl | rfl <;> rfl
  · simp only [List.mem_cons, List.not_mem_nil, or_false] at hc
    rcases hc with rfl | rfl | rfl <;> rfl

/-- Settles O37: a heard frame is counted and stored by its checks, acknowledgements and deliveries follow the store, and the PF alone reaches the device table. -/
theorem radioReceptionAndDevices : Obligations.RadioReceptionAndDevices :=
  ⟨fun s => ⟨radioFrameReceived_spec s, radioAckTransmit_waits, fun _ _ hpa h => radioAckTransmit_spec hpa h,
    fun _ _ _ hf hpost hfind hj hring hm hfr hacks => radioRxDeliver_spec hf hpost hfind hj hring hm hfr hacks⟩, radDevices_spec⟩

end Sys2Proof.Machine


/-! # The flow table's ports, and a packet-buffer bank lost (O26)

A bank's loss strikes the queues once, then takes the struck work up one by one: the fold is followed by what it keeps and
what the turn of a piece of work brings it to (`foldl_reaches`). -/

namespace Sys2Proof.Machine

open Sys2Proof

/-! ### The flow table's ports -/

theorem ftPortOf_lt {who : Requester} {p : Nat} (h : ftPortOf who = some p) : p < 2 := by
  cases who with
  | pf => cases h; decide
  | fw cp => cases h; decide
  | vf c => exact absurd h nofun

/-- A changed port of the flow table, and the other. -/
theorem setFtPort_ports {s : State} {p : Nat} (hp : p < 2) (f : FtPort → FtPort) :
    vget (setFtPort s p f).xc.ports p FtPort.reset = f (vget s.xc.ports p FtPort.reset) ∧
    ∀ q, q ≠ p → vget (setFtPort s p f).xc.ports q FtPort.reset = vget s.xc.ports q FtPort.reset :=
  ⟨vget_vset_self _ _ _ _ hp, fun _ hq => vget_vset_ne _ _ _ _ _ hq⟩

theorem flowTableRead_spec (s : State) {who : Requester} (i : BitVec 12) {p : Nat} (h : ftPortOf who = some p) :
    ∃ t, exec (.flowTableRead who i) s = .next t ∧ t = { s with xc := { s.xc with ports := t.xc.ports } } ∧
      vget t.xc.ports p FtPort.reset = { data := flowAt s i.toNat, status := 0, idx := i } ∧
      ∀ q, q ≠ p → vget t.xc.ports q FtPort.reset = vget s.xc.ports q FtPort.reset := by
  refine ⟨flowReadOp s p i, ?_, rfl, setFtPort_ports (ftPortOf_lt h) _⟩
  show Host.Outcome.next (match ftPortOf who with | none => s | some p => flowReadOp s p i) = _
  rw [h]

/-- An entry written, and the others. -/
theorem flowAt_vset {s t : State} {i : BitVec 12} {e : FlowEntry} (h : t.xc.flow = vset s.xc.flow i.toNat e) :
    flowAt t i.toNat = e ∧ ∀ j, j ≠ i.toNat → flowAt t j = flowAt s j := by
  unfold flowAt
  rw [h]
  exact ⟨vget_vset_self _ _ _ _ i.isLt, fun j hj => vget_vset_ne _ _ _ _ _ hj⟩

theorem flowBad_of_kind {s : State} {e : FlowEntry} (h : feKind e = 6 ∨ feKind e = 7) : flowBad s e = true := by
  unfold flowBad kindOk
  rcases h with h | h <;> cases hu : feUp e <;> simp [h]

theorem flowWriteOp_bad {s : State} {p : Nat} (h : flowBad s (vget s.xc.ports p FtPort.reset).data = true) (i : BitVec 12) :
    flowWriteOp s p i = setFtPort s p (fun y => { y with idx := i, status := 1 }) := if_pos h

theorem flowWriteOp_dup {s : State} {p : Nat} (h : flowBad s (vget s.xc.ports p FtPort.reset).data = false) {i : BitVec 12}
    (hd : flowDup s i.toNat (vget s.xc.ports p FtPort.reset).data = true) :
    flowWriteOp s p i = setFtPort s p (fun y => { y with idx := i, status := 2 }) := (if_neg (by simp [h])).trans (if_pos hd)

/-- The entry taken from a port. -/
def flowWritten (s : State) (p : Nat) (i : BitVec 12) (e : FlowEntry) : State :=
  { setFtPort s p (fun y => { y with idx := i, status := 0 }) with
    xc := { (setFtPort s p (fun y => { y with idx := i, status := 0 })).xc with flow := vset s.xc.flow i.toNat e } }

theorem flowWriteOp_takes {s : State} {p : Nat} (h : flowBad s (vget s.xc.ports p FtPort.reset).data = false) {i : BitVec 12}
    (hd : flowDup s i.toNat (vget s.xc.ports p FtPort.reset).data = false) :
    flowWriteOp s p i = flowWritten s p i (vget s.xc.ports p FtPort.reset).data := (if_neg (by simp [h])).trans (if_neg (by simp [hd]))

/-- The write's state, whichever of its answers it gives. -/
theorem flowTableWrite_spec (s : State) {who : Requester} (i : BitVec 12) {p : Nat} (h : ftPortOf who = some p) :
    ∃ t, exec (.flowTableWrite who i) s = .next t ∧ t = { s with xc := { s.xc with ports := t.xc.ports, flow := t.xc.flow } } ∧
      (vget t.xc.ports p FtPort.reset).data = (vget s.xc.ports p FtPort.reset).data ∧
      (∀ j, j ≠ i.toNat → flowAt t j = flowAt s j) ∧
      (flowBad s (vget s.xc.ports p FtPort.reset).data = true →
        t.xc.flow = s.xc.flow ∧ (vget t.xc.ports p FtPort.reset).status = 1) ∧
      ((feKind (vget s.xc.ports p FtPort.reset).data = 6 ∨ feKind (vget s.xc.ports p FtPort.reset).data = 7) → t.xc.flow = s.xc.flow) ∧
      (flowBad s (vget s.xc.ports p FtPort.reset).data = false → flowDup s i.toNat (vget s.xc.ports p FtPort.reset).data = true →
        t.xc.flow = s.xc.flow ∧ (vget t.xc.ports p FtPort.reset).status = 2) ∧
      (flowBad s (vget s.xc.ports p FtPort.reset).data = false → flowDup s i.toNat (vget s.xc.ports p FtPort.reset).data = false →
        flowAt t i.toNat = (vget s.xc.ports p FtPort.reset).data ∧ (vget t.xc.ports p FtPort.reset).status = 0) := by
  have hexec : exec (.flowTableWrite who i) s = .next (flowWriteOp s p i) := by
    show Host.Outcome.next (match ftPortOf who with | none => s | some p => flowWriteOp s p i) = _
    rw [h]
  have hport (f : FtPort → FtPort) := (setFtPort_ports (s := s) (ftPortOf_lt h) f).1
  refine ⟨flowWriteOp s p i, hexec, ?_⟩
  by_cases hb : flowBad s (vget s.xc.ports p FtPort.reset).data = true
  · rw [flowWriteOp_bad hb]
    refine ⟨rfl, by rw [hport], fun _ _ => rfl, fun _ => ⟨rfl, by rw [hport]⟩, fun _ => rfl, fun hn => ?_, fun hn => ?_⟩
    · exact absurd hn (by simp [hb])
    · exact absurd hn (by simp [hb])
  · have hb' : flowBad s (vget s.xc.ports p FtPort.reset).data = false := by simpa using hb
    by_cases hd : flowDup s i.toNat (vget s.xc.ports p FtPort.reset).data = true
    · rw [flowWriteOp_dup hb' hd]
      refine ⟨rfl, by rw [hport], fun _ _ => rfl, fun hn => absurd hn hb, fun _ => rfl, fun _ _ => ⟨rfl, by rw [hport]⟩, fun _ hn => ?_⟩
      exact absurd hn (by simp [hd])
    · have hd' : flowDup s i.toNat (vget s.xc.ports p FtPort.reset).data = false := by simpa using hd
      rw [flowWriteOp_takes hb' hd']
      have hports : (flowWritten s p i (vget s.xc.ports p FtPort.reset).data).xc.ports =
          (setFtPort s p (fun y => { y with idx := i, status := 0 })).xc.ports := rfl
      obtain ⟨hat, hother⟩ := flowAt_vset (s := s) (t := flowWritten s p i (vget s.xc.ports p FtPort.reset).data) (i := i) rfl
      refine ⟨rfl, by rw [hports, hport], hother, fun hn => absurd hn hb, fun hk => absurd (flowBad_of_kind hk) hb, fun _ hn => absurd hn hd,
        fun _ _ => ⟨hat, by rw [hports, hport]⟩⟩

theorem flowTableClear_spec (s : State) {who : Requester} (i : BitVec 12) {p : Nat} (h : ftPortOf who = some p) :
    ∃ t, exec (.flowTableClear who i) s = .next t ∧ t = { s with xc := { s.xc with ports := t.xc.ports, flow := t.xc.flow } } ∧
      flowAt t i.toNat = Vector.replicate 4 0 ∧ (∀ j, j ≠ i.toNat → flowAt t j = flowAt s j) ∧
      (vget t.xc.ports p FtPort.reset).status = 0 := by
  obtain ⟨hat, hother⟩ := flowAt_vset (s := s) (t := flowClearOp s p i) (i := i) rfl
  have hports : (flowClearOp s p i).xc.ports = (setFtPort s p (fun x => { x with idx := i, status := 0 })).xc.ports := rfl
  refine ⟨flowClearOp s p i, ?_, rfl, hat, hother, ?_⟩
  · show Host.Outcome.next (match ftPortOf who with | none => s | some p => flowClearOp s p i) = _
    rw [h]
  · rw [hports, (setFtPort_ports (ftPortOf_lt h) _).1]

/-! ### A fold that turns to one element -/

/-- What every turn keeps, and the turn of one element brings about and every turn keeps, holds after a fold over it. -/
theorem foldl_reaches {α : Type} {f : State → α → State} {P Q : State → Prop} {a : α} (hP : ∀ s b, P s → P (f s b))
    (hQ : ∀ s b, Q s → Q (f s b)) (ha : ∀ s, P s → Q (f s a)) {l : List α} (h : a ∈ l) {s : State} (hs : P s) : Q (l.foldl f s) := by
  have stays (l : List α) (s : State) (hs : Q s) : Q (l.foldl f s) := by
    induction l generalizing s with
    | nil => exact hs
    | cons b l ih => exact ih _ (hQ s b hs)
  induction l generalizing s with
  | nil => exact absurd h nofun
  | cons b l ih =>
    rcases List.mem_cons.mp h with rfl | h
    · exact stays l _ (ha s hs)
    · exact ih h (hP s b hs)

theorem foldl_inv {α : Type} {f : State → α → State} {R : State → State → Prop} (hr : ∀ s, R s s) (ht : ∀ s t u, R s t → R t u → R s u)
    (hf : ∀ s a, R s (f s a)) (l : List α) (s : State) : R s (l.foldl f s) := by
  induction l generalizing s with
  | nil => exact hr s
  | cons a l ih => exact ht _ _ _ (hf s a) (ih _)

/-! ### The queues of a struck bank -/

/-- Every frame of a channel's queues was in the same queue before. -/
def QueuesWithin (s t : State) : Prop := ∀ c i f, f ∈ vget (chanAt t c).qs.q i [] → f ∈ vget (chanAt s c).qs.q i []

theorem QueuesWithin.refl (s : State) : QueuesWithin s s := fun _ _ _ h => h

theorem QueuesWithin.trans {s t u : State} (h : QueuesWithin s t) (h' : QueuesWithin t u) : QueuesWithin s u :=
  fun c i f hf => h c i f (h' c i f hf)

theorem queuesWithin_of_chans {s t : State} (h : t.chans = s.chans) : QueuesWithin s t := by
  intro c i f hf
  unfold chanAt at *
  rwa [h] at hf

theorem setChan_queuesWithin {s : State} {c : Nat} {f : Chan → Chan} (h : ∀ k, (f k).qs.q = k.qs.q) : QueuesWithin s (setChan s c f) := by
  intro x i y hy
  rw [chanAt_setChan] at hy
  split at hy
  next hc =>
    rw [h, hc.1] at hy
    exact hy
  · exact hy

theorem setMac_queuesWithin (s : State) (c : Nat) (f : MacCnt → MacCnt) : QueuesWithin s (setMac s c f) :=
  setChan_queuesWithin (f := fun k => { k with mac := f k.mac }) fun _ => rfl

theorem setQs_queuesWithin (s : State) (c : Nat) {f : Queues → Queues} (h : ∀ q, (f q).q = q.q) : QueuesWithin s (setQs s c f) :=
  setChan_queuesWithin (f := fun k => { k with qs := f k.qs }) fun k => h k.qs

theorem sendPause_queuesWithin (s : State) (c : Nat) (m : MacSect) (ens q : Nat) : QueuesWithin s (sendPause s c m ens q) := by
  refine QueuesWithin.trans ?_ (queuesWithin_of_chans (raiseC_chans _ _ _ _))
  refine QueuesWithin.trans ?_ (setMac_queuesWithin _ c _)
  exact setQs_queuesWithin s c fun _ => rfl

theorem QueuesWithin.ite {c : Prop} [Decidable c] {s t u : State} (h : QueuesWithin s t) (h' : QueuesWithin s u) :
    QueuesWithin s (if c then t else u) := by
  split <;> assumption

theorem pauseCheck_queuesWithin (s : State) (c : Nat) : QueuesWithin s (pauseCheck s c) := by
  unfold pauseCheck
  split
  · exact .refl s
  next m _ =>
    refine .ite (.refl s) ?_
    refine QueuesWithin.trans ?_ (setQs_queuesWithin _ c fun _ => rfl)
    exact QueuesWithin.trans (.ite (.refl s) (sendPause_queuesWithin s c m _ _)) (.ite (.refl _) (sendPause_queuesWithin _ c m _ _))

theorem reset_queue_empty (i : Nat) : vget (Chan.reset false).qs.q i [] = [] := by
  by_cases hi : i < 16
  · exact vget_replicate _ _ _ hi
  · exact vget_past _ _ _ hi

theorem dropCur_q (q : Queues) (p : Frame → Bool) : (q.dropCur p).q = q.q := by
  unfold Queues.dropCur
  split
  · split <;> rfl
  · rfl

theorem dropQueued_queuesWithin (s : State) (p : Frame → Bool) : QueuesWithin s (dropQueued s p) := by
  intro c i f hf
  by_cases hc : c < 24
  · have hchan : chanAt (dropQueued s p) c =
        { chanAt s c with qs := ((chanAt s c).qs.keep (fun f => !p f || decide (f.placed ≠ 0))).dropCur p } := by
      simp only [dropQueued, chanAt]
      rw [vget_vmapIdx _ _ _ _ (Chan.reset false), if_pos hc]
    rw [hchan] at hf
    simp only [dropCur_q, Queues.keep] at hf
    by_cases hi : i < 16
    · rw [vget_vmapIdx _ _ _ _ [], if_pos hi, List.mem_filter] at hf
      exact hf.1
    · rw [vget_past _ _ _ hi] at hf
      exact absurd hf nofun
  · have hchan : chanAt (dropQueued s p) c = Chan.reset false := vget_past _ _ _ hc
    rw [hchan, reset_queue_empty] at hf
    exact absurd hf nofun

/-- The frame is not in the struck cells, or has been sent whole. -/
def Clear (hit : List Nat) (f : Frame) : Prop := struck hit f = false ∨ f.bytes.length ≤ f.placed

theorem emptied_clear (hit : List Nat) (f : Frame) : Clear hit (emptied f) := .inl (by simp [struck, emptied])

theorem endedFrame_clear (hit : List Nat) (f : Frame) : Clear hit (endedFrame f) := .inl (by simp [struck, endedFrame])

theorem strikeQueue_clear {hit : List Nat} {l : List Frame} {f : Frame} (h : f ∈ strikeQueue hit l) : Clear hit f := by
  obtain ⟨g, -, hg⟩ := List.mem_flatMap.mp h
  split at hg
  next hs =>
    rw [List.mem_singleton.mp hg]
    rw [Bool.or_eq_true, Bool.not_eq_true', decide_eq_true_eq] at hs
    exact hs
  · rcases List.mem_append.mp hg with hg | hg
    · split at hg
      · exact absurd hg nofun
      · rw [List.mem_singleton.mp hg]
        exact endedFrame_clear hit g
    · split at hg
      · rw [List.mem_singleton.mp hg]
        exact emptied_clear hit g
      · exact absurd hg nofun

/-- Every queue of a channel's two halves is clear. -/
def QueuesClear (hit : List Nat) (q : Queues) : Prop := ∀ i f, f ∈ vget q.q i [] → Clear hit f

theorem strikeCur_clear {hit : List Nat} {q : Queues} (h : QueuesClear hit q) : QueuesClear hit (strikeCur hit q) := by
  have headed (p : Nat) (g : Frame) : QueuesClear hit { q with q := vset q.q p (emptied g :: vget q.q p []) } := by
    intro i f hf
    rw [vget_vset] at hf
    split at hf
    · rcases List.mem_cons.mp hf with rfl | hf
      · exact emptied_clear hit g
      · exact h _ _ hf
    · exact h _ _ hf
  unfold strikeCur
  split
  · exact h
  next g _ =>
    split
    · exact h
    · dsimp only
      split
      · split
        · exact headed _ _
        · exact h
      · split
        · exact headed _ _
        · exact h

theorem strikeAll_clear (s : State) (hit : List Nat) (c : Nat) : QueuesClear hit (chanAt (strikeAll s hit) c).qs := by
  by_cases hc : c < 24
  · have hchan : (chanAt (strikeAll s hit) c).qs = strikeCur hit { (chanAt s c).qs with
        q := vmapIdx (fun _ l => strikeQueue hit l) (chanAt s c).qs.q } := by
      simp only [strikeAll, chanAt]
      rw [vget_vmapIdx _ _ _ _ (Chan.reset false), if_pos hc]
    rw [hchan]
    refine strikeCur_clear fun i f hf => ?_
    by_cases hi : i < 16
    · rw [vget_vmapIdx _ _ _ _ [], if_pos hi] at hf
      exact strikeQueue_clear hf
    · rw [vget_past _ _ _ hi] at hf
      exact absurd hf nofun
  · have hchan : chanAt (strikeAll s hit) c = Chan.reset false := vget_past _ _ _ hc
    rw [hchan]
    intro i f hf
    rw [reset_queue_empty] at hf
    exact absurd hf nofun

/-! ### The struck work -/

/-- What the turn of a piece of struck work leaves. -/
structure RefetchActs (s t : State) : Prop where
  frame : t = { s with rings := t.rings, chans := t.chans, upl := t.upl }
  counters : SameCounters s t
  queues : QueuesWithin s t

theorem RefetchActs.refl (s : State) : RefetchActs s s := ⟨rfl, .refl s, .refl s⟩

theorem RefetchActs.trans {s t u : State} (h : RefetchActs s t) (h' : RefetchActs t u) : RefetchActs s u := by
  refine ⟨?_, h.counters.trans h'.counters, h.queues.trans h'.queues⟩
  have e := h.frame
  have e' := h'.frame
  rw [e', e]

theorem dropQueued_refetchActs (s : State) (p : Frame → Bool) : RefetchActs s (dropQueued s p) := by
  refine ⟨?_, sameCounters_of_rings (dropQueued_rings s p), dropQueued_queuesWithin s p⟩
  obtain ⟨v, u, h⟩ : ∃ v u, dropQueued s p = { s with chans := v, upl := u } := ⟨_, _, rfl⟩
  rw [h]

theorem returnExpired_refetchActs (s : State) (r : Nat) (q : Word) : RefetchActs s (returnExpired s r q) := by
  refine ⟨?_, ?_, queuesWithin_of_chans ?_⟩
  · rw [returnExpired_frame]
  · unfold returnExpired
    split
    · exact returnWith_sameCounters _ _ _ _
    · exact returnWith_sameCounters _ _ _ _
  · rw [returnExpired_frame]

theorem refetchWork_acts (s : State) (x : RingNo × Word) : RefetchActs s (refetchWork s x) := by
  unfold refetchWork
  split
  · exact .refl s
  · split
    · exact (returnExpired_refetchActs _ _ _).trans (dropQueued_refetchActs _ _)
    · exact ⟨rfl, setWork_sameCounters _ _ _ _, queuesWithin_of_chans rfl⟩

theorem findWork_returnWith_other (s : State) {r r' : Nat} {q q' : Word} (o : Outcome) (h : ¬(r' = r ∧ q' = q)) :
    findWork (ringAt (returnWith s r q o) r') q' = findWork (ringAt s r') q' := by
  unfold returnWith
  split
  · rfl
  · rw [findWork_setWork _ _ _ _ _ _ (fun w => by split <;> rfl), if_neg h]

theorem findWork_returnExpired_other (s : State) {r r' : Nat} {q q' : Word} (h : ¬(r' = r ∧ q' = q)) :
    findWork (ringAt (returnExpired s r q) r') q' = findWork (ringAt s r') q' := by
  unfold returnExpired
  split
  · exact findWork_returnWith_other s _ h
  · exact findWork_returnWith_other s _ h

/-- The turn of one piece of work leaves every other. -/
theorem refetchWork_other (s : State) {x : RingNo × Word} {r : Nat} {q : Word} (h : ¬(r = x.1.val ∧ q = x.2)) :
    findWork (ringAt (refetchWork s x) r) q = findWork (ringAt s r) q := by
  unfold refetchWork
  split
  · rfl
  · split
    · rw [ringAt_congr (dropQueued_rings _ _)]
      exact findWork_returnExpired_other s h
    · have hs := findWork_setWork s x.1.val r x.2 q (fun w => { w with stage := .wantRead, refetch := true }) (fun _ => rfl)
      rw [hs, if_neg h]

/-- LIFETIME is judged by the ring's lifetime, the work's start and the datum. -/
theorem lifeOver_congr {s t : State} (h : RefetchActs s t) {r : Nat} {w w' : Work} (ha : w'.at_ = w.at_) : lifeOver t r w' = lifeOver s r w := by
  obtain ⟨-, -, hl, -⟩ := h.counters r
  have hd : t.datum = s.datum := by rw [h.frame]
  unfold lifeOver
  dsimp only
  rw [hl, hd, ha]

/-- The work of a descriptor stands, its LIFETIME not run out. -/
def WorkAlive (r : Nat) (q : Word) (d : Desc) (s : State) : Prop :=
  ∃ w, findWork (ringAt s r) q = some w ∧ w.d = d ∧ lifeOver s r w = false

/-- It is to be read again, REFETCHED. -/
def WorkRefetched (r : Nat) (q : Word) (d : Desc) (s : State) : Prop :=
  ∃ w, findWork (ringAt s r) q = some w ∧ w.d = d ∧ lifeOver s r w = false ∧ w.stage = .wantRead ∧ w.refetch = true

theorem WorkRefetched.alive {r : Nat} {q : Word} {d : Desc} {s : State} (h : WorkRefetched r q d s) : WorkAlive r q d s := by
  obtain ⟨w, hf, hd, hl, -⟩ := h
  exact ⟨w, hf, hd, hl⟩

theorem refetchWork_refetches {r : RingNo} {q : Word} {d : Desc} {s : State} (h : WorkAlive r.val q d s) :
    WorkRefetched r.val q d (refetchWork s (r, q)) := by
  obtain ⟨w, hf, hd, hl⟩ := h
  have hop : refetchWork s (r, q) = setWork s r.val q (fun w => { w with stage := .wantRead, refetch := true }) := by
    unfold refetchWork
    dsimp only
    rw [hf]
    exact if_neg (by simp [hl])
  have hlife := lifeOver_congr (refetchWork_acts s (r, q)) (r := r.val) (w := w) (w' := { w with stage := .wantRead, refetch := true }) rfl
  refine ⟨{ w with stage := .wantRead, refetch := true }, ?_, hd, hlife.trans hl, rfl, rfl⟩
  rw [hop]
  exact findWork_setWork_self _ (fun _ => rfl) hf

theorem refetchWork_alive {r : RingNo} {q : Word} {d : Desc} (s : State) (x : RingNo × Word) (h : WorkAlive r.val q d s) :
    WorkAlive r.val q d (refetchWork s x) := by
  by_cases hx : r.val = x.1.val ∧ q = x.2
  · have : x = (r, q) := Prod.ext (Fin.ext hx.1.symm) hx.2.symm
    rw [this]
    exact (refetchWork_refetches h).alive
  · obtain ⟨w, hf, hd, hl⟩ := h
    exact ⟨w, (refetchWork_other s hx).trans hf, hd, (lifeOver_congr (refetchWork_acts s x) rfl).trans hl⟩

theorem refetchWork_refetched {r : RingNo} {q : Word} {d : Desc} (s : State) (x : RingNo × Word) (h : WorkRefetched r.val q d s) :
    WorkRefetched r.val q d (refetchWork s x) := by
  by_cases hx : r.val = x.1.val ∧ q = x.2
  · have : x = (r, q) := Prod.ext (Fin.ext hx.1.symm) hx.2.symm
    rw [this]
    exact refetchWork_refetches h.alive
  · obtain ⟨w, hf, hd, hl, hst, hr⟩ := h
    exact ⟨w, (refetchWork_other s hx).trans hf, hd, (lifeOver_congr (refetchWork_acts s x) rfl).trans hl, hst, hr⟩

/-- The work stands with its LIFETIME run out, without an outcome or returned for it. -/
def WorkLapsed (r : Nat) (q : Word) (ret : Option Outcome → Prop) (s : State) : Prop :=
  isP1 s = false ∧ journalOf s r q = none ∧ ∃ w, findWork (ringAt s r) q = some w ∧ lifeOver s r w = true ∧ ret w.ret

/-- No outcome yet, or the return for its LIFETIME. -/
def openOrExpired (o : Option Outcome) : Prop := o = none ∨ o = some (Outcome.of .retExpired 0 0)

theorem WorkLapsed.mono {r : Nat} {q : Word} {p p' : Option Outcome → Prop} (hp : ∀ o, p o → p' o) {s : State} (h : WorkLapsed r q p s) :
    WorkLapsed r q p' s := by
  obtain ⟨h1, h2, w, hf, hl, hr⟩ := h
  exact ⟨h1, h2, w, hf, hl, hp _ hr⟩

theorem refetchWork_lapses {r : RingNo} {q : Word} {s : State} (h : WorkLapsed r.val q openOrExpired s) :
    WorkLapsed r.val q (· = some (Outcome.of .retExpired 0 0)) (refetchWork s (r, q)) := by
  have hacts := refetchWork_acts s (r, q)
  obtain ⟨hp, hj, w, hf, hl, hr⟩ := h
  have hop : refetchWork s (r, q) = dropQueued (returnWork s r.val q .retExpired) (awaits r q) := by
    unfold refetchWork
    dsimp only
    rw [hf]
    dsimp only
    rw [if_pos hl, returnExpired_of_not_p1 hp]
  have hp' : isP1 (refetchWork s (r, q)) = false := by
    unfold isP1
    rw [hacts.frame]
    exact hp
  have hj' : journalOf (refetchWork s (r, q)) r.val q = none := by
    unfold journalOf
    rw [hacts.frame]
    exact hj
  have hret : findWork (ringAt (refetchWork s (r, q)) r.val) q = some { w with ret := some (Outcome.of .retExpired 0 0) } := by
    rw [hop]
    rw [ringAt_congr (dropQueued_rings _ _), returnWork]
    rcases hr with hr | hr
    · exact ringAt_returnWith_self hf hr hj
    · have hw : { w with ret := some (Outcome.of .retExpired 0 0) } = w := by rw [← hr]
      unfold returnWith
      rw [hj, Option.isSome_none, if_neg Bool.false_ne_true, findWork_setWork_self _ (fun w => by split <;> rfl) hf, hw]
      simp only [hr]
  exact ⟨hp', hj', _, hret, (lifeOver_congr hacts rfl).trans hl, rfl⟩

theorem refetchWork_lapsed {r : RingNo} {q : Word} {p : Option Outcome → Prop} (hp : ∀ o, p o → openOrExpired o)
    (hex : p (some (Outcome.of .retExpired 0 0))) (s : State) (x : RingNo × Word) (h : WorkLapsed r.val q p s) :
    WorkLapsed r.val q p (refetchWork s x) := by
  by_cases hx : r.val = x.1.val ∧ q = x.2
  · have : x = (r, q) := Prod.ext (Fin.ext hx.1.symm) hx.2.symm
    rw [this]
    exact (refetchWork_lapses (h.mono hp)).mono fun o ho => ho ▸ hex
  · have hacts := refetchWork_acts s x
    obtain ⟨h1, hj, w, hf, hl, hr⟩ := h
    refine ⟨?_, ?_, w, (refetchWork_other s hx).trans hf, (lifeOver_congr hacts rfl).trans hl, hr⟩
    · unfold isP1
      rw [hacts.frame]
      exact h1
    · unfold journalOf
      rw [hacts.frame]
      exact hj

/-! ### A bank's loss -/

/-- The queues struck and the bank retired. -/
def bankStruck (s : State) (bank : Nat) (hit : List Nat) : State :=
  raise { strikeAll s hit with xc := { (strikeAll s hit).xc with retired := (strikeAll s hit).xc.retired ||| BitVec.ofNat 64 (2 ^ bank) } }
    Src.bufBankRetired 0xFF 0x11

/-- The struck work taken up, and pause looked at again. -/
def bankTaken (s : State) (bank : Nat) (hit : List Nat) : State :=
  pauseAll ((struckWork s hit).foldl refetchWork (bankStruck s bank hit))

/-- The rings of the struck work. -/
def struckRings (s : State) (hit : List Nat) : List RingNo := allRings.filter (fun r => (struckWork s hit).any (fun x => x.1 == r))

theorem bankLostOp_retired {s : State} {bank : Nat} (h : s.xc.retired.getLsbD bank = true) (hit : List Nat) : bankLostOp s bank hit = s := if_pos h

theorem bankLostOp_retires {s : State} {bank : Nat} (h : s.xc.retired.getLsbD bank = false) (hit : List Nat) :
    bankLostOp s bank hit = startRecovery (bankTaken s bank hit) (struckRings s hit) 0x11 0xFF false [] [] := if_neg (by simp [h])

/-- What a bank's loss leaves, before its recovery. -/
structure BankActs (s t : State) : Prop where
  kept : t.journal = s.journal ∧ t.ledger = s.ledger ∧ t.datum = s.datum ∧ t.glb = s.glb ∧ t.recov = s.recov ∧ t.xc.bufCe = s.xc.bufCe
  counters : SameCounters s t

theorem bankStruck_kept (s : State) (bank : Nat) (hit : List Nat) : (bankStruck s bank hit).rings = s.rings ∧
    (bankStruck s bank hit).chans = (strikeAll s hit).chans ∧
    (bankStruck s bank hit).xc.retired = s.xc.retired ||| BitVec.ofNat 64 (2 ^ bank) ∧ (bankStruck s bank hit).xc.bufCe = s.xc.bufCe ∧
    (bankStruck s bank hit).journal = s.journal ∧ (bankStruck s bank hit).ledger = s.ledger ∧ (bankStruck s bank hit).datum = s.datum ∧
    (bankStruck s bank hit).glb = s.glb ∧ (bankStruck s bank hit).recov = s.recov := by
  obtain ⟨v, u, m, e, h⟩ : ∃ v u m e, strikeAll s hit = { s with chans := v, upl := u, xc := { s.xc with mgmtRx := m, excRx := e } } := ⟨_, _, _, _, rfl⟩
  unfold bankStruck
  rw [h]
  simp

/-- The turn of the struck work and the look at pause keep what a turn keeps, and the events. -/
theorem bankTaken_acts (s : State) (bank : Nat) (hit : List Nat) : ∃ m, RefetchActs (bankStruck s bank hit) m ∧
    m = (struckWork s hit).foldl refetchWork (bankStruck s bank hit) ∧ bankTaken s bank hit = pauseAll m :=
  ⟨_, foldl_inv RefetchActs.refl (fun _ _ _ => RefetchActs.trans) refetchWork_acts _ _, rfl, rfl⟩

theorem bankTaken_kept (s : State) (bank : Nat) (hit : List Nat) : BankActs s (bankTaken s bank hit) ∧
    (bankTaken s bank hit).xc.retired = s.xc.retired ||| BitVec.ofNat 64 (2 ^ bank) ∧
    ∀ c, QueuesClear hit (chanAt (bankTaken s bank hit) c).qs := by
  obtain ⟨hrings, hchans, hretired, hce, hj, hl, hd, hg, hr⟩ := bankStruck_kept s bank hit
  obtain ⟨m, hacts, -, hm⟩ := bankTaken_acts s bank hit
  have hpause := pauseAll_pmFrame m
  have hframe := hacts.frame
  rw [hm]
  refine ⟨⟨?_, ?_⟩, ?_, fun c i f hf => ?_⟩
  · rw [hpause, hframe]
    exact ⟨hj, hl, hd, hg, hr, hce⟩
  · refine SameCounters.trans (sameCounters_of_rings hrings) (hacts.counters.trans (sameCounters_of_rings ?_))
    exact pauseAll_rings m
  · rw [hpause, hframe]
    exact hretired
  · have hq : QueuesWithin (strikeAll s hit) (pauseAll m) := by
      refine (queuesWithin_of_chans hchans).trans (hacts.queues.trans ?_)
      exact foldl_inv QueuesWithin.refl (fun _ _ _ => QueuesWithin.trans) pauseCheck_queuesWithin _ _
    exact strikeAll_clear s hit c i f (hq c i f hf)

theorem findWork_startRecovery (s : State) (scope : List RingNo) (cause chan : Nat) (lossy : Bool) (cmds : List (RingNo × Word))
    (refresh : List Nat) (r : RingNo) (q : Word) :
    findWork (ringAt (startRecovery s scope cause chan lossy cmds refresh) r.val) q = findWork (ringAt s r.val) q := by
  obtain ⟨-, -, -, -, -, -, -, -, hw⟩ := recovering_counters scope r.val (ringAt s r.val)
  rw [ringAt_startRecovery _ _ _ _ _ _ _ r.isLt, findWork, findWork, hw]

/-- A piece of struck work after the loss is as its turn left it. -/
theorem findWork_bankLost (s : State) (bank : Nat) (hit : List Nat) (r : RingNo) (q : Word) :
    findWork (ringAt (startRecovery (bankTaken s bank hit) (struckRings s hit) 0x11 0xFF false [] []) r.val) q =
      findWork (ringAt ((struckWork s hit).foldl refetchWork (bankStruck s bank hit)) r.val) q := by
  rw [findWork_startRecovery, bankTaken, ringAt_congr (pauseAll_rings _)]

theorem bankLost_refetches {s : State} {bank : Nat} {hit : List Nat} {r : RingNo} {q : Word} {w : Work} (hm : (r, q) ∈ struckWork s hit)
    (hf : findWork (ringAt s r.val) q = some w) (hl : lifeOver s r.val w = false) :
    ∃ w', findWork (ringAt (startRecovery (bankTaken s bank hit) (struckRings s hit) 0x11 0xFF false [] []) r.val) q = some w' ∧
      w'.d = w.d ∧ w'.stage = .wantRead ∧ w'.refetch = true := by
  obtain ⟨hrings, -, -, -, -, -, hd, -⟩ := bankStruck_kept s bank hit
  have halive : WorkAlive r.val q w.d (bankStruck s bank hit) := by
    refine ⟨w, by rw [ringAt_congr hrings]; exact hf, rfl, ?_⟩
    unfold lifeOver at hl ⊢
    rw [ringAt_congr hrings, hd]
    exact hl
  obtain ⟨w', hf', hd', -, hst, hr⟩ := foldl_reaches (fun s x => refetchWork_alive s x) (fun s x => refetchWork_refetched s x)
    (fun s => refetchWork_refetches) hm halive
  exact ⟨w', (findWork_bankLost s bank hit r q).trans hf', hd', hst, hr⟩

theorem bankLost_expires {s : State} {bank : Nat} {hit : List Nat} {r : RingNo} {q : Word} {w : Work} (hm : (r, q) ∈ struckWork s hit)
    (hf : findWork (ringAt s r.val) q = some w) (hl : lifeOver s r.val w = true) (hp : isP1 s = false) (hret : w.ret = none)
    (hj : journalOf s r.val q = none) :
    returnedWith (startRecovery (bankTaken s bank hit) (struckRings s hit) 0x11 0xFF false [] []) r.val q = some (Outcome.of .retExpired 0 0) := by
  obtain ⟨hrings, -, -, -, hjournal, -, hd, hg, -⟩ := bankStruck_kept s bank hit
  have hlapsed : WorkLapsed r.val q openOrExpired (bankStruck s bank hit) := by
    refine ⟨?_, ?_, w, by rw [ringAt_congr hrings]; exact hf, ?_, .inl hret⟩
    · unfold isP1
      rw [hg]
      exact hp
    · unfold journalOf
      rw [hjournal]
      exact hj
    · unfold lifeOver at hl ⊢
      rw [ringAt_congr hrings, hd]
      exact hl
  obtain ⟨-, -, w', hf', -, hr⟩ := foldl_reaches (fun s x => refetchWork_lapsed (fun _ h => h) (.inr rfl) s x)
    (fun s x => refetchWork_lapsed (fun _ h => .inr h) rfl s x) (fun s => refetchWork_lapses) hm hlapsed
  unfold returnedWith
  rw [findWork_bankLost, hf']
  exact hr

theorem bufferUncorrectableError_spec (s : State) (b : Fin 64) (hit : List Nat) (corrected : Nat) :
    ∃ t, exec (.bufferUncorrectableError b ⟨hit, corrected⟩) s = .next t ∧ t.journal = s.journal ∧ t.ledger = s.ledger ∧ SameCounters s t ∧
      t.xc.bufCe = s.xc.bufCe + word corrected ∧
      (s.xc.retired.getLsbD b.val = true → t = { s with hif := t.hif, xc := { s.xc with bufCe := t.xc.bufCe }, evt := t.evt, sent := t.sent }) ∧
      (s.xc.retired.getLsbD b.val = false →
        t.xc.retired = s.xc.retired ||| BitVec.ofNat 64 (2 ^ b.val) ∧
        (∀ c i f, f ∈ vget (chanAt t c).qs.q i [] → struck hit f = false ∨ f.bytes.length ≤ f.placed) ∧
        (∀ r q w, (r, q) ∈ struckWork s hit → findWork (ringAt s r.val) q = some w →
          (lifeOver s r.val w = false →
            ∃ w', findWork (ringAt t r.val) q = some w' ∧ w'.d = w.d ∧ w'.stage = .wantRead ∧ w'.refetch = true) ∧
          (lifeOver s r.val w = true → isP1 s = false → w.ret = none → journalOf s r.val q = none →
            returnedWith t r.val q = some (Outcome.of .retExpired 0 0))) ∧
        ∃ v, v ∈ t.recov ∧ v.cause = 0x11 ∧ v.lossy = false ∧ ∀ x, x ∈ struckWork s hit → x.1 ∈ v.scope) := by
  have hc : countCorrected s corrected = { s with hif := (countCorrected s corrected).hif, xc := { s.xc with bufCe := s.xc.bufCe + word corrected }, evt := (countCorrected s corrected).evt, sent := (countCorrected s corrected).sent } := by
    have h := raiseC_evtOnly { s with xc := { s.xc with bufCe := s.xc.bufCe + word corrected } } Src.bufCe 0xFF corrected
    exact h.frame
  have hexec : exec (.bufferUncorrectableError b ⟨hit, corrected⟩) s = .next (bankLostOp (countCorrected s corrected) b.val hit) := rfl
  have hrings : (countCorrected s corrected).rings = s.rings := by rw [hc]
  by_cases hret : s.xc.retired.getLsbD b.val = true
  · have hop := bankLostOp_retired (s := countCorrected s corrected) (bank := b.val) (by rw [hc]; exact hret) hit
    rw [hop] at hexec
    refine ⟨_, hexec, by rw [hc], by rw [hc], sameCounters_of_rings hrings, by rw [hc], fun _ => ?_, fun h => absurd (hret.symm.trans h) nofun⟩
    rw [hc]
  · have hop := bankLostOp_retires (s := countCorrected s corrected) (bank := b.val) (by rw [hc]; simpa using hret) hit
    rw [hop] at hexec
    obtain ⟨⟨⟨hj, hl, -, -, -, hce⟩, hcount⟩, hretired, hclear⟩ := bankTaken_kept (countCorrected s corrected) b.val hit
    have hwork : struckWork (countCorrected s corrected) hit = struckWork s hit := by
      rw [hc]
      rfl
    have hlife (r : Nat) (w : Work) : lifeOver (countCorrected s corrected) r w = lifeOver s r w := by
      rw [hc]
      rfl
    have hp1 : isP1 (countCorrected s corrected) = isP1 s := by
      rw [hc]
      rfl
    have hjournal (r : Nat) (q : Word) : journalOf (countCorrected s corrected) r q = journalOf s r q := by
      rw [hc]
      rfl
    refine ⟨_, hexec, ((startRecovery_journal _ _ _ _ _ _ _).trans hj).trans (by rw [hc]),
      ((startRecovery_ledger _ _ _ _ _ _ _).trans hl).trans (by rw [hc]),
      (sameCounters_of_rings hrings).trans (hcount.trans (startRecovery_sameCounters _ _ _ _ _ _ _)),
      ((congrArg Xc.bufCe (startRecovery_xc _ _ _ _ _ _ _)).trans hce).trans (by rw [hc]), fun h => absurd h hret,
      fun _ => ⟨((congrArg Xc.retired (startRecovery_xc _ _ _ _ _ _ _)).trans hretired).trans (by rw [hc]), fun c i f hf => ?_, fun r q w hm hf => ⟨fun hlo => ?_, fun hlo hp hr hjn => ?_⟩, ?_⟩⟩
    · rw [chanAt, startRecovery_chans] at hf
      exact hclear c i f hf
    · exact bankLost_refetches (hwork ▸ hm) (by rw [ringAt_congr hrings]; exact hf) ((hlife r.val w).trans hlo)
    · refine bankLost_expires (hwork ▸ hm) (by rw [ringAt_congr hrings]; exact hf) ((hlife r.val w).trans hlo) (hp1.trans hp) hr ((hjournal r.val q).trans hjn)
    · rw [startRecovery_recov]
      refine ⟨_, List.mem_append_right _ (List.mem_singleton_self _), rfl, rfl, fun x hx => ?_⟩
      refine List.mem_filter.mpr ⟨List.mem_finRange x.1, ?_⟩
      exact List.any_eq_true.mpr ⟨x, hwork ▸ hx, beq_self_eq_true x.1⟩

/-- Settles O26: a port of the flow table moves one entry, and a bank's loss strikes its frames and reads accepted work again. -/
theorem flowTableAndBufferBanks : Obligations.FlowTableAndBufferBanks :=
  ⟨fun s _ i _ h => ⟨flowTableRead_spec s i h, flowTableWrite_spec s i h, flowTableClear_spec s i h⟩, bufferUncorrectableError_spec⟩

end Sys2Proof.Machine

/-! # Slots, trials and the commands of Table 15.5 (O44) -/

namespace Sys2Proof.Machine

open Sys2Proof

/-! ### The two slots -/

theorem inactive_slot (s : State) : inactive s = 1 ∨ inactive s = 2 := by
  unfold inactive
  split
  · exact .inr rfl
  · exact .inl rfl
  · omega

theorem fwSlot_congr {s t : State} (h : t.fw = s.fw) (i : Nat) : fwSlot t i = fwSlot s i := by
  simp only [fwSlot, h]

theorem inactive_congr {s t : State} (h : t.fw = s.fw) : inactive t = inactive s := by
  simp only [inactive, h]

theorem trialSlot_congr {s t : State} (h : t.fw = s.fw) : trialSlot t = trialSlot s := by
  simp only [trialSlot, h]

theorem fwSlot_modSlot (s : State) {i : Nat} (f : ImgSlot → ImgSlot) (hi : i = 1 ∨ i = 2) :
    fwSlot (modSlot s i f) i = f (fwSlot s i) := by
  rcases hi with rfl | rfl <;> rfl

/-- A change of one slot leaves the other. -/
theorem fwSlot_modSlot_other (s : State) {i : Nat} (f : ImgSlot → ImgSlot) (hi : i = 1 ∨ i = 2) :
    fwSlot (modSlot s i f) (3 - i) = fwSlot s (3 - i) := by
  rcases hi with rfl | rfl <;> rfl

/-- The slot in trial is slot 1 or slot 2. -/
theorem trialSlot_slot {s : State} {k : Nat} (h : trialSlot s = some k) : k = 1 ∨ k = 2 := by
  unfold trialSlot at h
  split at h
  · exact .inl (Option.some.inj h).symm
  · split at h
    · exact .inr (Option.some.inj h).symm
    · exact absurd h nofun

@[simp] theorem modSlot_floor (s : State) (i : Nat) (f : ImgSlot → ImgSlot) : (modSlot s i f).fw.floor = s.fw.floor := by
  simp only [modSlot, modFw]; (repeat' split) <;> rfl

@[simp] theorem modSlot_restartAt (s : State) (i : Nat) (f : ImgSlot → ImgSlot) : (modSlot s i f).fw.restartAt = s.fw.restartAt := by
  simp only [modSlot, modFw]; (repeat' split) <;> rfl

theorem modSlot_trialLive (s : State) (i : Nat) (f : ImgSlot → ImgSlot) : (modSlot s i f).fw.trialLive = s.fw.trialLive := by
  simp only [modSlot, modFw]; (repeat' split) <;> rfl

theorem modSlot_timerOn (s : State) (i : Nat) (f : ImgSlot → ImgSlot) : (modSlot s i f).fw.timerOn = s.fw.timerOn := by
  simp only [modSlot, modFw]; (repeat' split) <;> rfl

theorem modSlot_cps (s : State) (i : Nat) (f : ImgSlot → ImgSlot) :
    (modSlot s i f).fw.cp0 = s.fw.cp0 ∧ (modSlot s i f).fw.cp1 = s.fw.cp1 := by
  simp only [modSlot, modFw]; (repeat' split) <;> exact ⟨rfl, rfl⟩

theorem modSlot_fwFrame (s : State) (i : Nat) (f : ImgSlot → ImgSlot) : FwFrame s (modSlot s i f) := fw_fwFrame s _

theorem emitOut_fwFrame (s : State) (o : Out) : FwFrame s (emitOut s o) := rfl

/-! ### Work of one ring -/

/-- What work of a ring may change: no other ring, and no ring's place in memory and counters. -/
def RingWork (s t : State) (r : Nat) : Prop := OnlyRing s t r ∧ SameCounters s t

theorem RingWork.trans {s t u : State} {r : Nat} (h : RingWork s t r) (h' : RingWork t u r) : RingWork s u r :=
  ⟨h.1.trans h'.1, h.2.trans h'.2⟩

theorem ringWork_of_rings {s t : State} (r : Nat) (h : t.rings = s.rings) : RingWork s t r :=
  ⟨onlyRing_of_rings r h, sameCounters_of_rings h⟩

theorem returnWith_ringWork (s : State) (r : Nat) (q : Word) (o : Outcome) : RingWork s (returnWith s r q o) r :=
  ⟨returnWith_onlyRing s r q o, returnWith_sameCounters s r q o⟩

theorem returnWork_ringWork (s : State) (r : Nat) (q : Word) (st : Status) : RingWork s (returnWork s r q st) r :=
  returnWith_ringWork s r q _

/-- A change of a ring that keeps its place in memory and its counters. -/
theorem setRing_sameCounters (s : State) (r : Nat) (f : Ring → Ring)
    (h : ∀ g, (f g).base = g.base ∧ (f g).log2 = g.log2 ∧ (f g).lifetime = g.lifetime ∧ (f g).tail = g.tail ∧ (f g).head = g.head ∧
      (f g).acc = g.acc ∧ (f g).cpl = g.cpl ∧ (f g).enable = g.enable) : SameCounters s (setRing s r f) := by
  intro x
  rw [ringAt_setRing]
  split
  next e => obtain ⟨rfl, _⟩ := e; exact h _
  next => exact ⟨rfl, rfl, rfl, rfl, rfl, rfl, rfl, rfl⟩

theorem emitWork_ringWork (s : State) (r : RingNo) (q : Word) (o : Outcome) : RingWork s (emitWork s r q o) r.val := by
  refine ⟨emitWork_onlyRing s r q o, ?_⟩
  unfold emitWork
  split
  · refine ((setWork_sameCounters s r.val q _).trans
      (setRing_sameCounters _ r.val (fun g => { g with emitted := g.emitted + 1 }) ?_)).trans (sameCounters_of_rings rfl)
    exact fun _ => ⟨rfl, rfl, rfl, rfl, rfl, rfl, rfl, rfl⟩
  · exact .refl s

theorem emitWork_frame (s : State) (r : RingNo) (q : Word) (o : Outcome) :
    emitWork s r q o = { s with rings := (emitWork s r q o).rings, journal := (emitWork s r q o).journal } := by
  apply State.eq_of_parts <;> simp

/-- A command's outcome enters the journal of a state that differs from the command's in what no ring and no burst holds. -/
theorem emitWork_journal_of_room {s u : State} (room : journalRoom s = true) (hj : u.journal = s.journal) (hu : u.upl = s.upl)
    (r : RingNo) (q : Word) (o : Outcome) : (emitWork u r q o).journal = s.journal ++ [{ ring := r, seq := q, out := o }] := by
  rw [emitWork_journal, hj]
  rw [journalSpace_congr hj (by rw [hu]) (by rw [hu])]
  exact journalSpace_of_room room

/-! ### FW_STAGE -/

theorem ringWindowFault_ringWork (s : State) (r a : Nat) : RingWork s (ringWindowFault s r a) r := by
  refine ⟨ringWindowFault_onlyRing s r a, fun x => ?_⟩
  rw [ringAt_ringWindowFault]
  exact setRing_sameCounters s r (fun g => { g with winErr := true }) (fun _ => ⟨rfl, rfl, rfl, rfl, rfl, rfl, rfl, rfl⟩) x

/-- The state of a buffer read that failed, before the return of its work. -/
def bufferReadFailed (s : State) (w : Work) (res : XferResult) : State :=
  latchFault (setRing (sendRead s 0 w.d.addr.toNat w.d.len.toNat) 0 (fun g => { g with dmaErr := true })) (xferKind res) 0 0 w.d.addr.toNat

theorem bufferReadFailed_ringWork (s : State) (w : Work) (res : XferResult) : RingWork s (bufferReadFailed s w res) 0 := by
  refine .trans (.trans (t := sendRead s 0 w.d.addr.toNat w.d.len.toNat) (ringWork_of_rings 0 (sendRead_rings _ _ _ _))
    ⟨setRing_onlyRing _ 0 (fun g => { g with dmaErr := true }), setRing_sameCounters _ 0 _ fun _ => ⟨rfl, rfl, rfl, rfl, rfl, rfl, rfl, rfl⟩⟩) ?_
  exact ringWork_of_rings 0 (latchFault_rings _ _ _ _ _)

theorem readBuffer_of_failed {s : State} {w : Work} {res : XferResult} (hm : mayMaster s 0 = true)
    (hw : inWindows s 0 false w.d.addr.toNat w.d.len.toNat = true) (hr : res ≠ .ok) :
    readBuffer s w res = .inl (returnWork (bufferReadFailed s w res) 0 w.seq .retDma) := by
  simp only [readBuffer, hm, hw, Bool.not_true, Bool.false_eq_true, if_false, if_neg hr]
  rfl

theorem readBuffer_of_ok {s : State} {w : Work} (hm : mayMaster s 0 = true)
    (hw : inWindows s 0 false w.d.addr.toNat w.d.len.toNat = true) :
    readBuffer s w .ok = .inr (sendRead s 0 w.d.addr.toNat w.d.len.toNat) := by
  simp only [readBuffer, hm, hw, Bool.not_true, Bool.false_eq_true, if_false, if_true]

theorem readBuffer_inr {s u : State} {w : Work} {res : XferResult} (h : readBuffer s w res = .inr u) :
    u = sendRead s 0 w.d.addr.toNat w.d.len.toNat := by
  dsimp only [readBuffer] at h
  split at h
  · exact absurd h nofun
  · split at h
    · exact absurd h nofun
    · split at h
      · exact (Sum.inr.inj h).symm
      · exact absurd h nofun

/-- A buffer read that does not go on returns its work, and leaves the slots. -/
theorem readBuffer_inl {s u : State} {w : Work} {res : XferResult} (h : readBuffer s w res = .inl u) : RingWork s u 0 ∧ u.fw = s.fw := by
  dsimp only [readBuffer] at h
  split at h
  · rw [← Sum.inl.inj h]; exact ⟨ringWork_of_rings 0 rfl, rfl⟩
  · split at h
    · rw [← Sum.inl.inj h]
      exact ⟨(ringWindowFault_ringWork s 0 _).trans (returnWork_ringWork _ _ _ _), by simp⟩
    · split at h
      · exact absurd h nofun
      · rw [← Sum.inl.inj h]
        exact ⟨(bufferReadFailed_ringWork s w res).trans (returnWork_ringWork _ _ _ _), by simp⟩

/-- The state of a whole staging, before its outcome. -/
def staged (s : State) (w : Work) (data : List Byte) (sigOk : Bool) : State :=
  modSlot (programSlot (sendRead s 0 w.d.addr.toNat w.d.len.toNat) (inactive s) w.d.p0.toNat data) (inactive s)
    (stageSlot data sigOk w.d.p0.toNat (w.d.len.toNat / 4096))

theorem programSlot_fwFrame (s : State) (i off : Nat) (data : List Byte) : FwFrame s (programSlot s i off data) := by
  unfold programSlot
  split
  · exact (emitOut_fwFrame s _).trans (emitOut_fwFrame _ _)
  · exact emitOut_fwFrame s _

theorem programSlot_fw (s : State) (i off : Nat) (data : List Byte) : (programSlot s i off data).fw = s.fw := by
  unfold programSlot
  split <;> rfl

theorem flash_mem_programSlot (s : State) (i off : Nat) (data : List Byte) :
    Out.flash (slotBase i + 4096 * off) data ∈ (programSlot s i off data).sent := by
  simp [programSlot, emitOut]

theorem staged_fwFrame (s : State) (w : Work) (data : List Byte) (sigOk : Bool) : FwFrame s (staged s w data sigOk) :=
  ((show FwFrame s (sendRead s 0 w.d.addr.toNat w.d.len.toNat) from rfl).trans (programSlot_fwFrame _ _ _ _)).trans (modSlot_fwFrame _ _ _)

theorem fwSlot_staged (s : State) (w : Work) (data : List Byte) (sigOk : Bool) :
    fwSlot (staged s w data sigOk) (inactive s) = stageSlot data sigOk w.d.p0.toNat (w.d.len.toNat / 4096) (fwSlot s (inactive s)) := by
  rw [staged, fwSlot_modSlot _ _ (inactive_slot s), fwSlot_congr ((programSlot_fw _ _ _ _).trans (sendRead_fw _ _ _ _))]

theorem fwSlot_staged_other (s : State) (w : Work) (data : List Byte) (sigOk : Bool) :
    fwSlot (staged s w data sigOk) (3 - inactive s) = fwSlot s (3 - inactive s) := by
  rw [staged, fwSlot_modSlot_other _ _ (inactive_slot s), fwSlot_congr ((programSlot_fw _ _ _ _).trans (sendRead_fw _ _ _ _))]

theorem staged_floor (s : State) (w : Work) (data : List Byte) (sigOk : Bool) : (staged s w data sigOk).fw.floor = s.fw.floor := by
  rw [staged, modSlot_floor, programSlot_fw, sendRead_fw]

theorem FwFrame.rings_eq {s t : State} (h : FwFrame s t) : t.rings = s.rings := by rw [h]

theorem FwFrame.journal_eq {s t : State} (h : FwFrame s t) : t.journal = s.journal := by rw [h]

theorem FwFrame.upl_eq {s t : State} (h : FwFrame s t) : t.upl = s.upl := by rw [h]

/-- FW_STAGE from its buffer read on. -/
def stageRead (s : State) (seq : Word) (w : Work) (res : XferResult) (data : List Byte) (sigOk : Bool) : State :=
  match readBuffer s w res with
  | .inl t => t
  | .inr _ => if data.length ≠ w.d.len.toNat then s else emitWork (staged s w data sigOk) 0 seq (Outcome.of .ok 0 0)

theorem fwStageOp_of_command {s : State} {seq : Word} {w : Work} (h : cmdWork s 0 seq 0x0130 = some w) (res : XferResult) (data : List Byte)
    (sigOk : Bool) : fwStageOp s seq res data sigOk =
      if w.d.len.toNat < 4096 ∨ 2 ^ 20 < w.d.len.toNat ∨ w.d.len.toNat % 4096 ≠ 0 then returnWork s 0 seq .retLength
      else if 0xC00000 < w.d.p0.toNat * 4096 + w.d.len.toNat then returnWork s 0 seq .retParam
      else if runsTrial s then returnWork s 0 seq .retBusy
      else stageRead s seq w res data sigOk := by
  simp only [fwStageOp, h, slotBytes]
  split
  · rfl
  · split
    · rfl
    · split
      · rfl
      · unfold stageRead
        cases hb : readBuffer s w res with
        | inl u => rfl
        | inr u =>
          dsimp only
          rw [readBuffer_inr hb]
          rfl

/-- Every end of FW_STAGE keeps the running slot, the floor and the rings but ring 0. -/
theorem fwStageOp_keeps {s : State} {seq : Word} {w : Work} (h : cmdWork s 0 seq 0x0130 = some w) (res : XferResult) (data : List Byte)
    (sigOk : Bool) : RingWork s (fwStageOp s seq res data sigOk) 0 ∧
      fwSlot (fwStageOp s seq res data sigOk) (3 - inactive s) = fwSlot s (3 - inactive s) ∧
      (fwStageOp s seq res data sigOk).fw.floor = s.fw.floor := by
  have kept : ∀ t : State, RingWork s t 0 → t.fw = s.fw →
      RingWork s t 0 ∧ fwSlot t (3 - inactive s) = fwSlot s (3 - inactive s) ∧ t.fw.floor = s.fw.floor :=
    fun t hr hf => ⟨hr, fwSlot_congr hf _, by rw [hf]⟩
  have returned : ∀ st, RingWork s (returnWork s 0 seq st) 0 ∧ fwSlot (returnWork s 0 seq st) (3 - inactive s) = fwSlot s (3 - inactive s) ∧
      (returnWork s 0 seq st).fw.floor = s.fw.floor :=
    fun st => kept _ (returnWork_ringWork s 0 seq st) (returnWork_fw s 0 seq st)
  rw [fwStageOp_of_command h]
  split
  · exact returned _
  · split
    · exact returned _
    · split
      · exact returned _
      · unfold stageRead
        split
        next u hu => exact kept u (readBuffer_inl hu).1 (readBuffer_inl hu).2
        next =>
          split
          · exact kept s (ringWork_of_rings 0 rfl) rfl
          · refine ⟨(ringWork_of_rings 0 (staged_fwFrame s w data sigOk).rings_eq).trans (emitWork_ringWork _ 0 seq _), ?_, ?_⟩
            · rw [fwSlot_congr (emitWork_fw _ _ _ _), fwSlot_staged_other]
            · rw [emitWork_fw, staged_floor]

/-- A return of the command leaves what the firmware holds. -/
theorem returned_command {s : State} {seq : Word} {op : Nat} {w : Work} (h : cmdWork s 0 seq op = some w) (st : Status) :
    returnedWith (returnWork s 0 seq st) 0 seq = some (Outcome.of st 0 0) ∧ (returnWork s 0 seq st).fw = s.fw :=
  ⟨returnedWith_of_workOpen (cmdWork_eq_some h).1 st, returnWork_fw s 0 seq st⟩

/-- A buffer read that fails returns its work RET_DMA. -/
theorem returnedWith_bufferReadFailed {s : State} {w : Work} {seq : Word} (h : workOpen s 0 seq = some w) (res : XferResult) :
    returnedWith (returnWork (bufferReadFailed s w res) 0 w.seq .retDma) 0 seq = some (Outcome.of .retDma 0 0) := by
  obtain ⟨hf, hret, hj⟩ := workOpen_eq_some.1 h
  rw [seq_of_findWork hf]
  refine returnedWith_returnWork (w := w) ?_ hret ?_
  · rw [← hf, bufferReadFailed, ringAt_latchFault, ringAt_setRing_self _ _ _ (by decide)]
    simp only [findWork, ringAt_congr (sendRead_rings s 0 _ _)]
  · rw [← hj]
    simp [bufferReadFailed, journalOf]

/-- FW_STAGE. -/
theorem fwStage_follows {s : State} {seq : Word} {w : Work} (h : cmdWork s 0 seq 0x0130 = some w) (res : XferResult) (data : List Byte)
    (sigOk : Bool) : ∃ t, exec (.fwStage seq res ⟨data, sigOk⟩) s = .next t ∧ OnlyRing s t 0 ∧ SameCounters s t ∧ fwSlot t (3 - inactive s) = fwSlot s (3 - inactive s) ∧
        t.fw.floor = s.fw.floor ∧
        ((w.d.len.toNat < 4096 ∨ 2 ^ 20 < w.d.len.toNat ∨ w.d.len.toNat % 4096 ≠ 0) →
          returnedWith t 0 seq = some (Outcome.of .retLength 0 0) ∧ t.fw = s.fw) ∧
        (4096 ≤ w.d.len.toNat → w.d.len.toNat ≤ 2 ^ 20 → w.d.len.toNat % 4096 = 0 →
          (0xC00000 < w.d.p0.toNat * 4096 + w.d.len.toNat → returnedWith t 0 seq = some (Outcome.of .retParam 0 0) ∧ t.fw = s.fw) ∧
          (w.d.p0.toNat * 4096 + w.d.len.toNat ≤ 0xC00000 → runsTrial s = true →
            returnedWith t 0 seq = some (Outcome.of .retBusy 0 0) ∧ t.fw = s.fw) ∧
          (w.d.p0.toNat * 4096 + w.d.len.toNat ≤ 0xC00000 → runsTrial s = false → mayMaster s 0 = true →
            inWindows s 0 false w.d.addr.toNat w.d.len.toNat = true →
            (res ≠ .ok → returnedWith t 0 seq = some (Outcome.of .retDma 0 0) ∧ t.fw = s.fw) ∧
            (res = .ok → data.length ≠ w.d.len.toNat → t = s) ∧
            (res = .ok → data.length = w.d.len.toNat → t.journal = s.journal ++ [{ ring := 0, seq := seq, out := Outcome.of .ok 0 0 }] ∧
              fwSlot t (inactive s) = stageSlot data sigOk w.d.p0.toNat (w.d.len.toNat / 4096) (fwSlot s (inactive s)) ∧
              Out.flash (slotBase (inactive s) + 4096 * w.d.p0.toNat) data ∈ t.sent))) := by
  obtain ⟨hopen, -, -, -, -, hroom, -⟩ := cmdWork_eq_some h
  obtain ⟨⟨hring, hcount⟩, hslot, hfloor⟩ := fwStageOp_keeps h res data sigOk
  refine ⟨_, rfl, hring, hcount, hslot, hfloor, fun hbad => ?_, fun h1 h2 h3 => ?_⟩
  · show returnedWith (fwStageOp s seq res data sigOk) 0 seq = _ ∧ (fwStageOp s seq res data sigOk).fw = _
    rw [fwStageOp_of_command h, if_pos hbad]
    exact returned_command h _
  · have hlen : ¬ (w.d.len.toNat < 4096 ∨ 2 ^ 20 < w.d.len.toNat ∨ w.d.len.toNat % 4096 ≠ 0) := by omega
    dsimp only
    rw [fwStageOp_of_command h, if_neg hlen]
    refine ⟨fun hpast => ?_, fun hin htrial => ?_, fun hin htrial hm hw => ⟨fun hres => ?_, ?_, ?_⟩⟩
    · rw [if_pos hpast]
      exact returned_command h _
    · rw [if_neg (Nat.not_lt.2 hin), if_pos htrial]
      exact returned_command h _
    · rw [if_neg (Nat.not_lt.2 hin), htrial, stageRead, readBuffer_of_failed hm hw hres]
      exact ⟨returnedWith_bufferReadFailed hopen res, by simp [bufferReadFailed]⟩
    · rintro rfl hshort
      rw [if_neg (Nat.not_lt.2 hin), htrial, stageRead, readBuffer_of_ok hm hw]
      exact if_pos hshort
    · rintro rfl hwhole
      rw [if_neg (Nat.not_lt.2 hin), htrial, stageRead, readBuffer_of_ok hm hw]
      simp only [Bool.false_eq_true, if_false, hwhole, ne_eq, not_true_eq_false]
      have fr := staged_fwFrame s w data sigOk
      refine ⟨emitWork_journal_of_room hroom fr.journal_eq fr.upl_eq _ _ _, ?_, ?_⟩
      · rw [fwSlot_congr (emitWork_fw _ _ _ _), fwSlot_staged]
      · rw [emitWork_sent]
        exact flash_mem_programSlot _ _ _ _

/-! ### FW_ACTIVATE -/

/-- The inactive slot put in trial, with no confirmation timer yet. -/
def inTrial (s : State) : State :=
  modFw (modSlot s (inactive s) (fun x => { x with st := .trial, booted := false })) (fun w => { w with trialLive := true, timerOn := false, left := 0 })

theorem fwActivateOp_of_command {s : State} {seq : Word} {w : Work} (h : cmdWork s 0 seq 0x0131 = some w) :
    fwActivateOp s seq =
      if s.fw.runSlot ≠ 0 ∧ (fwSlot s s.fw.runSlot).st ≠ .confirmed then returnWork s 0 seq .retBusy
      else if activateWhy s (fwSlot s (inactive s)) ≠ 0 then
        returnWith s 0 seq (Outcome.of .retDenied (word (activateWhy s (fwSlot s (inactive s)))) 0)
      else restartAfter (emitWork (inTrial s) 0 seq (Outcome.of .ok 0 0)) seq := by
  unfold fwActivateOp
  rw [h]
  rfl

/-- The frame of FW_ACTIVATE: the rings, the journal and what the firmware holds. -/
def ActivateFrame (s t : State) : Prop := t = { s with rings := t.rings, journal := t.journal, fw := t.fw }

theorem returnWith_activateFrame (s : State) (r : Nat) (q : Word) (o : Outcome) : ActivateFrame s (returnWith s r q o) := by
  unfold ActivateFrame
  apply State.eq_of_parts <;> simp

theorem restartAfter_activateFrame (s : State) (seq : Word) :
    ActivateFrame s (restartAfter (emitWork (inTrial s) 0 seq (Outcome.of .ok 0 0)) seq) := by
  have h : ActivateFrame (inTrial s) (emitWork (inTrial s) 0 seq (Outcome.of .ok 0 0)) := by
    unfold ActivateFrame
    apply State.eq_of_parts <;> simp
  unfold ActivateFrame at h ⊢
  rw [h]
  rfl

theorem fwActivateOp_keeps {s : State} {seq : Word} {w : Work} (h : cmdWork s 0 seq 0x0131 = some w) :
    RingWork s (fwActivateOp s seq) 0 ∧ ActivateFrame s (fwActivateOp s seq) := by
  rw [fwActivateOp_of_command h]
  split
  · exact ⟨returnWork_ringWork s 0 seq _, returnWith_activateFrame s 0 seq _⟩
  · split
    · exact ⟨returnWith_ringWork s 0 seq _, returnWith_activateFrame s 0 seq _⟩
    · refine ⟨?_, restartAfter_activateFrame s seq⟩
      exact ((ringWork_of_rings (t := inTrial s) 0 rfl).trans (emitWork_ringWork _ 0 seq _)).trans (ringWork_of_rings 0 rfl)

theorem fwActivate_follows {s : State} {seq : Word} {w : Work} (h : cmdWork s 0 seq 0x0131 = some w) :
    ∃ t, exec (.fwActivate seq) s = .next t ∧ OnlyRing s t 0 ∧ SameCounters s t ∧
      t = { s with rings := t.rings, journal := t.journal, fw := t.fw } ∧
      (s.fw.runSlot ≠ 0 → (fwSlot s s.fw.runSlot).st ≠ .confirmed → returnedWith t 0 seq = some (Outcome.of .retBusy 0 0) ∧ t.fw = s.fw) ∧
      ((s.fw.runSlot = 0 ∨ (fwSlot s s.fw.runSlot).st = .confirmed) →
        (activateWhy s (fwSlot s (inactive s)) ≠ 0 → t.fw = s.fw ∧
          returnedWith t 0 seq = some (Outcome.of .retDenied (word (activateWhy s (fwSlot s (inactive s)))) 0)) ∧
        (activateWhy s (fwSlot s (inactive s)) = 0 → (fwSlot t (inactive s)).st = .trial ∧ t.fw.trialLive = true ∧
          fwSlot t (3 - inactive s) = fwSlot s (3 - inactive s) ∧ t.fw.restartAt = s.fw.restartAt ++ [seq] ∧
          t.journal = s.journal ++ [{ ring := 0, seq := seq, out := Outcome.of .ok 0 0 }])) := by
  obtain ⟨hopen, -, -, -, -, hroom, -⟩ := cmdWork_eq_some h
  obtain ⟨⟨hring, hcount⟩, hframe⟩ := fwActivateOp_keeps h
  refine ⟨_, rfl, hring, hcount, hframe, fun h1 h2 => ?_, fun hrun => ?_⟩
  · rw [fwActivateOp_of_command h, if_pos ⟨h1, h2⟩]
    exact returned_command h _
  · have hfree : ¬ (s.fw.runSlot ≠ 0 ∧ (fwSlot s s.fw.runSlot).st ≠ .confirmed) := fun ⟨h1, h2⟩ => hrun.elim h1 h2
    rw [fwActivateOp_of_command h, if_neg hfree]
    refine ⟨fun hwhy => ?_, fun hwhy => ?_⟩
    · rw [if_pos hwhy]
      obtain ⟨hf, hret, hj⟩ := workOpen_eq_some.1 hopen
      exact ⟨returnWith_fw _ _ _ _, returnedWith_returnWith hf hret hj⟩
    · rw [if_neg (not_not.2 hwhy)]
      have hfw : (restartAfter (emitWork (inTrial s) 0 seq (Outcome.of .ok 0 0)) seq).fw =
          { (inTrial s).fw with restartAt := (inTrial s).fw.restartAt ++ [seq] } := by
        simp [restartAfter, modFw]
      refine ⟨?_, ?_, ?_, ?_, ?_⟩
      · have := fwSlot_modSlot s (i := inactive s) (fun x => { x with st := .trial, booted := false }) (inactive_slot s)
        rw [show fwSlot (restartAfter (emitWork (inTrial s) 0 seq (Outcome.of .ok 0 0)) seq) (inactive s) = _ from
          (by simp only [fwSlot, hfw]; rfl : _ = fwSlot (modSlot s (inactive s) fun x => { x with st := .trial, booted := false }) (inactive s)), this]
      · rw [hfw]; rfl
      · have := fwSlot_modSlot_other s (i := inactive s) (fun x => { x with st := .trial, booted := false }) (inactive_slot s)
        rw [← this]
        simp only [fwSlot, hfw]; rfl
      · rw [hfw]
        exact congrArg (· ++ [seq]) (modSlot_restartAt s _ _)
      · exact emitWork_journal_of_room (u := inTrial s) hroom rfl rfl _ _ _

/-! ### Boot, restarts and the end of a trial -/

/-- The directory as the boot monitor finds it, stale trials rejected. -/
def bootCleared (s : State) : State := modFw s (fun w => { w with
  slotA := rejectStale w.trialLive w.slotA
  slotB := rejectStale w.trialLive w.slotB
  cp0 := .bootMonitor
  cp1 := .bootMonitor
  runSlot := 0
  restartAt := []
  ptp := [] })

/-- A slot in trial is recorded as booted. -/
def markBooted (x : ImgSlot) : ImgSlot := if x.st = .trial then { x with booted := true } else x

/-- The state of a boot before NO_IMAGE is raised. -/
def bootTaken (s : State) : State :=
  modFw (modSlot (bootCleared s) (bootSel (bootCleared s)) markBooted) (fun w => { w with noImage := decide (bootSel (bootCleared s) = 0) })

theorem boot_eq (s : State) :
    boot s = if bootSel (bootCleared s) = 0 then raise (bootTaken s) Src.fwNoImage 0xFF 0 else bootTaken s := rfl

theorem boot_fw (s : State) : (boot s).fw = (bootTaken s).fw := by
  rw [boot_eq]
  split
  · exact raise_fw _ _ _ _
  · rfl

theorem boot_fwFrame (s : State) : FwFrame s (boot s) := by
  have taken : FwFrame s (bootTaken s) := fw_fwFrame s _
  rw [boot_eq]
  split
  · exact taken.trans (raise_evtOnly _ _ _ _).fwFrame
  · exact taken

theorem markBooted_st (x : ImgSlot) : (markBooted x).st = x.st := by
  unfold markBooted
  split <;> rfl

theorem rejectStale_rejected {x : ImgSlot} (live : Bool) (h : x.st = .rejected) : (rejectStale live x).st = .rejected := by
  unfold rejectStale
  split
  · rfl
  · exact h

theorem modSlot_markBooted_st (s : State) (i k : Nat) : (fwSlot (modSlot s i markBooted) k).st = (fwSlot s k).st := by
  have mark := markBooted_st
  simp only [fwSlot, modSlot, modFw]
  split
  · split
    · exact mark _
    · split <;> rfl
  · split
    · rfl
    · split
      · exact mark _
      · rfl

/-- A boot leaves a rejected slot rejected. -/
theorem boot_rejected {s : State} {k : Nat} (h : (fwSlot s k).st = .rejected) : (fwSlot (boot s) k).st = .rejected := by
  rw [fwSlot_congr (boot_fw s)]
  show (fwSlot (modSlot (bootCleared s) _ markBooted) k).st = .rejected
  rw [modSlot_markBooted_st]
  unfold fwSlot at h ⊢
  split at h
  next hk => rw [if_pos hk]; exact rejectStale_rejected _ h
  next hk => rw [if_neg hk]; exact rejectStale_rejected _ h

theorem boot_trialLive (s : State) : (boot s).fw.trialLive = s.fw.trialLive := by
  rw [boot_fw]
  exact modSlot_trialLive _ _ _

theorem boot_cps (s : State) : (boot s).fw.cp0 = .bootMonitor ∧ (boot s).fw.cp1 = .bootMonitor := by
  rw [boot_fw]
  exact modSlot_cps (bootCleared s) _ _

theorem fwRestart_fw (s : State) : (fwRestart s).fw = (boot (raise s Src.cpReset 0xFF 0x12)).fw :=
  startRecovery_fw _ _ _ _ _ _ _

/-- A firmware restart begins a recovery with cause 0x12. -/
theorem fwRestart_recovers (s : State) : ∃ v, v ∈ (fwRestart s).recov ∧ v.cause = 0x12 := by
  unfold fwRestart
  rw [startRecovery_recov]
  exact ⟨_, List.mem_append_right _ (List.mem_singleton.2 rfl), rfl⟩

theorem fwRestart_sameCounters (s : State) : SameCounters s (fwRestart s) :=
  (sameCounters_of_rings (((boot_fwFrame _).rings_eq).trans (raise_rings _ _ _ _))).trans (startRecovery_sameCounters _ _ _ _ _ _ _)

/-- The slot rejected and the trial over, before ROLLBACK is raised. -/
theorem rejectTrial_fw (s : State) (k : Nat) : (rejectTrial s k).fw = endTrial (modSlot s k (fun x => { x with st := .rejected })).fw :=
  raise_fw _ _ _ _

theorem rejectTrial_fwFrame (s : State) (k : Nat) : FwFrame s (rejectTrial s k) :=
  .trans (t := modFw (modSlot s k (fun x => { x with st := .rejected })) endTrial) (fw_fwFrame s _) (raise_evtOnly _ _ _ _).fwFrame

theorem rejectTrial_rejected (s : State) {k : Nat} (hk : k = 1 ∨ k = 2) :
    (fwSlot (rejectTrial s k) k).st = .rejected ∧ (rejectTrial s k).fw.trialLive = false := by
  refine ⟨?_, by rw [rejectTrial_fw]; rfl⟩
  have := congrArg ImgSlot.st (fwSlot_modSlot s (fun x => { x with st := .rejected }) hk)
  simp only [fwSlot, rejectTrial_fw] at this ⊢
  exact this

/-- A rejection with CORE powered restarts the firmware. -/
theorem rollBack_restarts {s : State} {k : Nat} (hk : k = 1 ∨ k = 2) (hcore : s.pwr.domCore = true) :
    SameCounters s (rollBack s k) ∧ (fwSlot (rollBack s k) k).st = .rejected ∧ (rollBack s k).fw.trialLive = false ∧
      (rollBack s k).fw.cp0 = .bootMonitor ∧ (rollBack s k).fw.cp1 = .bootMonitor ∧ ∃ v, v ∈ (rollBack s k).recov ∧ v.cause = 0x12 := by
  have hroll : rollBack s k = fwRestart (rejectTrial s k) := if_pos hcore
  obtain ⟨hst, hlive⟩ := rejectTrial_rejected s hk
  rw [hroll]
  obtain ⟨h0, h1⟩ := boot_cps (raise (rejectTrial s k) Src.cpReset 0xFF 0x12)
  refine ⟨(sameCounters_of_rings (rejectTrial_fwFrame s k).rings_eq).trans (fwRestart_sameCounters _), ?_, ?_, ?_, ?_, fwRestart_recovers _⟩
  · rw [fwSlot_congr (fwRestart_fw _)]
    exact boot_rejected (by rw [fwSlot_congr (raise_fw _ _ _ _)]; exact hst)
  · rw [fwRestart_fw, boot_trialLive, raise_fw]; exact hlive
  · rw [fwRestart_fw]; exact h0
  · rw [fwRestart_fw]; exact h1

/-! ### Confirmation -/

/-- The slots and the trial after a confirmation of slot k. -/
def slotsConfirmed (s : State) (k : Nat) : State :=
  if bootable s (fwSlot s (3 - k)) then
    modSlot (modFw (modSlot s k (fun x => { x with st := .confirmed })) endTrial) (3 - k) (fun x => { x with st := .valid })
  else modFw (modSlot s k (fun x => { x with st := .confirmed })) endTrial

/-- Confirming an image may raise the security version floor, and never lowers it. -/
theorem confirmSlot_cases (s : State) (k : Nat) :
    confirmSlot s k = slotsConfirmed s k ∨
      ∃ svn, s.fw.floor ≤ svn ∧ confirmSlot s k = emitOut (modFw (slotsConfirmed s k) (fun w => { w with floor := svn })) (.fuse svn) := by
  unfold confirmSlot
  cases hh : (fwSlot s k).hdr with
  | none => exact .inl rfl
  | some h =>
    dsimp only
    by_cases hr : (h.raiseFloor && decide (s.fw.floor < h.svn)) = true
    · rw [if_pos hr]
      simp only [Bool.and_eq_true, decide_eq_true_eq] at hr
      exact .inr ⟨h.svn, hr.2.le, rfl⟩
    · rw [if_neg hr]
      exact .inl rfl

theorem slotsConfirmed_confirmed (s : State) {k : Nat} (hk : k = 1 ∨ k = 2) :
    (fwSlot (slotsConfirmed s k) k).st = .confirmed ∧ (slotsConfirmed s k).fw.trialLive = false ∧
      (slotsConfirmed s k).fw.timerOn = false ∧ (slotsConfirmed s k).fw.floor = s.fw.floor := by
  unfold slotsConfirmed
  rcases hk with rfl | rfl <;> split <;> exact ⟨rfl, rfl, rfl, rfl⟩

theorem slotsConfirmed_fwFrame (s : State) (k : Nat) : FwFrame s (slotsConfirmed s k) := by
  unfold slotsConfirmed
  split <;> exact fw_fwFrame s _

theorem confirmSlot_fwFrame (s : State) (k : Nat) : FwFrame s (confirmSlot s k) := by
  obtain h | ⟨svn, -, h⟩ := confirmSlot_cases s k
  · rw [h]; exact slotsConfirmed_fwFrame s k
  · rw [h]; exact ((slotsConfirmed_fwFrame s k).trans (fw_fwFrame _ _)).trans (emitOut_fwFrame _ _)

theorem confirmSlot_confirmed (s : State) {k : Nat} (hk : k = 1 ∨ k = 2) :
    (fwSlot (confirmSlot s k) k).st = .confirmed ∧ (confirmSlot s k).fw.trialLive = false ∧
      (confirmSlot s k).fw.timerOn = false ∧ s.fw.floor ≤ (confirmSlot s k).fw.floor := by
  obtain ⟨hst, hlive, htimer, hfloor⟩ := slotsConfirmed_confirmed s hk
  obtain h | ⟨svn, hsvn, h⟩ := confirmSlot_cases s k
  · rw [h]; exact ⟨hst, hlive, htimer, hfloor.ge⟩
  · rw [h]; exact ⟨hst, hlive, htimer, hsvn⟩

/-! ### FW_CONFIRM and FW_FALLBACK -/

theorem fwConfirmOp_of_command {s : State} {seq : Word} {w : Work} (h : cmdWork s 0 seq 0x0132 = some w) :
    (trialSlot s = none → fwConfirmOp s seq = returnWork s 0 seq .retBusy) ∧
    ∀ k, trialSlot s = some k → fwConfirmOp s seq =
      if s.fw.restricted && !w.d.p0.getLsbD 0 then returnWork s 0 seq .retBusy else emitWork (confirmSlot s k) 0 seq (Outcome.of .ok 0 0) := by
  refine ⟨fun ht => ?_, fun k ht => ?_⟩ <;> simp only [fwConfirmOp, h, ht]

theorem fwConfirmOp_ringWork {s : State} {seq : Word} {w : Work} (h : cmdWork s 0 seq 0x0132 = some w) : RingWork s (fwConfirmOp s seq) 0 := by
  obtain ⟨hnone, hsome⟩ := fwConfirmOp_of_command h
  cases ht : trialSlot s with
  | none => rw [hnone ht]; exact returnWork_ringWork s 0 seq _
  | some k =>
    rw [hsome k ht]
    split
    · exact returnWork_ringWork s 0 seq _
    · exact (ringWork_of_rings 0 (confirmSlot_fwFrame s k).rings_eq).trans (emitWork_ringWork _ 0 seq _)

theorem fwConfirm_follows {s : State} {seq : Word} {w : Work} (h : cmdWork s 0 seq 0x0132 = some w) :
    ∃ t, exec (.fwConfirm seq) s = .next t ∧ OnlyRing s t 0 ∧ SameCounters s t ∧
      (trialSlot s = none → returnedWith t 0 seq = some (Outcome.of .retBusy 0 0) ∧ t.fw = s.fw) ∧
      (∀ k, trialSlot s = some k → s.fw.restricted = true → w.d.p0.getLsbD 0 = false →
        returnedWith t 0 seq = some (Outcome.of .retBusy 0 0) ∧ t.fw = s.fw) ∧
      (∀ k, trialSlot s = some k → (s.fw.restricted = false ∨ w.d.p0.getLsbD 0 = true) →
        (fwSlot t k).st = .confirmed ∧ t.fw.trialLive = false ∧ t.fw.timerOn = false ∧ s.fw.floor ≤ t.fw.floor ∧
        t.journal = s.journal ++ [{ ring := 0, seq := seq, out := Outcome.of .ok 0 0 }]) := by
  obtain ⟨-, -, -, -, -, hroom, -⟩ := cmdWork_eq_some h
  obtain ⟨hnone, hsome⟩ := fwConfirmOp_of_command h
  obtain ⟨hring, hcount⟩ := fwConfirmOp_ringWork h
  refine ⟨_, rfl, hring, hcount, fun ht => ?_, fun k ht hres hbit => ?_, fun k ht hfree => ?_⟩
  · rw [hnone ht]
    exact returned_command h _
  · rw [hsome k ht, if_pos (by rw [hres, hbit]; rfl)]
    exact returned_command h _
  · have hgo : ¬ (s.fw.restricted && !w.d.p0.getLsbD 0) = true := by
      rcases hfree with e | e <;> rw [e] <;> simp
    have fr := confirmSlot_fwFrame s k
    obtain ⟨hst, hlive, htimer, hfloor⟩ := confirmSlot_confirmed s (trialSlot_slot ht)
    rw [hsome k ht, if_neg hgo, fwSlot_congr (emitWork_fw _ _ _ _), emitWork_fw]
    exact ⟨hst, hlive, htimer, hfloor, emitWork_journal_of_room hroom fr.journal_eq fr.upl_eq _ _ _⟩

theorem restartAfter_ringWork (s : State) (seq : Word) : RingWork s (restartAfter s seq) 0 := ringWork_of_rings 0 rfl

theorem restartAfter_journal (s : State) (seq : Word) : (restartAfter s seq).journal = s.journal := rfl

theorem fwFallbackOp_of_command {s : State} {seq : Word} {w : Work} (h : cmdWork s 0 seq 0x0133 = some w) :
    (trialSlot s = none → fwFallbackOp s seq = returnWork s 0 seq .retBusy) ∧
    ∀ k, trialSlot s = some k → fwFallbackOp s seq = restartAfter (emitWork (rejectTrial s k) 0 seq (Outcome.of .ok 0 0)) seq := by
  refine ⟨fun ht => ?_, fun k ht => ?_⟩ <;> simp only [fwFallbackOp, h, ht]

theorem fwFallbackOp_ringWork {s : State} {seq : Word} {w : Work} (h : cmdWork s 0 seq 0x0133 = some w) : RingWork s (fwFallbackOp s seq) 0 := by
  obtain ⟨hnone, hsome⟩ := fwFallbackOp_of_command h
  cases ht : trialSlot s with
  | none => rw [hnone ht]; exact returnWork_ringWork s 0 seq _
  | some k =>
    rw [hsome k ht]
    exact ((ringWork_of_rings 0 (rejectTrial_fwFrame s k).rings_eq).trans (emitWork_ringWork _ 0 seq _)).trans (restartAfter_ringWork _ seq)

theorem fwFallback_follows {s : State} {seq : Word} {w : Work} (h : cmdWork s 0 seq 0x0133 = some w) :
    ∃ t, exec (.fwFallback seq) s = .next t ∧ OnlyRing s t 0 ∧ SameCounters s t ∧
      (trialSlot s = none → returnedWith t 0 seq = some (Outcome.of .retBusy 0 0) ∧ t.fw = s.fw) ∧
      (∀ k, trialSlot s = some k → (fwSlot t k).st = .rejected ∧ t.fw.trialLive = false ∧ t.fw.restartAt = s.fw.restartAt ++ [seq] ∧
        t.journal = s.journal ++ [{ ring := 0, seq := seq, out := Outcome.of .ok 0 0 }]) := by
  obtain ⟨-, -, -, -, -, hroom, -⟩ := cmdWork_eq_some h
  obtain ⟨hnone, hsome⟩ := fwFallbackOp_of_command h
  obtain ⟨hring, hcount⟩ := fwFallbackOp_ringWork h
  refine ⟨_, rfl, hring, hcount, fun ht => ?_, fun k ht => ?_⟩
  · rw [hnone ht]
    exact returned_command h _
  · have fr := rejectTrial_fwFrame s k
    obtain ⟨hst, hlive⟩ := rejectTrial_rejected s (trialSlot_slot ht)
    have hfw : (restartAfter (emitWork (rejectTrial s k) 0 seq (Outcome.of .ok 0 0)) seq).fw =
        { (rejectTrial s k).fw with restartAt := (rejectTrial s k).fw.restartAt ++ [seq] } := by
      simp [restartAfter, modFw]
    have hat : (rejectTrial s k).fw.restartAt = s.fw.restartAt := by
      rw [rejectTrial_fw]; exact modSlot_restartAt s k _
    rw [hsome k ht, hfw, restartAfter_journal]
    refine ⟨?_, hlive, by rw [hat], emitWork_journal_of_room hroom fr.journal_eq fr.upl_eq _ _ _⟩
    simp only [fwSlot, hfw] at hst ⊢
    exact hst

/-! ### The timer and the armed requests -/

theorem confirmationTimeout_follows (s : State) : ∃ t, exec .confirmationTimeout s = .next t ∧ SameCounters s t ∧
      ((trialSlot s = none ∨ s.fw.trialLive = false ∨ s.fw.timerOn = false ∨ 1 < s.fw.left.toNat) → t = s) ∧
      (∀ k, trialSlot s = some k → s.fw.trialLive = true → s.fw.timerOn = true → s.fw.left.toNat ≤ 1 → s.pwr.state ≠ .off → s.pwr.domCore = true →
        (fwSlot t k).st = .rejected ∧ t.fw.trialLive = false ∧ t.fw.cp0 = .bootMonitor ∧ t.fw.cp1 = .bootMonitor ∧
        ∃ v, v ∈ t.recov ∧ v.cause = 0x12) := by
  refine ⟨_, rfl, ?_, fun hidle => ?_, fun k ht hlive htimer hleft hoff hcore => ?_⟩
  · unfold confirmTimeoutOp
    split
    next k ht =>
      split
      · by_cases hcore : s.pwr.domCore = true
        · exact (rollBack_restarts (trialSlot_slot ht) hcore).1
        · rw [rollBack, if_neg hcore]
          exact sameCounters_of_rings (rejectTrial_fwFrame s k).rings_eq
      · exact .refl s
    next => exact .refl s
  · unfold confirmTimeoutOp
    split
    next k ht =>
      refine if_neg fun hgo => ?_
      simp only [Bool.and_eq_true, decide_eq_true_eq] at hgo
      obtain ⟨⟨⟨h1, h2⟩, h3⟩, -⟩ := hgo
      rcases hidle with e | e | e | e
      · exact absurd (ht.symm.trans e) nofun
      · exact absurd (h1.symm.trans e) nofun
      · exact absurd (h2.symm.trans e) nofun
      · omega
    next => rfl
  · have hroll : confirmTimeoutOp s = rollBack s k := by
      simp only [confirmTimeoutOp, ht, hlive, htimer, hleft, hoff, Bool.and_self, decide_true, ne_eq, not_false_eq_true, if_true]
    rw [hroll]
    exact (rollBack_restarts (trialSlot_slot ht) hcore).2

theorem slotRequests_follow {s : State} {k : Nat} (ht : trialSlot s = some k) (hoff : s.pwr.state ≠ .off) (hcore : s.pwr.domCore = true) :
    (∃ t, exec .fwSlotFallback s = .next t ∧ SameCounters s t ∧ (fwSlot t k).st = .rejected ∧ t.fw.cp0 = .bootMonitor ∧
        ∃ v, v ∈ t.recov ∧ v.cause = 0x12) ∧
      ∃ t, exec .fwSlotConfirm s = .next t ∧ t = { s with fw := t.fw, hif := t.hif, evt := t.evt, sent := t.sent } ∧
        (fwSlot t k).st = .confirmed ∧ t.fw.trialLive = false := by
  have htr : trialSlot (raise s Src.mgtArmedWrite 0xFF 0) = some k := (trialSlot_congr (raise_fw _ _ _ _)).trans ht
  have hcr : (raise s Src.mgtArmedWrite 0xFF 0).pwr.domCore = true := by rw [raise_pwr]; exact hcore
  refine ⟨⟨rollBack (raise s Src.mgtArmedWrite 0xFF 0) k, ?_, ?_⟩, ⟨confirmSlot (raise s Src.mgtArmedWrite 0xFF 0) k, ?_, ?_, ?_⟩⟩
  · refine congrArg Host.Outcome.next ?_
    simp only [slotFallbackOp, if_neg hoff, htr, hcr, if_true]
  · obtain ⟨hc, hst, -, h0, -, hv⟩ := rollBack_restarts (s := raise s Src.mgtArmedWrite 0xFF 0) (trialSlot_slot ht) hcr
    exact ⟨(sameCounters_of_rings (raise_rings _ _ _ _)).trans hc, hst, h0, hv⟩
  · refine congrArg Host.Outcome.next ?_
    simp only [slotConfirmOp, if_neg hoff, htr, hcr, if_true]
  · exact (raise_evtOnly s _ _ _).fwFrame.trans (confirmSlot_fwFrame _ k)
  · obtain ⟨hst, hlive, -, -⟩ := confirmSlot_confirmed (raise s Src.mgtArmedWrite 0xFF 0) (trialSlot_slot ht)
    exact ⟨hst, hlive⟩

/-- Settles O44: each command and each end of a trial by its own lemma. -/
theorem imagesStagedTriedAndConfirmed : Obligations.ImagesStagedTriedAndConfirmed :=
  ⟨fun _ _ => ⟨fun res data sigOk _ h => fwStage_follows h res data sigOk, fun _ h => fwActivate_follows h⟩,
    fun s => ⟨fun _ _ h => fwConfirm_follows h, fun _ _ h => fwFallback_follows h, confirmationTimeout_follows s,
      fun _ ht hoff hcore => slotRequests_follow ht hoff hcore⟩⟩

end Sys2Proof.Machine

/-! # Capsules and the identity record (O45) -/

namespace Sys2Proof.Machine

open Sys2Proof

/-! ### The record a capsule writes -/

theorem deriveCapsule_frame (s : State) : deriveCapsule s = { s with sec := (deriveCapsule s).sec } := by
  unfold deriveCapsule
  split
  · rfl
  · split <;> rfl

/-- The record is written with the next SEQ, in the other copy, its registration IDs sealed anew. -/
theorem writeRecord_fw (s : State) (f : IdRec → IdRec) : ∃ A B, (writeRecord s f).fw =
    { s.fw with
      rec_ := f { s.fw.rec_ with seq := s.fw.rec_.seq + 1, activeReg := A, factoryReg := B }
      recCopy := if s.fw.recCopy = 1 then 2 else 1
      recKnown := true } := by
  have h : (deriveCapsule s).fw = s.fw := by rw [deriveCapsule_frame]
  refine ⟨carryReg (deriveCapsule s) s.fw.rec_.seq (s.fw.rec_.seq + 1) 64 s.fw.rec_.activeReg,
    carryReg (deriveCapsule s) s.fw.rec_.seq (s.fw.rec_.seq + 1) 112 s.fw.rec_.factoryReg, ?_⟩
  simp only [writeRecord, emitOut_fw, modFw, h]

/-- The frame of a capsule that takes effect. -/
def CapsuleFrame (s t : State) : Prop := t = { s with sec := t.sec, fw := t.fw, glb := t.glb, hif := t.hif, evt := t.evt, sent := t.sent, free := t.free }

theorem CapsuleFrame.trans {s t u : State} (h : CapsuleFrame s t) (h' : CapsuleFrame t u) : CapsuleFrame s u := by
  unfold CapsuleFrame at h h' ⊢
  rw [h', h]

theorem FwFrame.capsuleFrame {s t : State} (h : FwFrame s t) : CapsuleFrame s t := by
  unfold FwFrame at h
  unfold CapsuleFrame
  rw [h]

theorem deriveCapsule_capsuleFrame (s : State) : CapsuleFrame s (deriveCapsule s) := by
  unfold CapsuleFrame
  rw [deriveCapsule_frame]

theorem writeRecord_capsuleFrame (s : State) (f : IdRec → IdRec) : CapsuleFrame s (writeRecord s f) :=
  (deriveCapsule_capsuleFrame s).trans ((fw_fwFrame _ _).trans (emitOut_fwFrame _ _)).capsuleFrame

theorem capsuleGen_capsuleFrame (s : State) (c : Capsule) (positions : List (List Byte)) : CapsuleFrame s (capsuleGen s c positions) := rfl

theorem capsuleGen_glb (s : State) (c : Capsule) (positions : List (List Byte)) : (capsuleGen s c positions).glb = s.glb := rfl

theorem writeRecord_glb (s : State) (f : IdRec → IdRec) : (writeRecord s f).glb = s.glb := by
  have h : (deriveCapsule s).glb = s.glb := by rw [deriveCapsule_frame]
  exact h

/-- The state of a capsule whose record is written. -/
def recorded (s : State) (c : Capsule) : State := writeRecord (deriveCapsule s) (capsuleRecord (deriveCapsule s) c)

/-- The state of a capsule whose settings are written too. -/
def settingsWritten (s : State) (c : Capsule) (positions : List (List Byte)) : State :=
  if c.kind = 1 then capsuleGen (recorded s c) c positions else recorded s c

theorem capsuleApply_eq (s : State) (c : Capsule) (positions : List (List Byte)) : capsuleApply s c positions =
    raise (if c.kind = 3 then modGlb (settingsWritten s c positions) (fun x => { x with next := nextOf (BitVec.ofNat 8 (leAt c.body 0 1)) })
      else settingsWritten s c positions) Src.capsuleApplied 0xFF 0 := rfl

theorem settingsWritten_capsuleFrame (s : State) (c : Capsule) (positions : List (List Byte)) : CapsuleFrame s (settingsWritten s c positions) := by
  have hrec : CapsuleFrame s (recorded s c) := (deriveCapsule_capsuleFrame s).trans (writeRecord_capsuleFrame _ _)
  unfold settingsWritten
  split
  · exact hrec.trans (capsuleGen_capsuleFrame _ _ _)
  · exact hrec

theorem capsuleApply_capsuleFrame (s : State) (c : Capsule) (positions : List (List Byte)) : CapsuleFrame s (capsuleApply s c positions) := by
  have hset := settingsWritten_capsuleFrame s c positions
  rw [capsuleApply_eq]
  split
  · exact (hset.trans (u := modGlb (settingsWritten s c positions) (fun x => { x with next := nextOf (BitVec.ofNat 8 (leAt c.body 0 1)) }))
      (show CapsuleFrame _ _ from rfl)).trans (raise_evtOnly _ _ _ _).fwFrame.capsuleFrame
  · exact hset.trans (raise_evtOnly _ _ _ _).fwFrame.capsuleFrame

theorem capsuleApply_fw (s : State) (c : Capsule) (positions : List (List Byte)) :
    (capsuleApply s c positions).fw = (settingsWritten s c positions).fw := by
  rw [capsuleApply_eq, raise_fw]
  split <;> rfl

theorem recorded_fw (s : State) (c : Capsule) : ∃ A B, (recorded s c).fw =
    { s.fw with
      rec_ := capsuleRecord (deriveCapsule s) c { s.fw.rec_ with seq := s.fw.rec_.seq + 1, activeReg := A, factoryReg := B }
      recCopy := if s.fw.recCopy = 1 then 2 else 1
      recKnown := true } := by
  obtain ⟨A, B, h⟩ := writeRecord_fw (deriveCapsule s) (capsuleRecord (deriveCapsule s) c)
  have hf : (deriveCapsule s).fw = s.fw := by rw [deriveCapsule_frame]
  rw [hf] at h
  exact ⟨A, B, h⟩

theorem capsuleApply_rec (s : State) (c : Capsule) (positions : List (List Byte)) : ∃ u A B, (capsuleApply s c positions).fw.rec_ =
    capsuleRecord u c { s.fw.rec_ with seq := s.fw.rec_.seq + 1, activeReg := A, factoryReg := B } := by
  obtain ⟨A, B, h⟩ := recorded_fw s c
  refine ⟨deriveCapsule s, A, B, ?_⟩
  have h' := congrArg Fw.rec_ h
  rw [capsuleApply_fw, settingsWritten]
  split <;> exact h'

theorem capsuleApply_recCopy (s : State) (c : Capsule) (positions : List (List Byte)) :
    (capsuleApply s c positions).fw.recCopy = if s.fw.recCopy = 1 then 2 else 1 := by
  obtain ⟨A, B, h⟩ := recorded_fw s c
  have h' := congrArg Fw.recCopy h
  rw [capsuleApply_fw, settingsWritten]
  split <;> exact h'

theorem capsuleApply_gens_kept (s : State) {c : Capsule} (hk : c.kind ≠ 1) (positions : List (List Byte)) :
    (capsuleApply s c positions).fw.gens = s.fw.gens := by
  obtain ⟨A, B, h⟩ := recorded_fw s c
  rw [capsuleApply_fw, settingsWritten, if_neg hk, h]

/-- A generation that is added stands in the list. -/
theorem mem_addGen (s : State) (l : List SetGen) (loaded : Word) (mk : Nat → Word → SetGen) :
    ∃ p n, mk p n ∈ (addGen s l loaded mk).1 := by
  have last : ∀ (k : List SetGen) (g : SetGen), g ∈ k ++ [g] := fun k g => List.mem_append_right k (List.mem_singleton_self g)
  unfold addGen
  extract_lets n
  split
  · exact ⟨_, _, last _ _⟩
  · split <;> exact ⟨_, _, last _ _⟩

theorem capsuleApply_settings (s : State) {c : Capsule} (hk : c.kind = 1) (positions : List (List Byte)) :
    ∃ g, g ∈ (capsuleApply s c positions).fw.gens ∧ g.schema = c.schema ∧ g.fromCapsule = true := by
  rw [capsuleApply_fw, settingsWritten, if_pos hk]
  obtain ⟨p, n, h⟩ := mem_addGen (recorded s c) (gensFound (recorded s c).fw.gens positions) (recorded s c).fw.setGen (fun p n =>
    { pos := p, gen := n, schema := c.schema, fromCapsule := true, migrated := false, parent := Config.freeWord ((recorded s c).free + 1), writer := 0 })
  exact ⟨_, h, rfl, rfl⟩

theorem settingsWritten_glb (s : State) (c : Capsule) (positions : List (List Byte)) : (settingsWritten s c positions).glb = s.glb := by
  have hg : (deriveCapsule s).glb = s.glb := by rw [deriveCapsule_frame]
  have h : (recorded s c).glb = s.glb := (writeRecord_glb _ _).trans hg
  unfold settingsWritten
  split
  · exact (capsuleGen_glb _ c positions).trans h
  · exact h

theorem capsuleApply_glb (s : State) (c : Capsule) (positions : List (List Byte)) : (capsuleApply s c positions).glb =
    if c.kind = 3 then { s.glb with next := nextOf (BitVec.ofNat 8 (leAt c.body 0 1)) } else s.glb := by
  rw [capsuleApply_eq, raise_glb]
  split
  · rw [modGlb_glb, settingsWritten_glb]
  · exact settingsWritten_glb s c positions

/-! #### The fields of each kind -/

theorem capsuleRecord_kept (u : State) (c : Capsule) (r : IdRec) : (capsuleRecord u c r).seq = r.seq ∧ (capsuleRecord u c r).capsuleSeq = c.seq ∧
    (capsuleRecord u c r).factorySn = r.factorySn ∧ (capsuleRecord u c r).factoryMac = r.factoryMac := by
  unfold capsuleRecord
  extract_lets r1
  split <;> exact ⟨rfl, rfl, rfl, rfl⟩

/-- A TRANSFER gives the active identity and its origin. -/
theorem capsuleRecord_transfer (u : State) {c : Capsule} (hk : c.kind = 2) (r : IdRec) :
    (capsuleRecord u c r).activeSn = BitVec.ofNat 64 (beAt c.body 0 8) ∧ (capsuleRecord u c r).activeMac = BitVec.ofNat 48 (beAt c.body 8 6) ∧
      (capsuleRecord u c r).origin = BitVec.ofNat 64 (leAt c.body 14 8) ∧ (capsuleRecord u c r).transferred = true := by
  simp only [capsuleRecord, hk, and_self]

theorem capsuleRecord_identity (u : State) {c : Capsule} (hk : c.kind ≠ 2) (r : IdRec) : (capsuleRecord u c r).activeSn = r.activeSn ∧
    (capsuleRecord u c r).activeMac = r.activeMac ∧ (capsuleRecord u c r).transferred = r.transferred := by
  unfold capsuleRecord
  extract_lets r1
  split
  next h => exact absurd h hk
  all_goals exact ⟨rfl, rfl, rfl⟩

theorem capsuleRecord_profile (u : State) {c : Capsule} (hk : c.kind = 3) (r : IdRec) :
    (capsuleRecord u c r).profile = BitVec.ofNat 8 (leAt c.body 0 1) := by
  simp only [capsuleRecord, hk]

theorem capsuleRecord_profile_kept (u : State) {c : Capsule} (hk : c.kind ≠ 3) (r : IdRec) : (capsuleRecord u c r).profile = r.profile := by
  unfold capsuleRecord
  extract_lets r1
  split
  case h_2 h => exact absurd h hk
  all_goals rfl

theorem capsuleRecord_operatorKey (u : State) {c : Capsule} (hk : c.kind = 4) (r : IdRec) :
    (capsuleRecord u c r).operatorKey = fit 48 c.body := by
  simp only [capsuleRecord, hk]

theorem capsuleRecord_operatorKey_kept (u : State) {c : Capsule} (hk : c.kind ≠ 4) (r : IdRec) :
    (capsuleRecord u c r).operatorKey = r.operatorKey := by
  unfold capsuleRecord
  extract_lets r1
  split
  case h_3 h => exact absurd h hk
  all_goals rfl

/-! ### CAPSULE_APPLY -/

theorem capsuleReject_congr {s t : State} (hf : t.fw = s.fw) (hg : t.glb = s.glb) (c : Capsule) : capsuleReject t c = capsuleReject s c := by
  have hr : runningHdr t = runningHdr s := by
    simp only [runningHdr, inactive_congr hf, fwSlot_congr hf, hf]
  have hs : schemaReadable t c.schema = schemaReadable s c.schema := by
    rw [schemaReadable, hr]
    rfl
  simp only [capsuleReject, hf, hg, hs]

/-- A change of a slot changes the directory alone. -/
theorem modSlot_fw (s : State) (i : Nat) (f : ImgSlot → ImgSlot) : ∃ a b, (modSlot s i f).fw = { s.fw with slotA := a, slotB := b } := by
  unfold modSlot modFw
  by_cases h1 : i = 1
  · exact ⟨f s.fw.slotA, s.fw.slotB, if_pos h1⟩
  · by_cases h2 : i = 2
    · exact ⟨s.fw.slotA, f s.fw.slotB, (if_neg h1).trans (if_pos h2)⟩
    · exact ⟨s.fw.slotA, s.fw.slotB, (if_neg h1).trans (if_neg h2)⟩

/-- A boot keeps what the firmware holds beside the slots and the processors. -/
theorem boot_keeps (s : State) : (boot s).fw.rec_ = s.fw.rec_ ∧ (boot s).fw.gens = s.fw.gens ∧ (boot s).fw.recCopy = s.fw.recCopy ∧
    (boot s).fw.afterRestart = s.fw.afterRestart := by
  obtain ⟨a, b, h⟩ := modSlot_fw (bootCleared s) (bootSel (bootCleared s)) markBooted
  rw [boot_fw, bootTaken, modFw, h]
  exact ⟨rfl, rfl, rfl, rfl⟩

theorem fwRestart_keeps (s : State) : (fwRestart s).fw.rec_ = s.fw.rec_ ∧ (fwRestart s).fw.gens = s.fw.gens ∧
    (fwRestart s).fw.recCopy = s.fw.recCopy ∧ (fwRestart s).fw.afterRestart = s.fw.afterRestart := by
  have h := boot_keeps (raise s Src.cpReset 0xFF 0x12)
  rw [raise_fw] at h
  rw [fwRestart_fw]
  exact h

theorem fwRestart_cp0 (s : State) : (fwRestart s).fw.cp0 = .bootMonitor := by
  rw [fwRestart_fw]
  exact (boot_cps _).1

theorem fwRestart_glb (s : State) : (fwRestart s).glb = s.glb := by
  have h : (boot (raise s Src.cpReset 0xFF 0x12)).glb = (raise s Src.cpReset 0xFF 0x12).glb := by rw [boot_fwFrame]
  rw [fwRestart, startRecovery_glb, h, raise_glb]

theorem fwRestart_sec (s : State) : (fwRestart s).sec = s.sec := by
  have h : (boot (raise s Src.cpReset 0xFF 0x12)).sec = (raise s Src.cpReset 0xFF 0x12).sec := by rw [boot_fwFrame]
  rw [fwRestart, startRecovery_sec, h, raise_sec]

theorem fwRestart_journal (s : State) : (fwRestart s).journal = s.journal := by
  rw [fwRestart, startRecovery_journal, (boot_fwFrame _).journal_eq, raise_journal]

theorem boot_raise_rings (s : State) : (boot (raise s Src.cpReset 0xFF 0x12)).rings = s.rings :=
  (boot_fwFrame _).rings_eq.trans (raise_rings _ _ _ _)

/-- A firmware restart leaves the work of the rings. -/
theorem findWork_fwRestart (s : State) (r : RingNo) (q : Word) :
    findWork (ringAt (fwRestart s) r.val) q = findWork (ringAt s r.val) q := by
  rw [fwRestart, findWork_startRecovery, ringAt_congr (boot_raise_rings s)]

theorem returnedWith_fwRestart (s : State) (r : RingNo) (q : Word) : returnedWith (fwRestart s) r.val q = returnedWith s r.val q := by
  simp only [returnedWith, findWork_fwRestart]

/-- Work that begins its emission stands emitted. -/
theorem atStage_beginEmission {s : State} (hj : journalSpace s = true) (r : RingNo) {q : Word} {w : Work}
    (h : findWork (ringAt s r.val) q = some w) (o : Outcome) : atStage (beginEmission s r q o) r.val q .emitted := by
  have hsent : findWork (ringAt (emitWork s r q o) r.val) q = some { w with stage := .sent } := by
    have hring : ringAt (emitWork s r q o) r.val =
        { ringAt (setWork s r.val q (fun w => { w with stage := .sent })) r.val with
          emitted := (ringAt (setWork s r.val q (fun w => { w with stage := .sent })) r.val).emitted + 1 } := by
      rw [emitWork, if_pos hj]
      exact ringAt_setRing_self _ r.val (fun g => { g with emitted := g.emitted + 1 }) r.isLt
    rw [hring]
    exact findWork_setWork_self (fun w => { w with stage := .sent }) (fun _ => rfl) h
  rw [beginEmission, if_pos hj]
  exact atStage_setWork (fun w => { w with stage := .emitted }) (fun _ => rfl) hsent rfl

theorem beginEmission_sameCounters (s : State) (r : RingNo) (q : Word) (o : Outcome) : SameCounters s (beginEmission s r q o) := by
  unfold beginEmission
  split
  · exact (emitWork_ringWork s r q o).2.trans (setWork_sameCounters _ _ _ _)
  · exact .refl s

theorem endEmission_sameCounters (s : State) (r : Nat) (q : Word) (f : Outcome → Outcome) : SameCounters s (endEmission s r q f) :=
  (sameCounters_of_rings (t := setOutcome s r q f) rfl).trans (setWork_sameCounters _ _ _ _)

theorem beginEmission_journal {s : State} (hj : journalSpace s = true) (r : RingNo) (q : Word) (o : Outcome) :
    (beginEmission s r q o).journal = s.journal ++ [{ ring := r, seq := q, out := o }] := by
  rw [beginEmission, if_pos hj, setWork_journal, emitWork_journal hj]

/-- The end of an emission keeps the journal's entries. -/
theorem journalOf_endEmission_isSome (s : State) (r : Nat) (q q' : Word) (f : Outcome → Outcome) (h : q' = q) :
    (journalOf (endEmission s r q f) r q').isSome = (journalOf s r q').isSome := by
  subst h
  have hj : (endEmission s r q' f).journal = mapIf (fun j => j.ring.val == r && j.seq == q') (fun j => { j with out := f j.out }) s.journal := rfl
  unfold journalOf
  rw [hj, find_mapIf _ (fun j : JEntry => { j with out := f j.out }) (fun _ => rfl), Option.isSome_map]

/-- The record of a restart's capsule follows it. -/
theorem endCapsule_of_some {s : State} {q : Word} {o : Outcome} (h : s.fw.afterRestart = some (q, o)) :
    endCapsule s = endEmission (modFw s (fun w => { w with afterRestart := none })) 0 q id := by
  simp only [endCapsule, h]

/-- The state of a verified capsule before its restart. -/
def capsuleTaken (s : State) (seq : Word) (w : Work) (c : Capsule) (positions : List (List Byte)) : State :=
  modFw (capsuleApply (beginEmission (sendRead s 0 w.d.addr.toNat w.d.len.toNat) 0 seq (Outcome.of .ok 0 0)) c positions)
    (fun x => { x with afterRestart := some (seq, Outcome.of .ok 0 0) })

/-- The outcome that waits for a restart is apart from what a capsule writes. -/
theorem afterRestart_fields (u : State) (a : Option (Word × Outcome)) (x : Fw) (hx : x = (modFw u (fun x => { x with afterRestart := a })).fw) :
    x.rec_ = u.fw.rec_ ∧ x.gens = u.fw.gens ∧ x.recCopy = u.fw.recCopy ∧ x.afterRestart = a := by
  subst hx
  exact ⟨rfl, rfl, rfl, rfl⟩

theorem capsuleTaken_fields (s : State) (seq : Word) (w : Work) (c : Capsule) (positions : List (List Byte)) :
    (capsuleTaken s seq w c positions).fw.rec_ =
        (capsuleApply (beginEmission (sendRead s 0 w.d.addr.toNat w.d.len.toNat) 0 seq (Outcome.of .ok 0 0)) c positions).fw.rec_ ∧
      (capsuleTaken s seq w c positions).fw.gens =
        (capsuleApply (beginEmission (sendRead s 0 w.d.addr.toNat w.d.len.toNat) 0 seq (Outcome.of .ok 0 0)) c positions).fw.gens ∧
      (capsuleTaken s seq w c positions).fw.recCopy =
        (capsuleApply (beginEmission (sendRead s 0 w.d.addr.toNat w.d.len.toNat) 0 seq (Outcome.of .ok 0 0)) c positions).fw.recCopy ∧
      (capsuleTaken s seq w c positions).fw.afterRestart = some (seq, Outcome.of .ok 0 0) :=
  afterRestart_fields _ (some (seq, Outcome.of .ok 0 0)) _ rfl

/-- The end of CAPSULE_APPLY: the record at once where no image runs, and otherwise at the handover. -/
def capsuleEnded (s : State) : State := if s.fw.noImage then endCapsule s else s

/-- CAPSULE_APPLY of a buffer that is read whole. -/
theorem capsuleOp_of_read {s : State} {seq : Word} {w : Work} (h : cmdWork s 0 seq 0x0134 = some w) (h1 : 512 ≤ w.d.len.toNat)
    (h2 : w.d.len.toNat ≤ 2 ^ 20) (hm : mayMaster s 0 = true) (hw : inWindows s 0 false w.d.addr.toNat w.d.len.toNat = true)
    {data : List Byte} (hdata : data.length = w.d.len.toNat) (keys : SigKeys) (positions : List (List Byte)) :
    (∀ o, capsuleReject s (capsuleOf data keys) = some o → capsuleOp s seq .ok data keys positions =
      fwRestart (returnWith (sendRead s 0 w.d.addr.toNat w.d.len.toNat) 0 seq o)) ∧
    (capsuleReject s (capsuleOf data keys) = none → capsuleOp s seq .ok data keys positions =
      capsuleEnded (fwRestart (capsuleTaken s seq w (capsuleOf data keys) positions))) := by
  have hlen : ¬ (w.d.len.toNat < 512 ∨ 2 ^ 20 < w.d.len.toNat) := by omega
  have hrej : capsuleReject (sendRead s 0 w.d.addr.toNat w.d.len.toNat) (capsuleOf data keys) = capsuleReject s (capsuleOf data keys) :=
    capsuleReject_congr (sendRead_fw _ _ _ _) (sendRead_glb _ _ _ _) _
  refine ⟨fun o ho => ?_, fun ho => ?_⟩
  · rw [ho] at hrej
    simp only [capsuleOp, h, if_neg hlen, readBuffer_of_ok hm hw, hdata, ne_eq, not_true_eq_false, if_false, hrej]
  · rw [ho] at hrej
    simp only [capsuleOp, h, if_neg hlen, readBuffer_of_ok hm hw, hdata, ne_eq, not_true_eq_false, if_false, hrej]
    unfold capsuleTaken capsuleEnded
    generalize capsuleApply _ _ _ = u
    rfl

/-- What a verified capsule's state keeps of the one before it. -/
theorem capsuleTaken_journal {s : State} (hj : journalRoom s = true) (seq : Word) (w : Work) (c : Capsule) (positions : List (List Byte)) :
    (capsuleTaken s seq w c positions).journal = s.journal ++ [{ ring := 0, seq := seq, out := Outcome.of .ok 0 0 }] := by
  have hspace : journalSpace (sendRead s 0 w.d.addr.toNat w.d.len.toNat) = true :=
    (journalSpace_congr (sendRead_journal _ _ _ _) (by rw [sendRead_upl]) (by rw [sendRead_upl])).trans (journalSpace_of_room hj)
  have h := beginEmission_journal hspace 0 seq (Outcome.of .ok 0 0)
  have hc : ∀ u : State, (capsuleApply u c positions).journal = u.journal := fun u => by rw [capsuleApply_capsuleFrame]
  rw [capsuleTaken, modFw_journal, hc, h, sendRead_journal]

theorem capsuleTaken_sameCounters (s : State) (seq : Word) (w : Work) (c : Capsule) (positions : List (List Byte)) :
    SameCounters s (capsuleTaken s seq w c positions) :=
  (sameCounters_of_rings (t := sendRead s 0 w.d.addr.toNat w.d.len.toNat) rfl).trans
    ((beginEmission_sameCounters _ 0 seq (Outcome.of .ok 0 0)).trans (sameCounters_of_rings (capsuleApply_rings _ c positions)))

theorem capsuleTaken_emitted {s : State} (hj : journalRoom s = true) {seq : Word} {w : Work} (h : findWork (ringAt s 0) seq = some w)
    (c : Capsule) (positions : List (List Byte)) : atStage (capsuleTaken s seq w c positions) 0 seq .emitted := by
  have hspace : journalSpace (sendRead s 0 w.d.addr.toNat w.d.len.toNat) = true :=
    (journalSpace_congr (sendRead_journal _ _ _ _) (by rw [sendRead_upl]) (by rw [sendRead_upl])).trans (journalSpace_of_room hj)
  have hb := atStage_beginEmission hspace 0 (q := seq) (w := w) (by rw [← h]; exact congrArg (findWork · seq) (ringAt_sendRead _ _ _ _ _))
    (Outcome.of .ok 0 0)
  exact atStage_congr (capsuleApply_rings _ c positions) hb

theorem endCapsule_fw {s : State} {q : Word} {o : Outcome} (h : s.fw.afterRestart = some (q, o)) :
    (endCapsule s).fw = { s.fw with afterRestart := none } ∧ (endCapsule s).glb = s.glb ∧ SameCounters s (endCapsule s) ∧
      (journalOf (endCapsule s) 0 q).isSome = (journalOf s 0 q).isSome := by
  rw [endCapsule_of_some h]
  refine ⟨endEmission_fw _ _ _ _, endEmission_glb _ _ _ _, ?_, ?_⟩
  · exact (sameCounters_of_rings (t := modFw s (fun w => { w with afterRestart := none })) rfl).trans (endEmission_sameCounters _ _ _ _)
  · rw [journalOf_endEmission_isSome _ _ _ _ _ rfl]
    rfl

/-- What every end of a capsule keeps. -/
theorem capsuleEnded_keeps {s : State} {q : Word} {o : Outcome} (h : s.fw.afterRestart = some (q, o)) :
    ((capsuleEnded s).fw.rec_ = s.fw.rec_ ∧ (capsuleEnded s).fw.gens = s.fw.gens ∧ (capsuleEnded s).fw.recCopy = s.fw.recCopy ∧
      (capsuleEnded s).fw.cp0 = s.fw.cp0) ∧ (capsuleEnded s).glb = s.glb ∧ SameCounters s (capsuleEnded s) ∧
      (journalOf (capsuleEnded s) 0 q).isSome = (journalOf s 0 q).isSome ∧ ((capsuleEnded s).fw.noImage = false → capsuleEnded s = s) := by
  unfold capsuleEnded
  split
  next hn =>
    obtain ⟨hf, hg, hc, hj⟩ := endCapsule_fw h
    refine ⟨by rw [hf]; exact ⟨rfl, rfl, rfl, rfl⟩, hg, hc, hj, fun hi => ?_⟩
    rw [hf] at hi
    exact absurd (hn.symm.trans hi) nofun
  · exact ⟨⟨rfl, rfl, rfl, rfl⟩, rfl, .refl s, rfl, fun _ => rfl⟩

/-- The firmware's part after a capsule took effect. -/
structure CapsuleOutcome (s t : State) (seq : Word) (c : Capsule) : Prop where
  rec_ : ∃ u A B, t.fw.rec_ = capsuleRecord u c { s.fw.rec_ with seq := s.fw.rec_.seq + 1, activeReg := A, factoryReg := B }
  recCopy : t.fw.recCopy = if s.fw.recCopy = 1 then 2 else 1
  cp0 : t.fw.cp0 = .bootMonitor
  entered : (journalOf t 0 seq).isSome = true
  settings : c.kind = 1 → ∃ g, g ∈ t.fw.gens ∧ g.schema = c.schema ∧ g.fromCapsule = true
  gens : c.kind ≠ 1 → t.fw.gens = s.fw.gens
  glb : t.glb = if c.kind = 3 then { s.glb with next := nextOf (BitVec.ofNat 8 (leAt c.body 0 1)) } else s.glb
  counters : SameCounters s t
  waits : t.fw.noImage = false → atStage t 0 seq .emitted ∧ t.fw.afterRestart = some (seq, Outcome.of .ok 0 0)

theorem capsuleTaken_outcome {s : State} {seq : Word} {w : Work} (h : cmdWork s 0 seq 0x0134 = some w) (c : Capsule)
    (positions : List (List Byte)) : CapsuleOutcome s (capsuleEnded (fwRestart (capsuleTaken s seq w c positions))) seq c := by
  obtain ⟨hopen, -, -, -, -, hroom, -⟩ := cmdWork_eq_some h
  obtain ⟨hfind, -, -⟩ := workOpen_eq_some.1 hopen
  obtain ⟨hrec, hgens, hcopy, hafter⟩ := fwRestart_keeps (capsuleTaken s seq w c positions)
  obtain ⟨hrec', hgens', hcopy', hafter'⟩ := capsuleTaken_fields s seq w c positions
  obtain ⟨⟨erec, egens, ecopy, ecp⟩, hglb, hcount, hjournal, hsame⟩ :=
    capsuleEnded_keeps (s := fwRestart (capsuleTaken s seq w c positions)) (q := seq) (o := Outcome.of .ok 0 0) (hafter.trans hafter')
  have hbegun : (beginEmission (sendRead s 0 w.d.addr.toNat w.d.len.toNat) 0 seq (Outcome.of .ok 0 0)).fw = s.fw :=
    (beginEmission_fw _ _ _ _).trans (sendRead_fw _ _ _ _)
  have hglb0 : (beginEmission (sendRead s 0 w.d.addr.toNat w.d.len.toNat) 0 seq (Outcome.of .ok 0 0)).glb = s.glb :=
    (beginEmission_glb _ _ _ _).trans (sendRead_glb _ _ _ _)
  have hg : (capsuleEnded (fwRestart (capsuleTaken s seq w c positions))).fw.gens =
      (capsuleApply (beginEmission (sendRead s 0 w.d.addr.toNat w.d.len.toNat) 0 seq (Outcome.of .ok 0 0)) c positions).fw.gens :=
    (egens.trans hgens).trans hgens'
  refine ⟨?_, ?_, ?_, ?_, fun hk => ?_, fun hk => ?_, ?_, ?_, fun hn => ?_⟩
  · obtain ⟨u, A, B, hr⟩ := capsuleApply_rec (beginEmission (sendRead s 0 w.d.addr.toNat w.d.len.toNat) 0 seq (Outcome.of .ok 0 0)) c positions
    refine ⟨u, A, B, ?_⟩
    rw [← hbegun]
    exact (erec.trans hrec).trans (hrec'.trans hr)
  · rw [← hbegun]
    exact (ecopy.trans hcopy).trans (hcopy'.trans <| capsuleApply_recCopy _ c positions)
  · exact ecp.trans (fwRestart_cp0 _)
  · rw [hjournal, journalOf, fwRestart_journal, capsuleTaken_journal hroom]
    exact journalOf_appended s.journal { ring := 0, seq := seq, out := Outcome.of .ok 0 0 }
  · rw [hg]; exact capsuleApply_settings _ hk positions
  · rw [hg, capsuleApply_gens_kept _ hk, hbegun]
  · rw [hglb, fwRestart_glb, capsuleTaken, modFw_glb, capsuleApply_glb, hglb0]
  · exact ((capsuleTaken_sameCounters s seq w c positions).trans (fwRestart_sameCounters _)).trans hcount
  · rw [hsame hn]
    refine ⟨?_, hafter.trans hafter'⟩
    obtain ⟨x, hx, hst⟩ := capsuleTaken_emitted hroom hfind c positions
    exact ⟨x, (findWork_fwRestart _ 0 seq).trans hx, hst⟩

theorem fwRestart_returned (s : State) (w : Work) (seq : Word) (o : Outcome) :
    (fwRestart (returnWith (sendRead s 0 w.d.addr.toNat w.d.len.toNat) 0 seq o)).fw.rec_ = s.fw.rec_ ∧
      (fwRestart (returnWith (sendRead s 0 w.d.addr.toNat w.d.len.toNat) 0 seq o)).glb = s.glb ∧
      (fwRestart (returnWith (sendRead s 0 w.d.addr.toNat w.d.len.toNat) 0 seq o)).sec = s.sec := by
  refine ⟨?_, ?_, ?_⟩
  · rw [(fwRestart_keeps _).1, returnWith_fw, sendRead_fw]
  · rw [fwRestart_glb, returnWith_glb, sendRead_glb]
  · rw [fwRestart_sec, returnWith_sec, sendRead_sec]

/-- CAPSULE_APPLY whose read fails, or gives another length than the descriptor's. -/
theorem capsuleOp_of_bad_read {s : State} {seq : Word} {w : Work} (h : cmdWork s 0 seq 0x0134 = some w) (h1 : 512 ≤ w.d.len.toNat)
    (h2 : w.d.len.toNat ≤ 2 ^ 20) (hm : mayMaster s 0 = true) (hw : inWindows s 0 false w.d.addr.toNat w.d.len.toNat = true)
    (res : XferResult) (data : List Byte) (keys : SigKeys) (positions : List (List Byte)) :
    (res ≠ .ok → capsuleOp s seq res data keys positions = returnWork (bufferReadFailed s w res) 0 w.seq .retDma) ∧
    (res = .ok → data.length ≠ w.d.len.toNat → capsuleOp s seq res data keys positions = s) := by
  have hlen : ¬ (w.d.len.toNat < 512 ∨ 2 ^ 20 < w.d.len.toNat) := by omega
  refine ⟨fun hres => ?_, ?_⟩
  · simp only [capsuleOp, h, if_neg hlen, readBuffer_of_failed hm hw hres]
  · rintro rfl hdata
    simp only [capsuleOp, h, if_neg hlen, readBuffer_of_ok hm hw, if_pos hdata]

theorem capsuleOp_sameCounters {s : State} {seq : Word} {w : Work} (h : cmdWork s 0 seq 0x0134 = some w) (h1 : 512 ≤ w.d.len.toNat)
    (h2 : w.d.len.toNat ≤ 2 ^ 20) (hm : mayMaster s 0 = true) (hw : inWindows s 0 false w.d.addr.toNat w.d.len.toNat = true)
    (res : XferResult) (data : List Byte) (keys : SigKeys) (positions : List (List Byte)) :
    SameCounters s (capsuleOp s seq res data keys positions) := by
  obtain ⟨hfailed, hshort⟩ := capsuleOp_of_bad_read h h1 h2 hm hw res data keys positions
  by_cases hres : res = .ok
  · by_cases hdata : data.length = w.d.len.toNat
    · subst hres
      obtain ⟨hrej, htaken⟩ := capsuleOp_of_read h h1 h2 hm hw hdata keys positions
      cases hc : capsuleReject s (capsuleOf data keys) with
      | none =>
        rw [htaken hc]
        exact (capsuleTaken_outcome h _ positions).counters
      | some o =>
        rw [hrej o hc]
        exact ((sameCounters_of_rings (t := sendRead s 0 w.d.addr.toNat w.d.len.toNat) rfl).trans
          (returnWith_sameCounters _ 0 seq o)).trans (fwRestart_sameCounters _)
    · rw [hshort hres hdata]
      exact .refl s
  · rw [hfailed hres]
    exact ((bufferReadFailed_ringWork s w res).trans (returnWork_ringWork _ _ _ _)).2

/-- What the fields of a capsule's outcome give. -/
theorem CapsuleOutcome.fields {s t : State} {seq : Word} {c : Capsule} (out : CapsuleOutcome s t seq c) :
    t.fw.rec_.seq = s.fw.rec_.seq + 1 ∧ t.fw.rec_.capsuleSeq = c.seq ∧
      t.fw.recCopy = (if s.fw.recCopy = 1 then 2 else 1) ∧ t.fw.cp0 = .bootMonitor ∧ (journalOf t 0 seq).isSome = true ∧
      t.fw.rec_.factorySn = s.fw.rec_.factorySn ∧ t.fw.rec_.factoryMac = s.fw.rec_.factoryMac ∧
      (c.kind = 1 → ∃ g, g ∈ t.fw.gens ∧ g.schema = c.schema ∧ g.fromCapsule = true) ∧
      (c.kind ≠ 1 → t.fw.gens = s.fw.gens) ∧
      (c.kind = 2 → t.fw.rec_.activeSn = BitVec.ofNat 64 (beAt c.body 0 8) ∧ t.fw.rec_.activeMac = BitVec.ofNat 48 (beAt c.body 8 6) ∧
        t.fw.rec_.origin = BitVec.ofNat 64 (leAt c.body 14 8) ∧ t.fw.rec_.transferred = true) ∧
      (c.kind ≠ 2 → t.fw.rec_.activeSn = s.fw.rec_.activeSn ∧ t.fw.rec_.activeMac = s.fw.rec_.activeMac ∧
        t.fw.rec_.transferred = s.fw.rec_.transferred) ∧
      (c.kind = 3 → t.fw.rec_.profile = BitVec.ofNat 8 (leAt c.body 0 1) ∧
        t.glb.next = nextOf t.fw.rec_.profile ∧ t.glb.inForce = s.glb.inForce) ∧
      (c.kind ≠ 3 → t.fw.rec_.profile = s.fw.rec_.profile ∧ t.glb = s.glb) ∧
      (c.kind = 4 → t.fw.rec_.operatorKey = fit 48 c.body) ∧
      (c.kind ≠ 4 → t.fw.rec_.operatorKey = s.fw.rec_.operatorKey) ∧
      (t.fw.noImage = false → atStage t 0 seq .emitted ∧ t.fw.afterRestart = some (seq, Outcome.of .ok 0 0)) := by
  obtain ⟨u, A, B, hrec⟩ := out.rec_
  rw [hrec, out.glb]
  obtain ⟨hseq, hcseq, hsn, hmac⟩ := capsuleRecord_kept u c { s.fw.rec_ with seq := s.fw.rec_.seq + 1, activeReg := A, factoryReg := B }
  refine ⟨hseq, hcseq, out.recCopy, out.cp0, out.entered, hsn, hmac, out.settings, out.gens, fun hk => capsuleRecord_transfer u hk _,
    fun hk => capsuleRecord_identity u hk _, fun hk => ?_, fun hk => ⟨capsuleRecord_profile_kept u hk _, if_neg hk⟩,
    fun hk => capsuleRecord_operatorKey u hk _, fun hk => capsuleRecord_operatorKey_kept u hk _, out.waits⟩
  rw [if_pos hk, capsuleRecord_profile u hk]
  exact ⟨rfl, rfl, rfl⟩

/-! ### Which capsules are refused -/

/-- A capsule that is not refused has a kind, a verified signature, this unit's target and a later sequence number. -/
theorem capsuleReject_none {s : State} {c : Capsule} (h : capsuleReject s c = none) :
    (c.keys.operator = true ∨ (c.kind = 4 ∧ c.keys.dravhar = true)) ∧
      (c.target = s.glb.unitId ∨ ((c.kind = 1 ∨ c.kind = 3) ∧ c.target = 0)) ∧ s.fw.rec_.capsuleSeq.toNat < c.seq.toNat := by
  dsimp only [capsuleReject] at h
  by_cases h1 : c.kind = 0 ∨ 4 < c.kind
  · rw [if_pos h1] at h; exact absurd h nofun
  rw [if_neg h1] at h
  by_cases h2 : c.kind ≠ 4 ∧ s.fw.rec_.operatorKey.all (fun b => b == 0) = true
  · rw [if_pos h2] at h; exact absurd h nofun
  rw [if_neg h2] at h
  by_cases h3 : (!c.magicOk || !c.whole || !(c.keys.operator || (decide (c.kind = 4) && c.keys.dravhar))) = true
  · rw [if_pos h3] at h; exact absurd h nofun
  rw [if_neg h3] at h
  by_cases h4 : c.target ≠ s.glb.unitId ∧ (!decide ((c.kind = 1 ∨ c.kind = 3) ∧ c.target = 0)) = true
  · rw [if_pos h4] at h; exact absurd h nofun
  rw [if_neg h4] at h
  by_cases h5 : c.seq.toNat ≤ s.fw.rec_.capsuleSeq.toNat
  · rw [if_pos h5] at h; exact absurd h nofun
  simp only [Bool.or_eq_true, Bool.not_eq_true', decide_eq_false_iff_not, not_or, Bool.not_eq_false,
    Bool.or_eq_false_iff, Bool.and_eq_false_iff] at h3 h4
  refine ⟨?_, ?_, Nat.not_le.1 h5⟩
  · by_contra hno
    simp only [not_or, not_and, Bool.not_eq_true] at hno
    exact h3.2 ⟨hno.1, (em (c.kind = 4)).elim (fun hk => .inr (hno.2 hk)) .inl⟩
  · by_contra hno
    rw [not_or] at hno
    exact h4 hno

/-- A TRANSFER without the operator's signature is denied. -/
theorem capsuleReject_transfer (s : State) {c : Capsule} (hk : c.kind = 2) (hop : c.keys.operator = false) :
    ∃ o, capsuleReject s c = some o ∧ o.status = .retDenied := by
  dsimp only [capsuleReject]
  rw [if_neg (by omega)]
  by_cases h2 : c.kind ≠ 4 ∧ s.fw.rec_.operatorKey.all (fun b => b == 0) = true
  · rw [if_pos h2]
    exact ⟨_, rfl, rfl⟩
  · rw [if_neg h2, if_pos (by simp [hop, hk])]
    exact ⟨_, rfl, rfl⟩

theorem capsuleReject_spec (s : State) (c : Capsule) :
    (c.kind = 2 → c.keys.operator = false → ∃ o, capsuleReject s c = some o ∧ o.status = .retDenied) ∧
      (c.keys.operator = false → c.keys.dravhar = false → capsuleReject s c ≠ none) ∧
      (c.target ≠ s.glb.unitId → (c.target ≠ 0 ∨ (c.kind ≠ 1 ∧ c.kind ≠ 3)) → capsuleReject s c ≠ none) ∧
      (c.seq.toNat ≤ s.fw.rec_.capsuleSeq.toNat → capsuleReject s c ≠ none) := by
  refine ⟨capsuleReject_transfer s, fun hop hdr h => ?_, fun ht hor h => ?_, fun hseq h => ?_⟩ <;>
    obtain ⟨hsig, htarget, hlater⟩ := capsuleReject_none h
  · rw [hop, hdr] at hsig
    exact hsig.elim nofun fun e => absurd e.2 nofun
  · obtain ⟨hk, h0⟩ := htarget.resolve_left ht
    exact hor.elim (fun e => e h0) fun e => hk.elim e.1 e.2
  · omega

/-! ### REVERT and the reading of the identity record -/

theorem revert_follows {s : State} (hoff : s.pwr.state ≠ .off) (hcore : s.pwr.domCore = true) : ∃ t, exec .revert s = .next t ∧
    t = { s with fw := { s.fw with revert := true }, hif := t.hif, evt := t.evt, sent := t.sent } := by
  have hcr : (raise s Src.mgtArmedWrite 0xFF 0).pwr.domCore = true := by rw [raise_pwr]; exact hcore
  refine ⟨modFw (raise s Src.mgtArmedWrite 0xFF 0) (fun w => { w with revert := true }), ?_, ?_⟩
  · refine congrArg Host.Outcome.next ?_
    simp only [revertOp, if_neg hoff, hcr, if_true]
  · have h := (raise_evtOnly s Src.mgtArmedWrite 0xFF 0).frame
    rw [h]
    rfl

/-- The default of SES_DTU in each channel. -/
def sesFixed (p : BitVec 2) (s : State) : Vector Chan 24 :=
  vmapIdx (fun _ k => { k with pm := { k.pm with sesDtu := if p = 1 then 8 else 16 } }) s.chans

theorem fixProfile_of_crs {s : State} (h : s.hif.crs = true) (p : BitVec 2) : fixProfile s p =
    { s with
      glb := { s.glb with inForce := p, next := p }
      chans := sesFixed p s
      pwr := { s.pwr with idleUs := if p = 1 then 200 else 100 } } := if_pos h

theorem fixProfile_crs {s : State} (h : s.hif.crs = true) (p : BitVec 2) :
    (fixProfile s p).glb = { s.glb with inForce := p, next := p } ∧ (fixProfile s p).pwr.idleUs = (if p = 1 then 200 else 100) ∧
      ∀ c, c < 24 → (chanAt (fixProfile s p) c).pm.sesDtu = if p = 1 then 8 else 16 := by
  have hfix := fixProfile_of_crs h p
  refine ⟨by rw [hfix], by rw [hfix], fun c hc => ?_⟩
  have hch : (fixProfile s p).chans = sesFixed p s := by rw [hfix]
  exact congrArg (fun k : Chan => k.pm.sesDtu) (chanAt_vmapIdx hch hc)

theorem fixProfile_served {s : State} (h : s.hif.crs = false) (p : BitVec 2) : fixProfile s p = s :=
  if_neg (by rw [h]; exact Bool.false_ne_true)

theorem fixProfile_frame (s : State) (p : BitVec 2) :
    fixProfile s p = { s with glb := (fixProfile s p).glb, chans := (fixProfile s p).chans, pwr := (fixProfile s p).pwr } := by
  unfold fixProfile
  split <;> rfl

theorem fixProfile_fw (s : State) (p : BitVec 2) : (fixProfile s p).fw = s.fw := by rw [fixProfile_frame]

/-- The profile alone is fixed of the global registers. -/
theorem fixProfile_glb (s : State) (p : BitVec 2) : ∃ f n, (fixProfile s p).glb = { s.glb with inForce := f, next := n } := by
  unfold fixProfile
  split
  · exact ⟨p, p, rfl⟩
  · exact ⟨s.glb.inForce, s.glb.next, rfl⟩

/-- The end of the reading: configuration requests are served. -/
def identityServed (s : State) (f : Glb → Glb) : State := modHif (modGlb s f) (fun h => { h with crs := false })

/-- The state with the record that was read. -/
def recordRead (s : State) (copy : BitVec 2) (x : IdRec) : State :=
  fixProfile (modFw s (fun w => { w with rec_ := x, recCopy := copy, recKnown := true })) (nextOf x.profile)

section
variable {s : State} {a b : List Byte} {copy : BitVec 2} {x : IdRec} (hcore : s.pwr.domCore = true) (hl : s.glb.loaded = false)
  (hpick : (if s.fw.recKnown then (s.fw.recCopy, s.fw.rec_) else pickCopy a b) = (copy, x))
include hcore hl hpick

theorem identityOp_of_none (h0 : copy = 0) :
    identityOp s a b = identityServed (fixProfile s 2) (fun g => { g with loaded := true, recBad := true }) := by
  have hgo : ¬ (!s.pwr.domCore || s.glb.loaded) = true := by rw [hcore, hl]; exact Bool.false_ne_true
  unfold identityOp
  rw [if_neg hgo, hpick]
  exact if_pos h0

theorem identityOp_of_copy (h0 : copy ≠ 0) :
    identityOp s a b = identityServed (deriveCapsule (recordRead s copy x)) (fun g => glbIdentity g copy x) := by
  have hgo : ¬ (!s.pwr.domCore || s.glb.loaded) = true := by rw [hcore, hl]; exact Bool.false_ne_true
  unfold identityOp
  rw [if_neg hgo, hpick]
  exact if_neg h0
end

theorem identityServed_fields (s : State) (f : Glb → Glb) : (identityServed s f).glb = f s.glb ∧ (identityServed s f).hif.crs = false ∧
    (identityServed s f).rings = s.rings ∧ (identityServed s f).pwr = s.pwr ∧ (identityServed s f).chans = s.chans ∧
    (identityServed s f).fw = s.fw := ⟨rfl, rfl, rfl, rfl, rfl, rfl⟩

/-- After POWER-ON the profile read is in force, with the reset values that depend on it; before, nothing of them changes. -/
structure ProfileFixed (s t : State) (p : BitVec 2) : Prop where
  fresh : s.hif.crs = true → t.glb.inForce = p ∧ t.glb.next = p ∧ t.pwr.idleUs = (if p = 1 then 200 else 100) ∧
    ∀ c, c < 24 → (chanAt t c).pm.sesDtu = if p = 1 then 8 else 16
  kept : s.hif.crs = false → t.glb.inForce = s.glb.inForce ∧ t.pwr = s.pwr ∧ t.chans = s.chans

theorem fixProfile_fixed (s : State) (p : BitVec 2) : ProfileFixed s (fixProfile s p) p := by
  refine ⟨fun h => ?_, fun h => ?_⟩
  · obtain ⟨hg, hi, hc⟩ := fixProfile_crs h p
    rw [hg]
    exact ⟨rfl, rfl, hi, hc⟩
  · rw [fixProfile_served h]
    exact ⟨rfl, rfl, rfl⟩

/-- A state with the same profile, power and channels has the same profile fixed. -/
theorem ProfileFixed.congr {s t u : State} {p : BitVec 2} (h : ProfileFixed s t p) (hi : u.glb.inForce = t.glb.inForce)
    (hn : u.glb.next = t.glb.next) (hp : u.pwr = t.pwr) (hc : u.chans = t.chans) : ProfileFixed s u p := by
  refine ⟨fun hs => ?_, fun hs => ?_⟩
  · rw [hi, hn, hp]
    obtain ⟨h1, h2, h3, h4⟩ := h.fresh hs
    refine ⟨h1, h2, h3, fun c hcn => ?_⟩
    rw [chanAt, hc]
    exact h4 c hcn
  · rw [hi, hp, hc]
    exact h.kept hs

/-- What a reading of the identity record leaves, copy 0 where none is valid. -/
structure IdentityTaken (s t : State) (copy : BitVec 2) (x : IdRec) : Prop where
  counters : SameCounters s t
  loaded : t.glb.loaded = true
  served : t.hif.crs = false
  unitId : t.glb.unitId = s.glb.unitId
  none_valid : copy = 0 → t.glb.recBad = true ∧ t.glb.sn = s.glb.sn ∧ t.glb.mac = s.glb.mac
  identity : copy ≠ 0 → t.glb.sn = x.activeSn ∧ t.glb.mac = x.activeMac ∧ t.glb.origin = x.origin ∧ t.glb.transferred = x.transferred ∧
    t.glb.copy = copy ∧ t.glb.recBad = false ∧ t.fw.rec_ = x ∧ t.fw.recKnown = true
  profile : ProfileFixed s t (if copy = 0 then 2 else nextOf x.profile)

theorem identityOp_none {s : State} (copy : BitVec 2) (x : IdRec) (h0 : copy = 0) :
    IdentityTaken s (identityServed (fixProfile s 2) (fun g => { g with loaded := true, recBad := true })) copy x := by
  obtain ⟨hg, hc, hr, hp, hch, -⟩ := identityServed_fields (fixProfile s 2) (fun g => { g with loaded := true, recBad := true })
  obtain ⟨f, n, hfix⟩ := fixProfile_glb s 2
  refine ⟨sameCounters_of_rings (hr.trans (fixProfile_rings s 2)), ?_, hc, ?_, fun _ => ?_, fun h => absurd h0 h, ?_⟩
  · rw [hg]
  · rw [hg, hfix]
  · rw [hg, hfix]
    exact ⟨rfl, rfl, rfl⟩
  · rw [if_pos h0]
    exact (fixProfile_fixed s 2).congr (by rw [hg]) (by rw [hg]) hp hch

theorem recordRead_fw (s : State) (copy : BitVec 2) (x : IdRec) :
    (recordRead s copy x).fw = { s.fw with rec_ := x, recCopy := copy, recKnown := true } := by
  rw [recordRead, fixProfile_fw]
  exact modFw_fw s _

theorem deriveCapsule_fields (s : State) : (deriveCapsule s).glb = s.glb ∧ (deriveCapsule s).pwr = s.pwr ∧ (deriveCapsule s).chans = s.chans ∧
    (deriveCapsule s).fw = s.fw := by
  rw [deriveCapsule_frame]
  exact ⟨rfl, rfl, rfl, rfl⟩

theorem identityOp_copy {s : State} (copy : BitVec 2) (x : IdRec) (h0 : copy ≠ 0) :
    IdentityTaken s (identityServed (deriveCapsule (recordRead s copy x)) (fun g => glbIdentity g copy x)) copy x := by
  obtain ⟨hg, hc, hr, hp, hch, hf⟩ := identityServed_fields (deriveCapsule (recordRead s copy x)) (fun g => glbIdentity g copy x)
  obtain ⟨dg, dp, dch, df⟩ := deriveCapsule_fields (recordRead s copy x)
  refine ⟨sameCounters_of_rings ?_, ?_, hc, ?_, fun h => absurd h h0, fun _ => ?_, ?_⟩
  · rw [hr, deriveCapsule_rings, recordRead, fixProfile_rings, modFw_rings]
  · rw [hg]
    rfl
  · rw [hg, dg]
    show (recordRead s copy x).glb.unitId = s.glb.unitId
    obtain ⟨f, n, hfix⟩ := fixProfile_glb (modFw s (fun w => { w with rec_ := x, recCopy := copy, recKnown := true })) (nextOf x.profile)
    rw [recordRead, hfix, modFw_glb]
  · rw [hg, hf, df, recordRead_fw]
    exact ⟨rfl, rfl, rfl, rfl, rfl, rfl, rfl, rfl⟩
  · rw [if_neg h0]
    have h := fixProfile_fixed (modFw s (fun w => { w with rec_ := x, recCopy := copy, recKnown := true })) (nextOf x.profile)
    have h' : ProfileFixed s (recordRead s copy x) (nextOf x.profile) := ⟨h.fresh, h.kept⟩
    exact h'.congr (by rw [hg, dg]; rfl) (by rw [hg, dg]; rfl) (hp.trans dp) (hch.trans dch)

theorem identityLoaded_taken {s : State} {a b : List Byte} {copy : BitVec 2} {x : IdRec} (hcore : s.pwr.domCore = true) (hl : s.glb.loaded = false)
    (hpick : (if s.fw.recKnown then (s.fw.recCopy, s.fw.rec_) else pickCopy a b) = (copy, x)) : IdentityTaken s (identityOp s a b) copy x := by
  by_cases h0 : copy = 0
  · rw [identityOp_of_none hcore hl hpick h0]
    exact identityOp_none copy x h0
  · rw [identityOp_of_copy hcore hl hpick h0]
    exact identityOp_copy copy x h0

/-- The valid copy of the higher SEQ is taken. -/
theorem pickCopy_spec (a b : List Byte) :
    (recGood a = false → recGood b = false → (pickCopy a b).1 = 0) ∧
      (recGood a = true → (recGood b = false ∨ (recOf b).seq.toNat ≤ (recOf a).seq.toNat) → pickCopy a b = (1, recOf a)) ∧
      (recGood b = true → (recGood a = false ∨ (recOf a).seq.toNat < (recOf b).seq.toNat) → pickCopy a b = (2, recOf b)) := by
  unfold pickCopy
  cases ha : recGood a <;> cases hb : recGood b
  · exact ⟨fun _ _ => rfl, fun h => absurd h nofun, fun h => absurd h nofun⟩
  · exact ⟨fun _ h => absurd h nofun, fun h => absurd h nofun, fun _ _ => rfl⟩
  · exact ⟨fun h => absurd h nofun, fun _ _ => rfl, fun h => absurd h nofun⟩
  · exact ⟨fun h => absurd h nofun, fun _ h => if_neg (Nat.not_lt.2 (h.resolve_left nofun)), fun _ h => if_pos (h.resolve_left nofun)⟩

/-- Settles O45: capsules by CAPSULE_APPLY's outcomes, the identity by its reading. -/
theorem capsulesAndIdentity : Obligations.CapsulesAndIdentity := by
  intro s
  refine ⟨fun seq res data keys positions w h h1 h2 hm hw => ?_, capsuleReject_spec s, revert_follows, ?_, pickCopy_spec, ?_⟩
  · obtain ⟨hopen, -, -, -, -, -, -⟩ := cmdWork_eq_some h
    obtain ⟨hfailed, hshort⟩ := capsuleOp_of_bad_read h h1 h2 hm hw res data keys positions
    refine ⟨capsuleOp s seq res data keys positions, rfl, capsuleOp_sameCounters h h1 h2 hm hw res data keys positions,
      fun hres => ?_, hshort, ?_, ?_⟩
    · rw [hfailed hres]
      exact ⟨returnedWith_bufferReadFailed hopen res, by simp [bufferReadFailed]⟩
    · rintro o rfl hdata ho
      rw [(capsuleOp_of_read h h1 h2 hm hw hdata keys positions).1 o ho]
      obtain ⟨hf, hret, hj⟩ := workOpen_eq_some.1 hopen
      obtain ⟨hrec, hglb, hsec⟩ := fwRestart_returned s w seq o
      refine ⟨?_, hrec, hglb, hsec, fwRestart_cp0 _⟩
      have hback : returnedWith (returnWith (sendRead s 0 w.d.addr.toNat w.d.len.toNat) 0 seq o) 0 seq = some o :=
        returnedWith_returnWith (w := w) (by rw [ringAt_sendRead]; exact hf) hret (by rw [← hj]; rfl)
      exact (returnedWith_fwRestart _ 0 seq).trans hback
    · rintro rfl hdata hc
      rw [(capsuleOp_of_read h h1 h2 hm hw hdata keys positions).2 hc]
      exact (capsuleTaken_outcome h _ positions).fields
  · intro a b copy x hcore hl hpick
    have ht := identityLoaded_taken hcore hl hpick
    refine ⟨identityOp s a b, rfl, ht.counters, ht.loaded, ht.served, ht.unitId, fun h0 => ?_, fun h0 => ?_, fun hcrs => ?_, ht.profile.kept⟩
    · obtain ⟨h1, h2, h3⟩ := ht.none_valid h0
      exact ⟨h1, h2, h3, fun hcrs => (ht.profile.fresh hcrs).1.trans (if_pos h0)⟩
    · obtain ⟨h1, h2, h3, h4, h5, h6, h7, h8⟩ := ht.identity h0
      exact ⟨h1, h2, h3, h4, h5, h6, h7, h8, fun hcrs => (ht.profile.fresh hcrs).1.trans (if_neg h0)⟩
    · obtain ⟨h1, h2, h3, h4⟩ := ht.profile.fresh hcrs
      rw [h1, h2]
      exact ⟨rfl, h3, h4⟩
  · intro hno a b
    refine congrArg Host.Outcome.next (if_pos ?_)
    rcases hno with h | h <;> rw [h] <;> simp

end Sys2Proof.Machine

/-! # The management port (O49) -/

namespace Sys2Proof.Machine

open Sys2Proof

/-! ### An event leaves the interrupt enables -/

theorem logAlone_intEn (s : State) (e : Evt) (src scope : Nat) (info1 : Word) : (logAlone s e src scope info1).intEn = e.intEn := by
  unfold logAlone
  split
  · split
    · split <;> rfl
    · rfl
  · rfl

theorem countAll_intEn (e : Evt) (src scope inc : Nat) : (countAll e src scope inc).intEn = e.intEn := by
  simp only [countAll]

theorem storeOcc_intEn (s : State) (e : Evt) (src scope : Nat) (info1 : Word) : (storeOcc s e src scope info1).1.intEn = e.intEn := by
  unfold storeOcc
  split
  · split
    · rfl
    · split
      · dsimp only
        split <;> rfl
      · exact logAlone_intEn s _ src scope info1
  · exact logAlone_intEn s e src scope info1

theorem countPfVec_intEn (s : State) (e : Evt) (v : Nat) : (countPfVec s e v).1.intEn = e.intEn := by
  unfold countPfVec
  extract_lets n
  split <;> rfl

theorem countChVec_intEn (s : State) (e : Evt) (c : Nat) : (countChVec s e c).1.intEn = e.intEn := by
  unfold countChVec
  extract_lets n
  split <;> rfl

theorem routeOcc_intEn (s : State) (e : Evt) (src scope : Nat) : (routeOcc s e src scope).1.intEn = e.intEn := by
  unfold routeOcc
  extract_lets e1 v
  have h2 : (if 1 ≤ v ∧ v ≤ 9 then countPfVec s e1 v else (e1, [])).1.intEn = e.intEn := by
    split
    · exact countPfVec_intEn s e1 v
    · rfl
  generalize (if 1 ≤ v ∧ v ≤ 9 then countPfVec s e1 v else (e1, [])) = x at h2
  dsimp only
  split
  · exact (countChVec_intEn s _ scope).trans h2
  · exact h2

theorem sendAll_evt_eq (l : List (Nat × Nat)) (s : State) : (sendAll s l).evt = s.evt := by
  have one : ∀ (s : State) (m : Nat × Nat), (sendMsix s m).evt = s.evt := by
    intro s m
    unfold sendMsix
    dsimp only
    split
    · rfl
    · split <;> rfl
  unfold sendAll
  induction l generalizing s with
  | nil => rfl
  | cons m l ih => exact (ih (sendMsix s m)).trans (one s m)

theorem raiseFuel_intEn (n : Nat) (s : State) (src scope : Nat) (info1 : Word) (inc : Nat) :
    (raiseFuel n s src scope info1 inc).evt.intEn = s.evt.intEn := by
  induction n generalizing s src scope info1 inc with
  | zero => rfl
  | succ n ih =>
    have wraps : ∀ (l : List (Nat × Nat)) (t : State),
        (l.foldl (fun t w => raiseFuel n t Src.counterWrap w.1 (word w.2) 1) t).evt.intEn = t.evt.intEn := by
      intro l
      induction l with
      | nil => exact fun _ => rfl
      | cons w l ihl => exact fun t => (ihl _).trans (ih t _ _ _ _)
    unfold raiseFuel
    cases hst : storeOcc s (countAll s.evt src scope inc) src scope info1 with
    | mk e1 full =>
      cases hr : routeOcc s e1 src scope with
      | mk e2 msgs =>
        have h1 := storeOcc_intEn s (countAll s.evt src scope inc) src scope info1
        have h2 := routeOcc_intEn s e1 src scope
        rw [hst] at h1
        rw [hr] at h2
        have routed : (sendAll { s with evt := e2 } msgs).evt.intEn = s.evt.intEn := by
          rw [sendAll_evt_eq]
          exact h2.trans (h1.trans (countAll_intEn _ _ _ _))
        dsimp only
        rw [hr]
        dsimp only
        rw [wraps]
        split
        · exact (ih _ _ _ _ _).trans routed
        · exact routed

theorem raise_intEn (s : State) (src scope : Nat) (info1 : Word) : (raise s src scope info1).evt.intEn = s.evt.intEn :=
  raiseFuel_intEn raiseChain s src scope info1 1

/-! ### Errors of the port -/

theorem PortOnly.frame {s t : State} (h : PortOnly s t) : t = { s with mgt := t.mgt, hif := t.hif, evt := t.evt, sent := t.sent } := by
  unfold PortOnly at h
  rw [h]

theorem portErr_intEn (s : State) (e : PortErr) : (portErr s e).evt.intEn = s.evt.intEn := by
  unfold portErr
  split
  · rfl
  · exact raise_intEn _ _ _ _

theorem portErr_sent (s : State) (e : PortErr) : s.sent <:+ (portErr s e).sent := by
  unfold portErr
  split
  · exact List.suffix_rfl
  · exact raise_sent (modMgt s _) _ _ _

/-- What an error leaves of the port's state. -/
theorem setSticky_fields (m : Mgt) (e : PortErr) : (m.setSticky e).mode = m.mode ∧ (m.setSticky e).words = m.words ∧
    (m.setSticky e).armed = m.armed ∧ (m.setSticky e).capture = m.capture ∧ (m.setSticky e).selected = m.selected := by
  cases e <;> exact ⟨rfl, rfl, rfl, rfl, rfl⟩

theorem portErr_fields (s : State) (e : PortErr) : (portErr s e).mgt.mode = s.mgt.mode ∧ (portErr s e).mgt.words = s.mgt.words ∧
    (portErr s e).mgt.armed = s.mgt.armed ∧ (portErr s e).mgt.capture = s.mgt.capture := by
  obtain ⟨h1, h2, h3, h4, -⟩ := setSticky_fields s.mgt e
  rw [portErr_mgt]
  exact ⟨h1, h2, h3, h4⟩

theorem portErr_armErr (s : State) : (portErr s .arm).mgt.armErr = true := by rw [portErr_mgt]; rfl

/-! ### Select periods -/

theorem portLive_of_on {s : State} (h : s.pwr.state ≠ .off) : portLive s = true := decide_eq_true h

theorem selectFall_begins {s : State} (hon : s.pwr.state ≠ .off) (sck : Bool) {high : Nat} (hsel : s.mgt.selected = false) (hh : 20 ≤ high) :
    exec (.ahnairSelectFall sck high) s = .next { s with mgt := { s.mgt with
      selected := true, spiMode3 := sck, mode := .header, armed := none, words := 0, allOnes := decide (high < 100), capture := 0 } } := by
  refine congrArg Host.Outcome.next (if_neg ?_)
  rw [portLive_of_on hon, hsel, decide_eq_false (Nat.not_lt.2 hh)]
  exact Bool.false_ne_true

theorem selectFall_ignored (s : State) (sck : Bool) {high : Nat} (h : s.mgt.selected = true ∨ high < 20) :
    exec (.ahnairSelectFall sck high) s = .next s := by
  refine congrArg Host.Outcome.next (if_pos ?_)
  rcases h with h | h
  · rw [h]; simp
  · rw [decide_eq_true h]; simp

theorem portErrIf_words (b : Bool) (e : PortErr) (s : State) : (portErrIf b e s).mgt.words = s.mgt.words := by
  cases b
  · rfl
  · exact (portErr_fields s e).2.1

theorem riseErrors_armErr {s : State} (h : s.mgt.armed ≠ none) (n : Nat) : (riseErrors s n).mgt.armErr = true := by
  have hp : s.mgt.armingPending = true := by simp [Mgt.armingPending, Option.isSome_iff_ne_none.2 h]
  rw [riseErrors, hp]
  exact portErr_armErr _

theorem selectRise_follows {s : State} (hon : s.pwr.state ≠ .off) (hsel : s.mgt.selected = true) (n : Nat) :
    ∃ t, exec (.ahnairSelectRise n) s = .next t ∧
      t = { s with mgt := t.mgt, hif := t.hif, evt := t.evt, sent := t.sent } ∧ t.mgt.selected = false ∧ t.mgt.armed = none ∧
      t.mgt.lastWords = BitVec.ofNat 8 (min s.mgt.words 255) ∧ (n % 32 ≠ 0 → t.mgt.partial_ = true) ∧
      (s.mgt.armed ≠ none → t.mgt.armErr = true) ∧
      (n % 32 = 0 → s.mgt.mode = .header → s.mgt.armed = none → t.mgt.errs = s.mgt.errs) := by
  refine ⟨_, congrArg Host.Outcome.next (selectRiseOp_of_selected (portLive_of_on hon) hsel n),
    ((riseErrors_portOnly s n).trans (modMgt_portOnly _ _)).frame, rfl, rfl, ?_, fun hn => ?_, fun ha => riseErrors_armErr ha n, fun hn hm ha => ?_⟩
  · have hwords : (riseErrors s n).mgt.words = s.mgt.words := (portErrIf_words _ _ _).trans (portErrIf_words _ _ _)
    exact congrArg (fun k => BitVec.ofNat 8 (min k 255)) hwords
  · exact (riseErrors_partial s n).trans (by simp [hn])
  · rw [riseErrors_of_whole_word hn (Mgt.armingPending_eq_false ha fun a h => absurd (hm.symm.trans h) nofun)]
    rfl

/-! ### Headers -/

/-- The status word has been shifted out, and the report starts anew. -/
def headerShifted (s : State) : State :=
  { s with sent := .miso (statusWord s) :: s.sent, mgt := { s.mgt with errs := 0, allOnes := false, words := s.mgt.words + 1 } }

theorem headerShifted_portOnly (s : State) : PortOnly s (headerShifted s) := rfl

theorem headerCommit_eq (s : State) (uses : Option Nat) : (s.mgt.armed = none → headerCommit s uses = headerShifted s) ∧
    ∀ a, s.mgt.armed = some a → headerCommit s uses =
      if uses = some a then headerShifted s else portErr (modMgt (headerShifted s) (fun m => { m with armed := none })) .arm := by
  refine ⟨fun h => ?_, fun a h => ?_⟩ <;> unfold headerCommit <;> rw [h] <;> rfl

section
variable {s : State} (hon : s.pwr.state ≠ .off) (hsel : s.mgt.selected = true) (hmode : s.mgt.mode = .header)
include hon hsel hmode

theorem header_commits (uses : Option Nat) (f : State → State) : header s uses f = f (headerCommit s uses) :=
  if_pos (by rw [headerDue, portLive_of_on hon, hsel, hmode]; rfl)

/-- Each header commits with the status word, and begins its own kind of words. -/
theorem headers_follow (harm : s.mgt.armed = none) :
    exec .status s = .next (headerShifted s) ∧
    (∀ a, exec (.read a) s = .next (modMgt (headerShifted s) (fun m => { m with mode := .reading a.toNat, capture := 0xFFFFFFFF }))) ∧
    (∀ a, exec (.write a) s = .next (modMgt (headerShifted s) (fun m => { m with mode := .writing a.toNat }))) ∧
    (∀ a, exec (.arm a) s = .next (modMgt (headerShifted s) (fun m => { m with armed := some a.toNat }))) := by
  have commit : ∀ uses, headerCommit s uses = headerShifted s := fun uses => (headerCommit_eq s uses).1 harm
  refine ⟨congrArg Host.Outcome.next ?_, fun a => congrArg Host.Outcome.next ?_, fun a => congrArg Host.Outcome.next ?_,
    fun a => congrArg Host.Outcome.next ?_⟩
  · exact (header_commits hon hsel hmode _ _).trans (commit _)
  · exact (header_commits hon hsel hmode _ _).trans (by rw [commit])
  · refine (header_commits hon hsel hmode _ _).trans ?_
    rw [commit]
    simp only [modMgt, headerShifted, harm, Option.isSome_none, Bool.false_and, Bool.false_eq_true, if_false]
  · exact (header_commits hon hsel hmode _ _).trans (by rw [commit])

/-- A WRITE with its arming. -/
theorem write_uses_arming {a : BitVec 24} (harm : s.mgt.armed = some a.toNat) (hreg : (armedReg a.toNat).isSome = true) :
    exec (.write a) s = .next (modMgt (headerShifted s) (fun m => { m with mode := .armedFirst a.toNat, armed := none })) := by
  refine congrArg Host.Outcome.next ((header_commits hon hsel hmode _ _).trans ?_)
  rw [(headerCommit_eq s _).2 _ harm, if_pos rfl]
  simp only [modMgt, headerShifted, harm, hreg, Option.isSome_some, Bool.true_and, if_true]

/-- A WRITE elsewhere loses the arming. -/
theorem write_loses_arming {a : BitVec 24} {b : Nat} (harm : s.mgt.armed = some b) (hb : b ≠ a.toNat) : ∃ t, exec (.write a) s = .next t ∧
    t.mgt.mode = .writing a.toNat ∧ t.mgt.armErr = true ∧ t.mgt.armed = none := by
  refine ⟨_, congrArg Host.Outcome.next (header_commits hon hsel hmode _ _), ?_⟩
  rw [(headerCommit_eq s _).2 _ harm, if_neg (fun h => hb (Option.some.inj h).symm)]
  have hnone : (portErr (modMgt (headerShifted s) (fun m => { m with armed := none })) .arm).mgt.armed = none := (portErr_fields _ _).2.2.1
  refine ⟨?_, portErr_armErr _, rfl⟩
  show (if _ then _ else _) = _
  rw [hnone]
  rfl

theorem unknownOpcode_follows {h : Word} (hk : knownOpcode h = false) : ∃ t, exec (.ahnairUnknownOpcode h) s = .next t ∧
    t.mgt.mode = .ignore ∧ t.mgt.opcErr = true ∧ t = { s with mgt := t.mgt, hif := t.hif, evt := t.evt, sent := t.sent } := by
  have commit : PortOnly s (headerCommit s none) := by
    cases harm : s.mgt.armed with
    | none => rw [(headerCommit_eq s none).1 harm]; exact headerShifted_portOnly s
    | some a =>
      rw [(headerCommit_eq s none).2 a harm, if_neg nofun]
      exact ((headerShifted_portOnly s).trans (modMgt_portOnly _ _)).trans (portErr_portOnly _ _)
  refine ⟨portErr (modMgt (headerCommit s none) (fun m => { m with mode := .ignore })) .opc, ?_, ?_, ?_,
    ((commit.trans (modMgt_portOnly _ _)).trans (portErr_portOnly _ _)).frame⟩
  · refine congrArg Host.Outcome.next ?_
    rw [unknownHeader, hk, if_neg Bool.false_ne_true, header_commits hon hsel hmode]
  · exact (portErr_fields _ _).1
  · rw [portErr_mgt]
    rfl
end

/-! ### Reads -/

/-- The frame of a read: the port, its latches, the events and what they send. -/
def ReadFrame (s t : State) : Prop := t = { s with mgt := t.mgt, hif := t.hif, time := t.time, evt := t.evt, sent := t.sent }

theorem ReadFrame.refl (s : State) : ReadFrame s s := rfl

theorem ReadFrame.trans {s t u : State} (h : ReadFrame s t) (h' : ReadFrame t u) : ReadFrame s u := by
  unfold ReadFrame at h h' ⊢
  rw [h', h]

theorem PortOnly.readFrame {s t : State} (h : PortOnly s t) : ReadFrame s t := by
  unfold ReadFrame
  rw [h.frame]

/-- The value of a register to the port moves the port's latches alone. -/
theorem portValue_keeps (s : State) (off : Nat) : ReadFrame s (portValue s off).2 ∧ (portValue s off).2.mgt = s.mgt ∧
    (portValue s off).2.sent = s.sent := by
  unfold portValue
  repeat' split
  all_goals exact ⟨rfl, rfl, rfl⟩

/-- What a read keeps: the port's own place, and what has been sent. -/
structure ReadKept (s t : State) : Prop where
  frame : ReadFrame s t
  words : t.mgt.words = s.mgt.words
  sent : s.sent <:+ t.sent

theorem ReadKept.trans {s t u : State} (h : ReadKept s t) (h' : ReadKept t u) : ReadKept s u :=
  ⟨h.frame.trans h'.frame, h'.words.trans h.words, h.sent.trans h'.sent⟩

theorem portErr_readKept (s : State) (e : PortErr) : ReadKept s (portErr s e) :=
  ⟨(portErr_portOnly s e).readFrame, (portErr_fields s e).2.1, portErr_sent s e⟩

theorem capture_readKept (s : State) (v : Word) : ReadKept s (modMgt s (fun m => { m with capture := v })) :=
  ⟨rfl, rfl, List.suffix_rfl⟩

theorem portValue_readKept (s : State) (off : Nat) : ReadKept s (portValue s off).2 := by
  obtain ⟨hf, hm, hs⟩ := portValue_keeps s off
  exact ⟨hf, congrArg Mgt.words hm, hs ▸ List.suffix_rfl⟩

theorem portRead_readKept (s : State) (a : Nat) : ReadKept s (portRead s a) := by
  unfold portRead
  split
  · exact (portErr_readKept s .addr).trans (capture_readKept _ 0)
  · split
    · exact capture_readKept s 0
    · have hv := portValue_readKept s
      dsimp only
      split
      · exact ((hv _).trans (capture_readKept _ _)).trans (portErr_readKept _ .asleep)
      · exact (hv _).trans (capture_readKept _ _)

/-- A read past the last word address captures 0. -/
theorem portRead_past {s : State} {a : Nat} (h : lastWordAddr < a) : (portRead s a).mgt.capture = 0 ∧ (portRead s a).mgt.addrErr = true := by
  unfold portRead
  rw [if_pos h]
  refine ⟨rfl, ?_⟩
  rw [modMgt_mgt, portErr_mgt]
  rfl

/-! ### Writes -/

theorem armedReg_inside {a : Nat} (h : (armedReg a).isSome = true) : ¬ lastWordAddr < a := by
  unfold armedReg at h
  unfold lastWordAddr
  split at h
  · omega
  · split at h
    · omega
    · split at h
      · omega
      · split at h
        · omega
        · exact absurd h nofun

/-- No management register is armed. -/
theorem armedReg_management {a : Nat} (h1 : 0x34000 ≤ a) (h2 : a < 0x38000) : armedReg a = none := by
  unfold armedReg
  rw [if_neg (by omega), if_neg (by omega), if_neg (by omega), if_neg (by omega)]

theorem portWrite_armed {s : State} {a : Nat} (h : (armedReg a).isSome = true) (v : Word) : portWrite s a v = portErr s .arm := by
  rw [portWrite, if_neg (armedReg_inside h), if_pos h]

/-- A management register's offset has its own branch of a WRITE. -/
theorem portWrite_management {s : State} {a : Nat} (h1 : 0x34000 < a) (h2 : a < 0x38000) (v : Word) : portWrite s a v =
    if 0x34004 ≤ a ∧ a ≤ 0x34006 then { s with evt := { s.evt with intEn := vset s.evt.intEn (a - 0x34004) v } }
    else if 0x34008 ≤ a ∧ a ≤ 0x3400A then
      { s with evt := { s.evt with intPend := vset s.evt.intPend (a - 0x34008) (vget s.evt.intPend (a - 0x34008) 0 &&& ~~~v) } }
    else s := by
  have hpast : ¬ lastWordAddr < a := by unfold lastWordAddr; omega
  have harm : ¬ (armedReg a).isSome = true := by rw [armedReg_management h1.le h2]; exact Bool.false_ne_true
  rw [portWrite, if_neg hpast, if_neg harm, if_neg (by omega), if_pos (⟨h1.le, h2⟩ : 0x34000 ≤ a ∧ a < 0x38000)]

theorem portWrite_elsewhere {s : State} {a : Nat} (h : a < 0x34000) (harm : (armedReg a).isSome = false) (v : Word) :
    portWrite s a v = portErr s .wr := by
  have hpast : ¬ lastWordAddr < a := by unfold lastWordAddr; omega
  rw [portWrite, if_neg hpast, if_neg (by rw [harm]; exact Bool.false_ne_true), if_neg (by omega), if_neg (by omega), if_neg (by omega),
    if_neg (by omega)]

theorem portWrite_frame (s : State) (a : Nat) (v : Word) : portWrite s a v =
    { s with mgt := (portWrite s a v).mgt, hif := (portWrite s a v).hif, evt := (portWrite s a v).evt, sent := (portWrite s a v).sent } := by
  unfold portWrite
  split
  · exact (portErr_portOnly s _).frame
  · split
    · exact (portErr_portOnly s _).frame
    · split
      · rfl
      · split
        · rfl
        · split
          · rfl
          · split
            · rfl
            · exact (portErr_portOnly s _).frame

theorem armedFirst_bad {s : State} {a : Nat} {r : ArmedReg} {v : Word} (hr : armedReg a = some r) (hv : bits v 31 16 + bits v 15 0 ≠ 0xFFFF) :
    armedFirst s a v = portErr (modMgt s (fun m => { m with mode := .armedDone })) .arm := by
  have hc : armedCheck v = false := by simp [armedCheck, hv]
  unfold armedFirst
  rw [hr]
  exact if_neg (by rw [hc]; exact Bool.false_ne_true)

theorem armedFirst_feed {s : State} {a c : Nat} {v : Word} (hr : armedReg a = some (.feedCtl c)) (hv : bits v 31 16 + bits v 15 0 = 0xFFFF) :
    armedFirst s a v = bmcOffOp (modMgt s (fun m => { m with mode := .armedDone })) c (bitOf v 1) := by
  have hc : armedCheck v = true := by simp [armedCheck, hv]
  unfold armedFirst
  rw [hr]
  exact if_pos hc

theorem armedReg_feed {a c : Nat} (h : armedReg a = some (.feedCtl c)) : c < 24 := by
  unfold armedReg at h
  split at h
  · exact absurd h nofun
  · split at h
    · exact absurd h nofun
    · split at h
      · exact absurd h nofun
      · split at h
        next hc =>
          have : (a - 0x0400C5) / 0x4000 = c := by simpa using h
          omega
        next => exact absurd h nofun

/-! ### Data words -/

/-- The word counted. -/
def wordCounted (s : State) : State := modMgt s (fun m => { m with words := m.words + 1 })

theorem wordCounted_frame (s : State) : PortOnly s (wordCounted s) := modMgt_portOnly s _

section
variable {s : State} {v : Word} (hon : s.pwr.state ≠ .off) (hsel : s.mgt.selected = true)
include hon hsel

/-- A data word acts by the mode of its select period. -/
theorem dataWord_modes :
    (∀ a, s.mgt.mode = .reading a → dataWordOp s v =
      modMgt (portRead (emitOut (wordCounted s) (.miso s.mgt.capture)) a) (fun m => { m with mode := .reading (a + 1) })) ∧
    (∀ a, s.mgt.mode = .writing a → dataWordOp s v = modMgt (portWrite (wordCounted s) a v) (fun m => { m with mode := .writing (a + 1) })) ∧
    (∀ a, s.mgt.mode = .armedFirst a → dataWordOp s v = armedFirst (wordCounted s) a v) ∧
    (s.mgt.mode = .armedDone → dataWordOp s v = portErr (wordCounted s) .arm) ∧
    (s.mgt.mode = .ignore → dataWordOp s v = wordCounted s) := by
  have hgo : ¬ (!portLive s || !s.mgt.selected) = true := by rw [portLive_of_on hon, hsel]; exact Bool.false_ne_true
  refine ⟨fun a h => ?_, fun a h => ?_, fun a h => ?_, fun h => ?_, fun h => ?_⟩ <;>
    simp only [dataWordOp, if_neg hgo, h, wordCounted]

theorem readWord_follows {a : Nat} (hm : s.mgt.mode = .reading a) : ∃ t, exec (.ahnairDataWord v) s = .next t ∧
      t = { s with mgt := t.mgt, hif := t.hif, time := t.time, evt := t.evt, sent := t.sent } ∧ t.mgt.mode = .reading (a + 1) ∧
      t.mgt.words = s.mgt.words + 1 ∧ Out.miso s.mgt.capture ∈ t.sent ∧
      (0x0FFFFF < a → t.mgt.capture = 0 ∧ t.mgt.addrErr = true) := by
  have hread := portRead_readKept (emitOut (wordCounted s) (.miso s.mgt.capture)) a
  have hout : ReadFrame s (emitOut (wordCounted s) (.miso s.mgt.capture)) := rfl
  refine ⟨_, congrArg Host.Outcome.next ((dataWord_modes hon hsel).1 a hm), (hout.trans hread.frame).trans rfl, rfl, hread.words, ?_, fun h => portRead_past h⟩
  exact hread.sent.subset (List.mem_cons_self)

theorem writeWord_follows {a : Nat} (hm : s.mgt.mode = .writing a) : ∃ t, exec (.ahnairDataWord v) s = .next t ∧
      t = { s with mgt := t.mgt, hif := t.hif, evt := t.evt, sent := t.sent } ∧ t.mgt.mode = .writing (a + 1) ∧
      (∀ i, i < 3 → a = 0x34004 + i → vget t.evt.intEn i 0 = v ∧ t.mgt.errs = s.mgt.errs) ∧
      (∀ i, i < 3 → a = 0x34008 + i → vget t.evt.intPend i 0 = vget s.evt.intPend i 0 &&& ~~~v) ∧
      (a < 0x34000 → (armedReg a).isSome = false → t.mgt.wrDenied = true ∧ t.evt.intEn = s.evt.intEn) ∧
      ((armedReg a).isSome = true → t.mgt.armErr = true) := by
  refine ⟨_, congrArg Host.Outcome.next ((dataWord_modes hon hsel).2.1 a hm), ?_, rfl, fun i hi ha => ?_, fun i hi ha => ?_, fun ha harm => ?_, fun harm => ?_⟩
  · rw [portWrite_frame]
    rfl
  · have hin : 0x34004 ≤ a ∧ a ≤ 0x34006 := by omega
    have hi' : a - 0x34004 = i := by omega
    rw [portWrite_management (by omega) (by omega), if_pos hin, hi']
    exact ⟨vget_vset_self _ _ _ _ hi, rfl⟩
  · have hout : ¬ (0x34004 ≤ a ∧ a ≤ 0x34006) := by omega
    have hin : 0x34008 ≤ a ∧ a ≤ 0x3400A := by omega
    have hi' : a - 0x34008 = i := by omega
    rw [portWrite_management (by omega) (by omega), if_neg hout, if_pos hin, hi']
    exact vget_vset_self _ _ _ _ hi
  · rw [portWrite_elsewhere ha harm]
    refine ⟨?_, portErr_intEn _ _⟩
    rw [modMgt_mgt, portErr_mgt]
    rfl
  · rw [portWrite_armed harm]
    exact portErr_armErr _

theorem armedWord_follows {a : Nat} {r : ArmedReg} (hm : s.mgt.mode = .armedFirst a) (hr : armedReg a = some r)
    (hv : bits v 31 16 + bits v 15 0 ≠ 0xFFFF) : ∃ t, exec (.ahnairDataWord v) s = .next t ∧
      t = { s with mgt := t.mgt, hif := t.hif, evt := t.evt, sent := t.sent } ∧ t.mgt.armErr = true ∧ t.mgt.mode = .armedDone := by
  refine ⟨_, congrArg Host.Outcome.next (((dataWord_modes hon hsel).2.2.1 a hm).trans (armedFirst_bad hr hv)), ?_, portErr_armErr _,
    (portErr_fields _ _).1⟩
  exact (((wordCounted_frame s).trans (modMgt_portOnly _ _)).trans (portErr_portOnly _ _)).frame

theorem feedWord_follows {a c : Nat} (hm : s.mgt.mode = .armedFirst a) (hr : armedReg a = some (.feedCtl c))
    (hv : bits v 31 16 + bits v 15 0 = 0xFFFF) (hp : present s c = true) :
    ∃ t, exec (.ahnairDataWord v) s = .next t ∧ (chanAt t c).feed.bmcOff = bitOf v 1 ∧ t.rings = s.rings := by
  have hc := armedReg_feed hr
  obtain ⟨t, ht, -, hoff, -⟩ := bmcOff_spec (modMgt (wordCounted s) (fun m => { m with mode := .armedDone })) ⟨c, hc⟩ hp (bitOf v 1) hon
  refine ⟨_, congrArg Host.Outcome.next (((dataWord_modes hon hsel).2.2.1 a hm).trans (armedFirst_feed hr hv)), ?_, ?_⟩
  · have he : bmcOffOp (modMgt (wordCounted s) (fun m => { m with mode := .armedDone })) c (bitOf v 1) = t := Host.Outcome.next.inj ht
    rw [he]
    exact hoff
  · rw [bmcOffOp_rings]
    rfl
end

/-- Settles O49: the select period's ends, the headers and the data words, each by the port's mode. -/
theorem managementPortFollowed : Obligations.ManagementPortFollowed := by
  refine ⟨fun s hon => ⟨fun sck high hsel hh => selectFall_begins hon sck hsel hh, fun sck high h => selectFall_ignored s sck h,
    fun n hsel => selectRise_follows hon hsel n, fun hsel hmode => ⟨headers_follow hon hsel hmode,
      fun a harm hreg => write_uses_arming hon hsel hmode harm hreg, fun a b harm hb => write_loses_arming hon hsel hmode harm hb,
      fun h hk => unknownOpcode_follows hon hsel hmode hk⟩⟩, fun s v hon hsel => ⟨fun a hm => readWord_follows hon hsel hm,
      fun a hm => writeWord_follows hon hsel hm, fun a r hm hr hv => armedWord_follows hon hsel hm hr hv,
      fun a c hm hr hv hp => feedWord_follows hon hsel hm hr hv hp, fun hm => ?_, fun hm => ?_⟩⟩
  · obtain ⟨-, -, -, -, hi⟩ := dataWord_modes (v := v) hon hsel
    exact congrArg Host.Outcome.next (hi hm)
  · obtain ⟨-, -, -, hd, -⟩ := dataWord_modes (v := v) hon hsel
    exact ⟨_, congrArg Host.Outcome.next (hd hm), portErr_armErr _, (portErr_fields _ _).1.trans hm⟩

end Sys2Proof.Machine

/-! # A rail that collapses with a powered island in a half that is off (O41)

`islandOff` recomputes CHLA and CHLB from the islands, so switching CHLA off on its rail's collapse turns a half that was off on again where one
of its islands was powered: the statement speaks of every state, and does not ask that a half with a powered island is on. -/

namespace Sys2Proof.Machine

open Sys2Proof

/-- POWERING_DOWN at its step 10, the channels' rail on, CHLA on and CHLB off, and the island of channel 13, in CHLB, powered all the same. -/
def strayIsland : State :=
  { State.reset with
    pwr := { State.reset.pwr with state := .poweringDown, downStep := 10, enCh := true, domChla := true, domChlb := false, collapsed := [] }
    chans := vset State.reset.chans 13 { Chan.reset true with tab := { (Chan.reset true).tab with island := true } } }

@[simp] theorem supplyNow_pwr (s : State) (kind input detail : Nat) : (supplyNow s kind input detail).pwr = s.pwr := by
  unfold supplyNow supplyLog logEntry
  dsimp only
  split
  · rw [raiseC_pwr]; rfl
  · rfl

/-- Step 10 gives way to step 11, which changes no domain. -/
theorem powerDownNext_of_ten {s : State} (h : s.pwr.downStep = 10) : (powerDownNext s).pwr.domChlb = s.pwr.domChlb := by
  rw [powerDownNext, h]
  rfl

/-- What a collapse leaves of CHLB at step 10. -/
theorem railCollapse_chlb {s : State} {r : Rail}
    (h : s.pwr.state = .poweringDown ∧ s.pwr.downStep ≠ 0 ∧ railOn s.pwr r ∧ !s.pwr.collapsed.contains r)
    (h10 : ((railDomains r).foldl switchOff (modPwr s (fun p => { p with collapsed := r :: p.collapsed }))).pwr.downStep = 10) :
    (railCollapseOp s r).pwr.domChlb =
      ((railDomains r).foldl switchOff (modPwr s (fun p => { p with collapsed := r :: p.collapsed }))).pwr.domChlb := by
  rw [railCollapseOp, if_pos h, powerDownNext_of_ten, raise_pwr, supplyNow_pwr, drew_pwr]
  rw [raise_pwr, supplyNow_pwr, drew_pwr, h10]

/-- The collapse of the channels' rail turns CHLB on. -/
theorem railCollapse_strayIsland : (railCollapseOp strayIsland .ch).pwr.domChlb = true := by
  rw [railCollapse_chlb (by decide +kernel) (by decide +kernel)]
  decide +kernel

/-- Refutes O41: in a state whose CHLB is off with one of its islands powered, the collapse of the channels' rail leaves CHLB on. -/
theorem not_powerSequencesInOrder : ¬ Obligations.PowerSequencesInOrder := by
  rintro ⟨down, -, -⟩
  obtain ⟨-, -, collapse, -⟩ := down strayIsland
  have hdown : strayIsland.pwr.state = .poweringDown ∧ strayIsland.pwr.downStep ≠ 0 ∧ railOn strayIsland.pwr .ch = true ∧
      strayIsland.pwr.collapsed.contains .ch = false := by decide +kernel
  obtain ⟨hstate, hstep, hrail, hnew⟩ := hdown
  obtain ⟨t, ht, -, hoff⟩ := collapse .ch hstate hstep hrail hnew
  have hchlb : t.pwr.domChlb = false := hoff .chlb List.mem_cons_self
  obtain rfl : railCollapseOp strayIsland .ch = t := Host.Outcome.next.inj ht
  exact absurd (hchlb.symm.trans railCollapse_strayIsland) nofun

end Sys2Proof.Machine

/-! # What the ledger's writes leave

A benchmark record or a header that is written, held or refused changes the ledger's lists of transfers, the benchmark marks of rings, and what an
occurrence and a latched fault change. -/

namespace Sys2Proof.Machine

open Sys2Proof

/-! ### Counters of rings -/

/-- A ring keeps its place in memory, its size, its lifetime and its counters. -/
def RingKept (g h : Ring) : Prop :=
  h.base = g.base ∧ h.log2 = g.log2 ∧ h.lifetime = g.lifetime ∧ h.tail = g.tail ∧ h.head = g.head ∧ h.acc = g.acc ∧ h.cpl = g.cpl ∧
    h.enable = g.enable

theorem mapRings_sameCounters (s : State) (f : Nat → Ring → Ring) (h : ∀ r g, RingKept g (f r g)) : SameCounters s (mapRings s f) := by
  intro r
  by_cases hr : r < 160
  · rw [ringAt_mapRings, if_pos hr]
    exact h r _
  · rw [ringAt_past hr, ringAt_past hr]
    exact ⟨rfl, rfl, rfl, rfl, rfl, rfl, rfl, rfl⟩

/-! ### Transfers of the ledger -/

/-- The ledger with other transfers under way, waiting and failed. -/
def Ledger.moved (l : Ledger) (m : Ledger) : Ledger :=
  { l with inFlight := m.inFlight, failed := m.failed, waiting := m.waiting, writeErr := m.writeErr, hdrGen := m.hdrGen }

/-- The host interface after an occurrence and a latched fault. -/
def Hif.faulted (h : Hif) (m : Hif) : Hif :=
  { h with funcs := m.funcs, faultValid := m.faultValid, faultKind := m.faultKind, faultRing := m.faultRing, faultFn := m.faultFn
           faultAddr := m.faultAddr }

/-- What a transfer of the ledger leaves. -/
structure LedgerActs (s t : State) : Prop where
  frame : t = { s with hif := s.hif.faulted t.hif, rings := t.rings, ledger := s.ledger.moved t.ledger,
                       sup := { s.sup with hostLost := t.sup.hostLost }, evt := t.evt, sent := t.sent }
  rings : ∀ r, ∃ gen due gate, ringAt t r = (ringAt s r).benched gen due gate

theorem benched_self (g : Ring) : g = g.benched g.gen g.bmDue g.bmGate := rfl

theorem LedgerActs.of_rings {s t : State} (h : t.rings = s.rings)
    (hf : t = { s with hif := s.hif.faulted t.hif, rings := t.rings, ledger := s.ledger.moved t.ledger,
                       sup := { s.sup with hostLost := t.sup.hostLost }, evt := t.evt, sent := t.sent }) : LedgerActs s t :=
  ⟨hf, fun r => ⟨_, _, _, (ringAt_congr h r).trans (benched_self _)⟩⟩

theorem LedgerActs.refl (s : State) : LedgerActs s s := .of_rings rfl rfl

theorem LedgerActs.trans {s t u : State} (h : LedgerActs s t) (h' : LedgerActs t u) : LedgerActs s u := by
  refine ⟨?_, fun r => ?_⟩
  · have e := h'.frame
    rw [h.frame] at e
    rw [e]
    rfl
  · obtain ⟨a, b, c, hr⟩ := h.rings r
    obtain ⟨a', b', c', hr'⟩ := h'.rings r
    rw [hr] at hr'
    exact ⟨a', b', c', hr'⟩

theorem LedgerActs.counters {s t : State} (h : LedgerActs s t) : SameCounters s t := by
  intro r
  obtain ⟨a, b, c, hr⟩ := h.rings r
  rw [hr]
  exact ⟨rfl, rfl, rfl, rfl, rfl, rfl, rfl, rfl⟩

/-- A ring keeps its accepted work. -/
theorem LedgerActs.work {s t : State} (h : LedgerActs s t) (r : Nat) : (ringAt t r).work = (ringAt s r).work := by
  obtain ⟨a, b, c, hr⟩ := h.rings r
  rw [hr]
  rfl

theorem EvtOnly.ledgerActs {s t : State} (h : EvtOnly s t) : LedgerActs s t := by
  refine .of_rings ?_ ?_
  · unfold EvtOnly at h
    rw [h]
  · unfold EvtOnly at h
    rw [h]
    rfl

theorem latchFault_ledgerActs (s : State) (kind ring fn addr : Nat) : LedgerActs s (latchFault s kind ring fn addr) := by
  unfold latchFault
  split
  · exact .refl s
  · exact .of_rings rfl rfl

theorem ledgerFault_ledgerActs (s : State) (x : LXfer) (isRead : Bool) : LedgerActs s (ledgerFault s x isRead) :=
  .trans (t := { s with
    ledger := { s.ledger with
      failed := if s.ledger.failed.contains x then s.ledger.failed else s.ledger.failed ++ [x]
      writeErr := s.ledger.writeErr || !isRead }
    sup := { s.sup with hostLost := s.sup.hostLost || s.sup.sealing } }) (.of_rings rfl rfl) (raise_evtOnly _ _ _ _).ledgerActs

theorem ledgerWait_ledgerActs (s : State) (x : LXfer) : LedgerActs s (ledgerWait s x) := by
  unfold ledgerWait
  split
  · exact .of_rings rfl rfl
  · split
    · exact .refl s
    · exact .of_rings rfl rfl

theorem ledgerWrite_ledgerActs (s : State) (x : LXfer) (off : Nat) (bytes : List Byte) : LedgerActs s (ledgerWrite s x off bytes) := by
  unfold ledgerWrite
  extract_lets a
  split
  · exact ledgerWait_ledgerActs s x
  · split
    · exact .refl s
    · split
      · exact .of_rings rfl rfl
      · exact ((latchFault_ledgerActs s _ _ _ _).trans (raise_evtOnly _ _ _ _).ledgerActs).trans (ledgerFault_ledgerActs _ _ _)

/-- A change of a ring's benchmark marks. -/
theorem benched_ledgerActs (s : State) (r : Nat) (gen : Ring → Word) (due gate : Ring → Bool) :
    LedgerActs s (setRing s r (fun g => g.benched (gen g) (due g) (gate g))) := by
  refine ⟨rfl, fun x => ?_⟩
  rw [ringAt_setRing]
  split
  next h => obtain ⟨rfl, _⟩ := h; exact ⟨_, _, _, rfl⟩
  next => exact ⟨_, _, _, benched_self _⟩

theorem writeBench_ledgerActs (s : State) (r : RingNo) : LedgerActs s (writeBench s r) := by
  unfold writeBench
  split
  · exact benched_ledgerActs s r.val (fun g => g.gen) (fun _ => false) (fun _ => false)
  · split
    · exact (benched_ledgerActs s r.val (fun g => g.gen) (fun _ => true) (fun g => g.bmGate)).trans (ledgerWait_ledgerActs _ _)
    · exact (benched_ledgerActs s r.val (fun g => g.gen + 1) (fun _ => false) (fun _ => false)).trans (ledgerWrite_ledgerActs _ _ _ _)

theorem writeHdr_ledgerActs (s : State) (copyB : Bool) : LedgerActs s (writeHdr s copyB) := by
  unfold writeHdr
  extract_lets x
  split
  · exact ledgerWait_ledgerActs s x
  · exact .trans (t := { s with ledger := { s.ledger with hdrGen := s.ledger.hdrGen + 1 } }) (.of_rings rfl rfl) (ledgerWrite_ledgerActs _ _ _ _)

theorem makeWaiting_ledgerActs (s : State) (x : LXfer) : LedgerActs s (makeWaiting s x) := by
  cases x with
  | bench r => exact writeBench_ledgerActs s r
  | hdrA => exact writeHdr_ledgerActs s false
  | hdrB => exact writeHdr_ledgerActs s true
  | spill => exact ledgerWrite_ledgerActs s _ _ _
  | adoptRead => exact ledgerWait_ledgerActs s _

theorem foldl_ledgerActs {α : Type} (f : State → α → State) (h : ∀ s a, LedgerActs s (f s a)) (l : List α) (s : State) :
    LedgerActs s (l.foldl f s) := by
  induction l generalizing s with
  | nil => exact .refl s
  | cons a l ih => exact (h s a).trans (ih (f s a))

theorem flushWaiting_ledgerActs (s : State) : LedgerActs s (flushWaiting s) := by
  unfold flushWaiting
  split
  · exact .trans (t := { s with ledger := { s.ledger with waiting := [] } }) (.of_rings rfl rfl) (foldl_ledgerActs _ makeWaiting_ledgerActs _ _)
  · exact .refl s

end Sys2Proof.Machine

/-! # The link's bring-up and the PF's FLR (O10) -/

namespace Sys2Proof.Machine

open Sys2Proof

/-! ### A change of the power state -/

/-- A change of the power state is an occurrence, and takes the processors out of their halt. -/
theorem setPwr_frame (s : State) (st : PwrSt) : setPwr s st =
    { s with hif := { s.hif with funcs := (setPwr s st).hif.funcs }, pwr := { s.pwr with state := st }, fw := (setPwr s st).fw,
             evt := (setPwr s st).evt, sent := (setPwr s st).sent } := by
  have changed : ∀ w : Fw, raise { s with pwr := { s.pwr with state := st }, fw := w } Src.powerState 0xFF 0 =
      { s with hif := { s.hif with funcs := (raise { s with pwr := { s.pwr with state := st }, fw := w } Src.powerState 0xFF 0).hif.funcs }
               pwr := { s.pwr with state := st }
               fw := (raise { s with pwr := { s.pwr with state := st }, fw := w } Src.powerState 0xFF 0).fw
               evt := (raise { s with pwr := { s.pwr with state := st }, fw := w } Src.powerState 0xFF 0).evt
               sent := (raise { s with pwr := { s.pwr with state := st }, fw := w } Src.powerState 0xFF 0).sent } := by
    intro w
    have e := raise_evtOnly { s with pwr := { s.pwr with state := st }, fw := w } Src.powerState 0xFF 0
    unfold EvtOnly at e
    rw [e]
  unfold setPwr
  split
  next h => rw [← h]
  next => exact changed _

theorem setPwr_pwr (s : State) (st : PwrSt) : (setPwr s st).pwr = { s.pwr with state := st } := by
  rw [setPwr_frame]

theorem setPwr_kept (s : State) (st : PwrSt) : (setPwr s st).hif.perst = s.hif.perst ∧ (setPwr s st).hif.pcieWake = s.hif.pcieWake ∧
    (setPwr s st).rings = s.rings ∧ (setPwr s st).chans = s.chans := by
  rw [setPwr_frame]
  exact ⟨rfl, rfl, rfl, rfl⟩

/-! ### PERST# deasserted -/

theorem resumeService_hif (s : State) (lossy : Bool) : (resumeService s lossy).hif = { s.hif with fetchStop := false } :=
  startRecovery_hif _ _ _ _ _ _ _

/-- An entry that is abandoned leaves PERST# and WAKE#. -/
theorem abandonEntry_perst (s : State) :
    (abandonEntry s).hif.perst = s.hif.perst ∧ (abandonEntry s).hif.pcieWake = s.hif.pcieWake := by
  unfold abandonEntry
  split
  · obtain ⟨hp, hw, -, -⟩ := setPwr_kept { s with pwr := { s.pwr with refused := true, why := 3, entryReq := none } } .run
    dsimp only
    split
    · exact ⟨hp, hw⟩
    · rw [resumeService_hif]
      exact ⟨hp, hw⟩
  · exact ⟨rfl, rfl⟩

theorem leaveSleep_perst (s : State) : (leaveSleep s).hif.perst = s.hif.perst ∧ (leaveSleep s).hif.pcieWake = s.hif.pcieWake := by
  unfold leaveSleep
  obtain ⟨hp, hw, -, -⟩ := setPwr_kept s .run
  by_cases h : s.pwr.state = .sleep
  · rw [if_pos h]
    exact ⟨hp, hw⟩
  · rw [if_neg h]
    exact ⟨rfl, rfl⟩

/-- PERST# is a wake source that asserts no WAKE#. -/
theorem wakeSource_perst (s : State) : (wakeSource s 2).hif.perst = s.hif.perst ∧ (wakeSource s 2).hif.pcieWake = s.hif.pcieWake := by
  unfold wakeSource
  cases s.pwr.state with
  | deep =>
    obtain ⟨hp, hw, -, -⟩ := setPwr_kept (modPwr s (fun p => { p with wakeCause := BitVec.ofNat 3 2, upStep := 1, step := 0, retryWait := false })) .waking
    exact ⟨hp, hw⟩
  | entering => exact abandonEntry_perst s
  | sleep => exact leaveSleep_perst s
  | run => exact ⟨rfl, rfl⟩
  | idle => exact ⟨rfl, rfl⟩
  | poweringDown => exact ⟨rfl, rfl⟩
  | waking => exact ⟨rfl, rfl⟩
  | off => exact ⟨rfl, rfl⟩

/-- In DEEP the power-up begins. -/
theorem wakeSource_deep {s : State} (h : s.pwr.state = .deep) : wakeSource s 2 =
    setPwr (modPwr s (fun p => { p with wakeCause := 2, upStep := 1, step := 0, retryWait := false })) .waking := by
  unfold wakeSource
  rw [h]
  rfl

theorem wakeSource_none {s : State} (h : s.pwr.state = .run ∨ s.pwr.state = .off) : wakeSource s 2 = s := by
  unfold wakeSource
  rcases h with h | h <;> rw [h]

/-- PERST# released. -/
def perstReleased (s : State) : State := modHif s (fun h => { h with perst := false, pcieWake := false })

theorem perstDeassert_follows (s : State) : ∃ t, exec .perstDeassert s = .next t ∧ t.hif.perst = false ∧
      (s.hif.perst = true → t.hif.pcieWake = false) ∧
      (s.hif.perst = true → s.pwr.state = .deep →
        t.pwr.state = .waking ∧ t.pwr.wakeCause = 2 ∧ t.pwr.upStep = 1 ∧ t.rings = s.rings ∧ t.chans = s.chans) ∧
      (s.hif.perst = true → (s.pwr.state = .run ∨ s.pwr.state = .off) →
        t = { s with hif := { s.hif with perst := false, pcieWake := false } }) := by
  cases hp : s.hif.perst with
  | false => exact ⟨s, congrArg Host.Outcome.next (if_neg (by rw [hp]; exact Bool.false_ne_true)), hp, nofun, nofun, nofun⟩
  | true =>
    obtain ⟨h1, h2⟩ := wakeSource_perst (perstReleased s)
    refine ⟨wakeSource (perstReleased s) 2, congrArg Host.Outcome.next (if_pos hp), h1, fun _ => h2, fun _ hd => ?_, fun _ hr => wakeSource_none hr⟩
    rw [wakeSource_deep (s := perstReleased s) hd]
    obtain ⟨-, -, hrings, hchans⟩ :=
      setPwr_kept (modPwr (perstReleased s) (fun p => { p with wakeCause := 2, upStep := 1, step := 0, retryWait := false })) .waking
    rw [setPwr_pwr]
    exact ⟨rfl, rfl, rfl, hrings, hchans⟩

/-! ### The link comes up -/

theorem resumeService_sameCounters (s : State) (lossy : Bool) : SameCounters s (resumeService s lossy) := by
  unfold resumeService
  refine .trans ?_ (startRecovery_sameCounters _ _ _ _ _ _ _)
  exact sameCounters_of_rings rfl

theorem resumeService_chans (s : State) (lossy : Bool) : (resumeService s lossy).chans = s.chans := startRecovery_chans _ _ _ _ _ _ _

/-- A resumption keeps the link, the channels and the rings' counters. -/
theorem tryResume_keeps (s : State) : (tryResume s).hif.linkUp = s.hif.linkUp ∧ (tryResume s).hif.width = s.hif.width ∧
    (tryResume s).hif.speed = s.hif.speed ∧ (tryResume s).chans = s.chans ∧ SameCounters s (tryResume s) := by
  unfold tryResume
  split
  · rw [resumeService_hif]
    exact ⟨rfl, rfl, rfl, resumeService_chans s true, resumeService_sameCounters s true⟩
  · exact ⟨rfl, rfl, rfl, rfl, .refl s⟩

/-- The link trained, with the DEVICE reset over. -/
def linkTrained (s : State) (width speed : BitVec 4) : State :=
  modGlb (modHif s (fun h => { h with linkUp := true, width := width, speed := speed, l2 := false })) (fun g => { g with inReset := false })

theorem linkUp_follows (s : State) (width speed : BitVec 4) : ∃ u, exec (.linkUp width speed) s = .next u ∧
      (s.hif.perst = true ∨ s.pwr.domHif = false ∨ s.pwr.testEn = true ∨ s.hif.linkUp = true ∨ linkFits width speed = false → u = s) ∧
      (s.hif.perst = false → s.pwr.domHif = true → s.pwr.testEn = false → s.hif.linkUp = false → linkFits width speed = true →
        u.hif.linkUp = true ∧ u.hif.width = width ∧ u.hif.speed = speed ∧ u.chans = s.chans ∧ SameCounters s u) := by
  refine ⟨_, rfl, fun hno => if_pos ?_, fun h1 h2 h3 h4 h5 => ?_⟩
  · rcases hno with h | h | h | h | h <;> rw [h] <;> simp
  · rw [if_neg (by rw [h1, h2, h3, h4, h5]; exact Bool.false_ne_true)]
    show (tryResume (flushWaiting (linkTrained s width speed))).hif.linkUp = true ∧ _
    have acts := flushWaiting_ledgerActs (linkTrained s width speed)
    obtain ⟨hl, hw, hs, hc, hk⟩ := tryResume_keeps (flushWaiting (linkTrained s width speed))
    have trained : SameCounters s (linkTrained s width speed) := sameCounters_of_rings rfl
    have hframe := acts.frame
    refine ⟨hl.trans ?_, hw.trans ?_, hs.trans ?_, hc.trans ?_, (trained.trans acts.counters).trans hk⟩ <;> rw [hframe] <;> rfl

/-! ### The FLR of the PF -/

/-- A ring under other VF Enable and NumVFs: of another owner it takes the owner's default vector. -/
def vfRing (s : State) (enable : Bool) (numVfs : Half) (r : Nat) (g : Ring) : Ring :=
  if ringOwner s r = ringOwner { s with hif := { s.hif with vfEnable := enable, numVfs := numVfs } } r then g
  else { g with vector := defaultVector r (ringOwner { s with hif := { s.hif with vfEnable := enable, numVfs := numVfs } } r != 0) }

theorem setVfs_rings (s : State) (enable : Bool) (numVfs : Half) : (setVfs s enable numVfs).rings = (mapRings s (vfRing s enable numVfs)).rings := rfl

theorem setVfs_sameCounters (s : State) (enable : Bool) (numVfs : Half) : SameCounters s (setVfs s enable numVfs) := by
  refine (mapRings_sameCounters s (vfRing s enable numVfs) fun r g => ?_).trans (sameCounters_of_rings (setVfs_rings s enable numVfs))
  unfold vfRing
  split <;> exact ⟨rfl, rfl, rfl, rfl, rfl, rfl, rfl, rfl⟩

/-- The frame of a function's reset: the host interface, the rings and the recoveries. -/
def FlrFrame (s t : State) : Prop := t = { s with hif := t.hif, rings := t.rings, recov := t.recov }

theorem FlrFrame.trans {s t u : State} (h : FlrFrame s t) (h' : FlrFrame t u) : FlrFrame s u := by
  unfold FlrFrame at h h' ⊢
  rw [h', h]

theorem returnWith_flrFrame (s : State) (r : Nat) (q : Word) (o : Outcome) : FlrFrame s (returnWith s r q o) := by
  unfold FlrFrame
  rw [returnWith_frame]

/-- What the return of cut work leaves. -/
structure Returns (s t : State) : Prop where
  frame : FlrFrame s t
  hif : t.hif = s.hif
  recov : t.recov = s.recov
  counters : SameCounters s t

theorem Returns.refl (s : State) : Returns s s := ⟨rfl, rfl, rfl, .refl s⟩

theorem Returns.trans {s t u : State} (h : Returns s t) (h' : Returns t u) : Returns s u :=
  ⟨h.frame.trans h'.frame, h'.hif.trans h.hif, h'.recov.trans h.recov, h.counters.trans h'.counters⟩

theorem foldl_returns {α : Type} (f : State → α → State) (h : ∀ s a, Returns s (f s a)) (l : List α) (s : State) : Returns s (l.foldl f s) := by
  induction l generalizing s with
  | nil => exact .refl s
  | cons a l ih => exact (h s a).trans (ih (f s a))

theorem returnWork_returns (s : State) (r : Nat) (q : Word) (st : Status) : Returns s (returnWork s r q st) :=
  ⟨returnWith_flrFrame s r q _, returnWork_hif s r q st, returnWork_recov s r q st, returnWith_sameCounters s r q _⟩

theorem returnReset_returns (s : State) (r : RingNo) : Returns s (returnReset s r) := by
  unfold returnReset
  split
  · exact .refl s
  · exact foldl_returns (fun t (w : Work) => returnWork t r.val w.seq .retReset) (fun t w => returnWork_returns t r.val w.seq _) _ s

/-- The configuration space of the PF, with no VF. -/
def pfConfigReset (s : State) : State := setFunc (setVfs s false 0) 0 (fun _ => Func.reset 64)

/-- The work that the CHANNEL resets in progress cut, returned. -/
def channelsReturned (s : State) : State := (s.recov.filter openChannel).foldl (fun t v => v.scope.foldl returnReset t) s

theorem channelsReturned_returns (s : State) : Returns s (channelsReturned s) :=
  foldl_returns (fun t (v : Recovery) => v.scope.foldl returnReset t) (fun t v => foldl_returns returnReset returnReset_returns v.scope t) _ s

/-- The CHANNEL resets in progress taken in: their work is returned, and they end. -/
def channelsAbsorbed (s : State) : State :=
  { channelsReturned s with recov := (channelsReturned s).recov.filter (fun v => !openChannel v) }

theorem recov_keeps (s : State) (l : List Recovery) : FlrFrame s { s with recov := l } ∧ SameCounters s { s with recov := l } :=
  ⟨rfl, sameCounters_of_rings rfl⟩

theorem channelsAbsorbed_keeps (s : State) : FlrFrame s (channelsAbsorbed s) ∧ (channelsAbsorbed s).hif = s.hif ∧
    (channelsAbsorbed s).recov = s.recov.filter (fun v => !openChannel v) ∧ SameCounters s (channelsAbsorbed s) := by
  have h := channelsReturned_returns s
  obtain ⟨hf, hk⟩ := recov_keeps (channelsReturned s) ((channelsReturned s).recov.filter (fun v => !openChannel v))
  exact ⟨h.frame.trans hf, h.hif, congrArg (List.filter fun v => !openChannel v) h.recov, h.counters.trans hk⟩

/-- The recovery of a function's reset, whose commands and refreshes are those of the resets it takes in. -/
def flrRecovery (s : State) (old : List Recovery) : State :=
  startRecovery s (allRings.filter (fun r => (ringAt s r.val).enable)) 0x02 0xFF false (old.flatMap (fun v => v.cmds)) (old.flatMap (fun v => v.refresh))

theorem pfFlrOp_eq (s : State) : pfFlrOp s =
    if s.recov.any (fun v => !v.settled && (v.cause == 0x01 || v.cause == 0x02)) then pfConfigReset s
    else flrRecovery (channelsAbsorbed (pfConfigReset s)) ((pfConfigReset s).recov.filter openChannel) := rfl

theorem mem_allRings (r : RingNo) : r ∈ allRings :=
  List.mem_finRange r

theorem setVfs_flrFrame (s : State) (enable : Bool) (numVfs : Half) : FlrFrame s (setVfs s enable numVfs) := by
  unfold FlrFrame setVfs
  apply State.eq_of_parts <;> simp

/-- Without VFs every ring is the PF's. -/
theorem ringOwner_of_no_vf {s : State} (h : s.hif.vfEnable = false) (r : Nat) : ringOwner s r = 0 := by
  unfold ringOwner vfOn
  rw [h]
  split
  · rfl
  · rfl

theorem setVfs_hif (s : State) (enable : Bool) (numVfs : Half) : (setVfs s enable numVfs).hif.vfEnable = enable ∧
    (setVfs s enable numVfs).hif.numVfs = numVfs ∧ (setVfs s enable numVfs).hif.windows = s.hif.windows := by
  unfold setVfs
  exact ⟨rfl, rfl, rfl⟩

theorem setFunc_keeps (s : State) (f : Nat) (g : Func → Func) : FlrFrame s (setFunc s f g) ∧
    (setFunc s f g).hif.vfEnable = s.hif.vfEnable ∧ (setFunc s f g).hif.numVfs = s.hif.numVfs ∧ (setFunc s f g).hif.windows = s.hif.windows :=
  ⟨rfl, rfl, rfl, rfl⟩

theorem vget_setFunc_self (s : State) {f : Nat} (hf : f < 25) (g : Func → Func) :
    vget (setFunc s f g).hif.funcs f (Func.reset 0) = g (vget s.hif.funcs f (Func.reset 0)) := vget_vset_self _ _ _ _ hf

theorem pfConfigReset_keeps (s : State) : FlrFrame s (pfConfigReset s) ∧ (pfConfigReset s).hif.vfEnable = false ∧
    (pfConfigReset s).hif.numVfs = 0 ∧ vget (pfConfigReset s).hif.funcs 0 (Func.reset 0) = Func.reset 64 ∧
    (pfConfigReset s).hif.windows = s.hif.windows ∧ (pfConfigReset s).recov = s.recov ∧ SameCounters s (pfConfigReset s) := by
  have hset := setVfs_flrFrame s false 0
  obtain ⟨hv, hn, hw⟩ := setVfs_hif s false 0
  have hrec : (setVfs s false 0).recov = s.recov := by simp [setVfs]
  have hcount := setVfs_sameCounters s false 0
  unfold pfConfigReset
  generalize setVfs s false 0 = u at hset hv hn hw hrec hcount
  obtain ⟨hf, hv', hn', hw'⟩ := setFunc_keeps u 0 (fun _ => Func.reset 64)
  exact ⟨hset.trans hf, hv'.trans hv, hn'.trans hn, vget_setFunc_self u (by decide) _, hw'.trans hw, (setFunc_recov _ _ _).trans hrec,
    hcount.trans (sameCounters_of_rings (setFunc_rings _ _ _))⟩

theorem flrRecovery_flrFrame (s : State) (old : List Recovery) : FlrFrame s (flrRecovery s old) := by
  unfold FlrFrame flrRecovery
  apply State.eq_of_parts <;> simp

/-- A broader reset in progress is one whose recovery, of cause 0x01 or 0x02, is not settled. -/
theorem broader_iff (l : List Recovery) : l.any (fun v => !v.settled && (v.cause == 0x01 || v.cause == 0x02)) = true ↔
    ∃ v, v ∈ l ∧ v.settled = false ∧ (v.cause = 1 ∨ v.cause = 2) := by
  simp only [List.any_eq_true, Bool.and_eq_true, Bool.not_eq_true', Bool.or_eq_true, beq_iff_eq]

theorem mem_enabled_scope (s : State) (r : RingNo) :
    r ∈ allRings.filter (fun r => (ringAt s r.val).enable) ↔ (ringAt s r.val).enable = true := by
  rw [List.mem_filter]
  exact ⟨fun h => h.2, fun h => ⟨mem_allRings r, h⟩⟩

theorem pfFlrOp_keeps (s : State) : FlrFrame s (pfFlrOp s) ∧ SameCounters s (pfFlrOp s) ∧ (pfFlrOp s).hif = (pfConfigReset s).hif := by
  obtain ⟨hframe, -, -, -, -, -, hcount⟩ := pfConfigReset_keeps s
  rw [pfFlrOp_eq]
  split
  · exact ⟨hframe, hcount, rfl⟩
  · obtain ⟨habs, hhif, -, habsc⟩ := channelsAbsorbed_keeps (pfConfigReset s)
    refine ⟨(hframe.trans habs).trans (flrRecovery_flrFrame _ _), (hcount.trans habsc).trans (startRecovery_sameCounters _ _ _ _ _ _ _), ?_⟩
    exact (startRecovery_hif _ _ _ _ _ _ _).trans hhif

/-- With no broader reset in progress the FLR begins its recovery, and takes in the CHANNEL resets. -/
theorem pfFlrOp_recov {s : State} (h : ∀ v, v ∈ s.recov → v.settled = false → v.cause ≠ 1 ∧ v.cause ≠ 2) :
    (∃ v, v ∈ (pfFlrOp s).recov ∧ v.cause = 2 ∧ ∀ r : RingNo, r ∈ v.scope ↔ (ringAt s r.val).enable = true) ∧
      ∀ v, v ∈ (pfFlrOp s).recov → openChannel v = false := by
  have hno : ¬ s.recov.any (fun v => !v.settled && (v.cause == 0x01 || v.cause == 0x02)) = true := by
    rw [broader_iff]
    rintro ⟨v, hv, hs, hc⟩
    exact hc.elim (h v hv hs).1 (h v hv hs).2
  obtain ⟨-, -, -, -, -, -, hcount⟩ := pfConfigReset_keeps s
  obtain ⟨-, -, hrec, habsc⟩ := channelsAbsorbed_keeps (pfConfigReset s)
  rw [pfFlrOp_eq, if_neg hno, flrRecovery, startRecovery_recov, hrec]
  refine ⟨⟨_, List.mem_append_right _ (List.mem_singleton_self _), rfl, fun r => ?_⟩, fun v hv => ?_⟩
  · obtain ⟨-, -, -, -, -, -, -, hen⟩ := (hcount.trans habsc) r.val
    rw [mem_enabled_scope, hen]
  · rcases List.mem_append.1 hv with hv | hv
    · simpa using (List.mem_filter.1 hv).2
    · rw [List.mem_singleton.1 hv]
      rfl

/-- Settles O10: PERST#, the link's training and the FLR of the PF. -/
theorem linkBringUpAndPfFlr : Obligations.LinkBringUpAndPfFlr := by
  refine ⟨fun s width speed => ⟨perstDeassert_follows s, linkUp_follows s width speed⟩, fun s => ?_⟩
  cases hserved : configServed s with
  | false =>
    exact ⟨s, congrArg Host.Outcome.next (if_neg (by rw [hserved]; exact Bool.false_ne_true)), .refl s, rfl, fun _ => rfl, nofun⟩
  | true =>
    obtain ⟨hframe, hcount, hhif⟩ := pfFlrOp_keeps s
    obtain ⟨-, hvf, hnum, hfunc, hwin, hrec, -⟩ := pfConfigReset_keeps s
    refine ⟨pfFlrOp s, congrArg Host.Outcome.next (if_pos hserved), hcount, hframe, nofun, fun _ => ?_⟩
    rw [hhif]
    refine ⟨hvf, hnum, ringOwner_of_no_vf (by rw [hhif]; exact hvf), hfunc, hwin, fun hbroad => ?_, pfFlrOp_recov⟩
    rw [pfFlrOp_eq, if_pos ((broader_iff _).2 hbroad)]
    exact hrec

end Sys2Proof.Machine

/-! # DEVICE resets, POWER-ON and TEST_EN (O9) -/

namespace Sys2Proof.Machine

open Sys2Proof

/-! ### Occurrences leave the functions' enables and tables -/

/-- Every function keeps its enables and its MSI-X table. -/
def FuncsKept (s t : State) : Prop := ∀ f, (vget t.hif.funcs f (Func.reset 0)).bme = (vget s.hif.funcs f (Func.reset 0)).bme ∧
  (vget t.hif.funcs f (Func.reset 0)).mse = (vget s.hif.funcs f (Func.reset 0)).mse ∧
  (vget t.hif.funcs f (Func.reset 0)).table = (vget s.hif.funcs f (Func.reset 0)).table

theorem FuncsKept.refl (s : State) : FuncsKept s s := fun _ => ⟨rfl, rfl, rfl⟩

theorem FuncsKept.trans {s t u : State} (h : FuncsKept s t) (h' : FuncsKept t u) : FuncsKept s u := fun f =>
  ⟨(h' f).1.trans (h f).1, (h' f).2.1.trans (h f).2.1, (h' f).2.2.trans (h f).2.2⟩

theorem funcsKept_of_funcs {s t : State} (h : t.hif.funcs = s.hif.funcs) : FuncsKept s t := fun f => by
  rw [h]
  exact ⟨rfl, rfl, rfl⟩

theorem sendMsix_funcsKept (s : State) (fv : Nat × Nat) : FuncsKept s (sendMsix s fv) := by
  intro f
  unfold sendMsix
  dsimp only
  split
  · exact ⟨rfl, rfl, rfl⟩
  · split
    · dsimp only
      rw [vget_vset]
      split
      next h => obtain ⟨rfl, _⟩ := h; exact ⟨rfl, rfl, rfl⟩
      next => exact ⟨rfl, rfl, rfl⟩
    · exact ⟨rfl, rfl, rfl⟩

theorem foldl_funcsKept {α : Type} (f : State → α → State) (h : ∀ s a, FuncsKept s (f s a)) (l : List α) (s : State) :
    FuncsKept s (l.foldl f s) := by
  induction l generalizing s with
  | nil => exact .refl s
  | cons a l ih => exact (h s a).trans (ih (f s a))

theorem raiseFuel_funcsKept (n : Nat) (s : State) (src scope : Nat) (info1 : Word) (inc : Nat) :
    FuncsKept s (raiseFuel n s src scope info1 inc) := by
  induction n generalizing s src scope info1 inc with
  | zero => exact .refl s
  | succ n ih =>
    have messages (e : Evt) (l : List (Nat × Nat)) : FuncsKept s (sendAll { s with evt := e } l) :=
      (funcsKept_of_funcs (t := { s with evt := e }) rfl).trans (foldl_funcsKept sendMsix sendMsix_funcsKept l _)
    unfold raiseFuel
    dsimp only
    refine FuncsKept.trans ?_ (foldl_funcsKept _ (fun t w => ih t _ _ _ _) _ _)
    split
    · exact (messages _ _).trans (ih _ _ _ _ _)
    · exact messages _ _

theorem raise_funcsKept (s : State) (src scope : Nat) (info1 : Word) : FuncsKept s (raise s src scope info1) :=
  raiseFuel_funcsKept raiseChain s src scope info1 1

theorem raiseC_funcsKept (s : State) (src scope inc : Nat) : FuncsKept s (raiseC s src scope inc) := by
  unfold raiseC
  split
  · exact .refl s
  · exact raiseFuel_funcsKept _ _ _ _ _ _

/-! ### What an end of work leaves -/

/-- Work that is cut, returned or logged leaves the link, the windows, the datum, the ledger, the recoveries, the global registers, the power state
and every ring's counters. -/
structure CutKept (s t : State) : Prop where
  frame : t = { s with hif := { s.hif with funcs := t.hif.funcs }, rings := t.rings, journal := t.journal, chans := t.chans, upl := t.upl
                       xc := t.xc, sec := t.sec, rad := t.rad, sup := t.sup, fw := t.fw, evt := t.evt, sent := t.sent, free := t.free }
  funcs : FuncsKept s t
  counters : SameCounters s t
  sealing : t.sup.sealing = s.sup.sealing

theorem CutKept.refl (s : State) : CutKept s s := ⟨rfl, .refl s, .refl s, rfl⟩

theorem CutKept.trans {s t u : State} (h : CutKept s t) (h' : CutKept t u) : CutKept s u := by
  refine ⟨?_, h.funcs.trans h'.funcs, h.counters.trans h'.counters, h'.sealing.trans h.sealing⟩
  have e := h'.frame
  rw [h.frame] at e
  rw [e]

theorem foldl_cutKept {α : Type} (f : State → α → State) (h : ∀ s a, CutKept s (f s a)) (l : List α) (s : State) : CutKept s (l.foldl f s) := by
  induction l generalizing s with
  | nil => exact .refl s
  | cons a l ih => exact (h s a).trans (ih (f s a))

theorem EvtOnly.cutKept {s t : State} (h : EvtOnly s t) (hf : FuncsKept s t) : CutKept s t := by
  unfold EvtOnly at h
  refine ⟨?_, hf, sameCounters_of_rings (by rw [h]), by rw [h]⟩
  rw [h]

theorem raise_cutKept (s : State) (src scope : Nat) (info1 : Word) : CutKept s (raise s src scope info1) :=
  (raise_evtOnly s src scope info1).cutKept (raise_funcsKept s src scope info1)

theorem raiseC_cutKept (s : State) (src scope inc : Nat) : CutKept s (raiseC s src scope inc) :=
  (raiseC_evtOnly s src scope inc).cutKept (raiseC_funcsKept s src scope inc)

/-- A change of the parts that no rings hold. -/
theorem parts_cutKept (s : State) (c : Vector Chan 24) (u : Upl) (r : Rad) (w : Fw) (o : List Out) (n : Nat) :
    CutKept s { s with chans := c, upl := u, rad := r, fw := w, sent := o, free := n } :=
  ⟨rfl, .refl s, sameCounters_of_rings rfl, rfl⟩

theorem setChan_cutKept (s : State) (c : Nat) (f : Chan → Chan) : CutKept s (setChan s c f) := parts_cutKept s _ s.upl s.rad s.fw s.sent s.free

theorem setUpl_cutKept (s : State) (f : Upl → Upl) : CutKept s (setUpl s f) := parts_cutKept s s.chans _ s.rad s.fw s.sent s.free

theorem setRad_cutKept (s : State) (f : Rad → Rad) : CutKept s (setRad s f) := parts_cutKept s s.chans s.upl _ s.fw s.sent s.free

theorem modFw_cutKept (s : State) (f : Fw → Fw) : CutKept s (modFw s f) := parts_cutKept s s.chans s.upl s.rad _ s.sent s.free

theorem emitOut_cutKept (s : State) (o : Out) : CutKept s (emitOut s o) := parts_cutKept s s.chans s.upl s.rad s.fw _ s.free

theorem drew_cutKept (s : State) : CutKept s (drew s) := parts_cutKept s s.chans s.upl s.rad s.fw s.sent _

theorem endEmission_cutKept (s : State) (r : Nat) (q : Word) (f : Outcome → Outcome) : CutKept s (endEmission s r q f) := by
  refine ⟨?_, funcsKept_of_funcs (by simp), endEmission_sameCounters s r q f, by simp⟩
  apply State.eq_of_parts <;> simp

theorem emitWork_cutKept (s : State) (r : RingNo) (q : Word) (o : Outcome) : CutKept s (emitWork s r q o) := by
  refine ⟨?_, funcsKept_of_funcs (by simp), (emitWork_ringWork s r q o).2, by simp⟩
  rw [emitWork_frame]

theorem cutEmissions_cutKept (s : State) (r : Nat) : CutKept s (cutEmissions s r) :=
  foldl_cutKept (fun t (w : Work) => endEmission t r w.seq Outcome.cut) (fun t w => endEmission_cutKept t r w.seq _) _ s

theorem dropCur_cutKept (s : State) (c : Nat) : CutKept s (dropCur s c) := by
  unfold dropCur
  split
  · exact .refl s
  next f _ =>
    cases f.src with
    | work _ _ => exact .refl s
    | pause => exact .refl s
    | uplink _ => exact setChan_cutKept s c _
    | line _ => exact setChan_cutKept s c _

theorem stopLine_cutKept (s : State) (c : Nat) : CutKept s (stopLine s c) := (dropCur_cutKept s c).trans (setChan_cutKept _ c _)

theorem stopWork_cutKept (s : State) (c : Nat) : CutKept s (stopWork s c) := by
  unfold stopWork
  have h := foldl_cutKept (fun t k => cutEmissions t (chRing c k)) (fun t k => cutEmissions_cutKept t _) [0, 1, 5] s
  exact (h.trans (setChan_cutKept _ c _)).trans (stopLine_cutKept _ c)

theorem emitBurstWork_cutKept (cut : Bool) (s : State) (x : BurstWork) : CutKept s (emitBurstWork cut s x) := by
  unfold emitBurstWork
  split
  · exact .refl s
  · exact emitWork_cutKept s _ _ _

theorem cutUplink_cutKept (s : State) : CutKept s (cutUplink s) := by
  unfold cutUplink
  split
  · exact .refl s
  next b _ =>
    exact ((setUpl_cutKept s _).trans (emitOut_cutKept _ _)).trans (foldl_cutKept (emitBurstWork true) (emitBurstWork_cutKept true) _ _)

theorem radEnd_cutKept (s : State) (t : RadTx) (acked noAck stop : Bool) : CutKept s (radEnd s t acked noAck stop) := by
  unfold radEnd
  dsimp only
  have h : CutKept s (endEmission (setTx s none) 7 t.seq (fun _ => radOutcome t acked noAck stop)) :=
    (setRad_cutKept s _).trans (endEmission_cutKept _ _ _ _)
  split
  · exact (h.trans (setRad_cutKept _ _)).trans (raiseC_cutKept _ _ _ _)
  · exact h

theorem radCut_cutKept (s : State) : CutKept s (radCut s) := by
  unfold radCut
  dsimp only
  refine CutKept.trans ?_ (setRad_cutKept _ _)
  split
  · exact .refl s
  · split
    · exact .refl s
    · split
      · exact cutEmissions_cutKept s 7
      · exact radEnd_cutKept s _ _ _ _

theorem cutAll_cutKept (s : State) : CutKept s (cutAll s) :=
  ((foldl_cutKept stopWork stopWork_cutKept (List.range 24) s).trans (cutUplink_cutKept _)).trans (radCut_cutKept _)

theorem logEntry_cutKept (s : State) (e : SupLog) : CutKept s (logEntry s e) := by
  have logged : ∀ u : Sup, u.sealing = s.sup.sealing → CutKept s { s with sup := u } :=
    fun u hu => ⟨rfl, .refl s, sameCounters_of_rings rfl, hu⟩
  have raised : ∀ u : Sup, u.sealing = s.sup.sealing → CutKept s (raiseC { s with sup := u } Src.supplyLogLost 0xFF 1) :=
    fun u hu => (logged u hu).trans (raiseC_cutKept _ _ _ _)
  unfold logEntry
  dsimp only
  split
  · exact raised _ rfl
  · exact logged _ rfl

theorem dyingGaspEnd_cutKept (s : State) : CutKept s (dyingGaspEnd s) := by
  unfold dyingGaspEnd
  dsimp only
  split
  · exact ((drew_cutKept s).trans (logEntry_cutKept _ _)).trans (setUpl_cutKept _ _)
  · exact .refl s

theorem endCapsule_cutKept (s : State) : CutKept s (endCapsule s) := by
  unfold endCapsule
  split
  · exact .refl s
  · exact (modFw_cutKept s _).trans (endEmission_cutKept _ _ _ _)

/-! ### The FEED domain and the uplink's outputs -/

theorem feedOff_chan (s : State) {c : Nat} (hc : c < 24) : chanAt (feedOff s) c = { chanAt s c with feed := feedDomainOff (chanAt s c).feed } :=
  chanAt_vmapIdx (t := feedOff s) (s := s) (f := fun _ k => { k with feed := feedDomainOff k.feed }) rfl hc

theorem feedOn_chan (s : State) {c : Nat} (hc : c < 24) :
    chanAt (feedOn s) c = if present s c then { chanAt s c with feed := feedFollow (chanAt s c).feed } else chanAt s c :=
  chanAt_vmapIdx (t := feedOn s) (s := s) (f := fun c k => if present s c then { k with feed := feedFollow k.feed } else k) rfl hc

/-- The FEED domain's power moves the feed controllers of the channels alone. -/
theorem feedPower_tab (s : State) {c : Nat} (hc : c < 24) : (chanAt (feedPower s) c).tab = (chanAt s c).tab := by
  unfold feedPower
  split
  · split
    · rfl
    · rw [feedOn_chan s hc]
      split <;> rfl
  · split
    · rw [feedOff_chan s hc]
    · rfl

theorem feedPower_pwr (s : State) : (feedPower s).pwr = { s.pwr with domFeed := (feedPower s).pwr.domFeed } := by
  unfold feedPower
  split
  · split <;> rfl
  · split <;> rfl

theorem uplSettled_frame (s : State) : ∃ x src, uplSettled s = { s with time := { s.time with src := src }, upl := { s.upl with txDisable := x } } := by
  unfold uplSettled followSrc driveTx
  split
  · exact ⟨_, _, rfl⟩
  · split
    · exact ⟨_, _, rfl⟩
    · exact ⟨_, s.time.src, rfl⟩

/-- The outputs, the FEED domain and the feeds' budget follow a change. -/
def powerSettled (s : State) : State := budgetCheck (feedPower (uplSettled s))

structure PowerSettled (s t : State) : Prop where
  frame : t = { s with hif := { s.hif with funcs := t.hif.funcs }, time := t.time, chans := t.chans, upl := { s.upl with txDisable := t.upl.txDisable }
                       pwr := { s.pwr with domFeed := t.pwr.domFeed }, evt := t.evt, sent := t.sent }
  funcs : FuncsKept s t
  tab : ∀ c, c < 24 → (chanAt t c).tab = (chanAt s c).tab

theorem budgetCheck_cases (s : State) : budgetCheck s = raise s Src.feedBudgetOver 0xFF 0 ∨ budgetCheck s = s := by
  unfold budgetCheck
  split
  · exact .inl rfl
  · exact .inr rfl

theorem uplSettled_powerSettled (s : State) : PowerSettled s (uplSettled s) := by
  obtain ⟨x, src, h⟩ := uplSettled_frame s
  rw [h]
  exact ⟨rfl, .refl s, fun _ _ => rfl⟩

theorem feedPower_powerSettled (s : State) : PowerSettled s (feedPower s) := by
  refine ⟨?_, funcsKept_of_funcs (by rw [feedPower_frame]), fun c hc => feedPower_tab s hc⟩
  have h := feedPower_frame s
  rw [feedPower_pwr] at h
  rw [h]

theorem raise_powerSettled (s : State) (src scope : Nat) (info1 : Word) : PowerSettled s (raise s src scope info1) := by
  refine ⟨?_, raise_funcsKept s src scope info1, fun c _ => by rw [chanAt_raise]⟩
  have h := raise_evtOnly s src scope info1
  unfold EvtOnly at h
  rw [h]

theorem PowerSettled.trans {s t u : State} (h : PowerSettled s t) (h' : PowerSettled t u) : PowerSettled s u := by
  refine ⟨?_, h.funcs.trans h'.funcs, fun c hc => (h'.tab c hc).trans (h.tab c hc)⟩
  have e := h'.frame
  rw [h.frame] at e
  rw [e]

theorem powerSettled_settled (s : State) : PowerSettled s (powerSettled s) := by
  have h := (uplSettled_powerSettled s).trans (feedPower_powerSettled _)
  obtain hb | hb := budgetCheck_cases (feedPower (uplSettled s))
  · rw [powerSettled, hb]
    exact h.trans (raise_powerSettled _ _ _ _)
  · rw [powerSettled, hb]
    exact h

/-! ### What a DEVICE reset clears -/

theorem revertIdentity_frame (s : State) : revertIdentity s = { s with sec := (revertIdentity s).sec, fw := (revertIdentity s).fw,
                                                                        sent := (revertIdentity s).sent } := by
  unfold revertIdentity
  split
  · rfl
  · split
    · rfl
    · dsimp only
      unfold writeRecord
      rw [deriveCapsule_frame (deriveCapsule _), deriveCapsule_frame (modFw s _)]
      rfl

/-- The state a DEVICE reset starts clearing from: the identity restored and the keys gone. -/
def keysCleared (s : State) : State := clearKeys (revertIdentity s)

theorem keysCleared_frame (s : State) : keysCleared s = { s with sec := (keysCleared s).sec, fw := (keysCleared s).fw, sent := (keysCleared s).sent } := by
  unfold keysCleared
  rw [revertIdentity_frame]
  rfl

theorem slotAt_clearKeys (s : State) {i : Nat} (hi : i < 64) : slotAt (clearKeys s) i = if i = 0 then slotAt s i else clearSlot (slotAt s i) := by
  simp only [slotAt, clearKeys, setSec]
  rw [vget_vmapIdx, if_pos hi]

/-- Every key but the root key is gone. -/
theorem keysCleared_gone (s : State) {i : Nat} (h0 : 0 < i) (hi : i < 64) : (slotAt (keysCleared s) i).valid = false := by
  rw [keysCleared, slotAt_clearKeys _ hi, if_neg (by omega)]
  rfl

/-- The registers a DEVICE reset with a cause's code clears, with the channels the part has. -/
def deviceRegs (s u : State) (code : Nat) : State :=
  let s2 : State := { u with
    glb := glbDevice u.glb code
    hif := msixDevice (hifDevice u.hif)
    upl := uplRestart u.upl
    xc := xcDevice u.xc
    sec := { u.sec with split := Sec.reset.split, plainDis := Sec.reset.plainDis, lock := Sec.reset.lock, ops := [], port := [] }
    rad := radDevice u.rad
    sup := supDevice u.sup
    fw := fwDevice u.fw
    evt := evtDevice u.evt
    time := { u.time with rxts := Rxts.reset }
    ledger := if u.ledger.sealed ∨ u.sup.sealing ∨ u.sup.sealPhase ≠ 0 then
      { u.ledger with sealState := .running, spillCount := 0, spillCheck := 0, sealed := false } else u.ledger }
  { s2 with
    chans := vmapIdx (fun c k => chanDevice (present s c) (sesDefault s2) k) s2.chans
    pwr := { s2.pwr with
      floor := 1, sleepMs := 100, idleUs := idleDefault s2, lingerMs := 10, entryReq := none, entrySeal := false, woken := [], waiting := []
      domChla := false, domChlb := false, domRad := false } }

theorem clearDevice_eq (s : State) (code : Nat) : clearDevice s code = powerSettled (deviceRegs s (keysCleared s) code) := rfl

theorem deviceRegs_chan (s u : State) (code : Nat) {c : Nat} (hc : c < 24) : ∃ ses, chanAt (deviceRegs s u code) c = chanDevice (present s c) ses (chanAt u c) :=
  ⟨_, chanAt_vmapIdx (s := u) (t := deviceRegs s u code) (f := fun c k => chanDevice (present s c) _ k) rfl hc⟩

/-- The registers after a DEVICE reset. -/
structure DeviceRegs (s u t : State) (code : Nat) : Prop where
  glb : t.glb = glbDevice u.glb code
  windows : t.hif.windows = Vector.replicate 25 (Vector.replicate 8 Window.reset)
  link : t.hif.linkUp = u.hif.linkUp ∧ t.hif.vfEnable = u.hif.vfEnable ∧ t.hif.numVfs = u.hif.numVfs
  unlocked : t.hif.lock = false ∧ t.upl.lock = false ∧ t.sec.lock = false ∧ t.rad.lock = false ∧ t.sup.lock = false
  channels : ∀ c, c < 24 → (chanAt t c).tab = ChTab.reset (present s c)
  keys : t.sec.slots = u.sec.slots
  rings : t.rings = u.rings
  kept : t.datum = u.datum ∧ t.part = u.part ∧ t.ledger.epoch = u.ledger.epoch ∧ t.chtabBase = u.chtabBase ∧ t.chtabEn = u.chtabEn
  domains : t.pwr.domChla = false ∧ t.pwr.domChlb = false ∧ t.pwr.domRad = false ∧ t.pwr.testEn = u.pwr.testEn

theorem deviceRegs_ledger (s u : State) (code : Nat) : (deviceRegs s u code).ledger.epoch = u.ledger.epoch := by
  unfold deviceRegs
  dsimp only
  split <;> rfl

theorem uplRestart_lock (u : Upl) : (uplRestart u).lock = false := rfl

theorem deviceRegs_regs (s u : State) (code : Nat) : DeviceRegs s u (deviceRegs s u code) code where
  glb := by simp only [deviceRegs]
  windows := by
    simp only [deviceRegs]
    rfl
  link := by
    simp only [deviceRegs]
    exact ⟨rfl, rfl, rfl⟩
  unlocked := by
    simp only [deviceRegs, uplRestart_lock]
    exact ⟨rfl, trivial, rfl, rfl, rfl⟩
  channels c hc := by
    obtain ⟨ses, h⟩ := deviceRegs_chan s u code hc
    rw [h]
    rfl
  keys := by simp only [deviceRegs]
  rings := by simp only [deviceRegs]
  kept := by
    refine ⟨?_, ?_, deviceRegs_ledger s u code, ?_, ?_⟩ <;> simp only [deviceRegs]
  domains := by
    simp only [deviceRegs]
    exact ⟨trivial, trivial, trivial, trivial⟩

theorem deviceRegs_funcs (s u : State) (code : Nat) {f : Nat} (hf : f < 25) :
    (vget (deviceRegs s u code).hif.funcs f (Func.reset 0)).bme = (vget u.hif.funcs f (Func.reset 0)).bme ∧
      (vget (deviceRegs s u code).hif.funcs f (Func.reset 0)).mse = (vget u.hif.funcs f (Func.reset 0)).mse ∧
      (vget (deviceRegs s u code).hif.funcs f (Func.reset 0)).table = (Func.reset (if f = 0 then 64 else 4)).table := by
  have hfuncs : (deviceRegs s u code).hif.funcs =
      vmapIdx (fun f x => { x with table := (Func.reset (if f = 0 then 64 else 4)).table, pba := 0 }) u.hif.funcs := by
    simp only [deviceRegs]
    rfl
  rw [hfuncs, vget_vmapIdx, if_pos hf]
  exact ⟨rfl, rfl, rfl⟩

/-- What the outputs and the feeds follow afterwards leaves of them. -/
theorem DeviceRegs.settled {s u t v : State} {code : Nat} (h : DeviceRegs s u t code) (k : PowerSettled t v) : DeviceRegs s u v code := by
  obtain ⟨hglb, hwin, hlink, hlock, hch, hkeys, hrings, hkept, hdom⟩ := h
  refine ⟨?_, ?_, ?_, ?_, fun c hc => (k.tab c hc).trans (hch c hc), ?_, ?_, ?_, ?_⟩ <;> rw [k.frame]
  · exact hglb
  · exact hwin
  · exact hlink
  · exact hlock
  · exact hkeys
  · exact hrings
  · exact hkept
  · exact hdom

/-! ### The reset -/

/-- A DEVICE reset's ends of work. -/
def resetCut (s : State) : State := endCapsule (cutAll (dyingGaspEnd s))

theorem resetCut_cutKept (s : State) : CutKept s (resetCut s) :=
  ((dyingGaspEnd_cutKept s).trans (cutAll_cutKept _)).trans (endCapsule_cutKept _)

/-- A boot changes the firmware's part and what an occurrence does. -/
theorem boot_frame (s : State) : boot s =
    { s with hif := { s.hif with funcs := (boot s).hif.funcs }, fw := (boot s).fw, evt := (boot s).evt, sent := (boot s).sent } := by
  rw [boot_eq]
  split
  · have h := raise_evtOnly (bootTaken s) Src.fwNoImage 0xFF 0
    unfold EvtOnly at h
    rw [h]
    rfl
  · rfl

theorem boot_funcsKept (s : State) : FuncsKept s (boot s) := by
  rw [boot_eq]
  split
  · exact (funcsKept_of_funcs (t := bootTaken s) rfl).trans (raise_funcsKept _ _ _ _)
  · exact funcsKept_of_funcs rfl

theorem setPwr_funcsKept (s : State) (st : PwrSt) : FuncsKept s (setPwr s st) := by
  have changed : ∀ w : Fw, FuncsKept s (raise { s with pwr := { s.pwr with state := st }, fw := w } Src.powerState 0xFF 0) :=
    fun w => (funcsKept_of_funcs (t := { s with pwr := { s.pwr with state := st }, fw := w }) rfl).trans (raise_funcsKept _ _ _ _)
  unfold setPwr
  split
  · exact .refl s
  · exact changed _

/-- A state with other recoveries. -/
def withRecov (u : State) (l : List Recovery) : State := { u with recov := l }

/-- The terminal in RUN with other recoveries, booted. -/
def runBooted (u : State) (l : List Recovery) : State := boot (withRecov (setPwr u .run) l)

theorem runBooted_frame (u : State) (l : List Recovery) : runBooted u l =
    { u with hif := { u.hif with funcs := (runBooted u l).hif.funcs }, pwr := { u.pwr with state := .run }, recov := l, fw := (runBooted u l).fw
             evt := (runBooted u l).evt, sent := (runBooted u l).sent } := by
  have h := boot_frame (withRecov (setPwr u .run) l)
  have hw : withRecov (setPwr u .run) l = { u with hif := { u.hif with funcs := (setPwr u .run).hif.funcs }, pwr := { u.pwr with state := .run }
                                                   recov := l, fw := (setPwr u .run).fw, evt := (setPwr u .run).evt, sent := (setPwr u .run).sent } := by
    have e := setPwr_frame u .run
    unfold withRecov
    generalize setPwr u .run = v at e ⊢
    rw [e]
  unfold runBooted
  generalize boot (withRecov (setPwr u .run) l) = v at h ⊢
  rw [h, hw]

theorem runBooted_funcsKept (u : State) (l : List Recovery) : FuncsKept u (runBooted u l) :=
  (setPwr_funcsKept u .run).trans ((funcsKept_of_funcs (t := withRecov (setPwr u .run) l) rfl).trans (boot_funcsKept _))

/-- The recovery of a DEVICE reset. -/
def resetRecovery (t : State) (cmds : List (RingNo × Word)) : State :=
  startRecovery t (allRings.filter (fun r => (ringAt t r.val).enable)) 0x01 0xFF true cmds (List.range 24)

/-- The terminal after the registers of a DEVICE reset are cleared, in RUN and booted. -/
def resetBooted (s : State) (code : Nat) : State :=
  runBooted (clearDevice (resetCut s) code) (absorbed (setPwr (clearDevice (resetCut s) code) .run).recov).1

theorem resetDevice_eq (s : State) (c : ResetCause) : resetDevice s c =
    resetRecovery (resetBooted s c.code) (absorbed (setPwr (clearDevice (resetCut s) c.code) .run).recov).2 := by
  unfold resetDevice resetBooted runBooted withRecov resetRecovery resetCut
  dsimp only

theorem DeviceRegs.booted {s u t : State} {code : Nat} (h : DeviceRegs s u t code) (l : List Recovery) :
    DeviceRegs s u (runBooted t l) code := by
  obtain ⟨hglb, hwin, hlink, hlock, hch, hkeys, hrings, hkept, hdom⟩ := h
  refine ⟨?_, ?_, ?_, ?_, fun c hc => ?_, ?_, ?_, ?_, ?_⟩ <;> rw [runBooted_frame]
  · exact hglb
  · exact hwin
  · exact hlink
  · exact hlock
  · exact hch c hc
  · exact hkeys
  · exact hrings
  · exact hkept
  · exact hdom

/-- What a DEVICE reset leaves of the registers it clears. -/
theorem resetBooted_regs (s : State) (code : Nat) : DeviceRegs (resetCut s) (keysCleared (resetCut s)) (resetBooted s code) code :=
  ((deviceRegs_regs _ _ _).settled (powerSettled_settled _)).booted _

/-- What the clearing of the keys leaves of the state before the reset. -/
theorem keysCleared_keeps (s : State) : (keysCleared (resetCut s)).glb = s.glb ∧ (keysCleared (resetCut s)).datum = s.datum ∧
    (keysCleared (resetCut s)).part = s.part ∧ (keysCleared (resetCut s)).ledger = s.ledger ∧
    (keysCleared (resetCut s)).chtabBase = s.chtabBase ∧ (keysCleared (resetCut s)).chtabEn = s.chtabEn ∧
    (keysCleared (resetCut s)).rings = (resetCut s).rings ∧ FuncsKept s (keysCleared (resetCut s)) ∧
    (keysCleared (resetCut s)).hif.linkUp = s.hif.linkUp ∧ (keysCleared (resetCut s)).hif.vfEnable = s.hif.vfEnable ∧
    (keysCleared (resetCut s)).hif.numVfs = s.hif.numVfs ∧ (keysCleared (resetCut s)).pwr = s.pwr := by
  have cut := resetCut_cutKept s
  have hfuncs : FuncsKept (resetCut s) (keysCleared (resetCut s)) := funcsKept_of_funcs (by rw [keysCleared_frame])
  refine ⟨?_, ?_, ?_, ?_, ?_, ?_, ?_, cut.funcs.trans hfuncs, ?_, ?_, ?_, ?_⟩ <;> rw [keysCleared_frame]
  all_goals rw [cut.frame]

theorem resetBooted_counters (s : State) (code : Nat) : SameCounters s (resetBooted s code) := by
  obtain ⟨-, -, -, -, -, -, hrings, -⟩ := keysCleared_keeps s
  exact (resetCut_cutKept s).counters.trans (sameCounters_of_rings ((resetBooted_regs s code).rings.trans hrings))

/-- A DEVICE reset gives every ring that is enabled to its recovery. -/
theorem resetRecovery_recovers {s t : State} (h : SameCounters s t) (cmds : List (RingNo × Word)) :
    ∃ v, v ∈ (resetRecovery t cmds).recov ∧ v.cause = 1 ∧ ∀ r : RingNo, r ∈ v.scope ↔ (ringAt s r.val).enable = true := by
  rw [resetRecovery, startRecovery_recov]
  refine ⟨_, List.mem_append_right _ (List.mem_singleton_self _), rfl, fun r => ?_⟩
  obtain ⟨-, -, -, -, -, -, -, hen⟩ := h r.val
  rw [mem_enabled_scope, hen]

/-- What a DEVICE reset leaves. -/
theorem resetDevice_after (s : State) (c : ResetCause) : AfterDeviceReset s (resetDevice s c) c.code := by
  have regs := resetBooted_regs s c.code
  have hcount := resetBooted_counters s c.code
  obtain ⟨hglb, hdatum, hpart, hledger, hbase, hen, -⟩ := keysCleared_keeps s
  have hrun : (resetBooted s c.code).pwr.state = .run := by rw [resetBooted, runBooted_frame]
  have hcut : (resetCut s).part = s.part := by rw [(resetCut_cutKept s).frame]
  rw [resetDevice_eq]
  generalize (absorbed (setPwr (clearDevice (resetCut s) c.code) .run).recov).2 = cmds
  have hg : (resetRecovery (resetBooted s c.code) cmds).glb = glbDevice s.glb c.code := by
    rw [resetRecovery, startRecovery_glb, regs.glb, hglb]
  refine ⟨?_, by rw [hg]; rfl, by rw [hg]; rfl, by rw [hg]; rfl, ?_, ?_, fun i hi => ?_, fun i h0 hi => ?_,
    hcount.trans (startRecovery_sameCounters _ _ _ _ _ _ _), resetRecovery_recovers hcount cmds, ?_⟩
  · rw [resetRecovery, startRecovery_pwr]
    exact hrun
  · rw [resetRecovery, startRecovery_hif]
    exact regs.windows
  · rw [resetRecovery, startRecovery_hif, startRecovery_upl, startRecovery_sec, startRecovery_rad, startRecovery_sup]
    exact regs.unlocked
  · rw [resetRecovery, chanAt, startRecovery_chans]
    have htab := regs.channels i hi
    rw [chanAt] at htab
    rw [htab]
    simp only [present, hcut]
    rfl
  · rw [resetRecovery, slotAt, startRecovery_sec, regs.keys]
    exact keysCleared_gone (resetCut s) h0 hi
  · rw [resetRecovery, startRecovery_datum, startRecovery_part, startRecovery_ledger, startRecovery_chtabBase, startRecovery_chtabEn]
    obtain ⟨h1, h2, h3, h4, h5⟩ := regs.kept
    exact ⟨h1.trans hdatum, h2.trans hpart, h3.trans (congrArg Ledger.epoch hledger), h4.trans hbase, h5.trans hen⟩

theorem resetBooted_funcs (s : State) (code : Nat) :
    FuncsKept (deviceRegs (resetCut s) (keysCleared (resetCut s)) code) (resetBooted s code) := by
  have cleared := (powerSettled_settled (deviceRegs (resetCut s) (keysCleared (resetCut s)) code)).funcs
  unfold resetBooted
  rw [clearDevice_eq]
  exact cleared.trans (runBooted_funcsKept _ _)

/-- The link and the functions' enables after a DEVICE reset, their MSI-X tables at their reset values. -/
theorem resetDevice_hif (s : State) (c : ResetCause) : (resetDevice s c).hif.linkUp = s.hif.linkUp ∧
    (resetDevice s c).hif.vfEnable = s.hif.vfEnable ∧ (resetDevice s c).hif.numVfs = s.hif.numVfs ∧
    ∀ f, f < 25 → (vget (resetDevice s c).hif.funcs f (Func.reset 0)).bme = (vget s.hif.funcs f (Func.reset 0)).bme ∧
      (vget (resetDevice s c).hif.funcs f (Func.reset 0)).mse = (vget s.hif.funcs f (Func.reset 0)).mse ∧
      (vget (resetDevice s c).hif.funcs f (Func.reset 0)).table = (Func.reset (if f = 0 then 64 else 4)).table := by
  obtain ⟨-, -, -, -, -, -, -, hfuncs, hl, hv, hn, -⟩ := keysCleared_keeps s
  obtain ⟨rl, rv, rn⟩ := (resetBooted_regs s c.code).link
  rw [resetDevice_eq, resetRecovery, startRecovery_hif]
  refine ⟨rl.trans hl, rv.trans hv, rn.trans hn, fun f hf => ?_⟩
  obtain ⟨d1, d2, d3⟩ := deviceRegs_funcs (resetCut s) (keysCleared (resetCut s)) c.code hf
  obtain ⟨e1, e2, e3⟩ := resetBooted_funcs s c.code f
  obtain ⟨k1, k2, -⟩ := hfuncs f
  exact ⟨(e1.trans d1).trans k1, (e2.trans d2).trans k2, e3.trans d3⟩

theorem resetDevice_domains (s : State) (c : ResetCause) : (resetDevice s c).pwr.domChla = false ∧ (resetDevice s c).pwr.domChlb = false ∧
    (resetDevice s c).pwr.testEn = s.pwr.testEn := by
  obtain ⟨-, -, -, -, -, -, -, -, -, -, -, hp⟩ := keysCleared_keeps s
  obtain ⟨h1, h2, -, h4⟩ := (resetBooted_regs s c.code).domains
  rw [resetDevice_eq, resetRecovery, startRecovery_pwr]
  exact ⟨h1, h2, h4.trans (congrArg Pwr.testEn hp)⟩

/-! ### POWER-ON -/

theorem powerOn_follows (s : State) : exec .aonBrownOut s = exec .powerOn s ∧
    ∃ t, exec .powerOn s = .next t ∧ t.pending = s.pending ∧ t.part = s.part ∧ t.datum = 0 ∧ t.time = Time.reset ∧
      t.journal = [] ∧ t.ledger = Ledger.reset ∧ t.recov = [] ∧ t.sec = Sec.reset ∧ t.rad = Rad.reset ∧ t.sup = Sup.reset ∧
      t.evt = Evt.reset ∧ t.mgt = Mgt.reset ∧ t.xc = Xc.reset ∧ t.chtabEn = false ∧ t.chtabBase = 0 ∧
      (∀ r, r < 160 → ringAt t r = Ring.reset r ∧ (ringAt t r).acc = 0xFFFFFFFF ∧ (ringAt t r).tail = 0) ∧
      (∀ c, c < 24 → chanAt t c = Chan.reset (decide (c < s.part.channels))) ∧
      t.fw.slotA = s.fw.slotA ∧ t.fw.slotB = s.fw.slotB ∧ t.fw.floor = s.fw.floor ∧ t.glb.unitId = s.glb.unitId := by
  have rings : (powerOnOp s).rings = Vector.ofFn (fun r => Ring.reset r.val) := rfl
  have chans : (powerOnOp s).chans = Vector.ofFn (fun c => Chan.reset (decide (c.val < s.part.channels))) := rfl
  refine ⟨rfl, powerOnOp s, rfl, rfl, rfl, rfl, rfl, rfl, rfl, rfl, rfl, rfl, rfl, rfl, rfl, rfl, rfl, rfl, fun r hr => ?_, fun c hc => ?_,
    rfl, rfl, rfl, rfl⟩
  · have h : ringAt (powerOnOp s) r = Ring.reset r := by
      rw [ringAt, rings, vget_of_lt _ _ _ hr, Vector.getElem_ofFn]
    rw [h]
    exact ⟨rfl, rfl, rfl⟩
  · rw [chanAt, chans, vget_of_lt _ _ _ hc, Vector.getElem_ofFn]

/-! ### The loss of the link with a reset of the bus -/

/-- What the loss of the link and the reset of configuration space change. -/
structure BusLost (s t : State) : Prop where
  frame : t = { s with hif := t.hif, rings := t.rings, ledger := t.ledger, sup := { s.sup with hostLost := t.sup.hostLost }, evt := t.evt }
  counters : SameCounters s t
  epoch : t.ledger.epoch = s.ledger.epoch
  link : t.hif.linkUp = false
  perst : t.hif.perst = s.hif.perst

theorem unissue_sameCounters (s : State) (scope : List RingNo) : SameCounters s (unissue s scope) := by
  unfold unissue
  extract_lets inScope s1
  have h : SameCounters s s1 := mapRings_sameCounters s _ fun _ _ => ⟨rfl, rfl, rfl, rfl, rfl, rfl, rfl, rfl⟩
  split
  · exact h.trans (sameCounters_of_rings rfl)
  · exact h

theorem loseLink_busLost (s : State) : BusLost s (loseLink s) := by
  have counters : SameCounters s (loseLink s) :=
    (unissue_sameCounters s allRings).trans
      ((mapRings_sameCounters _ (fun _ g => { g with fetch := none, refetch := none }) fun _ _ => ⟨rfl, rfl, rfl, rfl, rfl, rfl, rfl, rfl⟩).trans
        (sameCounters_of_rings rfl))
  refine ⟨?_, counters, ?_, ?_, ?_⟩
  · apply State.eq_of_parts <;> simp [loseLink]
  all_goals simp [loseLink]

theorem resetConfig_busLost (s : State) (h : s.hif.linkUp = false) : BusLost s (resetConfig s) ∧ (resetConfig s).hif.vfEnable = false ∧
    (resetConfig s).hif.numVfs = 0 := by
  obtain ⟨hv, hn, -⟩ := setVfs_hif s false 0
  have hkept : (setVfs s false 0).hif.linkUp = s.hif.linkUp ∧ (setVfs s false 0).hif.perst = s.hif.perst := by
    unfold setVfs
    exact ⟨rfl, rfl⟩
  obtain ⟨hlink, hperst⟩ := hkept
  refine ⟨⟨?_, (setVfs_sameCounters s false 0).trans (sameCounters_of_rings rfl), ?_, ?_, ?_⟩, hv, hn⟩
  · apply State.eq_of_parts <;> simp [resetConfig, setVfs]
  · simp [resetConfig, setVfs]
  · exact hlink.trans h
  · exact hperst

theorem BusLost.trans {s t u : State} (h : BusLost s t) (h' : BusLost t u) : BusLost s u := by
  refine ⟨?_, h.counters.trans h'.counters, h'.epoch.trans h.epoch, h'.link, h'.perst.trans h.perst⟩
  have e := h'.frame
  rw [h.frame] at e
  rw [e]

/-- The link lost and configuration space reset. -/
def busLost (s : State) : State := resetConfig (loseLink s)

theorem busLost_lost (s : State) : BusLost s (busLost s) ∧ (busLost s).hif.vfEnable = false ∧ (busLost s).hif.numVfs = 0 := by
  obtain ⟨h, hv, hn⟩ := resetConfig_busLost (loseLink s) (loseLink_busLost s).link
  exact ⟨(loseLink_busLost s).trans h, hv, hn⟩

/-- A DEVICE reset after the loss of the link, seen from before it. -/
theorem AfterDeviceReset.of_busLost {s u t : State} {code : Nat} (h : AfterDeviceReset u t code) (hs : BusLost s u) : AfterDeviceReset s t code := by
  have hframe := hs.frame
  have hglb : u.glb = s.glb := by rw [hframe]
  have hpart : u.part = s.part := by rw [hframe]
  obtain ⟨hrun, hcause, hcount, hprof, hwin, hlock, hch, hkeys, hctr, ⟨v, hv, hvc, hvs⟩, h1, h2, h3, h4, h5⟩ := h
  refine ⟨hrun, hcause, by rw [hcount, hglb], by rw [hprof, hglb], hwin, hlock, fun c hc => ?_, hkeys, hs.counters.trans hctr,
    ⟨v, hv, hvc, fun r => ?_⟩, ?_, h2.trans hpart, h3.trans hs.epoch, ?_, ?_⟩
  · have hp : present u c = present s c := by
      unfold present
      rw [hpart]
    rw [hch c hc, hp]
  · obtain ⟨-, -, -, -, -, -, -, hen⟩ := hs.counters r.val
    rw [hvs, hen]
  · rw [h1, hframe]
  · rw [h4, hframe]
  · rw [h5, hframe]

theorem busReset_eq {s : State} (h : offPath s = false) (c : ResetCause) : busReset s c = resetCause (busLost s) c := by
  unfold busReset busLost
  dsimp only
  exact if_neg (by rw [h]; exact Bool.false_ne_true)

/-- A cause of a DEVICE reset strikes: the reset, its absorption or its hold. -/
theorem resetCause_cases (s : State) (c : ResetCause) :
    (s.sup.sealing = true → resetCause s c = modSup s (fun u => { u with heldReset := some (firstCause u.heldReset c) })) ∧
    (s.sup.sealing = false → s.glb.inReset = true → resetCause s c = s) ∧
    (s.sup.sealing = false → s.glb.inReset = false → resetCause s c = resetDevice s c) := by
  unfold resetCause deviceReset
  refine ⟨fun h => if_pos h, fun h hr => ?_, fun h hr => ?_⟩ <;> rw [h, hr] <;> rfl

/-- The cause of a reset of the bus that strikes after the link is lost. -/
theorem resetCause_follows {s u : State} (hlost : BusLost s u) (hv : u.hif.vfEnable = false) (hn : u.hif.numVfs = 0) (k : ResetCause) :
    (resetCause u k).hif.linkUp = false ∧ (resetCause u k).hif.vfEnable = false ∧ (resetCause u k).hif.numVfs = 0 ∧
      (s.sup.sealing = false → s.glb.inReset = false → AfterDeviceReset s (resetCause u k) k.code) ∧
      (s.sup.sealing = false → s.glb.inReset = true → (resetCause u k).glb = s.glb ∧ (resetCause u k).chans = s.chans ∧
        (resetCause u k).sec = s.sec ∧ (resetCause u k).upl = s.upl) ∧
      (s.sup.sealing = true → (resetCause u k).sup.heldReset = some (firstCause s.sup.heldReset k) ∧ (resetCause u k).glb = s.glb ∧
        (resetCause u k).chans = s.chans ∧ (resetCause u k).sec = s.sec ∧ (resetCause u k).upl = s.upl) := by
  obtain ⟨hheld, habsorbed, hreset⟩ := resetCause_cases u k
  have hseal : u.sup.sealing = s.sup.sealing := by rw [hlost.frame]
  have hin : u.glb.inReset = s.glb.inReset := by rw [hlost.frame]
  have hprior : u.sup.heldReset = s.sup.heldReset := by rw [hlost.frame]
  have hkept : u.glb = s.glb ∧ u.chans = s.chans ∧ u.sec = s.sec ∧ u.upl = s.upl := by
    rw [hlost.frame]
    exact ⟨rfl, rfl, rfl, rfl⟩
  rw [hseal] at hheld habsorbed hreset
  rw [hin] at habsorbed hreset
  cases hs : s.sup.sealing with
  | true =>
    rw [hheld hs]
    exact ⟨hlost.link, hv, hn, nofun, nofun, fun _ => ⟨congrArg (fun x => some (firstCause x k)) hprior, hkept⟩⟩
  | false =>
    cases hr : s.glb.inReset with
    | true =>
      rw [habsorbed hs hr]
      exact ⟨hlost.link, hv, hn, nofun, fun _ _ => hkept, nofun⟩
    | false =>
      rw [hreset hs hr]
      obtain ⟨hl, hve, hnv, -⟩ := resetDevice_hif u k
      exact ⟨hl.trans hlost.link, hve.trans hv, hnv.trans hn, fun _ _ => (resetDevice_after u k).of_busLost hlost, nofun, nofun⟩

/-- The reset of the bus: the link is lost, and the cause strikes. -/
theorem busReset_follows {s : State} (h : offPath s = false) (k : ResetCause) :
    (busReset s k).hif.linkUp = false ∧ (busReset s k).hif.vfEnable = false ∧ (busReset s k).hif.numVfs = 0 ∧
      (s.sup.sealing = false → s.glb.inReset = false → AfterDeviceReset s (busReset s k) k.code) ∧
      (s.sup.sealing = false → s.glb.inReset = true → (busReset s k).glb = s.glb ∧ (busReset s k).chans = s.chans ∧
        (busReset s k).sec = s.sec ∧ (busReset s k).upl = s.upl) ∧
      (s.sup.sealing = true → (busReset s k).sup.heldReset = some (firstCause s.sup.heldReset k) ∧ (busReset s k).glb = s.glb ∧
        (busReset s k).chans = s.chans ∧ (busReset s k).sec = s.sec ∧ (busReset s k).upl = s.upl) := by
  obtain ⟨hlost, hv, hn⟩ := busLost_lost s
  rw [busReset_eq h]
  exact resetCause_follows hlost hv hn k

/-- PERST#, a hot reset and the loss of the link. -/
theorem busCauses_follow (s : State) (c : Instr) (k : ResetCause)
    (hc : (c, k) ∈ [(Instr.perstAssert, ResetCause.perst), (.pcieHotReset, .linkOrHot), (.linkDown, .linkOrHot)])
    (hoff : offPath s = false) (hperst : c = .perstAssert → s.hif.perst = false) (hup : c ≠ .perstAssert → s.hif.linkUp = true) :
    ∃ t, exec c s = .next t ∧ t.hif.linkUp = false ∧ t.hif.vfEnable = false ∧ t.hif.numVfs = 0 ∧
      (s.sup.sealing = false → s.glb.inReset = false → AfterDeviceReset s t k.code) ∧
      (s.sup.sealing = false → s.glb.inReset = true → t.glb = s.glb ∧ t.chans = s.chans ∧ t.sec = s.sec ∧ t.upl = s.upl) ∧
      (s.sup.sealing = true → t.sup.heldReset = some (firstCause s.sup.heldReset k) ∧ t.glb = s.glb ∧ t.chans = s.chans ∧
        t.sec = s.sec ∧ t.upl = s.upl) := by
  have held : BusLost s (busLost s) := (busLost_lost s).1
  simp only [List.mem_cons, Prod.mk.injEq, List.not_mem_nil, or_false] at hc
  rcases hc with ⟨rfl, rfl⟩ | ⟨rfl, rfl⟩ | ⟨rfl, rfl⟩
  · refine ⟨busReset (modHif s (fun h => { h with perst := true })) .perst, ?_, ?_⟩
    · exact congrArg Host.Outcome.next (if_neg (by rw [hperst rfl]; exact Bool.false_ne_true))
    · obtain ⟨h1, h2, h3, h4, h5, h6⟩ := busReset_follows (s := modHif s (fun h => { h with perst := true })) hoff .perst
      refine ⟨h1, h2, h3, fun a b => ?_, h5, h6⟩
      obtain ⟨hrun, hcause, hcount, hprof, hwin, hlock, hch, hkeys, hctr, hrec, hkept⟩ := h4 a b
      exact ⟨hrun, hcause, hcount, hprof, hwin, hlock, hch, hkeys, hctr, hrec, hkept⟩
  · exact ⟨busReset s .linkOrHot, congrArg Host.Outcome.next (if_pos (hup nofun)), busReset_follows hoff _⟩
  · exact ⟨busReset s .linkOrHot, congrArg Host.Outcome.next (if_pos (hup nofun)), busReset_follows hoff _⟩

/-! ### GLB_RESET -/

theorem hostReset_follows (s : State) (key : Word) :
    ∃ t, exec (.hostFullReset .pf key) s = .next t ∧
      (key ≠ 0xA5C30001 → t = s) ∧
      (key = 0xA5C30001 →
        (s.sup.sealing = true ∨ s.pwr.state = .entering ∨ s.pwr.state = .poweringDown ∨ s.pwr.state = .waking) →
        t = { s with glb := { s.glb with refused := true } }) ∧
      (key = 0xA5C30001 → s.sup.sealing = false → s.pwr.state ≠ .entering → s.pwr.state ≠ .poweringDown →
        s.pwr.state ≠ .waking → s.glb.inReset = true → t = s) ∧
      (key = 0xA5C30001 → s.sup.sealing = false → s.pwr.state ≠ .entering → s.pwr.state ≠ .poweringDown →
        s.pwr.state ≠ .waking → s.glb.inReset = false →
        AfterDeviceReset s t 3 ∧ t.hif.linkUp = s.hif.linkUp ∧ t.hif.vfEnable = s.hif.vfEnable ∧ t.hif.numVfs = s.hif.numVfs ∧
        ∀ f, f < 25 → (vget t.hif.funcs f (Func.reset 0)).bme = (vget s.hif.funcs f (Func.reset 0)).bme ∧
          (vget t.hif.funcs f (Func.reset 0)).mse = (vget s.hif.funcs f (Func.reset 0)).mse ∧
          (vget t.hif.funcs f (Func.reset 0)).table = (Func.reset (if f = 0 then 64 else 4)).table) := by
  have taken : key = 0xA5C30001 → ¬ (s.sup.sealing ∨ s.pwr.state = .entering ∨ s.pwr.state = .poweringDown ∨ s.pwr.state = .waking) →
      hostResetOp s key = deviceReset s .hostFull := fun hk hno => by
    unfold hostResetOp
    rw [if_neg (not_not.2 hk), if_neg hno]
  refine ⟨hostResetOp s key, rfl, fun hk => if_pos hk, fun hk hbusy => ?_, fun hk h1 h2 h3 h4 hr => ?_, fun hk h1 h2 h3 h4 hr => ?_⟩
  · unfold hostResetOp
    rw [if_neg (not_not.2 hk), if_pos hbusy]
    rfl
  · rw [taken hk (by simp [h1, h2, h3, h4])]
    exact if_pos hr
  · have hreset : hostResetOp s key = resetDevice s .hostFull := by
      rw [taken hk (by simp [h1, h2, h3, h4])]
      exact if_neg (by rw [hr]; exact Bool.false_ne_true)
    rw [hreset]
    exact ⟨resetDevice_after s .hostFull, resetDevice_hif s .hostFull⟩

/-! ### Domains switched off after a reset -/

/-- What a domain that is switched off after a DEVICE reset leaves of it. -/
structure OffKept (s t : State) : Prop where
  pwr : t.pwr.state = s.pwr.state ∧ t.pwr.testEn = s.pwr.testEn
  off : ∀ d, domOn s d = false → domOn t d = false
  link : s.hif.linkUp = false → t.hif.linkUp = false
  glb : t.glb = s.glb
  windows : t.hif.windows = s.hif.windows
  locks : t.hif.lock = s.hif.lock ∧ t.upl.lock = s.upl.lock ∧ t.sec.lock = s.sec.lock ∧ t.rad.lock = s.rad.lock ∧ t.sup.lock = s.sup.lock
  channels : ∀ c, c < 24 → (chanAt t c).tab.state = (chanAt s c).tab.state ∨ (chanAt t c).tab.state = if present s c then .off else .absent
  keys : ∀ i, 0 < i → i < 64 → (slotAt s i).valid = false → (slotAt t i).valid = false
  counters : SameCounters s t
  recov : t.recov = s.recov
  kept : t.datum = s.datum ∧ t.part = s.part ∧ t.ledger.epoch = s.ledger.epoch ∧ t.chtabBase = s.chtabBase ∧ t.chtabEn = s.chtabEn

theorem OffKept.refl (s : State) : OffKept s s :=
  ⟨⟨rfl, rfl⟩, fun _ h => h, fun h => h, rfl, rfl, ⟨rfl, rfl, rfl, rfl, rfl⟩, fun _ _ => .inl rfl, fun _ _ _ h => h, .refl s, rfl,
    ⟨rfl, rfl, rfl, rfl, rfl⟩⟩

theorem OffKept.trans {s t u : State} (h : OffKept s t) (h' : OffKept t u) : OffKept s u := by
  obtain ⟨⟨p1, p2⟩, hoff, hlink, hglb, hwin, ⟨l1, l2, l3, l4, l5⟩, hch, hkeys, hctr, hrec, ⟨k1, k2, k3, k4, k5⟩⟩ := h
  obtain ⟨⟨p1', p2'⟩, hoff', hlink', hglb', hwin', ⟨l1', l2', l3', l4', l5'⟩, hch', hkeys', hctr', hrec', ⟨k1', k2', k3', k4', k5'⟩⟩ := h'
  refine ⟨⟨p1'.trans p1, p2'.trans p2⟩, fun d hd => hoff' d (hoff d hd), fun hl => hlink' (hlink hl), hglb'.trans hglb, hwin'.trans hwin,
    ⟨l1'.trans l1, l2'.trans l2, l3'.trans l3, l4'.trans l4, l5'.trans l5⟩, fun c hc => ?_,
    fun i h0 hi hv => hkeys' i h0 hi (hkeys i h0 hi hv), hctr.trans hctr', hrec'.trans hrec,
    ⟨k1'.trans k1, k2'.trans k2, k3'.trans k3, k4'.trans k4, k5'.trans k5⟩⟩
  have hp : present t c = present s c := by
    unfold present
    rw [k2]
  rcases hch' c hc with e | e
  · rw [e]
    exact hch c hc
  · rw [hp] at e
    exact .inr e

/-- A change that leaves the domains, the channels, the keys and the locks alone. -/
theorem offKept_of_frame {s t : State}
    (frame : t = { s with hif := { s.hif with funcs := t.hif.funcs }, time := t.time, rings := t.rings, journal := t.journal, upl := t.upl
                          rad := t.rad, sup := t.sup, fw := t.fw, evt := t.evt, sent := t.sent, free := t.free })
    (counters : SameCounters s t) (locks : t.upl.lock = s.upl.lock ∧ t.rad.lock = s.rad.lock ∧ t.sup.lock = s.sup.lock) : OffKept s t := by
  obtain ⟨l1, l2, l3⟩ := locks
  refine ⟨?_, fun d h => ?_, fun h => ?_, ?_, ?_, ⟨?_, l1, ?_, l2, l3⟩, fun c _ => ?_, fun i _ _ h => ?_, counters, ?_, ?_⟩
  · rw [frame]
    exact ⟨rfl, rfl⟩
  · have hp : t.pwr = s.pwr := by rw [frame]
    simpa only [domOn, hp] using h
  · rw [frame]
    exact h
  · rw [frame]
  · rw [frame]
  · rw [frame]
  · rw [frame]
  · have hc : t.chans = s.chans := by rw [frame]
    rw [chanAt, hc]
    exact .inl rfl
  · have hs : t.sec = s.sec := by rw [frame]
    rw [slotAt, hs]
    exact h
  · rw [frame]
  · rw [frame]
    exact ⟨rfl, rfl, rfl, rfl, rfl⟩

theorem setUpl_offKept (s : State) (f : Upl → Upl) (h : (f s.upl).lock = s.upl.lock) : OffKept s (setUpl s f) :=
  offKept_of_frame rfl (sameCounters_of_rings rfl) ⟨h, rfl, rfl⟩

theorem setRad_offKept (s : State) (f : Rad → Rad) (h : (f s.rad).lock = s.rad.lock) : OffKept s (setRad s f) :=
  offKept_of_frame rfl (sameCounters_of_rings rfl) ⟨rfl, h, rfl⟩

theorem emitOut_offKept (s : State) (o : Out) : OffKept s (emitOut s o) := offKept_of_frame rfl (sameCounters_of_rings rfl) ⟨rfl, rfl, rfl⟩

theorem EvtOnly.offKept {s t : State} (h : EvtOnly s t) : OffKept s t := by
  unfold EvtOnly at h
  refine offKept_of_frame ?_ (sameCounters_of_rings (by rw [h])) ⟨by rw [h], by rw [h], by rw [h]⟩
  rw [h]

theorem endEmission_offKept (s : State) (r : Nat) (q : Word) (f : Outcome → Outcome) : OffKept s (endEmission s r q f) := by
  refine offKept_of_frame ?_ (endEmission_sameCounters s r q f) (by simp)
  apply State.eq_of_parts <;> simp

theorem emitBurstWork_offKept (cut : Bool) (s : State) (x : BurstWork) : OffKept s (emitBurstWork cut s x) := by
  unfold emitBurstWork
  split
  · exact .refl s
  · refine offKept_of_frame ?_ (emitWork_ringWork s _ _ _).2 (by simp)
    rw [emitWork_frame]

theorem foldl_offKept {α : Type} (f : State → α → State) (h : ∀ s a, OffKept s (f s a)) (l : List α) (s : State) : OffKept s (l.foldl f s) := by
  induction l generalizing s with
  | nil => exact .refl s
  | cons a l ih => exact (h s a).trans (ih (f s a))

theorem cutUplink_offKept (s : State) : OffKept s (cutUplink s) := by
  unfold cutUplink
  split
  · exact .refl s
  · exact ((setUpl_offKept s _ rfl).trans (emitOut_offKept _ _)).trans (foldl_offKept (emitBurstWork true) (emitBurstWork_offKept true) _ _)

theorem logEntry_offKept (s : State) (e : SupLog) : OffKept s (logEntry s e) := by
  have logged : ∀ u : Sup, u.lock = s.sup.lock → OffKept s { s with sup := u } :=
    fun u hu => offKept_of_frame rfl (sameCounters_of_rings rfl) ⟨rfl, rfl, hu⟩
  have raised : ∀ u : Sup, u.lock = s.sup.lock → OffKept s (raiseC { s with sup := u } Src.supplyLogLost 0xFF 1) :=
    fun u hu => (logged u hu).trans (raiseC_evtOnly _ _ _ _).offKept
  unfold logEntry
  dsimp only
  split
  · exact raised _ rfl
  · exact logged _ rfl

theorem dyingGaspEnd_offKept (s : State) : OffKept s (dyingGaspEnd s) := by
  have drawn : OffKept s (drew s) := offKept_of_frame rfl (sameCounters_of_rings rfl) ⟨rfl, rfl, rfl⟩
  unfold dyingGaspEnd
  dsimp only
  split
  · exact (drawn.trans (logEntry_offKept _ _)).trans (setUpl_offKept _ _ rfl)
  · exact .refl s

theorem radEnd_offKept (s : State) (t : RadTx) (acked noAck stop : Bool) : OffKept s (radEnd s t acked noAck stop) := by
  have h : OffKept s (endEmission (setTx s none) 7 t.seq (fun _ => radOutcome t acked noAck stop)) :=
    (setRad_offKept s _ rfl).trans (endEmission_offKept _ _ _ _)
  unfold radEnd
  dsimp only
  split
  · exact (h.trans (setRad_offKept _ _ rfl)).trans (raiseC_evtOnly _ _ _ _).offKept
  · exact h

theorem radCut_offKept (s : State) : OffKept s (radCut s) := by
  unfold radCut
  dsimp only
  refine OffKept.trans ?_ (setRad_offKept _ _ rfl)
  split
  · exact .refl s
  · split
    · exact .refl s
    · split
      · exact foldl_offKept (fun t (w : Work) => endEmission t 7 w.seq Outcome.cut) (fun t w => endEmission_offKept t 7 w.seq _) _ s
      · exact radEnd_offKept s _ _ _ _

theorem uplSettled_offKept (s : State) : OffKept s (uplSettled s) := by
  obtain ⟨x, src, h⟩ := uplSettled_frame s
  rw [h]
  exact offKept_of_frame rfl (sameCounters_of_rings rfl) ⟨rfl, rfl, rfl⟩

/-- A domain's own power, switched off. -/
theorem modPwr_offKept (s : State) (f : Pwr → Pwr) (hp : (f s.pwr).state = s.pwr.state ∧ (f s.pwr).testEn = s.pwr.testEn)
    (h : ∀ d, domOn s d = false → domOn (modPwr s f) d = false) : OffKept s (modPwr s f) :=
  ⟨hp, h, fun h => h, rfl, rfl, ⟨rfl, rfl, rfl, rfl, rfl⟩, fun _ _ => .inl rfl, fun _ _ _ h => h, sameCounters_of_rings rfl, rfl,
    ⟨rfl, rfl, rfl, rfl, rfl⟩⟩


theorem radOff_off (s : State) : OffKept s (radOff s) ∧ domOn (radOff s) .rad = false := by
  refine ⟨((radCut_offKept s).trans (setRad_offKept _ _ rfl)).trans (modPwr_offKept _ (fun p => { p with domRad := false }) ⟨rfl, rfl⟩ fun d => ?_), rfl⟩
  cases d <;> simp [domOn]

theorem uplOff_off (s : State) : OffKept s (uplOff s) ∧ domOn (uplOff s) .upl = false := by
  unfold uplOff
  dsimp only
  generalize hu : setUpl (cutUplink (dyingGaspEnd s)) uplKept = u
  have hkept : OffKept s u := by
    rw [← hu]
    exact ((dyingGaspEnd_offKept s).trans (cutUplink_offKept _)).trans (setUpl_offKept _ _ rfl)
  have hoff : OffKept u (modPwr u (fun p => { p with domUpl := false })) := by
    refine modPwr_offKept _ _ ⟨rfl, rfl⟩ fun d => ?_
    cases d <;> simp [domOn]
  exact ⟨(hkept.trans hoff).trans (uplSettled_offKept _), (uplSettled_offKept _).off .upl rfl⟩

theorem coreOff_off (s : State) : OffKept s (coreOff s) ∧ domOn (coreOff s) .core = false := by
  have hfw : OffKept s (modFw s fwDevice) := offKept_of_frame rfl (sameCounters_of_rings rfl) ⟨rfl, rfl, rfl⟩
  refine ⟨hfw.trans (modPwr_offKept _ (fun p => { p with domCore := false }) ⟨rfl, rfl⟩ fun d => ?_), rfl⟩
  cases d <;> simp [domOn]

/-- Channels that change with their states kept or at reset. -/
theorem chans_offKept (s : State) (v : Vector Chan 24)
    (h : ∀ c, c < 24 → (vget v c (Chan.reset false)).tab.state = (chanAt s c).tab.state ∨
      (vget v c (Chan.reset false)).tab.state = if present s c then .off else .absent) : OffKept s { s with chans := v } :=
  ⟨⟨rfl, rfl⟩, fun _ h => h, fun h => h, rfl, rfl, ⟨rfl, rfl, rfl, rfl, rfl⟩, h, fun _ _ _ h => h, sameCounters_of_rings rfl, rfl,
    ⟨rfl, rfl, rfl, rfl, rfl⟩⟩

theorem feedOff_off (s : State) : OffKept s (feedOff s) ∧ domOn (feedOff s) .feed = false := by
  have hchans := chans_offKept s (vmapIdx (fun _ k => { k with feed := feedDomainOff k.feed }) s.chans) fun c hc => by
    rw [vget_vmapIdx, if_pos hc]
    exact .inl rfl
  refine ⟨hchans.trans (modPwr_offKept _ (fun p => { p with domFeed := false }) ⟨rfl, rfl⟩ fun d => ?_), rfl⟩
  cases d <;> simp [domOn]

/-- A change of the key store. -/
theorem setSec_frame (s : State) (f : Sec → Sec) : setSec s f = { s with sec := f s.sec } := rfl

theorem keysOff_cases (s : State) : keysOff s = s ∨ ∃ slots ctxs, keysOff s = { s with sec := { s.sec with slots := slots, ctxs := ctxs } } ∧
    ∀ i, 0 < i → i < 64 → (vget slots i Slot.empty).valid = false := by
  by_cases h : keeps s 0 = true
  · exact .inl (if_pos h)
  · refine .inr ⟨vmapIdx (fun i k => if i = 0 then k else clearSlot k) s.sec.slots, Vector.replicate 8 CvCtx.empty, ?_, fun i h0 hi => ?_⟩
    · refine (if_neg h).trans ?_
      rw [setSec_frame, clearKeys, setSec_frame]
    · rw [vget_vmapIdx (e := Slot.empty), if_pos hi, if_neg (by omega)]
      rfl

theorem keysOff_frame (s : State) : keysOff s = { s with sec := (keysOff s).sec } := by
  rcases keysOff_cases s with h | ⟨slots, ctxs, h, -⟩ <;> rw [h]

theorem keysOff_offKept (s : State) : OffKept s (keysOff s) := by
  rcases keysOff_cases s with h | ⟨slots, ctxs, h, hgone⟩
  · rw [h]
    exact .refl s
  · rw [h]
    exact ⟨⟨rfl, rfl⟩, fun _ h => h, fun h => h, rfl, rfl, ⟨rfl, rfl, rfl, rfl, rfl⟩, fun _ _ => .inl rfl, fun i h0 hi _ => hgone i h0 hi,
      sameCounters_of_rings rfl, rfl, ⟨rfl, rfl, rfl, rfl, rfl⟩⟩

theorem busLost_offKept (s : State) (hw : (busLost s).hif.windows = s.hif.windows) (hl : (busLost s).hif.lock = s.hif.lock) :
    OffKept s (busLost s) := by
  obtain ⟨⟨frame, counters, epoch, link, -⟩, -, -⟩ := busLost_lost s
  generalize busLost s = t at frame counters epoch link hw hl ⊢
  refine ⟨?_, fun d h => ?_, fun _ => link, ?_, hw, ⟨hl, ?_, ?_, ?_, ?_⟩, fun c _ => ?_, fun i _ _ h => ?_, counters, ?_, ?_⟩
  · rw [frame]
    exact ⟨rfl, rfl⟩
  · rw [frame]
    exact h
  · rw [frame]
  · rw [frame]
  · rw [frame]
  · rw [frame]
  · rw [frame]
  · rw [frame]
    exact .inl rfl
  · rw [frame]
    exact h
  · rw [frame]
  · rw [frame]
    exact ⟨rfl, rfl, epoch, rfl, rfl⟩

theorem busLost_windows (s : State) : (busLost s).hif.windows = s.hif.windows ∧ (busLost s).hif.lock = s.hif.lock := by
  simp [busLost, resetConfig, setVfs, loseLink]

/-- Rings that change with their counters kept. -/
theorem rings_offKept (s : State) (v : Vector Ring 160) (h : SameCounters s { s with rings := v }) : OffKept s { s with rings := v } :=
  ⟨⟨rfl, rfl⟩, fun _ h => h, fun h => h, rfl, rfl, ⟨rfl, rfl, rfl, rfl, rfl⟩, fun _ _ => .inl rfl, fun _ _ _ h => h, h, rfl,
    ⟨rfl, rfl, rfl, rfl, rfl⟩⟩

/-- The rings' registers and the keys go with the HIF domain. -/
def hifCleared (u : State) : State := keysOff (mapRings u (fun _ g => ringHifOff g))

theorem hifCleared_offKept (u : State) : OffKept u (hifCleared u) :=
  (rings_offKept u _ (mapRings_sameCounters u (fun _ g => ringHifOff g) fun _ _ => ⟨rfl, rfl, rfl, rfl, rfl, rfl, rfl, rfl⟩)).trans
    (keysOff_offKept _)

/-- The registers of the HIF domain go with its power; what the AON settings of a state keep stays. -/
def hifGone (s u : State) : State :=
  { u with
    hif := { hifDevice u.hif with lock := u.hif.lock, windows := u.hif.windows, fetchStop := u.hif.fetchStop }
    chans := vmapIdx (fun c k => chanHifOff (keeps s 2) (present s c) (sesDefault s) k) u.chans
    xc := { xcDevice u.xc with flow := if keeps s 3 then u.xc.flow else Xc.reset.flow }
    sec := { u.sec with ops := [], port := [], ksSel := 0 }
    evt := { evtDevice u.evt with logSel := 0 }
    ledger := { u.ledger with foreign_ := false, sealInvalid := false, recordLost := false, writeErr := false }
    pwr := { u.pwr with domHif := false } }

theorem hifGone_offKept {s u : State} (h : u.part = s.part) : OffKept u (hifGone s u) := by
  refine ⟨⟨rfl, rfl⟩, fun d => ?_, fun e => e, rfl, rfl, ⟨rfl, rfl, rfl, rfl, rfl⟩, fun c hc => .inr ?_, fun _ _ _ h => h,
    sameCounters_of_rings rfl, rfl, ⟨rfl, rfl, rfl, rfl, rfl⟩⟩
  · cases d <;> simp [domOn, hifGone]
  · have hp : present u c = present s c := by
      unfold present
      rw [h]
    rw [chanAt_vmapIdx (s := u) (t := hifGone s u) (f := fun c k => chanHifOff (keeps s 2) (present s c) (sesDefault s) k) rfl hc, hp]
    rfl

theorem hifOff_eq (s : State) : hifOff s = hifGone s (hifCleared (busLost s)) := rfl

theorem hifOff_off (s : State) : OffKept s (hifOff s) ∧ domOn (hifOff s) .hif = false ∧ (hifOff s).hif.linkUp = false := by
  have lost := busLost_offKept s (busLost_windows s).1 (busLost_windows s).2
  have link := (busLost_lost s).1.link
  rw [hifOff_eq]
  generalize busLost s = u at lost link ⊢
  have cleared := hifCleared_offKept u
  generalize hifCleared u = v at cleared ⊢
  have gone : OffKept v (hifGone s v) := hifGone_offKept (cleared.kept.2.1.trans lost.kept.2.1)
  exact ⟨(lost.trans cleared).trans gone, rfl, gone.link (cleared.link link)⟩

/-- The domains other than the two halves of the channels. -/
def wholeDomain : Domain → Bool
  | .aon | .chla | .chlb => false
  | _ => true

/-- A domain that is switched off keeps what a DEVICE reset left of the others. -/
theorem switchOff_off (s : State) {d : Domain} (hd : wholeDomain d = true) : OffKept s (switchOff s d) ∧ domOn (switchOff s d) d = false := by
  unfold switchOff
  split
  · cases d with
    | aon => cases hd
    | chla => cases hd
    | chlb => cases hd
    | hif => exact ⟨(hifOff_off s).1, (hifOff_off s).2.1⟩
    | core => exact coreOff_off s
    | upl => exact uplOff_off s
    | rad => exact radOff_off s
    | feed => exact feedOff_off s
  next h => exact ⟨.refl s, eq_false_of_ne_true h⟩

/-! ### The halves of the channels -/

/-- What the islands of the channels, switched off, leave of the link and the domains. -/
structure HalvesOnly (s t : State) : Prop where
  testEn : t.pwr.testEn = s.pwr.testEn
  link : t.hif.linkUp = s.hif.linkUp

theorem HalvesOnly.refl (s : State) : HalvesOnly s s := ⟨rfl, rfl⟩

theorem HalvesOnly.trans {s t u : State} (h : HalvesOnly s t) (h' : HalvesOnly t u) : HalvesOnly s u :=
  ⟨h'.testEn.trans h.testEn, h'.link.trans h.link⟩

theorem CutKept.halvesOnly {s t : State} (h : CutKept s t) : HalvesOnly s t := by
  have e := h.frame
  exact ⟨by rw [e], by rw [e]⟩

theorem leaveSleep_halvesOnly (s : State) : HalvesOnly s (leaveSleep s) := by
  unfold leaveSleep
  split
  · have e := setPwr_frame s .run
    exact ⟨by rw [setPwr_pwr], by rw [e]⟩
  · exact .refl s

theorem setChSt_halvesOnly (s : State) (c : Nat) (st : ChSt) : HalvesOnly s (setChSt s c st) := by
  have entered : ∀ u, HalvesOnly s u → HalvesOnly s (raise (setTab u c (fun t => { t with state := st })) Src.chState c 0) :=
    fun u h => h.trans ((setChan_cutKept u c _).halvesOnly.trans (raise_cutKept _ _ _ _).halvesOnly)
  unfold setChSt
  split
  · exact .refl s
  · dsimp only
    split
    · exact entered _ (leaveSleep_halvesOnly s)
    · exact entered _ (.refl s)

theorem setIsland_halvesOnly (s : State) (c : Nat) (on : Bool) : HalvesOnly s (setIsland s c on) := ⟨rfl, rfl⟩

theorem islandOff_halvesOnly (s : State) (c : Nat) : HalvesOnly s (islandOff s c) := by
  have off : HalvesOnly s (enterOff (stopWork s c) c) := by
    unfold enterOff
    exact ((((stopWork_cutKept s c).trans (stopLine_cutKept _ c)).trans (setChan_cutKept _ c _)).halvesOnly.trans
      (setIsland_halvesOnly _ c false)).trans (setChSt_halvesOnly _ c .off)
  unfold islandOff
  split
  · exact off.trans (setChan_cutKept _ c _).halvesOnly
  · exact .refl s

theorem halfOff_halvesOnly (s : State) (b : Bool) : HalvesOnly s (halfOff s b) := by
  have islands : ∀ (l : List Nat) (u : State), HalvesOnly u (l.foldl (fun t i => islandOff t (if b then i + 12 else i)) u) := fun l => by
    induction l with
    | nil => exact fun u => .refl u
    | cons i l ih => exact fun u => (islandOff_halvesOnly u _).trans (ih _)
  have last : ∀ u : State, HalvesOnly u (modPwr u (fun p => if b then { p with domChlb := false } else { p with domChla := false })) :=
    fun u => by cases b <;> exact ⟨rfl, rfl⟩
  exact (islands (List.range 12) s).trans (last _)

theorem halfOff_domOn (s : State) (b : Bool) : domOn (halfOff s b) (if b then .chlb else .chla) = false := by
  unfold halfOff
  dsimp only
  generalize (List.range 12).foldl (fun t i => islandOff t (if b then i + 12 else i)) s = u
  cases b <;> rfl

theorem switchOff_chla (s : State) : HalvesOnly s (switchOff s .chla) ∧ domOn (switchOff s .chla) .chla = false := by
  unfold switchOff
  split
  · exact ⟨halfOff_halvesOnly s false, halfOff_domOn s false⟩
  next h => exact ⟨.refl s, eq_false_of_ne_true h⟩

theorem switchOff_chlb (s : State) : HalvesOnly s (switchOff s .chlb) := by
  unfold switchOff
  split
  · exact halfOff_halvesOnly s true
  · exact .refl s

/-! ### TEST_EN -/

/-- The domains that hold no half of the channels, switched off in their order. -/
def wholesOff (s : State) : State := [Domain.rad, .feed, .upl, .core, .hif].foldl switchOff s

theorem wholesOff_off (s : State) : OffKept s (wholesOff s) ∧ ∀ d, wholeDomain d = true → domOn (wholesOff s) d = false := by
  obtain ⟨k1, o1⟩ := switchOff_off s (d := .rad) rfl
  obtain ⟨k2, o2⟩ := switchOff_off (switchOff s .rad) (d := .feed) rfl
  obtain ⟨k3, o3⟩ := switchOff_off (switchOff (switchOff s .rad) .feed) (d := .upl) rfl
  obtain ⟨k4, o4⟩ := switchOff_off (switchOff (switchOff (switchOff s .rad) .feed) .upl) (d := .core) rfl
  obtain ⟨k5, o5⟩ := switchOff_off (switchOff (switchOff (switchOff (switchOff s .rad) .feed) .upl) .core) (d := .hif) rfl
  refine ⟨(((k1.trans k2).trans k3).trans k4).trans k5, fun d hd => ?_⟩
  cases d with
  | aon => cases hd
  | chla => cases hd
  | chlb => cases hd
  | hif => exact o5
  | core => exact k5.off _ o4
  | upl => exact k5.off _ (k4.off _ o3)
  | feed => exact k5.off _ (k4.off _ (k3.off _ o2))
  | rad => exact k5.off _ (k4.off _ (k3.off _ (k2.off _ o1)))

/-- The halves of the channels switched off. -/
def halvesOff (s : State) : State := switchOff (switchOff s .chlb) .chla

theorem holdDomains_eq (s : State) : holdDomains s = wholesOff (halvesOff (busReset s .linkOrHot)) := rfl

theorem halvesOff_halvesOnly (s : State) : HalvesOnly s (halvesOff s) ∧ domOn (halvesOff s) .chla = false :=
  ⟨(switchOff_chlb s).trans (switchOff_chla _).1, (switchOff_chla _).2⟩

theorem halvesOff_of_off {s : State} (ha : domOn s .chla = false) (hb : domOn s .chlb = false) : halvesOff s = s := by
  have same : ∀ d, domOn s d = false → switchOff s d = s := fun d h => if_neg (by rw [h]; exact Bool.false_ne_true)
  rw [halvesOff, same .chlb hb, same .chla ha]

/-- The domains that are switched off keep what a DEVICE reset left. -/
theorem AfterDeviceReset.offKept {s u t : State} {code : Nat} (h : AfterDeviceReset s u code) (k : OffKept u t) : AfterDeviceReset s t code := by
  obtain ⟨hrun, hcause, hcount, hprof, hwin, ⟨l1, l2, l3, l4, l5⟩, hch, hkeys, hctr, hrec, ⟨k1, k2, k3, k4, k5⟩⟩ := h
  obtain ⟨⟨p, -⟩, -, -, hglb, hwin', ⟨l1', l2', l3', l4', l5'⟩, hch', hkeys', hctr', hrec', ⟨k1', k2', k3', k4', k5'⟩⟩ := k
  refine ⟨p.trans hrun, by rw [hglb, hcause], by rw [hglb, hcount], by rw [hglb, hprof], hwin'.trans hwin,
    ⟨l1'.trans l1, l2'.trans l2, l3'.trans l3, l4'.trans l4, l5'.trans l5⟩, fun c hc => ?_, fun i h0 hi => hkeys' i h0 hi (hkeys i h0 hi),
    hctr.trans hctr', by rw [hrec']; exact hrec, ⟨k1'.trans k1, k2'.trans k2, k3'.trans k3, k4'.trans k4, k5'.trans k5⟩⟩
  have hp : present u c = present s c := by
    unfold present
    rw [k2]
  rcases hch' c hc with e | e
  · rw [e]
    exact hch c hc
  · rw [e, hp]

theorem busReset_link (s : State) (c : ResetCause) : (busReset s c).hif.linkUp = false ∧ (busReset s c).pwr.testEn = s.pwr.testEn := by
  obtain ⟨hlost, hv, hn⟩ := busLost_lost s
  have htest : (busLost s).pwr.testEn = s.pwr.testEn := by rw [hlost.frame]
  cases h : offPath s with
  | true => 
    have e : busReset s c = busLost s := if_pos h
    rw [e]
    exact ⟨hlost.link, htest⟩
  | false =>
    rw [busReset_eq h]
    refine ⟨(resetCause_follows hlost hv hn c).1, ?_⟩
    obtain ⟨hheld, habsorbed, hreset⟩ := resetCause_cases (busLost s) c
    rw [← htest]
    cases hs : (busLost s).sup.sealing with
    | true => rw [hheld hs]; rfl
    | false =>
      cases hr : (busLost s).glb.inReset with
      | true => rw [habsorbed hs hr]
      | false =>
        rw [hreset hs hr]
        exact (resetDevice_domains _ c).2.2

/-- A DEVICE reset of the bus switches both halves of the channels off. -/
theorem busReset_halves {s : State} (h : offPath s = false) (hs : s.sup.sealing = false) (hr : s.glb.inReset = false) (c : ResetCause) :
    domOn (busReset s c) .chla = false ∧ domOn (busReset s c) .chlb = false := by
  have frame := (busLost_lost s).1.frame
  have hs' : (busLost s).sup.sealing = false := by rw [frame]; exact hs
  have hr' : (busLost s).glb.inReset = false := by rw [frame]; exact hr
  rw [busReset_eq h, (resetCause_cases (busLost s) c).2.2 hs' hr']
  obtain ⟨ha, hb, -⟩ := resetDevice_domains (busLost s) c
  exact ⟨ha, hb⟩

theorem holdDomains_follows (s : State) : (holdDomains s).pwr.testEn = s.pwr.testEn ∧ (holdDomains s).hif.linkUp = false ∧
    (∀ d : Domain, d ≠ .aon → d ≠ .chlb → domOn (holdDomains s) d = false) ∧
    (offPath s = false → s.sup.sealing = false → s.glb.inReset = false → domOn (holdDomains s) .chlb = false ∧
      AfterDeviceReset s (holdDomains s) 2) := by
  obtain ⟨hlink, htest⟩ := busReset_link s .linkOrHot
  obtain ⟨half, hchla⟩ := halvesOff_halvesOnly (busReset s .linkOrHot)
  obtain ⟨whole, hoff⟩ := wholesOff_off (halvesOff (busReset s .linkOrHot))
  rw [holdDomains_eq]
  refine ⟨whole.pwr.2.trans (half.testEn.trans htest), whole.link (half.link.trans hlink), fun d h1 h2 => ?_, fun hp hs hr => ?_⟩
  · cases d with
    | aon => exact absurd rfl h1
    | chlb => exact absurd rfl h2
    | chla => exact whole.off _ hchla
    | hif => exact hoff .hif rfl
    | core => exact hoff .core rfl
    | upl => exact hoff .upl rfl
    | rad => exact hoff .rad rfl
    | feed => exact hoff .feed rfl
  · obtain ⟨ha, hb⟩ := busReset_halves hp hs hr .linkOrHot
    obtain ⟨-, -, -, after, -⟩ := busReset_follows hp .linkOrHot
    rw [halvesOff_of_off ha hb] at whole ⊢
    exact ⟨whole.off _ hb, (after hs hr).offKept whole⟩

/-- The domains the sequencer has reached, before the outputs and the feeds follow. -/
def domainsReturned (s : State) : State :=
  let s1 := modPwr s (fun p => { p with domHif := reached s 5, domUpl := reached s 8 })
  if reached s 6 then boot (modPwr s1 (fun p => { p with domCore := true })) else s1

theorem releaseDomains_eq {s : State} (h1 : s.pwr.state ≠ .poweringDown) (h2 : s.pwr.state ≠ .deep) (h3 : s.pwr.state ≠ .off) :
    releaseDomains s = feedPower (uplSettled (domainsReturned s)) := by
  unfold releaseDomains domainsReturned
  cases hst : s.pwr.state with
  | poweringDown => exact absurd hst h1
  | deep => exact absurd hst h2
  | off => exact absurd hst h3
  | run => rfl
  | idle => rfl
  | sleep => rfl
  | entering => rfl
  | waking => rfl

theorem releaseDomains_off {s : State} (h : s.pwr.state = .poweringDown ∨ s.pwr.state = .deep ∨ s.pwr.state = .off) : releaseDomains s = s := by
  unfold releaseDomains
  rcases h with h | h | h <;> rw [h]

theorem domainsReturned_follows (s : State) : (domainsReturned s).pwr.testEn = s.pwr.testEn ∧ (domainsReturned s).pwr.domHif = reached s 5 ∧
    (domainsReturned s).pwr.domUpl = reached s 8 ∧ (reached s 6 = true → (domainsReturned s).pwr.domCore = true) ∧
    (domainsReturned s).rings = s.rings ∧ (domainsReturned s).journal = s.journal := by
  unfold domainsReturned
  dsimp only
  split
  · rw [boot_frame]
    exact ⟨rfl, rfl, rfl, fun _ => rfl, rfl, rfl⟩
  next h => exact ⟨rfl, rfl, rfl, fun e => absurd e h, rfl, rfl⟩

theorem feedPower_work (s : State) : (feedPower s).rings = s.rings ∧ (feedPower s).journal = s.journal := by
  have e := (feedPower_powerSettled s).frame
  exact ⟨by rw [e], by rw [e]⟩

theorem releaseDomains_follows {s : State} (h1 : s.pwr.state ≠ .poweringDown) (h2 : s.pwr.state ≠ .deep) (h3 : s.pwr.state ≠ .off) :
    (releaseDomains s).pwr.testEn = s.pwr.testEn ∧ (releaseDomains s).pwr.domHif = reached s 5 ∧
      (releaseDomains s).pwr.domUpl = reached s 8 ∧ (reached s 6 = true → (releaseDomains s).pwr.domCore = true) ∧
      (releaseDomains s).rings = s.rings ∧ (releaseDomains s).journal = s.journal := by
  obtain ⟨x, src, hu⟩ := uplSettled_frame (domainsReturned s)
  have hwork := feedPower_work (uplSettled (domainsReturned s))
  have follows := domainsReturned_follows s
  rw [releaseDomains_eq h1 h2 h3, feedPower_pwr, hwork.1, hwork.2, hu]
  exact follows

theorem testEn_follows (s : State) (level : Bool) :
    ∃ t, exec (.testEnChange level) s = .next t ∧ t.pwr.testEn = level ∧
      (level = s.pwr.testEn → t = s) ∧
      (level = true → s.pwr.testEn = false → t.hif.linkUp = false ∧
        (∀ d : Domain, d ≠ .aon → d ≠ .chlb → domOn t d = false) ∧
        (offPath s = false → s.sup.sealing = false → s.glb.inReset = false → domOn t .chlb = false ∧ AfterDeviceReset s t 2)) ∧
      (level = false → s.pwr.testEn = true →
        (s.pwr.state = .poweringDown ∨ s.pwr.state = .deep ∨ s.pwr.state = .off →
          t = { s with pwr := { s.pwr with testEn := false } }) ∧
        (s.pwr.state ≠ .poweringDown → s.pwr.state ≠ .deep → s.pwr.state ≠ .off →
          t.pwr.domHif = reached s 5 ∧ t.pwr.domUpl = reached s 8 ∧ (reached s 6 = true → t.pwr.domCore = true) ∧
          t.rings = s.rings ∧ t.journal = s.journal)) := by
  have levelled : ∀ u : State, (modPwr u (fun p => { p with testEn := u.pwr.testEn })) = u := fun _ => rfl
  refine ⟨testEnOp s level, rfl, ?_⟩
  cases hen : s.pwr.testEn with
  | true =>
    cases level with
    | true =>
      have e : testEnOp s true = s := by
        unfold testEnOp
        rw [hen]
        exact (congrArg (fun b => modPwr s (fun p => { p with testEn := b })) hen.symm).trans (levelled s)
      rw [e]
      exact ⟨hen, fun _ => rfl, nofun, nofun⟩
    | false =>
      have e : testEnOp s false = releaseDomains (modPwr s (fun p => { p with testEn := false })) := by
        unfold testEnOp
        rw [hen]
      rw [e]
      refine ⟨?_, nofun, nofun, fun _ _ => ⟨fun h => releaseDomains_off (s := modPwr s (fun p => { p with testEn := false })) h,
        fun h1 h2 h3 => (releaseDomains_follows (s := modPwr s (fun p => { p with testEn := false })) h1 h2 h3).2⟩⟩
      by_cases h : s.pwr.state = .poweringDown ∨ s.pwr.state = .deep ∨ s.pwr.state = .off
      · rw [releaseDomains_off (s := modPwr s (fun p => { p with testEn := false })) h]
        rfl
      · obtain ⟨h1, h2, h3⟩ := not_or.1 h |>.imp_right not_or.1
        exact (releaseDomains_follows (s := modPwr s (fun p => { p with testEn := false })) h1 h2 h3).1
  | false =>
    cases level with
    | false =>
      have e : testEnOp s false = s := by
        unfold testEnOp
        rw [hen]
        exact (congrArg (fun b => modPwr s (fun p => { p with testEn := b })) hen.symm).trans (levelled s)
      rw [e]
      exact ⟨hen, fun _ => rfl, nofun, nofun⟩
    | true =>
      have e : testEnOp s true = holdDomains (modPwr s (fun p => { p with testEn := true })) := by
        unfold testEnOp
        rw [hen]
      obtain ⟨htest, hlink, hoff, hreset⟩ := holdDomains_follows (modPwr s (fun p => { p with testEn := true }))
      rw [e]
      refine ⟨htest, nofun, fun _ _ => ⟨hlink, hoff, fun a b c => ?_⟩, nofun⟩
      obtain ⟨hchlb, hrun, hcause, hcount, hprof, hwin, hlock, hch, hkeys, hctr, hrec, hkept⟩ := hreset a b c
      exact ⟨hchlb, hrun, hcause, hcount, hprof, hwin, hlock, hch, hkeys, hctr, hrec, hkept⟩

/-- Settles O9: POWER-ON is the reset state; each cause of a DEVICE reset is followed through the end of work, the clearing of the keys and the
registers, the boot and its recovery; TEST_EN holds the domains off after the reset of the bus and lets those that the sequencer reached return. -/
theorem powerOnAndDeviceResets : Obligations.PowerOnAndDeviceResets :=
  ⟨powerOn_follows, busCauses_follow, hostReset_follows, testEn_follows⟩

end Sys2Proof.Machine


/-! # A VF FLR whose channel was not OFF

The CHANNEL reset puts the configuration space of the channel's VF at its reset values and then the channel into OFF; the change of state is an
occurrence of the channel, whose message waits in the MSI-X pending bits of the VF, because every vector of a function at reset is masked. -/

namespace Sys2Proof.Machine

open Sys2Proof

/-- Channel 0 in READY, owned by VF 1, while configuration requests are served. -/
def readyVf : State :=
  { State.reset with
    hif := { State.reset.hif with crs := false, vfEnable := true, numVfs := 1 }
    chans := vset State.reset.chans 0 { Chan.reset true with tab := { (Chan.reset true).tab with state := .ready } } }

theorem readyVf_takes : configServed readyVf = true ∧ vfOn readyVf 0 = true ∧ present readyVf 0 = true := by decide +kernel

/-- The message of CH_STATE, vector 3 of the VF, is pending after the reset. -/
theorem vfFlrOp_readyVf_pba : (vget (vfFlrOp readyVf 0).hif.funcs 1 (Func.reset 0)).pba = 8 := by decide +kernel

theorem execVfFlr_readyVf : exec (.vfFlr 0) readyVf = .next (vfFlrOp readyVf 0) :=
  congrArg Host.Outcome.next (if_pos readyVf_takes.1)

/-- Refutes O11: a VF FLR of a channel in READY leaves the VF's configuration space with the pending bit of vector 3 set, not at its reset values. -/
theorem not_channelResetsStayInTheirChannel : ¬ Obligations.ChannelResetsStayInTheirChannel := by
  rintro ⟨flr, -, -⟩
  obtain ⟨hserved, hvf, hpresent⟩ := readyVf_takes
  obtain ⟨t, ht, -, -, -, -, -, -, -, hfunc, -⟩ := flr readyVf 0 hserved hvf hpresent
  obtain rfl : vfFlrOp readyVf 0 = t := Host.Outcome.next.inj (execVfFlr_readyVf.symm.trans ht)
  have hpba : (vget (vfFlrOp readyVf 0).hif.funcs 1 (Func.reset 0)).pba = 0 := congrArg Func.pba hfunc
  exact absurd (vfFlrOp_readyVf_pba.symm.trans hpba) (by decide)

end Sys2Proof.Machine

/-! # A recovery's settlement and its RECOVERY_DONE

Settlement walks the rings of the scope: each ring's works are settled by Table 03.5 while the journal stays, so a piece of work that stands open is
returned by the first visit to its ring and keeps its return. RECOVERY_DONE is one record of 32 bytes on ring 1, and the rings that no later recovery
holds become ACTIVE. -/

namespace Sys2Proof.Machine

open Sys2Proof

/-! ### One ring settled -/

/-- What the settlement of a ring's work leaves. -/
structure Settles (s t : State) : Prop where
  frame : t = { s with hif := { s.hif with funcs := t.hif.funcs }, rings := t.rings, chans := t.chans, xc := t.xc, evt := t.evt, sent := t.sent }
  counters : SameCounters s t

theorem Settles.refl (s : State) : Settles s s := ⟨rfl, .refl s⟩

theorem Settles.trans {s t u : State} (h : Settles s t) (h' : Settles t u) : Settles s u := by
  refine ⟨?_, h.counters.trans h'.counters⟩
  have e := h'.frame
  rw [h.frame] at e
  rw [e]

theorem EvtOnly.settles {s t : State} (h : EvtOnly s t) : Settles s t := by
  unfold EvtOnly at h
  refine ⟨?_, sameCounters_of_rings (by rw [h])⟩
  rw [h]

theorem countRxLost_settles (s : State) (r n : Nat) : Settles s (countRxLost s r n) := by
  have counted : ∀ (c : Vector Chan 24) (x : Xc), Settles s { s with chans := c, xc := x } := fun _ _ => ⟨rfl, sameCounters_of_rings rfl⟩
  unfold countRxLost
  split
  · exact .refl s
  · split
    · exact (counted _ s.xc).trans (raiseC_evtOnly _ _ _ _).settles
    · exact (counted s.chans _).trans (raiseC_evtOnly _ _ _ _).settles

theorem setRing_settles (s : State) (r : Nat) (f : Ring → Ring) (h : ∀ g, RingKept g (f g)) : Settles s (setRing s r f) :=
  ⟨rfl, setRing_sameCounters s r f h⟩

/-- The state in which the works of a ring are settled, its undelivered frames counted. -/
def rxCounted (v : Recovery) (s : State) (r : RingNo) : State :=
  if resets v then countRxLost s r.val ((ringAt s r.val).work.filter (fun w => filledBuffer r.val w)).length else s

theorem rxCounted_settles (v : Recovery) (s : State) (r : RingNo) : Settles s (rxCounted v s r) := by
  unfold rxCounted
  split
  · exact countRxLost_settles _ _ _
  · exact .refl s

theorem rxCounted_rings (v : Recovery) (s : State) (r : RingNo) : (rxCounted v s r).rings = s.rings := by
  unfold rxCounted
  split
  · exact countRxLost_rings _ _ _
  · rfl

theorem settleRing_eq (v : Recovery) (s : State) (r : RingNo) : ∃ p, settleRing v s r =
    setRing (setRing (rxCounted v s r) r.val (fun g => { g with work := g.work.map (settleWork s v r.val) })) r.val
      (fun g => { g with lost := g.lost.filter p }) := ⟨_, rfl⟩

theorem settleRing_settles (v : Recovery) (s : State) (r : RingNo) : Settles s (settleRing v s r) := by
  obtain ⟨p, h⟩ := settleRing_eq v s r
  have worked : Settles (rxCounted v s r) (setRing (rxCounted v s r) r.val (fun g => { g with work := g.work.map (settleWork s v r.val) })) :=
    setRing_settles _ _ _ fun _ => ⟨rfl, rfl, rfl, rfl, rfl, rfl, rfl, rfl⟩
  have sifted : ∀ u : State, Settles u (setRing u r.val (fun g => { g with lost := g.lost.filter p })) :=
    fun u => setRing_settles u _ _ fun _ => ⟨rfl, rfl, rfl, rfl, rfl, rfl, rfl, rfl⟩
  rw [h]
  exact ((rxCounted_settles v s r).trans worked).trans (sifted _)

theorem work_settleRing (v : Recovery) (s : State) (r x : RingNo) : (ringAt (settleRing v s r) x.val).work =
    if x = r then (ringAt s x.val).work.map (settleWork s v r.val) else (ringAt s x.val).work := by
  obtain ⟨p, h⟩ := settleRing_eq v s r
  have hring := ringAt_congr (rxCounted_rings v s r)
  rw [h]
  by_cases hx : x = r
  · subst hx
    rw [if_pos rfl, ringAt_setRing_self _ _ _ x.isLt, ringAt_setRing_self _ _ _ x.isLt, hring]
  · have hne : x.val ≠ r.val := fun e => hx (Fin.ext e)
    rw [if_neg hx, ringAt_setRing_ne _ _ _ _ hne, ringAt_setRing_ne _ _ _ _ hne, hring]

/-- Work settled keeps its sequence number. -/
theorem settleWork_seq (s : State) (v : Recovery) (r : Nat) (w : Work) : (settleWork s v r w).seq = w.seq := by
  unfold settleWork
  dsimp only
  split
  · rfl
  split
  · split <;> rfl
  split
  · rfl
  split
  · rfl
  split
  · rfl
  split <;> rfl

/-- Open work of a submission ring is returned RET_RESET by a recovery that loses its queues. -/
theorem settleWork_ret {s : State} {v : Recovery} {r : Nat} {w : Work} (hl : v.lossy = true) (hrx : isRxRing r = false)
    (htrib : isTribRing r = false) (h9 : r ≠ 9) (hj : journalOf s r w.seq = none)
    (hret : w.ret = none ∨ w.ret = some (Outcome.of .retReset 0 0)) : (settleWork s v r w).ret = some (Outcome.of .retReset 0 0) := by
  have h9' : (r == 9) = false := beq_eq_false_iff_ne.2 h9
  rcases hret with h | h <;> simp [settleWork, isRxTrib, hj, hrx, htrib, hl, h9', h]

/-- An open receive buffer stays open. -/
theorem settleWork_rx {s : State} {v : Recovery} {r : Nat} {w : Work} (hrx : isRxRing r = true) (hj : journalOf s r w.seq = none)
    (hret : w.ret = none) : (settleWork s v r w).ret = none := by
  simp [settleWork, hj, hrx, hret, undelivered]

/-! ### The rings of the scope -/

/-- The work of a ring stands with one of two outcomes: open, or the one its settlement gives. -/
def StandsWith (s : State) (r : RingNo) (q : Word) (o : Option Outcome) : Prop :=
  ∃ w, findWork (ringAt s r.val) q = some w ∧ (w.ret = none ∨ w.ret = o)

theorem findWork_settleRing (v : Recovery) (s : State) (r x : RingNo) (q : Word) : findWork (ringAt (settleRing v s r) x.val) q =
    if x = r then (findWork (ringAt s x.val) q).map (settleWork s v r.val) else findWork (ringAt s x.val) q := by
  rw [findWork, work_settleRing]
  split
  · have hp : (fun w : Work => w.seq == q) ∘ settleWork s v r.val = fun w => w.seq == q := by
      funext w
      exact congrArg (· == q) (settleWork_seq s v r.val w)
    rw [List.find?_map, hp]
    rfl
  · rfl

theorem journalOf_settleRing (v : Recovery) (s : State) (r : RingNo) (x : Nat) (q : Word) :
    journalOf (settleRing v s r) x q = journalOf s x q := by
  have e := (settleRing_settles v s r).frame
  rw [journalOf, e]
  rfl

section
variable {v : Recovery} {r : RingNo} {q : Word} {o : Option Outcome}
  (settled : ∀ (s : State) (w : Work), w.seq = q → journalOf s r.val q = none → (w.ret = none ∨ w.ret = o) → (settleWork s v r.val w).ret = o)
include settled

theorem returnedWith_settleRing {s : State} (hj : journalOf s r.val q = none) (h : StandsWith s r q o) (x : RingNo) :
    StandsWith (settleRing v s x) r q o ∧ (x = r ∨ returnedWith s r.val q = o → returnedWith (settleRing v s x) r.val q = o) := by
  obtain ⟨w, hw, hret⟩ := h
  have hfind := findWork_settleRing v s x r q
  by_cases hx : r = x
  · subst hx
    rw [if_pos rfl, hw] at hfind
    have hr := settled s w (seq_of_findWork hw) hj hret
    exact ⟨⟨_, hfind, .inr hr⟩, fun _ => by rw [returnedWith, hfind]; exact hr⟩
  · rw [if_neg hx, hw] at hfind
    refine ⟨⟨w, hfind, hret⟩, fun h => ?_⟩
    rcases h with h | h
    · exact absurd h.symm hx
    · rw [returnedWith, hw] at h
      rw [returnedWith, hfind]
      exact h

theorem returnedWith_settleRings (l : List RingNo) : ∀ {s : State}, journalOf s r.val q = none → StandsWith s r q o →
    (r ∈ l ∨ returnedWith s r.val q = o) → returnedWith (l.foldl (settleRing v) s) r.val q = o := by
  induction l with
  | nil => exact fun _ _ h => h.resolve_left List.not_mem_nil
  | cons x l ih =>
    intro s hj hs h
    obtain ⟨hs', hret⟩ := returnedWith_settleRing settled hj hs x
    refine ih ((journalOf_settleRing v s x _ _).trans hj) hs' ?_
    rcases h with h | h
    · rcases List.mem_cons.1 h with h | h
      · exact .inr (hret (.inl h.symm))
      · exact .inl h
    · exact .inr (hret (.inr h))
end

theorem settleRings_settles (v : Recovery) (l : List RingNo) (s : State) : Settles s (l.foldl (settleRing v) s) := by
  induction l generalizing s with
  | nil => exact .refl s
  | cons x l ih => exact (settleRing_settles v s x).trans (ih _)

theorem work_settleRings (v : Recovery) {r : RingNo} (l : List RingNo) (h : r ∉ l) (s : State) :
    (ringAt (l.foldl (settleRing v) s) r.val).work = (ringAt s r.val).work := by
  induction l generalizing s with
  | nil => rfl
  | cons x l ih =>
    rw [List.mem_cons, not_or] at h
    obtain ⟨hx, hl⟩ := h
    exact (ih hl _).trans ((work_settleRing v s x r).trans (if_neg hx))

/-! ### One recovery settled -/

/-- Records in flight to a link that is down are no longer issued. -/
theorem unissue_settles (s : State) (scope : List RingNo) : Settles s (unissue s scope) := by
  refine ⟨?_, unissue_sameCounters s scope⟩
  apply State.eq_of_parts <;> simp

theorem standsWith_unissue {s : State} {r : RingNo} {q : Word} {o : Option Outcome} (h : StandsWith s r q o) (scope : List RingNo) :
    StandsWith (unissue s scope) r q o := by
  obtain ⟨w, hw, hret⟩ := h
  rw [StandsWith, ringAt_unissue s scope r.isLt]
  unfold unissuedRing findWork
  dsimp only
  split
  · have hp : (fun w : Work => w.seq == q) ∘ (fun w : Work => { w with issued := false }) = fun w => w.seq == q := rfl
    rw [List.find?_map, hp]
    exact ⟨_, congrArg (Option.map _) hw, hret⟩
  · exact ⟨w, hw, hret⟩

/-- The state in which a recovery settles its rings. -/
def settleBase (s : State) (v : Recovery) : State := if s.hif.linkUp then s else unissue s v.scope

theorem settleBase_settles (s : State) (v : Recovery) : Settles s (settleBase s v) := by
  unfold settleBase
  split
  · exact .refl s
  · exact unissue_settles s _

theorem settleBase_up {s : State} (h : s.hif.linkUp = true) (v : Recovery) : settleBase s v = s := if_pos h

theorem standsWith_settleBase {s : State} {r : RingNo} {q : Word} {o : Option Outcome} (h : StandsWith s r q o) (v : Recovery) :
    StandsWith (settleBase s v) r q o := by
  unfold settleBase
  split
  · exact h
  · exact standsWith_unissue h _

/-- The rings of a recovery settled. -/
def settledRings (s : State) (v : Recovery) : State := v.scope.foldl (settleRing v) (settleBase s v)

theorem settledRings_settles (s : State) (v : Recovery) : Settles s (settledRings s v) :=
  (settleBase_settles s v).trans (settleRings_settles v v.scope _)

theorem returnedWith_settledRings {s : State} {v : Recovery} {r : RingNo} {q : Word} {w : Work} {o : Option Outcome} (hr : r ∈ v.scope)
    (hopen : workOpen s r.val q = some w)
    (settled : ∀ (s : State) (w : Work), w.seq = q → journalOf s r.val q = none → (w.ret = none ∨ w.ret = o) → (settleWork s v r.val w).ret = o) :
    returnedWith (settledRings s v) r.val q = o := by
  obtain ⟨hw, hret, hj⟩ := workOpen_eq_some.1 hopen
  have hj' : journalOf (settleBase s v) r.val q = none := by
    rw [journalOf, (settleBase_settles s v).frame]
    exact hj
  exact returnedWith_settleRings settled v.scope hj' (standsWith_settleBase ⟨w, hw, .inl hret⟩ v) (.inl hr)

/-- The epoch raised. -/
def epochRaised (u : State) : State := { u with ledger := { u.ledger with epoch := u.ledger.epoch + 1 } }

/-- The ledger's part of a settlement. -/
def settledLedger (s : State) (v : Recovery) : State :=
  writeHeaders (writeBenches (epochRaised (settledRings s v)) (v.scope.filter (fun r => (ringAt (epochRaised (settledRings s v)) r.val).enable)))

theorem writeHeaders_ledgerActs (s : State) : LedgerActs s (writeHeaders s) := by
  unfold writeHeaders
  split
  · exact (writeHdr_ledgerActs s false).trans (writeHdr_ledgerActs _ true)
  · exact .refl s

theorem settledLedger_acts (s : State) (v : Recovery) : LedgerActs (epochRaised (settledRings s v)) (settledLedger s v) :=
  (foldl_ledgerActs writeBench writeBench_ledgerActs _ _).trans (writeHeaders_ledgerActs _)

theorem settleOne_eq {s : State} {v : Recovery} (h : v.cause = 1) :
    settleOne s v = raise (endReset v (settledLedger s v)) (causeSource v.cause.toNat) (causeScope v) (word v.cause.toNat) := by
  unfold settleOne
  exact if_pos (by rw [h]; decide)

/-- A DEVICE reset's end changes the mark of the reset alone. -/
theorem endReset_frame {s : State} {v : Recovery} (h : v.cause = 1) :
    endReset v s = { s with glb := { s.glb with inReset := s.glb.inReset && !s.hif.linkUp } } := by
  unfold endReset
  rw [h]
  cases s.hif.linkUp with
  | true => simp
  | false => simp

/-- What a settlement of a DEVICE reset's recovery leaves. -/
structure Settlement (s u t : State) : Prop where
  rings : ∀ r, (ringAt t r).work = (ringAt u r).work
  counters : SameCounters s t
  epoch : t.ledger.epoch = s.ledger.epoch + 1
  glb : t.glb.inReset = (s.glb.inReset && !s.hif.linkUp)
  kept : t.journal = s.journal ∧ t.datum = s.datum ∧ t.sec = s.sec

theorem settledLedger_settlement (s : State) (v : Recovery) : (∀ r, (ringAt (settledLedger s v) r).work = (ringAt (settledRings s v) r).work) ∧
    SameCounters s (settledLedger s v) ∧ (settledLedger s v).ledger.epoch = s.ledger.epoch + 1 ∧ (settledLedger s v).glb = s.glb ∧
    (settledLedger s v).hif.linkUp = s.hif.linkUp ∧ (settledLedger s v).journal = s.journal ∧ (settledLedger s v).datum = s.datum ∧
    (settledLedger s v).sec = s.sec := by
  have h := settledRings_settles s v
  have acts := settledLedger_acts s v
  have counters : SameCounters (settledRings s v) (epochRaised (settledRings s v)) := sameCounters_of_rings rfl
  refine ⟨acts.work, (h.counters.trans counters).trans acts.counters, ?_⟩
  have frame := acts.frame
  have base := h.frame
  generalize settledLedger s v = t at frame ⊢
  generalize settledRings s v = u at frame base
  rw [frame, epochRaised, base]
  exact ⟨rfl, rfl, rfl, rfl, rfl, rfl⟩

theorem settleOne_settlement {s : State} {v : Recovery} (h : v.cause = 1) : Settlement s (settledRings s v) (settleOne s v) := by
  obtain ⟨hwork, hctr, hepoch, hglb, hlink, hj, hd, hs⟩ := settledLedger_settlement s v
  have hrings : (settleOne s v).rings = (settledLedger s v).rings := by
    rw [settleOne_eq h, raise_rings, endReset_frame h]
  refine ⟨fun r => ?_, hctr.trans (sameCounters_of_rings hrings), ?_, ?_, ?_⟩
  · rw [ringAt_congr hrings]
    exact hwork r
  · rw [settleOne_eq h, raise_ledger, endReset_frame h]
    exact hepoch
  · rw [settleOne_eq h, raise_glb, endReset_frame h, ← hglb, ← hlink]
  · rw [settleOne_eq h, raise_journal, raise_datum, raise_sec, endReset_frame h]
    exact ⟨hj, hd, hs⟩

theorem settleFirst_eq {s : State} {v : Recovery} (hv : maySettle s v = true) (before_ rest : List Recovery)
    (hb : ∀ u, u ∈ before_ → maySettle s u = false) (done : List Recovery) :
    settleFirst s done (before_ ++ v :: rest) = { settleOne s v with recov := done ++ before_ ++ { v with settled := true } :: rest } := by
  induction before_ generalizing done with
  | nil =>
    rw [List.append_nil]
    exact if_pos hv
  | cons u l ih =>
    have hu : maySettle s u = false := hb u List.mem_cons_self
    have e : settleFirst s done (u :: l ++ v :: rest) = settleFirst s (done ++ [u]) (l ++ v :: rest) := if_neg (by rw [hu]; exact Bool.false_ne_true)
    rw [e, ih (fun x hx => hb x (List.mem_cons_of_mem _ hx)), List.append_assoc done [u] l]
    rfl

theorem recoverySettle_follows (s : State) (before_ rest : List Recovery) (v : Recovery) (hrec : s.recov = before_ ++ v :: rest)
    (hb : ∀ u, u ∈ before_ → maySettle s u = false) (hv : maySettle s v = true) (hcause : v.cause = 1) (hlossy : v.lossy = true) :
    ∃ t, exec .recoverySettle s = .next t ∧ t.ledger.epoch = s.ledger.epoch + 1 ∧ SameCounters s t ∧
      t.recov = before_ ++ { v with settled := true } :: rest ∧ (s.hif.linkUp = true → t.glb.inReset = false) ∧ t.journal = s.journal ∧
      t.datum = s.datum ∧ t.sec = s.sec ∧
      (∀ (r : RingNo) (q : Word) (w : Work), r ∈ v.scope → isRxRing r.val = false → isTribRing r.val = false → r.val ≠ 9 →
        workOpen s r.val q = some w → returnedWith t r.val q = some (Outcome.of .retReset 0 0)) ∧
      (∀ (r : RingNo) (q : Word) (w : Work), r ∈ v.scope → isRxRing r.val = true → workOpen s r.val q = some w →
        returnedWith t r.val q = none) ∧
      (∀ (r : RingNo), s.hif.linkUp = true → r ∉ v.scope → (ringAt t r.val).work = (ringAt s r.val).work) := by
  obtain ⟨hwork, hctr, hepoch, hglb, hj, hd, hs⟩ := settleOne_settlement (s := s) hcause
  have hret (r : RingNo) (q : Word) : returnedWith (settleOne s v) r.val q = returnedWith (settledRings s v) r.val q := by
    simp only [returnedWith, findWork, hwork]
  have e : exec .recoverySettle s = .next { settleOne s v with recov := before_ ++ { v with settled := true } :: rest } := by
    have h := settleFirst_eq hv before_ rest hb []
    rw [← hrec, List.nil_append] at h
    exact congrArg Host.Outcome.next h
  refine ⟨_, e, hepoch, hctr.trans (sameCounters_of_rings rfl), rfl, fun hl => ?_, hj, hd, hs, fun r q w hr hrx htrib h9 hopen => ?_,
    fun r q w hr hrx hopen => ?_, fun r hl hr => ?_⟩
  · rw [hglb, hl, Bool.not_true, Bool.and_false]
  · refine (hret r q).trans (returnedWith_settledRings hr hopen fun t x hx hjx hstands => ?_)
    rw [← hx] at hjx
    exact settleWork_ret hlossy hrx htrib h9 hjx hstands
  · refine (hret r q).trans (returnedWith_settledRings hr hopen fun t x hx hjx hstands => ?_)
    rw [← hx] at hjx
    exact settleWork_rx hrx hjx (hstands.elim id id)
  · refine (hwork r.val).trans ?_
    rw [settledRings, work_settleRings v v.scope hr, settleBase_up hl]

/-! ### RECOVERY_DONE -/

/-- A write of up to 128 bytes inside one page is one request. -/
theorem writeRequests_one (s : State) (f addr : Nat) {b : List Byte} (h0 : 0 < b.length) (h128 : b.length ≤ 128) (hpage : addr % 4096 + b.length ≤ 4096) :
    writeRequests s f addr b = [.memWrite f addr b] := by
  have hm : b.length ≤ maxPayload s := by
    unfold maxPayload
    split <;> omega
  obtain ⟨n, hn⟩ : ∃ n, b.length = n + 1 := ⟨b.length - 1, by omega⟩
  have hk : min (n + 1) (min (maxPayload s) (4096 - addr % 4096)) = n + 1 := by omega
  have hpieces : pieces b.length (maxPayload s) addr b.length = [(addr, b.length)] := by
    rw [hn, pieces, if_neg (Nat.succ_ne_zero n)]
    dsimp only
    rw [hk, Nat.sub_self]
    cases n <;> rfl
  rw [writeRequests, hpieces]
  simp

theorem recoveryDoneBytes_length (s : State) (v : Recovery) (phase : Nat) : (recoveryDoneBytes s v phase).length = 32 := by
  simp [recoveryDoneBytes, recordBytes, bytesLE_length]

/-- A slot of a ring lies inside a page. -/
theorem slotAddr_page (g : Ring) (w : Word) : slotAddr g w % 4096 + 32 ≤ 4096 := by
  unfold slotAddr
  omega

/-- A record counted toward the interrupt of ring 1. -/
theorem countRecord_one (s : State) : OnlyRing s (countRecord s 1 true) 1 ∧ (∃ n, ringAt (countRecord s 1 true) 1 = { ringAt s 1 with modCnt := n }) ∧
    s.sent <:+ (countRecord s 1 true).sent := by
  have marked : ∀ n, OnlyRing s (setRing s 1 (fun g => { g with modCnt := n })) 1 ∧
      ringAt (setRing s 1 (fun g => { g with modCnt := n })) 1 = { ringAt s 1 with modCnt := n } :=
    fun n => ⟨setRing_onlyRing s 1 _, ringAt_setRing_self _ _ _ (by decide)⟩
  have e : countRecord s 1 true =
      if modFires (ringAt s 1) ((ringAt s 1).modCnt + 1) then
        sendMsix (setRing s 1 (fun g => { g with modCnt := 0 })) (ringOwner s 1, (ringAt s 1).vector.toNat)
      else setRing s 1 (fun g => { g with modCnt := (ringAt s 1).modCnt + 1 }) := rfl
  rw [e]
  split
  · obtain ⟨h1, h2⟩ := marked 0
    refine ⟨h1.trans (onlyRing_of_rings 1 (sendMsix_rings _ _)), ⟨0, ?_⟩, sendMsix_sent (setRing s 1 _) _⟩
    rw [ringAt_sendMsix, h2]
  · obtain ⟨h1, h2⟩ := marked ((ringAt s 1).modCnt + 1)
    exact ⟨h1, ⟨_, h2⟩, List.suffix_refl _⟩

/-- A record issued on ring 1. -/
theorem issueRecord_one (s : State) (addr : Nat) (x : Issued) (hirq : x.irq = true) : OnlyRing s (issueRecord s 1 addr x) 1 ∧
    (ringAt (issueRecord s 1 addr x) 1).unacked = (ringAt s 1).unacked ++ [x] ∧
    (ringAt (issueRecord s 1 addr x) 1).enable = (ringAt s 1).enable ∧
    writeRequests s 0 addr x.bytes ⊆ (issueRecord s 1 addr x).sent := by
  have hset : ringAt (setRing s 1 (fun g => { unstall g with unacked := g.unacked ++ [x] })) 1 =
      { unstall (ringAt s 1) with unacked := (ringAt s 1).unacked ++ [x] } := ringAt_setRing_self _ _ _ (by decide)
  have hen : (unstall (ringAt s 1)).enable = (ringAt s 1).enable := by
    unfold unstall
    split <;> rfl
  obtain ⟨honly, ⟨n, hring⟩, hsent⟩ :=
    countRecord_one (sendWrite (setRing s 1 (fun g => { unstall g with unacked := g.unacked ++ [x] })) 0 addr x.bytes)
  have e : issueRecord s 1 addr x =
      countRecord (sendWrite (setRing s 1 (fun g => { unstall g with unacked := g.unacked ++ [x] })) 0 addr x.bytes) 1 true := by
    rw [← hirq]
    rfl
  rw [e]
  refine ⟨((setRing_onlyRing s 1 _).trans (onlyRing_of_rings 1 (sendWrite_rings _ _ _ _))).trans honly, ?_, ?_, fun o ho => ?_⟩
  · rw [hring]
    exact congrArg Ring.unacked hset
  · rw [hring]
    exact (congrArg Ring.enable hset).trans hen
  · exact hsent.subset (List.mem_append_left _ ho)

/-- The first settled recovery, once no event of its cause waits. -/
theorem nextDone_eq {s : State} {v : Recovery} (hv : v.settled = true) (hw : causeWaits s v = false) (before_ rest : List Recovery)
    (hb : ∀ u, u ∈ before_ → u.settled = false) (l : List Recovery) :
    nextDone s l (before_ ++ v :: rest) = some (v, l.reverse ++ (before_ ++ rest)) := by
  induction before_ generalizing l with
  | nil => rw [List.nil_append, List.nil_append, nextDone, if_pos hv, if_neg (by rw [hw]; exact Bool.false_ne_true)]
  | cons u b ih =>
    have hu : u.settled = false := hb u List.mem_cons_self
    rw [List.cons_append, nextDone, if_neg (by rw [hu]; exact Bool.false_ne_true), ih (fun x hx => hb x (List.mem_cons_of_mem _ hx)),
      List.reverse_cons, List.append_assoc]
    rfl

/-- A ring of an ended recovery. -/
theorem ringAt_activate (s : State) (v : Recovery) (rest : List Recovery) (r : RingNo) : ringAt (activate s v rest) r.val =
    if v.scope.any (fun x => x.val == r.val) && !rest.any (fun u => u.scope.any (fun x => x.val == r.val)) && (ringAt s r.val).enable then
      { ringAt s r.val with state := .active, halted := false }
    else ringAt s r.val := by
  rw [activate, ringAt_mapRings, if_pos r.isLt]

/-- Rings that become ACTIVE leave the rest of the terminal alone. -/
theorem activate_kept (s : State) (v : Recovery) (rest : List Recovery) : (activate s v rest).recov = s.recov ∧
    (activate s v rest).journal = s.journal ∧ (activate s v rest).chans = s.chans ∧ (activate s v rest).sent = s.sent := by
  simp [activate]

theorem scope_any (scope : List RingNo) (r : RingNo) : scope.any (fun x => x.val == r.val) = decide (r ∈ scope) := by
  rw [Bool.eq_iff_iff, List.any_eq_true, decide_eq_true_eq]
  refine ⟨fun ⟨x, hx, e⟩ => ?_, fun h => ⟨r, h, beq_self_eq_true _⟩⟩
  rwa [← Fin.ext (beq_iff_eq.1 e)]

theorem recoveryDone_follows (s : State) (before_ rest : List Recovery) (v : Recovery) (hrec : s.recov = before_ ++ v :: rest)
    (hb : ∀ u, u ∈ before_ → u.settled = false) (hv : v.settled = true) (hfrozen : frozen s = false) (hcmds : v.cmds = [])
    (hrefresh : v.refresh = []) (hen : (ringAt s 1).enable = true) (hmaster : mayMaster s 0 = true) (hwaits : causeWaits s v = false)
    (hfree : slotFree (ringAt s 1) (nextRecord (ringAt s 1)) = true)
    (hwin : inWindows s 0 true (slotAddr (ringAt s 1) (nextRecord (ringAt s 1))) 32 = true) :
    ∃ t, exec .recoveryDone s = .next t ∧ t.recov = before_ ++ rest ∧ t.journal = s.journal ∧ t.chans = s.chans ∧
      (ringAt t 1).unacked = (ringAt s 1).unacked ++
        [{ src := .recoveryDone, slot := nextRecord (ringAt s 1)
           bytes := recoveryDoneBytes s v (phaseBit (ringAt s 1).log2.toNat (nextRecord (ringAt s 1))), irq := true }] ∧
      Out.memWrite 0 (slotAddr (ringAt s 1) (nextRecord (ringAt s 1)))
        (recoveryDoneBytes s v (phaseBit (ringAt s 1).log2.toNat (nextRecord (ringAt s 1)))) ∈ t.sent ∧
      (∀ r : RingNo, r ∈ v.scope → (∀ u, u ∈ before_ ++ rest → r ∉ u.scope) → (ringAt s r.val).enable = true →
        (ringAt t r.val).state = .active ∧ (ringAt t r.val).halted = false) ∧
      (∀ r : RingNo, r ∉ v.scope → r.val ≠ 1 → ringAt t r.val = ringAt s r.val) := by
  generalize hbytes : recoveryDoneBytes s v (phaseBit (ringAt s 1).log2.toNat (nextRecord (ringAt s 1))) = bytes
  generalize haddr : slotAddr (ringAt s 1) (nextRecord (ringAt s 1)) = addr at hwin ⊢
  generalize hx : ({ src := .recoveryDone, slot := nextRecord (ringAt s 1), bytes := bytes, irq := true } : Issued) = x
  have hxb : x.bytes = bytes := by rw [← hx]
  obtain ⟨honly, hun, hren, hsent⟩ := issueRecord_one s addr x (by rw [← hx])
  have hnext : nextDone s [] s.recov = some (v, before_ ++ rest) := by
    rw [hrec, nextDone_eq hv hwaits before_ rest hb]
    rfl
  have e : recoveryDoneOp s = activate (withRecov (issueRecord s 1 addr x) (before_ ++ rest)) v (before_ ++ rest) := by
    unfold recoveryDoneOp
    rw [hnext]
    dsimp only
    rw [haddr, hbytes, hx, hen, hmaster, hfrozen, hfree, hwin, hcmds, hrefresh]
    rfl
  have hlen : x.bytes.length = 32 := by rw [hxb, ← hbytes, recoveryDoneBytes_length]
  have hreq : writeRequests s 0 addr x.bytes = [.memWrite 0 addr bytes] := by
    rw [writeRequests_one s 0 addr (by omega) (by omega) (by rw [hlen, ← haddr]; exact slotAddr_page _ _), hxb]
  generalize hu : issueRecord s 1 addr x = u at *
  have hkept : u.journal = s.journal ∧ u.chans = s.chans := by
    rw [← hu]
    simp
  have hring (r : RingNo) := ringAt_activate (withRecov u (before_ ++ rest)) v (before_ ++ rest) r
  obtain ⟨krec, kj, kc, ks⟩ := activate_kept (withRecov u (before_ ++ rest)) v (before_ ++ rest)
  refine ⟨_, congrArg Host.Outcome.next e, krec, kj.trans hkept.1, kc.trans hkept.2, ?_, ?_, fun r hr hothers hre => ?_, fun r hr h1 => ?_⟩
  · refine Eq.trans ?_ hun
    rw [show (1 : Nat) = (⟨1, by decide⟩ : RingNo).val from rfl, hring]
    split <;> rfl
  · rw [hreq] at hsent
    rw [ks]
    exact hsent (List.mem_singleton_self _)
  · have henu : (ringAt (withRecov u (before_ ++ rest)) r.val).enable = true := by
      change (ringAt u r.val).enable = true
      by_cases h1 : r.val = 1
      · rw [h1, hren]
        exact hen
      · rw [honly r.val h1]
        exact hre
    have hnone : (before_ ++ rest).any (fun u => u.scope.any (fun x => x.val == r.val)) = false := by
      rw [List.any_eq_false]
      intro w hw
      rw [scope_any, decide_eq_false (hothers w hw)]
      exact Bool.false_ne_true
    have h := hring r
    rw [scope_any, decide_eq_true hr, hnone, Bool.not_false, Bool.and_self, Bool.true_and, if_pos henu] at h
    rw [h]
    exact ⟨rfl, rfl⟩
  · rw [hring r, scope_any, decide_eq_false hr]
    exact honly r.val h1

/-- Settles O14: a settlement walks its rings, whose open works are returned at the first visit and keep that return, and raises the epoch before the
ledger's writes; RECOVERY_DONE is issued on ring 1 and frees the rings no other recovery holds. -/
theorem recoverySettledAndReported : Obligations.RecoverySettledAndReported :=
  ⟨recoverySettle_follows, recoveryDone_follows⟩

end Sys2Proof.Machine

/-! # The ledger's images and its adoption

An image is a row of little-endian fields closed by the CRC-32C of what comes before: reading a field skips the fields before it. Adoption judges the
records ring by ring; what it changes are the rings, the ledger's own marks, and what an occurrence changes. -/

namespace Sys2Proof.Machine

open Sys2Proof

/-! ### Fields of an image -/

theorem ofLE_bytesLE (n v : Nat) : ofLE (bytesLE n v) = v % 256 ^ n := by
  induction n generalizing v with
  | zero => simp [bytesLE, ofLE, Nat.mod_one]
  | succ n ih =>
    have hpow : v % 256 ^ (n + 1) = v % 256 + 256 * (v / 256 % 256 ^ n) := by rw [Nat.pow_succ, Nat.mul_comm, Nat.mod_mul]
    rw [bytesLE, ofLE, ih, BitVec.toNat_ofNat, hpow]

theorem leAt_skip {a : List Byte} {off : Nat} (h : a.length ≤ off) (b : List Byte) (n : Nat) : leAt (a ++ b) off n = leAt b (off - a.length) n := by
  rw [leAt, leAt, List.drop_append, List.drop_eq_nil_of_le h, List.nil_append]

theorem leAt_field (n v : Nat) (b : List Byte) : leAt (bytesLE n v ++ b) 0 n = v % 256 ^ n := by
  rw [leAt, List.drop_zero, List.take_left' (bytesLE_length n v), ofLE_bytesLE]

theorem leAt_field_end (n v : Nat) : leAt (bytesLE n v) 0 n = v % 256 ^ n := by
  have h := leAt_field n v []
  rwa [List.append_nil] at h

theorem leAt_skip_field {k off : Nat} (h : k ≤ off) (v : Nat) (b : List Byte) (n : Nat) : leAt (bytesLE k v ++ b) off n = leAt b (off - k) n := by
  rw [leAt_skip (by rw [bytesLE_length]; exact h), bytesLE_length]

/-- A field is a field of its low bytes and one of its high bytes. -/
theorem bytesLE_add (m n v : Nat) : bytesLE (m + n) v = bytesLE m v ++ bytesLE n (v / 256 ^ m) := by
  induction m generalizing v with
  | zero => simp [bytesLE]
  | succ m ih =>
    rw [Nat.succ_add, bytesLE, bytesLE, ih, List.cons_append, Nat.pow_succ, Nat.div_div_eq_div_mul, Nat.mul_comm 256]

/-! ### The closure -/

theorem closed_length (b : List Byte) : (closed b).length = b.length + 4 := by
  rw [closed, List.length_append, bytesLE_length]

/-! ### The header -/

/-- The fields of a header before its closure. -/
def hdrFields (s : State) : List Byte :=
  bytesLE 4 0x4744454C ++ (bytesLE 2 1 ++ (bytesLE 2 s.part.number ++ (bytesLE 8 s.glb.unitId.toNat
    ++ (bytesLE 4 s.ledger.hdrGen.toNat ++ (bytesLE 4 s.ledger.epoch.toNat ++ (bytesLE 1 s.ledger.sealState.code ++ ([0]
    ++ (bytesLE 2 s.ledger.spillCount.toNat ++ (bytesLE 4 s.ledger.spillCheck.toNat ++ (bytesLE 4 s.ledger.sealCount.toNat ++ zeros 216))))))))))

theorem hdrBytes_eq (s : State) : hdrBytes s = closed (hdrFields s) := by
  simp only [hdrBytes, hdrFields, List.append_assoc]

theorem hdrFields_length (s : State) : (hdrFields s).length = 252 := by
  simp only [hdrFields, zeros, List.length_append, bytesLE_length, List.length_replicate, List.length_singleton]

theorem hdrBytes_valid (s : State) : hdrValid (hdrBytes s) = true ∧ (hdrBytes s).length = 256 := by
  have hlen := hdrFields_length s
  have hmagic : leAt (closed (hdrFields s)) 0 4 = 0x4744454C := by
    rw [closed, hdrFields, List.append_assoc, leAt_field]
    rfl
  have hversion : leAt (closed (hdrFields s)) 4 2 = 1 := by
    rw [closed, hdrFields, List.append_assoc, leAt_skip_field (by decide), List.append_assoc, leAt_field]
    rfl
  rw [hdrBytes_eq]
  refine ⟨?_, by rw [closed_length, hlen]⟩
  rw [hdrValid, hmagic, hversion, closureOk_closed _ _ (by rw [hlen])]
  rfl

/-! ### The benchmark record -/

/-- The fields of a benchmark record before its closure. -/
def benchFields (s : State) (r : Nat) : List Byte :=
  bytesLE 2 r ++ (bytesLE 1 (ringKind r) ++ (bytesLE 1 (ringAt s r).log2.toNat ++ (bytesLE 4 (ringAt s r).gen.toNat
    ++ (bytesLE 8 ((ringAt s r).base.toNat * 4096) ++ (bytesLE 4 (if hostWritten r then (ringAt s r).tail else (ringAt s r).head).toNat
    ++ (bytesLE 4 (if hostWritten r then (ringAt s r).acc else (ringAt s r).cpl).toNat ++ (bytesLE 4 (ringAt s r).cpl.toNat
    ++ (bytesLE 4 (ringAt s r).emitted.toNat ++ (bytesLE 4 s.ledger.epoch.toNat ++ (bytesLE 4 (ringCfgImage (ringAt s r) r).toNat
    ++ (bytesLE 4 (ringModImage (ringAt s r)).toNat ++ (bytesLE 1 (flagAt (ringAt s r).enable 0) ++ (bytesLE 1 0
    ++ (bytesLE 2 (ringAt s r).lifetime.toNat ++ zeros 12))))))))))))))

theorem benchBytes_eq (s : State) (r : Nat) : benchBytes s r = closed (benchFields s r) := by
  simp only [benchBytes, benchFields, List.append_assoc]
  rfl

theorem benchFields_length (s : State) (r : Nat) : (benchFields s r).length = 60 := by
  simp only [benchFields, zeros, List.length_append, bytesLE_length, List.length_replicate]

theorem benchBytes_valid (s : State) {r : Nat} (hr : r < 160) : recValid (benchBytes s r) r = true ∧ (benchBytes s r).length = 64 := by
  have hlen := benchFields_length s r
  have hring : leAt (closed (benchFields s r)) 0 2 = r := by
    rw [closed, benchFields, List.append_assoc, leAt_field]
    omega
  rw [benchBytes_eq]
  refine ⟨?_, by rw [closed_length, hlen]⟩
  rw [recValid, hring, closureOk_closed _ _ (by rw [hlen])]
  simp

/-- The fields a ring is re-created from, as a benchmark record holds them. -/
structure BenchRead (s : State) (r : Nat) (b : List Byte) : Prop where
  log2 : leAt b 3 1 = (ringAt s r).log2.toNat
  gen : leAt b 4 4 = (ringAt s r).gen.toNat
  base : leAt b 8 8 = (ringAt s r).base.toNat * 4096
  place : leAt b 16 4 = (if hostWritten r then (ringAt s r).tail else (ringAt s r).head).toNat
  acc : leAt b 20 4 = (if hostWritten r then (ringAt s r).acc else (ringAt s r).cpl).toNat
  cpl : leAt b 24 4 = (ringAt s r).cpl.toNat
  emitted : leAt b 28 4 = (ringAt s r).emitted.toNat
  vector : leAt b 38 1 = (ringAt s r).vector.toNat
  modCount : leAt b 40 2 = (ringAt s r).modCount.toNat
  modTime : leAt b 42 2 = (ringAt s r).modTime.toNat
  lifetime : leAt b 46 2 = (ringAt s r).lifetime.toNat

theorem ringCfgImage_vector (g : Ring) (r : Nat) : (ringCfgImage g r).toNat / 256 ^ 2 % 256 ^ 1 = g.vector.toNat := by
  unfold ringCfgImage word flagAt fieldAt
  have hv := g.vector.isLt
  have hl := g.log2.isLt
  have hk : ringKind r % 2 ^ 2 < 4 := Nat.mod_lt _ (by decide)
  rw [BitVec.toNat_ofNat]
  split <;> omega

theorem ringModImage_count (g : Ring) : (ringModImage g).toNat % 256 ^ 2 = g.modCount.toNat := by
  unfold ringModImage word fieldAt
  have hv := g.modTime.isLt
  have hl := g.modCount.isLt
  rw [BitVec.toNat_ofNat]
  omega

theorem ringModImage_time (g : Ring) : (ringModImage g).toNat / 256 ^ 2 % 256 ^ 2 = g.modTime.toNat := by
  unfold ringModImage word fieldAt
  have hv := g.modTime.isLt
  have hl := g.modCount.isLt
  rw [BitVec.toNat_ofNat]
  omega

theorem benchBytes_read (s : State) (r : Nat) : BenchRead s r (benchBytes s r) := by
  have hbase := (ringAt s r).base.isLt
  have hlog2 := (ringAt s r).log2.isLt
  have hvec := ringCfgImage_vector (ringAt s r) r
  have hcount := ringModImage_count (ringAt s r)
  have htime := ringModImage_time (ringAt s r)
  have word4 (w : Word) : w.toNat % 256 ^ 4 = w.toNat := Nat.mod_eq_of_lt w.isLt
  have half2 (w : Half) : w.toNat % 256 ^ 2 = w.toNat := Nat.mod_eq_of_lt w.isLt
  have hcfg : bytesLE 4 (ringCfgImage (ringAt s r) r).toNat = bytesLE 2 (ringCfgImage (ringAt s r) r).toNat ++
      (bytesLE 1 ((ringCfgImage (ringAt s r) r).toNat / 256 ^ 2) ++ bytesLE 1 ((ringCfgImage (ringAt s r) r).toNat / 256 ^ 2 / 256 ^ 1)) :=
    (bytesLE_add 2 2 _).trans (congrArg _ (bytesLE_add 1 1 _))
  have hmod : bytesLE 4 (ringModImage (ringAt s r)).toNat = bytesLE 2 (ringModImage (ringAt s r)).toNat ++
      bytesLE 2 ((ringModImage (ringAt s r)).toNat / 256 ^ 2) := bytesLE_add 2 2 _
  rw [benchBytes_eq]
  unfold closed benchFields
  rw [hcfg, hmod]
  constructor <;> simp (disch := decide) only [List.append_assoc, leAt_skip_field, Nat.reduceSub, leAt_field, word4, half2]
  case log2 => omega
  case base => omega
  case vector => exact hvec
  case modCount => exact hcount
  case modTime => exact htime

theorem ofNat_eq {n : Nat} {k : Nat} {b : BitVec n} (h : k = b.toNat) : BitVec.ofNat n k = b := by
  rw [h, BitVec.ofNat_toNat, BitVec.setWidth_eq]

theorem ringFromRec_bench (s : State) (r : Nat) (g : Ring) :
    (ringFromRec g r (benchBytes s r)).base = (ringAt s r).base ∧
    (ringFromRec g r (benchBytes s r)).log2 = (ringAt s r).log2 ∧
    (ringFromRec g r (benchBytes s r)).vector = (ringAt s r).vector ∧
    (ringFromRec g r (benchBytes s r)).modTime = (ringAt s r).modTime ∧
    (ringFromRec g r (benchBytes s r)).modCount = (ringAt s r).modCount ∧
    (ringFromRec g r (benchBytes s r)).lifetime = (ringAt s r).lifetime ∧
    (ringFromRec g r (benchBytes s r)).cpl = (ringAt s r).cpl ∧
    (ringFromRec g r (benchBytes s r)).emitted = (ringAt s r).emitted ∧
    (ringFromRec g r (benchBytes s r)).gen = (ringAt s r).gen ∧
    (hostWritten r = true → (ringFromRec g r (benchBytes s r)).tail = (ringAt s r).tail ∧
      (ringFromRec g r (benchBytes s r)).acc = (ringAt s r).acc) ∧
    (hostWritten r = false → (ringFromRec g r (benchBytes s r)).head = (ringAt s r).head) := by
  obtain ⟨hlog2, hgen, hbase, hplace, hacc, hcpl, hem, hvec, hcount, htime, hlife⟩ := benchBytes_read s r
  generalize benchBytes s r = b at hlog2 hgen hbase hplace hacc hcpl hem hvec hcount htime hlife ⊢
  refine ⟨ofNat_eq ?_, ofNat_eq hlog2, ofNat_eq hvec, ofNat_eq htime, ofNat_eq hcount, ofNat_eq hlife, ofNat_eq hcpl, ofNat_eq hem, ofNat_eq hgen,
    fun hw => ?_, fun hw => ?_⟩
  · rw [hbase]
    exact Nat.mul_div_cancel _ (by decide)
  · rw [hw] at hplace hacc
    unfold ringFromRec
    rw [hw]
    exact ⟨ofNat_eq hplace, ofNat_eq hacc⟩
  · rw [hw] at hplace
    unfold ringFromRec
    rw [hw]
    exact ofNat_eq hplace

/-! ### The adoption's steps -/

/-- What the adoption of the rings and their work leaves. -/
def Adopts (s t : State) : Prop :=
  t = { s with hif := s.hif.faulted t.hif, rings := t.rings, journal := t.journal
               ledger := { s.ledger with recordLost := t.ledger.recordLost }, evt := t.evt, sent := t.sent, free := t.free }

theorem Adopts.refl (s : State) : Adopts s s := rfl

theorem Adopts.trans {s t u : State} (h : Adopts s t) (h' : Adopts t u) : Adopts s u := by
  unfold Adopts at h h' ⊢
  rw [h] at h'
  rw [h']
  rfl

theorem foldl_adopts {α : Type} (f : State → α → State) (h : ∀ s a, Adopts s (f s a)) (l : List α) (s : State) : Adopts s (l.foldl f s) := by
  induction l generalizing s with
  | nil => exact .refl s
  | cons a l ih => exact (h s a).trans (ih _)

theorem EvtOnly.adopts {s t : State} (h : EvtOnly s t) : Adopts s t := by
  unfold EvtOnly at h
  unfold Adopts
  rw [h]
  rfl

theorem setRing_adopts (s : State) (r : Nat) (f : Ring → Ring) : Adopts s (setRing s r f) := rfl

theorem sendRead_adopts (s : State) (f a n : Nat) : Adopts s (sendRead s f a n) := rfl

theorem adoptAdd_adopts (s : State) (r : RingNo) (n : Word) (d : Desc) (st : Stage) (ret : Option Outcome) : Adopts s (adoptAdd s r n d st ret) := rfl

theorem latchFault_adopts (s : State) (kind ring fn addr : Nat) : Adopts s (latchFault s kind ring fn addr) := by
  unfold latchFault
  split
  · exact .refl s
  · rfl

theorem ringWindowFault_adopts (s : State) (r a : Nat) : Adopts s (ringWindowFault s r a) := by
  unfold ringWindowFault
  exact ((setRing_adopts s r _).trans (latchFault_adopts _ _ _ _ _)).trans (raise_evtOnly _ _ _ _).adopts

theorem adoptRing_adopts (img : LedgerImage) (s : State) (r : RingNo) : Adopts s (adoptRing img s r) := by
  have lost : Adopts s { s with ledger := { s.ledger with recordLost := true } } := rfl
  unfold adoptRing
  split
  · exact lost.trans (raise_evtOnly _ _ _ _).adopts
  · split
    · exact .refl s
    · split
      · exact setRing_adopts s _ _
      · split
        · exact setRing_adopts s _ _
        · exact .refl s

theorem adoptLost_adopts (invalid : Bool) (r : RingNo) (s : State) (n : Word) : Adopts s (adoptLost invalid r s n) := by
  have drawn : Adopts s (drew s) := rfl
  exact drawn.trans (adoptAdd_adopts _ _ _ _ _ _)

theorem adoptTrib_adopts (img : LedgerImage) (invalid : Bool) (r : RingNo) (s : State) (n : Word) : Adopts s (adoptTrib img invalid r s n) := by
  unfold adoptTrib
  dsimp only
  split
  · exact (ringWindowFault_adopts s _ _).trans (adoptLost_adopts _ _ _ _)
  · have sent := sendRead_adopts s (ringOwner s r.val) (slotAddr (ringAt s r.val) n) 32
    generalize sendRead s (ringOwner s r.val) (slotAddr (ringAt s r.val) n) 32 = u at sent ⊢
    refine sent.trans ?_
    split
    · split
      · exact adoptAdd_adopts _ _ _ _ _ _
      · exact adoptLost_adopts _ _ _ _
    · exact adoptLost_adopts _ _ _ _

theorem adoptWork_adopts (img : LedgerImage) (invalid : Bool) (r : RingNo) (s : State) (n : Word) : Adopts s (adoptWork img invalid r s n) := by
  have drawn : Adopts s (drew s) := rfl
  unfold adoptWork
  split
  · exact drawn.trans (adoptAdd_adopts _ _ _ _ _ _)
  · split
    · exact adoptTrib_adopts img invalid r s n
    · exact adoptLost_adopts invalid r s n

theorem adoptRingWork_adopts (img : LedgerImage) (invalid : Bool) (s : State) (r : RingNo) : Adopts s (adoptRingWork img invalid s r) :=
  (setRing_adopts s _ _).trans (foldl_adopts (adoptWork img invalid r) (adoptWork_adopts img invalid r) _ _)

theorem adoptSpilled_adopts (s : State) (b : List Byte) : Adopts s (adoptSpilled s b) := by
  have journalled : ∀ (u : State) (l : List JEntry), Adopts u { u with journal := l } := fun _ _ => rfl
  unfold adoptSpilled
  dsimp only
  split
  · exact .refl s
  · exact Adopts.trans (t := setWork s _ _ _) (setRing_adopts s _ _) (journalled _ _)

/-- The spilled outcomes of a header. -/
def spillOf (img : LedgerImage) (h : List Byte) : List Byte := img.spill.take (32 * leAt h 26 2)

/-- A SEALED header with whole spilled outcomes. -/
def spillGood (img : LedgerImage) (h : List Byte) : Bool :=
  leAt h 24 1 == 2 && decide (leAt h 26 2 ≤ 256) && leAt h 28 4 == crc32c (spillOf img h)

/-- A header that gives no guarantee. -/
def headerInvalid (img : LedgerImage) (h : List Byte) : Bool := !(leAt h 24 1 == 3 || spillGood img h)

/-- The ledger's registers as an adopted header gives them. -/
def headerTaken (s : State) (img : LedgerImage) (h : List Byte) : State :=
  { s with ledger := { s.ledger with
      enable := true, adopting := false, active := true, sealed := false, sealState := .running
      failed := s.ledger.failed.filter (fun x => x != .adoptRead), waiting := []
      epoch := word (leAt h 20 4), hdrGen := word (leAt h 16 4), sealCount := word (leAt h 32 4)
      spillCount := 0, spillCheck := 0
      foreign_ := s.ledger.foreign_ || decide (leAt h 8 8 ≠ s.glb.unitId.toNat)
      sealInvalid := s.ledger.sealInvalid || headerInvalid img h } }

/-- A header that gives no guarantee is an occurrence. -/
def headerMarked (s : State) (img : LedgerImage) (h : List Byte) : State :=
  if headerInvalid img h then raise (headerTaken s img h) Src.sealInvalid 0xFF 0 else headerTaken s img h

/-- The rings and the work that a ledger's records give. -/
def recordsTaken (s : State) (img : LedgerImage) (invalid : Bool) : State :=
  (allRings.filter (fun r => recreates s img r && hostWritten r.val)).foldl (adoptRingWork img invalid) (allRings.foldl (adoptRing img) s)

/-- The ledger adopted under a header, before its recovery. -/
def ledgerTaken (s : State) (img : LedgerImage) (h : List Byte) : State :=
  if spillGood img h then
    (chunks 32 (leAt h 26 2) (spillOf img h)).foldl adoptSpilled (recordsTaken (headerMarked s img h) img (headerInvalid img h))
  else recordsTaken (headerMarked s img h) img (headerInvalid img h)

theorem recordsTaken_adopts (s : State) (img : LedgerImage) (invalid : Bool) : Adopts s (recordsTaken s img invalid) :=
  (foldl_adopts (adoptRing img) (adoptRing_adopts img) _ s).trans
    (foldl_adopts (adoptRingWork img invalid) (adoptRingWork_adopts img invalid) _ _)

theorem headerMarked_adopts (s : State) (img : LedgerImage) (h : List Byte) : Adopts (headerTaken s img h) (headerMarked s img h) := by
  unfold headerMarked
  split
  · exact (raise_evtOnly _ _ _ _).adopts
  · exact .refl _

theorem ledgerTaken_adopts (s : State) (img : LedgerImage) (h : List Byte) : Adopts (headerTaken s img h) (ledgerTaken s img h) := by
  have records := (headerMarked_adopts s img h).trans (recordsTaken_adopts _ img (headerInvalid img h))
  unfold ledgerTaken
  split
  · exact records.trans (foldl_adopts adoptSpilled adoptSpilled_adopts _ _)
  · exact records

/-- The adoption of a ledger with a valid header. -/
theorem adoptNow_taken {s : State} {img : LedgerImage} {h : List Byte}
    (hl : laterOf img.hdrA img.hdrB (hdrValid img.hdrA) (hdrValid img.hdrB) 16 = some h) :
    adoptNow s img = startRecovery (ledgerTaken s img h)
      (allRings.filter (fun r => (ringAt (ledgerTaken s img h) r.val).enable)) 0x04 0xFF false [] [] := by
  unfold adoptNow
  rw [hl]
  rfl

/-- An adoption begun. -/
def adoptionBegun (s : State) : State := { s with ledger := { s.ledger with enable := true, adopting := true } }

theorem execLedgerAdopt_eq {s : State} {who : Requester} {res : XferResult} {img : LedgerImage} (hwho : reachesAll who = true)
    (hoff : ledgerOff s = true) (hwf : img.wf = true) : exec (.ledgerAdopt who res img) s = .next (adoptRead s res img) := by
  have e : exec (.ledgerAdopt who res img) s = execLedgerAdopt who res img s := rfl
  rw [e, execLedgerAdopt, if_neg (by simp [imageOk, hwf]), hwho, hoff]
  rfl

theorem adoptRead_waits {s : State} (hm : mayMaster s 0 = false) (res : XferResult) (img : LedgerImage) :
    adoptRead s res img = ledgerWait (adoptionBegun s) .adoptRead := by
  unfold adoptRead
  dsimp only
  rw [hm]
  rfl

/-- The request of the adoption's read. -/
def adoptionSent (s : State) : State := sendRead (adoptionBegun s) 0 (ledgAddr s 0) 0x7200

theorem adoptRead_reads {s : State} (hm : mayMaster s 0 = true) (hw : inWindows s 0 false (ledgAddr s 0) 0x7200 = true) (res : XferResult)
    (img : LedgerImage) : adoptRead s res img = if res = .ok then adoptNow (adoptionSent s) img
      else ledgerFault (latchFault (adoptionSent s) (xferKind res) 0xFE 0 (ledgAddr s 0)) .adoptRead true := by
  unfold adoptRead
  dsimp only
  rw [if_neg (by rw [hm]; exact Bool.false_ne_true), if_neg (by rw [hw]; exact Bool.false_ne_true)]
  rfl

/-- The ledger of an adoption that waits or has failed: in state 4. -/
theorem ledgerState_of_adopting {t : State} (h : t.ledger.adopting = true) : ledgerState t = 4 := by
  unfold ledgerState
  exact if_pos h

theorem ledgerWait_waits (s : State) (hs : s.sup.sealing = false) (x : LXfer) : (ledgerWait s x).ledger.waiting.contains x = true := by
  unfold ledgerWait
  rw [if_neg (by rw [hs]; exact Bool.false_ne_true)]
  split
  · assumption
  · simp

theorem ledgerWait_kept (s : State) (x : LXfer) : (ledgerWait s x).rings = s.rings ∧ (ledgerWait s x).sent = s.sent ∧
    (ledgerWait s x).ledger.adopting = s.ledger.adopting := by
  unfold ledgerWait
  split
  · exact ⟨rfl, rfl, rfl⟩
  · split
    · exact ⟨rfl, rfl, rfl⟩
    · exact ⟨rfl, rfl, rfl⟩

/-- What every step of the ledger leaves outside it. -/
theorem LedgerActs.outside {s t : State} (h : LedgerActs s t) : t.chans = s.chans ∧ t.xc = s.xc ∧ t.sec = s.sec ∧ t.datum = s.datum := by
  have e := h.frame
  rw [e]
  exact ⟨rfl, rfl, rfl, rfl⟩

/-- A read that fails holds the ledger. -/
theorem ledgerFault_holds (s : State) (h : s.ledger.adopting = true) (x : LXfer) (isRead : Bool) :
    (ledgerFault s x isRead).ledger.failed.contains x = true ∧ (ledgerFault s x isRead).ledger.adopting = true ∧
      (ledgerFault s x isRead).rings = s.rings := by
  unfold ledgerFault
  dsimp only
  rw [raise_ledger, raise_rings]
  refine ⟨?_, h, rfl⟩
  dsimp only
  split
  · assumption
  · simp

/-- The ledger's registers of a fresh ledger. -/
def freshTaken (s : State) : State :=
  { s with ledger := { s.ledger with
      enable := true, adopting := false, closing := false, sealed := false, sealState := .running,
      failed := s.ledger.failed.filter (fun x => x != .adoptRead), waiting := [],
      spillCount := 0, spillCheck := 0, sealCount := 0 } }

theorem ledgerFresh_acts (s : State) : LedgerActs (freshTaken s) (ledgerFresh s) :=
  (foldl_ledgerActs writeBench writeBench_ledgerActs _ _).trans (writeHeaders_ledgerActs _)

/-- A ledger without a valid header is created fresh. -/
theorem adoptNow_fresh {s : State} (img : LedgerImage) (ha : hdrValid img.hdrA = false) (hb : hdrValid img.hdrB = false) :
    adoptNow s img = ledgerFresh s := by
  unfold adoptNow
  rw [ha, hb]
  rfl

/-- The ledger of an adoption whose read is made. -/
theorem adoptNow_outside (s : State) (img : LedgerImage) : (adoptNow s img).chans = s.chans ∧ (adoptNow s img).xc = s.xc ∧
    (adoptNow s img).sec = s.sec ∧ (adoptNow s img).datum = s.datum := by
  cases hl : laterOf img.hdrA img.hdrB (hdrValid img.hdrA) (hdrValid img.hdrB) 16 with
  | none =>
    have e : adoptNow s img = ledgerFresh s := by
      unfold adoptNow
      rw [hl]
    rw [e]
    exact (ledgerFresh_acts s).outside
  | some h =>
    have taken := ledgerTaken_adopts s img h
    rw [adoptNow_taken hl, startRecovery_chans, startRecovery_xc, startRecovery_sec, startRecovery_datum]
    unfold Adopts at taken
    generalize ledgerTaken s img h = t at taken ⊢
    rw [taken]
    exact ⟨rfl, rfl, rfl, rfl⟩

theorem adoptRead_outside (s : State) (res : XferResult) (img : LedgerImage) (hwin : inWindows s 0 false (ledgAddr s 0) 0x7200 = true) :
    (adoptRead s res img).chans = s.chans ∧ (adoptRead s res img).xc = s.xc ∧ (adoptRead s res img).sec = s.sec ∧
      (adoptRead s res img).datum = s.datum := by
  cases hm : mayMaster s 0 with
  | false =>
    rw [adoptRead_waits hm]
    exact (ledgerWait_ledgerActs (adoptionBegun s) .adoptRead).outside
  | true =>
    rw [adoptRead_reads hm hwin]
    split
    · exact adoptNow_outside (adoptionSent s) img
    · exact ((latchFault_ledgerActs (adoptionSent s) _ _ _ _).trans (ledgerFault_ledgerActs _ _ _)).outside

/-- A ledger whose header is CLOSED. -/
theorem adoptNow_closed {s : State} {img : LedgerImage} {h : List Byte}
    (hl : laterOf img.hdrA img.hdrB (hdrValid img.hdrA) (hdrValid img.hdrB) 16 = some h) (hc : leAt h 24 1 = 3) :
    (adoptNow s img).ledger.epoch = word (leAt h 20 4) ∧ (adoptNow s img).ledger.active = true ∧ (adoptNow s img).ledger.adopting = false ∧
      (adoptNow s img).ledger.sealInvalid = s.ledger.sealInvalid ∧
      (leAt h 8 8 ≠ s.glb.unitId.toNat → (adoptNow s img).ledger.foreign_ = true) ∧ ∃ v, v ∈ (adoptNow s img).recov ∧ v.cause = 4 := by
  have hvalid : headerInvalid img h = false := by
    rw [headerInvalid, hc]
    rfl
  have taken := ledgerTaken_adopts s img h
  unfold Adopts headerTaken at taken
  rw [adoptNow_taken hl, startRecovery_ledger, startRecovery_recov]
  generalize ledgerTaken s img h = t at taken ⊢
  rw [taken, hvalid]
  refine ⟨rfl, rfl, rfl, Bool.or_false _, fun hid => ?_, ⟨_, List.mem_append_right _ (List.mem_singleton_self _), rfl⟩⟩
  dsimp only
  rw [decide_eq_true hid, Bool.or_true]

/-- A ledger created fresh. -/
theorem ledgerFresh_follows {s : State} (hoff : s.ledger.active = false) : (ledgerFresh s).ledger.enable = true ∧
    (ledgerFresh s).ledger.sealState = .running ∧ (ledgerFresh s).ledger.active = false ∧ (ledgerFresh s).ledger.adopting = false ∧
    (ledgerFresh s).recov = s.recov := by
  have h := (ledgerFresh_acts s).frame
  unfold freshTaken at h
  generalize ledgerFresh s = t at h ⊢
  rw [h]
  exact ⟨rfl, rfl, hoff, rfl, rfl⟩

theorem ledgerOff_active {s : State} (h : ledgerOff s = true) : s.ledger.active = false := by
  unfold ledgerOff at h
  cases ha : s.ledger.active with
  | false => rfl
  | true => rw [ha] at h; cases h

theorem ledgerAdopt_follows (s : State) (who : Requester) (res : XferResult) (img : LedgerImage) (hwho : reachesAll who = true)
    (hoff : ledgerOff s = true) (hwf : img.wf = true) (hwin : inWindows s 0 false (ledgAddr s 0) 0x7200 = true) :
    ∃ t, exec (.ledgerAdopt who res img) s = .next t ∧ t.chans = s.chans ∧ t.xc = s.xc ∧ t.sec = s.sec ∧ t.datum = s.datum ∧
      (mayMaster s 0 = false → ledgerState t = 4 ∧ t.rings = s.rings ∧ t.sent = s.sent ∧
        (s.sup.sealing = false → t.ledger.waiting.contains .adoptRead = true)) ∧
      (mayMaster s 0 = true → res ≠ .ok → t.ledger.failed.contains .adoptRead = true ∧ t.ledger.adopting = true ∧ ledgerState t = 4 ∧
        t.rings = s.rings) ∧
      (mayMaster s 0 = true → res = .ok → hdrValid img.hdrA = false → hdrValid img.hdrB = false →
        t.ledger.enable = true ∧ t.ledger.sealState = .running ∧ t.ledger.active = false ∧ t.ledger.adopting = false ∧ t.recov = s.recov) ∧
      (∀ h, mayMaster s 0 = true → res = .ok → laterOf img.hdrA img.hdrB (hdrValid img.hdrA) (hdrValid img.hdrB) 16 = some h → leAt h 24 1 = 3 →
        t.ledger.epoch = word (leAt h 20 4) ∧ t.ledger.active = true ∧ t.ledger.adopting = false ∧
        t.ledger.sealInvalid = s.ledger.sealInvalid ∧
        (leAt h 8 8 ≠ s.glb.unitId.toNat → t.ledger.foreign_ = true) ∧
        ∃ v, v ∈ t.recov ∧ v.cause = 4) := by
  refine ⟨adoptRead s res img, execLedgerAdopt_eq hwho hoff hwf, ?_⟩
  obtain ⟨hc, hx, hs, hd⟩ := adoptRead_outside s res img hwin
  refine ⟨hc, hx, hs, hd, fun hm => ?_, fun hm hres => ?_, fun hm hres ha hb => ?_, fun h hm hres hl hcode => ?_⟩
  · obtain ⟨hr, hsent, hadopt⟩ := ledgerWait_kept (adoptionBegun s) .adoptRead
    rw [adoptRead_waits hm]
    exact ⟨ledgerState_of_adopting hadopt, hr, hsent, fun hseal => ledgerWait_waits (adoptionBegun s) hseal _⟩
  · rw [adoptRead_reads hm hwin, if_neg hres]
    have latched := latchFault_ledgerActs (adoptionSent s) (xferKind res) 0xFE 0 (ledgAddr s 0)
    have hrings : (latchFault (adoptionSent s) (xferKind res) 0xFE 0 (ledgAddr s 0)).rings = s.rings := by
      unfold latchFault
      split <;> rfl
    have hadopt : (latchFault (adoptionSent s) (xferKind res) 0xFE 0 (ledgAddr s 0)).ledger.adopting = true := by
      unfold latchFault
      split <;> rfl
    obtain ⟨hf, ha, hr⟩ := ledgerFault_holds _ hadopt .adoptRead true
    exact ⟨hf, ha, ledgerState_of_adopting ha, hr.trans hrings⟩
  · rw [adoptRead_reads hm hwin, if_pos hres, adoptNow_fresh img ha hb]
    have hactive : s.ledger.active = false := ledgerOff_active hoff
    exact ledgerFresh_follows (s := adoptionSent s) hactive
  · rw [adoptRead_reads hm hwin, if_pos hres]
    exact adoptNow_closed (s := adoptionSent s) hl hcode

/-- Settles O12: images are rows of fields read back one by one under their closure; the adoption's read waits, is held, or is judged ring by ring. -/
theorem ledgerImagesAndAdoption : Obligations.LedgerImagesAndAdoption :=
  ⟨fun s => ⟨(hdrBytes_valid s).1, (hdrBytes_valid s).2, fun _ hr => benchBytes_valid s hr⟩, fun s r g _ => ringFromRec_bench s r g,
    ledgerAdopt_follows⟩

end Sys2Proof.Machine

/-! # Register writes by access type, and the enables of the functions (O47) -/

namespace Sys2Proof.Machine

open Sys2Proof

/-! ### A write that takes place at once -/

/-- A write by the PF or by firmware that is served, and whose domain is ready with no access waiting, takes place at once. -/
theorem registerWrite_served {s : State} {who : Requester} (v : Word) {off : BitVec 22} (hvf : ∀ c, who ≠ .vf c) (htest : s.pwr.testEn = false)
    (hbar : barServes s who = true) (hst : s.pwr.state ≠ .entering) (hwait : s.pwr.waiting = [])
    (hready : domReady s (regDomain off.toNat) = true) (hoff : off.toNat < 0x100000) :
    exec (.registerWrite who off v) s = .next (writeReg s who off.toNat v) := by
  have hview : viewOff who off.toNat = some off.toNat := by
    cases who with
    | vf c => exact absurd rfl (hvf c)
    | _ => simp only [viewOff]; rw [if_neg (by omega), if_pos (by omega)]
  have hnow : waitsFor s { who := who, off := off, value := some v } = none := by
    simp [waitsFor, hview, hready, hwait]
  show Host.Outcome.next (accessOp s _) = _
  simp [accessOp, htest, hbar, hostWrote_of_not_entering s hst, servedAccess, hnow, applyAccess, hview]

/-- A write of an offset with no register does nothing (R12). -/
theorem registerWrite_unheld {s : State} {who : Requester} {off : BitVec 22} {o : Nat} (v : Word) (hbar : barServes s who = true)
    (hst : s.pwr.state ≠ .entering) (hview : viewOff who off.toNat = some o) (hholds : holdsReg s o = false) :
    exec (.registerWrite who off v) s = .next s := by
  have hnow : waitsFor s { who := who, off := off, value := some v } = none := by simp [waitsFor, hview, hholds]
  show Host.Outcome.next (accessOp s _) = _
  simp [accessOp, hbar, hostWrote_of_not_entering s hst, servedAccess, hnow, applyAccess, hview, writeReg, hholds]

theorem tcqOff_holds (s : State) (q : Fin 64) : holdsReg s (0x70400 + 4 * q.val) = true := by
  have h1 : ¬ 0x400000 ≤ 0x70400 + 4 * q.val := by omega
  have h2 : ¬ 0x100000 ≤ 0x70400 + 4 * q.val := by omega
  have h3 : (0x70400 + 4 * q.val) / 0x10000 = 7 := by omega
  have h4 : (0x70400 + 4 * q.val) % 0x10000 = 0x400 + 4 * q.val := by omega
  have h5 : (0x70400 + 4 * q.val) % 4 = 0 := by omega
  have h6 : 0x400 + 4 * q.val < 0x500 := by omega
  simp [holdsReg, blockHolds, h1, h2, h3, h4, h5, h6]

/-- XC_TCQ of a queue takes the PF's write of its bits (R12). -/
theorem writeReg_tcq (s : State) (who : Requester) (q : Fin 64) (v : Word) : writeReg s who (0x70400 + 4 * q.val) v =
    { s with xc := { s.xc with tcq := vset s.xc.tcq q.val (v &&& 0x801F07FF) } } := by
  have h1 : ¬ 0x400000 ≤ 0x70400 + 4 * q.val := by omega
  have h2 : ¬ 0x100000 ≤ 0x70400 + 4 * q.val := by omega
  have h3 : (0x70400 + 4 * q.val) / 0x10000 = 7 := by omega
  have h4 : (0x70400 + 4 * q.val) % 0x10000 = 0x400 + 4 * q.val := by omega
  have h5 : ¬ (0x100 ≤ 0x400 + 4 * q.val ∧ 0x400 + 4 * q.val < 0x140) := by omega
  have h6 : (0x400 + 4 * q.val - 0x400) / 4 = q.val := by omega
  have hx : writeXc s who (0x70400 + 4 * q.val) v = { s with xc := { s.xc with tcq := vset s.xc.tcq q.val (v &&& 0x801F07FF) } } := by
    simp only [writeXc, h4]
    rw [if_neg h5, if_pos (by omega), h6]
  rw [← hx]
  simp [writeReg, tcqOff_holds, h1, h2, h3]

/-- What a write of one register of each access type does, by requester (R11, R12, R375). -/
theorem registerWrite_byType {s : State} (v : Word) (htest : s.pwr.testEn = false) (hbar : barServes s .pf = true)
    (hst : s.pwr.state ≠ .entering) (hwait : s.pwr.waiting = []) :
    (∀ (q : Fin 64) (off : BitVec 22), s.pwr.domHif = true → off.toNat = 0x70400 + 4 * q.val →
      exec (.registerWrite .pf off v) s = .next { s with xc := { s.xc with tcq := vset s.xc.tcq q.val (v &&& 0x801F07FF) } }) ∧
    (∀ cp, exec (.registerWrite (.fw cp) 0x30008 v) s = .next (raise s Src.fwWriteDenied 0xFF 0x30008)) ∧
    (s.pwr.domUpl = true → s.upl.lock = true →
      exec (.registerWrite .pf 0x60010 v) s = .next (raise s Src.lockedWrite 0xFF 0x60010)) ∧
    (s.pwr.domUpl = true → exec (.registerWrite .pf 0x6001C v) s = .next s ∧
      ∀ cp, exec (.registerWrite (.fw cp) 0x6001C v) s = .next { s with upl := { s.upl with allocMask := v } }) ∧
    (exec (.registerWrite .pf 0x30018 v) s = .next { s with pwr := { s.pwr with alarm := v } }) := by
  have pf {off : BitVec 22} (hready : domReady s (regDomain off.toNat) = true) (hoff : off.toNat < 0x100000) :=
    registerWrite_served v (who := .pf) (off := off) nofun htest hbar hst hwait hready hoff
  have fw (cp : Fin 2) {off : BitVec 22} (hready : domReady s (regDomain off.toNat) = true) (hoff : off.toNat < 0x100000) :=
    registerWrite_served v (who := .fw cp) (off := off) nofun htest rfl hst hwait hready hoff
  refine ⟨fun q off hon hoff => ?_, fun cp => ?_, fun hon hlock => ?_, fun hon => ⟨?_, fun cp => ?_⟩, ?_⟩
  · have hdom : regDomain off.toNat = .hif := by
      simp only [regDomain]
      rw [if_neg (by omega), if_neg (by omega), show off.toNat / 0x10000 = 7 by omega]
      rfl
    rw [pf (by rw [hdom]; exact hon) (by omega), hoff, writeReg_tcq]
  · exact fw cp (off := 0x30008) rfl (by decide)
  · refine (pf (off := 0x60010) hon (by decide)).trans (congrArg Host.Outcome.next ?_)
    exact if_pos hlock
  · exact pf (off := 0x6001C) hon (by decide)
  · exact fw cp (off := 0x6001C) hon (by decide)
  · exact pf (off := 0x30018) rfl (by decide)

/-! ### LOCK_ALL, and the view of a VF -/

/-- A VF's view holds its channel's block, rings, doorbells and MSI-X table (R373). -/
theorem viewOff_ownChannel {c : Ch} {off o : Nat} (h : viewOff (.vf c) off = some o) :
    o / 0x10000 = 0x10 + c.val ∨ (0x12000 + 0x20 * (16 + 6 * c.val) ≤ o ∧ o < 0x12000 + 0x20 * (22 + 6 * c.val)) ∨
      (0x13400 + 4 * (16 + 6 * c.val) ≤ o ∧ o < 0x13400 + 4 * (22 + 6 * c.val)) ∨ o / 0x1000 = 0x400 + c.val := by
  unfold viewOff at h
  dsimp only [chRing] at h
  split at h
  · have := Option.some.inj h; omega
  split at h
  · have := Option.some.inj h; omega
  split at h
  · have := Option.some.inj h; omega
  split at h
  · have := Option.some.inj h; omega
  · cases h

/-! ### The enables of a function -/

/-- Function `f`'s registers. -/
def funcAt (s : State) (f : Nat) : Func := vget s.hif.funcs f (Func.reset 0)

/-- Every function keeps all but its pending bits. -/
def PbaOnly (s t : State) : Prop := ∀ f, ∃ b, funcAt t f = { funcAt s f with pba := b }

theorem PbaOnly.refl (s : State) : PbaOnly s s := fun _ => ⟨_, rfl⟩

theorem PbaOnly.trans {s t u : State} (h : PbaOnly s t) (h' : PbaOnly t u) : PbaOnly s u := by
  intro f
  obtain ⟨b, hb⟩ := h f
  obtain ⟨b', hb'⟩ := h' f
  exact ⟨b', by rw [hb', hb]⟩

theorem pbaOnly_of_funcs {s t : State} (h : t.hif.funcs = s.hif.funcs) : PbaOnly s t := fun f => ⟨(funcAt s f).pba, by unfold funcAt; rw [h]⟩

theorem setPba_pbaOnly (s : State) (f : Nat) (b : Func → DWord) : PbaOnly s (setFunc s f (fun x => { x with pba := b x })) := by
  intro g
  unfold funcAt setFunc
  dsimp only
  rw [vget_vset]
  split
  next h => obtain ⟨rfl, _⟩ := h; exact ⟨_, rfl⟩
  next => exact ⟨_, rfl⟩

theorem sendMsix_pbaOnly (s : State) (fv : Nat × Nat) : PbaOnly s (sendMsix s fv) := by
  unfold sendMsix
  dsimp only
  split
  · exact .refl s
  · split
    · exact setPba_pbaOnly s fv.1 (fun x => x.pba ||| BitVec.ofNat 64 (2 ^ fv.2))
    · exact .refl s

theorem foldl_pbaOnly {α : Type} (f : State → α → State) (h : ∀ s a, PbaOnly s (f s a)) (l : List α) (s : State) : PbaOnly s (l.foldl f s) := by
  induction l generalizing s with
  | nil => exact .refl s
  | cons a l ih => exact (h s a).trans (ih (f s a))

theorem raiseFuel_pbaOnly (n : Nat) (s : State) (src scope : Nat) (info1 : Word) (inc : Nat) : PbaOnly s (raiseFuel n s src scope info1 inc) := by
  induction n generalizing s src scope info1 inc with
  | zero => exact .refl s
  | succ n ih =>
    have messages (e : Evt) (l : List (Nat × Nat)) : PbaOnly s (sendAll { s with evt := e } l) :=
      (pbaOnly_of_funcs (t := { s with evt := e }) rfl).trans (foldl_pbaOnly sendMsix sendMsix_pbaOnly l _)
    unfold raiseFuel
    dsimp only
    refine PbaOnly.trans ?_ (foldl_pbaOnly _ (fun t w => ih t _ _ _ _) _ _)
    split
    · exact (messages _ _).trans (ih _ _ _ _ _)
    · exact messages _ _

theorem setPwr_pbaOnly (s : State) (st : PwrSt) : PbaOnly s (setPwr s st) := by
  have changed : ∀ w : Fw, PbaOnly s (raise { s with pwr := { s.pwr with state := st }, fw := w } Src.powerState 0xFF 0) :=
    fun w => (pbaOnly_of_funcs (t := { s with pwr := { s.pwr with state := st }, fw := w }) rfl).trans (raiseFuel_pbaOnly raiseChain _ _ _ _ 1)
  unfold setPwr
  split
  · exact .refl s
  · exact changed _

theorem funcAt_setFunc_self (s : State) (f : Fn) (g : Func → Func) : funcAt (setFunc s f.val g) f.val = g (funcAt s f.val) :=
  vget_setFunc_self s f.isLt g

theorem funcAt_setFunc_ne (s : State) {f g : Nat} (h : g ≠ f) (k : Func → Func) : funcAt (setFunc s f k) g = funcAt s g :=
  vget_vset_ne _ _ _ _ _ h

/-! ### Held messages -/

/-- The message of one pending vector of a function leaves when Bus Master Enable is set. -/
def sendHeld (f : Nat) (g : Func) (t : State) (v : Nat) : State :=
  if g.pba.getLsbD v then
    sendMsix (setFunc t f (fun x => { x with pba := x.pba &&& ~~~(BitVec.ofNat 64 (2 ^ v)) })) (f, v)
  else t

theorem sendPending_eq (s : State) (f : Nat) : sendPending s f = (List.range 64).foldl (sendHeld f (funcAt s f)) s := rfl

/-- What the messages of function `f` move. -/
structure SendsHeld (f : Nat) (s t : State) : Prop where
  frame : t = { s with hif := { s.hif with funcs := t.hif.funcs }, sent := t.sent }
  pba : PbaOnly s t
  others : ∀ g, g ≠ f → funcAt t g = funcAt s g
  sent : s.sent <:+ t.sent

theorem SendsHeld.refl (f : Nat) (s : State) : SendsHeld f s s := ⟨rfl, .refl s, fun _ _ => rfl, List.suffix_rfl⟩

theorem SendsHeld.trans {f : Nat} {s t u : State} (h : SendsHeld f s t) (h' : SendsHeld f t u) : SendsHeld f s u := by
  refine ⟨?_, h.pba.trans h'.pba, fun g hg => (h'.others g hg).trans (h.others g hg), h.sent.trans h'.sent⟩
  have e := h'.frame
  rw [h.frame] at e
  rw [e]

theorem setPba_sendsHeld (s : State) (f : Nat) (b : Func → DWord) : SendsHeld f s (setFunc s f (fun x => { x with pba := b x })) :=
  ⟨rfl, setPba_pbaOnly s f b, fun _ hg => funcAt_setFunc_ne s hg _, List.suffix_rfl⟩

theorem sendMsix_sendsHeld (s : State) (f v : Nat) : SendsHeld f s (sendMsix s (f, v)) := by
  unfold sendMsix
  dsimp only
  split
  · exact .refl f s
  · split
    · exact setPba_sendsHeld s f (fun x => x.pba ||| BitVec.ofNat 64 (2 ^ v))
    · exact ⟨rfl, .refl s, fun _ _ => rfl, List.suffix_cons _ _⟩

theorem sendHeld_sendsHeld (f : Nat) (g : Func) (s : State) (v : Nat) : SendsHeld f s (sendHeld f g s v) := by
  unfold sendHeld
  split
  · exact (setPba_sendsHeld s f (fun x => x.pba &&& ~~~(BitVec.ofNat 64 (2 ^ v)))).trans (sendMsix_sendsHeld _ f v)
  · exact .refl f s

theorem foldl_sendHeld (f : Nat) (g : Func) (l : List Nat) (s : State) : SendsHeld f s (l.foldl (sendHeld f g) s) := by
  induction l generalizing s with
  | nil => exact .refl f s
  | cons a l ih => exact (sendHeld_sendsHeld f g s a).trans (ih _)

theorem sendPending_sendsHeld (s : State) (f : Nat) : SendsHeld f s (sendPending s f) := foldl_sendHeld f _ _ s

/-- The bit of one vector among the pending bits. -/
theorem pbaBit (v w : Nat) (hw : w < 64) : (BitVec.ofNat 64 (2 ^ v)).getLsbD w = decide (v = w) := by
  rw [BitVec.getLsbD_ofNat, Nat.testBit_two_pow]
  simp [hw]

theorem sendMsix_otherBit {s : State} {f : Fn} {v w : Nat} (hvw : w ≠ v) (hv : v < 64)
    (h : (funcAt s f.val).pba.getLsbD v = false) : (funcAt (sendMsix s (f.val, w)) f.val).pba.getLsbD v = false := by
  unfold sendMsix
  dsimp only
  split
  · exact h
  · split
    · have hset := funcAt_setFunc_self s f (fun x => { x with pba := x.pba ||| BitVec.ofNat 64 (2 ^ w) })
      unfold setFunc at hset
      rw [hset]
      simp only [BitVec.getLsbD_or, h, pbaBit w v hv, hvw, decide_false, Bool.or_false]
    · exact h

/-- The message of a vector leaves the pending bits of the others that are clear. -/
theorem sendHeld_otherBit {s : State} {f : Fn} {g : Func} {v w : Nat} (hvw : w ≠ v) (hv : v < 64)
    (h : (funcAt s f.val).pba.getLsbD v = false) : (funcAt (sendHeld f.val g s w) f.val).pba.getLsbD v = false := by
  unfold sendHeld
  split
  · refine sendMsix_otherBit hvw hv ?_
    rw [funcAt_setFunc_self]
    simp [h]
  · exact h

theorem foldl_sendHeld_otherBit {f : Fn} {g : Func} {v : Nat} (hv : v < 64) (l : List Nat) (s : State) (hl : v ∉ l)
    (h : (funcAt s f.val).pba.getLsbD v = false) : (funcAt (l.foldl (sendHeld f.val g) s) f.val).pba.getLsbD v = false := by
  induction l generalizing s with
  | nil => exact h
  | cons a l ih =>
    simp only [List.mem_cons, not_or] at hl
    exact ih _ hl.2 (sendHeld_otherBit (Ne.symm hl.1) hv h)

/-- A held message of an unmasked vector is sent, and its pending bit cleared. -/
theorem sendHeld_sent {s : State} {f : Fn} {g : Func} {v : Nat} {e : MsixEntry} (hv : v < 64) (hheld : g.pba.getLsbD v = true)
    (hbme : (funcAt s f.val).bme = true) (he : (funcAt s f.val).table[v]? = some e) (hopen : e.ctrl.getLsbD 0 = false) :
    Out.msix f.val v ∈ (sendHeld f.val g s v).sent ∧ (funcAt (sendHeld f.val g s v) f.val).pba.getLsbD v = false := by
  have hself := funcAt_setFunc_self s f (fun x => { x with pba := x.pba &&& ~~~(BitVec.ofNat 64 (2 ^ v)) })
  unfold sendHeld
  rw [if_pos hheld]
  generalize setFunc s f.val (fun x => { x with pba := x.pba &&& ~~~(BitVec.ofNat 64 (2 ^ v)) }) = t at hself ⊢
  have hsend : sendMsix t (f.val, v) = { t with sent := .msix f.val v :: t.sent } := by
    unfold sendMsix
    have hf : vget t.hif.funcs f.val (Func.reset 0) = _ := hself
    simp only [hf, he, hbme, hopen, Bool.not_true, Bool.or_false, Bool.false_eq_true, if_false]
  rw [hsend]
  refine ⟨List.mem_cons_self, ?_⟩
  show (funcAt t f.val).pba.getLsbD v = false
  rw [hself]
  simp only [BitVec.getLsbD_and, BitVec.getLsbD_not, pbaBit v v hv, decide_true, Bool.not_true, Bool.and_false]

/-- Every held message of an unmasked vector of the function is sent, and its pending bit cleared (R38). -/
theorem sendPending_sent {s : State} {f : Fn} {v : Nat} {e : MsixEntry} (hv : v < 64) (hheld : (funcAt s f.val).pba.getLsbD v = true)
    (hbme : (funcAt s f.val).bme = true) (he : (funcAt s f.val).table[v]? = some e) (hopen : e.ctrl.getLsbD 0 = false) :
    Out.msix f.val v ∈ (sendPending s f.val).sent ∧ (funcAt (sendPending s f.val) f.val).pba.getLsbD v = false := by
  obtain ⟨l, m, hsplit⟩ := List.append_of_mem (List.mem_range.mpr hv)
  have hnodup := List.nodup_range (n := 64)
  rw [hsplit, List.nodup_append, List.nodup_cons] at hnodup
  obtain ⟨-, ⟨hm, -⟩, -⟩ := hnodup
  rw [sendPending_eq, hsplit, List.foldl_append, List.foldl_cons]
  have before := foldl_sendHeld f.val (funcAt s f.val) l s
  obtain ⟨b, hb⟩ := before.pba f.val
  generalize l.foldl (sendHeld f.val (funcAt s f.val)) s = t at hb ⊢
  obtain ⟨hsent, hclear⟩ := sendHeld_sent (s := t) (g := funcAt s f.val) hv hheld (by rw [hb]; exact hbme) (by rw [hb]; exact he) hopen
  exact ⟨(foldl_sendHeld f.val _ m _).sent.subset hsent, foldl_sendHeld_otherBit hv m _ hm hclear⟩

/-- A function's Device Control, taken. -/
def devTaken (s : State) (f : Fn) (dc : DevCtl) : State :=
  let s1 := setFunc s f.val (fun x => { x with bme := dc.bme, cto := dc.cto, ctoOff := dc.ctoOff })
  if f.val = 0 then setSizes s1 dc else s1

theorem devTaken_frame (s : State) (f : Fn) (dc : DevCtl) : devTaken s f dc = { s with hif := (devTaken s f dc).hif } := by
  unfold devTaken
  split <;> rfl

theorem devTaken_funcs (s : State) (f : Fn) (dc : DevCtl) : (devTaken s f dc).hif.funcs =
    (setFunc s f.val (fun x => { x with bme := dc.bme, cto := dc.cto, ctoOff := dc.ctoOff })).hif.funcs := by
  unfold devTaken
  split <;> rfl

theorem devTaken_mps (s : State) (f : Fn) (dc : DevCtl) : (devTaken s f dc).hif.mps256 =
    (if f.val ≠ 0 then s.hif.mps256 else if dc.mps = 0 then false else if dc.mps = 1 then true else s.hif.mps256) := by
  unfold devTaken
  by_cases h : f.val = 0
  · rw [if_pos h, if_neg (not_not.mpr h)]
    rfl
  · rw [if_neg h, if_pos h]
    rfl

theorem flushWaiting_none {s : State} (h : s.ledger.waiting = []) : flushWaiting s = s := by
  unfold flushWaiting
  split
  · calc s.ledger.waiting.foldl makeWaiting { s with ledger := { s.ledger with waiting := [] } }
        = { s with ledger := { s.ledger with waiting := [] } } := by rw [h]; rfl
      _ = { s with ledger := { s.ledger with waiting := s.ledger.waiting } } := by rw [h]
  · rfl

theorem exec_busMasterEnableChange {s : State} (h : configServed s = true) (f : Fn) (dc : DevCtl) (hw : dc.bme = false ∨ s.ledger.waiting = []) :
    exec (.busMasterEnableChange f dc) s = .next (if dc.bme then sendPending (devTaken s f dc) f.val else devTaken s f dc) := by
  have hrun : exec (.busMasterEnableChange f dc) s =
      .next (if dc.bme then flushWaiting (sendPending (devTaken s f dc) f.val) else devTaken s f dc) :=
    congrArg Host.Outcome.next (if_neg (by rw [h]; exact Bool.false_ne_true))
  rw [hrun]
  split
  next hb =>
    have hnone : s.ledger.waiting = [] := hw.resolve_left (by rw [hb]; nofun)
    rw [flushWaiting_none]
    rw [(sendPending_sendsHeld _ _).frame, devTaken_frame]
    exact hnone
  next => rfl

theorem busMasterEnableChange_follows {s : State} (h : configServed s = true) (f : Fn) (dc : DevCtl)
    (hw : dc.bme = false ∨ s.ledger.waiting = []) : ∃ t, exec (.busMasterEnableChange f dc) s = .next t ∧
      t = { s with hif := t.hif, sent := t.sent } ∧
      (vget t.hif.funcs f.val (Func.reset 0)).bme = dc.bme ∧ (vget t.hif.funcs f.val (Func.reset 0)).cto = dc.cto ∧
      t.hif.mps256 = (if f.val ≠ 0 then s.hif.mps256 else if dc.mps = 0 then false else if dc.mps = 1 then true else s.hif.mps256) ∧
      (∀ g, g ≠ f.val → vget t.hif.funcs g (Func.reset 0) = vget s.hif.funcs g (Func.reset 0)) ∧
      (∀ v e, dc.bme = true → v < 64 → (vget s.hif.funcs f.val (Func.reset 0)).pba.getLsbD v = true →
        (vget s.hif.funcs f.val (Func.reset 0)).table[v]? = some e → e.ctrl.getLsbD 0 = false →
        Out.msix f.val v ∈ t.sent ∧ (vget t.hif.funcs f.val (Func.reset 0)).pba.getLsbD v = false) := by
  refine ⟨_, exec_busMasterEnableChange h f dc hw, ?_⟩
  have hself : funcAt (devTaken s f dc) f.val = { funcAt s f.val with bme := dc.bme, cto := dc.cto, ctoOff := dc.ctoOff } := by
    rw [funcAt, devTaken_funcs]
    exact funcAt_setFunc_self s f _
  have hother (g : Nat) (hg : g ≠ f.val) : funcAt (devTaken s f dc) g = funcAt s g := by
    rw [funcAt, devTaken_funcs]
    exact funcAt_setFunc_ne s hg _
  have hmps := devTaken_mps s f dc
  have hframe := devTaken_frame s f dc
  have hsends : SendsHeld f.val (devTaken s f dc) (if dc.bme then sendPending (devTaken s f dc) f.val else devTaken s f dc) := by
    split
    · exact sendPending_sendsHeld _ _
    · exact .refl _ _
  have hleft (v : Nat) (e : MsixEntry) (hb : dc.bme = true) (hv : v < 64) (hp : (funcAt s f.val).pba.getLsbD v = true)
      (he : (funcAt s f.val).table[v]? = some e) (ho : e.ctrl.getLsbD 0 = false) :=
    sendPending_sent (s := devTaken s f dc) (f := f) (e := e) hv (by rw [hself]; exact hp) (by rw [hself]; exact hb)
      (by rw [hself]; exact he) ho
  have hpend : dc.bme = true → (if dc.bme then sendPending (devTaken s f dc) f.val else devTaken s f dc) = sendPending (devTaken s f dc) f.val :=
    fun hb => if_pos hb
  generalize (if dc.bme then sendPending (devTaken s f dc) f.val else devTaken s f dc) = t at hsends hpend ⊢
  obtain ⟨b, hpba⟩ := hsends.pba f.val
  have hfunc : funcAt t f.val = { funcAt s f.val with bme := dc.bme, cto := dc.cto, ctoOff := dc.ctoOff, pba := b } := by rw [hpba, hself]
  have hsent := hsends.frame
  refine ⟨?_, congrArg Func.bme hfunc, congrArg Func.cto hfunc, ?_, fun g hg => (hsends.others g hg).trans (hother g hg), fun v e hb hv hp he ho => ?_⟩
  · rw [hframe] at hsent
    rw [hsent]
  · rw [hsent]
    exact hmps
  · have := hleft v e hb hv hp he ho
    rw [← hpend hb] at this
    exact this

/-! ### VF Enable, and the power state of a function -/

theorem ringAt_setVfs (s : State) (enable : Bool) (n : Half) {r : Nat} (hr : r < 160) :
    ringAt (setVfs s enable n) r = vfRing s enable n r (ringAt s r) := by
  rw [ringAt_congr (setVfs_rings s enable n), ringAt_mapRings, if_pos hr]

theorem setVfs_frame (s : State) (enable : Bool) (n : Half) :
    setVfs s enable n = { s with hif := (setVfs s enable n).hif, rings := (setVfs s enable n).rings } := by
  unfold setVfs
  apply State.eq_of_parts <;> simp

theorem setVfs_ringOwner (s : State) (enable : Bool) (n : Half) (r : Nat) :
    ringOwner (setVfs s enable n) r = ringOwner { s with hif := { s.hif with vfEnable := enable, numVfs := n } } r := by
  have hp : (setVfs s enable n).part = s.part := by rw [setVfs_frame]
  obtain ⟨hv, hn, -⟩ := setVfs_hif s enable n
  unfold ringOwner vfOn
  rw [hp, hv, hn]

theorem vfEnableWrite_follows {s : State} (h : configServed s = true) (enable : Bool) (n : Half) :
    ∃ t, exec (.vfEnableWrite enable n) s = .next t ∧ t = { s with hif := t.hif, rings := t.rings } ∧ SameCounters s t ∧
      t.hif.vfEnable = enable ∧ t.hif.numVfs = n ∧
      (∀ c, vfOn t c = (enable && decide (c < n.toNat) && decide (c < s.part.channels))) ∧
      (∀ r c, ringChan r = some c → ringOwner t r = if vfOn t c then c + 1 else 0) ∧
      ∀ r, r < 160 → (ringAt t r).vector =
        if ringOwner s r = ringOwner t r then (ringAt s r).vector else defaultVector r (ringOwner t r != 0) := by
  obtain ⟨hv, hn, -⟩ := setVfs_hif s enable n
  have hp : (setVfs s enable n).part = s.part := by rw [setVfs_frame]
  refine ⟨_, congrArg Host.Outcome.next (if_pos h), setVfs_frame s enable n, setVfs_sameCounters s enable n, hv, hn, fun c => ?_, fun r c hc => ?_,
    fun r hr => ?_⟩
  · unfold vfOn
    rw [hv, hn, hp]
  · unfold ringOwner
    rw [hc]
  · rw [ringAt_setVfs s enable n hr, vfRing, setVfs_ringOwner]
    split <;> rfl

/-- The state of an abandoned entry, before the service resumes. -/
def entryLeft (s : State) : State := setPwr { s with pwr := { s.pwr with refused := true, why := 3, entryReq := none } } .run

theorem abandonEntry_of_entering {s : State} (h : s.pwr.state = .entering) :
    abandonEntry s = if s.sup.sealing then entryLeft s else resumeService (entryLeft s) false := if_pos h

theorem resumeService_pwr (s : State) (lossy : Bool) : (resumeService s lossy).pwr = s.pwr := startRecovery_pwr _ _ _ _ _ _ _

/-- An entry abandoned leaves the functions' enables, the channels and the rings' counters, in RUN with its reason. -/
theorem abandonEntry_keeps {s : State} (h : s.pwr.state = .entering) : PbaOnly s (abandonEntry s) ∧ (abandonEntry s).chans = s.chans ∧
    SameCounters s (abandonEntry s) ∧ (abandonEntry s).pwr = { s.pwr with refused := true, why := 3, entryReq := none, state := .run } := by
  have hpba : PbaOnly s (entryLeft s) :=
    (pbaOnly_of_funcs (t := { s with pwr := { s.pwr with refused := true, why := 3, entryReq := none } }) rfl).trans (setPwr_pbaOnly _ _)
  have hchans : (entryLeft s).chans = s.chans := (setPwr_kept { s with pwr := { s.pwr with refused := true, why := 3, entryReq := none } } .run).2.2.2
  have hrings : (entryLeft s).rings = s.rings := (setPwr_kept { s with pwr := { s.pwr with refused := true, why := 3, entryReq := none } } .run).2.2.1
  have hpwr : (entryLeft s).pwr = { s.pwr with refused := true, why := 3, entryReq := none, state := .run } := setPwr_pwr _ _
  rw [abandonEntry_of_entering h]
  split
  · exact ⟨hpba, hchans, sameCounters_of_rings hrings, hpwr⟩
  · refine ⟨hpba.trans (pbaOnly_of_funcs ?_), (resumeService_chans _ _).trans hchans,
      (sameCounters_of_rings hrings).trans (resumeService_sameCounters _ _), (resumeService_pwr _ _).trans hpwr⟩
    rw [resumeService_hif]

/-- A function's power state, taken. -/
def powerTaken (s : State) (f : Fn) (d3 : Bool) : State := setFunc s f.val (fun x => { x with d3hot := d3 })

theorem powerTaken_d3hot (s : State) (f : Fn) (d3 : Bool) : (funcAt (powerTaken s f d3) f.val).d3hot = d3 :=
  congrArg Func.d3hot (funcAt_setFunc_self s f _)

theorem configPowerStateWrite_follows {s : State} (h : configServed s = true) (f : Fn) (d3 : Bool) :
    ∃ t, exec (.configPowerStateWrite f d3) s = .next t ∧ SameCounters s t ∧ t.chans = s.chans ∧
      (vget t.hif.funcs f.val (Func.reset 0)).d3hot = d3 ∧
      (s.pwr.state ≠ .entering → t = { s with hif := { s.hif with funcs := t.hif.funcs } }) ∧
      (s.pwr.state = .entering → (vget s.hif.funcs f.val (Func.reset 0)).d3hot = true → d3 = false → t.pwr.state = .run ∧ t.pwr.why = 3) := by
  have hrun : exec (.configPowerStateWrite f d3) s =
      .next (if (funcAt s f.val).d3hot && !d3 then abandonEntry (powerTaken s f d3) else powerTaken s f d3) :=
    congrArg Host.Outcome.next (if_neg (by rw [h]; exact Bool.false_ne_true))
  refine ⟨_, hrun, ?_⟩
  have taken : SameCounters s (powerTaken s f d3) := sameCounters_of_rings rfl
  by_cases hent : s.pwr.state = .entering ∧ ((funcAt s f.val).d3hot && !d3) = true
  · obtain ⟨hent, hback⟩ := hent
    rw [if_pos hback]
    obtain ⟨hpba, hchans, hcount, hpwr⟩ := abandonEntry_keeps (s := powerTaken s f d3) hent
    obtain ⟨b, hb⟩ := hpba f.val
    refine ⟨taken.trans hcount, hchans, ?_, fun hno => absurd hent hno, fun _ _ _ => ?_⟩
    · exact (congrArg Func.d3hot hb).trans (powerTaken_d3hot s f d3)
    · rw [hpwr]
      exact ⟨rfl, rfl⟩
  · have hsame : (if (funcAt s f.val).d3hot && !d3 then abandonEntry (powerTaken s f d3) else powerTaken s f d3) = powerTaken s f d3 := by
      split
      next hback => exact if_neg fun he => hent ⟨he, hback⟩
      next => rfl
    rw [hsame]
    refine ⟨taken, rfl, powerTaken_d3hot s f d3, fun _ => rfl, fun he hd h3 => absurd ⟨he, ?_⟩ hent⟩
    have hd : (funcAt s f.val).d3hot = true := hd
    rw [hd, h3]
    rfl

theorem memorySpaceEnableChange_follows {s : State} (h : configServed s = true) (f : Fn) (on : Bool) :
    ∃ t, exec (.memorySpaceEnableChange f on) s = .next t ∧ t = { s with hif := { s.hif with funcs := t.hif.funcs } } ∧
      vget t.hif.funcs f.val (Func.reset 0) = { vget s.hif.funcs f.val (Func.reset 0) with mse := on } ∧
      ∀ g, g ≠ f.val → vget t.hif.funcs g (Func.reset 0) = vget s.hif.funcs g (Func.reset 0) :=
  ⟨_, congrArg Host.Outcome.next (if_pos h), rfl, funcAt_setFunc_self s f _, fun _ hg => funcAt_setFunc_ne s hg _⟩

/-- Settles O47: the registers by access type, LOCK_ALL, a VF's view, and each of the functions' enables on its own. -/
theorem registersAndEnablesByAccessType : Obligations.RegistersAndEnablesByAccessType := by
  refine ⟨⟨fun s who off v o hbar hst hview hholds => registerWrite_unheld v hbar hst hview hholds,
    fun s v htest hbar hst hwait => registerWrite_byType v htest hbar hst hwait, fun s => ⟨rfl, fun cp => rfl⟩,
    fun c off o _ h => viewOff_ownChannel h⟩,
    fun s h => ⟨busMasterEnableChange_follows h, memorySpaceEnableChange_follows h, vfEnableWrite_follows h, configPowerStateWrite_follows h⟩,
    fun s h => ⟨fun f dc => ?_, fun f on => ?_, fun enable n => ?_, fun f d3 => ?_⟩⟩
  · exact congrArg Host.Outcome.next (if_pos (by rw [h]; rfl))
  · exact congrArg Host.Outcome.next (if_neg (by rw [h]; exact Bool.false_ne_true))
  · exact congrArg Host.Outcome.next (if_neg (by rw [h]; exact Bool.false_ne_true))
  · exact congrArg Host.Outcome.next (if_pos (by rw [h]; rfl))

end Sys2Proof.Machine

/-! # What a power-down leaves while its domains are switched off (Table 14.9) -/

namespace Sys2Proof.Machine

open Sys2Proof

/-- A terminal whose domains are switched off in POWERING_DOWN stays there, with its target, its datum and its outputs so far, and takes up
neither its link nor a seal. -/
structure PowersDown (s t : State) : Prop where
  state : s.pwr.state = .poweringDown → t.pwr.state = .poweringDown
  toOff : t.pwr.toOff = s.pwr.toOff
  link : s.hif.linkUp = false → t.hif.linkUp = false
  sealing : t.sup.sealing = s.sup.sealing
  datum : t.datum = s.datum
  sent : s.sent <:+ t.sent

theorem PowersDown.refl (s : State) : PowersDown s s := ⟨fun e => e, rfl, fun e => e, rfl, rfl, List.suffix_rfl⟩

theorem PowersDown.trans {s t u : State} (h : PowersDown s t) (h' : PowersDown t u) : PowersDown s u :=
  ⟨fun e => h'.state (h.state e), h'.toOff.trans h.toOff, fun e => h'.link (h.link e), h'.sealing.trans h.sealing, h'.datum.trans h.datum,
    h.sent.trans h'.sent⟩

theorem foldl_powersDown {α : Type} (f : State → α → State) (h : ∀ s a, PowersDown s (f s a)) (l : List α) (s : State) :
    PowersDown s (l.foldl f s) := by
  induction l generalizing s with
  | nil => exact .refl s
  | cons a l ih => exact (h s a).trans (ih (f s a))

/-- Work that is cut, with its outputs. -/
theorem CutKept.powersDown {s t : State} (h : CutKept s t) (hsent : s.sent <:+ t.sent) : PowersDown s t := by
  have hp : t.pwr = s.pwr := by rw [h.frame]
  refine ⟨fun e => by rw [hp]; exact e, by rw [hp], fun e => ?_, h.sealing, ?_, hsent⟩
  · rw [h.frame]
    exact e
  · rw [h.frame]

theorem powersDown_of_eq {s t : State} (hpwr : t.pwr = s.pwr) (hlink : t.hif.linkUp = s.hif.linkUp) (hsup : t.sup = s.sup)
    (hdatum : t.datum = s.datum) (hsent : t.sent = s.sent) : PowersDown s t :=
  ⟨fun e => (congrArg Pwr.state hpwr).trans e, congrArg Pwr.toOff hpwr, fun e => hlink.trans e, congrArg Sup.sealing hsup, hdatum,
    hsent ▸ List.suffix_rfl⟩

theorem setChan_powersDown (s : State) (c : Nat) (f : Chan → Chan) : PowersDown s (setChan s c f) := powersDown_of_eq rfl rfl rfl rfl rfl

theorem chans_powersDown (s : State) (v : Vector Chan 24) : PowersDown s { s with chans := v } := powersDown_of_eq rfl rfl rfl rfl rfl

theorem setUpl_powersDown (s : State) (f : Upl → Upl) : PowersDown s (setUpl s f) := powersDown_of_eq rfl rfl rfl rfl rfl

theorem setRad_powersDown (s : State) (f : Rad → Rad) : PowersDown s (setRad s f) := powersDown_of_eq rfl rfl rfl rfl rfl

theorem modFw_powersDown (s : State) (f : Fw → Fw) : PowersDown s (modFw s f) := powersDown_of_eq rfl rfl rfl rfl rfl

theorem drew_powersDown (s : State) : PowersDown s (drew s) := powersDown_of_eq rfl rfl rfl rfl rfl

theorem mapRings_powersDown (s : State) (f : Nat → Ring → Ring) : PowersDown s (mapRings s f) := by
  apply powersDown_of_eq <;> simp

theorem modPwr_powersDown (s : State) (f : Pwr → Pwr) (h : (f s.pwr).state = s.pwr.state ∧ (f s.pwr).toOff = s.pwr.toOff) :
    PowersDown s (modPwr s f) := ⟨fun e => h.1.trans e, h.2, fun e => e, rfl, rfl, List.suffix_rfl⟩

theorem emitOut_powersDown (s : State) (o : Out) : PowersDown s (emitOut s o) := ⟨fun e => e, rfl, fun e => e, rfl, rfl, List.suffix_cons _ _⟩

theorem raise_powersDown (s : State) (src scope : Nat) (info1 : Word) : PowersDown s (raise s src scope info1) :=
  (raise_cutKept s src scope info1).powersDown (raise_sent s src scope info1)

theorem raiseC_powersDown (s : State) (src scope inc : Nat) : PowersDown s (raiseC s src scope inc) :=
  (raiseC_cutKept s src scope inc).powersDown (raiseC_sent s src scope inc)

theorem endEmission_powersDown (s : State) (r : Nat) (q : Word) (f : Outcome → Outcome) : PowersDown s (endEmission s r q f) :=
  (endEmission_cutKept s r q f).powersDown (by rw [endEmission_sent])

theorem emitBurstWork_powersDown (cut : Bool) (s : State) (x : BurstWork) : PowersDown s (emitBurstWork cut s x) := by
  refine (emitBurstWork_cutKept cut s x).powersDown ?_
  unfold emitBurstWork
  split
  · exact List.suffix_rfl
  · rw [emitWork_sent]

/-! ### The channels' halves -/

theorem dropCur_powersDown (s : State) (c : Nat) : PowersDown s (dropCur s c) := by
  unfold dropCur
  split
  · exact .refl s
  next f _ =>
    cases f.src with
    | work _ _ => exact .refl s
    | pause => exact .refl s
    | uplink _ => exact setChan_powersDown s c _
    | line _ => exact setChan_powersDown s c _

theorem stopLine_powersDown (s : State) (c : Nat) : PowersDown s (stopLine s c) := by
  unfold stopLine
  exact (dropCur_powersDown s c).trans (setChan_powersDown (dropCur s c) c _)

theorem cutEmissions_powersDown (s : State) (r : Nat) : PowersDown s (cutEmissions s r) :=
  foldl_powersDown (fun t (w : Work) => endEmission t r w.seq Outcome.cut) (fun t w => endEmission_powersDown t r w.seq _) _ s

theorem stopWork_powersDown (s : State) (c : Nat) : PowersDown s (stopWork s c) := by
  have h := foldl_powersDown (fun t k => cutEmissions t (chRing c k)) (fun t k => cutEmissions_powersDown t _) [0, 1, 5] s
  unfold stopWork
  exact (h.trans (setChan_powersDown _ c _)).trans (stopLine_powersDown _ c)

theorem leaveSleep_powersDown (s : State) : PowersDown s (leaveSleep s) := by
  unfold leaveSleep
  split
  next h =>
    unfold setPwr
    split
    · exact .refl s
    · refine PowersDown.trans ?_ (raise_powersDown _ _ _ _)
      exact ⟨fun e => absurd (h.symm.trans e) nofun, rfl, fun e => e, rfl, rfl, List.suffix_rfl⟩
  next => exact .refl s

theorem setChSt_powersDown (s : State) (c : Nat) (st : ChSt) : PowersDown s (setChSt s c st) := by
  unfold setChSt
  split
  · exact .refl s
  · refine PowersDown.trans (PowersDown.trans ?_ (setChan_powersDown _ c _)) (raise_powersDown _ _ _ _)
    split
    · exact leaveSleep_powersDown s
    · exact .refl s

theorem islandDomains_powersDown (s : State) : PowersDown s (islandDomains s) := ⟨fun e => e, rfl, fun e => e, rfl, rfl, List.suffix_rfl⟩

theorem setIsland_powersDown (s : State) (c : Nat) (on : Bool) : PowersDown s (setIsland s c on) :=
  (setChan_powersDown s c _).trans (islandDomains_powersDown _)

theorem enterOff_powersDown (s : State) (c : Nat) : PowersDown s (enterOff s c) :=
  (((stopLine_powersDown s c).trans (setChan_powersDown _ c _)).trans (setIsland_powersDown _ c false)).trans (setChSt_powersDown _ c .off)

theorem islandOff_powersDown (s : State) (c : Nat) : PowersDown s (islandOff s c) := by
  unfold islandOff
  split
  · exact ((stopWork_powersDown s c).trans (enterOff_powersDown _ c)).trans (setChan_powersDown _ c _)
  · exact .refl s

theorem halfOff_powersDown (s : State) (b : Bool) : PowersDown s (halfOff s b) := by
  have hfold := foldl_powersDown (fun t i => islandOff t (if b then i + 12 else i)) (fun t i => islandOff_powersDown t _) (List.range 12) s
  have last : ∀ u : State, PowersDown u (modPwr u (fun p => if b then { p with domChlb := false } else { p with domChla := false })) :=
    fun u => modPwr_powersDown u _ (by cases b <;> exact ⟨rfl, rfl⟩)
  exact hfold.trans (last _)

/-! ### The other domains -/

theorem logEntry_powersDown (s : State) (e : SupLog) : PowersDown s (logEntry s e) := by
  refine (logEntry_cutKept s e).powersDown ?_
  have raised : ∀ u : Sup, s.sent <:+ (raiseC { s with sup := u } Src.supplyLogLost 0xFF 1).sent := fun u => raiseC_sent { s with sup := u } _ _ _
  unfold logEntry
  dsimp only
  split
  · exact raised _
  · exact List.suffix_rfl

theorem dyingGaspEnd_powersDown (s : State) : PowersDown s (dyingGaspEnd s) := by
  unfold dyingGaspEnd
  dsimp only
  split
  · exact ((drew_powersDown s).trans (logEntry_powersDown _ _)).trans (setUpl_powersDown _ _)
  · exact .refl s

theorem cutUplink_powersDown (s : State) : PowersDown s (cutUplink s) := by
  unfold cutUplink
  split
  · exact .refl s
  · exact ((setUpl_powersDown s _).trans (emitOut_powersDown _ _)).trans
      (foldl_powersDown (emitBurstWork true) (emitBurstWork_powersDown true) _ _)

theorem uplSettled_powersDown (s : State) : PowersDown s (uplSettled s) := by
  obtain ⟨x, src, h⟩ := uplSettled_frame s
  rw [h]
  exact powersDown_of_eq rfl rfl rfl rfl rfl

theorem uplOff_powersDown (s : State) : PowersDown s (uplOff s) := by
  have cut := ((dyingGaspEnd_powersDown s).trans (cutUplink_powersDown _)).trans (setUpl_powersDown _ uplKept)
  unfold uplOff
  exact (cut.trans (modPwr_powersDown _ _ ⟨rfl, rfl⟩)).trans (uplSettled_powersDown _)

theorem radEnd_powersDown (s : State) (t : RadTx) (acked noAck stop : Bool) : PowersDown s (radEnd s t acked noAck stop) := by
  have h := (setRad_powersDown s _).trans (endEmission_powersDown (setTx s none) 7 t.seq (fun _ => radOutcome t acked noAck stop))
  unfold radEnd
  dsimp only
  split
  · exact (h.trans (setRad_powersDown _ _)).trans (raiseC_powersDown _ _ _ _)
  · exact h

theorem radCut_powersDown (s : State) : PowersDown s (radCut s) := by
  unfold radCut
  dsimp only
  refine PowersDown.trans ?_ (setRad_powersDown _ _)
  split
  · exact .refl s
  · split
    · exact .refl s
    · split
      · exact cutEmissions_powersDown s 7
      · exact radEnd_powersDown s _ _ _ _

theorem radOff_powersDown (s : State) : PowersDown s (radOff s) :=
  ((radCut_powersDown s).trans (setRad_powersDown _ _)).trans (modPwr_powersDown _ (fun p => { p with domRad := false }) ⟨rfl, rfl⟩)

theorem loseLink_powersDown (s : State) : PowersDown s (loseLink s) := by
  obtain ⟨-, -, -, hlink, -⟩ := loseLink_busLost s
  have hpwr : (loseLink s).pwr = s.pwr := by simp [loseLink]
  have hsup : (loseLink s).sup.sealing = s.sup.sealing := by simp [loseLink]
  have hdatum : (loseLink s).datum = s.datum := by simp [loseLink]
  have hsent : (loseLink s).sent = s.sent := by simp [loseLink]
  exact ⟨fun e => (congrArg Pwr.state hpwr).trans e, congrArg Pwr.toOff hpwr, fun _ => hlink, hsup, hdatum, by rw [hsent]⟩

theorem setVfs_powersDown (s : State) (enable : Bool) (n : Half) : PowersDown s (setVfs s enable n) := by
  have hframe := setVfs_frame s enable n
  have hlink : (setVfs s enable n).hif.linkUp = s.hif.linkUp := by
    unfold setVfs
    rfl
  exact powersDown_of_eq (by rw [hframe]) hlink (by rw [hframe]) (by rw [hframe]) (by rw [hframe])

theorem resetConfig_powersDown (s : State) : PowersDown s (resetConfig s) := by
  have last : ∀ u : State, PowersDown u (modHif u (fun h => { h with funcs := resetFuncs, mps256 := false, mrrs := 2, l2 := false })) :=
    fun _ => powersDown_of_eq rfl rfl rfl rfl rfl
  exact (setVfs_powersDown s false 0).trans (last _)

theorem keysOff_powersDown (s : State) : PowersDown s (keysOff s) := by
  rw [keysOff_frame]
  exact powersDown_of_eq rfl rfl rfl rfl rfl

theorem hifGone_powersDown (s u : State) : PowersDown u (hifGone s u) :=
  ⟨fun e => e, rfl, fun e => e, rfl, rfl, List.suffix_rfl⟩

theorem hifOff_powersDown (s : State) : PowersDown s (hifOff s) := by
  have cleared : ∀ u : State, PowersDown u (hifCleared u) := fun u => (mapRings_powersDown u _).trans (keysOff_powersDown _)
  rw [hifOff_eq]
  exact (((loseLink_powersDown s).trans (resetConfig_powersDown _)).trans (cleared _)).trans (hifGone_powersDown _ _)

theorem feedOff_powersDown (s : State) : PowersDown s (feedOff s) := by
  refine ⟨fun e => ?_, ?_, fun e => ?_, ?_, ?_, ?_⟩ <;> simp only [feedOff]
  · exact e
  · exact e
  · exact List.suffix_rfl

theorem switchOff_powersDown (s : State) (d : Domain) : PowersDown s (switchOff s d) := by
  unfold switchOff
  split
  · cases d with
    | aon => exact .refl s
    | chla => exact halfOff_powersDown s false
    | chlb => exact halfOff_powersDown s true
    | hif => exact hifOff_powersDown s
    | core => exact (modFw_powersDown s fwDevice).trans (modPwr_powersDown _ _ ⟨rfl, rfl⟩)
    | upl => exact uplOff_powersDown s
    | rad => exact radOff_powersDown s
    | feed => exact feedOff_powersDown s
  · exact .refl s

/-! ### The first step that waits -/

theorem downAction_powersDown (s : State) {k : Nat} (h : k ≤ 8) : PowersDown s (downAction s k) := by
  unfold downAction
  split
  · exact modPwr_powersDown s _ ⟨rfl, rfl⟩
  iterate 4 omega
  · exact switchOff_powersDown s _

/-- Up to the first step that waits, at the latest step 8, the terminal stays in POWERING_DOWN. -/
theorem downFrom_powersDown (n : Nat) (s : State) {k : Nat} (hk : k ≤ 8) (hn : 8 < n + k) : PowersDown s (downFrom n s k) := by
  induction n generalizing s k with
  | zero => exact .refl s
  | succ n ih =>
    unfold downFrom
    rw [if_neg (by omega)]
    split
    next h =>
      exact (modPwr_powersDown s (fun p => { p with step := k }) ⟨rfl, rfl⟩).trans (ih _ (by omega) (by omega))
    next => exact (downAction_powersDown s hk).trans (modPwr_powersDown _ _ ⟨rfl, rfl⟩)

theorem setPwr_sent (s : State) (st : PwrSt) : s.sent <:+ (setPwr s st).sent := by
  have changed : ∀ w : Fw, s.sent <:+ (raise { s with pwr := { s.pwr with state := st }, fw := w } Src.powerState 0xFF 0).sent :=
    fun w => raise_sent { s with pwr := { s.pwr with state := st }, fw := w } _ _ _
  unfold setPwr
  split
  · exact List.suffix_rfl
  · exact changed _

/-- A power-down begins in POWERING_DOWN, toward its target (R325). -/
theorem startPowerDown_begins (s : State) (toOff : Bool) : (startPowerDown s toOff).pwr.state = .poweringDown ∧
    (startPowerDown s toOff).pwr.toOff = toOff ∧ (s.hif.linkUp = false → (startPowerDown s toOff).hif.linkUp = false) ∧
    (startPowerDown s toOff).sup.sealing = s.sup.sealing ∧ (startPowerDown s toOff).datum = s.datum ∧
    s.sent <:+ (startPowerDown s toOff).sent := by
  unfold startPowerDown
  dsimp only
  have hframe := setPwr_frame (modPwr s (fun p => { p with
    toOff := toOff, retained := if toOff then 0 else fitGroups p, upStep := 0, cold := false, collapsed := []
    latchedWake := none, retryWait := false, entryReq := none, entrySeal := false, woken := [], waiting := [] })) .poweringDown
  have hsent := setPwr_sent (modPwr s (fun p => { p with
    toOff := toOff, retained := if toOff then 0 else fitGroups p, upStep := 0, cold := false, collapsed := []
    latchedWake := none, retryWait := false, entryReq := none, entrySeal := false, woken := [], waiting := [] })) .poweringDown
  generalize setPwr (modPwr s (fun p => { p with
    toOff := toOff, retained := if toOff then 0 else fitGroups p, upStep := 0, cold := false, collapsed := []
    latchedWake := none, retryWait := false, entryReq := none, entrySeal := false, woken := [], waiting := [] })) .poweringDown = u at hframe hsent ⊢
  have h := downFrom_powersDown 12 u (k := 1) (by decide) (by decide)
  have hp : u.pwr.state = .poweringDown ∧ u.pwr.toOff = toOff ∧ u.hif.linkUp = s.hif.linkUp ∧ u.sup.sealing = s.sup.sealing ∧ u.datum = s.datum := by
    rw [hframe]
    exact ⟨rfl, rfl, rfl, rfl, rfl⟩
  obtain ⟨h1, h2, h3, h4, h5⟩ := hp
  exact ⟨h.state h1, h.toOff.trans h2, fun e => h.link (h3.trans e), h.sealing.trans h4, h.datum.trans h5, List.IsSuffix.trans hsent h.sent⟩

end Sys2Proof.Machine

/-! # IDLE, SLEEP, waking, and the entry into DEEP and OFF (O42) -/

namespace Sys2Proof.Machine

open Sys2Proof

/-! ### IDLE and SLEEP -/

/-- What a change of the power state moves. -/
def PwrMoved (s t : State) : Prop := t = { s with pwr := t.pwr, fw := t.fw, hif := t.hif, evt := t.evt, sent := t.sent }

theorem PwrMoved.refl (s : State) : PwrMoved s s := rfl

theorem setPwr_pwrMoved (s : State) (st : PwrSt) : PwrMoved s (setPwr s st) := by
  have h := setPwr_frame s st
  unfold PwrMoved
  generalize setPwr s st = t at h ⊢
  rw [h]

/-- IDLE and SLEEP leave the processors halted. -/
theorem setPwr_fw {s : State} {st : PwrSt} (h : st = .idle ∨ st = .sleep) : (setPwr s st).fw = s.fw := by
  unfold setPwr
  split
  · rfl
  · rw [raise_fw]
    rcases h with rfl | rfl <;> rfl

theorem idleTimer_follows (s : State) : ∃ t, exec .idleTimerExpiry s = .next t ∧
      t = { s with pwr := t.pwr, fw := t.fw, hif := t.hif, evt := t.evt, sent := t.sent } ∧
      (s.pwr.state = .run → s.pwr.floor ≠ 0 → coresIdle s = true →
        t.pwr = { s.pwr with state := .idle } ∧ t.fw.cp0 = .halted ∧ t.fw.cp1 = .halted) ∧
      ((s.pwr.state ≠ .run ∨ s.pwr.floor = 0 ∨ coresIdle s = false) → t = s) := by
  by_cases h : s.pwr.state = .run ∧ s.pwr.floor ≠ 0 ∧ coresIdle s = true
  · refine ⟨_, congrArg Host.Outcome.next (if_pos h), ?_, fun _ _ _ => ⟨setPwr_pwr _ _, ?_, ?_⟩, fun hno => ?_⟩
    · have e := setPwr_pwrMoved (modFw s (fun w => { w with cp0 := .halted, cp1 := .halted })) .idle
      unfold PwrMoved at e
      generalize setPwr (modFw s (fun w => { w with cp0 := .halted, cp1 := .halted })) .idle = t at e ⊢
      rw [e]
      rfl
    · rw [setPwr_fw (.inl rfl)]
      rfl
    · rw [setPwr_fw (.inl rfl)]
      rfl
    · obtain ⟨hr, hf, hc⟩ := h
      rcases hno with e | e | e
      · exact absurd hr e
      · exact absurd e hf
      · exact absurd (e.symm.trans hc) nofun
  · exact ⟨s, congrArg Host.Outcome.next (if_neg h), rfl, fun h1 h2 h3 => absurd ⟨h1, h2, h3⟩ h, fun _ => rfl⟩

theorem idleExit_follows (s : State) : ∃ t, exec .idleExit s = .next t ∧
      t = { s with pwr := t.pwr, fw := t.fw, hif := t.hif, evt := t.evt, sent := t.sent } ∧
      t.pwr = { s.pwr with state := if s.pwr.state = .idle then .run else s.pwr.state } := by
  by_cases h : s.pwr.state = .idle
  · exact ⟨_, congrArg Host.Outcome.next (if_pos h), setPwr_pwrMoved s .run, by rw [setPwr_pwr, if_pos h]⟩
  · exact ⟨s, congrArg Host.Outcome.next (if_neg h), rfl, by rw [if_neg h]⟩

/-- A channel in SERVICE or in training keeps the terminal out of SLEEP. -/
theorem sleepQuiet_of_busy {s : State} {c : Nat} (hc : c < 24) (h : (chanAt s c).tab.state = .service ∨ (chanAt s c).tab.state = .train) :
    sleepQuiet s = false := by
  have hall : (List.range 24).all (fun c => match (chanAt s c).tab.state with
      | .economy | .off | .halted | .absent => true
      | _ => false) = false := by
    rw [List.all_eq_false]
    refine ⟨c, List.mem_range.2 hc, ?_⟩
    rcases h with h | h <;> rw [h] <;> exact Bool.false_ne_true
  unfold sleepQuiet
  exact (congrArg (fun b => b && _) hall).trans (Bool.false_and _)

theorem sleepTimer_follows (s : State) : ∃ t, exec .sleepTimerExpiry s = .next t ∧
      t = { s with pwr := t.pwr, fw := t.fw, hif := t.hif, evt := t.evt, sent := t.sent } ∧
      (s.pwr.state = .idle → s.pwr.floor = 2 → sleepQuiet s = true → t.pwr = { s.pwr with state := .sleep }) ∧
      ((∃ c, c < 24 ∧ ((chanAt s c).tab.state = .service ∨ (chanAt s c).tab.state = .train)) → t = s) := by
  by_cases h : s.pwr.state = .idle ∧ s.pwr.floor = 2 ∧ sleepQuiet s = true
  · refine ⟨_, congrArg Host.Outcome.next (if_pos h), setPwr_pwrMoved s .sleep, fun _ _ _ => setPwr_pwr _ _, fun ⟨c, hc, hb⟩ => ?_⟩
    exact absurd ((sleepQuiet_of_busy hc hb).symm.trans h.2.2) nofun
  · exact ⟨s, congrArg Host.Outcome.next (if_neg h), rfl, fun h1 h2 h3 => absurd ⟨h1, h2, h3⟩ h, fun _ => rfl⟩

/-! ### Waking -/

/-- The state of a wake that begins in DEEP. -/
def wakeBegun (s : State) (code : Nat) : State :=
  setPwr (modPwr s (fun p => { p with wakeCause := BitVec.ofNat 3 code, upStep := 1, step := 0, retryWait := false })) .waking

theorem wakeSource_of_deep {s : State} (h : s.pwr.state = .deep) {code : Nat} (hc : code ≠ 2) :
    wakeSource s code = modHif (wakeBegun s code) (fun h => { h with pcieWake := h.pcieWake || h.perst }) := by
  unfold wakeSource
  rw [h]
  exact if_neg hc

theorem wakeIf_deep {s : State} (h : s.pwr.state = .deep) (bit : Nat) {code : Nat} (hc : code ≠ 2) :
    (wakeIf s bit code).datum = s.datum ∧ (wakeIf s bit code).rings = s.rings ∧ (s.pwr.wakeBits.getLsbD bit = false → wakeIf s bit code = s) ∧
      (s.pwr.wakeBits.getLsbD bit = true → (wakeIf s bit code).pwr.state = .waking ∧
        (wakeIf s bit code).pwr.wakeCause = BitVec.ofNat 3 code ∧ (wakeIf s bit code).pwr.upStep = 1) := by
  unfold wakeIf
  cases hb : s.pwr.wakeBits.getLsbD bit with
  | false => exact ⟨rfl, rfl, fun _ => rfl, nofun⟩
  | true =>
    rw [if_pos rfl, wakeSource_of_deep h hc]
    have hframe : (wakeBegun s code).datum = s.datum ∧ (wakeBegun s code).rings = s.rings := by
      unfold wakeBegun
      rw [setPwr_frame]
      exact ⟨rfl, rfl⟩
    have hpwr : (wakeBegun s code).pwr = _ := setPwr_pwr _ _
    refine ⟨hframe.1, hframe.2, nofun, fun _ => ?_⟩
    show (wakeBegun s code).pwr.state = _ ∧ (wakeBegun s code).pwr.wakeCause = _ ∧ (wakeBegun s code).pwr.upStep = _
    rw [hpwr]
    exact ⟨rfl, rfl, rfl⟩

/-! ### A request for DEEP or OFF -/

/-- A request finds what it needs in the power state, the seal, the ledger's work and the channels. -/
theorem entryCheck_congr {s t : State} (hp : t.pwr = s.pwr) (hu : t.sup = s.sup) (hc : t.chans = s.chans) (hj : t.journal = s.journal)
    (hr : t.rings = s.rings) (self : Option Word) (toOff : Bool) : entryCheck t self toOff = entryCheck s self toOff := by
  have hq : quiescent t self = quiescent s self := by
    unfold quiescent chanAt ringAt
    rw [hc, hj, hr]
  have hm : mayRequest t = mayRequest s := by
    unfold mayRequest frozen
    rw [hp, hu]
  unfold entryCheck
  rw [hq, hm, hp]

theorem entryCheck_busy {s : State} {self : Option Word} (toOff : Bool) (h : mayRequest s = false ∨ quiescent s self = false) :
    entryCheck s self toOff = 1 := by
  unfold entryCheck
  rw [if_pos]
  rcases h with h | h <;> simp [h]

theorem entryCheck_overload {s : State} {self : Option Word} (hm : mayRequest s = true) (hq : quiescent s self = true)
    (hl : 1200 < retLoad s.pwr s.pwr.groups) : entryCheck s self false = 2 := by
  simp [entryCheck, hm, hq, hl]

/-- A request that passes finds the terminal quiescent and no seal under way. -/
theorem entryCheck_zero {s : State} {self : Option Word} {toOff : Bool} (h : entryCheck s self toOff = 0) :
    mayRequest s = true ∧ quiescent s self = true := by
  by_contra hno
  rw [entryCheck_busy] at h
  · cases h
  · by_contra hb
    simp only [not_or, Bool.not_eq_false] at hb
    exact hno hb

theorem entryCheck_cases (s : State) (self : Option Word) (toOff : Bool) :
    entryCheck s self toOff = 0 ∨ entryCheck s self toOff = 1 ∨ entryCheck s self toOff = 2 := by
  unfold entryCheck
  split
  · exact .inr (.inl rfl)
  · split
    · exact .inr (.inr rfl)
    · exact .inl rfl

/-- A refused request. -/
theorem refuseEntry_frame (s : State) (why : Nat) : refuseEntry s why =
    { s with hif := { s.hif with funcs := (refuseEntry s why).hif.funcs }, pwr := { s.pwr with refused := true, why := BitVec.ofNat 2 why }
             evt := (refuseEntry s why).evt, sent := (refuseEntry s why).sent } := by
  have e := raise_evtOnly (modPwr s (fun p => { p with refused := true, why := BitVec.ofNat 2 why })) Src.powerState 0xFF 0
  unfold EvtOnly at e
  unfold refuseEntry
  generalize raise (modPwr s (fun p => { p with refused := true, why := BitVec.ofNat 2 why })) Src.powerState 0xFF 0 = t at e ⊢
  rw [e]
  rfl

/-- Fetching stopped. -/
theorem stopFetch_frame (s : State) : stopFetch s = { s with hif := { s.hif with fetchStop := true }, rings := (stopFetch s).rings } := by
  apply State.eq_of_parts <;> simp [stopFetch]

/-- A ring with no fetch in flight. -/
def fetchDropped (_ : Nat) (g : Ring) : Ring := { g with fetch := none, refetch := none }

theorem stopFetch_sameCounters (s : State) : SameCounters s (stopFetch s) := by
  have hr : (stopFetch s).rings = (mapRings s fetchDropped).rings := by
    unfold stopFetch
    rw [modHif_rings]
    rfl
  exact (mapRings_sameCounters s fetchDropped fun _ _ => ⟨rfl, rfl, rfl, rfl, rfl, rfl, rfl, rfl⟩).trans (sameCounters_of_rings hr)

theorem workOpen_refuseEntry (s : State) (why r : Nat) (q : Word) : workOpen (refuseEntry s why) r q = workOpen s r q :=
  workOpen_of_same (by rw [refuseEntry_frame]; rfl) (by rw [refuseEntry_frame]) q

/-- The outcome of a request that is refused. -/
theorem refuseEntry_returned {s : State} {q : Word} {w : Work} (h : workOpen s 0 q = some w) (why : Nat) (st : Status) :
    returnedWith (returnWork (refuseEntry s why) 0 q st) 0 q = some (Outcome.of st 0 0) ∧
      (returnWork (refuseEntry s why) 0 q st).pwr = { s.pwr with refused := true, why := BitVec.ofNat 2 why } ∧
      SameCounters s (returnWork (refuseEntry s why) 0 q st) := by
  refine ⟨returnedWith_of_workOpen ((workOpen_refuseEntry s why 0 q).trans h) st, ?_, ?_⟩
  · rw [returnWork_pwr, refuseEntry_frame]
  · exact (sameCounters_of_rings (by rw [refuseEntry_frame])).trans (returnWith_sameCounters _ _ _ _)

/-- A PWR_ENTER that passes: its outcome in the journal, fetching stopped, its request kept. -/
def entryTaken (s : State) (q : Word) (toOff : Bool) : State :=
  modPwr (stopFetch (emitWork s 0 q (Outcome.of .ok 0 0))) (fun p => { p with entryReq := some (q, toOff) })

theorem entryTaken_follows {s : State} (room : journalRoom s = true) (q : Word) (toOff : Bool) : SameCounters s (entryTaken s q toOff) ∧
    (entryTaken s q toOff).pwr = { s.pwr with entryReq := some (q, toOff) } ∧
    (entryTaken s q toOff).hif = { s.hif with fetchStop := true } ∧
    (entryTaken s q toOff).journal = s.journal ++ [{ ring := 0, seq := q, out := Outcome.of .ok 0 0 }] := by
  have hc := (emitWork_ringWork s 0 q (Outcome.of .ok 0 0)).2
  have hj := emitWork_journal_of_room room rfl rfl 0 q (Outcome.of .ok 0 0)
  have hf := emitWork_frame s 0 q (Outcome.of .ok 0 0)
  unfold entryTaken
  generalize emitWork s 0 q (Outcome.of .ok 0 0) = u at hc hj hf ⊢
  have hs := stopFetch_frame u
  have hk := stopFetch_sameCounters u
  generalize stopFetch u = v at hs hk ⊢
  have hp : v.pwr = s.pwr ∧ v.hif = { s.hif with fetchStop := true } ∧ v.journal = u.journal := by
    rw [hs, hf]
    exact ⟨rfl, rfl, rfl⟩
  obtain ⟨h1, h2, h3⟩ := hp
  refine ⟨(hc.trans hk).trans (sameCounters_of_rings rfl), ?_, h2, h3.trans hj⟩
  rw [← h1]
  rfl

theorem exec_pwrEnter {s : State} {q : Word} {w : Work} (h : cmdWork s 0 q 0x0120 = some w) : exec (.pwrEnter q) s =
    .next (if 2 ≤ bits w.d.p0 1 0 then returnWork s 0 q .retParam
      else if entryCheck s (some q) (bits w.d.p0 1 0 == 1) = 0 then entryTaken s q (bits w.d.p0 1 0 == 1)
      else if entryCheck s (some q) (bits w.d.p0 1 0 == 1) = 1 then returnWork (refuseEntry s 1) 0 q .retBusy
      else returnWork (refuseEntry s 2) 0 q .retDenied) := by
  refine congrArg Host.Outcome.next ?_
  unfold pwrEnterOp
  rw [h]
  dsimp only
  by_cases h2 : 2 ≤ bits w.d.p0 1 0
  · rw [if_pos h2, if_pos h2]
  · rw [if_neg h2, if_neg h2]
    rcases entryCheck_cases s (some q) (bits w.d.p0 1 0 == 1) with e | e | e <;> rw [e] <;> rfl

theorem pwrEnter_follows {s : State} {seq : Word} {w : Work} (h : cmdWork s 0 seq 0x0120 = some w) :
    ∃ t, exec (.pwrEnter seq) s = .next t ∧ SameCounters s t ∧ t.pwr.state = s.pwr.state ∧
      (2 ≤ bits w.d.p0 1 0 → returnedWith t 0 seq = some (Outcome.of .retParam 0 0) ∧ t = { s with rings := t.rings }) ∧
      (bits w.d.p0 1 0 < 2 → (mayRequest s = false ∨ quiescent s (some seq) = false) →
        returnedWith t 0 seq = some (Outcome.of .retBusy 0 0) ∧ t.pwr = { s.pwr with refused := true, why := 1 }) ∧
      (bits w.d.p0 1 0 = 0 → mayRequest s = true → quiescent s (some seq) = true → 1200 < retLoad s.pwr s.pwr.groups →
        returnedWith t 0 seq = some (Outcome.of .retDenied 0 0) ∧ t.pwr = { s.pwr with refused := true, why := 2 }) ∧
      (∀ off, bits w.d.p0 1 0 = (if off = true then 1 else 0) → entryCheck s (some seq) off = 0 →
        t.pwr = { s.pwr with entryReq := some (seq, off) } ∧ t.hif = { s.hif with fetchStop := true } ∧
        t.journal = s.journal ++ [{ ring := 0, seq := seq, out := Outcome.of .ok 0 0 }]) := by
  obtain ⟨hopen, -, -, -, -, room, -⟩ := cmdWork_eq_some h
  refine ⟨_, exec_pwrEnter h, ?_⟩
  by_cases h2 : 2 ≤ bits w.d.p0 1 0
  · rw [if_pos h2]
    refine ⟨returnWith_sameCounters _ _ _ _, by rw [returnWork_pwr], fun _ => ⟨returnedWith_of_workOpen hopen _, returnWith_frame _ _ _ _⟩,
      fun hlt => absurd hlt (by omega), fun h0 => by omega, fun off ho => absurd ho ?_⟩
    cases off <;> simp <;> omega
  rw [if_neg h2]
  have request (off : Bool) (ho : bits w.d.p0 1 0 = if off = true then 1 else 0) : (bits w.d.p0 1 0 == 1) = off := by
    rw [ho]
    cases off <;> rfl
  generalize (bits w.d.p0 1 0 == 1) = toOff at request ⊢
  rcases entryCheck_cases s (some seq) toOff with e | e | e
  · rw [if_pos e]
    obtain ⟨hc, hp, hh, hj⟩ := entryTaken_follows room seq toOff
    obtain ⟨hm, hq⟩ := entryCheck_zero e
    refine ⟨hc, by rw [hp], fun hge => absurd hge h2, fun _ hbusy => ?_, fun h0 _ _ hl => ?_, fun off ho he => ?_⟩
    · rcases hbusy with hb | hb
      · exact absurd (hb.symm.trans hm) nofun
      · exact absurd (hb.symm.trans hq) nofun
    · have hoff : toOff = false := request false h0
      rw [hoff, entryCheck_overload hm hq hl] at e
      cases e
    · rw [← request off ho]
      exact ⟨hp, hh, hj⟩
  · rw [if_neg (by rw [e]; decide), if_pos e]
    obtain ⟨hret, hp, hc⟩ := refuseEntry_returned hopen 1 .retBusy
    refine ⟨hc, by rw [hp], fun hge => absurd hge h2, fun _ _ => ⟨hret, hp⟩, fun h0 hm hq hl => ?_, fun off ho he => ?_⟩
    · have hoff : toOff = false := request false h0
      rw [hoff, entryCheck_overload hm hq hl] at e
      cases e
    · rw [request off ho, he] at e
      cases e
  · rw [if_neg (by rw [e]; decide), if_neg (by rw [e]; decide)]
    obtain ⟨hret, hp, hc⟩ := refuseEntry_returned hopen 2 .retDenied
    refine ⟨hc, by rw [hp], fun hge => absurd hge h2, fun _ hbusy => ?_, fun _ _ _ _ => ⟨hret, hp⟩, fun off ho he => ?_⟩
    · rw [entryCheck_busy toOff hbusy] at e
      cases e
    · rw [request off ho, he] at e
      cases e

/-! ### The seal of an entry -/

/-- With no journal entry there is no leading entry to write. -/
theorem sealRing_of_none {s : State} (h : s.journal = []) (n r : Nat) : sealRing n s r = s := by
  cases n with
  | zero => rfl
  | succ n =>
    unfold sealRing
    split
    · rfl
    next w o _ =>
      have hj : journalOf s r w.seq = none := by
        unfold journalOf
        rw [h]
        rfl
      rw [hj]
      rfl

theorem sealOne_of_none {s : State} (h : s.journal = []) :
    sealOne s = setPhase (writeHeaders { s with ledger := { s.ledger with sealState := .sealing } }) 1 := by
  have hj : (writeHeaders { s with ledger := { s.ledger with sealState := .sealing } }).journal = [] := by
    rw [writeHeaders_journal]
    exact h
  have hfold : ∀ (u : State) (l : List RingNo), u.journal = [] →
      l.foldl (fun t r => if hostWritten r.val then sealRing 256 t r.val else t) u = u := by
    intro u l hu
    induction l with
    | nil => rfl
    | cons r l ih =>
      rw [List.foldl_cons]
      split
      · rw [sealRing_of_none hu]
        exact ih
      · exact ih
  unfold sealOne
  dsimp only
  rw [hfold _ allRings hj]

/-- An entry begun with a ledger in use: its headers go out SEALING. -/
theorem beginEntering_live {s : State} (hj : s.journal = []) (hl : ledgerLive s = true) (toOff : Bool) :
    SameCounters s (beginEntering s toOff) ∧ (beginEntering s toOff).journal = s.journal ∧
      (beginEntering s toOff).pwr = { s.pwr with entryReq := none, entrySeal := true, toOff := toOff } ∧
      (beginEntering s toOff).hif.fetchStop = s.hif.fetchStop ∧ (beginEntering s toOff).ledger.sealState = .sealing ∧
      (beginEntering s toOff).sup.sealPhase = 1 := by
  have hseal : beginEntering s toOff = sealOne { s with pwr := { s.pwr with entryReq := none, entrySeal := true, toOff := toOff } } := if_pos hl
  rw [hseal, sealOne_of_none (s := { s with pwr := { s.pwr with entryReq := none, entrySeal := true, toOff := toOff } }) hj]
  have acts := writeHeaders_ledgerActs
    { s with pwr := { s.pwr with entryReq := none, entrySeal := true, toOff := toOff }, ledger := { s.ledger with sealState := .sealing } }
  have hf := acts.frame
  generalize writeHeaders
    { s with pwr := { s.pwr with entryReq := none, entrySeal := true, toOff := toOff }, ledger := { s.ledger with sealState := .sealing } } = u at acts hf ⊢
  have hp : u.pwr = { s.pwr with entryReq := none, entrySeal := true, toOff := toOff } ∧ u.journal = s.journal ∧
      u.hif.fetchStop = s.hif.fetchStop ∧ u.ledger.sealState = .sealing := by
    rw [hf]
    exact ⟨rfl, rfl, rfl, rfl⟩
  obtain ⟨h1, h2, h3, h4⟩ := hp
  exact ⟨acts.counters, h2, h1, h3, h4, rfl⟩

/-- An entry begun with no ledger in use leaves the ledger, and enters once no transfer is under way. -/
theorem beginEntering_none {s : State} (hl : ledgerLive s = false) (hs : s.sup.sealing = false) (toOff : Bool) :
    SameCounters s (beginEntering s toOff) ∧ (beginEntering s toOff).journal = s.journal ∧ (beginEntering s toOff).pwr.toOff = toOff ∧
      (beginEntering s toOff).hif.fetchStop = s.hif.fetchStop ∧
      (ledgerQuiet s = true → (beginEntering s toOff).pwr.state = .entering ∧ (beginEntering s toOff).sup.journalSealed = true) := by
  have hseal : beginEntering s toOff =
      sealAdvance (setPhase { s with pwr := { s.pwr with entryReq := none, entrySeal := true, toOff := toOff } } 3) :=
    if_neg (by rw [show ledgerLive { s with pwr := { s.pwr with entryReq := none, entrySeal := true, toOff := toOff } } = false from hl]; nofun)
  cases hq : ledgerQuiet s with
  | false =>
    have hstay : beginEntering s toOff = setPhase { s with pwr := { s.pwr with entryReq := none, entrySeal := true, toOff := toOff } } 3 := by
      rw [hseal]
      refine if_pos ?_
      rw [show ledgerQuiet (setPhase { s with pwr := { s.pwr with entryReq := none, entrySeal := true, toOff := toOff } } 3) = false from hq]
      rfl
    rw [hstay]
    exact ⟨sameCounters_of_rings rfl, rfl, rfl, rfl, nofun⟩
  | true =>
    have henter : beginEntering s toOff = entered (setPhase { s with pwr := { s.pwr with entryReq := none, entrySeal := true, toOff := toOff } } 3) := by
      rw [hseal]
      unfold sealAdvance
      rw [if_neg]
      · refine if_pos ?_
        show (true && !s.sup.sealing) = true
        rw [hs]
        rfl
      · rw [show ledgerQuiet (setPhase { s with pwr := { s.pwr with entryReq := none, entrySeal := true, toOff := toOff } } 3) = true from hq]
        show ¬ (!true || s.sup.sealing && s.sup.hostLost) = true
        rw [hs]
        nofun
    rw [henter]
    unfold entered
    rw [setPwr_frame]
    exact ⟨sameCounters_of_rings rfl, rfl, rfl, rfl, fun _ => ⟨rfl, rfl⟩⟩

/-- A passed request of the management port, with fetching stopped. -/
def goTaken (s : State) : State := stopFetch (raise s Src.mgtArmedWrite 0xFF 0)

theorem goTaken_follows (s : State) : SameCounters s (goTaken s) ∧ (goTaken s).journal = s.journal ∧ (goTaken s).pwr = s.pwr ∧
    (goTaken s).sup = s.sup ∧ (goTaken s).ledger = s.ledger ∧ (goTaken s).hif.fetchStop = true := by
  have hr := raise_evtOnly s Src.mgtArmedWrite 0xFF 0
  unfold EvtOnly at hr
  unfold goTaken
  generalize raise s Src.mgtArmedWrite 0xFF 0 = u at hr ⊢
  have hf := stopFetch_frame u
  have hk := stopFetch_sameCounters u
  generalize stopFetch u = v at hf hk ⊢
  have hc : SameCounters s u := sameCounters_of_rings (by rw [hr])
  refine ⟨hc.trans hk, ?_, ?_, ?_, ?_, ?_⟩ <;> rw [hf]
  · rw [hr]
  · rw [hr]
  · rw [hr]
  · rw [hr]

theorem pwrGoOp_eq {s : State} (h : s.pwr.state ≠ .off) (off : Bool) : pwrGoOp s off =
    if entryCheck s none off = 0 then beginEntering (goTaken s) off else refuseEntry (raise s Src.mgtArmedWrite 0xFF 0) (entryCheck s none off) := by
  have hcheck : entryCheck (raise s Src.mgtArmedWrite 0xFF 0) none off = entryCheck s none off :=
    entryCheck_congr (raise_pwr _ _ _ _) (raise_sup _ _ _ _) (raise_chans _ _ _ _) (raise_journal _ _ _ _) (raise_rings _ _ _ _) none off
  unfold pwrGoOp goTaken
  rw [if_neg h]
  dsimp only
  rw [hcheck]
  rcases entryCheck_cases s none off with e | e | e <;> rw [e] <;> rfl

theorem journal_of_quiescent {s : State} {self : Option Word} (h : quiescent s self = true) : s.journal = [] := by
  unfold quiescent at h
  simp only [Bool.and_eq_true, decide_eq_true_eq] at h
  exact h.1.2

theorem sealing_of_mayRequest {s : State} (h : mayRequest s = true) : s.sup.sealing = false := by
  unfold mayRequest frozen at h
  cases hs : s.sup.sealing with
  | false => rfl
  | true =>
    rw [hs] at h
    simp at h

theorem pwrGoOp_follows {s : State} (hoff : s.pwr.state ≠ .off) (off : Bool) : SameCounters s (pwrGoOp s off) ∧ (pwrGoOp s off).journal = s.journal ∧
        (entryCheck s none off = 0 → (pwrGoOp s off).pwr.toOff = off ∧ (pwrGoOp s off).hif.fetchStop = true ∧
          (ledgerLive s = false → ledgerQuiet s = true → (pwrGoOp s off).pwr.state = .entering ∧ (pwrGoOp s off).sup.journalSealed = true) ∧
          (ledgerLive s = true → (pwrGoOp s off).pwr.state = s.pwr.state ∧ (pwrGoOp s off).pwr.entrySeal = true ∧
            (pwrGoOp s off).ledger.sealState = .sealing ∧ (pwrGoOp s off).sup.sealPhase = 1)) ∧
        (entryCheck s none off ≠ 0 → (pwrGoOp s off).pwr.state = s.pwr.state ∧ (pwrGoOp s off).pwr.refused = true ∧
          (pwrGoOp s off).pwr.why.toNat = entryCheck s none off ∧ (pwrGoOp s off).hif.fetchStop = s.hif.fetchStop) := by
  rw [pwrGoOp_eq hoff off]
  by_cases he : entryCheck s none off = 0
  · rw [if_pos he]
    obtain ⟨hm, hq⟩ := entryCheck_zero he
    obtain ⟨hc, hj, hp, hu, hl, hf⟩ := goTaken_follows s
    have hj0 : (goTaken s).journal = [] := hj.trans (journal_of_quiescent hq)
    have hseal : (goTaken s).sup.sealing = false := by rw [hu]; exact sealing_of_mayRequest hm
    have hlive : ledgerLive (goTaken s) = ledgerLive s := by unfold ledgerLive; rw [hl]
    have hquiet : ledgerQuiet (goTaken s) = ledgerQuiet s := by unfold ledgerQuiet; rw [hl]
    cases hlv : ledgerLive s with
    | true =>
      obtain ⟨k1, k2, k3, k4, k5, k6⟩ := beginEntering_live hj0 (hlive.trans hlv) off
      refine ⟨hc.trans k1, k2.trans hj, fun _ => ⟨by rw [k3], k4.trans hf, nofun, fun _ => ⟨?_, by rw [k3], k5, k6⟩⟩, fun hn => absurd he hn⟩
      rw [k3, hp]
    | false =>
      obtain ⟨k1, k2, k3, k4, k5⟩ := beginEntering_none (hlive.trans hlv) hseal off
      exact ⟨hc.trans k1, k2.trans hj, fun _ => ⟨k3, k4.trans hf, fun _ hq' => k5 (hquiet.trans hq'), nofun⟩, fun hn => absurd he hn⟩
  · rw [if_neg he]
    have hwhy : (BitVec.ofNat 2 (entryCheck s none off)).toNat = entryCheck s none off := by
      rcases entryCheck_cases s none off with e | e | e <;> rw [e] <;> rfl
    have hr := raise_evtOnly s Src.mgtArmedWrite 0xFF 0
    unfold EvtOnly at hr
    generalize raise s Src.mgtArmedWrite 0xFF 0 = u at hr ⊢
    have hf := refuseEntry_frame u (entryCheck s none off)
    generalize refuseEntry u (entryCheck s none off) = v at hf ⊢
    have hv : v.rings = s.rings ∧ v.journal = s.journal ∧ v.pwr = { s.pwr with refused := true, why := BitVec.ofNat 2 (entryCheck s none off) } ∧
        v.hif.fetchStop = s.hif.fetchStop := by
      rw [hf, hr]
      exact ⟨rfl, rfl, rfl, rfl⟩
    obtain ⟨h1, h2, h3, h4⟩ := hv
    refine ⟨sameCounters_of_rings h1, h2, fun e => absurd e he, fun _ => ?_⟩
    rw [h3]
    exact ⟨rfl, rfl, hwhy, h4⟩

/-! ### PME_Turn_Off, and its timeout -/

/-- The link in L2, acknowledged. -/
def linkStopped (s : State) : State := modHif (loseLink (emitOut s .pmeAck)) (fun h => { h with l2 := true })

theorem pmeTurnOff_follows (s : State) : ∃ t, exec .pmeTurnOff s = .next t ∧ ((s.pwr.state ≠ .entering ∨ s.hif.linkUp = false) → t = s) ∧
      (s.pwr.state = .entering → s.hif.linkUp = true → t.pwr.state = .poweringDown ∧ t.hif.linkUp = false ∧
        t.pwr.toOff = s.pwr.toOff ∧ Out.pmeAck ∈ t.sent) := by
  by_cases h : s.pwr.state = .entering ∧ s.hif.linkUp = true
  · refine ⟨startPowerDown (linkStopped s) s.pwr.toOff, congrArg Host.Outcome.next (if_pos h), fun hno => ?_, fun _ _ => ?_⟩
    · rcases hno with e | e
      · exact absurd h.1 e
      · exact absurd (e.symm.trans h.2) nofun
    · obtain ⟨-, -, -, hlink, -⟩ := loseLink_busLost (emitOut s .pmeAck)
      have hsent : (loseLink (emitOut s .pmeAck)).sent = .pmeAck :: s.sent := by simp [loseLink]
      obtain ⟨k1, k2, k3, -, -, k6⟩ := startPowerDown_begins (linkStopped s) s.pwr.toOff
      refine ⟨k1, k3 hlink, k2, k6.subset ?_⟩
      unfold linkStopped
      rw [modHif_sent, hsent]
      exact List.mem_cons_self
  · refine ⟨s, congrArg Host.Outcome.next (if_neg h), fun _ => rfl, fun h1 h2 => absurd ⟨h1, h2⟩ h⟩

theorem resumeService_follows (s : State) (lossy : Bool) : (resumeService s lossy).hif.fetchStop = false ∧
    (resumeService s lossy).sup.journalSealed = false ∧ ∃ v, v ∈ (resumeService s lossy).recov ∧ v.cause = 0x13 ∧ v.lossy = lossy := by
  refine ⟨by rw [resumeService_hif], ?_, ?_⟩
  · unfold resumeService
    rw [startRecovery_sup]
  · unfold resumeService
    rw [startRecovery_recov]
    exact ⟨_, List.mem_append_right _ (List.mem_singleton_self _), rfl, rfl⟩

theorem entryTimeout_follows (s : State) : ∃ t, exec .entryTimeout s = .next t ∧ SameCounters s t ∧ (s.pwr.state ≠ .entering → t = s) ∧
      (s.pwr.state = .entering → t.pwr.state = .run ∧ t.pwr.refused = true ∧ t.pwr.why = 3 ∧
        (s.sup.sealing = false → t.hif.fetchStop = false ∧ t.sup.journalSealed = false ∧ ∃ v, v ∈ t.recov ∧ v.cause = 0x13)) := by
  by_cases h : s.pwr.state = .entering
  · obtain ⟨-, -, hc, hp⟩ := abandonEntry_keeps h
    refine ⟨abandonEntry s, rfl, hc, fun hn => absurd h hn, fun _ => ⟨by rw [hp], by rw [hp], by rw [hp], fun hs => ?_⟩⟩
    rw [abandonEntry_of_entering h, if_neg (by rw [hs]; nofun)]
    obtain ⟨h1, h2, v, hv, hcause, -⟩ := resumeService_follows (entryLeft s) false
    exact ⟨h1, h2, v, hv, hcause⟩
  · exact ⟨s, congrArg Host.Outcome.next (if_neg h), .refl s, fun _ => rfl, fun e => absurd e h⟩

/-- Settles O42: the moves between RUN, IDLE, SLEEP and DEEP, and the request, the seal and the end of an entry. -/
theorem powerStatesMoved : Obligations.PowerStatesMoved := by
  refine ⟨fun s => ⟨idleTimer_follows s, idleExit_follows s, sleepTimer_follows s, ?_, fun h => congrArg Host.Outcome.next (if_pos h),
      fun h => ⟨?_, fun ha => ?_⟩, fun ha => congrArg Host.Outcome.next (if_neg fun e => ha e.1)⟩,
    fun s => ⟨fun seq w h => pwrEnter_follows h, fun i off hi hoff => ?_, pmeTurnOff_follows s, entryTimeout_follows s⟩⟩
  · rfl
  · have hne : s.pwr.state ≠ .off := fun e => absurd (h.symm.trans e) nofun
    exact ⟨_, congrArg Host.Outcome.next (if_neg hne), wakeIf_deep h 0 (code := 1) (by decide)⟩
  · have hne : s.pwr.state ≠ .off := fun e => absurd (h.symm.trans e) nofun
    exact ⟨_, congrArg Host.Outcome.next (if_pos ⟨ha, hne⟩), wakeIf_deep h 1 (code := 3) (by decide)⟩
  · have hrun : exec i s = .next (pwrGoOp s off) := by
      simp only [List.mem_cons, Prod.mk.injEq, List.not_mem_nil, or_false] at hi
      rcases hi with ⟨rfl, rfl⟩ | ⟨rfl, rfl⟩ <;> rfl
    exact ⟨_, hrun, pwrGoOp_follows hoff off⟩

end Sys2Proof.Machine

/-! # Supply crossings and the seal (O40) -/

namespace Sys2Proof.Machine

open Sys2Proof

/-! ### What the seal's part in the ledger moves -/

/-- The ledger, the rings' records, the power state and the seal's own progress: nothing else moves while a seal goes on. -/
def SealFrame (s t : State) : Prop :=
  t = { s with hif := s.hif.faulted t.hif, rings := t.rings, ledger := t.ledger, upl := t.upl, pwr := t.pwr, fw := t.fw, evt := t.evt, sent := t.sent
               sup := { s.sup with sealPhase := t.sup.sealPhase, journalSealed := t.sup.journalSealed, hostLost := t.sup.hostLost } }

theorem SealFrame.refl (s : State) : SealFrame s s := rfl

theorem SealFrame.trans {s t u : State} (h : SealFrame s t) (h' : SealFrame t u) : SealFrame s u := by
  unfold SealFrame at h h' ⊢
  rw [h] at h'
  rw [h']
  rfl

theorem EvtOnly.sealFrame {s t : State} (h : EvtOnly s t) : SealFrame s t := by
  unfold EvtOnly at h
  rw [h]
  rfl

theorem LedgerActs.sealFrame {s t : State} (h : LedgerActs s t) : SealFrame s t := by
  rw [h.frame]
  rfl

theorem foldl_sealFrame {α : Type} (f : State → α → State) (h : ∀ s a, SealFrame s (f s a)) (l : List α) (s : State) : SealFrame s (l.foldl f s) := by
  induction l generalizing s with
  | nil => exact .refl s
  | cons a l ih => exact (h s a).trans (ih (f s a))

theorem rings_sealFrame (s : State) (v : Vector Ring 160) : SealFrame s { s with rings := v } := rfl

theorem setRing_sealFrame (s : State) (r : Nat) (f : Ring → Ring) : SealFrame s (setRing s r f) := rings_sealFrame s _

theorem evt_sealFrame (s : State) (e : Evt) : SealFrame s { s with evt := e } := rfl

theorem sent_sealFrame (s : State) (l : List Out) : SealFrame s { s with sent := l } := rfl

theorem ledger_sealFrame (s : State) (l : Ledger) : SealFrame s { s with ledger := l } := rfl

theorem setPhase_sealFrame (s : State) (n : Fin 4) : SealFrame s (setPhase s n) := rfl

theorem setPwr_sealFrame (s : State) (st : PwrSt) : SealFrame s (setPwr s st) := by
  rw [setPwr_frame]
  rfl

/-! ### A record -/

theorem markIssued_sealFrame (s : State) (x : RecSrc) : SealFrame s (markIssued s x) := by
  cases x with
  | work r n => exact rings_sealFrame s _
  | event => exact evt_sealFrame s _
  | recoveryDone => exact .refl s

theorem sendMsix_sealFrame (s : State) (fv : Nat × Nat) : SealFrame s (sendMsix s fv) := (sendMsix_evtOnly s fv).sealFrame

theorem countRecord_sealFrame (s : State) (q : Nat) (irq : Bool) : SealFrame s (countRecord s q irq) := by
  have counted : SealFrame s
      (if modFires (ringAt s q) ((ringAt s q).modCnt + 1) then
        sendMsix (setRing s q (fun g => { g with modCnt := 0 })) (ringOwner s q, (ringAt s q).vector.toNat)
      else setRing s q (fun g => { g with modCnt := (ringAt s q).modCnt + 1 })) := by
    split
    · exact (setRing_sealFrame s q _).trans (sendMsix_sealFrame _ _)
    · exact setRing_sealFrame s q _
  have sends : ∀ (e : Evt) (m : List (Nat × Nat)), SealFrame s (sendAll { s with evt := e } m) :=
    fun e m => (evt_sealFrame s e).trans (foldl_sealFrame sendMsix sendMsix_sealFrame m _)
  unfold countRecord
  split
  · exact .refl s
  · dsimp only
    split
    · split
      · exact sends _ _
      · exact counted
    · exact counted

theorem issueRecord_sealFrame (s : State) (q addr : Nat) (x : Issued) : SealFrame s (issueRecord s q addr x) :=
  ((setRing_sealFrame s q _).trans (sent_sealFrame _ _)).trans (countRecord_sealFrame _ q _)

theorem stall_sealFrame (s : State) (q : Nat) : SealFrame s (stall s q) := by
  unfold stall
  split
  · exact .refl s
  · exact (setRing_sealFrame s q _).trans (raise_evtOnly _ _ _ _).sealFrame

theorem ringWindowFault_sealFrame (s : State) (r addr : Nat) : SealFrame s (ringWindowFault s r addr) :=
  ((setRing_sealFrame s r _).trans (latchFault_ledgerActs _ _ _ _ _).sealFrame).trans (raise_evtOnly _ _ _ _).sealFrame

theorem holdRecord_sealFrame (s : State) (q addr : Nat) (w : Bool) : SealFrame s (holdRecord s q addr w) := by
  unfold holdRecord
  split
  · exact ((ringWindowFault_sealFrame s q addr).trans (setRing_sealFrame _ q _)).trans (stall_sealFrame _ q)
  · exact stall_sealFrame s q

theorem putRecord_sealFrame (s : State) (q : Nat) (x : Issued) : SealFrame s (putRecord s q x) := by
  unfold putRecord
  dsimp only
  split
  · exact (markIssued_sealFrame s _).trans (issueRecord_sealFrame _ _ _ _)
  · exact holdRecord_sealFrame s _ _ _

theorem rewriteLost_sealFrame (s : State) (q : Nat) : SealFrame s (rewriteLost s q) := by
  unfold rewriteLost
  split
  · exact .refl s
  · dsimp only
    split
    · exact ((setRing_sealFrame s q _).trans (markIssued_sealFrame _ _)).trans (issueRecord_sealFrame _ _ _ _)
    · exact holdRecord_sealFrame s _ _ _

theorem tryRecord_sealFrame (s : State) (r : Nat) : SealFrame s (tryRecord s r) := by
  unfold tryRecord
  split
  · exact .refl s
  · dsimp only
    split
    · exact .refl s
    · split
      · split
        · exact rewriteLost_sealFrame s _
        · exact .refl s
      · split
        · exact putRecord_sealFrame s _ _
        · split
          · exact .refl s
          · split
            · exact holdRecord_sealFrame s _ _ _
            · exact putRecord_sealFrame s _ _

theorem sealRing_sealFrame (n : Nat) (s : State) (r : Nat) : SealFrame s (sealRing n s r) := by
  induction n generalizing s with
  | zero => exact .refl s
  | succ n ih =>
    unfold sealRing
    split
    · exact .refl s
    · split
      · exact .refl s
      · dsimp only
        split
        · exact tryRecord_sealFrame s r
        · exact (tryRecord_sealFrame s r).trans (ih _)

/-! ### The steps of the seal -/

theorem sealOne_sealFrame (s : State) : SealFrame s (sealOne s) := by
  have step : ∀ (t : State) (r : RingNo), SealFrame t (if hostWritten r.val then sealRing 256 t r.val else t) := by
    intro t r
    split
    · exact sealRing_sealFrame 256 t r.val
    · exact .refl t
  unfold sealOne
  exact (((ledger_sealFrame s _).trans (writeHeaders_ledgerActs _).sealFrame).trans (foldl_sealFrame _ step allRings _)).trans (setPhase_sealFrame _ 1)

theorem benchBoth_sealFrame (s : State) (r : RingNo) : SealFrame s (benchBoth s r) := by
  unfold benchBoth
  split
  · exact ((setRing_sealFrame s r.val _).trans (ledgerWrite_ledgerActs _ _ _ _).sealFrame).trans (ledgerWrite_ledgerActs _ _ _ _).sealFrame
  · exact .refl s

theorem sealTwo_sealFrame (s : State) : SealFrame s (sealTwo s) := by
  unfold sealTwo
  dsimp only
  refine SealFrame.trans (SealFrame.trans ?_ (foldl_sealFrame benchBoth benchBoth_sealFrame allRings _)) (setPhase_sealFrame _ 2)
  split
  · exact ledger_sealFrame s _
  · exact (ledger_sealFrame s _).trans (ledgerWrite_ledgerActs _ _ _ _).sealFrame

theorem sealThree_sealFrame (s : State) : SealFrame s (sealThree s) := by
  unfold sealThree
  split
  · exact setPhase_sealFrame s 3
  · exact ((ledger_sealFrame s _).trans (writeHeaders_ledgerActs _).sealFrame).trans (setPhase_sealFrame _ 3)

theorem entered_sealFrame (s : State) : SealFrame s (entered s) := by
  have h : SealFrame s { s with sup := { s.sup with journalSealed := true, sealPhase := 0 }, pwr := { s.pwr with entrySeal := false } } := rfl
  exact h.trans (setPwr_sealFrame _ _)

theorem sealAdvance_sealFrame (s : State) : SealFrame s (sealAdvance s) := by
  unfold sealAdvance
  split
  · exact .refl s
  · split
    · exact sealTwo_sealFrame s
    · exact sealThree_sealFrame s
    · split
      · exact entered_sealFrame s
      · exact .refl s
    · exact .refl s

theorem sealLedger_sealFrame (s : State) : SealFrame s (sealLedger s) := by
  unfold sealLedger
  split
  · exact sealOne_sealFrame s
  · exact (setPhase_sealFrame s 3).trans (sealAdvance_sealFrame _)

theorem sealStarts_sealFrame (s : State) : SealFrame s (sealStarts s) := by
  have lost : SealFrame s (modSup s (fun u => { u with hostLost := true })) := rfl
  have begun : SealFrame s (modSup s (fun u => { u with sealPhase := 0 })) := rfl
  unfold sealStarts
  split
  · exact lost
  · split
    · exact sealAdvance_sealFrame s
    · exact begun.trans (sealLedger_sealFrame _)

theorem leaveSleep_sealFrame (s : State) : SealFrame s (leaveSleep s) := by
  unfold leaveSleep
  split
  · exact setPwr_sealFrame s .run
  · exact .refl s

theorem ponWake_sealFrame (s : State) : SealFrame s (ponWake s) := by
  have wakes : ∀ u : State, SealFrame u { u with upl := { u.upl with ponMode := .awake, rxOn := true } } := fun _ => rfl
  unfold ponWake
  dsimp only
  split
  · exact (leaveSleep_sealFrame s).trans (wakes _)
  · exact wakes s

theorem dyingGasp_sealFrame (s : State) (b : Bool) : SealFrame s (dyingGasp s b) := by
  have upl : ∀ (u : State) (f : Upl → Upl), SealFrame u (setUpl u f) := fun _ _ => rfl
  unfold dyingGasp
  split
  · exact ponWake_sealFrame s
  · exact (ponWake_sealFrame s).trans (upl _ _)

/-! ### An entry of the supply log -/

/-- An entry of the supply log is an occurrence at most, and moves the log alone. -/
def LogFrame (s t : State) : Prop :=
  t = { s with hif := { s.hif with funcs := t.hif.funcs }, evt := t.evt, sent := t.sent, free := t.free
               sup := { s.sup with log := t.sup.log, written := t.sup.written, lost := t.sup.lost } }

theorem LogFrame.refl (s : State) : LogFrame s s := rfl

theorem LogFrame.trans {s t u : State} (h : LogFrame s t) (h' : LogFrame t u) : LogFrame s u := by
  unfold LogFrame at h h' ⊢
  rw [h] at h'
  rw [h']

theorem EvtOnly.logFrame {s t : State} (h : EvtOnly s t) : LogFrame s t := by
  unfold EvtOnly at h
  rw [h]
  rfl

theorem LogFrame.keeps {s t : State} (h : LogFrame s t) : t.datum = s.datum ∧ t.part = s.part ∧ t.journal = s.journal ∧ t.rings = s.rings ∧
    t.pwr = s.pwr ∧ t.chans = s.chans ∧ t.sup.comps = s.sup.comps ∧ t.sup.sealing = s.sup.sealing ∧ t.sup.onBat = s.sup.onBat := by
  unfold LogFrame at h
  rw [h]
  exact ⟨rfl, rfl, rfl, rfl, rfl, rfl, rfl, rfl, rfl⟩

theorem drew_logFrame (s : State) : LogFrame s (drew s) := rfl

/-- An entry stands first in the log, which keeps 32 (R289). -/
theorem logEntry_logs (s : State) (e : SupLog) : LogFrame s (logEntry s e) ∧ (logEntry s e).sup.log = (e :: s.sup.log).take 32 ∧
    (logEntry s e).sup.written = s.sup.written + 1 := by
  have logged : ∀ lost, LogFrame s { s with sup := { s.sup with log := (e :: s.sup.log).take 32, written := s.sup.written + 1, lost := lost } } :=
    fun _ => rfl
  unfold logEntry
  dsimp only
  split
  · exact ⟨(logged _).trans (raiseC_evtOnly _ _ _ _).logFrame, by rw [raiseC_sup], by rw [raiseC_sup]⟩
  · exact ⟨logged _, rfl, rfl⟩

theorem supplyLog_logs (s : State) (kind input detail : Nat) (value : Word) (start : Nat) (valid : Bool) :
    LogFrame s (supplyLog s kind input detail value start valid) ∧
    (supplyLog s kind input detail value start valid).sup.written = s.sup.written + 1 ∧
    ∃ e, (supplyLog s kind input detail value start valid).sup.log = (e :: s.sup.log).take 32 ∧ e.kind = BitVec.ofNat 8 kind ∧
      e.input = BitVec.ofNat 8 input ∧ e.detail = BitVec.ofNat 8 detail ∧ e.sec = word (instSec start) ∧ e.ns = word (instNsPart start) := by
  obtain ⟨h1, h2, h3⟩ := logEntry_logs s { sec := word (instSec start), ns := word (instNsPart start), value := value, kind := BitVec.ofNat 8 kind
                                           input := BitVec.ofNat 8 input, detail := BitVec.ofNat 8 detail, flags := BitVec.ofNat 8 (flagAt (!valid) 0) }
  exact ⟨h1, h3, _, h2, rfl, rfl, rfl, rfl, rfl⟩

/-- A disturbance that closes is logged (R289). -/
theorem closeDist_logs (s : State) (kind i start : Nat) (valid : Bool) : LogFrame s (closeDist s kind i start valid) ∧
    (closeDist s kind i start valid).sup.written = s.sup.written + 1 ∧
    ∃ e, (closeDist s kind i start valid).sup.log = (e :: s.sup.log).take 32 ∧ e.kind = BitVec.ofNat 8 kind ∧ e.input = BitVec.ofNat 8 i ∧
      e.sec = word (instSec start) ∧ e.ns = word (instNsPart start) := by
  obtain ⟨h1, h2, e, h3, h4, h5, -, h6, h7⟩ := supplyLog_logs (drew s) kind i ((Config.freeWord s.free).toNat % 256)
    (word (min ((before s 100 - start) / usUnit) 0xFFFFFFFF)) start valid
  unfold closeDist
  dsimp only
  refine ⟨((drew_logFrame s).trans h1).trans (raise_evtOnly _ _ _ _).logFrame, ?_, e, ?_, h4, h5, h6, h7⟩
  · rw [raise_sup]
    exact h2
  · rw [raise_sup]
    exact h3

theorem closes_logFrame (s : State) (i : Nat) (c : Comp) (x : Crossing) : LogFrame s (closes s i c x) := by
  unfold closes
  split
  · exact (closeDist_logs s _ i _ _).1
  · exact (closeDist_logs s _ i _ _).1
  · exact .refl s

theorem dyingGaspEnd_logFrame (s : State) : ∃ u, LogFrame { s with upl := u } (dyingGaspEnd s) := by
  unfold dyingGaspEnd
  dsimp only
  split
  · have h := (drew_logFrame s).trans (supplyLog_logs (drew s) 5 ((Config.freeWord s.free).toNat % 256) s.upl.dgPloams (word s.upl.dgHeaders)
      s.upl.dgStart s.upl.dgValid).1
    generalize supplyLog (drew s) 5 ((Config.freeWord s.free).toNat % 256) s.upl.dgPloams (word s.upl.dgHeaders)
      s.upl.dgStart s.upl.dgValid = v at h ⊢
    refine ⟨{ v.upl with dgActive := false, dgLeft := 0 }, ?_⟩
    unfold LogFrame at h ⊢
    rw [h]
    rfl
  · exact ⟨s.upl, rfl⟩

/-! ### Every output shed -/

/-- Every channel's output shed. -/
def feedsShed (s : State) (last : Nat) : State := { s with chans := vmapIdx (fun _ k => { k with feed := shedOne last k.feed }) s.chans }

theorem shedAll_logFrame (s : State) (last detail : Nat) : LogFrame (feedsShed s last) (shedAll s last detail) := by
  have h := (supplyLog_logs (drew (drew (feedsShed s last))) 7 ((Config.freeWord s.free).toNat % 256) detail
    (Config.freeWord (drew (feedsShed s last)).free) (drew (feedsShed s last)).datum (drew (feedsShed s last)).time.valid).1
  exact (((drew_logFrame (feedsShed s last)).trans (drew_logFrame _)).trans h).trans (raise_evtOnly _ _ _ _).logFrame

/-- A shed output is off by the shed, by its target, or by LOCKED_OFF (R295). -/
theorem shedOne_state (last : Nat) (f : Feed) :
    (shedOne last f).state = .shed ∨ (shedOne last f).state = .off ∨ (shedOne last f).state = .lockedOff := by
  unfold shedOne
  split
  next h => exact .inr (.inl h)
  next h => exact .inr (.inr h)
  next h => exact .inl h
  next => exact .inl rfl

theorem shedAll_keeps (s : State) (last detail : Nat) : (shedAll s last detail).rings = s.rings ∧
    (shedAll s last detail).sup.sealing = s.sup.sealing := by
  obtain ⟨-, -, -, h1, -, -, -, h2, -⟩ := (shedAll_logFrame s last detail).keeps
  rw [h1, h2]
  simp only [feedsShed]
  exact ⟨trivial, trivial⟩

theorem shedAll_state (s : State) (last detail : Nat) {c : Nat} (hc : c < 24) : (chanAt (shedAll s last detail) c).feed.state = .shed ∨
    (chanAt (shedAll s last detail) c).feed.state = .off ∨ (chanAt (shedAll s last detail) c).feed.state = .lockedOff := by
  obtain ⟨-, -, -, -, -, hch, -⟩ := (shedAll_logFrame s last detail).keeps
  rw [chanAt_vmapIdx (s := s) (f := fun _ k => { k with feed := shedOne last k.feed }) hch hc]
  exact shedOne_state last _

/-! ### The seal begins -/

/-- A seal begun: fetching stops (R292). -/
def sealBegun (s : State) (bat : Bool) : State :=
  modHif (modSup s (fun u => { u with sealing := true, batSeal := bat, hostLost := false, sealStart := s.datum, sealValid := s.time.valid }))
    (fun h => { h with fetchStop := true })

theorem startSeal_begins {s : State} (h : s.sup.sealing = false) (bat : Bool) : SealFrame (sealBegun s bat) (startSeal s bat) := by
  have raised : SealFrame (sealBegun s bat) (raise (sealBegun s bat) Src.sealStart 0xFF 0) := (raise_evtOnly _ _ _ _).sealFrame
  unfold startSeal
  rw [if_neg (by rw [h]; exact Bool.false_ne_true)]
  dsimp only
  split
  · exact raised
  · exact (raised.trans (dyingGasp_sealFrame _ _)).trans (sealStarts_sealFrame _)

/-- The battery carries the terminal. -/
def batCarries (s : State) : Bool :=
  match (compAt s 1).lvl with | .low | .int => false | _ => true

theorem batCarries_iff (s : State) : batCarries s = true ↔ (compAt s 1).lvl ≠ .low ∧ (compAt s 1).lvl ≠ .int := by
  unfold batCarries
  cases (compAt s 1).lvl <;> decide

/-- ON_BAT follows the battery (R291). -/
def batTold (s : State) : State := modSup s (fun u => { u with onBat := batCarries s })

/-- The feeds held shed by the seal (R295). -/
def shedHeld (s : State) : State := modSup s (fun u => { u with shedSeal := true })

/-- The feeds are shed unless the battery carries them (R295). -/
def tripShed (s : State) : State :=
  if batCarries s && s.sup.feedOnBat then batTold s
  else if s.pwr.domFeed then shedAll (shedHeld (batTold s)) 5 0
  else batTold s

theorem mainTrip_eq (s : State) : mainTrip s = startSeal (tripShed s) false := rfl

/-- What the trip leaves before its seal. -/
theorem tripShed_follows (s : State) : (tripShed s).datum = s.datum ∧ (tripShed s).part = s.part ∧ (tripShed s).journal = s.journal ∧
    (tripShed s).sup.comps = s.sup.comps ∧ (tripShed s).sup.sealing = s.sup.sealing ∧ (tripShed s).sup.onBat = batCarries s := by
  have told : ∀ v, v = batTold s → v.datum = s.datum ∧ v.part = s.part ∧ v.journal = s.journal ∧ v.sup.comps = s.sup.comps ∧
      v.sup.sealing = s.sup.sealing ∧ v.sup.onBat = batCarries s := by
    rintro v rfl
    exact ⟨rfl, rfl, rfl, rfl, rfl, rfl⟩
  have shed : ∀ v, LogFrame (feedsShed (shedHeld (batTold s)) 5) v → v.datum = s.datum ∧ v.part = s.part ∧ v.journal = s.journal ∧
      v.sup.comps = s.sup.comps ∧ v.sup.sealing = s.sup.sealing ∧ v.sup.onBat = batCarries s := by
    intro v h
    obtain ⟨h1, h2, h3, -, -, -, h4, h5, h6⟩ := h.keeps
    refine ⟨h1.trans ?_, h2.trans ?_, h3.trans ?_, h4.trans ?_, h5.trans ?_, h6.trans ?_⟩ <;> simp only [feedsShed, shedHeld, batTold, modSup]
  unfold tripShed
  split
  · exact told _ rfl
  · split
    · exact shed _ (shedAll_logFrame _ 5 0)
    · exact told _ rfl

theorem tripShed_feeds {s : State} (hd : s.pwr.domFeed = true) (hno : batCarries s = false ∨ s.sup.feedOnBat = false) {c : Nat} (hc : c < 24) :
    (chanAt (tripShed s) c).feed.state = .shed ∨ (chanAt (tripShed s) c).feed.state = .off ∨ (chanAt (tripShed s) c).feed.state = .lockedOff := by
  unfold tripShed
  rw [if_neg, if_pos hd]
  · exact shedAll_state _ 5 0 hc
  · rcases hno with e | e <;> rw [e] <;> simp

/-! ### The comparators stand while a crossing takes effect -/

/-- The comparators, the datum and the part stay. -/
def CompsKept (s t : State) : Prop := t.datum = s.datum ∧ t.part = s.part ∧ t.sup.comps = s.sup.comps

theorem CompsKept.refl (s : State) : CompsKept s s := ⟨rfl, rfl, rfl⟩

theorem CompsKept.trans {s t u : State} (h : CompsKept s t) (h' : CompsKept t u) : CompsKept s u :=
  ⟨h'.1.trans h.1, h'.2.1.trans h.2.1, h'.2.2.trans h.2.2⟩

theorem SealFrame.comps {s t : State} (h : SealFrame s t) : CompsKept s t := by
  unfold SealFrame at h
  rw [h]
  exact ⟨rfl, rfl, rfl⟩

theorem LogFrame.comps {s t : State} (h : LogFrame s t) : CompsKept s t := by
  obtain ⟨h1, h2, -, -, -, -, h3, -⟩ := h.keeps
  exact ⟨h1, h2, h3⟩

theorem chans_comps (s : State) (v : Vector Chan 24) : CompsKept s { s with chans := v } := ⟨rfl, rfl, rfl⟩

theorem modPwr_comps (s : State) (f : Pwr → Pwr) : CompsKept s (modPwr s f) := ⟨rfl, rfl, rfl⟩

theorem modHif_comps (s : State) (f : Hif → Hif) : CompsKept s (modHif s f) := ⟨rfl, rfl, rfl⟩

theorem modSup_comps (s : State) (f : Sup → Sup) (h : (f s.sup).comps = s.sup.comps) : CompsKept s (modSup s f) := ⟨rfl, rfl, h⟩

theorem shedAll_comps (s : State) (last detail : Nat) : CompsKept s (shedAll s last detail) :=
  (chans_comps s _).trans (shedAll_logFrame s last detail).comps

theorem unshed_comps (s : State) : CompsKept s (unshed s) := chans_comps s _

theorem tryUnshed_comps (s : State) : CompsKept s (tryUnshed s) := by
  unfold tryUnshed
  split
  · exact .refl s
  · exact unshed_comps s

theorem endSealShed_comps (s : State) : CompsKept s (endSealShed s) := by
  unfold endSealShed
  split
  · exact (modSup_comps s _ rfl).trans (tryUnshed_comps _)
  · exact .refl s

theorem resumeService_comps (s : State) (lossy : Bool) : CompsKept s (resumeService s lossy) := by
  unfold resumeService CompsKept
  rw [startRecovery_datum, startRecovery_part, startRecovery_sup]
  exact ⟨rfl, rfl, rfl⟩

theorem abandonEntry_comps (s : State) : CompsKept s (abandonEntry s) := by
  by_cases h : s.pwr.state = .entering
  · have left : CompsKept s (entryLeft s) :=
      (modPwr_comps s (fun p => { p with refused := true, why := 3, entryReq := none })).trans (setPwr_sealFrame _ _).comps
    rw [abandonEntry_of_entering h]
    split
    · exact left
    · exact left.trans (resumeService_comps _ _)
  · unfold abandonEntry
    rw [if_neg h]
    exact .refl s

theorem wakeIf_comps (s : State) (bit code : Nat) : CompsKept s (wakeIf s bit code) := by
  have asserted : ∀ t : State, CompsKept t (if code = 2 then t else modHif t (fun h => { h with pcieWake := h.pcieWake || h.perst })) := by
    intro t
    split
    · exact .refl t
    · exact modHif_comps t _
  unfold wakeIf wakeSource
  split
  · dsimp only
    cases s.pwr.state with
    | deep => exact ((modPwr_comps s _).trans (setPwr_sealFrame _ _).comps).trans (asserted _)
    | waking => exact asserted s
    | poweringDown => exact modPwr_comps s _
    | entering => exact abandonEntry_comps s
    | sleep => exact (leaveSleep_sealFrame s).comps
    | run => exact .refl s
    | idle => exact .refl s
    | off => exact .refl s
  · exact .refl s

theorem startSeal_comps (s : State) (bat : Bool) : CompsKept s (startSeal s bat) := by
  cases h : s.sup.sealing with
  | false =>
    have begun : CompsKept s (sealBegun s bat) := ⟨rfl, rfl, rfl⟩
    exact begun.trans (startSeal_begins h bat).comps
  | true =>
    unfold startSeal
    rw [if_pos h]
    exact modSup_comps s _ rfl

theorem mainTrip_comps (s : State) : CompsKept s (mainTrip s) := by
  obtain ⟨h1, h2, -, h3, -⟩ := tripShed_follows s
  rw [mainTrip_eq]
  exact CompsKept.trans ⟨h1, h2, h3⟩ (startSeal_comps _ _)

theorem dyingGaspEnd_comps (s : State) : CompsKept s (dyingGaspEnd s) := by
  obtain ⟨u, h⟩ := dyingGaspEnd_logFrame s
  obtain ⟨h1, h2, h3⟩ := h.comps
  exact ⟨h1, h2, h3⟩

theorem mainRestore_comps (s : State) : CompsKept s (mainRestore s) := by
  have calm : CompsKept s (if s.pwr.state = .poweringDown then modSup s (fun u => { u with onBat := false })
      else dyingGaspEnd (modSup s (fun u => { u with onBat := false }))) := by
    split
    · exact modSup_comps s _ rfl
    · exact (modSup_comps s _ rfl).trans (dyingGaspEnd_comps _)
  have begins : ∀ v : State, CompsKept v
      (if v.pwr.cold && decide (v.pwr.upStep = 0) then modPwr v (fun p => { p with upStep := 1 }) else wakeIf v 2 4) := by
    intro v
    split
    · exact modPwr_comps v _
    · exact wakeIf_comps v 2 4
  exact (calm.trans (endSealShed_comps _)).trans (begins _)

theorem feedCross_comps (s : State) (x : Crossing) : CompsKept s (feedCross s x) := by
  have told : CompsKept s (if x = .restore then modSup s (fun u => { u with feedBack := some s.datum }) else s) := by
    split
    · exact modSup_comps s _ rfl
    · exact .refl s
  unfold feedCross
  dsimp only
  generalize (if x = .restore then modSup s (fun u => { u with feedBack := some s.datum }) else s) = v at told ⊢
  refine told.trans ?_
  split
  · exact .refl v
  · cases x with
    | low => exact chans_comps v _
    | int => exact shedAll_comps v _ _
    | high => exact shedAll_comps v _ _
    | restore => exact CompsKept.trans (t := resumeInrush v) (chans_comps v _) (tryUnshed_comps _)
    | surgeEnd => exact tryUnshed_comps v

theorem crossEffect_comps (s : State) (i : SupIn) (x : Crossing) (trip close : Bool) : CompsKept s (crossEffect s i x trip close) := by
  have woken : CompsKept s (if trip then leaveSleep s else s) := by
    split
    · exact (leaveSleep_sealFrame s).comps
    · exact .refl s
  unfold crossEffect
  dsimp only
  generalize (if trip then leaveSleep s else s) = v at woken ⊢
  refine woken.trans ?_
  cases i with
  | main =>
    dsimp only
    split
    · exact mainTrip_comps v
    · split
      · exact mainRestore_comps v
      · exact .refl v
  | bat =>
    dsimp only
    split
    · exact startSeal_comps v true
    · exact .refl v
  | feed => exact feedCross_comps v x
  | aux =>
    dsimp only
    split
    · exact wakeIf_comps v 3 5
    · exact .refl v

/-! ### Crossings -/

/-- A crossing declared: its log entry, and its comparator. -/
def crossingTold (s : State) (i : SupIn) (x : Crossing) : State :=
  setComp (closes s (supIdx i) (compAt s (supIdx i)) x) (supIdx i) (crossed s (compAt s (supIdx i)) x)

theorem exec_crossing {s : State} {i : SupIn} {x : Crossing} (hoff : s.pwr.state ≠ .off) (hx : ¬ (i = .aux ∧ x = .int))
    (hp : possible (compAt s (supIdx i)) x = true) : exec (.levelCrossingDeclared i x) s =
      .next (crossEffect (crossingTold s i x) i x (isTrip (compAt s (supIdx i)) x) (isClose (compAt s (supIdx i)) x)) := by
  refine congrArg Host.Outcome.next (if_neg ?_)
  rintro (h | h | h)
  · exact hoff h
  · exact hx h
  · rw [hp] at h
    cases h

theorem crossingTold_comps (s : State) (i : SupIn) (x : Crossing) : (crossingTold s i x).datum = s.datum ∧ (crossingTold s i x).part = s.part ∧
    compAt (crossingTold s i x) (supIdx i) = crossed s (compAt s (supIdx i)) x ∧
    ∀ j, j ≠ supIdx i → compAt (crossingTold s i x) j = compAt s j := by
  obtain ⟨h1, h2, h3⟩ := (closes_logFrame s (supIdx i) (compAt s (supIdx i)) x).comps
  refine ⟨h1, h2, vget_vset_self _ _ _ _ (by cases i <;> decide), fun j hj => ?_⟩
  refine (vget_vset_ne _ _ _ _ _ hj).trans ?_
  rw [h3]
  rfl

theorem compAt_congr {s t : State} (h : CompsKept s t) (i : Nat) : compAt t i = compAt s i := by
  unfold compAt
  rw [h.2.2]

theorem crossing_follows (s : State) (i : SupIn) (x : Crossing) : ∃ t, exec (.levelCrossingDeclared i x) s = .next t ∧ t.datum = s.datum ∧
      t.part = s.part ∧ (s.pwr.state = .off ∨ possible (compAt s (supIdx i)) x = false ∨ (i = .aux ∧ x = .int) → t = s) ∧
      (s.pwr.state ≠ .off → possible (compAt s (supIdx i)) x = true → ¬ (i = .aux ∧ x = .int) →
        compAt t (supIdx i) = crossed s (compAt s (supIdx i)) x ∧ ∀ j, j ≠ supIdx i → compAt t j = compAt s j) := by
  by_cases h : s.pwr.state ≠ .off ∧ possible (compAt s (supIdx i)) x = true ∧ ¬ (i = .aux ∧ x = .int)
  · obtain ⟨hoff, hp, hx⟩ := h
    have heff := crossEffect_comps (crossingTold s i x) i x (isTrip (compAt s (supIdx i)) x) (isClose (compAt s (supIdx i)) x)
    obtain ⟨h1, h2, h3, h4⟩ := crossingTold_comps s i x
    refine ⟨_, exec_crossing hoff hx hp, heff.1.trans h1, heff.2.1.trans h2, fun hno => ?_, fun _ _ _ => ⟨?_, fun j hj => ?_⟩⟩
    · rcases hno with e | e | e
      · exact absurd e hoff
      · exact absurd (e.symm.trans hp) nofun
      · exact absurd e hx
    · exact (compAt_congr heff _).trans h3
    · exact (compAt_congr heff j).trans (h4 j hj)
  · refine ⟨s, congrArg Host.Outcome.next (if_pos ?_), rfl, rfl, fun _ => rfl, fun h1 h2 h3 => absurd ⟨h1, h2, h3⟩ h⟩
    by_contra hno
    simp only [not_or, Bool.not_eq_true', Bool.not_eq_false] at hno
    exact h ⟨hno.1, hno.2.2, hno.2.1⟩

/-- A trip of CMP_MAIN begins a seal (R291, R292). -/
theorem mainLow_seals {s : State} (hoff : s.pwr.state ≠ .off) (hd : (compAt s 0).dist = none) (hs : s.sup.sealing = false) :
    ∃ t, exec (.levelCrossingDeclared .main .low) s = .next t ∧ t.sup.sealing = true ∧ t.hif.fetchStop = true ∧
        t.sup.sealStart = s.datum ∧ (compAt t 0).lvl = .low ∧ t.journal = s.journal ∧
        (t.sup.onBat = true ↔ (compAt s 1).lvl ≠ .low ∧ (compAt s 1).lvl ≠ .int) ∧
        (s.pwr.domFeed = true → (t.sup.onBat = false ∨ s.sup.feedOnBat = false) → ∀ c, c < 24 →
          (chanAt t c).feed.state = .shed ∨ (chanAt t c).feed.state = .off ∨ (chanAt t c).feed.state = .lockedOff) := by
  have hp : possible (compAt s (supIdx .main)) .low = true := by
    show (compAt s 0).dist.isNone = true
    rw [hd]
    rfl
  have htrip : isTrip (compAt s (supIdx .main)) .low = true := hp
  have hrun := exec_crossing (i := .main) (x := .low) hoff (fun e => absurd e.1 nofun) hp
  rw [htrip] at hrun
  have htold : crossingTold s .main .low = setComp s 0 (crossed s (compAt s 0) .low) := rfl
  have hlvl : (crossed s (compAt s 0) .low).lvl = .low := by
    unfold crossed
    rw [hd]
  refine ⟨mainTrip (leaveSleep (crossingTold s .main .low)), hrun, ?_⟩
  have hleft : SealFrame (setComp s 0 (crossed s (compAt s 0) .low)) (leaveSleep (crossingTold s .main .low)) := leaveSleep_sealFrame _
  have hdom : (leaveSleep (crossingTold s .main .low)).pwr.domFeed = s.pwr.domFeed := by
    unfold leaveSleep
    split
    · rw [setPwr_pwr]
      rfl
    · rfl
  generalize leaveSleep (crossingTold s .main .low) = u at hleft hdom ⊢
  have hu : u.datum = s.datum ∧ u.journal = s.journal ∧ u.sup.sealing = false ∧ u.sup.feedOnBat = s.sup.feedOnBat ∧
      compAt u 0 = crossed s (compAt s 0) .low ∧ compAt u 1 = compAt s 1 := by
    have hc := hleft.comps
    have h0 : compAt (setComp s 0 (crossed s (compAt s 0) .low)) 0 = crossed s (compAt s 0) .low := vget_vset_self _ _ _ _ (by decide)
    have h1 : compAt (setComp s 0 (crossed s (compAt s 0) .low)) 1 = compAt s 1 := vget_vset_ne _ _ _ _ _ (by decide)
    refine ⟨hc.1, ?_, ?_, ?_, (compAt_congr hc 0).trans h0, (compAt_congr hc 1).trans h1⟩ <;> unfold SealFrame at hleft <;> rw [hleft]
    · rfl
    · exact hs
    · rfl
  obtain ⟨u1, u2, u3, u4, u5, u6⟩ := hu
  obtain ⟨t1, -, t3, t4, t5, t6⟩ := tripShed_follows u
  have hseal := startSeal_begins (s := tripShed u) (t5.trans u3) false
  have hfeeds : ∀ c, c < 24 → u.pwr.domFeed = true → (batCarries u = false ∨ u.sup.feedOnBat = false) → _ :=
    fun c hc hd hno => tripShed_feeds (s := u) hd hno hc
  have hbat : batCarries u = batCarries s := by
    unfold batCarries
    rw [u6]
  rw [mainTrip_eq]
  generalize tripShed u = v at t1 t3 t4 t5 t6 hseal hfeeds ⊢
  generalize startSeal v false = w at hseal ⊢
  have hw : w.sup.sealing = true ∧ w.hif.fetchStop = true ∧ w.sup.sealStart = v.datum ∧ w.sup.comps = v.sup.comps ∧ w.journal = v.journal ∧
      w.sup.onBat = v.sup.onBat ∧ w.chans = v.chans := by
    unfold SealFrame at hseal
    rw [hseal]
    exact ⟨rfl, rfl, rfl, rfl, rfl, rfl, rfl⟩
  obtain ⟨w1, w2, w3, w4, w5, w6, w7⟩ := hw
  have hon : w.sup.onBat = batCarries s := by rw [w6, t6, hbat]
  refine ⟨w1, w2, by rw [w3, t1, u1], ?_, by rw [w5, t3, u2], by rw [hon, batCarries_iff], fun hdf hno c hc => ?_⟩
  · have : compAt w 0 = compAt u 0 := by
      unfold compAt
      rw [w4, t4]
    rw [this, u5]
    exact hlvl
  · rw [chanAt, w7]
    refine hfeeds c hc (hdom.trans hdf) ?_
    rw [hbat, u4, ← hon]
    exact hno

/-- An interruption of CMP_FEED sheds every output (R295). -/
theorem feedInt_sheds {s : State} (hoff : s.pwr.state ≠ .off) (hd : s.pwr.domFeed = true) (hp : possible (compAt s 2) .int = true) :
    ∃ t, exec (.levelCrossingDeclared .feed .int) s = .next t ∧ t.sup.sealing = s.sup.sealing ∧ t.rings = s.rings ∧
        ∀ c, c < 24 → (chanAt t c).feed.state = .shed ∨ (chanAt t c).feed.state = .off ∨ (chanAt t c).feed.state = .lockedOff := by
  have hrun := exec_crossing (i := .feed) (x := .int) hoff (fun e => absurd e.1 nofun) hp
  have htold : crossingTold s .feed .int = setComp s 2 (crossed s (compAt s 2) .int) := rfl
  generalize isTrip (compAt s (supIdx .feed)) .int = trip at hrun
  refine ⟨feedCross (if trip then leaveSleep (crossingTold s .feed .int) else crossingTold s .feed .int) .int, hrun, ?_⟩
  have hu : ∀ u, u = (if trip then leaveSleep (crossingTold s .feed .int) else crossingTold s .feed .int) →
      u.pwr.domFeed = true ∧ u.sup.sealing = s.sup.sealing ∧ u.rings = s.rings := by
    rintro u rfl
    rw [htold]
    split
    · unfold leaveSleep
      split
      · rw [setPwr_frame]
        exact ⟨hd, rfl, rfl⟩
      · exact ⟨hd, rfl, rfl⟩
    · exact ⟨hd, rfl, rfl⟩
  obtain ⟨h1, h2, h3⟩ := hu _ rfl
  generalize (if trip then leaveSleep (crossingTold s .feed .int) else crossingTold s .feed .int) = u at h1 h2 h3 ⊢
  have hcross : feedCross u .int = shedAll u 6 2 := by
    have hdef : feedCross u .int = if !u.pwr.domFeed then u else shedAll u 6 2 := rfl
    rw [hdef, h1]
    exact if_neg Bool.false_ne_true
  obtain ⟨k1, k2⟩ := shedAll_keeps u 6 2
  rw [hcross]
  exact ⟨k2.trans h2, k1.trans h3, fun c hc => shedAll_state u 6 2 hc⟩

/-- What a change of the feeds alone leaves. -/
theorem tryUnshed_keeps (s : State) : (tryUnshed s).sup = s.sup ∧ (tryUnshed s).rings = s.rings := by
  unfold tryUnshed unshed
  split
  · exact ⟨rfl, rfl⟩
  · simp only [and_self]

/-- The return of CMP_FEED is told (R302). -/
theorem feedRestore_told {s : State} (hoff : s.pwr.state ≠ .off) :
    ∃ t, exec (.levelCrossingDeclared .feed .restore) s = .next t ∧ t.sup.feedBack = some s.datum ∧ t.rings = s.rings := by
  refine ⟨feedCross (crossingTold s .feed .restore) .restore,
    exec_crossing (i := .feed) (x := .restore) hoff (fun e => absurd e.1 nofun) rfl, ?_⟩
  obtain ⟨h1, -, -, h2, -⟩ := (closes_logFrame s (supIdx .feed) (compAt s (supIdx .feed)) .restore).keeps
  have u1 : (crossingTold s .feed .restore).datum = s.datum := h1
  have u2 : (crossingTold s .feed .restore).rings = s.rings := h2
  generalize crossingTold s .feed .restore = u at u1 u2 ⊢
  unfold feedCross
  dsimp only
  rw [if_pos rfl]
  split
  · exact ⟨congrArg some u1, u2⟩
  · obtain ⟨k1, k2⟩ := tryUnshed_keeps (resumeInrush (modSup u (fun u' => { u' with feedBack := some u.datum })))
    rw [k1, k2]
    simp only [resumeInrush, modSup, u1, u2]
    exact ⟨trivial, trivial⟩

/-- The end of a disturbance of CMP_BAT is logged (R289). -/
theorem batRestore_logs {s : State} {d : Disturb} (hoff : s.pwr.state ≠ .off) (hd : (compAt s 1).dist = some d) :
    ∃ t, exec (.levelCrossingDeclared .bat .restore) s = .next t ∧ (compAt t 1).dist = none ∧
        t = { s with sup := t.sup, hif := t.hif, evt := t.evt, sent := t.sent, free := t.free } ∧
        t.sup.written = s.sup.written + 1 ∧
        ∃ e, t.sup.log = (e :: s.sup.log).take 32 ∧ e.kind = (if d.int then 2 else 1) ∧ e.input = 1 ∧
          e.sec = word (instSec d.start) ∧ e.ns = word (instNsPart d.start) := by
  have hclose : closes s 1 (compAt s 1) .restore = closeDist s (if d.int then 2 else 1) 1 d.start d.valid := by
    unfold closes
    rw [hd]
  obtain ⟨hf, hw, e, hlog, hkind, hinput, hsec, hns⟩ := closeDist_logs s (if d.int then 2 else 1) 1 d.start d.valid
  refine ⟨crossingTold s .bat .restore, exec_crossing (i := .bat) (x := .restore) hoff (fun e => absurd e.1 nofun) rfl, ?_⟩
  have htold : crossingTold s .bat .restore =
      setComp (closeDist s (if d.int then 2 else 1) 1 d.start d.valid) 1 (crossed s (compAt s 1) .restore) := by
    rw [← hclose]
    rfl
  rw [htold]
  generalize closeDist s (if d.int then 2 else 1) 1 d.start d.valid = v at hf hw hlog ⊢
  refine ⟨?_, ?_, hw, e, hlog, ?_, hinput, hsec, hns⟩
  · have : compAt (setComp v 1 (crossed s (compAt s 1) .restore)) 1 = crossed s (compAt s 1) .restore := vget_vset_self _ _ _ _ (by decide)
    rw [this]
    rfl
  · unfold LogFrame at hf
    rw [hf]
    rfl
  · rw [hkind]
    split <;> rfl

/-! ### The end of a seal -/

/-- The seal over, with the AON journal SEALED (R292, step 7). -/
def sealEnded (s : State) : State := modSup s (fun u => { u with
  sealing := false, sealPhase := 0, journalSealed := true, hostIncomplete := u.hostIncomplete || u.hostLost
  hostLost := false, batSeal := false, heldReset := none })

theorem sealDoneOp_logs (s : State) : LogFrame (sealEnded s) (sealDoneOp s) ∧ ∃ e, (sealDoneOp s).sup.log = (e :: s.sup.log).take 32 ∧ e.kind = 4 ∧
    e.detail = (if s.sup.hostLost then 2 else if sealResumes s then 0 else 1) := by
  have hr := (raise_evtOnly (sealEnded s) Src.sealDone 0xFF 0x13).logFrame
  have hlog : (raise (sealEnded s) Src.sealDone 0xFF 0x13).sup.log = s.sup.log := by
    rw [raise_sup]
    rfl
  have hdrew : ∀ u : State, LogFrame u (drew (drew u)) ∧ (drew (drew u)).sup = u.sup := fun _ => ⟨rfl, rfl⟩
  unfold sealDoneOp
  dsimp only
  show LogFrame (sealEnded s) (supplyLog (drew (drew (raise (sealEnded s) Src.sealDone 0xFF 0x13))) 4 _ _ _ _ _) ∧ ∃ e,
    (supplyLog (drew (drew (raise (sealEnded s) Src.sealDone 0xFF 0x13))) 4 _ _ _ _ _).sup.log = _ ∧ _
  generalize raise (sealEnded s) Src.sealDone 0xFF 0x13 = u at hr hlog ⊢
  obtain ⟨hf, -, e, h1, h2, -, h3, -⟩ := supplyLog_logs (drew (drew u)) 4 ((Config.freeWord s.free).toNat % 256)
    (if s.sup.hostLost then 2 else if sealResumes s then 0 else 1) (Config.freeWord (s.free + 1)) s.sup.sealStart s.sup.sealValid
  refine ⟨(hr.trans (hdrew u).1).trans hf, e, ?_, h2, ?_⟩
  · rw [h1, (hdrew u).2, hlog]
  · rw [h3]
    split
    · rfl
    · split <;> rfl

/-- The end of the seal's shed moves the feeds alone. -/
structure ShedEnds (s t : State) : Prop where
  kept : t.pwr = s.pwr ∧ t.hif = s.hif ∧ t.ledger = s.ledger ∧ t.rings = s.rings ∧ t.recov = s.recov ∧ t.datum = s.datum
  sup : t.sup.sealing = s.sup.sealing ∧ t.sup.journalSealed = s.sup.journalSealed
  off : OffKept s t

theorem ShedEnds.refl (s : State) : ShedEnds s s := ⟨⟨rfl, rfl, rfl, rfl, rfl, rfl⟩, ⟨rfl, rfl⟩, .refl s⟩

theorem ShedEnds.trans {s t u : State} (h : ShedEnds s t) (h' : ShedEnds t u) : ShedEnds s u := by
  obtain ⟨⟨h1, h2, h3, h4, h5, h6⟩, ⟨h7, h8⟩, ho⟩ := h
  obtain ⟨⟨k1, k2, k3, k4, k5, k6⟩, ⟨k7, k8⟩, ko⟩ := h'
  exact ⟨⟨k1.trans h1, k2.trans h2, k3.trans h3, k4.trans h4, k5.trans h5, k6.trans h6⟩, ⟨k7.trans h7, k8.trans h8⟩, ho.trans ko⟩

/-- A feed whose shed cause is gone starts again. -/
def feedUnshed (_ : Nat) (k : Chan) : Chan :=
  { k with feed := if k.feed.state = .shed then feedFollow { k.feed with state := .waitBudget } else k.feed }

theorem chans_shedEnds (s : State) (v : Vector Chan 24) (h : OffKept s { s with chans := v }) : ShedEnds s { s with chans := v } :=
  ⟨⟨rfl, rfl, rfl, rfl, rfl, rfl⟩, ⟨rfl, rfl⟩, h⟩

theorem unshed_shedEnds (s : State) : ShedEnds s (unshed s) := by
  have off : ∀ v, v = vmapIdx feedUnshed s.chans → OffKept s { s with chans := v } := by
    rintro v rfl
    refine chans_offKept s _ fun c hc => .inl ?_
    rw [vget_vmapIdx, if_pos hc]
    rfl
  exact chans_shedEnds s (vmapIdx feedUnshed s.chans) (off _ rfl)

theorem tryUnshed_shedEnds (s : State) : ShedEnds s (tryUnshed s) := by
  unfold tryUnshed
  split
  · exact .refl s
  · exact unshed_shedEnds s

theorem endSealShed_shedEnds (s : State) : ShedEnds s (endSealShed s) := by
  have told : ShedEnds s (modSup s (fun u => { u with shedSeal := false })) :=
    ⟨⟨rfl, rfl, rfl, rfl, rfl, rfl⟩, ⟨rfl, rfl⟩, offKept_of_frame rfl (sameCounters_of_rings rfl) ⟨rfl, rfl, rfl⟩⟩
  unfold endSealShed
  split
  · exact told.trans (tryUnshed_shedEnds _)
  · exact .refl s

/-- A DEVICE reset ends a seal. -/
theorem resetDevice_sealing (s : State) (c : ResetCause) : (resetDevice s c).sup.sealing = false := by
  have hcleared : (clearDevice (resetCut s) c.code).sup.sealing = false := by
    rw [clearDevice_eq, (powerSettled_settled _).frame]
    simp only [deviceRegs]
    rfl
  have booted : ∀ (u : State) (l : List Recovery), u.sup.sealing = false → (runBooted u l).sup.sealing = false := by
    intro u l h
    rw [runBooted_frame]
    exact h
  have recovers : ∀ (u : State) (l : List (RingNo × Word)), u.sup.sealing = false → (resetRecovery u l).sup.sealing = false := by
    intro u l h
    rw [resetRecovery, startRecovery_sup]
    exact h
  rw [resetDevice_eq]
  refine recovers _ _ ?_
  unfold resetBooted
  exact booted _ _ hcleared

/-- A DEVICE reset seen from a state of the same rings, part, datum, channel table and ledger, and of the same count of resets. -/
theorem AfterDeviceReset.of_same {s u t : State} {code : Nat} (h : AfterDeviceReset u t code)
    (hu : u.glb = s.glb ∧ u.part = s.part ∧ u.rings = s.rings ∧ u.datum = s.datum ∧ u.ledger = s.ledger ∧ u.chtabBase = s.chtabBase ∧
      u.chtabEn = s.chtabEn) : AfterDeviceReset s t code := by
  obtain ⟨hrun, hcause, hcount, hprof, hwin, hlock, hch, hkeys, hctr, ⟨v, hv, hvc, hvs⟩, h1, h2, h3, h4, h5⟩ := h
  obtain ⟨hglb, hpart, hrings, hdatum, hledger, hbase, hen⟩ := hu
  refine ⟨hrun, hcause, by rw [hcount, hglb], by rw [hprof, hglb], hwin, hlock, fun c hc => ?_, hkeys, (sameCounters_of_rings hrings).trans hctr,
    ⟨v, hv, hvc, fun r => by rw [hvs, ringAt_congr hrings]⟩, h1.trans hdatum, h2.trans hpart, h3.trans (congrArg Ledger.epoch hledger),
    h4.trans hbase, h5.trans hen⟩
  have hp : present u c = present s c := by
    unfold present
    rw [hpart]
  rw [hch c hc, hp]

/-- An entry that the seal had taken over, ended. -/
theorem endEntry_frame (s : State) : endEntry s = { s with hif := { s.hif with funcs := (endEntry s).hif.funcs }, pwr := (endEntry s).pwr
                                                           evt := (endEntry s).evt, sent := (endEntry s).sent } ∧
    (endEntry s).pwr.state = s.pwr.state ∧ (endEntry s).pwr.entrySeal = false := by
  have e := raise_evtOnly (modPwr s (fun p => { p with entrySeal := false, refused := true, why := 3 })) Src.powerState 0xFF 0
  unfold EvtOnly at e
  unfold endEntry
  split
  · generalize raise (modPwr s (fun p => { p with entrySeal := false, refused := true, why := 3 })) Src.powerState 0xFF 0 = v at e ⊢
    rw [e]
    exact ⟨rfl, rfl, rfl⟩
  next h => exact ⟨rfl, rfl, eq_false_of_ne_true h⟩

/-- Service resumes: what the seal closed opens again (R293). -/
theorem resumes_follows {s : State} : (resumeService (endEntry s) false).sup.sealing = s.sup.sealing ∧
    (resumeService (endEntry s) false).datum = s.datum ∧ (resumeService (endEntry s) false).sup.journalSealed = false ∧
    (resumeService (endEntry s) false).ledger.sealState = .running ∧ (resumeService (endEntry s) false).ledger.spillCount = 0 ∧
    (resumeService (endEntry s) false).hif.fetchStop = false ∧ (resumeService (endEntry s) false).pwr.state = s.pwr.state ∧
    (resumeService (endEntry s) false).pwr.entrySeal = false ∧ SameCounters s (resumeService (endEntry s) false) ∧
    ∃ v, v ∈ (resumeService (endEntry s) false).recov ∧ v.cause = 0x13 ∧ v.lossy = false := by
  obtain ⟨hf, hst, hes⟩ := endEntry_frame s
  generalize endEntry s = u at hf hst hes ⊢
  have hu : u.sup.sealing = s.sup.sealing ∧ u.datum = s.datum ∧ u.rings = s.rings := by
    rw [hf]
    exact ⟨rfl, rfl, rfl⟩
  obtain ⟨u1, u2, u3⟩ := hu
  obtain ⟨hfetch, hseal, hrec⟩ := resumeService_follows u false
  have hled : (resumeService u false).ledger.sealState = .running ∧ (resumeService u false).ledger.spillCount = 0 := by
    unfold resumeService
    rw [startRecovery_ledger]
    exact ⟨rfl, rfl⟩
  have hsup : (resumeService u false).sup.sealing = u.sup.sealing := by
    unfold resumeService
    rw [startRecovery_sup]
  refine ⟨hsup.trans u1, (resumeService_comps u false).1.trans u2, hseal, hled.1, hled.2, hfetch, ?_, ?_,
    (sameCounters_of_rings u3).trans (resumeService_sameCounters u false), hrec⟩
  · rw [resumeService_pwr, hst]
  · rw [resumeService_pwr, hes]

/-- Whatever follows a seal leaves the datum and takes up no seal. -/
theorem afterSeal_sealing {s : State} (h : s.sup.sealing = false) (held : Option ResetCause) :
    (afterSeal s held).sup.sealing = false ∧ (afterSeal s held).datum = s.datum := by
  have ended : ∀ u : State, u.sup.sealing = false ∧ u.datum = s.datum → (endSealShed u).sup.sealing = false ∧ (endSealShed u).datum = s.datum := by
    rintro u ⟨h1, h2⟩
    obtain ⟨⟨-, -, -, -, -, hd⟩, ⟨hs, -⟩, -⟩ := endSealShed_shedEnds u
    exact ⟨hs.trans h1, hd.trans h2⟩
  have resumed := resumes_follows (s := s)
  obtain ⟨r1, r2, -⟩ := resumed
  unfold afterSeal
  cases held with
  | some c =>
    refine ended _ ?_
    unfold deviceReset
    split
    · exact ⟨h, rfl⟩
    · exact ⟨resetDevice_sealing s c, (resetDevice_after s c).kept.1⟩
  | none =>
    dsimp only
    cases s.pwr.state with
    | run => exact ended _ ⟨r1.trans h, r2⟩
    | idle => exact ended _ ⟨r1.trans h, r2⟩
    | sleep => exact ended _ ⟨r1.trans h, r2⟩
    | entering => exact ⟨h, rfl⟩
    | poweringDown => exact ⟨h, rfl⟩
    | deep => exact ⟨h, rfl⟩
    | waking => exact ⟨h, rfl⟩
    | off => exact ⟨h, rfl⟩

/-- What follows the seal, by the power state (R293, R294). -/
def sealOver (s : State) : State :=
  match s.pwr.state with
  | .deep | .poweringDown | .off => sealDoneOp s
  | _ => if sealResumes s then afterSeal (sealDoneOp s) s.sup.heldReset else startPowerDown (sealDoneOp s) false

theorem exec_sealComplete {s : State} (hs : s.sup.sealing = true) (hw : sealWritten s = true) : exec .sealComplete s = .next (sealOver s) :=
  congrArg Host.Outcome.next (if_neg (by rw [hs, hw]; simp))

theorem sealOver_off {s : State} (h : s.pwr.state = .deep ∨ s.pwr.state = .poweringDown ∨ s.pwr.state = .off) : sealOver s = sealDoneOp s := by
  unfold sealOver
  rcases h with h | h | h <;> rw [h]

theorem sealOver_on {s : State} (h : ¬ (s.pwr.state = .deep ∨ s.pwr.state = .poweringDown ∨ s.pwr.state = .off)) : sealOver s =
    if sealResumes s then afterSeal (sealDoneOp s) s.sup.heldReset else startPowerDown (sealDoneOp s) false := by
  simp only [not_or] at h
  obtain ⟨h1, h2, h3⟩ := h
  unfold sealOver
  cases hp : s.pwr.state with
  | deep => exact absurd hp h1
  | poweringDown => exact absurd hp h2
  | off => exact absurd hp h3
  | run => rfl
  | idle => rfl
  | sleep => rfl
  | entering => rfl
  | waking => rfl

theorem afterSeal_resumes {s : State} (h : s.pwr.state = .run ∨ s.pwr.state = .idle ∨ s.pwr.state = .sleep) :
    afterSeal s none = endSealShed (resumeService (endEntry s) false) := by
  unfold afterSeal
  rcases h with h | h | h <;> rw [h]

theorem sealComplete_follows {s : State} (hs : s.sup.sealing = true) (hw : sealWritten s = true) :
    ∃ t, exec .sealComplete s = .next t ∧ t.sup.sealing = false ∧ t.datum = s.datum ∧
      ((s.pwr.state = .deep ∨ s.pwr.state = .poweringDown ∨ s.pwr.state = .off) →
        t = { s with sup := t.sup, hif := t.hif, evt := t.evt, sent := t.sent, free := t.free } ∧ t.sup.journalSealed = true ∧
        ∃ e, t.sup.log = (e :: s.sup.log).take 32 ∧ e.kind = 4 ∧
          e.detail = (if s.sup.hostLost then 2 else if sealResumes s then 0 else 1)) ∧
      ((s.pwr.state = .run ∨ s.pwr.state = .idle ∨ s.pwr.state = .sleep) → sealResumes s = true → s.sup.heldReset = none →
        t.sup.journalSealed = false ∧ t.ledger.sealState = .running ∧ t.ledger.spillCount = 0 ∧ t.hif.fetchStop = false ∧
        t.pwr.state = s.pwr.state ∧ t.pwr.entrySeal = false ∧ SameCounters s t ∧ ∃ v, v ∈ t.recov ∧ v.cause = 0x13 ∧ v.lossy = false) ∧
      (∀ k, s.pwr.state = .run → sealResumes s = true → s.sup.heldReset = some k → s.glb.inReset = false → AfterDeviceReset s t k.code) ∧
      (s.pwr.state = .run → sealResumes s = false → t.pwr.state = .poweringDown ∧ t.pwr.toOff = false) := by
  obtain ⟨hf, hlog⟩ := sealDoneOp_logs s
  refine ⟨sealOver s, exec_sealComplete hs hw, ?_⟩
  have hdone : sealDoneOp s = { s with sup := (sealDoneOp s).sup, hif := (sealDoneOp s).hif, evt := (sealDoneOp s).evt
                                       sent := (sealDoneOp s).sent, free := (sealDoneOp s).free } := by
    unfold LogFrame at hf
    generalize sealDoneOp s = v at hf ⊢
    rw [hf]
    rfl
  have hsup : (sealDoneOp s).sup.sealing = false ∧ (sealDoneOp s).sup.journalSealed = true := by
    unfold LogFrame at hf
    rw [hf]
    exact ⟨rfl, rfl⟩
  by_cases hp : s.pwr.state = .deep ∨ s.pwr.state = .poweringDown ∨ s.pwr.state = .off
  · have hno : ¬ (s.pwr.state = .run ∨ s.pwr.state = .idle ∨ s.pwr.state = .sleep) := by
      rcases hp with e | e | e <;> rw [e] <;> simp
    rw [sealOver_off hp]
    exact ⟨hsup.1, by rw [hdone], fun _ => ⟨hdone, hsup.2, hlog⟩, fun h => absurd h hno, fun k h => absurd (.inl h) hno, fun h => absurd (.inl h) hno⟩
  · rw [sealOver_on hp]
    generalize sealDoneOp s = u at hdone hsup ⊢
    have hu : u.datum = s.datum ∧ u.pwr = s.pwr ∧ u.rings = s.rings ∧ u.glb = s.glb ∧ u.part = s.part ∧ u.ledger = s.ledger ∧
        u.chtabBase = s.chtabBase ∧ u.chtabEn = s.chtabEn := by
      rw [hdone]
      exact ⟨rfl, rfl, rfl, rfl, rfl, rfl, rfl, rfl⟩
    obtain ⟨u1, u2, u3, u4, u5, u6, u7, u8⟩ := hu
    cases hres : sealResumes s with
    | true =>
      rw [if_pos rfl]
      obtain ⟨h1, h2⟩ := afterSeal_sealing hsup.1 s.sup.heldReset
      refine ⟨h1, h2.trans u1, fun h => absurd h hp, fun hrun _ hheld => ?_, fun k _ _ hheld hin => ?_, nofun⟩
      · rw [hheld, afterSeal_resumes (by rw [u2]; exact hrun)]
        obtain ⟨-, -, r3, r4, r5, r6, r7, r8, r9, v, hv, hcause, hlossy⟩ := resumes_follows (s := u)
        obtain ⟨⟨k1, k2, k3, k4, k5, -⟩, ⟨-, k6⟩, -⟩ := endSealShed_shedEnds (resumeService (endEntry u) false)
        refine ⟨k6.trans r3, by rw [k3, r4], by rw [k3, r5], by rw [k2, r6], by rw [k1, r7, u2], by rw [k1, r8],
          ((sameCounters_of_rings u3).trans r9).trans (sameCounters_of_rings k4), v, ?_, hcause, hlossy⟩
        rw [k5]
        exact hv
      · have hreset : afterSeal u s.sup.heldReset = endSealShed (resetDevice u k) := by
          rw [hheld]
          unfold afterSeal deviceReset
          dsimp only
          rw [if_neg (by rw [u4, hin]; exact Bool.false_ne_true)]
        rw [hreset]
        exact ((resetDevice_after u k).offKept (endSealShed_shedEnds _).off).of_same ⟨u4, u5, u3, u1, u6, u7, u8⟩
    | false =>
      rw [if_neg Bool.false_ne_true]
      obtain ⟨k1, k2, -, k4, k5, -⟩ := startPowerDown_begins u false
      exact ⟨k4.trans hsup.1, k5.trans u1, fun h => absurd h hp, nofun, nofun, fun _ _ => ⟨k1, k2⟩⟩

/-- Settles O40: the crossings on their comparators, and the end of a seal by the power state. -/
theorem supplyAndSeal : Obligations.SupplyAndSeal := by
  refine ⟨fun s => ⟨crossing_follows s, mainLow_seals, feedInt_sheds, feedRestore_told, fun d hoff hd => batRestore_logs hoff hd⟩,
    fun s h => congrArg Host.Outcome.next (if_pos ?_), fun s hs hw => sealComplete_follows hs hw⟩
  rcases h with h | h <;> rw [h]
  · exact .inl rfl
  · exact .inr rfl

end Sys2Proof.Machine

/-! # What a change of a channel's state moves -/

namespace Sys2Proof.Machine

open Sys2Proof

/-! ### The layer -/

/-- A change of channel `c` moves that channel, the work and the outcomes of rings, the domains of the islands, and the power state out of SLEEP. -/
structure ChanMoves (c : Nat) (s t : State) : Prop where
  frame : t = { s with hif := s.hif.faulted t.hif, rings := t.rings, journal := t.journal, chans := t.chans, evt := t.evt, sent := t.sent
                       pwr := { s.pwr with state := t.pwr.state, domChla := t.pwr.domChla, domChlb := t.pwr.domChlb }
                       fw := { s.fw with cp0 := t.fw.cp0, cp1 := t.fw.cp1 }, free := t.free }
  others : OnlyChan s t c
  counters : SameCounters s t
  running : (s.fw.cp0 = .running → t.fw.cp0 = .running) ∧ (s.fw.cp1 = .running → t.fw.cp1 = .running)

theorem ChanMoves.refl (c : Nat) (s : State) : ChanMoves c s s := ⟨rfl, fun _ _ => rfl, .refl s, id, id⟩

theorem ChanMoves.trans {c : Nat} {s t u : State} (h : ChanMoves c s t) (h' : ChanMoves c t u) : ChanMoves c s u := by
  obtain ⟨hf, ho, hk, hr0, hr1⟩ := h
  obtain ⟨hf', ho', hk', hr0', hr1'⟩ := h'
  refine ⟨?_, fun x hx => (ho' x hx).trans (ho x hx), hk.trans hk', fun e => hr0' (hr0 e), fun e => hr1' (hr1 e)⟩
  rw [hf] at hf'
  rw [hf']
  rfl

theorem foldl_chanMoves {α : Type} {c : Nat} (f : State → α → State) (h : ∀ s a, ChanMoves c s (f s a)) (l : List α) (s : State) :
    ChanMoves c s (l.foldl f s) := by
  induction l generalizing s with
  | nil => exact .refl c s
  | cons a l ih => exact (h s a).trans (ih (f s a))

theorem EvtOnly.chanMoves {s t : State} (h : EvtOnly s t) (c : Nat) : ChanMoves c s t := by
  have hc : OnlyChan s t c := fun x _ => h.chanAt x
  have hr : t.rings = s.rings := h.rings
  have hw : t.fw = s.fw := h.fw
  refine ⟨?_, hc, sameCounters_of_rings hr, fun e => by rw [hw]; exact e, fun e => by rw [hw]; exact e⟩
  unfold EvtOnly at h
  rw [h]
  rfl

theorem raise_chanMoves (c : Nat) (s : State) (src scope : Nat) (info1 : Word) : ChanMoves c s (raise s src scope info1) :=
  (raise_evtOnly s src scope info1).chanMoves c

theorem raiseC_chanMoves (c : Nat) (s : State) (src scope inc : Nat) : ChanMoves c s (raiseC s src scope inc) :=
  (raiseC_evtOnly s src scope inc).chanMoves c

theorem setChan_chanMoves (s : State) (c : Nat) (f : Chan → Chan) : ChanMoves c s (setChan s c f) :=
  ⟨rfl, fun _ hx => chanAt_setChan_ne s c _ f hx, sameCounters_of_rings rfl, id, id⟩

/-- Work of rings changes, with the outcomes in the journal. -/
theorem work_chanMoves (c : Nat) {s t : State} (hf : t = { s with rings := t.rings, journal := t.journal }) (hk : SameCounters s t) :
    ChanMoves c s t := by
  refine ⟨?_, fun x _ => ?_, hk, fun e => ?_, fun e => ?_⟩ <;> rw [hf]
  · rfl
  · rfl
  · exact e
  · exact e

theorem endEmission_chanMoves (c : Nat) (s : State) (r : Nat) (q : Word) (f : Outcome → Outcome) : ChanMoves c s (endEmission s r q f) := by
  refine work_chanMoves c ?_ (endEmission_sameCounters s r q f)
  apply State.eq_of_parts <;> simp

theorem cutEmissions_chanMoves (c : Nat) (s : State) (r : Nat) : ChanMoves c s (cutEmissions s r) :=
  foldl_chanMoves (fun t (w : Work) => endEmission t r w.seq Outcome.cut) (fun t w => endEmission_chanMoves c t r w.seq _) _ s

theorem returnWith_chanMoves (c : Nat) (s : State) (r : Nat) (q : Word) (o : Outcome) : ChanMoves c s (returnWith s r q o) := by
  refine work_chanMoves c ?_ (returnWith_sameCounters s r q o)
  have h := returnWith_frame s r q o
  generalize returnWith s r q o = v at h ⊢
  rw [h]

theorem returnNoPath_chanMoves (c : Nat) (s : State) (r : Nat) (p : Work → Bool) : ChanMoves c s (returnNoPath s r p) :=
  foldl_chanMoves (fun t (w : Work) => returnWork t r w.seq .retNoPath) (fun t w => returnWith_chanMoves c t r w.seq _) _ s

theorem breakBlock_chanMoves (s : State) (c i : Nat) : ChanMoves c s (breakBlock s c i) := by
  unfold breakBlock
  split
  · exact .refl c s
  · exact returnWith_chanMoves c s _ _ _

theorem dropCur_chanMoves (s : State) (c : Nat) : ChanMoves c s (dropCur s c) := by
  unfold dropCur
  split
  · exact .refl c s
  next f _ =>
    cases f.src with
    | work _ _ => exact .refl c s
    | pause => exact .refl c s
    | uplink _ => exact setChan_chanMoves s c _
    | line _ => exact setChan_chanMoves s c _

theorem stopLine_chanMoves (s : State) (c : Nat) : ChanMoves c s (stopLine s c) := (dropCur_chanMoves s c).trans (setChan_chanMoves _ c _)

theorem CpSt.unhalt_running {x : CpSt} (h : x = .running) : x.unhalt = .running := by
  rw [h]
  rfl

theorem setPwr_run_chanMoves (c : Nat) (s : State) : ChanMoves c s (setPwr s .run) := by
  have changed : ∀ cp0 cp1 : CpSt, (s.fw.cp0 = .running → cp0 = .running) → (s.fw.cp1 = .running → cp1 = .running) →
      ChanMoves c s { s with pwr := { s.pwr with state := .run }, fw := { s.fw with cp0 := cp0, cp1 := cp1 } } :=
    fun _ _ h0 h1 => ⟨rfl, fun _ _ => rfl, sameCounters_of_rings rfl, h0, h1⟩
  unfold setPwr
  split
  · exact .refl c s
  · exact (changed _ _ CpSt.unhalt_running CpSt.unhalt_running).trans (raise_chanMoves c _ _ _ _)

theorem leaveSleep_chanMoves (c : Nat) (s : State) : ChanMoves c s (leaveSleep s) := by
  unfold leaveSleep
  split
  · exact setPwr_run_chanMoves c s
  · exact .refl c s

theorem setChSt_chanMoves (s : State) (c : Nat) (st : ChSt) : ChanMoves c s (setChSt s c st) := by
  unfold setChSt
  split
  · exact .refl c s
  · refine ChanMoves.trans (ChanMoves.trans ?_ (setChan_chanMoves _ c _)) (raise_chanMoves c _ _ _ _)
    split
    · exact leaveSleep_chanMoves c s
    · exact .refl c s

theorem islandDomains_chanMoves (c : Nat) (s : State) : ChanMoves c s (islandDomains s) :=
  ⟨rfl, fun _ _ => rfl, sameCounters_of_rings rfl, id, id⟩

theorem setIsland_chanMoves (s : State) (c : Nat) (on : Bool) : ChanMoves c s (setIsland s c on) :=
  (setChan_chanMoves s c _).trans (islandDomains_chanMoves c _)

theorem drew_chanMoves (c : Nat) (s : State) : ChanMoves c s (drew s) := ⟨rfl, fun _ _ => rfl, sameCounters_of_rings rfl, id, id⟩

/-! ### The changes of state -/

theorem leaveService_chanMoves (s : State) (c : Nat) : ChanMoves c s (leaveService s c) := by
  have h1 := foldl_chanMoves (c := c) (fun t k => cutEmissions t (chRing c k)) (fun t k => cutEmissions_chanMoves c t _) [0, 1, 5]
  have h2 := foldl_chanMoves (c := c) (fun t k => returnNoPath t (chRing c k) (fun _ => true)) (fun t k => returnNoPath_chanMoves c t _ _) [0, 1]
  have h4 := foldl_chanMoves (c := c) (fun t i => breakBlock t c i) (fun t i => breakBlock_chanMoves t c i) (List.range 4)
  unfold leaveService
  split
  · exact .refl c s
  · exact (((((h1 s).trans (h2 _)).trans (returnNoPath_chanMoves c _ _ _)).trans (h4 _)).trans (setChan_chanMoves _ c _)).trans
      (stopLine_chanMoves _ c)

theorem enterOff_chanMoves (s : State) (c : Nat) : ChanMoves c s (enterOff s c) :=
  (((stopLine_chanMoves s c).trans (setChan_chanMoves _ c _)).trans (setIsland_chanMoves _ c false)).trans (setChSt_chanMoves _ c .off)

theorem goOff_chanMoves (s : State) (c : Nat) : ChanMoves c s (goOff s c) := (leaveService_chanMoves s c).trans (enterOff_chanMoves _ c)

theorem goReady_chanMoves (s : State) (c : Nat) : ChanMoves c s (goReady s c) :=
  ((leaveService_chanMoves s c).trans (stopLine_chanMoves _ c)).trans (setChSt_chanMoves _ c .ready)

theorem enterHalted_chanMoves (s : State) (c cause : Nat) : ChanMoves c s (enterHalted s c cause) :=
  ((stopLine_chanMoves s c).trans (setChan_chanMoves _ c _)).trans (setChSt_chanMoves _ c .halted)

theorem applyTarget_chanMoves (s : State) (c : Nat) : ChanMoves c s (applyTarget s c) := by
  unfold applyTarget
  split
  · exact .refl c s
  · split
    iterate 4 exact goOff_chanMoves s c
    · split
      · exact goOff_chanMoves s c
      · exact .refl c s
    iterate 3 exact goReady_chanMoves s c
    · exact .refl c s

theorem wakeRaised_chanMoves (c : Nat) (old s : State) : ChanMoves c s (wakeRaised old s) := by
  unfold wakeRaised
  split
  · exact leaveSleep_chanMoves c s
  · exact .refl c s

/-! ### The channel's table entry through a change of state -/

/-- The channel's table entry. -/
def tabAt (s : State) (c : Nat) : ChTab := (chanAt s c).tab

theorem tabAt_of_others {s t : State} {c x : Nat} (h : OnlyChan s t c) (hx : x ≠ c) : tabAt t x = tabAt s x := congrArg Chan.tab (h x hx)

theorem chanAt_past (s : State) {c : Nat} (hc : ¬ c < 24) : chanAt s c = Chan.reset false := vget_past _ _ _ hc

/-- A change of a channel's other parts leaves its table entry. -/
theorem tabAt_setChan {s : State} {c : Nat} {f : Chan → Chan} (h : (f (chanAt s c)).tab = (chanAt s c).tab) : tabAt (setChan s c f) c = tabAt s c := by
  unfold tabAt
  rw [chanAt_setChan]
  split
  · exact h
  · rfl

theorem tabAt_dropCur (s : State) (c : Nat) : tabAt (dropCur s c) c = tabAt s c := by
  unfold dropCur
  split
  · rfl
  next f _ =>
    cases f.src with
    | work _ _ => rfl
    | pause => rfl
    | uplink _ => exact tabAt_setChan rfl
    | line _ => exact tabAt_setChan rfl

theorem tabAt_stopLine (s : State) (c : Nat) : tabAt (stopLine s c) c = tabAt s c := (tabAt_setChan rfl).trans (tabAt_dropCur s c)

theorem foldl_chans {α : Type} (f : State → α → State) (h : ∀ s a, (f s a).chans = s.chans) (l : List α) (s : State) :
    (l.foldl f s).chans = s.chans := by
  induction l generalizing s with
  | nil => rfl
  | cons a l ih => exact (ih (f s a)).trans (h s a)

theorem returnNoPath_chans (s : State) (r : Nat) (p : Work → Bool) : (returnNoPath s r p).chans = s.chans :=
  foldl_chans (fun t (w : Work) => returnWork t r w.seq .retNoPath) (fun t w => returnWork_chans t r w.seq _) _ s

theorem breakBlock_chans (s : State) (c i : Nat) : (breakBlock s c i).chans = s.chans := by
  unfold breakBlock
  split
  · rfl
  · exact returnWith_chans _ _ _ _

theorem tabAt_congr {s t : State} (h : t.chans = s.chans) (c : Nat) : tabAt t c = tabAt s c := by
  unfold tabAt chanAt
  rw [h]

/-- Leaving SERVICE leaves the table entry. -/
theorem tabAt_leaveService (s : State) (c : Nat) : tabAt (leaveService s c) c = tabAt s c := by
  have h1 := foldl_chans (fun t k => cutEmissions t (chRing c k)) (fun t k => cutEmissions_chans t _) [0, 1, 5]
  have h2 := foldl_chans (fun t k => returnNoPath t (chRing c k) (fun _ => true)) (fun t k => returnNoPath_chans t _ _) [0, 1]
  have h4 := foldl_chans (fun t i => breakBlock t c i) (fun t i => breakBlock_chans t c i) (List.range 4)
  unfold leaveService
  split
  · rfl
  · refine (tabAt_stopLine _ c).trans ((tabAt_setChan rfl).trans (tabAt_congr ?_ c))
    exact (h4 _).trans ((returnNoPath_chans _ _ _).trans ((h2 _).trans (h1 s)))

/-- The channel's state is the one it enters; its table entry is otherwise as it was. -/
theorem tabAt_setChSt (s : State) {c : Nat} (hc : c < 24) (st : ChSt) : tabAt (setChSt s c st) c = { tabAt s c with state := st } := by
  have entered : ∀ u : State, u.chans = s.chans → tabAt (raise (setTab u c (fun t => { t with state := st })) Src.chState c 0) c =
      { tabAt s c with state := st } := by
    intro u hu
    unfold tabAt
    rw [chanAt_raise]
    refine (congrArg Chan.tab (chanAt_setChan_self u c _ hc)).trans ?_
    unfold chanAt
    rw [hu]
  unfold setChSt
  split
  next h =>
    rw [← h]
    rfl
  next =>
    dsimp only
    refine entered _ ?_
    split
    · exact leaveSleep_chans s
    · rfl

theorem tabAt_setIsland (s : State) {c : Nat} (hc : c < 24) (on : Bool) : tabAt (setIsland s c on) c = { tabAt s c with island := on } := by
  unfold setIsland tabAt
  have h : ∀ u : State, chanAt (islandDomains u) c = chanAt u c := fun _ => rfl
  rw [h, chanAt_setChan_self _ c _ hc]

theorem tabAt_enterOff (s : State) {c : Nat} (hc : c < 24) : tabAt (enterOff s c) c = { tabAt s c with island := false, state := .off } := by
  unfold enterOff
  dsimp only
  rw [tabAt_setChSt _ hc, tabAt_setIsland _ hc, show tabAt (setFr (stopLine s c) c _) c = tabAt s c from
    (tabAt_setChan rfl).trans (tabAt_stopLine s c)]

theorem tabAt_goOff (s : State) {c : Nat} (hc : c < 24) : tabAt (goOff s c) c = { tabAt s c with island := false, state := .off } := by
  unfold goOff
  rw [tabAt_enterOff _ hc, tabAt_leaveService]

theorem tabAt_goReady (s : State) {c : Nat} (hc : c < 24) : tabAt (goReady s c) c = { tabAt s c with state := .ready } := by
  unfold goReady
  rw [tabAt_setChSt _ hc, tabAt_stopLine, tabAt_leaveService]

theorem tabAt_enterHalted (s : State) {c : Nat} (hc : c < 24) (cause : Nat) :
    tabAt (enterHalted s c cause) c = { tabAt s c with haltCause := BitVec.ofNat 4 cause, state := .halted } := by
  unfold enterHalted
  rw [tabAt_setChSt _ hc]
  have h : tabAt (setTab (stopLine s c) c (fun t => { t with haltCause := BitVec.ofNat 4 cause })) c =
      { tabAt (stopLine s c) c with haltCause := BitVec.ofNat 4 cause } := congrArg Chan.tab (chanAt_setChan_self _ c _ hc)
  rw [h, tabAt_stopLine]

/-- Following its target a channel changes its state and its island alone. -/
theorem tabAt_applyTarget (s : State) (c : Nat) : ∃ st on, tabAt (applyTarget s c) c = { tabAt s c with state := st, island := on } := by
  by_cases hc : c < 24
  · unfold applyTarget
    split
    · exact ⟨_, _, rfl⟩
    · split
      iterate 4 exact ⟨_, _, tabAt_goOff s hc⟩
      · split
        · exact ⟨_, _, tabAt_goOff s hc⟩
        · exact ⟨_, _, rfl⟩
      iterate 3 exact ⟨_, _, tabAt_goReady s hc⟩
      · exact ⟨_, _, rfl⟩
  · have h : ∀ t : State, tabAt t c = (Chan.reset false).tab := fun t => congrArg Chan.tab (chanAt_past t hc)
    exact ⟨_, _, (h _).trans (h s).symm⟩

/-- A channel whose target is OFF is in OFF, unless training halted it (R94). -/
theorem applyTarget_off {s : State} {c : Nat} (hp : present s c = true) (hc : c < 24) (ht : effTarget s c = .off)
    (habs : (tabAt s c).state ≠ .absent) (hhalt : (tabAt s c).state ≠ .halted ∨ (tabAt s c).haltCause = 1) :
    (tabAt (applyTarget s c) c).state = .off := by
  have gone : (tabAt (goOff s c) c).state = .off := by rw [tabAt_goOff s hc]
  unfold applyTarget
  rw [if_neg (by rw [hp]; exact Bool.false_ne_true), ht]
  unfold tabAt at habs hhalt
  cases hst : (chanAt s c).tab.state with
  | absent => exact absurd hst habs
  | halted =>
    dsimp only
    rw [if_pos (hhalt.resolve_left (fun h => h hst))]
    exact gone
  | off => exact hst
  | ready => exact gone
  | train => exact gone
  | service => exact gone
  | economy => exact gone

/-! ### Firmware's hold -/

theorem chHoldOp_chanMoves (s : State) (c : Nat) (v : Word) : ChanMoves c s (chHoldOp s c v) := by
  unfold chHoldOp
  split
  · exact ((setChan_chanMoves s c _).trans (applyTarget_chanMoves _ c)).trans (wakeRaised_chanMoves c _ _)
  · exact .refl c s

theorem wakeRaised_chans (old s : State) : (wakeRaised old s).chans = s.chans := by
  unfold wakeRaised
  split
  · exact leaveSleep_chans s
  · rfl

/-- A hold is kept, and the channel follows its target under it (R103). -/
theorem tabAt_chHoldOp {s : State} {c : Nat} (hp : present s c = true) {v : Word} (hv : bits v 1 0 ≠ 3) :
    tabAt (chHoldOp s c v) c = tabAt (applyTarget (setTab s c (fun t => { t with hold := BitVec.ofNat 2 (bits v 1 0) })) c) c := by
  unfold chHoldOp
  rw [if_pos (by rw [hp]; simpa using hv)]
  exact tabAt_congr (wakeRaised_chans _ _) c

end Sys2Proof.Machine

/-! # Watchdogs, the handover to an image, and the flash guard (O43) -/

namespace Sys2Proof.Machine

open Sys2Proof

/-! ### Watchdogs -/

theorem cpState_setCp_self (s : State) (cp : Nat) (x : CpSt) : cpState (setCp s cp x) cp = x := by
  unfold cpState setCp
  by_cases h : cp = 0
  · simp [h]
  · simp [h]

theorem cpState_setCp_other (s : State) (cp : Fin 2) (x : CpSt) : cpState (setCp s cp.val x) (1 - cp.val) = cpState s (1 - cp.val) := by
  unfold cpState setCp
  obtain h | h : cp.val = 0 ∨ cp.val = 1 := by omega
  · simp [h]
  · simp [h]

theorem watchdogKick_follows (s : State) (cp bit : Fin 2) : ∃ t, exec (.watchdogKick cp bit) s = .next t ∧
      t = { s with fw := { s.fw with wdgStart := t.fw.wdgStart } } ∧ (cp ≠ bit ∨ cpState s cp.val ≠ .running → t = s) ∧
      (cp = bit → cpState s cp.val = .running → vget t.fw.wdgStart cp.val 0 = s.datum ∧
        ∀ j, j ≠ cp.val → vget t.fw.wdgStart j 0 = vget s.fw.wdgStart j 0) := by
  by_cases h : cp = bit ∧ cpState s cp.val = .running
  · refine ⟨restartWdg s cp.val, congrArg Host.Outcome.next (if_pos h), rfl, fun hno => ?_, fun _ _ =>
      ⟨vget_vset_self _ _ _ _ cp.isLt, fun j hj => vget_vset_ne _ _ _ _ _ hj⟩⟩
    rcases hno with e | e
    · exact absurd h.1 e
    · exact absurd h.2 e
  · exact ⟨s, congrArg Host.Outcome.next (if_neg h), rfl, fun _ => rfl, fun h1 h2 => absurd ⟨h1, h2⟩ h⟩

/-- A processor in reset, its expiry counted. -/
def cpReset (s : State) (cp : Nat) : State :=
  modFw (setCp s cp .reset) (fun w => { w with wdgResets := w.wdgResets + 1, lastWdg := vset w.lastWdg cp (some s.datum) })

/-- The recovery of a processor's reset (R332). -/
def cpRecovery (s : State) (cp : Nat) : State :=
  startRecovery (raise (cpReset s cp) Src.cpReset 0xFF 0x12) (cpScope (raise (cpReset s cp) Src.cpReset 0xFF 0x12)) 0x12 0xFF false [] []

theorem cpRecovery_frame (s : State) (cp : Nat) : cpRecovery s cp =
      { s with fw := (cpReset s cp).fw, rings := (cpRecovery s cp).rings, recov := (cpRecovery s cp).recov, hif := (cpRecovery s cp).hif
               evt := (cpRecovery s cp).evt, sent := (cpRecovery s cp).sent } ∧ SameCounters s (cpRecovery s cp) ∧
    ∃ v, v ∈ (cpRecovery s cp).recov ∧ v.cause = 0x12 ∧ v.lossy = false := by
  have hr := raise_evtOnly (cpReset s cp) Src.cpReset 0xFF 0x12
  have hrings : (raise (cpReset s cp) Src.cpReset 0xFF 0x12).rings = s.rings := raise_rings _ _ _ _
  unfold EvtOnly at hr
  unfold cpRecovery
  generalize raise (cpReset s cp) Src.cpReset 0xFF 0x12 = u at hr hrings ⊢
  refine ⟨?_, (sameCounters_of_rings hrings).trans (startRecovery_sameCounters _ _ _ _ _ _ _), ?_⟩
  · apply State.eq_of_parts <;> simp <;> rw [hr] <;> rfl
  · rw [startRecovery_recov]
    exact ⟨_, List.mem_append_right _ (List.mem_singleton_self _), rfl, rfl⟩

/-- A fatal expiry: the processor in reset, and a trial over. -/
def fatalReset (s : State) (cp : Nat) : State := setCp (if s.fw.trialLive then modFw s endTrial else s) cp .reset

theorem fatalReset_frame (s : State) (cp : Nat) : fatalReset s cp = { s with fw := (fatalReset s cp).fw } := by
  unfold fatalReset
  split <;> rfl

theorem fatalWatchdog_eq (s : State) (cp : Nat) : fatalWatchdog s cp = resetCause (fatalReset s cp) .watchdog := rfl

/-- A fatal expiry keeps the datum, and outside a seal is a DEVICE reset (R332). -/
theorem fatalWatchdog_follows (s : State) (cp : Nat) : (fatalWatchdog s cp).datum = s.datum ∧
    (s.sup.sealing = false → s.glb.inReset = false → AfterDeviceReset s (fatalWatchdog s cp) ResetCause.watchdog.code) := by
  have hf := fatalReset_frame s cp
  rw [fatalWatchdog_eq]
  generalize fatalReset s cp = u at hf ⊢
  have hu : u.datum = s.datum ∧ u.sup = s.sup ∧ u.glb = s.glb := by
    rw [hf]
    exact ⟨rfl, rfl, rfl⟩
  obtain ⟨u1, u2, u3⟩ := hu
  have hafter := resetDevice_after u .watchdog
  unfold resetCause deviceReset
  rw [u2, u3]
  split
  next hs => exact ⟨u1, fun e => absurd (e.symm.trans hs) nofun⟩
  next hs =>
    split
    next hr => exact ⟨u1, fun _ e => absurd (e.symm.trans hr) nofun⟩
    next hr =>
      refine ⟨hafter.kept.1.trans u1, fun _ _ => hafter.of_same ?_⟩
      rw [hf]
      exact ⟨rfl, rfl, rfl, rfl, rfl, rfl, rfl⟩

theorem watchdogExpiry_follows (s : State) (cp : Fin 2) : ∃ t, exec (.watchdogExpiry cp) s = .next t ∧ t.datum = s.datum ∧
      ((s.pwr.domCore = false ∨ cpState s cp.val ≠ .running ∨ wdgOver s cp.val = false) → t = s) ∧
      (s.pwr.domCore = true → cpState s cp.val = .running → wdgOver s cp.val = true →
        (cpState s (1 - cp.val) = .running → wdgTwice s cp.val = false →
          t = { s with fw := t.fw, rings := t.rings, recov := t.recov, hif := t.hif, evt := t.evt, sent := t.sent } ∧ SameCounters s t ∧
          cpState t cp.val = .reset ∧ cpState t (1 - cp.val) = .running ∧ t.fw.wdgResets = s.fw.wdgResets + 1 ∧
          ∃ v, v ∈ t.recov ∧ v.cause = 0x12 ∧ v.lossy = false) ∧
        ((cpState s (1 - cp.val) ≠ .running ∨ wdgTwice s cp.val = true) → s.sup.sealing = false → s.glb.inReset = false →
          AfterDeviceReset s t ResetCause.watchdog.code)) := by
  by_cases h : s.pwr.domCore = true ∧ cpState s cp.val = .running ∧ wdgOver s cp.val = true
  · obtain ⟨h1, h2, h3⟩ := h
    have hidle : ¬ (s.pwr.domCore = false ∨ cpState s cp.val ≠ .running ∨ wdgOver s cp.val = false) := by
      rw [h1, h3]
      simp [h2]
    have hexpires : ¬ ((!s.pwr.domCore) = true ∨ cpState s cp.val ≠ .running ∨ (!wdgOver s cp.val) = true) := by
      rw [h1, h3]
      simp [h2]
    by_cases hfatal : cpState s (1 - cp.val) ≠ .running ∨ wdgTwice s cp.val = true
    · obtain ⟨k1, k2⟩ := fatalWatchdog_follows s cp.val
      refine ⟨fatalWatchdog s cp.val, congrArg Host.Outcome.next ((if_neg hexpires).trans (if_pos hfatal)), k1, fun e => absurd e hidle,
        fun _ _ _ => ⟨fun hrun htwice => ?_, fun _ => k2⟩⟩
      rcases hfatal with e | e
      · exact absurd hrun e
      · exact absurd (e.symm.trans htwice) nofun
    · obtain ⟨k1, k2, k3⟩ := cpRecovery_frame s cp.val
      refine ⟨cpRecovery s cp.val, congrArg Host.Outcome.next ((if_neg hexpires).trans (if_neg hfatal)), by rw [k1], fun e => absurd e hidle,
        fun _ _ _ => ⟨fun hrun _ => ?_, fun e => absurd e hfatal⟩⟩
      have hfw : (cpRecovery s cp.val).fw = (cpReset s cp.val).fw := by rw [k1]
      have hself : cpState (cpReset s cp.val) cp.val = .reset := cpState_setCp_self s cp.val .reset
      have hother : cpState (cpReset s cp.val) (1 - cp.val) = cpState s (1 - cp.val) := cpState_setCp_other s cp .reset
      have hcount : (cpReset s cp.val).fw.wdgResets = s.fw.wdgResets + 1 := by
        unfold cpReset setCp modFw
        dsimp only
        split <;> rfl
      refine ⟨?_, k2, ?_, ?_, by rw [hfw, hcount], k3⟩
      · rw [hfw]
        exact k1
      · unfold cpState at hself ⊢
        rw [hfw]
        exact hself
      · rw [← hrun, ← hother]
        unfold cpState
        rw [hfw]
  · have hstays : (!s.pwr.domCore) = true ∨ cpState s cp.val ≠ .running ∨ (!wdgOver s cp.val) = true := by
      by_contra hno
      simp only [not_or, not_not, Bool.not_eq_true', Bool.not_eq_false] at hno
      exact h hno
    exact ⟨s, congrArg Host.Outcome.next (if_pos hstays), rfl, fun _ => rfl, fun h1 h2 h3 => absurd ⟨h1, h2, h3⟩ h⟩

theorem cpReady_follows {s : State} {cp : Fin 2} (hcore : s.pwr.domCore = true) (hst : cpState s cp.val = .reset) :
    ∃ t, exec (.cpReady cp) s = .next t ∧ t = { s with fw := t.fw } ∧ cpState t cp.val = .running ∧
      cpState t (1 - cp.val) = cpState s (1 - cp.val) ∧ vget t.fw.wdgStart cp.val 0 = s.datum :=
  ⟨restartWdg (setCp s cp.val .running) cp.val, congrArg Host.Outcome.next (if_pos ⟨hcore, hst⟩), rfl, cpState_setCp_self s cp.val .running,
    cpState_setCp_other s cp .running, vget_vset_self _ _ _ _ cp.isLt⟩

theorem ptpUnpairedDrop_follows {s : State} {h : PtpHalf} {l : List PtpHalf} (hl : s.fw.ptp = h :: l) : ∃ t, exec .ptpUnpairedDrop s = .next t ∧
      t = { s with fw := { s.fw with ptp := t.fw.ptp }, hif := t.hif, evt := t.evt, sent := t.sent } ∧
      (h.t + secUnit ≤ s.datum → t.fw.ptp = l) ∧ (s.datum < h.t + secUnit → t = s) := by
  have hrun : exec .ptpUnpairedDrop s =
      .next (if h.t + secUnit ≤ s.datum then raiseC (modFw s (fun w => { w with ptp := l })) Src.ptpUnpaired 0xFF 1 else s) := by
    refine congrArg Host.Outcome.next ?_
    unfold ptpDropOp
    rw [hl]
  refine ⟨_, hrun, ?_⟩
  by_cases hd : h.t + secUnit ≤ s.datum
  · rw [if_pos hd]
    have e := raiseC_evtOnly (modFw s (fun w => { w with ptp := l })) Src.ptpUnpaired 0xFF 1
    unfold EvtOnly at e
    generalize raiseC (modFw s (fun w => { w with ptp := l })) Src.ptpUnpaired 0xFF 1 = t at e ⊢
    have hp : t.fw.ptp = l := by rw [e]; rfl
    refine ⟨?_, fun _ => hp, fun hlt => absurd hd (by omega)⟩
    rw [hp, e]
    rfl
  · rw [if_neg hd]
    exact ⟨rfl, fun h => absurd h hd, fun _ => rfl⟩

/-! ### The flash guard -/

/-- What a flash operation moves. -/
def FlashMoved (s t : State) : Prop := t = { s with fw := t.fw, hif := t.hif, evt := t.evt, sent := t.sent, free := t.free }

theorem FlashMoved.trans {s t u : State} (h : FlashMoved s t) (h' : FlashMoved t u) : FlashMoved s u := by
  unfold FlashMoved at h h' ⊢
  rw [h] at h'
  rw [h']

theorem flashSlot_moved (op : FlashOp) (off len i : Nat) (s : State) : FlashMoved s (flashSlot op off len i s) := by
  unfold flashSlot
  split
  · exact rfl
  · exact rfl

theorem fwDenied_moved (s : State) (off : Nat) : FlashMoved s (fwDenied s off) := by
  have h := fwDenied_evtOnly s off
  unfold EvtOnly at h
  unfold FlashMoved
  generalize fwDenied s off = t at h ⊢
  rw [h]

/-- An operation on one slot leaves the other. -/
theorem fwSlot_flashSlot_other (op : FlashOp) (off len : Nat) {i : Nat} (hi : i = 1 ∨ i = 2) (s : State) :
    fwSlot (flashSlot op off len i s) (3 - i) = fwSlot s (3 - i) := by
  unfold flashSlot
  split
  · rfl
  · exact fwSlot_modSlot_other _ _ hi

theorem fwSlot_flashSlot_untouched {op : FlashOp} {off len i : Nat} {s : State}
    (h : touches off len (slotBase i) (slotBase i + slotBytes) = false) (j : Nat) : fwSlot (flashSlot op off len i s) j = fwSlot s j := by
  unfold flashSlot
  rw [if_pos (by rw [h]; rfl)]

/-- An erased page of a slot is gone. -/
theorem flashSlot_erased {off len i p : Nat} {s : State} (hi : i = 1 ∨ i = 2) (ht : touches off len (slotBase i) (slotBase i + slotBytes) = true)
    (hp : touches off len (slotBase i + 4096 * p) (slotBase i + 4096 * (p + 1)) = true) :
    p ∉ (fwSlot (flashSlot .erase off len i s) i).pages := by
  unfold flashSlot
  rw [if_neg (by rw [ht]; exact Bool.false_ne_true)]
  dsimp only
  rw [fwSlot_modSlot _ _ hi]
  dsimp only
  rw [List.mem_filter]
  rintro ⟨-, h⟩
  rw [hp] at h
  cases h

/-- A slot that is not open is not touched by an operation that is permitted (R336). -/
theorem untouched_of_closed {s : State} {off len i : Nat} (ha : flashAllowed s off len = true) (hi : i = 1 ∨ i = 2) (ho : slotOpen s i = false) :
    touches off len (slotBase i) (slotBase i + slotBytes) = false := by
  unfold flashAllowed at ha
  rw [Bool.and_eq_true, List.all_eq_true] at ha
  have h := ha.2 i (by simpa using hi)
  rw [ho, Bool.false_or] at h
  simpa using h

/-- A permitted flash operation. -/
def flashed (s : State) (op : FlashOp) (off len : Nat) : State := flashGens off len (flashSlot op off len 2 (flashSlot op off len 1 s))

theorem flashed_moved (s : State) (op : FlashOp) (off len : Nat) : FlashMoved s (flashed s op off len) := by
  have gens : ∀ u : State, FlashMoved u (flashGens off len u) := fun _ => rfl
  exact ((flashSlot_moved op off len 1 s).trans (flashSlot_moved op off len 2 _)).trans (gens _)

theorem fwSlot_flashed (s : State) (op : FlashOp) (off len : Nat) (i : Nat) :
    fwSlot (flashed s op off len) i = fwSlot (flashSlot op off len 2 (flashSlot op off len 1 s)) i := rfl

theorem fwSlot_flashed_closed {s : State} {op : FlashOp} {off len i : Nat} (ha : flashAllowed s off len = true) (hi : i = 1 ∨ i = 2)
    (ho : slotOpen s i = false) : fwSlot (flashed s op off len) i = fwSlot s i := by
  have ht := untouched_of_closed ha hi ho
  rw [fwSlot_flashed]
  rcases hi with rfl | rfl
  · rw [fwSlot_flashSlot_other op off len (.inr rfl), fwSlot_flashSlot_untouched ht]
  · rw [fwSlot_flashSlot_untouched ht, fwSlot_flashSlot_other op off len (.inl rfl)]

/-- What touches a page of a slot touches the slot. -/
theorem touches_slot {off len base p : Nat} (hp : p < 3072) (ht : touches off len (base + 4096 * p) (base + 4096 * (p + 1)) = true) :
    touches off len base (base + slotBytes) = true := by
  have hb : 4096 * (p + 1) ≤ slotBytes := (Nat.mul_le_mul_left 4096 hp : 4096 * (p + 1) ≤ 4096 * 3072)
  unfold touches at ht ⊢
  simp only [Bool.and_eq_true, decide_eq_true_eq] at ht ⊢
  obtain ⟨⟨hlen, hlo⟩, hhi⟩ := ht
  exact ⟨⟨hlen, hlo.trans_le (Nat.add_le_add_left hb base)⟩, (Nat.le_add_right base _).trans_lt hhi⟩

theorem flashed_erases {s : State} {off len p : Nat} (hp : p < 3072)
    (ht : touches off len (slotBase (inactive s) + 4096 * p) (slotBase (inactive s) + 4096 * (p + 1)) = true) :
    p ∉ (fwSlot (flashed s .erase off len) (inactive s)).pages := by
  have hslot := touches_slot hp ht
  rw [fwSlot_flashed]
  rcases inactive_slot s with h | h
  · rw [h] at ht hslot ⊢
    rw [fwSlot_flashSlot_other .erase off len (.inr rfl)]
    exact flashSlot_erased (.inl rfl) hslot ht
  · rw [h] at ht hslot ⊢
    exact flashSlot_erased (.inr rfl) hslot ht

theorem flashOp_idle {s : State} (h : cpServes s = false) (op : FlashOp) (off len : Nat) : flashOp s op off len = s := by
  unfold flashOp
  rw [h]
  rfl

theorem flashOp_allowed {s : State} {off len : Nat} (h : cpServes s = true) (ha : flashAllowed s off len = true) (op : FlashOp) :
    flashOp s op off len = flashed s op off len := by
  unfold flashOp
  rw [h, ha]
  rfl

theorem flashOp_denied {s : State} {off len : Nat} (h : cpServes s = true) (ha : flashAllowed s off len = false) (op : FlashOp) :
    flashOp s op off len = fwDenied s off := by
  unfold flashOp
  rw [h, ha]
  rfl

/-- No operation is permitted on the boot monitor's own bytes. -/
theorem flashAllowed_boot {s : State} {off len : Nat} (h : touches off len 0 0x20000 = true) : flashAllowed s off len = false := by
  unfold flashAllowed
  rw [h]
  rfl

theorem flashWrite_follows (s : State) (op : FlashOp) (off len : Nat) : ∃ t, exec (.flashWrite op off len) s = .next t ∧
      t = { s with fw := t.fw, hif := t.hif, evt := t.evt, sent := t.sent, free := t.free } ∧
      (∀ i, i = 1 ∨ i = 2 → slotOpen s i = false → fwSlot t i = fwSlot s i) ∧
      (cpServes s = true → touches off len 0 0x20000 = true → t = raise s Src.fwWriteDenied 0xFF (word off)) ∧
      (∀ p, cpServes s = true → flashAllowed s off len = true → op = .erase →
        touches off len (slotBase (inactive s) + 4096 * p) (slotBase (inactive s) + 4096 * (p + 1)) = true → p < 3072 →
        p ∉ (fwSlot t (inactive s)).pages) := by
  refine ⟨flashOp s op off len, rfl, ?_⟩
  cases hc : cpServes s with
  | false =>
    rw [flashOp_idle hc]
    exact ⟨rfl, fun _ _ _ => rfl, nofun, nofun⟩
  | true =>
    cases ha : flashAllowed s off len with
    | true =>
      rw [flashOp_allowed hc ha]
      refine ⟨flashed_moved s op off len, fun i hi ho => fwSlot_flashed_closed ha hi ho,
        fun _ ht => absurd (ha.symm.trans (flashAllowed_boot ht)) nofun, fun p _ _ hop ht hp => ?_⟩
      rw [hop]
      exact flashed_erases hp ht
    | false =>
      rw [flashOp_denied hc ha]
      refine ⟨fwDenied_moved s off, fun i _ _ => ?_, fun _ _ => rfl, nofun⟩
      have hfw : (fwDenied s off).fw = s.fw := raise_fw _ _ _ _
      unfold fwSlot
      rw [hfw]

/-! ### Restricted service -/

/-- The holds of restricted service move the channels, the power state out of SLEEP, and what an interrupt moves of the processors. -/
structure Restrains (s t : State) : Prop where
  kept : t.ledger = s.ledger ∧ t.datum = s.datum ∧ t.part = s.part
  firmware : t.fw = { s.fw with cp0 := t.fw.cp0, cp1 := t.fw.cp1 }
  counters : SameCounters s t
  running : (s.fw.cp0 = .running → t.fw.cp0 = .running) ∧ (s.fw.cp1 = .running → t.fw.cp1 = .running)

theorem Restrains.refl (s : State) : Restrains s s := ⟨⟨rfl, rfl, rfl⟩, rfl, .refl s, fun e => e, fun e => e⟩

theorem Restrains.trans {s t u : State} (h : Restrains s t) (h' : Restrains t u) : Restrains s u := by
  obtain ⟨⟨h1, h2, h3⟩, hw, hk, hr0, hr1⟩ := h
  obtain ⟨⟨g1, g2, g3⟩, hw', hk', hr0', hr1'⟩ := h'
  refine ⟨⟨g1.trans h1, g2.trans h2, g3.trans h3⟩, ?_, hk.trans hk', fun e => hr0' (hr0 e), fun e => hr1' (hr1 e)⟩
  rw [hw] at hw'
  exact hw'

theorem ChanMoves.restrains {c : Nat} {s t : State} (h : ChanMoves c s t) : Restrains s t := by
  obtain ⟨hf, -, hk, hr⟩ := h
  refine ⟨⟨?_, ?_, ?_⟩, ?_, hk, hr⟩ <;> rw [hf]

/-- A change of the channels, of the domains, of the radio and of the signals alone. -/
theorem Restrains.of_parts {s t : State} (hk : t.ledger = s.ledger ∧ t.datum = s.datum ∧ t.part = s.part) (hw : t.fw = s.fw)
    (hr : t.rings = s.rings) : Restrains s t :=
  ⟨hk, by rw [hw], sameCounters_of_rings hr, fun e => by rw [hw]; exact e, fun e => by rw [hw]; exact e⟩

theorem foldl_restrains {α : Type} (f : State → α → State) (h : ∀ s a, Restrains s (f s a)) (l : List α) (s : State) : Restrains s (l.foldl f s) := by
  induction l generalizing s with
  | nil => exact .refl s
  | cons a l ih => exact (h s a).trans (ih (f s a))

/-- The hold of one channel of the part, by restricted service. -/
def holdPresent (s : State) (c : Nat) : State := if present s c then chHoldOp s c 2 else s

/-- The feed of one channel of the part, held off by restricted service. -/
def holdFeed (s : State) (c : Nat) : State := if present s c then setFeed s c (fun f => feedFollow { f with holdOff := true }) else s

/-- The settings' failure, told. -/
def settingsLost (s : State) : State := raise (modFw s (fun w => { w with restricted := true, unreadable := true })) Src.settingsUnreadable 0xFF 0

theorem restrict_eq (s : State) : restrict s =
    setRad (feedPower ((List.range 24).foldl holdFeed ((List.range 24).foldl holdPresent (settingsLost s)))) (fun r => { r with txAllow := false }) := rfl

theorem holdPresent_restrains (s : State) (c : Nat) : Restrains s (holdPresent s c) := by
  unfold holdPresent
  split
  · exact (chHoldOp_chanMoves s c 2).restrains
  · exact .refl s

theorem holdFeed_restrains (s : State) (c : Nat) : Restrains s (holdFeed s c) := by
  unfold holdFeed
  split
  · exact (setChan_chanMoves s c _).restrains
  · exact .refl s

theorem feedPower_restrains (s : State) : Restrains s (feedPower s) := by
  have h := feedPower_frame s
  exact .of_parts (by rw [h]; exact ⟨rfl, rfl, rfl⟩) (by rw [h]) (feedPower_rings s)

theorem holdPresent_others (s : State) (c : Nat) : OnlyChan s (holdPresent s c) c := by
  unfold holdPresent
  split
  · exact (chHoldOp_chanMoves s c 2).others
  · exact fun _ _ => rfl

theorem holdFeed_others (s : State) (c : Nat) : OnlyChan s (holdFeed s c) c := by
  unfold holdFeed
  split
  · exact (setChan_chanMoves s c _).others
  · exact fun _ _ => rfl

/-- Every turn of restricted service's holds keeps the channels of the part and a hold that stands. -/
theorem holdPresent_holds {s : State} {c : Nat} (hc : c < 24) (hp : present s c = true) : (chanAt (holdPresent s c) c).tab.hold = 2 := by
  have h := tabAt_chHoldOp (s := s) (c := c) (v := 2) hp (by decide)
  obtain ⟨st, on, ht⟩ := tabAt_applyTarget (setTab s c (fun t => { t with hold := BitVec.ofNat 2 (bits 2 1 0) })) c
  have hset : tabAt (setTab s c (fun t => { t with hold := BitVec.ofNat 2 (bits 2 1 0) })) c = { tabAt s c with hold := BitVec.ofNat 2 (bits 2 1 0) } :=
    congrArg Chan.tab (chanAt_setChan_self s c _ hc)
  rw [hset] at ht
  unfold holdPresent
  rw [if_pos hp]
  exact congrArg ChTab.hold (h.trans ht)

theorem holdFeed_holds {s : State} {c : Nat} (hc : c < 24) (hp : present s c = true) : (chanAt (holdFeed s c) c).feed.holdOff = true := by
  unfold holdFeed
  rw [if_pos hp]
  obtain ⟨-, hkept, -⟩ := feedFollow_kept { (chanAt s c).feed with holdOff := true }
  unfold setFeed
  rw [chanAt_setChan_self s c _ hc]
  exact hkept

theorem present_of_restrains {s t : State} (h : Restrains s t) (c : Nat) : present t c = present s c := by
  obtain ⟨⟨-, -, hpart⟩, -⟩ := h
  unfold present
  rw [hpart]

theorem held_of_holds {s : State} {c : Nat} (hc : c < 24) (hp : present s c = true) :
    (chanAt ((List.range 24).foldl holdPresent s) c).tab.hold = 2 := by
  have h := foldl_reaches (f := holdPresent) (P := fun u => present u c = true) (Q := fun u => present u c = true ∧ (chanAt u c).tab.hold = 2) (a := c)
    (fun u b hu => (present_of_restrains (holdPresent_restrains u b) c).trans hu) ?_
    (fun u hu => ⟨(present_of_restrains (holdPresent_restrains u c) c).trans hu, holdPresent_holds hc hu⟩) (List.mem_range.mpr hc) hp
  · exact h.2
  · rintro u b ⟨hu, hh⟩
    refine ⟨(present_of_restrains (holdPresent_restrains u b) c).trans hu, ?_⟩
    by_cases hb : c = b
    · rw [← hb]
      exact holdPresent_holds hc hu
    · rw [holdPresent_others u b c hb]
      exact hh

/-- Holding the feeds off keeps the channels' tables. -/
theorem holdFeed_tab (s : State) (b c : Nat) : (chanAt (holdFeed s b) c).tab = (chanAt s c).tab := by
  unfold holdFeed
  split
  · unfold setFeed
    rw [chanAt_setChan]
    split
    next h => rw [h.1]
    next => rfl
  · rfl

theorem foldl_holdFeed_tab (s : State) (c : Nat) : (chanAt ((List.range 24).foldl holdFeed s) c).tab = (chanAt s c).tab :=
  foldl_inv (f := holdFeed) (R := fun u v => (chanAt v c).tab = (chanAt u c).tab) (fun _ => rfl) (fun _ _ _ h h' => h'.trans h)
    (fun u b => holdFeed_tab u b c) _ s

theorem feeds_held {s : State} {c : Nat} (hc : c < 24) (hp : present s c = true) :
    (chanAt ((List.range 24).foldl holdFeed s) c).feed.holdOff = true := by
  have h := foldl_reaches (f := holdFeed) (P := fun u => present u c = true) (Q := fun u => present u c = true ∧ (chanAt u c).feed.holdOff = true) (a := c)
    (fun u b hu => (present_of_restrains (holdFeed_restrains u b) c).trans hu) ?_
    (fun u hu => ⟨(present_of_restrains (holdFeed_restrains u c) c).trans hu, holdFeed_holds hc hu⟩) (List.mem_range.mpr hc) hp
  · exact h.2
  · rintro u b ⟨hu, hh⟩
    refine ⟨(present_of_restrains (holdFeed_restrains u b) c).trans hu, ?_⟩
    by_cases hb : c = b
    · rw [← hb]
      exact holdFeed_holds hc hu
    · rw [holdFeed_others u b c hb]
      exact hh

/-- The part of restricted service before the radio: what it moves, and the holds. -/
theorem restrict_restrains (s : State) : Restrains (settingsLost s) (restrict s) := by
  have h1 := foldl_inv (f := holdPresent) (R := Restrains) .refl (fun _ _ _ h h' => h.trans h') holdPresent_restrains (List.range 24) (settingsLost s)
  have h2 := foldl_inv (f := holdFeed) (R := Restrains) .refl (fun _ _ _ h h' => h.trans h') holdFeed_restrains (List.range 24)
    ((List.range 24).foldl holdPresent (settingsLost s))
  have h3 := feedPower_restrains ((List.range 24).foldl holdFeed ((List.range 24).foldl holdPresent (settingsLost s)))
  have radio : ∀ u : State, Restrains u (setRad u (fun r => { r with txAllow := false })) := fun u => .of_parts ⟨rfl, rfl, rfl⟩ rfl rfl
  rw [restrict_eq]
  exact ((h1.trans h2).trans h3).trans (radio _)

/-- Restricted service holds every channel and its feed. -/
theorem restrict_holds {s : State} {c : Nat} (hc : c < 24) (hp : present s c = true) :
    (chanAt (restrict s) c).tab.hold = 2 ∧ (chanAt (restrict s) c).feed.holdOff = true := by
  have hp0 : present (settingsLost s) c = true := by
    have hpart := (raise_evtOnly (modFw s (fun w => { w with restricted := true, unreadable := true })) Src.settingsUnreadable 0xFF 0).part
    have hpart : (settingsLost s).part = s.part := hpart
    unfold present at hp ⊢
    rw [hpart]
    exact hp
  have h1 := foldl_inv (f := holdPresent) (R := Restrains) .refl (fun _ _ _ h h' => h.trans h') holdPresent_restrains (List.range 24) (settingsLost s)
  have hhold := held_of_holds hc hp0
  have hp1 := (present_of_restrains h1 c).trans hp0
  rw [restrict_eq]
  generalize (List.range 24).foldl holdPresent (settingsLost s) = u at hhold hp1 ⊢
  have hfeed := feeds_held hc hp1
  have htab := foldl_holdFeed_tab u c
  generalize (List.range 24).foldl holdFeed u = v at hfeed htab ⊢
  have hon := (feedPower_holds v ⟨c, hc⟩).1
  have ht := feedPower_tab v hc
  generalize feedPower v = w at hon ht ⊢
  exact ⟨(congrArg ChTab.hold (ht.trans htab)).trans hhold, hon.trans hfeed⟩

/-! ### The settings read at the handover -/

/-- What the handover goes on with after the image runs. -/
structure RunsImage (s t : State) : Prop where
  kept : t.ledger = s.ledger ∧ t.datum = s.datum ∧ t.part = s.part
  counters : SameCounters s t
  image : t.fw.runSlot = s.fw.runSlot ∧ t.fw.noImage = s.fw.noImage ∧ t.fw.timerOn = s.fw.timerOn ∧ t.fw.left = s.fw.left
  running : (s.fw.cp0 = .running → t.fw.cp0 = .running) ∧ (s.fw.cp1 = .running → t.fw.cp1 = .running)

theorem RunsImage.refl (s : State) : RunsImage s s := ⟨⟨rfl, rfl, rfl⟩, .refl s, ⟨rfl, rfl, rfl, rfl⟩, fun e => e, fun e => e⟩

theorem RunsImage.trans {s t u : State} (h : RunsImage s t) (h' : RunsImage t u) : RunsImage s u := by
  obtain ⟨⟨h1, h2, h3⟩, hk, ⟨i1, i2, i3, i4⟩, hr0, hr1⟩ := h
  obtain ⟨⟨g1, g2, g3⟩, hk', ⟨j1, j2, j3, j4⟩, hr0', hr1'⟩ := h'
  exact ⟨⟨g1.trans h1, g2.trans h2, g3.trans h3⟩, hk.trans hk', ⟨j1.trans i1, j2.trans i2, j3.trans i3, j4.trans i4⟩,
    fun e => hr0' (hr0 e), fun e => hr1' (hr1 e)⟩

/-- A change of the settings' part of the firmware state alone. -/
theorem modFw_runsImage (s : State) {f : Fw → Fw}
    (hi : (f s.fw).runSlot = s.fw.runSlot ∧ (f s.fw).noImage = s.fw.noImage ∧ (f s.fw).timerOn = s.fw.timerOn ∧ (f s.fw).left = s.fw.left)
    (hr : (f s.fw).cp0 = s.fw.cp0 ∧ (f s.fw).cp1 = s.fw.cp1) : RunsImage s (modFw s f) :=
  ⟨⟨rfl, rfl, rfl⟩, sameCounters_of_rings rfl, hi, fun e => hr.1.trans e, fun e => hr.2.trans e⟩

theorem EvtOnly.runsImage {s t : State} (h : EvtOnly s t) : RunsImage s t := by
  have hr : t.rings = s.rings := h.rings
  unfold EvtOnly at h
  refine ⟨⟨?_, ?_, ?_⟩, sameCounters_of_rings hr, ⟨?_, ?_, ?_, ?_⟩, fun e => ?_, fun e => ?_⟩ <;> rw [h]
  · exact e
  · exact e

theorem Restrains.runsImage {s t : State} (h : Restrains s t) : RunsImage s t := by
  obtain ⟨hk, hw, hc, hr⟩ := h
  exact ⟨hk, hc, by rw [hw]; exact ⟨rfl, rfl, rfl, rfl⟩, hr⟩

theorem restrict_runsImage (s : State) : RunsImage s (restrict s) := by
  have h1 : RunsImage s (modFw s (fun w => { w with restricted := true, unreadable := true })) := modFw_runsImage s ⟨rfl, rfl, rfl, rfl⟩ ⟨rfl, rfl⟩
  exact (h1.trans (raise_evtOnly _ Src.settingsUnreadable 0xFF 0).runsImage).trans (restrict_restrains s).runsImage

theorem restrict_marks (s : State) : (restrict s).fw.restricted = true ∧ (restrict s).fw.unreadable = true ∧ (restrict s).rad.txAllow = false := by
  have hw := (restrict_restrains s).firmware
  have hlost : (settingsLost s).fw = (modFw s (fun w => { w with restricted := true, unreadable := true })).fw := raise_fw _ _ _ _
  rw [hlost] at hw
  refine ⟨?_, ?_, rfl⟩ <;> rw [hw] <;> rfl

/-- The settings of generation `g` are in force. -/
def settingsTaken (s : State) (h : ImageHdr) (g : SetGen) (migrate : Bool) : State :=
  let s1 := modFw s (fun w => { w with restricted := false, unreadable := false })
  let made := addGen s s.fw.gens g.gen (fun p n =>
    { pos := p, gen := n, schema := h.schemaMax, fromCapsule := false, migrated := true, parent := g.gen, writer := h.version })
  if migrate then modFw s1 (fun w => { w with gens := made.1, setGen := made.2.gen, setInfo := BitVec.ofNat 16 h.schemaMax })
  else modFw s1 (fun w => { w with setGen := g.gen, setInfo := BitVec.ofNat 16 g.schema })

/-- The settings rolled back from a later generation are told. -/
def rolledBackTo (s : State) (g top : SetGen) : State :=
  if g.gen = top.gen then s
  else raise (modFw s (fun w => { w with rolledBack := true, rollbackFrom := top.gen })) Src.settingsRolledBack 0xFF 0

theorem readSettings_taken {s : State} {h : ImageHdr} {g top : SetGen} {migrate : Bool} (hg : scanGens h s.fw.gens = some (g, migrate))
    (ht : topGen s.fw.gens = some top) : readSettings s h true = rolledBackTo (settingsTaken s h g migrate) g top := by
  unfold readSettings
  dsimp only
  rw [hg, ht]
  rfl

theorem readSettings_restricted {s : State} {h : ImageHdr} {ok : Bool} (hno : ok = false ∨ scanGens h s.fw.gens = none) :
    readSettings s h ok = restrict s := by
  unfold readSettings
  dsimp only
  rcases hno with rfl | hno
  · cases scanGens h s.fw.gens with
    | none => rfl
    | some x =>
      cases topGen s.fw.gens with
      | none => rfl
      | some top => rfl
  · rw [hno]

theorem settingsTaken_runsImage (s : State) (h : ImageHdr) (g : SetGen) (migrate : Bool) : RunsImage s (settingsTaken s h g migrate) := by
  have h1 : RunsImage s (modFw s (fun w => { w with restricted := false, unreadable := false })) := modFw_runsImage s ⟨rfl, rfl, rfl, rfl⟩ ⟨rfl, rfl⟩
  unfold settingsTaken
  dsimp only
  split
  · exact h1.trans (modFw_runsImage _ ⟨rfl, rfl, rfl, rfl⟩ ⟨rfl, rfl⟩)
  · exact h1.trans (modFw_runsImage _ ⟨rfl, rfl, rfl, rfl⟩ ⟨rfl, rfl⟩)

theorem rolledBackTo_runsImage (s : State) (g top : SetGen) : RunsImage s (rolledBackTo s g top) := by
  have h1 : RunsImage s (modFw s (fun w => { w with rolledBack := true, rollbackFrom := top.gen })) := modFw_runsImage s ⟨rfl, rfl, rfl, rfl⟩ ⟨rfl, rfl⟩
  unfold rolledBackTo
  split
  · exact .refl s
  · exact h1.trans (raise_evtOnly _ _ _ _).runsImage

theorem readSettings_runsImage (s : State) (h : ImageHdr) (ok : Bool) : RunsImage s (readSettings s h ok) := by
  cases hg : scanGens h s.fw.gens with
  | none =>
    rw [readSettings_restricted (.inr hg)]
    exact restrict_runsImage s
  | some x =>
    cases ok with
    | false =>
      rw [readSettings_restricted (.inl rfl)]
      exact restrict_runsImage s
    | true =>
      cases ht : topGen s.fw.gens with
      | some top =>
        rw [readSettings_taken hg ht]
        exact (settingsTaken_runsImage s h x.1 x.2).trans (rolledBackTo_runsImage _ _ _)
      | none =>
        have : readSettings s h true = restrict s := by
          unfold readSettings
          dsimp only
          rw [hg, ht]
        rw [this]
        exact restrict_runsImage s

theorem rolledBackTo_fw (s : State) (g top : SetGen) : (rolledBackTo s g top).fw =
    if g.gen = top.gen then s.fw else { s.fw with rolledBack := true, rollbackFrom := top.gen } := by
  unfold rolledBackTo
  split
  · rfl
  · exact raise_fw _ _ _ _

theorem settingsTaken_asRead (s : State) (h : ImageHdr) (g : SetGen) : (settingsTaken s h g false).fw =
    { s.fw with restricted := false, unreadable := false, setGen := g.gen, setInfo := BitVec.ofNat 16 g.schema } := rfl

/-- A new generation is one above the highest, and is kept. -/
theorem addGen_made (s : State) (l : List SetGen) (loaded : Word) (mk : Nat → Word → SetGen) {top : SetGen} (ht : topGen l = some top) :
    ∃ p, (addGen s l loaded mk).2 = mk p (top.gen + 1) ∧ mk p (top.gen + 1) ∈ (addGen s l loaded mk).1 := by
  have added : ∀ (l : List SetGen) (x : SetGen), x ∈ l ++ [x] := fun l x => List.mem_append_right l (List.mem_singleton_self x)
  unfold addGen
  rw [ht]
  dsimp only
  cases (List.range 64).find? (fun p => !l.any (fun g => g.pos == p)) with
  | some p => exact ⟨p, rfl, added _ _⟩
  | none =>
    cases l.find? (erasable l loaded) with
    | some x => exact ⟨x.pos, rfl, added _ _⟩
    | none => exact ⟨64, rfl, added _ _⟩

theorem settingsTaken_migrated {s : State} {h : ImageHdr} {g top : SetGen} (ht : topGen s.fw.gens = some top) :
    (settingsTaken s h g true).fw.setGen = top.gen + 1 ∧ (settingsTaken s h g true).fw.setInfo = BitVec.ofNat 16 h.schemaMax ∧
      ∃ x, x ∈ (settingsTaken s h g true).fw.gens ∧ x.gen = top.gen + 1 ∧ x.schema = h.schemaMax ∧ x.migrated = true ∧ x.parent = g.gen ∧
        x.writer = h.version := by
  obtain ⟨p, hmade, hmem⟩ := addGen_made s s.fw.gens g.gen (fun p n =>
    { pos := p, gen := n, schema := h.schemaMax, fromCapsule := false, migrated := true, parent := g.gen, writer := h.version }) ht
  exact ⟨congrArg SetGen.gen hmade, rfl, _, hmem, rfl, rfl, rfl, rfl, rfl⟩

/-! ### The handover -/

/-- The image of slot `k` runs. -/
def imageRuns (s : State) (positions : List (List Byte)) : State :=
  modFw s (fun w => { startTimer w (decide ((fwSlot s (bootSel s)).st = .trial)) with
    runSlot := bootSel s, cp0 := .running, cp1 := .running, noImage := false
    wdgStart := Vector.replicate 2 s.datum
    gens := gensFound w.gens positions })

theorem giveRegId_fw (s : State) : (giveRegId s).fw = s.fw := by
  unfold giveRegId
  split <;> rfl

theorem giveRegId_part (s : State) : (giveRegId s).part = s.part := by
  unfold giveRegId
  split <;> rfl

theorem giveRegId_runsImage (s : State) : RunsImage s (giveRegId s) := by
  unfold giveRegId
  split
  · exact ⟨⟨rfl, rfl, rfl⟩, sameCounters_of_rings rfl, ⟨rfl, rfl, rfl, rfl⟩, fun e => e, fun e => e⟩
  · exact .refl s

/-- The end of a capsule's command moves the ring's outcome and nothing of the firmware but its note. -/
theorem endCapsule_frame (s : State) : endCapsule s =
    { s with rings := (endCapsule s).rings, journal := (endCapsule s).journal, fw := { s.fw with afterRestart := (endCapsule s).fw.afterRestart } } := by
  unfold endCapsule
  split
  · rfl
  next n x _ =>
    have e : ∀ u : State, endEmission u 0 n id = { u with rings := (endEmission u 0 n id).rings, journal := (endEmission u 0 n id).journal } := by
      intro u
      apply State.eq_of_parts <;> simp
    rw [e]
    rfl

theorem endCapsule_sameCounters (s : State) : SameCounters s (endCapsule s) := by
  unfold endCapsule
  split
  · exact .refl s
  · exact (sameCounters_of_rings rfl).trans (endEmission_sameCounters _ _ _ _)

theorem endCapsule_runsImage (s : State) : RunsImage s (endCapsule s) := by
  have h := endCapsule_frame s
  refine ⟨⟨?_, ?_, ?_⟩, endCapsule_sameCounters s, ⟨?_, ?_, ?_, ?_⟩, fun e => ?_, fun e => ?_⟩ <;> rw [h]
  · exact e
  · exact e

theorem handoverOp_runs {s : State} {h : ImageHdr} (positions : List (List Byte)) (ok : Bool) (hh : (fwSlot s (bootSel s)).hdr = some h)
    (hk : bootSel s ≠ 0) (hcore : s.pwr.domCore = true) (hboot : s.fw.cp0 = .bootMonitor) :
    handoverOp s positions ok = endCapsule (readSettings (giveRegId (imageRuns s positions)) h ok) := by
  unfold handoverOp
  dsimp only
  rw [hh]
  dsimp only
  rw [if_neg]
  · rfl
  · rw [hcore, hboot]
    simp [hk]

theorem handoverOp_idle {s : State} (hno : s.pwr.domCore = false ∨ s.fw.cp0 ≠ .bootMonitor) (positions : List (List Byte)) (ok : Bool) :
    handoverOp s positions ok = s := by
  unfold handoverOp
  dsimp only
  cases (fwSlot s (bootSel s)).hdr with
  | none => rfl
  | some h =>
    refine if_pos ?_
    rcases hno with e | e
    · rw [e]
      exact .inr (.inl rfl)
    · exact .inr (.inr e)

theorem imageRuns_image (s : State) (positions : List (List Byte)) : (imageRuns s positions).fw.runSlot = bootSel s ∧
    (imageRuns s positions).fw.cp0 = .running ∧ (imageRuns s positions).fw.cp1 = .running ∧ (imageRuns s positions).fw.noImage = false ∧
    (imageRuns s positions).fw.gens = gensFound s.fw.gens positions := by
  have hg : ∀ (w : Fw) (b : Bool), (startTimer w b).gens = w.gens := by
    intro w b
    unfold startTimer
    split <;> rfl
  unfold imageRuns modFw
  exact ⟨rfl, rfl, rfl, rfl, congrArg (fun l => gensFound l positions) (Eq.refl s.fw.gens)⟩

/-- A trial's timer starts with the image, at what is configured (R341). -/
theorem imageRuns_timer {s : State} (positions : List (List Byte)) (htrial : (fwSlot s (bootSel s)).st = .trial) (hoff : s.fw.timerOn = false) :
    (imageRuns s positions).fw.timerOn = true ∧ (imageRuns s positions).fw.left = s.fw.confirmCfg := by
  have h : startTimer s.fw (decide ((fwSlot s (bootSel s)).st = .trial)) = { s.fw with timerOn := true, left := s.fw.confirmCfg } := by
    unfold startTimer
    rw [htrial, hoff]
    rfl
  unfold imageRuns modFw
  dsimp only
  rw [h]
  exact ⟨rfl, rfl⟩

/-- The settings' outcome is the handover's. -/
theorem endCapsule_settings (s : State) : (endCapsule s).fw = { s.fw with afterRestart := (endCapsule s).fw.afterRestart } ∧
    (endCapsule s).rad = s.rad ∧ (endCapsule s).chans = s.chans := by
  refine ⟨?_, ?_, ?_⟩ <;> rw [endCapsule_frame s]

theorem imageHandover_follows {s : State} (positions : List (List Byte)) (ok : Bool) {h : ImageHdr} (hh : (fwSlot s (bootSel s)).hdr = some h)
    (hk : bootSel s ≠ 0) (hcore : s.pwr.domCore = true) (hboot : s.fw.cp0 = .bootMonitor) :
    ∃ t, exec (.imageHandover positions ok) s = .next t ∧ SameCounters s t ∧ t.ledger = s.ledger ∧ t.datum = s.datum ∧
        t.fw.runSlot = bootSel s ∧ t.fw.cp0 = .running ∧ t.fw.cp1 = .running ∧ t.fw.noImage = false ∧
        ((fwSlot s (bootSel s)).st = .trial → s.fw.timerOn = false → t.fw.timerOn = true ∧ t.fw.left = s.fw.confirmCfg) ∧
        (∀ g top, ok = true → scanGens h (gensFound s.fw.gens positions) = some (g, false) → topGen (gensFound s.fw.gens positions) = some top →
          t.fw.restricted = false ∧ t.fw.unreadable = false ∧ t.fw.setGen = g.gen ∧
          (g.gen ≠ top.gen → t.fw.rolledBack = true ∧ t.fw.rollbackFrom = top.gen)) ∧
        (∀ g top, ok = true → scanGens h (gensFound s.fw.gens positions) = some (g, true) → topGen (gensFound s.fw.gens positions) = some top →
          t.fw.setGen = top.gen + 1 ∧ t.fw.setInfo = BitVec.ofNat 16 h.schemaMax ∧
          ∃ x, x ∈ t.fw.gens ∧ x.gen = top.gen + 1 ∧ x.schema = h.schemaMax ∧ x.migrated = true ∧ x.parent = g.gen ∧ x.writer = h.version) ∧
        ((ok = false ∨ scanGens h (gensFound s.fw.gens positions) = none) → t.fw.unreadable = true) ∧
        (ok = false → t.fw.restricted = true ∧ t.rad.txAllow = false ∧
          ∀ c, c < 24 → present s c = true → (chanAt t c).tab.hold = 2 ∧ (chanAt t c).feed.holdOff = true) := by
  obtain ⟨i1, i2, i3, i4, hgens⟩ := imageRuns_image s positions
  have htimer := imageRuns_timer (s := s) positions
  have hruns : SameCounters s (imageRuns s positions) ∧ (imageRuns s positions).ledger = s.ledger ∧ (imageRuns s positions).datum = s.datum ∧
      (imageRuns s positions).part = s.part := ⟨sameCounters_of_rings rfl, rfl, rfl, rfl⟩
  obtain ⟨r1, r2, r3, r4⟩ := hruns
  have hgiven := giveRegId_runsImage (imageRuns s positions)
  have hfw := giveRegId_fw (imageRuns s positions)
  refine ⟨_, congrArg Host.Outcome.next (handoverOp_runs positions ok hh hk hcore hboot), ?_⟩
  generalize imageRuns s positions = v at i1 i2 i3 i4 hgens htimer r1 r2 r3 r4 hgiven hfw ⊢
  generalize giveRegId v = w at hgiven hfw ⊢
  have hw : w.fw.gens = gensFound s.fw.gens positions := by rw [hfw, hgens]
  obtain ⟨⟨k1, k2, k3⟩, kc, ⟨g1, g2, g3, g4⟩, c0, c1⟩ := (hgiven.trans (readSettings_runsImage w h ok)).trans (endCapsule_runsImage (readSettings w h ok))
  obtain ⟨e1, e2, e3⟩ := endCapsule_settings (readSettings w h ok)
  refine ⟨r1.trans kc, k1.trans r2, k2.trans r3, g1.trans i1, c0 i2, c1 i3, g2.trans i4, fun ht ho => ?_, fun g top hok hg ht => ?_,
    fun g top hok hg ht => ?_, fun hno => ?_, fun hok => ?_⟩
  · obtain ⟨t1, t2⟩ := htimer ht ho
    exact ⟨g3.trans t1, g4.trans t2⟩
  · rw [← hw] at hg ht
    rw [e1, hok, readSettings_taken hg ht, rolledBackTo_fw, settingsTaken_asRead]
    split
    next heq => exact ⟨rfl, rfl, rfl, fun hne => absurd heq hne⟩
    next => exact ⟨rfl, rfl, rfl, fun _ => ⟨rfl, rfl⟩⟩
  · rw [← hw] at hg ht
    obtain ⟨m1, m2, m3⟩ := settingsTaken_migrated (s := w) (h := h) (g := g) ht
    rw [e1, hok, readSettings_taken hg ht, rolledBackTo_fw]
    split
    next => exact ⟨m1, m2, m3⟩
    next => exact ⟨m1, m2, m3⟩
  · rw [← hw] at hno
    obtain ⟨-, m2, -⟩ := restrict_marks w
    rw [readSettings_restricted hno] at e1 ⊢
    generalize restrict w = x at e1 m2 ⊢
    rw [e1]
    exact m2
  · obtain ⟨m1, m2, m3⟩ := restrict_marks w
    rw [readSettings_restricted (.inl hok)] at e1 e2 e3 ⊢
    have hheld : ∀ c, c < 24 → present w c = true → _ := fun c hc hp => restrict_holds (s := w) (c := c) hc hp
    generalize restrict w = x at e1 e2 e3 m1 m3 hheld ⊢
    refine ⟨by rw [e1]; exact m1, by rw [e2]; exact m3, fun c hc hp => ?_⟩
    have hpw : present w c = true := by
      obtain ⟨⟨-, -, hpart⟩, -⟩ := hgiven
      unfold present at hp ⊢
      rw [hpart, r4]
      exact hp
    have h := hheld c hc hpw
    unfold chanAt at h ⊢
    rw [e3]
    exact h

theorem imageHandover_idle {s : State} (hno : s.pwr.domCore = false ∨ s.fw.cp0 ≠ .bootMonitor) (positions : List (List Byte)) (ok : Bool) :
    exec (.imageHandover positions ok) s = .next s :=
  congrArg Host.Outcome.next (handoverOp_idle hno positions ok)

/-- Settles O43: the handover runs the image, keeps what it runs through the settings' reading, and a reading that fails is a pass of
holds over the channels; a permitted flash operation cannot touch a closed slot. -/
theorem processorsHandoverAndFlash : Obligations.ProcessorsHandoverAndFlash := by
  refine ⟨fun s => ⟨watchdogKick_follows s, watchdogExpiry_follows s, fun _ => cpReady_follows, fun _ _ => ptpUnpairedDrop_follows⟩,
    fun s => ⟨fun positions ok _ hh hk hcore hboot => imageHandover_follows positions ok hh hk hcore hboot,
      imageHandover_idle, flashWrite_follows s⟩⟩

end Sys2Proof.Machine

/-! # Frames from the line, and pause (O25) -/

namespace Sys2Proof.Machine

open Sys2Proof

/-! ### What a received frame moves -/

/-- A frame received on channel `c` moves that channel, the buffer's counts, the stored receive points and what an event moves. -/
structure UpMoves (c : Nat) (s t : State) : Prop where
  frame : t = { s with hif := t.hif, chans := t.chans, xc := t.xc, fw := t.fw, evt := t.evt, sent := t.sent }
  others : OnlyChan s t c
  counted : (chanAt t c).mac.usFrames = (chanAt s c).mac.usFrames

theorem UpMoves.refl (c : Nat) (s : State) : UpMoves c s s := ⟨rfl, fun _ _ => rfl, rfl⟩

theorem UpMoves.trans {c : Nat} {s t u : State} (h : UpMoves c s t) (h' : UpMoves c t u) : UpMoves c s u := by
  obtain ⟨hf, ho, hn⟩ := h
  obtain ⟨hf', ho', hn'⟩ := h'
  refine ⟨?_, fun x hx => (ho' x hx).trans (ho x hx), hn'.trans hn⟩
  rw [hf] at hf'
  rw [hf']

theorem UpMoves.ite {p : Prop} [Decidable p] {c : Nat} {s t u : State} (h : UpMoves c s t) (h' : UpMoves c s u) :
    UpMoves c s (if p then t else u) := by
  split
  · exact h
  · exact h'

/-- Pause and its counters move the channel and what an event moves alone; no queue changes. -/
structure PauseMoves (c : Nat) (s t : State) : Prop where
  frame : t = { s with hif := t.hif, chans := t.chans, evt := t.evt, sent := t.sent }
  others : OnlyChan s t c
  queues : (chanAt t c).qs.q = (chanAt s c).qs.q
  counted : (chanAt t c).mac.usFrames = (chanAt s c).mac.usFrames

theorem PauseMoves.refl (c : Nat) (s : State) : PauseMoves c s s := ⟨rfl, fun _ _ => rfl, rfl, rfl⟩

theorem PauseMoves.trans {c : Nat} {s t u : State} (h : PauseMoves c s t) (h' : PauseMoves c t u) : PauseMoves c s u := by
  obtain ⟨hf, ho, hq, hn⟩ := h
  obtain ⟨hf', ho', hq', hn'⟩ := h'
  refine ⟨?_, fun x hx => (ho' x hx).trans (ho x hx), hq'.trans hq, hn'.trans hn⟩
  rw [hf] at hf'
  rw [hf']

theorem PauseMoves.upMoves {c : Nat} {s t : State} (h : PauseMoves c s t) : UpMoves c s t := by
  obtain ⟨hf, ho, -, hn⟩ := h
  refine ⟨?_, ho, hn⟩
  generalize t.hif = a, t.chans = b, t.evt = d, t.sent = e at hf
  subst hf
  rfl

theorem EvtOnly.pauseMoves {s t : State} (h : EvtOnly s t) (c : Nat) : PauseMoves c s t := by
  have hc : ∀ x, Machine.chanAt t x = Machine.chanAt s x := h.chanAt
  refine ⟨?_, fun x _ => hc x, by rw [hc], by rw [hc]⟩
  unfold EvtOnly at h
  rw [h]

/-- A change of the channel that leaves its queues. -/
theorem setChan_pauseMoves {c : Nat} (hc : c < 24) (s : State) (f : Chan → Chan) (h : ∀ k, (f k).qs.q = k.qs.q)
    (hn : ∀ k, (f k).mac.usFrames = k.mac.usFrames) : PauseMoves c s (setChan s c f) :=
  ⟨rfl, fun _ hx => chanAt_setChan_ne s c _ f hx, by rw [chanAt_setChan_self s c f hc, h], by rw [chanAt_setChan_self s c f hc, hn]⟩

theorem setQs_pauseMoves {c : Nat} (hc : c < 24) (s : State) {f : Queues → Queues} (h : ∀ q, (f q).q = q.q) : PauseMoves c s (setQs s c f) :=
  setChan_pauseMoves hc s _ (fun k => h k.qs) (fun _ => rfl)

theorem setMac_pauseMoves {c : Nat} (hc : c < 24) (s : State) {f : MacCnt → MacCnt} (h : ∀ k, (f k).usFrames = k.usFrames) : PauseMoves c s (setMac s c f) :=
  setChan_pauseMoves hc s _ (fun _ => rfl) (fun k => h k.mac)

theorem raiseC_pauseMoves (c : Nat) (s : State) (src scope inc : Nat) : PauseMoves c s (raiseC s src scope inc) :=
  (raiseC_evtOnly s src scope inc).pauseMoves c

theorem sendPause_pauseMoves {c : Nat} (hc : c < 24) (s : State) (m : MacSect) (ens q : Nat) : PauseMoves c s (sendPause s c m ens q) := by
  unfold sendPause
  dsimp only
  exact ((setQs_pauseMoves hc s (by intro; rfl)).trans (setMac_pauseMoves hc _ (by intro; rfl))).trans (raiseC_pauseMoves c _ _ _ _)

theorem pauseCheck_pauseMoves {c : Nat} (hc : c < 24) (s : State) : PauseMoves c s (pauseCheck s c) := by
  have hsend (p : Prop) [Decidable p] (t : State) (m : MacSect) (ens q : Nat) : PauseMoves c t (if p then t else sendPause t c m ens q) := by
    split
    · exact .refl c t
    · exact sendPause_pauseMoves hc t m ens q
  unfold pauseCheck
  split
  · exact .refl c s
  · dsimp only
    split
    · exact .refl c s
    · exact ((hsend _ s _ _ _).trans (hsend _ _ _ _ _)).trans (setQs_pauseMoves hc _ (fun _ => rfl))

theorem obeyPause_pauseMoves {c : Nat} (hc : c < 24) (s : State) (ens : Nat) (quanta : Nat → Nat) (named : Nat) :
    PauseMoves c s (obeyPause s c ens quanta named) := by
  unfold obeyPause
  dsimp only
  exact ((setQs_pauseMoves hc s (by intro; rfl)).trans (setMac_pauseMoves hc _ (by intro; rfl))).trans (raiseC_pauseMoves c _ _ _ _)

theorem macControl_pauseMoves {c : Nat} (hc : c < 24) (s : State) (b : List Byte) : PauseMoves c s (macControl s c b) := by
  unfold macControl
  split
  · exact .refl c s
  · split
    · exact .refl c s
    · split
      · exact obeyPause_pauseMoves hc s _ _ _
      · split
        · split
          · exact obeyPause_pauseMoves hc s _ _ _
          · exact raiseC_pauseMoves c s _ _ _
        · exact .refl c s

/-! ### A frame stored -/

theorem setChan_mac (s : State) (c : Nat) (f : Chan → Chan) (h : ∀ k, (f k).mac = k.mac) :
    (chanAt (setChan s c f) c).mac.usFrames = (chanAt s c).mac.usFrames := by
  rw [chanAt_setChan]
  split
  · rw [h]
  · rfl

theorem enqueue_upMoves (s : State) (c i : Nat) (f : Frame) : UpMoves c s (enqueue s c i f) :=
  ⟨rfl, fun _ hx => chanAt_setChan_ne (takeId s) c _ _ hx, setChan_mac (takeId s) c _ (fun _ => rfl)⟩

/-- A frame stored is the last of its queue. -/
theorem enqueue_queue {c i : Nat} (hc : c < 24) (hi : i < 16) (s : State) (f : Frame) :
    vget (chanAt (enqueue s c i f) c).qs.q i [] = vget (chanAt s c).qs.q i [] ++ [{ f with id := s.xc.nextId, entered := s.datum }] := by
  have h := chanAt_setChan_self (takeId s) c (fun k => { k with qs := { k.qs with q := vset k.qs.q i (vget k.qs.q i [] ++ [{ f with id := s.xc.nextId, entered := s.datum }]) } }) hc
  have hq : (chanAt (enqueue s c i f) c).qs.q = vset (chanAt s c).qs.q i (vget (chanAt s c).qs.q i [] ++ [{ f with id := s.xc.nextId, entered := s.datum }]) :=
    congrArg (fun k => k.qs.q) h
  rw [hq]
  exact vget_vset_self _ _ _ _ hi

theorem countBufDiscard_chan {c : Nat} (hc : c < 24) (s : State) :
    chanAt (countBufDiscard s c) c = { chanAt s c with mac := { (chanAt s c).mac with bufDisc := (chanAt s c).mac.bufDisc + 1 } } := by
  unfold countBufDiscard
  rw [(raiseC_evtOnly _ _ _ _).chanAt]
  exact chanAt_setChan_self s c _ hc

theorem countBufDiscard_pauseMoves {c : Nat} (hc : c < 24) (s : State) : PauseMoves c s (countBufDiscard s c) :=
  (setMac_pauseMoves hc s (by intro; rfl)).trans (raiseC_pauseMoves c _ _ _ _)

theorem storeUp_upMoves {c : Nat} (hc : c < 24) (s : State) (dest : Dest) (b : List Byte) (prio port reason : Nat) (v : Bool) (rx : Nat) :
    UpMoves c s (storeUp s c dest b prio port reason v rx) := by
  unfold storeUp
  dsimp only
  split
  · exact (setMac_pauseMoves hc s (by intro; rfl)).upMoves
  · split
    · exact (enqueue_upMoves s c _ _).trans (pauseCheck_pauseMoves hc _).upMoves
    · exact (countBufDiscard_pauseMoves hc s).upMoves

/-- A frame whose cells are not free is counted (R188). -/
theorem storeUp_full {c : Nat} {s : State} {b : List Byte} (hlen : (withFcs b).length ≤ 9216) (hfull : usFree s c < cells (withFcs b).length)
    (dest : Dest) (prio port reason : Nat) (v : Bool) (rx : Nat) : storeUp s c dest b prio port reason v rx = countBufDiscard s c := by
  unfold storeUp
  dsimp only
  rw [if_neg (by omega), if_neg (by omega)]

/-- A frame whose cells are free joins the queue of its priority (R180). -/
theorem storeUp_joins {c : Nat} (hc : c < 24) {s : State} {b : List Byte} (hlen : (withFcs b).length ≤ 9216)
    (hfree : cells (withFcs b).length ≤ usFree s c) (dest : Dest) {prio : Nat} (hp : prio < 8) (port reason : Nat) (v : Bool) (rx : Nat) :
    ∃ f, vget (chanAt (storeUp s c dest b prio port reason v rx) c).qs.q (8 + prio) [] = vget (chanAt s c).qs.q (8 + prio) [] ++ [f] ∧
      f.bytes = withFcs b ∧ f.dest = dest ∧ f.entered = s.datum := by
  unfold storeUp
  dsimp only
  rw [if_neg (by omega), if_pos hfree, (pauseCheck_pauseMoves hc _).queues, enqueue_queue hc (by omega)]
  exact ⟨_, rfl, rfl, rfl, rfl⟩

/-! ### Classification -/

theorem classifyUp_upMoves {c : Nat} (hc : c < 24) (s : State) (b : List Byte) (v : Bool) (rx : Nat) : UpMoves c s (classifyUp s c b v rx) := by
  have missed : UpMoves c s (setMac s c (fun k => { k with missDisc := k.missDisc + 1 })) := (setMac_pauseMoves hc s (by intro; rfl)).upMoves
  have portless : UpMoves c s (setMac s c (fun k => { k with noPort := k.noPort + 1 })) := (setMac_pauseMoves hc s (by intro; rfl)).upMoves
  unfold classifyUp
  dsimp only
  refine .ite (storeUp_upMoves hc s _ _ _ _ _ _ _) ?_
  cases upstreamEntry s c (matchVid b) (framePcp b (defPcpOf s c)) with
  | none => exact .ite (storeUp_upMoves hc s _ _ _ _ _ _ _) missed
  | some e =>
    dsimp only
    split
    · exact .ite (storeUp_upMoves hc s _ _ _ _ _ _ _) portless
    · exact storeUp_upMoves hc s _ _ _ _ _ _ _
    · exact storeUp_upMoves hc s _ _ _ _ _ _ _
    · exact missed

theorem defPcpOf_some {s : State} {c : Nat} {m : MacSect} (hm : (chanAt s c).tab.mac = some m) : defPcpOf s c = m.defPcp.toNat := by
  unfold defPcpOf
  rw [hm]

section
variable {s : State} {c : Nat} {m : MacSect} {b : List Byte} (hm : (chanAt s c).tab.mac = some m) (htrap : m.trapL2cp = false)
include hm htrap

theorem classifyUp_miss (hmiss : m.missExc = false) (he : upstreamEntry s c (matchVid b) (framePcp b m.defPcp.toNat) = none) (v : Bool) (rx : Nat) :
    classifyUp s c b v rx = setMac s c (fun k => { k with missDisc := k.missDisc + 1 }) := by
  unfold classifyUp
  dsimp only
  rw [defPcpOf_some hm, he, hm]
  simp only [htrap, hmiss, Bool.and_false, Bool.false_eq_true, if_false]

theorem classifyUp_port {e : FlowEntry} (he : upstreamEntry s c (matchVid b) (framePcp b m.defPcp.toNat) = some e) (hk : feKind e = 5)
    (v : Bool) (rx : Nat) : classifyUp s c b v rx = if portActive s (fePort e) then
      storeUp s c (.tcont (feTcont e)) (vlanEdit e m.defPcp.toNat b) (framePcp b m.defPcp.toNat) (fePort e) 0 v rx
    else setMac s c (fun k => { k with noPort := k.noPort + 1 }) := by
  unfold classifyUp
  dsimp only
  rw [defPcpOf_some hm, he, hm]
  simp only [htrap, hk, Bool.and_false, Bool.false_eq_true, if_false]

end

theorem ofBE_lt (l : List Byte) : ofBE l < 256 ^ l.length := by
  have h : ∀ (l : List Byte) (a : Nat), l.foldl (fun a b => a * 256 + b.toNat) a < (a + 1) * 256 ^ l.length := by
    intro l
    induction l with
    | nil => intro a; simp
    | cons b l ih =>
      intro a
      have hb := b.isLt
      calc (l.foldl (fun a b => a * 256 + b.toNat) (a * 256 + b.toNat)) < (a * 256 + b.toNat + 1) * 256 ^ l.length := ih _
        _ ≤ ((a + 1) * 256) * 256 ^ l.length := Nat.mul_le_mul_right _ (by omega)
        _ = (a + 1) * 256 ^ (b :: l).length := by rw [List.length_cons, Nat.pow_succ]; ring
  simpa [ofBE] using h l 0

theorem beAt_lt (b : List Byte) (off n : Nat) : beAt b off n < 256 ^ n :=
  (ofBE_lt _).trans_le (Nat.pow_le_pow_right (by decide) (List.length_take_le n _))

theorem framePcp_lt (b : List Byte) (d : BitVec 3) : framePcp b d.toNat < 8 := by
  unfold framePcp outerTci
  split
  · have h := beAt_lt b 14 2
    omega
  · exact d.isLt

/-! ### What the classification looks at -/

theorem usFree_congr {s t : State} {c : Nat} (hxc : t.xc = s.xc) (hupl : t.upl = s.upl) (hq : (chanAt t c).qs = (chanAt s c).qs)
    (hr : (chanAt t c).hostRx = (chanAt s c).hostRx) : usFree t c = usFree s c := by
  unfold usFree usCells retiredCount banksRetired usFrames tcontFrames
  rw [hxc, hupl, hq, hr]

theorem upstreamEntry_congr {s t : State} (hxc : t.xc = s.xc) (c vid pcp : Nat) : upstreamEntry t c vid pcp = upstreamEntry s c vid pcp := by
  unfold upstreamEntry findFlow
  rw [hxc]

theorem portActive_congr {s t : State} (hupl : t.upl = s.upl) (p : Nat) : portActive t p = portActive s p := by
  unfold portActive
  rw [hupl]

/-- A capture moves the channel's receive timestamps, the pairing of the receive points and what an event moves. -/
structure CaptureMoves (c : Nat) (s t : State) : Prop where
  frame : t = { s with hif := t.hif, chans := t.chans, fw := t.fw, evt := t.evt, sent := t.sent }
  others : OnlyChan s t c
  own : chanAt t c = { chanAt s c with rxts := (chanAt t c).rxts }

theorem CaptureMoves.refl (c : Nat) (s : State) : CaptureMoves c s s := ⟨rfl, fun _ _ => rfl, rfl⟩

theorem CaptureMoves.trans {c : Nat} {s t u : State} (h : CaptureMoves c s t) (h' : CaptureMoves c t u) : CaptureMoves c s u := by
  obtain ⟨hf, ho, hc⟩ := h
  obtain ⟨hf', ho', hc'⟩ := h'
  refine ⟨?_, fun x hx => (ho' x hx).trans (ho x hx), ?_⟩
  · rw [hf] at hf'
    rw [hf']
  · rw [hc] at hc'
    rw [hc']

theorem captureChannel_moves {c : Nat} (hc : c < 24) (s : State) (b : List Byte) (rx : Nat) : CaptureMoves c s (captureChannel s c b rx) := by
  unfold captureChannel
  split
  · exact .refl c s
  next e _ =>
    have hptp : CaptureMoves c s (ptpIn s e rx) := by
      unfold ptpIn
      split
      · exact ⟨rfl, fun _ _ => rfl, rfl⟩
      · exact .refl c s
    have hpush : ∀ u : State, CaptureMoves c u (setChan u c (fun k => { k with rxts := k.rxts.push e })) := fun u =>
      ⟨rfl, fun x hx => chanAt_setChan_ne u c x _ hx, by rw [chanAt_setChan_self u c _ hc]⟩
    dsimp only
    split
    · exact hptp.trans (hpush _)
    · have hd := raiseC_evtOnly (setChan (ptpIn s e rx) c (fun k => { k with rxts := k.rxts.push e })) Src.rxtsDrop c 1
      refine (hptp.trans (hpush _)).trans ⟨?_, fun x _ => hd.chanAt x, by rw [hd.chanAt]⟩
      unfold EvtOnly at hd
      rw [hd]

/-! ### A frame taken from the line -/

/-- The frame's capture and its count. -/
def frameCounted (s : State) (c : Nat) (b : List Byte) (rx : Nat) : State :=
  raiseC (setMac (captureChannel s c b rx) c (fun m => { m with usFrames := m.usFrames + 1 })) Src.usFrames c 1

/-- What the classification of a counted frame looks at is as it was. -/
structure FrameCounted (c : Nat) (s t : State) : Prop where
  frame : t = { s with hif := t.hif, chans := t.chans, fw := t.fw, evt := t.evt, sent := t.sent }
  others : OnlyChan s t c
  own : ∃ ts, chanAt t c = { chanAt s c with rxts := ts, mac := { (chanAt s c).mac with usFrames := (chanAt s c).mac.usFrames + 1 } }

theorem frameCounted_counts {c : Nat} (hc : c < 24) (s : State) (b : List Byte) (rx : Nat) : FrameCounted c s (frameCounted s c b rx) := by
  obtain ⟨hf, ho, hown⟩ := captureChannel_moves hc s b rx
  unfold frameCounted
  generalize captureChannel s c b rx = u at hf ho hown ⊢
  have hchan : chanAt (setMac u c (fun m => { m with usFrames := m.usFrames + 1 })) c =
      { chanAt u c with mac := { (chanAt u c).mac with usFrames := (chanAt u c).mac.usFrames + 1 } } := chanAt_setChan_self u c _ hc
  have hother : OnlyChan u (setMac u c (fun m => { m with usFrames := m.usFrames + 1 })) c := fun x hx => chanAt_setChan_ne u c x _ hx
  have hset : setMac u c (fun m => { m with usFrames := m.usFrames + 1 }) =
      { u with chans := (setMac u c (fun m => { m with usFrames := m.usFrames + 1 })).chans } := rfl
  generalize setMac u c (fun m => { m with usFrames := m.usFrames + 1 }) = v at hchan hother hset ⊢
  have hd := raiseC_evtOnly v Src.usFrames c 1
  have hsame := hd.chanAt
  refine ⟨?_, fun x hx => (hsame x).trans ((hother x hx).trans (ho x hx)), (chanAt u c).rxts, ?_⟩
  · unfold EvtOnly at hd
    rw [hd, hset, hf]
  · rw [hsame, hchan, hown]

theorem macIn_plain {s : State} {c : Nat} {m : MacSect} (hm : (chanAt s c).tab.mac = some m) (hrx : m.rxEn = false) (b : List Byte) :
    macIn s c b = (s, some (b, false)) := by
  unfold macIn
  rw [hm]
  dsimp only
  rw [hrx]
  rfl

theorem macReceive_runt {s : State} {c : Nat} {x : List Byte} (h : x.length < 64) (rx : Nat) :
    macReceive s c x rx = setMac s c (fun m => { m with runt := m.runt + 1 }) := if_pos h

theorem macReceive_fcs {s : State} {c : Nat} {x : List Byte} (h : 64 ≤ x.length) (hf : fcsGood x = false) (rx : Nat) :
    macReceive s c x rx = setMac s c (fun m => { m with fcsErr := m.fcsErr + 1 }) := by
  unfold macReceive
  rw [if_neg (by omega), hf]
  rfl

theorem macReceive_control {s : State} {c : Nat} {x : List Byte} (h : 64 ≤ x.length) (hf : fcsGood x = true) (ht : beAt (noFcs x) 12 2 = 0x8808)
    (rx : Nat) : macReceive s c x rx = macControl s c (noFcs x) := by
  unfold macReceive
  rw [if_neg (by omega), hf]
  exact if_pos ht

theorem macReceive_frame {s : State} {c : Nat} {x : List Byte} {m : MacSect} (hm : (chanAt s c).tab.mac = some m) (hrx : m.rxEn = false)
    (h : 64 ≤ x.length) (hf : fcsGood x = true) (ht : beAt (noFcs x) 12 2 ≠ 0x8808) (rx : Nat) :
    macReceive s c x rx = classifyUp (frameCounted s c (noFcs x) rx) c (noFcs x) false rx := by
  unfold macReceive
  rw [if_neg (by omega), hf]
  dsimp only
  rw [macIn_plain hm hrx]
  exact if_neg ht

/-- Every frame received moves no more than the channel and what its capture, its count and its store move. -/
theorem macReceive_frame_moved {s : State} {c : Nat} (hc : c < 24) {x : List Byte} {m : MacSect} (hm : (chanAt s c).tab.mac = some m)
    (hrx : m.rxEn = false) (rx : Nat) : OnlyChan s (macReceive s c x rx) c ∧
    macReceive s c x rx = { s with hif := (macReceive s c x rx).hif, chans := (macReceive s c x rx).chans, xc := (macReceive s c x rx).xc
                                   fw := (macReceive s c x rx).fw, evt := (macReceive s c x rx).evt, sent := (macReceive s c x rx).sent } := by
  by_cases hlen : x.length < 64
  · rw [macReceive_runt hlen]
    exact ⟨fun y hy => chanAt_setChan_ne s c y _ hy, rfl⟩
  · have hlen : 64 ≤ x.length := by omega
    cases hf : fcsGood x with
    | false =>
      rw [macReceive_fcs hlen hf]
      exact ⟨fun y hy => chanAt_setChan_ne s c y _ hy, rfl⟩
    | true =>
      by_cases ht : beAt (noFcs x) 12 2 = 0x8808
      · rw [macReceive_control hlen hf ht]
        have h := (macControl_pauseMoves hc s (noFcs x)).upMoves
        exact ⟨h.others, h.frame⟩
      · rw [macReceive_frame hm hrx hlen hf ht]
        obtain ⟨gf, go, -⟩ := frameCounted_counts hc s (noFcs x) rx
        generalize frameCounted s c (noFcs x) rx = u at gf go ⊢
        obtain ⟨kf, ko, -⟩ := classifyUp_upMoves hc u (noFcs x) false rx
        refine ⟨fun y hy => (ko y hy).trans (go y hy), ?_⟩
        generalize classifyUp u c (noFcs x) false rx = v at kf ⊢
        rw [gf] at kf
        rw [kf]

/-- A good frame is counted and classified (R185, R188). -/
theorem macReceive_classified {s : State} {c : Nat} (hc : c < 24) {x : List Byte} {m : MacSect} (hm : (chanAt s c).tab.mac = some m)
    (hrx : m.rxEn = false) (htrap : m.trapL2cp = false) (hmiss : m.missExc = false) (hlen : 64 ≤ x.length) (hf : fcsGood x = true)
    (ht : beAt (noFcs x) 12 2 ≠ 0x8808) (rx : Nat) :
    (chanAt (macReceive s c x rx) c).mac.usFrames = (chanAt s c).mac.usFrames + 1 ∧
    (upstreamEntry s c (matchVid (noFcs x)) (framePcp (noFcs x) m.defPcp.toNat) = none →
      (chanAt (macReceive s c x rx) c).mac.missDisc = (chanAt s c).mac.missDisc + 1 ∧ (chanAt (macReceive s c x rx) c).qs = (chanAt s c).qs) ∧
    (∀ e, upstreamEntry s c (matchVid (noFcs x)) (framePcp (noFcs x) m.defPcp.toNat) = some e → feKind e = 5 →
      (portActive s (fePort e) = false →
        (chanAt (macReceive s c x rx) c).mac.noPort = (chanAt s c).mac.noPort + 1 ∧ (chanAt (macReceive s c x rx) c).qs = (chanAt s c).qs) ∧
      (portActive s (fePort e) = true → (withFcs (vlanEdit e m.defPcp.toNat (noFcs x))).length ≤ 9216 →
        (usFree s c < cells (withFcs (vlanEdit e m.defPcp.toNat (noFcs x))).length →
          (chanAt (macReceive s c x rx) c).mac.bufDisc = (chanAt s c).mac.bufDisc + 1 ∧ (chanAt (macReceive s c x rx) c).qs = (chanAt s c).qs) ∧
        (cells (withFcs (vlanEdit e m.defPcp.toNat (noFcs x))).length ≤ usFree s c →
          ∃ f, vget (chanAt (macReceive s c x rx) c).qs.q (8 + framePcp (noFcs x) m.defPcp.toNat) [] =
              vget (chanAt s c).qs.q (8 + framePcp (noFcs x) m.defPcp.toNat) [] ++ [f] ∧
            f.bytes = withFcs (vlanEdit e m.defPcp.toNat (noFcs x)) ∧ f.dest = .tcont (feTcont e) ∧ f.entered = s.datum))) := by
  rw [macReceive_frame hm hrx hlen hf ht]
  obtain ⟨gf, -, ts, gown⟩ := frameCounted_counts hc s (noFcs x) rx
  generalize frameCounted s c (noFcs x) rx = u at gf gown ⊢
  have hxc : u.xc = s.xc := by rw [gf]
  have hupl : u.upl = s.upl := by rw [gf]
  have hdatum : u.datum = s.datum := by rw [gf]
  have hmu : (chanAt u c).tab.mac = some m := by rw [gown]; exact hm
  have hfree : usFree u c = usFree s c := usFree_congr hxc hupl (by rw [gown]) (by rw [gown])
  have hentry := upstreamEntry_congr (t := u) hxc c (matchVid (noFcs x)) (framePcp (noFcs x) m.defPcp.toNat)
  have hport := fun p => portActive_congr (t := u) hupl p
  refine ⟨?_, fun he => ?_, fun e he hk => ⟨fun hp => ?_, fun hp h9 => ⟨fun hfull => ?_, fun hroom => ?_⟩⟩⟩
  · rw [(classifyUp_upMoves hc u (noFcs x) false rx).counted, gown]
  · rw [classifyUp_miss hmu htrap hmiss (hentry.trans he)]
    unfold setMac
    rw [chanAt_setChan_self u c _ hc, gown]
    exact ⟨rfl, rfl⟩
  · rw [classifyUp_port hmu htrap (hentry.trans he) hk, hport, hp]
    unfold setMac
    rw [if_neg Bool.false_ne_true, chanAt_setChan_self u c _ hc, gown]
    exact ⟨rfl, rfl⟩
  · rw [classifyUp_port hmu htrap (hentry.trans he) hk, hport, hp, if_pos rfl, storeUp_full h9 (by rw [hfree]; exact hfull), countBufDiscard_chan hc,
      gown]
    exact ⟨rfl, rfl⟩
  · obtain ⟨f, hq, hb, hd, he'⟩ := storeUp_joins hc (s := u) h9 (by rw [hfree]; exact hroom) (.tcont (feTcont e)) (framePcp_lt (noFcs x) m.defPcp)
      (fePort e) 0 false rx
    refine ⟨f, ?_, hb, hd, he'.trans hdatum⟩
    rw [classifyUp_port hmu htrap (hentry.trans he) hk, hport, hp, if_pos rfl, hq, gown]

/-! ### Pause -/

/-- An obeyed pause sets the timers of the priorities it names (R194). -/
theorem obeyPause_obey {c : Nat} (hc : c < 24) (s : State) (ens : Nat) (quanta : Nat → Nat) (named : Nat) {p : Nat} (hp : p < 8) :
    vget (chanAt (obeyPause s c ens quanta named) c).qs.obey p none =
      if ens.testBit p then pauseEnd s c (quanta p) else vget (chanAt s c).qs.obey p none := by
  unfold obeyPause
  dsimp only
  rw [(raiseC_evtOnly _ _ _ _).chanAt]
  unfold setMac
  rw [chanAt_setChan_self _ c _ hc]
  unfold setQs
  rw [chanAt_setChan_self s c _ hc]
  dsimp only
  rw [vget_vmapIdx (e := none), if_pos hp]

theorem macControl_pfc {s : State} {c : Nat} {m : MacSect} (hm : (chanAt s c).tab.mac = some m) (hs : serving s c = true) {b : List Byte}
    (hop : beAt b 14 2 = 0x0101) : macControl s c b =
      obeyPause s c (beAt b 16 2 % 256 &&& m.pfcObey.toNat) (fun p => beAt b (18 + 2 * p) 2) (beAt b 16 2 % 256) := by
  unfold macControl
  rw [hm]
  dsimp only
  rw [hs, if_neg (by decide), if_pos hop]

theorem pauseFrameReceived_obeyed {s : State} {c : Ch} {x : List Byte} {m : MacSect} (hs : serving s c.val = true)
    (hm : (chanAt s c.val).tab.mac = some m) (hf : fcsGood x = true) (ht : beAt x 12 2 = 0x8808) (hop : beAt (noFcs x) 14 2 = 0x0101) :
    ∃ t, exec (.pauseFrameReceived c x) s = .next t ∧ OnlyChan s t c.val ∧
        t = { s with hif := t.hif, chans := t.chans, evt := t.evt, sent := t.sent } ∧ (chanAt t c.val).qs.q = (chanAt s c.val).qs.q ∧
        ∀ p, p < 8 → vget (chanAt t c.val).qs.obey p none =
          if (beAt (noFcs x) 16 2 % 256 &&& m.pfcObey.toNat).testBit p then pauseEnd s c.val (beAt (noFcs x) (18 + 2 * p) 2)
          else vget (chanAt s c.val).qs.obey p none := by
  obtain ⟨kf, ko, kq, -⟩ := macControl_pauseMoves c.isLt s (noFcs x)
  refine ⟨macControl s c.val (noFcs x), congrArg Host.Outcome.next (if_pos (by rw [hf, ht]; rfl)), ko, kf, kq, fun p hp => ?_⟩
  rw [macControl_pfc hm hs hop]
  exact obeyPause_obey c.isLt s _ _ _ hp

/-- A frame without a good FCS is no pause frame. -/
theorem pauseFrameReceived_bad {x : List Byte} (hf : fcsGood x = false) (s : State) (c : Ch) : exec (.pauseFrameReceived c x) s = .next s :=
  congrArg Host.Outcome.next (if_neg (by rw [hf]; exact Bool.false_ne_true))

/-- The end of a priority's pause. -/
def pauseTimerOp (s : State) (c : Ch) (p : Fin 8) : State :=
  match vget (chanAt s c.val).qs.obey p.val none with
  | some t => if t ≤ s.datum then setQs s c.val (fun q => { q with obey := vset q.obey p.val none }) else s
  | none => s

theorem pauseTimerOp_some {s : State} {c : Ch} {p : Fin 8} {d : Nat} (hd : vget (chanAt s c.val).qs.obey p.val none = some d) :
    pauseTimerOp s c p = if d ≤ s.datum then setQs s c.val (fun q => { q with obey := vset q.obey p.val none }) else s := by
  unfold pauseTimerOp
  rw [hd]

theorem pauseTimerExpiry_follows {s : State} {c : Ch} {p : Fin 8} {d : Nat} (hd : vget (chanAt s c.val).qs.obey p.val none = some d) :
    (s.datum < d → exec (.pauseTimerExpiry c p) s = .next s) ∧
    (d ≤ s.datum → ∃ t, exec (.pauseTimerExpiry c p) s = .next t ∧ t = { s with chans := t.chans } ∧ OnlyChan s t c.val ∧
        vget (chanAt t c.val).qs.obey p.val none = none ∧
        ∀ q, q ≠ p.val → vget (chanAt t c.val).qs.obey q none = vget (chanAt s c.val).qs.obey q none) := by
  have hrun : exec (.pauseTimerExpiry c p) s = .next (pauseTimerOp s c p) := rfl
  rw [pauseTimerOp_some hd] at hrun
  refine ⟨fun hlt => ?_, fun hle => ?_⟩
  · rw [hrun, if_neg (by omega)]
  · rw [if_pos hle] at hrun
    refine ⟨_, hrun, rfl, fun y hy => chanAt_setChan_ne s c.val y _ hy, ?_, fun q hq => ?_⟩
    · unfold setQs
      rw [chanAt_setChan_self s c.val _ c.isLt]
      exact vget_vset_self _ _ _ _ p.isLt
    · unfold setQs
      rw [chanAt_setChan_self s c.val _ c.isLt]
      exact vget_vset_ne _ _ _ _ _ hq

/-! ### The pause refreshed -/

theorem foldl_add (l : List Nat) (a : Nat) : l.foldl (· + ·) a = a + total l := by
  have h : ∀ (l : List Nat) (a b : Nat), l.foldl (· + ·) (a + b) = a + l.foldl (· + ·) b := by
    intro l
    induction l with
    | nil => exact fun _ _ => rfl
    | cons x l ih =>
      intro a b
      rw [List.foldl_cons, List.foldl_cons, Nat.add_assoc, ih]
  exact h l a 0

theorem le_total_of_mem {l : List Nat} {x : Nat} (h : x ∈ l) : x ≤ total l := by
  induction l with
  | nil => exact absurd h nofun
  | cons y l ih =>
    have ht : total (y :: l) = (0 + y) + total l := foldl_add l (0 + y)
    rcases List.mem_cons.mp h with rfl | h
    · omega
    · have := ih h
      omega

/-- A set of priorities with one in it is not empty. -/
theorem genSet_ne_zero {m : MacSect} {p : Nat → Bool} {i : Nat} (hi : i < 8) (hg : m.pfcGen.getLsbD i = true) (hp : p i = true) : genSet m p ≠ 0 := by
  have hmem : flagAt (m.pfcGen.getLsbD i && p i) i ∈ (List.range 8).map (fun i => flagAt (m.pfcGen.getLsbD i && p i) i) :=
    List.mem_map_of_mem (f := fun i => flagAt (m.pfcGen.getLsbD i && p i) i) (List.mem_range.mpr hi)
  have h := le_total_of_mem hmem
  rw [hg, hp] at h
  have hpos : 0 < flagAt (true && true) i := Nat.two_pow_pos i
  unfold genSet
  omega

theorem total_eq_zero {l : List Nat} (h : ∀ x, x ∈ l → x = 0) : total l = 0 := by
  induction l with
  | nil => rfl
  | cons y l ih =>
    have ht : total (y :: l) = (0 + y) + total l := foldl_add l (0 + y)
    rw [ht, h y (List.mem_cons_self), ih (fun x hx => h x (List.mem_cons_of_mem _ hx))]

/-- A set of priorities with none in it is empty. -/
theorem genSet_eq_zero {m : MacSect} {p : Nat → Bool} (h : ∀ i, i < 8 → m.pfcGen.getLsbD i = true → p i = false) : genSet m p = 0 := by
  refine total_eq_zero (fun x hx => ?_)
  obtain ⟨i, hi, rfl⟩ := List.mem_map.mp hx
  cases hg : m.pfcGen.getLsbD i with
  | false => rfl
  | true =>
    rw [h i (List.mem_range.mp hi) hg]
    rfl

theorem withFcs_length (b : List Byte) : (withFcs b).length = b.length + 4 := by
  unfold withFcs
  rw [List.length_append]
  rfl

theorem noFcs_withFcs (b : List Byte) : noFcs (withFcs b) = b := by
  unfold noFcs
  rw [withFcs_length, Nat.add_sub_cancel]
  exact List.take_left' rfl

theorem fcsGood_withFcs (b : List Byte) : fcsGood (withFcs b) = true := by
  unfold fcsGood
  rw [noFcs_withFcs, withFcs_length, beq_self_eq_true, Bool.and_true]
  exact decide_eq_true (by omega)

theorem pauseFrame_multicast (sa : List Byte) (ens : Nat) (q : Nat → Nat) :
    (pauseFrame sa ens q).take 6 = [0x01, 0x80, 0xC2, 0x00, 0x00, 0x01] := by
  unfold pauseFrame withFcs
  simp

theorem sendPause_frame {c : Nat} (hc : c < 24) (s : State) (m : MacSect) (ens q : Nat) :
    (chanAt (sendPause s c m ens q) c).qs.genTimer = (chanAt s c).qs.genTimer ∧
    ∃ f, (chanAt (sendPause s c m ens q) c).qs.pauseTx = (chanAt s c).qs.pauseTx ++ [f] ∧ f.take 6 = [0x01, 0x80, 0xC2, 0x00, 0x00, 0x01] ∧
      fcsGood f = true := by
  unfold sendPause
  dsimp only
  rw [(raiseC_evtOnly _ _ _ _).chanAt]
  unfold setMac
  rw [chanAt_setChan_self _ c _ hc]
  unfold setQs
  rw [chanAt_setChan_self s c _ hc]
  exact ⟨rfl, _, rfl, pauseFrame_multicast _ _ _, fcsGood_withFcs _⟩

theorem pauseRefreshOp_due {s : State} {c : Nat} {m : MacSect} {d : Nat} (hs : serving s c = true) (hm : (chanAt s c).tab.mac = some m)
    (hd : (chanAt s c).qs.genTimer = some d) (hdue : d ≤ s.datum) : pauseRefreshOp s c =
      if genSet m (fun p => (chanAt s c).qs.gen.getLsbD p && congested s c m p) = 0 then setQs s c (fun x => { x with genTimer := genEnd s c m })
      else sendPause (setQs s c (fun x => { x with genTimer := genEnd s c m })) c m
        (genSet m (fun p => (chanAt s c).qs.gen.getLsbD p && congested s c m p)) m.quanta := by
  unfold pauseRefreshOp
  rw [hm, hd]
  refine if_neg ?_
  rw [hs, decide_eq_false (by omega)]
  exact Bool.false_ne_true

theorem pauseRefreshOp_early {s : State} {c : Nat} {d : Nat} (hd : (chanAt s c).qs.genTimer = some d) (h : s.datum < d) : pauseRefreshOp s c = s := by
  unfold pauseRefreshOp
  rw [hd]
  cases (chanAt s c).tab.mac with
  | none => rfl
  | some m => exact if_pos (by rw [decide_eq_true h, Bool.or_true])

theorem pauseRefreshOp_moves {c : Nat} (hc : c < 24) (s : State) : PauseMoves c s (pauseRefreshOp s c) := by
  unfold pauseRefreshOp
  split
  · dsimp only
    split
    · exact .refl c s
    · split
      · exact setQs_pauseMoves hc s (by intro; rfl)
      · exact (setQs_pauseMoves hc s (by intro; rfl)).trans (sendPause_pauseMoves hc _ _ _ _)
  · exact .refl c s

theorem pauseRefreshExpiry_due {s : State} {c : Ch} {m : MacSect} {d : Nat} (hs : serving s c.val = true)
    (hm : (chanAt s c.val).tab.mac = some m) (hd : (chanAt s c.val).qs.genTimer = some d) (hdue : d ≤ s.datum) :
    ∃ t, exec (.pauseRefreshExpiry c) s = .next t ∧ OnlyChan s t c.val ∧
        t = { s with hif := t.hif, chans := t.chans, evt := t.evt, sent := t.sent } ∧
        (chanAt t c.val).qs.genTimer = some (s.datum + pauseNs m.quanta (chanAt s c.val).line.ndrUsSvc * nsUnit / 2) ∧
        ((∀ p, p < 8 → m.pfcGen.getLsbD p = true → (chanAt s c.val).qs.gen.getLsbD p = true → congested s c.val m p = false) →
          (chanAt t c.val).qs.pauseTx = (chanAt s c.val).qs.pauseTx) ∧
        ∀ p, p < 8 → m.pfcGen.getLsbD p = true → (chanAt s c.val).qs.gen.getLsbD p = true → congested s c.val m p = true →
        ∃ f, (chanAt t c.val).qs.pauseTx = (chanAt s c.val).qs.pauseTx ++ [f] ∧ (f.take 6 = [0x01, 0x80, 0xC2, 0x00, 0x00, 0x01]) ∧
          fcsGood f = true := by
  have hmoves := pauseRefreshOp_moves c.isLt s
  have hop := pauseRefreshOp_due hs hm hd hdue
  have hset : chanAt (setQs s c.val (fun x => { x with genTimer := genEnd s c.val m })) c.val =
      { chanAt s c.val with qs := { (chanAt s c.val).qs with genTimer := genEnd s c.val m } } := chanAt_setChan_self s c.val _ c.isLt
  refine ⟨_, rfl, hmoves.others, hmoves.frame, ?_, fun hnone => ?_, fun p hp hg hgen hcong => ?_⟩
  · rw [hop]
    split
    · rw [hset]
      rfl
    · rw [(sendPause_frame c.isLt _ _ _ _).1, hset]
      rfl
  · have hzero : genSet m (fun p => (chanAt s c.val).qs.gen.getLsbD p && congested s c.val m p) = 0 := by
      refine genSet_eq_zero (fun i hi hg => ?_)
      cases hgen : (chanAt s c.val).qs.gen.getLsbD i with
      | false => rfl
      | true => exact hnone i hi hg hgen
    rw [hop, if_pos hzero, hset]
  · have hone : genSet m (fun p => (chanAt s c.val).qs.gen.getLsbD p && congested s c.val m p) ≠ 0 :=
      genSet_ne_zero hp hg (by rw [hgen, hcong]; rfl)
    obtain ⟨-, f, hf, h6, hgood⟩ := sendPause_frame c.isLt (setQs s c.val (fun x => { x with genTimer := genEnd s c.val m })) m
      (genSet m (fun p => (chanAt s c.val).qs.gen.getLsbD p && congested s c.val m p)) m.quanta
    rw [hset] at hf
    rw [hop, if_neg hone]
    exact ⟨f, hf, h6, hgood⟩

theorem upstreamFrameReceived_follows {s : State} {c : Ch} {x : List Byte} (rx : Nat) {m : MacSect} (hs : serving s c.val = true)
    (hm : (chanAt s c.val).tab.mac = some m) (hrx : m.rxEn = false) (htrap : m.trapL2cp = false) (hmiss : m.missExc = false) :
    ∃ t, exec (.upstreamFrameReceived c x rx) s = .next t ∧ OnlyChan s t c.val ∧
      t = { s with hif := t.hif, chans := t.chans, xc := t.xc, fw := t.fw, evt := t.evt, sent := t.sent } ∧
      (x.length < 64 → chanAt t c.val = { chanAt s c.val with mac := { (chanAt s c.val).mac with runt := (chanAt s c.val).mac.runt + 1 } }) ∧
      (64 ≤ x.length → fcsGood x = false →
        chanAt t c.val = { chanAt s c.val with mac := { (chanAt s c.val).mac with fcsErr := (chanAt s c.val).mac.fcsErr + 1 } }) ∧
      (64 ≤ x.length → fcsGood x = true → beAt (noFcs x) 12 2 ≠ 0x8808 →
        (chanAt t c.val).mac.usFrames = (chanAt s c.val).mac.usFrames + 1 ∧
        (upstreamEntry s c.val (matchVid (noFcs x)) (framePcp (noFcs x) m.defPcp.toNat) = none →
          (chanAt t c.val).mac.missDisc = (chanAt s c.val).mac.missDisc + 1 ∧ (chanAt t c.val).qs = (chanAt s c.val).qs) ∧
        (∀ e, upstreamEntry s c.val (matchVid (noFcs x)) (framePcp (noFcs x) m.defPcp.toNat) = some e → feKind e = 5 →
          (portActive s (fePort e) = false →
            (chanAt t c.val).mac.noPort = (chanAt s c.val).mac.noPort + 1 ∧ (chanAt t c.val).qs = (chanAt s c.val).qs) ∧
          (portActive s (fePort e) = true → (withFcs (vlanEdit e m.defPcp.toNat (noFcs x))).length ≤ 9216 →
            (usFree s c.val < cells (withFcs (vlanEdit e m.defPcp.toNat (noFcs x))).length →
              (chanAt t c.val).mac.bufDisc = (chanAt s c.val).mac.bufDisc + 1 ∧ (chanAt t c.val).qs = (chanAt s c.val).qs) ∧
            (cells (withFcs (vlanEdit e m.defPcp.toNat (noFcs x))).length ≤ usFree s c.val →
              ∃ f, vget (chanAt t c.val).qs.q (8 + framePcp (noFcs x) m.defPcp.toNat) [] =
                  vget (chanAt s c.val).qs.q (8 + framePcp (noFcs x) m.defPcp.toNat) [] ++ [f] ∧
                f.bytes = withFcs (vlanEdit e m.defPcp.toNat (noFcs x)) ∧ f.dest = .tcont (feTcont e) ∧ f.entered = s.datum)))) := by
  obtain ⟨ho, hf⟩ := macReceive_frame_moved c.isLt (x := x) hm hrx rx
  refine ⟨macReceive s c.val x rx, congrArg Host.Outcome.next (if_pos hs), ho, hf, fun hlen => ?_, fun hlen hfcs => ?_, fun hlen hfcs ht =>
    macReceive_classified c.isLt hm hrx htrap hmiss hlen hfcs ht rx⟩
  · rw [macReceive_runt hlen]
    exact chanAt_setChan_self s c.val _ c.isLt
  · rw [macReceive_fcs hlen hfcs]
    exact chanAt_setChan_self s c.val _ c.isLt

/-- Settles O25: a frame's path is its checks, its count and its classification, each of which moves its channel alone; a refreshed pause names
a priority exactly when one is still congested. -/
theorem upstreamFramesAndPause : Obligations.UpstreamFramesAndPause := by
  refine ⟨fun s c x rx m hs hm hrx htrap hmiss => upstreamFrameReceived_follows rx hs hm hrx htrap hmiss, fun s c =>
    ⟨fun x m hs hm hf ht hop => pauseFrameReceived_obeyed hs hm hf ht hop, fun x hf => pauseFrameReceived_bad hf s c,
      fun p d hd => pauseTimerExpiry_follows hd, fun d hd h => congrArg Host.Outcome.next (pauseRefreshOp_early hd h),
      fun m d hs hm hd hdue => pauseRefreshExpiry_due hs hm hd hdue⟩⟩

end Sys2Proof.Machine

/-! # Training, the margin and ECONOMY (O17) -/

namespace Sys2Proof.Machine

open Sys2Proof

/-! ### The channel through a change of its state -/

/-- The channel's state is the one it enters; the channel is otherwise as it was. -/
theorem chanAt_setChSt (s : State) {c : Nat} (hc : c < 24) (st : ChSt) :
    chanAt (setChSt s c st) c = { chanAt s c with tab := { (chanAt s c).tab with state := st } } := by
  have entered : ∀ u : State, u.chans = s.chans → chanAt (raise (setTab u c (fun t => { t with state := st })) Src.chState c 0) c =
      { chanAt s c with tab := { (chanAt s c).tab with state := st } } := by
    intro u hu
    rw [chanAt_raise]
    refine (chanAt_setChan_self u c _ hc).trans ?_
    unfold chanAt
    rw [hu]
  unfold setChSt
  split
  next h =>
    rw [← h]
  next =>
    dsimp only
    refine entered _ ?_
    split
    · exact leaveSleep_chans s
    · rfl

/-- A frame in progress that is dropped is counted, and the channel is otherwise as it was. -/
theorem chanAt_dropCur (s : State) {c : Nat} (hc : c < 24) : ∃ m, chanAt (dropCur s c) c = { chanAt s c with mac := m } := by
  have counted : ∃ m, chanAt (setMac s c (fun m => { m with noPath := m.noPath + 1 })) c = { chanAt s c with mac := m } :=
    ⟨_, chanAt_setChan_self s c _ hc⟩
  unfold dropCur
  split
  · exact ⟨_, rfl⟩
  next f _ =>
    cases f.src with
    | work _ _ => exact ⟨_, rfl⟩
    | pause => exact ⟨_, rfl⟩
    | uplink _ => exact counted
    | line _ => exact counted

/-- The line of a channel stopped: its line, its framer and its queues are quiet. -/
theorem chanAt_stopLine (s : State) {c : Nat} (hc : c < 24) : ∃ m, chanAt (stopLine s c) c =
    { chanAt s c with line := (chanAt s c).line.quiet, fr := (chanAt s c).fr.quiet, qs := (chanAt s c).qs.quiet, mac := m } := by
  obtain ⟨m, hm⟩ := chanAt_dropCur s hc
  refine ⟨m, ?_⟩
  unfold stopLine
  rw [chanAt_setChan_self _ c _ hc, hm]

theorem dropCur_journal (s : State) (c : Nat) : (dropCur s c).journal = s.journal := by
  unfold dropCur
  split
  · rfl
  next f _ => cases f.src <;> rfl

theorem stopLine_journal (s : State) (c : Nat) : (stopLine s c).journal = s.journal := dropCur_journal s c

theorem setChSt_journal (s : State) (c : Nat) (st : ChSt) : (setChSt s c st).journal = s.journal := by
  have entered : ∀ u : State, u.journal = s.journal → (raise (setTab u c (fun t => { t with state := st })) Src.chState c 0).journal = s.journal :=
    fun u hu => (raise_journal _ _ _ _).trans hu
  unfold setChSt
  split
  · rfl
  · dsimp only
    refine entered _ ?_
    split
    · exact leaveSleep_journal s
    · rfl

theorem enterHalted_journal (s : State) (c cause : Nat) : (enterHalted s c cause).journal = s.journal :=
  (setChSt_journal _ c .halted).trans (stopLine_journal s c)

theorem leaveService_idle {s : State} {c : Nat} (h : serving s c = false) : leaveService s c = s := by
  unfold leaveService
  rw [h]
  rfl

theorem serving_of_train {s : State} {c : Nat} (h : (chanAt s c).tab.state = .train) : serving s c = false := by
  unfold serving
  rw [h]
  rfl

theorem chanAt_enterHalted (s : State) {c : Nat} (hc : c < 24) (cause : Nat) :
    (chanAt (enterHalted s c cause) c).tab = { (chanAt s c).tab with haltCause := BitVec.ofNat 4 cause, state := .halted } ∧
    (chanAt (enterHalted s c cause) c).line = (chanAt s c).line.quiet := by
  obtain ⟨m, hm⟩ := chanAt_stopLine s hc
  unfold enterHalted
  rw [chanAt_setChSt _ hc]
  unfold setTab
  rw [chanAt_setChan_self _ c _ hc, hm]
  exact ⟨rfl, rfl⟩

/-- A channel out of service returns to READY with its line quiet. -/
theorem chanAt_goReady {s : State} {c : Nat} (hc : c < 24) (h : serving s c = false) :
    (chanAt (goReady s c) c).tab = { (chanAt s c).tab with state := .ready } ∧ (chanAt (goReady s c) c).line = (chanAt s c).line.quiet := by
  obtain ⟨m, hm⟩ := chanAt_stopLine s hc
  unfold goReady
  rw [leaveService_idle h, chanAt_setChSt _ hc, hm]
  exact ⟨rfl, rfl⟩

/-- A change of the channel's line. -/
theorem chanAt_setLine (s : State) {c : Nat} (hc : c < 24) (f : Line → Line) :
    chanAt (setLine s c f) c = { chanAt s c with line := f (chanAt s c).line } := chanAt_setChan_self s c _ hc

/-! ### The handshake -/

theorem handshakeOp_answered {s : State} {c : Nat} (id : DWord) (ht : (chanAt s c).tab.state = .train) (hp : (chanAt s c).line.phase = 1) :
    handshakeOp s c id = if (chanAt s c).line.latPeer ≠ 0 ∧ (chanAt s c).line.latPeer ≠ id then
      enterHalted (setLine s c (fun l => { l with peer := id })) c 3 else toPhase (setLine s c (fun l => { l with peer := id })) c 2 := by
  unfold handshakeOp
  dsimp only
  rw [if_neg (by rw [ht, hp]; simp)]

theorem handshakeAnswer_follows (s : State) (c : Ch) (id : DWord) : exec (.handshakeAnswer c false id) s = .next s ∧
    ((chanAt s c.val).tab.state = .train → (chanAt s c.val).line.phase = 1 →
      ∃ t, exec (.handshakeAnswer c true id) s = .next t ∧ OnlyChan s t c.val ∧ t.rings = s.rings ∧ t.journal = s.journal ∧
        (chanAt t c.val).line.peer = id ∧
        ((chanAt s c.val).line.latPeer ≠ 0 → (chanAt s c.val).line.latPeer ≠ id →
          (chanAt t c.val).tab.state = .halted ∧ (chanAt t c.val).tab.haltCause = 3) ∧
        (((chanAt s c.val).line.latPeer = 0 ∨ (chanAt s c.val).line.latPeer = id) →
          (chanAt t c.val).tab.state = .train ∧ (chanAt t c.val).line.phase = 2)) := by
  refine ⟨rfl, fun ht hp => ⟨handshakeOp s c.val id, rfl, ?_⟩⟩
  rw [handshakeOp_answered id ht hp]
  have hset := setChan_chanMoves s c.val (fun k => { k with line := { k.line with peer := id } })
  have hline := chanAt_setLine s c.isLt (fun l => { l with peer := id })
  have hsame : (setLine s c.val (fun l => { l with peer := id })).rings = s.rings ∧
      (setLine s c.val (fun l => { l with peer := id })).journal = s.journal := ⟨rfl, rfl⟩
  have hset : ChanMoves c.val s (setLine s c.val (fun l => { l with peer := id })) := hset
  generalize setLine s c.val (fun l => { l with peer := id }) = u at hset hline hsame ⊢
  by_cases hpeer : (chanAt s c.val).line.latPeer ≠ 0 ∧ (chanAt s c.val).line.latPeer ≠ id
  · obtain ⟨h1, h2⟩ := chanAt_enterHalted u c.isLt 3
    rw [if_pos hpeer]
    refine ⟨(hset.trans (enterHalted_chanMoves u c.val 3)).others, (enterHalted_rings u c.val 3).trans hsame.1, ?_, ?_, fun _ _ => ?_, fun h => ?_⟩
    · exact (enterHalted_journal u c.val 3).trans hsame.2
    · rw [h2, hline]
      rfl
    · rw [h1]
      exact ⟨rfl, rfl⟩
    · exact absurd h (by rw [not_or]; exact hpeer)
  · have hto := chanAt_setLine u c.isLt (fun l => { l with phase := BitVec.ofNat 4 2, frames := 0 })
    rw [if_neg hpeer]
    unfold toPhase
    refine ⟨(hset.trans (setChan_chanMoves u c.val _)).others, hsame.1, hsame.2, ?_, fun h1 h2 => absurd ⟨h1, h2⟩ hpeer, fun _ => ?_⟩
    · rw [hto, hline]
    · rw [hto, hline]
      exact ⟨ht, rfl⟩

/-! ### The training phases -/

section
variable {s : State} {c : Ch} (ht : (chanAt s c.val).tab.state = .train)
include ht

theorem phaseEnd_serviceEntry (hp : (chanAt s c.val).line.phase = 6) : phaseEnd s c.val .done = goService s c.val := by
  unfold phaseEnd
  dsimp only
  rw [if_neg (by rw [ht]; simp), hp]
  rfl

theorem phaseEnd_handshake (hp : (chanAt s c.val).line.phase = 0) : phaseEnd s c.val .done = beginHandshake s c.val := by
  unfold phaseEnd
  dsimp only
  rw [if_neg (by rw [ht]; simp), hp]
  rfl

theorem phaseEnd_timing (rt : Nat) (hp : (chanAt s c.val).line.phase = 2) :
    phaseEnd s c.val (.timing rt) = if 6000 < rt then failTraining s c.val 2 else toPhase s c.val 3 := by
  unfold phaseEnd
  dsimp only
  rw [if_neg (by rw [ht]; simp), hp]
  rfl

theorem phaseEnd_noAnswer (hp : (chanAt s c.val).line.phase = 1) : phaseEnd s c.val .noAnswer = failTraining s c.val 1 := by
  unfold phaseEnd
  dsimp only
  rw [if_neg (by rw [ht]; simp), hp]
  rfl

end

/-- The handshake sent: the phase begins, and nothing of the table entry changes. -/
theorem beginHandshake_follows {s : State} {c : Nat} (hc : c < 24) : ChanMoves c s (beginHandshake s c) ∧ (beginHandshake s c).rings = s.rings ∧
    chanAt (beginHandshake s c) c = { chanAt s c with line := { (chanAt s c).line with phase := 1, frames := 0 } } := by
  have sent : ∀ (u : State) (o : Out), ChanMoves c u (emitOut u o) ∧ ∀ x, chanAt (emitOut u o) x = chanAt u x := fun u o =>
    ⟨⟨rfl, fun _ _ => rfl, sameCounters_of_rings rfl, fun e => e, fun e => e⟩, fun _ => rfl⟩
  have hto := setChan_chanMoves s c (fun k => { k with line := { k.line with phase := BitVec.ofNat 4 1, frames := 0 } })
  unfold beginHandshake
  dsimp only
  refine ⟨hto.trans (sent _ _).1, rfl, ?_⟩
  rw [(sent _ _).2]
  unfold toPhase
  exact chanAt_setLine s hc _

theorem goService_chanMoves (s : State) (c : Nat) : ChanMoves c s (goService s c) := by
  unfold goService
  dsimp only
  exact ((((setChan_chanMoves s c _).trans (setChan_chanMoves _ c _)).trans (setChan_chanMoves _ c _)).trans (setChan_chanMoves _ c _)).trans
    (setChSt_chanMoves _ c .service)

/-- SERVICE is entered with no failure counted and the framer's sequence at its start (R154). -/
theorem goService_enters (s : State) {c : Nat} (hc : c < 24) : (goService s c).rings = s.rings ∧ (chanAt (goService s c) c).tab.state = .service ∧
    (chanAt (goService s c) c).tab.trainFails = 0 ∧ (chanAt (goService s c) c).fr.nextSeq = 0 ∧ (chanAt (goService s c) c).line.phase = 15 := by
  unfold goService
  dsimp only
  refine ⟨setChSt_rings _ _ _, ?_⟩
  rw [chanAt_setChSt _ hc]
  unfold setTab setQs setFr setLine
  rw [chanAt_setChan_self _ c _ hc, chanAt_setChan_self _ c _ hc, chanAt_setChan_self _ c _ hc, chanAt_setChan_self _ c _ hc]
  exact ⟨rfl, rfl, rfl, rfl⟩

/-! ### A training failure -/

/-- The failure counted and its cause kept. -/
def failCounted (s : State) (c cause : Nat) (n : Byte) : State :=
  raise (setLine (setTab s c (fun t => { t with trainFails := n, failAt := some s.datum })) c (fun l => { l with lastFail := BitVec.ofNat 4 cause }))
    Src.trainFail c 0

theorem failCounted_chanMoves (s : State) (c cause : Nat) (n : Byte) : ChanMoves c s (failCounted s c cause n) :=
  ((setChan_chanMoves s c _).trans (setChan_chanMoves _ c _)).trans (raise_chanMoves c _ _ _ _)

theorem failCounted_chan (s : State) {c : Nat} (hc : c < 24) (cause : Nat) (n : Byte) : chanAt (failCounted s c cause n) c =
    { chanAt s c with tab := { (chanAt s c).tab with trainFails := n, failAt := some s.datum }
                      line := { (chanAt s c).line with lastFail := BitVec.ofNat 4 cause } } := by
  unfold failCounted
  rw [chanAt_raise, chanAt_setLine _ hc]
  unfold setTab
  rw [chanAt_setChan_self s c _ hc]

/-- The failure past 255 draws its count (log 26). -/
def failStart (s : State) (c : Nat) : State := if (chanAt s c).tab.trainFails = 255 then drew s else s

def failNext (s : State) (c : Nat) : Byte :=
  if (chanAt s c).tab.trainFails = 255 then BitVec.ofNat 8 (Config.freeWord s.free).toNat else (chanAt s c).tab.trainFails + 1

theorem failStart_kept (s : State) (c : Nat) : ChanMoves c s (failStart s c) ∧ (failStart s c).datum = s.datum ∧
    ∀ x, chanAt (failStart s c) x = chanAt s x := by
  unfold failStart
  split
  · exact ⟨drew_chanMoves c s, rfl, fun _ => rfl⟩
  · exact ⟨.refl c s, rfl, fun _ => rfl⟩

/-- The end of a failure: HALTED at its limit, READY otherwise (R148). -/
def failEnd (s u : State) (c : Nat) : State :=
  if (chanAt s c).tab.failLimit ≠ 0 ∧ (chanAt s c).tab.failLimit.toNat ≤ (chanAt s c).tab.trainFails.toNat + 1 then enterHalted u c 2 else goReady u c

theorem failTraining_eq {s : State} {c : Nat} (ht : (chanAt s c).tab.state = .train) (cause : Nat) :
    failTraining s c cause = failEnd s (failCounted (failStart s c) c cause (failNext s c)) c := by
  have hd : (failStart s c).datum = s.datum := (failStart_kept s c).2.1
  unfold failTraining failEnd failCounted
  rw [hd]
  unfold failStart failNext
  dsimp only
  rw [if_neg (by rw [ht]; simp)]
  by_cases h : (chanAt s c).tab.trainFails = 255
  · simp only [h, decide_true, if_true]
  · simp only [h, decide_false, if_false, Bool.false_eq_true]

theorem failEnd_chanMoves (s u : State) (c : Nat) : ChanMoves c u (failEnd s u c) := by
  unfold failEnd
  split
  · exact enterHalted_chanMoves u c 2
  · exact goReady_chanMoves u c

/-- A failure's count and cause outlast the channel's leaving TRAIN. -/
theorem failTraining_follows {s : State} {c : Nat} (hc : c < 24) (ht : (chanAt s c).tab.state = .train) (cause : Nat) :
    OnlyChan s (failTraining s c cause) c ∧ (chanAt (failTraining s c cause) c).line.lastFail = BitVec.ofNat 4 cause ∧
    (chanAt (failTraining s c cause) c).tab.failAt = some s.datum ∧ (chanAt (failTraining s c cause) c).tab.trainFails = failNext s c ∧
    ((chanAt s c).tab.failLimit ≠ 0 → (chanAt s c).tab.failLimit.toNat ≤ (chanAt s c).tab.trainFails.toNat + 1 →
      (chanAt (failTraining s c cause) c).tab.state = .halted ∧ (chanAt (failTraining s c cause) c).tab.haltCause = 2) ∧
    ((chanAt s c).tab.failLimit = 0 → (chanAt (failTraining s c cause) c).tab.state = .ready) := by
  obtain ⟨h0, hd, hchan⟩ := failStart_kept s c
  rw [failTraining_eq ht]
  have hmoves := h0.trans (failCounted_chanMoves (failStart s c) c cause (failNext s c))
  have hown := failCounted_chan (failStart s c) hc cause (failNext s c)
  generalize failCounted (failStart s c) c cause (failNext s c) = u at hmoves hown ⊢
  rw [hchan, hd] at hown
  have hs : serving u c = false := serving_of_train (by rw [hown]; exact ht)
  refine ⟨(hmoves.trans (failEnd_chanMoves s u c)).others, ?_⟩
  unfold failEnd
  split
  next h =>
    obtain ⟨k1, k2⟩ := chanAt_enterHalted u hc 2
    rw [k1, k2, hown]
    exact ⟨rfl, rfl, rfl, fun _ _ => ⟨rfl, rfl⟩, fun h0 => absurd h0 h.1⟩
  next h =>
    obtain ⟨k1, k2⟩ := chanAt_goReady hc hs
    rw [k1, k2, hown]
    exact ⟨rfl, rfl, rfl, fun h1 h2 => absurd ⟨h1, h2⟩ h, fun _ => rfl⟩

theorem failNext_below {s : State} {c : Nat} (h : (chanAt s c).tab.trainFails ≠ 255) : failNext s c = (chanAt s c).tab.trainFails + 1 := if_neg h

theorem trainingPhaseEnd_follows {s : State} {c : Ch} (ht : (chanAt s c.val).tab.state = .train) :
    ((chanAt s c.val).line.phase = 6 → ∃ t, exec (.trainingPhaseEnd c .done) s = .next t ∧ OnlyChan s t c.val ∧ t.rings = s.rings ∧
      (chanAt t c.val).tab.state = .service ∧ (chanAt t c.val).tab.trainFails = 0 ∧ (chanAt t c.val).fr.nextSeq = 0 ∧
      (chanAt t c.val).line.phase = 15) ∧
    ((chanAt s c.val).line.phase = 0 → ∃ t, exec (.trainingPhaseEnd c .done) s = .next t ∧ OnlyChan s t c.val ∧ t.rings = s.rings ∧
      (chanAt t c.val).line.phase = 1 ∧ drvUsed (chanAt t c.val) = true ∧ (chanAt t c.val).tab = (chanAt s c.val).tab) ∧
    (∀ rt, (chanAt s c.val).line.phase = 2 → ∃ t, exec (.trainingPhaseEnd c (.timing rt)) s = .next t ∧ OnlyChan s t c.val ∧
      (rt ≤ 6000 → (chanAt t c.val).line.phase = 3 ∧ (chanAt t c.val).tab = (chanAt s c.val).tab) ∧
      (6000 < rt → (chanAt t c.val).line.lastFail = 2 ∧ (chanAt t c.val).tab.failAt = some s.datum)) ∧
    ((chanAt s c.val).line.phase = 1 → ∃ t, exec (.trainingPhaseEnd c .noAnswer) s = .next t ∧ OnlyChan s t c.val ∧
      (chanAt t c.val).line.lastFail = 1 ∧ (chanAt t c.val).tab.failAt = some s.datum ∧
      ((chanAt s c.val).tab.trainFails ≠ 255 → (chanAt t c.val).tab.trainFails = (chanAt s c.val).tab.trainFails + 1) ∧
      ((chanAt s c.val).tab.failLimit ≠ 0 → (chanAt s c.val).tab.failLimit.toNat ≤ (chanAt s c.val).tab.trainFails.toNat + 1 →
        (chanAt t c.val).tab.state = .halted ∧ (chanAt t c.val).tab.haltCause = 2) ∧
      ((chanAt s c.val).tab.failLimit = 0 → (chanAt t c.val).tab.state = .ready)) := by
  refine ⟨fun hp => ⟨_, rfl, ?_⟩, fun hp => ⟨_, rfl, ?_⟩, fun rt hp => ⟨_, rfl, ?_⟩, fun hp => ⟨_, rfl, ?_⟩⟩
  · rw [phaseEnd_serviceEntry ht hp]
    exact ⟨(goService_chanMoves s c.val).others, goService_enters s c.isLt⟩
  · obtain ⟨hm, hr, hown⟩ := beginHandshake_follows (s := s) c.isLt
    rw [phaseEnd_handshake ht hp]
    refine ⟨hm.others, hr, ?_⟩
    unfold drvUsed
    rw [hown, ht]
    exact ⟨rfl, rfl, rfl⟩
  · rw [phaseEnd_timing ht rt hp]
    obtain ⟨ho, hlast, hat, -⟩ := failTraining_follows c.isLt ht 2
    by_cases h : 6000 < rt
    · rw [if_pos h]
      exact ⟨ho, fun hle => absurd h (by omega), fun _ => ⟨hlast, hat⟩⟩
    · rw [if_neg h]
      unfold toPhase
      refine ⟨(setChan_chanMoves s c.val _).others, fun _ => ?_, fun hlt => absurd hlt h⟩
      rw [chanAt_setLine s c.isLt]
      exact ⟨rfl, rfl⟩
  · obtain ⟨ho, hlast, hat, hn, hhalt, hready⟩ := failTraining_follows c.isLt ht 1
    rw [phaseEnd_noAnswer ht hp]
    exact ⟨ho, hlast, hat, fun h => hn.trans (failNext_below h), hhalt, hready⟩

/-! ### Margin and ECONOMY -/

theorem marginOp_line (l : Line) (snr : List Nat) :
    marginOp l snr = { l with tonesUs := withSnr l.tonesUs snr, marginUs := (marginOp l snr).marginUs } ∧
    ∀ m, leastOf (margins l (withSnr l.tonesUs snr)) = some m → (marginOp l snr).marginUs = BitVec.ofInt 16 m := by
  unfold marginOp
  dsimp only
  cases leastOf (margins l (withSnr l.tonesUs snr)) with
  | none => exact ⟨rfl, nofun⟩
  | some a =>
    refine ⟨rfl, fun m h => ?_⟩
    rw [Option.some.inj h]

theorem marginUpdate_follows {s : State} {c : Ch} (snr : List Nat) (hs : serving s c.val = true) :
    ∃ t, exec (.marginUpdate c snr) s = .next t ∧ t = { s with chans := t.chans } ∧ OnlyChan s t c.val ∧
      chanAt t c.val = { chanAt s c.val with line := { (chanAt s c.val).line with
        tonesUs := withSnr (chanAt s c.val).line.tonesUs snr, marginUs := (chanAt t c.val).line.marginUs } } ∧
      ∀ m, leastOf (margins (chanAt s c.val).line (withSnr (chanAt s c.val).line.tonesUs snr)) = some m →
        (chanAt t c.val).line.marginUs = BitVec.ofInt 16 m := by
  obtain ⟨h1, h2⟩ := marginOp_line (chanAt s c.val).line snr
  have hown := chanAt_setLine s c.isLt (fun l => marginOp l snr)
  refine ⟨_, congrArg Host.Outcome.next (if_pos hs), rfl, (setChan_chanMoves s c.val _).others, ?_, ?_⟩
  · rw [hown, ← h1]
  · rw [hown]
    exact h2

theorem economyIdle_follows {s : State} {c : Ch} (hst : (chanAt s c.val).tab.state = .service) (hen : (chanAt s c.val).tab.econEn = true)
    (htimer : (chanAt s c.val).line.econTimer ≠ none) (hlight : lightFrame (chanAt s c.val) = true)
    (hentry : (chanAt s c.val).line.econChg.entry = none) :
    ∃ t, exec (.economyIdleTimerExpiry c) s = .next t ∧ t = { s with chans := t.chans } ∧ OnlyChan s t c.val ∧
        (chanAt t c.val).tab = (chanAt s c.val).tab ∧
        (econCarries (chanAt s c.val).line = true → (chanAt t c.val).line.econChg.entry = some (false, 3)) ∧
        (econCarries (chanAt s c.val).line = false → (chanAt t c.val).line.econBlock = true ∧
          (chanAt t c.val).line.econChg = (chanAt s c.val).line.econChg) := by
  have hnone : (chanAt s c.val).line.econTimer.isNone = false := by
    cases h : (chanAt s c.val).line.econTimer with
    | none => exact absurd h htimer
    | some d => rfl
  have hop : econExpiry s c.val = if econCarries (chanAt s c.val).line then
      setLine s c.val (fun l => { l with econChg := { l.econChg with entry := some (false, 3) } })
    else setLine s c.val (fun l => { l with econBlock := true, econTimer := some s.datum }) := by
    unfold econExpiry
    refine if_neg ?_
    rw [hst, hen, hnone, hlight, hentry]
    simp
  refine ⟨econExpiry s c.val, rfl, ?_⟩
  rw [hop]
  cases econCarries (chanAt s c.val).line with
  | true =>
    rw [if_pos rfl, chanAt_setLine s c.isLt]
    exact ⟨rfl, (setChan_chanMoves s c.val _).others, rfl, fun _ => rfl, nofun⟩
  | false =>
    rw [if_neg Bool.false_ne_true, chanAt_setLine s c.isLt]
    exact ⟨rfl, (setChan_chanMoves s c.val _).others, rfl, nofun, fun _ => ⟨rfl, rfl⟩⟩

/-! ### Loss of line -/

/-- Leaving SERVICE keeps the channel's table entry and its performance counts. -/
theorem leaveService_kept (s : State) {c : Nat} (hc : c < 24) :
    (chanAt (leaveService s c) c).tab = (chanAt s c).tab ∧ (chanAt (leaveService s c) c).pm = (chanAt s c).pm := by
  have h1 := foldl_chans (fun t k => cutEmissions t (chRing c k)) (fun t k => cutEmissions_chans t _) [0, 1, 5]
  have h2 := foldl_chans (fun t k => returnNoPath t (chRing c k) (fun _ => true)) (fun t k => returnNoPath_chans t _ _) [0, 1]
  have h4 := foldl_chans (fun t i => breakBlock t c i) (fun t i => breakBlock_chans t c i) (List.range 4)
  refine ⟨tabAt_leaveService s c, ?_⟩
  have stopped : ∀ u : State, u.chans = s.chans → ∀ p, (chanAt (stopLine (dropChan u c p) c) c).pm = (chanAt s c).pm := by
    intro u hu p
    obtain ⟨m, hm⟩ := chanAt_stopLine (dropChan u c p) hc
    rw [hm]
    unfold dropChan setQs
    rw [chanAt_setChan_self _ c _ hc]
    unfold chanAt
    rw [hu]
  unfold leaveService
  split
  · rfl
  · exact stopped _ ((h4 _).trans ((returnNoPath_chans _ _ _).trans ((h2 _).trans (h1 s)))) _

/-- The tributary conflicts of a TRAIN entry are told. -/
def conflictTold (s : State) (c conf : Nat) : State := if conf = 0 then s else raise s Src.tribConflict c 0

theorem conflictTold_kept (s : State) (c conf : Nat) : ChanMoves c s (conflictTold s c conf) ∧ ∀ x, chanAt (conflictTold s c conf) x = chanAt s x := by
  unfold conflictTold
  split
  · exact ⟨.refl c s, fun _ => rfl⟩
  · exact ⟨raise_chanMoves c _ _ _ _, fun x => chanAt_raise _ _ _ _ x⟩

/-- TRAIN entered: the pending sections latched. -/
def trainLatched (s u : State) (c : Nat) : State :=
  setChSt (setLine (setFr u c (fun f => { f with claims := (takeClaims u c (chanAt u c).tab.trib).1
                                                 conflict := BitVec.ofNat 4 (takeClaims u c (chanAt u c).tab.trib).2 })) c (fun l => { l with
    phase := 0
    frames := 0
    latLine := (chanAt u c).tab.line
    latTrib := (chanAt u c).tab.trib
    latPeer := (chanAt u c).tab.peerId
    latMds := s.time.mds.toNat
    latPhase := s.time.tddPhase.toNat
    latched := true
    tddUsed := word (fieldAt s.time.mds.toNat 6 26 + s.time.tddPhase.toNat) })) c .train

theorem goTrain_eq (s : State) (c : Nat) : goTrain s c = conflictTold (trainLatched s (stopLine (leaveService s c) c) c) c
    (takeClaims (stopLine (leaveService s c) c) c (chanAt (stopLine (leaveService s c) c) c).tab.trib).2 := rfl

theorem trainLatched_chanMoves (s u : State) (c : Nat) : ChanMoves c u (trainLatched s u c) :=
  ((setChan_chanMoves u c _).trans (setChan_chanMoves _ c _)).trans (setChSt_chanMoves _ c .train)

theorem trainLatched_own (s u : State) {c : Nat} (hc : c < 24) :
    (chanAt (trainLatched s u c) c).tab = { (chanAt u c).tab with state := .train } ∧ (chanAt (trainLatched s u c) c).pm = (chanAt u c).pm := by
  unfold trainLatched
  rw [chanAt_setChSt _ hc, chanAt_setLine _ hc]
  unfold setFr
  rw [chanAt_setChan_self u c _ hc]
  exact ⟨rfl, rfl⟩

theorem goTrain_chanMoves (s : State) (c : Nat) : ChanMoves c s (goTrain s c) := by
  rw [goTrain_eq]
  exact (((leaveService_chanMoves s c).trans (stopLine_chanMoves _ c)).trans (trainLatched_chanMoves s _ c)).trans (conflictTold_kept _ c _).1

/-- Entering TRAIN changes the state alone of the table entry, and keeps the performance counts. -/
theorem goTrain_own (s : State) {c : Nat} (hc : c < 24) :
    (chanAt (goTrain s c) c).tab = { (chanAt s c).tab with state := .train } ∧ (chanAt (goTrain s c) c).pm = (chanAt s c).pm := by
  obtain ⟨l1, l2⟩ := leaveService_kept s hc
  obtain ⟨m, hm⟩ := chanAt_stopLine (leaveService s c) hc
  rw [goTrain_eq]
  generalize stopLine (leaveService s c) c = u at hm ⊢
  obtain ⟨k1, k2⟩ := trainLatched_own s u hc
  rw [(conflictTold_kept _ c _).2, k1, k2, hm]
  exact ⟨by rw [l1], l2⟩

theorem lossOfLine_follows {s : State} {c : Ch} (hs : serving s c.val = true) (hbad : 400 ≤ (chanAt s c.val).fr.badRun) :
    ∃ t, exec (.lossOfLine c) s = .next t ∧ OnlyChan s t c.val ∧ SameCounters s t ∧
      (chanAt t c.val).tab.state = .train ∧ (chanAt t c.val).pm.cur.lol = (chanAt s c.val).pm.cur.lol + 1 ∧
      (chanAt t c.val).tab.trainFails = (chanAt s c.val).tab.trainFails := by
  have hop : lossOfLineOp s c.val = goTrain (raise (setPm s c.val (fun p => { p with lol := p.lol + 1 })) Src.lol c.val 0) c.val := if_pos hs
  have hcount := (setChan_chanMoves s c.val (fun k => { k with pm := { k.pm with cur := { k.pm.cur with lol := k.pm.cur.lol + 1 } } })).trans
    (raise_chanMoves c.val _ Src.lol c.val 0)
  have hcount : ChanMoves c.val s (raise (setPm s c.val (fun p => { p with lol := p.lol + 1 })) Src.lol c.val 0) := hcount
  have hown : chanAt (raise (setPm s c.val (fun p => { p with lol := p.lol + 1 })) Src.lol c.val 0) c.val =
      { chanAt s c.val with pm := { (chanAt s c.val).pm with cur := { (chanAt s c.val).pm.cur with lol := (chanAt s c.val).pm.cur.lol + 1 } } } := by
    rw [chanAt_raise]
    exact chanAt_setChan_self s c.val _ c.isLt
  refine ⟨_, congrArg Host.Outcome.next ((if_pos hbad).trans hop), ?_⟩
  generalize raise (setPm s c.val (fun p => { p with lol := p.lol + 1 })) Src.lol c.val 0 = u at hcount hown ⊢
  obtain ⟨k1, k2⟩ := goTrain_own u c.isLt
  have hmoves := hcount.trans (goTrain_chanMoves u c.val)
  refine ⟨hmoves.others, hmoves.counters, ?_, ?_, ?_⟩
  · rw [k1]
  · rw [k2, hown]
  · rw [k1, hown]

/-- Settles O17: each step of the training changes its channel's line and table entry alone, and a failure's cause and count outlast the channel's
return to READY or its entry into HALTED. -/
theorem trainingAndServiceFollowed : Obligations.TrainingAndServiceFollowed :=
  ⟨handshakeAnswer_follows, fun _ _ ht => trainingPhaseEnd_follows ht, fun _ _ snr hs => ⟨marginUpdate_follows snr hs,
    fun h1 h2 h3 h4 h5 => economyIdle_follows h1 h2 h3 h4 h5, fun hbad => lossOfLine_follows hs hbad⟩⟩

end Sys2Proof.Machine

/-! # The channel table read (O15) -/

namespace Sys2Proof.Machine

open Sys2Proof

/-! ### What a read of an entry moves -/

/-- A read of channel `c`'s entry moves the read's own state of the channel's table side, the returns of its commands and what is sent. -/
structure ReadMoves (c : Nat) (s t : State) : Prop where
  frame : t = { s with chans := t.chans, rings := t.rings, hif := t.hif, evt := t.evt, sent := t.sent }
  others : OnlyChan s t c
  own : chanAt t c = { chanAt s c with tab := { (chanAt s c).tab with
    phase := (chanAt t c).tab.phase, served := (chanAt t c).tab.served, cmds := (chanAt t c).tab.cmds, readErr := (chanAt t c).tab.readErr } }
  counters : SameCounters s t

theorem ReadMoves.refl (c : Nat) (s : State) : ReadMoves c s s := ⟨rfl, fun _ _ => rfl, rfl, .refl s⟩

theorem ReadMoves.trans {c : Nat} {s t u : State} (h : ReadMoves c s t) (h' : ReadMoves c t u) : ReadMoves c s u := by
  obtain ⟨hf, ho, hw, hk⟩ := h
  obtain ⟨hf', ho', hw', hk'⟩ := h'
  refine ⟨?_, fun x hx => (ho' x hx).trans (ho x hx), ?_, hk.trans hk'⟩
  · rw [hf] at hf'
    rw [hf']
  · rw [hw] at hw'
    rw [hw']

/-- A change that leaves the channels. -/
theorem ReadMoves.of_chans {c : Nat} {s t : State} (hf : t = { s with rings := t.rings, hif := t.hif, evt := t.evt, sent := t.sent })
    (hk : SameCounters s t) : ReadMoves c s t := by
  have hc : ∀ x, chanAt t x = chanAt s x := fun x => by rw [hf]; rfl
  refine ⟨?_, fun x _ => hc x, by rw [hc], hk⟩
  rw [hf]

theorem raise_readMoves (c : Nat) (s : State) (src scope : Nat) (i : Word) : ReadMoves c s (raise s src scope i) := by
  have h := raise_evtOnly s src scope i
  refine .of_chans ?_ (sameCounters_of_rings h.rings)
  unfold EvtOnly at h
  rw [h]

theorem returnWork_readMoves (c : Nat) (s : State) (r : Nat) (q : Word) (st : Status) : ReadMoves c s (returnWork s r q st) := by
  refine .of_chans ?_ (returnWith_sameCounters s r q _)
  have h := returnWith_frame s r q (Outcome.of st 0 0)
  unfold returnWork
  rw [h]

theorem latchFault_readMoves (c : Nat) (s : State) (kind ring fn addr : Nat) : ReadMoves c s (latchFault s kind ring fn addr) := by
  unfold latchFault
  split
  · exact .refl c s
  · exact .of_chans rfl (sameCounters_of_rings rfl)

theorem sendRead_readMoves (c : Nat) (s : State) (f a n : Nat) : ReadMoves c s (sendRead s f a n) := .of_chans rfl (sameCounters_of_rings rfl)

theorem foldl_readMoves {α : Type} {c : Nat} (f : State → α → State) (h : ∀ s a, ReadMoves c s (f s a)) (l : List α) (s : State) :
    ReadMoves c s (l.foldl f s) := foldl_inv (.refl c) (fun _ _ _ h h' => h.trans h') h l s

/-- A change of the read's own state. -/
theorem mapTab_readMoves (s : State) {c : Nat} (hc : c < 24) {f : ChTab → ChTab}
    (hf : ∀ t, f t = { t with phase := (f t).phase, served := (f t).served, cmds := (f t).cmds, readErr := (f t).readErr }) :
    ReadMoves c s (mapTab s c f) := by
  have hown := chanAt_setChan_self s c (fun k => { k with tab := f k.tab }) hc
  refine ⟨rfl, fun x hx => chanAt_setChan_ne s c x _ hx, ?_, sameCounters_of_rings rfl⟩
  unfold mapTab
  rw [hown]
  dsimp only
  rw [← hf]

theorem returnRefreshes_readMoves (s : State) {c : Nat} (hc : c < 24) (st : Status) : ReadMoves c s (returnRefreshes s c st) :=
  (mapTab_readMoves s hc (by intro t; rfl)).trans (foldl_readMoves _ (fun t (x : RefreshCmd) => returnWork_readMoves c t x.ring.val x.seq st) _ _)

theorem readFailed_readMoves (s : State) {c : Nat} (hc : c < 24) (st : Status) : ReadMoves c s (readFailed s c st) :=
  ((mapTab_readMoves s hc (by intro t; rfl)).trans (raise_readMoves c _ _ _ _)).trans (returnRefreshes_readMoves _ hc st)

theorem readWindowFault_readMoves (s : State) {c : Nat} (hc : c < 24) (a : Nat) : ReadMoves c s (readWindowFault s c a) :=
  ((latchFault_readMoves c s _ _ _ _).trans (raise_readMoves c _ _ _ _)).trans (readFailed_readMoves _ hc _)

theorem issuePhase_readMoves (s : State) {c : Nat} (hc : c < 24) (off len : Nat) (p : ReadPhase) : ReadMoves c s (issuePhase s c off len p) := by
  unfold issuePhase
  dsimp only
  split
  · exact (mapTab_readMoves s hc (by intro t; rfl)).trans (sendRead_readMoves c _ _ _ _)
  · exact readWindowFault_readMoves s hc _

theorem beginRead_readMoves (s : State) {c : Nat} (hc : c < 24) : ReadMoves c s (beginRead s c) := by
  unfold beginRead
  dsimp only
  split
  · exact (mapTab_readMoves s hc (by intro t; rfl)).trans (issuePhase_readMoves _ hc _ _ _)
  · exact .refl c s

theorem chanAt_of_chans {s t : State} (h : t.chans = s.chans) (c : Nat) : chanAt t c = chanAt s c := by
  unfold chanAt
  rw [h]

/-- The commands returned are the channel's no longer. -/
theorem returnRefreshes_chan (s : State) {c : Nat} (hc : c < 24) (st : Status) :
    chanAt (returnRefreshes s c st) c = { chanAt s c with tab := { (chanAt s c).tab with cmds := [] } } :=
  (chanAt_of_chans (foldl_chans (fun t (x : RefreshCmd) => returnWork t x.ring.val x.seq st) (fun t x => returnWork_chans t x.ring.val x.seq st) _ _)
    c).trans (chanAt_setChan_self s c _ hc)

/-! ### A refresh requested -/

/-- A refresh requested of a channel of the part. -/
def refreshMarked (s : State) (c : Nat) : State := mapTab s c (fun t => { t with pend := true, served := false })

/-- The read begun where none is under way. -/
def readBegun (s : State) (c : Nat) : State := if readIdle (chanAt s c).tab then beginRead (refreshMarked s c) c else refreshMarked s c

theorem requestRefresh_absent {s : State} {c : Nat} (h : present s c = false) : requestRefresh s c = s := by
  unfold requestRefresh
  rw [h]
  rfl

theorem requestRefresh_present {s : State} {c : Nat} (h : present s c = true) : requestRefresh s c = readBegun s c := by
  unfold requestRefresh
  rw [h]
  rfl

theorem readBegun_readMoves (s : State) {c : Nat} (hc : c < 24) : ReadMoves c (refreshMarked s c) (readBegun s c) := by
  unfold readBegun
  split
  · exact beginRead_readMoves _ hc
  · exact .refl c _

theorem lt_of_present {s : State} {c : Nat} (h : present s c = true) : c < 24 :=
  Nat.lt_of_lt_of_le (of_decide_eq_true h) (channels_le s.part)

theorem refreshMarked_chan (s : State) {c : Nat} (hc : c < 24) :
    chanAt (refreshMarked s c) c = { chanAt s c with tab := { (chanAt s c).tab with pend := true, served := false } } := chanAt_setChan_self s c _ hc

/-- A request moves the channel's own table side, and what the read it begins moves. -/
structure RequestMoves (c : Nat) (s t : State) : Prop where
  frame : t = { s with chans := t.chans, rings := t.rings, hif := t.hif, evt := t.evt, sent := t.sent }
  others : OnlyChan s t c
  own : chanAt t c = { chanAt s c with tab := { (chanAt s c).tab with phase := (chanAt t c).tab.phase, served := (chanAt t c).tab.served
                                                                      cmds := (chanAt t c).tab.cmds, readErr := (chanAt t c).tab.readErr
                                                                      pend := (chanAt t c).tab.pend } }
  counters : SameCounters s t

theorem RequestMoves.refl (c : Nat) (s : State) : RequestMoves c s s := ⟨rfl, fun _ _ => rfl, rfl, .refl s⟩

theorem requestRefresh_requestMoves (s : State) (c : Nat) : RequestMoves c s (requestRefresh s c) := by
  cases hp : present s c with
  | false =>
    rw [requestRefresh_absent hp]
    exact .refl c s
  | true =>
    have hc := lt_of_present hp
    rw [requestRefresh_present hp]
    obtain ⟨hf, ho, hw, hk⟩ := readBegun_readMoves s hc
    have hmark := refreshMarked_chan s hc
    have hothers : OnlyChan s (refreshMarked s c) c := fun x hx => chanAt_setChan_ne s c x _ hx
    have hframe : refreshMarked s c = { s with chans := (refreshMarked s c).chans } := rfl
    have hrings : (refreshMarked s c).rings = s.rings := rfl
    generalize readBegun s c = v at hf ho hw hk ⊢
    generalize refreshMarked s c = u at hf ho hw hk hmark hothers hframe hrings
    refine ⟨?_, fun x hx => (ho x hx).trans (hothers x hx), ?_, (sameCounters_of_rings hrings).trans hk⟩
    · rw [hframe] at hf
      rw [hf]
    · rw [hmark] at hw
      rw [hw]

/-- A request is kept until a whole read serves it. -/
theorem requestRefresh_pend {s : State} {c : Nat} (hp : present s c = true) : (chanAt (requestRefresh s c) c).tab.pend = true := by
  have hc := lt_of_present hp
  rw [requestRefresh_present hp, (readBegun_readMoves s hc).own, refreshMarked_chan s hc]

/-- Without ENABLE no read begins. -/
theorem requestRefresh_waits {s : State} (h : s.chtabEn = false) (c : Nat) : (chanAt (requestRefresh s c) c).tab.phase = (chanAt s c).tab.phase := by
  cases hp : present s c with
  | false => rw [requestRefresh_absent hp]
  | true =>
    have hc := lt_of_present hp
    have hb : readBegun s c = refreshMarked s c := by
      have : beginRead (refreshMarked s c) c = refreshMarked s c := by
        have hen : (refreshMarked s c).chtabEn = false := h
        unfold beginRead
        rw [hen]
        rfl
      unfold readBegun
      rw [this, ite_self]
    rw [requestRefresh_present hp, hb, refreshMarked_chan s hc]

/-! ### Requests of several channels -/

theorem RequestMoves.present_eq {c : Nat} {s t : State} (h : RequestMoves c s t) (x : Nat) : present t x = present s x := by
  have hp : t.part = s.part := by rw [h.frame]
  unfold present
  rw [hp]

theorem RequestMoves.tab_state {c : Nat} {s t : State} (h : RequestMoves c s t) (x : Nat) : (chanAt t x).tab.state = (chanAt s x).tab.state := by
  by_cases hx : x = c
  · rw [hx, h.own]
  · rw [h.others x hx]

/-- The requests of a list of channels. -/
structure RequestsMove (s t : State) : Prop where
  frame : t = { s with chans := t.chans, rings := t.rings, hif := t.hif, evt := t.evt, sent := t.sent }
  states : ∀ x, (chanAt t x).tab.state = (chanAt s x).tab.state
  waits : s.chtabEn = false → ∀ x, (chanAt t x).tab.phase = (chanAt s x).tab.phase
  counters : SameCounters s t

theorem RequestsMove.refl (s : State) : RequestsMove s s := ⟨rfl, fun _ => rfl, fun _ _ => rfl, .refl s⟩

theorem RequestsMove.trans {s t u : State} (h : RequestsMove s t) (h' : RequestsMove t u) : RequestsMove s u := by
  obtain ⟨hf, hs, hw, hk⟩ := h
  obtain ⟨hf', hs', hw', hk'⟩ := h'
  have hen : t.chtabEn = s.chtabEn := by rw [hf]
  refine ⟨?_, fun x => (hs' x).trans (hs x), fun e x => (hw' (hen.trans e) x).trans (hw e x), hk.trans hk'⟩
  rw [hf] at hf'
  rw [hf']

theorem requestRefresh_requestsMove (s : State) (c : Nat) : RequestsMove s (requestRefresh s c) := by
  have h := requestRefresh_requestMoves s c
  refine ⟨h.frame, h.tab_state, fun e x => ?_, h.counters⟩
  by_cases hx : x = c
  · rw [hx]
    exact requestRefresh_waits e c
  · rw [h.others x hx]

theorem requestAll_requestsMove (s : State) (l : List Nat) : RequestsMove s (requestAll s l) :=
  foldl_inv .refl (fun _ _ _ h h' => h.trans h') requestRefresh_requestsMove l s

theorem requestAll_present (s : State) (l : List Nat) (x : Nat) : present (requestAll s l) x = present s x := by
  have hp : (requestAll s l).part = s.part := by rw [(requestAll_requestsMove s l).frame]
  unfold present
  rw [hp]

/-- A channel that no request names, or that the part lacks, is as it was. -/
theorem requestAll_untouched {c : Nat} : ∀ (l : List Nat) (s : State), c ∉ l ∨ present s c = false → chanAt (requestAll s l) c = chanAt s c := by
  intro l
  induction l with
  | nil => exact fun _ _ => rfl
  | cons x l ih =>
    intro s h
    have hm := requestRefresh_requestMoves s x
    have hnext : c ∉ l ∨ present (requestRefresh s x) c = false := by
      rcases h with h | h
      · exact .inl (fun e => h (List.mem_cons_of_mem _ e))
      · exact .inr ((hm.present_eq c).trans h)
    refine (ih (requestRefresh s x) hnext).trans ?_
    by_cases hx : c = x
    · rcases h with h | h
      · exact absurd (hx ▸ List.mem_cons_self) h
      · rw [← hx, requestRefresh_absent h]
    · exact hm.others c hx

/-- Every channel of the part that a request names has one waiting. -/
theorem requestAll_pend {s : State} {c : Nat} {l : List Nat} (hl : c ∈ l) (hp : present s c = true) : (chanAt (requestAll s l) c).tab.pend = true := by
  have h := foldl_reaches (f := requestRefresh) (P := fun u => present u c = true) (Q := fun u => present u c = true ∧ (chanAt u c).tab.pend = true) (a := c)
    (fun u b hu => ((requestRefresh_requestMoves u b).present_eq c).trans hu) ?_
    (fun u hu => ⟨((requestRefresh_requestMoves u c).present_eq c).trans hu, requestRefresh_pend hu⟩) hl hp
  · exact h.2
  · rintro u b ⟨hu, hq⟩
    refine ⟨((requestRefresh_requestMoves u b).present_eq c).trans hu, ?_⟩
    by_cases hb : c = b
    · rw [← hb]
      exact requestRefresh_pend hu
    · rw [(requestRefresh_requestMoves u b).others c hb]
      exact hq

/-- The channels a mask names. -/
def maskChans (mask : Word) : List Nat := (List.range 24).filter (fun c => mask.getLsbD c)

theorem mem_maskChans {mask : Word} {c : Nat} : c ∈ maskChans mask ↔ c < 24 ∧ mask.getLsbD c = true := by
  unfold maskChans
  rw [List.mem_filter, List.mem_range]

theorem chtabRefresh_follows {s : State} {who : Requester} {mask : Word} (hwho : reachesAll who = true) :
    ∃ t, exec (.chtabRefresh who mask) s = .next t ∧
      t = { s with chans := t.chans, rings := t.rings, hif := t.hif, evt := t.evt, sent := t.sent } ∧ SameCounters s t ∧
      (∀ c, c < 24 → mask.getLsbD c = true → present s c = true → (chanAt t c).tab.pend = true ∧ (chanAt t c).tab.state = (chanAt s c).tab.state ∧
        (s.chtabEn = false → (chanAt t c).tab.phase = (chanAt s c).tab.phase)) ∧
      (∀ c, (mask.getLsbD c = false ∨ present s c = false) → chanAt t c = chanAt s c) := by
  obtain ⟨hf, hs, hw, hk⟩ := requestAll_requestsMove s (maskChans mask)
  refine ⟨requestAll s (maskChans mask), congrArg Host.Outcome.next (if_pos hwho), hf, hk, fun c hc hm hp =>
    ⟨requestAll_pend (mem_maskChans.mpr ⟨hc, hm⟩) hp, hs c, fun e => hw e c⟩, fun c h => requestAll_untouched _ s ?_⟩
  rcases h with h | h
  · refine .inl (fun e => ?_)
    obtain ⟨-, hm⟩ := mem_maskChans.mp e
    exact absurd (h.symm.trans hm) nofun
  · exact .inr h

/-! ### CH_REFRESH -/

theorem chRefreshOp_refused {s : State} {r : RingNo} {seq : Word} {w : Work} {st : Status} (hw : cmdWork s r.val seq 0x0111 = some w)
    (hst : chanStatus s r.val w.d = some st) : chRefreshOp s r seq = returnWork s r.val seq st := by
  unfold chRefreshOp
  rw [hw]
  dsimp only
  rw [hst]

theorem chRefreshOp_busy {s : State} {r : RingNo} {seq : Word} {w : Work} (hw : cmdWork s r.val seq 0x0111 = some w)
    (hst : chanStatus s r.val w.d = none) (hen : s.chtabEn = false) : chRefreshOp s r seq = returnWork s r.val seq .retBusy := by
  unfold chRefreshOp
  rw [hw]
  dsimp only
  rw [hst]
  dsimp only
  rw [hen]
  rfl

/-- The command's wait for its channel's read. -/
def refreshQueued (s : State) (c : Nat) (r : RingNo) (seq : Word) : State :=
  setTab s c (fun t => { t with cmds := t.cmds ++ [{ ring := r, seq := seq, served := false }] })

theorem chRefreshOp_waits {s : State} {r : RingNo} {seq : Word} {w : Work} (hw : cmdWork s r.val seq 0x0111 = some w)
    (hst : chanStatus s r.val w.d = none) (hen : s.chtabEn = true) :
    chRefreshOp s r seq = if (chanAt s (cmdChan r.val w.d)).tab.cmds.any (fun x => x.ring == r && x.seq == seq) then s
      else requestRefresh (refreshQueued s (cmdChan r.val w.d) r seq) (cmdChan r.val w.d) := by
  unfold chRefreshOp
  rw [hw]
  dsimp only
  rw [hst]
  dsimp only
  rw [hen]
  rfl

theorem chanStatus_past {s : State} {r : Nat} {d : Desc} (h : 24 ≤ cmdChan r d) : chanStatus s r d = some .retParam := if_pos h

theorem chanStatus_absent {s : State} {r : Nat} {d : Desc} (h : cmdChan r d < 24) (hp : present s (cmdChan r d) = false) :
    chanStatus s r d = some .retAbsent := by
  unfold chanStatus
  rw [if_neg (by omega), hp]
  rfl

theorem chanStatus_present {s : State} {r : Nat} {d : Desc} (hp : present s (cmdChan r d) = true) : chanStatus s r d = none := by
  have hc := lt_of_present hp
  unfold chanStatus
  rw [if_neg (by omega), if_pos hp]

theorem refreshQueued_moves (s : State) (c : Nat) (r : RingNo) (seq : Word) : OnlyChan s (refreshQueued s c r seq) c ∧
    (refreshQueued s c r seq).journal = s.journal := ⟨fun x hx => chanAt_setChan_ne s c x _ hx, rfl⟩

/-- While a read of the entry is under way, a request waits without another. -/
theorem requestRefresh_queued {s : State} {c : Nat} {r : RingNo} {seq : Word} (hp : present s c = true) (hph : (chanAt s c).tab.phase = .waitRetry) :
    requestRefresh (refreshQueued s c r seq) c = refreshMarked (refreshQueued s c r seq) c := by
  have hc := lt_of_present hp
  have hp' : present (refreshQueued s c r seq) c = true := hp
  have hchan : chanAt (refreshQueued s c r seq) c = { chanAt s c with tab := { (chanAt s c).tab with
      cmds := (chanAt s c).tab.cmds ++ [{ ring := r, seq := seq, served := false }] } } := chanAt_setChan_self s c _ hc
  rw [requestRefresh_present hp']
  unfold readBegun readIdle
  rw [hchan, hph]
  rfl

theorem chRefresh_follows {s : State} {r : RingNo} {seq : Word} {w : Work} (hw : cmdWork s r.val seq 0x0111 = some w) :
    ∃ t, exec (.chRefresh r seq) s = .next t ∧ OnlyChan s t (cmdChan r.val w.d) ∧ t.journal = s.journal ∧
      (24 ≤ cmdChan r.val w.d → returnedWith t r.val seq = some (Outcome.of .retParam 0 0)) ∧
      (cmdChan r.val w.d < 24 → present s (cmdChan r.val w.d) = false → returnedWith t r.val seq = some (Outcome.of .retAbsent 0 0)) ∧
      (present s (cmdChan r.val w.d) = true → s.chtabEn = false → returnedWith t r.val seq = some (Outcome.of .retBusy 0 0) ∧ t.chans = s.chans) ∧
      (present s (cmdChan r.val w.d) = true → s.chtabEn = true → (chanAt s (cmdChan r.val w.d)).tab.phase = .waitRetry →
        (chanAt s (cmdChan r.val w.d)).tab.cmds = [] →
        (chanAt t (cmdChan r.val w.d)).tab.pend = true ∧
        (chanAt t (cmdChan r.val w.d)).tab.cmds = [{ ring := r, seq := seq, served := false }] ∧ t.rings = s.rings) := by
  obtain ⟨hopen, -⟩ := cmdWork_eq_some hw
  have returned : ∀ st, OnlyChan s (returnWork s r.val seq st) (cmdChan r.val w.d) ∧ (returnWork s r.val seq st).journal = s.journal :=
    fun st => ⟨fun x _ => chanAt_returnWork s r.val seq st x, returnWork_journal s r.val seq st⟩
  refine ⟨chRefreshOp s r seq, rfl, ?_⟩
  by_cases hpast : 24 ≤ cmdChan r.val w.d
  · have hno : present s (cmdChan r.val w.d) ≠ true := fun hp => absurd (lt_of_present hp) (by omega)
    rw [chRefreshOp_refused hw (chanStatus_past hpast)]
    exact ⟨(returned _).1, (returned _).2, fun _ => returnedWith_of_workOpen hopen _, fun h => absurd hpast (by omega), fun h => absurd h hno,
      fun h => absurd h hno⟩
  · cases hp : present s (cmdChan r.val w.d) with
    | false =>
      rw [chRefreshOp_refused hw (chanStatus_absent (by omega) hp)]
      exact ⟨(returned _).1, (returned _).2, fun h => absurd h hpast, fun _ _ => returnedWith_of_workOpen hopen _, nofun, nofun⟩
    | true =>
      cases hen : s.chtabEn with
      | false =>
        rw [chRefreshOp_busy hw (chanStatus_present hp) hen]
        exact ⟨(returned _).1, (returned _).2, fun h => absurd h hpast, fun _ => nofun,
          fun _ _ => ⟨returnedWith_of_workOpen hopen _, returnWork_chans s r.val seq .retBusy⟩, fun _ => nofun⟩
      | true =>
        have hc := lt_of_present hp
        obtain ⟨hq1, hq2⟩ := refreshQueued_moves s (cmdChan r.val w.d) r seq
        have hm := requestRefresh_requestMoves (refreshQueued s (cmdChan r.val w.d) r seq) (cmdChan r.val w.d)
        have hj : (requestRefresh (refreshQueued s (cmdChan r.val w.d) r seq) (cmdChan r.val w.d)).journal = s.journal := by
          rw [hm.frame]
          exact hq2
        rw [chRefreshOp_waits hw (chanStatus_present hp) hen]
        refine ⟨?_, ?_, fun h => absurd h hpast, fun _ => nofun, fun _ => nofun, fun _ _ hph hnil => ?_⟩
        · split
          · exact fun _ _ => rfl
          · exact fun x hx => (hm.others x hx).trans (hq1 x hx)
        · split
          · rfl
          · exact hj
        · rw [hnil, List.any_nil, if_neg Bool.false_ne_true, requestRefresh_queued hp hph, refreshMarked_chan _ hc]
          refine ⟨rfl, ?_, rfl⟩
          have hchan : chanAt (refreshQueued s (cmdChan r.val w.d) r seq) (cmdChan r.val w.d) = { chanAt s (cmdChan r.val w.d) with
              tab := { (chanAt s (cmdChan r.val w.d)).tab with cmds := (chanAt s (cmdChan r.val w.d)).tab.cmds ++ [{ ring := r, seq := seq, served := false }] } } :=
            chanAt_setChan_self s _ _ hc
          rw [hchan, hnil]
          rfl

/-! ### The table's enable -/

/-- What the change of ENABLE leaves: the ledger, the table's base, the part, and its own new value. -/
structure EnableKept (s t : State) : Prop where
  kept : t.ledger = s.ledger ∧ t.chtabBase = s.chtabBase ∧ t.chtabEn = s.chtabEn ∧ t.part = s.part
  counters : SameCounters s t

theorem EnableKept.refl (s : State) : EnableKept s s := ⟨⟨rfl, rfl, rfl, rfl⟩, .refl s⟩

theorem EnableKept.trans {s t u : State} (h : EnableKept s t) (h' : EnableKept t u) : EnableKept s u := by
  obtain ⟨⟨h1, h2, h3, h4⟩, hk⟩ := h
  obtain ⟨⟨g1, g2, g3, g4⟩, hk'⟩ := h'
  exact ⟨⟨g1.trans h1, g2.trans h2, g3.trans h3, g4.trans h4⟩, hk.trans hk'⟩

theorem ChanMoves.enableKept {c : Nat} {s t : State} (h : ChanMoves c s t) : EnableKept s t := by
  refine ⟨?_, h.counters⟩
  rw [h.frame]
  exact ⟨rfl, rfl, rfl, rfl⟩

theorem RequestsMove.enableKept {s t : State} (h : RequestsMove s t) : EnableKept s t := by
  refine ⟨?_, h.counters⟩
  rw [h.frame]
  exact ⟨rfl, rfl, rfl, rfl⟩

theorem ReadMoves.enableKept {c : Nat} {s t : State} (h : ReadMoves c s t) : EnableKept s t := by
  refine ⟨?_, h.counters⟩
  rw [h.frame]
  exact ⟨rfl, rfl, rfl, rfl⟩

theorem EnableKept.present_eq {s t : State} (h : EnableKept s t) (x : Nat) : present t x = present s x := by
  obtain ⟨⟨-, -, -, hp⟩, -⟩ := h
  unfold present
  rw [hp]

theorem applyTargets_enableKept (s : State) : EnableKept s (applyTargets s) :=
  foldl_inv .refl (fun _ _ _ h h' => h.trans h') (fun u c => (applyTarget_chanMoves u c).enableKept) (List.range 24) s

/-- Following the targets keeps every request. -/
theorem applyTargets_pend (s : State) (x : Nat) : (chanAt (applyTargets s) x).tab.pend = (chanAt s x).tab.pend := by
  refine foldl_inv (f := applyTarget) (R := fun u v => (chanAt v x).tab.pend = (chanAt u x).tab.pend) (fun _ => rfl)
    (fun _ _ _ h h' => h'.trans h) (fun u c => ?_) (List.range 24) s
  by_cases hx : x = c
  · obtain ⟨st, on, h⟩ := tabAt_applyTarget u c
    rw [hx]
    unfold tabAt at h
    rw [h]
  · rw [(applyTarget_chanMoves u c).others x hx]

theorem effTarget_disabled {s : State} (h : s.chtabEn = false) (c : Nat) : effTarget s c = .off := by
  unfold effTarget
  rw [h]
  rfl

/-- A channel the part has, whose disabled table puts it into OFF. -/
def LeavesForOff (c : Nat) (s : State) : Prop :=
  present s c = true ∧ s.chtabEn = false ∧ (tabAt s c).state ≠ .absent ∧ ((tabAt s c).state ≠ .halted ∨ (tabAt s c).haltCause = 1)

theorem applyTarget_leavesForOff {s : State} {c : Nat} (hc : c < 24) (h : LeavesForOff c s) (b : Nat) : LeavesForOff c (applyTarget s b) ∧
    ((tabAt s c).state = .off ∨ b = c → (tabAt (applyTarget s b) c).state = .off) := by
  obtain ⟨hp, hen, habs, hhalt⟩ := h
  have hk := (applyTarget_chanMoves s b).enableKept
  have hen' : (applyTarget s b).chtabEn = false := hk.kept.2.2.1.trans hen
  have hp' : present (applyTarget s b) c = true := (hk.present_eq c).trans hp
  by_cases hb : b = c
  · rw [hb] at hen' hp' ⊢
    have hoff := applyTarget_off hp hc (effTarget_disabled hen c) habs hhalt
    exact ⟨⟨hp', hen', by rw [hoff]; nofun, .inl (by rw [hoff]; nofun)⟩, fun _ => hoff⟩
  · have hsame : tabAt (applyTarget s b) c = tabAt s c := tabAt_of_others (applyTarget_chanMoves s b).others (fun e => hb e.symm)
    refine ⟨⟨hp', hen', by rw [hsame]; exact habs, by rw [hsame]; exact hhalt⟩, fun h => ?_⟩
    rw [hsame]
    exact h.resolve_right hb

theorem applyTargets_off {s : State} {c : Nat} (hc : c < 24) (h : LeavesForOff c s) : (chanAt (applyTargets s) c).tab.state = .off := by
  have hall := foldl_reaches (f := applyTarget) (P := LeavesForOff c) (Q := fun u => LeavesForOff c u ∧ (tabAt u c).state = .off) (a := c)
    (fun u b hu => (applyTarget_leavesForOff hc hu b).1)
    (fun u b ⟨hu, ho⟩ => ⟨(applyTarget_leavesForOff hc hu b).1, (applyTarget_leavesForOff hc hu b).2 (.inl ho)⟩)
    (fun u hu => ⟨(applyTarget_leavesForOff hc hu c).1, (applyTarget_leavesForOff hc hu c).2 (.inr rfl)⟩) (List.mem_range.mpr hc) h
  exact hall.2

/-- The abandoned reads of a cleared ENABLE. -/
structure TablesOff (s t : State) : Prop where
  kept : EnableKept s t
  states : ∀ x, (tabAt t x).state = (tabAt s x).state ∧ (tabAt t x).haltCause = (tabAt s x).haltCause

theorem TablesOff.trans {s t u : State} (h : TablesOff s t) (h' : TablesOff t u) : TablesOff s u :=
  ⟨h.kept.trans h'.kept, fun x => ⟨(h'.states x).1.trans (h.states x).1, (h'.states x).2.trans (h.states x).2⟩⟩

theorem tableOff_tablesOff (s : State) {c : Nat} (hc : c < 24) : TablesOff s (tableOff s c) := by
  have h : ReadMoves c s (tableOff s c) :=
    (mapTab_readMoves s hc (f := fun t => { t with phase := .idle, served := false }) (by intro t; rfl)).trans (returnRefreshes_readMoves _ hc _)
  refine ⟨h.enableKept, fun x => ?_⟩
  unfold tabAt
  by_cases hx : x = c
  · rw [hx, h.own]
    exact ⟨rfl, rfl⟩
  · rw [h.others x hx]
    exact ⟨rfl, rfl⟩

theorem foldl_tableOff (l : List Nat) (hl : ∀ c, c ∈ l → c < 24) (s : State) : TablesOff s (l.foldl tableOff s) := by
  induction l generalizing s with
  | nil => exact ⟨.refl s, fun _ => ⟨rfl, rfl⟩⟩
  | cons c l ih => exact (tableOff_tablesOff s (hl c List.mem_cons_self)).trans (ih (fun x hx => hl x (List.mem_cons_of_mem _ hx)) _)

theorem chtabEnableOp_same (s : State) : chtabEnableOp s s.chtabEn = s := by
  unfold chtabEnableOp
  rw [if_pos (beq_self_eq_true _)]

theorem chtabEnableOp_on {s : State} (h : s.chtabEn = false) :
    chtabEnableOp s true = wakeRaised s (applyTargets (requestAll { s with chtabEn := true } (List.range 24))) := by
  unfold chtabEnableOp
  rw [if_neg (by rw [h]; exact Bool.false_ne_true), if_pos rfl]

theorem chtabEnableOp_off {s : State} (h : s.chtabEn = true) :
    chtabEnableOp s false = applyTargets ((List.range 24).foldl tableOff { s with chtabEn := false }) := by
  unfold chtabEnableOp
  rw [if_neg (by rw [h]; exact Bool.false_ne_true), if_neg Bool.false_ne_true]

/-- The table enabled requests every channel of the part. -/
theorem chtabEnableOp_enables {s : State} (h : s.chtabEn = false) : EnableKept { s with chtabEn := true } (chtabEnableOp s true) ∧
    ∀ c, c < 24 → present s c = true → (chanAt (chtabEnableOp s true) c).tab.pend = true := by
  have hreq := (requestAll_requestsMove { s with chtabEn := true } (List.range 24)).enableKept
  have hpend : ∀ c, c < 24 → present s c = true → (chanAt (requestAll { s with chtabEn := true } (List.range 24)) c).tab.pend = true :=
    fun c hc hp => requestAll_pend (s := { s with chtabEn := true }) (List.mem_range.mpr hc) hp
  rw [chtabEnableOp_on h]
  generalize requestAll { s with chtabEn := true } (List.range 24) = u at hreq hpend ⊢
  have hfollow := applyTargets_enableKept u
  have hkeep := applyTargets_pend u
  generalize applyTargets u = v at hfollow hkeep ⊢
  have hwake := wakeRaised_chans s v
  refine ⟨(hreq.trans hfollow).trans (wakeRaised_chanMoves 0 s v).enableKept, fun c hc hp => ?_⟩
  rw [chanAt_of_chans hwake, hkeep]
  exact hpend c hc hp

/-- The table disabled puts the channels into OFF. -/
theorem chtabEnableOp_disables {s : State} (h : s.chtabEn = true) : EnableKept { s with chtabEn := false } (chtabEnableOp s false) ∧
    ∀ c, c < 24 → present s c = true → (chanAt s c).tab.state ≠ .absent → ((chanAt s c).tab.state ≠ .halted ∨ (chanAt s c).tab.haltCause = 1) →
      (chanAt (chtabEnableOp s false) c).tab.state = .off := by
  obtain ⟨hk, hst⟩ := foldl_tableOff (List.range 24) (fun _ hx => List.mem_range.mp hx) { s with chtabEn := false }
  rw [chtabEnableOp_off h]
  generalize (List.range 24).foldl tableOff { s with chtabEn := false } = u at hk hst ⊢
  refine ⟨hk.trans (applyTargets_enableKept u), fun c hc hp habs hhalt => applyTargets_off hc ⟨(hk.present_eq c).trans hp, ?_, ?_, ?_⟩⟩
  · obtain ⟨-, -, hen, -⟩ := hk.kept
    exact hen
  · rw [(hst c).1]
    exact habs
  · rw [(hst c).1, (hst c).2]
    exact hhalt

theorem chtabEnableChange_follows {s : State} {who : Requester} {on : Bool} (hwho : reachesAll who = true) :
    ∃ t, exec (.chtabEnableChange who on) s = .next t ∧ t.chtabEn = on ∧ SameCounters s t ∧ t.ledger = s.ledger ∧ t.chtabBase = s.chtabBase ∧
      (on = s.chtabEn → t = s) ∧
      (on = true → s.chtabEn = false → ∀ c, c < 24 → present s c = true → (chanAt t c).tab.pend = true) ∧
      (on = false → s.chtabEn = true → ∀ c, c < 24 → present s c = true → (chanAt s c).tab.state ≠ .absent →
        ((chanAt s c).tab.state ≠ .halted ∨ (chanAt s c).tab.haltCause = 1) → (chanAt t c).tab.state = .off) := by
  refine ⟨chtabEnableOp s on, congrArg Host.Outcome.next (if_pos hwho), ?_⟩
  by_cases hsame : on = s.chtabEn
  · rw [hsame, chtabEnableOp_same]
    exact ⟨rfl, .refl s, rfl, rfl, fun _ => rfl, fun h h' => absurd (h.symm.trans h') nofun, fun h h' => absurd (h.symm.trans h') nofun⟩
  · cases on with
    | true =>
      have hen : s.chtabEn = false := by simpa using hsame
      obtain ⟨⟨⟨k1, k2, k3, -⟩, kc⟩, hpend⟩ := chtabEnableOp_enables hen
      exact ⟨k3, kc, k1, k2, fun h => absurd h hsame, fun _ _ => hpend, nofun⟩
    | false =>
      have hen : s.chtabEn = true := by simpa using hsame
      obtain ⟨⟨⟨k1, k2, k3, -⟩, kc⟩, hoff⟩ := chtabEnableOp_disables hen
      exact ⟨k3, kc, k1, k2, fun h => absurd h hsame, nofun, fun _ _ => hoff⟩

/-! ### The third phase -/

/-- A discarded read's own state: the entry stays as it was, and the read begins again later (R89). -/
def discarded (s : State) (c : Nat) : State :=
  setTab s c (fun t => { t with
    discards := t.discards + 1, readErr := false, phase := .waitRetry
    torn := t.torn || (!(chanAt s c).tab.torn && decide (1000 ≤ (chanAt s c).tab.discards + 1)) })

theorem discardRead_readMoves (s : State) {c : Nat} (hc : c < 24) : ReadMoves c (discarded s c) (discardRead s c) ∧
    (chanAt (discardRead s c) c).tab.phase = .waitRetry := by
  have hmark : (chanAt (discarded s c) c).tab.phase = .waitRetry := congrArg (fun k : Chan => k.tab.phase) (chanAt_setChan_self s c _ hc)
  have told : ∀ b : Bool, ReadMoves c (discarded s c) (if b then raise (discarded s c) Src.chtabFault c 0 else discarded s c) ∧
      (chanAt (if b then raise (discarded s c) Src.chtabFault c 0 else discarded s c) c).tab.phase = .waitRetry := by
    intro b
    cases b with
    | true => exact ⟨raise_readMoves c _ _ _ _, by rw [if_pos rfl, chanAt_raise]; exact hmark⟩
    | false => exact ⟨.refl c _, hmark⟩
  have hret : ∀ u : State, ReadMoves c u (returnRefreshes u c .retBusy) ∧ (chanAt (returnRefreshes u c .retBusy) c).tab.phase = (chanAt u c).tab.phase :=
    fun u => ⟨returnRefreshes_readMoves u hc _, by rw [returnRefreshes_chan u hc]⟩
  obtain ⟨t1, t2⟩ := told (!(chanAt s c).tab.torn && decide (1000 ≤ (chanAt s c).tab.discards + 1))
  have hop : discardRead s c =
      if ((chanAt s c).tab.torn || (!(chanAt s c).tab.torn && decide (1000 ≤ (chanAt s c).tab.discards + 1))) = true then
        returnRefreshes (if (!(chanAt s c).tab.torn && decide (1000 ≤ (chanAt s c).tab.discards + 1)) = true then
          raise (discarded s c) Src.chtabFault c 0 else discarded s c) c .retBusy
      else (if (!(chanAt s c).tab.torn && decide (1000 ≤ (chanAt s c).tab.discards + 1)) = true then
          raise (discarded s c) Src.chtabFault c 0 else discarded s c) := rfl
  rw [hop]
  generalize (if (!(chanAt s c).tab.torn && decide (1000 ≤ (chanAt s c).tab.discards + 1)) = true then
          raise (discarded s c) Src.chtabFault c 0 else discarded s c) = u at t1 t2 ⊢
  split
  · exact ⟨t1.trans (hret u).1, (hret u).2.trans t2⟩
  · exact ⟨t1, t2⟩

theorem discardRead_follows (s : State) {c : Nat} (hc : c < 24) : OnlyChan s (discardRead s c) c ∧ (discardRead s c).ledger = s.ledger ∧
    (chanAt (discardRead s c) c).tab.phase = .waitRetry ∧ (chanAt (discardRead s c) c).tab.discards = (chanAt s c).tab.discards + 1 ∧
    (chanAt (discardRead s c) c).tab.gen = (chanAt s c).tab.gen ∧ (chanAt (discardRead s c) c).tab.target = (chanAt s c).tab.target ∧
    (chanAt (discardRead s c) c).tab.state = (chanAt s c).tab.state ∧ (chanAt (discardRead s c) c).tab.mac = (chanAt s c).tab.mac ∧
    ((chanAt s c).tab.torn = true ∨ 1000 ≤ (chanAt s c).tab.discards + 1 → (chanAt (discardRead s c) c).tab.torn = true) := by
  obtain ⟨⟨hf, ho, hw, -⟩, hph⟩ := discardRead_readMoves s hc
  have hown := chanAt_setChan_self s c (fun k => { k with tab := { k.tab with
    discards := k.tab.discards + 1, readErr := false, phase := .waitRetry
    torn := k.tab.torn || (!(chanAt s c).tab.torn && decide (1000 ≤ (chanAt s c).tab.discards + 1)) } }) hc
  have hown : chanAt (discarded s c) c = { chanAt s c with tab := { (chanAt s c).tab with
    discards := (chanAt s c).tab.discards + 1, readErr := false, phase := .waitRetry
    torn := (chanAt s c).tab.torn || (!(chanAt s c).tab.torn && decide (1000 ≤ (chanAt s c).tab.discards + 1)) } } := hown
  have hothers : OnlyChan s (discarded s c) c := fun x hx => chanAt_setChan_ne s c x _ hx
  have hl : (discarded s c).ledger = s.ledger := rfl
  generalize discarded s c = u at hf ho hw hown hothers hl
  refine ⟨fun x hx => (ho x hx).trans (hothers x hx), by rw [hf]; exact hl, hph, ?_⟩
  rw [hw, hown]
  refine ⟨rfl, rfl, rfl, rfl, rfl, fun h => ?_⟩
  rcases h with h | h
  · dsimp only
    rw [h, Bool.true_or]
  · dsimp only
    rw [decide_eq_true h, Bool.and_true, Bool.or_not_self]

/-! ### An entry taking effect -/

/-- An entry of channel `c` taking effect leaves the ledger, the generation in force, and of every other channel all but its MACsec state and
its feed. -/
structure EntryMoves (c : Nat) (s t : State) : Prop where
  ledger : t.ledger = s.ledger
  others : ∀ x, x ≠ c → chanAt t x = { chanAt s x with msec := (chanAt t x).msec, feed := (chanAt t x).feed }
  gen : (chanAt t c).tab.gen = (chanAt s c).tab.gen

theorem EntryMoves.refl (c : Nat) (s : State) : EntryMoves c s s := ⟨rfl, fun _ _ => rfl, rfl⟩

theorem EntryMoves.trans {c : Nat} {s t u : State} (h : EntryMoves c s t) (h' : EntryMoves c t u) : EntryMoves c s u := by
  obtain ⟨hl, ho, hg⟩ := h
  obtain ⟨hl', ho', hg'⟩ := h'
  refine ⟨hl'.trans hl, fun x hx => ?_, hg'.trans hg⟩
  have e' := ho' x hx
  rw [ho x hx] at e'
  rw [e']

theorem EntryMoves.of_chans {c : Nat} {s t : State} (hl : t.ledger = s.ledger) (hc : t.chans = s.chans) : EntryMoves c s t := by
  have h := chanAt_of_chans hc
  exact ⟨hl, fun x _ => by rw [h], by rw [h]⟩

theorem EntryMoves.ite {c : Nat} {p : Prop} [Decidable p] {s t u : State} (h : EntryMoves c s t) (h' : EntryMoves c s u) :
    EntryMoves c s (if p then t else u) := by
  split
  · exact h
  · exact h'

theorem foldl_entryMoves {α : Type} {c : Nat} {f : State → α → State} (h : ∀ s a, EntryMoves c s (f s a)) (l : List α) (s : State) :
    EntryMoves c s (l.foldl f s) := foldl_inv (.refl c) (fun _ _ _ h h' => h.trans h') h l s

theorem EvtOnly.entryMoves {s t : State} (h : EvtOnly s t) (c : Nat) : EntryMoves c s t := .of_chans h.ledger h.chans

/-- A change of the channel itself that leaves its generation. -/
theorem setChan_entryMoves (s : State) (c : Nat) {f : Chan → Chan} (h : ∀ k, (f k).tab.gen = k.tab.gen) : EntryMoves c s (setChan s c f) := by
  refine ⟨rfl, fun x hx => by rw [chanAt_setChan_ne s c x f hx], ?_⟩
  rw [chanAt_setChan]
  split
  · exact h _
  · rfl

/-- A change of a channel's MACsec state. -/
theorem setMsec_entryMoves (s : State) (c x : Nat) {f : Chan → Chan} (hf : ∀ k, f k = { k with msec := (f k).msec }) :
    EntryMoves c s (setChan s x f) := by
  have h : ∀ y, chanAt (setChan s x f) y = { chanAt s y with msec := (chanAt (setChan s x f) y).msec } := by
    intro y
    rw [chanAt_setChan]
    split
    next e =>
      rw [e.1]
      exact hf _
    next => rfl
  refine ⟨rfl, fun y _ => ?_, ?_⟩
  · rw [h y]
  · rw [h c]

theorem raise_entryMoves (c : Nat) (s : State) (src scope : Nat) (i : Word) : EntryMoves c s (raise s src scope i) :=
  (raise_evtOnly s src scope i).entryMoves c

theorem pnMovedFor_entryMoves (c : Nat) (h : Half) (old new : Nat) (s : State) (x : Nat) : EntryMoves c s (pnMovedFor h old new s x) := by
  unfold pnMovedFor
  split
  · exact .refl c s
  · split
    · exact .refl c s
    · dsimp only
      split
      · exact ((setMsec_entryMoves s c x (by intro k; rfl)).trans (setMsec_entryMoves _ c x (by intro k; rfl))).trans (raise_entryMoves c _ _ _ _)
      · exact setMsec_entryMoves s c x (by intro k; rfl)

theorem movePn_entryMoves (c : Nat) (s : State) (h : Half) (new : Nat) : EntryMoves c s (movePn s h new) := by
  have hslot : ∀ (u : State) (i : Nat) (f : Slot → Slot), EntryMoves c u (setSlot u i f) := fun u i f => .of_chans rfl rfl
  unfold movePn
  exact (hslot s _ _).trans (foldl_entryMoves (pnMovedFor_entryMoves c h _ new) _ _)

theorem pnReached_entryMoves (s : State) (c : Nat) (old : Option MacSect) (m : MacSect) : EntryMoves c s (pnReached s c old m) := by
  unfold pnReached
  exact .ite ((setMsec_entryMoves s c c (by intro k; rfl)).trans (raise_entryMoves c _ _ _ _)) (.refl c s)

theorem raisePn_entryMoves (s : State) (c : Nat) (old : Option MacSect) (m : MacSect) : EntryMoves c s (raisePn s c old m) := by
  unfold raisePn
  exact (EntryMoves.ite (movePn_entryMoves c s _ _) (.refl c s)).trans (pnReached_entryMoves _ c old m)

theorem refreshKeyUse_entryMoves (s : State) (c : Nat) : EntryMoves c s (refreshKeyUse s c) := by
  unfold refreshKeyUse
  exact .ite (.refl c s) (.ite ((setMsec_entryMoves s c c (by intro k; rfl)).trans (raise_entryMoves c _ _ _ _))
    (setMsec_entryMoves s c c (by intro k; rfl)))

theorem sendPause_entryMoves (s : State) (c : Nat) (m : MacSect) (ens q : Nat) : EntryMoves c s (sendPause s c m ens q) := by
  unfold sendPause
  dsimp only
  exact ((setChan_entryMoves s c (by intro k; rfl)).trans (setChan_entryMoves _ c (by intro k; rfl))).trans ((raiseC_evtOnly _ _ _ _).entryMoves c)

theorem pauseCheck_entryMoves (s : State) (c : Nat) : EntryMoves c s (pauseCheck s c) := by
  unfold pauseCheck
  split
  · exact .refl c s
  · refine .ite (.refl c s) ?_
    exact ((EntryMoves.ite (.refl c s) (sendPause_entryMoves s c _ _ _)).trans (.ite (.refl c _) (sendPause_entryMoves _ c _ _ _))).trans
      (setChan_entryMoves _ c (by intro k; rfl))

theorem returnWork_entryMoves (c : Nat) (s : State) (r : Nat) (q : Word) (st : Status) : EntryMoves c s (returnWork s r q st) :=
  .of_chans (returnWork_ledger s r q st) (returnWork_chans s r q st)

theorem setQs_entryMoves (s : State) (c : Nat) (f : Queues → Queues) : EntryMoves c s (setQs s c f) := setChan_entryMoves s c (fun _ => rfl)

theorem setMac_entryMoves (s : State) (c : Nat) (f : MacCnt → MacCnt) : EntryMoves c s (setMac s c f) := setChan_entryMoves s c (fun _ => rfl)

theorem sweepNoCore_entryMoves (s : State) (c : Nat) : EntryMoves c s (sweepNoCore s c) := by
  have returned (u : State) := foldl_entryMoves (c := c)
    (f := fun t k => (ringAt t (chRing c k)).work.foldl (fun v (w : Work) => returnWork v (chRing c k) w.seq .retPart) t)
    (fun t k => foldl_entryMoves (fun v (w : Work) => returnWork_entryMoves c v _ w.seq _) _ t) [0, 1] u
  unfold sweepNoCore
  exact .ite (.refl c s) (((((setQs_entryMoves s c _).trans (returned _)).trans (setQs_entryMoves _ c _)).trans (setMac_entryMoves _ c _)).trans
    ((raiseC_evtOnly _ _ _ _).entryMoves c))

theorem applyMac_entryMoves (s : State) (c : Nat) (m : MacSect) : EntryMoves c s (applyMac s c m) := by
  unfold applyMac
  exact ((((setChan_entryMoves s c (by intro k; rfl)).trans (raisePn_entryMoves _ c _ m)).trans (refreshKeyUse_entryMoves _ c)).trans
    (pauseCheck_entryMoves _ c)).trans (sweepNoCore_entryMoves _ c)

/-- The feeds' power moves the feeds of the channels alone. -/
theorem feedPower_chan (s : State) (x : Nat) : chanAt (feedPower s) x = { chanAt s x with feed := (chanAt (feedPower s) x).feed } := by
  by_cases hx : x < 24
  · unfold feedPower
    split
    · split
      · rfl
      · rw [feedOn_chan s hx]
        split <;> rfl
    · split
      · rw [feedOff_chan s hx]
      · rfl
  · rw [chanAt_past _ hx, chanAt_past s hx]

theorem feedPower_entryMoves (c : Nat) (s : State) : EntryMoves c s (feedPower s) := by
  refine ⟨?_, fun x _ => ?_, ?_⟩
  · rw [feedPower_frame s]
  · rw [feedPower_chan s x]
  · rw [feedPower_chan s c]

theorem applyFeed_entryMoves (s : State) (c : Nat) (x : FeedSect) : EntryMoves c s (applyFeed s c x) := by
  have hb : ∀ u : State, EntryMoves c u (budgetCheck u) := by
    intro u
    unfold budgetCheck
    exact .ite (raise_entryMoves c _ _ _ _) (.refl c u)
  unfold applyFeed
  exact ((setChan_entryMoves s c (by intro k; rfl)).trans (feedPower_entryMoves c _)).trans (hb _)

/-- An entry taken has its generation in force, whatever its sections. -/
theorem applyEntry_taken (s : State) {c : Nat} (hc : c < 24) (g : Word) (b : List Byte) : (applyEntry s c g b).ledger = s.ledger ∧
    (∀ x, x ≠ c → chanAt (applyEntry s c g b) x =
      { chanAt s x with msec := (chanAt (applyEntry s c g b) x).msec, feed := (chanAt (applyEntry s c g b) x).feed }) ∧
    (chanAt (applyEntry s c g b) c).tab.gen = g := by
  have set : ∀ f : ChTab → ChTab, (∀ t, (f t).gen = g) → (setTab s c f).ledger = s.ledger ∧ OnlyChan s (setTab s c f) c ∧
      (chanAt (setTab s c f) c).tab.gen = g := fun f hf =>
    ⟨rfl, fun x hx => chanAt_setChan_ne s c x _ hx, (congrArg (fun k : Chan => k.tab.gen) (chanAt_setChan_self s c _ hc)).trans (hf _)⟩
  have sections : ∀ u : State, EntryMoves c u
      (if feedOk b (parseFeed b) then applyFeed (if macOk b (parseMac b) then applyMac u c (parseMac b) else u) c (parseFeed b)
        else (if macOk b (parseMac b) then applyMac u c (parseMac b) else u)) := by
    intro u
    have hmac : EntryMoves c u (if macOk b (parseMac b) then applyMac u c (parseMac b) else u) := .ite (applyMac_entryMoves u c _) (.refl c u)
    exact .ite (hmac.trans (applyFeed_entryMoves _ c _)) hmac
  unfold applyEntry
  split
  · obtain ⟨h1, h2, h3⟩ := set (fun t => { t with entryBad := true, sectRej := 0, gen := g, target := .off }) (fun _ => rfl)
    exact ⟨h1, fun x hx => by rw [h2 x hx], h3⟩
  · obtain ⟨h1, h2, h3⟩ := set (fun t => { applyCached b (applyHeader b t) with gen := g }) (fun _ => rfl)
    dsimp only
    generalize setTab s c (fun t => { applyCached b (applyHeader b t) with gen := g }) = u at h1 h2 h3 ⊢
    obtain ⟨k1, k2, k3⟩ := sections u
    refine ⟨k1.trans h1, fun x hx => ?_, k3.trans h3⟩
    have e := k2 x hx
    rw [h2 x hx] at e
    exact e

/-! ### A whole read -/

/-- The entry of a whole read, taken where its generation is a new one. -/
def entryRead (s : State) (c : Nat) (g : Word) (b : List Byte) : State := if decide ((chanAt s c).tab.gen = g) then s else applyEntry s c g b

theorem entryRead_taken (s : State) {c : Nat} (hc : c < 24) (g : Word) (b : List Byte) : (entryRead s c g b).ledger = s.ledger ∧
    (∀ x, x ≠ c → chanAt (entryRead s c g b) x =
      { chanAt s x with msec := (chanAt (entryRead s c g b) x).msec, feed := (chanAt (entryRead s c g b) x).feed }) ∧
    (chanAt (entryRead s c g b) c).tab.gen = g := by
  unfold entryRead
  by_cases h : (chanAt s c).tab.gen = g
  · rw [decide_eq_true h, if_pos rfl]
    exact ⟨rfl, fun _ _ => rfl, h⟩
  · rw [decide_eq_false h, if_neg Bool.false_ne_true]
    exact applyEntry_taken s hc g b

theorem serveOne_entryMoves (c : Nat) (g : Word) (same : Bool) (s : State) (x : RefreshCmd) : EntryMoves c s (serveOne g same s x) := by
  unfold serveOne
  split
  · exact .of_chans (emitWork_ledger _ _ _ _) (emitWork_chans _ _ _ _)
  · exact .refl c s

/-- The waiting commands of a read served. -/
def commandsServed (s : State) (c : Nat) (g : Word) (b : List Byte) : State :=
  ((chanAt s c).tab.cmds.filter (fun x => x.served)).foldl (serveOne g (decide ((chanAt s c).tab.gen = g))) (entryRead s c g b)

/-- The commands that wait on after a whole read. -/
def commandsLeft (s : State) (c : Nat) (g : Word) (b : List Byte) : List RefreshCmd :=
  (stillWaiting (commandsServed s c g b) (chanAt s c).tab.cmds).map (fun x => { x with served := false })

/-- A whole read ended. -/
def readEnded (s : State) (c : Nat) (g : Word) (b : List Byte) : State :=
  setTab (commandsServed s c g b) c (fun t => { t with
    torn := false
    readErr := false
    discards := 0
    readSince := true
    phase := .idle
    served := false
    cmds := commandsLeft s c g b
    pend := !(chanAt s c).tab.served || decide (commandsLeft s c g b ≠ []) })

theorem wholeRead_eq (s : State) (c : Nat) (g : Word) (b : List Byte) :
    wholeRead s c g b = beginRead (wakeRaised s (applyTarget (readEnded s c g b) c)) c := rfl

/-- The channel follows its target, and may begin another read: the whole read's own marks stay. -/
theorem readEnded_follows (s u : State) {c : Nat} (hc : c < 24) : (beginRead (wakeRaised s (applyTarget u c)) c).ledger = u.ledger ∧
    OnlyChan u (beginRead (wakeRaised s (applyTarget u c)) c) c ∧
    (chanAt (beginRead (wakeRaised s (applyTarget u c)) c) c).tab.gen = (chanAt u c).tab.gen ∧
    (chanAt (beginRead (wakeRaised s (applyTarget u c)) c) c).tab.torn = (chanAt u c).tab.torn ∧
    (chanAt (beginRead (wakeRaised s (applyTarget u c)) c) c).tab.discards = (chanAt u c).tab.discards ∧
    (chanAt (beginRead (wakeRaised s (applyTarget u c)) c) c).tab.readSince = (chanAt u c).tab.readSince := by
  have hm := (applyTarget_chanMoves u c).trans (wakeRaised_chanMoves c s _)
  obtain ⟨st, on, htab⟩ := tabAt_applyTarget u c
  have hch := chanAt_of_chans (wakeRaised_chans s (applyTarget u c)) c
  unfold tabAt at htab
  rw [← hch] at htab
  generalize wakeRaised s (applyTarget u c) = v at hm htab ⊢
  obtain ⟨hf, ho, hw, -⟩ := beginRead_readMoves v hc
  have hl : v.ledger = u.ledger := by rw [hm.frame]
  refine ⟨by rw [hf]; exact hl, fun x hx => (ho x hx).trans (hm.others x hx), ?_⟩
  rw [hw]
  dsimp only
  rw [htab]
  exact ⟨rfl, rfl, rfl, rfl⟩

theorem wholeRead_follows (s : State) {c : Nat} (hc : c < 24) (g : Word) (b : List Byte) : (wholeRead s c g b).ledger = s.ledger ∧
    (∀ x, x ≠ c → chanAt (wholeRead s c g b) x =
      { chanAt s x with msec := (chanAt (wholeRead s c g b) x).msec, feed := (chanAt (wholeRead s c g b) x).feed }) ∧
    (chanAt (wholeRead s c g b) c).tab.gen = g ∧ (chanAt (wholeRead s c g b) c).tab.torn = false ∧
    (chanAt (wholeRead s c g b) c).tab.discards = 0 ∧ (chanAt (wholeRead s c g b) c).tab.readSince = true := by
  obtain ⟨e1, e2, e3⟩ := entryRead_taken s hc g b
  have hserve : EntryMoves c (entryRead s c g b) (commandsServed s c g b) :=
    foldl_entryMoves (serveOne_entryMoves c g (decide ((chanAt s c).tab.gen = g))) _ _
  have hended : chanAt (readEnded s c g b) c = { chanAt (commandsServed s c g b) c with tab := { (chanAt (commandsServed s c g b) c).tab with
      torn := false, readErr := false, discards := 0, readSince := true, phase := .idle, served := false, cmds := commandsLeft s c g b
      pend := !(chanAt s c).tab.served || decide (commandsLeft s c g b ≠ []) } } := chanAt_setChan_self _ c _ hc
  have hothers : OnlyChan (commandsServed s c g b) (readEnded s c g b) c := fun x hx => chanAt_setChan_ne _ c x _ hx
  have hl : (readEnded s c g b).ledger = (commandsServed s c g b).ledger := rfl
  rw [wholeRead_eq]
  generalize readEnded s c g b = u at hended hothers hl ⊢
  obtain ⟨k1, k2, k3, k4, k5, k6⟩ := readEnded_follows s u hc
  refine ⟨k1.trans (hl.trans (hserve.ledger.trans e1)), fun x hx => ?_, k3.trans ?_, k4.trans ?_, k5.trans ?_, k6.trans ?_⟩
  · have h2 := hserve.others x hx
    rw [k2 x hx, hothers x hx]
    generalize chanAt (commandsServed s c g b) x = d at h2 ⊢
    rw [e2 x hx] at h2
    rw [h2]
  · rw [hended]
    exact hserve.gen.trans e3
  · rw [hended]
  · rw [hended]
  · rw [hended]

/-! ### The phases complete -/

theorem wordOfBytes (w : Word) : word (leAt (bytesLE 4 w.toNat) 0 4) = w := by
  have h : leAt (bytesLE 4 w.toNat) 0 4 = w.toNat := by
    have hf := leAt_field 4 w.toNat []
    rw [List.append_nil] at hf
    exact hf.trans (Nat.mod_eq_of_lt w.isLt)
  rw [h]
  exact BitVec.eq_of_toNat_eq (by simp [word])

theorem phaseComplete_third {s : State} {c : Nat} {gl gf : Word} {b : List Byte} (hph : (chanAt s c).tab.phase = .first gl b) :
    phaseComplete s c .ok (bytesLE 4 gf.toNat) = if gf = gl ∧ gf.toNat % 2 = 0 then wholeRead s c gf (zeros 4 ++ b) else discardRead s c := by
  unfold phaseComplete
  rw [hph]
  refine (if_neg Bool.false_ne_true).trans ((if_pos rfl).trans ((if_pos rfl).trans ?_))
  unfold phaseOk
  rw [hph]
  dsimp only
  rw [wordOfBytes]

theorem latchFault_valid (s : State) (kind ring fn addr : Nat) : (latchFault s kind ring fn addr).hif.faultValid = true := by
  unfold latchFault
  split
  next h => exact h
  next => rfl

theorem phaseComplete_failed {s : State} {c : Nat} {gl : Word} {b : List Byte} (hph : (chanAt s c).tab.phase = .first gl b) {res : XferResult}
    (hres : res ≠ .ok) (data : List Byte) : phaseComplete s c res data = readFailed (latchFault s (xferKind res) 0xFD 0 (entryAddr s c 0)) c .retDma := by
  unfold phaseComplete
  rw [hph]
  exact (if_neg Bool.false_ne_true).trans (if_neg hres)

/-- A failed phase is marked, and its read waits for its retry (R92). -/
theorem readFailed_marks (s : State) {c : Nat} (hc : c < 24) (st : Status) : (chanAt (readFailed s c st) c).tab.readErr = true ∧
    (chanAt (readFailed s c st) c).tab.phase = .waitError := by
  have hset : chanAt (mapTab s c (fun t => { t with readErr := true, phase := .waitError })) c =
      { chanAt s c with tab := { (chanAt s c).tab with readErr := true, phase := .waitError } } := chanAt_setChan_self s c _ hc
  unfold readFailed
  dsimp only
  rw [returnRefreshes_chan _ hc, chanAt_raise, hset]
  exact ⟨rfl, rfl⟩

theorem readFailed_faultValid {s : State} {c : Nat} (hf : s.hif.faultValid = true) (st : Status) : (readFailed s c st).hif.faultValid = true := by
  have hr : (raise (mapTab s c (fun t => { t with readErr := true, phase := .waitError })) Src.chtabFault c 0).hif.faultValid = true :=
    ((raise_evtOnly _ _ _ _).hif_faultValid).trans hf
  unfold readFailed
  dsimp only
  generalize raise (mapTab s c (fun t => { t with readErr := true, phase := .waitError })) Src.chtabFault c 0 = u at hr ⊢
  have hset : (mapTab u c (fun t => { t with cmds := [] })).hif = u.hif := rfl
  have hfold := foldl_inv (f := fun t (x : RefreshCmd) => returnWork t x.ring.val x.seq st) (R := fun a b => b.hif = a.hif) (fun _ => rfl)
    (fun _ _ _ h h' => h'.trans h) (fun t x => returnWork_hif t x.ring.val x.seq st) (chanAt u c).tab.cmds (mapTab u c (fun t => { t with cmds := [] }))
  unfold returnRefreshes
  dsimp only
  rw [hfold, hset]
  exact hr

theorem phaseCompletes_follows {s : State} {c : Ch} {gl : Word} (gf : Word) {b : List Byte} (hph : (chanAt s c.val).tab.phase = .first gl b) :
    ∃ t, exec (.chtabReadPhaseComplete c .ok (bytesLE 4 gf.toNat)) s = .next t ∧ t.ledger = s.ledger ∧
      (∀ x, x ≠ c.val → chanAt t x = { chanAt s x with msec := (chanAt t x).msec, feed := (chanAt t x).feed }) ∧
      (gf = gl → gf.toNat % 2 = 0 → (chanAt t c.val).tab.gen = gf ∧ (chanAt t c.val).tab.torn = false ∧
        (chanAt t c.val).tab.discards = 0 ∧ (chanAt t c.val).tab.readSince = true) ∧
      ((gf ≠ gl ∨ gf.toNat % 2 = 1) → OnlyChan s t c.val ∧
        (chanAt t c.val).tab.phase = .waitRetry ∧ (chanAt t c.val).tab.discards = (chanAt s c.val).tab.discards + 1 ∧
        (chanAt t c.val).tab.gen = (chanAt s c.val).tab.gen ∧ (chanAt t c.val).tab.target = (chanAt s c.val).tab.target ∧
        (chanAt t c.val).tab.state = (chanAt s c.val).tab.state ∧ (chanAt t c.val).tab.mac = (chanAt s c.val).tab.mac ∧
        ((chanAt s c.val).tab.torn = true ∨ 1000 ≤ (chanAt s c.val).tab.discards + 1 → (chanAt t c.val).tab.torn = true)) := by
  have hrun : exec (.chtabReadPhaseComplete c .ok (bytesLE 4 gf.toNat)) s = .next (phaseComplete s c.val .ok (bytesLE 4 gf.toNat)) := by
    have hlen : (bytesLE 4 gf.toNat).length = 4 := rfl
    have hexec : exec (.chtabReadPhaseComplete c .ok (bytesLE 4 gf.toNat)) s = execChtabReadPhaseComplete c .ok (bytesLE 4 gf.toNat) s := rfl
    rw [hexec]
    unfold execChtabReadPhaseComplete
    exact if_neg (fun h => h.2.1 hlen)
  refine ⟨_, hrun, ?_⟩
  rw [phaseComplete_third hph]
  by_cases hwhole : gf = gl ∧ gf.toNat % 2 = 0
  · obtain ⟨h1, h2, h3, h4, h5, h6⟩ := wholeRead_follows s c.isLt gf (zeros 4 ++ b)
    rw [if_pos hwhole]
    refine ⟨h1, h2, fun _ _ => ⟨h3, h4, h5, h6⟩, fun h => ?_⟩
    obtain ⟨he, hz⟩ := hwhole
    exact absurd h (by rw [not_or]; exact ⟨fun hne => hne he, by omega⟩)
  · obtain ⟨h1, h2, h3⟩ := discardRead_follows s c.isLt
    rw [if_neg hwhole]
    exact ⟨h2, fun x hx => by rw [h1 x hx], fun he hz => absurd ⟨he, hz⟩ hwhole, fun _ => ⟨h1, h3⟩⟩

theorem phaseFails_follows {s : State} {c : Ch} {gl : Word} {b : List Byte} (hph : (chanAt s c.val).tab.phase = .first gl b) {res : XferResult}
    (data : List Byte) (hres : res ≠ .ok) : ∃ t, exec (.chtabReadPhaseComplete c res data) s = .next t ∧ OnlyChan s t c.val ∧
        (chanAt t c.val).tab.readErr = true ∧ (chanAt t c.val).tab.phase = .waitError ∧
        (chanAt t c.val).tab.gen = (chanAt s c.val).tab.gen ∧ (chanAt t c.val).tab.discards = (chanAt s c.val).tab.discards ∧
        t.hif.faultValid = true := by
  have hrun : exec (.chtabReadPhaseComplete c res data) s = .next (phaseComplete s c.val res data) := if_neg (fun h => hres h.1)
  refine ⟨_, hrun, ?_⟩
  rw [phaseComplete_failed hph hres]
  have hlatch := latchFault_readMoves c.val s (xferKind res) 0xFD 0 (entryAddr s c.val 0)
  have hvalid := latchFault_valid s (xferKind res) 0xFD 0 (entryAddr s c.val 0)
  generalize latchFault s (xferKind res) 0xFD 0 (entryAddr s c.val 0) = u at hlatch hvalid ⊢
  obtain ⟨m1, m2⟩ := readFailed_marks u c.isLt .retDma
  obtain ⟨-, ho, hw, -⟩ := hlatch.trans (readFailed_readMoves u c.isLt .retDma)
  refine ⟨ho, m1, m2, ?_, ?_, readFailed_faultValid hvalid .retDma⟩
  · rw [hw]
  · rw [hw]

/-! ### The retries -/

theorem pieces_four {m a : Nat} (hm : 4 ≤ m) (ha : a % 4 = 0) : pieces 4 m a 4 = [(a, 4)] := by
  have h1 : min 4 (min m (4096 - a % 4096)) = 4 := by omega
  unfold pieces
  dsimp only
  rw [if_neg (by decide), h1]
  rfl

/-- A read of one aligned word is one request. -/
theorem readRequests_word (s : State) (f : Nat) {a : Nat} (ha : a % 4 = 0) : readRequests s f a 4 = [.memRead f a 4] := by
  have hm : 4 ≤ maxRead s := by
    have := Nat.two_pow_pos s.hif.mrrs.val
    unfold maxRead
    omega
  unfold readRequests
  rw [pieces_four hm ha]
  rfl

theorem entryAddr_last (s : State) (c : Nat) : entryAddr s c 0x7FC % 4 = 0 := by
  unfold entryAddr
  omega

/-- The requests waiting then are served by the read that begins. -/
def readServes (s : State) (c : Nat) : State := mapTab s c (fun t => { t with served := true, cmds := t.cmds.map (fun x => { x with served := true }) })

theorem issuePhase_open {s : State} {c off len : Nat} (h : inWindows s 0 false (entryAddr s c off) len = true) (p : ReadPhase) :
    issuePhase s c off len p = sendRead (mapTab s c (fun t => { t with phase := p })) 0 (entryAddr s c off) len := if_pos h

theorem readServes_kept (s : State) (c : Nat) : entryAddr (readServes s c) c 0x7FC = entryAddr s c 0x7FC ∧
    ∀ a n, inWindows (readServes s c) 0 false a n = inWindows s 0 false a n := by
  have h : (readServes s c).hif = s.hif := rfl
  refine ⟨rfl, fun a n => ?_⟩
  unfold inWindows pageOpen
  rw [h]

theorem beginRead_begins {s : State} {c : Nat} (hc : c < 24) (hen : s.chtabEn = true) (hpend : (chanAt s c).tab.pend = true)
    (hp : present s c = true) (hm : mayMaster s 0 = true) (hw : inWindows s 0 false (entryAddr s c 0x7FC) 4 = true) :
    beginRead s c = { s with chans := (beginRead s c).chans, sent := (beginRead s c).sent } ∧ OnlyChan s (beginRead s c) c ∧
    chanAt (beginRead s c) c = { chanAt s c with tab := { (chanAt s c).tab with
        phase := .last, served := true, cmds := (chanAt (beginRead s c) c).tab.cmds } } ∧
    (beginRead s c).sent = .memRead 0 (entryAddr s c 0x7FC) 4 :: s.sent := by
  have hop : beginRead s c = sendRead (mapTab (readServes s c) c (fun t => { t with phase := .last })) 0 (entryAddr s c 0x7FC) 4 := by
    obtain ⟨ha, hwin⟩ := readServes_kept s c
    have hissue := issuePhase_open (s := readServes s c) (c := c) (off := 0x7FC) (len := 4) (by rw [ha, hwin]; exact hw) .last
    rw [ha] at hissue
    have hcond : (s.chtabEn && (chanAt s c).tab.pend && present s c && mayMaster s 0) = true := by rw [hen, hpend, hp, hm]; rfl
    exact (if_pos hcond).trans hissue
  have hown : chanAt (mapTab (readServes s c) c (fun t => { t with phase := .last })) c = { chanAt s c with tab := { (chanAt s c).tab with
      phase := .last, served := true, cmds := (chanAt s c).tab.cmds.map (fun x => { x with served := true }) } } := by
    unfold readServes mapTab
    rw [chanAt_setChan_self _ c _ hc, chanAt_setChan_self s c _ hc]
  have hother : OnlyChan s (mapTab (readServes s c) c (fun t => { t with phase := .last })) c :=
    fun x hx => (chanAt_setChan_ne (readServes s c) c x _ hx).trans (chanAt_setChan_ne s c x _ hx)
  have hsent : (mapTab (readServes s c) c (fun t => { t with phase := .last })).sent = s.sent := rfl
  have hset : mapTab (readServes s c) c (fun t => { t with phase := .last }) =
      { s with chans := (mapTab (readServes s c) c (fun t => { t with phase := .last })).chans } := rfl
  rw [hop]
  generalize mapTab (readServes s c) c (fun t => { t with phase := .last }) = u at hown hother hsent hset ⊢
  have hsame : ∀ x, chanAt (sendRead u 0 (entryAddr s c 0x7FC) 4) x = chanAt u x := fun _ => rfl
  refine ⟨?_, fun x hx => (hsame x).trans (hother x hx), ?_, ?_⟩
  · unfold sendRead
    rw [hset]
  · rw [hsame, hown]
  · rw [sendRead_sent, readRequests_word u 0 (entryAddr_last s c), hsent]
    rfl

theorem retry_begins {s : State} {c : Ch} {i : Instr} {p : ReadPhase}
    (hip : (i, p) ∈ [(Instr.chtabReadRetry c, ReadPhase.waitRetry), (.chtabReadErrorRetry c, .waitError)]) (hph : (chanAt s c.val).tab.phase = p) :
    exec i s = .next (beginRead s c.val) := by
  rcases List.mem_cons.mp hip with h | h
  · obtain ⟨rfl, rfl⟩ := Prod.mk.inj h
    have hrun : exec (.chtabReadRetry c) s = execChtabReadRetry c s := rfl
    rw [hrun]
    unfold execChtabReadRetry
    rw [hph]
  · obtain ⟨rfl, rfl⟩ := Prod.mk.inj (List.mem_singleton.mp h)
    have hrun : exec (.chtabReadErrorRetry c) s = execChtabReadErrorRetry c s := rfl
    rw [hrun]
    unfold execChtabReadErrorRetry
    rw [hph]

/-- Settles O15: a request, a read and its failure move the read's own state of one channel's table side; an entry that takes effect keeps its
generation through its sections and the state the channel follows. -/
theorem channelTableRead : Obligations.ChannelTableRead := by
  refine ⟨fun s who mask hwho => chtabRefresh_follows hwho, fun s r seq w hw => chRefresh_follows hw, fun s who on hwho => chtabEnableChange_follows hwho,
    fun s c gl gf b hph => ⟨phaseCompletes_follows gf hph, fun res data hres => phaseFails_follows hph data hres⟩,
    fun s c i p hip hph hen hpend hp hm hw => ⟨beginRead s c.val, retry_begins hip hph, beginRead_begins c.isLt hen hpend hp hm hw⟩⟩

end Sys2Proof.Machine

/-! # Holds, islands and frame boundaries (O16) -/

namespace Sys2Proof.Machine

open Sys2Proof

/-! ### What a frame's work leaves -/

/-- What the work of a frame leaves of its channel: the state, the latched phase, the frames counted in training, and the boundary's own values. -/
def boundMarks (k : Chan) : ChSt × Nat × Nat × Half × Nat × Bool :=
  (k.tab.state, k.line.latPhase, k.line.frames, k.fr.frameCnt, k.fr.lostPrev, k.fr.los)

/-- The work of a frame of channel `c` moves that channel alone, no ring's counters, and leaves the channel's marks. -/
structure BoundKeeps (c : Nat) (s t : State) : Prop where
  kept : t.datum = s.datum ∧ t.time = s.time
  others : OnlyChan s t c
  counters : SameCounters s t
  marks : boundMarks (chanAt t c) = boundMarks (chanAt s c)

theorem BoundKeeps.refl (c : Nat) (s : State) : BoundKeeps c s s := ⟨⟨rfl, rfl⟩, fun _ _ => rfl, .refl s, rfl⟩

theorem BoundKeeps.trans {c : Nat} {s t u : State} (h : BoundKeeps c s t) (h' : BoundKeeps c t u) : BoundKeeps c s u := by
  obtain ⟨⟨h1, h2⟩, ho, hk, hm⟩ := h
  obtain ⟨⟨g1, g2⟩, ho', hk', hm'⟩ := h'
  exact ⟨⟨g1.trans h1, g2.trans h2⟩, fun x hx => (ho' x hx).trans (ho x hx), hk.trans hk', hm'.trans hm⟩

theorem BoundKeeps.ite {c : Nat} {p : Prop} [Decidable p] {s t u : State} (h : BoundKeeps c s t) (h' : BoundKeeps c s u) :
    BoundKeeps c s (if p then t else u) := by
  split
  · exact h
  · exact h'

theorem foldl_boundKeeps {α : Type} {c : Nat} {f : State → α → State} (h : ∀ s a, BoundKeeps c s (f s a)) (l : List α) (s : State) :
    BoundKeeps c s (l.foldl f s) := foldl_inv (.refl c) (fun _ _ _ h h' => h.trans h') h l s

/-- A change that leaves every channel. -/
theorem BoundKeeps.of_chans {c : Nat} {s t : State} (hk : t.datum = s.datum ∧ t.time = s.time) (hc : t.chans = s.chans) (hr : SameCounters s t) :
    BoundKeeps c s t := by
  have h := chanAt_of_chans hc
  exact ⟨hk, fun x _ => h x, hr, by rw [h]⟩

/-- A change of the channel that leaves its marks. -/
theorem setChan_boundKeeps (s : State) (c : Nat) {f : Chan → Chan} (h : ∀ k, boundMarks (f k) = boundMarks k) : BoundKeeps c s (setChan s c f) := by
  refine ⟨⟨rfl, rfl⟩, fun x hx => chanAt_setChan_ne s c x f hx, sameCounters_of_rings rfl, ?_⟩
  rw [chanAt_setChan]
  split
  · exact h _
  · rfl

theorem setQs_boundKeeps (s : State) (c : Nat) (f : Queues → Queues) : BoundKeeps c s (setQs s c f) := setChan_boundKeeps s c (fun _ => rfl)

theorem setMac_boundKeeps (s : State) (c : Nat) (f : MacCnt → MacCnt) : BoundKeeps c s (setMac s c f) := setChan_boundKeeps s c (fun _ => rfl)

theorem setPm_boundKeeps (s : State) (c : Nat) (f : PmSec → PmSec) : BoundKeeps c s (setPm s c f) := setChan_boundKeeps s c (fun _ => rfl)

/-- A change of the framer that leaves the boundary's own values. -/
theorem setFr_boundKeeps (s : State) (c : Nat) {f : Framer → Framer}
    (h : ∀ x, ((f x).frameCnt, (f x).lostPrev, (f x).los) = (x.frameCnt, x.lostPrev, x.los)) : BoundKeeps c s (setFr s c f) :=
  setChan_boundKeeps s c (fun k => congrArg (fun p => (k.tab.state, k.line.latPhase, k.line.frames, p)) (h k.fr))

/-- A change of the line that leaves its latched phase and its frames. -/
theorem setLine_boundKeeps (s : State) (c : Nat) {f : Line → Line} (h : ∀ l, ((f l).latPhase, (f l).frames) = (l.latPhase, l.frames)) :
    BoundKeeps c s (setLine s c f) :=
  setChan_boundKeeps s c (fun k => congrArg (fun p : Nat × Nat => (k.tab.state, p.1, p.2, k.fr.frameCnt, k.fr.lostPrev, k.fr.los)) (h k.line))

theorem EvtOnly.boundKeeps {s t : State} (h : EvtOnly s t) (c : Nat) : BoundKeeps c s t :=
  .of_chans ⟨h.datum, h.time⟩ h.chans (sameCounters_of_rings h.rings)

theorem raise_boundKeeps (c : Nat) (s : State) (src scope : Nat) (i : Word) : BoundKeeps c s (raise s src scope i) :=
  (raise_evtOnly s src scope i).boundKeeps c

theorem raiseC_boundKeeps (c : Nat) (s : State) (src scope inc : Nat) : BoundKeeps c s (raiseC s src scope inc) :=
  (raiseC_evtOnly s src scope inc).boundKeeps c

theorem emitOut_boundKeeps (c : Nat) (s : State) (o : Out) : BoundKeeps c s (emitOut s o) := .of_chans ⟨rfl, rfl⟩ rfl (sameCounters_of_rings rfl)

theorem sendWrite_boundKeeps (c : Nat) (s : State) (f a : Nat) (b : List Byte) : BoundKeeps c s (sendWrite s f a b) :=
  .of_chans ⟨rfl, rfl⟩ rfl (sameCounters_of_rings rfl)

theorem returnWith_boundKeeps (c : Nat) (s : State) (r : Nat) (q : Word) (o : Outcome) : BoundKeeps c s (returnWith s r q o) := by
  refine .of_chans ?_ (returnWith_chans s r q o) (returnWith_sameCounters s r q o)
  rw [returnWith_frame]
  exact ⟨rfl, rfl⟩

theorem beginEmission_boundKeeps (c : Nat) (s : State) (r : RingNo) (q : Word) (o : Outcome) : BoundKeeps c s (beginEmission s r q o) :=
  .of_chans ⟨beginEmission_datum s r q o, beginEmission_time s r q o⟩ (beginEmission_chans s r q o) (beginEmission_sameCounters s r q o)

theorem endEmission_boundKeeps (c : Nat) (s : State) (r : Nat) (q : Word) (f : Outcome → Outcome) : BoundKeeps c s (endEmission s r q f) :=
  .of_chans ⟨endEmission_datum s r q f, endEmission_time s r q f⟩ (endEmission_chans s r q f) (endEmission_sameCounters s r q f)

/-! ### The points of a measured frame -/

theorem ptpDone_boundKeeps (c : Nat) (s : State) (h : PtpHalf) (t : Nat) : BoundKeeps c s (ptpDone s h t) := by
  have erased : BoundKeeps c s { s with fw := { s.fw with ptp := eraseFirst (fun x => x == h) s.fw.ptp } } :=
    .of_chans ⟨rfl, rfl⟩ rfl (sameCounters_of_rings rfl)
  exact erased.trans (raise_boundKeeps c _ _ _ _)

theorem ptpOut_boundKeeps (c : Nat) (s : State) (x id : Nat) (b : List Byte) (ts : Option (Nat × Bool)) : BoundKeeps c s (ptpOut s x id b ts) := by
  unfold ptpOut
  split
  · exact .refl c s
  · split
    · exact .refl c s
    · split
      · exact ptpDone_boundKeeps c s _ _
      · exact .of_chans ⟨rfl, rfl⟩ rfl (sameCounters_of_rings rfl)

theorem ptpClose_boundKeeps (c : Nat) (s : State) (x id t : Nat) : BoundKeeps c s (ptpClose s x id t) :=
  foldl_boundKeeps (fun u h => ptpDone_boundKeeps c u h t) _ s

/-! ### Placing -/

theorem frameEmitted_boundKeeps (s : State) (c : Nat) (f : Frame) : BoundKeeps c s (frameEmitted s c f) := by
  have counted : BoundKeeps c s (raiseC (setMac s c (fun m => { m with dsFrames := m.dsFrames + 1 })) Src.dsFrames c 1) :=
    (setMac_boundKeeps s c _).trans (raiseC_boundKeeps c _ _ _ _)
  unfold frameEmitted
  cases f.src with
  | work r seq =>
    dsimp only
    split
    · exact counted.trans (beginEmission_boundKeeps c _ _ _ _)
    · exact counted
  | pause => exact .refl c s
  | uplink _ => exact counted.trans (ptpOut_boundKeeps c _ _ _ _ _)
  | line _ => exact counted.trans (ptpOut_boundKeeps c _ _ _ _ _)

theorem countOverrun_boundKeeps (s : State) (c : Nat) : BoundKeeps c s (countOverrun s c) := by
  unfold countOverrun
  exact .ite ((setChan_boundKeeps s c (by intro k; rfl)).trans (raiseC_boundKeeps c _ _ _ _)) (.refl c s)

theorem placeBytes_boundKeeps (c n : Nat) : ∀ s : State, BoundKeeps c s (placeBytes n s c) := by
  induction n with
  | zero => exact fun s => .refl c s
  | succ n ih =>
    intro s
    unfold placeBytes
    dsimp only
    split
    next f _ =>
      refine .ite (.refl c s) (.ite (.refl c s) (.ite ?_ ?_))
      · exact ((((setFr_boundKeeps s c (by intro x; rfl)).trans (setQs_boundKeeps _ c _)).trans (frameEmitted_boundKeeps _ c f)).trans
          (countOverrun_boundKeeps _ c)).trans (ih _)
      · exact (setFr_boundKeeps s c (by intro x; rfl)).trans (setQs_boundKeeps _ c _)
    next =>
      split
      · exact .refl c s
      · exact .ite (.refl c s) ((setQs_boundKeeps s c _).trans (ih _))

theorem placeAll_boundKeeps (s : State) (c : Nat) : BoundKeeps c s (placeAll s c) := placeBytes_boundKeeps c 300 s

/-! ### The symbols and the coded stream -/

theorem countSat_boundKeeps (s : State) (c m o : Nat) : BoundKeeps c s (countSat s c m o) := setLine_boundKeeps s c (fun _ => rfl)

theorem sendSymbol_boundKeeps (s : State) (c k : Nat) (tones : List (Nat × Nat × Nat)) : BoundKeeps c s (sendSymbol s c k tones) := by
  unfold sendSymbol
  dsimp only
  exact ((setLine_boundKeeps s c (by intro l; rfl)).trans (countSat_boundKeeps _ c _ _)).trans (emitOut_boundKeeps c _ _)

theorem sendSync_boundKeeps (s : State) (c : Nat) : BoundKeeps c s (sendSync s c) := sendSymbol_boundKeeps s c 0 _

theorem sendTraining_boundKeeps (s : State) (c : Nat) : BoundKeeps c s (sendTraining s c) := by
  unfold sendTraining
  exact .ite (.refl c s) ((sendSync_boundKeeps s c).trans (foldl_boundKeeps (fun t i => sendSymbol_boundKeeps t c i _) _ _))

theorem takeSamples_boundKeeps (s : State) (c : Nat) (adc : List (List (BitVec 14))) : BoundKeeps c s (takeSamples s c adc) :=
  countSat_boundKeeps s c _ _

theorem sendSlots_boundKeeps (c n : Nat) : ∀ s : State, BoundKeeps c s (sendSlots c n s) := by
  induction n with
  | zero => exact fun s => .refl c s
  | succ n ih =>
    intro s
    unfold sendSlots
    exact .ite (.refl c s) (((setFr_boundKeeps s c (by intro x; rfl)).trans (sendSymbol_boundKeeps _ c _ _)).trans (ih _))

theorem pump_boundKeeps (s : State) (c : Nat) : BoundKeeps c s (pump s c) := by
  unfold pump
  dsimp only
  exact (setFr_boundKeeps s c (by intro x; rfl)).trans (sendSlots_boundKeeps c 46 _)

theorem putDtu_boundKeeps (s : State) (c : Nat) (b : List Byte) : BoundKeeps c s (putDtu s c b) := by
  unfold putDtu
  dsimp only
  exact ((setFr_boundKeeps s c (by intro x; rfl)).trans (emitOut_boundKeeps c _ _)).trans (pump_boundKeeps _ c)

theorem endEmissions_boundKeeps (c : Nat) (s : State) (r : RingNo) (st : List (FrameSrc × Nat × Nat)) : BoundKeeps c s (endEmissions s r st) := by
  unfold endEmissions
  refine foldl_boundKeeps (fun t w => ?_) _ _
  exact endEmission_boundKeeps c t _ _ _

/-- The emissions of the frames that end in a closing DTU. -/
def emissionsEnded (s : State) (c : Nat) (st : List (FrameSrc × Nat × Nat)) : State :=
  endEmissions (endEmissions (st.foldl (fun t x => ptpClose t c x.2.1 x.2.2) s) (Fin.ofNat 160 (chRing c 0)) st) (Fin.ofNat 160 (chRing c 1)) st

theorem emissionsEnded_boundKeeps (s : State) (c : Nat) (st : List (FrameSrc × Nat × Nat)) : BoundKeeps c s (emissionsEnded s c st) := by
  have hp : BoundKeeps c s (st.foldl (fun t x => ptpClose t c x.2.1 x.2.2) s) := by
    refine foldl_boundKeeps (fun t x => ?_) _ _
    exact ptpClose_boundKeeps c t _ _ _
  unfold emissionsEnded
  exact (hp.trans (endEmissions_boundKeeps c _ _ st)).trans (endEmissions_boundKeeps c _ _ st)

/-- A data DTU kept for its retransmission, as the next one opens. -/
def dtuKept (s : State) (c : Nat) (b : List Byte) (now : Nat) : State :=
  setFr s c (fun f => { f with
    txStore := f.txStore ++ [{ seq := f.nextSeq, bytes := b, at_ := now }]
    lastSeqCur := f.nextSeq
    nextSeq := f.nextSeq + 1
    openDtu := []
    openStarts := [] })

theorem dtuKept_boundKeeps (s : State) (c : Nat) (b : List Byte) (now : Nat) : BoundKeeps c s (dtuKept s c b now) :=
  setFr_boundKeeps s c (by intro x; rfl)

theorem closeData_eq (s : State) (c : Nat) : closeData s c =
    placeAll (putDtu (dtuKept (setQs (emissionsEnded s c (startStamps (chanAt s c))) c
      (fun q => { q with cur := q.cur.map (stampFrame (startStamps (chanAt s c)) s.time.valid) })) c
      (dtuBytes (chanAt s c).fr.nextSeq 1 0 (chanAt s c).fr.openDtu) s.datum) c (dtuBytes (chanAt s c).fr.nextSeq 1 0 (chanAt s c).fr.openDtu)) c := rfl

theorem closeData_boundKeeps (s : State) (c : Nat) : BoundKeeps c s (closeData s c) := by
  rw [closeData_eq]
  exact ((((emissionsEnded_boundKeeps s c _).trans (setQs_boundKeeps _ c _)).trans (dtuKept_boundKeeps _ c _ _)).trans (putDtu_boundKeeps _ c _)).trans
    (placeAll_boundKeeps _ c)

theorem dtuCloseOp_boundKeeps (s : State) (c : Nat) : BoundKeeps c s (dtuCloseOp s c) := by
  unfold dtuCloseOp
  refine .ite (.refl c s) ?_
  dsimp only
  refine (placeAll_boundKeeps s c).trans ?_
  generalize placeAll s c = u
  split
  · split
    · exact ((setFr_boundKeeps u c (by intro x; rfl)).trans (setPm_boundKeeps _ c _)).trans (putDtu_boundKeeps _ c _)
    · exact setFr_boundKeeps u c (by intro x; rfl)
  · exact .ite (putDtu_boundKeeps u c _) (closeData_boundKeeps u c)

theorem closeDue_boundKeeps (c n : Nat) : ∀ s : State, BoundKeeps c s (closeDue c n s) := by
  induction n with
  | zero => exact fun s => .refl c s
  | succ n ih =>
    intro s
    unfold closeDue
    exact .ite ((dtuCloseOp_boundKeeps s c).trans (ih _)) (.refl c s)

/-! ### The overhead received -/

theorem findMissing_marks (q : Half) (f : Framer) : (findMissing q f).frameCnt = f.frameCnt ∧ (findMissing q f).lostPrev = f.lostPrev ∧
    (findMissing q f).los = f.los := by
  unfold findMissing
  dsimp only
  split <;> exact ⟨rfl, rfl, rfl⟩

theorem takeAck_marks (q : Half) (k : Chan) : boundMarks (takeAck q k) = boundMarks k := by
  unfold takeAck
  split
  · split <;> rfl
  · rfl

theorem takeOverhead_marks (b : List Byte) (k : Chan) : boundMarks (takeOverhead b k) = boundMarks k := by
  have acked : boundMarks (if (beAt b 2 1).testBit 5 then takeAck (BitVec.ofNat 16 (beAt b 0 2)) k else k) = boundMarks k := by
    split
    · exact takeAck_marks _ k
    · rfl
  unfold takeOverhead
  dsimp only
  generalize (if (beAt b 2 1).testBit 5 then takeAck (BitVec.ofNat 16 (beAt b 0 2)) k else k) = x at acked ⊢
  unfold boundMarks at acked ⊢
  dsimp only
  obtain ⟨h1, h2, h3⟩ := findMissing_marks (BitVec.ofNat 16 (beAt b 28 2)) { x.fr with
      crcFails := 0
      crcGoods := x.fr.crcGoods + 1
      lof := x.fr.lof && decide (x.fr.crcGoods + 1 < 4)
      feRdi := (beAt b 2 1).testBit 3
      eocRx := (b.drop 36).take 16 }
  rw [h1, h2, h3]
  exact acked

theorem badOverhead_boundKeeps (s : State) (c : Nat) : BoundKeeps c s (badOverhead s c) := by
  have counted := ((setFr_boundKeeps s c (f := fun f => { f with ohCrc := f.ohCrc + 1, crcFails := f.crcFails + 1, crcGoods := 0
                                                                 lof := f.lof || (!(chanAt s c).fr.lof && decide (4 ≤ (chanAt s c).fr.crcFails + 1)) })
    (by intro x; rfl)).trans (setPm_boundKeeps _ c (fun p => { p with ohCrc := p.ohCrc + 1 }))).trans (raiseC_boundKeeps c _ Src.ohCrc c 1)
  unfold badOverhead
  exact .ite (counted.trans (raise_boundKeeps c _ _ _ _)) counted

theorem serveNack_boundKeeps (c fcnt : Nat) (s : State) (q : Half) : BoundKeeps c s (serveNack c fcnt s q) := by
  have missed : BoundKeeps c s (raiseC (setFr s c (fun f => { f with rtxMiss := f.rtxMiss + 1 })) Src.rtxMiss c 1) :=
    (setFr_boundKeeps s c (by intro x; rfl)).trans (raiseC_boundKeeps c _ _ _ _)
  unfold serveNack
  dsimp only
  split
  · exact .ite (.ite (.refl c s) (setFr_boundKeeps s c (by intro x; rfl))) missed
  · exact missed

theorem overheadOp_boundKeeps (s : State) (c : Nat) (b : List Byte) : BoundKeeps c s (overheadOp s c b) := by
  have taken := (setChan_boundKeeps s c (takeOverhead_marks b)).trans (emitOut_boundKeeps c _ (.toFirmware ((b.drop 36).take 16)))
  unfold overheadOp
  refine .ite (badOverhead_boundKeeps s c) ?_
  exact (BoundKeeps.ite (taken.trans (raise_boundKeeps c _ _ _ _)) taken).trans (foldl_boundKeeps (serveNack_boundKeeps c _) _ _)

theorem receiveFrame_boundKeeps (s : State) (c : Nat) (words : List (List Byte)) : BoundKeeps c s (receiveFrame s c words) := by
  unfold receiveFrame
  dsimp only
  split
  · exact .refl c s
  · exact ((setPm_boundKeeps s c _).trans (setFr_boundKeeps _ c (by intro x; rfl))).trans (overheadOp_boundKeeps _ c _)

/-- The end of a frame leaves the channel's marks. -/
theorem endFrame_boundKeeps (s : State) (c : Nat) (rx : FrameRx) : BoundKeeps c s (endFrame s c rx) :=
  ((takeSamples_boundKeeps s c rx.adc).trans (closeDue_boundKeeps c _ _)).trans (receiveFrame_boundKeeps _ c [])

/-! ### The tributaries -/

theorem assembleRing_boundKeeps (c i n fuel : Nat) : ∀ s : State, BoundKeeps c s (assembleRing c i n fuel s).1 := by
  induction fuel with
  | zero => exact fun s => .refl c s
  | succ fuel ih =>
    intro s
    have used (seq : Word) : BoundKeeps c s (match findWork (ringAt s (chRing c 5)) seq with
        | some w => if w.stage = .emitted then s else beginEmission s (Fin.ofNat 160 (chRing c 5)) seq (blockOutcome s (chRing c 5) seq)
        | none => s) := by
      split
      · exact .ite (.refl c s) (beginEmission_boundKeeps c _ _ _ _)
      · exact .refl c s
    unfold assembleRing
    dsimp only
    split
    · exact .refl c s
    · split
      · exact (setFr_boundKeeps s c (by intro x; rfl)).trans (ih _)
      · exact .refl c s
      · exact .ite (((used _).trans (setFr_boundKeeps _ c (by intro x; rfl))).trans (endEmission_boundKeeps c _ _ _ _))
          ((used _).trans (setFr_boundKeeps _ c (by intro x; rfl)))

theorem countSlip_boundKeeps (s : State) (c i : Nat) (tx : Bool) : BoundKeeps c s (countSlip s c i tx) := by
  have counted : BoundKeeps c s (setFr s c (fun f =>
      if tx then { f with txSlip := vset f.txSlip i (vget f.txSlip i 0 + 1) } else { f with rxSlip := vset f.rxSlip i (vget f.rxSlip i 0 + 1) })) := by
    cases tx with
    | true => exact setFr_boundKeeps s c (fun _ => rfl)
    | false => exact setFr_boundKeeps s c (fun _ => rfl)
  exact counted.trans (raiseC_boundKeeps c _ _ _ _)

theorem tribAssemble_boundKeeps (s : State) (c i : Nat) (pcmIn : List (List Bool)) : BoundKeeps c s (tribAssemble s c i pcmIn) := by
  have put (u : State) (b : List Byte) : BoundKeeps c u (setFr u c (fun f => { f with tribNext := vset f.tribNext i (some b) })) :=
    setFr_boundKeeps u c (fun _ => rfl)
  have assembled := assembleRing_boundKeeps c i (4 * (vget (chanAt s c).line.latTrib i Trib.off).n) 64 s
  unfold tribAssemble
  dsimp only
  refine .ite (put s _) (.ite ?_ (put s _))
  generalize assembleRing c i (4 * (vget (chanAt s c).line.latTrib i Trib.off).n) 64 s = p at assembled ⊢
  obtain ⟨u, o⟩ := p
  cases o with
  | some b => exact assembled.trans (put u b)
  | none => exact (assembled.trans (countSlip_boundKeeps u c i true)).trans (put _ _)

theorem fillBlock_boundKeeps (s : State) (c i : Nat) (x : Word × List Byte) (data : List Byte) : BoundKeeps c s (fillBlock s c i x data) := by
  unfold fillBlock
  dsimp only
  split
  · exact .refl c s
  · exact .ite (((sendWrite_boundKeeps c s _ _ _).trans (setFr_boundKeeps _ c (by intro x; rfl))).trans (returnWith_boundKeeps c _ _ _ _))
      ((sendWrite_boundKeeps c s _ _ _).trans (setFr_boundKeeps _ c (by intro x; rfl)))

theorem tribDeliver_boundKeeps (s : State) (c i : Nat) : BoundKeeps c s (tribDeliver s c i) := by
  unfold tribDeliver
  dsimp only
  split
  · exact .ite (emitOut_boundKeeps c s _) (.refl c s)
  next x _ =>
    have counted : BoundKeeps c s (if ((x.drop (tribOffset (chanAt s c).line.latTrib i - 64)).take (4 * (vget (chanAt s c).line.latTrib i Trib.off).n)).any
        (fun y => y.bad) then raiseC (setFr s c (fun f => { f with tribErr := vset f.tribErr i (vget f.tribErr i 0 + 1) })) Src.tribErr c 1 else s) :=
      .ite ((setFr_boundKeeps s c (by intro x; rfl)).trans (raiseC_boundKeeps c _ _ _ _)) (.refl c s)
    refine counted.trans ?_
    generalize (if ((x.drop (tribOffset (chanAt s c).line.latTrib i - 64)).take (4 * (vget (chanAt s c).line.latTrib i Trib.off).n)).any
        (fun y => y.bad) then raiseC (setFr s c (fun f => { f with tribErr := vset f.tribErr i (vget f.tribErr i 0 + 1) })) Src.tribErr c 1 else s) = u
    refine .ite (.refl c u) (.ite ?_ (emitOut_boundKeeps c u _))
    split
    · exact fillBlock_boundKeeps u c i _ _
    · exact countSlip_boundKeeps u c i false

theorem tribFrame_boundKeeps (c : Nat) (pcmIn : List (List Bool)) (s : State) (i : Nat) : BoundKeeps c s (tribFrame c pcmIn s i) := by
  unfold tribFrame
  exact .ite ((tribAssemble_boundKeeps s c i pcmIn).trans (tribDeliver_boundKeeps _ c i)) (.refl c s)

/-! ### ECONOMY at a boundary -/

/-- A channel in SERVICE or ECONOMY stays in one of them through a boundary, with the frame's own values. -/
structure ServiceKeeps (c : Nat) (s t : State) : Prop where
  kept : t.datum = s.datum ∧ t.time = s.time
  others : OnlyChan s t c
  counters : SameCounters s t
  serves : serving s c = true → serving t c = true
  marks : ((chanAt t c).line.latPhase, (chanAt t c).fr.frameCnt, (chanAt t c).fr.los) =
    ((chanAt s c).line.latPhase, (chanAt s c).fr.frameCnt, (chanAt s c).fr.los)

theorem ServiceKeeps.refl (c : Nat) (s : State) : ServiceKeeps c s s := ⟨⟨rfl, rfl⟩, fun _ _ => rfl, .refl s, fun e => e, rfl⟩

theorem ServiceKeeps.trans {c : Nat} {s t u : State} (h : ServiceKeeps c s t) (h' : ServiceKeeps c t u) : ServiceKeeps c s u := by
  obtain ⟨⟨h1, h2⟩, ho, hk, hs, hm⟩ := h
  obtain ⟨⟨g1, g2⟩, ho', hk', hs', hm'⟩ := h'
  exact ⟨⟨g1.trans h1, g2.trans h2⟩, fun x hx => (ho' x hx).trans (ho x hx), hk.trans hk', fun e => hs' (hs e), hm'.trans hm⟩

theorem ServiceKeeps.ite {c : Nat} {p : Prop} [Decidable p] {s t u : State} (h : ServiceKeeps c s t) (h' : ServiceKeeps c s u) :
    ServiceKeeps c s (if p then t else u) := by
  split
  · exact h
  · exact h'

theorem BoundKeeps.serviceKeeps {c : Nat} {s t : State} (h : BoundKeeps c s t) : ServiceKeeps c s t := by
  obtain ⟨hk, ho, hc, hm⟩ := h
  unfold boundMarks at hm
  simp only [Prod.mk.injEq] at hm
  obtain ⟨m1, m2, -, m4, -, m6⟩ := hm
  refine ⟨hk, ho, hc, fun e => ?_, by rw [m2, m4, m6]⟩
  unfold serving at e ⊢
  rw [m1]
  exact e

/-- The state changed to SERVICE or ECONOMY. -/
theorem setChSt_serviceKeeps (s : State) {c : Nat} (hc : c < 24) {st : ChSt} (hst : st = .service ∨ st = .economy) : ServiceKeeps c s (setChSt s c st) := by
  have hm := setChSt_chanMoves s c st
  have hown := chanAt_setChSt s hc st
  refine ⟨?_, hm.others, hm.counters, fun _ => ?_, ?_⟩
  · rw [hm.frame]
    exact ⟨rfl, rfl⟩
  · unfold serving
    rw [hown]
    rcases hst with rfl | rfl <;> rfl
  · rw [hown]

theorem setLine_serviceKeeps (s : State) (c : Nat) {f : Line → Line} (h : ∀ l, ((f l).latPhase, (f l).frames) = (l.latPhase, l.frames)) :
    ServiceKeeps c s (setLine s c f) := (setLine_boundKeeps s c h).serviceKeeps

theorem goEconomy_serviceKeeps (s : State) {c : Nat} (hc : c < 24) : ServiceKeeps c s (goEconomy s c) :=
  ((setLine_serviceKeeps s c (by intro l; rfl)).trans (setChSt_serviceKeeps _ hc (.inr rfl))).trans (raise_boundKeeps c _ _ _ _).serviceKeeps

theorem leaveEconomy_serviceKeeps (s : State) {c : Nat} (hc : c < 24) : ServiceKeeps c s (leaveEconomy s c) :=
  ((setLine_serviceKeeps s c (by intro l; rfl)).trans (setChSt_serviceKeeps _ hc (.inl rfl))).trans (raise_boundKeeps c _ _ _ _).serviceKeeps

theorem econEntry_serviceKeeps (s : State) {c : Nat} (hc : c < 24) : ServiceKeeps c s (econEntry s c) := by
  unfold econEntry
  split
  · exact .ite ((setLine_serviceKeeps s c (by intro l; rfl)).trans (goEconomy_serviceKeeps _ hc)) (setLine_serviceKeeps s c (by intro l; rfl))
  · exact setLine_serviceKeeps s c (by intro l; rfl)
  · exact .refl c s

theorem econLeave_serviceKeeps (s : State) {c : Nat} (hc : c < 24) : ServiceKeeps c s (econLeave s c) := by
  unfold econLeave
  split
  · exact .ite ((setLine_serviceKeeps s c (by intro l; rfl)).trans (leaveEconomy_serviceKeeps _ hc)) (setLine_serviceKeeps s c (by intro l; rfl))
  · exact setLine_serviceKeeps s c (by intro l; rfl)
  · exact .refl c s

theorem econSwitch_serviceKeeps (s : State) {c : Nat} (hc : c < 24) : ServiceKeeps c s (econSwitch s c) :=
  (econEntry_serviceKeeps s hc).trans (econLeave_serviceKeeps _ hc)

/-! ### A frame begins -/

/-- The requests of a frame's overhead made. -/
def frameRequested (s : State) (c : Nat) : State := setLine s c (fun _ => econRequests s.datum (chanAt s c))

theorem frameRequested_boundKeeps (s : State) {c : Nat} (hc : c < 24) : BoundKeeps c s (frameRequested s c) := by
  have hown := chanAt_setLine s hc (fun _ => econRequests s.datum (chanAt s c))
  refine ⟨⟨rfl, rfl⟩, fun x hx => chanAt_setChan_ne s c x _ hx, sameCounters_of_rings rfl, ?_⟩
  unfold frameRequested
  rw [hown]
  rfl

/-- A frame's framer as it begins: nothing lost in it yet. -/
structure FrameOpens (c : Nat) (s t : State) : Prop where
  keeps : ServiceKeeps c s t
  lost : (chanAt t c).fr.lostPrev = 0

theorem FrameOpens.then {c : Nat} {s t u : State} (h : FrameOpens c s t) (h' : BoundKeeps c t u) : FrameOpens c s u := by
  refine ⟨h.keeps.trans h'.serviceKeeps, ?_⟩
  have hm := h'.marks
  unfold boundMarks at hm
  simp only [Prod.mk.injEq] at hm
  obtain ⟨-, -, -, -, m5, -⟩ := hm
  exact m5.trans h.lost

/-- A change of the framer that opens a frame. -/
theorem setFr_frameOpens (s : State) {c : Nat} (hc : c < 24) {f : Framer → Framer}
    (h : ∀ x, ((f x).frameCnt, (f x).lostPrev, (f x).los) = (x.frameCnt, (0 : Nat), x.los)) : FrameOpens c s (setFr s c f) := by
  have hown : chanAt (setFr s c f) c = { chanAt s c with fr := f (chanAt s c).fr } := chanAt_setChan_self s c _ hc
  have hx := h (chanAt s c).fr
  simp only [Prod.mk.injEq] at hx
  obtain ⟨x1, x2, x3⟩ := hx
  refine ⟨⟨⟨rfl, rfl⟩, fun x hx => chanAt_setChan_ne s c x _ hx, sameCounters_of_rings rfl, fun e => ?_, ?_⟩, ?_⟩
  · unfold serving at e ⊢
    rw [hown]
    exact e
  · rw [hown]
    dsimp only
    rw [x1, x3]
  · rw [hown]
    exact x2

theorem beginFrame_frameOpens (s : State) {c : Nat} (hc : c < 24) (rx : FrameRx) : FrameOpens c s (beginFrame s c rx) := by
  have requested := (frameRequested_boundKeeps s hc).serviceKeeps
  have opens {f : Framer → Framer} (h : ∀ x, ((f x).frameCnt, (f x).lostPrev, (f x).los) = (x.frameCnt, (0 : Nat), x.los)) :
      FrameOpens c s (setFr (frameRequested s c) c f) := by
    have h' := setFr_frameOpens (frameRequested s c) hc h
    exact ⟨requested.trans h'.keeps, h'.lost⟩
  unfold beginFrame
  dsimp only
  exact ((opens (by intro x; rfl)).then ((emitOut_boundKeeps c _ _).trans (sendSync_boundKeeps _ c))).then (pump_boundKeeps _ c)

/-! ### A boundary in SERVICE or ECONOMY -/

/-- The boundary's own step of the framer. -/
def framerStepped (s : State) (c now : Nat) (rx : FrameRx) : State :=
  setChan s c (fun k => { k with fr := frameStep now k.line.latPhase (losStep rx.dropDb k.fr) })

theorem losStep_los (drop : Nat) (f : Framer) (h : 20 ≤ drop) : (losStep drop f).los = true := by
  unfold losStep
  rw [if_pos h]

/-- The framer counts the frame, and LOS is declared at a drop of 20 dB (R171). -/
theorem framerStepped_own (s : State) {c : Nat} (hc : c < 24) (now : Nat) (rx : FrameRx) :
    (chanAt (framerStepped s c now rx) c).fr.frameCnt = BitVec.ofNat 16 (frameCount now (chanAt s c).line.latPhase) ∧
    (20 ≤ rx.dropDb → (chanAt (framerStepped s c now rx) c).fr.los = true) ∧ (serving s c = true → serving (framerStepped s c now rx) c = true) := by
  have hown : chanAt (framerStepped s c now rx) c =
      { chanAt s c with fr := frameStep now (chanAt s c).line.latPhase (losStep rx.dropDb (chanAt s c).fr) } := chanAt_setChan_self s c _ hc
  rw [hown]
  refine ⟨rfl, fun h => losStep_los rx.dropDb (chanAt s c).fr h, fun e => ?_⟩
  unfold serving at e ⊢
  rw [hown]
  exact e

/-- LOS told at its rise. -/
def losTold (s u : State) (c : Nat) : State := if !(chanAt s c).fr.los && (chanAt u c).fr.los then raise u Src.los c 0 else u

theorem serviceBoundary_eq (s : State) (c : Nat) (rx : FrameRx) : serviceBoundary s c rx =
    setFr ((List.range 4).foldl (tribFrame c rx.pcmIn) (beginFrame (econSwitch (losTold (endFrame s c rx) (framerStepped (endFrame s c rx) c s.datum rx) c) c)
      c rx)) c (fun f => { f with rxTribs := none }) := rfl

/-- A boundary of a serving channel (R135, R164, R171). -/
theorem serviceBoundary_follows (s : State) {c : Nat} (hc : c < 24) (rx : FrameRx) (hs : serving s c = true) :
    (serviceBoundary s c rx).datum = s.datum ∧ (serviceBoundary s c rx).time = s.time ∧ OnlyChan s (serviceBoundary s c rx) c ∧
    SameCounters s (serviceBoundary s c rx) ∧
    (chanAt (serviceBoundary s c rx) c).fr.frameCnt = BitVec.ofNat 16 (frameCount s.datum (chanAt s c).line.latPhase) ∧
    (chanAt (serviceBoundary s c rx) c).fr.lostPrev = 0 ∧ (20 ≤ rx.dropDb → (chanAt (serviceBoundary s c rx) c).fr.los = true) ∧
    serving (serviceBoundary s c rx) c = true := by
  have hend := (endFrame_boundKeeps s c rx).serviceKeeps
  rw [serviceBoundary_eq]
  generalize endFrame s c rx = u at hend ⊢
  obtain ⟨e1, e2, e3⟩ := framerStepped_own u hc s.datum rx
  have hstep : (framerStepped u c s.datum rx).datum = u.datum ∧ (framerStepped u c s.datum rx).time = u.time ∧
      OnlyChan u (framerStepped u c s.datum rx) c ∧ SameCounters u (framerStepped u c s.datum rx) :=
    ⟨rfl, rfl, fun x hx => chanAt_setChan_ne u c x _ hx, sameCounters_of_rings rfl⟩
  generalize framerStepped u c s.datum rx = v at e1 e2 e3 hstep ⊢
  have htold : BoundKeeps c v (losTold u v c) := .ite (raise_boundKeeps c _ _ _ _) (.refl c v)
  have hopen := beginFrame_frameOpens (econSwitch (losTold u v c) c) hc rx
  have hbefore := htold.serviceKeeps.trans (econSwitch_serviceKeeps (losTold u v c) hc)
  have hall := (hopen.then (foldl_boundKeeps (tribFrame_boundKeeps c rx.pcmIn) (List.range 4) _)).then
    (setFr_boundKeeps _ c (f := fun f => { f with rxTribs := none }) (fun _ => rfl))
  generalize setFr ((List.range 4).foldl (tribFrame c rx.pcmIn) (beginFrame (econSwitch (losTold u v c) c) c rx)) c (fun f => { f with rxTribs := none }) = w
    at hall ⊢
  obtain ⟨⟨k1, k2⟩, ko, kc, ks, km⟩ := hbefore.trans hall.keeps
  obtain ⟨⟨d1, d2⟩, do_, dc, ds, dm⟩ := hend
  obtain ⟨v1, v2, vo, vc⟩ := hstep
  simp only [Prod.mk.injEq] at km dm
  obtain ⟨-, m2, m3⟩ := km
  obtain ⟨n1, -, -⟩ := dm
  refine ⟨k1.trans (v1.trans d1), k2.trans (v2.trans d2), fun x hx => (ko x hx).trans ((vo x hx).trans (do_ x hx)), dc.trans (vc.trans kc), ?_,
    hall.lost, fun h => m3.trans (e2 h), ks (e3 (ds hs))⟩
  rw [m2, e1, n1]

/-! ### The boundary -/

/-- The tail of a boundary moves the second's tallies and drives the idle tributaries. -/
structure TailKeeps (c : Nat) (s t : State) : Prop where
  kept : t.datum = s.datum ∧ t.time = s.time
  others : OnlyChan s t c
  counters : SameCounters s t
  own : chanAt t c = { chanAt s c with pm := (chanAt t c).pm }

theorem TailKeeps.refl (c : Nat) (s : State) : TailKeeps c s s := ⟨⟨rfl, rfl⟩, fun _ _ => rfl, .refl s, rfl⟩

theorem TailKeeps.trans {c : Nat} {s t u : State} (h : TailKeeps c s t) (h' : TailKeeps c t u) : TailKeeps c s u := by
  obtain ⟨⟨h1, h2⟩, ho, hk, hw⟩ := h
  obtain ⟨⟨g1, g2⟩, ho', hk', hw'⟩ := h'
  refine ⟨⟨g1.trans h1, g2.trans h2⟩, fun x hx => (ho' x hx).trans (ho x hx), hk.trans hk', ?_⟩
  rw [hw] at hw'
  rw [hw']

theorem setPm_tailKeeps (s : State) {c : Nat} (hc : c < 24) (f : PmSec → PmSec) : TailKeeps c s (setPm s c f) := by
  have hown : chanAt (setPm s c f) c = { chanAt s c with pm := { (chanAt s c).pm with cur := f (chanAt s c).pm.cur } } := chanAt_setChan_self s c _ hc
  exact ⟨⟨rfl, rfl⟩, fun x hx => chanAt_setChan_ne s c x _ hx, sameCounters_of_rings rfl, by rw [hown]⟩

theorem tribIdleFrame_tailKeeps {c : Nat} (hc : c < 24) (s : State) (i : Nat) : TailKeeps c s (tribIdleFrame c s i) := by
  have sent : ∀ (u : State) (o : Out), TailKeeps c u (emitOut u o) := fun u o => ⟨⟨rfl, rfl⟩, fun _ _ => rfl, sameCounters_of_rings rfl, rfl⟩
  unfold tribIdleFrame
  dsimp only
  split
  · exact .refl c s
  · split
    · exact (setPm_tailKeeps s hc _).trans (sent _ _)
    · exact setPm_tailKeeps s hc _

/-- The tail of a boundary. -/
def boundaryTail (on : Bool) (s : State) (c : Nat) : State := pmFrame (if on then s else (List.range 4).foldl (tribIdleFrame c) s) c

theorem boundaryTail_tailKeeps (on : Bool) (s : State) {c : Nat} (hc : c < 24) : TailKeeps c s (boundaryTail on s c) := by
  have idle : TailKeeps c s (if on then s else (List.range 4).foldl (tribIdleFrame c) s) := by
    split
    · exact .refl c s
    · exact foldl_inv (.refl c) (fun _ _ _ h h' => h.trans h') (tribIdleFrame_tailKeeps hc) _ s
  unfold boundaryTail pmFrame
  dsimp only
  exact idle.trans (setPm_tailKeeps _ hc _)

/-- What a boundary does to its channel before its tail. -/
def boundaryHead (stepped : Bool) (s : State) (c : Nat) (rx : FrameRx) : State :=
  if serving s c then (if stepped then lossOfLineOp s c else serviceBoundary s c rx)
  else if (chanAt s c).tab.state = .train then (if stepped then failTraining s c 6 else trainBoundary s c rx)
  else if mayTrain s c then goTrain s c
  else s

theorem boundaryOp_eq (s : State) (c : Nat) (rx : FrameRx) :
    boundaryOp s c rx = boundaryTail (serving (clearStepped s c) c) (boundaryHead (s.time.stepped.getLsbD c) (clearStepped s c) c rx) c := rfl

/-- The step of the datum is taken by the channel. -/
theorem clearStepped_clears (s : State) (c : Ch) : (clearStepped s c.val).time.stepped.getLsbD c.val = false := by
  have hc := c.isLt
  unfold clearStepped
  dsimp only
  rw [BitVec.getLsbD_and, BitVec.getLsbD_not]
  have : (BitVec.ofNat 24 (2 ^ c.val)).getLsbD c.val = true := by
    rw [BitVec.getLsbD_ofNat, Nat.testBit_two_pow_self, decide_eq_true hc]
    rfl
  rw [this, decide_eq_true hc]
  simp

theorem trainBoundary_follows (s : State) {c : Nat} (hc : c < 24) (rx : FrameRx) :
    (trainBoundary s c rx).time = s.time ∧ OnlyChan s (trainBoundary s c rx) c ∧ SameCounters s (trainBoundary s c rx) ∧
    (chanAt (trainBoundary s c rx) c).line.frames = (chanAt s c).line.frames + 1 ∧
    (chanAt (trainBoundary s c rx) c).tab.state = (chanAt s c).tab.state := by
  have htake := takeSamples_boundKeeps s c rx.adc
  unfold trainBoundary
  generalize takeSamples s c rx.adc = u at htake ⊢
  have hown := chanAt_setLine u hc (fun l => { l with frames := l.frames + 1 })
  have hset : (setLine u c (fun l => { l with frames := l.frames + 1 })).time = u.time ∧
      OnlyChan u (setLine u c (fun l => { l with frames := l.frames + 1 })) c ∧ SameCounters u (setLine u c (fun l => { l with frames := l.frames + 1 })) :=
    ⟨rfl, fun x hx => chanAt_setChan_ne u c x _ hx, sameCounters_of_rings rfl⟩
  generalize setLine u c (fun l => { l with frames := l.frames + 1 }) = v at hown hset ⊢
  obtain ⟨⟨-, k2⟩, ko, kc, km⟩ := sendTraining_boundKeeps v c
  obtain ⟨⟨-, h2⟩, ho, hk, hm⟩ := htake
  obtain ⟨v2, vo, vc⟩ := hset
  unfold boundMarks at km hm
  simp only [Prod.mk.injEq] at km hm
  obtain ⟨m1, -, m3, -⟩ := km
  obtain ⟨n1, -, n3, -⟩ := hm
  refine ⟨k2.trans (v2.trans h2), fun x hx => (ko x hx).trans ((vo x hx).trans (ho x hx)), hk.trans (vc.trans kc), ?_, ?_⟩
  · rw [m3, hown, ← n3]
  · rw [m1, hown, ← n1]

/-! ### Failures and entries at a boundary -/

theorem failTraining_chanMoves {s : State} {c : Nat} (ht : (chanAt s c).tab.state = .train) (cause : Nat) : ChanMoves c s (failTraining s c cause) := by
  rw [failTraining_eq ht]
  exact ((failStart_kept s c).1.trans (failCounted_chanMoves _ c cause _)).trans (failEnd_chanMoves s _ c)

/-- A failed training leaves TRAIN. -/
theorem failTraining_leaves {s : State} {c : Nat} (hc : c < 24) (ht : (chanAt s c).tab.state = .train) (cause : Nat) :
    (chanAt (failTraining s c cause) c).tab.state ≠ .train := by
  have hown := failCounted_chan (failStart s c) hc cause (failNext s c)
  rw [failTraining_eq ht]
  generalize failCounted (failStart s c) c cause (failNext s c) = u at hown ⊢
  rw [(failStart_kept s c).2.2] at hown
  have hs : serving u c = false := serving_of_train (by rw [hown]; exact ht)
  unfold failEnd
  split
  · rw [(chanAt_enterHalted u hc 2).1]
    nofun
  · rw [(chanAt_goReady hc hs).1]
    nofun

/-- A channel out of service enters TRAIN with the latched values (R95). -/
theorem goTrain_latches {s : State} {c : Nat} (hc : c < 24) (h : serving s c = false) :
    (chanAt (goTrain s c) c).line.phase = 0 ∧ (chanAt (goTrain s c) c).line.latMds = s.time.mds.toNat ∧
    (chanAt (goTrain s c) c).line.latPhase = s.time.tddPhase.toNat ∧ (chanAt (goTrain s c) c).line.latTrib = (chanAt s c).tab.trib := by
  obtain ⟨m, hm⟩ := chanAt_stopLine s hc
  rw [goTrain_eq, (conflictTold_kept _ c _).2, leaveService_idle h]
  generalize stopLine s c = u at hm ⊢
  have htrib : (chanAt u c).tab.trib = (chanAt s c).tab.trib := by rw [hm]
  unfold trainLatched
  rw [chanAt_setChSt _ hc, chanAt_setLine _ hc]
  exact ⟨rfl, rfl, rfl, htrib⟩

theorem ready_of_mayTrain {s : State} {c : Nat} (h : mayTrain s c = true) : (chanAt s c).tab.state = .ready := by
  unfold mayTrain at h
  simp only [Bool.and_eq_true, decide_eq_true_eq] at h
  obtain ⟨⟨⟨h, -⟩, -⟩, -⟩ := h
  exact h

theorem serving_of_ready {s : State} {c : Nat} (h : (chanAt s c).tab.state = .ready) : serving s c = false := by
  unfold serving
  rw [h]
  rfl

theorem train_not_serving {s : State} {c : Nat} (h : serving s c = true) : (chanAt s c).tab.state ≠ .train := by
  intro ht
  exact absurd (h.symm.trans (serving_of_train ht)) nofun

/-- What the boundary's head does, by the channel's state and whether a step of the datum reaches it. -/
structure HeadFollows (stepped : Bool) (s : State) (c : Nat) (rx : FrameRx) (t : State) : Prop where
  time : t.time = s.time
  others : OnlyChan s t c
  counters : SameCounters s t
  served : serving s c = true → stepped = false →
    (chanAt t c).fr.frameCnt = BitVec.ofNat 16 (frameCount s.datum (chanAt s c).line.latPhase) ∧ (chanAt t c).fr.lostPrev = 0 ∧
    (20 ≤ rx.dropDb → (chanAt t c).fr.los = true) ∧ serving t c = true
  lost : serving s c = true → stepped = true → (chanAt t c).tab.state = .train
  trained : (chanAt s c).tab.state = .train → stepped = false →
    (chanAt t c).line.frames = (chanAt s c).line.frames + 1 ∧ (chanAt t c).tab.state = .train
  failed : (chanAt s c).tab.state = .train → stepped = true → (chanAt t c).line.lastFail = 6 ∧ (chanAt t c).tab.state ≠ .train
  entered : mayTrain s c = true → (chanAt t c).tab.state = .train ∧ (chanAt t c).line.phase = 0 ∧
    (chanAt t c).line.latMds = s.time.mds.toNat ∧ (chanAt t c).line.latPhase = s.time.tddPhase.toNat ∧
    (chanAt t c).line.latTrib = (chanAt s c).tab.trib

theorem lossOfLineOp_follows {s : State} {c : Nat} (hc : c < 24) (hs : serving s c = true) : ChanMoves c s (lossOfLineOp s c) ∧
    (chanAt (lossOfLineOp s c) c).tab.state = .train := by
  have hop : lossOfLineOp s c = goTrain (raise (setPm s c (fun p => { p with lol := p.lol + 1 })) Src.lol c 0) c := if_pos hs
  have hcount : ChanMoves c s (raise (setPm s c (fun p => { p with lol := p.lol + 1 })) Src.lol c 0) :=
    (setChan_chanMoves s c (fun k => { k with pm := { k.pm with cur := { k.pm.cur with lol := k.pm.cur.lol + 1 } } })).trans (raise_chanMoves c _ _ _ _)
  rw [hop]
  refine ⟨hcount.trans (goTrain_chanMoves _ c), ?_⟩
  rw [(goTrain_own _ hc).1]

theorem ChanMoves.time_eq {c : Nat} {s t : State} (h : ChanMoves c s t) : t.time = s.time := by rw [h.frame]

section
variable {s : State} {c : Nat} (hc : c < 24) (rx : FrameRx)
include hc

theorem boundaryHead_serving (stepped : Bool) (hs : serving s c = true) : HeadFollows stepped s c rx (boundaryHead stepped s c rx) := by
  have notrain := train_not_serving hs
  have nomay : mayTrain s c ≠ true := fun h => absurd (hs.symm.trans (serving_of_ready (ready_of_mayTrain h))) nofun
  unfold boundaryHead
  rw [if_pos hs]
  cases stepped with
  | true =>
    obtain ⟨hm, hst⟩ := lossOfLineOp_follows hc hs
    exact ⟨hm.time_eq, hm.others, hm.counters, fun _ => nofun, fun _ _ => hst, fun h => absurd h notrain, fun h => absurd h notrain,
      fun h => absurd h nomay⟩
  | false =>
    obtain ⟨-, ht, ho, hk, h1, h2, h3, h4⟩ := serviceBoundary_follows s hc rx hs
    exact ⟨ht, ho, hk, fun _ _ => ⟨h1, h2, h3, h4⟩, fun _ => nofun, fun h => absurd h notrain, fun h => absurd h notrain,
      fun h => absurd h nomay⟩

theorem boundaryHead_train (stepped : Bool) (ht : (chanAt s c).tab.state = .train) : HeadFollows stepped s c rx (boundaryHead stepped s c rx) := by
  have hs := serving_of_train ht
  have noserve : serving s c ≠ true := fun h => absurd (h.symm.trans hs) nofun
  have nomay : mayTrain s c ≠ true := fun h => absurd ((ready_of_mayTrain h).symm.trans ht) nofun
  unfold boundaryHead
  rw [if_neg noserve, if_pos ht]
  cases stepped with
  | true =>
    have hm := failTraining_chanMoves ht 6
    obtain ⟨-, hlast, -⟩ := failTraining_follows hc ht 6
    exact ⟨hm.time_eq, hm.others, hm.counters, fun h => absurd h noserve, fun h => absurd h noserve, fun _ => nofun,
      fun _ _ => ⟨hlast, failTraining_leaves hc ht 6⟩, fun h => absurd h nomay⟩
  | false =>
    obtain ⟨h1, h2, h3, h4, h5⟩ := trainBoundary_follows s hc rx
    exact ⟨h1, h2, h3, fun h => absurd h noserve, fun h => absurd h noserve, fun _ _ => ⟨h4, h5.trans ht⟩, fun _ => nofun, fun h => absurd h nomay⟩

theorem boundaryHead_idle (stepped : Bool) (hs : serving s c = false) (ht : (chanAt s c).tab.state ≠ .train) :
    HeadFollows stepped s c rx (boundaryHead stepped s c rx) := by
  have noserve : serving s c ≠ true := fun h => absurd (h.symm.trans hs) nofun
  unfold boundaryHead
  rw [if_neg noserve, if_neg ht]
  cases hmay : mayTrain s c with
  | true =>
    have hm := goTrain_chanMoves s c
    obtain ⟨h1, h2, h3, h4⟩ := goTrain_latches hc hs
    have hst := (goTrain_own s hc).1
    rw [if_pos rfl]
    exact ⟨hm.time_eq, hm.others, hm.counters, fun h => absurd h noserve, fun h => absurd h noserve, fun h => absurd h ht, fun h => absurd h ht,
      fun _ => ⟨by rw [hst], h1, h2, h3, h4⟩⟩
  | false =>
    rw [if_neg Bool.false_ne_true]
    exact ⟨rfl, fun _ _ => rfl, .refl s, fun h => absurd h noserve, fun h => absurd h noserve, fun h => absurd h ht, fun h => absurd h ht,
      fun h => absurd (hmay.symm.trans h) nofun⟩

theorem boundaryHead_follows (stepped : Bool) : HeadFollows stepped s c rx (boundaryHead stepped s c rx) := by
  cases hs : serving s c with
  | true => exact boundaryHead_serving hc rx stepped hs
  | false =>
    by_cases ht : (chanAt s c).tab.state = .train
    · exact boundaryHead_train hc rx stepped ht
    · exact boundaryHead_idle hc rx stepped hs ht

end

/-- The step cleared leaves the channel, the datum, and what the channel's next state depends on. -/
theorem clearStepped_kept (s : State) (c : Nat) : (clearStepped s c).datum = s.datum ∧ (clearStepped s c).time.mds = s.time.mds ∧
    (clearStepped s c).time.tddPhase = s.time.tddPhase ∧ SameCounters s (clearStepped s c) ∧ (∀ x, chanAt (clearStepped s c) x = chanAt s x) ∧
    serving (clearStepped s c) c = serving s c ∧ mayTrain (clearStepped s c) c = mayTrain s c :=
  ⟨rfl, rfl, rfl, sameCounters_of_rings rfl, fun _ => rfl, rfl, rfl⟩

theorem TailKeeps.serving_eq {c : Nat} {s t : State} (h : TailKeeps c s t) : serving t c = serving s c := by
  unfold serving
  rw [h.own]

theorem boundaryOp_follows (s : State) (c : Ch) (rx : FrameRx) :
    OnlyChan s (boundaryOp s c.val rx) c.val ∧ SameCounters s (boundaryOp s c.val rx) ∧
      (boundaryOp s c.val rx).time.stepped.getLsbD c.val = false ∧
      (serving s c.val = true → s.time.stepped.getLsbD c.val = false →
        (chanAt (boundaryOp s c.val rx) c.val).fr.frameCnt = BitVec.ofNat 16 (frameCount s.datum (chanAt s c.val).line.latPhase) ∧
        (chanAt (boundaryOp s c.val rx) c.val).fr.lostPrev = 0 ∧
        (20 ≤ rx.dropDb → (chanAt (boundaryOp s c.val rx) c.val).fr.los = true) ∧ (serving (boundaryOp s c.val rx) c.val = true)) ∧
      (serving s c.val = true → s.time.stepped.getLsbD c.val = true → (chanAt (boundaryOp s c.val rx) c.val).tab.state = .train) ∧
      ((chanAt s c.val).tab.state = .train → s.time.stepped.getLsbD c.val = false →
        (chanAt (boundaryOp s c.val rx) c.val).line.frames = (chanAt s c.val).line.frames + 1 ∧
        (chanAt (boundaryOp s c.val rx) c.val).tab.state = .train) ∧
      ((chanAt s c.val).tab.state = .train → s.time.stepped.getLsbD c.val = true →
        (chanAt (boundaryOp s c.val rx) c.val).line.lastFail = 6 ∧ (chanAt (boundaryOp s c.val rx) c.val).tab.state ≠ .train) ∧
      (mayTrain s c.val = true → (chanAt (boundaryOp s c.val rx) c.val).tab.state = .train ∧ (chanAt (boundaryOp s c.val rx) c.val).line.phase = 0 ∧
        (chanAt (boundaryOp s c.val rx) c.val).line.latMds = s.time.mds.toNat ∧
        (chanAt (boundaryOp s c.val rx) c.val).line.latPhase = s.time.tddPhase.toNat ∧
        (chanAt (boundaryOp s c.val rx) c.val).line.latTrib = (chanAt s c.val).tab.trib) := by
  obtain ⟨h1, h2, h3, h4, h5, h6, h7⟩ := clearStepped_kept s c.val
  have hclear := clearStepped_clears s c
  rw [boundaryOp_eq]
  generalize clearStepped s c.val = u at h1 h2 h3 h4 h5 h6 h7 hclear ⊢
  obtain ⟨ft, fo, fk, f1, f2, f3, f4, f5⟩ := boundaryHead_follows (s := u) c.isLt rx (s.time.stepped.getLsbD c.val)
  generalize boundaryHead (s.time.stepped.getLsbD c.val) u c.val rx = v at ft fo fk f1 f2 f3 f4 f5 ⊢
  have htail := boundaryTail_tailKeeps (serving u c.val) v c.isLt
  have hserve := htail.serving_eq
  obtain ⟨⟨-, g2⟩, go, gk, gw⟩ := htail
  generalize boundaryTail (serving u c.val) v c.val = w at g2 go gk gw hserve ⊢
  rw [h5, h1, h6] at f1
  rw [h6] at f2
  rw [h5] at f3 f4 f5
  rw [h7, h2, h3] at f5
  refine ⟨fun x hx => (go x hx).trans ((fo x hx).trans (h5 x)), h4.trans (fk.trans gk), by rw [g2, ft]; exact hclear, ?_⟩
  rw [gw, hserve]
  exact ⟨f1, f2, f3, f4, f5⟩

/-! ### Holds and islands -/

theorem tabAt_hold {s : State} {c : Nat} (hc : c < 24) (hp : present s c = true) {v : Word} (hv : bits v 1 0 ≠ 3) :
    (chanAt (chHoldOp s c v) c).tab.hold = BitVec.ofNat 2 (bits v 1 0) := by
  have h := tabAt_chHoldOp hp hv
  obtain ⟨st, on, ht⟩ := tabAt_applyTarget (setTab s c (fun t => { t with hold := BitVec.ofNat 2 (bits v 1 0) })) c
  have hset : tabAt (setTab s c (fun t => { t with hold := BitVec.ofNat 2 (bits v 1 0) })) c = { tabAt s c with hold := BitVec.ofNat 2 (bits v 1 0) } :=
    congrArg Chan.tab (chanAt_setChan_self s c _ hc)
  rw [hset] at ht
  exact congrArg ChTab.hold (h.trans ht)

theorem bits_lt (v : Word) : bits v 1 0 < 4 := by
  unfold bits
  omega

/-- A hold of 2 lowers the target to OFF. -/
theorem effTarget_held {s : State} {c : Nat} (h : (chanAt s c).tab.hold = 2) : effTarget s c = .off := by
  unfold effTarget
  dsimp only
  rw [h]
  split
  · rfl
  · rfl

theorem chHoldOp_off {s : State} {c : Nat} (hc : c < 24) (hp : present s c = true) {v : Word} (hv : bits v 1 0 = 2)
    (habs : (chanAt s c).tab.state ≠ .absent) (hhalt : (chanAt s c).tab.state ≠ .halted ∨ (chanAt s c).tab.haltCause = 1) :
    (chanAt (chHoldOp s c v) c).tab.state = .off := by
  have h := tabAt_chHoldOp (s := s) (c := c) hp (v := v) (by rw [hv]; decide)
  have hset : chanAt (setTab s c (fun t => { t with hold := BitVec.ofNat 2 (bits v 1 0) })) c =
      { chanAt s c with tab := { (chanAt s c).tab with hold := BitVec.ofNat 2 (bits v 1 0) } } := chanAt_setChan_self s c _ hc
  have hp' : present (setTab s c (fun t => { t with hold := BitVec.ofNat 2 (bits v 1 0) })) c = present s c := rfl
  generalize setTab s c (fun t => { t with hold := BitVec.ofNat 2 (bits v 1 0) }) = u at h hset hp'
  refine (congrArg ChTab.state h).trans (applyTarget_off (hp'.trans hp) hc (effTarget_held (by rw [hset, hv]; rfl)) ?_ ?_)
  · unfold tabAt
    rw [hset]
    exact habs
  · unfold tabAt
    rw [hset]
    exact hhalt

theorem chHoldWrite_follows {s : State} {cp : Fin 2} {c : Ch} {v : Word} (hp : present s c.val = true) :
    ∃ t, exec (.chHoldWrite (.fw cp) c v) s = .next t ∧ OnlyChan s t c.val ∧
      (bits v 1 0 = 3 → t = s) ∧
      (bits v 1 0 ≠ 3 → (chanAt t c.val).tab.hold.toNat = bits v 1 0 ∧
        (bits v 1 0 = 2 → (chanAt s c.val).tab.state ≠ .absent →
          ((chanAt s c.val).tab.state ≠ .halted ∨ (chanAt s c.val).tab.haltCause = 1) → (chanAt t c.val).tab.state = .off)) := by
  refine ⟨chHoldOp s c.val v, rfl, (chHoldOp_chanMoves s c.val v).others, fun h3 => ?_, fun hv => ⟨?_, fun h2 habs hhalt =>
    chHoldOp_off c.isLt hp h2 habs hhalt⟩⟩
  · unfold chHoldOp
    rw [h3]
    exact if_neg (by simp)
  · rw [tabAt_hold c.isLt hp hv, BitVec.toNat_ofNat]
    exact Nat.mod_eq_of_lt (bits_lt v)

theorem islandPowered_follows (s : State) (c : Ch) : ∃ t, exec (.islandPowered c) s = .next t ∧ OnlyChan s t c.val ∧ t.rings = s.rings ∧
    (mayLeaveOff s c.val = false → t = s) ∧
    (mayLeaveOff s c.val = true → (chanAt t c.val).tab.state = .ready ∧ (chanAt t c.val).tab.island = true ∧
      (chanAt t c.val).line = (chanAt s c.val).line) := by
  cases h : mayLeaveOff s c.val with
  | false =>
    exact ⟨s, congrArg Host.Outcome.next (if_neg (by rw [h]; exact Bool.false_ne_true)), fun _ _ => rfl, rfl, fun _ => rfl, nofun⟩
  | true =>
    have hm := (setIsland_chanMoves s c.val true).trans (setChSt_chanMoves _ c.val .ready)
    have hset : chanAt (setIsland s c.val true) c.val = { chanAt s c.val with tab := { (chanAt s c.val).tab with island := true } } := by
      unfold setIsland
      have hdom : ∀ u : State, chanAt (islandDomains u) c.val = chanAt u c.val := fun _ => rfl
      rw [hdom, chanAt_setChan_self s c.val _ c.isLt]
      rfl
    refine ⟨setChSt (setIsland s c.val true) c.val .ready, congrArg Host.Outcome.next (if_pos h), hm.others, setChSt_rings _ _ _, nofun, fun _ => ?_⟩
    rw [chanAt_setChSt _ c.isLt, hset]
    exact ⟨rfl, rfl, rfl⟩

/-- Settles O16: a boundary is its channel's head, by its state and the step of the datum, and a tail that moves its second's tallies; the frame's
work keeps the marks the boundary sets. -/
theorem channelStatesFollowTheirTarget : Obligations.ChannelStatesFollowTheirTarget := by
  refine ⟨⟨fun s cp c v hp => chHoldWrite_follows hp, fun _ _ _ => rfl, islandPowered_follows⟩, fun s c rx h => ?_, fun s c rx hp he => ?_⟩
  · exact congrArg Host.Outcome.next (if_neg (by rw [h]; exact Bool.false_ne_true))
  · exact ⟨boundaryOp s c.val rx, congrArg Host.Outcome.next (if_pos (by rw [hp, he]; rfl)), boundaryOp_follows s c rx⟩

end Sys2Proof.Machine

/-! # The accesses that wait, and what takes place meanwhile (R60, R318)

A register access that takes place leaves the list of waiting accesses as it is, or empties it by a DEVICE reset: only an access that arrives joins
it. The lemmas `_waiting` say so once for each operation a register write can reach. -/

namespace Sys2Proof.Machine

open Sys2Proof

/-- From s to t no access joins or leaves those that wait. -/
@[simp] abbrev SameWaiting (s t : State) : Prop := t.pwr.waiting = s.pwr.waiting

@[simp] theorem ite_waiting (p : Prop) [Decidable p] (a b : State) :
    (if p then a else b).pwr.waiting = if p then a.pwr.waiting else b.pwr.waiting := by split <;> rfl

@[simp] theorem foldl_waiting {α : Type} (f : State → α → State) (h : ∀ s a, SameWaiting s (f s a)) (l : List α) (s : State) :
    SameWaiting s (l.foldl f s) := foldl_keeps (fun t => t.pwr.waiting) f h l s

/-! ### The feed, the supply and the datum (chapters 10 and 13) -/

@[simp] theorem feedUnlockOp_waiting (s : State) (c : Nat) : SameWaiting s (feedUnlockOp s c) := by simp [feedUnlockOp]
@[simp] theorem feedOff_waiting (s : State) : SameWaiting s (feedOff s) := by simp [feedOff]
@[simp] theorem feedPower_waiting (s : State) : SameWaiting s (feedPower s) := by simp [feedPower, feedOn]
@[simp] theorem logEntry_waiting (s : State) (e : SupLog) : SameWaiting s (logEntry s e) := by simp [logEntry]
@[simp] theorem supplyLog_waiting (s : State) (kind input detail : Nat) (value : Word) (start : Nat) (valid : Bool) :
    SameWaiting s (supplyLog s kind input detail value start valid) := by
  simp [supplyLog]
@[simp] theorem budgetCheck_waiting (s : State) : SameWaiting s (budgetCheck s) := by simp [budgetCheck]
@[simp] theorem auxOp_waiting (s : State) (v : Word) : SameWaiting s (auxOp s v) := by simp [auxOp]
@[simp] theorem setTimeState_waiting (s : State) (st : TimeSt) : SameWaiting s (setTimeState s st) := by simp [setTimeState]
@[simp] theorem invalidateOp_waiting (s : State) : SameWaiting s (invalidateOp s) := by simp [invalidateOp]
@[simp] theorem datumCtlOp_waiting (s : State) (v : Word) : SameWaiting s (datumCtlOp s v) := by simp [datumCtlOp]
@[simp] theorem loadLate_waiting (s : State) : SameWaiting s (loadLate s) := by simp [loadLate]
@[simp] theorem todLoadOp_waiting (s : State) (kind : Bool) : SameWaiting s (todLoadOp s kind) := by simp [todLoadOp]
@[simp] theorem tddOp_waiting (s : State) (v : Word) : SameWaiting s (tddOp s v) := by simp [tddOp]

/-! ### The processors and the flash (chapter 15) -/

@[simp] theorem restartWdg_waiting (s : State) (cp : Nat) : SameWaiting s (restartWdg s cp) := by simp [restartWdg]
@[simp] theorem kickOp_waiting (s : State) (who : Requester) (v : Word) : SameWaiting s (kickOp s who v) := by unfold kickOp; split <;> simp
@[simp] theorem fwStatWrite_waiting (s : State) (who : Requester) (off : Nat) (v : Word) : SameWaiting s (fwStatWrite s who off v) := by
  unfold fwStatWrite; split <;> simp
@[simp] theorem boot_waiting (s : State) : SameWaiting s (boot s) := by simp [boot]
@[simp] theorem endCapsule_waiting (s : State) : SameWaiting s (endCapsule s) := by unfold endCapsule; split <;> simp

/-! ### Power states, islands and channel states (chapters 04 and 14) -/

@[simp] theorem setPwr_waiting (s : State) (st : PwrSt) : SameWaiting s (setPwr s st) := by unfold setPwr; (repeat' split) <;> simp
@[simp] theorem leaveSleep_waiting (s : State) : SameWaiting s (leaveSleep s) := by simp [leaveSleep]
@[simp] theorem floorOp_waiting (s : State) (v : Word) : SameWaiting s (floorOp s v) := by simp [floorOp]
@[simp] theorem setIsland_waiting (s : State) (c : Nat) (on : Bool) : SameWaiting s (setIsland s c on) := by simp [setIsland, islandDomains]
@[simp] theorem setChSt_waiting (s : State) (c : Nat) (st : ChSt) : SameWaiting s (setChSt s c st) := by simp [setChSt]
@[simp] theorem wakeRaised_waiting (old s : State) : SameWaiting s (wakeRaised old s) := by simp [wakeRaised]
@[simp] theorem dropCur_waiting (s : State) (c : Nat) : SameWaiting s (dropCur s c) := by
  unfold dropCur; split
  next => rfl
  next f _ => cases f.src <;> simp
@[simp] theorem dropChan_waiting (s : State) (c : Nat) (p : Frame → Bool) : SameWaiting s (dropChan s c p) := by simp [dropChan]
@[simp] theorem stopLine_waiting (s : State) (c : Nat) : SameWaiting s (stopLine s c) := by simp [stopLine]
@[simp] theorem enterOff_waiting (s : State) (c : Nat) : SameWaiting s (enterOff s c) := by simp [enterOff]
@[simp] theorem breakBlock_waiting (s : State) (c i : Nat) : SameWaiting s (breakBlock s c i) := by unfold breakBlock; split <;> simp
@[simp] theorem leaveService_waiting (s : State) (c : Nat) : SameWaiting s (leaveService s c) := by simp [leaveService, returnNoPath]
@[simp] theorem goReady_waiting (s : State) (c : Nat) : SameWaiting s (goReady s c) := by simp [goReady]
@[simp] theorem applyTarget_waiting (s : State) (c : Nat) : SameWaiting s (applyTarget s c) := by
  unfold applyTarget; (repeat' split) <;> simp [goOff]
@[simp] theorem chHoldOp_waiting (s : State) (c : Nat) (v : Word) : SameWaiting s (chHoldOp s c v) := by simp [chHoldOp]

/-! ### Channel-table reads (chapter 04) -/

@[simp] theorem mapTab_waiting (s : State) (c : Nat) (f : ChTab → ChTab) : SameWaiting s (mapTab s c f) := by simp [mapTab]
@[simp] theorem returnRefreshes_waiting (s : State) (c : Nat) (st : Status) : SameWaiting s (returnRefreshes s c st) := by
  simp [returnRefreshes]
@[simp] theorem readFailed_waiting (s : State) (c : Nat) (st : Status) : SameWaiting s (readFailed s c st) := by simp [readFailed]
@[simp] theorem issuePhase_waiting (s : State) (c off len : Nat) (p : ReadPhase) : SameWaiting s (issuePhase s c off len p) := by
  simp [issuePhase, readWindowFault]
@[simp] theorem beginRead_waiting (s : State) (c : Nat) : SameWaiting s (beginRead s c) := by simp [beginRead]
@[simp] theorem requestRefresh_waiting (s : State) (c : Nat) : SameWaiting s (requestRefresh s c) := by simp [requestRefresh]
@[simp] theorem requestAll_waiting (s : State) (l : List Nat) : SameWaiting s (requestAll s l) := by simp [requestAll]
@[simp] theorem chtabEnableOp_waiting (s : State) (on : Bool) : SameWaiting s (chtabEnableOp s on) := by
  simp [chtabEnableOp, tableOff, applyTargets]
@[simp] theorem chtabRefreshOp_waiting (s : State) (mask : Word) : SameWaiting s (chtabRefreshOp s mask) := by simp [chtabRefreshOp]
@[simp] theorem stage_waiting (s : State) (off : Nat) (v : Word) : SameWaiting s (stage s off v) := by simp [stage]
@[simp] theorem chtabBaseHigh_waiting (s : State) (off : Nat) (v : Word) : SameWaiting s (chtabBaseHigh s off v) := by
  simp [chtabBaseHigh, takeHigh]

/-! ### Rings, MSI-X tables and windows (chapter 02) -/

@[simp] theorem haltedClear_waiting (s : State) (r : Nat) : SameWaiting s (haltedClear s r) := by simp [haltedClear]
@[simp] theorem ringStatWrite_waiting (s : State) (r : Nat) (v : Word) : SameWaiting s (ringStatWrite s r v) := by simp [ringStatWrite]
@[simp] theorem ringCfgOp_waiting (s : State) (r : RingNo) (v : Word) : SameWaiting s (ringCfgOp s r v) := by simp [ringCfgOp]
@[simp] theorem ringRegWrite_waiting (s : State) (off r o : Nat) (v : Word) : SameWaiting s (ringRegWrite s off r o v) := by
  unfold ringRegWrite; dsimp only; split <;> simp [takeHigh]
@[simp] theorem msixWrite_waiting (s : State) (f o : Nat) (v : Word) : SameWaiting s (msixWrite s f o v) := by
  unfold msixWrite; dsimp only; (repeat' split) <;> simp
@[simp] theorem windowWrite_waiting (s : State) (off f w o : Nat) (v : Word) : SameWaiting s (windowWrite s off f w o v) := by
  unfold windowWrite; dsimp only; split <;> simp [lockWrite, takeHigh]

/-! ### The ledger (chapter 03) -/

@[simp] theorem ledgerFresh_waiting (s : State) : SameWaiting s (ledgerFresh s) := by simp [ledgerFresh]
@[simp] theorem ledgerCloseOp_waiting (s : State) : SameWaiting s (ledgerCloseOp s) := by simp [ledgerCloseOp]
@[simp] theorem ledgCtlOp_waiting (s : State) (v : Word) : SameWaiting s (ledgCtlOp s v) := by simp [ledgCtlOp]

/-! ### Forwarding, gate lists and counters (chapters 08, 09 and 16) -/

@[simp] theorem flowReadOp_waiting (s : State) (p : Nat) (idx : BitVec 12) : SameWaiting s (flowReadOp s p idx) := by simp [flowReadOp]
@[simp] theorem flowWriteOp_waiting (s : State) (p : Nat) (idx : BitVec 12) : SameWaiting s (flowWriteOp s p idx) := by simp [flowWriteOp]
@[simp] theorem flowClearOp_waiting (s : State) (p : Nat) (idx : BitVec 12) : SameWaiting s (flowClearOp s p idx) := by simp [flowClearOp]
@[simp] theorem ftCmdOp_waiting (s : State) (p : Nat) (v : Word) : SameWaiting s (ftCmdOp s p v) := by unfold ftCmdOp; split <;> simp
@[simp] theorem shadowOp_waiting (s : State) (c : Nat) (f : Gcl → GclBank → GclBank) : SameWaiting s (shadowOp s c f) := by simp [shadowOp]
@[simp] theorem gclSwapOp_waiting (s : State) (c : Nat) : SameWaiting s (gclSwapOp s c) := by simp [gclSwapOp]
@[simp] theorem gclCtlOp_waiting (s : State) (c : Nat) (v : Word) : SameWaiting s (gclCtlOp s c v) := by simp [gclCtlOp]
@[simp] theorem clearHist_waiting (s : State) (c : Nat) : SameWaiting s (clearHist s c) := by simp [clearHist]
@[simp] theorem setCounter_waiting (s : State) (k : CntSel) (x : Counter) : SameWaiting s (setCounter s k x) := by
  unfold setCounter; split <;> simp
@[simp] theorem counterCfgOp_waiting (s : State) (who : Requester) (k : CntSel) (v : Word) : SameWaiting s (counterCfgOp s who k v) := by
  simp [counterCfgOp]
@[simp] theorem evtSoftOp_waiting (s : State) (v : Word) : SameWaiting s (evtSoftOp s v) := by simp [evtSoftOp]
@[simp] theorem routeOp_waiting (s : State) (i : Nat) (v : Word) : SameWaiting s (routeOp s i v) := by simp [routeOp]

/-! ### The uplink (chapter 05) -/

@[simp] theorem followSrc_waiting (s : State) : SameWaiting s (followSrc s) := by simp [followSrc]
@[simp] theorem driveTx_waiting (s : State) : SameWaiting s (driveTx s) := by simp [driveTx]
@[simp] theorem uplSettled_waiting (s : State) : SameWaiting s (uplSettled s) := by simp [uplSettled]
@[simp] theorem dropTcont_waiting (s : State) (p : Frame → Bool) : SameWaiting s (dropTcont s p) := by simp [dropTcont]
@[simp] theorem onuStateOp_waiting (s : State) (v : BitVec 4) : SameWaiting s (onuStateOp s v) := by simp [onuStateOp, returnUplink]
@[simp] theorem setGate_waiting (s : State) (g : GateSt) : SameWaiting s (setGate s g) := by simp [setGate]
@[simp] theorem stopGate_waiting (s : State) : SameWaiting s (stopGate s) := by simp [stopGate]
@[simp] theorem gateFwOp_waiting (s : State) (v : Word) : SameWaiting s (gateFwOp s v) := by simp [gateFwOp]
@[simp] theorem rogueClearOp_waiting (s : State) (sd : Bool) : SameWaiting s (rogueClearOp s sd) := by simp [rogueClearOp]
@[simp] theorem portCmdOp_waiting (s : State) (who : Requester) (v : Word) : SameWaiting s (portCmdOp s who v) := by
  unfold portCmdOp; split <;> simp

/-! ### The radio (chapter 12) -/

@[simp] theorem radCount_waiting (s : State) (i : Nat) : SameWaiting s (radCount s i) := by simp [radCount]
@[simp] theorem radEnd_waiting (s : State) (t : RadTx) (acked noAck stop : Bool) : SameWaiting s (radEnd s t acked noAck stop) := by
  simp [radEnd]
@[simp] theorem radCut_waiting (s : State) : SameWaiting s (radCut s) := by unfold radCut; split <;> simp
@[simp] theorem radOn_waiting (s : State) : SameWaiting s (radOn s) := by simp [radOn, govFill]
@[simp] theorem radOff_waiting (s : State) : SameWaiting s (radOff s) := radCut_waiting s
@[simp] theorem radFollow_waiting (s : State) : SameWaiting s (radFollow s) := by simp [radFollow]
@[simp] theorem radCtlOp_waiting (s : State) (v : Word) : SameWaiting s (radCtlOp s v) := by simp [radCtlOp]
@[simp] theorem radAccessOp_waiting (s : State) (v : Word) : SameWaiting s (radAccessOp s v) := by
  unfold radAccessOp
  exact congrArg Pwr.waiting (setRad_pwr s _)
@[simp] theorem govWrite_waiting (s : State) (b o : Nat) (v : Word) : SameWaiting s (govWrite s b o v) := by simp [govWrite]
@[simp] theorem devCmdOp_waiting (s : State) (v : Word) : SameWaiting s (devCmdOp s v) := by simp [devCmdOp]

/-! ### What a DEVICE reset cuts (R17, R20) -/

@[simp] theorem stopWork_waiting (s : State) (c : Nat) : SameWaiting s (stopWork s c) := by simp [stopWork]
@[simp] theorem emitBurstWork_waiting (cut : Bool) (s : State) (x : BurstWork) : SameWaiting s (emitBurstWork cut s x) := by
  unfold emitBurstWork; split <;> simp
@[simp] theorem cutUplink_waiting (s : State) : SameWaiting s (cutUplink s) := by unfold cutUplink; split <;> simp
@[simp] theorem dyingGaspEnd_waiting (s : State) : SameWaiting s (dyingGaspEnd s) := by simp [dyingGaspEnd]
@[simp] theorem clearKeys_waiting (s : State) : SameWaiting s (clearKeys s) := by simp [clearKeys]
@[simp] theorem deriveCapsule_waiting (s : State) : SameWaiting s (deriveCapsule s) := by unfold deriveCapsule; (repeat' split) <;> simp
@[simp] theorem writeRecord_waiting (s : State) (f : IdRec → IdRec) : SameWaiting s (writeRecord s f) := by simp [writeRecord]
@[simp] theorem revertIdentity_waiting (s : State) : SameWaiting s (revertIdentity s) := by
  unfold revertIdentity; dsimp only; (repeat' split) <;> simp

/-! ### Register writes (chapter 17) -/

@[simp] theorem nextOp_waiting (s : State) (v : Word) : SameWaiting s (nextOp s v) := by simp [nextOp]
@[simp] theorem lockAllOp_waiting (s : State) : SameWaiting s (lockAllOp s) := rfl
@[simp] theorem writeChan_waiting (s : State) (who : Requester) (off c o : Nat) (v : Word) : SameWaiting s (writeChan s who off c o v) := by
  simp [writeChan, pfWrite_eq_ite, fwWrite]
@[simp] theorem writeHif_waiting (s : State) (who : Requester) (off : Nat) (v : Word) : SameWaiting s (writeHif s who off v) := by
  simp [writeHif, pfWrite_eq_ite, lockWrite]
@[simp] theorem writeLedg_waiting (s : State) (off : Nat) (v : Word) : SameWaiting s (writeLedg s off v) := by
  unfold writeLedg; dsimp only; split <;> simp [takeHigh]
@[simp] theorem writePwr_waiting (s : State) (who : Requester) (off : Nat) (v : Word) : SameWaiting s (writePwr s who off v) := by
  unfold writePwr; dsimp only; split <;> simp [pfWrite_eq_ite]
@[simp] theorem writeTime_waiting (s : State) (who : Requester) (off : Nat) (v : Word) : SameWaiting s (writeTime s who off v) := by
  unfold writeTime; dsimp only; split <;> simp [pfWrite_eq_ite]
@[simp] theorem writeUpl_waiting (s : State) (who : Requester) (off : Nat) (v : Word) : SameWaiting s (writeUpl s who off v) := by
  unfold writeUpl; dsimp only; split <;> simp [uplLocked, pfWrite_eq_ite, lockWrite, fwWrite, takeHigh]
@[simp] theorem writeXc_waiting (s : State) (who : Requester) (off : Nat) (v : Word) : SameWaiting s (writeXc s who off v) := by
  simp [writeXc]
@[simp] theorem writeSec_waiting (s : State) (who : Requester) (off : Nat) (v : Word) : SameWaiting s (writeSec s who off v) := by
  unfold writeSec; split <;> simp [pfWrite_eq_ite, lockWrite]
@[simp] theorem writeRad_waiting (s : State) (who : Requester) (off : Nat) (v : Word) : SameWaiting s (writeRad s who off v) := by
  simp [writeRad, radLocked, pfWrite_eq_ite, lockWrite, fwWrite, takeHigh]
@[simp] theorem writeSup_waiting (s : State) (who : Requester) (off : Nat) (v : Word) : SameWaiting s (writeSup s who off v) := by
  unfold writeSup; split <;> simp [supLocked, pfWrite_eq_ite, lockWrite]
@[simp] theorem writeEvt_waiting (s : State) (who : Requester) (off : Nat) (v : Word) : SameWaiting s (writeEvt s who off v) := by
  simp [writeEvt, pfWrite_eq_ite, fwWrite]
@[simp] theorem writeFw_waiting (s : State) (who : Requester) (off : Nat) (v : Word) : SameWaiting s (writeFw s who off v) := by
  unfold writeFw; dsimp only; split <;> simp [pfWrite_eq_ite, fwWrite]
@[simp] theorem writeMgt_waiting (s : State) (who : Requester) (off : Nat) (v : Word) : SameWaiting s (writeMgt s who off v) := by
  simp [writeMgt, pfWrite_eq_ite]

/-! ### DEVICE resets, and every register write -/

theorem resetDevice_waiting (s : State) (c : ResetCause) : (resetDevice s c).pwr.waiting = [] := by
  simp [resetDevice, clearDevice]

/-- From s to t no access joins those that wait. -/
def NoneJoins (s t : State) : Prop := t.pwr.waiting ⊆ s.pwr.waiting

theorem SameWaiting.noneJoins {s t : State} (h : SameWaiting s t) : NoneJoins s t := fun _ hx => h ▸ hx

theorem NoneJoins.refl (s : State) : NoneJoins s s := fun _ hx => hx

theorem NoneJoins.trans {s t u : State} (h : NoneJoins s t) (h' : NoneJoins t u) : NoneJoins s u := fun _ hx => h (h' hx)

theorem hostResetOp_noneJoins (s : State) (key : Word) : NoneJoins s (hostResetOp s key) := by
  have kept : ∀ f, NoneJoins s (modGlb s f) := fun _ => .refl s
  have reset : NoneJoins s (resetDevice s .hostFull) := fun x hx => by
    rw [resetDevice_waiting] at hx
    exact absurd hx List.not_mem_nil
  unfold hostResetOp deviceReset
  split
  · exact .refl s
  split
  · exact kept _
  split
  · exact .refl s
  · exact reset

theorem pfWrite_noneJoins {s : State} {f : State → State} (h : NoneJoins s (f s)) (who : Requester) (off : Nat) (acts : Bool) :
    NoneJoins s (pfWrite s who off acts f) := by
  rw [pfWrite_eq_ite]
  split
  · exact h
  · exact SameWaiting.noneJoins (by simp)

theorem writeGlb_noneJoins (s : State) (who : Requester) (off : Nat) (v : Word) : NoneJoins s (writeGlb s who off v) := by
  unfold writeGlb
  split
  case h_3 => exact pfWrite_noneJoins (hostResetOp_noneJoins s v) who _ _
  all_goals exact SameWaiting.noneJoins (by simp [pfWrite_eq_ite])

theorem writeReg_noneJoins (s : State) (who : Requester) (off : Nat) (v : Word) : NoneJoins s (writeReg s who off v) := by
  unfold writeReg
  (repeat' split)
  case h_1 => exact writeGlb_noneJoins s who off v
  all_goals exact SameWaiting.noneJoins (by simp)

theorem readValue_waiting (s : State) (off : Nat) : SameWaiting s (readValue s off).2 := by
  unfold readValue
  split
  · rfl
  split
  · rfl
  · rfl

theorem applyAccess_noneJoins (s : State) (a : Access) : NoneJoins s (applyAccess s a) := by
  unfold applyAccess
  split
  · exact .refl s
  · exact .refl s
  next off _ _ => exact SameWaiting.noneJoins (readValue_waiting s off)
  · exact writeReg_noneJoins s a.who _ _

end Sys2Proof.Machine

/-! # An access is refused, waits for its domain, or takes place (O46) -/

namespace Sys2Proof.Machine

open Sys2Proof

theorem reqFn_lt (who : Requester) : reqFn who < 25 := by
  cases who with
  | vf c => exact Nat.succ_lt_succ c.isLt
  | pf => exact Nat.succ_pos 24
  | fw _ => exact Nat.succ_pos 24

/-! ### Errors reported through AER (R11, R14) -/

/-- A report sets its bit in its function's AER record alone. -/
theorem aerReport_follows (s : State) {f : Nat} (hf : f < 25) (bit : Nat) :
    aerReport s f bit = { s with hif := { s.hif with funcs := (aerReport s f bit).hif.funcs }, sent := .aer f :: s.sent } ∧
      (vget (aerReport s f bit).hif.funcs f (Func.reset 0)).aer = (vget s.hif.funcs f (Func.reset 0)).aer ||| word (2 ^ bit) ∧
      ∀ g, g ≠ f → vget (aerReport s f bit).hif.funcs g (Func.reset 0) = vget s.hif.funcs g (Func.reset 0) :=
  ⟨rfl, congrArg Func.aer (vget_vset_self _ _ _ _ hf), fun _ hg => vget_vset_ne _ _ _ _ _ hg⟩

/-- An access refused is answered as unsupported, and its function reports it. -/
theorem refuseAccess_follows (s : State) (who : Requester) (off : Nat) :
    refuseAccess s who off = { s with hif := { s.hif with funcs := (refuseAccess s who off).hif.funcs }, sent := (refuseAccess s who off).sent } ∧
      (refuseAccess s who off).sent = .aer (reqFn who) :: .ur who off :: s.sent ∧
      (vget (refuseAccess s who off).hif.funcs (reqFn who) (Func.reset 0)).aer =
        (vget s.hif.funcs (reqFn who) (Func.reset 0)).aer ||| word (2 ^ 20) ∧
      ∀ f, f ≠ reqFn who → vget (refuseAccess s who off).hif.funcs f (Func.reset 0) = vget s.hif.funcs f (Func.reset 0) :=
  ⟨rfl, rfl, (aerReport_follows (emitOut s (.ur who off)) (reqFn_lt who) 20).2⟩

/-! ### Reads (R15, R60) -/

/-- A read of a register that no latch concerns answers it and changes nothing. -/
theorem readValue_plain {s : State} {o : Nat} (hdatum : o ≠ 0x50000) (hpps : o ≠ 0x50054) (hlow : pairLow o = false)
    (hlatch : lookup s.hif.latchPcie o = none) : readValue s o = (readReg s o, s) := by
  have hread : latchRead s.hif.latchPcie (readReg s) o = (readReg s o, s.hif.latchPcie) := by
    simp only [latchRead, hlow, hlatch, Bool.false_eq_true, if_false]
  unfold readValue
  rw [if_neg hdatum, if_neg hpps, hread]
  rfl

/-- An access of a register waits for the register's domain, or for none. -/
theorem waitsFor_held {s : State} {a : Access} {o : Nat} (hview : viewOff a.who a.off.toNat = some o) (hheld : holdsReg s o = true) :
    waitsFor s a = if !domReady s (regDomain o) || s.pwr.waiting.any (fun w => w.1 == regDomain o) then some (regDomain o) else none := by
  simp only [waitsFor, hview, hheld, Bool.true_and]

theorem noneWaits {s : State} {d : Domain} (h : ∀ w, w ∈ s.pwr.waiting → w.1 ≠ d) : s.pwr.waiting.any (fun w => w.1 == d) = false := by
  simp only [List.any_eq_false, beq_iff_eq]
  exact h

/-- A read that its function serves, of a register and with no write to record. -/
theorem exec_read {s : State} {a : Access} (htest : s.pwr.testEn = false) (hbar : barServes s a.who = true) (hread : a.value = none) :
    exec (.domainWakeOnAccess a) s = .next (servedAccess s a) := by
  refine congrArg Host.Outcome.next ?_
  simp only [accessOp, htest, hbar, hread, Option.isSome_none, Bool.false_and, Bool.not_true, Bool.false_eq_true, if_false]

theorem read_answered {s : State} {a : Access} {o : Nat} (htest : s.pwr.testEn = false) (hbar : barServes s a.who = true) (hread : a.value = none)
    (hview : viewOff a.who a.off.toNat = some o) (hheld : holdsReg s o = true) (hready : domReady s (regDomain o) = true)
    (hnone : ∀ w, w ∈ s.pwr.waiting → w.1 ≠ regDomain o) (hdatum : o ≠ 0x50000) (hpps : o ≠ 0x50054) (hlow : pairLow o = false)
    (hlatch : lookup s.hif.latchPcie o = none) :
    exec (.domainWakeOnAccess a) s = .next { s with
      sent := .readAnswer a.who a.off.toNat (if otherPort a.who o then 0 else readReg s o) :: s.sent } := by
  have hnow : waitsFor s a = none := by
    rw [waitsFor_held hview hheld, hready, noneWaits hnone]
    rfl
  rw [exec_read htest hbar hread]
  refine congrArg Host.Outcome.next ?_
  simp only [servedAccess, hnow, applyAccess, hview, hread, readOp, readValue_plain hdatum hpps hlow hlatch]
  rfl

theorem read_waits {s : State} {a : Access} {o : Nat} (htest : s.pwr.testEn = false) (hbar : barServes s a.who = true) (hread : a.value = none)
    (hview : viewOff a.who a.off.toNat = some o) (hheld : holdsReg s o = true) (hready : domReady s (regDomain o) = false)
    (hupl : regDomain o ≠ .upl ∨ s.pwr.state ≠ .waking) :
    exec (.domainWakeOnAccess a) s = .next { s with pwr := { s.pwr with waiting := s.pwr.waiting ++ [(regDomain o, a)] } } := by
  have hwaits : waitsFor s a = some (regDomain o) := by
    rw [waitsFor_held hview hheld, hready]
    rfl
  have hlate : uplLate s a (regDomain o) = false := by
    unfold uplLate
    rcases hupl with h | h <;> simp [h]
  rw [exec_read htest hbar hread]
  refine congrArg Host.Outcome.next ?_
  simp only [servedAccess, hwaits, hlate, Bool.false_eq_true, if_false]
  rfl

/-! ### A domain that becomes ready, and one left alone (R60, R318) -/

theorem domainReady_nothing {s : State} {d : Domain} (h : (∀ w, w ∈ s.pwr.waiting → w.1 ≠ d) ∨ canReady s d = false) :
    exec (.domainReady d) s = .next s := by
  refine congrArg Host.Outcome.next (if_pos ?_)
  rcases h with hnone | hcan
  · have hempty : s.pwr.waiting.filter (fun w => w.1 == d) = [] :=
      List.filter_eq_nil_iff.2 fun w hw heq => hnone w hw (beq_iff_eq.1 heq)
    rw [hempty]
    rfl
  · rw [hcan, Bool.not_false, Bool.or_true]

theorem foldl_applyAccess_noneJoins (l : List (Domain × Access)) (s : State) : NoneJoins s (l.foldl (fun t w => applyAccess t w.2) s) := by
  induction l generalizing s with
  | nil => exact .refl s
  | cons w l ih => exact (applyAccess_noneJoins s w.2).trans (ih _)

theorem domainReady_served {s : State} {d : Domain} {w : Domain × Access} (hw : w ∈ s.pwr.waiting) (hd : w.1 = d) (hcan : canReady s d = true) :
    ∃ t, exec (.domainReady d) s = .next t ∧ ∀ x, x ∈ t.pwr.waiting → x.1 ≠ d := by
  have hmine : (s.pwr.waiting.filter (fun w => w.1 == d)).isEmpty = false := by
    rw [List.isEmpty_eq_false_iff_exists_mem]
    exact ⟨w, List.mem_filter.2 ⟨hw, beq_iff_eq.2 hd⟩⟩
  refine ⟨_, congrArg Host.Outcome.next (if_neg ?_), fun x hx => ?_⟩
  · rw [hmine, hcan]
    exact Bool.false_ne_true
  · obtain ⟨-, hne⟩ := List.mem_filter.1 (foldl_applyAccess_noneJoins _ _ hx)
    exact bne_iff_ne.1 hne

theorem CutKept.woken_datum {s t : State} (h : CutKept s t) : t.pwr.woken = s.pwr.woken ∧ t.datum = s.datum := by
  rw [h.frame]
  exact ⟨rfl, rfl⟩

theorem radOff_keeps (s : State) : (radOff s).pwr.woken = s.pwr.woken ∧ (radOff s).datum = s.datum := (radCut_cutKept s).woken_datum

theorem radFollow_keeps (s : State) : (radFollow s).pwr.woken = s.pwr.woken ∧ (radFollow s).datum = s.datum := by
  unfold radFollow
  split
  · exact ⟨rfl, rfl⟩
  · exact radOff_keeps s

theorem feedPower_keeps (s : State) : (feedPower s).pwr.woken = s.pwr.woken ∧ (feedPower s).datum = s.datum :=
  ⟨by rw [feedPower_pwr], by rw [feedPower_frame]⟩

theorem lingerExpiry_follows {s : State} {d : Domain} (hwoken : s.pwr.woken.contains d = true) (hnone : ∀ w, w ∈ s.pwr.waiting → w.1 ≠ d) :
    ∃ t, exec (.lingerExpiry d) s = .next t ∧ d ∉ t.pwr.woken ∧ t.datum = s.datum ∧
      (d = .core → t = { s with pwr := { s.pwr with woken := s.pwr.woken.filter (fun x => x != .core) } }) := by
  have hout : d ∉ s.pwr.woken.filter (fun x => x != d) := by simp
  have hgo : ¬ (!s.pwr.woken.contains d || s.pwr.waiting.any (fun w => w.1 == d)) = true := by
    rw [hwoken, noneWaits hnone]
    exact Bool.false_ne_true
  refine ⟨_, congrArg Host.Outcome.next (if_neg hgo), ?_⟩
  cases d with
  | rad =>
    obtain ⟨hw, hd⟩ := radFollow_keeps (modPwr s (fun p => { p with woken := p.woken.filter (fun x => x != .rad) }))
    exact ⟨by dsimp only; rw [hw]; exact hout, hd, nofun⟩
  | feed =>
    obtain ⟨hw, hd⟩ := feedPower_keeps (modPwr s (fun p => { p with woken := p.woken.filter (fun x => x != .feed) }))
    exact ⟨by dsimp only; rw [hw]; exact hout, hd, nofun⟩
  | core => exact ⟨hout, rfl, fun _ => rfl⟩
  | _ => exact ⟨hout, rfl, nofun⟩

/-! ### The obligation -/

theorem accessOp_refused {s : State} {a : Access} (htest : s.pwr.testEn = false) (hbar : barServes s a.who = false) :
    accessOp s a = refuseAccess s a.who a.off.toNat := by
  simp only [accessOp, htest, hbar, Bool.not_false, Bool.false_eq_true, if_false, if_true]

/-- Settles O46: an access is refused by its function, waits behind its domain, or takes place; no register write lets another join those that wait. -/
theorem accessServedRefusedOrHeld : Obligations.AccessServedRefusedOrHeld := by
  refine ⟨fun s htest => ⟨fun a => ?_, fun who off v => ?_, fun who b off => ?_, fun f b off => ?_⟩, fun s htest =>
    ⟨fun _ _ _ => rfl, fun a hbar => ?_, fun a o hbar hread hview hheld => ⟨read_answered htest hbar hread hview hheld,
      read_waits htest hbar hread hview hheld⟩, fun d => domainReady_nothing, fun d w hw hd => domainReady_served hw hd,
      fun d => lingerExpiry_follows, fun who b off => ?_, fun f b off => ?_⟩⟩
  · exact congrArg Host.Outcome.next (if_pos htest)
  · exact congrArg Host.Outcome.next (if_pos htest)
  · exact congrArg Host.Outcome.next (if_pos htest)
  · exact congrArg Host.Outcome.next (if_pos htest)
  · exact ⟨_, congrArg Host.Outcome.next (accessOp_refused htest hbar), refuseAccess_follows s a.who a.off.toNat⟩
  · obtain ⟨hframe, hsent, -⟩ := refuseAccess_follows s who off.toNat
    exact ⟨_, congrArg Host.Outcome.next (if_neg (by rw [htest]; exact Bool.false_ne_true)), hframe, hsent⟩
  · obtain ⟨hframe, haer, -⟩ := aerReport_follows s f.isLt 12
    exact ⟨_, congrArg Host.Outcome.next (if_neg (by rw [htest]; exact Bool.false_ne_true)), hframe, haer⟩

end Sys2Proof.Machine
